-- ==== Sys2Proof/Word.lean ====
section
/-!
DEFINITION. The word types of the HQN-9384 model and their plainest arithmetic (spec/00_scope.md R3: registers
are 64 bits wide and little-endian, lines are 64 bytes).
-/

namespace Sys2Proof

/-- A register of the package register space, or a CSR (R3). -/
abbrev Word := BitVec 64

/-- One byte. -/
abbrev Byte := BitVec 8

/-- The 64 bytes of a line; payload byte `i` is bits `[8i + 7 : 8i]` (R92, R147). -/
abbrev Line := BitVec 512

/-- The `w` bits of `n` that start at bit `lo`. -/
def bits (n lo w : Nat) : Nat := (n >>> lo) % 2 ^ w

/-- `n` with the `w` bits from `lo` replaced by the low `w` bits of `v`. -/
def setBits (n lo w v : Nat) : Nat :=
  n - (bits n lo w) <<< lo + (v % 2 ^ w) <<< lo

/-- Bit `i` of `n`. -/
def bit (n i : Nat) : Bool := n.testBit i

/-- A Bool as the value of a one-bit field. -/
def b2n (b : Bool) : Nat := if b then 1 else 0

/-- A field that saturates at its largest value (`w` bits). -/
def satAdd (w a n : Nat) : Nat := min (a + n) (2 ^ w - 1)

/-- The number of ones among the low `w` bits of `n`. -/
def popCount (w n : Nat) : Nat := ((List.range w).filter (fun i => n.testBit i)).length

/-- A sparse table: (key, value) pairs, the keys strictly rising (Machine/Tbl.lean has its operations). -/
abbrev Machine.Tbl (α : Type) := List (Nat × α)

/-- Fold over the numbers below `n`, rising. -/
def foldN {σ : Type} (n : Nat) (s : σ) (f : Nat → σ → σ) : σ := (List.range n).foldl (fun s i => f i s) s

end Sys2Proof
end

