-- ==== Sys2Proof/Syntax.lean ====
section
/-!
DEFINITION. The commands of the HQN-9384, one constructor per row of spec/opcode_table.json, and the messages, flits,
frames, packets and accesses that they carry. Fields whose encodings the receiver checks (R93, R148, R243, R347) are
numbers, so that an illegal value can arrive.
-/

namespace Sys2Proof

/-- A local hart, 0 to 383 (spec/01 R20). -/
abbrev Hart := Fin 384
/-- A Vale die (R20). -/
abbrev Die := Fin 12
/-- A home slice, Mesa slice, memory channel, Vale cache slice or way index. -/
abbrev Ix16 := Fin 16
/-- A Pass port (R18). -/
abbrev Port := Fin 24
/-- A Horizon port. -/
abbrev HPort := Fin 8
/-- A root port. -/
abbrev RPort := Fin 32
/-- An XCE function: 0 is PF0, k is VF k (spec/11 R264). -/
abbrev Func := Fin 2049

/-- The effective privilege of an access (R32, R33). -/
inductive Priv where | m | hs | u | vs | vu
  deriving DecidableEq, Repr

/-- Svpbmt page type (spec/02 R39). -/
inductive Pbmt where | pma | nc | io
  deriving DecidableEq, Repr

/-- The two ends of a Pass port (spec/06 R142). -/
inductive End where | basin | vale
  deriving DecidableEq, Repr

/-- The ingresses of Thoiviyx (spec/15). -/
inductive Ingress where | msl | mbox
  deriving DecidableEq, Repr

/-- How translation or physical memory protection refuses a page (spec/02 R48, R51): a page fault, a guest-page fault
at a guest physical address, or PMP. -/
inductive XFault where
  | page
  | guest (gpa : Nat)
  | pmp
  deriving DecidableEq, Repr

/-- The second page of an access that crosses a page boundary, translated on its own (R40): its page type, the global
address where its bytes begin, and how it is refused. -/
structure Page2 where
  pbmt  : Pbmt
  ga    : Nat
  fault : Option XFault := none
  deriving DecidableEq, Repr

/-- One access of a hart after translation: effective privilege, page type, global address, virtual address, size in
bytes, the element index of a vector access, whether it is fault-only-first, whether it is an implicit page-table
read (R51) and then of what kind of access, how its first page is refused, and its second page where it crosses into
one. -/
structure Access where
  priv : Priv
  pbmt : Pbmt
  ga   : Nat
  va   : Nat
  size : Nat
  elem : Option Nat
  fof  : Bool
  walk : Bool
  walkFor : Nat := 5
  fault : Option XFault := none
  page2 : Option Page2 := none
  deriving DecidableEq, Repr

/-- A CSR instruction: a write, a set or clear of bits, or a read alone. -/
inductive CsrOp where | write | set | clear | read
  deriving DecidableEq, Repr

/-- A register access of a hart: a store of `size` bytes at an address of the map's one address space (Machine/RegMap.lean),
or an instruction on CSR `n` in a mode. -/
inductive RegAcc where
  | mem (a size : Nat) (v : Word)
  | csr (p : Priv) (op : CsrOp) (n : Nat) (v : Word)
  deriving DecidableEq, Repr

/-- What prefetches: an instruction of Zicbop, or a prefetcher of the core (R39, CORE_PFCTL). -/
inductive PfBy where | zicbop | l1i | l1d | l2
  deriving DecidableEq, Repr

/-- What a prefetch is for: instructions, reads or writes. -/
inductive PfOp where | i | r | w
  deriving DecidableEq, Repr

/-- An Osesteth message: the header of R90 and the fields of R92. A field a message does not carry is zero; but
`mcid` goes with a SNP, RSP and DATA too, which carry it over Horizon as FMCID (spec/10 R240). -/
structure Msg where
  vc : Nat
  opc : Nat
  srcPkg : Nat
  srcAgent : Nat
  dstPkg : Nat
  dstAgent : Nat
  txn : Nat
  addr : Nat
  rcid : Nat := 0
  mcid : Nat := 0
  cmo : Nat := 0
  ord : Nat := 0
  tokenV : Bool := false
  token : Nat := 0
  byteMask : Nat := 0
  aop : Nat := 0
  asize : Nat := 0
  aoff : Nat := 0
  htag : Nat := 0
  reqPkg : Nat := 0
  reqAgent : Nat := 0
  reqTxn : Nat := 0
  newState : Nat := 0
  status : Nat := 0
  cause : Nat := 0
  payload : Bool := false
  poison : Bool := false
  dsrc : Nat := 0
  data : Line := 0
  deriving DecidableEq, Repr

/-- An MGT message of the Pass link (spec/06 R151). -/
structure Mgt where
  mopc : Nat
  tag : Nat
  offset : Nat
  size8 : Bool
  data : Word
  status : Nat
  deriving DecidableEq, Repr

/-- A message of a Pass flit: an Osesteth message or an MGT message. -/
inductive LinkMsg where
  | ose (m : Msg)
  | mgt (m : Mgt)
  deriving DecidableEq, Repr

/-- A Pass flit as its sender makes it: the header of R146, the messages in its slots, and for a CONTROL flit the CTYPE and
the attempt counter (R150). `err` is what happens to it on the way: the bits inverted on a physical lane, in the order in
which they are sent. -/
structure Flit where
  typ : Nat
  seq : Nat := 0
  ackSeq : Nat := 0
  ackV : Bool := false
  nak : Bool := false
  slotStart : Nat := 0
  cr0Vc : Nat := 7
  cr0Total : Nat := 0
  cr1Vc : Nat := 7
  cr1Total : Nat := 0
  dseq : Nat := 0
  msgs : List LinkMsg := []
  ctype : Nat := 0
  att : Nat := 0
  err : List (Nat × Nat) := []
  deriving DecidableEq, Repr

/-- A window or island message (spec/10 R242, R243). `data` holds the payload bytes, or for W_ATOMIC the operands of
R92. `fmcid`, `hops` and `rclass` are the Horizon fields of R240; `rcid` is what the issuing
package's controllers charge (spec/09 R215, R218), and no field of the message. -/
structure WMsg where
  vc : Nat
  wopc : Nat
  srcPkg : Nat
  dstPkg : Nat
  srcFn : Nat := 0
  iwin : Nat := 0
  offset : Nat := 0
  length : Nat := 0
  wtag : Nat := 0
  key : Nat := 0
  aop : Nat := 0
  asize : Nat := 0
  cstatus : Nat := 0
  poison : Bool := false
  icode : Nat := 0
  member : Nat := 0
  islandId : Nat := 0
  nakCause : Nat := 0
  data : List Nat := []
  fmcid : Nat := 0
  rcid : Nat := 0
  hops : Nat := 0
  rclass : Nat := 0
  deriving DecidableEq, Repr

/-- A message of a Horizon frame (R240). -/
inductive HMsg where
  | ose (m : Msg) (fmcid hops rclass : Nat)
  | win (m : WMsg)
  deriving DecidableEq, Repr

/-- A Horizon frame as its sender makes it: the header of R238, the credit reports of its header and tail (code, total),
its messages, and where it is a CONTROL frame its CTYPE and attempt counter (R239). `err` is what happens to it on the way:
the bits inverted in a symbol of its codeword (R236). -/
structure HFrame where
  typ : Nat
  seq : Nat := 0
  ackSeq : Nat := 0
  ackV : Bool := false
  nak : Bool := false
  slotStart : Nat := 0
  crs : List (Nat × Nat) := []
  bseq : Nat := 0
  msgs : List HMsg := []
  ctype : Nat := 0
  att : Nat := 0
  err : List (Nat × Nat) := []
  deriving DecidableEq, Repr

/-- The arguments of a HELLO (R239). -/
structure Hello where
  serial : Word
  pkg : Nat
  kind : Nat
  lo : Nat
  hi : Nat
  rxGood : Nat
  txGood : Nat
  width : Nat
  rev : Nat
  noRev : Bool
  deriving DecidableEq, Repr

/-- A management packet (spec/15 R347). -/
structure Pkt where
  version : Nat
  typ : Nat
  tag : Nat
  opcode : Nat
  status : Nat := 0
  length : Nat := 0
  aux : Nat := 0
  param : Nat := 0
  data : List Nat := []
  deriving DecidableEq, Repr

/-- What is wrong with one DRAM read (spec/07 R175, R176): the rank-subchannel read; the symbols that returned wrong, each
by its device (an x4 device or an x8 half-device, 0 to 9), its place 0 to 7 there, and its flipped bits; and the channel
byte address that was read instead, where the module answered from the wrong one. -/
structure Errs where
  rank : Nat
  bad  : List (Nat × Nat × Nat)
  addr : Option Nat
  deriving DecidableEq, Repr

/-- The modules of spec/07 R171: an RDIMM or an MRDIMM with ECC, or one that is neither (without ECC, an LRDIMM). -/
inductive DimmKind where | rdimm | mrdimm | other
  deriving DecidableEq, Repr

/-- A module as its SPD hub shows it (spec/07 R171 to R174): its kind, x8 devices, capacity in GiB, the highest data rate
that it supports in 100 MT/s, its ranks, and its serial number. -/
structure Dimm where
  kind  : DimmKind
  x8    : Bool
  gib   : Nat
  rate  : Nat
  ranks : Nat
  spd   : Nat
  deriving DecidableEq, Repr

/-- What MEM_TRAIN found (spec/07 R171 to R174): DIMM i of channel c at 2c + i, and the channels that do not train, as a
mask. -/
structure TrainRes where
  dimms : List (Option Dimm)
  fail  : Nat
  deriving DecidableEq, Repr

/-- What translation of an I/O virtual address answered: a global address, with the size of the range it is in
(2^(12 + `k`) bytes) and the permissions to read and write, as an ATS completion gives them (spec/11 R274); or a fault, which
for ATS is a status other than Success. -/
inductive Xlate where
  | to (ga : Nat) (k : Nat := 0) (r w : Bool := true)
  | fault
  deriving DecidableEq, Repr

/-- What a device below a root port asks (spec/13 R322, spec/04 R112). -/
inductive Dma where
  | read (size : Nat)
  | write (data : List Nat) (relaxed poisoned : Bool)
  | atomic (aop asize : Nat) (v cmp : Nat)
  deriving DecidableEq, Repr

/-- A unit that flush-then-disable can empty (spec/03 R76). -/
inductive FlushUnit where
  | l2 (h : Hart)
  | l2Way (h : Hart) (w : Fin 16)
  | vcSlice (d : Die) (s : Fin 16)
  | vcWay (d : Die) (s w : Fin 16)
  | sfWay (d : Die) (b : Fin 16) (w : Fin 24)
  deriving DecidableEq, Repr

/-- A sweep that recalls or clears entries one by one (spec/04 R119, R120, spec/06 R168, spec/10 R257, spec/13 R314). -/
inductive WalkUnit where
  | dirWay (n w : Ix16)
  | rptWay (n w : Ix16)
  | rldWay (n w : Ix16)
  | leaveRld (n : Ix16)
  | leaveRpt (n : Ix16)
  | dieLost (d : Die) (n : Ix16)
  | cxlRegion (i : RPort) (n : Ix16)
  | vcTag (d : Die) (s : Fin 16) (set : Fin 4096) (n : Ix16)
  deriving DecidableEq, Repr

/-- The CBQRI controllers (spec/03 R74, spec/09 R219). -/
inductive QosCtl where
  | vc (d : Die)
  | mesa
  | mc (ch : Ix16)
  | hzn (p : HPort)
  deriving DecidableEq, Repr

/-- A block of an on-chip array, as the patrol names it (spec/14 R327): `tag` says the tag block of an entry rather than
its state block, and for an L1 none is the data block; `part` is a data block of a victim entry, 16 its tag and set, 17 its
VALID and MCID. -/
inductive ArrLoc where
  | l1i (h : Hart) (set : Fin 128) (w : Fin 8) (tag : Option Bool)
  | l1d (h : Hart) (set : Fin 128) (w : Fin 8) (tag : Option Bool)
  | l2Data (h : Hart) (set : Fin 2048) (w : Fin 16)
  | l2Tag (h : Hart) (set : Fin 2048) (w : Fin 16) (tag : Bool)
  | vcData (d : Die) (s : Fin 16) (set : Fin 4096) (w : Fin 16)
  | vcTag (d : Die) (s : Fin 16) (set : Fin 4096) (w : Fin 16) (tag : Bool)
  | sf (d : Die) (b : Fin 16) (set : Fin 4096) (w : Fin 24) (tag : Bool)
  | dir (n : Ix16) (set : Fin 65536) (w : Fin 16) (tag : Bool)
  | rpt (n : Ix16) (set : Fin 8192) (w : Fin 16) (tag : Bool)
  | rld (n : Ix16) (set : Fin 16384) (w : Fin 16) (tag : Bool)
  | mesaData (n : Ix16) (set : Fin 4096) (w blk : Fin 16)
  | mesaTag (n : Ix16) (set : Fin 4096) (w : Fin 16) (tag : Bool)
  | mesaPlru (n : Ix16) (set : Fin 4096)
  | mesaVictim (n : Ix16) (e : Fin 256) (part : Fin 18)
  | regs (h : Hart) (vector : Bool)
  | meterAcc (bank : Fin 2) (q : Fin 10) (mcid : Fin 1024)
  | meterTotal (bank : Fin 2) (q : Fin 10)
  | xce (f : Func)
  | iommu
  | homeBuf (n : Ix16) (k : Nat)
  | tvxSram
  | other
  deriving DecidableEq, Repr


/-- The commands, in the order of spec/opcode_table.json. -/
inductive Instr where
  /-- REGISTER_WRITE (R4): A write to a register that has no row of its own stores or acts on its fields according to their types. -/
  | registerWrite (h : Hart) (x : RegAcc)
  /-- HART_LOAD (R32): A hart load is decoded by address and privilege, and is served, faulted or sent as a request. -/
  | hartLoad (h : Hart) (x : Access)
  /-- HART_STORE (R32): A hart store is decoded by address and privilege and commits only once its line is held in M or E (R52), or is faulted. -/
  | hartStore (h : Hart) (x : Access) (v : Nat)
  /-- HART_FETCH (R33): An instruction fetch is served only from memory, and any other range raises an instruction access fault. -/
  | hartFetch (h : Hart) (x : Access)
  /-- HART_AMO (R39): An AMO is performed coherently in the L2, or as ATOMIC_NC at the home, according to the memory attributes. -/
  | hartAmo (h : Hart) (x : Access) (op : Nat) (v cmp : Nat)
  /-- LOAD_RESERVED (R41): LR loads a granule and sets a reservation on it. -/
  | loadReserved (h : Hart) (x : Access)
  /-- STORE_CONDITIONAL (R41): SC stores only if the reservation still holds. -/
  | storeConditional (h : Hart) (x : Access) (v : Nat)
  /-- RESERVATION_TIMEOUT (R41): A reservation is lost after 512 core cycles without an SC. -/
  | reservationTimeout (h : Hart)
  /-- FENCE_I (R43): FENCE.I invalidates the whole L1I and discards fetched instructions that have not executed. -/
  | fenceI (h : Hart)
  /-- PREFETCH (R39): A hardware or Zicbop prefetch requests a cacheable line; to any other range it completes as a no-op. -/
  | prefetch (h : Hart) (x : Access) (op : PfOp) (src : PfBy)
  /-- CBO_CLEAN (R48): cbo.clean writes every dirty copy of the line back to its home. -/
  | cboClean (h : Hart) (x : Access)
  /-- CBO_FLUSH (R48): cbo.flush writes dirty copies back and then invalidates every copy. -/
  | cboFlush (h : Hart) (x : Access)
  /-- CBO_INVAL (R48): cbo.inval acts as a flush or discards every copy, according to the effective CBIE. -/
  | cboInval (h : Hart) (x : Access)
  /-- CBO_ZERO (R48): cbo.zero obtains the line in M and writes 64 zero bytes, or sends a WR_FULL_NC of zeros. -/
  | cboZero (h : Hart) (x : Access)
  /-- SRMCFG_WRITE (R47): A write of srmcfg changes the RCID and MCID carried by requests of later instructions. -/
  | srmcfgWrite (h : Hart) (pv : Priv) (v : Word)
  /-- CORE_FREQ_REQ_WRITE (R53): A write of CORE_FREQ_REQ sets the requested frequency step; a fall starts within 1 µs. -/
  | coreFreqReqWrite (h : Hart) (pv : Priv) (v : Word)
  /-- FREQ_CHANGE_COMPLETE (R54): The voltage ramp and PLL slew reach the target step and SLEWING clears. -/
  | freqChangeComplete (h : Hart)
  /-- CORE_OFFLINE (R55): VALE_CORE_CTL CMD = OFFLINE takes an ONLINE core to STOPPING, or is rejected. -/
  | coreOffline (d : Die) (c : Fin 32)
  /-- CORE_RETIRE (R55): CMD = OFFLINE with RETIRE = 1 takes the core toward RETIRED and records it in the settings store. -/
  | coreRetire (d : Die) (c : Fin 32)
  /-- CORE_ONLINE (R55): CMD = ONLINE takes an OFFLINE core on an online die to STARTING, or is rejected. -/
  | coreOnline (d : Die) (c : Fin 32)
  /-- CORE_RESET (R55): CMD = RESET takes an ONLINE core to RESETTING, or is rejected. -/
  | coreReset (d : Die) (c : Fin 32)
  /-- CORE_LOGIC_ERROR (R55): An uncorrectable core-logic error takes the core to STOPPING and sets RETIRE_PENDING and LAST_STOP_ERROR. -/
  | coreLogicError (h : Hart)
  /-- CORE_STOP_COMPLETE (R55): The L2 reports DISABLED, and the STOPPING core is power-gated as OFFLINE or RETIRED. -/
  | coreStopComplete (h : Hart)
  /-- CORE_START_COMPLETE (R55): The STARTING fill completes, and the hart starts in M-mode at VALE_CORE_RESET_PC. -/
  | coreStartComplete (h : Hart)
  /-- CORE_RESET_COMPLETE (R55): The RESETTING core returns to ONLINE at VALE_CORE_RESET_PC. -/
  | coreResetComplete (h : Hart)
  /-- DIE_L2_MISS (R67): The die agent resolves an L2 miss or upgrade within the die, or sends RD_SHARED, RD_OWN or UPGRADE to the home. -/
  | dieL2Miss (h : Hart)
  /-- L2_EVICTION (R68): An L2 eviction is reported to the die agent and placed in the Vale cache, sent as WB_DIRTY or dropped. -/
  | l2Eviction (h : Hart) (line : Nat)
  /-- VALE_CACHE_EVICTION (R70): A Vale cache eviction of the last copy sends WB_DIRTY when the line is M or O, and otherwise nothing. -/
  | valeCacheEviction (d : Die) (line : Nat)
  /-- L2_WAY_DISABLE (R76): Setting a WAY_DISABLE bit of VALE_L2_CTL starts flush-then-disable of that L2 way. -/
  | l2WayDisable (h : Hart) (w : Fin 16)
  /-- L2_WAY_ENABLE (R83): Clearing a WAY_DISABLE bit returns the L2 way to service empty, once any flush has ended. -/
  | l2WayEnable (h : Hart) (w : Fin 16)
  /-- VC_WAY_DISABLE (R76): Setting a WAY_DISABLE bit of VALE_VC_CTL starts flush-then-disable of that Vale cache way. -/
  | vcWayDisable (d : Die) (s w : Fin 16)
  /-- VC_WAY_ENABLE (R83): Clearing a Vale cache WAY_DISABLE bit returns the way to service empty. -/
  | vcWayEnable (d : Die) (s w : Fin 16)
  /-- VC_SLICE_DISABLE (R76): Setting SLICE_DISABLE starts flush-then-disable of the whole Vale cache slice. -/
  | vcSliceDisable (d : Die) (s : Fin 16)
  /-- VC_SLICE_ENABLE (R76): Clearing SLICE_DISABLE returns the slice to service empty. -/
  | vcSliceEnable (d : Die) (s : Fin 16)
  /-- FLUSH_DISABLE_COMPLETE (R76): Every dirty line has been accepted or acknowledged, and the flushing unit reports DISABLED. -/
  | flushDisableComplete (u : FlushUnit)
  /-- CBQRI_ALLOC_CONFIG (R219): A CBQRI allocation operation sets an RCID's capacity mask or bandwidth allocation. -/
  | cbqriAllocConfig (k : QosCtl) (rcid : Fin 1024) (v : Word)
  /-- CBQRI_ALLOC_READ (R219): A CBQRI operation reads back an RCID's allocation. -/
  | cbqriAllocRead (k : QosCtl) (rcid : Fin 1024)
  /-- CBQRI_MONITOR_CONFIG (R219): A CBQRI monitoring operation configures a counter for an MCID. -/
  | cbqriMonitorConfig (k : QosCtl) (mcid : Fin 1024) (ev : Nat)
  /-- CBQRI_MONITOR_READ (R219): A CBQRI monitoring operation reads an MCID's occupancy or byte counter. -/
  | cbqriMonitorRead (k : QosCtl) (mcid : Fin 1024)
  /-- RD_SHARED (R102): The home locks the line, snoops any owner and grants a readable copy. -/
  | rdShared (m : Msg)
  /-- RD_OWN (R102): The home invalidates other holders and grants the line with ownership. -/
  | rdOwn (m : Msg)
  /-- UPGRADE (R102): The home grants write permission to a listed holder, or serves the request as RD_OWN. -/
  | upgrade (m : Msg)
  /-- RD_CUR (R103): The home returns a current snapshot of the line without caching it. -/
  | rdCur (m : Msg)
  /-- RD_CUR_CLEAN (R103): RD_CUR with CMO = CLEAN writes an owner's dirty data to memory. -/
  | rdCurClean (m : Msg)
  /-- RD_CUR_FLUSH (R103): RD_CUR with CMO = FLUSH writes back dirty data and frees the entry. -/
  | rdCurFlush (m : Msg)
  /-- RD_CUR_INVAL (R103): RD_CUR with CMO = INVAL invalidates every copy and discards dirty data. -/
  | rdCurInval (m : Msg)
  /-- WR_FULL_NC (R103): The home invalidates every holder and writes the 64-byte payload. -/
  | wrFullNc (m : Msg)
  /-- WR_PART_NC (R103): The home merges the selected bytes into the current line and writes it. -/
  | wrPartNc (m : Msg)
  /-- ATOMIC_NC (R103): The home applies the atomic operation to the current value and returns the old value. -/
  | atomicNc (m : Msg)
  /-- DIR_WAY_WAIT_RESUME (R110): A transaction that waited for a fully locked set resumes when a way unlocks. -/
  | dirWayWaitResume (n : Ix16) (htag : Fin 512)
  /-- SNP_FWD_SHARED (R73): A holder forwards DATA_S to the named requester and answers FWD_DONE. -/
  | snpFwdShared (m : Msg)
  /-- SNP_FWD_OWN (R73): A holder forwards the line with ownership, invalidates its copy and answers FWD_DONE. -/
  | snpFwdOwn (m : Msg)
  /-- SNP_FWD_CUR (R73): A holder forwards a snapshot and keeps its state. -/
  | snpFwdCur (m : Msg)
  /-- SNP_INV (R73): A holder invalidates its copy, discarding dirty data, and answers SNP_ACK_INV or SNP_ACK_MISS. -/
  | snpInv (m : Msg)
  /-- SNP_ACK_MISS (R105): The home clears the holder and supplies data from memory where the owner had dropped the line. -/
  | snpAckMiss (m : Msg)
  /-- SNP_ACK_INV (R105): The home clears the holder's presence bit. -/
  | snpAckInv (m : Msg)
  /-- FWD_DONE (R105): The home records the forwarding owner's NEW_STATE. -/
  | fwdDone (m : Msg)
  /-- FWD_DONE_WB (R136): The home records a forward made from a writeback buffer and resolves the matching WB_DIRTY. -/
  | fwdDoneWb (m : Msg)
  /-- COMP_ACK_CLOSE (R107): The requester's CLOSE closes a coherent fill and releases the line lock. -/
  | compAckClose (m : Msg)
  /-- COMP_ACK_COMMIT (R114): COMMIT makes the home perform a READY ordered write and close. -/
  | compAckCommit (m : Msg)
  /-- COMP_ACK_DONE (R107): The requester receives DONE and closes its transaction. -/
  | compAckDone (m : Msg)
  /-- COMP_ACK_READY (R114): The agent receives READY and sends COMMIT in stream order. -/
  | compAckReady (m : Msg)
  /-- RETRY (R129): The requester keeps its reservations and waits for CREDIT_GRANT, or parks the request. -/
  | retry (m : Msg)
  /-- CREDIT_GRANT (R129): The requester resends the request that the grant names, carrying the token. -/
  | creditGrant (m : Msg)
  /-- TOKEN_WATCHDOG_EXPIRY (R131): A granted token unused within WATCHDOG is freed and recorded as urgent. -/
  | tokenWatchdogExpiry (n : Ix16) (t : Fin 256)
  /-- WB_DIRTY (R135): The home writes back, holds or discards a writeback according to the line's state. -/
  | wbDirty (m : Msg)
  /-- WB_ACK (R134): The holder frees its writeback buffer entry. -/
  | wbAck (m : Msg)
  /-- WB_ACK_STALE (R134): The holder frees its writeback buffer entry; its data was discarded. -/
  | wbAckStale (m : Msg)
  /-- ERR (R118): A requester receiving ERR ends its transaction and delivers a bus error to its own requester. -/
  | err (m : Msg)
  /-- DATA_S (R133): The requester installs the line in S or receives the snapshot or atomic result. -/
  | dataS (m : Msg)
  /-- DATA_E (R133): The requester installs the line in E, performs its access and sends CLOSE. -/
  | dataE (m : Msg)
  /-- DATA_M (R133): The requester installs the line in M, or takes the grant, performs its access and sends CLOSE. -/
  | dataM (m : Msg)
  /-- DATA_O (R93): A DATA_O is treated as an illegal message and is discarded with a record. -/
  | dataO (m : Msg)
  /-- SNOOP_HOLD_RELEASE (R133): A snoop held behind a just-filled line is answered once the access has been performed. -/
  | snoopHoldRelease (d : Die) (line : Nat)
  /-- PROXY_DIE_REQUEST (R115): The RLD proxy serves a die's request for a remote line locally, or sends it to the remote home. -/
  | proxyDieRequest (m : Msg)
  /-- PROXY_REMOTE_SNOOP (R116): The RLD proxy snoops its own dies for a remote home and answers once for the package. -/
  | proxyRemoteSnoop (m : Msg)
  /-- PROXY_DIE_WB_DIRTY (R139): The proxy turns a die's writeback of a remote line into the package's WB_DIRTY. -/
  | proxyDieWbDirty (m : Msg)
  /-- PASS_PAYLOAD_FLIT (R149): A PAYLOAD flit is accepted in SEQ order and merged by DSEQ, or is NAKed on a CRC failure. -/
  | passPayloadFlit (e : End) (p : Port) (f : Flit)
  /-- PASS_IDLE_FLIT (R149): An IDLE flit delivers its acknowledgement and credit fields. -/
  | passIdleFlit (e : End) (p : Port) (f : Flit)
  /-- PASS_REPLAY_TIMEOUT (R149): No acknowledgement within 2 µs makes the sender replay from its oldest unacknowledged flit. -/
  | passReplayTimeout (e : End) (p : Port)
  /-- PASS_CONTROL_RESEND (R149): A control exchange without an answer within 500 ns is sent again. -/
  | passControlResend (e : End) (p : Port)
  /-- LANE_CHECK (R163): The receiver compares the per-lane CRCs and charges a lane bucket for each mismatch. -/
  | laneCheck (e : End) (p : Port) (hd : Flit) (crcs : List Nat)
  /-- SWAP_REQ (R164): The Vale end reports a failed DOWN lane to the Basin end. -/
  | swapReq (p : Port) (hd : Flit) (lane : Fin 68)
  /-- SWAP_CMD (R164): The Basin end orders the Vale end to swap an UP lane to a spare. -/
  | swapCmd (p : Port) (hd : Flit) (lane spare : Fin 68)
  /-- SWAP_MARK (R164): The receiver takes the spare from the marked flit boundary and answers SWAP_DONE. -/
  | swapMark (e : End) (p : Port) (hd : Flit) (lane spare : Fin 68)
  /-- SWAP_DONE (R164): The swap completes, and PASS_EVENT.SPARED is set. -/
  | swapDone (e : End) (p : Port) (hd : Flit) (lane spare : Fin 68)
  /-- PASS_RETRAIN_REQ (R165): Both ends stop sending PAYLOAD flits and enter RETRAIN. -/
  | passRetrainReq (e : End) (p : Port) (hd : Flit) (reason : Nat)
  /-- PASS_HANDOVER (R167): The receiving end retransmits the named port's flits on the sibling port from the SEQ given. -/
  | passHandover (e : End) (p : Port) (hd : Flit) (named : Port) (seq : Nat)
  /-- PASS_HANDOVER_DONE (R167): The handover completes, and every line is routed to the sibling port. -/
  | passHandoverDone (e : End) (p : Port) (hd : Flit) (named : Port)
  /-- REG_READ (R151): An MGT register read of VALE n is performed, and REG_RSP returns the data. -/
  | regRead (p : Port) (m : Mgt)
  /-- REG_WRITE (R151): An MGT register write of VALE n is performed and answered with REG_RSP. -/
  | regWrite (p : Port) (m : Mgt)
  /-- REG_RSP (R151): The Basin end completes the register access whose TAG the response matches. -/
  | regRsp (p : Port) (m : Mgt)
  /-- MSI_WRITE (R151): An MGT MSI write sets an identity in an interrupt file of a core of the die. -/
  | msiWrite (p : Port) (m : Mgt)
  /-- TS_ALIGN (R155): An alignment training word is received during training. -/
  | tsAlign (e : End) (p : Port) (err : List (Nat × Nat))
  /-- TS_RXGOOD (R155): The Basin end receives the Vale end's tested DOWN lanes and revision range. -/
  | tsRxgood (p : Port) (err : List (Nat × Nat))
  /-- TS_MAP (R155): The Vale end receives the good vectors, width and revision, and computes its map checksum. -/
  | tsMap (p : Port) (err : List (Nat × Nat))
  /-- TS_MAPSUM (R156): The Basin end compares the map checksum and moves to CONFIG, a new attempt, or FALLBACK. -/
  | tsMapsum (p : Port) (err : List (Nat × Nat))
  /-- TS_OFFER (R158): The block masks of both ends choose the common fallback block. -/
  | tsOffer (p : Port) (up down : List (Nat × Nat))
  /-- TS_CONFIG (R160): The next SEQ and the free counts are exchanged, and the port goes ACTIVE. -/
  | tsConfig (e : End) (p : Port) (err : List (Nat × Nat))
  /-- PASS_DETECT_DONE (R156): Termination is detected on enough lanes, and the port enters BIT_LOCK. -/
  | passDetectDone (p : Port) (up down : Nat)
  /-- PASS_BIT_LOCK_DONE (R156): The lanes lock, and the port enters EQUALISE. -/
  | passBitLockDone (p : Port) (up down : Nat)
  /-- PASS_EQUALISE_DONE (R156): Equalisation converges, and the port enters LANE_TEST. -/
  | passEqualiseDone (p : Port)
  /-- PASS_LANE_TEST_DONE (R156): The PRBS lane test ends, and lanes with errors are excluded. -/
  | passLaneTestDone (p : Port) (upBad downBad : Nat)
  /-- PASS_TRAIN_TIMEOUT (R159): A training state exceeds its bound: the port goes DISABLED and restarts, or is RETIRED at the third failure. -/
  | passTrainTimeout (p : Port)
  /-- PASS_RETRAIN_TIMEOUT (R166): A retrain not done within 4 µs escalates to a full train with handover. -/
  | passRetrainTimeout (p : Port)
  /-- PASS_CTL_RETRAIN (R165): PASS_CTL.RETRAIN starts a retrain with reason 2 on an ACTIVE port. -/
  | passCtlRetrain (p : Port)
  /-- PASS_CTL_FULL_TRAIN (R166): PASS_CTL.FULL_TRAIN starts an escalation of an ACTIVE port. -/
  | passCtlFullTrain (p : Port)
  /-- PASS_FAIL_GO (R163): PASS_CTL.FAIL_GO marks a lane failed as its bucket would. -/
  | passFailGo (p : Port) (lane : Nat) (down : Bool)
  /-- PASS_LANE_LOSS_OF_LOCK (R163): A lane that loses lock is marked failed at once, and a swap or retrain follows. -/
  | passLaneLossOfLock (p : Port) (lane : Fin 68) (down : Bool)
  /-- DIE_OFFLINE (R80): The die's cores are stopped and its caches flushed, starting the die offline sequence. -/
  | dieOffline
  /-- DIE_OFFLINE_COMPLETE (R80): The trackers are empty: the die signals quiescence, its ports go DISABLED and VALE_ONLINE is cleared. -/
  | dieOfflineComplete (d : Die)
  /-- DIE_ONLINE (R80): The die's arrays are filled, its ports train and its cores are brought up. -/
  | dieOnline
  /-- DIE_ONLINE_COMPLETE (R349): The die's ports finish training: the die comes online, or the operation ends DEVICE_ERROR. -/
  | dieOnlineComplete (d : Die)
  /-- MEM_TRAIN_COMPLETE (R174): Channel training ends, and the channel mode and spare are chosen. -/
  | memTrainComplete (x : TrainRes)
  /-- MEM_FILL_COMPLETE (R182): The fill of every channel ends, and PKG_MEMMAP is written. -/
  | memFillComplete (failed : Nat)
  /-- MEMORY_READ_DATA (R95): Data returns from a channel or a CXL region, is decoded and goes to the waiting transaction. -/
  | memoryReadData (n : Ix16) (htag : Fin 512) (errs : Errs)
  /-- CHANNEL_LINK_ERROR (R178): A write CRC or parity error is retried and charges the link bucket; a permanent fault starts a retrain. -/
  | channelLinkError (ch : Ix16)
  /-- CHANNEL_RETRAIN_COMPLETE (R179): A runtime retrain succeeds, and held requests proceed. -/
  | channelRetrainComplete (ch : Ix16)
  /-- CHANNEL_RETRAIN_TIMEOUT (R179): A retrain not passed within 500 µs fails; the third consecutive failure takes the channel to FAILED or ends a copy. -/
  | channelRetrainTimeout (ch : Ix16)
  /-- COPY_START (R184): MC_COPY_CTL.START begins a live copy of the channel onto the spare, or is rejected. -/
  | copyStart (ch : Ix16) (auto : Bool)
  /-- COPY_LINE (R185): The copy engine moves the line at the pointer onto the target, re-encoding it. -/
  | copyLine (ch : Ix16) (errs : Errs)
  /-- COPY_COMPLETE (R184): The pointer reaches the capacity: the source is RETIRED and the target takes its ordinal. -/
  | copyComplete (ch : Ix16)
  /-- DRAM_PATROL_LINE (R332): The Drizzle patrol reads a line under its lock and rewrites or marks it. -/
  | dramPatrolLine (ch : Ix16) (errs : Errs)
  /-- SANITISE_PHASE_COMPLETE (R188): A sanitise or format pass ends; the fence clears and the final state is journalled. -/
  | sanitisePhaseComplete
  /-- SANITISE_CHECKPOINT (R190): The sanitise journal CHECKPOINT is written at least once a second during the overwrite. -/
  | sanitiseCheckpoint
  /-- BW_EPOCH (R220): At each 1 µs epoch the bandwidth controllers issue reserved tokens and form the shared pool. -/
  | bwEpoch (k : QosCtl)
  /-- EXTRA_BLOCK_RETURN (R198): A pending extra-block read returns and installs into its sector unless it was cancelled. -/
  | extraBlockReturn (n : Ix16) (line : Nat) (errs : Errs)
  /-- MESA_INVALIDATE_ALL (R205): MESA_INV.GO starts an invalidate-all of the slice. -/
  | mesaInvalidateAll (n : Ix16)
  /-- MESA_INV_COMPLETE (R205): The arrays are cleared and the fills have drained: the slice returns to ENABLED or enters BYPASS. -/
  | mesaInvComplete (n : Ix16)
  /-- MESA_WAY_DISABLE (R210): Setting a MESA_WAY_CTL bit takes the way out of service within 100 ns, with nothing to flush. -/
  | mesaWayDisable (n w : Ix16)
  /-- MESA_WAY_ENABLE (R210): Clearing a MESA_WAY_CTL bit returns the way empty. -/
  | mesaWayEnable (n w : Ix16)
  /-- VC_DISABLE_WRITE (R202): MESA_CTL.VC_DISABLE invalidates every victim entry and stops new entries, or re-enables the victim cache empty. -/
  | vcDisableWrite (n : Ix16) (on : Bool)
  /-- MESA_THROTTLE_CHANGE (R211): A slice's throttle level changes; entering level 3 invalidates the slice and leads to BYPASS. -/
  | mesaThrottleChange (n : Ix16) (t : Int)
  /-- MESA_BYPASS_EXIT_READY (R212): The data array powered after BYPASS resumes allocation. -/
  | mesaBypassExitReady (n : Ix16)
  /-- MINUTE_BOUNDARY (R225): Every meter source switches its accumulator bank at the GTIME minute boundary. -/
  | minuteBoundary
  /-- OCCUPANCY_SAMPLE (R224): At each millisecond the valid lines and blocks of each MCID are added to its integral. -/
  | occupancySample
  /-- METER_BANKS_READ (R225): The metering block has read and cleared every closed bank. -/
  | meterBanksRead
  /-- ENERGY_DELIVERY (R226): The power microcontroller delivers the minute's measured energy and its scaled attributions. -/
  | energyDelivery (total : Nat) (cores : List (Nat × Nat)) (uncore idle : Nat)
  /-- METER_SEAL (R225): Thoiviyx seals every record of the set with the active key. -/
  | meterSeal
  /-- METER_RING_DELIVER (R229): With room in the ring, the set is written as ordered full-line writes. -/
  | meterRingDeliver
  /-- METER_SET_DELIVERED (R229): Once COMMIT has been sent for every write of the set, PROD advances and the MSI is sent. -/
  | meterSetDelivered
  /-- HZN_PAYLOAD_FRAME (R244): A Horizon PAYLOAD frame is accepted in SEQ order and delivered in BSEQ order, or NAKed. -/
  | hznPayloadFrame (p : HPort) (f : HFrame)
  /-- HZN_IDLE_FRAME (R244): An IDLE frame delivers its acknowledgement and credit fields. -/
  | hznIdleFrame (p : HPort) (f : HFrame)
  /-- HELLO (R246): A HELLO gives the partner's serial, ID, revisions and lanes; revision and width are chosen at EXCHANGE. -/
  | hello (p : HPort) (hd : HFrame) (x : Hello)
  /-- HZN_CONFIG (R246): The CONFIG exchange sets SEQ, BSEQ and credits, and the port goes ACTIVE. -/
  | hznConfig (p : HPort) (hd : HFrame) (seq bseq : Nat) (free : List Nat)
  /-- HZN_RETRAIN_REQ (R246): A Horizon RETRAIN_REQ stops new PAYLOAD frames and starts a retrain. -/
  | hznRetrainReq (p : HPort) (hd : HFrame) (reason : Nat)
  /-- HZN_HANDOVER (R244): A bundle sibling retransmits the named port's unacknowledged frames. -/
  | hznHandover (p : HPort) (hd : HFrame) (named : HPort) (seq : Nat)
  /-- HZN_HANDOVER_DONE (R244): The Horizon bundle handover completes. -/
  | hznHandoverDone (p : HPort) (hd : HFrame) (named : HPort)
  /-- TIME_REQ (R261): A SERVE port answers a time request with TIME_RSP. -/
  | timeReq (p : HPort) (hd : HFrame) (t1 t1f : Nat)
  /-- TIME_RSP (R261): The follower computes the offset and path delay and gives them to the GTIME servo. -/
  | timeRsp (p : HPort) (hd : HFrame) (t1 t2 t3 : Nat × Nat)
  /-- TIME_REQ_TIMER (R261): Every 1 ms a FOLLOW port sends TIME_REQ. -/
  | timeReqTimer (p : HPort)
  /-- HELLO_TIMER (R239): Every 10 ms in ACTIVE the port sends HELLO. -/
  | helloTimer (p : HPort)
  /-- HZN_REPLAY_TIMEOUT (R244): No acknowledgement within 4 µs makes the sender replay from its oldest unacknowledged frame. -/
  | hznReplayTimeout (p : HPort)
  /-- HZN_PMD_TRAIN_DONE (R246): IEEE 802.3 link training completes, and the port enters ALIGN. -/
  | hznPmdTrainDone (p : HPort) (rxGood txGood : Nat)
  /-- HZN_CODEWORD_LOCK (R246): Codeword lock is reached, and the port enters EXCHANGE. -/
  | hznCodewordLock (p : HPort)
  /-- HZN_TRAIN_TIMEOUT (R247): A training bound is exceeded, and the port goes DISABLED with LAST_FAIL recorded. -/
  | hznTrainTimeout (p : HPort)
  /-- HZN_RETRAIN_TIMEOUT (R246): A retrain not done within 40 µs takes the port to DISABLED and a full train, after bundle handover. -/
  | hznRetrainTimeout (p : HPort)
  /-- HZN_TRAIN_RESTART (R246): One second after a failed train a new train starts. -/
  | hznTrainRestart (p : HPort)
  /-- HZN_LANE_LOSS_OF_LOCK (R249): A lane that loses codeword lock is marked failed, and the port retrains at a lower width. -/
  | hznLaneLossOfLock (p : HPort) (lane : Fin 8)
  /-- HZN_ENABLE_WRITE (R246): Writing HZN_CTL.ENABLE starts training, or takes the port to DISABLED. -/
  | hznEnableWrite (p : HPort) (on detected : Bool)
  /-- HZN_CTL_RETRAIN (R246): HZN_CTL.RETRAIN starts a retrain with reason 2. -/
  | hznCtlRetrain (p : HPort)
  /-- HZN_CTL_FULL_TRAIN (R246): HZN_CTL.FULL_TRAIN takes an ACTIVE port through DISABLED to a full train, after handover. -/
  | hznCtlFullTrain (p : HPort)
  /-- CLEAR_MARKS (R249): HZN_CTL.CLEAR_MARKS clears every lane mark from the next train. -/
  | clearMarks (p : HPort)
  /-- W_WRITE (R301): The target checks the inbound window, translates and performs the write, and answers W_ACK. -/
  | wWrite (m : WMsg) (tr : Xlate)
  /-- W_SEND (R295): The target deposits the message in the owner's receive queue, or refuses it with CSTATUS 4. -/
  | wSend (m : WMsg) (tr : Xlate)
  /-- W_READ (R301): The target checks the window, reads the bytes and answers W_READ_CPL. -/
  | wRead (m : WMsg) (tr : Xlate)
  /-- W_ATOMIC (R301): The target checks the window, performs the atomic and answers W_ATOMIC_CPL. -/
  | wAtomic (m : WMsg) (tr : Xlate)
  /-- W_READ_CPL (R293): The issuer writes the read data locally, or records the piece's failure. -/
  | wReadCpl (m : WMsg) (tr : List Xlate)
  /-- W_ATOMIC_CPL (R293): The issuer writes the old value to LOCAL_ADDR, or records the failure. -/
  | wAtomicCpl (m : WMsg) (tr : Xlate)
  /-- W_ACK (R293): The issuer counts a write piece as performed, or as failed with its CSTATUS. -/
  | wAck (m : WMsg)
  /-- JOIN_REQ (R255): A member answers a joiner's request JOIN_ACK or JOIN_NAK and moves the joiner's entry to ACTIVE. -/
  | joinReq (m : WMsg)
  /-- JOIN_ACK (R255): The joiner records the member's acknowledgement; with every acknowledgement it becomes JOINED. -/
  | joinAck (m : WMsg)
  /-- JOIN_NAK (R257): The joiner aborts the join and records the cause. -/
  | joinNak (m : WMsg)
  /-- LEAVE_NOTICE (R257): A member enters LEAVING for the leaver and starts its leave duties. -/
  | leaveNotice (m : WMsg)
  /-- LEAVE_ACK (R257): The leaver records the acknowledgement; with every one it frees its RPT and becomes ALONE. -/
  | leaveAck (m : WMsg)
  /-- LOST_NOTICE (R258): The named member is declared lost, or, when this package is named, every member is. -/
  | lostNotice (m : WMsg)
  /-- JOIN_ABORT (R255): A member returns the joiner's entry from ACTIVE to ADMITTED. -/
  | joinAbort (m : WMsg)
  /-- MESSAGE_FORWARD (R251): A message for another package is routed by ROUTE_ENTRY, waits for a port, or is unroutable. -/
  | messageForward (x : HMsg) (src : Option HPort)
  /-- FORWARD_RESIDENCE_TIMEOUT (R253): A forwarded message that has waited more than 100 µs is discarded. -/
  | forwardResidenceTimeout
  /-- ALT_HOLD_EXPIRY (R251): After ALT_HOLD, traffic moves to the alternate ports, or back to the primary. -/
  | altHoldExpiry (pkg : Fin 4096)
  /-- LOSS_HOLD_EXPIRY (R258): No route port to a member has been ACTIVE for LOSS_HOLD, and the member is declared lost. -/
  | lossHoldExpiry (i : Fin 32)
  /-- ISLAND_JOIN (R257): CMD = JOIN sends JOIN_REQ to every ADMITTED member. -/
  | islandJoin
  /-- ISLAND_LEAVE (R257): CMD = LEAVE enters LEAVING, sends LEAVE_NOTICE and recalls every RLD entry. -/
  | islandLeave
  /-- MEMBER_ADMIT (R255): CMD = ADMIT moves a member entry to ADMITTED, or is rejected. -/
  | memberAdmit (i : Fin 32) (pkg : Fin 4096)
  /-- MEMBER_FREE (R255): CMD = FREE returns an ADMITTED or LOST entry to FREE, or is rejected. -/
  | memberFree (i : Fin 32)
  /-- JOIN_TIMEOUT (R257): Without every reply within 10 ms, the joiner sends JOIN_ABORT and returns to ALONE. -/
  | joinTimeout
  /-- LEAVE_ACK_TIMEOUT (R257): A member that has not sent LEAVE_ACK within 100 ms is declared lost by the leaver. -/
  | leaveAckTimeout
  /-- LEAVE_RECALL_COMPLETE (R257): A member holds no line of the leaver and has no transaction open, and sends LEAVE_ACK. -/
  | leaveRecallComplete (i : Fin 32)
  /-- PROXY_COH_TIMEOUT (R259): A proxy request unanswered after COH returns ERR CAUSE 4 to the die and is quarantined. -/
  | proxyCohTimeout (n : Ix16) (htag : Fin 512)
  /-- PROXY_COH_FINAL_TIMEOUT (R259): At 4 × COH the remote member is declared lost. -/
  | proxyCohFinalTimeout (n : Ix16) (txn : Fin 4096)
  /-- PROXY_WB_TIMEOUT (R259): An unacknowledged proxy WB_DIRTY is sent again after COH. -/
  | proxyWbTimeout (n : Ix16) (line : Nat)
  /-- HOME_WAIT_TIMEOUT (R259): A home or proxy waiting HOME_WAIT on a member's message declares the member lost. -/
  | homeWaitTimeout (n : Ix16) (htag : Fin 512)
  /-- IO_COH_TIMEOUT (R259): An XCE or root-port request to a member's home times out after COH and is quarantined. -/
  | ioCohTimeout (agent : Fin 256) (txn : Fin 4096)
  /-- IO_COH_FINAL_TIMEOUT (R259): At 4 × COH the quarantined TXN is freed. -/
  | ioCohFinalTimeout (agent : Fin 256) (txn : Fin 4096)
  /-- WIN_TIMEOUT (R259): A window request without a completion after WIN gets TIMEOUT, and its WTAG is quarantined. -/
  | winTimeout (f : Func) (wtag : Fin 4096)
  /-- WIN_FINAL_TIMEOUT (R259): At 4 × WIN the quarantined WTAG is freed. -/
  | winFinalTimeout (f : Func) (wtag : Fin 4096)
  /-- ECAM_CONFIG_ACCESS (R264): A configuration access to buses 1–9 is served, or returns all ones for a function that does not exist. -/
  | ecamConfigAccess (h : Hart) (off size : Nat) (write : Option Nat)
  /-- FLR (R280): Initiate FLR resets the function's configuration, stops fetching and starts the drain. -/
  | flr (f : Func)
  /-- VF_ENABLE_SET (R272): Setting VF Enable creates VFs 1 to NumVFs, or is held during a drain. -/
  | vfEnableSet
  /-- VF_ENABLE_CLEAR (R272): Clearing VF Enable withdraws every VF and starts the VF disable drain. -/
  | vfEnableClear
  /-- NUMVFS_WRITE (R272): A write of NumVFs is stored, or is ignored while VF Enable is 1 or VFs drain. -/
  | numvfsWrite (v : Nat)
  /-- VF_READY (R272): A VF becomes ready, and configuration accesses that waited on it proceed. -/
  | vfReady (f : Func)
  /-- ATS_ENABLE_CLEAR (R274): Clearing ATS Enable discards every translation cache entry of the function. -/
  | atsEnableClear (f : Func)
  /-- BUS_MASTER_ENABLE_WRITE (R279): Bus Master Enable stops fetching and holds completions, or releases the held ones. -/
  | busMasterEnableWrite (f : Func) (on : Bool)
  /-- MSIX_VECTOR_UNMASK (R277): A vector that becomes signallable with its PBA bit set sends one message. -/
  | msixVectorUnmask (f : Func) (v : Fin 2048)
  /-- TRANSLATION_COMPLETION (R274): A Translation Completion fills the translation cache, or ends the transfer with TRANSLATION_FAULT. -/
  | translationCompletion (f : Func) (page : Nat) (tr : Xlate)
  /-- INVALIDATE_REQUEST (R275): The XCE stops using the overlapping entries of the function and waits for requests that used them. -/
  | invalidateRequest (f : Func) (itag : Nat) (base size : Nat)
  /-- INVALIDATION_COMPLETE (R275): Dependent requests are done, and the Invalidation Completion is sent. -/
  | invalidationComplete (f : Func) (itag : Nat)
  /-- FN_DRAIN_COMPLETE (R280): The reset drain ends: Transactions Pending clears and FN_RESET_DONE or VF_DISABLE_DONE is set. -/
  | fnDrainComplete (f : Func)
  /-- DRAIN_LIMIT_EXPIRY (R280): Requests still outstanding at DRAIN_LIMIT are timed out, and DRAIN_FORCED is set. -/
  | drainLimitExpiry (f : Func)
  /-- QP_SQ_DB (R286): An SQ doorbell sets the producer index, or takes the queue pair to ERROR on overflow. -/
  | qpSqDb (f : Func) (q : Fin 8) (v : Nat)
  /-- QP_CQ_DB (R286): A CQ doorbell sets the consumer index and frees CQ entries. -/
  | qpCqDb (f : Func) (q : Fin 8) (v : Nat)
  /-- QP_RQ_DB (R286): An RQ doorbell posts free receive slots. -/
  | qpRqDb (f : Func) (q : Fin 8) (v : Nat)
  /-- QP_ENABLE (R287): QP_CTL.ENABLE = 1 makes a DISABLED queue pair ACTIVE, or takes it to ERROR with CAUSE 5. -/
  | qpEnable (f : Func) (q : Fin 8)
  /-- QP_DISABLE (R287): QP_CTL.ENABLE = 0 takes the queue pair to STOPPING and drains it. -/
  | qpDisable (f : Func) (q : Fin 8)
  /-- QP_DRAIN_COMPLETE (R307): The queue pair drain ends in DISABLED with every index at zero. -/
  | qpDrainComplete (f : Func) (q : Fin 8)
  /-- DESCRIPTOR_FETCH (R305): The engine fetches up to 8 descriptors for a function with a positive balance and charges them. -/
  | descriptorFetch (f : Func) (q : Fin 8) (tr : Xlate)
  /-- NOP (R289): NOP moves no data and completes OK. -/
  | nop (f : Func) (q : Fin 8)
  /-- COPY_LOCAL (R289): LENGTH bytes are copied between two local I/O virtual addresses. -/
  | copyLocal (f : Func) (q : Fin 8) (src dst : List Xlate)
  /-- PUT (R291): LENGTH bytes are sent through an outbound window as W_WRITE pieces. -/
  | put (f : Func) (q : Fin 8) (src : List Xlate)
  /-- GET (R291): LENGTH bytes are read through an outbound window as W_READ pieces. -/
  | get (f : Func) (q : Fin 8)
  /-- SEND (R289): One W_SEND carries up to 256 bytes to a remote receive queue. -/
  | send (f : Func) (q : Fin 8) (src : List Xlate)
  /-- ATOMIC (R289): One W_ATOMIC performs the operation at the window offset. -/
  | atomic (f : Func) (q : Fin 8)
  /-- FENCE (R289): FENCE holds later descriptors until every earlier one has completed. -/
  | fence (f : Func) (q : Fin 8)
  /-- DESCRIPTOR_COMPLETE (R294): A descriptor's pieces end, its completion entry is written and the CQ vector may be signalled. -/
  | descriptorComplete (f : Func) (q : Fin 8) (tr : Xlate)
  /-- CQ_IRQ_TIMER (R294): QP_IRQ.TIME expires after the first unsignalled entry, and the CQ vector is signalled. -/
  | cqIrqTimer (f : Func) (q : Fin 8)
  /-- XCE_ARB_EPOCH (R305): At each 1 µs epoch every function with work receives its allotment. -/
  | xceArbEpoch
  /-- XCE_WIN_COMMIT (R303): XCE_WIN_COMMIT replaces a window entry with the shadow words and clears COMMITTED. -/
  | xceWinCommit (index table : Nat)
  /-- WIN_COMMIT_DRAINED (R303): No packet remains under a superseded mapping, and COMMITTED returns to 1. -/
  | winCommitDrained
  /-- BAR2_LOAD (R302): A hart load from a VF BAR2 slot is sent as one W_READ, and a failure faults. -/
  | bar2Load (h : Hart) (f : Func) (off : Nat) (x : Access)
  /-- BAR2_STORE (R302): A hart store to a VF BAR2 slot is sent as one W_WRITE, and a failure is dropped and counted. -/
  | bar2Store (h : Hart) (f : Func) (off v : Nat) (x : Access)
  /-- CXL_REGION_ONLINE (R314): CMD = ONLINE starts the region fill, or is rejected. -/
  | cxlRegionOnline (i : RPort)
  /-- CXL_REGION_OFFLINE (R314): CMD = OFFLINE starts the region drain, or is rejected. -/
  | cxlRegionOffline (i : RPort)
  /-- CXL_FILL_COMPLETE (R314): The region fill ends, and the region becomes ONLINE and backed. -/
  | cxlFillComplete (i : RPort) (ok : Bool)
  /-- CXL_DRAIN_COMPLETE (R314): The directory sweep ends: a Mesa invalidate-all runs and the region becomes OFFLINE. -/
  | cxlDrainComplete (i : RPort)
  /-- CXL_LINK_DOWN (R314): Link loss fails a filling region, or drains an online region with its dirty data discarded. -/
  | cxlLinkDown (i : RPort)
  /-- EXPANDER_SCAN (R315): Each 1 ms the root port reads its slot expander and detects changes of the slot inputs. -/
  | expanderScan (i : RPort) (data : Option Nat)
  /-- HP_INT_FALL (R315): HP_INT_N falling triggers an immediate scan of the bus's expanders. -/
  | hpIntFall (b : Fin 4) (data : List (Option Nat))
  /-- SLOT_DEBOUNCE_DONE (R316): After 20 ms of debounce, the slot status change bit is set. -/
  | slotDebounceDone (i : RPort)
  /-- SLOT_POWER_CONTROL_WRITE (R316): A Slot Control write drives PWR_EN and the indicators through the expander. -/
  | slotPowerControlWrite (i : RPort) (v : Nat)
  /-- SLOT_PERST_RELEASE (R316): 100 ms after power-on, PERST_N is released and link training starts. -/
  | slotPerstRelease (i : RPort)
  /-- SLOT_POWER_FAULT (R316): PWRFLT_N falling sets Power Fault Detected and removes slot power. -/
  | slotPowerFault (i : RPort)
  /-- PORT_CONTAINMENT (R317): DPC or a Surprise Down contains the root port within 1 µs. -/
  | portContainment (i : RPort) (reason : Nat)
  /-- DPC_STATUS_CLEAR (R319): Clearing DPC Trigger Status ends containment and holds the link down. -/
  | dpcStatusClear (i : RPort)
  /-- CONTAINMENT_HOLD_EXPIRY (R319): After at least 100 ms the link retrains if a card is present. -/
  | containmentHoldExpiry (i : RPort)
  /-- MMIO_CPL_TIMEOUT (R318): A hart MMIO read without a completion in CPL_TIMEOUT returns all ones or faults. -/
  | mmioCplTimeout (h : Hart)
  /-- DEVICE_DMA_REQUEST (R322): A device request is translated by the IOMMU and enters the coherent path, or receives CA. -/
  | deviceDmaRequest (i : RPort) (rid : Nat) (x : Dma) (tr : Xlate)
  /-- DEVICE_MSI_WRITE (R322): An MSI write is translated and checked by the IOMMU and delivered, or dropped and counted. -/
  | deviceMsiWrite (i : RPort) (rid : Nat) (ga : Option Nat) (data : Nat)
  /-- INTX_LEVEL_CHANGE (R321): An INTx level change at an APLIC source is forwarded to an interrupt file. -/
  | intxLevelChange (src : Fin 1024) (level : Bool)
  /-- SETEIPNUM_STORE (R320): A naturally aligned 4-byte store to seteipnum sets an identity in an interrupt file. -/
  | seteipnumStore (ga : Nat) (v : BitVec 32)
  /-- ONCHIP_PATROL_BLOCK (R333): The on-chip patrol reads a block, scrubbing or marking it. -/
  | onchipPatrolBlock (x : ArrLoc) (bad : List (Nat × Nat))
  /-- BUCKET_WINDOW_BOUNDARY (R335): At each window boundary every bucket of the class leaks by RATE and its run is judged. -/
  | bucketWindowBoundary (k : Fin 15)
  /-- MGMT_RESET (R342): TVX_MAIN restarts; queued commands are discarded and nothing else of the package is affected. -/
  | mgmtReset
  /-- TVX_MAIN_RUNNING (R342): TVX_MAIN is running again: READY returns, MGMT_RESTARTED is logged and long operations are supervised again. -/
  | tvxMainRunning
  /-- LOCKSTEP_MISMATCH (R342): A lockstep compare mismatch causes MGMT_RESET within 1 µs. -/
  | lockstepMismatch
  /-- TVX_WATCHDOG_EXPIRY (R342): Expiry of the 1 s TVX_MAIN watchdog causes MGMT_RESET. -/
  | tvxWatchdogExpiry
  /-- THERMAL_SENSOR_READ (R343): Each thermal sensor is read at least every 100 µs. -/
  | thermalSensorRead (vals : List Int)
  /-- AGEING_READ (R344): The hourly ageing reading revises the die's PEOL and may log HEALTH_WARN. -/
  | ageingRead (m : Fin 60) (r : Int)
  /-- MSL_FRAME (R345): An MSL frame is unstuffed and checked, and its packet is accepted or discarded. -/
  | mslFrame (bytes : List Nat)
  /-- MBOX_TX_GO (R346): GO in MBOX_TX_CTL submits the packet, or sets TX_OVERRUN. -/
  | mboxTxGo (len : Nat)
  /-- MBOX_TX_TAKE (R346): Thoiviyx takes the packet into the MBOX ingress, or discards it as malformed. -/
  | mboxTxTake
  /-- MBOX_RX_ACK (R346): ACK releases MBOX_RX_BUF for the next packet. -/
  | mboxRxAck
  /-- MBOX_RX_DELIVER (R346): The next queued packet is placed in MBOX_RX_BUF, RX_VALID is set and the MSI is sent. -/
  | mboxRxDeliver
  /-- COMMAND_RECEIVE (R351): A COMMAND is accepted into its ingress queue, or refused with a status. -/
  | commandReceive (g : Ingress) (k : Pkt)
  /-- DATA_PACKET (R354): A DATA packet delivers a data-out block to its command, or is discarded. -/
  | dataPacket (g : Ingress) (k : Pkt)
  /-- XFER_DATA_TIMEOUT (R354): DATA not arriving within 1 s of XFER_READY completes the command with XFER_ERROR. -/
  | xferDataTimeout
  /-- LONG_OP_COMPLETE (R355): A long operation ends, its response is sent and LONG_OP_DONE is logged. -/
  | longOpComplete
  /-- GET_INFO (R349): GET_INFO returns identification and the running firmware versions. -/
  | getInfo
  /-- QUERY_TAG (R353): QUERY_TAG resends the stored response of a tag, or reports IN_PROGRESS or NOT_FOUND. -/
  | queryTag (g : Ingress)
  /-- ABORT (R352): ABORT removes a queued command or one in its data-out phase, answering CAUGHT or MISSED. -/
  | abort (g : Ingress)
  /-- QUEUE_FLUSH (R356): QUEUE_FLUSH completes after every command accepted before it. -/
  | queueFlush
  /-- RESET_CHANNEL (R356): RESET_CHANNEL aborts the ingress's commands and resets its freeze, stored responses and mask. -/
  | resetChannel (g : Ingress)
  /-- GET_ERROR_LOG (R349): GET_ERROR_LOG returns the record of the ingress's last freeze. -/
  | getErrorLog (g : Ingress)
  /-- RESUME_QUEUE (R351): RESUME_QUEUE unfreezes the ingress once GET_ERROR_LOG has been answered. -/
  | resumeQueue (g : Ingress)
  /-- EVENT_ENABLE (R349): EVENT_ENABLE sets the severities sent as EVENT packets on the ingress. -/
  | eventEnable
  /-- GET_SENSORS (R349): GET_SENSORS returns thermal, voltage, current or ageing readings. -/
  | getSensors
  /-- GET_HEALTH (R344): GET_HEALTH returns a die's PEOL and its projections. -/
  | getHealth
  /-- READ_EVENT_LOG (R358): READ_EVENT_LOG returns held log entries from a SEQ. -/
  | readEventLog
  /-- READ_SANITISE_JOURNAL (R190): READ_SANITISE_JOURNAL returns the valid record of each SEQ. -/
  | readSanitiseJournal
  /-- SETTINGS_GET (R360): SETTINGS_GET returns a settings item or device record. -/
  | settingsGet
  /-- SETTINGS_SET (R361): SETTINGS_SET checks the value and writes a new copy of the item. -/
  | settingsSet
  /-- CLEAR_RETIREMENT (R362): CLEAR_RETIREMENT clears one retirement or mark entry, effective at the next POR. -/
  | clearRetirement
  /-- METER_KEY_SET (R228): METER_KEY_SET stores a key in a slot that is not active. -/
  | meterKeySet
  /-- METER_KEY_ACTIVATE (R228): METER_KEY_ACTIVATE makes a slot active from the next boundary. -/
  | meterKeyActivate
  /-- METER_KEY_CLEAR (R228): METER_KEY_CLEAR erases a slot. -/
  | meterKeyClear
  /-- METER_KEY_QUERY (R228): METER_KEY_QUERY returns presence, activity and check value per slot. -/
  | meterKeyQuery
  /-- STAGE_BLOCK (R370): STAGE_BLOCK programs one 64 KiB block of the staged bundle. -/
  | stageBlock
  /-- STAGE_STATUS (R371): STAGE_STATUS returns the staging session and slot directory state. -/
  | stageStatus
  /-- ACTIVATE_BUNDLE (R372): ACTIVATE_BUNDLE checks and copies the staged bundle and starts the activation transaction. -/
  | activateBundle
  /-- SANITISE_RANGE (R188): SANITISE_RANGE journals, fences, overwrites and verifies a range. -/
  | sanitiseRange
  /-- FORMAT_RANGE (R187): FORMAT_RANGE overwrites a range without verify or journal. -/
  | formatRange
  /-- SANITISE_DEVICE (R187): SANITISE_DEVICE holds the harts, fills all DRAM and arrays, and verifies. -/
  | sanitiseDevice
  /-- PACKAGE_RESET (R349): PACKAGE_RESET answers and then starts PKG_WARM or MGMT_RESET. -/
  | packageReset
  /-- HOST_AREA_WRITE (R363): HOST_AREA_WRITE erases and programs a sector of the host boot image area. -/
  | hostAreaWrite
  /-- HOST_AREA_READ (R363): HOST_AREA_READ returns bytes of the host boot image area. -/
  | hostAreaRead
  /-- FLASH_REQ_ASSERT (R427): FLASH_REQ_N asserted is granted when allowed: the FL_ contacts float and FLASH_GNT_N is asserted. -/
  | flashReqAssert
  /-- FLASH_REQ_DEASSERT (R427): The grant is released, held log entries are written and the slot directory is read afresh. -/
  | flashReqDeassert
  /-- SLOT_ERASE_COMPLETE (R370): The erase of the non-active slot ends, and the slot is prepared. -/
  | slotEraseComplete
  /-- COMPONENT_READY (R373): A live component reports its self-test passed, and the next restart or the commit proceeds. -/
  | componentReady
  /-- COMPONENT_READY_TIMEOUT (R374): A component not ready within its bound fails the activation and starts the rollback. -/
  | componentReadyTimeout (selfTest : Bool)
  /-- TVX_MAIN_READY_TIMEOUT (R375): A new TVX_MAIN not ready within 250 ms makes the boot ROM restart with the old TVX_MAIN. -/
  | tvxMainReadyTimeout
  /-- PWR_UC_RESTART_DEFERRED (R373): PWR_UC restarts 5 ms after the minute boundary when too little time remained before it. -/
  | pwrUcRestartDeferred
  /-- POWER_EVALUATION (R384): Every 50 µs the package and die ceilings are adjusted from power and temperature. -/
  | powerEvaluation (mW : Nat) (dieTemp : List Int) (dieMw : List Nat)
  /-- CURRENT_LIMIT_TRIP (R386): Vale rail current above ICC_MAX stretches every Vale core clock to half frequency. -/
  | currentLimitTrip
  /-- CURRENT_LIMIT_RELEASE (R386): After 10 µs below ICC_MAX the stretch is released. -/
  | currentLimitRelease
  /-- THERMAL_EMERGENCY (R388): An emergency limit sends cores to step 0, raises thermal RNMIs and sets Mesa level 3. -/
  | thermalEmergency (die : Fin 17)
  /-- THERMAL_TRIP (R388): A trip limit asserts THERMTRIP_N and stops every host clock. -/
  | thermalTrip
  /-- REFCLK_LOSS (R391): Loss of the reference for over 1 µs stops every host clock, and Thoiviyx runs on its oscillator. -/
  | refclkLoss
  /-- PPS_EDGE (R393): A PPS edge is time-stamped and drives the GTIME servo, or is rejected. -/
  | ppsEdge (t : Nat)
  /-- TIME_SOURCE_TIMEOUT (R393): Without a good sample for the source's interval, the servo enters HOLDOVER or FREE. -/
  | timeSourceTimeout
  /-- TIME_SOURCE_WRITE (R393): A write of TIME_CTL.SOURCE selects the servo source; 0 returns the servo to FREE. -/
  | timeSourceWrite (src : Nat)
  /-- TIME_STEP_FWD (R394): TIME_STEP_FWD advances GTIME at once and sets STEPPED. -/
  | timeStepFwd (delta : Nat)
  /-- VAUX_UP (R397): VAUX coming within range is a POR: the boot ROM starts and selects the set. -/
  | vauxUp
  /-- VAUX_DOWN (R434): VAUX leaving range stops Thoiviyx. -/
  | vauxDown
  /-- HOST_PWR_REQUEST (R396): Once TVX_MAIN runs, Thoiviyx asserts HOST_PWR_REQ for the board to sequence the host rails. -/
  | hostPwrRequest
  /-- PWRGOOD_RISE (R397): PWRGOOD asserted starts host start-up: set points, PLL lock, array fill and training. -/
  | pwrgoodRise
  /-- PWRGOOD_FALL (R422): PWRGOOD falling stops host operation; the next rise is a POR. -/
  | pwrgoodFall
  /-- HOST_RAIL_FAULT (R434): A host rail out of range for over 20 µs stops host clocks and deasserts HOST_PWR_REQ. -/
  | hostRailFault
  /-- PWRGOOD_TIMEOUT (R421): PWRGOOD not risen within 500 ms deasserts HOST_PWR_REQ and logs START_STOPPED. -/
  | pwrgoodTimeout
  /-- HOST_PWR_RETRY (R421): 10 s after a PWRGOOD timeout, HOST_PWR_REQ is asserted again, up to three attempts. -/
  | hostPwrRetry
  /-- STARTUP_ARRAYS_READY (R397): The arrays are filled, the microcontrollers run, Pass ports train and MEM_TRAIN starts. -/
  | startupArraysReady
  /-- HOST_IMAGE_COPY_COMPLETE (R399): The host image is copied to DRAM and the reset PCs are set, or start-up stops on a bad header. -/
  | hostImageCopyComplete
  /-- PKG_WARM (R402): PKG_WARM resets host state while keeping DRAM, GTIME and Thoiviyx, and restarts the harts. -/
  | pkgWarm
  /-- JTAG_EXTEST_CLAMP (R429): EXTEST or CLAMP loaded before start-up step 3 holds start-up. -/
  | jtagExtestClamp
  /-- JTAG_TEST_LOGIC_RESET (R429): A return to Test-Logic-Reset after EXTEST or CLAMP restarts start-up as a POR. -/
  | jtagTestLogicReset
  /-- CCOL_SELECT_WRITE (R408): A CCOL_SELECT write changes the counter's event and filters from the next cycle. -/
  | ccolSelectWrite (b : Fin 354) (j : Fin 32) (v : Word)
  /-- COUNTER_CLEAR (R408): CLEAR sets the counter's COUNT and OVF to zero. -/
  | counterClear (b : Fin 354) (j : Fin 32)
  /-- CCOL_COUNT_WRITE (R408): A CCOL_COUNT write sets the count, plus that cycle's additions. -/
  | ccolCountWrite (b : Fin 354) (j : Fin 32) (v : Word)
  /-- COUNTER_FREEZE (R409): Setting FREEZE stops every uncore counter at the same nanosecond. -/
  | counterFreeze
  /-- COUNTER_UNFREEZE (R409): Clearing FREEZE restarts every uncore counter at the same nanosecond. -/
  | counterUnfreeze
  /-- CCOL_SWEEP (R410): At each interval the collector samples the enabled banks and writes a sweep to the ring, or skips it. -/
  | ccolSweep
  /-- FLUSH_WALK_LINE (R76): The flush-then-disable walk reaches the next line of the unit and drops it or hands it onward. -/
  | flushWalkLine (u : FlushUnit)
  /-- RECALL_WALK_ENTRY (R120): A home, proxy or die sweep reaches its next entry and recalls or clears it, ending with WAY_RECALLING cleared. -/
  | recallWalkEntry (u : WalkUnit)
  /-- SANITISE_LINE (R188): The sanitise engine takes the next line of the range under its lock, invalidates holders and writes zeros, or verifies it. -/
  | sanitiseLine (errs : Errs)
  /-- BUNDLE_COPY_COMPLETE (R372): The copy of the staged bundle into the target slot is verified, the directory written with PENDING set, and TVX_MAIN restarted. -/
  | bundleCopyComplete
  /-- ROOT_PORT_LINK_UP (R312): A root port's link training completes, as PCI Express or as CXL, setting RPRT_STATUS.CXL accordingly. -/
  | rootPortLinkUp (i : RPort) (cxl : Bool)
  /-- ROOT_PORT_LINK_ERROR (R336): A correctable error on a root-port link is logged in AER and charges the class 13 bucket. -/
  | rootPortLinkError (i : RPort)
  /-- MMIO_COMPLETION (R32): A completion for a hart's MMIO or configuration read of a device below a root port arrives and finishes the load. -/
  | mmioCompletion (h : Hart) (ok : Bool) (v : Nat)
  /-- PE_PERST_RELEASE (R423): 100 ms after its group's power is stable, PE_PERST_N of a lane group is driven high. -/
  | pePerstRelease (g : Fin 8)
  /-- SLOT_INDICATOR_BLINK (R315): An indicator in the blinking state toggles its expander output at 1.5 Hz. -/
  | slotIndicatorBlink (i : RPort)
  deriving DecidableEq, Repr

end Sys2Proof
end

