-- ==== Sys2Proof/Decode.lean ====
section
/-!
DEFINITION. Reading a command from a word. The HQN-9384 is a block: spec/opcode_table.json gives no row any bits, so no
word spells a command. (The encodings that the spec does give, of messages, flits, frames and packets, are in
Sys2Proof/Machine/Packing.lean and Sys2Proof/Machine/Wire.lean.)
-/

namespace Sys2Proof

/-- The command that a word of `nbits` bits spells: none, since no row of the table has bits. -/
def decodeTableWord (nbits w : Nat) : Option Instr :=
  match nbits, w with
  | _, _ => none

end Sys2Proof
end

