-- ==== Sys2Proof/Machine/Wire.lean ====
section
/-!
DEFINITION. Bytes on the wire: little-endian fields, CRC-32C (spec/06_pass_links.md R145) and CRC-16 (R150).
-/

namespace Sys2Proof.Machine

/-- The `n` bytes of a number, least significant first (spec/00_scope.md R3). -/
def leBytes : Nat → Nat → List Nat
  | 0, _ => []
  | n + 1, v => v % 256 :: leBytes n (v / 256)

/-- The number that bytes spell, least significant first. -/
def ofBytes : List Nat → Nat
  | [] => 0
  | b :: bs => b + 256 * ofBytes bs

/-- `n` bytes from place `i`; bytes past the end read zero. -/
def field (bs : List Nat) (i n : Nat) : Nat := ofBytes ((bs.drop i).take n)

/-- One bit of a reflected CRC-32C. -/
def crcBit (c : Nat) : Nat := if c % 2 = 1 then (c >>> 1) ^^^ 0x82F63B78 else c >>> 1

/-- One byte into a CRC-32C register. -/
def crcByte (c b : Nat) : Nat :=
  crcBit (crcBit (crcBit (crcBit (crcBit (crcBit (crcBit (crcBit (c ^^^ (b % 256)))))))))

/-- CRC-32C of bytes: reflected polynomial 0x1EDC_6F41, initial value and final XOR all ones (R145). -/
def crc32c (bs : List Nat) : Nat := (bs.foldl crcByte 0xFFFFFFFF) ^^^ 0xFFFFFFFF

/-- The bytes of a line, and a line from bytes. -/
def lineBytes (l : Line) : List Nat := leBytes 64 l.toNat
def bytesLine (bs : List Nat) : Line := BitVec.ofNat 512 (ofBytes bs)

/-- Bits `[8n + 8k - 1 : 8n]` of a line as a number: the `k` bytes from byte `n`. -/
def lineField (l : Line) (n k : Nat) : Nat := bits l.toNat (8 * n) (8 * k)

/-- The line with `k` bytes from byte `n` replaced. -/
def lineSet (l : Line) (n k v : Nat) : Line := BitVec.ofNat 512 (setBits l.toNat (8 * n) (8 * k) v)

/-- The line with the bytes that `mask` selects taken from `p` (spec/04 R92, BYTE_MASK). -/
def lineMerge (l p : Line) (mask : Nat) : Line :=
  foldN 64 l (fun i l => if mask.testBit i then lineSet l i 1 (lineField p i 1) else l)

/-- The 64 bytes of a log entry (spec/15 R358). -/
def logBytes (seq time code sev die index detail : Nat) : List Nat :=
  let b := leBytes 8 seq ++ leBytes 8 time ++ leBytes 2 code ++ leBytes 1 sev ++ leBytes 1 die ++ leBytes 4 index
    ++ leBytes 36 detail
  b ++ leBytes 4 (crc32c b)

end Sys2Proof.Machine
end

