-- ==== Sys2Proof/Machine/Packing.lean ====
section
/-!
DEFINITION. Messages as the bits of their slots: the layouts of spec/06_pass_links.md R146, R147, R151 and of
spec/10_horizon_fabric.md R238, R240, R242. Commands carry messages as structures; these functions say which bits they are.
-/

namespace Sys2Proof.Machine

/-- Fields of the given (width, value), the first at bit 0, each next to the one before. -/
def pack : List (Nat × Nat) → Nat
  | [] => 0
  | (w, v) :: r => v % 2 ^ w + 2 ^ w * pack r

/-- The header of R90, 110 bits. -/
def headFields (m : Msg) : List (Nat × Nat) :=
  [(3, m.vc), (5, m.opc), (12, m.srcPkg), (8, m.srcAgent), (12, m.dstPkg), (8, m.dstAgent), (12, m.txn), (50, m.addr)]

/-- The fields after bit 109 of each class of message (R147). -/
def reqFields (m : Msg) : List (Nat × Nat) :=
  [(2, 0), (10, m.rcid), (10, m.mcid), (2, m.cmo), (1, m.ord), (1, b2n m.tokenV), (8, m.token), (4, m.aop), (2, m.asize),
   (6, m.aoff), (1, b2n m.poison), (64, m.byteMask)]
def snpFields (m : Msg) : List (Nat × Nat) := [(2, 0), (9, m.htag), (12, m.reqPkg), (8, m.reqAgent), (12, m.reqTxn)]
def rspFields (m : Msg) : List (Nat × Nat) :=
  [(2, 0), (9, m.htag), (2, m.newState), (2, m.status), (3, m.cause), (1, b2n m.tokenV), (8, m.token)]
def dataFields (m : Msg) : List (Nat × Nat) := [(9, m.htag), (1, b2n m.payload), (1, b2n m.poison), (2, m.dsrc)]

/-- The class fields of a message by its VC. -/
def classFields (m : Msg) : List (Nat × Nat) :=
  if m.vc = 1 then snpFields m else if m.vc = 2 then rspFields m else if m.vc = 3 then dataFields m else reqFields m

/-- Does a message carry 64 bytes (R92, R147)? -/
def msgFull (m : Msg) : Bool := m.vc == 4 || (m.vc == 0 && decide (4 ≤ m.opc) && decide (m.opc ≤ 6)) || (m.vc == 3 && m.payload)

/-- The bits of a message's header slots in a Pass flit. -/
def msgHeader (m : Msg) : Nat := pack (headFields m ++ classFields m)

/-- The bit at which a message's payload begins: DATA has a header of one slot, the others of two. -/
def payloadAt (vc : Nat) : Nat := if vc = 3 then 128 else 256

/-- A whole message in a Pass flit: its header slots, then its payload, byte 0 first. -/
def msgBits (m : Msg) : Nat := msgHeader m + (if msgFull m then m.data.toNat <<< payloadAt m.vc else 0)

/-- The message that bits spell, each field read at its place of the tables of R90 and R147. -/
def msgOf (n : Nat) : Msg :=
  let f (lo w : Nat) : Nat := bits n lo w
  let vc := f 0 3
  let m : Msg := { vc := vc, opc := f 3 5, srcPkg := f 8 12, srcAgent := f 20 8, dstPkg := f 28 12, dstAgent := f 40 8,
                   txn := f 48 12, addr := f 60 50 }
  let m : Msg :=
    if vc = 1 then { m with htag := f 112 9, reqPkg := f 121 12, reqAgent := f 133 8, reqTxn := f 141 12 }
    else if vc = 2 then { m with htag := f 112 9, newState := f 121 2, status := f 123 2, cause := f 125 3, tokenV := bit n 128,
                                 token := f 129 8 }
    else if vc = 3 then { m with htag := f 110 9, payload := bit n 119, poison := bit n 120, dsrc := f 121 2 }
    else { m with rcid := f 112 10, mcid := f 122 10, cmo := f 132 2, ord := f 134 1, tokenV := bit n 135, token := f 136 8,
                  aop := f 144 4, asize := f 148 2, aoff := f 150 6, poison := bit n 156, byteMask := f 157 64 }
  if msgFull m then { m with data := BitVec.ofNat 512 (n >>> payloadAt vc) } else m

/-- An MGT message, two slots (R151). -/
def mgtBits (m : Mgt) : Nat :=
  pack [(3, 5), (5, m.mopc), (8, m.tag), (20, m.offset), (1, b2n m.size8), (64, m.data.toNat), (2, m.status)]
def mgtOf (n : Nat) : Mgt :=
  { mopc := bits n 3 5, tag := bits n 8 8, offset := bits n 16 20, size8 := bit n 36, data := BitVec.ofNat 64 (n >>> 37),
    status := bits n 101 2 }

/-- The header of a Pass flit (R146). -/
def flitHeader (f : Flit) : Nat :=
  pack [(2, f.typ), (10, f.seq), (10, f.ackSeq), (1, b2n f.ackV), (1, b2n f.nak), (15, f.slotStart), (3, f.cr0Vc),
        (16, f.cr0Total), (3, f.cr1Vc), (16, f.cr1Total), (12, f.dseq)]
/-- A flit's header fields, read at their places. -/
def flitOf (n : Nat) : Flit :=
  { typ := bits n 0 2, seq := bits n 2 10, ackSeq := bits n 12 10, ackV := bit n 22, nak := bit n 23, slotStart := bits n 24 15,
    cr0Vc := bits n 39 3, cr0Total := bits n 42 16, cr1Vc := bits n 58 3, cr1Total := bits n 61 16, dseq := bits n 77 12 }

/-- A window or island message's header, two slots with the Horizon fields (R240, R242). The four bits from 151 are AOP,
CSTATUS or NAK_CAUSE, by the message. -/
def winHeader (m : WMsg) : Nat :=
  let u := if m.vc = 6 then m.aop else if m.vc = 7 then m.cstatus else m.nakCause
  pack [(3, m.vc), (5, m.wopc), (12, m.srcPkg), (12, m.dstPkg), (12, m.srcFn), (14, m.iwin), (40, m.offset), (9, m.length),
        (12, m.wtag), (32, m.key), (4, u), (2, m.asize), (1, b2n m.poison), (8, m.icode), (5, m.member), (16, m.islandId),
        (45, 0), (10, m.fmcid), (4, m.hops), (1, m.rclass)]
/-- A window or island message's fields, read at their places. -/
def winOf (n : Nat) : WMsg :=
  let vc := bits n 0 3
  { vc := vc, wopc := bits n 3 5, srcPkg := bits n 8 12, dstPkg := bits n 20 12, srcFn := bits n 32 12, iwin := bits n 44 14,
    offset := bits n 58 40, length := bits n 98 9, wtag := bits n 107 12, key := bits n 119 32,
    aop := if vc = 6 then bits n 151 4 else 0, asize := bits n 155 2, cstatus := if vc = 7 then bits n 151 3 else 0,
    poison := bit n 157, icode := bits n 158 8, member := bits n 166 5, islandId := bits n 171 16,
    nakCause := if vc = 5 then bits n 151 3 else 0, fmcid := bits n 232 10, hops := bits n 242 4, rclass := bits n 246 1 }

/-- The header of a Horizon frame (R238), with the credit report it carries first. -/
def frameHeader (f : HFrame) : Nat :=
  let c := f.crs.headD (0, 0)
  pack [(2, f.typ), (12, f.seq), (12, f.ackSeq), (1, b2n f.ackV), (1, b2n f.nak), (38, f.slotStart), (1, b2n !f.crs.isEmpty),
        (4, c.1), (16, c.2), (12, f.bseq)]
/-- A frame's header fields, read at their places. -/
def frameOf (n : Nat) : HFrame :=
  { typ := bits n 0 2, seq := bits n 2 12, ackSeq := bits n 14 12, ackV := bit n 26, nak := bit n 27, slotStart := bits n 28 38,
    crs := if bit n 66 then [(bits n 67 4, bits n 71 16)] else [], bseq := bits n 87 12 }

end Sys2Proof.Machine
end

