-- ==== Sys2Proof/Machine/Tbl.lean ====
section
/-!
DEFINITION. Sparse tables: the one form in which the model holds memories, register files, directories and queues
that are mostly at their reset value. A table is a list of (key, value) pairs whose keys strictly rise and in which
no entry equals what an unlisted key reads as, so that equal contents are equal lists.
-/

namespace Sys2Proof.Machine

/-- What key `k` holds; `d k` where the table lists nothing. -/
def Tbl.get {α : Type} (d : Nat → α) : Tbl α → Nat → α
  | [], k => d k
  | (j, v) :: t, k => if k = j then v else Tbl.get d t k

/-- The table without key `k`. -/
def Tbl.erase {α : Type} (t : Tbl α) (k : Nat) : Tbl α := t.filter (fun e => e.1 != k)

/-- The table with (k, v) before the first larger key. -/
def Tbl.insert {α : Type} : Tbl α → Nat → α → Tbl α
  | [], k, v => [(k, v)]
  | (j, u) :: t, k, v => if k < j then (k, v) :: (j, u) :: t else (j, u) :: Tbl.insert t k v

/-- Key `k` now holds `v`; what an unlisted key reads as is not listed. -/
def Tbl.set {α : Type} [DecidableEq α] (d : Nat → α) (t : Tbl α) (k : Nat) (v : α) : Tbl α :=
  if v = d k then Tbl.erase t k else Tbl.insert (Tbl.erase t k) k v

/-- Every key is above `lo` and strictly above the one before it, and no entry is a default. -/
def Tbl.okFrom {α : Type} [DecidableEq α] (d : Nat → α) : Nat → Tbl α → Bool
  | _, [] => true
  | lo, (k, v) :: t => decide (lo ≤ k) && decide (v ≠ d k) && Tbl.okFrom d (k + 1) t

/-- The canonical form. -/
def Tbl.wf {α : Type} [DecidableEq α] (d : Nat → α) (t : Tbl α) : Bool := Tbl.okFrom d 0 t

/-- Change what key `k` holds. -/
def Tbl.upd {α : Type} [DecidableEq α] (d : Nat → α) (t : Tbl α) (k : Nat) (f : α → α) : Tbl α :=
  Tbl.set d t k (f (Tbl.get d t k))

/-- The listed keys from `lo` below `hi` whose value meets `p`. -/
def Tbl.keysIn {α : Type} (t : Tbl α) (lo hi : Nat) (p : α → Bool) : List Nat :=
  (t.filter (fun e => decide (lo ≤ e.1) && decide (e.1 < hi) && p e.2)).map (·.1)

/-- How many listed keys from `lo` below `hi` meet `p`. -/
def Tbl.countIn {α : Type} (t : Tbl α) (lo hi : Nat) (p : α → Bool) : Nat :=
  (t.filter (fun e => decide (lo ≤ e.1) && decide (e.1 < hi) && p e.2)).length

end Sys2Proof.Machine
end

