-- ==== Sys2Proof/Machine/Lanes.lean ====
section
/-!
DEFINITION. Flits and training words on the lanes of a Pass link (spec/06_pass_links.md R144, R145, R147, R150, R155): their
bytes and CRCs, byte striping, the scrambler, spare lanes, and what a receiver makes of bits inverted on the way.
-/

namespace Sys2Proof.Machine

/-! ## Flits as bytes (R145, R147, R150) -/

/-- The slots of a message of a Pass flit (R147). -/
def linkSlots : LinkMsg → Nat
  | .mgt _ => 2
  | .ose m =>
    if m.vc = 3 then (if m.payload then 5 else 1)
    else if m.vc = 4 then 6
    else if m.vc = 0 ∧ (m.opc = 4 ∨ m.opc = 5 ∨ m.opc = 6) then 6
    else 2

/-- The bits of a message. -/
def linkBits : LinkMsg → Nat
  | .ose m => msgBits m
  | .mgt m => mgtBits m

/-- The messages of a flit laid in their slots, the first at bit 0 of the body. -/
def slotBits : List LinkMsg → Nat
  | [] => 0
  | m :: ms => linkBits m % 2 ^ (128 * linkSlots m) + slotBits ms <<< (128 * linkSlots m)

/-- The body of a CONTROL flit: CTYPE, the attempt counter and the argument bytes (R150). -/
def ctlBits (ctype att : Nat) (args : List Nat) : Nat := ofBytes (ctype :: att :: args) % 2 ^ 1920

/-- The first 252 bytes of a flit: its header, and the body of its type (R145). -/
def flitBits (f : Flit) (args : List Nat) : Nat :=
  flitHeader f % 2 ^ 96 +
  (if f.typ = 0 then slotBits f.msgs % 2 ^ 1920 else if f.typ = 1 then ctlBits f.ctype f.att args else 0) <<< 96

/-- The CRC of a flit, over its first 252 bytes. -/
def flitCrc (n : Nat) : Nat := crc32c (leBytes 252 n)

/-- The 256 bytes of a flit. -/
def flitWire (f : Flit) (args : List Nat) : Nat := flitBits f args + flitCrc (flitBits f args) <<< 2016

/-- Do 256 bytes pass their CRC? -/
def flitGood (n : Nat) : Bool := n >>> 2016 == flitCrc (n % 2 ^ 2016)

/-- The message that stands in a body at slot `j`. -/
def slotMsg (body j : Nat) : LinkMsg :=
  let b := body >>> (128 * j)
  if b % 8 = 5 then .mgt (mgtOf b) else .ose (msgOf b)

/-- The flit that 256 bytes spell, and the argument bytes where it is a CONTROL flit. -/
def flitRead (n : Nat) : Flit × List Nat :=
  let body := bits n 96 1920
  let f := flitOf n
  ({ f with msgs := if f.typ = 0 then ((List.range 15).filter (fun j => f.slotStart.testBit j)).map (slotMsg body) else [],
            ctype := if f.typ = 1 then bits body 0 8 else 0, att := if f.typ = 1 then bits body 8 8 else 0 },
   leBytes 238 (body >>> 16))

/-! ## Lanes (R144) -/

/-- The logical lane of byte `k` of a flit at width `w`. -/
def laneOfByte (w k : Nat) : Nat := k % w

/-- The bytes of a flit that logical lane `i` carries, in the order in which they are sent. -/
def laneBytes (w i : Nat) : List Nat := (List.range 256).filter (fun k => laneOfByte w k == i)

/-- The bits that logical lane `i` carries of a flit, before scrambling. -/
def laneData (w i flit : Nat) : Nat := ofBytes ((laneBytes w i).map (fun k => bits flit (8 * k) 8))

/-- One step of the scrambler's 23-bit register, with polynomial x^23 + x^21 + x^16 + x^8 + x^5 + x^2 + 1. DESIGN CHOICE
(notes/assumptions/52.md): its bit 22 is the bit sent and feeds back into the taps. -/
def lfsrStep (r : Nat) : Nat :=
  let n := r * 2 % 2 ^ 23
  if r.testBit 22 then n ^^^ 0x210125 else n

/-- The scrambler's register of logical lane `i` after `n` bits since flit alignment. -/
def lfsrAt (i : Nat) : Nat → Nat
  | 0 => 0x7FFFFF ^^^ i
  | n + 1 => lfsrStep (lfsrAt i n)

/-- `n` bits of scrambler from register `r`, the first at bit 0. -/
def lfsrBits : Nat → Nat → Nat
  | 0, _ => 0
  | n + 1, r => (r >>> 22) % 2 + 2 * lfsrBits n (lfsrStep r)

/-- A lane's bits after scrambling, from bit `pos` of its stream on; scrambling the bits again restores them. -/
def scramble (i pos n data : Nat) : Nat := data % 2 ^ n ^^^ lfsrBits n (lfsrAt i pos)

/-- One step of PRBS-31, x^31 + x^28 + 1. -/
def prbsStep (r : Nat) : Nat := (2 * r + ((r >>> 30) % 2 ^^^ (r >>> 27) % 2)) % 2 ^ 31

/-- `n` bits of PRBS-31 from register `r`. -/
def prbsBits : Nat → Nat → Nat
  | 0, _ => 0
  | n + 1, r => (r >>> 30) % 2 + 2 * prbsBits n (prbsStep r)

/-- What a spare lane sends in a flit time of `n` bits: the word 0x5A5A_C3C3, then PRBS-31 (R144). -/
def spareBits (n prbs : Nat) : Nat := 0x5A5AC3C3 + prbsBits (n - 32) prbs <<< 32

/-- The bits of a flit on physical lane `l`: those of the logical lane that the map puts there, scrambled, and on a spare
the spare's pattern. -/
def wireBits (map : List Nat) (pos prbs flit l : Nat) : Nat :=
  let n := 2048 / map.length
  if map.contains l then scramble (map.idxOf l) pos n (laneData map.length (map.idxOf l) flit) else spareBits n prbs

/-! ## Errors on the way -/

/-- The inverted bits of a flit that inverted bits of physical lanes make, under a map: the byte that stands `j`th on logical
lane `i` is byte `i + j * W` of the flit. -/
def flitErr (map : List Nat) (err : List (Nat × Nat)) : Nat :=
  let w := map.length
  err.foldl (fun n e =>
    if map.contains e.1 then
      (List.range (256 / w)).foldl (fun n j => n ^^^ (bits e.2 (8 * j) 8) <<< (8 * (map.idxOf e.1 + j * w))) n
    else n) 0

/-- What a receiver makes of a flit: `none` where its CRC fails, else the flit and its argument bytes as they arrived. -/
def flitHeard (map : List Nat) (f : Flit) (args : List Nat) : Option (Flit × List Nat) :=
  let x := flitErr map f.err
  if x = 0 then some (f, args)
  else
    let n := flitWire f args ^^^ x
    if flitGood n then some (flitRead n) else none

/-! ## The CRC of a lane (R150) -/

/-- One bit into a lane's CRC-16, polynomial 0x1021. -/
def crc16Bit (c b : Nat) : Nat :=
  let n := c * 2 % 65536
  if (c >>> 15) % 2 ^^^ b % 2 = 1 then n ^^^ 0x1021 else n

/-- `n` bits into a lane's CRC, the first at bit 0. -/
def crc16Bits : Nat → Nat → Nat → Nat
  | 0, c, _ => c
  | n + 1, c, v => crc16Bits n (crc16Bit c v) (v / 2)

/-- The CRC of a lane over `n` bits: initial value 0xFFFF. -/
def laneCrc (n v : Nat) : Nat := crc16Bits n 0xFFFF v

/-- How the receiver's CRC of each lane differs from the sender's after a flit of `n` bits a lane: the CRC is linear, so
inverted bits alone decide it. -/
def diffAfter (n : Nat) (diff : Tbl Nat) (err : List (Nat × Nat)) : Tbl Nat :=
  (List.range 68).foldl (fun t l =>
    let old := Tbl.get (fun _ => 0) diff l
    let e := (err.filter (fun x => x.1 == l)).foldl (fun v x => v ^^^ x.2) 0
    if old = 0 ∧ e = 0 then t else Tbl.set (fun _ => 0) t l (crc16Bits n old e)) diff

/-! ## Training words (R155) -/

/-- The first 28 bytes of a training word, and the word. -/
def tsBits (kind att body : Nat) : Nat := pack [(8, kind), (8, att), (208, body)]
def tsWord (kind att body : Nat) : Nat := tsBits kind att body + crc32c (leBytes 28 (tsBits kind att body)) <<< 224

/-- Does a copy of a word pass its CRC? -/
def tsGood (n : Nat) : Bool := n >>> 224 == crc32c (leBytes 28 (n % 2 ^ 224))

/-- What a receiver makes of the copies of a word. -/
inductive TsHeard where
  /-- No copy passes its CRC, or two that pass differ: the exchange attempt fails. -/
  | failed
  /-- The word of every copy that passes. -/
  | word (n : Nat)
  deriving DecidableEq, Repr

/-- The copies on the lanes of a vector, each with the bits inverted on its lane. -/
def tsHeard (lanes kind att body : Nat) (err : List (Nat × Nat)) : TsHeard :=
  let w := tsWord kind att body
  let bad (l : Nat) : Nat := (err.filter (fun x => x.1 == l)).foldl (fun v x => v ^^^ x.2) 0 % 2 ^ 256
  let good := ((List.range 68).filter (fun l => lanes.testBit l)).filterMap (fun l =>
    if bad l = 0 then some w else if tsGood (w ^^^ bad l) then some (w ^^^ bad l) else none)
  match good with
  | [] => .failed
  | g :: gs => if gs.all (· == g) then .word g else .failed

/-- The fields of a word: KIND, ATTEMPT and BODY. -/
def tsKind (n : Nat) : Nat := bits n 0 8
def tsAtt (n : Nat) : Nat := bits n 8 8
def tsBody (n : Nat) : Nat := bits n 16 208

end Sys2Proof.Machine
end

