-- ==== Sys2Proof/Machine/Codeword.lean ====
section
/-!
DEFINITION. Horizon frames on the wire (spec/10_horizon_fabric.md R236 to R242): messages in their slots, the frame's bytes
and CRC, the codeword, its scrambler and code, and the lanes that carry its symbols.
-/

namespace Sys2Proof.Machine

/-! ## Frames as bytes (R237 to R240) -/

/-- The slots of a message's payload, and of a whole message behind its two-slot header (R240, R242). -/
def hmsgSlots : HMsg → Nat
  | .ose m _ _ _ => if msgFull m then 6 else 2
  | .win w => 2 + (w.data.length + 15) / 16

/-- The bits of a message. DATA keeps the layout of Pass but for a second header slot; bits [255:232] are the Horizon
fields. -/
def hmsgBits : HMsg → Nat
  | .ose m f h c =>
    msgHeader m % 2 ^ 232 + pack [(10, f), (4, h), (1, c)] <<< 232 + (if msgFull m then m.data.toNat <<< 256 else 0)
  | .win w => winHeader w + ofBytes w.data <<< 256

/-- The messages of a frame laid in their slots, the first at bit 0 of the body. -/
def hslotBits : List HMsg → Nat
  | [] => 0
  | m :: ms => hmsgBits m % 2 ^ (128 * hmsgSlots m) + hslotBits ms <<< (128 * hmsgSlots m)

/-- The SLOT_START that messages make, from slot `i`; `none` where they do not fit. -/
def hznStarts : Nat → List HMsg → Option Nat
  | _, [] => some 0
  | i, m :: ms =>
    if i + hmsgSlots m ≤ 38 then (hznStarts (i + hmsgSlots m) ms).map (fun v => v ||| 1 <<< i) else none

/-- A credit report of the header or the tail: valid, channel code, total. -/
def crBits : Option (Nat × Nat) → Nat
  | some c => pack [(1, 1), (4, c.1), (16, c.2)]
  | none => 0

/-- The first 636 bytes of a frame: header, body of its type, and tail. -/
def frameBits (f : HFrame) (args : List Nat) : Nat :=
  frameHeader f % 2 ^ 128 +
  (if f.typ = 0 then hslotBits f.msgs % 2 ^ 4864
   else if f.typ = 1 then ofBytes (f.ctype :: f.att :: args) % 2 ^ 4864 else 0) <<< 128 +
  pack [(21, crBits f.crs[1]?), (21, crBits f.crs[2]?), (21, crBits f.crs[3]?)] <<< 4992

/-- The CRC of a frame, and its 640 bytes. -/
def frameCrc (n : Nat) : Nat := crc32c (leBytes 636 n)
def frameWire (f : HFrame) (args : List Nat) : Nat := frameBits f args + frameCrc (frameBits f args) <<< 5088

/-- The arguments of a HELLO, HANDOVER and time frames, as bytes (R239). -/
def helloBytes (h : Hello) : List Nat :=
  leBytes 8 h.serial.toNat ++ leBytes 2 h.pkg ++ [h.kind, h.lo, h.hi, h.rxGood, h.txGood, h.width, h.rev, b2n h.noRev]

/-! ## Codewords (R236) -/

/-- The 5,140 message bits of a codeword: the counter, the marker and the frame. -/
def codewordBits (counter frame : Nat) : Nat := pack [(12, counter), (8, 0xA7)] + frame <<< 20

/-- `n` bits through the self-synchronising scrambler x^58 + x^39 + 1 from its last 58 bits sent, the newest at bit 0. -/
def selfScramble : Nat → Nat → Nat → Nat
  | 0, _, _ => 0
  | n + 1, last, v =>
    let b := v % 2 ^^^ (last >>> 38) % 2 ^^^ (last >>> 57) % 2
    b + 2 * selfScramble n ((last * 2 + b) % 2 ^ 58) (v / 2)

/-- The field of RS(544,514): GF(2^10) modulo x^10 + x^3 + 1, and the generator with roots α^0 to α^29 (PRESUMED from IEEE
802.3, notes/assumptions/56.md). -/
def gfxTwice (a : Nat) : Nat := if a.testBit 9 then (a * 2 ^^^ 0x409) % 1024 else a * 2 % 1024
def gfxMul (a b : Nat) : Nat :=
  (List.range 10).foldl (fun r i => let r := gfxTwice r; if b.testBit (9 - i) then r ^^^ a % 1024 else r) 0
def gfxPow : Nat → Nat
  | 0 => 1
  | n + 1 => gfxTwice (gfxPow n)
def fecGen : List Nat :=
  (List.range 30).foldl (fun g i => List.zipWith (fun a b => a ^^^ b) (g.map (gfxMul (gfxPow i)) ++ [0]) (0 :: g)) [1]

/-- The 544 symbols of a codeword: 514 of the message and 30 check symbols. -/
def codewordSymbols (v : Nat) : List Nat :=
  let msg := (List.range 514).map (fun k => bits v (10 * k) 10)
  let g := (fecGen.take 30).reverse
  msg ++ msg.foldl (fun r m =>
    let k := m ^^^ r.headD 0
    List.zipWith (fun a b => a ^^^ gfxMul k b) (r.drop 1 ++ [0]) g) (List.replicate 30 0)

/-- The lanes of an active block, and the one that carries symbol `k`. -/
def blockLanes (mask : Nat) : List Nat := (List.range 8).filter (fun l => mask.testBit l)
def symbolLane (mask k : Nat) : Nat := let l := blockLanes mask; l.getD (k % max 1 l.length) 0

/-- The symbols of a codeword that arrive wrong. -/
def wrongSymbols (err : List (Nat × Nat)) : List Nat :=
  ((err.map (·.1)).filter (fun k => decide (k < 544))).eraseDups.filter (fun k =>
    (err.filter (fun e => e.1 == k)).foldl (fun v e => v ^^^ e.2) 0 % 1024 != 0)

/-- What a receiver makes of a codeword whose symbols arrive with the bits of `err` turned, on an active block: `none` where
more than 15 are wrong, else how many of each lane were corrected. The frame is then as it was sent (DESIGN CHOICE,
notes/assumptions/56.md: the code never corrects to another codeword whose frame passes its CRC). -/
def fecHeard (mask : Nat) (err : List (Nat × Nat)) : Option (List Nat) :=
  let bad := wrongSymbols err
  if 15 < bad.length then none else some ((List.range 8).map (fun l => (bad.filter (fun k => symbolLane mask k == l)).length))

end Sys2Proof.Machine
end

