-- ==== Sys2Proof/Machine/Drizzle.lean ====
section
/-!
DEFINITION. The code of the DRAM channels (spec/07_memory_channels.md R175 to R177): a Reed-Solomon code over GF(2⁸), the
codeword of a line, what a read returns, and which errors its syndromes allow.
-/

namespace Sys2Proof.Machine

/-! ## The field -/

/-- Times x modulo x⁸ + x⁴ + x³ + x² + 1. -/
def gfTwice (a : Nat) : Nat := if a.testBit 7 then (a * 2 ^^^ 0x11D) % 256 else a * 2 % 256

/-- The product of two elements. -/
def gfMul (a b : Nat) : Nat :=
  (List.range 8).foldl (fun r i => let r := gfTwice r; if b.testBit (7 - i) then r ^^^ a % 256 else r) 0

/-- The powers of α, the root x. -/
def gfPow : Nat → Nat
  | 0 => 1
  | n + 1 => gfTwice (gfPow n)

/-! ## Check symbols -/

/-- Polynomials over the field, the coefficient of the lowest power first. -/
def polyAdd : List Nat → List Nat → List Nat
  | [], q => q
  | p, [] => p
  | a :: p, b :: q => (a ^^^ b) :: polyAdd p q

def polyMul : List Nat → List Nat → List Nat
  | [], _ => []
  | a :: p, q => polyAdd (q.map (gfMul a)) (0 :: polyMul p q)

/-- The generator, with roots α⁰ to α¹⁵. -/
def rsGen : List Nat := (List.range 16).foldl (fun g i => polyMul g [gfPow i, 1]) [1]

/-- The remainder of the message times x¹⁶: symbols in the order sent, and the 16 check symbols, highest power first. -/
def rsCheck (msg : List Nat) : List Nat :=
  let g := (rsGen.take 16).reverse
  msg.foldl (fun r m =>
    let k := m ^^^ r.headD 0
    List.zipWith (fun a b => a ^^^ gfMul k b) (r.drop 1 ++ [0]) g) (List.replicate 16 0)

/-- The syndromes of a word: its value at α⁰ to α¹⁵. -/
def rsSyndromes (w : List Nat) : List Nat := (List.range 16).map (fun i => w.foldl (fun r c => gfMul r (gfPow i) ^^^ c) 0)

/-! ## The codeword of a line (R175)

DESIGN CHOICE (notes/assumptions/53.md): the symbols stand in the order of the rule's list, data, address, check; data
symbol 8j + i is byte 8j + i of the line and lies in device i (half-device i of x8 devices), beats 2j and 2j + 1; devices 8
and 9 hold the check symbols. -/

/-- The address symbols of a channel byte address: its bits [39:6], zero-extended to 40 bits. -/
def addrSymbols (x : Nat) : List Nat := leBytes 5 (bits x 6 34)

/-- The codeword of a line at a channel byte address; the corrupt marker turns every check symbol (R177). -/
def codeword (x : Nat) (l : Line) (marked : Bool) : List Nat :=
  let msg := lineBytes l ++ addrSymbols x
  msg ++ (rsCheck msg).map (fun c => if marked then c ^^^ 0xA5 else c)

/-- Where symbol `j` of a device stands in the codeword. -/
def symbolAt (dev j : Nat) : Nat := if dev < 8 then 8 * j + dev else 69 + 2 * j + (dev - 8)

/-- What the decoder has of a read of the line at `x`: the word stored at `y`, with the bad symbols of this read, and the
address symbols of `x`. -/
def received (x y : Nat) (l : Line) (marked : Bool) (bad : List (Nat × Nat × Nat)) : List Nat :=
  let w := codeword y l marked
  let w := w.take 64 ++ addrSymbols x ++ w.drop 69
  bad.foldl (fun w b => let k := symbolAt b.1 b.2.1; w.set k (w.getD k 0 ^^^ b.2.2)) w

/-- The data symbols of a word, as a line. -/
def wordLine (w : List Nat) : Line := BitVec.ofNat 512 (ofBytes (w.take 64))

/-- The marker's syndromes (R177). -/
def markerSyndromes : List Nat := rsSyndromes (List.replicate 69 0 ++ List.replicate 16 0xA5)

/-- The positions of a device. -/
def devSymbols (dev : Nat) : List Nat := (List.range 8).map (symbolAt dev)

/-- Do errors in the symbols at `ps` alone, at most 16 of them, explain the syndromes? The syndromes times the locator of
`ps` then have no coefficient from the power of their number on. -/
def explains (syn ps : List Nat) : Bool :=
  let loc := ps.foldl (fun g p => polyMul g [1, gfPow (84 - p)]) [1]
  ((polyMul syn loc).take 16).drop ps.length |>.all (· == 0)

end Sys2Proof.Machine
end

