-- ==== Sys2Proof/Config.lean ====
section
/-!
DEFINITION. What the spec leaves to the part or leaves open: opaque constants without a body, so that nothing can be
proved of a value of theirs (notes/assumptions/1.md). `freeWord`, `freeLine` and `freeBit` are applied to the counter
`State.free`, which each use advances.
-/

namespace Sys2Proof

/-- The fused serial number of the package (spec/01_package_topology.md, PKG_SERIAL). -/
opaque Config.serial : Word

/-- A word the spec leaves open. -/
opaque Config.freeWord : Nat → Word

/-- The 64 bytes of a line the spec leaves open. -/
opaque Config.freeLine : Nat → Line

/-- A yes or no the spec leaves open. -/
opaque Config.freeBit : Nat → Bool

/-- The fused voltage of a step of a hart's core, in mV (spec/02_vale_cores.md R54). -/
opaque Config.stepVoltage : (hart step : Nat) → Nat

/-- Does Igomen's signing key `key` in the boot ROM verify an ECDSA P-384 signature (96 bytes) of a SHA-384 digest
(spec/16_firmware_bundles.md R365, R367)? The keys are the part's own. -/
opaque Config.sigOk : (key : Nat) → (digest sig : List Nat) → Bool

/-- Is the revocation fuse of a signing key blown (R367)? -/
opaque Config.keyRevoked : Nat → Bool

/-- The link revisions that an image of a component carries, of those that B0 images implement (spec/06 R161, spec/10 R250):
2 alone, 2 and 3, or 3 alone. Which images carry which is theirs. -/
opaque Config.imageRevs : (component version : Nat) → Fin 3

/-- An upset of a nanosecond in which no command runs: cells of a block of an on-chip array that it inverts, as (row, column)
(spec/14_stored_data_protection.md R324, R326). The argument is the counter `State.free`. -/
opaque Config.upset : Nat → Option (ArrLoc × List (Nat × Nat))

/-- A stored copy in flash that decays in a nanosecond in which no command runs (spec/15 R361): an item by its key, in settings
slot 0 or 1 or, else, among the device records. The argument is the counter `State.free`. -/
opaque Config.flashRot : Nat → Option (Nat × Nat)

/-- What the tables of the IOMMU make of an interrupt write to an address: an address, or nothing where they refuse it
(spec/13 R322). The first argument is the counter `State.free`. -/
opaque Config.freeMsi : (n addr : Nat) → Option Nat

/-- A dword of a root port's configuration space that the spec leaves to PCI Express (spec/13 R312). -/
opaque Config.rootCfg : (port off : Nat) → Nat

end Sys2Proof
end

