-- ==== Sys2Proof/Machine/RegMap.lean ====
section
/-!
DEFINITION. The register map (every "## Registers" field table of spec/01 to spec/18, spec/01_package_topology.md R34
and the register tables): for each register its address, its fields, the bits that software may write and how (R4),
and its value after POR. One address space holds them all: package register space offsets below 2^28, PF0 BAR0 at
2^32, the BAR0 of VF k at 2^33 + k * 64 KiB, and the CSRs of local hart h at 2^40 + h * 4096 (the placement above 2^28
is the model's own).
-/

namespace Sys2Proof.Machine

/-- A field of one register: the register's address, the field's lowest bit and its width. -/
structure FRef where
  addr : Nat
  lo   : Nat
  w    : Nat
  deriving DecidableEq, Repr

/-- The names of the registers of the map. -/
inductive RegId where
  | PKG_IDENT | PKG_SERIAL | PKG_NODE | PKG_DIES | PKG_CORE_ONLINE | PKG_MEMMAP | PKG_DECODE_ERR 
  | PKG_DECODE_ADDR | VALE_CORE_CTL | VALE_CORE_STATUS | VALE_CORE_RESET_PC | VALE_CORE_NMI_PC 
  | VALE_DIE_STATUS | VALE_L2_CTL | VALE_L2_STATUS | VALE_VC_CTL | VALE_VC_STATUS | VALE_SF_STATUS 
  | HOME_DIRCFG | HOME_DIR_STATUS | HOME_RPT_STATUS | HOME_RLD_STATUS | HOME_LOCKS | HOME_BCAST 
  | HOME_PROTO_ERR | HOME_PROTO_ADDR | HOME_ARB | HOME_RETRY_CTL | HOME_TOKEN_FREE | HOME_TOKEN_COUNTS 
  | HOME_OWED | HOME_RETRY_STATS | HOME_GRANT_STATS | HOME_WB_HELD | HOME_TOKEN_ERR | PASS_STATUS 
  | PASS_EVENT | PASS_LANE_SEL | PASS_LANE_INFO | PASS_LINK_STATS | PASS_TRAIN_INFO | PASS_SEQ_INFO 
  | PASS_CTL | PASS_RX_GOOD_LO | PASS_RX_GOOD_HI | PASS_TX_GOOD_LO | PASS_TX_GOOD_HI | PASS_CREDIT 
  | PASS_RX_MAP | PASS_TX_MAP | MC_CH_STATUS | MC_CH_CONFIG | MC_MARK | MC_ERR_STATS | MC_EVENT 
  | MC_COPY_CTL | MC_COPY_STATUS | MC_FILL_STATUS | MC_SAN_STATUS | MC_SAN_BASE | MC_SAN_LENGTH 
  | MC_SAN_PROGRESS | MESA_STATUS | MESA_CTL | MESA_INV | MESA_WAY_CTL | MESA_WAY_STATUS | MESA_OCCUPANCY 
  | MESA_ERR_STATS | MESA_EVENT | MESA_FILL_STATS | QOS_CAPS | QOS_IOMMU_ID | QOS_RPRT_ID | QOS_FN_ID 
  | METER_CTL | METER_STATUS | METER_RING_BASE | METER_RING_SIZE | METER_RING_PROD | METER_RING_CONS 
  | METER_MSI_ADDR | METER_MSI_DATA | METER_LAST | HZN_STATUS | HZN_CTL | HZN_EVENT | HZN_PARTNER 
  | HZN_PARTNER_SERIAL | HZN_LANES | HZN_LINK_STATS | HZN_DROP_STATS | HZN_TRAIN_INFO | HZN_TIME_ASYM 
  | HZN_TIME_OFFSET | HZN_LANE_STATS | HZN_CREDIT | ROUTE_ISLAND_CTL | ROUTE_ISLAND_STATUS | ROUTE_TIMEOUT 
  | ROUTE_STATS | ROUTE_MEMBER | ROUTE_ENTRY | XCE_IDENT | XCE_STATUS | XCE_RESET_CTL | XCE_VF_STATE 
  | XCE_EVENT | XCE_EVENT_EN | XCE_ATC_CTL | XCE_ATC_STATS | XCE_ATC_OCCUPANCY | XCE_FN_DRAINING | QP_SQ_DB 
  | QP_CQ_DB | QP_RQ_DB | QP_CTL | QP_SQ_BASE | QP_CQ_BASE | QP_RQ_BASE | QP_SIZES | QP_IRQ | QP_STATUS 
  | QP_SQ_HEAD | QP_CQ_TAIL | QP_RQ_HEAD | XCE_VF_INFO | XCE_VF_WIN_FAULTS | XCE_FN_SHARE | XCE_FN_OWIN 
  | XCE_FN_ARB | XCE_WIN_SHADOW | XCE_WIN_COMMIT | XCE_WIN_STATUS | RPRT_STATUS | RPRT_CTL 
  | RPRT_CXL_REGION | RPRT_EVENT | RPRT_ERR | IOMMU_MSI_DROPS | RAS_AGG_CTL | RAS_MSI_ADDR | RAS_MSI_DATA 
  | RAS_PATROL_CTL | RAS_PATROL_STATUS | RAS_BANK_VALID | RAS_BUCKET_CFG | MBOX_STATUS | MBOX_TX_CTL 
  | MBOX_RX_INFO | MBOX_RX_CTL | MBOX_IRQ_CTL | MBOX_MSI_ADDR | MBOX_MSI_DATA | MBOX_MSL_STATS 
  | MBOX_TX_BUF | MBOX_RX_BUF | PWR_LIMIT | PWR_CTL | PWR_STATUS | PWR_ENERGY | PWR_TEMP | PWR_MESA_LEVEL 
  | PWR_MESA_THRESH | TIME_NOW | TIME_CTL | TIME_STATUS | TIME_NEXT_PPS | TIME_STEP_FWD | TIME_OFFSET 
  | CCOL_CTL | CCOL_STATUS | CCOL_RING_BASE | CCOL_RING_SIZE | CCOL_RING_PROD | CCOL_RING_CONS 
  | CCOL_MSI_ADDR | CCOL_MSI_DATA | CCOL_BANK_EN | CCOL_OVF_PEND | CCOL_COUNT | CCOL_SELECT | CORE_PFCTL 
  | CORE_FREQ_REQ | CORE_FREQ_CUR | srmcfg | mtvec | mnstatus | mnepc | mncause | mstateen0 | mcycle 
  | minstret | mhpmcounter | mhpmevent | mcounteren | hcounteren | scounteren | vstart | vl | stvec 
  | senvcfg | sstateen | sscratch | sepc | scause | stval | stimecmp | satp | vsstatus | vstvec | vsscratch 
  | vsepc | vscause | vstval | vstimecmp | vsatp | mstatus | misa | medeleg | mideleg | mie | menvcfg 
  | mstateenN | mscratch | mepc | mcause | mtval | mip | mtinst | mtval2 | pmpcfg | pmpaddr | hstatus 
  | hedeleg | hideleg | hie | htimedelta | hgeie | henvcfg | hstateen | htval | hvip | htinst | hgatp 
  | mnscratch | mvendorid | marchid | mimpid | mhartid | pc 
  deriving DecidableEq, Repr

/-- A row of the map: where the register's instances lie (a base and (stride, count) pairs, the largest stride
first), which bits are RW, RW1C and WO (R4), and the value after POR. -/
structure RegDesc where
  id    : RegId
  base  : Nat
  dims  : List (Nat × Nat)
  rw    : Nat
  w1c   : Nat
  reset : Nat
  deriving DecidableEq, Repr

/-- The base of end `e` (0 Basin, 1 Vale) of Pass port `p` (spec/01 R34). -/
def passBase (e p : Nat) : Nat :=
  if e = 0 then 0x2300000 + p * 0x10000 else 0x1060000 + (p / 2) * 0x100000 + (p % 2) * 0x10000

/-- The base of queue pair `q` of function `f` (spec/12 R285): PF0 is function 0. -/
def qpBase (f q : Nat) : Nat :=
  if f = 0 then 0x100010000 + q * 0x1000 else 0x200000000 + f * 0x10000 + q * 0x1000

namespace R

/-- PKG_IDENT (spec/01_package_topology.md). -/
def rPKG_IDENT : Nat := 0x0000000 + 0x0
def PKG_IDENT_VENDOR : FRef := ⟨rPKG_IDENT, 0, 16⟩
def PKG_IDENT_PART : FRef := ⟨rPKG_IDENT, 16, 16⟩
def PKG_IDENT_STEPPING : FRef := ⟨rPKG_IDENT, 32, 8⟩
def PKG_IDENT_CORES_PER_DIE : FRef := ⟨rPKG_IDENT, 40, 8⟩
def PKG_IDENT_VALE_DIES : FRef := ⟨rPKG_IDENT, 48, 4⟩
/-- PKG_SERIAL (spec/01_package_topology.md). -/
def rPKG_SERIAL : Nat := 0x0000000 + 0x8
def PKG_SERIAL_SERIAL : FRef := ⟨rPKG_SERIAL, 0, 64⟩
/-- PKG_NODE (spec/01_package_topology.md). -/
def rPKG_NODE : Nat := 0x0000000 + 0x10
def PKG_NODE_PACKAGE_ID : FRef := ⟨rPKG_NODE, 0, 12⟩
def PKG_NODE_ISLAND_INDEX : FRef := ⟨rPKG_NODE, 16, 5⟩
def PKG_NODE_ISLAND_MEMBER : FRef := ⟨rPKG_NODE, 24, 1⟩
/-- PKG_DIES (spec/01_package_topology.md). -/
def rPKG_DIES : Nat := 0x0000000 + 0x18
def PKG_DIES_VALE_ONLINE : FRef := ⟨rPKG_DIES, 0, 12⟩
def PKG_DIES_VALE_RETIRED : FRef := ⟨rPKG_DIES, 16, 12⟩
def PKG_DIES_MESA_PRESENT : FRef := ⟨rPKG_DIES, 32, 4⟩
/-- PKG_CORE_ONLINE (spec/01_package_topology.md). -/
def rPKG_CORE_ONLINE (i : Nat) : Nat := 0x0000000 + 0x20 + i * 0x8
def PKG_CORE_ONLINE_ONLINE (i : Nat) : FRef := ⟨rPKG_CORE_ONLINE i, 0, 64⟩
/-- PKG_MEMMAP (spec/01_package_topology.md). -/
def rPKG_MEMMAP : Nat := 0x0000000 + 0x50
def PKG_MEMMAP_DRAM_TOP_GIB : FRef := ⟨rPKG_MEMMAP, 0, 14⟩
def PKG_MEMMAP_RELOC_BASE_GIB : FRef := ⟨rPKG_MEMMAP, 16, 14⟩
def PKG_MEMMAP_HOLE_WITHHELD : FRef := ⟨rPKG_MEMMAP, 30, 1⟩
def PKG_MEMMAP_CHANNEL_MODE : FRef := ⟨rPKG_MEMMAP, 32, 3⟩
def PKG_MEMMAP_SPARE_CH : FRef := ⟨rPKG_MEMMAP, 36, 4⟩
/-- PKG_DECODE_ERR (spec/01_package_topology.md). -/
def rPKG_DECODE_ERR : Nat := 0x0000000 + 0x58
def PKG_DECODE_ERR_VALID : FRef := ⟨rPKG_DECODE_ERR, 0, 1⟩
def PKG_DECODE_ERR_OVERFLOW : FRef := ⟨rPKG_DECODE_ERR, 1, 1⟩
def PKG_DECODE_ERR_CAUSE : FRef := ⟨rPKG_DECODE_ERR, 8, 4⟩
def PKG_DECODE_ERR_LOCAL_HART : FRef := ⟨rPKG_DECODE_ERR, 16, 9⟩
def PKG_DECODE_ERR_SOURCE : FRef := ⟨rPKG_DECODE_ERR, 28, 2⟩
def PKG_DECODE_ERR_REQUESTER : FRef := ⟨rPKG_DECODE_ERR, 32, 16⟩
def PKG_DECODE_ERR_WRITE : FRef := ⟨rPKG_DECODE_ERR, 48, 1⟩
/-- PKG_DECODE_ADDR (spec/01_package_topology.md). -/
def rPKG_DECODE_ADDR : Nat := 0x0000000 + 0x60
def PKG_DECODE_ADDR_ADDR : FRef := ⟨rPKG_DECODE_ADDR, 0, 56⟩
/-- VALE_CORE_CTL (spec/02_vale_cores.md). -/
def rVALE_CORE_CTL (n i : Nat) : Nat := 0x1000000 + n * 0x100000 + 0x80000 + i * 0x40
def VALE_CORE_CTL_CMD (n i : Nat) : FRef := ⟨rVALE_CORE_CTL n i, 0, 2⟩
def VALE_CORE_CTL_RETIRE (n i : Nat) : FRef := ⟨rVALE_CORE_CTL n i, 2, 1⟩
/-- VALE_CORE_STATUS (spec/02_vale_cores.md). -/
def rVALE_CORE_STATUS (n i : Nat) : Nat := 0x1000000 + n * 0x100000 + 0x80008 + i * 0x40
def VALE_CORE_STATUS_STATE (n i : Nat) : FRef := ⟨rVALE_CORE_STATUS n i, 0, 3⟩
def VALE_CORE_STATUS_RETIRE_PENDING (n i : Nat) : FRef := ⟨rVALE_CORE_STATUS n i, 3, 1⟩
def VALE_CORE_STATUS_CMD_REJECTED (n i : Nat) : FRef := ⟨rVALE_CORE_STATUS n i, 4, 1⟩
def VALE_CORE_STATUS_LAST_STOP_ERROR (n i : Nat) : FRef := ⟨rVALE_CORE_STATUS n i, 5, 1⟩
def VALE_CORE_STATUS_BUCKET (n i : Nat) : FRef := ⟨rVALE_CORE_STATUS n i, 8, 8⟩
/-- VALE_CORE_RESET_PC (spec/02_vale_cores.md). -/
def rVALE_CORE_RESET_PC (n i : Nat) : Nat := 0x1000000 + n * 0x100000 + 0x80010 + i * 0x40
def VALE_CORE_RESET_PC_PC (n i : Nat) : FRef := ⟨rVALE_CORE_RESET_PC n i, 1, 55⟩
/-- VALE_CORE_NMI_PC (spec/02_vale_cores.md). -/
def rVALE_CORE_NMI_PC (n i : Nat) : Nat := 0x1000000 + n * 0x100000 + 0x80018 + i * 0x40
def VALE_CORE_NMI_PC_PC (n i : Nat) : FRef := ⟨rVALE_CORE_NMI_PC n i, 6, 50⟩
/-- VALE_DIE_STATUS (spec/03_vale_die_cache.md). -/
def rVALE_DIE_STATUS (n : Nat) : Nat := 0x1000000 + n * 0x100000 + 0x0
def VALE_DIE_STATUS_ONLINE (n : Nat) : FRef := ⟨rVALE_DIE_STATUS n, 0, 1⟩
def VALE_DIE_STATUS_OFFLINE_FLUSH (n : Nat) : FRef := ⟨rVALE_DIE_STATUS n, 1, 1⟩
def VALE_DIE_STATUS_PORT_A_ACTIVE (n : Nat) : FRef := ⟨rVALE_DIE_STATUS n, 2, 1⟩
def VALE_DIE_STATUS_PORT_B_ACTIVE (n : Nat) : FRef := ⟨rVALE_DIE_STATUS n, 3, 1⟩
def VALE_DIE_STATUS_REQ_OUTSTANDING (n : Nat) : FRef := ⟨rVALE_DIE_STATUS n, 16, 11⟩
def VALE_DIE_STATUS_WB_OCCUPIED (n : Nat) : FRef := ⟨rVALE_DIE_STATUS n, 32, 9⟩
/-- VALE_L2_CTL (spec/03_vale_die_cache.md). -/
def rVALE_L2_CTL (n i : Nat) : Nat := 0x1000000 + n * 0x100000 + 0x10000 + i * 0x10
def VALE_L2_CTL_WAY_DISABLE (n i : Nat) : FRef := ⟨rVALE_L2_CTL n i, 0, 16⟩
/-- VALE_L2_STATUS (spec/03_vale_die_cache.md). -/
def rVALE_L2_STATUS (n i : Nat) : Nat := 0x1000000 + n * 0x100000 + 0x10008 + i * 0x10
def VALE_L2_STATUS_STATE (n i : Nat) : FRef := ⟨rVALE_L2_STATUS n i, 0, 2⟩
def VALE_L2_STATUS_WAY_FLUSHING (n i : Nat) : FRef := ⟨rVALE_L2_STATUS n i, 2, 1⟩
def VALE_L2_STATUS_WAYS_DISABLED (n i : Nat) : FRef := ⟨rVALE_L2_STATUS n i, 16, 16⟩
def VALE_L2_STATUS_WAYS_RETIRED (n i : Nat) : FRef := ⟨rVALE_L2_STATUS n i, 32, 16⟩
/-- VALE_VC_CTL (spec/03_vale_die_cache.md). -/
def rVALE_VC_CTL (n i : Nat) : Nat := 0x1000000 + n * 0x100000 + 0x20000 + i * 0x40
def VALE_VC_CTL_WAY_DISABLE (n i : Nat) : FRef := ⟨rVALE_VC_CTL n i, 0, 16⟩
def VALE_VC_CTL_SLICE_DISABLE (n i : Nat) : FRef := ⟨rVALE_VC_CTL n i, 16, 1⟩
/-- VALE_VC_STATUS (spec/03_vale_die_cache.md). -/
def rVALE_VC_STATUS (n i : Nat) : Nat := 0x1000000 + n * 0x100000 + 0x20008 + i * 0x40
def VALE_VC_STATUS_STATE (n i : Nat) : FRef := ⟨rVALE_VC_STATUS n i, 0, 2⟩
def VALE_VC_STATUS_WAY_FLUSHING (n i : Nat) : FRef := ⟨rVALE_VC_STATUS n i, 2, 1⟩
def VALE_VC_STATUS_WAYS_DISABLED (n i : Nat) : FRef := ⟨rVALE_VC_STATUS n i, 16, 16⟩
def VALE_VC_STATUS_WAYS_RETIRED (n i : Nat) : FRef := ⟨rVALE_VC_STATUS n i, 32, 16⟩
/-- VALE_SF_STATUS (spec/03_vale_die_cache.md). -/
def rVALE_SF_STATUS (n i : Nat) : Nat := 0x1000000 + n * 0x100000 + 0x40000 + i * 0x10
def VALE_SF_STATUS_WAYS_RETIRED (n i : Nat) : FRef := ⟨rVALE_SF_STATUS n i, 0, 24⟩
def VALE_SF_STATUS_ENTRIES_VALID (n i : Nat) : FRef := ⟨rVALE_SF_STATUS n i, 32, 21⟩
/-- HOME_DIRCFG (spec/04_osesteth_protocol.md). -/
def rHOME_DIRCFG (n : Nat) : Nat := 0x2000000 + n * 0x10000 + 0x0
def HOME_DIRCFG_E_GRANT (n : Nat) : FRef := ⟨rHOME_DIRCFG n, 0, 1⟩
def HOME_DIRCFG_SPEC_MESA (n : Nat) : FRef := ⟨rHOME_DIRCFG n, 1, 1⟩
/-- HOME_DIR_STATUS (spec/04_osesteth_protocol.md). -/
def rHOME_DIR_STATUS (n : Nat) : Nat := 0x2000000 + n * 0x10000 + 0x8
def HOME_DIR_STATUS_ENTRIES_VALID (n : Nat) : FRef := ⟨rHOME_DIR_STATUS n, 0, 21⟩
def HOME_DIR_STATUS_WAYS_RETIRED (n : Nat) : FRef := ⟨rHOME_DIR_STATUS n, 32, 16⟩
def HOME_DIR_STATUS_WAY_RECALLING (n : Nat) : FRef := ⟨rHOME_DIR_STATUS n, 48, 1⟩
/-- HOME_RPT_STATUS (spec/04_osesteth_protocol.md). -/
def rHOME_RPT_STATUS (n : Nat) : Nat := 0x2000000 + n * 0x10000 + 0x10
def HOME_RPT_STATUS_ENTRIES_VALID (n : Nat) : FRef := ⟨rHOME_RPT_STATUS n, 0, 18⟩
def HOME_RPT_STATUS_WAYS_RETIRED (n : Nat) : FRef := ⟨rHOME_RPT_STATUS n, 32, 16⟩
def HOME_RPT_STATUS_WAY_RECALLING (n : Nat) : FRef := ⟨rHOME_RPT_STATUS n, 48, 1⟩
/-- HOME_RLD_STATUS (spec/04_osesteth_protocol.md). -/
def rHOME_RLD_STATUS (n : Nat) : Nat := 0x2000000 + n * 0x10000 + 0x18
def HOME_RLD_STATUS_ENTRIES_VALID (n : Nat) : FRef := ⟨rHOME_RLD_STATUS n, 0, 19⟩
def HOME_RLD_STATUS_WAYS_RETIRED (n : Nat) : FRef := ⟨rHOME_RLD_STATUS n, 32, 16⟩
def HOME_RLD_STATUS_WAY_RECALLING (n : Nat) : FRef := ⟨rHOME_RLD_STATUS n, 48, 1⟩
/-- HOME_LOCKS (spec/04_osesteth_protocol.md). -/
def rHOME_LOCKS (n : Nat) : Nat := 0x2000000 + n * 0x10000 + 0x20
def HOME_LOCKS_HELD (n : Nat) : FRef := ⟨rHOME_LOCKS n, 0, 10⟩
def HOME_LOCKS_PEAK (n : Nat) : FRef := ⟨rHOME_LOCKS n, 16, 10⟩
def HOME_LOCKS_PEAK_CLEAR (n : Nat) : FRef := ⟨rHOME_LOCKS n, 31, 1⟩
/-- HOME_BCAST (spec/04_osesteth_protocol.md). -/
def rHOME_BCAST (n : Nat) : Nat := 0x2000000 + n * 0x10000 + 0x28
def HOME_BCAST_BROADCAST_SETS (n : Nat) : FRef := ⟨rHOME_BCAST n, 0, 17⟩
/-- HOME_PROTO_ERR (spec/04_osesteth_protocol.md). -/
def rHOME_PROTO_ERR (n : Nat) : Nat := 0x2000000 + n * 0x10000 + 0x30
def HOME_PROTO_ERR_VALID (n : Nat) : FRef := ⟨rHOME_PROTO_ERR n, 0, 1⟩
def HOME_PROTO_ERR_OVERFLOW (n : Nat) : FRef := ⟨rHOME_PROTO_ERR n, 1, 1⟩
def HOME_PROTO_ERR_VC (n : Nat) : FRef := ⟨rHOME_PROTO_ERR n, 2, 3⟩
def HOME_PROTO_ERR_OPC (n : Nat) : FRef := ⟨rHOME_PROTO_ERR n, 5, 5⟩
def HOME_PROTO_ERR_KIND (n : Nat) : FRef := ⟨rHOME_PROTO_ERR n, 10, 3⟩
def HOME_PROTO_ERR_SRC_PKG (n : Nat) : FRef := ⟨rHOME_PROTO_ERR n, 32, 12⟩
def HOME_PROTO_ERR_SRC_AGENT (n : Nat) : FRef := ⟨rHOME_PROTO_ERR n, 44, 8⟩
/-- HOME_PROTO_ADDR (spec/04_osesteth_protocol.md). -/
def rHOME_PROTO_ADDR (n : Nat) : Nat := 0x2000000 + n * 0x10000 + 0x38
def HOME_PROTO_ADDR_LINE (n : Nat) : FRef := ⟨rHOME_PROTO_ADDR n, 0, 50⟩
/-- HOME_ARB (spec/05_osesteth_races.md). -/
def rHOME_ARB (n : Nat) : Nat := 0x2000000 + n * 0x10000 + 0x100
def HOME_ARB_POINTER (n : Nat) : FRef := ⟨rHOME_ARB n, 0, 6⟩
/-- HOME_RETRY_CTL (spec/05_osesteth_races.md). -/
def rHOME_RETRY_CTL (n : Nat) : Nat := 0x2000000 + n * 0x10000 + 0x108
def HOME_RETRY_CTL_WATCHDOG (n : Nat) : FRef := ⟨rHOME_RETRY_CTL n, 0, 2⟩
/-- HOME_TOKEN_FREE (spec/05_osesteth_races.md). -/
def rHOME_TOKEN_FREE (n i : Nat) : Nat := 0x2000000 + n * 0x10000 + 0x110 + i * 0x8
def HOME_TOKEN_FREE_FREE (n i : Nat) : FRef := ⟨rHOME_TOKEN_FREE n i, 0, 64⟩
/-- HOME_TOKEN_COUNTS (spec/05_osesteth_races.md). -/
def rHOME_TOKEN_COUNTS (n : Nat) : Nat := 0x2000000 + n * 0x10000 + 0x130
def HOME_TOKEN_COUNTS_WAITING_LINE (n : Nat) : FRef := ⟨rHOME_TOKEN_COUNTS n, 0, 9⟩
def HOME_TOKEN_COUNTS_WAITING_POOL (n : Nat) : FRef := ⟨rHOME_TOKEN_COUNTS n, 16, 9⟩
def HOME_TOKEN_COUNTS_GRANTED (n : Nat) : FRef := ⟨rHOME_TOKEN_COUNTS n, 32, 9⟩
def HOME_TOKEN_COUNTS_MAX_LINE_WAITERS (n : Nat) : FRef := ⟨rHOME_TOKEN_COUNTS n, 48, 8⟩
/-- HOME_OWED (spec/05_osesteth_races.md). -/
def rHOME_OWED (n : Nat) : Nat := 0x2000000 + n * 0x10000 + 0x138
def HOME_OWED_OWED_TOTAL (n : Nat) : FRef := ⟨rHOME_OWED n, 0, 20⟩
/-- HOME_RETRY_STATS (spec/05_osesteth_races.md). -/
def rHOME_RETRY_STATS (n : Nat) : Nat := 0x2000000 + n * 0x10000 + 0x140
def HOME_RETRY_STATS_RETRY_TOKEN (n : Nat) : FRef := ⟨rHOME_RETRY_STATS n, 0, 32⟩
def HOME_RETRY_STATS_RETRY_NOTOKEN (n : Nat) : FRef := ⟨rHOME_RETRY_STATS n, 32, 32⟩
/-- HOME_GRANT_STATS (spec/05_osesteth_races.md). -/
def rHOME_GRANT_STATS (n : Nat) : Nat := 0x2000000 + n * 0x10000 + 0x148
def HOME_GRANT_STATS_GRANTS (n : Nat) : FRef := ⟨rHOME_GRANT_STATS n, 0, 32⟩
/-- HOME_WB_HELD (spec/05_osesteth_races.md). -/
def rHOME_WB_HELD (n : Nat) : Nat := 0x2000000 + n * 0x10000 + 0x150
def HOME_WB_HELD_HELD (n : Nat) : FRef := ⟨rHOME_WB_HELD n, 0, 9⟩
/-- HOME_TOKEN_ERR (spec/05_osesteth_races.md). -/
def rHOME_TOKEN_ERR (n : Nat) : Nat := 0x2000000 + n * 0x10000 + 0x158
def HOME_TOKEN_ERR_VALID (n : Nat) : FRef := ⟨rHOME_TOKEN_ERR n, 0, 1⟩
def HOME_TOKEN_ERR_OVERFLOW (n : Nat) : FRef := ⟨rHOME_TOKEN_ERR n, 1, 1⟩
def HOME_TOKEN_ERR_TOKEN (n : Nat) : FRef := ⟨rHOME_TOKEN_ERR n, 8, 8⟩
def HOME_TOKEN_ERR_KIND (n : Nat) : FRef := ⟨rHOME_TOKEN_ERR n, 16, 3⟩
def HOME_TOKEN_ERR_SRC_PKG (n : Nat) : FRef := ⟨rHOME_TOKEN_ERR n, 32, 12⟩
def HOME_TOKEN_ERR_SRC_AGENT (n : Nat) : FRef := ⟨rHOME_TOKEN_ERR n, 44, 8⟩
/-- PASS_STATUS (spec/06_pass_links.md). -/
def rPASS_STATUS (e p : Nat) : Nat := passBase e p + 0x0
def PASS_STATUS_STATE (e p : Nat) : FRef := ⟨rPASS_STATUS e p, 0, 4⟩
def PASS_STATUS_WIDTH (e p : Nat) : FRef := ⟨rPASS_STATUS e p, 4, 2⟩
def PASS_STATUS_FALLBACK_MAP (e p : Nat) : FRef := ⟨rPASS_STATUS e p, 6, 1⟩
def PASS_STATUS_SWAP_ACTIVE (e p : Nat) : FRef := ⟨rPASS_STATUS e p, 7, 1⟩
def PASS_STATUS_RX_SPARES (e p : Nat) : FRef := ⟨rPASS_STATUS e p, 8, 7⟩
def PASS_STATUS_TX_SPARES (e p : Nat) : FRef := ⟨rPASS_STATUS e p, 16, 7⟩
def PASS_STATUS_REVISION (e p : Nat) : FRef := ⟨rPASS_STATUS e p, 24, 8⟩
/-- PASS_EVENT (spec/06_pass_links.md). -/
def rPASS_EVENT (e p : Nat) : Nat := passBase e p + 0x10
def PASS_EVENT_SPARED (e p : Nat) : FRef := ⟨rPASS_EVENT e p, 0, 1⟩
def PASS_EVENT_HALVED (e p : Nat) : FRef := ⟨rPASS_EVENT e p, 1, 1⟩
def PASS_EVENT_RETIRED (e p : Nat) : FRef := ⟨rPASS_EVENT e p, 2, 1⟩
def PASS_EVENT_MAP_RESTART (e p : Nat) : FRef := ⟨rPASS_EVENT e p, 3, 1⟩
def PASS_EVENT_FALLBACK (e p : Nat) : FRef := ⟨rPASS_EVENT e p, 4, 1⟩
def PASS_EVENT_VERSION_FAIL (e p : Nat) : FRef := ⟨rPASS_EVENT e p, 5, 1⟩
def PASS_EVENT_FORMAT_ERR (e p : Nat) : FRef := ⟨rPASS_EVENT e p, 6, 1⟩
def PASS_EVENT_ESCALATED (e p : Nat) : FRef := ⟨rPASS_EVENT e p, 7, 1⟩
/-- PASS_LANE_SEL (spec/06_pass_links.md). -/
def rPASS_LANE_SEL (e p : Nat) : Nat := passBase e p + 0x38
def PASS_LANE_SEL_LANE (e p : Nat) : FRef := ⟨rPASS_LANE_SEL e p, 0, 7⟩
def PASS_LANE_SEL_DIR (e p : Nat) : FRef := ⟨rPASS_LANE_SEL e p, 7, 1⟩
/-- PASS_LANE_INFO (spec/06_pass_links.md). -/
def rPASS_LANE_INFO (e p : Nat) : Nat := passBase e p + 0x40
def PASS_LANE_INFO_STATE (e p : Nat) : FRef := ⟨rPASS_LANE_INFO e p, 0, 2⟩
def PASS_LANE_INFO_LOGICAL (e p : Nat) : FRef := ⟨rPASS_LANE_INFO e p, 2, 7⟩
def PASS_LANE_INFO_BUCKET (e p : Nat) : FRef := ⟨rPASS_LANE_INFO e p, 16, 8⟩
def PASS_LANE_INFO_CHECK_MISMATCH (e p : Nat) : FRef := ⟨rPASS_LANE_INFO e p, 24, 16⟩
def PASS_LANE_INFO_LOSS_OF_LOCK (e p : Nat) : FRef := ⟨rPASS_LANE_INFO e p, 40, 1⟩
/-- PASS_LINK_STATS (spec/06_pass_links.md). -/
def rPASS_LINK_STATS (e p : Nat) : Nat := passBase e p + 0x48
def PASS_LINK_STATS_CRC_ERRORS (e p : Nat) : FRef := ⟨rPASS_LINK_STATS e p, 0, 32⟩
def PASS_LINK_STATS_REPLAYED (e p : Nat) : FRef := ⟨rPASS_LINK_STATS e p, 32, 32⟩
/-- PASS_TRAIN_INFO (spec/06_pass_links.md). -/
def rPASS_TRAIN_INFO (e p : Nat) : Nat := passBase e p + 0x50
def PASS_TRAIN_INFO_FULL_TRAINS (e p : Nat) : FRef := ⟨rPASS_TRAIN_INFO e p, 0, 16⟩
def PASS_TRAIN_INFO_RETRAINS (e p : Nat) : FRef := ⟨rPASS_TRAIN_INFO e p, 16, 16⟩
def PASS_TRAIN_INFO_LAST_FAIL (e p : Nat) : FRef := ⟨rPASS_TRAIN_INFO e p, 32, 4⟩
def PASS_TRAIN_INFO_MAP_ATTEMPTS (e p : Nat) : FRef := ⟨rPASS_TRAIN_INFO e p, 36, 4⟩
def PASS_TRAIN_INFO_REV_MIN (e p : Nat) : FRef := ⟨rPASS_TRAIN_INFO e p, 40, 8⟩
def PASS_TRAIN_INFO_REV_MAX (e p : Nat) : FRef := ⟨rPASS_TRAIN_INFO e p, 48, 8⟩
/-- PASS_SEQ_INFO (spec/06_pass_links.md). -/
def rPASS_SEQ_INFO (e p : Nat) : Nat := passBase e p + 0x58
def PASS_SEQ_INFO_RX_NEXT_SEQ (e p : Nat) : FRef := ⟨rPASS_SEQ_INFO e p, 0, 10⟩
def PASS_SEQ_INFO_REPLAY_USED (e p : Nat) : FRef := ⟨rPASS_SEQ_INFO e p, 16, 10⟩
def PASS_SEQ_INFO_TX_DSEQ (e p : Nat) : FRef := ⟨rPASS_SEQ_INFO e p, 32, 12⟩
def PASS_SEQ_INFO_RX_DSEQ (e p : Nat) : FRef := ⟨rPASS_SEQ_INFO e p, 48, 12⟩
/-- PASS_CTL (spec/06_pass_links.md). -/
def rPASS_CTL (p : Nat) : Nat := 0x2300000 + p * 0x10000 + 0x8
def PASS_CTL_RETRAIN (p : Nat) : FRef := ⟨rPASS_CTL p, 0, 1⟩
def PASS_CTL_FULL_TRAIN (p : Nat) : FRef := ⟨rPASS_CTL p, 1, 1⟩
def PASS_CTL_MAX_WIDTH (p : Nat) : FRef := ⟨rPASS_CTL p, 2, 2⟩
def PASS_CTL_FAIL_LANE (p : Nat) : FRef := ⟨rPASS_CTL p, 8, 7⟩
def PASS_CTL_FAIL_DIR (p : Nat) : FRef := ⟨rPASS_CTL p, 15, 1⟩
def PASS_CTL_FAIL_GO (p : Nat) : FRef := ⟨rPASS_CTL p, 16, 1⟩
/-- PASS_RX_GOOD_LO (spec/06_pass_links.md). -/
def rPASS_RX_GOOD_LO (e p : Nat) : Nat := passBase e p + 0x18
def PASS_RX_GOOD_LO_GOOD (e p : Nat) : FRef := ⟨rPASS_RX_GOOD_LO e p, 0, 64⟩
/-- PASS_RX_GOOD_HI (spec/06_pass_links.md). -/
def rPASS_RX_GOOD_HI (e p : Nat) : Nat := passBase e p + 0x20
def PASS_RX_GOOD_HI_GOOD (e p : Nat) : FRef := ⟨rPASS_RX_GOOD_HI e p, 0, 64⟩
/-- PASS_TX_GOOD_LO (spec/06_pass_links.md). -/
def rPASS_TX_GOOD_LO (e p : Nat) : Nat := passBase e p + 0x28
def PASS_TX_GOOD_LO_GOOD (e p : Nat) : FRef := ⟨rPASS_TX_GOOD_LO e p, 0, 64⟩
/-- PASS_TX_GOOD_HI (spec/06_pass_links.md). -/
def rPASS_TX_GOOD_HI (e p : Nat) : Nat := passBase e p + 0x30
def PASS_TX_GOOD_HI_GOOD (e p : Nat) : FRef := ⟨rPASS_TX_GOOD_HI e p, 0, 64⟩
/-- PASS_CREDIT (spec/06_pass_links.md). -/
def rPASS_CREDIT (e p i : Nat) : Nat := passBase e p + 0x60 + i * 0x8
def PASS_CREDIT_TX_CREDITS (e p i : Nat) : FRef := ⟨rPASS_CREDIT e p i, 0, 12⟩
def PASS_CREDIT_RX_FREE (e p i : Nat) : FRef := ⟨rPASS_CREDIT e p i, 16, 12⟩
def PASS_CREDIT_RX_CAPACITY (e p i : Nat) : FRef := ⟨rPASS_CREDIT e p i, 32, 12⟩
/-- PASS_RX_MAP (spec/06_pass_links.md). -/
def rPASS_RX_MAP (e p i : Nat) : Nat := passBase e p + 0x100 + i * 0x8
def PASS_RX_MAP_PHYS_0 (e p i : Nat) : FRef := ⟨rPASS_RX_MAP e p i, 0, 7⟩
def PASS_RX_MAP_PHYS_1 (e p i : Nat) : FRef := ⟨rPASS_RX_MAP e p i, 8, 7⟩
def PASS_RX_MAP_PHYS_2 (e p i : Nat) : FRef := ⟨rPASS_RX_MAP e p i, 16, 7⟩
def PASS_RX_MAP_PHYS_3 (e p i : Nat) : FRef := ⟨rPASS_RX_MAP e p i, 24, 7⟩
def PASS_RX_MAP_PHYS_4 (e p i : Nat) : FRef := ⟨rPASS_RX_MAP e p i, 32, 7⟩
def PASS_RX_MAP_PHYS_5 (e p i : Nat) : FRef := ⟨rPASS_RX_MAP e p i, 40, 7⟩
def PASS_RX_MAP_PHYS_6 (e p i : Nat) : FRef := ⟨rPASS_RX_MAP e p i, 48, 7⟩
def PASS_RX_MAP_PHYS_7 (e p i : Nat) : FRef := ⟨rPASS_RX_MAP e p i, 56, 7⟩
/-- PASS_TX_MAP (spec/06_pass_links.md). -/
def rPASS_TX_MAP (e p i : Nat) : Nat := passBase e p + 0x140 + i * 0x8
def PASS_TX_MAP_PHYS_0 (e p i : Nat) : FRef := ⟨rPASS_TX_MAP e p i, 0, 7⟩
def PASS_TX_MAP_PHYS_1 (e p i : Nat) : FRef := ⟨rPASS_TX_MAP e p i, 8, 7⟩
def PASS_TX_MAP_PHYS_2 (e p i : Nat) : FRef := ⟨rPASS_TX_MAP e p i, 16, 7⟩
def PASS_TX_MAP_PHYS_3 (e p i : Nat) : FRef := ⟨rPASS_TX_MAP e p i, 24, 7⟩
def PASS_TX_MAP_PHYS_4 (e p i : Nat) : FRef := ⟨rPASS_TX_MAP e p i, 32, 7⟩
def PASS_TX_MAP_PHYS_5 (e p i : Nat) : FRef := ⟨rPASS_TX_MAP e p i, 40, 7⟩
def PASS_TX_MAP_PHYS_6 (e p i : Nat) : FRef := ⟨rPASS_TX_MAP e p i, 48, 7⟩
def PASS_TX_MAP_PHYS_7 (e p i : Nat) : FRef := ⟨rPASS_TX_MAP e p i, 56, 7⟩
/-- MC_CH_STATUS (spec/07_memory_channels.md). -/
def rMC_CH_STATUS (n : Nat) : Nat := 0x2100000 + n * 0x10000 + 0x0
def MC_CH_STATUS_STATE (n : Nat) : FRef := ⟨rMC_CH_STATUS n, 0, 4⟩
def MC_CH_STATUS_ORDINAL (n : Nat) : FRef := ⟨rMC_CH_STATUS n, 4, 5⟩
def MC_CH_STATUS_RETRAINS (n : Nat) : FRef := ⟨rMC_CH_STATUS n, 16, 8⟩
/-- MC_CH_CONFIG (spec/07_memory_channels.md). -/
def rMC_CH_CONFIG (n : Nat) : Nat := 0x2100000 + n * 0x10000 + 0x8
def MC_CH_CONFIG_RATE (n : Nat) : FRef := ⟨rMC_CH_CONFIG n, 0, 8⟩
def MC_CH_CONFIG_DPC (n : Nat) : FRef := ⟨rMC_CH_CONFIG n, 8, 2⟩
def MC_CH_CONFIG_MRDIMM (n : Nat) : FRef := ⟨rMC_CH_CONFIG n, 10, 1⟩
def MC_CH_CONFIG_X8 (n : Nat) : FRef := ⟨rMC_CH_CONFIG n, 11, 1⟩
def MC_CH_CONFIG_RANKS (n : Nat) : FRef := ⟨rMC_CH_CONFIG n, 12, 4⟩
def MC_CH_CONFIG_CAP_GIB (n : Nat) : FRef := ⟨rMC_CH_CONFIG n, 16, 10⟩
/-- MC_MARK (spec/07_memory_channels.md). -/
def rMC_MARK (n i : Nat) : Nat := 0x2100000 + n * 0x10000 + 0x10 + i * 0x8
def MC_MARK_FIRST_0 (n i : Nat) : FRef := ⟨rMC_MARK n i, 0, 4⟩
def MC_MARK_FIRST_1 (n i : Nat) : FRef := ⟨rMC_MARK n i, 8, 4⟩
def MC_MARK_FIRST_2 (n i : Nat) : FRef := ⟨rMC_MARK n i, 16, 4⟩
def MC_MARK_FIRST_3 (n i : Nat) : FRef := ⟨rMC_MARK n i, 24, 4⟩
def MC_MARK_FIRST_4 (n i : Nat) : FRef := ⟨rMC_MARK n i, 32, 4⟩
def MC_MARK_FIRST_5 (n i : Nat) : FRef := ⟨rMC_MARK n i, 40, 4⟩
def MC_MARK_FIRST_6 (n i : Nat) : FRef := ⟨rMC_MARK n i, 48, 4⟩
def MC_MARK_FIRST_7 (n i : Nat) : FRef := ⟨rMC_MARK n i, 56, 4⟩
def MC_MARK_SECOND_0 (n i : Nat) : FRef := ⟨rMC_MARK n i, 4, 4⟩
def MC_MARK_SECOND_1 (n i : Nat) : FRef := ⟨rMC_MARK n i, 12, 4⟩
def MC_MARK_SECOND_2 (n i : Nat) : FRef := ⟨rMC_MARK n i, 20, 4⟩
def MC_MARK_SECOND_3 (n i : Nat) : FRef := ⟨rMC_MARK n i, 28, 4⟩
def MC_MARK_SECOND_4 (n i : Nat) : FRef := ⟨rMC_MARK n i, 36, 4⟩
def MC_MARK_SECOND_5 (n i : Nat) : FRef := ⟨rMC_MARK n i, 44, 4⟩
def MC_MARK_SECOND_6 (n i : Nat) : FRef := ⟨rMC_MARK n i, 52, 4⟩
def MC_MARK_SECOND_7 (n i : Nat) : FRef := ⟨rMC_MARK n i, 60, 4⟩
/-- MC_ERR_STATS (spec/07_memory_channels.md). -/
def rMC_ERR_STATS (n : Nat) : Nat := 0x2100000 + n * 0x10000 + 0x20
def MC_ERR_STATS_CORRECTED (n : Nat) : FRef := ⟨rMC_ERR_STATS n, 0, 32⟩
def MC_ERR_STATS_UNCORRECTABLE (n : Nat) : FRef := ⟨rMC_ERR_STATS n, 32, 16⟩
def MC_ERR_STATS_MARKER_READS (n : Nat) : FRef := ⟨rMC_ERR_STATS n, 48, 16⟩
/-- MC_EVENT (spec/07_memory_channels.md). -/
def rMC_EVENT (n : Nat) : Nat := 0x2100000 + n * 0x10000 + 0x28
def MC_EVENT_MARKED (n : Nat) : FRef := ⟨rMC_EVENT n, 0, 1⟩
def MC_EVENT_AT_RISK (n : Nat) : FRef := ⟨rMC_EVENT n, 1, 1⟩
def MC_EVENT_RETRAINED (n : Nat) : FRef := ⟨rMC_EVENT n, 2, 1⟩
def MC_EVENT_FAILED (n : Nat) : FRef := ⟨rMC_EVENT n, 3, 1⟩
def MC_EVENT_COPY_DONE (n : Nat) : FRef := ⟨rMC_EVENT n, 4, 1⟩
def MC_EVENT_COPY_ABORTED (n : Nat) : FRef := ⟨rMC_EVENT n, 5, 1⟩
/-- MC_COPY_CTL (spec/07_memory_channels.md). -/
def rMC_COPY_CTL (n : Nat) : Nat := 0x2100000 + n * 0x10000 + 0x40
def MC_COPY_CTL_START (n : Nat) : FRef := ⟨rMC_COPY_CTL n, 0, 1⟩
def MC_COPY_CTL_AUTO (n : Nat) : FRef := ⟨rMC_COPY_CTL n, 1, 1⟩
def MC_COPY_CTL_RATE (n : Nat) : FRef := ⟨rMC_COPY_CTL n, 4, 4⟩
/-- MC_COPY_STATUS (spec/07_memory_channels.md). -/
def rMC_COPY_STATUS (n : Nat) : Nat := 0x2100000 + n * 0x10000 + 0x48
def MC_COPY_STATUS_POINTER (n : Nat) : FRef := ⟨rMC_COPY_STATUS n, 0, 40⟩
def MC_COPY_STATUS_RUNNING (n : Nat) : FRef := ⟨rMC_COPY_STATUS n, 40, 1⟩
def MC_COPY_STATUS_REJECTED (n : Nat) : FRef := ⟨rMC_COPY_STATUS n, 41, 1⟩
def MC_COPY_STATUS_REJECT_CAUSE (n : Nat) : FRef := ⟨rMC_COPY_STATUS n, 42, 3⟩
def MC_COPY_STATUS_PARTNER (n : Nat) : FRef := ⟨rMC_COPY_STATUS n, 48, 4⟩
/-- MC_FILL_STATUS (spec/07_memory_channels.md). -/
def rMC_FILL_STATUS (n : Nat) : Nat := 0x2100000 + n * 0x10000 + 0x50
def MC_FILL_STATUS_STATE (n : Nat) : FRef := ⟨rMC_FILL_STATUS n, 0, 2⟩
def MC_FILL_STATUS_FILLED_GIB (n : Nat) : FRef := ⟨rMC_FILL_STATUS n, 16, 10⟩
/-- MC_SAN_STATUS (spec/07_memory_channels.md). -/
def rMC_SAN_STATUS (n : Nat) : Nat := 0x2100000 + n * 0x10000 + 0x80
def MC_SAN_STATUS_OP (n : Nat) : FRef := ⟨rMC_SAN_STATUS n, 0, 2⟩
def MC_SAN_STATUS_PHASE (n : Nat) : FRef := ⟨rMC_SAN_STATUS n, 2, 2⟩
def MC_SAN_STATUS_FENCE (n : Nat) : FRef := ⟨rMC_SAN_STATUS n, 4, 1⟩
def MC_SAN_STATUS_JOURNAL_SEQ (n : Nat) : FRef := ⟨rMC_SAN_STATUS n, 32, 32⟩
/-- MC_SAN_BASE (spec/07_memory_channels.md). -/
def rMC_SAN_BASE (n : Nat) : Nat := 0x2100000 + n * 0x10000 + 0x88
def MC_SAN_BASE_VALUE (n : Nat) : FRef := ⟨rMC_SAN_BASE n, 12, 32⟩
/-- MC_SAN_LENGTH (spec/07_memory_channels.md). -/
def rMC_SAN_LENGTH (n : Nat) : Nat := 0x2100000 + n * 0x10000 + 0x90
def MC_SAN_LENGTH_VALUE (n : Nat) : FRef := ⟨rMC_SAN_LENGTH n, 12, 32⟩
/-- MC_SAN_PROGRESS (spec/07_memory_channels.md). -/
def rMC_SAN_PROGRESS (n : Nat) : Nat := 0x2100000 + n * 0x10000 + 0x98
def MC_SAN_PROGRESS_LINES_DONE (n : Nat) : FRef := ⟨rMC_SAN_PROGRESS n, 0, 36⟩
def MC_SAN_PROGRESS_VERIFY_FAILS (n : Nat) : FRef := ⟨rMC_SAN_PROGRESS n, 48, 16⟩
/-- MESA_STATUS (spec/08_mesa_cache.md). -/
def rMESA_STATUS (n : Nat) : Nat := 0x2200000 + n * 0x10000 + 0x0
def MESA_STATUS_STATE (n : Nat) : FRef := ⟨rMESA_STATUS n, 0, 2⟩
def MESA_STATUS_THROTTLE (n : Nat) : FRef := ⟨rMESA_STATUS n, 2, 2⟩
def MESA_STATUS_VC_ENABLED (n : Nat) : FRef := ⟨rMESA_STATUS n, 4, 1⟩
def MESA_STATUS_WAYS_ENABLED (n : Nat) : FRef := ⟨rMESA_STATUS n, 16, 5⟩
def MESA_STATUS_INV_COUNT (n : Nat) : FRef := ⟨rMESA_STATUS n, 32, 32⟩
/-- MESA_CTL (spec/08_mesa_cache.md). -/
def rMESA_CTL (n : Nat) : Nat := 0x2200000 + n * 0x10000 + 0x8
def MESA_CTL_FILL_MODE (n : Nat) : FRef := ⟨rMESA_CTL n, 0, 2⟩
def MESA_CTL_VC_DISABLE (n : Nat) : FRef := ⟨rMESA_CTL n, 2, 1⟩
/-- MESA_INV (spec/08_mesa_cache.md). -/
def rMESA_INV (n : Nat) : Nat := 0x2200000 + n * 0x10000 + 0x10
def MESA_INV_GO (n : Nat) : FRef := ⟨rMESA_INV n, 0, 1⟩
/-- MESA_WAY_CTL (spec/08_mesa_cache.md). -/
def rMESA_WAY_CTL (n : Nat) : Nat := 0x2200000 + n * 0x10000 + 0x18
def MESA_WAY_CTL_WAY_DISABLE (n : Nat) : FRef := ⟨rMESA_WAY_CTL n, 0, 16⟩
/-- MESA_WAY_STATUS (spec/08_mesa_cache.md). -/
def rMESA_WAY_STATUS (n : Nat) : Nat := 0x2200000 + n * 0x10000 + 0x20
def MESA_WAY_STATUS_WAYS_DISABLED (n : Nat) : FRef := ⟨rMESA_WAY_STATUS n, 0, 16⟩
def MESA_WAY_STATUS_WAYS_RETIRED (n : Nat) : FRef := ⟨rMESA_WAY_STATUS n, 16, 16⟩
def MESA_WAY_STATUS_VC_RETIRED (n : Nat) : FRef := ⟨rMESA_WAY_STATUS n, 32, 1⟩
/-- MESA_OCCUPANCY (spec/08_mesa_cache.md). -/
def rMESA_OCCUPANCY (n : Nat) : Nat := 0x2200000 + n * 0x10000 + 0x28
def MESA_OCCUPANCY_SECTORS_VALID (n : Nat) : FRef := ⟨rMESA_OCCUPANCY n, 0, 17⟩
def MESA_OCCUPANCY_VC_VALID (n : Nat) : FRef := ⟨rMESA_OCCUPANCY n, 32, 9⟩
/-- MESA_ERR_STATS (spec/08_mesa_cache.md). -/
def rMESA_ERR_STATS (n : Nat) : Nat := 0x2200000 + n * 0x10000 + 0x30
def MESA_ERR_STATS_CORRECTED (n : Nat) : FRef := ⟨rMESA_ERR_STATS n, 0, 32⟩
def MESA_ERR_STATS_REFETCHED (n : Nat) : FRef := ⟨rMESA_ERR_STATS n, 32, 16⟩
def MESA_ERR_STATS_TAG_DROPS (n : Nat) : FRef := ⟨rMESA_ERR_STATS n, 48, 16⟩
/-- MESA_EVENT (spec/08_mesa_cache.md). -/
def rMESA_EVENT (n : Nat) : Nat := 0x2200000 + n * 0x10000 + 0x38
def MESA_EVENT_WAY_DISABLED (n : Nat) : FRef := ⟨rMESA_EVENT n, 0, 1⟩
def MESA_EVENT_INV_DONE (n : Nat) : FRef := ⟨rMESA_EVENT n, 1, 1⟩
def MESA_EVENT_VC_RETIRED (n : Nat) : FRef := ⟨rMESA_EVENT n, 2, 1⟩
def MESA_EVENT_THROTTLED (n : Nat) : FRef := ⟨rMESA_EVENT n, 3, 1⟩
def MESA_EVENT_TAG_DROP (n : Nat) : FRef := ⟨rMESA_EVENT n, 4, 1⟩
/-- MESA_FILL_STATS (spec/08_mesa_cache.md). -/
def rMESA_FILL_STATS (n : Nat) : Nat := 0x2200000 + n * 0x10000 + 0x40
def MESA_FILL_STATS_EXTRA_SKIPPED (n : Nat) : FRef := ⟨rMESA_FILL_STATS n, 0, 32⟩
def MESA_FILL_STATS_EXTRA_CANCELLED (n : Nat) : FRef := ⟨rMESA_FILL_STATS n, 32, 32⟩
/-- QOS_CAPS (spec/09_partitions_metering.md). -/
def rQOS_CAPS : Nat := 0x0700000 + 0x0
def QOS_CAPS_RCIDS : FRef := ⟨rQOS_CAPS, 0, 11⟩
def QOS_CAPS_MCIDS : FRef := ⟨rQOS_CAPS, 16, 11⟩
def QOS_CAPS_FUNCTIONS : FRef := ⟨rQOS_CAPS, 32, 12⟩
/-- QOS_IOMMU_ID (spec/09_partitions_metering.md). -/
def rQOS_IOMMU_ID : Nat := 0x0700000 + 0x8
def QOS_IOMMU_ID_RCID : FRef := ⟨rQOS_IOMMU_ID, 0, 10⟩
def QOS_IOMMU_ID_MCID : FRef := ⟨rQOS_IOMMU_ID, 16, 10⟩
/-- QOS_RPRT_ID (spec/09_partitions_metering.md). -/
def rQOS_RPRT_ID (i : Nat) : Nat := 0x0700000 + 0x100 + i * 0x8
def QOS_RPRT_ID_RCID (i : Nat) : FRef := ⟨rQOS_RPRT_ID i, 0, 10⟩
def QOS_RPRT_ID_MCID (i : Nat) : FRef := ⟨rQOS_RPRT_ID i, 16, 10⟩
/-- QOS_FN_ID (spec/09_partitions_metering.md). -/
def rQOS_FN_ID (i : Nat) : Nat := 0x0700000 + 0x10000 + i * 0x8
def QOS_FN_ID_RCID (i : Nat) : FRef := ⟨rQOS_FN_ID i, 0, 10⟩
def QOS_FN_ID_MCID (i : Nat) : FRef := ⟨rQOS_FN_ID i, 16, 10⟩
/-- METER_CTL (spec/09_partitions_metering.md). -/
def rMETER_CTL : Nat := 0x0500000 + 0x0
def METER_CTL_RING_ENABLE : FRef := ⟨rMETER_CTL, 0, 1⟩
def METER_CTL_MSI_ENABLE : FRef := ⟨rMETER_CTL, 1, 1⟩
/-- METER_STATUS (spec/09_partitions_metering.md). -/
def rMETER_STATUS : Nat := 0x0500000 + 0x8
def METER_STATUS_SET_WAITING : FRef := ⟨rMETER_STATUS, 0, 1⟩
def METER_STATUS_KEY_ACTIVE : FRef := ⟨rMETER_STATUS, 1, 1⟩
def METER_STATUS_ACTIVE_SLOT : FRef := ⟨rMETER_STATUS, 2, 2⟩
def METER_STATUS_SEALED_WAITING : FRef := ⟨rMETER_STATUS, 4, 1⟩
def METER_STATUS_RING_FAULT : FRef := ⟨rMETER_STATUS, 5, 1⟩
def METER_STATUS_WAITING_SPAN : FRef := ⟨rMETER_STATUS, 16, 16⟩
def METER_STATUS_SETS_DELIVERED : FRef := ⟨rMETER_STATUS, 32, 32⟩
/-- METER_RING_BASE (spec/09_partitions_metering.md). -/
def rMETER_RING_BASE : Nat := 0x0500000 + 0x10
def METER_RING_BASE_BASE : FRef := ⟨rMETER_RING_BASE, 12, 44⟩
/-- METER_RING_SIZE (spec/09_partitions_metering.md). -/
def rMETER_RING_SIZE : Nat := 0x0500000 + 0x18
def METER_RING_SIZE_LOG2_ENTRIES : FRef := ⟨rMETER_RING_SIZE, 0, 5⟩
/-- METER_RING_PROD (spec/09_partitions_metering.md). -/
def rMETER_RING_PROD : Nat := 0x0500000 + 0x20
def METER_RING_PROD_PROD : FRef := ⟨rMETER_RING_PROD, 0, 32⟩
/-- METER_RING_CONS (spec/09_partitions_metering.md). -/
def rMETER_RING_CONS : Nat := 0x0500000 + 0x28
def METER_RING_CONS_CONS : FRef := ⟨rMETER_RING_CONS, 0, 32⟩
/-- METER_MSI_ADDR (spec/09_partitions_metering.md). -/
def rMETER_MSI_ADDR : Nat := 0x0500000 + 0x30
def METER_MSI_ADDR_ADDR : FRef := ⟨rMETER_MSI_ADDR, 2, 54⟩
/-- METER_MSI_DATA (spec/09_partitions_metering.md). -/
def rMETER_MSI_DATA : Nat := 0x0500000 + 0x38
def METER_MSI_DATA_DATA : FRef := ⟨rMETER_MSI_DATA, 0, 32⟩
/-- METER_LAST (spec/09_partitions_metering.md). -/
def rMETER_LAST : Nat := 0x0500000 + 0x40
def METER_LAST_MINUTE_START : FRef := ⟨rMETER_LAST, 0, 64⟩
/-- HZN_STATUS (spec/10_horizon_fabric.md). -/
def rHZN_STATUS (h : Nat) : Nat := 0x2500000 + h * 0x10000 + 0x0
def HZN_STATUS_STATE (h : Nat) : FRef := ⟨rHZN_STATUS h, 0, 4⟩
def HZN_STATUS_WIDTH (h : Nat) : FRef := ⟨rHZN_STATUS h, 4, 2⟩
def HZN_STATUS_MASTER (h : Nat) : FRef := ⟨rHZN_STATUS h, 6, 1⟩
def HZN_STATUS_BUNDLE_PORTS (h : Nat) : FRef := ⟨rHZN_STATUS h, 8, 8⟩
def HZN_STATUS_REVISION (h : Nat) : FRef := ⟨rHZN_STATUS h, 16, 8⟩
/-- HZN_CTL (spec/10_horizon_fabric.md). -/
def rHZN_CTL (h : Nat) : Nat := 0x2500000 + h * 0x10000 + 0x8
def HZN_CTL_ENABLE (h : Nat) : FRef := ⟨rHZN_CTL h, 0, 1⟩
def HZN_CTL_RETRAIN (h : Nat) : FRef := ⟨rHZN_CTL h, 1, 1⟩
def HZN_CTL_FULL_TRAIN (h : Nat) : FRef := ⟨rHZN_CTL h, 2, 1⟩
def HZN_CTL_CLEAR_MARKS (h : Nat) : FRef := ⟨rHZN_CTL h, 3, 1⟩
def HZN_CTL_MAX_WIDTH (h : Nat) : FRef := ⟨rHZN_CTL h, 4, 2⟩
def HZN_CTL_DATELINE (h : Nat) : FRef := ⟨rHZN_CTL h, 6, 1⟩
def HZN_CTL_TIME_ROLE (h : Nat) : FRef := ⟨rHZN_CTL h, 7, 2⟩
/-- HZN_EVENT (spec/10_horizon_fabric.md). -/
def rHZN_EVENT (h : Nat) : Nat := 0x2500000 + h * 0x10000 + 0x10
def HZN_EVENT_HALVED (h : Nat) : FRef := ⟨rHZN_EVENT h, 0, 1⟩
def HZN_EVENT_DOWN (h : Nat) : FRef := ⟨rHZN_EVENT h, 1, 1⟩
def HZN_EVENT_HANDOVER (h : Nat) : FRef := ⟨rHZN_EVENT h, 2, 1⟩
def HZN_EVENT_VERSION_FAIL (h : Nat) : FRef := ⟨rHZN_EVENT h, 3, 1⟩
def HZN_EVENT_FORMAT_ERR (h : Nat) : FRef := ⟨rHZN_EVENT h, 4, 1⟩
def HZN_EVENT_FRAMES_LOST (h : Nat) : FRef := ⟨rHZN_EVENT h, 5, 1⟩
def HZN_EVENT_PARTNER_CHANGED (h : Nat) : FRef := ⟨rHZN_EVENT h, 6, 1⟩
def HZN_EVENT_DUP_ID (h : Nat) : FRef := ⟨rHZN_EVENT h, 7, 1⟩
def HZN_EVENT_LANE_FAILED (h : Nat) : FRef := ⟨rHZN_EVENT h, 8, 1⟩
/-- HZN_PARTNER (spec/10_horizon_fabric.md). -/
def rHZN_PARTNER (h : Nat) : Nat := 0x2500000 + h * 0x10000 + 0x18
def HZN_PARTNER_PACKAGE_ID (h : Nat) : FRef := ⟨rHZN_PARTNER h, 0, 12⟩
def HZN_PARTNER_KIND (h : Nat) : FRef := ⟨rHZN_PARTNER h, 12, 1⟩
def HZN_PARTNER_VALID (h : Nat) : FRef := ⟨rHZN_PARTNER h, 13, 1⟩
def HZN_PARTNER_REV_MIN (h : Nat) : FRef := ⟨rHZN_PARTNER h, 16, 8⟩
def HZN_PARTNER_REV_MAX (h : Nat) : FRef := ⟨rHZN_PARTNER h, 24, 8⟩
/-- HZN_PARTNER_SERIAL (spec/10_horizon_fabric.md). -/
def rHZN_PARTNER_SERIAL (h : Nat) : Nat := 0x2500000 + h * 0x10000 + 0x20
def HZN_PARTNER_SERIAL_SERIAL (h : Nat) : FRef := ⟨rHZN_PARTNER_SERIAL h, 0, 64⟩
/-- HZN_LANES (spec/10_horizon_fabric.md). -/
def rHZN_LANES (h : Nat) : Nat := 0x2500000 + h * 0x10000 + 0x28
def HZN_LANES_RX_ACTIVE (h : Nat) : FRef := ⟨rHZN_LANES h, 0, 8⟩
def HZN_LANES_TX_ACTIVE (h : Nat) : FRef := ⟨rHZN_LANES h, 8, 8⟩
def HZN_LANES_RX_MARKED (h : Nat) : FRef := ⟨rHZN_LANES h, 16, 8⟩
def HZN_LANES_TX_MARKED (h : Nat) : FRef := ⟨rHZN_LANES h, 24, 8⟩
/-- HZN_LINK_STATS (spec/10_horizon_fabric.md). -/
def rHZN_LINK_STATS (h : Nat) : Nat := 0x2500000 + h * 0x10000 + 0x30
def HZN_LINK_STATS_CRC_ERRORS (h : Nat) : FRef := ⟨rHZN_LINK_STATS h, 0, 32⟩
def HZN_LINK_STATS_REPLAYED (h : Nat) : FRef := ⟨rHZN_LINK_STATS h, 32, 32⟩
/-- HZN_DROP_STATS (spec/10_horizon_fabric.md). -/
def rHZN_DROP_STATS (h : Nat) : Nat := 0x2500000 + h * 0x10000 + 0x38
def HZN_DROP_STATS_RESIDENCE (h : Nat) : FRef := ⟨rHZN_DROP_STATS h, 0, 32⟩
def HZN_DROP_STATS_HOPS (h : Nat) : FRef := ⟨rHZN_DROP_STATS h, 32, 16⟩
def HZN_DROP_STATS_UNACKED (h : Nat) : FRef := ⟨rHZN_DROP_STATS h, 48, 16⟩
/-- HZN_TRAIN_INFO (spec/10_horizon_fabric.md). -/
def rHZN_TRAIN_INFO (h : Nat) : Nat := 0x2500000 + h * 0x10000 + 0x40
def HZN_TRAIN_INFO_FULL_TRAINS (h : Nat) : FRef := ⟨rHZN_TRAIN_INFO h, 0, 16⟩
def HZN_TRAIN_INFO_RETRAINS (h : Nat) : FRef := ⟨rHZN_TRAIN_INFO h, 16, 16⟩
def HZN_TRAIN_INFO_LAST_FAIL (h : Nat) : FRef := ⟨rHZN_TRAIN_INFO h, 32, 4⟩
def HZN_TRAIN_INFO_REV_MIN (h : Nat) : FRef := ⟨rHZN_TRAIN_INFO h, 40, 8⟩
def HZN_TRAIN_INFO_REV_MAX (h : Nat) : FRef := ⟨rHZN_TRAIN_INFO h, 48, 8⟩
/-- HZN_TIME_ASYM (spec/10_horizon_fabric.md). -/
def rHZN_TIME_ASYM (h : Nat) : Nat := 0x2500000 + h * 0x10000 + 0x60
def HZN_TIME_ASYM_ASYM (h : Nat) : FRef := ⟨rHZN_TIME_ASYM h, 0, 32⟩
/-- HZN_TIME_OFFSET (spec/10_horizon_fabric.md). -/
def rHZN_TIME_OFFSET (h : Nat) : Nat := 0x2500000 + h * 0x10000 + 0x68
def HZN_TIME_OFFSET_OFFSET (h : Nat) : FRef := ⟨rHZN_TIME_OFFSET h, 0, 32⟩
def HZN_TIME_OFFSET_DELAY (h : Nat) : FRef := ⟨rHZN_TIME_OFFSET h, 32, 24⟩
/-- HZN_LANE_STATS (spec/10_horizon_fabric.md). -/
def rHZN_LANE_STATS (h i : Nat) : Nat := 0x2500000 + h * 0x10000 + 0x80 + i * 0x8
def HZN_LANE_STATS_CORRECTED (h i : Nat) : FRef := ⟨rHZN_LANE_STATS h i, 0, 32⟩
def HZN_LANE_STATS_BUCKET (h i : Nat) : FRef := ⟨rHZN_LANE_STATS h i, 32, 8⟩
def HZN_LANE_STATS_LOSS_OF_LOCK (h i : Nat) : FRef := ⟨rHZN_LANE_STATS h i, 40, 1⟩
/-- HZN_CREDIT (spec/10_horizon_fabric.md). -/
def rHZN_CREDIT (h i : Nat) : Nat := 0x2500000 + h * 0x10000 + 0x100 + i * 0x8
def HZN_CREDIT_TX_CREDITS (h i : Nat) : FRef := ⟨rHZN_CREDIT h i, 0, 16⟩
def HZN_CREDIT_RX_FREE (h i : Nat) : FRef := ⟨rHZN_CREDIT h i, 16, 16⟩
def HZN_CREDIT_RX_CAPACITY (h i : Nat) : FRef := ⟨rHZN_CREDIT h i, 32, 16⟩
/-- ROUTE_ISLAND_CTL (spec/10_horizon_fabric.md). -/
def rROUTE_ISLAND_CTL : Nat := 0x2600000 + 0x0
def ROUTE_ISLAND_CTL_ISLAND_ID : FRef := ⟨rROUTE_ISLAND_CTL, 0, 16⟩
def ROUTE_ISLAND_CTL_SELF_INDEX : FRef := ⟨rROUTE_ISLAND_CTL, 16, 5⟩
def ROUTE_ISLAND_CTL_CMD : FRef := ⟨rROUTE_ISLAND_CTL, 24, 2⟩
/-- ROUTE_ISLAND_STATUS (spec/10_horizon_fabric.md). -/
def rROUTE_ISLAND_STATUS : Nat := 0x2600000 + 0x8
def ROUTE_ISLAND_STATUS_STATE : FRef := ⟨rROUTE_ISLAND_STATUS, 0, 2⟩
def ROUTE_ISLAND_STATUS_CMD_REJECTED : FRef := ⟨rROUTE_ISLAND_STATUS, 2, 1⟩
def ROUTE_ISLAND_STATUS_LAST_RESULT : FRef := ⟨rROUTE_ISLAND_STATUS, 3, 3⟩
def ROUTE_ISLAND_STATUS_NAK_MEMBER : FRef := ⟨rROUTE_ISLAND_STATUS, 6, 5⟩
def ROUTE_ISLAND_STATUS_NAK_CAUSE : FRef := ⟨rROUTE_ISLAND_STATUS, 11, 3⟩
/-- ROUTE_TIMEOUT (spec/10_horizon_fabric.md). -/
def rROUTE_TIMEOUT : Nat := 0x2600000 + 0x10
def ROUTE_TIMEOUT_COH : FRef := ⟨rROUTE_TIMEOUT, 0, 2⟩
def ROUTE_TIMEOUT_HOME_WAIT : FRef := ⟨rROUTE_TIMEOUT, 2, 2⟩
def ROUTE_TIMEOUT_WIN : FRef := ⟨rROUTE_TIMEOUT, 4, 2⟩
def ROUTE_TIMEOUT_HOP_LIMIT : FRef := ⟨rROUTE_TIMEOUT, 6, 4⟩
def ROUTE_TIMEOUT_ALT_HOLD : FRef := ⟨rROUTE_TIMEOUT, 10, 2⟩
def ROUTE_TIMEOUT_LOSS_HOLD : FRef := ⟨rROUTE_TIMEOUT, 12, 2⟩
/-- ROUTE_STATS (spec/10_horizon_fabric.md). -/
def rROUTE_STATS : Nat := 0x2600000 + 0x18
def ROUTE_STATS_LATE_CPL : FRef := ⟨rROUTE_STATS, 0, 32⟩
def ROUTE_STATS_UNROUTABLE : FRef := ⟨rROUTE_STATS, 32, 16⟩
def ROUTE_STATS_LOSSES : FRef := ⟨rROUTE_STATS, 48, 16⟩
/-- ROUTE_MEMBER (spec/10_horizon_fabric.md). -/
def rROUTE_MEMBER (i : Nat) : Nat := 0x2600000 + 0x100 + i * 0x8
def ROUTE_MEMBER_PACKAGE_ID (i : Nat) : FRef := ⟨rROUTE_MEMBER i, 0, 12⟩
def ROUTE_MEMBER_STATE (i : Nat) : FRef := ⟨rROUTE_MEMBER i, 16, 3⟩
def ROUTE_MEMBER_CMD (i : Nat) : FRef := ⟨rROUTE_MEMBER i, 20, 2⟩
def ROUTE_MEMBER_CMD_REJECTED (i : Nat) : FRef := ⟨rROUTE_MEMBER i, 22, 1⟩
/-- ROUTE_ENTRY (spec/10_horizon_fabric.md). -/
def rROUTE_ENTRY (i : Nat) : Nat := 0x2600000 + 0x10000 + i * 0x8
def ROUTE_ENTRY_VALID (i : Nat) : FRef := ⟨rROUTE_ENTRY i, 0, 1⟩
def ROUTE_ENTRY_PORT_MASK (i : Nat) : FRef := ⟨rROUTE_ENTRY i, 8, 8⟩
def ROUTE_ENTRY_ALT_MASK (i : Nat) : FRef := ⟨rROUTE_ENTRY i, 16, 8⟩
def ROUTE_ENTRY_ON_ALT (i : Nat) : FRef := ⟨rROUTE_ENTRY i, 24, 1⟩
/-- XCE_IDENT (spec/11_xomus_function.md). -/
def rXCE_IDENT : Nat := 0x100000000 + 0x0
def XCE_IDENT_REVISION : FRef := ⟨rXCE_IDENT, 0, 8⟩
def XCE_IDENT_MAX_VFS : FRef := ⟨rXCE_IDENT, 8, 12⟩
def XCE_IDENT_QP_PER_FN : FRef := ⟨rXCE_IDENT, 20, 4⟩
def XCE_IDENT_ATC_ENTRIES : FRef := ⟨rXCE_IDENT, 24, 17⟩
/-- XCE_STATUS (spec/11_xomus_function.md). -/
def rXCE_STATUS : Nat := 0x100000000 + 0x8
def XCE_STATUS_ENGINE_READY : FRef := ⟨rXCE_STATUS, 0, 1⟩
def XCE_STATUS_UC_RUNNING : FRef := ⟨rXCE_STATUS, 1, 1⟩
def XCE_STATUS_PF_DRAINING : FRef := ⟨rXCE_STATUS, 2, 1⟩
/-- XCE_RESET_CTL (spec/11_xomus_function.md). -/
def rXCE_RESET_CTL : Nat := 0x100000000 + 0x10
def XCE_RESET_CTL_DRAIN_LIMIT : FRef := ⟨rXCE_RESET_CTL, 0, 2⟩
/-- XCE_VF_STATE (spec/11_xomus_function.md). -/
def rXCE_VF_STATE : Nat := 0x100000000 + 0x18
def XCE_VF_STATE_VFS_ENABLED : FRef := ⟨rXCE_VF_STATE, 0, 12⟩
def XCE_VF_STATE_DRAINING : FRef := ⟨rXCE_VF_STATE, 12, 1⟩
def XCE_VF_STATE_ENABLE_PENDING : FRef := ⟨rXCE_VF_STATE, 13, 1⟩
/-- XCE_EVENT (spec/11_xomus_function.md). -/
def rXCE_EVENT : Nat := 0x100000000 + 0x20
def XCE_EVENT_FN_RESET_DONE : FRef := ⟨rXCE_EVENT, 0, 1⟩
def XCE_EVENT_VF_DISABLE_DONE : FRef := ⟨rXCE_EVENT, 1, 1⟩
def XCE_EVENT_DRAIN_FORCED : FRef := ⟨rXCE_EVENT, 2, 1⟩
def XCE_EVENT_LATE_CPL : FRef := ⟨rXCE_EVENT, 3, 1⟩
def XCE_EVENT_UC_RESTARTED : FRef := ⟨rXCE_EVENT, 4, 1⟩
def XCE_EVENT_INTERNAL_ERR : FRef := ⟨rXCE_EVENT, 5, 1⟩
/-- XCE_EVENT_EN (spec/11_xomus_function.md). -/
def rXCE_EVENT_EN : Nat := 0x100000000 + 0x28
def XCE_EVENT_EN_ENABLE : FRef := ⟨rXCE_EVENT_EN, 0, 6⟩
/-- XCE_ATC_CTL (spec/11_xomus_function.md). -/
def rXCE_ATC_CTL : Nat := 0x100000000 + 0x30
def XCE_ATC_CTL_VF_CAP : FRef := ⟨rXCE_ATC_CTL, 0, 17⟩
/-- XCE_ATC_STATS (spec/11_xomus_function.md). -/
def rXCE_ATC_STATS : Nat := 0x100000000 + 0x38
def XCE_ATC_STATS_TRANSLATIONS : FRef := ⟨rXCE_ATC_STATS, 0, 32⟩
def XCE_ATC_STATS_INVALIDATIONS : FRef := ⟨rXCE_ATC_STATS, 32, 32⟩
/-- XCE_ATC_OCCUPANCY (spec/11_xomus_function.md). -/
def rXCE_ATC_OCCUPANCY : Nat := 0x100000000 + 0x40
def XCE_ATC_OCCUPANCY_ENTRIES_VALID : FRef := ⟨rXCE_ATC_OCCUPANCY, 0, 17⟩
/-- XCE_FN_DRAINING (spec/11_xomus_function.md). -/
def rXCE_FN_DRAINING (i : Nat) : Nat := 0x100000000 + 0x100 + i * 0x8
def XCE_FN_DRAINING_DRAINING (i : Nat) : FRef := ⟨rXCE_FN_DRAINING i, 0, 64⟩
/-- QP_SQ_DB (spec/12_xomus_queues.md). -/
def rQP_SQ_DB (f q : Nat) : Nat := qpBase f q + 0x0
def QP_SQ_DB_INDEX (f q : Nat) : FRef := ⟨rQP_SQ_DB f q, 0, 32⟩
/-- QP_CQ_DB (spec/12_xomus_queues.md). -/
def rQP_CQ_DB (f q : Nat) : Nat := qpBase f q + 0x8
def QP_CQ_DB_INDEX (f q : Nat) : FRef := ⟨rQP_CQ_DB f q, 0, 32⟩
/-- QP_RQ_DB (spec/12_xomus_queues.md). -/
def rQP_RQ_DB (f q : Nat) : Nat := qpBase f q + 0x10
def QP_RQ_DB_INDEX (f q : Nat) : FRef := ⟨rQP_RQ_DB f q, 0, 32⟩
/-- QP_CTL (spec/12_xomus_queues.md). -/
def rQP_CTL (f q : Nat) : Nat := qpBase f q + 0x40
def QP_CTL_ENABLE (f q : Nat) : FRef := ⟨rQP_CTL f q, 0, 1⟩
def QP_CTL_MODE (f q : Nat) : FRef := ⟨rQP_CTL f q, 1, 1⟩
def QP_CTL_RQ_ENABLE (f q : Nat) : FRef := ⟨rQP_CTL f q, 2, 1⟩
/-- QP_SQ_BASE (spec/12_xomus_queues.md). -/
def rQP_SQ_BASE (f q : Nat) : Nat := qpBase f q + 0x48
def QP_SQ_BASE_BASE (f q : Nat) : FRef := ⟨rQP_SQ_BASE f q, 12, 52⟩
/-- QP_CQ_BASE (spec/12_xomus_queues.md). -/
def rQP_CQ_BASE (f q : Nat) : Nat := qpBase f q + 0x50
def QP_CQ_BASE_BASE (f q : Nat) : FRef := ⟨rQP_CQ_BASE f q, 12, 52⟩
/-- QP_RQ_BASE (spec/12_xomus_queues.md). -/
def rQP_RQ_BASE (f q : Nat) : Nat := qpBase f q + 0x58
def QP_RQ_BASE_BASE (f q : Nat) : FRef := ⟨rQP_RQ_BASE f q, 12, 52⟩
/-- QP_SIZES (spec/12_xomus_queues.md). -/
def rQP_SIZES (f q : Nat) : Nat := qpBase f q + 0x60
def QP_SIZES_SQ_LOG2 (f q : Nat) : FRef := ⟨rQP_SIZES f q, 0, 5⟩
def QP_SIZES_CQ_LOG2 (f q : Nat) : FRef := ⟨rQP_SIZES f q, 8, 5⟩
def QP_SIZES_RQ_LOG2 (f q : Nat) : FRef := ⟨rQP_SIZES f q, 16, 5⟩
/-- QP_IRQ (spec/12_xomus_queues.md). -/
def rQP_IRQ (f q : Nat) : Nat := qpBase f q + 0x68
def QP_IRQ_VECTOR (f q : Nat) : FRef := ⟨rQP_IRQ f q, 0, 6⟩
def QP_IRQ_ENABLE (f q : Nat) : FRef := ⟨rQP_IRQ f q, 7, 1⟩
def QP_IRQ_COUNT (f q : Nat) : FRef := ⟨rQP_IRQ f q, 8, 16⟩
def QP_IRQ_TIME (f q : Nat) : FRef := ⟨rQP_IRQ f q, 32, 8⟩
/-- QP_STATUS (spec/12_xomus_queues.md). -/
def rQP_STATUS (f q : Nat) : Nat := qpBase f q + 0x80
def QP_STATUS_STATE (f q : Nat) : FRef := ⟨rQP_STATUS f q, 0, 2⟩
def QP_STATUS_CAUSE (f q : Nat) : FRef := ⟨rQP_STATUS f q, 8, 3⟩
def QP_STATUS_RQ_DROPS (f q : Nat) : FRef := ⟨rQP_STATUS f q, 32, 32⟩
/-- QP_SQ_HEAD (spec/12_xomus_queues.md). -/
def rQP_SQ_HEAD (f q : Nat) : Nat := qpBase f q + 0x88
def QP_SQ_HEAD_INDEX (f q : Nat) : FRef := ⟨rQP_SQ_HEAD f q, 0, 32⟩
/-- QP_CQ_TAIL (spec/12_xomus_queues.md). -/
def rQP_CQ_TAIL (f q : Nat) : Nat := qpBase f q + 0x90
def QP_CQ_TAIL_INDEX (f q : Nat) : FRef := ⟨rQP_CQ_TAIL f q, 0, 32⟩
/-- QP_RQ_HEAD (spec/12_xomus_queues.md). -/
def rQP_RQ_HEAD (f q : Nat) : Nat := qpBase f q + 0x98
def QP_RQ_HEAD_INDEX (f q : Nat) : FRef := ⟨rQP_RQ_HEAD f q, 0, 32⟩
/-- XCE_VF_INFO (spec/12_xomus_queues.md). -/
def rXCE_VF_INFO (k : Nat) : Nat := 0x200000000 + k * 0x10000 + 0x8000
def XCE_VF_INFO_FUNCTION (k : Nat) : FRef := ⟨rXCE_VF_INFO k, 0, 12⟩
def XCE_VF_INFO_QPS (k : Nat) : FRef := ⟨rXCE_VF_INFO k, 12, 4⟩
def XCE_VF_INFO_OWIN_COUNT (k : Nat) : FRef := ⟨rXCE_VF_INFO k, 16, 4⟩
/-- XCE_VF_WIN_FAULTS (spec/12_xomus_queues.md). -/
def rXCE_VF_WIN_FAULTS (k : Nat) : Nat := 0x200000000 + k * 0x10000 + 0x8008
def XCE_VF_WIN_FAULTS_STORES_DROPPED (k : Nat) : FRef := ⟨rXCE_VF_WIN_FAULTS k, 0, 32⟩
def XCE_VF_WIN_FAULTS_LAST_DETAIL (k : Nat) : FRef := ⟨rXCE_VF_WIN_FAULTS k, 32, 8⟩
def XCE_VF_WIN_FAULTS_LAST_SLOT (k : Nat) : FRef := ⟨rXCE_VF_WIN_FAULTS k, 40, 3⟩
/-- XCE_FN_SHARE (spec/12_xomus_queues.md). -/
def rXCE_FN_SHARE (f : Nat) : Nat := 0x100100000 + f * 0x100 + 0x0
def XCE_FN_SHARE_WEIGHT (f : Nat) : FRef := ⟨rXCE_FN_SHARE f, 0, 8⟩
def XCE_FN_SHARE_CAP (f : Nat) : FRef := ⟨rXCE_FN_SHARE f, 8, 12⟩
/-- XCE_FN_OWIN (spec/12_xomus_queues.md). -/
def rXCE_FN_OWIN (f : Nat) : Nat := 0x100100000 + f * 0x100 + 0x8
def XCE_FN_OWIN_OWIN_BASE (f : Nat) : FRef := ⟨rXCE_FN_OWIN f, 0, 14⟩
def XCE_FN_OWIN_OWIN_COUNT (f : Nat) : FRef := ⟨rXCE_FN_OWIN f, 16, 4⟩
/-- XCE_FN_ARB (spec/12_xomus_queues.md). -/
def rXCE_FN_ARB (f : Nat) : Nat := 0x100100000 + f * 0x100 + 0x10
def XCE_FN_ARB_BALANCE (f : Nat) : FRef := ⟨rXCE_FN_ARB f, 0, 40⟩
def XCE_FN_ARB_STALLED (f : Nat) : FRef := ⟨rXCE_FN_ARB f, 40, 1⟩
/-- XCE_WIN_SHADOW (spec/12_xomus_queues.md). -/
def rXCE_WIN_SHADOW (i : Nat) : Nat := 0x100000000 + 0x400000 + i * 0x8
def XCE_WIN_SHADOW_WORD (i : Nat) : FRef := ⟨rXCE_WIN_SHADOW i, 0, 64⟩
/-- XCE_WIN_COMMIT (spec/12_xomus_queues.md). -/
def rXCE_WIN_COMMIT : Nat := 0x100000000 + 0x400040
def XCE_WIN_COMMIT_INDEX : FRef := ⟨rXCE_WIN_COMMIT, 0, 14⟩
def XCE_WIN_COMMIT_TABLE : FRef := ⟨rXCE_WIN_COMMIT, 16, 1⟩
/-- XCE_WIN_STATUS (spec/12_xomus_queues.md). -/
def rXCE_WIN_STATUS : Nat := 0x100000000 + 0x400048
def XCE_WIN_STATUS_COMMITTED : FRef := ⟨rXCE_WIN_STATUS, 0, 1⟩
def XCE_WIN_STATUS_HELD : FRef := ⟨rXCE_WIN_STATUS, 1, 1⟩
/-- RPRT_STATUS (spec/13_root_ports.md). -/
def rRPRT_STATUS (i : Nat) : Nat := 0x2700000 + i * 0x10000 + 0x0
def RPRT_STATUS_WIDTH (i : Nat) : FRef := ⟨rRPRT_STATUS i, 0, 3⟩
def RPRT_STATUS_CONTAINED (i : Nat) : FRef := ⟨rRPRT_STATUS i, 3, 1⟩
def RPRT_STATUS_CXL (i : Nat) : FRef := ⟨rRPRT_STATUS i, 4, 1⟩
def RPRT_STATUS_EXPANDER_FAIL (i : Nat) : FRef := ⟨rRPRT_STATUS i, 5, 1⟩
def RPRT_STATUS_CMD_REJECTED (i : Nat) : FRef := ⟨rRPRT_STATUS i, 6, 1⟩
def RPRT_STATUS_REGION_STATE (i : Nat) : FRef := ⟨rRPRT_STATUS i, 7, 2⟩
/-- RPRT_CTL (spec/13_root_ports.md). -/
def rRPRT_CTL (i : Nat) : Nat := 0x2700000 + i * 0x10000 + 0x8
def RPRT_CTL_FAULT_ON_CONTAINED (i : Nat) : FRef := ⟨rRPRT_CTL i, 0, 1⟩
def RPRT_CTL_SLOT (i : Nat) : FRef := ⟨rRPRT_CTL i, 1, 1⟩
def RPRT_CTL_CPL_TIMEOUT (i : Nat) : FRef := ⟨rRPRT_CTL i, 2, 2⟩
/-- RPRT_CXL_REGION (spec/13_root_ports.md). -/
def rRPRT_CXL_REGION (i : Nat) : Nat := 0x2700000 + i * 0x10000 + 0x10
def RPRT_CXL_REGION_BASE_GIB (i : Nat) : FRef := ⟨rRPRT_CXL_REGION i, 0, 12⟩
def RPRT_CXL_REGION_SIZE_GIB (i : Nat) : FRef := ⟨rRPRT_CXL_REGION i, 16, 13⟩
def RPRT_CXL_REGION_CMD (i : Nat) : FRef := ⟨rRPRT_CXL_REGION i, 32, 2⟩
/-- RPRT_EVENT (spec/13_root_ports.md). -/
def rRPRT_EVENT (i : Nat) : Nat := 0x2700000 + i * 0x10000 + 0x18
def RPRT_EVENT_REGION_ONLINE (i : Nat) : FRef := ⟨rRPRT_EVENT i, 0, 1⟩
def RPRT_EVENT_REGION_OFFLINE (i : Nat) : FRef := ⟨rRPRT_EVENT i, 1, 1⟩
def RPRT_EVENT_REGION_FAIL (i : Nat) : FRef := ⟨rRPRT_EVENT i, 2, 1⟩
/-- RPRT_ERR (spec/13_root_ports.md). -/
def rRPRT_ERR (i : Nat) : Nat := 0x2700000 + i * 0x10000 + 0x20
def RPRT_ERR_VALID (i : Nat) : FRef := ⟨rRPRT_ERR i, 0, 1⟩
def RPRT_ERR_OVERFLOW (i : Nat) : FRef := ⟨rRPRT_ERR i, 1, 1⟩
def RPRT_ERR_WRITE (i : Nat) : FRef := ⟨rRPRT_ERR i, 2, 1⟩
def RPRT_ERR_ADDR (i : Nat) : FRef := ⟨rRPRT_ERR i, 8, 56⟩
/-- IOMMU_MSI_DROPS (spec/13_root_ports.md). -/
def rIOMMU_MSI_DROPS : Nat := 0x2900000 + 0x1000
def IOMMU_MSI_DROPS_DROPS : FRef := ⟨rIOMMU_MSI_DROPS, 0, 32⟩
def IOMMU_MSI_DROPS_LAST_RID : FRef := ⟨rIOMMU_MSI_DROPS, 32, 16⟩
def IOMMU_MSI_DROPS_LAST_HART : FRef := ⟨rIOMMU_MSI_DROPS, 48, 9⟩
/-- RAS_AGG_CTL (spec/14_stored_data_protection.md). -/
def rRAS_AGG_CTL : Nat := 0x0600000 + 0x0
def RAS_AGG_CTL_NMI_HART : FRef := ⟨rRAS_AGG_CTL, 0, 9⟩
def RAS_AGG_CTL_MSI_ENABLE : FRef := ⟨rRAS_AGG_CTL, 9, 1⟩
/-- RAS_MSI_ADDR (spec/14_stored_data_protection.md). -/
def rRAS_MSI_ADDR : Nat := 0x0600000 + 0x8
def RAS_MSI_ADDR_ADDR : FRef := ⟨rRAS_MSI_ADDR, 2, 54⟩
/-- RAS_MSI_DATA (spec/14_stored_data_protection.md). -/
def rRAS_MSI_DATA : Nat := 0x0600000 + 0x10
def RAS_MSI_DATA_DATA : FRef := ⟨rRAS_MSI_DATA, 0, 32⟩
/-- RAS_PATROL_CTL (spec/14_stored_data_protection.md). -/
def rRAS_PATROL_CTL : Nat := 0x0600000 + 0x18
def RAS_PATROL_CTL_DRAM_PERIOD : FRef := ⟨rRAS_PATROL_CTL, 0, 8⟩
def RAS_PATROL_CTL_ONCHIP_PERIOD : FRef := ⟨rRAS_PATROL_CTL, 8, 10⟩
/-- RAS_PATROL_STATUS (spec/14_stored_data_protection.md). -/
def rRAS_PATROL_STATUS : Nat := 0x0600000 + 0x20
def RAS_PATROL_STATUS_DRAM_PASSES : FRef := ⟨rRAS_PATROL_STATUS, 0, 32⟩
def RAS_PATROL_STATUS_ONCHIP_PASSES : FRef := ⟨rRAS_PATROL_STATUS, 32, 32⟩
/-- RAS_BANK_VALID (spec/14_stored_data_protection.md). -/
def rRAS_BANK_VALID (i : Nat) : Nat := 0x0600000 + 0x40 + i * 0x8
def RAS_BANK_VALID_VALID (i : Nat) : FRef := ⟨rRAS_BANK_VALID i, 0, 64⟩
/-- RAS_BUCKET_CFG (spec/14_stored_data_protection.md). -/
def rRAS_BUCKET_CFG (i : Nat) : Nat := 0x0600000 + 0x100 + i * 0x8
def RAS_BUCKET_CFG_WINDOW (i : Nat) : FRef := ⟨rRAS_BUCKET_CFG i, 0, 3⟩
def RAS_BUCKET_CFG_RATE (i : Nat) : FRef := ⟨rRAS_BUCKET_CFG i, 8, 8⟩
def RAS_BUCKET_CFG_LIMIT (i : Nat) : FRef := ⟨rRAS_BUCKET_CFG i, 16, 8⟩
def RAS_BUCKET_CFG_CORR_WEIGHT (i : Nat) : FRef := ⟨rRAS_BUCKET_CFG i, 24, 8⟩
def RAS_BUCKET_CFG_UNC_WEIGHT (i : Nat) : FRef := ⟨rRAS_BUCKET_CFG i, 32, 8⟩
/-- MBOX_STATUS (spec/15_thoiviyx_management.md). -/
def rMBOX_STATUS : Nat := 0x0200000 + 0x0
def MBOX_STATUS_READY : FRef := ⟨rMBOX_STATUS, 0, 1⟩
def MBOX_STATUS_TX_BUSY : FRef := ⟨rMBOX_STATUS, 1, 1⟩
def MBOX_STATUS_RX_VALID : FRef := ⟨rMBOX_STATUS, 2, 1⟩
def MBOX_STATUS_FROZEN : FRef := ⟨rMBOX_STATUS, 3, 1⟩
def MBOX_STATUS_LONG_OP : FRef := ⟨rMBOX_STATUS, 4, 1⟩
def MBOX_STATUS_TX_OVERRUN : FRef := ⟨rMBOX_STATUS, 5, 1⟩
def MBOX_STATUS_TX_MALFORMED : FRef := ⟨rMBOX_STATUS, 6, 1⟩
def MBOX_STATUS_QUEUED : FRef := ⟨rMBOX_STATUS, 16, 8⟩
def MBOX_STATUS_EVENTS_LOST : FRef := ⟨rMBOX_STATUS, 32, 32⟩
/-- MBOX_TX_CTL (spec/15_thoiviyx_management.md). -/
def rMBOX_TX_CTL : Nat := 0x0200000 + 0x8
def MBOX_TX_CTL_LENGTH : FRef := ⟨rMBOX_TX_CTL, 0, 13⟩
def MBOX_TX_CTL_GO : FRef := ⟨rMBOX_TX_CTL, 16, 1⟩
/-- MBOX_RX_INFO (spec/15_thoiviyx_management.md). -/
def rMBOX_RX_INFO : Nat := 0x0200000 + 0x10
def MBOX_RX_INFO_LENGTH : FRef := ⟨rMBOX_RX_INFO, 0, 13⟩
def MBOX_RX_INFO_TYPE : FRef := ⟨rMBOX_RX_INFO, 16, 8⟩
def MBOX_RX_INFO_TAG : FRef := ⟨rMBOX_RX_INFO, 24, 8⟩
/-- MBOX_RX_CTL (spec/15_thoiviyx_management.md). -/
def rMBOX_RX_CTL : Nat := 0x0200000 + 0x18
def MBOX_RX_CTL_ACK : FRef := ⟨rMBOX_RX_CTL, 0, 1⟩
/-- MBOX_IRQ_CTL (spec/15_thoiviyx_management.md). -/
def rMBOX_IRQ_CTL : Nat := 0x0200000 + 0x20
def MBOX_IRQ_CTL_MSI_ENABLE : FRef := ⟨rMBOX_IRQ_CTL, 0, 1⟩
/-- MBOX_MSI_ADDR (spec/15_thoiviyx_management.md). -/
def rMBOX_MSI_ADDR : Nat := 0x0200000 + 0x28
def MBOX_MSI_ADDR_ADDR : FRef := ⟨rMBOX_MSI_ADDR, 2, 54⟩
/-- MBOX_MSI_DATA (spec/15_thoiviyx_management.md). -/
def rMBOX_MSI_DATA : Nat := 0x0200000 + 0x30
def MBOX_MSI_DATA_DATA : FRef := ⟨rMBOX_MSI_DATA, 0, 32⟩
/-- MBOX_MSL_STATS (spec/15_thoiviyx_management.md). -/
def rMBOX_MSL_STATS : Nat := 0x0200000 + 0x38
def MBOX_MSL_STATS_FRAMES_GOOD : FRef := ⟨rMBOX_MSL_STATS, 0, 32⟩
def MBOX_MSL_STATS_CRC_ERRORS : FRef := ⟨rMBOX_MSL_STATS, 32, 16⟩
def MBOX_MSL_STATS_FRAME_ERRORS : FRef := ⟨rMBOX_MSL_STATS, 48, 16⟩
/-- MBOX_TX_BUF (spec/15_thoiviyx_management.md). -/
def rMBOX_TX_BUF (i : Nat) : Nat := 0x0200000 + 0x10000 + i * 0x8
def MBOX_TX_BUF_BYTES (i : Nat) : FRef := ⟨rMBOX_TX_BUF i, 0, 64⟩
/-- MBOX_RX_BUF (spec/15_thoiviyx_management.md). -/
def rMBOX_RX_BUF (i : Nat) : Nat := 0x0200000 + 0x20000 + i * 0x8
def MBOX_RX_BUF_BYTES (i : Nat) : FRef := ⟨rMBOX_RX_BUF i, 0, 64⟩
/-- PWR_LIMIT (spec/17_power_clocks_start.md). -/
def rPWR_LIMIT : Nat := 0x0300000 + 0x0
def PWR_LIMIT_PPT_W : FRef := ⟨rPWR_LIMIT, 0, 10⟩
/-- PWR_CTL (spec/17_power_clocks_start.md). -/
def rPWR_CTL : Nat := 0x0300000 + 0x8
def PWR_CTL_STACK_MODE : FRef := ⟨rPWR_CTL, 0, 1⟩
def PWR_CTL_TEMP_TARGET : FRef := ⟨rPWR_CTL, 8, 8⟩
/-- PWR_STATUS (spec/17_power_clocks_start.md). -/
def rPWR_STATUS : Nat := 0x0300000 + 0x10
def PWR_STATUS_POWER : FRef := ⟨rPWR_STATUS, 0, 14⟩
def PWR_STATUS_PKG_CEILING : FRef := ⟨rPWR_STATUS, 16, 7⟩
def PWR_STATUS_POWER_LIMITING : FRef := ⟨rPWR_STATUS, 23, 1⟩
def PWR_STATUS_THERMAL_LIMITING : FRef := ⟨rPWR_STATUS, 24, 1⟩
def PWR_STATUS_CURRENT_LIMIT : FRef := ⟨rPWR_STATUS, 25, 1⟩
def PWR_STATUS_UC_RUNNING : FRef := ⟨rPWR_STATUS, 26, 1⟩
/-- PWR_ENERGY (spec/17_power_clocks_start.md). -/
def rPWR_ENERGY : Nat := 0x0300000 + 0x18
def PWR_ENERGY_ENERGY_UJ : FRef := ⟨rPWR_ENERGY, 0, 64⟩
/-- PWR_TEMP (spec/17_power_clocks_start.md). -/
def rPWR_TEMP : Nat := 0x0300000 + 0x20
def PWR_TEMP_HOTTEST : FRef := ⟨rPWR_TEMP, 0, 16⟩
def PWR_TEMP_SENSOR : FRef := ⟨rPWR_TEMP, 16, 9⟩
def PWR_TEMP_EMERGENCY : FRef := ⟨rPWR_TEMP, 32, 1⟩
/-- PWR_MESA_LEVEL (spec/17_power_clocks_start.md). -/
def rPWR_MESA_LEVEL : Nat := 0x0300000 + 0x28
def PWR_MESA_LEVEL_LEVEL_0 : FRef := ⟨rPWR_MESA_LEVEL, 0, 2⟩
def PWR_MESA_LEVEL_LEVEL_1 : FRef := ⟨rPWR_MESA_LEVEL, 2, 2⟩
def PWR_MESA_LEVEL_LEVEL_2 : FRef := ⟨rPWR_MESA_LEVEL, 4, 2⟩
def PWR_MESA_LEVEL_LEVEL_3 : FRef := ⟨rPWR_MESA_LEVEL, 6, 2⟩
def PWR_MESA_LEVEL_LEVEL_4 : FRef := ⟨rPWR_MESA_LEVEL, 8, 2⟩
def PWR_MESA_LEVEL_LEVEL_5 : FRef := ⟨rPWR_MESA_LEVEL, 10, 2⟩
def PWR_MESA_LEVEL_LEVEL_6 : FRef := ⟨rPWR_MESA_LEVEL, 12, 2⟩
def PWR_MESA_LEVEL_LEVEL_7 : FRef := ⟨rPWR_MESA_LEVEL, 14, 2⟩
def PWR_MESA_LEVEL_LEVEL_8 : FRef := ⟨rPWR_MESA_LEVEL, 16, 2⟩
def PWR_MESA_LEVEL_LEVEL_9 : FRef := ⟨rPWR_MESA_LEVEL, 18, 2⟩
def PWR_MESA_LEVEL_LEVEL_10 : FRef := ⟨rPWR_MESA_LEVEL, 20, 2⟩
def PWR_MESA_LEVEL_LEVEL_11 : FRef := ⟨rPWR_MESA_LEVEL, 22, 2⟩
def PWR_MESA_LEVEL_LEVEL_12 : FRef := ⟨rPWR_MESA_LEVEL, 24, 2⟩
def PWR_MESA_LEVEL_LEVEL_13 : FRef := ⟨rPWR_MESA_LEVEL, 26, 2⟩
def PWR_MESA_LEVEL_LEVEL_14 : FRef := ⟨rPWR_MESA_LEVEL, 28, 2⟩
def PWR_MESA_LEVEL_LEVEL_15 : FRef := ⟨rPWR_MESA_LEVEL, 30, 2⟩
/-- PWR_MESA_THRESH (spec/17_power_clocks_start.md). -/
def rPWR_MESA_THRESH : Nat := 0x0300000 + 0x30
def PWR_MESA_THRESH_L1 : FRef := ⟨rPWR_MESA_THRESH, 0, 8⟩
def PWR_MESA_THRESH_L2 : FRef := ⟨rPWR_MESA_THRESH, 8, 8⟩
def PWR_MESA_THRESH_L3 : FRef := ⟨rPWR_MESA_THRESH, 16, 8⟩
/-- TIME_NOW (spec/17_power_clocks_start.md). -/
def rTIME_NOW : Nat := 0x0100000 + 0x0
def TIME_NOW_GTIME : FRef := ⟨rTIME_NOW, 0, 64⟩
/-- TIME_CTL (spec/17_power_clocks_start.md). -/
def rTIME_CTL : Nat := 0x0100000 + 0x8
def TIME_CTL_SOURCE : FRef := ⟨rTIME_CTL, 0, 2⟩
def TIME_CTL_STEP_ENABLE : FRef := ⟨rTIME_CTL, 2, 1⟩
def TIME_CTL_STEP_LIMIT_US : FRef := ⟨rTIME_CTL, 8, 8⟩
/-- TIME_STATUS (spec/17_power_clocks_start.md). -/
def rTIME_STATUS : Nat := 0x0100000 + 0x10
def TIME_STATUS_STATE : FRef := ⟨rTIME_STATUS, 0, 2⟩
def TIME_STATUS_AHEAD : FRef := ⟨rTIME_STATUS, 2, 1⟩
def TIME_STATUS_SOURCE_IN_USE : FRef := ⟨rTIME_STATUS, 3, 1⟩
def TIME_STATUS_STEPPED : FRef := ⟨rTIME_STATUS, 4, 1⟩
def TIME_STATUS_HOLDOVER_SEEN : FRef := ⟨rTIME_STATUS, 5, 1⟩
def TIME_STATUS_PPS_REJECTS : FRef := ⟨rTIME_STATUS, 16, 16⟩
/-- TIME_NEXT_PPS (spec/17_power_clocks_start.md). -/
def rTIME_NEXT_PPS : Nat := 0x0100000 + 0x18
def TIME_NEXT_PPS_VALUE : FRef := ⟨rTIME_NEXT_PPS, 0, 63⟩
def TIME_NEXT_PPS_VALID : FRef := ⟨rTIME_NEXT_PPS, 63, 1⟩
/-- TIME_STEP_FWD (spec/17_power_clocks_start.md). -/
def rTIME_STEP_FWD : Nat := 0x0100000 + 0x20
def TIME_STEP_FWD_DELTA_NS : FRef := ⟨rTIME_STEP_FWD, 0, 32⟩
/-- TIME_OFFSET (spec/17_power_clocks_start.md). -/
def rTIME_OFFSET : Nat := 0x0100000 + 0x28
def TIME_OFFSET_OFFSET : FRef := ⟨rTIME_OFFSET, 0, 32⟩
def TIME_OFFSET_RATE_PPB : FRef := ⟨rTIME_OFFSET, 32, 32⟩
/-- CCOL_CTL (spec/18_counters.md). -/
def rCCOL_CTL : Nat := 0x0400000 + 0x0
def CCOL_CTL_SWEEP_ENABLE : FRef := ⟨rCCOL_CTL, 0, 1⟩
def CCOL_CTL_MSI_ENABLE : FRef := ⟨rCCOL_CTL, 1, 1⟩
def CCOL_CTL_FREEZE : FRef := ⟨rCCOL_CTL, 2, 1⟩
def CCOL_CTL_RING_FAULT : FRef := ⟨rCCOL_CTL, 3, 1⟩
def CCOL_CTL_INTERVAL : FRef := ⟨rCCOL_CTL, 8, 3⟩
/-- CCOL_STATUS (spec/18_counters.md). -/
def rCCOL_STATUS : Nat := 0x0400000 + 0x8
def CCOL_STATUS_SWEEP_SEQ : FRef := ⟨rCCOL_STATUS, 0, 32⟩
def CCOL_STATUS_SWEEPS_SKIPPED : FRef := ⟨rCCOL_STATUS, 32, 32⟩
/-- CCOL_RING_BASE (spec/18_counters.md). -/
def rCCOL_RING_BASE : Nat := 0x0400000 + 0x10
def CCOL_RING_BASE_BASE : FRef := ⟨rCCOL_RING_BASE, 12, 44⟩
/-- CCOL_RING_SIZE (spec/18_counters.md). -/
def rCCOL_RING_SIZE : Nat := 0x0400000 + 0x18
def CCOL_RING_SIZE_LOG2_BYTES : FRef := ⟨rCCOL_RING_SIZE, 0, 5⟩
/-- CCOL_RING_PROD (spec/18_counters.md). -/
def rCCOL_RING_PROD : Nat := 0x0400000 + 0x20
def CCOL_RING_PROD_PROD : FRef := ⟨rCCOL_RING_PROD, 0, 32⟩
/-- CCOL_RING_CONS (spec/18_counters.md). -/
def rCCOL_RING_CONS : Nat := 0x0400000 + 0x28
def CCOL_RING_CONS_CONS : FRef := ⟨rCCOL_RING_CONS, 0, 32⟩
/-- CCOL_MSI_ADDR (spec/18_counters.md). -/
def rCCOL_MSI_ADDR : Nat := 0x0400000 + 0x30
def CCOL_MSI_ADDR_ADDR : FRef := ⟨rCCOL_MSI_ADDR, 2, 54⟩
/-- CCOL_MSI_DATA (spec/18_counters.md). -/
def rCCOL_MSI_DATA : Nat := 0x0400000 + 0x38
def CCOL_MSI_DATA_DATA : FRef := ⟨rCCOL_MSI_DATA, 0, 32⟩
/-- CCOL_BANK_EN (spec/18_counters.md). -/
def rCCOL_BANK_EN (i : Nat) : Nat := 0x0400000 + 0x40 + i * 0x8
def CCOL_BANK_EN_EN (i : Nat) : FRef := ⟨rCCOL_BANK_EN i, 0, 64⟩
/-- CCOL_OVF_PEND (spec/18_counters.md). -/
def rCCOL_OVF_PEND (i : Nat) : Nat := 0x0400000 + 0x80 + i * 0x8
def CCOL_OVF_PEND_PEND (i : Nat) : FRef := ⟨rCCOL_OVF_PEND i, 0, 64⟩
/-- CCOL_COUNT (spec/18_counters.md). -/
def rCCOL_COUNT (b i : Nat) : Nat := 0x0410000 + b * 0x200 + 0x0 + i * 0x10
def CCOL_COUNT_COUNT (b i : Nat) : FRef := ⟨rCCOL_COUNT b i, 0, 48⟩
def CCOL_COUNT_OVF (b i : Nat) : FRef := ⟨rCCOL_COUNT b i, 48, 1⟩
/-- CCOL_SELECT (spec/18_counters.md). -/
def rCCOL_SELECT (b i : Nat) : Nat := 0x0410000 + b * 0x200 + 0x8 + i * 0x10
def CCOL_SELECT_EVENT (b i : Nat) : FRef := ⟨rCCOL_SELECT b i, 0, 8⟩
def CCOL_SELECT_UMASK (b i : Nat) : FRef := ⟨rCCOL_SELECT b i, 8, 8⟩
def CCOL_SELECT_ENABLE (b i : Nat) : FRef := ⟨rCCOL_SELECT b i, 16, 1⟩
def CCOL_SELECT_MCID_EN (b i : Nat) : FRef := ⟨rCCOL_SELECT b i, 17, 1⟩
def CCOL_SELECT_RCID_EN (b i : Nat) : FRef := ⟨rCCOL_SELECT b i, 18, 1⟩
def CCOL_SELECT_MCID (b i : Nat) : FRef := ⟨rCCOL_SELECT b i, 20, 10⟩
def CCOL_SELECT_RCID (b i : Nat) : FRef := ⟨rCCOL_SELECT b i, 30, 10⟩
def CCOL_SELECT_CLEAR (b i : Nat) : FRef := ⟨rCCOL_SELECT b i, 40, 1⟩
def CCOL_SELECT_OVF_IRQ (b i : Nat) : FRef := ⟨rCCOL_SELECT b i, 41, 1⟩
/-- CORE_PFCTL (spec/02_vale_cores.md). -/
def rCORE_PFCTL (h : Nat) : Nat := 0x10000000000 + h * 0x1000 + 0x7c0
def CORE_PFCTL_L1I_PF_OFF (h : Nat) : FRef := ⟨rCORE_PFCTL h, 0, 1⟩
def CORE_PFCTL_L1D_PF_OFF (h : Nat) : FRef := ⟨rCORE_PFCTL h, 1, 1⟩
def CORE_PFCTL_L2_PF_OFF (h : Nat) : FRef := ⟨rCORE_PFCTL h, 2, 1⟩
def CORE_PFCTL_CBOP_OFF (h : Nat) : FRef := ⟨rCORE_PFCTL h, 3, 1⟩
/-- CORE_FREQ_REQ (spec/02_vale_cores.md). -/
def rCORE_FREQ_REQ (h : Nat) : Nat := 0x10000000000 + h * 0x1000 + 0x5c0
def CORE_FREQ_REQ_STEP (h : Nat) : FRef := ⟨rCORE_FREQ_REQ h, 0, 7⟩
/-- CORE_FREQ_CUR (spec/02_vale_cores.md). -/
def rCORE_FREQ_CUR (h : Nat) : Nat := 0x10000000000 + h * 0x1000 + 0xdc0
def CORE_FREQ_CUR_STEP (h : Nat) : FRef := ⟨rCORE_FREQ_CUR h, 0, 7⟩
def CORE_FREQ_CUR_CEILING (h : Nat) : FRef := ⟨rCORE_FREQ_CUR h, 8, 7⟩
def CORE_FREQ_CUR_LIMITED (h : Nat) : FRef := ⟨rCORE_FREQ_CUR h, 16, 1⟩
def CORE_FREQ_CUR_SLEWING (h : Nat) : FRef := ⟨rCORE_FREQ_CUR h, 17, 1⟩
/-- srmcfg (spec/02_vale_cores.md). -/
def rsrmcfg (h : Nat) : Nat := 0x10000000000 + h * 0x1000 + 0x181
def srmcfg_RCID (h : Nat) : FRef := ⟨rsrmcfg h, 0, 10⟩
def srmcfg_MCID (h : Nat) : FRef := ⟨rsrmcfg h, 16, 10⟩
/-- mtvec (spec/02_vale_cores.md). -/
def rmtvec (h : Nat) : Nat := 0x10000000000 + h * 0x1000 + 0x305
def mtvec_VALUE (h : Nat) : FRef := ⟨rmtvec h, 0, 64⟩
/-- mnstatus (spec/02_vale_cores.md). -/
def rmnstatus (h : Nat) : Nat := 0x10000000000 + h * 0x1000 + 0x744
def mnstatus_NMIE (h : Nat) : FRef := ⟨rmnstatus h, 3, 1⟩
def mnstatus_MNPV (h : Nat) : FRef := ⟨rmnstatus h, 7, 1⟩
def mnstatus_MNPP (h : Nat) : FRef := ⟨rmnstatus h, 11, 2⟩
/-- mnepc (spec/02_vale_cores.md). -/
def rmnepc (h : Nat) : Nat := 0x10000000000 + h * 0x1000 + 0x741
def mnepc_VALUE (h : Nat) : FRef := ⟨rmnepc h, 0, 64⟩
/-- mncause (spec/02_vale_cores.md). -/
def rmncause (h : Nat) : Nat := 0x10000000000 + h * 0x1000 + 0x742
def mncause_VALUE (h : Nat) : FRef := ⟨rmncause h, 0, 64⟩
/-- mstateen0 (spec/02_vale_cores.md). -/
def rmstateen0 (h : Nat) : Nat := 0x10000000000 + h * 0x1000 + 0x30c
def mstateen0_VALUE (h : Nat) : FRef := ⟨rmstateen0 h, 0, 64⟩
/-- mcycle (spec/02_vale_cores.md). -/
def rmcycle (h : Nat) : Nat := 0x10000000000 + h * 0x1000 + 0xb00
def mcycle_VALUE (h : Nat) : FRef := ⟨rmcycle h, 0, 64⟩
/-- minstret (spec/02_vale_cores.md). -/
def rminstret (h : Nat) : Nat := 0x10000000000 + h * 0x1000 + 0xb02
def minstret_VALUE (h : Nat) : FRef := ⟨rminstret h, 0, 64⟩
/-- mhpmcounter (spec/02_vale_cores.md). -/
def rmhpmcounter (h i : Nat) : Nat := 0x10000000000 + h * 0x1000 + 0xb03 + i * 0x1
def mhpmcounter_VALUE (h i : Nat) : FRef := ⟨rmhpmcounter h i, 0, 64⟩
/-- mhpmevent (spec/02_vale_cores.md). -/
def rmhpmevent (h i : Nat) : Nat := 0x10000000000 + h * 0x1000 + 0x323 + i * 0x1
def mhpmevent_VALUE (h i : Nat) : FRef := ⟨rmhpmevent h i, 0, 64⟩
/-- mcounteren (spec/02_vale_cores.md). -/
def rmcounteren (h : Nat) : Nat := 0x10000000000 + h * 0x1000 + 0x306
def mcounteren_VALUE (h : Nat) : FRef := ⟨rmcounteren h, 0, 64⟩
/-- hcounteren (spec/02_vale_cores.md). -/
def rhcounteren (h : Nat) : Nat := 0x10000000000 + h * 0x1000 + 0x606
def hcounteren_VALUE (h : Nat) : FRef := ⟨rhcounteren h, 0, 64⟩
/-- scounteren (spec/02_vale_cores.md). -/
def rscounteren (h : Nat) : Nat := 0x10000000000 + h * 0x1000 + 0x106
def scounteren_VALUE (h : Nat) : FRef := ⟨rscounteren h, 0, 64⟩
/-- vstart (spec/02_vale_cores.md). -/
def rvstart (h : Nat) : Nat := 0x10000000000 + h * 0x1000 + 0x8
def vstart_VALUE (h : Nat) : FRef := ⟨rvstart h, 0, 64⟩
/-- vl (spec/02_vale_cores.md). -/
def rvl (h : Nat) : Nat := 0x10000000000 + h * 0x1000 + 0xc20
def vl_VALUE (h : Nat) : FRef := ⟨rvl h, 0, 64⟩
/-- stvec (spec/02_vale_cores.md). -/
def rstvec (h : Nat) : Nat := 0x10000000000 + h * 0x1000 + 0x105
def stvec_VALUE (h : Nat) : FRef := ⟨rstvec h, 0, 64⟩
/-- senvcfg (spec/02_vale_cores.md). -/
def rsenvcfg (h : Nat) : Nat := 0x10000000000 + h * 0x1000 + 0x10a
def senvcfg_VALUE (h : Nat) : FRef := ⟨rsenvcfg h, 0, 64⟩
/-- sstateen (spec/02_vale_cores.md). -/
def rsstateen (h i : Nat) : Nat := 0x10000000000 + h * 0x1000 + 0x10c + i * 0x1
def sstateen_VALUE (h i : Nat) : FRef := ⟨rsstateen h i, 0, 64⟩
/-- sscratch (spec/02_vale_cores.md). -/
def rsscratch (h : Nat) : Nat := 0x10000000000 + h * 0x1000 + 0x140
def sscratch_VALUE (h : Nat) : FRef := ⟨rsscratch h, 0, 64⟩
/-- sepc (spec/02_vale_cores.md). -/
def rsepc (h : Nat) : Nat := 0x10000000000 + h * 0x1000 + 0x141
def sepc_VALUE (h : Nat) : FRef := ⟨rsepc h, 0, 64⟩
/-- scause (spec/02_vale_cores.md). -/
def rscause (h : Nat) : Nat := 0x10000000000 + h * 0x1000 + 0x142
def scause_VALUE (h : Nat) : FRef := ⟨rscause h, 0, 64⟩
/-- stval (spec/02_vale_cores.md). -/
def rstval (h : Nat) : Nat := 0x10000000000 + h * 0x1000 + 0x143
def stval_VALUE (h : Nat) : FRef := ⟨rstval h, 0, 64⟩
/-- stimecmp (spec/02_vale_cores.md). -/
def rstimecmp (h : Nat) : Nat := 0x10000000000 + h * 0x1000 + 0x14d
def stimecmp_VALUE (h : Nat) : FRef := ⟨rstimecmp h, 0, 64⟩
/-- satp (spec/02_vale_cores.md). -/
def rsatp (h : Nat) : Nat := 0x10000000000 + h * 0x1000 + 0x180
def satp_VALUE (h : Nat) : FRef := ⟨rsatp h, 0, 64⟩
/-- vsstatus (spec/02_vale_cores.md). -/
def rvsstatus (h : Nat) : Nat := 0x10000000000 + h * 0x1000 + 0x200
def vsstatus_SIE (h : Nat) : FRef := ⟨rvsstatus h, 1, 1⟩
def vsstatus_SPIE (h : Nat) : FRef := ⟨rvsstatus h, 5, 1⟩
def vsstatus_SPP (h : Nat) : FRef := ⟨rvsstatus h, 8, 1⟩
def vsstatus_VS (h : Nat) : FRef := ⟨rvsstatus h, 9, 2⟩
def vsstatus_FS (h : Nat) : FRef := ⟨rvsstatus h, 13, 2⟩
def vsstatus_SUM (h : Nat) : FRef := ⟨rvsstatus h, 18, 1⟩
def vsstatus_MXR (h : Nat) : FRef := ⟨rvsstatus h, 19, 1⟩
def vsstatus_UXL (h : Nat) : FRef := ⟨rvsstatus h, 32, 2⟩
/-- vstvec (spec/02_vale_cores.md). -/
def rvstvec (h : Nat) : Nat := 0x10000000000 + h * 0x1000 + 0x205
def vstvec_VALUE (h : Nat) : FRef := ⟨rvstvec h, 0, 64⟩
/-- vsscratch (spec/02_vale_cores.md). -/
def rvsscratch (h : Nat) : Nat := 0x10000000000 + h * 0x1000 + 0x240
def vsscratch_VALUE (h : Nat) : FRef := ⟨rvsscratch h, 0, 64⟩
/-- vsepc (spec/02_vale_cores.md). -/
def rvsepc (h : Nat) : Nat := 0x10000000000 + h * 0x1000 + 0x241
def vsepc_VALUE (h : Nat) : FRef := ⟨rvsepc h, 0, 64⟩
/-- vscause (spec/02_vale_cores.md). -/
def rvscause (h : Nat) : Nat := 0x10000000000 + h * 0x1000 + 0x242
def vscause_VALUE (h : Nat) : FRef := ⟨rvscause h, 0, 64⟩
/-- vstval (spec/02_vale_cores.md). -/
def rvstval (h : Nat) : Nat := 0x10000000000 + h * 0x1000 + 0x243
def vstval_VALUE (h : Nat) : FRef := ⟨rvstval h, 0, 64⟩
/-- vstimecmp (spec/02_vale_cores.md). -/
def rvstimecmp (h : Nat) : Nat := 0x10000000000 + h * 0x1000 + 0x24d
def vstimecmp_VALUE (h : Nat) : FRef := ⟨rvstimecmp h, 0, 64⟩
/-- vsatp (spec/02_vale_cores.md). -/
def rvsatp (h : Nat) : Nat := 0x10000000000 + h * 0x1000 + 0x280
def vsatp_VALUE (h : Nat) : FRef := ⟨rvsatp h, 0, 64⟩
/-- mstatus (spec/02_vale_cores.md). -/
def rmstatus (h : Nat) : Nat := 0x10000000000 + h * 0x1000 + 0x300
def mstatus_SIE (h : Nat) : FRef := ⟨rmstatus h, 1, 1⟩
def mstatus_MIE (h : Nat) : FRef := ⟨rmstatus h, 3, 1⟩
def mstatus_SPIE (h : Nat) : FRef := ⟨rmstatus h, 5, 1⟩
def mstatus_MPIE (h : Nat) : FRef := ⟨rmstatus h, 7, 1⟩
def mstatus_SPP (h : Nat) : FRef := ⟨rmstatus h, 8, 1⟩
def mstatus_VS (h : Nat) : FRef := ⟨rmstatus h, 9, 2⟩
def mstatus_MPP (h : Nat) : FRef := ⟨rmstatus h, 11, 2⟩
def mstatus_FS (h : Nat) : FRef := ⟨rmstatus h, 13, 2⟩
def mstatus_MPRV (h : Nat) : FRef := ⟨rmstatus h, 17, 1⟩
def mstatus_SUM (h : Nat) : FRef := ⟨rmstatus h, 18, 1⟩
def mstatus_MXR (h : Nat) : FRef := ⟨rmstatus h, 19, 1⟩
def mstatus_TVM (h : Nat) : FRef := ⟨rmstatus h, 20, 1⟩
def mstatus_TW (h : Nat) : FRef := ⟨rmstatus h, 21, 1⟩
def mstatus_TSR (h : Nat) : FRef := ⟨rmstatus h, 22, 1⟩
def mstatus_UXL (h : Nat) : FRef := ⟨rmstatus h, 32, 2⟩
def mstatus_SXL (h : Nat) : FRef := ⟨rmstatus h, 34, 2⟩
def mstatus_GVA (h : Nat) : FRef := ⟨rmstatus h, 38, 1⟩
def mstatus_MPV (h : Nat) : FRef := ⟨rmstatus h, 39, 1⟩
/-- misa (spec/02_vale_cores.md). -/
def rmisa (h : Nat) : Nat := 0x10000000000 + h * 0x1000 + 0x301
def misa_VALUE (h : Nat) : FRef := ⟨rmisa h, 0, 64⟩
/-- medeleg (spec/02_vale_cores.md). -/
def rmedeleg (h : Nat) : Nat := 0x10000000000 + h * 0x1000 + 0x302
def medeleg_VALUE (h : Nat) : FRef := ⟨rmedeleg h, 0, 64⟩
/-- mideleg (spec/02_vale_cores.md). -/
def rmideleg (h : Nat) : Nat := 0x10000000000 + h * 0x1000 + 0x303
def mideleg_VALUE (h : Nat) : FRef := ⟨rmideleg h, 0, 64⟩
/-- mie (spec/02_vale_cores.md). -/
def rmie (h : Nat) : Nat := 0x10000000000 + h * 0x1000 + 0x304
def mie_VALUE (h : Nat) : FRef := ⟨rmie h, 0, 64⟩
/-- menvcfg (spec/02_vale_cores.md). -/
def rmenvcfg (h : Nat) : Nat := 0x10000000000 + h * 0x1000 + 0x30a
def menvcfg_VALUE (h : Nat) : FRef := ⟨rmenvcfg h, 0, 64⟩
/-- mstateenN (spec/02_vale_cores.md). -/
def rmstateenN (h i : Nat) : Nat := 0x10000000000 + h * 0x1000 + 0x30d + i * 0x1
def mstateenN_VALUE (h i : Nat) : FRef := ⟨rmstateenN h i, 0, 64⟩
/-- mscratch (spec/02_vale_cores.md). -/
def rmscratch (h : Nat) : Nat := 0x10000000000 + h * 0x1000 + 0x340
def mscratch_VALUE (h : Nat) : FRef := ⟨rmscratch h, 0, 64⟩
/-- mepc (spec/02_vale_cores.md). -/
def rmepc (h : Nat) : Nat := 0x10000000000 + h * 0x1000 + 0x341
def mepc_VALUE (h : Nat) : FRef := ⟨rmepc h, 0, 64⟩
/-- mcause (spec/02_vale_cores.md). -/
def rmcause (h : Nat) : Nat := 0x10000000000 + h * 0x1000 + 0x342
def mcause_VALUE (h : Nat) : FRef := ⟨rmcause h, 0, 64⟩
/-- mtval (spec/02_vale_cores.md). -/
def rmtval (h : Nat) : Nat := 0x10000000000 + h * 0x1000 + 0x343
def mtval_VALUE (h : Nat) : FRef := ⟨rmtval h, 0, 64⟩
/-- mip (spec/02_vale_cores.md). -/
def rmip (h : Nat) : Nat := 0x10000000000 + h * 0x1000 + 0x344
def mip_VALUE (h : Nat) : FRef := ⟨rmip h, 0, 64⟩
/-- mtinst (spec/02_vale_cores.md). -/
def rmtinst (h : Nat) : Nat := 0x10000000000 + h * 0x1000 + 0x34a
def mtinst_VALUE (h : Nat) : FRef := ⟨rmtinst h, 0, 64⟩
/-- mtval2 (spec/02_vale_cores.md). -/
def rmtval2 (h : Nat) : Nat := 0x10000000000 + h * 0x1000 + 0x34b
def mtval2_VALUE (h : Nat) : FRef := ⟨rmtval2 h, 0, 64⟩
/-- pmpcfg (spec/02_vale_cores.md). -/
def rpmpcfg (h i : Nat) : Nat := 0x10000000000 + h * 0x1000 + 0x3a0 + i * 0x2
def pmpcfg_VALUE (h i : Nat) : FRef := ⟨rpmpcfg h i, 0, 64⟩
/-- pmpaddr (spec/02_vale_cores.md). -/
def rpmpaddr (h i : Nat) : Nat := 0x10000000000 + h * 0x1000 + 0x3b0 + i * 0x1
def pmpaddr_VALUE (h i : Nat) : FRef := ⟨rpmpaddr h i, 0, 64⟩
/-- hstatus (spec/02_vale_cores.md). -/
def rhstatus (h : Nat) : Nat := 0x10000000000 + h * 0x1000 + 0x600
def hstatus_GVA (h : Nat) : FRef := ⟨rhstatus h, 6, 1⟩
def hstatus_SPV (h : Nat) : FRef := ⟨rhstatus h, 7, 1⟩
def hstatus_SPVP (h : Nat) : FRef := ⟨rhstatus h, 8, 1⟩
def hstatus_HU (h : Nat) : FRef := ⟨rhstatus h, 9, 1⟩
def hstatus_VGEIN (h : Nat) : FRef := ⟨rhstatus h, 12, 6⟩
def hstatus_VTVM (h : Nat) : FRef := ⟨rhstatus h, 20, 1⟩
def hstatus_VTW (h : Nat) : FRef := ⟨rhstatus h, 21, 1⟩
def hstatus_VTSR (h : Nat) : FRef := ⟨rhstatus h, 22, 1⟩
def hstatus_VSXL (h : Nat) : FRef := ⟨rhstatus h, 32, 2⟩
/-- hedeleg (spec/02_vale_cores.md). -/
def rhedeleg (h : Nat) : Nat := 0x10000000000 + h * 0x1000 + 0x602
def hedeleg_VALUE (h : Nat) : FRef := ⟨rhedeleg h, 0, 64⟩
/-- hideleg (spec/02_vale_cores.md). -/
def rhideleg (h : Nat) : Nat := 0x10000000000 + h * 0x1000 + 0x603
def hideleg_VALUE (h : Nat) : FRef := ⟨rhideleg h, 0, 64⟩
/-- hie (spec/02_vale_cores.md). -/
def rhie (h : Nat) : Nat := 0x10000000000 + h * 0x1000 + 0x604
def hie_VALUE (h : Nat) : FRef := ⟨rhie h, 0, 64⟩
/-- htimedelta (spec/02_vale_cores.md). -/
def rhtimedelta (h : Nat) : Nat := 0x10000000000 + h * 0x1000 + 0x605
def htimedelta_VALUE (h : Nat) : FRef := ⟨rhtimedelta h, 0, 64⟩
/-- hgeie (spec/02_vale_cores.md). -/
def rhgeie (h : Nat) : Nat := 0x10000000000 + h * 0x1000 + 0x607
def hgeie_VALUE (h : Nat) : FRef := ⟨rhgeie h, 0, 64⟩
/-- henvcfg (spec/02_vale_cores.md). -/
def rhenvcfg (h : Nat) : Nat := 0x10000000000 + h * 0x1000 + 0x60a
def henvcfg_VALUE (h : Nat) : FRef := ⟨rhenvcfg h, 0, 64⟩
/-- hstateen (spec/02_vale_cores.md). -/
def rhstateen (h i : Nat) : Nat := 0x10000000000 + h * 0x1000 + 0x60c + i * 0x1
def hstateen_VALUE (h i : Nat) : FRef := ⟨rhstateen h i, 0, 64⟩
/-- htval (spec/02_vale_cores.md). -/
def rhtval (h : Nat) : Nat := 0x10000000000 + h * 0x1000 + 0x643
def htval_VALUE (h : Nat) : FRef := ⟨rhtval h, 0, 64⟩
/-- hvip (spec/02_vale_cores.md). -/
def rhvip (h : Nat) : Nat := 0x10000000000 + h * 0x1000 + 0x645
def hvip_VALUE (h : Nat) : FRef := ⟨rhvip h, 0, 64⟩
/-- htinst (spec/02_vale_cores.md). -/
def rhtinst (h : Nat) : Nat := 0x10000000000 + h * 0x1000 + 0x64a
def htinst_VALUE (h : Nat) : FRef := ⟨rhtinst h, 0, 64⟩
/-- hgatp (spec/02_vale_cores.md). -/
def rhgatp (h : Nat) : Nat := 0x10000000000 + h * 0x1000 + 0x680
def hgatp_VALUE (h : Nat) : FRef := ⟨rhgatp h, 0, 64⟩
/-- mnscratch (spec/02_vale_cores.md). -/
def rmnscratch (h : Nat) : Nat := 0x10000000000 + h * 0x1000 + 0x740
def mnscratch_VALUE (h : Nat) : FRef := ⟨rmnscratch h, 0, 64⟩
/-- mvendorid (spec/02_vale_cores.md). -/
def rmvendorid (h : Nat) : Nat := 0x10000000000 + h * 0x1000 + 0xf11
def mvendorid_VALUE (h : Nat) : FRef := ⟨rmvendorid h, 0, 64⟩
/-- marchid (spec/02_vale_cores.md). -/
def rmarchid (h : Nat) : Nat := 0x10000000000 + h * 0x1000 + 0xf12
def marchid_VALUE (h : Nat) : FRef := ⟨rmarchid h, 0, 64⟩
/-- mimpid (spec/02_vale_cores.md). -/
def rmimpid (h : Nat) : Nat := 0x10000000000 + h * 0x1000 + 0xf13
def mimpid_VALUE (h : Nat) : FRef := ⟨rmimpid h, 0, 64⟩
/-- mhartid (spec/02_vale_cores.md). -/
def rmhartid (h : Nat) : Nat := 0x10000000000 + h * 0x1000 + 0xf14
def mhartid_VALUE (h : Nat) : FRef := ⟨rmhartid h, 0, 64⟩
/-- pc (spec/02_vale_cores.md). -/
def rpc (h : Nat) : Nat := 0x10000000000 + h * 0x1000 + 0xfff
def pc_VALUE (h : Nat) : FRef := ⟨rpc h, 0, 64⟩

end R

/-- Rows of the map. -/
def regTable0 : List RegDesc := [
  ⟨.PKG_IDENT, 0x0, [], 0x0, 0x0, 0xc201093844947⟩,
  ⟨.PKG_SERIAL, 0x8, [], 0x0, 0x0, 0x0⟩,
  ⟨.PKG_NODE, 0x10, [], 0x0, 0x0, 0x0⟩,
  ⟨.PKG_DIES, 0x18, [], 0x0, 0x0, 0xf00000000⟩,
  ⟨.PKG_CORE_ONLINE, 0x20, [(0x8, 6)], 0x0, 0x0, 0x0⟩,
  ⟨.PKG_MEMMAP, 0x50, [], 0x0, 0x0, 0xf000000000⟩,
  ⟨.PKG_DECODE_ERR, 0x58, [], 0x0, 0x3, 0x0⟩,
  ⟨.PKG_DECODE_ADDR, 0x60, [], 0x0, 0x0, 0x0⟩,
  ⟨.VALE_CORE_CTL, 0x1080000, [(0x100000, 12), (0x40, 32)], 0x0, 0x0, 0x0⟩,
  ⟨.VALE_CORE_STATUS, 0x1080008, [(0x100000, 12), (0x40, 32)], 0x0, 0x10, 0x2⟩,
  ⟨.VALE_CORE_RESET_PC, 0x1080010, [(0x100000, 12), (0x40, 32)], 0xfffffffffffffe, 0x0, 0x0⟩,
  ⟨.VALE_CORE_NMI_PC, 0x1080018, [(0x100000, 12), (0x40, 32)], 0xffffffffffffc0, 0x0, 0x0⟩,
  ⟨.VALE_DIE_STATUS, 0x1000000, [(0x100000, 12)], 0x0, 0x0, 0x0⟩,
  ⟨.VALE_L2_CTL, 0x1010000, [(0x100000, 12), (0x10, 32)], 0xffff, 0x0, 0x0⟩,
  ⟨.VALE_L2_STATUS, 0x1010008, [(0x100000, 12), (0x10, 32)], 0x0, 0x0, 0x0⟩,
  ⟨.VALE_VC_CTL, 0x1020000, [(0x100000, 12), (0x40, 16)], 0x1ffff, 0x0, 0x0⟩,
  ⟨.VALE_VC_STATUS, 0x1020008, [(0x100000, 12), (0x40, 16)], 0x0, 0x0, 0x0⟩,
  ⟨.VALE_SF_STATUS, 0x1040000, [(0x100000, 12), (0x10, 16)], 0x0, 0x0, 0x0⟩,
  ⟨.HOME_DIRCFG, 0x2000000, [(0x10000, 16)], 0x3, 0x0, 0x3⟩,
  ⟨.HOME_DIR_STATUS, 0x2000008, [(0x10000, 16)], 0x0, 0x0, 0x0⟩,
  ⟨.HOME_RPT_STATUS, 0x2000010, [(0x10000, 16)], 0x0, 0x0, 0x0⟩,
  ⟨.HOME_RLD_STATUS, 0x2000018, [(0x10000, 16)], 0x0, 0x0, 0x0⟩,
  ⟨.HOME_LOCKS, 0x2000020, [(0x10000, 16)], 0x0, 0x0, 0x0⟩,
  ⟨.HOME_BCAST, 0x2000028, [(0x10000, 16)], 0x0, 0x0, 0x0⟩,
  ⟨.HOME_PROTO_ERR, 0x2000030, [(0x10000, 16)], 0x0, 0x3, 0x0⟩,
  ⟨.HOME_PROTO_ADDR, 0x2000038, [(0x10000, 16)], 0x0, 0x0, 0x0⟩,
  ⟨.HOME_ARB, 0x2000100, [(0x10000, 16)], 0x0, 0x0, 0x0⟩,
  ⟨.HOME_RETRY_CTL, 0x2000108, [(0x10000, 16)], 0x3, 0x0, 0x0⟩,
  ⟨.HOME_TOKEN_FREE, 0x2000110, [(0x10000, 16), (0x8, 4)], 0x0, 0x0, 0xffffffffffffffff⟩,
  ⟨.HOME_TOKEN_COUNTS, 0x2000130, [(0x10000, 16)], 0x0, 0x0, 0x0⟩,
  ⟨.HOME_OWED, 0x2000138, [(0x10000, 16)], 0x0, 0x0, 0x0⟩,
  ⟨.HOME_RETRY_STATS, 0x2000140, [(0x10000, 16)], 0x0, 0x0, 0x0⟩,
  ⟨.HOME_GRANT_STATS, 0x2000148, [(0x10000, 16)], 0x0, 0x0, 0x0⟩,
  ⟨.HOME_WB_HELD, 0x2000150, [(0x10000, 16)], 0x0, 0x0, 0x0⟩,
  ⟨.HOME_TOKEN_ERR, 0x2000158, [(0x10000, 16)], 0x0, 0x3, 0x0⟩,
  ⟨.PASS_STATUS, 0x2300000, [(0x10000, 24)], 0x0, 0x0, 0x30⟩,
  ⟨.PASS_STATUS, 0x1060000, [(0x100000, 12), (0x10000, 2)], 0x0, 0x0, 0x30⟩,
  ⟨.PASS_EVENT, 0x2300010, [(0x10000, 24)], 0x0, 0xff, 0x0⟩,
  ⟨.PASS_EVENT, 0x1060010, [(0x100000, 12), (0x10000, 2)], 0x0, 0xff, 0x0⟩,
  ⟨.PASS_LANE_SEL, 0x2300038, [(0x10000, 24)], 0xff, 0x0, 0x0⟩]

/-- Rows of the map. -/
def regTable1 : List RegDesc := [
  ⟨.PASS_LANE_SEL, 0x1060038, [(0x100000, 12), (0x10000, 2)], 0xff, 0x0, 0x0⟩,
  ⟨.PASS_LANE_INFO, 0x2300040, [(0x10000, 24)], 0x0, 0x0, 0x1ff⟩,
  ⟨.PASS_LANE_INFO, 0x1060040, [(0x100000, 12), (0x10000, 2)], 0x0, 0x0, 0x1ff⟩,
  ⟨.PASS_LINK_STATS, 0x2300048, [(0x10000, 24)], 0x0, 0x0, 0x0⟩,
  ⟨.PASS_LINK_STATS, 0x1060048, [(0x100000, 12), (0x10000, 2)], 0x0, 0x0, 0x0⟩,
  ⟨.PASS_TRAIN_INFO, 0x2300050, [(0x10000, 24)], 0x0, 0x0, 0x3020000000000⟩,
  ⟨.PASS_TRAIN_INFO, 0x1060050, [(0x100000, 12), (0x10000, 2)], 0x0, 0x0, 0x3020000000000⟩,
  ⟨.PASS_SEQ_INFO, 0x2300058, [(0x10000, 24)], 0x0, 0x0, 0x0⟩,
  ⟨.PASS_SEQ_INFO, 0x1060058, [(0x100000, 12), (0x10000, 2)], 0x0, 0x0, 0x0⟩,
  ⟨.PASS_CTL, 0x2300008, [(0x10000, 24)], 0xc, 0x0, 0x0⟩,
  ⟨.PASS_RX_GOOD_LO, 0x2300018, [(0x10000, 24)], 0x0, 0x0, 0x0⟩,
  ⟨.PASS_RX_GOOD_LO, 0x1060018, [(0x100000, 12), (0x10000, 2)], 0x0, 0x0, 0x0⟩,
  ⟨.PASS_RX_GOOD_HI, 0x2300020, [(0x10000, 24)], 0x0, 0x0, 0x0⟩,
  ⟨.PASS_RX_GOOD_HI, 0x1060020, [(0x100000, 12), (0x10000, 2)], 0x0, 0x0, 0x0⟩,
  ⟨.PASS_TX_GOOD_LO, 0x2300028, [(0x10000, 24)], 0x0, 0x0, 0x0⟩,
  ⟨.PASS_TX_GOOD_LO, 0x1060028, [(0x100000, 12), (0x10000, 2)], 0x0, 0x0, 0x0⟩,
  ⟨.PASS_TX_GOOD_HI, 0x2300030, [(0x10000, 24)], 0x0, 0x0, 0x0⟩,
  ⟨.PASS_TX_GOOD_HI, 0x1060030, [(0x100000, 12), (0x10000, 2)], 0x0, 0x0, 0x0⟩,
  ⟨.PASS_CREDIT, 0x2300060, [(0x10000, 24), (0x8, 6)], 0x0, 0x0, 0x0⟩,
  ⟨.PASS_CREDIT, 0x1060060, [(0x100000, 12), (0x10000, 2), (0x8, 6)], 0x0, 0x0, 0x0⟩,
  ⟨.PASS_RX_MAP, 0x2300100, [(0x10000, 24), (0x8, 8)], 0x0, 0x0, 0x7f7f7f7f7f7f7f7f⟩,
  ⟨.PASS_RX_MAP, 0x1060100, [(0x100000, 12), (0x10000, 2), (0x8, 8)], 0x0, 0x0, 0x7f7f7f7f7f7f7f7f⟩,
  ⟨.PASS_TX_MAP, 0x2300140, [(0x10000, 24), (0x8, 8)], 0x0, 0x0, 0x7f7f7f7f7f7f7f7f⟩,
  ⟨.PASS_TX_MAP, 0x1060140, [(0x100000, 12), (0x10000, 2), (0x8, 8)], 0x0, 0x0, 0x7f7f7f7f7f7f7f7f⟩,
  ⟨.MC_CH_STATUS, 0x2100000, [(0x10000, 16)], 0x0, 0x0, 0x1f1⟩,
  ⟨.MC_CH_CONFIG, 0x2100008, [(0x10000, 16)], 0x0, 0x0, 0x0⟩,
  ⟨.MC_MARK, 0x2100010, [(0x10000, 16), (0x8, 2)], 0x0, 0x0, 0xffffffffffffffff⟩,
  ⟨.MC_ERR_STATS, 0x2100020, [(0x10000, 16)], 0x0, 0x0, 0x0⟩,
  ⟨.MC_EVENT, 0x2100028, [(0x10000, 16)], 0x0, 0x3f, 0x0⟩,
  ⟨.MC_COPY_CTL, 0x2100040, [(0x10000, 16)], 0xf2, 0x0, 0x52⟩,
  ⟨.MC_COPY_STATUS, 0x2100048, [(0x10000, 16)], 0x0, 0x20000000000, 0xf000000000000⟩,
  ⟨.MC_FILL_STATUS, 0x2100050, [(0x10000, 16)], 0x0, 0x0, 0x0⟩,
  ⟨.MC_SAN_STATUS, 0x2100080, [(0x10000, 16)], 0x0, 0x0, 0x0⟩,
  ⟨.MC_SAN_BASE, 0x2100088, [(0x10000, 16)], 0x0, 0x0, 0x0⟩,
  ⟨.MC_SAN_LENGTH, 0x2100090, [(0x10000, 16)], 0x0, 0x0, 0x0⟩,
  ⟨.MC_SAN_PROGRESS, 0x2100098, [(0x10000, 16)], 0x0, 0x0, 0x0⟩,
  ⟨.MESA_STATUS, 0x2200000, [(0x10000, 16)], 0x0, 0x0, 0x100010⟩,
  ⟨.MESA_CTL, 0x2200008, [(0x10000, 16)], 0x7, 0x0, 0x0⟩,
  ⟨.MESA_INV, 0x2200010, [(0x10000, 16)], 0x0, 0x0, 0x0⟩,
  ⟨.MESA_WAY_CTL, 0x2200018, [(0x10000, 16)], 0xffff, 0x0, 0x0⟩]

/-- Rows of the map. -/
def regTable2 : List RegDesc := [
  ⟨.MESA_WAY_STATUS, 0x2200020, [(0x10000, 16)], 0x0, 0x0, 0x0⟩,
  ⟨.MESA_OCCUPANCY, 0x2200028, [(0x10000, 16)], 0x0, 0x0, 0x0⟩,
  ⟨.MESA_ERR_STATS, 0x2200030, [(0x10000, 16)], 0x0, 0x0, 0x0⟩,
  ⟨.MESA_EVENT, 0x2200038, [(0x10000, 16)], 0x0, 0x1f, 0x0⟩,
  ⟨.MESA_FILL_STATS, 0x2200040, [(0x10000, 16)], 0x0, 0x0, 0x0⟩,
  ⟨.QOS_CAPS, 0x700000, [], 0x0, 0x0, 0x80104000400⟩,
  ⟨.QOS_IOMMU_ID, 0x700008, [], 0x3ff03ff, 0x0, 0x0⟩,
  ⟨.QOS_RPRT_ID, 0x700100, [(0x8, 32)], 0x3ff03ff, 0x0, 0x0⟩,
  ⟨.QOS_FN_ID, 0x710000, [(0x8, 2049)], 0x3ff03ff, 0x0, 0x0⟩,
  ⟨.METER_CTL, 0x500000, [], 0x3, 0x0, 0x0⟩,
  ⟨.METER_STATUS, 0x500008, [], 0x0, 0x20, 0x0⟩,
  ⟨.METER_RING_BASE, 0x500010, [], 0xfffffffffff000, 0x0, 0x0⟩,
  ⟨.METER_RING_SIZE, 0x500018, [], 0x1f, 0x0, 0xb⟩,
  ⟨.METER_RING_PROD, 0x500020, [], 0x0, 0x0, 0x0⟩,
  ⟨.METER_RING_CONS, 0x500028, [], 0xffffffff, 0x0, 0x0⟩,
  ⟨.METER_MSI_ADDR, 0x500030, [], 0xfffffffffffffc, 0x0, 0x0⟩,
  ⟨.METER_MSI_DATA, 0x500038, [], 0xffffffff, 0x0, 0x0⟩,
  ⟨.METER_LAST, 0x500040, [], 0x0, 0x0, 0x0⟩,
  ⟨.HZN_STATUS, 0x2500000, [(0x10000, 8)], 0x0, 0x0, 0x30⟩,
  ⟨.HZN_CTL, 0x2500008, [(0x10000, 8)], 0x1f1, 0x0, 0x0⟩,
  ⟨.HZN_EVENT, 0x2500010, [(0x10000, 8)], 0x0, 0x1ff, 0x0⟩,
  ⟨.HZN_PARTNER, 0x2500018, [(0x10000, 8)], 0x0, 0x0, 0x0⟩,
  ⟨.HZN_PARTNER_SERIAL, 0x2500020, [(0x10000, 8)], 0x0, 0x0, 0x0⟩,
  ⟨.HZN_LANES, 0x2500028, [(0x10000, 8)], 0x0, 0x0, 0x0⟩,
  ⟨.HZN_LINK_STATS, 0x2500030, [(0x10000, 8)], 0x0, 0x0, 0x0⟩,
  ⟨.HZN_DROP_STATS, 0x2500038, [(0x10000, 8)], 0x0, 0x0, 0x0⟩,
  ⟨.HZN_TRAIN_INFO, 0x2500040, [(0x10000, 8)], 0x0, 0x0, 0x3020000000000⟩,
  ⟨.HZN_TIME_ASYM, 0x2500060, [(0x10000, 8)], 0xffffffff, 0x0, 0x0⟩,
  ⟨.HZN_TIME_OFFSET, 0x2500068, [(0x10000, 8)], 0x0, 0x0, 0x0⟩,
  ⟨.HZN_LANE_STATS, 0x2500080, [(0x10000, 8), (0x8, 8)], 0x0, 0x0, 0x0⟩,
  ⟨.HZN_CREDIT, 0x2500100, [(0x10000, 8), (0x8, 16)], 0x0, 0x0, 0x0⟩,
  ⟨.ROUTE_ISLAND_CTL, 0x2600000, [], 0x1fffff, 0x0, 0x0⟩,
  ⟨.ROUTE_ISLAND_STATUS, 0x2600008, [], 0x0, 0x4, 0x0⟩,
  ⟨.ROUTE_TIMEOUT, 0x2600010, [], 0x3fff, 0x0, 0x1215⟩,
  ⟨.ROUTE_STATS, 0x2600018, [], 0x0, 0x0, 0x0⟩,
  ⟨.ROUTE_MEMBER, 0x2600100, [(0x8, 32)], 0xfff, 0x400000, 0x0⟩,
  ⟨.ROUTE_ENTRY, 0x2610000, [(0x8, 4096)], 0xffff01, 0x0, 0x0⟩,
  ⟨.XCE_IDENT, 0x100000000, [], 0x0, 0x0, 0x10000880010⟩,
  ⟨.XCE_STATUS, 0x100000008, [], 0x0, 0x0, 0x0⟩,
  ⟨.XCE_RESET_CTL, 0x100000010, [], 0x3, 0x0, 0x2⟩]

/-- Rows of the map. -/
def regTable3 : List RegDesc := [
  ⟨.XCE_VF_STATE, 0x100000018, [], 0x0, 0x0, 0x0⟩,
  ⟨.XCE_EVENT, 0x100000020, [], 0x0, 0x3f, 0x0⟩,
  ⟨.XCE_EVENT_EN, 0x100000028, [], 0x3f, 0x0, 0x0⟩,
  ⟨.XCE_ATC_CTL, 0x100000030, [], 0x1ffff, 0x0, 0x1000⟩,
  ⟨.XCE_ATC_STATS, 0x100000038, [], 0x0, 0x0, 0x0⟩,
  ⟨.XCE_ATC_OCCUPANCY, 0x100000040, [], 0x0, 0x0, 0x0⟩,
  ⟨.XCE_FN_DRAINING, 0x100000100, [(0x8, 33)], 0x0, 0x0, 0x0⟩,
  ⟨.QP_SQ_DB, 0x100010000, [(0x1000, 8)], 0xffffffff, 0x0, 0x0⟩,
  ⟨.QP_SQ_DB, 0x200000000, [(0x10000, 2049), (0x1000, 8)], 0xffffffff, 0x0, 0x0⟩,
  ⟨.QP_CQ_DB, 0x100010008, [(0x1000, 8)], 0xffffffff, 0x0, 0x0⟩,
  ⟨.QP_CQ_DB, 0x200000008, [(0x10000, 2049), (0x1000, 8)], 0xffffffff, 0x0, 0x0⟩,
  ⟨.QP_RQ_DB, 0x100010010, [(0x1000, 8)], 0xffffffff, 0x0, 0x0⟩,
  ⟨.QP_RQ_DB, 0x200000010, [(0x10000, 2049), (0x1000, 8)], 0xffffffff, 0x0, 0x0⟩,
  ⟨.QP_CTL, 0x100010040, [(0x1000, 8)], 0x7, 0x0, 0x0⟩,
  ⟨.QP_CTL, 0x200000040, [(0x10000, 2049), (0x1000, 8)], 0x7, 0x0, 0x0⟩,
  ⟨.QP_SQ_BASE, 0x100010048, [(0x1000, 8)], 0xfffffffffffff000, 0x0, 0x0⟩,
  ⟨.QP_SQ_BASE, 0x200000048, [(0x10000, 2049), (0x1000, 8)], 0xfffffffffffff000, 0x0, 0x0⟩,
  ⟨.QP_CQ_BASE, 0x100010050, [(0x1000, 8)], 0xfffffffffffff000, 0x0, 0x0⟩,
  ⟨.QP_CQ_BASE, 0x200000050, [(0x10000, 2049), (0x1000, 8)], 0xfffffffffffff000, 0x0, 0x0⟩,
  ⟨.QP_RQ_BASE, 0x100010058, [(0x1000, 8)], 0xfffffffffffff000, 0x0, 0x0⟩,
  ⟨.QP_RQ_BASE, 0x200000058, [(0x10000, 2049), (0x1000, 8)], 0xfffffffffffff000, 0x0, 0x0⟩,
  ⟨.QP_SIZES, 0x100010060, [(0x1000, 8)], 0x1f1f1f, 0x0, 0x40404⟩,
  ⟨.QP_SIZES, 0x200000060, [(0x10000, 2049), (0x1000, 8)], 0x1f1f1f, 0x0, 0x40404⟩,
  ⟨.QP_IRQ, 0x100010068, [(0x1000, 8)], 0xff00ffffbf, 0x0, 0x0⟩,
  ⟨.QP_IRQ, 0x200000068, [(0x10000, 2049), (0x1000, 8)], 0xff00ffffbf, 0x0, 0x0⟩,
  ⟨.QP_STATUS, 0x100010080, [(0x1000, 8)], 0x0, 0x0, 0x0⟩,
  ⟨.QP_STATUS, 0x200000080, [(0x10000, 2049), (0x1000, 8)], 0x0, 0x0, 0x0⟩,
  ⟨.QP_SQ_HEAD, 0x100010088, [(0x1000, 8)], 0x0, 0x0, 0x0⟩,
  ⟨.QP_SQ_HEAD, 0x200000088, [(0x10000, 2049), (0x1000, 8)], 0x0, 0x0, 0x0⟩,
  ⟨.QP_CQ_TAIL, 0x100010090, [(0x1000, 8)], 0x0, 0x0, 0x0⟩,
  ⟨.QP_CQ_TAIL, 0x200000090, [(0x10000, 2049), (0x1000, 8)], 0x0, 0x0, 0x0⟩,
  ⟨.QP_RQ_HEAD, 0x100010098, [(0x1000, 8)], 0x0, 0x0, 0x0⟩,
  ⟨.QP_RQ_HEAD, 0x200000098, [(0x10000, 2049), (0x1000, 8)], 0x0, 0x0, 0x0⟩,
  ⟨.XCE_VF_INFO, 0x200008000, [(0x10000, 2049)], 0x0, 0x0, 0x8000⟩,
  ⟨.XCE_VF_WIN_FAULTS, 0x200008008, [(0x10000, 2049)], 0x0, 0x0, 0x0⟩,
  ⟨.XCE_FN_SHARE, 0x100100000, [(0x100, 2049)], 0xfffff, 0x0, 0x10⟩,
  ⟨.XCE_FN_OWIN, 0x100100008, [(0x100, 2049)], 0xf3fff, 0x0, 0x0⟩,
  ⟨.XCE_FN_ARB, 0x100100010, [(0x100, 2049)], 0x0, 0x0, 0x0⟩,
  ⟨.XCE_WIN_SHADOW, 0x100400000, [(0x8, 8)], 0xffffffffffffffff, 0x0, 0x0⟩,
  ⟨.XCE_WIN_COMMIT, 0x100400040, [], 0x0, 0x0, 0x0⟩]

/-- Rows of the map. -/
def regTable4 : List RegDesc := [
  ⟨.XCE_WIN_STATUS, 0x100400048, [], 0x0, 0x0, 0x1⟩,
  ⟨.RPRT_STATUS, 0x2700000, [(0x10000, 32)], 0x0, 0x40, 0x0⟩,
  ⟨.RPRT_CTL, 0x2700008, [(0x10000, 32)], 0xf, 0x0, 0x4⟩,
  ⟨.RPRT_CXL_REGION, 0x2700010, [(0x10000, 32)], 0x1fff0fff, 0x0, 0x0⟩,
  ⟨.RPRT_EVENT, 0x2700018, [(0x10000, 32)], 0x0, 0x7, 0x0⟩,
  ⟨.RPRT_ERR, 0x2700020, [(0x10000, 32)], 0x0, 0x3, 0x0⟩,
  ⟨.IOMMU_MSI_DROPS, 0x2901000, [], 0x0, 0x0, 0x0⟩,
  ⟨.RAS_AGG_CTL, 0x600000, [], 0x3ff, 0x0, 0x0⟩,
  ⟨.RAS_MSI_ADDR, 0x600008, [], 0xfffffffffffffc, 0x0, 0x0⟩,
  ⟨.RAS_MSI_DATA, 0x600010, [], 0xffffffff, 0x0, 0x0⟩,
  ⟨.RAS_PATROL_CTL, 0x600018, [], 0x3ffff, 0x0, 0xa18⟩,
  ⟨.RAS_PATROL_STATUS, 0x600020, [], 0x0, 0x0, 0x0⟩,
  ⟨.RAS_BANK_VALID, 0x600040, [(0x8, 8)], 0x0, 0x0, 0x0⟩,
  ⟨.RAS_BUCKET_CFG, 0x600100, [(0x8, 15)], 0xffffffff07, 0x0, 0x0⟩,
  ⟨.MBOX_STATUS, 0x200000, [], 0x0, 0x60, 0x0⟩,
  ⟨.MBOX_TX_CTL, 0x200008, [], 0x0, 0x0, 0x0⟩,
  ⟨.MBOX_RX_INFO, 0x200010, [], 0x0, 0x0, 0x0⟩,
  ⟨.MBOX_RX_CTL, 0x200018, [], 0x0, 0x0, 0x0⟩,
  ⟨.MBOX_IRQ_CTL, 0x200020, [], 0x1, 0x0, 0x0⟩,
  ⟨.MBOX_MSI_ADDR, 0x200028, [], 0xfffffffffffffc, 0x0, 0x0⟩,
  ⟨.MBOX_MSI_DATA, 0x200030, [], 0xffffffff, 0x0, 0x0⟩,
  ⟨.MBOX_MSL_STATS, 0x200038, [], 0x0, 0x0, 0x0⟩,
  ⟨.MBOX_TX_BUF, 0x210000, [(0x8, 514)], 0xffffffffffffffff, 0x0, 0x0⟩,
  ⟨.MBOX_RX_BUF, 0x220000, [(0x8, 514)], 0x0, 0x0, 0x0⟩,
  ⟨.PWR_LIMIT, 0x300000, [], 0x3ff, 0x0, 0x320⟩,
  ⟨.PWR_CTL, 0x300008, [], 0xff01, 0x0, 0x5f00⟩,
  ⟨.PWR_STATUS, 0x300010, [], 0x0, 0x0, 0x700000⟩,
  ⟨.PWR_ENERGY, 0x300018, [], 0x0, 0x0, 0x0⟩,
  ⟨.PWR_TEMP, 0x300020, [], 0x0, 0x100000000, 0x0⟩,
  ⟨.PWR_MESA_LEVEL, 0x300028, [], 0x0, 0x0, 0x0⟩,
  ⟨.PWR_MESA_THRESH, 0x300030, [], 0xffffff, 0x0, 0x615b55⟩,
  ⟨.TIME_NOW, 0x100000, [], 0x0, 0x0, 0x0⟩,
  ⟨.TIME_CTL, 0x100008, [], 0xff07, 0x0, 0x6404⟩,
  ⟨.TIME_STATUS, 0x100010, [], 0x0, 0x30, 0x0⟩,
  ⟨.TIME_NEXT_PPS, 0x100018, [], 0xffffffffffffffff, 0x0, 0x0⟩,
  ⟨.TIME_STEP_FWD, 0x100020, [], 0x0, 0x0, 0x0⟩,
  ⟨.TIME_OFFSET, 0x100028, [], 0x0, 0x0, 0x0⟩,
  ⟨.CCOL_CTL, 0x400000, [], 0x707, 0x8, 0x100⟩,
  ⟨.CCOL_STATUS, 0x400008, [], 0x0, 0x0, 0x0⟩,
  ⟨.CCOL_RING_BASE, 0x400010, [], 0xfffffffffff000, 0x0, 0x0⟩]

/-- Rows of the map. -/
def regTable5 : List RegDesc := [
  ⟨.CCOL_RING_SIZE, 0x400018, [], 0x1f, 0x0, 0x10⟩,
  ⟨.CCOL_RING_PROD, 0x400020, [], 0x0, 0x0, 0x0⟩,
  ⟨.CCOL_RING_CONS, 0x400028, [], 0xffffffff, 0x0, 0x0⟩,
  ⟨.CCOL_MSI_ADDR, 0x400030, [], 0xfffffffffffffc, 0x0, 0x0⟩,
  ⟨.CCOL_MSI_DATA, 0x400038, [], 0xffffffff, 0x0, 0x0⟩,
  ⟨.CCOL_BANK_EN, 0x400040, [(0x8, 6)], 0xffffffffffffffff, 0x0, 0x0⟩,
  ⟨.CCOL_OVF_PEND, 0x400080, [(0x8, 6)], 0x0, 0xffffffffffffffff, 0x0⟩,
  ⟨.CCOL_COUNT, 0x410000, [(0x200, 354), (0x10, 32)], 0xffffffffffff, 0x1000000000000, 0x0⟩,
  ⟨.CCOL_SELECT, 0x410008, [(0x200, 354), (0x10, 32)], 0x2fffff7ffff, 0x0, 0x0⟩,
  ⟨.CORE_PFCTL, 0x100000007c0, [(0x1000, 384)], 0xf, 0x0, 0x0⟩,
  ⟨.CORE_FREQ_REQ, 0x100000005c0, [(0x1000, 384)], 0x7f, 0x0, 0x40⟩,
  ⟨.CORE_FREQ_CUR, 0x10000000dc0, [(0x1000, 384)], 0x0, 0x0, 0x7040⟩,
  ⟨.srmcfg, 0x10000000181, [(0x1000, 384)], 0x3ff03ff, 0x0, 0x0⟩,
  ⟨.mtvec, 0x10000000305, [(0x1000, 384)], 0xffffffffffffffff, 0x0, 0x0⟩,
  ⟨.mnstatus, 0x10000000744, [(0x1000, 384)], 0x0, 0x0, 0x0⟩,
  ⟨.mnepc, 0x10000000741, [(0x1000, 384)], 0x0, 0x0, 0x0⟩,
  ⟨.mncause, 0x10000000742, [(0x1000, 384)], 0x0, 0x0, 0x0⟩,
  ⟨.mstateen0, 0x1000000030c, [(0x1000, 384)], 0xffffffffffffffff, 0x0, 0x0⟩,
  ⟨.mcycle, 0x10000000b00, [(0x1000, 384)], 0xffffffffffffffff, 0x0, 0x0⟩,
  ⟨.minstret, 0x10000000b02, [(0x1000, 384)], 0xffffffffffffffff, 0x0, 0x0⟩,
  ⟨.mhpmcounter, 0x10000000b03, [(0x1000, 384), (0x1, 16)], 0xffffffffffffffff, 0x0, 0x0⟩,
  ⟨.mhpmevent, 0x10000000323, [(0x1000, 384), (0x1, 16)], 0xffffffffffffffff, 0x0, 0x0⟩,
  ⟨.mcounteren, 0x10000000306, [(0x1000, 384)], 0xffffffffffffffff, 0x0, 0x0⟩,
  ⟨.hcounteren, 0x10000000606, [(0x1000, 384)], 0xffffffffffffffff, 0x0, 0x0⟩,
  ⟨.scounteren, 0x10000000106, [(0x1000, 384)], 0xffffffffffffffff, 0x0, 0x0⟩,
  ⟨.vstart, 0x10000000008, [(0x1000, 384)], 0xffffffffffffffff, 0x0, 0x0⟩,
  ⟨.vl, 0x10000000c20, [(0x1000, 384)], 0x0, 0x0, 0x0⟩,
  ⟨.stvec, 0x10000000105, [(0x1000, 384)], 0xffffffffffffffff, 0x0, 0x0⟩,
  ⟨.senvcfg, 0x1000000010a, [(0x1000, 384)], 0xffffffffffffffff, 0x0, 0x0⟩,
  ⟨.sstateen, 0x1000000010c, [(0x1000, 384), (0x1, 4)], 0xffffffffffffffff, 0x0, 0x0⟩,
  ⟨.sscratch, 0x10000000140, [(0x1000, 384)], 0xffffffffffffffff, 0x0, 0x0⟩,
  ⟨.sepc, 0x10000000141, [(0x1000, 384)], 0xffffffffffffffff, 0x0, 0x0⟩,
  ⟨.scause, 0x10000000142, [(0x1000, 384)], 0xffffffffffffffff, 0x0, 0x0⟩,
  ⟨.stval, 0x10000000143, [(0x1000, 384)], 0xffffffffffffffff, 0x0, 0x0⟩,
  ⟨.stimecmp, 0x1000000014d, [(0x1000, 384)], 0xffffffffffffffff, 0x0, 0x0⟩,
  ⟨.satp, 0x10000000180, [(0x1000, 384)], 0xffffffffffffffff, 0x0, 0x0⟩,
  ⟨.vsstatus, 0x10000000200, [(0x1000, 384)], 0xc6722, 0x0, 0x200000000⟩,
  ⟨.vstvec, 0x10000000205, [(0x1000, 384)], 0xffffffffffffffff, 0x0, 0x0⟩,
  ⟨.vsscratch, 0x10000000240, [(0x1000, 384)], 0xffffffffffffffff, 0x0, 0x0⟩,
  ⟨.vsepc, 0x10000000241, [(0x1000, 384)], 0xffffffffffffffff, 0x0, 0x0⟩]

/-- Rows of the map. -/
def regTable6 : List RegDesc := [
  ⟨.vscause, 0x10000000242, [(0x1000, 384)], 0xffffffffffffffff, 0x0, 0x0⟩,
  ⟨.vstval, 0x10000000243, [(0x1000, 384)], 0xffffffffffffffff, 0x0, 0x0⟩,
  ⟨.vstimecmp, 0x1000000024d, [(0x1000, 384)], 0xffffffffffffffff, 0x0, 0x0⟩,
  ⟨.vsatp, 0x10000000280, [(0x1000, 384)], 0xffffffffffffffff, 0x0, 0x0⟩,
  ⟨.mstatus, 0x10000000300, [(0x1000, 384)], 0xc0007e7faa, 0x0, 0xa00000000⟩,
  ⟨.misa, 0x10000000301, [(0x1000, 384)], 0x0, 0x0, 0x80000000003411af⟩,
  ⟨.medeleg, 0x10000000302, [(0x1000, 384)], 0xffffffffffffffff, 0x0, 0x0⟩,
  ⟨.mideleg, 0x10000000303, [(0x1000, 384)], 0xffffffffffffffff, 0x0, 0x0⟩,
  ⟨.mie, 0x10000000304, [(0x1000, 384)], 0xffffffffffffffff, 0x0, 0x0⟩,
  ⟨.menvcfg, 0x1000000030a, [(0x1000, 384)], 0xffffffffffffffff, 0x0, 0x0⟩,
  ⟨.mstateenN, 0x1000000030d, [(0x1000, 384), (0x1, 3)], 0xffffffffffffffff, 0x0, 0x0⟩,
  ⟨.mscratch, 0x10000000340, [(0x1000, 384)], 0xffffffffffffffff, 0x0, 0x0⟩,
  ⟨.mepc, 0x10000000341, [(0x1000, 384)], 0xffffffffffffffff, 0x0, 0x0⟩,
  ⟨.mcause, 0x10000000342, [(0x1000, 384)], 0xffffffffffffffff, 0x0, 0x0⟩,
  ⟨.mtval, 0x10000000343, [(0x1000, 384)], 0xffffffffffffffff, 0x0, 0x0⟩,
  ⟨.mip, 0x10000000344, [(0x1000, 384)], 0xffffffffffffffff, 0x0, 0x0⟩,
  ⟨.mtinst, 0x1000000034a, [(0x1000, 384)], 0xffffffffffffffff, 0x0, 0x0⟩,
  ⟨.mtval2, 0x1000000034b, [(0x1000, 384)], 0xffffffffffffffff, 0x0, 0x0⟩,
  ⟨.pmpcfg, 0x100000003a0, [(0x1000, 384), (0x2, 8)], 0xffffffffffffffff, 0x0, 0x0⟩,
  ⟨.pmpaddr, 0x100000003b0, [(0x1000, 384), (0x1, 64)], 0xffffffffffffffff, 0x0, 0x0⟩,
  ⟨.hstatus, 0x10000000600, [(0x1000, 384)], 0x73f3c0, 0x0, 0x200000000⟩,
  ⟨.hedeleg, 0x10000000602, [(0x1000, 384)], 0xffffffffffffffff, 0x0, 0x0⟩,
  ⟨.hideleg, 0x10000000603, [(0x1000, 384)], 0xffffffffffffffff, 0x0, 0x0⟩,
  ⟨.hie, 0x10000000604, [(0x1000, 384)], 0xffffffffffffffff, 0x0, 0x0⟩,
  ⟨.htimedelta, 0x10000000605, [(0x1000, 384)], 0xffffffffffffffff, 0x0, 0x0⟩,
  ⟨.hgeie, 0x10000000607, [(0x1000, 384)], 0xffffffffffffffff, 0x0, 0x0⟩,
  ⟨.henvcfg, 0x1000000060a, [(0x1000, 384)], 0xffffffffffffffff, 0x0, 0x0⟩,
  ⟨.hstateen, 0x1000000060c, [(0x1000, 384), (0x1, 4)], 0xffffffffffffffff, 0x0, 0x0⟩,
  ⟨.htval, 0x10000000643, [(0x1000, 384)], 0xffffffffffffffff, 0x0, 0x0⟩,
  ⟨.hvip, 0x10000000645, [(0x1000, 384)], 0xffffffffffffffff, 0x0, 0x0⟩,
  ⟨.htinst, 0x1000000064a, [(0x1000, 384)], 0xffffffffffffffff, 0x0, 0x0⟩,
  ⟨.hgatp, 0x10000000680, [(0x1000, 384)], 0xffffffffffffffff, 0x0, 0x0⟩,
  ⟨.mnscratch, 0x10000000740, [(0x1000, 384)], 0xffffffffffffffff, 0x0, 0x0⟩,
  ⟨.mvendorid, 0x10000000f11, [(0x1000, 384)], 0x0, 0x0, 0xc93⟩,
  ⟨.marchid, 0x10000000f12, [(0x1000, 384)], 0x0, 0x0, 0x8000000000009384⟩,
  ⟨.mimpid, 0x10000000f13, [(0x1000, 384)], 0x0, 0x0, 0x10⟩,
  ⟨.mhartid, 0x10000000f14, [(0x1000, 384)], 0x0, 0x0, 0x0⟩,
  ⟨.pc, 0x10000000fff, [(0x1000, 384)], 0x0, 0x0, 0x0⟩]

/-- The whole map. -/
def regTable : List RegDesc :=
  regTable0 ++ regTable1 ++ regTable2 ++ regTable3 ++ regTable4 ++ regTable5 ++ regTable6

/-- The indexes of an offset among the instances of a row, where it is one. -/
def regIndex : List (Nat × Nat) → Nat → Option (List Nat)
  | [], 0 => some []
  | [], _ => none
  | (st, n) :: ds, off =>
    if off / st < n then (regIndex ds (off % st)).map (off / st :: ·) else none

/-- The row that holds an address, and the instance's indexes. -/
def regFindIn : List RegDesc → Nat → Option (RegDesc × List Nat)
  | [], _ => none
  | d :: ds, a =>
    if a < d.base then regFindIn ds a
    else match regIndex d.dims (a - d.base) with
      | some ix => some (d, ix)
      | none => regFindIn ds a

/-- The register at an address. -/
def regFind (a : Nat) : Option (RegDesc × List Nat) := regFindIn regTable a

/-- The slots of one HZN receive buffer, by channel code (spec/10 R241). -/
def hznCapacity (code : Nat) : Nat :=
  [1024, 512, 1024, 3072, 1536, 2048, 512, 2048].getD (code / 2) 0

/-- The slots of one Pass receive buffer, by channel (spec/06 R152). -/
def passCapacity (v : Nat) : Nat := [512, 256, 512, 1920, 768, 64].getD v 0

/-- RATE, LIMIT and WINDOW code of each bucket class after POR (spec/14 R336). -/
def bucketDefault (k : Nat) : Nat := [0x1100205, 0x1001200205, 0x1001200205, 0x1001200205, 0x1001200205, 0x1001200205, 0x1001200205, 0x1080202, 0x1100402, 0x1400406, 0x1400805, 0x1a06000, 0x1080202, 0x1401005, 0x1001200205].getD k 0

/-- The value of a register after POR. Most rows give one value; a few depend on the instance. -/
def regReset (a : Nat) : Word :=
  match regFind a with
  | none => 0
  | some (d, ix) =>
    match d.id, ix with
    | .PKG_SERIAL, _ => Config.serial
    | .HZN_CREDIT, [_, c] => BitVec.ofNat 64 (d.reset + hznCapacity c <<< 32)
    | .PASS_CREDIT, [_, v] => BitVec.ofNat 64 (d.reset + passCapacity v <<< 32)
    | .PASS_CREDIT, [_, _, v] => BitVec.ofNat 64 (d.reset + passCapacity v <<< 32)
    | .RAS_BUCKET_CFG, [k] => BitVec.ofNat 64 (bucketDefault k)
    | .XCE_VF_INFO, [k, _] => BitVec.ofNat 64 (d.reset + k)
    | .XCE_VF_INFO, [k] => BitVec.ofNat 64 (d.reset + k)
    | .RPRT_STATUS, [i] => BitVec.ofNat 64 (if i % 4 = 0 then d.reset + 3 <<< 0 else d.reset)
    | _, _ => BitVec.ofNat 64 d.reset

end Sys2Proof.Machine
end

