-- ==== Sys2Proof/Machine/State.lean ====
section
/-!
DEFINITION. The state of the HQN-9384 as the spec gives it, as plain data, and the machine before power (State.reset).
Registers of every register table live in `State.regs`; the rest, which the spec gives as prose (caches, directories,
queues, messages in flight, engines), has structures of its own here. What is large is a `Tbl`, empty while every
entry is at its reset value.
-/

namespace Sys2Proof.Machine

/-! ## Cores (spec/02) -/

/-- What an access of a hart is (spec/02 R39, R48). -/
inductive AKind where
  | load | fetch | store | amo | lr | sc
  | prefetchI | prefetchR | prefetchW
  | cboClean | cboFlush | cboInvalAsFlush | cboInval | cboZero
  deriving DecidableEq, Repr

/-- A piece of a hart's access that waits for its line, or for the answer to a request (R52, R67). A piece lies
within one line; the pieces of one access share `id`. `off` and `len` place it in the line, `shift` is its first byte
in the access's value; `val` is the value to store, or what the pieces of a load have gathered. `asked` is set once a
request for it is outstanding. -/
structure Wait where
  id    : Nat
  kind  : AKind
  acc   : Access
  line  : Nat
  off   : Nat
  len   : Nat
  shift : Nat
  op    : Nat
  val   : Nat
  cmp   : Nat
  rcid  : Nat
  mcid  : Nat
  asked : Bool
  deriving DecidableEq, Repr

/-- How the last access of a hart ended (R51): a value, done, a trap with its cause, trap value and faulting element,
or a fault-only-first load shortened to `vl` elements. -/
inductive HartOut where
  | idle
  | value (v : Nat)
  | done
  | trap (cause tval : Nat) (elem : Option Nat)
  | shortVl (vl : Nat)
  deriving DecidableEq, Repr

/-- A hart's own state beside its CSRs: its reservation (the 64-byte granule's line address, R41), the pieces of
accesses that wait, oldest first, the number of the next access, the last outcome, whether the STOPPING command carried RETIRE (R55), the step a frequency change moves to (R54), an MMIO
read that waits for its completion and the root port it went to, none for a BAR2 window (spec/13 R318, spec/12 R302), whether the core was ONLINE, STARTING or RESETTING when its
die's last DIE_OFFLINE began (R58), the resumable NMIs held (R61), the part of a clock cycle that has
passed, in 1/80, and the local counter-overflow interrupt pending
(spec/18 R404). `mode` is the mode of the last access or trap, `held` a trap that waits for the hart's older accesses (its
cause, access and guest physical address, R52), `scFails` the failed SCs in a row (R41), `ramp` the ns of a voltage ramp still to come, and `slew`
those since the PLL last moved (R54). -/
structure HartSt where
  resv    : Option Nat := none
  waits   : List Wait := []
  nextId  : Nat := 0
  out     : HartOut := .idle
  retire  : Bool := false
  target  : Option Nat := none
  mmio    : Option (Access × Option RPort) := none
  wasUp   : Bool := false
  nmi     : List Nat := []
  lcofi   : Bool := false
  cyc     : Nat := 0
  mode    : Priv := .m
  held    : Option (Nat × Access × Nat) := none
  scFails : Nat := 0
  ramp    : Nat := 0
  slew    : Nat := 0
  deriving DecidableEq, Repr

/-- Permission of a cached copy (spec/04 R85). -/
inductive Moesi where | i | s | e | o | m
  deriving DecidableEq, Repr

/-- A way of an L1 (R42): valid, the line and, for the L1I, the bytes fetched. -/
structure L1Way where
  valid : Bool := false
  line  : Nat := 0
  data  : Line := 0
  deriving DecidableEq, Repr

/-- A way of an L2 (R42, R45): the line, its state, the 2-bit replacement value, the RCID and MCID that allocated it,
its bytes and the corrupt marker. -/
structure L2Way where
  st    : Moesi := .i
  line  : Nat := 0
  rrip  : Nat := 0
  rcid  : Nat := 0
  mcid  : Nat := 0
  data  : Line := 0
  bad   : Bool := false
  deriving DecidableEq, Repr

/-- The cores: harts by local hart; L1I and L1D ways and trees, L2 ways. Keys: L1 way (hart * 128 + set) * 8 + way, tree hart * 128 + set,
L2 way (hart * 2048 + set) * 16 + way. -/
structure CoreSt where
  harts : Tbl HartSt := []
  l1i   : Tbl L1Way := []
  l1d   : Tbl L1Way := []
  l1iPlru : Tbl Nat := []
  l1dPlru : Tbl Nat := []
  l2    : Tbl L2Way := []
  deriving DecidableEq, Repr

/-! ## Dies (spec/03) -/

/-- A way of the Vale cache (spec/03 R65, R66): the line, whether its bytes are newer than memory, the die state kept
here while no L2 of the die holds the line, the replacement value, the identifiers, the bytes and the marker. -/
structure VcWay where
  valid : Bool := false
  line  : Nat := 0
  dst   : Moesi := .i
  rrip  : Nat := 0
  rcid  : Nat := 0
  mcid  : Nat := 0
  data  : Line := 0
  bad   : Bool := false
  deriving DecidableEq, Repr

/-- A snoop-filter entry (R71). -/
structure SfWay where
  valid  : Bool := false
  line   : Nat := 0
  dst    : Moesi := .i
  pres   : Nat := 0
  owner  : Nat := 0
  ownerV : Bool := false
  deriving DecidableEq, Repr

/-- Where a request of an agent stands (spec/05 R129): sent, refused with a token, refused without one, or held behind
an earlier request for its line. -/
inductive ReqSt where | sent | tokened | parked | held
  deriving DecidableEq, Repr

/-- An outstanding request of a die agent, an entry of its request tracker (R63). -/
structure Trk where
  die  : Nat
  hart : Nat
  st   : ReqSt
  msg  : Msg
  deriving DecidableEq, Repr

/-- A line in a die's writeback buffer (R63, R70): the WB_DIRTY sent, and the unit whose flush sent it (R76). -/
structure WbEnt where
  die  : Nat
  msg  : Msg
  unit : Option FlushUnit
  deriving DecidableEq, Repr

/-- A flush-then-disable that runs (R76): the unit and the next index of its walk. -/
structure Walk where
  u  : FlushUnit
  ix : Nat
  deriving DecidableEq, Repr

/-- The phase of DIE_OFFLINE (R80): 0 none, 1 cores stopping, 2 flushing; and DIE_ONLINE (spec/15 R349): 3. `quiet`
says the die is quiescent, so that the Basin end answers its snoops. `lost` says it was lost (spec/06 R168), `ever` that it has
been online since POR (R58). -/
structure DieCtl where
  phase : Nat := 0
  quiet : Bool := false
  lost  : Bool := false
  ever  : Bool := false
  deriving DecidableEq, Repr

/-- The dies. Keys: Vale cache way ((die * 16 + slice) * 4096 + set) * 16 + way, snoop-filter way
((die * 16 + bank) * 4096 + set) * 24 + way, `ctl` by die. `filled` lists (die, line, until) of fills whose access may
still be under way (spec/05 R133), `held` the snoops held behind them, and `sweep` the (die, slice, set) whose lines are being
swept after the loss of a tag (spec/14 R330). -/
structure DieSt where
  vc     : Tbl VcWay := []
  sf     : Tbl SfWay := []
  trk    : List Trk := []
  wb     : List WbEnt := []
  walks  : List Walk := []
  ctl    : Tbl DieCtl := []
  filled : List (Nat × Nat × Nat) := []
  held   : List Msg := []
  sweep  : List (Nat × Nat × Nat) := []
  deriving DecidableEq, Repr

/-! ## Home slices and RLD proxies (spec/04, spec/05) -/

/-- A package directory entry (spec/04 R98). `state`: 0 FREE, 1 SHARED, 2 EXCL, 3 OWNED. -/
structure DirE where
  tag      : Nat := 0
  state    : Nat := 0
  presence : Nat := 0
  owner    : Nat := 0
  remote   : Bool := false
  nru      : Bool := false
  deriving DecidableEq, Repr

/-- A remote presence table entry (R100). `rstate`: 0 free, 1 RMT_SHARED, 2 RMT_EXCL, 3 RMT_OWNED. -/
structure RptE where
  tag     : Nat := 0
  members : Nat := 0
  rstate  : Nat := 0
  rowner  : Nat := 0
  nru     : Bool := false
  deriving DecidableEq, Repr

/-- A remote line directory entry (R101). `pstate`: 0 free, 1 S, 2 E or M, 3 O. -/
structure RldE where
  tag      : Nat := 0
  pstate   : Nat := 0
  presence : Nat := 0
  owner    : Nat := 0
  nru      : Bool := false
  deriving DecidableEq, Repr

/-- What a transaction that holds a line lock waits for next. -/
inductive HPhase where
  | start     -- a snoop or a writeback of the line that a proxy has under way (R139), before its entry is read
  | acks      -- the answers to its invalidating snoops
  | owner     -- the answer of the owner, and the data where the home is the target
  | memory    -- a memory read
  | way       -- a way of a set that is wholly locked (R110)
  | evicting  -- the recall of a victim line (R110)
  | remote    -- the remote home's reply (R115)
  | ready     -- COMMIT (R114)
  | store     -- a write that the channel controller holds (spec/07 R179)
  | close     -- CLOSE, or the WB_DIRTY of a forwarder (R136)
  deriving DecidableEq, Repr

/-- Why a lock is held. -/
inductive HWork where
  | request           -- for the request in `req`
  | recallFor (htag : Nat)   -- victim recall for that transaction
  | walk              -- a sweep recalls the line
  | patrol            -- the Drizzle patrol
  | sanitise          -- the sanitise engine overwrites the line (spec/07 R188)
  | extSnoop (htag : Nat)    -- a proxy serves a remote home's snoop, which carries that HTAG; it holds no lock
  | reserved (token : Nat)   -- reserved for a granted token (R131)
  | wbOut             -- a proxy clears the package's dies before it passes a writeback on (R139); it holds no lock
  deriving DecidableEq, Repr

/-- A lock slot in use (R94, R124), or what a proxy or a victim recall does without one (Machine/Home.lean). Holders are numbered: die d is d, island member i is 64 + i. -/
structure HTxn where
  line    : Nat
  proxy   : Bool
  work    : HWork
  req     : Msg
  phase   : HPhase
  invs    : Nat := 0            -- holders whose invalidating snoop is unanswered
  fwd     : Option (Nat × Nat) := none  -- owner holder and snoop opcode still to be answered
  sent    : Bool := false       -- the snoop of `fwd` has been sent
  toHome  : Bool := false       -- the snoop names the home as data target
  found   : Nat := 0            -- 0 free, 1 shared, 2 exclusive, 3 owned, as the lookup found the line
  answered : List (Nat × Nat) := [] -- holder, response opcode, of answers received
  newSt   : Nat := 0
  dataDue : Nat := 0            -- forwards to the home whose data has not arrived
  dataEarly : Nat := 0          -- data that arrived before its FWD_DONE
  got     : Option (Line × Bool) := none  -- data for the home, poisoned or not
  dirty   : Bool := false       -- it was DATA_M
  wbWait  : Option Nat := none  -- a forwarder whose WB_DIRTY is still to be answered (R136)
  closed  : Bool := false       -- CLOSE has arrived
  lost    : Bool := false       -- R435
  lostOwner : Nat := 0          -- the owner that lost the line
  bcast   : Bool := false       -- R119
  dsrc    : Nat := 2
  memOk   : Bool := false       -- `got` came from memory
  alloc   : Bool := false       -- its memory read allocates in the Mesa cache (spec/08 R198)
  way     : Option Nat := none  -- the way that its sector is to have there (spec/08 R201)
  mcid    : Nat := 0
  eGrant  : Bool := true        -- HOME_DIRCFG.E_GRANT when it locked (R123)
  done    : Bool := false       -- the reply has been sent
  fill    : Bool := false       -- an UPGRADE served as RD_OWN (R102)
  rst     : ReqSt := .sent      -- where a proxy's own request to the remote home stands
  quar    : Bool := false       -- a proxy request that timed out (spec/10 R259)
  reply   : Option Msg := none  -- the remote home's reply, while the package's other dies are invalidated
  since   : Nat := 0
  deriving DecidableEq, Repr

/-- A retry token's state (spec/05 R131). -/
inductive TokSt where | free | waitLine | waitPool | grantLine | grantUnbound
  deriving DecidableEq, Repr

/-- A retry token (R131). -/
structure Tok where
  st   : TokSt := .free
  line : Nat := 0
  txn  : Nat := 0
  seq  : Nat := 0
  pkg  : Nat := 0
  agent : Nat := 0
  slot : Option Nat := none
  deriving DecidableEq, Repr

/-- A writeback of the package in a proxy's buffer (R139): the slice, the die's message, if a die sent it, and the one
sent to the remote home. -/
structure PxWb where
  n    : Nat
  die  : Option Msg
  out  : Msg
  deriving DecidableEq, Repr

/-- A recall sweep that runs (R120, R168, R257, R314): the unit and the next index. -/
structure Sweep where
  u  : WalkUnit
  ix : Nat
  deriving DecidableEq, Repr

/-- The home slices and proxies. Keys: directory (n * 65536 + set) * 16 + way, RPT (n * 8192 + set) * 16 + way, RLD
(n * 16384 + set) * 16 + way, locks n * 512 + htag (and above, lockKey), tokens n * 256 + t. `owed` lists under n * 256 +
the first token of an agent's range who was refused without a token, oldest first (its length is OWED). `pxHeld` lists the
snoops of remote homes that wait at a proxy (R116, R133), `rootNext` the root port that input 33 of a slice searches first
(R125). `chHeld` lists the writes that a channel controller holds, by decode address (spec/07 R179, R185), oldest first, each with
the RCID whose tokens it waits for (spec/09 R220), and `parked` the answers that wait for them. -/
structure HomeSt where
  dir    : Tbl DirE := []
  rpt    : Tbl RptE := []
  rld    : Tbl RldE := []
  locks  : Tbl (Option HTxn) := []
  toks   : Tbl Tok := []
  owed   : Tbl (List (Nat × Nat)) := []
  rootNext : Tbl Nat := []
  tokSeq : Nat := 0
  wbHeld : List (Nat × Msg) := []
  bcast  : List Nat := []
  pxWb   : List PxWb := []
  sweeps : List Sweep := []
  pxHeld : List (Nat × Msg) := []
  chHeld : List (Nat × Option Line × Option Nat) := []
  parked : List Msg := []
  deriving DecidableEq, Repr

/-- What a coherent request of an I/O agent is for (R112): a device's request or an operation of the XCE (`off` bytes into
its data, `len` bytes from byte `lo` of the line), a record of a meter set, a line of a counter sweep. -/
inductive IoWhy where
  | device (op off lo len : Nat)
  | xce (op off lo len : Nat)
  | meter (i : Nat)
  | ccol (i : Nat)
  | iommu
  deriving DecidableEq, Repr

/-- A coherent request of the XCE agent or a root port: the message, its stream of ordered writes, what it is for,
where it stands, whether READY has come for an ordered write (R114), and whether it timed out and is quarantined (spec/10
R259). -/
structure IoReq where
  agent  : Nat
  msg    : Msg
  stream : Nat
  why    : IoWhy
  st     : ReqSt
  ready  : Bool := false
  quar   : Bool := false
  since  : Nat := 0
  deriving DecidableEq, Repr

/-- A request of a device below a root port in progress: the port, the routing ID, whether it wants an answer, the
bytes gathered, the lines outstanding, and whether every one ended well. -/
structure DmaOp where
  id   : Nat
  port : Nat
  rid  : Nat
  size : Nat
  ans  : Bool
  got  : Nat := 0
  left : Nat
  ok   : Bool := true
  deriving DecidableEq, Repr

/-- A completion sent to a device: the port, the routing ID, success, and the value. -/
structure DevCpl where
  port : Nat
  rid  : Nat
  ok   : Bool
  val  : Nat
  deriving DecidableEq, Repr

/-! ## Error records and buckets (spec/14) -/

/-- An error record (spec/14 R337, R338). `sev`: 0 CE, 1 UED, 2 UEC. -/
structure ErrRec where
  valid : Bool := false
  sev   : Nat := 0
  multi : Bool := false
  addr  : Nat := 0
  info  : Nat := 0
  suppl : Nat := 0
  time  : Nat := 0
  deriving DecidableEq, Repr

/-- The control fields of an error record (R339): logging enabled, and the signal each severity selects (0 none,
1 low priority, 2 high priority, 3 platform-specific). -/
structure ErrCtl where
  els  : Bool := true
  ces  : Nat := 1
  ueds : Nat := 1
  uecs : Nat := 2
  deriving DecidableEq, Repr

/-- An error bucket (R335): its level, whether the current window is over, how many windows before it were over in a
row, and whether it counts no more. -/
structure Bucket where
  level : Nat := 0
  hot  : Bool := false
  run   : Nat := 0
  done  : Bool := false
  deriving DecidableEq, Repr

/-- Error protection. Keys: records bank * 4 + i, buckets by `bucketKey`. `patrolDram` is the line each channel's
patrol reads next, and `cfgNow` the figures in force of each class (a write waits for the window boundary, R336). `patrolDone` is the
mask of channels that the pass in progress has read whole, `onchipNs` how long the on-chip pass has run (R333). `flaws` is
the inverted cells of on-chip blocks that no read has met yet (R324). -/
structure RasSt where
  recs    : Tbl ErrRec := []
  ctls    : Tbl ErrCtl := []
  buckets : Tbl Bucket := []
  patrolDram : Tbl Nat := []
  cfgNow  : Tbl Nat := []
  patrolDone : Nat := 0
  onchipNs : Nat := 0
  flaws   : List (ArrLoc × List (Nat × Nat)) := []
  deriving DecidableEq, Repr

/-! ## Thoiviyx (spec/15, spec/16) -/

/-- An entry of the event log (spec/15 R358). `detail` is bytes [59:24] as a little-endian number. -/
structure LogEnt where
  seq    : Nat
  time   : Nat
  code   : Nat
  sev    : Nat
  die    : Nat
  index  : Nat
  detail : Nat
  deriving DecidableEq, Repr

/-- One ingress (spec/15 R351, R353, R356): whether it is frozen, whether GET_ERROR_LOG was answered since, the record of the last freeze
(tag, opcode, status, AUX), the tags answered QUEUE_FROZEN since, the stored response of each tag, the event mask, and
the immediate commands received and not yet served. -/
structure IngSt where
  frozen  : Bool := false
  errRead : Bool := false
  errLog  : Option (Nat × Nat × Nat × Nat) := none
  errTags : List Nat := []
  stored  : Tbl (Option Pkt) := []
  mask    : Nat := 6
  imm     : List Pkt := []
  deriving DecidableEq, Repr

/-- A command in the executor's order (R351, R354): its ingress, the packet, the data-out bytes received, and whether
an XFER_READY is outstanding. -/
structure QCmd where
  ing   : Ingress
  pkt   : Pkt
  data  : List Nat := []
  xfer  : Bool := false
  deriving DecidableEq, Repr

/-- A long operation that runs (R355): the command, its start in ns, whether its response is to be discarded (R357),
its final status, AUX and payload once it has ended but not answered, and whether PKG_WARM came from it. -/
structure LongOp where
  cmd   : QCmd
  start : Nat
  mute  : Bool := false
  final : Option (Nat × Nat × List Nat) := none
  deriving DecidableEq, Repr

/-- A slot directory record (spec/16 R369): DIR_SEQ, ACTIVE, PENDING (0xFF none), and of slots A and B the state (0
EMPTY, 1 COPYING, 2 COMPLETE, 3 REJECTED) and SET_ID. -/
structure DirRec where
  seq     : Nat := 0
  active  : Nat := 0
  pending : Nat := 0xFF
  stA     : Nat := 0
  stB     : Nat := 0
  idA     : Nat := 0
  idB     : Nat := 0
  deriving DecidableEq, Repr

/-- A settings slot (R368, R378, R379): the SETTINGS_SCHEMA it is written under, its items (BUCKET_CFG of class k under
0x10000 + k), and its change list with the overflow flag; `rot` has the keys whose stored copy fails its CRC (R361). -/
structure SetSlot where
  schema : Nat := 0
  items  : Tbl (List Nat) := []
  change : List Nat := []
  full   : Bool := false
  rot    : List Nat := []
  deriving DecidableEq, Repr

/-- The device records (R360, R436): CORE_RETIRED and WAY_RETIRED as bit masks, the marks of channel c as MC_MARK_k at
key 2c + k and the SPD identifiers they are recorded against at 2c + DIMM, CHANNEL_RETIRED likewise; `rot` has the items
whose stored copy fails its CRC (R361). -/
structure DevRecs where
  core  : Nat := 0
  way   : Nat := 0
  marks : Tbl Word := []
  markSpd : Tbl Nat := []
  chan  : Nat := 0
  chanSpd : Tbl Nat := []
  rot   : List Nat := []
  deriving DecidableEq, Repr

/-- The restart cause of Thoiviyx (R375). -/
inductive Cause where
  | none | activate | rollback | notReady | lockstep | watchdog | sram | packageReset
  deriving DecidableEq, Repr

/-- What an activation does now (R372, R374): copying into the target slot; a TVX_MAIN restart with the new image;
waiting for component `c` (2 PWR_UC, 3 PASS_UC, 5 HZN_UC, 6 XCE_UC) to report ready, on the new image or, in a
rollback, on the old one; waiting to restart PWR_UC after the minute boundary (R373); waiting for the old TVX_MAIN. -/
inductive ActPh where
  | copy | mainNew | comp (c : Nat) | deferPwr | back (c : Nat) | mainOld
  deriving DecidableEq, Repr

/-- An activation (R372 to R377): its phase, the target slot and SET_ID, the components restarted on the new image,
newest first, and the stage, component and reason of the failure that a rollback reports. -/
structure Act where
  ph     : ActPh
  target : Nat
  setId  : Nat
  done   : List Nat := []
  fail   : Option (Nat × Nat × Nat) := none
  deriving DecidableEq, Repr

/-- Thoiviyx. `stalled` holds events that arose while it could not write its log (R358, R427). The firmware flash
(spec/16 R368) holds the slot directory copies, the slots' bundles, the staged blocks by number, the settings slots, the
device records and the host boot image area; the sanitise journal, the key store and the event log lie with their
units. `runs` is the slot whose TVX_MAIN runs, `vers` the running versions by component. `temps`, `volts` and `amps` are
the sensors' readings, `ages` each ageing monitor's hourly readings (time, ppm) newest first, `lanes` the permanent lane
events (time, die) newest first, and `warned` the dies whose HEALTH_WARN stands (R344). `spd` is the installed modules'
SPD identifiers by 2 * channel + DIMM. -/
structure TvxSt where
  alive   : Bool := false           -- VAUX in range, the boot ROM has started
  running : Bool := false           -- TVX_MAIN runs
  recovery : Bool := false          -- recovery mode (spec/16 R381)
  msl     : IngSt := {}
  mbox    : IngSt := {}
  queue   : List QCmd := []
  longOp  : Option LongOp := none
  mslOut  : List Pkt := []          -- packets sent on the MSL, oldest first
  mboxQ   : List Pkt := []          -- the MBOX output queue
  log     : List LogEnt := []       -- newest first
  nextSeq : Nat := 1
  stalled : List LogEnt := []
  flashGranted : Bool := false      -- the flash is lent out (spec/19 R427)
  flashReq : Bool := false          -- FLASH_REQ_N is asserted
  smallFlash : Bool := false        -- the flash device is smaller than 256 MiB (spec/19 R426)
  dir0    : Option DirRec := none
  dir1    : Option DirRec := none
  slotA   : List Nat := []
  slotB   : List Nat := []
  stageLen : Nat := 0               -- BUNDLE_LENGTH of the staging session, 0 none
  stage   : Tbl (List Nat) := []
  erasing : Bool := false
  prepared : Bool := false
  set0    : SetSlot := {}
  set1    : SetSlot := {}
  recs    : DevRecs := {}
  host    : Tbl Byte := []
  cause   : Cause := .none
  runs    : Nat := 0
  vers    : Tbl Nat := []
  act     : Option Act := none
  temps   : Tbl Int := []
  volts   : Tbl Int := []
  amps    : Tbl Int := []
  ages    : Tbl (List (Nat × Int)) := []
  lanes   : List (Nat × Nat) := []
  warned  : Nat := 0
  spd     : Tbl Nat := []
  deriving DecidableEq, Repr


/-! ## Memory channels (spec/07) -/

/-- An entry of the sanitise journal (spec/07 R190). -/
structure JEnt where
  seq : Nat
  op : Nat
  state : Nat
  mcid : Nat
  base : Nat
  len : Nat
  check : Nat
  tStart : Nat
  tEnd : Nat
  vfails : Nat
  tag : Nat
  deriving DecidableEq, Repr

/-- The sanitise engine (R187, R188): the operation (0 none, 1 SANITISE_RANGE, 2 FORMAT_RANGE, 3 SANITISE_DEVICE), the
phase (0 idle, 1 overwrite, 2 verify, 3 journalling), the range, the MCID, the next byte offset of the pass, whether
the line under verify was already rewritten, the lines that failed, and its journal entry. -/
structure SanSt where
  op    : Nat := 0
  phase : Nat := 0
  base  : Nat := 0
  len   : Nat := 0
  mcid  : Nat := 0
  next  : Nat := 0
  again : Bool := false
  fence : Bool := false
  fails : Nat := 0
  ent   : Option JEnt := none
  deriving DecidableEq, Repr

/-- The channels. `prev` is the state a channel returns to after a retrain or a copy; `fails` the retrains failed in a
row; `retrain` says a runtime retrain runs (also in a copy role); `heldStart` the channels whose copy start is held behind a retrain. -/
structure ChanSt where
  prev    : Tbl Nat := []
  fails   : Tbl Nat := []
  retrain : Tbl Bool := []
  heldStart : List Nat := []
  san     : SanSt := {}
  journal : List JEnt := []      -- newest first, in flash
  jNext   : Nat := 1
  filling : Bool := false
  deriving DecidableEq, Repr

/-! ## Mesa cache (spec/08) -/

/-- A sector tag entry (R196). -/
structure SecTag where
  tag   : Nat := 0
  valid : Nat := 0
  mcid  : Nat := 0
  deriving DecidableEq, Repr

/-- A victim cache entry: a sector tag entry with its set (R196). -/
structure VictE where
  set : Nat
  sec : SecTag
  deriving DecidableEq, Repr

/-- A pending extra-block read (R198) and the lock slots of demand reads that wait for it (R214). -/
structure ExtraE where
  line : Nat
  rcid : Nat
  mcid : Nat
  wait : List Nat
  deriving DecidableEq, Repr

/-- The Mesa slices. Keys: tags (n * 4096 + set) * 16 + way, `data` by decode line address (a line is cached at most
once), trees n * 4096 + set, victims (oldest first) and pending extra reads by slice. `bypass` is BYPASS pending
(R212), `powering` a slice whose data array powers up after BYPASS, `drain` the fills (lock slot, its start) that an
invalidate-all waits for (R205), `offPorts` the root ports whose CXL region is offline once the slices are invalidated
(R207). -/
structure MesaSt where
  tags   : Tbl SecTag := []
  data   : Tbl Line := []
  plru   : Tbl Nat := []
  vict   : Tbl (List VictE) := []
  extra  : Tbl (List ExtraE) := []
  bypass : Tbl Bool := []
  powering : Tbl Bool := []
  drain  : Tbl (List (Nat × Nat)) := []
  offPorts : List Nat := []
  deriving DecidableEq, Repr

/-! ## Partitions and metering (spec/09) -/

/-- The CBQRI controllers. Keys: controller code * 1024 + RCID or MCID; codes: Vale cache d, Mesa 12, channel 16 + ch,
Horizon 32 + p. Tokens are in tenths of a byte. `bw` is (Rbwb, Mweight), `bwNow` the pair in force in this epoch (R222), `bal` the reserved
balance (R220), `pool` the shared pool left, by controller; `drawn` what an RCID has drawn of the pool in this epoch, and
`waited` the epochs in which it has waited and nothing of it was admitted. `mon` the monitoring counters, `monEv` their events, and
`status` and `result` what the last allocation and monitoring operations answered, by controller * 2 (+ 1). -/
structure QosSt where
  cap    : Tbl Nat := []
  bw     : Tbl (Nat × Nat) := []
  bwNow  : Tbl (Nat × Nat) := []
  bal    : Tbl Int := []
  pool   : Tbl Nat := []
  drawn  : Tbl Nat := []
  waited : Tbl Nat := []
  mon    : Tbl Nat := []
  monEv  : Tbl Nat := []
  status : Tbl Nat := []
  result : Tbl Nat := []
  deriving DecidableEq, Repr

/-- A meter set (spec/09 R225 to R230): the start of its first minute, the minutes it spans, the counts by quantity *
1024 + MCID, the ten totals, the FLAGS, whether the energy of its last minute has been delivered, and the key slot it is
sealed with (none before its seal point; 0xFF unsealed). -/
structure MeterSet where
  start  : Nat := 0
  span   : Nat := 0
  counts : Tbl Nat := []
  totals : Tbl Nat := []
  flags  : Nat := 0
  energy : Bool := false
  sealBy : Option Nat := none
  key    : List Nat := []
  deriving DecidableEq, Repr

/-- Metering. Keys of `acc`: (bank * 64 + source) * 1024 + MCID, of `tot`: bank * 64 + source. Sources 0 to 9 are the
quantities; 10 + 3d + j is what die d counted of quantity 0, 1 or 4 (j = 0, 1, 2), kept apart because a lost die loses it
(R232). `bank` is the bank that counts, `bad` the accumulators and totalisers (bank, quantity, MCID or none) that were
lost (spec/14 R330), `sampled` the instant of the last occupancy sample (R224). `closed` says that a minute's banks wait to be read,
`fresh` is the set of that minute until its energy comes, `opened` and `sealed` the sets that wait (R230). `minute` is the start of the
minute in progress, `mflags` its flags. `writing` is how many records of the sealed set are being written to the ring
and `committed` how many of them are. The key store (R228) is in flash: slots of 32 bytes, the active one, and the one
that becomes active at the next boundary. -/
structure MeterSt where
  bank   : Nat := 0
  acc    : Tbl Nat := []
  tot    : Tbl Nat := []
  minute : Nat := 0
  mflags : Nat := 0
  bad    : List (Nat × Nat × Option Nat) := []
  sampled : Option Nat := none
  closed : Bool := false
  fresh  : Option MeterSet := none
  opened : Option MeterSet := none
  sealed : Option MeterSet := none
  writing : Nat := 0
  committed : Nat := 0
  keys   : Tbl (List Nat) := []
  active : Option Nat := none
  next   : Option (Option Nat) := none
  deriving DecidableEq, Repr

/-- A root port's link and slot (spec/13 R312, R315, R316): the inputs last read and those last reported after debounce
(bits 0 to 3: PRSNT_N, BTN_N, PWRFLT_N, MRL_OPEN), whether a debounce runs, the outputs (bits 8 to 11) as wanted and as the
expander holds them, transfers failed in a row, whether power on is in progress, whether the hold of R319 runs, Slot Status
and Slot Control, whether the link is up, and the code of the highest data rate it may train at (6 is 64 GT/s, 1 is 2.5). -/
structure Slot where
  last  : Nat := 1
  seen  : Nat := 1
  wait  : Bool := false
  want  : Nat := 0
  out   : Nat := 0
  nacks : Nat := 0
  rising : Bool := false
  holding : Bool := false
  status : Nat := 0
  ctl   : Nat := 0
  up    : Bool := false
  rate  : Nat := 6
  deriving DecidableEq, Repr

/-- I/O. `cfg` is configuration space by ECAM offset / 4, `slots` by root port, `aplic` the levels of the APLIC's sources as a mask, `aplicIp` its pending
bits by domain, `posted` the writes to devices sent (root port, local address, size, value), newest first, and `cpls` the
completions sent to devices. -/
structure IoSt where
  imsic : Tbl Nat := []   -- pending identities by hart * 17 + file
  reqs  : List IoReq := []
  dma   : List DmaOp := []
  nextDma : Nat := 1
  cpls  : List DevCpl := []
  cfg   : Tbl Nat := []
  slots : Tbl Slot := []
  aplic : Nat := 0
  aplicIp : Tbl Nat := []
  posted : List (Nat × Nat × Nat × Nat) := []
  deriving DecidableEq, Repr

/-- Where a start stands (spec/17 R396, R397): off, VAUX up, PWRGOOD up, arrays ready and memory training, memory
filling, image copy, running, stopped (R174, R399), held with host clocks stopped (R388, R391, R434), or in PKG_WARM
(R402). -/
inductive Stage where
  | off | vaux | good | training | filling | image | run | stopped | held | warm
  deriving DecidableEq, Repr

/-- Power, clocks, time and start-up (spec/17, spec/19). `now` is GTIME in ns and `frac` its fraction in 2^-32 ns.
`samples` counts good samples in a row within 100 ns, `locked` says the servo was LOCKED, `lastPps` is the last
accepted PPS edge and `lastGood` the last good sample, `lastHzn` the last Horizon one. `ceil` is each die's ceiling C_d
(default 112), `hot` the dies in emergency (index 0 to 16), `floor` and `central` each Mesa slice's level by the LOCAL
comparators and by its Mesa die sensor (R389). `pop` and `failing` are the channels populated and failing,
`active` the channels of the mode's active set, chosen at MEM_TRAIN (spec/07 R174). `hostReq`, `good`, `therm` and `jtag`
are HOST_PWR_REQ, PWRGOOD, THERMTRIP and a JTAG hold; `tries` the attempts of R421; `perst` the groups whose
PE_PERST_N is high. `warmBy` says that SANITISE_DEVICE holds the harts (R187), `refclk` that the reference clock is
present, `goodAt` when PWRGOOD rose, `fell` that it fell since VAUX came up, `nj` the energy integrated below a whole µJ, in nJ. -/
structure PwrSt where
  now     : Nat := 0
  frac    : Nat := 0
  stage   : Stage := .off
  good    : Bool := false
  hostReq : Bool := false
  tries   : Nat := 0
  therm   : Bool := false
  jtag    : Bool := false
  refclk  : Bool := true
  perst   : Nat := 0
  samples : Nat := 0
  locked  : Bool := false
  lastPps : Option Nat := none
  lastGood : Nat := 0
  lastHzn : Option Nat := none
  ceil    : Tbl Nat := []
  hot     : Nat := 0
  pop     : Nat := 0
  failing : Nat := 0
  active  : Nat := 0
  mode    : Nat := 0
  spare   : Nat := 0xF
  warmBy  : Bool := false
  goodAt  : Nat := 0
  fell    : Bool := false
  nj      : Nat := 0
  floor   : Tbl Nat := []
  central : Tbl Nat := []
  deriving DecidableEq, Repr

/-- A PAYLOAD flit in a replay buffer (spec/06 R149). -/
structure PFlit where
  seq  : Nat
  dseq : Nat
  msgs : List LinkMsg
  deriving DecidableEq, Repr

/-- A control flit that waits for its answer (R149, R150): CTYPE, bytes 14 and 15, and how often it was sent. -/
structure PCtl where
  ctype : Nat
  a     : Nat := 0
  b     : Nat := 0
  sent  : Nat := 1
  deriving DecidableEq, Repr

/-- One end of a Pass port. `naks` counts the NAKs sent for `rxNext`; `rxq` is the receive buffers, with each message's
DSEQ; `moved` holds the sibling's flits that this end still has to retransmit here (R167 step 3). The credit book of each
channel (R152): the free count advertised at the last train, the slots sent, the slots the partner reported freed, and
those freed here. Maps list the physical lane of each logical lane; `rxGood` and `txGood` are the vectors of the map in
force, `failed` and `lol` the lanes of the receive direction that this end marked permanent, or that lost lock; `mism`
and `win` count LANE_CHECK mismatches, in all and in the window in progress (R163). `diff` is, for each lane of the receive
direction, where the CRC that this end computed since the last LANE_CHECK differs from the sender's, and `skip` says that
a LANE_CHECK was lost, so that the next one is not scored (R163, R170). `nak` says that a NAK is to be sent (R149). `bits` is
how many bits each lane of the transmit direction has carried since flit alignment: how far its scrambler stands (R144).
`cfg` says that TS_CONFIG has arrived, `want` is the reason of a RETRAIN_REQ sent. `hand` and `handDone` are the HANDOVER
and HANDOVER_DONE received for this port (R167). -/
structure PEnd where
  rxNext : Nat := 0
  naks   : Nat := 0
  txNext : Nat := 0
  replay : List PFlit := []
  moved  : List PFlit := []
  rxq    : List (Nat × LinkMsg) := []
  base   : Tbl Nat := []
  sent   : Tbl Nat := []
  rep    : Tbl Nat := []
  freed  : Tbl Nat := []
  rxMap  : List Nat := []
  txMap  : List Nat := []
  rxGood : Nat := 0
  txGood : Nat := 0
  failed : Nat := 0
  lol    : Nat := 0
  mism   : Tbl Nat := []
  win    : Tbl Nat := []
  diff   : Tbl Nat := []
  skip   : Bool := false
  nak    : Bool := false
  bits   : Nat := 0
  ctl    : List PCtl := []
  cfg    : Bool := false
  want   : Option Nat := none
  hand   : Bool := false
  handDone : Bool := false
  deriving DecidableEq, Repr

/-- A live swap (R164): the logical lane, the physical lane replaced, the spare, whether the sender has moved (SWAP_MARK)
and whether the receiver has (SWAP_DONE sent). -/
structure PSwap where
  log    : Nat
  lane   : Nat
  spare  : Nat
  marked : Bool := false
  moved  : Bool := false
  deriving DecidableEq, Repr

/-- How the traffic of a port that cannot run goes to its sibling (R166, R167): not at all, waiting for the sibling, or
in progress. -/
inductive PHand where | no | waits | runs
  deriving DecidableEq, Repr

/-- What the two ends of a port agree on. `up` and `down` are the Basin end's permanent marks (R157); `tUp` and `tDown`
the lanes that this train has found good; `att` the map exchange attempt; `fails` the trains failed in a row; `rev` and
`noRev` the revision choice (R161); `sum` the checksum of the map that the Vale end has computed in this exchange; `mapped` says that a retrain's map is agreed, `fb` that it is in FALLBACK, `oldW` the
width code before it, `lower` the width code that a class 8 fault asks for (R163). `swU` and `swD` are the swaps, `pend`
the failed lanes (down, lane) not yet handled (R170). `full` says that the handover of an escalation is to be followed by
a full train, `keep` that the replay buffers outlive the train (R166). `warn16` says that a warning of R169 was given, `trig` what an escalation came from (spec/15 R359). -/
structure PPort where
  up     : Nat := 0
  down   : Nat := 0
  tUp    : Nat := 0
  tDown  : Nat := 0
  att    : Nat := 0
  fails  : Nat := 0
  rev    : Nat := 0
  noRev  : Bool := false
  sum    : Option Nat := none
  mapped : Bool := false
  fb     : Bool := false
  oldW   : Nat := 3
  lower  : Option Nat := none
  swU    : Option PSwap := none
  swD    : Option PSwap := none
  pend   : List (Bool × Nat) := []
  hand   : PHand := .no
  full   : Bool := false
  keep   : Bool := false
  warn16 : Bool := false
  trig   : Nat := 0
  deriving DecidableEq, Repr

/-- The ordered stream of a die and direction (R154): the next DSEQ to assign, the next to deliver, and the flits that
wait for earlier ones. -/
structure PStream where
  tx   : Nat := 0
  rx   : Nat := 0
  wait : List (Nat × List LinkMsg) := []
  deriving DecidableEq, Repr

/-- A register access over MGT that waits for its response (R151): the die, the TAG, and the hart's access it is for; or,
with TAG 256, an interrupt write on its way (`msi`) with the routing ID of its device. -/
structure RegAsk where
  die   : Nat
  tag   : Nat
  write : Bool := false
  who   : Option (Hart × Access) := none
  msi   : Option (Mgt × Nat) := none
  deriving DecidableEq, Repr

/-- The Pass links. Keys: ends e * 24 + p (e 0 Basin, 1 Vale), ports p, streams die * 2 + dir (0 UP, 1 DOWN). `mgt` holds
the MGT messages sent and not yet received, by die, `asked` the register accesses without a response and the routing IDs of the interrupts, `regRsp` the last response;
 `warned` the dies warned of under R169; `reneg` the ports whose revision is still to be negotiated again (R162). -/
structure PassSt where
  ends   : Tbl PEnd := []
  ports  : Tbl PPort := []
  strm   : Tbl PStream := []
  mgt    : List (Nat × Mgt) := []
  asked  : List RegAsk := []
  regRsp : Option (Nat × Mgt) := none
  warned : Nat := 0
  reneg  : List Nat := []
  deriving DecidableEq, Repr
/-- A PAYLOAD frame in a replay buffer (spec/10 R244). -/
structure HSent where
  seq  : Nat
  bseq : Nat
  msgs : List HMsg
  deriving DecidableEq, Repr

/-- A CONTROL frame that this package has sent (R239): CTYPE and the argument bytes. -/
structure HCtl where
  port  : Nat
  ctype : Nat
  args  : List Nat
  deriving DecidableEq, Repr

/-- Why a port that is DISABLED waits (R246): not at all, a second after a failure, or for CLEAR_MARKS or ENABLE. -/
inductive HWaitFor where | no | second | marks
  deriving DecidableEq, Repr

/-- This package's end of a Horizon port, as `PEnd`. `good` is the lanes (receive, transmit) that this train found good,
`marks` and `lol` the receive lanes marked failed and those by loss of lock, `win` the symbols corrected in the window in
progress; `serial` is the last partner's serial, `agreed` says that a HELLO of this train has chosen width and revision,
`oldW` is the width code before a retrain, `lower` the code that a class 12 fault asks for, `after` says that a full train
follows the handover, and `warn` that the port has run at width 2. `moved` holds the frames of bundle siblings that this
port has yet to send, and `takes` those siblings (R244). `owed` counts the frames sent whose codewords are still to pass on
the line, and `line` the time into the present codeword, in tenths of a nanosecond (R236). -/
structure HPortSt where
  rxNext : Nat := 0
  naks   : Nat := 0
  txNext : Nat := 0
  replay : List HSent := []
  moved  : List HSent := []
  takes  : List Nat := []
  rxq    : List (Nat × HMsg) := []
  base   : Tbl Nat := []
  sent   : Tbl Nat := []
  rep    : Tbl Nat := []
  freed  : Tbl Nat := []
  good   : Nat × Nat := (0, 0)
  marks  : Nat := 0
  lol    : Nat := 0
  win    : Tbl Nat := []
  serial : Option Nat := none
  agreed : Bool := false
  oldW   : Nat := 3
  lower  : Option Nat := none
  hand   : Bool := false
  after  : Bool := false
  wait   : HWaitFor := .no
  warn   : Bool := false
  owed   : Nat := 0
  line   : Nat := 0
  deriving DecidableEq, Repr

/-- The ordered stream of a bundle (R244): the next BSEQ to assign, the next to deliver, and the frames that wait. -/
structure HStream where
  tx   : Nat := 0
  rx   : Nat := 0
  wait : List (Nat × Nat × List HMsg) := []
  deriving DecidableEq, Repr

/-- The Horizon fabric. `strm` is by partner serial. `fwd` holds messages received for other packages with their port,
`out` the window and island messages that this package issues, `win` those delivered to it; `hold` says that ALT_HOLD has
passed for a destination (R251), `ctl` the CONTROL frames sent, newest first. `joinWait` and `joinAck` are the members
whose answer a join waits for, and those that acknowledged it; `leaveWait` those whose LEAVE_ACK a leave waits for, and
`leaveLost` that one was lost meanwhile (R257). `reneg` holds the ports whose revision is still to be negotiated again
(R247). -/
structure HznSt where
  ports  : Tbl HPortSt := []
  strm   : Tbl HStream := []
  fwd    : List (Nat × HMsg) := []
  out    : List WMsg := []
  win    : List WMsg := []
  hold   : Tbl Bool := []
  ctl    : List HCtl := []
  joinWait : Nat := 0
  joinAck  : Nat := 0
  leaveWait : Nat := 0
  leaveLost : Bool := false
  reneg     : List Nat := []
  deriving DecidableEq, Repr
/-! ## Xomus channel engine (spec/11, spec/12) -/

/-- What an operation of the XCE on memory of this package or of a member is for (spec/12 R289, R294, R295): a fetch of `n` descriptors,
the source and the destination of COPY_LOCAL, the source of a window message, the landing of a piece's data, a completion
entry, an inbound message's access, and the payload of a receive deposit on queue pair `q`. A descriptor is named by its
queue pair and position. -/
inductive XWhat where
  | fetch (q n : Nat)
  | copyRd (q pos : Nat) (dst : List Xlate)
  | copyWr (q pos : Nat)
  | source (q pos off ent : Nat) (m : WMsg)
  | land (q pos off len : Nat)
  | entry (q : Nat) (irq recv : Bool)
  | target (m : WMsg)
  | deposit (q : Nat) (m : WMsg)
  deriving DecidableEq, Repr

/-- An operation under way: its function, how many lines are outstanding, the bytes gathered, the first offset that failed
with the status and detail of R293, and whether it runs under a window entry since replaced (R303). -/
structure XOp where
  id   : Nat
  fn   : Nat
  left : Nat
  got  : Nat := 0
  fail : Option (Nat × Nat × Nat) := none
  old  : Bool := false
  ids  : Nat × Nat := (0, 0)
  what : XWhat
  deriving DecidableEq, Repr

/-- A descriptor fetched and not completed (R288, R294): its position in the queue's history, its SQ index, its 64 bytes,
the identifiers bound at the fetch (spec/09 R215), whether it has started, how many bytes of it are issued, how many
pieces are outstanding, and its earliest failing piece (offset, status, detail). -/
structure XDesc where
  pos  : Nat
  ix   : Nat
  raw  : Nat
  rcid : Nat
  mcid : Nat
  started : Bool := false
  next : Nat := 0
  live : Nat := 0
  fail : Option (Nat × Nat × Nat) := none
  deriving DecidableEq, Repr

/-- A completion entry to be written, but for its PHASE (R292): bytes 0 to 14 as a number, FLAGS.IRQ, whether it is a
receive entry, the position of its descriptor, and the identifiers that it is written under (spec/09 R215). -/
structure XFin where
  pos  : Nat
  val  : Nat
  irq  : Bool
  recv : Bool
  ids  : Nat × Nat := (0, 0)
  deriving DecidableEq, Repr

/-- A queue pair beside its registers: descriptors fetched in SQ order, completions in the order they came about, whether
a fetch or an entry's write is under way, entries written since the last signal, whether a signal of R294 by time is
running, receive deposits without their entry, and whether a STRICT queue has failed (R297). -/
structure XQp where
  descs : List XDesc := []
  fin   : List XFin := []
  pos   : Nat := 0
  fetching : Bool := false
  writing : Bool := false
  unsig : Nat := 0
  rsv   : Nat := 0
  failed : Bool := false
  deriving DecidableEq, Repr

/-- Who waits for a window completion: a piece of a descriptor of queue pair `q`, or a hart's access to BAR2 (R302). -/
inductive XFor where
  | piece (q pos off : Nat)
  | load (h slot : Nat)
  | store (slot : Nat)
  deriving DecidableEq, Repr

/-- A window request without its completion (R291): its function and WTAG, whether it is a W_READ or W_ATOMIC, its length,
whether it is quarantined (spec/10 R260), whether it runs under a window entry since replaced, and the outbound entry. -/
structure XTag where
  fn   : Nat
  wtag : Nat
  np   : Bool
  len  : Nat
  quar : Bool := false
  old  : Bool := false
  ent  : Nat := 0
  why  : XFor
  deriving DecidableEq, Repr

/-- An entry of the translation cache (spec/11 R274). -/
structure AtcE where
  fn   : Nat
  base : Nat
  size : Nat
  ga   : Nat
  rd   : Bool
  wr   : Bool
  deriving DecidableEq, Repr

/-- An MSI-X table entry (spec/11 R276). -/
structure MsixE where
  addr : Nat := 0
  data : Nat := 0
  mask : Bool := true
  deriving DecidableEq, Repr

/-- The XCE. Keys: queue pairs f * 8 + q, MSI-X entries f * 64 + v, `pba` and `held` (vectors held by Bus Master Enable,
spec/11 R279) by function, window entries by index as 512-bit numbers. `atc` is newest use first. `drain` lists the
functions that drain and `drainVf` whether the VF disable drain runs, `merged` the functions whose FLR joined it (R283);
`notReady` the VFs that are not ready and `cfgWait` the configuration accesses (hart, offset, size, write) that wait for
one (R272). `inv` are the invalidations in progress with the operations they wait for, `invDone` the Invalidation
Completions sent. `stopped` lists the functions that the epoch found with weight 0 (R305), `commit` and `share` the writes
held for XCE_UC (R304, R306), `inta` whether INTA is asserted (R278). -/
structure XceSt where
  ops    : List XOp := []
  nextOp : Nat := 0
  qps    : Tbl XQp := []
  tags   : List XTag := []
  atc    : List AtcE := []
  owin   : Tbl Nat := []
  iwin   : Tbl Nat := []
  msix   : Tbl MsixE := []
  pba    : Tbl Nat := []
  held   : Tbl Nat := []
  drain  : List Nat := []
  drainVf : Bool := false
  merged : List Nat := []
  notReady : List Nat := []
  cfgWait : List (Nat × Nat × Nat × Option Nat) := []
  inv    : List (Nat × Nat × List Nat) := []
  invDone : List (Nat × Nat) := []
  stopped : List Nat := []
  turn   : Tbl Nat := []
  commit : List (Nat × Nat × Nat) := []
  share  : List (Nat × Nat) := []
  inta   : Bool := false
  deriving DecidableEq, Repr

/-- The counter collector (spec/18): how many lines of a sweep are being written, how many are, the length of the sweep in
bytes, and the instant of GTIME that the boundary of the next is not before. -/
structure CcolSt where
  writing : Nat := 0
  done    : Nat := 0
  len     : Nat := 0
  next    : Nat := 0
  deriving DecidableEq, Repr

/-! ## The whole machine -/

/-- The state. `pending` is the queue of commands that wait, first in, first out. `mem` is the contents of DRAM and
CXL memory (Host.Cell, canonical form) and `marked` the lines that carry the corrupt marker (spec/07 R177). `net` is
the Osesteth messages in flight (spec/04 R90). `free` counts the free values used (notes/assumptions/1.md). -/
structure State where
  pending : List Instr := []
  regs    : Tbl Word := []
  mem     : List Host.Cell := []
  marked  : Tbl Bool := []
  net     : List Msg := []
  free    : Nat := 0
  core    : CoreSt := {}
  die     : DieSt := {}
  home    : HomeSt := {}
  pass    : PassSt := {}
  chan    : ChanSt := {}
  mesa    : MesaSt := {}
  meter   : MeterSt := {}
  qos     : QosSt := {}
  hzn     : HznSt := {}
  xce     : XceSt := {}
  io      : IoSt := {}
  ras     : RasSt := {}
  tvx     : TvxSt := {}
  pwr     : PwrSt := {}
  ccol    : CcolSt := {}
  deriving DecidableEq, Repr

/-- Why the machine stops. -/
inductive Fault where
  /-- Raised where the operands of a command are an encoding that the spec calls reserved and whose outcome it calls
  unpredictable (spec/00_scope.md R8 to R10). Safe: the model stops where the part goes on with an outcome that nothing
  fixes. -/
  | hostMadeError
  deriving DecidableEq, Repr

/-- Why a command has no meaning. -/
inductive Refusal where
  /-- Raised by `exec` for a command that the model gives no meaning. Safe. -/
  | notModelled (mnemonic : String)
  deriving DecidableEq, Repr

/-- The machine before power: every register at its POR value, every structure empty, nothing powered. VAUX_UP is
the first event of a start (spec/17 R397). -/
def State.reset : State := {}

end Sys2Proof.Machine
end

