-- ==== Sys2Proof/Machine/Ops.lean ====
section
/-!
DEFINITION. The operations that every family shares: register fields, memory bytes, free values, messages in flight,
the event log (spec/15 R358), error records (spec/14 R337 to R340), error buckets (R335) and interrupt files
(spec/13 R320).
-/

namespace Sys2Proof.Machine

abbrev Out := Host.Outcome State Fault Refusal

/-! ## Registers -/

/-- The register at an address. -/
def State.reg (s : State) (a : Nat) : Word := Tbl.get regReset s.regs a

/-- Write a whole register. -/
def State.setReg (s : State) (a : Nat) (v : Word) : State := { s with regs := Tbl.set regReset s.regs a v }

/-- `w` ones from bit `lo`. -/
def maskAt (lo w : Nat) : Word := BitVec.ofNat 64 ((2 ^ w - 1) <<< lo)

/-- The word with `w` bits from `lo` replaced by the low bits of `n`. -/
def wordPut (v : Word) (lo w n : Nat) : Word :=
  (v &&& ~~~ maskAt lo w) ||| BitVec.ofNat 64 ((n % 2 ^ w) <<< lo)

/-- A field's value. -/
def State.get (s : State) (f : FRef) : Nat := ((s.reg f.addr).toNat >>> f.lo) % 2 ^ f.w

/-- Set a field; bits beyond its width are dropped. -/
def State.put (s : State) (f : FRef) (n : Nat) : State :=
  s.setReg f.addr (wordPut (s.reg f.addr) f.lo f.w n)

/-- A one-bit field as a Bool. -/
def State.flag (s : State) (f : FRef) : Bool := s.get f == 1

/-- Set a one-bit field. -/
def State.putB (s : State) (f : FRef) (b : Bool) : State := s.put f (b2n b)

/-- Set bit `i` of a field. -/
def State.putBit (s : State) (f : FRef) (i : Nat) (b : Bool) : State := s.put f (setBits (s.get f) i 1 (b2n b))

/-- Add to a field that saturates. -/
def State.bump (s : State) (f : FRef) (n : Nat) : State := s.put f (satAdd f.w (s.get f) n)

/-- Add to a field that wraps. -/
def State.wrapAdd (s : State) (f : FRef) (n : Nat) : State := s.put f (s.get f + n)

/-- This package's ID (spec/01, PKG_NODE). -/
def State.pkgId (s : State) : Nat := s.get R.PKG_NODE_PACKAGE_ID

/-! ## Free values (notes/assumptions/1.md) -/

/-- A free word, line or bit, and the state with the counter advanced. -/
def State.freeWord (s : State) : Word × State := (Config.freeWord s.free, { s with free := s.free + 1 })
def State.freeLine (s : State) : Line × State := (Config.freeLine s.free, { s with free := s.free + 1 })
def State.freeBit (s : State) : Bool × State := (Config.freeBit s.free, { s with free := s.free + 1 })

/-- `n` free bytes, as a number. -/
def State.freeSpan (s : State) (n : Nat) : Nat × State :=
  let k := (n + 63) / 64
  ((List.range k).foldl (fun v i => v + (Config.freeLine (s.free + i)).toNat <<< (512 * i)) 0 % 2 ^ (8 * n), { s with free := s.free + k })

/-! ## Memory cells -/

/-- What a byte that nothing has written reads as: zero, because of the fill (spec/07 R181). -/
def memDefault (_ : Nat) : Byte := 0

/-- One byte of memory. -/
def State.byte (s : State) (a : Nat) : Byte := Tbl.get memDefault s.mem a

/-- Memory's canonical form. -/
def Memory.wf (m : List Host.Cell) : Bool := Tbl.wf memDefault m

/-- `n` bytes from cell `a` rising, as a number. -/
def memRead (m : List Host.Cell) (a : Nat) : Nat → Nat
  | 0 => 0
  | n + 1 => (Tbl.get memDefault m a).toNat + 256 * memRead m (a + 1) n

/-- Write `n` bytes from cell `a` rising. -/
def memWrite (m : List Host.Cell) (a : Nat) : Nat → Nat → List Host.Cell
  | 0, _ => m
  | n + 1, v => memWrite (Tbl.set memDefault m a (BitVec.ofNat 8 v)) (a + 1) n (v / 256)

/-- The line whose first cell is `a`. -/
def State.lineAt (s : State) (a : Nat) : Line := BitVec.ofNat 512 (memRead s.mem a 64)

/-- Write the line whose first cell is `a` with good data: the marker goes (spec/07 R177). -/
def State.setLineAt (s : State) (a : Nat) (l : Line) : State :=
  { s with mem := memWrite s.mem a 64 l.toNat, marked := Tbl.set (fun _ => false) s.marked (a / 64) false }

/-- Does the line carry the corrupt marker? -/
def State.markedAt (s : State) (a : Nat) : Bool := Tbl.get (fun _ => false) s.marked (a / 64)

/-- Write the corrupt marker. -/
def State.markAt (s : State) (a : Nat) : State :=
  { s with marked := Tbl.set (fun _ => false) s.marked (a / 64) true }

/-! ## Cores, as every family sees them -/

/-- A hart's own state. -/
def State.hart (s : State) (h : Nat) : HartSt := Tbl.get (fun _ => {}) s.core.harts h
def State.setHart (s : State) (h : Nat) (x : HartSt) : State :=
  { s with core := { s.core with harts := Tbl.set (fun _ => {}) s.core.harts h x } }

/-- The state of a core (spec/02, VALE_CORE_STATUS.STATE). -/
def State.coreState (s : State) (h : Nat) : Nat := s.get (R.VALE_CORE_STATUS_STATE (h / 32) (h % 32))

def coreONLINE : Nat := 0
def coreSTOPPING : Nat := 1
def coreOFFLINE : Nat := 2
def coreSTARTING : Nat := 3
def coreRESETTING : Nat := 4
def coreRETIRED : Nat := 5

def State.coreUp (s : State) (h : Nat) : Bool := s.coreState h == coreONLINE

/-- Is die `d` online (spec/01, PKG_DIES)? -/
def State.dieOnline (s : State) (d : Nat) : Bool := (s.get R.PKG_DIES_VALE_ONLINE).testBit d

/-! ## Traps of a hart (spec/02 R51, R56, R61; notes/assumptions/47.md) -/

/-- Is a mode one of a guest? -/
def privVirt : Priv → Bool
  | .vs => true
  | .vu => true
  | _ => false

/-- The two-bit code of a mode. -/
def privCode : Priv → Nat
  | .m => 3
  | .hs => 1
  | .vs => 1
  | _ => 0

/-- The level that takes an exception of mode `p`: by medeleg, then hedeleg (R51). -/
def State.trapLevel (s : State) (h cause : Nat) (p : Priv) : Priv :=
  if p = .m ∨ !(s.reg (R.rmedeleg h)).toNat.testBit cause then .m
  else if privVirt p && (s.reg (R.rhedeleg h)).toNat.testBit cause then .vs
  else .hs

/-- The base of a trap vector, for exceptions. -/
def tvecBase (w : Word) : Word := w &&& ~~~(3 : Word)

/-- Hart `h` in mode `p` takes an exception at the level that `trapLevel` gives: the registers of that level, the mode and
the pc follow. In M-mode with mnstatus.NMIE = 0 the handler is the one of R61 at VALE_CORE_NMI_PC + 0x40. -/
def State.takeTrap (s : State) (h : Nat) (p : Priv) (cause tval gpa : Nat) (epc : Word) : State :=
  let n (k : Nat) : Word := BitVec.ofNat 64 k
  let lvl := s.trapLevel h cause p
  let s := s.setHart h { s.hart h with mode := lvl }
  match lvl with
  | .vs =>
    let s := ((s.setReg (R.rvsepc h) epc).setReg (R.rvscause h) (n cause)).setReg (R.rvstval h) (n tval)
    let s := (s.put (R.vsstatus_SPIE h) (s.get (R.vsstatus_SIE h))).put (R.vsstatus_SIE h) 0
    (s.put (R.vsstatus_SPP h) (b2n (p == .vs))).setReg (R.rpc h) (tvecBase (s.reg (R.rvstvec h)))
  | .m =>
    let s := ((s.setReg (R.rmepc h) epc).setReg (R.rmcause h) (n cause)).setReg (R.rmtval h) (n tval)
    let s := (s.setReg (R.rmtval2 h) (n (gpa / 4))).setReg (R.rmtinst h) 0
    let s := (s.put (R.mstatus_MPIE h) (s.get (R.mstatus_MIE h))).put (R.mstatus_MIE h) 0
    let s := ((s.put (R.mstatus_MPP h) (privCode p)).putB (R.mstatus_MPV h) (privVirt p)).putB (R.mstatus_GVA h) (privVirt p)
    s.setReg (R.rpc h)
      (if p = .m ∧ s.get (R.mnstatus_NMIE h) = 0 then s.reg (R.rVALE_CORE_NMI_PC (h / 32) (h % 32)) + 0x40
       else tvecBase (s.reg (R.rmtvec h)))
  | _ =>
    let s := ((s.setReg (R.rsepc h) epc).setReg (R.rscause h) (n cause)).setReg (R.rstval h) (n tval)
    let s := (s.setReg (R.rhtval h) (n (gpa / 4))).setReg (R.rhtinst h) 0
    let s := (s.put (R.mstatus_SPIE h) (s.get (R.mstatus_SIE h))).put (R.mstatus_SIE h) 0
    let s := (s.putB (R.mstatus_SPP h) (p == .hs || p == .vs)).putB (R.hstatus_SPV h) (privVirt p)
    let s := (if privVirt p then s.putB (R.hstatus_SPVP h) (p == .vs) else s).putB (R.hstatus_GVA h) (privVirt p)
    s.setReg (R.rpc h) (tvecBase (s.reg (R.rstvec h)))

/-- A resumable NMI with cause `cause` is raised on hart `h`: taken at once where mnstatus.NMIE is 1, held otherwise
(R61, Smrnmi). As a trap it ends the hart's reservation (R41). Where the hart stands is not known to the model. -/
def State.raiseNmi (s : State) (h cause : Nat) : State :=
  if s.get (R.mnstatus_NMIE h) = 1 then
    let (epc, s) := s.freeWord
    let x := s.hart h
    let s := s.setReg (R.rmnepc h) (epc &&& ~~~(1 : Word))
    let s := s.setReg (R.rmncause h) (BitVec.ofNat 64 (2 ^ 63 + cause))
    let s := (s.put (R.mnstatus_MNPP h) (privCode x.mode)).putB (R.mnstatus_MNPV h) (privVirt x.mode)
    let s := (s.put (R.mnstatus_NMIE h) 0).setHart h { x with resv := none, mode := .m }
    s.setReg (R.rpc h) (s.reg (R.rVALE_CORE_NMI_PC (h / 32) (h % 32)))
  else
    let x := s.hart h
    s.setHart h { x with nmi := x.nmi ++ [cause] }

/-! ## Interrupt files (spec/13 R320) -/

/-- First address of the interrupt files in the local map (spec/01 R23). -/
def irqBase : Nat := 0xF0000000000

/-- Does a core take interrupts: not in STOPPING, OFFLINE, STARTING or RETIRED (spec/02 R60)? -/
def State.fileOpen (s : State) (h : Nat) : Bool := s.coreState h == coreONLINE || s.coreState h == coreRESETTING

/-- An interrupt write that a core drops: the IOMMU counts it with its routing ID (spec/02 R60, spec/13 R322). -/
def State.fileDrop (s : State) (h rid : Nat) : State :=
  let s := s.bump R.IOMMU_MSI_DROPS_DROPS 1
  let s := s.put R.IOMMU_MSI_DROPS_LAST_RID rid
  s.put R.IOMMU_MSI_DROPS_LAST_HART h

/-- Interrupt file `f` of hart `h` has taken identity `id`. -/
def State.fileSet (s : State) (h f id : Nat) : State :=
  if 1 ≤ id ∧ id ≤ 2047 then
    let pend := Tbl.get (fun _ => 0) s.io.imsic (h * 17 + f)
    { s with io := { s.io with imsic := Tbl.set (fun _ => 0) s.io.imsic (h * 17 + f) (pend ||| 1 <<< id) } }
  else s

/-- The MSI_WRITE that carries identity `id` to file `f` of hart `h` (spec/06 R151). -/
def msiMgt (h f id : Nat) : Mgt :=
  { mopc := 3, tag := 0, offset := h % 32 + f % 32 * 32 + id % 1024 * 1024, size8 := id.testBit 10, data := 0, status := 0 }

/-- An interrupt write for identity `id` of file `f` of hart `h`: it goes to the die over MGT (spec/06 R151). One for a core
that takes none is dropped, and one for no identity does nothing. -/
def State.fileTake (s : State) (h f id rid : Nat) : State :=
  if !s.fileOpen h then s.fileDrop h rid
  else if 1 ≤ id ∧ id ≤ 2047 then
    let m := msiMgt h f id
    { s with pass := { s.pass with mgt := s.pass.mgt ++ [(h / 32, m)],
                                   asked := s.pass.asked ++ [{ die := h / 32, tag := 256, write := true, msi := some (m, rid) }] } }
  else s

/-- Is a local address a set-pending register of an existing file (R320)? -/
def isSetPending (a : Nat) : Bool :=
  decide (irqBase ≤ a) && decide ((a - irqBase) / 0x20000 < 384) &&
  decide (((a - irqBase) / 0x1000) % 32 < 17) && (decide (a % 0x1000 = 0) || decide (a % 0x1000 = 4))

/-- The 4-byte value that seteipnum_be takes: bytes reversed. -/
def byteSwap32 (v : Nat) : Nat := ofBytes (leBytes 4 v).reverse

/-- A 4-byte store to a set-pending register. -/
def State.setPending (s : State) (a v rid : Nat) : State :=
  let id := if a % 0x1000 = 0 then v % 2 ^ 32 else byteSwap32 v
  s.fileTake ((a - irqBase) / 0x20000) (((a - irqBase) / 0x1000) % 32) id rid

/-- An MSI that the package sends to a global address: delivered where it names a file of this package. -/
def State.sendMsi (s : State) (ga data rid : Nat) : State :=
  if ga / 2 ^ 44 = s.pkgId ∧ isSetPending (ga % 2 ^ 44) then s.setPending (ga % 2 ^ 44) data rid else s

/-! ## The event log and packets to the ingresses (spec/15 R358) -/

def State.ing (s : State) : Ingress → IngSt
  | .msl => s.tvx.msl
  | .mbox => s.tvx.mbox

def State.setIng (s : State) (g : Ingress) (x : IngSt) : State :=
  match g with
  | .msl => { s with tvx := { s.tvx with msl := x } }
  | .mbox => { s with tvx := { s.tvx with mbox := x } }

/-- Commands of the MBOX that each reserve a place of its output queue (R346). -/
def State.mboxReserved (s : State) : Nat :=
  (s.tvx.queue.filter (fun q => q.ing == .mbox)).length +
  (match s.tvx.longOp with | some l => if l.cmd.ing = .mbox ∧ !l.mute then 1 else 0 | none => 0)

/-- Send a packet on an ingress. -/
def State.sendPkt (s : State) (g : Ingress) (p : Pkt) : State :=
  match g with
  | .msl => { s with tvx := { s.tvx with mslOut := s.tvx.mslOut ++ [p] } }
  | .mbox => { s with tvx := { s.tvx with mboxQ := s.tvx.mboxQ ++ [p] } }

/-- The EVENT packet of a log entry (R347). -/
def eventPkt (e : LogEnt) : Pkt :=
  { version := 3, typ := 4, tag := 0, opcode := 0, length := 64, param := e.seq % 2 ^ 32,
    data := logBytes e.seq e.time e.code e.sev e.die e.index e.detail }

/-- The entry of MGMT_RESTARTED, which goes to both ingresses whatever their masks (R342). -/
def codeMGMT_RESTARTED : Nat := 0x0070

/-- Send an entry as an EVENT on an ingress whose mask includes its severity; the MBOX drops it where its queue has
no unreserved place (R346). -/
def State.sendEvent (s : State) (g : Ingress) (e : LogEnt) : State :=
  if (s.ing g).mask.testBit e.sev ∨ e.code = codeMGMT_RESTARTED then
    match g with
    | .msl => s.sendPkt .msl (eventPkt e)
    | .mbox =>
      if s.tvx.mboxQ.length + s.mboxReserved < 64 then s.sendPkt .mbox (eventPkt e)
      else s.bump R.MBOX_STATUS_EVENTS_LOST 1
  else s

/-- The entries the log area holds (R358). -/
def logCapacity : Nat := 1048576

/-- Write an entry and send it. -/
def State.writeLog (s : State) (e : LogEnt) : State :=
  let e := { e with seq := s.tvx.nextSeq }
  let s := { s with tvx := { s.tvx with
    log := (e :: s.tvx.log).take logCapacity, nextSeq := s.tvx.nextSeq + 1 } }
  (s.sendEvent .msl e).sendEvent .mbox e

/-- The events that wait while the flash is lent out: at most 4,096, INFO entries dropped first (spec/19 R427). -/
def waitingLog (l : List LogEnt) : List LogEnt :=
  if l.length ≤ 4096 then l
  else
    match (List.range l.length).reverse.find? (fun i => match l[i]? with | some e => e.sev == 0 | none => false) with
    | some i => l.eraseIdx i
    | none => l.take 4096

/-- An event for the log: written at once, or held in hardware while TVX_MAIN does not run (R358) or the flash is lent
out (spec/19 R427). -/
def State.logEvent (s : State) (code sev die index : Nat) (detail : Nat := 0) : State :=
  let e : LogEnt := ⟨0, s.pwr.now, code, sev, die, index, detail⟩
  if s.tvx.running && !s.tvx.flashGranted then s.writeLog e
  else
    let l := s.tvx.stalled ++ [e]
    { s with tvx := { s.tvx with stalled := if s.tvx.flashGranted then waitingLog l else l } }

/-- The entries held are written and sent once they can be (R358, spec/19 R427). -/
def State.flushLog (s : State) : State :=
  if s.tvx.running && !s.tvx.flashGranted then
    s.tvx.stalled.foldl (fun s e => s.writeLog e) ({ s with tvx := { s.tvx with stalled := [] } } : State)
  else s

def sevINFO : Nat := 0
def sevWARNING : Nat := 1
def sevURGENT : Nat := 2
def noDie : Nat := 0xFF

/-! ## Error records (spec/14 R337 to R340) -/

def errCE : Nat := 0
def errUED : Nat := 1
def errUEC : Nat := 2

def State.errRec (s : State) (b i : Nat) : ErrRec := Tbl.get (fun _ => {}) s.ras.recs (b * 4 + i)
def State.setRec (s : State) (b i : Nat) (r : ErrRec) : State :=
  { s with ras := { s.ras with recs := Tbl.set (fun _ => {}) s.ras.recs (b * 4 + i) r } }
def State.recCtl (s : State) (b i : Nat) : ErrCtl := Tbl.get (fun _ => {}) s.ras.ctls (b * 4 + i)

/-- The record a new error of severity `sev` goes to: the lowest not valid, or the lowest among those of the lowest
severity present (R340). -/
def State.recChoice (s : State) (b : Nat) : Nat :=
  match (List.range 4).find? (fun i => !(s.errRec b i).valid) with
  | some i => i
  | none =>
    let low := ((List.range 4).map (fun i => (s.errRec b i).sev)).foldl min 2
    ((List.range 4).find? (fun i => (s.errRec b i).sev == low)).getD 0

/-- The hart that a high-priority signal reaches (R339). -/
def State.nmiHart (s : State) : Option Nat :=
  let h := s.get R.RAS_AGG_CTL_NMI_HART
  if h < 384 ∧ s.coreUp h then some h else (List.range 384).find? (fun h => s.coreUp h)

/-- Deliver the signal that a record's control selects (R339). -/
def State.rasSignal (s : State) (sig : Nat) : State :=
  if sig = 1 then
    if s.get R.RAS_AGG_CTL_MSI_ENABLE = 1 then
      s.sendMsi (s.get R.RAS_MSI_ADDR_ADDR * 4) (s.get R.RAS_MSI_DATA_DATA) 0
    else s
  else if sig = 2 then
    match s.nmiHart with
    | some h => s.raiseNmi h 2
    | none => s
  else s

/-- Does bank `b` hold a valid record (RAS_BANK_VALID)? -/
def State.bankValid (s : State) (b : Nat) : Bool := (List.range 4).any (fun i => (s.errRec b i).valid)

/-- Write a record into bank `b` by the choice of R340, where logging is enabled there. -/
def State.recWrite (s : State) (b : Nat) (r : ErrRec) : State :=
  let i := s.recChoice b
  let old := s.errRec b i
  if (s.recCtl b i).els then
    if !old.valid || decide (old.sev < r.sev) then s.setRec b i r
    else s.setRec b i { old with multi := true }
  else s

/-- The signal that a severity selects in a control (R339). -/
def ErrCtl.signal (c : ErrCtl) (sev : Nat) : Nat := if sev = errCE then c.ces else if sev = errUED then c.ueds else c.uecs

/-- An error: recorded, signalled and copied to the event log (R338 to R340). -/
def State.errRecord (s : State) (b sev addr info suppl : Nat) : State :=
  let i := s.recChoice b
  let c := s.recCtl b i
  let s := s.recWrite b ⟨true, sev, false, addr % 2 ^ 56, info % 2 ^ 64, suppl % 2 ^ 64, s.pwr.now⟩
  let s := if c.els then s.rasSignal (c.signal sev) else s
  s.logEvent 0x0001 sev noDie b
    (addr % 2 ^ 56 + (info % 2 ^ 64) <<< 64 + (suppl % 2 ^ 64) <<< 128 + b <<< 192 + i <<< 208)

/-- info_i of a record (R338). -/
def recInfo (mcid rcid agent pkg : Nat) (k : Nat := 0) (level : Nat := 0) (ix : Nat := 0) : Nat :=
  mcid % 1024 + (rcid % 1024) <<< 12 + (agent % 256) <<< 24 + (pkg % 4096) <<< 32 + (k % 16) <<< 44 +
  (level % 256) <<< 48 + (ix % 256) <<< 56

/-- Banks of R337. -/
def bankCore (h : Nat) : Nat := h
def bankDie (d : Nat) : Nat := 384 + d
def bankHome (n : Nat) : Nat := 396 + n
def bankMc (n : Nat) : Nat := 412 + n
def bankMesa (n : Nat) : Nat := 428 + n
def bankPass (p : Nat) : Nat := 444 + p
def bankHzn (p : Nat) : Nat := 468 + p
def bankRoot (i : Nat) : Nat := 476 + i
def bankXce : Nat := 508
def bankIommu : Nat := 509
def bankTvx : Nat := 510
def bankPkg : Nat := 511

/-! ## Error buckets (spec/14 R335, R336) -/

/-- The key of bucket `i` of class `k`. -/
def bucketKey (k i : Nat) : Nat := k * 2 ^ 40 + i

def State.bucket (s : State) (k i : Nat) : Bucket := Tbl.get (fun _ => {}) s.ras.buckets (bucketKey k i)
def State.setBucket (s : State) (k i : Nat) (b : Bucket) : State :=
  { s with ras := { s.ras with buckets := Tbl.set (fun _ => {}) s.ras.buckets (bucketKey k i) b } }

/-- The figures in force of a class (R336): RATE, LIMIT, weight of a corrected and of an uncorrectable error. -/
def State.bucketCfg (s : State) (k : Nat) : Nat := Tbl.get bucketDefault s.ras.cfgNow k
def State.bucketRate (s : State) (k : Nat) : Nat := bits (s.bucketCfg k) 8 8
def State.bucketLimit (s : State) (k : Nat) : Nat := bits (s.bucketCfg k) 16 8
def State.bucketWeight (s : State) (k : Nat) (unc : Bool) : Nat := bits (s.bucketCfg k) (if unc then 32 else 24) 8

/-- A bucket after an event of weight `w`, and whether the fault became permanent at this instant (R335 items 1, 2
and 4). -/
def Bucket.charge (b : Bucket) (rate limit w : Nat) : Bucket × Bool :=
  if b.done then (b, false)
  else
    let level := min (b.level + w) (limit + rate - 1)
    let hot := b.hot || decide (limit ≤ level)
    let perm := hot && !b.hot && decide (2 ≤ b.run)
    ({ b with level := level, hot := hot, done := perm }, perm)

/-- A bucket at a window boundary (R335 items 3 and 4). -/
def Bucket.leak (b : Bucket) (rate : Nat) : Bucket :=
  { b with level := b.level - rate, hot := false, run := if b.hot then b.run + 1 else 0 }

/-- Does the permanent action of a class leave its resource in service, so that it counts on (R335 item 5, R336): a Pass
port's flits, a Horizon port's frames, a root port's link, an engine array? -/
def bucketGoesOn (k : Nat) : Bool := k == 8 || k == 12 || k == 13 || k == 14

/-- Charge bucket `i` of class `k`; says whether the fault became permanent. -/
def State.charge (s : State) (k i : Nat) (unc : Bool) : State × Bool :=
  let r := (s.bucket k i).charge (s.bucketRate k) (s.bucketLimit k) (s.bucketWeight k unc)
  (s.setBucket k i { r.1 with done := r.1.done && !bucketGoesOn k }, r.2)

/-! ## Messages -/

/-- Send Osesteth messages. -/
def State.send (s : State) (m : Msg) : State := { s with net := s.net ++ [m] }

/-! ## Decode errors (spec/01 R36) -/

/-- Capture a Fault, CA or ERR in PKG_DECODE_ERR, or set OVERFLOW. -/
def State.decodeErr (s : State) (cause source hart requester ga : Nat) (write : Bool) : State :=
  if s.get R.PKG_DECODE_ERR_VALID = 1 then s.put R.PKG_DECODE_ERR_OVERFLOW 1
  else
    let s := s.put R.PKG_DECODE_ERR_VALID 1
    let s := s.put R.PKG_DECODE_ERR_CAUSE cause
    let s := s.put R.PKG_DECODE_ERR_LOCAL_HART (if source = 0 then hart else 0)
    let s := s.put R.PKG_DECODE_ERR_SOURCE source
    let s := s.put R.PKG_DECODE_ERR_REQUESTER requester
    let s := s.putB R.PKG_DECODE_ERR_WRITE write
    s.put R.PKG_DECODE_ADDR_ADDR ga

/-! ## Horizon ports -/

def State.hPort (s : State) (p : Nat) : HPortSt := Tbl.get (fun _ => {}) s.hzn.ports p
def State.setHPort (s : State) (p : Nat) (x : HPortSt) : State :=
  { s with hzn := { s.hzn with ports := Tbl.set (fun _ => {}) s.hzn.ports p x } }

end Sys2Proof.Machine
end

