-- ==== Sys2Proof/Machine/Count.lean ====
section
/-!
DEFINITION. The performance counters as events reach them (spec/18_counters.md R404 to R409, R412). Events of every cycle
are in Tick.lean; notes/assumptions/15.md names those left out.
-/

namespace Sys2Proof.Machine

/-- Counters of a bank (R405). -/
def bankCounters (b : Nat) : Nat :=
  if b < 240 then (if b % 20 < 17 then 8 else 4)
  else if b < 288 then 8
  else if b < 312 then 4
  else if b < 320 then 8
  else if b < 352 then 4
  else if b = 352 then 32
  else if b = 353 then 8
  else 0

/-- The die of a bank that lies on one. -/
def bankDieOf (b : Nat) : Option Nat := if b < 240 then some (b / 20) else none

/-- A counter takes `n` (R406, R412). -/
def State.ctrAdd (s : State) (b j n : Nat) : State :=
  let c := s.get (R.CCOL_COUNT_COUNT b j) + n
  let s := s.put (R.CCOL_COUNT_COUNT b j) c
  if c < 2 ^ 48 then s
  else
    let s := s.put (R.CCOL_COUNT_OVF b j) 1
    if s.get (R.CCOL_SELECT_OVF_IRQ b j) = 1 then
      let pend := s.get (R.CCOL_OVF_PEND_PEND (b / 64))
      if pend.testBit (b % 64) then s
      else
        let s := s.put (R.CCOL_OVF_PEND_PEND (b / 64)) (pend + 1 <<< (b % 64))
        if s.get R.CCOL_CTL_MSI_ENABLE = 1 then
          s.sendMsi (s.get R.CCOL_MSI_ADDR_ADDR * 4) (s.get R.CCOL_MSI_DATA_DATA) 1
        else s
    else s

/-- Does counter `j` of bank `b` count an event: its EVENT, its UMASK where the event has items, and its filters, which
act only on events that carry identifiers (R407)? -/
def State.ctrTakes (s : State) (b j ev : Nat) (item : Option Nat) (ids : Option (Nat × Nat)) : Bool :=
  s.get (R.CCOL_SELECT_ENABLE b j) == 1 && s.get (R.CCOL_SELECT_EVENT b j) == ev &&
  (match item with | some v => (s.get (R.CCOL_SELECT_UMASK b j)).testBit v | none => true) &&
  (match ids with
   | some (rcid, mcid) =>
     (s.get (R.CCOL_SELECT_MCID_EN b j) == 0 || s.get (R.CCOL_SELECT_MCID b j) == mcid) &&
     (s.get (R.CCOL_SELECT_RCID_EN b j) == 0 || s.get (R.CCOL_SELECT_RCID b j) == rcid)
   | none => s.get (R.CCOL_SELECT_MCID_EN b j) == 0 && s.get (R.CCOL_SELECT_RCID_EN b j) == 0)

/-- An event of bank `b`: `n` of event `ev`, of item `item` where it has a UMASK, with the identifiers it carries where
R407 marks it F. Nothing counts while frozen (R409) or while its die is offline. -/
def State.count (s : State) (b ev : Nat) (item : Option Nat := none) (ids : Option (Nat × Nat) := none) (n : Nat := 1) :
    State :=
  let off := match bankDieOf b with | some d => !s.dieOnline d | none => false
  if off || s.get R.CCOL_CTL_FREEZE == 1 then s
  else foldN (bankCounters b) s (fun j s => if s.ctrTakes b j ev item ids then s.ctrAdd b j n else s)

def ctrVc (d sl : Nat) : Nat := 20 * d + sl
def ctrDie (d : Nat) : Nat := 20 * d + 16
def ctrPower (d : Nat) : Nat := 20 * d + 17
def ctrPassVale (p : Nat) : Nat := 20 * (p / 2) + 18 + p % 2
def ctrHome (n : Nat) : Nat := 240 + n
def ctrMc (n : Nat) : Nat := 256 + n
def ctrMesa (n : Nat) : Nat := 272 + n
def ctrPass (p : Nat) : Nat := 288 + p
def ctrHzn (p : Nat) : Nat := 312 + p
def ctrRoot (i : Nat) : Nat := 320 + i
def ctrXce : Nat := 352
def ctrIommu : Nat := 353

/-! ## Core counters (R404) -/

/-- The inhibit bit of mhpmevent for a mode (Sscofpmf). -/
def inhibitBit : Priv → Nat
  | .m => 62
  | .hs => 61
  | .u => 60
  | .vs => 59
  | .vu => 58

/-- A core event of hart `h` in mode `p`: every hpm counter that selects it counts; a wrap sets OF and, where OF was 0,
raises the local counter-overflow interrupt. -/
def State.hpmAdd (s : State) (h : Nat) (p : Priv) (ev n : Nat) : State :=
  foldN 16 s (fun i s =>
    let e := (s.reg (R.rmhpmevent h i)).toNat
    if e % 2 ^ 16 = ev ∧ ¬ e.testBit (inhibitBit p) then
      let c := (s.reg (R.rmhpmcounter h i)).toNat + n
      let s := s.setReg (R.rmhpmcounter h i) (BitVec.ofNat 64 c)
      if 2 ^ 64 ≤ c ∧ ¬ e.testBit 63 then
        let s := s.setReg (R.rmhpmevent h i) (BitVec.ofNat 64 (e + 2 ^ 63))
        s.setHart h { s.hart h with lcofi := true }
      else s
    else s)

/-- One event. -/
def State.hpm (s : State) (h : Nat) (p : Priv) (ev : Nat) : State := s.hpmAdd h p ev 1

/-- Hart `h` retires an instruction. -/
def State.retired (s : State) (h : Nat) : State := s.setReg (R.rminstret h) (s.reg (R.rminstret h) + 1)

end Sys2Proof.Machine
end

