-- ==== Sys2Proof/Machine/PciCfg.lean ====
section
/-!
DEFINITION. Configuration space (spec/11_xomus_function.md R263 to R271, spec/13_root_ports.md R311): the dwords of the
internal bridge, PF0, the VFs and the root ports as PCI Express lays them out, with the values the spec gives. What PCI
Express itself fixes is in notes/assumptions/32.md.
-/

namespace Sys2Proof.Machine

/-- The function that a routing ID names. -/
inductive CfgFn where
  | bridge
  | fn (f : Nat)
  | root (i : Nat)
  | other
  deriving DecidableEq, Repr

/-- The routing ID of XCE function `f` (R264). -/
def xceRid (f : Nat) : Nat := 0x100 + f

def cfgFnOf (rid : Nat) : CfgFn :=
  if rid = 0xF8 then .bridge
  else if rid < 32 then .root rid
  else if 0x100 ≤ rid ∧ rid ≤ 0x900 then .fn (rid - 0x100)
  else .other

/-- The bridge's dwords after reset. -/
def bridgeReset (o : Nat) : Nat :=
  match o with
  | 0x00 => 0x93874947
  | 0x04 => 0x00100000
  | 0x08 => 0x06040010
  | 0x0C => 0x00010000
  | 0x18 => 0x00090100
  | 0x24 => 0x00010001
  | 0x34 => 0x40
  | 0x40 => 0x00037001
  | 0x44 => 0x8
  | 0x70 => 0x80420010
  | 0x74 => 0x00008022
  | 0x78 => 0x2810
  | 0x7C => 0x00100106
  | 0x80 => 0x21060000
  | 0x94 => 0x00030020
  | 0x98 => 0x20
  | 0x9C => 0x7E
  | 0x100 => 0x00020001
  | 0x108 => 0x00400000
  | 0x10C => 0x00462030
  | 0x114 => 0xE000
  | _ => 0

/-- PF0's dwords after reset. -/
def pfReset (o : Nat) : Nat :=
  match o with
  | 0x00 => 0x93854947
  | 0x04 => 0x00100000
  | 0x08 => 0x08010010
  | 0x10 => 0x4
  | 0x20 => 0x4
  | 0x2C => 0x00014947
  | 0x34 => 0x40
  | 0x3C => 0x0100
  | 0x40 => 0x00035001
  | 0x44 => 0x8
  | 0x50 => 0x018A7005
  | 0x70 => 0x8002B010
  | 0x74 => 0x10008022
  | 0x78 => 0x2810
  | 0x7C => 0x00000106
  | 0x80 => 0x01060000
  | 0x94 => 0x00030000
  | 0x9C => 0x7E
  | 0xB0 => 0x003F0011
  | 0xB4 => 0x4
  | 0xB8 => 0x00400004
  | 0x100 => 0x14820001
  | 0x108 => 0x00400000
  | 0x10C => 0x00462030
  | 0x114 => 0xE000
  | 0x148 => 0x1501000E
  | 0x150 => 0x19010010
  | 0x15C => 0x08000800
  | 0x164 => 0x00010001
  | 0x168 => 0x93860000
  | 0x16C => 0x1F
  | 0x170 => 0x1
  | 0x174 => 0x4
  | 0x17C => 0xC
  | 0x190 => 0x0001000F
  | 0x194 => 0x20
  | _ => 0

/-- A VF's dwords after reset. -/
def vfReset (o : Nat) : Nat :=
  match o with
  | 0x00 => 0xFFFFFFFF
  | 0x04 => 0x00100000
  | 0x08 => 0x08010010
  | 0x2C => 0x00024947
  | 0x34 => 0x70
  | 0x70 => 0x8002B010
  | 0x74 => 0x10008022
  | 0x94 => 0x00030000
  | 0xB0 => 0x000F0011
  | 0xB4 => 0xE000
  | 0xB8 => 0xF000
  | 0x100 => 0x0001000F
  | 0x104 => 0x20
  | _ => 0

/-- A root port's dwords after reset: the command, bus number and window dwords are zero, the rest is PCI Express's. Function 0 of
a device reports a multi-function header (spec/13 R311). -/
def rootReset (i o : Nat) : Nat :=
  if o = 0x04 ∨ o = 0x18 ∨ o = 0x1C ∨ o = 0x20 ∨ o = 0x24 ∨ o = 0x28 ∨ o = 0x2C then 0
  else if o = 0x0C then setBits (Config.rootCfg i o) 16 8 (if i % 8 = 0 then 0x81 else 0x01)
  else Config.rootCfg i o

/-- A dword of configuration space after reset, by ECAM offset / 4. -/
def cfgReset (k : Nat) : Nat :=
  let o := k % 1024 * 4
  match cfgFnOf (k / 1024) with
  | .bridge => bridgeReset o
  | .fn f => if f = 0 then pfReset o else vfReset o
  | .root i => rootReset i o
  | .other => 0

/-- The bits of a dword that software writes, and those it clears by writing 1. -/
def cfgMasks (fn : CfgFn) (o : Nat) : Nat × Nat :=
  match fn with
  | .bridge =>
    match o with
    | 0x04 => (0x547, 0xF9000000)
    | 0x0C => (0xFF, 0)
    | 0x1C => (0, 0xF9000000)
    | 0x20 => (0xFFF0FFF0, 0)
    | 0x24 => (0xFFF0FFF0, 0)
    | 0x28 => (0xFFF, 0)
    | 0x2C => (0xFFF, 0)
    | 0x3C => (0x005300FF, 0)
    | 0x44 => (0x3, 0)
    | 0x78 => (0x79FF, 0x000F0000)
    | 0x104 => (0, 0x07FFF030)
    | 0x108 => (0x07FFF030, 0)
    | 0x10C => (0x07FFF030, 0)
    | 0x110 => (0, 0xF1C1)
    | 0x114 => (0xF1C1, 0)
    | 0x12C => (0x7, 0)
    | 0x130 => (0, 0x7F)
    | _ => (0, 0)
  | .fn 0 =>
    match o with
    | 0x04 => (0x546, 0xF9000000)
    | 0x10 => (0xFE000000, 0)
    | 0x14 => (0xFFF, 0)
    | 0x20 => (0xFF800000, 0)
    | 0x24 => (0xFFF, 0)
    | 0x3C => (0xFF, 0)
    | 0x44 => (0x3, 0)
    | 0x50 => (0x00710000, 0)
    | 0x54 => (0xFFFFFFFC, 0)
    | 0x58 => (0xFFFFFFFF, 0)
    | 0x5C => (0xFFFF, 0)
    | 0x60 => (0xFFFFFFFF, 0)
    | 0x78 => (0x79FF, 0x000F0000)
    | 0x98 => (0x1000, 0)
    | 0xB0 => (0xC0000000, 0)
    | 0x104 => (0, 0x07FFF030)
    | 0x108 => (0x07FFF030, 0)
    | 0x10C => (0x07FFF030, 0)
    | 0x110 => (0, 0xF1C1)
    | 0x114 => (0xF1C1, 0)
    | 0x158 => (0x18, 0)
    | 0x170 => (0xFFFFFFFF, 0)
    | 0x174 => (0xFFFF0000, 0)
    | 0x178 => (0xFFF, 0)
    | 0x17C => (0xC0000000, 0)
    | 0x180 => (0xFFF, 0)
    | 0x194 => (0x801F0000, 0)
    | _ => (0, 0)
  | .fn _ =>
    match o with
    | 0x04 => (0x4, 0)
    | 0x78 => (0, 0x000F0000)
    | 0x98 => (0x1000, 0)
    | 0xB0 => (0xC0000000, 0)
    | 0x104 => (0x801F0000, 0)
    | _ => (0, 0)
  | .root _ => (if o = 0 ∨ o = 8 then 0 else 0xFFFFFFFF, 0)
  | .other => (0, 0)

/-- A dword of a function's configuration space. -/
def State.cfg (s : State) (rid o : Nat) : Nat := Tbl.get cfgReset s.io.cfg (rid * 1024 + o / 4)
def State.setCfg (s : State) (rid o v : Nat) : State :=
  { s with io := { s.io with cfg := Tbl.set cfgReset s.io.cfg (rid * 1024 + o / 4) (v % 2 ^ 32) } }
def State.cfgBits (s : State) (rid o lo w : Nat) : Nat := bits (s.cfg rid o) lo w
def State.putCfg (s : State) (rid o lo w v : Nat) : State := s.setCfg rid o (setBits (s.cfg rid o) lo w v)

/-- A function's configuration registers hold their reset values again. -/
def State.resetCfg (s : State) (rid : Nat) : State :=
  { s with io := { s.io with cfg := s.io.cfg.filter (fun e => e.1 / 1024 != rid) } }

/-! ## Fields by name (R271 to R279) -/

def ridBRIDGE : Nat := 0xF8
def ridPF : Nat := 0x100

def State.vfEnabled (s : State) : Bool := s.cfgBits ridPF 0x158 0 1 == 1
def State.vfMse (s : State) : Bool := s.cfgBits ridPF 0x158 3 1 == 1
def State.numVfs (s : State) : Nat := s.cfgBits ridPF 0x160 0 16
/-- ATS Enable of function `f`. -/
def State.atsOn (s : State) (f : Nat) : Bool := s.cfgBits (xceRid f) (if f = 0 then 0x194 else 0x104) 31 1 == 1
/-- Bus Master Enable of function `f`, the bridge's included (R279). -/
def State.bmeOn (s : State) (f : Nat) : Bool :=
  s.cfgBits (xceRid f) 0x04 2 1 == 1 && s.cfgBits ridBRIDGE 0x04 2 1 == 1
/-- MSI-X Enable and Function Mask. -/
def State.msixOn (s : State) (f : Nat) : Bool := s.cfgBits (xceRid f) 0xB0 31 1 == 1
def State.msixMask (s : State) (f : Nat) : Bool := s.cfgBits (xceRid f) 0xB0 30 1 == 1
def State.d3hot (s : State) : Bool := s.cfgBits ridPF 0x44 0 2 == 3

/-- Does XCE function `f` exist (R264, R272)? -/
def State.fnExists (s : State) (f : Nat) : Bool := f == 0 || (decide (f ≤ s.get R.XCE_VF_STATE_VFS_ENABLED) && s.vfEnabled)

/-- Does function `f` drain (R280)? -/
def State.fnDrains (s : State) (f : Nat) : Bool := s.xce.drain.contains f

/-! ## Windows and BARs (R26, R269, R270) -/

/-- The 64-bit address of a BAR. -/
def State.barBase (s : State) (o size : Nat) : Nat :=
  let v := s.cfg ridPF o + s.cfg ridPF (o + 4) <<< 32
  v - v % size

/-- The windows of a Type 1 function: the 32-bit and the prefetchable one, as (first, last). -/
def State.bridgeWindows (s : State) (rid : Nat) : List (Nat × Nat) :=
  let m := s.cfg rid 0x20
  let q := s.cfg rid 0x24
  let lo := (bits m 4 12) <<< 20
  let hi := (bits m 20 12) <<< 20 + 0xFFFFF
  let plo := (bits q 4 12) <<< 20 + (s.cfg rid 0x28) <<< 32
  let phi := (bits q 20 12) <<< 20 + 0xFFFFF + (s.cfg rid 0x2C) <<< 32
  if s.cfgBits rid 0x04 1 1 = 1 then [(lo, hi), (plo, phi)].filter (fun w => decide (w.1 ≤ w.2)) else []

/-- The BAR ranges of the XCE that decode, before the bridge's windows: first, size and what it is (0 PF0 BAR0, 1 PF0
BAR4, 2 VF BAR0, 3 VF BAR2). -/
def State.xceBars (s : State) : List (Nat × Nat × Nat) :=
  let pf := s.cfgBits ridPF 0x04 1 1 == 1 && !s.d3hot && !s.fnDrains 0
  let vf := s.vfEnabled && s.vfMse
  let n := s.get R.XCE_VF_STATE_VFS_ENABLED
  (if pf then [(s.barBase 0x10 0x2000000, 0x2000000, 0), (s.barBase 0x20 0x800000, 0x800000, 1)] else []) ++
  (if vf then [(s.barBase 0x174 0x10000, n * 0x10000, 2), (s.barBase 0x17C 0x40000000, n * 0x40000000, 3)] else [])

/-- The BAR that a local address reaches: what it is and the offset. The BARs of a VF that drains do not decode (R280). -/
def State.xceBarAt (s : State) (a : Nat) : Option (Nat × Nat) :=
  if (s.bridgeWindows ridBRIDGE).any (fun w => decide (w.1 ≤ a) && decide (a ≤ w.2)) then
    (s.xceBars.find? (fun b => decide (b.1 ≤ a) && decide (a < b.1 + b.2.1) &&
      !(b.2.2 == 2 && s.fnDrains ((a - b.1) / 0x10000 + 1)) && !(b.2.2 == 3 && s.fnDrains ((a - b.1) / 0x40000000 + 1)))).map
      (fun b => (b.2.2, a - b.1))
  else none

/-- The root port whose windows hold a local address. -/
def State.rootAt (s : State) (a : Nat) : Option Nat :=
  (List.range 32).find? (fun i =>
    s.get (R.RPRT_STATUS_WIDTH i) != 0 && (s.bridgeWindows i).any (fun w => decide (w.1 ≤ a) && decide (a ≤ w.2)))

/-- Do the XCE's BARs that decode overlap each other or a root port's window, which is a host-made error (R270)? -/
def State.barsClash (s : State) : Bool :=
  let bars := s.xceBars.map (fun b => (b.1, b.1 + b.2.1))
  let wins := (List.range 32).flatMap (fun i =>
    if s.get (R.RPRT_STATUS_WIDTH i) = 0 then [] else (s.bridgeWindows i).map (fun w => (w.1, w.2 + 1)))
  let meet (a b : Nat × Nat) : Bool := decide (a.1 < b.2) && decide (b.1 < a.2) && decide (a.1 < a.2) && decide (b.1 < b.2)
  bars.zipIdx.any (fun a => bars.zipIdx.any (fun b => decide (a.2 < b.2) && meet a.1 b.1) || wins.any (meet a.1))

end Sys2Proof.Machine
end

