-- ==== Sys2Proof/Machine/Addr.lean ====
section
/-!
DEFINITION. The address map (spec/01_package_topology.md R22 to R35): from a global address to what lies there, to
the decode address, the slice, the set and the channel, and who may reach it.
-/

namespace Sys2Proof.Machine

/-- The mapped DRAM capacity in bytes (R24). -/
def State.cap (s : State) : Nat := s.get R.PKG_MEMMAP_DRAM_TOP_GIB * 2 ^ 30

/-- What a local address names (R23). Memory gives its decode address (R27). -/
inductive Range where
  | dram (d : Nat)
  | cxl (d : Nat)
  | unbacked
  | mmio
  | ecam (off : Nat)
  | prs (off : Nat)
  | irq
  | reserved
  deriving DecidableEq, Repr

/-- The local address map (R23, R24, R27). -/
def State.rangeOf (s : State) (a : Nat) : Range :=
  let c := s.cap
  if a < 0xC0000000 then (if a < c then .dram a else .unbacked)
  else if a < 0x100000000 then .mmio
  else if a < c then .dram a
  else if a < c + 0x40000000 ∧ s.get R.PKG_MEMMAP_HOLE_WITHHELD = 0 ∧ 0 < c then .dram (a - c + 0xC0000000)
  else if a < 0x80000000000 then .unbacked
  else if a < 0xC0000000000 then .cxl a
  else if a < 0xF0000000000 then .mmio
  else if a < 0xF0003000000 then .irq
  else if a < 0xFFE00000000 then .reserved
  else if a < 0xFFE10000000 then .ecam (a - 0xFFE00000000)
  else if a < 0xFFF00000000 then .reserved
  else if a < 0xFFF10000000 then .prs (a - 0xFFF00000000)
  else .reserved

/-- Region states of a root port (spec/13 R314). -/
def regionOFFLINE : Nat := 0
def regionFILLING : Nat := 1
def regionONLINE : Nat := 2
def regionDRAINING : Nat := 3

/-- The root port whose online or draining CXL region holds a decode address (spec/13 R314): such memory is backed. -/
def State.cxlPort (s : State) (d : Nat) : Option Nat :=
  (List.range 32).find? (fun i =>
    let st := s.get (R.RPRT_STATUS_REGION_STATE i)
    let base := s.get (R.RPRT_CXL_REGION_BASE_GIB i) * 2 ^ 30 + 0x80000000000
    (st == regionONLINE || st == regionDRAINING) && decide (base ≤ d) &&
    decide (d < base + s.get (R.RPRT_CXL_REGION_SIZE_GIB i) * 2 ^ 30))

/-- The decode address of a local address that is backed memory (R25, R27). A CXL region whose drain is done is backed no
more, while the Mesa slices are invalidated (spec/08 R207). -/
def State.backed (s : State) (a : Nat) : Option Nat :=
  match s.rangeOf a with
  | .dram d => some d
  | .cxl d => match s.cxlPort d with | some i => if s.mesa.offPorts.contains i then none else some d | none => none
  | _ => none

/-- The exclusive or of the 4-bit groups of `n` from bit `lo`, `k` of them. -/
def xorGroups (n lo : Nat) : Nat → Nat
  | 0 => 0
  | k + 1 => bits n lo 4 ^^^ xorGroups n (lo + 4) k

/-- The slice that homes a decode address (R28). -/
def sliceOf (d : Nat) : Nat := xorGroups d 12 8

/-- The proxy index of a global address (spec/04 R101). -/
def proxyOf (ga : Nat) : Nat := xorGroups ga 12 11

/-- The Vale cache slice and snoop-filter bank of a global address (spec/03 R64). -/
def valeSlice (ga : Nat) : Nat := bits ga 6 4 ^^^ xorGroups ga 12 11
/-- The set within it. -/
def valeSet (ga : Nat) : Nat := bits ga 10 12 ^^^ bits ga 22 12

/-- The Mesa set of a decode address, its tag and its block (R29). -/
def mesaSet (d : Nat) : Nat := ((bits d 16 10 ^^^ bits d 26 10) <<< 2) ||| bits d 10 2
def mesaTag (d : Nat) : Nat := bits d 26 18
def mesaBlk (d : Nat) : Nat := bits d 6 4

/-- The package directory set of a decode address (spec/04 R97); its tag is `mesaTag`. -/
def dirSet (d : Nat) : Nat := ((bits d 16 10 ^^^ bits d 26 10) <<< 6) ||| bits d 6 6
/-- The RPT set and tag (R100). -/
def rptSet (d : Nat) : Nat := (((bits d 16 10 ^^^ bits d 26 10) &&& 0x7F) <<< 6) ||| bits d 6 6
def rptTag (d : Nat) : Nat := bits d 23 21
/-- The RLD set and tag of a global address (R101). -/
def rldSet (ga : Nat) : Nat := ((bits ga 16 8 ^^^ bits ga 24 8) <<< 6) ||| bits ga 6 6
def rldTag (ga : Nat) : Nat := bits ga 24 32

/-- The ordinal and the channel page of a DRAM decode address by channel mode (R30): 0 16-way, 1 12-way, 2 8-way,
3 15+1. -/
def chanPlace (mode d : Nat) : Nat × Nat :=
  let p := d / 4096
  if mode = 0 then (sliceOf d, p / 16)
  else if mode = 1 then (p % 12, p / 12)
  else if mode = 2 then (sliceOf d / 2 * 2, (p / 16) * 2 + sliceOf d % 2)
  else (p % 15, p / 15)

/-- The channel that carries an ordinal (spec/07, MC_CH_STATUS.ORDINAL). -/
def State.chanOf (s : State) (ord : Nat) : Nat :=
  ((List.range 16).find? (fun c => s.get (R.MC_CH_STATUS_ORDINAL c) == ord)).getD ord

/-- The channel and the byte address within it of a DRAM decode address. -/
def State.dramPlace (s : State) (d : Nat) : Nat × Nat :=
  let r := chanPlace (s.get R.PKG_MEMMAP_CHANNEL_MODE) d
  (s.chanOf r.1, r.2 * 4096 + d % 4096)

/-- The memory cell of a channel byte address, and of a CXL decode address. -/
def chanCell (ch x : Nat) : Nat := ch * 2 ^ 40 + x
def cxlCell (d : Nat) : Nat := 2 ^ 44 + d

/-! ## The island (spec/10 R255) -/

def memFREE : Nat := 0
def memADMITTED : Nat := 1
def memACTIVE : Nat := 2
def memLEAVING : Nat := 3
def memLOST : Nat := 4

def islALONE : Nat := 0
def islJOINING : Nat := 1
def islJOINED : Nat := 2
def islLEAVING : Nat := 3

/-- The member index under which this package's agents reach a package's memory: this package JOINED and the entry
ACTIVE (spec/10 R254). -/
def State.memberOf (s : State) (pkg : Nat) : Option Nat :=
  if s.get R.ROUTE_ISLAND_STATUS_STATE = islJOINED then
    (List.range 32).find? (fun i =>
      s.get (R.ROUTE_MEMBER_PACKAGE_ID i) == pkg && s.get (R.ROUTE_MEMBER_STATE i) == memACTIVE)
  else none

/-- Is member `i` served: this package JOINED or LEAVING and the entry ACTIVE or LEAVING (R254)? -/
def State.memberServed (s : State) (i : Nat) : Bool :=
  let own := s.get R.ROUTE_ISLAND_STATUS_STATE
  let st := s.get (R.ROUTE_MEMBER_STATE i)
  (own == islJOINED || own == islLEAVING) && (st == memACTIVE || st == memLEAVING)

/-- The index of a package whose messages are served. -/
def State.servedAs (s : State) (pkg : Nat) : Option Nat :=
  (List.range 32).find? (fun i => s.get (R.ROUTE_MEMBER_PACKAGE_ID i) == pkg && s.memberServed i)

/-! ## Routes (spec/10 R251) -/

def hznDISABLED : Nat := 0
def hznPMD : Nat := 1
def hznALIGN : Nat := 2
def hznEXCHANGE : Nat := 3
def hznCONFIG : Nat := 4
def hznACTIVE : Nat := 5
def hznRETRAIN : Nat := 6

def State.hznState (s : State) (p : Nat) : Nat := s.get (R.HZN_STATUS_STATE p)

/-- Where a message for a package goes: on one of some ACTIVE ports, nowhere yet, or nowhere at all. -/
inductive Route where
  | ports (l : List Nat)
  | waits
  | unroutable
  deriving DecidableEq, Repr

def State.activePorts (s : State) (mask : Nat) : List Nat :=
  (List.range 8).filter (fun p => mask.testBit p && s.hznState p == hznACTIVE)

/-- Has ALT_HOLD passed for a destination, so that its traffic uses ALT_MASK? -/
def State.onAlt (s : State) (pkg : Nat) : Bool := Tbl.get (fun _ => false) s.hzn.hold pkg

/-- How a message for another package is routed (R251). -/
def State.route (s : State) (pkg : Nat) : Route :=
  if s.get (R.ROUTE_ENTRY_VALID pkg) = 0 then .unroutable
  else if s.onAlt pkg then
    match s.activePorts (s.get (R.ROUTE_ENTRY_ALT_MASK pkg)) with
    | [] => .unroutable
    | l => .ports l
  else
    match s.activePorts (s.get (R.ROUTE_ENTRY_PORT_MASK pkg)) with
    | [] => .waits
    | l => .ports l

/-! ## Who may reach what (R32, R33) -/

/-- What an access meets. `fault` carries the CAUSE of PKG_DECODE_ERR. -/
inductive Reach where
  | mem (d : Nat)
  | peer
  | mmio
  | ecam (off : Nat)
  | prs (off : Nat)
  | irq
  | fault (cause : Nat)
  deriving DecidableEq, Repr

/-- M-mode and HS-mode form one column of R32. -/
def privHigh : Priv → Bool
  | .m => true
  | .hs => true
  | _ => false

/-- Is an MMIO local address inside a root port's window, or a BAR of the XCE that decodes (R26, spec/11 R270)? -/
def State.mmioBacked (s : State) (a : Nat) : Bool := (s.xceBarAt a).isSome || (s.rootAt a).isSome

/-- The column of R32 for harts. DESIGN CHOICE (notes/assumptions/50.md): the CAUSE table names none for an access to a
range of an in-island peer that is not memory; 3 is taken for one that exists there, 0 for a reserved one. -/
def State.reachHart (s : State) (p : Priv) (ga : Nat) : Reach :=
  let a := ga % 2 ^ 44
  if ga / 2 ^ 44 = s.pkgId then
    match s.rangeOf a with
    | .dram d => .mem d
    | .cxl d => if (s.backed a).isSome then .mem d else .fault 1
    | .unbacked => .fault 1
    | .mmio => if s.mmioBacked a then .mmio else .fault 1
    | .ecam off => if privHigh p then .ecam off else .fault 2
    | .prs off => if privHigh p then .prs off else .fault 2
    | .irq => .irq
    | .reserved => .fault 0
  else
    match s.memberOf (ga / 2 ^ 44) with
    | none => .fault 4
    | some _ =>
      -- Whether a remote memory address is mapped is decided by the peer (R33).
      if a < 0xC0000000 ∨ (0x100000000 ≤ a ∧ a < 0xC0000000000) then .peer
      else if a < 0xF0000000000 ∨ (0xF0000000000 ≤ a ∧ a < 0xF0003000000) then .fault 3
      else if (0xFFE00000000 ≤ a ∧ a < 0xFFE10000000) ∨ (0xFFF00000000 ≤ a ∧ a < 0xFFF10000000) then .fault 3
      else .fault 0

/-- The column of R32 for device DMA of a root port or the XCE; `fault` is CA. -/
def State.reachDevice (s : State) (ga : Nat) : Reach :=
  match s.reachHart .m ga with
  | .mmio => .fault 3
  | .ecam _ => .fault 3
  | .prs _ => .fault 3
  | r => r

/-- The column of R32 for an instruction fetch (R33): `fault` carries the CAUSE recorded. -/
def State.reachFetch (s : State) (p : Priv) (ga : Nat) : Reach :=
  match s.reachHart p ga with
  | .mmio => .fault 3
  | .ecam _ => .fault 3
  | .prs _ => .fault 3
  | .irq => .fault 0
  | r => r

/-- The home slice of a global address: by R28 for a local one; for a peer's, whose capacity this package does not
know, by this package's own map (notes/assumptions/12.md). -/
def State.homeSlice (s : State) (ga : Nat) : Nat :=
  match s.rangeOf (ga % 2 ^ 44) with
  | .dram d => sliceOf d
  | .cxl d => sliceOf d
  | _ => sliceOf (ga % 2 ^ 44)

end Sys2Proof.Machine
end

