-- ==== Sys2Proof/Machine/Qos.lean ====
section
/-!
DEFINITION. The CBQRI controllers (spec/09 R218 to R222, spec/03 R74, spec/08 R203, spec/07 R192) and the meter's
counting (R223).
-/

namespace Sys2Proof.Machine

/-- The code of a controller in the keys of `QosSt`. -/
def qosCode : QosCtl → Nat
  | .vc d => d
  | .mesa => 12
  | .mc ch => 16 + ch
  | .hzn p => 32 + p

def qosMesa : Nat := 12
def qosMc (ch : Nat) : Nat := 16 + ch
def qosHzn (p : Nat) : Nat := 32 + p

/-- Capacity controllers, the others being bandwidth controllers (R218). -/
def qosIsCap : QosCtl → Bool
  | .vc _ => true
  | .mesa => true
  | _ => false

/-- The capacity mask of an RCID: every way after POR (R74, R203). -/
def State.capMask (s : State) (c rcid : Nat) : Nat := Tbl.get (fun _ => 0xFFFF) s.qos.cap (c * 1024 + rcid)
def State.setCapMask (s : State) (c rcid m : Nat) : State :=
  { s with qos := { s.qos with cap := Tbl.set (fun _ => 0xFFFF) s.qos.cap (c * 1024 + rcid) m } }

/-- MRBWB (R192, R218). -/
def qosMRBWB : Nat := 900

/-- An RCID's (Rbwb, Mweight) after POR: all that can be reserved, and the pool, are RCID 0's (PRESUMED,
notes/assumptions/8.md). -/
def bwDefault (k : Nat) : Nat × Nat := if k % 1024 = 0 then (qosMRBWB, 1) else (0, 0)
def State.bwOf (s : State) (c rcid : Nat) : Nat × Nat := Tbl.get bwDefault s.qos.bw (c * 1024 + rcid)
def State.bwNow (s : State) (c rcid : Nat) : Nat × Nat := Tbl.get bwDefault s.qos.bwNow (c * 1024 + rcid)
def State.bal (s : State) (c rcid : Nat) : Int := Tbl.get (fun _ => 0) s.qos.bal (c * 1024 + rcid)
def State.setBal (s : State) (c rcid : Nat) (v : Int) : State :=
  { s with qos := { s.qos with bal := Tbl.set (fun _ => 0) s.qos.bal (c * 1024 + rcid) v } }
def State.pool (s : State) (c : Nat) : Nat := Tbl.get (fun _ => 0) s.qos.pool c
def State.setPool (s : State) (c v : Nat) : State :=
  { s with qos := { s.qos with pool := Tbl.set (fun _ => 0) s.qos.pool c v } }

def State.drawn (s : State) (c rcid : Nat) : Nat := Tbl.get (fun _ => 0) s.qos.drawn (c * 1024 + rcid)
def State.setDrawn (s : State) (c rcid v : Nat) : State :=
  { s with qos := { s.qos with drawn := Tbl.set (fun _ => 0) s.qos.drawn (c * 1024 + rcid) v } }
def State.waited (s : State) (c rcid : Nat) : Nat := Tbl.get (fun _ => 0) s.qos.waited (c * 1024 + rcid)
def State.setWaited (s : State) (c rcid v : Nat) : State :=
  { s with qos := { s.qos with waited := Tbl.set (fun _ => 0) s.qos.waited (c * 1024 + rcid) v } }

/-- A line request, in tenths of a byte (R220). -/
def lineTokens : Nat := 640

/-- Does an RCID win a share of the pool, where those of `w` have requests waiting: the pool holds a line's tokens, and none
of them that draws on it too has had less for its weight (R220 items 2 and 3; DESIGN CHOICE in what the proportion means for
one request, notes/assumptions/55.md)? -/
def State.bwShare (s : State) (c rcid : Nat) (w : List Nat) : Bool :=
  let weight (q : Nat) : Nat := (s.bwNow c q).2
  decide (lineTokens ≤ s.pool c) && weight rcid != 0 &&
  w.all (fun q => q == rcid || decide (0 < s.bal c q) || weight q == 0 ||
    decide (s.drawn c rcid * weight q ≤ s.drawn c q * weight rcid))

/-- Does an RCID hold tokens in the current epoch: a reserved balance above zero, or a share of the pool (R220 item
3)? -/
def State.hasTokens (s : State) (c rcid : Nat) (w : List Nat) : Bool := decide (0 < s.bal c rcid) || s.bwShare c rcid w

/-- Is a request of an RCID admitted: by its tokens, or because this is the last of 64 epochs (R220 items 3 and 4)? -/
def State.admits (s : State) (c rcid : Nat) (w : List Nat) : Bool := s.hasTokens c rcid w || decide (63 ≤ s.waited c rcid)

/-- Charge one line request of 64 bytes: to the reserved balance, down to -64 bytes, or to the pool (R220 item 3). A request
admitted by item 4 with neither is charged to the balance within the same floor. -/
def State.chargeTokens (s : State) (c rcid : Nat) (w : List Nat) : State :=
  let s1 :=
    if 0 < s.bal c rcid ∨ !s.bwShare c rcid w then s.setBal c rcid (max (s.bal c rcid - lineTokens) (-640))
    else (s.setPool c (s.pool c - lineTokens)).setDrawn c rcid (s.drawn c rcid + lineTokens)
  s1.setWaited c rcid 0

/-- A monitoring counter counts `n` of `mcid` at a bandwidth controller: event 1 total, 2 reads, 3 writes (R219). What is
neither a read nor a write of data counts in the total. -/
def State.monitor (s : State) (c mcid : Nat) (write : Option Bool) (n : Nat) : State :=
  let k := c * 1024 + mcid
  let ev := Tbl.get (fun _ => 0) s.qos.monEv k
  if ev = 1 ∨ (ev = 2 ∧ write = some false) ∨ (ev = 3 ∧ write = some true) then
    { s with qos := { s.qos with mon := Tbl.upd (fun _ => 0) s.qos.mon k (fun v => (v + n) % 2 ^ 62) } }
  else s

/-! ## Metering (R223) -/

def qACTIVE_NS : Nat := 0
def qCYCLES : Nat := 1
def qMEM_READ : Nat := 2
def qMEM_WRITE : Nat := 3
def qVC_OCC : Nat := 4
def qMESA_OCC : Nat := 5
def qHZN_TX : Nat := 6
def qHZN_RX : Nat := 7
def qXCE : Nat := 8
def qENERGY : Nat := 9

/-- What die `d` contributes to quantity 0, 1 or 4. -/
def qDie (d q : Nat) : Nat := 10 + 3 * d + (if q = qVC_OCC then 2 else q)

def accKey (bank src mcid : Nat) : Nat := (bank * 64 + src) * 1024 + mcid
def State.meterAcc (s : State) (bank src mcid : Nat) : Nat := Tbl.get (fun _ => 0) s.meter.acc (accKey bank src mcid)
def State.meterTot (s : State) (bank src : Nat) : Nat := Tbl.get (fun _ => 0) s.meter.tot (bank * 64 + src)

/-- A counted event in a bank: the totaliser and exactly one accumulator rise by the same amount (R223). -/
def State.meterIn (s : State) (b src mcid n : Nat) : State :=
  { s with meter := { s.meter with
    acc := Tbl.set (fun _ => 0) s.meter.acc (accKey b src (mcid % 1024)) (s.meterAcc b src (mcid % 1024) + n),
    tot := Tbl.set (fun _ => 0) s.meter.tot (b * 64 + src) (s.meterTot b src + n) } }

/-- A counted event of the minute in progress. -/
def State.meterAdd (s : State) (src mcid n : Nat) : State := s.meterIn s.meter.bank src mcid n

/-- Bytes of a Horizon frame (spec/10 R237). -/
def frameBytes : Nat := 640

/-- Bytes sent on a Horizon port are metered, and its controller counts them (R221, R223). -/
def State.hznTxBytes (s : State) (p mcid : Nat) (write : Option Bool) (n : Nat) : State :=
  (s.meterAdd qHZN_TX mcid n).monitor (qosHzn p) mcid write n

end Sys2Proof.Machine
end

