-- ==== Sys2Proof/Machine/Tvx.lean ====
section
/-!
DEFINITION. The command protocol of Thoiviyx (spec/15_thoiviyx_management.md R346 to R357): answers, freezes, the
executor and long operations; and the settings store with the device records (R360 to R362, R436).
-/

namespace Sys2Proof.Machine

/-! ## Opcodes and status codes (R349, R350) -/

def opGET_INFO : Nat := 0x01
def opQUERY_TAG : Nat := 0x02
def opABORT : Nat := 0x03
def opQUEUE_FLUSH : Nat := 0x04
def opRESET_CHANNEL : Nat := 0x05
def opGET_ERROR_LOG : Nat := 0x06
def opRESUME_QUEUE : Nat := 0x07
def opEVENT_ENABLE : Nat := 0x08
def opGET_SENSORS : Nat := 0x10
def opGET_HEALTH : Nat := 0x11
def opREAD_EVENT_LOG : Nat := 0x12
def opREAD_JOURNAL : Nat := 0x13
def opSETTINGS_GET : Nat := 0x20
def opSETTINGS_SET : Nat := 0x21
def opCLEAR_RETIREMENT : Nat := 0x22
def opKEY_SET : Nat := 0x30
def opKEY_ACTIVATE : Nat := 0x31
def opKEY_CLEAR : Nat := 0x32
def opKEY_QUERY : Nat := 0x33
def opSTAGE_BLOCK : Nat := 0x40
def opSTAGE_STATUS : Nat := 0x41
def opACTIVATE : Nat := 0x42
def opSANITISE_RANGE : Nat := 0x50
def opFORMAT_RANGE : Nat := 0x51
def opSANITISE_DEVICE : Nat := 0x52
def opDIE_OFFLINE : Nat := 0x60
def opDIE_ONLINE : Nat := 0x61
def opPACKAGE_RESET : Nat := 0x70
def opHOST_WRITE : Nat := 0x80
def opHOST_READ : Nat := 0x81

def immediateOps : List Nat := [opQUERY_TAG, opABORT, opRESET_CHANNEL, opGET_ERROR_LOG, opRESUME_QUEUE]
def longOps : List Nat := [opACTIVATE, opSANITISE_RANGE, opFORMAT_RANGE, opSANITISE_DEVICE, opDIE_OFFLINE, opDIE_ONLINE]
def queuedOps : List Nat :=
  [opGET_INFO, opQUEUE_FLUSH, opEVENT_ENABLE, opGET_SENSORS, opGET_HEALTH, opREAD_EVENT_LOG, opREAD_JOURNAL,
   opSETTINGS_GET, opSETTINGS_SET, opCLEAR_RETIREMENT, opKEY_SET, opKEY_ACTIVATE, opKEY_CLEAR, opKEY_QUERY,
   opSTAGE_BLOCK, opSTAGE_STATUS, opPACKAGE_RESET, opHOST_WRITE, opHOST_READ]
def recoveryOps : List Nat := [opGET_INFO, opSTAGE_BLOCK, opSTAGE_STATUS, opACTIVATE]

def stOK : Nat := 0
def stBUSY : Nat := 1
def stFROZEN : Nat := 2
def stFULL : Nat := 3
def stTAG_IN_USE : Nat := 4
def stABORTED : Nat := 5
def stABORTED_RESET : Nat := 6
def stABORTED_ACTIVATION : Nat := 7
def stCAUGHT : Nat := 8
def stMISSED : Nat := 9
def stIN_PROGRESS : Nat := 0xA
def stNOT_FOUND : Nat := 0xB
def stINVALID_OPCODE : Nat := 0x10
def stINVALID_ARG : Nat := 0x11
def stREFUSED : Nat := 0x12
def stINVALID_STATE : Nat := 0x13
def stXFER_ERROR : Nat := 0x14
def stUNSUPPORTED : Nat := 0x15
def stDEVICE_ERROR : Nat := 0x16
def stINCOMPATIBLE : Nat := 0x17
def stMIGRATION : Nat := 0x18

/-- Statuses that freeze their ingress (R350). -/
def statusFreezes (st : Nat) : Bool :=
  [0x10, 0x11, 0x12, 0x13, 0x14, 0x16, 0x17, 0x18].contains st

/-- Is the opcode listed as a command that the executor runs, in this version (R348, R349)? ABORT is not in version
1, where it queues like an unknown opcode. -/
def opRuns (recovery : Bool) (version op : Nat) : Bool :=
  (queuedOps.contains op || longOps.contains op) && (op != opEVENT_ENABLE || decide (3 ≤ version)) &&
  (!recovery || recoveryOps.contains op)

/-- Does the opcode act when it is received (R352)? -/
def opImmediate (version op : Nat) : Bool := immediateOps.contains op && (op != opABORT || decide (2 ≤ version))

/-- Is a component's firmware being restarted by an activation, so that what needs it waits (spec/06 R162, spec/10
R247, spec/16 R373)? -/
def State.ucRestarting (s : State) (c : Nat) : Bool :=
  match s.tvx.act with
  | some a => a.ph == .comp c || a.ph == .back c
  | none => false
def ucPWR : Nat := 2
def ucPASS : Nat := 3
def ucHZN : Nat := 5
def ucXCE : Nat := 6

/-! ## Answers -/

/-- The RESPONSE to a command. -/
def rspPkt (p : Pkt) (st aux : Nat) (data : List Nat) : Pkt :=
  { version := p.version, typ := 1, tag := p.tag, opcode := p.opcode, status := st, length := data.length, aux := aux,
    data := data }

/-- Answer a command. -/
def State.answer (s : State) (g : Ingress) (p : Pkt) (st : Nat) (aux : Nat := 0) (data : List Nat := []) : State :=
  s.sendPkt g (rspPkt p st aux data)

/-- Answer a queued command and keep the response for QUERY_TAG (R353). -/
def State.complete (s : State) (c : QCmd) (st : Nat) (aux : Nat := 0) (data : List Nat := []) : State :=
  let x := s.ing c.ing
  let r := rspPkt c.pkt st aux data
  (s.setIng c.ing { x with stored := Tbl.set (fun _ => none) x.stored c.pkt.tag (some r) }).sendPkt c.ing r

/-- Commands of an ingress that are queued, the executing one included. -/
def State.queuedOf (s : State) (g : Ingress) : List QCmd := s.tvx.queue.filter (fun c => c.ing == g)
def State.setQueue (s : State) (q : List QCmd) : State := { s with tvx := { s.tvx with queue := q } }

/-- An ingress freezes (R351): every command queued behind completes QUEUE_FROZEN, in order. -/
def State.freeze (s : State) (c : QCmd) (st aux : Nat) : State :=
  let mine := s.queuedOf c.ing
  let s := s.setQueue (s.tvx.queue.filter (fun x => x.ing != c.ing))
  let x := s.ing c.ing
  let s := s.setIng c.ing { x with frozen := true, errRead := false, errLog := some (c.pkt.tag, c.pkt.opcode, st, aux),
                                   errTags := mine.map (·.pkt.tag) }
  mine.foldl (fun s q => s.complete q stFROZEN) s

/-- A command that has left the queue completes with its final status (R350, R351). -/
def State.finish (s : State) (c : QCmd) (st : Nat) (aux : Nat := 0) (data : List Nat := []) : State :=
  let s := s.complete c st aux data
  if statusFreezes st then s.freeze c st aux else s

/-- Commands at the head that no row executes complete INVALID_OPCODE at once (R349). -/
def State.settle (s : State) : Nat → State
  | 0 => s
  | k + 1 =>
    match s.tvx.queue with
    | c :: rest =>
      if (s.tvx.running || s.tvx.recovery) && s.tvx.longOp.isNone && !opRuns s.tvx.recovery c.pkt.version c.pkt.opcode then
        ((s.setQueue rest).finish c stINVALID_OPCODE).settle k
      else s
    | [] => s

/-- The most commands that can be queued: 32 on each ingress (R341). -/
def queueMax : Nat := 64

/-- The head of the queue, where it carries opcode `op` and may execute now. -/
def State.headCmd (s : State) (op : Nat) : Option QCmd :=
  match s.tvx.queue with
  | c :: _ =>
    if c.pkt.opcode = op ∧ (s.tvx.running || s.tvx.recovery) ∧ s.tvx.longOp = none ∧ opRuns s.tvx.recovery c.pkt.version op
    then some c else none
  | [] => none

/-- Ask for the next block of a data-out phase (R354). -/
def State.xferReady (s : State) (c : QCmd) : State :=
  let n := min 4096 (c.pkt.param - c.data.length)
  let s := s.setQueue ({ c with xfer := true } :: s.tvx.queue.drop 1)
  s.sendPkt c.ing { version := c.pkt.version, typ := 2, tag := c.pkt.tag, opcode := c.pkt.opcode, length := 0, aux := n,
                    param := c.data.length }

/-- What a command answers: status, AUX and payload. -/
abbrev Reply := Nat × Nat × List Nat

/-- INVALID_ARGUMENT where the offending field lies in the header, so that AUX names no payload byte: AUX is open. -/
def State.badHeader (s : State) : State × Reply :=
  let (w, s) := s.freeWord
  (s, (stINVALID_ARG, w.toNat % 2 ^ 16, []))

/-- Execute the head command where it carries opcode `op` (R348, R354): a version 1 command with data-out is refused, a
data-out phase that has not ended asks for its next block, and otherwise `body` runs and its reply is sent. `need` is
the number of argument bytes; a missing one is the first offending byte (notes/assumptions/20.md). `post` follows the
response, which it sees. -/
def State.execHead (s : State) (op need : Nat) (mslOnly : Bool) (body : QCmd → State → State × Reply)
    (post : QCmd → Nat → State → State := fun _ _ s => s) : State :=
  match s.headCmd op with
  | none => s
  | some c =>
    let done (r : State × Reply) : State :=
      (post c r.2.1 ((r.1.setQueue (r.1.tvx.queue.drop 1)).finish c r.2.1 r.2.2.1 r.2.2.2)).settle queueMax
    if c.pkt.version = 1 ∧ c.pkt.param ≠ 0 then done s.badHeader
    else if mslOnly && c.ing == .mbox then done (s, (stREFUSED, 0, []))
    else if c.data.length < c.pkt.param then (if c.xfer then s else s.xferReady c)
    else if c.pkt.data.length < need then done (s, (stINVALID_ARG, c.pkt.data.length, []))
    else done (body c s)

/-! ## Long operations (R355) -/

def ingNum : Ingress → Nat
  | .msl => 0
  | .mbox => 1

/-- The progress payload of BUSY; progress and the time that remains are the device's estimates, and so open. -/
def State.busyPay (s : State) (version : Nat) : List Nat × State :=
  match s.tvx.longOp with
  | some l =>
    if version < 3 then ([], s)
    else
      let (p, s) := s.freeWord
      let (r, s) := s.freeWord
      (leBytes 2 l.cmd.pkt.opcode ++ leBytes 1 l.cmd.pkt.tag ++ leBytes 1 (ingNum l.cmd.ing) ++
        leBytes 2 (p.toNat % 10001) ++ leBytes 4 ((s.pwr.now - l.start) / 1000000) ++ leBytes 4 (r.toNat % 2 ^ 32), s)
  | none => ([], s)

/-- FLASH_REQ_N is granted: only while PWRGOOD is low and no long operation runs (spec/19 R427, R434). -/
def State.flashTry (s : State) : State :=
  if s.tvx.flashReq && s.tvx.alive && !s.pwr.good && s.tvx.longOp.isNone then
    { s with tvx := { s.tvx with flashGranted := true } }
  else s

/-- The running operation ends: its response, a freeze where the status freezes, and LONG_OP_DONE (R351, R359). -/
def State.longFinish (s : State) (st : Nat) (aux : Nat := 0) (data : List Nat := []) : State :=
  match s.tvx.longOp with
  | none => s
  | some l =>
    let s : State := { s with tvx := { s.tvx with longOp := none } }
    let s := if l.mute then s else s.finish l.cmd st aux data
    let d := ofBytes (leBytes 2 l.cmd.pkt.opcode ++ leBytes 1 l.cmd.pkt.tag ++ leBytes 1 (ingNum l.cmd.ing) ++ leBytes 2 st)
    ((s.logEvent 0x0071 sevINFO noDie 0 d).settle queueMax).flashTry

/-- The running operation has come to its final status; LONG_OP_COMPLETE answers it. -/
def State.longEnd (s : State) (st : Nat) (aux : Nat := 0) (data : List Nat := []) : State :=
  match s.tvx.longOp with
  | some l => { s with tvx := { s.tvx with longOp := some { l with final := some (st, aux, data) } } }
  | none => s

/-- Start the long operation at the head, where it carries opcode `op`: everything queued behind completes BUSY, or
ABORTED_ACTIVATION behind ACTIVATE_BUNDLE. `body` starts it, and may end it at once. -/
def State.execLong (s : State) (op need : Nat) (body : QCmd → State → State × Option Reply) : State :=
  match s.headCmd op with
  | none => s
  | some c =>
    if c.data.length < c.pkt.param ∧ c.pkt.version ≠ 1 then (if c.xfer then s else s.xferReady c)
    else
      let behind := s.tvx.queue.drop 1
      let s : State := { s with tvx := { s.tvx with queue := [], longOp := some { cmd := c, start := s.pwr.now } } }
      let s := behind.foldl (fun s q =>
        if op = opACTIVATE then s.complete q stABORTED_ACTIVATION
        else let (b, s) := s.busyPay q.pkt.version; s.complete q stBUSY 0 b) s
      if c.pkt.version = 1 ∧ c.pkt.param ≠ 0 then
        let r := s.badHeader
        r.1.longFinish r.2.1 r.2.2.1
      else if c.pkt.data.length < need then s.longFinish stINVALID_ARG c.pkt.data.length
      else
        match body c s with
        | (s, some r) => s.longFinish r.1 r.2.1 r.2.2
        | (s, none) => s

/-! ## The settings store (R360 to R362) -/

/-- The default of an item; BUCKET_CFG of class k has none. -/
def itemDefault (k : Nat) : List Nat :=
  if k = 1 then [0, 0]
  else if k = 2 then [0, 15]
  else if k = 3 then [88]
  else if k = 4 then [0, 0, 0, 0, 0, 0, 0, 0]
  else if k = 5 then [0]
  else if k = 6 then [0x00, 0x02, 0x06]
  else if k = 8 then [180, 0]
  else []

def SetSlot.item (x : SetSlot) (k : Nat) : List Nat := Tbl.get itemDefault x.items k

/-- The settings slot of the running set (R368). -/
def State.setSlot (s : State) : SetSlot := if s.tvx.runs = 0 then s.tvx.set0 else s.tvx.set1
def State.putSetSlot (s : State) (slot : Nat) (x : SetSlot) : State :=
  if slot = 0 then { s with tvx := { s.tvx with set0 := x } } else { s with tvx := { s.tvx with set1 := x } }
def State.setting (s : State) (k : Nat) : List Nat := s.setSlot.item k
def State.settingN (s : State) (k : Nat) : Nat := ofBytes (s.setting k)
/-- The override of bucket class `k`, in the layout of RAS_BUCKET_CFG where there is one. -/
def bucketItem (k : Nat) : Nat := 0x10000 + k

/-- The length of a writable item. -/
def itemLength (k : Nat) : Option Nat :=
  if k = 1 ∨ k = 2 ∨ k = 8 then some 2
  else if k = 3 ∨ k = 5 then some 1
  else if k = 4 then some 8
  else if k = 6 then some 3
  else if k = 7 then some 6
  else none

/-- The first offending byte of a value, where it has one (R361). -/
def itemBad (k : Nat) (v : List Nat) : Option Nat :=
  let b (i : Nat) : Nat := v.getD i 0
  if k = 1 then (if b 1 < 16 then none else some 1)
  else if k = 2 then (if b 0 ≠ 0 ∧ b 0 ≠ 3 then some 0 else if 15 < b 1 then some 1 else none)
  else if k = 3 then (if [40, 44, 48, 56, 64, 80, 88].contains (b 0) then none else some 0)
  else if k = 4 then (List.range 8).find? (fun i => decide (4 < b i))
  else if k = 7 then
    if 14 < b 0 then some 0
    else if 7 < b 1 then some 1
    else if b 2 = 0 then some 2
    else if b 3 = 0 ∨ 256 < b 2 + b 3 then some 3
    else none
  else if k = 8 then (if 36500 < ofBytes v then some 0 else none)
  else none

def itemCORE_RETIRED : Nat := 0x100
def itemWAY_RETIRED : Nat := 0x101
def itemDRAM_MARKS : Nat := 0x102
def itemCHANNEL_RETIRED : Nat := 0x103

/-- The device changes record `k`, whose copy in flash is written new (R360, R362). -/
def State.setRecs (s : State) (k : Nat) (r : DevRecs) : State :=
  { s with tvx := { s.tvx with recs := { r with rot := r.rot.filter (· != k) } } }
/-- Record a core, and a way or victim cache by its bit number, as retired (R436). -/
def State.recCore (s : State) (h : Nat) : State := s.setRecs itemCORE_RETIRED { s.tvx.recs with core := s.tvx.recs.core ||| 1 <<< h }
def State.recWay (s : State) (i : Nat) : State := s.setRecs itemWAY_RETIRED { s.tvx.recs with way := s.tvx.recs.way ||| 1 <<< i }
def wayL2 (h w : Nat) : Nat := 16 * h + w
def wayVc (d sl w : Nat) : Nat := 6144 + 256 * d + 16 * sl + w
def waySf (d b w : Nat) : Nat := 9216 + 384 * d + 24 * b + w
def wayDir (n w : Nat) : Nat := 13824 + 16 * n + w
def wayRpt (n w : Nat) : Nat := 14080 + 16 * n + w
def wayRld (n w : Nat) : Nat := 14336 + 16 * n + w
def wayMesa (n w : Nat) : Nat := 14592 + 16 * n + w
def wayVict (n : Nat) : Nat := 14848 + n

/-- The SPD identifier of DIMM `i` of a channel. -/
def State.spdOf (s : State) (ch i : Nat) : Nat := Tbl.get (fun _ => 0) s.tvx.spd (2 * ch + i)

/-- A mark byte word that names no mark. -/
def noMarks (_ : Nat) : Word := 0xFFFFFFFFFFFFFFFF

/-- Record a channel's marks as its MC_MARK registers show them, against its modules (R178, R436). -/
def State.recMarks (s : State) (ch : Nat) : State :=
  let r := s.tvx.recs
  let m := Tbl.set noMarks (Tbl.set noMarks r.marks (2 * ch) (s.reg (R.rMC_MARK ch 0))) (2 * ch + 1) (s.reg (R.rMC_MARK ch 1))
  let p := Tbl.set (fun _ => 0) (Tbl.set (fun _ => 0) r.markSpd (2 * ch) (s.spdOf ch 0)) (2 * ch + 1) (s.spdOf ch 1)
  s.setRecs itemDRAM_MARKS { r with marks := m, markSpd := p }

/-- Record a channel as retired by a live copy, against its modules (R184, R436). -/
def State.recChan (s : State) (ch : Nat) : State :=
  let r := s.tvx.recs
  let p := Tbl.set (fun _ => 0) (Tbl.set (fun _ => 0) r.chanSpd (2 * ch) (s.spdOf ch 0)) (2 * ch + 1) (s.spdOf ch 1)
  s.setRecs itemCHANNEL_RETIRED { r with chan := r.chan ||| 1 <<< ch, chanSpd := p }

end Sys2Proof.Machine
end

