-- ==== Sys2Proof/Machine/Channel.lean ====
section
/-!
DEFINITION. The memory channels as the home slices see them (spec/07_memory_channels.md): the DRAM code (R175 to
R177), device marks (R178), channel states (R184), copy routing (R185), and reading and writing the line of a decode
address.
-/

namespace Sys2Proof.Machine

def chEMPTY : Nat := 0
def chTRAINING : Nat := 1
def chACTIVE : Nat := 2
def chAT_RISK : Nat := 3
def chRETRAINING : Nat := 4
def chSPARE : Nat := 5
def chCOPY_SOURCE : Nat := 6
def chCOPY_TARGET : Nat := 7
def chRETIRED : Nat := 8
def chFAILED : Nat := 9
def chSPARE_FAILED : Nat := 10

def State.chState (s : State) (ch : Nat) : Nat := s.get (R.MC_CH_STATUS_STATE ch)
def State.setChState (s : State) (ch st : Nat) : State := s.put (R.MC_CH_STATUS_STATE ch) st
def State.chPrev (s : State) (ch : Nat) : Nat := Tbl.get (fun _ => 0) s.chan.prev ch
def State.setChPrev (s : State) (ch v : Nat) : State :=
  { s with chan := { s.chan with prev := Tbl.set (fun _ => 0) s.chan.prev ch v } }
/-- A runtime retrain runs on the channel, in RETRAINING or in a copy role (R179, R184). -/
def State.chRetrain (s : State) (ch : Nat) : Bool := Tbl.get (fun _ => false) s.chan.retrain ch
def State.setChRetrain (s : State) (ch : Nat) (b : Bool) : State :=
  { s with chan := { s.chan with retrain := Tbl.set (fun _ => false) s.chan.retrain ch b } }
def State.setChFails (s : State) (ch v : Nat) : State :=
  { s with chan := { s.chan with fails := Tbl.set (fun _ => 0) s.chan.fails ch v } }

/-- The capacity of a channel in bytes. -/
def State.chCap (s : State) (ch : Nat) : Nat := s.get (R.MC_CH_CONFIG_CAP_GIB ch) * 2 ^ 30

/-! ## Copies (R184, R185, R193) -/

/-- The spare of 15+1 mode, where its state is SPARE. -/
def State.spareReady (s : State) : Option Nat :=
  if s.get R.PKG_MEMMAP_CHANNEL_MODE = 3 then
    let sp := s.get R.PKG_MEMMAP_SPARE_CH
    if s.chState sp = chSPARE then some sp else none
  else none

/-- Does a copy run? -/
def State.copyRuns (s : State) : Bool := (List.range 16).any (fun c => s.chState c == chCOPY_SOURCE)

/-- Why a copy start is rejected (R193, MC_COPY_STATUS.REJECT_CAUSE), where it is. -/
def State.copyReject (s : State) (ch : Nat) : Option Nat :=
  if s.get R.PKG_MEMMAP_CHANNEL_MODE ≠ 3 then some 0
  else if s.copyRuns then some 3
  else if s.spareReady = none then some 1
  else if s.chState ch = chACTIVE ∨ s.chState ch = chAT_RISK ∨ s.chState ch = chRETRAINING then none
  else some 2

/-- Begin the copy of a channel onto the spare (R184). -/
def State.copyBegin (s : State) (ch : Nat) : State :=
  match s.spareReady with
  | none => s
  | some sp =>
    let s := s.setChPrev ch (s.chState ch)
    let s := s.setChState ch chCOPY_SOURCE
    let s := s.setChState sp chCOPY_TARGET
    let s := (s.put (R.MC_COPY_STATUS_POINTER ch) 0).put (R.MC_COPY_STATUS_POINTER sp) 0
    let s := (s.put (R.MC_COPY_STATUS_RUNNING ch) 1).put (R.MC_COPY_STATUS_RUNNING sp) 1
    (s.put (R.MC_COPY_STATUS_PARTNER ch) sp).put (R.MC_COPY_STATUS_PARTNER sp) ch

/-- A copy start, written or automatic (R193): rejected with its cause, held behind a retrain, or begun. -/
def State.copyStart (s : State) (ch : Nat) : State :=
  match s.copyReject ch with
  | some c => (s.put (R.MC_COPY_STATUS_REJECTED ch) 1).put (R.MC_COPY_STATUS_REJECT_CAUSE ch) c
  | none =>
    if s.chState ch = chRETRAINING then { s with chan := { s.chan with heldStart := s.chan.heldStart.erase ch ++ [ch] } }
    else s.copyBegin ch

/-! ## Marks (R176, R178) -/

/-- Where the two marks of a rank-subchannel lie. -/
def markFirst (ch rank : Nat) : FRef := ⟨R.rMC_MARK ch (rank / 8), 8 * (rank % 8), 4⟩
def markSecond (ch rank : Nat) : FRef := ⟨R.rMC_MARK ch (rank / 8), 8 * (rank % 8) + 4, 4⟩

/-- Is the last mark of R176 taken in a rank-subchannel of a channel: the second with x4 devices, the first with x8? -/
def State.marksOut (s : State) (ch : Nat) : Bool :=
  (List.range 16).any (fun r => s.get (if s.get (R.MC_CH_CONFIG_X8 ch) = 1 then markFirst ch r else markSecond ch r) != 0xF)

/-- A channel that is ACTIVE with the last mark of a rank-subchannel taken is AT_RISK (R176, R184): with a warning, and an
automatic copy where it is allowed. -/
def State.chAtRisk (s : State) (ch : Nat) : State :=
  if s.chState ch = chACTIVE ∧ s.marksOut ch then
    let s := s.setChState ch chAT_RISK
    let s := s.put (R.MC_EVENT_AT_RISK ch) 1
    let s := s.logEvent 0x0031 sevWARNING noDie ch
    if s.get (R.MC_COPY_CTL_AUTO ch) = 1 ∧ s.copyReject ch = none then s.copyStart ch else s
  else s

/-- The device of a half-device or x4 device index, as the marks name it. -/
def State.devOf (s : State) (ch dev : Nat) : Nat := if s.get (R.MC_CH_CONFIG_X8 ch) = 1 then dev / 2 else dev

/-- Mark a device, where a mark remains (R178). -/
def State.markDevice (s : State) (ch rank dev : Nat) : State :=
  let d := s.devOf ch dev
  let x8 := s.get (R.MC_CH_CONFIG_X8 ch) = 1
  if s.get (markFirst ch rank) = 0xF then
    let s := (s.put (markFirst ch rank) d).put (R.MC_EVENT_MARKED ch) 1
    ((s.logEvent 0x0030 sevINFO noDie ch).recMarks ch).chAtRisk ch
  else if ¬ x8 ∧ s.get (markSecond ch rank) = 0xF ∧ s.get (markFirst ch rank) ≠ d then
    let s := (s.put (markSecond ch rank) d).put (R.MC_EVENT_MARKED ch) 1
    ((s.logEvent 0x0030 sevINFO noDie ch).recMarks ch).chAtRisk ch
  else s

/-- What reading a line answers: its data, whether corrected; or uncorrectable, with or without the marker flag. -/
inductive MemRes where
  | good (l : Line)
  | bad (marker : Bool)
  deriving DecidableEq, Repr

/-- What the decoder finds in a read (R176, R177): the data as received; the corrupt marker; an error that it corrects in
a device, only marked ones or not, and whether the errors of this read really lie where it corrects; an uncorrectable
error; or, with both marks used, nothing guaranteed. -/
inductive Judge where
  | clean (l : Line)
  | marker
  | corrected (dev : Nat) (onlyMarked right : Bool)
  | uncorrectable
  | unknown
  deriving DecidableEq, Repr

/-- The half-devices or x4 devices that the marks of a rank-subchannel cover (R176). -/
def State.markedDevs (s : State) (ch rank : Nat) : List Nat :=
  (List.range 10).filter (fun d => s.devOf ch d == s.get (markFirst ch rank) ||
    (s.get (R.MC_CH_CONFIG_X8 ch) == 0 && s.devOf ch d == s.get (markSecond ch rank)))

/-- The decoder's judgement of a word with errors, by its syndromes (R175 to R177). -/
def State.judgeWord (s : State) (ch : Nat) (e : Errs) (marked : Bool) (w : List Nat) : Judge :=
  let syn := rsSyndromes w
  let m := s.markedDevs ch e.rank
  let ps := m.flatMap devSymbols
  let inside (at' : List Nat) : Bool := e.addr.isNone && !marked && e.bad.all (fun b => at'.contains (symbolAt b.1 b.2.1))
  if syn.all (· == 0) then .clean (wordLine w)
  else if syn = markerSyndromes then .marker
  else if 2 ≤ m.length then (if inside ps then .corrected (m.headD 0) true true else .unknown)
  else if m = [] then
    match (List.range 10).find? (fun d => explains syn (devSymbols d)) with
    | some d => .corrected d false (inside (devSymbols d))
    | none => .uncorrectable
  else if explains syn ps then .corrected (m.headD 0) true (inside ps)
  else
    match ((List.range 10).flatMap (fun d => (List.range 8).map (fun j => (d, symbolAt d j)))).find? (fun k => explains syn (ps ++ [k.2])) with
    | some k => .corrected k.1 false (inside (ps ++ [k.2]))
    | none => .uncorrectable

/-- The decoder's judgement of a read of the line at a channel byte address. -/
def State.judge (s : State) (ch x : Nat) (e : Errs) : Judge :=
  let y := e.addr.getD x
  let a := chanCell ch y
  if e.bad = [] ∧ y = x then (if s.markedAt a then .marker else .clean (s.lineAt a))
  else s.judgeWord ch e (s.markedAt a) (received x y (s.lineAt a) (s.markedAt a) e.bad)

/-- The record of an uncorrectable DRAM read (spec/14 R338): the device, the rank-subchannel and the marker flag. -/
def State.dramRecord (s : State) (ch ga mcid rank : Nat) (marker : Bool) : State :=
  s.errRecord (bankMc ch) errUED ga (recInfo mcid 0 0 s.pkgId) ((rank % 16) <<< 4 + b2n marker <<< 50)

/-- Read the line at a channel byte address through the decoder (R176, R177), with the errors of this read; `ga` and `mcid`
name the read in records. What a correction leaves that goes wrong is free: R176 gives only its probability. -/
def State.chRead (s : State) (ch x : Nat) (e : Errs) (ga mcid : Nat) : MemRes × State :=
  let a := chanCell ch x
  let bad (s : State) : State := (s.bump (R.MC_ERR_STATS_UNCORRECTABLE ch) 1).dramRecord ch ga mcid e.rank false
  if s.chState ch = chFAILED then (.bad false, bad s)
  else
    match s.judge ch x e with
    | .clean l => (.good l, s)
    | .marker => (.bad true, (s.bump (R.MC_ERR_STATS_MARKER_READS ch) 1).dramRecord ch ga mcid e.rank true)
    | .corrected d onlyMarked right =>
      let s := (s.bump (R.MC_ERR_STATS_CORRECTED ch) 1).count (ctrMc ch) 4
      let (wrong, s) := if right then (0, s) else s.freeLine
      let l := if right then s.lineAt a else wrong
      if onlyMarked then (.good l, s)
      else
        let r := s.charge 9 ((ch * 16 + e.rank) * 10 + d) false
        let k := (ch * 16 + e.rank) * 10 + d
        let s := r.1.errRecord (bankMc ch) errCE ga (recInfo mcid 0 0 s.pkgId 9 (r.1.bucket 9 k).level d)
          (d % 16 + (e.rank % 16) <<< 4)
        let s := if r.2 then s.markDevice ch e.rank d else s
        (.good l, s)
    | .uncorrectable => (.bad false, bad s)
    | .unknown =>
      -- No detection is guaranteed (R176): whether the read is detected, and the data if not, are free.
      let (b, s) := s.freeBit
      if b then (.bad false, bad s)
      else let (l, s) := s.freeLine; (.good l, s)

/-- The channel that serves reads of a channel byte address of an ordinal, and the second that takes writes, under the
routing of a copy (R185). -/
def State.copyRoute (s : State) (ch x : Nat) : Nat × Option Nat :=
  if s.chState ch = chCOPY_SOURCE then
    let tgt := s.get (R.MC_COPY_STATUS_PARTNER ch)
    if x < s.get (R.MC_COPY_STATUS_POINTER ch) then (tgt, some ch) else (ch, none)
  else (ch, none)

/-! ## The channel link (R178, R179, R184) -/

/-- A runtime retrain begins, or a spare that needs one is lost (R184). -/
def State.chRetrainStart (s : State) (ch : Nat) : State :=
  let st := s.chState ch
  let go (s : State) : State := ((s.setChRetrain ch true).setChFails ch 0).bump (R.MC_CH_STATUS_RETRAINS ch) 1
  if st = chACTIVE ∨ st = chAT_RISK then go ((s.setChPrev ch st).setChState ch chRETRAINING)
  else if st = chCOPY_SOURCE ∨ st = chCOPY_TARGET then go s
  else if st = chSPARE then
    ((s.setChState ch chSPARE_FAILED).put (R.MC_EVENT_FAILED ch) 1).logEvent 0x0033 sevURGENT noDie ch
  else s

/-- Does a channel work, so that its link errors count (R178, spec/14 R335 item 5)? -/
def State.chWorks (s : State) (ch : Nat) : Bool :=
  let st := s.chState ch
  st == chTRAINING || st == chACTIVE || st == chAT_RISK || st == chSPARE || st == chCOPY_SOURCE || st == chCOPY_TARGET

/-- A link error that the controller retried (R178): recorded and charged; a permanent fault starts a retrain. -/
def State.chLinkEvent (s : State) (ch : Nat) : State :=
  if s.chRetrain ch || !s.chWorks ch then s
  else
    let r := s.charge 10 ch false
    let s := r.1.errRecord (bankMc ch) errCE 0 (recInfo 0 0 0 s.pkgId 10 (r.1.bucket 10 ch).level) 0
    if r.2 then s.chRetrainStart ch else s

/-- The retrain of a channel has ended, and its link bucket counts again. -/
def State.chRetrainOver (s : State) (ch : Nat) : State :=
  ((s.setChRetrain ch false).setChFails ch 0).setBucket 10 ch { s.bucket 10 ch with done := false }

/-- A request to the ordinal that the copy holds: the line being copied, or any line while a copy role retrains (R184,
R185); or any line of a channel that retrains (R179). -/
def State.chHolds (s : State) (ch x : Nat) : Bool :=
  s.chRetrain ch ||
  (s.chState ch == chCOPY_SOURCE &&
    (s.chRetrain (s.get (R.MC_COPY_STATUS_PARTNER ch)) || s.get (R.MC_COPY_STATUS_POINTER ch) == x))

/-- Write a line at a channel byte address: data, or the marker. A FAILED channel discards it with an error record
(R186). -/
def State.chWrite (s : State) (ch x : Nat) (l : Option Line) : State :=
  if s.chState ch = chFAILED then s.errRecord (bankMc ch) errUED 0 (recInfo 0 0 0 s.pkgId) 0
  else
    match l with
    | some v => s.setLineAt (chanCell ch x) v
    | none => s.markAt (chanCell ch x)

/-- Read the line of a decode address from its backing store (R95): DRAM through the channel that carries its ordinal,
CXL memory through its root port (R113), in whose bank an uncorrectable answer is recorded. A region that is gone, or
whose link is down (spec/13 R314), answers uncorrectable. -/
def State.storeRead (s : State) (d : Nat) (e : Errs) (ga mcid : Nat) : MemRes × State :=
  if d < 2 ^ 43 then
    let p := s.dramPlace d
    s.chRead (s.copyRoute p.1 p.2).1 p.2 e ga mcid
  else
    match s.cxlPort d with
    | none => (.bad false, s)
    | some i =>
      let rec' (m : Bool) : State := s.errRecord (bankRoot i) errUED ga (recInfo mcid 0 0 s.pkgId) (b2n m <<< 50)
      if s.get (R.RPRT_STATUS_CXL i) = 0 then (.bad false, rec' false)
      else if s.markedAt (cxlCell d) then (.bad true, rec' true)
      else if e.bad = [] ∧ e.addr = none then (.good (s.lineAt (cxlCell d)), s)
      else (.bad false, rec' false)

/-- Does the channel of a decode address stop its requests (R179, R184, R185)? -/
def State.storeStops (s : State) (d : Nat) : Bool :=
  if d < 2 ^ 43 then let p := s.dramPlace d; s.chHolds p.1 p.2 else false

/-- Is a request for a decode address held at its channel: it stops, or an earlier write to the line waits there? -/
def State.storeHolds (s : State) (d : Nat) : Bool := s.storeStops d || s.home.chHeld.any (fun w => w.1 == d)

/-! ## Admission (spec/09 R220) -/

/-- The decode address of a line address homed here, backed or not. -/
def State.dOfLine (s : State) (line : Nat) : Nat :=
  match s.rangeOf (line * 64 % 2 ^ 44) with
  | .dram d => d
  | .cxl d => d
  | _ => line * 64 % 2 ^ 44

/-- The RCIDs whose line requests wait at a channel: reads that a home has begun, and writes that wait for tokens. -/
def State.mcWaiters (s : State) (ch : Nat) : List Nat :=
  let at' (d : Nat) : Bool := decide (d < 2 ^ 43) && (s.dramPlace d).1 == ch
  s.home.locks.filterMap (fun e =>
    match e.2 with
    | some t => if t.phase = .memory ∧ ¬ t.proxy ∧ at' (s.dOfLine t.line) then some t.req.rcid else none
    | none => none) ++
  s.home.chHeld.filterMap (fun w => if at' w.1 then w.2.2 else none)

/-- Does the controller of a line's channel admit a request of an RCID? CXL memory has none. -/
def State.mcAdmits (s : State) (d rcid : Nat) : Bool :=
  if d < 2 ^ 43 then let c := (s.dramPlace d).1; s.admits (qosMc c) rcid (s.mcWaiters c) else true

/-- An admitted line request is charged. -/
def State.mcCharge (s : State) (d rcid : Nat) : State :=
  if d < 2 ^ 43 then let c := (s.dramPlace d).1; s.chargeTokens (qosMc c) rcid (s.mcWaiters c) else s

/-! ## Writing through -/

/-- Write the line of a decode address through to its backing store: data, or the marker (R95, R177). A CXL link that is
down loses it, with an error record (spec/13 R314). -/
def State.storePut (s : State) (d : Nat) (l : Option Line) : State :=
  if d < 2 ^ 43 then
    let p := s.dramPlace d
    let r := s.copyRoute p.1 p.2
    let s := s.chWrite r.1 p.2 l
    match r.2 with
    | some c2 => s.chWrite c2 p.2 l
    | none => s
  else
    match s.cxlPort d with
    | none => s
    | some i =>
      if s.get (R.RPRT_STATUS_CXL i) = 0 then
        s.errRecord (bankRoot i) errUED (s.pkgId * 2 ^ 44 + d) (recInfo 0 0 0 s.pkgId) 0
      else
        match l with
        | some v => s.setLineAt (cxlCell d) v
        | none => s.markAt (cxlCell d)

/-- A line is written; the controller holds it where it holds the line's requests, and a write that is limited, under the
RCID given, also until it is admitted (spec/09 R220). -/
def State.storeWrite (s : State) (d : Nat) (l : Option Line) (lim : Option Nat := none) : State :=
  let wait : Bool := match lim with | some r => !s.mcAdmits d r | none => false
  if s.storeHolds d || wait then { s with home := { s.home with chHeld := s.home.chHeld ++ [(d, l, lim)] } }
  else (match lim with | some r => s.mcCharge d r | none => s).storePut d l

/-- Does a sanitise fence cover the line of a local address (R188)? -/
def State.fenced (s : State) (a : Nat) : Bool :=
  s.chan.san.fence && decide (s.chan.san.base ≤ a) && decide (a < s.chan.san.base + s.chan.san.len)

/-- How the record of a refused request names the fence (R188): bit 51, and the fence's first 4 KiB page in [31:0] (DESIGN
CHOICE, notes/assumptions/53.md: spec/14 R338 gives no field for it). -/
def State.fenceName (s : State) : Nat := 1 <<< 51 + s.chan.san.base / 4096 % 2 ^ 32

/-- The engines of the memory controllers, by their bit of the engine lines' UMASK (spec/18 R407). -/
def engFILL : Nat := 0
def engCOPY : Nat := 1
def engSAN : Nat := 2
def engPATROL : Nat := 3

/-- Meter, monitor and count bytes that an engine moves on a channel (R187, R192, R223). Its lines count as lines of the
controller and as engine lines (spec/18 R407). -/
def State.chBytes (s : State) (ch eng mcid : Nat) (write : Bool) (n : Nat) : State :=
  let s := (s.meterAdd (if write then qMEM_WRITE else qMEM_READ) mcid n).monitor (qosMc ch) mcid (some write) n
  (s.count (ctrMc ch) (if write then 2 else 1) none (some (0, mcid)) (n / 64)).count (ctrMc ch) 8 (some eng) none (n / 64)

/-- A line of memory that the sanitise engine moved counts among the engine lines of its controller (spec/18 R407). -/
def State.sanCount (s : State) (d : Nat) : State := if d < 2 ^ 43 then s.count (ctrMc (s.dramPlace d).1) 8 (some engSAN) else s

/-- Meter and monitor one line moved to or from memory (R192, R223). -/
def State.memBytes (s : State) (d mcid : Nat) (write : Bool) (rcid : Nat := 0) : State :=
  let s := s.meterAdd (if write then qMEM_WRITE else qMEM_READ) mcid 64
  if d < 2 ^ 43 then
    let ch := (s.dramPlace d).1
    (s.monitor (qosMc ch) mcid (some write) 64).count (ctrMc ch) (if write then 2 else 1) none (some (rcid, mcid))
  else s

end Sys2Proof.Machine
end

