-- ==== Sys2Proof/Machine/Mesa.lean ====
section
/-!
DEFINITION. The Mesa memory-side cache (spec/08_mesa_cache.md): lookup, allocation, replacement (R200, R201), the
victim cache (R202), writes (R199), extra blocks (R198) and invalidate-all (R205).
-/

namespace Sys2Proof.Machine

/-! ## Tree pseudo-LRU (R200) -/

/-- Point every ancestor of node `k` away from it. -/
def plruUp : Nat → Nat → Nat → Nat
  | 0, _, v => v
  | fuel + 1, k, v =>
    if k = 0 then v
    else
      let p := (k - 1) / 2
      plruUp fuel p (setBits v p 1 (if k = 2 * p + 1 then 1 else 0))

/-- Touch way `w` of a tree over `n` ways. -/
def plruTouch (n v w : Nat) : Nat := plruUp 5 (n - 1 + w) v

/-- Does leaf or node `k` lie under node `top`? -/
def plruUnder : Nat → Nat → Nat → Bool
  | 0, top, k => top == k
  | fuel + 1, top, k => top == k || (decide (0 < k) && plruUnder fuel top ((k - 1) / 2))

/-- Does the subtree of node `k` hold an eligible way? -/
def plruHas (n elig k : Nat) : Bool :=
  (List.range n).any (fun w => elig.testBit w && plruUnder 5 k (n - 1 + w))

/-- Walk from node `k` to the victim leaf (R201 item 2). -/
def plruWalk (n elig v : Nat) : Nat → Nat → Nat
  | 0, k => k + 1 - n
  | fuel + 1, k =>
    if n - 1 ≤ k then k + 1 - n
    else
      let first := if v.testBit k then 2 * k + 2 else 2 * k + 1
      let other := if v.testBit k then 2 * k + 1 else 2 * k + 2
      plruWalk n elig v fuel (if plruHas n elig first then first else other)

/-- The victim way of a tree over `n` ways, among the eligible ones. -/
def plruVictim (n elig v : Nat) : Nat := plruWalk n elig v 5 0

/-! ## Fields of a slice -/

def mesaENABLED : Nat := 0
def mesaINVALIDATING : Nat := 1
def mesaBYPASS : Nat := 2

def secKey (n set w : Nat) : Nat := (n * 4096 + set) * 16 + w
def State.sec (s : State) (n set w : Nat) : SecTag := Tbl.get (fun _ => {}) s.mesa.tags (secKey n set w)
def State.setSec (s : State) (n set w : Nat) (e : SecTag) : State :=
  { s with mesa := { s.mesa with tags := Tbl.set (fun _ => {}) s.mesa.tags (secKey n set w) e } }
def State.plru (s : State) (n set : Nat) : Nat := Tbl.get (fun _ => 0) s.mesa.plru (n * 4096 + set)
def State.setPlru (s : State) (n set v : Nat) : State :=
  { s with mesa := { s.mesa with plru := Tbl.set (fun _ => 0) s.mesa.plru (n * 4096 + set) v } }
def State.vict (s : State) (n : Nat) : List VictE := Tbl.get (fun _ => []) s.mesa.vict n
def State.setVict (s : State) (n : Nat) (v : List VictE) : State :=
  { s with mesa := { s.mesa with vict := Tbl.set (fun _ => []) s.mesa.vict n v } }
def State.extra (s : State) (n : Nat) : List ExtraE := Tbl.get (fun _ => []) s.mesa.extra n
def State.setExtra (s : State) (n : Nat) (v : List ExtraE) : State :=
  { s with mesa := { s.mesa with extra := Tbl.set (fun _ => []) s.mesa.extra n v } }
def State.mesaLine (s : State) (ld : Nat) : Line := Tbl.get (fun _ => 0) s.mesa.data ld
def State.setMesaLine (s : State) (ld : Nat) (l : Line) : State :=
  { s with mesa := { s.mesa with data := Tbl.set (fun _ => 0) s.mesa.data ld l } }
def State.mesaBypass (s : State) (n : Nat) : Bool := Tbl.get (fun _ => false) s.mesa.bypass n
def State.setMesaBypass (s : State) (n : Nat) (b : Bool) : State :=
  { s with mesa := { s.mesa with bypass := Tbl.set (fun _ => false) s.mesa.bypass n b } }
def State.mesaPowering (s : State) (n : Nat) : Bool := Tbl.get (fun _ => false) s.mesa.powering n
def State.setMesaPowering (s : State) (n : Nat) (b : Bool) : State :=
  { s with mesa := { s.mesa with powering := Tbl.set (fun _ => false) s.mesa.powering n b } }

/-- Does the slice look up and allocate? Not while INVALIDATING, in BYPASS or powering up after it (R205, R212). -/
def State.mesaServes (s : State) (n : Nat) : Bool :=
  s.get (R.MESA_STATUS_STATE n) == mesaENABLED && !s.mesaPowering n

def State.mesaDisabled (s : State) (n : Nat) : Nat := s.get (R.MESA_WAY_STATUS_WAYS_DISABLED n)

/-- The enabled way that holds a sector. -/
def State.mesaWay (s : State) (n set tag : Nat) : Option Nat :=
  if s.mesaServes n then
    (List.range 16).find? (fun w =>
      !(s.mesaDisabled n).testBit w && (s.sec n set w).tag == tag && (s.sec n set w).valid != 0)
  else none

/-- The victim entry that holds a sector. -/
def State.mesaVict (s : State) (n set tag : Nat) : Option VictE :=
  if s.mesaServes n then (s.vict n).find? (fun e => e.set == set && e.sec.tag == tag && e.sec.valid != 0) else none

/-- The decode address of a sector's base in slice `n`, and the line address of its block `b` (R29). -/
def sectorBase (n set tag : Nat) : Nat :=
  let d := tag <<< 26 + (bits set 2 10 ^^^ bits tag 0 10) <<< 16 + (bits set 0 2) <<< 10
  d + (n ^^^ xorGroups d 16 7) <<< 12
def sectorLine (n set tag b : Nat) : Nat := sectorBase n set tag / 64 + b

/-! ## Extra blocks (R198, R214) -/

/-- Cancel the pending extra reads that meet `p`. -/
def State.cancelExtra (s : State) (n : Nat) (p : ExtraE → Bool) : State :=
  let gone := (s.extra n).filter p
  let s := s.setExtra n ((s.extra n).filter (fun e => !p e))
  s.bump (R.MESA_FILL_STATS_EXTRA_CANCELLED n) gone.length

/-- Cancel the pending extra reads of a sector. -/
def State.cancelSector (s : State) (n set tag : Nat) : State :=
  s.cancelExtra n (fun e => mesaSet (e.line * 64) == set && mesaTag (e.line * 64) == tag)

/-- The blocks that FILL_MODE fetches beyond block `b` (R198); level 2 counts as mode 0 (R211). -/
def State.extraBlocks (s : State) (n b : Nat) : List Nat :=
  let mode := if s.get (R.MESA_STATUS_THROTTLE n) = 2 then 0 else s.get (R.MESA_CTL_FILL_MODE n)
  if mode = 1 then ((List.range 4).map (· + b / 4 * 4)).filter (· ≠ b)
  else if mode = 2 then (List.range 16).filter (· ≠ b)
  else []

/-- Start one extra read, or skip it and count (R198). -/
def State.extraStart (s : State) (n d b rcid mcid : Nat) : State :=
  let line := d / 1024 * 16 + b
  let c := (s.dramPlace d).1
  if (s.extra n).any (fun e => e.line == line) then s
  else if (s.extra n).length < 64 ∧ (s.hasTokens (qosMc c) rcid (s.mcWaiters c) ∨ 2 ^ 43 ≤ d) then
    let s := s.count (ctrMesa n) 5 none (some (rcid, mcid))
    (s.mcCharge d rcid).setExtra n (s.extra n ++ [⟨line, rcid, mcid, []⟩])
  else s.bump (R.MESA_FILL_STATS_EXTRA_SKIPPED n) 1

/-- The extra reads that an allocating request starts; valid blocks are skipped. -/
def State.extraStartAll (s : State) (n d valid rcid mcid : Nat) : State :=
  (s.extraBlocks n (mesaBlk d)).foldl
    (fun s b => if valid.testBit b then s else s.extraStart n d b rcid mcid) s

/-! ## The victim cache (R202) -/

/-- Sectors of the victim cache are dropped, and their pending extra reads cancelled (R214). -/
def State.victDrop (s : State) (n : Nat) (gone : VictE → Bool) : State :=
  let s1 := s.setVict n ((s.vict n).filter (fun e => !gone e))
  ((s.vict n).filter gone).foldl (fun s e => s.cancelSector n e.set e.sec.tag) s1

/-- A sector leaves the data array for the victim cache, whose oldest entry goes where it is full; or it is dropped. A way
without a valid block holds no sector (R196). -/
def State.victPush (s : State) (n : Nat) (e : VictE) : State :=
  if e.sec.valid = 0 then s
  else
    let s := s.cancelSector n e.set e.sec.tag
    if s.get (R.MESA_STATUS_VC_ENABLED n) = 0 then s
    else
      let s := if 256 ≤ (s.vict n).length then
          match s.vict n with | o :: _ => s.victDrop n (fun e => e == o) | [] => s
        else s
      s.setVict n (s.vict n ++ [e])

/-- The ways eligible for an RCID (R201, R203). -/
def State.mesaEligible (s : State) (n rcid : Nat) : Nat :=
  s.capMask qosMesa rcid &&& (0xFFFF ^^^ s.mesaDisabled n)

/-- The way that R201 chooses, where one is eligible. -/
def State.mesaChoose (s : State) (n set rcid : Nat) : Option Nat :=
  let el := s.mesaEligible n rcid
  if el = 0 then none
  else
    match (List.range 16).find? (fun w => el.testBit w && (s.sec n set w).valid == 0) with
    | some w => some w
    | none => some (plruVictim 16 el (s.plru n set))

/-- Touch a way. -/
def State.mesaTouch (s : State) (n set w : Nat) : State := s.setPlru n set (plruTouch 16 (s.plru n set) w)

/-- Put a sector into a way, whose sector goes to the victim cache, and touch it. -/
def State.mesaPlace (s : State) (n set w : Nat) (e : SecTag) : State :=
  let old := s.sec n set w
  let s := s.victPush n ⟨set, old⟩
  (s.setSec n set w e).mesaTouch n set w

/-- A victim cache hit recalls the sector into a way of its set; with no eligible way it stays (R202 item 3). -/
def State.mesaRecall (s : State) (n : Nat) (v : VictE) (rcid : Nat) : State :=
  match s.mesaChoose n v.set rcid with
  | none => s
  | some w =>
    let s := s.setVict n ((s.vict n).filter (fun e => e != v))
    let s := s.cancelSector n v.set v.sec.tag
    s.mesaPlace n v.set w v.sec

/-! ## Reads (R197) -/

/-- Serve a read of the line of decode address `d` from the cache: the block where it is valid, with the effect of
R197 on the cache. -/
def State.mesaRead (s : State) (n d rcid mcid : Nat) : Option Line × State :=
  let set := mesaSet d
  let tag := mesaTag d
  let ids := some (rcid, mcid)
  let s := s.count (ctrMesa n) 1 none ids
  match s.mesaWay n set tag with
  | some w =>
    if (s.sec n set w).valid.testBit (mesaBlk d) then
      (some (s.mesaLine (d / 64)), (s.mesaTouch n set w).count (ctrMesa n) 2 none ids)
    else (none, s)
  | none =>
    match s.mesaVict n set tag with
    | some v =>
      if v.sec.valid.testBit (mesaBlk d) then
        (some (s.mesaLine (d / 64)), ((s.mesaRecall n v rcid).count (ctrMesa n) 2 none ids).count (ctrMesa n) 3 none ids)
      else (none, s.mesaRecall n v rcid)
    | none => (none, s)

/-- The way that an allocating request plans for a sector that is nowhere in the cache (R201). DEDUCED
(notes/assumptions/54.md): it is chosen with the lookup, before the data returns. -/
def State.mesaPlan (s : State) (n d rcid : Nat) : Option Nat :=
  let set := mesaSet d
  let tag := mesaTag d
  if (s.mesaWay n set tag).isSome || (s.mesaVict n set tag).isSome then none else s.mesaChoose n set rcid

/-- Install the demanded block of an allocating request whose memory read returned good data (R197), in the way planned
for its sector where the sector is nowhere else, and start its extra reads. -/
def State.mesaInstall (s : State) (n d rcid mcid : Nat) (plan : Option Nat) (l : Line) : State :=
  let set := mesaSet d
  let tag := mesaTag d
  let b := mesaBlk d
  if s.mesaServes n then
    match s.mesaWay n set tag with
    | some w =>
      let e := s.sec n set w
      let v := e.valid ||| 1 <<< b
      let s := ((s.setSec n set w { e with valid := v }).setMesaLine (d / 64) l).mesaTouch n set w
      s.extraStartAll n d v rcid mcid
    | none =>
      match s.mesaVict n set tag with
      | some x =>
        let x' : VictE := { x with sec := { x.sec with valid := x.sec.valid ||| 1 <<< b } }
        let s := s.setVict n ((s.vict n).map (fun e => if e == x then x' else e))
        let s := (s.setMesaLine (d / 64) l).mesaRecall n x' rcid
        s.extraStartAll n d x'.sec.valid rcid mcid
      | none =>
        match plan with
        | some w =>
          let s := s.count (ctrMesa n) 4 none (some (rcid, mcid))
          let s := (s.mesaPlace n set w ⟨tag, 1 <<< b, mcid⟩).setMesaLine (d / 64) l
          s.extraStartAll n d (1 <<< b) rcid mcid
        | none => s
  else s

/-- An extra block returned good: install it into its sector, touching nothing (R198, R200). -/
def State.mesaInstallExtra (s : State) (n d : Nat) (l : Line) : State :=
  let set := mesaSet d
  let tag := mesaTag d
  match s.mesaWay n set tag with
  | some w =>
    let e := s.sec n set w
    (s.setSec n set w { e with valid := e.valid ||| 1 <<< mesaBlk d }).setMesaLine (d / 64) l
  | none =>
    match s.mesaVict n set tag with
    | some x =>
      let x' : VictE := { x with sec := { x.sec with valid := x.sec.valid ||| 1 <<< mesaBlk d } }
      (s.setVict n ((s.vict n).map (fun e => if e == x then x' else e))).setMesaLine (d / 64) l
    | none => s

/-! ## Writes (R199) -/

/-- A valid block of the line takes good data, or loses its VALID bit to the marker; a pending extra read of it is
cancelled (R199, R214). -/
def State.mesaWrite (s : State) (n d : Nat) (l : Option Line) : State :=
  let set := mesaSet d
  let tag := mesaTag d
  let b := mesaBlk d
  let s := s.cancelExtra n (fun e => e.line == d / 64)
  match s.mesaWay n set tag with
  | some w =>
    let e := s.sec n set w
    if e.valid.testBit b then
      match l with
      | some v => (s.setMesaLine (d / 64) v).count (ctrMesa n) 6
      | none =>
        let v := setBits e.valid b 1 0
        let s := (s.setSec n set w { e with valid := v }).setMesaLine (d / 64) 0
        if v = 0 then s.cancelSector n set tag else s
    else s
  | none =>
    match s.mesaVict n set tag with
    | some x =>
      if x.sec.valid.testBit b then
        match l with
        | some v => (s.setMesaLine (d / 64) v).count (ctrMesa n) 6
        | none =>
          let x' : VictE := { x with sec := { x.sec with valid := setBits x.sec.valid b 1 0 } }
          let s := s.setMesaLine (d / 64) 0
          if x'.sec.valid = 0 then s.victDrop n (fun e => e == x)
          else s.setVict n ((s.vict n).map (fun e => if e == x then x' else e))
      else s
    | none => s

/-- A write that the home performs: through to memory, with the Mesa block updated (R95, R199), metered. `lim` is the RCID
whose tokens it takes, where its traffic is limited (spec/07 R192). -/
def State.homeWrite (s : State) (n d mcid : Nat) (l : Option Line) (rcid : Nat := 0) (lim : Option Nat := none) : State :=
  ((s.storeWrite d l lim).mesaWrite n d l).memBytes d mcid true rcid

/-! ## Clearing (R205, R210) -/

/-- Drop the sector of a way. -/
def State.mesaDropWay (s : State) (n set w : Nat) : State := s.setSec n set w {}

/-- Clear every tag, victim entry and tree of a slice (R205 item 2). -/
def State.mesaClear (s : State) (n : Nat) : State :=
  let inTags (k : Nat) : Bool := decide (n * 65536 ≤ k) && decide (k < (n + 1) * 65536)
  let inSets (k : Nat) : Bool := decide (n * 4096 ≤ k) && decide (k < (n + 1) * 4096)
  let s := { s with mesa := { s.mesa with
    tags := s.mesa.tags.filter (fun e => !inTags e.1),
    plru := s.mesa.plru.filter (fun e => !inSets e.1),
    data := s.mesa.data.filter (fun e => sliceOf (e.1 * 64) != n) } }
  s.setVict n []

/-- Clear the entries of one way of a slice. -/
def State.mesaClearWay (s : State) (n w : Nat) : State :=
  let gone (k : Nat) : Bool := decide (k / 65536 = n) && decide (k % 16 = w)
  { s with mesa := { s.mesa with tags := s.mesa.tags.filter (fun e => !gone e.1) } }

/-- Start an invalidate-all of a slice (R205 items 1 to 3, R212). Reads that wait for memory complete without
allocating, which the home's locks remember in `alloc`. -/
def State.mesaInvStart (s : State) (n : Nat) : State :=
  let st := s.get (R.MESA_STATUS_STATE n)
  if st = mesaENABLED then
    let s := s.put (R.MESA_STATUS_STATE n) mesaINVALIDATING
    let s := s.mesaClear n
    let s := s.setMesaPowering n false
    let s := s.cancelExtra n (fun _ => true)
    let waiting := s.home.locks.filterMap (fun e => match e.2 with
      | some t => if e.1 / 512 = n ∧ t.phase = .memory then some (e.1, t.since) else none
      | none => none)
    let s : State := { s with mesa := { s.mesa with drain := Tbl.set (fun _ => []) s.mesa.drain n waiting } }
    let clear (o : Option HTxn) : Option HTxn := o.map (fun t => { t with alloc := false })
    let locks := s.home.locks.map (fun e => if e.1 / 512 = n then (e.1, clear e.2) else e)
    { s with home := { s.home with locks := locks } }
  else if st = mesaBYPASS then
    (s.bump (R.MESA_STATUS_INV_COUNT n) 1).put (R.MESA_EVENT_INV_DONE n) 1
  else s

/-- Have the fills of R205 step 3 delivered their data? -/
def State.mesaDrained (s : State) (n : Nat) : Bool :=
  (Tbl.get (fun _ => []) s.mesa.drain n).all (fun k =>
    match Tbl.get (fun _ => none) s.home.locks k.1 with
    | some t => t.phase != .memory || t.since != k.2
    | none => true)

/-- The regions whose drain waited for the invalidations are reported offline once no slice runs one (R207, R214). -/
def State.regionsOff (s : State) : State :=
  if (List.range 16).any (fun n => s.get (R.MESA_STATUS_STATE n) == mesaINVALIDATING) then s
  else
    let l := s.mesa.offPorts
    l.foldl (fun s i => (s.put (R.RPRT_STATUS_REGION_STATE i) regionOFFLINE).put (R.RPRT_EVENT_REGION_OFFLINE i) 1)
      { s with mesa := { s.mesa with offPorts := [] } }

/-- The invalidate-all ends (R205 step 4, R212): back to ENABLED, or to BYPASS. -/
def State.mesaInvEnd (s : State) (n : Nat) : State :=
  if s.get (R.MESA_STATUS_STATE n) = mesaINVALIDATING then
    let s := (s.bump (R.MESA_STATUS_INV_COUNT n) 1).put (R.MESA_EVENT_INV_DONE n) 1
    let s : State := { s with mesa := { s.mesa with drain := Tbl.set (fun _ => []) s.mesa.drain n [] } }
    (if s.mesaBypass n then (s.setMesaBypass n false).put (R.MESA_STATUS_STATE n) mesaBYPASS
     else s.put (R.MESA_STATUS_STATE n) mesaENABLED).regionsOff
  else s

/-- Invalidate-all of every slice by the hardware (R207). -/
def State.mesaInvAll (s : State) : State := foldN 16 s (fun n s => s.mesaInvStart n)

/-- The throttle level of a slice changes (R211, R212). -/
def State.mesaLevel (s : State) (n level : Nat) : State :=
  let old := s.get (R.MESA_STATUS_THROTTLE n)
  let st := s.get (R.MESA_STATUS_STATE n)
  let s := s.put (R.MESA_STATUS_THROTTLE n) level
  let s := s.put ⟨R.rPWR_MESA_LEVEL, 2 * n, 2⟩ level
  let s := if old < level then s.put (R.MESA_EVENT_THROTTLED n) 1 else s
  if level = 3 ∧ old ≠ 3 then
    if st = mesaBYPASS then s else (s.mesaInvStart n).setMesaBypass n true
  else if level < 3 ∧ old = 3 then
    if st = mesaBYPASS then (s.put (R.MESA_STATUS_STATE n) mesaENABLED).setMesaPowering n true
    else s.setMesaBypass n false
  else s

/-- The number of enabled ways follows WAYS_DISABLED (MESA_STATUS). -/
def State.mesaCountWays (s : State) (n : Nat) : State :=
  s.put (R.MESA_STATUS_WAYS_ENABLED n) (16 - popCount 16 (s.mesaDisabled n))

/-- A way leaves service (R210): it holds no sector from here on, pending extra reads into it are cancelled, and a fill
planned into it completes without allocating. A fall to 8 or to 4 enabled ways warns the manager. -/
def State.mesaWayOff (s : State) (n w : Nat) : State :=
  if (s.mesaDisabled n).testBit w then s
  else
    let s := s.cancelExtra n (fun e => s.mesaWay n (mesaSet (e.line * 64)) (mesaTag (e.line * 64)) == some w)
    let s := (s.putBit (R.MESA_WAY_STATUS_WAYS_DISABLED n) w true).mesaClearWay n w
    let stop (k : Nat) (o : Option HTxn) : Option HTxn :=
      o.map (fun t => if k / 512 = n ∧ t.phase = .memory ∧ t.way = some w then { t with alloc := false } else t)
    let s : State := { s with home := { s.home with locks := s.home.locks.map (fun e => (e.1, stop e.1 e.2)) } }
    let s := s.mesaCountWays n
    let en := s.get (R.MESA_STATUS_WAYS_ENABLED n)
    if en = 8 ∨ en = 4 then s.logEvent 0x0021 sevWARNING (13 + n / 4) n else s

/-- A way returns to service empty (R210). -/
def State.mesaWayOn (s : State) (n w : Nat) : State :=
  if (s.get (R.MESA_WAY_STATUS_WAYS_RETIRED n)).testBit w then s
  else ((s.mesaClearWay n w).putBit (R.MESA_WAY_STATUS_WAYS_DISABLED n) w false).mesaCountWays n

end Sys2Proof.Machine
end

