-- ==== Sys2Proof/Machine/Home.lean ====
section
/-!
DEFINITION. What home slices and RLD proxies share (spec/04_osesteth_protocol.md, spec/05_osesteth_races.md): message
legality, directory, RPT and RLD entries, holders, line locks, retry tokens and the error registers.
-/

namespace Sys2Proof.Machine

/-! ## Opcodes (R91) -/

def vcREQ : Nat := 0
def vcSNP : Nat := 1
def vcRSP : Nat := 2
def vcDATA : Nat := 3
def vcWB : Nat := 4

def opRD_SHARED : Nat := 0
def opRD_OWN : Nat := 1
def opRD_CUR : Nat := 2
def opUPGRADE : Nat := 3
def opWR_FULL : Nat := 4
def opWR_PART : Nat := 5
def opATOMIC : Nat := 6

def opFWD_SHARED : Nat := 0
def opFWD_OWN : Nat := 1
def opFWD_CUR : Nat := 2
def opINV : Nat := 3

def opACK_MISS : Nat := 0
def opACK_INV : Nat := 1
def opFWD_DONE : Nat := 2
def opFWD_DONE_WB : Nat := 3
def opRETRY : Nat := 4
def opGRANT : Nat := 5
def opCOMP_ACK : Nat := 6
def opWB_ACK : Nat := 7
def opWB_STALE : Nat := 8
def opERR : Nat := 9

def opDATA_S : Nat := 0
def opDATA_E : Nat := 1
def opDATA_M : Nat := 2
def opDATA_O : Nat := 3

def stDONE : Nat := 0
def stREADY : Nat := 1
def stCOMMIT : Nat := 2
def stCLOSE : Nat := 3

/-- The first agent ID of the home slices, and the XCE's (R84). -/
def agHOME : Nat := 0x10
def agXCE : Nat := 0x20
def agROOT : Nat := 0x40

/-- Is an agent ID one that R84 lists? -/
def agentLegal (a : Nat) : Bool :=
  decide (a < 0x0C) || (decide (0x10 ≤ a) && decide (a < 0x20)) || a == 0x20 || (decide (0x40 ≤ a) && decide (a < 0x60))

/-- Does the operand of an ATOMIC_NC lie as R92 asks? -/
def atomicLegal (aop asize aoff : Nat) : Bool :=
  decide (aop ≤ 9) && decide (asize ≤ 2) && (asize != 2 || aop == 9) &&
  (let n := 4 * 2 ^ asize
   decide (aoff < 64) && decide (aoff / 16 = (aoff + n - 1) / 16) && (asize != 2 || aoff % 16 == 0))

/-- Why a message is illegal, as HOME_PROTO_ERR.KIND (R91, R92, R93): 0 an opcode, 1 a field value, 3 DATA_O. -/
def msgIllegal (m : Msg) : Option Nat :=
  let opOk : Bool :=
    (m.vc == vcREQ && decide (m.opc ≤ 6)) || (m.vc == vcSNP && decide (m.opc ≤ 3)) ||
    (m.vc == vcRSP && decide (m.opc ≤ 9)) || (m.vc == vcDATA && decide (m.opc ≤ 3)) || (m.vc == vcWB && m.opc == 0)
  if !opOk then some 0
  else if m.vc = vcDATA ∧ m.opc = opDATA_O then some 3
  else
    let bad : Bool :=
      !agentLegal m.srcAgent || !agentLegal m.dstAgent ||
      (m.vc == vcREQ && m.opc != opRD_CUR && m.cmo != 0) ||
      (m.vc == vcREQ && m.opc != opWR_FULL && m.opc != opWR_PART && m.ord != 0) ||
      (m.vc == vcREQ && m.opc == opWR_PART && m.byteMask == 0) ||
      (m.vc == vcREQ && m.opc == opATOMIC && !atomicLegal m.aop m.asize m.aoff) ||
      (m.vc == vcRSP && (m.opc == opFWD_DONE || m.opc == opFWD_DONE_WB) && decide (2 < m.newState)) ||
      (m.vc == vcRSP && m.opc == opERR && decide (4 < m.cause)) ||
      (m.vc == vcDATA && !m.payload && m.opc != opDATA_M) ||
      -- An I/O agent sends only the requests that R84 gives it.
      (m.vc == vcREQ && decide (0x20 ≤ m.srcAgent) && (m.opc == opRD_SHARED || m.opc == opRD_OWN || m.opc == opUPGRADE))
    if bad then some 1 else none

/-! ## Error registers (R93, R128, R131) -/

/-- HOME_PROTO_ERR records a message. -/
def State.protoErr (s : State) (n : Nat) (m : Msg) (kind : Nat) : State :=
  if s.get (R.HOME_PROTO_ERR_VALID n) = 1 then s.put (R.HOME_PROTO_ERR_OVERFLOW n) 1
  else
    let s := s.put (R.HOME_PROTO_ERR_VALID n) 1
    let s := s.put (R.HOME_PROTO_ERR_VC n) m.vc
    let s := s.put (R.HOME_PROTO_ERR_OPC n) m.opc
    let s := s.put (R.HOME_PROTO_ERR_KIND n) kind
    let s := s.put (R.HOME_PROTO_ERR_SRC_PKG n) m.srcPkg
    let s := s.put (R.HOME_PROTO_ERR_SRC_AGENT n) m.srcAgent
    s.put (R.HOME_PROTO_ADDR_LINE n) m.addr

/-- HOME_TOKEN_ERR records a token event. -/
def State.tokenErr (s : State) (n t kind pkg agent : Nat) : State :=
  if s.get (R.HOME_TOKEN_ERR_VALID n) = 1 then s.put (R.HOME_TOKEN_ERR_OVERFLOW n) 1
  else
    let s := s.put (R.HOME_TOKEN_ERR_VALID n) 1
    let s := s.put (R.HOME_TOKEN_ERR_TOKEN n) t
    let s := s.put (R.HOME_TOKEN_ERR_KIND n) kind
    let s := s.put (R.HOME_TOKEN_ERR_SRC_PKG n) pkg
    s.put (R.HOME_TOKEN_ERR_SRC_AGENT n) agent

/-! ## Answers -/

/-- A response to the sender of `m` from slice `n`. -/
def State.rsp (s : State) (n : Nat) (m : Msg) (opc : Nat) : Msg :=
  { vc := vcRSP, opc := opc, srcPkg := s.pkgId, srcAgent := agHOME + n, dstPkg := m.srcPkg, dstAgent := m.srcAgent,
    txn := m.txn, addr := m.addr, mcid := m.mcid }

def State.sendErr (s : State) (n : Nat) (m : Msg) (cause : Nat) : State :=
  s.send { s.rsp n m opERR with cause := cause }

/-- The global line address of a decode address homed here (the inverse of R27). -/
def State.gaOfD (s : State) (d : Nat) : Nat :=
  let a := if 0xC0000000 ≤ d ∧ d < 0x100000000 then d - 0xC0000000 + s.cap else d
  s.pkgId * 2 ^ 44 + a

/-- Does a channel controller hold a write to a line? -/
def State.lineHeld (s : State) (line : Nat) : Bool := s.home.chHeld.any (fun w => s.gaOfD w.1 / 64 == line)

/-- Send what acknowledges a write to a line: once the channel controller has taken it (spec/07 R179). -/
def State.sendAfter (s : State) (m : Msg) : State :=
  if s.lineHeld m.addr then { s with home := { s.home with parked := s.home.parked ++ [m] } } else s.send m

/-- COMP_ACK to the requester (R92: it carries the HTAG). -/
def State.sendComp (s : State) (n htag : Nat) (m : Msg) (status : Nat) : State :=
  s.sendAfter { s.rsp n m opCOMP_ACK with status := status, htag := htag }

/-- A data message to the requester. -/
def State.sendData (s : State) (n htag : Nat) (m : Msg) (opc dsrc : Nat) (l : Option Line) : State :=
  s.sendAfter { vc := vcDATA, opc := opc, srcPkg := s.pkgId, srcAgent := agHOME + n, dstPkg := m.srcPkg,
                dstAgent := m.srcAgent, txn := m.txn, addr := m.addr, htag := htag, payload := l.isSome, dsrc := dsrc,
                data := l.getD 0, mcid := m.mcid }

/-- Answer a message of kind `kind` that R93 calls illegal where a home slice receives it: ERR to a REQ, WB_ACK to a
WB_DIRTY, nothing to any other; HOME_PROTO_ERR records it. -/
def State.homeIllegal (s : State) (n : Nat) (m : Msg) (kind : Nat) : State :=
  let s := s.protoErr n m kind
  if m.vc = vcREQ then s.sendErr n m 3
  else if m.vc = vcWB then s.send (s.rsp n m opWB_ACK)
  else s

/-! ## Holders: die d is d, island member i is 64 + i -/

/-- Is a package this one, or a member whose messages are served (R93, spec/10 R254)? -/
def State.pkgServed (s : State) (pkg : Nat) : Bool := pkg == s.pkgId || (s.servedAs pkg).isSome

/-- The holder that a message's sender is, where it can be one. -/
def State.holderOf (s : State) (pkg agent : Nat) : Option Nat :=
  if pkg = s.pkgId then (if agent < 12 then some agent else none)
  else if 0x10 ≤ agent ∧ agent < 0x20 then (s.servedAs pkg).map (64 + ·)
  else none

def maskOf (h : Nat) : Nat := 1 <<< h
/-- The holders of a mask, lowest first. -/
def holdersIn (m : Nat) : List Nat := (List.range 96).filter (fun h => m.testBit h)
def without (m h : Nat) : Nat := if m.testBit h then m - maskOf h else m

/-! ## Directory and RPT (R97 to R100) -/

def dirKey (n set w : Nat) : Nat := (n * 65536 + set) * 16 + w
def State.dirE (s : State) (n set w : Nat) : DirE := Tbl.get (fun _ => {}) s.home.dir (dirKey n set w)
def State.setDirE (s : State) (n set w : Nat) (e : DirE) : State :=
  { s with home := { s.home with dir := Tbl.set (fun _ => {}) s.home.dir (dirKey n set w) e } }
def rptKey (n set w : Nat) : Nat := (n * 8192 + set) * 16 + w
def State.rptE (s : State) (n set w : Nat) : RptE := Tbl.get (fun _ => {}) s.home.rpt (rptKey n set w)
def State.setRptE (s : State) (n set w : Nat) (e : RptE) : State :=
  { s with home := { s.home with rpt := Tbl.set (fun _ => {}) s.home.rpt (rptKey n set w) e } }
def rldKey (n set w : Nat) : Nat := (n * 16384 + set) * 16 + w
def State.rldE (s : State) (n set w : Nat) : RldE := Tbl.get (fun _ => {}) s.home.rld (rldKey n set w)
def State.setRldE (s : State) (n set w : Nat) (e : RldE) : State :=
  { s with home := { s.home with rld := Tbl.set (fun _ => {}) s.home.rld (rldKey n set w) e } }

def State.dirWay (s : State) (n d : Nat) : Option Nat :=
  (List.range 16).find? (fun w =>
    (s.dirE n (dirSet d) w).state != 0 && (s.dirE n (dirSet d) w).tag == mesaTag d)
def State.rptWay (s : State) (n d : Nat) : Option Nat :=
  (List.range 16).find? (fun w =>
    (s.rptE n (rptSet d) w).rstate != 0 && (s.rptE n (rptSet d) w).tag == rptTag d)
def State.rldWay (s : State) (n ga : Nat) : Option Nat :=
  (List.range 16).find? (fun w =>
    (s.rldE n (rldSet ga) w).pstate != 0 && (s.rldE n (rldSet ga) w).tag == rldTag ga)

/-- Is a directory set in broadcast mode (R119)? -/
def State.isBcast (s : State) (n d : Nat) : Bool := s.home.bcast.contains (n * 65536 + dirSet d)

/-- Is an RLD set in broadcast mode (spec/14 R330)? -/
def State.isPxBcast (s : State) (n ga : Nat) : Bool := s.home.bcast.contains (2 ^ 20 + n * 16384 + rldSet ga)

/-- A line's holders as directory and RPT give them (R99): kind 0 FREE, 1 SHARED, 2 exclusive, 3 owned; the mask of
every holder; and the owner in kinds 2 and 3. For a proxy, as the RLD gives the package's dies. -/
structure View where
  kind  : Nat := 0
  mask  : Nat := 0
  owner : Option Nat := none
  deriving DecidableEq, Repr

/-- The view of a line homed here, by decode address (R99). -/
def State.homeView (s : State) (n d : Nat) : View :=
  match s.dirWay n d with
  | none => {}
  | some w =>
    let e := s.dirE n (dirSet d) w
    let r : RptE := if e.remote then
        match s.rptWay n d with
        | some x => s.rptE n (rptSet d) x
        | none => {}
      else {}
    let mask := e.presence ||| (r.members <<< 64)
    if e.state = 2 then ⟨2, mask, some e.owner⟩
    else if e.state = 3 then ⟨3, mask, some e.owner⟩
    else if r.rstate = 2 then ⟨2, mask, some (64 + r.rowner)⟩
    else if r.rstate = 3 then ⟨3, mask, some (64 + r.rowner)⟩
    else ⟨1, mask, none⟩

/-- The view of a remote line at its proxy; a set in broadcast mode lists nothing. -/
def State.proxyView (s : State) (n ga : Nat) : View :=
  match if s.isPxBcast n ga then none else s.rldWay n ga with
  | none => {}
  | some w =>
    let e := s.rldE n (rldSet ga) w
    ⟨e.pstate, e.presence, if e.owner < 12 then some e.owner else none⟩

/-- Enabled ways of a structure: those not retired (R120). -/
def State.dirEnabled (s : State) (n : Nat) : Nat := 0xFFFF ^^^ s.get (R.HOME_DIR_STATUS_WAYS_RETIRED n)
def State.rptEnabled (s : State) (n : Nat) : Nat := 0xFFFF ^^^ s.get (R.HOME_RPT_STATUS_WAYS_RETIRED n)
def State.rldEnabled (s : State) (n : Nat) : Nat := 0xFFFF ^^^ s.get (R.HOME_RLD_STATUS_WAYS_RETIRED n)

def State.dirFree (s : State) (n d : Nat) : Option Nat :=
  (List.range 16).find? (fun w => (s.dirEnabled n).testBit w && (s.dirE n (dirSet d) w).state == 0)
def State.rptFree (s : State) (n d : Nat) : Option Nat :=
  (List.range 16).find? (fun w => (s.rptEnabled n).testBit w && (s.rptE n (rptSet d) w).rstate == 0)
def State.rldFree (s : State) (n ga : Nat) : Option Nat :=
  (List.range 16).find? (fun w => (s.rldEnabled n).testBit w && (s.rldE n (rldSet ga) w).pstate == 0)

/-- Free the RPT entry of a line. -/
def State.freeRpt (s : State) (n d : Nat) : State :=
  match s.rptWay n d with
  | some w => s.setRptE n (rptSet d) w {}
  | none => s

/-- Free the directory entry of a line and its RPT entry. -/
def State.freeDir (s : State) (n d : Nat) : State :=
  let s := s.freeRpt n d
  match s.dirWay n d with
  | some w => s.setDirE n (dirSet d) w {}
  | none => s

/-- Record the member side of a view in the RPT: an entry exists exactly while a member may hold the line. DEDUCED
(notes/assumptions/51.md): its NRU bit is set as R98 gives for the directory, here and by `dirTouch`. -/
def State.writeRpt (s : State) (n d : Nat) (v : View) : State :=
  let members := v.mask >>> 64
  if members = 0 then s.freeRpt n d
  else
    match (match s.rptWay n d with | some w => some w | none => s.rptFree n d) with
    | none => s
    | some w =>
      let rs : Nat × Nat := match v.owner with
        | some o => if 64 ≤ o then (v.kind, o - 64) else (1, 0)
        | none => (1, 0)
      s.setRptE n (rptSet d) w ⟨rptTag d, members, rs.1, rs.2, true⟩

/-- Record a view in the directory and the RPT (R98, R99, R102). -/
def State.writeView (s : State) (n d : Nat) (v : View) : State :=
  if v.kind = 0 ∨ v.mask = 0 then s.freeDir n d
  else
    let dies := v.mask % 2 ^ 12
    let st : Nat × Nat := match v.owner with
      | some o => if o < 12 then (v.kind, o) else (1, 0xF)
      | none => (1, 0xF)
    match (match s.dirWay n d with | some w => some w | none => s.dirFree n d) with
    | none => s
    | some w =>
      let s := s.setDirE n (dirSet d) w ⟨mesaTag d, st.1, dies, st.2, decide (v.mask >>> 64 ≠ 0), true⟩
      s.writeRpt n d v

/-- Record a view in the RLD (R101). -/
def State.writeRld (s : State) (n ga : Nat) (v : View) : State :=
  let way := s.rldWay n ga
  if v.kind = 0 ∨ s.isPxBcast n ga then
    match way with
    | some w => s.setRldE n (rldSet ga) w {}
    | none => s
  else
    match (match way with | some w => some w | none => s.rldFree n ga) with
    | none => s
    | some w => s.setRldE n (rldSet ga) w ⟨rldTag ga, v.kind, v.mask % 2 ^ 12, v.owner.getD 0xF, true⟩

/-- A lookup that hits sets NRU (R98), in the RPT too where the entry is REMOTE. -/
def State.rptTouch (s : State) (n d : Nat) : State :=
  match s.rptWay n d with
  | some w => s.setRptE n (rptSet d) w { s.rptE n (rptSet d) w with nru := true }
  | none => s
def State.dirTouch (s : State) (n d : Nat) : State :=
  match s.dirWay n d with
  | some w =>
    let e := s.dirE n (dirSet d) w
    let s := s.setDirE n (dirSet d) w { e with nru := true }
    if e.remote then s.rptTouch n d else s
  | none => s
def State.rldTouch (s : State) (n ga : Nat) : State :=
  match s.rldWay n ga with
  | some w => s.setRldE n (rldSet ga) w { s.rldE n (rldSet ga) w with nru := true }
  | none => s

/-! ## Addresses of lines -/

/-- Is a line address of this package? -/
def State.lineLocal (s : State) (line : Nat) : Bool := line * 64 / 2 ^ 44 == s.pkgId

/-- The decode address of a directory entry (R97). -/
def dirLine (n set tag : Nat) : Nat :=
  let d := tag <<< 26 + (bits set 6 10 ^^^ bits tag 0 10) <<< 16 + (bits set 0 6) <<< 6
  d + (n ^^^ xorGroups d 16 7) <<< 12
/-- The decode address of an RPT entry (R100): its tag holds D[43:23], the set D[22:16] folded and D[11:6]. -/
def rptLine (n set tag : Nat) : Nat :=
  let lo := bits set 6 7 ^^^ bits tag 3 7
  let d := tag <<< 23 + lo <<< 16 + (bits set 0 6) <<< 6
  d + (n ^^^ xorGroups d 16 7) <<< 12
/-- The global address of an RLD entry (R101). -/
def rldLine (n set tag : Nat) : Nat :=
  let d := tag <<< 24 + (bits set 6 8 ^^^ bits tag 0 8) <<< 16 + (bits set 0 6) <<< 6
  d + (n ^^^ xorGroups d 16 10) <<< 12

/-! ## Line locks (R124)

A number from 512 on names what runs without one of the 512 slots: the service of a remote home's snoop and the
clearing of a writeback's line (R139), since SNP and WB wait for no slot (R87, R141), and the recall of a victim line
where no slot is free. -/

/-- The service of a remote home's snoop of a line, the clearing for a writeback of a line, and the recall of a victim
for the transaction of slot `htag`. -/
def extTag (line : Nat) : Nat := 512 + line
def wbTag (line : Nat) : Nat := 512 + 2 ^ 50 + line
def vicTag (htag : Nat) : Nat := 512 + 2 ^ 51 + htag

def lockKey (n htag : Nat) : Nat := if htag < 512 then n * 512 + htag else 8192 + (htag - 512) * 16 + n
/-- The slice and number of a key. -/
def slotOfKey (k : Nat) : Nat × Nat := if k < 8192 then (k / 512, k % 512) else (k % 16, 512 + (k - 8192) / 16)
def State.lock (s : State) (n htag : Nat) : Option HTxn := Tbl.get (fun _ => none) s.home.locks (lockKey n htag)

/-- Slots in use at a slice. -/
def State.locksHeld (s : State) (n : Nat) : Nat := Tbl.countIn s.home.locks (n * 512) ((n + 1) * 512) Option.isSome

/-- Write a lock slot; HOME_LOCKS.PEAK follows. -/
def State.setLock (s : State) (n htag : Nat) (t : Option HTxn) : State :=
  let s := { s with home := { s.home with locks := Tbl.set (fun _ => none) s.home.locks (lockKey n htag) t } }
  let held := s.locksHeld n
  if s.get (R.HOME_LOCKS_PEAK n) < held then s.put (R.HOME_LOCKS_PEAK n) held else s

/-- The line that no request names: a slot reserved with an unbound token holds it. -/
def noLine : Nat := 2 ^ 50 - 1

/-- What runs at a slice, by number. -/
def State.locksAt (s : State) (n : Nat) : List (Nat × HTxn) :=
  s.home.locks.filterMap (fun e =>
    match e.2 with
    | some t => if (slotOfKey e.1).1 = n then some ((slotOfKey e.1).2, t) else none
    | none => none)

/-- Does it lock its line? -/
def HTxn.locksLine (t : HTxn) : Bool :=
  match t.work with
  | .extSnoop _ => false
  | .wbOut => false
  | _ => true

/-- The number under which a line is locked. -/
def State.lockOf (s : State) (n line : Nat) : Option Nat :=
  ((s.locksAt n).find? (fun e => e.2.line == line && line != noLine && e.2.locksLine)).map (·.1)

/-- Is a snoop or a writeback of a line under way at its proxy, so that a request for the line waits (R108, R139)? -/
def State.pxComing (s : State) (n line : Nat) : Bool :=
  (s.lock n (extTag line)).isSome || (s.lock n (wbTag line)).isSome ||
  s.home.pxWb.any (fun w => w.n == n && w.out.addr == line)

/-- The HTAG that the snoops of a slot carry: its own, that of the remote home whose snoop it serves (so that the owner
die's DATA names the home's slot, R116), that of the transaction a victim is recalled for, or 0. -/
def HTxn.wireTag (t : HTxn) (htag : Nat) : Nat :=
  if htag < 512 then htag
  else match t.work with
    | .extSnoop k => k
    | .recallFor k => k
    | _ => 0

/-- What an answer or data that names HTAG `tag` and a line may belong to. -/
def State.slotsOf (s : State) (n tag line : Nat) : List (Nat × HTxn) :=
  [tag, vicTag tag, extTag line, wbTag line].filterMap (fun h =>
    match s.lock n h with
    | some t => if t.line = line ∧ t.wireTag h = tag then some (h, t) else none
    | none => none)

/-- Is the answer of holder `h` to a snoop outstanding? -/
def HTxn.expects (t : HTxn) (h : Nat) : Bool :=
  (t.phase == .acks && t.invs.testBit h) ||
  (t.phase == .owner && t.sent && !t.answered.any (fun a => a.1 == h) &&
    (match t.fwd with | some (o, _) => o == h | none => false))

/-- What holder `h`'s answer with HTAG `tag` is for. -/
def State.ansSlot (s : State) (n tag line h : Nat) : Option (Nat × HTxn) :=
  (s.slotsOf n tag line).find? (fun e => e.2.expects h)

/-- The lowest-numbered free slot. -/
def State.freeSlot (s : State) (n : Nat) : Option Nat :=
  let used := (Tbl.keysIn s.home.locks (n * 512) ((n + 1) * 512) Option.isSome).map (· - n * 512)
  (List.range 512).find? (fun i => !used.contains i)

/-! ## Retry tokens (spec/05 R127 to R131) -/

def tokKey (n t : Nat) : Nat := n * 256 + t
def State.tok (s : State) (n t : Nat) : Tok := Tbl.get (fun _ => {}) s.home.toks (tokKey n t)
def State.setTok (s : State) (n t : Nat) (k : Tok) : State :=
  { s with home := { s.home with toks := Tbl.set (fun _ => {}) s.home.toks (tokKey n t) k } }

/-- The tokens of an agent: the first and how many (R127); none for an agent that draws none. -/
def State.tokRange (s : State) (pkg agent : Nat) : Nat × Nat :=
  if pkg = s.pkgId then
    if agent < 12 then (4 * agent, 4)
    else if agent = agXCE then (176, 16)
    else if 0x40 ≤ agent ∧ agent < 0x60 then (192 + 2 * (agent - 0x40), 2)
    else (0, 0)
  else
    match s.servedAs pkg with
    | some i => (48 + 4 * i, 4)
    | none => (0, 0)

/-- Who is owed a grant: an agent of the range that begins at token `first`, oldest first. OWED is their number. -/
def State.owedOf (s : State) (n first : Nat) : List (Nat × Nat) := Tbl.get (fun _ => []) s.home.owed (n * 256 + first)
def State.setOwed (s : State) (n first : Nat) (v : List (Nat × Nat)) : State :=
  { s with home := { s.home with owed := Tbl.set (fun _ => []) s.home.owed (n * 256 + first) v } }

/-- The lowest-numbered free credit of an agent. -/
def State.freeCredit (s : State) (n : Nat) (r : Nat × Nat) : Option Nat :=
  ((List.range r.2).map (r.1 + ·)).find? (fun t => (s.tok n t).st == .free)

/-- Tokens of a slice that meet `p`. -/
def State.toksWhere (s : State) (n : Nat) (p : Tok → Bool) : List Nat :=
  (Tbl.keysIn s.home.toks (n * 256) ((n + 1) * 256) p).map (· - n * 256)

/-- The oldest token among some, by its sequence number (R131). -/
def State.oldestTok (s : State) (n : Nat) (ts : List Nat) : Option Nat :=
  ts.foldl (fun b t => match b with
    | none => some t
    | some u => if (s.tok n t).seq < (s.tok n u).seq then some t else some u) none

/-- Waiters of a line: tokens in WAITING_LINE or GRANTED_LINE for it (R128). -/
def State.waiters (s : State) (n line : Nat) : List Nat :=
  s.toksWhere n (fun k => k.line == line && (k.st == .waitLine || k.st == .grantLine))

/-- Send RETRY, counted (R130, HOME_RETRY_STATS). -/
def State.sendRetry (s : State) (n : Nat) (m : Msg) (tok : Option Nat) : State :=
  let s := s.send { s.rsp n m opRETRY with tokenV := tok.isSome, token := tok.getD 0 }
  let s := s.count (ctrHome n) 2 none (some (m.rcid, m.mcid))
  match tok with
  | some _ => s.bump (R.HOME_RETRY_STATS_RETRY_TOKEN n) 1
  | none => s.bump (R.HOME_RETRY_STATS_RETRY_NOTOKEN n) 1

/-- The proxy of an island member that holds a token: where a grant goes. -/
def State.sendGrant (s : State) (n t pkg agent line txn : Nat) : State :=
  let s := s.send { vc := vcRSP, opc := opGRANT, srcPkg := s.pkgId, srcAgent := agHOME + n, dstPkg := pkg,
                    dstAgent := agent, txn := txn, addr := line, tokenV := true, token := t }
  (s.count (ctrHome n) 3).bump (R.HOME_GRANT_STATS_GRANTS n) 1

/-- A credit that becomes FREE is granted at once, unbound, while its agent is owed (R131): for a member, to the one of
its proxies that has waited longest (R132). -/
def State.freeTok (s : State) (n t : Nat) : State :=
  let k := s.tok n t
  let first := (s.tokRange k.pkg k.agent).1
  let s := s.setTok n t {}
  match s.owedOf n first with
  | (pkg, agent) :: rest =>
    let s := s.setOwed n first rest
    let s := s.setTok n t { st := .grantUnbound, line := noLine, pkg := pkg, agent := agent, seq := s.home.tokSeq }
    let s := { s with home := { s.home with tokSeq := s.home.tokSeq + 1 } }
    s.sendGrant n t pkg agent noLine 0
  | [] => s

/-- Slot `htag` is reserved for token `t`, which is granted: for its line, or unbound where it waited for the pool
(R131). -/
def State.reserveFor (s : State) (n htag t : Nat) : State :=
  let k := s.tok n t
  let bound := k.st == .waitLine
  let line := if bound then k.line else noLine
  let txn := if bound then k.txn else 0
  let s := s.setTok n t { k with st := if bound then .grantLine else .grantUnbound, slot := some htag }
  let res : HTxn := { line := line, proxy := bound && !s.lineLocal line, work := .reserved t, phase := .close, since := s.pwr.now,
                      req := { vc := 0, opc := 0, srcPkg := k.pkg, srcAgent := k.agent, dstPkg := 0, dstAgent := 0, txn := txn, addr := line } }
  (s.setLock n htag (some res)).sendGrant n t k.pkg k.agent line txn

/-- The oldest token that waits on a line that is not locked. -/
def State.lineWaiter (s : State) (n line : Nat) : Option Nat :=
  if (s.lockOf n line).isSome then none
  else s.oldestTok n (s.toksWhere n (fun k => k.st == .waitLine && k.line == line))

/-- A lock slot becomes free (R131): it goes to the oldest token waiting on its line, then to the oldest token waiting
for the pool, and is otherwise free. What ran without a slot frees none: its line's oldest waiter takes a free one, or,
with none free, the next that frees (notes/assumptions/51.md). -/
def State.slotFreed (s : State) (n htag line : Nat) : State :=
  let s := s.setLock n htag none
  if htag < 512 then
    match s.lineWaiter n line with
    | some t => s.reserveFor n htag t
    | none =>
      match s.oldestTok n (s.toksWhere n (fun k =>
          k.st == .waitPool || (k.st == .waitLine && (s.lockOf n k.line).isNone))) with
      | some t => s.reserveFor n htag t
      | none => s
  else
    match s.lineWaiter n line, s.freeSlot n with
    | some t, some h => s.reserveFor n h t
    | _, _ => s

/-- MAX_LINE_WAITERS follows (HOME_TOKEN_COUNTS). -/
def State.noteWaiters (s : State) (n line : Nat) : State :=
  let w := (s.toksWhere n (fun k => k.line == line && k.st == .waitLine)).length
  if s.get (R.HOME_TOKEN_COUNTS_MAX_LINE_WAITERS n) < w then s.put (R.HOME_TOKEN_COUNTS_MAX_LINE_WAITERS n) (min w 255)
  else s

/-- What becomes of a request at the head of arbitration (R128). -/
inductive Verdict where
  | accept (htag : Nat)
  | refuse
  deriving DecidableEq, Repr

/-- Refuse a request: keep token `t` where it carries one that was unbound, else draw a credit, else count what is
owed (R128). -/
def State.refuse (s : State) (n : Nat) (m : Msg) (keep : Option Nat) (pool : Bool) : State :=
  let r := s.tokRange m.srcPkg m.srcAgent
  let st : TokSt := if pool then .waitPool else .waitLine
  let k : Tok := { st := st, line := m.addr, txn := m.txn, pkg := m.srcPkg, agent := m.srcAgent }
  match keep with
  -- A kept token is ordered by the time it was drawn (R131).
  | some t => ((s.setTok n t { k with seq := (s.tok n t).seq }).noteWaiters n m.addr).sendRetry n m (some t)
  | none =>
    match s.freeCredit n r with
    | some t =>
      let s := s.setTok n t { k with seq := s.home.tokSeq }
      let s := { s with home := { s.home with tokSeq := s.home.tokSeq + 1 } }
      (s.noteWaiters n m.addr).sendRetry n m (some t)
    | none => (s.setOwed n r.1 (s.owedOf n r.1 ++ [(m.srcPkg, m.srcAgent)])).sendRetry n m none

/-- Decide a request as one without a token, `keep` being an unbound token it carries (R128). -/
def State.decide0 (s : State) (n : Nat) (m : Msg) (keep : Option Nat) : Verdict × State :=
  let locked := (s.lockOf n m.addr).isSome || !(s.waiters n m.addr).isEmpty
  -- A slot reserved with the token is used or released.
  let mine := keep.bind (fun t => (s.tok n t).slot)
  if locked then
    let s := s.refuse n m keep false
    match mine with
    | some h => (.refuse, s.slotFreed n h noLine)
    | none => (.refuse, s)
  else
    match (match mine with | some h => some h | none => s.freeSlot n) with
    | some h =>
      match keep with
      | some t => (.accept h, s.freeTok n t)
      | none => (.accept h, s)
    | none => (.refuse, s.refuse n m keep true)

/-- R128: accept a request into a slot, or refuse it. -/
def State.arbitrate (s : State) (n : Nat) (m : Msg) : Verdict × State :=
  if m.tokenV = false then s.decide0 n m none
  else
    let r := s.tokRange m.srcPkg m.srcAgent
    let k := s.tok n m.token
    let inRange := r.1 ≤ m.token ∧ m.token < r.1 + r.2
    if ¬ inRange then
      (.refuse, (s.sendErr n m 3).tokenErr n m.token 2 m.srcPkg m.srcAgent)
    else
      match k.st with
      | .free => s.decide0 n m none |>.map id (fun s => s.tokenErr n m.token 1 m.srcPkg m.srcAgent)
      | .waitLine => (.refuse, (s.sendRetry n m (some m.token)).tokenErr n m.token 4 m.srcPkg m.srcAgent)
      | .waitPool => (.refuse, (s.sendRetry n m (some m.token)).tokenErr n m.token 4 m.srcPkg m.srcAgent)
      | .grantLine =>
        if k.line = m.addr then
          match k.slot with
          | some h => (.accept h, s.freeTok n m.token)
          | none => s.decide0 n m none
        else (.refuse, (s.sendErr n m 3).tokenErr n m.token 2 m.srcPkg m.srcAgent)
      | .grantUnbound => s.decide0 n m (some m.token)

/-! ## The Pass links, as the homes see them (spec/06) -/

/-- Its channel, MGT being 5 (R151). -/
def linkChan : LinkMsg → Nat
  | .mgt _ => 5
  | .ose m => m.vc

/-- The ordered stream of a die: `dir` 0 UP, 1 DOWN. -/
def State.strm (s : State) (d dir : Nat) : PStream := Tbl.get (fun _ => {}) s.pass.strm (d * 2 + dir)
def State.setStrm (s : State) (d dir : Nat) (x : PStream) : State :=
  { s with pass := { s.pass with strm := Tbl.set (fun _ => {}) s.pass.strm (d * 2 + dir) x } }

/-- One end of a Pass port: `e` 0 Basin, 1 Vale. -/
def State.pEnd (s : State) (e p : Nat) : PEnd := Tbl.get (fun _ => {}) s.pass.ends (e * 24 + p)
def State.setPEnd (s : State) (e p : Nat) (x : PEnd) : State :=
  { s with pass := { s.pass with ends := Tbl.set (fun _ => {}) s.pass.ends (e * 24 + p) x } }

/-- A message leaves a receive buffer: its slots are free (R152). -/
def PEnd.consume (x : PEnd) (q : Nat × LinkMsg) : PEnd :=
  let c := linkChan q.2
  let n := Tbl.get (fun _ => 0) x.freed c + linkSlots q.2
  { x with rxq := x.rxq.erase q, freed := Tbl.set (fun _ => 0) x.freed c (n % 65536) }

/-- A message is consumed from whichever receive buffer holds it. -/
def State.rxConsume (s : State) (m : LinkMsg) : State :=
  match s.pass.ends.find? (fun e => e.2.rxq.any (fun q => q.2 == m)) with
  | some (k, x) =>
    match x.rxq.find? (fun q => q.2 == m) with
    | some q => s.setPEnd (k / 24) (k % 24) (x.consume q)
    | none => s
  | none => s

/-- The state of a port (PASS_STATUS.STATE), the same at both ends. -/
def State.passState (s : State) (p : Nat) : Nat := s.get (R.PASS_STATUS_STATE 0 p)

/-- The port that carries a line of slice parity `odd` of die `d` (spec/03 R65): the parity's, or its sibling while it
cannot run. -/
def State.passRoute (s : State) (d odd : Nat) : Nat :=
  let st := s.passState (2 * d + odd)
  if st = 8 ∨ st = 9 then 2 * d + odd
  else if s.passState (2 * d + 1 - odd) = 8 then 2 * d + 1 - odd else 2 * d + odd

/-- Has a message of die `d` or to it come out of end `e`'s receive buffers in DSEQ order (spec/06 R154)? -/
def State.linkHas (s : State) (e d : Nat) (m : Msg) : Bool :=
  [2 * d, 2 * d + 1].any (fun p => (s.pEnd e p).rxq.any (fun q =>
    q.2 == .ose m && !(s.strm d e).wait.any (fun w => w.1 == q.1)))

/-! ## The Horizon receive buffers, as the homes see them (spec/10) -/

/-- The VC and the route class of a Horizon message (R240 to R242). -/
def hmsgVc : HMsg → Nat
  | .ose m _ _ _ => m.vc
  | .win w => w.vc
def hmsgClass : HMsg → Nat
  | .ose _ _ _ c => c
  | .win w => w.rclass
/-- The channel code (R241). -/
def hmsgCode (x : HMsg) : Nat := (2 * hmsgVc x + hmsgClass x % 2) % 16

def hmsgDst : HMsg → Nat
  | .ose m _ _ _ => m.dstPkg
  | .win w => w.dstPkg

/-- Does a message wait for tokens of the port's bandwidth controller: a REQ or a window request (spec/09 R218, R221)? -/
def hznControlled : HMsg → Bool
  | .ose m _ _ _ => m.vc == vcREQ
  | .win w => (w.vc == 5 && w.wopc != 2) || w.vc == 6

/-- The RCID and MCID of a message. -/
def hmsgIds : HMsg → Nat × Nat
  | .ose m f _ _ => (m.rcid, if m.vc = vcREQ ∨ m.vc = vcWB then m.mcid else f)
  | .win w => (w.rcid, w.fmcid)

/-- Does a message move data to its destination, from it, or neither (spec/09 R219)? -/
def hmsgWrites : HMsg → Option Bool
  | .ose m _ _ _ =>
    if m.vc = vcWB then some true
    else if m.vc = vcREQ then some (m.opc == opWR_FULL || m.opc == opWR_PART)
    else none
  | .win w => if w.vc = 5 ∧ w.wopc ≠ 2 then some true else if w.vc = 6 then some false else none

/-- The RCIDs of the requests of this package that wait to leave on port `p`. -/
def State.hznWaiters (s : State) (p : Nat) : List Nat :=
  let here (x : HMsg) : Bool := hmsgDst x != s.pkgId && hznControlled x &&
    (match s.route (hmsgDst x) with | .ports l => l.contains p | _ => false)
  ((s.net.map (fun m => HMsg.ose m 0 0 0) ++ s.hzn.out.map HMsg.win).filter here).map (fun x => (hmsgIds x).1)

/-- A message leaves a receive buffer: its slots are free. -/
def HPortSt.consume (x : HPortSt) (q : Nat × HMsg) : HPortSt :=
  let c := hmsgCode q.2
  let n := Tbl.get (fun _ => 0) x.freed c + hmsgSlots q.2
  { x with rxq := x.rxq.erase q, freed := Tbl.set (fun _ => 0) x.freed c (n % 65536) }

/-- A message is consumed from whichever Horizon buffer holds it. -/
def State.hznConsume (s : State) (is : HMsg → Bool) : State :=
  match s.hzn.ports.find? (fun e => e.2.rxq.any (fun q => is q.2)) with
  | some (p, x) =>
    match x.rxq.find? (fun q => is q.2) with
    | some q => s.setHPort p (x.consume q)
    | none => s
  | none => s

/-- The arbitration input on which a request arrived (R125): the Pass or Horizon port that holds it, or the one it would
come on. -/
def State.arbInput (s : State) (m : Msg) : Nat :=
  if m.srcPkg = s.pkgId then
    if m.srcAgent < 12 then
      let d := m.srcAgent
      (([2 * d, 2 * d + 1] : List Nat).find? (fun p => (s.pEnd 0 p).rxq.any (fun q => q.2 == .ose m))).getD
        (s.passRoute d (valeSlice (m.addr * 64) % 2))
    else if m.srcAgent = agXCE then 32
    else 33
  else
    let has (x : HMsg) : Bool := match x with | .ose y _ _ _ => y == m | .win _ => false
    24 + ((List.range 8).find? (fun p => (s.hPort p).rxq.any (fun q => has q.2))).getD
      (((List.range 8).find? (fun p => (s.get (R.ROUTE_ENTRY_PORT_MASK m.srcPkg)).testBit p)).getD 0)

/-- The root port that input 33 of a slice searches first. -/
def State.rootNext (s : State) (n : Nat) : Nat := Tbl.get (fun _ => 0) s.home.rootNext n

/-- A request is taken out of arbitration (R125): HOME_ARB.POINTER moves past its input, and the root ports' own turn past
its root port. -/
def State.arbTaken (s : State) (n : Nat) (m : Msg) : State :=
  let i := s.arbInput m
  let s : State := if i = 33 then
      { s with home := { s.home with rootNext := Tbl.set (fun _ => 0) s.home.rootNext n ((m.srcAgent - agROOT + 1) % 32) } }
    else s
  s.put (R.HOME_ARB_POINTER n) ((i + 1) % 34)

/-- The REQ that slice `n` takes next among those waiting (R125): of the first input from HOME_ARB.POINTER on that has one,
the oldest; among root ports, of the first from their own turn on. -/
def State.arbWinner (s : State) (n : Nat) (waiting : List Msg) : Option Msg :=
  let ptr := s.get (R.HOME_ARB_POINTER n)
  let at' (i : Nat) : List Msg := waiting.filter (fun m => s.arbInput m == i)
  match ((List.range 34).map (fun k => (ptr + k) % 34)).find? (fun i => !(at' i).isEmpty) with
  | none => none
  | some i =>
    if i = 33 then
      match ((List.range 32).map (fun k => (s.rootNext n + k) % 32)).findSome? (fun r =>
        (at' i).find? (fun m => m.srcAgent == agROOT + r)) with
      | some m => some m
      | none => (at' i).head?
    else (at' i).head?

/-- Take a message out of flight. -/
def State.take (s : State) (m : Msg) : State :=
  let s : State := { s with net := s.net.erase m }
  (s.rxConsume (.ose m)).hznConsume (fun x => match x with | .ose y _ _ _ => y == m | .win _ => false)

end Sys2Proof.Machine
end

