-- ==== Sys2Proof/Machine/Health.lean ====
section
/-!
DEFINITION. The predicted end of life of a die (spec/15_thoiviyx_management.md R344).
-/

namespace Sys2Proof.Machine

/-- A port's shared record. -/
def State.pPort (s : State) (p : Nat) : PPort := Tbl.get (fun _ => {}) s.pass.ports p
def State.setPPort (s : State) (p : Nat) (x : PPort) : State :=
  { s with pass := { s.pass with ports := Tbl.set (fun _ => {}) s.pass.ports p x } }

/-- One day, and the spans of the two projections, in ns. -/
def dayNs : Nat := 86400000000000

/-- The ageing monitors of a die: the first and how many (R343). -/
def monitorsOf (d : Nat) : Nat × Nat :=
  if d < 12 then (4 * d, 4) else if d = 12 then (48, 8) else (56 + (d - 13), 1)

/-- A monitor's readings, newest first. -/
def State.readings (s : State) (m : Nat) : List (Nat × Int) := Tbl.get (fun _ => []) s.tvx.ages m

/-- A monitor's latest reading; 0 before the first. -/
def State.latest (s : State) (m : Nat) : Int := match s.readings m with | (_, v) :: _ => v | [] => 0

/-- The monitor of a die that reads highest, the lowest-numbered among equals. -/
def State.worstMonitor (s : State) (d : Nat) : Nat :=
  (List.range (monitorsOf d).2).foldl
    (fun b i => if s.latest b < s.latest ((monitorsOf d).1 + i) then (monitorsOf d).1 + i else b) (monitorsOf d).1

/-- The least-squares slope of readings, as numerator and denominator, in ppm per ns; no slope through one instant. -/
def slope (xs : List (Nat × Int)) : Int × Int :=
  let n : Int := xs.length
  let st := xs.foldl (fun a x => a + (x.1 : Int)) 0
  let sy := xs.foldl (fun a x => a + x.2) 0
  let sty := xs.foldl (fun a x => a + (x.1 : Int) * x.2) 0
  let stt := xs.foldl (fun a x => a + (x.1 : Int) * (x.1 : Int)) 0
  (n * sty - st * sy, n * stt - st * st)

/-- A, and r as numerator and denominator in ppm per day, over the trailing 30 days. -/
def State.ageFit (s : State) (d : Nat) : Int × Int × Int :=
  let m := s.worstMonitor d
  let xs := (s.readings m).filter (fun x => decide (s.pwr.now ≤ x.1 + 30 * dayNs))
  let k := slope xs
  (s.latest m, k.1 * dayNs, k.2)

/-- The ageing projection in whole days. -/
def State.ageDays (s : State) (d : Nat) : Option Nat :=
  let f := s.ageFit d
  if f.2.1 ≤ 0 ∨ f.2.2 ≤ 0 then none else some (((40000 - f.1) * f.2.2) / f.2.1).toNat

/-- Permanent lane events on a die's ports in the trailing 90 days. -/
def State.laneEvents (s : State) (d : Nat) : Nat :=
  (s.tvx.lanes.filter (fun x => x.2 == d && decide (s.pwr.now ≤ x.1 + 90 * dayNs))).length

/-- Further permanent lane events that bring a port to width 16. -/
def State.portSpan (s : State) (p : Nat) : Nat :=
  let x := s.pPort p
  if s.passState p = 10 ∨ s.get (R.PASS_STATUS_WIDTH 0 p) = 2 then 0
  else (68 - max (popCount 68 x.up) (popCount 68 x.down)) - 31

/-- The lane projection: F * 90 / N days, for Vale dies. -/
def State.laneF (s : State) (d : Nat) : Nat := s.portSpan (2 * d) + s.portSpan (2 * d + 1)
def State.laneDays (s : State) (d : Nat) : Option Nat :=
  if d < 12 ∧ 0 < s.laneEvents d then some (s.laneF d * 90 / s.laneEvents d) else none

/-- PEOL in days, at most 36,500. -/
def State.peol (s : State) (d : Nat) : Option Nat :=
  match s.ageDays d, s.laneDays d with
  | some a, some b => some (min 36500 (min a b))
  | some a, none => some (min 36500 a)
  | none, some b => some (min 36500 b)
  | none, none => none

/-- Revise a die's PEOL: HEALTH_WARN when it falls below HEALTH_WARN_DAYS, once until it recovers. -/
def State.healthRevise (s : State) (d : Nat) : State :=
  let low : Bool := match s.peol d with | some n => decide (n < s.settingN 0x0008) | none => false
  if low then
    if s.tvx.warned.testBit d then s
    else
      let s : State := { s with tvx := { s.tvx with warned := setBits s.tvx.warned d 1 1 } }
      s.logEvent 0x0050 sevWARNING d d
  else { s with tvx := { s.tvx with warned := setBits s.tvx.warned d 1 0 } }

/-- A permanent lane event on a port of a die (R169, R344). -/
def State.laneEvent (s : State) (d : Nat) : State :=
  let s : State := { s with tvx := { s.tvx with lanes := (s.pwr.now, d) :: s.tvx.lanes } }
  s.healthRevise d

end Sys2Proof.Machine
end

