-- ==== Sys2Proof/Machine/Aplic.lean ====
section
/-!
DEFINITION. The APLIC in MSI delivery mode (spec/13_root_ports.md R321), with the register layout of the AIA
specification (notes/assumptions/33.md): two domains, machine level (0) and supervisor level (1).
-/

namespace Sys2Proof.Machine

/-- A 4-byte register of a domain. -/
def aplicReg (dom off : Nat) : Nat := 0x2900000 + 0x40000 + dom * 0x20000 + off
def State.aplic (s : State) (dom off : Nat) : Nat := (s.reg (aplicReg dom off)).toNat % 2 ^ 32
def State.setAplic (s : State) (dom off v : Nat) : State := s.setReg (aplicReg dom off) (BitVec.ofNat 64 (v % 2 ^ 32))

/-- The domain that source `i` belongs to, and its source mode: sourcecfg.D delegates it to the supervisor domain. -/
def State.aplicSource (s : State) (i : Nat) : Nat × Nat :=
  let c := s.aplic 0 (4 * i)
  if c.testBit 10 then (1, s.aplic 1 (4 * i) % 8) else (0, c % 8)

def State.aplicPend (s : State) (dom i : Nat) : Bool := (Tbl.get (fun _ => 0) s.io.aplicIp dom).testBit i
def State.setAplicPend (s : State) (dom i : Nat) (b : Bool) : State :=
  { s with io := { s.io with aplicIp := Tbl.upd (fun _ => 0) s.io.aplicIp dom (fun m => setBits m i 1 (b2n b)) } }

/-- A pending and enabled source is forwarded as an MSI to the file its target register names, and its pending bit
clears. -/
def State.aplicForward (s : State) (dom i : Nat) : State :=
  let ie := (s.aplic dom (0x1E00 + 4 * (i / 32))).testBit (i % 32)
  if s.aplicPend dom i && ie && (s.aplic dom 0).testBit 8 then
    let t := s.aplic dom (0x3000 + 4 * i)
    let h := bits t 18 14
    let s := s.setAplicPend dom i false
    if h < 384 then s.fileTake h (if dom = 0 then 0 else 1 + bits t 12 6) (t % 2 ^ 11) 0 else s
  else s

/-- The level of source `i` changes. -/
def State.aplicLevel (s : State) (i : Nat) (level : Bool) : State :=
  let old := s.io.aplic.testBit i
  let s : State := { s with io := { s.io with aplic := setBits s.io.aplic i 1 (b2n level) } }
  if old == level then s
  else
    let (dom, mode) := s.aplicSource i
    let rises : Bool := if mode = 4 ∨ mode = 6 then level else if mode = 5 ∨ mode = 7 then !level else false
    let falls : Bool := (mode == 6 && !level) || (mode == 7 && level)
    if rises then (s.setAplicPend dom i true).aplicForward dom i
    else if falls then s.setAplicPend dom i false else s

/-! ## The registers of a domain -/

/-- The rectified input of source `i` under its mode. -/
def State.aplicInput (s : State) (i : Nat) : Bool :=
  let m := (s.aplicSource i).2
  if m = 4 ∨ m = 6 then s.io.aplic.testBit i else if m = 5 ∨ m = 7 then !s.io.aplic.testBit i else false

/-- Source `i` is active in a domain. -/
def State.aplicActive (s : State) (dom i : Nat) : Bool :=
  decide (1 ≤ i) && decide (i < 1024) && (s.aplicSource i).1 == dom && (s.aplicSource i).2 != 0

/-- Software sets or clears the pending bit of a source. -/
def State.aplicTry (s : State) (dom i : Nat) (on : Bool) : State :=
  if !s.aplicActive dom i then s
  else if !on then s.setAplicPend dom i false
  else if (s.aplicSource i).2 < 6 || s.aplicInput i then (s.setAplicPend dom i true).aplicForward dom i
  else s

/-- Software sets or clears the enable bit of a source. -/
def State.aplicEnable (s : State) (dom i : Nat) (on : Bool) : State :=
  if !s.aplicActive dom i then s
  else
    let o := 0x1E00 + 4 * (i / 32)
    (s.setAplic dom o (setBits (s.aplic dom o) (i % 32) 1 (b2n on))).aplicForward dom i

/-- A source mode that a domain may hold: 2 and 3 are reserved and read as 0. -/
def aplicMode (v : Nat) : Nat := if v % 8 = 2 ∨ v % 8 = 3 then 0 else v % 8

/-- sourcecfg of source `i` is written. A source that stops being active loses its pending and enable bits. -/
def State.aplicConfig (s : State) (dom i v : Nat) : State :=
  if i = 0 ∨ (dom = 1 ∧ (s.aplicSource i).1 = 0) then s
  else
    let o := 0x1E00 + 4 * (i / 32)
    let s := s.setAplic dom (4 * i) (if dom = 0 ∧ v.testBit 10 then 0x400 else aplicMode v)
    let off (s : State) (d : Nat) : State :=
      if s.aplicActive d i then s
      else (s.setAplicPend d i false).setAplic d o (setBits (s.aplic d o) (i % 32) 1 0)
    let s := off (off s 0) 1
    if 6 ≤ (s.aplicSource i).2 && s.aplicInput i then (s.setAplicPend (s.aplicSource i).1 i true).aplicForward (s.aplicSource i).1 i
    else s

/-- Fold over the sources of word `k` whose bit is 1 in `v`. -/
def State.aplicEach (s : State) (k v : Nat) (f : State → Nat → State) : State :=
  foldN 32 s (fun b s => if v.testBit b then f s (32 * k + b) else s)

/-- A 4-byte read of a domain's register. -/
def State.aplicRead (s : State) (dom o : Nat) : Nat :=
  if o = 0 then 0x80000004 + setBits 0 8 1 (b2n ((s.aplic dom 0).testBit 8))
  else if o < 0x1000 then s.aplic dom o
  else if 0x1C00 ≤ o ∧ o < 0x1C80 then (Tbl.get (fun _ => 0) s.io.aplicIp dom) >>> (8 * (o - 0x1C00)) % 2 ^ 32
  else if 0x1D00 ≤ o ∧ o < 0x1D80 then
    (List.range 32).foldl (fun n b => if s.aplicActive dom (8 * (o - 0x1D00) + b) && s.aplicInput (8 * (o - 0x1D00) + b) then n + 2 ^ b else n) 0
  else if (0x1E00 ≤ o ∧ o < 0x1E80) ∨ (0x1BC0 ≤ o ∧ o < 0x1BD0) ∨ (0x3004 ≤ o ∧ o < 0x4000) then s.aplic dom o
  else 0

/-- A 4-byte write of a domain's register. -/
def State.aplicWrite (s : State) (dom o v : Nat) : State :=
  let v := v % 2 ^ 32
  if o = 0 then
    let s := s.setAplic dom 0 (bits v 8 1 <<< 8)
    if v.testBit 8 then foldN 1024 s (fun i s => s.aplicForward dom i) else s
  else if o < 0x1000 then s.aplicConfig dom (o / 4) v
  else if 0x1BC0 ≤ o ∧ o < 0x1BD0 then (if dom = 0 then s.setAplic dom o v else s)
  else if 0x1C00 ≤ o ∧ o < 0x1C80 then s.aplicEach ((o - 0x1C00) / 4) v (fun s i => s.aplicTry dom i true)
  else if o = 0x1CDC ∨ o = 0x2000 then s.aplicTry dom v true
  else if o = 0x2004 then s.aplicTry dom (byteSwap32 v) true
  else if 0x1D00 ≤ o ∧ o < 0x1D80 then s.aplicEach ((o - 0x1D00) / 4) v (fun s i => s.aplicTry dom i false)
  else if o = 0x1DDC then s.aplicTry dom v false
  else if 0x1E00 ≤ o ∧ o < 0x1E80 then s.aplicEach ((o - 0x1E00) / 4) v (fun s i => s.aplicEnable dom i true)
  else if o = 0x1EDC then s.aplicEnable dom v true
  else if 0x1F00 ≤ o ∧ o < 0x1F80 then s.aplicEach ((o - 0x1F00) / 4) v (fun s i => s.aplicEnable dom i false)
  else if o = 0x1FDC then s.aplicEnable dom v false
  else if o = 0x3000 then
    let h := bits v 18 14
    if h < 384 then s.fileTake h (if dom = 0 then 0 else 1) (v % 2 ^ 11) 0 else s
  else if 0x3004 ≤ o ∧ o < 0x4000 then
    (if s.aplicActive dom ((o - 0x3000) / 4) then s.setAplic dom o (v &&& 0xFFFFF7FF) else s)
  else s

end Sys2Proof.Machine
end

