-- ==== Sys2Proof/Machine/HomeFlow.lean ====
section
/-!
DEFINITION. How a home slice carries a transaction from its lock to its close (spec/04 R94, R102 to R110, R118, R119;
spec/05 R134 to R136, R435). A transaction waits in phases: the answers to its invalidating snoops, then the owner's
answer and data, then memory, then a way of its set, then the closing event.
-/

namespace Sys2Proof.Machine

/-! ## Atomics (R92, R103) -/

/-- A number of `w` bits as a signed integer. -/
def toSigned (w n : Nat) : Int := if n < 2 ^ (w - 1) then (n : Int) else (n : Int) - 2 ^ w

/-- The new value of an atomic operation on `w` bits (R92, R103); `cmp` is CAS's compare value. -/
def atomicNew (aop w old v cmp : Nat) : Nat :=
  if aop = 0 then v
  else if aop = 1 then (old + v) % 2 ^ w
  else if aop = 2 then old &&& v
  else if aop = 3 then old ||| v
  else if aop = 4 then old ^^^ v
  else if aop = 5 then (if toSigned w old < toSigned w v then v else old)
  else if aop = 6 then (if toSigned w v < toSigned w old then v else old)
  else if aop = 7 then max old v
  else if aop = 8 then min old v
  else if old = cmp then v else old

/-- The operand and compare value of a payload: for CAS the compare value stands first (R92). -/
def atomicArgs (aop size : Nat) (p : Line) : Nat × Nat :=
  if aop = 9 then (lineField p size size, lineField p 0 size) else (lineField p 0 size, 0)

/-- Apply an ATOMIC_NC to a line: the new line and the old value. -/
def atomicLine (l : Line) (aop asize aoff : Nat) (p : Line) : Line × Nat :=
  let n := 4 * 2 ^ asize
  let old := lineField l aoff n
  let a := atomicArgs aop n p
  (lineSet l aoff n (atomicNew aop (8 * n) old a.1 a.2), old)

/-! ## Snoops -/

/-- Where data that a snoop causes goes: the requester, or whoever a remote home's snoop names (R116). -/
def HTxn.requester (t : HTxn) : Nat × Nat × Nat :=
  match t.work with
  | .extSnoop _ => (t.req.reqPkg, t.req.reqAgent, t.req.reqTxn)
  | _ => (t.req.srcPkg, t.req.srcAgent, t.req.txn)

/-- Is a die answered for by the Basin end: offline, quiescent or lost (spec/03 R80, spec/06 R168)? -/
def State.dieQuiet (s : State) (d : Nat) : Bool :=
  !s.dieOnline d || (Tbl.get (fun _ => ({} : DieCtl)) s.die.ctl d).quiet

/-- The SNP_ACK_MISS with which the Basin end answers a snoop for a quiet die. -/
def State.quietAck (s : State) (m : Msg) : Msg :=
  { vc := vcRSP, opc := opACK_MISS, srcPkg := s.pkgId, srcAgent := m.dstAgent, dstPkg := m.srcPkg,
    dstAgent := m.srcAgent, txn := m.txn, addr := m.addr, htag := m.htag, mcid := m.mcid }

/-- Send a snoop to a holder; to a quiet die the Basin end's SNP_ACK_MISS stands in the answer (R80). -/
def State.snoop (s : State) (n htag : Nat) (t : HTxn) (opc h : Nat) (toHome : Bool) : State :=
  let tag := t.wireTag htag
  let r := if toHome then (s.pkgId, agHOME + n, tag) else t.requester
  let dst := if h < 12 then (s.pkgId, h)
    else (s.get (R.ROUTE_MEMBER_PACKAGE_ID (h - 64)), agHOME + proxyOf (t.line * 64))
  let m : Msg :=
    { vc := vcSNP, opc := opc, srcPkg := s.pkgId, srcAgent := agHOME + n, dstPkg := dst.1, dstAgent := dst.2,
      txn := t.req.txn, addr := t.line, htag := tag, reqPkg := r.1, reqAgent := r.2.1, reqTxn := r.2.2, mcid := t.mcid }
  let s := s.count (ctrHome n) 4
  if h < 12 ∧ s.dieQuiet h then s.send (s.quietAck m) else s.send m

/-- Send a snoop to every holder of a mask. -/
def State.snoopAll (s : State) (n htag : Nat) (t : HTxn) (opc mask : Nat) (toHome : Bool) : State :=
  (holdersIn mask).foldl (fun s h => s.snoop n htag t opc h toHome) s

/-- Can a holder be reached? A member that has left, or to which no path is left (spec/10 R251), counts as having
answered (R117). -/
def State.reachable (s : State) (h : Nat) : Bool :=
  decide (h < 64) ||
  (s.memberServed (h - 64) && s.route (s.get (R.ROUTE_MEMBER_PACKAGE_ID (h - 64))) != .unroutable)

def State.reachMask (s : State) (mask : Nat) : Nat :=
  (holdersIn mask).foldl (fun m h => if s.reachable h then m else without m h) mask

/-! ## Writebacks that meet no transaction (R108, R135) -/

def State.wbAnswer (s : State) (n : Nat) (m : Msg) (stale : Bool) : State :=
  let s := if stale then s.count (ctrHome n) 8 else s
  let a : Msg := { s.rsp n m (if stale then opWB_STALE else opWB_ACK) with addr := m.addr }
  if stale then s.send a else s.sendAfter a

/-- The data of a message that carries a line: the marker where it is poisoned (R92). -/
def msgLine (m : Msg) : Option Line := if m.poison then none else some m.data

/-- A view after holder `h` is dropped (R105). -/
def View.drop (v : View) (h : Nat) : View :=
  let mask := without v.mask h
  if v.owner = some h then ⟨if mask = 0 then 0 else 1, mask, none⟩
  else if mask = 0 then {} else { v with mask := mask }

/-- Apply a WB_DIRTY of the line's owner (R108): memory written, the writer dropped, WB_ACK. -/
def State.wbApply (s : State) (n : Nat) (m : Msg) (w : Nat) : State :=
  let d := s.dOfLine m.addr
  let s := s.homeWrite n d m.mcid (msgLine m) m.rcid
  let s := s.writeView n d ((s.homeView n d).drop w)
  s.wbAnswer n m false

/-- A WB_DIRTY to a line that no transaction holds (R108, R123, R135). -/
def State.wbUnlocked (s : State) (n : Nat) (m : Msg) : State :=
  let d := s.dOfLine m.addr
  if s.isBcast n d then (s.homeWrite n d m.mcid (msgLine m) m.rcid).wbAnswer n m false
  else
    match s.holderOf m.srcPkg m.srcAgent with
    | some w =>
      let v := s.homeView n d
      if (v.kind = 2 ∨ v.kind = 3) ∧ v.owner = some w then s.wbApply n m w
      else (s.wbAnswer n m true).protoErr n m 2
    | none => (s.wbAnswer n m true).protoErr n m 2

/-! ## Lines of a lost die (spec/06 R168) -/

/-- The writebacks of die `d` for a line that its home holds (R135). -/
def State.heldOf (s : State) (n line d : Nat) : List (Nat × Msg) :=
  s.home.wbHeld.filter (fun e => e.1 == n && e.2.addr == line && e.2.srcPkg == s.pkgId && e.2.srcAgent == d)

/-- Memory takes what the lost die's copy leaves: the writeback that the home holds, or the corrupt marker, and the die
is dropped (spec/06 R168). -/
def State.lostCopy (s : State) (n line d : Nat) : State :=
  let dd := s.dOfLine line
  let held := s.heldOf n line d
  let s := match held with
    | (_, m) :: _ => s.homeWrite n dd m.mcid (msgLine m)
    | [] => s.homeWrite n dd 0 none
  let s := s.writeView n dd ((s.homeView n dd).drop d)
  { s with home := { s.home with wbHeld := s.home.wbHeld.filter (fun e => !held.contains e) } }

/-- Is die `d` the owner in EXCL or OWNED? -/
def View.ownedBy (v : View) (d : Nat) : Bool := (v.kind == 2 || v.kind == 3) && v.owner == some d

/-- A record that names a lost die as owner, and that its sweep has not reached, is settled when it is read (spec/06 R168). -/
def State.lostLook (s : State) (n line : Nat) : State :=
  let v := s.homeView n (s.dOfLine line)
  match v.owner with
  | some o => if o < 12 ∧ v.ownedBy o ∧ (Tbl.get (fun _ => ({} : DieCtl)) s.die.ctl o).lost then s.lostCopy n line o else s
  | none => s

/-! ## Coherent fills: the reply (R102) -/

/-- What memory or the Mesa cache gave: good data, or an error. -/
def HTxn.goodData (t : HTxn) : Option Line :=
  match t.got with
  | some (l, false) => some l
  | _ => none

/-- Answer a coherent request from memory data or with a grant: record the requester and send it the line (R102). The
set has a way. -/
def State.fillReply (s : State) (n htag : Nat) (t : HTxn) : State :=
  let d := s.dOfLine t.line
  let v := s.homeView n d
  match s.holderOf t.req.srcPkg t.req.srcAgent with
  | none => s.setLock n htag (some { t with phase := .close, done := true })
  | some q =>
    let b := t.bcast
    let excl : View := ⟨2, maskOf q, some q⟩
    let put (s : State) (v : View) : State := if b then s else s.writeView n d v
    let fin (s : State) : State := s.setLock n htag (some { t with phase := .close, done := true })
    if t.req.opc = opUPGRADE ∧ ¬ t.fill then
      fin ((put s excl).sendData n htag t.req opDATA_M 3 none)
    else if t.req.opc = opRD_SHARED then
      if v.kind = 1 ∧ !b then fin ((put s ⟨1, v.mask ||| maskOf q, none⟩).sendData n htag t.req opDATA_S t.dsrc t.goodData)
      else if v.kind = 2 ∧ v.owner = some q then fin (s.sendData n htag t.req opDATA_E t.dsrc t.goodData)
      else if t.eGrant then fin ((put s excl).sendData n htag t.req opDATA_E t.dsrc t.goodData)
      else fin ((put s ⟨1, maskOf q, none⟩).sendData n htag t.req opDATA_S t.dsrc t.goodData)
    else fin ((put s excl).sendData n htag t.req opDATA_E t.dsrc t.goodData)

/-- Does the reply need a directory way, or an RPT way, that the set does not have (R110)? -/
def State.needsDir (s : State) (n : Nat) (t : HTxn) : Bool :=
  let d := s.dOfLine t.line
  !t.bcast && (s.dirWay n d).isNone && (s.dirFree n d).isNone
def State.needsRpt (s : State) (n : Nat) (t : HTxn) : Bool :=
  let d := s.dOfLine t.line
  !t.bcast && decide (t.req.srcPkg ≠ s.pkgId) && (s.rptWay n d).isNone && (s.rptFree n d).isNone

/-! ## Closing (R107) -/

/-- Release a line lock (R107, R131): the slot passes on, and writebacks held for the close are decided against the
entry as the transaction left it (R135). -/
def State.releaseNow (s : State) (n htag line : Nat) : State :=
  let s := s.slotFreed n htag line
  let mine := s.home.wbHeld.filter (fun e => e.1 == n && e.2.addr == line)
  let s := { s with home := { s.home with wbHeld := s.home.wbHeld.filter (fun e => !(e.1 == n && e.2.addr == line)) } }
  mine.foldl (fun s e => s.wbUnlocked n e.2) s

/-- Release a line lock, or keep it while the channel controller holds a write to the line (spec/07 R179). -/
def State.release (s : State) (n htag line : Nat) : State :=
  match s.lock n htag with
  | some t => if s.lineHeld line then s.setLock n htag (some { t with phase := .store }) else s.releaseNow n htag line
  | none => s.releaseNow n htag line

/-- The owner has forwarded the line to the requester (R102, R103, R136): the records change, and the transaction
waits for its close. -/
def State.forwardedCore (s : State) (n htag : Nat) (t : HTxn) : State :=
  let d := s.dOfLine t.line
  let v := s.homeView n d
  let o := match t.fwd with | some (o, _) => o | none => 0
  let v' : View :=
    match s.holderOf t.req.srcPkg t.req.srcAgent with
    | some q =>
      if t.req.opc = opRD_SHARED then
        if t.newSt = 2 then ⟨3, v.mask ||| maskOf q, some o⟩
        else if t.newSt = 1 then ⟨1, v.mask ||| maskOf q, none⟩
        else ⟨1, without v.mask o ||| maskOf q, none⟩
      else if t.req.opc = opRD_OWN ∨ t.req.opc = opUPGRADE then ⟨2, maskOf q, some q⟩
      else if t.newSt = 0 then v.drop o else v
    | none => if t.newSt = 0 then v.drop o else v
  let s := if t.bcast then s else s.writeView n d v'
  s.setLock n htag (some { t with phase := .close, done := true })

/-- Has the owner forwarded the line to the requester itself? -/
def HTxn.wasForwarded (t : HTxn) : Bool :=
  !t.toHome && !t.memOk &&
  (match t.fwd with
   | some (o, _) => t.answered.any (fun a => a.1 == o && (a.2 == opFWD_DONE || a.2 == opFWD_DONE_WB))
   | none => false)

/-- A transaction that waited for a recall goes on where the set now has its ways (R110), and otherwise waits. -/
def State.resumeFill (s : State) (n htag : Nat) : State :=
  match s.lock n htag with
  | some t =>
    if s.needsDir n t || s.needsRpt n t then s.setLock n htag (some { t with phase := .way })
    else if t.wasForwarded then s.forwardedCore n htag t
    else s.fillReply n htag t
  | none => s

/-- Close a request whose closing conditions are met: CLOSE has arrived for a coherent fill, and the WB_DIRTY of a
forwarder has been answered (R107, R136). -/
def State.closeRequest (s : State) (n htag : Nat) : State :=
  match s.lock n htag with
  | some t =>
    let fill := t.req.opc = opRD_SHARED ∨ t.req.opc = opRD_OWN ∨ t.req.opc = opUPGRADE
    if t.phase = .close ∧ t.done ∧ t.wbWait = none ∧ (t.closed ∨ ¬ fill) then s.release n htag t.line else s
  | none => s

/-- Close a transaction of any kind whose conditions are met; a victim recall that ends lets its transaction go on. -/
def State.tryClose (s : State) (n htag : Nat) : State :=
  match s.lock n htag with
  | some t =>
    match t.work with
    | .request => s.closeRequest n htag
    | .recallFor h =>
      if t.phase = .close ∧ t.wbWait = none then ((s.release n htag t.line).resumeFill n h).closeRequest n h else s
    | _ => if t.phase = .close ∧ t.done ∧ t.wbWait = none then s.release n htag t.line else s
  | none => s

/-- Answer ERR, and close: nothing is allocated and the entry does not change (R118). -/
def State.failTxn (s : State) (n htag : Nat) (t : HTxn) (cause : Nat) : State :=
  let s := s.sendErr n t.req cause
  let s := s.setLock n htag (some { t with phase := .close, done := true, closed := true })
  s.tryClose n htag

/-! ## Directory capacity eviction (R110) -/

/-- Is a line locked at a slice, or a snoop or a writeback of it under way there? -/
def State.lineBusy (s : State) (n line : Nat) : Bool := (s.lockOf n line).isSome || s.pxComing n line

/-- Ways of a set whose line is so. -/
def State.lockedWays (s : State) (n : Nat) (lineOf : Nat → Nat) : Nat :=
  foldN 16 0 (fun w m => if s.lineBusy n (lineOf w) then m ||| 1 <<< w else m)

/-- The number under which a victim is recalled for slot `htag`: a free slot, or one that shares `htag` (R141). -/
def State.vicSlot (s : State) (n htag : Nat) : Nat := (s.freeSlot n).getD (vicTag htag)

/-- Choose a victim way: the lowest unlocked enabled way with NRU 0, clearing NRU where none has (R110 item 1). Also
answers whether NRU was cleared. -/
def chooseNru (enabled locked nru : Nat) : Option (Nat × Bool) :=
  let ok := (List.range 16).filter (fun w => enabled.testBit w && !locked.testBit w)
  match ok.find? (fun w => !nru.testBit w) with
  | some w => some (w, false)
  | none => ok.head?.map (fun w => (w, true))

/-- A recall of a line begins under a lock slot of its own: SNP_INV to every non-owner holder, then SNP_FWD_OWN with
data to the home to any owner (R110 item 3). -/
def State.recallLock (s : State) (n htag line : Nat) (work : HWork) (mask : Nat) (owner : Option Nat) (found : Nat) :
    State :=
  let req : Msg := { vc := vcSNP, opc := 0, srcPkg := s.pkgId, srcAgent := agHOME + n, dstPkg := s.pkgId,
                     dstAgent := agHOME + n, txn := htag, addr := line }
  let owner := owner.filter (fun o => s.reachable o)
  let invs := s.reachMask (match owner with | some o => without mask o | none => mask)
  let now : Bool := invs == 0 && owner.isSome
  let t : HTxn := { line := line, proxy := false, work := work, req := req, phase := if now then .owner else .acks,
                    invs := invs, found := found, fwd := owner.map (fun o => (o, opFWD_OWN)), sent := now, toHome := true,
                    mcid := 0, since := s.pwr.now }
  let s := (s.setLock n htag (some t)).snoopAll n htag t opINV invs false
  match owner with
  | some o => if now then s.snoop n htag t opFWD_OWN o true else s
  | none => s

/-- A victim that nothing but lost or unreachable holders listed is freed at once, and the transaction that needs its way
goes on. -/
def State.recallNone (s : State) (n htag line : Nat) (t : HTxn) (mask : Nat) : State :=
  let d := s.dOfLine line
  let v := s.homeView n d
  let left := (holdersIn mask).foldl without v.mask
  let s := s.writeView n d { v with mask := left, kind := if left = 0 then 0 else v.kind }
  ((s.setLock n htag (some { t with phase := .evicting })).resumeFill n htag).closeRequest n htag

/-- Evict an entry for a transaction that needs a way (R110): a directory victim, or an RPT victim whose recall
addresses members only. Where every enabled way is locked, it waits. -/
def State.evictFor (s : State) (n htag : Nat) (t : HTxn) : State :=
  let d := s.dOfLine t.line
  let wait (s : State) : State := s.setLock n htag (some { t with phase := .way })
  if s.needsDir n t then
    let set := dirSet d
    let lineOf (w : Nat) : Nat := s.gaOfD (dirLine n set (s.dirE n set w).tag) / 64
    let nru := foldN 16 0 (fun w m => if (s.dirE n set w).nru then m ||| 1 <<< w else m)
    match chooseNru (s.dirEnabled n) (s.lockedWays n lineOf) nru with
    | some (w, clr) =>
      let h := s.vicSlot n htag
      let lk := s.lockedWays n lineOf
      let s1 := if clr then foldN 16 s (fun w s =>
          if (s.dirEnabled n).testBit w && !lk.testBit w then s.setDirE n set w { s.dirE n set w with nru := false } else s)
        else s
      let line := lineOf w
      let s1 := s1.lostLook n line
      let v := s1.homeView n (s1.dOfLine line)
      let s1 := (s1.setLock n htag (some { t with phase := .evicting })).count (ctrHome n) 6
      if s1.reachMask v.mask = 0 then s1.recallNone n htag line t v.mask
      else s1.recallLock n h line (.recallFor htag) v.mask v.owner v.kind
    | none => wait s
  else
    let set := rptSet d
    let lineOf (w : Nat) : Nat := s.gaOfD (rptLine n set (s.rptE n set w).tag) / 64
    let nru := foldN 16 0 (fun w m => if (s.rptE n set w).nru then m ||| 1 <<< w else m)
    match chooseNru (s.rptEnabled n) (s.lockedWays n lineOf) nru with
    | some (w, clr) =>
      let h := s.vicSlot n htag
      let lk := s.lockedWays n lineOf
      let s1 := if clr then foldN 16 s (fun w s =>
          if (s.rptEnabled n).testBit w && !lk.testBit w then s.setRptE n set w { s.rptE n set w with nru := false } else s)
        else s
      let line := lineOf w
      let s1 := s1.lostLook n line
      let v := s1.homeView n (s1.dOfLine line)
      let s1 := (s1.setLock n htag (some { t with phase := .evicting })).count (ctrHome n) 6
      if s1.reachMask (v.mask >>> 64 <<< 64) = 0 then s1.recallNone n htag line t (v.mask >>> 64 <<< 64)
      else s1.recallLock n h line (.recallFor htag) (v.mask >>> 64 <<< 64) (v.owner.filter (64 ≤ ·)) v.kind
    | none => wait s

/-- Finish a coherent fill: the reply, or first an eviction. -/
def State.fillFinish (s : State) (n htag : Nat) (t : HTxn) : State :=
  if s.needsDir n t || s.needsRpt n t then s.evictFor n htag t else s.fillReply n htag t

/-! ## The other replies (R103) -/

/-- The data an NC write, merge or atomic leaves in the line: `none` is the marker (R103, R118). -/
def HTxn.ncResult (t : HTxn) : Option Line :=
  if t.req.opc = opWR_FULL then msgLine t.req
  else
    match t.goodData with
    | none => none
    | some l =>
      if t.req.opc = opWR_PART then (if t.req.poison then none else some (lineMerge l t.req.data t.req.byteMask))
      else some (atomicLine l t.req.aop t.req.asize t.req.aoff t.req.data).1

/-- Perform a non-cacheable write within its lock and free the entry. It takes tokens of its RCID (spec/09 R220). -/
def State.ncWrite (s : State) (n : Nat) (t : HTxn) : State :=
  let d := s.dOfLine t.line
  (s.homeWrite n d t.req.mcid t.ncResult t.req.rcid (some t.req.rcid)).freeDir n d

/-- Reply to everything but a coherent fill (R103, R107). -/
def State.ncFinish (s : State) (n htag : Nat) (t : HTxn) : State :=
  let d := s.dOfLine t.line
  let close (s : State) : State :=
    (s.setLock n htag (some { t with phase := .close, done := true })).tryClose n htag
  let ready (s : State) : State :=
    if t.req.ord = 1 then (s.sendComp n htag t.req stREADY).setLock n htag (some { t with phase := .ready })
    else close ((s.ncWrite n t).sendComp n htag t.req stDONE)
  if t.req.opc = opRD_CUR then
    if t.req.cmo = 0 then
      if t.memOk then
        match t.goodData with
        | some l => close (s.sendData n htag t.req opDATA_S t.dsrc (some l))
        | none => s.failTxn n htag t 1
      else close s
    else if t.req.cmo = 1 then
      let s := match t.got with
        | some (l, p) => s.homeWrite n d t.req.mcid (if p then none else some l) t.req.rcid
        | none => s
      close (s.sendComp n htag t.req stDONE)
    else if t.req.cmo = 2 then
      let s := match t.got with
        | some (l, p) =>
          if t.dirty || p then s.homeWrite n d t.req.mcid (if p then none else some l) t.req.rcid else s
        | none => s
      close ((s.freeDir n d).sendComp n htag t.req stDONE)
    else close ((s.freeDir n d).sendComp n htag t.req stDONE)
  else if t.req.opc = opATOMIC then
    match t.goodData with
    | none => (if t.memOk then s else s.freeDir n d).failTxn n htag t 1
    | some l =>
      let old := (atomicLine l t.req.aop t.req.asize t.req.aoff t.req.data).2
      close ((s.ncWrite n t).sendData n htag t.req opDATA_S 3 (some (BitVec.ofNat 512 old)))
  else ready s

/-- A recall ends (R110 item 3, R120): dirty data is written and the entry freed; an RPT recall frees the directory
entry only where no die remains listed. -/
def State.recallFinish (s : State) (n htag : Nat) (t : HTxn) : State :=
  let d := s.dOfLine t.line
  let s := match t.got with
    | some (l, p) => if t.dirty || p then s.homeWrite n d 0 (if p then none else some l) else s
    | none => s
  let v := s.homeView n d
  let s := s.writeView n d { v with mask := v.mask % 2 ^ 12, kind := if v.mask % 2 ^ 12 = 0 then 0 else v.kind }
  (s.setLock n htag (some { t with phase := .close, done := true })).tryClose n htag

/-- The sanitise engine's overwrite of a line (spec/07 R188 step 2): the copies are gone, zeros are written through, and
the lock is released. -/
def State.sanFinish (s : State) (n htag : Nat) (t : HTxn) : State :=
  let d := s.dOfLine t.line
  let s := ((s.homeWrite n d s.chan.san.mcid (some 0)).sanCount d).freeDir n d
  let s := s.put (R.MC_SAN_PROGRESS_LINES_DONE n) (s.get (R.MC_SAN_PROGRESS_LINES_DONE n) + 1)
  (s.setLock n htag (some { t with phase := .close, done := true })).tryClose n htag

/-! ## A lost owner (R435) -/

/-- The answers of R435 item 4, once every remaining copy is gone: the line is marked, the entry freed and an urgent
record names the owner. -/
def State.lostFinish (s : State) (n htag : Nat) (t : HTxn) : State :=
  let d := s.dOfLine t.line
  let whole : Bool := match t.work with
    | .sanitise => true
    | .request => t.req.opc == opWR_FULL || (t.req.opc == opRD_CUR && t.req.cmo == 3)
    | _ => false
  let s := if whole then s else s.homeWrite n d t.req.mcid none t.req.rcid
  let s := s.freeDir n d
  let s := s.errRecord (bankHome n) errUEC (t.line * 64)
    (recInfo t.req.mcid t.req.rcid (t.lostOwner % 64) (if t.lostOwner < 64 then s.pkgId else s.get (R.ROUTE_MEMBER_PACKAGE_ID (t.lostOwner - 64)))) 0
  match t.work with
  | .request =>
    let op := t.req.opc
    if op = opRD_SHARED ∨ op = opRD_OWN ∨ op = opUPGRADE ∨ op = opATOMIC ∨ (op = opRD_CUR ∧ t.req.cmo = 0) then
      s.failTxn n htag t 1
    else if op = opRD_CUR then
      ((s.sendComp n htag t.req stDONE).setLock n htag (some { t with phase := .close, done := true })).tryClose n htag
    else if t.req.ord = 1 then (s.sendComp n htag t.req stREADY).setLock n htag (some { t with phase := .ready, got := none })
    else if whole then
      (((s.ncWrite n t).sendComp n htag t.req stDONE).setLock n htag (some { t with phase := .close, done := true })).tryClose n htag
    else ((s.sendComp n htag t.req stDONE).setLock n htag (some { t with phase := .close, done := true })).tryClose n htag
  | .sanitise => s.sanFinish n htag t
  | _ => (s.setLock n htag (some { t with phase := .close, done := true })).tryClose n htag

/-! ## Memory (R95) -/

/-- Does the request allocate in the Mesa cache when memory serves it (spec/08 R198)? -/
def HTxn.allocates (t : HTxn) : Bool :=
  t.req.opc == opRD_SHARED || t.req.opc == opRD_OWN || t.req.opc == opUPGRADE ||
  (t.req.opc == opRD_CUR && t.req.cmo == 0)

/-- Read memory for a transaction: the Mesa cache answers at once; a miss waits for the channel (MEMORY_READ_DATA),
behind a pending extra read of the line where there is one (spec/08 R214). -/
def State.txnMemory (s : State) (n htag : Nat) (t : HTxn) (finish : State → HTxn → State) : State :=
  let d := s.dOfLine t.line
  let r := s.mesaRead n d t.req.rcid t.req.mcid
  match r.1 with
  | some l => finish r.2 { t with got := some (l, false), dsrc := 1, memOk := true }
  | none =>
    let s := r.2
    let alloc : Bool := t.allocates && s.mesaServes n
    let t := { t with phase := .memory, alloc := alloc, way := if alloc then s.mesaPlan n d t.req.rcid else none, dsrc := 2, memOk := true }
    let s := s.setLock n htag (some t)
    if (s.extra n).any (fun e => e.line == d / 64) then
      s.setExtra n ((s.extra n).map (fun e => if e.line == d / 64 then { e with wait := e.wait ++ [htag] } else e))
    else s

/-- Finish a transaction that has all it needs. -/
def State.txnFinish (s : State) (n htag : Nat) (t : HTxn) : State :=
  if t.req.opc = opRD_SHARED ∨ t.req.opc = opRD_OWN ∨ t.req.opc = opUPGRADE then
    if t.memOk ∧ t.goodData = none then s.failTxn n htag t 1 else s.fillFinish n htag t
  else if t.req.opc = opWR_PART ∧ t.memOk ∧ t.goodData = none then s.failTxn n htag t 1
  else s.ncFinish n htag t

/-- Does the transaction still need the line from memory? -/
def HTxn.wantsMemory (t : HTxn) : Bool :=
  t.got.isNone &&
  (let op := t.req.opc
   op == opRD_SHARED || op == opRD_OWN || op == opWR_PART || op == opATOMIC || (op == opRD_CUR && t.req.cmo == 0) ||
   (op == opUPGRADE && t.fill))

/-- Go on once the snoops are answered and no owner supplies data. -/
def State.txnAfterSnoops (s : State) (n htag : Nat) (t : HTxn) : State :=
  match t.work with
  | .request =>
    if t.wantsMemory then s.txnMemory n htag t (fun s t => s.txnFinish n htag t) else s.txnFinish n htag t
  | .recallFor _ => s.recallFinish n htag t
  | .walk => s.recallFinish n htag t
  | .sanitise => s.sanFinish n htag t
  | _ => s.setLock n htag (some t)

/-- The owner has forwarded the line to the requester: the records change once the sets have their ways (R110). -/
def State.forwarded (s : State) (n htag : Nat) (t : HTxn) : State :=
  if s.needsRpt n t && t.req.opc != opRD_CUR then s.evictFor n htag t
  else (s.forwardedCore n htag t).tryClose n htag

/-- Go on from the phases of the snoops, where their conditions are met. -/
def State.txnProceed (s : State) (n htag : Nat) : State :=
  match s.lock n htag with
  | none => s
  | some t =>
    let dataIn := t.dataDue = t.dataEarly
    if t.phase = .acks ∧ t.invs = 0 ∧ dataIn then
      if t.lost then s.lostFinish n htag t
      else if t.bcast ∧ ¬ t.sent then
        -- The broadcast recall is done (R119): dirty data is written, and memory serves as for FREE.
        let d := s.dOfLine t.line
        let s := match t.got with
          | some (l, p) =>
            if t.dirty || p then s.homeWrite n d t.req.mcid (if p then none else some l) t.req.rcid else s
          | none => s
        let t := { t with got := none, sent := true, dirty := false, found := 0, fwd := none }
        s.txnAfterSnoops n htag t
      else
        match t.fwd with
        | some (o, opc) =>
          let t := { t with phase := .owner, sent := true }
          (s.setLock n htag (some t)).snoop n htag t opc o t.toHome
        | none => s.txnAfterSnoops n htag t
    else if t.phase = .owner ∧ dataIn then
      match t.fwd with
      | none => s
      | some (o, _) =>
        match t.answered.find? (fun a => a.1 == o) with
        | none => s
        | some (_, rop) =>
          if rop = opFWD_DONE ∨ rop = opFWD_DONE_WB then
            if t.toHome then
              let s := if t.newSt = 0 then s.writeView n (s.dOfLine t.line) ((s.homeView n (s.dOfLine t.line)).drop o) else s
              s.txnAfterSnoops n htag t
            else s.forwarded n htag t
          else if t.found = 3 ∧ rop = opACK_MISS then
            -- The only current copy is lost (R435).
            let d := s.dOfLine t.line
            let v := (s.homeView n d).drop o
            let s := s.writeView n d v
            let invs := s.reachMask v.mask
            let t := { t with phase := .acks, invs := invs, lost := true, lostOwner := o, answered := [] }
            let s := (s.setLock n htag (some t)).snoopAll n htag t opINV invs false
            if invs = 0 then s.lostFinish n htag t else s
          else
            -- The owner dropped the line clean (R105): memory supplies it.
            let d := s.dOfLine t.line
            let s := s.writeView n d ((s.homeView n d).drop o)
            s.txnAfterSnoops n htag t
    else s

/-! ## Beginning (R102, R103, R119) -/

/-- The snoops a request causes: the mask of holders to invalidate, the owner's snoop and whether the home is its data
target (R102, R103). -/
def snoopPlan (req : Msg) (v : View) (q : Option Nat) : Nat × Option (Nat × Nat) × Bool :=
  let others := match q with | some q => without v.mask q | none => v.mask
  let noOwner := match v.owner with | some o => without v.mask o | none => v.mask
  let own : Nat × Option (Nat × Nat) × Bool :=
    if v.kind = 0 then (0, none, false)
    else if v.kind = 1 then (others, none, false)
    else match v.owner with
      | none => (others, none, false)
      | some o =>
        if v.kind = 2 then (if q = some o then (0, none, false) else (0, some (o, opFWD_OWN), false))
        else (without others o, some (o, opFWD_OWN), false)
  if req.opc = opRD_SHARED then
    match v.owner with
    | some o => if v.kind = 2 ∧ q = some o then (0, none, false) else (0, some (o, opFWD_SHARED), false)
    | none => (0, none, false)
  else if req.opc = opRD_OWN then own
  else if req.opc = opUPGRADE then
    match q with
    | some q => if v.mask.testBit q then (without v.mask q, none, false) else own
    | none => own
  else if req.opc = opRD_CUR then
    if req.cmo = 0 then (0, v.owner.map (fun o => (o, opFWD_CUR)), false)
    else if req.cmo = 1 then (0, v.owner.map (fun o => (o, opFWD_CUR)), true)
    else if req.cmo = 2 then (noOwner, v.owner.map (fun o => (o, opFWD_OWN)), true)
    else (v.mask, none, false)
  else if req.opc = opWR_FULL then (v.mask, none, false)
  else (noOwner, v.owner.map (fun o => (o, opFWD_OWN)), true)

/-- Every holder that a broadcast recall addresses: each online die and each ACTIVE member (R119). -/
def State.everyHolder (s : State) : Nat :=
  let dies := s.get R.PKG_DIES_VALE_ONLINE
  foldN 32 dies (fun i m => if i != s.get R.PKG_NODE_ISLAND_INDEX && s.reachable (64 + i) then m ||| maskOf (64 + i) else m)

/-- A request takes its lock and its directory is read (R94 steps 2 to 4). -/
def State.txnBegin (s : State) (n htag : Nat) (m : Msg) : State :=
  let d := s.dOfLine m.addr
  let s := (s.lostLook n m.addr).dirTouch n d
  let v := s.homeView n d
  let q := s.holderOf m.srcPkg m.srcAgent
  let eg := s.get (R.HOME_DIRCFG_E_GRANT n) = 1
  let t0 : HTxn := { line := m.addr, proxy := false, work := .request, req := m, phase := .acks, mcid := m.mcid,
                     eGrant := eg, since := s.pwr.now }
  if s.isBcast n d then
    let all := s.everyHolder
    let t := { t0 with invs := all, bcast := true, toHome := true, fill := true }
    let s := (s.setLock n htag (some t)).snoopAll n htag t opFWD_OWN all true
    s.txnProceed n htag
  else
    let p := snoopPlan m v q
    let listed := match q with | some q => v.mask.testBit q | none => false
    -- An owner that cannot be reached counts as having answered SNP_ACK_MISS (R117).
    let lostOwner := match p.2.1 with | some (o, _) => !s.reachable o | none => false
    let fwd := if lostOwner then none else p.2.1
    let gone := lostOwner && v.kind == 3
    let s := match p.2.1 with
      | some (o, _) => if lostOwner && !gone then s.writeView n d (v.drop o) else s
      | none => s
    let t := { t0 with invs := s.reachMask (if gone then v.mask else p.1), fwd := fwd, toHome := p.2.2, found := v.kind,
                       fill := m.opc == opUPGRADE && !listed, lost := gone, lostOwner := v.owner.getD 0 }
    let s := (s.setLock n htag (some t)).snoopAll n htag t opINV t.invs false
    s.txnProceed n htag

/-! ## Answers to snoops (R105, R135, R136) -/

/-- A holder's answer to a snoop of slot `htag`. -/
def State.txnAnswer (s : State) (n htag : Nat) (t : HTxn) (h : Nat) (m : Msg) : State :=
  let d := s.dOfLine t.line
  if t.phase = .acks ∧ t.invs.testBit h then
    let fwdDone := m.opc = opFWD_DONE ∨ m.opc = opFWD_DONE_WB
    let v0 := s.homeView n d
    let gone := !t.bcast && v0.kind == 3 && v0.owner == some h && m.opc == opACK_MISS
    let s := s.writeView n d (v0.drop h)
    -- A lost owner: every remaining holder is invalidated (R435).
    let more := if gone then
        (holdersIn (s.reachMask (v0.drop h).mask)).foldl
          (fun k x => if t.invs.testBit x || t.answered.any (fun a => a.1 == x) then k else k ||| maskOf x) 0
      else 0
    let s := s.snoopAll n htag t opINV more false
    let t := { t with lost := t.lost || gone, lostOwner := if gone then h else t.lostOwner, invs := without t.invs h ||| more, answered := t.answered ++ [(h, m.opc)],
                      dataDue := if fwdDone then t.dataDue + 1 else t.dataDue,
                      wbWait := if m.opc = opFWD_DONE_WB then some h else t.wbWait }
    (s.setLock n htag (some t)).txnProceed n htag
  else if t.phase == .owner && t.sent && (match t.fwd with | some (o, _) => o == h | none => false) then
    let fwdDone := m.opc = opFWD_DONE ∨ m.opc = opFWD_DONE_WB
    let t := { t with answered := t.answered ++ [(h, m.opc)], newSt := m.newState,
                      dataDue := if fwdDone ∧ t.toHome then t.dataDue + 1 else t.dataDue,
                      wbWait := if m.opc = opFWD_DONE_WB then some h else t.wbWait }
    (s.setLock n htag (some t)).txnProceed n htag
  else s.protoErr n m 2

/-- Data that a snoop sent to the home (R103). -/
def State.txnData (s : State) (n htag : Nat) (t : HTxn) (m : Msg) : State :=
  if t.toHome then
    let keep := m.opc = opDATA_M ∨ t.got = none
    let t := { t with dataEarly := t.dataEarly + 1,
                      got := if keep then some (m.data, m.poison) else t.got,
                      dirty := t.dirty || m.opc == opDATA_M, memOk := false }
    (s.setLock n htag (some t)).txnProceed n htag
  else s.protoErr n m 2

/-- A WB_DIRTY at its home (R135). -/
def State.homeWb (s : State) (n : Nat) (m : Msg) : State :=
  let hold (s : State) : State := { s with home := { s.home with wbHeld := s.home.wbHeld ++ [(n, m)] } }
  match s.lockOf n m.addr with
  | none => s.wbUnlocked n m
  | some htag =>
    match s.lock n htag, s.holderOf m.srcPkg m.srcAgent with
    | some t, some w =>
      match t.work with
      | .reserved _ => s.wbUnlocked n m
      | _ =>
        let d := s.dOfLine m.addr
        let v := s.homeView n d
        match t.answered.find? (fun a => a.1 == w) with
        | some (_, op) =>
          let close (s : State) : State :=
            match s.lock n htag with
            | some t => (s.setLock n htag (some { t with wbWait := if t.wbWait = some w then none else t.wbWait })).tryClose n htag
            | none => s
          if op = opFWD_DONE_WB then
            let own := t.bcast || (match t.fwd with | some (_, o) => o == opFWD_OWN | none => true)
            if own then close (s.wbAnswer n m true)
            else if t.toHome then close (s.wbAnswer n m false)
            else close ((s.homeWrite n d m.mcid (msgLine m) m.rcid).wbAnswer n m false)
          else if op = opACK_INV then s.wbAnswer n m true
          else hold s
        | none =>
          if t.phase = .acks ∧ t.invs.testBit w then hold s
          else
            match t.fwd with
            | some (o, _) =>
              if o = w then
                if t.sent then hold s
                else if v.owner = some w then
                  -- The snoop has not been sent: the writeback is applied, and memory serves (R135).
                  (s.wbApply n m w).setLock n htag (some { t with fwd := none, found := if v.kind = 2 then 0 else 1 })
                else hold s
              else hold s
            | none => hold s
    | _, _ => s.wbUnlocked n m

/-- Decide again the writebacks of holder `w` to a line that were held for its answer (R135). -/
def State.wbAgain (s : State) (n line w : Nat) : State :=
  let mine := s.home.wbHeld.filter (fun e => e.1 == n && e.2.addr == line && s.holderOf e.2.srcPkg e.2.srcAgent == some w)
  let s := { s with home := { s.home with wbHeld := s.home.wbHeld.filter (fun e => !mine.contains e) } }
  mine.foldl (fun s e => s.homeWb n e.2) s

end Sys2Proof.Machine
end

