-- ==== Sys2Proof/Machine/Proxy.lean ====
section
/-!
DEFINITION. The RLD proxies (spec/04 R101, R111, R115, R116; spec/05 R133, R139): a package as one holder toward a
remote home, and as a home toward its own dies. What the rules leave to the proxy is in notes/assumptions/13.md.
-/

namespace Sys2Proof.Machine

/-- The package state after holder `h` is dropped: exclusive permission outlasts the owner die while sharers remain. -/
def View.dropPx (v : View) (h : Nat) : View :=
  let mask := without v.mask h
  if mask = 0 then {}
  else if v.owner = some h then ⟨if v.kind = 2 then 2 else 1, mask, none⟩
  else { v with mask := mask }

/-- A message to a proxy that matches nothing (R93): recorded in HOME_PROTO_ERR and in the slice's bank. -/
def State.pxProtoErr (s : State) (n : Nat) (m : Msg) (kind : Nat) : State :=
  (s.protoErr n m kind).errRecord (bankHome n) errUED (m.addr * 64) (recInfo m.mcid m.rcid m.srcAgent m.srcPkg) 0

/-- What runs under a number at a proxy ends; what waited for it is taken up again by the caller. -/
def State.pxFree (s : State) (n htag line : Nat) : State := s.slotFreed n htag line

/-! ## Requests to the remote home (R115) -/

/-- The opcode a die's request goes to the remote home with: an UPGRADE of a die that the RLD does not list asks for the
line (R102). -/
def State.pxOpcode (s : State) (n : Nat) (t : HTxn) : Nat :=
  if t.req.opc = opUPGRADE ∧ ¬ (s.proxyView n (t.line * 64)).mask.testBit t.req.srcAgent then opRD_OWN else t.req.opc

/-- The request of slot `htag` as it goes to the remote home. -/
def State.pxRequest (s : State) (n htag : Nat) (t : HTxn) (tokenV : Bool) (token : Nat) : Msg :=
  let ga := t.line * 64
  { t.req with srcPkg := s.pkgId, srcAgent := agHOME + n, dstPkg := ga / 2 ^ 44, dstAgent := agHOME + s.homeSlice ga,
               txn := htag, opc := s.pxOpcode n t, tokenV := tokenV, token := token }

/-- Send the request of a slot to the remote home and wait for its reply. The home of a member that is served no more
is answered for with ERR CAUSE 4 (spec/10 R258). -/
def State.pxSend (s : State) (n htag : Nat) (t : HTxn) : State :=
  if s.pkgServed (t.line * 64 / 2 ^ 44) then
    (s.setLock n htag (some { t with phase := .remote, rst := .sent, since := s.pwr.now })).send
      (s.pxRequest n htag t false 0)
  else (s.sendErr n t.req 4).pxFree n htag t.line

/-! ## Writebacks of the package (R111, R139) -/

/-- Dirty data for a member that is served no more has no home to go to: it is discarded with an error record (spec/10
R258). -/
def State.pxDiscard (s : State) (n line : Nat) (die : Option Msg) : State :=
  let s := match die with | some d => s.wbAnswer n d false | none => s
  s.errRecord (bankHome n) errUED (line * 64) (recInfo 0 0 (agHOME + n) (line * 64 / 2 ^ 44)) 0

/-- The lowest TXN of a proxy's writebacks that none uses: 512 and above, since its requests use their HTAGs. -/
def State.pxWbTxn (s : State) (n : Nat) : Nat :=
  let used := (s.home.pxWb.filter (fun w => w.n == n)).map (·.out.txn)
  (((List.range 3584).map (512 + ·)).find? (fun i => !used.contains i)).getD 4095

/-- Send WB_DIRTY to the remote home: the proxy's writeback buffer holds the line until the answer (R139). -/
def State.pxWbSend (s : State) (n line : Nat) (die : Option Msg) (mcid rcid : Nat) (l : Line) (poison : Bool) : State :=
  let ga := line * 64
  if !s.pkgServed (ga / 2 ^ 44) then s.pxDiscard n line die
  else
  let out : Msg :=
    { vc := vcWB, opc := 0, srcPkg := s.pkgId, srcAgent := agHOME + n, dstPkg := ga / 2 ^ 44,
      dstAgent := agHOME + s.homeSlice ga, txn := s.pxWbTxn n, addr := line, rcid := rcid, mcid := mcid, payload := true,
      poison := poison, data := l }
  let s : State := { s with home := { s.home with pxWb := s.home.pxWb ++ [⟨n, die, out⟩] } }
  s.send out

/-- The package sends WB_DIRTY with POISON = 1 for a remote line that a lost die owned, and drops the die. -/
def State.pxLostCopy (s : State) (n line d : Nat) : State :=
  (s.writeRld n (line * 64) ((s.proxyView n (line * 64)).dropPx d)).pxWbSend n line none 0 0 0 true

/-- As `State.lostLook`, at a proxy. -/
def State.pxLostLook (s : State) (n line : Nat) : State :=
  let v := s.proxyView n (line * 64)
  match v.owner with
  | some o => if o < 12 ∧ v.ownedBy o ∧ (Tbl.get (fun _ => ({} : DieCtl)) s.die.ctl o).lost then s.pxLostCopy n line o else s
  | none => s

/-! ## Replies to the package's dies -/

/-- Does the reply need an RLD way that the set does not have (R111)? -/
def State.needsRld (s : State) (n line : Nat) : Bool :=
  !s.isPxBcast n (line * 64) && (s.rldWay n (line * 64)).isNone && (s.rldFree n (line * 64)).isNone

/-- Deliver the remote home's reply `m` to the die of slot `htag` and record the package's state (R115). -/
def State.pxDeliver (s : State) (n htag : Nat) (t : HTxn) (m : Msg) : State :=
  let ga := t.line * 64
  let q := t.req.srcAgent
  let v := s.proxyView n ga
  let fin (s : State) : State := s.setLock n htag (some { t with phase := .close, done := true, reply := none })
  let data (s : State) (opc : Nat) : State :=
    s.send { m with srcPkg := s.pkgId, srcAgent := agHOME + n, dstPkg := s.pkgId, dstAgent := q, txn := t.req.txn,
                    htag := htag, opc := opc }
  if t.req.opc = opRD_SHARED then
    if m.opc = opDATA_S then
      let v' : View := if v.kind = 0 then ⟨1, maskOf q, none⟩ else { v with mask := v.mask ||| maskOf q }
      fin (data (s.writeRld n ga v') opDATA_S)
    else if without v.mask q = 0 then fin (data (s.writeRld n ga ⟨2, maskOf q, some q⟩) m.opc)
    else fin (data (s.writeRld n ga ⟨2, v.mask ||| maskOf q, none⟩) opDATA_S)
  else fin (data (s.writeRld n ga ⟨2, maskOf q, some q⟩) m.opc)

/-- A proxy transaction that waited for an RLD way goes on, or waits on. -/
def State.pxResume (s : State) (n htag : Nat) : State :=
  match s.lock n htag with
  | some t =>
    match t.reply with
    | some m => if s.needsRld n t.line then s.setLock n htag (some { t with phase := .way }) else s.pxDeliver n htag t m
    | none => s
  | none => s

/-- Recall a line from the package's dies under slot `h`: SNP_INV to the sharers, then SNP_FWD_OWN with data to the
proxy to the owner die (R111). -/
def State.pxRecall (s : State) (n h line : Nat) (work : HWork) (req : Msg) : State :=
  let v := s.proxyView n (line * 64)
  let invs := match v.owner with | some o => without v.mask o | none => v.mask
  let now : Bool := invs == 0 && v.owner.isSome
  let t : HTxn := { line := line, proxy := true, work := work, req := req, phase := if now then .owner else .acks,
                    invs := invs, found := v.kind, fwd := v.owner.map (fun o => (o, opFWD_OWN)), sent := now,
                    toHome := true, since := s.pwr.now }
  let s := (s.setLock n h (some t)).snoopAll n h t opINV invs false
  match v.owner with
  | some o => if now then s.snoop n h t opFWD_OWN o true else s
  | none => s

/-- Close what a proxy has under way, where its conditions are met: its own lock when the die has sent CLOSE (R107), and
anything once the stale WB_DIRTY of a forwarder has come (R136). A victim recall that ends lets its transaction go on. -/
def State.pxTryClose (s : State) (n htag : Nat) : State :=
  match s.lock n htag with
  | some t =>
    if t.phase = .close ∧ t.done ∧ t.wbWait = none ∧ (t.closed ∨ t.work ≠ .request) then
      let s := s.pxFree n htag t.line
      match t.work with
      | .recallFor h => s.pxResume n h
      | _ => s
    else s
  | none => s

/-- What a proxy has under way has done its part: it closes now, or when the stale WB_DIRTY of a forwarder has come. -/
def State.pxEnd (s : State) (n htag : Nat) (t : HTxn) : State :=
  (s.setLock n htag (some { t with phase := .close, done := true, closed := true })).pxTryClose n htag

/-- Evict an RLD entry for a transaction whose reply needs a way (R111). -/
def State.pxEvict (s : State) (n htag : Nat) (t : HTxn) : State :=
  let set := rldSet (t.line * 64)
  let lineOf (w : Nat) : Nat := rldLine n set (s.rldE n set w).tag / 64
  let nru := foldN 16 0 (fun w m => if (s.rldE n set w).nru then m ||| 1 <<< w else m)
  let lk := s.lockedWays n lineOf
  match chooseNru (s.rldEnabled n) lk nru with
  | some (w, clr) =>
    let h := s.vicSlot n htag
    let s1 := if clr then foldN 16 s (fun w s =>
        if (s.rldEnabled n).testBit w && !lk.testBit w then s.setRldE n set w { s.rldE n set w with nru := false } else s)
      else s
    let line := lineOf w
    let s1 := s1.pxLostLook n line
    let req : Msg := { vc := vcSNP, opc := 0, srcPkg := s.pkgId, srcAgent := agHOME + n, dstPkg := s.pkgId,
                       dstAgent := agHOME + n, txn := htag, addr := line }
    let s1 := s1.setLock n htag (some { t with phase := .evicting })
    -- A lost die was the victim's last holder, and its way is free.
    if (s1.proxyView n (line * 64)).mask = 0 then (s1.writeRld n (line * 64) {}).pxResume n htag
    else s1.pxRecall n h line (.recallFor htag) req
  | none => s.setLock n htag (some { t with phase := .way })

/-- Take the remote home's reply to the dies once the package's other copies are gone. -/
def State.pxReply (s : State) (n htag : Nat) (t : HTxn) (m : Msg) : State :=
  let t := { t with reply := some m }
  if s.needsRld n t.line then s.pxEvict n htag t else s.pxDeliver n htag t m

/-! ## Serving the snoops of a remote home (R116) -/

/-- The response to a remote home for the snoop `m`. -/
def State.pxAnswer (s : State) (n : Nat) (m : Msg) (opc newSt : Nat) : State :=
  s.send { s.rsp n m opc with htag := m.htag, newState := newSt }

/-- Serve a snoop from the proxy's writeback buffer (R134, R139). -/
def State.pxSnoopBuffer (s : State) (n : Nat) (w : PxWb) (m : Msg) : State :=
  if m.opc = opINV then s.pxAnswer n m opACK_INV 0
  else
    let s := s.send { vc := vcDATA, opc := if m.opc = opFWD_OWN then opDATA_M else opDATA_S, srcPkg := s.pkgId,
                      srcAgent := agHOME + n, dstPkg := m.reqPkg, dstAgent := m.reqAgent, txn := m.reqTxn,
                      addr := m.addr, htag := m.htag, payload := true, poison := w.out.poison, data := w.out.data,
                      mcid := m.mcid }
    s.pxAnswer n m opFWD_DONE_WB 0

/-- End the service of a remote home's snoop: with what the owner die forwarded, or with every copy gone. -/
def State.pxSnoopDone (s : State) (n htag : Nat) (t : HTxn) : State :=
  let ga := t.line * 64
  let v := s.proxyView n ga
  let m := t.req
  let fwd : Option (Nat × Nat) := match t.fwd with
    | some (o, _) => (t.answered.find? (fun a => a.1 == o && (a.2 == opFWD_DONE || a.2 == opFWD_DONE_WB)))
    | none => none
  match fwd with
  | some (o, rop) =>
    let own : Bool := m.opc == opFWD_OWN
    -- A die that answered from its writeback buffer leaves the package without the line once its WB_DIRTY goes on.
    let wb : Bool := rop == opFWD_DONE_WB && !own
    let v' : View :=
      if own then {}
      else if rop = opFWD_DONE_WB then v
      else if m.opc = opFWD_SHARED then
        if t.newSt = 2 then ⟨3, v.mask, some o⟩ else if t.newSt = 1 then ⟨1, v.mask, none⟩ else v.dropPx o
      else v
    let ns := if own || wb then 0 else if m.opc = opFWD_SHARED then t.newSt else 2
    let s := (s.writeRld n ga v').pxAnswer n m (if wb then opFWD_DONE_WB else opFWD_DONE) ns
    -- The stale WB_DIRTY of a die that served SNP_FWD_OWN from its buffer is still to come (R136).
    s.pxEnd n htag (if own then t else { t with wbWait := none })
  | none =>
    let s := s.writeRld n ga {}
    let any := t.answered.any (fun a => a.2 != opACK_MISS)
    match s.home.pxWb.find? (fun w => w.n == n && w.out.addr == m.addr) with
    -- The owner die was lost meanwhile, and the proxy's poisoned writeback answers (spec/06 R168).
    | some w => (s.pxSnoopBuffer n w m).pxEnd n htag t
    | none => (s.pxAnswer n m (if any then opACK_INV else opACK_MISS) 0).pxEnd n htag t

/-- A non-cacheable request of a die whose line has left the package's dies (R115): dirty data goes home first, then the
request. DESIGN CHOICE (notes/assumptions/51.md): clean data of an owner, which equals memory, is not sent. -/
def State.pxNcGo (s : State) (n htag : Nat) (t : HTxn) : State :=
  match t.got with
  | some (l, p) =>
    if t.dirty ∨ p ∨ t.found = 3 then
      let s := s.pxWbSend n t.line none t.req.mcid t.req.rcid l p
      if s.pxComing n t.line then s.setLock n htag (some { t with phase := .evicting }) else s.pxSend n htag t
    else s.pxSend n htag t
  | none => s.pxSend n htag t

/-! ## Progress -/

/-- Every die is asked for a line whose holders are not known, with data to the proxy (spec/14 R330). -/
def State.pxAskAll (s : State) (n htag : Nat) (t : HTxn) : State :=
  let all := s.get R.PKG_DIES_VALE_ONLINE
  let t := { t with found := 0, fwd := none, invs := all, bcast := true, toHome := true, phase := .acks }
  (s.setLock n htag (some t)).snoopAll n htag t opFWD_OWN all true

/-- A remote home's snoop once every die has answered it: dirty data goes home, and the writeback answers. -/
def State.pxSnoopAsked (s : State) (n htag : Nat) (t : HTxn) : State :=
  match t.got with
  | some (l, p) =>
    if t.dirty ∨ p then (s.pxWbSend n t.line none 0 0 l p).pxSnoopDone n htag t else s.pxSnoopDone n htag t
  | none => s.pxSnoopDone n htag t

/-- A line recalled from the package's dies is dropped toward its home: dirty data goes there in WB_DIRTY (R111). -/
def State.pxRecalled (s : State) (n htag : Nat) (t : HTxn) : State :=
  let s := s.writeRld n (t.line * 64) {}
  let s := match t.got with
    | some (l, p) => if t.dirty ∨ p ∨ t.found = 3 then s.pxWbSend n t.line none 0 0 l p else s
    | none => s
  s.pxEnd n htag t

/-- A local transaction has its data at the die: it waits for the die's CLOSE. -/
def State.pxLocalDone (s : State) (n htag : Nat) (t : HTxn) (v : View) : State :=
  (s.writeRld n (t.line * 64) v).setLock n htag (some { t with phase := .close, done := true })

/-- Go on from the phases of the snoops, where their conditions are met. -/
def State.pxProceed (s : State) (n htag : Nat) : State :=
  match s.lock n htag with
  | none => s
  | some t =>
    let ga := t.line * 64
    let v := s.proxyView n ga
    let dataIn := t.dataDue = t.dataEarly
    let answer : Option Nat := match t.fwd with
      | some (o, _) => (t.answered.find? (fun a => a.1 == o)).map (·.2)
      | none => none
    let fwdOk := answer = some opFWD_DONE ∨ answer = some opFWD_DONE_WB
    if t.phase = .acks ∧ t.invs = 0 ∧ t.fwd.isSome then
      let o := match t.fwd with | some (o, _) => o | none => 0
      let opc := match t.fwd with | some (_, c) => c | none => 0
      let t := { t with phase := .owner, sent := true }
      (s.setLock n htag (some t)).snoop n htag t opc o t.toHome
    else if ¬ ((t.phase = .acks ∧ t.invs = 0 ∧ (t.bcast = false ∨ dataIn)) ∨ (t.phase = .owner ∧ answer.isSome ∧ dataIn)) then s
    else
      match t.work with
      | .request =>
        match t.reply with
        | some m => s.pxReply n htag t m
        | none =>
          if t.bcast then s.pxNcGo n htag t
          else
          let fill := t.req.opc = opRD_SHARED ∨ t.req.opc = opRD_OWN ∨ t.req.opc = opUPGRADE
          if fill then
            if t.phase = .acks then
              -- UPGRADE of a listed die while the package is exclusive (R115).
              (s.sendData n htag t.req opDATA_M 3 none).pxLocalDone n htag t ⟨2, maskOf t.req.srcAgent, some t.req.srcAgent⟩
            else if fwdOk then
              if t.req.opc = opRD_SHARED then
                let o := match t.fwd with | some (o, _) => o | none => 0
                -- A die that answered from its writeback buffer stays the owner until its WB_DIRTY is taken (R135).
                let v' : View := if t.newSt = 2 ∨ answer = some opFWD_DONE_WB then { v with mask := v.mask ||| maskOf t.req.srcAgent }
                  else if t.newSt = 1 then ⟨if v.kind = 2 then 2 else 1, v.mask ||| maskOf t.req.srcAgent, none⟩
                  else ⟨if v.kind = 2 then 2 else 1, without v.mask o ||| maskOf t.req.srcAgent, none⟩
                s.pxLocalDone n htag t v'
              else s.pxLocalDone n htag t ⟨2, maskOf t.req.srcAgent, some t.req.srcAgent⟩
            else
              let o := match t.fwd with | some (o, _) => o | none => 0
              (s.writeRld n ga (v.dropPx o)).pxSend n htag { t with fwd := none, answered := [] }
          else
            -- The line has left the package's dies: its data goes home first, then the request (R115).
            let s := s.writeRld n ga {}
            s.pxNcGo n htag t
      | .extSnoop _ => if t.bcast then s.pxSnoopAsked n htag t else s.pxSnoopDone n htag t
      | .recallFor _ => s.pxRecalled n htag t
      | .walk => s.pxRecalled n htag t
      | .wbOut =>
        ((s.writeRld n ga {}).setLock n htag none).pxWbSend n t.line (some t.req) t.req.mcid t.req.rcid t.req.data t.req.poison
      | _ => s

/-! ## Beginning -/

/-- A die's request takes its proxy lock (R115). DESIGN CHOICE (notes/assumptions/51.md): an UPGRADE of a listed die while
the package is E or M and another die owns the line, which two rows of R115 fit, gets the grant without payload. It waits
while a snoop or a writeback of the line is under way (R108, R139). -/
def State.pxBegin (s : State) (n htag : Nat) (m : Msg) : State :=
  let ga := m.addr * 64
  let s := (s.pxLostLook n m.addr).rldTouch n ga
  let v := s.proxyView n ga
  let q := m.srcAgent
  let t : HTxn := { line := m.addr, proxy := true, work := .request, req := m, phase := .acks, found := v.kind,
                    mcid := m.mcid, since := s.pwr.now }
  let others := without v.mask q
  let ownerOther : Bool := match v.owner with | some o => o != q | none => false
  let o := v.owner.getD 0
  let go (s : State) (t : HTxn) (invs : Nat) : State :=
    let t := { t with invs := invs }
    ((s.setLock n htag (some t)).snoopAll n htag t opINV invs false).pxProceed n htag
  if s.pxComing n m.addr then s.setLock n htag (some { t with phase := .start })
  else if s.isPxBcast n ga then (s.pxAskAll n htag t).pxProceed n htag
  else if m.opc = opRD_SHARED then
    if (v.kind == 2 || v.kind == 3) && ownerOther then go s { t with fwd := some (o, opFWD_SHARED) } 0
    else s.pxSend n htag t
  else if m.opc = opRD_OWN ∨ m.opc = opUPGRADE then
    if m.opc = opUPGRADE ∧ v.kind = 2 ∧ v.mask.testBit q then go s t others
    else if v.kind == 2 && ownerOther then go s { t with fwd := some (o, opFWD_OWN) } (without others o)
    else s.pxSend n htag t
  else if v.kind = 0 then s.pxSend n htag t
  else
    let invs := match v.owner with | some o => without v.mask o | none => v.mask
    go s { t with fwd := v.owner.map (fun o => (o, opFWD_OWN)), toHome := true } invs

/-- Begin the service of a remote home's snoop (R116). It takes no lock slot. -/
def State.pxSnoopBegin (s : State) (n : Nat) (m : Msg) : State :=
  let v := s.proxyView n (m.addr * 64)
  let htag := extTag m.addr
  let t : HTxn := { line := m.addr, proxy := true, work := .extSnoop m.htag, req := m, mcid := m.mcid,
                    phase := .acks, found := v.kind, since := s.pwr.now }
  let t := if m.opc = opINV then { t with invs := v.mask }
    else match v.owner with
      | some o =>
        { t with fwd := some (o, m.opc), invs := if m.opc = opFWD_OWN then without v.mask o else 0 }
      | none => { t with invs := v.mask }
  if s.isPxBcast n (m.addr * 64) then (s.pxAskAll n htag t).pxProceed n htag
  else
  let s := (s.setLock n htag (some t)).snoopAll n htag t opINV t.invs false
  s.pxProceed n htag

/-- Does a transaction leave the package's dies alone: it has not read its entry, or waits for the remote home (R139)? -/
def HTxn.standsBack (t : HTxn) : Bool :=
  match t.work with
  | .request => t.phase == .start || t.phase == .remote || (t.phase == .evicting && t.reply.isNone)
  | .reserved _ => true
  | _ => false

/-- May a remote home's snoop, or a die's writeback, of a line be served now? Whatever the proxy itself asks of the remote
home, yes; while it snoops the line's dies or a fill is on its way to one, not yet (R133, R139). -/
def State.pxSnoopReady (s : State) (n line : Nat) : Bool :=
  !(s.locksAt n).any (fun e => e.2.line == line && !e.2.standsBack)

/-- A snoop of a remote home reaches the proxy (R116, R139). -/
def State.pxSnoop (s : State) (n : Nat) (m : Msg) : State :=
  let s := s.pxLostLook n m.addr
  match s.home.pxWb.find? (fun w => w.n == n && w.out.addr == m.addr) with
  | some w => s.pxSnoopBuffer n w m
  | none =>
    if s.pxSnoopReady n m.addr then s.pxSnoopBegin n m
    else { s with home := { s.home with pxHeld := s.home.pxHeld ++ [(n, m)] } }

/-- A die's WB_DIRTY that nothing holds back (R139): the package gives the line up. It takes no lock slot. -/
def State.pxWbTake (s : State) (n : Nat) (m : Msg) : State :=
  let v := s.proxyView n (m.addr * 64)
  if v.owner = some m.srcAgent ∧ (v.kind = 2 ∨ v.kind = 3) then
    let h := wbTag m.addr
    let invs := without v.mask m.srcAgent
    let t : HTxn := { line := m.addr, proxy := true, work := .wbOut, req := m, phase := .acks, invs := invs,
                      since := s.pwr.now }
    let s := s.writeRld n (m.addr * 64) (v.dropPx m.srcAgent)
    ((s.setLock n h (some t)).snoopAll n h t opINV invs false).pxProceed n h
  else (s.wbAnswer n m true).protoErr n m 2

/-- A die's WB_DIRTY for a remote line at its proxy (R139): as R135 gives where the snoops of a transaction concern the
writer, held while another transaction is busy with the line's dies, and otherwise taken. -/
def State.pxWbIn (s : State) (n : Nat) (m : Msg) : State :=
  let w := m.srcAgent
  let hold (s : State) : State := { s with home := { s.home with wbHeld := s.home.wbHeld ++ [(n, m)] } }
  match (s.locksAt n).find? (fun e => e.2.line == m.addr && e.2.proxy &&
      (e.2.answered.any (fun a => a.1 == w) || e.2.wbWait == some w)) with
  | none => if s.pxSnoopReady n m.addr then s.pxWbTake n m else hold s
  | some (h, t) =>
    let past (s : State) : State :=
      if t.wbWait = some w then (s.setLock n h (some { t with wbWait := none })).pxTryClose n h else s
    if t.bcast ∧ t.wbWait = some w then past (s.wbAnswer n m true)
    else
      match t.answered.find? (fun a => a.1 == w) with
      | some (_, rop) =>
        let own : Bool := match t.fwd with | some (_, c) => c == opFWD_OWN | none => true
        if rop == opACK_INV || (rop == opFWD_DONE_WB && own) then past (s.wbAnswer n m true)
        else if rop = opFWD_DONE_WB then past (hold s)
        else if t.standsBack then s.pxWbTake n m
        else hold s
      | none => hold s

/-! ## What waits at a proxy goes on -/

/-- The requests that waited for a snoop or a writeback of their line begin. -/
def State.pxStarts (s : State) (n : Nat) : State :=
  (s.locksAt n).foldl (fun s e =>
    if e.2.work = .request ∧ e.2.phase = .start ∧ !s.pxComing n e.2.line then s.pxBegin n e.1 e.2.req else s) s

/-- Snoops, writebacks and requests that waited at slice `n` are taken up again. -/
def State.pxAgain (s : State) (n : Nat) : State :=
  let wbs := s.home.wbHeld.filter (fun e => e.1 == n && !s.lineLocal e.2.addr)
  let snps := s.home.pxHeld.filter (fun e => e.1 == n)
  let s := { s with home := { s.home with
    wbHeld := s.home.wbHeld.filter (fun e => !(e.1 == n && !s.lineLocal e.2.addr)),
    pxHeld := s.home.pxHeld.filter (fun e => e.1 != n) } }
  let s := wbs.foldl (fun s e => s.pxWbIn n e.2) s
  (snps.foldl (fun s e => s.pxSnoop n e.2) s).pxStarts n

/-- A die's answer to a snoop of the proxy's slot `htag`. -/
def State.pxDieAnswer (s : State) (n htag : Nat) (t : HTxn) (h : Nat) (m : Msg) : State :=
  let ga := t.line * 64
  if t.phase = .acks ∧ t.invs.testBit h then
    let s := s.writeRld n ga ((s.proxyView n ga).dropPx h)
    let fwdDone := m.opc = opFWD_DONE ∨ m.opc = opFWD_DONE_WB
    let t := { t with invs := without t.invs h, answered := t.answered ++ [(h, m.opc)],
                      dataDue := if t.bcast ∧ fwdDone then t.dataDue + 1 else t.dataDue,
                      wbWait := if t.bcast ∧ m.opc = opFWD_DONE_WB then some h else t.wbWait }
    (s.setLock n htag (some t)).pxProceed n htag
  else if t.phase == .owner && t.sent && (match t.fwd with | some (o, _) => o == h | none => false) then
    let fwdDone := m.opc = opFWD_DONE ∨ m.opc = opFWD_DONE_WB
    let t := { t with answered := t.answered ++ [(h, m.opc)], newSt := m.newState,
                      dataDue := if fwdDone ∧ t.toHome then t.dataDue + 1 else t.dataDue,
                      wbWait := if m.opc = opFWD_DONE_WB then some h else t.wbWait }
    (s.setLock n htag (some t)).pxProceed n htag
  else s.pxProtoErr n m 2

/-- CLOSE from a proxy to the remote home, under the HTAG of its lock (R107). -/
def State.pxClose (s : State) (n htag : Nat) (t : HTxn) (m : Msg) : State :=
  let ga := t.line * 64
  s.send { vc := vcRSP, opc := opCOMP_ACK, srcPkg := s.pkgId, srcAgent := agHOME + n, dstPkg := ga / 2 ^ 44,
           dstAgent := agHOME + s.homeSlice ga, txn := htag, addr := t.line, htag := m.htag, status := stCLOSE,
           mcid := t.mcid }

/-- A late completion of a proxy request that timed out (spec/10 R260): nothing dirty is lost, and the quarantine ends. -/
def State.pxLate (s : State) (n htag : Nat) (t : HTxn) (m : Msg) : State :=
  let s := (s.bump R.ROUTE_STATS_LATE_CPL 1).logEvent 0x0043 sevINFO noDie n
  let fill := t.req.opc = opRD_SHARED ∨ t.req.opc = opRD_OWN ∨ t.req.opc = opUPGRADE
  if m.vc = vcDATA ∧ fill then
    let s := s.pxClose n htag t m
    (if m.opc = opDATA_M ∧ m.payload then s.pxWbSend n t.line none t.req.mcid t.req.rcid m.data m.poison else s).pxFree
      n htag t.line
  else s.pxFree n htag t.line

/-- The remote home's reply to a request of the package (R115, R139). -/
def State.pxRemoteReply (s : State) (n htag : Nat) (t : HTxn) (m : Msg) : State :=
  let fill := t.req.opc = opRD_SHARED ∨ t.req.opc = opRD_OWN ∨ t.req.opc = opUPGRADE
  let die (m : Msg) : Msg :=
    { m with srcPkg := s.pkgId, srcAgent := agHOME + n, dstPkg := s.pkgId, dstAgent := t.req.srcAgent,
             txn := t.req.txn, htag := htag }
  if t.quar then s.pxLate n htag t m
  else if m.vc = vcRSP ∧ m.opc = opERR then (s.send (die m)).pxEnd n htag t
  else if m.vc = vcDATA then
    if fill then
      let s := s.pxClose n htag t m
      if t.req.opc = opRD_SHARED then s.pxReply n htag t m
      else
        let others := without (s.proxyView n (t.line * 64)).mask t.req.srcAgent
        let t := { t with phase := .acks, invs := others, reply := some m, fwd := none, answered := [] }
        ((s.setLock n htag (some t)).snoopAll n htag t opINV others false).pxProceed n htag
    else (s.send (die m)).pxEnd n htag t
  else if m.status = stREADY then
    (s.send (die m)).setLock n htag (some { t with phase := .ready, reply := some m })
  else (s.send (die m)).pxEnd n htag t

/-- Every RPT entry is freed (spec/10 R257 step 5). -/
def State.rptFreeAll (s : State) : State :=
  let s := foldN 16 s (fun n s => s.home.rpt.foldl (fun s e =>
    if e.1 / 2 ^ 17 = n then
      let d := rptLine n (e.1 / 16 % 8192) e.2.tag
      match s.dirWay n d with
      | some w =>
        let x := s.dirE n (dirSet d) w
        s.setDirE n (dirSet d) w (if x.presence = 0 then {} else { x with remote := false })
      | none => s
    else s) s)
  { s with home := { s.home with rpt := [] } }

/-- This package becomes ALONE (spec/10 R257): its members' entries are FREE again, but for those not yet ACTIVE
(notes/assumptions/30.md). -/
def State.alone (s : State) : State :=
  let s := (s.put R.ROUTE_ISLAND_STATUS_STATE islALONE).put R.PKG_NODE_ISLAND_MEMBER 0
  let s : State := { s with hzn := { s.hzn with joinWait := 0, joinAck := 0, leaveWait := 0, leaveLost := false } }
  foldN 32 s (fun i s =>
    let st := s.get (R.ROUTE_MEMBER_STATE i)
    if st = memACTIVE ∨ st = memLEAVING ∨ st = 5 then s.put (R.ROUTE_MEMBER_STATE i) memFREE else s)

/-- A leave ends once every LEAVE_ACK has arrived and this package's own recall is done (spec/10 R257 step 5). -/
def State.leaveFinish (s : State) : State :=
  let recalled : Bool := s.home.sweeps.any (fun w => match w.u with | .leaveRld _ => w.ix % 64 == 32 | _ => false)
  if s.get R.ROUTE_ISLAND_STATUS_STATE = islLEAVING ∧ s.hzn.leaveWait = 0 ∧ !recalled ∧ s.home.pxWb = [] then
    let r := if s.hzn.leaveLost then 5 else 4
    (s.rptFreeAll.alone).put R.ROUTE_ISLAND_STATUS_LAST_RESULT r
  else s

/-- A WB_ACK or WB_ACK_STALE of the remote home ends a writeback of the package (R139). -/
def State.pxWbDone (s : State) (n : Nat) (m : Msg) : State :=
  match s.home.pxWb.find? (fun w => w.n == n && w.out.txn == m.txn && w.out.addr == m.addr) with
  | none => s.pxProtoErr n m 2
  | some w =>
    let s := { s with home := { s.home with pxWb := s.home.pxWb.erase w } }
    let s := match w.die with | some d => s.wbAnswer n d false | none => s
    -- A request that waited for its line's data to go home is sent now (R108, R115).
    match s.lockOf n m.addr with
    | some h =>
      match s.lock n h with
      | some t => if t.work = .request ∧ t.phase = .evicting ∧ t.reply = none then s.pxSend n h t else s
      | none => s
    | none => s.leaveFinish

/-- Data that a die sends to the proxy for a recall (R111, R115). -/
def State.pxDieData (s : State) (n htag : Nat) (t : HTxn) (m : Msg) : State :=
  let keep := m.opc = opDATA_M ∨ t.got = none
  let t := { t with dataEarly := t.dataEarly + 1, got := if keep then some (m.data, m.poison) else t.got,
                    dirty := t.dirty || m.opc == opDATA_M }
  (s.setLock n htag (some t)).pxProceed n htag

/-- RETRY from the remote home (R129, R139): the proxy keeps its lock. -/
def State.pxRetry (s : State) (n htag : Nat) (t : HTxn) (m : Msg) : State :=
  s.setLock n htag (some { t with rst := if m.tokenV then .tokened else .parked, reply := some m })

/-- CREDIT_GRANT from a remote home (R129): the request goes again with the token. -/
def State.pxGrant (s : State) (n : Nat) (m : Msg) : State :=
  let slots := (Tbl.keysIn s.home.locks (n * 512) ((n + 1) * 512) (fun o =>
    match o with
    | some t => t.proxy && t.work == .request && t.phase == .remote &&
        (t.line * 64 / 2 ^ 44 == m.srcPkg) && agHOME + s.homeSlice (t.line * 64) == m.srcAgent
    | none => false)).map (· - n * 512)
  let st (h : Nat) : Option HTxn := s.lock n h
  let tokOf (h : Nat) : Bool :=
    match st h with
    | some t => t.rst == .tokened && (match t.reply with | some r => r.token == m.token | none => false)
    | none => false
  let older (a b : Nat) : Bool :=
    match st a, st b with
    | some x, some y => decide (x.since ≤ y.since)
    | _, _ => true
  let parked := slots.filter (fun h => match st h with | some t => t.rst == .parked | none => false)
  let hit : Option Nat :=
    if m.addr = noLine then
      match slots.find? tokOf with
      | some h => some h
      | none => parked.find? (fun h => parked.all (fun g => older h g))
    else slots.find? (fun h => h == m.txn && (match st h with | some t => t.line == m.addr | none => false))
  match hit with
  | none => s.pxProtoErr n m 2
  | some h =>
    match s.lock n h with
    | none => s
    | some t =>
      (s.setLock n h (some { t with rst := .sent, reply := none })).send (s.pxRequest n h t true m.token)

/-- COMMIT of a die for an ordered write that the remote home has answered READY: passed on (R114, R115). -/
def State.pxCommit (s : State) (n htag : Nat) (t : HTxn) : State :=
  let ga := t.line * 64
  let s := s.send { vc := vcRSP, opc := opCOMP_ACK, srcPkg := s.pkgId, srcAgent := agHOME + n, dstPkg := ga / 2 ^ 44,
                    dstAgent := agHOME + s.homeSlice ga, txn := htag, addr := t.line,
                    htag := (match t.reply with | some r => r.htag | none => 0), status := stCOMMIT, mcid := t.mcid }
  s.pxEnd n htag t

end Sys2Proof.Machine
end

