-- ==== Sys2Proof/Machine/Die.lean ====
section
/-!
DEFINITION. The caches of a Vale die and its die agent (spec/03_vale_die_cache.md, spec/02_vale_cores.md R42 to R45,
spec/05 R129, R133, R134, R138). A line's L2 copies are S, O or M: the die agent gives an L2 write permission only as M
(notes/assumptions/17.md).
-/

namespace Sys2Proof.Machine

/-! ## The arrays -/

def l2Set (line : Nat) : Nat := line % 2048
def l2Key (h set w : Nat) : Nat := (h * 2048 + set) * 16 + w
def State.l2 (s : State) (h set w : Nat) : L2Way := Tbl.get (fun _ => {}) s.core.l2 (l2Key h set w)
def State.setL2 (s : State) (h set w : Nat) (e : L2Way) : State :=
  { s with core := { s.core with l2 := Tbl.set (fun _ => {}) s.core.l2 (l2Key h set w) e } }
/-- The way of hart `h`'s L2 that holds a line. -/
def State.l2Way (s : State) (h line : Nat) : Option Nat :=
  (List.range 16).find? (fun w => (s.l2 h (l2Set line) w).st != .i && (s.l2 h (l2Set line) w).line == line)

def vcKey (d sl set w : Nat) : Nat := ((d * 16 + sl) * 4096 + set) * 16 + w
def State.vc (s : State) (d sl set w : Nat) : VcWay := Tbl.get (fun _ => {}) s.die.vc (vcKey d sl set w)
def State.setVc (s : State) (d sl set w : Nat) (e : VcWay) : State :=
  { s with die := { s.die with vc := Tbl.set (fun _ => {}) s.die.vc (vcKey d sl set w) e } }
/-- The way of die `d`'s Vale cache that holds a line. -/
def State.vcWay (s : State) (d line : Nat) : Option Nat :=
  let sl := valeSlice (line * 64)
  let set := valeSet (line * 64)
  (List.range 16).find? (fun w => (s.vc d sl set w).valid && (s.vc d sl set w).line == line)
def State.vcLine (s : State) (d line w : Nat) : VcWay := s.vc d (valeSlice (line * 64)) (valeSet (line * 64)) w
def State.setVcLine (s : State) (d line w : Nat) (e : VcWay) : State :=
  s.setVc d (valeSlice (line * 64)) (valeSet (line * 64)) w e

def sfKey (d b set w : Nat) : Nat := ((d * 16 + b) * 4096 + set) * 24 + w
def State.sf (s : State) (d b set w : Nat) : SfWay := Tbl.get (fun _ => {}) s.die.sf (sfKey d b set w)
def State.setSf (s : State) (d b set w : Nat) (e : SfWay) : State :=
  { s with die := { s.die with sf := Tbl.set (fun _ => {}) s.die.sf (sfKey d b set w) e } }
def State.sfWay (s : State) (d line : Nat) : Option Nat :=
  let b := valeSlice (line * 64)
  let set := valeSet (line * 64)
  (List.range 24).find? (fun w => (s.sf d b set w).valid && (s.sf d b set w).line == line)
def State.sfLine (s : State) (d line : Nat) : SfWay :=
  match s.sfWay d line with
  | some w => s.sf d (valeSlice (line * 64)) (valeSet (line * 64)) w
  | none => {}
/-- Write the snoop-filter entry of a line; an entry that lists no L2 is freed (R71). -/
def State.setSfLine (s : State) (d line : Nat) (e : SfWay) : State :=
  match s.sfWay d line with
  | some w => s.setSf d (valeSlice (line * 64)) (valeSet (line * 64)) w (if e.pres = 0 then {} else e)
  | none => s

/-- The die state of a line (R66). -/
def State.dieSt (s : State) (d line : Nat) : Moesi :=
  match s.sfWay d line with
  | some _ => (s.sfLine d line).dst
  | none =>
    match s.vcWay d line with
    | some w => (s.vcLine d line w).dst
    | none => .i

/-- Record the die state of a line the die holds. -/
def State.setDieSt (s : State) (d line : Nat) (st : Moesi) : State :=
  match s.sfWay d line with
  | some _ => s.setSfLine d line { s.sfLine d line with dst := st }
  | none =>
    match s.vcWay d line with
    | some w => s.setVcLine d line w { s.vcLine d line w with dst := st }
    | none => s

def dirtyMoesi (m : Moesi) : Bool := m == .m || m == .o

/-! ## L1 caches (R42 to R44): the L1D holds no data of its own, since it always equals the L2 -/

def l1Set (line : Nat) : Nat := line % 128
def l1Key (h set w : Nat) : Nat := (h * 128 + set) * 8 + w
def State.l1d (s : State) (h set w : Nat) : L1Way := Tbl.get (fun _ => {}) s.core.l1d (l1Key h set w)
def State.l1i (s : State) (h set w : Nat) : L1Way := Tbl.get (fun _ => {}) s.core.l1i (l1Key h set w)
def State.setL1d (s : State) (h set w : Nat) (e : L1Way) : State :=
  { s with core := { s.core with l1d := Tbl.set (fun _ => {}) s.core.l1d (l1Key h set w) e } }
def State.setL1i (s : State) (h set w : Nat) (e : L1Way) : State :=
  { s with core := { s.core with l1i := Tbl.set (fun _ => {}) s.core.l1i (l1Key h set w) e } }
def State.l1dPlru (s : State) (h set : Nat) : Nat := Tbl.get (fun _ => 0) s.core.l1dPlru (h * 128 + set)
def State.l1iPlru (s : State) (h set : Nat) : Nat := Tbl.get (fun _ => 0) s.core.l1iPlru (h * 128 + set)
def State.setL1dPlru (s : State) (h set v : Nat) : State :=
  { s with core := { s.core with l1dPlru := Tbl.set (fun _ => 0) s.core.l1dPlru (h * 128 + set) v } }
def State.setL1iPlru (s : State) (h set v : Nat) : State :=
  { s with core := { s.core with l1iPlru := Tbl.set (fun _ => 0) s.core.l1iPlru (h * 128 + set) v } }
def State.l1dWay (s : State) (h line : Nat) : Option Nat :=
  (List.range 8).find? (fun w => (s.l1d h (l1Set line) w).valid && (s.l1d h (l1Set line) w).line == line)
def State.l1iWay (s : State) (h line : Nat) : Option Nat :=
  (List.range 8).find? (fun w => (s.l1i h (l1Set line) w).valid && (s.l1i h (l1Set line) w).line == line)
/-- Invalidate the L1D copy of a line. -/
def State.l1dDrop (s : State) (h line : Nat) : State :=
  match s.l1dWay h line with
  | some w => s.setL1d h (l1Set line) w {}
  | none => s
/-- Use a line in the L1D: a hit touches it, a miss installs it by tree pseudo-LRU. -/
def State.l1dUse (s : State) (h line : Nat) (p : Priv) : State :=
  let set := l1Set line
  match s.l1dWay h line with
  | some w => s.setL1dPlru h set (plruTouch 8 (s.l1dPlru h set) w)
  | none =>
    let s := s.hpm h p 2
    let w := match (List.range 8).find? (fun w => !(s.l1d h set w).valid) with
      | some w => w
      | none => plruVictim 8 0xFF (s.l1dPlru h set)
    (s.setL1d h set w ⟨true, line, 0⟩).setL1dPlru h set (plruTouch 8 (s.l1dPlru h set) w)
/-- Install a line in the L1I. -/
def State.l1iInstall (s : State) (h line : Nat) (l : Line) : State :=
  let set := l1Set line
  let w := match (List.range 8).find? (fun w => !(s.l1i h set w).valid) with
    | some w => w
    | none => plruVictim 8 0xFF (s.l1iPlru h set)
  (s.setL1i h set w ⟨true, line, l⟩).setL1iPlru h set (plruTouch 8 (s.l1iPlru h set) w)
/-- Empty the L1I of a hart (R43). -/
def State.l1iClear (s : State) (h : Nat) : State :=
  { s with core := { s.core with l1i := s.core.l1i.filter (fun e => e.1 / 1024 != h) } }
def State.l1dClear (s : State) (h : Nat) : State :=
  { s with core := { s.core with l1d := s.core.l1d.filter (fun e => e.1 / 1024 != h) } }

/-- A hart loses its reservation on a line (R41). -/
def State.resvDrop (s : State) (h line : Nat) : State :=
  if (s.hart h).resv = some line then s.setHart h { s.hart h with resv := none } else s

/-- Invalidate a hart's L2 copy of a line, with its L1D copy and its reservation (R44). -/
def State.l2Drop (s : State) (h line : Nat) : State :=
  let s := (s.l1dDrop h line).resvDrop h line
  match s.l2Way h line with
  | some w => s.setL2 h (l2Set line) w {}
  | none => s

/-! ## Messages of the die agent -/

/-- Where a die's requests for a line go: the home slice, or the RLD proxy of this package (R115). -/
def State.homeAgent (s : State) (line : Nat) : Nat :=
  agHOME + (if s.lineLocal line then sliceOf (s.dOfLine line) else proxyOf (line * 64))

/-- A transaction ID that no request and no writeback of a die uses. -/
def State.dieTxn (s : State) (d : Nat) : Nat :=
  let used := (s.die.trk.filter (fun t => t.die == d)).map (·.msg.txn) ++
    (s.die.wb.filter (fun e => e.die == d)).map (·.msg.txn)
  ((List.range 4096).find? (fun i => !used.contains i)).getD 4095

/-- Is a line in a die's writeback buffer? -/
def State.inWb (s : State) (d line : Nat) : Option WbEnt :=
  s.die.wb.find? (fun e => e.die == d && e.msg.addr == line)
def State.wbCount (s : State) (d : Nat) : Nat := (s.die.wb.filter (fun e => e.die == d)).length
def State.trkCount (s : State) (d : Nat) : Nat := (s.die.trk.filter (fun t => t.die == d)).length
/-- The die's outstanding request for a line. -/
def State.trkLine (s : State) (d line : Nat) : Option Trk :=
  s.die.trk.find? (fun t => t.die == d && t.msg.addr == line)
/-- Is an UPGRADE outstanding for a line, so that the die keeps it (R129 item 6)? -/
def State.upgrading (s : State) (d line : Nat) : Bool :=
  s.die.trk.any (fun t => t.die == d && t.msg.addr == line && t.msg.opc == opUPGRADE)

/-- Send WB_DIRTY for a line that leaves the die, and hold it in the writeback buffer (R70). -/
def State.wbSend (s : State) (d line rcid mcid : Nat) (l : Line) (bad : Bool) (unit : Option FlushUnit) : State :=
  let m : Msg :=
    { vc := vcWB, opc := 0, srcPkg := s.pkgId, srcAgent := d, dstPkg := s.pkgId, dstAgent := s.homeAgent line,
      txn := s.dieTxn d, addr := line, rcid := rcid, mcid := mcid, payload := true, poison := bad, data := l }
  let s : State := { s with die := { s.die with wb := s.die.wb ++ [⟨d, m, unit⟩] } }
  (s.send m).count (ctrVc d (valeSlice (line * 64))) 5 none (some (rcid, mcid))

/-! ## The Vale cache (R68 to R70) -/

def State.vcStatus (s : State) (d sl : Nat) : Nat := s.get (R.VALE_VC_STATUS_STATE d sl)
/-- Ways of a slice that a flush-then-disable walks. -/
def State.vcFlushing (s : State) (d sl : Nat) : Nat :=
  s.die.walks.foldl (fun k w =>
    match w.u with
    | .vcWay d' s' w' => if d'.val = d ∧ s'.val = sl then k ||| 1 <<< w'.val else k
    | .vcSlice d' s' => if d'.val = d ∧ s'.val = sl then 0xFFFF else k
    | _ => k) 0
/-- Ways of a slice that take new lines. -/
def State.vcOpen (s : State) (d sl : Nat) : Nat :=
  if s.vcStatus d sl = 0 then
    0xFFFF ^^^ (s.get (R.VALE_VC_STATUS_WAYS_DISABLED d sl) ||| s.vcFlushing d sl)
  else 0

/-- Age the permitted ways until one holds 3, and answer the lowest such way (R69). -/
def State.rripVictim (s : State) (d sl set elig : Nat) : Nat → Nat × State
  | 0 => (((List.range 16).find? (fun w => elig.testBit w)).getD 0, s)
  | k + 1 =>
    match (List.range 16).find? (fun w => elig.testBit w && (s.vc d sl set w).rrip == 3) with
    | some w => (w, s)
    | none =>
      State.rripVictim (foldN 16 s (fun w s =>
        if elig.testBit w then s.setVc d sl set w { s.vc d sl set w with rrip := min 3 ((s.vc d sl set w).rrip + 1) }
        else s)) d sl set elig k

/-- A line's Vale cache entry goes. When no L2 holds the line it leaves the die (R70). -/
def State.vcEvict (s : State) (d sl set w : Nat) (unit : Option FlushUnit) : State :=
  let e := s.vc d sl set w
  let s := s.setVc d sl set w {}
  if !e.valid then s
  else if (s.sfWay d e.line).isSome then s
  else if dirtyMoesi e.dst then s.wbSend d e.line e.rcid e.mcid e.data e.bad unit
  else s.count (ctrVc d sl) 6 none (some (e.rcid, e.mcid))

/-- The way a new line takes, where the RCID's mask permits an open one (R68, R69), with the line there evicted. A way
whose line waits for an UPGRADE, or holds line `keep`, which an L2 of the die is about to take, is not chosen.
DESIGN CHOICE (notes/assumptions/48.md): a permitted way that holds no line is taken first, the lowest-numbered one, and a
set whose permitted ways are all so held is treated as one with no permitted way. -/
def State.vcAlloc (s : State) (d line rcid mcid : Nat) (unit : Option FlushUnit) (keep : Option Nat := none) :
    Option Nat × State :=
  let sl := valeSlice (line * 64)
  let set := valeSet (line * 64)
  let elig0 := s.capMask d rcid &&& s.vcOpen d sl
  let elig := foldN 16 elig0 (fun w m =>
    let e := s.vc d sl set w
    if m.testBit w && e.valid && (s.upgrading d e.line || keep == some e.line) then m - 1 <<< w else m)
  if elig = 0 then (none, s)
  else
    let s := s.count (ctrVc d sl) 4 none (some (rcid, mcid))
    match (List.range 16).find? (fun w => elig.testBit w && !(s.vc d sl set w).valid) with
    | some w => (some w, s)
    | none =>
      let r := s.rripVictim d sl set elig 4
      (some r.1, r.2.vcEvict d sl set r.1 unit)

/-- Every L2 copy of a line other than hart `keep`'s is invalidated, its data dropped; the snoop filter follows. -/
def State.invOthers (s : State) (d line : Nat) (keep : Option Nat) : State :=
  let e := s.sfLine d line
  let s := foldN 32 s (fun c s =>
    if e.pres.testBit c && keep != some (d * 32 + c) then s.l2Drop (d * 32 + c) line else s)
  let pres := match keep with | some h => if e.pres.testBit (h % 32) then 1 <<< (h % 32) else 0 | none => 0
  let ov := e.ownerV && (match keep with | some h => e.owner == h % 32 | none => false)
  s.setSfLine d line { e with pres := pres, ownerV := ov }

/-- The Vale cache entry of a line goes with no message. -/
def State.vcDrop (s : State) (d line : Nat) : State :=
  match s.vcWay d line with
  | some w => s.setVcLine d line w {}
  | none => s

/-- The line leaves the die whole: every copy goes; from M or O it is written back. -/
def State.leaveDie (s : State) (d line rcid mcid : Nat) (l : Line) (bad : Bool) (st : Moesi) (unit : Option FlushUnit) :
    State :=
  let s := (s.invOthers d line none).vcDrop d line
  if dirtyMoesi st then s.wbSend d line rcid mcid l bad unit
  else s.count (ctrVc d (valeSlice (line * 64))) 6 none (some (rcid, mcid))

/-- An L2 copy is evicted and reported (R68, R71): dirty, or the last clean copy, it goes to the Vale cache. Line `keep`
is not pushed out for it. -/
def State.l2Evict (s : State) (h set w : Nat) (unit : Option FlushUnit) (keep : Option Nat := none) : State :=
  let d := h / 32
  let c := h % 32
  let e := s.l2 h set w
  if e.st = .i then s
  else
    let line := e.line
    let st := s.dieSt d line
    let dirty := dirtyMoesi e.st
    let s := if dirty then s.hpm h .m 4 else s
    let s := (((s.l1dDrop h line).resvDrop h line)).setL2 h set w {}
    let f := s.sfLine d line
    let pres := without f.pres c
    let s := s.setSfLine d line { f with pres := pres, ownerV := f.ownerV && f.owner != c }
    let ent : VcWay := ⟨true, line, st, if dirty then 1 else 2, e.rcid, e.mcid, e.data, e.bad⟩
    match s.vcWay d line with
    | some v =>
      let old := s.vcLine d line v
      s.setVcLine d line v (if dirty then ent else { old with dst := st })
    | none =>
      if dirty || pres == 0 then
        match s.vcAlloc d line e.rcid e.mcid unit keep with
        | (some v, s) => s.setVcLine d line v ent
        | (none, s) =>
          if dirty || pres == 0 then s.leaveDie d line e.rcid e.mcid e.data e.bad st unit else s
      else s

/-- The ways of a snoop-filter bank that track lines (R81, R82). -/
def State.sfOpen (s : State) (d b : Nat) : Nat := 0xFFFFFF ^^^ s.get (R.VALE_SF_STATUS_WAYS_RETIRED d b)

/-- The way of the snoop filter that can track a line: a free one, else the lowest whose line waits for no UPGRADE
(R71, R72). With none, no L2 of the die may take the line. -/
def State.sfPick (s : State) (d line : Nat) : Option Nat :=
  let b := valeSlice (line * 64)
  let set := valeSet (line * 64)
  let en := s.sfOpen d b
  match s.sfWay d line, (List.range 24).find? (fun w => en.testBit w && !(s.sf d b set w).valid) with
  | some w, _ => some w
  | none, some w => some w
  | none, none => (List.range 24).find? (fun w => en.testBit w && !s.upgrading d (s.sf d b set w).line)

/-- Every L2 copy that an entry lists is invalidated and handed on as a victim would be (R72). DESIGN CHOICE
(notes/assumptions/48.md): so is the last clean copy, of which R72 does not speak. -/
def State.sfBackInv (s : State) (d : Nat) (old : SfWay) (unit : Option FlushUnit) (keep : Option Nat := none) : State :=
  foldN 32 s (fun c s =>
    if old.pres.testBit c then
      match s.l2Way (d * 32 + c) old.line with
      | some v => s.l2Evict (d * 32 + c) (l2Set old.line) v unit keep
      | none => s
    else s)

/-- The snoop-filter entry of a line (R71), in way `w`, evicting the one there where it is another line's (R72). -/
def State.sfPlace (s : State) (d line w : Nat) (e : SfWay) : State :=
  let b := valeSlice (line * 64)
  let set := valeSet (line * 64)
  let old := s.sf d b set w
  let s := if old.valid && old.line != line then (s.count (ctrDie d) 7).sfBackInv d old none (some line) else s
  s.setSf d b set w e

/-! ## Data of a line within the die (R67, R73) -/

/-- The die's current copy: the owner L2's, else the Vale cache's, else any listed L2's. -/
def State.dieData (s : State) (d line : Nat) : Option (Line × Bool) :=
  let f := s.sfLine d line
  let ofL2 (h : Nat) : Option (Line × Bool) :=
    (s.l2Way h line).map (fun w => ((s.l2 h (l2Set line) w).data, (s.l2 h (l2Set line) w).bad))
  match if f.ownerV then ofL2 (d * 32 + f.owner) else none with
  | some x => some x
  | none =>
    match s.vcWay d line with
    | some w => some ((s.vcLine d line w).data, (s.vcLine d line w).bad)
    | none => ((List.range 32).find? (fun c => f.pres.testBit c)).bind (fun c => ofL2 (d * 32 + c))

/-- The MCID recorded with the copy that `dieData` gives (R45). -/
def State.dieMcid (s : State) (d line : Nat) : Nat :=
  let f := s.sfLine d line
  let ofL2 (h : Nat) : Option Nat := (s.l2Way h line).map (fun w => (s.l2 h (l2Set line) w).mcid)
  ((if f.ownerV then ofL2 (d * 32 + f.owner) else none).or
    (((s.vcWay d line).map (fun w => (s.vcLine d line w).mcid)).or
      (((List.range 32).find? (fun c => f.pres.testBit c)).bind (fun c => ofL2 (d * 32 + c))))).getD 0

/-- The ways of a hart's L2 that take new lines: not disabled, not being flushed. A stopping core's L2 takes lines
while its store buffer drains (R55). -/
def State.l2Open (s : State) (h : Nat) : Nat :=
  let dis := s.get (R.VALE_L2_STATUS_WAYS_DISABLED (h / 32) (h % 32))
  let fl := s.die.walks.foldl (fun k w =>
    match w.u with
    | .l2Way h' w' => if h'.val = h then k ||| 1 <<< w'.val else k
    | _ => k) 0
  let st := s.get (R.VALE_L2_STATUS_STATE (h / 32) (h % 32))
  if st = 0 ∨ (st = 1 ∧ (s.hart h).waits ≠ []) then 0xFFFF ^^^ (dis ||| fl) else 0

/-- Age the eligible L2 ways until one holds 3. -/
def State.l2Victim (s : State) (h set elig : Nat) : Nat → Nat × State
  | 0 => (((List.range 16).find? (fun w => elig.testBit w)).getD 0, s)
  | k + 1 =>
    match (List.range 16).find? (fun w => elig.testBit w && (s.l2 h set w).rrip == 3) with
    | some w => (w, s)
    | none =>
      State.l2Victim (foldN 16 s (fun w s =>
        if elig.testBit w then s.setL2 h set w { s.l2 h set w with rrip := min 3 ((s.l2 h set w).rrip + 1) } else s))
        h set elig k

/-- Give hart `h` a copy of a line in L2 state `st`, the die state being `dst`. Where its L2 has no open way the copy
stays only while the access is performed (`l2Settle`); where every way of the set is held by an UPGRADE, or the snoop
filter cannot track the line (R71, R82), the line leaves the die again. -/
def State.l2Install (s : State) (h line : Nat) (st dst : Moesi) (rcid mcid : Nat) (l : Line) (bad : Bool) : State :=
  let d := h / 32
  let c := h % 32
  let set := l2Set line
  match s.l2Way h line with
  | some w =>
    let e := s.l2 h set w
    let s := s.setL2 h set w { e with st := st, rrip := 0, data := l, bad := bad }
    let f := s.sfLine d line
    let own := if dirtyMoesi st then (c, true) else (f.owner, f.ownerV)
    s.setSfLine d line { f with dst := dst, owner := own.1, ownerV := own.2 }
  | none =>
    let opn := s.l2Open h
    let elig := foldN 16 (if opn = 0 then 0xFFFF else opn) (fun w m =>
      let e := s.l2 h set w
      if m.testBit w && e.st != .i && s.upgrading d e.line then m - 1 <<< w else m)
    match s.sfPick d line with
    | none => s.leaveDie d line rcid mcid l bad dst none
    | some v =>
      if elig = 0 then s.leaveDie d line rcid mcid l bad dst none
      else
        let r : Nat × State := match (List.range 16).find? (fun w => elig.testBit w && (s.l2 h set w).st == .i) with
          | some w => (w, s)
          | none => let r := s.l2Victim h set elig 4; (r.1, r.2.l2Evict h set r.1 none (some line))
        let s := r.2.setL2 h set r.1 ⟨st, line, 2, rcid, mcid, l, bad⟩
        let f := s.sfLine d line
        let own := if dirtyMoesi st then (c, true) else (f.owner, f.ownerV)
        s.sfPlace d line v ⟨true, line, dst, f.pres ||| 1 <<< c, own.1, own.2⟩

/-- Has the writeback buffer of a die room for what one fill can push out: a victim of the L2, one of the snoop filter,
and the line itself (R63)? -/
def State.wbRoom (s : State) (d : Nat) : Bool := decide (s.wbCount d + 3 ≤ 256)

/-- A line that an L2 with no open way took for one access goes on at once (R82). -/
def State.l2Settle (s : State) (h line : Nat) : State :=
  if s.l2Open h = 0 then
    match s.l2Way h line with
    | some w => s.l2Evict h (l2Set line) w none
    | none => s
  else s

end Sys2Proof.Machine
end

