-- ==== Sys2Proof/Machine/CoreMem.lean ====
section
/-!
DEFINITION. A hart's accesses to memory (spec/02_vale_cores.md R39 to R52): pieces within lines, what a piece does once
its line is in the L2, the faults of R51, and the requests the die agent makes for the pieces that miss (spec/03 R67).
-/

namespace Sys2Proof.Machine

/-! ## Outcomes -/

def AKind.isPrefetch : AKind → Bool
  | .prefetchI => true
  | .prefetchR => true
  | .prefetchW => true
  | _ => false
/-- Kinds that need write permission (R67). -/
def AKind.needsWrite : AKind → Bool
  | .store => true
  | .amo => true
  | .sc => true
  | .prefetchW => true
  | .cboZero => true
  | _ => false
/-- Cache-block operations that go to the home (R48). -/
def AKind.isCmo : AKind → Bool
  | .cboClean => true
  | .cboFlush => true
  | .cboInvalAsFlush => true
  | .cboInval => true
  | _ => false
/-- The access-fault cause (R51). -/
def AKind.cause : AKind → Nat
  | .load => 5
  | .lr => 5
  | .fetch => 1
  | _ => 7
/-- The address-misaligned cause. -/
def AKind.misaligned : AKind → Nat
  | .load => 4
  | .lr => 4
  | .fetch => 0
  | _ => 6

def State.setOut (s : State) (h : Nat) (o : HartOut) : State := s.setHart h { s.hart h with out := o }

/-- The pieces of access `id` that still wait. -/
def State.pieces (s : State) (h id : Nat) : List Wait := (s.hart h).waits.filter (fun w => w.id == id)

def State.dropAccess (s : State) (h id : Nat) : State :=
  s.setHart h { s.hart h with waits := (s.hart h).waits.filter (fun w => w.id != id) }

def State.dropPiece (s : State) (h : Nat) (w : Wait) : State :=
  s.setHart h { s.hart h with waits := (s.hart h).waits.filter (fun x => !(x.id == w.id && x.line == w.line)) }

/-- Do accesses of a hart wait that may still fault? Prefetches never do (R51). -/
def State.demands (s : State) (h : Nat) : Bool := (s.hart h).waits.any (fun w => !w.kind.isPrefetch)

/-- Causes of exceptions of instruction fetches, whose address is that of the instruction (R51). -/
def fetchCause (c : Nat) : Bool := c == 0 || c == 1 || c == 12 || c == 20

/-- Hart `h` takes a trap on an access (R51): its reservation is lost, vstart names the element of a vector access, and the
registers of the level that takes it are written; a fault-only-first load with a faulting element above 0 shortens vl
instead. The address of the instruction is that of a fetch; of any other access the command does not carry it. -/
def State.trapNow (s : State) (h cause : Nat) (x : Access) (gpa : Nat) : State :=
  let take (s : State) : State :=
    let s := s.setHart h { s.hart h with resv := none, out := .trap cause x.va x.elem }
    let (epc, s) := if fetchCause cause then (BitVec.ofNat 64 x.va, s) else s.freeWord
    s.takeTrap h x.priv cause x.va gpa (epc &&& ~~~(1 : Word))
  match x.elem with
  | some k =>
    if x.fof ∧ 0 < k then (s.setReg (R.rvl h) (BitVec.ofNat 64 k)).setOut h (.shortVl k)
    else take (s.setReg (R.rvstart h) (BitVec.ofNat 64 k))
  | none => take s

/-- A trap of hart `h` on an access. Every trap is precise (R52): it is taken once the hart's older accesses are done, and
not at all where one of them traps. -/
def State.trapHart (s : State) (h cause : Nat) (x : Access) (gpa : Nat := 0) : State :=
  if s.demands h then s.setHart h { s.hart h with held := some (cause, x, gpa) } else s.trapNow h cause x gpa

/-- The trap that waited for a hart's older accesses is taken once they are done. -/
def State.trapDue (s : State) (h : Nat) : State :=
  match (s.hart h).held with
  | some (c, x, g) =>
    if s.demands h then s else (s.setHart h { s.hart h with held := none }).trapNow h c x g
  | none => s

/-- The cause of an access fault: of a page-table read, that of the access it serves (R51). -/
def faultCause (x : Access) (c : Nat) : Nat := if x.walk then x.walkFor else c

/-- The record of an error delivered to a hart (R51, spec/14 R338). -/
def State.hartRecord (s : State) (h addr rcid mcid : Nat) : State :=
  s.errRecord (bankCore h) errUED addr (recInfo mcid rcid (h / 32) s.pkgId) 0

/-- An access of a hart and every younger one that waits end; prefetches stay (R52). -/
def State.dropFrom (s : State) (h id : Nat) : State :=
  s.setHart h { s.hart h with held := none, waits := (s.hart h).waits.filter (fun w => w.kind.isPrefetch || decide (w.id < id)) }

/-- A piece meets uncorrectable data or an ERR (R51): a prefetch drops the line; a cache-block operation goes on (R50);
anything else is a precise fault, which ends the whole access and every younger one. -/
def State.busError (s : State) (h : Nat) (w : Wait) : State :=
  let s := s.hartRecord h (w.line * 64) w.rcid w.mcid
  if w.kind.isPrefetch then s.dropPiece h w
  else if w.kind.isCmo then ((s.dropPiece h w).setOut h .done).trapDue h
  else (s.dropFrom h w.id).trapHart h (faultCause w.acc w.kind.cause) w.acc

/-- Counts when an access retires (spec/18 R404). -/
def State.retire (s : State) (h : Nat) (k : AKind) (x : Access) : State :=
  let s := s.setHart h { s.hart h with mode := x.priv }
  if k.isPrefetch ∨ x.walk ∨ k = .fetch then s
  else
    let s := s.retired h
    let s := if x.elem.isSome then s.hpm h x.priv 9 else s
    if k = .load ∨ k = .lr then s.hpm h x.priv 7
    else if k.isCmo then s
    else s.hpm h x.priv 8

/-- A piece ends with the bytes it read; the last piece of an access ends the access. -/
def State.pieceDone (s : State) (h : Nat) (w : Wait) (v : Nat) : State :=
  let s := s.dropPiece h w
  let got := w.val + v <<< (8 * w.shift)
  match s.pieces h w.id with
  | [] =>
    if w.kind.isPrefetch then s
    else
      let s := s.retire h w.kind w.acc
      let x := s.hart h
      (match w.kind with
      | .load => s.setOut h (.value got)
      | .fetch => s.setOut h (.value got)
      | .lr => s.setHart h { x with resv := some w.line, out := .value v }
      | .amo => s.setOut h (.value v)
      | .sc => s.setHart h { x with resv := none, out := .value v, scFails := if v = 0 then 0 else x.scFails + 1 }
      | _ => s.setOut h .done).trapDue h
  | n :: _ =>
    if w.kind = .load ∨ w.kind = .fetch then
      s.setHart h { s.hart h with waits := (s.hart h).waits.map (fun x =>
        if x.id == n.id && x.line == n.line then { x with val := got } else x) }
    else s

/-! ## Pieces whose line the L2 holds -/

/-- Perform a piece on the L2 way that holds its line. -/
def State.perform (s : State) (h : Nat) (w : Wait) (way : Nat) : State :=
  let set := l2Set w.line
  let e := s.l2 h set way
  let hit (s : State) (e : L2Way) : State := s.setL2 h set way { e with rrip := 0 }
  let write (s : State) (l : Line) : State :=
    s.setL2 h set way { e with rrip := 0, st := .m, data := l, bad := false }
  if e.bad ∧ w.kind ≠ .cboZero ∧ ¬ w.kind.isPrefetch then s.busError h w
  else
    match w.kind with
    | .load => ((hit s e).l1dUse h w.line w.acc.priv).pieceDone h w (lineField e.data w.off w.len)
    | .lr => ((hit s e).l1dUse h w.line w.acc.priv).pieceDone h w (lineField e.data w.off w.len)
    | .fetch => (((hit s e).hpm h w.acc.priv 1).l1iInstall h w.line e.data).pieceDone h w (lineField e.data w.off w.len)
    | .prefetchI => ((hit s e).l1iInstall h w.line e.data).pieceDone h w 0
    | .store => (write s (lineSet e.data w.off w.len w.val)).pieceDone h w 0
    | .sc =>
      if (s.hart h).resv = some w.line then (write s (lineSet e.data w.off w.len w.val)).pieceDone h w 0
      else (hit s e).pieceDone h w 1
    | .amo =>
      let old := lineField e.data w.off w.len
      (write s (lineSet e.data w.off w.len (atomicNew w.op (8 * w.len) old w.val w.cmp))).pieceDone h { w with val := 0 } old
    | .cboZero => (write s 0).pieceDone h w 0
    | _ => (hit s e).pieceDone h w 0

/-- Does the L2 hold the line of a piece as the piece needs it? -/
def State.holds (s : State) (h : Nat) (w : Wait) : Bool :=
  match s.l2Way h w.line with
  | some way => if w.kind.needsWrite then (s.l2 h (l2Set w.line) way).st == .m else true
  | none => false

/-- The pieces of a hart that wait and are older than a piece, its own access's among them. -/
def State.older (s : State) (h : Nat) (w : Wait) : List Wait :=
  (s.hart h).waits.takeWhile (fun x => !(x.id == w.id && x.line == w.line))

/-- An older piece of the hart waits for the same line, or an older cache-block operation on it is under way (R50). -/
def State.behind (s : State) (h : Nat) (w : Wait) : Bool := (s.older h w).any (fun x => x.line == w.line)

/-- Does an older access of the hart wait that may still fault? What a piece writes or a cache-block operation does waits
for it, so that a trap is precise (R52). -/
def State.blocked (s : State) (h : Nat) (w : Wait) : Bool := (s.older h w).any (fun x => x.id != w.id && !x.kind.isPrefetch)

/-- Accesses that change what others see: they wait for the hart's older accesses. -/
def AKind.effects (k : AKind) : Bool := k.isCmo || (k.needsWrite && !k.isPrefetch)

/-- Perform a piece at once where its line is held and nothing older waits for it. A store that crosses lines commits
only when every line it writes is held (R52). -/
def State.tryPiece (s : State) (h : Nat) (w : Wait) : State :=
  if w.acc.pbmt ≠ .pma ∨ w.kind.isCmo ∨ w.asked ∨ s.behind h w ∨ (w.kind.effects ∧ s.blocked h w) then s
  else if w.kind = .store then
    let ps := s.pieces h w.id
    if ps.all (fun p => s.holds h p && !s.behind h p) then
      -- A marked line among them faults the whole store.
      match ps.find? (fun p => match s.l2Way h p.line with
          | some way => (s.l2 h (l2Set p.line) way).bad
          | none => false) with
      | some p => s.busError h p
      | none => ps.foldl (fun s p => match s.l2Way h p.line with
          | some way => s.perform h p way
          | none => s) s
    else s
  else
    -- A fetch that hits the L1I is served there, whatever has been written since (R43).
    match (if w.kind = .fetch ∨ w.kind = .prefetchI then s.l1iWay h w.line else none), s.l2Way h w.line with
    | some v, _ =>
      let e := s.l1i h (l1Set w.line) v
      (s.setL1iPlru h (l1Set w.line) (plruTouch 8 (s.l1iPlru h (l1Set w.line)) v)).pieceDone h w (lineField e.data w.off w.len)
    | none, some way => if s.holds h w then s.perform h w way else s
    | none, none => s

/-- Try every piece that waits, oldest first. -/
def State.tryHart (s : State) (h : Nat) : State :=
  (s.hart h).waits.foldl (fun s w =>
    match (s.hart h).waits.find? (fun x => x.id == w.id && x.line == w.line) with
    | some x => s.tryPiece h x
    | none => s) s

/-- The pieces of an access of `size` bytes at `ga`, one per line (R40). -/
def splitAccess (ga size : Nat) : List (Nat × Nat × Nat × Nat) :=
  (List.range ((ga % 64 + size + 63) / 64)).map (fun i =>
    let start := if i = 0 then ga else (ga / 64 + i) * 64
    let stop := min (ga + size) ((ga / 64 + i + 1) * 64)
    (start / 64, start % 64, stop - start, start - ga))

/-- The bytes of an access in its first page, and in its second where it is translated on its own (R40). -/
def pageOne (x : Access) : Nat := match x.page2 with | some _ => min x.size (4096 - x.va % 4096) | none => x.size

/-- The pieces of an access, each with the page type of its page. -/
def accPieces (x : Access) : List (Nat × Nat × Nat × Nat × Pbmt) :=
  let n := pageOne x
  (splitAccess x.ga n).map (fun p => (p.1, p.2.1, p.2.2.1, p.2.2.2, x.pbmt)) ++
  (match x.page2 with
   | some g => (splitAccess g.ga (x.size - n)).map (fun p => (p.1, p.2.1, p.2.2.1, p.2.2.2 + n, g.pbmt))
   | none => [])

/-- Hart `h` begins an access to memory: each piece waits, and those the L2 can serve are served. -/
def State.memBegin (s : State) (h : Nat) (k : AKind) (x : Access) (op v cmp : Nat) : State :=
  let id := (s.hart h).nextId
  let q := s.reg (R.rsrmcfg h)
  let rcid := q.toNat % 1024
  let mcid := bits q.toNat 16 10
  let whole := k.isCmo || k == .cboZero || k.isPrefetch
  let parts := if whole then [(x.ga / 64, 0, 64, 0, x.pbmt)] else accPieces x
  let ws : List Wait := parts.map (fun p =>
    { id := id, kind := k, acc := { x with pbmt := p.2.2.2.2 }, line := p.1, off := p.2.1, len := p.2.2.1,
      shift := p.2.2.2.1, op := op,
      val := if k = .load ∨ k = .fetch ∨ k = .lr then 0 else v / 2 ^ (8 * p.2.2.2.1) % 2 ^ (8 * p.2.2.1),
      cmp := cmp, rcid := rcid, mcid := mcid, asked := false })
  (s.setHart h { s.hart h with waits := (s.hart h).waits ++ ws, nextId := id + 1 }).tryHart h

/-! ## The die agent's requests (R67, spec/05 R129, R133) -/

/-- Mark a piece as asked for. -/
def State.markAsked (s : State) (h : Nat) (w : Wait) (b : Bool) : State :=
  s.setHart h { s.hart h with waits := (s.hart h).waits.map (fun x =>
    if x.id == w.id && x.line == w.line then { x with asked := b } else x) }

/-- Send a request of hart `h` for a piece. -/
def State.dieSend (s : State) (h : Nat) (w : Wait) (opc cmo : Nat) (m0 : Msg) : State :=
  let d := h / 32
  let m : Msg :=
    { m0 with vc := vcREQ, opc := opc, srcPkg := s.pkgId, srcAgent := d, dstPkg := s.pkgId, dstAgent := s.homeAgent w.line,
              txn := s.dieTxn d, addr := w.line, rcid := w.rcid, mcid := w.mcid, cmo := cmo }
  let s : State := { s with die := { s.die with trk := s.die.trk ++ [⟨d, h, .sent, m⟩] } }
  ((s.send m).markAsked h w true).count (ctrDie d) 1 (some opc) (some (w.rcid, w.mcid))

def blankMsg : Msg := { vc := 0, opc := 0, srcPkg := 0, srcAgent := 0, dstPkg := 0, dstAgent := 0, txn := 0, addr := 0 }

/-- Has a hart failed 15 SCs in a row and does it hold a reservation on a line? Its die then holds other agents' and its
other harts' accesses to the line until the SC or the end of the 512 cycles, so that the next attempt succeeds (R41;
notes/assumptions/49.md). -/
def State.guards (s : State) (h line : Nat) : Bool := decide (15 ≤ (s.hart h).scFails) && (s.hart h).resv == some line
def State.guarded (s : State) (d line : Nat) (but : Option Nat) : Bool :=
  (List.range 32).any (fun c => but != some (d * 32 + c) && s.guards (d * 32 + c) line)

/-- A non-cacheable piece that waits for older ones: what it changes waits for every older access (R52), and an access of
page type IO for an older one to the same target (R39). -/
def State.ncWaits (s : State) (h : Nat) (w : Wait) : Bool :=
  (w.kind.effects && (w.kind.isCmo || w.acc.pbmt != .pma) && s.blocked h w) ||
  (w.acc.pbmt == .io && (s.older h w).any (fun x => x.acc.pbmt == .io && s.homeAgent x.line == s.homeAgent w.line))

/-- Can a piece be put to the die agent: not asked, nothing older before it that it follows, its line not in the writeback
buffer and with no request of the die outstanding, and room in the tracker and the writeback buffer (R63, R108, R129)? -/
def State.askable (s : State) (h : Nat) (w : Wait) : Bool :=
  let d := h / 32
  !w.asked && !s.behind h w && !s.ncWaits h w && s.wbRoom d && !s.guarded d w.line (some h) && (s.inWb d w.line).isNone && (s.trkLine d w.line).isNone &&
  decide (s.trkCount d < 1024) && decide ((s.die.trk.filter (fun t => t.hart == h)).length < 64)

/-- The die agent takes a piece that the L2 cannot serve (R67). -/
def State.dieServe (s : State) (h : Nat) (w : Wait) : State :=
  let d := h / 32
  let sl := valeSlice (w.line * 64)
  if w.kind.isCmo then
    let cmo := if w.kind = .cboClean then 1 else if w.kind = .cboInval then 3 else 2
    s.dieSend h w opRD_CUR cmo blankMsg
  else if w.acc.pbmt ≠ .pma then
    -- A non-cacheable access goes through unchanged (R39, R67).
    match w.kind with
    | .store =>
      if w.len = 64 then s.dieSend h w opWR_FULL 0 { blankMsg with payload := true, data := BitVec.ofNat 512 w.val }
      else s.dieSend h w opWR_PART 0
        { blankMsg with payload := true, byteMask := (2 ^ w.len - 1) <<< w.off, data := lineSet 0 w.off w.len w.val }
    | .cboZero => s.dieSend h w opWR_FULL 0 { blankMsg with payload := true }
    | .amo =>
      let p : Line := if w.op = 9 then lineSet (lineSet 0 0 w.len w.cmp) w.len w.len w.val else lineSet 0 0 w.len w.val
      s.dieSend h w opATOMIC 0
        { blankMsg with payload := true, aop := w.op, asize := if w.len = 16 then 2 else if w.len = 8 then 1 else 0,
                        aoff := w.off, data := p }
    | _ => s.dieSend h w opRD_CUR 0 blankMsg
  else
    let st := s.dieSt d w.line
    let s := s.hpm h w.acc.priv 3
    let s := s.count (ctrVc d sl) 1 none (some (w.rcid, w.mcid))
    let hitVc := (s.vcWay d w.line).isSome
    let s := s.count (ctrVc d sl) (if hitVc then 2 else 3) none (some (w.rcid, w.mcid))
    if ¬ w.kind.needsWrite then
      if st = .i then s.dieSend h w opRD_SHARED 0 blankMsg
      else
        match s.dieData d w.line with
        | none => s
        | some (l, bad) =>
          -- A forwarding L2 in M becomes O.
          let f := s.sfLine d w.line
          let s := if f.ownerV then
              let o := d * 32 + f.owner
              match s.l2Way o w.line with
              | some v =>
                let e := s.l2 o (l2Set w.line) v
                if e.st = .m then (s.setL2 o (l2Set w.line) v { e with st := .o }).l1dDrop o w.line else s
              | none => s
            else s
          let s := match s.vcWay d w.line with
            | some v => s.setVcLine d w.line v { s.vcLine d w.line v with rrip := 0 }
            | none => s
          -- Hit in its own L2 under another state: nothing moves.
          ((if (s.l2Way h w.line).isSome then s else s.l2Install h w.line .s st w.rcid w.mcid l bad).tryHart h).l2Settle h w.line
    else if st = .i then s.dieSend h w opRD_OWN 0 blankMsg
    else if st = .m ∨ st = .e then
      match s.dieData d w.line with
      | none => s
      | some (l, bad) =>
        let s := (s.invOthers d w.line (some h)).vcDrop d w.line
        ((s.l2Install h w.line .m .m w.rcid w.mcid l bad).tryHart h).l2Settle h w.line
    else s.dieSend h w opUPGRADE 0 blankMsg

/-! ## Answers at the die (R107, R118, R129, spec/05 R133) -/

/-- A message that matches nothing at a die (R93): discarded, with an urgent record in the die's bank. -/
def State.dieProtoErr (s : State) (d : Nat) (m : Msg) : State :=
  s.errRecord (bankDie d) errUEC (m.addr * 64) (recInfo m.mcid m.rcid m.srcAgent m.srcPkg) 0

/-- The outstanding request a message to die `d` names. -/
def State.trkTxn (s : State) (d txn : Nat) : Option Trk :=
  s.die.trk.find? (fun t => t.die == d && t.msg.txn == txn)

/-- The outstanding request of die `d` that an answer names, by its TXN, its line and the home it went to. -/
def State.trkOf (s : State) (d : Nat) (m : Msg) : Option Trk :=
  (s.trkTxn d m.txn).filter (fun t => t.msg.addr == m.addr && t.msg.dstAgent == m.srcAgent)

def State.dropTrk (s : State) (t : Trk) : State :=
  { s with die := { s.die with trk := s.die.trk.filter (fun x => !(x.die == t.die && x.msg.txn == t.msg.txn)) } }

/-- The piece for which a request is outstanding. -/
def State.askedPiece (s : State) (h line : Nat) : Option Wait :=
  (s.hart h).waits.find? (fun w => w.asked && w.line == line)

/-- COMP_ACK CLOSE from a die, under the HTAG that the data carried. -/
def State.dieClose (s : State) (t : Trk) (htag : Nat) : State :=
  s.send { vc := vcRSP, opc := opCOMP_ACK, srcPkg := s.pkgId, srcAgent := t.die, dstPkg := s.pkgId,
           dstAgent := t.msg.dstAgent, txn := t.msg.txn, addr := t.msg.addr, htag := htag, status := stCLOSE }

/-- The access of a fill is under way for up to 100 ns, in which the die holds snoops for the line (R133,
notes/assumptions/16.md). -/
def State.noteFill (s : State) (d line : Nat) : State :=
  { s with die := { s.die with filled := (d, line, s.pwr.now + 100) :: s.die.filled.filter (fun e => !(e.1 == d && e.2.1 == line)) } }

/-- A coherent fill arrives (R67, R102, R118, R133). -/
def State.dieFill (s : State) (t : Trk) (m : Msg) : State :=
  let d := t.die
  let h := t.hart
  let line := t.msg.addr
  let s := (s.dropTrk t).dieClose t m.htag
  let w := s.askedPiece h line
  let ask (s : State) : State := match w with | some w => s.markAsked h w false | none => s
  if m.poison then
    -- Poisoned data is not installed; exclusive data goes back as the marker (R118).
    let s := if m.opc = opDATA_S then s
      else ((s.invOthers d line none).vcDrop d line).wbSend d line t.msg.rcid t.msg.mcid m.data true none
    match w with
    | some w => (s.markAsked h w false).busError h w
    | none => s
  else
    let own : Bool := t.msg.opc != opRD_SHARED
    let st := s.dieSt d line
    if own then
      let l : Option Line := if m.payload then some m.data else (s.dieData d line).map (·.1)
      match l with
      | none => ask s
      | some l =>
        let s := (s.invOthers d line (some h)).vcDrop d line
        ((((ask (s.l2Install h line .m .m t.msg.rcid t.msg.mcid l false)).noteFill d line)).tryHart h).l2Settle h line
    else
      let dst : Moesi := if m.opc = opDATA_E then .e else if st = .o then .o else .s
      ((((ask (s.l2Install h line .s dst t.msg.rcid t.msg.mcid m.data false)).noteFill d line)).tryHart h).l2Settle h line

/-- Data arrives at a die. -/
def State.dieDataIn (s : State) (d : Nat) (m : Msg) : State :=
  match s.trkTxn d m.txn with
  | none => s.dieProtoErr d m
  | some t =>
    -- DATA_M without payload answers only an UPGRADE (R92).
    if t.msg.addr ≠ m.addr ∨ (!m.payload ∧ t.msg.opc ≠ opUPGRADE) then s.dieProtoErr d m
    else if t.msg.opc = opRD_SHARED ∨ t.msg.opc = opRD_OWN ∨ t.msg.opc = opUPGRADE then s.dieFill t m
    else
      let s := s.dropTrk t
      match s.askedPiece t.hart m.addr with
      | none => s
      | some w =>
        if m.poison then s.busError t.hart w
        else if t.msg.opc = opATOMIC then s.pieceDone t.hart { w with val := 0 } (lineField m.data 0 w.len)
        else (s.pieceDone t.hart w (lineField m.data w.off w.len)).tryHart t.hart

/-- COMP_ACK DONE at a die: a non-cacheable write or a cache-block operation is complete. A die orders no write, so it
awaits no READY, and no coherent fill is answered so (R114). -/
def State.dieComp (s : State) (d : Nat) (m : Msg) : State :=
  match (s.trkOf d m).filter (fun t => m.status == stDONE && t.msg.opc != opRD_SHARED && t.msg.opc != opRD_OWN &&
      t.msg.opc != opUPGRADE) with
  | none => s.dieProtoErr d m
  | some t =>
    let s := s.dropTrk t
    match s.askedPiece t.hart m.addr with
    | none => s
    | some w => (s.pieceDone t.hart w 0).tryHart t.hart

/-- ERR at a die (R51, R118). -/
def State.dieErr (s : State) (d : Nat) (m : Msg) : State :=
  match s.trkOf d m with
  | none => s.dieProtoErr d m
  | some t =>
    let s := s.dropTrk t
    match s.askedPiece t.hart m.addr with
    | none => s
    | some w => (s.markAsked t.hart w false).busError t.hart w

/-- RETRY at a die (R129): with a token it waits for its grant, without one it is parked. -/
def State.dieRetry (s : State) (d : Nat) (m : Msg) : State :=
  match s.trkOf d m with
  | none => s.dieProtoErr d m
  | some t =>
    let st : ReqSt := if m.tokenV then .tokened else .parked
    let s : State := { s with die := { s.die with trk := s.die.trk.map (fun x =>
      if x.die == d && x.msg.txn == m.txn then { x with st := st, msg := { x.msg with token := m.token } } else x) } }
    s.count (ctrDie d) 4 none (some (t.msg.rcid, t.msg.mcid))

/-- Resend a request of a die with a granted token. -/
def State.dieResend (s : State) (t : Trk) (token : Nat) : State :=
  let m : Msg := { t.msg with tokenV := true, token := token }
  let s : State := { s with die := { s.die with trk := s.die.trk.map (fun x =>
    if x.die == t.die && x.msg.txn == t.msg.txn then { x with st := .sent, msg := m } else x) } }
  s.send m

/-- CREDIT_GRANT at a die (R129 items 3 and 4). -/
def State.dieGrant (s : State) (d : Nat) (m : Msg) : State :=
  let s := s.count (ctrDie d) 5
  let hit : Option Trk :=
    if m.addr = noLine then
      let here (t : Trk) : Bool := t.die == d && t.msg.dstAgent == m.srcAgent
      match s.die.trk.find? (fun t => here t && t.st == .tokened && t.msg.token == m.token) with
      | some t => some t
      | none => s.die.trk.find? (fun t => here t && t.st == .parked)
    else s.die.trk.find? (fun t => t.die == d && t.msg.txn == m.txn && t.msg.addr == m.addr)
  match hit with
  | some t => s.dieResend t m.token
  | none => s.dieProtoErr d m

/-- WB_ACK or WB_ACK_STALE at a die: the buffer entry is free (R134). -/
def State.dieWbAck (s : State) (d : Nat) (m : Msg) : State :=
  if s.die.wb.any (fun e => e.die == d && e.msg.txn == m.txn && e.msg.addr == m.addr) then
    { s with die := { s.die with wb := s.die.wb.filter (fun e => !(e.die == d && e.msg.txn == m.txn)) } }
  else s.dieProtoErr d m

/-! ## Snoops at the die (R73, R104, R134, R138) -/

/-- The die's answer to a snoop's sender. -/
def State.snpRsp (s : State) (d : Nat) (m : Msg) (opc newSt : Nat) : State :=
  let s := s.send { vc := vcRSP, opc := opc, srcPkg := s.pkgId, srcAgent := d, dstPkg := m.srcPkg,
                    dstAgent := m.srcAgent, txn := m.txn, addr := m.addr, htag := m.htag, newState := newSt, mcid := m.mcid }
  if opc = opACK_MISS then s.count (ctrDie d) 3 else s

/-- The line, sent to whom the snoop names. -/
def State.snpData (s : State) (d : Nat) (m : Msg) (opc : Nat) (l : Line) (bad : Bool) : State :=
  s.send { vc := vcDATA, opc := opc, srcPkg := s.pkgId, srcAgent := d, dstPkg := m.reqPkg, dstAgent := m.reqAgent,
           txn := m.reqTxn, addr := m.addr, htag := m.htag, payload := true, poison := bad, dsrc := 0, data := l, mcid := m.mcid }

/-- Every copy of a line in a die goes, without a message. -/
def State.dieDrop (s : State) (d line : Nat) : State := (s.invOthers d line none).vcDrop d line

/-- A snoop served from the writeback buffer (R134). -/
def State.snpBuffer (s : State) (d : Nat) (e : WbEnt) (m : Msg) : State :=
  if m.opc = opINV then s.snpRsp d m opACK_INV 0
  else (s.snpData d m (if m.opc = opFWD_OWN then opDATA_M else opDATA_S) e.msg.data e.msg.poison).snpRsp d m
    opFWD_DONE_WB 0

/-- The record, in the die's bank, of an uncorrectable line that leaves with the marker or is dropped (R50, R79). -/
def State.markRecord (s : State) (d line rcid mcid : Nat) : State :=
  s.errRecord (bankDie d) errUED (line * 64) (recInfo mcid rcid d s.pkgId) 0

/-- A snoop served from the die state (R73). -/
def State.snpServe (s : State) (d : Nat) (m : Msg) : State :=
  let line := m.addr
  let st := s.dieSt d line
  let r := (s.dieData d line).getD (0, false)
  -- A line that an unreadable tag may have held is answered as one held with the marker (spec/14 R330).
  let lost := s.die.sweep.contains (d, valeSlice (line * 64), valeSet (line * 64))
  if st = .i ∧ (!lost ∨ m.opc = opINV) then s.snpRsp d m opACK_MISS 0
  else if st = .i then
    (s.snpData d m (if m.opc = opFWD_OWN then opDATA_M else opDATA_S) 0 true).snpRsp d m opFWD_DONE
      (if m.opc = opFWD_OWN then 0 else 2)
  else if m.opc = opINV ∨ (st = .s ∧ m.opc = opFWD_OWN) then (s.dieDrop d line).snpRsp d m opACK_INV 0
  else if st = .s then s.snpRsp d m opACK_MISS 0
  else
  -- Data that carries the marker goes on with it, and the die records it (R50).
  let s := if r.2 then s.markRecord d line m.rcid m.mcid else s
  if m.opc = opFWD_OWN then
    ((s.dieDrop d line).snpData d m (if st = .e then opDATA_E else opDATA_M) r.1 r.2).snpRsp d m opFWD_DONE 0
  else if m.opc = opFWD_SHARED then
    let f := s.sfLine d line
    -- The owner L2 keeps the line readable only; a snoop that removes write permission drops the L1D copy (R44).
    let s := if f.ownerV then
        let o := d * 32 + f.owner
        match s.l2Way o line with
        | some v => (s.setL2 o (l2Set line) v { s.l2 o (l2Set line) v with st := .o }).l1dDrop o line
        | none => s
      else s
    let st' : Moesi := if st = .e then .s else .o
    ((s.setDieSt d line st').snpData d m opDATA_S r.1 r.2).snpRsp d m opFWD_DONE (if st = .e then 1 else 2)
  else (s.snpData d m opDATA_S r.1 r.2).snpRsp d m opFWD_DONE 2

/-- A snoop reaches a die. -/
def State.dieSnoop (s : State) (d : Nat) (m : Msg) : State :=
  let s := s.count (ctrDie d) 2
  let s := s.count (ctrVc d (valeSlice (m.addr * 64))) 7
  match s.inWb d m.addr with
  | some e => s.snpBuffer d e m
  | none =>
    if s.guarded d m.addr none || s.die.filled.any (fun e => e.1 == d && e.2.1 == m.addr && decide (s.pwr.now < e.2.2)) then
      { s with die := { s.die with held := s.die.held ++ [m] } }
    else s.snpServe d m

/-- The access of a fill is performed: the snoops held for the line are answered (R133). -/
def State.holdRelease (s : State) (d line : Nat) : State :=
  let mine := s.die.held.filter (fun m => m.dstAgent == d && m.addr == line)
  let s : State := { s with die := { s.die with
    held := s.die.held.filter (fun m => !(m.dstAgent == d && m.addr == line)),
    filled := s.die.filled.filter (fun e => !(e.1 == d && e.2.1 == line)) } }
  mine.foldl (fun s m =>
    match s.inWb d m.addr with
    | some e => s.snpBuffer d e m
    | none => s.snpServe d m) s

end Sys2Proof.Machine
end

