-- ==== Sys2Proof/Machine/Iommu.lean ====
section
/-!
DEFINITION. Coherent requests of the I/O agents (spec/04 R112, R114) and the IOMMU (spec/13_root_ports.md R322): its
registers, its fault queue and its answer to interrupt writes. What the spec names only by the RISC-V IOMMU specification
is in notes/assumptions/57.md.
-/

namespace Sys2Proof.Machine

/-! ## Coherent requests of I/O agents -/

def State.setReqs (s : State) (r : List IoReq) : State := { s with io := { s.io with reqs := r } }

/-- A transaction ID that no request of the agent uses. -/
def State.ioTxn (s : State) (agent : Nat) : Nat :=
  let used := (s.io.reqs.filter (fun r => r.agent == agent)).map (·.msg.txn)
  ((List.range 4096).find? (fun i => !used.contains i)).getD 4095

/-- The bank of an I/O agent's records. -/
def ioBank (agent : Nat) : Nat := if agent = agXCE then bankXce else bankRoot (agent - agROOT)

/-- Send a coherent request, or hold it behind an earlier one of the agent for its line, a quarantined one too, which may
still be out at the home (R129 item 1). -/
def State.ioSend (s : State) (agent stream : Nat) (why : IoWhy) (m : Msg) : State :=
  let ga := m.addr * 64
  let m : Msg := { m with vc := vcREQ, srcPkg := s.pkgId, srcAgent := agent, dstPkg := ga / 2 ^ 44,
                          dstAgent := agHOME + s.homeSlice ga, txn := s.ioTxn agent }
  let busy := s.io.reqs.any (fun r => r.agent == agent && r.msg.addr == m.addr)
  let r : IoReq := { agent := agent, msg := m, stream := stream, why := why, st := if busy then .held else .sent,
                     since := s.pwr.now }
  let s := s.setReqs (s.io.reqs ++ [r])
  if busy then s else s.send m

/-- The oldest request of an agent held for a line is sent. -/
def State.ioNext (s : State) (agent addr : Nat) : State :=
  match s.io.reqs.find? (fun x => x.agent == agent && x.msg.addr == addr && x.st == .held) with
  | some h =>
    (s.setReqs (s.io.reqs.map (fun x =>
      if x.agent == h.agent && x.msg.txn == h.msg.txn then { x with st := .sent, since := s.pwr.now } else x))).send h.msg
  | none => s

/-- A request leaves the books; the oldest one held for its line is sent. -/
def State.ioDrop (s : State) (r : IoReq) : State :=
  let s := s.setReqs (s.io.reqs.filter (fun x => !(x.agent == r.agent && x.msg.txn == r.msg.txn)))
  s.ioNext r.agent r.msg.addr

/-- The line writes and reads of `len` bytes at `ga`: (line, first byte, length, offset among the bytes). -/
def ioLines (ga len : Nat) : List (Nat × Nat × Nat × Nat) := if len = 0 then [] else splitAccess ga len

/-- Read `len` bytes at `ga` for an agent: an RD_CUR for each line. -/
def State.ioRead (s : State) (agent stream : Nat) (why : Nat → Nat → Nat → IoWhy) (ids : Nat × Nat) (ga len : Nat) : State :=
  (ioLines ga len).foldl (fun s p =>
    s.ioSend agent stream (why p.2.2.2 p.2.1 p.2.2.1)
      { blankMsg with opc := opRD_CUR, addr := p.1, rcid := ids.1, mcid := ids.2 }) s

/-- Write bytes at `ga` for an agent (R112): WR_FULL_NC for a whole line, WR_PART_NC otherwise. -/
def State.ioWrite (s : State) (agent stream : Nat) (why : Nat → Nat → Nat → IoWhy) (ids : Nat × Nat) (ord : Nat)
    (ga len data : Nat) (poison : Bool := false) : State :=
  (ioLines ga len).foldl (fun s p =>
    let v := data / 2 ^ (8 * p.2.2.2) % 2 ^ (8 * p.2.2.1)
    let m : Msg := { blankMsg with addr := p.1, rcid := ids.1, mcid := ids.2, ord := ord, payload := true, poison := poison,
                                   data := BitVec.ofNat 512 (v <<< (8 * p.2.1)) }
    s.ioSend agent stream (why p.2.2.2 p.2.1 p.2.2.1)
      (if p.2.2.1 = 64 then { m with opc := opWR_FULL }
       else { m with opc := opWR_PART, byteMask := (2 ^ p.2.2.1 - 1) <<< p.2.1 })) s

/-! ## The IOMMU (R322) -/

/-- The identifiers of what the IOMMU itself sends (spec/09 R215). -/
def State.iommuIds (s : State) : Nat × Nat := (s.get R.QOS_IOMMU_ID_RCID, s.get R.QOS_IOMMU_ID_MCID)

/-- Its register word at a block offset, and bits of it. -/
def iommuReg (o : Nat) : Nat := 0x2900000 + o
def State.iommuBits (s : State) (o lo w : Nat) : Nat := bits (s.reg (iommuReg o)).toNat lo w
def State.iommuPut (s : State) (o lo w v : Nat) : State :=
  s.setReg (iommuReg o) (BitVec.ofNat 64 (setBits (s.reg (iommuReg o)).toNat lo w v))

/-- The capabilities word: version 1.0, the address modes, flat MSI translation, ATS and 56 address bits that R322 lists, and
nothing that it says is not supported. -/
def iommuCaps : Nat :=
  0x10 + 7 <<< 9 + 7 <<< 17 + 1 <<< 22 + 1 <<< 25 + 56 <<< 32

/-- The fault queue interrupts, by MSI only: pending is set, and the message of its vector is sent. -/
def State.iommuFip (s : State) : State :=
  if s.iommuBits 0x48 33 1 = 0 ∨ s.iommuBits 0x50 33 1 = 1 then s
  else
    let s := s.iommuPut 0x50 33 1 1
    let v := 0x300 + 16 * s.iommuBits 0x2F8 4 4
    if s.iommuBits (v + 8) 32 1 = 1 then s else s.sendMsi (s.iommuBits v 0 56) (s.iommuBits (v + 8) 0 32) 0

/-- The stream of ordered writes of the fault queue at the XCE's coherent DMA agent. -/
def streamIOMMU : Nat := 0x10002

/-- A fault record is made: of a request of `rid`, of transaction type `ttyp`, for address `iova`; the cause code is the
IOMMU specification's, a free value here. It is written to the fault queue where that is on and has room. -/
def State.iommuFault (s : State) (rid ttyp iova : Nat) : State :=
  let s := s.count ctrIommu 4
  if s.iommuBits 0x48 48 1 = 0 ∨ s.iommuBits 0x48 40 2 ≠ 0 then s
  else
    let size := 2 ^ (s.iommuBits 0x28 0 5 + 1)
    let out := (s.io.reqs.filter (fun r => match r.why with | .iommu => true | _ => false)).length
    let slot := (s.iommuBits 0x30 32 32 + out) % size
    if (slot + 1) % size = s.iommuBits 0x30 0 32 then (s.iommuPut 0x48 41 1 1).iommuFip
    else
      let r := s.freeWord
      let ga := s.iommuBits 0x28 10 44 * 4096 + slot * 32
      let v := r.1.toNat % 4096 + ttyp <<< 34 + rid <<< 40 + (iova % 2 ^ 64) <<< 128
      let go (s : State) : State := s.ioWrite agXCE streamIOMMU (fun _ _ _ => .iommu) s.iommuIds 1 ga 32 v
      match r.2.reachDevice ga with
      | .mem _ => go r.2
      | .peer => go r.2
      | .fault c => ((r.2.decodeErr c 2 0 0 ga true).iommuPut 0x48 40 1 1).iommuFip
      | _ => ((r.2.decodeErr 0 2 0 0 ga true).iommuPut 0x48 40 1 1).iommuFip

/-- A fault record's write has ended: the queue's tail moves on, or the queue stops with a memory fault. -/
def State.iommuLine (s : State) (ok : Bool) : State :=
  if ok then
    let size := 2 ^ (s.iommuBits 0x28 0 5 + 1)
    (s.iommuPut 0x30 32 32 ((s.iommuBits 0x30 32 32 + 1) % size)).iommuFip
  else (s.iommuPut 0x48 40 1 1).iommuFip

/-- A register write: `new` is the word as all its bits would stand, `v` what was written. -/
def State.iommuWrite (s : State) (o : Nat) (new v : Nat) : State :=
  let keep (m : Nat) : State :=
    s.setReg (iommuReg o) (BitVec.ofNat 64 (((s.reg (iommuReg o)).toNat &&& (2 ^ 64 - 1 - m)) ||| (new &&& m)))
  if o = 0x10 then keep 0x003FFFFFFFFFFC0F
  else if o = 0x18 ∨ o = 0x28 then keep 0x003FFFFFFFFFFC1F
  else if o = 0x20 then keep 0xFFFFFFFF00000000
  else if o = 0x30 then keep 0x00000000FFFFFFFF
  else if o = 0x48 then
    let was := (s.reg (iommuReg o)).toNat
    let s := keep 0x0000000300000003
    let w := (s.reg (iommuReg o)).toNat
    let w := w - (w &&& (v &&& 0x0000030000000F00))
    let w := setBits (setBits w 16 1 (w % 2)) 48 1 (bits w 32 1)
    let s := s.setReg (iommuReg o) (BitVec.ofNat 64 w)
    let s := if !was.testBit 0 ∧ w.testBit 0 then s.iommuPut 0x20 0 32 0 else s
    if !was.testBit 32 ∧ w.testBit 32 then s.iommuPut 0x30 32 32 0 else s
  else if o = 0x50 then
    let w := (s.reg (iommuReg o)).toNat
    s.setReg (iommuReg o) (BitVec.ofNat 64 (w - (w &&& (v &&& 0x0000000F00000000))))
  else if o = 0x2F8 then keep 0xFFFF
  else if 0x300 ≤ o ∧ o < 0x400 then keep (if o % 16 = 0 then 0x00FFFFFFFFFFFFFC else 0x00000001FFFFFFFF)
  else s

/-- An interrupt write is refused: dropped, counted with its routing ID and recorded (R322). -/
def State.iommuDrop (s : State) (rid addr : Nat) : State :=
  ((((s.bump R.IOMMU_MSI_DROPS_DROPS 1).put R.IOMMU_MSI_DROPS_LAST_RID rid).count ctrIommu 6).iommuFault rid 3 addr)

/-- What the IOMMU makes of an interrupt write of an XCE function: in Bare mode the address as it is; else what its tables
say, which is a free value: an address, or nothing where it refuses. -/
def State.iommuMsi (s : State) (addr : Nat) : Option Nat × State :=
  if s.iommuBits 0x10 0 4 = 1 then (some (addr % 2 ^ 56), s) else (Config.freeMsi s.free addr, { s with free := s.free + 1 })

end Sys2Proof.Machine
end

