-- ==== Sys2Proof/Machine/Xfer.lean ====
section
/-!
DEFINITION. The Xomus channel engine (spec/12_xomus_queues.md): its operations on memory as agent 0x20 (R112, R289), its
interrupts (spec/11 R276 to R279), what a finished operation leads to, and descriptors up to their completion entries.
-/

namespace Sys2Proof.Machine

/-! ## Window messages -/

/-- A window or island message is issued by this package. -/
def State.wSend (s : State) (m : WMsg) : State := { s with hzn := { s.hzn with out := s.hzn.out ++ [m] } }

/-- It goes on its way, or reaches this package itself. -/
def State.wGo (s : State) (m : WMsg) : State :=
  if m.dstPkg = s.pkgId then { s with hzn := { s.hzn with win := s.hzn.win ++ [m] } } else s.wSend m

def vcPOST : Nat := 5
def vcNP : Nat := 6
def vcCPL : Nat := 7

/-- The completion opcode that answers a W_POST or W_NP message (R243). -/
def wCplOpc (m : WMsg) : Nat := if m.vc = vcPOST then 2 else if m.wopc = 0 then 0 else 1

/-- The completion of a window request with a status (R242, R243). -/
def wCpl (m : WMsg) (cstatus : Nat) : WMsg :=
  { vc := vcCPL, wopc := wCplOpc m, srcPkg := m.dstPkg, dstPkg := m.srcPkg, srcFn := m.srcFn, wtag := m.wtag,
    cstatus := cstatus, fmcid := m.fmcid }

/-! ## Interrupts (spec/11 R276 to R279) -/

/-- A 4-byte write of agent `agent` to a translated address (spec/01 R32): an interrupt file takes it, memory is written, and
any other address is recorded. -/
def State.msiWrite (s : State) (agent source rid : Nat) (ids : Nat × Nat) (ga data : Nat) : State :=
  let go (s : State) : State := s.ioWrite agent 0 (fun _ _ _ => .device 0 0 0 0) ids 0 ga 4 data
  match s.reachDevice ga with
  | .mem _ => go s
  | .peer => go s
  | .fault c => s.decodeErr c source 0 rid ga true
  | _ =>
    if isSetPending (ga % 2 ^ 44) then (s.count ctrIommu 5).setPending (ga % 2 ^ 44) data rid
    else s.decodeErr 0 source 0 rid ga true

/-- An MSI of an XCE function goes through the IOMMU, which answers per routing ID: delivered, or dropped, counted and
recorded (R277, spec/13 R322). -/
def State.xceMsi (s : State) (f addr data : Nat) : State :=
  let r := s.iommuMsi addr
  match r.1 with
  | none => r.2.iommuDrop (xceRid f) addr
  | some ga => r.2.msiWrite agXCE 2 (xceRid f) (s.get (R.QOS_FN_ID_RCID f), s.get (R.QOS_FN_ID_MCID f)) ga data

def State.msixE (s : State) (f v : Nat) : MsixE := Tbl.get (fun _ => {}) s.xce.msix (f * 64 + v)
def State.setMsixE (s : State) (f v : Nat) (e : MsixE) : State :=
  { s with xce := { s.xce with msix := Tbl.set (fun _ => {}) s.xce.msix (f * 64 + v) e } }
def State.pba (s : State) (f : Nat) : Nat := Tbl.get (fun _ => 0) s.xce.pba f
def State.setPba (s : State) (f v : Nat) (b : Bool) : State :=
  { s with xce := { s.xce with pba := Tbl.upd (fun _ => 0) s.xce.pba f (fun m => setBits m v 1 (b2n b)) } }

/-- Can vector `v` of a function be signalled? -/
def State.msixClear (s : State) (f v : Nat) : Bool := s.msixOn f && !s.msixMask f && !(s.msixE f v).mask

/-- INTA follows PF0's events (R278 item 3): asserted while one is pending and enabled, in INTx mode. -/
def State.intaUpdate (s : State) : State :=
  let msi := s.cfgBits ridPF 0x50 16 1 == 1
  let pend := (s.reg R.rXCE_EVENT).toNat &&& s.get R.XCE_EVENT_EN_ENABLE
  let on := decide (pend % 64 ≠ 0) && !s.msixOn 0 && !msi && s.cfgBits ridPF 0x04 10 1 == 0
  let s : State := { s with xce := { s.xce with inta := on } }
  s.aplicLevel 1023 on

/-- An event of a function is signalled on vector `v` (R277, R278): held while Bus Master Enable is 0 (R279). -/
def State.xceSignal (s : State) (f v : Nat) : State :=
  if !s.bmeOn f then
    { s with xce := { s.xce with held := Tbl.upd (fun _ => 0) s.xce.held f (fun m => setBits m v 1 1) } }
  else if f ≠ 0 ∨ s.msixOn 0 then
    if s.msixClear f v then s.xceMsi f (s.msixE f v).addr (s.msixE f v).data else s.setPba f v true
  else if s.cfgBits ridPF 0x50 16 1 = 1 then
    let k := v % 2 ^ min 5 (s.cfgBits ridPF 0x50 20 3)
    if s.cfgBits ridPF 0x60 k 1 = 1 then s.putCfg ridPF 0x64 k 1 1
    else
      let data := s.cfgBits ridPF 0x5C 0 16
      let n := 2 ^ min 5 (s.cfgBits ridPF 0x50 20 3)
      s.xceMsi 0 (s.cfg ridPF 0x54 + (s.cfg ridPF 0x58) <<< 32) (data - data % n + k)
  else s.intaUpdate

/-- Vectors whose PBA bit is set and that have become signallable send one message each (R277). -/
def State.pbaDrain (s : State) (f : Nat) : State :=
  if s.bmeOn f then
    foldN 64 s (fun v s =>
      if (s.pba f).testBit v && s.msixClear f v then
        (s.setPba f v false).xceMsi f (s.msixE f v).addr (s.msixE f v).data
      else s)
  else s

/-- Bus Master Enable is back: what was held is signalled. -/
def State.heldDrain (s : State) (f : Nat) : State :=
  if s.bmeOn f then
    let m := Tbl.get (fun _ => 0) s.xce.held f
    let s : State := { s with xce := { s.xce with held := Tbl.set (fun _ => 0) s.xce.held f 0 } }
    (foldN 64 s (fun v s => if m.testBit v then s.xceSignal f v else s)).pbaDrain f
  else s

/-- XCE_EVENT bit `i` is set, and signals PF0 vector `i` where it is enabled. -/
def State.xceEvent (s : State) (i : Nat) : State :=
  let s := s.setReg R.rXCE_EVENT (BitVec.ofNat 64 (setBits (s.reg R.rXCE_EVENT).toNat i 1 1))
  if (s.get R.XCE_EVENT_EN_ENABLE).testBit i then s.xceSignal 0 i else s

/-- An error message of PF0 reaches the bridge (R282), where PF0's Device Control lets it go out: `kind` 0 correctable,
1 non-fatal, 2 fatal. Root Error Status collects it, with PF0's routing ID for the first of its class. -/
def State.aerMessage (s : State) (kind : Nat) : State :=
  if s.cfgBits ridPF 0x78 kind 1 = 0 then s
  else if kind = 0 then
    if s.cfgBits ridBRIDGE 0x130 0 1 = 1 then s.putCfg ridBRIDGE 0x130 1 1 1
    else (s.putCfg ridBRIDGE 0x130 0 1 1).putCfg ridBRIDGE 0x134 0 16 ridPF
  else
    let s := s.putCfg ridBRIDGE 0x130 (4 + kind) 1 1
    if s.cfgBits ridBRIDGE 0x130 2 1 = 1 then s.putCfg ridBRIDGE 0x130 3 1 1
    else
      let s := (s.putCfg ridBRIDGE 0x130 2 1 1).putCfg ridBRIDGE 0x134 16 16 ridPF
      if kind = 2 then s.putCfg ridBRIDGE 0x130 4 1 1 else s

/-- PF0's AER capability logs an uncorrectable error of function `f` (R282), which also makes a record: bit 12 poisoned, 14
completion timeout, 16 unexpected completion, 22 internal. The first unmasked one fills the Header Log with the routing ID,
and an unmasked one sends a message by its severity (notes/assumptions/32.md). -/
def State.xceAer (s : State) (f bitNo : Nat) : State :=
  let masks := s.cfg ridPF 0x108
  let first := (s.cfg ridPF 0x104 &&& (2 ^ 32 - 1 - masks)) == 0
  let kind := 1 + bits (s.cfg ridPF 0x10C) bitNo 1
  let s := (s.putCfg ridPF 0x104 bitNo 1 1).putCfg ridPF 0x78 (16 + kind) 1 1
  let s := if masks.testBit bitNo then s
    else (if first then (s.setCfg ridPF 0x11C (xceRid f)).putCfg ridPF 0x118 0 5 bitNo else s).aerMessage kind
  let s := if bitNo = 22 then s.xceEvent 5 else s
  s.errRecord bankXce (if bitNo = 22 then errUEC else errUED) 0 (recInfo (s.get (R.QOS_FN_ID_MCID f)) (s.get (R.QOS_FN_ID_RCID f)) agXCE s.pkgId) 0

/-- PF0's AER capability logs that a single bad bit of an XCE array was mended: Corrected Internal Error (R282). -/
def State.xceMended (s : State) : State :=
  let s := (s.putCfg ridPF 0x110 14 1 1).putCfg ridPF 0x78 16 1 1
  if s.cfgBits ridPF 0x114 14 1 = 1 then s else s.aerMessage 0

/-! ## Translation and the translation cache (R273, R274) -/

/-- The entry of the translation cache that holds an address. -/
def State.atcFind (s : State) (f va : Nat) : Option AtcE :=
  s.xce.atc.find? (fun e => e.fn == f && decide (e.base ≤ va) && decide (va < e.base + e.size))

def State.setAtc (s : State) (l : List AtcE) : State :=
  { s with xce := { s.xce with atc := l } }.put R.XCE_ATC_OCCUPANCY_ENTRIES_VALID l.length

/-- An entry comes in: the least recently used one goes where the function's or the cache's room is used up. -/
def State.atcFill (s : State) (e : AtcE) : State :=
  let l := s.xce.atc.filter (fun x => !(x.fn == e.fn && x.base == e.base))
  let l := if e.fn ≠ 0 ∧ s.get R.XCE_ATC_CTL_VF_CAP ≤ (l.filter (fun x => x.fn == e.fn)).length then
      match (l.filter (fun x => x.fn == e.fn)).getLast? with | some x => l.erase x | none => l
    else l
  s.setAtc ((e :: l).take 65536)

/-- The entry that an ATS completion for address `va` makes: its whole range, and its permissions (R274). -/
def atcEntry (f va ga k : Nat) (rd wr : Bool) : AtcE :=
  let n := 2 ^ (12 + k)
  { fn := f, base := va / n * n, size := n, ga := ga / n * n, rd := rd, wr := wr }

/-- The address at which an entry places `va`, where it permits the access. -/
def AtcE.use (e : AtcE) (va : Nat) (rd wr : Bool) : Xlate :=
  if (rd && !e.rd) || (wr && !e.wr) then .fault else .to (e.ga + (va - e.base))

/-- Translate one page of a function for a read, a write or both: through the translation cache where ATS is enabled, which
keeps what a Translation Request answers; otherwise as the IOMMU answers (notes/assumptions/10.md). A fault of the IOMMU is
recorded. -/
def State.xlate (s : State) (f va : Nat) (rd wr : Bool) (tr : Xlate) : Xlate × State :=
  if s.atsOn f then
    match s.atcFind f va with
    | some e =>
      let s := (s.setAtc (e :: s.xce.atc.erase e)).count ctrXce 9
      (e.use va rd wr, s)
    | none =>
      let s := (((s.count ctrXce 10).count ctrXce 8).bump R.XCE_ATC_STATS_TRANSLATIONS 1).count ctrIommu 1
      match tr with
      | .to ga k r w =>
        let e := atcEntry f va ga k r w
        (e.use va rd wr, s.atcFill e)
      | .fault => (.fault, s.iommuFault (xceRid f) 8 va)
  else
    let s := s.count ctrIommu 1
    match tr with
    | .to ga .. => (.to (ga / 4096 * 4096 + va % 4096), s)
    | .fault => (.fault, s.iommuFault (xceRid f) (if wr then 3 else 2) va)

/-! ## Operations on memory -/

/-- The parts of `len` bytes at `va` within 4 KiB pages, with each page's translation: (offset, length, address,
translation); a page without one faults. -/
def xParts (va len : Nat) (trs : List Xlate) : List (Nat × Nat × Nat × Xlate) :=
  if len = 0 then []
  else
    (List.range ((va % 4096 + len + 4095) / 4096)).map (fun i =>
      let a := if i = 0 then va else (va / 4096 + i) * 4096
      let b := min (va + len) ((va / 4096 + i + 1) * 4096)
      (a - va, b - a, a, trs.getD i .fault))

/-- The earlier of two failures. -/
def failMin (a b : Option (Nat × Nat × Nat)) : Option (Nat × Nat × Nat) :=
  match a, b with
  | some x, some y => if y.1 < x.1 then some y else some x
  | none, y => y
  | x, none => x

def State.xop (s : State) (id : Nat) : Option XOp := s.xce.ops.find? (fun o => o.id == id)
def State.setXop (s : State) (o : XOp) : State :=
  { s with xce := { s.xce with ops := s.xce.ops.map (fun x => if x.id = o.id then o else x) } }

/-- The lines of an operation that are outstanding. -/
def State.xopLeft (s : State) (id : Nat) : Nat :=
  (s.io.reqs.filter (fun r => match r.why with | .xce o _ _ _ => o == id && !r.quar | _ => false)).length

/-- Begin an operation of function `f` on `len` bytes at I/O virtual address `va`: a read, or a write of `data` with
ORD = `ord`. A page that fails translation or that R32 refuses fails its offset; a write stops there. Answers the
operation's number. -/
def State.xopBegin (s : State) (f : Nat) (what : XWhat) (ids : Nat × Nat) (stream va len : Nat) (trs : List Xlate)
    (data : Option Nat) (ord : Nat := 0) : State × Nat :=
  let id := s.xce.nextOp
  let s : State := { s with xce := { s.xce with nextOp := id + 1, ops := s.xce.ops ++ [{ id := id, fn := f, left := 0, what := what, ids := ids }] } }
  let step (a : State × Option (Nat × Nat × Nat)) (p : Nat × Nat × Nat × Xlate) : State × Option (Nat × Nat × Nat) :=
    if a.2.isSome ∧ data.isSome then a
    else
      let x := a.1.xlate f p.2.2.1 data.isNone data.isSome p.2.2.2
      let s := x.2
      match x.1 with
      | .fault => (s, failMin a.2 (some (p.1, 4, 5)))
      | .to ga .. =>
        let go (s : State) : State :=
          match data with
          | none => s.ioRead agXCE stream (fun off lo len => .xce id (p.1 + off) lo len) ids ga p.2.1
          | some v => s.ioWrite agXCE stream (fun off lo len => .xce id (p.1 + off) lo len) ids ord ga p.2.1 (v / 2 ^ (8 * p.1))
        match s.reachDevice ga with
        | .mem _ => (go s, a.2)
        | .peer => (go s, a.2)
        | .fault c => (s.decodeErr c 2 0 (xceRid f) ga data.isSome, failMin a.2 (some (p.1, 1, 7)))
        | _ =>
          match data with
          | some v =>
            if p.2.1 = 4 ∧ isSetPending (ga % 2 ^ 44) then
              (s.setPending (ga % 2 ^ 44) (v / 2 ^ (8 * p.1) % 2 ^ 32) (xceRid f), a.2)
            else (s.decodeErr 0 2 0 (xceRid f) ga true, failMin a.2 (some (p.1, 1, 7)))
          | none => (s.decodeErr 0 2 0 (xceRid f) ga false, failMin a.2 (some (p.1, 1, 7)))
  let r := (xParts va len trs).foldl step (s, none)
  let s := r.1
  (s.setXop { id := id, fn := f, left := s.xopLeft id, fail := r.2, what := what, ids := ids }, id)

/-- Begin an atomic of an inbound message (R112): one ATOMIC_NC. -/
def State.xopAtomic (s : State) (f : Nat) (m : WMsg) (ids : Nat × Nat) (stream va : Nat) (tr : Xlate) : State × Nat :=
  let id := s.xce.nextOp
  let n := 4 * 2 ^ m.asize
  let s : State := { s with xce := { s.xce with nextOp := id + 1, ops := s.xce.ops ++ [{ id := id, fn := f, left := 0, what := .target m, ids := ids }] } }
  let x := s.xlate f va true true tr
  let s := x.2
  let fin (s : State) (left : Nat) (fail : Option (Nat × Nat × Nat)) : State × Nat :=
    (s.setXop { id := id, fn := f, left := left, fail := fail, what := .target m, ids := ids }, id)
  match x.1 with
  | .fault => fin s 0 (some (0, 4, 5))
  | .to ga .. =>
    let go (s : State) : State := s.ioSend agXCE stream (.xce id 0 0 n)
      { blankMsg with opc := opATOMIC, addr := ga / 64, rcid := ids.1, mcid := ids.2, payload := true, aop := m.aop,
                      asize := m.asize, aoff := ga % 64, data := bytesLine m.data }
    match s.reachDevice ga with
    | .mem _ => fin (go s) 1 none
    | .peer => fin (go s) 1 none
    | .fault c => fin (s.decodeErr c 2 0 (xceRid f) ga true) 0 (some (0, 1, 7))
    | _ => fin (s.decodeErr 0 2 0 (xceRid f) ga true) 0 (some (0, 1, 7))

/-! ## Queue pairs and descriptors -/

def qpDISABLED : Nat := 0
def qpACTIVE : Nat := 1
def qpSTOPPING : Nat := 2
def qpERROR : Nat := 3

def State.qp (s : State) (f q : Nat) : XQp := Tbl.get (fun _ => {}) s.xce.qps (f * 8 + q)
def State.setQp (s : State) (f q : Nat) (x : XQp) : State :=
  { s with xce := { s.xce with qps := Tbl.set (fun _ => {}) s.xce.qps (f * 8 + q) x } }
def State.qpState (s : State) (f q : Nat) : Nat := s.get (R.QP_STATUS_STATE f q)

/-- An ACTIVE queue pair goes to ERROR (R287). -/
def State.qpError (s : State) (f q cause : Nat) : State :=
  if s.qpState f q = qpACTIVE then (s.put (R.QP_STATUS_STATE f q) qpERROR).put (R.QP_STATUS_CAUSE f q) cause else s

/-- The stream of ordered writes of a queue pair, and of a remote function at the target (R296). -/
def qpStream (f q : Nat) : Nat := 16 + f * 8 + q
def targetStream (m : WMsg) : Nat := 2 ^ 20 + m.srcPkg * 4096 + m.srcFn

/-- `n` bytes of a descriptor from byte `i`. -/
def XDesc.b (d : XDesc) (i n : Nat) : Nat := bits d.raw (8 * i) (8 * n)
def XDesc.op (d : XDesc) : Nat := d.b 0 1
def XDesc.length (d : XDesc) : Nat := d.b 8 4

/-- Is a descriptor illegal (R288, R290)? -/
def XDesc.illegal (d : XDesc) : Bool :=
  let op := d.op
  let len := d.length
  let win := op == 2 || op == 3 || op == 4 || op == 5
  let n := 4 * 2 ^ bits (d.b 2 1) 4 2
  decide (6 < op) || decide (1 < d.b 1 1) || d.b 3 1 != 0 || d.b 14 2 != 0 || (win && decide (16383 < d.b 12 2)) ||
  (!win && d.b 12 2 != 0) ||
  (if op = 5 then decide (3 < d.b 2 1 / 16) || !atomicLegal (d.b 2 1 % 16) (bits (d.b 2 1) 4 2) 0 ||
      d.b 24 8 % n != 0 || d.b 16 8 % n != 0
    else d.b 2 1 != 0 || d.b 32 32 != 0) ||
  (if op = 1 ∨ op = 2 ∨ op = 3 then decide (len = 0) || decide (2 ^ 30 < len)
    else if op = 4 then decide (len = 0) || decide (256 < len) else len != 0) ||
  (if op = 0 ∨ op = 6 then d.b 16 16 != 0 else if op = 4 then d.b 24 8 != 0
    else if op = 1 then false else decide (2 ^ 40 ≤ d.b 24 8))

/-- The total that a descriptor issues: its bytes, or one for those without a LENGTH. -/
def XDesc.total (d : XDesc) : Nat := if d.op = 1 ∨ d.op = 2 ∨ d.op = 3 ∨ d.op = 4 then d.length else 1

/-- Bytes 0 to 14 of a descriptor's completion entry (R292). -/
def XDesc.entry (d : XDesc) (q : Nat) (fail : Option (Nat × Nat × Nat)) : Nat :=
  let f := fail.getD (d.length, 0, 0)
  ofBytes (leBytes 4 (d.b 4 4) ++ leBytes 4 f.1 ++ leBytes 2 ((d.ix + 1) % 65536) ++ [f.2.1, f.2.2, q, d.op])

/-- A descriptor completes: its entry waits to be written. In STRICT mode an error stops the queue (R297). -/
def State.descEnd (s : State) (f q : Nat) (d : XDesc) (fail : Option (Nat × Nat × Nat)) : State :=
  let x := s.qp f q
  let fin (d : XDesc) (fail : Option (Nat × Nat × Nat)) : XFin := ⟨d.pos, d.entry q fail, decide (d.b 1 1 % 2 = 1), false, (d.rcid, d.mcid)⟩
  let rest := x.descs.filter (fun y => y.pos != d.pos)
  let s := s.count ctrXce 2 none (some (d.rcid, d.mcid))
  if fail.isSome ∧ s.get (R.QP_CTL_MODE f q) = 1 ∧ s.qpState f q = qpACTIVE then
    let s := s.setQp f q { x with descs := [], failed := true,
                                  fin := x.fin ++ [fin d fail] ++ rest.map (fun y => fin y (some (0, 6, 2))) }
    s.qpError f q 6
  else s.setQp f q { x with descs := rest, fin := x.fin ++ [fin d fail] }

/-- A piece of a descriptor has ended; the descriptor may complete (R294). -/
def State.descPiece (s : State) (f q pos off len : Nat) (fail : Option (Nat × Nat)) : State :=
  let x := s.qp f q
  match x.descs.find? (fun d => d.pos == pos) with
  | none => s
  | some d =>
    let s := match fail with
      | none => if d.op = 0 ∨ d.op = 6 then s
        else (s.meterAdd qXCE d.mcid len).count ctrXce 3 none (some (d.rcid, d.mcid)) ((len + 63) / 64)
      | some _ => s
    let d : XDesc := { d with live := d.live - 1, fail := failMin d.fail (fail.map (fun e => (off, e.1, e.2))) }
    if d.live = 0 ∧ d.total ≤ d.next then s.descEnd f q d d.fail
    else s.setQp f q { x with descs := x.descs.map (fun y => if y.pos = pos then d else y) }

/-- The lowest WTAG that a function does not use (R291). -/
def State.freeTag (s : State) (f : Nat) : Option Nat :=
  let used := (s.xce.tags.filter (fun t => t.fn == f)).map (·.wtag)
  (List.range 4096).find? (fun i => !used.contains i)

/-- Issue a window request: it takes a WTAG and goes on its way. The command that issues it has found one free. -/
def State.wIssue (s : State) (f ent : Nat) (m : WMsg) (why : XFor) (old : Bool := false) : State :=
  match s.freeTag f with
  | none => s
  | some w =>
    let np := m.vc == vcNP
    let s : State := { s with xce := { s.xce with tags := s.xce.tags ++ [{ fn := f, wtag := w, np := np, len := m.length, old := old, ent := ent, why := why }] } }
    let ids := (m.rcid, m.fmcid)
    let s := if m.vc = vcPOST ∧ m.wopc = 0 then s.count ctrXce 4 none (some ids)
      else if np ∧ m.wopc = 0 then s.count ctrXce 5 none (some ids) else s
    s.wGo { m with wtag := w }

/-! ## Completion entries (R292, R294) -/

/-- A completion entry has been written: the tail moves on, and the vector is signalled where R294 says so. -/
def State.entryDone (s : State) (f q : Nat) (irq recv : Bool) : State :=
  let x := s.qp f q
  if s.qpState f q = qpDISABLED then s.setQp f q { x with writing := false }
  else
  let s := s.put (R.QP_CQ_TAIL_INDEX f q) (s.get (R.QP_CQ_TAIL_INDEX f q) + 1)
  let s := if recv then s.put (R.QP_RQ_HEAD_INDEX f q) (s.get (R.QP_RQ_HEAD_INDEX f q) + 1) else s
  let n := x.unsig + 1
  let cnt := s.get (R.QP_IRQ_COUNT f q)
  let on := s.get (R.QP_IRQ_ENABLE f q) == 1
  let fire := on && (irq || (decide (cnt ≠ 0) && decide (cnt ≤ n)))
  let s := s.setQp f q { x with writing := false, fin := x.fin.drop 1, unsig := if fire then 0 else n,
                                rsv := if recv then x.rsv - 1 else x.rsv }
  if fire then s.xceSignal f (s.get (R.QP_IRQ_VECTOR f q)) else s

/-! ## The end of an operation -/

/-- Descriptors arrive (R290, R305): each is charged to the function's balance, and the SQ consumer index moves on. A
bus error at a descriptor stops the queue there. -/
def State.fetched (s : State) (f q n : Nat) (o : XOp) : State :=
  let x := { s.qp f q with fetching := false }
  let good := match o.fail with | some (off, _, _) => min n (off / 64) | none => n
  let head := s.get (R.QP_SQ_HEAD_INDEX f q)
  let rcid := o.ids.1
  let mcid := o.ids.2
  let ds : List XDesc := (List.range good).map (fun i =>
    { pos := x.pos + i, ix := (head + i) % 2 ^ 32, raw := bits o.got (512 * i) 512, rcid := rcid, mcid := mcid })
  if s.qpState f q ≠ qpACTIVE ∨ s.fnDrains f then s.setQp f q x
  else
    let s := s.setQp f q { x with descs := x.descs ++ ds, pos := x.pos + good }
    let s := s.put (R.QP_SQ_HEAD_INDEX f q) (head + good)
    let charge := (ds.map (fun d => max d.length 64)).foldl (· + ·) 0
    let s := s.put (R.XCE_FN_ARB_BALANCE f) (s.get (R.XCE_FN_ARB_BALANCE f) + 2 ^ 40 - charge % 2 ^ 40)
    let s := s.count ctrXce 1 none (some (rcid, mcid)) good
    match o.fail with
    | some (_, st, _) => s.qpError f q (if st = 4 then 2 else 3)
    | none => s

/-- What a finished operation leads to; it may begin another, whose number it answers. -/
def State.xopDone (s : State) (o : XOp) : State × Option Nat :=
  let f := o.fn
  let cause := o.fail.map (fun e => e.2)
  match o.what with
  | .fetch q n => (s.fetched f q n o, none)
  | .copyRd q pos dst =>
    match (s.qp f q).descs.find? (fun d => d.pos == pos) with
    | none => (s, none)
    | some d =>
      let good := match o.fail with | some (off, _, _) => off | none => d.length
      -- Overlapping source and destination leave bytes that the spec does not fix (R289).
      let laps := decide (d.b 16 8 < d.b 24 8 + d.length) && decide (d.b 24 8 < d.b 16 8 + d.length)
      let got := if laps then (s.freeSpan good).1 else o.got
      let s := if laps then (s.freeSpan good).2 else s
      let s := s.setQp f q { s.qp f q with descs := (s.qp f q).descs.map (fun y => if y.pos = pos then { y with fail := o.fail } else y) }
      let r := s.xopBegin f (.copyWr q pos) (d.rcid, d.mcid) (qpStream f q) (d.b 24 8) good dst (some got) 1
      (r.1, some r.2)
  | .copyWr q pos =>
    match (s.qp f q).descs.find? (fun d => d.pos == pos) with
    | none => (s, none)
    | some d =>
      let fail := failMin d.fail o.fail
      (s.descPiece f q pos (match fail with | some e => e.1 | none => 0) d.length (fail.map (fun e => e.2)), none)
  | .source q pos off ent m =>
    match cause with
    | some c => (s.descPiece f q pos off 0 (some c), none)
    | none =>
      if (s.qp f q).descs.any (fun d => d.pos == pos) then
        (s.wIssue f ent { m with data := leBytes m.length o.got } (.piece q pos off) o.old, none)
      else (s, none)
  | .land q pos off len => (s.descPiece f q pos off len cause, none)
  | .entry q irq recv =>
    match o.fail with
    | none => (s.entryDone f q irq recv, none)
    | some _ => ((s.setQp f q { s.qp f q with writing := false, fin := [] }).qpError f q 4, none)
  | .target m =>
    let st := match o.fail with | some (_, 4, _) => 2 | some _ => 3 | none => 0
    let m' := wCpl m st
    let data := if st = 0 ∧ m.vc = vcNP then leBytes (if m.wopc = 0 then m.length else 4 * 2 ^ m.asize) o.got else []
    (s.wGo { m' with data := data, length := if m.vc = vcNP ∧ m.wopc = 0 ∧ st = 0 then m.length else 0 }, none)
  | .deposit q m =>
    let x := s.qp f q
    match o.fail with
    | some (_, st, _) =>
      ((s.setQp f q { x with rsv := x.rsv - 1 }).wGo (wCpl m (if st = 4 then 2 else 3)), none)
    | none =>
      -- A deposit accepted before a drain is written without its receive entry (R307).
      let slot := s.get (R.QP_RQ_HEAD_INDEX f q) + x.rsv - 1
      let v := ofBytes (leBytes 4 (m.srcPkg + m.srcFn <<< 16) ++ leBytes 4 m.length ++ leBytes 2 (slot % 65536) ++ [8, 0, q, 4])
      let s := if s.qpState f q = qpACTIVE then s.setQp f q { x with fin := x.fin ++ [⟨0, v, false, true, o.ids⟩] } else s
      (s.wGo (wCpl m 0), none)

/-- Operations with nothing outstanding end, and what they begin is looked at again. -/
def State.xopCheck (s : State) : Nat → Nat → State
  | 0, _ => s
  | k + 1, id =>
    match s.xop id with
    | none => s
    | some o =>
      if o.left = 0 then
        let s : State := { s with xce := { s.xce with ops := s.xce.ops.filter (fun x => x.id != id) } }
        match s.xopDone o with
        | (s, some id') => s.xopCheck k id'
        | (s, none) => s
      else s

/-- Begin an operation and see whether it has ended already. -/
def State.xopRun (r : State × Nat) : State := r.1.xopCheck 4 r.2

/-- A line of an operation ends: `how` 0 good, 1 an error or bad data, 2 unroutable, 3 timed out; `v` is what it read. -/
def State.xopLine (s : State) (id off how v : Nat) : State :=
  match s.xop id with
  | none => s
  | some o =>
    let fail : Option (Nat × Nat × Nat) :=
      if how = 0 then none else if how = 1 then some (off, 1, 7) else if how = 2 then some (off, 5, 11) else some (off, 2, 13)
    let o := { o with left := o.left - 1, got := o.got + (if how = 0 then v else 0) <<< (8 * off), fail := failMin o.fail fail }
    (s.setXop o).xopCheck 4 id

end Sys2Proof.Machine
end

