-- ==== Sys2Proof/Machine/Io.lean ====
section
/-!
DEFINITION. Coherent requests of the XCE agent and the root ports (spec/04 R112, R114; spec/05 R129; spec/10 R259,
R260).
-/

namespace Sys2Proof.Machine

/-- The request a message to an I/O agent names. -/
def State.ioReq (s : State) (agent txn : Nat) : Option IoReq :=
  s.io.reqs.find? (fun r => r.agent == agent && r.msg.txn == txn && r.st != .held)

/-- A device's operation takes the outcome of one of its lines, and answers when it was the last. -/
def State.dmaLine (s : State) (op off : Nat) (ok : Bool) (v : Nat) : State :=
  match s.io.dma.find? (fun d => d.id == op) with
  | none => s
  | some d =>
    let d := { d with left := d.left - 1, ok := d.ok && ok, got := d.got + v <<< (8 * off) }
    if d.left = 0 then
      let s : State := { s with io := { s.io with dma := s.io.dma.filter (fun x => x.id != op) } }
      if d.ans then { s with io := { s.io with cpls := s.io.cpls ++ [⟨d.port, d.rid, d.ok, if d.ok then d.got else 0⟩] } } else s
    else { s with io := { s.io with dma := s.io.dma.map (fun x => if x.id = op then d else x) } }

/-- Requests of a stream that has failed count for nothing any more. -/
def State.ringDead (s : State) (p : IoWhy → Bool) : State :=
  s.setReqs (s.io.reqs.map (fun r => if p r.why then { r with why := .device 0 0 0 0 } else r))

/-- A line of the metering block's ring write has ended (spec/09 R229, R231): a failure ends the set's writing. -/
def State.meterLine (s : State) (i : Nat) (ok : Bool) (addr : Nat) : State :=
  if i < s.meter.writing then
    if ok then { s with meter := { s.meter with committed := s.meter.committed + 1 } }
    else
      let s : State := { s with meter := { s.meter with writing := 0, committed := 0 } }
      let s := s.ringDead (fun w => match w with | .meter _ => true | _ => false)
      let s := (s.put R.METER_CTL_RING_ENABLE 0).put R.METER_STATUS_RING_FAULT 1
      s.errRecord bankTvx errUEC addr (recInfo 0 0 agXCE s.pkgId) 0
  else s

/-- A sweep is written: PROD advances, and the MSI goes out (spec/18 R410). -/
def State.sweepDone (s : State) : State :=
  let n := s.ccol.len
  let s : State := { s with ccol := { next := s.ccol.next } }
  let s := (s.wrapAdd R.CCOL_RING_PROD_PROD n).wrapAdd R.CCOL_STATUS_SWEEP_SEQ 1
  if s.get R.CCOL_CTL_MSI_ENABLE = 1 then s.sendMsi (s.get R.CCOL_MSI_ADDR_ADDR * 4) (s.get R.CCOL_MSI_DATA_DATA) 1 else s

/-- A line of a counter sweep has ended (spec/18 R410, R411). -/
def State.sweepLine (s : State) (i : Nat) (ok : Bool) (addr : Nat) : State :=
  if i < s.ccol.writing then
    if ok then
      if s.ccol.writing ≤ s.ccol.done + 1 then s.sweepDone else { s with ccol := { s.ccol with done := s.ccol.done + 1 } }
    else
      let s : State := { s with ccol := { next := s.ccol.next } }
      let s := s.ringDead (fun w => match w with | .ccol _ => true | _ => false)
      let s := s.bump R.CCOL_STATUS_SWEEPS_SKIPPED 1
      let s := (s.put R.CCOL_CTL_SWEEP_ENABLE 0).put R.CCOL_CTL_RING_FAULT 1
      s.errRecord bankTvx errUED addr (recInfo 0 0 agXCE s.pkgId) 0
  else s

/-- What a request was for takes its outcome: `how` 0 good, 1 an error or bad data, 2 unroutable, 3 timed out. -/
def State.ioOutcome (s : State) (r : IoReq) (how : Nat) (l : Line) : State :=
  let ok := how == 0
  let v (lo len : Nat) : Nat := if r.msg.opc = opRD_CUR then lineField l lo len
    else if r.msg.opc = opATOMIC then lineField l 0 len else 0
  match r.why with
  | .device op off lo len => s.dmaLine op off ok (v lo len)
  | .xce op off lo len => s.xopLine op off how (v lo len)
  | .meter i => s.meterLine i ok (r.msg.addr * 64)
  | .ccol i => s.sweepLine i ok (r.msg.addr * 64)
  | .iommu => s.iommuLine ok

/-- COMMIT goes out for every ordered write of a stream that is ready with every earlier one (R114). -/
def State.ioCommit (s : State) (agent stream : Nat) : Nat → State
  | 0 => s
  | k + 1 =>
    match s.io.reqs.find? (fun r => r.agent == agent && r.stream == stream && r.msg.ord == 1) with
    | some r =>
      if r.ready then
        let s := s.send { vc := vcRSP, opc := opCOMP_ACK, srcPkg := s.pkgId, srcAgent := agent, dstPkg := r.msg.dstPkg,
                          dstAgent := r.msg.dstAgent, txn := r.msg.txn, addr := r.msg.addr, htag := r.msg.htag,
                          status := stCOMMIT, mcid := r.msg.mcid }
        let s := s.ioDrop r
        let s := if r.quar then s else s.ioOutcome r 0 0
        State.ioCommit s agent stream k
      else s
    | none => s

/-- A message that matches no request of an I/O agent (R93, R260). -/
def State.ioProtoErr (s : State) (m : Msg) : State :=
  let s := if m.srcPkg = s.pkgId then s else s.bump R.ROUTE_STATS_LATE_CPL 1
  s.errRecord (ioBank m.dstAgent) errUED (m.addr * 64) (recInfo m.mcid m.rcid m.srcAgent m.srcPkg) 0

/-- A late completion (R260): counted and logged. -/
def State.ioLate (s : State) : State := (s.bump R.ROUTE_STATS_LATE_CPL 1).logEvent 0x0043 sevINFO noDie 0

/-- Data reaches an I/O agent. -/
def State.ioData (s : State) (m : Msg) : State :=
  match s.ioReq m.dstAgent m.txn with
  | none => s.ioProtoErr m
  | some r =>
    if r.msg.addr ≠ m.addr ∨ msgIllegal m ≠ none then s.ioProtoErr m
    else
      let s := s.ioDrop r
      if r.quar then s.ioLate
      else
        let s := match r.why with
          | .xce op _ _ _ => if m.poison then (match s.xop op with | some o => s.xceAer o.fn 12 | none => s) else s
          | _ => s
        s.ioOutcome r (if m.poison then 1 else 0) m.data

/-- COMP_ACK DONE or READY reaches an I/O agent. -/
def State.ioComp (s : State) (m : Msg) : State :=
  match s.ioReq m.dstAgent m.txn with
  | none => s.ioProtoErr m
  | some r =>
    if m.status = stREADY then
      let s := if r.quar then s.ioLate else s
      let s := s.setReqs (s.io.reqs.map (fun x =>
        if x.agent == r.agent && x.msg.txn == r.msg.txn then { x with ready := true, msg := { x.msg with htag := m.htag } } else x))
      s.ioCommit r.agent r.stream s.io.reqs.length
    else
      let s := s.ioDrop r
      if r.quar then s.ioLate else s.ioOutcome r 0 0

/-- ERR reaches an I/O agent. -/
def State.ioErr (s : State) (m : Msg) : State :=
  match s.ioReq m.dstAgent m.txn with
  | none => s.ioProtoErr m
  | some r =>
    let s := s.ioDrop r
    let s := if r.quar then s.ioLate
      else s.ioOutcome r (if m.cause = 4 ∧ m.srcPkg ≠ s.pkgId then 2 else 1) 0
    s.ioCommit r.agent r.stream s.io.reqs.length

/-- RETRY reaches an I/O agent (R129). -/
def State.ioRetry (s : State) (m : Msg) : State :=
  match s.ioReq m.dstAgent m.txn with
  | none => s.ioProtoErr m
  | some r =>
    s.setReqs (s.io.reqs.map (fun x =>
      if x.agent == r.agent && x.msg.txn == r.msg.txn then
        { x with st := if m.tokenV then .tokened else .parked, msg := { x.msg with token := m.token } } else x))

/-- CREDIT_GRANT reaches an I/O agent (R129). -/
def State.ioGrant (s : State) (m : Msg) : State :=
  let here (r : IoReq) : Bool := r.agent == m.dstAgent && r.msg.dstPkg == m.srcPkg && r.msg.dstAgent == m.srcAgent
  let hit :=
    if m.addr = noLine then
      match s.io.reqs.find? (fun r => here r && r.st == .tokened && r.msg.token == m.token) with
      | some r => some r
      | none => s.io.reqs.find? (fun r => here r && r.st == .parked)
    else s.io.reqs.find? (fun r => here r && r.msg.txn == m.txn && r.msg.addr == m.addr)
  match hit with
  | none => s.ioProtoErr m
  | some r =>
    let out : Msg := { r.msg with tokenV := true, token := m.token }
    (s.setReqs (s.io.reqs.map (fun x =>
      if x.agent == r.agent && x.msg.txn == r.msg.txn then { x with st := .sent, msg := out } else x))).send out

end Sys2Proof.Machine
end

