-- ==== Sys2Proof/Machine/Osesteth.lean ====
section
/-!
DEFINITION. The Osesteth messages where they arrive (spec/04, spec/05): which message of those in flight may be taken, and
what a home slice or RLD proxy, a die agent or an I/O agent does with one. The message rows are in MsgRows.lean.
-/

namespace Sys2Proof.Machine

/-! ## Arrival -/

def isHomeAgent (a : Nat) : Bool := decide (0x10 ≤ a) && decide (a < 0x20)
def isIoAgent (a : Nat) : Bool := a == agXCE || (decide (0x40 ≤ a) && decide (a < 0x60))

/-- Are two messages of one channel from one source agent to one destination agent (R88)? -/
def sameChan (a b : Msg) : Bool :=
  a.vc == b.vc && a.srcPkg == b.srcPkg && a.srcAgent == b.srcAgent && a.dstPkg == b.dstPkg && a.dstAgent == b.dstAgent

/-- Is a message in flight the oldest of its channel (R88)? -/
def State.inOrder (s : State) (m : Msg) : Bool := s.net.find? (sameChan m) == some m

/-- Has a message of this package come out of the Pass links that it crosses (spec/06 R152, R154)? The Basin end answers
itself for a die that is quiet (spec/03 R80). -/
def State.landed (s : State) (m : Msg) : Bool :=
  if decide (m.dstAgent < 12) && m.dstPkg == s.pkgId then s.linkHas 1 m.dstAgent m
  else if decide (m.srcAgent < 12) && m.srcPkg == s.pkgId && !s.dieQuiet m.srcAgent then s.linkHas 0 m.srcAgent m
  else true

/-- The requests that arbitrate at slice `n` (R125). -/
def State.reqsAt (s : State) (n : Nat) (m : Msg) : List Msg :=
  s.net.filter (fun x => x.vc == vcREQ && x.dstPkg == s.pkgId && x.dstAgent == agHOME + n && s.inOrder x &&
    (s.landed x || x == m))

/-- A message in flight can be taken: in the order of its channel, and a REQ when it wins its slice's arbitration. `here`
says that it stands at its receiver. -/
def State.mayTake (s : State) (m : Msg) (here : Bool) : Bool :=
  here && s.inOrder m &&
  (!(m.vc == vcREQ && isHomeAgent m.dstAgent) ||
    s.arbWinner (m.dstAgent - agHOME) (s.reqsAt (m.dstAgent - agHOME) m) == some m)

/-- A message command: the message arrives where it is addressed in this package, once its turn has come
(notes/assumptions/5.md). A message that nothing in the model sent is in flight from here on, at its receiver. A die that
is down or lost receives nothing (spec/06 R168), and the Basin end answers its snoops (spec/03 R80). `row` says that it
is one of the row's; a message of an illegal opcode may come as any row. -/
def State.arrive (s : State) (m : Msg) (row : Bool) (f : State → State) : Out :=
  if m.dstPkg ≠ s.pkgId ∨ !(row || msgIllegal m == some 0) then .next s
  else if decide (m.dstAgent < 12) && s.dieQuiet m.dstAgent then
    .next (if m.vc = vcSNP then (s.take m).send (s.quietAck m) else s.take m)
  else
    let known := s.net.contains m
    let s := if known then s else s.send m
    if s.mayTake m (!known || s.landed m) then .next (f (s.take m)) else .next s

/-- A message for an agent ID that R84 does not give (R93). DESIGN CHOICE (notes/assumptions/51.md): the home slice of its
line answers for it. -/
def State.strayIn (s : State) (m : Msg) : State := s.homeIllegal (s.homeSlice (m.addr * 64)) m 1

/-- What an agent does with a message that R91 or R92 makes illegal for it (R93): a die or an I/O agent discards and
records it, a home slice answers a REQ or a WB_DIRTY too. -/
def State.illegalIn (s : State) (m : Msg) (kind : Nat) : State :=
  if isHomeAgent m.dstAgent then
    let n := m.dstAgent - agHOME
    if m.vc = vcREQ ∨ m.vc = vcWB ∨ s.lineLocal m.addr then s.homeIllegal n m kind else s.pxProtoErr n m kind
  else if m.dstAgent < 12 then s.dieProtoErr m.dstAgent m
  else if isIoAgent m.dstAgent then s.ioProtoErr m
  else s.strayIn m

/-- Deliver a message by the kind of its receiver: home slice or proxy, die agent, I/O agent. An illegal message, and one
from a package that is not served (R93), reaches no more than its record. -/
def State.deliver (s : State) (m : Msg) (home : State → Nat → State) (die io : State → State) : State :=
  if isHomeAgent m.dstAgent && !s.pkgServed m.srcPkg then s.protoErr (m.dstAgent - agHOME) m 4
  else
    match msgIllegal m with
    | some kind => s.illegalIn m kind
    | none =>
      if isHomeAgent m.dstAgent then home s (m.dstAgent - agHOME)
      else if m.dstAgent < 12 then die s
      else if isIoAgent m.dstAgent then io s
      else s.strayIn m

/-! ## Requests at a home slice or proxy (R93, R94, R115, R125, R128) -/

/-- Why the address of a request is refused, as the CAUSE of PKG_DECODE_ERR; `none` where it is backed memory of this
package. -/
def State.homeRefuses (s : State) (line : Nat) : Option Nat :=
  let a := line * 64 % 2 ^ 44
  if !s.lineLocal line then some 0
  else if (s.backed a).isSome then none
  else
    match s.rangeOf a with
    | .unbacked => some 1
    | .cxl _ => some 1
    | .reserved => some 0
    | _ => some 3

/-- A request that is taken out of arbitration (R125) gets a lock slot or RETRY (R128). -/
def State.homeTake (s : State) (n : Nat) (m : Msg) (px : Bool) : State :=
  let r := s.arbitrate n m
  match r.1 with
  | .refuse => r.2
  | .accept htag =>
    let s := r.2.count (ctrHome n) 1 (some m.opc) (some (m.rcid, m.mcid))
    if px then s.pxBegin n htag m else s.txnBegin n htag m

/-- Is a request one for a copy, which only a holder may keep (R85, R102)? -/
def Msg.wantsCopy (m : Sys2Proof.Msg) : Bool := m.opc == opRD_SHARED || m.opc == opRD_OWN || m.opc == opUPGRADE

/-- Does a request write: the WRITE bit of PKG_DECODE_ERR (spec/01 R32)? -/
def Msg.writes (m : Sys2Proof.Msg) : Bool := m.opc == opWR_FULL || m.opc == opWR_PART || m.opc == opATOMIC

/-- A REQ reaches home slice or proxy `n`. A peer's request that spec/01 R32 refuses is recorded with CAUSE 1 where it is
unbacked memory and otherwise with CAUSE 3, DESIGN CHOICE (notes/assumptions/50.md): both 0 and 3 fit a reserved range. -/
def State.homeRequest (s : State) (n : Nat) (m : Msg) : State :=
  let peer := m.srcPkg ≠ s.pkgId
  let s := s.arbTaken n m
  if !s.pkgServed m.srcPkg then
    ((s.sendErr n m 2).protoErr n m 4).decodeErr 3 3 0 m.srcPkg (m.addr * 64) (Msg.writes m)
  else
    match msgIllegal m with
    | some kind => s.homeIllegal n m kind
    | none =>
      if Msg.wantsCopy m ∧ s.holderOf m.srcPkg m.srcAgent = none then s.homeIllegal n m 1
      else if m.srcPkg == s.pkgId && decide (m.srcAgent < 12) && !s.lineLocal m.addr then s.homeTake n m true
      else
        match s.homeRefuses m.addr with
        | some c =>
          let s := s.sendErr n m 0
          if peer then s.decodeErr (if c = 1 then 1 else 3) 3 0 m.srcPkg (m.addr * 64) (Msg.writes m) else s
        | none =>
          if s.fenced (m.addr * 64 % 2 ^ 44) then
            (s.sendErr n m 4).errRecord (bankHome n) errUED (m.addr * 64) (recInfo m.mcid m.rcid m.srcAgent m.srcPkg) s.fenceName
          else s.homeTake n m false

/-- A REQ arrives. -/
def State.reqIn (s : State) (m : Msg) : State :=
  if isHomeAgent m.dstAgent then s.homeRequest (m.dstAgent - agHOME) m else s.illegalIn m 1

/-! ## Snoops (R73, R116) -/

/-- A snoop reaches a die, or a proxy; no home snoops its own lines' home. -/
def State.snpIn (s : State) (m : Msg) : State :=
  s.deliver m (fun s n => if s.lineLocal m.addr then s.pxProtoErr n m 1 else s.pxSnoop n m)
    (fun s => s.dieSnoop m.dstAgent m) (fun s => s.ioProtoErr m)

/-! ## Answers to snoops (R105, R135, R136) -/

/-- A snoop response reaches slice `n`: what its HTAG names takes it, and what waited for it is decided. -/
def State.ansIn (s : State) (m : Msg) : State :=
  s.deliver m (fun s n =>
      match s.holderOf m.srcPkg m.srcAgent with
      | none => s.protoErr n m 2
      | some h =>
        match s.ansSlot n m.htag m.addr h with
        | some (k, t) =>
          if t.proxy then (s.pxDieAnswer n k t h m).pxAgain n else (s.txnAnswer n k t h m).wbAgain n m.addr h
        | none => if s.lineLocal m.addr then s.protoErr n m 2 else s.pxProtoErr n m 2)
    (fun s => s.dieProtoErr m.dstAgent m) (fun s => s.ioProtoErr m)

/-! ## Completions (R107, R114) -/

/-- Is a completion from a requester the requester's of the slot? -/
def HTxn.isReq (t : HTxn) (m : Msg) : Bool :=
  t.work == .request && t.line == m.addr && t.req.srcPkg == m.srcPkg && t.req.srcAgent == m.srcAgent &&
  t.req.txn == m.txn

/-- A completion that matches no transaction of slice `n` (R93). -/
def State.noMatch (s : State) (n : Nat) (m : Msg) : State :=
  if s.lineLocal m.addr then s.protoErr n m 2 else s.pxProtoErr n m 2

/-- CLOSE reaches slice `n` (R107). -/
def State.closeIn (s : State) (m : Msg) : State :=
  s.deliver m (fun s n =>
      match s.lock n m.htag with
      | some t =>
        if t.isReq m then
          let s := s.setLock n m.htag (some { t with closed := true })
          if t.proxy then (s.pxTryClose n m.htag).pxAgain n else s.tryClose n m.htag
        else s.noMatch n m
      | none => s.noMatch n m)
    (fun s => s.dieProtoErr m.dstAgent m) (fun s => s.ioProtoErr m)

/-- COMMIT reaches slice `n`: the ordered write is performed, and its transaction closes (R107, R114). -/
def State.commitIn (s : State) (m : Msg) : State :=
  s.deliver m (fun s n =>
      match s.lock n m.htag with
      | some t =>
        if t.isReq m && t.phase == .ready then
          if t.proxy then (s.pxCommit n m.htag t).pxAgain n
          else ((s.ncWrite n t).setLock n m.htag (some { t with phase := .close, done := true })).tryClose n m.htag
        else s.noMatch n m
      | none => s.noMatch n m)
    (fun s => s.dieProtoErr m.dstAgent m) (fun s => s.ioProtoErr m)

/-- A message to a proxy as a requester: the slot that its TXN names, waiting for the remote home. -/
def State.pxWaiting (s : State) (n : Nat) (m : Msg) : Option HTxn :=
  match s.lock n m.txn with
  | some t =>
    if t.proxy && t.work == .request && t.phase == .remote && t.line == m.addr && (t.line * 64 / 2 ^ 44 == m.srcPkg)
    then some t else none
  | none => none

/-- A reply of a home reaches a proxy, a die or an I/O agent. -/
def State.replyIn (s : State) (m : Msg) (die : State → State) (io : State → State) : State :=
  s.deliver m (fun s n =>
      match s.pxWaiting n m with
      | some t => (s.pxRemoteReply n m.txn t m).pxAgain n
      | none => s.pxProtoErr n m 2) die io

/-! ## Refusals and grants (R128 to R131) -/

/-- RETRY reaches a proxy, a die or an I/O agent. -/
def State.retryIn (s : State) (m : Msg) : State :=
  s.deliver m (fun s n =>
      match s.pxWaiting n m with
      | some t => s.pxRetry n m.txn t m
      | none => s.pxProtoErr n m 2)
    (fun s => s.dieRetry m.dstAgent m) (fun s => s.ioRetry m)

/-- CREDIT_GRANT reaches a proxy, a die or an I/O agent. -/
def State.grantIn (s : State) (m : Msg) : State :=
  s.deliver m (fun s n => s.pxGrant n m) (fun s => s.dieGrant m.dstAgent m) (fun s => s.ioGrant m)

/-! ## Writebacks (R108, R135, R139) -/

/-- A WB_DIRTY reaches slice `n`. -/
def State.wbIn (s : State) (m : Msg) : State :=
  if isHomeAgent m.dstAgent then
    let n := m.dstAgent - agHOME
    if !s.pkgServed m.srcPkg then s.protoErr n m 4
    else
      let s := s.count (ctrHome n) 7 none (some (m.rcid, m.mcid))
      if msgIllegal m ≠ none then s.homeIllegal n m 1
      else if m.srcPkg == s.pkgId && decide (m.srcAgent < 12) && !s.lineLocal m.addr then s.pxWbIn n m
      else if (s.homeRefuses m.addr).isSome then s.homeIllegal n m 1
      else s.homeWb n m
  else s.illegalIn m 1

/-- The writebacks of a writer that slice `n` holds. -/
def State.wbOf (s : State) (n : Nat) (m : Msg) : Nat :=
  (s.home.wbHeld.filter (fun e => e.1 == n && e.2.srcPkg == m.srcPkg && (decide (m.srcPkg ≠ s.pkgId) || e.2.srcAgent == m.srcAgent))).length

/-- A WB_DIRTY arrives where its writer has one of the 8 writeback buffers free, or needs none (R135, R140). -/
def State.wbArrive (s : State) (m : Msg) (row : Bool) : Out :=
  match s.arrive m row (fun s => s.wbIn m) with
  | .next t => if 8 < t.wbOf (m.dstAgent - agHOME) m then .next s else .next t
  | o => o

/-- WB_ACK or WB_ACK_STALE reaches a writer (R134, R139). -/
def State.wbAckIn (s : State) (m : Msg) : State :=
  s.deliver m (fun s n => (s.pxWbDone n m).pxAgain n) (fun s => s.dieWbAck m.dstAgent m) (fun s => s.ioProtoErr m)

/-! ## Data (R102 to R104, R107, R118) -/

/-- Data reaches slice `n`: a proxy's reply from a remote home, or what a snoop asked for. -/
def State.homeData (s : State) (n : Nat) (m : Msg) : State :=
  if m.srcPkg ≠ s.pkgId ∧ !s.lineLocal m.addr then
    match s.pxWaiting n m with
    | some t =>
      if !m.payload && s.pxOpcode n t != opUPGRADE then s.pxProtoErr n m 1 else (s.pxRemoteReply n m.txn t m).pxAgain n
    | none => s.pxProtoErr n m 2
  else if !m.payload then s.illegalIn m 1
  else
    match (s.slotsOf n m.txn m.addr).find? (fun e => e.2.toHome), s.holderOf m.srcPkg m.srcAgent with
    | some (k, t), some h =>
      if t.proxy then (s.pxDieData n k t m).pxAgain n else (s.txnData n k t m).wbAgain n m.addr h
    | _, _ => s.noMatch n m

/-- Data reaches a home (as the target of a snoop), a proxy, a die or an I/O agent. DATA_O is illegal everywhere. -/
def State.dataIn (s : State) (m : Msg) : State :=
  s.deliver m (fun s n => s.homeData n m) (fun s => s.dieDataIn m.dstAgent m) (fun s => s.ioData m)

/-- A die takes data that it may have to write back only while its writeback buffer has room (spec/03 R63). -/
def State.dataArrive (s : State) (m : Msg) (row : Bool) : Out :=
  if m.dstPkg == s.pkgId && decide (m.dstAgent < 12) && !s.wbRoom m.dstAgent then .next s
  else s.arrive m row (fun s => s.dataIn m)

end Sys2Proof.Machine
end

