-- ==== Sys2Proof/Machine/MemRows.lean ====
section
/-!
DEFINITION. The commands of the memory channels and the Mesa cache (spec/07_memory_channels.md, spec/08_mesa_cache.md,
spec/14 R332).
-/

namespace Sys2Proof.Machine

/-! ## Training and the whole-memory fill (R171 to R174, R180 to R182) -/

/-- Is every bit of `m` among `ok`? -/
def onlyIn (m ok : Nat) : Bool := m &&& ok == m

def chOdd : Nat := 0xAAAA
def chEven : Nat := 0x5555
def ch12 : Nat := 0x7777

/-- R174: the channel mode, the spare (0xF where there is none) and the active set, from the channels populated and
failing and the preference; `none` where start-up stops. The active set includes a spare that serves as one. -/
def chooseMode (pop fail pref spare : Nat) : Option (Nat × Nat × Nat) :=
  let n := popCount 16 fail
  if pop = 0xFFFF then
    if n = 0 then (if pref = 3 then some (3, spare, 0xFFFF) else some (0, 0xF, 0xFFFF))
    else if n = 1 then some (3, ((List.range 16).find? (fun c => fail.testBit c)).getD 0, 0xFFFF ^^^ fail)
    else if n ≤ 4 ∧ onlyIn fail 0x8888 then some (1, 0xF, ch12)
    else if onlyIn fail chOdd then some (2, 0xF, chEven)
    else none
  else if pop = ch12 then
    if n = 0 then some (1, 0xF, ch12)
    else if onlyIn fail 0x2222 then some (2, 0xF, chEven)
    else none
  else if pop = chEven then (if n = 0 then some (2, 0xF, chEven) else none)
  else none

/-- The module in slot `i` of a channel, its serial number, and the modules of a channel. -/
def TrainRes.dimm (x : TrainRes) (c i : Nat) : Option Dimm := x.dimms.getD (2 * c + i) none
def TrainRes.spd (x : TrainRes) (c i : Nat) : Nat := match TrainRes.dimm x c i with | some d => d.spd | none => 0
def TrainRes.on (x : TrainRes) (c : Nat) : List Dimm := [TrainRes.dimm x c 0, TrainRes.dimm x c 1].filterMap id

/-- The channels populated, as a mask. -/
def TrainRes.pop (x : TrainRes) : Nat := foldN 16 0 (fun c m => if (TrainRes.on x c).isEmpty then m else m ||| 1 <<< c)

/-- What R171 wants alike on every channel: MRDIMM, x8 devices, DPC, and the capacity of the channel in GiB. -/
def TrainRes.shape (x : TrainRes) (c : Nat) : Bool × Bool × Nat × Nat :=
  let ds := TrainRes.on x c
  (ds.any (fun d => d.kind == .mrdimm), ds.any (fun d => d.x8), ds.length, (ds.map (·.gib)).foldl (· + ·) 0)

/-- The shape that most populated channels have, the first among equals. -/
def TrainRes.common (x : TrainRes) : Bool × Bool × Nat × Nat :=
  let l := ((List.range 16).filter (fun c => !(TrainRes.on x c).isEmpty)).map (TrainRes.shape x)
  l.foldl (fun best g => if l.count best < l.count g then g else best) (l.headD (false, false, 0, 0))

/-- Is a module one that R171 lists? -/
def Dimm.listed (d : Dimm) : Bool :=
  decide (1 ≤ d.ranks) && decide (d.ranks ≤ 4) &&
  (match d.kind with
   | .rdimm => [16, 32, 48, 64, 96, 128, 256].contains d.gib
   | .mrdimm => !d.x8 && [32, 64, 128, 256].contains d.gib
   | .other => false)

/-- Do the modules of a channel break R171? Where the channels of the package are not all alike, the ones that break it are
those that differ from most (notes/assumptions/53.md). -/
def TrainRes.breaks (x : TrainRes) (c : Nat) : Bool :=
  let ds := TrainRes.on x c
  ds.any (fun d => !Dimm.listed d) ||
  (match ds with | [a, b] => a.kind != .rdimm || b.kind != .rdimm || a.x8 != b.x8 | _ => false) ||
  decide (8 < (ds.map (·.ranks)).foldl (· + ·) 0) || TrainRes.shape x c != TrainRes.common x

/-- The rates that R171 gives a module type and DPC, lowest first. -/
def ratesOf (mrdimm : Bool) (dpc : Nat) : List Nat :=
  if mrdimm then [80, 88] else if dpc = 2 then [40, 44] else [48, 56, 64]

/-- The rate run (R172), and whether the cap lies below every rate (R361). -/
def rateRun (x : TrainRes) (cap : Nat) : Nat × Bool :=
  let k := TrainRes.common x
  let rs := ratesOf k.1 k.2.2.1
  match (rs.filter (fun r => decide (r ≤ cap) && (x.dimms.filterMap id).all (fun d => decide (r ≤ d.rate)))).getLast? with
  | some r => (r, false)
  | none => (rs.headD 0, decide (cap < rs.headD 0))

/-- The channels that count as failing (R174): those that do not train or break R171, and those recorded as retired or
failed whose modules are still the same (R186). -/
def State.failingChans (s : State) (x : TrainRes) : Nat :=
  let r := s.tvx.recs
  foldN 16 0 (fun c m =>
    let same (i : Nat) : Bool := Tbl.get (fun _ => 0) r.chanSpd (2 * c + i) == TrainRes.spd x c i
    if (TrainRes.pop x).testBit c && (x.fail.testBit c || TrainRes.breaks x c || (r.chan.testBit c && same 0 && same 1)) then m ||| 1 <<< c
    else m)

/-- Start-up stops (R174, R399): START_STOPPED, and hart 0 is never released. -/
def State.startStopped (s : State) (detail : Nat) : State :=
  let s : State := { s with pwr := { s.pwr with stage := .stopped } }
  s.logEvent 0x0072 sevURGENT noDie 0 detail

/-- A marks word with a SECOND left after its FIRST was cleared moved to the first place (R436). -/
def marksRestored (w : Word) : Word :=
  foldN 8 w (fun j w =>
    if bits w.toNat (8 * j) 4 = 0xF then wordPut (wordPut w (8 * j) 4 (bits w.toNat (8 * j + 4) 4)) (8 * j + 4) 4 0xF else w)

/-- The marks of a channel are restored where the same modules carry them (R178). -/
def State.restoreMarks (s : State) (c : Nat) : State :=
  let r := s.tvx.recs
  let same (i : Nat) : Bool := Tbl.get (fun _ => 0) r.markSpd (2 * c + i) == s.spdOf c i
  if same 0 && same 1 then
    (s.setReg (R.rMC_MARK c 0) (marksRestored (Tbl.get noMarks r.marks (2 * c)))).setReg (R.rMC_MARK c 1)
      (marksRestored (Tbl.get noMarks r.marks (2 * c + 1)))
  else (s.setReg (R.rMC_MARK c 0) (noMarks 0)).setReg (R.rMC_MARK c 1) (noMarks 0)

/-- Adopt a mode: the channels of its active set and the spare stay TRAINING, a failing channel is FAILED or
SPARE_FAILED, the others EMPTY (R174, R184). -/
def State.adoptMode (s : State) (m : Nat × Nat × Nat) : State :=
  let s : State := { s with pwr := { s.pwr with mode := m.1, spare := m.2.1, active := m.2.2 } }
  foldN 16 s (fun c s =>
    let st := if s.pwr.failing.testBit c then (if m.1 = 3 ∧ c = m.2.1 then chSPARE_FAILED else chFAILED)
      else if m.2.2.testBit c then chTRAINING else chEMPTY
    let old := s.chState c
    let s := s.setChState c st
    let s := if old ≠ st ∧ (st = chSPARE_FAILED ∨ st = chFAILED) then
        ((s.put (R.MC_EVENT_FAILED c) 1).logEvent 0x0033 sevURGENT noDie c) else s
    if st = chEMPTY then s.put (R.MC_CH_CONFIG_RATE c) 0 else s)

/-- The preference of item 2 (R360). -/
def State.modePref (s : State) : Nat × Nat := ((s.setting 2).getD 0 0, (s.setting 2).getD 1 15)

/-- MEM_TRAIN_COMPLETE: channel training ends, and the channel mode and spare are chosen (R172 to R174); the fill
starts (R180). -/
def execMemTrainComplete (x : TrainRes) (s : State) : Out :=
  if s.pwr.stage ≠ .training then .next s
  else
    let fail := s.failingChans x
    let rr := rateRun x (s.settingN 3)
    let s : State := { s with
      tvx := { s.tvx with spd := foldN 32 [] (fun i t => Tbl.set (fun _ => 0) t i (TrainRes.spd x (i / 2) (i % 2))) },
      pwr := { s.pwr with pop := TrainRes.pop x, failing := fail } }
    let s := if rr.2 then s.errRecord bankTvx errCE 0 0 3 else s
    let s := foldN 16 s (fun c s =>
      if (TrainRes.pop x).testBit c then
        let k := TrainRes.shape x c
        let s := (s.put (R.MC_CH_CONFIG_RATE c) rr.1).put (R.MC_CH_CONFIG_DPC c) k.2.2.1
        let s := (s.putB (R.MC_CH_CONFIG_MRDIMM c) k.1).putB (R.MC_CH_CONFIG_X8 c) k.2.1
        let s := (s.put (R.MC_CH_CONFIG_RANKS c) (((TrainRes.on x c).map (·.ranks)).foldl (· + ·) 0)).put (R.MC_CH_CONFIG_CAP_GIB c) k.2.2.2
        s.restoreMarks c
      else s)
    match chooseMode (TrainRes.pop x) fail s.modePref.1 s.modePref.2 with
    | none => .next (s.startStopped (1 + TrainRes.pop x <<< 8 + fail <<< 24))
    | some m =>
      let s := s.adoptMode m
      let s : State := { s with pwr := { s.pwr with stage := .filling } }
      .next (foldN 16 s (fun c s =>
        if s.chState c = chTRAINING then (s.put (R.MC_FILL_STATUS_STATE c) 1).put (R.MC_FILL_STATUS_FILLED_GIB c) 0 else s))

/-- Every DRAM line reads zero with good check symbols (R180). CXL memory is kept. -/
def State.zeroDram (s : State) : State :=
  { s with mem := s.mem.filter (fun e => decide (2 ^ 44 ≤ e.1)), marked := s.marked.filter (fun e => decide (2 ^ 38 ≤ e.1)) }

/-- Journal an entry's new record; the circular area keeps the newest 4,096 entries (R190). -/
def State.journal (s : State) (e : JEnt) : State :=
  { s with chan := { s.chan with journal := (e :: s.chan.journal).filter (fun x => decide (s.chan.jNext ≤ x.seq + 4096)) } }

/-- The newest record of a SEQ. -/
def State.jEntry (s : State) (seq : Nat) : Option JEnt := s.chan.journal.find? (fun e => e.seq == seq)

/-- The entries still in STARTED (R191). -/
def State.jStarted (s : State) : List JEnt :=
  ((s.chan.journal.map (·.seq)).eraseDups.filterMap (fun q => s.jEntry q)).filter (fun e => e.state == 1)

/-- A fill has zeroed the range of an interrupted entry (R191). -/
def State.jByFill (s : State) (p : JEnt → Bool) : State :=
  (s.jStarted.filter p).foldl
    (fun s e => (s.journal { e with state := 3, tEnd := s.pwr.now }).logEvent 0x0073 sevINFO noDie e.seq) s

/-- PKG_MEMMAP is written (R24, R182). -/
def State.publishMap (s : State) : State :=
  let gib := s.get (R.MC_CH_CONFIG_CAP_GIB (((List.range 16).find? (fun c => s.chState c == chACTIVE)).getD 0))
  let n := if s.pwr.mode = 0 then 16 else if s.pwr.mode = 1 then 12 else if s.pwr.mode = 2 then 8 else 15
  let c := n * gib
  let s := s.put R.PKG_MEMMAP_DRAM_TOP_GIB c
  let s := s.put R.PKG_MEMMAP_RELOC_BASE_GIB (if c = 8192 then 0 else c)
  let s := s.putB R.PKG_MEMMAP_HOLE_WITHHELD (c == 8192)
  let s := s.put R.PKG_MEMMAP_CHANNEL_MODE s.pwr.mode
  s.put R.PKG_MEMMAP_SPARE_CH s.pwr.spare

/-- A channel's place among the active channels of a mode: its ordinal (R30, MC_CH_STATUS.ORDINAL). -/
def ordinalOf (mode active spare c : Nat) : Nat :=
  if mode = 0 ∨ mode = 2 then c
  else ((List.range c).filter (fun j => active.testBit j && !(mode == 3 && j == spare)) ).length

/-- The fill of a channel ends: MC_FILL_STATUS, and its bytes are counted against an MCID (R180, R182, R192). How far a fill
that fails has come is open. -/
def State.fillEnd (s : State) (c eng mcid : Nat) (failed : Bool) : State :=
  let cap := s.get (R.MC_CH_CONFIG_CAP_GIB c)
  let (g, s) := if failed then let (w, s) := s.freeWord; (w.toNat % (cap + 1), s) else (cap, s)
  let s := (s.put (R.MC_FILL_STATUS_STATE c) (if failed then 3 else 2)).put (R.MC_FILL_STATUS_FILLED_GIB c) g
  s.chBytes c eng mcid true (g * 2 ^ 30)

/-- The fill of POR ends (R180, R182): a channel whose last mark of a rank-subchannel was restored is AT_RISK (R176). -/
def State.fillDone (s : State) (failed : Nat) : State :=
  let tried := foldN 16 0 (fun c m => if s.chState c = chTRAINING then m ||| 1 <<< c else m)
  let failed := failed &&& tried
  let s := foldN 16 s (fun c s => if failed.testBit c then (s.chLinkEvent c).fillEnd c engFILL 0 true else s)
  let s : State := { s with pwr := { s.pwr with failing := s.pwr.failing ||| failed } }
  match chooseMode s.pwr.pop s.pwr.failing s.modePref.1 s.modePref.2 with
  | none => s.startStopped (1 + s.pwr.pop <<< 8 + s.pwr.failing <<< 24)
  | some m =>
    let s := if failed = 0 then s else s.adoptMode m
    let s := foldN 16 s (fun c s =>
      if s.chState c = chTRAINING then
        let s := s.fillEnd c engFILL 0 false
        if m.1 = 3 ∧ c = m.2.1 then s.setChState c chSPARE
        else (s.setChState c chACTIVE).put (R.MC_CH_STATUS_ORDINAL c) (ordinalOf m.1 m.2.2 m.2.1 c)
      else if failed.testBit c then s
      else s.put (R.MC_FILL_STATUS_STATE c) 0)
    let s := s.zeroDram.publishMap
    let s := s.jByFill (fun e => decide (e.op = 3 ∨ e.base < 2 ^ 43))
    let s := foldN 16 s (fun c s => s.chAtRisk c)
    { s with pwr := { s.pwr with stage := .image } }

/-- Lines that one channel carries. -/
def State.chLines (s : State) (c : Nat) : Nat := s.chCap c / 64

def sanPHASE_OVERWRITE : Nat := 1
def sanPHASE_VERIFY : Nat := 2

/-- The sanitise registers follow the engine (MC_SAN_STATUS, MC_SAN_BASE, MC_SAN_LENGTH): they read alike everywhere. -/
def State.sanRegs (s : State) : State :=
  foldN 16 s (fun n s =>
    let x := s.chan.san
    let s := (s.put (R.MC_SAN_STATUS_OP n) x.op).put (R.MC_SAN_STATUS_PHASE n) x.phase
    let s := s.putB (R.MC_SAN_STATUS_FENCE n) x.fence
    let s := match x.ent with | some e => s.put (R.MC_SAN_STATUS_JOURNAL_SEQ n) e.seq | none => s
    if x.op = 0 then s
    else (s.put (R.MC_SAN_BASE_VALUE n) (x.base / 4096)).put (R.MC_SAN_LENGTH_VALUE n) (x.len / 4096))

def State.setSan (s : State) (x : SanSt) : State := ({ s with chan := { s.chan with san := x } } : State).sanRegs

/-- Count lines that failed verification, on a slice. -/
def State.sanFail (s : State) (n k : Nat) : State :=
  (({ s with chan := { s.chan with san := { s.chan.san with fails := s.chan.san.fails + k } } } : State)).bump
    (R.MC_SAN_PROGRESS_VERIFY_FAILS n) k

/-- Pages of the first `k` bytes of the sanitise's range that lie on a channel. -/
def State.sanPagesOn (s : State) (c k : Nat) : Nat :=
  foldN (k / 4096) 0 (fun i m => if (s.dramPlace (s.dOfLine ((s.pkgId * 2 ^ 44 + s.chan.san.base + 4096 * i) / 64))).1 = c then m + 1 else m)

/-- A channel becomes FAILED during a sanitise: the lines of the range on it that no read is to verify any more count in
VERIFY_FAILS (R193). -/
def State.sanChFailed (s : State) (c : Nat) : State :=
  let x := s.chan.san
  let k := if x.op = 2 then x.len else if x.phase = sanPHASE_VERIFY then x.next else 0
  if x.op = 0 ∨ 2 ^ 43 ≤ x.base then s
  else if x.op = 3 then
    let before := ((List.range c).filter (fun j => s.get (R.MC_FILL_STATUS_STATE j) == 2)).foldl (fun k j => k + s.chCap j) 0
    s.sanFail c (min (s.chCap c) (k - before) / 64)
  else s.sanFail c (64 * s.sanPagesOn c k)

/-- A channel enters FAILED (R184, R186, R207). Its modules are recorded, so that it returns only with others (R186). -/
def State.chFail (s : State) (c : Nat) : State :=
  let s := s.sanChFailed c
  let s := (s.setChState c chFAILED).put (R.MC_EVENT_FAILED c) 1
  ((s.logEvent 0x0033 sevURGENT noDie c).recChan c).mesaInvAll

/-- The copy is over, with whatever outcome: the copy registers of both ends. -/
def State.copyClose (s : State) (src tgt : Nat) (ev : Nat → FRef) : State :=
  let s := (s.put (R.MC_COPY_STATUS_RUNNING src) 0).put (R.MC_COPY_STATUS_RUNNING tgt) 0
  let s := (s.put (R.MC_COPY_STATUS_PARTNER src) 0xF).put (R.MC_COPY_STATUS_PARTNER tgt) 0xF
  (s.put (ev src) 1).put (ev tgt) 1

/-- One held write that its channel may take now is performed; `later` are those that wait before it. -/
def State.chTry (s : State) (later : List (Nat × Option Line × Option Nat)) (w : Nat × Option Line × Option Nat) :
    State × List (Nat × Option Line × Option Nat) :=
  let lim : Bool := match w.2.2 with | some c => !s.mcAdmits w.1 c | none => false
  if s.storeStops w.1 || later.any (fun x => x.1 == w.1) || lim then (s, later ++ [w])
  else
    let s := match w.2.2 with | some c => s.mcCharge w.1 c | none => s
    let s := s.storePut w.1 w.2.1
    ({ s with home := { s.home with chHeld := s.home.chHeld.erase w } }, later)

/-- What a controller held goes on, where it is no longer stopped and is admitted: the writes are performed, those to one
line in their order, the answers that waited for them are sent, and
the locks kept for them are released (R179, R185, R193; spec/09 R220). -/
def State.chFlush (s : State) : State :=
  let held := s.home.chHeld
  let r := held.foldl (fun a w => a.1.chTry a.2 w) (s, [])
  let s := r.1
  let due := held.filter (fun w => !r.2.contains w)
  ((due.map (fun w => s.gaOfD w.1 / 64)).eraseDups.filter (fun l => !s.lineHeld l)).foldl (fun s line =>
    let mine := s.home.parked.filter (fun m => m.addr == line)
    let s : State := { s with home := { s.home with parked := s.home.parked.filter (fun m => m.addr != line) } }
    let s := mine.foldl (fun s m => s.send m) s
    let n := s.homeSlice (line * 64)
    match s.lockOf n line with
    | some h =>
      match s.lock n h with
      | some t => if t.phase = .store then s.releaseNow n h line else s
      | none => s
    | none => s) s

/-- LINES_DONE starts again with a phase. -/
def State.sanZeroDone (s : State) : State := foldN 16 s (fun n s => s.put (R.MC_SAN_PROGRESS_LINES_DONE n) 0)

/-- The copy of a channel whose fill fails is abandoned: the source as it was, the target the spare again (DESIGN CHOICE,
notes/assumptions/53.md: R180 gives the failed channel's state only). -/
def State.copyDrop (s : State) (c : Nat) : State :=
  let p := s.get (R.MC_COPY_STATUS_PARTNER c)
  if s.chState c = chCOPY_SOURCE then (s.copyClose c p R.MC_EVENT_COPY_ABORTED).setChState p chSPARE
  else if s.chState c = chCOPY_TARGET then (s.copyClose p c R.MC_EVENT_COPY_ABORTED).setChState p (s.chPrev p)
  else s

/-- The fill of SANITISE_DEVICE ends: a channel whose fill fails goes to FAILED, its lines counted (R180). The traffic is
the sanitise's, and metered to its MCID (R187). -/
def State.sanFillDone (s : State) (failed : Nat) : State :=
  let s : State := { s.zeroDram with home := { s.home with chHeld := [] } }
  let mcid := s.chan.san.mcid
  let s := foldN 16 s (fun c s =>
    if s.get (R.MC_FILL_STATUS_STATE c) = 1 then
      if failed.testBit c then
        let s := ((s.chLinkEvent c).chRetrainOver c).fillEnd c engSAN mcid true
        ((s.copyDrop c).chFail c).sanFail c (s.chLines c)
      else s.fillEnd c engSAN mcid false
    else s)
  let s := s.chFlush
  (s.setSan { s.chan.san with phase := sanPHASE_VERIFY, next := 0 }).sanZeroDone

/-- MEM_FILL_COMPLETE: the fill of every channel ends, `failed` being the channels whose fill failed (R180, R182). -/
def execMemFillComplete (failed : Nat) (s : State) : Out :=
  if s.pwr.stage = .filling then .next (s.fillDone failed)
  else if s.chan.san.op = 3 ∧ s.chan.san.phase = sanPHASE_OVERWRITE then .next (s.sanFillDone failed)
  else .next s

/-! ## Reads (R95, R197, R198, R214) -/

/-- Memory data reaches a waiting transaction: it may install, and the transaction goes on (R118, R197). -/
def State.memAnswer (s : State) (n htag : Nat) (t : HTxn) (r : MemRes) : State :=
  let d := s.dOfLine t.line
  match r with
  | .good l =>
    let s := if t.alloc && s.mesaServes n then s.mesaInstall n d t.req.rcid t.req.mcid t.way l else s
    s.txnFinish n htag { t with got := some (l, false) }
  | .bad _ => s.txnFinish n htag { t with got := some (0, true) }

/-- MEMORY_READ_DATA: the data of a transaction's line returns from its channel or region, with the bad symbols of this
read (R95, R176). It does not return while the channel holds the request (R179, R185) or does not admit it (spec/09 R220),
nor for a transaction that waits for an extra-block read (R214). -/
def execMemoryReadData (n : Ix16) (htag : Fin 512) (errs : Errs) (s : State) : Out :=
  match s.lock n htag with
  | none => .next s
  | some t =>
    let d := s.dOfLine t.line
    if t.phase ≠ .memory ∨ t.proxy ∨ s.storeHolds d ∨ (s.extra n).any (fun e => e.wait.contains htag.val) ∨
        !s.mcAdmits d t.req.rcid then .next s
    else
      let r := (s.mcCharge d t.req.rcid).storeRead d errs (t.line * 64) t.req.mcid
      .next ((r.2.memBytes d t.req.mcid false t.req.rcid).memAnswer n htag t r.1)

/-- EXTRA_BLOCK_RETURN: a pending extra-block read of a line returns and installs into its sector; demand reads that
waited for it are answered (R198, R214). Uncorrectable data installs nothing. -/
def execExtraBlockReturn (n : Ix16) (line : Nat) (errs : Errs) (s : State) : Out :=
  match (s.extra n).find? (fun e => e.line == line) with
  | none => .next s
  | some e =>
    let d := line * 64
    if s.storeHolds d then .next s
    else
      let r := s.storeRead d errs (s.gaOfD d) e.mcid
      let s := (r.2.memBytes d e.mcid false e.rcid).setExtra n ((s.extra n).filter (fun x => x.line != line))
      let s := match r.1 with
        | .good l => s.mesaInstallExtra n d l
        | .bad _ => s
      .next (e.wait.foldl (fun s h =>
        match s.lock n h with
        | some t => if t.phase = .memory then s.memAnswer n h { t with alloc := false } r.1 else s
        | none => s) s)

/-! ## Channel events (R178, R179, R184 to R186, R193) -/

/-- CHANNEL_LINK_ERROR: a write CRC or parity error that the controller retries (R178). -/
def execChannelLinkError (ch : Ix16) (s : State) : Out := .next (s.chLinkEvent ch)

/-- CHANNEL_RETRAIN_COMPLETE: a runtime retrain succeeds (R179, R184); a copy start held behind it begins (R193). -/
def execChannelRetrainComplete (ch : Ix16) (s : State) : Out :=
  if s.chRetrain ch then
    let s := s.chRetrainOver ch
    let s := if s.chState ch = chRETRAINING then s.setChState ch (s.chPrev ch) else s
    let s := (s.put (R.MC_EVENT_RETRAINED ch) 1).chAtRisk ch
    let s := if s.chan.heldStart.contains ch.val then
        ({ s with chan := { s.chan with heldStart := s.chan.heldStart.erase ch.val } } : State).copyStart ch
      else s
    .next s.chFlush
  else .next s

/-- The lines from a channel byte address on are marked on a channel (R184). -/
def State.markRest (s : State) (src tgt from' : Nat) : State :=
  -- Unlisted lines read zero; marking every line not yet copied is recorded line by line.
  foldN ((s.chCap src - from') / 64) s (fun i s => s.markAt (chanCell tgt (from' + 64 * i)))

/-- The target takes the source's ordinal, and the source is RETIRED (R184). Marks that the target has count from now on
(R176). -/
def State.copySwap (s : State) (src tgt : Nat) : State :=
  let ord := s.get (R.MC_CH_STATUS_ORDINAL src)
  let s := (s.setChState src chRETIRED).put (R.MC_CH_STATUS_ORDINAL src) 0x1F
  let s := (s.setChState tgt chACTIVE).put (R.MC_CH_STATUS_ORDINAL tgt) ord
  (s.recChan src).chAtRisk tgt

/-- CHANNEL_RETRAIN_TIMEOUT: a retrain does not pass within 500 µs and is tried again; the third failure in a row takes
the channel to FAILED, or ends a copy (R179, R184, R193). -/
def execChannelRetrainTimeout (ch : Ix16) (s : State) : Out :=
  if s.chRetrain ch then
    let n := Tbl.get (fun _ => 0) s.chan.fails ch + 1
    if n < 3 then .next (s.setChFails ch n)
    else
      let s := s.chRetrainOver ch
      let st := s.chState ch
      if st = chCOPY_TARGET then
        let src := s.get (R.MC_COPY_STATUS_PARTNER ch)
        let s := s.copyClose src ch R.MC_EVENT_COPY_ABORTED
        let s := s.setChState src (s.chPrev src)
        let s := ((s.setChState ch chSPARE_FAILED).put (R.MC_EVENT_FAILED ch) 1).logEvent 0x0033 sevURGENT noDie ch
        .next (s.chAtRisk src).chFlush
      else if st = chCOPY_SOURCE then
        let tgt := s.get (R.MC_COPY_STATUS_PARTNER ch)
        let s := s.markRest ch tgt (s.get (R.MC_COPY_STATUS_POINTER ch))
        let s := s.copyClose ch tgt R.MC_EVENT_COPY_DONE
        .next ((s.copySwap ch tgt).logEvent 0x0032 sevINFO noDie ch).chFlush
      else
        let s := if s.chan.heldStart.contains ch.val then
            let s : State := { s with chan := { s.chan with heldStart := s.chan.heldStart.erase ch.val } }
            (s.put (R.MC_COPY_STATUS_REJECTED ch) 1).put (R.MC_COPY_STATUS_REJECT_CAUSE ch) 2
          else s
        .next (s.chFail ch).chFlush
  else .next s

/-- COPY_START: MC_COPY_CTL.START, or the automatic start that AT_RISK and AUTO allow (R184, R193). -/
def execCopyStart (ch : Ix16) (auto : Bool) (s : State) : Out :=
  if auto then
    if s.chState ch = chAT_RISK ∧ s.get (R.MC_COPY_CTL_AUTO ch) = 1 ∧ s.copyReject ch = none then .next (s.copyStart ch)
    else .next s
  else .next (s.copyStart ch)

/-- COPY_LINE: the copy engine moves the line at the pointer onto the target, encoded afresh; an uncorrectable line is
written with the marker (R185). Its bytes count against MCID 0 (R192). -/
def execCopyLine (ch : Ix16) (errs : Errs) (s : State) : Out :=
  let tgt := s.get (R.MC_COPY_STATUS_PARTNER ch)
  let x := s.get (R.MC_COPY_STATUS_POINTER ch)
  if s.chState ch = chCOPY_SOURCE ∧ ¬ s.chRetrain ch ∧ ¬ s.chRetrain tgt ∧ x < s.chCap ch then
    let r := s.chRead ch x errs 0 0
    let s := match r.1 with
      | .good l => r.2.setLineAt (chanCell tgt x) l
      | .bad _ => r.2.markAt (chanCell tgt x)
    let s := (s.chBytes ch engCOPY 0 false 64).chBytes tgt engCOPY 0 true 64
    .next ((s.put (R.MC_COPY_STATUS_POINTER ch) (x + 64)).put (R.MC_COPY_STATUS_POINTER tgt) (x + 64)).chFlush
  else .next s

/-- COPY_COMPLETE: the pointer reaches the capacity: the source is RETIRED, recorded in the settings store, and the
target takes its ordinal (R184). -/
def execCopyComplete (ch : Ix16) (s : State) : Out :=
  let tgt := s.get (R.MC_COPY_STATUS_PARTNER ch)
  if s.chState ch = chCOPY_SOURCE ∧ ¬ s.chRetrain ch ∧ ¬ s.chRetrain tgt ∧ s.get (R.MC_COPY_STATUS_POINTER ch) = s.chCap ch then
    let s := s.copyClose ch tgt R.MC_EVENT_COPY_DONE
    .next ((s.copySwap ch tgt).logEvent 0x0032 sevINFO noDie ch).chFlush
  else .next s

/-! ## Drizzle patrol of DRAM (spec/14 R332, R334) -/

/-- The decode address of a channel byte address, where its channel carries an ordinal: the inverse of R30. -/
def chanD (mode ord x : Nat) : Nat :=
  let page := x / 4096
  let p :=
    if mode = 0 then page * 16 + (ord ^^^ xorGroups (page <<< 16) 16 7)
    else if mode = 1 then page * 12 + ord
    else if mode = 2 then (page / 2) * 16 + ((ord + page % 2) ^^^ xorGroups ((page / 2) <<< 16) 16 7)
    else page * 15 + ord
  p * 4096 + x % 4096

/-- Is a channel patrolled? -/
def State.patrolled (s : State) (c : Nat) : Bool :=
  let st := s.chState c
  st == chACTIVE || st == chAT_RISK || st == chSPARE || st == chCOPY_SOURCE

/-- Advance the patrol of a channel; the pass ends when every patrolled channel has been read whole. -/
def State.patrolStep (s : State) (c : Nat) : State :=
  let x := Tbl.get (fun _ => 0) s.ras.patrolDram c + 64
  if x < s.chCap c then { s with ras := { s.ras with patrolDram := Tbl.set (fun _ => 0) s.ras.patrolDram c x } }
  else
    let done := s.ras.patrolDone ||| 1 <<< c
    let all := (List.range 16).all (fun c => !s.patrolled c || done.testBit c)
    let s : State := { s with ras := { s.ras with patrolDram := Tbl.set (fun _ => 0) s.ras.patrolDram c 0,
                                                  patrolDone := if all then 0 else done } }
    if all then s.bump R.RAS_PATROL_STATUS_DRAM_PASSES 1 else s

/-- DRAM_PATROL_LINE: the patrol reads the next line of a channel under its lock, rewrites what it corrected and marks
what it could not (R332). A fenced line is passed over; a locked or held one is taken later. -/
def execDramPatrolLine (ch : Ix16) (errs : Errs) (s : State) : Out :=
  let x := Tbl.get (fun _ => 0) s.ras.patrolDram ch
  let ord := s.get (R.MC_CH_STATUS_ORDINAL ch)
  let d := chanD (s.get R.PKG_MEMMAP_CHANNEL_MODE) ord x
  let ga := if ord < 16 then s.gaOfD d else 0
  if ¬ s.patrolled ch ∨ s.get R.RAS_PATROL_CTL_DRAM_PERIOD = 0 ∨ s.ras.patrolDone.testBit ch then .next s
  else if ord < 16 ∧ s.fenced (ga % 2 ^ 44) then .next (s.patrolStep ch)
  else if ord < 16 ∧ ((s.lockOf (sliceOf d) (ga / 64)).isSome ∨ s.chHolds ch x) then .next s
  else
    let a := chanCell ch x
    let only := match s.judge ch x errs with | .corrected _ true _ => true | .clean _ => true | _ => false
    let was := match s.judge ch x errs with | .marker => true | _ => false
    let r := s.chRead ch x errs ga 0
    let s := r.2.chBytes ch engPATROL 0 false 64
    let wrote (s : State) : State := s.chBytes ch engPATROL 0 true 64
    let s := match r.1 with
      | .good l => if only then s else wrote (s.setLineAt a l)
      | .bad _ => if was then s else wrote (s.markAt a)
    .next (s.patrolStep ch)

/-! ## The sanitise engine (R187 to R191) -/

/-- The record of the running operation in the journal is brought up to date. -/
def State.sanJournal (s : State) (f : JEnt → JEnt) : State :=
  match s.chan.san.ent with
  | some e =>
    let e := f e
    ({ s with chan := { s.chan with san := { s.chan.san with ent := some e } } } : State).journal e
  | none => s

/-- The lines of SANITISE_DEVICE's verify pass: every line of every filled channel, channel by channel. -/
def State.sanDevPlace (s : State) (next : Nat) : Option (Nat × Nat) :=
  (List.range 16).findSome? (fun c =>
    let before := ((List.range c).filter (fun j => s.get (R.MC_FILL_STATUS_STATE j) == 2)).foldl (fun k j => k + s.chCap j) 0
    if s.get (R.MC_FILL_STATUS_STATE c) = 2 ∧ before ≤ next ∧ next < before + s.chCap c then some (c, next - before)
    else none)

/-- One line under verify was read: it is done, or is rewritten once and read again, or has failed (R188 step 3). -/
def State.sanVerdict (s : State) (n : Nat) (ok : Bool) (rewrite : State → State) : State :=
  let x := s.chan.san
  let step (s : State) : State :=
    let s := s.put (R.MC_SAN_PROGRESS_LINES_DONE n) (s.get (R.MC_SAN_PROGRESS_LINES_DONE n) + 1)
    { s with chan := { s.chan with san := { s.chan.san with next := x.next + 64, again := false } } }
  if ok then step s
  else if x.again then step (s.sanFail n 1)
  else
    let s := rewrite s
    { s with chan := { s.chan with san := { s.chan.san with again := true } } }

/-- SANITISE_LINE: the engine takes the next line of the range at its home: it overwrites the line with zeros under the
line lock, or reads it to verify it (R188). -/
def execSanitiseLine (errs : Errs) (s : State) : Out :=
  let x := s.chan.san
  if x.op = 3 then
    if x.phase ≠ sanPHASE_VERIFY then .next s
    else
      match s.sanDevPlace x.next with
      | none => .next s
      | some (c, off) =>
        let r := s.chRead c off errs 0 x.mcid
        let ok := match r.1 with | .good l => l == 0 | .bad _ => false
        .next ((r.2.chBytes c engSAN x.mcid false 64).sanVerdict c ok (fun s =>
          (s.setLineAt (chanCell c off) 0).chBytes c engSAN x.mcid true 64))
  else if x.op = 0 ∨ x.len ≤ x.next then .next s
  else
    let a := x.base + x.next
    let line := (s.pkgId * 2 ^ 44 + a) / 64
    let d := s.dOfLine line
    let n := sliceOf d
    if x.phase = sanPHASE_OVERWRITE then
      match s.lockOf n line, s.freeSlot n with
      | none, some htag =>
        let s : State := { s with chan := { s.chan with san := { x with next := x.next + 64 } } }
        let s := s.lostLook n line
        let v := s.homeView n d
        let bc := s.isBcast n d
        let invs := if bc then s.everyHolder else s.reachMask v.mask
        let req : Msg := { vc := vcSNP, opc := 0, srcPkg := s.pkgId, srcAgent := agHOME + n, dstPkg := s.pkgId,
                           dstAgent := agHOME + n, txn := htag, addr := line }
        let t : HTxn := { line := line, proxy := false, work := .sanitise, req := req, phase := .acks, invs := invs,
                          found := v.kind, bcast := bc, sent := bc, mcid := x.mcid, since := s.pwr.now }
        let s := (s.setLock n htag (some t)).snoopAll n htag t opINV invs false
        .next (s.txnProceed n htag)
      | _, _ => .next s
    else if s.storeHolds d then .next s
    else
      let r := s.storeRead d errs (line * 64) x.mcid
      let ok := match r.1 with | .good l => l == 0 | .bad _ => false
      .next (((r.2.memBytes d x.mcid false).sanCount d).sanVerdict n ok (fun s =>
        (((s.storeWrite d (some 0)).mesaWrite n d (some 0)).memBytes d x.mcid true).sanCount d))

/-- Locks that the sanitise engine holds. -/
def State.sanLocks (s : State) : Bool :=
  s.home.locks.any (fun e => match e.2 with | some t => t.work == .sanitise | none => false)

/-- The bytes of the pass in progress. -/
def State.sanSize (s : State) : Nat :=
  if s.chan.san.op = 3 then
    ((List.range 16).filter (fun j => s.get (R.MC_FILL_STATUS_STATE j) == 2)).foldl (fun k j => k + s.chCap j) 0
  else s.chan.san.len

/-- The status that an operation answers: OK, or, where lines failed verification, an open choice between OK and
DEVICE_ERROR (notes/assumptions/21.md). -/
def State.sanStatus (s : State) : Nat × State :=
  if s.chan.san.fails = 0 then (stOK, s)
  else let (b, s) := s.freeBit; (if b then stOK else stDEVICE_ERROR, s)

/-- SANITISE_PHASE_COMPLETE: a pass ends (R187, R188): the verify pass follows, or the fence clears and the final state
is journalled. After SANITISE_DEVICE start-up resumes. -/
def execSanitisePhaseComplete (s : State) : Out :=
  let x := s.chan.san
  if x.op = 0 ∨ x.next < s.sanSize ∨ s.sanLocks ∨ (x.op = 3 ∧ x.phase ≠ sanPHASE_VERIFY) then .next s
  else if x.phase = sanPHASE_OVERWRITE ∧ x.op = 1 then
    let s := s.sanJournal (fun e => { e with check := x.len })
    .next ((s.setSan { s.chan.san with phase := sanPHASE_VERIFY, next := 0 }).sanZeroDone)
  else
    let st := if x.fails = 0 then 2 else 4
    let s := s.sanJournal (fun e => { e with state := st, tEnd := s.pwr.now, vfails := x.fails })
    let r := s.sanStatus
    let s := r.2.setSan { r.2.chan.san with op := 0, phase := 0, fence := false, next := 0, again := false }
    let s := if x.op = 3 then
        ({ s with pwr := { s.pwr with stage := .image, warmBy := false } } : State) else s
    .next (s.longEnd r.1)

/-- The bytes that every home slice has overwritten, from the range's base (R190): what lies below the first line that a
slice has still locked. -/
def State.sanDone (s : State) : Nat :=
  s.home.locks.foldl (fun k e => match e.2 with
    | some t => if t.work = .sanitise then min k (t.line * 64 % 2 ^ 44 - s.chan.san.base) else k
    | none => k) s.chan.san.next

/-- SANITISE_CHECKPOINT: the bytes overwritten reach the journal (R190). -/
def execSanitiseCheckpoint (s : State) : Out :=
  if s.chan.san.phase = sanPHASE_OVERWRITE then .next (s.sanJournal (fun e => { e with check := s.sanDone }))
  else .next s

/-! ## Mesa slices (spec/08 R202, R205, R210 to R212) -/

/-- MESA_INVALIDATE_ALL: MESA_INV.GO (R205, R212). -/
def execMesaInvalidateAll (n : Ix16) (s : State) : Out := .next (s.mesaInvStart n)

/-- MESA_INV_COMPLETE: the arrays are cleared and the fills have drained (R205 step 4). -/
def execMesaInvComplete (n : Ix16) (s : State) : Out := .next (if s.mesaDrained n then s.mesaInvEnd n else s)

/-- MESA_WAY_DISABLE: a bit of MESA_WAY_CTL is set (R210). -/
def execMesaWayDisable (n w : Ix16) (s : State) : Out :=
  .next ((s.putBit (R.MESA_WAY_CTL_WAY_DISABLE n) w true).mesaWayOff n w)

/-- MESA_WAY_ENABLE: a bit of MESA_WAY_CTL is cleared; a retired way's reads 1 (R210). -/
def execMesaWayEnable (n w : Ix16) (s : State) : Out :=
  if (s.get (R.MESA_WAY_STATUS_WAYS_RETIRED n)).testBit w then .next s
  else .next ((s.putBit (R.MESA_WAY_CTL_WAY_DISABLE n) w false).mesaWayOn n w)

/-- VC_DISABLE_WRITE: MESA_CTL.VC_DISABLE invalidates every victim entry and stops new ones, or re-enables the victim
cache empty unless it is retired (R202). -/
def execVcDisableWrite (n : Ix16) (on : Bool) (s : State) : Out :=
  let s := s.putB (R.MESA_CTL_VC_DISABLE n) on
  let s := s.victDrop n (fun _ => true)
  .next (s.putB (R.MESA_STATUS_VC_ENABLED n) (!on && s.get (R.MESA_WAY_STATUS_VC_RETIRED n) == 0))

/-- MESA_BYPASS_EXIT_READY: the data array powered after BYPASS resumes allocation (R212). -/
def execMesaBypassExitReady (n : Ix16) (s : State) : Out := .next (s.setMesaPowering n false)

end Sys2Proof.Machine
end

