-- ==== Sys2Proof/Machine/Crypto.lean ====
section
/-!
DEFINITION. The digests that the spec names without defining: SHA-256 under HMAC (spec/09_partitions_metering.md R228)
and SHA-384 (spec/16_firmware_bundles.md R365 to R367), as FIPS 180-4 and FIPS 198-1 give them
(notes/assumptions/19.md). Words are numbers below 2^w.
-/

namespace Sys2Proof.Machine

def k2560 : List Nat :=
  [ 0x428A2F98, 0x71374491, 0xB5C0FBCF, 0xE9B5DBA5, 0x3956C25B, 0x59F111F1, 0x923F82A4, 0xAB1C5ED5,
    0xD807AA98, 0x12835B01, 0x243185BE, 0x550C7DC3, 0x72BE5D74, 0x80DEB1FE, 0x9BDC06A7, 0xC19BF174 ]
def k2561 : List Nat :=
  [ 0xE49B69C1, 0xEFBE4786, 0x0FC19DC6, 0x240CA1CC, 0x2DE92C6F, 0x4A7484AA, 0x5CB0A9DC, 0x76F988DA,
    0x983E5152, 0xA831C66D, 0xB00327C8, 0xBF597FC7, 0xC6E00BF3, 0xD5A79147, 0x06CA6351, 0x14292967 ]
def k2562 : List Nat :=
  [ 0x27B70A85, 0x2E1B2138, 0x4D2C6DFC, 0x53380D13, 0x650A7354, 0x766A0ABB, 0x81C2C92E, 0x92722C85,
    0xA2BFE8A1, 0xA81A664B, 0xC24B8B70, 0xC76C51A3, 0xD192E819, 0xD6990624, 0xF40E3585, 0x106AA070 ]
def k2563 : List Nat :=
  [ 0x19A4C116, 0x1E376C08, 0x2748774C, 0x34B0BCB5, 0x391C0CB3, 0x4ED8AA4A, 0x5B9CCA4F, 0x682E6FF3,
    0x748F82EE, 0x78A5636F, 0x84C87814, 0x8CC70208, 0x90BEFFFA, 0xA4506CEB, 0xBEF9A3F7, 0xC67178F2 ]
/-- The round constants of SHA-256: the cube roots of the first 64 primes. -/
def k256 : List Nat := k2560 ++ k2561 ++ k2562 ++ k2563

def k5120 : List Nat :=
  [ 0x428A2F98D728AE22, 0x7137449123EF65CD, 0xB5C0FBCFEC4D3B2F, 0xE9B5DBA58189DBBC,
    0x3956C25BF348B538, 0x59F111F1B605D019, 0x923F82A4AF194F9B, 0xAB1C5ED5DA6D8118,
    0xD807AA98A3030242, 0x12835B0145706FBE, 0x243185BE4EE4B28C, 0x550C7DC3D5FFB4E2,
    0x72BE5D74F27B896F, 0x80DEB1FE3B1696B1, 0x9BDC06A725C71235, 0xC19BF174CF692694 ]
def k5121 : List Nat :=
  [ 0xE49B69C19EF14AD2, 0xEFBE4786384F25E3, 0x0FC19DC68B8CD5B5, 0x240CA1CC77AC9C65,
    0x2DE92C6F592B0275, 0x4A7484AA6EA6E483, 0x5CB0A9DCBD41FBD4, 0x76F988DA831153B5,
    0x983E5152EE66DFAB, 0xA831C66D2DB43210, 0xB00327C898FB213F, 0xBF597FC7BEEF0EE4,
    0xC6E00BF33DA88FC2, 0xD5A79147930AA725, 0x06CA6351E003826F, 0x142929670A0E6E70 ]
def k5122 : List Nat :=
  [ 0x27B70A8546D22FFC, 0x2E1B21385C26C926, 0x4D2C6DFC5AC42AED, 0x53380D139D95B3DF,
    0x650A73548BAF63DE, 0x766A0ABB3C77B2A8, 0x81C2C92E47EDAEE6, 0x92722C851482353B,
    0xA2BFE8A14CF10364, 0xA81A664BBC423001, 0xC24B8B70D0F89791, 0xC76C51A30654BE30,
    0xD192E819D6EF5218, 0xD69906245565A910, 0xF40E35855771202A, 0x106AA07032BBD1B8 ]
def k5123 : List Nat :=
  [ 0x19A4C116B8D2D0C8, 0x1E376C085141AB53, 0x2748774CDF8EEB99, 0x34B0BCB5E19B48A8,
    0x391C0CB3C5C95A63, 0x4ED8AA4AE3418ACB, 0x5B9CCA4F7763E373, 0x682E6FF3D6B2B8A3,
    0x748F82EE5DEFB2FC, 0x78A5636F43172F60, 0x84C87814A1F0AB72, 0x8CC702081A6439EC,
    0x90BEFFFA23631E28, 0xA4506CEBDE82BDE9, 0xBEF9A3F7B2C67915, 0xC67178F2E372532B ]
def k5124 : List Nat :=
  [ 0xCA273ECEEA26619C, 0xD186B8C721C0C207, 0xEADA7DD6CDE0EB1E, 0xF57D4F7FEE6ED178,
    0x06F067AA72176FBA, 0x0A637DC5A2C898A6, 0x113F9804BEF90DAE, 0x1B710B35131C471B,
    0x28DB77F523047D84, 0x32CAAB7B40C72493, 0x3C9EBE0A15C9BEBC, 0x431D67C49C100D4C,
    0x4CC5D4BECB3E42B6, 0x597F299CFC657E2A, 0x5FCB6FAB3AD6FAEC, 0x6C44198C4A475817 ]
/-- The round constants of SHA-384: the cube roots of the first 80 primes. -/
def k512 : List Nat := k5120 ++ k5121 ++ k5122 ++ k5123 ++ k5124

/-- The start values. -/
def h256 : List Nat :=
  [ 0x6A09E667, 0xBB67AE85, 0x3C6EF372, 0xA54FF53A, 0x510E527F, 0x9B05688C, 0x1F83D9AB, 0x5BE0CD19 ]
def h384 : List Nat :=
  [ 0xCBBB9D5DC1059ED8, 0x629A292A367CD507, 0x9159015A3070DD17, 0x152FECD8F70E5939,
    0x67332667FFC00B31, 0x8EB44A8768581511, 0xDB0C2E0D64F98FA7, 0x47B5481DBEFA4FA4 ]

/-- Rotate and shift a `w`-bit word right. -/
def rotR (w n x : Nat) : Nat := (x >>> n) ||| ((x <<< (w - n)) % 2 ^ w)

/-- The four sigma functions of a width: three rotations, or two and a shift. -/
def bigS (w a b c x : Nat) : Nat := rotR w a x ^^^ rotR w b x ^^^ rotR w c x
def smallS (w a b c x : Nat) : Nat := rotR w a x ^^^ rotR w b x ^^^ (x >>> c)

def shaS0 (w x : Nat) : Nat := if w = 32 then bigS 32 2 13 22 x else bigS 64 28 34 39 x
def shaS1 (w x : Nat) : Nat := if w = 32 then bigS 32 6 11 25 x else bigS 64 14 18 41 x
def shaT0 (w x : Nat) : Nat := if w = 32 then smallS 32 7 18 3 x else smallS 64 1 8 7 x
def shaT1 (w x : Nat) : Nat := if w = 32 then smallS 32 17 19 10 x else smallS 64 19 61 6 x

/-- Extend the message schedule: `win` holds the last 16 words, the newest first. -/
def shaSched (w : Nat) : Nat → List Nat → List Nat
  | 0, _ => []
  | k + 1, win =>
    let x := (shaT1 w (win.getD 1 0) + win.getD 6 0 + shaT0 w (win.getD 14 0) + win.getD 15 0) % 2 ^ w
    x :: shaSched w k (x :: win.take 15)

/-- The working variables a to h. -/
structure ShaV where
  a : Nat
  b : Nat
  c : Nat
  d : Nat
  e : Nat
  f : Nat
  g : Nat
  h : Nat
  deriving DecidableEq, Repr

/-- One round. -/
def shaRound (w : Nat) (v : ShaV) (kw : Nat × Nat) : ShaV :=
  let ch := (v.e &&& v.f) ^^^ ((2 ^ w - 1 - v.e) &&& v.g)
  let maj := (v.a &&& v.b) ^^^ (v.a &&& v.c) ^^^ (v.b &&& v.c)
  let t1 := v.h + shaS1 w v.e + ch + kw.1 + kw.2
  let t2 := shaS0 w v.a + maj
  ⟨(t1 + t2) % 2 ^ w, v.a, v.b, v.c, (v.d + t1) % 2 ^ w, v.e, v.f, v.g⟩

/-- Take in one block of 16 words. -/
def shaBlock (w : Nat) (ks : List Nat) (hs ws : List Nat) : List Nat :=
  let all := ws ++ shaSched w (ks.length - 16) ws.reverse
  let v0 : ShaV := ⟨hs.getD 0 0, hs.getD 1 0, hs.getD 2 0, hs.getD 3 0, hs.getD 4 0, hs.getD 5 0, hs.getD 6 0, hs.getD 7 0⟩
  let v := (ks.zip all).foldl (shaRound w) v0
  (hs.zip [v.a, v.b, v.c, v.d, v.e, v.f, v.g, v.h]).map (fun p => (p.1 + p.2) % 2 ^ w)

/-- A big-endian number from bytes, and back. -/
def beNat (bs : List Nat) : Nat := bs.foldl (fun n b => n * 256 + b) 0
def beBytes (n v : Nat) : List Nat := (leBytes n v).reverse

/-- Take in every block of a padded message of `k` blocks. -/
def shaBlocks (w : Nat) (ks : List Nat) : Nat → List Nat → List Nat → List Nat
  | 0, hs, _ => hs
  | k + 1, hs, bs =>
    let by8 := w / 8
    let ws := (List.range 16).map (fun i => beNat ((bs.drop (i * by8)).take by8))
    shaBlocks w ks k (shaBlock w ks hs ws) (bs.drop (16 * by8))

/-- Pad a message: a one bit, zeros, and its length in bits. -/
def shaPad (w : Nat) (bs : List Nat) : List Nat :=
  let blk := 2 * w
  let tail := w / 4
  let n := bs.length
  let z := (blk - (n + 1 + tail) % blk) % blk
  bs ++ 0x80 :: (List.replicate z 0 ++ beBytes tail (8 * n))

/-- SHA-256 and SHA-384 of bytes. -/
def sha256 (bs : List Nat) : List Nat :=
  let p := shaPad 32 bs
  (shaBlocks 32 k256 (p.length / 64) h256 p).flatMap (beBytes 4)
def sha384 (bs : List Nat) : List Nat :=
  let p := shaPad 64 bs
  ((shaBlocks 64 k512 (p.length / 128) h384 p).flatMap (beBytes 8)).take 48

/-- HMAC-SHA-256 with a key of at most 64 bytes. -/
def hmac256 (key msg : List Nat) : List Nat :=
  let k := key ++ List.replicate (64 - key.length) 0
  sha256 (k.map (· ^^^ 0x5C) ++ sha256 (k.map (· ^^^ 0x36) ++ msg))

end Sys2Proof.Machine
end

