-- ==== Sys2Proof/Machine/Clock.lean ====
section
/-!
DEFINITION. The passing of time: GTIME (spec/17_power_clocks_start.md R392), the counts of the cores' time and cycles
(spec/02 R54, spec/09 R223), the frames of the Horizon ports (spec/10 R234), and the pass of the on-chip patrol (spec/14 R333).
-/

namespace Sys2Proof.Machine

/-- Do host clocks run (R388, R391, R434)? -/
def State.hostUp (s : State) : Bool :=
  match s.pwr.stage with
  | .training => true
  | .filling => true
  | .image => true
  | .run => true
  | .stopped => true
  | .warm => true
  | _ => false

/-- `n` as a two's-complement number of `w` bits. -/
def signed (w n : Nat) : Int := if n < 2 ^ (w - 1) then (n : Int) else (n : Int) - (2 : Int) ^ w

/-- The number of `w` bits that holds an integer in two's complement. -/
def unsigned (w : Nat) (n : Int) : Nat := (n % (2 : Int) ^ w).toNat

/-- The saturated two's-complement field of `w` bits of an integer. -/
def satSigned (w : Nat) (n : Int) : Nat :=
  unsigned w (max (-((2 : Int) ^ (w - 1))) (min n ((2 : Int) ^ (w - 1) - 1)))

/-- The GTIME counter after `n` ns of reference time: 1 plus the servo's rate in each, in 2^-32 ns (R392). -/
def gtimeAfter (now frac n : Nat) (ppb : Int) : Nat × Nat :=
  let t : Nat := ((frac : Int) + n * 2 ^ 32 + (n : Int) * ppb * 2 ^ 32 / 1000000000).toNat
  (now + t / 2 ^ 32, t % 2 ^ 32)

/-- The slew of one core over `n` ns: a rise first ramps the voltage, then the PLL moves one step in each 100 ns (R54).
FREQ_CHANGE_COMPLETE ends it. -/
def State.coreSlew (s : State) (n h : Nat) : State :=
  let x := s.hart h
  match x.target with
  | none => s
  | some t =>
    let cur := s.get (R.CORE_FREQ_CUR_STEP h)
    let left := n - x.ramp
    let k := (x.slew + left) / 100
    let step := if cur < t then min t (cur + k) else max t (cur - k)
    (s.setHart h { x with ramp := x.ramp - n, slew := if step = t then 0 else (x.slew + left) % 100 }).put
      (R.CORE_FREQ_CUR_STEP h) step

/-- Cycles that the hpm counters of a core count as they pass (spec/18 R404): with a page-table walk in progress, with a
load miss outstanding and nothing retiring, below the requested step, and stretched by the current limit. -/
def State.hpmCycles (s : State) (h k : Nat) : State :=
  let x := s.hart h
  let add (b : Bool) (ev : Nat) (s : State) : State := if b && k != 0 then s.hpmAdd h x.mode ev k else s
  let s := add (x.waits.any (fun w => w.acc.walk)) 0xC s
  let s := add (x.waits.any (fun w => w.kind == .load && w.asked)) 0xD s
  let s := add (s.get (R.CORE_FREQ_CUR_LIMITED h) == 1) 0xE s
  add (s.get R.PWR_STATUS_CURRENT_LIMIT == 1) 0xF s

/-- One core's share of `n` ns: active time, and cycles at its step, at half frequency under the current limit (R386), to
its MCID, mcycle and the hpm counters; and its slew. -/
def State.coreTime (s : State) (n h : Nat) : State :=
  if s.coreUp h then
    let mcid := s.get (R.srmcfg_MCID h)
    let x := s.hart h
    let k := x.cyc + n * (32 + s.get (R.CORE_FREQ_CUR_STEP h)) * (if s.get R.PWR_STATUS_CURRENT_LIMIT = 1 then 1 else 2)
    let s := s.setHart h { x with cyc := k % 80 }
    let s := s.setReg (R.rmcycle h) (s.reg (R.rmcycle h) + BitVec.ofNat 64 (k / 80))
    let s := (s.meterAdd (qDie (h / 32) qACTIVE_NS) mcid n).meterAdd (qDie (h / 32) qCYCLES) mcid (k / 80)
    let s := if s.get (R.CORE_FREQ_CUR_CEILING h) < s.get (R.CORE_FREQ_REQ_STEP h)
      then s.count (ctrPower (h / 32)) 1 none none (k / 80) else s
    (s.hpmCycles h (k / 80)).coreSlew n h
  else s

/-- The on-chip patrol: `onchipNs` is what is left of the pass in progress (R333, R340). -/
def State.onchipTime (s : State) (n : Nat) : State :=
  let per := s.get R.RAS_PATROL_CTL_ONCHIP_PERIOD * 1000000000
  let left := if s.ras.onchipNs = 0 then per else s.ras.onchipNs
  if left = 0 then s
  else if n < left then { s with ras := { s.ras with onchipNs := left - n } }
  else
    let full := n - left
    let passes := if per = 0 then 1 else 1 + full / per
    let s := s.bump R.RAS_PATROL_STATUS_ONCHIP_PASSES passes
    { s with ras := { s.ras with onchipNs := if per = 0 then 0 else per - full % per } }

/-- `n` ns of one Horizon port: an ACTIVE port sends a codeword every 3.2, 6.4 or 12.8 ns (spec/10 R234), and where no frame
is due an IDLE frame, whose bytes go to MCID 0 (spec/09 R223). -/
def State.hznTime (s : State) (n p : Nat) : State :=
  let x := s.hPort p
  if s.get (R.HZN_STATUS_STATE p) = 5 then
    let word := 32 <<< s.get (R.HZN_STATUS_WIDTH p)
    let t := x.line + 10 * n
    let idle := t / word - x.owed
    let s := s.setHPort p { x with line := t % word, owed := x.owed - t / word }
    (s.count (ctrHzn p) 1 none none idle).hznTxBytes p 0 none (idle * frameBytes)
  else s

end Sys2Proof.Machine
end

