-- ==== Sys2Proof/Machine/CoreRows.lean ====
section
/-!
DEFINITION. Core states, frequency and CSR writes (spec/02_vale_cores.md R41, R43, R46, R47, R53 to R62), and
flush-then-disable of the L2, the Vale cache and the snoop filter (spec/03_vale_die_cache.md R76 to R83).
-/

namespace Sys2Proof.Machine

/-- Local hart of core `c` of die `d` (spec/01 R20). -/
def hartOf (d c : Nat) : Hart := Fin.ofNat 384 (d * 32 + c)

/-! ## Flush-then-disable (R76) -/

/-- Does a flush of `u` run? -/
def State.flushing (s : State) (u : FlushUnit) : Bool := s.die.walks.any (fun w => w.u == u)

/-- Put or remove the way-flushing bit of an L2 or a slice as its walks ask. -/
def State.wayFlags (s : State) (u : FlushUnit) : State :=
  match u with
  | .l2 h => s.putB (R.VALE_L2_STATUS_WAY_FLUSHING (h / 32) (h % 32))
      (s.die.walks.any (fun w => match w.u with | .l2Way h' _ => h' == h | _ => false))
  | .l2Way h _ => s.putB (R.VALE_L2_STATUS_WAY_FLUSHING (h / 32) (h % 32))
      (s.die.walks.any (fun w => match w.u with | .l2Way h' _ => h' == h | _ => false))
  | .vcSlice d sl => s.putB (R.VALE_VC_STATUS_WAY_FLUSHING d sl)
      (s.die.walks.any (fun w => match w.u with | .vcWay d' s' _ => d' == d && s' == sl | _ => false))
  | .vcWay d sl _ => s.putB (R.VALE_VC_STATUS_WAY_FLUSHING d sl)
      (s.die.walks.any (fun w => match w.u with | .vcWay d' s' _ => d' == d && s' == sl | _ => false))
  | .sfWay _ _ _ => s

/-- Start flush-then-disable of a unit, unless one runs. -/
def State.flushStart (s : State) (u : FlushUnit) : State :=
  if s.flushing u then s
  else
    let s : State := { s with die := { s.die with walks := s.die.walks ++ [⟨u, 0⟩] } }
    match u with
    | .l2 h => s.put (R.VALE_L2_STATUS_STATE (h / 32) (h % 32)) 1
    | .vcSlice d sl => s.put (R.VALE_VC_STATUS_STATE d sl) 1
    | _ => s.wayFlags u

/-- The indexes of a unit that hold a valid line, rising. -/
def State.flushLines (s : State) : FlushUnit → List Nat
  | .l2 h => (Tbl.keysIn s.core.l2 (h * 32768) (h * 32768 + 32768) (fun e => e.st != .i)).map (fun k => k - h * 32768)
  | .l2Way h w =>
    ((Tbl.keysIn s.core.l2 (h * 32768) (h * 32768 + 32768) (fun e => e.st != .i)).filter (fun k => k % 16 == w.val)).map
      (fun k => (k - h * 32768) / 16)
  | .vcSlice d sl =>
    let b : Nat := (d.val * 16 + sl.val) * 65536
    (Tbl.keysIn s.die.vc b (b + 65536) (·.valid)).map (fun k => k - b)
  | .vcWay d sl w =>
    let b : Nat := (d.val * 16 + sl.val) * 65536
    ((Tbl.keysIn s.die.vc b (b + 65536) (·.valid)).filter (fun k => k % 16 == w.val)).map (fun k => (k - b) / 16)
  | .sfWay d b w =>
    let o : Nat := (d.val * 16 + b.val) * 98304
    ((Tbl.keysIn s.die.sf o (o + 98304) (·.valid)).filter (fun k => (k - o) % 24 == w.val)).map (fun k => (k - o) / 24)

/-- Is the die cut off, so that nothing of it can leave (R80, spec/06 R168)? -/
def flushDie : FlushUnit → Nat
  | .l2 h => h / 32
  | .l2Way h _ => h / 32
  | .vcSlice d _ => d
  | .vcWay d _ _ => d
  | .sfWay d _ _ => d

/-- The walk drops or hands on one L2 line: a copy that the die's memory of the line rests on is handed on as a victim
would be, any other is dropped (R76 step 2). -/
def State.flushL2 (s : State) (h set w : Nat) (u : FlushUnit) : State :=
  let e := s.l2 h set w
  let d : Nat := h / 32
  let f := s.sfLine d e.line
  let last := without f.pres (h % 32) == 0 && (s.vcWay d e.line).isNone
  if dirtyMoesi e.st || (last && dirtyMoesi (s.dieSt d e.line)) then s.l2Evict h set w (some u)
  else
    -- The Vale cache keeps the die state of a line whose last L2 copy goes.
    let st := s.dieSt d e.line
    let s := (s.l2Drop h e.line).setSfLine d e.line { f with pres := without f.pres (h % 32) }
    match s.vcWay d e.line with
    | some v => s.setVcLine d e.line v { s.vcLine d e.line v with dst := st }
    | none => s

/-- The walk's step at one index. -/
def State.flushOne (s : State) (u : FlushUnit) (ix : Nat) : State :=
  match u with
  | .l2 h => s.flushL2 h (ix / 16) (ix % 16) u
  | .l2Way h w => s.flushL2 h ix w u
  | .vcSlice d sl => s.vcEvict d sl (ix / 16) (ix % 16) (some u)
  | .vcWay d sl w => s.vcEvict d sl ix w (some u)
  | .sfWay d b w => (s.sfBackInv d (s.sf d b ix w) (some u)).setSf d b ix w {}

/-- The identifiers of the line at an index of a unit, where the copy there is uncorrectable (R79). -/
def State.flushBad (s : State) (u : FlushUnit) (ix : Nat) : Option (Nat × Nat) :=
  let l2 (e : L2Way) : Option (Nat × Nat) := if e.bad then some (e.rcid, e.mcid) else none
  let vc (e : VcWay) : Option (Nat × Nat) := if e.bad then some (e.rcid, e.mcid) else none
  match u with
  | .l2 h => l2 (s.l2 h (ix / 16) (ix % 16))
  | .l2Way h w => l2 (s.l2 h ix w)
  | .vcSlice d sl => vc (s.vc d sl (ix / 16) (ix % 16))
  | .vcWay d sl w => vc (s.vc d sl ix w)
  | .sfWay _ _ _ => none

/-- The line at an index of a unit. -/
def State.flushAt (s : State) (u : FlushUnit) (ix : Nat) : Nat :=
  match u with
  | .l2 h => (s.l2 h (ix / 16) (ix % 16)).line
  | .l2Way h w => (s.l2 h ix w).line
  | .vcSlice d sl => (s.vc d sl (ix / 16) (ix % 16)).line
  | .vcWay d sl w => (s.vc d sl ix w).line
  | .sfWay d b w => (s.sf d b ix w).line

/-- May a walk of a unit proceed: a stopping core's L2 waits for the core's stores and cache-block operations (R55). -/
def State.flushReady (s : State) : FlushUnit → Bool
  | .l2 h => (s.hart h).waits.isEmpty
  | _ => true

/-- The walk reaches the next line of its unit (R76, R77). It waits for room in the writeback buffer
and for an UPGRADE of the line that is outstanding (spec/05 R129). An uncorrectable line is recorded (R79). -/
def State.flushWalkLine (s : State) (u : FlushUnit) : Out :=
  match s.die.walks.find? (fun w => w.u == u), s.flushLines u with
  | some _, ix :: _ =>
    let d := flushDie u
    if !s.flushReady u || decide (256 ≤ s.wbCount d) || s.upgrading d (s.flushAt u ix) then .next s
    else
      let s := match s.flushBad u ix with
        | some q => s.markRecord d (s.flushAt u ix) q.1 q.2
        | none => s
      let s := s.flushOne u ix
      .next { s with die := { s.die with walks := s.die.walks.map (fun w => if w.u == u then { w with ix := ix + 1 } else w) } }
  | _, _ => .next s

/-- WAYS_LOW (R82). -/
def State.waysLow (s : State) (d ix : Nat) : State := s.logEvent 0x0021 sevWARNING d ix

/-- RETIRE_PENDING of a core (R55). -/
def State.retirePending (s : State) (h : Nat) : State :=
  let f := R.VALE_CORE_STATUS_RETIRE_PENDING (h / 32) (h % 32)
  if s.get f = 1 then s else (s.put f 1).logEvent 0x0020 sevWARNING (h / 32) h

/-- The effect of R82 when an L2 way goes. -/
def State.l2WayGone (s : State) (h w : Nat) : State :=
  let f := R.VALE_L2_STATUS_WAYS_DISABLED (h / 32) (h % 32)
  let had := (s.get f).testBit w
  let s := s.putBit f w true
  let n := popCount 16 (s.get f)
  let s := if !had && n == 8 then s.waysLow (h / 32) h else s
  if n = 16 then s.retirePending h else s

/-- The effect of R82 when a Vale cache way goes. -/
def State.vcWayGone (s : State) (d sl w : Nat) : State :=
  let f := R.VALE_VC_STATUS_WAYS_DISABLED d sl
  let had := (s.get f).testBit w
  let s := s.putBit f w true
  if !had && popCount 16 (s.get f) == 12 then s.waysLow d sl else s

/-- A way whose WAY_DISABLE bit is clear, and which is not retired, returns to service empty (R83). -/
def State.l2WayBack (s : State) (h w : Nat) : State :=
  if (s.get (R.VALE_L2_CTL_WAY_DISABLE (h / 32) (h % 32))).testBit w ∨
      (s.get (R.VALE_L2_STATUS_WAYS_RETIRED (h / 32) (h % 32))).testBit w ∨ s.flushing (.l2Way (Fin.ofNat 384 h) (Fin.ofNat 16 w))
  then s else s.putBit (R.VALE_L2_STATUS_WAYS_DISABLED (h / 32) (h % 32)) w false
def State.vcWayBack (s : State) (d : Die) (sl w : Fin 16) : State :=
  if (s.get (R.VALE_VC_CTL_WAY_DISABLE d sl)).testBit w ∨ (s.get (R.VALE_VC_STATUS_WAYS_RETIRED d sl)).testBit w ∨
      s.flushing (.vcWay d sl w)
  then s else s.putBit (R.VALE_VC_STATUS_WAYS_DISABLED d sl) w false

/-- The phase of a die's management operation (R80). -/
def State.dieCtl (s : State) (d : Nat) : DieCtl := Tbl.get (fun _ => {}) s.die.ctl d
def State.setDieCtl (s : State) (d : Nat) (x : DieCtl) : State :=
  { s with die := { s.die with ctl := Tbl.set (fun _ => {}) s.die.ctl d x } }

/-- A slice whose SLICE_DISABLE bit is clear returns to service empty, unless its die is going offline (R76). -/
def State.vcSliceBack (s : State) (d : Die) (sl : Fin 16) : State :=
  if s.get (R.VALE_VC_CTL_SLICE_DISABLE d sl) = 1 ∨ (s.dieCtl d).phase = 2 ∨ s.get (R.VALE_VC_STATUS_STATE d sl) ≠ 2
  then s else s.put (R.VALE_VC_STATUS_STATE d sl) 0

/-- Has a walk ended: nothing is left in the unit, and every writeback it sent is acknowledged (R76 step 3)? -/
def State.flushOver (s : State) (u : FlushUnit) : Bool :=
  s.flushing u && s.flushReady u && (s.flushLines u).isEmpty && !s.die.wb.any (fun e => e.unit == some u)

/-- FLUSH_DISABLE_COMPLETE: every dirty line has been accepted or acknowledged, and the unit reports DISABLED (R76
step 4, R82, R83). -/
def execFlushDisableComplete (u : FlushUnit) (s : State) : Out :=
  if s.flushOver u then
    let s : State := { s with die := { s.die with walks := s.die.walks.filter (fun w => w.u != u) } }
    let s := s.wayFlags u
    match u with
    | .l2 h => .next (s.put (R.VALE_L2_STATUS_STATE (h / 32) (h % 32)) 2)
    | .l2Way h w => .next ((s.l2WayGone h w).l2WayBack h w)
    | .vcSlice d sl => .next ((s.put (R.VALE_VC_STATUS_STATE d sl) 2).vcSliceBack d sl)
    | .vcWay d sl w => .next ((s.vcWayGone d sl w).vcWayBack d sl w)
    | .sfWay _ _ _ => .next s
  else .next s

/-- L2_WAY_DISABLE: setting a WAY_DISABLE bit of VALE_L2_CTL (R76). A die that is offline ignores it (spec/01 R35). -/
def execL2WayDisable (h : Hart) (w : Fin 16) (s : State) : Out :=
  let d : Nat := h / 32
  if !s.dieOnline d then .next s
  else
    let s := s.putBit (R.VALE_L2_CTL_WAY_DISABLE d (h % 32)) w true
    if (s.get (R.VALE_L2_STATUS_WAYS_DISABLED d (h % 32))).testBit w then .next s else .next (s.flushStart (.l2Way h w))

/-- L2_WAY_ENABLE: clearing a WAY_DISABLE bit; the bits of retired ways read 1 (R83). -/
def execL2WayEnable (h : Hart) (w : Fin 16) (s : State) : Out :=
  let d : Nat := h / 32
  if !s.dieOnline d || (s.get (R.VALE_L2_STATUS_WAYS_RETIRED d (h % 32))).testBit w then .next s
  else .next ((s.putBit (R.VALE_L2_CTL_WAY_DISABLE d (h % 32)) w false).l2WayBack h w)

/-- VC_WAY_DISABLE: setting a WAY_DISABLE bit of VALE_VC_CTL (R76). -/
def execVcWayDisable (d : Die) (sl w : Fin 16) (s : State) : Out :=
  if !s.dieOnline d then .next s
  else
    let s := s.putBit (R.VALE_VC_CTL_WAY_DISABLE d sl) w true
    if (s.get (R.VALE_VC_STATUS_WAYS_DISABLED d sl)).testBit w then .next s else .next (s.flushStart (.vcWay d sl w))

/-- VC_WAY_ENABLE: clearing a WAY_DISABLE bit of VALE_VC_CTL (R83). -/
def execVcWayEnable (d : Die) (sl w : Fin 16) (s : State) : Out :=
  if !s.dieOnline d || (s.get (R.VALE_VC_STATUS_WAYS_RETIRED d sl)).testBit w then .next s
  else .next ((s.putBit (R.VALE_VC_CTL_WAY_DISABLE d sl) w false).vcWayBack d sl w)

/-- VC_SLICE_DISABLE: setting SLICE_DISABLE (R76). -/
def execVcSliceDisable (d : Die) (sl : Fin 16) (s : State) : Out :=
  if !s.dieOnline d then .next s
  else
    let s := s.put (R.VALE_VC_CTL_SLICE_DISABLE d sl) 1
    if s.get (R.VALE_VC_STATUS_STATE d sl) = 0 then .next (s.flushStart (.vcSlice d sl)) else .next s

/-- VC_SLICE_ENABLE: clearing SLICE_DISABLE (R76). -/
def execVcSliceEnable (d : Die) (sl : Fin 16) (s : State) : Out :=
  if !s.dieOnline d then .next s
  else .next ((s.put (R.VALE_VC_CTL_SLICE_DISABLE d sl) 0).vcSliceBack d sl)

/-! ## Permanent faults of the die's arrays (R81) -/

/-- An L2 way is retired. -/
def State.l2WayRetire (s : State) (h : Hart) (w : Fin 16) : State :=
  let d : Nat := h / 32
  let s := (s.putBit (R.VALE_L2_STATUS_WAYS_RETIRED d (h % 32)) w true).recWay (wayL2 h w)
  let s := s.putBit (R.VALE_L2_CTL_WAY_DISABLE d (h % 32)) w true
  if (s.get (R.VALE_L2_STATUS_WAYS_DISABLED d (h % 32))).testBit w then s else s.flushStart (.l2Way h w)

/-- A Vale cache way is retired. -/
def State.vcWayRetire (s : State) (d : Die) (sl w : Fin 16) : State :=
  let s := (s.putBit (R.VALE_VC_STATUS_WAYS_RETIRED d sl) w true).recWay (wayVc d sl w)
  let s := s.putBit (R.VALE_VC_CTL_WAY_DISABLE d sl) w true
  if (s.get (R.VALE_VC_STATUS_WAYS_DISABLED d sl)).testBit w then s else s.flushStart (.vcWay d sl w)

/-- A snoop-filter way is retired: it takes no new entry, and its entries are back-invalidated. The bank falls to 8
enabled ways with the sixteenth (R82). -/
def State.sfWayRetire (s : State) (d : Die) (b : Fin 16) (w : Fin 24) : State :=
  let f := R.VALE_SF_STATUS_WAYS_RETIRED d b
  let had := (s.get f).testBit w
  let s := ((s.putBit f w true).recWay (waySf d b w)).flushStart (.sfWay d b w)
  if !had && popCount 24 (s.get f) == 16 then s.waysLow d b else s

/-! ## CSR writes (R46, R47, R53) -/

/-- An instruction of hart `h` in mode `p` raises an exception: cause 2 illegal instruction, 22 virtual instruction. The
spec does not say what the trap value holds, and the command does not carry the instruction's address. -/
def State.csrTrap (s : State) (h : Nat) (p : Priv) (cause : Nat) : State :=
  let (w, s) := s.freeWord
  let (epc, s) := s.freeWord
  let s := s.setHart h { s.hart h with resv := none, out := .trap cause w.toNat none }
  s.takeTrap h p cause w.toNat 0 (epc &&& ~~~(1 : Word))

/-- The exception that an access to srmcfg or to a custom CSR raises, where it raises one; `en` is the bit of mstateen0
that opens it below M-mode (R46, CORE_FREQ_REQ). -/
def State.csrCause (s : State) (h : Nat) (p : Priv) (en : Nat) : Option Nat :=
  match p with
  | .m => none
  | .hs => if (s.reg (R.rmstateen0 h)).toNat.testBit en then none else some 2
  | .u => some 2
  | _ => some 22

/-- SRMCFG_WRITE: the RCID and MCID of requests of later instructions (R46, R47). -/
def execSrmcfgWrite (h : Hart) (pv : Priv) (v : Word) (s : State) : Out :=
  if !s.coreUp h then .next s
  else
    match s.csrCause h pv 55 with
    | some c => .next (s.csrTrap h pv c)
    | none => .next ((s.setReg (R.rsrmcfg h) (v &&& 0x03FF03FF)).retired h)

/-- The step a core heads for: the lower of request and ceiling (R53). -/
def State.freqAim (s : State) (h : Nat) : Nat :=
  min (s.get (R.CORE_FREQ_REQ_STEP h)) (s.get (R.CORE_FREQ_CUR_CEILING h))

/-- A fall of the core starts, or its rise ends at a lower step, and LIMITED follows (R53, R54, R62). -/
def State.freqFall (s : State) (h : Nat) : State :=
  let s := s.putB (R.CORE_FREQ_CUR_LIMITED h) (decide (s.get (R.CORE_FREQ_CUR_CEILING h) < s.get (R.CORE_FREQ_REQ_STEP h)))
  let aim := s.freqAim h
  let x := s.hart h
  let go : Bool := decide (aim < s.get (R.CORE_FREQ_CUR_STEP h)) ||
    (match x.target with | some t => decide (aim < t) | none => false)
  if go then (s.setHart h { x with target := some aim, ramp := 0 }).put (R.CORE_FREQ_CUR_SLEWING h) 1 else s

/-- CORE_FREQ_REQ_WRITE (R53, R54): a rise waits for the next power evaluation. -/
def execCoreFreqReqWrite (h : Hart) (pv : Priv) (v : Word) (s : State) : Out :=
  if !s.coreUp h then .next s
  else
    match s.csrCause h pv 0 with
    | some c => .next (s.csrTrap h pv c)
    | none => .next (((s.setReg (R.rCORE_FREQ_REQ h) (BitVec.ofNat 64 (min (v.toNat % 128) 112))).retired h).freqFall h)

/-- FREQ_CHANGE_COMPLETE: the core has reached the target step, and on a fall the voltage has followed (R54). -/
def execFreqChangeComplete (h : Hart) (s : State) : Out :=
  let x := s.hart h
  match x.target with
  | some n =>
    .next (((s.setHart h { x with target := none, ramp := 0, slew := 0 }).put (R.CORE_FREQ_CUR_STEP h) n).put (R.CORE_FREQ_CUR_SLEWING h) 0)
  | none => .next s

/-- RESERVATION_TIMEOUT: 512 core cycles without an SC (R41). An access that the reservation held back may go on. -/
def execReservationTimeout (h : Hart) (s : State) : Out := .next (s.setHart h { s.hart h with resv := none })

/-- What a hart has fetched, or is fetching, and has not executed is discarded (R43). -/
def State.dropFetches (s : State) (h : Nat) : State :=
  s.setHart h { s.hart h with waits := (s.hart h).waits.filter (fun w => !(w.kind == .fetch || w.kind == .prefetchI)) }

/-- FENCE_I: the whole L1I of the hart is invalidated, and fetched instructions are discarded (R43). -/
def execFenceI (h : Hart) (s : State) : Out := .next (if s.coreUp h then ((s.l1iClear h).dropFetches h).retired h else s)

/-- Has a hart nothing left that a FENCE waits for among its stores and cache-block operations (R49)? A non-cacheable
store and a clean, flush or invalidate end with the home's answer, the others once performed in M. -/
def State.fenceDone (s : State) (h : Nat) : Bool := (s.hart h).mmio.isNone && !(s.hart h).waits.any (fun w => w.kind.effects)

/-! ## Core states (R55 to R62) -/

def State.setCoreState (s : State) (h st : Nat) : State := s.put (R.VALE_CORE_STATUS_STATE (h / 32) (h % 32)) st

/-- Kinds that drain when a core stops or resets: stores and cache-block operations (R55). -/
def AKind.drains (k : AKind) : Bool := k == .store || k == .cboZero || k.isCmo || k == .amo || k == .sc

/-- A core's other accesses in flight are discarded. -/
def State.dropLoads (s : State) (h : Nat) : State :=
  s.setHart h { s.hart h with waits := (s.hart h).waits.filter (fun w => w.kind.drains), mmio := none, held := none }

/-- A core enters STOPPING (R55); a slew stops where it is (R62). -/
def State.coreStop (s : State) (h : Nat) (retire err : Bool) : State :=
  let s := s.setCoreState h coreSTOPPING
  let s := s.putB (R.VALE_CORE_STATUS_LAST_STOP_ERROR (h / 32) (h % 32)) err
  let s := s.setHart h { s.hart h with retire := retire, target := none, ramp := 0, slew := 0 }
  let s := s.put (R.CORE_FREQ_CUR_SLEWING h) 0
  s.flushStart (.l2 (Fin.ofNat 384 h))

/-- A command in a state that does not accept it. -/
def State.coreReject (s : State) (h : Nat) : State := s.put (R.VALE_CORE_STATUS_CMD_REJECTED (h / 32) (h % 32)) 1

def State.isPending (s : State) (h : Nat) : Bool := s.get (R.VALE_CORE_STATUS_RETIRE_PENDING (h / 32) (h % 32)) == 1

/-- A core becomes RETIRED, recorded in the settings store (R55, R57). -/
def State.coreRetire (s : State) (h : Nat) : State :=
  ((s.setCoreState h coreRETIRED).put (R.VALE_CORE_STATUS_RETIRE_PENDING (h / 32) (h % 32)) 0).recCore h

/-- CORE_OFFLINE: CMD = OFFLINE, RETIRE = 0 (R55, R57). -/
def execCoreOffline (d : Die) (c : Fin 32) (s : State) : Out :=
  let h := hartOf d c
  if !s.dieOnline d then .next s
  else if s.coreState h = coreONLINE ∧ !s.isPending h then .next (s.coreStop h false false)
  else .next (s.coreReject h)

/-- CORE_RETIRE: CMD = OFFLINE with RETIRE = 1 (R55). -/
def execCoreRetire (d : Die) (c : Fin 32) (s : State) : Out :=
  let h := hartOf d c
  if !s.dieOnline d then .next s
  else if s.coreState h = coreONLINE then .next (s.coreStop h true false)
  else if s.coreState h = coreOFFLINE then .next (s.coreRetire h)
  else .next (s.coreReject h)

/-- A core enters STARTING: powered, its arrays filled, its caches invalid (R55). -/
def State.coreStart (s : State) (h : Nat) : State :=
  let s := (s.setCoreState h coreSTARTING).put (R.VALE_L2_STATUS_STATE (h / 32) (h % 32)) 0
  (s.l1iClear h).l1dClear h

/-- CORE_ONLINE: CMD = ONLINE (R55). -/
def execCoreOnline (d : Die) (c : Fin 32) (s : State) : Out :=
  let h := hartOf d c
  if !s.dieOnline d then .next s
  else if s.coreState h = coreOFFLINE ∧ !s.isPending h then .next (s.coreStart h)
  else .next (s.coreReject h)

/-- CORE_RESET: CMD = RESET (R55). -/
def execCoreReset (d : Die) (c : Fin 32) (s : State) : Out :=
  let h := hartOf d c
  if !s.dieOnline d then .next s
  else if s.coreState h = coreONLINE ∧ !s.isPending h then .next (((s.setCoreState h coreRESETTING).dropLoads h).l1iClear h)
  else .next (s.coreReject h)

/-- CORE_LOGIC_ERROR: an uncorrectable core-logic error (R55, R62). -/
def execCoreLogicError (h : Hart) (s : State) : Out :=
  let st := s.coreState h
  let rec' (s : State) : State := s.errRecord (bankCore h) errUEC 0 (recInfo 0 0 (h / 32) s.pkgId) 0
  if st = coreONLINE ∨ st = coreRESETTING then
    .next (((((rec' s).dropLoads h).coreStop h false true).retirePending h))
  else if st = coreSTARTING then
    -- The start is abandoned; the empty L2 needs no walk.
    let s := (rec' s).setCoreState h coreSTOPPING
    let s := s.put (R.VALE_CORE_STATUS_LAST_STOP_ERROR (h / 32) (h % 32)) 1
    let s := s.setHart h { s.hart h with retire := false, target := none, ramp := 0, slew := 0 }
    .next ((s.put (R.VALE_L2_STATUS_STATE (h / 32) (h % 32)) 2).retirePending h)
  else if st = coreSTOPPING then
    .next ((rec' s).put (R.VALE_CORE_STATUS_LAST_STOP_ERROR (h / 32) (h % 32)) 1)
  else .next s

/-- Bit of PKG_CORE_ONLINE. -/
def State.setCoreBit (s : State) (h : Nat) (b : Bool) : State := s.putBit (R.PKG_CORE_ONLINE_ONLINE (h / 64)) (h % 64) b

/-- Interrupt file contents of a hart are discarded (R55). -/
def State.dropFiles (s : State) (h : Nat) : State :=
  { s with io := { s.io with imsic := s.io.imsic.filter (fun e => e.1 / 17 != h) } }

/-- Are all cores of a die stopped? -/
def State.dieCoresStopped (s : State) (d : Nat) : Bool :=
  (List.range 32).all (fun c => s.coreState (d * 32 + c) == coreOFFLINE || s.coreState (d * 32 + c) == coreRETIRED)

/-- Step 2 of R80: every core is stopped; all slices flush. -/
def State.dieFlush (s : State) (d : Die) : State :=
  if (s.dieCtl d).phase = 1 ∧ s.dieCoresStopped d then
    let s := (s.setDieCtl d { s.dieCtl d with phase := 2 }).put (R.VALE_DIE_STATUS_OFFLINE_FLUSH d) 1
    foldN 16 s (fun i s => if s.get (R.VALE_VC_STATUS_STATE d i) = 0 then s.flushStart (.vcSlice d (Fin.ofNat 16 i)) else s)
  else s

/-- CORE_STOP_COMPLETE: the L2 reports DISABLED, and the core is power-gated (R55, R62). -/
def execCoreStopComplete (h : Hart) (s : State) : Out :=
  let x := s.hart h
  if s.coreState h = coreSTOPPING ∧ s.get (R.VALE_L2_STATUS_STATE (h / 32) (h % 32)) = 2 ∧ x.waits = [] then
    let s := ((s.setCoreBit h false).dropFiles h).setHart h { x with resv := none, out := .idle, nmi := [], lcofi := false, held := none }
    let s := if x.retire then s.coreRetire h
      else
        let s := s.setCoreState h coreOFFLINE
        if s.get (R.VALE_CORE_STATUS_LAST_STOP_ERROR (h / 32) (h % 32)) = 1 then s.retirePending h else s
    .next (s.dieFlush (Fin.ofNat 12 (h / 32)))
  else .next s

/-- Architectural state at core start (R56): every CSR at its reset value, and the pc and mtvec at VALE_CORE_RESET_PC. The
clock keeps its step where the core was running, and else starts at the requested one within the ceiling. -/
def State.archReset (s : State) (h : Nat) (running : Bool) : State :=
  let cur := s.reg (R.rCORE_FREQ_CUR h)
  let base := 2 ^ 40 + h * 4096
  let pc := s.reg (R.rVALE_CORE_RESET_PC (h / 32) (h % 32))
  let s : State := { s with regs := s.regs.filter (fun e => decide (e.1 < base) || decide (base + 4096 ≤ e.1)) }
  let s := s.setReg (R.rCORE_FREQ_CUR h) cur
  let s := if running then s
    else ((s.put (R.CORE_FREQ_CUR_STEP h) (min 64 (s.get (R.CORE_FREQ_CUR_CEILING h)))).put (R.CORE_FREQ_CUR_SLEWING h) 0)
  let s := (s.setReg (R.rpc h) pc).setReg (R.rmtvec h) (pc &&& ~~~(3 : Word))
  let x := s.hart h
  let s := s.setHart h { x with resv := none, waits := [], out := .idle, mmio := none, nmi := [], lcofi := false, held := none,
                                mode := .m, scFails := 0, ramp := if running then x.ramp else 0, slew := if running then x.slew else 0,
                                target := if running then x.target else none }
  (s.l1iClear h).freqFall h

/-- A core that reaches ONLINE while its die is going offline stops again (R62). -/
def State.coreArrive (s : State) (h : Nat) : State :=
  let s := (s.setCoreState h coreONLINE).setCoreBit h true
  let ph := (s.dieCtl (h / 32)).phase
  if ph = 1 ∨ ph = 2 then s.coreStop h false false else s

/-- CORE_START_COMPLETE: the fill is complete, and the hart starts in M-mode (R55, R56). -/
def execCoreStartComplete (h : Hart) (s : State) : Out :=
  if s.coreState h = coreSTARTING then .next ((s.archReset h false).coreArrive h) else .next s

/-- CORE_RESET_COMPLETE: the reset is complete, once its stores and cache-block operations have drained (R55, R56). -/
def execCoreResetComplete (h : Hart) (s : State) : Out :=
  if s.coreState h = coreRESETTING ∧ (s.hart h).waits = [] then .next ((s.archReset h true).coreArrive h) else .next s

end Sys2Proof.Machine
end

