-- ==== Sys2Proof/Machine/DieLost.lean ====
section
/-!
DEFINITION. The loss of a die (spec/06_pass_links.md R168).
-/

namespace Sys2Proof.Machine

/-- LOST of a meter set (spec/09 R230). -/
def flagLOST : Nat := 16

/-- An agent's retry tokens and OWED count at a slice are freed, without a record (R168, spec/10 R258). -/
def State.dropTokens (s : State) (n pkg agent : Nat) (r : Nat × Nat) : State :=
  let s := s.setOwed n r.1 []
  foldN r.2 s (fun i s =>
    let k := s.tok n (r.1 + i)
    if k.st = .free ∨ k.pkg ≠ pkg ∨ k.agent ≠ agent then s
    else
      let s := s.setTok n (r.1 + i) {}
      match k.slot with | some h => s.slotFreed n h k.line | none => s)

/-- A home transaction goes on without a lost die. -/
def State.txnDieLost (s : State) (n htag d : Nat) (t : HTxn) : State :=
  let dd := s.dOfLine t.line
  let owns := (s.homeView n dd).ownedBy d
  let mine := t.work = .request ∧ t.req.srcPkg = s.pkgId ∧ t.req.srcAgent = d
  let t := if mine then { t with closed := true } else t
  let isFwd : Bool := match t.fwd with | some (o, _) => o == d | none => false
  let answered := t.answered.any (fun a => a.1 == d)
  if t.phase = .acks ∧ t.invs.testBit d then
    let s := if owns then s.lostCopy n t.line d else s.writeView n dd ((s.homeView n dd).drop d)
    (s.setLock n htag (some { t with invs := without t.invs d, answered := t.answered ++ [(d, opACK_INV)] })).txnProceed n htag
  else if isFwd && !answered then
    let kind := (s.homeView n dd).kind
    let s := if owns then s.lostCopy n t.line d else s.writeView n dd ((s.homeView n dd).drop d)
    let t := { t with fwd := none, found := if kind = 2 then 0 else 1,
                      phase := if t.phase = .owner then .acks else t.phase, sent := false }
    (s.setLock n htag (some t)).txnProceed n htag
  else if isFwd && t.toHome && decide (t.dataEarly < t.dataDue) then
    let t := { t with got := some (0, true), dataEarly := t.dataEarly + 1, wbWait := if t.wbWait = some d then none else t.wbWait }
    -- An ATOMIC_NC writes the marker too: the die's copy is gone.
    let s := if t.work = .request ∧ t.req.opc = opATOMIC then (s.homeWrite n dd t.req.mcid none t.req.rcid).freeDir n dd else s
    (s.setLock n htag (some t)).txnProceed n htag
  else
    ((s.setLock n htag (some { t with wbWait := if t.wbWait = some d then none else t.wbWait })).txnProceed n htag).tryClose n htag

/-- A proxy transaction goes on without a lost die. -/
def State.pxDieLost (s : State) (n htag d : Nat) (t : HTxn) : State :=
  let v := s.proxyView n (t.line * 64)
  let ack : Msg := { vc := vcRSP, opc := opACK_MISS, srcPkg := s.pkgId, srcAgent := d, dstPkg := s.pkgId,
                     dstAgent := agHOME + n, txn := t.req.txn, addr := t.line, htag := t.wireTag htag }
  let isFwd : Bool := match t.fwd with | some (o, _) => o == d | none => false
  let answered := t.answered.any (fun a => a.1 == d)
  let t := if t.work = .request ∧ t.req.srcAgent = d then { t with closed := true } else t
  let s := s.setLock n htag (some t)
  if t.phase = .acks ∧ t.invs.testBit d then s.pxDieAnswer n htag t d { ack with opc := opACK_INV }
  else if isFwd && !answered then
    let s := if v.ownedBy d then s.pxLostCopy n t.line d else s
    if t.phase = .owner ∧ t.sent then s.pxDieAnswer n htag t d ack else s
  else if isFwd && t.toHome && decide (t.dataEarly < t.dataDue) then
    (s.setLock n htag (some { t with got := some (0, true), dataEarly := t.dataEarly + 1, wbWait := none })).pxProceed n htag
  else (s.setLock n htag (some { t with wbWait := if t.wbWait = some d then none else t.wbWait })).pxTryClose n htag

/-- Every slice goes on without the die. -/
def State.homesDieLost (s : State) (d : Nat) : State :=
  let s := s.home.locks.foldl (fun s e =>
    let k := slotOfKey e.1
    match s.lock k.1 k.2 with
    | some t =>
      match t.work with
      | .reserved _ => s
      | _ => if t.proxy then s.pxDieLost k.1 k.2 d t else s.txnDieLost k.1 k.2 d t
    | none => s) s
  foldN 16 s (fun n s => (s.dropTokens n s.pkgId d (4 * d, 4)).pxAgain n)

/-- Registers at their values after reset: those of a range of addresses. -/
def State.resetRange (s : State) (lo hi : Nat) : State :=
  { s with regs := s.regs.filter (fun e => !(decide (lo ≤ e.1) && decide (e.1 < hi))) }

/-- The counters of a die's banks read zero (spec/18 R408). -/
def State.dieCounters (s : State) (d : Nat) : State :=
  foldN 20 s (fun i s =>
    foldN (bankCounters (d * 20 + i)) s (fun j s => s.setReg (R.rCCOL_COUNT (d * 20 + i) j) 0))

/-- A die and everything in it is gone: cores, caches, trackers, buffers, its counts since the last collection
(spec/09 R232) and its registers (spec/01 R35). -/
def State.dieErase (s : State) (d : Nat) : State :=
  let hart (h : Nat) : Bool := h / 32 == d
  let c := s.core
  let x := s.die
  let src (k : Nat) : Bool := decide (10 + 3 * d ≤ k) && decide (k < 13 + 3 * d)
  let lost := s.meter.acc.any (fun e => src (e.1 / 1024 % 64))
  let s : State := { s with
    core := { c with
      harts := c.harts.filter (fun e => !hart e.1), l1i := c.l1i.filter (fun e => !hart (e.1 / 1024)),
      l1d := c.l1d.filter (fun e => !hart (e.1 / 1024)), l1iPlru := c.l1iPlru.filter (fun e => !hart (e.1 / 128)),
      l1dPlru := c.l1dPlru.filter (fun e => !hart (e.1 / 128)), l2 := c.l2.filter (fun e => !hart (e.1 / 32768)) },
    die := { x with
      vc := x.vc.filter (fun e => e.1 / 2 ^ 20 != d), sf := x.sf.filter (fun e => e.1 / (16 * 4096 * 24) != d),
      trk := x.trk.filter (fun e => e.die != d), wb := x.wb.filter (fun e => e.die != d),
      walks := x.walks.filter (fun w => flushDie w.u != d), filled := x.filled.filter (fun e => e.1 != d),
      held := x.held.filter (fun m => m.dstAgent != d), sweep := x.sweep.filter (fun e => e.1 != d) },
    meter := { s.meter with
      acc := s.meter.acc.filter (fun e => !src (e.1 / 1024 % 64)), tot := s.meter.tot.filter (fun e => !src (e.1 % 64)),
      mflags := if lost then s.meter.mflags ||| flagLOST else s.meter.mflags } }
  let s := foldN 32 s (fun i s => ((s.setCoreBit (d * 32 + i) false).dropFiles (d * 32 + i)).resetRange
    (2 ^ 40 + (d * 32 + i) * 4096) (2 ^ 40 + (d * 32 + i + 1) * 4096))
  (s.resetRange (0x1000000 + d * 0x100000) (0x1000000 + (d + 1) * 0x100000)).dieCounters d

/-- Messages of the die in flight are discarded, but for those that the Basin ends have received, and so are messages to
it. -/
def State.dieNet (s : State) (d : Nat) : State :=
  let got := (s.pEnd 0 (2 * d)).rxq ++ (s.pEnd 0 (2 * d + 1)).rxq
  let here (pkg agent : Nat) : Bool := pkg == s.pkgId && agent == d
  { s with net := s.net.filter (fun m =>
      !here m.dstPkg m.dstAgent && (!here m.srcPkg m.srcAgent || got.any (fun q => q.2 == .ose m))) }

/-- R168: the last port of an online die is retired. -/
def State.dieLost (s : State) (d : Nat) : State :=
  let s := s.put R.PKG_DIES_VALE_ONLINE (setBits (s.get R.PKG_DIES_VALE_ONLINE) d 1 0)
  let s := s.put R.PKG_DIES_VALE_RETIRED (setBits (s.get R.PKG_DIES_VALE_RETIRED) d 1 1)
  let s := (s.dieNet d).dieErase d
  let s := s.setDieCtl d { phase := 0, quiet := true, lost := true, ever := true }
  let s := (s.homesDieLost d)
  let s : State := { s with home := { s.home with sweeps := s.home.sweeps ++ (List.range 16).map (fun n =>
    { u := .dieLost (Fin.ofNat 12 d) (Fin.ofNat 16 n), ix := 0 }) } }
  let s := s.logEvent 0x0015 sevURGENT d d
  match s.tvx.longOp with
  | some l =>
    if (l.cmd.pkt.opcode = opDIE_OFFLINE ∨ l.cmd.pkt.opcode = opDIE_ONLINE) ∧ l.cmd.pkt.data.head? = some d
    then s.longEnd stDEVICE_ERROR else s
  | none => s

end Sys2Proof.Machine
end

