-- ==== Sys2Proof/Machine/Pass.lean ====
section
/-!
DEFINITION. The Pass links (spec/06_pass_links.md). What an agent sends is in `State.net` until its receiver takes it; a
flit moves it into the receive buffer of a port, which it leaves when its receiver takes it (notes/assumptions/23.md).
-/

namespace Sys2Proof.Machine

/-- The number of an end, and of the direction that it receives (0 UP at the Basin end, 1 DOWN at the Vale end). -/
def endNum : End → Nat
  | .basin => 0
  | .vale => 1

def passDISABLED : Nat := 0
def passDETECT : Nat := 1
def passBIT_LOCK : Nat := 2
def passEQUALISE : Nat := 3
def passLANE_TEST : Nat := 4
def passMAP : Nat := 5
def passFALLBACK : Nat := 6
def passCONFIG : Nat := 7
def passACTIVE : Nat := 8
def passRETRAIN : Nat := 9
def passRETIRED : Nat := 10

/-- The other port of the die. -/
def sibling (p : Nat) : Nat := if p % 2 = 0 then p + 1 else p - 1

/-- Sixty-eight ones. -/
def lanes68 : Nat := 2 ^ 68 - 1

def ctrPassEnd (e p : Nat) : Nat := if e = 0 then ctrPass p else ctrPassVale p
def bankPassEnd (e p : Nat) : Nat := if e = 0 then bankPass p else bankDie (p / 2)

/-- Write PASS_STATUS.STATE at both ends, and the die's PORT_x_ACTIVE. -/
def State.setPassState (s : State) (p st : Nat) : State :=
  let s := (s.put (R.PASS_STATUS_STATE 0 p) st).put (R.PASS_STATUS_STATE 1 p) st
  if p % 2 = 0 then s.putB (R.VALE_DIE_STATUS_PORT_A_ACTIVE (p / 2)) (st == passACTIVE)
  else s.putB (R.VALE_DIE_STATUS_PORT_B_ACTIVE (p / 2)) (st == passACTIVE)

/-- Set a bit of PASS_EVENT at both ends. -/
def State.passEvent (s : State) (p : Nat) (f : Nat → Nat → FRef) : State := (s.put (f 0 p) 1).put (f 1 p) 1

/-! ## Lane maps (R142, R143, R155) -/

/-- The lanes of a width code. -/
def lanesOf (c : Nat) : Nat := if c = 0 then 64 else if c = 1 then 32 else 16

/-- The lanes of a vector, lowest first. -/
def laneList (v : Nat) : List Nat := (List.range 68).filter (fun i => v.testBit i)

/-- Logical lane i is on the i-th lowest good lane. -/
def mapOf (v c : Nat) : List Nat := (laneList v).take (lanesOf c)

/-- The lanes that this train found good and that are not marked (R157). -/
def PPort.goodUp (x : PPort) : Nat := (lanes68 - x.up % 2 ^ 68) &&& x.tUp
def PPort.goodDown (x : PPort) : Nat := (lanes68 - x.down % 2 ^ 68) &&& x.tDown

/-- The width code of R142 under the caps in force; none where a direction has fewer than 16 good lanes. -/
def State.widthCode (s : State) (p : Nat) : Option Nat :=
  let x := s.pPort p
  let n := min (popCount 68 x.goodUp) (popCount 68 x.goodDown)
  let cap := max (s.get (R.PASS_CTL_MAX_WIDTH p)) (x.lower.getD 0)
  if n < 16 then none
  else (([0, 1, 2] : List Nat).find? (fun c => decide (min cap 2 ≤ c) && decide (lanesOf c ≤ n)))

/-- The 128 bytes of a map, and its checksum (R155). -/
def mapBytes (up down : List Nat) : List Nat :=
  (List.range 64).map (fun i => up.getD i 0x7F) ++ (List.range 64).map (fun i => down.getD i 0x7F)
def mapSum (up down : List Nat) : Nat := crc32c (mapBytes up down)

/-- Install a map at both ends. -/
def State.installMap (s : State) (p c : Nat) (up down : List Nat) (gUp gDown : Nat) : State :=
  let s := s.setPEnd 0 p { s.pEnd 0 p with rxMap := up, txMap := down, rxGood := gUp, txGood := gDown }
  let s := s.setPEnd 1 p { s.pEnd 1 p with rxMap := down, txMap := up, rxGood := gDown, txGood := gUp }
  (s.put (R.PASS_STATUS_WIDTH 0 p) c).put (R.PASS_STATUS_WIDTH 1 p) c

/-- The spares of a map: good lanes left over and not chosen by a swap; none under a fallback map (R158). -/
def State.spares (s : State) (p : Nat) (good : Nat) (map : List Nat) (sw : Option PSwap) : List Nat :=
  if s.get (R.PASS_STATUS_FALLBACK_MAP 0 p) = 1 ∨ map = [] then []
  else (laneList good).filter (fun i =>
    !map.contains i && (match sw with | some w => w.spare != i && w.lane != i | none => true))

/-- RX_SPARES, TX_SPARES and SWAP_ACTIVE follow at both ends. -/
def State.passStatus (s : State) (p : Nat) : State :=
  let x := s.pPort p
  let b := s.pEnd 0 p
  let v := s.pEnd 1 p
  let s := s.put (R.PASS_STATUS_RX_SPARES 0 p) (s.spares p b.rxGood b.rxMap x.swU).length
  let s := s.put (R.PASS_STATUS_TX_SPARES 0 p) (s.spares p b.txGood b.txMap x.swD).length
  let s := s.put (R.PASS_STATUS_RX_SPARES 1 p) (s.spares p v.rxGood v.rxMap x.swD).length
  let s := s.put (R.PASS_STATUS_TX_SPARES 1 p) (s.spares p v.txGood v.txMap x.swU).length
  let unmoved (w : Option PSwap) : Bool := match w with | some w => !w.moved | none => false
  let asked : Bool := v.ctl.any (fun c => c.ctype == 2)
  let s := s.putB (R.PASS_STATUS_SWAP_ACTIVE 0 p) (unmoved x.swU || x.swD.isSome)
  s.putB (R.PASS_STATUS_SWAP_ACTIVE 1 p)
    ((match x.swU with | some w => w.marked | none => false) || unmoved x.swD || asked)

/-! ## Control exchanges (R149, R150) -/

/-- End `e` sends a control flit that asks for an answer. -/
def State.ctlSend (s : State) (e p ctype : Nat) (a : Nat := 0) (b : Nat := 0) : State :=
  let x := s.pEnd e p
  s.setPEnd e p { x with ctl := x.ctl ++ [{ ctype := ctype, a := a, b := b }] }

/-- Its answer has come. -/
def State.ctlDone (s : State) (e p ctype : Nat) (a : Nat) : State :=
  let x := s.pEnd e p
  s.setPEnd e p { x with ctl := x.ctl.filter (fun c => !(c.ctype == ctype && c.a == a)) }

/-- End `e` asks for a retrain (R165). -/
def State.wantRetrain (s : State) (e p reason : Nat) : State :=
  let x := s.pEnd e p
  if s.passState p = passACTIVE ∧ x.want.isNone then
    (s.setPEnd e p { x with want := some reason }).ctlSend e p 6 reason
  else s

/-! ## Training, retirement, escalation (R156, R166 to R169) -/

/-- DIE_LAST_WIDTH: every non-retired port of a die runs at width 16 (R169). -/
def State.dieWarn (s : State) (d : Nat) : State :=
  let live := [2 * d, 2 * d + 1].filter (fun p => s.passState p != passRETIRED)
  let run (p : Nat) : Bool := s.passState p == passACTIVE || s.passState p == passRETRAIN
  let mark (s : State) (b : Bool) : State :=
    { s with pass := { s.pass with warned := setBits s.pass.warned d 1 (b2n b) } }
  if live.any (fun p => run p && s.get (R.PASS_STATUS_WIDTH 0 p) != 2) then mark s false
  else if live ≠ [] ∧ live.all run ∧ ¬ s.pass.warned.testBit d then (mark s true).logEvent 0x0014 sevWARNING d d
  else s

/-- A port that does not run has no map and no exchange in progress. -/
def State.passClear (s : State) (p st : Nat) : State :=
  let clr (x : PEnd) : PEnd := { x with rxMap := [], txMap := [], rxGood := 0, txGood := 0, ctl := [], want := none, cfg := false, naks := 0,
                                        nak := false, diff := [], skip := false, bits := 0 }
  let s := (s.setPEnd 0 p (clr (s.pEnd 0 p))).setPEnd 1 p (clr (s.pEnd 1 p))
  let s := s.setPPort p { s.pPort p with swU := none, swD := none, pend := [], sum := none, mapped := false, fb := false, lower := none }
  let s := (s.put (R.PASS_STATUS_WIDTH 0 p) 3).put (R.PASS_STATUS_WIDTH 1 p) 3
  let s := (s.put (R.PASS_STATUS_FALLBACK_MAP 0 p) 0).put (R.PASS_STATUS_FALLBACK_MAP 1 p) 0
  let s := (s.put (R.PASS_STATUS_REVISION 0 p) 0).put (R.PASS_STATUS_REVISION 1 p) 0
  (s.setPassState p st).passStatus p

/-- A full train begins in DETECT (R156); with `keep`, both replay buffers outlive it (R166). -/
def State.passStart (s : State) (p : Nat) (keep : Bool) : State :=
  let s := s.passClear p passDETECT
  let x := s.pPort p
  let s := s.setPPort p { x with tUp := lanes68, tDown := lanes68, att := 0, rev := 0, noRev := false, keep := keep, full := false, oldW := 3 }
  let fresh (y : PEnd) : PEnd :=
    if keep then y else { y with rxNext := 0, txNext := 0, replay := [], moved := [], hand := false, handDone := false }
  let s := (s.setPEnd 0 p (fresh (s.pEnd 0 p))).setPEnd 1 p (fresh (s.pEnd 1 p))
  let s := (s.put (R.PASS_TRAIN_INFO_MAP_ATTEMPTS 0 p) 0).put (R.PASS_TRAIN_INFO_MAP_ATTEMPTS 1 p) 0
  (s.bump (R.PASS_TRAIN_INFO_FULL_TRAINS 0 p) 1).bump (R.PASS_TRAIN_INFO_FULL_TRAINS 1 p) 1

/-- Each end sends HANDOVER for port `p` on its sibling (R167 step 2). -/
def State.handStart (s : State) (p : Nat) : State :=
  let s := s.setPPort p { s.pPort p with hand := .runs }
  let f (y : PEnd) : PEnd := { y with hand := false, handDone := false }
  let s := (s.setPEnd 0 p (f (s.pEnd 0 p))).setPEnd 1 p (f (s.pEnd 1 p))
  (s.ctlSend 0 (sibling p) 7 p).ctlSend 1 (sibling p) 7 p

/-- A hart's access to a register of a die ends: a load with its value, one that the die refused in an access fault. -/
def State.regDone (s : State) (a : RegAsk) (v : Nat) (refused : Bool) : State :=
  match a.who with
  | some (h, x) =>
    if (s.hart h).mmio = some (x, none) then
      let s := s.setHart h { s.hart h with mmio := none }
      if refused then s.trapHart h (if a.write then 7 else 5) x
      else if a.write then (s.retire h .store x).setOut h .done else (s.retire h .load x).setOut h (.value (v % 2 ^ (8 * x.size)))
    else s
  | none => s

/-- The flits of a die's links in flight are discarded (R168), and what waits for an answer of its registers has the zero
that they read from now on (spec/01 R35). -/
def State.passDieClear (s : State) (d : Nat) : State :=
  let wipe (x : PEnd) : PEnd := { failed := x.failed, lol := x.lol, mism := x.mism }
  let s := foldN 2 s (fun i s => (s.setPEnd 0 (2 * d + i) (wipe (s.pEnd 0 (2 * d + i)))).setPEnd 1 (2 * d + i) {})
  let s := (s.setStrm d 0 {}).setStrm d 1 {}
  let mine := s.pass.asked.filter (fun m => m.die == d)
  let s : State := { s with pass := { s.pass with mgt := s.pass.mgt.filter (fun m => m.1 != d), asked := s.pass.asked.filter (fun m => m.die != d) } }
  mine.foldl (fun s a => s.regDone a 0 false) s

/-- The next port whose revision is to be negotiated again retrains with reason 3 (R162): one at a time, those that are not
ACTIVE passed over. -/
def State.renegNext (s : State) : State :=
  match s.pass.reneg.find? (fun p => s.passState p == passACTIVE) with
  | some p =>
    let s : State := { s with pass := { s.pass with reneg := s.pass.reneg.dropWhile (fun q => q != p) } }
    s.wantRetrain 0 p 3
  | none => { s with pass := { s.pass with reneg := [] } }

/-- Port `p` has finished what R162 asked of it, or cannot run. -/
def State.renegDone (s : State) (p : Nat) : State :=
  if s.pass.reneg.head? = some p then
    ({ s with pass := { s.pass with reneg := s.pass.reneg.drop 1 } } : State).renegNext
  else s

/-- An activation has changed the revision range of the PASS_UC image: each ACTIVE port retrains, the even ports first
(R162). -/
def State.passReneg (s : State) : State :=
  ({ s with pass := { s.pass with reneg := (List.range 12).map (2 * ·) ++ (List.range 12).map (2 * · + 1) } } : State).renegNext

/-- The full train of an escalated port whose sibling is retired (R166, R170). -/
def State.keepTrain (s : State) (p : Nat) : State :=
  let t := (s.pPort p).trig
  let s := s.setPPort p { s.pPort p with hand := .no }
  (s.logEvent 0x0016 sevWARNING (p / 2) p t).passStart p true

/-- A port is retired (R167). -/
def State.passRetire (s : State) (p : Nat) : State :=
  let d := p / 2
  let q := sibling p
  let s := (s.passClear p passRETIRED).renegDone p
  let s := s.passEvent p R.PASS_EVENT_RETIRED
  let s := (s.logEvent 0x0013 sevWARNING d p).dieWarn d
  let s := s.setPPort p { s.pPort p with full := false }
  let sq := s.passState q
  if sq = passRETIRED then
    if s.dieOnline d then (s.dieLost d).passDieClear d
    else s.put R.PKG_DIES_VALE_RETIRED (setBits (s.get R.PKG_DIES_VALE_RETIRED) d 1 1)
  else
    let s := if sq = passACTIVE then s.handStart p else s.setPPort p { s.pPort p with hand := .waits }
    -- The sibling's own handover cannot run over a retired port (R170).
    if (s.pPort q).full then s.keepTrain q else s

/-- A train fails: it starts again, or the third failure retires the port (R156). -/
def State.trainFail (s : State) (p cause : Nat) : State :=
  let s := (s.put (R.PASS_TRAIN_INFO_LAST_FAIL 0 p) cause).put (R.PASS_TRAIN_INFO_LAST_FAIL 1 p) cause
  let x := s.pPort p
  let s := s.setPPort p { x with fails := x.fails + 1 }
  if 3 ≤ x.fails + 1 then s.passRetire p else s.passStart p x.keep

/-- An escalation (R166); `trig`: 0 the retrain bound, 1 PASS_CTL.FULL_TRAIN, 2 R162. -/
def State.escalate (s : State) (p trig : Nat) : State :=
  let q := sibling p
  let s := ((s.passClear p passDISABLED).renegDone p).passEvent p R.PASS_EVENT_ESCALATED
  let s := s.setPPort p { s.pPort p with full := true, trig := trig }
  let sq := s.passState q
  if sq = passRETIRED then s.keepTrain p
  else if sq = passACTIVE then s.handStart p
  -- Both ports of the die are down and the sibling's handover waits for this one: this one trains first
  -- (notes/assumptions/24.md).
  else if (s.pPort q).hand ≠ .no then s.passStart p true
  else s.setPPort p { s.pPort p with hand := .waits }

/-! ## Lane failures (R163, R164, R170) -/

/-- Begin a swap of a logical lane from its position in the map in force, or ask for a retrain. -/
def State.swapStart (s : State) (p : Nat) (down : Bool) (log : Nat) : State :=
  let x := s.pPort p
  let b := s.pEnd 0 p
  let map := if down then b.txMap else b.rxMap
  let from' := if down then map.getD log 0 else (s.pEnd 1 p).txMap.getD log 0
  match s.spares p (if down then b.txGood else b.rxGood) map none with
  | sp :: _ =>
    let w : PSwap := { log := log, lane := from', spare := sp, marked := down }
    if down then
      let s := s.setPPort p { x with swD := some w }
      let s := s.setPEnd 0 p { b with txMap := b.txMap.set log sp }
      s.ctlSend 0 p 4 from' sp
    else (s.setPPort p { x with swU := some w }).ctlSend 0 p 3 from' sp
  | [] => (s.setPPort p (if down then { x with swD := none } else { x with swU := none })).wantRetrain 0 p 0

/-- The Basin end acts on a failed lane of a port that runs (R163, R164, R170). -/
def State.laneHandle (s : State) (p : Nat) (down : Bool) (lane : Nat) : State :=
  let x := s.pPort p
  let b := s.pEnd 0 p
  let map := if down then b.txMap else b.rxMap
  if popCount 68 (if down then x.goodDown else x.goodUp) < 16 then s.passRetire p
  else
    match (if down then x.swD else x.swU) with
    | some w =>
      if w.spare = lane then
        let s := s.setPPort p (if down then { x with swD := none } else { x with swU := none })
        let s := (s.ctlDone 0 p 3 w.lane).ctlDone 0 p 4 w.lane
        s.swapStart p down w.log
      else if map.contains lane then s.setPPort p { x with pend := x.pend ++ [(down, lane)] }
      else s
    | none => if map.contains lane then s.swapStart p down (map.idxOf lane) else s

/-- A map exchange attempt fails, or is overtaken (R156, R170). -/
def State.attemptFail (s : State) (p : Nat) : State :=
  let x := s.pPort p
  if x.att < 3 then
    let s := (s.setPPort p { x with att := x.att + 1, sum := none }).passEvent p R.PASS_EVENT_MAP_RESTART
    (s.put (R.PASS_TRAIN_INFO_MAP_ATTEMPTS 0 p) (x.att + 1)).put (R.PASS_TRAIN_INFO_MAP_ATTEMPTS 1 p) (x.att + 1)
  else
    let s := s.passEvent p R.PASS_EVENT_FALLBACK
    if s.passState p = passMAP then s.setPassState p passFALLBACK
    else s.setPPort p { x with fb := true }

/-- The Basin end records a permanent mark (R157) and acts on it as the port's state asks (R170). -/
def State.basinMark (s : State) (p : Nat) (down : Bool) (lane : Nat) : State :=
  let x := s.pPort p
  let b := s.pEnd 0 p
  if (if down then x.down else x.up).testBit lane then s
  else
    let x := if down then { x with down := setBits x.down lane 1 1 } else { x with up := setBits x.up lane 1 1 }
    let b := if down then { b with txGood := setBits b.txGood lane 1 0 } else { b with rxGood := setBits b.rxGood lane 1 0 }
    let s := (s.setPPort p x).setPEnd 0 p b
    let st := s.passState p
    let few := popCount 68 (if down then x.goodDown else x.goodUp) < 16
    if st = passACTIVE then s.laneHandle p down lane
    else if st = passRETRAIN then
      if few then s.passRetire p
      else if x.mapped then s.setPPort p { x with pend := x.pend ++ [(down, lane)] }
      else if x.fb then s
      else s.attemptFail p
    else if st = passCONFIG then
      if few then s.trainFail p 4 else s.setPPort p { x with pend := x.pend ++ [(down, lane)] }
    else s

/-- The receiving end marks a lane of its receive direction permanent (R163). A DOWN lane that fails while the port does not
run is reported once it does (`State.passActive`), unless TS_RXGOOD reports it first. -/
def State.laneFail (s : State) (e p lane : Nat) : State :=
  let y := s.pEnd e p
  if 68 ≤ lane ∨ y.failed.testBit lane then s
  else
    let s := s.setPEnd e p { y with failed := setBits y.failed lane 1 1, rxGood := setBits y.rxGood lane 1 0 }
    let s := s.laneEvent (p / 2)
    if e = 0 then s.basinMark p false lane
    else if s.passState p = passACTIVE then s.ctlSend 1 p 2 lane
    else s

/-- A class 8 fault of end `e`: the lane with the most mismatches fails, or a narrower retrain starts (R163). -/
def State.flitFault (s : State) (e p : Nat) : State :=
  let y := s.pEnd e p
  match y.win.foldl (fun (b : Option (Nat × Nat)) w =>
      match b with | some (_, n) => if n < w.2 then some w else b | none => some w) none with
  | some (lane, _) => s.laneFail e p lane
  | none =>
    let s := s.setPPort p { s.pPort p with lower := some (min 2 (s.get (R.PASS_STATUS_WIDTH 0 p) + 1)) }
    s.wantRetrain e p 0

/-- The key of a lane's bucket, and of a port's flit bucket, at end `e` (R163). -/
def laneBucket (e p lane : Nat) : Nat := (e * 24 + p) * 68 + lane
def flitBucket (e p : Nat) : Nat := e * 24 + p

/-! ## Flits (R145 to R154) -/

/-- Can end `a` have sent a flit with this header: the acknowledgement, NAK and credit totals that it has to report (R146,
R149, R152)? -/
def State.headerOf (s : State) (a p : Nat) (f : Flit) : Bool :=
  let y := s.pEnd a p
  let cr (c v : Nat) : Bool := decide (6 ≤ c) || v == Tbl.get (fun _ => 0) y.freed c
  (!f.ackV || f.ackSeq == (y.rxNext + 1023) % 1024) && (!f.nak || (f.ackV && y.nak)) && cr f.cr0Vc f.cr0Total &&
  (if s.get (R.PASS_STATUS_REVISION a p) = 3 then cr f.cr1Vc f.cr1Total else f.cr1Vc == 7 && f.cr1Total == 0)

/-- A flit goes from end `1 - e` to end `e`: a NAK that was due is sent, the scramblers advance (R144), and what its lanes
carried goes into the lane CRCs of both ends (R150). -/
def State.onWire (s : State) (e p : Nat) (f : Flit) : State :=
  let a := s.pEnd (1 - e) p
  let n := 2048 / a.txMap.length
  let s := s.setPEnd (1 - e) p { a with bits := a.bits + n, nak := a.nak && !f.nak }
  let y := s.pEnd e p
  s.setPEnd e p { y with diff := diffAfter n y.diff f.err }

/-- The header fields of a flit that end `e` receives: credits, acknowledgement and NAK (R146, R149, R152). -/
def State.flitHeader (s : State) (e p : Nat) (f : Flit) : State :=
  let y := s.pEnd e p
  let rep := if f.cr0Vc < 6 then Tbl.set (fun _ => 0) y.rep f.cr0Vc (f.cr0Total % 65536) else y.rep
  let rep := if s.get (R.PASS_STATUS_REVISION e p) = 3 ∧ f.cr1Vc < 6 then Tbl.set (fun _ => 0) rep f.cr1Vc (f.cr1Total % 65536) else rep
  let left := if f.ackV && y.replay.any (fun x => x.seq == f.ackSeq) then
      (y.replay.dropWhile (fun x => x.seq != f.ackSeq)).drop 1 else y.replay
  let s := s.setPEnd e p { y with rep := rep, replay := left }
  if f.nak then
    (s.bump (R.PASS_LINK_STATS_REPLAYED e p) left.length).count (ctrPassEnd e p) 3 none none left.length
  else s

/-- A flit that fails its CRC is answered with a NAK; the fourth in a row for one SEQ starts a retrain (R148, R149). -/
def State.flitNak (s : State) (e p : Nat) : State :=
  let y := s.pEnd e p
  let s := s.setPEnd e p { y with naks := y.naks + 1, nak := true }
  if y.naks + 1 = 4 then s.wantRetrain e p 1 else s

/-- The SLOT_START that messages make, from slot `i`; `none` where they do not fit (R147). -/
def slotStarts : Nat → List LinkMsg → Option Nat
  | _, [] => some 0
  | i, m :: ms =>
    if i + linkSlots m ≤ 15 then (slotStarts (i + linkSlots m) ms).map (fun v => v ||| 1 <<< i) else none

/-- Slots of one channel among messages. -/
def chanSlots (ms : List LinkMsg) (c : Nat) : Nat :=
  ((ms.filter (fun m => linkChan m == c)).map linkSlots).foldl (· + ·) 0

/-- Credits that an end holds for a channel (R152). -/
def PEnd.credits (y : PEnd) (c : Nat) : Nat :=
  (Tbl.get (fun _ => 0) y.base c + Tbl.get (fun _ => 0) y.rep c + 65536 - Tbl.get (fun _ => 0) y.sent c % 65536) % 65536

/-- The flits that end `a` of die `d`'s links has sent or is to send and that the other end has not accepted. -/
def State.flying (s : State) (a d : Nat) : List PFlit :=
  [2 * d, 2 * d + 1].flatMap (fun p =>
    (s.pEnd a p).replay.filter (fun x => decide ((x.seq + 1024 - (s.pEnd (1 - a) p).rxNext) % 1024 < 512)) ++ (s.pEnd a p).moved)

/-- How many copies of a message are on the link from end `a`, in flight or in the receive buffers. -/
def State.onLink (s : State) (a d : Nat) (m : LinkMsg) : Nat :=
  ((s.flying a d).flatMap (·.msgs)).count m + ([2 * d, 2 * d + 1].flatMap (fun p => (s.pEnd (1 - a) p).rxq.map (·.2))).count m

/-- Is a message a request or a writeback (R65)? -/
def linkLine : LinkMsg → Option Nat
  | .ose m => if m.vc = vcREQ ∨ m.vc = vcWB then some m.addr else none
  | .mgt _ => none

/-- Is a message one that end `a` has to send on port `p`: from or to the die, on the port of its line's slice (spec/03 R65,
R154), MGT from the Basin end on the lower ACTIVE port, and not on the link already? The die sends nothing more for a line
until what it sent before is accepted (spec/03 R65). A message that nothing in the model sent may come anywhere. -/
def State.mayCarry (s : State) (a p : Nat) (ms : List LinkMsg) (m : LinkMsg) : Bool :=
  let d := p / 2
  match m with
  | .ose x =>
    !s.net.contains x ||
    ((if a = 1 then x.srcPkg == s.pkgId && x.srcAgent == d
      else x.dstPkg == s.pkgId && x.dstAgent == d &&
        (decide (x.srcPkg ≠ s.pkgId) || decide (12 ≤ x.srcAgent) || s.dieQuiet x.srcAgent || s.linkHas 0 x.srcAgent x)) &&
     s.passRoute d (valeSlice (x.addr * 64) % 2) == p && decide (s.onLink a d m + ms.count m ≤ s.net.count x) &&
     (a == 0 || (linkLine m).isNone ||
      (!((s.flying a d).flatMap (·.msgs)).any (fun y => linkLine y == linkLine m) &&
       (ms.filter (fun y => linkLine y == linkLine m)).length == 1)))
  | .mgt g =>
    !s.pass.mgt.contains (d, g) ||
    ((a == 1 || p == (if s.passState (2 * d) = passACTIVE then 2 * d else 2 * d + 1)) &&
     decide (s.onLink a d m + ms.count m ≤ s.pass.mgt.count (d, g)))

/-- A message that goes on from the Basin die leaves the buffer it was received in. -/
def State.linkLeaves (s : State) (m : LinkMsg) : State :=
  match m with
  | .ose x =>
    if x.srcPkg ≠ s.pkgId then s.hznConsume (fun y => match y with | .ose z _ _ _ => z == x | .win _ => false)
    else if x.srcAgent < 12 then s.rxConsume m else s
  | .mgt _ => s

/-- The sender's book of a flit with a SEQ: a first transmission takes the next SEQ and the credits of its messages, and the
next DSEQ unless it is one handed over by the sibling; another is the replay of a flit that is kept, with its content (R149,
R152, R154, R167). `none` where the sender cannot have sent it. -/
def State.flitSent (s : State) (e p : Nat) (f : Flit) : Option State :=
  let y := s.pEnd e p
  if y.replay.contains ⟨f.seq, f.dseq, f.msgs⟩ then some s
  else
    let st := s.strm (p / 2) (1 - e)
    let moved : Bool := match y.moved with | x :: _ => x.dseq == f.dseq && x.msgs == f.msgs | [] => false
    let fresh : Bool := f.dseq == st.tx && f.msgs.all (s.mayCarry e p f.msgs)
    if f.seq = y.txNext ∧ y.replay.length < 512 ∧ (moved || fresh) ∧
        (List.range 6).all (fun c => decide (chanSlots f.msgs c ≤ y.credits c)) then
      let s := if moved || e == 1 then s else f.msgs.foldl (fun s m => s.linkLeaves m) s
      let y := s.pEnd e p
      let sent := (List.range 6).foldl (fun t c =>
        Tbl.set (fun _ => 0) t c ((Tbl.get (fun _ => 0) t c + chanSlots f.msgs c) % 65536)) y.sent
      let s := s.setPEnd e p { y with
        replay := y.replay ++ [⟨f.seq, f.dseq, f.msgs⟩], txNext := (y.txNext + 1) % 1024, sent := sent,
        moved := if moved then y.moved.drop 1 else y.moved }
      let s := if moved then s else s.setStrm (p / 2) (1 - e) { s.strm (p / 2) (1 - e) with tx := (f.dseq + 1) % 4096 }
      some (foldN 6 s (fun c s => s.count (ctrPassEnd e p) 6 (some c) none (chanSlots f.msgs c)))
    else none

/-- Messages are in their channel queues: what the flits carry and no agent of the model sent is there too. -/
def State.deliverMsgs (s : State) (d : Nat) : List LinkMsg → State
  | [] => s
  | .ose m :: ms => (if s.net.contains m then s else s.send m).deliverMsgs d ms
  | .mgt m :: ms =>
    (if s.pass.mgt.contains (d, m) then s
     else { s with pass := { s.pass with mgt := s.pass.mgt ++ [(d, m)] } }).deliverMsgs d ms

/-- Deliver flits in DSEQ order (R154), at most `k` of them. -/
def State.mergeFlits (s : State) (d dir : Nat) : Nat → State
  | 0 => s
  | k + 1 =>
    let st := s.strm d dir
    match st.wait.find? (fun w => w.1 == st.rx) with
    | some w =>
      let s := s.setStrm d dir { st with rx := (st.rx + 1) % 4096, wait := st.wait.erase w }
      (s.deliverMsgs d w.2).mergeFlits d dir k
    | none => s

/-- Is an MGT message legal in a direction (R151)? -/
def mgtLegal (e : Nat) (m : Mgt) : Bool :=
  if e = 0 then m.mopc == 2 && decide (m.status < 2) else m.mopc == 0 || m.mopc == 1 || m.mopc == 3

/-- Does a flit whose CRC passes break R146, R147 or R150 (R148)? -/
def flitBroken (f : Flit) : Bool :=
  f.typ == 3 || (f.typ == 1 && (f.ctype == 0 || decide (8 < f.ctype))) ||
  (f.typ == 0 && slotStarts 0 f.msgs != some f.slotStart)

/-- A flit with a SEQ is received good and in order: its messages go to the receive buffers, and then in DSEQ order to their
queues. An MGT message that is illegal, and every message of a broken flit, is discarded, its slots counted as freed. -/
def State.flitAccept (s : State) (e p : Nat) (f : Flit) : State :=
  let y := s.pEnd e p
  let illegal (m : LinkMsg) : Bool := flitBroken f || (match m with | .mgt g => !mgtLegal e g | .ose _ => false)
  let ms := f.msgs.filter (fun m => !illegal m)
  let gone := f.msgs.filter illegal
  let y := { y with rxNext := (f.seq + 1) % 1024, naks := 0, nak := false, rxq := y.rxq ++ ms.map (fun m => (f.dseq, m)) }
  let y := gone.foldl (fun y m => y.consume (f.dseq, m)) y
  let s := s.setPEnd e p y
  let s := if gone = [] then s else s.put (R.PASS_EVENT_FORMAT_ERR e p) 1
  let st := s.strm (p / 2) e
  let s := s.setStrm (p / 2) e { st with wait := st.wait ++ [(f.dseq, ms)] }
  s.mergeFlits (p / 2) e (st.wait.length + 1)

/-- A broken flit is discarded whole, its SEQ counted as received, with an urgent record (R148). -/
def State.flitDiscard (s : State) (e p : Nat) (f : Flit) : State :=
  let s := if f.typ ≠ 1 ∧ f.seq = (s.pEnd e p).rxNext then s.flitAccept e p f else s
  (s.put (R.PASS_EVENT_FORMAT_ERR e p) 1).errRecord (bankPassEnd e p) errUEC 0 (recInfo 0 0 0 s.pkgId) 0

/-- A flit arrives good at end `e`. -/
def State.flitTake (s : State) (e p : Nat) (f : Flit) : State :=
  if flitBroken f then s.flitDiscard e p f
  else
    let s := s.flitHeader e p f
    if f.typ = 0 ∧ f.seq = (s.pEnd e p).rxNext then s.flitAccept e p f else s

/-- A PAYLOAD flit fails its CRC at end `e` (R148, R163). -/
def State.flitBad (s : State) (e p : Nat) : State :=
  let s := (s.bump (R.PASS_LINK_STATS_CRC_ERRORS e p) 1).count (ctrPassEnd e p) 4
  let r := s.charge 8 (flitBucket e p) false
  let s := if r.2 then r.1.flitFault e p else r.1
  (s.flitNak e p).passStatus p

/-- PASS_PAYLOAD_FLIT: a PAYLOAD flit arrives at end `e` (R148, R149, R152 to R154, R163), or one that no row names: of TYPE 3,
or a CONTROL flit of a type that R150 does not list. -/
def execPassPayloadFlit (e : End) (p : Port) (f : Flit) (s : State) : Out :=
  let n := endNum e
  if s.passState p ≠ passACTIVE ∨ !s.headerOf (1 - n) p f ∨ !(f.typ == 0 || flitBroken f) then .next s
  else
    match if f.typ = 1 then some s else s.flitSent (1 - n) p f with
    | none => .next s
    | some s =>
      let s := (s.onWire n p f).count (ctrPassEnd (1 - n) p) 1
      match flitHeard (s.pEnd (1 - n) p).txMap f [] with
      | none => .next (s.flitBad n p)
      | some g => .next ((s.count (ctrPassEnd n p) 2).flitTake n p g.1)

/-- PASS_IDLE_FLIT: an IDLE flit delivers its header fields (R149). -/
def execPassIdleFlit (e : End) (p : Port) (f : Flit) (s : State) : Out :=
  let n := endNum e
  let f : Flit := { f with typ := 2, seq := 0, dseq := 0, slotStart := 0, msgs := [], ctype := 0, att := 0 }
  if s.passState p ≠ passACTIVE ∨ !s.headerOf (1 - n) p f then .next s
  else
    let s := s.onWire n p f
    match flitHeard (s.pEnd (1 - n) p).txMap f [] with
    | none => .next ((s.flitNak n p).passStatus p)
    | some g => .next (s.flitTake n p g.1)

/-- PASS_REPLAY_TIMEOUT: the oldest flit has gone unacknowledged for 2 µs, and end `e` replays from it (R149). -/
def execPassReplayTimeout (e : End) (p : Port) (s : State) : Out :=
  let n := endNum e
  let k := (s.pEnd n p).replay.length
  if s.passState p = passACTIVE ∧ 0 < k then
    .next ((s.bump (R.PASS_LINK_STATS_REPLAYED n p) k).count (ctrPassEnd n p) 3 none none k)
  else .next s

/-- PASS_CONTROL_RESEND: what end `e` has asked without an answer is sent again (R149). -/
def execPassControlResend (e : End) (p : Port) (s : State) : Out :=
  let y := s.pEnd (endNum e) p
  .next (s.setPEnd (endNum e) p { y with ctl := y.ctl.map (fun c => { c with sent := c.sent + 1 }) })

/-- A CONTROL flit of a CTYPE and argument bytes arrives at end `e` of a port that is ACTIVE: its header fields act, and then
its meaning, on the arguments as they arrive. `lost` is what its loss means beyond a NAK. -/
def State.control (s : State) (e p : Nat) (hd : Flit) (ctype : Nat) (args : List Nat) (act : State → List Nat → State)
    (lost : State → State := id) : Out :=
  let f : Flit := { hd with typ := 1, seq := 0, dseq := 0, slotStart := 0, msgs := [], ctype := ctype }
  if s.passState p ≠ passACTIVE ∨ !s.headerOf (1 - e) p f then .next s
  else
    let s := s.onWire e p f
    match flitHeard (s.pEnd (1 - e) p).txMap f args with
    | none => .next (((lost s).flitNak e p).passStatus p)
    | some (g, a) => if g.typ = 1 ∧ g.ctype = ctype then .next ((act (s.flitHeader e p g) a).passStatus p) else .next s

/-- A LANE_CHECK is scored (R163): each lane whose CRC differs from this end's is an error event of its bucket. Lanes that
have failed are not compared. -/
def State.laneScore (s : State) (e p : Nat) (bad : Nat → Bool) : State :=
  foldN 68 s (fun lane s =>
    let y := s.pEnd e p
    if bad lane && y.rxGood.testBit lane then
      let s := s.setPEnd e p { y with
        mism := Tbl.upd (fun _ => 0) y.mism lane (fun v => satAdd 16 v 1), win := Tbl.upd (fun _ => 0) y.win lane (· + 1) }
      let r := s.charge 7 (laneBucket e p lane) false
      if r.2 then r.1.laneFail e p lane else r.1
    else s)

/-- LANE_CHECK with the CRCs that the sender computed. A lane's window begins after it; the one after a LANE_CHECK that was
lost only begins a window (R170). -/
def execLaneCheck (e : End) (p : Port) (hd : Flit) (crcs : List Nat) (s : State) : Out :=
  let n := endNum e
  let own (l : Nat) : Nat := crcs.getD l 0 ^^^ Tbl.get (fun _ => 0) (s.pEnd n p).diff l
  s.control n p hd 1 (crcs.flatMap (leBytes 2)) (fun s a =>
    let y := s.pEnd n p
    let s := s.setPEnd n p { y with diff := diffAfter (2048 / y.rxMap.length) [] hd.err, skip := false }
    if y.skip then s else s.laneScore n p (fun l => field a (2 * l) 2 != own l))
    (fun s => let y := s.pEnd n p; s.setPEnd n p { y with skip := true })

/-- SWAP_REQ: the Basin end learns of a failed DOWN lane (R163, R164). -/
def execSwapReq (p : Port) (hd : Flit) (lane : Fin 68) (s : State) : Out :=
  s.control 0 p hd 2 [lane] (fun s a => (s.ctlDone 1 p 2 (a.getD 0 0)).basinMark p true (a.getD 0 0 % 68))

/-- SWAP_CMD: the Vale end moves the logical lane of an UP lane to the spare and sends SWAP_MARK (R164). -/
def execSwapCmd (p : Port) (hd : Flit) (lane spare : Fin 68) (s : State) : Out :=
  s.control 1 p hd 3 [lane, spare] (fun s a =>
    let x := s.pPort p
    match x.swU with
    | some w =>
      if w.lane = a.getD 0 0 ∧ w.spare = a.getD 1 0 ∧ ¬ w.marked then
        let y := s.pEnd 1 p
        let s := s.setPEnd 1 p { y with txMap := y.txMap.set w.log w.spare, txGood := setBits y.txGood w.lane 1 0 }
        ((s.setPPort p { x with swU := some { w with marked := true } }).ctlDone 0 p 3 w.lane).ctlSend 1 p 4 w.lane w.spare
      else s
    | none => s)

/-- PASS_SPARED is logged once, when the Basin end's part of a swap ends. -/
def State.spared (s : State) (e p : Nat) : State :=
  let s := s.put (R.PASS_EVENT_SPARED e p) 1
  if e = 0 then s.logEvent 0x0010 sevINFO (p / 2) p else s

/-- SWAP_MARK: the receiver takes the spare and answers SWAP_DONE (R164). -/
def execSwapMark (e : End) (p : Port) (hd : Flit) (lane spare : Fin 68) (s : State) : Out :=
  let n := endNum e
  s.control n p hd 4 [lane, spare] (fun s a =>
    let x := s.pPort p
    match (if n = 0 then x.swU else x.swD) with
    | some w =>
      if w.lane = a.getD 0 0 ∧ w.spare = a.getD 1 0 ∧ w.marked ∧ ¬ w.moved then
        let y := s.pEnd n p
        let w := { w with moved := true }
        let s := s.setPEnd n p { y with rxMap := y.rxMap.set w.log w.spare, rxGood := setBits y.rxGood w.lane 1 0 }
        (s.setPPort p (if n = 0 then { x with swU := some w } else { x with swD := some w })).spared n p
      else s
    | none => s)

/-- SWAP_DONE: the swap completes at its sender (R164); lanes that failed meanwhile are taken up (R170). -/
def execSwapDone (e : End) (p : Port) (hd : Flit) (lane spare : Fin 68) (s : State) : Out :=
  let n := endNum e
  s.control n p hd 5 [lane, spare] (fun s a =>
    let x := s.pPort p
    match (if n = 1 then x.swU else x.swD) with
    | some w =>
      if w.lane = a.getD 0 0 ∧ w.spare = a.getD 1 0 ∧ w.moved then
        let down := n == 0
        let mine := x.pend.filter (fun q => q.1 == down)
        let x := { x with pend := x.pend.filter (fun q => q.1 != down) }
        let s := s.setPPort p (if n = 1 then { x with swU := none } else { x with swD := none })
        let s := (s.ctlDone n p 4 w.lane).spared n p
        mine.foldl (fun s q => if s.passState p = passACTIVE then s.laneHandle p q.1 q.2 else s) s
      else s
    | none => s)

/-- PASS_RETRAIN_REQ: the other end has asked for a retrain, and both ends enter RETRAIN (R165). A swap in progress is
abandoned (R170). -/
def execPassRetrainReq (e : End) (p : Port) (hd : Flit) (reason : Nat) (s : State) : Out :=
  s.control (endNum e) p hd 6 [reason] (fun s _ =>
    if (s.pEnd (1 - endNum e) p).want ≠ some reason then s
    else
    let w := s.get (R.PASS_STATUS_WIDTH 0 p)
    let f (y : PEnd) : PEnd := { y with want := none, ctl := y.ctl.filter (fun c => c.ctype == 7), cfg := false, naks := 0, nak := false }
    let s := (s.setPEnd 0 p (f (s.pEnd 0 p))).setPEnd 1 p (f (s.pEnd 1 p))
    let s := s.setPPort p { s.pPort p with swU := none, swD := none, pend := [], mapped := false, fb := false, att := 1, oldW := w, rev := 0, noRev := false, sum := none }
    let s := (s.put (R.PASS_TRAIN_INFO_MAP_ATTEMPTS 0 p) 1).put (R.PASS_TRAIN_INFO_MAP_ATTEMPTS 1 p) 1
    let s := (s.bump (R.PASS_TRAIN_INFO_RETRAINS 0 p) 1).bump (R.PASS_TRAIN_INFO_RETRAINS 1 p) 1
    s.setPassState p passRETRAIN)

/-- PASS_HANDOVER on port `p` for its sibling: end `e` is to retransmit the sibling's flits from `seq` on (R167). -/
def execPassHandover (e : End) (p : Port) (hd : Flit) (named : Port) (seq : Nat) (s : State) : Out :=
  let n := endNum e
  s.control n p hd 7 [named, seq % 256, seq / 256] (fun s a =>
    -- HANDOVER gives the next SEQ that its sender expects on the port.
    let seq := field a 1 2
    if named.val = sibling p ∧ a.getD 0 0 = named.val ∧ (s.pPort named).hand = .runs ∧ seq = (s.pEnd (1 - n) named).rxNext then
      let y := s.pEnd n named
      let fl := (if y.replay.any (fun x => x.seq == seq) then y.replay.dropWhile (fun x => x.seq != seq)
        else if seq = y.txNext then [] else y.replay) ++ y.moved
      let s := s.setPEnd n named { y with replay := [], moved := [], hand := true }
      let z := s.pEnd n p
      let s := s.setPEnd n p { z with moved := z.moved ++ fl }
      (s.bump (R.PASS_LINK_STATS_REPLAYED n p) fl.length).count (ctrPassEnd n p) 3 none none fl.length
    else s)

/-- PASS_HANDOVER_DONE: the other end has retransmitted every flit that was handed to it. With both ends done every line is routed to the sibling,
and an escalated port runs its full train (R166, R167). -/
def execPassHandoverDone (e : End) (p : Port) (hd : Flit) (named : Port) (s : State) : Out :=
  let n := endNum e
  s.control n p hd 8 [named] (fun s a =>
    if named.val = sibling p ∧ a.getD 0 0 = named.val ∧ (s.pPort named).hand = .runs ∧ (s.pEnd (1 - n) named).hand ∧
        (s.pEnd (1 - n) p).moved = [] then
      let s := (s.setPEnd n named { s.pEnd n named with handDone := true }).ctlDone n p 7 named
      if (s.pEnd 0 named).handDone && (s.pEnd 1 named).handDone then
        let x := s.pPort named
        let s := s.setPPort named { x with hand := .no }
        if x.full then s.passStart named false else s
      else s
    else s)

/-! ## Training words (R155 to R162)

A word is made from what its sender holds, and acts as it arrives. -/

/-- Does a map exchange run? During a restart of PASS_UC only that of a retrain does (R162). -/
def State.mapping (s : State) (p : Nat) : Bool :=
  let x := s.pPort p
  let st := s.passState p
  (st == passMAP && !s.ucRestarting ucPASS) || (st == passRETRAIN && !x.mapped && !x.fb)

/-- TS_ALIGN: an alignment word changes nothing that the spec gives the machine (R155). -/
def execTsAlign (_e : End) (_p : Port) (_err : List (Nat × Nat)) (s : State) : Out := .next s

/-- A word of the map exchange arrives, sent on the lanes of a vector: another kind or attempt is ignored, and a failed one
fails the attempt (R155, R156). -/
def State.mapWord (s : State) (p kind lanes body : Nat) (err : List (Nat × Nat)) (act : State → Nat → State) : Out :=
  if !s.mapping p then .next s
  else
    match tsHeard lanes kind (s.pPort p).att body err with
    | .failed => .next (s.attemptFail p)
    | .word w => if tsKind w = kind ∧ tsAtt w = (s.pPort p).att then .next (act s (tsBody w)) else .next s

/-- The DOWN lanes that the Vale end holds good: those of this train, without the ones it has marked itself (R157). -/
def State.valeDown (s : State) (p : Nat) : Nat := (s.pPort p).tDown &&& (lanes68 - (s.pEnd 1 p).failed % 2 ^ 68)

/-- TS_RXGOOD: the Vale end's DOWN lanes and revision range (R155, R157, R161). During a retrain it reports the lanes that
have failed (R163). -/
def execTsRxgood (p : Port) (err : List (Nat × Nat)) (s : State) : Out :=
  let body := pack [(68, s.valeDown p), (8, s.get (R.PASS_TRAIN_INFO_REV_MIN 1 p)), (8, s.get (R.PASS_TRAIN_INFO_REV_MAX 1 p))]
  s.mapWord p 2 (s.pPort p).tUp body err (fun s b =>
    let downGood := bits b 0 68
    let lo := max (bits b 68 8) (s.get (R.PASS_TRAIN_INFO_REV_MIN 0 p))
    let hi := min (bits b 76 8) (s.get (R.PASS_TRAIN_INFO_REV_MAX 0 p))
    let s := s.setPPort p { s.pPort p with rev := hi, noRev := decide (hi < lo) }
    if s.passState p = passMAP then
      let x := { s.pPort p with tDown := (s.pPort p).tDown &&& downGood }
      let s := s.setPPort p x
      if popCount 68 x.goodDown < 16 then s.trainFail p 4 else s
    else
      (foldN 68 s (fun lane s =>
        if (s.pPort p).goodDown.testBit lane && !downGood.testBit lane && s.passState p == passRETRAIN then s.basinMark p true lane else s)).passStatus p)

/-- TS_MAP: the Basin end's vectors, width and revision; the Vale end computes its map and the checksum (R143, R155). NO_REV
ends the train (R161). -/
def execTsMap (p : Port) (err : List (Nat × Nat)) (s : State) : Out :=
  let x := s.pPort p
  if !s.mapping p || (x.rev == 0 && !x.noRev) then .next s
  else
    match s.widthCode p with
    | none => .next (if s.passState p = passMAP then s.trainFail p 4 else s.passRetire p)
    | some c =>
      let body := pack [(68, x.goodUp), (68, x.goodDown), (2, c), (8, x.rev), (1, b2n x.noRev)]
      s.mapWord p 3 x.tDown body err (fun s b =>
        if bit b 146 then
          let s := s.passEvent p R.PASS_EVENT_VERSION_FAIL
          if s.passState p = passMAP then s.trainFail p 6 else s
        else
          let up := mapOf (bits b 0 68) (bits b 136 2)
          let down := mapOf (bits b 68 68) (bits b 136 2)
          let s := s.setPEnd 1 p { s.pEnd 1 p with txMap := up, rxMap := down, txGood := bits b 0 68, rxGood := bits b 68 68 }
          (s.setPPort p { s.pPort p with sum := some (mapSum up down) }).passStatus p)

/-- The map is agreed: a train goes to CONFIG, a retrain on to alignment (R156, R165). -/
def State.mapAgreed (s : State) (p : Nat) (fb : Bool) : State :=
  let x := s.pPort p
  let s := (s.putB (R.PASS_STATUS_FALLBACK_MAP 0 p) fb).putB (R.PASS_STATUS_FALLBACK_MAP 1 p) fb
  let s := if x.rev = 0 then s else (s.put (R.PASS_STATUS_REVISION 0 p) x.rev).put (R.PASS_STATUS_REVISION 1 p) x.rev
  let s := if s.passState p = passRETRAIN then s.setPPort p { x with mapped := true } else s.setPassState p passCONFIG
  s.passStatus p

/-- TS_MAPSUM: the Basin end compares the checksum with its own map's (R156). -/
def execTsMapsum (p : Port) (err : List (Nat × Nat)) (s : State) : Out :=
  match (s.pPort p).sum with
  | none => .next s
  | some v => s.mapWord p 4 (s.pPort p).tUp v err (fun s b =>
      let x := s.pPort p
      match s.widthCode p with
      | none => if s.passState p = passMAP then s.trainFail p 4 else s.passRetire p
      | some c =>
        let up := mapOf x.goodUp c
        let down := mapOf x.goodDown c
        if bits b 0 32 = mapSum up down then (s.installMap p c up down x.goodUp x.goodDown).mapAgreed p false
        else s.attemptFail p)

/-- The blocks of R158: the first lane and the width code, in the order of preference. -/
def blocks : List (Nat × Nat × Nat) := [(0, 0, 0), (1, 0, 1), (2, 32, 1), (3, 0, 2), (4, 16, 2), (5, 32, 2), (6, 48, 2)]

/-- The block mask of an end's view of both directions (R158). -/
def blockMask (up down : Nat) : Nat :=
  blocks.foldl (fun m b =>
    if (List.range (lanesOf b.2.2)).all (fun i => up.testBit (b.2.1 + i) && down.testBit (b.2.1 + i)) then m ||| 1 <<< b.1 else m) 0

/-- The block that both masks mark: the widest, the lowest-numbered among equals (R158), within MAX_WIDTH. -/
def blockPick (cap a b : Nat) : Option (Nat × Nat × Nat) :=
  blocks.find? (fun x => a.testBit x.1 && b.testBit x.1 && decide (cap ≤ x.2.2))

/-- TS_OFFER: the two ends' masks choose the common block (R158), once each has the other's. DEDUCED (notes/assumptions/26.md):
the Vale end's view of UP is what this train found good. -/
def execTsOffer (p : Port) (up down : List (Nat × Nat)) (s : State) : Out :=
  let x := s.pPort p
  let st := s.passState p
  let cap := min 2 (s.get (R.PASS_CTL_MAX_WIDTH p))
  let mb := blockMask x.goodUp x.goodDown
  let mv := blockMask x.tUp (s.valeDown p)
  if (st = passFALLBACK ∧ !s.ucRestarting ucPASS) ∨ (st = passRETRAIN ∧ x.fb ∧ ¬ x.mapped) then
    match tsHeard x.tUp 5 x.att mv up, tsHeard x.tDown 5 x.att mb down with
    | .word wv, .word wb =>
      let atBasin := blockPick cap mb (bits (tsBody wv) 0 7)
      if tsKind wv = 5 ∧ tsKind wb = 5 ∧ atBasin = blockPick cap mv (bits (tsBody wb) 0 7) then
        match atBasin with
        | some b =>
          let m := (List.range (lanesOf b.2.2)).map (b.2.1 + ·)
          .next ((s.installMap p b.2.2 m m x.goodUp x.goodDown).mapAgreed p true)
        | none => .next (if st = passFALLBACK then s.trainFail p 5 else s)
      else .next s
    | _, _ => .next s
  else .next s

/-- The port is ACTIVE (R156, R160, R165): warnings of R169, what waited for it. -/
def State.passActive (s : State) (p : Nat) : State :=
  let x := s.pPort p
  let d := p / 2
  let c := s.get (R.PASS_STATUS_WIDTH 0 p)
  let retrain := s.passState p == passRETRAIN
  let s := s.setPassState p passACTIVE
  let resent (s : State) (e : Nat) : State :=
    let k := (s.pEnd e p).replay.length
    let s := s.setPEnd e p { s.pEnd e p with cfg := false, bits := 0, diff := [], skip := false }
    (s.bump (R.PASS_LINK_STATS_REPLAYED e p) k).count (ctrPassEnd e p) 3 none none k
  let s := resent (resent s 0) 1
  let s := s.setPPort p { x with fails := 0, keep := false, lower := none, mapped := false, fb := false, pend := [], full := false,
                                 warn16 := x.warn16 || c == 2 }
  let fell := retrain && decide (x.oldW < c)
  let s := if fell then s.passEvent p R.PASS_EVENT_HALVED else s
  let s := if fell && c == 1 then s.logEvent 0x0011 sevINFO d p else s
  let s := if c = 2 ∧ ¬ x.warn16 then s.logEvent 0x0012 sevWARNING d p else s
  let s := s.dieWarn d
  -- DOWN lanes that the Basin end has not heard of are reported now.
  let s := foldN 68 s (fun lane s =>
    if (s.pEnd 1 p).failed.testBit lane && !(s.pPort p).down.testBit lane then s.ctlSend 1 p 2 lane else s)
  let s := x.pend.foldl (fun s q => if s.passState p = passACTIVE then s.laneHandle p q.1 q.2 else s) s
  let s := s.renegDone p
  if (s.pPort (sibling p)).hand = .waits ∧ s.passState p = passACTIVE then s.handStart (sibling p) else s

/-- The free slots of each receive buffer of an end. -/
def PEnd.free (y : PEnd) (c : Nat) : Nat := passCapacity c - chanSlots (y.rxq.map (·.2)) c

/-- TS_CONFIG at end `e`: its partner's next SEQ and DSEQ and free slots (R155, R160). With both ends served the port is
ACTIVE. -/
def execTsConfig (e : End) (p : Port) (err : List (Nat × Nat)) (s : State) : Out :=
  let n := endNum e
  let x := s.pPort p
  let st := s.passState p
  let a := s.pEnd (1 - n) p
  let body := pack ([(10, a.rxNext), (12, (s.strm (p / 2) (1 - n)).rx)] ++ (List.range 6).map (fun c => (12, a.free c)))
  if (st = passCONFIG ∧ !s.ucRestarting ucPASS) ∨ (st = passRETRAIN ∧ x.mapped) then
    match tsHeard (if n = 0 then x.tUp else x.tDown) 6 x.att body err with
    | .failed => .next s
    | .word w =>
      if tsKind w ≠ 6 then .next s
      else
        let seq := bits (tsBody w) 0 10
        let y := s.pEnd n p
        let left := if y.replay.any (fun q => q.seq == seq) then y.replay.dropWhile (fun q => q.seq != seq) else []
        let held := left.foldl (fun l q => l ++ q.msgs) []
        let base := (List.range 6).foldl (fun (t : Tbl Nat) c =>
          Tbl.set (fun _ => 0) t c ((bits (tsBody w) (22 + 12 * c) 12 + 65536 - chanSlots held c % 65536) % 65536)) []
        let s := s.setPEnd n p { y with replay := left, txNext := (seq + left.length) % 1024, base := base, sent := [], rep := [], freed := [], cfg := true }
        if (s.pEnd (1 - n) p).cfg then .next ((s.passActive p).passStatus p) else .next s
  else .next s

/-! ## Steps of the trains (R156, R159) -/

/-- Lanes drop out of the train; the next state follows while 16 are good each way. -/
def State.trainStep (s : State) (p st next up down : Nat) : State :=
  if s.passState p ≠ st ∨ s.ucRestarting ucPASS then s
  else
    let x := s.pPort p
    let x := { x with tUp := x.tUp &&& up, tDown := x.tDown &&& down }
    let s := s.setPPort p x
    if popCount 68 x.goodUp < 16 ∨ popCount 68 x.goodDown < 16 then s.trainFail p 4 else s.setPassState p next

/-- PASS_DETECT_DONE: termination detected on the lanes given. -/
def execPassDetectDone (p : Port) (up down : Nat) (s : State) : Out := .next (s.trainStep p passDETECT passBIT_LOCK up down)
/-- PASS_BIT_LOCK_DONE: the lanes given lock. -/
def execPassBitLockDone (p : Port) (up down : Nat) (s : State) : Out :=
  .next (s.trainStep p passBIT_LOCK passEQUALISE up down)
/-- PASS_EQUALISE_DONE. -/
def execPassEqualiseDone (p : Port) (s : State) : Out :=
  .next (s.trainStep p passEQUALISE passLANE_TEST lanes68 lanes68)
/-- PASS_LANE_TEST_DONE: lanes with a bit error are not good for this train. -/
def execPassLaneTestDone (p : Port) (upBad downBad : Nat) (s : State) : Out :=
  let t := s.trainStep p passLANE_TEST passMAP (lanes68 - upBad % 2 ^ 68) (lanes68 - downBad % 2 ^ 68)
  if s.passState p = passLANE_TEST ∧ t.passState p = passMAP then
    let t := t.setPPort p { t.pPort p with att := 1 }
    .next ((t.put (R.PASS_TRAIN_INFO_MAP_ATTEMPTS 0 p) 1).put (R.PASS_TRAIN_INFO_MAP_ATTEMPTS 1 p) 1)
  else .next t

/-- PASS_TRAIN_TIMEOUT: a bound of R159 is exceeded. LAST_FAIL names the state where it has a code for it; for the other
states the spec gives none, and the code is free (notes/assumptions/1.md). -/
def execPassTrainTimeout (p : Port) (s : State) : Out :=
  let st := s.passState p
  if s.ucRestarting ucPASS then .next s
  else if st = passDETECT ∨ st = passBIT_LOCK ∨ st = passEQUALISE ∨ st = passCONFIG then .next (s.trainFail p st)
  else if passEQUALISE < st ∧ st < passCONFIG then
    let r := s.freeWord
    .next (r.2.trainFail p (r.1.toNat % 8))
  else .next s

/-- PASS_RETRAIN_TIMEOUT: a retrain misses its 4 µs, and the port escalates; its trigger is R162 where that asked for the
retrain (R166, spec/15 R359). -/
def execPassRetrainTimeout (p : Port) (s : State) : Out :=
  if s.passState p = passRETRAIN then .next (s.escalate p (if s.pass.reneg.head? = some p.val then 2 else 0)) else .next s

/-- PASS_CTL_RETRAIN: on an ACTIVE port the Basin end asks for a retrain with reason 2 (R165). -/
def execPassCtlRetrain (p : Port) (s : State) : Out := .next (s.wantRetrain 0 p 2)

/-- PASS_CTL_FULL_TRAIN: an ACTIVE port escalates (R166). -/
def execPassCtlFullTrain (p : Port) (s : State) : Out :=
  if s.passState p = passACTIVE then .next (s.escalate p 1) else .next s

/-- PASS_FAIL_GO: a lane is marked failed as its bucket would (R163). -/
def execPassFailGo (p : Port) (lane : Nat) (down : Bool) (s : State) : Out :=
  .next ((s.laneFail (if down then 1 else 0) p lane).passStatus p)

/-- PASS_LANE_LOSS_OF_LOCK: the lane fails at once (R163). -/
def execPassLaneLossOfLock (p : Port) (lane : Fin 68) (down : Bool) (s : State) : Out :=
  let e := if down then 1 else 0
  let y := s.pEnd e p
  if y.failed.testBit lane then .next s
  else
    let s := s.setPEnd e p { y with lol := setBits y.lol lane 1 1 }
    .next ((s.laneFail e p lane).passStatus p)

/-! ## What software reads -/

/-- PASS_LANE_INFO for the lane and direction of PASS_LANE_SEL. -/
def State.laneInfo (s : State) (e p : Nat) : Nat :=
  let lane := s.get (R.PASS_LANE_SEL_LANE e p)
  let tx := s.get (R.PASS_LANE_SEL_DIR e p) = 1
  if 68 ≤ lane then 0
  else
    let x := s.pPort p
    let y := s.pEnd e p
    let dir := if tx then 1 - e else e
    let failed := (if dir = 0 then x.up else x.down).testBit lane || (!tx && y.failed.testBit lane)
    let map := if tx then y.txMap else y.rxMap
    let good := if tx then y.txGood else y.rxGood
    let st := s.passState p
    let runs := st = passACTIVE ∨ st = passRETRAIN
    let fb := s.get (R.PASS_STATUS_FALLBACK_MAP e p) = 1
    let code := if failed then 2
      else if runs ∧ map.contains lane then 0
      else if runs ∧ ¬ fb ∧ good.testBit lane then 1
      else 3
    let log := if code = 0 then map.idxOf lane else 0x7F
    let rx : Nat := if tx then 0
      else ((s.bucket 7 (laneBucket e p lane)).level % 256) <<< 16 + (Tbl.get (fun _ => 0) y.mism lane % 65536) <<< 24
    code + log <<< 2 + rx + b2n ((s.pEnd dir p).lol.testBit lane) <<< 40

/-- PASS_CREDIT_c. -/
def State.creditView (s : State) (e p c : Nat) : Nat :=
  let y := s.pEnd e p
  let free := if y.base = [] then 0 else y.free c
  y.credits c % 4096 + (free % 4096) <<< 16 + passCapacity c <<< 32

/-- A register of eight map entries. -/
def mapView (m : List Nat) (k : Nat) : Nat := ofBytes ((List.range 8).map (fun j => m.getD (8 * k + j) 0x7F))

/-- The value of a Pass register that hardware state gives, by its offset; `none` for one that is stored. -/
def State.passView (s : State) (e p off : Nat) : Option Nat :=
  let y := s.pEnd e p
  if off = 0x18 then some (y.rxGood % 2 ^ 64)
  else if off = 0x20 then some (y.rxGood / 2 ^ 64 % 16)
  else if off = 0x28 then some (y.txGood % 2 ^ 64)
  else if off = 0x30 then some (y.txGood / 2 ^ 64 % 16)
  else if off = 0x40 then some (s.laneInfo e p)
  else if off = 0x58 then
    some (y.rxNext + y.replay.length <<< 16 + (s.strm (p / 2) (1 - e)).tx <<< 32 + (s.strm (p / 2) e).rx <<< 48)
  else if 0x60 ≤ off ∧ off < 0x90 then some (s.creditView e p ((off - 0x60) / 8))
  else if 0x100 ≤ off ∧ off < 0x140 then some (mapView y.rxMap ((off - 0x100) / 8))
  else if 0x140 ≤ off ∧ off < 0x180 then some (mapView y.txMap ((off - 0x140) / 8))
  else none

/-- Both ports of a die go through DISABLED together: SEQ and DSEQ restart at 0 (R160). -/
def State.passDown (s : State) (d : Nat) : State :=
  let s := foldN 2 s (fun i s =>
    let p := 2 * d + i
    let s := if s.passState p = passRETIRED then s else s.passClear p passDISABLED
    let z (y : PEnd) : PEnd := { y with rxNext := 0, txNext := 0, nak := false, replay := [], moved := [], rxq := [], base := [], sent := [], rep := [], freed := [] }
    let s := s.setPPort p { s.pPort p with fails := 0, hand := .no, full := false, keep := false }
    (s.setPEnd 0 p (z (s.pEnd 0 p))).setPEnd 1 p (z (s.pEnd 1 p)))
  (s.setStrm d 0 {}).setStrm d 1 {}

/-- Both ports of a die that are not retired train (R156). -/
def State.passUp (s : State) (d : Nat) : State :=
  foldN 2 s (fun i s => if s.passState (2 * d + i) = passRETIRED then s else s.passStart (2 * d + i) false)

end Sys2Proof.Machine
end

