-- ==== Sys2Proof/Machine/DieRows.lean ====
section
/-!
DEFINITION. DIE_OFFLINE and DIE_ONLINE (spec/03_vale_die_cache.md R80, spec/02 R58, spec/15 R349), and the sweeps of the
homes and proxies (spec/04 R110, R120, spec/06 R168, spec/10 R257, R258, spec/13 R314).
-/

namespace Sys2Proof.Machine

/-! ## DIE_OFFLINE -/

/-- Step 1 of R80: every ONLINE core stops. -/
def State.dieDown (s : State) (d : Die) : State :=
  let s := s.setDieCtl d { s.dieCtl d with phase := 1 }
  let s := foldN 32 s (fun i s =>
    let h := d.val * 32 + i
    let st := s.coreState h
    let s := s.setHart h { s.hart h with wasUp := st == coreONLINE || st == coreSTARTING || st == coreRESETTING }
    if st = coreONLINE then s.coreStop h false false else s)
  s.dieFlush d

/-- The die argument of DIE_OFFLINE and DIE_ONLINE. -/
def QCmd.die (c : QCmd) : Nat := c.pkt.data.headD 0

/-- DIE_OFFLINE (R80, R349). -/
def execDieOffline (s : State) : Out :=
  .next (s.execLong opDIE_OFFLINE 1 (fun c s =>
    if 12 ≤ c.die then (s, some (stINVALID_ARG, 0, []))
    else if !s.dieOnline c.die || decide (popCount 12 (s.get R.PKG_DIES_VALE_ONLINE) ≤ 1) then
      (s, some (stINVALID_STATE, 0, []))
    else (s.dieDown (Fin.ofNat 12 c.die), none)))

/-- Is a die quiescent: its trackers and its writeback buffer are empty, its slices are disabled, and neither port is in a
retrain or a handover (R80 step 3, spec/06 R170)? -/
def State.dieStill (s : State) (d : Nat) : Bool :=
  s.die.trk.all (fun e => e.die != d) && s.die.wb.all (fun e => e.die != d) &&
  s.die.walks.all (fun w => flushDie w.u != d) &&
  (List.range 16).all (fun i => s.get (R.VALE_VC_STATUS_STATE d i) == 2) &&
  (List.range 2).all (fun i => s.passState (2 * d + i) != passRETRAIN && (s.pPort (2 * d + i)).hand == .no)

/-- Write PKG_DIES.VALE_ONLINE and its mirror. -/
def State.setDieOnline (s : State) (d : Nat) (b : Bool) : State :=
  (s.putBit R.PKG_DIES_VALE_ONLINE d b).putB (R.VALE_DIE_STATUS_ONLINE d) b

/-- DIE_OFFLINE_COMPLETE: the die signals quiescence, its ports go DISABLED and VALE_ONLINE is cleared (R80 steps 4
and 5). -/
def execDieOfflineComplete (d : Die) (s : State) : Out :=
  if (s.dieCtl d).phase = 2 ∧ s.dieStill d then
    let s := s.setDieCtl d { s.dieCtl d with phase := 0, quiet := true }
    let s := ((s.passDown d).put (R.VALE_DIE_STATUS_OFFLINE_FLUSH d) 0).setDieOnline d false
    .next (s.longEnd stOK)
  else .next s

/-! ## DIE_ONLINE -/

/-- The die's arrays are filled: every cache and the snoop filter are empty, and every way that is not retired is in
service (R80). A core whose L2 has no way left is to be retired (R82). -/
def State.dieArrays (s : State) (d : Nat) : State :=
  let hart (h : Nat) : Bool := h / 32 == d
  let c := s.core
  let x := s.die
  let s : State := { s with
    core := { c with
      l1i := c.l1i.filter (fun e => !hart (e.1 / 1024)), l1d := c.l1d.filter (fun e => !hart (e.1 / 1024)),
      l1iPlru := c.l1iPlru.filter (fun e => !hart (e.1 / 128)), l1dPlru := c.l1dPlru.filter (fun e => !hart (e.1 / 128)),
      l2 := c.l2.filter (fun e => !hart (e.1 / 32768)) },
    die := { x with
      vc := x.vc.filter (fun e => e.1 / 2 ^ 20 != d), sf := x.sf.filter (fun e => e.1 / (16 * 4096 * 24) != d),
      filled := x.filled.filter (fun e => e.1 != d), held := x.held.filter (fun m => m.dstAgent != d),
      sweep := x.sweep.filter (fun e => e.1 != d) } }
  let s := foldN 32 s (fun i s =>
    let r := s.get (R.VALE_L2_STATUS_WAYS_RETIRED d i)
    let s := (s.put (R.VALE_L2_CTL_WAY_DISABLE d i) r).put (R.VALE_L2_STATUS_WAYS_DISABLED d i) r
    if popCount 16 r = 16 then s.retirePending (d * 32 + i) else s)
  foldN 16 s (fun i s =>
    let r := s.get (R.VALE_VC_STATUS_WAYS_RETIRED d i)
    let s := (s.put (R.VALE_VC_CTL_WAY_DISABLE d i) r).put (R.VALE_VC_STATUS_WAYS_DISABLED d i) r
    (s.put (R.VALE_VC_CTL_SLICE_DISABLE d i) 0).put (R.VALE_VC_STATUS_STATE d i) 0)

/-- The Vale ends of the die's ports come out of their own reset, without marks (spec/06 R157). -/
def State.valeEndsReset (s : State) (d : Nat) : State :=
  let s := s.resetRange (0x1000000 + d * 0x100000 + 0x60000) (0x1000000 + d * 0x100000 + 0x80000)
  foldN 2 s (fun i s =>
    let s := s.setPEnd 1 (2 * d + i) {}
    s.setPassState (2 * d + i) (s.passState (2 * d + i)))

/-- DIE_ONLINE (R80, R349). -/
def execDieOnline (s : State) : Out :=
  .next (s.execLong opDIE_ONLINE 1 (fun c s =>
    let d := c.die
    if 12 ≤ d then (s, some (stINVALID_ARG, 0, []))
    else if s.dieOnline d || (s.get R.PKG_DIES_VALE_RETIRED).testBit d then (s, some (stINVALID_STATE, 0, []))
    else
      let s := ((s.setDieCtl d { s.dieCtl d with phase := 3 }).dieArrays d).dieCounters d
      (((s.passDown d).valeEndsReset d).passUp d, none)))

/-- The cores that DIE_ONLINE brings up (R58). -/
def State.dieCoresUp (s : State) (d : Nat) (all : Bool) : State :=
  foldN 32 s (fun i s =>
    let h := d * 32 + i
    if (all || (s.hart h).wasUp) && s.coreState h == coreOFFLINE && !s.isPending h then s.coreStart h else s)

/-- DIE_ONLINE_COMPLETE: with both trains over, the die comes online, or the operation ends DEVICE_ERROR (R349). -/
def execDieOnlineComplete (d : Die) (s : State) : Out :=
  let a := s.passState (2 * d)
  let b := s.passState (2 * d + 1)
  let full (st : Nat) : Bool := st == passACTIVE || st == passRETIRED
  if (s.dieCtl d).phase = 3 ∧ full a ∧ full b then
    let c := s.dieCtl d
    if a = passACTIVE ∨ b = passACTIVE then
      let s := (s.setDieCtl d { c with phase := 0, quiet := false, ever := true }).setDieOnline d true
      .next ((s.dieCoresUp d (!c.ever)).longEnd stOK)
    else .next ((s.setDieCtl d { c with phase := 0 }).longEnd stDEVICE_ERROR)
  else .next s

/-! ## Sweeps -/

/-- Directory entries of a slice as (set, way), those that meet `p`. -/
def State.dirEntries (s : State) (n : Nat) (p : Nat → DirE → Bool) : List (Nat × Nat) :=
  (s.home.dir.filter (fun e => e.1 / 2 ^ 20 == n && e.2.state != 0 && p (e.1 % 16) e.2)).map
    (fun e => (e.1 / 16 % 65536, e.1 % 16))
/-- RPT entries. -/
def State.rptEntries (s : State) (n : Nat) (p : Nat → RptE → Bool) : List (Nat × Nat) :=
  (s.home.rpt.filter (fun e => e.1 / 2 ^ 17 == n && e.2.rstate != 0 && p (e.1 % 16) e.2)).map
    (fun e => (e.1 / 16 % 8192, e.1 % 16))
/-- RLD entries. -/
def State.rldEntries (s : State) (n : Nat) (p : Nat → Nat → RldE → Bool) : List (Nat × Nat) :=
  (s.home.rld.filter (fun e => e.1 / 2 ^ 18 == n && e.2.pstate != 0 && p (e.1 / 16 % 16384) (e.1 % 16) e.2)).map
    (fun e => (e.1 / 16 % 16384, e.1 % 16))

/-- The lines of a unit's entries that are still listed, as line addresses. `who` is the member of a leave, 32 for every
member, and 64 more where the member was lost. -/
def State.walkLines (s : State) (who : Nat) : WalkUnit → List Nat
  | .dirWay n w => (s.dirEntries n (fun v _ => v == w)).map (fun e =>
      s.gaOfD (dirLine n e.1 (s.dirE n e.1 e.2).tag) / 64)
  | .rptWay n w => (s.rptEntries n (fun v _ => v == w)).map (fun e =>
      s.gaOfD (rptLine n e.1 (s.rptE n e.1 e.2).tag) / 64)
  | .rldWay n w => (s.rldEntries n (fun _ v _ => v == w)).map (fun e => rldLine n e.1 (s.rldE n e.1 e.2).tag / 64)
  | .leaveRld n => (s.rldEntries n (fun set _ e =>
      who % 64 == 32 || rldLine n set e.tag / 2 ^ 44 == s.get (R.ROUTE_MEMBER_PACKAGE_ID (who % 64)))).map (fun e =>
      rldLine n e.1 (s.rldE n e.1 e.2).tag / 64)
  | .leaveRpt n => (s.rptEntries n (fun _ e => e.members.testBit (who % 64))).map (fun e =>
      s.gaOfD (rptLine n e.1 (s.rptE n e.1 e.2).tag) / 64)
  | .dieLost d n =>
      (s.dirEntries n (fun _ e => e.presence.testBit d)).map (fun e => s.gaOfD (dirLine n e.1 (s.dirE n e.1 e.2).tag) / 64) ++
      (s.rldEntries n (fun _ _ e => e.presence.testBit d)).map (fun e => rldLine n e.1 (s.rldE n e.1 e.2).tag / 64)
  | .cxlRegion i n => (s.dirEntries n (fun _ _ => true)).filterMap (fun e =>
      let d := dirLine n e.1 (s.dirE n e.1 e.2).tag
      if s.cxlPort d = some i.val then some (s.gaOfD d / 64) else none)
  | .vcTag d sl set n =>
      let gone (line : Nat) : Bool := valeSlice (line * 64) == sl.val && valeSet (line * 64) == set.val &&
        s.dieSt d line == .i && (s.inWb d line).isNone
      ((s.dirEntries n (fun _ e => decide (2 ≤ e.state) && e.owner == d.val)).map (fun e =>
        s.gaOfD (dirLine n e.1 (s.dirE n e.1 e.2).tag) / 64) ++
       (s.rldEntries n (fun _ _ e => decide (2 ≤ e.pstate) && e.owner == d.val)).map (fun e =>
        rldLine n e.1 (s.rldE n e.1 e.2).tag / 64)).filter gone

/-- The slice of a unit. -/
def walkSlice : WalkUnit → Nat
  | .dirWay n _ => n
  | .rptWay n _ => n
  | .rldWay n _ => n
  | .leaveRld n => n
  | .leaveRpt n => n
  | .dieLost _ n => n
  | .cxlRegion _ n => n
  | .vcTag _ _ _ n => n

/-- Clear holder `h` from a home line (R168, spec/10 R258): the copy it owned is lost. -/
def State.clearHolder (s : State) (n line h : Nat) : State :=
  let dd := s.dOfLine line
  let v := s.homeView n dd
  if v.ownedBy h then s.lostCopy n line h else s.writeView n dd (v.drop h)

/-- Die `d` is cleared from a line that it no longer holds: memory, or the remote home, takes the marker (R168). -/
def State.clearDie (s : State) (n line d : Nat) : State :=
  if s.lineLocal line then s.clearHolder n line d
  else
    let pv := s.proxyView n (line * 64)
    if pv.ownedBy d then s.pxLostCopy n line d else s.writeRld n (line * 64) (pv.dropPx d)

/-- The sweep's step at one line. -/
def State.walkStep (s : State) (u : WalkUnit) (who line : Nat) : State :=
  let n := walkSlice u
  let s := s.lostLook n line
  let v := s.homeView n (s.dOfLine line)
  let recalled (s : State) (mask : Nat) (owner : Option Nat) : State :=
    match s.freeSlot n with
    | some h => (s.recallLock n h line .walk mask owner v.kind).txnProceed n h
    | none => s
  let px (s : State) : State :=
    match s.freeSlot n with
    | some h =>
      let req : Msg := { vc := vcSNP, opc := 0, srcPkg := s.pkgId, srcAgent := agHOME + n, dstPkg := s.pkgId,
                         dstAgent := agHOME + n, txn := h, addr := line }
      ((s.pxLostLook n line).pxRecall n h line .walk req).pxProceed n h
    | none => s
  match u with
  | .dirWay _ _ => recalled s v.mask v.owner
  | .rptWay _ _ => recalled s ((v.mask >>> 64) <<< 64) (v.owner.filter (fun o => decide (64 ≤ o)))
  | .rldWay _ _ => px s
  | .leaveRld _ => px s
  | .leaveRpt _ =>
    if 64 ≤ who then s.clearHolder n line who
    else
      let dd := s.dOfLine line
      s.writeView n dd ((s.homeView n dd).drop (64 + who))
  | .dieLost d _ => s.clearDie n line d
  | .vcTag d _ _ _ => s.clearDie n line d
  | .cxlRegion _ _ => recalled s v.mask v.owner

/-- Does the recall of a sweep still run at a slice? -/
def State.walkBusy (s : State) (n : Nat) : Bool :=
  s.home.locks.any (fun e => e.1 / 512 == n && (match e.2 with | some t => t.work == .walk | none => false))

/-- A sweep ends: WAY_RECALLING reads 0 once no way of the structure is recalled. -/
def State.walkEnd (s : State) (u : WalkUnit) (who : Nat) : State :=
  let s : State := { s with home := { s.home with sweeps := s.home.sweeps.erase ⟨u, who⟩ } }
  let more (p : WalkUnit → Bool) : Bool := s.home.sweeps.any (fun w => p w.u)
  match u with
  | .dirWay n _ => s.putB (R.HOME_DIR_STATUS_WAY_RECALLING n) (more (fun u => match u with | .dirWay m _ => m == n | _ => false))
  | .rptWay n _ => s.putB (R.HOME_RPT_STATUS_WAY_RECALLING n) (more (fun u => match u with | .rptWay m _ => m == n | _ => false))
  | .rldWay n _ => s.putB (R.HOME_RLD_STATUS_WAY_RECALLING n) (more (fun u => match u with | .rldWay m _ => m == n | _ => false))
  | .leaveRld _ => s.leaveFinish
  | .vcTag d sl set _ =>
    if more (fun u => match u with | .vcTag d' s' t' _ => d' == d && s' == sl && t' == set | _ => false) then s
    else { s with die := { s.die with sweep := s.die.sweep.filter (fun e => e != (d.val, sl.val, set.val)) } }
  | _ => s

/-- RECALL_WALK_ENTRY: a sweep reaches its next entry, a line that no transaction holds, and recalls or clears it; with no
entry left and every recall done it ends. -/
def execRecallWalkEntry (u : WalkUnit) (s : State) : Out :=
  match s.home.sweeps.find? (fun w => w.u == u) with
  | none => .next s
  | some w =>
    let ls := s.walkLines w.ix u
    match ls.find? (fun l => !s.lineBusy (walkSlice u) l) with
    | some l => .next (s.walkStep u w.ix l)
    | none => if ls = [] ∧ !s.walkBusy (walkSlice u) then .next (s.walkEnd u w.ix) else .next s

/-- A sweep starts, unless it runs. -/
def State.walkStart (s : State) (u : WalkUnit) (who : Nat := 0) : State :=
  if s.home.sweeps.contains ⟨u, who⟩ then s
  else { s with home := { s.home with sweeps := s.home.sweeps ++ [⟨u, who⟩] } }

/-- WAYS_LOW, when a structure of a slice comes to 8 enabled ways (R120). -/
def State.homeWaysLow (s : State) (n retired : Nat) : State :=
  if popCount 16 retired = 8 then s.logEvent 0x0021 sevWARNING 12 n else s

/-- A directory, RPT or RLD way is retired (R120). The last enabled way of a structure stays (notes/assumptions/28.md). -/
def State.dirWayRetire (s : State) (n w : Ix16) : State :=
  if (s.get (R.HOME_DIR_STATUS_WAYS_RETIRED n)).testBit w ∨ s.dirEnabled n = 1 <<< w.val then s
  else
    let s := ((s.putBit (R.HOME_DIR_STATUS_WAYS_RETIRED n) w true).recWay (wayDir n w)).put (R.HOME_DIR_STATUS_WAY_RECALLING n) 1
    (s.walkStart (.dirWay n w)).homeWaysLow n (s.get (R.HOME_DIR_STATUS_WAYS_RETIRED n))
def State.rptWayRetire (s : State) (n w : Ix16) : State :=
  if (s.get (R.HOME_RPT_STATUS_WAYS_RETIRED n)).testBit w ∨ s.rptEnabled n = 1 <<< w.val then s
  else
    let s := ((s.putBit (R.HOME_RPT_STATUS_WAYS_RETIRED n) w true).recWay (wayRpt n w)).put (R.HOME_RPT_STATUS_WAY_RECALLING n) 1
    (s.walkStart (.rptWay n w)).homeWaysLow n (s.get (R.HOME_RPT_STATUS_WAYS_RETIRED n))
def State.rldWayRetire (s : State) (n w : Ix16) : State :=
  if (s.get (R.HOME_RLD_STATUS_WAYS_RETIRED n)).testBit w ∨ s.rldEnabled n = 1 <<< w.val then s
  else
    let s := ((s.putBit (R.HOME_RLD_STATUS_WAYS_RETIRED n) w true).recWay (wayRld n w)).put (R.HOME_RLD_STATUS_WAY_RECALLING n) 1
    (s.walkStart (.rldWay n w)).homeWaysLow n (s.get (R.HOME_RLD_STATUS_WAYS_RETIRED n))

end Sys2Proof.Machine
end

