-- ==== Sys2Proof/Machine/Hzn.lean ====
section
/-!
DEFINITION. The Horizon ports (spec/10_horizon_fabric.md R234 to R250, R261). The partner of a port lies outside the
package: frames that arrive are commands, and what this package sends is in the replay buffers and in `State.hzn.ctl`.
-/

namespace Sys2Proof.Machine

/-- The stream of the bundle that a partner serial names (R244). -/
def State.hStrm (s : State) (serial : Nat) : HStream := Tbl.get (fun _ => {}) s.hzn.strm serial
def State.setHStrm (s : State) (serial : Nat) (x : HStream) : State :=
  { s with hzn := { s.hzn with strm := Tbl.set (fun _ => {}) s.hzn.strm serial x } }

/-- Frames are sent: they take their codewords on the line, and count. -/
def State.hznFrames (s : State) (p n : Nat) : State :=
  (s.setHPort p { s.hPort p with owed := (s.hPort p).owed + n }).count (ctrHzn p) 1 none none n

/-- Frames of a kind whose bytes go to MCID 0 are sent (spec/09 R221, R223). -/
def State.hznOverhead (s : State) (p n : Nat) : State := (s.hznFrames p n).hznTxBytes p 0 none (n * frameBytes)

/-- A CONTROL frame is sent. -/
def State.hznCtl (s : State) (p ctype : Nat) (args : List Nat) : State :=
  (({ s with hzn := { s.hzn with ctl := ⟨p, ctype, args⟩ :: s.hzn.ctl } } : State)).hznOverhead p 1

/-- Kept frames are sent again (R244). -/
def State.hznReplayed (s : State) (p n : Nat) : State :=
  ((s.bump (R.HZN_LINK_STATS_REPLAYED p) n).count (ctrHzn p) 4 none none n).hznOverhead p n

/-! ## Bundles (R244) -/

/-- The ports whose partner is that of port `p`, running revision 3, itself included. -/
def State.bundleOf (s : State) (p : Nat) : List Nat :=
  let runs (q : Nat) : Bool := (decide (hznCONFIG ≤ s.hznState q)) && s.get (R.HZN_STATUS_REVISION q) == 3
  (List.range 8).filter (fun q => q == p ||
    (runs p && runs q && s.get (R.HZN_PARTNER_SERIAL_SERIAL q) == s.get (R.HZN_PARTNER_SERIAL_SERIAL p)))

/-- An ACTIVE sibling of a port. -/
def State.hznSibling (s : State) (p : Nat) : Option Nat :=
  (s.bundleOf p).find? (fun q => q != p && s.hznState q == hznACTIVE)

/-- BUNDLE_PORTS of every port follows. -/
def State.hznBundles (s : State) : State :=
  foldN 8 s (fun p s =>
    let m := if s.hznState p < hznCONFIG then 0 else (s.bundleOf p).foldl (fun m q => m ||| 1 <<< q) 0
    s.put (R.HZN_STATUS_BUNDLE_PORTS p) m)

/-! ## Width (R248) -/

/-- The block of the `W` lanes of a width code that a vector holds whole, lowest-numbered first, as a mask. -/
def hznBlock (good c : Nat) : Option Nat :=
  let w := if c = 0 then 8 else if c = 1 then 4 else 2
  ((List.range (8 / w)).map (fun b => (2 ^ w - 1) <<< (w * b))).find? (fun m => good &&& m == m)

/-- The width code and the two blocks, for receive and transmit vectors and a cap. -/
def hznWidth (rx tx cap : Nat) : Option (Nat × Nat × Nat) :=
  (([0, 1, 2] : List Nat).filter (fun c => decide (cap ≤ c))).findSome? (fun c =>
    match hznBlock rx c, hznBlock tx c with
    | some a, some b => some (c, a, b)
    | _, _ => none)

/-! ## Leaving ACTIVE, failing, starting (R244, R246) -/

/-- Credits of a channel code (R241, R152). -/
def HPortSt.credits (y : HPortSt) (c : Nat) : Nat :=
  (Tbl.get (fun _ => 0) y.base c + Tbl.get (fun _ => 0) y.rep c + 65536 - Tbl.get (fun _ => 0) y.sent c % 65536) % 65536

/-- Slots of one channel code among messages. -/
def codeSlots (ms : List HMsg) (c : Nat) : Nat :=
  ((ms.filter (fun m => hmsgCode m == c)).map hmsgSlots).foldl (· + ·) 0

/-- May messages be sent now: room in the replay buffer, and their credits (R241, R244)? -/
def HPortSt.fits (y : HPortSt) (ms : List HMsg) : Bool :=
  decide (y.replay.length < 1024) && (List.range 16).all (fun c => decide (codeSlots ms c ≤ y.credits c))

/-- A PAYLOAD frame takes the next SEQ and its credits, and is kept. -/
def HPortSt.keep (y : HPortSt) (bseq : Nat) (ms : List HMsg) : HPortSt :=
  { y with txNext := (y.txNext + 1) % 4096, replay := y.replay ++ [⟨y.txNext, bseq, ms⟩],
           sent := (List.range 16).foldl (fun t c =>
             if codeSlots ms c = 0 then t else Tbl.upd (fun _ => 0) t c (fun v => (v + codeSlots ms c) % 65536)) y.sent }

/-- Frames taken over from siblings are retransmitted with SEQ of this port and their own BSEQ, as credits come; then each
sibling's partner is told (R167 steps 3 and 4 as R244 applies them). -/
def State.hznPump (s : State) (p : Nat) : Nat → State
  | 0 => s
  | k + 1 =>
    let y := s.hPort p
    match y.moved with
    | f :: fs =>
      if s.hznState p = hznACTIVE ∧ y.fits f.msgs then
        ((s.setHPort p { y.keep f.bseq f.msgs with moved := fs }).hznReplayed p 1).hznPump p k
      else s
    | [] => if y.takes = [] then s
      else y.takes.foldl (fun s h => s.hznCtl p 5 [h]) (s.setHPort p { y with takes := [] })

/-- A sibling's frames are taken over. -/
def State.hznMove (s : State) (p named : Nat) (fl : List HSent) : State :=
  let y := s.hPort p
  (s.setHPort p { y with moved := y.moved ++ fl, takes := y.takes ++ [named] }).hznPump p (fl.length + y.moved.length + 1)

/-- What waits for earlier BSEQs of a bundle none of whose ports runs is delivered in order: its gaps are lost (R244). -/
def HStream.close (x : HStream) : List (Nat × Nat × List HMsg) :=
  (List.range 4096).foldl (fun l i => l ++ x.wait.filter (fun w => w.1 == (x.rx + i) % 4096)) []

/-- Messages that a port has received come to their place: this package's agents, or the forwarding queue (R251, R252). -/
def State.hznDeliver (s : State) (p : Nat) : List HMsg → State
  | [] => s
  | x :: xs =>
    let dst := match x with | .ose m _ _ _ => m.dstPkg | .win w => w.dstPkg
    let hops := match x with | .ose _ _ h _ => h | .win w => w.hops
    let s : State :=
      if dst = s.pkgId then
        match x with
        | .ose m _ _ _ => if s.net.contains m then s else s.send m
        | .win w => { s with hzn := { s.hzn with win := s.hzn.win ++ [w] } }
      else if hops = 0 then
        ((s.hznConsume (fun y => y == x)).bump (R.HZN_DROP_STATS_HOPS p) 1).put (R.HZN_EVENT_FRAMES_LOST p) 1
      else { s with hzn := { s.hzn with fwd := s.hzn.fwd ++ [(p, x)] } }
    s.hznDeliver p xs

/-- A port goes to PMD_TRAIN (R246). -/
def State.hznStart (s : State) (p : Nat) : State :=
  let x := s.hPort p
  let s := s.setHPort p { x with rxNext := 0, txNext := 0, replay := [], naks := 0, agreed := false, oldW := 3,
                                 lower := none, hand := false, after := false, wait := .no, good := (0xFF, 0xFF),
                                 moved := [], takes := [] }
  (s.put (R.HZN_STATUS_STATE p) hznPMD).bump (R.HZN_TRAIN_INFO_FULL_TRAINS p) 1

/-- A port goes to DISABLED. -/
def State.hznDisable (s : State) (p : Nat) : State :=
  let s := (s.put (R.HZN_STATUS_STATE p) hznDISABLED).put (R.HZN_STATUS_WIDTH p) 3
  let s := (s.put (R.HZN_STATUS_REVISION p) 0).put (R.HZN_STATUS_MASTER p) 0
  let s := (s.put (R.HZN_LANES_RX_ACTIVE p) 0).put (R.HZN_LANES_TX_ACTIVE p) 0
  (s.put (R.HZN_PARTNER_VALID p) 0).hznBundles

/-- A port that ran leaves ACTIVE or RETRAIN for DISABLED (R244, R246): its unacknowledged frames are handed to a sibling,
or discarded. `after` asks for a full train next. -/
def State.hznDown (s : State) (p : Nat) (after : Bool) : State :=
  let sib := s.hznSibling p
  let x := s.hPort p
  let kept := x.replay ++ x.moved.zipIdx.map (fun f => { f.1 with seq := (x.txNext + f.2) % 4096 })
  let x := { x with replay := kept, moved := [], txNext := (x.txNext + x.moved.length) % 4096 }
  let serial := s.get (R.HZN_PARTNER_SERIAL_SERIAL p)
  let ran : Bool := s.hznState p == hznACTIVE
  let s := (s.hznDisable p).put (R.HZN_EVENT_DOWN p) 1
  match sib with
  | some q =>
    let s := s.setHPort p { x with hand := true, after := after, wait := .no }
    s.hznCtl q 4 (p :: leBytes 2 x.rxNext)
  | none =>
    let n := x.replay.length
    let s := s.setHPort p { x with replay := [], wait := .no }
    let s := if n = 0 then s
      else (s.put (R.HZN_EVENT_FRAMES_LOST p) 1).bump (R.HZN_DROP_STATS_UNACKED p) n
    let st := s.hStrm serial
    let s := (st.close).foldl (fun s w => s.hznDeliver w.2.1 w.2.2) s
    let s := s.setHStrm serial { st with wait := [] }
    let s := if ran then s.logEvent 0x0041 sevWARNING noDie p else s
    if after then s.hznStart p else s

/-- A train or a retrain fails (R246): LAST_FAIL, and what the port then waits for. -/
def State.hznFail (s : State) (p cause : Nat) (wait : HWaitFor) : State :=
  let s := s.put (R.HZN_TRAIN_INFO_LAST_FAIL p) cause
  let s := if s.hznState p = hznRETRAIN then s.hznDown p false else s.hznDisable p
  s.setHPort p { s.hPort p with wait := wait, agreed := false }

/-- A HELLO as this end sends it: serial, package ID, kind 0, revisions, lane masks, width code, revision, NO_REV. -/
def State.hznHello (s : State) (p width rev : Nat) (noRev : Bool) : State :=
  let x := s.hPort p
  let m := 0xFF - x.marks % 256
  let h : Hello :=
    { serial := Config.serial, pkg := s.pkgId, kind := 0, lo := s.get (R.HZN_TRAIN_INFO_REV_MIN p),
      hi := s.get (R.HZN_TRAIN_INFO_REV_MAX p), rxGood := x.good.1 &&& m, txGood := x.good.2, width := width, rev := rev,
      noRev := noRev }
  s.hznCtl p 1 (helloBytes h)

/-! ## Retrains and lane failures (R246, R249) -/

/-- A port that is ACTIVE enters RETRAIN, and sends HELLO: width and revision are chosen again (R250). -/
def State.hznRetrain (s : State) (p : Nat) : State :=
  if s.hznState p = hznACTIVE then
    let x := s.hPort p
    let s := s.setHPort p { x with agreed := false, oldW := s.get (R.HZN_STATUS_WIDTH p), naks := 0 }
    let s := ((s.put (R.HZN_STATUS_STATE p) hznRETRAIN).bump (R.HZN_TRAIN_INFO_RETRAINS p) 1).hznHello p 0 0 false
    -- R249: the port leaves ACTIVE; without an ACTIVE sibling the manager is warned.
    if (s.hznSibling p).isNone then s.logEvent 0x0041 sevWARNING noDie p else s
  else s

/-- This end triggers a retrain: RETRAIN_REQ is sent. -/
def State.hznAsk (s : State) (p reason : Nat) : State :=
  if s.hznState p = hznACTIVE then (s.hznCtl p 3 [reason]).hznRetrain p else s

/-- Ports whose revision is to be negotiated again retrain with reason 3, one port of each bundle at a time (R247); those
that are not ACTIVE when their turn comes are passed over. -/
def State.hznReneg (s : State) : State :=
  let l := s.hzn.reneg.filter (fun p => s.hznState p == hznACTIVE)
  l.foldl (fun s p =>
    if (s.bundleOf p).any (fun q => s.hznState q == hznRETRAIN) then s
    else ({ s with hzn := { s.hzn with reneg := s.hzn.reneg.erase p } } : State).hznAsk p 3)
    { s with hzn := { s.hzn with reneg := l } }

/-- A receive lane is marked failed. -/
def State.hznLaneFail (s : State) (p lane : Nat) : State :=
  let x := s.hPort p
  if x.marks.testBit lane then s
  else
    let s := s.setHPort p { x with marks := setBits x.marks lane 1 1 }
    let s := (s.putBit (R.HZN_LANES_RX_MARKED p) lane true).put (R.HZN_EVENT_LANE_FAILED p) 1
    if (s.get (R.HZN_LANES_RX_ACTIVE p)).testBit lane then s.hznAsk p 0 else s

/-- A class 12 fault: the lane with the most corrected symbols fails, or a retrain at the next lower width starts. -/
def State.hznFrameFault (s : State) (p : Nat) : State :=
  let x := s.hPort p
  match x.win.foldl (fun (b : Option (Nat × Nat)) w =>
      match b with | some (_, n) => if n < w.2 then some w else b | none => some w) none with
  | some (lane, _) => s.hznLaneFail p lane
  | none =>
    let s := s.setHPort p { x with lower := some (min 2 (s.get (R.HZN_STATUS_WIDTH p) + 1)) }
    s.hznAsk p 0

/-- Corrected symbols of a frame are counted on their lanes (R249). -/
def State.hznCorrected (s : State) (p : Nat) (corr : List Nat) : State :=
  foldN 8 s (fun lane s =>
    let n := corr.getD lane 0
    if n = 0 then s
    else
      let s := (s.bump (R.HZN_LANE_STATS_CORRECTED p lane) n).count (ctrHzn p) 5 none none n
      let x := s.hPort p
      let s := s.setHPort p { x with win := Tbl.upd (fun _ => 0) x.win lane (· + n) }
      foldN n s (fun _ s =>
        let r := s.charge 11 (p * 8 + lane) false
        let s := r.1.put (R.HZN_LANE_STATS_BUCKET p lane) (r.1.bucket 11 (p * 8 + lane)).level
        if r.2 then s.hznLaneFail p lane else s))

/-! ## Frames (R236 to R244) -/

/-- Messages' bytes are metered to their FMCID and the rest of the frame to the first one's (spec/09 R223,
notes/assumptions/29.md): what goes with each message of a frame. -/
def frameShares : List HMsg → List (HMsg × Nat)
  | [] => []
  | x :: xs =>
    let used := ((x :: xs).map hmsgSlots).foldl (· + ·) 0 * 16
    (x, hmsgSlots x * 16 + (frameBytes - used)) :: xs.map (fun y => (y, hmsgSlots y * 16))

def hmsgMcid (x : HMsg) : Nat := (hmsgIds x).2

/-- The bytes of a frame received, and of one sent. -/
def State.hznRxMeter (s : State) (ms : List HMsg) : State :=
  if ms = [] then s.meterAdd qHZN_RX 0 frameBytes
  else (frameShares ms).foldl (fun s e => s.meterAdd qHZN_RX (hmsgMcid e.1) e.2) s
def State.hznTxMeter (s : State) (p : Nat) (ms : List HMsg) : State :=
  (frameShares ms).foldl (fun s e => s.hznTxBytes p (hmsgMcid e.1) (hmsgWrites e.1) e.2) s

/-- The header of a frame that arrives: credits, acknowledgement and NAK (R238, R241, R244). -/
def State.hznHeader (s : State) (p : Nat) (f : HFrame) : State :=
  let x := s.hPort p
  let rep := f.crs.foldl (fun r c => Tbl.set (fun _ => 0) r (c.1 % 16) (c.2 % 65536)) x.rep
  let left := if f.ackV && x.replay.any (fun y => y.seq == f.ackSeq) then
      (x.replay.dropWhile (fun y => y.seq != f.ackSeq)).drop 1 else x.replay
  let s := s.setHPort p { x with rep := rep, replay := left }
  let s := if f.nak then s.hznReplayed p left.length else s
  s.hznPump p (x.moved.length + 1)

/-- A frame that failed: a NAK, and a retrain at the fourth in a row for one SEQ (R244). -/
def State.hznNak (s : State) (p : Nat) : State :=
  let x := s.hPort p
  let s := s.setHPort p { x with naks := x.naks + 1 }
  if x.naks + 1 = 4 then s.hznAsk p 1 else s

/-- Deliver frames of a bundle in BSEQ order, at most `k`. -/
def State.hznMerge (s : State) (serial : Nat) : Nat → State
  | 0 => s
  | k + 1 =>
    let st := s.hStrm serial
    match st.wait.find? (fun w => w.1 == st.rx) with
    | some w =>
      let s := s.setHStrm serial { st with rx := (st.rx + 1) % 4096, wait := st.wait.erase w }
      (s.hznDeliver w.2.1 w.2.2).hznMerge serial k
    | none => s

/-- Does a frame whose CRC passes break R237 to R239? -/
def frameBroken (f : HFrame) : Bool :=
  f.typ == 3 || (f.typ == 1 && (f.ctype == 0 || decide (7 < f.ctype))) ||
  (f.typ == 0 && hznStarts 0 f.msgs != some f.slotStart)

/-- A message with the FMCID that it came with. -/
def hmsgIn : HMsg → HMsg
  | .ose m f h c => .ose (if m.vc = vcREQ ∨ m.vc = vcWB then m else { m with mcid := f }) f h c
  | .win w => .win w

/-- A frame with a SEQ is received good and in order; of a broken one every message is discarded, its slots counted as
freed. -/
def State.hznAccept (s : State) (p : Nat) (f : HFrame) : State :=
  let x := s.hPort p
  let bad := frameBroken f
  let ms := if bad then [] else f.msgs.map hmsgIn
  let x := { x with rxNext := (f.seq + 1) % 4096, naks := 0, rxq := x.rxq ++ ms.map (fun m => (f.bseq, m)) }
  let x := if bad then f.msgs.foldl (fun x m => x.consume (f.bseq, m)) x else x
  let s := s.setHPort p x
  if s.get (R.HZN_STATUS_REVISION p) = 3 then
    let serial := s.get (R.HZN_PARTNER_SERIAL_SERIAL p)
    let st := s.hStrm serial
    let s := s.setHStrm serial { st with wait := st.wait ++ [(f.bseq, p, ms)] }
    s.hznMerge serial (st.wait.length + 1)
  else s.hznDeliver p ms

/-- A broken frame is discarded whole, its SEQ counted as received, with an urgent record (R239, R148). -/
def State.hznDiscard (s : State) (p : Nat) (f : HFrame) : State :=
  let s := if f.typ ≠ 1 ∧ f.seq = (s.hPort p).rxNext then s.hznAccept p f else s
  (s.put (R.HZN_EVENT_FORMAT_ERR p) 1).errRecord (bankHzn p) errUEC 0 (recInfo 0 0 0 s.pkgId) 0

/-- A frame fails on an ACTIVE port (R244, R249): the code does not correct its codeword. -/
def State.hznBad (s : State) (p : Nat) : State :=
  let s := (s.bump (R.HZN_LINK_STATS_CRC_ERRORS p) 1).meterAdd qHZN_RX 0 frameBytes
  let r := s.charge 12 p false
  (if r.2 then r.1.hznFrameFault p else r.1).hznNak p

/-- A codeword arrives on an ACTIVE port (R236): it fails, or its frame is heard once the code has corrected it. -/
def State.hznHear (s : State) (p : Nat) (f : HFrame) (act : State → State) : State :=
  let s := s.count (ctrHzn p) 2
  match fecHeard (s.get (R.HZN_LANES_RX_ACTIVE p)) f.err with
  | none => s.hznBad p
  | some corr => act (s.hznCorrected p corr)

/-- HZN_PAYLOAD_FRAME (R239, R244): a PAYLOAD frame, or one that no row names: of TYPE 3, or a CONTROL frame of a type that
R239 does not list. -/
def execHznPayloadFrame (p : HPort) (f : HFrame) (s : State) : Out :=
  if s.hznState p ≠ hznACTIVE ∨ !(f.typ == 0 || frameBroken f) then .next s
  else
    .next (s.hznHear p f (fun s =>
      if frameBroken f then (s.meterAdd qHZN_RX 0 frameBytes).hznDiscard p f
      else
        let s := s.hznHeader p f
        if f.seq = (s.hPort p).rxNext then (s.hznRxMeter f.msgs).hznAccept p f else s.meterAdd qHZN_RX 0 frameBytes))

/-- HZN_IDLE_FRAME (R244). -/
def execHznIdleFrame (p : HPort) (f : HFrame) (s : State) : Out :=
  if s.hznState p ≠ hznACTIVE then .next s
  else .next (s.hznHear p f (fun s => (s.meterAdd qHZN_RX 0 frameBytes).hznHeader p f))

/-- A CONTROL frame arrives in a state that reads them. -/
def State.hznControl (s : State) (p : Nat) (hd : HFrame) (act : State → State) : Out :=
  let st := s.hznState p
  if st < hznEXCHANGE then .next s
  else if st = hznACTIVE then
    .next (s.hznHear p hd (fun s => act ((s.meterAdd qHZN_RX 0 frameBytes).hznHeader p hd)))
  else if (fecHeard 0xFF hd.err).isSome then .next (act s)
  else .next s

/-- HZN_REPLAY_TIMEOUT: 4 µs without an acknowledgement (R244). -/
def execHznReplayTimeout (p : HPort) (s : State) : Out :=
  let n := (s.hPort p).replay.length
  if s.hznState p = hznACTIVE ∧ 0 < n then
    .next (s.hznReplayed p n)
  else .next s

/-- HZN_RETRAIN_REQ. -/
def execHznRetrainReq (p : HPort) (hd : HFrame) (_reason : Nat) (s : State) : Out :=
  s.hznControl p hd (fun s => s.hznRetrain p)

/-! ## Training (R246 to R250) -/

/-- The partner's data of a HELLO. -/
def State.hznPartner (s : State) (p : Nat) (h : Hello) : State :=
  let s := (s.put (R.HZN_PARTNER_PACKAGE_ID p) h.pkg).put (R.HZN_PARTNER_KIND p) h.kind
  let s := (s.put (R.HZN_PARTNER_VALID p) 1).put (R.HZN_PARTNER_REV_MIN p) h.lo
  let s := (s.put (R.HZN_PARTNER_REV_MAX p) h.hi).put (R.HZN_PARTNER_SERIAL_SERIAL p) h.serial.toNat
  -- The partner's receive lanes are this end's transmit lanes.
  s.put (R.HZN_LANES_TX_MARKED p) (0xFF - h.rxGood % 256)

/-- The exchange chooses revision and width (R246, R248, R250). The master's choice binds the other end, whose own HELLO it
has had; a HELLO of the master without one is only the offer. -/
def State.hznChoose (s : State) (p : Nat) (h : Hello) : State :=
  let x := s.hPort p
  let master := decide (Config.serial.toNat < h.serial.toNat)
  let s := s.putB (R.HZN_STATUS_MASTER p) master
  let lo := max h.lo (s.get (R.HZN_TRAIN_INFO_REV_MIN p))
  let hi := min h.hi (s.get (R.HZN_TRAIN_INFO_REV_MAX p))
  let noRev := if master then decide (hi < lo) else h.noRev || decide (h.rev < lo) || decide (hi < h.rev)
  let rev := if master then hi else h.rev
  let rx := x.good.1 &&& (0xFF - x.marks % 256) &&& h.txGood
  let tx := x.good.2 &&& h.rxGood
  let cap := max (min 2 (s.get (R.HZN_CTL_MAX_WIDTH p))) (x.lower.getD 0)
  let pick := if master then hznWidth rx tx cap
    else if 2 < h.width then none
    else match hznBlock rx h.width, hznBlock tx h.width with
      | some a, some b => some (h.width, a, b)
      | _, _ => none
  if !master && h.rev == 0 && !h.noRev then s
  else if noRev then
    let s := if master then s.hznHello p 0 0 true else s
    (s.put (R.HZN_EVENT_VERSION_FAIL p) 1).hznFail p 5 .second
  else
    match pick with
    | none => s.hznFail p 4 .marks
    | some (c, a, b) =>
      let s := (s.put (R.HZN_STATUS_WIDTH p) c).put (R.HZN_STATUS_REVISION p) rev
      let s := (s.put (R.HZN_LANES_RX_ACTIVE p) a).put (R.HZN_LANES_TX_ACTIVE p) b
      let s := s.setHPort p { s.hPort p with agreed := true }
      let s := s.hznHello p c rev false
      if s.hznState p = hznEXCHANGE then s.put (R.HZN_STATUS_STATE p) hznCONFIG else s

/-- HELLO: in EXCHANGE, and in a retrain, it chooses; in ACTIVE it refreshes the partner's data (R239, R246). -/
def execHello (p : HPort) (hd : HFrame) (h : Hello) (s : State) : Out :=
  s.hznControl p hd (fun s =>
    let st := s.hznState p
    let x := s.hPort p
    if st = hznEXCHANGE ∨ (st = hznRETRAIN ∧ ¬ x.agreed) then
      let changed := st = hznEXCHANGE ∧ x.serial.isSome ∧ x.serial ≠ some h.serial.toNat
      let s := s.hznPartner p h
      let s := s.setHPort p { x with serial := some h.serial.toNat, marks := if changed then 0 else x.marks, lol := if changed then 0 else x.lol }
      let s := if changed then
          foldN 8 ((s.put (R.HZN_EVENT_PARTNER_CHANGED p) 1).put (R.HZN_LANES_RX_MARKED p) 0) (fun l s =>
            s.setBucket 11 (p * 8 + l) { s.bucket 11 (p * 8 + l) with done := false })
        else s
      if h.pkg = s.pkgId then (s.put (R.HZN_EVENT_DUP_ID p) 1).hznFail p 6 .marks
      else s.hznChoose p h
    else if st = hznACTIVE then s.hznPartner p h
    else s)

/-- HELLO_TIMER: every 10 ms in ACTIVE a HELLO is sent (R239). -/
def execHelloTimer (p : HPort) (s : State) : Out :=
  if s.hznState p = hznACTIVE then
    .next (s.hznHello p (s.get (R.HZN_STATUS_WIDTH p)) (s.get (R.HZN_STATUS_REVISION p)) false)
  else .next s

/-- HZN_CONFIG: the partner's next SEQ and BSEQ and its free slots; the port goes ACTIVE (R160, R246). -/
def execHznConfig (p : HPort) (hd : HFrame) (seq bseq : Nat) (free : List Nat) (s : State) : Out :=
  s.hznControl p hd (fun s =>
    let st := s.hznState p
    let x := s.hPort p
    if st = hznCONFIG ∨ (st = hznRETRAIN ∧ x.agreed) then
      let left := if x.replay.any (fun q => q.seq == seq) then x.replay.dropWhile (fun q => q.seq != seq) else []
      let held := left.foldl (fun l q => l ++ q.msgs) []
      let base := (List.range 16).foldl (fun (t : Tbl Nat) c =>
        Tbl.set (fun _ => 0) t c ((free.getD c 0 + 65536 - codeSlots held c % 65536) % 65536)) []
      let c := s.get (R.HZN_STATUS_WIDTH p)
      let s := s.hznCtl p 2 (leBytes 2 x.rxNext ++ leBytes 2 (s.hStrm (s.get (R.HZN_PARTNER_SERIAL_SERIAL p))).rx ++
        (List.range 16).flatMap (fun c => leBytes 2 (hznCapacity c - codeSlots (x.rxq.map (·.2)) c)))
      let y : HPortSt :=
        { s.hPort p with replay := left, txNext := (seq + left.length) % 4096, base := base, sent := [], rep := [],
                         freed := [], agreed := false, lower := none, warn := x.warn || c == 2 }
      let s := s.setHPort p y
      let serial := s.get (R.HZN_PARTNER_SERIAL_SERIAL p)
      let s := if st = hznCONFIG ∧ (s.hznSibling p).isNone then s.setHStrm serial { s.hStrm serial with tx := bseq % 4096 } else s
      let s := (s.put (R.HZN_STATUS_STATE p) hznACTIVE).hznBundles
      let s := (s.hznReplayed p left.length).hznPump p (x.moved.length + 1)
      let s := if st = hznRETRAIN ∧ x.oldW < c then s.put (R.HZN_EVENT_HALVED p) 1 else s
      (if c = 2 ∧ ¬ x.warn then s.logEvent 0x0040 sevWARNING noDie p else s).hznReneg
    else s)

/-- HZN_HANDOVER on port `p` for a bundle sibling that is down: its frames from `seq` on are retransmitted here (R244). -/
def execHznHandover (p : HPort) (hd : HFrame) (named : HPort) (seq : Nat) (s : State) : Out :=
  s.hznControl p hd (fun s =>
    let y := s.hPort named
    if s.hznState p = hznACTIVE ∧ y.hand ∧ named ≠ p ∧
        s.get (R.HZN_PARTNER_SERIAL_SERIAL p) = s.get (R.HZN_PARTNER_SERIAL_SERIAL named) then
      let fl := if y.replay.any (fun q => q.seq == seq) then y.replay.dropWhile (fun q => q.seq != seq)
        else if seq = y.txNext then [] else y.replay
      let s := s.setHPort named { y with replay := [] }
      (s.put (R.HZN_EVENT_HANDOVER named) 1).hznMove p named fl
    else s)

/-- HZN_HANDOVER_DONE: the partner has retransmitted its frames, and the port that is down goes on to what it left for. -/
def execHznHandoverDone (p : HPort) (hd : HFrame) (named : HPort) (s : State) : Out :=
  s.hznControl p hd (fun s =>
    let y := s.hPort named
    if y.hand ∧ y.replay = [] then
      let s := s.setHPort named { y with hand := false }
      if y.after then s.hznStart named else s
    else s)

/-- HZN_PMD_TRAIN_DONE: link training is complete on the lanes given (R246). -/
def execHznPmdTrainDone (p : HPort) (rxGood txGood : Nat) (s : State) : Out :=
  if s.hznState p = hznPMD ∧ !s.ucRestarting ucHZN then
    let x := s.hPort p
    let rx := rxGood % 256 &&& (0xFF - x.marks % 256)
    let tx := txGood % 256
    let s := s.setHPort p { x with good := (rxGood % 256, tx) }
    if popCount 8 rx < 2 ∨ popCount 8 tx < 2 then .next (s.hznFail p 4 .marks)
    else .next (s.put (R.HZN_STATUS_STATE p) hznALIGN)
  else .next s

/-- HZN_CODEWORD_LOCK (R236, R246): the port enters EXCHANGE and sends HELLO. -/
def execHznCodewordLock (p : HPort) (s : State) : Out :=
  if s.hznState p = hznALIGN ∧ !s.ucRestarting ucHZN then .next ((s.put (R.HZN_STATUS_STATE p) hznEXCHANGE).hznHello p 0 0 false) else .next s

/-- HZN_TRAIN_TIMEOUT: a bound of R247 is exceeded. EXCHANGE has no code of its own: its cause is free
(notes/assumptions/1.md). -/
def execHznTrainTimeout (p : HPort) (s : State) : Out :=
  let st := s.hznState p
  if st = hznPMD then .next (s.hznFail p 2 .second)
  else if st = hznALIGN then .next (s.hznFail p 3 .second)
  else if st = hznCONFIG then .next (s.hznFail p 7 .second)
  else if st = hznEXCHANGE then
    let r := s.freeWord
    .next (r.2.hznFail p (r.1.toNat % 8) .second)
  else .next s

/-- HZN_RETRAIN_TIMEOUT: 40 µs are over (R246). -/
def execHznRetrainTimeout (p : HPort) (s : State) : Out :=
  if s.hznState p = hznRETRAIN then .next (s.hznDown p true).hznReneg else .next s

/-- HZN_TRAIN_RESTART: a second after the failure (R246). -/
def execHznTrainRestart (p : HPort) (s : State) : Out :=
  if (s.hPort p).wait = .second ∧ ¬ (s.hPort p).hand ∧ s.hznState p = hznDISABLED ∧ s.flag (R.HZN_CTL_ENABLE p) then .next (s.hznStart p) else .next s

/-- HZN_LANE_LOSS_OF_LOCK: the receive lane fails at once (R249). -/
def execHznLaneLossOfLock (p : HPort) (lane : Fin 8) (s : State) : Out :=
  let x := s.hPort p
  if x.marks.testBit lane then .next s
  else
    let s := s.setHPort p { x with lol := setBits x.lol lane 1 1 }
    .next ((s.put (R.HZN_LANE_STATS_LOSS_OF_LOCK p lane) 1).hznLaneFail p lane)

/-- HZN_ENABLE_WRITE: a write of HZN_CTL.ENABLE (R246). A port without a partner stays DISABLED. -/
def execHznEnableWrite (p : HPort) (on detected : Bool) (s : State) : Out :=
  let st := s.hznState p
  let s := s.putB (R.HZN_CTL_ENABLE p) on
  if on then
    if st = hznDISABLED ∧ ¬ (s.hPort p).hand then
      if detected then .next (s.hznStart p) else .next (s.put (R.HZN_TRAIN_INFO_LAST_FAIL p) 1)
    else .next s
  else if st = hznACTIVE ∨ st = hznRETRAIN then .next (s.hznDown p false).hznReneg
  else if st = hznDISABLED then .next (s.setHPort p { s.hPort p with wait := .no, after := false })
  else .next ((s.hznDisable p).setHPort p { s.hPort p with wait := .no, agreed := false })

/-- HZN_CTL_RETRAIN: reason 2, on an ACTIVE port. -/
def execHznCtlRetrain (p : HPort) (s : State) : Out := .next (s.hznAsk p 2)

/-- HZN_CTL_FULL_TRAIN: through DISABLED to a full train, after handover, on an ACTIVE port. -/
def execHznCtlFullTrain (p : HPort) (s : State) : Out :=
  if s.hznState p = hznACTIVE then .next (s.hznDown p true) else .next s

/-- CLEAR_MARKS: the marks are gone from the next train on; a port that waits for them trains (R246, R249). -/
def execClearMarks (p : HPort) (s : State) : Out :=
  let x := s.hPort p
  let s := s.setHPort p { x with marks := 0, lol := 0 }
  let s := foldN 8 (s.put (R.HZN_LANES_RX_MARKED p) 0) (fun l s =>
    (s.put (R.HZN_LANE_STATS_LOSS_OF_LOCK p l) 0).setBucket 11 (p * 8 + l) { s.bucket 11 (p * 8 + l) with done := false })
  if x.wait = .marks ∧ ¬ x.hand ∧ s.hznState p = hznDISABLED ∧ s.flag (R.HZN_CTL_ENABLE p) then .next (s.hznStart p) else .next s

/-! ## Time transfer (R261) -/

/-- GTIME in 1/256 ns. -/
def State.time256 (s : State) : Nat := s.pwr.now * 256 + s.pwr.frac / 2 ^ 24

/-- TIME_REQ: a port whose TIME_ROLE is SERVE answers. -/
def execTimeReq (p : HPort) (hd : HFrame) (t1 t1f : Nat) (s : State) : Out :=
  s.hznControl p hd (fun s =>
    if s.get (R.HZN_CTL_TIME_ROLE p) = 1 ∧ s.get (R.HZN_STATUS_REVISION p) = 3 ∧ s.hznState p = hznACTIVE then
      let t := s.time256
      let b (ns f : Nat) : List Nat := leBytes 8 ns ++ [f % 256]
      s.hznCtl p 7 (b t1 t1f ++ b (t / 256) t ++ b (t / 256) t)
    else s)

/-- TIME_REQ_TIMER: every 1 ms a FOLLOW port asks. -/
def execTimeReqTimer (p : HPort) (s : State) : Out :=
  if s.get (R.HZN_CTL_TIME_ROLE p) = 2 ∧ s.get (R.HZN_STATUS_REVISION p) = 3 ∧ s.hznState p = hznACTIVE then
    .next (s.hznCtl p 6 (leBytes 8 (s.time256 / 256) ++ [s.time256 % 256]))
  else .next s

/-! ## What software reads -/

/-- HZN_CREDIT_c. -/
def State.hznCreditView (s : State) (p c : Nat) : Nat :=
  let x := s.hPort p
  let free := if x.base = [] then 0 else hznCapacity c - codeSlots (x.rxq.map (·.2)) c
  x.credits c + free <<< 16 + hznCapacity c <<< 32

end Sys2Proof.Machine
end

