-- ==== Sys2Proof/Machine/Island.lean ====
section
/-!
DEFINITION. Routing, coherence islands and the fabric's timeouts (spec/10_horizon_fabric.md R251 to R260, R262).
-/

namespace Sys2Proof.Machine

/-! ## Window and island messages that arrive -/

/-- The port whose receive buffer holds a window or island message. -/
def State.wPort (s : State) (m : WMsg) : Option Nat :=
  (s.hzn.ports.find? (fun e => e.2.rxq.any (fun q => q.2 == .win m))).map (·.1)

/-- Take a window or island message out of flight. -/
def State.wTake (s : State) (m : WMsg) : State :=
  let s : State := { s with hzn := { s.hzn with win := s.hzn.win.erase m } }
  s.hznConsume (fun x => x == .win m)



def icJOIN_REQ : Nat := 1
def icJOIN_ACK : Nat := 2
def icJOIN_NAK : Nat := 3
def icLEAVE_NOTICE : Nat := 4
def icLEAVE_ACK : Nat := 5
def icLOST_NOTICE : Nat := 6
def icJOIN_ABORT : Nat := 7

/-- Send an island message (R256); MEMBER is this package's index but in LOST_NOTICE. -/
def State.islSend (s : State) (icode pkg member : Nat) (nak : Nat := 0) : State :=
  s.wSend { vc := vcPOST, wopc := 2, srcPkg := s.pkgId, dstPkg := pkg, icode := icode, member := member,
            islandId := s.get R.ROUTE_ISLAND_CTL_ISLAND_ID, nakCause := nak }

/-- An island message reaches the island block (R256): an illegal ICODE is discarded with an error record, whichever row
brings it. -/
def State.islIn (s : State) (m : WMsg) (code : Nat) (f : State → State) : Out :=
  if m.dstPkg ≠ s.pkgId ∨ m.vc ≠ vcPOST ∨ m.wopc ≠ 2 then .next s
  else if m.icode = 0 ∨ 7 < m.icode then
    .next ((s.wTake m).errRecord (bankHzn ((s.wPort m).getD 0)) errUED 0 (recInfo 0 0 0 m.srcPkg) 0)
  else if m.icode = code then .next (f (s.wTake m)) else .next s

/-! ## Members -/

def State.isl (s : State) : Nat := s.get R.ROUTE_ISLAND_STATUS_STATE
def State.memState (s : State) (i : Nat) : Nat := s.get (R.ROUTE_MEMBER_STATE i)
def State.setMem (s : State) (i st : Nat) : State := s.put (R.ROUTE_MEMBER_STATE i) st
def State.memPkg (s : State) (i : Nat) : Nat := s.get (R.ROUTE_MEMBER_PACKAGE_ID i)
def State.selfIx (s : State) : Nat := s.get R.ROUTE_ISLAND_CTL_SELF_INDEX
def memSELF : Nat := 5

/-- The member indices whose entry meets `p`. -/
def State.membersWhere (_s : State) (p : Nat → Bool) : List Nat := (List.range 32).filter p

/-- The entry of a package that is in one of the states given. -/
def State.memOf (s : State) (pkg : Nat) (sts : List Nat) : Option Nat :=
  (List.range 32).find? (fun i => s.memPkg i == pkg && sts.contains (s.memState i))

/-- A sweep of every slice for member `who`. -/
def State.memSweep (s : State) (u : Ix16 → WalkUnit) (who : Nat) : State :=
  foldN 16 s (fun n s => s.walkStart (u (Fin.ofNat 16 n)) who)

/-- This package becomes JOINED (R255, R257 step 5). -/
def State.joined (s : State) : State :=
  let i := s.selfIx
  let s := (s.put R.ROUTE_ISLAND_STATUS_STATE islJOINED).put R.ROUTE_ISLAND_STATUS_LAST_RESULT 1
  let s := (s.put R.PKG_NODE_ISLAND_MEMBER 1).put R.PKG_NODE_ISLAND_INDEX i
  s.setMem i memSELF

/-- The join is abandoned (R257 step 5): JOIN_ABORT goes to each member that acknowledged, and the cause is recorded. -/
def State.joinAborted (s : State) (result : Nat) : State :=
  let acked := s.hzn.joinAck
  let s := foldN 32 s (fun i s =>
    if acked.testBit i then (s.islSend icJOIN_ABORT (s.memPkg i) s.selfIx).setMem i memADMITTED else s)
  (s.alone).put R.ROUTE_ISLAND_STATUS_LAST_RESULT result

/-- A member refuses the join. -/
def State.joinRefused (s : State) (i cause : Nat) : State :=
  let s := (s.put R.ROUTE_ISLAND_STATUS_NAK_MEMBER i).put R.ROUTE_ISLAND_STATUS_NAK_CAUSE cause
  s.joinAborted 2

/-- ISLAND_JOIN: ROUTE_ISLAND_CTL.CMD = JOIN (R257). -/
def execIslandJoin (s : State) : Out :=
  if s.isl ≠ islALONE then .next (s.put R.ROUTE_ISLAND_STATUS_CMD_REJECTED 1)
  else
    let ms := s.membersWhere (fun i => i != s.selfIx && s.memState i == memADMITTED)
    if ms = [] then .next s.joined
    else
      let s := s.put R.ROUTE_ISLAND_STATUS_STATE islJOINING
      let s : State := { s with hzn := { s.hzn with joinWait := ms.foldl (fun m i => m ||| 1 <<< i) 0, joinAck := 0 } }
      .next (ms.foldl (fun s i => s.islSend icJOIN_REQ (s.memPkg i) s.selfIx) s)

/-- JOIN_REQ at a member (R250, R255, R262). -/
def execJoinReq (m : WMsg) (s : State) : Out :=
  let rev : Nat := match s.wPort m with | some p => s.get (R.HZN_STATUS_REVISION p) | none => 3
  s.islIn m icJOIN_REQ (fun s =>
    let nak (c : Nat) : State := s.islSend icJOIN_NAK m.srcPkg s.selfIx c
    let st := s.memState (m.member % 32)
    if rev ≠ 3 then nak 3
    else if m.islandId ≠ s.get R.ROUTE_ISLAND_CTL_ISLAND_ID then nak 1
    else if (s.memOf m.srcPkg [memACTIVE, memLEAVING]).isSome then nak 4
    else if st = memACTIVE ∨ st = memLEAVING ∨ st = memSELF then nak 2
    else if s.isl = islJOINED ∧ st = memADMITTED ∧ s.memPkg (m.member % 32) = m.srcPkg then
      (s.setMem (m.member % 32) memACTIVE).islSend icJOIN_ACK m.srcPkg s.selfIx
    else nak 0)

/-- JOIN_ACK at the joiner. One that comes after the join was abandoned is answered JOIN_ABORT. -/
def execJoinAck (m : WMsg) (s : State) : Out :=
  s.islIn m icJOIN_ACK (fun s =>
    match s.memOf m.srcPkg [memADMITTED] with
    | none => s
    | some i =>
      if s.isl = islJOINING ∧ s.hzn.joinWait.testBit i then
        let w := without s.hzn.joinWait i
        let s := s.setMem i memACTIVE
        let s : State := { s with hzn := { s.hzn with joinWait := w, joinAck := s.hzn.joinAck ||| 1 <<< i } }
        if w = 0 then s.joined else s
      else if s.isl = islALONE then s.islSend icJOIN_ABORT m.srcPkg s.selfIx
      else s)

/-- JOIN_NAK at the joiner. -/
def execJoinNak (m : WMsg) (s : State) : Out :=
  s.islIn m icJOIN_NAK (fun s =>
    match s.memOf m.srcPkg [memADMITTED] with
    | some i => if s.isl = islJOINING ∧ s.hzn.joinWait.testBit i then s.joinRefused i m.nakCause else s
    | none => s)

/-- JOIN_TIMEOUT: 10 ms without every reply (R257). -/
def execJoinTimeout (s : State) : Out :=
  if s.isl = islJOINING then .next (s.joinAborted 3) else .next s

/-- JOIN_ABORT at a member (R255). -/
def execJoinAbort (m : WMsg) (s : State) : Out :=
  s.islIn m icJOIN_ABORT (fun s =>
    match s.memOf m.srcPkg [memACTIVE] with
    | some i => s.setMem i memADMITTED
    | none => s)

/-- MEMBER_ADMIT: ROUTE_MEMBER_i.CMD = ADMIT, with PACKAGE_ID as the same write gives it (R255). -/
def execMemberAdmit (i : Fin 32) (pkg : Fin 4096) (s : State) : Out :=
  let st := s.memState i
  if st = memFREE ∨ st = memLOST then .next ((s.put (R.ROUTE_MEMBER_PACKAGE_ID i) pkg).setMem i memADMITTED)
  else .next (s.put (R.ROUTE_MEMBER_CMD_REJECTED i) 1)

/-- MEMBER_FREE: ROUTE_MEMBER_i.CMD = FREE. -/
def execMemberFree (i : Fin 32) (s : State) : Out :=
  let st := s.memState i
  if st = memADMITTED ∨ st = memLOST then .next (s.setMem i memFREE)
  else .next (s.put (R.ROUTE_MEMBER_CMD_REJECTED i) 1)

/-! ## Losing a member (R258) -/

/-- A home transaction goes on as if member `i` had answered (R117): what only that member could give is missing. -/
def State.txnMemberLost (s : State) (n htag i pkg : Nat) (t : HTxn) : State :=
  let h := 64 + i
  let ans (opc : Nat) : Msg := { vc := vcRSP, opc := opc, srcPkg := pkg, srcAgent := agHOME, dstPkg := s.pkgId,
                                 dstAgent := agHOME + n, txn := t.req.txn, addr := t.line, htag := t.wireTag htag }
  let mine : Bool := t.work == .request && t.req.srcPkg == pkg
  let t := if mine then { t with closed := true } else t
  let t := if t.wbWait = some h then { t with wbWait := none } else t
  let s := s.setLock n htag (some t)
  let isFwd : Bool := match t.fwd with | some (o, _) => o == h | none => false
  let answered := t.answered.any (fun a => a.1 == h)
  if mine ∧ t.phase = .ready then s.release n htag t.line
  else if t.phase = .acks ∧ t.invs.testBit h then s.txnAnswer n htag t h (ans opACK_INV)
  else if isFwd && !answered then
    if t.sent then s.txnAnswer n htag t h (ans opACK_MISS)
    else
      let lost := t.found == 3
      let d := s.dOfLine t.line
      let v := (s.homeView n d).drop h
      let s := s.writeView n d v
      let more := if lost then without (s.reachMask v.mask) h else 0
      let t := { t with fwd := none, lost := t.lost || lost, lostOwner := if lost then h else t.lostOwner,
                        invs := t.invs ||| more }
      let s := (holdersIn more).foldl (fun s x => s.snoop n htag t opINV x false) (s.setLock n htag (some t))
      s.txnProceed n htag
  else if isFwd && t.toHome && decide (t.dataEarly < t.dataDue) then
    (s.setLock n htag (some { t with got := some (0, true), dataEarly := t.dataEarly + 1 })).txnProceed n htag
  else s.tryClose n htag

/-- A proxy transaction to a home of the lost member is answered ERR CAUSE 4. -/
def State.pxMemberLost (s : State) (n htag pkg : Nat) (t : HTxn) : State :=
  if t.line * 64 / 2 ^ 44 ≠ pkg then s
  else
    match t.work with
    | .request =>
      if t.phase = .remote ∨ t.phase = .ready then
        let s := if t.quar then s else s.sendErr n t.req 4
        s.pxFree n htag t.line
      else s
    | _ => s

/-- A writeback to the lost member is discarded with a record. -/
def State.pxWbLost (s : State) (w : PxWb) : State :=
  (s.errRecord (bankHome w.n) errUED (w.out.addr * 64) (recInfo 0 0 (agHOME + w.n) w.out.dstPkg) 0).pxWbDone w.n
    { w.out with vc := vcRSP }

/-- The tokens of member `i` become FREE at a slice, each with a record of KIND 3, and what it is owed is gone (spec/05
R131, R139). -/
def State.memberTokens (s : State) (n i pkg : Nat) : State :=
  let s := s.setOwed n (48 + 4 * i) []
  foldN 4 s (fun j s =>
    let x := 48 + 4 * i + j
    let k := s.tok n x
    if k.st = .free then s
    else
      let s := (s.setTok n x {}).tokenErr n x 3 pkg k.agent
      match k.slot with | some h => s.slotFreed n h k.line | none => s)

/-- Member `i` is declared lost (R258). -/
def State.memberLost (s : State) (i : Nat) : State :=
  let st := s.memState i
  if st ≠ memACTIVE ∧ st ≠ memLEAVING then s
  else
    let pkg := s.memPkg i
    let s := s.setMem i memLOST
    let s := s.home.locks.foldl (fun s e =>
      let k := slotOfKey e.1
      match s.lock k.1 k.2 with
      | some t =>
        match t.work with
        | .reserved _ => s
        | _ => if t.proxy then s.pxMemberLost k.1 k.2 pkg t else s.txnMemberLost k.1 k.2 i pkg t
      | none => s) s
    let s := (s.home.pxWb.filter (fun w => w.out.dstPkg == pkg)).foldl (fun s w => s.pxWbLost w) s
    let s : State := { s with home := { s.home with wbHeld := s.home.wbHeld.filter (fun e => e.2.srcPkg != pkg) } }
    let s := foldN 16 s (fun n s => (s.memberTokens n i pkg).pxAgain n)
    let s := (s.memSweep .leaveRpt (64 + i)).memSweep .leaveRld (64 + i)
    let s := (s.membersWhere (fun j => s.memState j == memACTIVE)).foldl (fun s j =>
      s.islSend icLOST_NOTICE (s.memPkg j) i) s
    let s := (s.bump R.ROUTE_STATS_LOSSES 1).logEvent 0x0042 sevURGENT noDie i
    if s.isl = islLEAVING ∧ s.hzn.leaveWait.testBit i then
      let s : State := { s with hzn := { s.hzn with leaveWait := without s.hzn.leaveWait i, leaveLost := true } }
      s.leaveFinish
    else s

/-- This package is named in LOST_NOTICE (R258 step 4): it declares every member lost and is ALONE. The declarations are
one event, so that no ACTIVE member is left to be told. -/
def State.selfLost (s : State) : State :=
  let ms := s.membersWhere (fun j => s.memState j == memACTIVE || s.memState j == memLEAVING)
  let s1 := ms.foldl (fun s i => if s.memState i = memACTIVE then s.setMem i memLEAVING else s) s
  ((ms.foldl (fun s i => s.memberLost i) s1).alone)

/-- LOST_NOTICE (R256, R258, R262). -/
def execLostNotice (m : WMsg) (s : State) : Out :=
  s.islIn m icLOST_NOTICE (fun s =>
    if s.isl = islJOINING ∧ (s.memOf m.srcPkg [memADMITTED, memACTIVE]).isSome then s.joinAborted 2
    else if (s.memOf m.srcPkg [memACTIVE, memLEAVING]).isNone then s
    else if m.member = s.selfIx then s.selfLost
    else s.memberLost (m.member % 32))

/-- LOSS_HOLD_EXPIRY: no port of either mask of the member's route has been ACTIVE for LOSS_HOLD. -/
def execLossHoldExpiry (i : Fin 32) (s : State) : Out :=
  let e := s.memPkg i
  let ports := s.get (R.ROUTE_ENTRY_PORT_MASK e) ||| s.get (R.ROUTE_ENTRY_ALT_MASK e)
  if (List.range 8).any (fun p => ports.testBit p && s.hznState p == hznACTIVE) then .next s else .next (s.memberLost i)

/-! ## Leaving (R257) -/

/-- ISLAND_LEAVE: ROUTE_ISLAND_CTL.CMD = LEAVE. -/
def execIslandLeave (s : State) : Out :=
  if s.isl ≠ islJOINED then .next (s.put R.ROUTE_ISLAND_STATUS_CMD_REJECTED 1)
  else
    let ms := s.membersWhere (fun i => s.memState i == memACTIVE)
    let s := s.put R.ROUTE_ISLAND_STATUS_STATE islLEAVING
    let s : State := { s with hzn := { s.hzn with leaveWait := ms.foldl (fun m i => m ||| 1 <<< i) 0, leaveLost := false } }
    let s := ms.foldl (fun s i => s.islSend icLEAVE_NOTICE (s.memPkg i) s.selfIx) s
    .next (s.memSweep .leaveRld 32)

/-- LEAVE_NOTICE at a member, or at a package that joins (R262). -/
def execLeaveNotice (m : WMsg) (s : State) : Out :=
  s.islIn m icLEAVE_NOTICE (fun s =>
    if s.isl = islJOINING then
      match s.memOf m.srcPkg [memADMITTED, memACTIVE] with
      | some i => s.joinRefused i 0
      | none => s
    else
      match s.memOf m.srcPkg [memACTIVE] with
      | some i => (s.setMem i memLEAVING).memSweep .leaveRld i
      | none => s)

/-- Does this package hold a line of package `pkg`, or have a transaction to it open (R257 step 4)? -/
def State.holdsOf (s : State) (i : Nat) : Bool :=
  let pkg := s.memPkg i
  s.home.sweeps.any (fun w => match w.u with | .leaveRld _ => w.ix == i | _ => false) ||
  s.home.rld.any (fun e => e.2.pstate != 0 && rldLine (e.1 / 2 ^ 18) (e.1 / 16 % 16384) e.2.tag / 2 ^ 44 == pkg) ||
  s.home.locks.any (fun e => match e.2 with | some t => t.line != noLine && t.line * 64 / 2 ^ 44 == pkg | none => false) ||
  s.home.pxWb.any (fun w => w.out.dstPkg == pkg) || s.io.reqs.any (fun r => r.msg.dstPkg == pkg)

/-- LEAVE_RECALL_COMPLETE: this package's duties for a leaver are done, and it sends LEAVE_ACK. -/
def execLeaveRecallComplete (i : Fin 32) (s : State) : Out :=
  if s.memState i = memLEAVING ∧ !s.holdsOf i then
    .next (((s.islSend icLEAVE_ACK (s.memPkg i) s.selfIx).setMem i memFREE).memSweep .leaveRpt i)
  else .next s

/-- LEAVE_ACK at the leaver. -/
def execLeaveAck (m : WMsg) (s : State) : Out :=
  s.islIn m icLEAVE_ACK (fun s =>
    match s.memOf m.srcPkg [memACTIVE, memLEAVING] with
    | some i =>
      let s : State := { s with hzn := { s.hzn with leaveWait := without s.hzn.leaveWait i } }
      s.leaveFinish
    | none => s)

/-- LEAVE_ACK_TIMEOUT: 100 ms after LEAVE_NOTICE the members that have not answered are lost. -/
def execLeaveAckTimeout (s : State) : Out :=
  if s.isl = islLEAVING then
    .next ((s.membersWhere (fun i => s.hzn.leaveWait.testBit i)).foldl (fun s i => s.memberLost i) s)
  else .next s

/-! ## Routing (R251 to R253) -/

/-- ALT_HOLD_EXPIRY: no primary port has been ACTIVE for ALT_HOLD, or one has been back for as long. -/
def execAltHoldExpiry (pkg : Fin 4096) (s : State) : Out :=
  let prim := s.activePorts (s.get (R.ROUTE_ENTRY_PORT_MASK pkg))
  let put (b : Bool) : State :=
    let s : State := { s with hzn := { s.hzn with hold := Tbl.set (fun _ => false) s.hzn.hold pkg b } }
    s.putB (R.ROUTE_ENTRY_ON_ALT pkg) b
  if s.onAlt pkg then (if prim = [] then .next s else .next (put false))
  else if prim = [] ∧ s.get (R.ROUTE_ENTRY_VALID pkg) = 1 then .next (put true) else .next s

/-- The answer to a REQ that cannot reach its home: ERR CAUSE 4 in the home's name. -/
def State.fabricErr (s : State) (m : Msg) : State :=
  s.send { vc := vcRSP, opc := opERR, srcPkg := m.dstPkg, srcAgent := m.dstAgent, dstPkg := m.srcPkg,
           dstAgent := m.srcAgent, txn := m.txn, addr := m.addr, cause := 4 }

/-- A message that cannot be carried is answered or discarded (R251 step 4). -/
def State.unroutable (s : State) (x : HMsg) : State :=
  let s := s.bump R.ROUTE_STATS_UNROUTABLE 1
  match x with
  | .ose m _ _ _ => if m.vc = vcREQ then s.fabricErr m else s
  | .win w => if (w.vc = vcPOST ∧ w.wopc ≠ 2) ∨ w.vc = vcNP then s.wGo (wCpl w 6) else s

/-- The port among some with the fewest unacknowledged frames, the lowest number on a tie (R244). -/
def State.hznPick (s : State) (l : List Nat) : Option Nat :=
  l.foldl (fun b p => match b with
    | some q => if (s.hPort p).replay.length < (s.hPort q).replay.length then some p else b
    | none => some p) none

/-- A message leaves on a port in a frame of its own. A request of this package is charged (spec/09 R220). -/
def State.hznEmit (s : State) (p : Nat) (x : HMsg) (issued : Bool) : State :=
  let serial := s.get (R.HZN_PARTNER_SERIAL_SERIAL p)
  let st := s.hStrm serial
  let s := s.setHPort p ((s.hPort p).keep st.tx [x])
  let s := s.setHStrm serial { st with tx := (st.tx + 1) % 4096 }
  let s := (s.hznFrames p 1).count (ctrHzn p) 3 (some (hmsgCode x)) (some (hmsgIds x)) (hmsgSlots x)
  let s := s.hznTxMeter p [x]
  if issued then
    if hznControlled x then s.chargeTokens (qosHzn p) (hmsgIds x).1 (s.hznWaiters p) else s
  else s.count (ctrHzn p) 6

/-- FMCID, HOPS and RCLASS of a message as it leaves on a port (R240, R252). -/
def State.hznStamp (s : State) (p : Nat) (issued : Bool) : HMsg → HMsg
  | .ose m f h c =>
    .ose m (if issued then m.mcid else f) (if issued then s.get R.ROUTE_TIMEOUT_HOP_LIMIT else h - 1)
      (if s.flag (R.HZN_CTL_DATELINE p) then 1 else if issued then 0 else c)
  | .win w =>
    .win { w with hops := if issued then s.get R.ROUTE_TIMEOUT_HOP_LIMIT else w.hops - 1,
                  rclass := if s.flag (R.HZN_CTL_DATELINE p) then 1 else if issued then 0 else w.rclass }

/-- A message that a revision 2 port does not carry (R250). -/
def State.rev2Drop (s : State) (p : Nat) (m : Msg) : State :=
  if m.vc = vcREQ then s.fabricErr m
  else s.errRecord (bankHzn p) errUED (m.addr * 64) (recInfo m.mcid m.rcid m.srcAgent m.srcPkg) 0

/-- Remove a message from where it waits: in flight in this package, issued, or received for another package. -/
def State.hznLeave (s : State) (x : HMsg) : Option Nat → State
  | some p =>
    let s : State := { s with hzn := { s.hzn with fwd := s.hzn.fwd.erase (p, x) } }
    s.hznConsume (fun y => y == x)
  | none =>
    match x with
    | .ose m _ _ _ => s.take m
    | .win w => { s with hzn := { s.hzn with out := s.hzn.out.erase w } }

/-- Are two messages of one channel from one source agent to one destination agent (R88)? -/
def sameStream : HMsg → HMsg → Bool
  | .ose a _ _ _, .ose b _ _ _ => sameChan a b
  | .win a, .win b => a.vc == b.vc && a.srcPkg == b.srcPkg && a.dstPkg == b.dstPkg
  | _, _ => false

/-- Is the message where the command says it waits, the oldest of its channel there (spec/04 R88), and come out of the
Pass links that it crosses? -/
def State.hznWaiting (s : State) (x : HMsg) : Option Nat → Bool
  | some p => s.hzn.fwd.find? (fun e => e.1 == p && sameStream e.2 x) == some (p, x)
  | none =>
    match x with
    | .ose m _ _ _ => s.inOrder m && s.landed m
    | .win w => s.hzn.out.find? (fun v => sameStream (.win v) (.win w)) == some w

/-- Is a message held by the bandwidth controller of the port (spec/09 R220)? Only a request of this package waits there
(R252). -/
def State.hznAdmits (s : State) (p : Nat) (x : HMsg) (issued : Bool) : Bool :=
  !(issued && hznControlled x) || s.admits (qosHzn p) (hmsgIds x).1 (s.hznWaiters p)

/-- MESSAGE_FORWARD: a message for another package, issued here or received on port `src`, is routed (R251, R252). While
it waits for a port, a credit, a place in the replay buffer or its admission (spec/09 R220), nothing changes. -/
def execMessageForward (x : HMsg) (src : Option HPort) (s : State) : Out :=
  let src : Option Nat := src.map (·.val)
  let issued := src.isNone
  if hmsgDst x = s.pkgId ∨ !s.hznWaiting x src then .next s
  else
    match s.route (hmsgDst x) with
    | .waits => .next s
    | .unroutable => .next ((s.hznLeave x src).unroutable x)
    | .ports l =>
      match s.hznPick l with
      | none => .next s
      | some p =>
        let x' := s.hznStamp p issued x
        let go : Out :=
          if !(s.hPort p).fits [x'] || !s.hznAdmits p x' issued then .next s
          else .next ((s.hznLeave x src).hznEmit p x' issued)
        match x with
        | .ose m _ _ _ => if s.get (R.HZN_STATUS_REVISION p) = 2 then .next ((s.hznLeave x src).rev2Drop p m) else go
        | .win _ => go

/-- FORWARD_RESIDENCE_TIMEOUT: the oldest message received for another package has waited more than 100 µs (R253). -/
def execForwardResidenceTimeout (s : State) : Out :=
  match s.hzn.fwd with
  | [] => .next s
  | (p, x) :: _ =>
    let s := (s.hznLeave x (some p)).bump (R.HZN_DROP_STATS_RESIDENCE p) 1
    .next (s.put (R.HZN_EVENT_FRAMES_LOST p) 1)

/-! ## Timeouts (R259, R260) -/

/-- PROXY_COH_TIMEOUT. -/
def execProxyCohTimeout (n : Ix16) (htag : Fin 512) (s : State) : Out :=
  match s.lock n htag with
  | some t =>
    if t.proxy ∧ t.work = .request ∧ t.phase = .remote ∧ !t.quar then
      .next ((s.sendErr n t.req 4).setLock n htag (some { t with quar := true }))
    else .next s
  | none => .next s

/-- PROXY_COH_FINAL_TIMEOUT: a proxy's request or writeback has waited 4 × COH, and its member is lost. -/
def execProxyCohFinalTimeout (n : Ix16) (txn : Fin 4096) (s : State) : Out :=
  match s.home.pxWb.find? (fun w => w.n == n.val && w.out.txn == txn.val) with
  | some w =>
    match s.servedAs w.out.dstPkg with
    | some i => .next (s.memberLost i)
    | none => .next (s.pxWbLost w)
  | none =>
    match if txn.val < 512 then s.lock n txn else none with
    | some t =>
      if t.proxy ∧ t.quar then
        match s.servedAs (t.line * 64 / 2 ^ 44) with
        | some i => .next (s.memberLost i)
        | none => .next (s.pxMemberLost n txn (t.line * 64 / 2 ^ 44) t)
      else .next s
    | none => .next s

/-- PROXY_WB_TIMEOUT: the writeback is sent again. -/
def execProxyWbTimeout (n : Ix16) (line : Nat) (s : State) : Out :=
  match s.home.pxWb.find? (fun w => w.n == n.val && w.out.addr == line) with
  | some w => .next (s.send w.out)
  | none => .next s

/-- The member whose message a slot waits for, if any: a snoop's answer or its data, a WB_DIRTY, CLOSE or COMMIT. -/
def State.waitsOn (s : State) (t : HTxn) : Option Nat :=
  let dies (h : Nat) : Option Nat := if 64 ≤ h then some (h - 64) else none
  match (holdersIn (t.invs >>> 64 <<< 64)).head? with
  | some h => dies h
  | none =>
    match (match t.fwd with | some (o, _) => if t.sent then dies o else none | none => none) with
    | some i => some i
    | none =>
      match t.wbWait.bind dies with
      | some i => some i
      | none =>
        if t.work = .request ∧ t.req.srcPkg ≠ s.pkgId ∧ ((t.phase = .close ∧ t.done ∧ !t.closed) ∨ t.phase = .ready) then
          s.servedAs t.req.srcPkg
        else none

/-- HOME_WAIT_TIMEOUT: a home waits HOME_WAIT on a member's message. -/
def execHomeWaitTimeout (n : Ix16) (htag : Fin 512) (s : State) : Out :=
  match s.lock n htag with
  | some t =>
    match s.waitsOn t with
    | some i => .next (s.memberLost i)
    | none => .next s
  | none => .next s

/-- IO_COH_TIMEOUT: the request of the XCE or a root port fails, and its transaction is quarantined. -/
def execIoCohTimeout (agent : Fin 256) (txn : Fin 4096) (s : State) : Out :=
  match s.ioReq agent txn with
  | some r =>
    if r.quar ∨ r.msg.dstPkg = s.pkgId then .next s
    else
      let s := s.setReqs (s.io.reqs.map (fun x =>
        if x.agent == r.agent && x.msg.txn == r.msg.txn then { x with quar := true } else x))
      let reads := r.msg.opc == opRD_CUR || r.msg.opc == opATOMIC
      let s := match r.why with
        | .xce op _ _ _ => match s.xop op with | some o => if reads then s.xceAer o.fn 14 else s | none => s
        | _ => s
      .next (s.ioOutcome r 3 0)
  | none => .next s

/-- IO_COH_FINAL_TIMEOUT: the transaction is free again. -/
def execIoCohFinalTimeout (agent : Fin 256) (txn : Fin 4096) (s : State) : Out :=
  match s.ioReq agent txn with
  | some r => if r.quar then .next ((s.ioDrop r).ioCommit r.agent r.stream s.io.reqs.length) else .next s
  | none => .next s

end Sys2Proof.Machine
end

