-- ==== Sys2Proof/Machine/Tick.lean ====
section
/-!
DEFINITION. The uncore counters' events of every cycle (spec/18_counters.md R407), and the passing of time: what an interval
of GTIME brings (spec/17_power_clocks_start.md R392).
-/

namespace Sys2Proof.Machine

/-! ## Cycles and occupancies (R407) -/

/-- The clock of a bank's block in MHz (spec/17 R390). -/
def State.bankMHz (s : State) (b : Nat) : Nat :=
  if b < 240 then (if b % 20 < 18 then 2400 else 32000)
  else if b < 256 then 2400
  else if b < 272 then s.get (R.MC_CH_CONFIG_RATE (b - 256)) * 50
  else if b < 288 then 2000
  else if b < 312 then 32000
  else if b < 320 then 106250
  else 2000

/-- Cycles of a clock in an interval of GTIME. -/
def cyclesIn (mhz t0 t1 : Nat) : Nat := t1 * mhz / 1000 - t0 * mhz / 1000

/-- The line reads that wait at a memory controller, with their RCID and MCID: those that a home has begun, and the extra reads
of its Mesa slice. -/
def State.mcReads (s : State) (ch : Nat) : List (Nat × Nat) :=
  let at' (d : Nat) : Bool := decide (d < 2 ^ 43) && (s.dramPlace d).1 == ch
  s.home.locks.filterMap (fun e =>
    match e.2 with
    | some t => if t.phase = .memory ∧ ¬ t.proxy ∧ at' (s.dOfLine t.line) then some (t.req.rcid, t.mcid) else none
    | none => none) ++
  (List.range 16).flatMap (fun n => ((s.extra n).filter (fun e => at' (e.line * 64))).map (fun e => (e.rcid, e.mcid)))

/-- The writes that wait there. -/
def State.mcWrites (s : State) (ch : Nat) : Nat :=
  (s.home.chHeld.filter (fun w => decide (w.1 < 2 ^ 43) && (s.dramPlace w.1).1 == ch)).length

/-- Does end `a` of a Pass port have a message of channel `c` to send that its credits do not cover (spec/06 R152)? -/
def State.passStall (s : State) (a p c : Nat) : Bool :=
  (s.net.map LinkMsg.ose ++ (s.pass.mgt.filter (fun g => g.1 == p / 2)).map (fun g => LinkMsg.mgt g.2)).any (fun m =>
    linkChan m == c && s.mayCarry a p [m] m && decide ((s.pEnd a p).credits c < linkSlots m))

/-- The messages that wait to leave on a Horizon port. -/
def State.hznLeaving (s : State) (p : Nat) : List HMsg :=
  (s.net.map (fun m => HMsg.ose m 0 0 0) ++ s.hzn.out.map HMsg.win ++ s.hzn.fwd.map (·.2)).filter (fun x =>
    hmsgDst x != s.pkgId && (match s.route (hmsgDst x) with | .ports l => s.hznPick l == some p | _ => false))

/-- What an event of every cycle adds in one cycle: an occupancy, or 1 while it holds. `sel` says which items its UMASK selects,
`f` which identifiers pass its filters, and `plain` that no filter is enabled. -/
def State.perCycle (s : State) (b ev : Nat) (sel : Nat → Bool) (f : Nat × Nat → Bool) (plain : Bool) : Nat :=
  let d := b / 20
  let k := b % 20
  let one (x : Bool) : Nat := if plain && x then 1 else 0
  let num (n : Nat) : Nat := if plain then n else 0
  if b < 240 then
    if k < 16 then
      if ev = 8 then ((s.die.vc.filter (fun e => decide (e.1 / 65536 = d * 16 + k) && e.2.valid && f (e.2.rcid, e.2.mcid)))).length else 0
    else if k = 16 then
      if ev = 6 then (s.die.trk.filter (fun t => t.die == d && f (t.msg.rcid, t.msg.mcid))).length
      else if ev = 8 then num (s.wbCount d)
      else 0
    else if k = 17 then (if ev = 2 then one (s.get R.PWR_STATUS_CURRENT_LIMIT == 1) else 0)
    else if ev = 5 then one ((List.range 6).any (fun c => sel c && s.passStall 1 (2 * d + (k - 18)) c))
    else 0
  else if b < 256 then (if ev = 5 then num (s.locksHeld (b - 240)) else 0)
  else if b < 272 then
    let ch := b - 256
    if ev = 5 then
      if (s.mcReads ch).any (fun x => f x && !s.admits (qosMc ch) x.1 (s.mcWaiters ch)) then 1 else 0
    else if ev = 6 then num (s.mcReads ch).length
    else if ev = 7 then num (s.mcWrites ch)
    else 0
  else if b < 288 then (if ev = 7 then one (s.get (R.MESA_STATUS_THROTTLE (b - 272)) != 0) else 0)
  else if b < 312 then (if ev = 5 then one ((List.range 6).any (fun c => sel c && s.passStall 0 (b - 288) c)) else 0)
  else if b < 320 then
    let p := b - 312
    if ev = 7 then one ((s.hznLeaving p).any (fun x => decide ((s.hPort p).credits (hmsgCode x) < hmsgSlots x)))
    else if ev = 8 then
      if (s.hznLeaving p).any (fun x => f (hmsgIds x) && hznControlled x && !s.hznAdmits p x true) then 1 else 0
    else 0
  else 0

/-- One enabled counter, by the address of its CCOL_SELECT, over an interval. -/
def State.ctrTick (s : State) (t0 t1 a : Nat) : State :=
  let b := (a - 0x410000) / 0x200
  let j := a % 0x200 / 16
  let off := match bankDieOf b with | some d => !s.dieOnline d | none => false
  let mf := s.get (R.CCOL_SELECT_MCID_EN b j)
  let rf := s.get (R.CCOL_SELECT_RCID_EN b j)
  let f (x : Nat × Nat) : Bool :=
    (rf == 0 || s.get (R.CCOL_SELECT_RCID b j) == x.1) && (mf == 0 || s.get (R.CCOL_SELECT_MCID b j) == x.2)
  let n := s.perCycle b (s.get (R.CCOL_SELECT_EVENT b j)) (fun v => (s.get (R.CCOL_SELECT_UMASK b j)).testBit v) f (mf == 0 && rf == 0)
  let k := n * cyclesIn (s.bankMHz b) t0 t1
  if off || k == 0 then s else s.ctrAdd b j k

/-- Every counter over an interval; while frozen none counts (R409). -/
def State.ctrTicks (s : State) (t0 t1 : Nat) : State :=
  if s.get R.CCOL_CTL_FREEZE = 1 then s
  else ((Tbl.keysIn s.regs 0x410000 (0x410000 + 354 * 0x200) (fun v => v.getLsbD 16)).filter (fun a => a % 16 == 8)).foldl
    (fun s a => s.ctrTick t0 t1 a) s

/-! ## Time -/

/-- `n` ns of reference time pass. Without the reference, or before VAUX, nothing counts (R391). -/
def State.elapse (s : State) (n : Nat) : State :=
  if s.pwr.stage = .off ∨ ¬ s.pwr.refclk then s
  else
    let g := gtimeAfter s.pwr.now s.pwr.frac n (signed 32 (s.get R.TIME_OFFSET_RATE_PPB))
    let s := if s.hostUp then s.ctrTicks s.pwr.now g.1 else s
    let s : State := { s with pwr := { s.pwr with now := g.1, frac := g.2 } }
    if s.hostUp then (foldN 8 ((foldN 384 s (fun h s => s.coreTime n h)).onchipTime n) (fun p s => s.hznTime n p)) else s

/-- GTIME comes to `t`, where it is before it: events that the spec places at an instant of GTIME happen then
(notes/assumptions/22.md). -/
def State.elapseTo (s : State) (t : Nat) : State :=
  if s.pwr.now < t then
    let s := s.elapse (t - s.pwr.now)
    { s with pwr := { s.pwr with now := t, frac := 0 } }
  else s

/-- The smallest multiple of `p` at or after GTIME. -/
def State.nextAt (s : State) (p : Nat) : Nat := (s.pwr.now + p - 1) / p * p

end Sys2Proof.Machine
end

