-- ==== Sys2Proof/Machine/Meter.lean ====
section
/-!
DEFINITION. The CBQRI controllers' commands and the metering block (spec/09_partitions_metering.md R219 to R233, spec/03
R74 and R75, spec/07 R192, spec/08 R203 and R204).
-/

namespace Sys2Proof.Machine

/-! ## CBQRI operations (R219; the layouts and status codes are those of the CBQRI specification,
notes/assumptions/8.md) -/

def qosOK : Nat := 1
def qosBadEvent : Nat := 4
def qosBadConfig : Nat := 5
/-- What an allocation (0) or monitoring (1) operation of a controller answers. -/
def State.qosReply (s : State) (c kind status result : Nat) : State :=
  { s with qos := { s.qos with status := Tbl.set (fun _ => 0) s.qos.status (c * 2 + kind) status,
                               result := Tbl.set (fun _ => 0) s.qos.result (c * 2 + kind) result } }

/-- Does a die's controller answer: not while the die is offline (spec/01 R35). -/
def State.qosHere (s : State) : QosCtl → Bool
  | .vc d => s.dieOnline d
  | _ => true

/-- The sum of Rbwb over every RCID of a controller: those allocated, and RCID 0. -/
def State.rbwbSum (s : State) (c : Nat) : Nat :=
  (s.qos.bw.filter (fun e => e.1 / 1024 == c && e.1 % 1024 != 0)).foldl (fun k e => k + e.2.1) (s.bwOf c 0).1

/-- CBQRI_ALLOC_CONFIG: an RCID's capacity mask, or its Rbwb (bits 15:0) and Mweight (bits 27:20). Reserving more than
MRBWB in all changes nothing (R220). -/
def execCbqriAllocConfig (k : QosCtl) (rcid : Fin 1024) (v : Word) (s : State) : Out :=
  let c := qosCode k
  if !s.qosHere k then .next s
  else if qosIsCap k then .next ((s.setCapMask c rcid (v.toNat % 2 ^ 16)).qosReply c 0 qosOK 0)
  else
    let r := v.toNat % 2 ^ 16
    if qosMRBWB < s.rbwbSum c - (s.bwOf c rcid).1 + r then .next (s.qosReply c 0 qosBadConfig 0)
    else
      let s : State := { s with qos := { s.qos with
        bw := Tbl.set bwDefault s.qos.bw (c * 1024 + rcid) (r, bits v.toNat 20 8) } }
      .next (s.qosReply c 0 qosOK 0)

/-- CBQRI_ALLOC_READ. -/
def execCbqriAllocRead (k : QosCtl) (rcid : Fin 1024) (s : State) : Out :=
  let c := qosCode k
  if !s.qosHere k then .next s
  else if qosIsCap k then .next (s.qosReply c 0 qosOK (s.capMask c rcid))
  else .next (s.qosReply c 0 qosOK ((s.bwOf c rcid).1 + (s.bwOf c rcid).2 <<< 20))

/-- CBQRI_MONITOR_CONFIG: event 0 stops the counter; a capacity controller counts occupancy (1), a bandwidth controller
total (1), read (2) or write (3) bytes. -/
def execCbqriMonitorConfig (k : QosCtl) (mcid : Fin 1024) (ev : Nat) (s : State) : Out :=
  let c := qosCode k
  let i := c * 1024 + mcid
  if !s.qosHere k then .next s
  else if (if qosIsCap k then 1 else 3) < ev then .next (s.qosReply c 1 qosBadEvent 0)
  else
    let s : State := { s with qos := { s.qos with monEv := Tbl.set (fun _ => 0) s.qos.monEv i ev } }
    let s := if ev = 0 then s else ({ s with qos := { s.qos with mon := Tbl.set (fun _ => 0) s.qos.mon i 0 } } : State)
    .next (s.qosReply c 1 qosOK 0)

/-- Lines of a die's Vale cache charged to an MCID (R74). -/
def State.vcOccupancy (s : State) (d mcid : Nat) : Nat :=
  Tbl.countIn s.die.vc (d * 2 ^ 20) ((d + 1) * 2 ^ 20) (fun e => e.valid && e.mcid == mcid)

/-- Bytes of the Mesa cache charged to an MCID, victim caches included (R203). -/
def State.mesaOccupancy (s : State) (mcid : Nat) : Nat :=
  64 * ((s.mesa.tags.foldl (fun k e => if e.2.mcid = mcid then k + popCount 16 e.2.valid else k) 0) +
    (s.mesa.vict.foldl (fun k e => e.2.foldl (fun k v => if v.sec.mcid = mcid then k + popCount 16 v.sec.valid else k) k) 0))

/-- CBQRI_MONITOR_READ. -/
def execCbqriMonitorRead (k : QosCtl) (mcid : Fin 1024) (s : State) : Out :=
  let c := qosCode k
  if !s.qosHere k then .next s
  else
    let v := match k with
      | .vc d => if Tbl.get (fun _ => 0) s.qos.monEv (c * 1024 + mcid) = 1 then s.vcOccupancy d mcid else 0
      | .mesa => if Tbl.get (fun _ => 0) s.qos.monEv (c * 1024 + mcid) = 1 then s.mesaOccupancy mcid else 0
      | _ => Tbl.get (fun _ => 0) s.qos.mon (c * 1024 + mcid)
    .next (s.qosReply c 1 qosOK v)

/-- E of R220 in tenths of a byte: a thousandth of the channel's or the port's peak in 1 µs. -/
def State.epochBytes (s : State) : QosCtl → Nat
  | .mc ch => 8 * s.get (R.MC_CH_CONFIG_RATE ch)
  | .hzn _ => 2000
  | _ => 0

/-- The RCIDs whose requests wait at a bandwidth controller. -/
def State.bwWaiters (s : State) : QosCtl → List Nat
  | .mc ch => s.mcWaiters ch
  | .hzn p => s.hznWaiters p
  | _ => []

/-- BW_EPOCH: the reserved tokens of the epoch are issued and the shared pool is formed, under the allocations in force
now; RCIDs that wait have waited one epoch more; and writes that a channel held for tokens go on (R220, R222). -/
def execBwEpoch (k : QosCtl) (s : State) : Out :=
  if qosIsCap k then .next s
  else
    let c := qosCode k
    let e := s.epochBytes k
    let mine (key : Nat) : Bool := key / 1024 == c
    let s : State := { s with qos := { s.qos with
      bwNow := s.qos.bwNow.filter (fun x => !mine x.1) } }
    let s := (s.qos.bw.filter (fun x => mine x.1)).foldl (fun s x =>
      ({ s with qos := { s.qos with bwNow := Tbl.set bwDefault s.qos.bwNow x.1 x.2 } } : State)) s
    let rcids := ((c * 1024) :: (s.qos.bw.map (·.1) ++ s.qos.bal.map (·.1)).filter mine).eraseDups.map (· % 1024)
    let s := rcids.foldl (fun s r =>
      let t : Int := (s.bwOf c r).1 * e
      s.setBal c r (min (s.bal c r + t) (2 * t))) s
    let old := s.qos.waited
    let s : State := { s with qos := { s.qos with
      drawn := s.qos.drawn.filter (fun x => !mine x.1), waited := old.filter (fun x => !mine x.1) } }
    let s := ((s.bwWaiters k).eraseDups).foldl (fun s r =>
      s.setWaited c r (Tbl.get (fun _ => 0) old (c * 1024 + r) + 1)) s
    .next ((s.setPool c (1000 * e - s.rbwbSum c * e)).chFlush)

/-! ## Minutes (R224, R225, R230, R233) -/

def minuteNs : Nat := 60000000000
def flagHOLDOVER : Nat := 1
def flagTIME_STEP : Nat := 2
def flagENERGY : Nat := 4
def flagPARTIAL : Nat := 8
def flagCLAMPED : Nat := 32

def State.setMeter (s : State) (m : MeterSt) : State := { s with meter := m }

/-- A count of a set. -/
def MeterSet.count (x : MeterSet) (q mcid : Nat) : Nat := Tbl.get (fun _ => 0) x.counts (q * 1024 + mcid)
def MeterSet.total (x : MeterSet) (q : Nat) : Nat := Tbl.get (fun _ => 0) x.totals q
def MeterSet.setCount (x : MeterSet) (q mcid v : Nat) : MeterSet :=
  { x with counts := Tbl.set (fun _ => 0) x.counts (q * 1024 + mcid) v }
def MeterSet.setTotal (x : MeterSet) (q v : Nat) : MeterSet := { x with totals := Tbl.set (fun _ => 0) x.totals q v }

/-- Merge a minute into the open set (R230). -/
def mergeSets (o m : MeterSet) : MeterSet :=
  let x : MeterSet := m.counts.foldl (fun x e =>
    { x with counts := Tbl.upd (fun _ => 0) x.counts e.1 (· + e.2) }) o
  let x : MeterSet := m.totals.foldl (fun x e =>
    { x with totals := Tbl.upd (fun _ => 0) x.totals e.1 (· + e.2) }) x
  let clamp : Bool := decide (65535 < o.span + m.span)
  { x with span := min 65535 (o.span + m.span), flags := o.flags ||| m.flags ||| (if clamp then flagCLAMPED else 0) }

/-- A minute that is complete goes into the open set. -/
def State.freshToOpen (s : State) : State :=
  match s.meter.fresh with
  | none => s
  | some f =>
    let o := match s.meter.opened with | some o => mergeSets o f | none => f
    s.setMeter { s.meter with fresh := none, opened := some o }

/-- Seal the open set with the active key (R225 step 4, R227). -/
def State.sealOpen (s : State) : State :=
  match s.meter.opened with
  | none => s
  | some o =>
    let key := match s.meter.active with | some k => Tbl.get (fun _ => []) s.meter.keys k | none => []
    let by' := match s.meter.active with | some k => if key = [] then 0xFF else k | none => 0xFF
    s.setMeter { s.meter with opened := none, sealed := some { o with sealBy := some by', key := key } }

/-- The sources of a quantity: the package's own and each die's. -/
def quantitySources (q : Nat) : List Nat :=
  q :: (if q = qACTIVE_NS ∨ q = qCYCLES ∨ q = qVC_OCC then (List.range 12).map (fun d => qDie d q) else [])

/-- The closed bank is read and cleared, lost values rebuilt (R225 step 2, spec/14 R330). -/
def State.banksRead (s : State) : State :=
  if !s.meter.closed then s
  else
    let b := 1 - s.meter.bank
    let f := s.meter.fresh.getD {}
    let f := foldN 9 f (fun q f =>
      let srcs := quantitySources q
      let f := s.meter.acc.foldl (fun (f : MeterSet) e =>
        if e.1 / 1024 / 64 = b ∧ srcs.contains (e.1 / 1024 % 64) then f.setCount q (e.1 % 1024) (f.count q (e.1 % 1024) + e.2)
        else f) f
      f.setTotal q (srcs.foldl (fun k src => k + s.meterTot b src) 0))
    let f := foldN 9 f (fun q f =>
      let bad := (s.meter.bad.filter (fun x => x.1 == b && x.2.1 == q)).map (·.2.2)
      if bad.length ≤ 1 then f
      else
        let f := bad.foldl (fun (f : MeterSet) m => match m with | some mcid => f.setCount q mcid 0 | none => f) f
        let sum := (f.counts.filter (fun e => e.1 / 1024 == q)).foldl (fun k e => k + e.2) 0
        let f : MeterSet := { f with flags := f.flags ||| flagLOST }
        if bad.contains none then f.setTotal q sum else f.setCount q 0 (f.count q 0 + (f.total q - sum)))
    s.setMeter { s.meter with
      closed := false, fresh := some f, bad := s.meter.bad.filter (fun x => x.1 != b),
      acc := s.meter.acc.filter (fun e => e.1 / 1024 / 64 != b), tot := s.meter.tot.filter (fun e => e.1 / 64 != b) }

/-- The first minute boundary at or after GTIME that ends the minute in progress (R233). -/
def State.minuteEnd (s : State) : Nat := max (s.nextAt minuteNs) ((s.meter.minute / minuteNs + 1) * minuteNs)

/-- MINUTE_BOUNDARY: every source switches to its second bank, the key chosen for this boundary becomes active, and an
open set that has reached its longest span is sealed (R225 step 1, R228, R230, R233). -/
def execMinuteBoundary (s : State) : Out :=
  if s.pwr.stage = .off then .next s
  else
    let s := s.banksRead.freshToOpen
    let b := s.minuteEnd
    let s := s.elapseTo b
    let hold := if s.get R.TIME_STATUS_STATE = 3 then flagHOLDOVER else 0
    let f : MeterSet :=
      { start := s.meter.minute, span := min 65535 (b / minuteNs - s.meter.minute / minuteNs),
        flags := s.meter.mflags ||| hold ||| (if 65535 < b / minuteNs - s.meter.minute / minuteNs then flagCLAMPED else 0) }
    let s := s.setMeter { s.meter with
      bank := 1 - s.meter.bank, closed := true, fresh := some f, minute := b, mflags := hold,
      active := (match s.meter.next with | some k => k | none => s.meter.active), next := none }
    let full : Bool := match s.meter.opened with | some o => decide (o.span = 65535) | none => false
    .next (if full && s.meter.sealed.isNone then s.sealOpen else s)

/-- OCCUPANCY_SAMPLE: at the next whole millisecond of GTIME, every valid line and block is added to its MCID's integral;
a sample at a boundary belongs to the minute that begins there (R224). -/
def execOccupancySample (s : State) : Out :=
  if s.pwr.stage = .off then .next s
  else
    let t := s.nextAt 1000000
    let t := if s.meter.sampled = some t then t + 1000000 else t
    let s := s.elapseTo t
    let b := if t % minuteNs = 0 ∧ s.meter.minute < t then 1 - s.meter.bank else s.meter.bank
    let s := s.setMeter { s.meter with sampled := some t }
    let s := s.die.vc.foldl (fun s e => if e.2.valid then s.meterIn b (qDie (e.1 / 2 ^ 20) qVC_OCC) e.2.mcid 1 else s) s
    let s := s.mesa.tags.foldl (fun s e =>
      if e.2.valid = 0 then s else s.meterIn b qMESA_OCC e.2.mcid (popCount 16 e.2.valid)) s
    .next (s.mesa.vict.foldl (fun s e => e.2.foldl (fun s v =>
      s.meterIn b qMESA_OCC v.sec.mcid (popCount 16 v.sec.valid)) s) s)

/-- METER_BANKS_READ: every closed bank has been read and cleared (R225 step 2). -/
def execMeterBanksRead (s : State) : Out := .next s.banksRead

/-- The memory, Horizon and XCE bytes of an MCID in a set, in proportion to which uncore dynamic energy is attributed
(R226). -/
def MeterSet.energyBytes (x : MeterSet) (mcid : Nat) : Nat :=
  x.count qMEM_READ mcid + x.count qMEM_WRITE mcid + x.count qHZN_TX mcid + x.count qHZN_RX mcid + x.count qXCE mcid

/-- What the power microcontroller attributes to each MCID before scaling, times the bytes of all (or 1 where nothing
moved): the energy measured at its cores, its part of the uncore dynamic energy, and to MCID 0 the idle and static energy
and, where nothing moved, the uncore dynamic energy (R226). -/
def MeterSet.attributed (x : MeterSet) (cores : List (Nat × Nat)) (uncore idle : Nat) : List (Nat × Nat) :=
  let ids := (0 :: (cores.map (fun a => a.1 % 1024) ++ x.counts.map (fun e => e.1 % 1024))).eraseDups
  let all := ids.foldl (fun k m => k + x.energyBytes m) 0
  let unit := if all = 0 then 1 else all
  ids.map (fun m =>
    let core := (cores.filter (fun a => a.1 % 1024 == m)).foldl (fun k a => k + a.2) 0
    (m, core * unit + (if all = 0 then (if m = 0 then uncore else 0) else uncore * x.energyBytes m) +
      (if m = 0 then idle * unit else 0)))

/-- ENERGY_DELIVERY: the minute's measured energy, with the energy of the active cores by MCID, the uncore dynamic energy, and
the energy of idle cores and the static uncore; the attributions are scaled to the total, the remainder in MCID 0 (R225
step 3, R226). -/
def execEnergyDelivery (total : Nat) (cores : List (Nat × Nat)) (uncore idle : Nat) (s : State) : Out :=
  match s.meter.fresh with
  | none => .next s
  | some f =>
    if s.meter.closed then .next s
    else
      let got := uncore + idle + cores.foldl (fun k a => k + a.2) 0
      let off := if got < total then total - got else got - total
      let parts := f.attributed cores uncore idle
      let sum := parts.foldl (fun k a => k + a.2) 0
      let f : MeterSet := { f with
        energy := true, flags := f.flags ||| (if 2 * total < 100 * off then flagENERGY else 0) }
      let f := parts.foldl (fun (f : MeterSet) a =>
        let v := if sum = 0 then 0 else a.2 * total / sum
        f.setCount qENERGY (a.1 % 1024) (f.count qENERGY (a.1 % 1024) + v)) f
      let got := (f.counts.filter (fun e => e.1 / 1024 == qENERGY)).foldl (fun k e => k + e.2) 0
      let f := (f.setCount qENERGY 0 (f.count qENERGY 0 + (total - got))).setTotal qENERGY total
      .next ((s.setMeter { s.meter with fresh := some f }).freshToOpen)

/-! ## Records and the ring (R227, R229 to R231) -/

/-- The MCIDs of a set's records: 0, and every other with a quantity above zero (R226). -/
def MeterSet.mcids (x : MeterSet) : List Nat :=
  0 :: (List.range 1024).filter (fun m => decide (0 < m) && x.counts.any (fun e => e.1 % 1024 == m))

/-- Records in a set. -/
def MeterSet.records (x : MeterSet) : Nat := x.mcids.length + 1

/-- The 128 bytes of record `i` (R227): the total record, then the MCID records. -/
def MeterSet.record (x : MeterSet) (pkg : Nat) (serial : Word) (i : Nat) : List Nat :=
  let mcid := if i = 0 then 0xFFFF else x.mcids.getD (i - 1) 0
  let slot := x.sealBy.getD 0xFF
  let body := [1, if i = 0 then 1 else 0] ++ leBytes 2 mcid ++ leBytes 2 pkg ++ [x.flags % 256, slot] ++
    leBytes 8 x.start ++ leBytes 8 serial.toNat ++ leBytes 2 i ++ leBytes 2 x.records ++ leBytes 2 x.span ++ [0, 0] ++
    (List.range 10).flatMap (fun q => leBytes 8 (if i = 0 then x.total q else x.count q mcid))
  body ++ (if slot = 0xFF then List.replicate 16 0 else (hmac256 x.key body).take 16)

/-- Entries of the ring. -/
def State.meterEntries (s : State) : Nat := 2 ^ s.get R.METER_RING_SIZE_LOG2_ENTRIES

/-- Does the ring hold room for a set (R229)? -/
def State.meterRoom (s : State) (n : Nat) : Bool :=
  let used := (s.get R.METER_RING_PROD_PROD + 2 ^ 32 - s.get R.METER_RING_CONS_CONS) % 2 ^ 32
  decide (n + used ≤ s.meterEntries)

/-- Can a set be delivered now (R225, R230)? -/
def State.canDeliver (s : State) (x : MeterSet) : Bool :=
  s.get R.METER_CTL_RING_ENABLE == 1 && s.meterRoom x.records

/-- METER_SEAL: delivery being possible, Thoiviyx seals the open set, no sealed set being ahead of it (R225 step 4,
R230). A minute in preparation is first merged. -/
def execMeterSeal (s : State) : Out :=
  match s.meter.opened with
  | some o =>
    if s.tvx.running && s.meter.sealed.isNone && s.meter.fresh.isNone && s.canDeliver o then .next s.sealOpen else .next s
  | none => .next s

/-- The streams of the metering block and the counter collector at the XCE's coherent DMA agent. -/
def streamMETER : Nat := 0x10000
def streamCCOL : Nat := 0x10001

/-- Send one full-line ordered write of the metering block or the collector. `none` where R32 refuses the address, with
its CAUSE recorded (R229, spec/18 R411). -/
def State.ringLine (s : State) (stream ga : Nat) (why : IoWhy) (data : List Nat) (rid : Nat) : State × Bool :=
  match s.reachDevice ga with
  | .mem _ =>
    (s.ioSend agXCE stream why
      { blankMsg with opc := opWR_FULL, addr := ga / 64, ord := 1, payload := true,
                      data := BitVec.ofNat 512 (ofBytes data) }, true)
  | .peer =>
    (s.ioSend agXCE stream why
      { blankMsg with opc := opWR_FULL, addr := ga / 64, ord := 1, payload := true,
                      data := BitVec.ofNat 512 (ofBytes data) }, true)
  | .fault c => (s.decodeErr c 2 0 rid ga true, false)
  | _ => (s.decodeErr 0 2 0 rid ga true, false)

/-- Write lines until one is refused; says which was. -/
def State.ringLines (s : State) (stream rid : Nat) (mk : Nat → IoWhy) : List (Nat × Nat × List Nat) → State × Option Nat
  | [] => (s, none)
  | (i, ga, data) :: rest =>
    match s.ringLine stream ga (mk i) data rid with
    | (s, true) => State.ringLines s stream rid mk rest
    | (s, false) => (s, some ga)

/-- METER_RING_DELIVER: with room in the ring, the sealed set is written as ordered full-line writes (R229, R231). -/
def execMeterRingDeliver (s : State) : Out :=
  match s.meter.sealed with
  | none => .next s
  | some x =>
    if s.meter.writing ≠ 0 ∨ ¬ s.canDeliver x then .next s
    else
      let prod := s.get R.METER_RING_PROD_PROD
      let base := s.get R.METER_RING_BASE_BASE * 4096
      let recs := (List.range x.records).map (fun i => x.record s.pkgId Config.serial i)
      let lines := (List.range (2 * x.records)).map (fun j =>
        (j, base + (prod + j / 2) % s.meterEntries * 128 + j % 2 * 64, ((recs.getD (j / 2) []).drop (j % 2 * 64)).take 64))
      let s := s.setMeter { s.meter with writing := 2 * x.records, committed := 0 }
      match s.ringLines streamMETER 0 (fun i => .meter i) lines with
      | (s, none) => .next s
      | (s, some ga) => .next (s.meterLine 0 false ga)

/-- METER_SET_DELIVERED: COMMIT has been sent for every write of the set: PROD advances and the MSI is sent (R229). -/
def execMeterSetDelivered (s : State) : Out :=
  match s.meter.sealed with
  | none => .next s
  | some x =>
    if s.meter.writing = 0 ∨ s.meter.committed < s.meter.writing then .next s
    else
      let s := s.setMeter { s.meter with sealed := none, writing := 0, committed := 0 }
      let s := s.wrapAdd R.METER_RING_PROD_PROD x.records
      let s := (s.bump R.METER_STATUS_SETS_DELIVERED 1).setReg R.rMETER_LAST (BitVec.ofNat 64 x.start)
      .next (if s.get R.METER_CTL_MSI_ENABLE = 1 then
          s.sendMsi (s.get R.METER_MSI_ADDR_ADDR * 4) (s.get R.METER_MSI_DATA_DATA) 0 else s)

/-! ## Keys (R228) -/

/-- Where the flash is lent out, a command that needs it completes INVALID_STATE (spec/19 R427). -/
def State.flashGate (s : State) (body : State → State × Reply) : State × Reply :=
  if s.tvx.flashGranted then (s, (stINVALID_STATE, 0, [])) else body s

def State.setKey (s : State) (k : Nat) (v : List Nat) : State :=
  s.setMeter { s.meter with keys := Tbl.set (fun _ => []) s.meter.keys k v }
def State.key (s : State) (k : Nat) : List Nat := Tbl.get (fun _ => []) s.meter.keys k

/-- METER_KEY_SET. -/
def execMeterKeySet (s : State) : Out :=
  .next (s.execHead opKEY_SET 33 true (fun c s => s.flashGate (fun s =>
    let k := c.pkt.data.getD 0 0
    if 3 < k ∨ s.meter.active = some k then (s, (stINVALID_ARG, 0, []))
    else (s.setKey k ((c.pkt.data.drop 1).take 32), (stOK, 0, [])))))

/-- METER_KEY_ACTIVATE: the slot is used from the next boundary on. -/
def execMeterKeyActivate (s : State) : Out :=
  .next (s.execHead opKEY_ACTIVATE 1 true (fun c s => s.flashGate (fun s =>
    let k := c.pkt.data.getD 0 0
    if 3 < k then (s, (stINVALID_ARG, 0, []))
    else if s.key k = [] then (s, (stINVALID_STATE, 0, []))
    else (s.setMeter { s.meter with next := some (some k) }, (stOK, 0, [])))))

/-- METER_KEY_CLEAR: the slot is erased; sets are unsealed where it was active. -/
def execMeterKeyClear (s : State) : Out :=
  .next (s.execHead opKEY_CLEAR 1 true (fun c s => s.flashGate (fun s =>
    let k := c.pkt.data.getD 0 0
    if 3 < k then (s, (stINVALID_ARG, 0, []))
    else
      let s := s.setKey k []
      let act := if s.meter.active = some k then none else s.meter.active
      let nxt := if s.meter.next = some (some k) then none else s.meter.next
      (s.setMeter { s.meter with active := act, next := nxt }, (stOK, 0, [])))))

/-- "HQN-METER-KCV". -/
def kcvText : List Nat := [0x48, 0x51, 0x4E, 0x2D, 0x4D, 0x45, 0x54, 0x45, 0x52, 0x2D, 0x4B, 0x43, 0x56]

/-- METER_KEY_QUERY. -/
def execMeterKeyQuery (s : State) : Out :=
  .next (s.execHead opKEY_QUERY 0 true (fun _ s => s.flashGate (fun s =>
    (s, (stOK, 0, (List.range 4).flatMap (fun k =>
      let key := s.key k
      [if key = [] then 0 else 1, if s.meter.active = some k then 1 else 0] ++
        (if key = [] then [0, 0, 0, 0] else (hmac256 key kcvText).take 4)))))))

/-! ## What the METER registers show (METER_STATUS) -/

/-- SET_WAITING, KEY_ACTIVE, ACTIVE_SLOT, SEALED_WAITING and WAITING_SPAN: a set waits while it is held back (R230). -/
def State.meterStatus (s : State) : State :=
  let sw : Bool := match s.meter.sealed with
    | some x => s.meter.writing == 0 && !s.canDeliver x
    | none => false
  let ow : Bool := match s.meter.opened with
    | some o => s.meter.sealed.isSome || !s.tvx.running || !s.canDeliver o
    | none => false
  let s := s.putB R.METER_STATUS_SET_WAITING (sw || ow)
  let s := s.putB R.METER_STATUS_SEALED_WAITING sw
  let s := s.put R.METER_STATUS_WAITING_SPAN (if ow then (match s.meter.opened with | some o => o.span | none => 0) else 0)
  let s := s.putB R.METER_STATUS_KEY_ACTIVE s.meter.active.isSome
  s.put R.METER_STATUS_ACTIVE_SLOT (s.meter.active.getD 0)

end Sys2Proof.Machine
end

