-- ==== Sys2Proof/Machine/Mgmt.lean ====
section
/-!
DEFINITION. The commands of Thoiviyx (spec/15_thoiviyx_management.md): MGMT_RESET, readings, frames and packets, the
immediate and the queued commands, settings and device records, the host boot image area, and the lending of the flash
(spec/19 R427).
-/

namespace Sys2Proof.Machine

def State.setTvx (s : State) (x : TvxSt) : State := { s with tvx := x }

/-! ## MGMT_RESET (R342, spec/16 R375) -/

/-- Where an activation stands when it fails: the step of spec/16 R372 and the component. -/
def ActPh.place : ActPh → Nat × Nat
  | .copy => (2, 0xFF)
  | .mainNew => (3, 1)
  | .comp c => (5, c)
  | .deferPwr => (5, 2)
  | .back c => (5, c)
  | .mainOld => (5, 1)

/-- MGMT_RESET: commands and data-out phases are discarded, the ingresses return to their start values, and a running
activation fails unless it asked for the restart itself (spec/16 R375). A failure in a rollback makes an urgent record
(R374). -/
def State.mgmtReset (s : State) (c : Cause) : State :=
  if !s.tvx.alive then s
  else
    let own : Bool := c == .activate || c == .rollback
    let act : Option Act := match s.tvx.act with
      | some a =>
        if own || a.fail.isSome then some a
        else some { a with fail := some (a.ph.place.1, a.ph.place.2, if c = .notReady then 8 else 12) }
      | none => none
    let again : Bool := !own && (match s.tvx.act with | some a => a.fail.isSome | none => false)
    let s := s.setTvx { s.tvx with running := false, recovery := false, queue := [], msl := {}, mbox := {}, cause := c, act := act }
    if again then s.errRecord bankTvx errUEC 0 0 0 else s

/-- MGMT_RESET, as PACKAGE_RESET with argument 2 causes it. -/
def execMgmtReset (s : State) : Out := .next (s.mgmtReset .packageReset)

/-- LOCKSTEP_MISMATCH. -/
def execLockstepMismatch (s : State) : Out := .next (s.mgmtReset .lockstep)

/-- TVX_WATCHDOG_EXPIRY: the watchdog of TVX_MAIN. -/
def execTvxWatchdogExpiry (s : State) : Out := .next (if s.tvx.running then s.mgmtReset .watchdog else s)

/-! ## Readings (R343, R344) -/

/-- The sensor that reads hottest, the lowest-numbered among equals. -/
def State.hottest (s : State) : Nat :=
  (List.range 420).foldl (fun b i =>
    if Tbl.get (fun _ => 0) s.tvx.temps b < Tbl.get (fun _ => 0) s.tvx.temps i then i else b) 0

/-- THERMAL_SENSOR_READ: every sensor's reading in 1/16 °C, by its number; PWR_TEMP follows. -/
def execThermalSensorRead (vals : List Int) (s : State) : Out :=
  if !s.tvx.alive then .next s
  else
    let old := s.tvx.temps
    let s := s.setTvx { s.tvx with temps := foldN 420 old (fun i t =>
      match vals[i]? with | some v => Tbl.set (fun _ => 0) t i v | none => t) }
    let h := s.hottest
    .next ((s.put R.PWR_TEMP_HOTTEST (satSigned 16 (Tbl.get (fun _ => 0) s.tvx.temps h))).put R.PWR_TEMP_SENSOR h)

/-- The die of an ageing monitor (R343, R344). -/
def monitorDie (m : Nat) : Nat := if m < 48 then m / 4 else if m < 56 then 12 else 13 + (m - 56)

/-- AGEING_READ: monitor `m` reads `r` ppm; readings of the trailing 30 days are kept. -/
def execAgeingRead (m : Fin 60) (r : Int) (s : State) : Out :=
  if !s.tvx.alive then .next s
  else
    let l := (s.pwr.now, r) :: (s.readings m).filter (fun x => decide (s.pwr.now ≤ x.1 + 30 * dayNs))
    .next ((s.setTvx { s.tvx with ages := Tbl.set (fun _ => []) s.tvx.ages m.val l }).healthRevise (monitorDie m))

/-! ## Packets (R345 to R347) -/

/-- The bytes of a packet, and the packet that bytes spell. -/
def pktBytes (p : Pkt) : List Nat :=
  [p.version % 256, p.typ % 256, p.tag % 256, 0] ++ leBytes 2 p.opcode ++ leBytes 2 p.status ++ leBytes 2 p.length ++
    leBytes 2 p.aux ++ leBytes 4 p.param ++ p.data
def pktOf (bs : List Nat) : Pkt :=
  { version := field bs 0 1, typ := field bs 1 1, tag := field bs 2 1, opcode := field bs 4 2, status := field bs 6 2,
    length := field bs 8 2, aux := field bs 10 2, param := field bs 12 4, data := bs.drop 16 }

/-- Undo the stuffing of R345; `none` where 0x7D is not followed by 0x5D or 0x5E. -/
def unstuff : List Nat → Option (List Nat)
  | [] => some []
  | 0x7D :: 0x5E :: r => (unstuff r).map (0x7E :: ·)
  | 0x7D :: 0x5D :: r => (unstuff r).map (0x7D :: ·)
  | 0x7D :: _ => none
  | b :: r => (unstuff r).map (b :: ·)

/-- Replace each 0x7E and 0x7D (R345). -/
def stuff : List Nat → List Nat
  | [] => []
  | 0x7E :: r => 0x7D :: 0x5E :: stuff r
  | 0x7D :: r => 0x7D :: 0x5D :: stuff r
  | b :: r => b :: stuff r

/-- The frame that carries a packet on the MSL (R345): the packet and its CRC-32C, stuffed, between two flags. -/
def mslFrame (p : Pkt) : List Nat :=
  let bs := pktBytes p
  [0x7E] ++ stuff (bs ++ leBytes 4 (crc32c bs)) ++ [0x7E]

/-- What the package has sent on the MSL, oldest first. -/
def State.mslLine (s : State) : List Nat := s.tvx.mslOut.flatMap mslFrame

/-- Are packets of an ingress taken: the MSL while TVX_MAIN runs or in recovery mode, the MBOX while TVX_MAIN runs? -/
def State.ingUp (s : State) (g : Ingress) : Bool := s.tvx.running || (s.tvx.recovery && g == .msl)

/-- The tag of a command that is queued or executing. -/
def State.tagBusy (s : State) (g : Ingress) (t : Nat) : Bool := (s.queuedOf g).any (fun c => c.pkt.tag == t)

/-- A COMMAND arrives (R348, R351, R352, R355). -/
def State.recvCommand (s : State) (g : Ingress) (k : Pkt) : State :=
  let x := s.ing g
  if k.version = 0 ∨ 3 < k.version then s.answer g { k with version := 3 } stUNSUPPORTED 0 [1, 3]
  else if s.tvx.longOp.isSome then
    let (b, s) := s.busyPay k.version
    s.answer g k stBUSY 0 b
  else if !s.tvx.recovery && opImmediate k.version k.opcode then s.setIng g { x with imm := x.imm ++ [k] }
  else if x.frozen then (s.setIng g { x with errTags := x.errTags ++ [k.tag] }).answer g k stFROZEN
  else if 32 ≤ (s.queuedOf g).length then s.answer g k stFULL
  else if s.tagBusy g k.tag then s.answer g k stTAG_IN_USE
  else (s.setQueue (s.tvx.queue ++ [{ ing := g, pkt := k }])).settle queueMax

/-- The block that a data-out phase waits for: its length. -/
def QCmd.due (c : QCmd) : Nat := min 4096 (c.pkt.param - c.data.length)

/-- A DATA packet arrives (R354). -/
def State.recvData (s : State) (g : Ingress) (k : Pkt) : State :=
  let miss (s : State) : State := if g = .msl then s.bump R.MBOX_MSL_STATS_FRAME_ERRORS 1 else s
  match s.tvx.queue with
  | c :: rest =>
    if c.ing = g ∧ c.xfer ∧ c.pkt.tag = k.tag then
      if k.opcode = c.pkt.opcode ∧ k.param = c.data.length ∧ k.length = c.due then
        let c : QCmd := { c with data := c.data ++ k.data.take k.length, xfer := false }
        let s := s.setQueue (c :: rest)
        if c.data.length < c.pkt.param then s.xferReady c else s
      else ((s.setQueue rest).finish c stXFER_ERROR).settle queueMax
    else miss s
  | [] => miss s

/-- A packet reaches an ingress; one whose TYPE is neither COMMAND nor DATA is discarded (R347). -/
def State.recvPkt (s : State) (g : Ingress) (k : Pkt) : State :=
  if k.typ = 0 then s.recvCommand g k else if k.typ = 3 then s.recvData g k else s

/-- MSL_FRAME: the bytes between two flags. A frame is discarded and counted where R345 says so. -/
def execMslFrame (bytes : List Nat) (s : State) : Out :=
  if bytes = [] ∨ !s.ingUp .msl then .next s
  else
    let bad (s : State) : Out := .next (s.bump R.MBOX_MSL_STATS_FRAME_ERRORS 1)
    match unstuff bytes with
    | none => bad s
    | some bs =>
      if bs.length < 20 ∨ 4116 < bs.length then bad s
      else
        let p := bs.take (bs.length - 4)
        if crc32c p ≠ field bs (bs.length - 4) 4 then .next (s.bump R.MBOX_MSL_STATS_CRC_ERRORS 1)
        else if field bs 8 2 ≠ bs.length - 20 then bad s
        else .next ((s.bump R.MBOX_MSL_STATS_FRAMES_GOOD 1).recvPkt .msl (pktOf p))

/-- Is a packet one that R347 lets through, and is LENGTH its payload's? -/
def pktOk (k : Pkt) : Bool := decide (k.length ≤ 4096) && k.data.length == k.length

/-- COMMAND_RECEIVE. -/
def execCommandReceive (g : Ingress) (k : Pkt) (s : State) : Out :=
  .next (if s.ingUp g && k.typ == 0 && pktOk k then s.recvCommand g k else s)

/-- DATA_PACKET. -/
def execDataPacket (g : Ingress) (k : Pkt) (s : State) : Out :=
  .next (if s.ingUp g && k.typ == 3 && pktOk k then s.recvData g k else s)

/-- XFER_DATA_TIMEOUT: the DATA does not arrive within 1 s (R354). -/
def execXferDataTimeout (s : State) : Out :=
  match s.tvx.queue with
  | c :: rest => if c.xfer then .next (((s.setQueue rest).finish c stXFER_ERROR).settle queueMax) else .next s
  | [] => .next s

/-! ## The mailbox (R346) -/

/-- MBOX_TX_GO: GO with LENGTH in MBOX_TX_CTL. -/
def execMboxTxGo (len : Nat) (s : State) : Out :=
  if s.get R.MBOX_STATUS_TX_BUSY = 1 ∨ !s.tvx.running ∨ len < 16 ∨ 4112 < len then .next (s.put R.MBOX_STATUS_TX_OVERRUN 1)
  else .next ((s.put R.MBOX_TX_CTL_LENGTH len).put R.MBOX_STATUS_TX_BUSY 1)

/-- The first `n` bytes of MBOX_TX_BUF. -/
def State.txBytes (s : State) (n : Nat) : List Nat :=
  (List.range n).map (fun i => bits (s.reg (R.rMBOX_TX_BUF (i / 8))).toNat (8 * (i % 8)) 8)

/-- MBOX_TX_TAKE: Thoiviyx takes the packet. -/
def execMboxTxTake (s : State) : Out :=
  if s.get R.MBOX_STATUS_TX_BUSY = 1 ∧ s.tvx.running then
    let n := s.get R.MBOX_TX_CTL_LENGTH
    let k := pktOf (s.txBytes n)
    let s := s.put R.MBOX_STATUS_TX_BUSY 0
    if k.length + 16 ≠ n ∨ (k.typ ≠ 0 ∧ k.typ ≠ 3) then .next (s.put R.MBOX_STATUS_TX_MALFORMED 1)
    else .next (s.recvPkt .mbox k)
  else .next s

/-- MBOX_RX_ACK: ACK in MBOX_RX_CTL. -/
def execMboxRxAck (s : State) : Out := .next (s.put R.MBOX_STATUS_RX_VALID 0)

/-- Bytes into MBOX_RX_BUF from byte `i`. -/
def State.rxFill (s : State) : Nat → List Nat → State
  | _, [] => s
  | i, b :: bs => (s.put ⟨R.rMBOX_RX_BUF (i / 8), 8 * (i % 8), 8⟩ b).rxFill (i + 1) bs

/-- MBOX_RX_DELIVER: the next packet goes to MBOX_RX_BUF. -/
def execMboxRxDeliver (s : State) : Out :=
  match s.tvx.mboxQ with
  | p :: rest =>
    if s.tvx.running ∧ s.get R.MBOX_STATUS_RX_VALID = 0 then
      let bs := pktBytes p
      let s := (s.setTvx { s.tvx with mboxQ := rest }).rxFill 0 bs
      let s := ((s.put R.MBOX_RX_INFO_LENGTH bs.length).put R.MBOX_RX_INFO_TYPE p.typ).put R.MBOX_RX_INFO_TAG p.tag
      let s := s.put R.MBOX_STATUS_RX_VALID 1
      .next (if s.get R.MBOX_IRQ_CTL_MSI_ENABLE = 1 then
          s.sendMsi (s.get R.MBOX_MSI_ADDR_ADDR * 4) (s.get R.MBOX_MSI_DATA_DATA) 0 else s)
    else .next s
  | [] => .next s

/-! ## Immediate commands (R352, R353, R356) -/

/-- Serve the oldest immediate command of an ingress where it carries opcode `op`; its answer is neither stored nor does
it freeze. -/
def State.execImm (s : State) (g : Ingress) (op need : Nat) (body : Pkt → State → State × Reply) : State :=
  match (s.ing g).imm with
  | k :: rest =>
    if k.opcode = op ∧ s.tvx.running then
      let s := s.setIng g { s.ing g with imm := rest }
      if k.version = 1 ∧ k.param ≠ 0 then
        let r := s.badHeader
        r.1.answer g k r.2.1 r.2.2.1
      else if k.data.length < need then s.answer g k stINVALID_ARG k.data.length
      else
        let r := body k s
        r.1.answer g k r.2.1 r.2.2.1 r.2.2.2
    else s
  | [] => s

/-- QUERY_TAG: a stored response is sent again, unchanged, as the answer (R353). -/
def execQueryTag (g : Ingress) (s : State) : Out :=
  match (s.ing g).imm with
  | k :: rest =>
    let t := k.data.headD 0
    match Tbl.get (fun _ => none) (s.ing g).stored t with
    | some r =>
      if k.opcode = opQUERY_TAG ∧ s.tvx.running ∧ k.data ≠ [] ∧ ¬ (k.version = 1 ∧ k.param ≠ 0) then
        .next ((s.setIng g { s.ing g with imm := rest }).sendPkt g r)
      else .next (s.execImm g opQUERY_TAG 1 (fun _ s => (s, (stNOT_FOUND, 0, []))))
    | none => .next (s.execImm g opQUERY_TAG 1 (fun _ s => (s, (if s.tagBusy g t then stIN_PROGRESS else stNOT_FOUND, 0, []))))
  | [] => .next s

/-- Is a command past its data-out phase and executing? -/
def QCmd.past (c : QCmd) : Bool := decide (0 < c.pkt.param) && decide (c.pkt.param ≤ c.data.length)

/-- ABORT (R352). -/
def execAbort (g : Ingress) (s : State) : Out :=
  .next (s.execImm g opABORT 1 (fun k s =>
    match s.tvx.queue.find? (fun c => c.ing == g && c.pkt.tag == k.data.headD 0) with
    | some c =>
      if c.past then (s, (stMISSED, 0, []))
      else ((((s.setQueue (s.tvx.queue.erase c)).complete c stABORTED).settle queueMax), (stCAUGHT, 0, []))
    | none => (s, (stMISSED, 0, []))))

/-- An ingress at its start values, but for the immediate commands that wait. -/
def State.ingStart (s : State) (g : Ingress) : State := s.setIng g { imm := (s.ing g).imm }

/-- RESET_CHANNEL (R356). It waits for a command of the ingress that is executing past its data-out phase. -/
def execResetChannel (g : Ingress) (s : State) : Out :=
  if (s.queuedOf g).any QCmd.past then .next s
  else
    .next (s.execImm g opRESET_CHANNEL 0 (fun _ s =>
      let mine := s.queuedOf g
      let s := s.setQueue (s.tvx.queue.filter (fun c => c.ing != g))
      let s := mine.foldl (fun s c => s.complete c stABORTED_RESET) s
      ((s.ingStart g).settle queueMax, (stOK, 0, []))))

/-- GET_ERROR_LOG. -/
def execGetErrorLog (g : Ingress) (s : State) : Out :=
  .next (s.execImm g opGET_ERROR_LOG 0 (fun _ s =>
    let x := s.ing g
    let pay : List Nat := match x.errLog with
      | some (tag, op, st, aux) =>
        let tags := x.errTags.take 255
        [tag % 256] ++ leBytes 2 op ++ leBytes 2 st ++ leBytes 2 aux ++ [tags.length] ++ tags
      | none => List.replicate 8 0
    (s.setIng g { x with errRead := true }, (stOK, 0, pay))))

/-- RESUME_QUEUE (R351). -/
def execResumeQueue (g : Ingress) (s : State) : Out :=
  .next (s.execImm g opRESUME_QUEUE 0 (fun _ s =>
    let x := s.ing g
    if x.frozen then
      if x.errRead then (s.setIng g { x with frozen := false }, (stOK, 0, [])) else (s, (stINVALID_STATE, 0, []))
    else (s, (stOK, 0, []))))

/-! ## Queued commands (R349) -/

/-- A running version. -/
def State.version (s : State) (c : Nat) : Nat := Tbl.get (fun _ => 0) s.tvx.vers c

/-- GET_INFO. -/
def execGetInfo (s : State) : Out :=
  .next (s.execHead opGET_INFO 0 false (fun _ s =>
    (s, (stOK, 0, [1, 3] ++ leBytes 1 (s.get R.PKG_IDENT_STEPPING) ++ [0] ++ leBytes 8 Config.serial.toNat ++ leBytes 2 s.pkgId ++
      [0, 0] ++ (List.range 7).flatMap (fun c => leBytes 4 (s.version c))))))

/-- QUEUE_FLUSH: it comes to the executor behind every command accepted before it (R356). -/
def execQueueFlush (s : State) : Out := .next (s.execHead opQUEUE_FLUSH 0 false (fun _ s => (s, (stOK, 0, []))))

/-- EVENT_ENABLE. -/
def execEventEnable (s : State) : Out :=
  .next (s.execHead opEVENT_ENABLE 1 false (fun c s =>
    let m := c.pkt.data.headD 0
    if 8 ≤ m then (s, (stINVALID_ARG, 0, []))
    else (s.setIng c.ing { s.ing c.ing with mask := m }, (stOK, 0, []))))

/-- The sensors of a class: how many, and one's value. -/
def classCount (k : Nat) : Nat := if k = 0 then 420 else if k = 3 then 60 else 8
def State.sensor (s : State) (k i : Nat) : Int :=
  if k = 0 then Tbl.get (fun _ => 0) s.tvx.temps i
  else if k = 1 then Tbl.get (fun _ => 0) s.tvx.volts i
  else if k = 2 then Tbl.get (fun _ => 0) s.tvx.amps i
  else s.latest i

/-- GET_SENSORS. -/
def execGetSensors (s : State) : Out :=
  .next (s.execHead opGET_SENSORS 5 false (fun c s =>
    let k := field c.pkt.data 0 1
    let first := field c.pkt.data 1 2
    let n := field c.pkt.data 3 2
    if 3 < k then (s, (stINVALID_ARG, 0, []))
    else if classCount k ≤ first then (s, (stINVALID_ARG, 1, []))
    else if n = 0 ∨ 1024 < n ∨ classCount k < first + n then (s, (stINVALID_ARG, 3, []))
    else (s, (stOK, 0, (List.range n).flatMap (fun i => leBytes 4 (satSigned 32 (s.sensor k (first + i))))))))

/-- Days, or all ones where there is no projection. -/
def daysField (d : Option Nat) : Nat := match d with | some n => min n 0xFFFFFFFE | none => 0xFFFFFFFF

/-- GET_HEALTH (R344). -/
def execGetHealth (s : State) : Out :=
  .next (s.execHead opGET_HEALTH 1 false (fun c s =>
    let d := c.pkt.data.headD 0
    if 16 < d then (s, (stINVALID_ARG, 0, []))
    else
      let f := s.ageFit d
      let r : Int := if f.2.2 = 0 then 0 else f.2.1 * 1000 / f.2.2
      (s, (stOK, 0, leBytes 4 (daysField (s.peol d)) ++ leBytes 4 (daysField (s.ageDays d)) ++ leBytes 4 (daysField (s.laneDays d)) ++
        leBytes 4 (satSigned 32 f.1) ++ leBytes 4 (satSigned 32 r) ++
        leBytes 2 (if d < 12 then s.laneEvents d else 0) ++ leBytes 2 (if d < 12 then s.laneF d else 0)))))

/-- READ_EVENT_LOG: the entries from the first SEQ still held. -/
def execReadEventLog (s : State) : Out :=
  .next (s.execHead opREAD_EVENT_LOG 10 false (fun c s => s.flashGate (fun s =>
    let first := field c.pkt.data 0 8
    let n := field c.pkt.data 8 2
    if n = 0 ∨ 64 < n then (s, (stINVALID_ARG, 8, []))
    else
      let es := (s.tvx.log.reverse.filter (fun e => decide (first ≤ e.seq))).take n
      (s, (stOK, 0, es.flatMap (fun e => logBytes e.seq e.time e.code e.sev e.die e.index e.detail))))))

/-- The 64 bytes of a journal record (spec/07 R190). -/
def jBytes (e : JEnt) : List Nat :=
  let b := leBytes 4 e.seq ++ [e.op % 256, e.state % 256] ++ leBytes 2 e.mcid ++ leBytes 8 e.base ++ leBytes 8 e.len ++
    leBytes 8 e.check ++ leBytes 8 e.tStart ++ leBytes 8 e.tEnd ++ leBytes 4 e.vfails ++ leBytes 2 e.tag ++ List.replicate 6 0
  b ++ leBytes 4 (crc32c b)

/-- READ_SANITISE_JOURNAL: the valid record of each SEQ. -/
def execReadSanitiseJournal (s : State) : Out :=
  .next (s.execHead opREAD_JOURNAL 6 false (fun c s => s.flashGate (fun s =>
    let first := field c.pkt.data 0 4
    let n := field c.pkt.data 4 2
    if n = 0 ∨ 64 < n then (s, (stINVALID_ARG, 4, []))
    else (s, (stOK, 0, ((List.range n).filterMap (fun i => s.jEntry (first + i))).flatMap jBytes)))))

/-! ## Settings and device records (R360 to R362, R436) -/

/-- An item's value as SETTINGS_GET returns it; BUCKET_CFG returns every override, by class. -/
def State.itemValue (s : State) (k : Nat) : Option (List Nat) :=
  let r := s.tvx.recs
  let spds (t : Tbl Nat) (c : Nat) : List Nat :=
    leBytes 16 (Tbl.get (fun _ => 0) t (2 * c)) ++ leBytes 16 (Tbl.get (fun _ => 0) t (2 * c + 1))
  if k = itemCORE_RETIRED then some (leBytes 48 r.core)
  else if k = itemWAY_RETIRED then some (leBytes 1858 r.way)
  else if k = itemDRAM_MARKS then
    some ((List.range 16).flatMap (fun c => leBytes 8 (Tbl.get noMarks r.marks (2 * c)).toNat ++
      leBytes 8 (Tbl.get noMarks r.marks (2 * c + 1)).toNat ++ spds r.markSpd c))
  else if k = itemCHANNEL_RETIRED then some (leBytes 2 r.chan ++ (List.range 16).flatMap (fun c => spds r.chanSpd c))
  else if k = 7 then some ((List.range 15).flatMap (fun c => s.setting (bucketItem c)))
  else match itemLength k with
    | some _ => some (s.setting k)
    | none => none

/-- SETTINGS_GET. -/
def execSettingsGet (s : State) : Out :=
  .next (s.execHead opSETTINGS_GET 2 false (fun c s => s.flashGate (fun s =>
    match s.itemValue (field c.pkt.data 0 2) with
    | some v => (s, (stOK, 0, v))
    | none => (s, (stINVALID_ARG, 0, [])))))

/-- The key under which a value of an item is held: a bucket class has its own. -/
def itemKey (k : Nat) (v : List Nat) : Nat := if k = 7 then bucketItem (v.headD 0) else k

/-- A slot with one item written and its number added to the change list (spec/16 R379). -/
def SetSlot.write (x : SetSlot) (k : Nat) (v : List Nat) : SetSlot :=
  { x with items := Tbl.set itemDefault x.items (itemKey k v) v, rot := x.rot.filter (· != itemKey k v),
           change := if x.change.length < 256 then x.change ++ [k] else x.change,
           full := x.full || decide (256 ≤ x.change.length) }

/-- SETTINGS_SET (R361): AUX is the place of the first offending byte in the payload. -/
def execSettingsSet (s : State) : Out :=
  .next (s.execHead opSETTINGS_SET 2 false (fun c s => s.flashGate (fun s =>
    let k := field c.pkt.data 0 2
    let v := c.pkt.data.drop 2
    match itemLength k with
    | none => (s, (stINVALID_ARG, 0, []))
    | some n =>
      match itemBad k v with
      | some i => (s, (stINVALID_ARG, 2 + min i v.length, []))
      | none =>
        if v.length ≠ n then (s, (stINVALID_ARG, 2 + min n v.length, []))
        else (s.putSetSlot s.tvx.runs (s.setSlot.write k v), (stOK, 0, [])))))

/-- The entries of a device record (R436). -/
def recordSize (k : Nat) : Option Nat :=
  if k = itemCORE_RETIRED then some 384
  else if k = itemWAY_RETIRED then some 14864
  else if k = itemDRAM_MARKS then some 512
  else if k = itemCHANNEL_RETIRED then some 16
  else none

/-- The record with the entry `i` of item `k` cleared. -/
def DevRecs.clear (r : DevRecs) (k i : Nat) : DevRecs :=
  if k = itemCORE_RETIRED then { r with core := setBits r.core i 1 0 }
  else if k = itemWAY_RETIRED then { r with way := setBits r.way i 1 0 }
  else if k = itemCHANNEL_RETIRED then { r with chan := setBits r.chan i 1 0 }
  else
    let w := 2 * (i / 32) + i % 32 / 16
    { r with marks := Tbl.upd noMarks r.marks w (fun v => wordPut v (4 * (i % 16)) 4 0xF) }

/-- CLEAR_RETIREMENT. -/
def execClearRetirement (s : State) : Out :=
  .next (s.execHead opCLEAR_RETIREMENT 4 false (fun c s => s.flashGate (fun s =>
    let k := field c.pkt.data 0 2
    let i := field c.pkt.data 2 2
    match recordSize k with
    | none => (s, (stINVALID_ARG, 0, []))
    | some n => if n ≤ i then (s, (stINVALID_ARG, 2, [])) else (s.setRecs k (s.tvx.recs.clear k i), (stOK, 0, [])))))

/-- A device record at its default. -/
def DevRecs.blank (r : DevRecs) (k : Nat) : DevRecs :=
  if k = itemCORE_RETIRED then { r with core := 0 }
  else if k = itemWAY_RETIRED then { r with way := 0 }
  else if k = itemDRAM_MARKS then { r with marks := [], markSpd := [] }
  else if k = itemCHANNEL_RETIRED then { r with chan := 0, chanSpd := [] }
  else r

/-- POR reads the stored items: one whose copy fails its CRC is replaced by its default, with an urgent record that names it
(R361). -/
def State.settingsCheck (s : State) : State :=
  let x := s.setSlot
  let y := s.tvx.recs
  let x' : SetSlot := { x with items := x.rot.foldl (fun t k => Tbl.set itemDefault t k (itemDefault k)) x.items, rot := [] }
  let s := s.putSetSlot s.tvx.runs x'
  let s := s.setTvx { s.tvx with recs := { y.rot.foldl DevRecs.blank y with rot := [] } }
  (x.rot ++ y.rot).foldl (fun s k => s.errRecord bankTvx errUEC 0 0 (if k < 0x10000 then k else 7)) s

/-! ## The host boot image area (R363, spec/16 R368) -/

def hostAreaSize : Nat := 94371840
def sectorSize : Nat := 65536

/-- A byte of the area; a byte never written reads erased (notes/assumptions/35.md). -/
def erased (_ : Nat) : Byte := 0xFF
def State.hostByte (s : State) (i : Nat) : Nat := (Tbl.get erased s.tvx.host i).toNat

/-- The sector at `off` erased and programmed from its start; every other byte keeps its value. -/
def hostProgram (t : Tbl Byte) (off : Nat) (bs : List Nat) : Tbl Byte :=
  let new : Tbl Byte := (bs.zipIdx.map (fun e => (off + e.2, BitVec.ofNat 8 e.1))).filter (fun e => e.2 != erased e.1)
  t.filter (fun e => decide (e.1 < off)) ++ new ++ t.filter (fun e => decide (off + sectorSize ≤ e.1))

/-- `n` bytes that the spec leaves open. -/
def State.freeBytes (s : State) (n : Nat) : List Nat × State :=
  ((List.range n).map (fun i => (Config.freeWord (s.free + i)).toNat % 256), { s with free := s.free + n })

/-- HOST_AREA_WRITE. Whether the read-back fails is the flash device's, and so open (notes/assumptions/36.md). -/
def execHostAreaWrite (s : State) : Out :=
  .next (s.execHead opHOST_WRITE 4 false (fun c s => s.flashGate (fun s =>
    let off := field c.pkt.data 0 4
    let n := c.pkt.param
    if off % sectorSize ≠ 0 then (s, (stINVALID_ARG, 0, []))
    else if n = 0 ∨ sectorSize < n then s.badHeader
    else if hostAreaSize < off + n then (s, (stINVALID_ARG, 0, []))
    else
      let (bad, s) := s.freeBit
      if bad then
        let (junk, s) := s.freeBytes sectorSize
        (s.setTvx { s.tvx with host := hostProgram s.tvx.host off junk }, (stDEVICE_ERROR, 0, []))
      else (s.setTvx { s.tvx with host := hostProgram s.tvx.host off (c.data.take n) }, (stOK, 0, [])))))

/-- HOST_AREA_READ. -/
def execHostAreaRead (s : State) : Out :=
  .next (s.execHead opHOST_READ 6 false (fun c s => s.flashGate (fun s =>
    let off := field c.pkt.data 0 4
    let n := field c.pkt.data 4 2
    if n = 0 ∨ 4096 < n then (s, (stINVALID_ARG, 4, []))
    else if hostAreaSize < off + n then (s, (stINVALID_ARG, 0, []))
    else (s, (stOK, 0, (List.range n).map (fun i => s.hostByte (off + i)))))))

/-! ## The end of a long operation (R355) -/

/-- LONG_OP_COMPLETE: TVX_MAIN, or the boot ROM in recovery mode, sends the final response. -/
def execLongOpComplete (s : State) : Out :=
  match s.tvx.longOp with
  | some l =>
    match l.final with
    | some r => .next (if s.tvx.running || s.tvx.recovery then s.longFinish r.1 r.2.1 r.2.2 else s)
    | none => .next s
  | none => .next s

/-! ## The flash lent out (spec/19 R427) -/

/-- FLASH_REQ_ASSERT. -/
def execFlashReqAssert (s : State) : Out := .next ((s.setTvx { s.tvx with flashReq := true }).flashTry)

/-- FLASH_REQ_DEASSERT: the grant ends and the waiting log entries are written; a start-up that it held begins (R434). -/
def execFlashReqDeassert (s : State) : Out :=
  let s := (s.setTvx { s.tvx with flashReq := false, flashGranted := false }).flushLog
  .next (if s.pwr.good ∧ s.pwr.stage = .vaux ∧ !s.tvx.recovery ∧ s.pwr.refclk then { s with pwr := { s.pwr with stage := .good } } else s)

end Sys2Proof.Machine
end

