-- ==== Sys2Proof/Machine/XceOps.lean ====
section
/-!
DEFINITION. The Xomus channel engine's windows, function resets and configuration space (spec/11_xomus_function.md,
spec/12_xomus_queues.md): the checks at both ends of a window, drains, VFs, and what a configuration write does. The rows
are in XceRows.lean.
-/

namespace Sys2Proof.Machine

/-! ## Windows (spec/12 R299 to R301) -/

def State.owinE (s : State) (i : Nat) : Nat := Tbl.get (fun _ => 0) s.xce.owin i
def State.iwinE (s : State) (i : Nat) : Nat := Tbl.get (fun _ => 0) s.xce.iwin i

/-- `w` bits from bit `lo` of word `n` of a window entry. -/
def wordBits (e n lo w : Nat) : Nat := bits e (64 * n + lo) w

def permREAD : Nat := 0
def permWRITE : Nat := 1
def permATOMIC : Nat := 2
def permSEND : Nat := 3

/-- The outbound entry that function `f` names: PF0 an entry, a VF one of its slots (R299). -/
def State.owinIx (s : State) (f slot : Nat) : Option Nat :=
  if f = 0 then (if slot < 16384 then some slot else none)
  else if slot < s.get (R.XCE_FN_OWIN_OWIN_COUNT f) then
    let i := s.get (R.XCE_FN_OWIN_OWIN_BASE f) + slot
    if i < 16384 then some i else none
  else none

/-- The outbound check (R301): the entry that carries the access, or none, which is DETAIL 3. -/
def State.outCheck (s : State) (f slot perm off len : Nat) : Option Nat :=
  match s.owinIx f slot with
  | none => none
  | some i =>
    let e := s.owinE i
    if wordBits e 0 0 1 = 1 ∧ wordBits e 0 32 12 = f ∧ wordBits e 0 (1 + perm) 1 = 1 ∧ off + len ≤ 2 ^ wordBits e 3 0 6 then
      some i
    else none

/-- A window request through outbound entry `i` at window offset `off` (R291). -/
def State.winMsg (s : State) (f i vc wopc off len : Nat) (ids : Nat × Nat) : WMsg :=
  let e := s.owinE i
  { vc := vc, wopc := wopc, srcPkg := s.pkgId, dstPkg := wordBits e 0 16 12, srcFn := f, iwin := wordBits e 1 0 14,
    offset := (wordBits e 2 12 28 * 4096 + off) % 2 ^ 40, length := len, key := wordBits e 1 32 32, fmcid := ids.2,
    rcid := ids.1 }

/-- Bytes that a window request names. -/
def wSpan (m : WMsg) : Nat := if m.vc = vcNP ∧ m.wopc = 1 then 4 * 2 ^ m.asize else m.length

/-- Is a field of a window request illegal (R242)? -/
def wIllegal (m : WMsg) : Bool :=
  if m.vc = vcNP ∧ m.wopc = 1 then !atomicLegal m.aop m.asize (m.offset % 64) else m.length == 0 || decide (256 < m.length)

/-- Is a package a member of the island (R254)? This package is one while it is listed as such. -/
def State.islander (s : State) (pkg : Nat) : Bool :=
  if pkg = s.pkgId then s.get R.PKG_NODE_ISLAND_MEMBER == 1 else (s.servedAs pkg).isSome

/-- Is inbound entry `e` open to a message: valid, its source, key, permission, kind and size (R301)? -/
def State.inOpen (s : State) (e : Nat) (m : WMsg) : Bool :=
  let send := m.vc == vcPOST && m.wopc == 1
  let perm := if m.vc = vcPOST then permWRITE else if m.wopc = 0 then permREAD else permATOMIC
  let sm := wordBits e 0 5 2
  wordBits e 0 0 1 == 1 &&
  (sm == 0 || (sm == 1 && s.islander m.srcPkg) || (sm == 2 && m.srcPkg == wordBits e 0 16 12)) &&
  wordBits e 1 0 32 == m.key && (wordBits e 0 4 1 == b2n send) &&
  (if send then m.offset == 0 else wordBits e 0 (1 + perm) 1 == 1) &&
  decide (m.offset + wSpan m ≤ 2 ^ wordBits e 3 0 6)

/-- Is a function accepting inbound traffic (R301)? -/
def State.fnAccepts (s : State) (f : Nat) : Bool := s.fnExists f && !s.fnDrains f && s.bmeOn f

/-- The identifiers of a function (spec/09 R215). -/
def State.fnIds (s : State) (f : Nat) : Nat × Nat := (s.get (R.QOS_FN_ID_RCID f), s.get (R.QOS_FN_ID_MCID f))

/-- A window request reaches this package: checked (R243, R301), refused with a status or given to `go` with its inbound
entry and owner. -/
def State.winIn (s : State) (m : WMsg) (go : State → Nat → Nat → State) : State :=
  let s := s.wTake m
  let refuse (c : Nat) : State := (s.count ctrXce 13).wGo (wCpl m c)
  if wIllegal m then refuse 5
  else
    let e := s.iwinE m.iwin
    let f := wordBits e 0 32 12
    if !s.inOpen e m then refuse 1
    else if !s.fnAccepts f then refuse 4
    else if m.poison then (s.xceAer f 12).wGo (wCpl m 3)
    else go (s.count ctrXce 12 none (some (s.fnIds f))) e f

/-! ## Queue pairs (spec/12 R286, R294) -/

/-- Ring occupancy (R286). -/
def ringUse (prod cons : Nat) : Nat := (prod + 2 ^ 32 - cons % 2 ^ 32) % 2 ^ 32

def State.sqWaits (s : State) (f q : Nat) : Nat := ringUse (s.get (R.QP_SQ_DB_INDEX f q)) (s.get (R.QP_SQ_HEAD_INDEX f q))
def State.cqUsed (s : State) (f q : Nat) : Nat := ringUse (s.get (R.QP_CQ_TAIL_INDEX f q)) (s.get (R.QP_CQ_DB_INDEX f q))
def State.rqPosted (s : State) (f q : Nat) : Nat := ringUse (s.get (R.QP_RQ_DB_INDEX f q)) (s.get (R.QP_RQ_HEAD_INDEX f q))
def State.cqSize (s : State) (f q : Nat) : Nat := 2 ^ s.get (R.QP_SIZES_CQ_LOG2 f q)

/-- Can a CQ entry be reserved (R294): what is in the ring, what descriptors and deposits have reserved, and room? -/
def State.cqRoom (s : State) (f q : Nat) : Bool :=
  let x := s.qp f q
  decide (s.cqUsed f q + (x.descs.filter (·.started)).length + (x.fin.filter (fun e => !e.recv)).length + x.rsv < s.cqSize f q)

/-- Is a receive deposit on the queue pair being written? -/
def State.depositing (s : State) (f q : Nat) : Bool :=
  s.xce.ops.any (fun o => o.fn == f && (match o.what with | .deposit y _ => y == q | _ => false))

/-! ## Completions (spec/10 R260, spec/12 R293, R302) -/

/-- A late completion at the XCE (R260, R308). -/
def State.xceLate (s : State) (f : Nat) : State :=
  let s := ((s.bump R.ROUTE_STATS_LATE_CPL 1).logEvent 0x0043 sevINFO noDie 0).xceAer f 16
  (s.count ctrXce 11).xceEvent 3

/-- Status and DETAIL that a CSTATUS of the target gives (R293). -/
def cstatusDetail (c : Nat) : Nat × Nat :=
  if c = 1 then (3, 4) else if c = 2 then (4, 6) else if c = 3 then (1, 8) else if c = 4 then (5, 9)
  else if c = 5 then (5, 10) else (5, 11)

/-- A BAR2 load fails (R302): a load access fault with its record. -/
def State.bar2Fault (s : State) (h : Nat) : State :=
  match (s.hart h).mmio with
  | some (x, none) =>
    if irqBase ≤ x.ga % 2 ^ 44 then s else
    let s := s.hartRecord h x.ga (s.get (R.srmcfg_RCID h)) (s.get (R.srmcfg_MCID h))
    (s.setHart h { s.hart h with mmio := none }).trapHart h 5 x
  | _ => s

/-- A BAR2 load ends with its value. -/
def State.bar2Value (s : State) (h v : Nat) : State :=
  match (s.hart h).mmio with
  | some (x, none) => if irqBase ≤ x.ga % 2 ^ 44 then s else ((s.setHart h { s.hart h with mmio := none }).retire h .load x).setOut h (.value v)
  | _ => s

/-- A BAR2 store of function `f` is dropped (R302). -/
def State.bar2Drop (s : State) (f slot detail : Nat) : State :=
  let s := s.bump (R.XCE_VF_WIN_FAULTS_STORES_DROPPED f) 1
  (s.put (R.XCE_VF_WIN_FAULTS_LAST_DETAIL f) detail).put (R.XCE_VF_WIN_FAULTS_LAST_SLOT f) slot

def State.setTags (s : State) (l : List XTag) : State := { s with xce := { s.xce with tags := l } }
def State.tag (s : State) (f w : Nat) : Option XTag := s.xce.tags.find? (fun t => t.fn == f && t.wtag == w)
def State.dropTag (s : State) (t : XTag) : State :=
  s.setTags (s.xce.tags.filter (fun x => !(x.fn == t.fn && x.wtag == t.wtag)))

/-- A window request ends without its data: what waited for it takes the failure. -/
def State.tagFail (s : State) (t : XTag) (e : Nat × Nat) : State :=
  match t.why with
  | .piece q pos off => s.descPiece t.fn q pos off 0 (some e)
  | .load h _ => s.bar2Fault h
  | .store slot => s.bar2Drop t.fn slot e.2

/-- A window completion arrives: `good` is what it does when the target answered OK. -/
def State.winCpl (s : State) (m : WMsg) (good : State → XTag → State) : State :=
  let s := s.wTake m
  match s.tag m.srcFn m.wtag with
  | none => s.bump R.ROUTE_STATS_LATE_CPL 1
  | some t =>
    let bad := m.cstatus == 7 || (m.wopc == 0 && m.cstatus == 0 && m.length != t.len) || (m.wopc == 2) == t.np
    if bad then s.bump R.ROUTE_STATS_LATE_CPL 1
    else
      let s := (s.dropTag t).count ctrXce 6
      if t.quar then s.xceLate t.fn
      else if m.cstatus ≠ 0 then s.tagFail t (cstatusDetail m.cstatus)
      else if m.poison then (s.xceAer t.fn 12).tagFail t (1, 8)
      else good s t

/-- Data of a completed read or atomic: a descriptor's piece lands at LOCAL_ADDR, a hart's load takes its value. Data of
a descriptor that has been drained is discarded (R307). -/
def State.winData (s : State) (t : XTag) (len : Nat) (data : List Nat) (tr : List Xlate) : State :=
  match t.why with
  | .piece q pos off =>
    match (s.qp t.fn q).descs.find? (fun d => d.pos == pos) with
    | none => s
    | some d =>
      State.xopRun (s.xopBegin t.fn (.land q pos off len) (d.rcid, d.mcid) 0 (d.b 16 8 + off) len tr (some (ofBytes (data.take len))))
  | .load h _ => s.bar2Value h (ofBytes (data.take len))
  | .store _ => s

/-- A window request reaches its wait of R259, or DRAIN_LIMIT (R280): quarantined, and what waited takes TIMEOUT. -/
def State.tagTimeout (s : State) (t : XTag) : State :=
  let s := s.setTags (s.xce.tags.map (fun x => if x.fn = t.fn ∧ x.wtag = t.wtag then { x with quar := true } else x))
  let s := s.count ctrXce 7
  (if t.np then s.xceAer t.fn 14 else s).tagFail t (2, 12)

/-! ## Drains (spec/11 R280, R281, R283, spec/12 R307) -/

/-- Registers of `[lo, hi)` hold their reset values again, but for those that `keep` names. -/
def State.resetRegs (s : State) (lo hi : Nat) (keep : Nat → Bool := fun _ => false) : State :=
  { s with regs := s.regs.filter (fun e => decide (e.1 < lo) || decide (hi ≤ e.1) || keep e.1) }

def pfBar0 : Nat := 2 ^ 32
def vfBar0 (k : Nat) : Nat := 2 ^ 33 + k * 2 ^ 16

/-- The work of a function's queue pair goes: descriptors and entries not written are squashed; what is outstanding ends
with nothing to report to (R307). -/
def State.qpSquash (s : State) (f q : Nat) : State :=
  let x := s.qp f q
  s.setQp f q { x with descs := [], fin := [], rsv := 0, failed := false }

/-- A function's registers, queue pairs, MSI-X table and configuration registers hold their reset values (R281). -/
def State.fnReset (s : State) (f : Nat) : State :=
  let s := foldN 8 s (fun q s => s.qpSquash f q)
  let s := s.resetCfg (xceRid f)
  let s := if f = 0 then s.resetRegs (pfBar0 + 0x10000) (pfBar0 + 0x1E000) else s.resetRegs (vfBar0 f) (vfBar0 f + 0xE000)
  let s := s.put (R.XCE_FN_ARB_BALANCE f) 0
  { s with xce := { s.xce with
    msix := s.xce.msix.filter (fun e => e.1 / 64 != f), pba := Tbl.set (fun _ => 0) s.xce.pba f 0,
    held := Tbl.set (fun _ => 0) s.xce.held f 0 } }

/-- The drain of function `f` begins (R280 step 2). -/
def State.drainStart (s : State) (f : Nat) : State :=
  let s : State := { s with xce := { s.xce with drain := if s.xce.drain.contains f then s.xce.drain else f :: s.xce.drain } }
  let s := (s.put (R.XCE_FN_DRAINING_DRAINING (f / 64)) (s.get (R.XCE_FN_DRAINING_DRAINING (f / 64)) ||| 1 <<< (f % 64))).fnReset f
  (s.putCfg (xceRid f) 0x78 21 1 1).count ctrXce 14

/-- VFs 1 to NumVFs come into being (R272). -/
def State.vfCreate (s : State) : State :=
  let n := s.numVfs
  let s := (s.putCfg ridPF 0x158 0 1 1).put R.XCE_VF_STATE_VFS_ENABLED n
  { s with xce := { s.xce with notReady := (List.range n).map (· + 1) } }

/-- The VF disable drain ends (R280 step 4, R283); a VF Enable that was held takes effect. -/
def State.vfDrainEnd (s : State) : State :=
  let s := s.put R.XCE_VF_STATE_DRAINING 0
  let m := s.xce.merged
  let s : State := { s with xce := { s.xce with drainVf := false, merged := [] } }
  let s := s.xceEvent 1
  let s := if m = [] then s else s.xceEvent 0
  if s.get R.XCE_VF_STATE_ENABLE_PENDING = 1 then (s.put R.XCE_VF_STATE_ENABLE_PENDING 0).vfCreate else s

/-- Every VF is withdrawn and drains (R272, R280). -/
def State.vfDisable (s : State) : State :=
  let n := s.get R.XCE_VF_STATE_VFS_ENABLED
  let s : State := { s with xce := { s.xce with drainVf := true, notReady := [], merged := s.xce.drain.filter (fun f => f != 0) } }
  let s := foldN n s (fun i s => s.drainStart (i + 1))
  let s := ((s.putCfg ridPF 0x158 0 1 0).put R.XCE_VF_STATE_VFS_ENABLED 0).put R.XCE_VF_STATE_DRAINING 1
  if n = 0 then s.vfDrainEnd else s

/-- VF Enable is written 1: VFs are created, or the write is held during a drain (R272, R283). -/
def State.vfEnable (s : State) : State :=
  if s.fnDrains 0 ∨ s.vfEnabled then s
  else if s.get R.XCE_VF_STATE_DRAINING = 1 then s.put R.XCE_VF_STATE_ENABLE_PENDING 1
  else s.vfCreate

/-- VF Enable is written 0. -/
def State.vfClear (s : State) : State :=
  if s.get R.XCE_VF_STATE_DRAINING = 1 then s.put R.XCE_VF_STATE_ENABLE_PENDING 0
  else if s.vfEnabled then s.vfDisable else s

/-- PF0's global registers, window tables and control table hold their reset values (R281); what reports the drain, the
engine's state and counts that only POR clears stay. -/
def State.pfGlobalReset (s : State) : State :=
  let keep (a : Nat) : Bool :=
    a == R.rXCE_STATUS || a == R.rXCE_VF_STATE || a == R.rXCE_ATC_STATS || (decide (pfBar0 + 0x100 ≤ a) && decide (a < pfBar0 + 0x208))
  let s := (s.resetRegs pfBar0 (pfBar0 + 0x1000) keep).resetRegs (pfBar0 + 0x100000) (pfBar0 + 0x500000)
  { s with xce := { s.xce with owin := [], iwin := [], stopped := [], commit := [], share := [] } }

/-- Initiate FLR of a function (R280, R283). -/
def State.flrStart (s : State) (f : Nat) : State :=
  if s.fnDrains f ∨ !s.fnExists f then s
  else if f = 0 then
    let s := if s.vfEnabled then s.vfDisable else s
    let s := (s.drainStart 0).put R.XCE_STATUS_PF_DRAINING 1
    s.pfGlobalReset
  else s.drainStart f

/-- The queue pair whose work an operation or a window request is. -/
def XWhat.qpOf : XWhat → Option Nat
  | .fetch q _ => some q
  | .copyRd q _ _ => some q
  | .copyWr q _ => some q
  | .source q _ _ _ _ => some q
  | .land q _ _ _ => some q
  | .entry q _ _ => some q
  | .target _ => none
  | .deposit q _ => some q

def XFor.qpOf : XFor → Option Nat
  | .piece q _ _ => some q
  | _ => none

/-- The operations and window requests of a function that its drain waits for; `q` restricts them to a queue pair. -/
def State.fnOps (s : State) (f : Nat) (q : Option Nat) : List XOp :=
  s.xce.ops.filter (fun o => o.fn == f && (q.isNone || o.what.qpOf == q))
def State.fnTags (s : State) (f : Nat) (q : Option Nat) : List XTag :=
  s.xce.tags.filter (fun t => t.fn == f && !t.quar && (q.isNone || t.why.qpOf == q))

def State.drained (s : State) (f : Nat) (q : Option Nat) : Bool := (s.fnOps f q).isEmpty && (s.fnTags f q).isEmpty

/-- What is outstanding is timed out at DRAIN_LIMIT (R280, R307): WTAGs and TXNs are quarantined, and a device-side
message that was being served is answered as an error. -/
def State.drainForce (s : State) (f : Nat) (q : Option Nat) : State :=
  if s.drained f q then s
  else
    let ops := s.fnOps f q
    let mine (w : IoWhy) : Bool := match w with | .xce id _ _ _ => ops.any (fun o => o.id == id) | _ => false
    let lines := s.io.reqs.filter (fun r => mine r.why && r.st == .held && !r.quar)
    -- A request still held behind another is dropped; one that is out is quarantined.
    let s := s.setReqs ((s.io.reqs.filter (fun r => !lines.contains r)).map (fun r => if mine r.why then { r with quar := true } else r))
    let s := ops.foldl (fun s o => match o.what with
      | .target m => s.wGo (wCpl m 3)
      | .deposit _ m => s.wGo (wCpl m 3)
      | _ => s) s
    let s : State := { s with xce := { s.xce with ops := s.xce.ops.filter (fun o => !ops.contains o) } }
    let s := (s.fnTags f q).foldl (fun s t => s.tagTimeout t) s
    s.xceEvent 2

/-- Invalidation Completions that function `f` owes are sent (R275, R283). -/
def State.invFlush (s : State) (f : Nat) : State :=
  let l := s.xce.inv.filter (fun e => e.1 == f)
  let s : State := { s with xce := { s.xce with inv := s.xce.inv.filter (fun e => e.1 != f),
                                                  invDone := s.xce.invDone ++ l.map (fun e => (e.1, e.2.1)) } }
  s.bump R.XCE_ATC_STATS_INVALIDATIONS l.length

/-- The drain of function `f` ends (R280 steps 3 and 4). -/
def State.drainEnd (s : State) (f : Nat) : State :=
  let vf := s.xce.drainVf && f != 0
  let s := (s.setAtc (s.xce.atc.filter (fun e => e.fn != f))).invFlush f
  let s : State := { s with xce := { s.xce with drain := s.xce.drain.filter (fun g => g != f) } }
  let s := s.put (R.XCE_FN_DRAINING_DRAINING (f / 64)) (without (s.get (R.XCE_FN_DRAINING_DRAINING (f / 64))) (f % 64))
  let s := s.putCfg (xceRid f) 0x78 21 1 0
  if vf then (if s.xce.drain.all (fun g => g == 0) then s.vfDrainEnd else s)
  else (if f = 0 then s.put R.XCE_STATUS_PF_DRAINING 0 else s).xceEvent 0

/-! ## Configuration accesses (spec/11 R263 to R273) -/

/-- Clearing ATS Enable (R274). -/
def State.atsClear (s : State) (f : Nat) : State :=
  let o := if f = 0 then 0x194 else 0x104
  let s := s.putCfg (xceRid f) o 31 1 0
  s.setAtc (s.xce.atc.filter (fun e => e.fn != f))

/-- NumVFs is written (R272); none where the value is above 2,048. -/
def State.numVfsWrite (s : State) (v : Nat) : Option State :=
  if 2048 < v then none
  else if s.vfEnabled ∨ s.get R.XCE_VF_STATE_DRAINING = 1 ∨ s.fnDrains 0 then some s
  else some (s.putCfg ridPF 0x160 0 16 v)

/-- PF0's MSI pending bits that are unmasked are sent (R278 item 2). -/
def State.msiDrain (s : State) : State :=
  let p := s.cfg ridPF 0x64
  foldN 32 (s.setCfg ridPF 0x64 0) (fun v s => if p.testBit v then s.xceSignal 0 v else s)

/-- What a write to dword `o` of an XCE function or the bridge leads to beside what it stores. -/
def State.cfgEffects (s : State) (fn : CfgFn) (o old new v m : Nat) : State :=
  let rose (i : Nat) : Bool := !old.testBit i && new.testBit i
  match fn with
  | .bridge => if o = 0x04 ∧ rose 2 then foldN 2049 s (fun f s => if s.fnExists f then s.heldDrain f else s) else s
  | .fn f =>
    if o = 0x04 then
      let s := if rose 2 then s.heldDrain f else s
      if f = 0 then s.intaUpdate else s
    else if o = 0x78 ∧ v.testBit 15 ∧ m.testBit 15 then s.flrStart f
    else if o = 0xB0 then (if f = 0 then (s.pbaDrain f).intaUpdate else s.pbaDrain f)
    else if f = 0 ∧ (o = 0x50 ∨ o = 0x60) then (s.msiDrain).intaUpdate
    else if o = (if f = 0 then 0x194 else 0x104) ∧ old.testBit 31 ∧ ¬ new.testBit 31 then s.atsClear f
    else if f = 0 ∧ o = 0x158 then
      if v.testBit 0 ∧ m.testBit 0 then s.vfEnable else if m.testBit 0 then s.vfClear else s
    else s
  | _ => s

/-- Is a value that a configuration write would store a host-made error (R272, R273)? -/
def cfgReserved (fn : CfgFn) (o old new : Nat) : Bool :=
  match fn with
  | .fn f =>
    (f == 0 && o == 0x170 && (new == 0 || decide (31 < new) || new &&& (new - 1) != 0)) ||
    (o == (if f = 0 then 0x194 else 0x104) &&
      (decide (4 < bits new 16 5) || (old.testBit 31 && new.testBit 31 && bits old 16 5 != bits new 16 5)))
  | _ => false

/-- A configuration write of `size` bytes of `v` at ECAM offset `off` in an existing function; none where it is a
host-made error, overlapping BARs among them (R270). -/
def State.cfgWrite (s : State) (off size v : Nat) : Option State :=
  let rid := off / 4096
  let fn := cfgFnOf rid
  let o := off % 4096 / 4 * 4
  let sh := 8 * (off % 4)
  let m := ((2 ^ (8 * size) - 1) <<< sh) % 2 ^ 32
  let v := (v <<< sh) &&& m
  let drains : Bool := match fn with | .fn f => s.fnDrains f | _ => false
  if drains then
    -- Only Initiate FLR is taken, and merges (R280, R283).
    some s
  else if fn = .fn 0 ∧ o = 0x160 then
    if m % 2 ^ 16 = 0 then some s else s.numVfsWrite ((s.cfg rid o - (s.cfg rid o &&& m) + v) % 2 ^ 16)
  else
    let (rw, w1c) := cfgMasks fn o
    let old := s.cfg rid o
    let new := old - (old &&& (rw &&& m)) + (v &&& rw)
    let new := new - (new &&& (v &&& w1c))
    -- VF Enable is stored by its own rules.
    let new := if fn = .fn 0 ∧ o = 0x158 then setBits new 0 1 (old % 2) else new
    let s := (s.setCfg rid o new).cfgEffects fn o old new v m
    let bar : Bool := fn == .fn 0 && (o == 0x04 || o == 0x10 || o == 0x14 || o == 0x20 || o == 0x24 || o == 0x44 || o == 0x158 ||
      (decide (0x174 ≤ o) && decide (o ≤ 0x180)))
    if cfgReserved fn o old new || (bar && s.barsClash) then none else some s

/-- What a configuration read of `size` bytes returns. -/
def State.cfgRead (s : State) (off size : Nat) : Nat := bits (s.cfg (off / 4096) (off % 4096)) (8 * (off % 4)) (8 * size)

end Sys2Proof.Machine
end

