-- ==== Sys2Proof/Machine/XceRows.lean ====
section
/-!
DEFINITION. The rows of the Xomus channel engine (spec/11_xomus_function.md, spec/12_xomus_queues.md). A row whose
conditions do not hold leaves the state as it is (notes/assumptions/4.md).
-/

namespace Sys2Proof.Machine

/-! ## Window messages at the target (R295, R301) -/

/-- The operation of an inbound message on memory (R289, R296 step 2). -/
def State.targetOp (s : State) (m : WMsg) (e f : Nat) (tr : Xlate) : State :=
  let va := wordBits e 2 12 52 * 4096 + m.offset
  if m.vc = vcNP ∧ m.wopc = 1 then State.xopRun (s.xopAtomic f m (s.fnIds f) 0 va tr)
  else if m.vc = vcNP then State.xopRun (s.xopBegin f (.target m) (s.fnIds f) 0 va m.length [tr] none)
  else State.xopRun (s.xopBegin f (.target m) (s.fnIds f) (targetStream m) va m.length [tr] (some (ofBytes (m.data.take m.length))) 1)

/-- A window request of the kind a row names, in flight to this package. -/
def State.winRow (s : State) (m : WMsg) (vc wopc : Nat) (f : State → State) : Out :=
  if s.hzn.win.contains m ∧ m.vc = vc ∧ m.wopc = wopc ∧ m.dstPkg = s.pkgId then .next (f s) else .next s

/-- W_WRITE at the target. -/
def execWWrite (m : WMsg) (tr : Xlate) (s : State) : Out :=
  s.winRow m vcPOST 0 (fun s => s.winIn m (fun s e f => s.targetOp m e f tr))

/-- W_READ at the target. -/
def execWRead (m : WMsg) (tr : Xlate) (s : State) : Out :=
  s.winRow m vcNP 0 (fun s => s.winIn m (fun s e f => s.targetOp m e f tr))

/-- W_ATOMIC at the target. -/
def execWAtomic (m : WMsg) (tr : Xlate) (s : State) : Out :=
  s.winRow m vcNP 1 (fun s => s.winIn m (fun s e f => s.targetOp m e f tr))

/-- W_SEND at the target (R295): refused with CSTATUS 4 without a place for it, else deposited in the next RQ slot. Deposits
of one queue pair are written one at a time (notes/assumptions/11.md). -/
def State.deposit (s : State) (m : WMsg) (f q : Nat) (tr : Xlate) : State :=
  let x := s.qp f q
  if s.qpState f q ≠ qpACTIVE ∨ s.get (R.QP_CTL_RQ_ENABLE f q) = 0 ∨ s.rqPosted f q ≤ x.rsv ∨ !s.cqRoom f q then
    (s.bump (R.QP_STATUS_RQ_DROPS f q) 1).wGo (wCpl m 4)
  else
    let slot := (s.get (R.QP_RQ_HEAD_INDEX f q) + x.rsv) % 2 ^ s.get (R.QP_SIZES_RQ_LOG2 f q)
    let va := s.get (R.QP_RQ_BASE_BASE f q) * 4096 + slot * 256
    let s := s.setQp f q { x with rsv := x.rsv + 1 }
    State.xopRun (s.xopBegin f (.deposit q m) (s.fnIds f) (targetStream m) va m.length [tr] (some (ofBytes (m.data.take m.length))) 1)

def execWSend (m : WMsg) (tr : Xlate) (s : State) : Out :=
  let e := s.iwinE m.iwin
  if s.depositing (wordBits e 0 32 12) (wordBits e 0 48 3) then .next s
  else s.winRow m vcPOST 1 (fun s => s.winIn m (fun s e f => s.deposit m f (wordBits e 0 48 3) tr))

/-! ## Completions at the issuer (R293) -/

/-- W_READ_CPL. -/
def execWReadCpl (m : WMsg) (tr : List Xlate) (s : State) : Out :=
  s.winRow m vcCPL 0 (fun s => s.winCpl m (fun s t => s.winData t m.length m.data tr))

/-- W_ATOMIC_CPL: the old value goes to LOCAL_ADDR. -/
def execWAtomicCpl (m : WMsg) (tr : Xlate) (s : State) : Out :=
  s.winRow m vcCPL 1 (fun s => s.winCpl m (fun s t =>
    let n := match t.why with
      | .piece q pos _ => match (s.qp t.fn q).descs.find? (fun d => d.pos == pos) with
        | some d => 4 * 2 ^ bits (d.b 2 1) 4 2
        | none => 0
      | _ => 0
    s.winData t n m.data [tr]))

/-- W_ACK. -/
def execWAck (m : WMsg) (s : State) : Out :=
  s.winRow m vcCPL 2 (fun s => s.winCpl m (fun s t =>
    match t.why with
    | .piece q pos off => s.descPiece t.fn q pos off t.len none
    | _ => s))

/-- WIN_TIMEOUT: a window request reaches WIN (spec/10 R259). -/
def execWinTimeout (f : Func) (wtag : Fin 4096) (s : State) : Out :=
  match s.tag f wtag with
  | some t => if t.quar then .next s else .next (s.tagTimeout t)
  | none => .next s

/-- WIN_FINAL_TIMEOUT: a quarantined WTAG is freed at 4 × WIN. -/
def execWinFinalTimeout (f : Func) (wtag : Fin 4096) (s : State) : Out :=
  match s.tag f wtag with
  | some t => if t.quar then .next (s.dropTag t) else .next s
  | none => .next s

/-! ## Function resets and SR-IOV (spec/11 R272, R280) -/

/-- FLR: Initiate Function Level Reset. -/
def execFlr (f : Func) (s : State) : Out := .next (s.flrStart f)

/-- VF_ENABLE_SET. -/
def execVfEnableSet (s : State) : Out := .next s.vfEnable

/-- VF_ENABLE_CLEAR. -/
def execVfEnableClear (s : State) : Out := if s.fnDrains 0 then .next s else .next s.vfClear

/-- NUMVFS_WRITE: a value above 2,048 is a host-made error (R272). -/
def execNumvfsWrite (v : Nat) (s : State) : Out :=
  match s.numVfsWrite v with
  | some s => .next s
  | none => .fault .hostMadeError

/-- A configuration access of a hart to buses 1 to 9 (R264): a function that does not exist reads all ones, one that is
not ready makes the access wait (R272). -/
def State.ecamXce (s : State) (h off size : Nat) (write : Option Nat) : Out :=
  let fn := cfgFnOf (off / 4096)
  let here : Bool := match fn with | .bridge => true | .fn f => s.fnExists f | _ => false
  let wait : Bool := match fn with | .fn f => s.xce.notReady.contains f | _ => false
  if wait then .next { s with xce := { s.xce with cfgWait := s.xce.cfgWait ++ [(h, off, size, write)] } }
  else
    match write with
    | none => .next (s.setOut h (.value (if here then s.cfgRead off size else 2 ^ (8 * size) - 1)))
    | some v =>
      if here then
        match s.cfgWrite off size v with
        | some s => .next (s.setOut h .done)
        | none => .fault .hostMadeError
      else .next (s.setOut h .done)

/-- ECAM_CONFIG_ACCESS: an access of 1, 2 or 4 bytes to buses 1 to 9, or to the bridge. -/
def execEcamConfigAccess (h : Hart) (off size : Nat) (write : Option Nat) (s : State) : Out :=
  if (size = 1 ∨ size = 2 ∨ size = 4) ∧ off % size = 0 ∧ (off / 4096 = ridBRIDGE ∨ (0x100 ≤ off / 4096 ∧ off / 4096 < 0xA00)) then
    s.ecamXce h off size write
  else .next s

/-- Accesses that waited for VF `f`, oldest first. -/
def State.cfgRelease (f : Nat) : List (Nat × Nat × Nat × Option Nat) → State → Out
  | [], s => .next s
  | (h, off, size, write) :: l, s =>
    if cfgFnOf (off / 4096) = .fn f then
      match s.ecamXce h off size write with
      | .next s => State.cfgRelease f l s
      | o => o
    else State.cfgRelease f l { s with xce := { s.xce with cfgWait := s.xce.cfgWait ++ [(h, off, size, write)] } }

/-- VF_READY (R272). -/
def execVfReady (f : Func) (s : State) : Out :=
  if s.xce.notReady.contains f.val then
    let l := s.xce.cfgWait
    State.cfgRelease f l { s with xce := { s.xce with notReady := s.xce.notReady.erase f, cfgWait := [] } }
  else .next s

/-- FN_DRAIN_COMPLETE (R280 step 4): nothing of the function is outstanding. -/
def execFnDrainComplete (f : Func) (s : State) : Out :=
  if s.fnDrains f ∧ s.drained f none then .next (s.drainEnd f) else .next s

/-- DRAIN_LIMIT_EXPIRY (R280, R307): of a function that drains, or of its queue pairs in STOPPING. -/
def execDrainLimitExpiry (f : Func) (s : State) : Out :=
  if s.fnDrains f then .next (s.drainForce f none)
  else .next (foldN 8 s (fun q s => if s.qpState f q = qpSTOPPING then s.drainForce f (some q) else s))

/-! ## ATS, Bus Master Enable and interrupts (spec/11 R273 to R279) -/

/-- ATS_ENABLE_CLEAR. -/
def execAtsEnableClear (f : Func) (s : State) : Out :=
  if s.fnExists f ∧ !s.fnDrains f then .next (s.atsClear f) else .next s

/-- BUS_MASTER_ENABLE_WRITE. -/
def execBusMasterEnableWrite (f : Func) (on : Bool) (s : State) : Out :=
  if s.fnExists f ∧ !s.fnDrains f then
    let s := s.putCfg (xceRid f) 0x04 2 1 (b2n on)
    .next (if on then s.heldDrain f else s)
  else .next s

/-- MSIX_VECTOR_UNMASK: the vector's Mask bit is cleared. -/
def execMsixVectorUnmask (f : Func) (v : Fin 2048) (s : State) : Out :=
  if s.fnExists f ∧ !s.fnDrains f ∧ v.val < (if f.val = 0 then 64 else 16) then
    .next ((s.setMsixE f v { s.msixE f v with mask := false }).pbaDrain f)
  else .next s

/-- The next bytes of a descriptor in flight towards a page: (queue pair, descriptor, length). -/
def State.waitsFor (s : State) (f page : Nat) : Option (Nat × XDesc × Nat) :=
  ((List.range 8).filterMap (fun q =>
    match (s.qp f q).descs.find? (fun d => !d.illegal && decide (d.next < d.total) && d.op != 0 && d.op != 6) with
    | some d =>
      let w := d.b 24 8 + d.next
      let n := if d.op = 2 ∨ d.op = 3 then min (d.total - d.next) (256 - w % 256) else d.total - d.next
      if (d.b 16 8 + d.next) / 4096 = page ∨ (d.op = 1 ∧ d.b 24 8 / 4096 = page) then some (q, d, n) else none
    | none => none)).head?

/-- Note that a piece of a descriptor is under way. -/
def State.pieceOut (s : State) (f q : Nat) (d : XDesc) (n : Nat) : State :=
  s.setQp f q { s.qp f q with descs := (s.qp f q).descs.map (fun y =>
    if y.pos = d.pos then { y with started := true, next := y.next + n, live := y.live + 1 } else y) }

/-- TRANSLATION_COMPLETION (R274): with a translation, the cache is filled; without one, the transfer that waits for the
page ends with TRANSLATION_FAULT. -/
def execTranslationCompletion (f : Func) (page : Nat) (tr : Xlate) (s : State) : Out :=
  if s.fnExists f ∧ !s.fnDrains f ∧ s.atsOn f then
    match tr with
    | .to ga k r w => .next ((s.count ctrIommu 1).atcFill (atcEntry f (page * 4096) ga k r w))
    | .fault =>
      let s := s.iommuFault (xceRid f) 8 (page * 4096)
      match s.waitsFor f page with
      | some (q, d, n) => .next ((s.pieceOut f q d n).descPiece f q d.pos d.next 0 (some (4, 5)))
      | none => .next s
  else .next s

/-- INVALIDATE_REQUEST (R275): overlapping entries are discarded whole; the completion waits for the function's
operations under way. -/
def execInvalidateRequest (f : Func) (itag : Nat) (base size : Nat) (s : State) : Out :=
  if !s.fnExists f ∨ !s.atsOn f then
    .next ({ s with xce := { s.xce with invDone := s.xce.invDone ++ [(f.val, itag)] } }.bump R.XCE_ATC_STATS_INVALIDATIONS 1)
  else
    let s := s.setAtc (s.xce.atc.filter (fun e => !(e.fn == f.val && decide (e.base < base + size) && decide (base < e.base + e.size))))
    .next { s with xce := { s.xce with inv := s.xce.inv ++ [(f.val, itag, (s.fnOps f none).map (·.id))] } }

/-- INVALIDATION_COMPLETE (R275 step 4). -/
def execInvalidationComplete (f : Func) (itag : Nat) (s : State) : Out :=
  match s.xce.inv.find? (fun e => e.1 == f.val && e.2.1 == itag) with
  | none => .next s
  | some e =>
    if e.2.2.any (fun id => (s.xop id).isSome) then .next s
    else
      .next ({ s with xce := { s.xce with inv := s.xce.inv.erase e, invDone := s.xce.invDone ++ [(f.val, itag)] } }.bump
        R.XCE_ATC_STATS_INVALIDATIONS 1)

/-! ## Queue pairs (spec/12 R286, R287, R307) -/

/-- Does a doorbell write reach an ACTIVE queue pair? -/
def State.qpTakes (s : State) (f q : Nat) : Bool := s.fnExists f && !s.fnDrains f && s.qpState f q == qpACTIVE

/-- QP_SQ_DB. -/
def execQpSqDb (f : Func) (q : Fin 8) (v : Nat) (s : State) : Out :=
  if s.qpTakes f q then
    if 2 ^ s.get (R.QP_SIZES_SQ_LOG2 f q) < ringUse (v % 2 ^ 32) (s.get (R.QP_SQ_HEAD_INDEX f q)) then .next (s.qpError f q 1)
    else .next (s.put (R.QP_SQ_DB_INDEX f q) v)
  else .next s

/-- QP_CQ_DB. -/
def execQpCqDb (f : Func) (q : Fin 8) (v : Nat) (s : State) : Out :=
  if s.qpTakes f q then
    if s.cqSize f q < ringUse (s.get (R.QP_CQ_TAIL_INDEX f q)) (v % 2 ^ 32) then .next (s.qpError f q 1)
    else .next (s.put (R.QP_CQ_DB_INDEX f q) v)
  else .next s

/-- QP_RQ_DB. -/
def execQpRqDb (f : Func) (q : Fin 8) (v : Nat) (s : State) : Out :=
  if s.qpTakes f q then
    if 2 ^ s.get (R.QP_SIZES_RQ_LOG2 f q) < ringUse (v % 2 ^ 32) (s.get (R.QP_RQ_HEAD_INDEX f q)) then .next (s.qpError f q 1)
    else .next (s.put (R.QP_RQ_DB_INDEX f q) v)
  else .next s

/-- QP_ENABLE: QP_CTL.ENABLE written 1 (R287). -/
def execQpEnable (f : Func) (q : Fin 8) (s : State) : Out :=
  if s.fnExists f ∧ !s.fnDrains f ∧ s.qpState f q = qpDISABLED then
    let ok (n : Nat) : Bool := decide (4 ≤ n) && decide (n ≤ 16)
    let v := s.get (R.QP_IRQ_VECTOR f q)
    let good := ok (s.get (R.QP_SIZES_SQ_LOG2 f q)) && ok (s.get (R.QP_SIZES_CQ_LOG2 f q)) && ok (s.get (R.QP_SIZES_RQ_LOG2 f q)) &&
      (if f.val = 0 then decide (8 ≤ v) else decide (v ≤ 15))
    let s := s.put (R.QP_CTL_ENABLE f q) 1
    if good then
      let s := ((s.put (R.QP_SQ_DB_INDEX f q) 0).put (R.QP_CQ_DB_INDEX f q) 0).put (R.QP_RQ_DB_INDEX f q) 0
      let s := ((s.put (R.QP_SQ_HEAD_INDEX f q) 0).put (R.QP_CQ_TAIL_INDEX f q) 0).put (R.QP_RQ_HEAD_INDEX f q) 0
      .next (((s.setQp f q {}).put (R.QP_STATUS_STATE f q) qpACTIVE).put (R.QP_STATUS_CAUSE f q) 0)
    else .next ((s.put (R.QP_STATUS_STATE f q) qpERROR).put (R.QP_STATUS_CAUSE f q) 5)
  else .next s

/-- QP_DISABLE: QP_CTL.ENABLE written 0. -/
def execQpDisable (f : Func) (q : Fin 8) (s : State) : Out :=
  if s.fnExists f ∧ !s.fnDrains f ∧ (s.qpState f q = qpACTIVE ∨ s.qpState f q = qpERROR) then
    .next (((s.put (R.QP_CTL_ENABLE f q) 0).put (R.QP_STATUS_STATE f q) qpSTOPPING).qpSquash f q)
  else .next s

/-- QP_DRAIN_COMPLETE: DISABLED, with every index at zero. -/
def execQpDrainComplete (f : Func) (q : Fin 8) (s : State) : Out :=
  if s.qpState f q = qpSTOPPING ∧ s.drained f (some q) then
    let s := ((s.put (R.QP_SQ_DB_INDEX f q) 0).put (R.QP_CQ_DB_INDEX f q) 0).put (R.QP_RQ_DB_INDEX f q) 0
    let s := ((s.put (R.QP_SQ_HEAD_INDEX f q) 0).put (R.QP_CQ_TAIL_INDEX f q) 0).put (R.QP_RQ_HEAD_INDEX f q) 0
    .next ((s.setQp f q {}).put (R.QP_STATUS_STATE f q) qpDISABLED)
  else .next s

/-! ## Descriptors (spec/12 R288 to R298, R305) -/

/-- A function's balance (R305), signed. -/
def State.fnBalance (s : State) (f : Nat) : Int := signed 40 (s.get (R.XCE_FN_ARB_BALANCE f))

/-- Is there a descriptor that the engine could fetch for queue pair `q`? -/
def State.fetchable (s : State) (f q : Nat) : Bool :=
  s.fnExists f && !s.fnDrains f && s.bmeOn f && s.qpState f q == qpACTIVE && decide (0 < s.sqWaits f q)

/-- Is it queue pair `q`'s turn, the function's queue pairs with descriptors to fetch being served round-robin (R305)? -/
def State.fetchTurn (s : State) (f q : Nat) : Bool :=
  let last := Tbl.get (fun _ => 7) s.xce.turn f
  ((List.range 8).map (fun k => (last + 1 + k) % 8)).find? (fun j => s.fetchable f j && !(s.qp f j).fetching) == some q

/-- DESCRIPTOR_FETCH (R305): up to 8 descriptors that lie together within one page of the ring. -/
def execDescriptorFetch (f : Func) (q : Fin 8) (tr : Xlate) (s : State) : Out :=
  if s.get R.XCE_STATUS_ENGINE_READY = 1 ∧ s.fetchTurn f q ∧ 0 < s.fnBalance f ∧
      !s.xce.stopped.contains f.val then
    let size := 2 ^ s.get (R.QP_SIZES_SQ_LOG2 f q)
    let slot := s.get (R.QP_SQ_HEAD_INDEX f q) % size
    let n := min (min 8 (s.sqWaits f q)) (min (size - slot) (64 - slot % 64))
    let va := s.get (R.QP_SQ_BASE_BASE f q) * 4096 + slot * 64
    let s := s.setQp f q { s.qp f q with fetching := true }
    let s : State := { s with xce := { s.xce with turn := Tbl.set (fun _ => 7) s.xce.turn f q } }
    .next (State.xopRun (s.xopBegin f (.fetch q n) (s.fnIds f) 0 va (64 * n) [tr] none))
  else .next s

/-- The window target of a descriptor, none for local memory. -/
def State.descTarget (s : State) (f : Nat) (d : XDesc) : Option Nat :=
  if d.op = 1 then none
  else match s.owinIx f (d.b 12 2) with | some i => some (wordBits (s.owinE i) 0 16 12) | none => some 4096

/-- May descriptor `d` of a queue pair start: a CQ entry to reserve (R294), no FENCE before it, its turn in STRICT mode
(R297), a FENCE's own turn (R289), and for a read every earlier descriptor's writes to its target performed (R296 step
3), and for a write every earlier ATOMIC at its target, whose channel has no order with it (R296 step 2)? -/
def State.mayStart (s : State) (f q : Nat) (d : XDesc) : Bool :=
  let x := s.qp f q
  let before := x.descs.filter (fun e => decide (e.pos < d.pos))
  let written := x.fin.all (fun e => e.recv)
  let on := s.qpState f q == qpACTIVE ||
    (s.qpState f q == qpERROR && (s.get (R.QP_STATUS_CAUSE f q) == 2 || s.get (R.QP_STATUS_CAUSE f q) == 3))
  let writes (e : XDesc) : Bool := e.op == 1 || e.op == 2 || e.op == 5
  let reads := d.op == 1 || d.op == 3 || d.op == 5
  on && s.cqRoom f q && before.all (fun e => e.op != 6) &&
  (s.get (R.QP_CTL_MODE f q) == 0 || (before.isEmpty && written)) &&
  (d.op != 6 || (before.isEmpty && written)) &&
  (!reads || before.all (fun e => !(writes e && s.descTarget f e == s.descTarget f d))) &&
  (!writes d || before.all (fun e => !(e.op == 5 && s.descTarget f e == s.descTarget f d)))

/-- The queue's next descriptor in SQ order that is not issued whole, where it may go on: `op` is the row's opcode. One
that is illegal completes ABORTED (R290), whichever row meets it. -/
def State.descRow (s : State) (f q op : Nat) (go : State → XDesc → State) : Out :=
  match (s.qp f q).descs.find? (fun d => !(d.started && decide (d.total ≤ d.next))) with
  | none => .next s
  | some d =>
    if s.fnDrains f ∨ (!d.started ∧ !s.mayStart f q d) then .next s
    else if !d.started ∧ d.illegal then .next (s.descEnd f q d (some (0, 6, 1)))
    else if d.op = op then .next (go s d) else .next s

/-- NOP. -/
def execNop (f : Func) (q : Fin 8) (s : State) : Out := s.descRow f q 0 (fun s d => s.descEnd f q d none)

/-- FENCE. -/
def execFence (f : Func) (q : Fin 8) (s : State) : Out := s.descRow f q 6 (fun s d => s.descEnd f q d none)

/-- COPY_LOCAL: the source is read, and its destination is then written (notes/assumptions/11.md). -/
def execCopyLocal (f : Func) (q : Fin 8) (src dst : List Xlate) (s : State) : Out :=
  s.descRow f q 1 (fun s d =>
    let s := s.pieceOut f q d d.total
    State.xopRun (s.xopBegin f (.copyRd q d.pos dst) (d.rcid, d.mcid) 0 (d.b 16 8) d.length src none))

/-- Window requests that a function has outstanding which count against its tags (R291). -/
def State.npRoom (s : State) (f : Nat) : Bool :=
  decide ((s.xce.tags.filter (fun t => t.fn == f && t.np && !t.quar)).length < (if s.cfgBits (xceRid f) 0x98 12 1 = 1 then 768 else 256))

/-- Can a window request be issued (R291)? -/
def State.winRoom (s : State) (f : Nat) : Bool :=
  decide ((s.xce.tags.filter (fun t => !t.quar)).length < 16384) && (s.freeTag f).isSome

/-- Is a source being read for the queue pair? Its pieces leave in order (R296 step 2). -/
def State.sourcing (s : State) (f q : Nat) : Bool :=
  s.xce.ops.any (fun o => o.fn == f && (match o.what with | .source y _ _ _ _ => y == q | _ => false))

/-- The next piece of a PUT or GET (R291): its window offset and length. -/
def XDesc.piece (d : XDesc) : Nat × Nat :=
  let w := d.b 24 8 + d.next
  (w, min (d.total - d.next) (256 - w % 256))

/-- PUT: the next piece is read from LOCAL_ADDR and sent. -/
def execPut (f : Func) (q : Fin 8) (src : List Xlate) (s : State) : Out :=
  s.descRow f q 2 (fun s d =>
    if !s.winRoom f ∨ s.sourcing f q then s
    else
      let (w, n) := d.piece
      let s := s.pieceOut f q d n
      match s.outCheck f (d.b 12 2) permWRITE w n with
      | none => s.descPiece f q d.pos d.next 0 (some (3, 3))
      | some i =>
        let m := s.winMsg f i vcPOST 0 w n (d.rcid, d.mcid)
        State.xopRun (s.xopBegin f (.source q d.pos d.next i m) (d.rcid, d.mcid) 0 (d.b 16 8 + d.next) n src none))

/-- GET: the next piece is asked for. -/
def execGet (f : Func) (q : Fin 8) (s : State) : Out :=
  s.descRow f q 3 (fun s d =>
    if !s.winRoom f ∨ !s.npRoom f then s
    else
      let (w, n) := d.piece
      let s := s.pieceOut f q d n
      match s.outCheck f (d.b 12 2) permREAD w n with
      | none => s.descPiece f q d.pos d.next 0 (some (3, 3))
      | some i => s.wIssue f i (s.winMsg f i vcNP 0 w n (d.rcid, d.mcid)) (.piece q d.pos d.next))

/-- SEND: one W_SEND. -/
def execSend (f : Func) (q : Fin 8) (src : List Xlate) (s : State) : Out :=
  s.descRow f q 4 (fun s d =>
    if !s.winRoom f ∨ s.sourcing f q then s
    else
      let s := s.pieceOut f q d d.total
      match s.outCheck f (d.b 12 2) permSEND 0 d.length with
      | none => s.descPiece f q d.pos 0 0 (some (3, 3))
      | some i =>
        let m := s.winMsg f i vcPOST 1 0 d.length (d.rcid, d.mcid)
        State.xopRun (s.xopBegin f (.source q d.pos 0 i m) (d.rcid, d.mcid) 0 (d.b 16 8) d.length src none))

/-- ATOMIC: one W_ATOMIC. -/
def execAtomic (f : Func) (q : Fin 8) (s : State) : Out :=
  s.descRow f q 5 (fun s d =>
    if !s.winRoom f ∨ !s.npRoom f then s
    else
      let aop := d.b 2 1 % 16
      let asize := bits (d.b 2 1) 4 2
      let s := s.pieceOut f q d d.total
      match s.outCheck f (d.b 12 2) permATOMIC (d.b 24 8) (4 * 2 ^ asize) with
      | none => s.descPiece f q d.pos 0 0 (some (3, 3))
      | some i =>
        let m := s.winMsg f i vcNP 1 (d.b 24 8) 0 (d.rcid, d.mcid)
        s.wIssue f i { m with aop := aop, asize := asize, data := leBytes 32 (d.b 32 32) } (.piece q d.pos 0))

/-- DESCRIPTOR_COMPLETE (R292, R294): the oldest completion's entry is written at the CQ tail. Held while Bus Master
Enable is 0 (R279); lost after a completion write fault (R287). -/
def execDescriptorComplete (f : Func) (q : Fin 8) (tr : Xlate) (s : State) : Out :=
  let x := s.qp f q
  if s.qpState f q = qpERROR ∧ s.get (R.QP_STATUS_CAUSE f q) = 4 then .next (s.setQp f q { x with fin := [] })
  else if s.qpState f q ≠ qpACTIVE ∧ s.qpState f q ≠ qpERROR then .next s
  else
    match x.fin with
    | [] => .next s
    | e :: _ =>
      if x.writing ∨ !s.bmeOn f ∨ s.cqSize f q ≤ s.cqUsed f q ∨ s.fnDrains f then .next s
      else
        let tail := s.get (R.QP_CQ_TAIL_INDEX f q)
        let phase := if tail / s.cqSize f q % 2 = 0 then 2 ^ 127 else 0
        let va := s.get (R.QP_CQ_BASE_BASE f q) * 4096 + tail % s.cqSize f q * 16
        let s := s.setQp f q { x with writing := true }
        .next (State.xopRun (s.xopBegin f (.entry q e.irq e.recv) e.ids (qpStream f q) va 16 [tr] (some (e.val + phase)) 1))

/-- CQ_IRQ_TIMER (R294): TIME µs since the first entry not signalled. -/
def execCqIrqTimer (f : Func) (q : Fin 8) (s : State) : Out :=
  let x := s.qp f q
  if 0 < x.unsig ∧ s.get (R.QP_IRQ_TIME f q) ≠ 0 ∧ s.get (R.QP_IRQ_ENABLE f q) = 1 then
    .next ((s.setQp f q { x with unsig := 0 }).xceSignal f (s.get (R.QP_IRQ_VECTOR f q)))
  else .next s

/-! ## Arbitration (spec/12 R305) -/

/-- Bytes that an epoch offers. -/
def epochBytes : Nat := 1600000

/-- Share `left` bytes among functions (index, weight, cap in bytes or 0): those whose proportion reaches their cap take the
cap, and what they leave is shared among the others. -/
def epochShare : Nat → Nat → List (Nat × Nat × Nat) → List (Nat × Nat)
  | 0, _, _ => []
  | k + 1, left, l =>
    let sum := (l.map (fun e => e.2.1)).foldl (· + ·) 0
    let full := l.filter (fun e => e.2.2 != 0 && decide (e.2.2 * sum ≤ left * e.2.1))
    if full.isEmpty then l.map (fun e => (e.1, left * e.2.1 / sum))
    else full.map (fun e => (e.1, e.2.2)) ++
      epochShare k (left - (full.map (fun e => e.2.2)).foldl (· + ·) 0) (l.filter (fun e => !full.contains e))

/-- XCE_ARB_EPOCH. -/
def execXceArbEpoch (s : State) : Out :=
  let fs := (List.range 2049).filter (fun f => s.fnExists f)
  let weight (f : Nat) : Nat := s.get (R.XCE_FN_SHARE_WEIGHT f)
  let want := fs.filter (fun f => decide (0 < weight f) && (List.range 8).any (fun q => s.fetchable f q))
  let share := epochShare 2049 epochBytes (want.map (fun f => (f, weight f, s.get (R.XCE_FN_SHARE_CAP f) * 1000)))
  let s := share.foldl (fun s e =>
    s.put (R.XCE_FN_ARB_BALANCE e.1) (unsigned 40 (min (s.fnBalance e.1 + e.2) (2 * e.2)))) s
  let zero := fs.filter (fun f => weight f == 0)
  .next { s with xce := { s.xce with stopped := zero } }

/-! ## Window updates (spec/12 R303, R304) -/

/-- The shadow words as an entry. -/
def State.shadow (s : State) : Nat := (List.range 8).foldl (fun n i => n + (s.reg (R.rXCE_WIN_SHADOW i)).toNat <<< (64 * i)) 0

/-- Commit point: the entry is replaced, and what was accepted under it drains. -/
def State.winApply (s : State) (table index e : Nat) : State :=
  let s := s.put R.XCE_WIN_STATUS_COMMITTED 0
  if table = 0 then
    { s with xce := { s.xce with
      owin := Tbl.set (fun _ => 0) s.xce.owin index e,
      tags := s.xce.tags.map (fun t => if t.ent = index then { t with old := true } else t),
      ops := s.xce.ops.map (fun o => match o.what with
        | .source _ _ _ i _ => if i = index then { o with old := true } else o
        | _ => o) } }
  else
    { s with xce := { s.xce with
      iwin := Tbl.set (fun _ => 0) s.xce.iwin index e,
      ops := s.xce.ops.map (fun o => match o.what with
        | .target m => if m.iwin = index then { o with old := true } else o
        | .deposit _ m => if m.iwin = index then { o with old := true } else o
        | _ => o) } }

/-- Fields of an entry that hold a reserved value: LOG2_SIZE, and SRC_MATCH of an inbound one (R299, R300). -/
def winReserved (table e : Nat) : Bool :=
  wordBits e 0 0 1 == 1 &&
  (decide (wordBits e 3 0 6 < 12) || decide (40 < wordBits e 3 0 6) || (table == 1 && wordBits e 0 5 2 == 3))

/-- XCE_WIN_COMMIT: held while XCE_UC restarts. -/
def execXceWinCommit (index table : Nat) (s : State) : Out :=
  let i := index % 16384
  let t := table % 2
  let e := s.shadow
  if winReserved t e then .fault .hostMadeError
  else if s.get R.XCE_STATUS_UC_RUNNING = 1 then .next (s.winApply t i e)
  else .next ({ s with xce := { s.xce with commit := s.xce.commit ++ [(t, i, e)] } }.put R.XCE_WIN_STATUS_HELD 1)

/-- WIN_COMMIT_DRAINED: requests in quarantine do not count (R303). -/
def execWinCommitDrained (s : State) : Out :=
  if s.xce.tags.any (fun t => t.old && !t.quar) || s.xce.ops.any (·.old) || !s.xce.commit.isEmpty then .next s
  else .next (s.put R.XCE_WIN_STATUS_COMMITTED 1)

/-- XCE_UC runs again (R304, R306): writes held for it take effect. -/
def State.xceUcUp (s : State) : State :=
  let c := s.xce.commit
  let h := s.xce.share
  let s : State := { s with xce := { s.xce with commit := [], share := [] } }
  let s := (s.put R.XCE_STATUS_UC_RUNNING 1).put R.XCE_WIN_STATUS_HELD 0
  let s := c.foldl (fun s e => s.winApply e.1 e.2.1 e.2.2) s
  h.foldl (fun s e => (s.put (R.XCE_FN_SHARE_WEIGHT e.1) (bits e.2 0 8)).put (R.XCE_FN_SHARE_CAP e.1) (bits e.2 8 12)) s

/-! ## BAR2 (spec/12 R302) -/

/-- The slot and the offset within it of a BAR2 offset. -/
def bar2Slot (off : Nat) : Nat × Nat := (off / 2 ^ 27 % 8, off % 2 ^ 27)

/-- BAR2_LOAD: one W_READ; a failed check is a load access fault. It waits while no tag is free. -/
def execBar2Load (h : Hart) (f : Func) (off : Nat) (x : Access) (s : State) : Out :=
  if f.val = 0 ∨ !s.fnExists f ∨ s.fnDrains f ∨ (s.hart h).mmio.isSome then .next s
  else
    let (slot, o) := bar2Slot off
    match s.outCheck f slot permREAD o x.size with
    | none => .next ((s.setHart h { s.hart h with mmio := some (x, none) }).bar2Fault h)
    | some i =>
      if !s.winRoom f ∨ !s.npRoom f then .next s
      else
        let s := s.setHart h { s.hart h with mmio := some (x, none), out := .idle }
        .next (s.wIssue f i (s.winMsg f i vcNP 0 o x.size (s.fnIds f)) (.load h slot))

/-- BAR2_STORE: one W_WRITE; a failed check drops it. -/
def execBar2Store (h : Hart) (f : Func) (off v : Nat) (x : Access) (s : State) : Out :=
  if f.val = 0 ∨ !s.fnExists f ∨ s.fnDrains f then .next s
  else
    let (slot, o) := bar2Slot off
    let fin (s : State) : State := (s.retire h .store x).setOut h .done
    match s.outCheck f slot permWRITE o x.size with
    | none => .next (fin (s.bar2Drop f slot 3))
    | some i =>
      if !s.winRoom f then .next s
      else
        let m := s.winMsg f i vcPOST 0 o x.size (s.fnIds f)
        .next (fin (s.wIssue f i { m with data := leBytes x.size v } (.store slot)))

end Sys2Proof.Machine
end

