-- ==== Sys2Proof/Machine/Ports.lean ====
section
/-!
DEFINITION. Root ports (spec/13_root_ports.md): CXL regions, slots, containment, requests of the devices below a port and
the outcomes of hart accesses to them, and interrupts. What a device does is the sender's: its answers and requests come
as commands.
-/

namespace Sys2Proof.Machine

def State.portSlot (s : State) (i : Nat) : Slot := Tbl.get (fun _ => {}) s.io.slots i
def State.setPortSlot (s : State) (i : Nat) (x : Slot) : State :=
  { s with io := { s.io with slots := Tbl.set (fun _ => {}) s.io.slots i x } }

/-- Does port `i` exist in its group's mode (R310)? -/
def State.portUp (s : State) (i : Nat) : Bool := s.get (R.RPRT_STATUS_WIDTH i) != 0
def State.contained (s : State) (i : Nat) : Bool := s.get (R.RPRT_STATUS_CONTAINED i) == 1

/-! ## Capabilities of a port's configuration space, which PCI Express places (notes/assumptions/32.md) -/

/-- The offset of standard capability `id`, following the list from `p` for at most `k` entries. -/
def State.capFrom (s : State) (i id : Nat) : Nat → Nat → Option Nat
  | 0, _ => none
  | k + 1, p =>
    if p < 0x40 then none
    else if s.cfgBits i p 0 8 = id then some p
    else State.capFrom s i id k (s.cfgBits i p 8 8 / 4 * 4)
def State.cap? (s : State) (i id : Nat) : Option Nat := s.capFrom i id 48 (s.cfgBits i 0x34 0 8 / 4 * 4)

/-- The same for extended capabilities. -/
def State.extCapFrom (s : State) (i id : Nat) : Nat → Nat → Option Nat
  | 0, _ => none
  | k + 1, p =>
    if p < 0x100 then none
    else if s.cfgBits i p 0 16 = id then some p
    else State.extCapFrom s i id k (s.cfgBits i p 20 12 / 4 * 4)
def State.extCap? (s : State) (i id : Nat) : Option Nat := s.extCapFrom i id 960 0x100

def capMSI : Nat := 0x05
def capPCIE : Nat := 0x10
def extAER : Nat := 0x0001
def extDPC : Nat := 0x001D

/-- Set bits of a dword in a capability, where the port has it. -/
def State.capPut (s : State) (i : Nat) (c : Option Nat) (off lo w v : Nat) : State :=
  match c with | some p => s.putCfg i (p + off) lo w v | none => s

/-- A root port signals an event of its own by MSI (R321). -/
def State.portMsi (s : State) (i : Nat) : State :=
  match s.cap? i capMSI with
  | none => s
  | some p =>
    if s.cfgBits i p 16 1 = 0 then s
    else if s.cfgBits i p 23 1 = 1 then s.sendMsi (s.cfg i (p + 4) + (s.cfg i (p + 8)) <<< 32) (s.cfgBits i (p + 12) 0 16) i
    else s.sendMsi (s.cfg i (p + 4)) (s.cfgBits i (p + 8) 0 16) i

/-- Slot Status bits are set, and signalled where Slot Control enables them. -/
def State.slotEvent (s : State) (i m : Nat) : State :=
  let x := s.portSlot i
  let s := s.setPortSlot i { x with status := x.status ||| m }
  if x.ctl.testBit 5 ∧ (m &&& x.ctl) % 16 ≠ 0 then s.portMsi i else s

/-! ## CXL regions (R313, R314, R323) -/

def State.region (s : State) (i : Nat) : Nat := s.get (R.RPRT_STATUS_REGION_STATE i)
def State.setRegion (s : State) (i st : Nat) : State := s.put (R.RPRT_STATUS_REGION_STATE i) st
def State.regionSpan (s : State) (i : Nat) : Nat × Nat :=
  (s.get (R.RPRT_CXL_REGION_BASE_GIB i), s.get (R.RPRT_CXL_REGION_SIZE_GIB i))

/-- Does the region leave the window or overlap another port's (R313)? -/
def State.regionBad (s : State) (i : Nat) : Bool :=
  let (b, n) := s.regionSpan i
  n == 0 || decide (4096 < b + n) ||
  (List.range 32).any (fun j => j != i && s.region j != regionOFFLINE &&
    (let (c, m) := s.regionSpan j; decide (c < b + n) && decide (b < c + m)))

/-- CXL_REGION_ONLINE: CMD = ONLINE. -/
def execCxlRegionOnline (i : RPort) (s : State) : Out :=
  if s.region i = regionOFFLINE ∧ s.get (R.RPRT_STATUS_CXL i) = 1 then
    if s.regionBad i then .fault .hostMadeError else .next (s.setRegion i regionFILLING)
  else .next (s.put (R.RPRT_STATUS_CMD_REJECTED i) 1)

/-- Every home sweeps its directory for lines of the region (R110, R314). -/
def State.regionDrain (s : State) (i : RPort) : State :=
  foldN 16 (s.setRegion i regionDRAINING) (fun n s => s.walkStart (.cxlRegion i (Fin.ofNat 16 n)))

/-- CXL_REGION_OFFLINE: CMD = OFFLINE. -/
def execCxlRegionOffline (i : RPort) (s : State) : Out :=
  if s.region i = regionONLINE then .next (s.regionDrain i) else .next (s.put (R.RPRT_STATUS_CMD_REJECTED i) 1)

/-- CXL_FILL_COMPLETE: the region holds zeros and is backed (spec/07 R183); or, where a fill write failed, it is OFFLINE again
(R314). -/
def execCxlFillComplete (i : RPort) (ok : Bool) (s : State) : Out :=
  if s.region i = regionFILLING ∧ !ok then .next ((s.setRegion i regionOFFLINE).put (R.RPRT_EVENT_REGION_FAIL i) 1)
  else if s.region i = regionFILLING then
    let (b, n) := s.regionSpan i
    let lo := cxlCell (0x80000000000 + b * 2 ^ 30)
    let hi := lo + n * 2 ^ 30
    let out (k lo hi : Nat) : Bool := decide (k < lo) || decide (hi ≤ k)
    let s : State := { s with mem := s.mem.filter (fun e => out e.1 lo hi), marked := s.marked.filter (fun e => out e.1 (lo / 64) (hi / 64)) }
    let s := ((s.setRegion i regionONLINE).put (R.RPRT_EVENT_REGION_ONLINE i) 1).meterAdd qMEM_WRITE 0 (n * 2 ^ 30)
    .next (s.jByFill (fun e => e.op == 1 && decide (0x80000000000 + b * 2 ^ 30 ≤ e.base) &&
      decide (e.base < 0x80000000000 + (b + n) * 2 ^ 30)))
  else .next s

/-- CXL_DRAIN_COMPLETE: every sweep is done. The region is backed no more, every Mesa slice is invalidated, and the region
is OFFLINE when they are (spec/08 R207, R214). -/
def execCxlDrainComplete (i : RPort) (s : State) : Out :=
  let running := s.home.sweeps.any (fun w => match w.u with | .cxlRegion j _ => j == i | _ => false)
  if s.region i = regionDRAINING ∧ !running then
    .next (({ s with mesa := { s.mesa with offPorts := s.mesa.offPorts.erase i.val ++ [i.val] } } : State).mesaInvAll).regionsOff
  else .next s

/-- The link goes down, or the port is contained: what that does to its region. -/
def State.regionLinkDown (s : State) (i : RPort) : State :=
  let s := (s.put (R.RPRT_STATUS_CXL i) 0).setPortSlot i { s.portSlot i with up := false }
  if s.region i = regionFILLING then (s.setRegion i regionOFFLINE).put (R.RPRT_EVENT_REGION_FAIL i) 1
  else if s.region i = regionONLINE then s.regionDrain i else s

/-- CXL_LINK_DOWN. -/
def execCxlLinkDown (i : RPort) (s : State) : Out :=
  if s.get (R.RPRT_STATUS_CXL i) = 1 then .next (s.regionLinkDown i) else .next s

/-! ## Links (R312, R319) -/

/-- ROOT_PORT_LINK_UP: training completes, as CXL only on a port of x8 or x16. -/
def execRootPortLinkUp (i : RPort) (cxl : Bool) (s : State) : Out :=
  let x := s.portSlot i
  let powered := s.get (R.RPRT_CTL_SLOT i) == 0 || (x.out.testBit 8 && x.out.testBit 9)
  if s.portUp i ∧ !s.contained i ∧ !x.holding ∧ powered then
    .next ((s.setPortSlot i { x with up := true }).putB (R.RPRT_STATUS_CXL i) (cxl && decide (2 ≤ s.get (R.RPRT_STATUS_WIDTH i))))
  else .next s

/-- The class 13 fault of a port becomes permanent: the link retrains at the next lower rate (spec/14 R336). -/
def State.pcieRateDown (s : State) (i : Nat) : State :=
  let x := s.portSlot i
  (s.setPortSlot i { x with rate := max 1 (x.rate - 1) }).logEvent 0x0052 sevWARNING 12 i

/-- ROOT_PORT_LINK_ERROR: a correctable error is logged in AER and charged. -/
def execRootPortLinkError (i : RPort) (s : State) : Out :=
  if s.portUp i then
    let s := (s.capPut i (s.extCap? i extAER) 0x10 0 1 1).count (ctrRoot i) 4
    let s := s.errRecord (bankRoot i) errCE 0 (recInfo 0 0 (agROOT + i) s.pkgId 13) 0
    let r := s.charge 13 i false
    .next (if r.2 then r.1.pcieRateDown i else r.1)
  else .next s

/-! ## Slots (R315, R316, R323) -/

/-- What is wanted of the outputs reaches the expander, where it answers. -/
def State.slotApply (s : State) (i : Nat) : State :=
  if s.get (R.RPRT_STATUS_EXPANDER_FAIL i) = 1 then s else s.setPortSlot i { s.portSlot i with out := (s.portSlot i).want }

/-- Slot power goes off: PWR_EN and PERST_N low. -/
def State.slotOff (s : State) (i : Nat) : State :=
  let x := s.portSlot i
  (s.setPortSlot i { x with want := setBits x.want 8 2 0, rising := false, up := false }).slotApply i

/-- Power Fault Detected (R316). -/
def State.slotFault (s : State) (i : Nat) : State := (s.slotEvent i 2).slotOff i

/-- An expander is read: no answer, or its inputs. -/
def State.scan (s : State) (i : Nat) (data : Option Nat) : State :=
  if s.get (R.RPRT_CTL_SLOT i) = 0 ∨ !s.portUp i then s
  else
    let x := s.portSlot i
    match data with
    | none =>
      let s := s.setPortSlot i { x with nacks := x.nacks + 1 }
      if 3 ≤ x.nacks + 1 then s.put (R.RPRT_STATUS_EXPANDER_FAIL i) 1 else s
    | some v =>
      let v := v % 16
      let s := (s.setPortSlot i { x with nacks := 0, last := v, wait := x.wait || v % 4 != x.last % 4 || v / 8 != x.last / 8 })
      let s := (s.put (R.RPRT_STATUS_EXPANDER_FAIL i) 0).slotApply i
      let s := if x.last.testBit 2 ∧ ¬ v.testBit 2 then s.slotFault i else s
      -- The card is gone while power on is in progress (R323).
      if x.rising ∧ v.testBit 0 then s.slotOff i else s

/-- EXPANDER_SCAN. -/
def execExpanderScan (i : RPort) (data : Option Nat) (s : State) : Out := .next (s.scan i data)

/-- HP_INT_FALL: the eight expanders of the bus are read, `data` in port order. -/
def execHpIntFall (b : Fin 4) (data : List (Option Nat)) (s : State) : Out :=
  .next (foldN 8 s (fun k s => match data[k]? with | some d => s.scan (8 * b + k) d | none => s))

/-- SLOT_DEBOUNCE_DONE: changes that have lasted are reported (R316 step 2). -/
def execSlotDebounceDone (i : RPort) (s : State) : Out :=
  let x := s.portSlot i
  if x.wait ∧ s.get (R.RPRT_STATUS_EXPANDER_FAIL i) = 0 then
    let ch (k : Nat) : Bool := x.last.testBit k != x.seen.testBit k
    let m := (if ch 0 then 8 else 0) + (if ch 1 && !x.last.testBit 1 then 1 else 0) + (if ch 3 then 4 else 0)
    let st := setBits (setBits x.status 6 1 (b2n (!x.last.testBit 0))) 5 1 (b2n (x.last.testBit 3))
    let s := s.setPortSlot i { x with wait := false, seen := x.last, status := st }
    .next (if m = 0 then s else s.slotEvent i m)
  else .next s

/-- The output that an indicator's control code asks for: 1 on, 2 blinking, 3 off; 0 leaves it. -/
def indicator (code old : Nat) : Nat := if code = 0 then old else if code = 3 then 0 else 1

/-- Slot Control is written: stored, and applied through the expander (R316, R323). -/
def State.slotControl (s : State) (i v : Nat) : State :=
  let x := s.portSlot i
  let on := !v.testBit 10
  let want := if on then setBits x.want 8 1 1 else setBits x.want 8 2 0
  let want := setBits want 10 1 (indicator (bits v 8 2) (bits x.want 10 1))
  let want := setBits want 11 1 (indicator (bits v 6 2) (bits x.want 11 1))
  let rising := on && (x.rising || !x.want.testBit 8)
  (s.setPortSlot i { x with ctl := v % 2 ^ 16, want := want, rising := rising, up := x.up && on }).slotApply i

/-- SLOT_POWER_CONTROL_WRITE. -/
def execSlotPowerControlWrite (i : RPort) (v : Nat) (s : State) : Out :=
  if s.portUp i ∧ s.get (R.RPRT_CTL_SLOT i) = 1 then .next (s.slotControl i v) else .next s

/-- SLOT_PERST_RELEASE: 100 ms after PWR_EN went high. -/
def execSlotPerstRelease (i : RPort) (s : State) : Out :=
  let x := s.portSlot i
  if x.rising ∧ x.out.testBit 8 then .next ((s.setPortSlot i { x with rising := false, want := setBits x.want 9 1 1 }).slotApply i)
  else .next s

/-- SLOT_POWER_FAULT: PWRFLT_N falls. -/
def execSlotPowerFault (i : RPort) (s : State) : Out :=
  if s.portUp i ∧ s.get (R.RPRT_CTL_SLOT i) = 1 then
    let x := s.portSlot i
    .next ((s.setPortSlot i { x with last := setBits x.last 2 1 0 }).slotFault i)
  else .next s

/-- SLOT_INDICATOR_BLINK: outputs of blinking indicators toggle. -/
def execSlotIndicatorBlink (i : RPort) (s : State) : Out :=
  let x := s.portSlot i
  if s.get (R.RPRT_CTL_SLOT i) = 1 then
    let flip (k code w : Nat) : Nat := if code = 2 then setBits w k 1 (1 - bits w k 1) else w
    .next ((s.setPortSlot i { x with want := flip 11 (bits x.ctl 6 2) (flip 10 (bits x.ctl 8 2) x.want) }).slotApply i)
  else .next s

/-- PE_PERST_RELEASE: PE_PERST_N of lane group `g` goes high, once PWRGOOD is (spec/19 R423). -/
def execPePerstRelease (g : Fin 8) (s : State) : Out :=
  if s.pwr.good then .next { s with pwr := { s.pwr with perst := s.pwr.perst ||| 1 <<< g.val } } else .next s

/-! ## Containment (R317 to R319) -/

/-- A dropped write or a faulted read of a contained port (R318). -/
def State.portErr (s : State) (i ga : Nat) (write : Bool) : State :=
  let s := s.errRecord (bankRoot i) errUED ga (recInfo 0 0 (agROOT + i) s.pkgId) 0
  if s.get (R.RPRT_ERR_VALID i) = 1 then s.put (R.RPRT_ERR_OVERFLOW i) 1
  else
    let s := (s.put (R.RPRT_ERR_VALID i) 1).putB (R.RPRT_ERR_WRITE i) write
    s.put (R.RPRT_ERR_ADDR i) (ga % 2 ^ 56)

/-- A hart's MMIO read of a contained port, or one that had no completion: all ones, or a load access fault. A
configuration read gives all ones. -/
def State.containedRead (s : State) (h i : Nat) (x : Access) : State :=
  let s := s.setHart h { s.hart h with mmio := none }
  match s.reachHart .m x.ga with
  | .ecam _ => (s.retire h .load x).setOut h (.value (2 ^ (8 * x.size) - 1))
  | _ =>
    if s.get (R.RPRT_CTL_FAULT_ON_CONTAINED i) = 1 then ((s.portErr i x.ga false).hartRecord h x.ga 0 0).trapHart h 5 x
    else (s.retire h .load x).setOut h (.value (2 ^ (8 * x.size) - 1))

/-- The harts that wait for a completion from a port end as R318 gives. -/
def State.containHarts (s : State) (i : Nat) : State :=
  foldN 384 s (fun h s => match (s.hart h).mmio with
    | some (x, some j) => if j.val = i then s.containedRead h i x else s
    | _ => s)

/-- PORT_CONTAINMENT: DPC or Surprise Down; `reason` is DPC's Trigger Reason. -/
def execPortContainment (i : RPort) (reason : Nat) (s : State) : Out :=
  if s.portUp i ∧ !s.contained i then
    let s := s.put (R.RPRT_STATUS_CONTAINED i) 1
    let s := (s.capPut i (s.extCap? i extDPC) 8 0 1 1).capPut i (s.extCap? i extDPC) 8 1 2 reason
    let s := (s.regionLinkDown i).containHarts i
    -- DMA that a home has accepted completes without an answer.
    .next { s with io := { s.io with dma := s.io.dma.map (fun d => if d.port = i.val then { d with ans := false } else d) } }
  else .next s

/-- DPC Trigger Status is cleared (R319). -/
def State.dpcClear (s : State) (i : Nat) : State :=
  if s.contained i then
    ((s.put (R.RPRT_STATUS_CONTAINED i) 0).capPut i (s.extCap? i extDPC) 8 0 1 0).setPortSlot i { s.portSlot i with holding := true }
  else s

/-- DPC_STATUS_CLEAR. -/
def execDpcStatusClear (i : RPort) (s : State) : Out := .next (s.dpcClear i)

/-- CONTAINMENT_HOLD_EXPIRY: training may begin again. -/
def execContainmentHoldExpiry (i : RPort) (s : State) : Out :=
  .next (if (s.portSlot i).holding then s.setPortSlot i { s.portSlot i with holding := false } else s)

/-- MMIO_CPL_TIMEOUT. -/
def execMmioCplTimeout (h : Hart) (s : State) : Out :=
  match (s.hart h).mmio with
  | some (x, some i) => .next (s.containedRead h i x)
  | _ => .next s

/-- MMIO_COMPLETION: the device's answer to a hart's read. An unsuccessful one reads all ones, as PCI Express has it
(notes/assumptions/32.md). -/
def execMmioCompletion (h : Hart) (ok : Bool) (v : Nat) (s : State) : Out :=
  match (s.hart h).mmio with
  | some (x, some i) =>
    let s := (s.setHart h { s.hart h with mmio := none }).count (ctrRoot i) 1
    .next ((s.retire h .load x).setOut h (.value (if ok then v % 2 ^ (8 * x.size) else 2 ^ (8 * x.size) - 1)))
  | _ => .next s

/-! ## Requests of devices (R112, R322) -/

/-- A request that is refused: Completer Abort to a requester that waits for an answer. -/
def State.completerAbort (s : State) (i rid : Nat) (answered : Bool) : State :=
  if answered then { s with io := { s.io with cpls := s.io.cpls ++ [⟨i, rid, false, 0⟩] } } else s

/-- The payload of an ATOMIC_NC (spec/04 R92). -/
def atomicPayload (aop n v cmp : Nat) : Line :=
  if aop = 9 then lineSet (lineSet 0 0 n cmp) n n v else lineSet 0 0 n v

/-- DEVICE_DMA_REQUEST: translated, checked against R32, and sent as coherent requests of agent 0x40 + i. -/
def execDeviceDmaRequest (i : RPort) (rid : Nat) (x : Dma) (tr : Xlate) (s : State) : Out :=
  if !s.portUp i ∨ s.contained i then .next s
  else
    let ids := (s.get (R.QOS_RPRT_ID_RCID i), s.get (R.QOS_RPRT_ID_MCID i))
    let size := match x with | .read n => n | .write d _ _ => d.length | .atomic _ a _ _ => 4 * 2 ^ a
    let write := match x with | .read _ => false | _ => true
    let ans := match x with | .write _ _ _ => false | _ => true
    let s := ((s.count (ctrRoot i) 1).count ctrIommu 1).count (ctrRoot i) 3 none (some ids) ((size + 63) / 64)
    let s := match x with
      | .write _ _ true => s.capPut i (s.extCap? i extAER) 4 12 1 1
      | _ => s
    match tr with
    | .fault =>
      let r := s.freeWord
      .next ((r.2.iommuFault rid (if write then 3 else 2) r.1.toNat).completerAbort i rid ans)
    | .to ga .. =>
      let agent := agROOT + i.val
      let ok (r : Reach) : Bool := match r with | .mem _ => true | .peer => true | _ => false
      let last := ga + (size - 1)
      if size = 0 ∨ ¬ ok (s.reachDevice ga) ∨ ¬ ok (s.reachDevice last) then
        let cause := match s.reachDevice (if ok (s.reachDevice ga) then last else ga) with | .fault c => c | _ => 0
        .next ((s.decodeErr cause 1 0 rid ga write).completerAbort i rid ans)
      else
        let op := s.io.nextDma
        let why (off lo len : Nat) : IoWhy := .device op off lo len
        let opened (left : Nat) : State :=
          let d : DmaOp := { id := op, port := i, rid := rid, size := size, ans := ans, left := left }
          { s with io := { s.io with nextDma := op + 1, dma := s.io.dma ++ [d] } }
        match x with
        | .read _ => .next ((opened (ioLines ga size).length).ioRead agent 0 why ids ga size)
        | .write d relaxed poisoned =>
          .next ((opened (ioLines ga size).length).ioWrite agent 0 why ids (if relaxed then 0 else 1) ga size (ofBytes d) poisoned)
        | .atomic aop asize v cmp =>
          if atomicLegal aop asize (ga % 64) then
            .next ((opened 1).ioSend agent 0 (why 0 0 size)
              { blankMsg with opc := opATOMIC, addr := ga / 64, rcid := ids.1, mcid := ids.2, payload := true, aop := aop,
                              asize := asize, aoff := ga % 64, data := atomicPayload aop size v cmp })
          else .next (s.completerAbort i rid true)

/-- DEVICE_MSI_WRITE: what MSI translation allows is delivered, or treated as any 4-byte write of the device where it names
no interrupt file; what it refuses is dropped, counted and recorded (R322). -/
def execDeviceMsiWrite (i : RPort) (rid : Nat) (ga : Option Nat) (data : Nat) (s : State) : Out :=
  if !s.portUp i then .next s
  else
    match ga with
    | none =>
      let r := s.freeWord
      .next (r.2.iommuDrop rid r.1.toNat)
    | some a =>
      .next (s.msiWrite (agROOT + i.val) 1 rid (s.get (R.QOS_RPRT_ID_RCID i), s.get (R.QOS_RPRT_ID_MCID i)) a data)

/-! ## Interrupts (R320, R321) -/

/-- INTX_LEVEL_CHANGE: source 1 + 4i + n is INTx pin n below root port i; other sources are unconnected. -/
def execIntxLevelChange (src : Fin 1024) (level : Bool) (s : State) : Out :=
  if 1 ≤ src.val ∧ src.val ≤ 128 then .next (s.aplicLevel src level) else .next s

/-- SETEIPNUM_STORE: a 4-byte store to a set-pending register of this package. -/
def execSeteipnumStore (ga : Nat) (v : BitVec 32) (s : State) : Out :=
  if ga / 2 ^ 44 = s.pkgId ∧ isSetPending (ga % 2 ^ 44) then .next (s.setPending (ga % 2 ^ 44) v.toNat 0) else .next s

/-! ## Configuration space of the ports (R311) -/

/-- The dword of Slot Control and Slot Status. -/
def State.slotDword (s : State) (i : Nat) : Option Nat := (s.cap? i capPCIE).map (· + 0x18)

/-- What a configuration read of port `i` returns. -/
def State.rootCfgRead (s : State) (i off size : Nat) : Nat :=
  let o := off % 4096 / 4 * 4
  let v := if s.slotDword i = some o then (s.portSlot i).ctl + (s.portSlot i).status <<< 16 else s.cfg i o
  bits v (8 * (off % 4)) (8 * size)

/-- A configuration write to port `i`: Slot Control acts, Slot Status and DPC Status are cleared by 1, the rest is
stored. -/
def State.rootCfgStore (s : State) (i off size v : Nat) : State :=
  let o := off % 4096 / 4 * 4
  let sh := 8 * (off % 4)
  let m := ((2 ^ (8 * size) - 1) <<< sh) % 2 ^ 32
  let v := (v <<< sh) &&& m
  if s.slotDword i = some o then
    let x := s.portSlot i
    let s := s.setPortSlot i { x with status := x.status - (x.status &&& (v >>> 16) &&& 0x11F) }
    if m % 2 ^ 16 = 0 then s
    else
      let c := (x.ctl - (x.ctl &&& m)) + v % 2 ^ 16
      if s.get (R.RPRT_CTL_SLOT i) = 1 then s.slotControl i c else s.setPortSlot i { s.portSlot i with ctl := c % 2 ^ 16 }
  else if (s.extCap? i extDPC).map (· + 8) = some o then (if v.testBit 0 then s.dpcClear i else s)
  else
    let rw := (cfgMasks (.root i) o).1
    let old := s.cfg i o
    s.setCfg i o (old - (old &&& (rw &&& m)) + (v &&& rw))

/-- Is a root port's bus range one that includes a bus of the XCE (spec/11 R263)? A range that ends below its start, or that
starts at bus 0, is none. -/
def State.busRangeBad (s : State) (i : Nat) : Bool :=
  let lo := s.cfgBits i 0x18 8 8
  let hi := s.cfgBits i 0x18 16 8
  lo != 0 && decide (lo ≤ hi) && decide (lo ≤ 9)

/-- A configuration write to port `i`; none where it is a host-made error: a bus range with one of buses 1 to 9, or a window
that meets an XCE BAR (spec/11 R263, R270). -/
def State.rootCfgWrite (s : State) (i off size v : Nat) : Option State :=
  let o := off % 4096 / 4 * 4
  let s := s.rootCfgStore i off size v
  if (o = 0x18 ∧ s.busRangeBad i) ∨ ((o = 0x04 ∨ (0x20 ≤ o ∧ o ≤ 0x2C)) ∧ s.barsClash) then none else some s

end Sys2Proof.Machine
end

