-- ==== Sys2Proof/Machine/Ras.lean ====
section
/-!
DEFINITION. Stored-data protection (spec/14_stored_data_protection.md): the two-dimensional parity code as a read sees it
(R324, R325), the on-chip patrol (R333) with the outcomes of R330, and the window boundaries of the error buckets (R335).
-/

namespace Sys2Proof.Machine

/-! ## The code (R324, R325) -/

/-- A grid: its rows and columns of data, and the data bits of a block. -/
structure Grid where
  rows : Nat
  cols : Nat
  n    : Nat
  deriving DecidableEq, Repr

/-- The grid of each array (R327). The spec does not count the bits of the state blocks of the L1, the L2, the Vale cache
and the snoop filter (notes/assumptions/42.md). -/
def gridOf : ArrLoc → Grid
  | .l1i _ _ _ none | .l1d _ _ _ none | .l2Data .. | .vcData .. | .mesaData .. | .homeBuf .. => ⟨16, 32, 512⟩
  | .l1i _ _ _ (some t) | .l1d _ _ _ (some t) => if t then ⟨6, 8, 43⟩ else ⟨4, 4, 16⟩
  | .l2Tag _ _ _ t => if t then ⟨5, 8, 39⟩ else ⟨5, 5, 25⟩
  | .vcTag _ _ _ _ t => if t then ⟨5, 7, 34⟩ else ⟨5, 5, 25⟩
  | .sf _ _ _ _ t => if t then ⟨5, 7, 34⟩ else ⟨6, 7, 41⟩
  | .dir _ _ _ t => if t then ⟨3, 6, 18⟩ else ⟨4, 5, 20⟩
  | .rpt _ _ _ t => if t then ⟨3, 7, 21⟩ else ⟨5, 8, 40⟩
  | .rld _ _ _ t => if t then ⟨4, 8, 32⟩ else ⟨4, 5, 19⟩
  | .mesaTag _ _ _ t => if t then ⟨3, 6, 18⟩ else ⟨4, 7, 26⟩
  | .mesaPlru _ _ => ⟨3, 5, 15⟩
  | .mesaVictim _ _ part => if part.val < 16 then ⟨16, 32, 512⟩ else if part.val = 16 then ⟨5, 6, 30⟩ else ⟨4, 7, 26⟩
  | .regs _ v => if v then ⟨16, 16, 256⟩ else ⟨8, 8, 64⟩
  | .meterAcc .. | .meterTotal .. | .xce _ | .iommu | .tvxSram | .other => ⟨8, 8, 64⟩

/-- Is there a cell at a position: a data bit, or a check bit (R324)? -/
def Grid.stored (g : Grid) (p : Nat × Nat) : Bool :=
  decide (p.1 ≤ g.rows) && decide (p.2 ≤ g.cols) &&
  (p.1 == g.rows || p.2 == g.cols || decide (p.1 * g.cols + p.2 < g.n))

/-- What a read finds (R325): clean, the corrupt marker, one bad bit at a position, or what it cannot correct. -/
inductive Found where
  | clean
  | marker
  | one (p : Nat × Nat)
  | bad
  deriving DecidableEq, Repr

/-- Odd counts of a list of indexes, as a mask. -/
def oddMask (l : List Nat) : Nat := l.foldl (fun m i => m ^^^ 1 <<< i) 0

/-- The syndromes of a block whose cells `bad` are inverted; that of a marked block has the marker's in it (R328). -/
def Grid.syndromes (g : Grid) (marked : Bool) (bad : List (Nat × Nat)) : Nat × Nat :=
  let r := oddMask (bad.map (·.1))
  let c := oddMask (bad.map (·.2))
  if marked then (r ^^^ (2 ^ g.rows - 1), c ^^^ (2 ^ g.cols - 1)) else (r, c)

/-- The decoder (R325). -/
def Grid.decode (g : Grid) (s : Nat × Nat) : Found :=
  if g.n = 512 ∧ s = (2 ^ g.rows - 1, 2 ^ g.cols - 1) then .marker
  else if s = (0, 0) then .clean
  else
    match (List.range (g.rows + 1)).filter s.1.testBit, (List.range (g.cols + 1)).filter s.2.testBit with
    | [r], [c] => if g.stored (r, c) then .one (r, c) else .bad
    | _, _ => .bad

/-- The data bits that stay wrong after the decoder's correction, as a mask. -/
def Grid.residue (g : Grid) (bad : List (Nat × Nat)) (f : Found) : Nat :=
  let all := match f with | .one p => bad ++ [p] | _ => bad
  oddMask ((all.filter (fun p => decide (p.1 < g.rows) && decide (p.2 < g.cols))).map (fun p => p.1 * g.cols + p.2))

/-! ## Permanent faults (R336) -/

/-- A Mesa way is retired (spec/08 R209). -/
def State.mesaWayRetire (s : State) (n w : Nat) : State :=
  let s := (s.putBit (R.MESA_WAY_STATUS_WAYS_RETIRED n) w true).recWay (wayMesa n w)
  ((s.putBit (R.MESA_WAY_CTL_WAY_DISABLE n) w true).put (R.MESA_EVENT_WAY_DISABLED n) 1).mesaWayOff n w

/-- The victim cache of a slice is retired (spec/08 R202, R209). -/
def State.mesaVictRetire (s : State) (n : Nat) : State :=
  let s := ((s.put (R.MESA_WAY_STATUS_VC_RETIRED n) 1).put (R.MESA_EVENT_VC_RETIRED n) 1).recWay (wayVict n)
  (s.victDrop n (fun _ => true)).put (R.MESA_STATUS_VC_ENABLED n) 0

/-- Number of the bucket of a block: its class and its index in it (R336). Of class 4 the directory ways come first, then
the RPT's and the RLD's; of class 14 the replacement arrays, then the meter's, the XCE's, Thoiviyx's, the rest,
the IOMMU's and the homes' buffers. -/
def bucketOf : ArrLoc → Nat × Nat
  | .l1i h _ _ _ => (0, h)
  | .l1d h _ _ _ => (0, h)
  | .regs h _ => (0, h)
  | .l2Data h _ w => (1, h * 16 + w)
  | .l2Tag h _ w _ => (1, h * 16 + w)
  | .vcData d s _ w => (2, (d * 16 + s) * 16 + w)
  | .vcTag d s _ w _ => (2, (d * 16 + s) * 16 + w)
  | .sf d b _ w _ => (3, (d * 16 + b) * 24 + w)
  | .dir n _ w _ => (4, n * 16 + w)
  | .rpt n _ w _ => (4, 256 + n * 16 + w)
  | .rld n _ w _ => (4, 512 + n * 16 + w)
  | .mesaData n _ w _ => (5, n * 16 + w)
  | .mesaTag n _ w _ => (5, n * 16 + w)
  | .mesaVictim n _ _ => (6, n)
  | .mesaPlru n _ => (14, n)
  | .meterAcc .. => (14, 16)
  | .meterTotal .. => (14, 16)
  | .xce _ => (14, 17)
  | .iommu => (14, 20)
  | .homeBuf n _ => (14, 32 + n)
  | .tvxSram => (14, 18)
  | .other => (14, 19)

/-- The permanent action of a block's bucket. -/
def State.permanent (s : State) : ArrLoc → State
  | .l1i h _ _ _ => s.retirePending h
  | .l1d h _ _ _ => s.retirePending h
  | .regs h _ => s.retirePending h
  | .l2Data h _ w => s.l2WayRetire h w
  | .l2Tag h _ w _ => s.l2WayRetire h w
  | .vcData d sl _ w => s.vcWayRetire d sl w
  | .vcTag d sl _ w _ => s.vcWayRetire d sl w
  | .sf d b _ w _ => s.sfWayRetire d b w
  | .dir n _ w _ => s.dirWayRetire n w
  | .rpt n _ w _ => s.rptWayRetire n w
  | .rld n _ w _ => s.rldWayRetire n w
  | .mesaData n _ w _ => s.mesaWayRetire n w
  | .mesaTag n _ w _ => s.mesaWayRetire n w
  | .mesaVictim n _ _ => s.mesaVictRetire n
  | .mesaPlru n _ => s.logEvent 0x0051 sevWARNING (13 + n.val / 4) n
  | .meterAcc .. => s.logEvent 0x0051 sevWARNING noDie 16
  | .meterTotal .. => s.logEvent 0x0051 sevWARNING noDie 16
  | .xce _ => s.logEvent 0x0051 sevWARNING noDie 17
  | .iommu => s.logEvent 0x0051 sevWARNING noDie 20
  | .homeBuf n _ => s.logEvent 0x0051 sevWARNING noDie (32 + n)
  | .tvxSram => s.logEvent 0x0051 sevWARNING noDie 18
  | .other => s.logEvent 0x0051 sevWARNING noDie 19

/-- Is the resource of a block retired, so that it counts no more (R335 item 5)? -/
def State.retiredArr (s : State) : ArrLoc → Bool
  | .l2Data h _ w => (s.get (R.VALE_L2_STATUS_WAYS_RETIRED (h.val / 32) (h.val % 32))).testBit w
  | .l2Tag h _ w _ => (s.get (R.VALE_L2_STATUS_WAYS_RETIRED (h.val / 32) (h.val % 32))).testBit w
  | .vcData d sl _ w => (s.get (R.VALE_VC_STATUS_WAYS_RETIRED d sl)).testBit w
  | .vcTag d sl _ w _ => (s.get (R.VALE_VC_STATUS_WAYS_RETIRED d sl)).testBit w
  | .sf d b _ w _ => (s.get (R.VALE_SF_STATUS_WAYS_RETIRED d b)).testBit w
  | .dir n _ w _ => (s.get (R.HOME_DIR_STATUS_WAYS_RETIRED n)).testBit w
  | .rpt n _ w _ => (s.get (R.HOME_RPT_STATUS_WAYS_RETIRED n)).testBit w
  | .rld n _ w _ => (s.get (R.HOME_RLD_STATUS_WAYS_RETIRED n)).testBit w
  | .mesaData n _ w _ => (s.get (R.MESA_WAY_STATUS_WAYS_RETIRED n)).testBit w
  | .mesaTag n _ w _ => (s.get (R.MESA_WAY_STATUS_WAYS_RETIRED n)).testBit w
  | .mesaVictim n _ _ => s.get (R.MESA_WAY_STATUS_VC_RETIRED n) == 1
  | .l1i .. | .l1d .. | .regs .. | .mesaPlru .. | .meterAcc .. | .meterTotal .. | .xce _ | .iommu | .homeBuf .. | .tvxSram | .other => false

/-! ## Blocks -/

/-- The bank of a block (R337), its line address where it has one, and the way or index that info_i names (R338). -/
def State.arrPlace (s : State) : ArrLoc → Nat × Nat × Nat
  | .l1i h set w _ => (bankCore h, (s.l1i h set w).line, w)
  | .l1d h set w _ => (bankCore h, (s.l1d h set w).line, w)
  | .l2Data h set w => (bankCore h, (s.l2 h set w).line, w)
  | .l2Tag h set w _ => (bankCore h, (s.l2 h set w).line, w)
  | .vcData d sl set w => (bankDie d, (s.vc d sl set w).line, w)
  | .vcTag d sl set w _ => (bankDie d, (s.vc d sl set w).line, w)
  | .sf d b set w _ => (bankDie d, (s.sf d b set w).line, w)
  | .dir n set w _ => (bankHome n, if (s.dirE n set w).state = 0 then 0 else s.gaOfD (dirLine n set (s.dirE n set w).tag) / 64, w)
  | .rpt n set w _ => (bankHome n, if (s.rptE n set w).rstate = 0 then 0 else s.gaOfD (rptLine n set (s.rptE n set w).tag) / 64, w)
  | .rld n set w _ => (bankHome n, if (s.rldE n set w).pstate = 0 then 0 else rldLine n set (s.rldE n set w).tag / 64, w)
  | .mesaData n set w b =>
    (bankMesa n, if (s.sec n set w).valid.testBit b then s.gaOfD (sectorLine n set (s.sec n set w).tag b * 64) / 64 else 0, w)
  | .mesaTag n set w _ =>
    (bankMesa n, if (s.sec n set w).valid = 0 then 0 else s.gaOfD (sectorBase n set (s.sec n set w).tag) / 64, w)
  | .mesaPlru n _ => (bankMesa n, 0, 0)
  | .mesaVictim n e _ => (bankMesa n, 0, e)
  | .regs h _ => (bankCore h, 0, 0)
  | .meterAcc .. => (bankTvx, 0, 0)
  | .meterTotal .. => (bankTvx, 0, 0)
  | .xce _ => (bankXce, 0, 0)
  | .iommu => (bankIommu, 0, 0)
  | .homeBuf n k => (bankHome n, match (s.home.wbHeld.filter (fun e => e.1 == n.val))[k]? with | some e => e.2.addr | none => 0, k)
  | .tvxSram => (bankTvx, 0, 0)
  | .other => (bankPkg, 0, 0)

/-- Is the array powered, so that the patrol reads it? -/
def State.arrUp (s : State) (x : ArrLoc) : Bool :=
  match x with
  | .l1i h .. => s.hostUp && s.coreUp h
  | .l1d h .. => s.hostUp && s.coreUp h
  | .regs h _ => s.hostUp && s.coreUp h
  | .l2Data h .. => s.hostUp && s.dieOnline (h.val / 32)
  | .l2Tag h .. => s.hostUp && s.dieOnline (h.val / 32)
  | .vcData d .. => s.hostUp && s.dieOnline d
  | .vcTag d .. => s.hostUp && s.dieOnline d
  | .sf d .. => s.hostUp && s.dieOnline d
  | .tvxSram => s.tvx.alive
  | .mesaData n .. => s.hostUp && s.get (R.MESA_STATUS_STATE n) != mesaBYPASS
  | _ => s.hostUp

/-- Does a block hold the corrupt marker (R328)? -/
def State.arrMarked (s : State) : ArrLoc → Bool
  | .l2Data h set w => (s.l2 h set w).st != .i && (s.l2 h set w).bad
  | .vcData d sl set w => (s.vc d sl set w).valid && (s.vc d sl set w).bad
  | .homeBuf n k => match (s.home.wbHeld.filter (fun e => e.1 == n.val))[k]? with | some e => e.2.poison | none => false
  | _ => false

/-- Bits of a block are inverted and no read can tell (R325). Only the blocks whose layout the spec gives, and which hold
data of their own, change (notes/assumptions/42.md). -/
def State.arrFlip (s : State) (x : ArrLoc) (k : Nat) : State :=
  let line (l : Line) : Line := l ^^^ BitVec.ofNat 512 k
  match x with
  | .l1i h set w none =>
    let e := s.l1i h set w
    if e.valid then s.setL1i h set w { e with data := line e.data } else s
  | .l2Data h set w =>
    let e := s.l2 h set w
    if e.st = .i then s else s.setL2 h set w { e with data := line e.data }
  | .vcData d sl set w =>
    let e := s.vc d sl set w
    if e.valid then s.setVc d sl set w { e with data := line e.data } else s
  | .mesaData n set w b =>
    let e := s.sec n set w
    let l := sectorLine n set e.tag b
    if e.valid.testBit b then s.setMesaLine l (line (s.mesaLine l)) else s
  | .dir n set w true => let e := s.dirE n set w; s.setDirE n set w { e with tag := e.tag ^^^ k }
  | .dir n set w false =>
    let e := s.dirE n set w
    s.setDirE n set w { e with
      state := e.state ^^^ bits k 0 2, presence := e.presence ^^^ bits k 2 12, owner := e.owner ^^^ bits k 14 4,
      remote := e.remote ^^ k.testBit 18, nru := e.nru ^^ k.testBit 19 }
  | .rpt n set w true => let e := s.rptE n set w; s.setRptE n set w { e with tag := e.tag ^^^ k }
  | .rpt n set w false =>
    let e := s.rptE n set w
    s.setRptE n set w { e with
      members := e.members ^^^ bits k 0 32, rstate := e.rstate ^^^ bits k 32 2, rowner := e.rowner ^^^ bits k 34 5,
      nru := e.nru ^^ k.testBit 39 }
  | .rld n set w true => let e := s.rldE n set w; s.setRldE n set w { e with tag := e.tag ^^^ k }
  | .rld n set w false =>
    let e := s.rldE n set w
    s.setRldE n set w { e with
      pstate := e.pstate ^^^ bits k 0 2, presence := e.presence ^^^ bits k 2 12, owner := e.owner ^^^ bits k 14 4,
      nru := e.nru ^^ k.testBit 18 }
  | .mesaTag n set w true => let e := s.sec n set w; s.setSec n set w { e with tag := e.tag ^^^ k }
  | .mesaTag n set w false =>
    let e := s.sec n set w
    s.setSec n set w { e with valid := e.valid ^^^ bits k 0 16, mcid := e.mcid ^^^ bits k 16 10 }
  | .mesaPlru n set => s.setPlru n set (s.plru n set ^^^ k)
  | _ => s

/-! ## Uncorrectable blocks (R330) -/

/-- A clean L2 copy goes as a silent eviction, its bytes lost. -/
def State.l2Lose (s : State) (h set w : Nat) : State :=
  let e := s.l2 h set w
  if e.st = .i then s
  else
    let d := h / 32
    let st := s.dieSt d e.line
    let s := ((s.l1dDrop h e.line).resvDrop h e.line).setL2 h set w {}
    let f := s.sfLine d e.line
    let s := s.setSfLine d e.line { f with pres := without f.pres (h % 32), ownerV := f.ownerV && f.owner != h % 32 }
    match s.vcWay d e.line with
    | some v => s.setVcLine d e.line v { s.vcLine d e.line v with dst := st }
    | none => s

/-- An L2 tag or state block is lost: every line of its set that the snoop filter lists for the core goes; those that it
held in M or O go home with POISON = 1. -/
def State.l2SetLost (s : State) (h set : Nat) : State :=
  let d := h / 32
  foldN 16 s (fun w s =>
    let e := s.l2 h set w
    if dirtyMoesi e.st then s.leaveDie d e.line e.rcid e.mcid e.data true e.st none else s.l2Lose h set w)

/-- A snoop-filter block is lost: every L2 of the die gives up its lines of that bank and set (R68, R72). -/
def State.sfSetLost (s : State) (d b set w : Nat) : State :=
  let mine := s.core.l2.filter (fun e => e.1 / 32768 / 32 == d && e.2.st != .i && valeSlice (e.2.line * 64) == b &&
    valeSet (e.2.line * 64) == set)
  let s := mine.foldl (fun s e => s.l2Evict (e.1 / 32768) (e.1 / 16 % 2048) (e.1 % 16) none) s
  s.setSf d b set w {}

/-- A Vale cache tag or state block is lost: the homes and proxies sweep the set's lines that the die owns. -/
def State.vcSetLost (s : State) (d : Die) (sl : Fin 16) (set : Fin 4096) (w : Nat) : State :=
  let s := s.setVc d sl set w {}
  let s : State := { s with die := { s.die with sweep := (d.val, sl.val, set.val) :: s.die.sweep.filter (fun e => e != (d.val, sl.val, set.val)) } }
  foldN 16 s (fun n s => s.walkStart (.vcTag d sl set (Fin.ofNat 16 n)))

/-- A data line of the L2 or the Vale cache that the patrol cannot read: from E or S it goes, from M or O it is marked in
place. -/
def State.l2DataLost (s : State) (h set w : Nat) : State :=
  let e := s.l2 h set w
  if e.st = .i then s
  else if dirtyMoesi (s.dieSt (h / 32) e.line) then s.setL2 h set w { e with bad := true }
  else s.l2Lose h set w
def State.vcDataLost (s : State) (d sl set w : Nat) : State :=
  let e := s.vc d sl set w
  if !e.valid then s
  else if dirtyMoesi (s.dieSt d e.line) then s.setVc d sl set w { e with bad := true }
  else s.setVc d sl set w {}

/-- A directory, RPT or RLD set goes into broadcast mode (spec/04 R119). -/
def State.bcastSet (s : State) (n key : Nat) : State :=
  if s.home.bcast.contains key then s
  else
    let s : State := { s with home := { s.home with bcast := key :: s.home.bcast } }
    if key < 2 ^ 20 then s.put (R.HOME_BCAST_BROADCAST_SETS n) (s.get (R.HOME_BCAST_BROADCAST_SETS n) + 1) else s

/-- A directory or RPT entry whose state is lost: every die and every member is asked for the line (spec/04 R119). -/
def State.entryRecall (s : State) (n line : Nat) : State :=
  match s.freeSlot n with
  | none => s
  | some h =>
    let s := s.freeDir n (s.dOfLine line)
    let req : Msg := { vc := vcSNP, opc := 0, srcPkg := s.pkgId, srcAgent := agHOME + n, dstPkg := s.pkgId,
                       dstAgent := agHOME + n, txn := h, addr := line }
    let all := s.everyHolder
    let t : HTxn := { line := line, proxy := false, work := .walk, req := req, phase := .acks, invs := all, bcast := true,
                      toHome := true, since := s.pwr.now }
    ((s.setLock n h (some t)).snoopAll n h t opFWD_OWN all true).txnProceed n h

/-- An RLD entry whose state is lost: every die of the package is asked (R330). -/
def State.rldRecall (s : State) (n line : Nat) : State :=
  match s.freeSlot n with
  | none => s
  | some h =>
    let s := s.writeRld n (line * 64) {}
    let req : Msg := { vc := vcSNP, opc := 0, srcPkg := s.pkgId, srcAgent := agHOME + n, dstPkg := s.pkgId,
                       dstAgent := agHOME + n, txn := h, addr := line }
    let t : HTxn := { line := line, proxy := true, work := .walk, req := req, phase := .acks, since := s.pwr.now }
    (s.pxAskAll n h t).pxProceed n h

/-- Change the `k`th writeback that home `n` holds. -/
def heldUpd (n : Nat) (f : Msg → Msg) : Nat → List (Nat × Msg) → List (Nat × Msg)
  | _, [] => []
  | k, e :: l => if e.1 = n then (if k = 0 then (e.1, f e.2) :: l else e :: heldUpd n f (k - 1) l) else e :: heldUpd n f k l

/-- An XCE array holds what cannot be corrected: the oldest descriptor that function `f` has started ends BUS_ERROR, with
nothing more of it issued (R330). -/
def State.xferLost (s : State) (f : Nat) : State :=
  match ((List.range 8).filterMap (fun q => ((s.qp f q).descs.find? (·.started)).map (fun d => (q, d)))).head? with
  | none => s
  | some (q, d) =>
    let d' : XDesc := { d with fail := failMin d.fail (some (min d.next d.total, 1, 7)), next := max d.next d.total }
    if d.live = 0 then s.descEnd f q d' d'.fail
    else s.setQp f q { s.qp f q with descs := (s.qp f q).descs.map (fun y => if y.pos = d.pos then d' else y) }

/-- The outcome of R330 for a block that a read finds uncorrectable. -/
def State.arrLost (s : State) (x : ArrLoc) : State :=
  match x with
  | .l1i h set w _ => s.setL1i h set w {}
  | .l1d h set w _ => s.setL1d h set w {}
  | .l2Data h set w => s.l2DataLost h set w
  | .l2Tag h set _ _ => s.l2SetLost h set
  | .vcData d sl set w => s.vcDataLost d sl set w
  | .vcTag d sl set w _ => s.vcSetLost d sl set w
  | .sf d b set w _ => s.sfSetLost d b set w
  | .dir n set _ true => s.bcastSet n (n * 65536 + set)
  | .dir n set w false =>
    if (s.dirE n set w).state = 0 then s.setDirE n set w {}
    else s.entryRecall n (s.gaOfD (dirLine n set (s.dirE n set w).tag) / 64)
  | .rpt n set _ true => foldN 8 s (fun i s => s.bcastSet n (n * 65536 + i * 8192 + set))
  | .rpt n set w false =>
    if (s.rptE n set w).rstate = 0 then s.setRptE n set w {}
    else s.entryRecall n (s.gaOfD (rptLine n set (s.rptE n set w).tag) / 64)
  | .rld n set _ true => s.bcastSet n (2 ^ 20 + n * 16384 + set)
  | .rld n set w false =>
    if (s.rldE n set w).pstate = 0 then s.setRldE n set w {}
    else s.rldRecall n (rldLine n set (s.rldE n set w).tag / 64)
  | .mesaData n set w b =>
    let e := s.sec n set w
    s.setSec n set w { e with valid := setBits e.valid b 1 0 }
  | .mesaTag n set w _ =>
    let s := s.cancelSector n set (s.sec n set w).tag
    ((s.mesaDropWay n set w).bump (R.MESA_ERR_STATS_TAG_DROPS n) 1).put (R.MESA_EVENT_TAG_DROP n) 1
  | .mesaPlru n set => s.setPlru n set 0
  | .mesaVictim n e _ =>
    match (s.vict n)[e.val]? with
    | some v => s.victDrop n (fun y => y == v)
    | none => s
  | .regs h _ => match execCoreLogicError h s with | .next t => t | _ => s
  | .meterAcc b q m => s.setMeter { s.meter with bad := s.meter.bad ++ [(b.val, q.val, some m.val)] }
  | .meterTotal b q => s.setMeter { s.meter with bad := s.meter.bad ++ [(b.val, q.val, none)] }
  | .xce f => (s.xferLost f).xceAer f 22
  | .iommu => s.xceAer 0 22
  | .homeBuf n k => { s with home := { s.home with wbHeld := heldUpd n (fun m => { m with poison := true }) k s.home.wbHeld } }
  | .tvxSram => s.mgmtReset .sram
  | .other => s

/-- Is the error urgent (spec/04 R119, R330)? -/
def arrUrgent : ArrLoc → Bool
  | .dir _ _ _ t => t
  | .rpt _ _ _ t => t
  | .rld _ _ _ t => t
  | .regs .. => true
  | .other => true
  | _ => false

/-- Has the block's line a lock, so that the patrol's read waits for it? -/
def State.arrBusy (s : State) (x : ArrLoc) : Bool :=
  let line := (s.arrPlace x).2.1
  match x with
  | .dir n _ _ false => s.lineBusy n line
  | .rpt n _ _ false => s.lineBusy n line
  | .rld n _ _ false => s.lineBusy n line
  | _ => false

/-- Record an error of a block and charge its bucket (R329, R330, R338). Uncorrectable core state and XCE arrays make their
own records (spec/02 R55, spec/11 R282). -/
def State.arrError (s : State) (x : ArrLoc) (sev : Nat) (syn : Nat × Nat) (marker : Bool) : State :=
  let p := s.arrPlace x
  let k := bucketOf x
  let r := if s.retiredArr x then (s, false) else s.charge k.1 k.2 (sev != errCE)
  let own : Bool := sev != errCE && (match x with | .regs .. => true | .xce _ => true | _ => false)
  let s := if own then r.1 else r.1.errRecord p.1 sev (p.2.1 * 64) (recInfo 0 0 0 s.pkgId k.1 (r.1.bucket k.1 k.2).level p.2.2)
    (syn.1 + syn.2 <<< 17 + b2n marker <<< 50)
  if r.2 then s.permanent x else s

/-- The inverted cells of a block that no read has met, and a block that a read has met (R324). -/
def State.flaw (s : State) (x : ArrLoc) : List (Nat × Nat) := (s.ras.flaws.filter (fun e => e.1 == x)).flatMap (·.2)
def State.unflaw (s : State) (x : ArrLoc) : State :=
  { s with ras := { s.ras with flaws := s.ras.flaws.filter (fun e => e.1 != x) } }

/-- A read of block `x` whose cells `bad` are inverted (R325, R329, R330): clean or miscorrected, mended, or lost. A block whose
line has a lock is read when that is free. -/
def State.arrRead (s : State) (x : ArrLoc) (bad : List (Nat × Nat)) : State :=
  let g := gridOf x
  let cells := bad.filter g.stored
  let syn := g.syndromes (s.arrMarked x) cells
  let f := g.decode syn
  match f with
  | .clean => (s.unflaw x).arrFlip x (g.residue cells f)
  | .one _ =>
    let s := ((s.unflaw x).arrFlip x (g.residue cells f)).arrError x errCE syn false
    match x with
    | .xce _ => s.xceMended
    | .mesaData n .. => s.bump (R.MESA_ERR_STATS_CORRECTED n) 1
    | .mesaTag n .. => s.bump (R.MESA_ERR_STATS_CORRECTED n) 1
    | .mesaPlru n .. => s.bump (R.MESA_ERR_STATS_CORRECTED n) 1
    | .mesaVictim n .. => s.bump (R.MESA_ERR_STATS_CORRECTED n) 1
    | _ => s
  | _ =>
    if s.arrBusy x then s
    else ((s.unflaw x).arrError x (if arrUrgent x then errUEC else errUED) syn (f == .marker)).arrLost x

/-- ONCHIP_PATROL_BLOCK: the patrol reads block `x`, whose cells `bad` (row, column) are inverted beside those that are
already (R333). -/
def execOnchipPatrolBlock (x : ArrLoc) (bad : List (Nat × Nat)) (s : State) : Out :=
  if s.arrUp x then .next (s.arrRead x (s.flaw x ++ bad)) else .next s

/-! ## Bucket windows (R335, R336) -/

/-- The length of a window in ns, by its code. -/
def windowNs (code : Nat) : Nat := [4000, 100000, 1000000, 10000000, 100000000, 1000000000, 10000000000, 100000000000].getD code 0

/-- BUCKET_WINDOW_BOUNDARY: at the class's next window boundary every bucket of the class leaks, its run is judged, and
figures written since take effect. -/
def execBucketWindowBoundary (k : Fin 15) (s : State) : Out :=
  if s.pwr.stage = .off then .next s
  else
    let win := windowNs (bits (s.bucketCfg k) 0 3)
    let s := s.elapseTo ((s.pwr.now / win + 1) * win)
    let rate := s.bucketRate k
    let s : State := { s with ras := { s.ras with
      cfgNow := Tbl.set bucketDefault s.ras.cfgNow k (s.reg (R.rRAS_BUCKET_CFG k)).toNat } }
    let top := s.bucketLimit k + s.bucketRate k - 1
    let keys := s.ras.buckets.filterMap (fun e => if e.1 / 2 ^ 40 = k.val then some (e.1 % 2 ^ 40) else none)
    let s := keys.foldl (fun s i =>
      let b := (s.bucket k i).leak rate
      let lv := min b.level top
      s.setBucket k i { b with level := lv, hot := decide (s.bucketLimit k ≤ lv) }) s
    .next (
      if k.val = 7 then { s with pass := { s.pass with ends := s.pass.ends.filterMap (fun e =>
        let y : PEnd := { e.2 with win := [] }; if y = {} then none else some (e.1, y)) } }
      else if k.val = 12 then { s with hzn := { s.hzn with ports := s.hzn.ports.filterMap (fun e =>
        let y : HPortSt := { e.2 with win := [] }; if y = {} then none else some (e.1, y)) } }
      else s)

end Sys2Proof.Machine
end

