-- ==== Sys2Proof/Machine/Demand.lean ====
section
/-!
DEFINITION. Demand reads of the on-chip arrays (spec/14_stored_data_protection.md R329, R330): a command that reads blocks
first meets the inverted cells that they hold, as the patrol would. Upsets come in the nanoseconds in which no command runs
(notes/assumptions/42.md).
-/

namespace Sys2Proof.Machine

/-- The blocks that `p` selects are read: what is wrong with them has the outcome of R330 before the access goes on. A Mesa
block that a read loses is refetched from memory, and counted (spec/08 R208). -/
def State.demand (s : State) (p : State → ArrLoc → Bool) (refetch : Bool) : State :=
  (s.ras.flaws.map (·.1)).foldl (fun s x =>
    if p s x && s.arrUp x && s.ras.flaws.any (fun e => e.1 == x) then
      let held := match x with | .mesaData n set w b => (s.sec n set w).valid.testBit b | _ => false
      let s := s.arrRead x (s.flaw x)
      match x with
      | .mesaData n set w b =>
        if held && refetch && !(s.sec n set w).valid.testBit b then s.bump (R.MESA_ERR_STATS_REFETCHED n) 1 else s
      | _ => s
    else s) s

/-- The blocks that a lookup of line address `line` at its home or proxy reads: its sets of the directory, the RPT, the RLD, the
Mesa tags and replacement values, the victim tags, and the Mesa block that holds the line. -/
def State.homeReads (line : Nat) (s : State) (x : ArrLoc) : Bool :=
  let d := s.dOfLine line
  let n' := s.homeSlice (line * 64)
  let mine (n : Ix16) (set want : Nat) : Bool := n.val == n' && set == want
  match x with
  | .dir n set _ _ => s.lineLocal line && mine n set (dirSet d)
  | .rpt n set _ _ => s.lineLocal line && mine n set (rptSet d)
  | .rld n set _ _ => !s.lineLocal line && mine n set (rldSet (line * 64))
  | .mesaTag n set _ _ => s.lineLocal line && mine n set (mesaSet d)
  | .mesaPlru n set => s.lineLocal line && mine n set (mesaSet d)
  | .mesaData n set w b => s.lineLocal line && mine n set (mesaSet d) && sectorLine n set (s.sec n set w).tag b == d / 64
  | .mesaVictim n e part =>
    s.lineLocal line && n.val == n' && (decide (16 ≤ part.val) ||
      (match (s.vict n)[e.val]? with | some v => sectorLine n v.set v.sec.tag part.val == d / 64 | none => false))
  | .homeBuf n _ => n.val == n'
  | _ => false

/-- The blocks that a lookup of a line at a die reads: its sets of the Vale cache tags and the snoop filter, the copies of the
line in the Vale cache and the L2s, and the L2 tags of the cores that the snoop filter lists. -/
def State.dieReads (d line : Nat) (s : State) (x : ArrLoc) : Bool :=
  match x with
  | .vcTag d' sl set _ _ => d'.val == d && sl.val == valeSlice (line * 64) && set.val == valeSet (line * 64)
  | .sf d' b set _ _ => d'.val == d && b.val == valeSlice (line * 64) && set.val == valeSet (line * 64)
  | .vcData d' sl set w => d'.val == d && (s.vc d' sl set w).valid && (s.vc d' sl set w).line == line
  | .l2Tag h set _ _ => h.val / 32 == d && set.val == l2Set line && (s.sfLine d line).pres.testBit (h.val % 32)
  | .l2Data h set w => h.val / 32 == d && (s.l2 h set w).st != .i && (s.l2 h set w).line == line
  | _ => false

/-- The blocks that an access of a hart reads: its registers, its L1s and L2 for the line, and those of its die. -/
def State.hartReads (h : Hart) (line : Nat) (s : State) (x : ArrLoc) : Bool :=
  match x with
  | .regs h' _ => h' == h
  | .l1i h' set _ _ => h' == h && set.val == l1Set line
  | .l1d h' set _ _ => h' == h && set.val == l1Set line
  | .l2Tag h' set _ _ => h' == h && set.val == l2Set line
  | .l2Data h' set w => h' == h && set.val == l2Set line && (s.l2 h set w).line == line
  | _ => s.dieReads (h.val / 32) line x

/-- A hart's access reads its blocks: those of its first and its last line. -/
def State.demandHart (s : State) (h : Hart) (x : Access) : State :=
  let a := x.ga / 64
  let b := (x.ga + (x.size - 1)) / 64
  s.demand (fun s y => s.hartReads h a y || s.hartReads h b y) true

/-- A message in flight reads blocks where it arrives. A write that meets a bad Mesa block refetches nothing. -/
def State.demandMsg (s : State) (m : Msg) : State :=
  if s.net.contains m ∧ m.dstPkg = s.pkgId then
    if m.dstAgent < 12 then s.demand (fun s y => s.dieReads m.dstAgent m.addr y) true
    else if isHomeAgent m.dstAgent then s.demand (fun s y => s.homeReads m.addr y) (m.vc == vcREQ && m.opc != opWR_FULL)
    else s
  else s

/-- A flush walk reads the line that it reaches. -/
def State.demandFlush (s : State) (u : FlushUnit) : State :=
  match s.flushLines u with
  | ix :: _ => s.demand (fun s y => s.dieReads (flushDie u) (s.flushAt u ix) y) true
  | [] => s

/-- The stored copy of an item decays (spec/15 R361). -/
def State.rotItem (s : State) (place k : Nat) : State :=
  let t := s.tvx
  if place < 2 then
    let x := if place = 0 then t.set0 else t.set1
    s.putSetSlot place { x with rot := x.rot.filter (· != k) ++ [k] }
  else s.setTvx { t with recs := { t.recs with rot := t.recs.rot.filter (· != k) ++ [k] } }

/-- What decays in flash, if anything does. -/
def State.flashDecay (s : State) (e : Option (Nat × Nat)) : State :=
  match e with
  | some x => s.rotItem x.1 x.2
  | none => s

/-- The upset of an on-chip array, if there is one (spec/14 R324). -/
def State.cellUpset (s : State) (e : Option (ArrLoc × List (Nat × Nat))) : State :=
  match e with
  | some x => { s with ras := { s.ras with flaws := s.ras.flaws ++ [x] } }
  | none => s

/-- One nanosecond with no command: time passes, an upset may invert cells, and a stored copy in flash may decay. -/
def State.idle (s : State) : State :=
  let s := s.elapse 1
  let k := s.free
  (({ s with free := k + 1 } : State).flashDecay (Config.flashRot k)).cellUpset (Config.upset k)

end Sys2Proof.Machine
end

