-- ==== Sys2Proof/Machine/Ccol.lean ====
section
/-!
DEFINITION. The counter collector (spec/18_counters.md R405, R406, R408 to R411).
-/

namespace Sys2Proof.Machine

/-- May software write counter `j` of bank `b`: it exists, and its die is online (R405, R408)? -/
def State.ctrOpen (s : State) (b j : Nat) : Bool :=
  decide (j < bankCounters b) && (match bankDieOf b with | some d => s.dieOnline d | none => true)

/-- CCOL_SELECT_WRITE: the selection changes; CLEAR zeroes the count and its overflow bit. -/
def execCcolSelectWrite (b : Fin 354) (j : Fin 32) (v : Word) (s : State) : Out :=
  if s.ctrOpen b j then
    let s := s.setReg (R.rCCOL_SELECT b j) (v &&& 0x2FFFFF7FFFF)
    .next (if v.toNat.testBit 40 then s.setReg (R.rCCOL_COUNT b j) 0 else s)
  else .next s

/-- COUNTER_CLEAR: CLEAR alone. -/
def execCounterClear (b : Fin 354) (j : Fin 32) (s : State) : Out :=
  .next (if s.ctrOpen b j then s.setReg (R.rCCOL_COUNT b j) 0 else s)

/-- CCOL_COUNT_WRITE: COUNT takes the value written; OVF falls where 1 is written to it. -/
def execCcolCountWrite (b : Fin 354) (j : Fin 32) (v : Word) (s : State) : Out :=
  if s.ctrOpen b j then
    let s := s.put (R.CCOL_COUNT_COUNT b j) v.toNat
    .next (if v.toNat.testBit 48 then s.put (R.CCOL_COUNT_OVF b j) 0 else s)
  else .next s

/-- COUNTER_FREEZE: every uncore counter stops (R409). -/
def execCounterFreeze (s : State) : Out := .next (s.put R.CCOL_CTL_FREEZE 1)

/-- COUNTER_UNFREEZE: every uncore counter counts again. -/
def execCounterUnfreeze (s : State) : Out := .next (s.put R.CCOL_CTL_FREEZE 0)

/-! ## The sweep (R410, R411) -/

/-- The interval of CCOL_CTL.INTERVAL, in ns. -/
def State.sweepEvery (s : State) : Nat := 100000 * 10 ^ s.get R.CCOL_CTL_INTERVAL

/-- The banks that a sweep samples, rising. -/
def State.sweepBanks (s : State) : List Nat :=
  (List.range 354).filter (fun b => (s.get (R.CCOL_BANK_EN_EN (b / 64))).testBit (b % 64))

/-- Bytes padded with zeros to a multiple of 64. -/
def pad64 (l : List Nat) : List Nat := l ++ List.replicate ((64 - l.length % 64) % 64) 0

/-- A bank record, sampled at `t`. -/
def State.bankRecord (s : State) (b t : Nat) : List Nat :=
  let off := match bankDieOf b with | some d => !s.dieOnline d | none => false
  let n := bankCounters b
  pad64 (leBytes 2 b ++ [n, b2n off + 2 * s.get R.CCOL_CTL_FREEZE, 0, 0, 0, 0] ++ leBytes 8 t ++
    (List.range n).flatMap (fun j => leBytes 8 ((s.reg (R.rCCOL_COUNT b j)).toNat % 2 ^ 49)))

/-- A sweep of boundary `t`. A bank's sample lies within 50 µs of the boundary; where is open. -/
def State.sweepBytes (s : State) (t : Nat) : List Nat × State :=
  let at' (b : Nat) : Nat := t + (Config.freeWord (s.free + b)).toNat % 50001
  let banks := s.sweepBanks
  let recs := banks.flatMap (fun b => s.bankRecord b (at' b))
  let last := banks.foldl (fun m b => max m (at' b)) t
  let head := leBytes 4 (s.get R.CCOL_STATUS_SWEEP_SEQ + 1) ++ leBytes 2 banks.length ++ [0, 0] ++ leBytes 8 t ++
    leBytes 8 last ++ leBytes 4 (64 + recs.length)
  (pad64 head ++ recs, { s with free := s.free + 354 })

/-- CCOL_SWEEP: at the next multiple of the interval the enabled banks are sampled, and the sweep is written as ordered
full-line writes where the ring has room and the one before it has been written. -/
def execCcolSweep (s : State) : Out :=
  if s.get R.CCOL_CTL_SWEEP_ENABLE = 0 then .next s
  else
    let every := s.sweepEvery
    let t := (max s.pwr.now s.ccol.next + every - 1) / every * every
    let s := s.elapseTo t
    let s : State := { s with ccol := { s.ccol with next := t + 1 } }
    let (bs, s) := s.sweepBytes t
    let size := 2 ^ s.get R.CCOL_RING_SIZE_LOG2_BYTES
    let prod := s.get R.CCOL_RING_PROD_PROD
    let used := (prod + 2 ^ 32 - s.get R.CCOL_RING_CONS_CONS) % 2 ^ 32
    if size < used + bs.length ∨ s.ccol.writing ≠ 0 then .next (s.bump R.CCOL_STATUS_SWEEPS_SKIPPED 1)
    else
      let base := s.get R.CCOL_RING_BASE_BASE * 4096
      let lines := (List.range (bs.length / 64)).map (fun i => (i, base + (prod + 64 * i) % size, (bs.drop (64 * i)).take 64))
      let s : State := { s with ccol := { s.ccol with writing := lines.length, done := 0, len := bs.length } }
      match s.ringLines streamCCOL 1 (fun i => .ccol i) lines with
      | (s, none) => .next s
      | (s, some ga) => .next (s.sweepLine 0 false ga)

end Sys2Proof.Machine
end

