-- ==== Sys2Proof/Machine/Bundle.lean ====
section
/-!
DEFINITION. Firmware bundles, staging and activation (spec/16_firmware_bundles.md), and what a POR keeps (spec/17 R397,
R401).
-/

namespace Sys2Proof.Machine

/-! ## Bundles (R364 to R367) -/

/-- "HQBUNDLE". -/
def magicBundle : List Nat := [0x48, 0x51, 0x42, 0x55, 0x4E, 0x44, 0x4C, 0x45]

/-- The largest image of each component (R364). -/
def imageMax : List Nat := [0x20000, 0x300000, 0x100000, 0x100000, 0x400000, 0x200000, 0x200000]

def bundleMax : Nat := 0x2000000
def bundleSetId (b : List Nat) : Nat := field b 64 4
def bundleSchema (b : List Nat) : Nat := field b 68 2
/-- Component entry `i`: where it lies, and its VERSION, OFFSET and LENGTH (R366). -/
def entryAt (i : Nat) : Nat := 128 + 64 * i
def entryVersion (b : List Nat) (i : Nat) : Nat := field b (entryAt i + 4) 4
def entryOffset (b : List Nat) (i : Nat) : Nat := field b (entryAt i + 8) 4
def entryLength (b : List Nat) (i : Nat) : Nat := field b (entryAt i + 12) 4

/-- MAGIC, FORMAT, BUNDLE_LENGTH, SIG_OFFSET and the zero fields. -/
def bundleFormat (b : List Nat) : Bool :=
  b.take 8 == magicBundle && field b 8 2 == 1 && field b 16 4 == b.length && decide (b.length ≤ bundleMax) &&
  field b 20 4 + 96 == b.length && field b 11 5 == 0 && field b 24 40 == 0 && field b 79 49 == 0 &&
  (List.range 7).all (fun i => field b (entryAt i + 1) 3 == 0)

/-- The bytes that the signature covers, and the signature. -/
def bundleBody (b : List Nat) : List Nat := b.take (field b 20 4)
def bundleSig (b : List Nat) : List Nat := (b.drop (field b 20 4)).take 96

/-- The stepping list names this part's stepping. -/
def bundleStepping (b : List Nat) (stepping : Nat) : Bool :=
  let n := field b 70 1
  decide (1 ≤ n) && decide (n ≤ 8) && (List.range n).any (fun i => field b (71 + i) 1 == stepping)

/-- Is entry `i` valid: its index, its size, its place, and no image of a lower index over it? -/
def entryOk (b : List Nat) (i : Nat) : Bool :=
  let o := entryOffset b i
  let n := entryLength b i
  field b (entryAt i) 1 == i && decide (n ≤ imageMax.getD i 0) && o % 4096 == 0 && decide (576 ≤ o) &&
  decide (o + n ≤ field b 20 4) &&
  (List.range i).all (fun j => decide (entryOffset b j + entryLength b j ≤ o) || decide (o + n ≤ entryOffset b j))

/-- Does an image have the digest of its entry? -/
def imageOk (b : List Nat) (i : Nat) : Bool :=
  sha384 ((b.drop (entryOffset b i)).take (entryLength b i)) == (b.drop (entryAt i + 16)).take 48

/-- The first of the first six checks of R367 that fails: its reason and the component concerned. -/
def bundleErr (b : List Nat) (stepping : Nat) : Option (Nat × Nat) :=
  let k := field b 10 1
  if !bundleFormat b then some (1, 0xFF)
  else if !(decide (k < 2) && Config.sigOk k (sha384 (bundleBody b)) (bundleSig b)) then some (2, 0xFF)
  else if Config.keyRevoked k then some (3, 0xFF)
  else if !bundleStepping b stepping then some (4, 0xFF)
  else match (List.range 7).find? (fun i => !entryOk b i) with
    | some i => some (6, i)
    | none =>
      match (List.range 7).find? (fun i => !imageOk b i) with
      | some i => some (5, i)
      | none => none

/-! ## The slot directory (R369) -/

/-- The record in force: the valid copy with the higher DIR_SEQ. -/
def State.dirRec (s : State) : Option DirRec :=
  match s.tvx.dir0, s.tvx.dir1 with
  | some a, some b => some (if a.seq < b.seq then b else a)
  | some a, none => some a
  | none, x => x

/-- The record, or one that names slot A with both slots empty. -/
def State.dir (s : State) : DirRec := s.dirRec.getD {}

/-- Write a new record into the copy that holds the older one. -/
def State.dirWrite (s : State) (r : DirRec) : State :=
  let r : DirRec := { r with seq := s.dir.seq + 1 }
  let newer0 : Bool := match s.tvx.dir0, s.tvx.dir1 with
    | some a, some b => decide (b.seq ≤ a.seq)
    | some _, none => true
    | none, _ => false
  if newer0 then s.setTvx { s.tvx with dir1 := some r } else s.setTvx { s.tvx with dir0 := some r }

def slotEMPTY : Nat := 0
def slotCOPYING : Nat := 1
def slotCOMPLETE : Nat := 2
def slotREJECTED : Nat := 3

def DirRec.state (r : DirRec) (i : Nat) : Nat := if i = 0 then r.stA else r.stB
def DirRec.setId (r : DirRec) (i : Nat) : Nat := if i = 0 then r.idA else r.idB
/-- The record with a slot's state and SET_ID. -/
def DirRec.slot (r : DirRec) (i st id : Nat) : DirRec :=
  if i = 0 then { r with stA := st, idA := id } else { r with stB := st, idB := id }

def State.slotBytes (s : State) (i : Nat) : List Nat := if i = 0 then s.tvx.slotA else s.tvx.slotB
def State.setSlotBytes (s : State) (i : Nat) (b : List Nat) : State :=
  if i = 0 then s.setTvx { s.tvx with slotA := b } else s.setTvx { s.tvx with slotB := b }

/-- The slot that is not ACTIVE. -/
def State.target (s : State) : Nat := 1 - s.dir.active

def State.stepping (s : State) : Nat := s.get R.PKG_IDENT_STEPPING

/-! ## Staging (R370, R371) -/

def State.stageBlocks (s : State) : Nat := (s.tvx.stageLen + sectorSize - 1) / sectorSize
def State.stageBlock (s : State) (i : Nat) : List Nat := Tbl.get (fun _ => []) s.tvx.stage i
/-- The lowest block absent from the session. -/
def State.stageGap (s : State) : Option Nat := (List.range s.stageBlocks).find? (fun i => s.stageBlock i == [])
def State.stageDone (s : State) : Bool := decide (0 < s.tvx.stageLen) && s.stageGap.isNone
/-- The staged bundle. -/
def State.stageBytes (s : State) : List Nat := (List.range s.stageBlocks).flatMap s.stageBlock

/-- The session is COMPLETE: the slot that is not active is recorded EMPTY and its erase starts. -/
def State.stageComplete (s : State) : State :=
  let t := s.target
  let s := (s.dirWrite (s.dir.slot t slotEMPTY 0)).setSlotBytes t []
  s.setTvx { s.tvx with erasing := true, prepared := false }

/-- STAGE_BLOCK. Whether the read-back fails is the flash device's, and so open (notes/assumptions/36.md). -/
def execStageBlock (s : State) : Out :=
  .next (s.execHead opSTAGE_BLOCK 8 false (fun c s => s.flashGate (fun s =>
    let off := field c.pkt.data 0 4
    let len := field c.pkt.data 4 4
    if s.tvx.smallFlash then (s, (stDEVICE_ERROR, 0, []))
    else if off % sectorSize ≠ 0 then (s, (stINVALID_ARG, 0, []))
    else if len < 576 ∨ bundleMax < len then (s, (stINVALID_ARG, 4, []))
    else if len ≤ off then (s, (stINVALID_ARG, 0, []))
    else if c.pkt.param ≠ min sectorSize (len - off) then s.badHeader
    else
      let s := if s.tvx.stageLen = len then s else s.setTvx { s.tvx with stageLen := len, stage := [] }
      let was := s.stageDone
      let (bad, s) := s.freeBit
      let blk := if bad then [] else c.data.take c.pkt.param
      let s := s.setTvx { s.tvx with stage := Tbl.set (fun _ => []) s.tvx.stage (off / sectorSize) blk }
      if bad then (s, (stDEVICE_ERROR, 0, []))
      else (if !was && s.stageDone then s.stageComplete else s, (stOK, 0, [])))))

/-- STAGE_STATUS. -/
def execStageStatus (s : State) : Out :=
  .next (s.execHead opSTAGE_STATUS 0 false (fun _ s => s.flashGate (fun s =>
    let n := ((List.range s.stageBlocks).filter (fun i => s.stageBlock i != [])).length
    let gap := match s.stageGap with | some i => i * sectorSize | none => 0xFFFFFFFF
    let d := s.dir
    (s, (stOK, 0, [if s.stageDone then 2 else if 0 < n then 1 else 0] ++ leBytes 4 s.tvx.stageLen ++ leBytes 2 n ++ leBytes 4 gap ++
      [b2n s.tvx.prepared] ++ leBytes 4 (bundleSetId (s.stageBlock 0)) ++ [d.active, d.stA, d.stB] ++ leBytes 4 d.idA ++
      leBytes 4 d.idB)))))

/-- SLOT_ERASE_COMPLETE. -/
def execSlotEraseComplete (s : State) : Out :=
  .next (if s.tvx.erasing then s.setTvx { s.tvx with erasing := false, prepared := true } else s)

/-! ## What a POR keeps (spec/17 R397, R401) -/

/-- The state after a POR: flash contents and fuses stay, the flash device's own pins and what the model keeps of the
outside with them, and Thoiviyx stays as it is where `tvx` says so. GTIME starts at 0. -/
def State.por (s : State) (tvx : Bool) : State :=
  let t := s.tvx
  let cold : TvxSt := {
    log := t.log, nextSeq := t.nextSeq, flashReq := t.flashReq, smallFlash := t.smallFlash, dir0 := t.dir0, dir1 := t.dir1,
    slotA := t.slotA, slotB := t.slotB, stageLen := t.stageLen, stage := t.stage, set0 := t.set0, set1 := t.set1, recs := t.recs,
    host := t.host, ages := t.ages, lanes := t.lanes, warned := t.warned,
    longOp := if s.dir.pending = 0xFF then none else t.longOp }
  let meter : MeterSt := { mflags := flagPARTIAL, keys := s.meter.keys, active := s.meter.active, next := s.meter.next }
  let chan : ChanSt := { journal := s.chan.journal, jNext := s.chan.jNext }
  { pending := s.pending, free := s.free, tvx := if tvx then t else cold, meter := meter, chan := chan }

/-! ## Activation (R372 to R378) -/

def State.setAct (s : State) (a : Option Act) : State := s.setTvx { s.tvx with act := a }

/-- The payload of R377. -/
def actPay (stage comp reason setId : Nat) : List Nat := [stage, comp, reason] ++ leBytes 4 setId

/-- The status of a reason (R377). -/
def actStatus (stage reason : Nat) : Nat :=
  if reason = 0 then stOK
  else if reason ≤ 6 then stINCOMPATIBLE
  else if reason = 7 ∨ reason = 13 then stINVALID_STATE
  else if reason = 10 ∨ (reason = 11 ∧ stage = 4) then stMIGRATION
  else stDEVICE_ERROR

/-- The answer of an activation that a general rule refuses, whose REASON the spec leaves open. -/
def State.actOdd (s : State) (st : Nat) : State × Option Reply :=
  let (w, s) := s.freeWord
  (s, some (st, 0, actPay 1 0xFF (w.toNat % 14) (bundleSetId (s.stageBlock 0))))

/-- The target slot is recorded REJECTED, and nothing is pending (R374). -/
def State.dirReject (s : State) (a : Act) : State :=
  s.dirWrite { s.dir.slot a.target slotREJECTED (s.dir.setId a.target) with pending := 0xFF }

/-- The first check of R367 that fails, reason 7 included, with the component concerned. In recovery mode no set is active
(notes/assumptions/36.md). -/
def State.stageErr (s : State) : Option (Nat × Nat) :=
  match bundleErr s.stageBytes s.stepping with
  | some e => some e
  | none => if !s.tvx.recovery && s.dirRec.isSome && bundleSetId s.stageBytes == s.dir.setId s.dir.active then some (7, 0xFF) else none

/-- ACTIVATE_BUNDLE: steps 1 and the start of step 2. -/
def execActivateBundle (s : State) : Out :=
  .next (s.execLong opACTIVATE 0 (fun c s =>
    if s.tvx.flashGranted then s.actOdd stINVALID_STATE
    else if c.pkt.data ≠ [] then s.actOdd stINVALID_ARG
    else if !s.stageDone then (s, some (stINVALID_STATE, 0, actPay 1 0xFF 13 0))
    else
      let id := bundleSetId s.stageBytes
      let a : Act := { ph := .copy, target := s.target, setId := id }
      match s.stageErr with
      | some (r, comp) => (s.dirReject a, some (actStatus 1 r, 0, actPay 1 comp r (if r = 1 then 0 else id)))
      | none =>
        let s := (s.dirWrite (s.dir.slot a.target slotCOPYING id)).setSlotBytes a.target []
        ((s.setTvx { s.tvx with erasing := false, prepared := false }).setAct (some a), none)))

/-- The order of step 5: the component after `c`. -/
def compNext (c : Nat) : Option Nat := if c = 2 then some 3 else if c = 3 then some 5 else if c = 5 then some 6 else none

/-- A component restarts: what shows that it does not run (PWR_STATUS, XCE_STATUS). -/
def State.compDown (s : State) (c : Nat) : State :=
  if c = ucPWR then s.put R.PWR_STATUS_UC_RUNNING 0 else if c = ucXCE then s.put R.XCE_STATUS_UC_RUNNING 0 else s

/-- The revision range of a component's image, by its VERSION (spec/06 R161, spec/10 R250). -/
def imageRange (c v : Nat) : Nat × Nat :=
  if (Config.imageRevs c v).val = 0 then (2, 2) else if (Config.imageRevs c v).val = 1 then (2, 3) else (3, 3)

/-- The ports show the revision range of the image that runs them (PASS_TRAIN_INFO, HZN_TRAIN_INFO). -/
def State.showRange (s : State) (c v : Nat) : State :=
  let r := imageRange c v
  if c = ucPASS then
    foldN 24 s (fun p s => foldN 2 s (fun e s => (s.put (R.PASS_TRAIN_INFO_REV_MIN e p) r.1).put (R.PASS_TRAIN_INFO_REV_MAX e p) r.2))
  else if c = ucHZN then
    foldN 8 s (fun p s => (s.put (R.HZN_TRAIN_INFO_REV_MIN p) r.1).put (R.HZN_TRAIN_INFO_REV_MAX p) r.2)
  else s

/-- After an activation that has changed the revision range of an image, the ACTIVE ports negotiate again (spec/06 R162,
spec/10 R247). -/
def State.renegotiate (s : State) (old new : Nat) : State :=
  let changed (c : Nat) : Bool := imageRange c (entryVersion (s.slotBytes old) c) != imageRange c (entryVersion (s.slotBytes new) c)
  let s := if changed ucPASS then s.passReneg else s
  if changed ucHZN then ({ s with hzn := { s.hzn with reneg := List.range 8 } } : State).hznReneg else s

/-- A component is ready, on the image of a slot. XCE_UC performs the writes held for it (spec/12 R309). -/
def State.compUp (s : State) (c slot : Nat) : State :=
  let v := entryVersion (s.slotBytes slot) c
  let s := (s.setTvx { s.tvx with vers := Tbl.set (fun _ => 0) s.tvx.vers c v }).showRange c v
  if c = ucPWR then s.put R.PWR_STATUS_UC_RUNNING 1 else if c = ucXCE then s.xceUcUp.xceEvent 4 else s

/-- The old TVX_MAIN answers (R374 step 3). -/
def State.actAnswer (s : State) (a : Act) : State :=
  match a.fail with
  | some (stage, comp, reason) => (s.setAct none).longEnd (actStatus stage reason) 0 (actPay stage comp reason a.setId)
  | none => s

/-- The rollback's next step (R374): the components restarted on the new image go back in reverse order, and then the old
TVX_MAIN, by a restart where the new one runs. -/
def State.rollback (s : State) (a : Act) : State :=
  match a.done with
  | c :: rest => (s.setAct (some { a with ph := .back c, done := rest })).compDown c
  | [] =>
    let s := s.dirReject a
    if s.tvx.runs = a.target then (s.setAct (some { a with ph := .mainOld })).mgmtReset .rollback else s.actAnswer a

/-- The activation fails (R374). -/
def State.actFail (s : State) (a : Act) (stage comp reason : Nat) : State :=
  s.rollback { a with fail := some (stage, comp, reason) }

/-- Step 5 restarts a component. -/
def State.compStart (s : State) (a : Act) (c : Nat) : State :=
  (s.setAct (some { a with ph := .comp c, done := c :: a.done })).compDown c

/-- Time that remains of the minute. -/
def State.minuteLeft (s : State) : Nat := minuteNs - s.pwr.now % minuteNs

/-- PWR_UC restarts only with 30 ms of the minute left, and otherwise waits (R373). -/
def State.pwrStart (s : State) (a : Act) : State :=
  if 30000000 ≤ s.minuteLeft then s.compStart a ucPWR else s.setAct (some { a with ph := .deferPwr })

/-- Step 4: the settings of the ACTIVE slot go, under the new schema, into the slot paired with the target (R378). Whether
the new image represents every item, and whether the write reads back, is open. -/
def State.migrate (s : State) (a : Act) : State :=
  let old := if s.dir.active = 0 then s.tvx.set0 else s.tvx.set1
  let new := bundleSchema (s.slotBytes a.target)
  let (odd, s) := s.freeBit
  let (bad, s) := s.freeBit
  if new < old.schema ∨ (new ≠ old.schema ∧ odd) then s.actFail a 4 0xFF 10
  else if bad then s.actFail a 4 0xFF 11
  else (s.putSetSlot a.target { schema := new, items := old.items }).pwrStart a

/-- Step 6: the commit, and step 7's answer. -/
def State.commit (s : State) (a : Act) : State :=
  let s := s.renegotiate s.dir.active a.target
  let s := (s.dirWrite { s.dir with active := a.target, pending := 0xFF }).setAct none
  (s.logEvent 0x0062 sevINFO noDie 0 a.setId).longEnd stOK 0 (actPay 7 0xFF 0 a.setId)

/-- COMPONENT_READY: the component that the activation waits for is ready. -/
def execComponentReady (s : State) : Out :=
  match s.tvx.act with
  | some a =>
    if !s.tvx.running then .next s
    else match a.ph with
      | .comp c =>
        let s := s.compUp c a.target
        .next (match compNext c with | some n => s.compStart a n | none => s.commit a)
      | .back c => .next ((s.compUp c s.dir.active).rollback a)
      | _ => .next s
  | none => .next s

/-- COMPONENT_READY_TIMEOUT: no report within the bound, or one that the self-test failed (REASON 9 of R377). In a rollback it
is an urgent record, and the rollback goes on (R374). -/
def execComponentReadyTimeout (selfTest : Bool) (s : State) : Out :=
  match s.tvx.act with
  | some a =>
    if !s.tvx.running then .next s
    else match a.ph with
      | .comp c => .next (s.actFail a 5 c (if selfTest then 9 else 8))
      | .back c => .next ((s.errRecord bankTvx errUEC 0 0 c).rollback a)
      | _ => .next s
  | none => .next s

/-- PWR_UC_RESTART_DEFERRED: 5 ms after the minute boundary. -/
def execPwrUcRestartDeferred (s : State) : Out :=
  match s.tvx.act with
  | some a =>
    if a.ph = .deferPwr ∧ s.tvx.running then
      let s := if s.pwr.now % minuteNs < 5000000 then s.elapseTo (s.pwr.now / minuteNs * minuteNs + 5000000)
        else s.elapseTo ((s.pwr.now / minuteNs + 1) * minuteNs + 5000000)
      .next (s.compStart a ucPWR)
    else .next s
  | none => .next s

/-- TVX_MAIN_READY_TIMEOUT: the boot ROM restarts Thoiviyx with cause NOT_READY (R375). -/
def execTvxMainReadyTimeout (s : State) : Out :=
  match s.tvx.act with
  | some a => .next (if a.ph = .mainNew ∧ !s.tvx.running ∧ a.fail = none then s.mgmtReset .notReady else s)
  | none => .next s

/-- BUNDLE_COPY_COMPLETE: the copy is verified and the directory written; TVX_MAIN restarts with the new image, or, in
recovery mode, the target is ACTIVE and the package restarts from POR (R372, R381). Whether the flash reads back is open. -/
def execBundleCopyComplete (s : State) : Out :=
  match s.tvx.act with
  | some a =>
    if a.ph = .copy ∧ a.fail = none ∧ (s.tvx.running || s.tvx.recovery) then
      let (bad, s) := s.freeBit
      if bad then
        let a : Act := { a with fail := some (2, 0xFF, 11) }
        .next ((s.dirReject a).actAnswer a)
      else
        let s := s.setSlotBytes a.target s.stageBytes
        let d := s.dir.slot a.target slotCOMPLETE a.setId
        if s.tvx.recovery then
          let s := (s.dirWrite { d with active := a.target, pending := 0xFF }).setAct none
          let s := (s.longFinish stOK 0 (actPay 2 0xFF 0 a.setId)).por false
          .next (s.setTvx { s.tvx with alive := true })
        else
          .next (((s.dirWrite { d with pending := a.target }).setAct (some { a with ph := .mainNew })).mgmtReset .activate)
    else .next s
  | none => .next s

/-! ## Choosing the set (R380, R381) -/

/-- Does a slot verify? -/
def State.slotOk (s : State) (i : Nat) (asComplete : Bool) : Bool :=
  (asComplete || s.dir.state i == slotCOMPLETE) && (bundleErr (s.slotBytes i) s.stepping).isNone

/-- Cut a list into pieces of 16. -/
def pieces16 : Nat → List Nat → List (List Nat)
  | 0, _ => []
  | k + 1, l => l.take 16 :: (if l.length ≤ 16 then [] else pieces16 k (l.drop 16))

/-- SETTINGS_REVERTED for the change list of an abandoned settings slot (R379). -/
def State.logReverted (s : State) (slot : Nat) : State :=
  let x := if slot = 0 then s.tvx.set0 else s.tvx.set1
  let s := (pieces16 16 x.change).foldl (fun s l =>
    s.logEvent 0x0061 sevWARNING noDie 0 (ofBytes (leBytes 2 l.length ++ l.flatMap (leBytes 2)))) s
  if x.full then s.logEvent 0x0061 sevWARNING noDie 0 0xFFFF else s

/-- LONG_OP_DONE for an activation that a POR interrupted (R380). -/
def State.logInterrupted (s : State) : State :=
  match s.tvx.longOp with
  | some l =>
    let d := ofBytes (leBytes 2 l.cmd.pkt.opcode ++ leBytes 1 l.cmd.pkt.tag ++ leBytes 1 (ingNum l.cmd.ing) ++
      leBytes 2 stDEVICE_ERROR ++ [12])
    (s.setTvx { s.tvx with longOp := none }).logEvent 0x0071 sevINFO noDie 0 d
  | none => s

/-- TVX_MAIN runs from a slot. -/
def State.mainUp (s : State) (slot : Nat) : State :=
  s.setTvx { s.tvx with running := true, runs := slot,
                        vers := Tbl.set (fun _ => 0) s.tvx.vers 1 (entryVersion (s.slotBytes slot) 1) }

/-- The set that the directory gives (R380). -/
def State.selectSet (s : State) (por : Bool) : State :=
  let recover (s : State) : State := s.setTvx { s.tvx with recovery := true }
  if s.tvx.smallFlash then recover s
  else match s.dirRec with
  | none =>
    let ok := (List.range 2).filter (fun i => s.slotOk i true)
    match ok with
    | [] => recover s
    | i :: rest =>
      let pick := match rest with
        | j :: _ => if bundleSetId (s.slotBytes i) < bundleSetId (s.slotBytes j) then j else i
        | [] => i
      let d : DirRec := ok.foldl (fun d j => d.slot j slotCOMPLETE (bundleSetId (s.slotBytes j))) { active := pick }
      ((s.dirWrite d).mainUp pick).logEvent 0x0060 sevWARNING noDie 0
  | some d =>
    let oth := 1 - d.active
    if s.slotOk d.active false then
      let s := s.mainUp d.active
      if por && d.pending != 0xFF then
        (s.dirWrite { d.slot d.pending slotREJECTED (d.setId d.pending) with pending := 0xFF }).logInterrupted
      else s
    else if s.slotOk oth false then
      let s := (s.dirWrite { d.slot d.active slotREJECTED (d.setId d.active) with active := oth, pending := 0xFF }).mainUp oth
      (s.logEvent 0x0060 sevWARNING noDie 0).logReverted d.active
    else recover s

/-- The slot of a component's image: the target's for one that an activation in progress has restarted, and else the one that
the directory names ACTIVE. -/
def State.compSlot (s : State) (c : Nat) : Nat :=
  match s.tvx.act with
  | some a => if a.done.contains c then a.target else s.dir.active
  | none => s.dir.active

/-- Every component of a list is loaded (R372, R380). -/
def State.loadAll (s : State) (cs : List Nat) : State :=
  let v (c : Nat) : Nat := entryVersion (s.slotBytes (s.compSlot c)) c
  cs.foldl (fun s c => s.showRange c (v c))
    (s.setTvx { s.tvx with vers := cs.foldl (fun t c => Tbl.set (fun _ => 0) t c (v c)) s.tvx.vers })

/-- TVX_MAIN_RUNNING: the boot ROM has chosen the image and TVX_MAIN runs, or recovery mode is entered. After a restart the
restart is logged, and an activation goes on or is rolled back. -/
def execTvxMainRunning (s : State) : Out :=
  if !s.tvx.alive || s.tvx.running || s.tvx.recovery then .next s
  else
    let restarted (s : State) : State :=
      if s.tvx.running then s.flushLog.logEvent codeMGMT_RESTARTED sevINFO noDie 0 else s
    match s.tvx.act with
    | some a =>
      if s.tvx.cause = .activate ∧ s.dir.pending = a.target ∧ a.fail = none then
        .next ((restarted (s.mainUp a.target)).migrate a)
      else
        let s := restarted (s.selectSet false)
        if !s.tvx.running then .next s
        else if a.ph = .mainOld then .next (s.actAnswer a)
        else .next (s.rollback a)
    | none =>
      if s.tvx.cause = .none then
        let s := s.selectSet true
        .next (if s.tvx.running then (s.settingsCheck.loadAll (List.range 7)).flushLog else s)
      else .next (restarted (s.selectSet false))

end Sys2Proof.Machine
end

