-- ==== Sys2Proof/Machine/Power.lean ====
section
/-!
DEFINITION. Power, temperature and time (spec/17_power_clocks_start.md R383 to R395, spec/10_horizon_fabric.md R261).
Temperatures are in 1/16 °C.
-/

namespace Sys2Proof.Machine

def State.setPwr (s : State) (x : PwrSt) : State := { s with pwr := x }

/-! ## Ceilings (R384, R53) -/

def topStep : Nat := 112
def State.dieCeil (s : State) (d : Nat) : Nat := Tbl.get (fun _ => topStep) s.pwr.ceil d

/-- Set C_d, counting a change and keeping PWR_STATUS. -/
def State.setDieCeil (s : State) (d n : Nat) : State :=
  let s := if s.dieCeil d = n then s else s.count (ctrPower d) 4
  let s := s.setPwr { s.pwr with ceil := Tbl.set (fun _ => topStep) s.pwr.ceil d n }
  s.putB R.PWR_STATUS_THERMAL_LIMITING ((List.range 12).any (fun d => decide (s.dieCeil d < topStep)))

/-- Set C_pkg. -/
def State.setPkgCeil (s : State) (n : Nat) : State :=
  (s.put R.PWR_STATUS_PKG_CEILING n).putB R.PWR_STATUS_POWER_LIMITING (decide (n < topStep))

/-- A core's rise begins: at an evaluation, with the ramp of its voltage at 20 mV/µs (R54). -/
def State.freqRise (s : State) (h : Nat) : State :=
  let aim := s.freqAim h
  let x := s.hart h
  let from' := x.target.getD (s.get (R.CORE_FREQ_CUR_STEP h))
  let ramp := x.ramp + (Config.stepVoltage h aim - Config.stepVoltage h from') * 50
  if from' < aim then (s.setHart h { x with target := some aim, ramp := ramp }).put (R.CORE_FREQ_CUR_SLEWING h) 1 else s

/-- Every core of an online die follows its ceiling min(C_pkg, C_d); rises begin only with `rise`. -/
def State.ceilings (s : State) (rise : Bool) : State :=
  foldN 384 s (fun h s =>
    if s.dieOnline (h / 32) then
      let s := (s.put (R.CORE_FREQ_CUR_CEILING h) (min (s.get R.PWR_STATUS_PKG_CEILING) (s.dieCeil (h / 32)))).freqFall h
      if rise then s.freqRise h else s
    else s)

/-- The Emergency and Release limits of a die (R388). -/
def limitEmergency (d : Nat) : Int := if d < 13 then 105 * 16 else 100 * 16
def limitRelease (d : Nat) : Int := if d < 13 then 100 * 16 else 95 * 16

/-! ## Throttle levels of the Mesa slices (R389) -/

/-- The level that a sensor at `t` gives, by the temperatures that enter levels 1 to 3, after level `old`: a level is left 3 °C
below its entry temperature. -/
def throttleAt (entry : Nat → Int) (old : Nat) (t : Int) : Nat :=
  let on (k : Nat) : Bool := decide (entry k ≤ t) || (decide (k ≤ old) && decide (entry k - 48 < t))
  if on 3 then 3 else if on 2 then 2 else if on 1 then 1 else 0

/-- The entry temperatures of LOCAL, and those of PWR_MESA_THRESH. -/
def localEntry (k : Nat) : Int := if k = 1 then 88 * 16 else if k = 2 then 94 * 16 else 100 * 16
def State.centralEntry (s : State) (k : Nat) : Int :=
  if k = 1 then s.get R.PWR_MESA_THRESH_L1 * 16
  else if k = 2 then s.get R.PWR_MESA_THRESH_L2 * 16
  else s.get R.PWR_MESA_THRESH_L3 * 16

/-- The least level of a slice: LOCAL's, and 3 in an emergency of its Mesa die (R388). -/
def State.mesaFloor (s : State) (n : Nat) : Nat :=
  if s.pwr.hot.testBit (13 + n / 4) then 3 else Tbl.get (fun _ => 0) s.pwr.floor n

/-- A slice takes a level. -/
def State.mesaTake (s : State) (n level : Nat) : State :=
  if s.get (R.MESA_STATUS_THROTTLE n) = level then s else s.mesaLevel n level

/-- The hardware comparators of a slice read its Basin sensor: in LOCAL the slice follows, in CENTRAL it only rises. -/
def State.mesaLocal (s : State) (n : Nat) (t : Int) : State :=
  let s := s.setPwr { s.pwr with floor := Tbl.upd (fun _ => 0) s.pwr.floor n (fun old => throttleAt localEntry old t) }
  let f := s.mesaFloor n
  s.mesaTake n (if s.get R.PWR_CTL_STACK_MODE = 1 then max f (s.get (R.MESA_STATUS_THROTTLE n)) else f)

/-- PWR_UC evaluates a slice: the higher of its floor and, in CENTRAL, of what the sensor of its Mesa die gives. -/
def State.mesaCentral (s : State) (t : Int) (n : Nat) : State :=
  let c := if s.get R.PWR_CTL_STACK_MODE = 1 then throttleAt s.centralEntry (Tbl.get (fun _ => 0) s.pwr.central n) t else 0
  let s := s.setPwr { s.pwr with central := Tbl.set (fun _ => 0) s.pwr.central n c }
  s.mesaTake n (max c (s.mesaFloor n))

/-- MESA_THROTTLE_CHANGE: the Basin sensor beneath a slice reaches `t`, in 1/16 °C, and its comparators choose the level (R211,
R389). -/
def execMesaThrottleChange (n : Ix16) (t : Int) (s : State) : Out := .next (s.mesaLocal n t)

/-- C_pkg goes down for a power above the limit (R384). -/
def downSteps (mW ppt : Nat) : Nat := max 1 ((32 * (mW - ppt * 1000) + ppt * 1000 - 1) / (ppt * 1000))

/-- POWER_EVALUATION: P in mW, each die's hottest sensor and each Vale die's power in mW. P and the energy are measured
even while PWR_UC restarts (R387). An emergency of the Basin die or a Mesa die holds C_pkg until its release. Every Mesa slice's
level is evaluated with them (R389). -/
def execPowerEvaluation (mW : Nat) (dieTemp : List Int) (dieMw : List Nat) (s : State) : Out :=
  let nj := s.pwr.nj + mW * 50
  let s := (s.setPwr { s.pwr with nj := nj % 1000 }).put R.PWR_STATUS_POWER (min (mW / 100) 16383)
  let s := s.wrapAdd R.PWR_ENERGY_ENERGY_UJ (nj / 1000)
  let s := foldN 12 s (fun d s => s.count (ctrPower d) 3 none none (dieMw.getD d 0 / 20))
  if s.get R.PWR_STATUS_UC_RUNNING = 0 then .next s
  else
    let temp (d : Nat) : Int := dieTemp.getD d 0
    let s := s.setPwr { s.pwr with hot := foldN 17 s.pwr.hot (fun d m => if temp d < limitRelease d then setBits m d 1 0 else m) }
    let ppt := s.get R.PWR_LIMIT_PPT_W
    let target : Int := s.get R.PWR_CTL_TEMP_TARGET * 16
    let c := s.get R.PWR_STATUS_PKG_CEILING
    let limited := (List.range 384).any (fun h => s.dieOnline (h / 32) && s.get (R.CORE_FREQ_CUR_LIMITED h) == 1)
    let pkgHot : Bool := decide (s.pwr.hot / 2 ^ 12 ≠ 0)
    let c' := if mW > ppt * 1000 ∨ temp 12 > target then c - downSteps mW ppt
      else if mW * 100 < 97 * ppt * 1000 ∧ limited ∧ !pkgHot then min (c + 1) topStep
      else c
    let s := s.setPkgCeil c'
    let s := foldN 12 s (fun d s =>
      let n := s.dieCeil d
      if temp d > target then s.setDieCeil d (n - 2)
      else if temp d < target - 48 ∧ !s.pwr.hot.testBit d then s.setDieCeil d (min (n + 1) topStep)
      else s)
    .next ((foldN 16 s (fun n s => s.mesaCentral (temp (13 + n / 4)) n)).ceilings true)

/-- CURRENT_LIMIT_TRIP (R386): every Vale core's clock is stretched to half frequency. -/
def execCurrentLimitTrip (s : State) : Out := .next (s.put R.PWR_STATUS_CURRENT_LIMIT 1)

/-- CURRENT_LIMIT_RELEASE: after 10 µs below ICC_MAX. -/
def execCurrentLimitRelease (s : State) : Out := .next (s.put R.PWR_STATUS_CURRENT_LIMIT 0)

/-! ## Thermal limits (R388) -/

/-- The cores that a hot die affects: its own, or every core for the Basin die or a Mesa die. -/
def hotCores (die h : Nat) : Bool := if die < 12 then h / 32 == die else true

/-- THERMAL_EMERGENCY. -/
def execThermalEmergency (die : Fin 17) (s : State) : Out :=
  let s := s.setPwr { s.pwr with hot := s.pwr.hot ||| 1 <<< die.val }
  let s := if die.val < 12 then s.setDieCeil die 0 else s.setPkgCeil 0
  let s := s.ceilings false
  let s := foldN 384 s (fun h s => if hotCores die h && s.coreUp h then s.raiseNmi h 1 else s)
  let s := if 13 ≤ die.val then foldN 4 s (fun i s => s.mesaLevel (4 * (die - 13) + i) 3) else s
  let s := s.errRecord bankTvx errUEC 0 0 die
  .next (s.put R.PWR_TEMP_EMERGENCY 1)

/-- Every host clock stops, until a POR (R388, R391, R434). -/
def State.hostStop (s : State) : State := s.setPwr { s.pwr with stage := if s.pwr.stage = .off then .off else .held }

/-- THERMAL_TRIP: THERMTRIP_N is asserted. -/
def execThermalTrip (s : State) : Out :=
  if s.pwr.good then .next ((s.setPwr { s.pwr with therm := true, hostReq := false }).hostStop) else .next s

/-- REFCLK_LOSS (R391). -/
def execRefclkLoss (s : State) : Out :=
  if s.pwr.stage = .off then .next s
  else
    let s := s.setPwr { s.pwr with refclk := false }
    let s := if s.pwr.good then s.hostStop else s
    .next (s.errRecord bankTvx errUEC 0 0 0)

/-! ## The GTIME servo (R393, R394) -/

def tFREE : Nat := 0
def tACQUIRE : Nat := 1
def tLOCKED : Nat := 2
def tHOLDOVER : Nat := 3
def State.timeState (s : State) : Nat := s.get R.TIME_STATUS_STATE

/-- GTIME steps forward by `n` in 1/256 ns: STEPPED, and TIME_STEP of the set in progress (spec/09 R233). -/
def State.timeStep (s : State) (n : Nat) : State :=
  let t := (s.pwr.now * 2 ^ 32 + s.pwr.frac) + n * 2 ^ 24
  let s := s.setPwr { s.pwr with now := t / 2 ^ 32, frac := t % 2 ^ 32, lastPps := s.pwr.lastPps.map (· + n / 256) }
  let s := s.setMeter { s.meter with mflags := s.meter.mflags ||| flagTIME_STEP }
  s.put R.TIME_STATUS_STEPPED 1

/-- A good sample: its offset in 1/256 ns. The loop's own figures are open, within ±200 ppm. -/
def State.timeSample (s : State) (off : Int) (hzn : Bool) : State :=
  let near : Bool := decide (-25600 ≤ off) && decide (off ≤ 25600)
  let st := s.timeState
  let k := if near then (if st = tACQUIRE ∨ st = tLOCKED then s.pwr.samples + 1 else 1) else 0
  let st' := if st = tACQUIRE then (if 10 ≤ k then tLOCKED else tACQUIRE) else if st = tLOCKED then tLOCKED else tACQUIRE
  let s := (s.put R.TIME_OFFSET_OFFSET (satSigned 32 off)).put R.TIME_STATUS_STATE st'
  let s := s.putB R.TIME_STATUS_SOURCE_IN_USE hzn
  let s := s.setPwr { s.pwr with samples := min k 10, locked := s.pwr.locked || st' == tLOCKED, lastGood := s.pwr.now,
                                 lastHzn := if hzn then some s.pwr.now else s.pwr.lastHzn }
  let lim : Int := s.get R.TIME_CTL_STEP_LIMIT_US * 256000
  if lim < off ∧ s.get R.TIME_CTL_STEP_ENABLE = 1 then (s.put R.TIME_STATUS_AHEAD 0).timeStep off.toNat
  else if off < -lim then (s.put R.TIME_STATUS_AHEAD 1).put R.TIME_OFFSET_RATE_PPB (unsigned 32 (-200000))
  else
    let (w, s) := s.freeWord
    (s.put R.TIME_STATUS_AHEAD 0).put R.TIME_OFFSET_RATE_PPB (unsigned 32 ((w.toNat % 400001 : Nat) - 200000))

/-- PPS_EDGE: a rising edge stamped at GTIME `t` (R393, R394). -/
def execPpsEdge (t : Nat) (s : State) : Out :=
  let s := s.elapseTo t
  let src := s.get R.TIME_CTL_SOURCE
  if src = 0 ∨ src = 2 then .next s
  else
    let ok : Bool := match s.pwr.lastPps with
      | none => true
      | some p => decide (p + 999000000 ≤ t) && decide (t ≤ p + 1001000000)
    if !ok then .next (s.bump R.TIME_STATUS_PPS_REJECTS 1)
    else
      let ref := if s.get R.TIME_NEXT_PPS_VALID = 1 then s.get R.TIME_NEXT_PPS_VALUE
        else (t + 500000000) / 1000000000 * 1000000000
      let s := s.put R.TIME_NEXT_PPS_VALUE (s.get R.TIME_NEXT_PPS_VALUE + 1000000000)
      let s := s.setPwr { s.pwr with lastPps := some t }
      .next (s.timeSample (((ref : Int) - t) * 256) false)

/-- TIME_RSP: the follower's exchange, a Horizon sample of the servo (spec/10 R261). Times are (ns, 1/256 ns). -/
def execTimeRsp (p : HPort) (hd : HFrame) (t1 t2 t3 : Nat × Nat) (s : State) : Out :=
  s.hznControl p hd (fun s =>
    if s.get (R.HZN_CTL_TIME_ROLE p) = 2 ∧ s.get (R.HZN_STATUS_REVISION p) = 3 ∧ s.hznState p = hznACTIVE then
      let q (t : Nat × Nat) : Int := (t.1 * 256 + t.2 % 256 : Nat)
      let t4 : Int := s.time256
      let off := ((q t2 - q t1) + (q t3 - t4) - signed 32 (s.get (R.HZN_TIME_ASYM_ASYM p))) / 2
      let delay := ((t4 - q t1) - (q t3 - q t2)) / 2
      let s := (s.put (R.HZN_TIME_OFFSET_OFFSET p) (satSigned 32 off)).put (R.HZN_TIME_OFFSET_DELAY p) (unsigned 24 delay)
      let src := s.get R.TIME_CTL_SOURCE
      if src = 2 ∨ (src = 3 ∧ s.pwr.lastPps = none) then s.timeSample off true else s
    else s)

/-- TIME_SOURCE_TIMEOUT: no good sample for 2.5 s of PPS or 10 ms of Horizon. -/
def execTimeSourceTimeout (s : State) : Out :=
  let st := s.timeState
  if st = tACQUIRE ∨ st = tLOCKED then
    let s := s.setPwr { s.pwr with samples := 0, lastPps := none }
    if s.pwr.locked then
      let s := (s.put R.TIME_STATUS_STATE tHOLDOVER).put R.TIME_STATUS_HOLDOVER_SEEN 1
      .next (s.setMeter { s.meter with mflags := s.meter.mflags ||| flagHOLDOVER })
    else .next (s.put R.TIME_STATUS_STATE tFREE)
  else .next s

/-- TIME_SOURCE_WRITE: TIME_CTL.SOURCE. -/
def execTimeSourceWrite (src : Nat) (s : State) : Out :=
  let s := s.put R.TIME_CTL_SOURCE src
  if src % 4 = 0 then
    .next ((s.setPwr { s.pwr with samples := 0, lastPps := none }).put R.TIME_STATUS_STATE tFREE)
  else .next s

/-- TIME_STEP_FWD (R394). -/
def execTimeStepFwd (delta : Nat) (s : State) : Out := .next (s.timeStep (delta % 2 ^ 32 * 256))

end Sys2Proof.Machine
end

