-- ==== Sys2Proof/Machine/RegView.lean ====
section
/-!
DEFINITION. What a register reads as (spec/00_scope.md R4, spec/01_package_topology.md R34, R35): the stored fields, and
the fields that report other state. Also the CBQRI controllers, the error banks, the IOMMU block and the MSI-X tables.
-/

namespace Sys2Proof.Machine

/-- A word with field `f` at `n`. -/
def withField (w : Word) (f : FRef) (n : Nat) : Word := wordPut w f.lo f.w n

/-- The mask of the numbers `j` below 64 that meet `p`. -/
def mask64 (p : Nat → Bool) : Word := BitVec.ofNat 64 ((List.range 64).foldl (fun m j => if p j then m + 2 ^ j else m) 0)

/-! ## CBQRI controllers (spec/09 R218, R219; notes/assumptions/8.md) -/

/-- The controller whose registers hold an offset of the package register space, and the offset in it. -/
def qosAt (a : Nat) : Option (QosCtl × Nat) :=
  if 0x1000000 ≤ a ∧ a < 0x1C00000 ∧ 0x30000 ≤ a % 0x100000 ∧ a % 0x100000 < 0x31000 then
    some (.vc (Fin.ofNat 12 ((a - 0x1000000) / 0x100000)), a % 0x1000)
  else if 0x2201000 ≤ a ∧ a < 0x2202000 then some (.mesa, a % 0x1000)
  else if 0x2100000 ≤ a ∧ a < 0x2200000 ∧ 0x1000 ≤ a % 0x10000 ∧ a % 0x10000 < 0x2000 then
    some (.mc (Fin.ofNat 16 ((a - 0x2100000) / 0x10000)), a % 0x1000)
  else if 0x2500000 ≤ a ∧ a < 0x2580000 ∧ 0x1000 ≤ a % 0x10000 ∧ a % 0x10000 < 0x2000 then
    some (.hzn (Fin.ofNat 8 ((a - 0x2500000) / 0x10000)), a % 0x1000)
  else none

/-- A register of a controller: capabilities, monitor control and value, allocation control, and the mask or bandwidth
word. -/
def State.qosView (s : State) (k : QosCtl) (o a : Nat) : Word :=
  let st (i : Nat) : Nat := Tbl.get (fun _ => 0) s.qos.status (qosCode k * 2 + i)
  if o = 0 then BitVec.ofNat 64 (if qosIsCap k then 0x10 + 16 <<< 8 else 0x10 + 1000 <<< 8 + qosMRBWB <<< 32)
  else if o = 0x8 then BitVec.ofNat 64 ((s.reg a).toNat % 2 ^ 32 + st 1 <<< 32)
  else if o = 0x10 then BitVec.ofNat 64 (Tbl.get (fun _ => 0) s.qos.result (qosCode k * 2 + 1))
  else if o = 0x18 then BitVec.ofNat 64 ((s.reg a).toNat % 2 ^ 32 + st 0 <<< 32)
  else if o = 0x20 then s.reg a
  else 0

/-! ## Error banks (spec/14 R337 to R339; notes/assumptions/33.md) -/

/-- The bank and the offset in it of an offset of the package register space. -/
def bankAt (a : Nat) : Option (Nat × Nat) :=
  if 0x610000 ≤ a ∧ a < 0x690000 then some ((a - 0x610000) / 0x400, a % 0x400) else none

/-- status_i of a record. -/
def ErrRec.status (r : ErrRec) : Nat :=
  if r.valid then 1 + 2 <<< r.sev + b2n r.multi <<< 6 + 1 <<< 11 + 1 <<< 16 + 1 <<< 17 else 0

/-- control_i of a record. -/
def ErrCtl.word (c : ErrCtl) : Nat := b2n c.els + c.ces <<< 2 + c.ueds <<< 4 + c.uecs <<< 6

/-- A register of a bank. -/
def State.bankView (s : State) (b o : Nat) : Word :=
  if o = 0 then BitVec.ofNat 64 (0xC93 + 0x9384 <<< 32)
  else if o = 8 then BitVec.ofNat 64 (b + 4 <<< 16 + 1 <<< 56)
  else if o = 0x10 then
    BitVec.ofNat 64 (1 + (List.range 4).foldl (fun m i => if (s.errRec b i).valid then m + 2 <<< i else m) 0)
  else if 0x40 ≤ o ∧ o < 0x140 then
    let i := (o - 0x40) / 0x40
    let r := s.errRec b i
    BitVec.ofNat 64 (match o % 0x40 with
      | 0 => (s.recCtl b i).word
      | 8 => r.status
      | 0x10 => r.addr
      | 0x18 => r.info
      | 0x20 => r.suppl
      | 0x28 => r.time
      | _ => 0)
  else 0

/-! ## MSI-X tables (spec/11 R276) -/

/-- The vectors of a function. -/
def msixVectors (f : Nat) : Nat := if f = 0 then 64 else 16

/-- A table entry as the 16 bytes it reads as. -/
def MsixE.num (e : MsixE) : Nat := e.addr + e.data <<< 64 + b2n e.mask <<< 96

/-- `size` bytes of a function's table, from offset `o`. -/
def State.msixRead (s : State) (f o size : Nat) : Nat :=
  if o / 16 < msixVectors f then bits (s.msixE f (o / 16)).num (8 * (o % 16)) (8 * size) else 0

/-- `size` bytes of a function's PBA. -/
def State.pbaRead (s : State) (f o size : Nat) : Nat := bits (s.pba f) (8 * o) (8 * size)

/-! ## Registers that report other state -/

/-- Words of a register whose fields report other state. -/
def State.regLive (s : State) (id : RegId) (ix : List Nat) (a : Nat) : Word :=
  let w := s.reg a
  match id, ix with
  | .VALE_CORE_CTL, _ => 0
  | .VALE_CORE_STATUS, [n, i] => withField w (R.VALE_CORE_STATUS_BUCKET n i) (s.bucket 0 (32 * n + i)).level
  | .VALE_DIE_STATUS, [n] =>
    withField (withField w (R.VALE_DIE_STATUS_REQ_OUTSTANDING n) (s.trkCount n)) (R.VALE_DIE_STATUS_WB_OCCUPIED n) (s.wbCount n)
  | .VALE_SF_STATUS, [n, b] =>
    let k := (16 * n + b) * 4096 * 24
    withField w (R.VALE_SF_STATUS_ENTRIES_VALID n b) (Tbl.countIn s.die.sf k (k + 4096 * 24) (·.valid))
  | .HOME_DIR_STATUS, [n] =>
    withField w (R.HOME_DIR_STATUS_ENTRIES_VALID n) (Tbl.countIn s.home.dir (n * 2 ^ 20) ((n + 1) * 2 ^ 20) (fun e => e.state != 0))
  | .HOME_RPT_STATUS, [n] =>
    withField w (R.HOME_RPT_STATUS_ENTRIES_VALID n) (Tbl.countIn s.home.rpt (n * 2 ^ 17) ((n + 1) * 2 ^ 17) (fun e => e.rstate != 0))
  | .HOME_RLD_STATUS, [n] =>
    withField w (R.HOME_RLD_STATUS_ENTRIES_VALID n) (Tbl.countIn s.home.rld (n * 2 ^ 18) ((n + 1) * 2 ^ 18) (fun e => e.pstate != 0))
  | .HOME_LOCKS, [n] => withField w (R.HOME_LOCKS_HELD n) (s.locksHeld n)
  | .HOME_TOKEN_FREE, [n, k] => mask64 (fun j => (s.tok n (64 * k + j)).st == .free)
  | .HOME_TOKEN_COUNTS, [n] =>
    let c (p : TokSt → Bool) : Nat := (s.toksWhere n (fun t => p t.st)).length
    withField (withField (withField w (R.HOME_TOKEN_COUNTS_WAITING_LINE n) (c (· == .waitLine)))
      (R.HOME_TOKEN_COUNTS_WAITING_POOL n) (c (· == .waitPool)))
      (R.HOME_TOKEN_COUNTS_GRANTED n) (c (fun t => t == .grantLine || t == .grantUnbound))
  | .HOME_OWED, [n] =>
    withField w (R.HOME_OWED_OWED_TOTAL n) (s.home.owed.foldl (fun k e => if e.1 / 256 = n then k + e.2.length else k) 0)
  | .HOME_WB_HELD, [n] => withField w (R.HOME_WB_HELD_HELD n) (s.home.wbHeld.filter (fun e => e.1 == n)).length
  | .MESA_OCCUPANCY, [n] =>
    withField (withField w (R.MESA_OCCUPANCY_SECTORS_VALID n)
      (Tbl.countIn s.mesa.tags (n * 65536) ((n + 1) * 65536) (fun e => e.valid != 0)))
      (R.MESA_OCCUPANCY_VC_VALID n) (s.vict n).length
  | .METER_STATUS, _ => s.meterStatus.reg a
  | .HZN_LANE_STATS, [p, l] => withField w (R.HZN_LANE_STATS_BUCKET p l) (s.bucket 11 (p * 8 + l)).level
  | .HZN_CREDIT, [p, c] => BitVec.ofNat 64 (s.hznCreditView p c)
  | .XCE_FN_DRAINING, [j] => mask64 (fun t => s.fnDrains (64 * j + t))
  | .XCE_VF_INFO, [f] => withField w (R.XCE_VF_INFO_OWIN_COUNT f) (s.get (R.XCE_FN_OWIN_OWIN_COUNT f))
  | .XCE_FN_ARB, [f] =>
    withField w (R.XCE_FN_ARB_STALLED f)
      (b2n (s.get (R.XCE_FN_SHARE_WEIGHT f) == 0 &&
        (List.range 8).any (fun q => s.qpState f q == qpACTIVE && s.sqWaits f q != 0)))
  | .XCE_WIN_COMMIT, _ => 0
  | .RAS_BANK_VALID, [j] => mask64 (fun t => s.bankValid (64 * j + t))
  | .MBOX_STATUS, _ =>
    let w := withField w R.MBOX_STATUS_READY (b2n s.tvx.running)
    let w := withField w R.MBOX_STATUS_FROZEN (b2n s.tvx.mbox.frozen)
    let w := withField w R.MBOX_STATUS_LONG_OP (b2n s.tvx.longOp.isSome)
    withField w R.MBOX_STATUS_QUEUED (s.queuedOf .mbox).length
  | .MBOX_TX_CTL, _ => 0
  | .TIME_NOW, _ => BitVec.ofNat 64 s.pwr.now
  | _, _ => w

/-- The end and port of a Pass register block, and the offset in it. -/
def passAt (a : Nat) : Option (Nat × Nat × Nat) :=
  if 0x2300000 ≤ a ∧ a < 0x2480000 then some (0, (a - 0x2300000) / 0x10000, a % 0x10000)
  else if 0x1000000 ≤ a ∧ a < 0x1C00000 ∧ 0x60000 ≤ a % 0x100000 ∧ a % 0x100000 < 0x80000 then
    some (1, 2 * ((a - 0x1000000) / 0x100000) + (a % 0x100000 - 0x60000) / 0x10000, a % 0x10000)
  else none

/-- The 64-bit register at an 8-byte aligned address. -/
def State.regView (s : State) (a : Nat) : Word :=
  match regFind a with
  | some (d, ix) =>
    match passAt a with
    | some (e, p, o) => match s.passView e p o with | some v => BitVec.ofNat 64 v | none => s.regLive d.id ix a
    | none => s.regLive d.id ix a
  | none =>
    match qosAt a, bankAt a with
    | some (k, o), _ => s.qosView k o a
    | _, some (b, o) => s.bankView b o
    | _, _ =>
      if a = 0x2900000 then BitVec.ofNat 64 iommuCaps
      else if 0x2900000 ≤ a ∧ a < 0x2901000 then s.reg a
      else if 0x2940000 ≤ a ∧ a < 0x2944000 then
        BitVec.ofNat 64 (s.aplicRead 0 (a % 0x4000) + s.aplicRead 0 (a % 0x4000 + 4) <<< 32)
      else if 0x2960000 ≤ a ∧ a < 0x2964000 then
        BitVec.ofNat 64 (s.aplicRead 1 (a % 0x4000) + s.aplicRead 1 (a % 0x4000 + 4) <<< 32)
      else if 0x100200000 ≤ a ∧ a < 0x100300000 then
        BitVec.ofNat 64 (s.owinE ((a - 0x100200000) / 64) >>> (8 * (a % 64)))
      else if 0x100300000 ≤ a ∧ a < 0x100400000 then
        BitVec.ofNat 64 (s.iwinE ((a - 0x100300000) / 64) >>> (8 * (a % 64)))
      else 0

/-- `size` bytes at an address, within one register. -/
def State.regBytes (s : State) (a size : Nat) : Nat := bits (s.regView (a / 8 * 8)).toNat (8 * (a % 8)) (8 * size)

/-! ## The package register space (R34, R35) -/

/-- Does a block of R34 hold an offset? -/
def prsBlock (o : Nat) : Bool :=
  decide (o < 0x800000) || (decide (0x1000000 ≤ o) && decide (o < 0x1C00000)) ||
  (decide (0x2000000 ≤ o) && decide (o < 0x2480000)) || (decide (0x2500000 ≤ o) && decide (o < 0x2580000)) ||
  (decide (0x2600000 ≤ o) && decide (o < 0x2900000)) || (decide (0x2900000 ≤ o) && decide (o < 0x2A00000))

/-- Is the offset one of a die that is not online, so that it reads zero and ignores writes (R35)? -/
def State.prsDown (s : State) (o : Nat) : Bool :=
  decide (0x1000000 ≤ o) && decide (o < 0x1C00000) && !s.dieOnline ((o - 0x1000000) / 0x100000)

/-- The accesses that registers of the package register space take (R6). -/
def prsAligned (o size : Nat) : Bool := (size == 4 || size == 8) && o % size == 0

/-- A read of the package register space. -/
def State.prsRead (s : State) (o size : Nat) : Nat := if s.prsDown o then 0 else s.regBytes o size

/-! ## BARs of the XCE (spec/11 R269, spec/12 R284) -/

/-- A read of `size` bytes at an offset of a BAR: 0 PF0 BAR0, 1 PF0 BAR4, 2 VF BAR0. -/
def State.barRead (s : State) (bar off size : Nat) : Nat :=
  if bar = 0 then
    (if off % 8 + size ≤ 8 then s.regBytes (pfBar0 + off) size
     else (s.regBytes (pfBar0 + off) (8 - off % 8)) + (s.regBytes (pfBar0 + off / 8 * 8 + 8) (off % 8 + size - 8)) <<< (8 * (8 - off % 8)))
  else if bar = 1 then
    (if off < 0x400000 then s.msixRead 0 off size else s.pbaRead 0 (off - 0x400000) size)
  else
    let f := off / 0x10000 + 1
    let o := off % 0x10000
    if 0xF000 ≤ o then s.pbaRead f (o - 0xF000) size
    else if 0xE000 ≤ o then s.msixRead f (o - 0xE000) size
    else s.regBytes (vfBar0 f + o) size

end Sys2Proof.Machine
end

