-- ==== Sys2Proof/Machine/RegWrite.lean ====
section
/-!
DEFINITION. Register writes (spec/00_scope.md R4 to R10 and the field tables): what is stored, and what the fields that
act on a write do. A value that a field table reserves and calls a host-made error ends in the fault of that name.
-/

namespace Sys2Proof.Machine

/-- Go on from a next state. -/
def Out.andThen (o : Out) (f : State → Out) : Out :=
  match o with
  | .next s => f s
  | r => r

/-- Do `f` in turn for the numbers below `n`. -/
def Out.each (o : Out) (n : Nat) (f : Nat → State → Out) : Out := (List.range n).foldl (fun o i => Out.andThen o (f i)) o

/-- A write as a register sees it: the old value, the value stored by the field types (R4, R6), the bits of the value
written (zero where the write does not reach), and the mask of the bits it reaches. -/
structure RWrite where
  old  : Word
  new  : Word
  val  : Nat
  mask : Nat
  deriving DecidableEq, Repr

/-- The write of `size` bytes of `v` at byte `o` of a register with these RW and RW1C bits. -/
def rWrite (old rw w1c : Word) (o size : Nat) (v : Word) : RWrite :=
  let m := (2 ^ (8 * size) - 1) <<< (8 * o) % 2 ^ 64
  let wm := BitVec.ofNat 64 m
  let nv := (v <<< (8 * o)) &&& wm
  { old := old, val := nv.toNat, mask := m,
    new := ((old &&& ~~~(rw &&& wm)) ||| (nv &&& rw &&& wm)) &&& ~~~(nv &&& w1c &&& wm) }

/-- A field of the value stored, and of the value written. -/
def RWrite.field (x : RWrite) (f : FRef) : Nat := bits x.new.toNat f.lo f.w
def RWrite.was (x : RWrite) (f : FRef) : Nat := bits x.old.toNat f.lo f.w
def RWrite.wo (x : RWrite) (f : FRef) : Nat := bits x.val f.lo f.w
def RWrite.reaches (x : RWrite) (lo : Nat) : Bool := x.mask.testBit lo

/-- Bits of a way-disable field that change: each is one command. -/
def wayBitsWrite (o : Out) (n : Nat) (x : RWrite) (set clear : Nat → State → Out) : Out :=
  Out.each o n (fun w s =>
    match x.old.toNat.testBit w, x.new.toNat.testBit w with
    | false, true => set w s
    | true, false => clear w s
    | _, _ => .next s)

/-- Does a function's range of outbound entries, `n` from `base`, overlap another function's (spec/12 R299)? A function
that no register lists has none. -/
def State.owinOverlap (s : State) (f base n : Nat) : Bool :=
  decide (0 < n) && s.regs.any (fun e =>
    match regFind e.1 with
    | some (d, [g]) =>
      d.id == .XCE_FN_OWIN && g != 0 && g != f && decide (0 < bits e.2.toNat 16 4) &&
      decide (bits e.2.toNat 0 14 < base + n) && decide (base < bits e.2.toNat 0 14 + bits e.2.toNat 16 4)
    | _ => false)

/-- Reserved values and sequences whose write the chapters call a host-made error. -/
def regBad (id : RegId) (ix : List Nat) (x : RWrite) (s : State) : Bool :=
  let b (lo w : Nat) : Nat := bits x.new.toNat lo w
  match id with
  | .HOME_RETRY_CTL => b 0 2 == 3
  | .PASS_CTL => b 2 2 == 3
  | .MC_COPY_CTL => b 4 4 == 0 || decide (9 < b 4 4)
  | .MESA_CTL => b 0 2 == 3
  | .METER_RING_BASE => s.get R.METER_CTL_RING_ENABLE == 1 && x.new != x.old
  | .METER_RING_SIZE =>
    decide (b 0 5 < 11) || decide (20 < b 0 5) || (s.get R.METER_CTL_RING_ENABLE == 1 && x.new != x.old)
  | .METER_RING_CONS =>
    -- CONS moves up to PROD, modulo 2^32 (spec/09 R229).
    let old := x.old.toNat % 2 ^ 32
    decide ((s.get R.METER_RING_PROD_PROD + 2 ^ 32 - old) % 2 ^ 32 < (b 0 32 + 2 ^ 32 - old) % 2 ^ 32)
  | .HZN_CTL =>
    -- At most one port follows (spec/10 R261).
    b 4 2 == 3 || b 7 2 == 3 ||
    (b 7 2 == 2 && (List.range 8).any (fun p => p != ix.headD 0 && s.get (R.HZN_CTL_TIME_ROLE p) == 2))
  | .ROUTE_ISLAND_CTL => bits x.val 24 2 == 3
  | .ROUTE_MEMBER => bits x.val 20 2 == 3
  | .ROUTE_TIMEOUT => b 4 2 == 3 || b 6 4 == 0 || b 10 2 == 3 || b 12 2 == 3
  | .XCE_RESET_CTL => b 0 2 == 3
  | .XCE_ATC_CTL => b 0 17 == 0 || decide (65536 < b 0 17)
  | .XCE_FN_SHARE => decide (1600 < b 8 12)
  | .XCE_FN_OWIN => decide (8 < b 16 4) || (ix.headD 0 != 0 && s.owinOverlap (ix.headD 0) (b 0 14) (b 16 4))
  | .RPRT_CTL => b 2 2 == 3
  | .RPRT_CXL_REGION => bits x.val 32 2 == 3
  | .RAS_AGG_CTL => decide (384 ≤ b 0 9)
  | .RAS_PATROL_CTL => decide (168 < b 0 8) || (decide (1 ≤ b 8 10) && decide (b 8 10 ≤ 3)) || decide (600 < b 8 10)
  | .RAS_BUCKET_CFG => decide (256 < b 16 8 + b 8 8) || b 8 8 == 0 || b 16 8 == 0
  | .PWR_LIMIT => decide (b 0 10 < 500) || decide (900 < b 0 10)
  | .PWR_CTL => decide (b 8 8 < 70) || decide (100 < b 8 8)
  | .PWR_MESA_THRESH => !(decide (b 0 8 < b 8 8) && decide (b 8 8 < b 16 8))
  | .TIME_CTL => b 8 8 == 0
  | .CCOL_CTL => decide (5 ≤ b 8 3)
  | .CCOL_RING_BASE => s.get R.CCOL_CTL_SWEEP_ENABLE == 1 && x.new != x.old
  | .CCOL_RING_SIZE => decide (b 0 5 < 16) || decide (30 < b 0 5) || (s.get R.CCOL_CTL_SWEEP_ENABLE == 1 && x.new != x.old)
  | _ => false

/-! ## Acting fields -/

/-- VALE_CORE_CTL: the command written (R55). -/
def coreCtlWrite (n i : Nat) (x : RWrite) (s : State) : Out :=
  let d : Die := Fin.ofNat 12 n
  let c := Fin.ofNat 32 i
  match bits x.val 0 2 with
  | 1 => if x.val.testBit 2 then execCoreRetire d c s else execCoreOffline d c s
  | 2 => execCoreOnline d c s
  | 3 => execCoreReset d c s
  | _ => .next s

/-- VALE_VC_CTL (spec/03 R76, R83). -/
def vcCtlWrite (n i : Nat) (x : RWrite) (s : State) : Out :=
  let d : Die := Fin.ofNat 12 n
  let sl := Fin.ofNat 16 i
  (wayBitsWrite (.next s) 16 x (fun w => execVcWayDisable d sl (Fin.ofNat 16 w)) (fun w => execVcWayEnable d sl (Fin.ofNat 16 w))).andThen
    (fun s =>
      match x.old.toNat.testBit 16, x.new.toNat.testBit 16 with
      | false, true => execVcSliceDisable d sl s
      | true, false => execVcSliceEnable d sl s
      | _, _ => .next s)

/-- PASS_CTL of a Basin end (spec/06). -/
def passCtlWrite (p : Nat) (x : RWrite) (s : State) : Out :=
  let q : Port := Fin.ofNat 24 p
  let s := s.put (R.PASS_CTL_MAX_WIDTH p) (bits x.new.toNat 2 2)
  let o : Out := if x.val.testBit 16 then execPassFailGo q (bits x.val 8 7) (x.val.testBit 15) s else .next s
  let o := if x.val.testBit 1 then o.andThen (execPassCtlFullTrain q) else o
  if x.val.testBit 0 then o.andThen (execPassCtlRetrain q) else o

/-- HZN_CTL (spec/10). Whether the port finds a partner when a hart enables it is open. A rewrite of ENABLE = 1 starts a port
that a failed train left DISABLED (R246). -/
def hznCtlWrite (a p : Nat) (x : RWrite) (s : State) : Out :=
  let q : HPort := Fin.ofNat 8 p
  let s := s.setReg a (withField x.new (R.HZN_CTL_ENABLE p) (x.was (R.HZN_CTL_ENABLE p)))
  let o : Out := if x.val.testBit 3 then execClearMarks q s else .next s
  let o := if x.field (R.HZN_CTL_ENABLE p) ≠ x.was (R.HZN_CTL_ENABLE p) ∨ (x.reaches 0 ∧ (s.hPort p).wait ≠ .no) then
      o.andThen (fun s =>
        let (b, s) := s.freeBit
        execHznEnableWrite q (x.field (R.HZN_CTL_ENABLE p) == 1) b s)
    else o
  let o := if x.val.testBit 1 then o.andThen (execHznCtlRetrain q) else o
  if x.val.testBit 2 then o.andThen (execHznCtlFullTrain q) else o

/-- QP_CTL of a function (spec/12 R287): MODE only while DISABLED. -/
def qpCtlWrite (f q : Nat) (x : RWrite) (s : State) : Out :=
  if !s.fnExists f || s.fnDrains f then .next s
  else
    let fn : Func := Fin.ofNat 2049 f
    let qq := Fin.ofNat 8 q
    let en := x.field (R.QP_CTL_ENABLE f q)
    let s := s.put (R.QP_CTL_RQ_ENABLE f q) (x.field (R.QP_CTL_RQ_ENABLE f q))
    let s := if s.qpState f q = qpDISABLED then s.put (R.QP_CTL_MODE f q) (x.field (R.QP_CTL_MODE f q)) else s
    if !x.reaches 0 then .next s
    else if en = 1 then execQpEnable fn qq s else execQpDisable fn qq s

/-- A base, size or interrupt register of a queue pair: written only while it is DISABLED (R287). -/
def qpCfgWrite (a f q : Nat) (x : RWrite) (s : State) : Out :=
  .next (if s.fnExists f && !s.fnDrains f && s.qpState f q == qpDISABLED then s.setReg a x.new else s)

/-- A doorbell (R286). -/
def qpDbWrite (id : RegId) (f q : Nat) (x : RWrite) (s : State) : Out :=
  let fn : Func := Fin.ofNat 2049 f
  let qq := Fin.ofNat 8 q
  let v := x.new.toNat % 2 ^ 32
  if !x.reaches 0 then .next s
  else match id with
    | .QP_SQ_DB => execQpSqDb fn qq v s
    | .QP_CQ_DB => execQpCqDb fn qq v s
    | _ => execQpRqDb fn qq v s

/-- ROUTE_MEMBER_i (spec/10 R255): PACKAGE_ID is stored only where the state is FREE or LOST. -/
def memberWrite (a i : Nat) (x : RWrite) (s : State) : Out :=
  let st := s.memState i
  let open' : Bool := st == memFREE || st == memLOST
  let id := if open' then x.field (R.ROUTE_MEMBER_PACKAGE_ID i) else x.was (R.ROUTE_MEMBER_PACKAGE_ID i)
  let s := s.setReg a (withField x.new (R.ROUTE_MEMBER_PACKAGE_ID i) id)
  match bits x.val 20 2 with
  | 1 => execMemberAdmit (Fin.ofNat 32 i) (Fin.ofNat 4096 id) s
  | 2 => execMemberFree (Fin.ofNat 32 i) s
  | _ => .next s

/-- ROUTE_ISLAND_CTL: ISLAND_ID and SELF_INDEX are stored only while ALONE. -/
def islandWrite (a : Nat) (x : RWrite) (s : State) : Out :=
  let s := if s.isl = islALONE then s.setReg a x.new else s
  match bits x.val 24 2 with
  | 1 => execIslandJoin s
  | 2 => execIslandLeave s
  | _ => .next s

/-- RPRT_CXL_REGION (spec/13 R314): the range is stored only while OFFLINE. -/
def regionWrite (a i : Nat) (x : RWrite) (s : State) : Out :=
  let s := if s.region i = regionOFFLINE then s.setReg a x.new else s
  match bits x.val 32 2 with
  | 1 => execCxlRegionOnline (Fin.ofNat 32 i) s
  | 2 => execCxlRegionOffline (Fin.ofNat 32 i) s
  | _ => .next s

/-- MESA_CTL (spec/08 R198, R202). -/
def mesaCtlWrite (n : Nat) (x : RWrite) (s : State) : Out :=
  let s := s.put (R.MESA_CTL_FILL_MODE n) (x.field (R.MESA_CTL_FILL_MODE n))
  if x.field (R.MESA_CTL_VC_DISABLE n) = x.was (R.MESA_CTL_VC_DISABLE n) then .next s
  else execVcDisableWrite (Fin.ofNat 16 n) (x.field (R.MESA_CTL_VC_DISABLE n) == 1) s

/-- CSRs of the delivery of resumable NMIs (spec/02 R61): software may set NMIE, and the NMIs held are then taken. -/
def nmiWrite (h : Nat) (x : RWrite) (s : State) : Out :=
  let s := s.put (R.mnstatus_MNPP h) (bits x.val 11 2)
  if x.val.testBit 3 && s.get (R.mnstatus_NMIE h) == 0 then
    let s := s.put (R.mnstatus_NMIE h) 1
    match (s.hart h).nmi with
    | c :: cs => .next ((s.setHart h { s.hart h with nmi := cs }).raiseNmi h c)
    | [] => .next s
  else .next s

/-- What a write of a register does. `a` is its address. -/
def regAct (d : RegDesc) (ix : List Nat) (a : Nat) (x : RWrite) (s : State) : Out :=
  match d.id, ix with
  | .VALE_CORE_CTL, [n, i] => coreCtlWrite n i x s
  | .VALE_L2_CTL, [n, i] =>
    wayBitsWrite (.next s) 16 x (fun w => execL2WayDisable (Fin.ofNat 384 (32 * n + i)) (Fin.ofNat 16 w))
      (fun w => execL2WayEnable (Fin.ofNat 384 (32 * n + i)) (Fin.ofNat 16 w))
  | .VALE_VC_CTL, [n, i] => vcCtlWrite n i x s
  | .HOME_LOCKS, [n] => .next (if x.val.testBit 31 then s.put (R.HOME_LOCKS_PEAK n) (s.locksHeld n) else s)
  | .PASS_CTL, [p] => passCtlWrite p x s
  | .MC_COPY_CTL, [n] =>
    let s := s.setReg a x.new
    if x.val.testBit 0 then execCopyStart (Fin.ofNat 16 n) false s else .next s
  | .MESA_CTL, [n] => mesaCtlWrite n x s
  | .MESA_INV, [n] => if x.val.testBit 0 then execMesaInvalidateAll (Fin.ofNat 16 n) s else .next s
  | .MESA_WAY_CTL, [n] =>
    wayBitsWrite (.next s) 16 x (fun w => execMesaWayDisable (Fin.ofNat 16 n) (Fin.ofNat 16 w))
      (fun w => execMesaWayEnable (Fin.ofNat 16 n) (Fin.ofNat 16 w))
  | .HZN_CTL, [p] => hznCtlWrite a p x s
  | .ROUTE_ISLAND_CTL, _ => islandWrite a x s
  | .ROUTE_MEMBER, [i] => memberWrite a i x s
  | .XCE_EVENT, _ => .next (s.setReg a x.new).intaUpdate
  | .XCE_EVENT_EN, _ => .next (s.setReg a x.new).intaUpdate
  | .QP_SQ_DB, [q] => qpDbWrite .QP_SQ_DB 0 q x s
  | .QP_SQ_DB, [f, q] => qpDbWrite .QP_SQ_DB f q x s
  | .QP_CQ_DB, [q] => qpDbWrite .QP_CQ_DB 0 q x s
  | .QP_CQ_DB, [f, q] => qpDbWrite .QP_CQ_DB f q x s
  | .QP_RQ_DB, [q] => qpDbWrite .QP_RQ_DB 0 q x s
  | .QP_RQ_DB, [f, q] => qpDbWrite .QP_RQ_DB f q x s
  | .QP_CTL, [q] => qpCtlWrite 0 q x s
  | .QP_CTL, [f, q] => qpCtlWrite f q x s
  | .QP_SQ_BASE, [q] => qpCfgWrite a 0 q x s
  | .QP_SQ_BASE, [f, q] => qpCfgWrite a f q x s
  | .QP_CQ_BASE, [q] => qpCfgWrite a 0 q x s
  | .QP_CQ_BASE, [f, q] => qpCfgWrite a f q x s
  | .QP_RQ_BASE, [q] => qpCfgWrite a 0 q x s
  | .QP_RQ_BASE, [f, q] => qpCfgWrite a f q x s
  | .QP_SIZES, [q] => qpCfgWrite a 0 q x s
  | .QP_SIZES, [f, q] => qpCfgWrite a f q x s
  | .QP_IRQ, [q] => qpCfgWrite a 0 q x s
  | .QP_IRQ, [f, q] => qpCfgWrite a f q x s
  | .XCE_FN_SHARE, [f] =>
    if s.get R.XCE_STATUS_UC_RUNNING = 1 then .next (s.setReg a x.new)
    else .next { s with xce := { s.xce with share := s.xce.share ++ [(f, x.new.toNat % 2 ^ 20)] } }
  | .XCE_FN_OWIN, [f] => .next (if f = 0 then s else s.setReg a x.new)
  | .XCE_WIN_COMMIT, _ => if x.reaches 0 then execXceWinCommit (bits x.val 0 14) (bits x.val 16 1) s else .next s
  | .RPRT_CXL_REGION, [i] => regionWrite a i x s
  | .MBOX_TX_CTL, _ => if x.val.testBit 16 then execMboxTxGo (bits x.val 0 13) s else .next s
  | .MBOX_RX_CTL, _ => if x.val.testBit 0 then execMboxRxAck s else .next s
  | .MBOX_TX_BUF, _ => .next (if s.get R.MBOX_STATUS_TX_BUSY = 1 then s else s.setReg a x.new)
  | .TIME_CTL, _ =>
    let s := s.setReg a (withField x.new R.TIME_CTL_SOURCE (x.was R.TIME_CTL_SOURCE))
    if x.field R.TIME_CTL_SOURCE = x.was R.TIME_CTL_SOURCE then .next s else execTimeSourceWrite (x.field R.TIME_CTL_SOURCE) s
  | .TIME_STEP_FWD, _ => if x.reaches 0 then execTimeStepFwd (x.val % 2 ^ 32) s else .next s
  | .CCOL_COUNT, [b, j] =>
    execCcolCountWrite (Fin.ofNat 354 b) (Fin.ofNat 32 j)
      (BitVec.ofNat 64 (setBits (x.new.toNat % 2 ^ 48) 48 1 (bits x.val 48 1))) s
  | .CCOL_SELECT, [b, j] =>
    execCcolSelectWrite (Fin.ofNat 354 b) (Fin.ofNat 32 j) (BitVec.ofNat 64 (setBits x.new.toNat 40 1 (bits x.val 40 1))) s
  | _, _ => .next (s.setReg a x.new)

/-! ## Registers without a row of the map -/

/-- The bits of a controller's register that a write changes: a capacity mask of 16 ways, or Rbwb and Mweight, useShared and
sharedAT reading zero (R219). -/
def qosMask (k : QosCtl) (o : Nat) : Word :=
  if o ≠ 0x20 then 0xFFFFFFFFFFFFFFFF else if qosIsCap k then 0xFFFF else 0xFF0FFFF

/-- A CBQRI controller: a write of a control register that reaches its OP performs the operation (spec/09 R219). The AT field
is ignored by a capacity controller, and an operation for one access type is invalid at a bandwidth controller. -/
def qosWrite (k : QosCtl) (o a : Nat) (x : RWrite) (s : State) : Out :=
  let c := qosCode k
  let id := bits x.new.toNat 8 12
  let op := bits x.new.toNat 0 5
  let n := Fin.ofNat 1024 id
  let at' := bits x.new.toNat 5 3
  if o = 0x20 then .next (s.setReg a x.new)
  else if o = 0x18 then
    let s := s.setReg a x.new
    if !x.reaches 0 ∨ op = 0 then .next s
    else if (op ≠ 1 ∧ op ≠ 2) ∨ (at' ≠ 0 ∧ !qosIsCap k) then .next (s.qosReply c 0 2 0)
    else if 1024 ≤ id then .next (s.qosReply c 0 3 0)
    else if op = 1 then execCbqriAllocConfig k n (s.reg (a + 8)) s
    else (execCbqriAllocRead k n s).andThen (fun s =>
      .next (s.setReg (a + 8) (BitVec.ofNat 64 (Tbl.get (fun _ => 0) s.qos.result (c * 2)))))
  else if o = 0x8 then
    let s := s.setReg a x.new
    if !x.reaches 0 ∨ op = 0 then .next s
    else if op ≠ 1 ∧ op ≠ 2 then .next (s.qosReply c 1 2 0)
    else if 1024 ≤ id then .next (s.qosReply c 1 3 0)
    else if op = 1 then execCbqriMonitorConfig k n (bits x.new.toNat 20 8) s
    else execCbqriMonitorRead k n s
  else .next s

/-- An error bank: the control of a record, with the bit that makes its status invalid (spec/14 R339, R340). -/
def bankWrite (b o : Nat) (x : RWrite) (s : State) : Out :=
  if 0x40 ≤ o ∧ o < 0x140 ∧ o % 0x40 = 0 then
    let i := (o - 0x40) / 0x40
    let n := x.new.toNat
    let c : ErrCtl := { els := n.testBit 0, ces := bits n 2 2, ueds := bits n 4 2, uecs := bits n 6 2 }
    let s : State := { s with ras := { s.ras with ctls := Tbl.set (fun _ => {}) s.ras.ctls (b * 4 + i) c } }
    .next (if x.val.testBit 48 then s.setRec b i { s.errRec b i with valid := false } else s)
  else .next s

/-- A write within one 8-byte register, at byte `a` of the one address space of the map. -/
def State.regWrite (s : State) (a size : Nat) (v : Word) : Out :=
  let r := a / 8 * 8
  let x (rw w1c : Word) (old : Word) : RWrite := rWrite old rw w1c (a % 8) size v
  match regFind r with
  | some (d, ix) =>
    let w := x (BitVec.ofNat 64 d.rw) (BitVec.ofNat 64 d.w1c) (s.reg r)
    if regBad d.id ix w s then .fault .hostMadeError else regAct d ix r w s
  | none =>
    match qosAt r, bankAt r with
    | some (k, o), _ => qosWrite k o r (x (qosMask k o) 0 (s.reg r)) s
    | _, some (b, o) => bankWrite b o (x 0xFF 0 (s.bankView b o)) s
    | _, _ =>
      if 0x2900000 ≤ r ∧ r < 0x2901000 then
        let w := x 0xFFFFFFFFFFFFFFFF 0 (s.reg r)
        .next (s.iommuWrite (r - 0x2900000) w.new.toNat w.val)
      else if (0x2940000 ≤ r ∧ r < 0x2944000) ∨ (0x2960000 ≤ r ∧ r < 0x2964000) then
        let dom := if r < 0x2950000 then 0 else 1
        let w := x 0xFFFFFFFFFFFFFFFF 0 (s.regView r)
        let s := if w.reaches 0 then s.aplicWrite dom (r % 0x4000) w.new.toNat else s
        .next (if w.reaches 32 then s.aplicWrite dom (r % 0x4000 + 4) (w.new.toNat / 2 ^ 32) else s)
      else .next s

/-- A write of the package register space, at an offset and size that R6 takes. -/
def State.prsWrite (s : State) (o size : Nat) (v : Word) : Out := if s.prsDown o then .next s else s.regWrite o size v

/-! ## Writes of the BARs of the XCE -/

/-- A write of a function's MSI-X table (spec/11 R276): unmasking a vector sends what is pending. -/
def State.msixWrite (s : State) (f o size : Nat) (v : Word) : Out :=
  let i := o / 16
  if ¬ (prsAligned o size && decide (i < msixVectors f)) then .next s
  else
    let e := s.msixE f i
    let n := setBits e.num (8 * (o % 16)) (8 * size) v.toNat
    let e' : MsixE := { addr := bits n 2 62 <<< 2, data := bits n 64 32, mask := n.testBit 96 }
    let s := s.setMsixE f i { e' with mask := e.mask }
    if e.mask && !e'.mask then execMsixVectorUnmask (Fin.ofNat 2049 f) (Fin.ofNat 2048 i) s
    else .next (s.setMsixE f i e')

/-- A write of `size` bytes at an offset of a BAR. Bytes beyond one register go to the next. -/
def State.barWrite (s : State) (bar off size : Nat) (v : Word) : Out :=
  let reg (s : State) (a : Nat) : Out :=
    if a % 8 + size ≤ 8 then s.regWrite a size v
    else (s.regWrite a (8 - a % 8) v).andThen (fun s => s.regWrite (a / 8 * 8 + 8) (a % 8 + size - 8) (v >>> (8 * (8 - a % 8))))
  let db (o : Nat) : Bool := decide (o % 0x1000 < 0x18) && !(size == 4 || size == 8)
  if bar = 0 then (if 0x10000 ≤ off ∧ off < 0x18000 ∧ db off then .next s else reg s (pfBar0 + off))
  else if bar = 1 then (if off < 0x400000 then s.msixWrite 0 off size v else .next s)
  else
    let f := off / 0x10000 + 1
    let o := off % 0x10000
    if 0xF000 ≤ o then .next s
    else if 0xE000 ≤ o then s.msixWrite f (o - 0xE000) size v
    else if o < 0x8000 ∧ db o then .next s
    else reg s (vfBar0 f + o)

end Sys2Proof.Machine
end

