-- ==== Sys2Proof/Machine/Csr.lean ====
section
/-!
DEFINITION. CSR instructions (spec/02_vale_cores.md R37, R38, R46, R48, R53, R56, R61, spec/18 R404): which mode reaches
which CSR, what a CSR reads as, what a write stores, and the enables of cache-block operations. Where the spec refers to
the RISC-V privileged architecture its rules are followed (notes/assumptions/47.md).
-/

namespace Sys2Proof.Machine

/-! ## Reach -/

/-- The supervisor CSRs that a guest reaches as the VS CSR 0x100 above (H extension). -/
def vsShadow (n : Nat) : Bool :=
  n == 0x100 || n == 0x104 || n == 0x105 || (decide (0x140 ≤ n) && decide (n ≤ 0x144)) || n == 0x14D || n == 0x180

/-- The CSR that an instruction in a mode names. -/
def csrOf (p : Priv) (n : Nat) : Nat := if p = .vs ∧ vsShadow n then n + 0x100 else n

/-- CSRs that are views of others: sstatus, sie, sip, vsie, vsip, hip, scountovf and the counters read below M-mode. -/
def csrView (n : Nat) : Bool :=
  n == 0x100 || n == 0x104 || n == 0x144 || n == 0x204 || n == 0x244 || n == 0x644 || n == 0xDA0 || n == 0xE12 ||
  (decide (0xC00 ≤ n) && decide (n ≤ 0xC1F))

/-- The address of CSR `n` of a hart in the register map. -/
def csrAt (h n : Nat) : Nat := 2 ^ 40 + h * 4096 + n

/-- The hpm counters and events that read zero and ignore writes (R37). -/
def csrZero (n : Nat) : Bool :=
  (decide (0xB13 ≤ n) && decide (n ≤ 0xB1F)) || (decide (0x333 ≤ n) && decide (n ≤ 0x33F))

/-- Is there a CSR `n`? -/
def csrExists (h n : Nat) : Bool :=
  csrView n || csrZero n || (n != 0xFFF && (regFind (csrAt h n)).isSome)

/-- The bit of mcounteren, hcounteren and scounteren that opens a counter, and whether a mode may read it: `some c` is the
exception (R38, R404). -/
def State.counterCause (s : State) (h : Nat) (p : Priv) (n : Nat) : Option Nat :=
  let on (a : Nat) : Bool := (s.reg a).toNat.testBit (n - 0xC00)
  let m := on (R.rmcounteren h)
  match p with
  | .m => none
  | .hs => if m then none else some 2
  | .u => if m && on (R.rscounteren h) then none else some 2
  | .vs => if !m then some 2 else if on (R.rhcounteren h) then none else some 22
  | .vu => if !m then some 2 else if on (R.rhcounteren h) && on (R.rscounteren h) then none else some 22

/-- The bit of mstateen0 that opens a CSR below M-mode, where one does: srmcfg (R46), the custom CSRs, the hstateen and
sstateen registers, and henvcfg with senvcfg (Smstateen). -/
def csrEnable (n : Nat) : Option Nat :=
  if n = 0x181 then some 55
  else if n = 0x5C0 ∨ n = 0xDC0 then some 0
  else if (0x60C ≤ n ∧ n ≤ 0x60F) ∨ (0x10C ≤ n ∧ n ≤ 0x10F) then some 63
  else if n = 0x60A ∨ n = 0x10A then some 62
  else none

/-- The exception that a CSR instruction raises, where it raises one: 2 illegal instruction, 22 virtual instruction. The
lowest mode of a CSR is in bits [9:8] of its number, and one whose bits [11:10] are 3 is read-only. -/
def State.csrFault (s : State) (h : Nat) (p : Priv) (n : Nat) (writes : Bool) : Option Nat :=
  let lvl := bits n 8 2
  if !csrExists h n || (writes && bits n 10 2 == 3) then some 2
  else if 0xC00 ≤ n ∧ n ≤ 0xC1F then s.counterCause h p n
  else
    let low : Option Nat := match csrEnable n with
      | some b => if p ≠ .m ∧ !(s.reg (R.rmstateen0 h)).toNat.testBit b then some 2 else none
      | none => none
    match p with
    | .m => none
    | .hs => if lvl = 3 then some 2 else low
    | .u => if lvl ≠ 0 then some 2 else low
    | .vs =>
      if lvl = 3 then some 2
      else if lvl = 2 ∨ n = 0x181 ∨ n = 0x5C0 ∨ n = 0xDC0 then some 22
      else low
    | .vu =>
      if lvl = 3 then some 2
      else if lvl ≠ 0 then some 22
      else low

/-! ## Reads -/

/-- The bits of mstatus that sstatus shows. -/
def sstatusMask : Word := 0x00000003000C6722 ||| 0x600

/-- mip as it reads: the timers of Sstc and the counter-overflow interrupt stand beside the bits stored (R37, R404). -/
def State.mipView (s : State) (h : Nat) : Word :=
  let w := s.reg (R.rmip h)
  let cmp (en a off : Nat) : Bool :=
    (s.reg en).toNat.testBit 63 && decide ((s.reg a).toNat ≤ (s.pwr.now + off) % 2 ^ 64)
  let w := if (s.reg (R.rmenvcfg h)).toNat.testBit 63 then
      wordPut w 5 1 (b2n (cmp (R.rmenvcfg h) (R.rstimecmp h) 0)) else w
  let w := wordPut w 6 1 (b2n (((s.reg (R.rhvip h)).toNat.testBit 6) ||
    cmp (R.rhenvcfg h) (R.rvstimecmp h) (s.reg (R.rhtimedelta h)).toNat))
  wordPut w 13 1 (b2n (s.hart h).lcofi)

/-- The number of a hart as software sees it (spec/01 R20, R21): it follows PKG_NODE, which changes only at a start. -/
def State.mhartid (s : State) (h : Nat) : Nat := s.pkgId * 512 + h

/-- The henvcfg bits that menvcfg closes read zero. -/
def State.henvcfgView (s : State) (h : Nat) : Word :=
  s.reg (R.rhenvcfg h) &&& (s.reg (R.rmenvcfg h) ||| 0x1FFFFFFFFFFFFFFF)

/-- What CSR `n` of a hart reads as in a mode. time is GTIME, moved by htimedelta in a guest (R38). -/
def State.csrRead (s : State) (h : Nat) (p : Priv) (n : Nat) : Word :=
  if n = 0xF14 then BitVec.ofNat 64 (s.mhartid h)
  else if n = 0x100 then s.reg (R.rmstatus h) &&& sstatusMask
  else if n = 0x104 then s.reg (R.rmie h) &&& s.reg (R.rmideleg h)
  else if n = 0x144 then s.mipView h &&& s.reg (R.rmideleg h)
  else if n = 0x344 then s.mipView h
  else if n = 0x204 then (s.reg (R.rmie h) &&& s.reg (R.rhideleg h) &&& 0x444) >>> 1
  else if n = 0x244 then (s.mipView h &&& s.reg (R.rhideleg h) &&& 0x444) >>> 1
  else if n = 0x644 then s.mipView h &&& 0x1444
  else if n = 0x60A then s.henvcfgView h
  else if n = 0xDA0 then
    mask64 (fun j => decide (3 ≤ j) && decide (j < 19) && (s.reg (R.rmhpmevent h (j - 3))).toNat.testBit 63)
  else if n = 0xC01 then
    BitVec.ofNat 64 (s.pwr.now + (if privVirt p then (s.reg (R.rhtimedelta h)).toNat else 0))
  else if n = 0xC00 then s.reg (R.rmcycle h)
  else if n = 0xC02 then s.reg (R.rminstret h)
  else if 0xC03 ≤ n ∧ n ≤ 0xC12 then s.reg (R.rmhpmcounter h (n - 0xC03))
  else if 0x3B0 ≤ n ∧ n ≤ 0x3EF then
    let i := n - 0x3B0
    let a := bits (s.reg (R.rpmpcfg h (i / 8))).toNat (8 * (i % 8) + 3) 2
    let w := s.reg (R.rpmpaddr h i)
    if a = 3 then w ||| 0x1FF else w &&& ~~~(0x3FF : Word)
  else if csrZero n ∨ csrView n then 0
  else s.reg (csrAt h n)

/-! ## Writes -/

/-- The bits of a CSR that a write may change (R37: the fields of what is implemented; delegable exceptions and
interrupts, ASIDLEN and VMIDLEN, and the fields of the enable registers). -/
def csrMask (n : Nat) : Word :=
  match n with
  | 0x008 => 0xFF
  | 0x105 => 0xFFFFFFFFFFFFFFFD
  | 0x205 => 0xFFFFFFFFFFFFFFFD
  | 0x305 => 0xFFFFFFFFFFFFFFFD
  | 0x141 => 0xFFFFFFFFFFFFFFFE
  | 0x241 => 0xFFFFFFFFFFFFFFFE
  | 0x341 => 0xFFFFFFFFFFFFFFFE
  | 0x741 => 0xFFFFFFFFFFFFFFFE
  | 0x302 => 0xF0B7FF
  | 0x303 => 0x3666
  | 0x304 => 0x3EEE
  | 0x344 => 0x0226
  | 0x602 => 0xB1FF
  | 0x603 => 0x1444
  | 0x604 => 0x1444
  | 0x607 => 0xFFFE
  | 0x645 => 0x0444
  | 0x30A => 0xC0000000000000F1
  | 0x60A => 0xC0000000000000F1
  | 0x10A => 0xF1
  | 0x323 => 0xFC0000000000FFFF
  | _ => 0xFFFFFFFFFFFFFFFF

/-- The address translation modes of satp and vsatp, and of hgatp (R37). -/
def atpMode (m : Nat) : Bool := m == 0 || m == 8 || m == 9 || m == 10

/-- A CBIE field keeps its value where 0b10 is written (R48). -/
def cbieKept (old new : Word) : Word := if bits new.toNat 4 2 = 2 then wordPut new 4 2 (bits old.toNat 4 2) else new

/-- A byte of a pmpcfg register: a locked entry keeps it, and R = 0 with W = 1 is not stored. NA4 cannot be selected with a
grain of 4 KiB. -/
def pmpByte (old new : Nat) : Nat :=
  if old.testBit 7 then old
  else
    let new := new &&& 0x9F
    let new := if new % 4 = 2 then new - 2 else new
    if bits new 3 2 = 2 then setBits new 3 2 (bits old 3 2) else new

/-- Is a PMP address register locked: its own entry, or the next one as a top-of-range? -/
def State.pmpLocked (s : State) (h i : Nat) : Bool :=
  let cfg (i : Nat) : Nat := bits (s.reg (R.rpmpcfg h (i / 8))).toNat (8 * (i % 8)) 8
  (cfg i).testBit 7 || (decide (i < 63) && (cfg (i + 1)).testBit 7 && bits (cfg (i + 1)) 3 2 == 1)

/-- What a write of `v` to CSR `n` leaves in its register, `old` being there. -/
def csrStored (n : Nat) (old v : Word) : Word :=
  let m := csrMask n
  let w := (old &&& ~~~m) ||| (v &&& m)
  if n = 0x30A ∨ n = 0x60A ∨ n = 0x10A then cbieKept old w
  else if n = 0x180 ∨ n = 0x280 then (if atpMode (bits v.toNat 60 4) then v else old)
  else if n = 0x680 then (if atpMode (bits v.toNat 60 4) then v &&& 0xF3FFFFFFFFFFFFFC else old)
  else if 0x3A0 ≤ n ∧ n < 0x3B0 then
    BitVec.ofNat 64 ((List.range 8).foldl (fun k i => k + pmpByte (bits old.toNat (8 * i) 8) (bits v.toNat (8 * i) 8) <<< (8 * i)) 0)
  else if 0x3B0 ≤ n ∧ n ≤ 0x3EF then v &&& 0x3FFFFFFFFFFFFF
  else w

/-- A write of a status register: MPP keeps its value where the reserved 2 is written. -/
def State.statusWrite (s : State) (a : Nat) (w : RWrite) : State :=
  let n := w.new
  s.setReg a (if a % 4096 = 0x300 ∧ bits n.toNat 11 2 = 2 then wordPut n 11 2 (bits w.old.toNat 11 2) else n)

/-- Write CSR `n` of hart `h`, at which the instruction has arrived; those with a row of their own are that row. -/
def State.csrWrite (s : State) (h : Hart) (p : Priv) (n : Nat) (v : Word) : Out :=
  let a := csrAt h n
  let full (mask : Word) : RWrite := rWrite (s.reg a) mask 0 0 8 v
  if n = 0x181 then execSrmcfgWrite h p v s
  else if n = 0x5C0 then execCoreFreqReqWrite h p v s
  else if n = 0x744 then (nmiWrite h (full 0) s).andThen (fun s => .next (s.retired h))
  else if n = 0x100 then
    let w := rWrite (s.reg (R.rmstatus h)) (sstatusMask &&& 0xC6722) 0 0 8 v
    .next ((s.setReg (R.rmstatus h) w.new).retired h)
  else if n = 0x104 then
    .next ((s.setReg (R.rmie h) (rWrite (s.reg (R.rmie h)) (s.reg (R.rmideleg h) &&& 0x3EEE) 0 0 8 v).new).retired h)
  else if n = 0x144 then
    .next ((s.setReg (R.rmip h) (rWrite (s.reg (R.rmip h)) (s.reg (R.rmideleg h) &&& 0x0002) 0 0 8 v).new).retired h)
  else if n = 0x344 then
    let s := if v.toNat.testBit 13 then s else s.setHart h { s.hart h with lcofi := false }
    .next ((s.setReg a (csrStored n (s.reg a) v)).retired h)
  else if n = 0x204 then
    .next ((s.setReg (R.rmie h)
      (rWrite (s.reg (R.rmie h)) (s.reg (R.rhideleg h) &&& 0x444) 0 0 8 (v <<< 1)).new).retired h)
  else if n = 0x244 ∨ n = 0x644 then
    .next ((s.setReg (R.rhvip h) (rWrite (s.reg (R.rhvip h)) 0x4 0 0 8 (if n = 0x244 then v <<< 1 else v)).new).retired h)
  else if 0x323 ≤ n ∧ n ≤ 0x332 then .next ((s.setReg a (v &&& csrMask 0x323)).retired h)
  else if 0x3B0 ≤ n ∧ n ≤ 0x3EF then
    .next ((if s.pmpLocked h (n - 0x3B0) then s else s.setReg a (csrStored n (s.reg a) v)).retired h)
  else if csrZero n ∨ csrView n then .next (s.retired h)
  else
    match regFind a with
    | some (d, _) =>
      (match d.id with
        | .mstatus => .next ((s.statusWrite a (full (BitVec.ofNat 64 d.rw))).retired h)
        | .vsstatus => .next ((s.statusWrite a (full (BitVec.ofNat 64 d.rw))).retired h)
        | .hstatus => .next ((s.statusWrite a (full (BitVec.ofNat 64 d.rw))).retired h)
        | .CORE_PFCTL => .next ((s.setReg a (full (BitVec.ofNat 64 d.rw)).new).retired h)
        | .mnepc => .next ((s.setReg a (csrStored n (s.reg a) v)).retired h)
        | .mncause => .next ((s.setReg a v).retired h)
        | .misa => .next (s.retired h)
        | _ => .next ((s.setReg a (csrStored n (s.reg a) v)).retired h))
    | none => .next s

/-- A CSR instruction: a write, a set or clear of bits, or a read alone, in a mode. It answers the value the CSR had. -/
def State.csrInstr (s : State) (h : Hart) (p : Priv) (op : CsrOp) (n : Nat) (v : Word) : Out :=
  match s.csrFault h p n (op != .read) with
  | some c => .next (s.csrTrap h p c)
  | none =>
    let k := csrOf p n
    let old := s.csrRead h p k
    let s := s.setHart h { s.hart h with mode := p, out := .value old.toNat }
    match op with
    | .read => .next (s.retired h)
    | .write => s.csrWrite h p k v
    | .set => s.csrWrite h p k (old ||| v)
    | .clear => s.csrWrite h p k (old &&& ~~~v)

/-! ## Enables of cache-block operations (R48, Zicbom, Zicboz) -/

/-- The value of a field of menvcfg, of senvcfg and of henvcfg. -/
def State.envField (s : State) (h lo w : Nat) : Nat × Nat × Nat :=
  (bits (s.reg (R.rmenvcfg h)).toNat lo w, bits (s.reg (R.rsenvcfg h)).toNat lo w, bits (s.henvcfgView h).toNat lo w)

/-- The exception that a disabled cache-block operation raises in a mode: `f` is the field's value in menvcfg, senvcfg and
henvcfg, zero being disabled. -/
def cboCause (p : Priv) (f : Nat × Nat × Nat) : Option Nat :=
  match p with
  | .m => none
  | .hs => if f.1 = 0 then some 2 else none
  | .u => if f.1 = 0 ∨ f.2.1 = 0 then some 2 else none
  | .vs => if f.1 = 0 then some 2 else if f.2.2 = 0 then some 22 else none
  | .vu => if f.1 = 0 then some 2 else if f.2.2 = 0 ∨ f.2.1 = 0 then some 22 else none

/-- Does cbo.inval in a mode act as a flush: the field of a register that governs the mode is 0b01? -/
def invalFlushes (p : Priv) (f : Nat × Nat × Nat) : Bool :=
  match p with
  | .m => false
  | .hs => f.1 == 1
  | .u => f.1 == 1 || f.2.1 == 1
  | .vs => f.1 == 1 || f.2.2 == 1
  | .vu => f.1 == 1 || f.2.2 == 1 || f.2.1 == 1

/-- The effective CBIE of a hart in a mode. -/
def State.cbie (s : State) (h : Nat) (p : Priv) : Nat :=
  let f := s.envField h 4 2
  if (cboCause p f).isSome then 0 else if invalFlushes p f then 1 else 3

end Sys2Proof.Machine
end

