-- ==== Sys2Proof/Machine/Access.lean ====
section
/-!
DEFINITION. Accesses of harts (spec/01_package_topology.md R32 to R34, spec/02_vale_cores.md R39 to R52): the decode by
address and privilege, the attributes of each range, and the faults.
-/

namespace Sys2Proof.Machine

/-- Can a hart issue an access: its core is ONLINE and host clocks run (R55, spec/17 R391), and no trap of an earlier one
waits to be taken (R52). -/
def State.hartReady (s : State) (h : Nat) : Bool := s.hostUp && s.coreUp h && (s.hart h).held.isNone

/-- Hart `h` issues an access, where it can: it reads its blocks first (spec/14 R329, R330), and goes on unless that stops
the core. -/
def State.issue (s : State) (h : Hart) (x : Access) (ok : Bool) (go : State → Out) : Out :=
  if !s.hartReady h || !ok then .next s
  else
    let s := s.demandHart h x
    if s.hartReady h then go s else .next s

/-- A Fault under R32 to R34: recorded, and a precise access fault of the hart (R51). -/
def State.hartFault (s : State) (h cause tcause : Nat) (x : Access) (write : Bool) : State :=
  let q := (s.reg (R.rsrmcfg h)).toNat
  ((s.decodeErr cause 0 h 0 x.ga write).hartRecord h x.ga (q % 1024) (bits q 16 10)).trapHart h (faultCause x tcause) x

/-- A fault under R6. DESIGN CHOICE (notes/assumptions/50.md): an access that breaks R6 is recorded with CAUSE 6 wherever it
lies, outside every block too. -/
def State.sizeFault (s : State) (h tcause : Nat) (x : Access) (write : Bool) : State :=
  (s.decodeErr 6 0 h 0 x.ga write).trapHart h tcause x

/-- The local address of an access. -/
def localOf (x : Access) : Nat := x.ga % 2 ^ 44

/-- Is an access to an I/O range of a size and alignment that R39 gives? -/
def ioAligned (x : Access) : Bool := (x.size == 1 || x.size == 2 || x.size == 4 || x.size == 8) && x.ga % x.size == 0

/-- The exception of a page that translation or PMP refuses, by the access-fault cause `c` of the access (R40, R48): page
faults are 12, 13 and 15, guest-page faults 20, 21 and 23, with the guest physical address. PMP raises an access fault. -/
def xfaultCause (f : XFault) (c : Nat) : Nat × Nat :=
  match f with
  | .page => (if c = 1 then 12 else if c = 5 then 13 else 15, 0)
  | .guest g => (if c = 1 then 20 else if c = 5 then 21 else 23, g)
  | .pmp => (c, 0)

/-- How an access is refused before R32 sees it: by its first page, or by its second (R40). -/
def Access.refusal (x : Access) : Option XFault :=
  match x.fault, x.page2 with
  | some f, _ => some f
  | none, some p => p.fault
  | none, none => none

/-- A page that is refused traps, on either page with the access's own virtual address (R40); else the access goes on. -/
def State.translated (s : State) (h c : Nat) (x : Access) (go : Out) : Out :=
  match Access.refusal x with
  | some f => let e := xfaultCause f (faultCause x c); .next (s.trapHart h e.1 x e.2)
  | none => go

/-- What the bytes of an access beyond its first meet (R40): the global address there, and the CAUSE where it is a fault;
bytes outside memory make the access misaligned. -/
def tailBad (reach : Nat → Reach) (x : Access) : Option (Nat × Option Nat) :=
  let at' (a : Nat) : Option (Nat × Option Nat) :=
    match reach a with
    | .mem _ => none
    | .peer => none
    | .fault c => some (a, some c)
    | _ => some (a, none)
  match x.page2 with
  | some p => (at' (x.ga + pageOne x - 1)).orElse (fun _ => at' p.ga)
  | none => at' (x.ga + x.size - 1)

/-- Is a page of an access of page type IO? -/
def Access.hasIo (x : Access) : Bool := x.pbmt == .io || (match x.page2 with | some p => p.pbmt == .io | none => false)

/-- An access to memory begins, unless its page type or its last byte forbids it (R39, R40). -/
def State.memAccess (s : State) (h : Nat) (k : AKind) (x : Access) (op v cmp : Nat) : State :=
  let write := k == .store || k == .amo || k == .sc
  let crosses16 := decide (16 < x.ga % 16 + x.size)
  let aligned := x.ga % x.size == 0
  let mis : Bool :=
    if k = .lr ∨ k = .sc then !aligned
    else if Access.hasIo x ∧ k ≠ .fetch then !aligned
    else k == .amo && crosses16
  if mis then s.trapHart h k.misaligned x
  else if (k = .lr ∨ k = .sc) ∧ x.pbmt ≠ .pma then s.trapHart h 7 x
  else
    match tailBad (if k = .fetch then s.reachFetch x.priv else s.reachHart x.priv) x with
    | some (a, some c) => s.hartFault h c k.cause { x with ga := a } write
    | some (_, none) => s.trapHart h k.misaligned x
    | none => s.memBegin h k x op v cmp

/-! ## Loads -/

/-- A load of backed MMIO: a BAR of the XCE answers at once, a window or a device later (R26, spec/13 R318). -/
def State.mmioLoad (s : State) (h : Hart) (x : Access) : Out :=
  if !ioAligned x then .next (s.trapHart h 4 x)
  else
    match s.xceBarAt (localOf x), s.rootAt (localOf x) with
    | some (3, off), _ => execBar2Load h (Fin.ofNat 2049 (off / 2 ^ 30 + 1)) (off % 2 ^ 30) x s
    | some (b, off), _ => .next ((s.retire h .load x).setOut h (.value (s.barRead b off x.size)))
    | none, some i =>
      if s.contained i then .next (s.containedRead h i x)
      else if (s.hart h).mmio.isSome then .next s
      else .next ((s.count (ctrRoot i) 2).setHart h { s.hart h with mmio := some (x, some (Fin.ofNat 32 i)), out := .idle })
    | none, none => .next s

/-- The root port whose bus range holds a bus (R311). -/
def State.busPort (s : State) (bus : Nat) : Option Nat :=
  (List.range 32).find? (fun i =>
    s.get (R.RPRT_STATUS_WIDTH i) != 0 && decide (s.cfgBits i 0x18 8 8 ≤ bus) && decide (bus ≤ s.cfgBits i 0x18 16 8) &&
    s.cfgBits i 0x18 8 8 != 0)

/-- Does a configuration space of bus 0 exist: a root port that its group's mode creates, or function 0 of its device
(R311)? -/
def State.rootExists (s : State) (i : Nat) : Bool :=
  decide (i < 32) && (s.get (R.RPRT_STATUS_WIDTH i) != 0 || i % 8 == 0)

/-- A load of ECAM (R23, R39). -/
def State.ecamLoad (s : State) (h : Hart) (off : Nat) (x : Access) : Out :=
  let rid := off / 4096
  let ones (s : State) : Out := .next ((s.retire h .load x).setOut h (.value (2 ^ (8 * x.size) - 1)))
  if x.size = 8 then .next (s.trapHart h 5 x)
  else if !ioAligned x then .next (s.trapHart h 4 x)
  else if rid = ridBRIDGE ∨ (0x100 ≤ rid ∧ rid < 0xA00) then execEcamConfigAccess h off x.size none (s.retire h .load x)
  else if rid < 0x100 then
    (if s.rootExists rid then .next ((s.retire h .load x).setOut h (.value (s.rootCfgRead rid off x.size))) else ones s)
  else
    match s.busPort (rid / 256) with
    | none => ones s
    | some i =>
      if s.contained i ∨ !(s.portSlot i).up then ones s
      else if (s.hart h).mmio.isSome then .next s
      else .next ((s.count (ctrRoot i) 2).setHart h { s.hart h with mmio := some (x, some (Fin.ofNat 32 i)), out := .idle })

/-- A load of the interrupt files (R39): a misaligned one is misaligned, any other a Fault with CAUSE 0 (R32). -/
def State.irqLoad (s : State) (h : Nat) (x : Access) : State :=
  if x.ga % x.size ≠ 0 then s.trapHart h 4 x else s.hartFault h 0 5 x false

/-- The die that a register of the package register space belongs to, if one is online for it (R35): VALE n. -/
def State.valeAt (s : State) (o : Nat) : Option Nat :=
  let d := (o - 0x1000000) / 0x100000
  if 0x1000000 ≤ o ∧ o < 0x1C00000 ∧ s.dieOnline d then some d else none

/-- A hart's access to a register of die `d` goes to it over MGT (spec/06 R151) and ends with the response. The TAG is the
lowest that waits for none (DESIGN CHOICE, notes/assumptions/52.md). A second access of the hart, and one that finds no
free TAG, waits. -/
def State.regAsk (s : State) (h : Hart) (d o : Nat) (x : Access) (write : Option Word) : State :=
  match (List.range 256).find? (fun t => !s.pass.asked.any (fun a => a.die == d && a.tag == t)) with
  | some t =>
    if (s.hart h).mmio.isSome then s
    else
      let m : Mgt := { mopc := b2n write.isSome, tag := t, offset := o % 2 ^ 20, size8 := x.size == 8, data := write.getD 0, status := 0 }
      let s := s.setHart h { s.hart h with mmio := some (x, none), out := .idle }
      let a : RegAsk := { die := d, tag := t, write := write.isSome, who := some (h, x) }
      { s with pass := { s.pass with mgt := s.pass.mgt ++ [(d, m)], asked := s.pass.asked ++ [a] } }
  | none => s

/-- A load of the package register space (R6, R34). -/
def State.prsLoad (s : State) (h : Hart) (o : Nat) (x : Access) : Out :=
  if !prsAligned o x.size then .next (s.sizeFault h 5 x false)
  else if !prsBlock o then .next (s.hartFault h 5 5 x false)
  else
    match s.valeAt o with
    | some d => .next (s.regAsk h d o x none)
    | none => .next ((s.retire h .load x).setOut h (.value (s.prsRead o x.size)))

/-- HART_LOAD. -/
def execHartLoad (h : Hart) (x : Access) (s : State) : Out :=
  s.issue h x (x.size != 0) fun s =>
  s.translated h 5 x <|
    match s.reachHart x.priv x.ga with
    | .mem _ => .next (s.memAccess h .load x 0 0 0)
    | .peer => .next (s.memAccess h .load x 0 0 0)
    | .mmio => s.mmioLoad h x
    | .ecam off => s.ecamLoad h off x
    | .prs o => s.prsLoad h o x
    | .irq => .next (s.irqLoad h x)
    | .fault c => .next (s.hartFault h c 5 x false)

/-! ## Stores -/

/-- An access to an I/O range that is a store ends. -/
def State.storeDone (s : State) (h : Nat) (x : Access) : State := (s.retire h .store x).setOut h .done

/-- A store to backed MMIO. -/
def State.mmioStore (s : State) (h : Hart) (x : Access) (v : Nat) : Out :=
  let v := v % 2 ^ (8 * x.size)
  if !ioAligned x then .next (s.trapHart h 6 x)
  else
    match s.xceBarAt (localOf x), s.rootAt (localOf x) with
    | some (3, off), _ => execBar2Store h (Fin.ofNat 2049 (off / 2 ^ 30 + 1)) (off % 2 ^ 30) v x s
    | some (b, off), _ => (s.barWrite b off x.size (BitVec.ofNat 64 v)).andThen (fun s => .next (s.storeDone h x))
    | none, some i =>
      if s.contained i then .next ((s.portErr i x.ga true).storeDone h x)
      else
        let s := s.count (ctrRoot i) 2
        .next (({ s with io := { s.io with posted := (i, (localOf x), x.size, v) :: s.io.posted } } : State).storeDone h x)
    | none, none => .next s

/-- A store to ECAM. -/
def State.ecamStore (s : State) (h : Hart) (off : Nat) (x : Access) (v : Nat) : Out :=
  let rid := off / 4096
  let v := v % 2 ^ (8 * x.size)
  if x.size = 8 then .next (s.trapHart h 7 x)
  else if !ioAligned x then .next (s.trapHart h 6 x)
  else if rid = ridBRIDGE ∨ (0x100 ≤ rid ∧ rid < 0xA00) then execEcamConfigAccess h off x.size (some v) (s.retire h .store x)
  else if rid < 0x100 then
    (if s.rootExists rid then
      match s.rootCfgWrite rid off x.size v with
      | some s => .next (s.storeDone h x)
      | none => .fault .hostMadeError
    else .next (s.storeDone h x))
  else
    match s.busPort (rid / 256) with
    | none => .next (s.storeDone h x)
    | some i =>
      if s.contained i then .next ((s.portErr i x.ga true).storeDone h x)
      else if !(s.portSlot i).up then .next (s.storeDone h x)
      else
        let s := s.count (ctrRoot i) 2
        .next (({ s with io := { s.io with posted := (i, (localOf x), x.size, v) :: s.io.posted } } : State).storeDone h x)

/-- A store to the package register space (R6, R34). -/
def State.prsStore (s : State) (h : Hart) (o : Nat) (x : Access) (v : Word) : Out :=
  if !prsAligned o x.size then .next (s.sizeFault h 7 x true)
  else if !prsBlock o then .next (s.hartFault h 5 7 x true)
  else
    match s.valeAt o with
    | some d => .next (s.regAsk h d o x (some v))
    | none => (s.prsWrite o x.size v).andThen (fun s => .next (s.storeDone h x))

/-- Stores of a hart that wait (R52: at most 64). -/
def State.storesWaiting (s : State) (h : Nat) : Nat := ((s.hart h).waits.filter (fun w => w.kind.needsWrite && !w.kind.isPrefetch)).length

/-- HART_STORE. -/
def execHartStore (h : Hart) (x : Access) (v : Nat) (s : State) : Out :=
  s.issue h x (x.size != 0) fun s =>
  s.translated h 7 x <|
    match s.reachHart x.priv x.ga with
    | .mem _ => .next (if 64 ≤ s.storesWaiting h then s else s.memAccess h .store x 0 v 0)
    | .peer => .next (if 64 ≤ s.storesWaiting h then s else s.memAccess h .store x 0 v 0)
    | .mmio => s.mmioStore h x v
    | .ecam off => s.ecamStore h off x v
    | .prs o => s.prsStore h o x (BitVec.ofNat 64 v)
    | .irq =>
      if x.ga % x.size ≠ 0 then .next (s.trapHart h 6 x)
      else if x.size = 4 ∧ isSetPending (localOf x) then .next ((s.setPending (localOf x) v 0).storeDone h x)
      else .next (s.hartFault h 0 7 x true)
    | .fault c => .next (s.hartFault h c 7 x true)

/-! ## Fetches, atomics and reservations -/

/-- HART_FETCH (R33). -/
def execHartFetch (h : Hart) (x : Access) (s : State) : Out :=
  s.issue h x (x.size != 0) fun s =>
  s.translated h 1 x <|
    match s.reachFetch x.priv x.ga with
    | .mem _ => .next (s.memAccess h .fetch x 0 0 0)
    | .peer => .next (s.memAccess h .fetch x 0 0 0)
    | .fault c => .next (s.hartFault h c 1 x false)
    | _ => .next (s.hartFault h 3 1 x false)

/-- An atomic, LR or SC outside memory: a Fault where R32 gives one, of cause `c`, a store/AMO access fault elsewhere (R39).
In the package register space one that R6 or R34 refuses is recorded as they say. -/
def State.atomicOutside (s : State) (h c : Nat) (x : Access) (write : Bool) : Reach → State
  | .fault k => s.hartFault h k c x write
  | .irq => s.hartFault h 0 7 x write
  | .prs o =>
    if !prsAligned o x.size then s.sizeFault h 7 x write
    else if !prsBlock o then s.hartFault h 5 7 x write
    else s.trapHart h 7 x
  | _ => s.trapHart h 7 x

/-- HART_AMO (R39, R40). -/
def execHartAmo (h : Hart) (x : Access) (op : Nat) (v cmp : Nat) (s : State) : Out :=
  s.issue h x (x.size != 0 && decide (s.storesWaiting h < 64)) fun s =>
  s.translated h 7 x <|
    match s.reachHart x.priv x.ga with
    | .mem _ => .next (s.memAccess h .amo x op v cmp)
    | .peer => .next (s.memAccess h .amo x op v cmp)
    | r => .next (s.atomicOutside h 7 x true r)

/-- LOAD_RESERVED (R39, R41). Of R32's Faults it takes that of a load. -/
def execLoadReserved (h : Hart) (x : Access) (s : State) : Out :=
  s.issue h x (x.size != 0) fun s =>
  s.translated h 5 x <|
    match s.reachHart x.priv x.ga with
    | .mem _ => .next (s.memAccess h .lr x 0 0 0)
    | .peer => .next (s.memAccess h .lr x 0 0 0)
    | r => .next (s.atomicOutside h 5 x false r)

/-- STORE_CONDITIONAL (R41): without the reservation it writes nothing and answers 1. -/
def execStoreConditional (h : Hart) (x : Access) (v : Nat) (s : State) : Out :=
  s.issue h x (x.size != 0 && decide (s.storesWaiting h < 64)) fun s =>
  s.translated h 7 x <|
    let go (s : State) : State :=
      if (s.hart h).resv = some (x.ga / 64) ∨ x.ga % x.size ≠ 0 ∨ x.pbmt ≠ .pma then s.memAccess h .sc x 0 v 0
      else
        let y := s.hart h
        ((s.setHart h { y with resv := none, scFails := y.scFails + 1 }).retire h .sc x).setOut h (.value 1)
    match s.reachHart x.priv x.ga with
    | .mem _ => .next (go s)
    | .peer => .next (go s)
    | r => .next (s.atomicOutside h 7 x true r)

/-! ## Prefetches and cache-block operations -/

/-- Is a prefetch switched off (CORE_PFCTL)? -/
def State.pfOff (s : State) (h : Nat) : PfBy → Bool
  | .zicbop => s.get (R.CORE_PFCTL_CBOP_OFF h) == 1
  | .l1i => s.get (R.CORE_PFCTL_L1I_PF_OFF h) == 1
  | .l1d => s.get (R.CORE_PFCTL_L1D_PF_OFF h) == 1
  | .l2 => s.get (R.CORE_PFCTL_L2_PF_OFF h) == 1

/-- PREFETCH: only memory with PBMT = PMA is fetched (R39), unless CORE_PFCTL switches it off. The L1I's next-line
prefetcher brings its line into the L1I (R42); when a prefetcher fires is the core's own. A prefetch never traps. -/
def execPrefetch (h : Hart) (x : Access) (op : PfOp) (src : PfBy) (s : State) : Out :=
  s.issue h x true fun s =>
    let k : AKind := match op with | .i => .prefetchI | .r => .prefetchR | .w => .prefetchW
    let off := s.pfOff h src
    let s := if src = .zicbop then s.retired h else s
    if off ∨ x.pbmt ≠ .pma ∨ (Access.refusal x).isSome then .next s
    else
      match s.reachHart x.priv x.ga with
      | .mem _ => .next (s.memBegin h k x 0 0 0)
      | .peer => .next (s.memBegin h k x 0 0 0)
      | _ => .next s

/-- A cache-block operation, checked as a store once the fields `f` of menvcfg, senvcfg and henvcfg enable it (R48). -/
def State.cboRow (s : State) (h : Hart) (k : AKind) (f : Nat × Nat × Nat) (x : Access) : Out :=
  s.issue h x true fun s =>
    match cboCause x.priv f with
    | some c => .next (s.csrTrap h x.priv c)
    | none => s.translated h 7 x <|
      match s.reachHart x.priv x.ga with
      | .mem _ => .next (s.memBegin h k x 0 0 0)
      | .peer => .next (s.memBegin h k x 0 0 0)
      | .fault c => .next (s.hartFault h c 7 x true)
      | .irq => .next (s.hartFault h 0 7 x true)
      | _ => .next (if k = .cboZero then s.trapHart h 7 x else (s.retire h k x).setOut h .done)

/-- CBO_CLEAN, enabled by CBCFE. -/
def execCboClean (h : Hart) (x : Access) (s : State) : Out := s.cboRow h .cboClean (s.envField h 6 1) x
/-- CBO_FLUSH, enabled by CBCFE. -/
def execCboFlush (h : Hart) (x : Access) (s : State) : Out := s.cboRow h .cboFlush (s.envField h 6 1) x
/-- CBO_INVAL, by the effective CBIE (R48): 0b01 flushes, 0b11 invalidates, 0b00 traps. -/
def execCboInval (h : Hart) (x : Access) (s : State) : Out :=
  s.cboRow h (if s.cbie h x.priv = 1 then .cboInvalAsFlush else .cboInval) (s.envField h 4 2) x
/-- CBO_ZERO, enabled by CBZE. -/
def execCboZero (h : Hart) (x : Access) (s : State) : Out :=
  if 64 ≤ s.storesWaiting h then .next s else s.cboRow h .cboZero (s.envField h 7 1) x

/-! ## Register writes as a command of their own -/

/-- REGISTER_WRITE: hart `h` executes a CSR instruction, or writes, in M-mode, the register at an address of the one
address space of the map (Machine/RegMap.lean): the package register space or a BAR. -/
def execRegisterWrite (h : Hart) (r : RegAcc) (s : State) : Out :=
  if !s.hartReady h then .next s
  else
    match r with
    | .csr p op n v => s.csrInstr h p op n v
    | .mem a size v =>
      let ga := s.pkgId * 2 ^ 44 + 0xFFF00000000 + a
      let x : Access := { priv := .m, pbmt := .pma, ga := ga, va := ga, size := size, elem := none, fof := false, walk := false }
      if a < 2 ^ 28 then s.prsStore h a x v
      else if 2 ^ 33 ≤ a then
        let f := (a - 2 ^ 33) / 2 ^ 16
        (if 1 ≤ f ∧ s.fnExists f ∧ !s.fnDrains f then
          (s.barWrite 2 (a - 2 ^ 33 - 2 ^ 16) size v).andThen (fun s => .next (s.retired h))
        else .next s)
      else if 2 ^ 32 ≤ a then
        (if s.fnDrains 0 then .next s else (s.barWrite 0 (a - 2 ^ 32) size v).andThen (fun s => .next (s.retired h)))
      else .next s

/-! ## MGT messages (spec/06 R151) -/

/-- Take an MGT message of a port's die out of flight. -/
def State.takeMgt (s : State) (p : Nat) (m : Mgt) : State :=
  ({ s with pass := { s.pass with mgt := s.pass.mgt.erase (p / 2, m) } } : State).rxConsume (.mgt m)

/-- Has an MGT message of die `d` come out of the buffers of its receiver, end `e`, in order (R154)? -/
def State.mgtLanded (s : State) (e d : Nat) (m : Mgt) : Bool :=
  [2 * d, 2 * d + 1].any (fun p => (s.pEnd e p).rxq.any (fun q => q.2 == .mgt m && !(s.strm d e).wait.any (fun w => w.1 == q.1)))

/-- An MGT message arrives at the end that it goes to, once its turn has come: those of a die and direction in their order
(R154). One that nothing in the model sent is in flight from here on, at its receiver. A die that is down receives
nothing, and an illegal message is discarded. -/
def State.arriveMgt (s : State) (p : Nat) (m : Mgt) (row : Bool) (f : State → Out) : Out :=
  let d := p / 2
  let e := if m.mopc = 2 then 0 else 1
  if !s.dieOnline d then .next (s.takeMgt p m)
  else if !mgtLegal e m then .next ((s.takeMgt p m).put (R.PASS_EVENT_FORMAT_ERR e p) 1)
  else if !row then .next s
  else
    let known := s.pass.mgt.contains (d, m)
    let s : State := if known then s else { s with pass := { s.pass with mgt := s.pass.mgt ++ [(d, m)] } }
    let first := s.pass.mgt.find? (fun x => x.1 == d && (x.2.mopc == 2) == (m.mopc == 2)) == some (d, m)
    if first && (!known || s.mgtLanded e d m) then f (s.takeMgt p m) else .next s

/-- The register access of die `d` that waits for TAG `t`. -/
def State.askOf (s : State) (d t : Nat) : Option RegAsk := s.pass.asked.find? (fun a => a.die == d && a.tag == t)

/-- The die answers a register access. -/
def State.regAnswer (s : State) (d : Nat) (m : Mgt) (v : Nat) (refused : Bool) : State :=
  let r : Mgt := { mopc := 2, tag := m.tag, offset := 0, size8 := m.size8, data := BitVec.ofNat 64 v, status := b2n refused }
  let asked := if (s.askOf d m.tag).isSome then s.pass.asked else s.pass.asked ++ [{ die := d, tag := m.tag, write := m.mopc == 1 }]
  { s with pass := { s.pass with mgt := s.pass.mgt ++ [(d, r)], asked := asked } }

/-- Size and place of a register access: 4 or 8 bytes at an offset of VALE n. -/
def mgtSize (m : Mgt) : Nat := if m.size8 then 8 else 4
def mgtPlace (d : Nat) (m : Mgt) : Nat := 0x1000000 + d * 0x100000 + m.offset % 2 ^ 20

/-- REG_READ at the die. -/
def execRegRead (p : Port) (m : Mgt) (s : State) : Out :=
  let d := p.val / 2
  let a := mgtPlace d m
  s.arriveMgt p m (m.mopc == 0) (fun s =>
    if !prsAligned a (mgtSize m) then .next (s.regAnswer d m 0 true)
    else .next (s.regAnswer d m (s.prsRead a (mgtSize m)) false))

/-- REG_WRITE at the die. -/
def execRegWrite (p : Port) (m : Mgt) (s : State) : Out :=
  let d := p.val / 2
  let a := mgtPlace d m
  s.arriveMgt p m (m.mopc == 1) (fun s =>
    if !prsAligned a (mgtSize m) then .next (s.regAnswer d m 0 true)
    else (s.prsWrite a (mgtSize m) m.data).andThen (fun s => .next (s.regAnswer d m 0 false)))

/-- REG_RSP at the Basin end: a response without its request is discarded. -/
def execRegRsp (p : Port) (m : Mgt) (s : State) : Out :=
  let d := p.val / 2
  s.arriveMgt p m (m.mopc == 2) (fun s =>
    match s.askOf d m.tag with
    | some a =>
      .next (({ s with pass := { s.pass with asked := s.pass.asked.erase a, regRsp := some (d, m) } } : State).regDone a m.data.toNat (m.status == 1))
    | none => .next s)

/-- MSI_WRITE at the die: the core and file are in OFFSET, the identity begins in its last ten bits and ends in SIZE. A core
that no longer takes interrupts drops it (spec/02 R60); the routing ID of one that nothing in the model sent is 0, that of
no device. -/
def execMsiWrite (p : Port) (m : Mgt) (s : State) : Out :=
  let d := p.val / 2
  let f := bits m.offset 5 5
  let h := d * 32 + bits m.offset 0 5
  s.arriveMgt p m (m.mopc == 3) (fun s =>
    let a := s.pass.asked.find? (fun a => a.die == d && (match a.msi with | some (y, _) => y == m | none => false))
    let rid := match a with | some a => (match a.msi with | some (_, r) => r | none => 0) | none => 0
    let s : State := match a with | some a => { s with pass := { s.pass with asked := s.pass.asked.erase a } } | none => s
    if 16 < f then .next s
    else if s.fileOpen h then .next (s.fileSet h f (bits m.offset 10 10 + (b2n m.size8) <<< 10))
    else .next (s.fileDrop h rid))

end Sys2Proof.Machine
end

