-- ==== Sys2Proof/Machine/MsgRows.lean ====
section
/-!
DEFINITION. The Osesteth messages as commands (spec/04, spec/05), and the die agent's own steps (spec/03). A message
command takes its message out of flight where its turn has come (notes/assumptions/5.md).
-/

namespace Sys2Proof.Machine

/-! ## Requests (R102, R103) -/

/-- RD_SHARED (R102). -/
def execRdShared (m : Msg) (s : State) : Out :=
  (s.demandMsg m).arrive m (m.vc == vcREQ && m.opc == opRD_SHARED) (fun s => s.reqIn m)
/-- RD_OWN (R102). -/
def execRdOwn (m : Msg) (s : State) : Out :=
  (s.demandMsg m).arrive m (m.vc == vcREQ && m.opc == opRD_OWN) (fun s => s.reqIn m)
/-- UPGRADE (R102). -/
def execUpgrade (m : Msg) (s : State) : Out :=
  (s.demandMsg m).arrive m (m.vc == vcREQ && m.opc == opUPGRADE) (fun s => s.reqIn m)
/-- RD_CUR with CMO = 0 (R103). -/
def execRdCur (m : Msg) (s : State) : Out :=
  (s.demandMsg m).arrive m (m.vc == vcREQ && m.opc == opRD_CUR && m.cmo == 0) (fun s => s.reqIn m)
/-- RD_CUR with CMO = CLEAN (R103). -/
def execRdCurClean (m : Msg) (s : State) : Out :=
  (s.demandMsg m).arrive m (m.vc == vcREQ && m.opc == opRD_CUR && m.cmo == 1) (fun s => s.reqIn m)
/-- RD_CUR with CMO = FLUSH (R103). -/
def execRdCurFlush (m : Msg) (s : State) : Out :=
  (s.demandMsg m).arrive m (m.vc == vcREQ && m.opc == opRD_CUR && m.cmo == 2) (fun s => s.reqIn m)
/-- RD_CUR with CMO = INVAL (R103). -/
def execRdCurInval (m : Msg) (s : State) : Out :=
  (s.demandMsg m).arrive m (m.vc == vcREQ && m.opc == opRD_CUR && m.cmo == 3) (fun s => s.reqIn m)
/-- WR_FULL_NC (R103, R114). -/
def execWrFullNc (m : Msg) (s : State) : Out :=
  (s.demandMsg m).arrive m (m.vc == vcREQ && m.opc == opWR_FULL) (fun s => s.reqIn m)
/-- WR_PART_NC (R103, R114). -/
def execWrPartNc (m : Msg) (s : State) : Out :=
  (s.demandMsg m).arrive m (m.vc == vcREQ && m.opc == opWR_PART) (fun s => s.reqIn m)
/-- ATOMIC_NC (R103). -/
def execAtomicNc (m : Msg) (s : State) : Out :=
  (s.demandMsg m).arrive m (m.vc == vcREQ && m.opc == opATOMIC) (fun s => s.reqIn m)

/-- PROXY_DIE_REQUEST: a die's request for a remote line at its proxy (R115). -/
def execProxyDieRequest (m : Msg) (s : State) : Out :=
  (s.demandMsg m).arrive m (m.vc == vcREQ && m.srcPkg == s.pkgId && decide (m.srcAgent < 12) && !s.lineLocal m.addr)
    (fun s => s.reqIn m)

/-- DIR_WAY_WAIT_RESUME: a way of the set has become free or unlocked for a transaction that waits for one (R110). -/
def execDirWayWaitResume (n : Ix16) (htag : Fin 512) (s : State) : Out :=
  match s.lock n htag with
  | some t =>
    if t.phase = .way then
      if t.proxy then
        match t.reply with
        | some m => .next (s.pxReply n htag t m)
        | none => .next (s.pxNcGo n htag t)
      else if t.wasForwarded then .next (s.forwarded n htag t)
      else .next ((s.fillFinish n htag t).tryClose n htag)
    else .next s
  | none => .next s

/-! ## Snoops (R73, R116) -/

/-- SNP_FWD_SHARED. -/
def execSnpFwdShared (m : Msg) (s : State) : Out :=
  (s.demandMsg m).arrive m (m.vc == vcSNP && m.opc == opFWD_SHARED) (fun s => s.snpIn m)
/-- SNP_FWD_OWN. -/
def execSnpFwdOwn (m : Msg) (s : State) : Out :=
  (s.demandMsg m).arrive m (m.vc == vcSNP && m.opc == opFWD_OWN) (fun s => s.snpIn m)
/-- SNP_FWD_CUR. -/
def execSnpFwdCur (m : Msg) (s : State) : Out :=
  (s.demandMsg m).arrive m (m.vc == vcSNP && m.opc == opFWD_CUR) (fun s => s.snpIn m)
/-- SNP_INV. -/
def execSnpInv (m : Msg) (s : State) : Out :=
  (s.demandMsg m).arrive m (m.vc == vcSNP && m.opc == opINV) (fun s => s.snpIn m)
/-- PROXY_REMOTE_SNOOP: a remote home's snoop at a proxy (R116, R139). -/
def execProxyRemoteSnoop (m : Msg) (s : State) : Out :=
  (s.demandMsg m).arrive m (m.vc == vcSNP && isHomeAgent m.dstAgent) (fun s => s.snpIn m)
/-- SNOOP_HOLD_RELEASE (R133). -/
def execSnoopHoldRelease (d : Die) (line : Nat) (s : State) : Out :=
  .next (if s.guarded d line none then s else s.holdRelease d line)

/-! ## Answers to snoops (R105) -/

/-- SNP_ACK_MISS. -/
def execSnpAckMiss (m : Msg) (s : State) : Out :=
  (s.demandMsg m).arrive m (m.vc == vcRSP && m.opc == opACK_MISS) (fun s => s.ansIn m)
/-- SNP_ACK_INV. -/
def execSnpAckInv (m : Msg) (s : State) : Out :=
  (s.demandMsg m).arrive m (m.vc == vcRSP && m.opc == opACK_INV) (fun s => s.ansIn m)
/-- FWD_DONE. -/
def execFwdDone (m : Msg) (s : State) : Out :=
  (s.demandMsg m).arrive m (m.vc == vcRSP && m.opc == opFWD_DONE) (fun s => s.ansIn m)
/-- FWD_DONE_WB. -/
def execFwdDoneWb (m : Msg) (s : State) : Out :=
  (s.demandMsg m).arrive m (m.vc == vcRSP && m.opc == opFWD_DONE_WB) (fun s => s.ansIn m)

/-! ## Completions (R107, R114) -/

/-- COMP_ACK CLOSE. -/
def execCompAckClose (m : Msg) (s : State) : Out :=
  (s.demandMsg m).arrive m (m.vc == vcRSP && m.opc == opCOMP_ACK && m.status == stCLOSE) (fun s => s.closeIn m)

/-- COMP_ACK COMMIT. -/
def execCompAckCommit (m : Msg) (s : State) : Out :=
  (s.demandMsg m).arrive m (m.vc == vcRSP && m.opc == opCOMP_ACK && m.status == stCOMMIT) (fun s => s.commitIn m)

/-- COMP_ACK DONE (R107). -/
def execCompAckDone (m : Msg) (s : State) : Out :=
  (s.demandMsg m).arrive m (m.vc == vcRSP && m.opc == opCOMP_ACK && m.status == stDONE)
    (fun s => s.replyIn m (fun s => s.dieComp m.dstAgent m) (fun s => s.ioComp m))
/-- COMP_ACK READY (R114). -/
def execCompAckReady (m : Msg) (s : State) : Out :=
  (s.demandMsg m).arrive m (m.vc == vcRSP && m.opc == opCOMP_ACK && m.status == stREADY)
    (fun s => s.replyIn m (fun s => s.dieComp m.dstAgent m) (fun s => s.ioComp m))
/-- ERR (R51, R93, R118). -/
def execErr (m : Msg) (s : State) : Out :=
  (s.demandMsg m).arrive m (m.vc == vcRSP && m.opc == opERR)
    (fun s => s.replyIn m (fun s => s.dieErr m.dstAgent m) (fun s => s.ioErr m))

/-! ## Refusals and grants (R128 to R131) -/

/-- RETRY. -/
def execRetry (m : Msg) (s : State) : Out :=
  (s.demandMsg m).arrive m (m.vc == vcRSP && m.opc == opRETRY) (fun s => s.retryIn m)
/-- CREDIT_GRANT. -/
def execCreditGrant (m : Msg) (s : State) : Out :=
  (s.demandMsg m).arrive m (m.vc == vcRSP && m.opc == opGRANT) (fun s => s.grantIn m)

/-- TOKEN_WATCHDOG_EXPIRY: a granted token has gone unused (R131): it becomes FREE and its reservation is released. -/
def execTokenWatchdogExpiry (n : Ix16) (t : Fin 256) (s : State) : Out :=
  let k := s.tok n t
  if k.st = .grantLine ∨ k.st = .grantUnbound then
    let s := s.freeTok n t
    let s := match k.slot with | some h => s.slotFreed n h k.line | none => s
    let s := s.tokenErr n t 0 k.pkg k.agent
    .next (s.errRecord (bankHome n) errUEC (k.line * 64) (recInfo 0 0 k.agent k.pkg) 0)
  else .next s

/-! ## Writebacks (R108, R135, R139) -/

/-- WB_DIRTY. -/
def execWbDirty (m : Msg) (s : State) : Out := (s.demandMsg m).wbArrive m (m.vc == vcWB)
/-- PROXY_DIE_WB_DIRTY: a die's writeback of a remote line at its proxy (R139). -/
def execProxyDieWbDirty (m : Msg) (s : State) : Out :=
  (s.demandMsg m).wbArrive m (m.vc == vcWB && m.srcPkg == s.pkgId && decide (m.srcAgent < 12) && !s.lineLocal m.addr)
/-- WB_ACK. -/
def execWbAck (m : Msg) (s : State) : Out :=
  (s.demandMsg m).arrive m (m.vc == vcRSP && m.opc == opWB_ACK) (fun s => s.wbAckIn m)
/-- WB_ACK_STALE. -/
def execWbAckStale (m : Msg) (s : State) : Out :=
  (s.demandMsg m).arrive m (m.vc == vcRSP && m.opc == opWB_STALE) (fun s => s.wbAckIn m)

/-! ## Data (R102 to R104, R107, R118) -/

/-- DATA_S. -/
def execDataS (m : Msg) (s : State) : Out := (s.demandMsg m).dataArrive m (m.vc == vcDATA && m.opc == opDATA_S)
/-- DATA_E. -/
def execDataE (m : Msg) (s : State) : Out := (s.demandMsg m).dataArrive m (m.vc == vcDATA && m.opc == opDATA_E)
/-- DATA_M. -/
def execDataM (m : Msg) (s : State) : Out := (s.demandMsg m).dataArrive m (m.vc == vcDATA && m.opc == opDATA_M)
/-- DATA_O: an illegal field at whoever receives it (R93). -/
def execDataO (m : Msg) (s : State) : Out := (s.demandMsg m).dataArrive m (m.vc == vcDATA && m.opc == opDATA_O)

/-! ## The die agent's own steps (spec/03) -/

/-- DIE_L2_MISS: the die agent takes the oldest piece of hart `h` that it can (R67). -/
def execDieL2Miss (h : Hart) (s : State) : Out :=
  match (s.hart h).waits.find? (fun w => s.askable h w && !(w.acc.pbmt == .pma && !w.kind.isCmo && s.holds h w)) with
  | some w => .next ((s.demand (fun s y => s.hartReads h w.line y) true).dieServe h w)
  | none => .next (s.tryHart h)

/-- FLUSH_WALK_LINE: the walk reaches the next line of its unit (R76, R77). -/
def execFlushWalkLine (u : FlushUnit) (s : State) : Out := (s.demandFlush u).flushWalkLine u

/-- L2_EVICTION: hart `h`'s L2 evicts a line (R68); a line with an UPGRADE outstanding stays (R129 item 6). -/
def execL2Eviction (h : Hart) (line : Nat) (s : State) : Out :=
  match s.l2Way h line with
  | some w =>
    if s.upgrading (h.val / 32) line ∨ 256 ≤ s.wbCount (h.val / 32) then .next s
    else .next ((s.demand (fun s y => s.hartReads h line y) true).l2Evict h (l2Set line) w none)
  | none => .next s

/-- VALE_CACHE_EVICTION: the Vale cache evicts a line (R70). -/
def execValeCacheEviction (d : Die) (line : Nat) (s : State) : Out :=
  match s.vcWay d line with
  | some w =>
    if s.upgrading d line ∨ 256 ≤ s.wbCount d then .next s
    else .next ((s.demand (fun s y => s.dieReads d line y) true).vcEvict d (valeSlice (line * 64)) (valeSet (line * 64)) w none)
  | none => .next s

end Sys2Proof.Machine
end

