-- ==== Sys2Proof/Machine/Start.lean ====
section
/-!
DEFINITION. Supply, start-up and the package resets (spec/17_power_clocks_start.md R396 to R402, spec/19 R421, R422, R429,
R434), and the start of the sanitise operations (spec/07_memory_channels.md R187, R188).
-/

namespace Sys2Proof.Machine

def State.setStage (s : State) (x : Stage) : State := s.setPwr { s.pwr with stage := x }

/-! ## Supply (R396, R397, R421, R422, R434) -/

/-- VAUX_UP: a POR; the boot ROM starts. -/
def execVauxUp (s : State) : Out :=
  if s.tvx.alive then .next s
  else
    let s := s.por false
    .next ((s.setTvx { s.tvx with alive := true }).setStage .vaux)

/-- VAUX_DOWN: Thoiviyx stops. -/
def execVauxDown (s : State) : Out := if s.tvx.alive then .next (s.por false) else .next s

/-- Does every thermal sensor read below its Release limit (R422)? Sensors 0 to 415 are those of the Vale dies and the
Basin die, 416 to 419 those of the Mesa dies. -/
def State.cool (s : State) : Bool :=
  (List.range 420).all (fun i => decide (Tbl.get (fun _ => 0) s.tvx.temps i < limitRelease (if i < 416 then 0 else 13)))

/-- HOST_PWR_REQ is asserted, for at most three attempts (R421). -/
def State.hostAsk (s : State) : State :=
  if s.tvx.running && !s.tvx.recovery && !s.pwr.good && !s.pwr.hostReq && decide (s.pwr.tries < 3) && s.cool then
    s.setPwr { s.pwr with hostReq := true, tries := s.pwr.tries + 1 }
  else s

/-- HOST_PWR_REQUEST. -/
def execHostPwrRequest (s : State) : Out := .next (if s.pwr.tries = 0 then s.hostAsk else s)

/-- HOST_PWR_RETRY: 10 s after a timeout. -/
def execHostPwrRetry (s : State) : Out := .next (if 1 ≤ s.pwr.tries then s.hostAsk else s)

/-- PWRGOOD_TIMEOUT: START_STOPPED with reason 3. -/
def execPwrgoodTimeout (s : State) : Out :=
  if s.pwr.hostReq ∧ !s.pwr.good then
    .next ((s.setPwr { s.pwr with hostReq := false }).logEvent 0x0072 sevURGENT noDie 0 3)
  else .next s

/-- A POR of the host side: Thoiviyx, its ingresses and its log keep running (R397), and the microcontrollers and MEM_TRAIN
are loaded again from the running set. -/
def State.hostPor (s : State) : State :=
  let ask := s.pwr.hostReq
  let s := (s.por true).settingsCheck.loadAll [2, 3, 4, 5, 6]
  s.setPwr { s.pwr with good := true, hostReq := ask, stage := .vaux }

/-- Start-up begins, unless recovery mode, a flash grant (R434) or a reference clock lost since the last POR (R391) holds it. -/
def State.hostBegin (s : State) : State := if s.tvx.recovery || s.tvx.flashGranted || !s.pwr.refclk then s else s.setStage .good

/-- PWRGOOD_RISE. -/
def execPwrgoodRise (s : State) : Out :=
  if !s.tvx.alive || s.pwr.good then .next s
  else
    let s := if s.pwr.fell then s.hostPor else s.setPwr { s.pwr with good := true }
    .next ((s.setPwr { s.pwr with goodAt := s.pwr.now, tries := 0, fell := false }).hostBegin)

/-- Long operations on host resources. -/
def hostOps : List Nat := [opSANITISE_RANGE, opFORMAT_RANGE, opSANITISE_DEVICE, opDIE_OFFLINE, opDIE_ONLINE]
/-- A running operation of a list ends without its effect. -/
def State.longBreak (s : State) (ops : List Nat) : State :=
  match s.tvx.longOp with
  | some l => if ops.contains l.cmd.pkt.opcode && l.final.isNone then s.longFinish stDEVICE_ERROR else s
  | none => s

/-- PWRGOOD_FALL: host operation stops; the next rise is a POR. -/
def execPwrgoodFall (s : State) : Out :=
  if !s.pwr.good then .next s
  else
    let s := s.setPwr { s.pwr with good := false, fell := true, stage := .vaux }
    let s : State := { s with chan := { s.chan with san := {} } }
    .next ((s.longBreak hostOps).flashTry)

/-- HOST_RAIL_FAULT (R434). -/
def execHostRailFault (s : State) : Out :=
  if s.pwr.good then
    let s := (s.setPwr { s.pwr with hostReq := false }).hostStop
    .next (s.errRecord bankTvx errUEC 0 0 0)
  else .next s

/-- JTAG_EXTEST_CLAMP: taken from PWRGOOD until step 3 of R397; at any other time it acts as BYPASS (spec/19 R429). -/
def execJtagExtestClamp (s : State) : Out :=
  .next (if s.pwr.stage = .good then s.setPwr { s.pwr with jtag := true } else s)

/-- JTAG_TEST_LOGIC_RESET: start-up begins again as a POR. -/
def execJtagTestLogicReset (s : State) : Out := .next (if s.pwr.jtag then s.hostPor.hostBegin else s)

/-! ## What every start applies -/

/-- Ways of a set that hold a bit in WAY_RETIRED, from bit `i`. -/
def State.wayBits (s : State) (i n : Nat) : Nat := bits s.tvx.recs.way i n

/-- The retired ways of the device records (spec/15 R436). -/
def State.wayRecords (s : State) : State :=
  let s := foldN 384 s (fun h s => s.put (R.VALE_L2_STATUS_WAYS_RETIRED (h / 32) (h % 32)) (s.wayBits (wayL2 h 0) 16))
  let s := foldN 192 s (fun i s =>
    let d := i / 16
    let s := s.put (R.VALE_VC_STATUS_WAYS_RETIRED d (i % 16)) (s.wayBits (wayVc d (i % 16) 0) 16)
    s.put (R.VALE_SF_STATUS_WAYS_RETIRED d (i % 16)) (s.wayBits (waySf d (i % 16) 0) 24))
  foldN 16 s (fun n s =>
    let s := s.put (R.HOME_DIR_STATUS_WAYS_RETIRED n) (s.wayBits (wayDir n 0) 16)
    let s := s.put (R.HOME_RPT_STATUS_WAYS_RETIRED n) (s.wayBits (wayRpt n 0) 16)
    let s := s.put (R.HOME_RLD_STATUS_WAYS_RETIRED n) (s.wayBits (wayRld n 0) 16)
    let s := s.put (R.MESA_WAY_STATUS_WAYS_RETIRED n) (s.wayBits (wayMesa n 0) 16)
    s.put (R.MESA_WAY_STATUS_VC_RETIRED n) (s.wayBits (wayVict n) 1))

/-- Every on-chip array is filled: ways that are not retired are in service, and the Mesa slices invalidate (R121, R207). -/
def State.arraysFilled (s : State) : State :=
  let s := foldN 12 s (fun d s => s.dieArrays d)
  let s := foldN 16 s (fun n s =>
    let r := s.get (R.MESA_WAY_STATUS_WAYS_RETIRED n)
    let s := (s.put (R.MESA_WAY_CTL_WAY_DISABLE n) r).put (R.MESA_WAY_STATUS_WAYS_DISABLED n) r
    (s.mesaCountWays n).putB (R.MESA_STATUS_VC_ENABLED n) (s.get (R.MESA_WAY_STATUS_VC_RETIRED n) == 0))
  s.mesaInvAll

/-- PKG_NODE is loaded from the settings store (spec/01). -/
def State.loadNode (s : State) : State := s.put R.PKG_NODE_PACKAGE_ID (s.settingN 1)

/-- The width codes of the four ports of a lane group, by its mode (spec/13 R310): 1 x4, 2 x8, 3 x16, 0 not created. -/
def groupWidths (mode : Nat) : List Nat :=
  if mode = 0 then [3, 0, 0, 0]
  else if mode = 1 then [2, 0, 2, 0]
  else if mode = 2 then [2, 0, 1, 1]
  else if mode = 3 then [1, 1, 2, 0]
  else [1, 1, 1, 1]

/-- What POR takes from the settings store and the device records (spec/15 R360). -/
def State.porSettings (s : State) : State :=
  let s := s.loadNode.wayRecords
  let s := foldN 384 s (fun h s => if s.tvx.recs.core.testBit h then s.setCoreState h coreRETIRED else s)
  let s := foldN 32 s (fun i s => s.put (R.RPRT_STATUS_WIDTH i) ((groupWidths ((s.setting 4).getD (i / 4) 0)).getD (i % 4) 0))
  let s := foldN 15 s (fun k s =>
    match s.setting (bucketItem k) with
    | [] => s
    | v =>
      let n := ofBytes (v.drop 1)
      let s := s.setReg (R.rRAS_BUCKET_CFG k) (BitVec.ofNat 64 n)
      { s with ras := { s.ras with cfgNow := Tbl.set bucketDefault s.ras.cfgNow k n } })
  foldN 8 s (fun p s => if (s.settingN 5).testBit p then (s.put (R.HZN_CTL_ENABLE p) 1).hznStart p else s)

/-- STARTUP_ARRAYS_READY: step 3 of R397. -/
def execStartupArraysReady (s : State) : Out :=
  if s.pwr.stage = .good ∧ !s.pwr.jtag ∧ s.tvx.running then
    let s := (s.setStage .training).porSettings
    let s := ((s.put R.PWR_STATUS_UC_RUNNING 1).put R.XCE_STATUS_UC_RUNNING 1).put R.XCE_STATUS_ENGINE_READY 1
    .next (foldN 12 s.arraysFilled (fun d s => s.passUp d))
  else .next s

/-! ## The host image and the release of hart 0 (R399, R400) -/

/-- "HQHOSTIM". -/
def magicHost : List Nat := [0x48, 0x51, 0x48, 0x4F, 0x53, 0x54, 0x49, 0x4D]

/-- A field of the host area. -/
def State.hostField (s : State) (i n : Nat) : Nat := ofBytes ((List.range n).map (fun k => s.hostByte (i + k)))
def State.imgLength (s : State) : Nat := s.hostField 8 4
def State.imgLoad (s : State) : Nat := s.hostField 16 8
def State.imgEntry (s : State) : Nat := s.hostField 24 8
def State.imgNmi (s : State) : Nat := s.hostField 32 8

/-- Does the header keep the table of R399? -/
def State.imgOk (s : State) : Bool :=
  let n := s.imgLength
  let a := s.imgLoad
  (List.range 8).map s.hostByte == magicHost && decide (1 ≤ n) && decide (n ≤ 94367744) && s.hostField 12 4 == 0 &&
  a % 4096 == 0 && decide (a + n ≤ s.cap) && (decide (a + n ≤ 0xC0000000) || decide (0x100000000 ≤ a)) &&
  decide (s.imgEntry < n) && decide (s.imgNmi < n) && s.imgNmi % 64 == 0 && s.hostField 40 24 == 0

/-- Line `k` of the image is written; what lies past its end in the last line is open. -/
def State.imgLine (s : State) (k : Nat) : State :=
  let have' := min 64 (s.imgLength - 64 * k)
  let v := s.hostField (0x1000 + 64 * k) have'
  let (rest, s) := s.freeLine
  let l : Line := BitVec.ofNat 512 (v + (rest.toNat >>> (8 * have')) <<< (8 * have'))
  let d := s.imgLoad + 64 * k
  s.homeWrite (sliceOf d) d 0 (some l)

/-- Is a Pass port's train over, or was none begun? -/
def State.portRests (s : State) (p : Nat) : Bool :=
  let st := s.passState p
  st == passACTIVE || st == passRETIRED || st == passDISABLED

/-- Step 6: the dies whose links run are online, and every core of them that is not retired starts. -/
def State.releaseHarts (s : State) : State :=
  let s := foldN 12 s (fun d s =>
    if s.passState (2 * d) = passACTIVE ∨ s.passState (2 * d + 1) = passACTIVE then
      (s.setDieCtl d { ever := true }).setDieOnline d true
    else s)
  let s := (foldN 16 s (fun n s => s.mesaInvEnd n)).loadNode
  let s := foldN 384 s (fun h s => if s.dieOnline (h / 32) && s.coreState h == coreOFFLINE then s.coreStart h else s)
  s.setStage .run

/-- HOST_IMAGE_COPY_COMPLETE: a sanitise that resumed, a component that restarts and the Pass trains are waited for
(spec/07 R191, spec/16 R382). -/
def execHostImageCopyComplete (s : State) : Out :=
  if s.pwr.stage ≠ .image ∨ s.chan.san.op ≠ 0 ∨ [2, 3, 5, 6].any s.ucRestarting ∨ !(List.range 24).all s.portRests then .next s
  else if !s.imgOk then .next (s.startStopped 2)
  else
    let load := s.imgLoad
    let entry := s.imgEntry
    let nmi := s.imgNmi
    let s := foldN ((s.imgLength + 63) / 64) s (fun k s => s.imgLine k)
    let s := foldN 384 s (fun h s =>
      let s := s.setReg (R.rVALE_CORE_RESET_PC (h / 32) (h % 32)) (BitVec.ofNat 64 (load + entry) &&& 0xFFFFFFFFFFFFFE)
      s.setReg (R.rVALE_CORE_NMI_PC (h / 32) (h % 32)) (BitVec.ofNat 64 (load + nmi) &&& 0xFFFFFFFFFFFFC0))
    .next s.releaseHarts

/-! ## PKG_WARM (R402) -/

/-- The bits of a register that PKG_WARM keeps, as each register's description says. -/
def warmKeep (id : RegId) (v : Nat) : Nat :=
  let all := 2 ^ 64 - 1
  match id with
  | .PKG_DIES | .PKG_MEMMAP | .METER_LAST | .MBOX_MSL_STATS | .IOMMU_MSI_DROPS | .ROUTE_TIMEOUT | .ROUTE_ENTRY => all
  | .VALE_CORE_STATUS => 0xFF28 + (if v % 8 = coreRETIRED then 7 else 0)
  | .VALE_DIE_STATUS => 1
  | .VALE_L2_STATUS | .VALE_VC_STATUS | .HOME_DIR_STATUS | .HOME_RPT_STATUS | .HOME_RLD_STATUS => 0xFFFF00000000
  | .VALE_SF_STATUS => 0xFFFFFF
  | .MESA_STATUS => 0xC
  | .MESA_WAY_STATUS => 0x1FFFF0000
  | .RPRT_STATUS => 7
  | .XCE_STATUS => 2
  | .PASS_STATUS | .PASS_LANE_INFO | .PASS_LINK_STATS | .PASS_TRAIN_INFO | .PASS_SEQ_INFO | .PASS_RX_GOOD_LO | .PASS_RX_GOOD_HI
  | .PASS_TX_GOOD_LO | .PASS_TX_GOOD_HI | .PASS_CREDIT | .PASS_RX_MAP | .PASS_TX_MAP => all
  | .MC_CH_STATUS | .MC_CH_CONFIG | .MC_MARK | .MC_ERR_STATS | .MC_COPY_STATUS | .MC_FILL_STATUS | .MC_SAN_STATUS | .MC_SAN_BASE
  | .MC_SAN_LENGTH | .MC_SAN_PROGRESS => all
  | .HZN_STATUS | .HZN_CTL | .HZN_EVENT | .HZN_PARTNER | .HZN_PARTNER_SERIAL | .HZN_LANES | .HZN_LINK_STATS | .HZN_DROP_STATS
  | .HZN_TRAIN_INFO | .HZN_TIME_ASYM | .HZN_TIME_OFFSET | .HZN_LANE_STATS | .HZN_CREDIT => all
  | .RAS_AGG_CTL | .RAS_MSI_ADDR | .RAS_MSI_DATA | .RAS_PATROL_CTL | .RAS_PATROL_STATUS | .RAS_BANK_VALID | .RAS_BUCKET_CFG => all
  | .PWR_LIMIT | .PWR_CTL | .PWR_STATUS | .PWR_ENERGY | .PWR_TEMP | .PWR_MESA_LEVEL | .PWR_MESA_THRESH => all
  | .TIME_NOW | .TIME_CTL | .TIME_STATUS | .TIME_NEXT_PPS | .TIME_STEP_FWD | .TIME_OFFSET => all
  | _ => 0

/-- A register after PKG_WARM; none where it holds its reset value. -/
def warmReg (e : Nat × Word) : Option (Nat × Word) :=
  match regFind e.1 with
  | none => none
  | some (d, _) =>
    let k := BitVec.ofNat 64 (warmKeep d.id e.2.toNat)
    let v := (e.2 &&& k) ||| (regReset e.1 &&& ~~~ k)
    if v = regReset e.1 then none else some (e.1, v)

/-- A line of this package's memory takes what a copy of it held; a corrupt copy leaves the marker. -/
def State.warmLine (s : State) (line mcid : Nat) (l : Option Line) : State :=
  if s.lineLocal line then
    let d := s.dOfLine line
    s.homeWrite (sliceOf d) d mcid l
  else s

/-- Does a snoop-filter entry's die hold its line dirty? -/
def State.sfDirty (s : State) (d : Nat) (e : SfWay) : Bool :=
  e.valid && (dirtyMoesi e.dst || (List.range 32).any (fun c => e.pres.testBit c &&
    (match s.l2Way (d * 32 + c) e.line with
     | some w => dirtyMoesi (s.l2 (d * 32 + c) (l2Set e.line) w).st
     | none => false)))

/-- What flush-then-disable of every cache brings to memory (R402 step 2): data in flight, held at a home or in a lock, and the
dirty lines of the dies. -/
def State.warmFlush (s : State) : State :=
  let owned (m : Msg) : Bool := m.srcPkg == s.pkgId && s.lineLocal m.addr &&
    (let d := s.dOfLine m.addr; (s.homeView (sliceOf d) d).ownedBy m.srcAgent)
  let wbs := (s.home.wbHeld.map (·.2) ++ s.net.filter (fun m => m.vc == vcWB && isHomeAgent m.dstAgent)).filter owned
  let moved := s.net.filter (fun m => m.vc == vcDATA && m.opc == opDATA_M && m.payload)
  let locks := s.home.locks.filterMap (fun e => match e.2 with
    | some t => if t.dirty && !t.proxy then t.got.map (fun g => (t, g)) else none
    | none => none)
  let sfs := s.die.sf.filter (fun e => s.sfDirty (e.1 / (16 * 4096 * 24)) e.2)
  let vcs := s.die.vc.filter (fun e => e.2.valid && dirtyMoesi e.2.dst && (s.sfWay (e.1 / 2 ^ 20) e.2.line).isNone)
  let dies : List (Nat × Nat × Line × Bool) :=
    sfs.filterMap (fun e =>
      let d := e.1 / (16 * 4096 * 24)
      (s.dieData d e.2.line).map (fun x => (e.2.line, s.dieMcid d e.2.line, x))) ++
    vcs.map (fun e => (e.2.line, e.2.mcid, (e.2.data, e.2.bad)))
  let s := wbs.foldl (fun s m => s.warmLine m.addr m.mcid (msgLine m)) s
  let s := locks.foldl (fun s e => s.warmLine e.1.line e.1.mcid (if e.2.2 then none else some e.2.1)) s
  let s := moved.foldl (fun s m => s.warmLine m.addr m.mcid (msgLine m)) s
  dies.foldl (fun s e => s.warmLine e.1 e.2.1 (if e.2.2.2 then none else some e.2.2.1)) s

/-- LOST_NOTICE to every ACTIVE member, and the package is ALONE (spec/10 R262). -/
def State.warmLeave (s : State) : State :=
  let s := foldN 32 s (fun j s => if s.memState j = memACTIVE then s.islSend icLOST_NOTICE (s.memPkg j) s.selfIx else s)
  s.alone

/-- Messages for this package leave the Horizon receive buffers. -/
def HPortSt.drop (x : HPortSt) (pkg : Nat) : HPortSt :=
  (x.rxq.filter (fun q => match q.2 with | .ose m _ _ _ => m.dstPkg == pkg | .win m => m.dstPkg == pkg)).foldl HPortSt.consume x

/-- Everything that PKG_WARM resets beside registers and the ingresses of Thoiviyx. -/
def State.warmClear (s : State) : State :=
  let me := s.pkgId
  let h := s.hzn
  { s with
    net := [], mesa := {}, qos := {}, home := { chHeld := s.home.chHeld }, xce := {}, ccol := {},
    core := { harts := s.core.harts.filterMap (fun e => if e.2.wasUp then some (e.1, { wasUp := true }) else none) },
    die := { ctl := s.die.ctl.filterMap (fun e =>
      let x : DieCtl := { e.2 with phase := 0 }
      if x = {} then none else some (e.1, x)) },
    hzn := { h with
      ports := h.ports.map (fun e => (e.1, e.2.drop me)), win := [],
      out := h.out.filter (fun m => m.vc == vcPOST && m.wopc == 2 && m.icode == icLOST_NOTICE) },
    io := { posted := s.io.posted, cpls := s.io.cpls, slots := s.io.slots.filterMap (fun e =>
      let x : Slot := { last := e.2.last, seen := e.2.seen, nacks := e.2.nacks, status := setBits 0 5 2 (bits e.2.status 5 2) }
      if x = {} then none else some (e.1, x)) },
    meter := { s.meter with writing := 0, committed := 0 },
    regs := s.regs.filterMap warmReg }

/-- The MBOX ingress returns to its start, its commands are discarded, and the response of its long operation is (spec/15
R357). -/
def State.warmMbox (s : State) : State :=
  let t := s.tvx
  s.setTvx { t with mbox := {}, mboxQ := [], queue := t.queue.filter (fun c => c.ing != .mbox),
                    longOp := t.longOp.map (fun l => if l.cmd.ing = .mbox then { l with mute := true } else l) }

/-- An interrupted range operation goes on from its checkpoint; a CXL range has no region left (spec/07 R191). -/
def State.warmSan (s : State) : State :=
  let x := s.chan.san
  if x.op = 0 then s
  else if 2 ^ 43 ≤ x.base then
    ((s.setSan { x with op := 0, phase := 0, fence := false, next := 0, again := false }).longEnd stDEVICE_ERROR)
  else
    s.setSan { x with phase := sanPHASE_OVERWRITE, again := false, next := match x.ent with | some e => e.check | none => 0 }

/-- Steps 1 to 4 of R402. -/
def State.warmHold (s : State) : State :=
  let s := (s.warmLeave.warmFlush).warmClear.warmMbox
  let s := ((s.longBreak [opDIE_OFFLINE, opDIE_ONLINE]).setPwr { s.pwr with perst := 0 }).ceilings false
  let s := (s.arraysFilled.put R.XCE_STATUS_ENGINE_READY 1)
  let s := foldN 16 s (fun n s => if s.get (R.MESA_STATUS_THROTTLE n) = 3 then s.setMesaBypass n true else s)
  let s := foldN 12 s (fun d s => if s.dieOnline d then (s.passDown d).passUp d else s.passDown d)
  s.loadNode

/-- May PKG_WARM run: memory is published and host clocks run? -/
def State.warmReady (s : State) : Bool :=
  s.pwr.stage == .run || s.pwr.stage == .image || (s.pwr.stage == .stopped && decide (0 < s.cap))

/-- PKG_WARM: steps 1 to 5; step 6 is HOST_IMAGE_COPY_COMPLETE and what follows. -/
def State.pkgWarm (s : State) : State := if s.warmReady then (s.warmHold.warmSan).setStage .image else s

/-- PKG_WARM. -/
def execPkgWarm (s : State) : Out := .next s.pkgWarm

/-- PACKAGE_RESET: the response is sent before the reset. -/
def execPackageReset (s : State) : Out :=
  .next (s.execHead opPACKAGE_RESET 1 false (fun c s =>
    let a := c.pkt.data.headD 0
    if a ≠ 1 ∧ a ≠ 2 then (s, (stINVALID_ARG, 0, []))
    else if a = 1 ∧ !s.warmReady then (s, (stINVALID_STATE, 0, []))
    else (s, (stOK, 0, [])))
    (fun c st s =>
      if st ≠ stOK then s else if c.pkt.data.headD 0 = 1 then s.pkgWarm else s.mgmtReset .packageReset))

/-! ## The sanitise operations start (spec/07 R187, R188) -/

/-- Does a range lie wholly in backed DRAM, or wholly in one online CXL region (R187)? -/
def State.sanRange (s : State) (a n : Nat) : Bool :=
  let z := a + n
  let top := s.cap + (if s.get R.PKG_MEMMAP_HOLE_WITHHELD = 0 then 2 ^ 30 else 0)
  decide (z ≤ min 0xC0000000 s.cap) || (decide (0x100000000 ≤ a) && decide (z ≤ top)) ||
  (decide (2 ^ 43 ≤ a) && (match s.cxlPort a with
    | some p => let (b, m) := s.regionSpan p; decide (z ≤ 2 ^ 43 + (b + m) * 2 ^ 30)
    | none => false))

/-- The engine starts on an operation; one that is journalled is STARTED in flash first (R191). -/
def State.sanStart (s : State) (c : QCmd) (op base len mcid : Nat) : State :=
  let e : JEnt := { seq := s.chan.jNext, op := op, state := 1, mcid := mcid, base := base, len := len, check := 0,
                    tStart := s.pwr.now, tEnd := 0, vfails := 0, tag := c.pkt.tag + 256 * ingNum c.ing }
  let log := op ≠ 2
  let s : State := if log then ({ s with chan := { s.chan with jNext := s.chan.jNext + 1 } } : State).journal e else s
  let s := s.setSan { op := op, phase := sanPHASE_OVERWRITE, base := base, len := len, mcid := mcid, fence := op ≠ 3,
                      ent := if log then some e else none }
  foldN 16 s.sanZeroDone (fun n s => s.put (R.MC_SAN_PROGRESS_VERIFY_FAILS n) 0)

/-- SANITISE_RANGE and FORMAT_RANGE. -/
def State.sanRow (s : State) (opcode op : Nat) : State :=
  s.execLong opcode 16 (fun c s =>
    let base := field c.pkt.data 0 8
    let len := field c.pkt.data 8 8
    let mcid := field c.pkt.data 16 2
    if s.tvx.flashGranted ∨ !s.hostUp then (s, some (stINVALID_STATE, 0, []))
    else if base % 4096 ≠ 0 ∨ !s.sanRange base 1 then (s, some (stINVALID_ARG, 0, []))
    else if len = 0 ∨ len % 4096 ≠ 0 ∨ !s.sanRange base len then (s, some (stINVALID_ARG, 8, []))
    else if 1023 < mcid then (s, some (stINVALID_ARG, 16, []))
    else (s.sanStart c op base len mcid, none))

/-- SANITISE_RANGE. -/
def execSanitiseRange (s : State) : Out := .next (s.sanRow opSANITISE_RANGE 1)

/-- FORMAT_RANGE. -/
def execFormatRange (s : State) : Out := .next (s.sanRow opFORMAT_RANGE 2)

/-- SANITISE_DEVICE: every hart is held as by PKG_WARM, and the fill of every channel starts. -/
def execSanitiseDevice (s : State) : Out :=
  .next (s.execLong opSANITISE_DEVICE 0 (fun c s =>
    let mcid := field c.pkt.data 0 2
    if s.tvx.flashGranted ∨ s.pwr.stage ≠ .run then (s, some (stINVALID_STATE, 0, []))
    else if 1023 < mcid then (s, some (stINVALID_ARG, 0, []))
    else
      let s := s.sanStart c 3 0 0 mcid
      let s := s.warmHold
      let s := s.setPwr { s.pwr with stage := .warm, warmBy := true }
      (foldN 16 s (fun n s =>
        let st := s.chState n
        if st = chACTIVE ∨ st = chAT_RISK ∨ st = chSPARE ∨ st = chRETRAINING ∨ st = chCOPY_SOURCE ∨ st = chCOPY_TARGET then
          (s.put (R.MC_FILL_STATUS_STATE n) 1).put (R.MC_FILL_STATUS_FILLED_GIB n) 0
        else s), none)))

end Sys2Proof.Machine
end

