-- ==== Sys2Proof/Machine/Dispatch.lean ====
section
/-!
DEFINITION. Every command and its meaning, one arm per constructor of Instr.
-/

namespace Sys2Proof.Machine

def exec (i : Instr) (s : State) : Host.Outcome State Fault Refusal :=
  match i with
  | .registerWrite h x => Sys2Proof.Machine.execRegisterWrite h x s
  | .hartLoad h x => Sys2Proof.Machine.execHartLoad h x s
  | .hartStore h x v => Sys2Proof.Machine.execHartStore h x v s
  | .hartFetch h x => Sys2Proof.Machine.execHartFetch h x s
  | .hartAmo h x op v cmp => Sys2Proof.Machine.execHartAmo h x op v cmp s
  | .loadReserved h x => Sys2Proof.Machine.execLoadReserved h x s
  | .storeConditional h x v => Sys2Proof.Machine.execStoreConditional h x v s
  | .reservationTimeout h => Sys2Proof.Machine.execReservationTimeout h s
  | .fenceI h => Sys2Proof.Machine.execFenceI h s
  | .prefetch h x op src => Sys2Proof.Machine.execPrefetch h x op src s
  | .cboClean h x => Sys2Proof.Machine.execCboClean h x s
  | .cboFlush h x => Sys2Proof.Machine.execCboFlush h x s
  | .cboInval h x => Sys2Proof.Machine.execCboInval h x s
  | .cboZero h x => Sys2Proof.Machine.execCboZero h x s
  | .srmcfgWrite h pv v => Sys2Proof.Machine.execSrmcfgWrite h pv v s
  | .coreFreqReqWrite h pv v => Sys2Proof.Machine.execCoreFreqReqWrite h pv v s
  | .freqChangeComplete h => Sys2Proof.Machine.execFreqChangeComplete h s
  | .coreOffline d c => Sys2Proof.Machine.execCoreOffline d c s
  | .coreRetire d c => Sys2Proof.Machine.execCoreRetire d c s
  | .coreOnline d c => Sys2Proof.Machine.execCoreOnline d c s
  | .coreReset d c => Sys2Proof.Machine.execCoreReset d c s
  | .coreLogicError h => Sys2Proof.Machine.execCoreLogicError h s
  | .coreStopComplete h => Sys2Proof.Machine.execCoreStopComplete h s
  | .coreStartComplete h => Sys2Proof.Machine.execCoreStartComplete h s
  | .coreResetComplete h => Sys2Proof.Machine.execCoreResetComplete h s
  | .dieL2Miss h => Sys2Proof.Machine.execDieL2Miss h s
  | .l2Eviction h line => Sys2Proof.Machine.execL2Eviction h line s
  | .valeCacheEviction d line => Sys2Proof.Machine.execValeCacheEviction d line s
  | .l2WayDisable h w => Sys2Proof.Machine.execL2WayDisable h w s
  | .l2WayEnable h w => Sys2Proof.Machine.execL2WayEnable h w s
  | .vcWayDisable d sl w => Sys2Proof.Machine.execVcWayDisable d sl w s
  | .vcWayEnable d sl w => Sys2Proof.Machine.execVcWayEnable d sl w s
  | .vcSliceDisable d sl => Sys2Proof.Machine.execVcSliceDisable d sl s
  | .vcSliceEnable d sl => Sys2Proof.Machine.execVcSliceEnable d sl s
  | .flushDisableComplete u => Sys2Proof.Machine.execFlushDisableComplete u s
  | .cbqriAllocConfig k rcid v => Sys2Proof.Machine.execCbqriAllocConfig k rcid v s
  | .cbqriAllocRead k rcid => Sys2Proof.Machine.execCbqriAllocRead k rcid s
  | .cbqriMonitorConfig k mcid ev => Sys2Proof.Machine.execCbqriMonitorConfig k mcid ev s
  | .cbqriMonitorRead k mcid => Sys2Proof.Machine.execCbqriMonitorRead k mcid s
  | .rdShared m => Sys2Proof.Machine.execRdShared m s
  | .rdOwn m => Sys2Proof.Machine.execRdOwn m s
  | .upgrade m => Sys2Proof.Machine.execUpgrade m s
  | .rdCur m => Sys2Proof.Machine.execRdCur m s
  | .rdCurClean m => Sys2Proof.Machine.execRdCurClean m s
  | .rdCurFlush m => Sys2Proof.Machine.execRdCurFlush m s
  | .rdCurInval m => Sys2Proof.Machine.execRdCurInval m s
  | .wrFullNc m => Sys2Proof.Machine.execWrFullNc m s
  | .wrPartNc m => Sys2Proof.Machine.execWrPartNc m s
  | .atomicNc m => Sys2Proof.Machine.execAtomicNc m s
  | .dirWayWaitResume n htag => Sys2Proof.Machine.execDirWayWaitResume n htag s
  | .snpFwdShared m => Sys2Proof.Machine.execSnpFwdShared m s
  | .snpFwdOwn m => Sys2Proof.Machine.execSnpFwdOwn m s
  | .snpFwdCur m => Sys2Proof.Machine.execSnpFwdCur m s
  | .snpInv m => Sys2Proof.Machine.execSnpInv m s
  | .snpAckMiss m => Sys2Proof.Machine.execSnpAckMiss m s
  | .snpAckInv m => Sys2Proof.Machine.execSnpAckInv m s
  | .fwdDone m => Sys2Proof.Machine.execFwdDone m s
  | .fwdDoneWb m => Sys2Proof.Machine.execFwdDoneWb m s
  | .compAckClose m => Sys2Proof.Machine.execCompAckClose m s
  | .compAckCommit m => Sys2Proof.Machine.execCompAckCommit m s
  | .compAckDone m => Sys2Proof.Machine.execCompAckDone m s
  | .compAckReady m => Sys2Proof.Machine.execCompAckReady m s
  | .retry m => Sys2Proof.Machine.execRetry m s
  | .creditGrant m => Sys2Proof.Machine.execCreditGrant m s
  | .tokenWatchdogExpiry n t => Sys2Proof.Machine.execTokenWatchdogExpiry n t s
  | .wbDirty m => Sys2Proof.Machine.execWbDirty m s
  | .wbAck m => Sys2Proof.Machine.execWbAck m s
  | .wbAckStale m => Sys2Proof.Machine.execWbAckStale m s
  | .err m => Sys2Proof.Machine.execErr m s
  | .dataS m => Sys2Proof.Machine.execDataS m s
  | .dataE m => Sys2Proof.Machine.execDataE m s
  | .dataM m => Sys2Proof.Machine.execDataM m s
  | .dataO m => Sys2Proof.Machine.execDataO m s
  | .snoopHoldRelease d line => Sys2Proof.Machine.execSnoopHoldRelease d line s
  | .proxyDieRequest m => Sys2Proof.Machine.execProxyDieRequest m s
  | .proxyRemoteSnoop m => Sys2Proof.Machine.execProxyRemoteSnoop m s
  | .proxyDieWbDirty m => Sys2Proof.Machine.execProxyDieWbDirty m s
  | .passPayloadFlit e p f => Sys2Proof.Machine.execPassPayloadFlit e p f s
  | .passIdleFlit e p f => Sys2Proof.Machine.execPassIdleFlit e p f s
  | .passReplayTimeout e p => Sys2Proof.Machine.execPassReplayTimeout e p s
  | .passControlResend e p => Sys2Proof.Machine.execPassControlResend e p s
  | .laneCheck e p hd crcs => Sys2Proof.Machine.execLaneCheck e p hd crcs s
  | .swapReq p hd lane => Sys2Proof.Machine.execSwapReq p hd lane s
  | .swapCmd p hd lane spare => Sys2Proof.Machine.execSwapCmd p hd lane spare s
  | .swapMark e p hd lane spare => Sys2Proof.Machine.execSwapMark e p hd lane spare s
  | .swapDone e p hd lane spare => Sys2Proof.Machine.execSwapDone e p hd lane spare s
  | .passRetrainReq e p hd reason => Sys2Proof.Machine.execPassRetrainReq e p hd reason s
  | .passHandover e p hd named seq => Sys2Proof.Machine.execPassHandover e p hd named seq s
  | .passHandoverDone e p hd named => Sys2Proof.Machine.execPassHandoverDone e p hd named s
  | .regRead p m => Sys2Proof.Machine.execRegRead p m s
  | .regWrite p m => Sys2Proof.Machine.execRegWrite p m s
  | .regRsp p m => Sys2Proof.Machine.execRegRsp p m s
  | .msiWrite p m => Sys2Proof.Machine.execMsiWrite p m s
  | .tsAlign e p bad => Sys2Proof.Machine.execTsAlign e p bad s
  | .tsRxgood p bad => Sys2Proof.Machine.execTsRxgood p bad s
  | .tsMap p bad => Sys2Proof.Machine.execTsMap p bad s
  | .tsMapsum p bad => Sys2Proof.Machine.execTsMapsum p bad s
  | .tsOffer p up down => Sys2Proof.Machine.execTsOffer p up down s
  | .tsConfig e p bad => Sys2Proof.Machine.execTsConfig e p bad s
  | .passDetectDone p up down => Sys2Proof.Machine.execPassDetectDone p up down s
  | .passBitLockDone p up down => Sys2Proof.Machine.execPassBitLockDone p up down s
  | .passEqualiseDone p => Sys2Proof.Machine.execPassEqualiseDone p s
  | .passLaneTestDone p upBad downBad => Sys2Proof.Machine.execPassLaneTestDone p upBad downBad s
  | .passTrainTimeout p => Sys2Proof.Machine.execPassTrainTimeout p s
  | .passRetrainTimeout p => Sys2Proof.Machine.execPassRetrainTimeout p s
  | .passCtlRetrain p => Sys2Proof.Machine.execPassCtlRetrain p s
  | .passCtlFullTrain p => Sys2Proof.Machine.execPassCtlFullTrain p s
  | .passFailGo p lane down => Sys2Proof.Machine.execPassFailGo p lane down s
  | .passLaneLossOfLock p lane down => Sys2Proof.Machine.execPassLaneLossOfLock p lane down s
  | .dieOffline => Sys2Proof.Machine.execDieOffline s
  | .dieOfflineComplete d => Sys2Proof.Machine.execDieOfflineComplete d s
  | .dieOnline => Sys2Proof.Machine.execDieOnline s
  | .dieOnlineComplete d => Sys2Proof.Machine.execDieOnlineComplete d s
  | .memTrainComplete x => Sys2Proof.Machine.execMemTrainComplete x s
  | .memFillComplete failed => Sys2Proof.Machine.execMemFillComplete failed s
  | .memoryReadData n htag errs => Sys2Proof.Machine.execMemoryReadData n htag errs s
  | .channelLinkError ch => Sys2Proof.Machine.execChannelLinkError ch s
  | .channelRetrainComplete ch => Sys2Proof.Machine.execChannelRetrainComplete ch s
  | .channelRetrainTimeout ch => Sys2Proof.Machine.execChannelRetrainTimeout ch s
  | .copyStart ch auto => Sys2Proof.Machine.execCopyStart ch auto s
  | .copyLine ch errs => Sys2Proof.Machine.execCopyLine ch errs s
  | .copyComplete ch => Sys2Proof.Machine.execCopyComplete ch s
  | .dramPatrolLine ch errs => Sys2Proof.Machine.execDramPatrolLine ch errs s
  | .sanitisePhaseComplete => Sys2Proof.Machine.execSanitisePhaseComplete s
  | .sanitiseCheckpoint => Sys2Proof.Machine.execSanitiseCheckpoint s
  | .bwEpoch k => Sys2Proof.Machine.execBwEpoch k s
  | .extraBlockReturn n line errs => Sys2Proof.Machine.execExtraBlockReturn n line errs s
  | .mesaInvalidateAll n => Sys2Proof.Machine.execMesaInvalidateAll n s
  | .mesaInvComplete n => Sys2Proof.Machine.execMesaInvComplete n s
  | .mesaWayDisable n w => Sys2Proof.Machine.execMesaWayDisable n w s
  | .mesaWayEnable n w => Sys2Proof.Machine.execMesaWayEnable n w s
  | .vcDisableWrite n on => Sys2Proof.Machine.execVcDisableWrite n on s
  | .mesaThrottleChange n t => Sys2Proof.Machine.execMesaThrottleChange n t s
  | .mesaBypassExitReady n => Sys2Proof.Machine.execMesaBypassExitReady n s
  | .minuteBoundary => Sys2Proof.Machine.execMinuteBoundary s
  | .occupancySample => Sys2Proof.Machine.execOccupancySample s
  | .meterBanksRead => Sys2Proof.Machine.execMeterBanksRead s
  | .energyDelivery total cores uncore idle => Sys2Proof.Machine.execEnergyDelivery total cores uncore idle s
  | .meterSeal => Sys2Proof.Machine.execMeterSeal s
  | .meterRingDeliver => Sys2Proof.Machine.execMeterRingDeliver s
  | .meterSetDelivered => Sys2Proof.Machine.execMeterSetDelivered s
  | .hznPayloadFrame p f => Sys2Proof.Machine.execHznPayloadFrame p f s
  | .hznIdleFrame p f => Sys2Proof.Machine.execHznIdleFrame p f s
  | .hello p hd x => Sys2Proof.Machine.execHello p hd x s
  | .hznConfig p hd seq bseq free => Sys2Proof.Machine.execHznConfig p hd seq bseq free s
  | .hznRetrainReq p hd reason => Sys2Proof.Machine.execHznRetrainReq p hd reason s
  | .hznHandover p hd named seq => Sys2Proof.Machine.execHznHandover p hd named seq s
  | .hznHandoverDone p hd named => Sys2Proof.Machine.execHznHandoverDone p hd named s
  | .timeReq p hd t1 t1f => Sys2Proof.Machine.execTimeReq p hd t1 t1f s
  | .timeRsp p hd t1 t2 t3 => Sys2Proof.Machine.execTimeRsp p hd t1 t2 t3 s
  | .timeReqTimer p => Sys2Proof.Machine.execTimeReqTimer p s
  | .helloTimer p => Sys2Proof.Machine.execHelloTimer p s
  | .hznReplayTimeout p => Sys2Proof.Machine.execHznReplayTimeout p s
  | .hznPmdTrainDone p rxGood txGood => Sys2Proof.Machine.execHznPmdTrainDone p rxGood txGood s
  | .hznCodewordLock p => Sys2Proof.Machine.execHznCodewordLock p s
  | .hznTrainTimeout p => Sys2Proof.Machine.execHznTrainTimeout p s
  | .hznRetrainTimeout p => Sys2Proof.Machine.execHznRetrainTimeout p s
  | .hznTrainRestart p => Sys2Proof.Machine.execHznTrainRestart p s
  | .hznLaneLossOfLock p lane => Sys2Proof.Machine.execHznLaneLossOfLock p lane s
  | .hznEnableWrite p on detected => Sys2Proof.Machine.execHznEnableWrite p on detected s
  | .hznCtlRetrain p => Sys2Proof.Machine.execHznCtlRetrain p s
  | .hznCtlFullTrain p => Sys2Proof.Machine.execHznCtlFullTrain p s
  | .clearMarks p => Sys2Proof.Machine.execClearMarks p s
  | .wWrite m tr => Sys2Proof.Machine.execWWrite m tr s
  | .wSend m tr => Sys2Proof.Machine.execWSend m tr s
  | .wRead m tr => Sys2Proof.Machine.execWRead m tr s
  | .wAtomic m tr => Sys2Proof.Machine.execWAtomic m tr s
  | .wReadCpl m tr => Sys2Proof.Machine.execWReadCpl m tr s
  | .wAtomicCpl m tr => Sys2Proof.Machine.execWAtomicCpl m tr s
  | .wAck m => Sys2Proof.Machine.execWAck m s
  | .joinReq m => Sys2Proof.Machine.execJoinReq m s
  | .joinAck m => Sys2Proof.Machine.execJoinAck m s
  | .joinNak m => Sys2Proof.Machine.execJoinNak m s
  | .leaveNotice m => Sys2Proof.Machine.execLeaveNotice m s
  | .leaveAck m => Sys2Proof.Machine.execLeaveAck m s
  | .lostNotice m => Sys2Proof.Machine.execLostNotice m s
  | .joinAbort m => Sys2Proof.Machine.execJoinAbort m s
  | .messageForward x src => Sys2Proof.Machine.execMessageForward x src s
  | .forwardResidenceTimeout => Sys2Proof.Machine.execForwardResidenceTimeout s
  | .altHoldExpiry pkg => Sys2Proof.Machine.execAltHoldExpiry pkg s
  | .lossHoldExpiry ix => Sys2Proof.Machine.execLossHoldExpiry ix s
  | .islandJoin => Sys2Proof.Machine.execIslandJoin s
  | .islandLeave => Sys2Proof.Machine.execIslandLeave s
  | .memberAdmit ix pkg => Sys2Proof.Machine.execMemberAdmit ix pkg s
  | .memberFree ix => Sys2Proof.Machine.execMemberFree ix s
  | .joinTimeout => Sys2Proof.Machine.execJoinTimeout s
  | .leaveAckTimeout => Sys2Proof.Machine.execLeaveAckTimeout s
  | .leaveRecallComplete ix => Sys2Proof.Machine.execLeaveRecallComplete ix s
  | .proxyCohTimeout n htag => Sys2Proof.Machine.execProxyCohTimeout n htag s
  | .proxyCohFinalTimeout n htag => Sys2Proof.Machine.execProxyCohFinalTimeout n htag s
  | .proxyWbTimeout n line => Sys2Proof.Machine.execProxyWbTimeout n line s
  | .homeWaitTimeout n htag => Sys2Proof.Machine.execHomeWaitTimeout n htag s
  | .ioCohTimeout agent txn => Sys2Proof.Machine.execIoCohTimeout agent txn s
  | .ioCohFinalTimeout agent txn => Sys2Proof.Machine.execIoCohFinalTimeout agent txn s
  | .winTimeout f wtag => Sys2Proof.Machine.execWinTimeout f wtag s
  | .winFinalTimeout f wtag => Sys2Proof.Machine.execWinFinalTimeout f wtag s
  | .ecamConfigAccess h off size write => Sys2Proof.Machine.execEcamConfigAccess h off size write s
  | .flr f => Sys2Proof.Machine.execFlr f s
  | .vfEnableSet => Sys2Proof.Machine.execVfEnableSet s
  | .vfEnableClear => Sys2Proof.Machine.execVfEnableClear s
  | .numvfsWrite v => Sys2Proof.Machine.execNumvfsWrite v s
  | .vfReady f => Sys2Proof.Machine.execVfReady f s
  | .atsEnableClear f => Sys2Proof.Machine.execAtsEnableClear f s
  | .busMasterEnableWrite f on => Sys2Proof.Machine.execBusMasterEnableWrite f on s
  | .msixVectorUnmask f v => Sys2Proof.Machine.execMsixVectorUnmask f v s
  | .translationCompletion f page tr => Sys2Proof.Machine.execTranslationCompletion f page tr s
  | .invalidateRequest f itag base size => Sys2Proof.Machine.execInvalidateRequest f itag base size s
  | .invalidationComplete f itag => Sys2Proof.Machine.execInvalidationComplete f itag s
  | .fnDrainComplete f => Sys2Proof.Machine.execFnDrainComplete f s
  | .drainLimitExpiry f => Sys2Proof.Machine.execDrainLimitExpiry f s
  | .qpSqDb f q v => Sys2Proof.Machine.execQpSqDb f q v s
  | .qpCqDb f q v => Sys2Proof.Machine.execQpCqDb f q v s
  | .qpRqDb f q v => Sys2Proof.Machine.execQpRqDb f q v s
  | .qpEnable f q => Sys2Proof.Machine.execQpEnable f q s
  | .qpDisable f q => Sys2Proof.Machine.execQpDisable f q s
  | .qpDrainComplete f q => Sys2Proof.Machine.execQpDrainComplete f q s
  | .descriptorFetch f q tr => Sys2Proof.Machine.execDescriptorFetch f q tr s
  | .nop f q => Sys2Proof.Machine.execNop f q s
  | .copyLocal f q src dst => Sys2Proof.Machine.execCopyLocal f q src dst s
  | .put f q src => Sys2Proof.Machine.execPut f q src s
  | .get f q => Sys2Proof.Machine.execGet f q s
  | .send f q src => Sys2Proof.Machine.execSend f q src s
  | .atomic f q => Sys2Proof.Machine.execAtomic f q s
  | .fence f q => Sys2Proof.Machine.execFence f q s
  | .descriptorComplete f q tr => Sys2Proof.Machine.execDescriptorComplete f q tr s
  | .cqIrqTimer f q => Sys2Proof.Machine.execCqIrqTimer f q s
  | .xceArbEpoch => Sys2Proof.Machine.execXceArbEpoch s
  | .xceWinCommit index table => Sys2Proof.Machine.execXceWinCommit index table s
  | .winCommitDrained => Sys2Proof.Machine.execWinCommitDrained s
  | .bar2Load h f off x => Sys2Proof.Machine.execBar2Load h f off x s
  | .bar2Store h f off v x => Sys2Proof.Machine.execBar2Store h f off v x s
  | .cxlRegionOnline ix => Sys2Proof.Machine.execCxlRegionOnline ix s
  | .cxlRegionOffline ix => Sys2Proof.Machine.execCxlRegionOffline ix s
  | .cxlFillComplete ix ok => Sys2Proof.Machine.execCxlFillComplete ix ok s
  | .cxlDrainComplete ix => Sys2Proof.Machine.execCxlDrainComplete ix s
  | .cxlLinkDown ix => Sys2Proof.Machine.execCxlLinkDown ix s
  | .expanderScan ix data => Sys2Proof.Machine.execExpanderScan ix data s
  | .hpIntFall b data => Sys2Proof.Machine.execHpIntFall b data s
  | .slotDebounceDone ix => Sys2Proof.Machine.execSlotDebounceDone ix s
  | .slotPowerControlWrite ix v => Sys2Proof.Machine.execSlotPowerControlWrite ix v s
  | .slotPerstRelease ix => Sys2Proof.Machine.execSlotPerstRelease ix s
  | .slotPowerFault ix => Sys2Proof.Machine.execSlotPowerFault ix s
  | .portContainment ix reason => Sys2Proof.Machine.execPortContainment ix reason s
  | .dpcStatusClear ix => Sys2Proof.Machine.execDpcStatusClear ix s
  | .containmentHoldExpiry ix => Sys2Proof.Machine.execContainmentHoldExpiry ix s
  | .mmioCplTimeout h => Sys2Proof.Machine.execMmioCplTimeout h s
  | .deviceDmaRequest ix rid x tr => Sys2Proof.Machine.execDeviceDmaRequest ix rid x tr s
  | .deviceMsiWrite ix rid ga data => Sys2Proof.Machine.execDeviceMsiWrite ix rid ga data s
  | .intxLevelChange src level => Sys2Proof.Machine.execIntxLevelChange src level s
  | .seteipnumStore ga v => Sys2Proof.Machine.execSeteipnumStore ga v s
  | .onchipPatrolBlock x bad => Sys2Proof.Machine.execOnchipPatrolBlock x bad s
  | .bucketWindowBoundary k => Sys2Proof.Machine.execBucketWindowBoundary k s
  | .mgmtReset => Sys2Proof.Machine.execMgmtReset s
  | .tvxMainRunning => Sys2Proof.Machine.execTvxMainRunning s
  | .lockstepMismatch => Sys2Proof.Machine.execLockstepMismatch s
  | .tvxWatchdogExpiry => Sys2Proof.Machine.execTvxWatchdogExpiry s
  | .thermalSensorRead vals => Sys2Proof.Machine.execThermalSensorRead vals s
  | .ageingRead m r => Sys2Proof.Machine.execAgeingRead m r s
  | .mslFrame bytes => Sys2Proof.Machine.execMslFrame bytes s
  | .mboxTxGo len => Sys2Proof.Machine.execMboxTxGo len s
  | .mboxTxTake => Sys2Proof.Machine.execMboxTxTake s
  | .mboxRxAck => Sys2Proof.Machine.execMboxRxAck s
  | .mboxRxDeliver => Sys2Proof.Machine.execMboxRxDeliver s
  | .commandReceive g k => Sys2Proof.Machine.execCommandReceive g k s
  | .dataPacket g k => Sys2Proof.Machine.execDataPacket g k s
  | .xferDataTimeout => Sys2Proof.Machine.execXferDataTimeout s
  | .longOpComplete => Sys2Proof.Machine.execLongOpComplete s
  | .getInfo => Sys2Proof.Machine.execGetInfo s
  | .queryTag g => Sys2Proof.Machine.execQueryTag g s
  | .abort g => Sys2Proof.Machine.execAbort g s
  | .queueFlush => Sys2Proof.Machine.execQueueFlush s
  | .resetChannel g => Sys2Proof.Machine.execResetChannel g s
  | .getErrorLog g => Sys2Proof.Machine.execGetErrorLog g s
  | .resumeQueue g => Sys2Proof.Machine.execResumeQueue g s
  | .eventEnable => Sys2Proof.Machine.execEventEnable s
  | .getSensors => Sys2Proof.Machine.execGetSensors s
  | .getHealth => Sys2Proof.Machine.execGetHealth s
  | .readEventLog => Sys2Proof.Machine.execReadEventLog s
  | .readSanitiseJournal => Sys2Proof.Machine.execReadSanitiseJournal s
  | .settingsGet => Sys2Proof.Machine.execSettingsGet s
  | .settingsSet => Sys2Proof.Machine.execSettingsSet s
  | .clearRetirement => Sys2Proof.Machine.execClearRetirement s
  | .meterKeySet => Sys2Proof.Machine.execMeterKeySet s
  | .meterKeyActivate => Sys2Proof.Machine.execMeterKeyActivate s
  | .meterKeyClear => Sys2Proof.Machine.execMeterKeyClear s
  | .meterKeyQuery => Sys2Proof.Machine.execMeterKeyQuery s
  | .stageBlock => Sys2Proof.Machine.execStageBlock s
  | .stageStatus => Sys2Proof.Machine.execStageStatus s
  | .activateBundle => Sys2Proof.Machine.execActivateBundle s
  | .sanitiseRange => Sys2Proof.Machine.execSanitiseRange s
  | .formatRange => Sys2Proof.Machine.execFormatRange s
  | .sanitiseDevice => Sys2Proof.Machine.execSanitiseDevice s
  | .packageReset => Sys2Proof.Machine.execPackageReset s
  | .hostAreaWrite => Sys2Proof.Machine.execHostAreaWrite s
  | .hostAreaRead => Sys2Proof.Machine.execHostAreaRead s
  | .flashReqAssert => Sys2Proof.Machine.execFlashReqAssert s
  | .flashReqDeassert => Sys2Proof.Machine.execFlashReqDeassert s
  | .slotEraseComplete => Sys2Proof.Machine.execSlotEraseComplete s
  | .componentReady => Sys2Proof.Machine.execComponentReady s
  | .componentReadyTimeout selfTest => Sys2Proof.Machine.execComponentReadyTimeout selfTest s
  | .tvxMainReadyTimeout => Sys2Proof.Machine.execTvxMainReadyTimeout s
  | .pwrUcRestartDeferred => Sys2Proof.Machine.execPwrUcRestartDeferred s
  | .powerEvaluation mW dieTemp dieMw => Sys2Proof.Machine.execPowerEvaluation mW dieTemp dieMw s
  | .currentLimitTrip => Sys2Proof.Machine.execCurrentLimitTrip s
  | .currentLimitRelease => Sys2Proof.Machine.execCurrentLimitRelease s
  | .thermalEmergency die => Sys2Proof.Machine.execThermalEmergency die s
  | .thermalTrip => Sys2Proof.Machine.execThermalTrip s
  | .refclkLoss => Sys2Proof.Machine.execRefclkLoss s
  | .ppsEdge t => Sys2Proof.Machine.execPpsEdge t s
  | .timeSourceTimeout => Sys2Proof.Machine.execTimeSourceTimeout s
  | .timeSourceWrite src => Sys2Proof.Machine.execTimeSourceWrite src s
  | .timeStepFwd delta => Sys2Proof.Machine.execTimeStepFwd delta s
  | .vauxUp => Sys2Proof.Machine.execVauxUp s
  | .vauxDown => Sys2Proof.Machine.execVauxDown s
  | .hostPwrRequest => Sys2Proof.Machine.execHostPwrRequest s
  | .pwrgoodRise => Sys2Proof.Machine.execPwrgoodRise s
  | .pwrgoodFall => Sys2Proof.Machine.execPwrgoodFall s
  | .hostRailFault => Sys2Proof.Machine.execHostRailFault s
  | .pwrgoodTimeout => Sys2Proof.Machine.execPwrgoodTimeout s
  | .hostPwrRetry => Sys2Proof.Machine.execHostPwrRetry s
  | .startupArraysReady => Sys2Proof.Machine.execStartupArraysReady s
  | .hostImageCopyComplete => Sys2Proof.Machine.execHostImageCopyComplete s
  | .pkgWarm => Sys2Proof.Machine.execPkgWarm s
  | .jtagExtestClamp => Sys2Proof.Machine.execJtagExtestClamp s
  | .jtagTestLogicReset => Sys2Proof.Machine.execJtagTestLogicReset s
  | .ccolSelectWrite b j v => Sys2Proof.Machine.execCcolSelectWrite b j v s
  | .counterClear b j => Sys2Proof.Machine.execCounterClear b j s
  | .ccolCountWrite b j v => Sys2Proof.Machine.execCcolCountWrite b j v s
  | .counterFreeze => Sys2Proof.Machine.execCounterFreeze s
  | .counterUnfreeze => Sys2Proof.Machine.execCounterUnfreeze s
  | .ccolSweep => Sys2Proof.Machine.execCcolSweep s
  | .flushWalkLine u => Sys2Proof.Machine.execFlushWalkLine u s
  | .recallWalkEntry u => Sys2Proof.Machine.execRecallWalkEntry u s
  | .sanitiseLine errs => Sys2Proof.Machine.execSanitiseLine errs s
  | .bundleCopyComplete => Sys2Proof.Machine.execBundleCopyComplete s
  | .rootPortLinkUp ix cxl => Sys2Proof.Machine.execRootPortLinkUp ix cxl s
  | .rootPortLinkError ix => Sys2Proof.Machine.execRootPortLinkError ix s
  | .mmioCompletion h ok v => Sys2Proof.Machine.execMmioCompletion h ok v s
  | .pePerstRelease g => Sys2Proof.Machine.execPePerstRelease g s
  | .slotIndicatorBlink ix => Sys2Proof.Machine.execSlotIndicatorBlink ix s

end Sys2Proof.Machine
end

