-- ==== Sys2Proof/Machine/Contacts.lean ====
section
/-!
DEFINITION. The contact field (spec/19_contacts_electrical.md R413 to R419), and the levels that the package drives on the
contacts whose state the model holds (R396, R388, R416, R423, R427).
-/

namespace Sys2Proof.Machine

/-! ## What each contact carries -/

/-- What a contact carries. Rails are numbered as monitors are (R420); `sub` is a subchannel, 0 A and 1 B; `neg` marks the
complement of a pair. A sideband signal has its name and, where it is one of several, its index. -/
inductive Contact where
  | unpopulated | vss | rsvd
  | rail (monitor : Nat)
  | dq (ch sub i : Nat) | dqs (ch sub i : Nat) (neg : Bool)
  | dca (ch sub i : Nat) | dpar (ch sub : Nat) | dcs (ch sub i : Nat) | dck (ch sub : Nat) (neg : Bool)
  | alertN (ch : Nat) | dramRstN (ch : Nat)
  | peTx (lane : Nat) (neg : Bool) | peRx (lane : Nat) (neg : Bool) | peClk (port : Nat) (neg : Bool)
  | hzTx (port lane : Nat) (neg : Bool) | hzRx (port lane : Nat) (neg : Bool)
  | side (name : String) (i : Nat)
  deriving DecidableEq, Repr

/-- The channels of the eight blocks of the lower and of the upper memory band (R414). -/
def bandChannels (upper : Bool) : List Nat := if upper then [4, 5, 6, 7, 8, 9, 10, 11] else [0, 1, 2, 3, 12, 13, 14, 15]

/-- A contact of a memory block, by its row distance from the power band and its column (R415). -/
def memContact (ch rho kap : Nat) : Contact :=
  let skip : Bool := kap == 5 || kap == 11
  let i := if kap < 5 then kap else kap - 1
  let ctl (sub : Nat) : Contact :=
    if kap < 7 then .dca ch sub kap
    else if kap = 7 then .dpar ch sub
    else if kap < 10 then .dcs ch sub (kap - 8)
    else .dck ch sub (kap == 11)
  if rho = 0 then .vss
  else if rho ≤ 4 then (if skip then .vss else .dq ch 0 (10 * (rho - 1) + i))
  else if rho ≤ 6 then (if skip then .vss else .dqs ch 0 i (rho == 6))
  else if rho = 7 then ctl 0
  else if rho = 8 then ctl 1
  else if rho ≤ 10 then (if skip then .vss else .dqs ch 1 i (rho == 10))
  else if rho ≤ 14 then (if skip then .vss else .dq ch 1 (10 * (rho - 11) + i))
  else if kap = 0 then .alertN ch
  else if kap = 1 then .dramRstN ch
  else .vss

/-- A contact of a memory band. -/
def bandContact (upper : Bool) (col rho : Nat) : Contact :=
  if col < 3 ∨ 99 ≤ col then .vss else memContact ((bandChannels upper).getD ((col - 3) / 12) 0) rho ((col - 3) % 12)

/-- A contact of a power band (R418). -/
def powerContact (upper : Bool) (col row : Nat) : Contact :=
  let k := if upper then 1 else 0
  if (col + row) % 2 = 1 then .vss
  else if col + k < 7 then .rail 5
  else if col + k < 9 then .rail 2
  else if col + k < 18 then .rail 6
  else if col < 72 then .rail 7
  else if col < 96 then .rail 3
  else .rail 4

/-- A contact of the root-port field, by its column and its row there (R416). -/
def rootContact (col row : Nat) : Contact :=
  let g := col / 9 + 4 * (row / 14)
  let rho := row % 14
  let j := col % 9 / 3
  let neg : Bool := col % 3 == 1
  if rho % 7 = 0 ∨ col % 3 = 2 then .vss
  else if rho < 7 then
    let t := 3 * (rho - 1) + j
    if t < 16 then .peTx (16 * g + t) neg else .peClk (4 * g + (t - 16)) neg
  else
    let t := 3 * (rho - 8) + j
    if t < 16 then .peRx (16 * g + t) neg else .peClk (4 * g + 2 + (t - 16)) neg

/-- A contact of the Horizon field (R417). -/
def hznContact (col row : Nat) : Contact :=
  let p := col / 8 + 2 * (row / 7)
  let lane := col % 8 / 2
  let neg : Bool := col % 2 == 1
  match row % 7 with
  | 0 => .hzTx p lane neg
  | 2 => .hzTx p (lane + 4) neg
  | 4 => .hzRx p lane neg
  | 6 => .hzRx p (lane + 4) neg
  | _ => .vss

/-- The signals of a list that stand `n` columns apart from column `from'`, by name. -/
def named (names : List String) (from' n col : Nat) : Option Contact :=
  if from' ≤ col then (names[(col - from') % n]?).map (fun x => .side x ((col - from') / n)) else none

/-- A contact of the sideband field (R419). -/
def sideContact (col row : Nat) : Contact :=
  let one (l : List (Nat × String)) : Contact :=
    match l.find? (fun e => e.1 == col) with | some e => .side e.2 0 | none => .vss
  let upTo (k : Nat) (x : Option Contact) : Contact := if col ≤ k then x.getD .vss else .vss
  match row with
  | 32 => one [(84, "REFCLK_P"), (85, "REFCLK_N"), (87, "PPS_IN"), (89, "PWRGOOD"), (90, "HOST_PWR_REQ"), (91, "THERMTRIP_N"),
               (93, "MSL_TX"), (94, "MSL_RX"), (95, "MSL_BAUD_SEL"), (97, "FLASH_REQ_N"), (98, "FLASH_GNT_N")]
  | 34 =>
    if 87 ≤ col ∧ col ≤ 94 then .side "FL_IO" (col - 87)
    else one [(84, "FL_CLK"), (85, "FL_CS_N"), (86, "FL_DQS"), (95, "FL_RESET_N")]
  | 36 => upTo 91 (named ["SPD_SCL", "SPD_SDA"] 84 2 col)
  | 38 => upTo 95 (named ["HP_SCL", "HP_SDA", "HP_INT_N"] 84 3 col)
  | 40 => one [(84, "TCK"), (85, "TMS"), (86, "TDI"), (87, "TDO"), (88, "TRST_N"), (90, "PMB_SCL"), (91, "PMB_SDA"),
               (92, "PMB_ALERT_N")]
  | 42 => upTo 89 (named ["AVS_CLK", "AVS_MDATA", "AVS_SDATA"] 84 3 col)
  | 44 => upTo 91 (named ["PE_PERST_N"] 84 1 col)
  | 48 => if col ≤ 95 then .rail 0 else .vss
  | 50 => .rail 1
  | 52 => if col ≤ 88 then .rail 1 else if col ≤ 98 then .rsvd else .vss
  | 54 => .rsvd
  | 56 => .rsvd
  | _ => .vss

/-- The contact at a column and a row (R413, R414). -/
def contactAt (col row : Nat) : Contact :=
  if 102 < col ∨ 87 < row then .unpopulated
  else if row < 16 then bandContact false col (15 - row)
  else if row < 30 then powerContact false col row
  else if 72 ≤ row then bandContact true col (row - 72)
  else if 58 ≤ row then powerContact true col row
  else if col < 36 then rootContact col (row - 30)
  else if col < 68 then .unpopulated
  else if col < 84 then hznContact (col - 68) (row - 30)
  else sideContact col row

/-! ## What the package drives -/

/-- What stands on an output: a level, or a copy of the reference clock. -/
inductive Drive where
  | low | high | clock
  deriving DecidableEq, Repr

/-- A level. -/
def level (b : Bool) : Drive := if b then .high else .low

/-- The reference clock output of a root port: a copy of REFCLK, or both legs low where the mode of its lane group does not create
the port (R416, R428). -/
def State.rootClock (s : State) (port : Nat) : Drive := if s.get (R.RPRT_STATUS_WIDTH port) = 0 then .low else .clock

/-- What the package drives on a contact whose state the model holds. An open-drain output that is not asserted is released, and
read as high. -/
def State.drives (s : State) : Contact → Option Drive
  | .peClk port _ => some (s.rootClock port)
  | .side "HOST_PWR_REQ" _ => some (level s.pwr.hostReq)
  | .side "THERMTRIP_N" _ => some (level (!s.pwr.therm))
  | .side "FLASH_GNT_N" _ => some (level (!s.tvx.flashGranted))
  | .side "PE_PERST_N" g => some (level (s.pwr.perst.testBit g))
  | _ => none

/-- The IDCODE of the JTAG port: version 1, part 0x9384, manufacturer field 0x64B (R429). -/
def jtagIdcode : Nat := 1 <<< 28 + 0x9384 <<< 12 + 0x64B <<< 1 + 1

end Sys2Proof.Machine
end

