-- ==== Sys2Proof/WellFormed.lean ====
section
/-!
DEFINITION. Which terms of `Instr` the block can be sent: every operand lies within the field that the spec gives it.
A value inside its field that the spec calls illegal is well formed: the receiver checks it (R93, R148, R243, R347).
-/

namespace Sys2Proof

/-- A number of `w` bits. -/
def fits (w v : Nat) : Bool := decide (v < 2 ^ w)

/-- A list of bytes. -/
def bytesWf (l : List Nat) : Bool := l.all (fits 8)

/-- A guest physical address is one of 64 bits. -/
def xfaultWf : Option XFault → Bool
  | some (.guest g) => fits 64 g
  | _ => true

/-- A register access: 4 or 8 bytes of the map, or a CSR of 12 bits (spec/00 R6). -/
def RegAcc.wf : RegAcc → Bool
  | .mem a size v => fits 40 a && (size == 4 || size == 8) && decide (v.toNat < 2 ^ (8 * size))
  | .csr _ _ n _ => fits 12 n

/-- An access: a 56-bit address, 1 to 64 bytes, and an implicit page-table read is one doubleword (spec/02 R32, R51). -/
def Access.wf (x : Access) : Bool :=
  fits 56 x.ga && fits 64 x.va && decide (1 ≤ x.size) && decide (x.size ≤ 64) && (!x.walk || x.size == 8) &&
  (x.walkFor == 1 || x.walkFor == 5 || x.walkFor == 7) && (!x.fof || x.elem.isSome) && xfaultWf x.fault &&
  (match x.page2 with
   | some p => decide (4096 < x.va % 4096 + x.size) && fits 56 p.ga && p.ga % 4096 == 0 && xfaultWf p.fault
   | none => true)

/-- The value of a store of `n` bytes. -/
def valueWf (n v : Nat) : Bool := decide (v < 2 ^ (8 * n))

/-- An Osesteth message within the widths of R90 and R92. -/
def Msg.wf (m : Msg) : Bool :=
  fits 3 m.vc && fits 5 m.opc && fits 12 m.srcPkg && fits 8 m.srcAgent && fits 12 m.dstPkg && fits 8 m.dstAgent &&
  fits 12 m.txn && fits 50 m.addr && fits 10 m.rcid && fits 10 m.mcid && fits 2 m.cmo && fits 1 m.ord && fits 8 m.token &&
  fits 64 m.byteMask && fits 4 m.aop && fits 2 m.asize && fits 6 m.aoff && fits 9 m.htag && fits 12 m.reqPkg &&
  fits 8 m.reqAgent && fits 12 m.reqTxn && fits 2 m.newState && fits 2 m.status && fits 3 m.cause && fits 2 m.dsrc

/-- An MGT message within the widths of R151. -/
def Mgt.wf (m : Mgt) : Bool := fits 5 m.mopc && fits 8 m.tag && fits 20 m.offset && fits 2 m.status

def LinkMsg.wf : LinkMsg → Bool
  | .ose m => m.wf && decide (m.vc ≤ 4)
  | .mgt m => m.wf

/-- Inverted bits of physical lanes, at most `n` of each. -/
def errWf (n : Nat) (l : List (Nat × Nat)) : Bool := l.all (fun x => decide (x.1 < 68) && fits n x.2)

/-- A Pass flit within the widths of R146 and R150, with no more messages than its 15 slots hold. -/
def Flit.wf (f : Flit) : Bool :=
  fits 2 f.typ && fits 10 f.seq && fits 10 f.ackSeq && fits 15 f.slotStart && fits 3 f.cr0Vc && fits 16 f.cr0Total &&
  fits 3 f.cr1Vc && fits 16 f.cr1Total && fits 12 f.dseq && decide (f.msgs.length ≤ 15) && f.msgs.all LinkMsg.wf && fits 8 f.ctype &&
  fits 8 f.att && errWf 128 f.err

/-- A window or island message within the widths of R240 and R242. -/
def WMsg.wf (m : WMsg) : Bool :=
  fits 3 m.vc && fits 5 m.wopc && fits 12 m.srcPkg && fits 12 m.dstPkg && fits 12 m.srcFn && fits 14 m.iwin &&
  fits 40 m.offset && fits 9 m.length && fits 12 m.wtag && fits 32 m.key && fits 4 m.aop && fits 2 m.asize &&
  fits 3 m.cstatus && fits 8 m.icode && fits 5 m.member && fits 16 m.islandId && fits 3 m.nakCause && fits 10 m.fmcid &&
  fits 4 m.hops && fits 1 m.rclass && bytesWf m.data

def HMsg.wf : HMsg → Bool
  | .ose m f h r => m.wf && decide (m.vc ≤ 4) && fits 10 f && fits 4 h && fits 1 r
  | .win m => m.wf

/-- A Horizon frame within the widths of R238, with no more messages than its 38 slots hold. -/
def HFrame.wf (f : HFrame) : Bool :=
  fits 2 f.typ && fits 12 f.seq && fits 12 f.ackSeq && fits 38 f.slotStart && f.crs.all (fun c => fits 4 c.1 && fits 16 c.2) &&
  fits 12 f.bseq && decide (f.msgs.length ≤ 38) && f.msgs.all HMsg.wf && fits 8 f.ctype && fits 8 f.att &&
  decide (f.crs.length ≤ 4) && f.err.all (fun e => decide (e.1 < 544) && fits 10 e.2)

/-- HELLO arguments of the widths of R239. -/
def Hello.wf (x : Hello) : Bool :=
  fits 16 x.pkg && fits 8 x.kind && fits 8 x.lo && fits 8 x.hi && fits 8 x.rxGood && fits 8 x.txGood && fits 8 x.width &&
  fits 8 x.rev

/-- A management packet within the widths of R347. -/
def Pkt.wf (k : Pkt) : Bool :=
  fits 8 k.version && fits 8 k.typ && fits 8 k.tag && fits 16 k.opcode && fits 16 k.status && fits 16 k.length &&
  fits 16 k.aux && fits 32 k.param && bytesWf k.data

/-- Bad symbols name devices 0 to 9 and symbols 0 to 7 (spec/07 R175). -/
def Errs.wf (e : Errs) : Bool :=
  decide (e.rank < 16) &&
  e.bad.all (fun b => decide (b.1 < 10) && decide (b.2.1 < 8) && decide (1 ≤ b.2.2) && fits 8 b.2.2) &&
  (match e.addr with | some y => fits 40 y && y % 64 == 0 | none => true)

/-- A module's fields fit the registers and records that show them (MC_CH_CONFIG, spec/15 item CHANNEL_RETIRED). -/
def Dimm.wf (d : Dimm) : Bool := fits 10 d.gib && fits 8 d.rate && fits 4 d.ranks && fits 64 d.spd

/-- Training results: two slots for each of 16 channels, and a mask of channels (R171 to R174). -/
def TrainRes.wf (x : TrainRes) : Bool :=
  fits 16 x.fail && x.dimms.length == 32 && x.dimms.all (fun d => match d with | some d => d.wf | none => true)

def Xlate.wf : Xlate → Bool
  | .to ga k _ _ => fits 56 ga && decide (k ≤ 18)
  | .fault => true

/-- A device request of at most 4 KiB, or an atomic of 4, 8 or 16 bytes (spec/04 R112, spec/13 R322). -/
def Dma.wf : Dma → Bool
  | .read n => decide (1 ≤ n) && decide (n ≤ 4096)
  | .write d _ _ => decide (1 ≤ d.length) && decide (d.length ≤ 4096) && bytesWf d
  | .atomic op sz v c => fits 4 op && fits 2 sz && fits 128 v && fits 128 c

/-- Is a command one that the block can be sent? -/
def Instr.wf : Instr → Bool
  | .registerWrite _ x => x.wf
  | .hartLoad _ x => x.wf
  | .hartStore _ x v => x.wf && valueWf x.size v
  | .hartFetch _ x => x.wf
  | .hartAmo _ x op v cmp =>
    x.wf && decide (op ≤ 9) && (x.size == 4 || x.size == 8 || (x.size == 16 && op == 9)) && valueWf x.size v && valueWf x.size cmp
  | .loadReserved _ x => x.wf && (x.size == 4 || x.size == 8)
  | .storeConditional _ x v => x.wf && (x.size == 4 || x.size == 8) && valueWf x.size v
  | .reservationTimeout _ | .fenceI _ => true
  | .prefetch _ x _ _ | .cboClean _ x | .cboFlush _ x | .cboInval _ x | .cboZero _ x => x.wf
  | .srmcfgWrite _ _ _ | .coreFreqReqWrite _ _ _ | .freqChangeComplete _ | .coreOffline _ _ | .coreRetire _ _
  | .coreOnline _ _ | .coreReset _ _ | .coreLogicError _ | .coreStopComplete _ | .coreStartComplete _
  | .coreResetComplete _ | .dieL2Miss _ => true
  | .l2Eviction _ line | .valeCacheEviction _ line => fits 50 line
  | .l2WayDisable _ _ | .l2WayEnable _ _ | .vcWayDisable _ _ _ | .vcWayEnable _ _ _ | .vcSliceDisable _ _
  | .vcSliceEnable _ _ | .flushDisableComplete _ | .cbqriAllocConfig _ _ _ | .cbqriAllocRead _ _ => true
  | .cbqriMonitorConfig _ _ ev => fits 8 ev
  | .cbqriMonitorRead _ _ => true
  | .rdShared m | .rdOwn m | .upgrade m | .rdCur m | .rdCurClean m | .rdCurFlush m | .rdCurInval m | .wrFullNc m
  | .wrPartNc m | .atomicNc m => m.wf
  | .dirWayWaitResume _ _ => true
  | .snpFwdShared m | .snpFwdOwn m | .snpFwdCur m | .snpInv m | .snpAckMiss m | .snpAckInv m | .fwdDone m
  | .fwdDoneWb m | .compAckClose m | .compAckCommit m | .compAckDone m | .compAckReady m | .retry m | .creditGrant m =>
    m.wf
  | .tokenWatchdogExpiry _ _ => true
  | .wbDirty m | .wbAck m | .wbAckStale m | .err m | .dataS m | .dataE m | .dataM m | .dataO m => m.wf
  | .snoopHoldRelease _ line => fits 50 line
  | .proxyDieRequest m | .proxyRemoteSnoop m | .proxyDieWbDirty m => m.wf
  | .passPayloadFlit _ _ f | .passIdleFlit _ _ f => f.wf
  | .passReplayTimeout _ _ | .passControlResend _ _ => true
  | .laneCheck _ _ hd crcs => hd.wf && crcs.length == 68 && crcs.all (fits 16)
  | .swapReq _ hd _ | .swapCmd _ hd _ _ | .swapMark _ _ hd _ _ | .swapDone _ _ hd _ _ => hd.wf
  | .passRetrainReq _ _ hd reason => hd.wf && fits 8 reason
  | .passHandover _ _ hd _ seq => hd.wf && fits 10 seq
  | .passHandoverDone _ _ hd _ => hd.wf
  | .regRead _ m | .regWrite _ m | .regRsp _ m | .msiWrite _ m => m.wf
  | .tsAlign _ _ x | .tsRxgood _ x | .tsMap _ x | .tsMapsum _ x | .tsConfig _ _ x => errWf 256 x
  | .tsOffer _ up down => errWf 256 up && errWf 256 down
  | .passDetectDone _ up down | .passBitLockDone _ up down => fits 68 up && fits 68 down
  | .passEqualiseDone _ => true
  | .passLaneTestDone _ upBad downBad => fits 68 upBad && fits 68 downBad
  | .passTrainTimeout _ | .passRetrainTimeout _ | .passCtlRetrain _ | .passCtlFullTrain _ => true
  | .passFailGo _ lane _ => fits 7 lane
  | .passLaneLossOfLock _ _ _ | .dieOffline | .dieOfflineComplete _ | .dieOnline | .dieOnlineComplete _ => true
  | .memTrainComplete x => x.wf
  | .memFillComplete failed => fits 16 failed
  | .memoryReadData _ _ errs => errs.wf
  | .channelLinkError _ | .channelRetrainComplete _ | .channelRetrainTimeout _ | .copyStart _ _ => true
  | .copyLine _ errs => errs.wf
  | .copyComplete _ => true
  | .dramPatrolLine _ errs => errs.wf
  | .sanitisePhaseComplete | .sanitiseCheckpoint | .bwEpoch _ => true
  | .extraBlockReturn _ line errs => fits 50 line && errs.wf
  | .mesaInvalidateAll _ | .mesaInvComplete _ | .mesaWayDisable _ _ | .mesaWayEnable _ _ | .vcDisableWrite _ _
  | .mesaThrottleChange _ _ | .mesaBypassExitReady _ | .minuteBoundary | .occupancySample | .meterBanksRead => true
  | .energyDelivery _ cores _ _ => cores.all (fun a => fits 10 a.1)
  | .meterSeal | .meterRingDeliver | .meterSetDelivered => true
  | .hznPayloadFrame _ f | .hznIdleFrame _ f => f.wf
  | .hello _ hd x => hd.wf && x.wf
  | .hznConfig _ hd seq bseq free => hd.wf && fits 12 seq && fits 12 bseq && free.length == 16 && free.all (fits 16)
  | .hznRetrainReq _ hd reason => hd.wf && fits 8 reason
  | .hznHandover _ hd _ seq => hd.wf && fits 12 seq
  | .hznHandoverDone _ hd _ => hd.wf
  | .timeReq _ hd t1 t1f => hd.wf && fits 64 t1 && fits 8 t1f
  | .timeRsp _ hd t1 t2 t3 =>
    hd.wf && fits 64 t1.1 && fits 8 t1.2 && fits 64 t2.1 && fits 8 t2.2 && fits 64 t3.1 && fits 8 t3.2
  | .timeReqTimer _ | .helloTimer _ | .hznReplayTimeout _ => true
  | .hznPmdTrainDone _ rxGood txGood => fits 8 rxGood && fits 8 txGood
  | .hznCodewordLock _ | .hznTrainTimeout _ | .hznRetrainTimeout _ | .hznTrainRestart _ | .hznLaneLossOfLock _ _
  | .hznEnableWrite _ _ _ | .hznCtlRetrain _ | .hznCtlFullTrain _ | .clearMarks _ => true
  | .wWrite m tr | .wSend m tr | .wRead m tr | .wAtomic m tr => m.wf && tr.wf
  | .wReadCpl m tr => m.wf && tr.all Xlate.wf
  | .wAtomicCpl m tr => m.wf && tr.wf
  | .wAck m | .joinReq m | .joinAck m | .joinNak m | .leaveNotice m | .leaveAck m | .lostNotice m | .joinAbort m =>
    m.wf
  | .messageForward x _ => x.wf
  | .forwardResidenceTimeout | .altHoldExpiry _ | .lossHoldExpiry _ | .islandJoin | .islandLeave | .memberAdmit _ _
  | .memberFree _ | .joinTimeout | .leaveAckTimeout | .leaveRecallComplete _ | .proxyCohTimeout _ _
  | .proxyCohFinalTimeout _ _ => true
  | .proxyWbTimeout _ line => fits 50 line
  | .homeWaitTimeout _ _ | .ioCohTimeout _ _ | .ioCohFinalTimeout _ _ | .winTimeout _ _ | .winFinalTimeout _ _ => true
  | .ecamConfigAccess _ off size write =>
    fits 28 off && (size == 1 || size == 2 || size == 4) && (match write with | some v => valueWf size v | none => true)
  | .flr _ | .vfEnableSet | .vfEnableClear => true
  | .numvfsWrite v => fits 16 v
  | .vfReady _ | .atsEnableClear _ | .busMasterEnableWrite _ _ | .msixVectorUnmask _ _ => true
  | .translationCompletion _ page tr => fits 52 page && tr.wf
  | .invalidateRequest _ itag base size => fits 5 itag && fits 64 base && decide (4096 ≤ size)
  | .invalidationComplete _ itag => fits 5 itag
  | .fnDrainComplete _ | .drainLimitExpiry _ => true
  | .qpSqDb _ _ v | .qpCqDb _ _ v | .qpRqDb _ _ v => fits 64 v
  | .qpEnable _ _ | .qpDisable _ _ | .qpDrainComplete _ _ => true
  | .descriptorFetch _ _ tr => tr.wf
  | .nop _ _ => true
  | .copyLocal _ _ src dst => src.all Xlate.wf && dst.all Xlate.wf
  | .put _ _ src => src.all Xlate.wf
  | .get _ _ => true
  | .send _ _ src => src.all Xlate.wf
  | .atomic _ _ | .fence _ _ => true
  | .descriptorComplete _ _ tr => tr.wf
  | .cqIrqTimer _ _ | .xceArbEpoch => true
  | .xceWinCommit index table => fits 16 index && fits 1 table
  | .winCommitDrained => true
  | .bar2Load _ _ off x => fits 30 off && x.wf
  | .bar2Store _ _ off v x => fits 30 off && x.wf && valueWf x.size v
  | .cxlRegionOnline _ | .cxlRegionOffline _ | .cxlFillComplete _ _ | .cxlDrainComplete _ | .cxlLinkDown _ => true
  | .expanderScan _ data => (match data with | some v => fits 16 v | none => true)
  | .hpIntFall _ data => data.length == 8 && data.all (fun d => match d with | some v => fits 16 v | none => true)
  | .slotDebounceDone _ => true
  | .slotPowerControlWrite _ v => fits 16 v
  | .slotPerstRelease _ | .slotPowerFault _ => true
  | .portContainment _ reason => fits 2 reason
  | .dpcStatusClear _ | .containmentHoldExpiry _ | .mmioCplTimeout _ => true
  | .deviceDmaRequest _ rid x tr => fits 16 rid && x.wf && tr.wf
  | .deviceMsiWrite _ rid ga data =>
    fits 16 rid && (match ga with | some a => fits 56 a | none => true) && fits 32 data
  | .intxLevelChange _ _ => true
  | .seteipnumStore ga _ => fits 56 ga
  | .onchipPatrolBlock _ bad => bad.all (fun b => fits 10 b.1 && fits 10 b.2)
  | .bucketWindowBoundary _ | .mgmtReset | .tvxMainRunning | .lockstepMismatch | .tvxWatchdogExpiry => true
  | .thermalSensorRead vals => vals.length == 420
  | .ageingRead _ _ => true
  | .mslFrame bytes => bytesWf bytes && !bytes.contains 0x7E
  | .mboxTxGo len => fits 13 len
  | .mboxTxTake | .mboxRxAck | .mboxRxDeliver => true
  | .commandReceive _ k | .dataPacket _ k => k.wf
  | .xferDataTimeout | .longOpComplete | .getInfo | .queryTag _ | .abort _ | .queueFlush | .resetChannel _
  | .getErrorLog _ | .resumeQueue _ | .eventEnable | .getSensors | .getHealth | .readEventLog | .readSanitiseJournal
  | .settingsGet | .settingsSet | .clearRetirement | .meterKeySet | .meterKeyActivate | .meterKeyClear
  | .meterKeyQuery | .stageBlock | .stageStatus | .activateBundle | .sanitiseRange | .formatRange | .sanitiseDevice
  | .packageReset | .hostAreaWrite | .hostAreaRead | .flashReqAssert | .flashReqDeassert | .slotEraseComplete
  | .componentReady | .componentReadyTimeout _ | .tvxMainReadyTimeout | .pwrUcRestartDeferred => true
  | .powerEvaluation _ dieTemp dieMw => dieTemp.length == 17 && dieMw.length == 12
  | .currentLimitTrip | .currentLimitRelease | .thermalEmergency _ | .thermalTrip | .refclkLoss | .ppsEdge _
  | .timeSourceTimeout => true
  | .timeSourceWrite src => fits 4 src
  | .timeStepFwd delta => fits 64 delta
  | .vauxUp | .vauxDown | .hostPwrRequest | .pwrgoodRise | .pwrgoodFall | .hostRailFault | .pwrgoodTimeout
  | .hostPwrRetry | .startupArraysReady | .hostImageCopyComplete | .pkgWarm | .jtagExtestClamp | .jtagTestLogicReset
  | .ccolSelectWrite _ _ _ | .counterClear _ _ | .ccolCountWrite _ _ _ | .counterFreeze | .counterUnfreeze
  | .ccolSweep | .flushWalkLine _ | .recallWalkEntry _ => true
  | .sanitiseLine errs => errs.wf
  | .bundleCopyComplete | .rootPortLinkUp _ _ | .rootPortLinkError _ => true
  | .mmioCompletion _ _ v => fits 64 v
  | .pePerstRelease _ | .slotIndicatorBlink _ => true

end Sys2Proof
end

