-- ==== Sys2Proof/Safety.lean ====
section
/-!
DEFINITION. What claims are stated in: the invariant of the state, the parts that a command leaves alone, and a safe step.
-/

namespace Sys2Proof.Machine

/-- Memory and the register file are in canonical form, so that equal contents are equal data. -/
def State.Ok (s : State) : Prop := Memory.wf s.mem = true ∧ Tbl.wf regReset s.regs = true

/-- The parts of the state, the queue of commands apart. -/
inductive Part where
  | regs | mem | marked | net | free | core | die | home | pass | chan | mesa | meter | qos | hzn | xce | io | ras | tvx | pwr
  | ccol
  deriving DecidableEq, Repr

/-- Does a part hold in `t` what it holds in `s`? -/
@[reducible] def State.samePart (s : State) (p : Part) (t : State) : Prop :=
  match p with
  | .regs => t.regs = s.regs
  | .mem => t.mem = s.mem
  | .marked => t.marked = s.marked
  | .net => t.net = s.net
  | .free => t.free = s.free
  | .core => t.core = s.core
  | .die => t.die = s.die
  | .home => t.home = s.home
  | .pass => t.pass = s.pass
  | .chan => t.chan = s.chan
  | .mesa => t.mesa = s.mesa
  | .meter => t.meter = s.meter
  | .qos => t.qos = s.qos
  | .hzn => t.hzn = s.hzn
  | .xce => t.xce = s.xce
  | .io => t.io = s.io
  | .ras => t.ras = s.ras
  | .tvx => t.tvx = s.tvx
  | .pwr => t.pwr = s.pwr
  | .ccol => t.ccol = s.ccol

/-- `t` keeps the queue, the canonical forms, and every part outside `P`. -/
def State.Frame (P : Part → Prop) (s t : State) : Prop :=
  t.pending = s.pending ∧ (s.Ok → t.Ok) ∧ ∀ p, ¬ P p → s.samePart p t

/-- Whatever state an outcome answers keeps those. -/
def FrameOut (P : Part → Prop) (s : State) (o : Out) : Prop := ∀ t, o = .next t → s.Frame P t

/-- `t` differs from `s` in the named parts at most. -/
def State.Only (s : State) (ps : List Part) (t : State) : Prop := s.Frame (· ∈ ps) t

/-- Does a field hold bit `i` of the register at `a`? -/
def FRef.holds (f : FRef) (a i : Nat) : Prop := f.addr = a ∧ f.lo ≤ i ∧ i < f.lo + f.w

/-- A whole register as a field. -/
def FRef.all (a : Nat) : FRef := ⟨a, 0, 64⟩

/-- Every bit of every register outside a list of fields reads as before. -/
def State.OnlyFields (s : State) (fs : List FRef) (t : State) : Prop :=
  ∀ a i, (∀ f ∈ fs, ¬ f.holds a i) → (t.reg a).getLsbD i = (s.reg a).getLsbD i

/-- Every register outside a list reads as before. -/
def State.OnlyRegs (s : State) (as : List Nat) (t : State) : Prop := ∀ a, a ∉ as → t.reg a = s.reg a

/-- Every hart but `h` has its own state, its L2, its L1I and its L1D as before. -/
def State.OnlyHart (s : State) (h : Nat) (t : State) : Prop :=
  ∀ k, k ≠ h → t.hart k = s.hart k ∧ (∀ set < 2048, ∀ w < 16, t.l2 k set w = s.l2 k set w) ∧
    ∀ set < 128, ∀ w < 8, t.l1i k set w = s.l1i k set w ∧ t.l1d k set w = s.l1d k set w

/-- The command completes, and the state it answers meets `Q`. -/
def Completes (c : Instr) (s : State) (Q : State → Prop) : Prop := ∃ t, exec c s = .next t ∧ Q t

/-- A step that does not stop. -/
def State.SafeStep (s : State) : Prop := ∃ t, step s = .next t

end Sys2Proof.Machine
end

