-- ==== Sys2Proof/Certificates/Slice0/Obligations.lean ====
section
/-!
DEFINITION. The statements for the provers. Each clause about a command gives conditions on the state and the operands under
which the command completes with its own effect, what the state it answers holds, and the parts of the state that it may change
(`State.Only`, Safety.lean: every other part, and the queue, is as before; `State.OnlyRegs`: every other register is as before).
-/

namespace Sys2Proof.Machine

/-- The core of hart `h` is up and none of its accesses waits. -/
abbrev State.Calm (s : State) (h : Nat) : Prop := s.hartReady h = true ∧ (s.hart h).waits = []

/-- What an access meets is memory. -/
def Reach.isMem : Reach → Bool
  | .mem _ => true
  | .peer => true
  | _ => false

/-- The L2 way that holds the line of an access, and the line's bytes there. -/
abbrev State.cached (s : State) (h : Nat) (x : Access) (w : Nat) : L2Way := s.l2 h (l2Set (x.ga / 64)) w

/-- A naturally aligned access to ordinary memory, within one line that way `w` of the hart's L2 holds without the marker. -/
abbrev State.Hits (s : State) (h : Nat) (x : Access) (w : Nat) : Prop :=
  s.ras.flaws = [] ∧ Access.refusal x = none ∧ x.page2 = none ∧ x.elem = none ∧
  0 < x.size ∧ x.size ≤ 8 ∧ x.ga % x.size = 0 ∧ x.ga % 64 + x.size ≤ 64 ∧ x.ga % 16 + x.size ≤ 16 ∧ x.pbmt = .pma ∧
  (s.reachHart x.priv x.ga).isMem = true ∧ (s.reachHart x.priv (x.ga + x.size - 1)).isMem = true ∧
  s.l2Way h (x.ga / 64) = some w ∧ (s.cached h x w).bad = false

/-- Every L2 way but way `w` of a line's set in one hart's L2 is as before. -/
def State.OnlyWay (s : State) (h line w : Nat) (t : State) : Prop :=
  ∀ k, ∀ set < 2048, ∀ v < 16, ¬ (k = h ∧ set = l2Set line ∧ v = w) → t.l2 k set v = s.l2 k set v

/-- What retiring an instruction of hart `h` may count: instructions, and the events that its hpm counters select. -/
def countFields (h : Nat) : List FRef :=
  FRef.all (R.rminstret h) :: (List.range 16).flatMap (fun i => [FRef.all (R.rmhpmcounter h i), FRef.all (R.rmhpmevent h i)])

/-- What counting an event of the uncore may change: the counters, and what a counter overflow reports. -/
def eventFields : List FRef :=
  (List.range 354).flatMap (fun b => (List.range 32).map (fun j => FRef.all (R.rCCOL_COUNT b j))) ++
  (List.range 6).map (fun i => FRef.all (R.rCCOL_OVF_PEND i)) ++ [FRef.all R.rIOMMU_MSI_DROPS]

/-- What recording, signalling and logging an error may change among the registers: those of a resumable NMI, and the counts
of MSIs dropped and of events lost. -/
def reportFields : List FRef :=
  (List.range 384).flatMap (fun h => [FRef.all (R.rpc h), FRef.all (R.rmnepc h), FRef.all (R.rmncause h), FRef.all (R.rmnstatus h)]) ++
  [FRef.all R.rIOMMU_MSI_DROPS, FRef.all R.rMBOX_STATUS]

/-- A message's turn (spec/04 R88, spec/05 R125, spec/06 R154): it is for this package, it is the next of its channel that
stands at its receiver, a REQ wins its slice's arbitration, and no block that its arrival reads is bad. One that nothing in
the model sent is taken to stand at its receiver. -/
def State.turnOf (s : State) (m : Msg) : Bool :=
  let s' := if s.net.contains m then s else s.send m
  s.ras.flaws.isEmpty && m.dstPkg == s.pkgId && s'.mayTake m (!s.net.contains m || s'.landed m)

/-- An error record goes to bank `b` as spec/14 R340 says: where logging is enabled, to the record chosen, whole, or with
`multi` set in one that keeps its place. -/
abbrev State.Recorded (s : State) (b : Nat) (r : ErrRec) (t : State) : Prop :=
  (s.recCtl b (s.recChoice b)).els = true → t.errRec b (s.recChoice b) =
    (if (s.errRec b (s.recChoice b)).valid = false ∨ (s.errRec b (s.recChoice b)).sev < r.sev then r
     else { s.errRec b (s.recChoice b) with multi := true })

/-- So does one, and every other record is as before. -/
def State.Records (s : State) (b : Nat) (r : ErrRec) (t : State) : Prop :=
  s.Recorded b r t ∧ ∀ c i, i < 4 → ¬ (c = b ∧ i = s.recChoice b) → t.errRec c i = s.errRec c i

/-- The record of an error of a severity in bank `b` raises no resumable NMI (spec/14 R339). -/
abbrev State.NoNmi (s : State) (b sev : Nat) : Prop :=
  (s.recCtl b (s.recChoice b)).els = false ∨ (s.recCtl b (s.recChoice b)).signal sev ≠ 2

/-- Hart `h`, which `x` is an access of, takes an access fault on it (spec/02 R51): it waits for no completion any more, and is
in the mode that the trap goes to. Where the fault's record raises no NMI, nothing of any other hart changes. -/
def State.Faults (s : State) (h cause : Nat) (x : Access) (t : State) : Prop :=
  (t.hart h).mmio = none ∧ (t.hart h).resv = none ∧ (t.hart h).out = .trap cause x.va x.elem ∧
  (s.NoNmi (bankCore h) errUED →
    t.hart h = { s.hart h with mmio := none, resv := none, mode := s.trapLevel h cause x.priv, out := .trap cause x.va x.elem } ∧
    s.OnlyHart h t)

/-- An access that a test of a hypothesis uses: `size` bytes at `ga` of ordinary memory, in M-mode. -/
abbrev plainAccess (ga size : Nat) : Access :=
  { priv := .m, pbmt := .pma, ga := ga, va := ga, size := size, elem := none, fof := false, walk := false }

/-- Registers of the map whose write does nothing but store the bits that are writable. -/
def plainRegs : List RegId :=
  [.VALE_CORE_RESET_PC, .VALE_CORE_NMI_PC, .RAS_MSI_ADDR, .RAS_MSI_DATA, .CCOL_MSI_ADDR, .CCOL_MSI_DATA]

/-- The register at offset `a` of the package register space is one of those, its die online, and `rw` its writable bits. -/
abbrev State.Plain (s : State) (a : Nat) (rw : Word) : Prop :=
  a % 8 = 0 ∧ a < 0x2A00000 ∧ prsBlock a = true ∧ s.prsDown a = false ∧
  ((regFind a).map (fun e => (plainRegs.contains e.1.id, BitVec.ofNat 64 e.1.rw, e.1.w1c))) = some (true, rw, 0)

/-- The lowest TAG with which no register access of die `d` waits. -/
abbrev State.tagFree (s : State) (d tag : Nat) : Prop :=
  (List.range 256).find? (fun k => !s.pass.asked.any (fun a => a.die == d && a.tag == k)) = some tag

/-- CSRs whose write stores what the mask of their writable bits lets through, and does nothing else. -/
def plainCsrs : List Nat := [0x105, 0x140, 0x302, 0x305, 0x340, 0x602]

/-- The turn of MGT message `m` of die `d`, at the end that it goes to: it is the next of its direction and has come out of
the receive buffers, or nothing in the model sent it and none of its direction is in flight. -/
def State.mgtTurn (s : State) (d : Nat) (m : Mgt) : Bool :=
  let l := s.pass.mgt.find? (fun x => x.1 == d && (x.2.mopc == 2) == (m.mopc == 2))
  if s.pass.mgt.contains (d, m) then l == some (d, m) && s.mgtLanded (if m.mopc = 2 then 0 else 1) d m else l.isNone

/-- The tables of locks, tokens and owed grants of the homes are empty. -/
abbrev State.HomesIdle (s : State) : Prop := s.home.locks = [] ∧ s.home.toks = [] ∧ s.home.owed = [] ∧ s.home.wbHeld = [] ∧
  s.home.chHeld = [] ∧ s.home.pxWb = []

/-- A legal message of channel `vc` and opcode `opc` from an agent of this package to slice `n` of this package. -/
abbrev State.ToHome (s : State) (n : Ix16) (m : Msg) (vc opc : Nat) : Prop :=
  m.vc = vc ∧ m.opc = opc ∧ m.srcPkg = s.pkgId ∧ m.dstPkg = s.pkgId ∧ m.dstAgent = agHOME + n ∧ msgIllegal m = none ∧
  s.turnOf m = true

/-- A legal message to die `d`, which is online. -/
abbrev State.ToDie (s : State) (d : Die) (m : Msg) (vc opc : Nat) : Prop :=
  m.vc = vc ∧ m.opc = opc ∧ m.dstPkg = s.pkgId ∧ m.dstAgent = d ∧ s.dieQuiet d = false ∧ msgIllegal m = none ∧
  s.turnOf m = true

/-- A line of this package's memory, not under a sanitise fence, that die `o`, able to answer, holds exclusively, and that die `q`
asks for without a token. -/
abbrev State.OwnedElsewhere (s : State) (n : Ix16) (m : Msg) (q o : Die) : Prop :=
  m.srcAgent = q ∧ q ≠ o ∧ m.tokenV = false ∧ s.lineLocal m.addr = true ∧ s.homeRefuses m.addr = none ∧
  s.fenced (m.addr * 64 % 2 ^ 44) = false ∧ s.isBcast n (s.dOfLine m.addr) = false ∧
  s.homeView n (s.dOfLine m.addr) = ⟨2, maskOf o, some (o : Nat)⟩ ∧ s.dieQuiet o = false ∧ (s.dieCtl o).lost = false

/-- The snoop that slice `n` sends to die `o` for request `m` under lock slot 0, data to go to the requester or to the home. -/
def State.snoopFor (s : State) (n : Ix16) (m : Msg) (o : Die) (opc : Nat) (toHome : Bool) : Msg :=
  { vc := vcSNP, opc := opc, srcPkg := s.pkgId, srcAgent := agHOME + n, dstPkg := s.pkgId, dstAgent := o, txn := m.txn,
    addr := m.addr, reqPkg := m.srcPkg, reqAgent := if toHome then agHOME + n else m.srcAgent,
    reqTxn := if toHome then 0 else m.txn, mcid := m.mcid }

/-- The line and the request that a lock slot is held for. -/
def State.lockedFor (s : State) (n htag : Nat) : Option (Nat × Msg) := (s.lock n htag).map (fun x => (x.line, x.req))

/-- The level that a slice's own sensor at `t` gives (spec/17 R389): its floor, to which a slice in CENTRAL rises only. -/
def State.localLevel (s : State) (n : Nat) (t : Int) : Nat :=
  let f := if s.pwr.hot.testBit (13 + n / 4) then 3 else throttleAt localEntry (Tbl.get (fun _ => 0) s.pwr.floor n) t
  if s.get R.PWR_CTL_STACK_MODE = 1 then max f (s.get (R.MESA_STATUS_THROTTLE n)) else f

/-- The registers of a channel that training, the fill, retrains and copies write. -/
def chanFields (c : Nat) : List FRef :=
  [FRef.all (R.rMC_CH_CONFIG c), FRef.all (R.rMC_CH_STATUS c), FRef.all (R.rMC_MARK c 0), FRef.all (R.rMC_MARK c 1),
   FRef.all (R.rMC_EVENT c), FRef.all (R.rMC_FILL_STATUS c), FRef.all (R.rMC_COPY_STATUS c)]

/-- The channels in TRAINING, as a mask. -/
def State.inTraining (s : State) : Nat := foldN 16 0 (fun c m => if s.chState c = chTRAINING then m ||| 1 <<< c else m)

/-- The outcome of R174 for the populated channels and those that fail. -/
abbrev State.modeFor (s : State) (pop fail : Nat) : Option (Nat × Nat × Nat) := chooseMode pop fail s.modePref.1 s.modePref.2

/-- No write is held at a channel, and no copy start. -/
abbrev State.NoHeld (s : State) : Prop := s.home.chHeld = [] ∧ s.chan.heldStart = []

/-- The DRAM line that the patrol of a channel reads next (spec/14 R332): its decode address, where the channel carries an
ordinal, and whether a fence, a lock or a held request keeps the patrol from it. -/
abbrev State.patrolAt (s : State) (ch : Nat) : Nat := Tbl.get (fun _ => 0) s.ras.patrolDram ch
def State.patrolD (s : State) (ch : Nat) : Nat :=
  chanD (s.get R.PKG_MEMMAP_CHANNEL_MODE) (s.get (R.MC_CH_STATUS_ORDINAL ch)) (s.patrolAt ch)
def State.patrolGa (s : State) (ch : Nat) : Nat := if s.get (R.MC_CH_STATUS_ORDINAL ch) < 16 then s.gaOfD (s.patrolD ch) else 0
abbrev State.patrolDue (s : State) (ch : Nat) : Prop :=
  s.patrolled ch = true ∧ s.get R.RAS_PATROL_CTL_DRAM_PERIOD ≠ 0 ∧ s.ras.patrolDone.testBit ch = false
abbrev State.patrolFenced (s : State) (ch : Nat) : Prop :=
  s.get (R.MC_CH_STATUS_ORDINAL ch) < 16 ∧ s.fenced (s.patrolGa ch % 2 ^ 44) = true
abbrev State.patrolKept (s : State) (ch : Nat) : Prop :=
  s.get (R.MC_CH_STATUS_ORDINAL ch) < 16 ∧
    ((s.lockOf (sliceOf (s.patrolD ch)) (s.patrolGa ch / 64)).isSome = true ∨ s.chHolds ch (s.patrolAt ch) = true)

/-- The line that the sanitise engine takes next in the range, its decode address, and the pass it belongs to. -/
abbrev State.sanLine (s : State) : Nat := (s.pkgId * 2 ^ 44 + (s.chan.san.base + s.chan.san.next)) / 64
abbrev State.sanD (s : State) : Nat := s.dOfLine s.sanLine
abbrev State.sanPass (s : State) (phase : Nat) : Prop :=
  (s.chan.san.op = 1 ∨ s.chan.san.op = 2) ∧ s.chan.san.phase = phase ∧ s.chan.san.next < s.chan.san.len

/-- The registers in which the sanitise engine shows what it does. -/
def sanFields : List FRef :=
  (List.range 16).flatMap (fun n => [FRef.all (R.rMC_SAN_STATUS n), FRef.all (R.rMC_SAN_BASE n), FRef.all (R.rMC_SAN_LENGTH n),
    FRef.all (R.rMC_SAN_PROGRESS n)])

/-- The header fields of a flit that carry nothing (no acknowledgement, no NAK and no credit report), and no bit inverted on the
way. -/
abbrev silentFlit (f : Flit) : Prop :=
  f.ackV = false ∧ f.nak = false ∧ f.cr0Vc = 7 ∧ f.cr1Vc = 7 ∧ f.cr1Total = 0 ∧ f.err = []

/-- The port is ACTIVE and a CONTROL flit comes to it whose header carries nothing. -/
abbrev State.ControlAt (s : State) (p : Nat) (f : Flit) : Prop := s.passState p = passACTIVE ∧ silentFlit f

/-- The registers of a Pass port, and those of its die that follow it. -/
def linkFields (p : Nat) : List FRef :=
  FRef.all (R.rVALE_DIE_STATUS (p / 2)) :: (List.range 2).flatMap (fun e => [FRef.all (R.rPASS_STATUS e p), FRef.all (R.rPASS_EVENT e p),
    FRef.all (R.rPASS_LINK_STATS e p), FRef.all (R.rPASS_TRAIN_INFO e p)])

/-- Every port but `p` has its two ends and its record as before, and nothing of the Pass links but ends, ports, streams
and waiting MGT messages changes (the MSI of a counter that overflows may join these). -/
def State.OnlyPort (s : State) (p : Nat) (t : State) : Prop :=
  t.pass = { s.pass with ends := t.pass.ends, ports := t.pass.ports, strm := t.pass.strm, mgt := t.pass.mgt } ∧
  ∀ q, q < 24 → q ≠ p → t.pPort q = s.pPort q ∧ t.pEnd 0 q = s.pEnd 0 q ∧ t.pEnd 1 q = s.pEnd 1 q

/-- Every stream of DSEQs is as before. -/
abbrev State.SameStreams (s t : State) : Prop := t.pass.strm = s.pass.strm

/-- A swap in progress of a direction of a port: UP (end 0 receives) or DOWN. -/
def State.swapOf (s : State) (e p : Nat) : Option PSwap := if e = 0 then (s.pPort p).swU else (s.pPort p).swD

/-- The flits of a port from a SEQ on, and those that it was itself to retransmit (spec/06 R167). -/
def PEnd.handed (y : PEnd) (seq : Nat) : List PFlit :=
  (if y.replay.any (fun x => x.seq == seq) then y.replay.dropWhile (fun x => x.seq != seq)
   else if seq = y.txNext then [] else y.replay) ++ y.moved

/-- A map exchange runs on a port, in attempt `att` of at most 15, with some lane that this train has found good each way. -/
abbrev State.Mapping (s : State) (p : Nat) : Prop :=
  s.mapping p = true ∧ (s.pPort p).att < 16 ∧ (s.pPort p).tUp % 2 ^ 68 ≠ 0 ∧ (s.pPort p).tDown % 2 ^ 68 ≠ 0

/-- The revisions that both ends support: the highest of the lower, the lowest of the higher ends (spec/06 R161). -/
def State.revLo (s : State) (p : Nat) : Nat := max (s.get (R.PASS_TRAIN_INFO_REV_MIN 1 p)) (s.get (R.PASS_TRAIN_INFO_REV_MIN 0 p))
def State.revHi (s : State) (p : Nat) : Nat := min (s.get (R.PASS_TRAIN_INFO_REV_MAX 1 p)) (s.get (R.PASS_TRAIN_INFO_REV_MAX 0 p))

/-- A train that fails with `cause` for the first or second time has started again (spec/06 R156). -/
abbrev State.Restarted (s : State) (p cause : Nat) (t : State) : Prop :=
  t.passState p = passDETECT ∧ (t.pPort p).fails = (s.pPort p).fails + 1 ∧ t.get (R.PASS_TRAIN_INFO_LAST_FAIL 0 p) = cause ∧
  t.get (R.PASS_TRAIN_INFO_LAST_FAIL 1 p) = cause ∧ (t.pPort p).tUp = lanes68 ∧ (t.pPort p).tDown = lanes68 ∧
  (t.pPort p).up = (s.pPort p).up ∧ (t.pPort p).down = (s.pPort p).down

/-- A map is agreed at both ends (spec/06 R155, R156, R158): the lanes of each direction, the width, whether it is a fallback
map, the revision. -/
abbrev State.Mapped (s : State) (p c fb : Nat) (up down : List Nat) (t : State) : Prop :=
  t.passState p = (if s.passState p = passRETRAIN then passRETRAIN else passCONFIG) ∧
  t.get (R.PASS_STATUS_WIDTH 0 p) = c ∧ t.get (R.PASS_STATUS_WIDTH 1 p) = c ∧
  t.get (R.PASS_STATUS_FALLBACK_MAP 0 p) = fb ∧ t.get (R.PASS_STATUS_FALLBACK_MAP 1 p) = fb ∧
  ((s.pPort p).rev ≠ 0 → t.get (R.PASS_STATUS_REVISION 0 p) = (s.pPort p).rev % 256 ∧ t.get (R.PASS_STATUS_REVISION 1 p) = (s.pPort p).rev % 256) ∧
  t.pEnd 0 p = { s.pEnd 0 p with rxMap := up, txMap := down, rxGood := (s.pPort p).goodUp, txGood := (s.pPort p).goodDown } ∧
  t.pEnd 1 p = { s.pEnd 1 p with rxMap := down, txMap := up, rxGood := (s.pPort p).goodDown, txGood := (s.pPort p).goodUp } ∧
  t.pPort p = (if s.passState p = passRETRAIN then { s.pPort p with mapped := true } else s.pPort p)

/-- A port whose trained lanes are cut down to those of two masks. -/
def PPort.masked (x : PPort) (u v : Nat) : PPort :=
  { x with tUp := x.tUp &&& u, tDown := x.tDown &&& v }

/-- The header fields of a Horizon frame that carry nothing (no acknowledgement, no NAK and no credit report), and no bit
inverted on the way. -/
abbrev silentFrame (f : HFrame) : Prop := f.ackV = false ∧ f.nak = false ∧ f.crs = [] ∧ f.err = []

/-- No frames taken over from a sibling wait on a Horizon port. -/
abbrev State.NoneMoved (s : State) (p : Nat) : Prop := (s.hPort p).moved = [] ∧ (s.hPort p).takes = []

/-- The port is ACTIVE with nothing taken over, and a frame comes to it whose header carries nothing. -/
abbrev State.FrameAt (s : State) (p : Nat) (f : HFrame) : Prop := s.hznState p = hznACTIVE ∧ s.NoneMoved p ∧ silentFrame f

/-- The registers of a Horizon port that its training and its frames change, and BUNDLE_PORTS of every port. -/
def hznFields (p : Nat) : List FRef :=
  [FRef.all (R.rHZN_STATUS p), FRef.all (R.rHZN_EVENT p), FRef.all (R.rHZN_PARTNER p), FRef.all (R.rHZN_PARTNER_SERIAL p),
   FRef.all (R.rHZN_LANES p), FRef.all (R.rHZN_LINK_STATS p), FRef.all (R.rHZN_DROP_STATS p), FRef.all (R.rHZN_TRAIN_INFO p)] ++
  (List.range 8).map (fun l => FRef.all (R.rHZN_LANE_STATS p l)) ++ (List.range 8).map R.HZN_STATUS_BUNDLE_PORTS

/-- Every Horizon port but `p` is as before, and nothing of the Horizon ports but ports, streams and the CONTROL frames sent
changes. -/
def State.OnlyHPort (s : State) (p : Nat) (t : State) : Prop :=
  t.hzn = { s.hzn with ports := t.hzn.ports, strm := t.hzn.strm, ctl := t.hzn.ctl } ∧
  ∀ q, q < 8 → q ≠ p → t.hPort q = s.hPort q

/-- No CONTROL frame is sent, and the streams of the bundles are as before. -/
abbrev State.HznSilent (s t : State) : Prop := t.hzn.ctl = s.hzn.ctl ∧ t.hzn.strm = s.hzn.strm

/-- CONTROL frames are sent on port `p`, the newest first in `l`; their bytes are metered to MCID 0 and monitored as overhead
(spec/09 R221, R223). -/
abbrev State.HznSends (s : State) (p : Nat) (l : List (Nat × List Nat)) (t : State) : Prop :=
  t.hzn.ctl = l.map (fun c => ⟨p, c.1, c.2⟩) ++ s.hzn.ctl ∧ t.hzn.strm = s.hzn.strm ∧
  t.meter = (l.foldl (fun s _ => s.hznTxBytes p 0 none frameBytes) s).meter ∧
  t.qos = (l.foldl (fun s _ => s.hznTxBytes p 0 none frameBytes) s).qos

/-- The bytes of a frame received go to MCID `k`. -/
abbrev State.HznMeters (s : State) (k : Nat) (t : State) : Prop := t.meter = (s.meterAdd qHZN_RX k frameBytes).meter

/-- The arguments of the HELLO that a port sends. -/
def State.helloArgs (s : State) (p width rev : Nat) (noRev : Bool) : List Nat :=
  let m := 0xFF - (s.hPort p).marks % 256
  leBytes 8 Config.serial.toNat ++ leBytes 2 s.pkgId ++ [0, s.get (R.HZN_TRAIN_INFO_REV_MIN p), s.get (R.HZN_TRAIN_INFO_REV_MAX p),
    (s.hPort p).good.1 &&& m, (s.hPort p).good.2, width, rev, b2n noRev]

/-- What a HELLO says of the partner of a port. -/
abbrev State.Partner (p : Nat) (x : Hello) (t : State) : Prop :=
  t.get (R.HZN_PARTNER_PACKAGE_ID p) = x.pkg % 4096 ∧ t.get (R.HZN_PARTNER_KIND p) = x.kind % 2 ∧
  t.get (R.HZN_PARTNER_REV_MIN p) = x.lo % 256 ∧ t.get (R.HZN_PARTNER_REV_MAX p) = x.hi % 256 ∧
  t.get (R.HZN_PARTNER_SERIAL_SERIAL p) = x.serial.toNat ∧ t.get (R.HZN_LANES_TX_MARKED p) = 0xFF - x.rxGood % 256

/-- A Horizon port is DISABLED: no width, no revision, no lane, no partner. -/
abbrev State.HznOff (t : State) (p : Nat) : Prop :=
  t.hznState p = hznDISABLED ∧ t.get (R.HZN_STATUS_WIDTH p) = 3 ∧ t.get (R.HZN_STATUS_REVISION p) = 0 ∧
  t.get (R.HZN_STATUS_MASTER p) = 0 ∧ t.get (R.HZN_LANES_RX_ACTIVE p) = 0 ∧ t.get (R.HZN_LANES_TX_ACTIVE p) = 0 ∧
  t.get (R.HZN_PARTNER_VALID p) = 0

/-- A port begins to train: in PMD_TRAIN, its frames and counts cleared, FULL_TRAINS counted; `x` is its record before. -/
abbrev State.HznStarts (s : State) (p : Nat) (x : HPortSt) (t : State) : Prop :=
  t.hznState p = hznPMD ∧
  t.get (R.HZN_TRAIN_INFO_FULL_TRAINS p) = satAdd (R.HZN_TRAIN_INFO_FULL_TRAINS p).w (s.get (R.HZN_TRAIN_INFO_FULL_TRAINS p)) 1 ∧
  t.hPort p = { x with rxNext := 0, txNext := 0, replay := [], naks := 0, agreed := false, oldW := 3, lower := none,
                       hand := false, after := false, wait := .no, good := (0xFF, 0xFF), moved := [], takes := [] }

/-- An island message of a code reaches this package. -/
abbrev State.IslandMsg (s : State) (m : WMsg) (code : Nat) : Prop :=
  m.dstPkg = s.pkgId ∧ m.vc = vcPOST ∧ m.wopc = 2 ∧ 1 ≤ code ∧ code ≤ 7 ∧ m.icode = code

/-- An island message as this package sends it (spec/10 R256). -/
abbrev State.islMsg (s : State) (icode pkg member nak : Nat) : WMsg :=
  { vc := vcPOST, wopc := 2, srcPkg := s.pkgId, dstPkg := pkg, icode := icode, member := member,
    islandId := s.get R.ROUTE_ISLAND_CTL_ISLAND_ID, nakCause := nak }

/-- The Horizon state once the message is out of flight and of the receive buffer that held it, and messages were issued. -/
abbrev State.Takes (s : State) (m : WMsg) (l : List WMsg) : HznSt :=
  { s.hzn with out := s.hzn.out ++ l, win := s.hzn.win.erase m, ports := (s.hznConsume (fun x => x == .win m)).hzn.ports }

/-- The revision of the port that an island message came on. -/
def State.wRev (s : State) (m : WMsg) : Nat := match s.wPort m with | some p => s.get (R.HZN_STATUS_REVISION p) | none => 3

/-- The registers of membership: the island's status, PKG_NODE and the members. -/
def islandFields : List FRef :=
  [FRef.all R.rROUTE_ISLAND_STATUS, R.PKG_NODE_ISLAND_MEMBER, R.PKG_NODE_ISLAND_INDEX] ++
  (List.range 32).map R.ROUTE_MEMBER_STATE

/-- Every member but `i` keeps its state and its package. -/
abbrev State.OtherMembers (s : State) (i : Nat) (t : State) : Prop :=
  ∀ j, j < 32 → (t.memPkg j = s.memPkg j ∧ (j ≠ i → t.memState j = s.memState j))

/-- The package is ALONE: whoever was ACTIVE, LEAVING or SELF is FREE, but for those in `l`, and nobody is waited for. -/
abbrev State.IsAlone (s : State) (l : List Nat) (t : State) : Prop :=
  t.isl = islALONE ∧ t.get R.PKG_NODE_ISLAND_MEMBER = 0 ∧
  t.hzn.joinWait = 0 ∧ t.hzn.joinAck = 0 ∧ t.hzn.leaveWait = 0 ∧ t.hzn.leaveLost = false ∧
  ∀ j, j < 32 → j ∉ l → t.memState j =
    (if s.memState j = memACTIVE ∨ s.memState j = memLEAVING ∨ s.memState j = memSELF then memFREE else s.memState j)

/-- Nothing of the home slices and proxies is under way. -/
abbrev State.HomesEmpty (s : State) : Prop :=
  s.home.locks = [] ∧ s.home.wbHeld = [] ∧ s.home.pxHeld = [] ∧ s.home.toks = [] ∧ s.home.pxWb = []

/-- Member `i` is declared lost (spec/10 R258): counted, its lines swept, and every other ACTIVE member told. -/
abbrev State.Loses (s : State) (i : Nat) (t : State) : Prop :=
  t.memState i = memLOST ∧ t.get R.ROUTE_STATS_LOSSES = satAdd (R.ROUTE_STATS_LOSSES).w (s.get R.ROUTE_STATS_LOSSES) 1 ∧
  t.hzn.out = s.hzn.out ++
    (s.membersWhere (fun j => s.memState j == memACTIVE && j != i)).map (fun j => s.islMsg 6 (s.memPkg j) i 0) ∧
  t.home = { s.home with sweeps := t.home.sweeps, owed := t.home.owed } ∧
  (s.home.sweeps = [] → t.home.sweeps.map (fun w => w.ix) = List.replicate 32 (64 + i))

/-- A window message of a kind is in flight to this package. -/
abbrev State.WinHere (s : State) (m : WMsg) (vc wopc : Nat) : Prop :=
  s.hzn.win.contains m = true ∧ m.vc = vc ∧ m.wopc = wopc ∧ m.dstPkg = s.pkgId

/-- A window request of one kind is in flight to this package and passes the checks at the target (spec/12 R301): inbound
entry `e`, owner `f`. -/
abbrev State.WinOpen (s : State) (m : WMsg) (vc wopc e f : Nat) : Prop :=
  s.WinHere m vc wopc ∧ wIllegal m = false ∧ s.iwinE m.iwin = e ∧
  wordBits e 0 32 12 = f ∧ s.inOpen e m = true ∧ s.fnAccepts f = true ∧ m.poison = false

/-- The Horizon state once a window message has been taken and an answer is on its way, to this package itself or another. -/
abbrev State.Answers (s : State) (m c : WMsg) : HznSt := (({ s with hzn := s.Takes m [] } : State).wGo c).hzn

/-- A window completion answers the outstanding request `x` as that one expects (spec/12 R293, spec/10 R260). -/
abbrev State.CplFor (s : State) (m : WMsg) (wopc : Nat) (x : XTag) : Prop :=
  s.WinHere m vcCPL wopc ∧ s.tag m.srcFn m.wtag = some x ∧ m.cstatus ≠ 7 ∧ x.quar = false ∧ x.np = (wopc != 2) ∧
  (wopc = 0 → m.cstatus = 0 → m.length = x.len)

/-- It does so with success. -/
abbrev State.CplGood (s : State) (m : WMsg) (wopc : Nat) (x : XTag) : Prop :=
  s.CplFor m wopc x ∧ m.cstatus = 0 ∧ m.poison = false

/-- The XCE has no operation and no request outstanding, so that the next one is the only one. -/
abbrev State.XceIdle (s : State) : Prop := s.xce.ops = [] ∧ s.io.reqs = []

/-- The `n` bytes at `va` lie within a page, which translates without the cache to that of `ga`; they are at `pa`, within one
line, and are memory. -/
abbrev State.OneLine (s : State) (f va n ga pa : Nat) : Prop :=
  s.atsOn f = false ∧ pa = ga / 4096 * 4096 + va % 4096 ∧ 0 < n ∧ va % 4096 + n ≤ 4096 ∧ pa % 64 + n ≤ 64 ∧
  (s.reachDevice pa).isMem = true

/-- A coherent request as the XCE sends it. -/
abbrev State.xceMsg (s : State) (m : Msg) : Msg :=
  { m with vc := vcREQ, srcPkg := s.pkgId, srcAgent := agXCE, dstPkg := m.addr * 64 / 2 ^ 44,
           dstAgent := agHOME + s.homeSlice (m.addr * 64), txn := s.ioTxn agXCE }

/-- A read of the line of `pa` under some identifiers, and a write of `n` bytes of `v` at `pa`. -/
abbrev readMsg (ids : Nat × Nat) (pa : Nat) : Msg :=
  { blankMsg with opc := opRD_CUR, addr := pa / 64, rcid := ids.1, mcid := ids.2 }
@[inherit_doc readMsg] abbrev writeMsg (ids : Nat × Nat) (ord pa n v : Nat) : Msg :=
  let m : Msg := { blankMsg with opc := opWR_PART, addr := pa / 64, rcid := ids.1, mcid := ids.2, ord := ord, payload := true,
                                 data := BitVec.ofNat 512 ((v % 2 ^ (8 * n)) <<< (8 * (pa % 64))),
                                 byteMask := (2 ^ n - 1) <<< (pa % 64) }
  if n = 64 then { m with opc := opWR_FULL, byteMask := blankMsg.byteMask } else m

/-- The XCE, idle before, has begun one operation of function `f`: one request `m` for bytes of one line, in a stream. -/
abbrev State.Begins (s : State) (f : Nat) (what : XWhat) (ids : Nat × Nat) (stream lo n : Nat) (m : Msg) (t : State) : Prop :=
  t.xce.ops = [{ id := s.xce.nextOp, fn := f, left := 1, what := what, ids := ids }] ∧ t.xce.nextOp = s.xce.nextOp + 1 ∧
  t.io = { s.io with reqs := [{ agent := agXCE, msg := s.xceMsg m, stream := stream, why := .xce s.xce.nextOp 0 lo n, st := .sent,
                                since := s.pwr.now }] } ∧
  t.net = s.net ++ [s.xceMsg m]

/-- An uncorrectable error of function `f` is logged by PF0 (bit `k` of its status) and recorded (spec/11 R282). -/
abbrev State.XceLogs (s : State) (f k : Nat) (t : State) : Prop :=
  t.cfgBits ridPF 0x104 k 1 = 1 ∧
  s.Records bankXce ⟨true, errUED, false, 0,
    recInfo (s.get (R.QOS_FN_ID_MCID f)) (s.get (R.QOS_FN_ID_RCID f)) agXCE s.pkgId, 0, s.pwr.now⟩ t

/-- Every queue pair but `q` of function `f` is as before. -/
def State.OnlyQp (s : State) (f q : Nat) (t : State) : Prop := ∀ g p, p < 8 → ¬ (g = f ∧ p = q) → t.qp g p = s.qp g p

/-- The next descriptor of a queue pair that is not issued whole is `d`, of opcode `op`, and it may go on. -/
abbrev State.NextDesc (s : State) (f q : Nat) (d : XDesc) (op : Nat) : Prop :=
  s.fnDrains f = false ∧ (s.qp f q).descs.find? (fun d => !(d.started && decide (d.total ≤ d.next))) = some d ∧
  (d.started = true ∨ (s.mayStart f q d = true ∧ d.illegal = false)) ∧ d.op = op

/-- Descriptor `d` completes: its entry, with a failure or none, waits after the others (spec/12 R292, R294). -/
abbrev State.Completed (s : State) (f q : Nat) (d : XDesc) (fail : Option (Nat × Nat × Nat)) (t : State) : Prop :=
  t.qp f q = { s.qp f q with
    descs := (s.qp f q).descs.filter (fun y => y.pos != d.pos),
    fin := (s.qp f q).fin ++ [⟨d.pos, d.entry q fail, decide (d.b 1 1 % 2 = 1), false, (d.rcid, d.mcid)⟩] }

/-- Are the ring sizes and the vector of a queue pair good (spec/12 R286, R287)? -/
abbrev State.qpGood (s : State) (f q : Nat) : Prop :=
  (4 ≤ s.get (R.QP_SIZES_SQ_LOG2 f q) ∧ s.get (R.QP_SIZES_SQ_LOG2 f q) ≤ 16) ∧
  (4 ≤ s.get (R.QP_SIZES_CQ_LOG2 f q) ∧ s.get (R.QP_SIZES_CQ_LOG2 f q) ≤ 16) ∧
  (4 ≤ s.get (R.QP_SIZES_RQ_LOG2 f q) ∧ s.get (R.QP_SIZES_RQ_LOG2 f q) ≤ 16) ∧
  (if f = 0 then 8 ≤ s.get (R.QP_IRQ_VECTOR f q) else s.get (R.QP_IRQ_VECTOR f q) ≤ 15)

/-- The slot of the SQ that is fetched next, and how many descriptors are fetched from it (spec/12 R305). -/
abbrev State.fetchSlot (s : State) (f q : Nat) : Nat :=
  s.get (R.QP_SQ_HEAD_INDEX f q) % 2 ^ s.get (R.QP_SIZES_SQ_LOG2 f q)
@[inherit_doc State.fetchSlot] abbrev State.fetchMany (s : State) (f q : Nat) : Nat :=
  min (min 8 (s.sqWaits f q)) (min (2 ^ s.get (R.QP_SIZES_SQ_LOG2 f q) - s.fetchSlot f q) (64 - s.fetchSlot f q % 64))

/-- The next descriptor of a queue pair may start and is illegal. -/
abbrev State.BadDesc (s : State) (f q : Nat) (d : XDesc) : Prop :=
  s.fnDrains f = false ∧ (s.qp f q).descs.find? (fun d => !(d.started && decide (d.total ≤ d.next))) = some d ∧
  d.started = false ∧ s.mayStart f q d = true ∧ d.illegal = true

/-- No descriptor of a queue pair is next for a row of opcode `op`. -/
abbrev State.NoDesc (s : State) (f q op : Nat) : Prop :=
  s.fnDrains f = true ∨ ((s.qp f q).descs.find? (fun d => !(d.started && decide (d.total ≤ d.next)))).all (fun d =>
    (!d.started && !s.mayStart f q d) || ((d.started || !d.illegal) && d.op != op)) = true

/-- A queue pair is left as it was but for the piece of `n` bytes of descriptor `d` that is under way. -/
abbrev State.PieceOut (s : State) (f q : Nat) (d : XDesc) (n : Nat) (t : State) : Prop :=
  t.qp f q = { s.qp f q with descs := (s.qp f q).descs.map (fun y =>
    if y.pos = d.pos then { y with started := true, next := y.next + n, live := y.live + 1 } else y) }

/-- The functions that want bytes of an epoch (spec/12 R305): they exist, have a weight, and have a descriptor to fetch. -/
abbrev State.wanting (s : State) : List Nat :=
  (List.range 2049).filter (fun g => s.fnExists g && decide (0 < s.get (R.XCE_FN_SHARE_WEIGHT g)) &&
    (List.range 8).any (fun p => s.fetchable g p))

/-- Of I/O only the slot of port `i` may differ. -/
def State.OnlySlot (s : State) (i : Nat) (t : State) : Prop :=
  t.io = { s.io with slots := t.io.slots } ∧ ∀ j, j ≠ i → t.portSlot j = s.portSlot j

/-- The region of port `i` drains: every home sweeps its directory for the region's lines, beside what it sweeps already. -/
def State.OnlyDrains (s : State) (i : RPort) (t : State) : Prop :=
  t.home = { s.home with sweeps := t.home.sweeps } ∧
  ∀ w, w ∈ t.home.sweeps ↔ (w ∈ s.home.sweeps ∨ ∃ k : Fin 16, w = ⟨.cxlRegion i k, 0⟩)

/-- Does a sweep for the region of port `i` run? -/
abbrev State.draining (s : State) (i : RPort) : Bool :=
  s.home.sweeps.any (fun w => match w.u with | .cxlRegion j _ => j == i | _ => false)

/-- Is what an access meets configuration space? -/
def Reach.isEcam : Reach → Bool
  | .ecam _ => true
  | _ => false

/-- The cause that a refused access is recorded with (spec/01 R32, R36; notes/assumptions/50.md). -/
def Reach.why : Reach → Nat
  | .fault c => c
  | _ => 0

/-- Does a device wait for an answer to its request, and is the request a write of poisoned data? -/
def dmaAnswered : Dma → Bool
  | .write .. => false
  | _ => true
@[inherit_doc dmaAnswered] def dmaPoisoned : Dma → Bool
  | .write _ _ p => p
  | _ => false

/-- An access that is refused is captured in PKG_DECODE_ERR where that is empty, and noted as a further one where it is not
(spec/01 R36). -/
abbrev State.Refused (s : State) (cause source req ga : Nat) (write : Bool) (t : State) : Prop :=
  if s.get R.PKG_DECODE_ERR_VALID = 1 then t.get R.PKG_DECODE_ERR_OVERFLOW = 1
  else t.get R.PKG_DECODE_ERR_VALID = 1 ∧ t.get R.PKG_DECODE_ERR_CAUSE = cause % 2 ^ R.PKG_DECODE_ERR_CAUSE.w ∧
    t.get R.PKG_DECODE_ERR_SOURCE = source ∧ t.get R.PKG_DECODE_ERR_REQUESTER = req % 2 ^ R.PKG_DECODE_ERR_REQUESTER.w ∧
    t.get R.PKG_DECODE_ERR_WRITE = b2n write ∧ t.get R.PKG_DECODE_ADDR_ADDR = ga % 2 ^ R.PKG_DECODE_ADDR_ADDR.w

/-- An identity goes to an interrupt file over its die's management channel (spec/13 R320, spec/06 R151), last of what goes
there. -/
abbrev State.ToFile (s : State) (h f id rid : Nat) (t : State) : Prop :=
  t.pass.mgt.getLast? = some (h / 32, msiMgt h f id) ∧ s.pass.mgt.length < t.pass.mgt.length ∧
  t.pass.asked.getLast? = some { die := h / 32, tag := 256, write := true, msi := some (msiMgt h f id, rid) }

/-- The boundary at which the next sweep is taken (spec/18 R410): the next multiple of the interval that no sweep has been
taken at. -/
abbrev State.boundary (s : State) : Nat := (max s.pwr.now s.ccol.next + s.sweepEvery - 1) / s.sweepEvery * s.sweepEvery

/-- Bytes of the ring of sweeps that are written and not consumed. -/
abbrev State.sweepUsed (s : State) : Nat := (s.get R.CCOL_RING_PROD_PROD + 2 ^ 32 - s.get R.CCOL_RING_CONS_CONS) % 2 ^ 32

/-- Where line `i` of a sweep goes in the ring. -/
abbrev State.sweepAt (s : State) (i : Nat) : Nat :=
  s.get R.CCOL_RING_BASE_BASE * 4096 + (s.get R.CCOL_RING_PROD_PROD + 64 * i) % 2 ^ s.get R.CCOL_RING_SIZE_LOG2_BYTES

/-- The sweep that is taken at `b` in state `u`: `bs` are its bytes, and `n` its lines (spec/18 R410). -/
abbrev State.Sweeps (s : State) (b : Nat) (u : State) (bs : List Nat) (n : Nat) : Prop :=
  s.get R.CCOL_CTL_SWEEP_ENABLE = 1 ∧ b = s.boundary ∧ u = s.elapseTo b ∧ bs = (u.sweepBytes b).1 ∧ n = bs.length / 64

/-- The packets sent on an ingress, oldest first. -/
def State.sentOn (s : State) (g : Ingress) : List Pkt := match g with | .msl => s.tvx.mslOut | .mbox => s.tvx.mboxQ

/-- A COMMAND whose version is known reaches an ingress while no long operation runs, and does not act when it is received
(spec/15 R348, R352, R355). -/
abbrev State.Meets (s : State) (k : Pkt) : Prop :=
  1 ≤ k.version ∧ k.version ≤ 3 ∧ s.tvx.longOp = none ∧ (s.tvx.recovery = true ∨ opImmediate k.version k.opcode = false)

/-- Such a command finds its ingress not frozen, a place and its tag free, and the command at the executor's head is one that
the executor runs (spec/15 R341, R349, R351, R353). -/
abbrev State.Queues (s : State) (g : Ingress) (k : Pkt) : Prop :=
  s.Meets k ∧ (s.ing g).frozen = false ∧ (s.queuedOf g).length < 32 ∧ s.tagBusy g k.tag = false ∧
  ((s.tvx.queue ++ [({ ing := g, pkt := k } : QCmd)]).head?.all (fun c => opRuns s.tvx.recovery c.pkt.version c.pkt.opcode)) = true

/-- Of Thoiviyx's state, only the queue and what belongs to one ingress may differ. -/
abbrev State.OnlyIng (s : State) (g : Ingress) (t : State) : Prop :=
  t.tvx = (match g with
    | .msl => { s.tvx with queue := t.tvx.queue, msl := t.tvx.msl, mslOut := t.tvx.mslOut }
    | .mbox => { s.tvx with queue := t.tvx.queue, mbox := t.tvx.mbox, mboxQ := t.tvx.mboxQ })

/-- The command at the executor's head, `c`, ends with a status that freezes its ingress: it is answered, every command of the
ingress behind it (`q` holds all behind it) completes QUEUE_FROZEN, and the ingress keeps what GET_ERROR_LOG answers (spec/15
R350, R351). The rest of the queue is as it was. -/
abbrev State.Freezes (s : State) (c : QCmd) (q : List QCmd) (st aux : Nat) (t : State) : Prop :=
  s.OnlyIng c.ing t ∧ t.tvx.queue = q.filter (fun x => x.ing != c.ing) ∧
  t.ing c.ing = { s.ing c.ing with
    frozen := true, errRead := false, errLog := some (c.pkt.tag, c.pkt.opcode, st, aux),
    errTags := (q.filter (fun x => x.ing == c.ing)).map (fun x => x.pkt.tag), stored := (t.ing c.ing).stored } ∧
  t.sentOn c.ing = s.sentOn c.ing ++ [rspPkt c.pkt st aux []] ++
    (q.filter (fun x => x.ing == c.ing)).map (fun x => rspPkt x.pkt stFROZEN 0 []) ∧
  (q.all (fun x => x.ing != c.ing || x.pkt.tag != c.pkt.tag) = true →
    Tbl.get (fun _ => none) (t.ing c.ing).stored c.pkt.tag = some (rspPkt c.pkt st aux []))

/-- A list of commands begins with one that the executor runs, or is empty. -/
abbrev State.headRuns (s : State) (q : List QCmd) : Bool :=
  q.head?.all (fun c => opRuns s.tvx.recovery c.pkt.version c.pkt.opcode)

/-- The oldest immediate command of an ingress is `k`, with opcode `op`, and TVX_MAIN runs; `q` wait behind it (spec/15
R352, R354). -/
abbrev State.Serves (s : State) (g : Ingress) (op : Nat) (k : Pkt) (q : List Pkt) : Prop :=
  (s.ing g).imm = k :: q ∧ k.opcode = op ∧ s.tvx.running = true ∧ ¬ (k.version = 1 ∧ k.param ≠ 0)

/-- Command `c` is at the executor's head with opcode `op`, and `q` wait behind it; its data-out phase is over and its
arguments are there (spec/15 R348, R351, R354). The next command is one that the executor runs. -/
abbrev State.Executes (s : State) (c : QCmd) (q : List QCmd) (op need : Nat) : Prop :=
  s.headCmd op = some c ∧ s.tvx.queue = c :: q ∧ s.headRuns q = true ∧ (c.pkt.version = 1 → c.pkt.param = 0) ∧
  c.pkt.param ≤ c.data.length ∧ need ≤ c.pkt.data.length

/-- Command `c` has left the queue, where `q` stay, with the status OK and a payload; its response is sent, and is stored for
QUERY_TAG (spec/15 R350, R353). Nothing else of Thoiviyx differs from `u`, which has the command's own effect on `s`. -/
abbrev State.Answered (u : State) (c : QCmd) (q : List QCmd) (pay : List Nat) (t : State) : Prop :=
  t.tvx = { ((u.setIng c.ing { u.ing c.ing with
      stored := Tbl.set (fun _ => none) (u.ing c.ing).stored c.pkt.tag (some (rspPkt c.pkt stOK 0 pay)) }).sendPkt c.ing
    (rspPkt c.pkt stOK 0 pay)).tvx with queue := q }

/-- The head command `c` asks for the next block of its data-out phase with XFER_READY (spec/15 R354). -/
abbrev State.AsksNext (s : State) (c : QCmd) (q : List QCmd) (t : State) : Prop :=
  let r : Pkt := { version := c.pkt.version, typ := 2, tag := c.pkt.tag, opcode := c.pkt.opcode, length := 0,
                   aux := min 4096 (c.pkt.param - c.data.length), param := c.data.length }
  t.tvx = { (s.sendPkt c.ing r).tvx with queue := { c with xfer := true } :: q }

/-- A field of a command's argument bytes. -/
abbrev QCmd.arg (c : QCmd) (i n : Nat) : Nat := field c.pkt.data i n

/-- The rows that the executor runs as queued commands: the command, its opcode, its argument bytes, and whether it is refused
on the MBOX and whether it needs the flash (spec/15 R349, spec/19 R427). -/
def queuedRows : List (Instr × Nat × Nat × Bool × Bool) :=
  [(.getInfo, opGET_INFO, 0, false, false), (.queueFlush, opQUEUE_FLUSH, 0, false, false),
   (.eventEnable, opEVENT_ENABLE, 1, false, false), (.getSensors, opGET_SENSORS, 5, false, false),
   (.getHealth, opGET_HEALTH, 1, false, false), (.readEventLog, opREAD_EVENT_LOG, 10, false, true),
   (.readSanitiseJournal, opREAD_JOURNAL, 6, false, true), (.settingsGet, opSETTINGS_GET, 2, false, true),
   (.settingsSet, opSETTINGS_SET, 2, false, true), (.clearRetirement, opCLEAR_RETIREMENT, 4, false, true),
   (.meterKeySet, opKEY_SET, 33, true, true), (.meterKeyActivate, opKEY_ACTIVATE, 1, true, true),
   (.meterKeyClear, opKEY_CLEAR, 1, true, true), (.meterKeyQuery, opKEY_QUERY, 0, true, true),
   (.stageBlock, opSTAGE_BLOCK, 8, false, true), (.stageStatus, opSTAGE_STATUS, 0, false, true),
   (.packageReset, opPACKAGE_RESET, 1, false, false), (.hostAreaWrite, opHOST_WRITE, 4, false, true),
   (.hostAreaRead, opHOST_READ, 6, false, true)]

/-- An activation stands in a phase, and nothing has failed (spec/16 R372, R374). -/
abbrev State.Activates (s : State) (a : Act) (ph : ActPh) : Prop :=
  s.tvx.act = some a ∧ a.ph = ph ∧ a.fail = none

/-- The slot directory record in force is `d`, one newer than before (spec/16 R369). -/
abbrev State.Recorded16 (s : State) (d : DirRec) (t : State) : Prop := t.dir = { d with seq := s.dir.seq + 1 }

/-- The record that an activation's failure writes: the target slot REJECTED, nothing pending (spec/16 R374). -/
abbrev State.rejected (s : State) (a : Act) : DirRec :=
  { s.dir.slot a.target slotREJECTED (s.dir.setId a.target) with pending := 0xFF }

/-- ACTIVATE_BUNDLE `c` has begun: the commands `q` behind it have completed ABORTED_ACTIVATION in their order (spec/15 R355). -/
abbrev State.Begun (s : State) (c : QCmd) (q : List QCmd) : State :=
  q.foldl (fun (u : State) x => u.complete x stABORTED_ACTIVATION)
    ({ s with tvx := { s.tvx with queue := [], longOp := some { cmd := c, start := s.pwr.now } } } : State)

/-- The long operation `c` ends at once with a status that freezes its ingress: everything behind it has been answered with
`behind`, and LONG_OP_DONE is logged, or held while the flash is lent (spec/15 R351, R355, R359). -/
abbrev State.EndsAtOnce (s : State) (c : QCmd) (q : List QCmd) (behind st : Nat) (pay : List Nat) (t : State) : Prop :=
  t.tvx.queue = [] ∧ t.tvx.longOp = none ∧ (t.ing c.ing).frozen = true ∧
  Tbl.get (fun _ => none) (t.ing c.ing).stored c.pkt.tag =
    some (rspPkt c.pkt st (((t.ing c.ing).errLog.map (fun e => e.2.2.2)).getD 0) pay) ∧
  (t.ing c.ing).errLog = some (c.pkt.tag, c.pkt.opcode, st, ((t.ing c.ing).errLog.map (fun e => e.2.2.2)).getD 0) ∧
  (q.all (fun x => (t.sentOn x.ing).any (fun p => p.typ == 1 && p.tag == x.pkt.tag && p.status == behind))) = true ∧
  (s.tvx.flashGranted = false ∧ s.tvx.running = true → t.tvx.log.head?.map (fun e => (e.code, e.sev)) = some (0x71, sevINFO))

/-- The rows that start a long operation: the command, its opcode and its argument bytes (spec/15 R349, R355). -/
def longRows : List (Instr × Nat × Nat) :=
  [(.activateBundle, opACTIVATE, 0), (.sanitiseRange, opSANITISE_RANGE, 16), (.formatRange, opFORMAT_RANGE, 16),
   (.sanitiseDevice, opSANITISE_DEVICE, 0), (.dieOffline, opDIE_OFFLINE, 1), (.dieOnline, opDIE_ONLINE, 1)]

/-- A component's revision range as the registers of its ports show it (spec/06 R161, spec/10 R250). -/
def rangeFields (k : Nat) : List FRef :=
  if k = ucPASS then (List.range 24).flatMap (fun p => (List.range 2).flatMap (fun e =>
    [R.PASS_TRAIN_INFO_REV_MIN e p, R.PASS_TRAIN_INFO_REV_MAX e p]))
  else if k = ucHZN then (List.range 8).flatMap (fun p => [R.HZN_TRAIN_INFO_REV_MIN p, R.HZN_TRAIN_INFO_REV_MAX p])
  else []

/-- The registers that show whether PWR_UC and XCE_UC run. -/
abbrev ucFields : List FRef := [R.PWR_STATUS_UC_RUNNING, R.XCE_STATUS_UC_RUNNING]

/-- Component `k` is being restarted, as PWR_STATUS and XCE_STATUS show. -/
abbrev State.Down (t : State) (k : Nat) : Prop :=
  (k = ucPWR → t.get R.PWR_STATUS_UC_RUNNING = 0) ∧ (k = ucXCE → t.get R.XCE_STATUS_UC_RUNNING = 0)

/-- Component `k` runs the image of `slot`: GET_INFO's version, PWR_STATUS, and the range that the ports show. -/
abbrev State.Up (s : State) (k slot : Nat) (t : State) : Prop :=
  t.version k = entryVersion (s.slotBytes slot) k ∧ (k = ucPWR → t.get R.PWR_STATUS_UC_RUNNING = 1) ∧
  (k = ucXCE → t.get R.XCE_STATUS_UC_RUNNING = 1) ∧
  (rangeFields k).map (fun f => t.get f) =
    (List.range ((rangeFields k).length / 2)).flatMap (fun _ =>
      [(imageRange k (entryVersion (s.slotBytes slot) k)).1, (imageRange k (entryVersion (s.slotBytes slot) k)).2])

/-- The phases in which an activation waits for a component to be ready. -/
def ActPh.waits : ActPh → Bool
  | .comp _ | .back _ => true
  | _ => false

/-- The copy of the staged bundle begins: the target slot is recorded COPYING and holds nothing (spec/16 R372). -/
abbrev State.CopyBegins (s : State) (c : QCmd) (q : List QCmd) (t : State) : Prop :=
  t.tvx = { (s.Begun c q).tvx with
    act := some { ph := .copy, target := s.target, setId := bundleSetId s.stageBytes }, dir0 := t.tvx.dir0, dir1 := t.tvx.dir1,
    slotA := if s.target = 0 then [] else s.tvx.slotA, slotB := if s.target = 0 then s.tvx.slotB else [],
    erasing := false, prepared := false } ∧
  s.Recorded16 (s.dir.slot s.target slotCOPYING (bundleSetId s.stageBytes)) t ∧ t.regs = s.regs

/-- The staged bundle fails its check `e`, the first that fails with the component concerned: the target slot is REJECTED
(spec/16 R367, R372, R377). -/
abbrev State.StageRefused (s : State) (c : QCmd) (q : List QCmd) (e : Nat × Nat) (t : State) : Prop :=
  s.EndsAtOnce c q stABORTED_ACTIVATION (actStatus 1 e.1)
    (actPay 1 e.2 e.1 (if e.1 = 1 then 0 else bundleSetId s.stageBytes)) t ∧
  s.Recorded16 { s.dir.slot s.target slotREJECTED (s.dir.setId s.target) with pending := 0xFF } t ∧ t.tvx.act = s.tvx.act ∧
  t.tvx.slotA = s.tvx.slotA ∧ t.tvx.slotB = s.tvx.slotB ∧ t.tvx.stage = s.tvx.stage

/-- TVX_MAIN runs from `slot` (spec/16 R380). -/
abbrev State.Boots (s : State) (slot : Nat) (t : State) : Prop :=
  t.tvx.running = true ∧ t.tvx.recovery = false ∧ t.tvx.runs = slot ∧ t.version 1 = entryVersion (s.slotBytes slot) 1

/-- The boot ROM finds no directory record: the slots that verify are recorded COMPLETE, and the one with the higher SET_ID, slot
A among equals, is ACTIVE (spec/16 R380). -/
abbrev State.pickSlot (s : State) : Nat :=
  if s.slotOk 0 true = false ∨ (s.slotOk 1 true = true ∧ bundleSetId s.tvx.slotA < bundleSetId s.tvx.slotB) then 1 else 0

@[inherit_doc State.pickSlot] abbrev State.foundDir (s : State) : DirRec :=
  { active := s.pickSlot, seq := s.dir.seq + 1, stA := if s.slotOk 0 true then slotCOMPLETE else 0,
    idA := if s.slotOk 0 true then bundleSetId s.tvx.slotA else 0, stB := if s.slotOk 1 true then slotCOMPLETE else 0,
    idB := if s.slotOk 1 true then bundleSetId s.tvx.slotB else 0 }

/-- The ACTIVE slot does not verify and the other does: it is REJECTED and the other is ACTIVE (spec/16 R380). -/
abbrev State.swappedDir (s : State) : DirRec :=
  { s.dir.slot s.dir.active slotREJECTED (s.dir.setId s.dir.active) with
    active := 1 - s.dir.active, pending := 0xFF, seq := s.dir.seq + 1 }

/-- Thoiviyx restarts with cause `k` (spec/15 R342): commands and data-out phases are gone, the ingresses are at their start,
and an activation in progress, where nothing has failed yet, has failed where it stands with REASON 12 (spec/16 R375). The log,
the long operation and every other part is as in `u`. -/
abbrev State.TvxResets (u : State) (k : Cause) (t : State) : Prop :=
  t.tvx = { u.tvx with
    running := false, recovery := false, queue := [], msl := {}, mbox := {}, cause := k,
    act := u.tvx.act.map (fun a =>
      if a.fail.isSome then a else { a with fail := some (a.ph.place.1, a.ph.place.2, 12) }) }

/-- Long operation `c` has started: what waited behind it, `q`, has been answered BUSY and the responses are stored; nothing
else of Thoiviyx differs from `u` (spec/15 R353, R355). -/
abbrev State.Starts (u : State) (c : QCmd) (q : List QCmd) (t : State) : Prop :=
  t.tvx = { u.tvx with
    queue := [], longOp := some { cmd := c, start := u.pwr.now }, msl := { u.tvx.msl with stored := t.tvx.msl.stored },
    mbox := { u.tvx.mbox with stored := t.tvx.mbox.stored }, mslOut := t.tvx.mslOut, mboxQ := t.tvx.mboxQ } ∧
  [Ingress.msl, .mbox].all (fun g =>
    (t.sentOn g).take (u.sentOn g).length == u.sentOn g &&
    ((t.sentOn g).drop (u.sentOn g).length).map (fun p => (p.typ, p.tag, p.status)) ==
      (q.filter (fun x => x.ing == g)).map (fun x => (1, x.pkt.tag, stBUSY))) = true

/-- The long operation `l` has ended with its status: what LONG_OP_DONE says (spec/15 R355, R359). -/
abbrev LongOp.doneDetail (l : LongOp) (st : Nat) : Nat :=
  ofBytes (leBytes 2 l.cmd.pkt.opcode ++ leBytes 1 l.cmd.pkt.tag ++ leBytes 1 (ingNum l.cmd.ing) ++ leBytes 2 st)

/-- The hot dies that have not come below their Release limit at an evaluation (spec/17 R388). -/
abbrev State.stillHot (s : State) (temp : List Int) : Nat :=
  foldN 17 s.pwr.hot (fun d m => if temp.getD d 0 < limitRelease d then setBits m d 1 0 else m)

/-- Does a core of an online die ask for more than its ceiling? -/
abbrev State.someLimited (s : State) : Bool :=
  (List.range 384).any (fun h => s.dieOnline (h / 32) && s.get (R.CORE_FREQ_CUR_LIMITED h) == 1)

/-- A core heads for the lower of its request and its ceiling: it is there, or slews towards it (spec/02 R53, R54). -/
abbrev State.Heads (t : State) (h : Nat) : Prop :=
  ((t.hart h).target).getD (t.get (R.CORE_FREQ_CUR_STEP h)) = t.freqAim h

/-- What PWR_UC asks of a Mesa slice in CENTRAL, by the sensor of its Mesa die, and the level that the slice then has: no lower
than its own comparators ask, and 3 in an emergency of the die that has not come to its release (spec/17 R388, R389). -/
abbrev State.asked (s : State) (n : Nat) (x : Int) : Nat :=
  if s.get R.PWR_CTL_STACK_MODE = 1 then throttleAt s.centralEntry (Tbl.get (fun _ => 0) s.pwr.central n) x else 0

@[inherit_doc State.asked] abbrev State.levelThen (s : State) (n : Nat) (temp : List Int) : Nat :=
  max (s.asked n (temp.getD (13 + n / 4) 0))
    (if (s.stillHot temp).testBit (13 + n / 4) then 3 else Tbl.get (fun _ => 0) s.pwr.floor n)

/-- A POR of the package (spec/17 R396, R397, R401): of Thoiviyx, what is in flash, the ageing and lane readings, and what the
board drives; of the meter, the keys; of the channels, the sanitise journal. A long operation is known afterwards where the
slot directory names a pending slot (spec/16 R380). -/
abbrev State.PorLeaves (s : State) (up : Bool) (t : State) : Prop :=
  let x := s.tvx
  t.tvx = { alive := up, log := x.log, nextSeq := x.nextSeq, flashReq := x.flashReq, smallFlash := x.smallFlash, dir0 := x.dir0,
            dir1 := x.dir1, slotA := x.slotA, slotB := x.slotB, stageLen := x.stageLen, stage := x.stage, set0 := x.set0,
            set1 := x.set1, recs := x.recs, host := x.host, ages := x.ages, lanes := x.lanes, warned := x.warned,
            longOp := if s.dir.pending = 0xFF then none else x.longOp } ∧
  t.meter = { mflags := flagPARTIAL, keys := s.meter.keys, active := s.meter.active, next := s.meter.next } ∧
  t.chan = { journal := s.chan.journal, jNext := s.chan.jNext } ∧ t.free = s.free

/-- A POR of the host side alone: Thoiviyx goes on, with the microcontrollers and MEM_TRAIN loaded again (spec/17 R397). -/
abbrev State.HostPorLeaves (s t : State) : Prop :=
  t.tvx = { s.tvx with vers := t.tvx.vers } ∧
  (∀ k : Fin 7, t.version k = if 2 ≤ k.val then entryVersion (s.slotBytes (s.compSlot k)) k else s.version k) ∧
  t.meter = { mflags := flagPARTIAL, keys := s.meter.keys, active := s.meter.active, next := s.meter.next } ∧
  t.chan = { journal := s.chan.journal, jNext := s.chan.jNext } ∧ t.free = s.free

/-- No memory, message, lookup, walk or request of the host side is left, as a POR leaves it (spec/17 R397). -/
abbrev State.Emptied (t : State) : Prop :=
  t.mem = [] ∧ t.marked = [] ∧ t.net = [] ∧ t.core = {} ∧ t.die = {} ∧ t.home = {} ∧
  t.pass = {} ∧ t.mesa = {} ∧ t.qos = {} ∧ t.hzn = {} ∧ t.xce = {} ∧ t.io = {} ∧ t.ras = {} ∧ t.ccol = {}

/-- So is the host side, and every register reads its reset value. -/
abbrev State.Cleared (t : State) : Prop := t.regs = [] ∧ t.Emptied

/-- So is the host side, and every register reads its reset value but those that show the revision ranges of the images
loaded again. -/
abbrev State.Ranged (s t : State) : Prop :=
  t.Emptied ∧ (t.regs.all (fun e => (rangeFields ucPASS ++ rangeFields ucHZN).any (fun f => f.addr == e.1))) = true ∧
  [ucPASS, ucHZN].all (fun k => (rangeFields k).zipIdx.all (fun e => t.get e.1 ==
    (if e.2 % 2 = 0 then (imageRange k (entryVersion (s.slotBytes (s.compSlot k)) k)).1
     else (imageRange k (entryVersion (s.slotBytes (s.compSlot k)) k)).2))) = true

/-- The cells of a block that are inverted when the patrol reads it: those that upsets have left, and `bad` (spec/14 R324, R333). -/
abbrev State.badCells (s : State) (x : ArrLoc) (bad : List (Nat × Nat)) : List (Nat × Nat) :=
  (s.flaw x ++ bad).filter (gridOf x).stored

/-- What a read finds of a block with those cells inverted (spec/14 R325). -/
abbrev State.finds (s : State) (x : ArrLoc) (bad : List (Nat × Nat)) : Found :=
  (gridOf x).decode ((gridOf x).syndromes (s.arrMarked x) (s.badCells x bad))

/-- No copy of data, entry or tag of an array changes. -/
abbrev State.SameArrays (s t : State) : Prop :=
  (∀ h set w : Nat, t.l1i h set w = s.l1i h set w ∧ t.l1d h set w = s.l1d h set w ∧ t.l2 h set w = s.l2 h set w) ∧
  (∀ d b set w : Nat, t.vc d b set w = s.vc d b set w ∧ t.sf d b set w = s.sf d b set w) ∧
  (∀ n set w : Nat, t.dirE n set w = s.dirE n set w ∧ t.rptE n set w = s.rptE n set w ∧ t.rldE n set w = s.rldE n set w ∧
    t.sec n set w = s.sec n set w ∧ t.plru n set = s.plru n set) ∧
  (∀ l : Nat, t.mesaLine l = s.mesaLine l)

/-- The bucket of a block is charged for an error, and the fault does not become permanent (spec/14 R335); one of a resource that
is retired counts no more. -/
abbrev State.Charged (s : State) (x : ArrLoc) (unc : Bool) (t : State) : Prop :=
  t.bucket (bucketOf x).1 (bucketOf x).2 = (if s.retiredArr x = true then s.bucket (bucketOf x).1 (bucketOf x).2
    else (s.charge (bucketOf x).1 (bucketOf x).2 unc).1.bucket (bucketOf x).1 (bucketOf x).2)

@[inherit_doc State.Charged] abbrev State.bears (s : State) (x : ArrLoc) (unc : Bool) : Bool :=
  s.retiredArr x || !(s.charge (bucketOf x).1 (bucketOf x).2 unc).2

/-- The error of a block is recorded in its bank with its line, way, class and syndromes (spec/14 R329, R330, R338). -/
abbrev State.ArrRecord (s : State) (x : ArrLoc) (sev : Nat) (bad : List (Nat × Nat)) (t : State) : Prop :=
  let p := s.arrPlace x
  let y := (gridOf x).syndromes (s.arrMarked x) (s.badCells x bad)
  s.Recorded p.1 ⟨true, sev, false, p.2.1 * 64 % 2 ^ 56, recInfo 0 0 0 s.pkgId (bucketOf x).1
      (t.bucket (bucketOf x).1 (bucketOf x).2).level p.2.2 % 2 ^ 64,
    (y.1 + y.2 <<< 17 + b2n (s.finds x bad == .marker) <<< 50) % 2 ^ 64, s.pwr.now⟩ t

/-- Another block's inverted cells stay; those of `x` are met. -/
abbrev State.Met (s : State) (x : ArrLoc) (t : State) : Prop := t.ras.flaws = s.ras.flaws.filter (fun e => e.1 != x)

/-- The Mesa slice whose corrected errors a block's count in. -/
def arrSlice : ArrLoc → Option Ix16
  | .mesaData n .. | .mesaTag n .. | .mesaPlru n _ | .mesaVictim n .. => some n
  | _ => none

/-- An array of the XCE, whose corrected errors PF0 reports too (spec/11 R282). -/
def arrIsXce : ArrLoc → Bool
  | .xce _ => true
  | _ => false

/-- The commands by which host software can write a reserved value whose write the spec calls a host-made error (spec/00 R8,
R9, log entry 2): register and configuration writes, the commit of a window, the number of VFs, and a CXL region put online. -/
def mayBeHostMade : Instr → Bool
  | .registerWrite _ _ | .regWrite _ _ | .hartStore _ _ _ | .ecamConfigAccess _ _ _ _ | .vfReady _ | .numvfsWrite _ | .xceWinCommit _ _
  | .cxlRegionOnline _ => true
  | _ => false

/-- The commands that may change what memory holds: a write or a drop of a copy at a home, a fill, a copy, a patrol or a
sanitise of a line, the loss of a die or a member, a register write that acts as one of these, and the resets. -/
def mayChangeMemory : Instr → Bool
  | .registerWrite _ _ | .hartLoad _ _ | .hartStore _ _ _ | .hartFetch _ _ | .hartAmo _ _ _ _ _ | .loadReserved _ _
  | .storeConditional _ _ _ | .prefetch _ _ _ _ | .cboClean _ _ | .cboFlush _ _ | .cboInval _ _ | .cboZero _ _ | .dieL2Miss _
  | .l2Eviction _ _ | .valeCacheEviction _ _ | .rdShared _ | .rdOwn _ | .upgrade _ | .rdCur _ | .rdCurClean _ | .rdCurFlush _
  | .rdCurInval _ | .wrFullNc _ | .wrPartNc _ | .atomicNc _ | .dirWayWaitResume _ _ | .snpFwdShared _ | .snpFwdOwn _
  | .snpFwdCur _ | .snpInv _ | .snpAckMiss _ | .snpAckInv _ | .fwdDone _ | .fwdDoneWb _ | .compAckClose _ | .compAckCommit _
  | .compAckDone _ | .compAckReady _ | .retry _ | .creditGrant _ | .wbDirty _ | .wbAck _ | .wbAckStale _ | .err _ | .dataS _
  | .dataE _ | .dataM _ | .dataO _ | .proxyDieRequest _ | .proxyRemoteSnoop _ | .proxyDieWbDirty _ | .passPayloadFlit _ _ _
  | .laneCheck _ _ _ _ | .swapReq _ _ _ | .swapDone _ _ _ _ _ | .regWrite _ _ | .tsRxgood _ _ | .tsMap _ _ | .tsMapsum _ _
  | .tsOffer _ _ _ | .tsConfig _ _ _ | .passDetectDone _ _ _ | .passBitLockDone _ _ _ | .passEqualiseDone _
  | .passLaneTestDone _ _ _ | .passTrainTimeout _ | .passFailGo _ _ _ | .passLaneLossOfLock _ _ _ | .memFillComplete _
  | .memoryReadData _ _ _ | .channelRetrainComplete _ | .channelRetrainTimeout _ | .copyLine _ _ | .copyComplete _
  | .dramPatrolLine _ _ | .bwEpoch _ | .extraBlockReturn _ _ _ | .lostNotice _ | .lossHoldExpiry _ | .leaveAckTimeout
  | .proxyCohFinalTimeout _ _ | .homeWaitTimeout _ _ | .cxlFillComplete _ _ | .onchipPatrolBlock _ _ | .sanitiseDevice
  | .packageReset | .vauxUp | .vauxDown | .pwrgoodRise | .hostImageCopyComplete | .pkgWarm | .jtagTestLogicReset
  | .flushWalkLine _ | .recallWalkEntry _ | .sanitiseLine _ | .bundleCopyComplete => true
  | _ => false

/-- The commands that are, or may start, a POR (spec/17 R396, R397, spec/16 R381, spec/19 R429). -/
def mayBePor : Instr → Bool
  | .vauxUp | .vauxDown | .pwrgoodRise | .jtagTestLogicReset | .bundleCopyComplete => true
  | _ => false

/-- The fields of a message that its class carries (spec/04 R92, spec/06 R147); the others are not in it. -/
def msgCarried (m : Msg) : Msg :=
  let h : Msg := { vc := m.vc, opc := m.opc, srcPkg := m.srcPkg, srcAgent := m.srcAgent, dstPkg := m.dstPkg, dstAgent := m.dstAgent,
                   txn := m.txn, addr := m.addr, data := if msgFull m then m.data else 0 }
  if m.vc = 1 then { h with htag := m.htag, reqPkg := m.reqPkg, reqAgent := m.reqAgent, reqTxn := m.reqTxn }
  else if m.vc = 2 then { h with htag := m.htag, newState := m.newState, status := m.status, cause := m.cause,
                                 tokenV := m.tokenV, token := m.token }
  else if m.vc = 3 then { h with htag := m.htag, payload := m.payload, poison := m.poison, dsrc := m.dsrc }
  else { h with rcid := m.rcid, mcid := m.mcid, cmo := m.cmo, ord := m.ord, tokenV := m.tokenV, token := m.token, aop := m.aop,
                asize := m.asize, aoff := m.aoff, poison := m.poison, byteMask := m.byteMask }

/-- The fields that a Pass flit's header carries (spec/06 R146). -/
def flitHead (f : Flit) : Flit := { f with msgs := [], ctype := 0, att := 0, err := [] }

/-- The fields that a window or island message's header carries (spec/10 R240, R242): one four-bit field is the atomic's
operation, the completion's status or the cause of a NAK. -/
def winHead (m : WMsg) : WMsg :=
  { m with data := [], rcid := 0, aop := if m.vc = 6 then m.aop else 0, cstatus := if m.vc = 7 then m.cstatus else 0,
           nakCause := if m.vc = 5 then m.nakCause else 0 }

/-- The fields that a Horizon frame's header carries (spec/10 R238), its credit report among them. -/
def frameHead (f : HFrame) : HFrame := { f with crs := f.crs.take 1, msgs := [], ctype := 0, att := 0, err := [] }

/-- What a Pass flit carries of a message. -/
def linkCarried : LinkMsg → LinkMsg
  | .ose m => .ose (msgCarried m)
  | .mgt m => .mgt m

end Sys2Proof.Machine

open Sys2Proof Sys2Proof.Machine

/-- The command of each row of spec/02 R55 in the state the row names, the die online: OFFLINE, unless RETIRE_PENDING asks
for RETIRE (R57), and RETIRE stop a core that is ONLINE and start the flush of its L2, the accesses in flight and the
caches as they are; RETIRE retires one that is OFFLINE, recorded in the settings store; ONLINE, with RETIRE_PENDING 0,
starts one that is OFFLINE with its L1s invalid; RESET, with RETIRE_PENDING 0, resets one that is ONLINE: what is in
flight and does not drain is discarded, the L1I is invalidated, and L1D and L2 keep their contents. In every other
state the command sets CMD_REJECTED alone. Where the die is offline the register ignores the write (spec/01 R35) and
nothing changes. -/
def Obligations.CoreCommands : Prop :=
  (∀ (d : Die) (c : Fin 32) (s : State), s.dieOnline d = true → s.coreState (hartOf d c) = coreONLINE →
    s.isPending (hartOf d c) = false → Completes (.coreOffline d c) s fun t =>
      t.coreState (hartOf d c) = coreSTOPPING ∧ t.get (R.VALE_CORE_STATUS_LAST_STOP_ERROR d c) = 0 ∧
      t.get (R.CORE_FREQ_CUR_SLEWING (hartOf d c)) = 0 ∧
      (s.flushing (.l2 (hartOf d c)) = true ∨ t.get (R.VALE_L2_STATUS_STATE d c) = 1) ∧
      t.hart (hartOf d c) = { s.hart (hartOf d c) with retire := false, target := none, ramp := 0, slew := 0 } ∧
      t.die = { s.die with
        walks := s.die.walks ++ (if s.flushing (.l2 (hartOf d c)) then [] else [⟨.l2 (hartOf d c), 0⟩]) } ∧
      t.core = { s.core with harts := t.core.harts } ∧ s.OnlyHart (hartOf d c) t ∧
      s.OnlyFields [R.VALE_CORE_STATUS_STATE d c, R.VALE_CORE_STATUS_LAST_STOP_ERROR d c, R.CORE_FREQ_CUR_SLEWING (hartOf d
        c), R.VALE_L2_STATUS_STATE d c] t ∧
      s.Only [.regs, .core, .die] t) ∧
  (∀ (d : Die) (c : Fin 32) (s : State), s.dieOnline d = true → s.coreState (hartOf d c) = coreONLINE →
    Completes (.coreRetire d c) s fun t =>
      t.coreState (hartOf d c) = coreSTOPPING ∧ t.get (R.VALE_CORE_STATUS_LAST_STOP_ERROR d c) = 0 ∧
      t.get (R.CORE_FREQ_CUR_SLEWING (hartOf d c)) = 0 ∧
      (s.flushing (.l2 (hartOf d c)) = true ∨ t.get (R.VALE_L2_STATUS_STATE d c) = 1) ∧
      t.hart (hartOf d c) = { s.hart (hartOf d c) with retire := true, target := none, ramp := 0, slew := 0 } ∧
      t.die = { s.die with
        walks := s.die.walks ++ (if s.flushing (.l2 (hartOf d c)) then [] else [⟨.l2 (hartOf d c), 0⟩]) } ∧
      t.core = { s.core with harts := t.core.harts } ∧ s.OnlyHart (hartOf d c) t ∧
      s.OnlyFields [R.VALE_CORE_STATUS_STATE d c, R.VALE_CORE_STATUS_LAST_STOP_ERROR d c, R.CORE_FREQ_CUR_SLEWING (hartOf d
        c), R.VALE_L2_STATUS_STATE d c] t ∧
      s.Only [.regs, .core, .die] t) ∧
  (∀ (d : Die) (c : Fin 32) (s : State), s.dieOnline d = true → s.coreState (hartOf d c) = coreOFFLINE →
    Completes (.coreRetire d c) s fun t =>
      t.coreState (hartOf d c) = coreRETIRED ∧ t.get (R.VALE_CORE_STATUS_RETIRE_PENDING d c) = 0 ∧
      t.tvx.recs.core.testBit (hartOf d c) = true ∧ t.tvx = (s.recCore (hartOf d c)).tvx ∧
      s.OnlyFields [R.VALE_CORE_STATUS_STATE d c, R.VALE_CORE_STATUS_RETIRE_PENDING d c] t ∧ s.Only [.regs, .tvx] t) ∧
  (∀ (d : Die) (c : Fin 32) (s : State), s.dieOnline d = true → s.coreState (hartOf d c) = coreOFFLINE →
    s.isPending (hartOf d c) = false → Completes (.coreOnline d c) s fun t =>
      t.coreState (hartOf d c) = coreSTARTING ∧ t.get (R.VALE_L2_STATUS_STATE d c) = 0 ∧
      (∀ (x : Nat), t.l1iWay (hartOf d c) x = none) ∧ (∀ (x : Nat), t.l1dWay (hartOf d c) x = none) ∧
      t.core = { s.core with l1i := t.core.l1i, l1d := t.core.l1d } ∧ s.OnlyHart (hartOf d c) t ∧
      s.OnlyFields [R.VALE_CORE_STATUS_STATE d c, R.VALE_L2_STATUS_STATE d c] t ∧ s.Only [.regs, .core] t) ∧
  (∀ (d : Die) (c : Fin 32) (s : State), s.dieOnline d = true → s.coreState (hartOf d c) = coreONLINE →
    s.isPending (hartOf d c) = false → Completes (.coreReset d c) s fun t =>
      t.coreState (hartOf d c) = coreRESETTING ∧
      t.hart (hartOf d c) = { s.hart (hartOf d c) with waits := (s.hart (hartOf d c)).waits.filter (fun w => w.kind.drains), mmio := none, held := none } ∧
      (∀ (x : Nat), t.l1iWay (hartOf d c) x = none) ∧ t.core = { s.core with harts := t.core.harts, l1i := t.core.l1i } ∧
      s.OnlyHart (hartOf d c) t ∧ s.OnlyFields [R.VALE_CORE_STATUS_STATE d c] t ∧ s.Only [.regs, .core] t) ∧
  (∀ (d : Die) (c : Fin 32) (s : State), s.dieOnline d = true →
    (s.coreState (hartOf d c) ≠ coreONLINE ∨ s.isPending (hartOf d c) = true) → Completes (.coreOffline d c) s fun t =>
      t.get (R.VALE_CORE_STATUS_CMD_REJECTED d c) = 1 ∧ s.OnlyFields [R.VALE_CORE_STATUS_CMD_REJECTED d c] t ∧
      s.Only [.regs] t) ∧
  (∀ (d : Die) (c : Fin 32) (s : State), s.dieOnline d = true →
    (s.coreState (hartOf d c) ≠ coreONLINE ∨ s.isPending (hartOf d c) = true) → Completes (.coreReset d c) s fun t =>
      t.get (R.VALE_CORE_STATUS_CMD_REJECTED d c) = 1 ∧ s.OnlyFields [R.VALE_CORE_STATUS_CMD_REJECTED d c] t ∧
      s.Only [.regs] t) ∧
  (∀ (d : Die) (c : Fin 32) (s : State), s.dieOnline d = true →
    (s.coreState (hartOf d c) ≠ coreOFFLINE ∨ s.isPending (hartOf d c) = true) → Completes (.coreOnline d c) s fun t =>
      t.get (R.VALE_CORE_STATUS_CMD_REJECTED d c) = 1 ∧ s.OnlyFields [R.VALE_CORE_STATUS_CMD_REJECTED d c] t ∧
      s.Only [.regs] t) ∧
  (∀ (d : Die) (c : Fin 32) (s : State), s.dieOnline d = true → s.coreState (hartOf d c) ≠ coreONLINE →
    s.coreState (hartOf d c) ≠ coreOFFLINE → Completes (.coreRetire d c) s fun t =>
      t.get (R.VALE_CORE_STATUS_CMD_REJECTED d c) = 1 ∧ s.OnlyFields [R.VALE_CORE_STATUS_CMD_REJECTED d c] t ∧
      s.Only [.regs] t) ∧
  (∀ (d : Die) (c : Fin 32) (s : State), s.dieOnline d = false → Completes (.coreOffline d c) s fun t =>
      t = s ∧ s.Only [] t) ∧
  (∀ (d : Die) (c : Fin 32) (s : State), s.dieOnline d = false → Completes (.coreRetire d c) s fun t =>
      t = s ∧ s.Only [] t) ∧
  (∀ (d : Die) (c : Fin 32) (s : State), s.dieOnline d = false → Completes (.coreOnline d c) s fun t =>
      t = s ∧ s.Only [] t) ∧
  (∀ (d : Die) (c : Fin 32) (s : State), s.dieOnline d = false → Completes (.coreReset d c) s fun t =>
      t = s ∧ s.Only [] t)

/-- What a core reaches (spec/02 R55, R56, R62): a stop that is complete leaves it RETIRED where the command asked for it
and OFFLINE otherwise, its PKG_CORE_ONLINE bit clear, with no reservation, no NMI held and nothing in its interrupt
files, and RETIRE_PENDING set where a logic error stopped it; a start and a reset that are complete leave it ONLINE at
VALE_CORE_RESET_PC, mtvec the same, with no reservation and no access waiting, its L1I empty, and the other CSRs, the
clock report apart, at their reset values, or STOPPING again where its die is going offline; a logic error of a core
that is ONLINE, RESETTING or STARTING is recorded and stops it with LAST_STOP_ERROR and RETIRE_PENDING set, and one of
a core that is STOPPING is recorded and sets LAST_STOP_ERROR. -/
def Obligations.CoreTransitions : Prop :=
  (∀ (h : Hart) (s : State), s.coreState h = coreSTOPPING → s.get (R.VALE_L2_STATUS_STATE (h / 32) (h % 32)) = 2 →
    (s.hart h).waits = [] → (s.dieCtl (h / 32)).phase ≠ 1 → Completes (.coreStopComplete h) s fun t =>
      t.coreState h = (if (s.hart h).retire then coreRETIRED else coreOFFLINE) ∧
      t.get (R.VALE_CORE_STATUS_RETIRE_PENDING (h / 32) (h % 32)) = (if (s.hart h).retire then 0 else if s.get
        (R.VALE_CORE_STATUS_LAST_STOP_ERROR (h / 32) (h % 32)) = 1 then 1 else s.get
        (R.VALE_CORE_STATUS_RETIRE_PENDING (h / 32) (h % 32))) ∧
      (t.get (R.PKG_CORE_ONLINE_ONLINE (h / 64))).testBit (h % 64) = false ∧
      (∀ f < 17, Tbl.get (fun _ => 0) t.io.imsic (h * 17 + f) = 0) ∧
      t.hart h = { s.hart h with resv := none, out := .idle, nmi := [], lcofi := false, held := none } ∧
      t.core = { s.core with harts := t.core.harts } ∧ s.OnlyHart h t ∧ t.io = { s.io with imsic := t.io.imsic } ∧
      (∀ (k : Nat), k / 17 ≠ h.val → Tbl.get (fun _ => 0) t.io.imsic k = Tbl.get (fun _ => 0) s.io.imsic k) ∧
      s.OnlyFields [R.VALE_CORE_STATUS_STATE (h / 32) (h % 32), R.VALE_CORE_STATUS_RETIRE_PENDING (h / 32) (h % 32),
        R.PKG_CORE_ONLINE_ONLINE (h / 64), R.MBOX_STATUS_EVENTS_LOST] t ∧
      s.Only [.regs, .core, .io, .tvx] t) ∧
  (∀ (h : Hart) (s : State), s.coreState h = coreSTOPPING → s.get (R.VALE_L2_STATUS_STATE (h / 32) (h % 32)) = 2 →
    (s.hart h).waits = [] → (s.dieCtl (h / 32)).phase = 1 → Completes (.coreStopComplete h) s fun t =>
      t.coreState h = (if (s.hart h).retire then coreRETIRED else coreOFFLINE) ∧
      t.get (R.VALE_CORE_STATUS_RETIRE_PENDING (h / 32) (h % 32)) = (if (s.hart h).retire then 0 else if s.get
        (R.VALE_CORE_STATUS_LAST_STOP_ERROR (h / 32) (h % 32)) = 1 then 1 else s.get
        (R.VALE_CORE_STATUS_RETIRE_PENDING (h / 32) (h % 32))) ∧
      (t.get (R.PKG_CORE_ONLINE_ONLINE (h / 64))).testBit (h % 64) = false ∧
      (∀ f < 17, Tbl.get (fun _ => 0) t.io.imsic (h * 17 + f) = 0) ∧
      t.hart h = { s.hart h with resv := none, out := .idle, nmi := [], lcofi := false, held := none } ∧
      t.core = { s.core with harts := t.core.harts } ∧ s.OnlyHart h t ∧ t.io = { s.io with imsic := t.io.imsic } ∧
      (∀ (k : Nat), k / 17 ≠ h.val → Tbl.get (fun _ => 0) t.io.imsic k = Tbl.get (fun _ => 0) s.io.imsic k) ∧
      ((List.range 32).all (fun c => t.coreState (h / 32 * 32 + c) == coreOFFLINE || t.coreState (h / 32 * 32 + c) ==
        coreRETIRED) = true → (t.dieCtl (h / 32)).phase = 2) ∧
      s.Only [.regs, .core, .io, .tvx, .die] t) ∧
  (∀ (h : Hart) (s : State), s.coreState h = coreSTARTING → (s.dieCtl (h / 32)).phase ≠ 1 → (s.dieCtl (h / 32)).phase ≠ 2 →
    Completes (.coreStartComplete h) s fun t =>
      t.coreState h = coreONLINE ∧ (t.get (R.PKG_CORE_ONLINE_ONLINE (h / 64))).testBit (h % 64) = true ∧
      t.reg (R.rpc h) = s.reg (R.rVALE_CORE_RESET_PC (h / 32) (h % 32)) ∧
      t.reg (R.rmtvec h) = s.reg (R.rVALE_CORE_RESET_PC (h / 32) (h % 32)) &&& ~~~(3 : Word) ∧
      (∀ (a : Nat), 2 ^ 40 + h.val * 0x1000 ≤ a → a < 2 ^ 40 + h.val * 0x1000 + 0x1000 → a ∉ [R.rpc h, R.rmtvec h,
        R.rCORE_FREQ_CUR h] → t.reg a = regReset a) ∧
      t.get (R.CORE_FREQ_CUR_STEP h) = min 64 (s.get (R.CORE_FREQ_CUR_CEILING h)) ∧
      t.hart h = { s.hart h with resv := none, waits := [], out := .idle, mmio := none, nmi := [], lcofi := false, held := none, mode := .m, scFails := 0, ramp := 0, slew := 0, target := none } ∧
      (∀ (x : Nat), t.l1iWay h x = none) ∧ t.core = { s.core with harts := t.core.harts, l1i := t.core.l1i } ∧
      s.OnlyHart h t ∧
      (∀ (a : Nat) (i : Nat), (a < 2 ^ 40 + h.val * 0x1000 ∨ 2 ^ 40 + h.val * 0x1000 + 0x1000 ≤ a) → (∀ f ∈
        [R.VALE_CORE_STATUS_STATE (h / 32) (h % 32), R.PKG_CORE_ONLINE_ONLINE (h / 64)], ¬ FRef.holds f a i) → (t.reg
        a).getLsbD i = (s.reg a).getLsbD i) ∧
      s.Only [.regs, .core] t) ∧
  (∀ (h : Hart) (s : State), s.coreState h = coreSTARTING → ((s.dieCtl (h / 32)).phase = 1 ∨ (s.dieCtl (h / 32)).phase = 2) →
    Completes (.coreStartComplete h) s fun t =>
      t.coreState h = coreSTOPPING ∧ (t.hart h).retire = false ∧
      t.reg (R.rpc h) = s.reg (R.rVALE_CORE_RESET_PC (h / 32) (h % 32)) ∧
      t.reg (R.rmtvec h) = s.reg (R.rVALE_CORE_RESET_PC (h / 32) (h % 32)) &&& ~~~(3 : Word) ∧
      (∀ (a : Nat), 2 ^ 40 + h.val * 0x1000 ≤ a → a < 2 ^ 40 + h.val * 0x1000 + 0x1000 → a ∉ [R.rpc h, R.rmtvec h,
        R.rCORE_FREQ_CUR h] → t.reg a = regReset a) ∧
      (∀ (x : Nat), t.l1iWay h x = none) ∧ t.core = { s.core with harts := t.core.harts, l1i := t.core.l1i } ∧
      s.OnlyHart h t ∧ s.Only [.regs, .core, .die] t) ∧
  (∀ (h : Hart) (s : State), s.coreState h = coreRESETTING → (s.hart h).waits = [] → (s.dieCtl (h / 32)).phase ≠ 1 →
    (s.dieCtl (h / 32)).phase ≠ 2 → Completes (.coreResetComplete h) s fun t =>
      t.coreState h = coreONLINE ∧ (t.get (R.PKG_CORE_ONLINE_ONLINE (h / 64))).testBit (h % 64) = true ∧
      t.reg (R.rpc h) = s.reg (R.rVALE_CORE_RESET_PC (h / 32) (h % 32)) ∧
      t.reg (R.rmtvec h) = s.reg (R.rVALE_CORE_RESET_PC (h / 32) (h % 32)) &&& ~~~(3 : Word) ∧
      (∀ (a : Nat), 2 ^ 40 + h.val * 0x1000 ≤ a → a < 2 ^ 40 + h.val * 0x1000 + 0x1000 → a ∉ [R.rpc h, R.rmtvec h,
        R.rCORE_FREQ_CUR h] → t.reg a = regReset a) ∧
      t.get (R.CORE_FREQ_CUR_STEP h) = s.get (R.CORE_FREQ_CUR_STEP h) ∧
      t.hart h = { s.hart h with resv := none, waits := [], out := .idle, mmio := none, nmi := [], lcofi := false, held := none, mode := .m, scFails := 0, ramp := (t.hart h).ramp, slew := (s.hart h).slew, target := (t.hart h).target } ∧
      (∀ (x : Nat), t.l1iWay h x = none) ∧ t.core = { s.core with harts := t.core.harts, l1i := t.core.l1i } ∧
      s.OnlyHart h t ∧
      (∀ (a : Nat) (i : Nat), (a < 2 ^ 40 + h.val * 0x1000 ∨ 2 ^ 40 + h.val * 0x1000 + 0x1000 ≤ a) → (∀ f ∈
        [R.VALE_CORE_STATUS_STATE (h / 32) (h % 32), R.PKG_CORE_ONLINE_ONLINE (h / 64)], ¬ FRef.holds f a i) → (t.reg
        a).getLsbD i = (s.reg a).getLsbD i) ∧
      s.Only [.regs, .core] t) ∧
  (∀ (h : Hart) (s : State), s.coreState h = coreRESETTING → (s.hart h).waits = [] →
    ((s.dieCtl (h / 32)).phase = 1 ∨ (s.dieCtl (h / 32)).phase = 2) → Completes (.coreResetComplete h) s fun t =>
      t.coreState h = coreSTOPPING ∧ (t.hart h).retire = false ∧
      t.reg (R.rpc h) = s.reg (R.rVALE_CORE_RESET_PC (h / 32) (h % 32)) ∧
      t.reg (R.rmtvec h) = s.reg (R.rVALE_CORE_RESET_PC (h / 32) (h % 32)) &&& ~~~(3 : Word) ∧
      (∀ (a : Nat), 2 ^ 40 + h.val * 0x1000 ≤ a → a < 2 ^ 40 + h.val * 0x1000 + 0x1000 → a ∉ [R.rpc h, R.rmtvec h,
        R.rCORE_FREQ_CUR h] → t.reg a = regReset a) ∧
      (∀ (x : Nat), t.l1iWay h x = none) ∧ t.core = { s.core with harts := t.core.harts, l1i := t.core.l1i } ∧
      s.OnlyHart h t ∧ s.Only [.regs, .core, .die] t) ∧
  (∀ (h : Hart) (s : State), (s.coreState h = coreONLINE ∨ s.coreState h = coreRESETTING) →
    Completes (.coreLogicError h) s fun t =>
      t.coreState h = coreSTOPPING ∧ t.get (R.VALE_CORE_STATUS_LAST_STOP_ERROR (h / 32) (h % 32)) = 1 ∧
      t.get (R.VALE_CORE_STATUS_RETIRE_PENDING (h / 32) (h % 32)) = 1 ∧ t.flushing (.l2 h) = true ∧
      t.hart h = { (s.errRecord (bankCore h) errUEC 0 (recInfo 0 0 (h / 32) s.pkgId) 0).hart h with waits := (s.hart h).waits.filter (fun w => w.kind.drains), mmio := none, held := none, retire := false, target := none, ramp := 0, slew := 0 } ∧
      t.errRec = (s.errRecord (bankCore h) errUEC 0 (recInfo 0 0 (h / 32) s.pkgId) 0).errRec ∧
      (s.errRecord (bankCore h) errUEC 0 (recInfo 0 0 (h / 32) s.pkgId) 0).OnlyHart h t ∧
      (s.errRecord (bankCore h) errUEC 0 (recInfo 0 0 (h / 32) s.pkgId) 0).OnlyFields [R.VALE_CORE_STATUS_STATE (h / 32) (h
        % 32), R.VALE_CORE_STATUS_LAST_STOP_ERROR (h / 32) (h % 32), R.VALE_CORE_STATUS_RETIRE_PENDING (h / 32) (h %
        32), R.VALE_L2_STATUS_STATE (h / 32) (h % 32), R.CORE_FREQ_CUR_SLEWING h, R.MBOX_STATUS_EVENTS_LOST] t ∧
      s.Only [.regs, .free, .core, .die, .pass, .ras, .tvx] t) ∧
  (∀ (h : Hart) (s : State), s.coreState h = coreSTARTING → Completes (.coreLogicError h) s fun t =>
      t.coreState h = coreSTOPPING ∧ t.get (R.VALE_CORE_STATUS_LAST_STOP_ERROR (h / 32) (h % 32)) = 1 ∧
      t.get (R.VALE_CORE_STATUS_RETIRE_PENDING (h / 32) (h % 32)) = 1 ∧
      t.get (R.VALE_L2_STATUS_STATE (h / 32) (h % 32)) = 2 ∧
      t.hart h = { (s.errRecord (bankCore h) errUEC 0 (recInfo 0 0 (h / 32) s.pkgId) 0).hart h with retire := false, target := none, ramp := 0, slew := 0 } ∧
      t.errRec = (s.errRecord (bankCore h) errUEC 0 (recInfo 0 0 (h / 32) s.pkgId) 0).errRec ∧
      (s.errRecord (bankCore h) errUEC 0 (recInfo 0 0 (h / 32) s.pkgId) 0).OnlyHart h t ∧
      (s.errRecord (bankCore h) errUEC 0 (recInfo 0 0 (h / 32) s.pkgId) 0).OnlyFields [R.VALE_CORE_STATUS_STATE (h / 32) (h
        % 32), R.VALE_CORE_STATUS_LAST_STOP_ERROR (h / 32) (h % 32), R.VALE_CORE_STATUS_RETIRE_PENDING (h / 32) (h %
        32), R.VALE_L2_STATUS_STATE (h / 32) (h % 32), R.CORE_FREQ_CUR_SLEWING h, R.MBOX_STATUS_EVENTS_LOST] t ∧
      s.Only [.regs, .free, .core, .pass, .ras, .tvx] t) ∧
  (∀ (h : Hart) (s : State), s.coreState h = coreSTOPPING → Completes (.coreLogicError h) s fun t =>
      t.coreState h = coreSTOPPING ∧ t.get (R.VALE_CORE_STATUS_LAST_STOP_ERROR (h / 32) (h % 32)) = 1 ∧
      (s.errRecord (bankCore h) errUEC 0 (recInfo 0 0 (h / 32) s.pkgId) 0).Only [.regs] t ∧
      (s.errRecord (bankCore h) errUEC 0 (recInfo 0 0 (h / 32) s.pkgId) 0).OnlyFields [R.VALE_CORE_STATUS_LAST_STOP_ERROR (h
        / 32) (h % 32)] t ∧
      s.Only [.regs, .free, .core, .pass, .ras, .tvx] t)

/-- A write of srmcfg in M-mode, or in HS-mode where mstateen0 bit 55 is set, stores RCID and MCID and nothing else but
the count of the instruction; in the modes and with the bit that R46 names it raises the exception, srmcfg and the
count unchanged (spec/02 R46; the trap value is free, log entry 47); a write of CORE_FREQ_REQ in a mode that may
stores the requested step, at most 112 (R53), and heads for it where it is lower; a frequency change that is complete
sets STEP and clears SLEWING (R54); FENCE.I leaves no line in the L1I and no fetch outstanding (R43); the timer ends
the reservation and nothing else (R41). -/
def Obligations.CsrWrites : Prop :=
  (∀ (h : Hart) (v : Word) (s : State), s.coreUp h = true → Completes (.srmcfgWrite h .m v) s fun t =>
      t.reg (R.rsrmcfg h) = v &&& 0x03FF03FF ∧ t.reg (R.rminstret h) = s.reg (R.rminstret h) + 1 ∧
      s.OnlyRegs [R.rsrmcfg h, R.rminstret h] t ∧ s.Only [.regs] t) ∧
  (∀ (h : Hart) (v : Word) (s : State), s.coreUp h = true → (s.reg (R.rmstateen0 h)).toNat.testBit 55 = true →
    Completes (.srmcfgWrite h .hs v) s fun t =>
      t.reg (R.rsrmcfg h) = v &&& 0x03FF03FF ∧ t.reg (R.rminstret h) = s.reg (R.rminstret h) + 1 ∧
      s.OnlyRegs [R.rsrmcfg h, R.rminstret h] t ∧ s.Only [.regs] t) ∧
  (∀ (h : Hart) (p : Priv) (v : Word) (n : Nat) (s : State), s.coreUp h = true → s.csrCause h p 55 = some n →
    Completes (.srmcfgWrite h p v) s fun t =>
      (t.hart h).out = .trap n (Config.freeWord s.free).toNat none ∧ (t.hart h).resv = none ∧
      t.reg (R.rsrmcfg h) = s.reg (R.rsrmcfg h) ∧ t.reg (R.rminstret h) = s.reg (R.rminstret h) ∧
      t.core = { s.core with harts := t.core.harts } ∧ s.OnlyHart h t ∧ s.Only [.regs, .free, .core] t) ∧
  (∀ (h : Hart) (p : Priv) (v : Word) (s : State), s.coreUp h = true → s.csrCause h p 0 = none →
    Completes (.coreFreqReqWrite h p v) s fun t =>
      t.reg (R.rCORE_FREQ_REQ h) = BitVec.ofNat 64 (min (v.toNat % 128) 112) ∧
      t.reg (R.rminstret h) = s.reg (R.rminstret h) + 1 ∧ t.get (R.CORE_FREQ_CUR_STEP h) = s.get (R.CORE_FREQ_CUR_STEP h) ∧
      t.get (R.CORE_FREQ_CUR_CEILING h) = s.get (R.CORE_FREQ_CUR_CEILING h) ∧
      t.hart h = { s.hart h with target := (t.hart h).target, ramp := (t.hart h).ramp } ∧
      (min (min (v.toNat % 128) 112) (s.get (R.CORE_FREQ_CUR_CEILING h)) < s.get (R.CORE_FREQ_CUR_STEP h) → (t.hart
        h).target = some (min (min (v.toNat % 128) 112) (s.get (R.CORE_FREQ_CUR_CEILING h)))) ∧
      t.core = { s.core with harts := t.core.harts } ∧ s.OnlyHart h t ∧
      s.OnlyFields [FRef.all (R.rCORE_FREQ_REQ h), FRef.all (R.rminstret h), R.CORE_FREQ_CUR_LIMITED h,
        R.CORE_FREQ_CUR_SLEWING h] t ∧
      s.Only [.regs, .core] t) ∧
  (∀ (h : Hart) (n : Nat) (s : State), (s.hart h).target = some n → n < 128 → Completes (.freqChangeComplete h) s fun t =>
      t.get (R.CORE_FREQ_CUR_STEP h) = n ∧ t.get (R.CORE_FREQ_CUR_SLEWING h) = 0 ∧
      t.hart h = { s.hart h with target := none, ramp := 0, slew := 0 } ∧ t.core = { s.core with harts := t.core.harts } ∧
      s.OnlyHart h t ∧ s.OnlyFields [R.CORE_FREQ_CUR_STEP h, R.CORE_FREQ_CUR_SLEWING h] t ∧ s.Only [.regs, .core] t) ∧
  (∀ (h : Hart) (s : State), s.coreUp h = true → Completes (.fenceI h) s fun t =>
      (∀ (x : Nat), t.l1iWay h x = none) ∧ t.reg (R.rminstret h) = s.reg (R.rminstret h) + 1 ∧
      t.hart h = { s.hart h with waits := (s.hart h).waits.filter (fun w => !(w.kind == .fetch || w.kind == .prefetchI)) } ∧
      t.core = { s.core with harts := t.core.harts, l1i := t.core.l1i } ∧ s.OnlyHart h t ∧ s.OnlyRegs [R.rminstret h] t ∧
      s.Only [.regs, .core] t) ∧
  (∀ (h : Hart) (s : State), Completes (.reservationTimeout h) s fun t =>
      t.hart h = { s.hart h with resv := none } ∧ t.core = { s.core with harts := t.core.harts } ∧ s.OnlyHart h t ∧
      s.Only [.core] t)

/-- A way or slice that is in service and is disabled has its bit set and begins its flush, and one that is disabled
already has the bit set alone; one that is disabled, not retired and not being flushed returns to service when it is
enabled (spec/03 R76, R83); a flush that is over leaves its unit DISABLED (R76 step 4), the sixteenth L2 way of a core
with RETIRE_PENDING (R82); the walk empties the next entry of its unit (R77). Only the bit, field or walk of the unit
named changes. -/
def Obligations.FlushThenDisable : Prop :=
  (∀ (h : Hart) (w : Fin 16) (s : State), s.dieOnline (h / 32) = true →
    (s.get (R.VALE_L2_STATUS_WAYS_DISABLED (h / 32) (h % 32))).testBit w = false → Completes (.l2WayDisable h w) s fun t =>
      (t.get (R.VALE_L2_CTL_WAY_DISABLE (h / 32) (h % 32))).testBit w = true ∧
      (∀ i < 16, i ≠ w.val → (t.get (R.VALE_L2_CTL_WAY_DISABLE (h / 32) (h % 32))).testBit i = (s.get
        (R.VALE_L2_CTL_WAY_DISABLE (h / 32) (h % 32))).testBit i) ∧
      t.flushing (.l2Way h w) = true ∧
      t.die = { s.die with walks := s.die.walks ++ (if s.flushing (.l2Way h w) then [] else [⟨.l2Way h w, 0⟩]) } ∧
      s.OnlyFields [R.VALE_L2_CTL_WAY_DISABLE (h / 32) (h % 32), R.VALE_L2_STATUS_WAY_FLUSHING (h / 32) (h % 32)] t ∧
      s.Only [.regs, .die] t) ∧
  (∀ (h : Hart) (w : Fin 16) (s : State), s.dieOnline (h / 32) = true →
    (s.get (R.VALE_L2_STATUS_WAYS_DISABLED (h / 32) (h % 32))).testBit w = true → Completes (.l2WayDisable h w) s fun t =>
      (t.get (R.VALE_L2_CTL_WAY_DISABLE (h / 32) (h % 32))).testBit w = true ∧
      (∀ i < 16, i ≠ w.val → (t.get (R.VALE_L2_CTL_WAY_DISABLE (h / 32) (h % 32))).testBit i = (s.get
        (R.VALE_L2_CTL_WAY_DISABLE (h / 32) (h % 32))).testBit i) ∧
      s.OnlyFields [R.VALE_L2_CTL_WAY_DISABLE (h / 32) (h % 32)] t ∧ s.Only [.regs] t) ∧
  (∀ (h : Hart) (w : Fin 16) (s : State), s.dieOnline (h / 32) = true →
    (s.get (R.VALE_L2_STATUS_WAYS_RETIRED (h / 32) (h % 32))).testBit w = false → s.flushing (.l2Way h w) = false →
    Completes (.l2WayEnable h w) s fun t =>
      (t.get (R.VALE_L2_CTL_WAY_DISABLE (h / 32) (h % 32))).testBit w = false ∧
      (∀ i < 16, i ≠ w.val → (t.get (R.VALE_L2_CTL_WAY_DISABLE (h / 32) (h % 32))).testBit i = (s.get
        (R.VALE_L2_CTL_WAY_DISABLE (h / 32) (h % 32))).testBit i) ∧
      (t.get (R.VALE_L2_STATUS_WAYS_DISABLED (h / 32) (h % 32))).testBit w = false ∧
      (∀ i < 16, i ≠ w.val → (t.get (R.VALE_L2_STATUS_WAYS_DISABLED (h / 32) (h % 32))).testBit i = (s.get
        (R.VALE_L2_STATUS_WAYS_DISABLED (h / 32) (h % 32))).testBit i) ∧
      s.OnlyFields [R.VALE_L2_CTL_WAY_DISABLE (h / 32) (h % 32), R.VALE_L2_STATUS_WAYS_DISABLED (h / 32) (h % 32)] t ∧
      s.Only [.regs] t) ∧
  (∀ (d : Die) (sl w : Fin 16) (s : State), s.dieOnline d = true →
    (s.get (R.VALE_VC_STATUS_WAYS_DISABLED d sl)).testBit w = false → Completes (.vcWayDisable d sl w) s fun t =>
      (t.get (R.VALE_VC_CTL_WAY_DISABLE d sl)).testBit w = true ∧
      (∀ i < 16, i ≠ w.val → (t.get (R.VALE_VC_CTL_WAY_DISABLE d sl)).testBit i = (s.get (R.VALE_VC_CTL_WAY_DISABLE d
        sl)).testBit i) ∧
      t.flushing (.vcWay d sl w) = true ∧
      t.die = { s.die with walks := s.die.walks ++ (if s.flushing (.vcWay d sl w) then [] else [⟨.vcWay d sl w, 0⟩]) } ∧
      s.OnlyFields [R.VALE_VC_CTL_WAY_DISABLE d sl, R.VALE_VC_STATUS_WAY_FLUSHING d sl] t ∧ s.Only [.regs, .die] t) ∧
  (∀ (d : Die) (sl w : Fin 16) (s : State), s.dieOnline d = true →
    (s.get (R.VALE_VC_STATUS_WAYS_DISABLED d sl)).testBit w = true → Completes (.vcWayDisable d sl w) s fun t =>
      (t.get (R.VALE_VC_CTL_WAY_DISABLE d sl)).testBit w = true ∧
      (∀ i < 16, i ≠ w.val → (t.get (R.VALE_VC_CTL_WAY_DISABLE d sl)).testBit i = (s.get (R.VALE_VC_CTL_WAY_DISABLE d
        sl)).testBit i) ∧
      s.OnlyFields [R.VALE_VC_CTL_WAY_DISABLE d sl] t ∧ s.Only [.regs] t) ∧
  (∀ (d : Die) (sl w : Fin 16) (s : State), s.dieOnline d = true →
    (s.get (R.VALE_VC_STATUS_WAYS_RETIRED d sl)).testBit w = false → s.flushing (.vcWay d sl w) = false →
    Completes (.vcWayEnable d sl w) s fun t =>
      (t.get (R.VALE_VC_CTL_WAY_DISABLE d sl)).testBit w = false ∧
      (∀ i < 16, i ≠ w.val → (t.get (R.VALE_VC_CTL_WAY_DISABLE d sl)).testBit i = (s.get (R.VALE_VC_CTL_WAY_DISABLE d
        sl)).testBit i) ∧
      (t.get (R.VALE_VC_STATUS_WAYS_DISABLED d sl)).testBit w = false ∧
      (∀ i < 16, i ≠ w.val → (t.get (R.VALE_VC_STATUS_WAYS_DISABLED d sl)).testBit i = (s.get
        (R.VALE_VC_STATUS_WAYS_DISABLED d sl)).testBit i) ∧
      s.OnlyFields [R.VALE_VC_CTL_WAY_DISABLE d sl, R.VALE_VC_STATUS_WAYS_DISABLED d sl] t ∧ s.Only [.regs] t) ∧
  (∀ (d : Die) (sl : Fin 16) (s : State), s.dieOnline d = true → s.get (R.VALE_VC_STATUS_STATE d sl) = 0 →
    Completes (.vcSliceDisable d sl) s fun t =>
      t.get (R.VALE_VC_CTL_SLICE_DISABLE d sl) = 1 ∧ t.flushing (.vcSlice d sl) = true ∧
      (s.flushing (.vcSlice d sl) = true ∨ t.get (R.VALE_VC_STATUS_STATE d sl) = 1) ∧
      t.die = { s.die with walks := s.die.walks ++ (if s.flushing (.vcSlice d sl) then [] else [⟨.vcSlice d sl, 0⟩]) } ∧
      s.OnlyFields [R.VALE_VC_CTL_SLICE_DISABLE d sl, R.VALE_VC_STATUS_STATE d sl] t ∧ s.Only [.regs, .die] t) ∧
  (∀ (d : Die) (sl : Fin 16) (s : State), s.dieOnline d = true → s.get (R.VALE_VC_STATUS_STATE d sl) = 2 →
    (s.dieCtl d).phase ≠ 2 → Completes (.vcSliceEnable d sl) s fun t =>
      t.get (R.VALE_VC_CTL_SLICE_DISABLE d sl) = 0 ∧ t.get (R.VALE_VC_STATUS_STATE d sl) = 0 ∧
      s.OnlyFields [R.VALE_VC_CTL_SLICE_DISABLE d sl, R.VALE_VC_STATUS_STATE d sl] t ∧ s.Only [.regs] t) ∧
  (∀ (h : Hart) (s : State), s.flushOver (.l2 h) = true → Completes (.flushDisableComplete (.l2 h)) s fun t =>
      t.get (R.VALE_L2_STATUS_STATE (h / 32) (h % 32)) = 2 ∧ t.flushing (.l2 h) = false ∧
      t.die = { s.die with walks := s.die.walks.filter (fun v => v.u != .l2 h) } ∧
      s.OnlyFields [R.VALE_L2_STATUS_STATE (h / 32) (h % 32), R.VALE_L2_STATUS_WAY_FLUSHING (h / 32) (h % 32)] t ∧
      s.Only [.regs, .die] t) ∧
  (∀ (h : Hart) (w : Fin 16) (s : State), s.flushOver (.l2Way h w) = true →
    (s.get (R.VALE_L2_CTL_WAY_DISABLE (h / 32) (h % 32))).testBit w = true →
    Completes (.flushDisableComplete (.l2Way h w)) s fun t =>
      (t.get (R.VALE_L2_STATUS_WAYS_DISABLED (h / 32) (h % 32))).testBit w = true ∧
      (∀ i < 16, i ≠ w.val → (t.get (R.VALE_L2_STATUS_WAYS_DISABLED (h / 32) (h % 32))).testBit i = (s.get
        (R.VALE_L2_STATUS_WAYS_DISABLED (h / 32) (h % 32))).testBit i) ∧
      (popCount 16 (t.get (R.VALE_L2_STATUS_WAYS_DISABLED (h / 32) (h % 32))) = 16 → t.get
        (R.VALE_CORE_STATUS_RETIRE_PENDING (h / 32) (h % 32)) = 1) ∧
      t.flushing (.l2Way h w) = false ∧ t.die = { s.die with walks := s.die.walks.filter (fun v => v.u != .l2Way h w) } ∧
      s.OnlyFields [R.VALE_L2_STATUS_WAYS_DISABLED (h / 32) (h % 32), R.VALE_L2_STATUS_WAY_FLUSHING (h / 32) (h % 32),
        R.VALE_CORE_STATUS_RETIRE_PENDING (h / 32) (h % 32), R.MBOX_STATUS_EVENTS_LOST] t ∧
      s.Only [.regs, .die, .tvx] t) ∧
  (∀ (d : Die) (sl : Fin 16) (s : State), s.flushOver (.vcSlice d sl) = true → s.get (R.VALE_VC_CTL_SLICE_DISABLE d sl) = 1 →
    Completes (.flushDisableComplete (.vcSlice d sl)) s fun t =>
      t.get (R.VALE_VC_STATUS_STATE d sl) = 2 ∧ t.flushing (.vcSlice d sl) = false ∧
      t.die = { s.die with walks := s.die.walks.filter (fun v => v.u != .vcSlice d sl) } ∧
      s.OnlyFields [R.VALE_VC_STATUS_STATE d sl, R.VALE_VC_STATUS_WAY_FLUSHING d sl] t ∧ s.Only [.regs, .die] t) ∧
  (∀ (d : Die) (sl w : Fin 16) (s : State), s.flushOver (.vcWay d sl w) = true →
    (s.get (R.VALE_VC_CTL_WAY_DISABLE d sl)).testBit w = true → Completes (.flushDisableComplete (.vcWay d sl w)) s fun t =>
      (t.get (R.VALE_VC_STATUS_WAYS_DISABLED d sl)).testBit w = true ∧
      (∀ i < 16, i ≠ w.val → (t.get (R.VALE_VC_STATUS_WAYS_DISABLED d sl)).testBit i = (s.get
        (R.VALE_VC_STATUS_WAYS_DISABLED d sl)).testBit i) ∧
      t.flushing (.vcWay d sl w) = false ∧
      t.die = { s.die with walks := s.die.walks.filter (fun v => v.u != .vcWay d sl w) } ∧
      s.OnlyFields [R.VALE_VC_STATUS_WAYS_DISABLED d sl, R.VALE_VC_STATUS_WAY_FLUSHING d sl, R.MBOX_STATUS_EVENTS_LOST] t ∧
      s.Only [.regs, .die, .tvx] t) ∧
  (∀ (d : Die) (b : Fin 16) (w : Fin 24) (s : State), s.flushOver (.sfWay d b w) = true →
    Completes (.flushDisableComplete (.sfWay d b w)) s fun t =>
      t.flushing (.sfWay d b w) = false ∧
      t.die = { s.die with walks := s.die.walks.filter (fun v => v.u != .sfWay d b w) } ∧ s.OnlyFields [] t ∧
      s.Only [.die] t) ∧
  (∀ (d : Die) (sl : Fin 16) (ix : Nat) (s : State), s.ras.flaws = [] → s.flushing (.vcSlice d sl) = true →
    (s.flushLines (.vcSlice d sl)).head? = some ix → s.wbCount d < 256 →
    s.upgrading d (s.flushAt (.vcSlice d sl) ix) = false → Completes (.flushWalkLine (.vcSlice d sl)) s fun t =>
      (t.vc d sl (ix / 16) (ix % 16)).valid = false ∧
      s.Only [.regs, .mem, .marked, .net, .free, .core, .die, .home, .pass, .mesa, .meter, .qos, .xce, .io, .ras, .tvx] t)

/-- What an access of a hart to a line that its L2 holds does (spec/02 R39, R41, R43, R44), for a naturally aligned access
within one line: a load answers the bytes; a fetch that misses the L1I answers them and leaves the line in the L1I; a
store writes them; an atomic answers the old value and writes the new one; LOAD_RESERVED answers them and takes the
reservation of the line; STORE_CONDITIONAL with the reservation writes and answers 0, and without it answers 1 and
writes nothing; either way the reservation is gone. The line's L2 way alone changes, with the L1 of that hart, its
last outcome and mode, and its counters of instructions and events. -/
def Obligations.MemoryAccesses : Prop :=
  (∀ (h : Hart) (x : Access) (w : Nat) (s : State), s.Calm h → s.Hits h x w → Completes (.hartLoad h x) s fun t =>
      t.hart h = { s.hart h with nextId := (s.hart h).nextId + 1, mode := x.priv, lcofi := (t.hart h).lcofi, out := .value (lineField (s.cached h x w).data (x.ga % 64) x.size) } ∧
      t.cached h x w = { s.cached h x w with rrip := 0 } ∧
      t.reg (R.rminstret h) = s.reg (R.rminstret h) + (if x.walk then 0 else 1) ∧ s.OnlyWay h (x.ga / 64) w t ∧
      s.OnlyHart h t ∧ t.core.l1i = s.core.l1i ∧ s.OnlyFields (countFields h) t ∧ s.Only [.regs, .core] t) ∧
  (∀ (h : Hart) (x : Access) (w : Nat) (s : State), s.Calm h → s.Hits h x w → s.l1iWay h (x.ga / 64) = none →
    (s.reachFetch x.priv x.ga).isMem = true → (s.reachFetch x.priv (x.ga + x.size - 1)).isMem = true →
    Completes (.hartFetch h x) s fun t =>
      t.hart h = { s.hart h with nextId := (s.hart h).nextId + 1, mode := x.priv, lcofi := (t.hart h).lcofi, out := .value (lineField (s.cached h x w).data (x.ga % 64) x.size) } ∧
      t.cached h x w = { s.cached h x w with rrip := 0 } ∧ t.l1iWay h (x.ga / 64) ≠ none ∧
      t.reg (R.rminstret h) = s.reg (R.rminstret h) ∧ s.OnlyWay h (x.ga / 64) w t ∧ s.OnlyHart h t ∧
      t.core.l1d = s.core.l1d ∧ s.OnlyFields (countFields h) t ∧ s.Only [.regs, .core] t) ∧
  (∀ (h : Hart) (x : Access) (w : Nat) (v : Nat) (s : State), s.Calm h → s.Hits h x w → (s.cached h x w).st = .m →
    x.walk = false → Completes (.hartStore h x v) s fun t =>
      t.hart h = { s.hart h with nextId := (s.hart h).nextId + 1, mode := x.priv, lcofi := (t.hart h).lcofi, out := .done }
        ∧
      t.cached h x w = { s.cached h x w with st := .m, rrip := 0, data := lineSet (s.cached h x w).data (x.ga % 64) x.size (v % 2 ^ (8 * x.size)), bad := false } ∧
      t.reg (R.rminstret h) = s.reg (R.rminstret h) + 1 ∧ s.OnlyWay h (x.ga / 64) w t ∧ s.OnlyHart h t ∧
      t.core = { s.core with harts := t.core.harts, l2 := t.core.l2 } ∧ s.OnlyFields (countFields h) t ∧
      s.Only [.regs, .core] t) ∧
  (∀ (h : Hart) (x : Access) (w : Nat) (op v cmp : Nat) (s : State), s.Calm h → s.Hits h x w → (s.cached h x w).st = .m →
    x.walk = false → Completes (.hartAmo h x op v cmp) s fun t =>
      t.hart h = { s.hart h with nextId := (s.hart h).nextId + 1, mode := x.priv, lcofi := (t.hart h).lcofi, out := .value (lineField (s.cached h x w).data (x.ga % 64) x.size) } ∧
      t.cached h x w = { s.cached h x w with st := .m, rrip := 0, data := lineSet (s.cached h x w).data (x.ga % 64) x.size (atomicNew op (8 * x.size) (lineField (s.cached h x w).data (x.ga % 64) x.size) (v % 2 ^ (8 * x.size)) cmp), bad := false } ∧
      t.reg (R.rminstret h) = s.reg (R.rminstret h) + 1 ∧ s.OnlyWay h (x.ga / 64) w t ∧ s.OnlyHart h t ∧
      t.core = { s.core with harts := t.core.harts, l2 := t.core.l2 } ∧ s.OnlyFields (countFields h) t ∧
      s.Only [.regs, .core] t) ∧
  (∀ (h : Hart) (x : Access) (w : Nat) (s : State), s.Calm h → s.Hits h x w → x.walk = false →
    Completes (.loadReserved h x) s fun t =>
      t.hart h = { s.hart h with nextId := (s.hart h).nextId + 1, mode := x.priv, lcofi := (t.hart h).lcofi, out := .value (lineField (s.cached h x w).data (x.ga % 64) x.size), resv := some (x.ga / 64) } ∧
      t.cached h x w = { s.cached h x w with rrip := 0 } ∧ t.reg (R.rminstret h) = s.reg (R.rminstret h) + 1 ∧
      s.OnlyWay h (x.ga / 64) w t ∧ s.OnlyHart h t ∧ t.core.l1i = s.core.l1i ∧ s.OnlyFields (countFields h) t ∧
      s.Only [.regs, .core] t) ∧
  (∀ (h : Hart) (x : Access) (w : Nat) (v : Nat) (s : State), s.Calm h → s.Hits h x w → (s.cached h x w).st = .m →
    x.walk = false → (s.hart h).resv = some (x.ga / 64) → Completes (.storeConditional h x v) s fun t =>
      t.hart h = { s.hart h with nextId := (s.hart h).nextId + 1, mode := x.priv, lcofi := (t.hart h).lcofi, out := .value 0, resv := none, scFails := 0 } ∧
      t.cached h x w = { s.cached h x w with st := .m, rrip := 0, data := lineSet (s.cached h x w).data (x.ga % 64) x.size (v % 2 ^ (8 * x.size)), bad := false } ∧
      t.reg (R.rminstret h) = s.reg (R.rminstret h) + 1 ∧ s.OnlyWay h (x.ga / 64) w t ∧ s.OnlyHart h t ∧
      t.core = { s.core with harts := t.core.harts, l2 := t.core.l2 } ∧ s.OnlyFields (countFields h) t ∧
      s.Only [.regs, .core] t) ∧
  (∀ (h : Hart) (x : Access) (w : Nat) (v : Nat) (s : State), s.Calm h → s.Hits h x w → x.walk = false →
    (s.hart h).resv ≠ some (x.ga / 64) → Completes (.storeConditional h x v) s fun t =>
      t.hart h = { s.hart h with mode := x.priv, lcofi := (t.hart h).lcofi, out := .value 1, resv := none, scFails := (s.hart h).scFails + 1 } ∧
      t.reg (R.rminstret h) = s.reg (R.rminstret h) + 1 ∧ s.OnlyHart h t ∧ t.core = { s.core with harts := t.core.harts } ∧
      s.OnlyFields (countFields h) t ∧ s.Only [.regs, .core] t)

/-- A prefetch that CORE_PFCTL leaves on, of a line that the L2 holds as it is needed, makes it the most recently used,
brings it into the L1I where it is for instructions, and answers nothing; one that is switched off does nothing
(spec/02 R39, R42); CBO.CLEAN, CBO.FLUSH and CBO.INVAL, by the effective CBIE, become one operation on the whole block
that waits for the die agent (R48); CBO.ZERO of a line that the L2 may write makes its 64 bytes zero; one that
menvcfg, senvcfg or henvcfg does not enable raises the exception that R48 names (log entry 47 for its trap value and
pc). -/
def Obligations.CacheBlockOperations : Prop :=
  (∀ (h : Hart) (x : Access) (w : Nat) (by' : PfBy) (s : State), s.Calm h → s.ras.flaws = [] → x.pbmt = .pma →
    Access.refusal x = none → (s.reachHart x.priv x.ga).isMem = true → s.l2Way h (x.ga / 64) = some w →
    s.pfOff h by' = false → Completes (.prefetch h x .r by') s fun t =>
      (t.cached h x w).rrip = 0 ∧ t.cached h x w = { s.cached h x w with rrip := 0 } ∧
      t.hart h = { s.hart h with nextId := (s.hart h).nextId + 1 } ∧
      t.reg (R.rminstret h) = s.reg (R.rminstret h) + (if by' = .zicbop then 1 else 0) ∧ s.OnlyWay h (x.ga / 64) w t ∧
      s.OnlyHart h t ∧ t.core = { s.core with harts := t.core.harts, l2 := t.core.l2 } ∧
      s.OnlyFields [FRef.all (R.rminstret h)] t ∧ s.Only [.regs, .core] t) ∧
  (∀ (h : Hart) (x : Access) (w : Nat) (by' : PfBy) (s : State), s.Calm h → s.ras.flaws = [] → x.pbmt = .pma →
    Access.refusal x = none → (s.reachHart x.priv x.ga).isMem = true → s.l2Way h (x.ga / 64) = some w →
    s.pfOff h by' = false → (s.cached h x w).st = .m → Completes (.prefetch h x .w by') s fun t =>
      (t.cached h x w).rrip = 0 ∧ t.cached h x w = { s.cached h x w with rrip := 0 } ∧
      t.hart h = { s.hart h with nextId := (s.hart h).nextId + 1 } ∧
      t.reg (R.rminstret h) = s.reg (R.rminstret h) + (if by' = .zicbop then 1 else 0) ∧ s.OnlyWay h (x.ga / 64) w t ∧
      s.OnlyHart h t ∧ t.core = { s.core with harts := t.core.harts, l2 := t.core.l2 } ∧
      s.OnlyFields [FRef.all (R.rminstret h)] t ∧ s.Only [.regs, .core] t) ∧
  (∀ (h : Hart) (x : Access) (w : Nat) (by' : PfBy) (s : State), s.Calm h → s.ras.flaws = [] → x.pbmt = .pma →
    Access.refusal x = none → (s.reachHart x.priv x.ga).isMem = true → s.l2Way h (x.ga / 64) = some w →
    s.pfOff h by' = false → s.l1iWay h (x.ga / 64) = none → Completes (.prefetch h x .i by') s fun t =>
      (t.cached h x w).rrip = 0 ∧ t.cached h x w = { s.cached h x w with rrip := 0 } ∧
      t.hart h = { s.hart h with nextId := (s.hart h).nextId + 1 } ∧
      t.reg (R.rminstret h) = s.reg (R.rminstret h) + (if by' = .zicbop then 1 else 0) ∧ s.OnlyWay h (x.ga / 64) w t ∧
      s.OnlyHart h t ∧ t.l1iWay h (x.ga / 64) ≠ none ∧ t.core.l1d = s.core.l1d ∧ s.OnlyFields [FRef.all (R.rminstret h)] t ∧
      s.Only [.regs, .core] t) ∧
  (∀ (h : Hart) (x : Access) (op : PfOp) (by' : PfBy) (s : State), s.hartReady h = true → s.ras.flaws = [] →
    s.pfOff h by' = true → Completes (.prefetch h x op by') s fun t =>
      t.reg (R.rminstret h) = s.reg (R.rminstret h) + (if by' = .zicbop then 1 else 0) ∧
      s.OnlyFields [FRef.all (R.rminstret h)] t ∧ s.Only [.regs] t) ∧
  (∀ (h : Hart) (x : Access) (s : State), s.Calm h → s.ras.flaws = [] → Access.refusal x = none →
    (s.reachHart x.priv x.ga).isMem = true → cboCause x.priv (s.envField h 6 1) = none →
    Completes (.cboClean h x) s fun t =>
      (t.hart h).waits.map (fun p => (p.kind, p.line, p.len, p.asked)) = [(.cboClean, x.ga / 64, 64, false)] ∧
      t.hart h = { s.hart h with waits := (t.hart h).waits, nextId := (s.hart h).nextId + 1 } ∧
      t.core = { s.core with harts := t.core.harts } ∧ s.OnlyHart h t ∧ s.Only [.core] t) ∧
  (∀ (h : Hart) (x : Access) (s : State), s.Calm h → s.ras.flaws = [] → Access.refusal x = none →
    (s.reachHart x.priv x.ga).isMem = true → cboCause x.priv (s.envField h 6 1) = none →
    Completes (.cboFlush h x) s fun t =>
      (t.hart h).waits.map (fun p => (p.kind, p.line, p.len, p.asked)) = [(.cboFlush, x.ga / 64, 64, false)] ∧
      t.hart h = { s.hart h with waits := (t.hart h).waits, nextId := (s.hart h).nextId + 1 } ∧
      t.core = { s.core with harts := t.core.harts } ∧ s.OnlyHart h t ∧ s.Only [.core] t) ∧
  (∀ (h : Hart) (x : Access) (s : State), s.Calm h → s.ras.flaws = [] → Access.refusal x = none →
    (s.reachHart x.priv x.ga).isMem = true → s.cbie h x.priv = 1 → Completes (.cboInval h x) s fun t =>
      (t.hart h).waits.map (fun p => (p.kind, p.line, p.len, p.asked)) = [(.cboInvalAsFlush, x.ga / 64, 64, false)] ∧
      t.hart h = { s.hart h with waits := (t.hart h).waits, nextId := (s.hart h).nextId + 1 } ∧
      t.core = { s.core with harts := t.core.harts } ∧ s.OnlyHart h t ∧ s.Only [.core] t) ∧
  (∀ (h : Hart) (x : Access) (s : State), s.Calm h → s.ras.flaws = [] → Access.refusal x = none →
    (s.reachHart x.priv x.ga).isMem = true → s.cbie h x.priv = 3 → Completes (.cboInval h x) s fun t =>
      (t.hart h).waits.map (fun p => (p.kind, p.line, p.len, p.asked)) = [(.cboInval, x.ga / 64, 64, false)] ∧
      t.hart h = { s.hart h with waits := (t.hart h).waits, nextId := (s.hart h).nextId + 1 } ∧
      t.core = { s.core with harts := t.core.harts } ∧ s.OnlyHart h t ∧ s.Only [.core] t) ∧
  (∀ (h : Hart) (x : Access) (w : Nat) (s : State), s.Calm h → s.ras.flaws = [] → x.pbmt = .pma → Access.refusal x = none →
    (s.reachHart x.priv x.ga).isMem = true → s.l2Way h (x.ga / 64) = some w → (s.cached h x w).st = .m →
    s.storesWaiting h < 64 → cboCause x.priv (s.envField h 7 1) = none → Completes (.cboZero h x) s fun t =>
      t.cached h x w = { s.cached h x w with st := .m, rrip := 0, data := 0, bad := false } ∧
      t.hart h = { s.hart h with nextId := (s.hart h).nextId + 1, mode := x.priv, lcofi := (t.hart h).lcofi, out := .done }
        ∧
      t.reg (R.rminstret h) = s.reg (R.rminstret h) + (if x.walk then 0 else 1) ∧ s.OnlyWay h (x.ga / 64) w t ∧
      s.OnlyHart h t ∧ t.core = { s.core with harts := t.core.harts, l2 := t.core.l2 } ∧ s.OnlyFields (countFields h) t ∧
      s.Only [.regs, .core] t) ∧
  (∀ (h : Hart) (x : Access) (c : Nat) (s : State), s.hartReady h = true → s.ras.flaws = [] →
    cboCause x.priv (s.envField h 6 1) = some c → Completes (.cboClean h x) s fun t =>
      t.hart h = { s.hart h with resv := none, out := .trap c (Config.freeWord s.free).toNat none, mode := s.trapLevel h c x.priv } ∧
      t.regs = (s.takeTrap h x.priv c (Config.freeWord s.free).toNat 0 (Config.freeWord (s.free + 1) &&& ~~~1)).regs ∧
      t.free = s.free + 2 ∧ t.core = { s.core with harts := t.core.harts } ∧ s.OnlyHart h t ∧
      s.Only [.regs, .free, .core] t) ∧
  (∀ (h : Hart) (x : Access) (c : Nat) (s : State), s.hartReady h = true → s.ras.flaws = [] →
    cboCause x.priv (s.envField h 6 1) = some c → Completes (.cboFlush h x) s fun t =>
      t.hart h = { s.hart h with resv := none, out := .trap c (Config.freeWord s.free).toNat none, mode := s.trapLevel h c x.priv } ∧
      t.regs = (s.takeTrap h x.priv c (Config.freeWord s.free).toNat 0 (Config.freeWord (s.free + 1) &&& ~~~1)).regs ∧
      t.free = s.free + 2 ∧ t.core = { s.core with harts := t.core.harts } ∧ s.OnlyHart h t ∧
      s.Only [.regs, .free, .core] t) ∧
  (∀ (h : Hart) (x : Access) (c : Nat) (s : State), s.hartReady h = true → s.ras.flaws = [] →
    cboCause x.priv (s.envField h 4 2) = some c → Completes (.cboInval h x) s fun t =>
      t.hart h = { s.hart h with resv := none, out := .trap c (Config.freeWord s.free).toNat none, mode := s.trapLevel h c x.priv } ∧
      t.regs = (s.takeTrap h x.priv c (Config.freeWord s.free).toNat 0 (Config.freeWord (s.free + 1) &&& ~~~1)).regs ∧
      t.free = s.free + 2 ∧ t.core = { s.core with harts := t.core.harts } ∧ s.OnlyHart h t ∧
      s.Only [.regs, .free, .core] t) ∧
  (∀ (h : Hart) (x : Access) (c : Nat) (s : State), s.hartReady h = true → s.ras.flaws = [] →
    cboCause x.priv (s.envField h 7 1) = some c → s.storesWaiting h < 64 → Completes (.cboZero h x) s fun t =>
      t.hart h = { s.hart h with resv := none, out := .trap c (Config.freeWord s.free).toNat none, mode := s.trapLevel h c x.priv } ∧
      t.regs = (s.takeTrap h x.priv c (Config.freeWord s.free).toNat 0 (Config.freeWord (s.free + 1) &&& ~~~1)).regs ∧
      t.free = s.free + 2 ∧ t.core = { s.core with harts := t.core.harts } ∧ s.OnlyHart h t ∧
      s.Only [.regs, .free, .core] t)

/-- A hart that reads a register of the package register space that is on the Basin die gets its value and changes no
register but its own counters; a write stores the bits that are writable, keeps the others, and changes no other
register of the map (spec/00 R4 to R6, spec/01 R34), stated for the registers whose write acts on nothing else; a read
or a write of a register of a Vale die that is online goes to the die as a REG_READ or REG_WRITE (spec/06 R151, log
entry 52 for the TAG) and the hart waits for the response. A CSR instruction that its mode may execute answers the
value the CSR has (spec/02 R37, R38, R46), the write of a plain CSR and of srmcfg stores the bits that are writable,
and any CSR instruction that may not execute raises the exception that spec/02 names (log entry 47). -/
def Obligations.RegisterAccesses : Prop :=
  (∀ (h : Hart) (a : Nat) (rw v : Word) (s : State), s.hartReady h = true → s.Plain a rw → s.valeAt a = none →
    Completes (.registerWrite h (.mem a 8 v)) s fun t =>
      t.reg a = (s.reg a &&& ~~~rw) ||| (v &&& rw) ∧
      t.hart h = { s.hart h with mode := .m, lcofi := (t.hart h).lcofi, out := .done } ∧
      t.reg (R.rminstret h) = s.reg (R.rminstret h) + 1 ∧ s.OnlyHart h t ∧ t.core = { s.core with harts := t.core.harts } ∧
      s.OnlyFields (FRef.all a :: countFields h) t ∧ s.Only [.regs, .core] t) ∧
  (∀ (h : Hart) (a d tag : Nat) (rw v : Word) (s : State), s.hartReady h = true → s.Plain a rw → s.valeAt a = some d →
    (s.hart h).mmio = none → s.tagFree d tag → Completes (.registerWrite h (.mem a 8 v)) s fun t =>
      t.hart h = { s.hart h with mmio := some (plainAccess (s.pkgId * 2 ^ 44 + 0xFFF00000000 + a) 8, none), out := .idle } ∧
      t.pass = { s.pass with mgt := s.pass.mgt ++ [(d, ⟨1, tag, a % 2 ^ 20, true, v, 0⟩)], asked := s.pass.asked ++ [{ die := d, tag := tag, write := true, who := some (h, plainAccess (s.pkgId * 2 ^ 44 + 0xFFF00000000 + a) 8) }] } ∧
      s.OnlyHart h t ∧ t.core = { s.core with harts := t.core.harts } ∧ s.Only [.core, .pass] t) ∧
  (∀ (h : Hart) (p : Priv) (n : Nat) (v : Word) (s : State), s.hartReady h = true → s.csrFault h p n false = none →
    Completes (.registerWrite h (.csr p .read n v)) s fun t =>
      t.hart h = { s.hart h with mode := p, out := .value (s.csrRead h p (csrOf p n)).toNat } ∧
      t.reg (R.rminstret h) = s.reg (R.rminstret h) + 1 ∧ s.OnlyHart h t ∧ t.core = { s.core with harts := t.core.harts } ∧
      s.OnlyFields [FRef.all (R.rminstret h)] t ∧ s.Only [.regs, .core] t) ∧
  (∀ (h : Hart) (p : Priv) (op : CsrOp) (n c : Nat) (v : Word) (s : State), s.hartReady h = true →
    s.csrFault h p n (op != .read) = some c → Completes (.registerWrite h (.csr p op n v)) s fun t =>
      t.hart h =
        { s.hart h with resv := none, out := .trap c (Config.freeWord s.free).toNat none, mode := s.trapLevel h c p }
        ∧
      t.regs = (s.takeTrap h p c (Config.freeWord s.free).toNat 0 (Config.freeWord (s.free + 1) &&& ~~~1)).regs ∧
      t.free = s.free + 2 ∧ s.OnlyHart h t ∧ t.core = { s.core with harts := t.core.harts } ∧
      s.Only [.regs, .free, .core] t) ∧
  (∀ (h : Hart) (n : Nat) (v : Word) (s : State), s.hartReady h = true → n ∈ plainCsrs →
    Completes (.registerWrite h (.csr .m .write n v)) s fun t =>
      t.reg (csrAt h n) = (s.reg (csrAt h n) &&& ~~~ csrMask n) ||| (v &&& csrMask n) ∧
      t.hart h = { s.hart h with mode := .m, out := .value (s.reg (csrAt h n)).toNat } ∧
      t.reg (R.rminstret h) = s.reg (R.rminstret h) + 1 ∧ s.OnlyHart h t ∧ t.core = { s.core with harts := t.core.harts } ∧
      s.OnlyFields [FRef.all (csrAt h n), FRef.all (R.rminstret h)] t ∧ s.Only [.regs, .core] t) ∧
  (∀ (h : Hart) (v : Word) (s : State), s.hartReady h = true →
    Completes (.registerWrite h (.csr .m .write 0x181 v)) s fun t =>
      t.reg (R.rsrmcfg h) = v &&& 0x03FF03FF ∧
      t.hart h = { s.hart h with mode := .m, out := .value (s.reg (R.rsrmcfg h)).toNat } ∧
      t.reg (R.rminstret h) = s.reg (R.rminstret h) + 1 ∧ s.OnlyHart h t ∧ t.core = { s.core with harts := t.core.harts } ∧
      s.OnlyFields [FRef.all (R.rsrmcfg h), FRef.all (R.rminstret h)] t ∧ s.Only [.regs, .core] t) ∧
  (∀ (h : Hart) (x : Access) (a : Nat) (rw : Word) (s : State), s.hartReady h = true → s.ras.flaws = [] → s.Plain a rw →
    s.valeAt a = none → s.reachHart x.priv x.ga = .prs a → x.size = 8 → Access.refusal x = none →
    Completes (.hartLoad h x) s fun t =>
      t.hart h = { s.hart h with mode := x.priv, lcofi := (t.hart h).lcofi, out := .value (s.reg a).toNat } ∧
      s.OnlyHart h t ∧ t.core = { s.core with harts := t.core.harts } ∧ s.OnlyFields (countFields h) t ∧
      s.Only [.regs, .core] t) ∧
  (∀ (h : Hart) (x : Access) (a : Nat) (rw v : Word) (s : State), s.hartReady h = true → s.ras.flaws = [] → s.Plain a rw →
    s.valeAt a = none → s.reachHart x.priv x.ga = .prs a → x.size = 8 → Access.refusal x = none →
    Completes (.hartStore h x v.toNat) s fun t =>
      t.reg a = (s.reg a &&& ~~~rw) ||| (v &&& rw) ∧
      t.hart h = { s.hart h with mode := x.priv, lcofi := (t.hart h).lcofi, out := .done } ∧ s.OnlyHart h t ∧
      t.core = { s.core with harts := t.core.harts } ∧ s.OnlyFields (FRef.all a :: countFields h) t ∧
      s.Only [.regs, .core] t) ∧
  (∀ (h : Hart) (x : Access) (a d tag : Nat) (s : State), s.hartReady h = true → s.ras.flaws = [] → prsBlock a = true →
    a % 8 = 0 → s.valeAt a = some d → (s.hart h).mmio = none → s.tagFree d tag → s.reachHart x.priv x.ga = .prs a →
    x.size = 8 → Access.refusal x = none → Completes (.hartLoad h x) s fun t =>
      t.hart h = { s.hart h with mmio := some (x, none), out := .idle } ∧
      t.pass = { s.pass with
        mgt := s.pass.mgt ++ [(d, ⟨0, tag, a % 2 ^ 20, true, 0, 0⟩)], asked := s.pass.asked ++
          [{ die := d, tag := tag, write := false, who := some (h, x) }] } ∧
      s.OnlyHart h t ∧ t.core = { s.core with harts := t.core.harts } ∧ s.Only [.core, .pass] t) ∧
  (∀ (h : Hart) (x : Access) (a d tag : Nat) (v : Word) (s : State), s.hartReady h = true → s.ras.flaws = [] →
    prsBlock a = true → a % 8 = 0 → s.valeAt a = some d → (s.hart h).mmio = none → s.tagFree d tag →
    s.reachHart x.priv x.ga = .prs a → x.size = 8 → Access.refusal x = none → Completes (.hartStore h x v.toNat) s fun t =>
      t.hart h = { s.hart h with mmio := some (x, none), out := .idle } ∧
      t.pass = { s.pass with
        mgt := s.pass.mgt ++ [(d, ⟨1, tag, a % 2 ^ 20, true, v, 0⟩)], asked := s.pass.asked ++
          [{ die := d, tag := tag, write := true, who := some (h, x) }] } ∧
      s.OnlyHart h t ∧ t.core = { s.core with harts := t.core.harts } ∧ s.Only [.core, .pass] t)

/-- A message whose turn it is: the die answers a register read of its block with the value and a register write by
storing the writable bits, each with a response that carries the tag and the size; an access that is misaligned is
refused and changes nothing (spec/06 R151). The Basin end takes a response to a request that it has outstanding, and
the hart that waits for the value of a read has it; an MSI makes its identity pending in the interrupt file of the
core it names, and in no other. -/
def Obligations.MgtMessages : Prop :=
  (∀ (p : Port) (m : Mgt) (rw : Word) (s : State), m.mopc = 0 → s.dieOnline (p / 2) = true → s.mgtTurn (p / 2) m = true →
    m.size8 = true → s.Plain (mgtPlace (p / 2) m) rw → Completes (.regRead p m) s fun t =>
      t.pass.mgt = (s.pass.mgt.erase ((p : Nat) / 2, m)) ++ [((p : Nat) / 2,
        { mopc := 2, tag := m.tag, offset := 0, size8 := m.size8, data := s.reg (mgtPlace (p / 2) m), status := 0 })]
        ∧
      (t.askOf ((p : Nat) / 2) m.tag).isSome = true ∧
      t.pass = { s.pass with ends := t.pass.ends, mgt := t.pass.mgt, asked := t.pass.asked } ∧ s.Only [.pass] t) ∧
  (∀ (p : Port) (m : Mgt) (s : State), m.mopc = 0 → s.dieOnline (p / 2) = true → s.mgtTurn (p / 2) m = true →
    prsAligned (mgtPlace (p / 2) m) (mgtSize m) = false → Completes (.regRead p m) s fun t =>
      t.pass.mgt = (s.pass.mgt.erase ((p : Nat) / 2, m)) ++ [((p : Nat) / 2,
        { mopc := 2, tag := m.tag, offset := 0, size8 := m.size8, data := 0, status := 1 })] ∧
      (t.askOf ((p : Nat) / 2) m.tag).isSome = true ∧
      t.pass = { s.pass with ends := t.pass.ends, mgt := t.pass.mgt, asked := t.pass.asked } ∧ s.Only [.pass] t) ∧
  (∀ (p : Port) (m : Mgt) (rw : Word) (s : State), m.mopc = 1 → s.dieOnline (p / 2) = true → s.mgtTurn (p / 2) m = true →
    m.size8 = true → s.Plain (mgtPlace (p / 2) m) rw → Completes (.regWrite p m) s fun t =>
      t.reg (mgtPlace (p / 2) m) = (s.reg (mgtPlace (p / 2) m) &&& ~~~rw) ||| (m.data &&& rw) ∧
      t.pass.mgt = (s.pass.mgt.erase ((p : Nat) / 2, m)) ++ [((p : Nat) / 2,
        { mopc := 2, tag := m.tag, offset := 0, size8 := m.size8, data := 0, status := 0 })] ∧
      (t.askOf ((p : Nat) / 2) m.tag).isSome = true ∧
      t.pass = { s.pass with ends := t.pass.ends, mgt := t.pass.mgt, asked := t.pass.asked } ∧
      s.OnlyFields [FRef.all (mgtPlace (p / 2) m)] t ∧ s.Only [.regs, .pass] t) ∧
  (∀ (p : Port) (m : Mgt) (s : State), m.mopc = 1 → s.dieOnline (p / 2) = true → s.mgtTurn (p / 2) m = true →
    prsAligned (mgtPlace (p / 2) m) (mgtSize m) = false → Completes (.regWrite p m) s fun t =>
      t.pass.mgt = (s.pass.mgt.erase ((p : Nat) / 2, m)) ++ [((p : Nat) / 2,
        { mopc := 2, tag := m.tag, offset := 0, size8 := m.size8, data := 0, status := 1 })] ∧
      (t.askOf ((p : Nat) / 2) m.tag).isSome = true ∧
      t.pass = { s.pass with ends := t.pass.ends, mgt := t.pass.mgt, asked := t.pass.asked } ∧ s.Only [.pass] t) ∧
  (∀ (p : Port) (m : Mgt) (a : RegAsk) (s : State), m.mopc = 2 → m.status < 2 → s.dieOnline (p / 2) = true →
    s.mgtTurn (p / 2) m = true → s.askOf (p / 2) m.tag = some a → a.who = none → Completes (.regRsp p m) s fun t =>
      t.pass.regRsp = some ((p : Nat) / 2, m) ∧ t.pass.asked = s.pass.asked.erase a ∧
      t.pass.mgt = s.pass.mgt.erase ((p : Nat) / 2, m) ∧
      t.pass = { s.pass with ends := t.pass.ends, mgt := t.pass.mgt, asked := t.pass.asked, regRsp := t.pass.regRsp } ∧
      s.Only [.pass] t) ∧
  (∀ (p : Port) (m : Mgt) (a : RegAsk) (h : Hart) (x : Access) (s : State), m.mopc = 2 → m.status = 0 →
    s.dieOnline (p / 2) = true → s.mgtTurn (p / 2) m = true → s.askOf (p / 2) m.tag = some a → a.who = some (h, x) →
    a.write = false → (s.hart h).mmio = some (x, none) → Completes (.regRsp p m) s fun t =>
      t.hart h = { s.hart h with mmio := none, mode := x.priv, lcofi := (t.hart h).lcofi, out := .value (m.data.toNat % 2 ^ (8 * x.size)) } ∧
      t.pass.asked = s.pass.asked.erase a ∧
      t.pass = { s.pass with ends := t.pass.ends, mgt := t.pass.mgt, asked := t.pass.asked, regRsp := t.pass.regRsp } ∧
      s.OnlyHart h t ∧ t.core = { s.core with harts := t.core.harts } ∧ s.OnlyFields (countFields h) t ∧
      s.Only [.regs, .core, .pass] t) ∧
  (∀ (p : Port) (m : Mgt) (s : State), m.mopc = 3 → s.dieOnline (p / 2) = true → s.mgtTurn (p / 2) m = true →
    bits m.offset 5 5 ≤ 16 → s.fileOpen (p / 2 * 32 + bits m.offset 0 5) = true →
    1 ≤ bits m.offset 10 10 + (b2n m.size8) <<< 10 → Completes (.msiWrite p m) s fun t =>
      (Tbl.get (fun _ => 0) t.io.imsic ((p / 2 * 32 + bits m.offset 0 5) * 17 + bits m.offset 5 5)).testBit (bits m.offset
        10 10 + (b2n m.size8) <<< 10) = true ∧
      t.io = { s.io with imsic := t.io.imsic } ∧
      (∀ k, k ≠ p.val / 2 * 32 * 17 + bits m.offset 0 5 * 17 + bits m.offset 5 5 → Tbl.get (fun _ => 0) t.io.imsic k =
        Tbl.get (fun _ => 0) s.io.imsic k) ∧
      t.pass = { s.pass with ends := t.pass.ends, mgt := t.pass.mgt, asked := t.pass.asked } ∧ s.Only [.io, .pass] t)

/-- A request of a die at an idle home slice for a line that another die holds exclusively takes a lock for its line, and
the slice sends the owner the one snoop that the request calls for, its data bound for the requester or for the home
(spec/04 R94, R102, R103): SNP_FWD_SHARED for RD_SHARED, SNP_FWD_OWN for RD_OWN and for an UPGRADE of a die that is
not listed, SNP_FWD_CUR for RD_CUR and CLEAN, SNP_FWD_OWN to the home for FLUSH, WR_PART_NC and ATOMIC_NC, SNP_INV for
INVAL and WR_FULL_NC. An UPGRADE of the only sharer is granted at once by DATA_M without a payload. -/
def Obligations.HomeRequests : Prop :=
  (∀ (n : Ix16) (m : Msg) (q o : Die) (s : State), s.HomesIdle → s.ToHome n m vcREQ opRD_SHARED → s.OwnedElsewhere n m q o →
    Completes (.rdShared m) s fun t =>
      t.lockedFor n 0 = some (m.addr, m) ∧ t.net = s.net.erase m ++ [s.snoopFor n m o opFWD_SHARED false] ∧
      t.home = { s.home with locks := t.home.locks, dir := t.home.dir, rpt := t.home.rpt, rootNext := t.home.rootNext } ∧
      (∀ (k : Nat), k ≠ 0 → t.lock n k = none) ∧ (∀ (k a : Nat), t.homeView k a = s.homeView k a) ∧
      s.OnlyFields (FRef.all (R.rHOME_LOCKS n) :: R.HOME_ARB_POINTER n :: eventFields) t ∧
      s.Only [.regs, .net, .home, .pass, .hzn] t) ∧
  (∀ (n : Ix16) (m : Msg) (q o : Die) (s : State), s.HomesIdle → s.ToHome n m vcREQ opRD_OWN → s.OwnedElsewhere n m q o →
    Completes (.rdOwn m) s fun t =>
      t.lockedFor n 0 = some (m.addr, m) ∧ t.net = s.net.erase m ++ [s.snoopFor n m o opFWD_OWN false] ∧
      t.home = { s.home with locks := t.home.locks, dir := t.home.dir, rpt := t.home.rpt, rootNext := t.home.rootNext } ∧
      (∀ (k : Nat), k ≠ 0 → t.lock n k = none) ∧ (∀ (k a : Nat), t.homeView k a = s.homeView k a) ∧
      s.OnlyFields (FRef.all (R.rHOME_LOCKS n) :: R.HOME_ARB_POINTER n :: eventFields) t ∧
      s.Only [.regs, .net, .home, .pass, .hzn] t) ∧
  (∀ (n : Ix16) (m : Msg) (q o : Die) (s : State), s.HomesIdle → s.ToHome n m vcREQ opUPGRADE → s.OwnedElsewhere n m q o →
    Completes (.upgrade m) s fun t =>
      t.lockedFor n 0 = some (m.addr, m) ∧ t.net = s.net.erase m ++ [s.snoopFor n m o opFWD_OWN false] ∧
      t.home = { s.home with locks := t.home.locks, dir := t.home.dir, rpt := t.home.rpt, rootNext := t.home.rootNext } ∧
      (∀ (k : Nat), k ≠ 0 → t.lock n k = none) ∧ (∀ (k a : Nat), t.homeView k a = s.homeView k a) ∧
      s.OnlyFields (FRef.all (R.rHOME_LOCKS n) :: R.HOME_ARB_POINTER n :: eventFields) t ∧
      s.Only [.regs, .net, .home, .pass, .hzn] t) ∧
  (∀ (n : Ix16) (m : Msg) (q o : Die) (s : State), s.HomesIdle → s.ToHome n m vcREQ opRD_CUR → s.OwnedElsewhere n m q o →
    m.cmo = 0 → Completes (.rdCur m) s fun t =>
      t.lockedFor n 0 = some (m.addr, m) ∧ t.net = s.net.erase m ++ [s.snoopFor n m o opFWD_CUR false] ∧
      t.home = { s.home with locks := t.home.locks, dir := t.home.dir, rpt := t.home.rpt, rootNext := t.home.rootNext } ∧
      (∀ (k : Nat), k ≠ 0 → t.lock n k = none) ∧ (∀ (k a : Nat), t.homeView k a = s.homeView k a) ∧
      s.OnlyFields (FRef.all (R.rHOME_LOCKS n) :: R.HOME_ARB_POINTER n :: eventFields) t ∧
      s.Only [.regs, .net, .home, .pass, .hzn] t) ∧
  (∀ (n : Ix16) (m : Msg) (q o : Die) (s : State), s.HomesIdle → s.ToHome n m vcREQ opRD_CUR → s.OwnedElsewhere n m q o →
    m.cmo = 1 → Completes (.rdCurClean m) s fun t =>
      t.lockedFor n 0 = some (m.addr, m) ∧ t.net = s.net.erase m ++ [s.snoopFor n m o opFWD_CUR true] ∧
      t.home = { s.home with locks := t.home.locks, dir := t.home.dir, rpt := t.home.rpt, rootNext := t.home.rootNext } ∧
      (∀ (k : Nat), k ≠ 0 → t.lock n k = none) ∧ (∀ (k a : Nat), t.homeView k a = s.homeView k a) ∧
      s.OnlyFields (FRef.all (R.rHOME_LOCKS n) :: R.HOME_ARB_POINTER n :: eventFields) t ∧
      s.Only [.regs, .net, .home, .pass, .hzn] t) ∧
  (∀ (n : Ix16) (m : Msg) (q o : Die) (s : State), s.HomesIdle → s.ToHome n m vcREQ opRD_CUR → s.OwnedElsewhere n m q o →
    m.cmo = 2 → Completes (.rdCurFlush m) s fun t =>
      t.lockedFor n 0 = some (m.addr, m) ∧ t.net = s.net.erase m ++ [s.snoopFor n m o opFWD_OWN true] ∧
      t.home = { s.home with locks := t.home.locks, dir := t.home.dir, rpt := t.home.rpt, rootNext := t.home.rootNext } ∧
      (∀ (k : Nat), k ≠ 0 → t.lock n k = none) ∧ (∀ (k a : Nat), t.homeView k a = s.homeView k a) ∧
      s.OnlyFields (FRef.all (R.rHOME_LOCKS n) :: R.HOME_ARB_POINTER n :: eventFields) t ∧
      s.Only [.regs, .net, .home, .pass, .hzn] t) ∧
  (∀ (n : Ix16) (m : Msg) (q o : Die) (s : State), s.HomesIdle → s.ToHome n m vcREQ opRD_CUR → s.OwnedElsewhere n m q o →
    m.cmo = 3 → Completes (.rdCurInval m) s fun t =>
      t.lockedFor n 0 = some (m.addr, m) ∧ t.net = s.net.erase m ++ [s.snoopFor n m o opINV false] ∧
      t.home = { s.home with locks := t.home.locks, dir := t.home.dir, rpt := t.home.rpt, rootNext := t.home.rootNext } ∧
      (∀ (k : Nat), k ≠ 0 → t.lock n k = none) ∧ (∀ (k a : Nat), t.homeView k a = s.homeView k a) ∧
      s.OnlyFields (FRef.all (R.rHOME_LOCKS n) :: R.HOME_ARB_POINTER n :: eventFields) t ∧
      s.Only [.regs, .net, .home, .pass, .hzn] t) ∧
  (∀ (n : Ix16) (m : Msg) (q o : Die) (s : State), s.HomesIdle → s.ToHome n m vcREQ opWR_FULL → s.OwnedElsewhere n m q o →
    Completes (.wrFullNc m) s fun t =>
      t.lockedFor n 0 = some (m.addr, m) ∧ t.net = s.net.erase m ++ [s.snoopFor n m o opINV false] ∧
      t.home = { s.home with locks := t.home.locks, dir := t.home.dir, rpt := t.home.rpt, rootNext := t.home.rootNext } ∧
      (∀ (k : Nat), k ≠ 0 → t.lock n k = none) ∧ (∀ (k a : Nat), t.homeView k a = s.homeView k a) ∧
      s.OnlyFields (FRef.all (R.rHOME_LOCKS n) :: R.HOME_ARB_POINTER n :: eventFields) t ∧
      s.Only [.regs, .net, .home, .pass, .hzn] t) ∧
  (∀ (n : Ix16) (m : Msg) (q o : Die) (s : State), s.HomesIdle → s.ToHome n m vcREQ opWR_PART → s.OwnedElsewhere n m q o →
    Completes (.wrPartNc m) s fun t =>
      t.lockedFor n 0 = some (m.addr, m) ∧ t.net = s.net.erase m ++ [s.snoopFor n m o opFWD_OWN true] ∧
      t.home = { s.home with locks := t.home.locks, dir := t.home.dir, rpt := t.home.rpt, rootNext := t.home.rootNext } ∧
      (∀ (k : Nat), k ≠ 0 → t.lock n k = none) ∧ (∀ (k a : Nat), t.homeView k a = s.homeView k a) ∧
      s.OnlyFields (FRef.all (R.rHOME_LOCKS n) :: R.HOME_ARB_POINTER n :: eventFields) t ∧
      s.Only [.regs, .net, .home, .pass, .hzn] t) ∧
  (∀ (n : Ix16) (m : Msg) (q o : Die) (s : State), s.HomesIdle → s.ToHome n m vcREQ opATOMIC → s.OwnedElsewhere n m q o →
    Completes (.atomicNc m) s fun t =>
      t.lockedFor n 0 = some (m.addr, m) ∧ t.net = s.net.erase m ++ [s.snoopFor n m o opFWD_OWN true] ∧
      t.home = { s.home with locks := t.home.locks, dir := t.home.dir, rpt := t.home.rpt, rootNext := t.home.rootNext } ∧
      (∀ (k : Nat), k ≠ 0 → t.lock n k = none) ∧ (∀ (k a : Nat), t.homeView k a = s.homeView k a) ∧
      s.OnlyFields (FRef.all (R.rHOME_LOCKS n) :: R.HOME_ARB_POINTER n :: eventFields) t ∧
      s.Only [.regs, .net, .home, .pass, .hzn] t) ∧
  (∀ (n : Ix16) (m : Msg) (q : Die) (s : State), s.HomesIdle → s.ToHome n m vcREQ opUPGRADE →
    m.srcAgent = q ∧ m.tokenV = false ∧ s.lineLocal m.addr = true ∧ s.homeRefuses m.addr = none →
    s.fenced (m.addr * 64 % 2 ^ 44) = false ∧ s.isBcast n (s.dOfLine m.addr) = false →
    s.homeView n (s.dOfLine m.addr) = ⟨1, maskOf q, none⟩ → Completes (.upgrade m) s fun t =>
      t.lockedFor n 0 = some (m.addr, m) ∧
      t.net = s.net.erase m ++ [{ vc := vcDATA, opc := opDATA_M, srcPkg := s.pkgId, srcAgent := agHOME + n, dstPkg := s.pkgId, dstAgent := q, txn := m.txn, addr := m.addr, dsrc := 3, mcid := m.mcid }] ∧
      t.homeView n (s.dOfLine m.addr) = ⟨2, maskOf q, some (q : Nat)⟩ ∧
      t.home = { s.home with locks := t.home.locks, dir := t.home.dir, rpt := t.home.rpt, rootNext := t.home.rootNext } ∧
      (∀ (k : Nat), k ≠ 0 → t.lock n k = none) ∧
      s.OnlyFields (FRef.all (R.rHOME_LOCKS n) :: R.HOME_ARB_POINTER n :: eventFields) t ∧
      s.Only [.regs, .net, .home, .pass, .hzn] t)

/-- A die that holds a line exclusively answers a snoop with its bytes to whom the snoop names and with FWD_DONE, which
says what it keeps, SHARED, nothing or the line as it was, and to SNP_INV with SNP_ACK_INV, and keeps it in that state
(spec/03 R73, spec/04 R104); a line that carries the marker is forwarded with it and recorded (spec/02 R50); a snoop
held behind a fill is answered when the fill has been used (spec/05 R133); a proxy passes a remote home's snoop on to
the die that owns the line, under the remote home's HTAG and for the requester that it named (spec/04 R116). -/
def Obligations.Snoops : Prop :=
  (∀ (d : Die) (m : Msg) (l : Line) (s : State), s.ToDie d m vcSNP opFWD_SHARED → s.inWb d m.addr = none →
    s.guarded d m.addr none = false → s.die.filled = [] → s.dieSt d m.addr = .e → s.dieData d m.addr = some (l, false) →
    Completes (.snpFwdShared m) s fun t =>
      t.net = s.net.erase m ++ [{ vc := vcDATA, opc := opDATA_S, srcPkg := s.pkgId, srcAgent := d, dstPkg := m.reqPkg, dstAgent := m.reqAgent, txn := m.reqTxn, addr := m.addr, htag := m.htag, payload := true, poison := false, dsrc := 0, data := l, mcid := m.mcid }, { vc := vcRSP, opc := opFWD_DONE, srcPkg := s.pkgId, srcAgent := d, dstPkg := m.srcPkg, dstAgent := m.srcAgent, txn := m.txn, addr := m.addr, htag := m.htag, newState := 1, mcid := m.mcid }] ∧
      t.dieSt d m.addr = .s ∧ (∀ (e line : Nat), e ≠ d.val → t.dieSt e line = s.dieSt e line) ∧
      t.die = { s.die with vc := t.die.vc, sf := t.die.sf } ∧ s.OnlyFields (eventFields) t ∧
      s.Only [.regs, .net, .core, .die, .pass, .hzn] t) ∧
  (∀ (d : Die) (m : Msg) (l : Line) (s : State), s.ToDie d m vcSNP opFWD_SHARED → s.inWb d m.addr = none →
    s.guarded d m.addr none = false → s.die.filled = [] → s.dieSt d m.addr = .e → s.dieData d m.addr = some (l, true) →
    Completes (.snpFwdShared m) s fun t =>
      t.net = s.net.erase m ++ [{ vc := vcDATA, opc := opDATA_S, srcPkg := s.pkgId, srcAgent := d, dstPkg := m.reqPkg, dstAgent := m.reqAgent, txn := m.reqTxn, addr := m.addr, htag := m.htag, payload := true, poison := true, dsrc := 0, data := l, mcid := m.mcid }, { vc := vcRSP, opc := opFWD_DONE, srcPkg := s.pkgId, srcAgent := d, dstPkg := m.srcPkg, dstAgent := m.srcAgent, txn := m.txn, addr := m.addr, htag := m.htag, newState := 1, mcid := m.mcid }] ∧
      t.dieSt d m.addr = .s ∧ (∀ (e line : Nat), e ≠ d.val → t.dieSt e line = s.dieSt e line) ∧
      t.errRec (bankDie d) ((s.recChoice (bankDie d))) = (s.markRecord d m.addr m.rcid m.mcid).errRec (bankDie d)
        (s.recChoice (bankDie d)) ∧
      s.OnlyFields (eventFields ++ reportFields) t ∧ s.Only [.regs, .net, .free, .core, .die, .pass, .hzn, .ras, .tvx] t) ∧
  (∀ (d : Die) (m : Msg) (l : Line) (s : State), s.ToDie d m vcSNP opFWD_OWN → s.inWb d m.addr = none →
    s.guarded d m.addr none = false → s.die.filled = [] → s.dieSt d m.addr = .e → s.dieData d m.addr = some (l, false) →
    Completes (.snpFwdOwn m) s fun t =>
      t.net = s.net.erase m ++ [{ vc := vcDATA, opc := opDATA_E, srcPkg := s.pkgId, srcAgent := d, dstPkg := m.reqPkg, dstAgent := m.reqAgent, txn := m.reqTxn, addr := m.addr, htag := m.htag, payload := true, poison := false, dsrc := 0, data := l, mcid := m.mcid }, { vc := vcRSP, opc := opFWD_DONE, srcPkg := s.pkgId, srcAgent := d, dstPkg := m.srcPkg, dstAgent := m.srcAgent, txn := m.txn, addr := m.addr, htag := m.htag, newState := 0, mcid := m.mcid }] ∧
      t.dieSt d m.addr = .i ∧ (∀ (e line : Nat), e ≠ d.val → t.dieSt e line = s.dieSt e line) ∧
      t.die = { s.die with vc := t.die.vc, sf := t.die.sf } ∧ s.OnlyFields (eventFields) t ∧
      s.Only [.regs, .net, .core, .die, .pass, .hzn] t) ∧
  (∀ (d : Die) (m : Msg) (l : Line) (s : State), s.ToDie d m vcSNP opFWD_OWN → s.inWb d m.addr = none →
    s.guarded d m.addr none = false → s.die.filled = [] → s.dieSt d m.addr = .e → s.dieData d m.addr = some (l, true) →
    Completes (.snpFwdOwn m) s fun t =>
      t.net = s.net.erase m ++ [{ vc := vcDATA, opc := opDATA_E, srcPkg := s.pkgId, srcAgent := d, dstPkg := m.reqPkg, dstAgent := m.reqAgent, txn := m.reqTxn, addr := m.addr, htag := m.htag, payload := true, poison := true, dsrc := 0, data := l, mcid := m.mcid }, { vc := vcRSP, opc := opFWD_DONE, srcPkg := s.pkgId, srcAgent := d, dstPkg := m.srcPkg, dstAgent := m.srcAgent, txn := m.txn, addr := m.addr, htag := m.htag, newState := 0, mcid := m.mcid }] ∧
      t.dieSt d m.addr = .i ∧ (∀ (e line : Nat), e ≠ d.val → t.dieSt e line = s.dieSt e line) ∧
      t.errRec (bankDie d) ((s.recChoice (bankDie d))) = (s.markRecord d m.addr m.rcid m.mcid).errRec (bankDie d)
        (s.recChoice (bankDie d)) ∧
      s.OnlyFields (eventFields ++ reportFields) t ∧ s.Only [.regs, .net, .free, .core, .die, .pass, .hzn, .ras, .tvx] t) ∧
  (∀ (d : Die) (m : Msg) (l : Line) (s : State), s.ToDie d m vcSNP opFWD_CUR → s.inWb d m.addr = none →
    s.guarded d m.addr none = false → s.die.filled = [] → s.dieSt d m.addr = .e → s.dieData d m.addr = some (l, false) →
    Completes (.snpFwdCur m) s fun t =>
      t.net = s.net.erase m ++ [{ vc := vcDATA, opc := opDATA_S, srcPkg := s.pkgId, srcAgent := d, dstPkg := m.reqPkg, dstAgent := m.reqAgent, txn := m.reqTxn, addr := m.addr, htag := m.htag, payload := true, poison := false, dsrc := 0, data := l, mcid := m.mcid }, { vc := vcRSP, opc := opFWD_DONE, srcPkg := s.pkgId, srcAgent := d, dstPkg := m.srcPkg, dstAgent := m.srcAgent, txn := m.txn, addr := m.addr, htag := m.htag, newState := 2, mcid := m.mcid }] ∧
      t.dieSt d m.addr = .e ∧ (∀ (e line : Nat), e ≠ d.val → t.dieSt e line = s.dieSt e line) ∧
      s.OnlyFields (eventFields) t ∧ s.Only [.regs, .net, .pass, .hzn] t) ∧
  (∀ (d : Die) (m : Msg) (l : Line) (s : State), s.ToDie d m vcSNP opFWD_CUR → s.inWb d m.addr = none →
    s.guarded d m.addr none = false → s.die.filled = [] → s.dieSt d m.addr = .e → s.dieData d m.addr = some (l, true) →
    Completes (.snpFwdCur m) s fun t =>
      t.net = s.net.erase m ++ [{ vc := vcDATA, opc := opDATA_S, srcPkg := s.pkgId, srcAgent := d, dstPkg := m.reqPkg, dstAgent := m.reqAgent, txn := m.reqTxn, addr := m.addr, htag := m.htag, payload := true, poison := true, dsrc := 0, data := l, mcid := m.mcid }, { vc := vcRSP, opc := opFWD_DONE, srcPkg := s.pkgId, srcAgent := d, dstPkg := m.srcPkg, dstAgent := m.srcAgent, txn := m.txn, addr := m.addr, htag := m.htag, newState := 2, mcid := m.mcid }] ∧
      t.dieSt d m.addr = .e ∧ (∀ (e line : Nat), e ≠ d.val → t.dieSt e line = s.dieSt e line) ∧
      t.errRec (bankDie d) ((s.recChoice (bankDie d))) = (s.markRecord d m.addr m.rcid m.mcid).errRec (bankDie d)
        (s.recChoice (bankDie d)) ∧
      s.OnlyFields (eventFields ++ reportFields) t ∧ s.Only [.regs, .net, .free, .core, .die, .pass, .hzn, .ras, .tvx] t) ∧
  (∀ (d : Die) (m : Msg) (l : Line) (bad : Bool) (s : State), s.ToDie d m vcSNP opINV → s.inWb d m.addr = none →
    s.guarded d m.addr none = false → s.die.filled = [] → s.dieSt d m.addr = .e → s.dieData d m.addr = some (l, bad) →
    Completes (.snpInv m) s fun t =>
      t.net = s.net.erase m ++ [{ vc := vcRSP, opc := opACK_INV, srcPkg := s.pkgId, srcAgent := d, dstPkg := m.srcPkg, dstAgent := m.srcAgent, txn := m.txn, addr := m.addr, htag := m.htag, newState := 0, mcid := m.mcid }] ∧
      t.dieSt d m.addr = .i ∧ (∀ (e line : Nat), e ≠ d.val → t.dieSt e line = s.dieSt e line) ∧
      t.die = { s.die with vc := t.die.vc, sf := t.die.sf } ∧ s.OnlyFields (eventFields) t ∧
      s.Only [.regs, .net, .core, .die, .pass, .hzn] t) ∧
  (∀ (d : Die) (m : Msg) (s : State), s.die.held = [m] → m.dstAgent = d → s.guarded d m.addr none = false →
    s.inWb d m.addr = none → s.dieSt d m.addr = .i → s.die.sweep = [] → Completes (.snoopHoldRelease d m.addr) s fun t =>
      t.net = s.net ++ [{ vc := vcRSP, opc := opACK_MISS, srcPkg := s.pkgId, srcAgent := d, dstPkg := m.srcPkg, dstAgent := m.srcAgent, txn := m.txn, addr := m.addr, htag := m.htag, newState := 0, mcid := m.mcid }] ∧
      t.die.held = [] ∧ t.die = { s.die with held := [], filled := t.die.filled } ∧ s.OnlyFields (eventFields) t ∧
      s.Only [.regs, .net, .die, .pass] t) ∧
  (∀ (n : Ix16) (m : Msg) (o : Die) (s : State), s.HomesIdle → s.home.bcast = [] ∧ s.home.pxHeld = [] →
    m.vc = vcSNP ∧ m.dstPkg = s.pkgId ∧ m.dstAgent = agHOME + n ∧ msgIllegal m = none ∧ s.turnOf m = true →
    s.lineLocal m.addr = false → s.pkgServed m.srcPkg = true → s.proxyView n (m.addr * 64) = ⟨2, maskOf o, some (o : Nat)⟩ →
    s.dieQuiet o = false ∧ (s.dieCtl o).lost = false → Completes (.proxyRemoteSnoop m) s fun t =>
      t.lockedFor n (extTag m.addr) = some (m.addr, m) ∧
      t.net = s.net.erase m ++ [{ vc := vcSNP, opc := m.opc, srcPkg := s.pkgId, srcAgent := agHOME + n, dstPkg := s.pkgId, dstAgent := o, txn := m.txn, addr := m.addr, htag := m.htag, reqPkg := m.reqPkg, reqAgent := m.reqAgent, reqTxn := m.reqTxn, mcid := m.mcid }] ∧
      t.home = { s.home with locks := t.home.locks, rld := t.home.rld } ∧
      (∀ (k a : Nat), t.proxyView k a = s.proxyView k a) ∧ s.OnlyFields (FRef.all (R.rHOME_LOCKS n) :: eventFields) t ∧
      s.Only [.regs, .net, .home, .pass, .hzn] t)

/-- What a home slice does with the answers to its snoops (spec/04 R105, spec/05 R136): an acknowledgement while others
are outstanding takes the holder off the transaction's list and off the line's entry; FWD_DONE of the owner makes the
transaction wait for the data, and FWD_DONE_WB for the writeback too; data for the home is kept, as dirty where it is
DATA_M; DATA_O is an illegal message, recorded in HOME_PROTO_ERR (R93). Nothing else of the homes changes. -/
def Obligations.SnoopAnswers : Prop :=
  (∀ (n : Ix16) (m : Msg) (h : Die) (x : HTxn) (k : Nat) (s : State), s.ToHome n m vcRSP opACK_INV → m.srcAgent = h →
    s.home.wbHeld = [] → s.lock n k = some x → x.line = m.addr ∧ x.proxy = false → s.isBcast n (s.dOfLine x.line) = false →
    s.ansSlot n m.htag m.addr h = some (k, x) → x.phase = .acks → x.invs.testBit h = true → without x.invs h ≠ 0 →
    (s.homeView n (s.dOfLine x.line)).kind = 1 → Completes (.snpAckInv m) s fun t =>
      t.lock n k = some { x with invs := without x.invs h, answered := x.answered ++ [((h : Nat), m.opc)] } ∧
      (t.homeView n (s.dOfLine x.line)).mask.testBit h = false ∧ t.net = s.net.erase m ∧
      t.home = { s.home with locks := t.home.locks, dir := t.home.dir, rpt := t.home.rpt } ∧
      s.OnlyFields [FRef.all (R.rHOME_LOCKS n)] t ∧ s.Only [.regs, .net, .home, .pass, .hzn] t) ∧
  (∀ (n : Ix16) (m : Msg) (h : Die) (x : HTxn) (k : Nat) (s : State), s.ToHome n m vcRSP opACK_MISS → m.srcAgent = h →
    s.home.wbHeld = [] → s.lock n k = some x → x.line = m.addr ∧ x.proxy = false → s.isBcast n (s.dOfLine x.line) = false →
    s.ansSlot n m.htag m.addr h = some (k, x) → x.phase = .acks → x.invs.testBit h = true → without x.invs h ≠ 0 →
    (s.homeView n (s.dOfLine x.line)).kind = 1 → Completes (.snpAckMiss m) s fun t =>
      t.lock n k = some { x with invs := without x.invs h, answered := x.answered ++ [((h : Nat), m.opc)] } ∧
      (t.homeView n (s.dOfLine x.line)).mask.testBit h = false ∧ t.net = s.net.erase m ∧
      t.home = { s.home with locks := t.home.locks, dir := t.home.dir, rpt := t.home.rpt } ∧
      s.OnlyFields [FRef.all (R.rHOME_LOCKS n)] t ∧ s.Only [.regs, .net, .home, .pass, .hzn] t) ∧
  (∀ (n : Ix16) (m : Msg) (h : Die) (x : HTxn) (k : Nat) (s : State), s.ToHome n m vcRSP opFWD_DONE → m.srcAgent = h →
    s.home.wbHeld = [] → s.lock n k = some x → x.line = m.addr ∧ x.proxy = false → s.isBcast n (s.dOfLine x.line) = false →
    s.ansSlot n m.htag m.addr h = some (k, x) → x.phase = .owner ∧ x.sent = true ∧ x.toHome = true →
    x.fwd.map (·.1) = some (h : Nat) → x.dataEarly = x.dataDue → Completes (.fwdDone m) s fun t =>
      t.lock n k = some
        { x with answered := x.answered ++ [((h : Nat), m.opc)], newSt := m.newState, dataDue := x.dataDue + 1 } ∧
      t.net = s.net.erase m ∧ t.home = { s.home with locks := t.home.locks } ∧ s.OnlyFields [FRef.all (R.rHOME_LOCKS n)] t ∧
      s.Only [.regs, .net, .home, .pass, .hzn] t) ∧
  (∀ (n : Ix16) (m : Msg) (h : Die) (x : HTxn) (k : Nat) (s : State), s.ToHome n m vcRSP opFWD_DONE_WB → m.srcAgent = h →
    s.home.wbHeld = [] → s.lock n k = some x → x.line = m.addr ∧ x.proxy = false → s.isBcast n (s.dOfLine x.line) = false →
    s.ansSlot n m.htag m.addr h = some (k, x) → x.phase = .owner ∧ x.sent = true ∧ x.toHome = true →
    x.fwd.map (·.1) = some (h : Nat) → x.dataEarly = x.dataDue → Completes (.fwdDoneWb m) s fun t =>
      t.lock n k = some { x with
        answered := x.answered ++ [((h : Nat), m.opc)], newSt := m.newState, dataDue := x.dataDue + 1, wbWait := some
          (h : Nat) } ∧
      t.net = s.net.erase m ∧ t.home = { s.home with locks := t.home.locks } ∧ s.OnlyFields [FRef.all (R.rHOME_LOCKS n)] t ∧
      s.Only [.regs, .net, .home, .pass, .hzn] t) ∧
  (∀ (n : Ix16) (m : Msg) (h : Die) (x : HTxn) (k : Nat) (s : State), s.ToHome n m vcDATA opDATA_E → m.srcAgent = h →
    s.home.wbHeld = [] → (s.slotsOf n m.txn m.addr).find? (fun e => e.2.toHome) = some (k, x) →
    s.lock n k = some x ∧ x.line = m.addr ∧ x.proxy = false ∧ x.toHome = true → x.phase = .acks ∧ x.invs ≠ 0 →
    m.poison = false ∧ m.payload = true → x.got = none → Completes (.dataE m) s fun t =>
      t.lock n k = some { x with dataEarly := x.dataEarly + 1, got := some (m.data, false), memOk := false } ∧
      t.net = s.net.erase m ∧ t.home = { s.home with locks := t.home.locks } ∧ s.OnlyFields [FRef.all (R.rHOME_LOCKS n)] t ∧
      s.Only [.regs, .net, .home, .pass, .hzn] t) ∧
  (∀ (n : Ix16) (m : Msg) (h : Die) (x : HTxn) (k : Nat) (s : State), s.ToHome n m vcDATA opDATA_M → m.srcAgent = h →
    s.home.wbHeld = [] → (s.slotsOf n m.txn m.addr).find? (fun e => e.2.toHome) = some (k, x) →
    s.lock n k = some x ∧ x.line = m.addr ∧ x.proxy = false ∧ x.toHome = true → x.phase = .acks ∧ x.invs ≠ 0 →
    m.poison = false ∧ m.payload = true → Completes (.dataM m) s fun t =>
      t.lock n k = some { x with dataEarly := x.dataEarly + 1, got := some (m.data, false), dirty := true, memOk := false }
        ∧
      t.net = s.net.erase m ∧ t.home = { s.home with locks := t.home.locks } ∧ s.OnlyFields [FRef.all (R.rHOME_LOCKS n)] t ∧
      s.Only [.regs, .net, .home, .pass, .hzn] t) ∧
  (∀ (n : Ix16) (m : Msg) (s : State),
    m.vc = vcDATA ∧ m.opc = opDATA_O ∧ m.dstPkg = s.pkgId ∧ m.dstAgent = agHOME + n ∧ s.turnOf m = true →
    s.pkgServed m.srcPkg = true → s.lineLocal m.addr = true → s.get (R.HOME_PROTO_ERR_VALID n) = 0 →
    Completes (.dataO m) s fun t =>
      t.get (R.HOME_PROTO_ERR_VALID n) = 1 ∧ t.get (R.HOME_PROTO_ERR_KIND n) = 3 ∧
      t.get (R.HOME_PROTO_ADDR_LINE n) = m.addr % 2 ^ 50 ∧ t.net = s.net.erase m ∧
      s.OnlyFields (FRef.all (R.rHOME_PROTO_ERR n) :: FRef.all (R.rHOME_PROTO_ADDR n) :: reportFields) t ∧
      s.Only [.regs, .net, .free, .core, .pass, .hzn, .ras, .tvx] t)

/-- Of a message whose turn it is: CLOSE releases the lock of a transaction that only waits for it, and COMMIT performs
the ordered write through to memory, frees the directory entry and releases the lock (spec/04 R107, R114); DONE ends
the request of a die that it names, with the cache-block operation that waited for it; ERR ends it too, and a load
that waited takes a precise access fault (spec/02 R51, spec/04 R118); RETRY leaves the request with or without its
token, and a grant, bound or not, sends it again (spec/05 R129); READY lets an I/O agent's only ordered write commit
(R114); a granted token not used in time becomes free, with HOME_TOKEN_ERR valid (spec/05 R131); a WB_DIRTY of the
owner is written through to memory and acknowledged (R108); a proxy passes a die's request and writeback on to the
remote home (R115, spec/05 R139); the acknowledgement of a writeback empties the buffer entry (spec/05 R134). -/
def Obligations.Completions : Prop :=
  (∀ (n : Ix16) (m : Msg) (x : HTxn) (s : State), s.ToHome n m vcRSP opCOMP_ACK → m.status = stCLOSE →
    s.home.toks = [] ∧ s.home.wbHeld = [] ∧ s.home.chHeld = [] → s.lock n m.htag = some x → x.isReq m = true →
    x.proxy = false ∧ x.phase = .close ∧ x.done = true ∧ x.wbWait = none → Completes (.compAckClose m) s fun t =>
      t.lock n m.htag = none ∧ t.net = s.net.erase m ∧ t.home = { s.home with locks := t.home.locks } ∧
      s.Only [.net, .home, .pass, .hzn] t) ∧
  (∀ (n : Ix16) (m : Msg) (x : HTxn) (s : State), s.ToHome n m vcRSP opCOMP_ACK → m.status = stCOMMIT →
    s.home.toks = [] ∧ s.home.wbHeld = [] ∧ s.home.chHeld = [] → s.lock n m.htag = some x → x.isReq m = true →
    x.proxy = false ∧ x.phase = .ready ∧ x.wbWait = none ∧ x.req.opc = opWR_FULL →
    s.storeStops (s.dOfLine x.line) = false ∧ s.mcAdmits (s.dOfLine x.line) x.req.rcid = true →
    Completes (.compAckCommit m) s fun t =>
      t.lock n m.htag = none ∧ (t.homeView n (s.dOfLine x.line)).kind = 0 ∧ t.net = s.net.erase m ∧
      t.mem = (s.storePut (s.dOfLine x.line) (msgLine x.req)).mem ∧
      t.marked = (s.storePut (s.dOfLine x.line) (msgLine x.req)).marked ∧
      t.home = { s.home with locks := t.home.locks, dir := t.home.dir, rpt := t.home.rpt } ∧
      s.Only [.regs, .mem, .marked, .net, .free, .core, .home, .pass, .chan, .mesa, .meter, .qos, .hzn, .ras, .tvx] t) ∧
  (∀ (d : Die) (m : Msg) (k : Trk) (s : State), s.ToDie d m vcRSP opCOMP_ACK → m.status = stDONE → s.trkOf d m = some k →
    k.msg.opc ≠ opRD_SHARED ∧ k.msg.opc ≠ opRD_OWN ∧ k.msg.opc ≠ opUPGRADE → s.askedPiece k.hart m.addr = none →
    Completes (.compAckDone m) s fun t =>
      t.die = { s.die with trk := s.die.trk.filter (fun y => !(y.die == k.die && y.msg.txn == k.msg.txn)) } ∧
      t.net = s.net.erase m ∧ s.Only [.net, .die, .pass, .hzn] t) ∧
  (∀ (d : Die) (m : Msg) (k : Trk) (h : Hart) (w : Wait) (s : State), s.ToDie d m vcRSP opCOMP_ACK → m.status = stDONE →
    s.trkOf d m = some k → k.msg.opc ≠ opRD_SHARED ∧ k.msg.opc ≠ opRD_OWN ∧ k.msg.opc ≠ opUPGRADE → k.hart = h →
    (s.hart h).waits = [w] ∧ (s.hart h).held = none →
    w.kind.isCmo = true ∧ w.asked = true ∧ w.line = m.addr ∧ w.acc.walk = false ∧ w.acc.elem = none →
    Completes (.compAckDone m) s fun t =>
      t.die = { s.die with trk := s.die.trk.filter (fun y => !(y.die == k.die && y.msg.txn == k.msg.txn)) } ∧
      t.net = s.net.erase m ∧ t.hart h = { s.hart h with waits := [], mode := w.acc.priv, out := .done } ∧
      t.reg (R.rminstret h) = s.reg (R.rminstret h) + 1 ∧ t.core = { s.core with harts := t.core.harts } ∧ s.OnlyHart h t ∧
      s.OnlyFields [FRef.all (R.rminstret h)] t ∧ s.Only [.regs, .net, .core, .die, .pass, .hzn] t) ∧
  (∀ (m : Msg) (r : IoReq) (s : State),
    m.vc = vcRSP ∧ m.opc = opCOMP_ACK ∧ m.status = stREADY ∧ msgIllegal m = none ∧ s.turnOf m = true →
    m.dstAgent = agXCE ∧ r.agent = agXCE → s.io.reqs = [r] →
    r.msg.txn = m.txn ∧ r.msg.addr = m.addr ∧ r.msg.dstPkg = m.srcPkg ∧ r.msg.dstAgent = m.srcAgent ∧ r.msg.ord = 1 ∧ r.st = .sent ∧ r.quar = false →
    r.why = .device 0 0 0 0 → Completes (.compAckReady m) s fun t =>
      t.io.reqs = [] ∧
      t.net = s.net.erase m ++ [{ vc := vcRSP, opc := opCOMP_ACK, srcPkg := s.pkgId, srcAgent := agXCE, dstPkg := r.msg.dstPkg, dstAgent := r.msg.dstAgent, txn := m.txn, addr := r.msg.addr, htag := m.htag, status := stCOMMIT, mcid := m.mcid }] ∧
      s.Only [.regs, .mem, .marked, .net, .free, .core, .die, .home, .pass, .mesa, .meter, .qos, .hzn, .xce, .io, .ras,
        .tvx, .ccol] t) ∧
  (∀ (d : Die) (m : Msg) (k : Trk) (s : State), s.ToDie d m vcRSP opERR → s.trkOf d m = some k →
    s.askedPiece k.hart m.addr = none → Completes (.err m) s fun t =>
      t.die = { s.die with trk := s.die.trk.filter (fun y => !(y.die == k.die && y.msg.txn == k.msg.txn)) } ∧
      t.net = s.net.erase m ∧ s.Only [.net, .die, .pass, .hzn] t) ∧
  (∀ (d : Die) (m : Msg) (k : Trk) (h : Hart) (w : Wait) (s : State), s.ToDie d m vcRSP opERR → s.trkOf d m = some k →
    k.hart = h → (s.hart h).waits = [w] → w.kind = .load ∧ w.asked = true ∧ w.line = m.addr ∧ w.acc.elem = none →
    Completes (.err m) s fun t =>
      t.die = { s.die with trk := s.die.trk.filter (fun y => !(y.die == k.die && y.msg.txn == k.msg.txn)) } ∧
      t.net = s.net.erase m ∧ (t.hart h).waits = [] ∧ (t.hart h).out = .trap (faultCause w.acc 5) w.acc.va none ∧
      (t.hart h).resv = none ∧ t.core.l2 = s.core.l2 ∧ s.Only [.regs, .net, .free, .core, .die, .pass, .hzn, .ras, .tvx] t) ∧
  (∀ (d : Die) (m : Msg) (k : Trk) (s : State), s.ToDie d m vcRSP opRETRY → s.trkOf d m = some k →
    Completes (.retry m) s fun t =>
      t.trkTxn d m.txn = some { k with
        st := if m.tokenV then .tokened else .parked, msg := { k.msg with token := m.token } } ∧
      t.net = s.net.erase m ∧ t.die = { s.die with trk := t.die.trk } ∧ s.OnlyFields (eventFields) t ∧
      s.Only [.regs, .net, .die, .pass, .hzn] t) ∧
  (∀ (d : Die) (m : Msg) (k : Trk) (s : State), s.ToDie d m vcRSP opGRANT → m.addr ≠ noLine → s.die.trk = [k] →
    k.die = d ∧ k.msg.txn = m.txn ∧ k.msg.addr = m.addr → Completes (.creditGrant m) s fun t =>
      t.net = s.net.erase m ++ [{ k.msg with tokenV := true, token := m.token }] ∧
      t.die = { s.die with trk := [{ k with st := .sent, msg := { k.msg with tokenV := true, token := m.token } }] } ∧
      s.OnlyFields (eventFields) t ∧ s.Only [.regs, .net, .die, .pass, .hzn] t) ∧
  (∀ (d : Die) (m : Msg) (k : Trk) (s : State), s.ToDie d m vcRSP opGRANT → m.addr = noLine → s.die.trk = [k] →
    (k.die = d ∧ k.msg.dstAgent = m.srcAgent ∧ (k.st = .parked ∨ (k.st = .tokened ∧ k.msg.token = m.token))) →
    Completes (.creditGrant m) s fun t =>
      t.net = s.net.erase m ++ [{ k.msg with tokenV := true, token := m.token }] ∧
      t.die = { s.die with trk := [{ k with st := .sent, msg := { k.msg with tokenV := true, token := m.token } }] } ∧
      s.OnlyFields (eventFields) t ∧ s.Only [.regs, .net, .die, .pass, .hzn] t) ∧
  (∀ (n : Ix16) (k : Fin 256) (s : State), ((s.tok n k).st = .grantLine ∨ (s.tok n k).st = .grantUnbound) →
    (s.tok n k).slot = none → s.home.owed = [] → Completes (.tokenWatchdogExpiry n k) s fun t =>
      (t.tok n k).st = .free ∧ t.get (R.HOME_TOKEN_ERR_VALID n) = 1 ∧ t.home = { s.home with toks := t.home.toks } ∧
      (∀ (j i : Nat), j < 16 → i < 256 → (j ≠ n.val ∨ i ≠ k.val) → t.tok j i = s.tok j i) ∧
      s.OnlyFields (FRef.all (R.rHOME_TOKEN_ERR n) :: reportFields) t ∧
      s.Only [.regs, .free, .core, .home, .pass, .ras, .tvx] t) ∧
  (∀ (n : Ix16) (m : Msg) (q : Die) (s : State), s.HomesIdle → s.ToHome n m vcWB 0 → m.srcAgent = q →
    s.lineLocal m.addr = true → s.homeRefuses m.addr = none → s.isBcast n (s.dOfLine m.addr) = false →
    s.homeView n (s.dOfLine m.addr) = ⟨2, maskOf q, some (q : Nat)⟩ → s.storeStops (s.dOfLine m.addr) = false →
    Completes (.wbDirty m) s fun t =>
      t.net = s.net.erase m ++ [{ vc := vcRSP, opc := opWB_ACK, srcPkg := s.pkgId, srcAgent := agHOME + n, dstPkg := s.pkgId, dstAgent := q, txn := m.txn, addr := m.addr, mcid := m.mcid }] ∧
      (t.homeView n (s.dOfLine m.addr)).kind = 0 ∧ t.mem = (s.storePut (s.dOfLine m.addr) (msgLine m)).mem ∧
      t.marked = (s.storePut (s.dOfLine m.addr) (msgLine m)).marked ∧
      t.home = { s.home with dir := t.home.dir, rpt := t.home.rpt } ∧
      s.Only [.regs, .mem, .marked, .net, .free, .core, .home, .pass, .chan, .mesa, .meter, .qos, .hzn, .ras, .tvx] t) ∧
  (∀ (n : Ix16) (m : Msg) (q : Die) (s : State), s.HomesIdle → s.home.pxHeld = [] ∧ s.home.bcast = [] →
    s.ToHome n m vcREQ opRD_SHARED → m.srcAgent = q ∧ m.tokenV = false ∧ s.lineLocal m.addr = false →
    s.pkgServed (m.addr * 64 / 2 ^ 44) = true → (s.proxyView n (m.addr * 64)).kind = 0 →
    Completes (.proxyDieRequest m) s fun t =>
      t.lockedFor n 0 = some (m.addr, m) ∧
      t.net = s.net.erase m ++ [{ m with
        srcPkg := s.pkgId, srcAgent := agHOME + n, dstPkg := m.addr * 64 / 2 ^ 44, dstAgent := agHOME + s.homeSlice
          (m.addr * 64), txn := 0, token := 0 }] ∧
      t.home = { s.home with locks := t.home.locks, rld := t.home.rld, rootNext := t.home.rootNext } ∧
      (∀ (k a : Nat), t.proxyView k a = s.proxyView k a) ∧
      s.OnlyFields (FRef.all (R.rHOME_LOCKS n) :: R.HOME_ARB_POINTER n :: eventFields) t ∧
      s.Only [.regs, .net, .home, .pass, .hzn] t) ∧
  (∀ (n : Ix16) (m : Msg) (q : Die) (s : State), s.HomesIdle → s.home.pxHeld = [] ∧ s.home.bcast = [] → s.ToHome n m vcWB 0 →
    m.srcAgent = q ∧ m.tokenV = false ∧ s.lineLocal m.addr = false → s.pkgServed (m.addr * 64 / 2 ^ 44) = true →
    s.proxyView n (m.addr * 64) = ⟨2, maskOf q, some (q : Nat)⟩ → Completes (.proxyDieWbDirty m) s fun t =>
      t.net = s.net.erase m ++ [{ vc := vcWB, opc := 0, srcPkg := s.pkgId, srcAgent := agHOME + n, dstPkg := m.addr * 64 / 2 ^ 44, dstAgent := agHOME + s.homeSlice (m.addr * 64), txn := 512, addr := m.addr, rcid := m.rcid, mcid := m.mcid, payload := true, poison := m.poison, data := m.data }] ∧
      t.home.pxWb.map (fun w => (w.n, w.out.addr, w.die)) = [((n : Nat), m.addr, some m)] ∧
      (t.proxyView n (m.addr * 64)).kind = 0 ∧
      t.home = { s.home with locks := t.home.locks, rld := t.home.rld, pxWb := t.home.pxWb } ∧
      s.OnlyFields (FRef.all (R.rHOME_LOCKS n) :: eventFields) t ∧ s.Only [.regs, .net, .home, .pass, .hzn] t) ∧
  (∀ (d : Die) (m : Msg) (s : State), s.ToDie d m vcRSP opWB_ACK →
    s.die.wb.any (fun e => e.die == (d : Nat) && e.msg.txn == m.txn && e.msg.addr == m.addr) = true →
    Completes (.wbAck m) s fun t =>
      t.die = { s.die with wb := s.die.wb.filter (fun e => !(e.die == (d : Nat) && e.msg.txn == m.txn)) } ∧
      t.net = s.net.erase m ∧ s.Only [.net, .pass, .hzn, .die] t) ∧
  (∀ (d : Die) (m : Msg) (s : State), s.ToDie d m vcRSP opWB_STALE →
    s.die.wb.any (fun e => e.die == (d : Nat) && e.msg.txn == m.txn && e.msg.addr == m.addr) = true →
    Completes (.wbAckStale m) s fun t =>
      t.die = { s.die with wb := s.die.wb.filter (fun e => !(e.die == (d : Nat) && e.msg.txn == m.txn)) } ∧
      t.net = s.net.erase m ∧ s.Only [.net, .pass, .hzn, .die] t)

/-- Data that answers a non-cacheable load is the load's value (spec/03 R67); a load that misses the die is put to the
home as RD_SHARED with the hart's RCID and MCID (R67); an L2 victim's dirty bytes go to the Vale cache, and a Vale
cache victim leaves its way empty (R68, R70); a fill that waited for a directory way gets the line exclusively where
nothing holds it (spec/04 R110, R102); a die that is quiescent after DIE_OFFLINE goes offline, and one of which a port
has trained comes online (R80, spec/15 R349); a sweep recalls the next line of a way that is retired, and ends when
none is left (spec/04 R120). -/
def Obligations.DieSteps : Prop :=
  (∀ (d : Die) (m : Msg) (k : Trk) (h : Hart) (w : Wait) (s : State), s.ToDie d m vcDATA opDATA_S → s.wbRoom d = true →
    m.poison = false ∧ m.payload = true → s.trkTxn d m.txn = some k →
    k.msg.opc = opRD_CUR ∧ k.msg.addr = m.addr ∧ k.hart = h → (s.hart h).waits = [w] ∧ (s.hart h).held = none →
    w.kind = .load ∧ w.asked = true ∧ w.line = m.addr → Completes (.dataS m) s fun t =>
      t.die = { s.die with trk := s.die.trk.filter (fun y => !(y.die == k.die && y.msg.txn == k.msg.txn)) } ∧
      t.net = s.net.erase m ∧
      t.hart h = { s.hart h with waits := [], mode := w.acc.priv, lcofi := (t.hart h).lcofi, out := .value (w.val + (lineField m.data w.off w.len) <<< (8 * w.shift)) } ∧
      t.core = { s.core with harts := t.core.harts } ∧ s.OnlyHart h t ∧ s.OnlyFields (countFields h) t ∧
      s.Only [.regs, .net, .core, .die, .pass, .hzn] t) ∧
  (∀ (h : Hart) (w : Wait) (s : State), s.ras.flaws = [] → (s.hart h).waits = [w] ∧ (s.hart h).scFails = 0 →
    w.kind = .load ∧ w.asked = false ∧ w.acc.pbmt = .pma → s.die.trk = [] ∧ s.die.wb = [] →
    s.guarded (h / 32) w.line (some h) = false → s.l2Way h w.line = none → s.dieSt (h / 32) w.line = .i →
    Completes (.dieL2Miss h) s fun t =>
      t.net = s.net ++ [{ vc := vcREQ, opc := opRD_SHARED, srcPkg := s.pkgId, srcAgent := h / 32, dstPkg := s.pkgId, dstAgent := s.homeAgent w.line, txn := 0, addr := w.line, rcid := w.rcid, mcid := w.mcid }] ∧
      t.die.trk.map (fun k => (k.die, k.hart, k.st)) = [((h : Nat) / 32, (h : Nat), ReqSt.sent)] ∧
      t.hart h = { s.hart h with waits := [{ w with asked := true }], lcofi := (t.hart h).lcofi } ∧
      t.die = { s.die with trk := t.die.trk } ∧ t.core = { s.core with harts := t.core.harts } ∧ s.OnlyHart h t ∧
      s.OnlyFields (countFields h ++ eventFields) t ∧ s.Only [.regs, .net, .core, .die, .pass] t) ∧
  (∀ (h : Hart) (line w v : Nat) (s : State), s.ras.flaws = [] → s.l2Way h line = some w → s.vcWay (h / 32) line = some v →
    s.upgrading (h / 32) line = false → s.wbCount (h / 32) < 256 → (s.l2 h (l2Set line) w).st = .m →
    Completes (.l2Eviction h line) s fun t =>
      (t.l2 h (l2Set line) w).st = .i ∧ (t.vcLine (h / 32) line v).data = (s.l2 h (l2Set line) w).data ∧
      (t.vcLine (h / 32) line v).bad = (s.l2 h (l2Set line) w).bad ∧ s.OnlyWay h line w t ∧ s.OnlyHart h t ∧
      s.Only [.regs, .core, .die, .pass] t) ∧
  (∀ (d : Die) (line w : Nat) (s : State), s.ras.flaws = [] → s.vcWay d line = some w → s.upgrading d line = false →
    s.wbCount d < 256 → Completes (.valeCacheEviction d line) s fun t =>
      (t.vcLine d line w).valid = false ∧
      (∀ (e l k : Nat), e < 12 → k < 16 → ¬ (e = d.val ∧ valeSlice (l * 64) = valeSlice (line * 64) ∧ valeSet (l * 64) =
        valeSet (line * 64) ∧ k = w) → t.vcLine e l k = s.vcLine e l k) ∧
      s.Only [.regs, .net, .die, .pass] t) ∧
  (∀ (n : Ix16) (k : Fin 512) (x : HTxn) (l : Line) (q : Die) (s : State), s.lock n k = some x →
    x.phase = .way ∧ x.proxy = false ∧ x.wasForwarded = false ∧ x.bcast = false ∧ x.closed = false →
    x.work = .request ∧ x.req.opc = opRD_SHARED ∧ x.req.srcPkg = s.pkgId ∧ x.req.srcAgent = q →
    x.got = some (l, false) ∧ x.eGrant = true → s.home.chHeld = [] → s.homeView n (s.dOfLine x.line) = {} →
    (s.dirFree n (s.dOfLine x.line)).isSome = true → Completes (.dirWayWaitResume n k) s fun t =>
      t.net = s.net ++ [{ vc := vcDATA, opc := opDATA_E, srcPkg := s.pkgId, srcAgent := agHOME + n, dstPkg := s.pkgId, dstAgent := q, txn := x.req.txn, addr := x.req.addr, htag := k, payload := true, dsrc := x.dsrc, data := l, mcid := x.req.mcid }] ∧
      (t.lock n k).map (fun y => (y.phase, y.done)) = some (HPhase.close, true) ∧
      t.home = { s.home with locks := t.home.locks, dir := t.home.dir, rpt := t.home.rpt } ∧
      s.OnlyFields (FRef.all (R.rHOME_LOCKS n) :: eventFields) t ∧ s.Only [.regs, .net, .home, .pass] t) ∧
  (∀ (d : Die) (s : State), (s.dieCtl d).phase = 2 → s.dieStill d = true → Completes (.dieOfflineComplete d) s fun t =>
      t.dieOnline d = false ∧ t.get (R.VALE_DIE_STATUS_ONLINE d) = 0 ∧ t.get (R.VALE_DIE_STATUS_OFFLINE_FLUSH d) = 0 ∧
      (t.dieCtl d).phase = 0 ∧ (t.dieCtl d).quiet = true ∧
      (∀ e, e ≠ d.val → e < 12 → t.dieOnline e = s.dieOnline e ∧ t.dieCtl e = s.dieCtl e) ∧
      s.Only [.regs, .die, .pass, .tvx] t) ∧
  (∀ (d : Die) (s : State), (s.dieCtl d).phase = 3 → (s.passState (2 * d) = passACTIVE ∨ s.passState (2 * d) = passRETIRED) →
    (s.passState (2 * d + 1) = passACTIVE ∨ s.passState (2 * d + 1) = passRETIRED) →
    (s.passState (2 * d) = passACTIVE ∨ s.passState (2 * d + 1) = passACTIVE) → Completes (.dieOnlineComplete d) s fun t =>
      t.dieOnline d = true ∧ (t.dieCtl d).phase = 0 ∧ (t.dieCtl d).ever = true ∧ (t.dieCtl d).quiet = false ∧
      (∀ e, e ≠ d.val → e < 12 → t.dieOnline e = s.dieOnline e ∧ t.dieCtl e = s.dieCtl e) ∧
      s.Only [.regs, .core, .die, .tvx] t) ∧
  (∀ (n w : Ix16) (k : Nat) (s : State), s.home.sweeps = [⟨.dirWay n w, k⟩] → s.home.locks = [] → s.home.dir = [] →
    Completes (.recallWalkEntry (.dirWay n w)) s fun t =>
      t.home = { s.home with sweeps := [] } ∧ t.get (R.HOME_DIR_STATUS_WAY_RECALLING n) = 0 ∧
      s.OnlyFields [R.HOME_DIR_STATUS_WAY_RECALLING n] t ∧ s.Only [.regs, .home] t) ∧
  (∀ (n w : Ix16) (k l : Nat) (s : State), s.home.sweeps = [⟨.dirWay n w, k⟩] → s.home.locks = [] ∧ s.home.pxWb = [] →
    (s.walkLines k (.dirWay n w)).head? = some l → Completes (.recallWalkEntry (.dirWay n w)) s fun t =>
      (t.lock n 0).map (fun x => (x.line, x.work)) = some (l, HWork.walk) ∧ t.home.sweeps = s.home.sweeps ∧
      s.Only [.regs, .mem, .marked, .net, .free, .core, .home, .pass, .chan, .mesa, .meter, .qos, .ras, .tvx] t)

/-- An allocation operation sets the capacity mask, or the bandwidth, of one RCID and of no other; one that would reserve
more than MRBWB changes nothing (spec/09 R219, R220); a read returns what was set; a monitoring operation selects the
event and starts the counter at 0, one with an event that the controller does not count is refused, and a read returns
the bytes counted, or the entries now charged to the MCID (R219); the controller of an offline die answers none of
them (spec/01 R35); an epoch takes the allocations into force, issues the reserved tokens up to twice an epoch's,
clears what was drawn and forms the shared pool from the rest (R220, R222); a capacity controller has no epochs. The
status codes and the event numbers are the model's, from the CBQRI specification (PRESUMED, notes/assumptions/8.md),
as is the bandwidth that RCID 0 has at reset. -/
def Obligations.PartitioningOperations : Prop :=
  (∀ (k : QosCtl) (i : Fin 1024) (v : Word) (s : State), s.qosHere k = true → qosIsCap k = true →
    Completes (.cbqriAllocConfig k i v) s fun t =>
      t.capMask (qosCode k) i = v.toNat % 2 ^ 16 ∧
      (∀ c r : Nat, r < 1024 → ¬(c = qosCode k ∧ r = i) → t.capMask c r = s.capMask c r) ∧
      Tbl.get (fun _ => 0) t.qos.status (qosCode k * 2 + 0) = 1 ∧
      Tbl.get (fun _ => 0) t.qos.result (qosCode k * 2 + 0) = 0 ∧
      (∀ j, j ≠ qosCode k * 2 + 0 → Tbl.get (fun _ => 0) t.qos.status j = Tbl.get (fun _ => 0) s.qos.status j ∧ Tbl.get (fun
        _ => 0) t.qos.result j = Tbl.get (fun _ => 0) s.qos.result j) ∧
      t.qos = { s.qos with cap := t.qos.cap, status := t.qos.status, result := t.qos.result } ∧ s.Only [.qos] t) ∧
  (∀ (k : QosCtl) (i : Fin 1024) (v : Word) (s : State), s.qosHere k = true → qosIsCap k = false →
    s.rbwbSum (qosCode k) - (s.bwOf (qosCode k) i).1 + v.toNat % 2 ^ 16 ≤ 900 →
    Completes (.cbqriAllocConfig k i v) s fun t =>
      t.bwOf (qosCode k) i = (v.toNat % 2 ^ 16, bits v.toNat 20 8) ∧
      (∀ c r : Nat, r < 1024 → ¬(c = qosCode k ∧ r = i) → t.bwOf c r = s.bwOf c r) ∧
      Tbl.get (fun _ => 0) t.qos.status (qosCode k * 2 + 0) = 1 ∧
      Tbl.get (fun _ => 0) t.qos.result (qosCode k * 2 + 0) = 0 ∧
      (∀ j, j ≠ qosCode k * 2 + 0 → Tbl.get (fun _ => 0) t.qos.status j = Tbl.get (fun _ => 0) s.qos.status j ∧ Tbl.get (fun
        _ => 0) t.qos.result j = Tbl.get (fun _ => 0) s.qos.result j) ∧
      t.qos = { s.qos with bw := t.qos.bw, status := t.qos.status, result := t.qos.result } ∧ s.Only [.qos] t) ∧
  (∀ (k : QosCtl) (i : Fin 1024) (v : Word) (s : State), s.qosHere k = true → qosIsCap k = false →
    900 < s.rbwbSum (qosCode k) - (s.bwOf (qosCode k) i).1 + v.toNat % 2 ^ 16 →
    Completes (.cbqriAllocConfig k i v) s fun t =>
      Tbl.get (fun _ => 0) t.qos.status (qosCode k * 2 + 0) = 5 ∧
      Tbl.get (fun _ => 0) t.qos.result (qosCode k * 2 + 0) = 0 ∧
      (∀ j, j ≠ qosCode k * 2 + 0 → Tbl.get (fun _ => 0) t.qos.status j = Tbl.get (fun _ => 0) s.qos.status j ∧ Tbl.get (fun
        _ => 0) t.qos.result j = Tbl.get (fun _ => 0) s.qos.result j) ∧
      t.qos = { s.qos with status := t.qos.status, result := t.qos.result } ∧ s.Only [.qos] t) ∧
  (∀ (k : QosCtl) (i : Fin 1024) (s : State), s.qosHere k = true → qosIsCap k = true →
    Completes (.cbqriAllocRead k i) s fun t =>
      Tbl.get (fun _ => 0) t.qos.status (qosCode k * 2 + 0) = 1 ∧
      Tbl.get (fun _ => 0) t.qos.result (qosCode k * 2 + 0) = s.capMask (qosCode k) i ∧
      (∀ j, j ≠ qosCode k * 2 + 0 → Tbl.get (fun _ => 0) t.qos.status j = Tbl.get (fun _ => 0) s.qos.status j ∧ Tbl.get (fun
        _ => 0) t.qos.result j = Tbl.get (fun _ => 0) s.qos.result j) ∧
      t.qos = { s.qos with status := t.qos.status, result := t.qos.result } ∧ s.Only [.qos] t) ∧
  (∀ (k : QosCtl) (i : Fin 1024) (s : State), s.qosHere k = true → qosIsCap k = false →
    Completes (.cbqriAllocRead k i) s fun t =>
      Tbl.get (fun _ => 0) t.qos.status (qosCode k * 2 + 0) = 1 ∧
      Tbl.get (fun _ => 0) t.qos.result (qosCode k * 2 + 0) = (s.bwOf (qosCode k) i).1 + (s.bwOf (qosCode k) i).2 <<< 20 ∧
      (∀ j, j ≠ qosCode k * 2 + 0 → Tbl.get (fun _ => 0) t.qos.status j = Tbl.get (fun _ => 0) s.qos.status j ∧ Tbl.get (fun
        _ => 0) t.qos.result j = Tbl.get (fun _ => 0) s.qos.result j) ∧
      t.qos = { s.qos with status := t.qos.status, result := t.qos.result } ∧ s.Only [.qos] t) ∧
  (∀ (k : QosCtl) (i : Fin 1024) (ev : Nat) (s : State), s.qosHere k = true → 1 ≤ ev ∧ ev ≤ (if qosIsCap k then 1 else 3) →
    Completes (.cbqriMonitorConfig k i ev) s fun t =>
      Tbl.get (fun _ => 0) t.qos.monEv (qosCode k * 1024 + i) = ev ∧
      Tbl.get (fun _ => 0) t.qos.mon (qosCode k * 1024 + i) = 0 ∧
      (∀ j, j ≠ qosCode k * 1024 + i → Tbl.get (fun _ => 0) t.qos.monEv j = Tbl.get (fun _ => 0) s.qos.monEv j ∧ Tbl.get
        (fun _ => 0) t.qos.mon j = Tbl.get (fun _ => 0) s.qos.mon j) ∧
      Tbl.get (fun _ => 0) t.qos.status (qosCode k * 2 + 1) = 1 ∧
      Tbl.get (fun _ => 0) t.qos.result (qosCode k * 2 + 1) = 0 ∧
      (∀ j, j ≠ qosCode k * 2 + 1 → Tbl.get (fun _ => 0) t.qos.status j = Tbl.get (fun _ => 0) s.qos.status j ∧ Tbl.get (fun
        _ => 0) t.qos.result j = Tbl.get (fun _ => 0) s.qos.result j) ∧
      t.qos = { s.qos with mon := t.qos.mon, monEv := t.qos.monEv, status := t.qos.status, result := t.qos.result } ∧
      s.Only [.qos] t) ∧
  (∀ (k : QosCtl) (i : Fin 1024) (s : State), s.qosHere k = true → Completes (.cbqriMonitorConfig k i 0) s fun t =>
      Tbl.get (fun _ => 0) t.qos.monEv (qosCode k * 1024 + i) = 0 ∧
      (∀ j, j ≠ qosCode k * 1024 + i → Tbl.get (fun _ => 0) t.qos.monEv j = Tbl.get (fun _ => 0) s.qos.monEv j ∧ Tbl.get
        (fun _ => 0) t.qos.mon j = Tbl.get (fun _ => 0) s.qos.mon j) ∧
      Tbl.get (fun _ => 0) t.qos.status (qosCode k * 2 + 1) = 1 ∧
      Tbl.get (fun _ => 0) t.qos.result (qosCode k * 2 + 1) = 0 ∧
      (∀ j, j ≠ qosCode k * 2 + 1 → Tbl.get (fun _ => 0) t.qos.status j = Tbl.get (fun _ => 0) s.qos.status j ∧ Tbl.get (fun
        _ => 0) t.qos.result j = Tbl.get (fun _ => 0) s.qos.result j) ∧
      t.qos = { s.qos with monEv := t.qos.monEv, status := t.qos.status, result := t.qos.result } ∧ s.Only [.qos] t) ∧
  (∀ (k : QosCtl) (i : Fin 1024) (ev : Nat) (s : State), s.qosHere k = true → (if qosIsCap k then 1 else 3) < ev →
    Completes (.cbqriMonitorConfig k i ev) s fun t =>
      Tbl.get (fun _ => 0) t.qos.status (qosCode k * 2 + 1) = 4 ∧
      Tbl.get (fun _ => 0) t.qos.result (qosCode k * 2 + 1) = 0 ∧
      (∀ j, j ≠ qosCode k * 2 + 1 → Tbl.get (fun _ => 0) t.qos.status j = Tbl.get (fun _ => 0) s.qos.status j ∧ Tbl.get (fun
        _ => 0) t.qos.result j = Tbl.get (fun _ => 0) s.qos.result j) ∧
      t.qos = { s.qos with status := t.qos.status, result := t.qos.result } ∧ s.Only [.qos] t) ∧
  (∀ (c : Ix16) (i : Fin 1024) (s : State), Completes (.cbqriMonitorRead (.mc c) i) s fun t =>
      Tbl.get (fun _ => 0) t.qos.status ((16 + (c : Nat)) * 2 + 1) = 1 ∧
      Tbl.get (fun _ => 0) t.qos.result ((16 + (c : Nat)) * 2 + 1) = Tbl.get (fun _ => 0) s.qos.mon ((16 + (c : Nat)) * 1024
        + i) ∧
      (∀ j, j ≠ (16 + (c : Nat)) * 2 + 1 → Tbl.get (fun _ => 0) t.qos.status j = Tbl.get (fun _ => 0) s.qos.status j ∧
        Tbl.get (fun _ => 0) t.qos.result j = Tbl.get (fun _ => 0) s.qos.result j) ∧
      t.qos = { s.qos with status := t.qos.status, result := t.qos.result } ∧ s.Only [.qos] t) ∧
  (∀ (p : HPort) (i : Fin 1024) (s : State), Completes (.cbqriMonitorRead (.hzn p) i) s fun t =>
      Tbl.get (fun _ => 0) t.qos.status ((32 + (p : Nat)) * 2 + 1) = 1 ∧
      Tbl.get (fun _ => 0) t.qos.result ((32 + (p : Nat)) * 2 + 1) = Tbl.get (fun _ => 0) s.qos.mon ((32 + (p : Nat)) * 1024
        + i) ∧
      (∀ j, j ≠ (32 + (p : Nat)) * 2 + 1 → Tbl.get (fun _ => 0) t.qos.status j = Tbl.get (fun _ => 0) s.qos.status j ∧
        Tbl.get (fun _ => 0) t.qos.result j = Tbl.get (fun _ => 0) s.qos.result j) ∧
      t.qos = { s.qos with status := t.qos.status, result := t.qos.result } ∧ s.Only [.qos] t) ∧
  (∀ (d : Die) (i : Fin 1024) (s : State), s.dieOnline d = true → Tbl.get (fun _ => 0) s.qos.monEv (d * 1024 + i) = 1 →
    Completes (.cbqriMonitorRead (.vc d) i) s fun t =>
      Tbl.get (fun _ => 0) t.qos.status ((d : Nat) * 2 + 1) = 1 ∧
      Tbl.get (fun _ => 0) t.qos.result ((d : Nat) * 2 + 1) = Tbl.countIn s.die.vc (d * 2 ^ 20) ((d + 1) * 2 ^ 20) (fun e =>
        e.valid && e.mcid == (i : Nat)) ∧
      (∀ j, j ≠ (d : Nat) * 2 + 1 → Tbl.get (fun _ => 0) t.qos.status j = Tbl.get (fun _ => 0) s.qos.status j ∧ Tbl.get (fun
        _ => 0) t.qos.result j = Tbl.get (fun _ => 0) s.qos.result j) ∧
      t.qos = { s.qos with status := t.qos.status, result := t.qos.result } ∧ s.Only [.qos] t) ∧
  (∀ (i : Fin 1024) (s : State), Tbl.get (fun _ => 0) s.qos.monEv (12 * 1024 + i) = 1 →
    Completes (.cbqriMonitorRead .mesa i) s fun t =>
      Tbl.get (fun _ => 0) t.qos.status (12 * 2 + 1) = 1 ∧
      Tbl.get (fun _ => 0) t.qos.result (12 * 2 + 1) = s.mesaOccupancy i ∧
      (∀ j, j ≠ 12 * 2 + 1 → Tbl.get (fun _ => 0) t.qos.status j = Tbl.get (fun _ => 0) s.qos.status j ∧ Tbl.get (fun _ =>
        0) t.qos.result j = Tbl.get (fun _ => 0) s.qos.result j) ∧
      t.qos = { s.qos with status := t.qos.status, result := t.qos.result } ∧ s.Only [.qos] t) ∧
  (∀ (k : QosCtl) (i : Fin 1024) (v : Word) (s : State), s.qosHere k = false → Completes (.cbqriAllocConfig k i v) s fun t =>
      s.Only [] t) ∧
  (∀ (k : QosCtl) (i : Fin 1024) (s : State), s.qosHere k = false → Completes (.cbqriAllocRead k i) s fun t =>
      s.Only [] t) ∧
  (∀ (k : QosCtl) (i : Fin 1024) (ev : Nat) (s : State), s.qosHere k = false →
    Completes (.cbqriMonitorConfig k i ev) s fun t =>
      s.Only [] t) ∧
  (∀ (k : QosCtl) (i : Fin 1024) (s : State), s.qosHere k = false → Completes (.cbqriMonitorRead k i) s fun t =>
      s.Only [] t) ∧
  (∀ (k : QosCtl) (s : State), qosIsCap k = false → s.home.chHeld = [] → Completes (.bwEpoch k) s fun t =>
      t.pool (qosCode k) = 1000 * s.epochBytes k - s.rbwbSum (qosCode k) * s.epochBytes k ∧
      (∀ r < 1024, t.bal (qosCode k) r = min (s.bal (qosCode k) r + (s.bwOf (qosCode k) r).1 * s.epochBytes k) (2 * ((s.bwOf
        (qosCode k) r).1 * s.epochBytes k))) ∧
      (∀ r < 1024, t.drawn (qosCode k) r = 0) ∧
      (Tbl.wf bwDefault s.qos.bw = true → ∀ r < 1024, t.bwNow (qosCode k) r = s.bwOf (qosCode k) r) ∧
      (∀ c r : Nat, r < 1024 → c ≠ qosCode k → t.bal c r = s.bal c r ∧ t.drawn c r = s.drawn c r ∧ t.bwNow c r = s.bwNow c r
        ∧ t.pool c = s.pool c) ∧
      t.qos = { s.qos with
        bwNow := t.qos.bwNow, bal := t.qos.bal, pool := t.qos.pool, drawn := t.qos.drawn, waited := t.qos.waited } ∧
      s.Only [.qos] t) ∧
  (∀ (k : QosCtl) (s : State), qosIsCap k = true → Completes (.bwEpoch k) s fun t =>
      s.Only [] t) ∧
  (∀ (p : HPort) (i : Fin 1024) (r w : Nat) (s : State),
    s.qos.bw = [((32 + (p : Nat)) * 1024 + i, (r, w))] ∧ s.qos.bal = [] ∧ s.qos.bwNow = [] ∧ i ≠ 0 → 0 < r ∧ r ≤ 900 →
    s.home.chHeld = [] ∧ s.hznWaiters p = [] ∧ s.qos.waited = [] → Completes (.bwEpoch (.hzn p)) s fun t =>
      t.bwNow (32 + (p : Nat)) i = (r, w) ∧ t.bal (32 + (p : Nat)) i = r * 2000 ∧ t.bal (32 + (p : Nat)) 0 = 900 * 2000 ∧
      t.pool (32 + (p : Nat)) = (1000 - (900 + r)) * 2000 ∧ t.qos.waited = [] ∧ s.Only [.qos] t)

/-- Invalidate-all empties the tags and the victim cache of its slice, cancels its extra reads and lets its waiting reads
install nothing; it ends with INV_DONE, ENABLED again, or BYPASS where level 3 asked for it, and reports a drained
region offline once no slice runs one (spec/08 R205, R207, R212); in BYPASS it only counts. A way that is disabled
leaves service empty, fills planned into it install nothing, and one that is enabled returns empty unless it is
retired (R210); VC_DISABLE empties the victim cache (R202). A slice takes the level that its Basin sensor gives
(spec/17 R389): a change below 3 is reported, level 3 invalidates first, and leaving BYPASS powers up the data array
before the slice allocates (R211, R212). That a level is left 3 °C below its entry, and that the command carries the
sensor's temperature, are the model's choice (notes/assumptions/58.md). -/
def Obligations.MesaCommands : Prop :=
  (∀ (n : Ix16) (s : State), s.get (R.MESA_STATUS_STATE n) = mesaENABLED → Completes (.mesaInvalidateAll n) s fun t =>
      t.get (R.MESA_STATUS_STATE n) = mesaINVALIDATING ∧ t.vict n = [] ∧ t.extra n = [] ∧ t.mesaPowering n = false ∧
      (∀ set w, set < 4096 → w < 16 → t.sec n set w = {}) ∧
      (∀ m set w, m ≠ n.val → set < 4096 → w < 16 → t.sec m set w = s.sec m set w) ∧
      (∀ h < 512, t.lock n h = (s.lock n h).map (fun x => { x with alloc := false })) ∧
      (∀ m h, m ≠ n.val → h < 512 → t.lock m h = s.lock m h) ∧ t.home = { s.home with locks := t.home.locks } ∧
      t.mesa = { s.mesa with
        tags := t.mesa.tags, plru := t.mesa.plru, data := t.mesa.data, vict := t.mesa.vict, extra := t.mesa.extra,
          powering := t.mesa.powering, drain := t.mesa.drain } ∧
      s.OnlyFields [R.MESA_STATUS_STATE n, R.MESA_FILL_STATS_EXTRA_CANCELLED n] t ∧ s.Only [.regs, .home, .mesa] t) ∧
  (∀ (n : Ix16) (s : State), s.get (R.MESA_STATUS_STATE n) = mesaBYPASS → Completes (.mesaInvalidateAll n) s fun t =>
      t.get (R.MESA_STATUS_INV_COUNT n) = satAdd (R.MESA_STATUS_INV_COUNT n).w (s.get (R.MESA_STATUS_INV_COUNT n)) 1 ∧
      t.get (R.MESA_EVENT_INV_DONE n) = 1 ∧ s.OnlyFields [R.MESA_STATUS_INV_COUNT n, R.MESA_EVENT_INV_DONE n] t ∧
      s.Only [.regs] t) ∧
  (∀ (n : Ix16) (s : State), s.get (R.MESA_STATUS_STATE n) = mesaINVALIDATING → Completes (.mesaInvalidateAll n) s fun t =>
      s.Only [] t) ∧
  (∀ (n : Ix16) (s : State), s.get (R.MESA_STATUS_STATE n) = mesaINVALIDATING → s.mesaDrained n = true →
    s.mesaBypass n = false → s.mesa.offPorts = [] → Completes (.mesaInvComplete n) s fun t =>
      t.get (R.MESA_STATUS_STATE n) = mesaENABLED ∧
      t.get (R.MESA_STATUS_INV_COUNT n) = satAdd (R.MESA_STATUS_INV_COUNT n).w (s.get (R.MESA_STATUS_INV_COUNT n)) 1 ∧
      t.get (R.MESA_EVENT_INV_DONE n) = 1 ∧ t.mesa = { s.mesa with drain := t.mesa.drain } ∧
      s.OnlyFields [R.MESA_STATUS_STATE n, R.MESA_STATUS_INV_COUNT n, R.MESA_EVENT_INV_DONE n] t ∧ s.Only [.regs, .mesa] t) ∧
  (∀ (n : Ix16) (s : State), s.get (R.MESA_STATUS_STATE n) = mesaINVALIDATING → s.mesaDrained n = true →
    s.mesaBypass n = true → s.mesa.offPorts = [] → Completes (.mesaInvComplete n) s fun t =>
      t.get (R.MESA_STATUS_STATE n) = mesaBYPASS ∧
      t.get (R.MESA_STATUS_INV_COUNT n) = satAdd (R.MESA_STATUS_INV_COUNT n).w (s.get (R.MESA_STATUS_INV_COUNT n)) 1 ∧
      t.get (R.MESA_EVENT_INV_DONE n) = 1 ∧ t.mesaBypass n = false ∧
      t.mesa = { s.mesa with drain := t.mesa.drain, bypass := t.mesa.bypass } ∧
      s.OnlyFields [R.MESA_STATUS_STATE n, R.MESA_STATUS_INV_COUNT n, R.MESA_EVENT_INV_DONE n] t ∧ s.Only [.regs, .mesa] t) ∧
  (∀ (n i : Ix16) (s : State), s.get (R.MESA_STATUS_STATE n) = mesaINVALIDATING → s.mesaDrained n = true →
    s.mesaBypass n = false → s.mesa.offPorts = [i.val] →
    (∀ m : Ix16, m ≠ n → s.get (R.MESA_STATUS_STATE m) ≠ mesaINVALIDATING) → Completes (.mesaInvComplete n) s fun t =>
      t.get (R.MESA_STATUS_STATE n) = mesaENABLED ∧
      t.get (R.MESA_STATUS_INV_COUNT n) = satAdd (R.MESA_STATUS_INV_COUNT n).w (s.get (R.MESA_STATUS_INV_COUNT n)) 1 ∧
      t.get (R.MESA_EVENT_INV_DONE n) = 1 ∧
      t.get (R.RPRT_STATUS_REGION_STATE i) = regionOFFLINE ∧ t.get (R.RPRT_EVENT_REGION_OFFLINE i) = 1 ∧
      t.mesa.offPorts = [] ∧ t.mesa = { s.mesa with drain := t.mesa.drain, offPorts := t.mesa.offPorts } ∧
      s.OnlyFields [R.MESA_STATUS_STATE n, R.MESA_STATUS_INV_COUNT n, R.MESA_EVENT_INV_DONE n, R.RPRT_STATUS_REGION_STATE i,
        R.RPRT_EVENT_REGION_OFFLINE i] t ∧
      s.Only [.regs, .mesa] t) ∧
  (∀ (n : Ix16) (s : State), (s.mesaDrained n = false ∨ s.get (R.MESA_STATUS_STATE n) ≠ mesaINVALIDATING) →
    Completes (.mesaInvComplete n) s fun t =>
      s.Only [] t) ∧
  (∀ (n w : Ix16) (s : State), (s.get (R.MESA_WAY_STATUS_WAYS_DISABLED n)).testBit w = false →
    Completes (.mesaWayDisable n w) s fun t =>
      (t.get (R.MESA_WAY_CTL_WAY_DISABLE n)).testBit w = true ∧
      (t.get (R.MESA_WAY_STATUS_WAYS_DISABLED n)).testBit w = true ∧
      (∀ v : Ix16, v ≠ w → (t.get (R.MESA_WAY_STATUS_WAYS_DISABLED n)).testBit v = (s.get (R.MESA_WAY_STATUS_WAYS_DISABLED
        n)).testBit v ∧ (t.get (R.MESA_WAY_CTL_WAY_DISABLE n)).testBit v = (s.get (R.MESA_WAY_CTL_WAY_DISABLE
        n)).testBit v) ∧
      t.get (R.MESA_STATUS_WAYS_ENABLED n) = 16 - popCount 16 (t.get (R.MESA_WAY_STATUS_WAYS_DISABLED n)) ∧
      (∀ set < 4096, t.sec n set w = {}) ∧
      (∀ m set v, ¬ (m = n.val ∧ v = w.val) → set < 4096 → v < 16 → t.sec m set v = s.sec m set v) ∧
      (∀ h x, h < 512 → s.lock n h = some x → t.lock n h = some (if x.phase = .memory ∧ x.way = some w.val then
        { x with alloc := false } else x)) ∧
      t.home = { s.home with locks := t.home.locks } ∧ t.mesa = { s.mesa with tags := t.mesa.tags, extra := t.mesa.extra } ∧
      (t.get (R.MESA_STATUS_WAYS_ENABLED n) ≠ 8 ∧ t.get (R.MESA_STATUS_WAYS_ENABLED n) ≠ 4 → t.tvx = s.tvx) ∧
      s.OnlyFields (R.MESA_WAY_CTL_WAY_DISABLE n :: R.MESA_WAY_STATUS_WAYS_DISABLED n :: R.MESA_STATUS_WAYS_ENABLED n ::
        R.MESA_FILL_STATS_EXTRA_CANCELLED n :: reportFields) t ∧
      s.Only [.regs, .home, .mesa, .tvx] t) ∧
  (∀ (n w : Ix16) (s : State), (s.get (R.MESA_WAY_STATUS_WAYS_DISABLED n)).testBit w = true →
    Completes (.mesaWayDisable n w) s fun t =>
      (t.get (R.MESA_WAY_CTL_WAY_DISABLE n)).testBit w = true ∧
      (∀ v : Ix16, v ≠ w → (t.get (R.MESA_WAY_CTL_WAY_DISABLE n)).testBit v = (s.get (R.MESA_WAY_CTL_WAY_DISABLE n)).testBit
        v) ∧
      s.OnlyFields [R.MESA_WAY_CTL_WAY_DISABLE n] t ∧ s.Only [.regs] t) ∧
  (∀ (n w : Ix16) (s : State), (s.get (R.MESA_WAY_STATUS_WAYS_RETIRED n)).testBit w = false →
    Completes (.mesaWayEnable n w) s fun t =>
      (t.get (R.MESA_WAY_CTL_WAY_DISABLE n)).testBit w = false ∧
      (t.get (R.MESA_WAY_STATUS_WAYS_DISABLED n)).testBit w = false ∧
      (∀ v : Ix16, v ≠ w → (t.get (R.MESA_WAY_STATUS_WAYS_DISABLED n)).testBit v = (s.get (R.MESA_WAY_STATUS_WAYS_DISABLED
        n)).testBit v ∧ (t.get (R.MESA_WAY_CTL_WAY_DISABLE n)).testBit v = (s.get (R.MESA_WAY_CTL_WAY_DISABLE
        n)).testBit v) ∧
      t.get (R.MESA_STATUS_WAYS_ENABLED n) = 16 - popCount 16 (t.get (R.MESA_WAY_STATUS_WAYS_DISABLED n)) ∧
      (∀ set < 4096, t.sec n set w = {}) ∧
      (∀ m set v, ¬ (m = n.val ∧ v = w.val) → set < 4096 → v < 16 → t.sec m set v = s.sec m set v) ∧
      t.mesa = { s.mesa with tags := t.mesa.tags } ∧
      s.OnlyFields [R.MESA_WAY_CTL_WAY_DISABLE n, R.MESA_WAY_STATUS_WAYS_DISABLED n, R.MESA_STATUS_WAYS_ENABLED n] t ∧
      s.Only [.regs, .mesa] t) ∧
  (∀ (n w : Ix16) (s : State), (s.get (R.MESA_WAY_STATUS_WAYS_RETIRED n)).testBit w = true →
    Completes (.mesaWayEnable n w) s fun t =>
      s.Only [] t) ∧
  (∀ (n : Ix16) (on : Bool) (s : State), Completes (.vcDisableWrite n on) s fun t =>
      t.vict n = [] ∧ (∀ m, m ≠ n.val → t.vict m = s.vict m) ∧ t.get (R.MESA_CTL_VC_DISABLE n) = b2n on ∧
      t.get (R.MESA_STATUS_VC_ENABLED n) = (if on = false ∧ s.get (R.MESA_WAY_STATUS_VC_RETIRED n) = 0 then 1 else 0) ∧
      t.mesa = { s.mesa with vict := t.mesa.vict, extra := t.mesa.extra } ∧
      s.OnlyFields [R.MESA_CTL_VC_DISABLE n, R.MESA_STATUS_VC_ENABLED n, R.MESA_FILL_STATS_EXTRA_CANCELLED n] t ∧
      s.Only [.regs, .mesa] t) ∧
  (∀ (n : Ix16) (u : Int) (s : State), s.localLevel n u = s.get (R.MESA_STATUS_THROTTLE n) →
    Completes (.mesaThrottleChange n u) s fun t =>
      Tbl.get (fun _ => 0) t.pwr.floor n = throttleAt localEntry (Tbl.get (fun _ => 0) s.pwr.floor n) u ∧
      t.pwr = { s.pwr with floor := t.pwr.floor } ∧
      (∀ m, m ≠ n.val → Tbl.get (fun _ => 0) t.pwr.floor m = Tbl.get (fun _ => 0) s.pwr.floor m) ∧ s.Only [.pwr] t) ∧
  (∀ (n : Ix16) (u : Int) (s : State),
    s.localLevel n u < 3 ∧ s.get (R.MESA_STATUS_THROTTLE n) < 3 ∧ s.localLevel n u ≠ s.get (R.MESA_STATUS_THROTTLE n) →
    Completes (.mesaThrottleChange n u) s fun t =>
      t.get (R.MESA_STATUS_THROTTLE n) = s.localLevel n u ∧ t.get ⟨R.rPWR_MESA_LEVEL, 2 * n, 2⟩ = s.localLevel n u ∧
      t.get (R.MESA_EVENT_THROTTLED n) = (if s.get (R.MESA_STATUS_THROTTLE n) < s.localLevel n u then 1 else s.get
        (R.MESA_EVENT_THROTTLED n)) ∧
      Tbl.get (fun _ => 0) t.pwr.floor n = throttleAt localEntry (Tbl.get (fun _ => 0) s.pwr.floor n) u ∧
      t.pwr = { s.pwr with floor := t.pwr.floor } ∧
      (∀ m, m ≠ n.val → Tbl.get (fun _ => 0) t.pwr.floor m = Tbl.get (fun _ => 0) s.pwr.floor m) ∧
      s.OnlyFields [R.MESA_STATUS_THROTTLE n, ⟨R.rPWR_MESA_LEVEL, 2 * n, 2⟩, R.MESA_EVENT_THROTTLED n] t ∧
      s.Only [.regs, .pwr] t) ∧
  (∀ (n : Ix16) (u : Int) (s : State), s.get (R.MESA_STATUS_STATE n) = mesaENABLED →
    s.get (R.MESA_STATUS_THROTTLE n) < 3 ∧ s.localLevel n u = 3 → Completes (.mesaThrottleChange n u) s fun t =>
      t.get (R.MESA_STATUS_THROTTLE n) = s.localLevel n u ∧ t.get ⟨R.rPWR_MESA_LEVEL, 2 * n, 2⟩ = s.localLevel n u ∧
      t.get (R.MESA_EVENT_THROTTLED n) = (if s.get (R.MESA_STATUS_THROTTLE n) < s.localLevel n u then 1 else s.get
        (R.MESA_EVENT_THROTTLED n)) ∧
      Tbl.get (fun _ => 0) t.pwr.floor n = throttleAt localEntry (Tbl.get (fun _ => 0) s.pwr.floor n) u ∧
      t.pwr = { s.pwr with floor := t.pwr.floor } ∧
      (∀ m, m ≠ n.val → Tbl.get (fun _ => 0) t.pwr.floor m = Tbl.get (fun _ => 0) s.pwr.floor m) ∧
      t.get (R.MESA_STATUS_STATE n) = mesaINVALIDATING ∧ t.vict n = [] ∧ t.extra n = [] ∧ t.mesaPowering n = false ∧
      (∀ set w, set < 4096 → w < 16 → t.sec n set w = {}) ∧
      (∀ m set w, m ≠ n.val → set < 4096 → w < 16 → t.sec m set w = s.sec m set w) ∧
      (∀ h < 512, t.lock n h = (s.lock n h).map (fun x => { x with alloc := false })) ∧
      (∀ m h, m ≠ n.val → h < 512 → t.lock m h = s.lock m h) ∧ t.home = { s.home with locks := t.home.locks } ∧
      t.mesaBypass n = true ∧
      t.mesa = { s.mesa with
        tags := t.mesa.tags, plru := t.mesa.plru, data := t.mesa.data, vict := t.mesa.vict, extra := t.mesa.extra,
          powering := t.mesa.powering, drain := t.mesa.drain, bypass := t.mesa.bypass } ∧
      s.OnlyFields [R.MESA_STATUS_THROTTLE n, ⟨R.rPWR_MESA_LEVEL, 2 * n, 2⟩, R.MESA_EVENT_THROTTLED n, R.MESA_STATUS_STATE
        n, R.MESA_FILL_STATS_EXTRA_CANCELLED n] t ∧
      s.Only [.regs, .home, .mesa, .pwr] t) ∧
  (∀ (n : Ix16) (u : Int) (s : State), s.get (R.MESA_STATUS_STATE n) = mesaINVALIDATING →
    s.get (R.MESA_STATUS_THROTTLE n) < 3 ∧ s.localLevel n u = 3 → Completes (.mesaThrottleChange n u) s fun t =>
      t.get (R.MESA_STATUS_THROTTLE n) = s.localLevel n u ∧ t.get ⟨R.rPWR_MESA_LEVEL, 2 * n, 2⟩ = s.localLevel n u ∧
      t.get (R.MESA_EVENT_THROTTLED n) = (if s.get (R.MESA_STATUS_THROTTLE n) < s.localLevel n u then 1 else s.get
        (R.MESA_EVENT_THROTTLED n)) ∧
      Tbl.get (fun _ => 0) t.pwr.floor n = throttleAt localEntry (Tbl.get (fun _ => 0) s.pwr.floor n) u ∧
      t.pwr = { s.pwr with floor := t.pwr.floor } ∧
      (∀ m, m ≠ n.val → Tbl.get (fun _ => 0) t.pwr.floor m = Tbl.get (fun _ => 0) s.pwr.floor m) ∧ t.mesaBypass n = true ∧
      t.mesa = { s.mesa with bypass := t.mesa.bypass } ∧
      s.OnlyFields [R.MESA_STATUS_THROTTLE n, ⟨R.rPWR_MESA_LEVEL, 2 * n, 2⟩, R.MESA_EVENT_THROTTLED n] t ∧
      s.Only [.regs, .mesa, .pwr] t) ∧
  (∀ (n : Ix16) (u : Int) (s : State), s.get (R.MESA_STATUS_THROTTLE n) = 3 ∧ s.localLevel n u < 3 →
    s.get (R.MESA_STATUS_STATE n) = mesaBYPASS → Completes (.mesaThrottleChange n u) s fun t =>
      t.get (R.MESA_STATUS_THROTTLE n) = s.localLevel n u ∧ t.get ⟨R.rPWR_MESA_LEVEL, 2 * n, 2⟩ = s.localLevel n u ∧
      Tbl.get (fun _ => 0) t.pwr.floor n = throttleAt localEntry (Tbl.get (fun _ => 0) s.pwr.floor n) u ∧
      t.pwr = { s.pwr with floor := t.pwr.floor } ∧
      (∀ m, m ≠ n.val → Tbl.get (fun _ => 0) t.pwr.floor m = Tbl.get (fun _ => 0) s.pwr.floor m) ∧
      t.get (R.MESA_STATUS_STATE n) = mesaENABLED ∧ t.mesaPowering n = true ∧
      t.mesa = { s.mesa with powering := t.mesa.powering } ∧
      s.OnlyFields [R.MESA_STATUS_THROTTLE n, ⟨R.rPWR_MESA_LEVEL, 2 * n, 2⟩, R.MESA_STATUS_STATE n] t ∧
      s.Only [.regs, .mesa, .pwr] t) ∧
  (∀ (n : Ix16) (u : Int) (s : State), s.get (R.MESA_STATUS_THROTTLE n) = 3 ∧ s.localLevel n u < 3 →
    s.get (R.MESA_STATUS_STATE n) ≠ mesaBYPASS → Completes (.mesaThrottleChange n u) s fun t =>
      t.get (R.MESA_STATUS_THROTTLE n) = s.localLevel n u ∧ t.get ⟨R.rPWR_MESA_LEVEL, 2 * n, 2⟩ = s.localLevel n u ∧
      Tbl.get (fun _ => 0) t.pwr.floor n = throttleAt localEntry (Tbl.get (fun _ => 0) s.pwr.floor n) u ∧
      t.pwr = { s.pwr with floor := t.pwr.floor } ∧
      (∀ m, m ≠ n.val → Tbl.get (fun _ => 0) t.pwr.floor m = Tbl.get (fun _ => 0) s.pwr.floor m) ∧ t.mesaBypass n = false ∧
      t.mesa = { s.mesa with bypass := t.mesa.bypass } ∧
      s.OnlyFields [R.MESA_STATUS_THROTTLE n, ⟨R.rPWR_MESA_LEVEL, 2 * n, 2⟩] t ∧ s.Only [.regs, .mesa, .pwr] t) ∧
  (∀ (n : Ix16) (s : State), Completes (.mesaBypassExitReady n) s fun t =>
      t.mesaPowering n = false ∧ (∀ m, m ≠ n.val → t.mesaPowering m = s.mesaPowering m) ∧
      t.mesa = { s.mesa with powering := t.mesa.powering } ∧ s.Only [.mesa] t)

/-- The end of training adopts the channel mode that the populated and failing channels allow, gives each populated
channel its rate and capacity, and its active channels are filled; with no mode allowed start-up stops (spec/07 R172,
R174); a fill leaves every channel that it did not fail on active, with its ordinal, those that failed FAILED or
SPARE_FAILED, and every byte of DRAM zero (R180 to R182); that of SANITISE_DEVICE goes on to its verify pass (R187). A
link error is recorded and charges its bucket; a permanent fault starts a retrain, in the state that the channel's
role gives, and takes a spare out (R178, R184). A retrain that is complete returns the channel to its state before,
lets held writes and a held copy start go on; one that fails is tried again, and the third failure in a row is final:
FAILED, or the end of a copy (R179, R184, R193). That each clause but those naming held requests is stated where none
are held is the form of the statement only. -/
def Obligations.ChannelTraining : Prop :=
  (∀ (x : TrainRes) (m p q : Nat) (s : State), s.pwr.stage = .training →
    s.modeFor (TrainRes.pop x) (s.failingChans x) = some (m, p, q) → Completes (.memTrainComplete x) s fun t =>
      t.pwr = { s.pwr with
        stage := .filling, mode := m, spare := p, active := q, pop := TrainRes.pop x, failing := s.failingChans x } ∧
      (∀ c : Fin 16, t.chState c = (if (s.failingChans x).testBit c then (if m = 3 ∧ c.val = p then chSPARE_FAILED else
        chFAILED) else if q.testBit c then chTRAINING else chEMPTY)) ∧
      (∀ c : Fin 16, t.chState c = chTRAINING → t.get (R.MC_FILL_STATUS_STATE c) = 1 ∧ t.get (R.MC_FILL_STATUS_FILLED_GIB c)
        = 0) ∧
      (∀ c : Fin 16, t.chState c ≠ chEMPTY → (TrainRes.pop x).testBit c = true → t.get (R.MC_CH_CONFIG_RATE c) = (rateRun x
        (s.settingN 3)).1 % 2 ^ 8 ∧ t.get (R.MC_CH_CONFIG_CAP_GIB c) = (TrainRes.shape x c).2.2.2 % 2 ^ 10) ∧
      (∀ i < 32, Tbl.get (fun _ => 0) t.tvx.spd i = TrainRes.spd x (i / 2) (i % 2)) ∧
      s.OnlyFields ((List.range 16).flatMap chanFields ++ reportFields) t ∧
      s.Only [.regs, .free, .core, .pass, .ras, .tvx, .pwr] t) ∧
  (∀ (x : TrainRes) (s : State), s.pwr.stage = .training → s.modeFor (TrainRes.pop x) (s.failingChans x) = none →
    Completes (.memTrainComplete x) s fun t =>
      t.pwr = { s.pwr with stage := .stopped, pop := TrainRes.pop x, failing := s.failingChans x } ∧
      s.OnlyFields ((List.range 16).flatMap chanFields ++ reportFields) t ∧
      s.Only [.regs, .free, .core, .pass, .ras, .tvx, .pwr] t) ∧
  (∀ (x : TrainRes) (s : State), s.pwr.stage ≠ .training → Completes (.memTrainComplete x) s fun t =>
      s.Only [] t) ∧
  (∀ (f m p q : Nat) (s : State), s.pwr.stage = .filling →
    s.modeFor s.pwr.pop (s.pwr.failing ||| (f &&& s.inTraining)) = some (m, p, q) →
    Completes (.memFillComplete f) s fun t =>
      t.pwr.stage = .image ∧ t.pwr.failing = s.pwr.failing ||| (f &&& s.inTraining) ∧
      t.pwr = { s.pwr with
        stage := .image, failing := t.pwr.failing, mode := t.pwr.mode, spare := t.pwr.spare, active := t.pwr.active }
          ∧
      (∀ c : Fin 16, s.chState c = chTRAINING → f.testBit c = true → t.chState c = (if m = 3 ∧ c.val = p then chSPARE_FAILED
        else chFAILED) ∧ t.get (R.MC_FILL_STATUS_STATE c) = 3) ∧
      (∀ c : Fin 16, s.chState c = chTRAINING → f.testBit c = false → q.testBit c = true → ¬ (m = 3 ∧ c.val = p) →
        s.marksOut c = false → t.chState c = chACTIVE ∧ t.get (R.MC_CH_STATUS_ORDINAL c) = ordinalOf m q p c % 32 ∧
        t.get (R.MC_FILL_STATUS_STATE c) = 2 ∧ t.get (R.MC_FILL_STATUS_FILLED_GIB c) = s.get (R.MC_CH_CONFIG_CAP_GIB
        c)) ∧
      t.get R.PKG_MEMMAP_CHANNEL_MODE = t.pwr.mode % 8 ∧ (∀ a : Nat, t.byte a = if a < 2 ^ 44 then 0 else s.byte a) ∧
      (∀ a : Nat, t.markedAt a = if a < 2 ^ 44 then false else s.markedAt a) ∧
      s.OnlyFields (FRef.all R.rPKG_MEMMAP :: ((List.range 16).flatMap chanFields ++ reportFields ++ eventFields)) t ∧
      s.Only [.regs, .mem, .marked, .net, .free, .core, .home, .pass, .chan, .mesa, .meter, .qos, .ras, .tvx, .pwr] t) ∧
  (∀ (f : Nat) (s : State), s.pwr.stage = .filling → s.modeFor s.pwr.pop (s.pwr.failing ||| (f &&& s.inTraining)) = none →
    Completes (.memFillComplete f) s fun t =>
      t.pwr = { s.pwr with stage := .stopped, failing := s.pwr.failing ||| (f &&& s.inTraining) } ∧
      s.OnlyFields (((List.range 16).flatMap chanFields ++ reportFields ++ eventFields)) t ∧
      s.Only [.regs, .mem, .marked, .net, .free, .core, .home, .pass, .chan, .mesa, .meter, .qos, .ras, .tvx, .pwr] t) ∧
  (∀ (s : State), s.pwr.stage ≠ .filling → s.chan.san.op = 3 ∧ s.chan.san.phase = sanPHASE_OVERWRITE →
    Completes (.memFillComplete 0) s fun t =>
      t.chan.san = { s.chan.san with phase := sanPHASE_VERIFY, next := 0 } ∧
      (∀ c : Fin 16, s.get (R.MC_FILL_STATUS_STATE c) = 1 → t.get (R.MC_FILL_STATUS_STATE c) = 2 ∧ t.get
        (R.MC_SAN_PROGRESS_LINES_DONE c) = 0) ∧
      (∀ a : Nat, t.byte a = if a < 2 ^ 44 then 0 else s.byte a) ∧ t.home.chHeld = [] ∧
      s.Only [.regs, .mem, .marked, .net, .free, .core, .home, .pass, .chan, .mesa, .meter, .qos, .ras, .tvx, .pwr] t) ∧
  (∀ (f : Nat) (s : State), s.pwr.stage ≠ .filling → (s.chan.san.op ≠ 3 ∨ s.chan.san.phase ≠ sanPHASE_OVERWRITE) →
    Completes (.memFillComplete f) s fun t =>
      s.Only [] t) ∧
  (∀ (ch : Ix16) (s : State), (s.chRetrain ch = true ∨ s.chWorks ch = false) → Completes (.channelLinkError ch) s fun t =>
      s.Only [] t) ∧
  (∀ (ch : Ix16) (s : State), s.chRetrain ch = false ∧ s.chWorks ch = true → (s.charge 10 ch false).2 = false →
    Completes (.channelLinkError ch) s fun t =>
      t.bucket 10 ch = { ((s.bucket 10 ch).charge (s.bucketRate 10) (s.bucketLimit 10) (s.bucketWeight 10 false)).1 with
        done := (t.bucket 10 ch).done } ∧
      s.Records (bankMc ch) ⟨true, errCE, false, 0, recInfo 0 0 0 s.pkgId 10 (t.bucket 10 ch).level, 0, s.pwr.now⟩ t ∧
      t.chan = s.chan ∧ s.OnlyFields (reportFields) t ∧ s.Only [.regs, .free, .core, .pass, .ras, .tvx] t) ∧
  (∀ (ch : Ix16) (s : State), s.chRetrain ch = false ∧ s.chWorks ch = true → (s.charge 10 ch false).2 = true →
    (s.chState ch = chACTIVE ∨ s.chState ch = chAT_RISK) → Completes (.channelLinkError ch) s fun t =>
      t.bucket 10 ch = { ((s.bucket 10 ch).charge (s.bucketRate 10) (s.bucketLimit 10) (s.bucketWeight 10 false)).1 with
        done := (t.bucket 10 ch).done } ∧
      s.Records (bankMc ch) ⟨true, errCE, false, 0, recInfo 0 0 0 s.pkgId 10 (t.bucket 10 ch).level, 0, s.pwr.now⟩ t ∧
      t.chState ch = chRETRAINING ∧ t.chPrev ch = s.chState ch ∧
      t.chRetrain ch = true ∧ Tbl.get (fun _ => 0) t.chan.fails ch = 0 ∧
      t.get (R.MC_CH_STATUS_RETRAINS ch) = satAdd 8 (s.get (R.MC_CH_STATUS_RETRAINS ch)) 1 ∧
      t.chan = { s.chan with prev := t.chan.prev, fails := t.chan.fails, retrain := t.chan.retrain } ∧
      s.OnlyFields (FRef.all (R.rMC_CH_STATUS ch) :: reportFields) t ∧
      s.Only [.regs, .free, .core, .pass, .chan, .ras, .tvx] t) ∧
  (∀ (ch : Ix16) (s : State), s.chRetrain ch = false ∧ s.chWorks ch = true → (s.charge 10 ch false).2 = true →
    (s.chState ch = chCOPY_SOURCE ∨ s.chState ch = chCOPY_TARGET) → Completes (.channelLinkError ch) s fun t =>
      t.bucket 10 ch = { ((s.bucket 10 ch).charge (s.bucketRate 10) (s.bucketLimit 10) (s.bucketWeight 10 false)).1 with
        done := (t.bucket 10 ch).done } ∧
      s.Records (bankMc ch) ⟨true, errCE, false, 0, recInfo 0 0 0 s.pkgId 10 (t.bucket 10 ch).level, 0, s.pwr.now⟩ t ∧
      t.chState ch = s.chState ch ∧ t.chRetrain ch = true ∧ Tbl.get (fun _ => 0) t.chan.fails ch = 0 ∧
      t.get (R.MC_CH_STATUS_RETRAINS ch) = satAdd 8 (s.get (R.MC_CH_STATUS_RETRAINS ch)) 1 ∧
      t.chan = { s.chan with fails := t.chan.fails, retrain := t.chan.retrain } ∧
      s.OnlyFields (FRef.all (R.rMC_CH_STATUS ch) :: reportFields) t ∧
      s.Only [.regs, .free, .core, .pass, .chan, .ras, .tvx] t) ∧
  (∀ (ch : Ix16) (s : State), s.chRetrain ch = false ∧ s.chWorks ch = true → (s.charge 10 ch false).2 = true →
    s.chState ch = chSPARE → Completes (.channelLinkError ch) s fun t =>
      t.bucket 10 ch = { ((s.bucket 10 ch).charge (s.bucketRate 10) (s.bucketLimit 10) (s.bucketWeight 10 false)).1 with
        done := (t.bucket 10 ch).done } ∧
      s.Records (bankMc ch) ⟨true, errCE, false, 0, recInfo 0 0 0 s.pkgId 10 (t.bucket 10 ch).level, 0, s.pwr.now⟩ t ∧
      t.chState ch = chSPARE_FAILED ∧ t.get (R.MC_EVENT_FAILED ch) = 1 ∧ t.chan = s.chan ∧
      s.OnlyFields (FRef.all (R.rMC_CH_STATUS ch) :: R.MC_EVENT_FAILED ch :: reportFields) t ∧
      s.Only [.regs, .free, .core, .pass, .chan, .ras, .tvx] t) ∧
  (∀ (ch : Ix16) (s : State), s.chRetrain ch = true → s.NoHeld → s.chState ch = chRETRAINING →
    (s.marksOut ch = false ∨ s.chPrev ch % 16 ≠ chACTIVE) → Completes (.channelRetrainComplete ch) s fun t =>
      t.chRetrain ch = false ∧ Tbl.get (fun _ => 0) t.chan.fails ch = 0 ∧ (t.bucket 10 ch).done = false ∧
      t.chState ch = s.chPrev ch % 16 ∧ t.get (R.MC_EVENT_RETRAINED ch) = 1 ∧
      t.chan = { s.chan with fails := t.chan.fails, retrain := t.chan.retrain } ∧
      s.OnlyFields [R.MC_CH_STATUS_STATE ch, R.MC_EVENT_RETRAINED ch] t ∧ s.Only [.regs, .chan, .ras] t) ∧
  (∀ (ch : Ix16) (s : State), s.chRetrain ch = true → s.NoHeld → s.chState ch ≠ chRETRAINING ∧ s.chState ch ≠ chACTIVE →
    Completes (.channelRetrainComplete ch) s fun t =>
      t.chRetrain ch = false ∧ Tbl.get (fun _ => 0) t.chan.fails ch = 0 ∧ (t.bucket 10 ch).done = false ∧
      t.get (R.MC_EVENT_RETRAINED ch) = 1 ∧ t.chan = { s.chan with fails := t.chan.fails, retrain := t.chan.retrain } ∧
      s.OnlyFields [R.MC_EVENT_RETRAINED ch] t ∧ s.Only [.regs, .chan, .ras] t) ∧
  (∀ (ch : Ix16) (s : State), s.chRetrain ch = true → s.home.chHeld = [] ∧ s.chan.heldStart = [ch.val] →
    s.chState ch = chRETRAINING ∧ s.chPrev ch = chACTIVE → s.marksOut ch = false →
    s.get R.PKG_MEMMAP_CHANNEL_MODE = 3 ∧ s.copyRuns = false ∧ s.chState (s.get R.PKG_MEMMAP_SPARE_CH) = chSPARE →
    Completes (.channelRetrainComplete ch) s fun t =>
      t.chRetrain ch = false ∧ Tbl.get (fun _ => 0) t.chan.fails ch = 0 ∧ (t.bucket 10 ch).done = false ∧
      t.chState ch = chCOPY_SOURCE ∧ t.chState (s.get R.PKG_MEMMAP_SPARE_CH) = chCOPY_TARGET ∧ t.chan.heldStart = [] ∧
      s.OnlyFields (chanFields ch ++ chanFields (s.get R.PKG_MEMMAP_SPARE_CH)) t ∧ s.Only [.regs, .chan, .ras] t) ∧
  (∀ (ch : Ix16) (d : Nat) (l : Line) (s : State), s.chRetrain ch = true →
    s.home.chHeld = [(d, some l, none)] ∧ s.chan.heldStart = [] → s.home.parked = [] ∧ s.home.locks = [] →
    s.chState ch = chRETRAINING ∧ s.chPrev ch = chACTIVE → s.marksOut ch = false → d < 2 ^ 43 ∧ (s.dramPlace d).1 = ch →
    Completes (.channelRetrainComplete ch) s fun t =>
      t.chRetrain ch = false ∧ Tbl.get (fun _ => 0) t.chan.fails ch = 0 ∧ (t.bucket 10 ch).done = false ∧
      t.chState ch = chACTIVE ∧ t.home = { s.home with chHeld := [] } ∧ t.lineAt (chanCell ch (s.dramPlace d).2) = l ∧
      s.OnlyFields [R.MC_CH_STATUS_STATE ch, R.MC_EVENT_RETRAINED ch] t ∧
      s.Only [.regs, .mem, .marked, .home, .chan, .ras] t) ∧
  (∀ (ch : Ix16) (s : State), s.chRetrain ch = false → Completes (.channelRetrainComplete ch) s fun t =>
      s.Only [] t) ∧
  (∀ (ch : Ix16) (s : State), s.chRetrain ch = false → Completes (.channelRetrainTimeout ch) s fun t =>
      s.Only [] t) ∧
  (∀ (ch : Ix16) (s : State), s.chRetrain ch = true → Tbl.get (fun _ => 0) s.chan.fails ch < 2 →
    Completes (.channelRetrainTimeout ch) s fun t =>
      Tbl.get (fun _ => 0) t.chan.fails ch = Tbl.get (fun _ => 0) s.chan.fails ch + 1 ∧
      (∀ c, c ≠ ch.val → Tbl.get (fun _ => 0) t.chan.fails c = Tbl.get (fun _ => 0) s.chan.fails c) ∧
      t.chan = { s.chan with fails := t.chan.fails } ∧ s.Only [.chan] t) ∧
  (∀ (ch : Ix16) (s : State), s.chRetrain ch = true → Tbl.get (fun _ => 0) s.chan.fails ch = 2 → s.NoHeld →
    s.chState ch = chRETRAINING → s.chan.san.op = 0 → Completes (.channelRetrainTimeout ch) s fun t =>
      t.chRetrain ch = false ∧ Tbl.get (fun _ => 0) t.chan.fails ch = 0 ∧ (t.bucket 10 ch).done = false ∧
      t.chState ch = chFAILED ∧ t.get (R.MC_EVENT_FAILED ch) = 1 ∧ t.tvx.recs.chan.testBit ch = true ∧
      (∀ n : Ix16, s.get (R.MESA_STATUS_STATE n) = mesaENABLED → t.get (R.MESA_STATUS_STATE n) = mesaINVALIDATING) ∧
      s.Only [.regs, .mem, .marked, .net, .free, .core, .home, .pass, .chan, .mesa, .meter, .qos, .ras, .tvx] t) ∧
  (∀ (ch p : Ix16) (s : State), s.chRetrain ch = true → Tbl.get (fun _ => 0) s.chan.fails ch = 2 → s.NoHeld →
    s.chState ch = chCOPY_TARGET → s.get (R.MC_COPY_STATUS_PARTNER ch) = p ∧ ch ≠ p →
    (s.marksOut p = false ∨ s.chPrev p % 16 ≠ chACTIVE) → Completes (.channelRetrainTimeout ch) s fun t =>
      t.chRetrain ch = false ∧ Tbl.get (fun _ => 0) t.chan.fails ch = 0 ∧ (t.bucket 10 ch).done = false ∧
      t.chState ch = chSPARE_FAILED ∧ t.chState p = s.chPrev p % 16 ∧
      t.get (R.MC_COPY_STATUS_RUNNING ch) = 0 ∧ t.get (R.MC_COPY_STATUS_RUNNING p) = 0 ∧
      t.get (R.MC_EVENT_FAILED ch) = 1 ∧ t.get (R.MC_EVENT_COPY_ABORTED ch) = 1 ∧ t.get (R.MC_EVENT_COPY_ABORTED p) = 1 ∧
      t.chan = { s.chan with fails := t.chan.fails, retrain := t.chan.retrain } ∧
      s.OnlyFields (chanFields ch ++ chanFields p ++ reportFields) t ∧
      s.Only [.regs, .mem, .marked, .net, .free, .core, .home, .pass, .chan, .mesa, .meter, .qos, .ras, .tvx] t) ∧
  (∀ (ch p : Ix16) (s : State), s.chRetrain ch = true → Tbl.get (fun _ => 0) s.chan.fails ch = 2 → s.NoHeld →
    s.chState ch = chCOPY_SOURCE → s.get (R.MC_COPY_STATUS_PARTNER ch) = p ∧ ch ≠ p → s.marksOut p = false →
    Completes (.channelRetrainTimeout ch) s fun t =>
      t.chRetrain ch = false ∧ Tbl.get (fun _ => 0) t.chan.fails ch = 0 ∧ (t.bucket 10 ch).done = false ∧
      t.chState ch = chRETIRED ∧ t.chState p = chACTIVE ∧
      t.get (R.MC_CH_STATUS_ORDINAL p) = s.get (R.MC_CH_STATUS_ORDINAL ch) ∧ t.get (R.MC_CH_STATUS_ORDINAL ch) = 0x1F ∧
      (∀ x : Nat, x % 64 = 0 → s.get (R.MC_COPY_STATUS_POINTER ch) % 64 = 0 → s.get (R.MC_COPY_STATUS_POINTER ch) ≤ x → x <
        s.chCap ch → t.markedAt (chanCell p x) = true) ∧
      t.tvx.recs.chan.testBit ch = true ∧ t.chan = { s.chan with fails := t.chan.fails, retrain := t.chan.retrain } ∧
      s.OnlyFields (chanFields ch ++ chanFields p ++ reportFields) t ∧
      s.Only [.regs, .mem, .marked, .net, .free, .core, .home, .pass, .chan, .mesa, .meter, .qos, .ras, .tvx] t)

/-- A copy start that is allowed makes the channel the source and the spare the target, at address 0, the automatic one
where AUTO allows it; behind a retrain it is held; one that is not allowed is rejected with its cause (spec/07 R184,
R193). The engine moves the line at its pointer onto the target, or the marker for one that it could not read, and
changes no other byte of memory (R185). A copy that reaches the capacity retires the source, and the target takes its
ordinal (R184). The patrol of a channel passes a fenced line over, leaves a locked or held one for later, rewrites
what it corrected, marks what it could not, and goes on (spec/14 R332). -/
def Obligations.ChannelCopies : Prop :=
  (∀ (ch p : Ix16) (s : State), s.get R.PKG_MEMMAP_CHANNEL_MODE = 3 → s.copyRuns = false → s.spareReady = some (p : Nat) →
    (s.chState ch = chACTIVE ∨ s.chState ch = chAT_RISK) → Completes (.copyStart ch false) s fun t =>
      t.chState ch = chCOPY_SOURCE ∧ t.chState p = chCOPY_TARGET ∧ t.chPrev ch = s.chState ch ∧
      t.get (R.MC_COPY_STATUS_RUNNING ch) = 1 ∧ t.get (R.MC_COPY_STATUS_RUNNING p) = 1 ∧
      t.get (R.MC_COPY_STATUS_POINTER ch) = 0 ∧ t.get (R.MC_COPY_STATUS_POINTER p) = 0 ∧
      t.get (R.MC_COPY_STATUS_PARTNER ch) = p ∧ t.get (R.MC_COPY_STATUS_PARTNER p) = ch ∧
      t.chan = { s.chan with prev := t.chan.prev } ∧ (∀ c, c ≠ ch.val → t.chPrev c = s.chPrev c) ∧
      s.OnlyFields [R.MC_CH_STATUS_STATE ch, R.MC_CH_STATUS_STATE p, R.MC_COPY_STATUS_POINTER ch, R.MC_COPY_STATUS_POINTER
        p, R.MC_COPY_STATUS_RUNNING ch, R.MC_COPY_STATUS_RUNNING p, R.MC_COPY_STATUS_PARTNER ch,
        R.MC_COPY_STATUS_PARTNER p] t ∧
      s.Only [.regs, .chan] t) ∧
  (∀ (ch p : Ix16) (s : State), s.get R.PKG_MEMMAP_CHANNEL_MODE = 3 → s.copyRuns = false → s.spareReady = some (p : Nat) →
    s.chState ch = chAT_RISK ∧ s.get (R.MC_COPY_CTL_AUTO ch) = 1 → Completes (.copyStart ch true) s fun t =>
      t.chState ch = chCOPY_SOURCE ∧ t.chState p = chCOPY_TARGET ∧ t.chPrev ch = s.chState ch ∧
      t.get (R.MC_COPY_STATUS_RUNNING ch) = 1 ∧ t.get (R.MC_COPY_STATUS_RUNNING p) = 1 ∧
      t.get (R.MC_COPY_STATUS_POINTER ch) = 0 ∧ t.get (R.MC_COPY_STATUS_POINTER p) = 0 ∧
      t.get (R.MC_COPY_STATUS_PARTNER ch) = p ∧ t.get (R.MC_COPY_STATUS_PARTNER p) = ch ∧
      t.chan = { s.chan with prev := t.chan.prev } ∧ (∀ c, c ≠ ch.val → t.chPrev c = s.chPrev c) ∧
      s.OnlyFields [R.MC_CH_STATUS_STATE ch, R.MC_CH_STATUS_STATE p, R.MC_COPY_STATUS_POINTER ch, R.MC_COPY_STATUS_POINTER
        p, R.MC_COPY_STATUS_RUNNING ch, R.MC_COPY_STATUS_RUNNING p, R.MC_COPY_STATUS_PARTNER ch,
        R.MC_COPY_STATUS_PARTNER p] t ∧
      s.Only [.regs, .chan] t) ∧
  (∀ (ch : Ix16) (s : State), (s.chState ch ≠ chAT_RISK ∨ s.get (R.MC_COPY_CTL_AUTO ch) ≠ 1 ∨ s.copyReject ch ≠ none) →
    Completes (.copyStart ch true) s fun t =>
      s.Only [] t) ∧
  (∀ (ch : Ix16) (s : State), s.copyReject ch = none → s.chState ch = chRETRAINING →
    Completes (.copyStart ch false) s fun t =>
      t.chan = { s.chan with heldStart := s.chan.heldStart.erase ch ++ [ch.val] } ∧ s.Only [.chan] t) ∧
  (∀ (ch : Ix16) (c : Nat) (s : State), s.copyReject ch = some c → Completes (.copyStart ch false) s fun t =>
      t.get (R.MC_COPY_STATUS_REJECTED ch) = 1 ∧ t.get (R.MC_COPY_STATUS_REJECT_CAUSE ch) = c ∧
      s.OnlyFields [R.MC_COPY_STATUS_REJECTED ch, R.MC_COPY_STATUS_REJECT_CAUSE ch] t ∧ s.Only [.regs] t) ∧
  (∀ (ch p : Ix16) (e : Errs) (l : Line) (s : State), s.chState ch = chCOPY_SOURCE ∧ s.chRetrain ch = false →
    s.get (R.MC_COPY_STATUS_PARTNER ch) = p ∧ s.chRetrain p = false ∧ ch ≠ p →
    s.get (R.MC_COPY_STATUS_POINTER ch) < s.chCap ch → s.get (R.MC_COPY_STATUS_POINTER ch) % 64 = 0 → s.home.chHeld = [] →
    (s.chRead ch (s.get (R.MC_COPY_STATUS_POINTER ch)) e 0 0).1 = .good l → Completes (.copyLine ch e) s fun t =>
      t.lineAt (chanCell p (s.get (R.MC_COPY_STATUS_POINTER ch))) = l ∧ t.markedAt (chanCell p (s.get
        (R.MC_COPY_STATUS_POINTER ch))) = false ∧
      t.get (R.MC_COPY_STATUS_POINTER ch) = (s.get (R.MC_COPY_STATUS_POINTER ch) + 64) % 2 ^ 40 ∧ t.get
        (R.MC_COPY_STATUS_POINTER p) = (s.get (R.MC_COPY_STATUS_POINTER ch) + 64) % 2 ^ 40 ∧
      (∀ a : Nat, ¬(chanCell p (s.get (R.MC_COPY_STATUS_POINTER ch)) ≤ a ∧ a < chanCell p (s.get (R.MC_COPY_STATUS_POINTER
        ch)) + 64) → t.byte a = s.byte a) ∧
      (∀ a : Nat, a / 64 ≠ chanCell p (s.get (R.MC_COPY_STATUS_POINTER ch)) / 64 → t.markedAt a = s.markedAt a) ∧
      s.Only [.regs, .mem, .marked, .net, .free, .core, .home, .pass, .chan, .mesa, .meter, .qos, .ras, .tvx] t) ∧
  (∀ (ch p : Ix16) (e : Errs) (m : Bool) (s : State), s.chState ch = chCOPY_SOURCE ∧ s.chRetrain ch = false →
    s.get (R.MC_COPY_STATUS_PARTNER ch) = p ∧ s.chRetrain p = false ∧ ch ≠ p →
    s.get (R.MC_COPY_STATUS_POINTER ch) < s.chCap ch → s.get (R.MC_COPY_STATUS_POINTER ch) % 64 = 0 → s.home.chHeld = [] →
    (s.chRead ch (s.get (R.MC_COPY_STATUS_POINTER ch)) e 0 0).1 = .bad m → Completes (.copyLine ch e) s fun t =>
      t.markedAt (chanCell p (s.get (R.MC_COPY_STATUS_POINTER ch))) = true ∧
      t.get (R.MC_COPY_STATUS_POINTER ch) = (s.get (R.MC_COPY_STATUS_POINTER ch) + 64) % 2 ^ 40 ∧ t.get
        (R.MC_COPY_STATUS_POINTER p) = (s.get (R.MC_COPY_STATUS_POINTER ch) + 64) % 2 ^ 40 ∧
      (∀ a : Nat, ¬(chanCell p (s.get (R.MC_COPY_STATUS_POINTER ch)) ≤ a ∧ a < chanCell p (s.get (R.MC_COPY_STATUS_POINTER
        ch)) + 64) → t.byte a = s.byte a) ∧
      (∀ a : Nat, a / 64 ≠ chanCell p (s.get (R.MC_COPY_STATUS_POINTER ch)) / 64 → t.markedAt a = s.markedAt a) ∧
      s.Only [.regs, .mem, .marked, .net, .free, .core, .home, .pass, .chan, .mesa, .meter, .qos, .ras, .tvx] t) ∧
  (∀ (ch : Ix16) (e : Errs) (s : State),
    (s.chState ch ≠ chCOPY_SOURCE ∨ s.chRetrain ch = true ∨ s.chRetrain (s.get (R.MC_COPY_STATUS_PARTNER ch)) = true ∨ s.chCap ch ≤ s.get (R.MC_COPY_STATUS_POINTER ch)) →
    Completes (.copyLine ch e) s fun t =>
      s.Only [] t) ∧
  (∀ (ch p : Ix16) (s : State), s.chState ch = chCOPY_SOURCE ∧ s.chRetrain ch = false →
    s.get (R.MC_COPY_STATUS_PARTNER ch) = p ∧ s.chRetrain p = false ∧ ch ≠ p →
    s.get (R.MC_COPY_STATUS_POINTER ch) = s.chCap ch → s.marksOut p = false → s.home.chHeld = [] →
    Completes (.copyComplete ch) s fun t =>
      t.chState ch = chRETIRED ∧ t.chState p = chACTIVE ∧
      t.get (R.MC_CH_STATUS_ORDINAL p) = s.get (R.MC_CH_STATUS_ORDINAL ch) ∧ t.get (R.MC_CH_STATUS_ORDINAL ch) = 0x1F ∧
      t.get (R.MC_COPY_STATUS_RUNNING ch) = 0 ∧ t.get (R.MC_COPY_STATUS_RUNNING p) = 0 ∧
      t.get (R.MC_EVENT_COPY_DONE ch) = 1 ∧ t.get (R.MC_EVENT_COPY_DONE p) = 1 ∧ t.tvx.recs.chan.testBit ch = true ∧
      s.OnlyFields (R.MC_CH_STATUS_STATE ch :: R.MC_CH_STATUS_STATE p :: R.MC_CH_STATUS_ORDINAL ch :: R.MC_CH_STATUS_ORDINAL
        p :: R.MC_COPY_STATUS_RUNNING ch :: R.MC_COPY_STATUS_RUNNING p :: R.MC_COPY_STATUS_PARTNER ch ::
        R.MC_COPY_STATUS_PARTNER p :: R.MC_EVENT_COPY_DONE ch :: R.MC_EVENT_COPY_DONE p :: reportFields) t ∧
      s.Only [.regs, .tvx] t) ∧
  (∀ (ch : Ix16) (s : State),
    (s.chState ch ≠ chCOPY_SOURCE ∨ s.chRetrain ch = true ∨ s.chRetrain (s.get (R.MC_COPY_STATUS_PARTNER ch)) = true ∨ s.get (R.MC_COPY_STATUS_POINTER ch) ≠ s.chCap ch) →
    Completes (.copyComplete ch) s fun t =>
      s.Only [] t) ∧
  (∀ (ch : Ix16) (e : Errs) (s : State), ¬ s.patrolDue ch → Completes (.dramPatrolLine ch e) s fun t =>
      s.Only [] t) ∧
  (∀ (ch : Ix16) (e : Errs) (s : State), s.patrolDue ch → s.patrolFenced ch → s.patrolAt ch + 64 < s.chCap ch →
    Completes (.dramPatrolLine ch e) s fun t =>
      Tbl.get (fun _ => 0) t.ras.patrolDram ch = s.patrolAt ch + 64 ∧
      (∀ c, c ≠ ch.val → Tbl.get (fun _ => 0) t.ras.patrolDram c = Tbl.get (fun _ => 0) s.ras.patrolDram c) ∧
      t.ras = { s.ras with patrolDram := t.ras.patrolDram } ∧ s.Only [.ras] t) ∧
  (∀ (ch : Ix16) (e : Errs) (s : State), s.patrolDue ch → ¬ s.patrolFenced ch → s.patrolKept ch →
    Completes (.dramPatrolLine ch e) s fun t =>
      s.Only [] t) ∧
  (∀ (ch : Ix16) (e : Errs) (l : Line) (s : State), s.patrolDue ch → ¬ s.patrolFenced ch ∧ ¬ s.patrolKept ch →
    s.patrolAt ch + 64 < s.chCap ch → s.judge ch (s.patrolAt ch) e = .clean l → s.chState ch ≠ chFAILED →
    Completes (.dramPatrolLine ch e) s fun t =>
      Tbl.get (fun _ => 0) t.ras.patrolDram ch = s.patrolAt ch + 64 ∧
      (∀ c, c ≠ ch.val → Tbl.get (fun _ => 0) t.ras.patrolDram c = Tbl.get (fun _ => 0) s.ras.patrolDram c) ∧
      t.ras = { s.ras with patrolDram := t.ras.patrolDram } ∧ s.OnlyFields (eventFields) t ∧
      s.Only [.meter, .qos, .ras, .regs, .pass] t) ∧
  (∀ (ch : Ix16) (e : Errs) (l : Line) (d : Nat) (s : State), s.patrolDue ch → ¬ s.patrolFenced ch ∧ ¬ s.patrolKept ch →
    s.patrolAt ch + 64 < s.chCap ch → (s.chRead ch (s.patrolAt ch) e (s.patrolGa ch) 0).1 = .good l →
    s.judge ch (s.patrolAt ch) e = .corrected d false true → s.patrolAt ch % 64 = 0 →
    Completes (.dramPatrolLine ch e) s fun t =>
      Tbl.get (fun _ => 0) t.ras.patrolDram ch = s.patrolAt ch + 64 ∧
      (∀ c, c ≠ ch.val → Tbl.get (fun _ => 0) t.ras.patrolDram c = Tbl.get (fun _ => 0) s.ras.patrolDram c) ∧
      t.lineAt (chanCell ch (s.patrolAt ch)) = l ∧ t.markedAt (chanCell ch (s.patrolAt ch)) = false ∧
      (∀ a : Nat, ¬(chanCell ch (s.patrolAt ch) ≤ a ∧ a < chanCell ch (s.patrolAt ch) + 64) → t.byte a = s.byte a) ∧
      s.Only [.regs, .mem, .marked, .free, .core, .pass, .chan, .meter, .qos, .ras, .tvx] t) ∧
  (∀ (ch : Ix16) (e : Errs) (m : Bool) (s : State), s.patrolDue ch → ¬ s.patrolFenced ch ∧ ¬ s.patrolKept ch →
    s.patrolAt ch + 64 < s.chCap ch → (s.chRead ch (s.patrolAt ch) e (s.patrolGa ch) 0).1 = .bad m →
    s.judge ch (s.patrolAt ch) e ≠ .marker → Completes (.dramPatrolLine ch e) s fun t =>
      Tbl.get (fun _ => 0) t.ras.patrolDram ch = s.patrolAt ch + 64 ∧
      (∀ c, c ≠ ch.val → Tbl.get (fun _ => 0) t.ras.patrolDram c = Tbl.get (fun _ => 0) s.ras.patrolDram c) ∧
      t.markedAt (chanCell ch (s.patrolAt ch)) = true ∧ t.mem = s.mem ∧
      s.Only [.regs, .mem, .marked, .free, .core, .pass, .chan, .meter, .qos, .ras, .tvx] t)

/-- FORMAT_RANGE ends with its overwrite pass and the fence goes; SANITISE_RANGE goes on to its verify pass, and ends
COMPLETE or with verify failures, as the journal says (spec/07 R187, R188, R190); a checkpoint journals the bytes
overwritten and no other entry changes (R190). The engine overwrites the next line of the range with zeros under its
lock, after it has recalled it from an owner, and takes a locked line later; in the verify pass it counts a line that
reads zero, rewrites one that does not once, and counts a second failure (R188). An extra-block read that returns is
pending no more and changes no transaction that did not wait for it (spec/08 R198, R214); data that returns for a
snapshot is sent to the requester and ends its transaction (spec/04 R95, R103), and it does not return while the
channel holds the request or does not admit it (spec/07 R179, spec/09 R220). -/
def Obligations.SanitiseAndReads : Prop :=
  (∀ (e : JEnt) (s : State), s.chan.san.op = 2 → s.chan.san.phase = sanPHASE_OVERWRITE → s.chan.san.len ≤ s.chan.san.next →
    s.sanLocks = false → s.chan.san.fails = 0 → s.chan.san.ent = some e → Completes (.sanitisePhaseComplete) s fun t =>
      t.chan.san = { s.chan.san with
        op := 0, phase := 0, fence := false, next := 0, again := false, ent := some
          { e with state := 2, tEnd := s.pwr.now, vfails := 0 } } ∧
      s.chan.jNext ≤ e.seq + 4096 → t.jEntry e.seq = some { e with state := 2, tEnd := s.pwr.now, vfails := 0 } ∧
      (∀ n : Ix16, t.get (R.MC_SAN_STATUS_OP n) = 0 ∧ t.get (R.MC_SAN_STATUS_FENCE n) = 0) ∧ s.OnlyFields (sanFields) t ∧
      s.Only [.regs, .chan, .tvx] t) ∧
  (∀ (e : JEnt) (s : State), s.chan.san.op = 1 → s.chan.san.phase = sanPHASE_OVERWRITE → s.chan.san.len ≤ s.chan.san.next →
    s.sanLocks = false → s.chan.san.ent = some e → Completes (.sanitisePhaseComplete) s fun t =>
      t.chan.san = { s.chan.san with phase := sanPHASE_VERIFY, next := 0, ent := some { e with check := s.chan.san.len } } ∧
      s.chan.jNext ≤ e.seq + 4096 → t.jEntry e.seq = some { e with check := s.chan.san.len } ∧
      (∀ n : Ix16, t.get (R.MC_SAN_STATUS_PHASE n) = sanPHASE_VERIFY ∧ t.get (R.MC_SAN_PROGRESS_LINES_DONE n) = 0) ∧
      s.OnlyFields (sanFields) t ∧ s.Only [.regs, .chan] t) ∧
  (∀ (e : JEnt) (s : State), s.chan.san.op = 1 → s.chan.san.phase = sanPHASE_VERIFY → s.chan.san.len ≤ s.chan.san.next →
    s.sanLocks = false → s.chan.san.ent = some e → Completes (.sanitisePhaseComplete) s fun t =>
      t.chan.san = { s.chan.san with
        op := 0, phase := 0, fence := false, next := 0, again := false, ent := some
          { e with state := if s.chan.san.fails = 0 then 2 else 4, tEnd := s.pwr.now, vfails := s.chan.san.fails } } ∧
      s.chan.jNext ≤ e.seq + 4096 → t.jEntry e.seq = some
        { e with state := if s.chan.san.fails = 0 then 2 else 4, tEnd := s.pwr.now, vfails := s.chan.san.fails } ∧
      s.OnlyFields (sanFields) t ∧ s.Only [.regs, .chan, .free, .tvx] t) ∧
  (∀ (s : State),
    (s.chan.san.op = 0 ∨ s.chan.san.next < s.sanSize ∨ s.sanLocks = true ∨ (s.chan.san.op = 3 ∧ s.chan.san.phase ≠ sanPHASE_VERIFY)) →
    Completes (.sanitisePhaseComplete) s fun t =>
      s.Only [] t) ∧
  (∀ (e : JEnt) (s : State), s.chan.san.phase = sanPHASE_OVERWRITE → s.chan.san.ent = some e →
    Completes (.sanitiseCheckpoint) s fun t =>
      t.chan.san = { s.chan.san with ent := some { e with check := s.sanDone } } ∧
      s.chan.jNext ≤ e.seq + 4096 → t.jEntry e.seq = some { e with check := s.sanDone } ∧
      (∀ q, q ≠ e.seq → q < s.chan.jNext → s.chan.jNext ≤ q + 4096 → t.jEntry q = s.jEntry q) ∧
      t.chan = { s.chan with san := t.chan.san, journal := t.chan.journal } ∧ s.Only [.chan] t) ∧
  (∀ (s : State), s.chan.san.phase ≠ sanPHASE_OVERWRITE → Completes (.sanitiseCheckpoint) s fun t =>
      s.Only [] t) ∧
  (∀ (e : Errs) (n h : Nat) (s : State), s.sanPass sanPHASE_OVERWRITE → n = sliceOf s.sanD → s.lockOf n s.sanLine = none →
    s.freeSlot n = some h → (s.homeView n s.sanD).kind = 0 ∧ s.isBcast n s.sanD = false → s.storeStops s.sanD = false →
    s.home.chHeld = [] ∧ s.home.toks = [] ∧ s.home.wbHeld = [] →
    s.sanD < 2 ^ 43 ∧ s.chState (s.dramPlace s.sanD).1 = chACTIVE → Completes (.sanitiseLine e) s fun t =>
      t.chan.san.next = s.chan.san.next + 64 ∧ t.lock n h = none ∧
      t.lineAt (chanCell (s.dramPlace s.sanD).1 (s.dramPlace s.sanD).2) = 0 ∧
      s.Only [.regs, .mem, .marked, .net, .free, .core, .home, .pass, .chan, .mesa, .meter, .qos, .ras, .tvx] t) ∧
  (∀ (e : Errs) (n h d : Nat) (s : State), s.sanPass sanPHASE_OVERWRITE → n = sliceOf s.sanD → s.lockOf n s.sanLine = none →
    s.freeSlot n = some h → s.home.chHeld = [] ∧ s.home.toks = [] ∧ s.home.wbHeld = [] →
    s.homeView n s.sanD = ⟨2, maskOf d, some d⟩ ∧ s.isBcast n s.sanD = false → d < 12 ∧ s.reachMask (maskOf d) = maskOf d →
    (s.dieCtl d).lost = false → Completes (.sanitiseLine e) s fun t =>
      t.chan.san.next = s.chan.san.next + 64 ∧
      (t.lock n h).map (fun x => (x.line, x.work, x.phase)) = some (s.sanLine, HWork.sanitise, HPhase.acks) ∧
      (t.net.map (fun m => (m.vc, m.opc, m.dstAgent, m.addr))) = s.net.map (fun m => (m.vc, m.opc, m.dstAgent, m.addr)) ++
        [(vcSNP, opINV, d, s.sanLine)] ∧
      t.mem = s.mem ∧
      s.Only [.regs, .mem, .marked, .net, .free, .core, .home, .pass, .chan, .mesa, .meter, .qos, .ras, .tvx] t) ∧
  (∀ (e : Errs) (n : Nat) (s : State), s.sanPass sanPHASE_OVERWRITE → n = sliceOf s.sanD →
    ((s.lockOf n s.sanLine).isSome = true ∨ s.freeSlot n = none) → Completes (.sanitiseLine e) s fun t =>
      s.Only [] t) ∧
  (∀ (e : Errs) (n : Nat) (s : State), s.sanPass sanPHASE_VERIFY → n = sliceOf s.sanD → s.storeHolds s.sanD = false →
    (s.storeRead s.sanD e (s.sanLine * 64) s.chan.san.mcid).1 = .good 0 → Completes (.sanitiseLine e) s fun t =>
      t.chan.san = { s.chan.san with next := s.chan.san.next + 64, again := false } ∧
      t.get (R.MC_SAN_PROGRESS_LINES_DONE n) = (s.get (R.MC_SAN_PROGRESS_LINES_DONE n) + 1) % 2 ^ 36 ∧ t.mem = s.mem ∧
      s.Only [.regs, .mem, .marked, .net, .free, .core, .home, .pass, .chan, .mesa, .meter, .qos, .ras, .tvx] t) ∧
  (∀ (e : Errs) (n : Nat) (s : State), s.sanPass sanPHASE_VERIFY → n = sliceOf s.sanD → s.storeHolds s.sanD = false →
    (s.storeRead s.sanD e (s.sanLine * 64) s.chan.san.mcid).1 ≠ .good 0 → s.chan.san.again = true →
    Completes (.sanitiseLine e) s fun t =>
      t.chan.san = { s.chan.san with next := s.chan.san.next + 64, again := false, fails := s.chan.san.fails + 1 } ∧
      t.get (R.MC_SAN_PROGRESS_LINES_DONE n) = (s.get (R.MC_SAN_PROGRESS_LINES_DONE n) + 1) % 2 ^ 36 ∧
      t.get (R.MC_SAN_PROGRESS_VERIFY_FAILS n) = satAdd 16 (s.get (R.MC_SAN_PROGRESS_VERIFY_FAILS n)) 1 ∧
      s.Only [.regs, .mem, .marked, .net, .free, .core, .home, .pass, .chan, .mesa, .meter, .qos, .ras, .tvx] t) ∧
  (∀ (e : Errs) (n : Nat) (s : State), s.sanPass sanPHASE_VERIFY → n = sliceOf s.sanD → s.storeHolds s.sanD = false →
    (s.storeRead s.sanD e (s.sanLine * 64) s.chan.san.mcid).1 ≠ .good 0 → s.chan.san.again = false →
    s.sanD < 2 ^ 43 ∧ s.chState (s.dramPlace s.sanD).1 = chACTIVE → Completes (.sanitiseLine e) s fun t =>
      t.chan.san = { s.chan.san with again := true } ∧
      t.lineAt (chanCell (s.dramPlace s.sanD).1 (s.dramPlace s.sanD).2) = 0 ∧ t.markedAt (chanCell (s.dramPlace s.sanD).1
        (s.dramPlace s.sanD).2) = false ∧
      s.Only [.regs, .mem, .marked, .net, .free, .core, .home, .pass, .chan, .mesa, .meter, .qos, .ras, .tvx] t) ∧
  (∀ (e : Errs) (s : State), (s.chan.san.op = 0 ∨ (s.chan.san.op ≠ 3 ∧ s.chan.san.len ≤ s.chan.san.next)) →
    Completes (.sanitiseLine e) s fun t =>
      s.Only [] t) ∧
  (∀ (l : Nat) (e : ExtraE) (n : Ix16) (r : Errs) (s : State), (s.extra n).find? (fun x => x.line == l) = some e →
    e.wait = [] → s.storeHolds (l * 64) = false → Completes (.extraBlockReturn n l r) s fun t =>
      t.extra n = (s.extra n).filter (fun x => x.line != l) ∧ (∀ m, m ≠ n.val → t.extra m = s.extra m) ∧ t.home = s.home ∧
      s.Only [.regs, .mem, .marked, .net, .free, .core, .home, .pass, .chan, .mesa, .meter, .qos, .ras, .tvx] t) ∧
  (∀ (l : Nat) (n : Ix16) (r : Errs) (s : State),
    ((s.extra n).any (fun x => x.line == l) = false ∨ s.storeHolds (l * 64) = true) →
    Completes (.extraBlockReturn n l r) s fun t =>
      s.Only [] t) ∧
  (∀ (n : Ix16) (h : Fin 512) (x : HTxn) (l : Line) (e : Errs) (s : State), s.lock n h = some x →
    x.phase = .memory ∧ x.proxy = false ∧ x.alloc = false →
    s.extra n = [] ∧ s.storeHolds (s.dOfLine x.line) = false ∧ s.mcAdmits (s.dOfLine x.line) x.req.rcid = true →
    (s.storeRead (s.dOfLine x.line) e (x.line * 64) x.req.mcid).1 = .good l →
    x.work = .request ∧ x.req.opc = opRD_CUR ∧ x.req.cmo = 0 →
    x.req.srcPkg = s.pkgId ∧ x.memOk = true ∧ x.closed = false ∧ x.wasForwarded = false →
    s.home.toks = [] ∧ s.home.wbHeld = [] ∧ s.home.chHeld = [] → Completes (.memoryReadData n h e) s fun t =>
      t.lock n h = none ∧
      t.net = s.net ++ [{ vc := vcDATA, opc := opDATA_S, srcPkg := s.pkgId, srcAgent := agHOME + n, dstPkg := s.pkgId, dstAgent := x.req.srcAgent, txn := x.req.txn, addr := x.req.addr, htag := h, payload := true, dsrc := x.dsrc, data := l, mcid := x.req.mcid }] ∧
      t.home = { s.home with locks := t.home.locks } ∧
      s.Only [.regs, .mem, .marked, .net, .free, .core, .home, .pass, .chan, .mesa, .meter, .qos, .ras, .tvx] t) ∧
  (∀ (n : Ix16) (h : Fin 512) (e : Errs) (s : State), s.lock n h = none → Completes (.memoryReadData n h e) s fun t =>
      s.Only [] t) ∧
  (∀ (n : Ix16) (h : Fin 512) (x : HTxn) (e : Errs) (s : State), s.lock n h = some x →
    (x.phase ≠ .memory ∨ x.proxy = true ∨ s.storeHolds (s.dOfLine x.line) = true ∨ (s.extra n).any (fun y => y.wait.contains h.val) = true ∨ s.mcAdmits (s.dOfLine x.line) x.req.rcid = false) →
    Completes (.memoryReadData n h e) s fun t =>
      s.Only [] t)

/-- Over every effect of the lanes that a flit has on the way (State.onWire: scrambler position, lane CRCs; spec/06 R144,
R150): a PAYLOAD flit in SEQ order moves the next expected SEQ and DSEQ on, and its message is in the receive buffer
and with its receiver; a first transmission takes its sender's next SEQ, DSEQ and credits and is kept for replay; one
out of order is ignored; one that breaks R146 or R147 is discarded whole, its SEQ counted, with an urgent record; one
with a bad CRC charges the flit bucket, is NAKed and moves nothing (spec/06 R148, R149, R152, R154). An
acknowledgement frees the flits up to it, a credit report is taken, a NAK has the rest sent again (R149, R152); a
replay counts what it sends again; a control exchange without an answer is sent again (R149). A lane whose CRC differs
is counted and charges its bucket, whose permanent fault fails the lane (R163); the LANE_CHECK after a lost one only
begins a window (R170); a DOWN lane that is marked, by FAIL_GO or for loss of lock, is reported to the Basin end while
the port is ACTIVE, an UP lane is marked there. Nothing comes over a port that is not ACTIVE. -/
def Obligations.PassFlits : Prop :=
  (∀ (e : End) (p : Port) (f : Flit) (m : Msg) (s : State), s.passState p = passACTIVE → silentFlit f →
    f.typ = 0 ∧ f.msgs = [.ose m] ∧ slotStarts 0 f.msgs = some f.slotStart →
    (s.pEnd (1 - endNum e) p).replay.contains ⟨f.seq, f.dseq, f.msgs⟩ = true → (s.pEnd (endNum e) p).rxNext = f.seq →
    (s.strm (p / 2) (endNum e)).wait = [] ∧ (s.strm (p / 2) (endNum e)).rx = f.dseq → s.net.contains m = false →
    Completes (.passPayloadFlit e p f) s fun t =>
      t.net = s.net ++ [m] ∧
      (t.pEnd (endNum e) p) = { ((s.onWire (endNum e) p f).pEnd (endNum e) p) with
        rxNext := (f.seq + 1) % 1024, naks := 0, nak := false, rxq := (s.pEnd (endNum e) p).rxq ++ [(f.dseq, .ose m)]
          } ∧
      (t.pEnd (1 - endNum e) p) = ((s.onWire (endNum e) p f).pEnd (1 - endNum e) p) ∧
      t.strm (p / 2) (endNum e) = { (s.strm (p / 2) (endNum e)) with rx := (f.dseq + 1) % 4096 } ∧ t.pPort p = s.pPort p ∧
      s.OnlyPort p t ∧ s.OnlyFields (eventFields) t ∧ s.Only [.regs, .net, .pass] t) ∧
  (∀ (e : End) (p : Port) (f : Flit) (m : Msg) (s : State), s.passState p = passACTIVE → silentFlit f →
    f.typ = 0 ∧ f.msgs = [.ose m] ∧ slotStarts 0 f.msgs = some f.slotStart →
    (s.pEnd (1 - endNum e) p).replay.contains ⟨f.seq, f.dseq, f.msgs⟩ = true → (s.pEnd (endNum e) p).rxNext = f.seq →
    (s.strm (p / 2) (endNum e)).wait = [] ∧ (s.strm (p / 2) (endNum e)).rx = f.dseq → s.net.contains m = true →
    Completes (.passPayloadFlit e p f) s fun t =>
      t.net = s.net ∧
      (t.pEnd (endNum e) p) = { ((s.onWire (endNum e) p f).pEnd (endNum e) p) with
        rxNext := (f.seq + 1) % 1024, naks := 0, nak := false, rxq := (s.pEnd (endNum e) p).rxq ++ [(f.dseq, .ose m)]
          } ∧
      (t.pEnd (1 - endNum e) p) = ((s.onWire (endNum e) p f).pEnd (1 - endNum e) p) ∧
      t.strm (p / 2) (endNum e) = { (s.strm (p / 2) (endNum e)) with rx := (f.dseq + 1) % 4096 } ∧ t.pPort p = s.pPort p ∧
      s.OnlyPort p t ∧ s.OnlyFields (eventFields) t ∧ s.Only [.regs, .pass] t) ∧
  (∀ (e : End) (p : Port) (f : Flit) (m : Msg) (s : State), s.passState p = passACTIVE → silentFlit f →
    f.typ = 0 ∧ f.msgs = [.ose m] ∧ slotStarts 0 f.msgs = some f.slotStart →
    f.seq = (s.pEnd (1 - endNum e) p).txNext ∧ (s.pEnd (1 - endNum e) p).replay = [] ∧ (s.pEnd (1 - endNum e) p).moved = [] →
    f.dseq = ((s.strm (p / 2) (endNum e))).tx → s.mayCarry (1 - endNum e) p f.msgs (.ose m) = true →
    chanSlots f.msgs m.vc ≤ (s.pEnd (1 - endNum e) p).credits m.vc ∧ m.vc < 6 → (s.pEnd (endNum e) p).rxNext = f.seq →
    (s.strm (p / 2) (endNum e)).wait = [] ∧ (s.strm (p / 2) (endNum e)).rx = f.dseq →
    (s.net.contains m = true ∧ (endNum e = 0 ∨ (12 ≤ m.srcAgent ∧ m.srcPkg = s.pkgId))) →
    Completes (.passPayloadFlit e p f) s fun t =>
      t.net = s.net ∧
      (t.pEnd (1 - endNum e) p).replay = [⟨f.seq, f.dseq, f.msgs⟩] ∧ (t.pEnd (1 - endNum e) p).txNext = ((s.pEnd (1 - endNum
        e) p).txNext + 1) % 1024 ∧
      Tbl.get (fun _ => 0) (t.pEnd (1 - endNum e) p).sent m.vc = (Tbl.get (fun _ => 0) (s.pEnd (1 - endNum e) p).sent m.vc +
        chanSlots f.msgs m.vc) % 65536 ∧
      (t.pEnd (endNum e) p) = { ((s.onWire (endNum e) p f).pEnd (endNum e) p) with
        rxNext := (f.seq + 1) % 1024, naks := 0, nak := false, rxq := (s.pEnd (endNum e) p).rxq ++ [(f.dseq, .ose m)]
          } ∧
      t.strm (p / 2) (endNum e) = { (s.strm (p / 2) (endNum e)) with rx := (f.dseq + 1) % 4096, tx := (f.dseq + 1) % 4096 }
        ∧
      t.pPort p = s.pPort p ∧ s.OnlyPort p t ∧ s.OnlyFields (eventFields) t ∧ s.Only [.regs, .pass] t) ∧
  (∀ (e : End) (p : Port) (f : Flit) (s : State), s.passState p = passACTIVE → silentFlit f →
    f.typ = 0 ∧ slotStarts 0 f.msgs = some f.slotStart →
    (s.pEnd (1 - endNum e) p).replay.contains ⟨f.seq, f.dseq, f.msgs⟩ = true → (s.pEnd (endNum e) p).rxNext ≠ f.seq →
    Completes (.passPayloadFlit e p f) s fun t =>
      (t.pEnd (endNum e) p) = ((s.onWire (endNum e) p f).pEnd (endNum e) p) ∧
      (t.pEnd (1 - endNum e) p) = ((s.onWire (endNum e) p f).pEnd (1 - endNum e) p) ∧ t.pPort p = s.pPort p ∧
      s.OnlyPort p t ∧ s.SameStreams t ∧ s.OnlyFields (eventFields) t ∧ s.Only [.regs, .pass] t) ∧
  (∀ (e : End) (p : Port) (f : Flit) (s : State), s.passState p = passACTIVE → silentFlit f →
    (f.typ = 3 ∨ (f.typ = 0 ∧ slotStarts 0 f.msgs ≠ some f.slotStart)) →
    (s.pEnd (1 - endNum e) p).replay.contains ⟨f.seq, f.dseq, f.msgs⟩ = true → (s.pEnd (endNum e) p).rxNext = f.seq →
    f.msgs.length = 1 → (s.strm (p / 2) (endNum e)).wait = [] ∧ (s.strm (p / 2) (endNum e)).rx = f.dseq →
    Completes (.passPayloadFlit e p f) s fun t =>
      (t.pEnd (endNum e) p).rxNext = (f.seq + 1) % 1024 ∧ (t.pEnd (endNum e) p).rxq = (s.pEnd (endNum e) p).rxq ∧
      t.strm (p / 2) (endNum e) = { (s.strm (p / 2) (endNum e)) with rx := (f.dseq + 1) % 4096 } ∧
      t.get (R.PASS_EVENT_FORMAT_ERR (endNum e) p) = 1 ∧
      s.Records (bankPassEnd (endNum e) p) ⟨true, errUEC, false, 0, recInfo 0 0 0 s.pkgId, 0, s.pwr.now⟩ t ∧
      s.OnlyFields (linkFields p ++ (eventFields ++ reportFields)) t ∧ s.Only [.regs, .free, .core, .pass, .ras, .tvx] t) ∧
  (∀ (e : End) (p : Port) (f : Flit) (s : State), s.passState p = passACTIVE →
    f.ackV = false ∧ f.nak = false ∧ f.cr0Vc = 7 ∧ f.cr1Vc = 7 ∧ f.cr1Total = 0 → f.typ = 0 →
    flitHeard (s.pEnd (1 - endNum e) p).txMap f [] = none →
    (s.pEnd (1 - endNum e) p).replay.contains ⟨f.seq, f.dseq, f.msgs⟩ = true → (s.pEnd (endNum e) p).naks < 3 →
    (s.charge 8 (flitBucket (endNum e) p) false).2 = false → Completes (.passPayloadFlit e p f) s fun t =>
      (t.pEnd (endNum e) p) =
        { ((s.onWire (endNum e) p f).pEnd (endNum e) p) with naks := (s.pEnd (endNum e) p).naks + 1, nak := true } ∧
      (t.pEnd (1 - endNum e) p) = ((s.onWire (endNum e) p f).pEnd (1 - endNum e) p) ∧
      t.bucket 8 (flitBucket (endNum e) p) = (s.charge 8 (flitBucket (endNum e) p) false).1.bucket 8 (flitBucket (endNum e)
        p) ∧
      t.get (R.PASS_LINK_STATS_CRC_ERRORS (endNum e) p) = satAdd (R.PASS_LINK_STATS_CRC_ERRORS (endNum e) p).w (s.get
        (R.PASS_LINK_STATS_CRC_ERRORS (endNum e) p)) 1 ∧
      t.pPort p = s.pPort p ∧ s.OnlyPort p t ∧ s.SameStreams t ∧ s.OnlyFields (linkFields p ++ eventFields) t ∧
      s.Only [.regs, .pass, .ras] t) ∧
  (∀ (e : End) (p : Port) (f : Flit) (s : State),
    (s.passState p ≠ passACTIVE ∨ s.headerOf (1 - endNum e) p f = false ∨ (f.typ ≠ 0 ∧ flitBroken f = false)) →
    Completes (.passPayloadFlit e p f) s fun t =>
      s.Only [] t) ∧
  (∀ (e : End) (p : Port) (f : Flit) (s : State), s.passState p = passACTIVE → s.headerOf (1 - endNum e) p f = true →
    f.err = [] ∧ f.nak = false ∧ f.cr0Vc = 7 ∧ f.cr1Vc = 7 → f.ackV = true →
    (s.pEnd (endNum e) p).replay.any (fun x => x.seq == f.ackSeq) = true → Completes (.passIdleFlit e p f) s fun t =>
      (t.pEnd (endNum e) p) = { ((s.onWire (endNum e) p f).pEnd (endNum e) p) with
        replay := ((s.pEnd (endNum e) p).replay.dropWhile (fun x => x.seq != f.ackSeq)).drop 1 } ∧
      (t.pEnd (1 - endNum e) p) = ((s.onWire (endNum e) p f).pEnd (1 - endNum e) p) ∧ t.pPort p = s.pPort p ∧
      s.OnlyPort p t ∧ s.SameStreams t ∧ s.Only [.pass] t) ∧
  (∀ (e : End) (p : Port) (f : Flit) (s : State), s.passState p = passACTIVE → s.headerOf (1 - endNum e) p f = true →
    f.err = [] ∧ f.nak = false ∧ f.ackV = false → f.cr0Vc < 6 ∧ f.cr1Vc = 7 → Completes (.passIdleFlit e p f) s fun t =>
      Tbl.get (fun _ => 0) (t.pEnd (endNum e) p).rep f.cr0Vc = f.cr0Total % 65536 ∧
      (t.pEnd (endNum e) p) = { ((s.onWire (endNum e) p f).pEnd (endNum e) p) with rep := (t.pEnd (endNum e) p).rep } ∧
      (t.pEnd (1 - endNum e) p) = ((s.onWire (endNum e) p f).pEnd (1 - endNum e) p) ∧ t.pPort p = s.pPort p ∧
      s.OnlyPort p t ∧ s.SameStreams t ∧ s.Only [.pass] t) ∧
  (∀ (e : End) (p : Port) (f : Flit) (s : State), s.passState p = passACTIVE → s.headerOf (1 - endNum e) p f = true →
    f.err = [] ∧ f.cr0Vc = 7 ∧ f.cr1Vc = 7 ∧ f.ackV = true → f.nak = true →
    (s.pEnd (endNum e) p).replay.any (fun x => x.seq == f.ackSeq) = true → Completes (.passIdleFlit e p f) s fun t =>
      (t.pEnd (endNum e) p) = { ((s.onWire (endNum e) p f).pEnd (endNum e) p) with
        replay := ((s.pEnd (endNum e) p).replay.dropWhile (fun x => x.seq != f.ackSeq)).drop 1 } ∧
      (t.pEnd (1 - endNum e) p) = ((s.onWire (endNum e) p f).pEnd (1 - endNum e) p) ∧ ((s.onWire (endNum e) p f).pEnd (1 -
        endNum e) p).nak = false ∧
      t.get (R.PASS_LINK_STATS_REPLAYED (endNum e) p) = satAdd (R.PASS_LINK_STATS_REPLAYED (endNum e) p).w (s.get
        (R.PASS_LINK_STATS_REPLAYED (endNum e) p)) (t.pEnd (endNum e) p).replay.length ∧
      t.pPort p = s.pPort p ∧ s.OnlyPort p t ∧ s.SameStreams t ∧ s.OnlyFields (linkFields p ++ eventFields) t ∧
      s.Only [.regs, .pass] t) ∧
  (∀ (e : End) (p : Port) (f : Flit) (s : State), (s.passState p ≠ passACTIVE ∨ s.headerOf (1 - endNum e) p f = false) →
    Completes (.passIdleFlit e p f) s fun t =>
      s.Only [] t) ∧
  (∀ (e : End) (p : Port) (s : State), s.passState p = passACTIVE → 0 < (s.pEnd (endNum e) p).replay.length →
    Completes (.passReplayTimeout e p) s fun t =>
      t.get (R.PASS_LINK_STATS_REPLAYED (endNum e) p) = satAdd (R.PASS_LINK_STATS_REPLAYED (endNum e) p).w (s.get
        (R.PASS_LINK_STATS_REPLAYED (endNum e) p)) (s.pEnd (endNum e) p).replay.length ∧
      s.OnlyFields (R.PASS_LINK_STATS_REPLAYED (endNum e) p :: eventFields) t ∧ s.Only [.regs, .pass] t) ∧
  (∀ (e : End) (p : Port) (s : State), (s.passState p ≠ passACTIVE ∨ (s.pEnd (endNum e) p).replay = []) →
    Completes (.passReplayTimeout e p) s fun t =>
      s.Only [] t) ∧
  (∀ (e : End) (p : Port) (s : State), Completes (.passControlResend e p) s fun t =>
      (t.pEnd (endNum e) p) = { (s.pEnd (endNum e) p) with
        ctl := (s.pEnd (endNum e) p).ctl.map (fun c => { c with sent := c.sent + 1 }) } ∧
      (t.pEnd (1 - endNum e) p) = (s.pEnd (1 - endNum e) p) ∧ t.pPort p = s.pPort p ∧ s.OnlyPort p t ∧ s.SameStreams t ∧
      s.Only [.pass] t) ∧
  (∀ (e : End) (p : Port) (f : Flit) (crcs : List Nat) (l : Fin 68) (s : State), s.ControlAt p f →
    crcs.length = 68 ∧ crcs.all (fun c => decide (c < 65536)) = true →
    ((∀ k : Fin 68, k ≠ l → Tbl.get (fun _ => 0) (s.pEnd (endNum e) p).diff k = 0)) →
    Tbl.get (fun _ => 0) (s.pEnd (endNum e) p).diff l ≠ 0 ∧ Tbl.get (fun _ => 0) (s.pEnd (endNum e) p).diff l < 65536 →
    (s.pEnd (endNum e) p).rxGood.testBit l = true ∧ (s.pEnd (endNum e) p).skip = false →
    (s.charge 7 (laneBucket (endNum e) p l) false).2 = false → Completes (.laneCheck e p f crcs) s fun t =>
      Tbl.get (fun _ => 0) (t.pEnd (endNum e) p).win l = Tbl.get (fun _ => 0) (s.pEnd (endNum e) p).win l + 1 ∧
      Tbl.get (fun _ => 0) (t.pEnd (endNum e) p).mism l = satAdd 16 (Tbl.get (fun _ => 0) (s.pEnd (endNum e) p).mism l) 1 ∧
      t.bucket 7 (laneBucket (endNum e) p l) = (s.charge 7 (laneBucket (endNum e) p l) false).1.bucket 7 (laneBucket (endNum
        e) p l) ∧
      (t.pEnd (endNum e) p) = { ((s.onWire (endNum e) p f).pEnd (endNum e) p) with
        win := (t.pEnd (endNum e) p).win, mism := (t.pEnd (endNum e) p).mism, diff := [], skip := false } ∧
      (t.pEnd (1 - endNum e) p) = ((s.onWire (endNum e) p f).pEnd (1 - endNum e) p) ∧ t.pPort p = s.pPort p ∧
      s.OnlyPort p t ∧ s.SameStreams t ∧ s.OnlyFields (linkFields p) t ∧ s.Only [.regs, .pass, .ras] t) ∧
  (∀ (p : Port) (f : Flit) (crcs : List Nat) (l : Fin 68) (s : State), s.ControlAt p f →
    crcs.length = 68 ∧ crcs.all (fun c => decide (c < 65536)) = true →
    ((∀ k : Fin 68, k ≠ l → Tbl.get (fun _ => 0) (s.pEnd 1 p).diff k = 0)) →
    Tbl.get (fun _ => 0) (s.pEnd 1 p).diff l ≠ 0 ∧ Tbl.get (fun _ => 0) (s.pEnd 1 p).diff l < 65536 →
    (s.pEnd 1 p).rxGood.testBit l = true ∧ (s.pEnd 1 p).skip = false → (s.charge 7 (laneBucket 1 p l) false).2 = true →
    (s.pEnd 1 p).failed.testBit l = false → Completes (.laneCheck .vale p f crcs) s fun t =>
      Tbl.get (fun _ => 0) (t.pEnd 1 p).win l = Tbl.get (fun _ => 0) (s.pEnd 1 p).win l + 1 ∧
      Tbl.get (fun _ => 0) (t.pEnd 1 p).mism l = satAdd 16 (Tbl.get (fun _ => 0) (s.pEnd 1 p).mism l) 1 ∧
      t.bucket 7 (laneBucket 1 p l) = (s.charge 7 (laneBucket 1 p l) false).1.bucket 7 (laneBucket 1 p l) ∧
      (t.pEnd 1 p).failed = setBits (s.pEnd 1 p).failed l 1 1 ∧ (t.pEnd 1 p).rxGood = setBits (s.pEnd 1 p).rxGood l 1 0 ∧
      (t.pEnd 1 p).ctl = (s.pEnd 1 p).ctl ++ [{ ctype := 2, a := l }] ∧
      t.tvx.lanes = (s.pwr.now, p.val / 2) :: s.tvx.lanes ∧ t.pPort p = s.pPort p ∧ s.OnlyPort p t ∧ s.SameStreams t ∧
      s.OnlyFields (linkFields p ++ reportFields) t ∧ s.Only [.regs, .pass, .ras, .tvx] t) ∧
  (∀ (p : Port) (f : Flit) (crcs : List Nat) (l : Fin 68) (s : State), s.ControlAt p f →
    crcs.length = 68 ∧ crcs.all (fun c => decide (c < 65536)) = true →
    ((∀ k : Fin 68, k ≠ l → Tbl.get (fun _ => 0) (s.pEnd 0 p).diff k = 0)) →
    Tbl.get (fun _ => 0) (s.pEnd 0 p).diff l ≠ 0 ∧ Tbl.get (fun _ => 0) (s.pEnd 0 p).diff l < 65536 →
    (s.pEnd 0 p).rxGood.testBit l = true ∧ (s.pEnd 0 p).skip = false → (s.charge 7 (laneBucket 0 p l) false).2 = true →
    (s.pEnd 0 p).failed.testBit l = false → (s.pPort p).up.testBit l = false →
    16 ≤ popCount 68 (PPort.goodUp { s.pPort p with up := setBits (s.pPort p).up l 1 1 }) →
    Completes (.laneCheck .basin p f crcs) s fun t =>
      (t.pEnd 0 p).failed = setBits (s.pEnd 0 p).failed l 1 1 ∧ (t.pEnd 0 p).rxGood = setBits (s.pEnd 0 p).rxGood l 1 0 ∧
      (t.pPort p).up = setBits (s.pPort p).up l 1 1 ∧ t.tvx.lanes = (s.pwr.now, p.val / 2) :: s.tvx.lanes ∧ s.OnlyPort p t ∧
      s.SameStreams t ∧
      s.Only [.regs, .mem, .marked, .net, .free, .core, .die, .home, .pass, .mesa, .meter, .qos, .io, .ras, .tvx] t) ∧
  (∀ (e : End) (p : Port) (f : Flit) (crcs : List Nat) (s : State), s.ControlAt p f →
    crcs.length = 68 ∧ crcs.all (fun c => decide (c < 65536)) = true → (s.pEnd (endNum e) p).skip = true →
    Completes (.laneCheck e p f crcs) s fun t =>
      (t.pEnd (endNum e) p) = { ((s.onWire (endNum e) p f).pEnd (endNum e) p) with diff := [], skip := false } ∧
      (t.pEnd (1 - endNum e) p) = ((s.onWire (endNum e) p f).pEnd (1 - endNum e) p) ∧ t.pPort p = s.pPort p ∧
      s.OnlyPort p t ∧ s.SameStreams t ∧ s.OnlyFields (linkFields p) t ∧ s.Only [.regs, .pass] t) ∧
  (∀ (e : End) (p : Port) (f : Flit) (crcs : List Nat) (s : State), s.passState p = passACTIVE →
    f.ackV = false ∧ f.nak = false ∧ f.cr0Vc = 7 ∧ f.cr1Vc = 7 ∧ f.cr1Total = 0 →
    flitHeard (s.pEnd (1 - endNum e) p).txMap { f with typ := 1, seq := 0, dseq := 0, slotStart := 0, msgs := [], ctype := 1 } (crcs.flatMap (leBytes 2)) = none →
    (s.pEnd (endNum e) p).naks < 3 → Completes (.laneCheck e p f crcs) s fun t =>
      (t.pEnd (endNum e) p) = { ((s.onWire (endNum e) p f).pEnd (endNum e) p) with
        skip := true, naks := (s.pEnd (endNum e) p).naks + 1, nak := true } ∧
      (t.pEnd (1 - endNum e) p) = ((s.onWire (endNum e) p f).pEnd (1 - endNum e) p) ∧ t.pPort p = s.pPort p ∧
      s.OnlyPort p t ∧ s.SameStreams t ∧ s.OnlyFields (linkFields p) t ∧ s.Only [.regs, .pass] t) ∧
  (∀ (e : End) (p : Port) (f : Flit) (crcs : List Nat) (s : State), s.passState p ≠ passACTIVE →
    Completes (.laneCheck e p f crcs) s fun t =>
      s.Only [] t) ∧
  (∀ (p : Port) (l : Fin 68) (s : State), s.passState p = passACTIVE → (s.pEnd 1 p).failed.testBit l = false →
    Completes (.passFailGo p l true) s fun t =>
      t.pEnd 1 p = { s.pEnd 1 p with failed := setBits (s.pEnd 1 p).failed l 1 1, rxGood := setBits (s.pEnd 1 p).rxGood l 1 0, ctl := (s.pEnd 1 p).ctl ++ [{ ctype := 2, a := l }] } ∧
      t.pEnd 0 p = s.pEnd 0 p ∧ t.tvx.lanes = (s.pwr.now, p.val / 2) :: s.tvx.lanes ∧ t.pPort p = s.pPort p ∧
      s.OnlyPort p t ∧ s.SameStreams t ∧ s.OnlyFields (linkFields p ++ reportFields) t ∧ s.Only [.regs, .pass, .tvx] t) ∧
  (∀ (p : Port) (l : Fin 68) (s : State), s.passState p ≠ passACTIVE → (s.pEnd 1 p).failed.testBit l = false →
    Completes (.passFailGo p l true) s fun t =>
      t.pEnd 1 p =
        { s.pEnd 1 p with failed := setBits (s.pEnd 1 p).failed l 1 1, rxGood := setBits (s.pEnd 1 p).rxGood l 1 0 } ∧
      t.pEnd 0 p = s.pEnd 0 p ∧ t.tvx.lanes = (s.pwr.now, p.val / 2) :: s.tvx.lanes ∧ t.pPort p = s.pPort p ∧
      s.OnlyPort p t ∧ s.SameStreams t ∧ s.OnlyFields (linkFields p ++ reportFields) t ∧ s.Only [.regs, .pass, .tvx] t) ∧
  (∀ (p : Port) (l : Fin 68) (s : State), s.passState p = passACTIVE →
    (s.pEnd 0 p).failed.testBit l = false ∧ (s.pPort p).up.testBit l = false →
    16 ≤ popCount 68 (PPort.goodUp { s.pPort p with up := setBits (s.pPort p).up l 1 1 }) →
    (s.pEnd 0 p).rxMap.contains l.val = false ∧ (s.pPort p).swU = none → Completes (.passFailGo p l false) s fun t =>
      t.pEnd 0 p =
        { s.pEnd 0 p with failed := setBits (s.pEnd 0 p).failed l 1 1, rxGood := setBits (s.pEnd 0 p).rxGood l 1 0 } ∧
      t.pEnd 1 p = s.pEnd 1 p ∧ t.pPort p = { s.pPort p with up := setBits (s.pPort p).up l 1 1 } ∧
      t.tvx.lanes = (s.pwr.now, p.val / 2) :: s.tvx.lanes ∧ s.OnlyPort p t ∧ s.SameStreams t ∧
      s.OnlyFields (linkFields p ++ reportFields) t ∧ s.Only [.regs, .pass, .tvx] t) ∧
  (∀ (p : Port) (l : Fin 68) (s : State), s.passState p = passACTIVE → (s.pEnd 1 p).failed.testBit l = false →
    Completes (.passLaneLossOfLock p l true) s fun t =>
      t.pEnd 1 p = { s.pEnd 1 p with lol := setBits (s.pEnd 1 p).lol l 1 1, failed := setBits (s.pEnd 1 p).failed l 1 1, rxGood := setBits (s.pEnd 1 p).rxGood l 1 0, ctl := (s.pEnd 1 p).ctl ++ [{ ctype := 2, a := l }] } ∧
      t.pEnd 0 p = s.pEnd 0 p ∧ t.tvx.lanes = (s.pwr.now, p.val / 2) :: s.tvx.lanes ∧ t.pPort p = s.pPort p ∧
      s.OnlyPort p t ∧ s.SameStreams t ∧ s.OnlyFields (linkFields p ++ reportFields) t ∧ s.Only [.regs, .pass, .tvx] t) ∧
  (∀ (p : Port) (l : Fin 68) (s : State), s.passState p ≠ passACTIVE → (s.pEnd 1 p).failed.testBit l = false →
    Completes (.passLaneLossOfLock p l true) s fun t =>
      t.pEnd 1 p = { s.pEnd 1 p with lol := setBits (s.pEnd 1 p).lol l 1 1, failed := setBits (s.pEnd 1 p).failed l 1 1, rxGood := setBits (s.pEnd 1 p).rxGood l 1 0 } ∧
      t.pEnd 0 p = s.pEnd 0 p ∧ t.tvx.lanes = (s.pwr.now, p.val / 2) :: s.tvx.lanes ∧ t.pPort p = s.pPort p ∧
      s.OnlyPort p t ∧ s.SameStreams t ∧ s.OnlyFields (linkFields p ++ reportFields) t ∧ s.Only [.regs, .pass, .tvx] t) ∧
  (∀ (p : Port) (l : Fin 68) (s : State), s.passState p = passACTIVE →
    (s.pEnd 0 p).failed.testBit l = false ∧ (s.pPort p).up.testBit l = false →
    16 ≤ popCount 68 (PPort.goodUp { s.pPort p with up := setBits (s.pPort p).up l 1 1 }) →
    (s.pEnd 0 p).rxMap.contains l.val = false ∧ (s.pPort p).swU = none →
    Completes (.passLaneLossOfLock p l false) s fun t =>
      t.pEnd 0 p = { s.pEnd 0 p with lol := setBits (s.pEnd 0 p).lol l 1 1, failed := setBits (s.pEnd 0 p).failed l 1 1, rxGood := setBits (s.pEnd 0 p).rxGood l 1 0 } ∧
      t.pEnd 1 p = s.pEnd 1 p ∧ t.pPort p = { s.pPort p with up := setBits (s.pPort p).up l 1 1 } ∧
      t.tvx.lanes = (s.pwr.now, p.val / 2) :: s.tvx.lanes ∧ s.OnlyPort p t ∧ s.SameStreams t ∧
      s.OnlyFields (linkFields p ++ reportFields) t ∧ s.Only [.regs, .pass, .tvx] t) ∧
  (∀ (p : Port) (l : Fin 68) (down : Bool) (s : State), (s.pEnd (if down then 1 else 0) p).failed.testBit l = true →
    Completes (.passLaneLossOfLock p l down) s fun t =>
      s.Only [] t)

/-- Over what the lanes do to every flit (State.onWire): a failed DOWN lane that the Vale end reports is marked, and its
logical lane moves to the lowest spare; without a spare the Basin end asks for a retrain, and with fewer than 16 good
lanes the port is retired; an UP lane moves at the Vale end on SWAP_CMD; the receiver moves at SWAP_MARK, and
SWAP_DONE ends the swap; one that names no swap in progress changes nothing (spec/06 R163, R164); a retrain request
takes the port to RETRAIN and abandons swaps (R165, R170), and PASS_CTL.RETRAIN makes one; HANDOVER moves the flits of
the named port to its sibling, and the handover ends when both ends are done, with a full train where the port
escalated (R167); an escalation takes the port down and hands its flits over to a sibling that runs, and keeps its
replay buffers where the sibling is retired (R166). On a port that is not ACTIVE no CONTROL flit has an effect. -/
def Obligations.PassControl : Prop :=
  (∀ (p : Port) (f : Flit) (l : Fin 68) (sp : Nat) (s : State), s.ControlAt p f → (s.pPort p).down.testBit l = false →
    16 ≤ popCount 68 (PPort.goodDown { s.pPort p with down := setBits (s.pPort p).down l 1 1 }) → (s.pPort p).swD = none →
    (s.pEnd 0 p).txMap.contains l.val = true →
    (s.spares p (setBits (s.pEnd 0 p).txGood l 1 0) (s.pEnd 0 p).txMap none).head? = some sp →
    Completes (.swapReq p f l) s fun t =>
      t.pPort p = { s.pPort p with down := setBits (s.pPort p).down l 1 1, swD := some { log := (s.pEnd 0 p).txMap.idxOf l.val, lane := l, spare := sp, marked := true } } ∧
      t.pEnd 0 p = { ((s.onWire 0 p f).pEnd 0 p) with
        txGood := setBits (s.pEnd 0 p).txGood l 1 0, txMap := (s.pEnd 0 p).txMap.set ((s.pEnd 0 p).txMap.idxOf l.val)
          sp, ctl := (s.pEnd 0 p).ctl ++ [{ ctype := 4, a := l, b := sp }] } ∧
      t.pEnd 1 p = { ((s.onWire 0 p f).pEnd 1 p) with
        ctl := (s.pEnd 1 p).ctl.filter (fun c => !(c.ctype == 2 && c.a == l.val)) } ∧
      s.OnlyPort p t ∧ s.SameStreams t ∧ s.OnlyFields (linkFields p) t ∧ s.Only [.regs, .pass] t) ∧
  (∀ (p : Port) (f : Flit) (l : Fin 68) (s : State), s.ControlAt p f → (s.pPort p).down.testBit l = false →
    16 ≤ popCount 68 (PPort.goodDown { s.pPort p with down := setBits (s.pPort p).down l 1 1 }) → (s.pPort p).swD = none →
    (s.pEnd 0 p).txMap.contains l.val = true →
    (s.spares p (setBits (s.pEnd 0 p).txGood l 1 0) (s.pEnd 0 p).txMap none) = [] → (s.pEnd 0 p).want = none →
    Completes (.swapReq p f l) s fun t =>
      t.pPort p = { s.pPort p with down := setBits (s.pPort p).down l 1 1 } ∧
      t.pEnd 0 p = { ((s.onWire 0 p f).pEnd 0 p) with
        txGood := setBits (s.pEnd 0 p).txGood l 1 0, want := some 0, ctl := (s.pEnd 0 p).ctl ++ [{ ctype := 6 }] } ∧
      t.pEnd 1 p = { ((s.onWire 0 p f).pEnd 1 p) with
        ctl := (s.pEnd 1 p).ctl.filter (fun c => !(c.ctype == 2 && c.a == l.val)) } ∧
      s.OnlyPort p t ∧ s.SameStreams t ∧ s.OnlyFields (linkFields p) t ∧ s.Only [.regs, .pass] t) ∧
  (∀ (p : Port) (f : Flit) (l : Fin 68) (s : State), s.ControlAt p f → (s.pPort p).down.testBit l = false →
    16 ≤ popCount 68 (PPort.goodDown { s.pPort p with down := setBits (s.pPort p).down l 1 1 }) → (s.pPort p).swD = none →
    (s.pEnd 0 p).txMap.contains l.val = false → Completes (.swapReq p f l) s fun t =>
      t.pPort p = { s.pPort p with down := setBits (s.pPort p).down l 1 1 } ∧
      t.pEnd 0 p = { ((s.onWire 0 p f).pEnd 0 p) with txGood := setBits (s.pEnd 0 p).txGood l 1 0 } ∧
      t.pEnd 1 p = { ((s.onWire 0 p f).pEnd 1 p) with
        ctl := (s.pEnd 1 p).ctl.filter (fun c => !(c.ctype == 2 && c.a == l.val)) } ∧
      s.OnlyPort p t ∧ s.SameStreams t ∧ s.OnlyFields (linkFields p) t ∧ s.Only [.regs, .pass] t) ∧
  (∀ (p : Port) (f : Flit) (l : Fin 68) (s : State), s.ControlAt p f → (s.pPort p).down.testBit l = true →
    Completes (.swapReq p f l) s fun t =>
      t.pPort p = s.pPort p ∧ t.pEnd 0 p = ((s.onWire 0 p f).pEnd 0 p) ∧
      t.pEnd 1 p = { ((s.onWire 0 p f).pEnd 1 p) with
        ctl := (s.pEnd 1 p).ctl.filter (fun c => !(c.ctype == 2 && c.a == l.val)) } ∧
      s.OnlyPort p t ∧ s.SameStreams t ∧ s.OnlyFields (linkFields p) t ∧ s.Only [.regs, .pass] t) ∧
  (∀ (p : Port) (f : Flit) (l : Fin 68) (s : State), s.ControlAt p f → (s.pPort p).down.testBit l = false →
    popCount 68 (PPort.goodDown { s.pPort p with down := setBits (s.pPort p).down l 1 1 }) < 16 →
    Completes (.swapReq p f l) s fun t =>
      t.passState p = passRETIRED ∧ t.get (R.PASS_EVENT_RETIRED 0 p) = 1 ∧ t.get (R.PASS_EVENT_RETIRED 1 p) = 1 ∧
      (t.pPort p).down = setBits (s.pPort p).down l 1 1 ∧
      s.Only [.regs, .mem, .marked, .net, .free, .core, .die, .home, .pass, .mesa, .meter, .qos, .io, .ras, .tvx] t) ∧
  (∀ (p : Port) (f : Flit) (l sp : Fin 68) (w : PSwap) (s : State), s.ControlAt p f → (s.pPort p).swU = some w →
    w.lane = l ∧ w.spare = sp ∧ w.marked = false → Completes (.swapCmd p f l sp) s fun t =>
      t.pPort p = { s.pPort p with swU := some { w with marked := true } } ∧
      t.pEnd 1 p = { ((s.onWire 1 p f).pEnd 1 p) with
        txMap := (s.pEnd 1 p).txMap.set w.log sp, txGood := setBits (s.pEnd 1 p).txGood l 1 0, ctl := (s.pEnd 1 p).ctl
          ++ [{ ctype := 4, a := l, b := sp }] } ∧
      t.pEnd 0 p = { ((s.onWire 1 p f).pEnd 0 p) with
        ctl := (s.pEnd 0 p).ctl.filter (fun c => !(c.ctype == 3 && c.a == l.val)) } ∧
      s.OnlyPort p t ∧ s.SameStreams t ∧ s.OnlyFields (linkFields p) t ∧ s.Only [.regs, .pass] t) ∧
  (∀ (p : Port) (f : Flit) (l sp : Fin 68) (s : State), s.ControlAt p f →
    (∀ w, (s.pPort p).swU = some w → ¬ (w.lane = l ∧ w.spare = sp ∧ w.marked = false)) →
    Completes (.swapCmd p f l sp) s fun t =>
      t.pPort p = s.pPort p ∧ t.pEnd 0 p = ((s.onWire 1 p f).pEnd 0 p) ∧ t.pEnd 1 p = ((s.onWire 1 p f).pEnd 1 p) ∧
      s.OnlyPort p t ∧ s.SameStreams t ∧ s.OnlyFields (linkFields p) t ∧ s.Only [.regs, .pass] t) ∧
  (∀ (e : End) (p : Port) (f : Flit) (l sp : Fin 68) (w : PSwap) (s : State), s.ControlAt p f →
    s.swapOf (endNum e) p = some w → w.lane = l ∧ w.spare = sp ∧ w.marked = true ∧ w.moved = false →
    Completes (.swapMark e p f l sp) s fun t =>
      t.swapOf (endNum e) p = some { w with moved := true } ∧
      t.pPort p = { s.pPort p with swU := (t.pPort p).swU, swD := (t.pPort p).swD } ∧ t.swapOf (1 - endNum e) p = s.swapOf
        (1 - endNum e) p ∧
      (t.pEnd (endNum e) p) = { ((s.onWire (endNum e) p f).pEnd (endNum e) p) with
        rxMap := (s.pEnd (endNum e) p).rxMap.set w.log sp, rxGood := setBits (s.pEnd (endNum e) p).rxGood l 1 0 } ∧
      (t.pEnd (1 - endNum e) p) = ((s.onWire (endNum e) p f).pEnd (1 - endNum e) p) ∧
      t.get (R.PASS_EVENT_SPARED (endNum e) p) = 1 ∧ s.OnlyPort p t ∧ s.SameStreams t ∧
      s.OnlyFields (linkFields p ++ reportFields) t ∧ s.Only [.regs, .pass, .tvx] t) ∧
  (∀ (e : End) (p : Port) (f : Flit) (l sp : Fin 68) (s : State), s.ControlAt p f →
    (∀ w, s.swapOf (endNum e) p = some w → ¬ (w.lane = l ∧ w.spare = sp ∧ w.marked = true ∧ w.moved = false)) →
    Completes (.swapMark e p f l sp) s fun t =>
      t.pPort p = s.pPort p ∧ (t.pEnd (endNum e) p) = ((s.onWire (endNum e) p f).pEnd (endNum e) p) ∧
      (t.pEnd (1 - endNum e) p) = ((s.onWire (endNum e) p f).pEnd (1 - endNum e) p) ∧ s.OnlyPort p t ∧ s.SameStreams t ∧
      s.OnlyFields (linkFields p) t ∧ s.Only [.regs, .pass] t) ∧
  (∀ (e : End) (p : Port) (f : Flit) (l sp : Fin 68) (w : PSwap) (s : State), s.ControlAt p f →
    s.swapOf (1 - endNum e) p = some w → w.lane = l ∧ w.spare = sp ∧ w.moved = true →
    (s.pPort p).pend.all (fun q => q.1 != (endNum e == 0)) = true → Completes (.swapDone e p f l sp) s fun t =>
      t.swapOf (1 - endNum e) p = none ∧
      t.pPort p = { s.pPort p with swU := (t.pPort p).swU, swD := (t.pPort p).swD } ∧ t.swapOf (endNum e) p = s.swapOf
        (endNum e) p ∧
      (t.pEnd (endNum e) p) = { ((s.onWire (endNum e) p f).pEnd (endNum e) p) with
        ctl := (s.pEnd (endNum e) p).ctl.filter (fun c => !(c.ctype == 4 && c.a == l.val)) } ∧
      (t.pEnd (1 - endNum e) p) = ((s.onWire (endNum e) p f).pEnd (1 - endNum e) p) ∧
      t.get (R.PASS_EVENT_SPARED (endNum e) p) = 1 ∧ s.OnlyPort p t ∧ s.SameStreams t ∧
      s.OnlyFields (linkFields p ++ reportFields) t ∧ s.Only [.regs, .pass, .tvx] t) ∧
  (∀ (e : End) (p : Port) (f : Flit) (l sp : Fin 68) (s : State), s.ControlAt p f →
    (∀ w, s.swapOf (1 - endNum e) p = some w → ¬ (w.lane = l ∧ w.spare = sp ∧ w.moved = true)) →
    Completes (.swapDone e p f l sp) s fun t =>
      t.pPort p = s.pPort p ∧ (t.pEnd (endNum e) p) = ((s.onWire (endNum e) p f).pEnd (endNum e) p) ∧
      (t.pEnd (1 - endNum e) p) = ((s.onWire (endNum e) p f).pEnd (1 - endNum e) p) ∧ s.OnlyPort p t ∧ s.SameStreams t ∧
      s.OnlyFields (linkFields p) t ∧ s.Only [.regs, .pass] t) ∧
  (∀ (e : End) (p : Port) (f : Flit) (r : Fin 256) (s : State), s.ControlAt p f →
    (s.pEnd (1 - endNum e) p).want = some r.val → Completes (.passRetrainReq e p f r) s fun t =>
      t.passState p = passRETRAIN ∧ t.get (R.PASS_STATUS_STATE 1 p) = passRETRAIN ∧
      t.pPort p = { s.pPort p with att := 1, swU := none, swD := none, pend := [], mapped := false, fb := false, oldW := s.get (R.PASS_STATUS_WIDTH 0 p), rev := 0, noRev := false, sum := none } ∧
      (t.pEnd (endNum e) p) = { ((s.onWire (endNum e) p f).pEnd (endNum e) p) with
        want := none, ctl := (s.pEnd (endNum e) p).ctl.filter (fun c => c.ctype == 7), cfg := false, naks := 0, nak :=
          false } ∧
      (t.pEnd (1 - endNum e) p) = { ((s.onWire (endNum e) p f).pEnd (1 - endNum e) p) with
        want := none, ctl := (s.pEnd (1 - endNum e) p).ctl.filter (fun c => c.ctype == 7), cfg := false, naks := 0,
          nak := false } ∧
      t.get (R.PASS_TRAIN_INFO_MAP_ATTEMPTS 0 p) = 1 ∧ t.get (R.PASS_TRAIN_INFO_MAP_ATTEMPTS 1 p) = 1 ∧
      t.get (R.PASS_TRAIN_INFO_RETRAINS 0 p) = satAdd 16 (s.get (R.PASS_TRAIN_INFO_RETRAINS 0 p)) 1 ∧ s.OnlyPort p t ∧
      s.SameStreams t ∧ s.OnlyFields (linkFields p) t ∧ s.Only [.regs, .pass] t) ∧
  (∀ (e : End) (p : Port) (f : Flit) (r : Fin 256) (s : State), s.ControlAt p f →
    (s.pEnd (1 - endNum e) p).want ≠ some r.val → Completes (.passRetrainReq e p f r) s fun t =>
      t.pPort p = s.pPort p ∧ (t.pEnd (endNum e) p) = ((s.onWire (endNum e) p f).pEnd (endNum e) p) ∧
      (t.pEnd (1 - endNum e) p) = ((s.onWire (endNum e) p f).pEnd (1 - endNum e) p) ∧ s.OnlyPort p t ∧ s.SameStreams t ∧
      s.OnlyFields (linkFields p) t ∧ s.Only [.regs, .pass] t) ∧
  (∀ (e : End) (p : Port) (f : Flit) (q : Port) (n : Nat) (s : State), s.ControlAt p f →
    q.val = sibling p ∧ (s.pPort q).hand = .runs → n = (s.pEnd (1 - endNum e) q).rxNext ∧ n < 1024 →
    Completes (.passHandover e p f q n) s fun t =>
      t.pEnd (endNum e) q = { (s.pEnd (endNum e) q) with replay := [], moved := [], hand := true } ∧
      (t.pEnd (endNum e) p) = { ((s.onWire (endNum e) p f).pEnd (endNum e) p) with
        moved := (s.pEnd (endNum e) p).moved ++ (s.pEnd (endNum e) q).handed n } ∧
      (t.pEnd (1 - endNum e) p) = ((s.onWire (endNum e) p f).pEnd (1 - endNum e) p) ∧
      t.pEnd (1 - endNum e) q = s.pEnd (1 - endNum e) q ∧
      t.get (R.PASS_LINK_STATS_REPLAYED (endNum e) p) = satAdd (R.PASS_LINK_STATS_REPLAYED (endNum e) p).w (s.get
        (R.PASS_LINK_STATS_REPLAYED (endNum e) p)) ((s.pEnd (endNum e) q).handed n).length ∧
      (∀ k, k < 24 → k ≠ p.val → k ≠ q.val → t.pPort k = s.pPort k ∧ t.pEnd 0 k = s.pEnd 0 k ∧ t.pEnd 1 k = s.pEnd 1 k) ∧
      t.pass.ports = s.pass.ports ∧ s.SameStreams t ∧ s.OnlyFields (linkFields p ++ eventFields) t ∧
      s.Only [.regs, .pass] t) ∧
  (∀ (e : End) (p : Port) (f : Flit) (q : Port) (n : Nat) (s : State), s.ControlAt p f →
    (q.val ≠ sibling p ∨ (s.pPort q).hand ≠ .runs ∨ n % 65536 ≠ (s.pEnd (1 - endNum e) q).rxNext) →
    Completes (.passHandover e p f q n) s fun t =>
      t.pPort p = s.pPort p ∧ (t.pEnd (endNum e) p) = ((s.onWire (endNum e) p f).pEnd (endNum e) p) ∧
      (t.pEnd (1 - endNum e) p) = ((s.onWire (endNum e) p f).pEnd (1 - endNum e) p) ∧ s.OnlyPort p t ∧ s.SameStreams t ∧
      s.OnlyFields (linkFields p) t ∧ s.Only [.regs, .pass] t) ∧
  (∀ (e : End) (p : Port) (f : Flit) (q : Port) (s : State), s.ControlAt p f → q.val = sibling p ∧ (s.pPort q).hand = .runs →
    (s.pPort q).full = false →
    (s.pEnd (1 - endNum e) q).hand = true ∧ (s.pEnd (1 - endNum e) q).handDone = true ∧ (s.pEnd (1 - endNum e) p).moved = [] →
    Completes (.passHandoverDone e p f q) s fun t =>
      t.pPort q = { s.pPort q with hand := .no } ∧ t.pEnd (endNum e) q = { (s.pEnd (endNum e) q) with handDone := true } ∧
      (t.pEnd (endNum e) p) = { ((s.onWire (endNum e) p f).pEnd (endNum e) p) with
        ctl := (s.pEnd (endNum e) p).ctl.filter (fun c => !(c.ctype == 7 && c.a == q.val)) } ∧
      (t.pEnd (1 - endNum e) p) = ((s.onWire (endNum e) p f).pEnd (1 - endNum e) p) ∧
      t.pEnd (1 - endNum e) q = s.pEnd (1 - endNum e) q ∧ t.pPort p = s.pPort p ∧
      (∀ k, k < 24 → k ≠ p.val → k ≠ q.val → t.pPort k = s.pPort k ∧ t.pEnd 0 k = s.pEnd 0 k ∧ t.pEnd 1 k = s.pEnd 1 k) ∧
      s.SameStreams t ∧ s.OnlyFields (linkFields p) t ∧ s.Only [.regs, .pass] t) ∧
  (∀ (e : End) (p : Port) (f : Flit) (q : Port) (s : State), s.ControlAt p f → q.val = sibling p ∧ (s.pPort q).hand = .runs →
    (s.pEnd (1 - endNum e) q).hand = true ∧ (s.pEnd (1 - endNum e) q).handDone = false ∧ (s.pEnd (1 - endNum e) p).moved = [] →
    Completes (.passHandoverDone e p f q) s fun t =>
      t.pEnd (endNum e) q = { (s.pEnd (endNum e) q) with handDone := true } ∧
      (t.pEnd (endNum e) p) = { ((s.onWire (endNum e) p f).pEnd (endNum e) p) with
        ctl := (s.pEnd (endNum e) p).ctl.filter (fun c => !(c.ctype == 7 && c.a == q.val)) } ∧
      (t.pEnd (1 - endNum e) p) = ((s.onWire (endNum e) p f).pEnd (1 - endNum e) p) ∧
      t.pEnd (1 - endNum e) q = s.pEnd (1 - endNum e) q ∧ t.pass.ports = s.pass.ports ∧ s.SameStreams t ∧
      (∀ k, k < 24 → k ≠ p.val → k ≠ q.val → t.pPort k = s.pPort k ∧ t.pEnd 0 k = s.pEnd 0 k ∧ t.pEnd 1 k = s.pEnd 1 k) ∧
      s.OnlyFields (linkFields p) t ∧ s.Only [.regs, .pass] t) ∧
  (∀ (e : End) (p : Port) (f : Flit) (q : Port) (s : State), s.ControlAt p f → q.val = sibling p ∧ (s.pPort q).hand = .runs →
    (s.pPort q).full = true →
    (s.pEnd (1 - endNum e) q).hand = true ∧ (s.pEnd (1 - endNum e) q).handDone = true ∧ (s.pEnd (1 - endNum e) p).moved = [] →
    Completes (.passHandoverDone e p f q) s fun t =>
      t.passState q = passDETECT ∧
      (t.pPort q).hand = .no ∧ (t.pPort q).full = false ∧ (t.pPort q).tUp = lanes68 ∧ (t.pPort q).tDown = lanes68 ∧
      (t.pEnd 0 q).replay = [] ∧ (t.pEnd 1 q).replay = [] ∧ (t.pEnd 0 q).rxNext = 0 ∧ (t.pEnd 1 q).rxNext = 0 ∧
      (t.pEnd (endNum e) p) = { ((s.onWire (endNum e) p f).pEnd (endNum e) p) with
        ctl := (s.pEnd (endNum e) p).ctl.filter (fun c => !(c.ctype == 7 && c.a == q.val)) } ∧
      (t.pEnd (1 - endNum e) p) = ((s.onWire (endNum e) p f).pEnd (1 - endNum e) p) ∧ t.pPort p = s.pPort p ∧
      (∀ k, k < 24 → k ≠ p.val → k ≠ q.val → t.pPort k = s.pPort k ∧ t.pEnd 0 k = s.pEnd 0 k ∧ t.pEnd 1 k = s.pEnd 1 k) ∧
      s.SameStreams t ∧ s.OnlyFields (linkFields p ++ linkFields q) t ∧ s.Only [.regs, .pass] t) ∧
  (∀ (e : End) (p : Port) (f : Flit) (q : Port) (s : State), s.ControlAt p f →
    (q.val ≠ sibling p ∨ (s.pPort q).hand ≠ .runs ∨ (s.pEnd (1 - endNum e) q).hand = false ∨ (s.pEnd (1 - endNum e) p).moved ≠ []) →
    Completes (.passHandoverDone e p f q) s fun t =>
      t.pPort p = s.pPort p ∧ (t.pEnd (endNum e) p) = ((s.onWire (endNum e) p f).pEnd (endNum e) p) ∧
      (t.pEnd (1 - endNum e) p) = ((s.onWire (endNum e) p f).pEnd (1 - endNum e) p) ∧ s.OnlyPort p t ∧ s.SameStreams t ∧
      s.OnlyFields (linkFields p) t ∧ s.Only [.regs, .pass] t) ∧
  (∀ (p : Port) (s : State), s.passState p = passACTIVE → (s.pEnd 0 p).want = none → Completes (.passCtlRetrain p) s fun t =>
      t.pEnd 0 p = { s.pEnd 0 p with want := some 2, ctl := (s.pEnd 0 p).ctl ++ [{ ctype := 6, a := 2 }] } ∧
      t.pEnd 1 p = s.pEnd 1 p ∧ t.pPort p = s.pPort p ∧ s.OnlyPort p t ∧ s.SameStreams t ∧ s.Only [.pass] t) ∧
  (∀ (p : Port) (s : State), (s.passState p ≠ passACTIVE ∨ (s.pEnd 0 p).want.isSome = true) →
    Completes (.passCtlRetrain p) s fun t =>
      s.Only [] t) ∧
  (∀ (p : Port) (f : Flit) (l : Fin 68) (s : State), s.passState p ≠ passACTIVE → Completes (.swapReq p f l) s fun t =>
      s.Only [] t) ∧
  (∀ (p : Port) (f : Flit) (l sp : Fin 68) (s : State), s.passState p ≠ passACTIVE → Completes (.swapCmd p f l sp) s fun t =>
      s.Only [] t) ∧
  (∀ (e : End) (p : Port) (f : Flit) (l sp : Fin 68) (s : State), s.passState p ≠ passACTIVE →
    Completes (.swapMark e p f l sp) s fun t =>
      s.Only [] t) ∧
  (∀ (e : End) (p : Port) (f : Flit) (l sp : Fin 68) (s : State), s.passState p ≠ passACTIVE →
    Completes (.swapDone e p f l sp) s fun t =>
      s.Only [] t) ∧
  (∀ (e : End) (p : Port) (f : Flit) (r : Nat) (s : State), s.passState p ≠ passACTIVE →
    Completes (.passRetrainReq e p f r) s fun t =>
      s.Only [] t) ∧
  (∀ (e : End) (p : Port) (f : Flit) (q : Port) (n : Nat) (s : State), s.passState p ≠ passACTIVE →
    Completes (.passHandover e p f q n) s fun t =>
      s.Only [] t) ∧
  (∀ (e : End) (p : Port) (f : Flit) (q : Port) (s : State), s.passState p ≠ passACTIVE →
    Completes (.passHandoverDone e p f q) s fun t =>
      s.Only [] t) ∧
  (∀ (p : Port) (s : State), s.passState p = passRETRAIN → s.pass.reneg.head? = some p.val →
    Completes (.passRetrainTimeout p) s fun t =>
      t.get (R.PASS_EVENT_ESCALATED 0 p) = 1 ∧ t.get (R.PASS_EVENT_ESCALATED 1 p) = 1 ∧
      (t.pPort p).trig = (if s.pass.reneg.head? = some p.val then 2 else 0) ∧ s.Only [.regs, .pass, .tvx] t) ∧
  (∀ (p : Port) (s : State), s.passState p = passRETRAIN → s.pass.reneg.head? ≠ some p.val →
    s.passState (sibling p) = passACTIVE → Completes (.passRetrainTimeout p) s fun t =>
      t.passState p = passDISABLED ∧ t.get (R.PASS_STATUS_STATE 1 p) = passDISABLED ∧
      t.get (R.PASS_EVENT_ESCALATED 0 p) = 1 ∧ t.get (R.PASS_EVENT_ESCALATED 1 p) = 1 ∧
      (t.pPort p).full = true ∧ (t.pPort p).hand = .runs ∧ (t.pPort p).trig = 0 ∧
      t.pEnd 0 p = { s.pEnd 0 p with rxMap := [], txMap := [], rxGood := 0, txGood := 0, ctl := [], want := none, cfg := false, naks := 0, nak := false, diff := [], skip := false, bits := 0, hand := false, handDone := false } ∧
      t.pEnd 1 p = { s.pEnd 1 p with rxMap := [], txMap := [], rxGood := 0, txGood := 0, ctl := [], want := none, cfg := false, naks := 0, nak := false, diff := [], skip := false, bits := 0, hand := false, handDone := false } ∧
      (t.pEnd 0 (sibling p)).ctl = (s.pEnd 0 (sibling p)).ctl ++ [{ ctype := 7, a := p }] ∧ (t.pEnd 1 (sibling p)).ctl =
        (s.pEnd 1 (sibling p)).ctl ++ [{ ctype := 7, a := p }] ∧
      (t.pEnd 0 (sibling p)).replay = (s.pEnd 0 (sibling p)).replay ∧ s.OnlyFields (linkFields p) t ∧
      s.Only [.regs, .pass] t) ∧
  (∀ (p : Port) (s : State), s.passState p = passRETRAIN → s.pass.reneg.head? ≠ some p.val →
    s.passState (sibling p) = passRETIRED → Completes (.passRetrainTimeout p) s fun t =>
      t.passState p = passDETECT ∧ t.get (R.PASS_EVENT_ESCALATED 0 p) = 1 ∧ t.get (R.PASS_EVENT_ESCALATED 1 p) = 1 ∧
      (t.pPort p).keep = true ∧ (t.pPort p).hand = .no ∧
      (t.pEnd 0 p).replay = (s.pEnd 0 p).replay ∧ (t.pEnd 1 p).replay = (s.pEnd 1 p).replay ∧
      s.OnlyFields (linkFields p ++ reportFields) t ∧ s.Only [.regs, .pass, .tvx] t) ∧
  (∀ (p : Port) (s : State), s.passState p ≠ passRETRAIN → Completes (.passRetrainTimeout p) s fun t =>
      s.Only [] t) ∧
  (∀ (p : Port) (s : State), s.passState p = passACTIVE → s.pass.reneg.head? = some p.val →
    Completes (.passCtlFullTrain p) s fun t =>
      t.get (R.PASS_EVENT_ESCALATED 0 p) = 1 ∧ t.get (R.PASS_EVENT_ESCALATED 1 p) = 1 ∧ (t.pPort p).trig = 1 ∧
      s.Only [.regs, .pass, .tvx] t) ∧
  (∀ (p : Port) (s : State), s.passState p = passACTIVE → s.pass.reneg.head? ≠ some p.val →
    s.passState (sibling p) = passACTIVE → Completes (.passCtlFullTrain p) s fun t =>
      t.passState p = passDISABLED ∧ t.get (R.PASS_STATUS_STATE 1 p) = passDISABLED ∧
      t.get (R.PASS_EVENT_ESCALATED 0 p) = 1 ∧ t.get (R.PASS_EVENT_ESCALATED 1 p) = 1 ∧
      (t.pPort p).full = true ∧ (t.pPort p).hand = .runs ∧ (t.pPort p).trig = 1 ∧
      t.pEnd 0 p = { s.pEnd 0 p with rxMap := [], txMap := [], rxGood := 0, txGood := 0, ctl := [], want := none, cfg := false, naks := 0, nak := false, diff := [], skip := false, bits := 0, hand := false, handDone := false } ∧
      t.pEnd 1 p = { s.pEnd 1 p with rxMap := [], txMap := [], rxGood := 0, txGood := 0, ctl := [], want := none, cfg := false, naks := 0, nak := false, diff := [], skip := false, bits := 0, hand := false, handDone := false } ∧
      (t.pEnd 0 (sibling p)).ctl = (s.pEnd 0 (sibling p)).ctl ++ [{ ctype := 7, a := p }] ∧ (t.pEnd 1 (sibling p)).ctl =
        (s.pEnd 1 (sibling p)).ctl ++ [{ ctype := 7, a := p }] ∧
      (t.pEnd 0 (sibling p)).replay = (s.pEnd 0 (sibling p)).replay ∧ s.OnlyFields (linkFields p) t ∧
      s.Only [.regs, .pass] t) ∧
  (∀ (p : Port) (s : State), s.passState p = passACTIVE → s.pass.reneg.head? ≠ some p.val →
    s.passState (sibling p) = passRETIRED → Completes (.passCtlFullTrain p) s fun t =>
      t.passState p = passDETECT ∧ t.get (R.PASS_EVENT_ESCALATED 0 p) = 1 ∧ t.get (R.PASS_EVENT_ESCALATED 1 p) = 1 ∧
      (t.pPort p).keep = true ∧ (t.pPort p).hand = .no ∧
      (t.pEnd 0 p).replay = (s.pEnd 0 p).replay ∧ (t.pEnd 1 p).replay = (s.pEnd 1 p).replay ∧
      s.OnlyFields (linkFields p ++ reportFields) t ∧ s.Only [.regs, .pass, .tvx] t) ∧
  (∀ (p : Port) (s : State), s.passState p ≠ passACTIVE → Completes (.passCtlFullTrain p) s fun t =>
      s.Only [] t)

/-- A train takes its states one after the other while at least 16 lanes are good each way, and starts again from DETECT
with its failure recorded where fewer are, or a bound is exceeded (spec/06 R156, R159); the ends exchange their good
lanes and revisions, and a train without a common revision fails (R155, R161); the ends agree on the map where the
checksum matches, try again where it does not, and go to FALLBACK after the third attempt (R156), where they take the
first common block (R158); the exchange of the next SEQ and the free slots, and the replay of what the partner lacks,
makes the port ACTIVE (R160); the third failure retires the port, whose flits go to its sibling (R156, R167). In a
retrain the same words agree a map without leaving RETRAIN (R165). No state but the one that a step names takes it,
and none while PASS_UC restarts (R162). LAST_FAIL for LANE_TEST, MAP and FALLBACK is open, and free
(notes/assumptions/1.md). -/
def Obligations.PassTraining : Prop :=
  (∀ (e : End) (p : Port) (er : List (Nat × Nat)) (s : State), Completes (.tsAlign e p er) s fun t =>
      s.Only [] t) ∧
  (∀ (p : Port) (s : State), s.Mapping p → s.passState p = passMAP →
    16 ≤ popCount 68 (PPort.goodDown { s.pPort p with tDown := s.valeDown p, rev := s.revHi p, noRev := decide (s.revHi p < s.revLo p) }) →
    Completes (.tsRxgood p []) s fun t =>
      t.pPort p = { s.pPort p with tDown := s.valeDown p, rev := s.revHi p, noRev := decide (s.revHi p < s.revLo p) } ∧
      t.pEnd 0 p = s.pEnd 0 p ∧ t.pEnd 1 p = s.pEnd 1 p ∧ s.OnlyPort p t ∧ s.SameStreams t ∧ s.Only [.pass] t) ∧
  (∀ (p : Port) (s : State), s.Mapping p → s.passState p = passMAP →
    popCount 68 (PPort.goodDown { s.pPort p with tDown := s.valeDown p, rev := s.revHi p, noRev := decide (s.revHi p < s.revLo p) }) < 16 →
    (s.pPort p).fails < 2 → Completes (.tsRxgood p []) s fun t =>
      s.Restarted p 4 t ∧ s.SameStreams t ∧ s.OnlyFields (linkFields p) t ∧ s.Only [.regs, .pass] t) ∧
  (∀ (p : Port) (s : State), s.Mapping p → s.passState p = passRETRAIN →
    (s.pPort p).goodDown &&& (lanes68 - s.valeDown p) = 0 → Completes (.tsRxgood p []) s fun t =>
      t.pPort p = { s.pPort p with rev := s.revHi p, noRev := decide (s.revHi p < s.revLo p) } ∧
      t.pEnd 0 p = s.pEnd 0 p ∧ t.pEnd 1 p = s.pEnd 1 p ∧ s.OnlyPort p t ∧ s.SameStreams t ∧ s.OnlyFields (linkFields p) t ∧
      s.Only [.regs, .pass] t) ∧
  (∀ (p : Port) (c : Nat) (s : State), s.Mapping p → (s.pPort p).rev ≠ 0 ∧ (s.pPort p).noRev = false →
    s.widthCode p = some c → Completes (.tsMap p []) s fun t =>
      t.pEnd 1 p = { s.pEnd 1 p with txMap := mapOf (s.pPort p).goodUp c, rxMap := mapOf (s.pPort p).goodDown c, txGood := (s.pPort p).goodUp, rxGood := (s.pPort p).goodDown } ∧
      t.pEnd 0 p = s.pEnd 0 p ∧
      t.pPort p = { s.pPort p with sum := some (mapSum (mapOf (s.pPort p).goodUp c) (mapOf (s.pPort p).goodDown c)) } ∧
      s.OnlyPort p t ∧ s.SameStreams t ∧ s.OnlyFields (linkFields p) t ∧ s.Only [.regs, .pass] t) ∧
  (∀ (p : Port) (c : Nat) (s : State), s.Mapping p → s.passState p = passMAP → (s.pPort p).noRev = true →
    s.widthCode p = some c → (s.pPort p).fails < 2 → Completes (.tsMap p []) s fun t =>
      s.Restarted p 6 t ∧ t.get (R.PASS_EVENT_VERSION_FAIL 0 p) = 1 ∧ t.get (R.PASS_EVENT_VERSION_FAIL 1 p) = 1 ∧
      s.SameStreams t ∧ s.OnlyFields (linkFields p) t ∧ s.Only [.regs, .pass] t) ∧
  (∀ (p : Port) (s : State), (s.mapping p = false ∨ ((s.pPort p).rev = 0 ∧ (s.pPort p).noRev = false)) →
    Completes (.tsMap p []) s fun t =>
      s.Only [] t) ∧
  (∀ (p : Port) (c : Nat) (s : State), s.Mapping p → (s.pPort p).noRev = false ∧ s.widthCode p = some c →
    (s.pPort p).sum = some (mapSum (mapOf (s.pPort p).goodUp c) (mapOf (s.pPort p).goodDown c)) →
    Completes (.tsMapsum p []) s fun t =>
      s.Mapped p c 0 (mapOf (s.pPort p).goodUp c) (mapOf (s.pPort p).goodDown c) t ∧ s.OnlyPort p t ∧ s.SameStreams t ∧
      s.OnlyFields (linkFields p) t ∧ s.Only [.regs, .pass] t) ∧
  (∀ (p : Port) (c v : Nat) (s : State), s.Mapping p → s.widthCode p = some c → (s.pPort p).sum = some v ∧ v < 2 ^ 32 →
    v ≠ mapSum (mapOf (s.pPort p).goodUp c) (mapOf (s.pPort p).goodDown c) → (s.pPort p).att < 3 →
    Completes (.tsMapsum p []) s fun t =>
      t.pPort p = { s.pPort p with att := (s.pPort p).att + 1, sum := none } ∧
      t.pEnd 0 p = s.pEnd 0 p ∧ t.pEnd 1 p = s.pEnd 1 p ∧ t.passState p = s.passState p ∧
      t.get (R.PASS_EVENT_MAP_RESTART 0 p) = 1 ∧ t.get (R.PASS_EVENT_MAP_RESTART 1 p) = 1 ∧
      t.get (R.PASS_TRAIN_INFO_MAP_ATTEMPTS 0 p) = (s.pPort p).att + 1 ∧ s.OnlyPort p t ∧ s.SameStreams t ∧
      s.OnlyFields (linkFields p) t ∧ s.Only [.regs, .pass] t) ∧
  (∀ (p : Port) (c v : Nat) (s : State), s.Mapping p → s.passState p = passMAP → s.widthCode p = some c →
    (s.pPort p).sum = some v ∧ v < 2 ^ 32 → v ≠ mapSum (mapOf (s.pPort p).goodUp c) (mapOf (s.pPort p).goodDown c) →
    (s.pPort p).att = 3 → Completes (.tsMapsum p []) s fun t =>
      t.passState p = passFALLBACK ∧ t.pPort p = s.pPort p ∧ t.pEnd 0 p = s.pEnd 0 p ∧ t.pEnd 1 p = s.pEnd 1 p ∧
      t.get (R.PASS_EVENT_FALLBACK 0 p) = 1 ∧ t.get (R.PASS_EVENT_FALLBACK 1 p) = 1 ∧ s.OnlyPort p t ∧ s.SameStreams t ∧
      s.OnlyFields (linkFields p) t ∧ s.Only [.regs, .pass] t) ∧
  (∀ (p : Port) (er : List (Nat × Nat)) (s : State), (s.mapping p = false ∨ (s.pPort p).sum = none) →
    Completes (.tsMapsum p er) s fun t =>
      s.Only [] t) ∧
  (∀ (p : Port) (er : List (Nat × Nat)) (s : State), s.mapping p = false → Completes (.tsRxgood p er) s fun t =>
      s.Only [] t) ∧
  (∀ (p : Port) (b : Nat × Nat × Nat) (s : State),
    ((s.passState p = passFALLBACK ∧ s.ucRestarting ucPASS = false) ∨ (s.passState p = passRETRAIN ∧ (s.pPort p).fb = true ∧ (s.pPort p).mapped = false)) →
    (s.pPort p).att < 16 ∧ (s.pPort p).tUp % 2 ^ 68 ≠ 0 ∧ (s.pPort p).tDown % 2 ^ 68 ≠ 0 →
    blockPick (min 2 (s.get (R.PASS_CTL_MAX_WIDTH p))) (blockMask (s.pPort p).goodUp (s.pPort p).goodDown) (blockMask (s.pPort p).tUp (s.valeDown p)) = some b →
    Completes (.tsOffer p [] []) s fun t =>
      s.Mapped p b.2.2 1 ((List.range (lanesOf b.2.2)).map (b.2.1 + ·)) ((List.range (lanesOf b.2.2)).map (b.2.1 + ·)) t ∧
      s.OnlyPort p t ∧ s.SameStreams t ∧ s.OnlyFields (linkFields p) t ∧ s.Only [.regs, .pass] t) ∧
  (∀ (p : Port) (s : State), (s.pPort p).att < 16 ∧ (s.pPort p).tUp % 2 ^ 68 ≠ 0 ∧ (s.pPort p).tDown % 2 ^ 68 ≠ 0 →
    s.passState p = passFALLBACK ∧ s.ucRestarting ucPASS = false →
    blockPick (min 2 (s.get (R.PASS_CTL_MAX_WIDTH p))) (blockMask (s.pPort p).goodUp (s.pPort p).goodDown) (blockMask (s.pPort p).tUp (s.valeDown p)) = none →
    (s.pPort p).fails < 2 → Completes (.tsOffer p [] []) s fun t =>
      s.Restarted p 5 t ∧ s.SameStreams t ∧ s.OnlyFields (linkFields p) t ∧ s.Only [.regs, .pass] t) ∧
  (∀ (p : Port) (u v : List (Nat × Nat)) (s : State),
    (s.passState p ≠ passFALLBACK ∧ (s.passState p ≠ passRETRAIN ∨ (s.pPort p).fb = false)) →
    Completes (.tsOffer p u v) s fun t =>
      s.Only [] t) ∧
  (∀ (e : End) (p : Port) (s : State),
    ((s.passState p = passCONFIG ∧ s.ucRestarting ucPASS = false) ∨ (s.passState p = passRETRAIN ∧ (s.pPort p).mapped = true)) →
    (s.pPort p).att < 16 ∧ (if endNum e = 0 then (s.pPort p).tUp else (s.pPort p).tDown) % 2 ^ 68 ≠ 0 →
    (s.pEnd (1 - endNum e) p).rxNext < 1024 → (s.pEnd (1 - endNum e) p).cfg = false →
    Completes (.tsConfig e p []) s fun t =>
      (t.pEnd (endNum e) p).replay = (if (s.pEnd (endNum e) p).replay.any (fun q => q.seq == (s.pEnd (1 - endNum e)
        p).rxNext) then (s.pEnd (endNum e) p).replay.dropWhile (fun q => q.seq != (s.pEnd (1 - endNum e) p).rxNext)
        else []) ∧
      (t.pEnd (endNum e) p).txNext = ((s.pEnd (1 - endNum e) p).rxNext + (t.pEnd (endNum e) p).replay.length) % 1024 ∧
      (∀ c < 6, Tbl.get (fun _ => 0) (t.pEnd (endNum e) p).base c = ((s.pEnd (1 - endNum e) p).free c % 4096 + 65536 -
        chanSlots ((t.pEnd (endNum e) p).replay.flatMap (fun q => q.msgs)) c % 65536) % 65536) ∧
      (t.pEnd (endNum e) p) = { (s.pEnd (endNum e) p) with
        replay := (t.pEnd (endNum e) p).replay, txNext := (t.pEnd (endNum e) p).txNext, base := (t.pEnd (endNum e)
          p).base, sent := [], rep := [], freed := [], cfg := true } ∧
      (t.pEnd (1 - endNum e) p) = (s.pEnd (1 - endNum e) p) ∧ t.pPort p = s.pPort p ∧ s.OnlyPort p t ∧ s.SameStreams t ∧
      s.Only [.pass] t) ∧
  (∀ (e : End) (p : Port) (s : State),
    ((s.passState p = passCONFIG ∧ s.ucRestarting ucPASS = false) ∨ (s.passState p = passRETRAIN ∧ (s.pPort p).mapped = true)) →
    (s.pPort p).att < 16 ∧ (if endNum e = 0 then (s.pPort p).tUp else (s.pPort p).tDown) % 2 ^ 68 ≠ 0 →
    (s.pEnd (1 - endNum e) p).rxNext < 1024 → (s.pEnd (1 - endNum e) p).cfg = true →
    (s.pPort p).pend = [] ∧ (s.pPort (sibling p)).hand = .no → (s.pEnd 1 p).failed = 0 ∧ s.pass.reneg.head? ≠ some p.val →
    Completes (.tsConfig e p []) s fun t =>
      (t.pEnd (endNum e) p).replay = (if (s.pEnd (endNum e) p).replay.any (fun q => q.seq == (s.pEnd (1 - endNum e)
        p).rxNext) then (s.pEnd (endNum e) p).replay.dropWhile (fun q => q.seq != (s.pEnd (1 - endNum e) p).rxNext)
        else []) ∧
      (t.pEnd (endNum e) p).txNext = ((s.pEnd (1 - endNum e) p).rxNext + (t.pEnd (endNum e) p).replay.length) % 1024 ∧
      (∀ c < 6, Tbl.get (fun _ => 0) (t.pEnd (endNum e) p).base c = ((s.pEnd (1 - endNum e) p).free c % 4096 + 65536 -
        chanSlots ((t.pEnd (endNum e) p).replay.flatMap (fun q => q.msgs)) c % 65536) % 65536) ∧
      t.passState p = passACTIVE ∧ t.get (R.PASS_STATUS_STATE 1 p) = passACTIVE ∧
      t.pPort p = { s.pPort p with fails := 0, keep := false, lower := none, mapped := false, fb := false, pend := [], full := false, warn16 := (t.pPort p).warn16 } ∧
      (t.pEnd 0 p).cfg = false ∧ (t.pEnd 1 p).cfg = false ∧
      (t.pEnd (1 - endNum e) p) = { (s.pEnd (1 - endNum e) p) with cfg := false, bits := 0, diff := [], skip := false } ∧
      t.get (R.PASS_LINK_STATS_REPLAYED (endNum e) p) = satAdd (R.PASS_LINK_STATS_REPLAYED (endNum e) p).w (s.get
        (R.PASS_LINK_STATS_REPLAYED (endNum e) p)) (t.pEnd (endNum e) p).replay.length ∧
      s.OnlyFields (linkFields p ++ (eventFields ++ reportFields)) t ∧ s.Only [.regs, .pass, .tvx] t) ∧
  (∀ (e : End) (p : Port) (er : List (Nat × Nat)) (s : State),
    (s.passState p ≠ passCONFIG ∧ (s.passState p ≠ passRETRAIN ∨ (s.pPort p).mapped = false)) →
    Completes (.tsConfig e p er) s fun t =>
      s.Only [] t) ∧
  (∀ (u v : Nat) (p : Port) (s : State), s.passState p = passDETECT → s.ucRestarting ucPASS = false →
    16 ≤ popCount 68 (PPort.goodUp ((s.pPort p).masked u v)) → 16 ≤ popCount 68 (PPort.goodDown ((s.pPort p).masked u v)) →
    Completes (.passDetectDone p u v) s fun t =>
      t.passState p = passBIT_LOCK ∧ t.get (R.PASS_STATUS_STATE 1 p) = passBIT_LOCK ∧ t.pPort p = ((s.pPort p).masked u v) ∧
      t.pEnd 0 p = s.pEnd 0 p ∧ t.pEnd 1 p = s.pEnd 1 p ∧ s.OnlyPort p t ∧ s.SameStreams t ∧ s.OnlyFields (linkFields p) t ∧
      s.Only [.regs, .pass] t) ∧
  (∀ (u v : Nat) (p : Port) (s : State), s.passState p = passDETECT → s.ucRestarting ucPASS = false →
    (popCount 68 (PPort.goodUp ((s.pPort p).masked u v)) < 16 ∨ popCount 68 (PPort.goodDown ((s.pPort p).masked u v)) < 16) →
    (s.pPort p).fails < 2 → Completes (.passDetectDone p u v) s fun t =>
      s.Restarted p 4 t ∧ s.SameStreams t ∧ s.OnlyFields (linkFields p) t ∧ s.Only [.regs, .pass] t) ∧
  (∀ (u v : Nat) (p : Port) (s : State), (s.passState p ≠ passDETECT ∨ s.ucRestarting ucPASS = true) →
    Completes (.passDetectDone p u v) s fun t =>
      s.Only [] t) ∧
  (∀ (u v : Nat) (p : Port) (s : State), s.passState p = passBIT_LOCK → s.ucRestarting ucPASS = false →
    16 ≤ popCount 68 (PPort.goodUp ((s.pPort p).masked u v)) → 16 ≤ popCount 68 (PPort.goodDown ((s.pPort p).masked u v)) →
    Completes (.passBitLockDone p u v) s fun t =>
      t.passState p = passEQUALISE ∧ t.get (R.PASS_STATUS_STATE 1 p) = passEQUALISE ∧ t.pPort p = ((s.pPort p).masked u v) ∧
      t.pEnd 0 p = s.pEnd 0 p ∧ t.pEnd 1 p = s.pEnd 1 p ∧ s.OnlyPort p t ∧ s.SameStreams t ∧ s.OnlyFields (linkFields p) t ∧
      s.Only [.regs, .pass] t) ∧
  (∀ (u v : Nat) (p : Port) (s : State), s.passState p = passBIT_LOCK → s.ucRestarting ucPASS = false →
    (popCount 68 (PPort.goodUp ((s.pPort p).masked u v)) < 16 ∨ popCount 68 (PPort.goodDown ((s.pPort p).masked u v)) < 16) →
    (s.pPort p).fails < 2 → Completes (.passBitLockDone p u v) s fun t =>
      s.Restarted p 4 t ∧ s.SameStreams t ∧ s.OnlyFields (linkFields p) t ∧ s.Only [.regs, .pass] t) ∧
  (∀ (u v : Nat) (p : Port) (s : State), (s.passState p ≠ passBIT_LOCK ∨ s.ucRestarting ucPASS = true) →
    Completes (.passBitLockDone p u v) s fun t =>
      s.Only [] t) ∧
  (∀ (p : Port) (s : State), s.passState p = passEQUALISE → s.ucRestarting ucPASS = false →
    16 ≤ popCount 68 (PPort.goodUp ((s.pPort p).masked lanes68 lanes68)) →
    16 ≤ popCount 68 (PPort.goodDown ((s.pPort p).masked lanes68 lanes68)) → Completes (.passEqualiseDone p) s fun t =>
      t.passState p = passLANE_TEST ∧ t.get (R.PASS_STATUS_STATE 1 p) = passLANE_TEST ∧
      t.pPort p = ((s.pPort p).masked lanes68 lanes68) ∧ t.pEnd 0 p = s.pEnd 0 p ∧ t.pEnd 1 p = s.pEnd 1 p ∧
      s.OnlyPort p t ∧ s.SameStreams t ∧ s.OnlyFields (linkFields p) t ∧ s.Only [.regs, .pass] t) ∧
  (∀ (p : Port) (s : State), s.passState p = passEQUALISE → s.ucRestarting ucPASS = false →
    (popCount 68 (PPort.goodUp ((s.pPort p).masked lanes68 lanes68)) < 16 ∨ popCount 68 (PPort.goodDown ((s.pPort p).masked lanes68 lanes68)) < 16) →
    (s.pPort p).fails < 2 → Completes (.passEqualiseDone p) s fun t =>
      s.Restarted p 4 t ∧ s.SameStreams t ∧ s.OnlyFields (linkFields p) t ∧ s.Only [.regs, .pass] t) ∧
  (∀ (p : Port) (s : State), (s.passState p ≠ passEQUALISE ∨ s.ucRestarting ucPASS = true) →
    Completes (.passEqualiseDone p) s fun t =>
      s.Only [] t) ∧
  (∀ (u v : Nat) (p : Port) (s : State), s.passState p = passLANE_TEST → s.ucRestarting ucPASS = false →
    16 ≤ popCount 68 (PPort.goodUp ((s.pPort p).masked (lanes68 - u % 2 ^ 68) (lanes68 - v % 2 ^ 68))) →
    16 ≤ popCount 68 (PPort.goodDown ((s.pPort p).masked (lanes68 - u % 2 ^ 68) (lanes68 - v % 2 ^ 68))) →
    Completes (.passLaneTestDone p u v) s fun t =>
      t.passState p = passMAP ∧ t.get (R.PASS_STATUS_STATE 1 p) = passMAP ∧
      t.pPort p = { ((s.pPort p).masked (lanes68 - u % 2 ^ 68) (lanes68 - v % 2 ^ 68)) with att := 1 } ∧
      t.get (R.PASS_TRAIN_INFO_MAP_ATTEMPTS 0 p) = 1 ∧ t.get (R.PASS_TRAIN_INFO_MAP_ATTEMPTS 1 p) = 1 ∧
      t.pEnd 0 p = s.pEnd 0 p ∧ t.pEnd 1 p = s.pEnd 1 p ∧ s.OnlyPort p t ∧ s.SameStreams t ∧ s.OnlyFields (linkFields p) t ∧
      s.Only [.regs, .pass] t) ∧
  (∀ (u v : Nat) (p : Port) (s : State), s.passState p = passLANE_TEST → s.ucRestarting ucPASS = false →
    (popCount 68 (PPort.goodUp ((s.pPort p).masked (lanes68 - u % 2 ^ 68) (lanes68 - v % 2 ^ 68))) < 16 ∨ popCount 68 (PPort.goodDown ((s.pPort p).masked (lanes68 - u % 2 ^ 68) (lanes68 - v % 2 ^ 68))) < 16) →
    (s.pPort p).fails < 2 → Completes (.passLaneTestDone p u v) s fun t =>
      s.Restarted p 4 t ∧ s.SameStreams t ∧ s.OnlyFields (linkFields p) t ∧ s.Only [.regs, .pass] t) ∧
  (∀ (u v : Nat) (p : Port) (s : State), (s.passState p ≠ passLANE_TEST ∨ s.ucRestarting ucPASS = true) →
    Completes (.passLaneTestDone p u v) s fun t =>
      s.Only [] t) ∧
  (∀ (p : Port) (s : State), s.passState p = passDETECT ∧ s.ucRestarting ucPASS = false → (s.pPort p).fails < 2 →
    Completes (.passTrainTimeout p) s fun t =>
      s.Restarted p passDETECT t ∧ s.SameStreams t ∧ s.OnlyFields (linkFields p) t ∧ s.Only [.regs, .pass] t) ∧
  (∀ (p : Port) (s : State), s.passState p = passBIT_LOCK ∧ s.ucRestarting ucPASS = false → (s.pPort p).fails < 2 →
    Completes (.passTrainTimeout p) s fun t =>
      s.Restarted p passBIT_LOCK t ∧ s.SameStreams t ∧ s.OnlyFields (linkFields p) t ∧ s.Only [.regs, .pass] t) ∧
  (∀ (p : Port) (s : State), s.passState p = passEQUALISE ∧ s.ucRestarting ucPASS = false → (s.pPort p).fails < 2 →
    Completes (.passTrainTimeout p) s fun t =>
      s.Restarted p passEQUALISE t ∧ s.SameStreams t ∧ s.OnlyFields (linkFields p) t ∧ s.Only [.regs, .pass] t) ∧
  (∀ (p : Port) (s : State), s.passState p = passCONFIG ∧ s.ucRestarting ucPASS = false → (s.pPort p).fails < 2 →
    Completes (.passTrainTimeout p) s fun t =>
      s.Restarted p passCONFIG t ∧ s.SameStreams t ∧ s.OnlyFields (linkFields p) t ∧ s.Only [.regs, .pass] t) ∧
  (∀ (p : Port) (s : State),
    ((s.passState p = passLANE_TEST ∨ s.passState p = passMAP ∨ s.passState p = passFALLBACK) ∧ s.ucRestarting ucPASS = false) →
    (s.pPort p).fails < 2 → Completes (.passTrainTimeout p) s fun t =>
      s.Restarted p (t.get (R.PASS_TRAIN_INFO_LAST_FAIL 0 p)) t ∧ s.SameStreams t ∧ s.OnlyFields (linkFields p) t ∧
      s.Only [.regs, .free, .pass] t) ∧
  (∀ (p : Port) (s : State), s.passState p = passDETECT ∧ s.ucRestarting ucPASS = false → (s.pPort p).fails = 2 →
    s.passState (sibling p) = passACTIVE ∧ (s.pPort (sibling p)).full = false → s.pass.reneg.head? ≠ some p.val →
    Completes (.passTrainTimeout p) s fun t =>
      t.passState p = passRETIRED ∧ t.get (R.PASS_STATUS_STATE 1 p) = passRETIRED ∧
      t.get (R.PASS_EVENT_RETIRED 0 p) = 1 ∧ t.get (R.PASS_EVENT_RETIRED 1 p) = 1 ∧ (t.pPort p).hand = .runs ∧
      (t.pEnd 0 (sibling p)).ctl = (s.pEnd 0 (sibling p)).ctl ++ [{ ctype := 7, a := p }] ∧
      t.passState (sibling p) = passACTIVE ∧ s.OnlyFields (linkFields p ++ reportFields) t ∧ s.Only [.regs, .pass, .tvx] t) ∧
  (∀ (p : Port) (s : State), (s.ucRestarting ucPASS = true ∨ s.passState p = passDISABLED ∨ passACTIVE ≤ s.passState p) →
    Completes (.passTrainTimeout p) s fun t =>
      s.Only [] t)

/-- At a minute boundary GTIME is there, the other bank counts, the closed one waits to be read and the key chosen for the
boundary becomes active; an open set of the longest span is sealed (spec/09 R225, R228, R230, R233). An occupancy
sample adds one for each valid line or block to its MCID and to the totaliser, at the next millisecond (R223, R224).
Reading the banks clears the closed one and leaves the other (R225). The minute's energy completes its set: cores by
their MCID, the rest to MCID 0 where nothing moved (R226). An open set that can be delivered is sealed with the active
key, or unsealed where there is none (R227, R228). A sealed set is written record by record, and PROD moves on only
when all of it is committed (R229). Where there is nothing to do, nothing changes. The instants taken and the order of
attribution are the model's (notes/assumptions/22.md, 8.md). -/
def Obligations.MeteringSets : Prop :=
  (∀ (s : State), s.pwr.stage ≠ .off →
    (s.banksRead.freshToOpen.meter.opened.map (fun o => o.span) ≠ some 65535 ∨ s.meter.sealed ≠ none) →
    Completes (.minuteBoundary) s fun t =>
      t.meter.minute = s.minuteEnd ∧ t.pwr.now = s.minuteEnd ∧ t.meter.bank = 1 - s.meter.bank ∧ t.meter.closed = true ∧
      t.meter.active = (match s.meter.next with | some k => k | none => s.meter.active) ∧ t.meter.next = none ∧
      t.meter.fresh.map (fun f => (f.start, f.span)) = some (s.meter.minute, min 65535 (s.minuteEnd / minuteNs -
        s.meter.minute / minuteNs)) ∧
      t.meter.opened = s.banksRead.freshToOpen.meter.opened ∧
      t.meter.sealed = s.meter.sealed ∧ t.meter.keys = s.meter.keys ∧ t.meter.writing = s.meter.writing ∧
      s.Only [.regs, .core, .pass, .meter, .qos, .hzn, .ras, .pwr] t) ∧
  (∀ (o : MeterSet) (s : State), s.pwr.stage ≠ .off →
    s.banksRead.freshToOpen.meter.opened = some o ∧ o.span = 65535 ∧ s.meter.sealed = none →
    s.meter.next = none ∧ s.meter.active = none → Completes (.minuteBoundary) s fun t =>
      t.meter.minute = s.minuteEnd ∧ t.pwr.now = s.minuteEnd ∧ t.meter.bank = 1 - s.meter.bank ∧ t.meter.closed = true ∧
      t.meter.opened = none ∧ t.meter.sealed = some { o with sealBy := some 0xFF, key := [] } ∧
      t.meter.fresh.map (fun f => f.start) = some s.meter.minute ∧
      s.Only [.regs, .core, .pass, .meter, .qos, .hzn, .ras, .pwr] t) ∧
  (∀ (s : State), s.pwr.stage = .off → Completes (.minuteBoundary) s fun t =>
      s.Only [] t) ∧
  (∀ (k : Nat) (w : VcWay) (s : State), s.pwr.stage ≠ .off → s.nextAt 1000000 = s.pwr.now ∧ s.meter.sampled ≠ some s.pwr.now →
    s.pwr.now % minuteNs ≠ 0 → s.die.vc = [(k, w)] ∧ w.valid = true ∧ w.mcid < 1024 → s.mesa.tags = [] ∧ s.mesa.vict = [] →
    Completes (.occupancySample) s fun t =>
      t.meter.sampled = some s.pwr.now ∧
      t.meter = { s.meter with sampled := t.meter.sampled, acc := t.meter.acc, tot := t.meter.tot } ∧
      t.meterAcc s.meter.bank (qDie (k / 2 ^ 20) qVC_OCC) w.mcid = s.meterAcc s.meter.bank (qDie (k / 2 ^ 20) qVC_OCC)
        w.mcid + 1 ∧
      t.meterTot s.meter.bank (qDie (k / 2 ^ 20) qVC_OCC) = s.meterTot s.meter.bank (qDie (k / 2 ^ 20) qVC_OCC) + 1 ∧
      s.Only [.meter] t) ∧
  (∀ (k : Nat) (w : SecTag) (s : State), s.pwr.stage ≠ .off →
    s.nextAt 1000000 = s.pwr.now ∧ s.meter.sampled ≠ some s.pwr.now → s.pwr.now % minuteNs ≠ 0 →
    s.mesa.tags = [(k, w)] ∧ w.valid ≠ 0 ∧ w.mcid < 1024 → s.die.vc = [] ∧ s.mesa.vict = [] →
    Completes (.occupancySample) s fun t =>
      t.meter.sampled = some s.pwr.now ∧
      t.meter = { s.meter with sampled := t.meter.sampled, acc := t.meter.acc, tot := t.meter.tot } ∧
      t.meterAcc s.meter.bank qMESA_OCC w.mcid = s.meterAcc s.meter.bank qMESA_OCC w.mcid + popCount 16 w.valid ∧
      t.meterTot s.meter.bank qMESA_OCC = s.meterTot s.meter.bank qMESA_OCC + popCount 16 w.valid ∧ s.Only [.meter] t) ∧
  (∀ (s : State), s.pwr.stage ≠ .off → s.pwr.now < s.nextAt 1000000 ∧ s.meter.sampled ≠ some (s.nextAt 1000000) →
    Completes (.occupancySample) s fun t =>
      t.pwr.now = s.nextAt 1000000 ∧ t.pwr.frac = 0 ∧ t.meter.sampled = some (s.nextAt 1000000) ∧
      t.meter.fresh = s.meter.fresh ∧ t.meter.opened = s.meter.opened ∧ t.meter.sealed = s.meter.sealed ∧ t.meter.bank =
        s.meter.bank ∧
      s.Only [.regs, .core, .pass, .meter, .qos, .hzn, .ras, .pwr] t) ∧
  (∀ (s : State), s.pwr.stage = .off → Completes (.occupancySample) s fun t =>
      s.Only [] t) ∧
  (∀ (s : State), s.meter.closed = true → s.meter.bank < 2 → Completes (.meterBanksRead) s fun t =>
      t.meter.closed = false ∧ (∀ (src m : Nat), src < 64 → m < 1024 → t.meterAcc (1 - s.meter.bank) src m = 0) ∧
      (∀ (src m : Nat), src < 64 → m < 1024 → t.meterAcc s.meter.bank src m = s.meterAcc s.meter.bank src m) ∧
      t.meter.fresh.map (fun f => (f.start, f.span)) = some ((s.meter.fresh.getD {}).start, (s.meter.fresh.getD {}).span) ∧
      t.meter = { s.meter with
        closed := false, fresh := t.meter.fresh, bad := t.meter.bad, acc := t.meter.acc, tot := t.meter.tot } ∧
      s.Only [.meter] t) ∧
  (∀ (s : State), s.meter.closed = false → Completes (.meterBanksRead) s fun t =>
      s.Only [] t) ∧
  (∀ (f : MeterSet) (total : Nat) (s : State), s.meter.fresh = some f ∧ s.meter.opened = none → s.meter.closed = false →
    f.counts.filter (fun e => e.1 / 1024 == qENERGY) = [] → Completes (.energyDelivery total [] total 0) s fun t =>
      t.meter.opened.map (fun o => (o.energy, o.total qENERGY, o.start, o.span, o.flags)) = some (true, total, f.start,
        f.span, f.flags) ∧
      t.meter.opened.map (fun o => (List.range 9).map o.total) = some ((List.range 9).map f.total) ∧
      t.meter = { s.meter with fresh := none, opened := t.meter.opened } ∧ s.Only [.meter] t) ∧
  (∀ (f : MeterSet) (total a b u i : Nat) (s : State), s.meter.fresh = some f ∧ s.meter.opened = none →
    s.meter.closed = false → f.counts.filter (fun e => e.1 / 1024 == qENERGY) = [] →
    f.counts = [] ∧ a + b + u + i = total ∧ 0 < total → Completes (.energyDelivery total [(1, a), (2, b)] u i) s fun t =>
      t.meter.opened.map (fun o => (o.count qENERGY 0, o.count qENERGY 1, o.count qENERGY 2)) = some (u + i, a, b) ∧
      t.meter.opened.map (fun o => (o.energy, o.total qENERGY, o.flags)) = some (true, total, f.flags) ∧
      t.meter = { s.meter with fresh := none, opened := t.meter.opened } ∧ s.Only [.meter] t) ∧
  (∀ (total u i : Nat) (l : List (Nat × Nat)) (s : State), (s.meter.fresh = none ∨ s.meter.closed = true) →
    Completes (.energyDelivery total l u i) s fun t =>
      s.Only [] t) ∧
  (∀ (o : MeterSet) (s : State), s.meter.opened = some o ∧ s.meter.sealed = none ∧ s.meter.fresh = none →
    s.tvx.running = true → s.canDeliver o = true → s.meter.active = none → Completes (.meterSeal) s fun t =>
      t.meter = { s.meter with opened := none, sealed := some { o with sealBy := some 0xFF, key := [] } } ∧
      s.Only [.meter] t) ∧
  (∀ (o : MeterSet) (k : Nat) (s : State), s.meter.opened = some o ∧ s.meter.sealed = none ∧ s.meter.fresh = none →
    s.tvx.running = true → s.canDeliver o = true → s.meter.active = some k ∧ s.key k ≠ [] →
    Completes (.meterSeal) s fun t =>
      t.meter = { s.meter with opened := none, sealed := some { o with sealBy := some k, key := s.key k } } ∧
      s.Only [.meter] t) ∧
  (∀ (s : State),
    (s.meter.opened = none ∨ s.meter.sealed ≠ none ∨ s.meter.fresh ≠ none ∨ s.tvx.running = false ∨ s.meter.opened.map (fun o => s.canDeliver o) = some false) →
    Completes (.meterSeal) s fun t =>
      s.Only [] t) ∧
  (∀ (x : MeterSet) (s : State), s.meter.sealed = some x ∧ s.meter.writing = 0 → s.canDeliver x = true →
    (∀ j < 2 * x.records, (s.reachDevice (s.get R.METER_RING_BASE_BASE * 4096 + (s.get R.METER_RING_PROD_PROD + j / 2) % s.meterEntries * 128 + j % 2 * 64)).isMem = true) →
    Completes (.meterRingDeliver) s fun t =>
      t.meter = { s.meter with writing := 2 * x.records, committed := 0 } ∧
      t.io.reqs.length = s.io.reqs.length + 2 * x.records ∧ s.Only [.net, .meter, .io] t) ∧
  (∀ (s : State), (s.meter.sealed = none ∨ s.meter.writing ≠ 0 ∨ s.meter.sealed.map (fun x => s.canDeliver x) = some false) →
    Completes (.meterRingDeliver) s fun t =>
      s.Only [] t) ∧
  (∀ (x : MeterSet) (s : State), s.meter.sealed = some x → s.meter.writing ≠ 0 ∧ s.meter.writing ≤ s.meter.committed →
    s.get R.METER_CTL_MSI_ENABLE = 0 → Completes (.meterSetDelivered) s fun t =>
      t.meter = { s.meter with sealed := none, writing := 0, committed := 0 } ∧
      t.get R.METER_RING_PROD_PROD = (s.get R.METER_RING_PROD_PROD + x.records) % 2 ^ 32 ∧
      t.get R.METER_STATUS_SETS_DELIVERED = satAdd R.METER_STATUS_SETS_DELIVERED.w (s.get R.METER_STATUS_SETS_DELIVERED) 1 ∧
      t.reg R.rMETER_LAST = BitVec.ofNat 64 x.start ∧
      s.OnlyFields [R.METER_RING_PROD_PROD, R.METER_STATUS_SETS_DELIVERED, FRef.all R.rMETER_LAST] t ∧
      s.Only [.regs, .meter] t) ∧
  (∀ (s : State), (s.meter.sealed = none ∨ s.meter.writing = 0 ∨ s.meter.committed < s.meter.writing) →
    Completes (.meterSetDelivered) s fun t =>
      s.Only [] t)

/-- A PAYLOAD frame in SEQ order moves SEQ on and is metered to its MCID; its message goes to its receiver in this
package, waits to be forwarded, or is dropped where it has no hop left, under revision 3 in BSEQ order (spec/10 R244,
R251, R252, spec/09 R223). A frame out of order only meters; a broken one is discarded whole with a record (R239). One
that the code cannot correct is counted, charges the frame bucket and is NAKed, the fourth starting a retrain (R244).
An acknowledgement frees the frames up to it, a credit report sets its credits, a NAK and a replay timeout send the
kept frames again (R241, R244). A retrain request, HZN_CTL and the loss of lock of an active lane take an ACTIVE port
to RETRAIN with a HELLO (R246, R249). A full train hands the frames of a port to an ACTIVE sibling first; without one
they are lost (R244, R246). Nothing else of the ports changes. What stands open in the frames' bytes is the model's
(notes/assumptions/29.md, 56.md). -/
def Obligations.HorizonFrames : Prop :=
  (∀ (p : HPort) (f : HFrame) (m k : Msg) (fm hp rc : Nat) (s : State), s.FrameAt p f →
    f.typ = 0 ∧ f.msgs = [.ose m fm hp rc] ∧ hznStarts 0 f.msgs = some f.slotStart →
    hmsgIn (.ose m fm hp rc) = .ose k fm hp rc → (s.hPort p).rxNext = f.seq →
    k.dstPkg = s.pkgId ∧ s.net.contains k = false → s.get (R.HZN_STATUS_REVISION p) ≠ 3 →
    Completes (.hznPayloadFrame p f) s fun t =>
      (t.hPort p) = { (s.hPort p) with
        rxNext := (f.seq + 1) % 4096, naks := 0, rxq := (s.hPort p).rxq ++ [(f.bseq, .ose k fm hp rc)] } ∧
      t.net = s.net ++ [k] ∧ s.HznMeters (hmsgMcid (.ose m fm hp rc)) t ∧ s.OnlyHPort p t ∧ s.HznSilent t ∧
      s.OnlyFields (eventFields) t ∧ s.Only [.regs, .net, .pass, .meter, .hzn] t) ∧
  (∀ (p : HPort) (f : HFrame) (m k : Msg) (fm hp rc : Nat) (s : State), s.FrameAt p f →
    f.typ = 0 ∧ f.msgs = [.ose m fm hp rc] ∧ hznStarts 0 f.msgs = some f.slotStart →
    hmsgIn (.ose m fm hp rc) = .ose k fm hp rc → (s.hPort p).rxNext = f.seq → k.dstPkg = s.pkgId ∧ s.net.contains k = true →
    s.get (R.HZN_STATUS_REVISION p) ≠ 3 → Completes (.hznPayloadFrame p f) s fun t =>
      (t.hPort p) = { (s.hPort p) with
        rxNext := (f.seq + 1) % 4096, naks := 0, rxq := (s.hPort p).rxq ++ [(f.bseq, .ose k fm hp rc)] } ∧
      s.HznMeters (hmsgMcid (.ose m fm hp rc)) t ∧ s.OnlyHPort p t ∧ s.HznSilent t ∧ s.OnlyFields (eventFields) t ∧
      s.Only [.regs, .pass, .meter, .hzn] t) ∧
  (∀ (p : HPort) (f : HFrame) (m k : Msg) (fm hp rc : Nat) (s : State), s.FrameAt p f →
    f.typ = 0 ∧ f.msgs = [.ose m fm hp rc] ∧ hznStarts 0 f.msgs = some f.slotStart →
    hmsgIn (.ose m fm hp rc) = .ose k fm hp rc → (s.hPort p).rxNext = f.seq →
    k.dstPkg = s.pkgId ∧ s.net.contains k = false → s.get (R.HZN_STATUS_REVISION p) = 3 →
    (s.hStrm (s.get (R.HZN_PARTNER_SERIAL_SERIAL p))).wait = [] ∧ (s.hStrm (s.get (R.HZN_PARTNER_SERIAL_SERIAL p))).rx = f.bseq →
    Completes (.hznPayloadFrame p f) s fun t =>
      (t.hPort p) = { (s.hPort p) with
        rxNext := (f.seq + 1) % 4096, naks := 0, rxq := (s.hPort p).rxq ++ [(f.bseq, .ose k fm hp rc)] } ∧
      t.net = s.net ++ [k] ∧ s.HznMeters (hmsgMcid (.ose m fm hp rc)) t ∧ s.OnlyHPort p t ∧ t.hzn.ctl = s.hzn.ctl ∧
      t.hStrm (s.get (R.HZN_PARTNER_SERIAL_SERIAL p)) =
        { s.hStrm (s.get (R.HZN_PARTNER_SERIAL_SERIAL p)) with rx := (f.bseq + 1) % 4096 } ∧
      s.OnlyFields (eventFields) t ∧ s.Only [.regs, .net, .pass, .meter, .hzn] t) ∧
  (∀ (p : HPort) (f : HFrame) (m k : Msg) (fm hp rc : Nat) (s : State), s.FrameAt p f →
    f.typ = 0 ∧ f.msgs = [.ose m fm hp rc] ∧ hznStarts 0 f.msgs = some f.slotStart →
    hmsgIn (.ose m fm hp rc) = .ose k fm hp rc → (s.hPort p).rxNext = f.seq → s.get (R.HZN_STATUS_REVISION p) = 3 →
    (s.hStrm (s.get (R.HZN_PARTNER_SERIAL_SERIAL p))).wait = [] ∧ (s.hStrm (s.get (R.HZN_PARTNER_SERIAL_SERIAL p))).rx ≠ f.bseq →
    Completes (.hznPayloadFrame p f) s fun t =>
      (t.hPort p) = { (s.hPort p) with
        rxNext := (f.seq + 1) % 4096, naks := 0, rxq := (s.hPort p).rxq ++ [(f.bseq, .ose k fm hp rc)] } ∧
      s.HznMeters (hmsgMcid (.ose m fm hp rc)) t ∧ s.OnlyHPort p t ∧ t.hzn.ctl = s.hzn.ctl ∧
      t.hStrm (s.get (R.HZN_PARTNER_SERIAL_SERIAL p)) =
        { s.hStrm (s.get (R.HZN_PARTNER_SERIAL_SERIAL p)) with wait := [(f.bseq, (p : Nat), [.ose k fm hp rc])] } ∧
      s.OnlyFields (eventFields) t ∧ s.Only [.regs, .pass, .meter, .hzn] t) ∧
  (∀ (p : HPort) (f : HFrame) (m k : Msg) (fm hp rc : Nat) (s : State), s.FrameAt p f →
    f.typ = 0 ∧ f.msgs = [.ose m fm hp rc] ∧ hznStarts 0 f.msgs = some f.slotStart →
    hmsgIn (.ose m fm hp rc) = .ose k fm hp rc → (s.hPort p).rxNext = f.seq → k.dstPkg ≠ s.pkgId ∧ hp ≠ 0 →
    s.get (R.HZN_STATUS_REVISION p) ≠ 3 → Completes (.hznPayloadFrame p f) s fun t =>
      (t.hPort p) = { (s.hPort p) with
        rxNext := (f.seq + 1) % 4096, naks := 0, rxq := (s.hPort p).rxq ++ [(f.bseq, .ose k fm hp rc)] } ∧
      s.HznMeters (hmsgMcid (.ose m fm hp rc)) t ∧ s.HznSilent t ∧
      t.hzn = { s.hzn with ports := t.hzn.ports, fwd := s.hzn.fwd ++ [((p : Nat), .ose k fm hp rc)] } ∧
      (∀ q, q < 8 → q ≠ (p : Nat) → t.hPort q = s.hPort q) ∧ s.OnlyFields (eventFields) t ∧
      s.Only [.regs, .pass, .meter, .hzn] t) ∧
  (∀ (p : HPort) (f : HFrame) (m k : Msg) (fm hp rc : Nat) (s : State), s.FrameAt p f →
    f.typ = 0 ∧ f.msgs = [.ose m fm hp rc] ∧ hznStarts 0 f.msgs = some f.slotStart →
    hmsgIn (.ose m fm hp rc) = .ose k fm hp rc → (s.hPort p).rxNext = f.seq →
    k.dstPkg ≠ s.pkgId ∧ hp = 0 ∧ (List.range 8).all (fun q => (s.hPort q).rxq.isEmpty) = true →
    s.get (R.HZN_STATUS_REVISION p) ≠ 3 → Completes (.hznPayloadFrame p f) s fun t =>
      (t.hPort p).rxNext = (f.seq + 1) % 4096 ∧ (t.hPort p).rxq = [] ∧ s.HznMeters (hmsgMcid (.ose m fm hp rc)) t ∧
      s.HznSilent t ∧
      t.get (R.HZN_DROP_STATS_HOPS p) = satAdd (R.HZN_DROP_STATS_HOPS p).w (s.get (R.HZN_DROP_STATS_HOPS p)) 1 ∧ t.get
        (R.HZN_EVENT_FRAMES_LOST p) = 1 ∧
      s.OnlyFields (hznFields p ++ eventFields) t ∧ s.Only [.regs, .pass, .meter, .hzn] t) ∧
  (∀ (p : HPort) (f : HFrame) (w : WMsg) (s : State), s.FrameAt p f →
    f.typ = 0 ∧ f.msgs = [.win w] ∧ hznStarts 0 f.msgs = some f.slotStart → (s.hPort p).rxNext = f.seq →
    w.dstPkg = s.pkgId → s.get (R.HZN_STATUS_REVISION p) ≠ 3 → Completes (.hznPayloadFrame p f) s fun t =>
      (t.hPort p) =
        { (s.hPort p) with rxNext := (f.seq + 1) % 4096, naks := 0, rxq := (s.hPort p).rxq ++ [(f.bseq, .win w)] } ∧
      t.hzn = { s.hzn with ports := t.hzn.ports, win := s.hzn.win ++ [w] } ∧
      (∀ q, q < 8 → q ≠ (p : Nat) → t.hPort q = s.hPort q) ∧ s.HznMeters (hmsgMcid (.win w)) t ∧
      s.OnlyFields (eventFields) t ∧ s.Only [.regs, .pass, .meter, .hzn] t) ∧
  (∀ (p : HPort) (f : HFrame) (s : State), s.FrameAt p f → f.typ = 0 ∧ hznStarts 0 f.msgs = some f.slotStart →
    (s.hPort p).rxNext ≠ f.seq → Completes (.hznPayloadFrame p f) s fun t =>
      (t.hPort p) = (s.hPort p) ∧ s.HznMeters 0 t ∧ s.OnlyHPort p t ∧ s.HznSilent t ∧ s.OnlyFields (eventFields) t ∧
      s.Only [.regs, .pass, .meter, .hzn] t) ∧
  (∀ (p : HPort) (f : HFrame) (s : State), s.FrameAt p f →
    f.typ = 0 ∧ f.msgs.length = 1 ∧ hznStarts 0 f.msgs ≠ some f.slotStart → (s.hPort p).rxNext = f.seq →
    s.get (R.HZN_STATUS_REVISION p) ≠ 3 → Completes (.hznPayloadFrame p f) s fun t =>
      (t.hPort p).rxNext = (f.seq + 1) % 4096 ∧ (t.hPort p).naks = 0 ∧ (t.hPort p).replay = (s.hPort p).replay ∧
      t.get (R.HZN_EVENT_FORMAT_ERR p) = 1 ∧
      s.Records (bankHzn p) ⟨true, errUEC, false, 0, recInfo 0 0 0 s.pkgId, 0, s.pwr.now⟩ t ∧ s.HznMeters 0 t ∧
      s.OnlyHPort p t ∧ s.HznSilent t ∧ s.OnlyFields (hznFields p ++ (eventFields ++ reportFields)) t ∧
      s.Only [.regs, .free, .core, .pass, .ras, .tvx, .meter, .hzn] t) ∧
  (∀ (p : HPort) (f : HFrame) (s : State), s.FrameAt p f → (f.typ = 3 ∨ (f.typ = 1 ∧ 7 < f.ctype)) →
    ((s.hPort p).rxNext ≠ f.seq ∨ f.typ = 1) → Completes (.hznPayloadFrame p f) s fun t =>
      (t.hPort p) = (s.hPort p) ∧ t.get (R.HZN_EVENT_FORMAT_ERR p) = 1 ∧
      s.Records (bankHzn p) ⟨true, errUEC, false, 0, recInfo 0 0 0 s.pkgId, 0, s.pwr.now⟩ t ∧ s.HznMeters 0 t ∧
      s.OnlyHPort p t ∧ s.HznSilent t ∧ s.OnlyFields (hznFields p ++ (eventFields ++ reportFields)) t ∧
      s.Only [.regs, .free, .core, .pass, .ras, .tvx, .meter, .hzn] t) ∧
  (∀ (p : HPort) (f : HFrame) (s : State), s.hznState p = hznACTIVE → f.typ = 0 →
    fecHeard (s.get (R.HZN_LANES_RX_ACTIVE p)) f.err = none → (s.hPort p).naks < 3 → (s.charge 12 p false).2 = false →
    Completes (.hznPayloadFrame p f) s fun t =>
      (t.hPort p) = { (s.hPort p) with naks := (s.hPort p).naks + 1 } ∧
      t.get (R.HZN_LINK_STATS_CRC_ERRORS p) = satAdd (R.HZN_LINK_STATS_CRC_ERRORS p).w (s.get (R.HZN_LINK_STATS_CRC_ERRORS
        p)) 1 ∧
      t.ras = (s.charge 12 p false).1.ras ∧ s.HznMeters 0 t ∧ s.OnlyHPort p t ∧ s.HznSilent t ∧
      s.OnlyFields (R.HZN_LINK_STATS_CRC_ERRORS p :: eventFields) t ∧ s.Only [.regs, .pass, .ras, .meter, .hzn] t) ∧
  (∀ (p : HPort) (f : HFrame) (s : State), s.hznState p = hznACTIVE → f.typ = 0 →
    fecHeard (s.get (R.HZN_LANES_RX_ACTIVE p)) f.err = none → (s.hPort p).naks = 3 ∧ s.hznSibling p ≠ none →
    (s.charge 12 p false).2 = false → Completes (.hznPayloadFrame p f) s fun t =>
      (t.hPort p) = { (s.hPort p) with
        naks := 0, agreed := false, oldW := s.get (R.HZN_STATUS_WIDTH p), owed := (s.hPort p).owed + 1 + 1 } ∧
      t.get (R.HZN_LINK_STATS_CRC_ERRORS p) = satAdd (R.HZN_LINK_STATS_CRC_ERRORS p).w (s.get (R.HZN_LINK_STATS_CRC_ERRORS
        p)) 1 ∧
      t.hznState p = hznRETRAIN ∧
      t.get (R.HZN_TRAIN_INFO_RETRAINS p) = satAdd (R.HZN_TRAIN_INFO_RETRAINS p).w (s.get (R.HZN_TRAIN_INFO_RETRAINS p)) 1 ∧
      t.ras = (s.charge 12 p false).1.ras ∧
      ({ s with meter := (s.meterAdd qHZN_RX 0 frameBytes).meter }).HznSends p [(1, s.helloArgs p 0 0 false), (3, [1])] t ∧
      s.OnlyHPort p t ∧ s.OnlyFields (hznFields p ++ eventFields) t ∧ s.Only [.regs, .pass, .ras, .meter, .qos, .hzn] t) ∧
  (∀ (p : HPort) (f : HFrame) (s : State), (s.hznState p ≠ hznACTIVE ∨ (f.typ ≠ 0 ∧ frameBroken f = false)) →
    Completes (.hznPayloadFrame p f) s fun t =>
      s.Only [] t) ∧
  (∀ (p : HPort) (f : HFrame) (s : State), s.hznState p = hznACTIVE → s.NoneMoved p →
    f.nak = false ∧ f.crs = [] ∧ f.err = [] → f.ackV = true → (s.hPort p).replay.any (fun x => x.seq == f.ackSeq) = true →
    Completes (.hznIdleFrame p f) s fun t =>
      (t.hPort p) = { (s.hPort p) with replay := ((s.hPort p).replay.dropWhile (fun x => x.seq != f.ackSeq)).drop 1 } ∧
      s.HznMeters 0 t ∧ s.OnlyHPort p t ∧ s.HznSilent t ∧ s.OnlyFields (eventFields) t ∧
      s.Only [.regs, .pass, .meter, .hzn] t) ∧
  (∀ (p : HPort) (f : HFrame) (c v : Nat) (s : State), s.hznState p = hznACTIVE → s.NoneMoved p →
    f.nak = false ∧ f.ackV = false ∧ f.err = [] → f.crs = [(c, v)] ∧ c < 16 → Completes (.hznIdleFrame p f) s fun t =>
      Tbl.get (fun _ => 0) (t.hPort p).rep c = v % 65536 ∧ (t.hPort p) = { (s.hPort p) with rep := (t.hPort p).rep } ∧
      s.HznMeters 0 t ∧ s.OnlyHPort p t ∧ s.HznSilent t ∧ s.OnlyFields (eventFields) t ∧
      s.Only [.regs, .pass, .meter, .hzn] t) ∧
  (∀ (p : HPort) (f : HFrame) (s : State), s.hznState p = hznACTIVE → s.NoneMoved p →
    f.nak = true ∧ f.ackV = false ∧ f.crs = [] ∧ f.err = [] → Completes (.hznIdleFrame p f) s fun t =>
      t.get (R.HZN_LINK_STATS_REPLAYED p) = satAdd (R.HZN_LINK_STATS_REPLAYED p).w (s.get (R.HZN_LINK_STATS_REPLAYED p))
        (s.hPort p).replay.length ∧
      (t.hPort p) = { (s.hPort p) with owed := (s.hPort p).owed + (s.hPort p).replay.length } ∧
      t.meter = ((s.meterAdd qHZN_RX 0 frameBytes).hznTxBytes p 0 none ((s.hPort p).replay.length * frameBytes)).meter ∧
      s.OnlyHPort p t ∧ s.HznSilent t ∧ s.OnlyFields (R.HZN_LINK_STATS_REPLAYED p :: eventFields) t ∧
      s.Only [.regs, .pass, .meter, .qos, .hzn] t) ∧
  (∀ (p : HPort) (f : HFrame) (s : State), s.hznState p ≠ hznACTIVE → Completes (.hznIdleFrame p f) s fun t =>
      s.Only [] t) ∧
  (∀ (p : HPort) (s : State), s.hznState p = hznACTIVE → 0 < (s.hPort p).replay.length →
    Completes (.hznReplayTimeout p) s fun t =>
      t.get (R.HZN_LINK_STATS_REPLAYED p) = satAdd (R.HZN_LINK_STATS_REPLAYED p).w (s.get (R.HZN_LINK_STATS_REPLAYED p))
        (s.hPort p).replay.length ∧
      (t.hPort p) = { (s.hPort p) with owed := (s.hPort p).owed + (s.hPort p).replay.length } ∧
      t.meter = (s.hznTxBytes p 0 none ((s.hPort p).replay.length * frameBytes)).meter ∧
      t.qos = (s.hznTxBytes p 0 none ((s.hPort p).replay.length * frameBytes)).qos ∧ s.OnlyHPort p t ∧ s.HznSilent t ∧
      s.OnlyFields (R.HZN_LINK_STATS_REPLAYED p :: eventFields) t ∧ s.Only [.regs, .pass, .meter, .qos, .hzn] t) ∧
  (∀ (p : HPort) (s : State), (s.hznState p ≠ hznACTIVE ∨ (s.hPort p).replay = []) →
    Completes (.hznReplayTimeout p) s fun t =>
      s.Only [] t) ∧
  (∀ (p : HPort) (f : HFrame) (r : Nat) (s : State), s.FrameAt p f → s.hznSibling p ≠ none →
    Completes (.hznRetrainReq p f r) s fun t =>
      t.hznState p = hznRETRAIN ∧
      t.get (R.HZN_TRAIN_INFO_RETRAINS p) = satAdd (R.HZN_TRAIN_INFO_RETRAINS p).w (s.get (R.HZN_TRAIN_INFO_RETRAINS p)) 1 ∧
      (t.hPort p) = { (s.hPort p) with
        agreed := false, oldW := s.get (R.HZN_STATUS_WIDTH p), naks := 0, owed := (s.hPort p).owed + 1 } ∧
      ({ s with meter := (s.meterAdd qHZN_RX 0 frameBytes).meter }).HznSends p [(1, s.helloArgs p 0 0 false)] t ∧
      s.OnlyHPort p t ∧ s.OnlyFields (hznFields p ++ eventFields) t ∧ s.Only [.regs, .pass, .meter, .qos, .hzn] t) ∧
  (∀ (p : HPort) (s : State), s.hznState p = hznACTIVE → s.hznSibling p ≠ none → Completes (.hznCtlRetrain p) s fun t =>
      t.hznState p = hznRETRAIN ∧
      t.get (R.HZN_TRAIN_INFO_RETRAINS p) = satAdd (R.HZN_TRAIN_INFO_RETRAINS p).w (s.get (R.HZN_TRAIN_INFO_RETRAINS p)) 1 ∧
      (t.hPort p) = { (s.hPort p) with
        agreed := false, oldW := s.get (R.HZN_STATUS_WIDTH p), naks := 0, owed := (s.hPort p).owed + 1 + 1 } ∧
      s.HznSends p [(1, s.helloArgs p 0 0 false), (3, [2])] t ∧ s.OnlyHPort p t ∧
      s.OnlyFields (hznFields p ++ eventFields) t ∧ s.Only [.regs, .pass, .meter, .qos, .hzn] t) ∧
  (∀ (p : HPort) (l : Fin 8) (s : State), (s.hPort p).marks.testBit l = false →
    (s.get (R.HZN_LANES_RX_ACTIVE p)).testBit l = true → s.hznState p = hznACTIVE → s.hznSibling p ≠ none →
    Completes (.hznLaneLossOfLock p l) s fun t =>
      t.hznState p = hznRETRAIN ∧
      t.get (R.HZN_TRAIN_INFO_RETRAINS p) = satAdd (R.HZN_TRAIN_INFO_RETRAINS p).w (s.get (R.HZN_TRAIN_INFO_RETRAINS p)) 1 ∧
      (t.hPort p) = { (s.hPort p) with
        agreed := false, oldW := s.get (R.HZN_STATUS_WIDTH p), naks := 0, owed := (s.hPort p).owed + 1 + 1, marks :=
          setBits (s.hPort p).marks l 1 1, lol := setBits (s.hPort p).lol l 1 1 } ∧
      t.get (R.HZN_EVENT_LANE_FAILED p) = 1 ∧ t.get (R.HZN_LANE_STATS_LOSS_OF_LOCK p l) = 1 ∧ (t.get (R.HZN_LANES_RX_MARKED
        p)).testBit l = true ∧
      (s.setHPort p { (s.hPort p) with marks := setBits (s.hPort p).marks l 1 1 }).HznSends p [(1, (s.setHPort p
        { (s.hPort p) with marks := setBits (s.hPort p).marks l 1 1 }).helloArgs p 0 0 false), (3, [0])] t ∧
      s.OnlyHPort p t ∧ s.OnlyFields (hznFields p ++ eventFields) t ∧ s.Only [.regs, .pass, .meter, .qos, .hzn] t) ∧
  (∀ (p : HPort) (f : HFrame) (r : Nat) (s : State), s.FrameAt p f → s.hznSibling p = none →
    Completes (.hznRetrainReq p f r) s fun t =>
      t.hznState p = hznRETRAIN ∧
      t.get (R.HZN_TRAIN_INFO_RETRAINS p) = satAdd (R.HZN_TRAIN_INFO_RETRAINS p).w (s.get (R.HZN_TRAIN_INFO_RETRAINS p)) 1 ∧
      (t.hPort p) = { (s.hPort p) with
        agreed := false, oldW := s.get (R.HZN_STATUS_WIDTH p), naks := 0, owed := (s.hPort p).owed + 1 } ∧
      ({ s with meter := (s.meterAdd qHZN_RX 0 frameBytes).meter }).HznSends p [(1, s.helloArgs p 0 0 false)] t ∧
      s.OnlyHPort p t ∧ s.OnlyFields (hznFields p ++ (eventFields ++ reportFields)) t ∧
      s.Only [.regs, .pass, .meter, .qos, .hzn, .tvx] t) ∧
  (∀ (p : HPort) (s : State), s.hznState p = hznACTIVE → s.hznSibling p = none → Completes (.hznCtlRetrain p) s fun t =>
      t.hznState p = hznRETRAIN ∧
      t.get (R.HZN_TRAIN_INFO_RETRAINS p) = satAdd (R.HZN_TRAIN_INFO_RETRAINS p).w (s.get (R.HZN_TRAIN_INFO_RETRAINS p)) 1 ∧
      (t.hPort p) = { (s.hPort p) with
        agreed := false, oldW := s.get (R.HZN_STATUS_WIDTH p), naks := 0, owed := (s.hPort p).owed + 1 + 1 } ∧
      s.HznSends p [(1, s.helloArgs p 0 0 false), (3, [2])] t ∧ s.OnlyHPort p t ∧
      s.OnlyFields (hznFields p ++ (eventFields ++ reportFields)) t ∧ s.Only [.regs, .pass, .meter, .qos, .hzn, .tvx] t) ∧
  (∀ (p : HPort) (l : Fin 8) (s : State), (s.hPort p).marks.testBit l = false →
    (s.get (R.HZN_LANES_RX_ACTIVE p)).testBit l = true → s.hznState p = hznACTIVE → s.hznSibling p = none →
    Completes (.hznLaneLossOfLock p l) s fun t =>
      t.hznState p = hznRETRAIN ∧
      t.get (R.HZN_TRAIN_INFO_RETRAINS p) = satAdd (R.HZN_TRAIN_INFO_RETRAINS p).w (s.get (R.HZN_TRAIN_INFO_RETRAINS p)) 1 ∧
      (t.hPort p) = { (s.hPort p) with
        agreed := false, oldW := s.get (R.HZN_STATUS_WIDTH p), naks := 0, owed := (s.hPort p).owed + 1 + 1, marks :=
          setBits (s.hPort p).marks l 1 1, lol := setBits (s.hPort p).lol l 1 1 } ∧
      t.get (R.HZN_EVENT_LANE_FAILED p) = 1 ∧ t.get (R.HZN_LANE_STATS_LOSS_OF_LOCK p l) = 1 ∧ (t.get (R.HZN_LANES_RX_MARKED
        p)).testBit l = true ∧
      (s.setHPort p { (s.hPort p) with marks := setBits (s.hPort p).marks l 1 1 }).HznSends p [(1, (s.setHPort p
        { (s.hPort p) with marks := setBits (s.hPort p).marks l 1 1 }).helloArgs p 0 0 false), (3, [0])] t ∧
      s.OnlyHPort p t ∧ s.OnlyFields (hznFields p ++ (eventFields ++ reportFields)) t ∧
      s.Only [.regs, .pass, .meter, .qos, .hzn, .tvx] t) ∧
  (∀ (p : HPort) (f : HFrame) (r : Nat) (s : State), s.hznState p ≠ hznACTIVE → Completes (.hznRetrainReq p f r) s fun t =>
      s.Only [] t) ∧
  (∀ (p : HPort) (s : State), s.hznState p ≠ hznACTIVE → Completes (.hznCtlRetrain p) s fun t =>
      s.Only [] t) ∧
  (∀ (p : HPort) (l : Fin 8) (s : State), (s.hPort p).marks.testBit l = false →
    ((s.get (R.HZN_LANES_RX_ACTIVE p)).testBit l = false ∨ s.hznState p ≠ hznACTIVE) →
    Completes (.hznLaneLossOfLock p l) s fun t =>
      (t.hPort p) = { (s.hPort p) with marks := setBits (s.hPort p).marks l 1 1, lol := setBits (s.hPort p).lol l 1 1 } ∧
      t.get (R.HZN_EVENT_LANE_FAILED p) = 1 ∧ t.get (R.HZN_LANE_STATS_LOSS_OF_LOCK p l) = 1 ∧ (t.get (R.HZN_LANES_RX_MARKED
        p)).testBit l = true ∧
      s.OnlyHPort p t ∧ s.HznSilent t ∧
      s.OnlyFields [R.HZN_EVENT_LANE_FAILED p, R.HZN_LANE_STATS_LOSS_OF_LOCK p l, R.HZN_LANES_RX_MARKED p] t ∧
      s.Only [.regs, .hzn] t) ∧
  (∀ (p : HPort) (l : Fin 8) (s : State), (s.hPort p).marks.testBit l = true → Completes (.hznLaneLossOfLock p l) s fun t =>
      s.Only [] t) ∧
  (∀ (p q : HPort) (f : HFrame) (n : Nat) (s : State), s.FrameAt p f → (s.hPort q).hand = true ∧ q ≠ p →
    s.get (R.HZN_PARTNER_SERIAL_SERIAL p) = s.get (R.HZN_PARTNER_SERIAL_SERIAL q) →
    (s.hPort q).replay.any (fun x => x.seq == n) = false ∧ (s.hPort q).txNext = n →
    Completes (.hznHandover p f q n) s fun t =>
      t.hPort q = { s.hPort q with replay := [] } ∧ (t.hPort p) = { (s.hPort p) with owed := (s.hPort p).owed + 1 } ∧
      t.get (R.HZN_EVENT_HANDOVER q) = 1 ∧
      ({ s with meter := (s.meterAdd qHZN_RX 0 frameBytes).meter }).HznSends p [(5, [(q : Nat)])] t ∧
      (∀ o, o < 8 → o ≠ (p : Nat) → o ≠ (q : Nat) → t.hPort o = s.hPort o) ∧
      t.hzn = { s.hzn with ports := t.hzn.ports, ctl := t.hzn.ctl } ∧
      s.OnlyFields (R.HZN_EVENT_HANDOVER q :: eventFields) t ∧ s.Only [.regs, .pass, .meter, .qos, .hzn] t) ∧
  (∀ (p q : HPort) (f : HFrame) (n : Nat) (s : State), s.FrameAt p f → (s.hPort q).hand = true ∧ q ≠ p →
    s.get (R.HZN_PARTNER_SERIAL_SERIAL p) = s.get (R.HZN_PARTNER_SERIAL_SERIAL q) →
    (s.hPort q).replay.any (fun x => x.seq == n) = true → Completes (.hznHandover p f q n) s fun t =>
      t.hPort q = { s.hPort q with replay := [] } ∧
      ((t.hPort p).replay ++ (t.hPort p).moved).map (fun x => (x.bseq, x.msgs)) = ((s.hPort p).replay ++ (s.hPort
        q).replay.dropWhile (fun x => x.seq != n)).map (fun x => (x.bseq, x.msgs)) ∧
      (t.hPort p).rxNext = (s.hPort p).rxNext ∧ (t.hPort p).rxq = (s.hPort p).rxq ∧ t.get (R.HZN_EVENT_HANDOVER q) = 1 ∧
      ((t.hPort p).moved = [] → t.hzn.ctl = ⟨(p : Nat), 5, [(q : Nat)]⟩ :: s.hzn.ctl) ∧
      (∀ o, o < 8 → o ≠ (p : Nat) → o ≠ (q : Nat) → t.hPort o = s.hPort o) ∧
      t.hzn = { s.hzn with ports := t.hzn.ports, ctl := t.hzn.ctl } ∧
      s.OnlyFields ([R.HZN_EVENT_HANDOVER q, R.HZN_LINK_STATS_REPLAYED p] ++ eventFields) t ∧
      s.Only [.regs, .pass, .meter, .qos, .hzn] t) ∧
  (∀ (p q : HPort) (f : HFrame) (n : Nat) (s : State), s.FrameAt p f →
    ((s.hPort q).hand = false ∨ q = p ∨ s.get (R.HZN_PARTNER_SERIAL_SERIAL p) ≠ s.get (R.HZN_PARTNER_SERIAL_SERIAL q)) →
    Completes (.hznHandover p f q n) s fun t =>
      (t.hPort p) = (s.hPort p) ∧ s.HznMeters 0 t ∧ s.OnlyHPort p t ∧ s.HznSilent t ∧ s.OnlyFields (eventFields) t ∧
      s.Only [.regs, .pass, .meter, .hzn] t) ∧
  (∀ (p q : HPort) (f : HFrame) (n : Nat) (s : State), s.hznState p ≠ hznACTIVE → Completes (.hznHandover p f q n) s fun t =>
      s.Only [] t) ∧
  (∀ (p q : HPort) (f : HFrame) (s : State), s.FrameAt p f →
    (s.hPort q).hand = true ∧ (s.hPort q).after = false ∧ (s.hPort q).replay = [] ∧ q ≠ p →
    Completes (.hznHandoverDone p f q) s fun t =>
      t.hPort q = { s.hPort q with hand := false } ∧ (t.hPort p) = (s.hPort p) ∧ s.HznMeters 0 t ∧
      (∀ o, o < 8 → o ≠ (p : Nat) → o ≠ (q : Nat) → t.hPort o = s.hPort o) ∧
      t.hzn = { s.hzn with ports := t.hzn.ports, ctl := t.hzn.ctl } ∧ s.HznSilent t ∧ s.OnlyFields (eventFields) t ∧
      s.Only [.regs, .pass, .meter, .hzn] t) ∧
  (∀ (p q : HPort) (f : HFrame) (s : State), s.FrameAt p f →
    (s.hPort q).hand = true ∧ (s.hPort q).after = true ∧ (s.hPort q).replay = [] ∧ q ≠ p →
    Completes (.hznHandoverDone p f q) s fun t =>
      s.HznStarts q (s.hPort q) t ∧ (t.hPort p) = (s.hPort p) ∧ s.HznMeters 0 t ∧
      (∀ o, o < 8 → o ≠ (p : Nat) → o ≠ (q : Nat) → t.hPort o = s.hPort o) ∧
      t.hzn = { s.hzn with ports := t.hzn.ports, ctl := t.hzn.ctl } ∧ s.HznSilent t ∧
      s.OnlyFields (R.HZN_STATUS_STATE q :: R.HZN_TRAIN_INFO_FULL_TRAINS q :: eventFields) t ∧
      s.Only [.regs, .pass, .meter, .hzn] t) ∧
  (∀ (p q : HPort) (f : HFrame) (s : State), s.FrameAt p f → ((s.hPort q).hand = false ∨ (s.hPort q).replay ≠ []) →
    Completes (.hznHandoverDone p f q) s fun t =>
      (t.hPort p) = (s.hPort p) ∧ s.HznMeters 0 t ∧ s.OnlyHPort p t ∧ s.HznSilent t ∧ s.OnlyFields (eventFields) t ∧
      s.Only [.regs, .pass, .meter, .hzn] t) ∧
  (∀ (p q : HPort) (f : HFrame) (s : State), s.hznState p < hznEXCHANGE → Completes (.hznHandoverDone p f q) s fun t =>
      s.Only [] t) ∧
  (∀ (p q : HPort) (s : State), s.hznState p = hznACTIVE → s.hznSibling p = some (q : Nat) ∧ q ≠ p ∧ (s.hPort p).moved = [] →
    Completes (.hznCtlFullTrain p) s fun t =>
      t.HznOff p ∧ t.get (R.HZN_EVENT_DOWN p) = 1 ∧
      (t.hPort p) = { (s.hPort p) with hand := true, after := true, wait := .no, txNext := (s.hPort p).txNext % 4096 } ∧
      (t.hPort q = { s.hPort q with owed := (s.hPort q).owed + 1 }) ∧
      s.HznSends q [(4, (p : Nat) :: leBytes 2 (s.hPort p).rxNext)] t ∧
      (∀ o, o < 8 → o ≠ (p : Nat) → o ≠ (q : Nat) → t.hPort o = s.hPort o) ∧
      t.hzn = { s.hzn with ports := t.hzn.ports, ctl := t.hzn.ctl } ∧ s.OnlyFields (hznFields p ++ eventFields) t ∧
      s.Only [.regs, .pass, .meter, .qos, .hzn] t) ∧
  (∀ (p : HPort) (s : State), s.hznState p = hznACTIVE →
    s.hznSibling p = none ∧ (s.hPort p).replay = [] ∧ (s.hPort p).moved = [] →
    (s.hStrm (s.get (R.HZN_PARTNER_SERIAL_SERIAL p))).wait = [] → Completes (.hznCtlFullTrain p) s fun t =>
      t.get (R.HZN_EVENT_DOWN p) = 1 ∧ s.HznStarts p (s.hPort p) t ∧ s.OnlyHPort p t ∧ t.hzn.ctl = s.hzn.ctl ∧
      s.OnlyFields (hznFields p ++ reportFields) t ∧ s.Only [.regs, .hzn, .tvx] t) ∧
  (∀ (p : HPort) (s : State), s.hznState p = hznACTIVE →
    s.hznSibling p = none ∧ (s.hPort p).replay ≠ [] ∧ (s.hPort p).moved = [] →
    (s.hStrm (s.get (R.HZN_PARTNER_SERIAL_SERIAL p))).wait = [] → Completes (.hznCtlFullTrain p) s fun t =>
      t.get (R.HZN_EVENT_DOWN p) = 1 ∧ t.get (R.HZN_EVENT_FRAMES_LOST p) = 1 ∧
      t.get (R.HZN_DROP_STATS_UNACKED p) = satAdd (R.HZN_DROP_STATS_UNACKED p).w (s.get (R.HZN_DROP_STATS_UNACKED p))
        (s.hPort p).replay.length ∧
      t.hznState p = hznPMD ∧ (t.hPort p).replay = [] ∧ s.OnlyHPort p t ∧ t.hzn.ctl = s.hzn.ctl ∧
      s.OnlyFields (hznFields p ++ reportFields) t ∧ s.Only [.regs, .hzn, .tvx] t) ∧
  (∀ (p : HPort) (s : State), s.hznState p ≠ hznACTIVE → Completes (.hznCtlFullTrain p) s fun t =>
      s.Only [] t) ∧
  (∀ (p q : HPort) (s : State), s.hznState p = hznRETRAIN → s.hznSibling p = some (q : Nat) ∧ q ≠ p ∧ (s.hPort p).moved = [] →
    s.hzn.reneg = [] → Completes (.hznRetrainTimeout p) s fun t =>
      t.HznOff p ∧ t.get (R.HZN_EVENT_DOWN p) = 1 ∧
      (t.hPort p) = { (s.hPort p) with hand := true, after := true, wait := .no, txNext := (s.hPort p).txNext % 4096 } ∧
      (t.hPort q = { s.hPort q with owed := (s.hPort q).owed + 1 }) ∧
      s.HznSends q [(4, (p : Nat) :: leBytes 2 (s.hPort p).rxNext)] t ∧
      (∀ o, o < 8 → o ≠ (p : Nat) → o ≠ (q : Nat) → t.hPort o = s.hPort o) ∧
      t.hzn = { s.hzn with ports := t.hzn.ports, ctl := t.hzn.ctl } ∧ s.OnlyFields (hznFields p ++ eventFields) t ∧
      s.Only [.regs, .pass, .meter, .qos, .hzn] t) ∧
  (∀ (p : HPort) (s : State), s.hznState p = hznRETRAIN →
    s.hznSibling p = none ∧ (s.hPort p).replay = [] ∧ (s.hPort p).moved = [] →
    (s.hStrm (s.get (R.HZN_PARTNER_SERIAL_SERIAL p))).wait = [] → s.hzn.reneg = [] →
    Completes (.hznRetrainTimeout p) s fun t =>
      t.get (R.HZN_EVENT_DOWN p) = 1 ∧ s.HznStarts p (s.hPort p) t ∧ s.OnlyHPort p t ∧ t.hzn.ctl = s.hzn.ctl ∧
      s.OnlyFields (hznFields p) t ∧ s.Only [.regs, .hzn] t) ∧
  (∀ (p : HPort) (s : State), s.hznState p = hznRETRAIN →
    s.hznSibling p = none ∧ (s.hPort p).replay ≠ [] ∧ (s.hPort p).moved = [] →
    (s.hStrm (s.get (R.HZN_PARTNER_SERIAL_SERIAL p))).wait = [] → s.hzn.reneg = [] →
    Completes (.hznRetrainTimeout p) s fun t =>
      t.get (R.HZN_EVENT_DOWN p) = 1 ∧ t.get (R.HZN_EVENT_FRAMES_LOST p) = 1 ∧
      t.get (R.HZN_DROP_STATS_UNACKED p) = satAdd (R.HZN_DROP_STATS_UNACKED p).w (s.get (R.HZN_DROP_STATS_UNACKED p))
        (s.hPort p).replay.length ∧
      t.hznState p = hznPMD ∧ (t.hPort p).replay = [] ∧ s.OnlyHPort p t ∧ t.hzn.ctl = s.hzn.ctl ∧
      s.OnlyFields (hznFields p) t ∧ s.Only [.regs, .hzn] t) ∧
  (∀ (p : HPort) (s : State), s.hznState p ≠ hznRETRAIN → Completes (.hznRetrainTimeout p) s fun t =>
      s.Only [] t)

/-- A train takes its states one after the other. HELLO chooses width and revision, at the word of the end with the lower
serial; without a revision or a width in common, or with this package's ID, the port is disabled with its cause; a new
partner clears the marks; in ACTIVE a HELLO refreshes the partner's data (spec/10 R239, R246, R248, R250). CONFIG
makes the port ACTIVE with the frames the partner still needs, and says HALVED where a retrain lost width (R246). A
bound that is exceeded disables the port with its cause, until a second has passed (R246, R247). ENABLE starts and
stops a port, and CLEAR_MARKS starts one that waits for it (R246, R249). A SERVE port answers a time request, a FOLLOW
port asks and computes offset and delay (R261). In any other state nothing changes. The cause of an EXCHANGE timeout
is free (notes/assumptions/1.md); HELLO's offers are the model's (notes/assumptions/56.md). -/
def Obligations.HorizonTraining : Prop :=
  (∀ (p : HPort) (f : HFrame) (x : Hello) (s : State), s.FrameAt p f → Completes (.hello p f x) s fun t =>
      t.Partner p x ∧ t.get (R.HZN_PARTNER_VALID p) = 1 ∧ t.hznState p = hznACTIVE ∧ (t.hPort p) = (s.hPort p) ∧
      s.HznMeters 0 t ∧ s.OnlyHPort p t ∧ s.HznSilent t ∧ s.OnlyFields (hznFields p ++ eventFields) t ∧
      s.Only [.regs, .pass, .meter, .hzn] t) ∧
  (∀ (p : HPort) (f : HFrame) (x : Hello) (s : State), s.hznState p = hznEXCHANGE → (fecHeard 0xFF f.err).isSome = true →
    x.pkg = s.pkgId → (s.hPort p).serial = none → Completes (.hello p f x) s fun t =>
      t.get (R.HZN_EVENT_DUP_ID p) = 1 ∧ t.HznOff p ∧ t.get (R.HZN_TRAIN_INFO_LAST_FAIL p) = 6 ∧
      (t.hPort p) = { (s.hPort p) with serial := some x.serial.toNat, wait := .marks, agreed := false } ∧ t.Partner p x ∧
      s.OnlyHPort p t ∧ s.HznSilent t ∧ s.OnlyFields (hznFields p) t ∧ s.Only [.regs, .hzn] t) ∧
  (∀ (p : HPort) (f : HFrame) (x : Hello) (s : State), s.hznState p = hznEXCHANGE → (fecHeard 0xFF f.err).isSome = true →
    x.pkg = s.pkgId → (s.hPort p).serial ≠ none ∧ (s.hPort p).serial ≠ some x.serial.toNat →
    Completes (.hello p f x) s fun t =>
      t.get (R.HZN_EVENT_DUP_ID p) = 1 ∧ t.get (R.HZN_EVENT_PARTNER_CHANGED p) = 1 ∧ t.get (R.HZN_LANES_RX_MARKED p) = 0 ∧
      t.HznOff p ∧ t.get (R.HZN_TRAIN_INFO_LAST_FAIL p) = 6 ∧
      (t.hPort p) =
        { (s.hPort p) with serial := some x.serial.toNat, marks := 0, lol := 0, wait := .marks, agreed := false } ∧
      (∀ l, l < 8 → (t.bucket 11 (p * 8 + l)).done = false) ∧ s.OnlyHPort p t ∧ s.HznSilent t ∧
      s.OnlyFields (hznFields p) t ∧ s.Only [.regs, .ras, .hzn] t) ∧
  (∀ (p : HPort) (f : HFrame) (x : Hello) (a b : Nat) (s : State), s.hznState p = hznEXCHANGE →
    (fecHeard 0xFF f.err).isSome = true → x.pkg ≠ s.pkgId ∧ x.noRev = false → x.serial.toNat ≤ Config.serial.toNat →
    (s.hPort p).serial = none ∧ x.width < 3 ∧ 0 < x.rev ∧ x.rev < 256 →
    max x.lo (s.get (R.HZN_TRAIN_INFO_REV_MIN p)) ≤ x.rev ∧ x.rev ≤ min x.hi (s.get (R.HZN_TRAIN_INFO_REV_MAX p)) →
    hznBlock ((s.hPort p).good.1 &&& (0xFF - (s.hPort p).marks % 256) &&& x.txGood) x.width = some a →
    hznBlock ((s.hPort p).good.2 &&& x.rxGood) x.width = some b → Completes (.hello p f x) s fun t =>
      t.hznState p = hznCONFIG ∧ t.get (R.HZN_STATUS_MASTER p) = 0 ∧
      t.get (R.HZN_STATUS_WIDTH p) = x.width ∧ t.get (R.HZN_STATUS_REVISION p) = x.rev ∧
      t.get (R.HZN_LANES_RX_ACTIVE p) = a ∧ t.get (R.HZN_LANES_TX_ACTIVE p) = b ∧
      (t.hPort p) = { (s.hPort p) with serial := some x.serial.toNat, agreed := true, owed := (s.hPort p).owed + 1 } ∧
      s.HznSends p [(1, s.helloArgs p x.width x.rev false)] t ∧ t.Partner p x ∧ t.get (R.HZN_PARTNER_VALID p) = 1 ∧
      s.OnlyHPort p t ∧ s.OnlyFields (hznFields p ++ eventFields) t ∧ s.Only [.regs, .pass, .meter, .qos, .hzn] t) ∧
  (∀ (p : HPort) (f : HFrame) (x : Hello) (a b : Nat) (s : State), s.hznState p = hznEXCHANGE →
    (fecHeard 0xFF f.err).isSome = true → x.pkg ≠ s.pkgId ∧ x.noRev = false →
    (s.hPort p).serial = none ∧ x.width < 3 ∧ 0 < x.rev ∧ x.rev < 256 →
    x.rev = min x.hi (s.get (R.HZN_TRAIN_INFO_REV_MAX p)) ∧ max x.lo (s.get (R.HZN_TRAIN_INFO_REV_MIN p)) ≤ x.rev →
    hznWidth ((s.hPort p).good.1 &&& (0xFF - (s.hPort p).marks % 256) &&& x.txGood) ((s.hPort p).good.2 &&& x.rxGood) (max (min 2 (s.get (R.HZN_CTL_MAX_WIDTH p))) ((s.hPort p).lower.getD 0)) = some (x.width, a, b) →
    Completes (.hello p f x) s fun t =>
      t.hznState p = hznCONFIG ∧ t.get (R.HZN_STATUS_MASTER p) = (if Config.serial.toNat < x.serial.toNat then 1 else 0) ∧
      t.get (R.HZN_STATUS_WIDTH p) = x.width ∧ t.get (R.HZN_STATUS_REVISION p) = x.rev ∧
      t.get (R.HZN_LANES_RX_ACTIVE p) = a ∧ t.get (R.HZN_LANES_TX_ACTIVE p) = b ∧
      (t.hPort p) = { (s.hPort p) with serial := some x.serial.toNat, agreed := true, owed := (s.hPort p).owed + 1 } ∧
      s.HznSends p [(1, s.helloArgs p x.width x.rev false)] t ∧ t.Partner p x ∧ t.get (R.HZN_PARTNER_VALID p) = 1 ∧
      s.OnlyHPort p t ∧ s.OnlyFields (hznFields p ++ eventFields) t ∧ s.Only [.regs, .pass, .meter, .qos, .hzn] t) ∧
  (∀ (p : HPort) (f : HFrame) (x : Hello) (s : State), s.hznState p = hznEXCHANGE → (fecHeard 0xFF f.err).isSome = true →
    x.pkg ≠ s.pkgId ∧ x.noRev = false ∧ x.rev = 0 → x.serial.toNat ≤ Config.serial.toNat → (s.hPort p).serial = none →
    Completes (.hello p f x) s fun t =>
      t.Partner p x ∧ t.get (R.HZN_PARTNER_VALID p) = 1 ∧ t.get (R.HZN_STATUS_MASTER p) = 0 ∧ t.hznState p = hznEXCHANGE ∧
      (t.hPort p) = { (s.hPort p) with serial := some x.serial.toNat } ∧ s.OnlyHPort p t ∧ s.HznSilent t ∧
      s.OnlyFields (hznFields p) t ∧ s.Only [.regs, .hzn] t) ∧
  (∀ (p : HPort) (f : HFrame) (x : Hello) (s : State), s.hznState p = hznEXCHANGE → (fecHeard 0xFF f.err).isSome = true →
    x.pkg ≠ s.pkgId ∧ x.noRev = true → x.serial.toNat ≤ Config.serial.toNat → (s.hPort p).serial = none →
    Completes (.hello p f x) s fun t =>
      t.get (R.HZN_EVENT_VERSION_FAIL p) = 1 ∧ t.HznOff p ∧ t.get (R.HZN_TRAIN_INFO_LAST_FAIL p) = 5 ∧
      (t.hPort p) = { (s.hPort p) with serial := some x.serial.toNat, wait := .second, agreed := false } ∧ t.Partner p x ∧
      s.OnlyHPort p t ∧ s.HznSilent t ∧ s.OnlyFields (hznFields p) t ∧ s.Only [.regs, .hzn] t) ∧
  (∀ (p : HPort) (f : HFrame) (x : Hello) (s : State), s.hznState p = hznEXCHANGE → (fecHeard 0xFF f.err).isSome = true →
    x.pkg ≠ s.pkgId ∧ x.noRev = false → x.serial.toNat ≤ Config.serial.toNat → (s.hPort p).serial = none ∧ 0 < x.rev →
    max x.lo (s.get (R.HZN_TRAIN_INFO_REV_MIN p)) ≤ x.rev ∧ x.rev ≤ min x.hi (s.get (R.HZN_TRAIN_INFO_REV_MAX p)) →
    (2 < x.width ∨ hznBlock ((s.hPort p).good.1 &&& (0xFF - (s.hPort p).marks % 256) &&& x.txGood) x.width = none ∨ hznBlock ((s.hPort p).good.2 &&& x.rxGood) x.width = none) →
    Completes (.hello p f x) s fun t =>
      t.HznOff p ∧ t.get (R.HZN_TRAIN_INFO_LAST_FAIL p) = 4 ∧
      (t.hPort p) = { (s.hPort p) with serial := some x.serial.toNat, wait := .marks, agreed := false } ∧ t.Partner p x ∧
      s.OnlyHPort p t ∧ s.HznSilent t ∧ s.OnlyFields (hznFields p) t ∧ s.Only [.regs, .hzn] t) ∧
  (∀ (p : HPort) (f : HFrame) (x : Hello) (s : State),
    (s.hznState p < hznEXCHANGE ∨ s.hznState p = hznCONFIG ∨ (s.hznState p = hznRETRAIN ∧ (s.hPort p).agreed = true)) →
    Completes (.hello p f x) s fun t =>
      s.Only [] t) ∧
  (∀ (p : HPort) (s : State), s.hznState p = hznACTIVE → Completes (.helloTimer p) s fun t =>
      s.HznSends p [(1, s.helloArgs p (s.get (R.HZN_STATUS_WIDTH p)) (s.get (R.HZN_STATUS_REVISION p)) false)] t ∧
      (t.hPort p) = { (s.hPort p) with owed := (s.hPort p).owed + 1 } ∧ s.OnlyHPort p t ∧ s.OnlyFields (eventFields) t ∧
      s.Only [.regs, .pass, .meter, .qos, .hzn] t) ∧
  (∀ (p : HPort) (s : State), s.hznState p ≠ hznACTIVE → Completes (.helloTimer p) s fun t =>
      s.Only [] t) ∧
  (∀ (p : HPort) (f : HFrame) (n b : Nat) (fr : List Nat) (s : State), s.hznState p = hznCONFIG →
    (fecHeard 0xFF f.err).isSome = true → s.hzn.reneg = [] ∧ s.NoneMoved p → s.get (R.HZN_STATUS_WIDTH p) ≠ 2 →
    s.hznSibling p = none → Completes (.hznConfig p f n b fr) s fun t =>
      t.hznState p = hznACTIVE ∧
      ((t.hPort p).replay = if (s.hPort p).replay.any (fun x => x.seq == n) then (s.hPort p).replay.dropWhile (fun x =>
        x.seq != n) else []) ∧
      (∀ c, c < 16 → Tbl.get (fun _ => 0) (t.hPort p).base c = (fr.getD c 0 + 65536 - codeSlots ((t.hPort p).replay.flatMap
        (·.msgs)) c % 65536) % 65536) ∧
      (t.hPort p) = { (s.hPort p) with
        replay := (t.hPort p).replay, txNext := (n + (t.hPort p).replay.length) % 4096, base := (t.hPort p).base, sent
          := [], rep := [], freed := [], agreed := false, lower := none, warn := (s.hPort p).warn || s.get
          (R.HZN_STATUS_WIDTH p) == 2, owed := (s.hPort p).owed + 1 + (t.hPort p).replay.length } ∧
      t.hzn.ctl = ⟨(p : Nat), 2, leBytes 2 (s.hPort p).rxNext ++ leBytes 2 (s.hStrm (s.get (R.HZN_PARTNER_SERIAL_SERIAL
        p))).rx ++ (List.range 16).flatMap (fun c => leBytes 2 (hznCapacity c - codeSlots ((s.hPort p).rxq.map (·.2))
        c))⟩ :: s.hzn.ctl ∧
      t.hStrm (s.get (R.HZN_PARTNER_SERIAL_SERIAL p)) =
        { s.hStrm (s.get (R.HZN_PARTNER_SERIAL_SERIAL p)) with tx := b % 4096 } ∧
      s.OnlyHPort p t ∧ s.OnlyFields (hznFields p ++ eventFields) t ∧ s.Only [.regs, .pass, .meter, .qos, .hzn] t) ∧
  (∀ (p : HPort) (f : HFrame) (n b : Nat) (fr : List Nat) (s : State), s.hznState p = hznCONFIG →
    (fecHeard 0xFF f.err).isSome = true → s.hzn.reneg = [] ∧ s.NoneMoved p → s.get (R.HZN_STATUS_WIDTH p) ≠ 2 →
    s.hznSibling p ≠ none → Completes (.hznConfig p f n b fr) s fun t =>
      t.hznState p = hznACTIVE ∧
      ((t.hPort p).replay = if (s.hPort p).replay.any (fun x => x.seq == n) then (s.hPort p).replay.dropWhile (fun x =>
        x.seq != n) else []) ∧
      (∀ c, c < 16 → Tbl.get (fun _ => 0) (t.hPort p).base c = (fr.getD c 0 + 65536 - codeSlots ((t.hPort p).replay.flatMap
        (·.msgs)) c % 65536) % 65536) ∧
      (t.hPort p) = { (s.hPort p) with
        replay := (t.hPort p).replay, txNext := (n + (t.hPort p).replay.length) % 4096, base := (t.hPort p).base, sent
          := [], rep := [], freed := [], agreed := false, lower := none, warn := (s.hPort p).warn || s.get
          (R.HZN_STATUS_WIDTH p) == 2, owed := (s.hPort p).owed + 1 + (t.hPort p).replay.length } ∧
      t.hzn.ctl = ⟨(p : Nat), 2, leBytes 2 (s.hPort p).rxNext ++ leBytes 2 (s.hStrm (s.get (R.HZN_PARTNER_SERIAL_SERIAL
        p))).rx ++ (List.range 16).flatMap (fun c => leBytes 2 (hznCapacity c - codeSlots ((s.hPort p).rxq.map (·.2))
        c))⟩ :: s.hzn.ctl ∧
      t.hzn.strm = s.hzn.strm ∧ s.OnlyHPort p t ∧ s.OnlyFields (hznFields p ++ eventFields) t ∧
      s.Only [.regs, .pass, .meter, .qos, .hzn] t) ∧
  (∀ (p : HPort) (f : HFrame) (n b : Nat) (fr : List Nat) (s : State), s.hznState p = hznRETRAIN ∧ (s.hPort p).agreed = true →
    (fecHeard 0xFF f.err).isSome = true → s.hzn.reneg = [] ∧ s.NoneMoved p → s.get (R.HZN_STATUS_WIDTH p) ≠ 2 →
    Completes (.hznConfig p f n b fr) s fun t =>
      t.hznState p = hznACTIVE ∧
      ((t.hPort p).replay = if (s.hPort p).replay.any (fun x => x.seq == n) then (s.hPort p).replay.dropWhile (fun x =>
        x.seq != n) else []) ∧
      (∀ c, c < 16 → Tbl.get (fun _ => 0) (t.hPort p).base c = (fr.getD c 0 + 65536 - codeSlots ((t.hPort p).replay.flatMap
        (·.msgs)) c % 65536) % 65536) ∧
      (t.hPort p) = { (s.hPort p) with
        replay := (t.hPort p).replay, txNext := (n + (t.hPort p).replay.length) % 4096, base := (t.hPort p).base, sent
          := [], rep := [], freed := [], agreed := false, lower := none, warn := (s.hPort p).warn || s.get
          (R.HZN_STATUS_WIDTH p) == 2, owed := (s.hPort p).owed + 1 + (t.hPort p).replay.length } ∧
      t.hzn.ctl = ⟨(p : Nat), 2, leBytes 2 (s.hPort p).rxNext ++ leBytes 2 (s.hStrm (s.get (R.HZN_PARTNER_SERIAL_SERIAL
        p))).rx ++ (List.range 16).flatMap (fun c => leBytes 2 (hznCapacity c - codeSlots ((s.hPort p).rxq.map (·.2))
        c))⟩ :: s.hzn.ctl ∧
      ((s.hPort p).oldW < s.get (R.HZN_STATUS_WIDTH p) → t.get (R.HZN_EVENT_HALVED p) = 1) ∧ t.hzn.strm = s.hzn.strm ∧
      s.OnlyHPort p t ∧ s.OnlyFields (hznFields p ++ eventFields) t ∧ s.Only [.regs, .pass, .meter, .qos, .hzn] t) ∧
  (∀ (p : HPort) (f : HFrame) (n b : Nat) (fr : List Nat) (s : State), s.hznState p = hznCONFIG →
    (fecHeard 0xFF f.err).isSome = true → s.hzn.reneg = [] ∧ s.NoneMoved p →
    s.get (R.HZN_STATUS_WIDTH p) = 2 ∧ (s.hPort p).warn = false → s.hznSibling p = none →
    Completes (.hznConfig p f n b fr) s fun t =>
      t.hznState p = hznACTIVE ∧
      ((t.hPort p).replay = if (s.hPort p).replay.any (fun x => x.seq == n) then (s.hPort p).replay.dropWhile (fun x =>
        x.seq != n) else []) ∧
      (∀ c, c < 16 → Tbl.get (fun _ => 0) (t.hPort p).base c = (fr.getD c 0 + 65536 - codeSlots ((t.hPort p).replay.flatMap
        (·.msgs)) c % 65536) % 65536) ∧
      (t.hPort p) = { (s.hPort p) with
        replay := (t.hPort p).replay, txNext := (n + (t.hPort p).replay.length) % 4096, base := (t.hPort p).base, sent
          := [], rep := [], freed := [], agreed := false, lower := none, warn := (s.hPort p).warn || s.get
          (R.HZN_STATUS_WIDTH p) == 2, owed := (s.hPort p).owed + 1 + (t.hPort p).replay.length } ∧
      t.hzn.ctl = ⟨(p : Nat), 2, leBytes 2 (s.hPort p).rxNext ++ leBytes 2 (s.hStrm (s.get (R.HZN_PARTNER_SERIAL_SERIAL
        p))).rx ++ (List.range 16).flatMap (fun c => leBytes 2 (hznCapacity c - codeSlots ((s.hPort p).rxq.map (·.2))
        c))⟩ :: s.hzn.ctl ∧
      t.hStrm (s.get (R.HZN_PARTNER_SERIAL_SERIAL p)) =
        { s.hStrm (s.get (R.HZN_PARTNER_SERIAL_SERIAL p)) with tx := b % 4096 } ∧
      s.OnlyHPort p t ∧ s.OnlyFields (hznFields p ++ (eventFields ++ reportFields)) t ∧
      s.Only [.regs, .pass, .meter, .qos, .hzn, .tvx] t) ∧
  (∀ (p : HPort) (f : HFrame) (n b : Nat) (fr : List Nat) (s : State),
    (s.hznState p < hznCONFIG ∨ (s.hznState p = hznRETRAIN ∧ (s.hPort p).agreed = false)) →
    Completes (.hznConfig p f n b fr) s fun t =>
      s.Only [] t) ∧
  (∀ (p : HPort) (r g : Nat) (s : State), s.hznState p = hznPMD → s.ucRestarting ucHZN = false →
    2 ≤ popCount 8 (r % 256 &&& (0xFF - (s.hPort p).marks % 256)) ∧ 2 ≤ popCount 8 (g % 256) →
    Completes (.hznPmdTrainDone p r g) s fun t =>
      t.hznState p = hznALIGN ∧ (t.hPort p) = { (s.hPort p) with good := (r % 256, g % 256) } ∧ s.OnlyHPort p t ∧
      s.HznSilent t ∧ s.OnlyFields [R.HZN_STATUS_STATE p] t ∧ s.Only [.regs, .hzn] t) ∧
  (∀ (p : HPort) (r g : Nat) (s : State), s.hznState p = hznPMD → s.ucRestarting ucHZN = false →
    (popCount 8 (r % 256 &&& (0xFF - (s.hPort p).marks % 256)) < 2 ∨ popCount 8 (g % 256) < 2) →
    Completes (.hznPmdTrainDone p r g) s fun t =>
      t.HznOff p ∧ t.get (R.HZN_TRAIN_INFO_LAST_FAIL p) = 4 ∧
      (t.hPort p) = { (s.hPort p) with good := (r % 256, g % 256), wait := .marks, agreed := false } ∧ s.OnlyHPort p t ∧
      s.HznSilent t ∧ s.OnlyFields (hznFields p) t ∧ s.Only [.regs, .hzn] t) ∧
  (∀ (p : HPort) (r g : Nat) (s : State), (s.hznState p ≠ hznPMD ∨ s.ucRestarting ucHZN = true) →
    Completes (.hznPmdTrainDone p r g) s fun t =>
      s.Only [] t) ∧
  (∀ (p : HPort) (s : State), s.hznState p = hznALIGN → s.ucRestarting ucHZN = false →
    Completes (.hznCodewordLock p) s fun t =>
      t.hznState p = hznEXCHANGE ∧ s.HznSends p [(1, s.helloArgs p 0 0 false)] t ∧
      (t.hPort p) = { (s.hPort p) with owed := (s.hPort p).owed + 1 } ∧ s.OnlyHPort p t ∧
      s.OnlyFields (R.HZN_STATUS_STATE p :: eventFields) t ∧ s.Only [.regs, .pass, .meter, .qos, .hzn] t) ∧
  (∀ (p : HPort) (s : State), (s.hznState p ≠ hznALIGN ∨ s.ucRestarting ucHZN = true) →
    Completes (.hznCodewordLock p) s fun t =>
      s.Only [] t) ∧
  (∀ (p : HPort) (s : State), s.hznState p = hznPMD → Completes (.hznTrainTimeout p) s fun t =>
      t.HznOff p ∧ t.get (R.HZN_TRAIN_INFO_LAST_FAIL p) = 2 ∧
      (t.hPort p) = { (s.hPort p) with wait := .second, agreed := false } ∧ s.OnlyHPort p t ∧ s.HznSilent t ∧
      s.OnlyFields (hznFields p) t ∧ s.Only [.regs, .hzn] t) ∧
  (∀ (p : HPort) (s : State), s.hznState p = hznALIGN → Completes (.hznTrainTimeout p) s fun t =>
      t.HznOff p ∧ t.get (R.HZN_TRAIN_INFO_LAST_FAIL p) = 3 ∧
      (t.hPort p) = { (s.hPort p) with wait := .second, agreed := false } ∧ s.OnlyHPort p t ∧ s.HznSilent t ∧
      s.OnlyFields (hznFields p) t ∧ s.Only [.regs, .hzn] t) ∧
  (∀ (p : HPort) (s : State), s.hznState p = hznCONFIG → Completes (.hznTrainTimeout p) s fun t =>
      t.HznOff p ∧ t.get (R.HZN_TRAIN_INFO_LAST_FAIL p) = 7 ∧
      (t.hPort p) = { (s.hPort p) with wait := .second, agreed := false } ∧ s.OnlyHPort p t ∧ s.HznSilent t ∧
      s.OnlyFields (hznFields p) t ∧ s.Only [.regs, .hzn] t) ∧
  (∀ (p : HPort) (s : State), s.hznState p = hznEXCHANGE → Completes (.hznTrainTimeout p) s fun t =>
      t.HznOff p ∧ (t.hPort p) = { (s.hPort p) with wait := .second, agreed := false } ∧ s.OnlyHPort p t ∧ s.HznSilent t ∧
      t.free = s.free + 1 ∧ s.OnlyFields (hznFields p) t ∧ s.Only [.regs, .free, .hzn] t) ∧
  (∀ (p : HPort) (s : State), (s.hznState p = hznDISABLED ∨ s.hznState p = hznACTIVE ∨ s.hznState p = hznRETRAIN) →
    Completes (.hznTrainTimeout p) s fun t =>
      s.Only [] t) ∧
  (∀ (p : HPort) (s : State), (s.hPort p).wait = .second → s.hznState p = hznDISABLED ∧ (s.hPort p).hand = false →
    s.flag (R.HZN_CTL_ENABLE p) = true → Completes (.hznTrainRestart p) s fun t =>
      s.HznStarts p (s.hPort p) t ∧ s.OnlyHPort p t ∧ s.HznSilent t ∧
      s.OnlyFields [R.HZN_STATUS_STATE p, R.HZN_TRAIN_INFO_FULL_TRAINS p] t ∧ s.Only [.regs, .hzn] t) ∧
  (∀ (p : HPort) (s : State),
    ((s.hPort p).wait ≠ .second ∨ s.hznState p ≠ hznDISABLED ∨ (s.hPort p).hand = true ∨ s.flag (R.HZN_CTL_ENABLE p) = false) →
    Completes (.hznTrainRestart p) s fun t =>
      s.Only [] t) ∧
  (∀ (p : HPort) (s : State), s.hznState p = hznDISABLED → (s.hPort p).hand = false →
    Completes (.hznEnableWrite p true true) s fun t =>
      s.HznStarts p (s.hPort p) t ∧ t.get (R.HZN_CTL_ENABLE p) = 1 ∧ s.OnlyHPort p t ∧ s.HznSilent t ∧
      s.OnlyFields [R.HZN_STATUS_STATE p, R.HZN_TRAIN_INFO_FULL_TRAINS p, R.HZN_CTL_ENABLE p] t ∧ s.Only [.regs, .hzn] t) ∧
  (∀ (p : HPort) (s : State), s.hznState p = hznDISABLED → (s.hPort p).hand = false →
    Completes (.hznEnableWrite p true false) s fun t =>
      t.hznState p = hznDISABLED ∧ t.get (R.HZN_CTL_ENABLE p) = 1 ∧ t.get (R.HZN_TRAIN_INFO_LAST_FAIL p) = 1 ∧
      s.OnlyFields [R.HZN_CTL_ENABLE p, R.HZN_TRAIN_INFO_LAST_FAIL p] t ∧ s.Only [.regs] t) ∧
  (∀ (p : HPort) (b : Bool) (s : State), (s.hznState p ≠ hznDISABLED ∨ (s.hPort p).hand = true) →
    Completes (.hznEnableWrite p true b) s fun t =>
      t.get (R.HZN_CTL_ENABLE p) = 1 ∧ s.OnlyFields [R.HZN_CTL_ENABLE p] t ∧ s.Only [.regs] t) ∧
  (∀ (p : HPort) (b : Bool) (s : State), hznDISABLED < s.hznState p ∧ s.hznState p < hznACTIVE →
    Completes (.hznEnableWrite p false b) s fun t =>
      t.HznOff p ∧ t.get (R.HZN_CTL_ENABLE p) = 0 ∧ (t.hPort p) = { (s.hPort p) with wait := .no, agreed := false } ∧
      s.OnlyHPort p t ∧ s.HznSilent t ∧ s.OnlyFields (R.HZN_CTL_ENABLE p :: hznFields p) t ∧ s.Only [.regs, .hzn] t) ∧
  (∀ (p : HPort) (b : Bool) (s : State), s.hznState p = hznDISABLED → Completes (.hznEnableWrite p false b) s fun t =>
      t.get (R.HZN_CTL_ENABLE p) = 0 ∧ (t.hPort p) = { (s.hPort p) with wait := .no, after := false } ∧ s.OnlyHPort p t ∧
      s.HznSilent t ∧ s.OnlyFields [R.HZN_CTL_ENABLE p] t ∧ s.Only [.regs, .hzn] t) ∧
  (∀ (p q : HPort) (b : Bool) (s : State), s.hznState p = hznACTIVE →
    s.hznSibling p = some (q : Nat) ∧ q ≠ p ∧ (s.hPort p).moved = [] ∧ s.hzn.reneg = [] →
    Completes (.hznEnableWrite p false b) s fun t =>
      t.HznOff p ∧ t.get (R.HZN_EVENT_DOWN p) = 1 ∧ t.get (R.HZN_CTL_ENABLE p) = 0 ∧
      (t.hPort p) = { (s.hPort p) with hand := true, after := false, wait := .no, txNext := (s.hPort p).txNext % 4096 } ∧
      (t.hPort q = { s.hPort q with owed := (s.hPort q).owed + 1 }) ∧
      s.HznSends q [(4, (p : Nat) :: leBytes 2 (s.hPort p).rxNext)] t ∧
      (∀ o, o < 8 → o ≠ (p : Nat) → o ≠ (q : Nat) → t.hPort o = s.hPort o) ∧
      t.hzn = { s.hzn with ports := t.hzn.ports, ctl := t.hzn.ctl } ∧
      s.OnlyFields (R.HZN_CTL_ENABLE p :: hznFields p ++ eventFields) t ∧ s.Only [.regs, .pass, .meter, .qos, .hzn] t) ∧
  (∀ (p : HPort) (b : Bool) (s : State), s.hznState p = hznACTIVE →
    s.hznSibling p = none ∧ (s.hPort p).replay = [] ∧ (s.hPort p).moved = [] ∧ s.hzn.reneg = [] →
    (s.hStrm (s.get (R.HZN_PARTNER_SERIAL_SERIAL p))).wait = [] → Completes (.hznEnableWrite p false b) s fun t =>
      t.HznOff p ∧ t.get (R.HZN_EVENT_DOWN p) = 1 ∧ t.get (R.HZN_CTL_ENABLE p) = 0 ∧
      (t.hPort p).replay = [] ∧ (t.hPort p).wait = .no ∧ s.OnlyHPort p t ∧ t.hzn.ctl = s.hzn.ctl ∧
      s.OnlyFields (R.HZN_CTL_ENABLE p :: (hznFields p ++ reportFields)) t ∧ s.Only [.regs, .hzn, .tvx] t) ∧
  (∀ (p : HPort) (s : State), s.hznState p = hznDISABLED → (s.hPort p).wait = .marks ∧ (s.hPort p).hand = false →
    s.flag (R.HZN_CTL_ENABLE p) = true → Completes (.clearMarks p) s fun t =>
      t.get (R.HZN_LANES_RX_MARKED p) = 0 ∧
      (∀ l, l < 8 → t.get (R.HZN_LANE_STATS_LOSS_OF_LOCK p l) = 0 ∧ (t.bucket 11 (p * 8 + l)).done = false) ∧
      s.HznStarts p { (s.hPort p) with marks := 0, lol := 0 } t ∧ s.OnlyHPort p t ∧ s.HznSilent t ∧
      s.OnlyFields (hznFields p) t ∧ s.Only [.regs, .ras, .hzn] t) ∧
  (∀ (p : HPort) (s : State),
    (s.hznState p ≠ hznDISABLED ∨ (s.hPort p).wait ≠ .marks ∨ (s.hPort p).hand = true ∨ s.flag (R.HZN_CTL_ENABLE p) = false) →
    Completes (.clearMarks p) s fun t =>
      t.get (R.HZN_LANES_RX_MARKED p) = 0 ∧
      (∀ l, l < 8 → t.get (R.HZN_LANE_STATS_LOSS_OF_LOCK p l) = 0 ∧ (t.bucket 11 (p * 8 + l)).done = false) ∧
      (t.hPort p) = { (s.hPort p) with marks := 0, lol := 0 } ∧ t.hznState p = s.hznState p ∧ s.OnlyHPort p t ∧
      s.HznSilent t ∧ s.OnlyFields (R.HZN_LANES_RX_MARKED p :: (List.range 8).map (R.HZN_LANE_STATS_LOSS_OF_LOCK p)) t ∧
      s.Only [.regs, .ras, .hzn] t) ∧
  (∀ (p : HPort) (f : HFrame) (a b : Nat) (s : State), s.FrameAt p f →
    s.get (R.HZN_CTL_TIME_ROLE p) = 1 ∧ s.get (R.HZN_STATUS_REVISION p) = 3 → Completes (.timeReq p f a b) s fun t =>
      ({ s with meter := (s.meterAdd qHZN_RX 0 frameBytes).meter }).HznSends p [(7, leBytes 8 a ++ [b % 256] ++ (leBytes 8
        (s.time256 / 256) ++ [s.time256 % 256]) ++ (leBytes 8 (s.time256 / 256) ++ [s.time256 % 256]))] t ∧
      (t.hPort p) = { (s.hPort p) with owed := (s.hPort p).owed + 1 } ∧ s.OnlyHPort p t ∧ s.OnlyFields (eventFields) t ∧
      s.Only [.regs, .pass, .meter, .qos, .hzn] t) ∧
  (∀ (p : HPort) (f : HFrame) (a b : Nat) (s : State), s.FrameAt p f →
    (s.get (R.HZN_CTL_TIME_ROLE p) ≠ 1 ∨ s.get (R.HZN_STATUS_REVISION p) ≠ 3) → Completes (.timeReq p f a b) s fun t =>
      (t.hPort p) = (s.hPort p) ∧ s.HznMeters 0 t ∧ s.OnlyHPort p t ∧ s.HznSilent t ∧ s.OnlyFields (eventFields) t ∧
      s.Only [.regs, .pass, .meter, .hzn] t) ∧
  (∀ (p : HPort) (f : HFrame) (a b : Nat) (s : State), s.hznState p ≠ hznACTIVE → Completes (.timeReq p f a b) s fun t =>
      s.Only [] t) ∧
  (∀ (p : HPort) (s : State), s.hznState p = hznACTIVE →
    s.get (R.HZN_CTL_TIME_ROLE p) = 2 ∧ s.get (R.HZN_STATUS_REVISION p) = 3 → Completes (.timeReqTimer p) s fun t =>
      s.HznSends p [(6, leBytes 8 (s.time256 / 256) ++ [s.time256 % 256])] t ∧
      (t.hPort p) = { (s.hPort p) with owed := (s.hPort p).owed + 1 } ∧ s.OnlyHPort p t ∧ s.OnlyFields (eventFields) t ∧
      s.Only [.regs, .pass, .meter, .qos, .hzn] t) ∧
  (∀ (p : HPort) (s : State),
    (s.hznState p ≠ hznACTIVE ∨ s.get (R.HZN_CTL_TIME_ROLE p) ≠ 2 ∨ s.get (R.HZN_STATUS_REVISION p) ≠ 3) →
    Completes (.timeReqTimer p) s fun t =>
      s.Only [] t) ∧
  (∀ (p : HPort) (f : HFrame) (a b c : Nat × Nat) (s : State), s.FrameAt p f →
    s.get (R.HZN_CTL_TIME_ROLE p) = 2 ∧ s.get (R.HZN_STATUS_REVISION p) = 3 →
    (s.get R.TIME_CTL_SOURCE ≠ 2 ∧ (s.get R.TIME_CTL_SOURCE ≠ 3 ∨ s.pwr.lastPps ≠ none)) →
    Completes (.timeRsp p f a b c) s fun t =>
      t.get (R.HZN_TIME_OFFSET_OFFSET p) = satSigned 32 ((((b.1 * 256 + b.2 % 256 : Nat) : Int) - ((a.1 * 256 + a.2 % 256 :
        Nat) : Int) + (((c.1 * 256 + c.2 % 256 : Nat) : Int) - s.time256) - signed 32 (s.get (R.HZN_TIME_ASYM_ASYM
        p))) / 2) % 2 ^ 32 ∧
      t.get (R.HZN_TIME_OFFSET_DELAY p) = unsigned 24 (((s.time256 : Int) - ((a.1 * 256 + a.2 % 256 : Nat) : Int) - (((c.1 *
        256 + c.2 % 256 : Nat) : Int) - ((b.1 * 256 + b.2 % 256 : Nat) : Int))) / 2) % 2 ^ 24 ∧
      (t.hPort p) = (s.hPort p) ∧ s.HznMeters 0 t ∧ s.OnlyHPort p t ∧ s.HznSilent t ∧
      s.OnlyFields ([R.HZN_TIME_OFFSET_OFFSET p, R.HZN_TIME_OFFSET_DELAY p] ++ eventFields) t ∧
      s.Only [.regs, .pass, .meter, .hzn] t) ∧
  (∀ (p : HPort) (f : HFrame) (a b c : Nat × Nat) (s : State), s.FrameAt p f →
    s.get (R.HZN_CTL_TIME_ROLE p) = 2 ∧ s.get (R.HZN_STATUS_REVISION p) = 3 → s.get R.TIME_CTL_SOURCE = 2 →
    Completes (.timeRsp p f a b c) s fun t =>
      t.get (R.HZN_TIME_OFFSET_OFFSET p) = satSigned 32 ((((b.1 * 256 + b.2 % 256 : Nat) : Int) - ((a.1 * 256 + a.2 % 256 :
        Nat) : Int) + (((c.1 * 256 + c.2 % 256 : Nat) : Int) - s.time256) - signed 32 (s.get (R.HZN_TIME_ASYM_ASYM
        p))) / 2) % 2 ^ 32 ∧
      t.get (R.HZN_TIME_OFFSET_DELAY p) = unsigned 24 (((s.time256 : Int) - ((a.1 * 256 + a.2 % 256 : Nat) : Int) - (((c.1 *
        256 + c.2 % 256 : Nat) : Int) - ((b.1 * 256 + b.2 % 256 : Nat) : Int))) / 2) % 2 ^ 24 ∧
      t.pwr.samples = (s.timeSample ((((b.1 * 256 + b.2 % 256 : Nat) : Int) - ((a.1 * 256 + a.2 % 256 : Nat) : Int) + (((c.1
        * 256 + c.2 % 256 : Nat) : Int) - s.time256) - signed 32 (s.get (R.HZN_TIME_ASYM_ASYM p))) / 2)
        true).pwr.samples ∧
      t.get R.TIME_STATUS_STATE = (s.timeSample ((((b.1 * 256 + b.2 % 256 : Nat) : Int) - ((a.1 * 256 + a.2 % 256 : Nat) :
        Int) + (((c.1 * 256 + c.2 % 256 : Nat) : Int) - s.time256) - signed 32 (s.get (R.HZN_TIME_ASYM_ASYM p))) / 2)
        true).get R.TIME_STATUS_STATE ∧
      (t.hPort p) = (s.hPort p) ∧ s.OnlyHPort p t ∧ s.HznSilent t ∧
      s.Only [.regs, .free, .pass, .meter, .qos, .hzn, .ras, .tvx, .pwr] t) ∧
  (∀ (p : HPort) (f : HFrame) (a b c : Nat × Nat) (s : State), s.FrameAt p f →
    (s.get (R.HZN_CTL_TIME_ROLE p) ≠ 2 ∨ s.get (R.HZN_STATUS_REVISION p) ≠ 3) → Completes (.timeRsp p f a b c) s fun t =>
      (t.hPort p) = (s.hPort p) ∧ s.HznMeters 0 t ∧ s.OnlyHPort p t ∧ s.HznSilent t ∧ s.OnlyFields (eventFields) t ∧
      s.Only [.regs, .pass, .meter, .hzn] t) ∧
  (∀ (p : HPort) (f : HFrame) (a b c : Nat × Nat) (s : State), s.hznState p ≠ hznACTIVE →
    Completes (.timeRsp p f a b c) s fun t =>
      s.Only [] t)

/-- JOIN with no admitted member makes this package JOINED, and with some sends them JOIN_REQ; it is rejected unless the
package is ALONE (spec/10 R255, R257). A member that admits the joiner answers JOIN_ACK and counts it ACTIVE; any
other answers JOIN_NAK with its cause: revision, island, index or member in use, or not admitted (R250, R257). The
last JOIN_ACK completes the join, JOIN_NAK and the timeout abandon it with their results, telling whoever had
acknowledged, and an ACK that comes too late is answered JOIN_ABORT (R257). ADMIT and FREE act on the member states
that accept them and are rejected in others (R255). An island message of an illegal code is discarded with a record
(R256); one that does not apply is taken without effect. What the abandoned join leaves of the members is the model's
(notes/assumptions/30.md). -/
def Obligations.IslandJoins : Prop :=
  (∀ (s : State), s.isl = islALONE → (List.range 32).all (fun i => i == s.selfIx || s.memState i != memADMITTED) = true →
    Completes (.islandJoin) s fun t =>
      t.isl = islJOINED ∧ t.get R.ROUTE_ISLAND_STATUS_LAST_RESULT = 1 ∧
      t.get R.PKG_NODE_ISLAND_MEMBER = 1 ∧ t.get R.PKG_NODE_ISLAND_INDEX = s.selfIx % 32 ∧ t.memState s.selfIx = memSELF ∧
      s.OnlyFields [R.ROUTE_ISLAND_STATUS_STATE, R.ROUTE_ISLAND_STATUS_LAST_RESULT, R.PKG_NODE_ISLAND_MEMBER,
        R.PKG_NODE_ISLAND_INDEX, R.ROUTE_MEMBER_STATE s.selfIx] t ∧
      s.Only [.regs] t) ∧
  (∀ (i : Fin 32) (s : State), s.isl = islALONE →
    s.membersWhere (fun j => j != s.selfIx && s.memState j == memADMITTED) = [i.val] → Completes (.islandJoin) s fun t =>
      t.isl = islJOINING ∧
      t.hzn = { s.hzn with
        joinWait := 1 <<< i.val, joinAck := 0, out := s.hzn.out ++ [s.islMsg 1 (s.memPkg i) s.selfIx 0] } ∧
      s.OnlyFields [R.ROUTE_ISLAND_STATUS_STATE] t ∧ s.Only [.regs, .hzn] t) ∧
  (∀ (i j : Fin 32) (s : State), s.isl = islALONE →
    s.membersWhere (fun j => j != s.selfIx && s.memState j == memADMITTED) = [i.val, j.val] →
    Completes (.islandJoin) s fun t =>
      t.isl = islJOINING ∧
      t.hzn = { s.hzn with
        joinWait := 1 <<< i.val ||| 1 <<< j.val, joinAck := 0, out := s.hzn.out ++ [s.islMsg 1 (s.memPkg i) s.selfIx
          0, s.islMsg 1 (s.memPkg j) s.selfIx 0] } ∧
      s.OnlyFields [R.ROUTE_ISLAND_STATUS_STATE] t ∧ s.Only [.regs, .hzn] t) ∧
  (∀ (s : State), s.isl ≠ islALONE → Completes (.islandJoin) s fun t =>
      t.get R.ROUTE_ISLAND_STATUS_CMD_REJECTED = 1 ∧ s.OnlyFields [R.ROUTE_ISLAND_STATUS_CMD_REJECTED] t ∧ s.Only [.regs] t) ∧
  (∀ (m : WMsg) (s : State), m.dstPkg = s.pkgId ∧ m.vc = vcPOST ∧ m.wopc = 2 → (m.icode = 0 ∨ 7 < m.icode) →
    Completes (.joinReq m) s fun t =>
      t.hzn = s.Takes m [] ∧
      s.Records (bankHzn ((s.wPort m).getD 0)) ⟨true, errUED, false, 0, recInfo 0 0 0 m.srcPkg, 0, s.pwr.now⟩ t ∧
      s.OnlyFields (reportFields) t ∧ s.Only [.regs, .free, .core, .pass, .ras, .tvx, .hzn] t) ∧
  (∀ (m : WMsg) (s : State), (m.dstPkg ≠ s.pkgId ∨ m.vc ≠ vcPOST ∨ m.wopc ≠ 2 ∨ (1 ≤ m.icode ∧ m.icode ≤ 7 ∧ m.icode ≠ 1)) →
    Completes (.joinReq m) s fun t =>
      s.Only [] t) ∧
  (∀ (m : WMsg) (s : State), m.dstPkg = s.pkgId ∧ m.vc = vcPOST ∧ m.wopc = 2 → (m.icode = 0 ∨ 7 < m.icode) →
    Completes (.joinAck m) s fun t =>
      t.hzn = s.Takes m [] ∧
      s.Records (bankHzn ((s.wPort m).getD 0)) ⟨true, errUED, false, 0, recInfo 0 0 0 m.srcPkg, 0, s.pwr.now⟩ t ∧
      s.OnlyFields (reportFields) t ∧ s.Only [.regs, .free, .core, .pass, .ras, .tvx, .hzn] t) ∧
  (∀ (m : WMsg) (s : State), (m.dstPkg ≠ s.pkgId ∨ m.vc ≠ vcPOST ∨ m.wopc ≠ 2 ∨ (1 ≤ m.icode ∧ m.icode ≤ 7 ∧ m.icode ≠ 2)) →
    Completes (.joinAck m) s fun t =>
      s.Only [] t) ∧
  (∀ (m : WMsg) (s : State), m.dstPkg = s.pkgId ∧ m.vc = vcPOST ∧ m.wopc = 2 → (m.icode = 0 ∨ 7 < m.icode) →
    Completes (.joinNak m) s fun t =>
      t.hzn = s.Takes m [] ∧
      s.Records (bankHzn ((s.wPort m).getD 0)) ⟨true, errUED, false, 0, recInfo 0 0 0 m.srcPkg, 0, s.pwr.now⟩ t ∧
      s.OnlyFields (reportFields) t ∧ s.Only [.regs, .free, .core, .pass, .ras, .tvx, .hzn] t) ∧
  (∀ (m : WMsg) (s : State), (m.dstPkg ≠ s.pkgId ∨ m.vc ≠ vcPOST ∨ m.wopc ≠ 2 ∨ (1 ≤ m.icode ∧ m.icode ≤ 7 ∧ m.icode ≠ 3)) →
    Completes (.joinNak m) s fun t =>
      s.Only [] t) ∧
  (∀ (m : WMsg) (s : State), m.dstPkg = s.pkgId ∧ m.vc = vcPOST ∧ m.wopc = 2 → (m.icode = 0 ∨ 7 < m.icode) →
    Completes (.joinAbort m) s fun t =>
      t.hzn = s.Takes m [] ∧
      s.Records (bankHzn ((s.wPort m).getD 0)) ⟨true, errUED, false, 0, recInfo 0 0 0 m.srcPkg, 0, s.pwr.now⟩ t ∧
      s.OnlyFields (reportFields) t ∧ s.Only [.regs, .free, .core, .pass, .ras, .tvx, .hzn] t) ∧
  (∀ (m : WMsg) (s : State), (m.dstPkg ≠ s.pkgId ∨ m.vc ≠ vcPOST ∨ m.wopc ≠ 2 ∨ (1 ≤ m.icode ∧ m.icode ≤ 7 ∧ m.icode ≠ 7)) →
    Completes (.joinAbort m) s fun t =>
      s.Only [] t) ∧
  (∀ (m : WMsg) (i : Fin 32) (s : State), s.IslandMsg m icJOIN_REQ → s.isl = islJOINED → s.wRev m = 3 →
    m.islandId = s.get R.ROUTE_ISLAND_CTL_ISLAND_ID → m.member = i ∧ s.memState i = memADMITTED ∧ s.memPkg i = m.srcPkg →
    s.memOf m.srcPkg [memACTIVE, memLEAVING] = none → Completes (.joinReq m) s fun t =>
      t.memState i = memACTIVE ∧ t.hzn = s.Takes m [s.islMsg 2 m.srcPkg s.selfIx 0] ∧ s.OtherMembers i t ∧
      s.OnlyFields [R.ROUTE_MEMBER_STATE i] t ∧ s.Only [.regs, .hzn] t) ∧
  (∀ (m : WMsg) (s : State), s.IslandMsg m icJOIN_REQ → s.wRev m ≠ 3 → Completes (.joinReq m) s fun t =>
      t.hzn = s.Takes m [s.islMsg 3 m.srcPkg s.selfIx 3] ∧ s.Only [.hzn] t) ∧
  (∀ (m : WMsg) (s : State), s.IslandMsg m icJOIN_REQ → s.wRev m = 3 → m.islandId ≠ s.get R.ROUTE_ISLAND_CTL_ISLAND_ID →
    Completes (.joinReq m) s fun t =>
      t.hzn = s.Takes m [s.islMsg 3 m.srcPkg s.selfIx 1] ∧ s.Only [.hzn] t) ∧
  (∀ (m : WMsg) (s : State), s.IslandMsg m icJOIN_REQ → s.wRev m = 3 → m.islandId = s.get R.ROUTE_ISLAND_CTL_ISLAND_ID →
    s.memOf m.srcPkg [memACTIVE, memLEAVING] ≠ none → Completes (.joinReq m) s fun t =>
      t.hzn = s.Takes m [s.islMsg 3 m.srcPkg s.selfIx 4] ∧ s.Only [.hzn] t) ∧
  (∀ (m : WMsg) (s : State), s.IslandMsg m icJOIN_REQ → s.wRev m = 3 → m.islandId = s.get R.ROUTE_ISLAND_CTL_ISLAND_ID →
    s.memOf m.srcPkg [memACTIVE, memLEAVING] = none →
    ((s.memState (m.member % 32) = memACTIVE ∨ s.memState (m.member % 32) = memLEAVING ∨ s.memState (m.member % 32) = memSELF)) →
    Completes (.joinReq m) s fun t =>
      t.hzn = s.Takes m [s.islMsg 3 m.srcPkg s.selfIx 2] ∧ s.Only [.hzn] t) ∧
  (∀ (m : WMsg) (s : State), s.IslandMsg m icJOIN_REQ → s.wRev m = 3 → m.islandId = s.get R.ROUTE_ISLAND_CTL_ISLAND_ID →
    s.memOf m.srcPkg [memACTIVE, memLEAVING] = none →
    (s.memState (m.member % 32) = memFREE ∨ s.memState (m.member % 32) = memLOST ∨ (s.memState (m.member % 32) = memADMITTED ∧ (s.isl ≠ islJOINED ∨ s.memPkg (m.member % 32) ≠ m.srcPkg))) →
    Completes (.joinReq m) s fun t =>
      t.hzn = s.Takes m [s.islMsg 3 m.srcPkg s.selfIx 0] ∧ s.Only [.hzn] t) ∧
  (∀ (m : WMsg) (i : Fin 32) (s : State), s.IslandMsg m icJOIN_ACK → s.isl = islJOINING →
    s.memOf m.srcPkg [memADMITTED] = some i.val → s.hzn.joinWait = 1 <<< i.val → s.selfIx ≠ i →
    Completes (.joinAck m) s fun t =>
      t.isl = islJOINED ∧ t.get R.ROUTE_ISLAND_STATUS_LAST_RESULT = 1 ∧
      t.get R.PKG_NODE_ISLAND_MEMBER = 1 ∧ t.get R.PKG_NODE_ISLAND_INDEX = s.selfIx % 32 ∧ t.memState s.selfIx = memSELF ∧
      t.memState i = memACTIVE ∧ t.hzn = { s.Takes m [] with joinWait := 0, joinAck := s.hzn.joinAck ||| 1 <<< i.val } ∧
      s.OnlyFields (R.ROUTE_MEMBER_STATE i :: [R.ROUTE_ISLAND_STATUS_STATE, R.ROUTE_ISLAND_STATUS_LAST_RESULT,
        R.PKG_NODE_ISLAND_MEMBER, R.PKG_NODE_ISLAND_INDEX, R.ROUTE_MEMBER_STATE s.selfIx]) t ∧
      s.Only [.regs, .hzn] t) ∧
  (∀ (m : WMsg) (i : Fin 32) (s : State), s.IslandMsg m icJOIN_ACK → s.isl = islJOINING →
    s.memOf m.srcPkg [memADMITTED] = some i.val → s.hzn.joinWait.testBit i = true ∧ without s.hzn.joinWait i ≠ 0 →
    Completes (.joinAck m) s fun t =>
      t.memState i = memACTIVE ∧
      t.hzn = { s.Takes m [] with joinWait := without s.hzn.joinWait i, joinAck := s.hzn.joinAck ||| 1 <<< i.val } ∧
      s.OtherMembers i t ∧ s.OnlyFields [R.ROUTE_MEMBER_STATE i] t ∧ s.Only [.regs, .hzn] t) ∧
  (∀ (m : WMsg) (i : Fin 32) (s : State), s.IslandMsg m icJOIN_ACK → s.isl = islALONE →
    s.memOf m.srcPkg [memADMITTED] = some i.val → Completes (.joinAck m) s fun t =>
      t.hzn = s.Takes m [s.islMsg 7 m.srcPkg s.selfIx 0] ∧ s.Only [.hzn] t) ∧
  (∀ (m : WMsg) (s : State), s.IslandMsg m icJOIN_ACK → s.memOf m.srcPkg [memADMITTED] = none →
    Completes (.joinAck m) s fun t =>
      t.hzn = s.Takes m [] ∧ s.Only [.hzn] t) ∧
  (∀ (m : WMsg) (i : Fin 32) (s : State), s.IslandMsg m icJOIN_NAK → s.isl = islJOINING →
    s.memOf m.srcPkg [memADMITTED] = some i.val → s.hzn.joinWait.testBit i = true ∧ s.hzn.joinAck = 0 → m.nakCause < 8 →
    Completes (.joinNak m) s fun t =>
      t.get R.ROUTE_ISLAND_STATUS_LAST_RESULT = 2 ∧
      t.get R.ROUTE_ISLAND_STATUS_NAK_MEMBER = i ∧ t.get R.ROUTE_ISLAND_STATUS_NAK_CAUSE = m.nakCause ∧
      t.hzn = { s.Takes m [] with joinWait := 0, joinAck := 0, leaveWait := 0, leaveLost := false } ∧ s.IsAlone [] t ∧
      s.OnlyFields (islandFields) t ∧ s.Only [.regs, .hzn] t) ∧
  (∀ (m : WMsg) (i : Fin 32) (j : Fin 32) (s : State), s.IslandMsg m icJOIN_NAK → s.isl = islJOINING →
    s.memOf m.srcPkg [memADMITTED] = some i.val → s.hzn.joinWait.testBit i = true ∧ s.hzn.joinAck = 1 <<< j.val →
    m.nakCause < 8 → Completes (.joinNak m) s fun t =>
      t.get R.ROUTE_ISLAND_STATUS_LAST_RESULT = 2 ∧ t.get R.ROUTE_ISLAND_STATUS_NAK_MEMBER = i ∧
      t.hzn = { s.Takes m [s.islMsg 7 (s.memPkg j) s.selfIx 0] with joinWait := 0, joinAck := 0, leaveWait := 0, leaveLost := false } ∧
      t.memState j = memADMITTED ∧ s.IsAlone [j.val] t ∧ s.OnlyFields (islandFields) t ∧ s.Only [.regs, .hzn] t) ∧
  (∀ (m : WMsg) (s : State), s.IslandMsg m icJOIN_NAK → (s.isl ≠ islJOINING ∨ s.memOf m.srcPkg [memADMITTED] = none) →
    Completes (.joinNak m) s fun t =>
      t.hzn = s.Takes m [] ∧ s.Only [.hzn] t) ∧
  (∀ (s : State), s.isl = islJOINING → s.hzn.joinAck = 0 → Completes (.joinTimeout) s fun t =>
      t.get R.ROUTE_ISLAND_STATUS_LAST_RESULT = 3 ∧
      t.hzn = { s.hzn with joinWait := 0, joinAck := 0, leaveWait := 0, leaveLost := false } ∧ s.IsAlone [] t ∧
      s.OnlyFields (islandFields) t ∧ s.Only [.regs, .hzn] t) ∧
  (∀ (j : Fin 32) (s : State), s.isl = islJOINING → s.hzn.joinAck = 1 <<< j.val → Completes (.joinTimeout) s fun t =>
      t.get R.ROUTE_ISLAND_STATUS_LAST_RESULT = 3 ∧ t.memState j = memADMITTED ∧
      t.hzn = { s.hzn with
        joinWait := 0, joinAck := 0, leaveWait := 0, leaveLost := false, out := s.hzn.out ++ [s.islMsg 7 (s.memPkg j)
          s.selfIx 0] } ∧
      s.IsAlone [j.val] t ∧ s.OnlyFields (islandFields) t ∧ s.Only [.regs, .hzn] t) ∧
  (∀ (s : State), s.isl ≠ islJOINING → Completes (.joinTimeout) s fun t =>
      s.Only [] t) ∧
  (∀ (m : WMsg) (i : Fin 32) (s : State), s.IslandMsg m icJOIN_ABORT → s.memOf m.srcPkg [memACTIVE] = some i.val →
    Completes (.joinAbort m) s fun t =>
      t.memState i = memADMITTED ∧ t.hzn = s.Takes m [] ∧ s.OtherMembers i t ∧ s.OnlyFields [R.ROUTE_MEMBER_STATE i] t ∧
      s.Only [.regs, .hzn] t) ∧
  (∀ (m : WMsg) (s : State), s.IslandMsg m icJOIN_ABORT → s.memOf m.srcPkg [memACTIVE] = none →
    Completes (.joinAbort m) s fun t =>
      t.hzn = s.Takes m [] ∧ s.Only [.hzn] t) ∧
  (∀ (i : Fin 32) (k : Fin 4096) (s : State), (s.memState i = memFREE ∨ s.memState i = memLOST) →
    Completes (.memberAdmit i k) s fun t =>
      t.memState i = memADMITTED ∧ t.memPkg i = k ∧ s.OnlyFields [R.ROUTE_MEMBER_STATE i, R.ROUTE_MEMBER_PACKAGE_ID i] t ∧
      s.Only [.regs] t) ∧
  (∀ (i : Fin 32) (k : Fin 4096) (s : State), s.memState i ≠ memFREE ∧ s.memState i ≠ memLOST →
    Completes (.memberAdmit i k) s fun t =>
      t.get (R.ROUTE_MEMBER_CMD_REJECTED i) = 1 ∧ s.OnlyFields [R.ROUTE_MEMBER_CMD_REJECTED i] t ∧ s.Only [.regs] t) ∧
  (∀ (i : Fin 32) (s : State), (s.memState i = memADMITTED ∨ s.memState i = memLOST) → Completes (.memberFree i) s fun t =>
      t.memState i = memFREE ∧ s.OnlyFields [R.ROUTE_MEMBER_STATE i] t ∧ s.Only [.regs] t) ∧
  (∀ (i : Fin 32) (s : State), s.memState i ≠ memADMITTED ∧ s.memState i ≠ memLOST → Completes (.memberFree i) s fun t =>
      t.get (R.ROUTE_MEMBER_CMD_REJECTED i) = 1 ∧ s.OnlyFields [R.ROUTE_MEMBER_CMD_REJECTED i] t ∧ s.Only [.regs] t)

/-- LEAVE makes a JOINED package LEAVING, its ACTIVE members are told and its lines are recalled; elsewhere it is rejected
(spec/10 R257). A member that leaves is LEAVING, and FREE once this package's duties for it are done; at a package
that joins, its notice refuses the join (R257, R262). The last LEAVE_ACK ends the leave, with its result. A member
that is declared lost, by notice, by the hold of its route, by a timeout or for want of LEAVE_ACK, is LOST and
counted, its lines are swept and every other ACTIVE member is told; a package that is itself named declares all lost
and is ALONE (R257, R258, R260). The alternate ports are taken and given back when ALT_HOLD has passed (R251). Illegal
island codes are recorded (R256); what does not apply has no effect. -/
def Obligations.IslandLeavesAndRoutes : Prop :=
  (∀ (s : State), s.isl = islJOINED → s.membersWhere (fun i => s.memState i == memACTIVE) = [] → s.home.sweeps = [] →
    Completes (.islandLeave) s fun t =>
      t.isl = islLEAVING ∧ t.hzn = { s.hzn with leaveWait := 0, leaveLost := false } ∧
      t.home = { s.home with sweeps := t.home.sweeps } ∧ t.home.sweeps.map (fun w => w.ix) = List.replicate 16 32 ∧
      s.OnlyFields [R.ROUTE_ISLAND_STATUS_STATE] t ∧ s.Only [.regs, .home, .hzn] t) ∧
  (∀ (i : Fin 32) (s : State), s.isl = islJOINED → s.membersWhere (fun i => s.memState i == memACTIVE) = [i.val] →
    s.home.sweeps = [] → Completes (.islandLeave) s fun t =>
      t.isl = islLEAVING ∧
      t.hzn = { s.hzn with
        leaveWait := 1 <<< i.val, leaveLost := false, out := s.hzn.out ++ [s.islMsg 4 (s.memPkg i) s.selfIx 0] } ∧
      t.home = { s.home with sweeps := t.home.sweeps } ∧ t.home.sweeps.map (fun w => w.ix) = List.replicate 16 32 ∧
      s.OnlyFields [R.ROUTE_ISLAND_STATUS_STATE] t ∧ s.Only [.regs, .home, .hzn] t) ∧
  (∀ (s : State), s.isl ≠ islJOINED → Completes (.islandLeave) s fun t =>
      t.get R.ROUTE_ISLAND_STATUS_CMD_REJECTED = 1 ∧ s.OnlyFields [R.ROUTE_ISLAND_STATUS_CMD_REJECTED] t ∧ s.Only [.regs] t) ∧
  (∀ (m : WMsg) (s : State), m.dstPkg = s.pkgId ∧ m.vc = vcPOST ∧ m.wopc = 2 → (m.icode = 0 ∨ 7 < m.icode) →
    Completes (.leaveNotice m) s fun t =>
      t.hzn = s.Takes m [] ∧
      s.Records (bankHzn ((s.wPort m).getD 0)) ⟨true, errUED, false, 0, recInfo 0 0 0 m.srcPkg, 0, s.pwr.now⟩ t ∧
      s.OnlyFields (reportFields) t ∧ s.Only [.regs, .free, .core, .pass, .ras, .tvx, .hzn] t) ∧
  (∀ (m : WMsg) (s : State), (m.dstPkg ≠ s.pkgId ∨ m.vc ≠ vcPOST ∨ m.wopc ≠ 2 ∨ (1 ≤ m.icode ∧ m.icode ≤ 7 ∧ m.icode ≠ 4)) →
    Completes (.leaveNotice m) s fun t =>
      s.Only [] t) ∧
  (∀ (m : WMsg) (s : State), m.dstPkg = s.pkgId ∧ m.vc = vcPOST ∧ m.wopc = 2 → (m.icode = 0 ∨ 7 < m.icode) →
    Completes (.leaveAck m) s fun t =>
      t.hzn = s.Takes m [] ∧
      s.Records (bankHzn ((s.wPort m).getD 0)) ⟨true, errUED, false, 0, recInfo 0 0 0 m.srcPkg, 0, s.pwr.now⟩ t ∧
      s.OnlyFields (reportFields) t ∧ s.Only [.regs, .free, .core, .pass, .ras, .tvx, .hzn] t) ∧
  (∀ (m : WMsg) (s : State), (m.dstPkg ≠ s.pkgId ∨ m.vc ≠ vcPOST ∨ m.wopc ≠ 2 ∨ (1 ≤ m.icode ∧ m.icode ≤ 7 ∧ m.icode ≠ 5)) →
    Completes (.leaveAck m) s fun t =>
      s.Only [] t) ∧
  (∀ (m : WMsg) (s : State), m.dstPkg = s.pkgId ∧ m.vc = vcPOST ∧ m.wopc = 2 → (m.icode = 0 ∨ 7 < m.icode) →
    Completes (.lostNotice m) s fun t =>
      t.hzn = s.Takes m [] ∧
      s.Records (bankHzn ((s.wPort m).getD 0)) ⟨true, errUED, false, 0, recInfo 0 0 0 m.srcPkg, 0, s.pwr.now⟩ t ∧
      s.OnlyFields (reportFields) t ∧ s.Only [.regs, .free, .core, .pass, .ras, .tvx, .hzn] t) ∧
  (∀ (m : WMsg) (s : State), (m.dstPkg ≠ s.pkgId ∨ m.vc ≠ vcPOST ∨ m.wopc ≠ 2 ∨ (1 ≤ m.icode ∧ m.icode ≤ 7 ∧ m.icode ≠ 6)) →
    Completes (.lostNotice m) s fun t =>
      s.Only [] t) ∧
  (∀ (m : WMsg) (i : Fin 32) (s : State), s.IslandMsg m icLEAVE_NOTICE → s.isl ≠ islJOINING →
    s.memOf m.srcPkg [memACTIVE] = some i.val → Completes (.leaveNotice m) s fun t =>
      t.memState i = memLEAVING ∧ t.hzn = s.Takes m [] ∧ s.OtherMembers i t ∧
      t.home = { s.home with sweeps := t.home.sweeps } ∧ (s.home.sweeps = [] → t.home.sweeps.map (fun w => w.ix) =
        List.replicate 16 i.val) ∧
      s.OnlyFields [R.ROUTE_MEMBER_STATE i] t ∧ s.Only [.regs, .home, .hzn] t) ∧
  (∀ (m : WMsg) (i : Fin 32) (s : State), s.IslandMsg m icLEAVE_NOTICE → s.isl = islJOINING →
    s.memOf m.srcPkg [memADMITTED, memACTIVE] = some i.val → s.hzn.joinAck = 0 → Completes (.leaveNotice m) s fun t =>
      t.get R.ROUTE_ISLAND_STATUS_LAST_RESULT = 2 ∧ t.get R.ROUTE_ISLAND_STATUS_NAK_MEMBER = i ∧ t.get
        R.ROUTE_ISLAND_STATUS_NAK_CAUSE = 0 ∧
      t.hzn = { s.Takes m [] with joinWait := 0, joinAck := 0, leaveWait := 0, leaveLost := false } ∧ s.IsAlone [] t ∧
      s.OnlyFields (islandFields) t ∧ s.Only [.regs, .hzn] t) ∧
  (∀ (m : WMsg) (s : State), s.IslandMsg m icLEAVE_NOTICE → s.isl ≠ islJOINING → s.memOf m.srcPkg [memACTIVE] = none →
    Completes (.leaveNotice m) s fun t =>
      t.hzn = s.Takes m [] ∧ s.Only [.hzn] t) ∧
  (∀ (i : Fin 32) (s : State), s.memState i = memLEAVING → s.holdsOf i = false → Completes (.leaveRecallComplete i) s fun t =>
      t.memState i = memFREE ∧ t.hzn = { s.hzn with out := s.hzn.out ++ [s.islMsg 5 (s.memPkg i) s.selfIx 0] } ∧
      t.home = { s.home with sweeps := t.home.sweeps } ∧ (s.home.sweeps = [] → t.home.sweeps.map (fun w => w.ix) =
        List.replicate 16 i.val) ∧
      s.OtherMembers i t ∧ s.OnlyFields [R.ROUTE_MEMBER_STATE i] t ∧ s.Only [.regs, .home, .hzn] t) ∧
  (∀ (i : Fin 32) (s : State), (s.memState i ≠ memLEAVING ∨ s.holdsOf i = true) →
    Completes (.leaveRecallComplete i) s fun t =>
      s.Only [] t) ∧
  (∀ (m : WMsg) (i : Fin 32) (s : State), s.IslandMsg m icLEAVE_ACK → s.memOf m.srcPkg [memACTIVE, memLEAVING] = some i.val →
    (without s.hzn.leaveWait i ≠ 0 ∨ s.isl ≠ islLEAVING) → Completes (.leaveAck m) s fun t =>
      t.hzn = { s.Takes m [] with leaveWait := without s.hzn.leaveWait i } ∧ s.Only [.hzn] t) ∧
  (∀ (m : WMsg) (i : Fin 32) (s : State), s.IslandMsg m icLEAVE_ACK → s.isl = islLEAVING →
    s.memOf m.srcPkg [memACTIVE, memLEAVING] = some i.val → s.hzn.leaveWait = 1 <<< i.val →
    s.home.sweeps = [] ∧ s.home.pxWb = [] ∧ s.home.rpt = [] → Completes (.leaveAck m) s fun t =>
      t.get R.ROUTE_ISLAND_STATUS_LAST_RESULT = (if s.hzn.leaveLost = true then 5 else 4) ∧
      t.hzn = { s.Takes m [] with joinWait := 0, joinAck := 0, leaveWait := 0, leaveLost := false } ∧ s.IsAlone [] t ∧
      s.OnlyFields (islandFields) t ∧ s.Only [.regs, .home, .hzn] t) ∧
  (∀ (m : WMsg) (s : State), s.IslandMsg m icLEAVE_ACK → s.memOf m.srcPkg [memACTIVE, memLEAVING] = none →
    Completes (.leaveAck m) s fun t =>
      t.hzn = s.Takes m [] ∧ s.Only [.hzn] t) ∧
  (∀ (i : Fin 32) (s : State), s.isl = islLEAVING → s.hzn.leaveWait = 1 <<< i.val → s.memState i = memACTIVE →
    s.HomesEmpty ∧ s.home.rpt = [] ∧ s.home.sweeps = [] → Completes (.leaveAckTimeout) s fun t =>
      t.memState i = memLOST ∧ t.get R.ROUTE_STATS_LOSSES = satAdd (R.ROUTE_STATS_LOSSES).w (s.get R.ROUTE_STATS_LOSSES) 1 ∧
      t.get R.ROUTE_ISLAND_STATUS_LAST_RESULT = 5 ∧ s.IsAlone [i.val] t ∧
      t.hzn.out = s.hzn.out ++ (s.membersWhere (fun j => s.memState j == memACTIVE && j != i)).map (fun j => s.islMsg 6
        (s.memPkg j) i 0) ∧
      s.OnlyFields (islandFields ++ (FRef.all R.rROUTE_STATS :: reportFields)) t ∧ s.Only [.regs, .home, .hzn, .tvx] t) ∧
  (∀ (s : State), s.isl = islLEAVING → s.hzn.leaveWait = 0 → Completes (.leaveAckTimeout) s fun t =>
      s.Only [] t) ∧
  (∀ (s : State), s.isl ≠ islLEAVING → Completes (.leaveAckTimeout) s fun t =>
      s.Only [] t) ∧
  (∀ (m : WMsg) (i : Fin 32) (s : State), s.IslandMsg m icLOST_NOTICE → s.isl = islJOINED →
    (s.memOf m.srcPkg [memACTIVE, memLEAVING]).isSome = true → m.member = i ∧ i.val ≠ s.selfIx →
    (s.memState i = memACTIVE ∨ s.memState i = memLEAVING) → s.HomesEmpty → Completes (.lostNotice m) s fun t =>
      s.Loses i t ∧ s.OtherMembers i t ∧
      s.OnlyFields (R.ROUTE_MEMBER_STATE i :: FRef.all R.rROUTE_STATS :: reportFields) t ∧
      s.Only [.regs, .home, .hzn, .tvx] t) ∧
  (∀ (m : WMsg) (s : State), s.IslandMsg m icLOST_NOTICE → s.isl ≠ islJOINING →
    (s.memOf m.srcPkg [memACTIVE, memLEAVING] = none ∨ (m.member < 32 ∧ m.member ≠ s.selfIx ∧ s.memState m.member ≠ memACTIVE ∧ s.memState m.member ≠ memLEAVING)) →
    Completes (.lostNotice m) s fun t =>
      t.hzn = s.Takes m [] ∧ s.Only [.hzn] t) ∧
  (∀ (m : WMsg) (i : Fin 32) (s : State), s.IslandMsg m icLOST_NOTICE → s.isl = islJOINED →
    s.memOf m.srcPkg [memACTIVE, memLEAVING] = some i.val →
    s.membersWhere (fun j => s.memState j == memACTIVE || s.memState j == memLEAVING) = [i.val] → m.member = s.selfIx →
    s.HomesEmpty → Completes (.lostNotice m) s fun t =>
      t.memState i = memLOST ∧ t.get R.ROUTE_STATS_LOSSES = satAdd (R.ROUTE_STATS_LOSSES).w (s.get R.ROUTE_STATS_LOSSES) 1 ∧
      t.hzn = { s.Takes m [] with joinWait := 0, joinAck := 0, leaveWait := 0, leaveLost := false } ∧ s.IsAlone [i.val] t ∧
      s.OnlyFields (islandFields ++ (FRef.all R.rROUTE_STATS :: reportFields)) t ∧ s.Only [.regs, .home, .hzn, .tvx] t) ∧
  (∀ (m : WMsg) (s : State), s.IslandMsg m icLOST_NOTICE → s.isl = islJOINING →
    (s.memOf m.srcPkg [memADMITTED, memACTIVE]).isSome = true → s.hzn.joinAck = 0 → Completes (.lostNotice m) s fun t =>
      t.get R.ROUTE_ISLAND_STATUS_LAST_RESULT = 2 ∧
      t.hzn = { s.Takes m [] with joinWait := 0, joinAck := 0, leaveWait := 0, leaveLost := false } ∧ s.IsAlone [] t ∧
      s.OnlyFields (islandFields) t ∧ s.Only [.regs, .hzn] t) ∧
  (∀ (i : Fin 32) (s : State), s.isl = islJOINED → (s.memState i = memACTIVE ∨ s.memState i = memLEAVING) →
    (List.range 8).all (fun p => !(s.get (R.ROUTE_ENTRY_PORT_MASK (s.memPkg i)) ||| s.get (R.ROUTE_ENTRY_ALT_MASK (s.memPkg i))).testBit p || s.hznState p != hznACTIVE) = true →
    s.HomesEmpty → Completes (.lossHoldExpiry i) s fun t =>
      s.Loses i t ∧ s.OtherMembers i t ∧
      s.OnlyFields (R.ROUTE_MEMBER_STATE i :: FRef.all R.rROUTE_STATS :: reportFields) t ∧
      s.Only [.regs, .home, .hzn, .tvx] t) ∧
  (∀ (i : Fin 32) (s : State),
    ((s.memState i ≠ memACTIVE ∧ s.memState i ≠ memLEAVING) ∨ (List.range 8).any (fun p => (s.get (R.ROUTE_ENTRY_PORT_MASK (s.memPkg i)) ||| s.get (R.ROUTE_ENTRY_ALT_MASK (s.memPkg i))).testBit p && s.hznState p == hznACTIVE) = true) →
    Completes (.lossHoldExpiry i) s fun t =>
      s.Only [] t) ∧
  (∀ (n : Ix16) (h : Fin 512) (x : HTxn) (i : Fin 32) (s : State),
    s.lock n h = some x ∧ s.home.locks = [((n : Nat) * 512 + h, some x)] →
    x.proxy = false ∧ x.work = .request ∧ x.phase = .ready ∧ x.req.srcPkg = s.memPkg i → s.waitsOn x = some i.val →
    s.isl = islJOINED ∧ s.memState i = memACTIVE → s.home.toks = [] ∧ s.home.wbHeld = [] ∧ s.home.pxHeld = [] →
    Completes (.homeWaitTimeout n h) s fun t =>
      t.memState i = memLOST ∧ t.lock n h = none ∧
      t.get R.ROUTE_STATS_LOSSES = satAdd (R.ROUTE_STATS_LOSSES).w (s.get R.ROUTE_STATS_LOSSES) 1 ∧ s.OtherMembers i t ∧
      s.Only [.regs, .mem, .marked, .net, .free, .core, .home, .pass, .mesa, .meter, .qos, .hzn, .ras, .tvx] t) ∧
  (∀ (n : Ix16) (h : Fin 512) (s : State), (s.lock n h = none ∨ (s.lock n h).map s.waitsOn = some none) →
    Completes (.homeWaitTimeout n h) s fun t =>
      s.Only [] t) ∧
  (∀ (k : Fin 4096) (s : State), s.onAlt k = false → s.activePorts (s.get (R.ROUTE_ENTRY_PORT_MASK k)) = [] →
    s.get (R.ROUTE_ENTRY_VALID k) = 1 → Completes (.altHoldExpiry k) s fun t =>
      t.onAlt k = true ∧ t.get (R.ROUTE_ENTRY_ON_ALT k) = 1 ∧ (∀ (j : Nat), j ≠ k.val → t.onAlt j = s.onAlt j) ∧
      t.hzn = { s.hzn with hold := t.hzn.hold } ∧ s.OnlyFields [R.ROUTE_ENTRY_ON_ALT k] t ∧ s.Only [.regs, .hzn] t) ∧
  (∀ (k : Fin 4096) (s : State), s.onAlt k = true → s.activePorts (s.get (R.ROUTE_ENTRY_PORT_MASK k)) ≠ [] →
    Completes (.altHoldExpiry k) s fun t =>
      t.onAlt k = false ∧ t.get (R.ROUTE_ENTRY_ON_ALT k) = 0 ∧ (∀ (j : Nat), j ≠ k.val → t.onAlt j = s.onAlt j) ∧
      t.hzn = { s.hzn with hold := t.hzn.hold } ∧ s.OnlyFields [R.ROUTE_ENTRY_ON_ALT k] t ∧ s.Only [.regs, .hzn] t) ∧
  (∀ (k : Fin 4096) (s : State),
    ((s.onAlt k = true ∧ s.activePorts (s.get (R.ROUTE_ENTRY_PORT_MASK k)) = []) ∨ (s.onAlt k = false ∧ (s.activePorts (s.get (R.ROUTE_ENTRY_PORT_MASK k)) ≠ [] ∨ s.get (R.ROUTE_ENTRY_VALID k) ≠ 1))) →
    Completes (.altHoldExpiry k) s fun t =>
      s.Only [] t)

/-- A request that cannot be carried is answered ERR with CAUSE 4, a window request with status 6, and anything else is
dropped, each counted (spec/10 R251); one that can, with a place, its credits and its admission, leaves in a frame of
its own with hop limit and class, metered to its MCID, in the bundle's order; while it waits nothing changes (R240,
R244, R251, R252). A revision 2 port carries no Osesteth message (R250); a message that waited too long is dropped
(R253). A proxy's request to a remote home that times out is answered ERR with CAUSE 4 and quarantined, and at the
final timeout the member is lost, or the slot free (R259, R260); a writeback that is not answered is sent again
(R259). A request of an I/O agent that times out fails and is quarantined, and its transaction is free at the final
timeout, one held for its line going out (R259). Frames of one message are the model's (notes/assumptions/29.md). -/
def Obligations.FabricTimeouts : Prop :=
  (∀ (m : Msg) (s : State), hmsgDst (.ose m 0 0 0) ≠ s.pkgId ∧ s.hznWaiting (.ose m 0 0 0) none = true →
    s.route m.dstPkg = .unroutable → m.vc = vcREQ → Completes (.messageForward (.ose m 0 0 0) none) s fun t =>
      t.net = s.net.erase m ++ [{ vc := vcRSP, opc := opERR, srcPkg := m.dstPkg, srcAgent := m.dstAgent, dstPkg := m.srcPkg, dstAgent := m.srcAgent, txn := m.txn, addr := m.addr, cause := 4 }] ∧
      t.get R.ROUTE_STATS_UNROUTABLE = satAdd (R.ROUTE_STATS_UNROUTABLE).w (s.get R.ROUTE_STATS_UNROUTABLE) 1 ∧
      t.hzn = (s.take m).hzn ∧ t.pass = (s.take m).pass ∧ s.OnlyFields [R.ROUTE_STATS_UNROUTABLE] t ∧
      s.Only [.regs, .net, .pass, .hzn] t) ∧
  (∀ (m : Msg) (s : State), hmsgDst (.ose m 0 0 0) ≠ s.pkgId ∧ s.hznWaiting (.ose m 0 0 0) none = true →
    s.route m.dstPkg = .unroutable → m.vc ≠ vcREQ → Completes (.messageForward (.ose m 0 0 0) none) s fun t =>
      t.net = s.net.erase m ∧
      t.get R.ROUTE_STATS_UNROUTABLE = satAdd (R.ROUTE_STATS_UNROUTABLE).w (s.get R.ROUTE_STATS_UNROUTABLE) 1 ∧
      t.hzn = (s.take m).hzn ∧ t.pass = (s.take m).pass ∧ s.OnlyFields [R.ROUTE_STATS_UNROUTABLE] t ∧
      s.Only [.regs, .net, .pass, .hzn] t) ∧
  (∀ (m : WMsg) (s : State), m.dstPkg ≠ s.pkgId ∧ s.hznWaiting (.win m) none = true → s.route m.dstPkg = .unroutable →
    ((m.vc = vcPOST ∧ m.wopc ≠ 2) ∨ m.vc = vcNP) → m.srcPkg = s.pkgId → Completes (.messageForward (.win m) none) s fun t =>
      t.hzn = { s.hzn with out := s.hzn.out.erase m, win := s.hzn.win ++ [wCpl m 6] } ∧
      t.get R.ROUTE_STATS_UNROUTABLE = satAdd (R.ROUTE_STATS_UNROUTABLE).w (s.get R.ROUTE_STATS_UNROUTABLE) 1 ∧
      s.OnlyFields [R.ROUTE_STATS_UNROUTABLE] t ∧ s.Only [.regs, .hzn] t) ∧
  (∀ (m : WMsg) (s : State), m.dstPkg ≠ s.pkgId ∧ s.hznWaiting (.win m) none = true → s.route m.dstPkg = .unroutable →
    (m.vc ≠ vcNP ∧ (m.vc ≠ vcPOST ∨ m.wopc = 2)) → Completes (.messageForward (.win m) none) s fun t =>
      t.hzn = { s.hzn with out := s.hzn.out.erase m } ∧
      t.get R.ROUTE_STATS_UNROUTABLE = satAdd (R.ROUTE_STATS_UNROUTABLE).w (s.get R.ROUTE_STATS_UNROUTABLE) 1 ∧
      s.OnlyFields [R.ROUTE_STATS_UNROUTABLE] t ∧ s.Only [.regs, .hzn] t) ∧
  (∀ (x : HMsg) (q : Option HPort) (s : State),
    (hmsgDst x = s.pkgId ∨ s.hznWaiting x (q.map (·.val)) = false ∨ s.route (hmsgDst x) = .waits) →
    Completes (.messageForward x q) s fun t =>
      s.Only [] t) ∧
  (∀ (m : Msg) (l : List Nat) (p : Nat) (s : State),
    hmsgDst (.ose m 0 0 0) ≠ s.pkgId ∧ s.hznWaiting (.ose m 0 0 0) none = true →
    s.route (hmsgDst (.ose m 0 0 0)) = .ports l ∧ s.hznPick l = some p ∧ p < 8 → s.get (R.HZN_STATUS_REVISION p) ≠ 2 →
    (s.hPort p).fits [(s.hznStamp p true (.ose m 0 0 0))] = true ∧ s.hznAdmits p (s.hznStamp p true (.ose m 0 0 0)) true = true →
    Completes (.messageForward (.ose m 0 0 0) none) s fun t =>
      t.net = s.net.erase m ∧
      (t.hPort p) = { ((s.take m).hPort p).keep (s.hStrm (s.get (R.HZN_PARTNER_SERIAL_SERIAL p))).tx [(s.hznStamp p true (.ose m 0 0 0))] with owed := ((s.take m).hPort p).owed + 1 } ∧
      (s.hznStamp p true (.ose m 0 0 0)) = .ose m m.mcid (s.get R.ROUTE_TIMEOUT_HOP_LIMIT) (b2n (s.flag (R.HZN_CTL_DATELINE
        p))) ∧
      t.hStrm (s.get (R.HZN_PARTNER_SERIAL_SERIAL p)) = { (s.hStrm (s.get (R.HZN_PARTNER_SERIAL_SERIAL p))) with
        tx := ((s.hStrm (s.get (R.HZN_PARTNER_SERIAL_SERIAL p))).tx + 1) % 4096 } ∧
      t.meter = (s.hznTxMeter p [(s.hznStamp p true (.ose m 0 0 0))]).meter ∧
      (hznControlled (s.hznStamp p true (.ose m 0 0 0)) = false → t.qos = (s.hznTxMeter p [(s.hznStamp p true (.ose m 0 0
        0))]).qos) ∧
      s.OnlyFields (eventFields) t ∧ s.Only [.regs, .net, .meter, .qos, .pass, .hzn] t) ∧
  (∀ (m : WMsg) (l : List Nat) (p : Nat) (s : State), hmsgDst (.win m) ≠ s.pkgId ∧ s.hznWaiting (.win m) none = true →
    s.route (hmsgDst (.win m)) = .ports l ∧ s.hznPick l = some p ∧ p < 8 →
    (s.hPort p).fits [(s.hznStamp p true (.win m))] = true ∧ s.hznAdmits p (s.hznStamp p true (.win m)) true = true →
    Completes (.messageForward (.win m) none) s fun t =>
      t.hzn.out = s.hzn.out.erase m ∧
      (t.hPort p) = { (s.hPort p).keep (s.hStrm (s.get (R.HZN_PARTNER_SERIAL_SERIAL p))).tx [(s.hznStamp p true (.win m))] with owed := (s.hPort p).owed + 1 } ∧
      t.hStrm (s.get (R.HZN_PARTNER_SERIAL_SERIAL p)) = { (s.hStrm (s.get (R.HZN_PARTNER_SERIAL_SERIAL p))) with
        tx := ((s.hStrm (s.get (R.HZN_PARTNER_SERIAL_SERIAL p))).tx + 1) % 4096 } ∧
      t.meter = (s.hznTxMeter p [(s.hznStamp p true (.win m))]).meter ∧
      (hznControlled (s.hznStamp p true (.win m)) = false → t.qos = (s.hznTxMeter p [(s.hznStamp p true (.win m))]).qos) ∧
      s.OnlyFields (eventFields) t ∧ s.Only [.regs, .meter, .qos, .pass, .hzn] t) ∧
  (∀ (m : Msg) (l : List Nat) (p : Nat) (q : HPort) (fm h c : Nat) (s : State),
    hmsgDst (.ose m fm h c) ≠ s.pkgId ∧ s.hznWaiting (.ose m fm h c) (some (q : Nat)) = true →
    s.route (hmsgDst (.ose m fm h c)) = .ports l ∧ s.hznPick l = some p ∧ p < 8 → s.get (R.HZN_STATUS_REVISION p) ≠ 2 →
    (List.range 8).all (fun p => (s.hPort p).rxq.isEmpty) = true ∧ (List.range 24).all (fun p => (s.pEnd 0 p).rxq.isEmpty && (s.pEnd 1 p).rxq.isEmpty) = true →
    (s.hPort p).fits [(s.hznStamp p false (.ose m fm h c))] = true ∧ s.hznAdmits p (s.hznStamp p false (.ose m fm h c)) false = true →
    Completes (.messageForward (.ose m fm h c) (some q)) s fun t =>
      t.hzn.fwd = s.hzn.fwd.erase ((q : Nat), .ose m fm h c) ∧ t.hzn.out = s.hzn.out ∧
      (s.hznStamp p false (.ose m fm h c)) = .ose m fm (h - 1) (if s.flag (R.HZN_CTL_DATELINE p) = true then 1 else c) ∧
      (t.hPort p) = { (s.hPort p).keep (s.hStrm (s.get (R.HZN_PARTNER_SERIAL_SERIAL p))).tx [(s.hznStamp p false (.ose m fm h c))] with owed := (s.hPort p).owed + 1 } ∧
      t.hStrm (s.get (R.HZN_PARTNER_SERIAL_SERIAL p)) = { (s.hStrm (s.get (R.HZN_PARTNER_SERIAL_SERIAL p))) with
        tx := ((s.hStrm (s.get (R.HZN_PARTNER_SERIAL_SERIAL p))).tx + 1) % 4096 } ∧
      t.meter = (s.hznTxMeter p [(s.hznStamp p false (.ose m fm h c))]).meter ∧
      (hznControlled (s.hznStamp p false (.ose m fm h c)) = false → t.qos = (s.hznTxMeter p [(s.hznStamp p false (.ose m fm
        h c))]).qos) ∧
      s.OnlyFields (eventFields) t ∧ s.Only [.regs, .meter, .qos, .pass, .hzn] t) ∧
  (∀ (m : Msg) (l : List Nat) (p : Nat) (s : State),
    hmsgDst (.ose m 0 0 0) ≠ s.pkgId ∧ s.hznWaiting (.ose m 0 0 0) none = true →
    s.route m.dstPkg = .ports l ∧ s.hznPick l = some p → s.get (R.HZN_STATUS_REVISION p) = 2 → m.vc = vcREQ →
    Completes (.messageForward (.ose m 0 0 0) none) s fun t =>
      t.net = s.net.erase m ++ [{ vc := vcRSP, opc := opERR, srcPkg := m.dstPkg, srcAgent := m.dstAgent, dstPkg := m.srcPkg, dstAgent := m.srcAgent, txn := m.txn, addr := m.addr, cause := 4 }] ∧
      t.hzn = (s.take m).hzn ∧ t.pass = (s.take m).pass ∧ s.Only [.net, .pass, .hzn] t) ∧
  (∀ (m : Msg) (l : List Nat) (p : Nat) (s : State),
    hmsgDst (.ose m 0 0 0) ≠ s.pkgId ∧ s.hznWaiting (.ose m 0 0 0) none = true →
    s.route m.dstPkg = .ports l ∧ s.hznPick l = some p → s.get (R.HZN_STATUS_REVISION p) = 2 → m.vc ≠ vcREQ →
    Completes (.messageForward (.ose m 0 0 0) none) s fun t =>
      t.net = s.net.erase m ∧
      s.Records (bankHzn p) ⟨true, errUED, false, m.addr * 64 % 2 ^ 56, recInfo m.mcid m.rcid m.srcAgent m.srcPkg, 0,
        s.pwr.now⟩ t ∧
      t.hzn = (s.take m).hzn ∧ s.OnlyFields (reportFields) t ∧
      s.Only [.regs, .net, .free, .core, .pass, .ras, .tvx, .hzn] t) ∧
  (∀ (m : Msg) (l : List Nat) (p : Nat) (s : State),
    s.route m.dstPkg = .ports l ∧ s.hznPick l = some p ∧ s.get (R.HZN_STATUS_REVISION p) ≠ 2 →
    ((s.hPort p).fits [(s.hznStamp p true (.ose m 0 0 0))] = false ∨ s.hznAdmits p (s.hznStamp p true (.ose m 0 0 0)) true = false) →
    Completes (.messageForward (.ose m 0 0 0) none) s fun t =>
      s.Only [] t) ∧
  (∀ (p : HPort) (x : HMsg) (l : List (Nat × HMsg)) (s : State), s.hzn.fwd = ((p : Nat), x) :: l →
    Completes (.forwardResidenceTimeout) s fun t =>
      t.hzn = { s.hzn with fwd := l, ports := (s.hznConsume (fun y => y == x)).hzn.ports } ∧
      t.get (R.HZN_EVENT_FRAMES_LOST p) = 1 ∧
      t.get (R.HZN_DROP_STATS_RESIDENCE p) = satAdd (R.HZN_DROP_STATS_RESIDENCE p).w (s.get (R.HZN_DROP_STATS_RESIDENCE p))
        1 ∧
      s.OnlyFields [R.HZN_DROP_STATS_RESIDENCE p, R.HZN_EVENT_FRAMES_LOST p] t ∧ s.Only [.regs, .hzn] t) ∧
  (∀ (s : State), s.hzn.fwd = [] → Completes (.forwardResidenceTimeout) s fun t =>
      s.Only [] t) ∧
  (∀ (n : Ix16) (h : Fin 512) (x : HTxn) (s : State), s.lock n h = some x →
    x.proxy = true ∧ x.work = .request ∧ x.phase = .remote ∧ x.quar = false → Completes (.proxyCohTimeout n h) s fun t =>
      t.lock n h = some { x with quar := true } ∧
      (∀ n' h', ¬ (n' = (n : Nat) ∧ h' = (h : Nat)) → h' < 512 → t.lock n' h' = s.lock n' h') ∧
      t.home = { s.home with locks := t.home.locks } ∧ t.net = s.net ++ [{ s.rsp n x.req opERR with cause := 4 }] ∧
      s.OnlyFields [R.HOME_LOCKS_PEAK n] t ∧ s.Only [.regs, .net, .home] t) ∧
  (∀ (n : Ix16) (h : Fin 512) (s : State),
    (s.lock n h = none ∨ (s.lock n h).map (fun x => x.proxy && x.work == .request && x.phase == .remote && !x.quar) = some false) →
    Completes (.proxyCohTimeout n h) s fun t =>
      s.Only [] t) ∧
  (∀ (n : Ix16) (h : Fin 512) (x : HTxn) (i : Fin 32) (s : State), s.home.pxWb = [] →
    s.lock n h = some x ∧ s.home.locks = [((n : Nat) * 512 + h, some x)] →
    x.proxy = true ∧ x.quar = true ∧ x.work = .request ∧ x.phase = .remote →
    s.servedAs (x.line * 64 / 2 ^ 44) = some i.val → s.isl = islJOINED ∧ s.memState i = memACTIVE →
    Completes (.proxyCohFinalTimeout n ⟨h, by omega⟩) s fun t =>
      t.memState i = memLOST ∧ t.get R.ROUTE_STATS_LOSSES = satAdd (R.ROUTE_STATS_LOSSES).w (s.get R.ROUTE_STATS_LOSSES) 1 ∧
      s.OtherMembers i t ∧
      s.Only [.regs, .mem, .marked, .net, .free, .core, .home, .pass, .mesa, .meter, .qos, .hzn, .ras, .tvx] t) ∧
  (∀ (n : Ix16) (h : Fin 512) (x : HTxn) (s : State), s.home.pxWb = [] → s.lock n h = some x ∧ s.home.toks = [] →
    x.proxy = true ∧ x.quar = true ∧ x.work = .request ∧ x.phase = .remote → s.servedAs (x.line * 64 / 2 ^ 44) = none →
    Completes (.proxyCohFinalTimeout n ⟨h, by omega⟩) s fun t =>
      t.lock n h = none ∧ (∀ n' h', ¬ (n' = (n : Nat) ∧ h' = (h : Nat)) → h' < 512 → t.lock n' h' = s.lock n' h') ∧
      t.home = { s.home with locks := t.home.locks } ∧ s.OnlyFields [R.HOME_LOCKS_PEAK n] t ∧ s.Only [.regs, .home] t) ∧
  (∀ (n : Ix16) (k : Fin 4096) (w : PxWb) (i : Fin 32) (s : State), s.home.pxWb = [w] ∧ w.n = n ∧ w.out.txn = k →
    s.servedAs w.out.dstPkg = some i.val → s.isl = islJOINED ∧ s.memState i = memACTIVE →
    Completes (.proxyCohFinalTimeout n k) s fun t =>
      t.memState i = memLOST ∧ t.get R.ROUTE_STATS_LOSSES = satAdd (R.ROUTE_STATS_LOSSES).w (s.get R.ROUTE_STATS_LOSSES) 1 ∧
      s.OtherMembers i t ∧
      s.Only [.regs, .mem, .marked, .net, .free, .core, .home, .pass, .mesa, .meter, .qos, .hzn, .ras, .tvx] t) ∧
  (∀ (n : Ix16) (k : Fin 4096) (s : State), s.home.pxWb = [] →
    (512 ≤ k.val ∨ s.lock n k = none ∨ (s.lock n k).map (fun x => x.proxy && x.quar) = some false) →
    Completes (.proxyCohFinalTimeout n k) s fun t =>
      s.Only [] t) ∧
  (∀ (n : Ix16) (l : Nat) (w : PxWb) (s : State), s.home.pxWb = [w] ∧ w.n = n ∧ w.out.addr = l →
    Completes (.proxyWbTimeout n l) s fun t =>
      t.net = s.net ++ [w.out] ∧ s.Only [.net] t) ∧
  (∀ (n : Ix16) (l : Nat) (s : State), s.home.pxWb.any (fun w => w.n == n.val && w.out.addr == l) = false →
    Completes (.proxyWbTimeout n l) s fun t =>
      s.Only [] t) ∧
  (∀ (a : Fin 256) (x : Fin 4096) (r : IoReq) (s : State), s.io.reqs = [r] ∧ r.agent = a ∧ r.msg.txn = x ∧ r.st = .sent →
    r.quar = false ∧ r.msg.dstPkg ≠ s.pkgId → r.why = .device 0 0 0 8 ∧ s.io.dma = [] →
    Completes (.ioCohTimeout a x) s fun t =>
      t.io = { s.io with reqs := [{ r with quar := true }] } ∧ s.Only [.io] t) ∧
  (∀ (a : Fin 256) (x : Fin 4096) (r : IoReq) (d : DmaOp) (s : State),
    s.io.reqs = [r] ∧ r.agent = a ∧ r.msg.txn = x ∧ r.st = .sent → r.quar = false ∧ r.msg.dstPkg ≠ s.pkgId →
    r.why = .device d.id 0 0 8 ∧ s.io.dma = [d] ∧ d.left = 1 ∧ d.ans = true → Completes (.ioCohTimeout a x) s fun t =>
      t.io = { s.io with reqs := [{ r with quar := true }], dma := [], cpls := s.io.cpls ++ [⟨d.port, d.rid, false, 0⟩] } ∧
      s.Only [.io] t) ∧
  (∀ (a : Fin 256) (x : Fin 4096) (s : State),
    (s.ioReq a x = none ∨ (s.ioReq a x).map (fun r => r.quar || r.msg.dstPkg == s.pkgId) = some true) →
    Completes (.ioCohTimeout a x) s fun t =>
      s.Only [] t) ∧
  (∀ (a : Fin 256) (x : Fin 4096) (r : IoReq) (s : State), s.io.reqs = [r] ∧ r.agent = a ∧ r.msg.txn = x ∧ r.st = .sent →
    r.quar = true → Completes (.ioCohFinalTimeout a x) s fun t =>
      t.io = { s.io with reqs := [] } ∧ s.Only [.io] t) ∧
  (∀ (a : Fin 256) (x : Fin 4096) (r : IoReq) (w : IoReq) (s : State),
    s.io.reqs = [r, w] ∧ r.agent = a ∧ r.msg.txn = x ∧ r.st = .sent → r.quar = true →
    w.agent = a ∧ w.st = .held ∧ w.msg.addr = r.msg.addr ∧ w.msg.txn ≠ x ∧ w.msg.ord ≠ 1 →
    Completes (.ioCohFinalTimeout a x) s fun t =>
      t.io = { s.io with reqs := [{ w with st := .sent, since := s.pwr.now }] } ∧ t.net = s.net ++ [w.msg] ∧
      s.Only [.net, .io] t) ∧
  (∀ (a : Fin 256) (x : Fin 4096) (s : State), (s.ioReq a x = none ∨ (s.ioReq a x).map (fun r => r.quar) = some false) →
    Completes (.ioCohFinalTimeout a x) s fun t =>
      s.Only [] t)

/-- A request that passes the checks at the target becomes one operation on the memory of the entry's owner, under the
owner's identifiers, and a W_SEND takes the next receive slot (spec/12 R295, R301, spec/09 R215); one that is
malformed, that the entry does not admit, whose owner takes none, that is poisoned or that finds no place is answered
with its status (R242, R243, R295, R301, spec/11 R282). A completion that matches ends its tag: the hart's load takes
the value, data land at LOCAL_ADDR, an acknowledged piece completes its descriptor and is metered, and a failed or
poisoned one completes it with its status (R293, R294, R302); one that matches nothing is counted late (spec/10 R260).
Operations stated are of one line where nothing else is under way; other rows' messages change nothing. -/
def Obligations.WindowMessages : Prop :=
  (∀ (m : WMsg) (x : Xlate) (s : State), s.WinHere m vcPOST 0 → wIllegal m = true → Completes (.wWrite m x) s fun t =>
      t.hzn = s.Answers m (wCpl m 5) ∧ s.OnlyFields (eventFields) t ∧ s.Only [.regs, .pass, .hzn] t) ∧
  (∀ (m : WMsg) (x : Xlate) (s : State), s.WinHere m vcPOST 0 → wIllegal m = false → s.inOpen (s.iwinE m.iwin) m = false →
    Completes (.wWrite m x) s fun t =>
      t.hzn = s.Answers m (wCpl m 1) ∧ s.OnlyFields (eventFields) t ∧ s.Only [.regs, .pass, .hzn] t) ∧
  (∀ (m : WMsg) (x : Xlate) (s : State), s.WinHere m vcPOST 0 → wIllegal m = false → s.inOpen (s.iwinE m.iwin) m = true →
    s.fnAccepts (wordBits (s.iwinE m.iwin) 0 32 12) = false → Completes (.wWrite m x) s fun t =>
      t.hzn = s.Answers m (wCpl m 4) ∧ s.OnlyFields (eventFields) t ∧ s.Only [.regs, .pass, .hzn] t) ∧
  (∀ (m : WMsg) (x : Xlate) (f : Nat) (s : State), s.WinHere m vcPOST 0 → wIllegal m = false →
    s.inOpen (s.iwinE m.iwin) m = true → f = wordBits (s.iwinE m.iwin) 0 32 12 ∧ s.fnAccepts f = true → m.poison = true →
    Completes (.wWrite m x) s fun t =>
      t.hzn = s.Answers m (wCpl m 3) ∧ s.XceLogs f 12 t ∧ s.OnlyFields (reportFields) t ∧
      s.Only [.regs, .free, .core, .pass, .ras, .tvx, .io, .hzn] t) ∧
  (∀ (m : WMsg) (x : Xlate) (s : State), (s.hzn.win.contains m = false ∨ m.vc ≠ vcPOST ∨ m.wopc ≠ 0 ∨ m.dstPkg ≠ s.pkgId) →
    Completes (.wWrite m x) s fun t =>
      s.Only [] t) ∧
  (∀ (m : WMsg) (e f ga pa : Nat) (s : State), s.WinOpen m vcPOST 0 e f → s.XceIdle →
    s.OneLine f (wordBits e 2 12 52 * 4096 + m.offset) m.length ga pa → Completes (.wWrite m (.to ga)) s fun t =>
      t.hzn = s.Takes m [] ∧
      s.Begins f (.target m) (s.fnIds f) (targetStream m) (pa % 64) m.length (writeMsg (s.fnIds f) 1 pa m.length (ofBytes
        (m.data.take m.length))) t ∧
      t.xce = { s.xce with ops := t.xce.ops, nextOp := t.xce.nextOp } ∧ s.OnlyFields (eventFields) t ∧
      s.Only [.regs, .net, .xce, .io, .pass, .hzn] t) ∧
  (∀ (m : WMsg) (x : Xlate) (s : State), s.WinHere m vcNP 0 → wIllegal m = true → Completes (.wRead m x) s fun t =>
      t.hzn = s.Answers m (wCpl m 5) ∧ s.OnlyFields (eventFields) t ∧ s.Only [.regs, .pass, .hzn] t) ∧
  (∀ (m : WMsg) (x : Xlate) (s : State), s.WinHere m vcNP 0 → wIllegal m = false → s.inOpen (s.iwinE m.iwin) m = false →
    Completes (.wRead m x) s fun t =>
      t.hzn = s.Answers m (wCpl m 1) ∧ s.OnlyFields (eventFields) t ∧ s.Only [.regs, .pass, .hzn] t) ∧
  (∀ (m : WMsg) (x : Xlate) (s : State), s.WinHere m vcNP 0 → wIllegal m = false → s.inOpen (s.iwinE m.iwin) m = true →
    s.fnAccepts (wordBits (s.iwinE m.iwin) 0 32 12) = false → Completes (.wRead m x) s fun t =>
      t.hzn = s.Answers m (wCpl m 4) ∧ s.OnlyFields (eventFields) t ∧ s.Only [.regs, .pass, .hzn] t) ∧
  (∀ (m : WMsg) (x : Xlate) (f : Nat) (s : State), s.WinHere m vcNP 0 → wIllegal m = false →
    s.inOpen (s.iwinE m.iwin) m = true → f = wordBits (s.iwinE m.iwin) 0 32 12 ∧ s.fnAccepts f = true → m.poison = true →
    Completes (.wRead m x) s fun t =>
      t.hzn = s.Answers m (wCpl m 3) ∧ s.XceLogs f 12 t ∧ s.OnlyFields (reportFields) t ∧
      s.Only [.regs, .free, .core, .pass, .ras, .tvx, .io, .hzn] t) ∧
  (∀ (m : WMsg) (x : Xlate) (s : State), (s.hzn.win.contains m = false ∨ m.vc ≠ vcNP ∨ m.wopc ≠ 0 ∨ m.dstPkg ≠ s.pkgId) →
    Completes (.wRead m x) s fun t =>
      s.Only [] t) ∧
  (∀ (m : WMsg) (e f ga pa : Nat) (s : State), s.WinOpen m vcNP 0 e f → s.XceIdle →
    s.OneLine f (wordBits e 2 12 52 * 4096 + m.offset) m.length ga pa → Completes (.wRead m (.to ga)) s fun t =>
      t.hzn = s.Takes m [] ∧ s.Begins f (.target m) (s.fnIds f) 0 (pa % 64) m.length (readMsg (s.fnIds f) pa) t ∧
      t.xce = { s.xce with ops := t.xce.ops, nextOp := t.xce.nextOp } ∧ s.OnlyFields (eventFields) t ∧
      s.Only [.regs, .net, .xce, .io, .pass, .hzn] t) ∧
  (∀ (m : WMsg) (x : Xlate) (s : State), s.WinHere m vcNP 1 → wIllegal m = true → Completes (.wAtomic m x) s fun t =>
      t.hzn = s.Answers m (wCpl m 5) ∧ s.OnlyFields (eventFields) t ∧ s.Only [.regs, .pass, .hzn] t) ∧
  (∀ (m : WMsg) (x : Xlate) (s : State), s.WinHere m vcNP 1 → wIllegal m = false → s.inOpen (s.iwinE m.iwin) m = false →
    Completes (.wAtomic m x) s fun t =>
      t.hzn = s.Answers m (wCpl m 1) ∧ s.OnlyFields (eventFields) t ∧ s.Only [.regs, .pass, .hzn] t) ∧
  (∀ (m : WMsg) (x : Xlate) (s : State), s.WinHere m vcNP 1 → wIllegal m = false → s.inOpen (s.iwinE m.iwin) m = true →
    s.fnAccepts (wordBits (s.iwinE m.iwin) 0 32 12) = false → Completes (.wAtomic m x) s fun t =>
      t.hzn = s.Answers m (wCpl m 4) ∧ s.OnlyFields (eventFields) t ∧ s.Only [.regs, .pass, .hzn] t) ∧
  (∀ (m : WMsg) (x : Xlate) (f : Nat) (s : State), s.WinHere m vcNP 1 → wIllegal m = false →
    s.inOpen (s.iwinE m.iwin) m = true → f = wordBits (s.iwinE m.iwin) 0 32 12 ∧ s.fnAccepts f = true → m.poison = true →
    Completes (.wAtomic m x) s fun t =>
      t.hzn = s.Answers m (wCpl m 3) ∧ s.XceLogs f 12 t ∧ s.OnlyFields (reportFields) t ∧
      s.Only [.regs, .free, .core, .pass, .ras, .tvx, .io, .hzn] t) ∧
  (∀ (m : WMsg) (x : Xlate) (s : State), (s.hzn.win.contains m = false ∨ m.vc ≠ vcNP ∨ m.wopc ≠ 1 ∨ m.dstPkg ≠ s.pkgId) →
    Completes (.wAtomic m x) s fun t =>
      s.Only [] t) ∧
  (∀ (m : WMsg) (e f ga pa : Nat) (s : State), s.WinOpen m vcNP 1 e f → s.XceIdle →
    s.OneLine f (wordBits e 2 12 52 * 4096 + m.offset) (4 * 2 ^ m.asize) ga pa → Completes (.wAtomic m (.to ga)) s fun t =>
      t.hzn = s.Takes m [] ∧
      s.Begins f (.target m) (s.fnIds f) 0 0 (4 * 2 ^ m.asize) { blankMsg with
        opc := opATOMIC, addr := pa / 64, rcid := (s.fnIds f).1, mcid := (s.fnIds f).2, payload := true, aop := m.aop,
          asize := m.asize, aoff := pa % 64, data := bytesLine m.data } t ∧
      t.xce = { s.xce with ops := t.xce.ops, nextOp := t.xce.nextOp } ∧ s.OnlyFields (eventFields) t ∧
      s.Only [.regs, .net, .xce, .io, .pass, .hzn] t) ∧
  (∀ (m : WMsg) (x : Xlate) (s : State), s.WinHere m vcPOST 1 →
    s.depositing (wordBits (s.iwinE m.iwin) 0 32 12) (wordBits (s.iwinE m.iwin) 0 48 3) = false → wIllegal m = true →
    Completes (.wSend m x) s fun t =>
      t.hzn = s.Answers m (wCpl m 5) ∧ s.OnlyFields (eventFields) t ∧ s.Only [.regs, .pass, .hzn] t) ∧
  (∀ (m : WMsg) (x : Xlate) (s : State), s.WinHere m vcPOST 1 →
    s.depositing (wordBits (s.iwinE m.iwin) 0 32 12) (wordBits (s.iwinE m.iwin) 0 48 3) = false → wIllegal m = false →
    s.inOpen (s.iwinE m.iwin) m = false → Completes (.wSend m x) s fun t =>
      t.hzn = s.Answers m (wCpl m 1) ∧ s.OnlyFields (eventFields) t ∧ s.Only [.regs, .pass, .hzn] t) ∧
  (∀ (m : WMsg) (x : Xlate) (s : State), s.WinHere m vcPOST 1 →
    s.depositing (wordBits (s.iwinE m.iwin) 0 32 12) (wordBits (s.iwinE m.iwin) 0 48 3) = false → wIllegal m = false →
    s.inOpen (s.iwinE m.iwin) m = true → s.fnAccepts (wordBits (s.iwinE m.iwin) 0 32 12) = false →
    Completes (.wSend m x) s fun t =>
      t.hzn = s.Answers m (wCpl m 4) ∧ s.OnlyFields (eventFields) t ∧ s.Only [.regs, .pass, .hzn] t) ∧
  (∀ (m : WMsg) (x : Xlate) (f : Nat) (s : State), s.WinHere m vcPOST 1 →
    s.depositing (wordBits (s.iwinE m.iwin) 0 32 12) (wordBits (s.iwinE m.iwin) 0 48 3) = false → wIllegal m = false →
    s.inOpen (s.iwinE m.iwin) m = true → f = wordBits (s.iwinE m.iwin) 0 32 12 ∧ s.fnAccepts f = true → m.poison = true →
    Completes (.wSend m x) s fun t =>
      t.hzn = s.Answers m (wCpl m 3) ∧ s.XceLogs f 12 t ∧ s.OnlyFields (reportFields) t ∧
      s.Only [.regs, .free, .core, .pass, .ras, .tvx, .io, .hzn] t) ∧
  (∀ (m : WMsg) (x : Xlate) (s : State),
    (s.hzn.win.contains m = false ∨ m.vc ≠ vcPOST ∨ m.wopc ≠ 1 ∨ m.dstPkg ≠ s.pkgId ∨ s.depositing (wordBits (s.iwinE m.iwin) 0 32 12) (wordBits (s.iwinE m.iwin) 0 48 3) = true) →
    Completes (.wSend m x) s fun t =>
      s.Only [] t) ∧
  (∀ (m : WMsg) (e f ga pa : Nat) (q : Nat) (s : State), s.WinOpen m vcPOST 1 e f → q = wordBits e 0 48 3 → s.XceIdle →
    s.qpState f q = qpACTIVE ∧ s.get (R.QP_CTL_RQ_ENABLE f q) = 1 ∧ (s.qp f q).rsv < s.rqPosted f q ∧ s.cqRoom f q = true →
    s.OneLine f (s.get (R.QP_RQ_BASE_BASE f q) * 4096 + (s.get (R.QP_RQ_HEAD_INDEX f q) + (s.qp f q).rsv) % 2 ^ s.get (R.QP_SIZES_RQ_LOG2 f q) * 256) m.length ga pa →
    Completes (.wSend m (.to ga)) s fun t =>
      t.hzn = s.Takes m [] ∧ t.qp f q = { s.qp f q with rsv := (s.qp f q).rsv + 1 } ∧
      s.Begins f (.deposit q m) (s.fnIds f) (targetStream m) (pa % 64) m.length (writeMsg (s.fnIds f) 1 pa m.length (ofBytes
        (m.data.take m.length))) t ∧
      t.xce = { s.xce with ops := t.xce.ops, nextOp := t.xce.nextOp, qps := t.xce.qps } ∧ s.OnlyQp f q t ∧
      s.OnlyFields (eventFields) t ∧ s.Only [.regs, .net, .xce, .io, .pass, .hzn] t) ∧
  (∀ (m : WMsg) (e f q : Nat) (x : Xlate) (s : State), s.WinOpen m vcPOST 1 e f →
    q = wordBits e 0 48 3 ∧ s.depositing f q = false →
    (s.qpState f q ≠ qpACTIVE ∨ s.get (R.QP_CTL_RQ_ENABLE f q) = 0 ∨ s.rqPosted f q ≤ (s.qp f q).rsv ∨ s.cqRoom f q = false) →
    Completes (.wSend m x) s fun t =>
      t.hzn = s.Answers m (wCpl m 4) ∧
      t.get (R.QP_STATUS_RQ_DROPS f q) = satAdd (R.QP_STATUS_RQ_DROPS f q).w (s.get (R.QP_STATUS_RQ_DROPS f q)) 1 ∧
      s.OnlyFields (R.QP_STATUS_RQ_DROPS f q :: eventFields) t ∧ s.Only [.regs, .pass, .hzn] t) ∧
  (∀ (m : WMsg) (y : List Xlate) (s : State), s.WinHere m vcCPL 0 → s.tag m.srcFn m.wtag = none →
    Completes (.wReadCpl m y) s fun t =>
      t.hzn = s.Takes m [] ∧
      t.get R.ROUTE_STATS_LATE_CPL = satAdd (R.ROUTE_STATS_LATE_CPL).w (s.get R.ROUTE_STATS_LATE_CPL) 1 ∧
      s.OnlyFields [R.ROUTE_STATS_LATE_CPL] t ∧ s.Only [.regs, .hzn] t) ∧
  (∀ (m : WMsg) (x : XTag) (y : List Xlate) (s : State), s.WinHere m vcCPL 0 → s.tag m.srcFn m.wtag = some x →
    (m.cstatus = 7 ∨ x.np = false ∨ (m.cstatus = 0 ∧ m.length ≠ x.len)) → Completes (.wReadCpl m y) s fun t =>
      t.hzn = s.Takes m [] ∧
      t.get R.ROUTE_STATS_LATE_CPL = satAdd (R.ROUTE_STATS_LATE_CPL).w (s.get R.ROUTE_STATS_LATE_CPL) 1 ∧
      s.OnlyFields [R.ROUTE_STATS_LATE_CPL] t ∧ s.Only [.regs, .hzn] t) ∧
  (∀ (m : WMsg) (x : XTag) (q off : Nat) (d : XDesc) (y : List Xlate) (s : State), s.CplFor m 0 x → m.cstatus ≠ 0 →
    x.why = .piece q d.pos off ∧ (s.qp x.fn q).descs = [d] ∧ d.live = 1 ∧ d.total ≤ d.next ∧ d.fail = none →
    s.get (R.QP_CTL_MODE x.fn q) = 0 → Completes (.wReadCpl m y) s fun t =>
      t.hzn = s.Takes m [] ∧ t.xce.tags = s.xce.tags.filter (fun y => !(y.fn == x.fn && y.wtag == x.wtag)) ∧
      s.Completed x.fn q d (some (off, (cstatusDetail m.cstatus).1, (cstatusDetail m.cstatus).2)) t ∧ s.OnlyQp x.fn q t ∧
      t.xce = { s.xce with tags := t.xce.tags, qps := t.xce.qps } ∧ s.OnlyFields (eventFields) t ∧
      s.Only [.regs, .xce, .pass, .hzn] t) ∧
  (∀ (m : WMsg) (x : XTag) (q off : Nat) (d : XDesc) (y : List Xlate) (s : State), s.CplFor m 0 x →
    m.cstatus = 0 ∧ m.poison = true →
    x.why = .piece q d.pos off ∧ (s.qp x.fn q).descs = [d] ∧ d.live = 1 ∧ d.total ≤ d.next ∧ d.fail = none →
    s.get (R.QP_CTL_MODE x.fn q) = 0 → Completes (.wReadCpl m y) s fun t =>
      t.hzn = s.Takes m [] ∧ t.xce.tags = s.xce.tags.filter (fun y => !(y.fn == x.fn && y.wtag == x.wtag)) ∧
      s.Completed x.fn q d (some (off, 1, 8)) t ∧ s.OnlyQp x.fn q t ∧ s.XceLogs x.fn 12 t ∧
      s.OnlyFields (eventFields ++ reportFields) t ∧ s.Only [.regs, .free, .core, .xce, .io, .pass, .ras, .tvx, .hzn] t) ∧
  (∀ (m : WMsg) (x : XTag) (y : List Xlate) (s : State), s.WinHere m vcCPL 0 → s.tag m.srcFn m.wtag = some x →
    (m.cstatus ≠ 7 ∧ x.quar = true ∧ x.np = true ∧ (m.cstatus ≠ 0 ∨ m.length = x.len)) →
    (s.get R.XCE_EVENT_EN_ENABLE).testBit 3 = false ∧ (s.get R.XCE_EVENT_EN_ENABLE).testBit 5 = false →
    Completes (.wReadCpl m y) s fun t =>
      t.hzn = s.Takes m [] ∧ t.xce.tags = s.xce.tags.filter (fun y => !(y.fn == x.fn && y.wtag == x.wtag)) ∧
      t.get R.ROUTE_STATS_LATE_CPL = satAdd (R.ROUTE_STATS_LATE_CPL).w (s.get R.ROUTE_STATS_LATE_CPL) 1 ∧
      s.XceLogs x.fn 16 t ∧ (t.reg R.rXCE_EVENT).toNat.testBit 3 = true ∧
      s.Only [.regs, .free, .core, .xce, .io, .pass, .ras, .tvx, .hzn] t) ∧
  (∀ (m : WMsg) (y : List Xlate) (s : State),
    (s.hzn.win.contains m = false ∨ m.vc ≠ vcCPL ∨ m.wopc ≠ 0 ∨ m.dstPkg ≠ s.pkgId) → Completes (.wReadCpl m y) s fun t =>
      s.Only [] t) ∧
  (∀ (m : WMsg) (y : Xlate) (s : State), s.WinHere m vcCPL 1 → s.tag m.srcFn m.wtag = none →
    Completes (.wAtomicCpl m y) s fun t =>
      t.hzn = s.Takes m [] ∧
      t.get R.ROUTE_STATS_LATE_CPL = satAdd (R.ROUTE_STATS_LATE_CPL).w (s.get R.ROUTE_STATS_LATE_CPL) 1 ∧
      s.OnlyFields [R.ROUTE_STATS_LATE_CPL] t ∧ s.Only [.regs, .hzn] t) ∧
  (∀ (m : WMsg) (x : XTag) (y : Xlate) (s : State), s.WinHere m vcCPL 1 → s.tag m.srcFn m.wtag = some x →
    (m.cstatus = 7 ∨ x.np = false) → Completes (.wAtomicCpl m y) s fun t =>
      t.hzn = s.Takes m [] ∧
      t.get R.ROUTE_STATS_LATE_CPL = satAdd (R.ROUTE_STATS_LATE_CPL).w (s.get R.ROUTE_STATS_LATE_CPL) 1 ∧
      s.OnlyFields [R.ROUTE_STATS_LATE_CPL] t ∧ s.Only [.regs, .hzn] t) ∧
  (∀ (m : WMsg) (x : XTag) (q off : Nat) (d : XDesc) (y : Xlate) (s : State), s.CplFor m 1 x → m.cstatus ≠ 0 →
    x.why = .piece q d.pos off ∧ (s.qp x.fn q).descs = [d] ∧ d.live = 1 ∧ d.total ≤ d.next ∧ d.fail = none →
    s.get (R.QP_CTL_MODE x.fn q) = 0 → Completes (.wAtomicCpl m y) s fun t =>
      t.hzn = s.Takes m [] ∧ t.xce.tags = s.xce.tags.filter (fun y => !(y.fn == x.fn && y.wtag == x.wtag)) ∧
      s.Completed x.fn q d (some (off, (cstatusDetail m.cstatus).1, (cstatusDetail m.cstatus).2)) t ∧ s.OnlyQp x.fn q t ∧
      t.xce = { s.xce with tags := t.xce.tags, qps := t.xce.qps } ∧ s.OnlyFields (eventFields) t ∧
      s.Only [.regs, .xce, .pass, .hzn] t) ∧
  (∀ (m : WMsg) (x : XTag) (q off : Nat) (d : XDesc) (y : Xlate) (s : State), s.CplFor m 1 x →
    m.cstatus = 0 ∧ m.poison = true →
    x.why = .piece q d.pos off ∧ (s.qp x.fn q).descs = [d] ∧ d.live = 1 ∧ d.total ≤ d.next ∧ d.fail = none →
    s.get (R.QP_CTL_MODE x.fn q) = 0 → Completes (.wAtomicCpl m y) s fun t =>
      t.hzn = s.Takes m [] ∧ t.xce.tags = s.xce.tags.filter (fun y => !(y.fn == x.fn && y.wtag == x.wtag)) ∧
      s.Completed x.fn q d (some (off, 1, 8)) t ∧ s.OnlyQp x.fn q t ∧ s.XceLogs x.fn 12 t ∧
      s.OnlyFields (eventFields ++ reportFields) t ∧ s.Only [.regs, .free, .core, .xce, .io, .pass, .ras, .tvx, .hzn] t) ∧
  (∀ (m : WMsg) (x : XTag) (y : Xlate) (s : State), s.WinHere m vcCPL 1 → s.tag m.srcFn m.wtag = some x →
    m.cstatus ≠ 7 ∧ x.quar = true ∧ x.np = true →
    (s.get R.XCE_EVENT_EN_ENABLE).testBit 3 = false ∧ (s.get R.XCE_EVENT_EN_ENABLE).testBit 5 = false →
    Completes (.wAtomicCpl m y) s fun t =>
      t.hzn = s.Takes m [] ∧ t.xce.tags = s.xce.tags.filter (fun y => !(y.fn == x.fn && y.wtag == x.wtag)) ∧
      t.get R.ROUTE_STATS_LATE_CPL = satAdd (R.ROUTE_STATS_LATE_CPL).w (s.get R.ROUTE_STATS_LATE_CPL) 1 ∧
      s.XceLogs x.fn 16 t ∧ (t.reg R.rXCE_EVENT).toNat.testBit 3 = true ∧
      s.Only [.regs, .free, .core, .xce, .io, .pass, .ras, .tvx, .hzn] t) ∧
  (∀ (m : WMsg) (y : Xlate) (s : State), (s.hzn.win.contains m = false ∨ m.vc ≠ vcCPL ∨ m.wopc ≠ 1 ∨ m.dstPkg ≠ s.pkgId) →
    Completes (.wAtomicCpl m y) s fun t =>
      s.Only [] t) ∧
  (∀ (m : WMsg) (s : State), s.WinHere m vcCPL 2 → s.tag m.srcFn m.wtag = none → Completes (.wAck m) s fun t =>
      t.hzn = s.Takes m [] ∧
      t.get R.ROUTE_STATS_LATE_CPL = satAdd (R.ROUTE_STATS_LATE_CPL).w (s.get R.ROUTE_STATS_LATE_CPL) 1 ∧
      s.OnlyFields [R.ROUTE_STATS_LATE_CPL] t ∧ s.Only [.regs, .hzn] t) ∧
  (∀ (m : WMsg) (x : XTag) (s : State), s.WinHere m vcCPL 2 → s.tag m.srcFn m.wtag = some x → (m.cstatus = 7 ∨ x.np = true) →
    Completes (.wAck m) s fun t =>
      t.hzn = s.Takes m [] ∧
      t.get R.ROUTE_STATS_LATE_CPL = satAdd (R.ROUTE_STATS_LATE_CPL).w (s.get R.ROUTE_STATS_LATE_CPL) 1 ∧
      s.OnlyFields [R.ROUTE_STATS_LATE_CPL] t ∧ s.Only [.regs, .hzn] t) ∧
  (∀ (m : WMsg) (x : XTag) (q off : Nat) (d : XDesc) (s : State), s.CplFor m 2 x → m.cstatus ≠ 0 →
    x.why = .piece q d.pos off ∧ (s.qp x.fn q).descs = [d] ∧ d.live = 1 ∧ d.total ≤ d.next ∧ d.fail = none →
    s.get (R.QP_CTL_MODE x.fn q) = 0 → Completes (.wAck m) s fun t =>
      t.hzn = s.Takes m [] ∧ t.xce.tags = s.xce.tags.filter (fun y => !(y.fn == x.fn && y.wtag == x.wtag)) ∧
      s.Completed x.fn q d (some (off, (cstatusDetail m.cstatus).1, (cstatusDetail m.cstatus).2)) t ∧ s.OnlyQp x.fn q t ∧
      t.xce = { s.xce with tags := t.xce.tags, qps := t.xce.qps } ∧ s.OnlyFields (eventFields) t ∧
      s.Only [.regs, .xce, .pass, .hzn] t) ∧
  (∀ (m : WMsg) (x : XTag) (q off : Nat) (d : XDesc) (s : State), s.CplFor m 2 x → m.cstatus = 0 ∧ m.poison = true →
    x.why = .piece q d.pos off ∧ (s.qp x.fn q).descs = [d] ∧ d.live = 1 ∧ d.total ≤ d.next ∧ d.fail = none →
    s.get (R.QP_CTL_MODE x.fn q) = 0 → Completes (.wAck m) s fun t =>
      t.hzn = s.Takes m [] ∧ t.xce.tags = s.xce.tags.filter (fun y => !(y.fn == x.fn && y.wtag == x.wtag)) ∧
      s.Completed x.fn q d (some (off, 1, 8)) t ∧ s.OnlyQp x.fn q t ∧ s.XceLogs x.fn 12 t ∧
      s.OnlyFields (eventFields ++ reportFields) t ∧ s.Only [.regs, .free, .core, .xce, .io, .pass, .ras, .tvx, .hzn] t) ∧
  (∀ (m : WMsg) (x : XTag) (s : State), s.WinHere m vcCPL 2 → s.tag m.srcFn m.wtag = some x →
    m.cstatus ≠ 7 ∧ x.quar = true ∧ x.np = false →
    (s.get R.XCE_EVENT_EN_ENABLE).testBit 3 = false ∧ (s.get R.XCE_EVENT_EN_ENABLE).testBit 5 = false →
    Completes (.wAck m) s fun t =>
      t.hzn = s.Takes m [] ∧ t.xce.tags = s.xce.tags.filter (fun y => !(y.fn == x.fn && y.wtag == x.wtag)) ∧
      t.get R.ROUTE_STATS_LATE_CPL = satAdd (R.ROUTE_STATS_LATE_CPL).w (s.get R.ROUTE_STATS_LATE_CPL) 1 ∧
      s.XceLogs x.fn 16 t ∧ (t.reg R.rXCE_EVENT).toNat.testBit 3 = true ∧
      s.Only [.regs, .free, .core, .xce, .io, .pass, .ras, .tvx, .hzn] t) ∧
  (∀ (m : WMsg) (s : State), (s.hzn.win.contains m = false ∨ m.vc ≠ vcCPL ∨ m.wopc ≠ 2 ∨ m.dstPkg ≠ s.pkgId) →
    Completes (.wAck m) s fun t =>
      s.Only [] t) ∧
  (∀ (m : WMsg) (x : XTag) (h : Hart) (k : Nat) (a : Access) (l : List Xlate) (s : State), s.CplGood m 0 x →
    x.why = .load h k → (s.hart h).mmio = some (a, none) ∧ a.ga % 2 ^ 44 < irqBase → Completes (.wReadCpl m l) s fun t =>
      t.hart h = { s.hart h with mmio := none, mode := a.priv, lcofi := (t.hart h).lcofi, out := .value (ofBytes (m.data.take m.length)) } ∧
      s.OnlyHart h t ∧ t.xce.tags = s.xce.tags.filter (fun y => !(y.fn == x.fn && y.wtag == x.wtag)) ∧
      t.hzn = s.Takes m [] ∧ s.OnlyFields (countFields h ++ eventFields) t ∧ s.Only [.regs, .core, .xce, .pass, .hzn] t) ∧
  (∀ (m : WMsg) (x : XTag) (q off : Nat) (d : XDesc) (ga pa : Nat) (s : State), s.CplGood m 0 x → x.why = .piece q d.pos off →
    (s.qp x.fn q).descs = [d] → s.XceIdle → s.OneLine x.fn (d.b 16 8 + off) m.length ga pa →
    Completes (.wReadCpl m [.to ga]) s fun t =>
      t.hzn = s.Takes m [] ∧ t.xce.tags = s.xce.tags.filter (fun y => !(y.fn == x.fn && y.wtag == x.wtag)) ∧
      s.Begins x.fn (.land q d.pos off m.length) (d.rcid, d.mcid) 0 (pa % 64) m.length (writeMsg (d.rcid, d.mcid) 0 pa
        m.length (ofBytes (m.data.take m.length))) t ∧
      t.xce = { s.xce with tags := t.xce.tags, ops := t.xce.ops, nextOp := t.xce.nextOp } ∧ s.OnlyFields (eventFields) t ∧
      s.Only [.regs, .net, .xce, .io, .pass, .hzn] t) ∧
  (∀ (m : WMsg) (x : XTag) (q : Nat) (d : XDesc) (ga pa : Nat) (s : State), s.CplGood m 1 x → x.why = .piece q d.pos 0 →
    (s.qp x.fn q).descs = [d] → s.XceIdle → s.OneLine x.fn (d.b 16 8) (4 * 2 ^ bits (d.b 2 1) 4 2) ga pa →
    Completes (.wAtomicCpl m (.to ga)) s fun t =>
      t.hzn = s.Takes m [] ∧ t.xce.tags = s.xce.tags.filter (fun y => !(y.fn == x.fn && y.wtag == x.wtag)) ∧
      s.Begins x.fn (.land q d.pos 0 (4 * 2 ^ bits (d.b 2 1) 4 2)) (d.rcid, d.mcid) 0 (pa % 64) (4 * 2 ^ bits (d.b 2 1) 4 2)
        (writeMsg (d.rcid, d.mcid) 0 pa (4 * 2 ^ bits (d.b 2 1) 4 2) (ofBytes (m.data.take (4 * 2 ^ bits (d.b 2 1) 4
        2)))) t ∧
      t.xce = { s.xce with tags := t.xce.tags, ops := t.xce.ops, nextOp := t.xce.nextOp } ∧ s.OnlyFields (eventFields) t ∧
      s.Only [.regs, .net, .xce, .io, .pass, .hzn] t) ∧
  (∀ (m : WMsg) (x : XTag) (q off : Nat) (d : XDesc) (s : State), s.CplGood m 2 x →
    x.why = .piece q d.pos off ∧ (s.qp x.fn q).descs = [d] ∧ d.live = 1 ∧ d.total ≤ d.next ∧ d.fail = none →
    d.op ≠ 0 ∧ d.op ≠ 6 → Completes (.wAck m) s fun t =>
      t.hzn = s.Takes m [] ∧ t.xce.tags = s.xce.tags.filter (fun y => !(y.fn == x.fn && y.wtag == x.wtag)) ∧
      s.Completed x.fn q d none t ∧ s.OnlyQp x.fn q t ∧ t.xce = { s.xce with tags := t.xce.tags, qps := t.xce.qps } ∧
      t.meter = (s.meterAdd qXCE d.mcid x.len).meter ∧ s.OnlyFields (eventFields) t ∧
      s.Only [.regs, .meter, .xce, .pass, .hzn] t) ∧
  (∀ (m : WMsg) (x : XTag) (k : Nat) (s : State), s.CplGood m 2 x → x.why = .store k → Completes (.wAck m) s fun t =>
      t.hzn = s.Takes m [] ∧ t.xce.tags = s.xce.tags.filter (fun y => !(y.fn == x.fn && y.wtag == x.wtag)) ∧
      t.xce = { s.xce with tags := t.xce.tags } ∧ s.OnlyFields (eventFields) t ∧ s.Only [.regs, .xce, .pass, .hzn] t)

/-- A load or store of BAR2 that passes the outbound check takes the lowest free tag and leaves as W_READ or W_WRITE under
the function's identifiers; a load that fails it takes an access fault with a record, a store is dropped and counted;
without a free tag it waits (spec/12 R291, R301, R302). A request that times out is quarantined, and what waited for
it takes TIMEOUT: the descriptor, the hart's load, the store's count (spec/10 R259, spec/12 R293); its tag is free at
the final timeout (spec/10 R260). A commit replaces one entry by the shadow words, held while the microcontroller is
down, and COMMITTED says that nothing of the old one is left (spec/12 R303, R304). -/
def Obligations.WindowRequests : Prop :=
  (∀ (f : Func) (w : Fin 4096) (x : XTag) (k : Nat) (s : State), s.xce.tags = [x] ∧ x.fn = f ∧ x.wtag = w →
    x.quar = false ∧ x.np = false → x.why = .store k ∧ k < 8 → Completes (.winTimeout f w) s fun t =>
      t.xce.tags = [{ x with quar := true }] ∧ t.xce = { s.xce with tags := t.xce.tags } ∧
      t.get (R.XCE_VF_WIN_FAULTS_STORES_DROPPED f) = satAdd (R.XCE_VF_WIN_FAULTS_STORES_DROPPED f).w (s.get
        (R.XCE_VF_WIN_FAULTS_STORES_DROPPED f)) 1 ∧
      t.get (R.XCE_VF_WIN_FAULTS_LAST_DETAIL f) = 12 ∧ t.get (R.XCE_VF_WIN_FAULTS_LAST_SLOT f) = k ∧
      s.OnlyFields (FRef.all (R.rXCE_VF_WIN_FAULTS f) :: eventFields) t ∧ s.Only [.regs, .xce, .pass] t) ∧
  (∀ (f : Func) (w : Fin 4096) (x : XTag) (q off : Nat) (d : XDesc) (s : State), s.xce.tags = [x] ∧ x.fn = f ∧ x.wtag = w →
    x.quar = false ∧ x.np = false →
    x.why = .piece q d.pos off ∧ (s.qp x.fn q).descs = [d] ∧ d.live = 1 ∧ d.total ≤ d.next ∧ d.fail = none →
    s.get (R.QP_CTL_MODE x.fn q) = 0 → Completes (.winTimeout f w) s fun t =>
      t.xce.tags = [{ x with quar := true }] ∧ s.Completed f q d (some (off, 2, 12)) t ∧ s.OnlyQp f q t ∧
      t.xce = { s.xce with tags := t.xce.tags, qps := t.xce.qps } ∧ s.OnlyFields (eventFields) t ∧
      s.Only [.regs, .xce, .pass] t) ∧
  (∀ (f : Func) (w : Fin 4096) (x : XTag) (q off : Nat) (d : XDesc) (s : State), s.xce.tags = [x] ∧ x.fn = f ∧ x.wtag = w →
    x.quar = false ∧ x.np = true →
    x.why = .piece q d.pos off ∧ (s.qp x.fn q).descs = [d] ∧ d.live = 1 ∧ d.total ≤ d.next ∧ d.fail = none →
    s.get (R.QP_CTL_MODE x.fn q) = 0 → Completes (.winTimeout f w) s fun t =>
      t.xce.tags = [{ x with quar := true }] ∧ s.Completed f q d (some (off, 2, 12)) t ∧ s.XceLogs f 14 t ∧ s.OnlyQp f q t ∧
      t.xce = { s.xce with tags := t.xce.tags, qps := t.xce.qps } ∧ s.OnlyFields (eventFields ++ reportFields) t ∧
      s.Only [.regs, .free, .core, .xce, .io, .pass, .ras, .tvx] t) ∧
  (∀ (f : Func) (w : Fin 4096) (x : XTag) (h : Hart) (k : Nat) (a : Access) (s : State),
    s.xce.tags = [x] ∧ x.fn = f ∧ x.wtag = w → x.quar = false ∧ x.np = true → x.why = .load h k →
    (s.hart h).mmio = some (a, none) ∧ a.ga % 2 ^ 44 < irqBase → s.demands h = false ∧ a.elem = none →
    Completes (.winTimeout f w) s fun t =>
      t.xce.tags = [{ x with quar := true }] ∧ t.cfgBits ridPF 0x104 14 1 = 1 ∧
      (t.hart h).mmio = none ∧ (t.hart h).resv = none ∧ (t.hart h).out = .trap 5 a.va none ∧
      (s.NoNmi bankXce errUED → s.Faults h 5 a t) ∧ s.Only [.regs, .free, .core, .xce, .io, .pass, .ras, .tvx] t) ∧
  (∀ (f : Func) (w : Fin 4096) (s : State), (s.tag f w = none ∨ (s.tag f w).map (fun x => x.quar) = some true) →
    Completes (.winTimeout f w) s fun t =>
      s.Only [] t) ∧
  (∀ (f : Func) (w : Fin 4096) (x : XTag) (s : State), s.xce.tags = [x] ∧ x.fn = f ∧ x.wtag = w → x.quar = true →
    Completes (.winFinalTimeout f w) s fun t =>
      t.xce = { s.xce with tags := [] } ∧ s.Only [.xce] t) ∧
  (∀ (f : Func) (w : Fin 4096) (s : State), (s.tag f w = none ∨ (s.tag f w).map (fun x => x.quar) = some false) →
    Completes (.winFinalTimeout f w) s fun t =>
      s.Only [] t) ∧
  (∀ (h : Hart) (f : Func) (off i w : Nat) (x : Access) (s : State), f.val ≠ 0 → s.fnExists f = true ∧ s.fnDrains f = false →
    s.outCheck f (bar2Slot off).1 permREAD (bar2Slot off).2 x.size = some i → s.winRoom f = true ∧ s.freeTag f = some w →
    s.npRoom f = true ∧ (s.hart h).mmio = none → Completes (.bar2Load h f off x) s fun t =>
      t.hart h = { s.hart h with mmio := some (x, none), out := .idle } ∧ s.OnlyHart h t ∧
      t.xce = { s.xce with
        tags := s.xce.tags ++
          [{ fn := f, wtag := w, np := true, len := x.size, ent := i, why := .load h (bar2Slot off).1 }] } ∧
      t.hzn = (s.wGo { s.winMsg f i vcNP 0 (bar2Slot off).2 x.size (s.fnIds f) with wtag := w }).hzn ∧
      s.OnlyFields (eventFields) t ∧ s.Only [.regs, .core, .pass, .hzn, .xce] t) ∧
  (∀ (h : Hart) (f : Func) (off : Nat) (x : Access) (s : State), f.val ≠ 0 → s.fnExists f = true ∧ s.fnDrains f = false →
    s.outCheck f (bar2Slot off).1 permREAD (bar2Slot off).2 x.size = none →
    (s.hart h).mmio = none ∧ x.ga % 2 ^ 44 < irqBase → s.demands h = false ∧ x.elem = none →
    Completes (.bar2Load h f off x) s fun t =>
      s.Faults h 5 x t ∧
      (s.NoNmi (bankCore h) errUED → ∀ r, r ≠ R.rMBOX_STATUS → r ≠ R.rIOMMU_MSI_DROPS → t.reg r = (s.takeTrap h x.priv 5
        x.va 0 (Config.freeWord s.free &&& ~~~1)).reg r) ∧
      s.Records (bankCore h) ⟨true, errUED, false, x.ga % 2 ^ 56, recInfo (s.get (R.srmcfg_MCID h)) (s.get (R.srmcfg_RCID
        h)) (h / 32) s.pkgId, 0, s.pwr.now⟩ t ∧
      s.Only [.regs, .free, .core, .pass, .ras, .tvx] t) ∧
  (∀ (h : Hart) (f : Func) (off : Nat) (x : Access) (s : State),
    (f.val = 0 ∨ s.fnExists f = false ∨ s.fnDrains f = true ∨ (s.hart h).mmio ≠ none ∨ ((s.outCheck f (bar2Slot off).1 permREAD (bar2Slot off).2 x.size).isSome = true ∧ (s.winRoom f = false ∨ s.npRoom f = false))) →
    Completes (.bar2Load h f off x) s fun t =>
      s.Only [] t) ∧
  (∀ (h : Hart) (f : Func) (off i w : Nat) (v : Nat) (x : Access) (s : State), f.val ≠ 0 →
    s.fnExists f = true ∧ s.fnDrains f = false → s.outCheck f (bar2Slot off).1 permWRITE (bar2Slot off).2 x.size = some i →
    s.winRoom f = true ∧ s.freeTag f = some w → Completes (.bar2Store h f off v x) s fun t =>
      t.hart h = { s.hart h with mode := x.priv, lcofi := (t.hart h).lcofi, out := .done } ∧ s.OnlyHart h t ∧
      t.xce = { s.xce with
        tags := s.xce.tags ++
          [{ fn := f, wtag := w, np := false, len := x.size, ent := i, why := .store (bar2Slot off).1 }] } ∧
      t.hzn = (s.wGo
        { s.winMsg f i vcPOST 0 (bar2Slot off).2 x.size (s.fnIds f) with wtag := w, data := leBytes x.size v }).hzn ∧
      s.OnlyFields (countFields h ++ eventFields) t ∧ s.Only [.regs, .core, .pass, .hzn, .xce] t) ∧
  (∀ (h : Hart) (f : Func) (off v : Nat) (x : Access) (s : State), f.val ≠ 0 → s.fnExists f = true ∧ s.fnDrains f = false →
    s.outCheck f (bar2Slot off).1 permWRITE (bar2Slot off).2 x.size = none → Completes (.bar2Store h f off v x) s fun t =>
      t.hart h = { s.hart h with mode := x.priv, lcofi := (t.hart h).lcofi, out := .done } ∧ s.OnlyHart h t ∧
      t.get (R.XCE_VF_WIN_FAULTS_STORES_DROPPED f) = satAdd (R.XCE_VF_WIN_FAULTS_STORES_DROPPED f).w (s.get
        (R.XCE_VF_WIN_FAULTS_STORES_DROPPED f)) 1 ∧
      t.get (R.XCE_VF_WIN_FAULTS_LAST_DETAIL f) = 3 ∧ t.get (R.XCE_VF_WIN_FAULTS_LAST_SLOT f) = (bar2Slot off).1 ∧
      s.OnlyFields (FRef.all (R.rXCE_VF_WIN_FAULTS f) :: countFields h) t ∧ s.Only [.regs, .core] t) ∧
  (∀ (h : Hart) (f : Func) (off v : Nat) (x : Access) (s : State),
    (f.val = 0 ∨ s.fnExists f = false ∨ s.fnDrains f = true ∨ ((s.outCheck f (bar2Slot off).1 permWRITE (bar2Slot off).2 x.size).isSome = true ∧ s.winRoom f = false)) →
    Completes (.bar2Store h f off v x) s fun t =>
      s.Only [] t) ∧
  (∀ (i k : Nat) (s : State), k % 2 = 0 ∧ winReserved 0 s.shadow = false → s.get R.XCE_STATUS_UC_RUNNING = 1 →
    Completes (.xceWinCommit i k) s fun t =>
      t.owinE (i % 16384) = s.shadow ∧ (∀ j, j ≠ i % 16384 → t.owinE j = s.owinE j) ∧
      t.xce = { s.xce with owin := t.xce.owin, tags := t.xce.tags, ops := t.xce.ops } ∧
      t.get R.XCE_WIN_STATUS_COMMITTED = 0 ∧
      t.xce.tags = s.xce.tags.map (fun y => if y.ent = i % 16384 then { y with old := true } else y) ∧
      t.xce.ops.map (fun o => (o.id, o.fn, o.left, o.what)) = s.xce.ops.map (fun o => (o.id, o.fn, o.left, o.what)) ∧
      s.OnlyFields [R.XCE_WIN_STATUS_COMMITTED] t ∧ s.Only [.regs, .xce] t) ∧
  (∀ (i k : Nat) (s : State), k % 2 = 1 ∧ winReserved 1 s.shadow = false → s.get R.XCE_STATUS_UC_RUNNING = 1 →
    Completes (.xceWinCommit i k) s fun t =>
      t.iwinE (i % 16384) = s.shadow ∧ (∀ j, j ≠ i % 16384 → t.iwinE j = s.iwinE j) ∧
      t.xce = { s.xce with iwin := t.xce.iwin, tags := t.xce.tags, ops := t.xce.ops } ∧
      t.get R.XCE_WIN_STATUS_COMMITTED = 0 ∧ t.xce.tags = s.xce.tags ∧
      t.xce.ops.map (fun o => (o.id, o.fn, o.left, o.what)) = s.xce.ops.map (fun o => (o.id, o.fn, o.left, o.what)) ∧
      s.OnlyFields [R.XCE_WIN_STATUS_COMMITTED] t ∧ s.Only [.regs, .xce] t) ∧
  (∀ (i k : Nat) (s : State), winReserved (k % 2) s.shadow = false → s.get R.XCE_STATUS_UC_RUNNING ≠ 1 →
    Completes (.xceWinCommit i k) s fun t =>
      t.xce = { s.xce with commit := s.xce.commit ++ [(k % 2, i % 16384, s.shadow)] } ∧ t.get R.XCE_WIN_STATUS_HELD = 1 ∧
      s.OnlyFields [R.XCE_WIN_STATUS_HELD] t ∧ s.Only [.regs, .xce] t) ∧
  (∀ (s : State),
    s.xce.tags.all (fun y => !y.old || y.quar) = true ∧ s.xce.ops.all (fun o => !o.old) = true ∧ s.xce.commit = [] →
    Completes (.winCommitDrained) s fun t =>
      t.get R.XCE_WIN_STATUS_COMMITTED = 1 ∧ s.OnlyFields [R.XCE_WIN_STATUS_COMMITTED] t ∧ s.Only [.regs] t) ∧
  (∀ (s : State),
    (s.xce.tags.any (fun y => y.old && !y.quar) = true ∨ s.xce.ops.any (fun o => o.old) = true ∨ s.xce.commit ≠ []) →
    Completes (.winCommitDrained) s fun t =>
      s.Only [] t)

/-- A configuration access answers or changes the function's dword, answers all ones where there is no function, and waits
for one that is not ready (spec/11 R264, R266, R272). FLR makes a function drain with its configuration registers,
queue pairs and MSI-X table reset, PF0 its windows too (R280, R281). VF Enable makes and withdraws VFs, held while
others drain; NumVFs says how many, and a VF becomes ready (R272, R283). ATS, Bus Master Enable and a vector's mask
follow their writes, a pending vector being signalled (R274, R277, R279). A translation fills the cache with its
range, or fails the transfer that waits for it; an invalidation empties what it overlaps and completes when no
operation under it is left (R274, R275). A drain ends with its event when nothing is outstanding, or what is
outstanding times out at the limit (R280). Where nothing applies, nothing changes. -/
def Obligations.FunctionCommands : Prop :=
  (∀ (h : Hart) (off n : Nat) (s : State), (n = 1 ∨ n = 2 ∨ n = 4) → off % n = 0 ∧ off / 4096 = ridBRIDGE →
    Completes (.ecamConfigAccess h off n none) s fun t =>
      t.hart h = { s.hart h with out := .value (s.cfgRead off n) } ∧ s.OnlyHart h t ∧ s.Only [.core] t) ∧
  (∀ (h : Hart) (off n : Nat) (f : Nat) (s : State), (n = 1 ∨ n = 2 ∨ n = 4) →
    off % n = 0 ∧ 0x100 ≤ off / 4096 ∧ off / 4096 ≤ 0x900 ∧ f = off / 4096 - 0x100 →
    s.fnExists f = true ∧ s.xce.notReady.contains f = false → Completes (.ecamConfigAccess h off n none) s fun t =>
      t.hart h = { s.hart h with out := .value (s.cfgRead off n) } ∧ s.OnlyHart h t ∧ s.Only [.core] t) ∧
  (∀ (h : Hart) (off n : Nat) (f : Nat) (w : Option Nat) (s : State), (n = 1 ∨ n = 2 ∨ n = 4) →
    off % n = 0 ∧ 0x100 ≤ off / 4096 ∧ off / 4096 ≤ 0x900 ∧ f = off / 4096 - 0x100 →
    s.fnExists f = false ∧ s.xce.notReady.contains f = false → Completes (.ecamConfigAccess h off n w) s fun t =>
      t.hart h = { s.hart h with out := (if w = none then .value (2 ^ (8 * n) - 1) else .done) } ∧ s.OnlyHart h t ∧
      s.Only [.core] t) ∧
  (∀ (h : Hart) (off n : Nat) (f : Nat) (w : Option Nat) (s : State), (n = 1 ∨ n = 2 ∨ n = 4) →
    off % n = 0 ∧ 0x100 ≤ off / 4096 ∧ off / 4096 ≤ 0x900 ∧ f = off / 4096 - 0x100 → s.xce.notReady.contains f = true →
    Completes (.ecamConfigAccess h off n w) s fun t =>
      t.xce = { s.xce with cfgWait := s.xce.cfgWait ++ [((h : Nat), off, n, w)] } ∧ s.Only [.xce] t) ∧
  (∀ (h : Hart) (v : Nat) (s : State), v < 2 ^ 32 → Completes (.ecamConfigAccess h 0xF801C 4 (some v)) s fun t =>
      t.hart h = { s.hart h with out := .done } ∧ s.OnlyHart h t ∧
      t.cfg ridBRIDGE 0x1C = s.cfg ridBRIDGE 0x1C - (s.cfg ridBRIDGE 0x1C &&& (v &&& 0xF9000000)) ∧
      (∀ r o, ¬ (r = ridBRIDGE ∧ o / 4 = 0x1C / 4) → o < 4096 → t.cfg r o = s.cfg r o) ∧
      t.io = { s.io with cfg := t.io.cfg } ∧ s.Only [.core, .io] t) ∧
  (∀ (h : Hart) (off n : Nat) (w : Option Nat) (s : State),
    ((n ≠ 1 ∧ n ≠ 2 ∧ n ≠ 4) ∨ off % n ≠ 0 ∨ (off / 4096 ≠ ridBRIDGE ∧ (off / 4096 < 0x100 ∨ 0xA00 ≤ off / 4096))) →
    Completes (.ecamConfigAccess h off n w) s fun t =>
      s.Only [] t) ∧
  (∀ (f : Func) (s : State), s.fnExists f = true ∧ s.fnDrains f = false → f.val ≠ 0 → Completes (.flr f) s fun t =>
      t.fnDrains f = true ∧ t.cfgBits (xceRid f) 0x78 21 1 = 1 ∧ t.cfgBits (xceRid f) 0x04 2 1 = 0 ∧
      (t.get (R.XCE_FN_DRAINING_DRAINING (f / 64))).testBit (f % 64) = true ∧ t.get (R.XCE_FN_ARB_BALANCE f) = 0 ∧
      (∀ q, q < 8 → (t.qp f q).descs = [] ∧ (t.qp f q).fin = [] ∧ t.qpState f q = qpDISABLED) ∧ t.pba f = 0 ∧
      t.xce = { s.xce with
        drain := t.xce.drain, qps := t.xce.qps, msix := t.xce.msix, pba := t.xce.pba, held := t.xce.held } ∧
      t.xce.drain = f.val :: s.xce.drain ∧ (∀ g q, g ≠ f.val → q < 8 → t.qp g q = s.qp g q) ∧
      s.Only [.regs, .xce, .io, .pass] t) ∧
  (∀ (s : State), s.fnDrains 0 = false ∧ s.vfEnabled = false → Completes (.flr 0) s fun t =>
      t.fnDrains 0 = true ∧ t.get R.XCE_STATUS_PF_DRAINING = 1 ∧
      t.cfgBits ridPF 0x78 21 1 = 1 ∧ t.cfgBits ridPF 0x04 2 1 = 0 ∧ (∀ i, t.owinE i = 0 ∧ t.iwinE i = 0) ∧
      t.xce.tags = s.xce.tags ∧ t.xce.ops = s.xce.ops ∧ t.xce.atc = s.xce.atc ∧ s.Only [.regs, .xce, .io, .pass] t) ∧
  (∀ (f : Func) (s : State), (s.fnExists f = false ∨ s.fnDrains f = true) → Completes (.flr f) s fun t =>
      s.Only [] t) ∧
  (∀ (s : State), s.fnDrains 0 = false ∧ s.vfEnabled = false → s.get R.XCE_VF_STATE_DRAINING = 0 →
    Completes (.vfEnableSet) s fun t =>
      t.vfEnabled = true ∧ t.get R.XCE_VF_STATE_VFS_ENABLED = s.numVfs % 2 ^ R.XCE_VF_STATE_VFS_ENABLED.w ∧
      t.xce = { s.xce with notReady := (List.range s.numVfs).map (· + 1) } ∧
      (∀ r o, ¬ (r = ridPF ∧ o / 4 = 0x158 / 4) → o < 4096 → t.cfg r o = s.cfg r o) ∧ t.io = { s.io with cfg := t.io.cfg } ∧
      s.OnlyFields [R.XCE_VF_STATE_VFS_ENABLED] t ∧ s.Only [.regs, .xce, .io] t) ∧
  (∀ (s : State), s.fnDrains 0 = false ∧ s.vfEnabled = false → s.get R.XCE_VF_STATE_DRAINING = 1 →
    Completes (.vfEnableSet) s fun t =>
      t.get R.XCE_VF_STATE_ENABLE_PENDING = 1 ∧ s.OnlyFields [R.XCE_VF_STATE_ENABLE_PENDING] t ∧ s.Only [.regs] t) ∧
  (∀ (s : State), (s.fnDrains 0 = true ∨ s.vfEnabled = true) → Completes (.vfEnableSet) s fun t =>
      s.Only [] t) ∧
  (∀ (s : State), s.fnDrains 0 = false ∧ s.vfEnabled = true → s.get R.XCE_VF_STATE_DRAINING = 0 →
    0 < s.get R.XCE_VF_STATE_VFS_ENABLED ∧ s.get R.XCE_VF_STATE_VFS_ENABLED ≤ 2048 → Completes (.vfEnableClear) s fun t =>
      t.vfEnabled = false ∧ t.get R.XCE_VF_STATE_VFS_ENABLED = 0 ∧
      t.get R.XCE_VF_STATE_DRAINING = 1 ∧ t.xce.drainVf = true ∧ t.xce.notReady = [] ∧
      (∀ f ≤ s.get R.XCE_VF_STATE_VFS_ENABLED, f = 0 ∨ t.fnDrains f = true) ∧
      t.xce.tags = s.xce.tags ∧ t.xce.ops = s.xce.ops ∧ t.xce.owin = s.xce.owin ∧ t.xce.iwin = s.xce.iwin ∧ t.xce.atc =
        s.xce.atc ∧
      s.Only [.regs, .xce, .io, .pass] t) ∧
  (∀ (s : State), s.fnDrains 0 = false → s.get R.XCE_VF_STATE_DRAINING = 1 → Completes (.vfEnableClear) s fun t =>
      t.get R.XCE_VF_STATE_ENABLE_PENDING = 0 ∧ s.OnlyFields [R.XCE_VF_STATE_ENABLE_PENDING] t ∧ s.Only [.regs] t) ∧
  (∀ (s : State), (s.fnDrains 0 = true ∨ (s.vfEnabled = false ∧ s.get R.XCE_VF_STATE_DRAINING ≠ 1)) →
    Completes (.vfEnableClear) s fun t =>
      s.Only [] t) ∧
  (∀ (v : Nat) (s : State), v ≤ 2048 → s.vfEnabled = false ∧ s.get R.XCE_VF_STATE_DRAINING = 0 ∧ s.fnDrains 0 = false →
    Completes (.numvfsWrite v) s fun t =>
      t.numVfs = v ∧ (∀ r o, ¬ (r = ridPF ∧ o / 4 = 0x160 / 4) → o < 4096 → t.cfg r o = s.cfg r o) ∧
      t.io = { s.io with cfg := t.io.cfg } ∧ s.Only [.io] t) ∧
  (∀ (v : Nat) (s : State), v ≤ 2048 → (s.vfEnabled = true ∨ s.get R.XCE_VF_STATE_DRAINING = 1 ∨ s.fnDrains 0 = true) →
    Completes (.numvfsWrite v) s fun t =>
      s.Only [] t) ∧
  (∀ (f : Func) (s : State), s.xce.notReady.contains f.val = true → s.xce.cfgWait = [] → Completes (.vfReady f) s fun t =>
      t.xce = { s.xce with notReady := s.xce.notReady.erase f.val } ∧ s.Only [.xce] t) ∧
  (∀ (f : Func) (h n : Nat) (s : State), s.xce.notReady = [f.val] ∧ s.fnExists f = true ∧ h < 384 →
    s.xce.cfgWait = [(h, (0x100 + f.val) * 4096, n, none)] → Completes (.vfReady f) s fun t =>
      t.hart h = { s.hart h with out := .value (s.cfgRead ((0x100 + f.val) * 4096) n) } ∧
      t.xce = { s.xce with notReady := [], cfgWait := [] } ∧ s.OnlyHart h t ∧ s.Only [.core, .xce] t) ∧
  (∀ (f : Func) (s : State), s.xce.notReady.contains f.val = false → Completes (.vfReady f) s fun t =>
      s.Only [] t) ∧
  (∀ (f : Func) (s : State), s.fnExists f = true ∧ s.fnDrains f = false → Completes (.atsEnableClear f) s fun t =>
      t.atsOn f = false ∧ t.xce = { s.xce with atc := s.xce.atc.filter (fun e => e.fn != f.val) } ∧
      t.get R.XCE_ATC_OCCUPANCY_ENTRIES_VALID = t.xce.atc.length % 2 ^ (R.XCE_ATC_OCCUPANCY_ENTRIES_VALID).w ∧
      (∀ r o, ¬ (r = xceRid f ∧ o / 4 = (if f.val = 0 then 0x194 else 0x104) / 4) → o < 4096 → t.cfg r o = s.cfg r o) ∧
      t.io = { s.io with cfg := t.io.cfg } ∧ s.OnlyFields [R.XCE_ATC_OCCUPANCY_ENTRIES_VALID] t ∧
      s.Only [.regs, .xce, .io] t) ∧
  (∀ (f : Func) (s : State), (s.fnExists f = false ∨ s.fnDrains f = true) → Completes (.atsEnableClear f) s fun t =>
      s.Only [] t) ∧
  (∀ (f : Func) (s : State), s.fnExists f = true ∧ s.fnDrains f = false → Completes (.busMasterEnableWrite f false) s fun t =>
      t.cfgBits (xceRid f) 0x04 2 1 = 0 ∧ (∀ r o, ¬ (r = xceRid f ∧ o / 4 = 0x04 / 4) → o < 4096 → t.cfg r o = s.cfg r o) ∧
      t.io = { s.io with cfg := t.io.cfg } ∧ s.Only [.io] t) ∧
  (∀ (f : Func) (s : State), s.fnExists f = true ∧ s.fnDrains f = false →
    Tbl.get (fun _ => 0) s.xce.held f = 0 ∧ s.pba f = 0 → Completes (.busMasterEnableWrite f true) s fun t =>
      t.cfgBits (xceRid f) 0x04 2 1 = 1 ∧ (∀ r o, ¬ (r = xceRid f ∧ o / 4 = 0x04 / 4) → o < 4096 → t.cfg r o = s.cfg r o) ∧
      t.io = { s.io with cfg := t.io.cfg } ∧ t.xce = { s.xce with held := t.xce.held } ∧ s.Only [.xce, .io] t) ∧
  (∀ (f : Func) (s : State), s.fnExists f = true ∧ s.fnDrains f = false → s.cfgBits ridBRIDGE 0x04 2 1 = 0 →
    Completes (.busMasterEnableWrite f true) s fun t =>
      t.cfgBits (xceRid f) 0x04 2 1 = 1 ∧ (∀ r o, ¬ (r = xceRid f ∧ o / 4 = 0x04 / 4) → o < 4096 → t.cfg r o = s.cfg r o) ∧
      t.io = { s.io with cfg := t.io.cfg } ∧ s.Only [.io] t) ∧
  (∀ (f : Func) (b : Bool) (s : State), (s.fnExists f = false ∨ s.fnDrains f = true) →
    Completes (.busMasterEnableWrite f b) s fun t =>
      s.Only [] t) ∧
  (∀ (f : Func) (v : Fin 2048) (s : State), s.fnExists f = true ∧ s.fnDrains f = false →
    v.val < (if f.val = 0 then 64 else 16) → s.pba f = 0 → Completes (.msixVectorUnmask f v) s fun t =>
      t.msixE f v = { s.msixE f v with mask := false } ∧
      (∀ g u, u < 64 → ¬ (g = f.val ∧ u = v.val) → t.msixE g u = s.msixE g u) ∧ t.xce = { s.xce with msix := t.xce.msix } ∧
      s.Only [.xce] t) ∧
  (∀ (f : Func) (v : Fin 2048) (s : State), s.fnExists f = true ∧ s.fnDrains f = false →
    v.val < (if f.val = 0 then 64 else 16) →
    s.pba f = 1 <<< v.val ∧ s.bmeOn f = true ∧ s.msixOn f = true ∧ s.msixMask f = false →
    Completes (.msixVectorUnmask f v) s fun t =>
      t.msixE f v = { s.msixE f v with mask := false } ∧ t.pba f = 0 ∧ s.Only [.regs, .net, .free, .pass, .xce, .io] t) ∧
  (∀ (f : Func) (v : Fin 2048) (s : State),
    (s.fnExists f = false ∨ s.fnDrains f = true ∨ (if f.val = 0 then 64 else 16) ≤ v.val) →
    Completes (.msixVectorUnmask f v) s fun t =>
      s.Only [] t) ∧
  (∀ (f : Func) (p ga k : Nat) (a b : Bool) (s : State), s.fnExists f = true ∧ s.fnDrains f = false → s.atsOn f = true →
    Completes (.translationCompletion f p (.to ga k a b)) s fun t =>
      t.xce.atc.head? = some ⟨f, p * 4096 / 2 ^ (12 + k) * 2 ^ (12 + k), 2 ^ (12 + k), ga / 2 ^ (12 + k) * 2 ^ (12 + k), a,
        b⟩ ∧
      (∀ e ∈ t.xce.atc, e ∈ s.xce.atc ∨ t.xce.atc.head? = some e) ∧ t.xce = { s.xce with atc := t.xce.atc } ∧
      t.get R.XCE_ATC_OCCUPANCY_ENTRIES_VALID = t.xce.atc.length % 2 ^ (R.XCE_ATC_OCCUPANCY_ENTRIES_VALID).w ∧
      s.OnlyFields (R.XCE_ATC_OCCUPANCY_ENTRIES_VALID :: eventFields) t ∧ s.Only [.regs, .xce, .pass] t) ∧
  (∀ (f : Func) (p : Nat) (x : Xlate) (s : State), (s.fnExists f = false ∨ s.fnDrains f = true ∨ s.atsOn f = false) →
    Completes (.translationCompletion f p x) s fun t =>
      s.Only [] t) ∧
  (∀ (f : Func) (p q n : Nat) (d : XDesc) (s : State), s.fnExists f = true ∧ s.fnDrains f = false → s.atsOn f = true →
    s.waitsFor f p = some (q, d, n) → d.total ≤ d.next + n ∧ d.live = 0 ∧ d.fail = none ∧ s.get (R.QP_CTL_MODE f q) = 0 →
    (s.qp f q).descs = [d] → Completes (.translationCompletion f p .fault) s fun t =>
      (t.qp f q).descs = [] ∧
      (t.qp f q).fin = (s.qp f q).fin ++ [⟨d.pos, d.entry q (some (d.next, 4, 5)), decide (d.b 1 1 % 2 = 1), false, (d.rcid,
        d.mcid)⟩] ∧
      s.OnlyQp f q t ∧ s.Only [.regs, .net, .free, .pass, .meter, .xce, .io] t) ∧
  (∀ (f : Func) (i b n : Nat) (s : State), s.fnExists f = true ∧ s.atsOn f = true →
    Completes (.invalidateRequest f i b n) s fun t =>
      t.xce = { s.xce with
        atc := s.xce.atc.filter (fun e => !(e.fn == f.val && decide (e.base < b + n) && decide (b < e.base +
          e.size))), inv := s.xce.inv ++ [(f.val, i, (s.fnOps f none).map (fun o => o.id))] } ∧
      t.get R.XCE_ATC_OCCUPANCY_ENTRIES_VALID = t.xce.atc.length % 2 ^ (R.XCE_ATC_OCCUPANCY_ENTRIES_VALID).w ∧
      s.OnlyFields [R.XCE_ATC_OCCUPANCY_ENTRIES_VALID] t ∧ s.Only [.regs, .xce] t) ∧
  (∀ (f : Func) (i b n : Nat) (s : State), (s.fnExists f = false ∨ s.atsOn f = false) →
    Completes (.invalidateRequest f i b n) s fun t =>
      t.xce = { s.xce with invDone := s.xce.invDone ++ [(f.val, i)] } ∧
      t.get R.XCE_ATC_STATS_INVALIDATIONS = satAdd R.XCE_ATC_STATS_INVALIDATIONS.w (s.get R.XCE_ATC_STATS_INVALIDATIONS) 1 ∧
      s.OnlyFields [R.XCE_ATC_STATS_INVALIDATIONS] t ∧ s.Only [.regs, .xce] t) ∧
  (∀ (f : Func) (i : Nat) (l : List Nat) (s : State), s.xce.inv = [(f.val, i, l)] → (∀ x ∈ l, s.xop x = none) →
    Completes (.invalidationComplete f i) s fun t =>
      t.xce = { s.xce with inv := [], invDone := s.xce.invDone ++ [(f.val, i)] } ∧
      t.get R.XCE_ATC_STATS_INVALIDATIONS = satAdd R.XCE_ATC_STATS_INVALIDATIONS.w (s.get R.XCE_ATC_STATS_INVALIDATIONS) 1 ∧
      s.OnlyFields [R.XCE_ATC_STATS_INVALIDATIONS] t ∧ s.Only [.regs, .xce] t) ∧
  (∀ (f : Func) (i : Nat) (l : List Nat) (s : State), s.xce.inv = [(f.val, i, l)] → l.any (fun x => (s.xop x).isSome) = true →
    Completes (.invalidationComplete f i) s fun t =>
      s.Only [] t) ∧
  (∀ (f : Func) (i : Nat) (s : State), s.xce.inv.any (fun e => e.1 == f.val && e.2.1 == i) = false →
    Completes (.invalidationComplete f i) s fun t =>
      s.Only [] t) ∧
  (∀ (f : Func) (s : State), s.fnDrains f = true ∧ s.drained f none = true → f.val ≠ 0 ∧ s.xce.drainVf = false →
    (s.get R.XCE_EVENT_EN_ENABLE).testBit 0 = false → Completes (.fnDrainComplete f) s fun t =>
      t.fnDrains f = false ∧ (t.reg R.rXCE_EVENT).toNat.testBit 0 = true ∧ t.cfgBits (xceRid f) 0x78 21 1 = 0 ∧
      t.xce.atc = s.xce.atc.filter (fun e => e.fn != f.val) ∧ t.xce.inv = s.xce.inv.filter (fun e => e.1 != f.val) ∧
      (t.get (R.XCE_FN_DRAINING_DRAINING (f / 64))).testBit (f % 64) = false ∧
      t.xce.qps = s.xce.qps ∧ t.xce.tags = s.xce.tags ∧ t.xce.ops = s.xce.ops ∧
      s.OnlyFields [FRef.all (R.rXCE_FN_DRAINING (f / 64)), R.XCE_ATC_STATS_INVALIDATIONS,
        R.XCE_ATC_OCCUPANCY_ENTRIES_VALID, FRef.all R.rXCE_EVENT] t ∧
      s.Only [.regs, .xce, .io] t) ∧
  (∀ (s : State), s.fnDrains 0 = true ∧ s.drained 0 none = true → (s.get R.XCE_EVENT_EN_ENABLE).testBit 0 = false →
    Completes (.fnDrainComplete 0) s fun t =>
      t.fnDrains 0 = false ∧ t.get R.XCE_STATUS_PF_DRAINING = 0 ∧ (t.reg R.rXCE_EVENT).toNat.testBit 0 = true ∧
      t.cfgBits ridPF 0x78 21 1 = 0 ∧ s.Only [.regs, .xce, .io] t) ∧
  (∀ (f : Func) (s : State), s.fnDrains f = true ∧ s.drained f none = true → f.val ≠ 0 ∧ s.xce.drainVf = true →
    (s.xce.drain.filter (fun g => g != f.val)).all (fun g => g == 0) = true ∧ s.xce.merged = [] ∧ s.get R.XCE_VF_STATE_ENABLE_PENDING = 0 →
    (s.get R.XCE_EVENT_EN_ENABLE).testBit 1 = false → Completes (.fnDrainComplete f) s fun t =>
      t.fnDrains f = false ∧ t.get R.XCE_VF_STATE_DRAINING = 0 ∧ t.xce.drainVf = false ∧
      (t.reg R.rXCE_EVENT).toNat.testBit 1 = true ∧ s.Only [.regs, .xce, .io] t) ∧
  (∀ (f : Func) (s : State), (s.fnDrains f = false ∨ s.drained f none = false) → Completes (.fnDrainComplete f) s fun t =>
      s.Only [] t) ∧
  (∀ (f : Func) (x : XTag) (k : Nat) (s : State), s.fnDrains f = true →
    s.xce.ops = [] ∧ s.xce.tags = [x] ∧ x.fn = f ∧ x.quar = false ∧ x.np = false ∧ x.why = .store k →
    (s.get R.XCE_EVENT_EN_ENABLE).testBit 2 = false → Completes (.drainLimitExpiry f) s fun t =>
      t.xce.tags = [{ x with quar := true }] ∧ (t.reg R.rXCE_EVENT).toNat.testBit 2 = true ∧
      t.get (R.XCE_VF_WIN_FAULTS_STORES_DROPPED f) = satAdd (R.XCE_VF_WIN_FAULTS_STORES_DROPPED f).w (s.get
        (R.XCE_VF_WIN_FAULTS_STORES_DROPPED f)) 1 ∧
      t.get (R.XCE_VF_WIN_FAULTS_LAST_DETAIL f) = 12 ∧
      s.OnlyFields (FRef.all (R.rXCE_VF_WIN_FAULTS f) :: FRef.all R.rXCE_EVENT :: eventFields) t ∧
      s.Only [.regs, .xce, .pass] t) ∧
  (∀ (f : Func) (s : State), s.fnDrains f = true ∧ s.drained f none = true → Completes (.drainLimitExpiry f) s fun t =>
      s.Only [] t) ∧
  (∀ (f : Func) (s : State), s.fnDrains f = false → (List.range 8).all (fun q => s.qpState f q != qpSTOPPING) = true →
    Completes (.drainLimitExpiry f) s fun t =>
      s.Only [] t)

/-- A doorbell within its ring sets the index, and one beyond it stops the queue pair (spec/12 R286, R287); enabling makes
a queue pair ACTIVE with every index at zero, or ERROR with bad sizes or vector; disabling squashes its work until it
has drained (R287, R307). A fetch reads the descriptors at the head where it is the queue pair's turn and the function
has balance (R305); the oldest completion entry is written at the CQ tail with its phase, under the identifiers of its
descriptor (R292, R294), and lost after a completion write fault (R287). The timer signals what was not signalled:
held while Bus Master Enable is 0, pending while masked (R294, spec/11 R277, R279). An epoch shares its bytes among
the functions that want them by weight and cap, and stops those of weight 0 (R305). Where nothing applies, nothing
changes. A fetch is stated for one descriptor, a write for one line, with nothing else of the engine under way. -/
def Obligations.QueueCommands : Prop :=
  (∀ (f : Func) (q : Fin 8) (v : Nat) (s : State), s.qpTakes f q = true →
    ringUse (v % 2 ^ 32) (s.get (R.QP_SQ_HEAD_INDEX f q)) ≤ 2 ^ s.get (R.QP_SIZES_SQ_LOG2 f q) →
    Completes (.qpSqDb f q v) s fun t =>
      t.get (R.QP_SQ_DB_INDEX f q) = v % 2 ^ 32 ∧ s.OnlyFields [R.QP_SQ_DB_INDEX f q] t ∧ s.Only [.regs] t) ∧
  (∀ (f : Func) (q : Fin 8) (v : Nat) (s : State), s.qpTakes f q = true →
    2 ^ s.get (R.QP_SIZES_SQ_LOG2 f q) < ringUse (v % 2 ^ 32) (s.get (R.QP_SQ_HEAD_INDEX f q)) →
    Completes (.qpSqDb f q v) s fun t =>
      t.qpState f q = qpERROR ∧ t.get (R.QP_STATUS_CAUSE f q) = 1 ∧
      s.OnlyFields [R.QP_STATUS_STATE f q, R.QP_STATUS_CAUSE f q] t ∧ s.Only [.regs] t) ∧
  (∀ (f : Func) (q : Fin 8) (v : Nat) (s : State), s.qpTakes f q = false → Completes (.qpSqDb f q v) s fun t =>
      s.Only [] t) ∧
  (∀ (f : Func) (q : Fin 8) (v : Nat) (s : State), s.qpTakes f q = true →
    ringUse (s.get (R.QP_CQ_TAIL_INDEX f q)) (v % 2 ^ 32) ≤ s.cqSize f q → Completes (.qpCqDb f q v) s fun t =>
      t.get (R.QP_CQ_DB_INDEX f q) = v % 2 ^ 32 ∧ s.OnlyFields [R.QP_CQ_DB_INDEX f q] t ∧ s.Only [.regs] t) ∧
  (∀ (f : Func) (q : Fin 8) (v : Nat) (s : State), s.qpTakes f q = true →
    s.cqSize f q < ringUse (s.get (R.QP_CQ_TAIL_INDEX f q)) (v % 2 ^ 32) → Completes (.qpCqDb f q v) s fun t =>
      t.qpState f q = qpERROR ∧ t.get (R.QP_STATUS_CAUSE f q) = 1 ∧
      s.OnlyFields [R.QP_STATUS_STATE f q, R.QP_STATUS_CAUSE f q] t ∧ s.Only [.regs] t) ∧
  (∀ (f : Func) (q : Fin 8) (v : Nat) (s : State), s.qpTakes f q = false → Completes (.qpCqDb f q v) s fun t =>
      s.Only [] t) ∧
  (∀ (f : Func) (q : Fin 8) (v : Nat) (s : State), s.qpTakes f q = true →
    ringUse (v % 2 ^ 32) (s.get (R.QP_RQ_HEAD_INDEX f q)) ≤ 2 ^ s.get (R.QP_SIZES_RQ_LOG2 f q) →
    Completes (.qpRqDb f q v) s fun t =>
      t.get (R.QP_RQ_DB_INDEX f q) = v % 2 ^ 32 ∧ s.OnlyFields [R.QP_RQ_DB_INDEX f q] t ∧ s.Only [.regs] t) ∧
  (∀ (f : Func) (q : Fin 8) (v : Nat) (s : State), s.qpTakes f q = true →
    2 ^ s.get (R.QP_SIZES_RQ_LOG2 f q) < ringUse (v % 2 ^ 32) (s.get (R.QP_RQ_HEAD_INDEX f q)) →
    Completes (.qpRqDb f q v) s fun t =>
      t.qpState f q = qpERROR ∧ t.get (R.QP_STATUS_CAUSE f q) = 1 ∧
      s.OnlyFields [R.QP_STATUS_STATE f q, R.QP_STATUS_CAUSE f q] t ∧ s.Only [.regs] t) ∧
  (∀ (f : Func) (q : Fin 8) (v : Nat) (s : State), s.qpTakes f q = false → Completes (.qpRqDb f q v) s fun t =>
      s.Only [] t) ∧
  (∀ (f : Func) (q : Fin 8) (s : State), s.fnExists f = true ∧ s.fnDrains f = false → s.qpState f q = qpDISABLED →
    s.qpGood f q → Completes (.qpEnable f q) s fun t =>
      t.qpState f q = qpACTIVE ∧ t.get (R.QP_STATUS_CAUSE f q) = 0 ∧ t.get (R.QP_CTL_ENABLE f q) = 1 ∧
      t.get (R.QP_SQ_DB_INDEX f q) = 0 ∧ t.get (R.QP_CQ_DB_INDEX f q) = 0 ∧ t.get (R.QP_RQ_DB_INDEX f q) = 0 ∧ t.get
        (R.QP_SQ_HEAD_INDEX f q) = 0 ∧ t.get (R.QP_CQ_TAIL_INDEX f q) = 0 ∧ t.get (R.QP_RQ_HEAD_INDEX f q) = 0 ∧
      t.qp f q = {} ∧ s.OnlyQp f q t ∧ t.xce = { s.xce with qps := t.xce.qps } ∧
      s.OnlyFields [R.QP_SQ_DB_INDEX f q, R.QP_CQ_DB_INDEX f q, R.QP_RQ_DB_INDEX f q, R.QP_SQ_HEAD_INDEX f q,
        R.QP_CQ_TAIL_INDEX f q, R.QP_RQ_HEAD_INDEX f q, R.QP_STATUS_STATE f q, R.QP_STATUS_CAUSE f q, R.QP_CTL_ENABLE
        f q] t ∧
      s.Only [.regs, .xce] t) ∧
  (∀ (f : Func) (q : Fin 8) (s : State), s.fnExists f = true ∧ s.fnDrains f = false → s.qpState f q = qpDISABLED →
    ¬ s.qpGood f q → Completes (.qpEnable f q) s fun t =>
      t.qpState f q = qpERROR ∧ t.get (R.QP_STATUS_CAUSE f q) = 5 ∧ t.get (R.QP_CTL_ENABLE f q) = 1 ∧
      s.OnlyFields [R.QP_STATUS_STATE f q, R.QP_STATUS_CAUSE f q, R.QP_CTL_ENABLE f q] t ∧ s.Only [.regs] t) ∧
  (∀ (f : Func) (q : Fin 8) (s : State), (s.fnExists f = false ∨ s.fnDrains f = true ∨ s.qpState f q ≠ qpDISABLED) →
    Completes (.qpEnable f q) s fun t =>
      s.Only [] t) ∧
  (∀ (f : Func) (q : Fin 8) (s : State), s.fnExists f = true ∧ s.fnDrains f = false →
    (s.qpState f q = qpACTIVE ∨ s.qpState f q = qpERROR) → Completes (.qpDisable f q) s fun t =>
      t.qpState f q = qpSTOPPING ∧ t.get (R.QP_CTL_ENABLE f q) = 0 ∧
      t.qp f q = { s.qp f q with descs := [], fin := [], rsv := 0, failed := false } ∧ s.OnlyQp f q t ∧
      t.xce = { s.xce with qps := t.xce.qps } ∧ s.OnlyFields [R.QP_STATUS_STATE f q, R.QP_CTL_ENABLE f q] t ∧
      s.Only [.regs, .xce] t) ∧
  (∀ (f : Func) (q : Fin 8) (s : State),
    (s.fnExists f = false ∨ s.fnDrains f = true ∨ (s.qpState f q ≠ qpACTIVE ∧ s.qpState f q ≠ qpERROR)) →
    Completes (.qpDisable f q) s fun t =>
      s.Only [] t) ∧
  (∀ (f : Func) (q : Fin 8) (s : State), s.qpState f q = qpSTOPPING ∧ s.drained f (some q) = true →
    Completes (.qpDrainComplete f q) s fun t =>
      t.qpState f q = qpDISABLED ∧
      t.get (R.QP_SQ_DB_INDEX f q) = 0 ∧ t.get (R.QP_CQ_DB_INDEX f q) = 0 ∧ t.get (R.QP_RQ_DB_INDEX f q) = 0 ∧ t.get
        (R.QP_SQ_HEAD_INDEX f q) = 0 ∧ t.get (R.QP_CQ_TAIL_INDEX f q) = 0 ∧ t.get (R.QP_RQ_HEAD_INDEX f q) = 0 ∧
      t.qp f q = {} ∧ s.OnlyQp f q t ∧ t.xce = { s.xce with qps := t.xce.qps } ∧
      s.OnlyFields [R.QP_SQ_DB_INDEX f q, R.QP_CQ_DB_INDEX f q, R.QP_RQ_DB_INDEX f q, R.QP_SQ_HEAD_INDEX f q,
        R.QP_CQ_TAIL_INDEX f q, R.QP_RQ_HEAD_INDEX f q, R.QP_STATUS_STATE f q] t ∧
      s.Only [.regs, .xce] t) ∧
  (∀ (f : Func) (q : Fin 8) (s : State), (s.qpState f q ≠ qpSTOPPING ∨ s.drained f (some q) = false) →
    Completes (.qpDrainComplete f q) s fun t =>
      s.Only [] t) ∧
  (∀ (f : Func) (q : Fin 8) (ga pa : Nat) (s : State),
    s.get R.XCE_STATUS_ENGINE_READY = 1 ∧ s.fetchTurn f q = true ∧ 0 < s.fnBalance f ∧ s.xce.stopped.contains f.val = false →
    s.fetchMany f q = 1 → s.XceIdle → s.OneLine f (s.get (R.QP_SQ_BASE_BASE f q) * 4096 + s.fetchSlot f q * 64) 64 ga pa →
    Completes (.descriptorFetch f q (.to ga)) s fun t =>
      t.qp f q = { s.qp f q with fetching := true } ∧ s.OnlyQp f q t ∧ Tbl.get (fun _ => 7) t.xce.turn f = q ∧
      (∀ g : Nat, g ≠ f → Tbl.get (fun _ => 7) t.xce.turn g = Tbl.get (fun _ => 7) s.xce.turn g) ∧
      s.Begins f (.fetch q 1) (s.fnIds f) 0 (pa % 64) 64 (readMsg (s.fnIds f) pa) t ∧
      t.xce = { s.xce with ops := t.xce.ops, nextOp := t.xce.nextOp, qps := t.xce.qps, turn := t.xce.turn } ∧
      s.OnlyFields (eventFields) t ∧ s.Only [.regs, .net, .xce, .io, .pass] t) ∧
  (∀ (f : Func) (q : Fin 8) (x : Xlate) (s : State),
    (s.get R.XCE_STATUS_ENGINE_READY ≠ 1 ∨ s.fetchTurn f q = false ∨ s.fnBalance f ≤ 0 ∨ s.xce.stopped.contains f.val = true) →
    Completes (.descriptorFetch f q x) s fun t =>
      s.Only [] t) ∧
  (∀ (f : Func) (q : Fin 8) (e : XFin) (ga pa : Nat) (s : State),
    (s.qpState f q = qpACTIVE ∨ (s.qpState f q = qpERROR ∧ s.get (R.QP_STATUS_CAUSE f q) ≠ 4)) →
    (s.qp f q).fin.head? = some e ∧ (s.qp f q).writing = false →
    s.bmeOn f = true ∧ s.fnDrains f = false ∧ s.cqUsed f q < s.cqSize f q → s.XceIdle →
    s.OneLine f (s.get (R.QP_CQ_BASE_BASE f q) * 4096 + s.get (R.QP_CQ_TAIL_INDEX f q) % s.cqSize f q * 16) 16 ga pa →
    Completes (.descriptorComplete f q (.to ga)) s fun t =>
      t.qp f q = { s.qp f q with writing := true } ∧ s.OnlyQp f q t ∧
      s.Begins f (.entry q e.irq e.recv) e.ids (qpStream f q) (pa % 64) 16 (writeMsg e.ids 1 pa 16 (e.val + (if s.get
        (R.QP_CQ_TAIL_INDEX f q) / s.cqSize f q % 2 = 0 then 2 ^ 127 else 0))) t ∧
      t.xce = { s.xce with ops := t.xce.ops, nextOp := t.xce.nextOp, qps := t.xce.qps } ∧ s.OnlyFields (eventFields) t ∧
      s.Only [.regs, .net, .xce, .io, .pass] t) ∧
  (∀ (f : Func) (q : Fin 8) (x : Xlate) (s : State), s.qpState f q = qpERROR ∧ s.get (R.QP_STATUS_CAUSE f q) = 4 →
    Completes (.descriptorComplete f q x) s fun t =>
      t.qp f q = { s.qp f q with fin := [] } ∧ s.OnlyQp f q t ∧ t.xce = { s.xce with qps := t.xce.qps } ∧ s.Only [.xce] t) ∧
  (∀ (f : Func) (q : Fin 8) (x : Xlate) (s : State), ¬ (s.qpState f q = qpERROR ∧ s.get (R.QP_STATUS_CAUSE f q) = 4) →
    ((s.qpState f q ≠ qpACTIVE ∧ s.qpState f q ≠ qpERROR) ∨ (s.qp f q).fin = [] ∨ (s.qp f q).writing = true ∨ s.bmeOn f = false ∨ s.cqSize f q ≤ s.cqUsed f q ∨ s.fnDrains f = true) →
    Completes (.descriptorComplete f q x) s fun t =>
      s.Only [] t) ∧
  (∀ (f : Func) (q : Fin 8) (s : State), 0 < (s.qp f q).unsig →
    s.get (R.QP_IRQ_TIME f q) ≠ 0 ∧ s.get (R.QP_IRQ_ENABLE f q) = 1 → s.bmeOn f = false →
    Completes (.cqIrqTimer f q) s fun t =>
      t.qp f q = { s.qp f q with unsig := 0 } ∧ s.OnlyQp f q t ∧
      Tbl.get (fun _ => 0) t.xce.held f = setBits (Tbl.get (fun _ => 0) s.xce.held f) (s.get (R.QP_IRQ_VECTOR f q)) 1 1 ∧
      (∀ g : Nat, g ≠ f → Tbl.get (fun _ => 0) t.xce.held g = Tbl.get (fun _ => 0) s.xce.held g) ∧
      t.xce = { s.xce with qps := t.xce.qps, held := t.xce.held } ∧ s.Only [.xce] t) ∧
  (∀ (f : Func) (q : Fin 8) (s : State), 0 < (s.qp f q).unsig →
    s.get (R.QP_IRQ_TIME f q) ≠ 0 ∧ s.get (R.QP_IRQ_ENABLE f q) = 1 →
    s.bmeOn f = true ∧ s.msixOn f = true ∧ s.msixClear f (s.get (R.QP_IRQ_VECTOR f q)) = false →
    Completes (.cqIrqTimer f q) s fun t =>
      t.qp f q = { s.qp f q with unsig := 0 } ∧ s.OnlyQp f q t ∧
      t.pba f = setBits (s.pba f) (s.get (R.QP_IRQ_VECTOR f q)) 1 1 ∧ (∀ g : Nat, g ≠ f → t.pba g = s.pba g) ∧
      t.xce = { s.xce with qps := t.xce.qps, pba := t.xce.pba } ∧ s.Only [.xce] t) ∧
  (∀ (f : Func) (q : Fin 8) (v : Nat) (s : State), 0 < (s.qp f q).unsig →
    s.get (R.QP_IRQ_TIME f q) ≠ 0 ∧ s.get (R.QP_IRQ_ENABLE f q) = 1 → v = s.get (R.QP_IRQ_VECTOR f q) →
    s.bmeOn f = true ∧ s.msixOn f = true ∧ s.msixClear f v = true → Completes (.cqIrqTimer f q) s fun t =>
      t.qp f q = { s.qp f q with unsig := 0 } ∧ s.OnlyQp f q t ∧
      t.net = (s.xceMsi f (s.msixE f v).addr (s.msixE f v).data).net ∧ t.regs = (s.xceMsi f (s.msixE f v).addr (s.msixE f
        v).data).regs ∧
      t.xce = { s.xce with qps := t.xce.qps } ∧ s.Only [.regs, .net, .free, .core, .pass, .ras, .tvx, .xce, .io] t) ∧
  (∀ (f : Func) (q : Fin 8) (s : State),
    ((s.qp f q).unsig = 0 ∨ s.get (R.QP_IRQ_TIME f q) = 0 ∨ s.get (R.QP_IRQ_ENABLE f q) ≠ 1) →
    Completes (.cqIrqTimer f q) s fun t =>
      s.Only [] t) ∧
  (∀ (n : Nat) (s : State), s.wanting = [0] →
    (n = (if s.get (R.XCE_FN_SHARE_CAP 0) = 0 ∨ 1600000 < s.get (R.XCE_FN_SHARE_CAP 0) * 1000 then 1600000 else s.get (R.XCE_FN_SHARE_CAP 0) * 1000)) →
    Completes (.xceArbEpoch) s fun t =>
      t.get (R.XCE_FN_ARB_BALANCE 0) = unsigned 40 (min (s.fnBalance 0 + n) (2 * n)) ∧
      t.xce.stopped = (List.range 2049).filter (fun g => s.fnExists g && s.get (R.XCE_FN_SHARE_WEIGHT g) == 0) ∧
      t.xce = { s.xce with stopped := t.xce.stopped } ∧ s.OnlyFields [R.XCE_FN_ARB_BALANCE 0] t ∧ s.Only [.regs, .xce] t) ∧
  (∀ (f : Func) (n : Nat) (s : State), s.wanting.contains f.val = true → (∀ g ∈ s.wanting, s.get (R.XCE_FN_SHARE_CAP g) = 0) →
    n = 1600000 * s.get (R.XCE_FN_SHARE_WEIGHT f) / (s.wanting.map (fun g => s.get (R.XCE_FN_SHARE_WEIGHT g))).sum →
    Completes (.xceArbEpoch) s fun t =>
      t.get (R.XCE_FN_ARB_BALANCE f) = unsigned 40 (min (s.fnBalance f + n) (2 * n)) ∧
      t.xce.stopped = (List.range 2049).filter (fun g => s.fnExists g && s.get (R.XCE_FN_SHARE_WEIGHT g) == 0) ∧
      t.xce = { s.xce with stopped := t.xce.stopped } ∧ s.OnlyFields (s.wanting.map (fun g => R.XCE_FN_ARB_BALANCE g)) t ∧
      s.Only [.regs, .xce] t) ∧
  (∀ (s : State), s.wanting = [] → Completes (.xceArbEpoch) s fun t =>
      t.xce.stopped = (List.range 2049).filter (fun g => s.fnExists g && s.get (R.XCE_FN_SHARE_WEIGHT g) == 0) ∧
      t.xce = { s.xce with stopped := t.xce.stopped } ∧ s.Only [.xce] t)

/-- The next descriptor of a queue pair, once it may start (spec/12 R289, R294, R296, R297), does its work in its own row:
NOP and FENCE complete; COPY_LOCAL reads its source; PUT and SEND read the source of the next piece, and GET and
ATOMIC send the next request, under the lowest free tag, through the outbound entry that the check finds (R289, R291,
R301). A check that fails, a page that does not translate, and an illegal descriptor complete it with their status
(R290, R293, R301); in STRICT mode that stops the queue and the rest complete ABORTED (R297). Another descriptor, one
that may not start yet, or no room for the request changes nothing. Reads of memory are stated for a piece of one line
with nothing else of the engine under way. -/
def Obligations.Descriptors : Prop :=
  (∀ (f : Func) (q : Fin 8) (d : XDesc) (s : State), s.NextDesc f q d 0 → Completes (.nop f q) s fun t =>
      s.Completed f q d none t ∧ s.OnlyQp f q t ∧ t.xce = { s.xce with qps := t.xce.qps } ∧ s.OnlyFields (eventFields) t ∧
      s.Only [.regs, .pass, .xce] t) ∧
  (∀ (f : Func) (q : Fin 8) (d : XDesc) (s : State), s.NextDesc f q d 6 → Completes (.fence f q) s fun t =>
      s.Completed f q d none t ∧ s.OnlyQp f q t ∧ t.xce = { s.xce with qps := t.xce.qps } ∧ s.OnlyFields (eventFields) t ∧
      s.Only [.regs, .pass, .xce] t) ∧
  (∀ (f : Func) (q : Fin 8) (d : XDesc) (ga pa : Nat) (l : List Xlate) (s : State), s.NextDesc f q d 1 → s.XceIdle →
    s.OneLine f (d.b 16 8) d.length ga pa → Completes (.copyLocal f q [.to ga] l) s fun t =>
      s.PieceOut f q d d.total t ∧ s.OnlyQp f q t ∧
      s.Begins f (.copyRd q d.pos l) (d.rcid, d.mcid) 0 (pa % 64) d.length (readMsg (d.rcid, d.mcid) pa) t ∧
      t.xce = { s.xce with ops := t.xce.ops, nextOp := t.xce.nextOp, qps := t.xce.qps } ∧ s.OnlyFields (eventFields) t ∧
      s.Only [.regs, .net, .xce, .io, .pass] t) ∧
  (∀ (f : Func) (q : Fin 8) (d : XDesc) (ga pa i : Nat) (s : State), s.NextDesc f q d 2 → s.winRoom f = true → s.XceIdle →
    s.outCheck f (d.b 12 2) permWRITE d.piece.1 d.piece.2 = some i → s.OneLine f (d.b 16 8 + d.next) d.piece.2 ga pa →
    Completes (.put f q [.to ga]) s fun t =>
      s.PieceOut f q d d.piece.2 t ∧ s.OnlyQp f q t ∧
      s.Begins f (.source q d.pos d.next i (s.winMsg f i vcPOST 0 d.piece.1 d.piece.2 (d.rcid, d.mcid))) (d.rcid, d.mcid) 0
        (pa % 64) d.piece.2 (readMsg (d.rcid, d.mcid) pa) t ∧
      t.xce = { s.xce with ops := t.xce.ops, nextOp := t.xce.nextOp, qps := t.xce.qps } ∧ s.OnlyFields (eventFields) t ∧
      s.Only [.regs, .net, .xce, .io, .pass] t) ∧
  (∀ (f : Func) (q : Fin 8) (d : XDesc) (ga pa i : Nat) (s : State), s.NextDesc f q d 4 → s.winRoom f = true → s.XceIdle →
    s.outCheck f (d.b 12 2) permSEND 0 d.length = some i → s.OneLine f (d.b 16 8) d.length ga pa →
    Completes (.send f q [.to ga]) s fun t =>
      s.PieceOut f q d d.total t ∧ s.OnlyQp f q t ∧
      s.Begins f (.source q d.pos 0 i (s.winMsg f i vcPOST 1 0 d.length (d.rcid, d.mcid))) (d.rcid, d.mcid) 0 (pa % 64)
        d.length (readMsg (d.rcid, d.mcid) pa) t ∧
      t.xce = { s.xce with ops := t.xce.ops, nextOp := t.xce.nextOp, qps := t.xce.qps } ∧ s.OnlyFields (eventFields) t ∧
      s.Only [.regs, .net, .xce, .io, .pass] t) ∧
  (∀ (f : Func) (q : Fin 8) (d : XDesc) (i w : Nat) (s : State), s.NextDesc f q d 3 →
    s.winRoom f = true ∧ s.npRoom f = true ∧ s.freeTag f = some w →
    s.outCheck f (d.b 12 2) permREAD d.piece.1 d.piece.2 = some i → Completes (.get f q) s fun t =>
      s.PieceOut f q d d.piece.2 t ∧ s.OnlyQp f q t ∧
      t.xce.tags = s.xce.tags ++
        [{ fn := f, wtag := w, np := true, len := d.piece.2, ent := i, why := .piece q d.pos d.next }] ∧
      t.hzn = (s.wGo { s.winMsg f i vcNP 0 d.piece.1 d.piece.2 (d.rcid, d.mcid) with wtag := w }).hzn ∧
      t.xce = { s.xce with tags := t.xce.tags, qps := t.xce.qps } ∧ s.OnlyFields (eventFields) t ∧
      s.Only [.regs, .pass, .hzn, .xce] t) ∧
  (∀ (f : Func) (q : Fin 8) (d : XDesc) (i w : Nat) (s : State), s.NextDesc f q d 5 →
    s.winRoom f = true ∧ s.npRoom f = true ∧ s.freeTag f = some w →
    s.outCheck f (d.b 12 2) permATOMIC (d.b 24 8) (4 * 2 ^ bits (d.b 2 1) 4 2) = some i → Completes (.atomic f q) s fun t =>
      s.PieceOut f q d d.total t ∧ s.OnlyQp f q t ∧
      t.xce.tags = s.xce.tags ++ [{ fn := f, wtag := w, np := true, len := 0, ent := i, why := .piece q d.pos 0 }] ∧
      t.hzn = (s.wGo { s.winMsg f i vcNP 1 (d.b 24 8) 0 (d.rcid, d.mcid) with aop := d.b 2 1 % 16, asize := bits (d.b 2 1) 4 2, data := leBytes 32 (d.b 32 32), wtag := w }).hzn ∧
      t.xce = { s.xce with tags := t.xce.tags, qps := t.xce.qps } ∧ s.OnlyFields (eventFields) t ∧
      s.Only [.regs, .pass, .hzn, .xce] t) ∧
  (∀ (f : Func) (q : Fin 8) (d : XDesc) (l : List Xlate) (s : State), s.NextDesc f q d 2 →
    s.winRoom f = true ∧ s.sourcing f q = false → s.outCheck f (d.b 12 2) permWRITE d.piece.1 d.piece.2 = none →
    (s.qp f q).descs = [d] ∧ d.live = 0 ∧ d.fail = none ∧ d.total ≤ d.next + d.piece.2 → s.get (R.QP_CTL_MODE f q) = 0 →
    Completes (.put f q l) s fun t =>
      s.Completed f q d (some (d.next, 3, 3)) t ∧ s.OnlyQp f q t ∧ t.xce = { s.xce with qps := t.xce.qps } ∧
      s.OnlyFields (eventFields) t ∧ s.Only [.regs, .pass, .xce] t) ∧
  (∀ (f : Func) (q : Fin 8) (d : XDesc) (s : State), s.NextDesc f q d 3 → s.winRoom f = true ∧ s.npRoom f = true →
    s.outCheck f (d.b 12 2) permREAD d.piece.1 d.piece.2 = none →
    (s.qp f q).descs = [d] ∧ d.live = 0 ∧ d.fail = none ∧ d.total ≤ d.next + d.piece.2 → s.get (R.QP_CTL_MODE f q) = 0 →
    Completes (.get f q) s fun t =>
      s.Completed f q d (some (d.next, 3, 3)) t ∧ s.OnlyQp f q t ∧ t.xce = { s.xce with qps := t.xce.qps } ∧
      s.OnlyFields (eventFields) t ∧ s.Only [.regs, .pass, .xce] t) ∧
  (∀ (f : Func) (q : Fin 8) (d : XDesc) (l : List Xlate) (s : State), s.NextDesc f q d 4 →
    s.winRoom f = true ∧ s.sourcing f q = false → s.outCheck f (d.b 12 2) permSEND 0 d.length = none →
    (s.qp f q).descs = [d] ∧ d.live = 0 ∧ d.fail = none ∧ d.total ≤ d.next + d.total → s.get (R.QP_CTL_MODE f q) = 0 →
    Completes (.send f q l) s fun t =>
      s.Completed f q d (some (0, 3, 3)) t ∧ s.OnlyQp f q t ∧ t.xce = { s.xce with qps := t.xce.qps } ∧
      s.OnlyFields (eventFields) t ∧ s.Only [.regs, .pass, .xce] t) ∧
  (∀ (f : Func) (q : Fin 8) (d : XDesc) (s : State), s.NextDesc f q d 5 → s.winRoom f = true ∧ s.npRoom f = true →
    s.outCheck f (d.b 12 2) permATOMIC (d.b 24 8) (4 * 2 ^ bits (d.b 2 1) 4 2) = none →
    (s.qp f q).descs = [d] ∧ d.live = 0 ∧ d.fail = none ∧ d.total ≤ d.next + d.total → s.get (R.QP_CTL_MODE f q) = 0 →
    Completes (.atomic f q) s fun t =>
      s.Completed f q d (some (0, 3, 3)) t ∧ s.OnlyQp f q t ∧ t.xce = { s.xce with qps := t.xce.qps } ∧
      s.OnlyFields (eventFields) t ∧ s.Only [.regs, .pass, .xce] t) ∧
  (∀ (f : Func) (q : Fin 8) (d : XDesc) (l : List Xlate) (s : State), s.NextDesc f q d 1 → s.XceIdle → s.atsOn f = false →
    (s.qp f q).descs = [d] ∧ d.live = 0 ∧ d.fail = none ∧ d.total ≤ d.next + d.total → s.get (R.QP_CTL_MODE f q) = 0 →
    0 < d.length → Completes (.copyLocal f q (.fault :: l) []) s fun t =>
      t.qp f q = { s.qp f q with descs := [], fin := (s.qp f q).fin ++ [⟨d.pos, d.entry q (some (0, 4, 5)), decide (d.b 1 1 % 2 = 1), false, (d.rcid, d.mcid)⟩] } ∧
      s.OnlyQp f q t ∧ t.xce.ops = [] ∧ s.Only [.regs, .net, .free, .pass, .meter, .hzn, .xce, .io] t) ∧
  (∀ (f : Func) (q : Fin 8) (d : XDesc) (i : Nat) (l : List Xlate) (s : State), s.NextDesc f q d 2 → s.winRoom f = true →
    s.outCheck f (d.b 12 2) permWRITE d.piece.1 d.piece.2 = some i → s.XceIdle → s.atsOn f = false →
    (s.qp f q).descs = [d] ∧ d.live = 0 ∧ d.fail = none ∧ d.total ≤ d.next + d.piece.2 → s.get (R.QP_CTL_MODE f q) = 0 →
    0 < d.length → Completes (.put f q (.fault :: l)) s fun t =>
      t.qp f q = { s.qp f q with descs := [], fin := (s.qp f q).fin ++ [⟨d.pos, d.entry q (some (d.next, 4, 5)), decide (d.b 1 1 % 2 = 1), false, (d.rcid, d.mcid)⟩] } ∧
      s.OnlyQp f q t ∧ t.xce.ops = [] ∧ s.Only [.regs, .net, .free, .pass, .meter, .hzn, .xce, .io] t) ∧
  (∀ (f : Func) (q : Fin 8) (d : XDesc) (i : Nat) (l : List Xlate) (s : State), s.NextDesc f q d 4 → s.winRoom f = true →
    s.outCheck f (d.b 12 2) permSEND 0 d.length = some i → s.XceIdle → s.atsOn f = false →
    (s.qp f q).descs = [d] ∧ d.live = 0 ∧ d.fail = none ∧ d.total ≤ d.next + d.total → s.get (R.QP_CTL_MODE f q) = 0 →
    0 < d.length → Completes (.send f q (.fault :: l)) s fun t =>
      t.qp f q = { s.qp f q with descs := [], fin := (s.qp f q).fin ++ [⟨d.pos, d.entry q (some (0, 4, 5)), decide (d.b 1 1 % 2 = 1), false, (d.rcid, d.mcid)⟩] } ∧
      s.OnlyQp f q t ∧ t.xce.ops = [] ∧ s.Only [.regs, .net, .free, .pass, .meter, .hzn, .xce, .io] t) ∧
  (∀ (f : Func) (q : Fin 8) (d : XDesc) (s : State), s.BadDesc f q d → s.get (R.QP_CTL_MODE f q) = 0 →
    Completes (.nop f q) s fun t =>
      s.Completed f q d (some (0, 6, 1)) t ∧ s.OnlyQp f q t ∧ t.xce = { s.xce with qps := t.xce.qps } ∧
      s.OnlyFields (eventFields) t ∧ s.Only [.regs, .pass, .xce] t) ∧
  (∀ (f : Func) (q : Fin 8) (d : XDesc) (s : State), s.BadDesc f q d →
    s.get (R.QP_CTL_MODE f q) = 1 ∧ s.qpState f q = qpACTIVE → Completes (.nop f q) s fun t =>
      t.qp f q = { s.qp f q with descs := [], failed := true, fin := (s.qp f q).fin ++ [⟨d.pos, d.entry q (some (0, 6, 1)), decide (d.b 1 1 % 2 = 1), false, (d.rcid, d.mcid)⟩] ++ ((s.qp f q).descs.filter (fun y => y.pos != d.pos)).map (fun y => ⟨y.pos, y.entry q (some (0, 6, 2)), decide (y.b 1 1 % 2 = 1), false, (y.rcid, y.mcid)⟩) } ∧
      t.qpState f q = qpERROR ∧ t.get (R.QP_STATUS_CAUSE f q) = 6 ∧ s.OnlyQp f q t ∧
      t.xce = { s.xce with qps := t.xce.qps } ∧
      s.OnlyFields (R.QP_STATUS_STATE f q :: R.QP_STATUS_CAUSE f q :: eventFields) t ∧ s.Only [.regs, .pass, .xce] t) ∧
  (∀ (f : Func) (q : Fin 8) (s : State), s.NoDesc f q 0 → Completes (.nop f q) s fun t =>
      s.Only [] t) ∧
  (∀ (f : Func) (q : Fin 8) (d : XDesc) (l l2 : List Xlate) (s : State), s.BadDesc f q d → s.get (R.QP_CTL_MODE f q) = 0 →
    Completes (.copyLocal f q l l2) s fun t =>
      s.Completed f q d (some (0, 6, 1)) t ∧ s.OnlyQp f q t ∧ t.xce = { s.xce with qps := t.xce.qps } ∧
      s.OnlyFields (eventFields) t ∧ s.Only [.regs, .pass, .xce] t) ∧
  (∀ (f : Func) (q : Fin 8) (d : XDesc) (l l2 : List Xlate) (s : State), s.BadDesc f q d →
    s.get (R.QP_CTL_MODE f q) = 1 ∧ s.qpState f q = qpACTIVE → Completes (.copyLocal f q l l2) s fun t =>
      t.qp f q = { s.qp f q with descs := [], failed := true, fin := (s.qp f q).fin ++ [⟨d.pos, d.entry q (some (0, 6, 1)), decide (d.b 1 1 % 2 = 1), false, (d.rcid, d.mcid)⟩] ++ ((s.qp f q).descs.filter (fun y => y.pos != d.pos)).map (fun y => ⟨y.pos, y.entry q (some (0, 6, 2)), decide (y.b 1 1 % 2 = 1), false, (y.rcid, y.mcid)⟩) } ∧
      t.qpState f q = qpERROR ∧ t.get (R.QP_STATUS_CAUSE f q) = 6 ∧ s.OnlyQp f q t ∧
      t.xce = { s.xce with qps := t.xce.qps } ∧
      s.OnlyFields (R.QP_STATUS_STATE f q :: R.QP_STATUS_CAUSE f q :: eventFields) t ∧ s.Only [.regs, .pass, .xce] t) ∧
  (∀ (f : Func) (q : Fin 8) (l l2 : List Xlate) (s : State), s.NoDesc f q 1 → Completes (.copyLocal f q l l2) s fun t =>
      s.Only [] t) ∧
  (∀ (f : Func) (q : Fin 8) (d : XDesc) (l : List Xlate) (s : State), s.BadDesc f q d → s.get (R.QP_CTL_MODE f q) = 0 →
    Completes (.put f q l) s fun t =>
      s.Completed f q d (some (0, 6, 1)) t ∧ s.OnlyQp f q t ∧ t.xce = { s.xce with qps := t.xce.qps } ∧
      s.OnlyFields (eventFields) t ∧ s.Only [.regs, .pass, .xce] t) ∧
  (∀ (f : Func) (q : Fin 8) (d : XDesc) (l : List Xlate) (s : State), s.BadDesc f q d →
    s.get (R.QP_CTL_MODE f q) = 1 ∧ s.qpState f q = qpACTIVE → Completes (.put f q l) s fun t =>
      t.qp f q = { s.qp f q with descs := [], failed := true, fin := (s.qp f q).fin ++ [⟨d.pos, d.entry q (some (0, 6, 1)), decide (d.b 1 1 % 2 = 1), false, (d.rcid, d.mcid)⟩] ++ ((s.qp f q).descs.filter (fun y => y.pos != d.pos)).map (fun y => ⟨y.pos, y.entry q (some (0, 6, 2)), decide (y.b 1 1 % 2 = 1), false, (y.rcid, y.mcid)⟩) } ∧
      t.qpState f q = qpERROR ∧ t.get (R.QP_STATUS_CAUSE f q) = 6 ∧ s.OnlyQp f q t ∧
      t.xce = { s.xce with qps := t.xce.qps } ∧
      s.OnlyFields (R.QP_STATUS_STATE f q :: R.QP_STATUS_CAUSE f q :: eventFields) t ∧ s.Only [.regs, .pass, .xce] t) ∧
  (∀ (f : Func) (q : Fin 8) (l : List Xlate) (s : State), s.NoDesc f q 2 → Completes (.put f q l) s fun t =>
      s.Only [] t) ∧
  (∀ (f : Func) (q : Fin 8) (d : XDesc) (l : List Xlate) (s : State), s.NextDesc f q d 2 →
    (s.winRoom f = false ∨ s.sourcing f q = true) → Completes (.put f q l) s fun t =>
      s.Only [] t) ∧
  (∀ (f : Func) (q : Fin 8) (d : XDesc) (s : State), s.BadDesc f q d → s.get (R.QP_CTL_MODE f q) = 0 →
    Completes (.get f q) s fun t =>
      s.Completed f q d (some (0, 6, 1)) t ∧ s.OnlyQp f q t ∧ t.xce = { s.xce with qps := t.xce.qps } ∧
      s.OnlyFields (eventFields) t ∧ s.Only [.regs, .pass, .xce] t) ∧
  (∀ (f : Func) (q : Fin 8) (d : XDesc) (s : State), s.BadDesc f q d →
    s.get (R.QP_CTL_MODE f q) = 1 ∧ s.qpState f q = qpACTIVE → Completes (.get f q) s fun t =>
      t.qp f q = { s.qp f q with descs := [], failed := true, fin := (s.qp f q).fin ++ [⟨d.pos, d.entry q (some (0, 6, 1)), decide (d.b 1 1 % 2 = 1), false, (d.rcid, d.mcid)⟩] ++ ((s.qp f q).descs.filter (fun y => y.pos != d.pos)).map (fun y => ⟨y.pos, y.entry q (some (0, 6, 2)), decide (y.b 1 1 % 2 = 1), false, (y.rcid, y.mcid)⟩) } ∧
      t.qpState f q = qpERROR ∧ t.get (R.QP_STATUS_CAUSE f q) = 6 ∧ s.OnlyQp f q t ∧
      t.xce = { s.xce with qps := t.xce.qps } ∧
      s.OnlyFields (R.QP_STATUS_STATE f q :: R.QP_STATUS_CAUSE f q :: eventFields) t ∧ s.Only [.regs, .pass, .xce] t) ∧
  (∀ (f : Func) (q : Fin 8) (s : State), s.NoDesc f q 3 → Completes (.get f q) s fun t =>
      s.Only [] t) ∧
  (∀ (f : Func) (q : Fin 8) (d : XDesc) (s : State), s.NextDesc f q d 3 → (s.winRoom f = false ∨ s.npRoom f = false) →
    Completes (.get f q) s fun t =>
      s.Only [] t) ∧
  (∀ (f : Func) (q : Fin 8) (d : XDesc) (l : List Xlate) (s : State), s.BadDesc f q d → s.get (R.QP_CTL_MODE f q) = 0 →
    Completes (.send f q l) s fun t =>
      s.Completed f q d (some (0, 6, 1)) t ∧ s.OnlyQp f q t ∧ t.xce = { s.xce with qps := t.xce.qps } ∧
      s.OnlyFields (eventFields) t ∧ s.Only [.regs, .pass, .xce] t) ∧
  (∀ (f : Func) (q : Fin 8) (d : XDesc) (l : List Xlate) (s : State), s.BadDesc f q d →
    s.get (R.QP_CTL_MODE f q) = 1 ∧ s.qpState f q = qpACTIVE → Completes (.send f q l) s fun t =>
      t.qp f q = { s.qp f q with descs := [], failed := true, fin := (s.qp f q).fin ++ [⟨d.pos, d.entry q (some (0, 6, 1)), decide (d.b 1 1 % 2 = 1), false, (d.rcid, d.mcid)⟩] ++ ((s.qp f q).descs.filter (fun y => y.pos != d.pos)).map (fun y => ⟨y.pos, y.entry q (some (0, 6, 2)), decide (y.b 1 1 % 2 = 1), false, (y.rcid, y.mcid)⟩) } ∧
      t.qpState f q = qpERROR ∧ t.get (R.QP_STATUS_CAUSE f q) = 6 ∧ s.OnlyQp f q t ∧
      t.xce = { s.xce with qps := t.xce.qps } ∧
      s.OnlyFields (R.QP_STATUS_STATE f q :: R.QP_STATUS_CAUSE f q :: eventFields) t ∧ s.Only [.regs, .pass, .xce] t) ∧
  (∀ (f : Func) (q : Fin 8) (l : List Xlate) (s : State), s.NoDesc f q 4 → Completes (.send f q l) s fun t =>
      s.Only [] t) ∧
  (∀ (f : Func) (q : Fin 8) (d : XDesc) (l : List Xlate) (s : State), s.NextDesc f q d 4 →
    (s.winRoom f = false ∨ s.sourcing f q = true) → Completes (.send f q l) s fun t =>
      s.Only [] t) ∧
  (∀ (f : Func) (q : Fin 8) (d : XDesc) (s : State), s.BadDesc f q d → s.get (R.QP_CTL_MODE f q) = 0 →
    Completes (.atomic f q) s fun t =>
      s.Completed f q d (some (0, 6, 1)) t ∧ s.OnlyQp f q t ∧ t.xce = { s.xce with qps := t.xce.qps } ∧
      s.OnlyFields (eventFields) t ∧ s.Only [.regs, .pass, .xce] t) ∧
  (∀ (f : Func) (q : Fin 8) (d : XDesc) (s : State), s.BadDesc f q d →
    s.get (R.QP_CTL_MODE f q) = 1 ∧ s.qpState f q = qpACTIVE → Completes (.atomic f q) s fun t =>
      t.qp f q = { s.qp f q with descs := [], failed := true, fin := (s.qp f q).fin ++ [⟨d.pos, d.entry q (some (0, 6, 1)), decide (d.b 1 1 % 2 = 1), false, (d.rcid, d.mcid)⟩] ++ ((s.qp f q).descs.filter (fun y => y.pos != d.pos)).map (fun y => ⟨y.pos, y.entry q (some (0, 6, 2)), decide (y.b 1 1 % 2 = 1), false, (y.rcid, y.mcid)⟩) } ∧
      t.qpState f q = qpERROR ∧ t.get (R.QP_STATUS_CAUSE f q) = 6 ∧ s.OnlyQp f q t ∧
      t.xce = { s.xce with qps := t.xce.qps } ∧
      s.OnlyFields (R.QP_STATUS_STATE f q :: R.QP_STATUS_CAUSE f q :: eventFields) t ∧ s.Only [.regs, .pass, .xce] t) ∧
  (∀ (f : Func) (q : Fin 8) (s : State), s.NoDesc f q 5 → Completes (.atomic f q) s fun t =>
      s.Only [] t) ∧
  (∀ (f : Func) (q : Fin 8) (d : XDesc) (s : State), s.NextDesc f q d 5 → (s.winRoom f = false ∨ s.npRoom f = false) →
    Completes (.atomic f q) s fun t =>
      s.Only [] t) ∧
  (∀ (f : Func) (q : Fin 8) (d : XDesc) (s : State), s.BadDesc f q d → s.get (R.QP_CTL_MODE f q) = 0 →
    Completes (.fence f q) s fun t =>
      s.Completed f q d (some (0, 6, 1)) t ∧ s.OnlyQp f q t ∧ t.xce = { s.xce with qps := t.xce.qps } ∧
      s.OnlyFields (eventFields) t ∧ s.Only [.regs, .pass, .xce] t) ∧
  (∀ (f : Func) (q : Fin 8) (d : XDesc) (s : State), s.BadDesc f q d →
    s.get (R.QP_CTL_MODE f q) = 1 ∧ s.qpState f q = qpACTIVE → Completes (.fence f q) s fun t =>
      t.qp f q = { s.qp f q with descs := [], failed := true, fin := (s.qp f q).fin ++ [⟨d.pos, d.entry q (some (0, 6, 1)), decide (d.b 1 1 % 2 = 1), false, (d.rcid, d.mcid)⟩] ++ ((s.qp f q).descs.filter (fun y => y.pos != d.pos)).map (fun y => ⟨y.pos, y.entry q (some (0, 6, 2)), decide (y.b 1 1 % 2 = 1), false, (y.rcid, y.mcid)⟩) } ∧
      t.qpState f q = qpERROR ∧ t.get (R.QP_STATUS_CAUSE f q) = 6 ∧ s.OnlyQp f q t ∧
      t.xce = { s.xce with qps := t.xce.qps } ∧
      s.OnlyFields (R.QP_STATUS_STATE f q :: R.QP_STATUS_CAUSE f q :: eventFields) t ∧ s.Only [.regs, .pass, .xce] t) ∧
  (∀ (f : Func) (q : Fin 8) (s : State), s.NoDesc f q 6 → Completes (.fence f q) s fun t =>
      s.Only [] t)

/-- A region comes online through a fill, which leaves unmarked zeros in all of it, changes no other byte and is metered
as a write of MCID 0; a fill write that fails leaves it OFFLINE with REGION_FAIL. It goes offline through a sweep of
every home and an invalidation of every Mesa slice; a command that its state does not accept is rejected (spec/13
R313, R314, R323, spec/08 R207, spec/09 R221). A link that goes down ends a fill and drains a region that is online
(R314). A link trains where its port exists, is not contained or held down and, in a slot, is powered and out of
reset, and carries CXL only at x8 or x16 (R312, R316, R319); a correctable error of a link is logged and recorded and
charges its bucket, and one error too many lowers its rate (spec/14 R335, R336). A command that does not apply changes
nothing. -/
def Obligations.CxlRegionsAndLinks : Prop :=
  (∀ (i : RPort) (s : State), s.region i = regionOFFLINE ∧ s.get (R.RPRT_STATUS_CXL i) = 1 → s.regionBad i = false →
    Completes (.cxlRegionOnline i) s fun t =>
      t.region i = regionFILLING ∧ s.OnlyFields [R.RPRT_STATUS_REGION_STATE i] t ∧ s.Only [.regs] t) ∧
  (∀ (i : RPort) (s : State), (s.region i ≠ regionOFFLINE ∨ s.get (R.RPRT_STATUS_CXL i) ≠ 1) →
    Completes (.cxlRegionOnline i) s fun t =>
      t.get (R.RPRT_STATUS_CMD_REJECTED i) = 1 ∧ s.OnlyFields [R.RPRT_STATUS_CMD_REJECTED i] t ∧ s.Only [.regs] t) ∧
  (∀ (i : RPort) (s : State), s.region i = regionONLINE →
    s.home.sweeps.all (fun w => (match w.u with | .cxlRegion j _ => j != i | _ => true)) = true →
    Completes (.cxlRegionOffline i) s fun t =>
      t.region i = regionDRAINING ∧ s.OnlyDrains i t ∧ t.home.sweeps.length = s.home.sweeps.length + 16 ∧
      s.OnlyFields [R.RPRT_STATUS_REGION_STATE i] t ∧ s.Only [.regs, .home] t) ∧
  (∀ (i : RPort) (s : State), s.region i ≠ regionONLINE → Completes (.cxlRegionOffline i) s fun t =>
      t.get (R.RPRT_STATUS_CMD_REJECTED i) = 1 ∧ s.OnlyFields [R.RPRT_STATUS_CMD_REJECTED i] t ∧ s.Only [.regs] t) ∧
  (∀ (i : RPort) (s : State), s.region i = regionFILLING → Completes (.cxlFillComplete i true) s fun t =>
      t.region i = regionONLINE ∧ t.get (R.RPRT_EVENT_REGION_ONLINE i) = 1 ∧
      (∀ (a : Nat), cxlCell (0x80000000000 + (s.regionSpan i).1 * 2 ^ 30) ≤ a → a < cxlCell (0x80000000000 + (s.regionSpan
        i).1 * 2 ^ 30) + (s.regionSpan i).2 * 2 ^ 30 → t.byte a = 0) ∧
      (∀ (a : Nat), (a < cxlCell (0x80000000000 + (s.regionSpan i).1 * 2 ^ 30) ∨ cxlCell (0x80000000000 + (s.regionSpan i).1
        * 2 ^ 30) + (s.regionSpan i).2 * 2 ^ 30 ≤ a) → t.byte a = s.byte a) ∧
      (∀ (a : Nat), cxlCell (0x80000000000 + (s.regionSpan i).1 * 2 ^ 30) ≤ a → a < cxlCell (0x80000000000 + (s.regionSpan
        i).1 * 2 ^ 30) + (s.regionSpan i).2 * 2 ^ 30 → t.markedAt a = false) ∧
      (∀ (a : Nat), (a < cxlCell (0x80000000000 + (s.regionSpan i).1 * 2 ^ 30) ∨ cxlCell (0x80000000000 + (s.regionSpan i).1
        * 2 ^ 30) + (s.regionSpan i).2 * 2 ^ 30 ≤ a) → t.markedAt a = s.markedAt a) ∧
      t.meter = (s.meterAdd qMEM_WRITE 0 ((s.regionSpan i).2 * 2 ^ 30)).meter ∧
      s.OnlyFields [R.RPRT_STATUS_REGION_STATE i, R.RPRT_EVENT_REGION_ONLINE i, FRef.all R.rMBOX_STATUS] t ∧
      s.Only [.regs, .mem, .marked, .chan, .meter, .tvx] t) ∧
  (∀ (i : RPort) (s : State), s.region i = regionFILLING → Completes (.cxlFillComplete i false) s fun t =>
      t.region i = regionOFFLINE ∧ t.get (R.RPRT_EVENT_REGION_FAIL i) = 1 ∧
      s.OnlyFields [R.RPRT_STATUS_REGION_STATE i, R.RPRT_EVENT_REGION_FAIL i] t ∧ s.Only [.regs] t) ∧
  (∀ (i : RPort) (b : Bool) (s : State), s.region i ≠ regionFILLING → Completes (.cxlFillComplete i b) s fun t =>
      s.Only [] t) ∧
  (∀ (i : RPort) (s : State), s.region i = regionDRAINING → s.draining i = false →
    (∀ n : Ix16, s.get (R.MESA_STATUS_STATE n) = mesaBYPASS) → Completes (.cxlDrainComplete i) s fun t =>
      t.region i = regionOFFLINE ∧ t.get (R.RPRT_EVENT_REGION_OFFLINE i) = 1 ∧ t.mesa = { s.mesa with offPorts := [] } ∧
      (∀ j ∈ s.mesa.offPorts, t.region j = regionOFFLINE) ∧ (∀ n < 16, t.get (R.MESA_EVENT_INV_DONE n) = 1) ∧
      s.OnlyFields ((s.mesa.offPorts ++ [i.val]).flatMap (fun j => [R.RPRT_STATUS_REGION_STATE j,
        R.RPRT_EVENT_REGION_OFFLINE j]) ++ (List.range 16).flatMap (fun n => [R.MESA_STATUS_INV_COUNT n,
        R.MESA_EVENT_INV_DONE n])) t ∧
      s.Only [.regs, .mesa] t) ∧
  (∀ (i : RPort) (s : State), s.region i = regionDRAINING → s.draining i = false →
    (∃ n : Ix16, s.get (R.MESA_STATUS_STATE n) = mesaENABLED ∨ s.get (R.MESA_STATUS_STATE n) = mesaINVALIDATING) →
    Completes (.cxlDrainComplete i) s fun t =>
      t.region i = regionDRAINING ∧ t.mesa.offPorts = s.mesa.offPorts.erase i.val ++ [i.val] ∧
      (∀ n < 16, s.get (R.MESA_STATUS_STATE n) = mesaENABLED → t.get (R.MESA_STATUS_STATE n) = mesaINVALIDATING) ∧
      s.OnlyFields ((List.range 16).flatMap (fun n => [FRef.all (R.rMESA_STATUS n), R.MESA_EVENT_INV_DONE n])) t ∧
      s.Only [.regs, .home, .mesa] t) ∧
  (∀ (i : RPort) (s : State), (s.region i ≠ regionDRAINING ∨ s.draining i = true) → Completes (.cxlDrainComplete i) s fun t =>
      s.Only [] t) ∧
  (∀ (i : RPort) (s : State), s.get (R.RPRT_STATUS_CXL i) = 1 ∧ s.region i = regionFILLING →
    Completes (.cxlLinkDown i) s fun t =>
      t.region i = regionOFFLINE ∧ t.get (R.RPRT_EVENT_REGION_FAIL i) = 1 ∧ t.get (R.RPRT_STATUS_CXL i) = 0 ∧
      t.portSlot i = { (s.portSlot i) with up := false } ∧ s.OnlySlot i t ∧
      s.OnlyFields [R.RPRT_STATUS_CXL i, R.RPRT_STATUS_REGION_STATE i, R.RPRT_EVENT_REGION_FAIL i] t ∧
      s.Only [.regs, .io] t) ∧
  (∀ (i : RPort) (s : State), s.get (R.RPRT_STATUS_CXL i) = 1 ∧ s.region i = regionONLINE →
    s.home.sweeps.all (fun w => (match w.u with | .cxlRegion j _ => j != i | _ => true)) = true →
    Completes (.cxlLinkDown i) s fun t =>
      t.region i = regionDRAINING ∧ s.OnlyDrains i t ∧ t.home.sweeps.length = s.home.sweeps.length + 16 ∧
      t.get (R.RPRT_STATUS_CXL i) = 0 ∧ t.portSlot i = { (s.portSlot i) with up := false } ∧ s.OnlySlot i t ∧
      s.OnlyFields [R.RPRT_STATUS_CXL i, R.RPRT_STATUS_REGION_STATE i] t ∧ s.Only [.regs, .home, .io] t) ∧
  (∀ (i : RPort) (s : State), s.get (R.RPRT_STATUS_CXL i) = 1 ∧ s.region i ≠ regionONLINE ∧ s.region i ≠ regionFILLING →
    Completes (.cxlLinkDown i) s fun t =>
      t.get (R.RPRT_STATUS_CXL i) = 0 ∧ t.portSlot i = { (s.portSlot i) with up := false } ∧ s.OnlySlot i t ∧
      s.OnlyFields [R.RPRT_STATUS_CXL i] t ∧ s.Only [.regs, .io] t) ∧
  (∀ (i : RPort) (s : State), s.get (R.RPRT_STATUS_CXL i) ≠ 1 → Completes (.cxlLinkDown i) s fun t =>
      s.Only [] t) ∧
  (∀ (i : RPort) (c : Bool) (s : State), s.portUp i = true ∧ s.contained i = false → (s.portSlot i).holding = false →
    (s.get (R.RPRT_CTL_SLOT i) = 0 ∨ ((s.portSlot i).out.testBit 8 = true ∧ (s.portSlot i).out.testBit 9 = true)) →
    Completes (.rootPortLinkUp i c) s fun t =>
      t.portSlot i = { (s.portSlot i) with up := true } ∧ s.OnlySlot i t ∧
      t.get (R.RPRT_STATUS_CXL i) = (if c = true ∧ 2 ≤ s.get (R.RPRT_STATUS_WIDTH i) then 1 else 0) ∧
      s.OnlyFields [R.RPRT_STATUS_CXL i] t ∧ s.Only [.regs, .io] t) ∧
  (∀ (i : RPort) (c : Bool) (s : State),
    (s.portUp i = false ∨ s.contained i = true ∨ (s.portSlot i).holding = true ∨ (s.get (R.RPRT_CTL_SLOT i) ≠ 0 ∧ ((s.portSlot i).out.testBit 8 = false ∨ (s.portSlot i).out.testBit 9 = false))) →
    Completes (.rootPortLinkUp i c) s fun t =>
      s.Only [] t) ∧
  (∀ (i : RPort) (s : State), s.portUp i = true → (s.charge 13 i false).2 = false →
    Completes (.rootPortLinkError i) s fun t =>
      t.bucket 13 i = (s.charge 13 i false).1.bucket 13 i ∧
      s.Records (bankRoot i) ⟨true, errCE, false, 0, recInfo 0 0 (agROOT + i) s.pkgId 13, 0, s.pwr.now⟩ t ∧
      (∀ p, s.extCap? i extAER = some p → t.cfgBits i (p + 0x10) 0 1 = 1) ∧ t.io = { s.io with cfg := t.io.cfg } ∧
      s.OnlyFields (eventFields ++ reportFields) t ∧ s.Only [.regs, .free, .core, .pass, .io, .ras, .tvx] t) ∧
  (∀ (i : RPort) (s : State), s.portUp i = true → (s.charge 13 i false).2 = true → Completes (.rootPortLinkError i) s fun t =>
      t.bucket 13 i = (s.charge 13 i false).1.bucket 13 i ∧
      s.Records (bankRoot i) ⟨true, errCE, false, 0, recInfo 0 0 (agROOT + i) s.pkgId 13, 0, s.pwr.now⟩ t ∧
      (∀ p, s.extCap? i extAER = some p → t.cfgBits i (p + 0x10) 0 1 = 1) ∧
      t.portSlot i = { (s.portSlot i) with rate := max 1 ((s.portSlot i).rate - 1) } ∧
      t.io = { s.io with cfg := t.io.cfg, slots := t.io.slots } ∧ (∀ j, j ≠ i.val → t.portSlot j = s.portSlot j) ∧
      s.OnlyFields (eventFields ++ reportFields) t ∧ s.Only [.regs, .free, .core, .pass, .io, .ras, .tvx] t) ∧
  (∀ (i : RPort) (s : State), s.portUp i = false → Completes (.rootPortLinkError i) s fun t =>
      s.Only [] t)

/-- A scan of an expander takes its inputs, starts a debounce where presence, the button or the latch differs, reports a
power fault and turns power off on it or where the card has gone during power on, and writes the outputs wanted; the
third scan in a row without an answer sets EXPANDER_FAIL (spec/13 R315, R316, R323); the shared interrupt scans each
port of its bus. Changes that last are reported in Slot Status, by MSI where Slot Control enables it (R316, R321).
Slot Control is stored and powers the slot up or down and sets its indicators through the expander, once that answers
(R316, R323); PERST is released after power; a blinking indicator toggles; PE_PERST_N of a lane group goes high once
PWRGOOD is (spec/19 R423). Only the slot named changes. -/
def Obligations.SlotCommands : Prop :=
  (∀ (i : RPort) (v : Fin 16) (flt gone : Bool) (w : Nat) (s : State), s.get (R.RPRT_CTL_SLOT i) = 1 ∧ s.portUp i = true →
    flt = ((s.portSlot i).last.testBit 2 && !v.val.testBit 2) ∧ gone = ((s.portSlot i).rising && v.val.testBit 0) →
    (w = (if flt = true ∨ gone = true then setBits (s.portSlot i).want 8 2 0 else (s.portSlot i).want)) →
    Completes (.expanderScan i (some v.val)) s fun t =>
      t.portSlot i = { (s.portSlot i) with
        last := v, nacks := 0, wait := (s.portSlot i).wait || v.val % 4 != (s.portSlot i).last % 4 || v.val / 8 !=
          (s.portSlot i).last / 8, status := if flt then (s.portSlot i).status ||| 2 else (s.portSlot i).status, want
          := w, out := w, rising := (s.portSlot i).rising && !flt && !gone, up := (s.portSlot i).up && !flt && !gone }
          ∧
      s.OnlySlot i t ∧ t.get (R.RPRT_STATUS_EXPANDER_FAIL i) = 0 ∧
      t.pass = (if flt = true ∧ (s.portSlot i).ctl.testBit 5 = true ∧ (2 &&& (s.portSlot i).ctl) % 16 ≠ 0 then (s.portMsi
        i).pass else s.pass) ∧
      s.OnlyFields [R.RPRT_STATUS_EXPANDER_FAIL i, FRef.all R.rIOMMU_MSI_DROPS] t ∧ s.Only [.regs, .io, .pass] t) ∧
  (∀ (i : RPort) (s : State), s.get (R.RPRT_CTL_SLOT i) = 1 ∧ s.portUp i = true → Completes (.expanderScan i none) s fun t =>
      t.portSlot i = { (s.portSlot i) with nacks := (s.portSlot i).nacks + 1 } ∧ s.OnlySlot i t ∧
      t.get (R.RPRT_STATUS_EXPANDER_FAIL i) = (if 3 ≤ (s.portSlot i).nacks + 1 then 1 else s.get
        (R.RPRT_STATUS_EXPANDER_FAIL i)) ∧
      s.OnlyFields [R.RPRT_STATUS_EXPANDER_FAIL i] t ∧ s.Only [.regs, .io] t) ∧
  (∀ (i : RPort) (d : Option Nat) (s : State), (s.get (R.RPRT_CTL_SLOT i) = 0 ∨ s.portUp i = false) →
    Completes (.expanderScan i d) s fun t =>
      s.Only [] t) ∧
  (∀ (b : Fin 4) (l : List (Option Nat)) (s : State), Completes (.hpIntFall b l) s fun t =>
      (∀ k < 8, (t.portSlot (8 * b + k), t.get (R.RPRT_STATUS_EXPANDER_FAIL (8 * b + k))) = (match l[k]? with | some d => ((s.scan (8 * b + k) d).portSlot (8 * b + k), (s.scan (8 * b + k) d).get (R.RPRT_STATUS_EXPANDER_FAIL (8 * b + k))) | none => (s.portSlot (8 * b + k), s.get (R.RPRT_STATUS_EXPANDER_FAIL (8 * b + k))))) ∧
      (∀ j, ¬ (8 * b.val ≤ j ∧ j < 8 * b.val + 8) → t.portSlot j = s.portSlot j) ∧
      t.io = { s.io with slots := t.io.slots } ∧
      s.OnlyFields (FRef.all R.rIOMMU_MSI_DROPS :: (List.range 8).map (fun k => R.RPRT_STATUS_EXPANDER_FAIL (8 * b + k))) t
        ∧
      s.Only [.regs, .io, .pass] t) ∧
  (∀ (i : RPort) (m st : Nat) (s : State), (s.portSlot i).wait = true → s.get (R.RPRT_STATUS_EXPANDER_FAIL i) = 0 →
    (m = (if (s.portSlot i).last.testBit 0 = (s.portSlot i).seen.testBit 0 then 0 else 8) + (if (s.portSlot i).last.testBit 1 = true ∨ (s.portSlot i).seen.testBit 1 = false then 0 else 1) + (if (s.portSlot i).last.testBit 3 = (s.portSlot i).seen.testBit 3 then 0 else 4)) →
    st = setBits (setBits (s.portSlot i).status 6 1 (b2n (!(s.portSlot i).last.testBit 0))) 5 1 (b2n ((s.portSlot i).last.testBit 3)) →
    Completes (.slotDebounceDone i) s fun t =>
      t.portSlot i = { (s.portSlot i) with wait := false, seen := (s.portSlot i).last, status := st ||| m } ∧
      s.OnlySlot i t ∧
      t.pass = (if (s.portSlot i).ctl.testBit 5 = true ∧ (m &&& (s.portSlot i).ctl) % 16 ≠ 0 then (s.portMsi i).pass else
        s.pass) ∧
      s.OnlyFields [FRef.all R.rIOMMU_MSI_DROPS] t ∧ s.Only [.regs, .io, .pass] t) ∧
  (∀ (i : RPort) (s : State), ((s.portSlot i).wait = false ∨ s.get (R.RPRT_STATUS_EXPANDER_FAIL i) ≠ 0) →
    Completes (.slotDebounceDone i) s fun t =>
      s.Only [] t) ∧
  (∀ (i : RPort) (v w : Nat) (s : State), s.get (R.RPRT_CTL_SLOT i) = 1 ∧ s.portUp i = true →
    w = setBits (setBits (if v.testBit 10 then setBits (s.portSlot i).want 8 2 0 else setBits (s.portSlot i).want 8 1 1) 10 1 (indicator (bits v 8 2) (bits (s.portSlot i).want 10 1))) 11 1 (indicator (bits v 6 2) (bits (s.portSlot i).want 11 1)) →
    Completes (.slotPowerControlWrite i v) s fun t =>
      t.portSlot i = { (s.portSlot i) with
        ctl := v % 2 ^ 16, want := w, out := (if s.get (R.RPRT_STATUS_EXPANDER_FAIL i) = 1 then (s.portSlot i).out
          else w), rising := !v.testBit 10 && ((s.portSlot i).rising || !(s.portSlot i).want.testBit 8), up :=
          (s.portSlot i).up && !v.testBit 10 } ∧
      s.OnlySlot i t ∧ s.Only [.io] t) ∧
  (∀ (i : RPort) (v : Nat) (s : State), (s.get (R.RPRT_CTL_SLOT i) = 0 ∨ s.portUp i = false) →
    Completes (.slotPowerControlWrite i v) s fun t =>
      s.Only [] t) ∧
  (∀ (i : RPort) (s : State), (s.portSlot i).rising = true ∧ (s.portSlot i).out.testBit 8 = true →
    Completes (.slotPerstRelease i) s fun t =>
      t.portSlot i = { (s.portSlot i) with
        rising := false, want := setBits (s.portSlot i).want 9 1 1, out := (if s.get (R.RPRT_STATUS_EXPANDER_FAIL i) =
          1 then (s.portSlot i).out else setBits (s.portSlot i).want 9 1 1) } ∧
      s.OnlySlot i t ∧ s.Only [.io] t) ∧
  (∀ (i : RPort) (s : State), ((s.portSlot i).rising = false ∨ (s.portSlot i).out.testBit 8 = false) →
    Completes (.slotPerstRelease i) s fun t =>
      s.Only [] t) ∧
  (∀ (i : RPort) (s : State), s.get (R.RPRT_CTL_SLOT i) = 1 ∧ s.portUp i = true → Completes (.slotPowerFault i) s fun t =>
      t.portSlot i = { (s.portSlot i) with
        last := setBits (s.portSlot i).last 2 1 0, status := (s.portSlot i).status ||| 2, want := setBits (s.portSlot
          i).want 8 2 0, out := (if s.get (R.RPRT_STATUS_EXPANDER_FAIL i) = 1 then (s.portSlot i).out else setBits
          (s.portSlot i).want 8 2 0), rising := false, up := false } ∧
      s.OnlySlot i t ∧
      t.pass = (if (s.portSlot i).ctl.testBit 5 = true ∧ (2 &&& (s.portSlot i).ctl) % 16 ≠ 0 then (s.portMsi i).pass else
        s.pass) ∧
      s.OnlyFields [FRef.all R.rIOMMU_MSI_DROPS] t ∧ s.Only [.regs, .io, .pass] t) ∧
  (∀ (i : RPort) (s : State), (s.get (R.RPRT_CTL_SLOT i) = 0 ∨ s.portUp i = false) → Completes (.slotPowerFault i) s fun t =>
      s.Only [] t) ∧
  (∀ (i : RPort) (w w2 : Nat) (s : State), s.get (R.RPRT_CTL_SLOT i) = 1 →
    w = (if bits (s.portSlot i).ctl 8 2 = 2 then setBits (s.portSlot i).want 10 1 (1 - bits (s.portSlot i).want 10 1) else (s.portSlot i).want) →
    w2 = (if bits (s.portSlot i).ctl 6 2 = 2 then setBits w 11 1 (1 - bits w 11 1) else w) →
    Completes (.slotIndicatorBlink i) s fun t =>
      t.portSlot i = { (s.portSlot i) with
        want := w2, out := (if s.get (R.RPRT_STATUS_EXPANDER_FAIL i) = 1 then (s.portSlot i).out else w2) } ∧
      s.OnlySlot i t ∧ s.Only [.io] t) ∧
  (∀ (i : RPort) (s : State), s.get (R.RPRT_CTL_SLOT i) ≠ 1 → Completes (.slotIndicatorBlink i) s fun t =>
      s.Only [] t) ∧
  (∀ (g : Fin 8) (s : State), s.pwr.good = true → Completes (.pePerstRelease g) s fun t =>
      t.pwr = { s.pwr with perst := s.pwr.perst ||| 1 <<< g.val } ∧ s.Only [.pwr] t) ∧
  (∀ (g : Fin 8) (s : State), s.pwr.good = false → Completes (.pePerstRelease g) s fun t =>
      s.Only [] t)

/-- Containment takes a port's link down, sets DPC Trigger Status with its reason, ends or drains its region, completes
what harts wait for from it, and takes the answers from DMA under way (spec/13 R317, R318, R323); clearing the status
ends it, with the link held down for the hold (R319). A hart's read without a completion gets all ones, or an access
fault with a record in RPRT_ERR and both banks where the port says so, and a completion gives it its value (R318). A
device's request becomes coherent requests, one for each line, with the port's identifiers, its order and poison
(spec/04 R112); one that does not translate, is refused by the address map, or is an illegal atomic is aborted with
its record (spec/01 R32, R36, R322). An MSI and a set-pending store send their identity to the file they name, or are
dropped and counted where the core is off, and an MSI that names memory is written there (R320, R322). A level of INTx
makes its source pending or not, and one that its domain delivers goes to its file (R321). Where nothing applies,
nothing changes. -/
def Obligations.PortTraffic : Prop :=
  (∀ (i : RPort) (k : Nat) (s : State), s.portUp i = true ∧ s.contained i = false →
    s.region i ≠ regionONLINE ∧ s.region i ≠ regionFILLING →
    (∀ h : Hart, (s.hart h).mmio.map (fun e => e.2) ≠ some (some i)) → Completes (.portContainment i k) s fun t =>
      t.contained i = true ∧ t.get (R.RPRT_STATUS_CXL i) = 0 ∧ t.portSlot i = { (s.portSlot i) with up := false } ∧
      (∀ j, j ≠ i.val → t.portSlot j = s.portSlot j) ∧
      (∀ p, s.extCap? i extDPC = some p → t.cfgBits i (p + 8) 0 1 = 1 ∧ t.cfgBits i (p + 8) 1 2 = k % 4) ∧
      t.io = { s.io with
        slots := t.io.slots, cfg := t.io.cfg, dma := s.io.dma.map (fun d => if d.port = i.val then
          { d with ans := false } else d) } ∧
      s.OnlyFields [R.RPRT_STATUS_CONTAINED i, R.RPRT_STATUS_CXL i] t ∧ s.Only [.regs, .io] t) ∧
  (∀ (i : RPort) (k : Nat) (s : State), s.portUp i = true ∧ s.contained i = false → s.region i = regionFILLING →
    (∀ h : Hart, (s.hart h).mmio.map (fun e => e.2) ≠ some (some i)) → Completes (.portContainment i k) s fun t =>
      t.contained i = true ∧ t.get (R.RPRT_STATUS_CXL i) = 0 ∧ t.portSlot i = { (s.portSlot i) with up := false } ∧
      (∀ j, j ≠ i.val → t.portSlot j = s.portSlot j) ∧
      (∀ p, s.extCap? i extDPC = some p → t.cfgBits i (p + 8) 0 1 = 1 ∧ t.cfgBits i (p + 8) 1 2 = k % 4) ∧
      t.io = { s.io with
        slots := t.io.slots, cfg := t.io.cfg, dma := s.io.dma.map (fun d => if d.port = i.val then
          { d with ans := false } else d) } ∧
      t.region i = regionOFFLINE ∧ t.get (R.RPRT_EVENT_REGION_FAIL i) = 1 ∧
      s.OnlyFields [R.RPRT_STATUS_CONTAINED i, R.RPRT_STATUS_CXL i, R.RPRT_STATUS_REGION_STATE i, R.RPRT_EVENT_REGION_FAIL
        i] t ∧
      s.Only [.regs, .io] t) ∧
  (∀ (i : RPort) (k : Nat) (s : State), s.portUp i = true ∧ s.contained i = false → s.region i = regionONLINE →
    s.home.sweeps.all (fun w => (match w.u with | .cxlRegion j _ => j != i | _ => true)) = true →
    (∀ h : Hart, (s.hart h).mmio.map (fun e => e.2) ≠ some (some i)) → Completes (.portContainment i k) s fun t =>
      t.contained i = true ∧ t.get (R.RPRT_STATUS_CXL i) = 0 ∧ t.portSlot i = { (s.portSlot i) with up := false } ∧
      (∀ j, j ≠ i.val → t.portSlot j = s.portSlot j) ∧
      (∀ p, s.extCap? i extDPC = some p → t.cfgBits i (p + 8) 0 1 = 1 ∧ t.cfgBits i (p + 8) 1 2 = k % 4) ∧
      t.io = { s.io with
        slots := t.io.slots, cfg := t.io.cfg, dma := s.io.dma.map (fun d => if d.port = i.val then
          { d with ans := false } else d) } ∧
      t.region i = regionDRAINING ∧ s.OnlyDrains i t ∧ t.home.sweeps.length = s.home.sweeps.length + 16 ∧
      s.OnlyFields [R.RPRT_STATUS_CONTAINED i, R.RPRT_STATUS_CXL i, R.RPRT_STATUS_REGION_STATE i] t ∧
      s.Only [.regs, .home, .io] t) ∧
  (∀ (i : RPort) (k : Nat) (s : State), s.portUp i = true ∧ s.contained i = false →
    s.region i ≠ regionONLINE ∧ s.region i ≠ regionFILLING → s.get (R.RPRT_CTL_FAULT_ON_CONTAINED i) = 0 →
    Completes (.portContainment i k) s fun t =>
      t.contained i = true ∧ t.get (R.RPRT_STATUS_CXL i) = 0 ∧ t.portSlot i = { (s.portSlot i) with up := false } ∧
      (∀ j, j ≠ i.val → t.portSlot j = s.portSlot j) ∧
      (∀ p, s.extCap? i extDPC = some p → t.cfgBits i (p + 8) 0 1 = 1 ∧ t.cfgBits i (p + 8) 1 2 = k % 4) ∧
      t.io = { s.io with
        slots := t.io.slots, cfg := t.io.cfg, dma := s.io.dma.map (fun d => if d.port = i.val then
          { d with ans := false } else d) } ∧
      (∀ (h : Hart) (x : Access), (s.hart h).mmio = some (x, some i) → t.hart h = { s.hart h with mmio := none, mode := x.priv, lcofi := (t.hart h).lcofi, out := .value (2 ^ (8 * x.size) - 1) }) ∧
      (∀ h : Hart, (∀ x, (s.hart h).mmio ≠ some (x, some i)) → t.hart h = s.hart h) ∧
      s.OnlyFields (R.RPRT_STATUS_CONTAINED i :: R.RPRT_STATUS_CXL i :: (List.range 384).flatMap countFields) t ∧
      s.Only [.regs, .core, .io] t) ∧
  (∀ (h : Hart) (x : Access) (i : RPort) (k : Nat) (s : State), s.portUp i = true ∧ s.contained i = false →
    s.get (R.RPRT_CTL_FAULT_ON_CONTAINED i) = 1 → (s.hart h).mmio = some (x, some i) →
    (s.reachHart .m x.ga).isEcam = false → s.demands h = false ∧ x.elem = none → Completes (.portContainment i k) s fun t =>
      t.contained i = true ∧ t.get (R.RPRT_STATUS_CXL i) = 0 ∧ t.get (R.RPRT_ERR_VALID i) = 1 ∧
      ((s.recCtl (bankRoot i) (s.recChoice (bankRoot i))).els = true → (t.errRec (bankRoot i) (s.recChoice (bankRoot
        i))).valid = true) ∧
      (t.hart h).mmio = none ∧ (t.hart h).resv = none ∧ (t.hart h).out = .trap 5 x.va none ∧
      t.io.dma = s.io.dma.map (fun d => if d.port = i.val then { d with ans := false } else d) ∧
      s.Only [.regs, .free, .core, .home, .pass, .io, .ras, .tvx] t) ∧
  (∀ (i : RPort) (k : Nat) (s : State), (s.portUp i = false ∨ s.contained i = true) →
    Completes (.portContainment i k) s fun t =>
      s.Only [] t) ∧
  (∀ (i : RPort) (s : State), s.contained i = true → Completes (.dpcStatusClear i) s fun t =>
      t.contained i = false ∧ t.portSlot i = { (s.portSlot i) with holding := true } ∧
      (∀ j, j ≠ i.val → t.portSlot j = s.portSlot j) ∧ (∀ p, s.extCap? i extDPC = some p → t.cfgBits i (p + 8) 0 1 = 0) ∧
      t.io = { s.io with slots := t.io.slots, cfg := t.io.cfg } ∧ s.OnlyFields [R.RPRT_STATUS_CONTAINED i] t ∧
      s.Only [.regs, .io] t) ∧
  (∀ (i : RPort) (s : State), s.contained i = false → Completes (.dpcStatusClear i) s fun t =>
      s.Only [] t) ∧
  (∀ (i : RPort) (s : State), (s.portSlot i).holding = true → Completes (.containmentHoldExpiry i) s fun t =>
      t.portSlot i = { (s.portSlot i) with holding := false } ∧ s.OnlySlot i t ∧ s.Only [.io] t) ∧
  (∀ (i : RPort) (s : State), (s.portSlot i).holding = false → Completes (.containmentHoldExpiry i) s fun t =>
      s.Only [] t) ∧
  (∀ (h : Hart) (x : Access) (i : RPort) (s : State), (s.hart h).mmio = some (x, some i) →
    ((s.reachHart .m x.ga).isEcam = true ∨ s.get (R.RPRT_CTL_FAULT_ON_CONTAINED i) = 0) →
    Completes (.mmioCplTimeout h) s fun t =>
      t.hart h = { s.hart h with mmio := none, mode := x.priv, lcofi := (t.hart h).lcofi, out := .value (2 ^ (8 * x.size) - 1) } ∧
      s.OnlyHart h t ∧ s.OnlyFields (countFields h) t ∧ s.Only [.regs, .core] t) ∧
  (∀ (h : Hart) (x : Access) (i : RPort) (s : State), (s.hart h).mmio = some (x, some i) →
    (s.reachHart .m x.ga).isEcam = false → s.get (R.RPRT_CTL_FAULT_ON_CONTAINED i) = 1 →
    s.demands h = false ∧ x.elem = none → Completes (.mmioCplTimeout h) s fun t =>
      (t.hart h).mmio = none ∧ (t.hart h).resv = none ∧ (t.hart h).out = .trap 5 x.va none ∧
      (s.NoNmi (bankRoot i) errUED → s.Faults h 5 x t) ∧
      (if s.get (R.RPRT_ERR_VALID i) = 1 then t.get (R.RPRT_ERR_OVERFLOW i) = 1 else t.get (R.RPRT_ERR_VALID i) = 1 ∧ t.get
        (R.RPRT_ERR_WRITE i) = 0 ∧ t.get (R.RPRT_ERR_ADDR i) = x.ga % 2 ^ 56) ∧
      s.Recorded (bankRoot i) ⟨true, errUED, false, x.ga % 2 ^ 56, recInfo 0 0 (agROOT + i) s.pkgId, 0, s.pwr.now⟩ t ∧
      s.Recorded (bankCore h) ⟨true, errUED, false, x.ga % 2 ^ 56, recInfo 0 0 (h / 32) s.pkgId, 0, s.pwr.now⟩ t ∧
      s.Only [.regs, .free, .core, .pass, .ras, .tvx] t) ∧
  (∀ (h : Hart) (s : State), (s.hart h).mmio.bind (fun e => e.2) = none → Completes (.mmioCplTimeout h) s fun t =>
      s.Only [] t) ∧
  (∀ (h : Hart) (x : Access) (i : RPort) (ok : Bool) (v : Nat) (s : State), (s.hart h).mmio = some (x, some i) →
    Completes (.mmioCompletion h ok v) s fun t =>
      t.hart h = { s.hart h with mmio := none, mode := x.priv, lcofi := (t.hart h).lcofi, out := .value (if ok then v % 2 ^ (8 * x.size) else 2 ^ (8 * x.size) - 1) } ∧
      s.OnlyHart h t ∧ s.OnlyFields (countFields h ++ eventFields) t ∧ s.Only [.regs, .core, .pass] t) ∧
  (∀ (h : Hart) (ok : Bool) (v : Nat) (s : State), (s.hart h).mmio.bind (fun e => e.2) = none →
    Completes (.mmioCompletion h ok v) s fun t =>
      s.Only [] t) ∧
  (∀ (i : RPort) (rid : Nat) (n ga : Nat) (k : Nat) (r w : Bool) (s : State), s.portUp i = true ∧ s.contained i = false →
    0 < n → (s.reachDevice ga).isMem = true ∧ (s.reachDevice (ga + (n - 1))).isMem = true → s.io.reqs = [] →
    Completes (.deviceDmaRequest i rid (.read n) (.to ga k r w)) s fun t =>
      t.io.dma = s.io.dma ++
        [{ id := s.io.nextDma, port := i, rid := rid, size := n, ans := true, left := (ioLines ga n).length }] ∧
      t.io.reqs.map (fun r => (r.agent, r.msg.opc, r.msg.addr, r.msg.rcid, r.msg.mcid)) = (ioLines ga n).map (fun p =>
        (agROOT + i.val, opRD_CUR, p.1, s.get (R.QOS_RPRT_ID_RCID i), s.get (R.QOS_RPRT_ID_MCID i))) ∧
      t.io.reqs.map (fun r => (r.why, r.st)) = (ioLines ga n).map (fun p => (.device s.io.nextDma p.2.2.2 p.2.1 p.2.2.1,
        .sent)) ∧
      t.net = s.net ++ t.io.reqs.map (fun r => r.msg) ∧
      t.io = { s.io with dma := t.io.dma, nextDma := s.io.nextDma + 1, reqs := t.io.reqs } ∧ s.OnlyFields (eventFields) t ∧
      s.Only [.regs, .net, .pass, .io] t) ∧
  (∀ (i : RPort) (rid : Nat) (ga : Nat) (b : List Nat) (rlx psn : Bool) (k : Nat) (r w : Bool) (s : State),
    s.portUp i = true ∧ s.contained i = false → 0 < b.length →
    (s.reachDevice ga).isMem = true ∧ (s.reachDevice (ga + (b.length - 1))).isMem = true → s.io.reqs = [] →
    Completes (.deviceDmaRequest i rid (.write b rlx psn) (.to ga k r w)) s fun t =>
      t.io.dma = s.io.dma ++ [{ id := s.io.nextDma, port := i, rid := rid, size := b.length, ans := false, left := (ioLines ga b.length).length }] ∧
      t.io.reqs.map (fun r => (r.agent, r.msg.opc, r.msg.addr, r.msg.rcid, r.msg.mcid)) = (ioLines ga b.length).map (fun p
        => (agROOT + i.val, if p.2.2.1 = 64 then opWR_FULL else opWR_PART, p.1, s.get (R.QOS_RPRT_ID_RCID i), s.get
        (R.QOS_RPRT_ID_MCID i))) ∧
      t.io.reqs.map (fun r => (r.why, r.st)) = (ioLines ga b.length).map (fun p => (.device s.io.nextDma p.2.2.2 p.2.1
        p.2.2.1, .sent)) ∧
      t.io.reqs.map (fun r => (r.msg.ord, r.msg.poison, r.msg.data)) = (ioLines ga b.length).map (fun p => (if rlx then 0
        else 1, psn, BitVec.ofNat 512 ((ofBytes b / 2 ^ (8 * p.2.2.2) % 2 ^ (8 * p.2.2.1)) <<< (8 * p.2.1)))) ∧
      (∀ r ∈ t.io.reqs, r.msg.opc = opWR_PART → ∃ p ∈ ioLines ga b.length, p.1 = r.msg.addr ∧ r.msg.byteMask = (2 ^ p.2.2.1
        - 1) <<< p.2.1) ∧
      t.net = s.net ++ t.io.reqs.map (fun r => r.msg) ∧
      t.io = { s.io with dma := t.io.dma, nextDma := s.io.nextDma + 1, reqs := t.io.reqs, cfg := t.io.cfg } ∧
      (psn = true → ∀ p, s.extCap? i extAER = some p → t.cfgBits i (p + 4) 12 1 = 1) ∧ s.OnlyFields (eventFields) t ∧
      s.Only [.regs, .net, .pass, .io] t) ∧
  (∀ (i : RPort) (rid : Nat) (ga aop asize v cmp : Nat) (k : Nat) (r w : Bool) (s : State),
    s.portUp i = true ∧ s.contained i = false → atomicLegal aop asize (ga % 64) = true →
    (s.reachDevice ga).isMem = true ∧ (s.reachDevice (ga + (4 * 2 ^ asize - 1))).isMem = true → s.io.reqs = [] →
    Completes (.deviceDmaRequest i rid (.atomic aop asize v cmp) (.to ga k r w)) s fun t =>
      t.io.dma = s.io.dma ++ [{ id := s.io.nextDma, port := i, rid := rid, size := 4 * 2 ^ asize, ans := true, left := 1 }]
        ∧
      t.io.reqs.map (fun r => (r.agent, r.msg.opc, r.msg.addr, r.msg.rcid, r.msg.mcid)) = [(agROOT + i.val, opATOMIC, ga /
        64, s.get (R.QOS_RPRT_ID_RCID i), s.get (R.QOS_RPRT_ID_MCID i))] ∧
      (t.io.reqs.all (fun r => r.st == .sent && r.why == .device s.io.nextDma 0 0 (4 * 2 ^ asize))) = true ∧
      t.io.reqs.map (fun r => (r.msg.aop, r.msg.asize, r.msg.aoff, r.msg.data)) = [(aop, asize, ga % 64, atomicPayload aop
        (4 * 2 ^ asize) v cmp)] ∧
      t.net = s.net ++ t.io.reqs.map (fun r => r.msg) ∧
      t.io = { s.io with dma := t.io.dma, nextDma := s.io.nextDma + 1, reqs := t.io.reqs } ∧ s.OnlyFields (eventFields) t ∧
      s.Only [.regs, .net, .pass, .io] t) ∧
  (∀ (i : RPort) (rid : Nat) (ga aop asize v cmp : Nat) (k : Nat) (r w : Bool) (s : State),
    s.portUp i = true ∧ s.contained i = false → atomicLegal aop asize (ga % 64) = false →
    (s.reachDevice ga).isMem = true ∧ (s.reachDevice (ga + (4 * 2 ^ asize - 1))).isMem = true →
    Completes (.deviceDmaRequest i rid (.atomic aop asize v cmp) (.to ga k r w)) s fun t =>
      t.io = { s.io with cpls := s.io.cpls ++ [⟨i, rid, false, 0⟩] } ∧ s.OnlyFields (eventFields) t ∧
      s.Only [.regs, .pass, .io] t) ∧
  (∀ (i : RPort) (rid : Nat) (x : Dma) (s : State), s.portUp i = true ∧ s.contained i = false → s.iommuBits 0x48 48 1 = 0 →
    dmaPoisoned x = false → Completes (.deviceDmaRequest i rid x .fault) s fun t =>
      t.io = { s.io with cpls := s.io.cpls ++ (if dmaAnswered x then [⟨i, rid, false, 0⟩] else []) } ∧ t.free = s.free + 1 ∧
      s.OnlyFields (eventFields) t ∧ s.Only [.regs, .free, .pass, .io] t) ∧
  (∀ (i : RPort) (rid : Nat) (n ga : Nat) (k : Nat) (r w : Bool) (s : State), s.portUp i = true ∧ s.contained i = false →
    (s.reachDevice ga).isMem = false → Completes (.deviceDmaRequest i rid (.read n) (.to ga k r w)) s fun t =>
      t.io = { s.io with cpls := s.io.cpls ++ [⟨i, rid, false, 0⟩] } ∧ s.Refused (s.reachDevice ga).why 1 rid ga false t ∧
      s.OnlyFields ([FRef.all R.rPKG_DECODE_ERR, FRef.all R.rPKG_DECODE_ADDR] ++ eventFields) t ∧
      s.Only [.regs, .pass, .io] t) ∧
  (∀ (i : RPort) (rid : Nat) (b : List Nat) (rlx : Bool) (ga : Nat) (k : Nat) (r w : Bool) (s : State),
    s.portUp i = true ∧ s.contained i = false → (s.reachDevice ga).isMem = false →
    Completes (.deviceDmaRequest i rid (.write b rlx false) (.to ga k r w)) s fun t =>
      s.Refused (s.reachDevice ga).why 1 rid ga true t ∧
      s.OnlyFields ([FRef.all R.rPKG_DECODE_ERR, FRef.all R.rPKG_DECODE_ADDR] ++ eventFields) t ∧
      s.Only [.regs, .pass, .io] t) ∧
  (∀ (i : RPort) (rid : Nat) (ga aop asize v cmp : Nat) (k : Nat) (r w : Bool) (s : State),
    s.portUp i = true ∧ s.contained i = false → (s.reachDevice ga).isMem = false →
    Completes (.deviceDmaRequest i rid (.atomic aop asize v cmp) (.to ga k r w)) s fun t =>
      t.io = { s.io with cpls := s.io.cpls ++ [⟨i, rid, false, 0⟩] } ∧ s.Refused (s.reachDevice ga).why 1 rid ga true t ∧
      s.OnlyFields ([FRef.all R.rPKG_DECODE_ERR, FRef.all R.rPKG_DECODE_ADDR] ++ eventFields) t ∧
      s.Only [.regs, .pass, .io] t) ∧
  (∀ (i : RPort) (rid : Nat) (x : Dma) (l : Xlate) (s : State), (s.portUp i = false ∨ s.contained i = true) →
    Completes (.deviceDmaRequest i rid x l) s fun t =>
      s.Only [] t) ∧
  (∀ (i : RPort) (rid a v : Nat) (h f id : Nat) (s : State), s.portUp i = true → s.reachDevice a = .irq →
    h = (a % 2 ^ 44 - irqBase) / 0x20000 ∧ f = (a % 2 ^ 44 - irqBase) / 0x1000 % 32 →
    id = (if a % 0x1000 = 0 then v % 2 ^ 32 else byteSwap32 v) → isSetPending (a % 2 ^ 44) = true →
    s.fileOpen h = true ∧ 1 ≤ id ∧ id ≤ 2047 → Completes (.deviceMsiWrite i rid (some a) v) s fun t =>
      s.ToFile h f id rid t ∧ s.OnlyFields (eventFields) t ∧ s.Only [.regs, .pass] t) ∧
  (∀ (i : RPort) (rid a v : Nat) (h : Nat) (s : State), s.portUp i = true → s.reachDevice a = .irq →
    h = (a % 2 ^ 44 - irqBase) / 0x20000 ∧ isSetPending (a % 2 ^ 44) = true →
    s.fileOpen h = false ∧ s.get R.IOMMU_MSI_DROPS_DROPS < 2 ^ 32 - 2 ∧ h < 2 ^ 9 ∧ rid < 2 ^ 16 →
    Completes (.deviceMsiWrite i rid (some a) v) s fun t =>
      s.get R.IOMMU_MSI_DROPS_DROPS < t.get R.IOMMU_MSI_DROPS_DROPS ∧
      t.get R.IOMMU_MSI_DROPS_LAST_HART = h ∧ t.get R.IOMMU_MSI_DROPS_LAST_RID = rid ∧ s.OnlyFields (eventFields) t ∧
      s.Only [.regs, .pass] t) ∧
  (∀ (i : RPort) (rid a v : Nat) (s : State), s.portUp i = true → (s.reachDevice a).isMem = true → s.io.reqs = [] →
    a % 64 ≤ 60 → Completes (.deviceMsiWrite i rid (some a) v) s fun t =>
      t.io.reqs.map (fun r => (r.agent, r.msg.opc, r.msg.addr, r.msg.ord, r.msg.data, r.msg.byteMask)) = [(agROOT + i.val,
        opWR_PART, a / 64, 0, BitVec.ofNat 512 ((v % 2 ^ 32) <<< (8 * (a % 64))), 15 <<< (a % 64))] ∧
      t.net = s.net ++ t.io.reqs.map (fun r => r.msg) ∧ t.io = { s.io with reqs := t.io.reqs } ∧ s.Only [.net, .io] t) ∧
  (∀ (i : RPort) (rid a v : Nat) (s : State), s.portUp i = true → (s.reachDevice a).isMem = false →
    (isSetPending (a % 2 ^ 44) = false ∨ ∃ c : Fin 16, s.reachDevice a = .fault c) →
    Completes (.deviceMsiWrite i rid (some a) v) s fun t =>
      s.Refused (s.reachDevice a).why 1 rid a true t ∧
      s.OnlyFields ([FRef.all R.rPKG_DECODE_ERR, FRef.all R.rPKG_DECODE_ADDR]) t ∧ s.Only [.regs] t) ∧
  (∀ (i : RPort) (rid v : Nat) (s : State), s.portUp i = true → rid < 2 ^ 16 →
    s.iommuBits 0x48 48 1 = 0 ∧ s.get R.IOMMU_MSI_DROPS_DROPS < 2 ^ 32 - 2 →
    Completes (.deviceMsiWrite i rid none v) s fun t =>
      s.get R.IOMMU_MSI_DROPS_DROPS < t.get R.IOMMU_MSI_DROPS_DROPS ∧ t.free = s.free + 1 ∧ s.OnlyFields (eventFields) t ∧
      s.Only [.regs, .free, .pass] t) ∧
  (∀ (i : RPort) (rid v : Nat) (a : Option Nat) (s : State), s.portUp i = false →
    Completes (.deviceMsiWrite i rid a v) s fun t =>
      s.Only [] t) ∧
  (∀ (k : Fin 1024) (b : Bool) (s : State), 1 ≤ k.val ∧ k.val ≤ 128 →
    (s.io.aplic.testBit k = b ∨ (s.aplicSource k).2 < 4 ∨ ((s.aplicSource k).2 = 4 ∧ b = false) ∨ ((s.aplicSource k).2 = 5 ∧ b = true)) →
    Completes (.intxLevelChange k b) s fun t =>
      t.io = { s.io with aplic := setBits s.io.aplic k 1 (b2n b) } ∧
      (∀ j, t.io.aplic.testBit j = (if j = k.val then b else s.io.aplic.testBit j)) ∧ t.io.aplicIp = s.io.aplicIp ∧
      s.Only [.io] t) ∧
  (∀ (k : Fin 1024) (b : Bool) (d m : Nat) (s : State), 1 ≤ k.val ∧ k.val ≤ 128 → s.io.aplic.testBit k = !b →
    s.aplicSource k = (d, m) → (((m = 4 ∨ m = 6) ∧ b = true) ∨ ((m = 5 ∨ m = 7) ∧ b = false)) →
    ((s.aplic d (0x1E00 + 4 * (k.val / 32))).testBit (k.val % 32) = false ∨ (s.aplic d 0).testBit 8 = false) →
    Completes (.intxLevelChange k b) s fun t =>
      t.aplicPend d k = true ∧ (∀ j, t.io.aplic.testBit j = (if j = k.val then b else s.io.aplic.testBit j)) ∧
      (∀ e j, ¬ (e = d ∧ j = k.val) → t.aplicPend e j = s.aplicPend e j) ∧
      t.io = { s.io with aplic := t.io.aplic, aplicIp := t.io.aplicIp } ∧ s.Only [.io] t) ∧
  (∀ (k : Fin 1024) (b : Bool) (d m e h : Nat) (s : State), 1 ≤ k.val ∧ k.val ≤ 128 → s.io.aplic.testBit k = !b →
    s.aplicSource k = (d, m) → (((m = 4 ∨ m = 6) ∧ b = true) ∨ ((m = 5 ∨ m = 7) ∧ b = false)) →
    (s.aplic d (0x1E00 + 4 * (k.val / 32))).testBit (k.val % 32) = true ∧ (s.aplic d 0).testBit 8 = true →
    e = s.aplic d (0x3000 + 4 * k.val) ∧ h = bits e 18 14 ∧ h < 384 → s.fileOpen h = true ∧ 1 ≤ e % 2 ^ 11 →
    Completes (.intxLevelChange k b) s fun t =>
      s.ToFile h (if d = 0 then 0 else 1 + bits e 12 6) (e % 2 ^ 11) 0 t ∧
      t.pass = { s.pass with mgt := t.pass.mgt, asked := t.pass.asked } ∧ t.aplicPend d k = false ∧
      (∀ j, t.io.aplic.testBit j = (if j = k.val then b else s.io.aplic.testBit j)) ∧
      t.io = { s.io with aplic := t.io.aplic, aplicIp := t.io.aplicIp } ∧ s.Only [.pass, .io] t) ∧
  (∀ (k : Fin 1024) (b : Bool) (d m : Nat) (s : State), 1 ≤ k.val ∧ k.val ≤ 128 → s.io.aplic.testBit k = !b →
    s.aplicSource k = (d, m) → ((m = 6 ∧ b = false) ∨ (m = 7 ∧ b = true)) → Completes (.intxLevelChange k b) s fun t =>
      t.aplicPend d k = false ∧ (∀ j, t.io.aplic.testBit j = (if j = k.val then b else s.io.aplic.testBit j)) ∧
      (∀ e j, ¬ (e = d ∧ j = k.val) → t.aplicPend e j = s.aplicPend e j) ∧
      t.io = { s.io with aplic := t.io.aplic, aplicIp := t.io.aplicIp } ∧ s.Only [.io] t) ∧
  (∀ (k : Fin 1024) (b : Bool) (s : State), (k.val = 0 ∨ 128 < k.val) → Completes (.intxLevelChange k b) s fun t =>
      s.Only [] t) ∧
  (∀ (a : Nat) (w : BitVec 32) (v h f id : Nat) (s : State), v = w.toNat →
    a / 2 ^ 44 = s.pkgId ∧ isSetPending (a % 2 ^ 44) = true →
    h = (a % 2 ^ 44 - irqBase) / 0x20000 ∧ f = (a % 2 ^ 44 - irqBase) / 0x1000 % 32 →
    id = (if a % 0x1000 = 0 then v % 2 ^ 32 else byteSwap32 v) → s.fileOpen h = true ∧ 1 ≤ id ∧ id ≤ 2047 →
    Completes (.seteipnumStore a w) s fun t =>
      t.pass = { s.pass with
        mgt := s.pass.mgt ++ [(h / 32, msiMgt h f id)], asked := s.pass.asked ++
          [{ die := h / 32, tag := 256, write := true, msi := some (msiMgt h f id, 0) }] } ∧
      s.Only [.pass] t) ∧
  (∀ (a : Nat) (w : BitVec 32) (v h f id : Nat) (s : State), v = w.toNat →
    a / 2 ^ 44 = s.pkgId ∧ isSetPending (a % 2 ^ 44) = true →
    h = (a % 2 ^ 44 - irqBase) / 0x20000 ∧ f = (a % 2 ^ 44 - irqBase) / 0x1000 % 32 →
    id = (if a % 0x1000 = 0 then v % 2 ^ 32 else byteSwap32 v) → (s.fileOpen h = true ∧ (id = 0 ∨ 2047 < id)) →
    Completes (.seteipnumStore a w) s fun t =>
      s.Only [] t) ∧
  (∀ (a : Nat) (w : BitVec 32) (v h f id : Nat) (s : State), v = w.toNat →
    a / 2 ^ 44 = s.pkgId ∧ isSetPending (a % 2 ^ 44) = true →
    h = (a % 2 ^ 44 - irqBase) / 0x20000 ∧ f = (a % 2 ^ 44 - irqBase) / 0x1000 % 32 →
    id = (if a % 0x1000 = 0 then v % 2 ^ 32 else byteSwap32 v) → s.fileOpen h = false →
    Completes (.seteipnumStore a w) s fun t =>
      t.get R.IOMMU_MSI_DROPS_DROPS = satAdd (R.IOMMU_MSI_DROPS_DROPS).w (s.get R.IOMMU_MSI_DROPS_DROPS) 1 ∧
      t.get R.IOMMU_MSI_DROPS_LAST_HART = h ∧ t.get R.IOMMU_MSI_DROPS_LAST_RID = 0 ∧
      s.OnlyFields [FRef.all R.rIOMMU_MSI_DROPS] t ∧ s.Only [.regs] t) ∧
  (∀ (a : Nat) (w : BitVec 32) (s : State), (a / 2 ^ 44 ≠ s.pkgId ∨ isSetPending (a % 2 ^ 44) = false) →
    Completes (.seteipnumStore a w) s fun t =>
      s.Only [] t)

/-- A write of a selection takes it, and CLEAR in it zeroes the count with its overflow bit (spec/18 R405); a write of a
count takes the count, and clears OVF where that bit is 1 (R406); a counter that does not exist, or whose die is
offline, ignores both (R408); FREEZE stops and starts every uncore counter (R409). A sweep at the next boundary, once
GTIME has come to it, samples the banks that are enabled and writes header and records, line by line, as ordered full-
line writes of the XCE agent under RCID 0 and MCID 0; it is skipped and counted where the ring has no room or the last
is still being written, and ended with its fault and record where the address map refuses the ring (R410, R411). -/
def Obligations.Counters : Prop :=
  (∀ (b : Fin 354) (j : Fin 32) (v : Word) (s : State), s.ctrOpen b j = true → Completes (.ccolSelectWrite b j v) s fun t =>
      t.reg (R.rCCOL_SELECT b j) = v &&& 0x2FFFFF7FFFF ∧
      t.reg (R.rCCOL_COUNT b j) = (if v.toNat.testBit 40 then 0 else s.reg (R.rCCOL_COUNT b j)) ∧
      s.OnlyRegs [R.rCCOL_SELECT b j, R.rCCOL_COUNT b j] t ∧ s.Only [.regs] t) ∧
  (∀ (b : Fin 354) (j : Fin 32) (v : Word) (s : State), s.ctrOpen b j = false → Completes (.ccolSelectWrite b j v) s fun t =>
      s.Only [] t) ∧
  (∀ (b : Fin 354) (j : Fin 32) (s : State), s.ctrOpen b j = true → Completes (.counterClear b j) s fun t =>
      t.reg (R.rCCOL_COUNT b j) = 0 ∧ s.OnlyRegs [R.rCCOL_COUNT b j] t ∧ s.Only [.regs] t) ∧
  (∀ (b : Fin 354) (j : Fin 32) (s : State), s.ctrOpen b j = false → Completes (.counterClear b j) s fun t =>
      s.Only [] t) ∧
  (∀ (b : Fin 354) (j : Fin 32) (v : Word) (s : State), s.ctrOpen b j = true → Completes (.ccolCountWrite b j v) s fun t =>
      t.get (R.CCOL_COUNT_COUNT b j) = v.toNat % 2 ^ 48 ∧
      t.get (R.CCOL_COUNT_OVF b j) = (if v.toNat.testBit 48 then 0 else s.get (R.CCOL_COUNT_OVF b j)) ∧
      s.OnlyFields [R.CCOL_COUNT_COUNT b j, R.CCOL_COUNT_OVF b j] t ∧ s.Only [.regs] t) ∧
  (∀ (b : Fin 354) (j : Fin 32) (v : Word) (s : State), s.ctrOpen b j = false → Completes (.ccolCountWrite b j v) s fun t =>
      s.Only [] t) ∧
  (∀ (s : State), Completes (.counterFreeze) s fun t =>
      t.get R.CCOL_CTL_FREEZE = 1 ∧ s.OnlyFields [R.CCOL_CTL_FREEZE] t ∧ s.Only [.regs] t) ∧
  (∀ (s : State), Completes (.counterUnfreeze) s fun t =>
      t.get R.CCOL_CTL_FREEZE = 0 ∧ s.OnlyFields [R.CCOL_CTL_FREEZE] t ∧ s.Only [.regs] t) ∧
  (∀ (b : Nat) (u : State) (bs : List Nat) (n : Nat) (s : State), s.Sweeps b u bs n →
    u.ccol.writing = 0 ∧ u.sweepUsed + bs.length ≤ 2 ^ u.get R.CCOL_RING_SIZE_LOG2_BYTES → u.io.reqs = [] →
    (∀ i ∈ List.range n, (u.reachDevice (u.sweepAt i)).isMem = true) → Completes (.ccolSweep) s fun t =>
      t.ccol = { writing := n, done := 0, len := bs.length, next := b + 1 } ∧
      t.io.reqs.map (fun r => (r.agent, r.stream, r.msg.opc, r.msg.ord, r.msg.addr)) = (List.range n).map (fun i => (agXCE,
        streamCCOL, opWR_FULL, 1, u.sweepAt i / 64)) ∧
      t.io.reqs.map (fun r => (r.why, r.st, r.msg.data)) = (List.range n).map (fun i => (.ccol i, .sent, BitVec.ofNat 512
        (ofBytes ((bs.drop (64 * i)).take 64)))) ∧
      t.io.reqs.all (fun r => r.msg.rcid == 0 && r.msg.mcid == 0) = true ∧ t.net = u.net ++ t.io.reqs.map (fun r => r.msg) ∧
      t.io = { u.io with reqs := t.io.reqs } ∧ t.free = u.free + 354 ∧ u.Only [.net, .free, .io, .ccol] t ∧
      s.Only [.regs, .net, .free, .core, .pass, .meter, .qos, .hzn, .io, .ras, .tvx, .pwr, .ccol] t) ∧
  (∀ (b : Nat) (u : State) (bs : List Nat) (n : Nat) (s : State), s.Sweeps b u bs n →
    u.ccol.writing = 0 ∧ u.sweepUsed + bs.length ≤ 2 ^ u.get R.CCOL_RING_SIZE_LOG2_BYTES → 0 < n →
    (u.reachDevice (u.sweepAt 0)).isMem = false → Completes (.ccolSweep) s fun t =>
      t.ccol = { next := b + 1 } ∧ t.get R.CCOL_CTL_SWEEP_ENABLE = 0 ∧ t.get R.CCOL_CTL_RING_FAULT = 1 ∧
      t.get R.CCOL_STATUS_SWEEPS_SKIPPED = satAdd (R.CCOL_STATUS_SWEEPS_SKIPPED).w (u.get R.CCOL_STATUS_SWEEPS_SKIPPED) 1 ∧
      t.get R.CCOL_RING_PROD_PROD = u.get R.CCOL_RING_PROD_PROD ∧
      u.Refused (u.reachDevice (u.sweepAt 0)).why 2 1 (u.sweepAt 0) true t ∧
      u.Recorded bankTvx ⟨true, errUED, false, u.sweepAt 0 % 2 ^ 56, recInfo 0 0 agXCE u.pkgId, 0, u.pwr.now⟩ t ∧
      t.net = u.net ∧ u.Only [.regs, .free, .core, .pass, .io, .ras, .tvx, .ccol] t ∧
      s.Only [.regs, .net, .free, .core, .pass, .meter, .qos, .hzn, .io, .ras, .tvx, .pwr, .ccol] t) ∧
  (∀ (b : Nat) (u : State) (bs : List Nat) (n : Nat) (s : State), s.Sweeps b u bs n →
    (u.ccol.writing ≠ 0 ∨ 2 ^ u.get R.CCOL_RING_SIZE_LOG2_BYTES < u.sweepUsed + bs.length) →
    Completes (.ccolSweep) s fun t =>
      t.get R.CCOL_STATUS_SWEEPS_SKIPPED = satAdd (R.CCOL_STATUS_SWEEPS_SKIPPED).w (u.get R.CCOL_STATUS_SWEEPS_SKIPPED) 1 ∧
      t.ccol = { u.ccol with next := b + 1 } ∧ t.free = u.free + 354 ∧ u.OnlyFields [R.CCOL_STATUS_SWEEPS_SKIPPED] t ∧
      u.Only [.regs, .free, .ccol] t ∧
      s.Only [.regs, .net, .free, .core, .pass, .meter, .qos, .hzn, .io, .ras, .tvx, .pwr, .ccol] t) ∧
  (∀ (s : State), s.get R.CCOL_CTL_SWEEP_ENABLE = 0 → Completes (.ccolSweep) s fun t =>
      s.Only [] t)

/-- A COMMAND is queued in the order of its arrival, or waits as an immediate command (spec/15 R348, R352); one of an
opcode that is not known ends INVALID_OPCODE and freezes its ingress (R349, R351); one that comes to a frozen ingress,
to a full queue, with a tag in use or during a long operation is answered so, and one of an unknown version is told
the versions (R348, R351, R353, R355). A frame on the MSL is unstuffed, checked and counted, and a good one does what
its packet does (R345, R347); GO, ACK and the mailbox buffers carry one packet each, with the MSI where it is enabled
(R346). A DATA packet that fits its phase is taken and the next block is asked for; one that does not fit, or does not
come, ends the command XFER_ERROR and freezes its ingress, whose other commands complete QUEUE_FROZEN (R351, R354).
Where nothing applies, nothing changes. -/
def Obligations.PacketsAndIngresses : Prop :=
  (∀ (g : Ingress) (k : Pkt) (s : State), s.ingUp g = true ∧ k.typ = 0 ∧ pktOk k = true → s.Queues g k →
    Completes (.commandReceive g k) s fun t =>
      t.tvx = { s.tvx with queue := s.tvx.queue ++ [{ ing := g, pkt := k }] } ∧ s.Only [.tvx] t) ∧
  (∀ (g : Ingress) (k : Pkt) (s : State), s.ingUp g = true ∧ k.typ = 0 ∧ pktOk k = true → s.Meets k →
    (s.ing g).frozen = false ∧ s.tvx.queue = [] → opRuns s.tvx.recovery k.version k.opcode = false →
    Completes (.commandReceive g k) s fun t =>
      s.Freezes { ing := g, pkt := k } [] stINVALID_OPCODE 0 t ∧ s.Only [.tvx] t) ∧
  (∀ (g : Ingress) (k : Pkt) (s : State), s.ingUp g = true ∧ k.typ = 0 ∧ pktOk k = true →
    1 ≤ k.version ∧ k.version ≤ 3 ∧ s.tvx.longOp = none → s.tvx.recovery = false ∧ opImmediate k.version k.opcode = true →
    Completes (.commandReceive g k) s fun t =>
      t.tvx = ((s.setIng g { s.ing g with imm := (s.ing g).imm ++ [k] })).tvx ∧ s.Only [.tvx] t) ∧
  (∀ (g : Ingress) (k : Pkt) (s : State), s.ingUp g = true ∧ k.typ = 0 ∧ pktOk k = true → s.Meets k →
    (s.ing g).frozen = true → Completes (.commandReceive g k) s fun t =>
      t.tvx = ((s.setIng g { s.ing g with errTags := (s.ing g).errTags ++ [k.tag] }).sendPkt g (rspPkt k stFROZEN 0 [])).tvx
        ∧
      s.Only [.tvx] t) ∧
  (∀ (g : Ingress) (k : Pkt) (s : State), s.ingUp g = true ∧ k.typ = 0 ∧ pktOk k = true → s.Meets k →
    (s.ing g).frozen = false ∧ 32 ≤ (s.queuedOf g).length → Completes (.commandReceive g k) s fun t =>
      t.tvx = (s.sendPkt g (rspPkt k stFULL 0 [])).tvx ∧ s.Only [.tvx] t) ∧
  (∀ (g : Ingress) (k : Pkt) (s : State), s.ingUp g = true ∧ k.typ = 0 ∧ pktOk k = true → s.Meets k →
    (s.ing g).frozen = false ∧ (s.queuedOf g).length < 32 → s.tagBusy g k.tag = true →
    Completes (.commandReceive g k) s fun t =>
      t.tvx = (s.sendPkt g (rspPkt k stTAG_IN_USE 0 [])).tvx ∧ s.Only [.tvx] t) ∧
  (∀ (g : Ingress) (k : Pkt) (s : State), s.ingUp g = true ∧ k.typ = 0 ∧ pktOk k = true → (k.version = 0 ∨ 3 < k.version) →
    Completes (.commandReceive g k) s fun t =>
      t.tvx = (s.sendPkt g (rspPkt { k with version := 3 } stUNSUPPORTED 0 [1, 3])).tvx ∧ s.Only [.tvx] t) ∧
  (∀ (g : Ingress) (k : Pkt) (s : State), s.ingUp g = true ∧ k.typ = 0 ∧ pktOk k = true →
    ((k.version = 1 ∨ k.version = 2) ∧ s.tvx.longOp ≠ none) → Completes (.commandReceive g k) s fun t =>
      t.tvx = (s.sendPkt g (rspPkt k stBUSY 0 [])).tvx ∧ s.Only [.tvx] t) ∧
  (∀ (g : Ingress) (k : Pkt) (l : LongOp) (s : State), s.ingUp g = true ∧ k.typ = 0 ∧ pktOk k = true →
    k.version = 3 ∧ s.tvx.longOp = some l → Completes (.commandReceive g k) s fun t =>
      t.sentOn g = s.sentOn g ++ [rspPkt k stBUSY 0 ((t.sentOn g).getLast?.map (fun p => p.data) |>.getD [])] ∧
      ((t.sentOn g).getLast?.map (fun p => (p.data.length, p.data.take 4, (p.data.drop 6).take 4))) = some (14, leBytes 2
        l.cmd.pkt.opcode ++ leBytes 1 l.cmd.pkt.tag ++ leBytes 1 (ingNum l.cmd.ing), leBytes 4 ((s.pwr.now - l.start)
        / 1000000)) ∧
      t.tvx.queue = s.tvx.queue ∧ t.tvx.longOp = s.tvx.longOp ∧ t.ing g = s.ing g ∧ t.free = s.free + 2 ∧
      s.Only [.free, .tvx] t) ∧
  (∀ (g : Ingress) (k : Pkt) (s : State), (s.ingUp g = false ∨ k.typ ≠ 0 ∨ pktOk k = false) →
    Completes (.commandReceive g k) s fun t =>
      s.Only [] t) ∧
  (∀ (bytes : List Nat) (k : Pkt) (s : State), bytes ≠ [] ∧ s.ingUp .msl = true → k.typ = 0 ∧ pktOk k = true ∧ k.wf = true →
    unstuff bytes = some (pktBytes k ++ leBytes 4 (crc32c (pktBytes k))) → s.Queues .msl k →
    Completes (.mslFrame bytes) s fun t =>
      t.tvx = { s.tvx with queue := s.tvx.queue ++ [{ ing := .msl, pkt := k }] } ∧
      t.get R.MBOX_MSL_STATS_FRAMES_GOOD = satAdd (R.MBOX_MSL_STATS_FRAMES_GOOD).w (s.get R.MBOX_MSL_STATS_FRAMES_GOOD) 1 ∧
      s.OnlyFields [R.MBOX_MSL_STATS_FRAMES_GOOD] t ∧ s.Only [.regs, .tvx] t) ∧
  (∀ (bytes p : List Nat) (k : Pkt) (s : State), bytes ≠ [] ∧ s.ingUp .msl = true →
    unstuff bytes = some (p ++ leBytes 4 (crc32c p)) ∧ 16 ≤ p.length ∧ p.length ≤ 4112 →
    k = pktOf p ∧ k.typ = 0 ∧ k.length + 16 = p.length → Completes (.mslFrame bytes) s fun t =>
      exec (.commandReceive .msl k) (s.bump R.MBOX_MSL_STATS_FRAMES_GOOD 1) = .next t ∧ s.Only [.regs, .free, .tvx] t) ∧
  (∀ (bytes p : List Nat) (k : Pkt) (s : State), bytes ≠ [] ∧ s.ingUp .msl = true →
    unstuff bytes = some (p ++ leBytes 4 (crc32c p)) ∧ 16 ≤ p.length ∧ p.length ≤ 4112 →
    k = pktOf p ∧ k.typ = 3 ∧ k.length + 16 = p.length → Completes (.mslFrame bytes) s fun t =>
      exec (.dataPacket .msl k) (s.bump R.MBOX_MSL_STATS_FRAMES_GOOD 1) = .next t ∧ s.Only [.regs, .free, .tvx] t) ∧
  (∀ (bytes p : List Nat) (s : State), bytes ≠ [] ∧ s.ingUp .msl = true →
    unstuff bytes = some (p ++ leBytes 4 (crc32c p)) ∧ 16 ≤ p.length ∧ p.length ≤ 4112 →
    (pktOf p).typ ≠ 0 ∧ (pktOf p).typ ≠ 3 ∧ (pktOf p).length + 16 = p.length → Completes (.mslFrame bytes) s fun t =>
      t.get R.MBOX_MSL_STATS_FRAMES_GOOD = satAdd (R.MBOX_MSL_STATS_FRAMES_GOOD).w (s.get R.MBOX_MSL_STATS_FRAMES_GOOD) 1 ∧
      s.OnlyFields [R.MBOX_MSL_STATS_FRAMES_GOOD] t ∧ s.Only [.regs] t) ∧
  (∀ (bytes p : List Nat) (s : State), bytes ≠ [] ∧ s.ingUp .msl = true →
    unstuff bytes = some (p ++ leBytes 4 (crc32c p)) ∧ 16 ≤ p.length ∧ p.length ≤ 4112 → (pktOf p).length + 16 ≠ p.length →
    Completes (.mslFrame bytes) s fun t =>
      t.get R.MBOX_MSL_STATS_FRAME_ERRORS = satAdd (R.MBOX_MSL_STATS_FRAME_ERRORS).w (s.get R.MBOX_MSL_STATS_FRAME_ERRORS) 1
        ∧
      s.OnlyFields [R.MBOX_MSL_STATS_FRAME_ERRORS] t ∧ s.Only [.regs] t) ∧
  (∀ (bytes p : List Nat) (n : Nat) (s : State), bytes ≠ [] ∧ s.ingUp .msl = true →
    unstuff bytes = some (p ++ leBytes 4 n) ∧ 16 ≤ p.length ∧ p.length ≤ 4112 → n < 2 ^ 32 ∧ n ≠ crc32c p →
    Completes (.mslFrame bytes) s fun t =>
      t.get R.MBOX_MSL_STATS_CRC_ERRORS = satAdd (R.MBOX_MSL_STATS_CRC_ERRORS).w (s.get R.MBOX_MSL_STATS_CRC_ERRORS) 1 ∧
      s.OnlyFields [R.MBOX_MSL_STATS_CRC_ERRORS] t ∧ s.Only [.regs] t) ∧
  (∀ (bytes bs : List Nat) (s : State), bytes ≠ [] ∧ s.ingUp .msl = true →
    (unstuff bytes = some bs ∧ (bs.length < 20 ∨ 4116 < bs.length)) → Completes (.mslFrame bytes) s fun t =>
      t.get R.MBOX_MSL_STATS_FRAME_ERRORS = satAdd (R.MBOX_MSL_STATS_FRAME_ERRORS).w (s.get R.MBOX_MSL_STATS_FRAME_ERRORS) 1
        ∧
      s.OnlyFields [R.MBOX_MSL_STATS_FRAME_ERRORS] t ∧ s.Only [.regs] t) ∧
  (∀ (bytes : List Nat) (s : State), bytes ≠ [] ∧ s.ingUp .msl = true → unstuff bytes = none →
    Completes (.mslFrame bytes) s fun t =>
      t.get R.MBOX_MSL_STATS_FRAME_ERRORS = satAdd (R.MBOX_MSL_STATS_FRAME_ERRORS).w (s.get R.MBOX_MSL_STATS_FRAME_ERRORS) 1
        ∧
      s.OnlyFields [R.MBOX_MSL_STATS_FRAME_ERRORS] t ∧ s.Only [.regs] t) ∧
  (∀ (bytes : List Nat) (s : State), (bytes = [] ∨ s.ingUp .msl = false) → Completes (.mslFrame bytes) s fun t =>
      s.Only [] t) ∧
  (∀ (n : Nat) (s : State), s.tvx.running = true ∧ s.get R.MBOX_STATUS_TX_BUSY = 0 → 16 ≤ n ∧ n ≤ 4112 →
    Completes (.mboxTxGo n) s fun t =>
      t.get R.MBOX_TX_CTL_LENGTH = n ∧ t.get R.MBOX_STATUS_TX_BUSY = 1 ∧
      s.OnlyFields [R.MBOX_TX_CTL_LENGTH, R.MBOX_STATUS_TX_BUSY] t ∧ s.Only [.regs] t) ∧
  (∀ (n : Nat) (s : State), (s.tvx.running = false ∨ s.get R.MBOX_STATUS_TX_BUSY = 1 ∨ n < 16 ∨ 4112 < n) →
    Completes (.mboxTxGo n) s fun t =>
      t.get R.MBOX_STATUS_TX_OVERRUN = 1 ∧ s.OnlyFields [R.MBOX_STATUS_TX_OVERRUN] t ∧ s.Only [.regs] t) ∧
  (∀ (k : Pkt) (s : State), s.get R.MBOX_STATUS_TX_BUSY = 1 ∧ s.tvx.running = true →
    k = pktOf (s.txBytes (s.get R.MBOX_TX_CTL_LENGTH)) → k.typ = 0 ∧ k.length + 16 = s.get R.MBOX_TX_CTL_LENGTH →
    s.Queues .mbox k → Completes (.mboxTxTake) s fun t =>
      t.tvx = { s.tvx with queue := s.tvx.queue ++ [{ ing := .mbox, pkt := k }] } ∧ t.get R.MBOX_STATUS_TX_BUSY = 0 ∧
      s.OnlyFields [R.MBOX_STATUS_TX_BUSY] t ∧ s.Only [.regs, .tvx] t) ∧
  (∀ (k : Pkt) (s : State), s.get R.MBOX_STATUS_TX_BUSY = 1 ∧ s.tvx.running = true →
    k = pktOf (s.txBytes (s.get R.MBOX_TX_CTL_LENGTH)) →
    k.typ = 0 ∧ k.length + 16 = s.get R.MBOX_TX_CTL_LENGTH ∧ k.length ≤ 4096 → Completes (.mboxTxTake) s fun t =>
      exec (.commandReceive .mbox k) (s.put R.MBOX_STATUS_TX_BUSY 0) = .next t ∧ s.Only [.regs, .free, .tvx] t) ∧
  (∀ (k : Pkt) (s : State), s.get R.MBOX_STATUS_TX_BUSY = 1 ∧ s.tvx.running = true →
    k = pktOf (s.txBytes (s.get R.MBOX_TX_CTL_LENGTH)) →
    k.typ = 3 ∧ k.length + 16 = s.get R.MBOX_TX_CTL_LENGTH ∧ k.length ≤ 4096 → Completes (.mboxTxTake) s fun t =>
      exec (.dataPacket .mbox k) (s.put R.MBOX_STATUS_TX_BUSY 0) = .next t ∧ s.Only [.regs, .free, .tvx] t) ∧
  (∀ (k : Pkt) (s : State), s.get R.MBOX_STATUS_TX_BUSY = 1 ∧ s.tvx.running = true →
    k = pktOf (s.txBytes (s.get R.MBOX_TX_CTL_LENGTH)) →
    ((k.typ ≠ 0 ∧ k.typ ≠ 3) ∨ k.length + 16 ≠ s.get R.MBOX_TX_CTL_LENGTH) → Completes (.mboxTxTake) s fun t =>
      t.get R.MBOX_STATUS_TX_MALFORMED = 1 ∧ t.get R.MBOX_STATUS_TX_BUSY = 0 ∧
      s.OnlyFields [R.MBOX_STATUS_TX_BUSY, R.MBOX_STATUS_TX_MALFORMED] t ∧ s.Only [.regs] t) ∧
  (∀ (s : State), (s.get R.MBOX_STATUS_TX_BUSY ≠ 1 ∨ s.tvx.running = false) → Completes (.mboxTxTake) s fun t =>
      s.Only [] t) ∧
  (∀ (s : State), Completes (.mboxRxAck) s fun t =>
      t.get R.MBOX_STATUS_RX_VALID = 0 ∧ s.OnlyFields [R.MBOX_STATUS_RX_VALID] t ∧ s.Only [.regs] t) ∧
  (∀ (p : Pkt) (q : List Pkt) (s : State), s.tvx.mboxQ = p :: q ∧ s.tvx.running = true → s.get R.MBOX_STATUS_RX_VALID = 0 →
    p.data.length ≤ 4096 ∧ p.wf = true → Completes (.mboxRxDeliver) s fun t =>
      t.tvx = { s.tvx with mboxQ := q } ∧
      t.get R.MBOX_STATUS_RX_VALID = 1 ∧ t.get R.MBOX_RX_INFO_LENGTH = 16 + p.data.length ∧
      t.get R.MBOX_RX_INFO_TYPE = p.typ ∧ t.get R.MBOX_RX_INFO_TAG = p.tag ∧
      (∀ (i : Nat), i < 16 + p.data.length → bits (t.reg (R.rMBOX_RX_BUF (i / 8))).toNat (8 * (i % 8)) 8 = (pktBytes p).getD
        i 0) ∧
      t.pass = (if s.get R.MBOX_IRQ_CTL_MSI_ENABLE = 1 then (s.sendMsi (s.get R.MBOX_MSI_ADDR_ADDR * 4) (s.get
        R.MBOX_MSI_DATA_DATA) 0).pass else s.pass) ∧
      s.OnlyFields (R.MBOX_STATUS_RX_VALID :: FRef.all R.rMBOX_RX_INFO :: FRef.all R.rIOMMU_MSI_DROPS :: (List.range
        514).map (fun i => FRef.all (R.rMBOX_RX_BUF i))) t ∧
      s.Only [.regs, .tvx, .pass] t) ∧
  (∀ (s : State), (s.tvx.mboxQ = [] ∨ s.tvx.running = false ∨ s.get R.MBOX_STATUS_RX_VALID ≠ 0) →
    Completes (.mboxRxDeliver) s fun t =>
      s.Only [] t) ∧
  (∀ (g : Ingress) (k : Pkt) (c : QCmd) (q : List QCmd) (s : State), s.ingUp g = true ∧ k.typ = 3 ∧ pktOk k = true →
    s.tvx.queue = c :: q ∧ c.ing = g ∧ c.xfer = true ∧ c.pkt.tag = k.tag →
    k.opcode = c.pkt.opcode ∧ k.param = c.data.length ∧ k.length = c.due → c.pkt.param = c.data.length + k.length →
    Completes (.dataPacket g k) s fun t =>
      t.tvx = { s.tvx with queue := { c with data := c.data ++ k.data, xfer := false } :: q } ∧ s.Only [.tvx] t) ∧
  (∀ (g : Ingress) (k : Pkt) (c : QCmd) (q : List QCmd) (s : State), s.ingUp g = true ∧ k.typ = 3 ∧ pktOk k = true →
    s.tvx.queue = c :: q ∧ c.ing = g ∧ c.xfer = true ∧ c.pkt.tag = k.tag →
    k.opcode = c.pkt.opcode ∧ k.param = c.data.length ∧ k.length = c.due → c.data.length + k.length < c.pkt.param →
    Completes (.dataPacket g k) s fun t =>
      t.tvx.queue = { c with data := c.data ++ k.data, xfer := true } :: q ∧
      t.sentOn g = s.sentOn g ++ [{ version := c.pkt.version, typ := 2, tag := c.pkt.tag, opcode := c.pkt.opcode, length := 0, aux := min 4096 (c.pkt.param - (c.data.length + k.length)), param := c.data.length + k.length }] ∧
      t.ing g = s.ing g ∧ s.Only [.tvx] t) ∧
  (∀ (g : Ingress) (k : Pkt) (c : QCmd) (q : List QCmd) (s : State), s.ingUp g = true ∧ k.typ = 3 ∧ pktOk k = true →
    s.tvx.queue = c :: q ∧ c.ing = g ∧ c.xfer = true ∧ c.pkt.tag = k.tag →
    s.headRuns (q.filter (fun x => x.ing != c.ing)) = true →
    (k.opcode ≠ c.pkt.opcode ∨ k.param ≠ c.data.length ∨ k.length ≠ c.due) → Completes (.dataPacket g k) s fun t =>
      s.Freezes c q stXFER_ERROR 0 t ∧ s.Only [.tvx] t) ∧
  (∀ (g : Ingress) (k : Pkt) (s : State), s.ingUp g = true ∧ k.typ = 3 ∧ pktOk k = true →
    s.tvx.queue.head?.all (fun c => c.ing != g || !c.xfer || c.pkt.tag != k.tag) = true → g = .msl →
    Completes (.dataPacket g k) s fun t =>
      t.get R.MBOX_MSL_STATS_FRAME_ERRORS = satAdd (R.MBOX_MSL_STATS_FRAME_ERRORS).w (s.get R.MBOX_MSL_STATS_FRAME_ERRORS) 1
        ∧
      s.OnlyFields [R.MBOX_MSL_STATS_FRAME_ERRORS] t ∧ s.Only [.regs] t) ∧
  (∀ (g : Ingress) (k : Pkt) (s : State), s.ingUp g = true ∧ k.typ = 3 ∧ pktOk k = true →
    s.tvx.queue.head?.all (fun c => c.ing != g || !c.xfer || c.pkt.tag != k.tag) = true → g = .mbox →
    Completes (.dataPacket g k) s fun t =>
      s.Only [] t) ∧
  (∀ (g : Ingress) (k : Pkt) (s : State), (s.ingUp g = false ∨ k.typ ≠ 3 ∨ pktOk k = false) →
    Completes (.dataPacket g k) s fun t =>
      s.Only [] t) ∧
  (∀ (c : QCmd) (q : List QCmd) (s : State), s.tvx.queue = c :: q ∧ c.xfer = true →
    s.headRuns (q.filter (fun x => x.ing != c.ing)) = true → Completes (.xferDataTimeout) s fun t =>
      s.Freezes c q stXFER_ERROR 0 t ∧ s.Only [.tvx] t) ∧
  (∀ (s : State), s.tvx.queue.head?.all (fun c => !c.xfer) = true → Completes (.xferDataTimeout) s fun t =>
      s.Only [] t)

/-- QUERY_TAG sends the stored response of a tag again as it is, or says that it is in progress or not found (spec/15
R353); ABORT catches a command that has not come past its data-out phase, and misses any other (R352); RESET_CHANNEL
answers what is queued ABORTED_RESET and returns the ingress to its start (R356); GET_ERROR_LOG returns the error that
froze the ingress with the tags that followed it; RESUME_QUEUE thaws the ingress once the log has been read (R351).
RESET_CHANNEL waits for a command past its data-out phase. A missing argument byte and a version 1 header with data-
out are INVALID_ARGUMENT, with AUX open where no payload byte offends (log entry 20). Each clause gives the whole of
what Thoiviyx holds after. -/
def Obligations.ImmediateCommands : Prop :=
  (∀ (g : Ingress) (k : Pkt) (q : List Pkt) (r : Pkt) (s : State), s.Serves g opQUERY_TAG k q ∧ k.data ≠ [] →
    Tbl.get (fun _ => none) (s.ing g).stored (k.data.headD 0) = some r → Completes (.queryTag g) s fun t =>
      t.tvx = ((s.setIng g { s.ing g with imm := q }).sendPkt g r).tvx ∧ s.Only [.tvx] t) ∧
  (∀ (g : Ingress) (k : Pkt) (q : List Pkt) (s : State), s.Serves g opQUERY_TAG k q ∧ k.data ≠ [] →
    Tbl.get (fun _ => none) (s.ing g).stored (k.data.headD 0) = none → Completes (.queryTag g) s fun t =>
      t.tvx = ((s.setIng g { s.ing g with imm := q }).sendPkt g (rspPkt k (if s.tagBusy g (k.data.headD 0) then
        stIN_PROGRESS else stNOT_FOUND) 0 [])).tvx ∧
      s.Only [.tvx] t) ∧
  (∀ (g : Ingress) (k : Pkt) (q : List Pkt) (c : QCmd) (s : State), s.Serves g opABORT k q ∧ k.data ≠ [] →
    s.tvx.queue.find? (fun x => x.ing == g && x.pkt.tag == (k.data.headD 0)) = some c ∧ c.past = false →
    s.headRuns (s.tvx.queue.erase c) = true → Completes (.abort g) s fun t =>
      t.tvx = ((((s.setIng g { s.ing g with imm := q, stored := Tbl.set (fun _ => none) (s.ing g).stored c.pkt.tag (some (rspPkt c.pkt stABORTED 0 [])) }).setQueue (s.tvx.queue.erase c)).sendPkt g (rspPkt c.pkt stABORTED 0 [])).sendPkt g (rspPkt k stCAUGHT 0 [])).tvx ∧
      s.Only [.tvx] t) ∧
  (∀ (g : Ingress) (k : Pkt) (q : List Pkt) (c : QCmd) (s : State), s.Serves g opABORT k q ∧ k.data ≠ [] →
    s.tvx.queue.find? (fun x => x.ing == g && x.pkt.tag == (k.data.headD 0)) = some c ∧ c.past = true →
    Completes (.abort g) s fun t =>
      t.tvx = ((s.setIng g { s.ing g with imm := q }).sendPkt g (rspPkt k stMISSED 0 [])).tvx ∧ s.Only [.tvx] t) ∧
  (∀ (g : Ingress) (k : Pkt) (q : List Pkt) (s : State), s.Serves g opABORT k q ∧ k.data ≠ [] →
    s.tagBusy g (k.data.headD 0) = false → Completes (.abort g) s fun t =>
      t.tvx = ((s.setIng g { s.ing g with imm := q }).sendPkt g (rspPkt k stMISSED 0 [])).tvx ∧ s.Only [.tvx] t) ∧
  (∀ (g : Ingress) (k : Pkt) (q : List Pkt) (s : State), s.Serves g opRESET_CHANNEL k q →
    (s.queuedOf g).any QCmd.past = false → s.headRuns (s.tvx.queue.filter (fun x => x.ing != g)) = true →
    Completes (.resetChannel g) s fun t =>
      t.tvx = ((((s.queuedOf g).map (fun c => rspPkt c.pkt stABORTED_RESET 0 []) ++ [rspPkt k stOK 0 []]).foldl (fun (u :
        State) r => u.sendPkt g r) ((s.setQueue (s.tvx.queue.filter (fun x => x.ing != g))).setIng g
        { imm := q })).tvx) ∧
      s.Only [.tvx] t) ∧
  (∀ (g : Ingress) (s : State), (s.queuedOf g).any QCmd.past = true → Completes (.resetChannel g) s fun t =>
      s.Only [] t) ∧
  (∀ (g : Ingress) (k : Pkt) (q : List Pkt) (tag op st aux : Nat) (s : State), s.Serves g opGET_ERROR_LOG k q →
    (s.ing g).errLog = some (tag, op, st, aux) → Completes (.getErrorLog g) s fun t =>
      t.tvx = ((s.setIng g { s.ing g with imm := q, errRead := true }).sendPkt g (rspPkt k stOK 0 ([tag % 256] ++ leBytes 2
        op ++ leBytes 2 st ++ leBytes 2 aux ++ [((s.ing g).errTags.take 255).length] ++ (s.ing g).errTags.take
        255))).tvx ∧
      s.Only [.tvx] t) ∧
  (∀ (g : Ingress) (k : Pkt) (q : List Pkt) (s : State), s.Serves g opGET_ERROR_LOG k q → (s.ing g).errLog = none →
    Completes (.getErrorLog g) s fun t =>
      t.tvx = ((s.setIng g { s.ing g with imm := q, errRead := true }).sendPkt g (rspPkt k stOK 0 (List.replicate 8 0))).tvx
        ∧
      s.Only [.tvx] t) ∧
  (∀ (g : Ingress) (k : Pkt) (q : List Pkt) (s : State), s.Serves g opRESUME_QUEUE k q →
    ((s.ing g).frozen = false ∨ (s.ing g).errRead = true) → Completes (.resumeQueue g) s fun t =>
      t.tvx = ((s.setIng g { s.ing g with imm := q, frozen := false }).sendPkt g (rspPkt k stOK 0 [])).tvx ∧
      s.Only [.tvx] t) ∧
  (∀ (g : Ingress) (k : Pkt) (q : List Pkt) (s : State), s.Serves g opRESUME_QUEUE k q →
    (s.ing g).frozen = true ∧ (s.ing g).errRead = false → Completes (.resumeQueue g) s fun t =>
      t.tvx = ((s.setIng g { s.ing g with imm := q }).sendPkt g (rspPkt k stINVALID_STATE 0 [])).tvx ∧ s.Only [.tvx] t) ∧
  (∀ (g : Ingress) (k : Pkt) (q : List Pkt) (s : State),
    (s.ing g).imm = k :: q ∧ k.opcode = opQUERY_TAG ∧ s.tvx.running = true → k.version = 1 ∧ k.param ≠ 0 →
    Completes (.queryTag g) s fun t =>
      t.free = s.free + 1 ∧
      t.tvx = ((s.setIng g { s.ing g with imm := q }).sendPkt g (rspPkt k stINVALID_ARG (((t.sentOn g).getLast?.map (fun x
        => x.aux)).getD 0) [])).tvx ∧
      s.Only [.free, .tvx] t) ∧
  (∀ (g : Ingress) (k : Pkt) (q : List Pkt) (s : State), s.Serves g opQUERY_TAG k q ∧ k.data = [] →
    Completes (.queryTag g) s fun t =>
      t.tvx = ((s.setIng g { s.ing g with imm := q }).sendPkt g (rspPkt k stINVALID_ARG 0 [])).tvx ∧ s.Only [.tvx] t) ∧
  (∀ (g : Ingress) (s : State), ((s.ing g).imm.head?.all (fun k => k.opcode != opQUERY_TAG) = true ∨ s.tvx.running = false) →
    Completes (.queryTag g) s fun t =>
      s.Only [] t) ∧
  (∀ (g : Ingress) (k : Pkt) (q : List Pkt) (s : State), (s.ing g).imm = k :: q ∧ k.opcode = opABORT ∧ s.tvx.running = true →
    k.version = 1 ∧ k.param ≠ 0 → Completes (.abort g) s fun t =>
      t.free = s.free + 1 ∧
      t.tvx = ((s.setIng g { s.ing g with imm := q }).sendPkt g (rspPkt k stINVALID_ARG (((t.sentOn g).getLast?.map (fun x
        => x.aux)).getD 0) [])).tvx ∧
      s.Only [.free, .tvx] t) ∧
  (∀ (g : Ingress) (k : Pkt) (q : List Pkt) (s : State), s.Serves g opABORT k q ∧ k.data = [] →
    Completes (.abort g) s fun t =>
      t.tvx = ((s.setIng g { s.ing g with imm := q }).sendPkt g (rspPkt k stINVALID_ARG 0 [])).tvx ∧ s.Only [.tvx] t) ∧
  (∀ (g : Ingress) (s : State), ((s.ing g).imm.head?.all (fun k => k.opcode != opABORT) = true ∨ s.tvx.running = false) →
    Completes (.abort g) s fun t =>
      s.Only [] t) ∧
  (∀ (g : Ingress) (k : Pkt) (q : List Pkt) (s : State),
    (s.ing g).imm = k :: q ∧ k.opcode = opRESET_CHANNEL ∧ s.tvx.running = true → k.version = 1 ∧ k.param ≠ 0 →
    (s.queuedOf g).any QCmd.past = false → Completes (.resetChannel g) s fun t =>
      t.free = s.free + 1 ∧
      t.tvx = ((s.setIng g { s.ing g with imm := q }).sendPkt g (rspPkt k stINVALID_ARG (((t.sentOn g).getLast?.map (fun x
        => x.aux)).getD 0) [])).tvx ∧
      s.Only [.free, .tvx] t) ∧
  (∀ (g : Ingress) (s : State),
    ((s.ing g).imm.head?.all (fun k => k.opcode != opRESET_CHANNEL) = true ∨ s.tvx.running = false) →
    Completes (.resetChannel g) s fun t =>
      s.Only [] t) ∧
  (∀ (g : Ingress) (k : Pkt) (q : List Pkt) (s : State),
    (s.ing g).imm = k :: q ∧ k.opcode = opGET_ERROR_LOG ∧ s.tvx.running = true → k.version = 1 ∧ k.param ≠ 0 →
    Completes (.getErrorLog g) s fun t =>
      t.free = s.free + 1 ∧
      t.tvx = ((s.setIng g { s.ing g with imm := q }).sendPkt g (rspPkt k stINVALID_ARG (((t.sentOn g).getLast?.map (fun x
        => x.aux)).getD 0) [])).tvx ∧
      s.Only [.free, .tvx] t) ∧
  (∀ (g : Ingress) (s : State),
    ((s.ing g).imm.head?.all (fun k => k.opcode != opGET_ERROR_LOG) = true ∨ s.tvx.running = false) →
    Completes (.getErrorLog g) s fun t =>
      s.Only [] t) ∧
  (∀ (g : Ingress) (k : Pkt) (q : List Pkt) (s : State),
    (s.ing g).imm = k :: q ∧ k.opcode = opRESUME_QUEUE ∧ s.tvx.running = true → k.version = 1 ∧ k.param ≠ 0 →
    Completes (.resumeQueue g) s fun t =>
      t.free = s.free + 1 ∧
      t.tvx = ((s.setIng g { s.ing g with imm := q }).sendPkt g (rspPkt k stINVALID_ARG (((t.sentOn g).getLast?.map (fun x
        => x.aux)).getD 0) [])).tvx ∧
      s.Only [.free, .tvx] t) ∧
  (∀ (g : Ingress) (s : State),
    ((s.ing g).imm.head?.all (fun k => k.opcode != opRESUME_QUEUE) = true ∨ s.tvx.running = false) →
    Completes (.resumeQueue g) s fun t =>
      s.Only [] t)

/-- Each is answered OK with its payload, which is stored for QUERY_TAG, and changes nothing else of Thoiviyx: versions
and serial, sensor readings, health, the event log and the journal from the first entry asked for, settings and device
records, key slots with their check values, and the host boot image area (spec/15 R343, R344, R349, R350, R353, R358,
R360 to R363); a setting that is written reads back and leaves every other item; an argument that is missing or not
allowed is answered with the place of its first bad byte, and freezes the ingress (R350, R351, R361); a key command on
the MBOX is refused; a data-out phase that has not ended asks for its next block (R354); without the flash, a command
that needs it completes INVALID_STATE (spec/19 R427); a sector of the host area takes what is written, with the rest
of it erased, or the flash fails and the bytes of the sector are open (log entries 35 and 36). AUX is open where no
payload byte offends (log entry 20). -/
def Obligations.QueuedCommands : Prop :=
  (∀ (i : Instr) (op n : Nat) (m l : Bool) (s : State), (i, op, n, m, l) ∈ queuedRows → s.headCmd op = none →
    Completes (i) s fun t =>
      s.Only [] t) ∧
  (∀ (i : Instr) (op n : Nat) (m l : Bool) (c : QCmd) (q : List QCmd) (s : State), (i, op, n, m, l) ∈ queuedRows →
    s.headCmd op = some c ∧ s.tvx.queue = c :: q → s.headRuns (q.filter (fun x => x.ing != c.ing)) = true →
    c.pkt.version = 1 ∧ c.pkt.param ≠ 0 → Completes (i) s fun t =>
      t.free = s.free + 1 ∧ s.Freezes c q stINVALID_ARG (((t.ing c.ing).errLog.map (fun e => e.2.2.2)).getD 0) t ∧
      s.Only [.free, .tvx] t) ∧
  (∀ (i : Instr) (op n : Nat) (m l : Bool) (c : QCmd) (q : List QCmd) (s : State), (i, op, n, m, l) ∈ queuedRows →
    s.headCmd op = some c ∧ s.tvx.queue = c :: q →
    s.headRuns (q.filter (fun x => x.ing != c.ing)) = true ∧ ¬ (c.pkt.version = 1 ∧ c.pkt.param ≠ 0) →
    m = true ∧ c.ing = .mbox → Completes (i) s fun t =>
      s.Freezes c q stREFUSED 0 t ∧ s.Only [.tvx] t) ∧
  (∀ (i : Instr) (op n : Nat) (m l : Bool) (c : QCmd) (q : List QCmd) (s : State), (i, op, n, m, l) ∈ queuedRows →
    s.headCmd op = some c ∧ s.tvx.queue = c :: q → (¬ (c.pkt.version = 1 ∧ c.pkt.param ≠ 0) ∧ (m = false ∨ c.ing = .msl)) →
    c.data.length < c.pkt.param ∧ c.xfer = false → Completes (i) s fun t =>
      s.AsksNext c q t ∧ s.Only [.tvx] t) ∧
  (∀ (i : Instr) (op n : Nat) (m l : Bool) (c : QCmd) (q : List QCmd) (s : State), (i, op, n, m, l) ∈ queuedRows →
    s.headCmd op = some c ∧ s.tvx.queue = c :: q → (¬ (c.pkt.version = 1 ∧ c.pkt.param ≠ 0) ∧ (m = false ∨ c.ing = .msl)) →
    c.data.length < c.pkt.param ∧ c.xfer = true → Completes (i) s fun t =>
      s.Only [] t) ∧
  (∀ (i : Instr) (op n : Nat) (m l : Bool) (c : QCmd) (q : List QCmd) (s : State), (i, op, n, m, l) ∈ queuedRows →
    s.headCmd op = some c ∧ s.tvx.queue = c :: q →
    (s.headRuns (q.filter (fun x => x.ing != c.ing)) = true ∧ ¬ (c.pkt.version = 1 ∧ c.pkt.param ≠ 0) ∧ (m = false ∨ c.ing = .msl)) →
    c.pkt.param ≤ c.data.length ∧ c.pkt.data.length < n → Completes (i) s fun t =>
      s.Freezes c q stINVALID_ARG c.pkt.data.length t ∧ s.Only [.tvx] t) ∧
  (∀ (i : Instr) (op n : Nat) (m l : Bool) (c : QCmd) (q : List QCmd) (s : State), (i, op, n, m, l) ∈ queuedRows →
    s.Executes c q op n ∧ s.headRuns (q.filter (fun x => x.ing != c.ing)) = true → (m = false ∨ c.ing = .msl) →
    l = true ∧ s.tvx.flashGranted = true → Completes (i) s fun t =>
      s.Freezes c q stINVALID_STATE 0 t ∧ s.Only [.tvx] t) ∧
  (∀ (c : QCmd) (q : List QCmd) (s : State), s.Executes c q opGET_INFO 0 → Completes (.getInfo) s fun t =>
      s.Answered c q ([1, 3] ++ leBytes 1 (s.get R.PKG_IDENT_STEPPING) ++ [0] ++ leBytes 8 Config.serial.toNat ++ leBytes 2
        s.pkgId ++ [0, 0] ++ (List.range 7).flatMap (fun k => leBytes 4 (s.version k))) t ∧
      s.Only [.tvx] t) ∧
  (∀ (c : QCmd) (q : List QCmd) (s : State), s.Executes c q opQUEUE_FLUSH 0 → Completes (.queueFlush) s fun t =>
      s.Answered c q [] t ∧ s.Only [.tvx] t) ∧
  (∀ (c : QCmd) (q : List QCmd) (s : State), s.Executes c q opEVENT_ENABLE 1 → c.pkt.data.headD 0 < 8 →
    Completes (.eventEnable) s fun t =>
      (s.setIng c.ing { s.ing c.ing with mask := c.pkt.data.headD 0 }).Answered c q [] t ∧ s.Only [.tvx] t) ∧
  (∀ (c : QCmd) (q : List QCmd) (s : State), s.Executes c q opEVENT_ENABLE 1 →
    s.headRuns (q.filter (fun x => x.ing != c.ing)) = true → 8 ≤ c.pkt.data.headD 0 → Completes (.eventEnable) s fun t =>
      s.Freezes c q stINVALID_ARG 0 t ∧ s.Only [.tvx] t) ∧
  (∀ (c : QCmd) (q : List QCmd) (s : State), s.Executes c q opGET_SENSORS 5 → c.arg 0 1 ≤ 3 →
    0 < c.arg 3 2 ∧ c.arg 3 2 ≤ 1024 ∧ c.arg 1 2 + c.arg 3 2 ≤ classCount (c.arg 0 1) → Completes (.getSensors) s fun t =>
      s.Answered c q ((List.range (c.arg 3 2)).flatMap (fun i => leBytes 4 (satSigned 32 (s.sensor (c.arg 0 1) (c.arg 1 2 +
        i))))) t ∧
      s.Only [.tvx] t) ∧
  (∀ (c : QCmd) (q : List QCmd) (s : State), s.Executes c q opGET_SENSORS 5 →
    s.headRuns (q.filter (fun x => x.ing != c.ing)) = true →
    (3 < c.arg 0 1 ∨ c.arg 3 2 = 0 ∨ 1024 < c.arg 3 2 ∨ classCount (c.arg 0 1) < c.arg 1 2 + c.arg 3 2) →
    Completes (.getSensors) s fun t =>
      s.Freezes c q stINVALID_ARG (if 3 < c.arg 0 1 then 0 else if classCount (c.arg 0 1) ≤ c.arg 1 2 then 1 else 3) t ∧
      s.Only [.tvx] t) ∧
  (∀ (c : QCmd) (q : List QCmd) (d : Nat) (s : State), s.Executes c q opGET_HEALTH 1 → d ≤ 16 ∧ d = c.pkt.data.headD 0 →
    Completes (.getHealth) s fun t =>
      s.Answered c q (leBytes 4 (daysField (s.peol d)) ++ leBytes 4 (daysField (s.ageDays d)) ++ leBytes 4 (daysField
        (s.laneDays d)) ++ leBytes 4 (satSigned 32 (s.ageFit d).1) ++ leBytes 4 (satSigned 32 (if (s.ageFit d).2.2 = 0
        then 0 else (s.ageFit d).2.1 * 1000 / (s.ageFit d).2.2)) ++ leBytes 2 (if d < 12 then s.laneEvents d else 0)
        ++ leBytes 2 (if d < 12 then s.laneF d else 0)) t ∧
      s.Only [.tvx] t) ∧
  (∀ (c : QCmd) (q : List QCmd) (s : State), s.Executes c q opGET_HEALTH 1 →
    s.headRuns (q.filter (fun x => x.ing != c.ing)) = true → 16 < c.pkt.data.headD 0 → Completes (.getHealth) s fun t =>
      s.Freezes c q stINVALID_ARG 0 t ∧ s.Only [.tvx] t) ∧
  (∀ (c : QCmd) (q : List QCmd) (s : State), s.Executes c q opREAD_EVENT_LOG 10 → s.tvx.flashGranted = false →
    0 < c.arg 8 2 ∧ c.arg 8 2 ≤ 64 → Completes (.readEventLog) s fun t =>
      s.Answered c q (((s.tvx.log.reverse.filter (fun e => decide (c.arg 0 8 ≤ e.seq))).take (c.arg 8 2)).flatMap (fun e =>
        logBytes e.seq e.time e.code e.sev e.die e.index e.detail)) t ∧
      s.Only [.tvx] t) ∧
  (∀ (c : QCmd) (q : List QCmd) (s : State), s.Executes c q opREAD_EVENT_LOG 10 →
    s.headRuns (q.filter (fun x => x.ing != c.ing)) = true → s.tvx.flashGranted = false → (c.arg 8 2 = 0 ∨ 64 < c.arg 8 2) →
    Completes (.readEventLog) s fun t =>
      s.Freezes c q stINVALID_ARG 8 t ∧ s.Only [.tvx] t) ∧
  (∀ (c : QCmd) (q : List QCmd) (s : State), s.Executes c q opREAD_JOURNAL 6 → s.tvx.flashGranted = false →
    0 < c.arg 4 2 ∧ c.arg 4 2 ≤ 64 → Completes (.readSanitiseJournal) s fun t =>
      s.Answered c q (((List.range (c.arg 4 2)).filterMap (fun i => s.jEntry (c.arg 0 4 + i))).flatMap jBytes) t ∧
      s.Only [.tvx] t) ∧
  (∀ (c : QCmd) (q : List QCmd) (s : State), s.Executes c q opREAD_JOURNAL 6 →
    s.headRuns (q.filter (fun x => x.ing != c.ing)) = true → s.tvx.flashGranted = false → (c.arg 4 2 = 0 ∨ 64 < c.arg 4 2) →
    Completes (.readSanitiseJournal) s fun t =>
      s.Freezes c q stINVALID_ARG 4 t ∧ s.Only [.tvx] t) ∧
  (∀ (c : QCmd) (q : List QCmd) (v : List Nat) (s : State), s.Executes c q opSETTINGS_GET 2 → s.tvx.flashGranted = false →
    s.itemValue (c.arg 0 2) = some v → Completes (.settingsGet) s fun t =>
      s.Answered c q v t ∧ s.Only [.tvx] t) ∧
  (∀ (c : QCmd) (q : List QCmd) (s : State), s.Executes c q opSETTINGS_GET 2 →
    s.headRuns (q.filter (fun x => x.ing != c.ing)) = true → s.tvx.flashGranted = false → s.itemValue (c.arg 0 2) = none →
    Completes (.settingsGet) s fun t =>
      s.Freezes c q stINVALID_ARG 0 t ∧ s.Only [.tvx] t) ∧
  (∀ (c : QCmd) (q : List QCmd) (v : List Nat) (s : State), s.Executes c q opSETTINGS_SET 2 → s.tvx.flashGranted = false →
    v = c.pkt.data.drop 2 ∧ itemLength (c.arg 0 2) = some v.length ∧ itemBad (c.arg 0 2) v = none →
    Completes (.settingsSet) s fun t =>
      (s.putSetSlot s.tvx.runs { s.setSlot with
        items := t.setSlot.items, rot := s.setSlot.rot.filter (fun k => k != itemKey (c.arg 0 2) v), change :=
          (s.setSlot.change ++ [c.arg 0 2]).take (max 256 s.setSlot.change.length), full := s.setSlot.full || decide
          (256 ≤ s.setSlot.change.length) }).Answered c q [] t ∧
      t.setting (itemKey (c.arg 0 2) v) = v ∧ (∀ (j : Nat), j ≠ itemKey (c.arg 0 2) v → t.setting j = s.setting j) ∧
      s.Only [.tvx] t) ∧
  (∀ (c : QCmd) (q : List QCmd) (s : State), s.Executes c q opSETTINGS_SET 2 →
    s.headRuns (q.filter (fun x => x.ing != c.ing)) = true → s.tvx.flashGranted = false → itemLength (c.arg 0 2) = none →
    Completes (.settingsSet) s fun t =>
      s.Freezes c q stINVALID_ARG 0 t ∧ s.Only [.tvx] t) ∧
  (∀ (c : QCmd) (q : List QCmd) (i : Nat) (s : State), s.Executes c q opSETTINGS_SET 2 →
    s.headRuns (q.filter (fun x => x.ing != c.ing)) = true → s.tvx.flashGranted = false →
    itemLength (c.arg 0 2) ≠ none ∧ itemBad (c.arg 0 2) (c.pkt.data.drop 2) = some i → Completes (.settingsSet) s fun t =>
      s.Freezes c q stINVALID_ARG (2 + min i (c.pkt.data.length - 2)) t ∧ s.Only [.tvx] t) ∧
  (∀ (c : QCmd) (q : List QCmd) (n : Nat) (s : State), s.Executes c q opSETTINGS_SET 2 →
    s.headRuns (q.filter (fun x => x.ing != c.ing)) = true → s.tvx.flashGranted = false →
    itemBad (c.arg 0 2) (c.pkt.data.drop 2) = none → itemLength (c.arg 0 2) = some n ∧ c.pkt.data.length ≠ 2 + n →
    Completes (.settingsSet) s fun t =>
      s.Freezes c q stINVALID_ARG (2 + min n (c.pkt.data.length - 2)) t ∧ s.Only [.tvx] t) ∧
  (∀ (c : QCmd) (q : List QCmd) (n : Nat) (s : State), s.Executes c q opCLEAR_RETIREMENT 4 → s.tvx.flashGranted = false →
    recordSize (c.arg 0 2) = some n ∧ c.arg 2 2 < n → Completes (.clearRetirement) s fun t =>
      (s.setTvx { s.tvx with
        recs :=
          { (s.tvx.recs.clear (c.arg 0 2) (c.arg 2 2)) with rot := s.tvx.recs.rot.filter (fun k => k != c.arg 0 2) }
          }).Answered c q [] t ∧
      s.Only [.tvx] t) ∧
  (∀ (c : QCmd) (q : List QCmd) (s : State), s.Executes c q opCLEAR_RETIREMENT 4 →
    s.headRuns (q.filter (fun x => x.ing != c.ing)) = true → s.tvx.flashGranted = false →
    (recordSize (c.arg 0 2)).all (fun n => decide (n ≤ c.arg 2 2)) = true → Completes (.clearRetirement) s fun t =>
      s.Freezes c q stINVALID_ARG (if recordSize (c.arg 0 2) = none then 0 else 2) t ∧ s.Only [.tvx] t) ∧
  (∀ (c : QCmd) (q : List QCmd) (s : State), s.Executes c q opKEY_SET 33 → s.tvx.flashGranted = false →
    c.ing = .msl ∧ (c.pkt.data.getD 0 0) ≤ 3 → s.meter.active ≠ some (c.pkt.data.getD 0 0) →
    Completes (.meterKeySet) s fun t =>
      s.Answered c q [] t ∧ t.key (c.pkt.data.getD 0 0) = (c.pkt.data.drop 1).take 32 ∧
      (∀ (j : Nat), j ≠ (c.pkt.data.getD 0 0) → t.key j = s.key j) ∧ t.meter = { s.meter with keys := t.meter.keys } ∧
      s.Only [.meter, .tvx] t) ∧
  (∀ (c : QCmd) (q : List QCmd) (s : State), s.Executes c q opKEY_SET 33 →
    s.headRuns (q.filter (fun x => x.ing != c.ing)) = true → s.tvx.flashGranted = false ∧ c.ing = .msl →
    (3 < (c.pkt.data.getD 0 0) ∨ s.meter.active = some (c.pkt.data.getD 0 0)) → Completes (.meterKeySet) s fun t =>
      s.Freezes c q stINVALID_ARG 0 t ∧ s.Only [.tvx] t) ∧
  (∀ (c : QCmd) (q : List QCmd) (s : State), s.Executes c q opKEY_ACTIVATE 1 → s.tvx.flashGranted = false →
    c.ing = .msl ∧ (c.pkt.data.getD 0 0) ≤ 3 → s.key (c.pkt.data.getD 0 0) ≠ [] → Completes (.meterKeyActivate) s fun t =>
      s.Answered c q [] t ∧ t.meter = { s.meter with next := some (some (c.pkt.data.getD 0 0)) } ∧ s.Only [.meter, .tvx] t) ∧
  (∀ (c : QCmd) (q : List QCmd) (s : State), s.Executes c q opKEY_ACTIVATE 1 →
    s.headRuns (q.filter (fun x => x.ing != c.ing)) = true → s.tvx.flashGranted = false ∧ c.ing = .msl →
    (3 < (c.pkt.data.getD 0 0) ∨ s.key (c.pkt.data.getD 0 0) = []) → Completes (.meterKeyActivate) s fun t =>
      s.Freezes c q (if 3 < (c.pkt.data.getD 0 0) then stINVALID_ARG else stINVALID_STATE) 0 t ∧ s.Only [.tvx] t) ∧
  (∀ (c : QCmd) (q : List QCmd) (s : State), s.Executes c q opKEY_CLEAR 1 → s.tvx.flashGranted = false →
    c.ing = .msl ∧ (c.pkt.data.getD 0 0) ≤ 3 → Completes (.meterKeyClear) s fun t =>
      s.Answered c q [] t ∧ t.key (c.pkt.data.getD 0 0) = [] ∧
      (∀ (j : Nat), j ≠ (c.pkt.data.getD 0 0) → t.key j = s.key j) ∧
      t.meter = { s.meter with
        keys := t.meter.keys, active := (if s.meter.active = some (c.pkt.data.getD 0 0) then none else
          s.meter.active), next := (if s.meter.next = some (some (c.pkt.data.getD 0 0)) then none else s.meter.next) }
          ∧
      s.Only [.meter, .tvx] t) ∧
  (∀ (c : QCmd) (q : List QCmd) (s : State), s.Executes c q opKEY_CLEAR 1 →
    s.headRuns (q.filter (fun x => x.ing != c.ing)) = true → s.tvx.flashGranted = false ∧ c.ing = .msl →
    3 < (c.pkt.data.getD 0 0) → Completes (.meterKeyClear) s fun t =>
      s.Freezes c q stINVALID_ARG 0 t ∧ s.Only [.tvx] t) ∧
  (∀ (c : QCmd) (q : List QCmd) (s : State), s.Executes c q opKEY_QUERY 0 → s.tvx.flashGranted = false ∧ c.ing = .msl →
    Completes (.meterKeyQuery) s fun t =>
      s.Answered c q ((List.range 4).flatMap (fun k => [if s.key k = [] then 0 else 1, if s.meter.active = some k then 1
        else 0] ++ (if s.key k = [] then [0, 0, 0, 0] else (hmac256 (s.key k) kcvText).take 4))) t ∧
      s.Only [.tvx] t) ∧
  (∀ (c : QCmd) (q : List QCmd) (s : State), s.Executes c q opHOST_READ 6 → s.tvx.flashGranted = false →
    0 < c.arg 4 2 ∧ c.arg 4 2 ≤ 4096 ∧ c.arg 0 4 + c.arg 4 2 ≤ hostAreaSize → Completes (.hostAreaRead) s fun t =>
      s.Answered c q ((List.range (c.arg 4 2)).map (fun i => s.hostByte (c.arg 0 4 + i))) t ∧ s.Only [.tvx] t) ∧
  (∀ (c : QCmd) (q : List QCmd) (s : State), s.Executes c q opHOST_READ 6 →
    s.headRuns (q.filter (fun x => x.ing != c.ing)) = true → s.tvx.flashGranted = false →
    (c.arg 4 2 = 0 ∨ 4096 < c.arg 4 2 ∨ hostAreaSize < c.arg 0 4 + c.arg 4 2) → Completes (.hostAreaRead) s fun t =>
      s.Freezes c q stINVALID_ARG (if c.arg 4 2 = 0 ∨ 4096 < c.arg 4 2 then 4 else 0) t ∧ s.Only [.tvx] t) ∧
  (∀ (c : QCmd) (q : List QCmd) (s : State), s.Executes c q opHOST_WRITE 4 →
    s.headRuns (q.filter (fun x => x.ing != c.ing)) = true → s.tvx.flashGranted = false →
    c.arg 0 4 % sectorSize = 0 ∧ c.arg 0 4 + c.pkt.param ≤ hostAreaSize → 0 < c.pkt.param ∧ c.pkt.param ≤ sectorSize →
    s.headRuns (q.filter (fun x => x.ing != c.ing)) = true → Completes (.hostAreaWrite) s fun t =>
      (∀ (i : Nat), (i < c.arg 0 4 ∨ c.arg 0 4 + sectorSize ≤ i) → t.hostByte i = s.hostByte i) ∧
      (((s.setTvx { s.tvx with host := t.tvx.host }).Answered c q [] t ∧ t.free = s.free + 1 ∧ (∀ (i : Nat), i < c.pkt.param
        → t.hostByte (c.arg 0 4 + i) = c.data.getD i 0 % 256) ∧ (∀ (i : Nat), c.pkt.param ≤ i → i < sectorSize →
        t.hostByte (c.arg 0 4 + i) = 0xFF)) ∨ ((s.setTvx { s.tvx with host := t.tvx.host }).Freezes c q stDEVICE_ERROR
        0 t ∧ t.free = s.free + 1 + sectorSize)) ∧
      s.Only [.free, .tvx] t) ∧
  (∀ (c : QCmd) (q : List QCmd) (s : State), s.Executes c q opHOST_WRITE 4 →
    s.headRuns (q.filter (fun x => x.ing != c.ing)) = true → s.tvx.flashGranted = false →
    (c.arg 0 4 % sectorSize ≠ 0 ∨ (0 < c.pkt.param ∧ c.pkt.param ≤ sectorSize ∧ hostAreaSize < c.arg 0 4 + c.pkt.param)) →
    Completes (.hostAreaWrite) s fun t =>
      s.Freezes c q stINVALID_ARG 0 t ∧ s.Only [.tvx] t) ∧
  (∀ (c : QCmd) (q : List QCmd) (s : State), s.Executes c q opHOST_WRITE 4 →
    s.headRuns (q.filter (fun x => x.ing != c.ing)) = true → s.tvx.flashGranted = false →
    (c.arg 0 4 % sectorSize = 0 ∧ (c.pkt.param = 0 ∨ sectorSize < c.pkt.param)) → Completes (.hostAreaWrite) s fun t =>
      t.free = s.free + 1 ∧ s.Freezes c q stINVALID_ARG (((t.ing c.ing).errLog.map (fun e => e.2.2.2)).getD 0) t ∧
      s.Only [.free, .tvx] t)

/-- A staged block is held with the others of its session, and the last one starts the erase of the slot that is not
active (spec/16 R370, R371); ACTIVATE_BUNDLE starts the copy of a bundle that passes every check, and otherwise
rejects the slot with the first check that fails (R367, R372, R377); a long operation answers what waits behind it,
and one with a bad header or a missing argument ends at once (spec/15 R354, R355); a copy is recorded COMPLETE and
pending and TVX_MAIN restarts on it, its settings move, and the components follow in their order until the commit
(R372, R373, R378); in recovery mode the package restarts on it (R381); a component or a TVX_MAIN that is not ready in
time, or a failed move of the settings, starts the rollback, which ends with the old TVX_MAIN's answer (R374, R375);
start-up chooses the active slot where it verifies, the other where only that one does, and otherwise recovery mode
(R380, R381), and takes its images, its settings and the records, with defaults for a copy that fails its CRC (spec/15
R361). What comes in another phase changes nothing. Whether the flash fails its read-back, and whether the new image
represents every setting, is open (log entry 36). -/
def Obligations.BundlesAndActivation : Prop :=
  (∀ (c : QCmd) (q : List QCmd) (s : State), s.Executes c q opSTAGE_BLOCK 8 →
    s.headRuns (q.filter (fun x => x.ing != c.ing)) = true → s.tvx.flashGranted = false ∧ s.tvx.smallFlash = false →
    c.arg 0 4 % sectorSize = 0 ∧ c.arg 0 4 < c.arg 4 4 ∧ 576 ≤ c.arg 4 4 ∧ c.arg 4 4 ≤ bundleMax →
    c.pkt.param = min sectorSize (c.arg 4 4 - c.arg 0 4) → s.headRuns (q.filter (fun x => x.ing != c.ing)) = true →
    Completes (.stageBlock) s fun t =>
      t.free = s.free + 1 ∧
      (∀ (i : Nat), i ≠ c.arg 0 4 / sectorSize → t.stageBlock i = Tbl.get (fun _ => []) (if s.tvx.stageLen = c.arg 4 4 then
        s.tvx.stage else []) i) ∧
      ((t.stageBlock (c.arg 0 4 / sectorSize) = c.data.take c.pkt.param ∧ (t.stageDone = true ∧ (s.tvx.stageLen ≠ c.arg 4 4
        ∨ s.stageDone = false) → s.Recorded16 (s.dir.slot s.target slotEMPTY 0) t ∧ (s.setTvx { s.tvx with
        stageLen := c.arg 4 4, stage := t.tvx.stage, dir0 := t.tvx.dir0, dir1 := t.tvx.dir1, slotA := (if s.target = 0
          then [] else s.tvx.slotA), slotB := (if s.target = 0 then s.tvx.slotB else []), erasing := true, prepared :=
          false }).Answered c q [] t) ∧ (¬ (t.stageDone = true ∧ (s.tvx.stageLen ≠ c.arg 4 4 ∨ s.stageDone = false)) →
          (s.setTvx { s.tvx with stageLen := c.arg 4 4, stage := t.tvx.stage }).Answered c q [] t)) ∨ (t.stageBlock
          (c.arg 0 4 / sectorSize) = [] ∧ (s.setTvx
          { s.tvx with stageLen := c.arg 4 4, stage := t.tvx.stage }).Freezes c q stDEVICE_ERROR 0 t)) ∧
      s.Only [.free, .tvx] t) ∧
  (∀ (c : QCmd) (q : List QCmd) (s : State), s.Executes c q opSTAGE_BLOCK 8 →
    s.headRuns (q.filter (fun x => x.ing != c.ing)) = true → s.tvx.flashGranted = false ∧ s.tvx.smallFlash = true →
    Completes (.stageBlock) s fun t =>
      s.Freezes c q stDEVICE_ERROR 0 t ∧ s.Only [.tvx] t) ∧
  (∀ (c : QCmd) (q : List QCmd) (s : State), s.Executes c q opSTAGE_BLOCK 8 →
    s.headRuns (q.filter (fun x => x.ing != c.ing)) = true → s.tvx.flashGranted = false ∧ s.tvx.smallFlash = false →
    (c.arg 0 4 % sectorSize ≠ 0 ∨ c.arg 4 4 < 576 ∨ bundleMax < c.arg 4 4 ∨ c.arg 4 4 ≤ c.arg 0 4) →
    Completes (.stageBlock) s fun t =>
      s.Freezes c q stINVALID_ARG (if c.arg 0 4 % sectorSize = 0 ∧ (c.arg 4 4 < 576 ∨ bundleMax < c.arg 4 4) then 4 else 0)
        t ∧
      s.Only [.tvx] t) ∧
  (∀ (c : QCmd) (q : List QCmd) (s : State), s.Executes c q opSTAGE_BLOCK 8 →
    s.headRuns (q.filter (fun x => x.ing != c.ing)) = true → s.tvx.flashGranted = false ∧ s.tvx.smallFlash = false →
    c.arg 0 4 % sectorSize = 0 ∧ c.arg 0 4 < c.arg 4 4 ∧ 576 ≤ c.arg 4 4 ∧ c.arg 4 4 ≤ bundleMax →
    c.pkt.param ≠ min sectorSize (c.arg 4 4 - c.arg 0 4) → Completes (.stageBlock) s fun t =>
      t.free = s.free + 1 ∧ s.Freezes c q stINVALID_ARG (((t.ing c.ing).errLog.map (fun e => e.2.2.2)).getD 0) t ∧
      s.Only [.free, .tvx] t) ∧
  (∀ (c : QCmd) (q : List QCmd) (s : State), s.Executes c q opSTAGE_STATUS 0 → s.tvx.flashGranted = false →
    Completes (.stageStatus) s fun t =>
      s.Answered c q ([if s.stageDone then 2 else if ((List.range s.stageBlocks).filter (fun i => s.stageBlock i != [])).length = 0 then 0 else 1] ++ leBytes 4 s.tvx.stageLen ++ leBytes 2 ((List.range s.stageBlocks).filter (fun i => s.stageBlock i != [])).length ++ leBytes 4 (match s.stageGap with | some i => i * sectorSize | none => 0xFFFFFFFF) ++ [b2n s.tvx.prepared] ++ leBytes 4 (bundleSetId (s.stageBlock 0)) ++ [s.dir.active, s.dir.stA, s.dir.stB] ++ leBytes 4 s.dir.idA ++ leBytes 4 s.dir.idB) t ∧
      s.Only [.tvx] t) ∧
  (∀ (s : State), s.tvx.erasing = true → Completes (.slotEraseComplete) s fun t =>
      t.tvx = { s.tvx with erasing := false, prepared := true } ∧ s.Only [.tvx] t) ∧
  (∀ (s : State), s.tvx.erasing = false → Completes (.slotEraseComplete) s fun t =>
      s.Only [] t) ∧
  (∀ (i : Instr) (op n : Nat) (s : State), (i, op, n) ∈ longRows → s.headCmd op = none → Completes (i) s fun t =>
      s.Only [] t) ∧
  (∀ (i : Instr) (op n : Nat) (c : QCmd) (q : List QCmd) (s : State), (i, op, n) ∈ longRows →
    s.headCmd op = some c ∧ s.tvx.queue = c :: q → c.data.length < c.pkt.param ∧ c.pkt.version ≠ 1 → c.xfer = false →
    Completes (i) s fun t =>
      s.AsksNext c q t ∧ s.Only [.tvx] t) ∧
  (∀ (i : Instr) (op n : Nat) (c : QCmd) (q : List QCmd) (s : State), (i, op, n) ∈ longRows →
    s.headCmd op = some c ∧ s.tvx.queue = c :: q → c.data.length < c.pkt.param ∧ c.pkt.version ≠ 1 → c.xfer = true →
    Completes (i) s fun t =>
      s.Only [] t) ∧
  (∀ (i : Instr) (op n : Nat) (c : QCmd) (q : List QCmd) (s : State), (i, op, n) ∈ longRows →
    s.headCmd op = some c ∧ s.tvx.queue = c :: q → c.pkt.version = 1 ∧ c.pkt.param ≠ 0 → Completes (i) s fun t =>
      s.EndsAtOnce c q (if op = opACTIVATE then stABORTED_ACTIVATION else stBUSY) stINVALID_ARG [] t ∧
      s.OnlyFields (reportFields) t ∧ s.Only [.free, .regs, .tvx] t) ∧
  (∀ (i : Instr) (op n : Nat) (c : QCmd) (q : List QCmd) (s : State), (i, op, n) ∈ longRows →
    s.headCmd op = some c ∧ s.tvx.queue = c :: q → ((c.pkt.version = 1 → c.pkt.param = 0) ∧ c.pkt.param ≤ c.data.length) →
    c.pkt.data.length < n → Completes (i) s fun t =>
      s.EndsAtOnce c q (if op = opACTIVATE then stABORTED_ACTIVATION else stBUSY) stINVALID_ARG [] t ∧
      (t.ing c.ing).errLog = some (c.pkt.tag, c.pkt.opcode, stINVALID_ARG, c.pkt.data.length) ∧
      s.OnlyFields (reportFields) t ∧ s.Only [.free, .regs, .tvx] t) ∧
  (∀ (c : QCmd) (q : List QCmd) (s : State), s.Executes c q opACTIVATE 0 →
    s.tvx.flashGranted = false ∧ c.pkt.data = [] ∧ s.stageDone = true → Completes (.activateBundle) s fun t =>
      (s.stageErr = none → s.CopyBegins c q t) ∧ s.stageErr.all (fun e => decide (s.StageRefused c q e t)) = true ∧
      s.OnlyFields (reportFields) t ∧ s.Only [.regs, .tvx] t) ∧
  (∀ (c : QCmd) (q : List QCmd) (s : State), s.Executes c q opACTIVATE 0 →
    s.tvx.flashGranted = false ∧ c.pkt.data = [] ∧ s.stageDone = false → Completes (.activateBundle) s fun t =>
      s.EndsAtOnce c q stABORTED_ACTIVATION stINVALID_STATE (actPay 1 0xFF 13 0) t ∧ t.dir = s.dir ∧ t.tvx.act = s.tvx.act ∧
      s.OnlyFields (reportFields) t ∧ s.Only [.regs, .tvx] t) ∧
  (∀ (c : QCmd) (q : List QCmd) (s : State), s.Executes c q opACTIVATE 0 → (s.tvx.flashGranted = true ∨ c.pkt.data ≠ []) →
    Completes (.activateBundle) s fun t =>
      s.EndsAtOnce c q stABORTED_ACTIVATION (if s.tvx.flashGranted = true then stINVALID_STATE else stINVALID_ARG) (actPay 1
        0xFF (((Tbl.get (fun _ => none) (t.ing c.ing).stored c.pkt.tag).map (fun p => p.data.getD 2 0)).getD 0)
        (bundleSetId (s.stageBlock 0))) t ∧
      t.dir = s.dir ∧ t.tvx.act = s.tvx.act ∧ t.free = s.free + 1 ∧ s.OnlyFields (reportFields) t ∧
      s.Only [.free, .regs, .tvx] t) ∧
  (∀ (a : Act) (s : State), s.Activates a .copy ∧ s.tvx.alive = true ∧ s.tvx.running = true ∧ s.tvx.recovery = false →
    Completes (.bundleCopyComplete) s fun t =>
      t.free = s.free + 1 ∧
      ((s.Recorded16 { s.dir.slot a.target slotCOMPLETE a.setId with pending := a.target } t ∧ t.tvx = { s.tvx with
        dir0 := t.tvx.dir0, dir1 := t.tvx.dir1, slotA := (if a.target = 0 then s.stageBytes else s.tvx.slotA), slotB
          := (if a.target = 0 then s.tvx.slotB else s.stageBytes), act := some { a with ph := .mainNew }, cause :=
          .activate, running := false, recovery := false, queue := [], msl := {}, mbox := {} }) ∨ (s.Recorded16
          (s.rejected a) t ∧ t.tvx = { s.tvx with
        dir0 := t.tvx.dir0, dir1 := t.tvx.dir1, act := none, longOp := s.tvx.longOp.map (fun l =>
          { l with final := some (stDEVICE_ERROR, 0, actPay 2 0xFF 11 a.setId) }) })) ∧
      s.Only [.free, .tvx] t) ∧
  (∀ (a : Act) (s : State), s.Activates a .copy ∧ s.tvx.running = false ∧ s.tvx.recovery = true →
    Completes (.bundleCopyComplete) s fun t =>
      ((s.Recorded16 { s.dir.slot a.target slotCOMPLETE a.setId with active := a.target, pending := 0xFF } t ∧ t.slotBytes
        a.target = s.stageBytes ∧ t.tvx.alive = true ∧ t.tvx.running = false ∧ t.tvx.recovery = false ∧ t.tvx.act =
        none ∧ t.tvx.longOp = none ∧ t.tvx.stage = s.tvx.stage ∧ t.tvx.set0 = s.tvx.set0 ∧ t.tvx.set1 = s.tvx.set1 ∧
        t.tvx.recs = s.tvx.recs ∧ t.tvx.host = s.tvx.host ∧ t.pwr = {} ∧ t.net = [] ∧ t.mem = [] ∧ (∀ (r : Nat), t.reg
        r = regReset r)) ∨ (t.free = s.free + 1 ∧ s.Recorded16 (s.rejected a) t ∧ t.tvx = { s.tvx with
        dir0 := t.tvx.dir0, dir1 := t.tvx.dir1, act := none, longOp := s.tvx.longOp.map (fun l =>
          { l with final := some (stDEVICE_ERROR, 0, actPay 2 0xFF 11 a.setId) }) } ∧ t.regs = s.regs ∧ t.net = s.net
          ∧ t.mem = s.mem ∧ t.pwr = s.pwr)) ∧
      s.Only [.regs, .mem, .marked, .net, .free, .core, .die, .home, .pass, .chan, .mesa, .meter, .qos, .hzn, .xce, .io,
        .ras, .tvx, .pwr, .ccol] t) ∧
  (∀ (s : State),
    (s.tvx.act.all (fun a => a.ph != .copy || a.fail.isSome) = true ∨ (s.tvx.running = false ∧ s.tvx.recovery = false)) →
    Completes (.bundleCopyComplete) s fun t =>
      s.Only [] t) ∧
  (∀ (s : State), s.tvx.alive = true ∧ s.tvx.running = false ∧ s.tvx.recovery = false → s.tvx.act = none →
    (s.tvx.smallFlash = true ∨ (s.dirRec = none ∧ s.slotOk 0 true = false ∧ s.slotOk 1 true = false) ∨ (s.dirRec ≠ none ∧ s.slotOk s.dir.active false = false ∧ s.slotOk (1 - s.dir.active) false = false)) →
    Completes (.tvxMainRunning) s fun t =>
      t.tvx = { s.tvx with recovery := true } ∧ s.Only [.tvx] t) ∧
  (∀ (s : State), s.tvx.alive = true ∧ s.tvx.running = false ∧ s.tvx.recovery = false →
    (s.tvx.act ≠ none ∧ (s.tvx.cause ≠ .activate ∨ s.tvx.act.all (fun a => s.dir.pending != a.target || a.fail.isSome) = true)) →
    (s.tvx.smallFlash = true ∨ (s.dirRec ≠ none ∧ s.slotOk s.dir.active false = false ∧ s.slotOk (1 - s.dir.active) false = false)) →
    Completes (.tvxMainRunning) s fun t =>
      t.tvx = { s.tvx with recovery := true } ∧ s.Only [.tvx] t) ∧
  (∀ (s : State), (s.tvx.alive = false ∨ s.tvx.running = true ∨ s.tvx.recovery = true) →
    Completes (.tvxMainRunning) s fun t =>
      s.Only [] t) ∧
  (∀ (s : State), s.tvx.alive = true ∧ s.tvx.running = false ∧ s.tvx.recovery = false →
    s.tvx.act = none ∧ s.tvx.cause ≠ .none → s.tvx.smallFlash = false → Completes (.tvxMainRunning) s fun t =>
      (s.dirRec ≠ none ∧ s.slotOk s.dir.active false = true → s.Boots s.dir.active t ∧ t.dir = s.dir) ∧
      (s.dirRec ≠ none ∧ s.slotOk s.dir.active false = false ∧ s.slotOk (1 - s.dir.active) false = true → s.Boots (1 -
        s.dir.active) t ∧ t.dir = s.swappedDir) ∧
      (s.dirRec = none ∧ (s.slotOk 0 true = true ∨ s.slotOk 1 true = true) → s.Boots s.pickSlot t ∧ t.dir = s.foundDir) ∧
      (s.slotOk s.dir.active false = false ∧ s.slotOk (1 - s.dir.active) false = false ∧ s.dirRec ≠ none → t.tvx.recovery =
        true ∧ t.tvx.running = false) ∧
      (∀ (k : Nat), k ≠ 1 → t.version k = s.version k) ∧
      t.tvx = { s.tvx with
        running := t.tvx.running, recovery := t.tvx.recovery, runs := t.tvx.runs, vers := t.tvx.vers, dir0 :=
          t.tvx.dir0, dir1 := t.tvx.dir1, log := t.tvx.log, nextSeq := t.tvx.nextSeq, stalled := t.tvx.stalled, mslOut
          := t.tvx.mslOut, mboxQ := t.tvx.mboxQ } ∧
      (t.tvx.running = true ∧ s.tvx.flashGranted = false → t.tvx.log.head?.map (fun e => (e.code, e.sev)) = some
        (codeMGMT_RESTARTED, sevINFO) ∧ t.tvx.stalled = []) ∧
      s.OnlyFields (reportFields) t ∧ s.Only [.regs, .tvx] t) ∧
  (∀ (s : State), s.tvx.alive = true ∧ s.tvx.running = false ∧ s.tvx.recovery = false →
    s.tvx.act = none ∧ s.tvx.cause = .none → s.tvx.smallFlash = false → Completes (.tvxMainRunning) s fun t =>
      (s.dirRec ≠ none ∧ s.slotOk s.dir.active false = true → s.Boots s.dir.active t ∧ t.dir = (if s.dir.pending = 0xFF then s.dir else { s.dir.slot s.dir.pending slotREJECTED (s.dir.setId s.dir.pending) with pending := 0xFF, seq := s.dir.seq + 1 })) ∧
      (s.dirRec ≠ none ∧ s.slotOk s.dir.active false = false ∧ s.slotOk (1 - s.dir.active) false = true → s.Boots (1 -
        s.dir.active) t ∧ t.dir = s.swappedDir) ∧
      (s.dirRec = none ∧ (s.slotOk 0 true = true ∨ s.slotOk 1 true = true) → s.Boots s.pickSlot t ∧ t.dir = s.foundDir) ∧
      (s.slotOk s.dir.active false = false ∧ s.slotOk (1 - s.dir.active) false = false ∧ s.dirRec ≠ none → t.tvx.recovery =
        true ∧ t.tvx.running = false) ∧
      (t.tvx.running = true → (∀ (k : Nat), k < 7 → t.version k = entryVersion (s.slotBytes t.dir.active) k) ∧ (∀ (k : Nat),
        t.setting k = (if t.tvx.runs = 0 then (if s.tvx.set0.rot.contains k then itemDefault k else s.tvx.set0.item k)
        else (if s.tvx.set1.rot.contains k then itemDefault k else s.tvx.set1.item k))) ∧ t.setSlot.rot = [] ∧
        t.tvx.recs = { s.tvx.recs.rot.foldl DevRecs.blank s.tvx.recs with rot := [] }) ∧
      s.OnlyFields (reportFields ++ rangeFields ucPASS ++ rangeFields ucHZN) t ∧
      s.Only [.free, .core, .pass, .ras, .regs, .tvx] t) ∧
  (∀ (a : Act) (s : State), s.tvx.alive = true ∧ s.tvx.running = false ∧ s.tvx.recovery = false →
    s.tvx.act = some a ∧ s.tvx.cause = .activate → s.dir.pending = a.target ∧ a.fail = none ∧ a.done = [] →
    bundleSchema (s.slotBytes a.target) < (if s.dir.active = 0 then s.tvx.set0 else s.tvx.set1).schema →
    Completes (.tvxMainRunning) s fun t =>
      (∃ r, r = 10 ∧ s.Recorded16 (s.rejected a) t ∧ t.tvx.set0 = s.tvx.set0 ∧ t.tvx.set1 = s.tvx.set1 ∧ t.tvx.running =
        false ∧ t.tvx.cause = .rollback ∧ t.tvx.runs = a.target ∧ t.tvx.act = some
        { a with fail := some (4, 0xFF, r), ph := .mainOld }) ∧
      s.OnlyFields (ucFields ++ reportFields) t ∧ s.Only [.free, .regs, .tvx] t) ∧
  (∀ (a : Act) (s : State), s.tvx.alive = true ∧ s.tvx.running = false ∧ s.tvx.recovery = false →
    s.tvx.act = some a ∧ s.tvx.cause = .activate → s.dir.pending = a.target ∧ a.fail = none ∧ a.done = [] →
    (if s.dir.active = 0 then s.tvx.set0 else s.tvx.set1).schema ≤ bundleSchema (s.slotBytes a.target) →
    Completes (.tvxMainRunning) s fun t =>
      (((if a.target = 0 then t.tvx.set0 else t.tvx.set1) = { schema := bundleSchema (s.slotBytes a.target), items := (if s.dir.active = 0 then s.tvx.set0 else s.tvx.set1).items } ∧ (if a.target = 0 then t.tvx.set1 = s.tvx.set1 else t.tvx.set0 = s.tvx.set0) ∧ s.Boots a.target t ∧ (30000000 ≤ s.minuteLeft → t.tvx.act = some { a with ph := .comp ucPWR, done := [ucPWR] } ∧ t.Down ucPWR) ∧ (s.minuteLeft < 30000000 → t.tvx.act = some { a with ph := .deferPwr })) ∨ (∃ r, (r = 11 ∨ (r = 10 ∧ bundleSchema (s.slotBytes a.target) ≠ (if s.dir.active = 0 then s.tvx.set0 else s.tvx.set1).schema)) ∧ s.Recorded16 (s.rejected a) t ∧ t.tvx.set0 = s.tvx.set0 ∧ t.tvx.set1 = s.tvx.set1 ∧ t.tvx.running = false ∧ t.tvx.cause = .rollback ∧ t.tvx.runs = a.target ∧ t.tvx.act = some { a with fail := some (4, 0xFF, r), ph := .mainOld })) ∧
      (∀ (k : Nat), k ≠ 1 → t.version k = s.version k) ∧ s.OnlyFields (ucFields ++ reportFields) t ∧
      s.Only [.free, .regs, .tvx] t) ∧
  (∀ (a : Act) (e : Nat × Nat × Nat) (s : State), s.tvx.alive = true ∧ s.tvx.running = false ∧ s.tvx.recovery = false →
    (s.tvx.act = some a ∧ (s.tvx.cause ≠ .activate ∨ s.dir.pending ≠ a.target ∨ a.fail ≠ none)) →
    s.tvx.smallFlash = false ∧ s.dirRec ≠ none → a.ph = .mainOld ∧ a.fail = some e → Completes (.tvxMainRunning) s fun t =>
      (s.slotOk s.dir.active false = true → s.Boots s.dir.active t ∧ t.dir = s.dir ∧ t.tvx.act = none ∧ t.tvx.longOp =
        s.tvx.longOp.map (fun l => { l with final := some (actStatus e.1 e.2.2, 0, actPay e.1 e.2.1 e.2.2 a.setId) }))
        ∧
      (s.dirRec ≠ none ∧ s.slotOk s.dir.active false = false ∧ s.slotOk (1 - s.dir.active) false = true → s.Boots (1 -
        s.dir.active) t ∧ t.dir = s.swappedDir ∧ t.tvx.act = none ∧ t.tvx.longOp = s.tvx.longOp.map (fun l =>
        { l with final := some (actStatus e.1 e.2.2, 0, actPay e.1 e.2.1 e.2.2 a.setId) })) ∧
      (s.slotOk s.dir.active false = false ∧ s.slotOk (1 - s.dir.active) false = false ∧ s.dirRec ≠ none → t.tvx.recovery =
        true ∧ t.tvx.running = false) ∧
      s.OnlyFields (reportFields) t ∧ s.Only [.regs, .tvx] t) ∧
  (∀ (a : Act) (k : Nat) (q : List Nat) (s : State), s.tvx.alive = true ∧ s.tvx.running = false ∧ s.tvx.recovery = false →
    (s.tvx.act = some a ∧ (s.tvx.cause ≠ .activate ∨ s.dir.pending ≠ a.target ∨ a.fail ≠ none)) →
    s.tvx.smallFlash = false ∧ s.dirRec ≠ none → a.ph ≠ .mainOld ∧ a.done = k :: q → Completes (.tvxMainRunning) s fun t =>
      (s.slotOk s.dir.active false = true → s.Boots s.dir.active t ∧ t.dir = s.dir ∧ t.tvx.act = some
        { a with ph := .back k, done := q } ∧ t.Down k) ∧
      (s.dirRec ≠ none ∧ s.slotOk s.dir.active false = false ∧ s.slotOk (1 - s.dir.active) false = true → s.Boots (1 -
        s.dir.active) t ∧ t.dir = s.swappedDir ∧ t.tvx.act = some { a with ph := .back k, done := q } ∧ t.Down k) ∧
      (s.slotOk s.dir.active false = false ∧ s.slotOk (1 - s.dir.active) false = false ∧ s.dirRec ≠ none → t.tvx.recovery =
        true ∧ t.tvx.running = false) ∧
      s.OnlyFields (ucFields ++ reportFields) t ∧ s.Only [.regs, .tvx] t) ∧
  (∀ (a : Act) (e : Nat × Nat × Nat) (s : State), s.tvx.alive = true ∧ s.tvx.running = false ∧ s.tvx.recovery = false →
    (s.tvx.act = some a ∧ (s.tvx.cause ≠ .activate ∨ s.dir.pending ≠ a.target ∨ a.fail ≠ none)) →
    s.tvx.smallFlash = false ∧ s.dirRec ≠ none → a.ph ≠ .mainOld ∧ a.done = [] ∧ a.fail = some e ∧ a.target ≠ s.dir.active →
    Completes (.tvxMainRunning) s fun t =>
      (s.slotOk s.dir.active false = true → s.Boots s.dir.active t ∧ s.Recorded16 (s.rejected a) t ∧ t.tvx.act = none ∧
        t.tvx.longOp = s.tvx.longOp.map (fun l =>
        { l with final := some (actStatus e.1 e.2.2, 0, actPay e.1 e.2.1 e.2.2 a.setId) })) ∧
      (s.slotOk s.dir.active false = false ∧ s.slotOk (1 - s.dir.active) false = false ∧ s.dirRec ≠ none → t.tvx.recovery =
        true ∧ t.tvx.running = false) ∧
      s.OnlyFields (reportFields) t ∧ s.Only [.regs, .tvx] t) ∧
  (∀ (a : Act) (s : State), s.Activates a (.comp 2) ∧ s.tvx.running = true → Completes (.componentReady) s fun t =>
      t.tvx = { s.tvx with
        vers := Tbl.set (fun _ => 0) s.tvx.vers 2 (entryVersion (s.slotBytes a.target) 2), act := some
          { a with ph := .comp 3, done := 3 :: a.done } } ∧
      s.Up 2 a.target t ∧ t.Down 3 ∧ s.OnlyFields (rangeFields 2 ++ [R.PWR_STATUS_UC_RUNNING]) t ∧ s.Only [.regs, .tvx] t) ∧
  (∀ (a : Act) (s : State), s.Activates a (.comp 3) ∧ s.tvx.running = true → Completes (.componentReady) s fun t =>
      t.tvx = { s.tvx with
        vers := Tbl.set (fun _ => 0) s.tvx.vers 3 (entryVersion (s.slotBytes a.target) 3), act := some
          { a with ph := .comp 5, done := 5 :: a.done } } ∧
      s.Up 3 a.target t ∧ t.Down 5 ∧ s.OnlyFields (rangeFields 3 ++ []) t ∧ s.Only [.regs, .tvx] t) ∧
  (∀ (a : Act) (s : State), s.Activates a (.comp 5) ∧ s.tvx.running = true → Completes (.componentReady) s fun t =>
      t.tvx = { s.tvx with
        vers := Tbl.set (fun _ => 0) s.tvx.vers 5 (entryVersion (s.slotBytes a.target) 5), act := some
          { a with ph := .comp 6, done := 6 :: a.done } } ∧
      s.Up 5 a.target t ∧ t.Down 6 ∧ s.OnlyFields (rangeFields 5 ++ [R.XCE_STATUS_UC_RUNNING]) t ∧ s.Only [.regs, .tvx] t) ∧
  (∀ (a : Act) (s : State), s.Activates a (.comp 6) ∧ s.tvx.running = true → Completes (.componentReady) s fun t =>
      s.Recorded16 { s.dir with active := a.target, pending := 0xFF } t ∧
      t.tvx.act = none ∧ t.version 6 = entryVersion (s.slotBytes a.target) 6 ∧
      t.tvx.longOp = s.tvx.longOp.map (fun l => { l with final := some (stOK, 0, actPay 7 0xFF 0 a.setId) }) ∧
      t.get R.XCE_STATUS_UC_RUNNING = 1 ∧ (t.reg R.rXCE_EVENT).toNat.testBit 4 = true ∧
      (s.tvx.flashGranted = false → t.tvx.log.head?.map (fun e => (e.code, e.sev, e.detail)) = some (0x62, sevINFO,
        a.setId)) ∧
      t.xce.commit = [] ∧ t.xce.share = [] ∧
      s.Only [.regs, .net, .free, .core, .pass, .meter, .qos, .hzn, .xce, .io, .ras, .tvx] t) ∧
  (∀ (a : Act) (s : State), s.Activates a (.comp 6) ∧ s.tvx.running = true →
    imageRange 3 (entryVersion (s.slotBytes s.dir.active) 3) = imageRange 3 (entryVersion (s.slotBytes a.target) 3) ∧ imageRange 5 (entryVersion (s.slotBytes s.dir.active) 5) = imageRange 5 (entryVersion (s.slotBytes a.target) 5) →
    (s.get R.XCE_EVENT_EN_ENABLE).testBit 4 = false ∧ s.xce.commit = [] ∧ s.xce.share = [] →
    Completes (.componentReady) s fun t =>
      s.Recorded16 { s.dir with active := a.target, pending := 0xFF } t ∧
      t.tvx.act = none ∧ t.version 6 = entryVersion (s.slotBytes a.target) 6 ∧
      t.tvx.longOp = s.tvx.longOp.map (fun l => { l with final := some (stOK, 0, actPay 7 0xFF 0 a.setId) }) ∧
      t.get R.XCE_STATUS_UC_RUNNING = 1 ∧ (t.reg R.rXCE_EVENT).toNat.testBit 4 = true ∧
      (s.tvx.flashGranted = false → t.tvx.log.head?.map (fun e => (e.code, e.sev, e.detail)) = some (0x62, sevINFO,
        a.setId)) ∧
      s.OnlyFields (reportFields ++ [R.XCE_STATUS_UC_RUNNING, R.XCE_WIN_STATUS_HELD, FRef.all R.rXCE_EVENT]) t ∧
      s.Only [.regs, .tvx] t) ∧
  (∀ (a : Act) (k : Nat) (n : Nat) (q : List Nat) (s : State), s.tvx.act = some a ∧ a.ph = .back k ∧ k ≠ ucXCE →
    s.tvx.running = true → a.done = n :: q → Completes (.componentReady) s fun t =>
      t.tvx = { s.tvx with
        vers := Tbl.set (fun _ => 0) s.tvx.vers k (entryVersion (s.slotBytes s.dir.active) k), act := some
          { a with ph := .back n, done := q } } ∧
      t.Down n ∧ (n ≠ k → s.Up k s.dir.active t) ∧ s.OnlyFields (rangeFields k ++ ucFields) t ∧ s.Only [.regs, .tvx] t) ∧
  (∀ (a : Act) (k : Nat) (s : State), s.tvx.act = some a ∧ a.ph = .back k ∧ k ≠ ucXCE → s.tvx.running = true →
    a.done = [] ∧ s.tvx.runs = a.target ∧ s.tvx.alive = true → Completes (.componentReady) s fun t =>
      t.tvx = { s.tvx with
        vers := Tbl.set (fun _ => 0) s.tvx.vers k (entryVersion (s.slotBytes s.dir.active) k), dir0 := t.tvx.dir0,
          dir1 := t.tvx.dir1, act := some { a with ph := .mainOld }, cause := .rollback, running := false, recovery :=
          false, queue := [], msl := {}, mbox := {} } ∧
      s.Recorded16 (s.rejected a) t ∧ s.Up k s.dir.active t ∧ s.OnlyFields (rangeFields k ++ ucFields) t ∧
      s.Only [.regs, .tvx] t) ∧
  (∀ (a : Act) (k : Nat) (e : Nat × Nat × Nat) (s : State), s.tvx.act = some a ∧ a.ph = .back k ∧ k ≠ ucXCE →
    s.tvx.running = true → a.done = [] ∧ s.tvx.runs ≠ a.target ∧ a.fail = some e → Completes (.componentReady) s fun t =>
      t.tvx = { s.tvx with
        vers := Tbl.set (fun _ => 0) s.tvx.vers k (entryVersion (s.slotBytes s.dir.active) k), dir0 := t.tvx.dir0,
          dir1 := t.tvx.dir1, act := none, longOp := s.tvx.longOp.map (fun l =>
          { l with final := some (actStatus e.1 e.2.2, 0, actPay e.1 e.2.1 e.2.2 a.setId) }) } ∧
      s.Recorded16 (s.rejected a) t ∧ s.Up k s.dir.active t ∧ s.OnlyFields (rangeFields k ++ ucFields) t ∧
      s.Only [.regs, .tvx] t) ∧
  (∀ (a : Act) (n : Nat) (q : List Nat) (s : State), s.tvx.act = some a ∧ a.ph = .back 6 ∧ s.tvx.running = true →
    a.done = n :: q → Completes (.componentReady) s fun t =>
      t.tvx.act = some { a with ph := .back n, done := q } ∧ t.version 6 = entryVersion (s.slotBytes s.dir.active) 6 ∧
      (n ≠ 6 → t.get R.XCE_STATUS_UC_RUNNING = 1) ∧ t.Down n ∧ t.xce.commit = [] ∧ t.xce.share = [] ∧ t.dir = s.dir ∧
      s.Only [.regs, .net, .free, .core, .pass, .meter, .qos, .hzn, .xce, .io, .ras, .tvx] t) ∧
  (∀ (s : State), (s.tvx.running = false ∨ s.tvx.act.all (fun a => !a.ph.waits) = true) →
    Completes (.componentReady) s fun t =>
      s.Only [] t) ∧
  (∀ (b : Bool) (a : Act) (k n : Nat) (q : List Nat) (s : State), s.Activates a (.comp k) ∧ s.tvx.running = true →
    a.done = n :: q → Completes (.componentReadyTimeout b) s fun t =>
      t.tvx = { s.tvx with act := some { a with fail := some (5, k, if b then 9 else 8), ph := .back n, done := q } } ∧
      t.Down n ∧ s.OnlyFields (ucFields) t ∧ s.Only [.regs, .tvx] t) ∧
  (∀ (b : Bool) (a : Act) (k : Nat) (n : Nat) (q : List Nat) (s : State), s.tvx.act = some a ∧ a.ph = .back k ∧ k ≠ ucXCE →
    s.tvx.running = true → a.done = n :: q → Completes (.componentReadyTimeout b) s fun t =>
      t.tvx = { s.tvx with
        act := some { a with ph := .back n, done := q }, log := t.tvx.log, nextSeq := t.tvx.nextSeq, stalled :=
          t.tvx.stalled, mslOut := t.tvx.mslOut, mboxQ := t.tvx.mboxQ } ∧
      t.Down n ∧ s.Recorded bankTvx ⟨true, errUEC, false, 0, 0, k % 2 ^ 64, s.pwr.now⟩ t ∧
      s.OnlyFields (reportFields ++ ucFields) t ∧ s.Only [.free, .core, .pass, .ras, .regs, .tvx] t) ∧
  (∀ (b : Bool) (a : Act) (k : Nat) (s : State), s.tvx.act = some a ∧ a.ph = .back k ∧ k ≠ ucXCE → s.tvx.running = true →
    a.done = [] ∧ s.tvx.runs = a.target ∧ s.tvx.alive = true → Completes (.componentReadyTimeout b) s fun t =>
      t.tvx = { s.tvx with
        dir0 := t.tvx.dir0, dir1 := t.tvx.dir1, act := some { a with ph := .mainOld }, cause := .rollback, running :=
          false, recovery := false, queue := [], msl := {}, mbox := {}, log := t.tvx.log, nextSeq := t.tvx.nextSeq,
          stalled := t.tvx.stalled, mslOut := t.tvx.mslOut, mboxQ := t.tvx.mboxQ } ∧
      s.Recorded16 (s.rejected a) t ∧ s.Recorded bankTvx ⟨true, errUEC, false, 0, 0, k % 2 ^ 64, s.pwr.now⟩ t ∧
      s.OnlyFields (reportFields ++ ucFields) t ∧ s.Only [.free, .core, .pass, .ras, .regs, .tvx] t) ∧
  (∀ (b : Bool) (a : Act) (k : Nat) (e : Nat × Nat × Nat) (s : State), s.tvx.act = some a ∧ a.ph = .back k ∧ k ≠ ucXCE →
    s.tvx.running = true → a.done = [] ∧ s.tvx.runs ≠ a.target ∧ a.fail = some e →
    Completes (.componentReadyTimeout b) s fun t =>
      t.tvx = { s.tvx with
        dir0 := t.tvx.dir0, dir1 := t.tvx.dir1, act := none, longOp := s.tvx.longOp.map (fun l =>
          { l with final := some (actStatus e.1 e.2.2, 0, actPay e.1 e.2.1 e.2.2 a.setId) }), log := t.tvx.log,
          nextSeq := t.tvx.nextSeq, stalled := t.tvx.stalled, mslOut := t.tvx.mslOut, mboxQ := t.tvx.mboxQ } ∧
      s.Recorded16 (s.rejected a) t ∧ s.Recorded bankTvx ⟨true, errUEC, false, 0, 0, k % 2 ^ 64, s.pwr.now⟩ t ∧
      s.OnlyFields (reportFields ++ ucFields) t ∧ s.Only [.free, .core, .pass, .ras, .regs, .tvx] t) ∧
  (∀ (b : Bool) (s : State), (s.tvx.running = false ∨ s.tvx.act.all (fun a => !a.ph.waits) = true) →
    Completes (.componentReadyTimeout b) s fun t =>
      s.Only [] t) ∧
  (∀ (a : Act) (s : State), s.Activates a .deferPwr ∧ s.tvx.running = true → Completes (.pwrUcRestartDeferred) s fun t =>
      t.tvx.act = some { a with ph := .comp ucPWR, done := ucPWR :: a.done } ∧ t.get R.PWR_STATUS_UC_RUNNING = 0 ∧
      t.pwr.now = (if s.pwr.now % minuteNs < 5000000 then s.pwr.now / minuteNs else s.pwr.now / minuteNs + 1) * minuteNs +
        5000000 ∧
      s.Only [.regs, .core, .pass, .meter, .qos, .hzn, .ras, .tvx, .pwr] t) ∧
  (∀ (s : State), (s.tvx.act.all (fun a => a.ph != .deferPwr) = true ∨ s.tvx.running = false) →
    Completes (.pwrUcRestartDeferred) s fun t =>
      s.Only [] t) ∧
  (∀ (a : Act) (s : State), s.Activates a .mainNew ∧ s.tvx.running = false ∧ s.tvx.alive = true →
    Completes (.tvxMainReadyTimeout) s fun t =>
      t.tvx = { s.tvx with
        act := some { a with fail := some (3, 1, 8) }, cause := .notReady, running := false, recovery := false, queue
          := [], msl := {}, mbox := {} } ∧
      s.Only [.tvx] t) ∧
  (∀ (s : State), (s.tvx.running = true ∨ s.tvx.act.all (fun a => a.ph != .mainNew || a.fail.isSome) = true) →
    Completes (.tvxMainReadyTimeout) s fun t =>
      s.Only [] t)

/-- A reset of Thoiviyx discards commands and returns both ingresses to their start, keeping the log and a long operation
(spec/15 R342), and fails an activation in progress, with an urgent record where it had failed already (spec/16 R374,
R375); PACKAGE_RESET answers before it acts (R349, spec/17 R402); a range operation or a device sanitise starts and is
journalled where it must be, and names the first bad byte of its arguments (spec/07 R187, R188, R191); DIE_OFFLINE
stops the online cores of its die, and DIE_ONLINE empties its arrays and trains its ports (spec/03 R80), and each is
refused for a die in the wrong state; what waits behind a long operation is answered BUSY; an operation that has ended
answers, freezes its ingress where its status does, and the event is logged (spec/15 R351, R355, R359); the flash is
lent only without host power and without a long operation, and the events that waited for it are written in their
order (spec/19 R427). -/
def Obligations.LongOperationsAndResets : Prop :=
  (∀ (s : State), s.tvx.alive = true → s.tvx.act.all (fun a => a.fail.isNone) = true → Completes (.mgmtReset) s fun t =>
      s.TvxResets .packageReset t ∧ s.Only [.tvx] t) ∧
  (∀ (s : State), s.tvx.alive = true → s.tvx.act.any (fun a => a.fail.isSome) = true → Completes (.mgmtReset) s fun t =>
      t.tvx = { s.tvx with
        running := false, recovery := false, queue := [], msl := {}, mbox := {}, cause := .packageReset, stalled :=
          t.tvx.stalled } ∧
      t.tvx.stalled.getLast?.map (fun e => (e.code, e.sev, e.index)) = some (0x1, errUEC, bankTvx) ∧
      s.Recorded bankTvx ⟨true, errUEC, false, 0, 0, 0, s.pwr.now⟩ t ∧ s.OnlyFields (reportFields) t ∧
      s.Only [.free, .core, .pass, .ras, .regs, .tvx] t) ∧
  (∀ (s : State), s.tvx.alive = false → Completes (.mgmtReset) s fun t =>
      s.Only [] t) ∧
  (∀ (s : State), s.tvx.alive = true → s.tvx.act.all (fun a => a.fail.isNone) = true →
    Completes (.lockstepMismatch) s fun t =>
      s.TvxResets .lockstep t ∧ s.Only [.tvx] t) ∧
  (∀ (s : State), s.tvx.alive = true → s.tvx.act.any (fun a => a.fail.isSome) = true →
    Completes (.lockstepMismatch) s fun t =>
      t.tvx = { s.tvx with
        running := false, recovery := false, queue := [], msl := {}, mbox := {}, cause := .lockstep, stalled :=
          t.tvx.stalled } ∧
      t.tvx.stalled.getLast?.map (fun e => (e.code, e.sev, e.index)) = some (0x1, errUEC, bankTvx) ∧
      s.Recorded bankTvx ⟨true, errUEC, false, 0, 0, 0, s.pwr.now⟩ t ∧ s.OnlyFields (reportFields) t ∧
      s.Only [.free, .core, .pass, .ras, .regs, .tvx] t) ∧
  (∀ (s : State), s.tvx.alive = false → Completes (.lockstepMismatch) s fun t =>
      s.Only [] t) ∧
  (∀ (s : State), s.tvx.alive = true ∧ s.tvx.running = true → s.tvx.act.all (fun a => a.fail.isNone) = true →
    Completes (.tvxWatchdogExpiry) s fun t =>
      s.TvxResets .watchdog t ∧ s.Only [.tvx] t) ∧
  (∀ (s : State), s.tvx.alive = true ∧ s.tvx.running = true → s.tvx.act.any (fun a => a.fail.isSome) = true →
    Completes (.tvxWatchdogExpiry) s fun t =>
      t.tvx = { s.tvx with
        running := false, recovery := false, queue := [], msl := {}, mbox := {}, cause := .watchdog, stalled :=
          t.tvx.stalled } ∧
      t.tvx.stalled.getLast?.map (fun e => (e.code, e.sev, e.index)) = some (0x1, errUEC, bankTvx) ∧
      s.Recorded bankTvx ⟨true, errUEC, false, 0, 0, 0, s.pwr.now⟩ t ∧ s.OnlyFields (reportFields) t ∧
      s.Only [.free, .core, .pass, .ras, .regs, .tvx] t) ∧
  (∀ (s : State), (s.tvx.alive = false ∨ s.tvx.running = false) → Completes (.tvxWatchdogExpiry) s fun t =>
      s.Only [] t) ∧
  (∀ (c : QCmd) (q : List QCmd) (s : State), s.Executes c q opPACKAGE_RESET 1 → c.pkt.data.headD 0 = 2 ∧ s.tvx.alive = true →
    s.tvx.act.all (fun a => a.fail.isNone) = true → Completes (.packageReset) s fun t =>
      (s.sendPkt c.ing (rspPkt c.pkt stOK 0 [])).TvxResets .packageReset t ∧ s.Only [.tvx] t) ∧
  (∀ (c : QCmd) (q : List QCmd) (s : State), s.Executes c q opPACKAGE_RESET 1 → c.pkt.data.headD 0 = 1 ∧ s.warmReady = true →
    Completes (.packageReset) s fun t =>
      (c.ing = .msl → t.tvx.mslOut.take (s.tvx.mslOut.length + 1) = s.tvx.mslOut ++ [rspPkt c.pkt stOK 0 []]) ∧
      t.tvx.running = s.tvx.running ∧ t.tvx.queue = q.filter (fun x => x.ing != .mbox) ∧ t.tvx.mboxQ = [] ∧ t.tvx.mbox = {}
        ∧
      t.pwr.stage = .image ∧ t.net = [] ∧ t.hzn.win = [] ∧ t.mesa.tags = [] ∧ t.home.dir = [] ∧
      s.Only [.ccol, .chan, .core, .die, .home, .hzn, .io, .marked, .mem, .mesa, .meter, .net, .pass, .pwr, .qos, .ras,
        .regs, .tvx, .xce] t) ∧
  (∀ (c : QCmd) (q : List QCmd) (s : State), s.Executes c q opPACKAGE_RESET 1 →
    s.headRuns (q.filter (fun x => x.ing != c.ing)) = true → c.pkt.data.headD 0 ≠ 1 ∧ c.pkt.data.headD 0 ≠ 2 →
    Completes (.packageReset) s fun t =>
      s.Freezes c q stINVALID_ARG 0 t ∧ s.Only [.tvx] t) ∧
  (∀ (c : QCmd) (q : List QCmd) (s : State), s.Executes c q opPACKAGE_RESET 1 →
    s.headRuns (q.filter (fun x => x.ing != c.ing)) = true → c.pkt.data.headD 0 = 1 ∧ s.warmReady = false →
    Completes (.packageReset) s fun t =>
      s.Freezes c q stINVALID_STATE 0 t ∧ s.Only [.tvx] t) ∧
  (∀ (c : QCmd) (q : List QCmd) (s : State), s.Executes c q opSANITISE_RANGE 16 → s.tvx.flashGranted = false →
    s.hostUp = true ∧ s.sanRange (c.arg 0 8) 1 = true ∧ s.sanRange (c.arg 0 8) (c.arg 8 8) = true →
    c.arg 0 8 % 4096 = 0 ∧ c.arg 8 8 % 4096 = 0 ∧ c.arg 8 8 ≠ 0 ∧ c.arg 16 2 ≤ 1023 → Completes (.sanitiseRange) s fun t =>
      s.Starts c q t ∧
      t.chan = { s.chan with san := { op := 1, phase := sanPHASE_OVERWRITE, base := c.arg 0 8, len := c.arg 8 8, mcid := c.arg 16 2, fence := true, ent := t.chan.san.ent }, jNext := s.chan.jNext + 1, journal := t.chan.journal } ∧
      (∀ n : Fin 16, t.get (R.MC_SAN_PROGRESS_LINES_DONE n) = 0 ∧ t.get (R.MC_SAN_PROGRESS_VERIFY_FAILS n) = 0 ∧ t.get
        (R.MC_SAN_STATUS_OP n) = 1 ∧ t.get (R.MC_SAN_STATUS_PHASE n) = sanPHASE_OVERWRITE ∧ t.get
        (R.MC_SAN_STATUS_FENCE n) = 1 ∧ t.get (R.MC_SAN_BASE_VALUE n) = c.arg 0 8 / 4096 % 2 ^ (R.MC_SAN_BASE_VALUE
        n).w ∧ t.get (R.MC_SAN_LENGTH_VALUE n) = c.arg 8 8 / 4096 % 2 ^ (R.MC_SAN_LENGTH_VALUE n).w ∧ t.get
        (R.MC_SAN_STATUS_JOURNAL_SEQ n) = s.chan.jNext % 2 ^ 32) ∧
      t.chan.san.ent = some { seq := s.chan.jNext, op := 1, state := 1, mcid := c.arg 16 2, base := c.arg 0 8, len := c.arg 8 8, check := 0, tStart := s.pwr.now, tEnd := 0, vfails := 0, tag := c.pkt.tag + 256 * ingNum c.ing } ∧ t.jEntry s.chan.jNext = t.chan.san.ent ∧
      s.OnlyFields ((List.range 16).flatMap (fun n => [R.MC_SAN_PROGRESS_LINES_DONE n, R.MC_SAN_PROGRESS_VERIFY_FAILS n,
        R.MC_SAN_STATUS_OP n, R.MC_SAN_STATUS_PHASE n, R.MC_SAN_STATUS_FENCE n, R.MC_SAN_STATUS_JOURNAL_SEQ n,
        R.MC_SAN_BASE_VALUE n, R.MC_SAN_LENGTH_VALUE n])) t ∧
      s.Only [.free, .chan, .regs, .tvx] t) ∧
  (∀ (c : QCmd) (q : List QCmd) (s : State), s.Executes c q opSANITISE_RANGE 16 →
    (s.tvx.flashGranted = true ∨ s.hostUp = false) → Completes (.sanitiseRange) s fun t =>
      s.EndsAtOnce c q stBUSY stINVALID_STATE [] t ∧
      (t.ing c.ing).errLog = some (c.pkt.tag, c.pkt.opcode, stINVALID_STATE, 0) ∧ s.OnlyFields (reportFields) t ∧
      s.Only [.free, .regs, .tvx] t) ∧
  (∀ (c : QCmd) (q : List QCmd) (s : State), s.Executes c q opSANITISE_RANGE 16 →
    s.tvx.flashGranted = false ∧ s.hostUp = true → (c.arg 0 8 % 4096 ≠ 0 ∨ s.sanRange (c.arg 0 8) 1 = false) →
    Completes (.sanitiseRange) s fun t =>
      s.EndsAtOnce c q stBUSY stINVALID_ARG [] t ∧ (t.ing c.ing).errLog = some (c.pkt.tag, c.pkt.opcode, stINVALID_ARG, 0) ∧
      s.OnlyFields (reportFields) t ∧ s.Only [.free, .regs, .tvx] t) ∧
  (∀ (c : QCmd) (q : List QCmd) (s : State), s.Executes c q opSANITISE_RANGE 16 →
    s.tvx.flashGranted = false ∧ s.hostUp = true → c.arg 0 8 % 4096 = 0 ∧ s.sanRange (c.arg 0 8) 1 = true →
    (c.arg 8 8 = 0 ∨ c.arg 8 8 % 4096 ≠ 0 ∨ s.sanRange (c.arg 0 8) (c.arg 8 8) = false) →
    Completes (.sanitiseRange) s fun t =>
      s.EndsAtOnce c q stBUSY stINVALID_ARG [] t ∧ (t.ing c.ing).errLog = some (c.pkt.tag, c.pkt.opcode, stINVALID_ARG, 8) ∧
      s.OnlyFields (reportFields) t ∧ s.Only [.free, .regs, .tvx] t) ∧
  (∀ (c : QCmd) (q : List QCmd) (s : State), s.Executes c q opSANITISE_RANGE 16 → s.tvx.flashGranted = false →
    s.hostUp = true ∧ s.sanRange (c.arg 0 8) 1 = true ∧ s.sanRange (c.arg 0 8) (c.arg 8 8) = true →
    c.arg 0 8 % 4096 = 0 ∧ c.arg 8 8 % 4096 = 0 ∧ c.arg 8 8 ≠ 0 ∧ 1023 < c.arg 16 2 → Completes (.sanitiseRange) s fun t =>
      s.EndsAtOnce c q stBUSY stINVALID_ARG [] t ∧
      (t.ing c.ing).errLog = some (c.pkt.tag, c.pkt.opcode, stINVALID_ARG, 16) ∧ s.OnlyFields (reportFields) t ∧
      s.Only [.free, .regs, .tvx] t) ∧
  (∀ (c : QCmd) (q : List QCmd) (s : State), s.Executes c q opFORMAT_RANGE 16 → s.tvx.flashGranted = false →
    s.hostUp = true ∧ s.sanRange (c.arg 0 8) 1 = true ∧ s.sanRange (c.arg 0 8) (c.arg 8 8) = true →
    c.arg 0 8 % 4096 = 0 ∧ c.arg 8 8 % 4096 = 0 ∧ c.arg 8 8 ≠ 0 ∧ c.arg 16 2 ≤ 1023 → Completes (.formatRange) s fun t =>
      s.Starts c q t ∧
      t.chan = { s.chan with san := { op := 2, phase := sanPHASE_OVERWRITE, base := c.arg 0 8, len := c.arg 8 8, mcid := c.arg 16 2, fence := true, ent := none } } ∧
      (∀ n : Fin 16, t.get (R.MC_SAN_PROGRESS_LINES_DONE n) = 0 ∧ t.get (R.MC_SAN_PROGRESS_VERIFY_FAILS n) = 0 ∧ t.get
        (R.MC_SAN_STATUS_OP n) = 2 ∧ t.get (R.MC_SAN_STATUS_PHASE n) = sanPHASE_OVERWRITE ∧ t.get
        (R.MC_SAN_STATUS_FENCE n) = 1 ∧ t.get (R.MC_SAN_BASE_VALUE n) = c.arg 0 8 / 4096 % 2 ^ (R.MC_SAN_BASE_VALUE
        n).w ∧ t.get (R.MC_SAN_LENGTH_VALUE n) = c.arg 8 8 / 4096 % 2 ^ (R.MC_SAN_LENGTH_VALUE n).w) ∧
      s.OnlyFields ((List.range 16).flatMap (fun n => [R.MC_SAN_PROGRESS_LINES_DONE n, R.MC_SAN_PROGRESS_VERIFY_FAILS n,
        R.MC_SAN_STATUS_OP n, R.MC_SAN_STATUS_PHASE n, R.MC_SAN_STATUS_FENCE n, R.MC_SAN_STATUS_JOURNAL_SEQ n,
        R.MC_SAN_BASE_VALUE n, R.MC_SAN_LENGTH_VALUE n])) t ∧
      s.Only [.free, .chan, .regs, .tvx] t) ∧
  (∀ (c : QCmd) (q : List QCmd) (s : State), s.Executes c q opFORMAT_RANGE 16 →
    (s.tvx.flashGranted = true ∨ s.hostUp = false) → Completes (.formatRange) s fun t =>
      s.EndsAtOnce c q stBUSY stINVALID_STATE [] t ∧
      (t.ing c.ing).errLog = some (c.pkt.tag, c.pkt.opcode, stINVALID_STATE, 0) ∧ s.OnlyFields (reportFields) t ∧
      s.Only [.free, .regs, .tvx] t) ∧
  (∀ (c : QCmd) (q : List QCmd) (s : State), s.Executes c q opFORMAT_RANGE 16 → s.tvx.flashGranted = false ∧ s.hostUp = true →
    (c.arg 0 8 % 4096 ≠ 0 ∨ s.sanRange (c.arg 0 8) 1 = false) → Completes (.formatRange) s fun t =>
      s.EndsAtOnce c q stBUSY stINVALID_ARG [] t ∧ (t.ing c.ing).errLog = some (c.pkt.tag, c.pkt.opcode, stINVALID_ARG, 0) ∧
      s.OnlyFields (reportFields) t ∧ s.Only [.free, .regs, .tvx] t) ∧
  (∀ (c : QCmd) (q : List QCmd) (s : State), s.Executes c q opFORMAT_RANGE 16 → s.tvx.flashGranted = false ∧ s.hostUp = true →
    c.arg 0 8 % 4096 = 0 ∧ s.sanRange (c.arg 0 8) 1 = true →
    (c.arg 8 8 = 0 ∨ c.arg 8 8 % 4096 ≠ 0 ∨ s.sanRange (c.arg 0 8) (c.arg 8 8) = false) →
    Completes (.formatRange) s fun t =>
      s.EndsAtOnce c q stBUSY stINVALID_ARG [] t ∧ (t.ing c.ing).errLog = some (c.pkt.tag, c.pkt.opcode, stINVALID_ARG, 8) ∧
      s.OnlyFields (reportFields) t ∧ s.Only [.free, .regs, .tvx] t) ∧
  (∀ (c : QCmd) (q : List QCmd) (s : State), s.Executes c q opFORMAT_RANGE 16 → s.tvx.flashGranted = false →
    s.hostUp = true ∧ s.sanRange (c.arg 0 8) 1 = true ∧ s.sanRange (c.arg 0 8) (c.arg 8 8) = true →
    c.arg 0 8 % 4096 = 0 ∧ c.arg 8 8 % 4096 = 0 ∧ c.arg 8 8 ≠ 0 ∧ 1023 < c.arg 16 2 → Completes (.formatRange) s fun t =>
      s.EndsAtOnce c q stBUSY stINVALID_ARG [] t ∧
      (t.ing c.ing).errLog = some (c.pkt.tag, c.pkt.opcode, stINVALID_ARG, 16) ∧ s.OnlyFields (reportFields) t ∧
      s.Only [.free, .regs, .tvx] t) ∧
  (∀ (c : QCmd) (q : List QCmd) (s : State), s.Executes c q opSANITISE_DEVICE 0 ∧ s.tvx.flashGranted = false →
    s.pwr.stage = .run ∧ c.arg 0 2 ≤ 1023 → Memory.wf s.mem = true ∧ Tbl.wf regReset s.regs = true →
    Completes (.sanitiseDevice) s fun t =>
      t.pwr.stage = .warm ∧ t.chan.san.op = 3 ∧ t.chan.san.mcid = c.arg 0 2 ∧ t.chan.san.phase = sanPHASE_OVERWRITE ∧
      t.tvx.longOp.map (fun l => (l.cmd, l.start)) = some (c, s.pwr.now) ∧ t.net = [] ∧ t.tvx.queue = [] ∧
      t.home.dir = [] ∧ t.mesa.tags = [] ∧ t.chan.jNext = s.chan.jNext + 1 ∧
      (∀ n : Fin 16, s.chState n = chACTIVE → t.get (R.MC_FILL_STATUS_STATE n) = 1 ∧ t.get (R.MC_FILL_STATUS_FILLED_GIB n) =
        0) ∧
      s.Only [.regs, .mem, .marked, .net, .free, .core, .die, .home, .pass, .chan, .mesa, .meter, .qos, .hzn, .xce, .io,
        .ras, .tvx, .pwr, .ccol] t) ∧
  (∀ (c : QCmd) (q : List QCmd) (s : State), s.Executes c q opSANITISE_DEVICE 0 →
    (s.tvx.flashGranted = true ∨ s.pwr.stage ≠ .run) → Completes (.sanitiseDevice) s fun t =>
      s.EndsAtOnce c q stBUSY stINVALID_STATE [] t ∧
      (t.ing c.ing).errLog = some (c.pkt.tag, c.pkt.opcode, stINVALID_STATE, 0) ∧ s.OnlyFields (reportFields) t ∧
      s.Only [.free, .regs, .tvx] t) ∧
  (∀ (c : QCmd) (q : List QCmd) (s : State), s.Executes c q opSANITISE_DEVICE 0 →
    s.tvx.flashGranted = false ∧ s.pwr.stage = .run ∧ 1023 < c.arg 0 2 → Completes (.sanitiseDevice) s fun t =>
      s.EndsAtOnce c q stBUSY stINVALID_ARG [] t ∧ (t.ing c.ing).errLog = some (c.pkt.tag, c.pkt.opcode, stINVALID_ARG, 0) ∧
      s.OnlyFields (reportFields) t ∧ s.Only [.free, .regs, .tvx] t) ∧
  (∀ (c : QCmd) (q : List QCmd) (s : State), s.Executes c q opDIE_OFFLINE 1 →
    c.die < 12 ∧ s.dieOnline c.die = true ∧ 2 ≤ popCount 12 (s.get R.PKG_DIES_VALE_ONLINE) →
    Completes (.dieOffline) s fun t =>
      s.Starts c q t ∧ (t.dieCtl c.die).phase = 1 ∨ (t.dieCtl c.die).phase = 2 ∧
      (∀ i : Fin 32, t.coreState (32 * c.die + i.val) = (if s.coreState (32 * c.die + i.val) = coreONLINE then coreSTOPPING
        else s.coreState (32 * c.die + i.val)) ∧ (t.hart (32 * c.die + i.val)).wasUp = [coreONLINE, coreSTARTING,
        coreRESETTING].contains (s.coreState (32 * c.die + i.val))) ∧
      (∀ (h : Nat), h / 32 ≠ c.die → t.hart h = s.hart h ∧ t.coreState h = s.coreState h) ∧
      t.dieOnline c.die = true ∧ (∀ (d : Nat), d ≠ c.die → t.dieCtl d = s.dieCtl d ∧ t.dieOnline d = s.dieOnline d) ∧
      s.Only [.core, .die, .free, .regs, .tvx] t) ∧
  (∀ (c : QCmd) (q : List QCmd) (s : State), s.Executes c q opDIE_OFFLINE 1 → 12 ≤ c.die → Completes (.dieOffline) s fun t =>
      s.EndsAtOnce c q stBUSY stINVALID_ARG [] t ∧ (t.ing c.ing).errLog = some (c.pkt.tag, c.pkt.opcode, stINVALID_ARG, 0) ∧
      s.OnlyFields (reportFields) t ∧ s.Only [.free, .regs, .tvx] t) ∧
  (∀ (c : QCmd) (q : List QCmd) (s : State), s.Executes c q opDIE_OFFLINE 1 → c.die < 12 →
    (s.dieOnline c.die = false ∨ popCount 12 (s.get R.PKG_DIES_VALE_ONLINE) ≤ 1) → Completes (.dieOffline) s fun t =>
      s.EndsAtOnce c q stBUSY stINVALID_STATE [] t ∧
      (t.ing c.ing).errLog = some (c.pkt.tag, c.pkt.opcode, stINVALID_STATE, 0) ∧ s.OnlyFields (reportFields) t ∧
      s.Only [.free, .regs, .tvx] t) ∧
  (∀ (c : QCmd) (q : List QCmd) (s : State), s.Executes c q opDIE_ONLINE 1 →
    c.die < 12 ∧ s.dieOnline c.die = false ∧ (s.get R.PKG_DIES_VALE_RETIRED).testBit c.die = false →
    Completes (.dieOnline) s fun t =>
      s.Starts c q t ∧ (t.dieCtl c.die).phase = 3 ∧ t.dieOnline c.die = false ∧
      t.passState (2 * c.die + 0) = (if s.passState (2 * c.die + 0) = passRETIRED then passRETIRED else passDETECT) ∧
      t.passState (2 * c.die + 1) = (if s.passState (2 * c.die + 1) = passRETIRED then passRETIRED else passDETECT) ∧
      (∀ i : Fin 32, t.get (R.VALE_L2_STATUS_WAYS_DISABLED c.die i) = s.get (R.VALE_L2_STATUS_WAYS_RETIRED c.die i)) ∧
      (∀ i : Fin 16, t.get (R.VALE_VC_STATUS_WAYS_DISABLED c.die i) = s.get (R.VALE_VC_STATUS_WAYS_RETIRED c.die i) ∧ t.get
        (R.VALE_VC_STATUS_STATE c.die i) = 0) ∧
      (∀ (d : Nat), d ≠ c.die → t.dieCtl d = s.dieCtl d) ∧
      (t.die.vc.filter (fun e => e.1 / 2 ^ 20 == c.die)) = [] ∧ (t.core.l2.filter (fun e => e.1 / 32768 / 32 == c.die)) = []
        ∧
      t.core.l1d.all (fun e => e.1 / 1024 / 32 != c.die) = true ∧ t.die.sf.all (fun e => e.1 / (16 * 4096 * 24) != c.die) =
        true ∧
      s.Only [.core, .die, .free, .pass, .regs, .tvx] t) ∧
  (∀ (c : QCmd) (q : List QCmd) (s : State), s.Executes c q opDIE_ONLINE 1 → 12 ≤ c.die → Completes (.dieOnline) s fun t =>
      s.EndsAtOnce c q stBUSY stINVALID_ARG [] t ∧ (t.ing c.ing).errLog = some (c.pkt.tag, c.pkt.opcode, stINVALID_ARG, 0) ∧
      s.OnlyFields (reportFields) t ∧ s.Only [.free, .regs, .tvx] t) ∧
  (∀ (c : QCmd) (q : List QCmd) (s : State), s.Executes c q opDIE_ONLINE 1 → c.die < 12 →
    (s.dieOnline c.die = true ∨ (s.get R.PKG_DIES_VALE_RETIRED).testBit c.die = true) → Completes (.dieOnline) s fun t =>
      s.EndsAtOnce c q stBUSY stINVALID_STATE [] t ∧
      (t.ing c.ing).errLog = some (c.pkt.tag, c.pkt.opcode, stINVALID_STATE, 0) ∧ s.OnlyFields (reportFields) t ∧
      s.Only [.free, .regs, .tvx] t) ∧
  (∀ (l : LongOp) (st aux : Nat) (pay : List Nat) (s : State),
    s.tvx.longOp = some l ∧ l.final = some (st, aux, pay) ∧ l.mute = false ∧ statusFreezes st = false →
    s.tvx.running = true ∧ s.tvx.queue = [] ∧ s.tvx.flashGranted = false → Completes (.longOpComplete) s fun t =>
      t.tvx = { s.tvx with
        longOp := none, msl := t.tvx.msl, mbox := t.tvx.mbox, mslOut := t.tvx.mslOut, mboxQ := t.tvx.mboxQ, log :=
          t.tvx.log, nextSeq := s.tvx.nextSeq + 1, flashGranted := (s.tvx.flashReq && s.tvx.alive && !s.pwr.good) } ∧
      t.tvx.log.head?.map (fun e => (e.code, e.sev, e.detail)) = some (0x71, sevINFO, l.doneDetail st) ∧
      (t.sentOn l.cmd.ing).take ((s.sentOn l.cmd.ing).length + 1) = s.sentOn l.cmd.ing ++ [rspPkt l.cmd.pkt st aux pay] ∧
      t.ing l.cmd.ing = { s.ing l.cmd.ing with stored := Tbl.set (fun _ => none) (s.ing l.cmd.ing).stored l.cmd.pkt.tag (some (rspPkt l.cmd.pkt st aux pay)) } ∧
      [Ingress.msl, .mbox].all (fun g => g == l.cmd.ing || decide (t.ing g = s.ing g)) = true ∧
      s.OnlyFields (reportFields) t ∧ s.Only [.regs, .tvx] t) ∧
  (∀ (l : LongOp) (st aux : Nat) (pay : List Nat) (s : State),
    s.tvx.longOp = some l ∧ l.final = some (st, aux, pay) ∧ l.mute = false ∧ statusFreezes st = true →
    s.tvx.running = true ∧ s.tvx.queue = [] ∧ s.tvx.flashGranted = false → Completes (.longOpComplete) s fun t =>
      t.tvx = { s.tvx with
        longOp := none, msl := t.tvx.msl, mbox := t.tvx.mbox, mslOut := t.tvx.mslOut, mboxQ := t.tvx.mboxQ, log :=
          t.tvx.log, nextSeq := s.tvx.nextSeq + 1, flashGranted := (s.tvx.flashReq && s.tvx.alive && !s.pwr.good) } ∧
      t.tvx.log.head?.map (fun e => (e.code, e.sev, e.detail)) = some (0x71, sevINFO, l.doneDetail st) ∧
      (t.sentOn l.cmd.ing).take ((s.sentOn l.cmd.ing).length + 1) = s.sentOn l.cmd.ing ++ [rspPkt l.cmd.pkt st aux pay] ∧
      t.ing l.cmd.ing = { s.ing l.cmd.ing with stored := Tbl.set (fun _ => none) (s.ing l.cmd.ing).stored l.cmd.pkt.tag (some (rspPkt l.cmd.pkt st aux pay)), frozen := true, errRead := false, errTags := [], errLog := some (l.cmd.pkt.tag, l.cmd.pkt.opcode, st, aux) } ∧
      [Ingress.msl, .mbox].all (fun g => g == l.cmd.ing || decide (t.ing g = s.ing g)) = true ∧
      s.OnlyFields (reportFields) t ∧ s.Only [.regs, .tvx] t) ∧
  (∀ (l : LongOp) (st aux : Nat) (pay : List Nat) (s : State),
    s.tvx.longOp = some l ∧ l.final = some (st, aux, pay) ∧ l.mute = true →
    s.tvx.running = true ∧ s.tvx.queue = [] ∧ s.tvx.flashGranted = false → Completes (.longOpComplete) s fun t =>
      t.tvx = { s.tvx with
        longOp := none, msl := t.tvx.msl, mbox := t.tvx.mbox, mslOut := t.tvx.mslOut, mboxQ := t.tvx.mboxQ, log :=
          t.tvx.log, nextSeq := s.tvx.nextSeq + 1, flashGranted := (s.tvx.flashReq && s.tvx.alive && !s.pwr.good) } ∧
      t.tvx.log.head?.map (fun e => (e.code, e.sev, e.detail)) = some (0x71, sevINFO, l.doneDetail st) ∧
      t.tvx.msl = s.tvx.msl ∧ t.tvx.mbox = s.tvx.mbox ∧ s.OnlyFields (reportFields) t ∧ s.Only [.regs, .tvx] t) ∧
  (∀ (s : State), (s.tvx.longOp.all (fun l => l.final.isNone) = true ∨ (s.tvx.running = false ∧ s.tvx.recovery = false)) →
    Completes (.longOpComplete) s fun t =>
      s.Only [] t) ∧
  (∀ (s : State), Completes (.flashReqAssert) s fun t =>
      t.tvx = { s.tvx with
        flashReq := true, flashGranted := (s.tvx.flashGranted || (s.tvx.alive && !s.pwr.good && s.tvx.longOp.isNone))
          } ∧
      s.Only [.tvx] t) ∧
  (∀ (s : State), (s.tvx.stalled = [] ∨ s.tvx.running = false) → Completes (.flashReqDeassert) s fun t =>
      t.tvx = { s.tvx with flashReq := false, flashGranted := false } ∧
      t.pwr = { s.pwr with
        stage := (if s.pwr.good = true ∧ s.pwr.stage = .vaux ∧ s.tvx.recovery = false ∧ s.pwr.refclk = true then .good
          else s.pwr.stage) } ∧
      s.Only [.pwr, .tvx] t) ∧
  (∀ (s : State), s.tvx.running = true ∧ s.tvx.stalled.length ≤ logCapacity → Completes (.flashReqDeassert) s fun t =>
      t.tvx = { s.tvx with
        flashReq := false, flashGranted := false, stalled := [], log := t.tvx.log, nextSeq := s.tvx.nextSeq +
          s.tvx.stalled.length, mslOut := t.tvx.mslOut, mboxQ := t.tvx.mboxQ } ∧
      t.tvx.log = ((s.tvx.stalled.zipIdx.map (fun (e : LogEnt × Nat) => { e.1 with seq := s.tvx.nextSeq + e.2 })).reverse ++
        s.tvx.log).take logCapacity ∧
      t.pwr = { s.pwr with
        stage := (if s.pwr.good = true ∧ s.pwr.stage = .vaux ∧ s.tvx.recovery = false ∧ s.pwr.refclk = true then .good
          else s.pwr.stage) } ∧
      s.OnlyFields (reportFields) t ∧ s.Only [.pwr, .regs, .tvx] t)

/-- Each evaluation measures the power and adds the energy (spec/17 R387), lowers the package ceiling above PPT or above
the target, raises it by one step below 97% of PPT where a core asks for more, moves each die's ceiling by its own
sensors, and gives every core the lower of the two (R383, R384); while PWR_UC does not run it only measures (R387);
the current limit is a bit of PWR_STATUS (R386); an emergency takes the ceiling to step 0, and its cores take a
resumable NMI (R388, log entry 39); an evaluation also gives every Mesa slice its level, and an emergency of a Mesa
die gives its slices level 3 (R389, log entry 58); a thermal trip, or the loss of the reference, stops the host clocks
(R388, R391). Either changes nothing where host power is off. -/
def Obligations.PowerAndTemperature : Prop :=
  (∀ (mW : Nat) (temp : List Int) (dm : List Nat) (s : State), s.get R.PWR_STATUS_UC_RUNNING = 1 →
    Completes (.powerEvaluation mW temp dm) s fun t =>
      t.get R.PWR_STATUS_POWER = min (mW / 100) 16383 ∧
      t.get R.PWR_ENERGY_ENERGY_UJ = (s.get R.PWR_ENERGY_ENERGY_UJ + (s.pwr.nj + mW * 50) / 1000) % 2 ^ 64 ∧ t.pwr.nj =
        (s.pwr.nj + mW * 50) % 1000 ∧
      t.get R.PWR_STATUS_PKG_CEILING = (if (mW > s.get R.PWR_LIMIT_PPT_W * 1000 ∨ (temp.getD 12 0 > (s.get
        R.PWR_CTL_TEMP_TARGET * 16 : Int))) then s.get R.PWR_STATUS_PKG_CEILING - downSteps mW (s.get
        R.PWR_LIMIT_PPT_W) else if (mW * 100 < 97 * s.get R.PWR_LIMIT_PPT_W * 1000 ∧ s.someLimited = true ∧ s.stillHot
        temp / 2 ^ 12 = 0) then min (s.get R.PWR_STATUS_PKG_CEILING + 1) topStep else s.get R.PWR_STATUS_PKG_CEILING)
        ∧
      t.pwr = { s.pwr with nj := t.pwr.nj, hot := s.stillHot temp, ceil := t.pwr.ceil, central := t.pwr.central } ∧
      (∀ d : Fin 12, t.dieCeil d = (if temp.getD d.val 0 > (s.get R.PWR_CTL_TEMP_TARGET * 16 : Int) then s.dieCeil d - 2
        else if temp.getD d.val 0 < (s.get R.PWR_CTL_TEMP_TARGET * 16 : Int) - 48 ∧ (s.stillHot temp).testBit d =
        false then min (s.dieCeil d + 1) topStep else s.dieCeil d)) ∧
      (∀ h : Fin 384, s.dieOnline (h / 32) = true → t.get (R.CORE_FREQ_CUR_CEILING h) = min (t.get R.PWR_STATUS_PKG_CEILING)
        (t.dieCeil (h / 32))) ∧
      (∀ h : Fin 384, s.dieOnline (h / 32) = true → t.Heads h) ∧
      (∀ n : Ix16, t.get (R.MESA_STATUS_THROTTLE n) = s.levelThen n temp ∧ Tbl.get (fun _ => 0) t.pwr.central n = s.asked n
        (temp.getD (13 + n.val / 4) 0)) ∧
      s.Only [.regs, .core, .home, .pass, .mesa, .pwr] t) ∧
  (∀ (mW : Nat) (temp : List Int) (dm : List Nat) (s : State), s.get R.PWR_STATUS_UC_RUNNING = 0 →
    Completes (.powerEvaluation mW temp dm) s fun t =>
      t.get R.PWR_STATUS_POWER = min (mW / 100) 16383 ∧
      t.get R.PWR_ENERGY_ENERGY_UJ = (s.get R.PWR_ENERGY_ENERGY_UJ + (s.pwr.nj + mW * 50) / 1000) % 2 ^ 64 ∧ t.pwr.nj =
        (s.pwr.nj + mW * 50) % 1000 ∧
      t.pwr = { s.pwr with nj := t.pwr.nj } ∧ s.OnlyFields ([R.PWR_STATUS_POWER, R.PWR_ENERGY_ENERGY_UJ] ++ eventFields) t ∧
      s.Only [.pass, .pwr, .regs] t) ∧
  (∀ (s : State), Completes (.currentLimitTrip) s fun t =>
      t.get R.PWR_STATUS_CURRENT_LIMIT = 1 ∧ s.OnlyFields [R.PWR_STATUS_CURRENT_LIMIT] t ∧ s.Only [.regs] t) ∧
  (∀ (s : State), Completes (.currentLimitRelease) s fun t =>
      t.get R.PWR_STATUS_CURRENT_LIMIT = 0 ∧ s.OnlyFields [R.PWR_STATUS_CURRENT_LIMIT] t ∧ s.Only [.regs] t) ∧
  (∀ (d : Fin 17) (s : State), Completes (.thermalEmergency d) s fun t =>
      t.get R.PWR_TEMP_EMERGENCY = 1 ∧ t.pwr = { s.pwr with hot := s.pwr.hot ||| 1 <<< d.val, ceil := t.pwr.ceil } ∧
      (if d.val < 12 then t.dieCeil d = 0 else t.get R.PWR_STATUS_PKG_CEILING = 0) ∧
      (∀ e : Fin 12, e.val ≠ d.val → t.dieCeil e = s.dieCeil e) ∧
      (∀ h : Fin 384, s.dieOnline (h / 32) = true → t.get (R.CORE_FREQ_CUR_CEILING h) = min (t.get R.PWR_STATUS_PKG_CEILING)
        (t.dieCeil (h / 32))) ∧
      (∀ h : Fin 384, s.dieOnline (h / 32) = true ∧ hotCores d h = true → ((t.hart h).target).getD (t.get
        (R.CORE_FREQ_CUR_STEP h)) = 0) ∧
      (∀ i : Fin 4, 13 ≤ d.val → t.get (R.MESA_STATUS_THROTTLE (4 * (d.val - 13) + i)) = 3) ∧
      (∀ h : Fin 384, hotCores d h = true ∧ s.coreUp h = true ∧ s.get (R.mnstatus_NMIE h) = 1 → t.get (R.mnstatus_NMIE h) =
        0 ∧ t.reg (R.rmncause h) = BitVec.ofNat 64 (2 ^ 63 + 1)) ∧
      s.Recorded bankTvx ⟨true, errUEC, false, 0, 0, d, s.pwr.now⟩ t ∧
      s.Only [.regs, .free, .core, .home, .pass, .mesa, .ras, .tvx, .pwr] t) ∧
  (∀ (s : State), s.pwr.good = true → Completes (.thermalTrip) s fun t =>
      t.pwr = { s.pwr with therm := true, hostReq := false, stage := (if s.pwr.stage = .off then .off else .held) } ∧
      t.hostUp = false ∧ s.Only [.pwr] t) ∧
  (∀ (s : State), s.pwr.good = false → Completes (.thermalTrip) s fun t =>
      s.Only [] t) ∧
  (∀ (s : State), s.pwr.stage ≠ .off → Completes (.refclkLoss) s fun t =>
      t.pwr = { s.pwr with refclk := false, stage := (if s.pwr.good = true then .held else s.pwr.stage) } ∧
      s.Recorded bankTvx ⟨true, errUEC, false, 0, 0, 0, s.pwr.now⟩ t ∧ s.OnlyFields (reportFields) t ∧
      s.Only [.free, .core, .pass, .ras, .regs, .tvx, .pwr] t) ∧
  (∀ (s : State), s.pwr.stage = .off → Completes (.refclkLoss) s fun t =>
      s.Only [] t)

/-- A PPS edge in its window gives the offset to the nearest second, or to TIME_NEXT_PPS where that is valid, and ten
samples within 100 ns in a row lock the servo (spec/17 R393, R394, log entry 39); an edge outside the window is
counted and changes nothing else; a source that stops ends in HOLDOVER where the servo has been locked, and in FREE
where it has not (R394); SOURCE 0 frees the servo; a forward step moves GTIME on, and the metering set in progress
says so (R394, spec/09 R233). GTIME never steps back: it is slowed by 200 ppm where it is further ahead than the step
limit, and else the loop's rate within 200 ppm is open (log entry 39). Without PPS as a source, an edge is only an
instant of GTIME. -/
def Obligations.GtimeServo : Prop :=
  (∀ (n : Nat) (x : Int) (s : State), (s.get R.TIME_CTL_SOURCE = 1 ∨ s.get R.TIME_CTL_SOURCE = 3) →
    x = ((((if s.get R.TIME_NEXT_PPS_VALID = 1 then s.get R.TIME_NEXT_PPS_VALUE else (n + 500000000) / 1000000000 * 1000000000) : Nat) : Int) - (n : Int)) * 256 →
    (s.pwr.lastPps.all (fun p => decide (p + 999000000 ≤ n) && decide (n ≤ p + 1001000000))) = true →
    (s.get R.TIME_CTL_STEP_ENABLE = 0 ∨ x ≤ (s.get R.TIME_CTL_STEP_LIMIT_US * 256000 : Nat)) →
    -((s.get R.TIME_CTL_STEP_LIMIT_US * 256000 : Nat) : Int) ≤ x → Completes (.ppsEdge n) s fun t =>
      t.get R.TIME_OFFSET_OFFSET = satSigned 32 x ∧
      t.timeState = (if s.timeState = tACQUIRE ∧ -25600 ≤ x ∧ x ≤ 25600 ∧ 9 ≤ s.pwr.samples then tLOCKED else if s.timeState
        = tLOCKED then tLOCKED else tACQUIRE) ∧
      t.get R.TIME_NEXT_PPS_VALUE = (s.get R.TIME_NEXT_PPS_VALUE + 1000000000) % 2 ^ (R.TIME_NEXT_PPS_VALUE).w ∧
      t.get R.TIME_STATUS_SOURCE_IN_USE = 0 ∧ t.get R.TIME_STATUS_PPS_REJECTS = s.get R.TIME_STATUS_PPS_REJECTS ∧
      t.get R.TIME_STATUS_AHEAD = 0 ∧ t.pwr.lastPps = some n ∧
      -200000 ≤ signed 32 (t.get R.TIME_OFFSET_RATE_PPB) ∧ signed 32 (t.get R.TIME_OFFSET_RATE_PPB) ≤ 200000 ∧
      s.Only [.regs, .free, .core, .pass, .meter, .qos, .hzn, .ras, .pwr] t) ∧
  (∀ (n : Nat) (x : Int) (s : State), (s.get R.TIME_CTL_SOURCE = 1 ∨ s.get R.TIME_CTL_SOURCE = 3) →
    x = ((((if s.get R.TIME_NEXT_PPS_VALID = 1 then s.get R.TIME_NEXT_PPS_VALUE else (n + 500000000) / 1000000000 * 1000000000) : Nat) : Int) - (n : Int)) * 256 →
    (s.pwr.lastPps.all (fun p => decide (p + 999000000 ≤ n) && decide (n ≤ p + 1001000000))) = true →
    (s.get R.TIME_CTL_STEP_ENABLE = 0 ∨ x ≤ (s.get R.TIME_CTL_STEP_LIMIT_US * 256000 : Nat)) →
    -((s.get R.TIME_CTL_STEP_LIMIT_US * 256000 : Nat) : Int) ≤ x → n = s.pwr.now → Completes (.ppsEdge n) s fun t =>
      t.get R.TIME_OFFSET_OFFSET = satSigned 32 x ∧
      t.timeState = (if s.timeState = tACQUIRE ∧ -25600 ≤ x ∧ x ≤ 25600 ∧ 9 ≤ s.pwr.samples then tLOCKED else if s.timeState
        = tLOCKED then tLOCKED else tACQUIRE) ∧
      t.get R.TIME_NEXT_PPS_VALUE = (s.get R.TIME_NEXT_PPS_VALUE + 1000000000) % 2 ^ (R.TIME_NEXT_PPS_VALUE).w ∧
      t.get R.TIME_STATUS_SOURCE_IN_USE = 0 ∧ t.get R.TIME_STATUS_PPS_REJECTS = s.get R.TIME_STATUS_PPS_REJECTS ∧
      t.get R.TIME_STATUS_AHEAD = 0 ∧
      -200000 ≤ signed 32 (t.get R.TIME_OFFSET_RATE_PPB) ∧ signed 32 (t.get R.TIME_OFFSET_RATE_PPB) ≤ 200000 ∧
      t.pwr = { s.pwr with
        lastPps := some n, samples := min (if -25600 ≤ x ∧ x ≤ 25600 then (if s.timeState = tACQUIRE ∨ s.timeState =
          tLOCKED then s.pwr.samples + 1 else 1) else 0) 10, locked := s.pwr.locked || t.timeState == tLOCKED,
          lastGood := n } ∧
      s.OnlyFields [R.TIME_OFFSET_OFFSET, R.TIME_OFFSET_RATE_PPB, R.TIME_STATUS_STATE, R.TIME_STATUS_SOURCE_IN_USE,
        R.TIME_STATUS_AHEAD, R.TIME_NEXT_PPS_VALUE] t ∧
      s.Only [.free, .pwr, .regs] t) ∧
  (∀ (n : Nat) (x : Int) (s : State), (s.get R.TIME_CTL_SOURCE = 1 ∨ s.get R.TIME_CTL_SOURCE = 3) →
    x = ((((if s.get R.TIME_NEXT_PPS_VALID = 1 then s.get R.TIME_NEXT_PPS_VALUE else (n + 500000000) / 1000000000 * 1000000000) : Nat) : Int) - (n : Int)) * 256 →
    (s.pwr.lastPps.all (fun p => decide (p + 999000000 ≤ n) && decide (n ≤ p + 1001000000))) = true →
    (x < -((s.get R.TIME_CTL_STEP_LIMIT_US * 256000 : Nat) : Int)) → n = s.pwr.now → Completes (.ppsEdge n) s fun t =>
      t.get R.TIME_OFFSET_OFFSET = satSigned 32 x ∧
      t.timeState = (if s.timeState = tACQUIRE ∧ -25600 ≤ x ∧ x ≤ 25600 ∧ 9 ≤ s.pwr.samples then tLOCKED else if s.timeState
        = tLOCKED then tLOCKED else tACQUIRE) ∧
      t.get R.TIME_NEXT_PPS_VALUE = (s.get R.TIME_NEXT_PPS_VALUE + 1000000000) % 2 ^ (R.TIME_NEXT_PPS_VALUE).w ∧
      t.get R.TIME_STATUS_SOURCE_IN_USE = 0 ∧ t.get R.TIME_STATUS_PPS_REJECTS = s.get R.TIME_STATUS_PPS_REJECTS ∧
      t.get R.TIME_STATUS_AHEAD = 1 ∧ t.get R.TIME_OFFSET_RATE_PPB = unsigned 32 (-200000) ∧
      t.pwr = { s.pwr with
        lastPps := some n, samples := min (if -25600 ≤ x ∧ x ≤ 25600 then (if s.timeState = tACQUIRE ∨ s.timeState =
          tLOCKED then s.pwr.samples + 1 else 1) else 0) 10, locked := s.pwr.locked || t.timeState == tLOCKED,
          lastGood := n } ∧
      s.OnlyFields [R.TIME_OFFSET_OFFSET, R.TIME_OFFSET_RATE_PPB, R.TIME_STATUS_STATE, R.TIME_STATUS_SOURCE_IN_USE,
        R.TIME_STATUS_AHEAD, R.TIME_NEXT_PPS_VALUE] t ∧
      s.Only [.pwr, .regs] t) ∧
  (∀ (n : Nat) (x : Int) (s : State), (s.get R.TIME_CTL_SOURCE = 1 ∨ s.get R.TIME_CTL_SOURCE = 3) →
    x = ((((if s.get R.TIME_NEXT_PPS_VALID = 1 then s.get R.TIME_NEXT_PPS_VALUE else (n + 500000000) / 1000000000 * 1000000000) : Nat) : Int) - (n : Int)) * 256 →
    (s.pwr.lastPps.all (fun p => decide (p + 999000000 ≤ n) && decide (n ≤ p + 1001000000))) = true →
    s.get R.TIME_CTL_STEP_ENABLE = 1 ∧ (s.get R.TIME_CTL_STEP_LIMIT_US * 256000 : Nat) < x →
    Completes (.ppsEdge n) s fun t =>
      t.get R.TIME_OFFSET_OFFSET = satSigned 32 x ∧
      t.timeState = (if s.timeState = tACQUIRE ∧ -25600 ≤ x ∧ x ≤ 25600 ∧ 9 ≤ s.pwr.samples then tLOCKED else if s.timeState
        = tLOCKED then tLOCKED else tACQUIRE) ∧
      t.get R.TIME_NEXT_PPS_VALUE = (s.get R.TIME_NEXT_PPS_VALUE + 1000000000) % 2 ^ (R.TIME_NEXT_PPS_VALUE).w ∧
      t.get R.TIME_STATUS_SOURCE_IN_USE = 0 ∧ t.get R.TIME_STATUS_PPS_REJECTS = s.get R.TIME_STATUS_PPS_REJECTS ∧
      t.get R.TIME_STATUS_STEPPED = 1 ∧ t.get R.TIME_STATUS_AHEAD = 0 ∧ t.pwr.lastPps = some (n + x.toNat / 256) ∧
      t.meter.mflags = s.meter.mflags ||| flagTIME_STEP ∧
      s.Only [.regs, .free, .core, .pass, .meter, .qos, .hzn, .ras, .pwr] t) ∧
  (∀ (n : Nat) (x : Int) (s : State), (s.get R.TIME_CTL_SOURCE = 1 ∨ s.get R.TIME_CTL_SOURCE = 3) →
    x = ((((if s.get R.TIME_NEXT_PPS_VALID = 1 then s.get R.TIME_NEXT_PPS_VALUE else (n + 500000000) / 1000000000 * 1000000000) : Nat) : Int) - (n : Int)) * 256 →
    (s.pwr.lastPps.all (fun p => decide (p + 999000000 ≤ n) && decide (n ≤ p + 1001000000))) = true →
    s.get R.TIME_CTL_STEP_ENABLE = 1 ∧ (s.get R.TIME_CTL_STEP_LIMIT_US * 256000 : Nat) < x → n = s.pwr.now →
    Completes (.ppsEdge n) s fun t =>
      t.get R.TIME_OFFSET_OFFSET = satSigned 32 x ∧
      t.timeState = (if s.timeState = tACQUIRE ∧ -25600 ≤ x ∧ x ≤ 25600 ∧ 9 ≤ s.pwr.samples then tLOCKED else if s.timeState
        = tLOCKED then tLOCKED else tACQUIRE) ∧
      t.get R.TIME_NEXT_PPS_VALUE = (s.get R.TIME_NEXT_PPS_VALUE + 1000000000) % 2 ^ (R.TIME_NEXT_PPS_VALUE).w ∧
      t.get R.TIME_STATUS_SOURCE_IN_USE = 0 ∧ t.get R.TIME_STATUS_PPS_REJECTS = s.get R.TIME_STATUS_PPS_REJECTS ∧
      t.get R.TIME_STATUS_STEPPED = 1 ∧ t.get R.TIME_STATUS_AHEAD = 0 ∧
      t.pwr = { s.pwr with
        lastPps := some (n + x.toNat / 256), samples := min (if -25600 ≤ x ∧ x ≤ 25600 then (if s.timeState = tACQUIRE
          ∨ s.timeState = tLOCKED then s.pwr.samples + 1 else 1) else 0) 10, locked := s.pwr.locked || t.timeState ==
          tLOCKED, lastGood := n, now := (s.pwr.now * 2 ^ 32 + s.pwr.frac + x.toNat * 2 ^ 24) / 2 ^ 32, frac :=
          (s.pwr.now * 2 ^ 32 + s.pwr.frac + x.toNat * 2 ^ 24) % 2 ^ 32 } ∧
      t.meter = { s.meter with mflags := s.meter.mflags ||| flagTIME_STEP } ∧
      s.OnlyFields [R.TIME_OFFSET_OFFSET, R.TIME_OFFSET_RATE_PPB, R.TIME_STATUS_STATE, R.TIME_STATUS_SOURCE_IN_USE,
        R.TIME_STATUS_AHEAD, R.TIME_NEXT_PPS_VALUE, R.TIME_STATUS_STEPPED] t ∧
      s.Only [.meter, .pwr, .regs] t) ∧
  (∀ (n p : Nat) (s : State), (s.get R.TIME_CTL_SOURCE = 1 ∨ s.get R.TIME_CTL_SOURCE = 3) →
    (s.pwr.lastPps = some p ∧ (n < p + 999000000 ∨ p + 1001000000 < n)) → Completes (.ppsEdge n) s fun t =>
      t.get R.TIME_STATUS_PPS_REJECTS = satAdd (R.TIME_STATUS_PPS_REJECTS).w (s.get R.TIME_STATUS_PPS_REJECTS) 1 ∧
      t.pwr.lastPps = some p ∧ t.timeState = s.timeState ∧
      s.Only [.regs, .free, .core, .pass, .meter, .qos, .hzn, .ras, .pwr] t) ∧
  (∀ (n p : Nat) (s : State), (s.get R.TIME_CTL_SOURCE = 1 ∨ s.get R.TIME_CTL_SOURCE = 3) →
    (s.pwr.lastPps = some p ∧ (n < p + 999000000 ∨ p + 1001000000 < n)) → n ≤ s.pwr.now → Completes (.ppsEdge n) s fun t =>
      t.get R.TIME_STATUS_PPS_REJECTS = satAdd (R.TIME_STATUS_PPS_REJECTS).w (s.get R.TIME_STATUS_PPS_REJECTS) 1 ∧
      s.OnlyFields [R.TIME_STATUS_PPS_REJECTS] t ∧ s.Only [.regs] t) ∧
  (∀ (n : Nat) (s : State), (s.get R.TIME_CTL_SOURCE = 0 ∨ s.get R.TIME_CTL_SOURCE = 2) → Completes (.ppsEdge n) s fun t =>
      t = s.elapseTo n ∧ s.Only [.regs, .free, .core, .pass, .meter, .qos, .hzn, .ras, .pwr] t) ∧
  (∀ (s : State), (s.timeState = tACQUIRE ∨ s.timeState = tLOCKED) → s.pwr.locked = true →
    Completes (.timeSourceTimeout) s fun t =>
      t.timeState = tHOLDOVER ∧ t.get R.TIME_STATUS_HOLDOVER_SEEN = 1 ∧
      t.meter = { s.meter with mflags := s.meter.mflags ||| flagHOLDOVER } ∧ t.pwr =
        { s.pwr with samples := 0, lastPps := none } ∧
      s.OnlyFields [R.TIME_STATUS_STATE, R.TIME_STATUS_HOLDOVER_SEEN] t ∧ s.Only [.regs, .meter, .pwr] t) ∧
  (∀ (s : State), (s.timeState = tACQUIRE ∨ s.timeState = tLOCKED) → s.pwr.locked = false →
    Completes (.timeSourceTimeout) s fun t =>
      t.timeState = tFREE ∧ t.pwr = { s.pwr with samples := 0, lastPps := none } ∧ s.OnlyFields [R.TIME_STATUS_STATE] t ∧
      s.Only [.regs, .pwr] t) ∧
  (∀ (s : State), s.timeState ≠ tACQUIRE ∧ s.timeState ≠ tLOCKED → Completes (.timeSourceTimeout) s fun t =>
      s.Only [] t) ∧
  (∀ (n : Nat) (s : State), n % 4 = 0 → Completes (.timeSourceWrite n) s fun t =>
      t.get R.TIME_CTL_SOURCE = 0 ∧ t.timeState = tFREE ∧ t.pwr = { s.pwr with samples := 0, lastPps := none } ∧
      s.OnlyFields [R.TIME_CTL_SOURCE, R.TIME_STATUS_STATE] t ∧ s.Only [.regs, .pwr] t) ∧
  (∀ (n : Nat) (s : State), n % 4 ≠ 0 → Completes (.timeSourceWrite n) s fun t =>
      t.get R.TIME_CTL_SOURCE = n % 4 ∧ s.OnlyFields [R.TIME_CTL_SOURCE] t ∧ s.Only [.regs] t) ∧
  (∀ (n : Nat) (s : State), Completes (.timeStepFwd n) s fun t =>
      t.pwr = { s.pwr with
        now := s.pwr.now + s.pwr.frac / 2 ^ 32 + n % 2 ^ 32, frac := s.pwr.frac % 2 ^ 32, lastPps := s.pwr.lastPps.map
          (fun p => p + n % 2 ^ 32) } ∧
      t.get R.TIME_STATUS_STEPPED = 1 ∧ t.meter = { s.meter with mflags := s.meter.mflags ||| flagTIME_STEP } ∧
      s.OnlyFields [R.TIME_STATUS_STEPPED] t ∧ s.Only [.regs, .meter, .pwr] t)

/-- VAUX_UP and VAUX_DOWN leave every host register at its reset value and keep what is in flash (spec/17 R396, R397,
R401); host power is asked for while no die is hot, at most three times, and a request that is not answered stops the
start with an urgent event (spec/19 R421, R422, R434); a rise of PWRGOOD begins the start-up, as a POR of the host
side where PWRGOOD had fallen (R397); a fall ends host operation and the operations on it; the arrays are filled,
settings and records loaded and the Pass ports trained (R397); an image that keeps its table is copied and its entry
becomes every hart's reset pc, and any other stops the start (R399, R400); PKG_WARM clears what its step list clears
and keeps dies, map and journal (R402). Each changes nothing where its state does not hold. HOST_PWR_REQ, THERMTRIP_N
and the PERST outputs stand at the levels that these leave, and the reference clock output of a root port that its
group does not create is low on both legs (spec/19 R416). -/
def Obligations.SupplyAndStart : Prop :=
  (∀ (s : State), s.tvx.alive = false → Completes (.vauxUp) s fun t =>
      t.Cleared ∧ s.PorLeaves true t ∧ t.pwr = { stage := .vaux } ∧
      s.Only [.regs, .mem, .marked, .net, .core, .die, .home, .pass, .chan, .mesa, .meter, .qos, .hzn, .xce, .io, .ras,
        .tvx, .pwr, .ccol] t) ∧
  (∀ (s : State), s.tvx.alive = true → Completes (.vauxUp) s fun t =>
      s.Only [] t) ∧
  (∀ (s : State), s.tvx.alive = true → Completes (.vauxDown) s fun t =>
      t.Cleared ∧ s.PorLeaves false t ∧ t.pwr = {} ∧
      s.Only [.regs, .mem, .marked, .net, .core, .die, .home, .pass, .chan, .mesa, .meter, .qos, .hzn, .xce, .io, .ras,
        .tvx, .pwr, .ccol] t) ∧
  (∀ (s : State), s.tvx.alive = false → Completes (.vauxDown) s fun t =>
      s.Only [] t) ∧
  (∀ (s : State),
    s.tvx.running = true ∧ s.tvx.recovery = false ∧ s.pwr.good = false ∧ s.pwr.hostReq = false ∧ s.cool = true ∧ s.pwr.tries = 0 →
    Completes (.hostPwrRequest) s fun t =>
      t.pwr = { s.pwr with hostReq := true, tries := 1 } ∧ s.Only [.pwr] t) ∧
  (∀ (s : State),
    (s.pwr.tries ≠ 0 ∨ s.tvx.running = false ∨ s.tvx.recovery = true ∨ s.pwr.good = true ∨ s.pwr.hostReq = true ∨ s.cool = false) →
    Completes (.hostPwrRequest) s fun t =>
      s.Only [] t) ∧
  (∀ (s : State),
    s.tvx.running = true ∧ s.tvx.recovery = false ∧ s.pwr.good = false ∧ s.pwr.hostReq = false ∧ s.cool = true ∧ 1 ≤ s.pwr.tries ∧ s.pwr.tries < 3 →
    Completes (.hostPwrRetry) s fun t =>
      t.pwr = { s.pwr with hostReq := true, tries := s.pwr.tries + 1 } ∧ s.Only [.pwr] t) ∧
  (∀ (s : State),
    (s.pwr.tries = 0 ∨ 3 ≤ s.pwr.tries ∨ s.tvx.running = false ∨ s.tvx.recovery = true ∨ s.pwr.good = true ∨ s.pwr.hostReq = true ∨ s.cool = false) →
    Completes (.hostPwrRetry) s fun t =>
      s.Only [] t) ∧
  (∀ (s : State), s.pwr.hostReq = true ∧ s.pwr.good = false → s.tvx.running = true ∧ s.tvx.flashGranted = false →
    Completes (.pwrgoodTimeout) s fun t =>
      t.pwr = { s.pwr with hostReq := false } ∧
      t.tvx.log.head?.map (fun e => (e.code, e.sev, e.detail)) = some (0x72, sevURGENT, 3) ∧ s.OnlyFields (reportFields) t ∧
      s.Only [.regs, .tvx, .pwr] t) ∧
  (∀ (s : State), s.pwr.hostReq = true ∧ s.pwr.good = false → s.tvx.running = false → Completes (.pwrgoodTimeout) s fun t =>
      t.pwr = { s.pwr with hostReq := false } ∧
      (s.tvx.flashGranted = false → t.tvx =
        { s.tvx with stalled := s.tvx.stalled ++ [⟨0, s.pwr.now, 0x72, sevURGENT, noDie, 0, 3⟩] }) ∧
      s.Only [.tvx, .pwr] t) ∧
  (∀ (s : State), (s.pwr.hostReq = false ∨ s.pwr.good = true) → Completes (.pwrgoodTimeout) s fun t =>
      s.Only [] t) ∧
  (∀ (s : State), s.tvx.alive = true ∧ s.pwr.good = false ∧ s.pwr.fell = false → Completes (.pwrgoodRise) s fun t =>
      t.pwr = { s.pwr with
        good := true, goodAt := s.pwr.now, tries := 0, stage := (if s.tvx.recovery = true ∨ s.tvx.flashGranted = true
          ∨ s.pwr.refclk = false then s.pwr.stage else .good) } ∧
      s.Only [.pwr] t) ∧
  (∀ (s : State), s.tvx.alive = true ∧ s.pwr.good = false ∧ s.pwr.fell = true → s.setSlot.rot = [] ∧ s.tvx.recs.rot = [] →
    Completes (.pwrgoodRise) s fun t =>
      s.HostPorLeaves t ∧ s.Ranged t ∧
      t.pwr = { hostReq := s.pwr.hostReq, good := true, stage := (if s.tvx.recovery = true ∨ s.tvx.flashGranted = true then .vaux else .good) } ∧
      s.Only [.regs, .mem, .marked, .net, .free, .core, .die, .home, .pass, .chan, .mesa, .meter, .qos, .hzn, .xce, .io,
        .ras, .tvx, .pwr, .ccol] t) ∧
  (∀ (s : State), (s.tvx.alive = false ∨ s.pwr.good = true) → Completes (.pwrgoodRise) s fun t =>
      s.Only [] t) ∧
  (∀ (s : State), s.pwr.good = true →
    s.tvx.longOp.all (fun l => !hostOps.contains l.cmd.pkt.opcode || l.final.isSome) = true →
    Completes (.pwrgoodFall) s fun t =>
      t.pwr = { s.pwr with good := false, fell := true, stage := .vaux } ∧
      t.chan = { s.chan with san := {} } ∧ t.hostUp = false ∧
      t.tvx = { s.tvx with flashGranted := (s.tvx.flashGranted || (s.tvx.flashReq && s.tvx.alive && s.tvx.longOp.isNone)) }
        ∧
      s.Only [.chan, .pwr, .tvx] t) ∧
  (∀ (l : LongOp) (s : State), s.pwr.good = true → s.tvx.longOp = some l ∧ l.final = none ∧ l.mute = false →
    hostOps.contains l.cmd.pkt.opcode = true ∧ s.tvx.queue = [] → Completes (.pwrgoodFall) s fun t =>
      t.pwr = { s.pwr with good := false, fell := true, stage := .vaux } ∧ t.chan = { s.chan with
        san := {} } ∧ t.tvx.longOp = none ∧
      t.ing l.cmd.ing = { s.ing l.cmd.ing with stored := t.ing l.cmd.ing |>.stored, frozen := true, errRead := false, errTags := [], errLog := some (l.cmd.pkt.tag, l.cmd.pkt.opcode, stDEVICE_ERROR, 0) } ∧
      Tbl.get (fun _ => none) (t.ing l.cmd.ing).stored l.cmd.pkt.tag = some (rspPkt l.cmd.pkt stDEVICE_ERROR 0 []) ∧
      (s.tvx.running = true ∧ s.tvx.flashGranted = false → t.tvx.log.head?.map (fun e => (e.code, e.sev, e.detail)) = some
        (0x71, sevINFO, l.doneDetail stDEVICE_ERROR)) ∧
      s.OnlyFields (reportFields) t ∧ s.Only [.regs, .chan, .pwr, .tvx] t) ∧
  (∀ (s : State), s.pwr.good = false → Completes (.pwrgoodFall) s fun t =>
      s.Only [] t) ∧
  (∀ (s : State), s.pwr.good = true ∧ s.pwr.stage ≠ .off → Completes (.hostRailFault) s fun t =>
      t.pwr = { s.pwr with hostReq := false, stage := .held } ∧
      s.Recorded bankTvx ⟨true, errUEC, false, 0, 0, 0, s.pwr.now⟩ t ∧ s.OnlyFields (reportFields) t ∧
      s.Only [.free, .core, .pass, .ras, .regs, .tvx, .pwr] t) ∧
  (∀ (s : State), s.pwr.good = false → Completes (.hostRailFault) s fun t =>
      s.Only [] t) ∧
  (∀ (s : State), s.pwr.stage = .good → Completes (.jtagExtestClamp) s fun t =>
      t.pwr = { s.pwr with jtag := true } ∧ s.Only [.pwr] t) ∧
  (∀ (s : State), s.pwr.stage ≠ .good → Completes (.jtagExtestClamp) s fun t =>
      s.Only [] t) ∧
  (∀ (s : State), s.pwr.jtag = true → s.setSlot.rot = [] ∧ s.tvx.recs.rot = [] → Completes (.jtagTestLogicReset) s fun t =>
      s.HostPorLeaves t ∧ s.Ranged t ∧
      t.pwr = { hostReq := s.pwr.hostReq, good := true, stage := (if s.tvx.recovery = true ∨ s.tvx.flashGranted = true then .vaux else .good) } ∧
      s.Only [.regs, .mem, .marked, .net, .free, .core, .die, .home, .pass, .chan, .mesa, .meter, .qos, .hzn, .xce, .io,
        .ras, .tvx, .pwr, .ccol] t) ∧
  (∀ (s : State), s.pwr.jtag = false → Completes (.jtagTestLogicReset) s fun t =>
      s.Only [] t) ∧
  (∀ (s : State), s.pwr.stage = .good ∧ s.pwr.jtag = false ∧ s.tvx.running = true → Completes (.startupArraysReady) s fun t =>
      t.pwr = { s.pwr with stage := .training } ∧
      t.get R.PWR_STATUS_UC_RUNNING = 1 ∧ t.get R.XCE_STATUS_UC_RUNNING = 1 ∧ t.get R.XCE_STATUS_ENGINE_READY = 1 ∧ t.get
        R.PKG_NODE_PACKAGE_ID = s.settingN 1 % 4096 ∧
      (∀ h : Fin 384, s.tvx.recs.core.testBit h = true → t.coreState h = coreRETIRED) ∧
      (∀ h : Fin 384, t.get (R.VALE_L2_STATUS_WAYS_RETIRED (h / 32) (h % 32)) = bits s.tvx.recs.way (16 * h.val) 16) ∧
      (∀ n : Ix16, t.get (R.MESA_WAY_STATUS_WAYS_RETIRED n) = bits s.tvx.recs.way (wayMesa n 0) 16 ∧ t.get
        (R.MESA_WAY_STATUS_WAYS_DISABLED n) = t.get (R.MESA_WAY_STATUS_WAYS_RETIRED n)) ∧
      (∀ p : Fin 24, s.passState p ≠ passRETIRED → t.passState p = passDETECT) ∧
      (∀ i : Fin 32, t.get (R.RPRT_STATUS_WIDTH i) = (groupWidths ((s.setting 4).getD (i / 4) 0)).getD (i % 4) 0) ∧
      (∀ k : Fin 15, s.setting (bucketItem k) ≠ [] → t.bucketCfg k = ofBytes ((s.setting (bucketItem k)).drop 1)) ∧
      (∀ p : Fin 8, (s.settingN 5).testBit p = true → t.get (R.HZN_CTL_ENABLE p) = 1) ∧ t.tvx = s.tvx ∧
      s.Only [.regs, .core, .die, .home, .pass, .mesa, .hzn, .ras, .tvx, .pwr] t) ∧
  (∀ (s : State), (s.pwr.stage ≠ .good ∨ s.pwr.jtag = true ∨ s.tvx.running = false) →
    Completes (.startupArraysReady) s fun t =>
      s.Only [] t) ∧
  (∀ (s : State), s.pwr.stage = .image ∧ s.chan.san.op = 0 ∧ s.imgOk = true →
    [2, 3, 5, 6].any s.ucRestarting = false ∧ (List.range 24).all s.portRests = true →
    Completes (.hostImageCopyComplete) s fun t =>
      t.pwr.stage = .run ∧ t.get R.PKG_NODE_PACKAGE_ID = s.settingN 1 % 4096 ∧
      (∀ h : Fin 384, t.reg (R.rVALE_CORE_RESET_PC (h / 32) (h % 32)) = BitVec.ofNat 64 (s.imgLoad + s.imgEntry) &&&
        0xFFFFFFFFFFFFFE) ∧
      (∀ h : Fin 384, t.reg (R.rVALE_CORE_NMI_PC (h / 32) (h % 32)) = BitVec.ofNat 64 (s.imgLoad + s.imgNmi) &&&
        0xFFFFFFFFFFFFC0) ∧
      (∀ d : Fin 12, t.dieOnline d = (s.dieOnline d || s.passState (2 * d.val) == passACTIVE || s.passState (2 * d.val + 1)
        == passACTIVE)) ∧
      (∀ h : Fin 384, t.dieOnline (h / 32) = true → s.coreState h = coreOFFLINE → t.coreState h = coreSTARTING) ∧
      s.Only [.regs, .mem, .marked, .free, .core, .die, .home, .pass, .mesa, .meter, .qos, .ras, .tvx, .pwr] t) ∧
  (∀ (s : State), s.pwr.stage = .image ∧ s.chan.san.op = 0 ∧ s.imgOk = false →
    [2, 3, 5, 6].any s.ucRestarting = false ∧ (List.range 24).all s.portRests = true →
    s.tvx.running = true ∧ s.tvx.flashGranted = false → Completes (.hostImageCopyComplete) s fun t =>
      t.pwr = { s.pwr with stage := .stopped } ∧
      t.tvx.log.head?.map (fun e => (e.code, e.sev, e.detail)) = some (0x72, sevURGENT, 2) ∧ s.OnlyFields (reportFields) t ∧
      s.Only [.regs, .tvx, .pwr] t) ∧
  (∀ (s : State), s.pwr.stage = .image ∧ s.chan.san.op = 0 ∧ s.imgOk = true →
    [2, 3, 5, 6].any s.ucRestarting = false ∧ (List.range 24).all s.portRests = true →
    s.imgLength ≤ 64 ∧ s.storeHolds s.imgLoad = false ∧ s.chState (s.dramPlace s.imgLoad).1 = chACTIVE →
    Completes (.hostImageCopyComplete) s fun t =>
      (List.range s.imgLength).map (fun i => bits (t.lineAt (chanCell (s.dramPlace s.imgLoad).1 (s.dramPlace
        s.imgLoad).2)).toNat (8 * i) 8) = (List.range s.imgLength).map (fun i => s.hostByte (0x1000 + i)) ∧
      t.markedAt (chanCell (s.dramPlace s.imgLoad).1 (s.dramPlace s.imgLoad).2) = false ∧
      (∀ (k : Nat), 64 * k ≠ (chanCell (s.dramPlace s.imgLoad).1 (s.dramPlace s.imgLoad).2) → t.lineAt (64 * k) = s.lineAt
        (64 * k) ∧ t.markedAt (64 * k) = s.markedAt (64 * k)) ∧
      s.Only [.regs, .mem, .marked, .free, .core, .die, .home, .pass, .mesa, .meter, .qos, .ras, .tvx, .pwr] t) ∧
  (∀ (s : State),
    (s.pwr.stage ≠ .image ∨ s.chan.san.op ≠ 0 ∨ [2, 3, 5, 6].any s.ucRestarting = true ∨ (List.range 24).all s.portRests = false) →
    Completes (.hostImageCopyComplete) s fun t =>
      s.Only [] t) ∧
  (∀ (s : State), s.warmReady = true → Memory.wf s.mem = true ∧ Tbl.wf regReset s.regs = true →
    Completes (.pkgWarm) s fun t =>
      t.pwr.stage = .image ∧ t.pwr.perst = 0 ∧ t.pwr.now = s.pwr.now ∧
      t.net = [] ∧ t.hzn.win = [] ∧ t.mesa.tags = [] ∧ t.home.dir = [] ∧ t.home.locks = [] ∧
      t.die.vc = [] ∧ t.die.sf = [] ∧ t.core.l2 = [] ∧ t.qos = {} ∧ t.ccol = {} ∧
      t.get R.PKG_DIES_VALE_ONLINE = s.get R.PKG_DIES_VALE_ONLINE ∧ t.get R.PKG_MEMMAP_DRAM_TOP_GIB = s.get
        R.PKG_MEMMAP_DRAM_TOP_GIB ∧
      t.tvx.mboxQ = [] ∧ t.tvx.mbox = {} ∧ t.chan.journal = s.chan.journal ∧
      (∀ i : Fin 32, s.memState i = memACTIVE → t.memState i = memFREE) ∧
      s.Only [.regs, .mem, .marked, .net, .free, .core, .die, .home, .pass, .chan, .mesa, .meter, .qos, .hzn, .xce, .io,
        .ras, .tvx, .pwr, .ccol] t) ∧
  (∀ (s : State), s.warmReady = false → Completes (.pkgWarm) s fun t =>
      s.Only [] t) ∧
  (∀ (s : State) (port : Nat) (leg : Bool), s.drives (.peClk port leg) =
      some (if s.get (R.RPRT_STATUS_WIDTH port) = 0 then .low else .clock)) ∧
  (∀ s : State, s.drives (.side "HOST_PWR_REQ" 0) = some (if s.pwr.hostReq = true then .high else .low) ∧
      s.drives (.side "THERMTRIP_N" 0) = some (if s.pwr.therm = true then .low else .high) ∧
      ∀ g : Nat, s.drives (.side "PE_PERST_N" g) = some (if s.pwr.perst.testBit g = true then .high else .low))

/-- At a window boundary of a class its buckets leak by RATE, their runs are judged and new figures take effect (spec/14
R335, R336); the on-chip patrol leaves a good block as it is, corrects one bad cell of any block, records it and
charges its bucket (R325, R329, R333), and drops, marks, recalls or reports what it cannot correct as the table for
its array says (R330, spec/04 R119, spec/08 R209), unless the block's line has a lock; a fault that lasts retires the
resource (R336); a reading of the thermal sensors shows the hottest, and an ageing reading joins those of the last 30
days (spec/15 R343, R344). -/
def Obligations.PatrolBucketsAndReadings : Prop :=
  (∀ (k : Fin 15) (i : Nat) (s : State), s.pwr.stage ≠ .off ∧ i < 2 ^ 40 → (s.ras.buckets.map (fun e => e.1)).Nodup →
    Completes (.bucketWindowBoundary k) s fun t =>
      t.pwr.now = (s.pwr.now / windowNs (bits (s.bucketCfg k) 0 3) + 1) * windowNs (bits (s.bucketCfg k) 0 3) ∧
      t.bucketCfg k = (s.reg (R.rRAS_BUCKET_CFG k)).toNat ∧
      (s.ras.buckets.any (fun e => e.1 == bucketKey k i) = true → (t.bucket k i).level = min ((s.bucket k i).level -
        s.bucketRate k) (t.bucketLimit k + t.bucketRate k - 1) ∧ (t.bucket k i).hot = decide (t.bucketLimit k ≤
        (t.bucket k i).level) ∧ (t.bucket k i).run = (if (s.bucket k i).hot then (s.bucket k i).run + 1 else 0) ∧
        (t.bucket k i).done = (s.bucket k i).done) ∧
      (∀ j : Fin 15, j ≠ k → t.bucket j i = s.bucket j i ∧ t.bucketCfg j = s.bucketCfg j) ∧
      (k.val = 7 → t.pass.ends.all (fun e => e.2.win.isEmpty) = true) ∧ (k.val = 12 → t.hzn.ports.all (fun e =>
        e.2.win.isEmpty) = true) ∧
      s.Only [.regs, .core, .pass, .meter, .qos, .hzn, .ras, .pwr] t) ∧
  (∀ (k : Fin 15) (s : State), s.pwr.stage = .off → Completes (.bucketWindowBoundary k) s fun t =>
      s.Only [] t) ∧
  (∀ (x : ArrLoc) (bad : List (Nat × Nat)) (s : State), s.arrUp x = false → Completes (.onchipPatrolBlock x bad) s fun t =>
      s.Only [] t) ∧
  (∀ (x : ArrLoc) (bad : List (Nat × Nat)) (s : State), s.arrUp x = true → (s.finds x bad = .bad ∨ s.finds x bad = .marker) →
    s.arrBusy x = true → Completes (.onchipPatrolBlock x bad) s fun t =>
      s.Only [] t) ∧
  (∀ (x : ArrLoc) (bad : List (Nat × Nat)) (s : State), s.arrUp x = true →
    s.finds x bad = .clean ∧ (gridOf x).residue (s.badCells x bad) .clean = 0 →
    Completes (.onchipPatrolBlock x bad) s fun t =>
      s.Met x t ∧ s.SameArrays t ∧ t.ras = { s.ras with flaws := t.ras.flaws } ∧ s.Only [.core, .die, .home, .mesa, .ras] t) ∧
  (∀ (x : ArrLoc) (bad : List (Nat × Nat)) (p : Nat × Nat) (s : State), s.arrUp x = true →
    s.badCells x bad = [p] ∧ s.finds x bad = .one p → s.bears x false = true ∧ arrIsXce x = false →
    Completes (.onchipPatrolBlock x bad) s fun t =>
      s.Met x t ∧ s.SameArrays t ∧ s.Charged x false t ∧ s.ArrRecord x errCE bad t ∧
      (∀ n : Ix16, t.get (R.MESA_ERR_STATS_CORRECTED n) = if arrSlice x = some n then satAdd (R.MESA_ERR_STATS_CORRECTED
        n).w (s.get (R.MESA_ERR_STATS_CORRECTED n)) 1 else s.get (R.MESA_ERR_STATS_CORRECTED n)) ∧
      s.OnlyFields ((List.range 16).map (fun n => R.MESA_ERR_STATS_CORRECTED n) ++ reportFields) t ∧
      s.Only [.core, .die, .free, .home, .mesa, .pass, .ras, .regs, .tvx] t) ∧
  (∀ (f : Func) (bad : List (Nat × Nat)) (p : Nat × Nat) (s : State), s.arrUp (.xce f) = true →
    s.badCells (.xce f) bad = [p] ∧ s.finds (.xce f) bad = .one p → s.bears (.xce f) false = true →
    Completes (.onchipPatrolBlock (.xce f) bad) s fun t =>
      s.Met (.xce f) t ∧ s.Charged (.xce f) false t ∧ s.ArrRecord (.xce f) errCE bad t ∧
      t.cfgBits ridPF 0x110 14 1 = 1 ∧ t.cfgBits ridPF 0x78 16 1 = 1 ∧ s.OnlyFields (reportFields) t ∧
      s.Only [.core, .free, .io, .pass, .ras, .regs, .tvx] t) ∧
  (∀ (n : Ix16) (set : Fin 4096) (w b : Fin 16) (bad : List (Nat × Nat)) (s : State),
    s.arrUp (.mesaData n set w b) = true ∧ s.arrBusy (.mesaData n set w b) = false ∧ s.bears (.mesaData n set w b) true = true →
    (s.finds (.mesaData n set w b) bad = .bad ∨ s.finds (.mesaData n set w b) bad = .marker) →
    Completes (.onchipPatrolBlock (.mesaData n set w b) bad) s fun t =>
      t.sec n set w = { s.sec n set w with valid := setBits (s.sec n set w).valid b 1 0 } ∧
      (∀ i v : Nat, ¬ (i = set ∧ v = w) → i < 4096 → v < 16 → t.sec n i v = s.sec n i v) ∧ s.Met (.mesaData n set w b) t ∧
      s.Charged (.mesaData n set w b) true t ∧ s.ArrRecord (.mesaData n set w b) errUED bad t ∧
      s.OnlyFields (reportFields) t ∧ s.Only [.core, .free, .mesa, .pass, .ras, .regs, .tvx] t) ∧
  (∀ (n : Ix16) (set : Fin 4096) (w : Fin 16) (g : Bool) (bad : List (Nat × Nat)) (s : State),
    s.arrUp (.mesaTag n set w g) = true ∧ s.arrBusy (.mesaTag n set w g) = false ∧ s.bears (.mesaTag n set w g) true = true →
    (s.finds (.mesaTag n set w g) bad = .bad ∨ s.finds (.mesaTag n set w g) bad = .marker) →
    Completes (.onchipPatrolBlock (.mesaTag n set w g) bad) s fun t =>
      t.sec n set w = {} ∧
      t.get (R.MESA_ERR_STATS_TAG_DROPS n) = satAdd (R.MESA_ERR_STATS_TAG_DROPS n).w (s.get (R.MESA_ERR_STATS_TAG_DROPS n))
        1 ∧ t.get (R.MESA_EVENT_TAG_DROP n) = 1 ∧
      s.Met (.mesaTag n set w g) t ∧ s.Charged (.mesaTag n set w g) true t ∧ s.ArrRecord (.mesaTag n set w g) errUED bad t ∧
      s.OnlyFields ([R.MESA_ERR_STATS_TAG_DROPS n, R.MESA_EVENT_TAG_DROP n] ++ reportFields) t ∧
      s.Only [.core, .free, .mesa, .pass, .ras, .regs, .tvx] t) ∧
  (∀ (n : Ix16) (set : Fin 4096) (bad : List (Nat × Nat)) (s : State),
    s.arrUp (.mesaPlru n set) = true ∧ s.arrBusy (.mesaPlru n set) = false ∧ s.bears (.mesaPlru n set) true = true →
    (s.finds (.mesaPlru n set) bad = .bad ∨ s.finds (.mesaPlru n set) bad = .marker) →
    Completes (.onchipPatrolBlock (.mesaPlru n set) bad) s fun t =>
      t.plru n set = 0 ∧ s.Met (.mesaPlru n set) t ∧ s.Charged (.mesaPlru n set) true t ∧
      s.ArrRecord (.mesaPlru n set) errUED bad t ∧ s.OnlyFields (reportFields) t ∧
      s.Only [.core, .free, .mesa, .pass, .ras, .regs, .tvx] t) ∧
  (∀ (n : Ix16) (e : Fin 256) (q : Fin 18) (bad : List (Nat × Nat)) (s : State),
    s.arrUp (.mesaVictim n e q) = true ∧ s.arrBusy (.mesaVictim n e q) = false ∧ s.bears (.mesaVictim n e q) true = true →
    (s.finds (.mesaVictim n e q) bad = .bad ∨ s.finds (.mesaVictim n e q) bad = .marker) →
    Completes (.onchipPatrolBlock (.mesaVictim n e q) bad) s fun t =>
      t.vict n = ((s.vict n)[e.val]?.map (fun v => (s.victDrop n (fun y => y == v)).vict n)).getD (s.vict n) ∧
      s.Met (.mesaVictim n e q) t ∧ s.Charged (.mesaVictim n e q) true t ∧ s.ArrRecord (.mesaVictim n e q) errUED bad t ∧
      s.OnlyFields (reportFields) t ∧ s.Only [.core, .free, .mesa, .pass, .ras, .regs, .tvx] t) ∧
  (∀ (h : Hart) (set : Fin 128) (w : Fin 8) (g : Option Bool) (bad : List (Nat × Nat)) (s : State),
    s.arrUp (.l1i h set w g) = true ∧ s.arrBusy (.l1i h set w g) = false ∧ s.bears (.l1i h set w g) true = true →
    (s.finds (.l1i h set w g) bad = .bad ∨ s.finds (.l1i h set w g) bad = .marker) →
    Completes (.onchipPatrolBlock (.l1i h set w g) bad) s fun t =>
      t.l1i h set w = {} ∧ (∀ v : Nat, v < 8 → v ≠ w → t.l1i h set v = s.l1i h set v) ∧ s.Met (.l1i h set w g) t ∧
      s.Charged (.l1i h set w g) true t ∧ s.ArrRecord (.l1i h set w g) errUED bad t ∧ s.OnlyFields (reportFields) t ∧
      s.Only [.core, .free, .mesa, .pass, .ras, .regs, .tvx] t) ∧
  (∀ (h : Hart) (set : Fin 128) (w : Fin 8) (g : Option Bool) (bad : List (Nat × Nat)) (s : State),
    s.arrUp (.l1d h set w g) = true ∧ s.arrBusy (.l1d h set w g) = false ∧ s.bears (.l1d h set w g) true = true →
    (s.finds (.l1d h set w g) bad = .bad ∨ s.finds (.l1d h set w g) bad = .marker) →
    Completes (.onchipPatrolBlock (.l1d h set w g) bad) s fun t =>
      t.l1d h set w = {} ∧ (∀ v : Nat, v < 8 → v ≠ w → t.l1d h set v = s.l1d h set v) ∧ s.Met (.l1d h set w g) t ∧
      s.Charged (.l1d h set w g) true t ∧ s.ArrRecord (.l1d h set w g) errUED bad t ∧ s.OnlyFields (reportFields) t ∧
      s.Only [.core, .free, .mesa, .pass, .ras, .regs, .tvx] t) ∧
  (∀ (h : Hart) (set : Fin 2048) (w : Fin 16) (bad : List (Nat × Nat)) (s : State),
    s.arrUp (.l2Data h set w) = true ∧ s.arrBusy (.l2Data h set w) = false ∧ s.bears (.l2Data h set w) true = true →
    (s.finds (.l2Data h set w) bad = .bad ∨ s.finds (.l2Data h set w) bad = .marker) →
    (s.l2 h set w).st ≠ .i ∧ dirtyMoesi (s.dieSt (h / 32) (s.l2 h set w).line) = true →
    Completes (.onchipPatrolBlock (.l2Data h set w) bad) s fun t =>
      t.l2 h set w = { s.l2 h set w with bad := true } ∧ (∀ v : Nat, v < 16 → v ≠ w → t.l2 h set v = s.l2 h set v) ∧
      s.Met (.l2Data h set w) t ∧ s.Charged (.l2Data h set w) true t ∧ s.ArrRecord (.l2Data h set w) errUED bad t ∧
      s.OnlyFields (reportFields) t ∧ s.Only [.core, .free, .mesa, .pass, .ras, .regs, .tvx] t) ∧
  (∀ (d : Die) (sl : Fin 16) (set : Fin 4096) (w : Fin 16) (bad : List (Nat × Nat)) (s : State),
    s.arrUp (.vcData d sl set w) = true ∧ s.arrBusy (.vcData d sl set w) = false ∧ s.bears (.vcData d sl set w) true = true →
    (s.finds (.vcData d sl set w) bad = .bad ∨ s.finds (.vcData d sl set w) bad = .marker) →
    (s.vc d sl set w).valid = true → Completes (.onchipPatrolBlock (.vcData d sl set w) bad) s fun t =>
      t.vc d sl set w = (if dirtyMoesi (s.dieSt d (s.vc d sl set w).line) = true then { s.vc d sl set w with bad := true }
        else {}) ∧
      s.Met (.vcData d sl set w) t ∧ s.Charged (.vcData d sl set w) true t ∧ s.ArrRecord (.vcData d sl set w) errUED bad t ∧
      s.OnlyFields (reportFields) t ∧ s.Only [.core, .die, .free, .pass, .ras, .regs, .tvx] t) ∧
  (∀ (n : Ix16) (set : Fin 65536) (w : Fin 16) (bad : List (Nat × Nat)) (s : State),
    s.arrUp (.dir n set w true) = true ∧ s.arrBusy (.dir n set w true) = false ∧ s.bears (.dir n set w true) true = true →
    (s.finds (.dir n set w true) bad = .bad ∨ s.finds (.dir n set w true) bad = .marker) →
    s.home.bcast.contains (n * 65536 + set) = false → Completes (.onchipPatrolBlock (.dir n set w true) bad) s fun t =>
      t.home = { s.home with bcast := (n * 65536 + set) :: s.home.bcast } ∧
      t.get (R.HOME_BCAST_BROADCAST_SETS n) = (s.get (R.HOME_BCAST_BROADCAST_SETS n) + 1) % 2 ^ (R.HOME_BCAST_BROADCAST_SETS
        n).w ∧
      s.Met (.dir n set w true) t ∧ s.Charged (.dir n set w true) true t ∧ s.ArrRecord (.dir n set w true) errUEC bad t ∧
      s.OnlyFields ([R.HOME_BCAST_BROADCAST_SETS n] ++ reportFields) t ∧
      s.Only [.core, .free, .home, .pass, .ras, .regs, .tvx] t) ∧
  (∀ (n : Ix16) (set : Fin 65536) (w : Fin 16) (bad : List (Nat × Nat)) (s : State),
    s.arrUp (.dir n set w false) = true ∧ s.arrBusy (.dir n set w false) = false ∧ s.bears (.dir n set w false) true = true →
    (s.finds (.dir n set w false) bad = .bad ∨ s.finds (.dir n set w false) bad = .marker) → (s.dirE n set w).state = 0 →
    Completes (.onchipPatrolBlock (.dir n set w false) bad) s fun t =>
      t.dirE n set w = {} ∧ s.Met (.dir n set w false) t ∧ s.Charged (.dir n set w false) true t ∧
      s.ArrRecord (.dir n set w false) errUED bad t ∧ s.OnlyFields (reportFields) t ∧
      s.Only [.core, .free, .home, .pass, .ras, .regs, .tvx] t) ∧
  (∀ (n : Ix16) (set : Fin 8192) (w : Fin 16) (bad : List (Nat × Nat)) (s : State),
    s.arrUp (.rpt n set w false) = true ∧ s.arrBusy (.rpt n set w false) = false ∧ s.bears (.rpt n set w false) true = true →
    (s.finds (.rpt n set w false) bad = .bad ∨ s.finds (.rpt n set w false) bad = .marker) → (s.rptE n set w).rstate = 0 →
    Completes (.onchipPatrolBlock (.rpt n set w false) bad) s fun t =>
      t.rptE n set w = {} ∧ s.Met (.rpt n set w false) t ∧ s.Charged (.rpt n set w false) true t ∧
      s.ArrRecord (.rpt n set w false) errUED bad t ∧ s.OnlyFields (reportFields) t ∧
      s.Only [.core, .free, .home, .pass, .ras, .regs, .tvx] t) ∧
  (∀ (n : Ix16) (set : Fin 8192) (w : Fin 16) (bad : List (Nat × Nat)) (s : State),
    s.arrUp (.rpt n set w true) = true ∧ s.arrBusy (.rpt n set w true) = false ∧ s.bears (.rpt n set w true) true = true →
    (s.finds (.rpt n set w true) bad = .bad ∨ s.finds (.rpt n set w true) bad = .marker) →
    Completes (.onchipPatrolBlock (.rpt n set w true) bad) s fun t =>
      (∀ i : Fin 8, t.home.bcast.contains (n * 65536 + i.val * 8192 + set) = true) ∧ s.Met (.rpt n set w true) t ∧
      s.Charged (.rpt n set w true) true t ∧ s.ArrRecord (.rpt n set w true) errUEC bad t ∧
      s.OnlyFields ([R.HOME_BCAST_BROADCAST_SETS n] ++ reportFields) t ∧
      s.Only [.core, .free, .home, .pass, .ras, .regs, .tvx] t) ∧
  (∀ (n : Ix16) (set : Fin 16384) (w : Fin 16) (bad : List (Nat × Nat)) (s : State),
    s.arrUp (.rld n set w false) = true ∧ s.arrBusy (.rld n set w false) = false ∧ s.bears (.rld n set w false) true = true →
    (s.finds (.rld n set w false) bad = .bad ∨ s.finds (.rld n set w false) bad = .marker) → (s.rldE n set w).pstate = 0 →
    Completes (.onchipPatrolBlock (.rld n set w false) bad) s fun t =>
      t.rldE n set w = {} ∧ s.Met (.rld n set w false) t ∧ s.Charged (.rld n set w false) true t ∧
      s.ArrRecord (.rld n set w false) errUED bad t ∧ s.OnlyFields (reportFields) t ∧
      s.Only [.core, .free, .home, .pass, .ras, .regs, .tvx] t) ∧
  (∀ (n : Ix16) (set : Fin 16384) (w : Fin 16) (bad : List (Nat × Nat)) (s : State),
    s.arrUp (.rld n set w true) = true ∧ s.arrBusy (.rld n set w true) = false ∧ s.bears (.rld n set w true) true = true →
    (s.finds (.rld n set w true) bad = .bad ∨ s.finds (.rld n set w true) bad = .marker) →
    Completes (.onchipPatrolBlock (.rld n set w true) bad) s fun t =>
      t.home.bcast.contains (2 ^ 20 + n * 16384 + set) = true ∧ s.Met (.rld n set w true) t ∧
      s.Charged (.rld n set w true) true t ∧ s.ArrRecord (.rld n set w true) errUEC bad t ∧ s.OnlyFields (reportFields) t ∧
      s.Only [.core, .free, .home, .pass, .ras, .regs, .tvx] t) ∧
  (∀ (b : Fin 2) (q : Fin 10) (m : Fin 1024) (bad : List (Nat × Nat)) (s : State),
    s.arrUp (.meterAcc b q m) = true ∧ s.arrBusy (.meterAcc b q m) = false ∧ s.bears (.meterAcc b q m) true = true →
    (s.finds (.meterAcc b q m) bad = .bad ∨ s.finds (.meterAcc b q m) bad = .marker) →
    Completes (.onchipPatrolBlock (.meterAcc b q m) bad) s fun t =>
      t.meter = { s.meter with bad := s.meter.bad ++ [(b.val, q.val, some m.val)] } ∧ s.Met (.meterAcc b q m) t ∧
      s.Charged (.meterAcc b q m) true t ∧ s.ArrRecord (.meterAcc b q m) errUED bad t ∧ s.OnlyFields (reportFields) t ∧
      s.Only [.core, .free, .meter, .pass, .ras, .regs, .tvx] t) ∧
  (∀ (b : Fin 2) (q : Fin 10) (bad : List (Nat × Nat)) (s : State),
    s.arrUp (.meterTotal b q) = true ∧ s.arrBusy (.meterTotal b q) = false ∧ s.bears (.meterTotal b q) true = true →
    (s.finds (.meterTotal b q) bad = .bad ∨ s.finds (.meterTotal b q) bad = .marker) →
    Completes (.onchipPatrolBlock (.meterTotal b q) bad) s fun t =>
      t.meter = { s.meter with bad := s.meter.bad ++ [(b.val, q.val, none)] } ∧ s.Met (.meterTotal b q) t ∧
      s.Charged (.meterTotal b q) true t ∧ s.ArrRecord (.meterTotal b q) errUED bad t ∧ s.OnlyFields (reportFields) t ∧
      s.Only [.core, .free, .meter, .pass, .ras, .regs, .tvx] t) ∧
  (∀ (n : Ix16) (k : Nat) (e : Msg) (l r : List (Nat × Msg)) (bad : List (Nat × Nat)) (s : State),
    s.arrUp (.homeBuf n k) = true ∧ s.arrBusy (.homeBuf n k) = false ∧ s.bears (.homeBuf n k) true = true →
    (s.finds (.homeBuf n k) bad = .bad ∨ s.finds (.homeBuf n k) bad = .marker) → s.home.wbHeld = l ++ (n.val, e) :: r →
    (l.filter (fun y => y.1 == n.val)).length = k → Completes (.onchipPatrolBlock (.homeBuf n k) bad) s fun t =>
      t.home = { s.home with wbHeld := l ++ (n.val, { e with poison := true }) :: r } ∧ s.Met (.homeBuf n k) t ∧
      s.Charged (.homeBuf n k) true t ∧ s.ArrRecord (.homeBuf n k) errUED bad t ∧ s.OnlyFields (reportFields) t ∧
      s.Only [.core, .free, .home, .pass, .ras, .regs, .tvx] t) ∧
  (∀  (bad : List (Nat × Nat)) (s : State),
    s.arrUp (.tvxSram) = true ∧ s.arrBusy (.tvxSram) = false ∧ s.bears (.tvxSram) true = true →
    (s.finds (.tvxSram) bad = .bad ∨ s.finds (.tvxSram) bad = .marker) → s.tvx.act = none →
    Completes (.onchipPatrolBlock (.tvxSram) bad) s fun t =>
      t.tvx.running = false ∧ t.tvx.queue = [] ∧ t.tvx.cause = .sram ∧ t.tvx.msl = {} ∧ t.tvx.mbox = {} ∧
      s.Met (.tvxSram) t ∧ s.Charged (.tvxSram) true t ∧ s.ArrRecord (.tvxSram) errUED bad t ∧
      s.OnlyFields (reportFields) t ∧ s.Only [.core, .free, .pass, .ras, .regs, .tvx] t) ∧
  (∀  (bad : List (Nat × Nat)) (s : State),
    s.arrUp (.other) = true ∧ s.arrBusy (.other) = false ∧ s.bears (.other) true = true →
    (s.finds (.other) bad = .bad ∨ s.finds (.other) bad = .marker) → Completes (.onchipPatrolBlock (.other) bad) s fun t =>
      t.tvx.running = s.tvx.running ∧ s.Met (.other) t ∧ s.Charged (.other) true t ∧ s.ArrRecord (.other) errUEC bad t ∧
      s.OnlyFields (reportFields) t ∧ s.Only [.core, .free, .pass, .ras, .regs, .tvx] t) ∧
  (∀  (bad : List (Nat × Nat)) (s : State),
    s.arrUp (.iommu) = true ∧ s.arrBusy (.iommu) = false ∧ s.bears (.iommu) true = true →
    (s.finds (.iommu) bad = .bad ∨ s.finds (.iommu) bad = .marker) → (s.get R.XCE_EVENT_EN_ENABLE).testBit 5 = false →
    Completes (.onchipPatrolBlock (.iommu) bad) s fun t =>
      t.cfgBits ridPF 0x104 22 1 = 1 ∧ t.get R.XCE_EVENT_INTERNAL_ERR = 1 ∧ s.Met (.iommu) t ∧ s.Charged (.iommu) true t ∧
      s.ArrRecord (.iommu) errUED bad t ∧ s.OnlyFields (R.XCE_EVENT_INTERNAL_ERR :: reportFields) t ∧
      s.Only [.core, .free, .io, .pass, .ras, .regs, .tvx] t) ∧
  (∀  (bad : List (Nat × Nat)) (s : State),
    s.arrUp (.iommu) = true ∧ s.arrBusy (.iommu) = false ∧ s.bears (.iommu) true = true →
    (s.finds (.iommu) bad = .bad ∨ s.finds (.iommu) bad = .marker) → (s.get R.XCE_EVENT_EN_ENABLE).testBit 5 = true →
    Completes (.onchipPatrolBlock (.iommu) bad) s fun t =>
      t.cfgBits ridPF 0x104 22 1 = 1 ∧ t.get R.XCE_EVENT_INTERNAL_ERR = 1 ∧ s.Met (.iommu) t ∧
      s.Only [.regs, .mem, .marked, .net, .free, .core, .die, .home, .pass, .mesa, .meter, .qos, .xce, .io, .ras, .tvx] t) ∧
  (∀ (h : Hart) (v : Bool) (bad : List (Nat × Nat)) (s : State),
    s.arrUp (.regs h v) = true ∧ s.arrBusy (.regs h v) = false ∧ s.bears (.regs h v) true = true →
    (s.finds (.regs h v) bad = .bad ∨ s.finds (.regs h v) bad = .marker) → s.coreState h = coreONLINE →
    Completes (.onchipPatrolBlock (.regs h v) bad) s fun t =>
      t.coreState h = coreSTOPPING ∧ t.isPending h = true ∧
      t.get (R.VALE_CORE_STATUS_LAST_STOP_ERROR (h / 32) (h % 32)) = 1 ∧ s.Met (.regs h v) t ∧
      s.Only [.regs, .mem, .marked, .net, .free, .core, .die, .home, .pass, .mesa, .meter, .qos, .xce, .io, .ras, .tvx] t) ∧
  (∀ (n : Ix16) (set : Fin 4096) (w b : Fin 16) (bad : List (Nat × Nat)) (s : State),
    s.arrUp (.mesaData n set w b) = true ∧ s.retiredArr (.mesaData n set w b) = false →
    (s.charge 5 (n * 16 + w) (decide (s.finds (.mesaData n set w b) bad = .bad))).2 = true →
    s.finds (.mesaData n set w b) bad = .bad → Completes (.onchipPatrolBlock (.mesaData n set w b) bad) s fun t =>
      (t.get (R.MESA_WAY_STATUS_WAYS_RETIRED n)).testBit w = true ∧ (t.get (R.MESA_WAY_CTL_WAY_DISABLE n)).testBit w = true
        ∧
      t.get (R.MESA_EVENT_WAY_DISABLED n) = 1 ∧ t.tvx.recs.way.testBit (wayMesa n w) = true ∧
      (t.bucket 5 (n * 16 + w)).done = true ∧
      s.Only [.regs, .mem, .marked, .net, .free, .core, .die, .home, .pass, .mesa, .meter, .qos, .xce, .io, .ras, .tvx] t) ∧
  (∀ (v : List Int) (s : State), s.tvx.alive = true → Completes (.thermalSensorRead v) s fun t =>
      (∀ i : Fin 420, t.sensor 0 i = (match v[i.val]? with | some x => x | none => s.sensor 0 i)) ∧
      (∀ i : Fin 420, t.sensor 0 i ≤ t.sensor 0 (t.get R.PWR_TEMP_SENSOR)) ∧
      t.get R.PWR_TEMP_HOTTEST = satSigned 16 (t.sensor 0 (t.get R.PWR_TEMP_SENSOR)) ∧
      t.tvx = { s.tvx with temps := t.tvx.temps } ∧ s.OnlyFields [R.PWR_TEMP_HOTTEST, R.PWR_TEMP_SENSOR] t ∧
      s.Only [.regs, .tvx] t) ∧
  (∀ (v : List Int) (s : State), s.tvx.alive = false → Completes (.thermalSensorRead v) s fun t =>
      s.Only [] t) ∧
  (∀ (m : Fin 60) (r : Int) (s : State), s.tvx.alive = true → Completes (.ageingRead m r) s fun t =>
      t.readings m = (s.pwr.now, r) :: (s.readings m).filter (fun x => decide (s.pwr.now ≤ x.1 + 30 * dayNs)) ∧
      t.latest m = r ∧ (∀ k : Fin 60, k ≠ m → t.readings k = s.readings k) ∧
      (∀ k : Nat, k ≠ monitorDie m → t.tvx.warned.testBit k = s.tvx.warned.testBit k) ∧
      t.tvx.queue = s.tvx.queue ∧ t.tvx.msl = s.tvx.msl ∧ t.tvx.mbox = s.tvx.mbox ∧ s.OnlyFields (reportFields) t ∧
      s.Only [.regs, .tvx] t) ∧
  (∀ (m : Fin 60) (r : Int) (s : State), s.tvx.alive = false → Completes (.ageingRead m r) s fun t =>
      s.Only [] t)

/-- A step takes the command at the front of the queue and is exec of it on the state with the rest of the queue. With no
command waiting it is 1 ns of reference time and the queue stays empty (the model's choice, log entry 3): GTIME moves
on by 1 ns where the reference runs and the servo adds nothing (spec/17 R392). -/
def Obligations.StepTakesTheFront : Prop :=
  (∀ (c : Instr) (s : State), step { s with pending := c :: s.pending } = exec c s) ∧
  (∀ s : State, s.pending = [] → step s = .next s.idle ∧ s.idle.pending = [] ∧ s.idle.free = s.free + 1 ∧
    s.idle.regs = (s.elapse 1).regs ∧ s.idle.pwr = (s.elapse 1).pwr ∧
    (s.pwr.stage = .off ∨ s.pwr.refclk = false → s.idle.pwr = s.pwr) ∧
    (s.pwr.stage ≠ .off → s.pwr.refclk = true → s.get R.TIME_OFFSET_RATE_PPB = 0 →
      s.idle.pwr.now = s.pwr.now + 1 + s.pwr.frac / 2 ^ 32))

/-- Before VAUX comes no register is written, memory lists nothing, nothing waits and nothing runs, every register reads
what its row of the register tables gives, and memory and the register file are in canonical form; VAUX_UP starts from
there (spec/17 R396, R397; log entry 6). -/
def Obligations.ResetState : Prop :=
  State.reset.regs = [] ∧ State.reset.mem = [] ∧ State.reset.pending = [] ∧ State.reset.net = [] ∧ State.reset.pwr = {} ∧
  State.reset.tvx = {} ∧ (∀ (a : Nat), State.reset.reg a = regReset a) ∧
  State.reset.get R.PKG_IDENT_STEPPING = 0x10 ∧ State.reset.get R.PKG_IDENT_PART = 0x9384 ∧ State.reset.get R.PWR_CTL_TEMP_TARGET = 95 ∧
  State.reset.get R.PWR_LIMIT_PPT_W = 800 ∧ State.reset.get R.PKG_MEMMAP_SPARE_CH = 0xF ∧ State.reset.get R.CCOL_CTL_FREEZE = 0 ∧ State.reset.Ok

/-- From every state whose memory and register file are in canonical form (addresses strictly rising, no entry equal to
what an unlisted address reads as), each step that answers a state answers one in that form: no command can leave a
byte or a register with two values. The commands that wait after a step are those that waited behind its own: the
queue is first in, first out. -/
def Obligations.EveryStepKeepsTheForm : Prop :=
  (∀ s t : State, s.Ok → step s = .next t → t.Ok) ∧ (∀ s t : State, step s = .next t → t.pending = s.pending.tail)

/-- Every command on every state answers a next state, but for a host-made error (spec/00 R8, R9: the outcome is
unpredictable), which only a register or configuration write, a window commit, a write of NUMVFS or a CXL region put
online can be: of these, a value that its field table reserves, more than 2,048 VFs, a window entry with reserved
figures, and a region that overlaps another or leaves its range (spec/11 R272, spec/12 R301, spec/13 R314). No command
is refused. -/
def Obligations.OnlyHostMadeErrorsStop : Prop :=
  (∀ (c : Instr) (s : State), (∃ t, exec c s = .next t) ∨ (mayBeHostMade c = true ∧ exec c s = .fault .hostMadeError)) ∧
  (∀ (v : Nat) (s : State), exec (.numvfsWrite v) s = .fault .hostMadeError ↔ 2048 < v) ∧
  (∀ (index table : Nat) (s : State),
    exec (.xceWinCommit index table) s = .fault .hostMadeError ↔ winReserved (table % 2) s.shadow = true) ∧
  (∀ (i : RPort) (s : State), exec (.cxlRegionOnline i) s = .fault .hostMadeError ↔
    s.region i = regionOFFLINE ∧ s.get (R.RPRT_STATUS_CXL i) = 1 ∧ s.regionBad i = true) ∧
  (∀ (a size : Nat) (v : Word) (s : State) (d : RegDesc) (ix : List Nat), regFind (a / 8 * 8) = some (d, ix) →
    regBad d.id ix (rWrite (s.reg (a / 8 * 8)) (BitVec.ofNat 64 d.rw) (BitVec.ofNat 64 d.w1c) (a % 8) size v) s = true →
    s.regWrite a size v = .fault .hostMadeError)

/-- A command that is none of those that write at a home, fill, copy, patrol or sanitise memory, lose a copy or reset the
package leaves every byte of memory as it was (spec/04 R95, R118, spec/07 R177, R180). -/
def Obligations.OnlyTheseChangeMemory : Prop :=
  ∀ (c : Instr) (s t : State), mayChangeMemory c = false → exec c s = .next t → ∀ (a : Nat), t.byte a = s.byte a

/-- Outside a POR no command, PKG_WARM and every restart included, and no step of an empty queue turns GTIME back (spec/17
R392). -/
def Obligations.GtimeNeverDecreases : Prop :=
  (∀ (c : Instr) (s t : State), mayBePor c = false → exec c s = .next t → s.pwr.now ≤ t.pwr.now) ∧
  (∀ s t : State, s.pending = [] → step s = .next t → s.pwr.now ≤ t.pwr.now)

/-- For every well-formed Osesteth message of the five channels, reading the bits of its header slots and payload at the
places of spec/04 R90 and spec/06 R147 gives back every field that its class carries; for every well-formed MGT
message (R151) it gives back the message. -/
def Obligations.MessagesOnTheWire : Prop :=
  (∀ m : Msg, m.wf = true → m.vc ≤ 4 → msgOf (msgBits m) = msgCarried m) ∧ (∀ m : Mgt, m.wf = true → mgtOf (mgtBits m) = m)

/-- For every well-formed Pass flit, Horizon frame, window message and island message, reading its header bits at the
places of spec/06 R146 and spec/10 R238, R240 and R242 gives back every field that the header carries; the packet that
the bytes of a well-formed management packet spell is the packet (spec/15 R347), and undoing the byte stuffing of R345
on stuffed bytes gives the bytes. -/
def Obligations.HeadersOnTheWire : Prop :=
  (∀ f : Flit, f.wf = true → flitOf (flitHeader f) = flitHead f) ∧ (∀ f : HFrame, f.wf = true → frameOf (frameHeader f) = frameHead f) ∧
  (∀ m : WMsg, m.wf = true → winOf (winHeader m) = winHead m) ∧
  (∀ k : Pkt, k.wf = true → pktOf (pktBytes k) = k) ∧
  (∀ l : List Nat, unstuff (l.flatMap (fun b => if b = 0x7E then [0x7D, 0x5E] else if b = 0x7D then [0x7D, 0x5D] else [b])) = some l)

/-- The slice, the set and the tag of a global address are the bits that the rule names, an address follows from them with
its byte, and 16 consecutive lines of 1 KiB lie in 16 slices. -/
def Obligations.ValePlacement : Prop :=
  (∀ ga : Nat, valeSlice ga = bits ga 6 4 ^^^ (bits ga 12 4 ^^^ (bits ga 16 4 ^^^ (bits ga 20 4 ^^^ (bits ga 24 4 ^^^ (bits ga 28 4 ^^^
    (bits ga 32 4 ^^^ (bits ga 36 4 ^^^ (bits ga 40 4 ^^^ (bits ga 44 4 ^^^ (bits ga 48 4 ^^^ bits ga 52 4))))))))))) ∧
  (∀ ga : Nat, valeSet ga = bits ga 10 12 ^^^ bits ga 22 12) ∧
  (∀ x y : Nat, x < 2 ^ 56 → y < 2 ^ 56 → valeSlice x = valeSlice y → valeSet x = valeSet y → bits x 22 34 = bits y 22 34 →
    x % 64 = y % 64 → x = y) ∧
  (∀ (ga i j : Nat), ga % 1024 = 0 → i < 16 → j < 16 → valeSlice (ga + 64 * i) = valeSlice (ga + 64 * j) → i = j)

/-- A local address of DRAM below the hole or in the relocated gigabyte has the decode address of spec/01 R27, CXL memory
its own, and no other range has one; the home slice is the XOR of the eight groups of R28, one for each 4 KiB; slice,
set, tag, block and byte of R29 determine the address; and in each channel mode the ordinal and channel page of R30,
with the byte of the page, do. -/
def Obligations.HomePlacement : Prop :=
  (∀ (s : State) (a : Nat), a < 2 ^ 44 → s.rangeOf a =
    (if a < min s.cap 0xC0000000 ∨ (0x100000000 ≤ a ∧ a < s.cap) then .dram a
     else if a < 0xC0000000 then .unbacked else if a < 0x100000000 then .mmio
     else if s.cap ≤ a ∧ a < s.cap + 2 ^ 30 ∧ s.get R.PKG_MEMMAP_HOLE_WITHHELD = 0 ∧ 0 < s.cap then .dram (a - s.cap + 0xC0000000)
     else if a < 0x80000000000 then .unbacked else if a < 0xC0000000000 then .cxl a else if a < 0xF0000000000 then .mmio
     else if a < 0xF0003000000 then .irq else if a < 0xFFE00000000 then .reserved
     else if a < 0xFFE10000000 then .ecam (a % 2 ^ 28) else if a < 0xFFF00000000 then .reserved
     else if a < 0xFFF10000000 then .prs (a % 2 ^ 28) else .reserved)) ∧
  (∀ d : Nat, sliceOf d = bits d 12 4 ^^^ (bits d 16 4 ^^^ (bits d 20 4 ^^^ (bits d 24 4 ^^^ (bits d 28 4 ^^^ (bits d 32 4 ^^^
    (bits d 36 4 ^^^ bits d 40 4))))))) ∧ (∀ d : Nat, sliceOf d = sliceOf (d / 4096 * 4096)) ∧
  (∀ x y : Nat, x < 2 ^ 44 → y < 2 ^ 44 → sliceOf x = sliceOf y → mesaSet x = mesaSet y → mesaTag x = mesaTag y → mesaBlk x = mesaBlk y →
    x % 64 = y % 64 → x = y) ∧
  (∀ m x y : Nat, m ≤ 3 → x < 2 ^ 43 → y < 2 ^ 43 → chanPlace m x = chanPlace m y → x % 4096 = y % 4096 → x = y) ∧
  (∀ x : Nat, chanPlace 0 x = (sliceOf x, x / 4096 / 16) ∧ chanPlace 1 x = (x / 4096 % 12, x / 4096 / 12) ∧
    chanPlace 2 x = (sliceOf x - sliceOf x % 2, x / 4096 / 16 * 2 + sliceOf x % 2) ∧ chanPlace 3 x = (x / 4096 % 15, x / 4096 / 15))

/-- On every array, one bad cell at a stored position is found at its place, two bad cells are never taken for one or for
none, and a marked 64-byte block with no bad cell reads as the marker (spec/14 R324, R325, R328). -/
def Obligations.ProductCode : Prop :=
  (∀ (x : ArrLoc) (p : Nat × Nat), (gridOf x).stored p = true → (gridOf x).decode ((gridOf x).syndromes false [p]) = .one p) ∧
  (∀ (x : ArrLoc) (p q : Nat × Nat), (gridOf x).stored p = true → (gridOf x).stored q = true → p ≠ q →
    (gridOf x).decode ((gridOf x).syndromes false [p, q]) = .bad) ∧
  (∀ x : ArrLoc, (gridOf x).n = 512 → (gridOf x).decode ((gridOf x).syndromes true []) = .marker) ∧
  (∀ x : ArrLoc, (gridOf x).decode ((gridOf x).syndromes false []) = .clean)

/-- Answering a queued command stores its response under its tag on its ingress and nowhere else; QUERY_TAG sends a stored
response again, unchanged, as the answer, and otherwise is answered with its own tag and the status IN_PROGRESS or
NOT_FOUND. -/
def Obligations.StoredResponses : Prop :=
  (∀ (s : State) (c : QCmd) (st aux : Nat) (data : List Nat),
    Tbl.get (fun _ => none) ((s.complete c st aux data).ing c.ing).stored c.pkt.tag = some (rspPkt c.pkt st aux data) ∧
    (∀ u, u ≠ c.pkt.tag → Tbl.get (fun _ => none) ((s.complete c st aux data).ing c.ing).stored u = Tbl.get (fun _ => none) (s.ing c.ing).stored u) ∧
    (∀ g, g ≠ c.ing → (s.complete c st aux data).ing g = s.ing g)) ∧
  (∀ (g : Ingress) (k r : Pkt) (q : List Pkt) (s : State), s.Serves g opQUERY_TAG k q → k.data ≠ [] →
    Tbl.get (fun _ => none) (s.ing g).stored (k.data.headD 0) = some r →
    Completes (.queryTag g) s fun t => t.sentOn g = s.sentOn g ++ [r] ∧ (t.ing g).stored = (s.ing g).stored) ∧
  (∀ (g : Ingress) (k : Pkt) (q : List Pkt) (s : State), s.Serves g opQUERY_TAG k q → k.data ≠ [] →
    Tbl.get (fun _ => none) (s.ing g).stored (k.data.headD 0) = none →
    Completes (.queryTag g) s fun t => (t.sentOn g).getLast?.map (fun r => (r.typ, r.tag, r.status)) =
      some (1, k.tag, if (s.queuedOf g).any (fun c => c.pkt.tag == k.data.headD 0) then stIN_PROGRESS else stNOT_FOUND))

/-- While FREEZE is 1 no event changes anything of any uncore bank; COUNTER_FREEZE and COUNTER_UNFREEZE set and clear it
at one instant of GTIME, changing no count; and what a core counts of cycles and events is the same whatever FREEZE
is. -/
def Obligations.CountersWhileFrozen : Prop :=
  (∀ (s : State) (b ev : Nat) (item : Option Nat) (ids : Option (Nat × Nat)) (n : Nat),
    s.get R.CCOL_CTL_FREEZE = 1 → s.count b ev item ids n = s) ∧
  (∀ s : State, Completes .counterFreeze s fun t => t.get R.CCOL_CTL_FREEZE = 1 ∧ t.pwr = s.pwr ∧ s.OnlyRegs [R.rCCOL_CTL] t) ∧
  (∀ s : State, Completes .counterUnfreeze s fun t => t.get R.CCOL_CTL_FREEZE = 0 ∧ t.pwr = s.pwr ∧ s.OnlyRegs [R.rCCOL_CTL] t) ∧
  (∀ (s : State) (v n h : Nat), ((s.put R.CCOL_CTL_FREEZE v).elapse n).reg (R.rmcycle h) = (s.elapse n).reg (R.rmcycle h)) ∧
  (∀ (s : State) (v : Nat) (h i : Nat) (p : Priv) (ev : Nat),
    ((s.put R.CCOL_CTL_FREEZE v).hpm h p ev).reg (R.rmhpmcounter h i) = (s.hpm h p ev).reg (R.rmhpmcounter h i))

/-- A counter takes an addition modulo 2^48, and the carry sets OVF, which an addition never clears (spec/18 R406); a wrap
of a counter whose OVF_IRQ is 1 sets its bank's bit in CCOL_OVF_PEND, and one that sets the bit anew sends the MSI of
the CCOL registers while MSI_ENABLE is 1 (R412). -/
def Obligations.CounterAddition : Prop :=
  ∀ (s : State) (b j n : Nat), b < 354 → j < bankCounters b →
    let t := s.ctrAdd b j n
    let fs := [R.CCOL_COUNT_COUNT b j, R.CCOL_COUNT_OVF b j, R.CCOL_OVF_PEND_PEND (b / 64)]
    let new := decide (2 ^ 48 ≤ s.get (R.CCOL_COUNT_COUNT b j) + n) && s.get (R.CCOL_SELECT_OVF_IRQ b j) == 1 &&
      !(s.get (R.CCOL_OVF_PEND_PEND (b / 64))).testBit (b % 64)
    t.get (R.CCOL_COUNT_COUNT b j) = (s.get (R.CCOL_COUNT_COUNT b j) + n) % 2 ^ 48 ∧
    t.get (R.CCOL_COUNT_OVF b j) = (if 2 ^ 48 ≤ s.get (R.CCOL_COUNT_COUNT b j) + n then 1 else s.get (R.CCOL_COUNT_OVF b j)) ∧
    (t.get (R.CCOL_OVF_PEND_PEND (b / 64))).testBit (b % 64) =
      ((s.get (R.CCOL_OVF_PEND_PEND (b / 64))).testBit (b % 64) || new) ∧
    ((s.get R.CCOL_CTL_MSI_ENABLE = 0 ∨ new = false) → s.OnlyFields fs t ∧ s.Only [.regs] t) ∧
    (s.get R.CCOL_CTL_MSI_ENABLE = 1 → new = true → ∃ u, s.OnlyFields fs u ∧ s.Only [.regs] u ∧
      t = u.sendMsi (s.get R.CCOL_MSI_ADDR_ADDR * 4) (s.get R.CCOL_MSI_DATA_DATA) 1)

/-- A flit has 256 bytes whose CRC passes, whatever it carries (spec/06 R145); read from them, a PAYLOAD flit has the
messages that stand at its slots with the fields that each carries (R147), and a CONTROL flit its CTYPE, its attempt
counter and its argument bytes, with zeros behind them (R150). Byte k travels on logical lane k mod W in ascending
order, and scrambling a lane twice with the same register gives its bits back (R144). A flit on whose lanes no bit is
inverted is heard as it was sent. A training word passes its CRC, has its three fields, and is heard where one lane
carries it (R155). -/
def Obligations.FlitsOnTheLanes : Prop :=
  (∀ (f : Flit) (args : List Nat), flitWire f args < 2 ^ 2048 ∧ flitGood (flitWire f args) = true) ∧
  (∀ (f : Flit) (args : List Nat), f.wf = true → f.typ = 0 → slotStarts 0 f.msgs = some f.slotStart →
    (flitRead (flitWire f args)).1 = { flitHead f with msgs := f.msgs.map linkCarried }) ∧
  (∀ (f : Flit) (args : List Nat), f.wf = true → f.typ = 1 → bytesWf args = true → args.length ≤ 238 →
    flitRead (flitWire f args) =
      ({ flitHead f with ctype := f.ctype, att := f.att }, args ++ List.replicate (238 - args.length) 0)) ∧
  (∀ (f : Flit) (args : List Nat), f.wf = true → f.typ = 2 → (flitRead (flitWire f args)).1 = flitHead f) ∧
  (∀ w i j n : Nat, w ∣ 256 → i < w → j < 256 / w → bits (laneData w i n) (8 * j) 8 = bits n (8 * (i + j * w)) 8) ∧
  (∀ i pos n v : Nat, scramble i pos n (scramble i pos n v) = v % 2 ^ n) ∧
  (∀ (map : List Nat) (f : Flit) (args : List Nat), f.err = [] → flitHeard map f args = some (f, args)) ∧
  (∀ kind att body : Nat, kind < 2 ^ 8 → att < 2 ^ 8 → body < 2 ^ 208 → tsGood (tsWord kind att body) = true ∧
    tsKind (tsWord kind att body) = kind ∧ tsAtt (tsWord kind att body) = att ∧ tsBody (tsWord kind att body) = body) ∧
  (∀ lanes kind att body l : Nat, l < 68 → lanes.testBit l = true →
    tsHeard lanes kind att body [] = .word (tsWord kind att body))
end

