-- ==== Sys2Proof/Laws/Tbl.lean ====
section
/-!
SUPPORT. Laws of sparse tables: what a key reads after a write, and that every operation keeps the canonical form.
-/

namespace Sys2Proof.Machine

variable {α : Type}

theorem Tbl.get_erase_self (d : Nat → α) (t : Tbl α) (k : Nat) : Tbl.get d (Tbl.erase t k) k = d k := by
  induction t with
  | nil => rfl
  | cons e t ih =>
    obtain ⟨j, u⟩ := e
    by_cases h : j = k
    · simpa [Tbl.erase, h] using ih
    · have h' : k ≠ j := fun e => h e.symm
      simpa [Tbl.erase, h, Tbl.get, h'] using ih

theorem Tbl.get_erase_of_ne (d : Nat → α) (t : Tbl α) {k j : Nat} (h : j ≠ k) :
    Tbl.get d (Tbl.erase t k) j = Tbl.get d t j := by
  induction t with
  | nil => rfl
  | cons e t ih =>
    obtain ⟨i, u⟩ := e
    have hcons : Tbl.get d ((i, u) :: t) j = if j = i then u else Tbl.get d t j := rfl
    by_cases hi : i = k
    · subst hi
      rw [hcons, if_neg h]
      simpa [Tbl.erase] using ih
    · have he : Tbl.erase ((i, u) :: t) k = (i, u) :: Tbl.erase t k := by simp [Tbl.erase, hi]
      rw [he, hcons]
      simp [Tbl.get, ih]

theorem Tbl.get_insert_self (d : Nat → α) (t : Tbl α) (k : Nat) (v : α)
    (hk : ∀ e ∈ t, e.1 ≠ k) : Tbl.get d (Tbl.insert t k v) k = v := by
  induction t with
  | nil => simp [Tbl.insert, Tbl.get]
  | cons e t ih =>
    obtain ⟨j, u⟩ := e
    have hj : k ≠ j := fun e => hk (j, u) (by simp) e.symm
    have ih' := ih (fun e he => hk e (by simp [he]))
    by_cases h1 : k < j
    · simp [Tbl.insert, h1, Tbl.get]
    · simp [Tbl.insert, h1, Tbl.get, hj, ih']

theorem Tbl.get_insert_of_ne (d : Nat → α) (t : Tbl α) {k j : Nat} (v : α) (h : j ≠ k) :
    Tbl.get d (Tbl.insert t k v) j = Tbl.get d t j := by
  induction t with
  | nil => simp [Tbl.insert, Tbl.get, h]
  | cons e t ih =>
    obtain ⟨i, u⟩ := e
    by_cases h1 : k < i
    · simp [Tbl.insert, h1, Tbl.get, h]
    · simp [Tbl.insert, h1, Tbl.get, ih]

theorem Tbl.ne_of_mem_erase {t : Tbl α} {k : Nat} {e : Nat × α} (h : e ∈ Tbl.erase t k) : e.1 ≠ k := by
  simpa using (List.mem_filter.mp h).2

/-- A key reads what was last written to it. -/
@[simp] theorem Tbl.get_set_self [DecidableEq α] (d : Nat → α) (t : Tbl α) (k : Nat) (v : α) :
    Tbl.get d (Tbl.set d t k v) k = v := by
  unfold Tbl.set
  split
  · rename_i h
    rw [Tbl.get_erase_self, h]
  · exact Tbl.get_insert_self d _ k v (fun e he => Tbl.ne_of_mem_erase he)

/-- A write leaves every other key alone. -/
theorem Tbl.get_set_of_ne [DecidableEq α] (d : Nat → α) (t : Tbl α) {k j : Nat} (v : α) (h : j ≠ k) :
    Tbl.get d (Tbl.set d t k v) j = Tbl.get d t j := by
  unfold Tbl.set
  split
  · exact Tbl.get_erase_of_ne d t h
  · rw [Tbl.get_insert_of_ne d _ v h, Tbl.get_erase_of_ne d t h]

theorem Tbl.get_set [DecidableEq α] (d : Nat → α) (t : Tbl α) (k j : Nat) (v : α) :
    Tbl.get d (Tbl.set d t k v) j = if j = k then v else Tbl.get d t j := by
  split
  · rename_i h
    rw [h, Tbl.get_set_self]
  · rename_i h
    exact Tbl.get_set_of_ne d t v h

@[simp] theorem Tbl.get_upd_self [DecidableEq α] (d : Nat → α) (t : Tbl α) (k : Nat) (f : α → α) :
    Tbl.get d (Tbl.upd d t k f) k = f (Tbl.get d t k) := Tbl.get_set_self d t k _

theorem Tbl.get_upd_of_ne [DecidableEq α] (d : Nat → α) (t : Tbl α) {k j : Nat} (f : α → α) (h : j ≠ k) :
    Tbl.get d (Tbl.upd d t k f) j = Tbl.get d t j := Tbl.get_set_of_ne d t _ h

/-- Entries that a test of their key leaves out read as unlisted. -/
theorem Tbl.get_filter_key (d : Nat → α) (q : Nat → Bool) (t : Tbl α) (k : Nat) :
    Tbl.get d (t.filter (fun e => q e.1)) k = if q k then Tbl.get d t k else d k := by
  induction t with
  | nil => simp [Tbl.get]
  | cons e t ih =>
    obtain ⟨j, u⟩ := e
    by_cases hq : q j
    · simp only [List.filter_cons, hq, if_true, Tbl.get, ih]
      by_cases hk : k = j
      · simp [hk, hq]
      · simp [hk]
    · have e : List.filter (fun e : Nat × α => q e.1) ((j, u) :: t) = List.filter (fun e => q e.1) t := by simp [hq]
      rw [e, ih]
      by_cases hk : k = j
      · simp [hk, hq]
      · simp [hk, Tbl.get]

/-! ## The canonical form -/

theorem Tbl.okFrom_mono [DecidableEq α] (d : Nat → α) {lo lo' : Nat} (h : lo ≤ lo') {t : Tbl α}
    (ht : Tbl.okFrom d lo' t = true) : Tbl.okFrom d lo t = true := by
  cases t with
  | nil => rfl
  | cons e t =>
    obtain ⟨k, v⟩ := e
    simp only [Tbl.okFrom, Bool.and_eq_true, decide_eq_true_eq] at ht ⊢
    exact ⟨⟨Nat.le_trans h ht.1.1, ht.1.2⟩, ht.2⟩

/-- Leaving entries out keeps the form. -/
theorem Tbl.okFrom_filter [DecidableEq α] (d : Nat → α) (p : Nat × α → Bool) (t : Tbl α) :
    ∀ lo, Tbl.okFrom d lo t = true → Tbl.okFrom d lo (t.filter p) = true := by
  induction t with
  | nil => intro lo _; rfl
  | cons e t ih =>
    obtain ⟨k, v⟩ := e
    intro lo h
    simp only [Tbl.okFrom, Bool.and_eq_true, decide_eq_true_eq] at h
    by_cases hp : p (k, v)
    · simp only [List.filter_cons, hp, if_true, Tbl.okFrom, Bool.and_eq_true, decide_eq_true_eq]
      exact ⟨h.1, ih _ h.2⟩
    · simp only [List.filter_cons, hp]
      exact Tbl.okFrom_mono d (Nat.le_succ_of_le h.1.1) (ih _ h.2)

theorem Tbl.okFrom_insert [DecidableEq α] (d : Nat → α) {k : Nat} {v : α} (hv : v ≠ d k) (t : Tbl α) :
    ∀ lo, lo ≤ k → (∀ e ∈ t, e.1 ≠ k) → Tbl.okFrom d lo t = true → Tbl.okFrom d lo (Tbl.insert t k v) = true := by
  induction t with
  | nil => intro lo h _ _; simp [Tbl.insert, Tbl.okFrom, h, hv]
  | cons e t ih =>
    obtain ⟨j, u⟩ := e
    intro lo hk hne h
    simp only [Tbl.okFrom, Bool.and_eq_true, decide_eq_true_eq] at h
    have hj : j ≠ k := hne (j, u) (by simp)
    by_cases h1 : k < j
    · simp only [Tbl.insert, h1, if_true, Tbl.okFrom, Bool.and_eq_true, decide_eq_true_eq]
      exact ⟨⟨hk, hv⟩, ⟨h1, h.1.2⟩, h.2⟩
    · simp only [Tbl.insert, h1, if_false, Tbl.okFrom, Bool.and_eq_true, decide_eq_true_eq]
      exact ⟨h.1, ih (j + 1) (by omega) (fun e he => hne e (by simp [he])) h.2⟩

theorem Tbl.wf_filter [DecidableEq α] (d : Nat → α) (p : Nat × α → Bool) {t : Tbl α} (h : Tbl.wf d t = true) :
    Tbl.wf d (t.filter p) = true := Tbl.okFrom_filter d p t 0 h

/-- A write keeps the canonical form. -/
theorem Tbl.wf_set [DecidableEq α] (d : Nat → α) {t : Tbl α} (k : Nat) (v : α) (h : Tbl.wf d t = true) :
    Tbl.wf d (Tbl.set d t k v) = true := by
  unfold Tbl.set
  split
  · exact Tbl.wf_filter d _ h
  · rename_i hv
    exact Tbl.okFrom_insert d hv _ 0 (Nat.zero_le _) (fun e he => Tbl.ne_of_mem_erase he) (Tbl.wf_filter d _ h)

theorem Tbl.wf_upd [DecidableEq α] (d : Nat → α) {t : Tbl α} (k : Nat) (f : α → α) (h : Tbl.wf d t = true) :
    Tbl.wf d (Tbl.upd d t k f) = true := Tbl.wf_set d k _ h

/-- Entries that are dropped or changed in place keep the form, where no changed entry is a default. -/
theorem Tbl.wf_filterMap [DecidableEq α] (d : Nat → α) (g : Nat × α → Option (Nat × α))
    (hg : ∀ e f, g e = some f → f.1 = e.1 ∧ f.2 ≠ d f.1) {t : Tbl α} (h : Tbl.wf d t = true) :
    Tbl.wf d (t.filterMap g) = true := by
  have key : ∀ lo, Tbl.okFrom d lo t = true → Tbl.okFrom d lo (t.filterMap g) = true := by
    clear h
    induction t with
    | nil => intro lo _; rfl
    | cons e t ih =>
      intro lo h
      simp only [Tbl.okFrom, Bool.and_eq_true, decide_eq_true_eq] at h
      cases hf : g e with
      | none =>
        simp only [List.filterMap_cons, hf]
        exact Tbl.okFrom_mono d (Nat.le_succ_of_le h.1.1) (ih _ h.2)
      | some f =>
        obtain ⟨h1, h2⟩ := hg e f hf
        simp only [List.filterMap_cons, hf, Tbl.okFrom, Bool.and_eq_true, decide_eq_true_eq]
        exact ⟨⟨h1 ▸ h.1.1, h2⟩, h1 ▸ ih _ h.2⟩
  exact key 0 h

@[simp] theorem Tbl.wf_nil [DecidableEq α] (d : Nat → α) : Tbl.wf d ([] : Tbl α) = true := rfl

end Sys2Proof.Machine
end

