-- ==== Sys2Proof/Laws/Frame.lean ====
section
/-!
SUPPORT. The rules by which a function is shown to keep the queue, the canonical forms and the parts it does not write
(`State.Frame`, Safety.lean): reflexivity, the control structures, the record update, and the operations that write memory or a
register. The files Laws/Frame<module>.lean hold one such lemma for each function of Machine/<module>.lean.
-/

namespace Sys2Proof.Machine

variable {P : Part → Prop}

theorem State.Frame.refl (s : State) : s.Frame P s := ⟨rfl, id, fun p _ => by cases p <;> rfl⟩

theorem State.samePart_trans {p : Part} {s t u : State} (h : s.samePart p t) (g : t.samePart p u) : s.samePart p u := by
  cases p <;> exact Eq.trans g h

theorem State.Frame.trans {s t u : State} (h : s.Frame P t) (g : t.Frame P u) : s.Frame P u :=
  ⟨g.1.trans h.1, fun o => g.2.1 (h.2.1 o), fun p hp => State.samePart_trans (h.2.2 p hp) (g.2.2 p hp)⟩

/-- An update of fields that are neither the queue, memory nor the registers, all of them in `P`. -/
theorem f_mk {s x : State} (h : s.Frame P x) {marked net free core die home pass chan mesa meter qos hzn xce io ras tvx pwr ccol}
    (hs : ∀ p, ¬ P p → x.samePart p (State.mk x.pending x.regs x.mem marked net free core die home pass chan mesa meter qos hzn
      xce io ras tvx pwr ccol)) :
    s.Frame P (State.mk x.pending x.regs x.mem marked net free core die home pass chan mesa meter qos hzn xce io ras tvx pwr
      ccol) := h.trans ⟨rfl, id, hs⟩

/-- Registers that return to their reset values. -/
theorem f_regs {s x : State} (h : s.Frame P x) {q : Nat × Word → Bool}
    {marked net free core die home pass chan mesa meter qos hzn xce io ras tvx pwr ccol}
    (hs : ∀ p, ¬ P p → x.samePart p (State.mk x.pending (x.regs.filter q) x.mem marked net free core die home pass chan mesa
      meter qos hzn xce io ras tvx pwr ccol)) :
    s.Frame P (State.mk x.pending (x.regs.filter q) x.mem marked net free core die home pass chan mesa meter qos hzn xce io ras
      tvx pwr ccol) := h.trans ⟨rfl, fun o => ⟨o.1, Tbl.wf_filter _ _ o.2⟩, hs⟩

/-- Memory bytes that return to zero. -/
theorem f_mem {s x : State} (h : s.Frame P x) {q : Host.Cell → Bool}
    {marked net free core die home pass chan mesa meter qos hzn xce io ras tvx pwr ccol}
    (hs : ∀ p, ¬ P p → x.samePart p (State.mk x.pending x.regs (x.mem.filter q) marked net free core die home pass chan mesa
      meter qos hzn xce io ras tvx pwr ccol)) :
    s.Frame P (State.mk x.pending x.regs (x.mem.filter q) marked net free core die home pass chan mesa meter qos hzn xce io ras
      tvx pwr ccol) := h.trans ⟨rfl, fun o => ⟨Tbl.wf_filter _ _ o.1, o.2⟩, hs⟩

theorem f_ite {s a b : State} {c : Prop} [Decidable c] (ha : s.Frame P a) (hb : s.Frame P b) :
    s.Frame P (if c then a else b) := by split <;> assumption

theorem f_ite_fst {α : Type} {s : State} {a b : State × α} {c : Prop} [Decidable c] (ha : s.Frame P a.1)
    (hb : s.Frame P b.1) : s.Frame P (if c then a else b).1 := by split <;> assumption

theorem f_ite_snd {α : Type} {s : State} {a b : α × State} {c : Prop} [Decidable c] (ha : s.Frame P a.2)
    (hb : s.Frame P b.2) : s.Frame P (if c then a else b).2 := by split <;> assumption

theorem f_foldl {α : Type} {s x : State} {l : List α} {f : State → α → State} (h : s.Frame P x)
    (hf : ∀ (t : State) a, t.Frame P (f t a)) : s.Frame P (l.foldl f x) := by
  induction l generalizing x with
  | nil => exact h
  | cons a l ih => exact ih (h.trans (hf x a))

theorem f_foldN {s x : State} {n : Nat} {f : Nat → State → State} (h : s.Frame P x)
    (hf : ∀ i (t : State), t.Frame P (f i t)) : s.Frame P (foldN n x f) := f_foldl h (fun t i => hf i t)

theorem f_foldl_fst {α β : Type} {s : State} {x : State × β} {l : List α} {f : State × β → α → State × β}
    (h : s.Frame P x.1) (hf : ∀ (t : State × β) a, t.1.Frame P (f t a).1) : s.Frame P (l.foldl f x).1 := by
  induction l generalizing x with
  | nil => exact h
  | cons a l ih => exact ih (h.trans (hf x a))

theorem f_foldl_snd {α β : Type} {s : State} {x : β × State} {l : List α} {f : β × State → α → β × State}
    (h : s.Frame P x.2) (hf : ∀ (t : β × State) a, t.2.Frame P (f t a).2) : s.Frame P (l.foldl f x).2 := by
  induction l generalizing x with
  | nil => exact h
  | cons a l ih => exact ih (h.trans (hf x a))

theorem f_foldN_snd {β : Type} {s : State} {n : Nat} {x : β × State} {f : Nat → β × State → β × State} (h : s.Frame P x.2)
    (hf : ∀ i (t : β × State), t.2.Frame P (f i t).2) : s.Frame P (foldN n x f).2 := f_foldl_snd h (fun t i => hf i t)

theorem f_foldN_fst {β : Type} {s : State} {n : Nat} {x : State × β} {f : Nat → State × β → State × β} (h : s.Frame P x.1)
    (hf : ∀ i (t : State × β), t.1.Frame P (f i t).1) : s.Frame P (foldN n x f).1 := f_foldl_fst h (fun t i => hf i t)

theorem f_id {s x : State} (h : s.Frame P x) : s.Frame P (id x) := h

/-- The state of a pair. -/
theorem f_of_snd {α : Type} {s t : State} {a : α} {p : α × State} (e : p = (a, t)) (h : s.Frame P p.2) : s.Frame P t := by
  rw [e] at h; exact h

theorem f_of_fst {α : Type} {s t : State} {a : α} {p : State × α} (e : p = (t, a)) (h : s.Frame P p.1) : s.Frame P t := by
  rw [e] at h; exact h

theorem f_map_snd {α β : Type} {s : State} {g : α → β} {f : State → State} {p : α × State} (h : s.Frame P (f p.2)) :
    s.Frame P (Prod.map g f p).2 := h

theorem f_map_fst {α β : Type} {s : State} {g : α → β} {f : State → State} {p : State × α} (h : s.Frame P (f p.1)) :
    s.Frame P (Prod.map f g p).1 := h

/-! ## States that may be absent, and outcomes -/

def FrameOpt (P : Part → Prop) (s : State) (o : Option State) : Prop := ∀ t, o = some t → s.Frame P t

theorem f_of_some {s t : State} {o : Option State} (e : o = some t) (h : FrameOpt P s o) : s.Frame P t := h t e

theorem fp_some {s t : State} (h : s.Frame P t) : FrameOpt P s (some t) := by
  intro u e; cases e; exact h

theorem fp_none {s : State} : FrameOpt P s none := by intro u e; cases e

theorem fp_ite {s : State} {a b : Option State} {c : Prop} [Decidable c] (ha : FrameOpt P s a) (hb : FrameOpt P s b) :
    FrameOpt P s (if c then a else b) := by split <;> assumption

theorem fo_next {s t : State} (h : s.Frame P t) : FrameOut P s (.next t) := by
  intro u e; cases e; exact h

theorem f_of_next {s t : State} {o : Out} (e : o = .next t) (h : FrameOut P s o) : s.Frame P t := h t e

theorem fo_fault {s : State} {f : Fault} : FrameOut P s (.fault f) := by intro u e; cases e

theorem fo_ite {s : State} {a b : Out} {c : Prop} [Decidable c] (ha : FrameOut P s a) (hb : FrameOut P s b) :
    FrameOut P s (if c then a else b) := by split <;> assumption

theorem fo_foldl {α : Type} {s : State} {o : Out} {l : List α} {g : Out → α → Out} (h : FrameOut P s o)
    (hg : ∀ (o : Out) a, FrameOut P s o → FrameOut P s (g o a)) : FrameOut P s (l.foldl g o) := by
  induction l generalizing o with
  | nil => exact h
  | cons a l ih => exact ih (hg o a h)

/-! ## The operations that write memory or a register -/

theorem State.setReg_frame {s x : State} {a : Nat} {v : Word} (h : s.Frame P x) (pR : P .regs) : s.Frame P (x.setReg a v) :=
  h.trans ⟨rfl, fun o => ⟨o.1, Tbl.wf_set _ _ _ o.2⟩, fun p hp => by cases p <;> first | rfl | exact absurd pR hp⟩

theorem memWrite_wf {m : List Host.Cell} (h : Memory.wf m = true) (a n v : Nat) : Memory.wf (memWrite m a n v) = true := by
  induction n generalizing m a v with
  | zero => exact h
  | succ n ih => exact ih (Tbl.wf_set memDefault a _ h) _ _

theorem State.setLineAt_frame {s x : State} {a : Nat} {l : Line} (h : s.Frame P x) (pM : P .mem) (pK : P .marked) :
    s.Frame P (x.setLineAt a l) :=
  h.trans ⟨rfl, fun o => ⟨memWrite_wf o.1 _ _ _, o.2⟩, fun p hp => by
    cases p <;> first | rfl | exact absurd pM hp | exact absurd pK hp⟩

end Sys2Proof.Machine
end

