-- ==== Sys2Proof/Laws/FrameOps.lean ====
section
/-!
SUPPORT. What each function of Machine/Ops.lean leaves alone (`State.Frame`, Safety.lean): one lemma for each.
-/

namespace Sys2Proof.Machine

variable {P : Part → Prop}

theorem State.put_frame {s0 : State} {s : State} {f : FRef} {n : Nat} (h0 : s0.Frame P s) (p_regs : P .regs) :
    s0.Frame P (State.put s f n) := by
  unfold State.put
  try dsimp only
  with_reducible repeat' (first | intro _ | assumption | exact State.Frame.refl _ | apply State.setReg_frame)

theorem State.putB_frame {s0 : State} {s : State} {f : FRef} {b : Bool} (h0 : s0.Frame P s) (p_regs : P .regs) :
    s0.Frame P (State.putB s f b) := by
  unfold State.putB
  try dsimp only
  with_reducible repeat' (first | intro _ | assumption | exact State.Frame.refl _ | apply State.put_frame)

theorem State.putBit_frame {s0 : State} {s : State} {f : FRef} {i : Nat} {b : Bool} (h0 : s0.Frame P s) (p_regs : P .regs) :
    s0.Frame P (State.putBit s f i b) := by
  unfold State.putBit
  try dsimp only
  with_reducible repeat' (first | intro _ | assumption | exact State.Frame.refl _ | apply State.put_frame)

theorem State.bump_frame {s0 : State} {s : State} {f : FRef} {n : Nat} (h0 : s0.Frame P s) (p_regs : P .regs) :
    s0.Frame P (State.bump s f n) := by
  unfold State.bump
  try dsimp only
  with_reducible repeat' (first | intro _ | assumption | exact State.Frame.refl _ | apply State.put_frame)

theorem State.wrapAdd_frame {s0 : State} {s : State} {f : FRef} {n : Nat} (h0 : s0.Frame P s) (p_regs : P .regs) :
    s0.Frame P (State.wrapAdd s f n) := by
  unfold State.wrapAdd
  try dsimp only
  with_reducible repeat' (first | intro _ | assumption | exact State.Frame.refl _ | apply State.put_frame)

theorem State.freeWord_frame {s0 : State} {s : State} (h0 : s0.Frame P s) (p_free : P .free) :
    s0.Frame P (State.freeWord s).2 := by
  unfold State.freeWord
  try dsimp only
  with_reducible repeat' (first
    | (intro (p : Part) hp; cases p <;> first | rfl | contradiction) | intro _ | assumption | exact State.Frame.refl _
    | apply f_mk)

theorem State.freeLine_frame {s0 : State} {s : State} (h0 : s0.Frame P s) (p_free : P .free) :
    s0.Frame P (State.freeLine s).2 := by
  unfold State.freeLine
  try dsimp only
  with_reducible repeat' (first
    | (intro (p : Part) hp; cases p <;> first | rfl | contradiction) | intro _ | assumption | exact State.Frame.refl _
    | apply f_mk)

theorem State.freeBit_frame {s0 : State} {s : State} (h0 : s0.Frame P s) (p_free : P .free) :
    s0.Frame P (State.freeBit s).2 := by
  unfold State.freeBit
  try dsimp only
  with_reducible repeat' (first
    | (intro (p : Part) hp; cases p <;> first | rfl | contradiction) | intro _ | assumption | exact State.Frame.refl _
    | apply f_mk)

theorem State.freeSpan_frame {s0 : State} {s : State} {n : Nat} (h0 : s0.Frame P s) (p_free : P .free) :
    s0.Frame P (State.freeSpan s n).2 := by
  unfold State.freeSpan
  try dsimp only
  with_reducible repeat' (first
    | (intro (p : Part) hp; cases p <;> first | rfl | contradiction) | intro _ | assumption | exact State.Frame.refl _
    | apply f_foldl | apply f_foldl_snd | apply f_mk)

theorem State.markAt_frame {s0 : State} {s : State} {a : Nat} (h0 : s0.Frame P s) (p_marked : P .marked) :
    s0.Frame P (State.markAt s a) := by
  unfold State.markAt
  try dsimp only
  with_reducible repeat' (first
    | (intro (p : Part) hp; cases p <;> first | rfl | contradiction) | intro _ | assumption | exact State.Frame.refl _
    | apply f_mk)

theorem State.setHart_frame {s0 : State} {s : State} {h : Nat} {x : HartSt} (h0 : s0.Frame P s) (p_core : P .core) :
    s0.Frame P (State.setHart s h x) := by
  unfold State.setHart
  try dsimp only
  with_reducible repeat' (first
    | (intro (p : Part) hp; cases p <;> first | rfl | contradiction) | intro _ | assumption | exact State.Frame.refl _
    | apply f_mk)

theorem State.takeTrap_frame {s0 : State} {s : State} {h : Nat} {p : Priv} {cause : Nat} {tval : Nat} {gpa : Nat}
    {epc : Word} (h0 : s0.Frame P s) (p_regs : P .regs) (p_core : P .core) :
    s0.Frame P (State.takeTrap s h p cause tval gpa epc) := by
  unfold State.takeTrap
  try dsimp only
  with_reducible repeat' (first
    | intro _ | assumption | exact State.Frame.refl _ | apply State.setHart_frame | apply State.setReg_frame
    | apply State.put_frame | apply State.putB_frame | apply f_ite | split)

theorem State.raiseNmi_frame {s0 : State} {s : State} {h : Nat} {cause : Nat} (h0 : s0.Frame P s) (p_regs : P .regs)
    (p_free : P .free) (p_core : P .core) :
    s0.Frame P (State.raiseNmi s h cause) := by
  unfold State.raiseNmi
  try dsimp only
  with_reducible repeat' (first
    | intro _ | assumption | exact State.Frame.refl _ | apply State.freeWord_frame | apply State.setReg_frame
    | apply State.putB_frame | apply State.put_frame | apply State.setHart_frame | apply f_ite | apply f_ite_fst
    | apply f_ite_snd | refine f_of_snd (by assumption) ?_ | refine f_of_fst (by assumption) ?_
    | refine f_of_some (by assumption) ?_ | split)

theorem State.fileDrop_frame {s0 : State} {s : State} {h : Nat} {rid : Nat} (h0 : s0.Frame P s) (p_regs : P .regs) :
    s0.Frame P (State.fileDrop s h rid) := by
  unfold State.fileDrop
  try dsimp only
  with_reducible repeat' (first | intro _ | assumption | exact State.Frame.refl _ | apply State.bump_frame | apply State.put_frame)

theorem State.fileSet_frame {s0 : State} {s : State} {h : Nat} {f : Nat} {id : Nat} (h0 : s0.Frame P s) (p_io : P .io) :
    s0.Frame P (State.fileSet s h f id) := by
  unfold State.fileSet
  try dsimp only
  with_reducible repeat' (first
    | (intro (p : Part) hp; cases p <;> first | rfl | contradiction) | intro _ | assumption | exact State.Frame.refl _
    | apply f_ite | apply f_mk)

theorem State.fileTake_frame {s0 : State} {s : State} {h : Nat} {f : Nat} {id : Nat} {rid : Nat} (h0 : s0.Frame P s)
    (p_regs : P .regs) (p_pass : P .pass) :
    s0.Frame P (State.fileTake s h f id rid) := by
  unfold State.fileTake
  try dsimp only
  with_reducible repeat' (first
    | (intro (p : Part) hp; cases p <;> first | rfl | contradiction) | intro _ | assumption | exact State.Frame.refl _
    | apply State.fileDrop_frame | apply f_ite | apply f_mk)

theorem State.setPending_frame {s0 : State} {s : State} {a : Nat} {v : Nat} {rid : Nat} (h0 : s0.Frame P s)
    (p_regs : P .regs) (p_pass : P .pass) :
    s0.Frame P (State.setPending s a v rid) := by
  unfold State.setPending
  try dsimp only
  with_reducible repeat' (first | intro _ | assumption | exact State.Frame.refl _ | apply State.fileTake_frame | apply f_ite)

theorem State.sendMsi_frame {s0 : State} {s : State} {ga : Nat} {data : Nat} {rid : Nat} (h0 : s0.Frame P s)
    (p_regs : P .regs) (p_pass : P .pass) :
    s0.Frame P (State.sendMsi s ga data rid) := by
  unfold State.sendMsi
  try dsimp only
  with_reducible repeat' (first | intro _ | assumption | exact State.Frame.refl _ | apply State.setPending_frame | apply f_ite)

theorem State.setIng_frame {s0 : State} {s : State} {g : Ingress} {x : IngSt} (h0 : s0.Frame P s) (p_tvx : P .tvx) :
    s0.Frame P (State.setIng s g x) := by
  unfold State.setIng
  try dsimp only
  with_reducible repeat' (first
    | (intro (p : Part) hp; cases p <;> first | rfl | contradiction) | intro _ | assumption | exact State.Frame.refl _
    | (apply f_mk; first | assumption | exact State.Frame.refl _) | split)

theorem State.sendPkt_frame {s0 : State} {s : State} {g : Ingress} {p : Pkt} (h0 : s0.Frame P s) (p_tvx : P .tvx) :
    s0.Frame P (State.sendPkt s g p) := by
  unfold State.sendPkt
  try dsimp only
  with_reducible repeat' (first
    | (intro (p : Part) hp; cases p <;> first | rfl | contradiction) | intro _ | assumption | exact State.Frame.refl _
    | (apply f_mk; first | assumption | exact State.Frame.refl _) | split)

theorem State.sendEvent_frame {s0 : State} {s : State} {g : Ingress} {e : LogEnt} (h0 : s0.Frame P s) (p_regs : P .regs)
    (p_tvx : P .tvx) :
    s0.Frame P (State.sendEvent s g e) := by
  unfold State.sendEvent
  try dsimp only
  with_reducible repeat' (first
    | intro _ | assumption | exact State.Frame.refl _ | apply State.sendPkt_frame | apply State.bump_frame | apply f_ite
    | split)

theorem State.writeLog_frame {s0 : State} {s : State} {e : LogEnt} (h0 : s0.Frame P s) (p_regs : P .regs) (p_tvx : P .tvx) :
    s0.Frame P (State.writeLog s e) := by
  unfold State.writeLog
  try dsimp only
  with_reducible repeat' (first
    | (intro (p : Part) hp; cases p <;> first | rfl | contradiction) | intro _ | assumption | exact State.Frame.refl _
    | apply State.sendEvent_frame | apply f_mk)

theorem State.logEvent_frame {s0 : State} {s : State} {code : Nat} {sev : Nat} {die : Nat} {index : Nat} {detail : Nat}
    (h0 : s0.Frame P s) (p_regs : P .regs) (p_tvx : P .tvx) :
    s0.Frame P (State.logEvent s code sev die index detail) := by
  unfold State.logEvent
  try dsimp only
  with_reducible repeat' (first
    | (intro (p : Part) hp; cases p <;> first | rfl | contradiction) | intro _ | assumption | exact State.Frame.refl _
    | apply State.writeLog_frame | apply f_ite | apply f_mk)

theorem State.flushLog_frame {s0 : State} {s : State} (h0 : s0.Frame P s) (p_regs : P .regs) (p_tvx : P .tvx) :
    s0.Frame P (State.flushLog s) := by
  unfold State.flushLog
  try dsimp only
  with_reducible repeat' (first
    | (intro (p : Part) hp; cases p <;> first | rfl | contradiction) | intro _ | assumption | exact State.Frame.refl _
    | apply State.writeLog_frame | apply f_ite | apply f_foldl | apply f_mk)

theorem State.setRec_frame {s0 : State} {s : State} {b : Nat} {i : Nat} {r : ErrRec} (h0 : s0.Frame P s) (p_ras : P .ras) :
    s0.Frame P (State.setRec s b i r) := by
  unfold State.setRec
  try dsimp only
  with_reducible repeat' (first
    | (intro (p : Part) hp; cases p <;> first | rfl | contradiction) | intro _ | assumption | exact State.Frame.refl _
    | apply f_mk)

theorem State.rasSignal_frame {s0 : State} {s : State} {sig : Nat} (h0 : s0.Frame P s) (p_regs : P .regs) (p_free : P .free)
    (p_core : P .core) (p_pass : P .pass) :
    s0.Frame P (State.rasSignal s sig) := by
  unfold State.rasSignal
  try dsimp only
  with_reducible repeat' (first
    | intro _ | assumption | exact State.Frame.refl _ | apply State.sendMsi_frame | apply State.raiseNmi_frame | apply f_ite
    | split)

theorem State.recWrite_frame {s0 : State} {s : State} {b : Nat} {r : ErrRec} (h0 : s0.Frame P s) (p_ras : P .ras) :
    s0.Frame P (State.recWrite s b r) := by
  unfold State.recWrite
  try dsimp only
  with_reducible repeat' (first | intro _ | assumption | exact State.Frame.refl _ | apply State.setRec_frame | apply f_ite)

theorem State.errRecord_frame {s0 : State} {s : State} {b : Nat} {sev : Nat} {addr : Nat} {info : Nat} {suppl : Nat}
    (h0 : s0.Frame P s) (p_regs : P .regs) (p_free : P .free) (p_core : P .core) (p_pass : P .pass) (p_ras : P .ras)
    (p_tvx : P .tvx) :
    s0.Frame P (State.errRecord s b sev addr info suppl) := by
  unfold State.errRecord
  try dsimp only
  with_reducible repeat' (first
    | intro _ | assumption | exact State.Frame.refl _ | apply State.recWrite_frame | apply State.rasSignal_frame
    | apply State.logEvent_frame | apply f_ite)

theorem State.setBucket_frame {s0 : State} {s : State} {k : Nat} {i : Nat} {b : Bucket} (h0 : s0.Frame P s) (p_ras : P .ras)
    :
    s0.Frame P (State.setBucket s k i b) := by
  unfold State.setBucket
  try dsimp only
  with_reducible repeat' (first
    | (intro (p : Part) hp; cases p <;> first | rfl | contradiction) | intro _ | assumption | exact State.Frame.refl _
    | apply f_mk)

theorem State.charge_frame {s0 : State} {s : State} {k : Nat} {i : Nat} {unc : Bool} (h0 : s0.Frame P s) (p_ras : P .ras) :
    s0.Frame P (State.charge s k i unc).1 := by
  unfold State.charge
  try dsimp only
  with_reducible repeat' (first | intro _ | assumption | exact State.Frame.refl _ | apply State.setBucket_frame)

theorem State.send_frame {s0 : State} {s : State} {m : Msg} (h0 : s0.Frame P s) (p_net : P .net) :
    s0.Frame P (State.send s m) := by
  unfold State.send
  try dsimp only
  with_reducible repeat' (first
    | (intro (p : Part) hp; cases p <;> first | rfl | contradiction) | intro _ | assumption | exact State.Frame.refl _
    | apply f_mk)

theorem State.decodeErr_frame {s0 : State} {s : State} {cause : Nat} {source : Nat} {hart : Nat} {requester : Nat}
    {ga : Nat} {write : Bool} (h0 : s0.Frame P s) (p_regs : P .regs) :
    s0.Frame P (State.decodeErr s cause source hart requester ga write) := by
  unfold State.decodeErr
  try dsimp only
  with_reducible repeat' (first | intro _ | assumption | exact State.Frame.refl _ | apply State.put_frame | apply State.putB_frame | apply f_ite)

theorem State.setHPort_frame {s0 : State} {s : State} {p : Nat} {x : HPortSt} (h0 : s0.Frame P s) (p_hzn : P .hzn) :
    s0.Frame P (State.setHPort s p x) := by
  unfold State.setHPort
  try dsimp only
  with_reducible repeat' (first
    | (intro (p : Part) hp; cases p <;> first | rfl | contradiction) | intro _ | assumption | exact State.Frame.refl _
    | apply f_mk)

end Sys2Proof.Machine
end

