-- ==== Sys2Proof/Laws/FrameCount.lean ====
section
/-!
SUPPORT. What each function of Machine/Count.lean leaves alone (`State.Frame`, Safety.lean): one lemma for each.
-/

namespace Sys2Proof.Machine

variable {P : Part → Prop}

theorem State.ctrAdd_frame {s0 : State} {s : State} {b : Nat} {j : Nat} {n : Nat} (h0 : s0.Frame P s) (p_regs : P .regs)
    (p_pass : P .pass) :
    s0.Frame P (State.ctrAdd s b j n) := by
  unfold State.ctrAdd
  try dsimp only
  with_reducible repeat' (first | intro _ | assumption | exact State.Frame.refl _ | apply State.put_frame | apply State.sendMsi_frame | apply f_ite)

theorem State.count_frame {s0 : State} {s : State} {b : Nat} {ev : Nat} {item : Option Nat} {ids : Option (Nat × Nat)}
    {n : Nat} (h0 : s0.Frame P s) (p_regs : P .regs) (p_pass : P .pass) :
    s0.Frame P (State.count s b ev item ids n) := by
  unfold State.count
  try dsimp only
  with_reducible repeat' (first | intro _ | assumption | exact State.Frame.refl _ | apply State.ctrAdd_frame | apply f_ite | apply f_foldN | split)

theorem State.hpmAdd_frame {s0 : State} {s : State} {h : Nat} {p : Priv} {ev : Nat} {n : Nat} (h0 : s0.Frame P s)
    (p_regs : P .regs) (p_core : P .core) :
    s0.Frame P (State.hpmAdd s h p ev n) := by
  unfold State.hpmAdd
  try dsimp only
  with_reducible repeat' (first
    | intro _ | assumption | exact State.Frame.refl _ | apply State.setReg_frame | apply State.setHart_frame | apply f_ite
    | apply f_foldN)

theorem State.hpm_frame {s0 : State} {s : State} {h : Nat} {p : Priv} {ev : Nat} (h0 : s0.Frame P s) (p_regs : P .regs)
    (p_core : P .core) :
    s0.Frame P (State.hpm s h p ev) := by
  unfold State.hpm
  try dsimp only
  with_reducible repeat' (first | intro _ | assumption | exact State.Frame.refl _ | apply State.hpmAdd_frame)

theorem State.retired_frame {s0 : State} {s : State} {h : Nat} (h0 : s0.Frame P s) (p_regs : P .regs) :
    s0.Frame P (State.retired s h) := by
  unfold State.retired
  try dsimp only
  with_reducible repeat' (first | intro _ | assumption | exact State.Frame.refl _ | apply State.setReg_frame)

end Sys2Proof.Machine
end

