-- ==== Sys2Proof/Laws/FrameTvx.lean ====
section
/-!
SUPPORT. What each function of Machine/Tvx.lean leaves alone (`State.Frame`, Safety.lean): one lemma for each.
-/

namespace Sys2Proof.Machine

variable {P : Part → Prop}

theorem State.answer_frame {s0 : State} {s : State} {g : Ingress} {p : Pkt} {st : Nat} {aux : Nat} {data : List Nat}
    (h0 : s0.Frame P s) (p_tvx : P .tvx) :
    s0.Frame P (State.answer s g p st aux data) := by
  unfold State.answer
  try dsimp only
  with_reducible repeat' (first | intro _ | assumption | exact State.Frame.refl _ | apply State.sendPkt_frame)

theorem State.complete_frame {s0 : State} {s : State} {c : QCmd} {st : Nat} {aux : Nat} {data : List Nat}
    (h0 : s0.Frame P s) (p_tvx : P .tvx) :
    s0.Frame P (State.complete s c st aux data) := by
  unfold State.complete
  try dsimp only
  with_reducible repeat' (first | intro _ | assumption | exact State.Frame.refl _ | apply State.sendPkt_frame | apply State.setIng_frame)

theorem State.setQueue_frame {s0 : State} {s : State} {q : List QCmd} (h0 : s0.Frame P s) (p_tvx : P .tvx) :
    s0.Frame P (State.setQueue s q) := by
  unfold State.setQueue
  try dsimp only
  with_reducible repeat' (first
    | (intro (p : Part) hp; cases p <;> first | rfl | contradiction) | intro _ | assumption | exact State.Frame.refl _
    | apply f_mk)

theorem State.freeze_frame {s0 : State} {s : State} {c : QCmd} {st : Nat} {aux : Nat} (h0 : s0.Frame P s) (p_tvx : P .tvx) :
    s0.Frame P (State.freeze s c st aux) := by
  unfold State.freeze
  try dsimp only
  with_reducible repeat' (first
    | intro _ | assumption | exact State.Frame.refl _ | apply State.setQueue_frame | apply State.setIng_frame
    | apply State.complete_frame | apply f_foldl)

theorem State.finish_frame {s0 : State} {s : State} {c : QCmd} {st : Nat} {aux : Nat} {data : List Nat} (h0 : s0.Frame P s)
    (p_tvx : P .tvx) :
    s0.Frame P (State.finish s c st aux data) := by
  unfold State.finish
  try dsimp only
  with_reducible repeat' (first | intro _ | assumption | exact State.Frame.refl _ | apply State.complete_frame | apply State.freeze_frame | apply f_ite)

theorem State.settle_frame {s0 : State} {s : State} {z1 : Nat} (h0 : s0.Frame P s) (p_tvx : P .tvx) :
    s0.Frame P (State.settle s z1) := by
  induction z1 generalizing s with
  | zero =>
    unfold State.settle
    try dsimp only
    with_reducible repeat' (first
      | intro _ | assumption | exact State.Frame.refl _ | apply State.finish_frame | apply State.setQueue_frame | apply f_ite
      | split)
  | succ k ih =>
    unfold State.settle
    try dsimp only
    with_reducible repeat' (first
      | intro _ | assumption | exact State.Frame.refl _ | apply State.finish_frame | apply State.setQueue_frame | apply f_ite
      | split | apply ih)


theorem State.xferReady_frame {s0 : State} {s : State} {c : QCmd} (h0 : s0.Frame P s) (p_tvx : P .tvx) :
    s0.Frame P (State.xferReady s c) := by
  unfold State.xferReady
  try dsimp only
  with_reducible repeat' (first | intro _ | assumption | exact State.Frame.refl _ | apply State.setQueue_frame | apply State.sendPkt_frame)

theorem State.badHeader_frame {s0 : State} {s : State} (h0 : s0.Frame P s) (p_free : P .free) :
    s0.Frame P (State.badHeader s).1 := by
  unfold State.badHeader
  try dsimp only
  with_reducible repeat' (first
    | intro _ | assumption | exact State.Frame.refl _ | apply State.freeWord_frame | refine f_of_snd (by assumption) ?_
    | refine f_of_fst (by assumption) ?_ | refine f_of_some (by assumption) ?_ | split)

theorem State.execHead_frame {s0 : State} {s : State} {op : Nat} {need : Nat} {mslOnly : Bool}
    {body : QCmd → State → State × Reply} {post : QCmd → Nat → State → State} (h0 : s0.Frame P s)
    (hp_body : ∀ (u : State) (y0 : QCmd) (y1 : State), u.Frame P y1 → u.Frame P (body y0 y1).1)
    (hp_post : ∀ (u : State) (y0 : QCmd) (y1 : Nat) (y2 : State), u.Frame P y2 → u.Frame P (post y0 y1 y2))
    (p_free : P .free) (p_tvx : P .tvx) :
    s0.Frame P (State.execHead s op need mslOnly body post) := by
  unfold State.execHead
  try dsimp only
  with_reducible repeat' (first
    | intro _ | assumption | exact State.Frame.refl _ | apply State.settle_frame | apply State.finish_frame
    | apply State.setQueue_frame | apply State.badHeader_frame | apply State.xferReady_frame | apply hp_body | apply hp_post
    | apply f_ite | apply f_ite_fst | apply f_ite_snd | refine f_of_snd (by assumption) ?_
    | refine f_of_fst (by assumption) ?_ | refine f_of_some (by assumption) ?_ | split)

theorem State.busyPay_frame {s0 : State} {s : State} {version : Nat} (h0 : s0.Frame P s) (p_free : P .free) :
    s0.Frame P (State.busyPay s version).2 := by
  unfold State.busyPay
  try dsimp only
  with_reducible repeat' (first
    | intro _ | assumption | exact State.Frame.refl _ | apply State.badHeader_frame | apply State.freeWord_frame
    | apply f_ite | apply f_ite_fst | apply f_ite_snd | refine f_of_snd (by assumption) ?_
    | refine f_of_fst (by assumption) ?_ | refine f_of_some (by assumption) ?_ | split)

theorem State.flashTry_frame {s0 : State} {s : State} (h0 : s0.Frame P s) (p_tvx : P .tvx) :
    s0.Frame P (State.flashTry s) := by
  unfold State.flashTry
  try dsimp only
  with_reducible repeat' (first
    | (intro (p : Part) hp; cases p <;> first | rfl | contradiction) | intro _ | assumption | exact State.Frame.refl _
    | apply f_ite | apply f_mk)

theorem State.longFinish_frame {s0 : State} {s : State} {st : Nat} {aux : Nat} {data : List Nat} (h0 : s0.Frame P s)
    (p_regs : P .regs) (p_tvx : P .tvx) :
    s0.Frame P (State.longFinish s st aux data) := by
  unfold State.longFinish
  try dsimp only
  with_reducible repeat' (first
    | (intro (p : Part) hp; cases p <;> first | rfl | contradiction) | intro _ | assumption | exact State.Frame.refl _
    | apply State.finish_frame | apply State.flashTry_frame | apply State.settle_frame | apply State.logEvent_frame
    | apply f_ite
    | (apply f_mk; first | assumption | exact State.Frame.refl _ | apply State.finish_frame | apply State.flashTry_frame | apply State.settle_frame | apply State.logEvent_frame | apply f_ite)
    | split)

theorem State.longEnd_frame {s0 : State} {s : State} {st : Nat} {aux : Nat} {data : List Nat} (h0 : s0.Frame P s)
    (p_tvx : P .tvx) :
    s0.Frame P (State.longEnd s st aux data) := by
  unfold State.longEnd
  try dsimp only
  with_reducible repeat' (first
    | (intro (p : Part) hp; cases p <;> first | rfl | contradiction) | intro _ | assumption | exact State.Frame.refl _
    | apply State.busyPay_frame | refine f_of_snd (by assumption) ?_ | refine f_of_fst (by assumption) ?_
    | refine f_of_some (by assumption) ?_
    | (apply f_mk; first | assumption | exact State.Frame.refl _ | apply State.busyPay_frame) | split)

theorem State.execLong_frame {s0 : State} {s : State} {op : Nat} {need : Nat} {body : QCmd → State → State × Option Reply}
    (h0 : s0.Frame P s) (hp_body : ∀ (u : State) (y0 : QCmd) (y1 : State), u.Frame P y1 → u.Frame P (body y0 y1).1)
    (p_regs : P .regs) (p_free : P .free) (p_tvx : P .tvx) :
    s0.Frame P (State.execLong s op need body) := by
  unfold State.execLong
  try dsimp only
  with_reducible repeat' (first
    | (intro (p : Part) hp; cases p <;> first | rfl | contradiction) | intro _ | assumption | exact State.Frame.refl _
    | apply State.execHead_frame | apply State.xferReady_frame | apply State.complete_frame | apply State.busyPay_frame
    | apply State.badHeader_frame | apply State.longFinish_frame | apply hp_body | apply f_ite | apply f_ite_fst
    | apply f_ite_snd | apply f_foldl | refine f_of_snd (by assumption) ?_ | refine f_of_fst (by assumption) ?_
    | refine f_of_some (by assumption) ?_
    | (apply f_mk; first | assumption | exact State.Frame.refl _ | apply State.execHead_frame | apply State.xferReady_frame | apply State.complete_frame | apply State.busyPay_frame | apply State.badHeader_frame | apply State.longFinish_frame | apply hp_body | apply f_ite | apply f_ite_fst | apply f_ite_snd | apply f_foldl)
    | split)

theorem State.putSetSlot_frame {s0 : State} {s : State} {slot : Nat} {x : SetSlot} (h0 : s0.Frame P s) (p_tvx : P .tvx) :
    s0.Frame P (State.putSetSlot s slot x) := by
  unfold State.putSetSlot
  try dsimp only
  with_reducible repeat' (first
    | (intro (p : Part) hp; cases p <;> first | rfl | contradiction) | intro _ | assumption | exact State.Frame.refl _
    | apply f_ite | apply f_mk)

theorem State.setRecs_frame {s0 : State} {s : State} {k : Nat} {r : DevRecs} (h0 : s0.Frame P s) (p_tvx : P .tvx) :
    s0.Frame P (State.setRecs s k r) := by
  unfold State.setRecs
  try dsimp only
  with_reducible repeat' (first
    | (intro (p : Part) hp; cases p <;> first | rfl | contradiction) | intro _ | assumption | exact State.Frame.refl _
    | apply f_regs | apply f_mem | apply f_mk)

theorem State.recCore_frame {s0 : State} {s : State} {h : Nat} (h0 : s0.Frame P s) (p_tvx : P .tvx) :
    s0.Frame P (State.recCore s h) := by
  unfold State.recCore
  try dsimp only
  with_reducible repeat' (first | intro _ | assumption | exact State.Frame.refl _ | apply State.setRecs_frame)

theorem State.recWay_frame {s0 : State} {s : State} {i : Nat} (h0 : s0.Frame P s) (p_tvx : P .tvx) :
    s0.Frame P (State.recWay s i) := by
  unfold State.recWay
  try dsimp only
  with_reducible repeat' (first | intro _ | assumption | exact State.Frame.refl _ | apply State.setRecs_frame)

theorem State.recMarks_frame {s0 : State} {s : State} {ch : Nat} (h0 : s0.Frame P s) (p_tvx : P .tvx) :
    s0.Frame P (State.recMarks s ch) := by
  unfold State.recMarks
  try dsimp only
  with_reducible repeat' (first | intro _ | assumption | exact State.Frame.refl _ | apply State.setRecs_frame)

theorem State.recChan_frame {s0 : State} {s : State} {ch : Nat} (h0 : s0.Frame P s) (p_tvx : P .tvx) :
    s0.Frame P (State.recChan s ch) := by
  unfold State.recChan
  try dsimp only
  with_reducible repeat' (first | intro _ | assumption | exact State.Frame.refl _ | apply State.setRecs_frame)

end Sys2Proof.Machine
end

