-- ==== Sys2Proof/Laws/FramePciCfg.lean ====
section
/-!
SUPPORT. What each function of Machine/PciCfg.lean leaves alone (`State.Frame`, Safety.lean): one lemma for each.
-/

namespace Sys2Proof.Machine

variable {P : Part → Prop}

theorem State.setCfg_frame {s0 : State} {s : State} {rid : Nat} {o : Nat} {v : Nat} (h0 : s0.Frame P s) (p_io : P .io) :
    s0.Frame P (State.setCfg s rid o v) := by
  unfold State.setCfg
  try dsimp only
  with_reducible repeat' (first
    | (intro (p : Part) hp; cases p <;> first | rfl | contradiction) | intro _ | assumption | exact State.Frame.refl _
    | apply f_mk)

theorem State.putCfg_frame {s0 : State} {s : State} {rid : Nat} {o : Nat} {lo : Nat} {w : Nat} {v : Nat} (h0 : s0.Frame P s)
    (p_io : P .io) :
    s0.Frame P (State.putCfg s rid o lo w v) := by
  unfold State.putCfg
  try dsimp only
  with_reducible repeat' (first | intro _ | assumption | exact State.Frame.refl _ | apply State.setCfg_frame)

theorem State.resetCfg_frame {s0 : State} {s : State} {rid : Nat} (h0 : s0.Frame P s) (p_io : P .io) :
    s0.Frame P (State.resetCfg s rid) := by
  unfold State.resetCfg
  try dsimp only
  with_reducible repeat' (first
    | (intro (p : Part) hp; cases p <;> first | rfl | contradiction) | intro _ | assumption | exact State.Frame.refl _
    | apply f_regs | apply f_mem | apply f_mk)

end Sys2Proof.Machine
end

