-- ==== Sys2Proof/Laws/FrameAplic.lean ====
section
/-!
SUPPORT. What each function of Machine/Aplic.lean leaves alone (`State.Frame`, Safety.lean): one lemma for each.
-/

namespace Sys2Proof.Machine

variable {P : Part → Prop}

theorem State.setAplic_frame {s0 : State} {s : State} {dom : Nat} {off : Nat} {v : Nat} (h0 : s0.Frame P s)
    (p_regs : P .regs) :
    s0.Frame P (State.setAplic s dom off v) := by
  unfold State.setAplic
  try dsimp only
  with_reducible repeat' (first | intro _ | assumption | exact State.Frame.refl _ | apply State.setReg_frame)

theorem State.setAplicPend_frame {s0 : State} {s : State} {dom : Nat} {i : Nat} {b : Bool} (h0 : s0.Frame P s)
    (p_io : P .io) :
    s0.Frame P (State.setAplicPend s dom i b) := by
  unfold State.setAplicPend
  try dsimp only
  with_reducible repeat' (first
    | (intro (p : Part) hp; cases p <;> first | rfl | contradiction) | intro _ | assumption | exact State.Frame.refl _
    | apply f_mk)

theorem State.aplicForward_frame {s0 : State} {s : State} {dom : Nat} {i : Nat} (h0 : s0.Frame P s) (p_regs : P .regs)
    (p_pass : P .pass) (p_io : P .io) :
    s0.Frame P (State.aplicForward s dom i) := by
  unfold State.aplicForward
  try dsimp only
  with_reducible repeat' (first
    | intro _ | assumption | exact State.Frame.refl _ | apply State.setAplicPend_frame | apply State.fileTake_frame
    | apply f_ite)

theorem State.aplicLevel_frame {s0 : State} {s : State} {i : Nat} {level : Bool} (h0 : s0.Frame P s) (p_regs : P .regs)
    (p_pass : P .pass) (p_io : P .io) :
    s0.Frame P (State.aplicLevel s i level) := by
  unfold State.aplicLevel
  try dsimp only
  with_reducible repeat' (first
    | (intro (p : Part) hp; cases p <;> first | rfl | contradiction) | intro _ | assumption | exact State.Frame.refl _
    | apply State.aplicForward_frame | apply State.setAplicPend_frame | apply f_ite
    | (apply f_mk; first | assumption | exact State.Frame.refl _ | apply State.aplicForward_frame | apply State.setAplicPend_frame | apply f_ite)
    | split)

theorem State.aplicTry_frame {s0 : State} {s : State} {dom : Nat} {i : Nat} {on : Bool} (h0 : s0.Frame P s)
    (p_regs : P .regs) (p_pass : P .pass) (p_io : P .io) :
    s0.Frame P (State.aplicTry s dom i on) := by
  unfold State.aplicTry
  try dsimp only
  with_reducible repeat' (first
    | intro _ | assumption | exact State.Frame.refl _ | apply State.setAplicPend_frame | apply State.aplicForward_frame
    | apply f_ite)

theorem State.aplicEnable_frame {s0 : State} {s : State} {dom : Nat} {i : Nat} {on : Bool} (h0 : s0.Frame P s)
    (p_regs : P .regs) (p_pass : P .pass) (p_io : P .io) :
    s0.Frame P (State.aplicEnable s dom i on) := by
  unfold State.aplicEnable
  try dsimp only
  with_reducible repeat' (first
    | intro _ | assumption | exact State.Frame.refl _ | apply State.aplicForward_frame | apply State.setAplic_frame
    | apply f_ite)

theorem State.aplicConfig_frame {s0 : State} {s : State} {dom : Nat} {i : Nat} {v : Nat} (h0 : s0.Frame P s)
    (p_regs : P .regs) (p_pass : P .pass) (p_io : P .io) :
    s0.Frame P (State.aplicConfig s dom i v) := by
  unfold State.aplicConfig
  try dsimp only
  with_reducible repeat' (first
    | intro _ | assumption | exact State.Frame.refl _ | apply State.setAplic_frame | apply State.setAplicPend_frame
    | apply State.aplicForward_frame | apply f_ite)

theorem State.aplicEach_frame {s0 : State} {s : State} {k : Nat} {v : Nat} {f : State → Nat → State} (h0 : s0.Frame P s)
    (hp_f : ∀ (u : State) (y0 : State) (y1 : Nat), u.Frame P y0 → u.Frame P (f y0 y1)) :
    s0.Frame P (State.aplicEach s k v f) := by
  unfold State.aplicEach
  try dsimp only
  with_reducible repeat' (first | intro _ | assumption | exact State.Frame.refl _ | apply hp_f | apply f_ite | apply f_foldN)

theorem State.aplicWrite_frame {s0 : State} {s : State} {dom : Nat} {o : Nat} {v : Nat} (h0 : s0.Frame P s)
    (p_regs : P .regs) (p_pass : P .pass) (p_io : P .io) :
    s0.Frame P (State.aplicWrite s dom o v) := by
  unfold State.aplicWrite
  try dsimp only
  with_reducible repeat' (first
    | intro _ | assumption | exact State.Frame.refl _ | apply State.setAplic_frame | apply State.aplicForward_frame
    | apply State.aplicConfig_frame | apply State.aplicEach_frame | apply State.aplicTry_frame
    | apply State.aplicEnable_frame | apply State.fileTake_frame | apply f_ite | apply f_foldN)

end Sys2Proof.Machine
end

