-- ==== Sys2Proof/Laws/FrameQos.lean ====
section
/-!
SUPPORT. What each function of Machine/Qos.lean leaves alone (`State.Frame`, Safety.lean): one lemma for each.
-/

namespace Sys2Proof.Machine

variable {P : Part → Prop}

theorem State.setCapMask_frame {s0 : State} {s : State} {c : Nat} {rcid : Nat} {m : Nat} (h0 : s0.Frame P s)
    (p_qos : P .qos) :
    s0.Frame P (State.setCapMask s c rcid m) := by
  unfold State.setCapMask
  try dsimp only
  with_reducible repeat' (first
    | (intro (p : Part) hp; cases p <;> first | rfl | contradiction) | intro _ | assumption | exact State.Frame.refl _
    | apply f_mk)

theorem State.setBal_frame {s0 : State} {s : State} {c : Nat} {rcid : Nat} {v : Int} (h0 : s0.Frame P s) (p_qos : P .qos) :
    s0.Frame P (State.setBal s c rcid v) := by
  unfold State.setBal
  try dsimp only
  with_reducible repeat' (first
    | (intro (p : Part) hp; cases p <;> first | rfl | contradiction) | intro _ | assumption | exact State.Frame.refl _
    | apply f_mk)

theorem State.setPool_frame {s0 : State} {s : State} {c : Nat} {v : Nat} (h0 : s0.Frame P s) (p_qos : P .qos) :
    s0.Frame P (State.setPool s c v) := by
  unfold State.setPool
  try dsimp only
  with_reducible repeat' (first
    | (intro (p : Part) hp; cases p <;> first | rfl | contradiction) | intro _ | assumption | exact State.Frame.refl _
    | apply f_mk)

theorem State.setDrawn_frame {s0 : State} {s : State} {c : Nat} {rcid : Nat} {v : Nat} (h0 : s0.Frame P s) (p_qos : P .qos)
    :
    s0.Frame P (State.setDrawn s c rcid v) := by
  unfold State.setDrawn
  try dsimp only
  with_reducible repeat' (first
    | (intro (p : Part) hp; cases p <;> first | rfl | contradiction) | intro _ | assumption | exact State.Frame.refl _
    | apply f_mk)

theorem State.setWaited_frame {s0 : State} {s : State} {c : Nat} {rcid : Nat} {v : Nat} (h0 : s0.Frame P s) (p_qos : P .qos)
    :
    s0.Frame P (State.setWaited s c rcid v) := by
  unfold State.setWaited
  try dsimp only
  with_reducible repeat' (first
    | (intro (p : Part) hp; cases p <;> first | rfl | contradiction) | intro _ | assumption | exact State.Frame.refl _
    | apply f_mk)

theorem State.chargeTokens_frame {s0 : State} {s : State} {c : Nat} {rcid : Nat} {w : List Nat} (h0 : s0.Frame P s)
    (p_qos : P .qos) :
    s0.Frame P (State.chargeTokens s c rcid w) := by
  unfold State.chargeTokens
  try dsimp only
  with_reducible repeat' (first
    | intro _ | assumption | exact State.Frame.refl _ | apply State.setBal_frame | apply State.setDrawn_frame
    | apply State.setPool_frame | apply State.setWaited_frame | apply f_ite)

theorem State.monitor_frame {s0 : State} {s : State} {c : Nat} {mcid : Nat} {write : Option Bool} {n : Nat}
    (h0 : s0.Frame P s) (p_qos : P .qos) :
    s0.Frame P (State.monitor s c mcid write n) := by
  unfold State.monitor
  try dsimp only
  with_reducible repeat' (first
    | (intro (p : Part) hp; cases p <;> first | rfl | contradiction) | intro _ | assumption | exact State.Frame.refl _
    | apply f_ite | apply f_mk)

theorem State.meterIn_frame {s0 : State} {s : State} {b : Nat} {src : Nat} {mcid : Nat} {n : Nat} (h0 : s0.Frame P s)
    (p_meter : P .meter) :
    s0.Frame P (State.meterIn s b src mcid n) := by
  unfold State.meterIn
  try dsimp only
  with_reducible repeat' (first
    | (intro (p : Part) hp; cases p <;> first | rfl | contradiction) | intro _ | assumption | exact State.Frame.refl _
    | apply f_mk)

theorem State.meterAdd_frame {s0 : State} {s : State} {src : Nat} {mcid : Nat} {n : Nat} (h0 : s0.Frame P s)
    (p_meter : P .meter) :
    s0.Frame P (State.meterAdd s src mcid n) := by
  unfold State.meterAdd
  try dsimp only
  with_reducible repeat' (first | intro _ | assumption | exact State.Frame.refl _ | apply State.meterIn_frame)

theorem State.hznTxBytes_frame {s0 : State} {s : State} {p : Nat} {mcid : Nat} {write : Option Bool} {n : Nat}
    (h0 : s0.Frame P s) (p_meter : P .meter) (p_qos : P .qos) :
    s0.Frame P (State.hznTxBytes s p mcid write n) := by
  unfold State.hznTxBytes
  try dsimp only
  with_reducible repeat' (first | intro _ | assumption | exact State.Frame.refl _ | apply State.monitor_frame | apply State.meterAdd_frame)

end Sys2Proof.Machine
end

