-- ==== Sys2Proof/Laws/FrameClock.lean ====
section
/-!
SUPPORT. What each function of Machine/Clock.lean leaves alone (`State.Frame`, Safety.lean): one lemma for each.
-/

namespace Sys2Proof.Machine

variable {P : Part → Prop}

theorem State.coreSlew_frame {s0 : State} {s : State} {n : Nat} {h : Nat} (h0 : s0.Frame P s) (p_regs : P .regs)
    (p_core : P .core) :
    s0.Frame P (State.coreSlew s n h) := by
  unfold State.coreSlew
  try dsimp only
  with_reducible repeat' (first
    | intro _ | assumption | exact State.Frame.refl _ | apply State.put_frame | apply State.setHart_frame | apply f_ite
    | split)

theorem State.hpmCycles_frame {s0 : State} {s : State} {h : Nat} {k : Nat} (h0 : s0.Frame P s) (p_regs : P .regs)
    (p_core : P .core) :
    s0.Frame P (State.hpmCycles s h k) := by
  unfold State.hpmCycles
  try dsimp only
  with_reducible repeat' (first | intro _ | assumption | exact State.Frame.refl _ | apply State.hpmAdd_frame | apply f_ite)

theorem State.coreTime_frame {s0 : State} {s : State} {n : Nat} {h : Nat} (h0 : s0.Frame P s) (p_regs : P .regs)
    (p_core : P .core) (p_pass : P .pass) (p_meter : P .meter) :
    s0.Frame P (State.coreTime s n h) := by
  unfold State.coreTime
  try dsimp only
  with_reducible repeat' (first
    | intro _ | assumption | exact State.Frame.refl _ | apply State.setHart_frame | apply State.setReg_frame
    | apply State.meterAdd_frame | apply State.count_frame | apply State.coreSlew_frame | apply State.hpmCycles_frame
    | apply f_ite)

theorem State.onchipTime_frame {s0 : State} {s : State} {n : Nat} (h0 : s0.Frame P s) (p_regs : P .regs) (p_ras : P .ras) :
    s0.Frame P (State.onchipTime s n) := by
  unfold State.onchipTime
  try dsimp only
  with_reducible repeat' (first
    | (intro (p : Part) hp; cases p <;> first | rfl | contradiction) | intro _ | assumption | exact State.Frame.refl _
    | apply State.bump_frame | apply f_ite | apply f_mk)

theorem State.hznTime_frame {s0 : State} {s : State} {n : Nat} {p : Nat} (h0 : s0.Frame P s) (p_regs : P .regs)
    (p_pass : P .pass) (p_meter : P .meter) (p_qos : P .qos) (p_hzn : P .hzn) :
    s0.Frame P (State.hznTime s n p) := by
  unfold State.hznTime
  try dsimp only
  with_reducible repeat' (first
    | intro _ | assumption | exact State.Frame.refl _ | apply State.setHPort_frame | apply State.hznTxBytes_frame
    | apply State.count_frame | apply f_ite)

end Sys2Proof.Machine
end

