-- ==== Sys2Proof/Laws/FrameChannel.lean ====
section
/-!
SUPPORT. What each function of Machine/Channel.lean leaves alone (`State.Frame`, Safety.lean): one lemma for each.
-/

namespace Sys2Proof.Machine

variable {P : Part → Prop}

theorem State.setChState_frame {s0 : State} {s : State} {ch : Nat} {st : Nat} (h0 : s0.Frame P s) (p_regs : P .regs) :
    s0.Frame P (State.setChState s ch st) := by
  unfold State.setChState
  try dsimp only
  with_reducible repeat' (first | intro _ | assumption | exact State.Frame.refl _ | apply State.put_frame)

theorem State.setChPrev_frame {s0 : State} {s : State} {ch : Nat} {v : Nat} (h0 : s0.Frame P s) (p_chan : P .chan) :
    s0.Frame P (State.setChPrev s ch v) := by
  unfold State.setChPrev
  try dsimp only
  with_reducible repeat' (first
    | (intro (p : Part) hp; cases p <;> first | rfl | contradiction) | intro _ | assumption | exact State.Frame.refl _
    | apply f_mk)

theorem State.setChRetrain_frame {s0 : State} {s : State} {ch : Nat} {b : Bool} (h0 : s0.Frame P s) (p_chan : P .chan) :
    s0.Frame P (State.setChRetrain s ch b) := by
  unfold State.setChRetrain
  try dsimp only
  with_reducible repeat' (first
    | (intro (p : Part) hp; cases p <;> first | rfl | contradiction) | intro _ | assumption | exact State.Frame.refl _
    | apply f_mk)

theorem State.setChFails_frame {s0 : State} {s : State} {ch : Nat} {v : Nat} (h0 : s0.Frame P s) (p_chan : P .chan) :
    s0.Frame P (State.setChFails s ch v) := by
  unfold State.setChFails
  try dsimp only
  with_reducible repeat' (first
    | (intro (p : Part) hp; cases p <;> first | rfl | contradiction) | intro _ | assumption | exact State.Frame.refl _
    | apply f_mk)

theorem State.copyBegin_frame {s0 : State} {s : State} {ch : Nat} (h0 : s0.Frame P s) (p_regs : P .regs) (p_chan : P .chan)
    :
    s0.Frame P (State.copyBegin s ch) := by
  unfold State.copyBegin
  try dsimp only
  with_reducible repeat' (first
    | intro _ | assumption | exact State.Frame.refl _ | apply State.setChPrev_frame | apply State.setChState_frame
    | apply State.put_frame | split)

theorem State.copyStart_frame {s0 : State} {s : State} {ch : Nat} (h0 : s0.Frame P s) (p_regs : P .regs) (p_chan : P .chan)
    :
    s0.Frame P (State.copyStart s ch) := by
  unfold State.copyStart
  try dsimp only
  with_reducible repeat' (first
    | (intro (p : Part) hp; cases p <;> first | rfl | contradiction) | intro _ | assumption | exact State.Frame.refl _
    | apply State.put_frame | apply State.copyBegin_frame | apply f_ite
    | (apply f_mk; first | assumption | exact State.Frame.refl _ | apply State.put_frame | apply State.copyBegin_frame | apply f_ite)
    | split)

theorem State.chAtRisk_frame {s0 : State} {s : State} {ch : Nat} (h0 : s0.Frame P s) (p_regs : P .regs) (p_chan : P .chan)
    (p_tvx : P .tvx) :
    s0.Frame P (State.chAtRisk s ch) := by
  unfold State.chAtRisk
  try dsimp only
  with_reducible repeat' (first
    | intro _ | assumption | exact State.Frame.refl _ | apply State.setChState_frame | apply State.put_frame
    | apply State.logEvent_frame | apply State.copyStart_frame | apply f_ite)

theorem State.markDevice_frame {s0 : State} {s : State} {ch : Nat} {rank : Nat} {dev : Nat} (h0 : s0.Frame P s)
    (p_regs : P .regs) (p_chan : P .chan) (p_tvx : P .tvx) :
    s0.Frame P (State.markDevice s ch rank dev) := by
  unfold State.markDevice
  try dsimp only
  with_reducible repeat' (first
    | intro _ | assumption | exact State.Frame.refl _ | apply State.put_frame | apply State.chAtRisk_frame
    | apply State.recMarks_frame | apply State.logEvent_frame | apply f_ite)

theorem State.dramRecord_frame {s0 : State} {s : State} {ch : Nat} {ga : Nat} {mcid : Nat} {rank : Nat} {marker : Bool}
    (h0 : s0.Frame P s) (p_regs : P .regs) (p_free : P .free) (p_core : P .core) (p_pass : P .pass) (p_ras : P .ras)
    (p_tvx : P .tvx) :
    s0.Frame P (State.dramRecord s ch ga mcid rank marker) := by
  unfold State.dramRecord
  try dsimp only
  with_reducible repeat' (first | intro _ | assumption | exact State.Frame.refl _ | apply State.errRecord_frame)

theorem State.chRead_frame {s0 : State} {s : State} {ch : Nat} {x : Nat} {e : Errs} {ga : Nat} {mcid : Nat}
    (h0 : s0.Frame P s) (p_regs : P .regs) (p_free : P .free) (p_core : P .core) (p_pass : P .pass) (p_chan : P .chan)
    (p_ras : P .ras) (p_tvx : P .tvx) :
    s0.Frame P (State.chRead s ch x e ga mcid).2 := by
  unfold State.chRead
  try dsimp only
  with_reducible repeat' (first
    | intro _ | assumption | exact State.Frame.refl _ | apply State.dramRecord_frame | apply State.bump_frame
    | apply State.count_frame | apply State.freeLine_frame | apply State.charge_frame | apply State.errRecord_frame
    | apply State.markDevice_frame | apply State.freeBit_frame | apply f_ite | apply f_ite_fst | apply f_ite_snd
    | refine f_of_snd (by assumption) ?_ | refine f_of_fst (by assumption) ?_ | refine f_of_some (by assumption) ?_ | split)

theorem State.chRetrainStart_frame {s0 : State} {s : State} {ch : Nat} (h0 : s0.Frame P s) (p_regs : P .regs)
    (p_chan : P .chan) (p_tvx : P .tvx) :
    s0.Frame P (State.chRetrainStart s ch) := by
  unfold State.chRetrainStart
  try dsimp only
  with_reducible repeat' (first
    | intro _ | assumption | exact State.Frame.refl _ | apply State.bump_frame | apply State.setChFails_frame
    | apply State.setChRetrain_frame | apply State.setChState_frame | apply State.setChPrev_frame
    | apply State.logEvent_frame | apply State.put_frame | apply f_ite)

theorem State.chLinkEvent_frame {s0 : State} {s : State} {ch : Nat} (h0 : s0.Frame P s) (p_regs : P .regs)
    (p_free : P .free) (p_core : P .core) (p_pass : P .pass) (p_chan : P .chan) (p_ras : P .ras) (p_tvx : P .tvx) :
    s0.Frame P (State.chLinkEvent s ch) := by
  unfold State.chLinkEvent
  try dsimp only
  with_reducible repeat' (first
    | intro _ | assumption | exact State.Frame.refl _ | apply State.charge_frame | apply State.errRecord_frame
    | apply State.chRetrainStart_frame | apply f_ite | apply f_ite_fst | apply f_ite_snd)

theorem State.chRetrainOver_frame {s0 : State} {s : State} {ch : Nat} (h0 : s0.Frame P s) (p_chan : P .chan)
    (p_ras : P .ras) :
    s0.Frame P (State.chRetrainOver s ch) := by
  unfold State.chRetrainOver
  try dsimp only
  with_reducible repeat' (first
    | intro _ | assumption | exact State.Frame.refl _ | apply State.setBucket_frame | apply State.setChFails_frame
    | apply State.setChRetrain_frame)

theorem State.chWrite_frame {s0 : State} {s : State} {ch : Nat} {x : Nat} {l : Option Line} (h0 : s0.Frame P s)
    (p_regs : P .regs) (p_mem : P .mem) (p_marked : P .marked) (p_free : P .free) (p_core : P .core) (p_pass : P .pass)
    (p_ras : P .ras) (p_tvx : P .tvx) :
    s0.Frame P (State.chWrite s ch x l) := by
  unfold State.chWrite
  try dsimp only
  with_reducible repeat' (first
    | intro _ | assumption | exact State.Frame.refl _ | apply State.errRecord_frame | apply State.setLineAt_frame
    | apply State.markAt_frame | apply f_ite | split)

theorem State.storeRead_frame {s0 : State} {s : State} {d : Nat} {e : Errs} {ga : Nat} {mcid : Nat} (h0 : s0.Frame P s)
    (p_regs : P .regs) (p_free : P .free) (p_core : P .core) (p_pass : P .pass) (p_chan : P .chan) (p_ras : P .ras)
    (p_tvx : P .tvx) :
    s0.Frame P (State.storeRead s d e ga mcid).2 := by
  unfold State.storeRead
  try dsimp only
  with_reducible repeat' (first
    | intro _ | assumption | exact State.Frame.refl _ | apply State.chRead_frame | apply State.copyBegin_frame
    | apply State.errRecord_frame | apply f_ite | apply f_ite_fst | apply f_ite_snd | refine f_of_snd (by assumption) ?_
    | refine f_of_fst (by assumption) ?_ | refine f_of_some (by assumption) ?_ | split)

theorem State.mcCharge_frame {s0 : State} {s : State} {d : Nat} {rcid : Nat} (h0 : s0.Frame P s) (p_qos : P .qos) :
    s0.Frame P (State.mcCharge s d rcid) := by
  unfold State.mcCharge
  try dsimp only
  with_reducible repeat' (first | intro _ | assumption | exact State.Frame.refl _ | apply State.chargeTokens_frame | apply f_ite)

theorem State.storePut_frame {s0 : State} {s : State} {d : Nat} {l : Option Line} (h0 : s0.Frame P s) (p_regs : P .regs)
    (p_mem : P .mem) (p_marked : P .marked) (p_free : P .free) (p_core : P .core) (p_pass : P .pass) (p_ras : P .ras)
    (p_tvx : P .tvx) :
    s0.Frame P (State.storePut s d l) := by
  unfold State.storePut
  try dsimp only
  with_reducible repeat' (first
    | intro _ | assumption | exact State.Frame.refl _ | apply State.chWrite_frame | apply State.copyStart_frame
    | apply State.copyBegin_frame | apply State.errRecord_frame | apply State.setLineAt_frame | apply State.markAt_frame
    | apply f_ite | split)

theorem State.storeWrite_frame {s0 : State} {s : State} {d : Nat} {l : Option Line} {lim : Option Nat} (h0 : s0.Frame P s)
    (p_regs : P .regs) (p_mem : P .mem) (p_marked : P .marked) (p_free : P .free) (p_core : P .core) (p_home : P .home)
    (p_pass : P .pass) (p_qos : P .qos) (p_ras : P .ras) (p_tvx : P .tvx) :
    s0.Frame P (State.storeWrite s d l lim) := by
  unfold State.storeWrite
  try dsimp only
  with_reducible repeat' (first
    | (intro (p : Part) hp; cases p <;> first | rfl | contradiction) | intro _ | assumption | exact State.Frame.refl _
    | apply State.copyStart_frame | apply State.storePut_frame | apply State.mcCharge_frame | apply f_ite
    | (apply f_mk; first | assumption | exact State.Frame.refl _ | apply State.copyStart_frame | apply State.storePut_frame | apply State.mcCharge_frame | apply f_ite)
    | split)

theorem State.chBytes_frame {s0 : State} {s : State} {ch : Nat} {eng : Nat} {mcid : Nat} {write : Bool} {n : Nat}
    (h0 : s0.Frame P s) (p_regs : P .regs) (p_pass : P .pass) (p_meter : P .meter) (p_qos : P .qos) :
    s0.Frame P (State.chBytes s ch eng mcid write n) := by
  unfold State.chBytes
  try dsimp only
  with_reducible repeat' (first
    | intro _ | assumption | exact State.Frame.refl _ | apply State.monitor_frame | apply State.meterAdd_frame
    | apply State.count_frame | apply f_ite)

theorem State.sanCount_frame {s0 : State} {s : State} {d : Nat} (h0 : s0.Frame P s) (p_regs : P .regs) (p_pass : P .pass) :
    s0.Frame P (State.sanCount s d) := by
  unfold State.sanCount
  try dsimp only
  with_reducible repeat' (first | intro _ | assumption | exact State.Frame.refl _ | apply State.count_frame | apply f_ite)

theorem State.memBytes_frame {s0 : State} {s : State} {d : Nat} {mcid : Nat} {write : Bool} {rcid : Nat} (h0 : s0.Frame P s)
    (p_regs : P .regs) (p_pass : P .pass) (p_meter : P .meter) (p_qos : P .qos) :
    s0.Frame P (State.memBytes s d mcid write rcid) := by
  unfold State.memBytes
  try dsimp only
  with_reducible repeat' (first
    | intro _ | assumption | exact State.Frame.refl _ | apply State.meterAdd_frame | apply State.count_frame
    | apply State.monitor_frame | apply f_ite)

end Sys2Proof.Machine
end

