-- ==== Sys2Proof/Laws/FrameMesa.lean ====
section
/-!
SUPPORT. What each function of Machine/Mesa.lean leaves alone (`State.Frame`, Safety.lean): one lemma for each.
-/

namespace Sys2Proof.Machine

variable {P : Part → Prop}

theorem State.setSec_frame {s0 : State} {s : State} {n : Nat} {set : Nat} {w : Nat} {e : SecTag} (h0 : s0.Frame P s)
    (p_mesa : P .mesa) :
    s0.Frame P (State.setSec s n set w e) := by
  unfold State.setSec
  try dsimp only
  with_reducible repeat' (first
    | (intro (p : Part) hp; cases p <;> first | rfl | contradiction) | intro _ | assumption | exact State.Frame.refl _
    | apply f_mk)

theorem State.setPlru_frame {s0 : State} {s : State} {n : Nat} {set : Nat} {v : Nat} (h0 : s0.Frame P s) (p_mesa : P .mesa)
    :
    s0.Frame P (State.setPlru s n set v) := by
  unfold State.setPlru
  try dsimp only
  with_reducible repeat' (first
    | (intro (p : Part) hp; cases p <;> first | rfl | contradiction) | intro _ | assumption | exact State.Frame.refl _
    | apply f_mk)

theorem State.setVict_frame {s0 : State} {s : State} {n : Nat} {v : List VictE} (h0 : s0.Frame P s) (p_mesa : P .mesa) :
    s0.Frame P (State.setVict s n v) := by
  unfold State.setVict
  try dsimp only
  with_reducible repeat' (first
    | (intro (p : Part) hp; cases p <;> first | rfl | contradiction) | intro _ | assumption | exact State.Frame.refl _
    | apply f_mk)

theorem State.setExtra_frame {s0 : State} {s : State} {n : Nat} {v : List ExtraE} (h0 : s0.Frame P s) (p_mesa : P .mesa) :
    s0.Frame P (State.setExtra s n v) := by
  unfold State.setExtra
  try dsimp only
  with_reducible repeat' (first
    | (intro (p : Part) hp; cases p <;> first | rfl | contradiction) | intro _ | assumption | exact State.Frame.refl _
    | apply f_mk)

theorem State.setMesaLine_frame {s0 : State} {s : State} {ld : Nat} {l : Line} (h0 : s0.Frame P s) (p_mesa : P .mesa) :
    s0.Frame P (State.setMesaLine s ld l) := by
  unfold State.setMesaLine
  try dsimp only
  with_reducible repeat' (first
    | (intro (p : Part) hp; cases p <;> first | rfl | contradiction) | intro _ | assumption | exact State.Frame.refl _
    | apply f_mk)

theorem State.setMesaBypass_frame {s0 : State} {s : State} {n : Nat} {b : Bool} (h0 : s0.Frame P s) (p_mesa : P .mesa) :
    s0.Frame P (State.setMesaBypass s n b) := by
  unfold State.setMesaBypass
  try dsimp only
  with_reducible repeat' (first
    | (intro (p : Part) hp; cases p <;> first | rfl | contradiction) | intro _ | assumption | exact State.Frame.refl _
    | apply f_mk)

theorem State.setMesaPowering_frame {s0 : State} {s : State} {n : Nat} {b : Bool} (h0 : s0.Frame P s) (p_mesa : P .mesa) :
    s0.Frame P (State.setMesaPowering s n b) := by
  unfold State.setMesaPowering
  try dsimp only
  with_reducible repeat' (first
    | (intro (p : Part) hp; cases p <;> first | rfl | contradiction) | intro _ | assumption | exact State.Frame.refl _
    | apply f_mk)

theorem State.cancelExtra_frame {s0 : State} {s : State} {n : Nat} {p : ExtraE → Bool} (h0 : s0.Frame P s)
    (p_regs : P .regs) (p_mesa : P .mesa) :
    s0.Frame P (State.cancelExtra s n p) := by
  unfold State.cancelExtra
  try dsimp only
  with_reducible repeat' (first | intro _ | assumption | exact State.Frame.refl _ | apply State.setExtra_frame | apply State.bump_frame)

theorem State.cancelSector_frame {s0 : State} {s : State} {n : Nat} {set : Nat} {tag : Nat} (h0 : s0.Frame P s)
    (p_regs : P .regs) (p_mesa : P .mesa) :
    s0.Frame P (State.cancelSector s n set tag) := by
  unfold State.cancelSector
  try dsimp only
  with_reducible repeat' (first | intro _ | assumption | exact State.Frame.refl _ | apply State.cancelExtra_frame)

theorem State.extraStart_frame {s0 : State} {s : State} {n : Nat} {d : Nat} {b : Nat} {rcid : Nat} {mcid : Nat}
    (h0 : s0.Frame P s) (p_regs : P .regs) (p_pass : P .pass) (p_mesa : P .mesa) (p_qos : P .qos) :
    s0.Frame P (State.extraStart s n d b rcid mcid) := by
  unfold State.extraStart
  try dsimp only
  with_reducible repeat' (first
    | intro _ | assumption | exact State.Frame.refl _ | apply State.count_frame | apply State.setExtra_frame
    | apply State.mcCharge_frame | apply State.bump_frame | apply f_ite)

theorem State.extraStartAll_frame {s0 : State} {s : State} {n : Nat} {d : Nat} {valid : Nat} {rcid : Nat} {mcid : Nat}
    (h0 : s0.Frame P s) (p_regs : P .regs) (p_pass : P .pass) (p_mesa : P .mesa) (p_qos : P .qos) :
    s0.Frame P (State.extraStartAll s n d valid rcid mcid) := by
  unfold State.extraStartAll
  try dsimp only
  with_reducible repeat' (first | intro _ | assumption | exact State.Frame.refl _ | apply State.extraStart_frame | apply f_ite | apply f_foldl)

theorem State.victDrop_frame {s0 : State} {s : State} {n : Nat} {gone : VictE → Bool} (h0 : s0.Frame P s) (p_regs : P .regs)
    (p_mesa : P .mesa) :
    s0.Frame P (State.victDrop s n gone) := by
  unfold State.victDrop
  try dsimp only
  with_reducible repeat' (first
    | intro _ | assumption | exact State.Frame.refl _ | apply State.setVict_frame | apply State.cancelSector_frame
    | apply f_foldl)

theorem State.victPush_frame {s0 : State} {s : State} {n : Nat} {e : VictE} (h0 : s0.Frame P s) (p_regs : P .regs)
    (p_mesa : P .mesa) :
    s0.Frame P (State.victPush s n e) := by
  unfold State.victPush
  try dsimp only
  with_reducible repeat' (first
    | intro _ | assumption | exact State.Frame.refl _ | apply State.cancelSector_frame | apply State.victDrop_frame
    | apply State.setVict_frame | apply f_ite | split)

theorem State.mesaTouch_frame {s0 : State} {s : State} {n : Nat} {set : Nat} {w : Nat} (h0 : s0.Frame P s)
    (p_mesa : P .mesa) :
    s0.Frame P (State.mesaTouch s n set w) := by
  unfold State.mesaTouch
  try dsimp only
  with_reducible repeat' (first | intro _ | assumption | exact State.Frame.refl _ | apply State.setPlru_frame)

theorem State.mesaPlace_frame {s0 : State} {s : State} {n : Nat} {set : Nat} {w : Nat} {e : SecTag} (h0 : s0.Frame P s)
    (p_regs : P .regs) (p_mesa : P .mesa) :
    s0.Frame P (State.mesaPlace s n set w e) := by
  unfold State.mesaPlace
  try dsimp only
  with_reducible repeat' (first
    | intro _ | assumption | exact State.Frame.refl _ | apply State.victPush_frame | apply State.mesaTouch_frame
    | apply State.setSec_frame)

theorem State.mesaRecall_frame {s0 : State} {s : State} {n : Nat} {v : VictE} {rcid : Nat} (h0 : s0.Frame P s)
    (p_regs : P .regs) (p_mesa : P .mesa) :
    s0.Frame P (State.mesaRecall s n v rcid) := by
  unfold State.mesaRecall
  try dsimp only
  with_reducible repeat' (first
    | intro _ | assumption | exact State.Frame.refl _ | apply State.setVict_frame | apply State.cancelSector_frame
    | apply State.mesaPlace_frame | split)

theorem State.mesaRead_frame {s0 : State} {s : State} {n : Nat} {d : Nat} {rcid : Nat} {mcid : Nat} (h0 : s0.Frame P s)
    (p_regs : P .regs) (p_pass : P .pass) (p_mesa : P .mesa) :
    s0.Frame P (State.mesaRead s n d rcid mcid).2 := by
  unfold State.mesaRead
  try dsimp only
  with_reducible repeat' (first
    | intro _ | assumption | exact State.Frame.refl _ | apply State.count_frame | apply State.mesaTouch_frame
    | apply State.mesaRecall_frame | apply f_ite | apply f_ite_fst | apply f_ite_snd | split)

theorem State.mesaInstall_frame {s0 : State} {s : State} {n : Nat} {d : Nat} {rcid : Nat} {mcid : Nat} {plan : Option Nat}
    {l : Line} (h0 : s0.Frame P s) (p_regs : P .regs) (p_pass : P .pass) (p_mesa : P .mesa) (p_qos : P .qos) :
    s0.Frame P (State.mesaInstall s n d rcid mcid plan l) := by
  unfold State.mesaInstall
  try dsimp only
  with_reducible repeat' (first
    | intro _ | assumption | exact State.Frame.refl _ | apply State.mesaTouch_frame | apply State.setMesaLine_frame
    | apply State.setSec_frame | apply State.extraStartAll_frame | apply State.mesaRead_frame | apply State.setVict_frame
    | apply State.mesaRecall_frame | apply State.count_frame | apply State.mesaPlace_frame | apply f_ite | apply f_ite_fst
    | apply f_ite_snd | refine f_of_snd (by assumption) ?_ | refine f_of_fst (by assumption) ?_
    | refine f_of_some (by assumption) ?_ | split)

theorem State.mesaInstallExtra_frame {s0 : State} {s : State} {n : Nat} {d : Nat} {l : Line} (h0 : s0.Frame P s)
    (p_mesa : P .mesa) :
    s0.Frame P (State.mesaInstallExtra s n d l) := by
  unfold State.mesaInstallExtra
  try dsimp only
  with_reducible repeat' (first
    | intro _ | assumption | exact State.Frame.refl _ | apply State.setMesaLine_frame | apply State.setSec_frame
    | apply State.mesaRead_frame | apply State.setVict_frame | apply f_ite | apply f_ite_fst | apply f_ite_snd
    | refine f_of_snd (by assumption) ?_ | refine f_of_fst (by assumption) ?_ | refine f_of_some (by assumption) ?_ | split)

theorem State.mesaWrite_frame {s0 : State} {s : State} {n : Nat} {d : Nat} {l : Option Line} (h0 : s0.Frame P s)
    (p_regs : P .regs) (p_pass : P .pass) (p_mesa : P .mesa) :
    s0.Frame P (State.mesaWrite s n d l) := by
  unfold State.mesaWrite
  try dsimp only
  with_reducible repeat' (first
    | intro _ | assumption | exact State.Frame.refl _ | apply State.cancelExtra_frame | apply State.count_frame
    | apply State.setMesaLine_frame | apply State.setSec_frame | apply State.cancelSector_frame | apply State.mesaRead_frame
    | apply State.victDrop_frame | apply State.setVict_frame | apply f_ite | apply f_ite_fst | apply f_ite_snd
    | refine f_of_snd (by assumption) ?_ | refine f_of_fst (by assumption) ?_ | refine f_of_some (by assumption) ?_ | split)

theorem State.homeWrite_frame {s0 : State} {s : State} {n : Nat} {d : Nat} {mcid : Nat} {l : Option Line} {rcid : Nat}
    {lim : Option Nat} (h0 : s0.Frame P s) (p_regs : P .regs) (p_mem : P .mem) (p_marked : P .marked) (p_free : P .free)
    (p_core : P .core) (p_home : P .home) (p_pass : P .pass) (p_mesa : P .mesa) (p_meter : P .meter) (p_qos : P .qos)
    (p_ras : P .ras) (p_tvx : P .tvx) :
    s0.Frame P (State.homeWrite s n d mcid l rcid lim) := by
  unfold State.homeWrite
  try dsimp only
  with_reducible repeat' (first
    | intro _ | assumption | exact State.Frame.refl _ | apply State.memBytes_frame | apply State.mesaWrite_frame
    | apply State.storeWrite_frame)

theorem State.mesaDropWay_frame {s0 : State} {s : State} {n : Nat} {set : Nat} {w : Nat} (h0 : s0.Frame P s)
    (p_mesa : P .mesa) :
    s0.Frame P (State.mesaDropWay s n set w) := by
  unfold State.mesaDropWay
  try dsimp only
  with_reducible repeat' (first | intro _ | assumption | exact State.Frame.refl _ | apply State.setSec_frame)

theorem State.mesaClear_frame {s0 : State} {s : State} {n : Nat} (h0 : s0.Frame P s) (p_mesa : P .mesa) :
    s0.Frame P (State.mesaClear s n) := by
  unfold State.mesaClear
  try dsimp only
  with_reducible repeat' (first
    | (intro (p : Part) hp; cases p <;> first | rfl | contradiction) | intro _ | assumption | exact State.Frame.refl _
    | apply State.setVict_frame | apply f_regs | apply f_mem | apply f_mk)

theorem State.mesaClearWay_frame {s0 : State} {s : State} {n : Nat} {w : Nat} (h0 : s0.Frame P s) (p_mesa : P .mesa) :
    s0.Frame P (State.mesaClearWay s n w) := by
  unfold State.mesaClearWay
  try dsimp only
  with_reducible repeat' (first
    | (intro (p : Part) hp; cases p <;> first | rfl | contradiction) | intro _ | assumption | exact State.Frame.refl _
    | apply f_regs | apply f_mem | apply f_mk)

theorem State.mesaInvStart_frame {s0 : State} {s : State} {n : Nat} (h0 : s0.Frame P s) (p_regs : P .regs)
    (p_home : P .home) (p_mesa : P .mesa) :
    s0.Frame P (State.mesaInvStart s n) := by
  unfold State.mesaInvStart
  try dsimp only
  with_reducible repeat' (first
    | (intro (p : Part) hp; cases p <;> first | rfl | contradiction) | intro _ | assumption | exact State.Frame.refl _
    | apply State.put_frame | apply State.mesaClear_frame | apply State.setMesaPowering_frame
    | apply State.cancelExtra_frame | apply State.bump_frame | apply f_ite
    | (apply f_mk; first | assumption | exact State.Frame.refl _ | apply State.put_frame | apply State.mesaClear_frame | apply State.setMesaPowering_frame | apply State.cancelExtra_frame | apply State.bump_frame | apply f_ite)
    | split)

theorem State.regionsOff_frame {s0 : State} {s : State} (h0 : s0.Frame P s) (p_regs : P .regs) (p_mesa : P .mesa) :
    s0.Frame P (State.regionsOff s) := by
  unfold State.regionsOff
  try dsimp only
  with_reducible repeat' (first
    | (intro (p : Part) hp; cases p <;> first | rfl | contradiction) | intro _ | assumption | exact State.Frame.refl _
    | apply State.put_frame | apply f_ite | apply f_foldl | apply f_mk)

theorem State.mesaInvEnd_frame {s0 : State} {s : State} {n : Nat} (h0 : s0.Frame P s) (p_regs : P .regs) (p_mesa : P .mesa)
    :
    s0.Frame P (State.mesaInvEnd s n) := by
  unfold State.mesaInvEnd
  try dsimp only
  with_reducible repeat' (first
    | (intro (p : Part) hp; cases p <;> first | rfl | contradiction) | intro _ | assumption | exact State.Frame.refl _
    | apply State.put_frame | apply State.bump_frame | apply State.regionsOff_frame | apply State.setMesaBypass_frame
    | apply f_ite | apply f_mk)

theorem State.mesaInvAll_frame {s0 : State} {s : State} (h0 : s0.Frame P s) (p_regs : P .regs) (p_home : P .home)
    (p_mesa : P .mesa) :
    s0.Frame P (State.mesaInvAll s) := by
  unfold State.mesaInvAll
  try dsimp only
  with_reducible repeat' (first | intro _ | assumption | exact State.Frame.refl _ | apply State.mesaInvStart_frame | apply f_foldN)

theorem State.mesaLevel_frame {s0 : State} {s : State} {n : Nat} {level : Nat} (h0 : s0.Frame P s) (p_regs : P .regs)
    (p_home : P .home) (p_mesa : P .mesa) :
    s0.Frame P (State.mesaLevel s n level) := by
  unfold State.mesaLevel
  try dsimp only
  with_reducible repeat' (first
    | intro _ | assumption | exact State.Frame.refl _ | apply State.put_frame | apply State.setMesaBypass_frame
    | apply State.mesaInvStart_frame | apply State.setMesaPowering_frame | apply f_ite)

theorem State.mesaCountWays_frame {s0 : State} {s : State} {n : Nat} (h0 : s0.Frame P s) (p_regs : P .regs) :
    s0.Frame P (State.mesaCountWays s n) := by
  unfold State.mesaCountWays
  try dsimp only
  with_reducible repeat' (first | intro _ | assumption | exact State.Frame.refl _ | apply State.put_frame)

theorem State.mesaWayOff_frame {s0 : State} {s : State} {n : Nat} {w : Nat} (h0 : s0.Frame P s) (p_regs : P .regs)
    (p_home : P .home) (p_mesa : P .mesa) (p_tvx : P .tvx) :
    s0.Frame P (State.mesaWayOff s n w) := by
  unfold State.mesaWayOff
  try dsimp only
  with_reducible repeat' (first
    | (intro (p : Part) hp; cases p <;> first | rfl | contradiction) | intro _ | assumption | exact State.Frame.refl _
    | apply State.cancelExtra_frame | apply State.mesaClearWay_frame | apply State.putBit_frame
    | apply State.mesaCountWays_frame | apply State.logEvent_frame | apply f_ite | apply f_mk)

theorem State.mesaWayOn_frame {s0 : State} {s : State} {n : Nat} {w : Nat} (h0 : s0.Frame P s) (p_regs : P .regs)
    (p_mesa : P .mesa) :
    s0.Frame P (State.mesaWayOn s n w) := by
  unfold State.mesaWayOn
  try dsimp only
  with_reducible repeat' (first
    | intro _ | assumption | exact State.Frame.refl _ | apply State.mesaCountWays_frame | apply State.putBit_frame
    | apply State.mesaClearWay_frame | apply f_ite)

end Sys2Proof.Machine
end

