-- ==== Sys2Proof/Laws/FrameHome.lean ====
section
/-!
SUPPORT. What each function of Machine/Home.lean leaves alone (`State.Frame`, Safety.lean): one lemma for each.
-/

namespace Sys2Proof.Machine

variable {P : Part → Prop}

theorem State.protoErr_frame {s0 : State} {s : State} {n : Nat} {m : Msg} {kind : Nat} (h0 : s0.Frame P s)
    (p_regs : P .regs) :
    s0.Frame P (State.protoErr s n m kind) := by
  unfold State.protoErr
  try dsimp only
  with_reducible repeat' (first | intro _ | assumption | exact State.Frame.refl _ | apply State.put_frame | apply f_ite)

theorem State.tokenErr_frame {s0 : State} {s : State} {n : Nat} {t : Nat} {kind : Nat} {pkg : Nat} {agent : Nat}
    (h0 : s0.Frame P s) (p_regs : P .regs) :
    s0.Frame P (State.tokenErr s n t kind pkg agent) := by
  unfold State.tokenErr
  try dsimp only
  with_reducible repeat' (first | intro _ | assumption | exact State.Frame.refl _ | apply State.put_frame | apply f_ite)

theorem State.sendErr_frame {s0 : State} {s : State} {n : Nat} {m : Msg} {cause : Nat} (h0 : s0.Frame P s) (p_net : P .net)
    :
    s0.Frame P (State.sendErr s n m cause) := by
  unfold State.sendErr
  try dsimp only
  with_reducible repeat' (first | intro _ | assumption | exact State.Frame.refl _ | apply State.send_frame)

theorem State.sendAfter_frame {s0 : State} {s : State} {m : Msg} (h0 : s0.Frame P s) (p_net : P .net) (p_home : P .home) :
    s0.Frame P (State.sendAfter s m) := by
  unfold State.sendAfter
  try dsimp only
  with_reducible repeat' (first
    | (intro (p : Part) hp; cases p <;> first | rfl | contradiction) | intro _ | assumption | exact State.Frame.refl _
    | apply State.send_frame | apply f_ite | apply f_mk)

theorem State.sendComp_frame {s0 : State} {s : State} {n : Nat} {htag : Nat} {m : Msg} {status : Nat} (h0 : s0.Frame P s)
    (p_net : P .net) (p_home : P .home) :
    s0.Frame P (State.sendComp s n htag m status) := by
  unfold State.sendComp
  try dsimp only
  with_reducible repeat' (first | intro _ | assumption | exact State.Frame.refl _ | apply State.sendAfter_frame)

theorem State.sendData_frame {s0 : State} {s : State} {n : Nat} {htag : Nat} {m : Msg} {opc : Nat} {dsrc : Nat}
    {l : Option Line} (h0 : s0.Frame P s) (p_net : P .net) (p_home : P .home) :
    s0.Frame P (State.sendData s n htag m opc dsrc l) := by
  unfold State.sendData
  try dsimp only
  with_reducible repeat' (first | intro _ | assumption | exact State.Frame.refl _ | apply State.sendAfter_frame)

theorem State.homeIllegal_frame {s0 : State} {s : State} {n : Nat} {m : Msg} {kind : Nat} (h0 : s0.Frame P s)
    (p_regs : P .regs) (p_net : P .net) :
    s0.Frame P (State.homeIllegal s n m kind) := by
  unfold State.homeIllegal
  try dsimp only
  with_reducible repeat' (first
    | intro _ | assumption | exact State.Frame.refl _ | apply State.protoErr_frame | apply State.sendErr_frame
    | apply State.send_frame | apply f_ite)

theorem State.setDirE_frame {s0 : State} {s : State} {n : Nat} {set : Nat} {w : Nat} {e : DirE} (h0 : s0.Frame P s)
    (p_home : P .home) :
    s0.Frame P (State.setDirE s n set w e) := by
  unfold State.setDirE
  try dsimp only
  with_reducible repeat' (first
    | (intro (p : Part) hp; cases p <;> first | rfl | contradiction) | intro _ | assumption | exact State.Frame.refl _
    | apply f_mk)

theorem State.setRptE_frame {s0 : State} {s : State} {n : Nat} {set : Nat} {w : Nat} {e : RptE} (h0 : s0.Frame P s)
    (p_home : P .home) :
    s0.Frame P (State.setRptE s n set w e) := by
  unfold State.setRptE
  try dsimp only
  with_reducible repeat' (first
    | (intro (p : Part) hp; cases p <;> first | rfl | contradiction) | intro _ | assumption | exact State.Frame.refl _
    | apply f_mk)

theorem State.setRldE_frame {s0 : State} {s : State} {n : Nat} {set : Nat} {w : Nat} {e : RldE} (h0 : s0.Frame P s)
    (p_home : P .home) :
    s0.Frame P (State.setRldE s n set w e) := by
  unfold State.setRldE
  try dsimp only
  with_reducible repeat' (first
    | (intro (p : Part) hp; cases p <;> first | rfl | contradiction) | intro _ | assumption | exact State.Frame.refl _
    | apply f_mk)

theorem State.freeRpt_frame {s0 : State} {s : State} {n : Nat} {d : Nat} (h0 : s0.Frame P s) (p_home : P .home) :
    s0.Frame P (State.freeRpt s n d) := by
  unfold State.freeRpt
  try dsimp only
  with_reducible repeat' (first | intro _ | assumption | exact State.Frame.refl _ | apply State.setRptE_frame | split)

theorem State.freeDir_frame {s0 : State} {s : State} {n : Nat} {d : Nat} (h0 : s0.Frame P s) (p_home : P .home) :
    s0.Frame P (State.freeDir s n d) := by
  unfold State.freeDir
  try dsimp only
  with_reducible repeat' (first | intro _ | assumption | exact State.Frame.refl _ | apply State.freeRpt_frame | apply State.setDirE_frame | split)

theorem State.writeRpt_frame {s0 : State} {s : State} {n : Nat} {d : Nat} {v : View} (h0 : s0.Frame P s) (p_home : P .home)
    :
    s0.Frame P (State.writeRpt s n d v) := by
  unfold State.writeRpt
  try dsimp only
  with_reducible repeat' (first
    | intro _ | assumption | exact State.Frame.refl _ | apply State.freeRpt_frame | apply State.setRptE_frame | apply f_ite
    | split)

theorem State.writeView_frame {s0 : State} {s : State} {n : Nat} {d : Nat} {v : View} (h0 : s0.Frame P s) (p_home : P .home)
    :
    s0.Frame P (State.writeView s n d v) := by
  unfold State.writeView
  try dsimp only
  with_reducible repeat' (first
    | intro _ | assumption | exact State.Frame.refl _ | apply State.freeDir_frame | apply State.setDirE_frame
    | apply State.writeRpt_frame | apply f_ite | split)

theorem State.writeRld_frame {s0 : State} {s : State} {n : Nat} {ga : Nat} {v : View} (h0 : s0.Frame P s) (p_home : P .home)
    :
    s0.Frame P (State.writeRld s n ga v) := by
  unfold State.writeRld
  try dsimp only
  with_reducible repeat' (first | intro _ | assumption | exact State.Frame.refl _ | apply State.setRldE_frame | apply f_ite | split)

theorem State.rptTouch_frame {s0 : State} {s : State} {n : Nat} {d : Nat} (h0 : s0.Frame P s) (p_home : P .home) :
    s0.Frame P (State.rptTouch s n d) := by
  unfold State.rptTouch
  try dsimp only
  with_reducible repeat' (first | intro _ | assumption | exact State.Frame.refl _ | apply State.setRptE_frame | split)

theorem State.dirTouch_frame {s0 : State} {s : State} {n : Nat} {d : Nat} (h0 : s0.Frame P s) (p_home : P .home) :
    s0.Frame P (State.dirTouch s n d) := by
  unfold State.dirTouch
  try dsimp only
  with_reducible repeat' (first
    | intro _ | assumption | exact State.Frame.refl _ | apply State.setDirE_frame | apply State.rptTouch_frame | apply f_ite
    | split)

theorem State.rldTouch_frame {s0 : State} {s : State} {n : Nat} {ga : Nat} (h0 : s0.Frame P s) (p_home : P .home) :
    s0.Frame P (State.rldTouch s n ga) := by
  unfold State.rldTouch
  try dsimp only
  with_reducible repeat' (first | intro _ | assumption | exact State.Frame.refl _ | apply State.setRldE_frame | split)

theorem State.setLock_frame {s0 : State} {s : State} {n : Nat} {htag : Nat} {t : Option HTxn} (h0 : s0.Frame P s)
    (p_regs : P .regs) (p_home : P .home) :
    s0.Frame P (State.setLock s n htag t) := by
  unfold State.setLock
  try dsimp only
  with_reducible repeat' (first
    | (intro (p : Part) hp; cases p <;> first | rfl | contradiction) | intro _ | assumption | exact State.Frame.refl _
    | apply State.put_frame | apply f_ite | apply f_mk)

theorem State.setTok_frame {s0 : State} {s : State} {n : Nat} {t : Nat} {k : Tok} (h0 : s0.Frame P s) (p_home : P .home) :
    s0.Frame P (State.setTok s n t k) := by
  unfold State.setTok
  try dsimp only
  with_reducible repeat' (first
    | (intro (p : Part) hp; cases p <;> first | rfl | contradiction) | intro _ | assumption | exact State.Frame.refl _
    | apply f_mk)

theorem State.setOwed_frame {s0 : State} {s : State} {n : Nat} {first : Nat} {v : List (Nat × Nat)} (h0 : s0.Frame P s)
    (p_home : P .home) :
    s0.Frame P (State.setOwed s n first v) := by
  unfold State.setOwed
  try dsimp only
  with_reducible repeat' (first
    | (intro (p : Part) hp; cases p <;> first | rfl | contradiction) | intro _ | assumption | exact State.Frame.refl _
    | apply f_mk)

theorem State.sendRetry_frame {s0 : State} {s : State} {n : Nat} {m : Msg} {tok : Option Nat} (h0 : s0.Frame P s)
    (p_regs : P .regs) (p_net : P .net) (p_pass : P .pass) :
    s0.Frame P (State.sendRetry s n m tok) := by
  unfold State.sendRetry
  try dsimp only
  with_reducible repeat' (first
    | intro _ | assumption | exact State.Frame.refl _ | apply State.send_frame | apply State.count_frame
    | apply State.bump_frame | split)

theorem State.sendGrant_frame {s0 : State} {s : State} {n : Nat} {t : Nat} {pkg : Nat} {agent : Nat} {line : Nat}
    {txn : Nat} (h0 : s0.Frame P s) (p_regs : P .regs) (p_net : P .net) (p_pass : P .pass) :
    s0.Frame P (State.sendGrant s n t pkg agent line txn) := by
  unfold State.sendGrant
  try dsimp only
  with_reducible repeat' (first
    | intro _ | assumption | exact State.Frame.refl _ | apply State.send_frame | apply State.bump_frame
    | apply State.count_frame)

theorem State.freeTok_frame {s0 : State} {s : State} {n : Nat} {t : Nat} (h0 : s0.Frame P s) (p_regs : P .regs)
    (p_net : P .net) (p_home : P .home) (p_pass : P .pass) :
    s0.Frame P (State.freeTok s n t) := by
  unfold State.freeTok
  try dsimp only
  with_reducible repeat' (first
    | (intro (p : Part) hp; cases p <;> first | rfl | contradiction) | intro _ | assumption | exact State.Frame.refl _
    | apply State.setTok_frame | apply State.setOwed_frame | apply State.sendGrant_frame
    | (apply f_mk; first | assumption | exact State.Frame.refl _ | apply State.setTok_frame | apply State.setOwed_frame | apply State.sendGrant_frame)
    | split)

theorem State.reserveFor_frame {s0 : State} {s : State} {n : Nat} {htag : Nat} {t : Nat} (h0 : s0.Frame P s)
    (p_regs : P .regs) (p_net : P .net) (p_home : P .home) (p_pass : P .pass) :
    s0.Frame P (State.reserveFor s n htag t) := by
  unfold State.reserveFor
  try dsimp only
  with_reducible repeat' (first
    | intro _ | assumption | exact State.Frame.refl _ | apply State.setTok_frame | apply State.sendGrant_frame
    | apply State.setLock_frame | apply f_ite)

theorem State.slotFreed_frame {s0 : State} {s : State} {n : Nat} {htag : Nat} {line : Nat} (h0 : s0.Frame P s)
    (p_regs : P .regs) (p_net : P .net) (p_home : P .home) (p_pass : P .pass) :
    s0.Frame P (State.slotFreed s n htag line) := by
  unfold State.slotFreed
  try dsimp only
  with_reducible repeat' (first
    | intro _ | assumption | exact State.Frame.refl _ | apply State.setLock_frame | apply State.reserveFor_frame
    | apply f_ite | split)

theorem State.noteWaiters_frame {s0 : State} {s : State} {n : Nat} {line : Nat} (h0 : s0.Frame P s) (p_regs : P .regs) :
    s0.Frame P (State.noteWaiters s n line) := by
  unfold State.noteWaiters
  try dsimp only
  with_reducible repeat' (first | intro _ | assumption | exact State.Frame.refl _ | apply State.put_frame | apply f_ite)

theorem State.refuse_frame {s0 : State} {s : State} {n : Nat} {m : Msg} {keep : Option Nat} {pool : Bool}
    (h0 : s0.Frame P s) (p_regs : P .regs) (p_net : P .net) (p_home : P .home) (p_pass : P .pass) :
    s0.Frame P (State.refuse s n m keep pool) := by
  unfold State.refuse
  try dsimp only
  with_reducible repeat' (first
    | (intro (p : Part) hp; cases p <;> first | rfl | contradiction) | intro _ | assumption | exact State.Frame.refl _
    | apply State.sendRetry_frame | apply State.noteWaiters_frame | apply State.setTok_frame | apply State.setOwed_frame
    | apply f_ite
    | (apply f_mk; first | assumption | exact State.Frame.refl _ | apply State.sendRetry_frame | apply State.noteWaiters_frame | apply State.setTok_frame | apply State.setOwed_frame | apply f_ite)
    | split)

theorem State.decide0_frame {s0 : State} {s : State} {n : Nat} {m : Msg} {keep : Option Nat} (h0 : s0.Frame P s)
    (p_regs : P .regs) (p_net : P .net) (p_home : P .home) (p_pass : P .pass) :
    s0.Frame P (State.decide0 s n m keep).2 := by
  unfold State.decide0
  try dsimp only
  with_reducible repeat' (first
    | intro _ | assumption | exact State.Frame.refl _ | apply State.refuse_frame | apply State.slotFreed_frame
    | apply State.freeTok_frame | apply f_ite | apply f_ite_fst | apply f_ite_snd | split)

theorem State.arbitrate_frame {s0 : State} {s : State} {n : Nat} {m : Msg} (h0 : s0.Frame P s) (p_regs : P .regs)
    (p_net : P .net) (p_home : P .home) (p_pass : P .pass) :
    s0.Frame P (State.arbitrate s n m).2 := by
  unfold State.arbitrate
  try dsimp only
  with_reducible repeat' (first
    | intro _ | assumption | exact State.Frame.refl _ | apply State.decide0_frame | apply State.tokenErr_frame
    | apply State.sendErr_frame | apply State.sendRetry_frame | apply State.freeTok_frame | apply f_ite | apply f_ite_fst
    | apply f_ite_snd | apply f_map_snd | apply f_map_fst | refine f_of_snd (by assumption) ?_
    | refine f_of_fst (by assumption) ?_ | refine f_of_some (by assumption) ?_ | split)

theorem State.setStrm_frame {s0 : State} {s : State} {d : Nat} {dir : Nat} {x : PStream} (h0 : s0.Frame P s)
    (p_pass : P .pass) :
    s0.Frame P (State.setStrm s d dir x) := by
  unfold State.setStrm
  try dsimp only
  with_reducible repeat' (first
    | (intro (p : Part) hp; cases p <;> first | rfl | contradiction) | intro _ | assumption | exact State.Frame.refl _
    | apply f_mk)

theorem State.setPEnd_frame {s0 : State} {s : State} {e : Nat} {p : Nat} {x : PEnd} (h0 : s0.Frame P s) (p_pass : P .pass) :
    s0.Frame P (State.setPEnd s e p x) := by
  unfold State.setPEnd
  try dsimp only
  with_reducible repeat' (first
    | (intro (p : Part) hp; cases p <;> first | rfl | contradiction) | intro _ | assumption | exact State.Frame.refl _
    | apply f_mk)

theorem State.rxConsume_frame {s0 : State} {s : State} {m : LinkMsg} (h0 : s0.Frame P s) (p_pass : P .pass) :
    s0.Frame P (State.rxConsume s m) := by
  unfold State.rxConsume
  try dsimp only
  with_reducible repeat' (first | intro _ | assumption | exact State.Frame.refl _ | apply State.setPEnd_frame | split)

theorem State.hznConsume_frame {s0 : State} {s : State} {is : HMsg → Bool} (h0 : s0.Frame P s) (p_hzn : P .hzn) :
    s0.Frame P (State.hznConsume s is) := by
  unfold State.hznConsume
  try dsimp only
  with_reducible repeat' (first | intro _ | assumption | exact State.Frame.refl _ | apply State.setHPort_frame | split)

theorem State.arbTaken_frame {s0 : State} {s : State} {n : Nat} {m : Msg} (h0 : s0.Frame P s) (p_regs : P .regs)
    (p_home : P .home) :
    s0.Frame P (State.arbTaken s n m) := by
  unfold State.arbTaken
  try dsimp only
  with_reducible repeat' (first
    | (intro (p : Part) hp; cases p <;> first | rfl | contradiction) | intro _ | assumption | exact State.Frame.refl _
    | apply State.put_frame | apply f_ite | apply f_mk)

theorem State.take_frame {s0 : State} {s : State} {m : Msg} (h0 : s0.Frame P s) (p_net : P .net) (p_pass : P .pass)
    (p_hzn : P .hzn) :
    s0.Frame P (State.take s m) := by
  unfold State.take
  try dsimp only
  with_reducible repeat' (first
    | (intro (p : Part) hp; cases p <;> first | rfl | contradiction) | intro _ | assumption | exact State.Frame.refl _
    | apply State.hznConsume_frame | apply State.rxConsume_frame
    | (apply f_mk; first | assumption | exact State.Frame.refl _ | apply State.hznConsume_frame | apply State.rxConsume_frame)
    | split)

end Sys2Proof.Machine
end

