-- ==== Sys2Proof/Laws/FrameHomeFlow.lean ====
section
/-!
SUPPORT. What each function of Machine/HomeFlow.lean leaves alone (`State.Frame`, Safety.lean): one lemma for each.
-/

namespace Sys2Proof.Machine

variable {P : Part → Prop}

theorem State.snoop_frame {s0 : State} {s : State} {n : Nat} {htag : Nat} {t : HTxn} {opc : Nat} {h : Nat} {toHome : Bool}
    (h0 : s0.Frame P s) (p_regs : P .regs) (p_net : P .net) (p_pass : P .pass) :
    s0.Frame P (State.snoop s n htag t opc h toHome) := by
  unfold State.snoop
  try dsimp only
  with_reducible repeat' (first | intro _ | assumption | exact State.Frame.refl _ | apply State.count_frame | apply State.send_frame | apply f_ite)

theorem State.snoopAll_frame {s0 : State} {s : State} {n : Nat} {htag : Nat} {t : HTxn} {opc : Nat} {mask : Nat}
    {toHome : Bool} (h0 : s0.Frame P s) (p_regs : P .regs) (p_net : P .net) (p_pass : P .pass) :
    s0.Frame P (State.snoopAll s n htag t opc mask toHome) := by
  unfold State.snoopAll
  try dsimp only
  with_reducible repeat' (first | intro _ | assumption | exact State.Frame.refl _ | apply State.snoop_frame | apply f_foldl)

theorem State.wbAnswer_frame {s0 : State} {s : State} {n : Nat} {m : Msg} {stale : Bool} (h0 : s0.Frame P s)
    (p_regs : P .regs) (p_net : P .net) (p_home : P .home) (p_pass : P .pass) :
    s0.Frame P (State.wbAnswer s n m stale) := by
  unfold State.wbAnswer
  try dsimp only
  with_reducible repeat' (first
    | intro _ | assumption | exact State.Frame.refl _ | apply State.count_frame | apply State.send_frame
    | apply State.sendAfter_frame | apply f_ite)

theorem State.wbApply_frame {s0 : State} {s : State} {n : Nat} {m : Msg} {w : Nat} (h0 : s0.Frame P s) (p_regs : P .regs)
    (p_mem : P .mem) (p_marked : P .marked) (p_net : P .net) (p_free : P .free) (p_core : P .core) (p_home : P .home)
    (p_pass : P .pass) (p_mesa : P .mesa) (p_meter : P .meter) (p_qos : P .qos) (p_ras : P .ras) (p_tvx : P .tvx) :
    s0.Frame P (State.wbApply s n m w) := by
  unfold State.wbApply
  try dsimp only
  with_reducible repeat' (first
    | intro _ | assumption | exact State.Frame.refl _ | apply State.homeWrite_frame | apply State.writeView_frame
    | apply State.wbAnswer_frame)

theorem State.wbUnlocked_frame {s0 : State} {s : State} {n : Nat} {m : Msg} (h0 : s0.Frame P s) (p_regs : P .regs)
    (p_mem : P .mem) (p_marked : P .marked) (p_net : P .net) (p_free : P .free) (p_core : P .core) (p_home : P .home)
    (p_pass : P .pass) (p_mesa : P .mesa) (p_meter : P .meter) (p_qos : P .qos) (p_ras : P .ras) (p_tvx : P .tvx) :
    s0.Frame P (State.wbUnlocked s n m) := by
  unfold State.wbUnlocked
  try dsimp only
  with_reducible repeat' (first
    | intro _ | assumption | exact State.Frame.refl _ | apply State.wbAnswer_frame | apply State.homeWrite_frame
    | apply State.wbApply_frame | apply State.protoErr_frame | apply f_ite | split)

theorem State.lostCopy_frame {s0 : State} {s : State} {n : Nat} {line : Nat} {d : Nat} (h0 : s0.Frame P s)
    (p_regs : P .regs) (p_mem : P .mem) (p_marked : P .marked) (p_free : P .free) (p_core : P .core) (p_home : P .home)
    (p_pass : P .pass) (p_mesa : P .mesa) (p_meter : P .meter) (p_qos : P .qos) (p_ras : P .ras) (p_tvx : P .tvx) :
    s0.Frame P (State.lostCopy s n line d) := by
  unfold State.lostCopy
  try dsimp only
  with_reducible repeat' (first
    | (intro (p : Part) hp; cases p <;> first | rfl | contradiction) | intro _ | assumption | exact State.Frame.refl _
    | apply State.homeWrite_frame | apply State.writeView_frame | apply f_regs | apply f_mem
    | (apply f_mk; first | assumption | exact State.Frame.refl _ | apply State.homeWrite_frame | apply State.writeView_frame | apply f_regs | apply f_mem)
    | split)

theorem State.lostLook_frame {s0 : State} {s : State} {n : Nat} {line : Nat} (h0 : s0.Frame P s) (p_regs : P .regs)
    (p_mem : P .mem) (p_marked : P .marked) (p_free : P .free) (p_core : P .core) (p_home : P .home) (p_pass : P .pass)
    (p_mesa : P .mesa) (p_meter : P .meter) (p_qos : P .qos) (p_ras : P .ras) (p_tvx : P .tvx) :
    s0.Frame P (State.lostLook s n line) := by
  unfold State.lostLook
  try dsimp only
  with_reducible repeat' (first
    | intro _ | assumption | exact State.Frame.refl _ | apply State.wbUnlocked_frame | apply State.lostCopy_frame
    | apply f_ite | split)

theorem State.fillReply_frame {s0 : State} {s : State} {n : Nat} {htag : Nat} {t : HTxn} (h0 : s0.Frame P s)
    (p_regs : P .regs) (p_net : P .net) (p_home : P .home) :
    s0.Frame P (State.fillReply s n htag t) := by
  unfold State.fillReply
  try dsimp only
  with_reducible repeat' (first
    | intro _ | assumption | exact State.Frame.refl _ | apply State.setLock_frame | apply State.writeView_frame
    | apply State.sendData_frame | apply f_ite | split)

theorem State.releaseNow_frame {s0 : State} {s : State} {n : Nat} {htag : Nat} {line : Nat} (h0 : s0.Frame P s)
    (p_regs : P .regs) (p_mem : P .mem) (p_marked : P .marked) (p_net : P .net) (p_free : P .free) (p_core : P .core)
    (p_home : P .home) (p_pass : P .pass) (p_mesa : P .mesa) (p_meter : P .meter) (p_qos : P .qos) (p_ras : P .ras)
    (p_tvx : P .tvx) :
    s0.Frame P (State.releaseNow s n htag line) := by
  unfold State.releaseNow
  try dsimp only
  with_reducible repeat' (first
    | (intro (p : Part) hp; cases p <;> first | rfl | contradiction) | intro _ | assumption | exact State.Frame.refl _
    | apply State.slotFreed_frame | apply State.wbUnlocked_frame | apply f_foldl | apply f_regs | apply f_mem | apply f_mk)

theorem State.release_frame {s0 : State} {s : State} {n : Nat} {htag : Nat} {line : Nat} (h0 : s0.Frame P s)
    (p_regs : P .regs) (p_mem : P .mem) (p_marked : P .marked) (p_net : P .net) (p_free : P .free) (p_core : P .core)
    (p_home : P .home) (p_pass : P .pass) (p_mesa : P .mesa) (p_meter : P .meter) (p_qos : P .qos) (p_ras : P .ras)
    (p_tvx : P .tvx) :
    s0.Frame P (State.release s n htag line) := by
  unfold State.release
  try dsimp only
  with_reducible repeat' (first
    | intro _ | assumption | exact State.Frame.refl _ | apply State.setLock_frame | apply State.releaseNow_frame
    | apply f_ite | split)

theorem State.forwardedCore_frame {s0 : State} {s : State} {n : Nat} {htag : Nat} {t : HTxn} (h0 : s0.Frame P s)
    (p_regs : P .regs) (p_home : P .home) :
    s0.Frame P (State.forwardedCore s n htag t) := by
  unfold State.forwardedCore
  try dsimp only
  with_reducible repeat' (first
    | intro _ | assumption | exact State.Frame.refl _ | apply State.wbUnlocked_frame | apply State.writeView_frame
    | apply State.setLock_frame | apply f_ite | split)

theorem State.resumeFill_frame {s0 : State} {s : State} {n : Nat} {htag : Nat} (h0 : s0.Frame P s) (p_regs : P .regs)
    (p_net : P .net) (p_home : P .home) :
    s0.Frame P (State.resumeFill s n htag) := by
  unfold State.resumeFill
  try dsimp only
  with_reducible repeat' (first
    | intro _ | assumption | exact State.Frame.refl _ | apply State.release_frame | apply State.setLock_frame
    | apply State.forwardedCore_frame | apply State.fillReply_frame | apply f_ite | split)

theorem State.closeRequest_frame {s0 : State} {s : State} {n : Nat} {htag : Nat} (h0 : s0.Frame P s) (p_regs : P .regs)
    (p_mem : P .mem) (p_marked : P .marked) (p_net : P .net) (p_free : P .free) (p_core : P .core) (p_home : P .home)
    (p_pass : P .pass) (p_mesa : P .mesa) (p_meter : P .meter) (p_qos : P .qos) (p_ras : P .ras) (p_tvx : P .tvx) :
    s0.Frame P (State.closeRequest s n htag) := by
  unfold State.closeRequest
  try dsimp only
  with_reducible repeat' (first | intro _ | assumption | exact State.Frame.refl _ | apply State.release_frame | apply f_ite | split)

theorem State.tryClose_frame {s0 : State} {s : State} {n : Nat} {htag : Nat} (h0 : s0.Frame P s) (p_regs : P .regs)
    (p_mem : P .mem) (p_marked : P .marked) (p_net : P .net) (p_free : P .free) (p_core : P .core) (p_home : P .home)
    (p_pass : P .pass) (p_mesa : P .mesa) (p_meter : P .meter) (p_qos : P .qos) (p_ras : P .ras) (p_tvx : P .tvx) :
    s0.Frame P (State.tryClose s n htag) := by
  unfold State.tryClose
  try dsimp only
  with_reducible repeat' (first
    | intro _ | assumption | exact State.Frame.refl _ | apply State.release_frame | apply State.closeRequest_frame
    | apply State.resumeFill_frame | apply f_ite | split)

theorem State.failTxn_frame {s0 : State} {s : State} {n : Nat} {htag : Nat} {t : HTxn} {cause : Nat} (h0 : s0.Frame P s)
    (p_regs : P .regs) (p_mem : P .mem) (p_marked : P .marked) (p_net : P .net) (p_free : P .free) (p_core : P .core)
    (p_home : P .home) (p_pass : P .pass) (p_mesa : P .mesa) (p_meter : P .meter) (p_qos : P .qos) (p_ras : P .ras)
    (p_tvx : P .tvx) :
    s0.Frame P (State.failTxn s n htag t cause) := by
  unfold State.failTxn
  try dsimp only
  with_reducible repeat' (first
    | intro _ | assumption | exact State.Frame.refl _ | apply State.sendErr_frame | apply State.setLock_frame
    | apply State.tryClose_frame)

theorem State.recallLock_frame {s0 : State} {s : State} {n : Nat} {htag : Nat} {line : Nat} {work : HWork} {mask : Nat}
    {owner : Option Nat} {found : Nat} (h0 : s0.Frame P s) (p_regs : P .regs) (p_net : P .net) (p_home : P .home)
    (p_pass : P .pass) :
    s0.Frame P (State.recallLock s n htag line work mask owner found) := by
  unfold State.recallLock
  try dsimp only
  with_reducible repeat' (first
    | intro _ | assumption | exact State.Frame.refl _ | apply State.wbUnlocked_frame | apply State.snoopAll_frame
    | apply State.setLock_frame | apply State.snoop_frame | apply f_ite | split)

theorem State.recallNone_frame {s0 : State} {s : State} {n : Nat} {htag : Nat} {line : Nat} {t : HTxn} {mask : Nat}
    (h0 : s0.Frame P s) (p_regs : P .regs) (p_mem : P .mem) (p_marked : P .marked) (p_net : P .net) (p_free : P .free)
    (p_core : P .core) (p_home : P .home) (p_pass : P .pass) (p_mesa : P .mesa) (p_meter : P .meter) (p_qos : P .qos)
    (p_ras : P .ras) (p_tvx : P .tvx) :
    s0.Frame P (State.recallNone s n htag line t mask) := by
  unfold State.recallNone
  try dsimp only
  with_reducible repeat' (first
    | intro _ | assumption | exact State.Frame.refl _ | apply State.writeView_frame | apply State.closeRequest_frame
    | apply State.resumeFill_frame | apply State.setLock_frame | apply f_ite | apply f_foldl)

theorem State.evictFor_frame {s0 : State} {s : State} {n : Nat} {htag : Nat} {t : HTxn} (h0 : s0.Frame P s)
    (p_regs : P .regs) (p_mem : P .mem) (p_marked : P .marked) (p_net : P .net) (p_free : P .free) (p_core : P .core)
    (p_home : P .home) (p_pass : P .pass) (p_mesa : P .mesa) (p_meter : P .meter) (p_qos : P .qos) (p_ras : P .ras)
    (p_tvx : P .tvx) :
    s0.Frame P (State.evictFor s n htag t) := by
  unfold State.evictFor
  try dsimp only
  with_reducible repeat' (first
    | intro _ | assumption | exact State.Frame.refl _ | apply State.setLock_frame | apply State.setDirE_frame
    | apply State.lostLook_frame | apply State.count_frame | apply State.recallNone_frame | apply State.recallLock_frame
    | apply State.setRptE_frame | apply f_ite | apply f_foldN | split)

theorem State.fillFinish_frame {s0 : State} {s : State} {n : Nat} {htag : Nat} {t : HTxn} (h0 : s0.Frame P s)
    (p_regs : P .regs) (p_mem : P .mem) (p_marked : P .marked) (p_net : P .net) (p_free : P .free) (p_core : P .core)
    (p_home : P .home) (p_pass : P .pass) (p_mesa : P .mesa) (p_meter : P .meter) (p_qos : P .qos) (p_ras : P .ras)
    (p_tvx : P .tvx) :
    s0.Frame P (State.fillFinish s n htag t) := by
  unfold State.fillFinish
  try dsimp only
  with_reducible repeat' (first
    | intro _ | assumption | exact State.Frame.refl _ | apply State.evictFor_frame | apply State.fillReply_frame
    | apply f_ite)

theorem State.ncWrite_frame {s0 : State} {s : State} {n : Nat} {t : HTxn} (h0 : s0.Frame P s) (p_regs : P .regs)
    (p_mem : P .mem) (p_marked : P .marked) (p_free : P .free) (p_core : P .core) (p_home : P .home) (p_pass : P .pass)
    (p_mesa : P .mesa) (p_meter : P .meter) (p_qos : P .qos) (p_ras : P .ras) (p_tvx : P .tvx) :
    s0.Frame P (State.ncWrite s n t) := by
  unfold State.ncWrite
  try dsimp only
  with_reducible repeat' (first | intro _ | assumption | exact State.Frame.refl _ | apply State.freeDir_frame | apply State.homeWrite_frame)

theorem State.ncFinish_frame {s0 : State} {s : State} {n : Nat} {htag : Nat} {t : HTxn} (h0 : s0.Frame P s)
    (p_regs : P .regs) (p_mem : P .mem) (p_marked : P .marked) (p_net : P .net) (p_free : P .free) (p_core : P .core)
    (p_home : P .home) (p_pass : P .pass) (p_mesa : P .mesa) (p_meter : P .meter) (p_qos : P .qos) (p_ras : P .ras)
    (p_tvx : P .tvx) :
    s0.Frame P (State.ncFinish s n htag t) := by
  unfold State.ncFinish
  try dsimp only
  with_reducible repeat' (first
    | intro _ | assumption | exact State.Frame.refl _ | apply State.tryClose_frame | apply State.setLock_frame
    | apply State.sendComp_frame | apply State.ncWrite_frame | apply State.sendData_frame | apply State.failTxn_frame
    | apply State.homeWrite_frame | apply State.freeDir_frame | apply f_ite | split)

theorem State.recallFinish_frame {s0 : State} {s : State} {n : Nat} {htag : Nat} {t : HTxn} (h0 : s0.Frame P s)
    (p_regs : P .regs) (p_mem : P .mem) (p_marked : P .marked) (p_net : P .net) (p_free : P .free) (p_core : P .core)
    (p_home : P .home) (p_pass : P .pass) (p_mesa : P .mesa) (p_meter : P .meter) (p_qos : P .qos) (p_ras : P .ras)
    (p_tvx : P .tvx) :
    s0.Frame P (State.recallFinish s n htag t) := by
  unfold State.recallFinish
  try dsimp only
  with_reducible repeat' (first
    | intro _ | assumption | exact State.Frame.refl _ | apply State.ncFinish_frame | apply State.homeWrite_frame
    | apply State.writeView_frame | apply State.tryClose_frame | apply State.setLock_frame | apply f_ite | split)

theorem State.sanFinish_frame {s0 : State} {s : State} {n : Nat} {htag : Nat} {t : HTxn} (h0 : s0.Frame P s)
    (p_regs : P .regs) (p_mem : P .mem) (p_marked : P .marked) (p_net : P .net) (p_free : P .free) (p_core : P .core)
    (p_home : P .home) (p_pass : P .pass) (p_mesa : P .mesa) (p_meter : P .meter) (p_qos : P .qos) (p_ras : P .ras)
    (p_tvx : P .tvx) :
    s0.Frame P (State.sanFinish s n htag t) := by
  unfold State.sanFinish
  try dsimp only
  with_reducible repeat' (first
    | intro _ | assumption | exact State.Frame.refl _ | apply State.freeDir_frame | apply State.sanCount_frame
    | apply State.homeWrite_frame | apply State.put_frame | apply State.tryClose_frame | apply State.setLock_frame)

theorem State.lostFinish_frame {s0 : State} {s : State} {n : Nat} {htag : Nat} {t : HTxn} (h0 : s0.Frame P s)
    (p_regs : P .regs) (p_mem : P .mem) (p_marked : P .marked) (p_net : P .net) (p_free : P .free) (p_core : P .core)
    (p_home : P .home) (p_pass : P .pass) (p_mesa : P .mesa) (p_meter : P .meter) (p_qos : P .qos) (p_ras : P .ras)
    (p_tvx : P .tvx) :
    s0.Frame P (State.lostFinish s n htag t) := by
  unfold State.lostFinish
  try dsimp only
  with_reducible repeat' (first
    | intro _ | assumption | exact State.Frame.refl _ | apply State.homeWrite_frame | apply State.freeDir_frame
    | apply State.errRecord_frame | apply State.failTxn_frame | apply State.tryClose_frame | apply State.setLock_frame
    | apply State.sendComp_frame | apply State.ncWrite_frame | apply State.sanFinish_frame | apply f_ite | split)

theorem State.txnMemory_frame {s0 : State} {s : State} {n : Nat} {htag : Nat} {t : HTxn} {finish : State → HTxn → State}
    (h0 : s0.Frame P s) (hp_finish : ∀ (u : State) (y0 : State) (y1 : HTxn), u.Frame P y0 → u.Frame P (finish y0 y1))
    (p_regs : P .regs) (p_home : P .home) (p_pass : P .pass) (p_mesa : P .mesa) :
    s0.Frame P (State.txnMemory s n htag t finish) := by
  unfold State.txnMemory
  try dsimp only
  with_reducible repeat' (first
    | intro _ | assumption | exact State.Frame.refl _ | apply State.mesaRead_frame | apply State.ncFinish_frame
    | apply State.setLock_frame | apply State.setExtra_frame | apply hp_finish | apply f_ite | apply f_ite_fst
    | apply f_ite_snd | refine f_of_snd (by assumption) ?_ | refine f_of_fst (by assumption) ?_
    | refine f_of_some (by assumption) ?_ | split)

theorem State.txnFinish_frame {s0 : State} {s : State} {n : Nat} {htag : Nat} {t : HTxn} (h0 : s0.Frame P s)
    (p_regs : P .regs) (p_mem : P .mem) (p_marked : P .marked) (p_net : P .net) (p_free : P .free) (p_core : P .core)
    (p_home : P .home) (p_pass : P .pass) (p_mesa : P .mesa) (p_meter : P .meter) (p_qos : P .qos) (p_ras : P .ras)
    (p_tvx : P .tvx) :
    s0.Frame P (State.txnFinish s n htag t) := by
  unfold State.txnFinish
  try dsimp only
  with_reducible repeat' (first
    | intro _ | assumption | exact State.Frame.refl _ | apply State.failTxn_frame | apply State.fillFinish_frame
    | apply State.ncFinish_frame | apply f_ite)

theorem State.txnAfterSnoops_frame {s0 : State} {s : State} {n : Nat} {htag : Nat} {t : HTxn} (h0 : s0.Frame P s)
    (p_regs : P .regs) (p_mem : P .mem) (p_marked : P .marked) (p_net : P .net) (p_free : P .free) (p_core : P .core)
    (p_home : P .home) (p_pass : P .pass) (p_mesa : P .mesa) (p_meter : P .meter) (p_qos : P .qos) (p_ras : P .ras)
    (p_tvx : P .tvx) :
    s0.Frame P (State.txnAfterSnoops s n htag t) := by
  unfold State.txnAfterSnoops
  try dsimp only
  with_reducible repeat' (first
    | intro _ | assumption | exact State.Frame.refl _ | apply State.txnMemory_frame | apply State.txnFinish_frame
    | apply State.recallFinish_frame | apply State.sanFinish_frame | apply State.setLock_frame | apply f_ite | split)

theorem State.forwarded_frame {s0 : State} {s : State} {n : Nat} {htag : Nat} {t : HTxn} (h0 : s0.Frame P s)
    (p_regs : P .regs) (p_mem : P .mem) (p_marked : P .marked) (p_net : P .net) (p_free : P .free) (p_core : P .core)
    (p_home : P .home) (p_pass : P .pass) (p_mesa : P .mesa) (p_meter : P .meter) (p_qos : P .qos) (p_ras : P .ras)
    (p_tvx : P .tvx) :
    s0.Frame P (State.forwarded s n htag t) := by
  unfold State.forwarded
  try dsimp only
  with_reducible repeat' (first
    | intro _ | assumption | exact State.Frame.refl _ | apply State.evictFor_frame | apply State.tryClose_frame
    | apply State.forwardedCore_frame | apply f_ite)

theorem State.txnProceed_frame {s0 : State} {s : State} {n : Nat} {htag : Nat} (h0 : s0.Frame P s) (p_regs : P .regs)
    (p_mem : P .mem) (p_marked : P .marked) (p_net : P .net) (p_free : P .free) (p_core : P .core) (p_home : P .home)
    (p_pass : P .pass) (p_mesa : P .mesa) (p_meter : P .meter) (p_qos : P .qos) (p_ras : P .ras) (p_tvx : P .tvx) :
    s0.Frame P (State.txnProceed s n htag) := by
  unfold State.txnProceed
  try dsimp only
  with_reducible repeat' (first
    | intro _ | assumption | exact State.Frame.refl _ | apply State.lostFinish_frame | apply State.ncFinish_frame
    | apply State.homeWrite_frame | apply State.txnAfterSnoops_frame | apply State.forwardedCore_frame
    | apply State.snoop_frame | apply State.setLock_frame | apply State.writeView_frame | apply State.forwarded_frame
    | apply State.snoopAll_frame | apply f_ite | split)

theorem State.txnBegin_frame {s0 : State} {s : State} {n : Nat} {htag : Nat} {m : Msg} (h0 : s0.Frame P s)
    (p_regs : P .regs) (p_mem : P .mem) (p_marked : P .marked) (p_net : P .net) (p_free : P .free) (p_core : P .core)
    (p_home : P .home) (p_pass : P .pass) (p_mesa : P .mesa) (p_meter : P .meter) (p_qos : P .qos) (p_ras : P .ras)
    (p_tvx : P .tvx) :
    s0.Frame P (State.txnBegin s n htag m) := by
  unfold State.txnBegin
  try dsimp only
  with_reducible repeat' (first
    | intro _ | assumption | exact State.Frame.refl _ | apply State.dirTouch_frame | apply State.lostLook_frame
    | apply State.snoopAll_frame | apply State.setLock_frame | apply State.txnProceed_frame | apply State.wbUnlocked_frame
    | apply State.forwardedCore_frame | apply State.writeView_frame | apply f_ite | split)

theorem State.txnAnswer_frame {s0 : State} {s : State} {n : Nat} {htag : Nat} {t : HTxn} {h : Nat} {m : Msg}
    (h0 : s0.Frame P s) (p_regs : P .regs) (p_mem : P .mem) (p_marked : P .marked) (p_net : P .net) (p_free : P .free)
    (p_core : P .core) (p_home : P .home) (p_pass : P .pass) (p_mesa : P .mesa) (p_meter : P .meter) (p_qos : P .qos)
    (p_ras : P .ras) (p_tvx : P .tvx) :
    s0.Frame P (State.txnAnswer s n htag t h m) := by
  unfold State.txnAnswer
  try dsimp only
  with_reducible repeat' (first
    | intro _ | assumption | exact State.Frame.refl _ | apply State.writeView_frame | apply State.snoopAll_frame
    | apply State.txnProceed_frame | apply State.setLock_frame | apply State.forwardedCore_frame
    | apply State.protoErr_frame | apply f_ite | apply f_foldl | split)

theorem State.txnData_frame {s0 : State} {s : State} {n : Nat} {htag : Nat} {t : HTxn} {m : Msg} (h0 : s0.Frame P s)
    (p_regs : P .regs) (p_mem : P .mem) (p_marked : P .marked) (p_net : P .net) (p_free : P .free) (p_core : P .core)
    (p_home : P .home) (p_pass : P .pass) (p_mesa : P .mesa) (p_meter : P .meter) (p_qos : P .qos) (p_ras : P .ras)
    (p_tvx : P .tvx) :
    s0.Frame P (State.txnData s n htag t m) := by
  unfold State.txnData
  try dsimp only
  with_reducible repeat' (first
    | intro _ | assumption | exact State.Frame.refl _ | apply State.txnProceed_frame | apply State.setLock_frame
    | apply State.protoErr_frame | apply f_ite)

theorem State.homeWb_frame {s0 : State} {s : State} {n : Nat} {m : Msg} (h0 : s0.Frame P s) (p_regs : P .regs)
    (p_mem : P .mem) (p_marked : P .marked) (p_net : P .net) (p_free : P .free) (p_core : P .core) (p_home : P .home)
    (p_pass : P .pass) (p_mesa : P .mesa) (p_meter : P .meter) (p_qos : P .qos) (p_ras : P .ras) (p_tvx : P .tvx) :
    s0.Frame P (State.homeWb s n m) := by
  unfold State.homeWb
  try dsimp only
  with_reducible repeat' (first
    | (intro (p : Part) hp; cases p <;> first | rfl | contradiction) | intro _ | assumption | exact State.Frame.refl _
    | apply State.fillReply_frame | apply State.wbUnlocked_frame | apply State.forwardedCore_frame
    | apply State.release_frame | apply State.tryClose_frame | apply State.setLock_frame | apply State.wbAnswer_frame
    | apply State.homeWrite_frame | apply State.wbApply_frame | apply f_ite
    | (apply f_mk; first | assumption | exact State.Frame.refl _ | apply State.fillReply_frame | apply State.wbUnlocked_frame | apply State.forwardedCore_frame | apply State.release_frame | apply State.tryClose_frame | apply State.setLock_frame | apply State.wbAnswer_frame | apply State.homeWrite_frame | apply State.wbApply_frame | apply f_ite)
    | split)

theorem State.wbAgain_frame {s0 : State} {s : State} {n : Nat} {line : Nat} {w : Nat} (h0 : s0.Frame P s) (p_regs : P .regs)
    (p_mem : P .mem) (p_marked : P .marked) (p_net : P .net) (p_free : P .free) (p_core : P .core) (p_home : P .home)
    (p_pass : P .pass) (p_mesa : P .mesa) (p_meter : P .meter) (p_qos : P .qos) (p_ras : P .ras) (p_tvx : P .tvx) :
    s0.Frame P (State.wbAgain s n line w) := by
  unfold State.wbAgain
  try dsimp only
  with_reducible repeat' (first
    | (intro (p : Part) hp; cases p <;> first | rfl | contradiction) | intro _ | assumption | exact State.Frame.refl _
    | apply State.homeWb_frame | apply f_foldl | apply f_regs | apply f_mem | apply f_mk)

end Sys2Proof.Machine
end

