-- ==== Sys2Proof/Laws/FrameProxy.lean ====
section
/-!
SUPPORT. What each function of Machine/Proxy.lean leaves alone (`State.Frame`, Safety.lean): one lemma for each.
-/

namespace Sys2Proof.Machine

variable {P : Part → Prop}

theorem State.pxProtoErr_frame {s0 : State} {s : State} {n : Nat} {m : Msg} {kind : Nat} (h0 : s0.Frame P s)
    (p_regs : P .regs) (p_free : P .free) (p_core : P .core) (p_pass : P .pass) (p_ras : P .ras) (p_tvx : P .tvx) :
    s0.Frame P (State.pxProtoErr s n m kind) := by
  unfold State.pxProtoErr
  try dsimp only
  with_reducible repeat' (first | intro _ | assumption | exact State.Frame.refl _ | apply State.errRecord_frame | apply State.protoErr_frame)

theorem State.pxFree_frame {s0 : State} {s : State} {n : Nat} {htag : Nat} {line : Nat} (h0 : s0.Frame P s)
    (p_regs : P .regs) (p_net : P .net) (p_home : P .home) (p_pass : P .pass) :
    s0.Frame P (State.pxFree s n htag line) := by
  unfold State.pxFree
  try dsimp only
  with_reducible repeat' (first | intro _ | assumption | exact State.Frame.refl _ | apply State.slotFreed_frame)

theorem State.pxSend_frame {s0 : State} {s : State} {n : Nat} {htag : Nat} {t : HTxn} (h0 : s0.Frame P s) (p_regs : P .regs)
    (p_net : P .net) (p_home : P .home) (p_pass : P .pass) :
    s0.Frame P (State.pxSend s n htag t) := by
  unfold State.pxSend
  try dsimp only
  with_reducible repeat' (first
    | intro _ | assumption | exact State.Frame.refl _ | apply State.send_frame | apply State.setLock_frame
    | apply State.pxFree_frame | apply State.sendErr_frame | apply f_ite)

theorem State.pxDiscard_frame {s0 : State} {s : State} {n : Nat} {line : Nat} {die : Option Msg} (h0 : s0.Frame P s)
    (p_regs : P .regs) (p_net : P .net) (p_free : P .free) (p_core : P .core) (p_home : P .home) (p_pass : P .pass)
    (p_ras : P .ras) (p_tvx : P .tvx) :
    s0.Frame P (State.pxDiscard s n line die) := by
  unfold State.pxDiscard
  try dsimp only
  with_reducible repeat' (first | intro _ | assumption | exact State.Frame.refl _ | apply State.wbAnswer_frame | apply State.errRecord_frame | split)

theorem State.pxWbSend_frame {s0 : State} {s : State} {n : Nat} {line : Nat} {die : Option Msg} {mcid : Nat} {rcid : Nat}
    {l : Line} {poison : Bool} (h0 : s0.Frame P s) (p_regs : P .regs) (p_net : P .net) (p_free : P .free) (p_core : P .core)
    (p_home : P .home) (p_pass : P .pass) (p_ras : P .ras) (p_tvx : P .tvx) :
    s0.Frame P (State.pxWbSend s n line die mcid rcid l poison) := by
  unfold State.pxWbSend
  try dsimp only
  with_reducible repeat' (first
    | (intro (p : Part) hp; cases p <;> first | rfl | contradiction) | intro _ | assumption | exact State.Frame.refl _
    | apply State.pxDiscard_frame | apply State.send_frame | apply f_ite | apply f_mk)

theorem State.pxLostCopy_frame {s0 : State} {s : State} {n : Nat} {line : Nat} {d : Nat} (h0 : s0.Frame P s)
    (p_regs : P .regs) (p_net : P .net) (p_free : P .free) (p_core : P .core) (p_home : P .home) (p_pass : P .pass)
    (p_ras : P .ras) (p_tvx : P .tvx) :
    s0.Frame P (State.pxLostCopy s n line d) := by
  unfold State.pxLostCopy
  try dsimp only
  with_reducible repeat' (first | intro _ | assumption | exact State.Frame.refl _ | apply State.pxWbSend_frame | apply State.writeRld_frame)

theorem State.pxLostLook_frame {s0 : State} {s : State} {n : Nat} {line : Nat} (h0 : s0.Frame P s) (p_regs : P .regs)
    (p_net : P .net) (p_free : P .free) (p_core : P .core) (p_home : P .home) (p_pass : P .pass) (p_ras : P .ras)
    (p_tvx : P .tvx) :
    s0.Frame P (State.pxLostLook s n line) := by
  unfold State.pxLostLook
  try dsimp only
  with_reducible repeat' (first | intro _ | assumption | exact State.Frame.refl _ | apply State.pxLostCopy_frame | apply f_ite | split)

theorem State.pxDeliver_frame {s0 : State} {s : State} {n : Nat} {htag : Nat} {t : HTxn} {m : Msg} (h0 : s0.Frame P s)
    (p_regs : P .regs) (p_net : P .net) (p_home : P .home) :
    s0.Frame P (State.pxDeliver s n htag t m) := by
  unfold State.pxDeliver
  try dsimp only
  with_reducible repeat' (first
    | intro _ | assumption | exact State.Frame.refl _ | apply State.setLock_frame | apply State.send_frame
    | apply State.writeRld_frame | apply f_ite)

theorem State.pxResume_frame {s0 : State} {s : State} {n : Nat} {htag : Nat} (h0 : s0.Frame P s) (p_regs : P .regs)
    (p_net : P .net) (p_home : P .home) :
    s0.Frame P (State.pxResume s n htag) := by
  unfold State.pxResume
  try dsimp only
  with_reducible repeat' (first
    | intro _ | assumption | exact State.Frame.refl _ | apply State.pxDiscard_frame | apply State.setLock_frame
    | apply State.pxDeliver_frame | apply f_ite | split)

theorem State.pxRecall_frame {s0 : State} {s : State} {n : Nat} {h : Nat} {line : Nat} {work : HWork} {req : Msg}
    (h0 : s0.Frame P s) (p_regs : P .regs) (p_net : P .net) (p_home : P .home) (p_pass : P .pass) :
    s0.Frame P (State.pxRecall s n h line work req) := by
  unfold State.pxRecall
  try dsimp only
  with_reducible repeat' (first
    | intro _ | assumption | exact State.Frame.refl _ | apply State.pxLostLook_frame | apply State.snoopAll_frame
    | apply State.setLock_frame | apply State.snoop_frame | apply f_ite | split)

theorem State.pxTryClose_frame {s0 : State} {s : State} {n : Nat} {htag : Nat} (h0 : s0.Frame P s) (p_regs : P .regs)
    (p_net : P .net) (p_home : P .home) (p_pass : P .pass) :
    s0.Frame P (State.pxTryClose s n htag) := by
  unfold State.pxTryClose
  try dsimp only
  with_reducible repeat' (first
    | intro _ | assumption | exact State.Frame.refl _ | apply State.pxResume_frame | apply State.pxFree_frame | apply f_ite
    | split)

theorem State.pxEnd_frame {s0 : State} {s : State} {n : Nat} {htag : Nat} {t : HTxn} (h0 : s0.Frame P s) (p_regs : P .regs)
    (p_net : P .net) (p_home : P .home) (p_pass : P .pass) :
    s0.Frame P (State.pxEnd s n htag t) := by
  unfold State.pxEnd
  try dsimp only
  with_reducible repeat' (first | intro _ | assumption | exact State.Frame.refl _ | apply State.pxTryClose_frame | apply State.setLock_frame)

theorem State.pxEvict_frame {s0 : State} {s : State} {n : Nat} {htag : Nat} {t : HTxn} (h0 : s0.Frame P s)
    (p_regs : P .regs) (p_net : P .net) (p_free : P .free) (p_core : P .core) (p_home : P .home) (p_pass : P .pass)
    (p_ras : P .ras) (p_tvx : P .tvx) :
    s0.Frame P (State.pxEvict s n htag t) := by
  unfold State.pxEvict
  try dsimp only
  with_reducible repeat' (first
    | intro _ | assumption | exact State.Frame.refl _ | apply State.setRldE_frame | apply State.pxLostLook_frame
    | apply State.setLock_frame | apply State.pxResume_frame | apply State.writeRld_frame | apply State.pxRecall_frame
    | apply f_ite | apply f_foldN | split)

theorem State.pxReply_frame {s0 : State} {s : State} {n : Nat} {htag : Nat} {t : HTxn} {m : Msg} (h0 : s0.Frame P s)
    (p_regs : P .regs) (p_net : P .net) (p_free : P .free) (p_core : P .core) (p_home : P .home) (p_pass : P .pass)
    (p_ras : P .ras) (p_tvx : P .tvx) :
    s0.Frame P (State.pxReply s n htag t m) := by
  unfold State.pxReply
  try dsimp only
  with_reducible repeat' (first
    | intro _ | assumption | exact State.Frame.refl _ | apply State.pxEvict_frame | apply State.pxDeliver_frame
    | apply f_ite)

theorem State.pxAnswer_frame {s0 : State} {s : State} {n : Nat} {m : Msg} {opc : Nat} {newSt : Nat} (h0 : s0.Frame P s)
    (p_net : P .net) :
    s0.Frame P (State.pxAnswer s n m opc newSt) := by
  unfold State.pxAnswer
  try dsimp only
  with_reducible repeat' (first | intro _ | assumption | exact State.Frame.refl _ | apply State.send_frame)

theorem State.pxSnoopBuffer_frame {s0 : State} {s : State} {n : Nat} {w : PxWb} {m : Msg} (h0 : s0.Frame P s)
    (p_net : P .net) :
    s0.Frame P (State.pxSnoopBuffer s n w m) := by
  unfold State.pxSnoopBuffer
  try dsimp only
  with_reducible repeat' (first | intro _ | assumption | exact State.Frame.refl _ | apply State.pxAnswer_frame | apply State.send_frame | apply f_ite)

theorem State.pxSnoopDone_frame {s0 : State} {s : State} {n : Nat} {htag : Nat} {t : HTxn} (h0 : s0.Frame P s)
    (p_regs : P .regs) (p_net : P .net) (p_home : P .home) (p_pass : P .pass) :
    s0.Frame P (State.pxSnoopDone s n htag t) := by
  unfold State.pxSnoopDone
  try dsimp only
  with_reducible repeat' (first
    | intro _ | assumption | exact State.Frame.refl _ | apply State.pxAnswer_frame | apply State.writeRld_frame
    | apply State.pxEnd_frame | apply State.pxSnoopBuffer_frame | apply f_ite | split)

theorem State.pxNcGo_frame {s0 : State} {s : State} {n : Nat} {htag : Nat} {t : HTxn} (h0 : s0.Frame P s) (p_regs : P .regs)
    (p_net : P .net) (p_free : P .free) (p_core : P .core) (p_home : P .home) (p_pass : P .pass) (p_ras : P .ras)
    (p_tvx : P .tvx) :
    s0.Frame P (State.pxNcGo s n htag t) := by
  unfold State.pxNcGo
  try dsimp only
  with_reducible repeat' (first
    | intro _ | assumption | exact State.Frame.refl _ | apply State.pxWbSend_frame | apply State.setLock_frame
    | apply State.pxSend_frame | apply f_ite | split)

theorem State.pxAskAll_frame {s0 : State} {s : State} {n : Nat} {htag : Nat} {t : HTxn} (h0 : s0.Frame P s)
    (p_regs : P .regs) (p_net : P .net) (p_home : P .home) (p_pass : P .pass) :
    s0.Frame P (State.pxAskAll s n htag t) := by
  unfold State.pxAskAll
  try dsimp only
  with_reducible repeat' (first | intro _ | assumption | exact State.Frame.refl _ | apply State.snoopAll_frame | apply State.setLock_frame)

theorem State.pxSnoopAsked_frame {s0 : State} {s : State} {n : Nat} {htag : Nat} {t : HTxn} (h0 : s0.Frame P s)
    (p_regs : P .regs) (p_net : P .net) (p_free : P .free) (p_core : P .core) (p_home : P .home) (p_pass : P .pass)
    (p_ras : P .ras) (p_tvx : P .tvx) :
    s0.Frame P (State.pxSnoopAsked s n htag t) := by
  unfold State.pxSnoopAsked
  try dsimp only
  with_reducible repeat' (first
    | intro _ | assumption | exact State.Frame.refl _ | apply State.pxNcGo_frame | apply State.pxSnoopDone_frame
    | apply State.pxWbSend_frame | apply f_ite | split)

theorem State.pxRecalled_frame {s0 : State} {s : State} {n : Nat} {htag : Nat} {t : HTxn} (h0 : s0.Frame P s)
    (p_regs : P .regs) (p_net : P .net) (p_free : P .free) (p_core : P .core) (p_home : P .home) (p_pass : P .pass)
    (p_ras : P .ras) (p_tvx : P .tvx) :
    s0.Frame P (State.pxRecalled s n htag t) := by
  unfold State.pxRecalled
  try dsimp only
  with_reducible repeat' (first
    | intro _ | assumption | exact State.Frame.refl _ | apply State.writeRld_frame | apply State.pxNcGo_frame
    | apply State.pxWbSend_frame | apply State.pxEnd_frame | apply f_ite | split)

theorem State.pxLocalDone_frame {s0 : State} {s : State} {n : Nat} {htag : Nat} {t : HTxn} {v : View} (h0 : s0.Frame P s)
    (p_regs : P .regs) (p_home : P .home) :
    s0.Frame P (State.pxLocalDone s n htag t v) := by
  unfold State.pxLocalDone
  try dsimp only
  with_reducible repeat' (first | intro _ | assumption | exact State.Frame.refl _ | apply State.setLock_frame | apply State.writeRld_frame)

theorem State.pxProceed_frame {s0 : State} {s : State} {n : Nat} {htag : Nat} (h0 : s0.Frame P s) (p_regs : P .regs)
    (p_net : P .net) (p_free : P .free) (p_core : P .core) (p_home : P .home) (p_pass : P .pass) (p_ras : P .ras)
    (p_tvx : P .tvx) :
    s0.Frame P (State.pxProceed s n htag) := by
  unfold State.pxProceed
  try dsimp only
  with_reducible repeat' (first
    | intro _ | assumption | exact State.Frame.refl _ | apply State.pxSnoopDone_frame | apply State.snoop_frame
    | apply State.setLock_frame | apply State.pxDiscard_frame | apply State.pxReply_frame | apply State.pxNcGo_frame
    | apply State.pxLocalDone_frame | apply State.sendData_frame | apply State.pxSend_frame | apply State.writeRld_frame
    | apply State.pxSnoopAsked_frame | apply State.pxRecalled_frame | apply State.pxWbSend_frame | apply f_ite | split)

theorem State.pxBegin_frame {s0 : State} {s : State} {n : Nat} {htag : Nat} {m : Msg} (h0 : s0.Frame P s) (p_regs : P .regs)
    (p_net : P .net) (p_free : P .free) (p_core : P .core) (p_home : P .home) (p_pass : P .pass) (p_ras : P .ras)
    (p_tvx : P .tvx) :
    s0.Frame P (State.pxBegin s n htag m) := by
  unfold State.pxBegin
  try dsimp only
  with_reducible repeat' (first
    | intro _ | assumption | exact State.Frame.refl _ | apply State.rldTouch_frame | apply State.pxLostLook_frame
    | apply State.pxProceed_frame | apply State.snoopAll_frame | apply State.setLock_frame | apply State.pxAskAll_frame
    | apply State.pxSend_frame | apply f_ite | split)

theorem State.pxSnoopBegin_frame {s0 : State} {s : State} {n : Nat} {m : Msg} (h0 : s0.Frame P s) (p_regs : P .regs)
    (p_net : P .net) (p_free : P .free) (p_core : P .core) (p_home : P .home) (p_pass : P .pass) (p_ras : P .ras)
    (p_tvx : P .tvx) :
    s0.Frame P (State.pxSnoopBegin s n m) := by
  unfold State.pxSnoopBegin
  try dsimp only
  with_reducible repeat' (first
    | intro _ | assumption | exact State.Frame.refl _ | apply State.pxLostLook_frame | apply State.pxProceed_frame
    | apply State.pxAskAll_frame | apply State.snoopAll_frame | apply State.setLock_frame | apply f_ite | split)

theorem State.pxSnoop_frame {s0 : State} {s : State} {n : Nat} {m : Msg} (h0 : s0.Frame P s) (p_regs : P .regs)
    (p_net : P .net) (p_free : P .free) (p_core : P .core) (p_home : P .home) (p_pass : P .pass) (p_ras : P .ras)
    (p_tvx : P .tvx) :
    s0.Frame P (State.pxSnoop s n m) := by
  unfold State.pxSnoop
  try dsimp only
  with_reducible repeat' (first
    | (intro (p : Part) hp; cases p <;> first | rfl | contradiction) | intro _ | assumption | exact State.Frame.refl _
    | apply State.pxLostLook_frame | apply State.pxSnoopDone_frame | apply State.pxSnoopBuffer_frame
    | apply State.pxSnoopBegin_frame | apply f_ite
    | (apply f_mk; first | assumption | exact State.Frame.refl _ | apply State.pxLostLook_frame | apply State.pxSnoopDone_frame | apply State.pxSnoopBuffer_frame | apply State.pxSnoopBegin_frame | apply f_ite)
    | split)

theorem State.pxWbTake_frame {s0 : State} {s : State} {n : Nat} {m : Msg} (h0 : s0.Frame P s) (p_regs : P .regs)
    (p_net : P .net) (p_free : P .free) (p_core : P .core) (p_home : P .home) (p_pass : P .pass) (p_ras : P .ras)
    (p_tvx : P .tvx) :
    s0.Frame P (State.pxWbTake s n m) := by
  unfold State.pxWbTake
  try dsimp only
  with_reducible repeat' (first
    | intro _ | assumption | exact State.Frame.refl _ | apply State.writeRld_frame | apply State.pxProceed_frame
    | apply State.snoopAll_frame | apply State.setLock_frame | apply State.protoErr_frame | apply State.wbAnswer_frame
    | apply f_ite)

theorem State.pxWbIn_frame {s0 : State} {s : State} {n : Nat} {m : Msg} (h0 : s0.Frame P s) (p_regs : P .regs)
    (p_net : P .net) (p_free : P .free) (p_core : P .core) (p_home : P .home) (p_pass : P .pass) (p_ras : P .ras)
    (p_tvx : P .tvx) :
    s0.Frame P (State.pxWbIn s n m) := by
  unfold State.pxWbIn
  try dsimp only
  with_reducible repeat' (first
    | (intro (p : Part) hp; cases p <;> first | rfl | contradiction) | intro _ | assumption | exact State.Frame.refl _
    | apply State.pxWbTake_frame | apply State.pxTryClose_frame | apply State.setLock_frame | apply State.wbAnswer_frame
    | apply State.pxSnoopDone_frame | apply f_ite
    | (apply f_mk; first | assumption | exact State.Frame.refl _ | apply State.pxWbTake_frame | apply State.pxTryClose_frame | apply State.setLock_frame | apply State.wbAnswer_frame | apply State.pxSnoopDone_frame | apply f_ite)
    | split)

theorem State.pxStarts_frame {s0 : State} {s : State} {n : Nat} (h0 : s0.Frame P s) (p_regs : P .regs) (p_net : P .net)
    (p_free : P .free) (p_core : P .core) (p_home : P .home) (p_pass : P .pass) (p_ras : P .ras) (p_tvx : P .tvx) :
    s0.Frame P (State.pxStarts s n) := by
  unfold State.pxStarts
  try dsimp only
  with_reducible repeat' (first | intro _ | assumption | exact State.Frame.refl _ | apply State.pxBegin_frame | apply f_ite | apply f_foldl)

theorem State.pxAgain_frame {s0 : State} {s : State} {n : Nat} (h0 : s0.Frame P s) (p_regs : P .regs) (p_net : P .net)
    (p_free : P .free) (p_core : P .core) (p_home : P .home) (p_pass : P .pass) (p_ras : P .ras) (p_tvx : P .tvx) :
    s0.Frame P (State.pxAgain s n) := by
  unfold State.pxAgain
  try dsimp only
  with_reducible repeat' (first
    | (intro (p : Part) hp; cases p <;> first | rfl | contradiction) | intro _ | assumption | exact State.Frame.refl _
    | apply State.pxWbIn_frame | apply State.pxStarts_frame | apply State.pxSnoop_frame | apply f_foldl | apply f_regs
    | apply f_mem | apply f_mk)

theorem State.pxDieAnswer_frame {s0 : State} {s : State} {n : Nat} {htag : Nat} {t : HTxn} {h : Nat} {m : Msg}
    (h0 : s0.Frame P s) (p_regs : P .regs) (p_net : P .net) (p_free : P .free) (p_core : P .core) (p_home : P .home)
    (p_pass : P .pass) (p_ras : P .ras) (p_tvx : P .tvx) :
    s0.Frame P (State.pxDieAnswer s n htag t h m) := by
  unfold State.pxDieAnswer
  try dsimp only
  with_reducible repeat' (first
    | intro _ | assumption | exact State.Frame.refl _ | apply State.writeRld_frame | apply State.pxProceed_frame
    | apply State.setLock_frame | apply State.pxSnoopDone_frame | apply State.pxProtoErr_frame | apply f_ite | split)

theorem State.pxClose_frame {s0 : State} {s : State} {n : Nat} {htag : Nat} {t : HTxn} {m : Msg} (h0 : s0.Frame P s)
    (p_net : P .net) :
    s0.Frame P (State.pxClose s n htag t m) := by
  unfold State.pxClose
  try dsimp only
  with_reducible repeat' (first | intro _ | assumption | exact State.Frame.refl _ | apply State.send_frame)

theorem State.pxLate_frame {s0 : State} {s : State} {n : Nat} {htag : Nat} {t : HTxn} {m : Msg} (h0 : s0.Frame P s)
    (p_regs : P .regs) (p_net : P .net) (p_free : P .free) (p_core : P .core) (p_home : P .home) (p_pass : P .pass)
    (p_ras : P .ras) (p_tvx : P .tvx) :
    s0.Frame P (State.pxLate s n htag t m) := by
  unfold State.pxLate
  try dsimp only
  with_reducible repeat' (first
    | intro _ | assumption | exact State.Frame.refl _ | apply State.logEvent_frame | apply State.bump_frame
    | apply State.pxClose_frame | apply State.pxFree_frame | apply State.pxWbSend_frame | apply f_ite)

theorem State.pxRemoteReply_frame {s0 : State} {s : State} {n : Nat} {htag : Nat} {t : HTxn} {m : Msg} (h0 : s0.Frame P s)
    (p_regs : P .regs) (p_net : P .net) (p_free : P .free) (p_core : P .core) (p_home : P .home) (p_pass : P .pass)
    (p_ras : P .ras) (p_tvx : P .tvx) :
    s0.Frame P (State.pxRemoteReply s n htag t m) := by
  unfold State.pxRemoteReply
  try dsimp only
  with_reducible repeat' (first
    | intro _ | assumption | exact State.Frame.refl _ | apply State.pxLate_frame | apply State.pxEnd_frame
    | apply State.send_frame | apply State.pxClose_frame | apply State.pxReply_frame | apply State.pxProceed_frame
    | apply State.snoopAll_frame | apply State.setLock_frame | apply f_ite)

theorem State.rptFreeAll_frame {s0 : State} {s : State} (h0 : s0.Frame P s) (p_home : P .home) :
    s0.Frame P (State.rptFreeAll s) := by
  unfold State.rptFreeAll
  try dsimp only
  with_reducible repeat' (first
    | (intro (p : Part) hp; cases p <;> first | rfl | contradiction) | intro _ | assumption | exact State.Frame.refl _
    | apply State.pxLostLook_frame | apply State.setDirE_frame | apply f_ite | apply f_foldN | apply f_foldl
    | (apply f_mk; first | assumption | exact State.Frame.refl _ | apply State.pxLostLook_frame | apply State.setDirE_frame | apply f_ite | apply f_foldN | apply f_foldl)
    | split)

theorem State.alone_frame {s0 : State} {s : State} (h0 : s0.Frame P s) (p_regs : P .regs) (p_hzn : P .hzn) :
    s0.Frame P (State.alone s) := by
  unfold State.alone
  try dsimp only
  with_reducible repeat' (first
    | (intro (p : Part) hp; cases p <;> first | rfl | contradiction) | intro _ | assumption | exact State.Frame.refl _
    | apply State.put_frame | apply f_ite | apply f_foldN | apply f_mk)

theorem State.leaveFinish_frame {s0 : State} {s : State} (h0 : s0.Frame P s) (p_regs : P .regs) (p_home : P .home)
    (p_hzn : P .hzn) :
    s0.Frame P (State.leaveFinish s) := by
  unfold State.leaveFinish
  try dsimp only
  with_reducible repeat' (first
    | intro _ | assumption | exact State.Frame.refl _ | apply State.put_frame | apply State.alone_frame
    | apply State.rptFreeAll_frame | apply f_ite | split)

theorem State.pxWbDone_frame {s0 : State} {s : State} {n : Nat} {m : Msg} (h0 : s0.Frame P s) (p_regs : P .regs)
    (p_net : P .net) (p_free : P .free) (p_core : P .core) (p_home : P .home) (p_pass : P .pass) (p_hzn : P .hzn)
    (p_ras : P .ras) (p_tvx : P .tvx) :
    s0.Frame P (State.pxWbDone s n m) := by
  unfold State.pxWbDone
  try dsimp only
  with_reducible repeat' (first
    | (intro (p : Part) hp; cases p <;> first | rfl | contradiction) | intro _ | assumption | exact State.Frame.refl _
    | apply State.pxProtoErr_frame | apply State.pxDiscard_frame | apply State.wbAnswer_frame | apply State.pxLostLook_frame
    | apply State.pxResume_frame | apply State.pxSend_frame | apply State.leaveFinish_frame | apply f_ite
    | (apply f_mk; first | assumption | exact State.Frame.refl _ | apply State.pxProtoErr_frame | apply State.pxDiscard_frame | apply State.wbAnswer_frame | apply State.pxLostLook_frame | apply State.pxResume_frame | apply State.pxSend_frame | apply State.leaveFinish_frame | apply f_ite)
    | split)

theorem State.pxDieData_frame {s0 : State} {s : State} {n : Nat} {htag : Nat} {t : HTxn} {m : Msg} (h0 : s0.Frame P s)
    (p_regs : P .regs) (p_net : P .net) (p_free : P .free) (p_core : P .core) (p_home : P .home) (p_pass : P .pass)
    (p_ras : P .ras) (p_tvx : P .tvx) :
    s0.Frame P (State.pxDieData s n htag t m) := by
  unfold State.pxDieData
  try dsimp only
  with_reducible repeat' (first
    | intro _ | assumption | exact State.Frame.refl _ | apply State.pxProceed_frame | apply State.setLock_frame
    | apply f_ite)

theorem State.pxRetry_frame {s0 : State} {s : State} {n : Nat} {htag : Nat} {t : HTxn} {m : Msg} (h0 : s0.Frame P s)
    (p_regs : P .regs) (p_home : P .home) :
    s0.Frame P (State.pxRetry s n htag t m) := by
  unfold State.pxRetry
  try dsimp only
  with_reducible repeat' (first | intro _ | assumption | exact State.Frame.refl _ | apply State.setLock_frame | apply f_ite)

theorem State.pxGrant_frame {s0 : State} {s : State} {n : Nat} {m : Msg} (h0 : s0.Frame P s) (p_regs : P .regs)
    (p_net : P .net) (p_free : P .free) (p_core : P .core) (p_home : P .home) (p_pass : P .pass) (p_ras : P .ras)
    (p_tvx : P .tvx) :
    s0.Frame P (State.pxGrant s n m) := by
  unfold State.pxGrant
  try dsimp only
  with_reducible repeat' (first
    | intro _ | assumption | exact State.Frame.refl _ | apply State.pxResume_frame | apply State.pxDiscard_frame
    | apply State.pxLostLook_frame | apply State.pxProtoErr_frame | apply State.pxProceed_frame | apply State.send_frame
    | apply State.setLock_frame | apply f_ite | split)

theorem State.pxCommit_frame {s0 : State} {s : State} {n : Nat} {htag : Nat} {t : HTxn} (h0 : s0.Frame P s)
    (p_regs : P .regs) (p_net : P .net) (p_home : P .home) (p_pass : P .pass) :
    s0.Frame P (State.pxCommit s n htag t) := by
  unfold State.pxCommit
  try dsimp only
  with_reducible repeat' (first
    | intro _ | assumption | exact State.Frame.refl _ | apply State.send_frame | apply State.pxDiscard_frame
    | apply State.pxEnd_frame | split)

end Sys2Proof.Machine
end

