-- ==== Sys2Proof/Laws/FrameDie.lean ====
section
/-!
SUPPORT. What each function of Machine/Die.lean leaves alone (`State.Frame`, Safety.lean): one lemma for each.
-/

namespace Sys2Proof.Machine

variable {P : Part → Prop}

theorem State.setL2_frame {s0 : State} {s : State} {h : Nat} {set : Nat} {w : Nat} {e : L2Way} (h0 : s0.Frame P s)
    (p_core : P .core) :
    s0.Frame P (State.setL2 s h set w e) := by
  unfold State.setL2
  try dsimp only
  with_reducible repeat' (first
    | (intro (p : Part) hp; cases p <;> first | rfl | contradiction) | intro _ | assumption | exact State.Frame.refl _
    | apply f_mk)

theorem State.setVc_frame {s0 : State} {s : State} {d : Nat} {sl : Nat} {set : Nat} {w : Nat} {e : VcWay}
    (h0 : s0.Frame P s) (p_die : P .die) :
    s0.Frame P (State.setVc s d sl set w e) := by
  unfold State.setVc
  try dsimp only
  with_reducible repeat' (first
    | (intro (p : Part) hp; cases p <;> first | rfl | contradiction) | intro _ | assumption | exact State.Frame.refl _
    | apply f_mk)

theorem State.setVcLine_frame {s0 : State} {s : State} {d : Nat} {line : Nat} {w : Nat} {e : VcWay} (h0 : s0.Frame P s)
    (p_die : P .die) :
    s0.Frame P (State.setVcLine s d line w e) := by
  unfold State.setVcLine
  try dsimp only
  with_reducible repeat' (first | intro _ | assumption | exact State.Frame.refl _ | apply State.setVc_frame)

theorem State.setSf_frame {s0 : State} {s : State} {d : Nat} {b : Nat} {set : Nat} {w : Nat} {e : SfWay} (h0 : s0.Frame P s)
    (p_die : P .die) :
    s0.Frame P (State.setSf s d b set w e) := by
  unfold State.setSf
  try dsimp only
  with_reducible repeat' (first
    | (intro (p : Part) hp; cases p <;> first | rfl | contradiction) | intro _ | assumption | exact State.Frame.refl _
    | apply f_mk)

theorem State.setSfLine_frame {s0 : State} {s : State} {d : Nat} {line : Nat} {e : SfWay} (h0 : s0.Frame P s)
    (p_die : P .die) :
    s0.Frame P (State.setSfLine s d line e) := by
  unfold State.setSfLine
  try dsimp only
  with_reducible repeat' (first | intro _ | assumption | exact State.Frame.refl _ | apply State.setSf_frame | apply f_ite | split)

theorem State.setDieSt_frame {s0 : State} {s : State} {d : Nat} {line : Nat} {st : Moesi} (h0 : s0.Frame P s)
    (p_die : P .die) :
    s0.Frame P (State.setDieSt s d line st) := by
  unfold State.setDieSt
  try dsimp only
  with_reducible repeat' (first | intro _ | assumption | exact State.Frame.refl _ | apply State.setSfLine_frame | apply State.setVcLine_frame | split)

theorem State.setL1d_frame {s0 : State} {s : State} {h : Nat} {set : Nat} {w : Nat} {e : L1Way} (h0 : s0.Frame P s)
    (p_core : P .core) :
    s0.Frame P (State.setL1d s h set w e) := by
  unfold State.setL1d
  try dsimp only
  with_reducible repeat' (first
    | (intro (p : Part) hp; cases p <;> first | rfl | contradiction) | intro _ | assumption | exact State.Frame.refl _
    | apply f_mk)

theorem State.setL1i_frame {s0 : State} {s : State} {h : Nat} {set : Nat} {w : Nat} {e : L1Way} (h0 : s0.Frame P s)
    (p_core : P .core) :
    s0.Frame P (State.setL1i s h set w e) := by
  unfold State.setL1i
  try dsimp only
  with_reducible repeat' (first
    | (intro (p : Part) hp; cases p <;> first | rfl | contradiction) | intro _ | assumption | exact State.Frame.refl _
    | apply f_mk)

theorem State.setL1dPlru_frame {s0 : State} {s : State} {h : Nat} {set : Nat} {v : Nat} (h0 : s0.Frame P s)
    (p_core : P .core) :
    s0.Frame P (State.setL1dPlru s h set v) := by
  unfold State.setL1dPlru
  try dsimp only
  with_reducible repeat' (first
    | (intro (p : Part) hp; cases p <;> first | rfl | contradiction) | intro _ | assumption | exact State.Frame.refl _
    | apply f_mk)

theorem State.setL1iPlru_frame {s0 : State} {s : State} {h : Nat} {set : Nat} {v : Nat} (h0 : s0.Frame P s)
    (p_core : P .core) :
    s0.Frame P (State.setL1iPlru s h set v) := by
  unfold State.setL1iPlru
  try dsimp only
  with_reducible repeat' (first
    | (intro (p : Part) hp; cases p <;> first | rfl | contradiction) | intro _ | assumption | exact State.Frame.refl _
    | apply f_mk)

theorem State.l1dDrop_frame {s0 : State} {s : State} {h : Nat} {line : Nat} (h0 : s0.Frame P s) (p_core : P .core) :
    s0.Frame P (State.l1dDrop s h line) := by
  unfold State.l1dDrop
  try dsimp only
  with_reducible repeat' (first | intro _ | assumption | exact State.Frame.refl _ | apply State.setL1d_frame | split)

theorem State.l1dUse_frame {s0 : State} {s : State} {h : Nat} {line : Nat} {p : Priv} (h0 : s0.Frame P s) (p_regs : P .regs)
    (p_core : P .core) :
    s0.Frame P (State.l1dUse s h line p) := by
  unfold State.l1dUse
  try dsimp only
  with_reducible repeat' (first
    | intro _ | assumption | exact State.Frame.refl _ | apply State.setL1dPlru_frame | apply State.hpm_frame
    | apply State.setL1d_frame | split)

theorem State.l1iInstall_frame {s0 : State} {s : State} {h : Nat} {line : Nat} {l : Line} (h0 : s0.Frame P s)
    (p_core : P .core) :
    s0.Frame P (State.l1iInstall s h line l) := by
  unfold State.l1iInstall
  try dsimp only
  with_reducible repeat' (first | intro _ | assumption | exact State.Frame.refl _ | apply State.setL1iPlru_frame | apply State.setL1i_frame | split)

theorem State.l1iClear_frame {s0 : State} {s : State} {h : Nat} (h0 : s0.Frame P s) (p_core : P .core) :
    s0.Frame P (State.l1iClear s h) := by
  unfold State.l1iClear
  try dsimp only
  with_reducible repeat' (first
    | (intro (p : Part) hp; cases p <;> first | rfl | contradiction) | intro _ | assumption | exact State.Frame.refl _
    | apply f_regs | apply f_mem | apply f_mk)

theorem State.l1dClear_frame {s0 : State} {s : State} {h : Nat} (h0 : s0.Frame P s) (p_core : P .core) :
    s0.Frame P (State.l1dClear s h) := by
  unfold State.l1dClear
  try dsimp only
  with_reducible repeat' (first
    | (intro (p : Part) hp; cases p <;> first | rfl | contradiction) | intro _ | assumption | exact State.Frame.refl _
    | apply f_regs | apply f_mem | apply f_mk)

theorem State.resvDrop_frame {s0 : State} {s : State} {h : Nat} {line : Nat} (h0 : s0.Frame P s) (p_core : P .core) :
    s0.Frame P (State.resvDrop s h line) := by
  unfold State.resvDrop
  try dsimp only
  with_reducible repeat' (first | intro _ | assumption | exact State.Frame.refl _ | apply State.setHart_frame | apply f_ite)

theorem State.l2Drop_frame {s0 : State} {s : State} {h : Nat} {line : Nat} (h0 : s0.Frame P s) (p_core : P .core) :
    s0.Frame P (State.l2Drop s h line) := by
  unfold State.l2Drop
  try dsimp only
  with_reducible repeat' (first
    | intro _ | assumption | exact State.Frame.refl _ | apply State.resvDrop_frame | apply State.l1dDrop_frame
    | apply State.setL2_frame | split)

theorem State.wbSend_frame {s0 : State} {s : State} {d : Nat} {line : Nat} {rcid : Nat} {mcid : Nat} {l : Line} {bad : Bool}
    {unit : Option FlushUnit} (h0 : s0.Frame P s) (p_regs : P .regs) (p_net : P .net) (p_die : P .die) (p_pass : P .pass) :
    s0.Frame P (State.wbSend s d line rcid mcid l bad unit) := by
  unfold State.wbSend
  try dsimp only
  with_reducible repeat' (first
    | (intro (p : Part) hp; cases p <;> first | rfl | contradiction) | intro _ | assumption | exact State.Frame.refl _
    | apply State.count_frame | apply State.send_frame | apply f_mk)

theorem State.rripVictim_frame {s0 : State} {s : State} {d : Nat} {sl : Nat} {set : Nat} {elig : Nat} {z5 : Nat}
    (h0 : s0.Frame P s) (p_die : P .die) :
    s0.Frame P (State.rripVictim s d sl set elig z5).2 := by
  induction z5 generalizing s d sl set elig with
  | zero =>
    unfold State.rripVictim
    try dsimp only
    with_reducible repeat' (first
      | intro _ | assumption | exact State.Frame.refl _ | apply State.setVc_frame | apply f_ite | apply f_ite_fst
      | apply f_ite_snd | apply f_foldN | apply f_foldN_snd | split)
  | succ k ih =>
    unfold State.rripVictim
    try dsimp only
    with_reducible repeat' (first
      | intro _ | assumption | exact State.Frame.refl _ | apply State.setVc_frame | apply f_ite | apply f_ite_fst
      | apply f_ite_snd | apply f_foldN | apply f_foldN_snd | split | apply ih)


theorem State.vcEvict_frame {s0 : State} {s : State} {d : Nat} {sl : Nat} {set : Nat} {w : Nat} {unit : Option FlushUnit}
    (h0 : s0.Frame P s) (p_regs : P .regs) (p_net : P .net) (p_die : P .die) (p_pass : P .pass) :
    s0.Frame P (State.vcEvict s d sl set w unit) := by
  unfold State.vcEvict
  try dsimp only
  with_reducible repeat' (first
    | intro _ | assumption | exact State.Frame.refl _ | apply State.setVc_frame | apply State.wbSend_frame
    | apply State.count_frame | apply f_ite)

theorem State.vcAlloc_frame {s0 : State} {s : State} {d : Nat} {line : Nat} {rcid : Nat} {mcid : Nat}
    {unit : Option FlushUnit} {keep : Option Nat} (h0 : s0.Frame P s) (p_regs : P .regs) (p_net : P .net) (p_die : P .die)
    (p_pass : P .pass) :
    s0.Frame P (State.vcAlloc s d line rcid mcid unit keep).2 := by
  unfold State.vcAlloc
  try dsimp only
  with_reducible repeat' (first
    | intro _ | assumption | exact State.Frame.refl _ | apply State.count_frame | apply State.rripVictim_frame
    | apply State.vcEvict_frame | apply f_ite | apply f_ite_fst | apply f_ite_snd | apply f_foldN | apply f_foldN_snd
    | refine f_of_snd (by assumption) ?_ | refine f_of_fst (by assumption) ?_ | refine f_of_some (by assumption) ?_ | split)

theorem State.invOthers_frame {s0 : State} {s : State} {d : Nat} {line : Nat} {keep : Option Nat} (h0 : s0.Frame P s)
    (p_core : P .core) (p_die : P .die) :
    s0.Frame P (State.invOthers s d line keep) := by
  unfold State.invOthers
  try dsimp only
  with_reducible repeat' (first
    | intro _ | assumption | exact State.Frame.refl _ | apply State.l2Drop_frame | apply State.setSfLine_frame | apply f_ite
    | apply f_foldN | split)

theorem State.vcDrop_frame {s0 : State} {s : State} {d : Nat} {line : Nat} (h0 : s0.Frame P s) (p_die : P .die) :
    s0.Frame P (State.vcDrop s d line) := by
  unfold State.vcDrop
  try dsimp only
  with_reducible repeat' (first | intro _ | assumption | exact State.Frame.refl _ | apply State.setVcLine_frame | split)

theorem State.leaveDie_frame {s0 : State} {s : State} {d : Nat} {line : Nat} {rcid : Nat} {mcid : Nat} {l : Line}
    {bad : Bool} {st : Moesi} {unit : Option FlushUnit} (h0 : s0.Frame P s) (p_regs : P .regs) (p_net : P .net)
    (p_core : P .core) (p_die : P .die) (p_pass : P .pass) :
    s0.Frame P (State.leaveDie s d line rcid mcid l bad st unit) := by
  unfold State.leaveDie
  try dsimp only
  with_reducible repeat' (first
    | intro _ | assumption | exact State.Frame.refl _ | apply State.vcDrop_frame | apply State.invOthers_frame
    | apply State.wbSend_frame | apply State.count_frame | apply f_ite)

theorem State.l2Evict_frame {s0 : State} {s : State} {h : Nat} {set : Nat} {w : Nat} {unit : Option FlushUnit}
    {keep : Option Nat} (h0 : s0.Frame P s) (p_regs : P .regs) (p_net : P .net) (p_core : P .core) (p_die : P .die)
    (p_pass : P .pass) :
    s0.Frame P (State.l2Evict s h set w unit keep) := by
  unfold State.l2Evict
  try dsimp only
  with_reducible repeat' (first
    | intro _ | assumption | exact State.Frame.refl _ | apply State.hpm_frame | apply State.setL2_frame
    | apply State.resvDrop_frame | apply State.l1dDrop_frame | apply State.setSfLine_frame | apply State.setVcLine_frame
    | apply State.vcAlloc_frame | apply State.leaveDie_frame | apply f_ite | apply f_ite_fst | apply f_ite_snd
    | refine f_of_snd (by assumption) ?_ | refine f_of_fst (by assumption) ?_ | refine f_of_some (by assumption) ?_ | split)

theorem State.sfBackInv_frame {s0 : State} {s : State} {d : Nat} {old : SfWay} {unit : Option FlushUnit} {keep : Option Nat}
    (h0 : s0.Frame P s) (p_regs : P .regs) (p_net : P .net) (p_core : P .core) (p_die : P .die) (p_pass : P .pass) :
    s0.Frame P (State.sfBackInv s d old unit keep) := by
  unfold State.sfBackInv
  try dsimp only
  with_reducible repeat' (first | intro _ | assumption | exact State.Frame.refl _ | apply State.l2Evict_frame | apply f_ite | apply f_foldN | split)

theorem State.sfPlace_frame {s0 : State} {s : State} {d : Nat} {line : Nat} {w : Nat} {e : SfWay} (h0 : s0.Frame P s)
    (p_regs : P .regs) (p_net : P .net) (p_core : P .core) (p_die : P .die) (p_pass : P .pass) :
    s0.Frame P (State.sfPlace s d line w e) := by
  unfold State.sfPlace
  try dsimp only
  with_reducible repeat' (first
    | intro _ | assumption | exact State.Frame.refl _ | apply State.sfBackInv_frame | apply State.count_frame
    | apply State.setSf_frame | apply f_ite)

theorem State.l2Victim_frame {s0 : State} {s : State} {h : Nat} {set : Nat} {elig : Nat} {z4 : Nat} (h0 : s0.Frame P s)
    (p_core : P .core) :
    s0.Frame P (State.l2Victim s h set elig z4).2 := by
  induction z4 generalizing s h set elig with
  | zero =>
    unfold State.l2Victim
    try dsimp only
    with_reducible repeat' (first
      | intro _ | assumption | exact State.Frame.refl _ | apply State.rripVictim_frame | apply State.setL2_frame | apply f_ite
      | apply f_ite_fst | apply f_ite_snd | apply f_foldN | apply f_foldN_snd | refine f_of_snd (by assumption) ?_
      | refine f_of_fst (by assumption) ?_ | refine f_of_some (by assumption) ?_ | split)
  | succ k ih =>
    unfold State.l2Victim
    try dsimp only
    with_reducible repeat' (first
      | intro _ | assumption | exact State.Frame.refl _ | apply State.rripVictim_frame | apply State.setL2_frame | apply f_ite
      | apply f_ite_fst | apply f_ite_snd | apply f_foldN | apply f_foldN_snd | refine f_of_snd (by assumption) ?_
      | refine f_of_fst (by assumption) ?_ | refine f_of_some (by assumption) ?_ | split | apply ih)


theorem State.l2Install_frame {s0 : State} {s : State} {h : Nat} {line : Nat} {st : Moesi} {dst : Moesi} {rcid : Nat}
    {mcid : Nat} {l : Line} {bad : Bool} (h0 : s0.Frame P s) (p_regs : P .regs) (p_net : P .net) (p_core : P .core)
    (p_die : P .die) (p_pass : P .pass) :
    s0.Frame P (State.l2Install s h line st dst rcid mcid l bad) := by
  unfold State.l2Install
  try dsimp only
  with_reducible repeat' (first
    | intro _ | assumption | exact State.Frame.refl _ | apply State.setL2_frame | apply State.setSfLine_frame
    | apply State.leaveDie_frame | apply State.l2Victim_frame | apply State.l2Evict_frame | apply State.sfPlace_frame
    | apply f_ite | apply f_ite_fst | apply f_ite_snd | apply f_foldN | refine f_of_snd (by assumption) ?_
    | refine f_of_fst (by assumption) ?_ | refine f_of_some (by assumption) ?_ | split)

theorem State.l2Settle_frame {s0 : State} {s : State} {h : Nat} {line : Nat} (h0 : s0.Frame P s) (p_regs : P .regs)
    (p_net : P .net) (p_core : P .core) (p_die : P .die) (p_pass : P .pass) :
    s0.Frame P (State.l2Settle s h line) := by
  unfold State.l2Settle
  try dsimp only
  with_reducible repeat' (first | intro _ | assumption | exact State.Frame.refl _ | apply State.l2Evict_frame | apply f_ite | split)

end Sys2Proof.Machine
end

