-- ==== Sys2Proof/Laws/FrameCoreMem.lean ====
section
/-!
SUPPORT. What each function of Machine/CoreMem.lean leaves alone (`State.Frame`, Safety.lean): one lemma for each.
-/

namespace Sys2Proof.Machine

variable {P : Part → Prop}

theorem State.setOut_frame {s0 : State} {s : State} {h : Nat} {o : HartOut} (h0 : s0.Frame P s) (p_core : P .core) :
    s0.Frame P (State.setOut s h o) := by
  unfold State.setOut
  try dsimp only
  with_reducible repeat' (first | intro _ | assumption | exact State.Frame.refl _ | apply State.setHart_frame)

theorem State.dropAccess_frame {s0 : State} {s : State} {h : Nat} {id : Nat} (h0 : s0.Frame P s) (p_core : P .core) :
    s0.Frame P (State.dropAccess s h id) := by
  unfold State.dropAccess
  try dsimp only
  with_reducible repeat' (first | intro _ | assumption | exact State.Frame.refl _ | apply State.setHart_frame)

theorem State.dropPiece_frame {s0 : State} {s : State} {h : Nat} {w : Wait} (h0 : s0.Frame P s) (p_core : P .core) :
    s0.Frame P (State.dropPiece s h w) := by
  unfold State.dropPiece
  try dsimp only
  with_reducible repeat' (first | intro _ | assumption | exact State.Frame.refl _ | apply State.setHart_frame)

theorem State.trapNow_frame {s0 : State} {s : State} {h : Nat} {cause : Nat} {x : Access} {gpa : Nat} (h0 : s0.Frame P s)
    (p_regs : P .regs) (p_free : P .free) (p_core : P .core) :
    s0.Frame P (State.trapNow s h cause x gpa) := by
  unfold State.trapNow
  try dsimp only
  with_reducible repeat' (first
    | intro _ | assumption | exact State.Frame.refl _ | apply State.setHart_frame | apply State.freeWord_frame
    | apply State.takeTrap_frame | apply State.setOut_frame | apply State.setReg_frame | apply f_ite | apply f_ite_fst
    | apply f_ite_snd | refine f_of_snd (by assumption) ?_ | refine f_of_fst (by assumption) ?_
    | refine f_of_some (by assumption) ?_ | split)

theorem State.trapHart_frame {s0 : State} {s : State} {h : Nat} {cause : Nat} {x : Access} {gpa : Nat} (h0 : s0.Frame P s)
    (p_regs : P .regs) (p_free : P .free) (p_core : P .core) :
    s0.Frame P (State.trapHart s h cause x gpa) := by
  unfold State.trapHart
  try dsimp only
  with_reducible repeat' (first | intro _ | assumption | exact State.Frame.refl _ | apply State.setHart_frame | apply State.trapNow_frame | apply f_ite)

theorem State.trapDue_frame {s0 : State} {s : State} {h : Nat} (h0 : s0.Frame P s) (p_regs : P .regs) (p_free : P .free)
    (p_core : P .core) :
    s0.Frame P (State.trapDue s h) := by
  unfold State.trapDue
  try dsimp only
  with_reducible repeat' (first
    | intro _ | assumption | exact State.Frame.refl _ | apply State.trapNow_frame | apply State.setHart_frame | apply f_ite
    | split)

theorem State.hartRecord_frame {s0 : State} {s : State} {h : Nat} {addr : Nat} {rcid : Nat} {mcid : Nat} (h0 : s0.Frame P s)
    (p_regs : P .regs) (p_free : P .free) (p_core : P .core) (p_pass : P .pass) (p_ras : P .ras) (p_tvx : P .tvx) :
    s0.Frame P (State.hartRecord s h addr rcid mcid) := by
  unfold State.hartRecord
  try dsimp only
  with_reducible repeat' (first | intro _ | assumption | exact State.Frame.refl _ | apply State.errRecord_frame)

theorem State.dropFrom_frame {s0 : State} {s : State} {h : Nat} {id : Nat} (h0 : s0.Frame P s) (p_core : P .core) :
    s0.Frame P (State.dropFrom s h id) := by
  unfold State.dropFrom
  try dsimp only
  with_reducible repeat' (first | intro _ | assumption | exact State.Frame.refl _ | apply State.setHart_frame)

theorem State.busError_frame {s0 : State} {s : State} {h : Nat} {w : Wait} (h0 : s0.Frame P s) (p_regs : P .regs)
    (p_free : P .free) (p_core : P .core) (p_pass : P .pass) (p_ras : P .ras) (p_tvx : P .tvx) :
    s0.Frame P (State.busError s h w) := by
  unfold State.busError
  try dsimp only
  with_reducible repeat' (first
    | intro _ | assumption | exact State.Frame.refl _ | apply State.hartRecord_frame | apply State.dropPiece_frame
    | apply State.trapDue_frame | apply State.setOut_frame | apply State.trapHart_frame | apply State.dropFrom_frame
    | apply f_ite)

theorem State.retire_frame {s0 : State} {s : State} {h : Nat} {k : AKind} {x : Access} (h0 : s0.Frame P s)
    (p_regs : P .regs) (p_core : P .core) :
    s0.Frame P (State.retire s h k x) := by
  unfold State.retire
  try dsimp only
  with_reducible repeat' (first
    | intro _ | assumption | exact State.Frame.refl _ | apply State.setHart_frame | apply State.retired_frame
    | apply State.hpm_frame | apply f_ite)

theorem State.pieceDone_frame {s0 : State} {s : State} {h : Nat} {w : Wait} {v : Nat} (h0 : s0.Frame P s) (p_regs : P .regs)
    (p_free : P .free) (p_core : P .core) :
    s0.Frame P (State.pieceDone s h w v) := by
  unfold State.pieceDone
  try dsimp only
  with_reducible repeat' (first
    | intro _ | assumption | exact State.Frame.refl _ | apply State.dropPiece_frame | apply State.retire_frame
    | apply State.trapDue_frame | apply State.setOut_frame | apply State.setHart_frame | apply f_ite | split)

theorem State.perform_frame {s0 : State} {s : State} {h : Nat} {w : Wait} {way : Nat} (h0 : s0.Frame P s) (p_regs : P .regs)
    (p_free : P .free) (p_core : P .core) (p_pass : P .pass) (p_ras : P .ras) (p_tvx : P .tvx) :
    s0.Frame P (State.perform s h w way) := by
  unfold State.perform
  try dsimp only
  with_reducible repeat' (first
    | intro _ | assumption | exact State.Frame.refl _ | apply State.setL2_frame | apply State.busError_frame
    | apply State.pieceDone_frame | apply State.l1dUse_frame | apply State.l1iInstall_frame | apply State.hpm_frame
    | apply f_ite | split)

theorem State.tryPiece_frame {s0 : State} {s : State} {h : Nat} {w : Wait} (h0 : s0.Frame P s) (p_regs : P .regs)
    (p_free : P .free) (p_core : P .core) (p_pass : P .pass) (p_ras : P .ras) (p_tvx : P .tvx) :
    s0.Frame P (State.tryPiece s h w) := by
  unfold State.tryPiece
  try dsimp only
  with_reducible repeat' (first
    | intro _ | assumption | exact State.Frame.refl _ | apply State.trapNow_frame | apply State.busError_frame
    | apply State.perform_frame | apply State.pieceDone_frame | apply State.setL1iPlru_frame | apply f_ite | apply f_foldl
    | split)

theorem State.tryHart_frame {s0 : State} {s : State} {h : Nat} (h0 : s0.Frame P s) (p_regs : P .regs) (p_free : P .free)
    (p_core : P .core) (p_pass : P .pass) (p_ras : P .ras) (p_tvx : P .tvx) :
    s0.Frame P (State.tryHart s h) := by
  unfold State.tryHart
  try dsimp only
  with_reducible repeat' (first | intro _ | assumption | exact State.Frame.refl _ | apply State.tryPiece_frame | apply f_foldl | split)

theorem State.memBegin_frame {s0 : State} {s : State} {h : Nat} {k : AKind} {x : Access} {op : Nat} {v : Nat} {cmp : Nat}
    (h0 : s0.Frame P s) (p_regs : P .regs) (p_free : P .free) (p_core : P .core) (p_pass : P .pass) (p_ras : P .ras)
    (p_tvx : P .tvx) :
    s0.Frame P (State.memBegin s h k x op v cmp) := by
  unfold State.memBegin
  try dsimp only
  with_reducible repeat' (first | intro _ | assumption | exact State.Frame.refl _ | apply State.tryHart_frame | apply State.setHart_frame | apply f_ite)

theorem State.markAsked_frame {s0 : State} {s : State} {h : Nat} {w : Wait} {b : Bool} (h0 : s0.Frame P s)
    (p_core : P .core) :
    s0.Frame P (State.markAsked s h w b) := by
  unfold State.markAsked
  try dsimp only
  with_reducible repeat' (first | intro _ | assumption | exact State.Frame.refl _ | apply State.setHart_frame | apply f_ite)

theorem State.dieSend_frame {s0 : State} {s : State} {h : Nat} {w : Wait} {opc : Nat} {cmo : Nat} {m0 : Msg}
    (h0 : s0.Frame P s) (p_regs : P .regs) (p_net : P .net) (p_core : P .core) (p_die : P .die) (p_pass : P .pass) :
    s0.Frame P (State.dieSend s h w opc cmo m0) := by
  unfold State.dieSend
  try dsimp only
  with_reducible repeat' (first
    | (intro (p : Part) hp; cases p <;> first | rfl | contradiction) | intro _ | assumption | exact State.Frame.refl _
    | apply State.count_frame | apply State.markAsked_frame | apply State.send_frame | apply f_mk)

theorem State.dieServe_frame {s0 : State} {s : State} {h : Nat} {w : Wait} (h0 : s0.Frame P s) (p_regs : P .regs)
    (p_net : P .net) (p_free : P .free) (p_core : P .core) (p_die : P .die) (p_pass : P .pass) (p_ras : P .ras)
    (p_tvx : P .tvx) :
    s0.Frame P (State.dieServe s h w) := by
  unfold State.dieServe
  try dsimp only
  with_reducible repeat' (first
    | intro _ | assumption | exact State.Frame.refl _ | apply State.dieSend_frame | apply State.hpm_frame
    | apply State.count_frame | apply State.trapNow_frame | apply State.l1dDrop_frame | apply State.setL2_frame
    | apply State.setVcLine_frame | apply State.l2Settle_frame | apply State.tryHart_frame | apply State.l2Install_frame
    | apply State.vcDrop_frame | apply State.invOthers_frame | apply f_ite | split)

theorem State.dieProtoErr_frame {s0 : State} {s : State} {d : Nat} {m : Msg} (h0 : s0.Frame P s) (p_regs : P .regs)
    (p_free : P .free) (p_core : P .core) (p_pass : P .pass) (p_ras : P .ras) (p_tvx : P .tvx) :
    s0.Frame P (State.dieProtoErr s d m) := by
  unfold State.dieProtoErr
  try dsimp only
  with_reducible repeat' (first | intro _ | assumption | exact State.Frame.refl _ | apply State.errRecord_frame)

theorem State.dropTrk_frame {s0 : State} {s : State} {t : Trk} (h0 : s0.Frame P s) (p_die : P .die) :
    s0.Frame P (State.dropTrk s t) := by
  unfold State.dropTrk
  try dsimp only
  with_reducible repeat' (first
    | (intro (p : Part) hp; cases p <;> first | rfl | contradiction) | intro _ | assumption | exact State.Frame.refl _
    | apply f_regs | apply f_mem | apply f_mk)

theorem State.dieClose_frame {s0 : State} {s : State} {t : Trk} {htag : Nat} (h0 : s0.Frame P s) (p_net : P .net) :
    s0.Frame P (State.dieClose s t htag) := by
  unfold State.dieClose
  try dsimp only
  with_reducible repeat' (first | intro _ | assumption | exact State.Frame.refl _ | apply State.send_frame)

theorem State.noteFill_frame {s0 : State} {s : State} {d : Nat} {line : Nat} (h0 : s0.Frame P s) (p_die : P .die) :
    s0.Frame P (State.noteFill s d line) := by
  unfold State.noteFill
  try dsimp only
  with_reducible repeat' (first
    | (intro (p : Part) hp; cases p <;> first | rfl | contradiction) | intro _ | assumption | exact State.Frame.refl _
    | apply f_regs | apply f_mem | apply f_mk)

theorem State.dieFill_frame {s0 : State} {s : State} {t : Trk} {m : Msg} (h0 : s0.Frame P s) (p_regs : P .regs)
    (p_net : P .net) (p_free : P .free) (p_core : P .core) (p_die : P .die) (p_pass : P .pass) (p_ras : P .ras)
    (p_tvx : P .tvx) :
    s0.Frame P (State.dieFill s t m) := by
  unfold State.dieFill
  try dsimp only
  with_reducible repeat' (first
    | intro _ | assumption | exact State.Frame.refl _ | apply State.dieClose_frame | apply State.dropTrk_frame
    | apply State.tryPiece_frame | apply State.markAsked_frame | apply State.wbSend_frame | apply State.vcDrop_frame
    | apply State.invOthers_frame | apply State.busError_frame | apply State.l2Settle_frame | apply State.tryHart_frame
    | apply State.noteFill_frame | apply State.l2Install_frame | apply f_ite | split)

theorem State.dieDataIn_frame {s0 : State} {s : State} {d : Nat} {m : Msg} (h0 : s0.Frame P s) (p_regs : P .regs)
    (p_net : P .net) (p_free : P .free) (p_core : P .core) (p_die : P .die) (p_pass : P .pass) (p_ras : P .ras)
    (p_tvx : P .tvx) :
    s0.Frame P (State.dieDataIn s d m) := by
  unfold State.dieDataIn
  try dsimp only
  with_reducible repeat' (first
    | intro _ | assumption | exact State.Frame.refl _ | apply State.dieProtoErr_frame | apply State.dieFill_frame
    | apply State.dropTrk_frame | apply State.busError_frame | apply State.pieceDone_frame | apply State.tryHart_frame
    | apply f_ite | split)

theorem State.dieComp_frame {s0 : State} {s : State} {d : Nat} {m : Msg} (h0 : s0.Frame P s) (p_regs : P .regs)
    (p_free : P .free) (p_core : P .core) (p_die : P .die) (p_pass : P .pass) (p_ras : P .ras) (p_tvx : P .tvx) :
    s0.Frame P (State.dieComp s d m) := by
  unfold State.dieComp
  try dsimp only
  with_reducible repeat' (first
    | intro _ | assumption | exact State.Frame.refl _ | apply State.dieDataIn_frame | apply State.dieProtoErr_frame
    | apply State.dropTrk_frame | apply State.tryHart_frame | apply State.pieceDone_frame | split)

theorem State.dieErr_frame {s0 : State} {s : State} {d : Nat} {m : Msg} (h0 : s0.Frame P s) (p_regs : P .regs)
    (p_free : P .free) (p_core : P .core) (p_die : P .die) (p_pass : P .pass) (p_ras : P .ras) (p_tvx : P .tvx) :
    s0.Frame P (State.dieErr s d m) := by
  unfold State.dieErr
  try dsimp only
  with_reducible repeat' (first
    | intro _ | assumption | exact State.Frame.refl _ | apply State.dieDataIn_frame | apply State.dieProtoErr_frame
    | apply State.dropTrk_frame | apply State.busError_frame | apply State.markAsked_frame | split)

theorem State.dieRetry_frame {s0 : State} {s : State} {d : Nat} {m : Msg} (h0 : s0.Frame P s) (p_regs : P .regs)
    (p_free : P .free) (p_core : P .core) (p_die : P .die) (p_pass : P .pass) (p_ras : P .ras) (p_tvx : P .tvx) :
    s0.Frame P (State.dieRetry s d m) := by
  unfold State.dieRetry
  try dsimp only
  with_reducible repeat' (first
    | (intro (p : Part) hp; cases p <;> first | rfl | contradiction) | intro _ | assumption | exact State.Frame.refl _
    | apply State.dieDataIn_frame | apply State.dieProtoErr_frame | apply State.count_frame | apply f_ite
    | (apply f_mk; first | assumption | exact State.Frame.refl _ | apply State.dieDataIn_frame | apply State.dieProtoErr_frame | apply State.count_frame | apply f_ite)
    | split)

theorem State.dieResend_frame {s0 : State} {s : State} {t : Trk} {token : Nat} (h0 : s0.Frame P s) (p_net : P .net)
    (p_die : P .die) :
    s0.Frame P (State.dieResend s t token) := by
  unfold State.dieResend
  try dsimp only
  with_reducible repeat' (first
    | (intro (p : Part) hp; cases p <;> first | rfl | contradiction) | intro _ | assumption | exact State.Frame.refl _
    | apply State.send_frame | apply f_ite | apply f_mk)

theorem State.dieGrant_frame {s0 : State} {s : State} {d : Nat} {m : Msg} (h0 : s0.Frame P s) (p_regs : P .regs)
    (p_net : P .net) (p_free : P .free) (p_core : P .core) (p_die : P .die) (p_pass : P .pass) (p_ras : P .ras)
    (p_tvx : P .tvx) :
    s0.Frame P (State.dieGrant s d m) := by
  unfold State.dieGrant
  try dsimp only
  with_reducible repeat' (first
    | intro _ | assumption | exact State.Frame.refl _ | apply State.count_frame | apply State.dieResend_frame
    | apply State.dieProtoErr_frame | apply f_ite | split)

theorem State.dieWbAck_frame {s0 : State} {s : State} {d : Nat} {m : Msg} (h0 : s0.Frame P s) (p_regs : P .regs)
    (p_free : P .free) (p_core : P .core) (p_die : P .die) (p_pass : P .pass) (p_ras : P .ras) (p_tvx : P .tvx) :
    s0.Frame P (State.dieWbAck s d m) := by
  unfold State.dieWbAck
  try dsimp only
  with_reducible repeat' (first
    | (intro (p : Part) hp; cases p <;> first | rfl | contradiction) | intro _ | assumption | exact State.Frame.refl _
    | apply State.dieProtoErr_frame | apply f_ite | apply f_regs | apply f_mem | apply f_mk)

theorem State.snpRsp_frame {s0 : State} {s : State} {d : Nat} {m : Msg} {opc : Nat} {newSt : Nat} (h0 : s0.Frame P s)
    (p_regs : P .regs) (p_net : P .net) (p_pass : P .pass) :
    s0.Frame P (State.snpRsp s d m opc newSt) := by
  unfold State.snpRsp
  try dsimp only
  with_reducible repeat' (first | intro _ | assumption | exact State.Frame.refl _ | apply State.send_frame | apply State.count_frame | apply f_ite)

theorem State.snpData_frame {s0 : State} {s : State} {d : Nat} {m : Msg} {opc : Nat} {l : Line} {bad : Bool}
    (h0 : s0.Frame P s) (p_net : P .net) :
    s0.Frame P (State.snpData s d m opc l bad) := by
  unfold State.snpData
  try dsimp only
  with_reducible repeat' (first | intro _ | assumption | exact State.Frame.refl _ | apply State.send_frame)

theorem State.dieDrop_frame {s0 : State} {s : State} {d : Nat} {line : Nat} (h0 : s0.Frame P s) (p_core : P .core)
    (p_die : P .die) :
    s0.Frame P (State.dieDrop s d line) := by
  unfold State.dieDrop
  try dsimp only
  with_reducible repeat' (first | intro _ | assumption | exact State.Frame.refl _ | apply State.vcDrop_frame | apply State.invOthers_frame)

theorem State.snpBuffer_frame {s0 : State} {s : State} {d : Nat} {e : WbEnt} {m : Msg} (h0 : s0.Frame P s)
    (p_regs : P .regs) (p_net : P .net) (p_pass : P .pass) :
    s0.Frame P (State.snpBuffer s d e m) := by
  unfold State.snpBuffer
  try dsimp only
  with_reducible repeat' (first | intro _ | assumption | exact State.Frame.refl _ | apply State.snpRsp_frame | apply State.snpData_frame | apply f_ite)

theorem State.markRecord_frame {s0 : State} {s : State} {d : Nat} {line : Nat} {rcid : Nat} {mcid : Nat} (h0 : s0.Frame P s)
    (p_regs : P .regs) (p_free : P .free) (p_core : P .core) (p_pass : P .pass) (p_ras : P .ras) (p_tvx : P .tvx) :
    s0.Frame P (State.markRecord s d line rcid mcid) := by
  unfold State.markRecord
  try dsimp only
  with_reducible repeat' (first | intro _ | assumption | exact State.Frame.refl _ | apply State.errRecord_frame)

theorem State.snpServe_frame {s0 : State} {s : State} {d : Nat} {m : Msg} (h0 : s0.Frame P s) (p_regs : P .regs)
    (p_net : P .net) (p_free : P .free) (p_core : P .core) (p_die : P .die) (p_pass : P .pass) (p_ras : P .ras)
    (p_tvx : P .tvx) :
    s0.Frame P (State.snpServe s d m) := by
  unfold State.snpServe
  try dsimp only
  with_reducible repeat' (first
    | intro _ | assumption | exact State.Frame.refl _ | apply State.snpRsp_frame | apply State.snpData_frame
    | apply State.dieDrop_frame | apply State.markRecord_frame | apply State.trapNow_frame | apply State.l1dDrop_frame
    | apply State.setL2_frame | apply State.setDieSt_frame | apply f_ite | split)

theorem State.dieSnoop_frame {s0 : State} {s : State} {d : Nat} {m : Msg} (h0 : s0.Frame P s) (p_regs : P .regs)
    (p_net : P .net) (p_free : P .free) (p_core : P .core) (p_die : P .die) (p_pass : P .pass) (p_ras : P .ras)
    (p_tvx : P .tvx) :
    s0.Frame P (State.dieSnoop s d m) := by
  unfold State.dieSnoop
  try dsimp only
  with_reducible repeat' (first
    | (intro (p : Part) hp; cases p <;> first | rfl | contradiction) | intro _ | assumption | exact State.Frame.refl _
    | apply State.count_frame | apply State.snpBuffer_frame | apply State.snpServe_frame | apply f_ite
    | (apply f_mk; first | assumption | exact State.Frame.refl _ | apply State.count_frame | apply State.snpBuffer_frame | apply State.snpServe_frame | apply f_ite)
    | split)

theorem State.holdRelease_frame {s0 : State} {s : State} {d : Nat} {line : Nat} (h0 : s0.Frame P s) (p_regs : P .regs)
    (p_net : P .net) (p_free : P .free) (p_core : P .core) (p_die : P .die) (p_pass : P .pass) (p_ras : P .ras)
    (p_tvx : P .tvx) :
    s0.Frame P (State.holdRelease s d line) := by
  unfold State.holdRelease
  try dsimp only
  with_reducible repeat' (first
    | (intro (p : Part) hp; cases p <;> first | rfl | contradiction) | intro _ | assumption | exact State.Frame.refl _
    | apply State.dieSnoop_frame | apply State.snpBuffer_frame | apply State.snpServe_frame | apply f_foldl | apply f_regs
    | apply f_mem
    | (apply f_mk; first | assumption | exact State.Frame.refl _ | apply State.dieSnoop_frame | apply State.snpBuffer_frame | apply State.snpServe_frame | apply f_foldl | apply f_regs | apply f_mem)
    | split)

end Sys2Proof.Machine
end

