-- ==== Sys2Proof/Laws/FrameIommu.lean ====
section
/-!
SUPPORT. What each function of Machine/Iommu.lean leaves alone (`State.Frame`, Safety.lean): one lemma for each.
-/

namespace Sys2Proof.Machine

variable {P : Part → Prop}

theorem State.setReqs_frame {s0 : State} {s : State} {r : List IoReq} (h0 : s0.Frame P s) (p_io : P .io) :
    s0.Frame P (State.setReqs s r) := by
  unfold State.setReqs
  try dsimp only
  with_reducible repeat' (first
    | (intro (p : Part) hp; cases p <;> first | rfl | contradiction) | intro _ | assumption | exact State.Frame.refl _
    | apply f_mk)

theorem State.ioSend_frame {s0 : State} {s : State} {agent : Nat} {stream : Nat} {why : IoWhy} {m : Msg} (h0 : s0.Frame P s)
    (p_net : P .net) (p_io : P .io) :
    s0.Frame P (State.ioSend s agent stream why m) := by
  unfold State.ioSend
  try dsimp only
  with_reducible repeat' (first | intro _ | assumption | exact State.Frame.refl _ | apply State.setReqs_frame | apply State.send_frame | apply f_ite)

theorem State.ioNext_frame {s0 : State} {s : State} {agent : Nat} {addr : Nat} (h0 : s0.Frame P s) (p_net : P .net)
    (p_io : P .io) :
    s0.Frame P (State.ioNext s agent addr) := by
  unfold State.ioNext
  try dsimp only
  with_reducible repeat' (first
    | intro _ | assumption | exact State.Frame.refl _ | apply State.send_frame | apply State.setReqs_frame | apply f_ite
    | split)

theorem State.ioDrop_frame {s0 : State} {s : State} {r : IoReq} (h0 : s0.Frame P s) (p_net : P .net) (p_io : P .io) :
    s0.Frame P (State.ioDrop s r) := by
  unfold State.ioDrop
  try dsimp only
  with_reducible repeat' (first | intro _ | assumption | exact State.Frame.refl _ | apply State.setReqs_frame | apply State.ioNext_frame)

theorem State.ioRead_frame {s0 : State} {s : State} {agent : Nat} {stream : Nat} {why : Nat → Nat → Nat → IoWhy}
    {ids : Nat × Nat} {ga : Nat} {len : Nat} (h0 : s0.Frame P s) (p_net : P .net) (p_io : P .io) :
    s0.Frame P (State.ioRead s agent stream why ids ga len) := by
  unfold State.ioRead
  try dsimp only
  with_reducible repeat' (first | intro _ | assumption | exact State.Frame.refl _ | apply State.ioSend_frame | apply f_foldl)

theorem State.ioWrite_frame {s0 : State} {s : State} {agent : Nat} {stream : Nat} {why : Nat → Nat → Nat → IoWhy}
    {ids : Nat × Nat} {ord : Nat} {ga : Nat} {len : Nat} {data : Nat} {poison : Bool} (h0 : s0.Frame P s) (p_net : P .net)
    (p_io : P .io) :
    s0.Frame P (State.ioWrite s agent stream why ids ord ga len data poison) := by
  unfold State.ioWrite
  try dsimp only
  with_reducible repeat' (first | intro _ | assumption | exact State.Frame.refl _ | apply State.ioSend_frame | apply f_ite | apply f_foldl)

theorem State.iommuPut_frame {s0 : State} {s : State} {o : Nat} {lo : Nat} {w : Nat} {v : Nat} (h0 : s0.Frame P s)
    (p_regs : P .regs) :
    s0.Frame P (State.iommuPut s o lo w v) := by
  unfold State.iommuPut
  try dsimp only
  with_reducible repeat' (first | intro _ | assumption | exact State.Frame.refl _ | apply State.setReg_frame)

theorem State.iommuFip_frame {s0 : State} {s : State} (h0 : s0.Frame P s) (p_regs : P .regs) (p_pass : P .pass) :
    s0.Frame P (State.iommuFip s) := by
  unfold State.iommuFip
  try dsimp only
  with_reducible repeat' (first | intro _ | assumption | exact State.Frame.refl _ | apply State.iommuPut_frame | apply State.sendMsi_frame | apply f_ite)

theorem State.iommuFault_frame {s0 : State} {s : State} {rid : Nat} {ttyp : Nat} {iova : Nat} (h0 : s0.Frame P s)
    (p_regs : P .regs) (p_net : P .net) (p_free : P .free) (p_pass : P .pass) (p_io : P .io) :
    s0.Frame P (State.iommuFault s rid ttyp iova) := by
  unfold State.iommuFault
  try dsimp only
  with_reducible repeat' (first
    | intro _ | assumption | exact State.Frame.refl _ | apply State.count_frame | apply State.iommuFip_frame
    | apply State.iommuPut_frame | apply State.freeWord_frame | apply State.ioWrite_frame | apply State.decodeErr_frame
    | apply f_ite | apply f_ite_fst | apply f_ite_snd | refine f_of_snd (by assumption) ?_
    | refine f_of_fst (by assumption) ?_ | refine f_of_some (by assumption) ?_ | split)

theorem State.iommuLine_frame {s0 : State} {s : State} {ok : Bool} (h0 : s0.Frame P s) (p_regs : P .regs) (p_pass : P .pass)
    :
    s0.Frame P (State.iommuLine s ok) := by
  unfold State.iommuLine
  try dsimp only
  with_reducible repeat' (first
    | intro _ | assumption | exact State.Frame.refl _ | apply State.iommuFip_frame | apply State.iommuPut_frame
    | apply f_ite)

theorem State.iommuWrite_frame {s0 : State} {s : State} {o : Nat} {new : Nat} {v : Nat} (h0 : s0.Frame P s)
    (p_regs : P .regs) :
    s0.Frame P (State.iommuWrite s o new v) := by
  unfold State.iommuWrite
  try dsimp only
  with_reducible repeat' (first | intro _ | assumption | exact State.Frame.refl _ | apply State.setReg_frame | apply State.iommuPut_frame | apply f_ite)

theorem State.iommuDrop_frame {s0 : State} {s : State} {rid : Nat} {addr : Nat} (h0 : s0.Frame P s) (p_regs : P .regs)
    (p_net : P .net) (p_free : P .free) (p_pass : P .pass) (p_io : P .io) :
    s0.Frame P (State.iommuDrop s rid addr) := by
  unfold State.iommuDrop
  try dsimp only
  with_reducible repeat' (first
    | intro _ | assumption | exact State.Frame.refl _ | apply State.iommuFault_frame | apply State.count_frame
    | apply State.put_frame | apply State.bump_frame)

theorem State.iommuMsi_frame {s0 : State} {s : State} {addr : Nat} (h0 : s0.Frame P s) (p_free : P .free) :
    s0.Frame P (State.iommuMsi s addr).2 := by
  unfold State.iommuMsi
  try dsimp only
  with_reducible repeat' (first
    | (intro (p : Part) hp; cases p <;> first | rfl | contradiction) | intro _ | assumption | exact State.Frame.refl _
    | apply f_ite | apply f_ite_fst | apply f_ite_snd | apply f_mk)

end Sys2Proof.Machine
end

