-- ==== Sys2Proof/Laws/FrameXfer.lean ====
section
/-!
SUPPORT. What each function of Machine/Xfer.lean leaves alone (`State.Frame`, Safety.lean): one lemma for each.
-/

namespace Sys2Proof.Machine

variable {P : Part → Prop}

theorem State.wSend_frame {s0 : State} {s : State} {m : WMsg} (h0 : s0.Frame P s) (p_hzn : P .hzn) :
    s0.Frame P (State.wSend s m) := by
  unfold State.wSend
  try dsimp only
  with_reducible repeat' (first
    | (intro (p : Part) hp; cases p <;> first | rfl | contradiction) | intro _ | assumption | exact State.Frame.refl _
    | apply f_mk)

theorem State.wGo_frame {s0 : State} {s : State} {m : WMsg} (h0 : s0.Frame P s) (p_hzn : P .hzn) :
    s0.Frame P (State.wGo s m) := by
  unfold State.wGo
  try dsimp only
  with_reducible repeat' (first
    | (intro (p : Part) hp; cases p <;> first | rfl | contradiction) | intro _ | assumption | exact State.Frame.refl _
    | apply State.wSend_frame | apply f_ite | apply f_mk)

theorem State.msiWrite_frame {s0 : State} {s : State} {agent : Nat} {source : Nat} {rid : Nat} {ids : Nat × Nat} {ga : Nat}
    {data : Nat} (h0 : s0.Frame P s) (p_regs : P .regs) (p_net : P .net) (p_pass : P .pass) (p_io : P .io) :
    s0.Frame P (State.msiWrite s agent source rid ids ga data) := by
  unfold State.msiWrite
  try dsimp only
  with_reducible repeat' (first
    | intro _ | assumption | exact State.Frame.refl _ | apply State.ioWrite_frame | apply State.decodeErr_frame
    | apply State.setPending_frame | apply State.count_frame | apply f_ite | split)

theorem State.xceMsi_frame {s0 : State} {s : State} {f : Nat} {addr : Nat} {data : Nat} (h0 : s0.Frame P s)
    (p_regs : P .regs) (p_net : P .net) (p_free : P .free) (p_pass : P .pass) (p_io : P .io) :
    s0.Frame P (State.xceMsi s f addr data) := by
  unfold State.xceMsi
  try dsimp only
  with_reducible repeat' (first
    | intro _ | assumption | exact State.Frame.refl _ | apply State.iommuMsi_frame | apply State.iommuDrop_frame
    | apply State.msiWrite_frame | refine f_of_snd (by assumption) ?_ | refine f_of_fst (by assumption) ?_
    | refine f_of_some (by assumption) ?_ | split)

theorem State.setMsixE_frame {s0 : State} {s : State} {f : Nat} {v : Nat} {e : MsixE} (h0 : s0.Frame P s) (p_xce : P .xce) :
    s0.Frame P (State.setMsixE s f v e) := by
  unfold State.setMsixE
  try dsimp only
  with_reducible repeat' (first
    | (intro (p : Part) hp; cases p <;> first | rfl | contradiction) | intro _ | assumption | exact State.Frame.refl _
    | apply f_mk)

theorem State.setPba_frame {s0 : State} {s : State} {f : Nat} {v : Nat} {b : Bool} (h0 : s0.Frame P s) (p_xce : P .xce) :
    s0.Frame P (State.setPba s f v b) := by
  unfold State.setPba
  try dsimp only
  with_reducible repeat' (first
    | (intro (p : Part) hp; cases p <;> first | rfl | contradiction) | intro _ | assumption | exact State.Frame.refl _
    | apply f_mk)

theorem State.intaUpdate_frame {s0 : State} {s : State} (h0 : s0.Frame P s) (p_regs : P .regs) (p_pass : P .pass)
    (p_xce : P .xce) (p_io : P .io) :
    s0.Frame P (State.intaUpdate s) := by
  unfold State.intaUpdate
  try dsimp only
  with_reducible repeat' (first
    | (intro (p : Part) hp; cases p <;> first | rfl | contradiction) | intro _ | assumption | exact State.Frame.refl _
    | apply State.aplicLevel_frame | apply f_mk)

theorem State.xceSignal_frame {s0 : State} {s : State} {f : Nat} {v : Nat} (h0 : s0.Frame P s) (p_regs : P .regs)
    (p_net : P .net) (p_free : P .free) (p_pass : P .pass) (p_xce : P .xce) (p_io : P .io) :
    s0.Frame P (State.xceSignal s f v) := by
  unfold State.xceSignal
  try dsimp only
  with_reducible repeat' (first
    | (intro (p : Part) hp; cases p <;> first | rfl | contradiction) | intro _ | assumption | exact State.Frame.refl _
    | apply State.xceMsi_frame | apply State.setPba_frame | apply State.putCfg_frame | apply State.intaUpdate_frame
    | apply f_ite | apply f_mk)

theorem State.pbaDrain_frame {s0 : State} {s : State} {f : Nat} (h0 : s0.Frame P s) (p_regs : P .regs) (p_net : P .net)
    (p_free : P .free) (p_pass : P .pass) (p_xce : P .xce) (p_io : P .io) :
    s0.Frame P (State.pbaDrain s f) := by
  unfold State.pbaDrain
  try dsimp only
  with_reducible repeat' (first
    | intro _ | assumption | exact State.Frame.refl _ | apply State.xceMsi_frame | apply State.setPba_frame | apply f_ite
    | apply f_foldN)

theorem State.heldDrain_frame {s0 : State} {s : State} {f : Nat} (h0 : s0.Frame P s) (p_regs : P .regs) (p_net : P .net)
    (p_free : P .free) (p_pass : P .pass) (p_xce : P .xce) (p_io : P .io) :
    s0.Frame P (State.heldDrain s f) := by
  unfold State.heldDrain
  try dsimp only
  with_reducible repeat' (first
    | (intro (p : Part) hp; cases p <;> first | rfl | contradiction) | intro _ | assumption | exact State.Frame.refl _
    | apply State.pbaDrain_frame | apply State.xceSignal_frame | apply f_ite | apply f_foldN | apply f_mk)

theorem State.xceEvent_frame {s0 : State} {s : State} {i : Nat} (h0 : s0.Frame P s) (p_regs : P .regs) (p_net : P .net)
    (p_free : P .free) (p_pass : P .pass) (p_xce : P .xce) (p_io : P .io) :
    s0.Frame P (State.xceEvent s i) := by
  unfold State.xceEvent
  try dsimp only
  with_reducible repeat' (first | intro _ | assumption | exact State.Frame.refl _ | apply State.setReg_frame | apply State.xceSignal_frame | apply f_ite)

theorem State.aerMessage_frame {s0 : State} {s : State} {kind : Nat} (h0 : s0.Frame P s) (p_io : P .io) :
    s0.Frame P (State.aerMessage s kind) := by
  unfold State.aerMessage
  try dsimp only
  with_reducible repeat' (first | intro _ | assumption | exact State.Frame.refl _ | apply State.putCfg_frame | apply f_ite)

theorem State.xceAer_frame {s0 : State} {s : State} {f : Nat} {bitNo : Nat} (h0 : s0.Frame P s) (p_regs : P .regs)
    (p_net : P .net) (p_free : P .free) (p_core : P .core) (p_pass : P .pass) (p_xce : P .xce) (p_io : P .io)
    (p_ras : P .ras) (p_tvx : P .tvx) :
    s0.Frame P (State.xceAer s f bitNo) := by
  unfold State.xceAer
  try dsimp only
  with_reducible repeat' (first
    | intro _ | assumption | exact State.Frame.refl _ | apply State.putCfg_frame | apply State.aerMessage_frame
    | apply State.setCfg_frame | apply State.xceEvent_frame | apply State.errRecord_frame | apply f_ite)

theorem State.xceMended_frame {s0 : State} {s : State} (h0 : s0.Frame P s) (p_io : P .io) :
    s0.Frame P (State.xceMended s) := by
  unfold State.xceMended
  try dsimp only
  with_reducible repeat' (first
    | intro _ | assumption | exact State.Frame.refl _ | apply State.putCfg_frame | apply State.aerMessage_frame
    | apply f_ite)

theorem State.setAtc_frame {s0 : State} {s : State} {l : List AtcE} (h0 : s0.Frame P s) (p_regs : P .regs) (p_xce : P .xce)
    :
    s0.Frame P (State.setAtc s l) := by
  unfold State.setAtc
  try dsimp only
  with_reducible repeat' (first
    | (intro (p : Part) hp; cases p <;> first | rfl | contradiction) | intro _ | assumption | exact State.Frame.refl _
    | apply State.put_frame | apply f_mk)

theorem State.atcFill_frame {s0 : State} {s : State} {e : AtcE} (h0 : s0.Frame P s) (p_regs : P .regs) (p_xce : P .xce) :
    s0.Frame P (State.atcFill s e) := by
  unfold State.atcFill
  try dsimp only
  with_reducible repeat' (first | intro _ | assumption | exact State.Frame.refl _ | apply State.setAtc_frame | apply f_ite | split)

theorem State.xlate_frame {s0 : State} {s : State} {f : Nat} {va : Nat} {rd : Bool} {wr : Bool} {tr : Xlate}
    (h0 : s0.Frame P s) (p_regs : P .regs) (p_net : P .net) (p_free : P .free) (p_pass : P .pass) (p_xce : P .xce)
    (p_io : P .io) :
    s0.Frame P (State.xlate s f va rd wr tr).2 := by
  unfold State.xlate
  try dsimp only
  with_reducible repeat' (first
    | intro _ | assumption | exact State.Frame.refl _ | apply State.atcFill_frame | apply State.count_frame
    | apply State.setAtc_frame | apply State.bump_frame | apply State.iommuFault_frame | apply f_ite | apply f_ite_fst
    | apply f_ite_snd | split)

theorem State.setXop_frame {s0 : State} {s : State} {o : XOp} (h0 : s0.Frame P s) (p_xce : P .xce) :
    s0.Frame P (State.setXop s o) := by
  unfold State.setXop
  try dsimp only
  with_reducible repeat' (first
    | (intro (p : Part) hp; cases p <;> first | rfl | contradiction) | intro _ | assumption | exact State.Frame.refl _
    | apply f_ite | apply f_mk)

theorem State.xopBegin_frame {s0 : State} {s : State} {f : Nat} {what : XWhat} {ids : Nat × Nat} {stream : Nat} {va : Nat}
    {len : Nat} {trs : List Xlate} {data : Option Nat} {ord : Nat} (h0 : s0.Frame P s) (p_regs : P .regs) (p_net : P .net)
    (p_free : P .free) (p_pass : P .pass) (p_xce : P .xce) (p_io : P .io) :
    s0.Frame P (State.xopBegin s f what ids stream va len trs data ord).1 := by
  unfold State.xopBegin
  try dsimp only
  with_reducible repeat' (first
    | (intro (p : Part) hp; cases p <;> first | rfl | contradiction) | intro _ | assumption | exact State.Frame.refl _
    | apply State.xlate_frame | apply State.xceMsi_frame | apply State.ioRead_frame | apply State.ioWrite_frame
    | apply State.msiWrite_frame | apply State.decodeErr_frame | apply State.setPending_frame | apply State.setXop_frame
    | apply f_ite | apply f_ite_fst | apply f_ite_snd | apply f_foldl | apply f_foldl_fst
    | refine f_of_snd (by assumption) ?_ | refine f_of_fst (by assumption) ?_ | refine f_of_some (by assumption) ?_
    | (apply f_mk; first | assumption | exact State.Frame.refl _ | apply State.xlate_frame | apply State.xceMsi_frame | apply State.ioRead_frame | apply State.ioWrite_frame | apply State.msiWrite_frame | apply State.decodeErr_frame | apply State.setPending_frame | apply State.setXop_frame | apply f_ite | apply f_ite_fst | apply f_ite_snd | apply f_foldl | apply f_foldl_fst)
    | split)

theorem State.xopAtomic_frame {s0 : State} {s : State} {f : Nat} {m : WMsg} {ids : Nat × Nat} {stream : Nat} {va : Nat}
    {tr : Xlate} (h0 : s0.Frame P s) (p_regs : P .regs) (p_net : P .net) (p_free : P .free) (p_pass : P .pass)
    (p_xce : P .xce) (p_io : P .io) :
    s0.Frame P (State.xopAtomic s f m ids stream va tr).1 := by
  unfold State.xopAtomic
  try dsimp only
  with_reducible repeat' (first
    | (intro (p : Part) hp; cases p <;> first | rfl | contradiction) | intro _ | assumption | exact State.Frame.refl _
    | apply State.xlate_frame | apply State.setXop_frame | apply State.xopBegin_frame | apply State.ioSend_frame
    | apply State.msiWrite_frame | apply State.decodeErr_frame | refine f_of_snd (by assumption) ?_
    | refine f_of_fst (by assumption) ?_ | refine f_of_some (by assumption) ?_
    | (apply f_mk; first | assumption | exact State.Frame.refl _ | apply State.xlate_frame | apply State.setXop_frame | apply State.xopBegin_frame | apply State.ioSend_frame | apply State.msiWrite_frame | apply State.decodeErr_frame)
    | split)

theorem State.setQp_frame {s0 : State} {s : State} {f : Nat} {q : Nat} {x : XQp} (h0 : s0.Frame P s) (p_xce : P .xce) :
    s0.Frame P (State.setQp s f q x) := by
  unfold State.setQp
  try dsimp only
  with_reducible repeat' (first
    | (intro (p : Part) hp; cases p <;> first | rfl | contradiction) | intro _ | assumption | exact State.Frame.refl _
    | apply f_mk)

theorem State.qpError_frame {s0 : State} {s : State} {f : Nat} {q : Nat} {cause : Nat} (h0 : s0.Frame P s)
    (p_regs : P .regs) :
    s0.Frame P (State.qpError s f q cause) := by
  unfold State.qpError
  try dsimp only
  with_reducible repeat' (first | intro _ | assumption | exact State.Frame.refl _ | apply State.put_frame | apply f_ite)

theorem State.descEnd_frame {s0 : State} {s : State} {f : Nat} {q : Nat} {d : XDesc} {fail : Option (Nat × Nat × Nat)}
    (h0 : s0.Frame P s) (p_regs : P .regs) (p_pass : P .pass) (p_xce : P .xce) :
    s0.Frame P (State.descEnd s f q d fail) := by
  unfold State.descEnd
  try dsimp only
  with_reducible repeat' (first
    | intro _ | assumption | exact State.Frame.refl _ | apply State.count_frame | apply State.setQp_frame
    | apply State.qpError_frame | apply f_ite)

theorem State.descPiece_frame {s0 : State} {s : State} {f : Nat} {q : Nat} {pos : Nat} {off : Nat} {len : Nat}
    {fail : Option (Nat × Nat)} (h0 : s0.Frame P s) (p_regs : P .regs) (p_pass : P .pass) (p_meter : P .meter)
    (p_xce : P .xce) :
    s0.Frame P (State.descPiece s f q pos off len fail) := by
  unfold State.descPiece
  try dsimp only
  with_reducible repeat' (first
    | intro _ | assumption | exact State.Frame.refl _ | apply State.count_frame | apply State.meterAdd_frame
    | apply State.descEnd_frame | apply State.setQp_frame | apply f_ite | split)

theorem State.wIssue_frame {s0 : State} {s : State} {f : Nat} {ent : Nat} {m : WMsg} {why : XFor} {old : Bool}
    (h0 : s0.Frame P s) (p_regs : P .regs) (p_pass : P .pass) (p_hzn : P .hzn) (p_xce : P .xce) :
    s0.Frame P (State.wIssue s f ent m why old) := by
  unfold State.wIssue
  try dsimp only
  with_reducible repeat' (first
    | (intro (p : Part) hp; cases p <;> first | rfl | contradiction) | intro _ | assumption | exact State.Frame.refl _
    | apply State.xceMsi_frame | apply State.count_frame | apply State.wGo_frame | apply f_ite
    | (apply f_mk; first | assumption | exact State.Frame.refl _ | apply State.xceMsi_frame | apply State.count_frame | apply State.wGo_frame | apply f_ite)
    | split)

theorem State.entryDone_frame {s0 : State} {s : State} {f : Nat} {q : Nat} {irq : Bool} {recv : Bool} (h0 : s0.Frame P s)
    (p_regs : P .regs) (p_net : P .net) (p_free : P .free) (p_pass : P .pass) (p_xce : P .xce) (p_io : P .io) :
    s0.Frame P (State.entryDone s f q irq recv) := by
  unfold State.entryDone
  try dsimp only
  with_reducible repeat' (first
    | intro _ | assumption | exact State.Frame.refl _ | apply State.setQp_frame | apply State.put_frame
    | apply State.xceSignal_frame | apply f_ite)

theorem State.fetched_frame {s0 : State} {s : State} {f : Nat} {q : Nat} {n : Nat} {o : XOp} (h0 : s0.Frame P s)
    (p_regs : P .regs) (p_pass : P .pass) (p_xce : P .xce) :
    s0.Frame P (State.fetched s f q n o) := by
  unfold State.fetched
  try dsimp only
  with_reducible repeat' (first
    | intro _ | assumption | exact State.Frame.refl _ | apply State.setQp_frame | apply State.put_frame
    | apply State.count_frame | apply State.qpError_frame | apply f_ite | apply f_foldl | split)

theorem State.xopDone_frame {s0 : State} {s : State} {o : XOp} (h0 : s0.Frame P s) (p_regs : P .regs) (p_net : P .net)
    (p_free : P .free) (p_pass : P .pass) (p_meter : P .meter) (p_hzn : P .hzn) (p_xce : P .xce) (p_io : P .io) :
    s0.Frame P (State.xopDone s o).1 := by
  unfold State.xopDone
  try dsimp only
  with_reducible repeat' (first
    | intro _ | assumption | exact State.Frame.refl _ | apply State.fetched_frame | apply State.descPiece_frame
    | apply State.freeSpan_frame | apply State.setQp_frame | apply State.xopBegin_frame | apply State.wIssue_frame
    | apply State.entryDone_frame | apply State.qpError_frame | apply State.wGo_frame | apply f_ite | apply f_ite_fst
    | apply f_ite_snd | refine f_of_snd (by assumption) ?_ | refine f_of_fst (by assumption) ?_
    | refine f_of_some (by assumption) ?_ | split)

theorem State.xopCheck_frame {s0 : State} {s : State} {z1 : Nat} {z2 : Nat} (h0 : s0.Frame P s) (p_regs : P .regs)
    (p_net : P .net) (p_free : P .free) (p_pass : P .pass) (p_meter : P .meter) (p_hzn : P .hzn) (p_xce : P .xce)
    (p_io : P .io) :
    s0.Frame P (State.xopCheck s z1 z2) := by
  induction z1 generalizing s z2 with
  | zero =>
    unfold State.xopCheck
    try dsimp only
    with_reducible repeat' (first
      | (intro (p : Part) hp; cases p <;> first | rfl | contradiction) | intro _ | assumption | exact State.Frame.refl _
      | apply State.xopDone_frame | apply f_ite | apply f_ite_fst | apply f_ite_snd | apply f_regs | apply f_mem
      | refine f_of_snd (by assumption) ?_ | refine f_of_fst (by assumption) ?_ | refine f_of_some (by assumption) ?_
      | (apply f_mk; first | assumption | exact State.Frame.refl _ | apply State.xopDone_frame | apply f_ite | apply f_ite_fst | apply f_ite_snd | apply f_regs | apply f_mem)
      | split)
  | succ k ih =>
    unfold State.xopCheck
    try dsimp only
    with_reducible repeat' (first
      | (intro (p : Part) hp; cases p <;> first | rfl | contradiction) | intro _ | assumption | exact State.Frame.refl _
      | apply State.xopDone_frame | apply f_ite | apply f_ite_fst | apply f_ite_snd | apply f_regs | apply f_mem
      | refine f_of_snd (by assumption) ?_ | refine f_of_fst (by assumption) ?_ | refine f_of_some (by assumption) ?_
      | (apply f_mk; first | assumption | exact State.Frame.refl _ | apply State.xopDone_frame | apply f_ite | apply f_ite_fst | apply f_ite_snd | apply f_regs | apply f_mem)
      | split | apply ih)


theorem State.xopRun_frame {s0 : State} {r : State × Nat} (h0 : s0.Frame P r.1) (p_regs : P .regs) (p_net : P .net)
    (p_free : P .free) (p_pass : P .pass) (p_meter : P .meter) (p_hzn : P .hzn) (p_xce : P .xce) (p_io : P .io) :
    s0.Frame P (State.xopRun r) := by
  unfold State.xopRun
  try dsimp only
  with_reducible repeat' (first | intro _ | assumption | exact State.Frame.refl _ | apply State.xopCheck_frame)

theorem State.xopLine_frame {s0 : State} {s : State} {id : Nat} {off : Nat} {how : Nat} {v : Nat} (h0 : s0.Frame P s)
    (p_regs : P .regs) (p_net : P .net) (p_free : P .free) (p_pass : P .pass) (p_meter : P .meter) (p_hzn : P .hzn)
    (p_xce : P .xce) (p_io : P .io) :
    s0.Frame P (State.xopLine s id off how v) := by
  unfold State.xopLine
  try dsimp only
  with_reducible repeat' (first
    | intro _ | assumption | exact State.Frame.refl _ | apply State.xopCheck_frame | apply State.setXop_frame | apply f_ite
    | split)

end Sys2Proof.Machine
end

