-- ==== Sys2Proof/Laws/FrameIo.lean ====
section
/-!
SUPPORT. What each function of Machine/Io.lean leaves alone (`State.Frame`, Safety.lean): one lemma for each.
-/

namespace Sys2Proof.Machine

variable {P : Part → Prop}

theorem State.dmaLine_frame {s0 : State} {s : State} {op : Nat} {off : Nat} {ok : Bool} {v : Nat} (h0 : s0.Frame P s)
    (p_io : P .io) :
    s0.Frame P (State.dmaLine s op off ok v) := by
  unfold State.dmaLine
  try dsimp only
  with_reducible repeat' (first
    | (intro (p : Part) hp; cases p <;> first | rfl | contradiction) | intro _ | assumption | exact State.Frame.refl _
    | apply f_ite | apply f_regs | apply f_mem
    | (apply f_mk; first | assumption | exact State.Frame.refl _ | apply f_ite | apply f_regs | apply f_mem) | split)

theorem State.ringDead_frame {s0 : State} {s : State} {p : IoWhy → Bool} (h0 : s0.Frame P s) (p_io : P .io) :
    s0.Frame P (State.ringDead s p) := by
  unfold State.ringDead
  try dsimp only
  with_reducible repeat' (first | intro _ | assumption | exact State.Frame.refl _ | apply State.setReqs_frame | apply f_ite)

theorem State.meterLine_frame {s0 : State} {s : State} {i : Nat} {ok : Bool} {addr : Nat} (h0 : s0.Frame P s)
    (p_regs : P .regs) (p_free : P .free) (p_core : P .core) (p_pass : P .pass) (p_meter : P .meter) (p_io : P .io)
    (p_ras : P .ras) (p_tvx : P .tvx) :
    s0.Frame P (State.meterLine s i ok addr) := by
  unfold State.meterLine
  try dsimp only
  with_reducible repeat' (first
    | (intro (p : Part) hp; cases p <;> first | rfl | contradiction) | intro _ | assumption | exact State.Frame.refl _
    | apply State.ringDead_frame | apply State.put_frame | apply State.errRecord_frame | apply f_ite
    | (apply f_mk; first | assumption | exact State.Frame.refl _ | apply State.ringDead_frame | apply State.put_frame | apply State.errRecord_frame | apply f_ite)
    | split)

theorem State.sweepDone_frame {s0 : State} {s : State} (h0 : s0.Frame P s) (p_regs : P .regs) (p_pass : P .pass)
    (p_ccol : P .ccol) :
    s0.Frame P (State.sweepDone s) := by
  unfold State.sweepDone
  try dsimp only
  with_reducible repeat' (first
    | (intro (p : Part) hp; cases p <;> first | rfl | contradiction) | intro _ | assumption | exact State.Frame.refl _
    | apply State.wrapAdd_frame | apply State.sendMsi_frame | apply f_ite | apply f_mk)

theorem State.sweepLine_frame {s0 : State} {s : State} {i : Nat} {ok : Bool} {addr : Nat} (h0 : s0.Frame P s)
    (p_regs : P .regs) (p_free : P .free) (p_core : P .core) (p_pass : P .pass) (p_io : P .io) (p_ras : P .ras)
    (p_tvx : P .tvx) (p_ccol : P .ccol) :
    s0.Frame P (State.sweepLine s i ok addr) := by
  unfold State.sweepLine
  try dsimp only
  with_reducible repeat' (first
    | (intro (p : Part) hp; cases p <;> first | rfl | contradiction) | intro _ | assumption | exact State.Frame.refl _
    | apply State.sweepDone_frame | apply State.ringDead_frame | apply State.bump_frame | apply State.put_frame
    | apply State.errRecord_frame | apply f_ite
    | (apply f_mk; first | assumption | exact State.Frame.refl _ | apply State.sweepDone_frame | apply State.ringDead_frame | apply State.bump_frame | apply State.put_frame | apply State.errRecord_frame | apply f_ite)
    | split)

theorem State.ioOutcome_frame {s0 : State} {s : State} {r : IoReq} {how : Nat} {l : Line} (h0 : s0.Frame P s)
    (p_regs : P .regs) (p_net : P .net) (p_free : P .free) (p_core : P .core) (p_pass : P .pass) (p_meter : P .meter)
    (p_hzn : P .hzn) (p_xce : P .xce) (p_io : P .io) (p_ras : P .ras) (p_tvx : P .tvx) (p_ccol : P .ccol) :
    s0.Frame P (State.ioOutcome s r how l) := by
  unfold State.ioOutcome
  try dsimp only
  with_reducible repeat' (first
    | intro _ | assumption | exact State.Frame.refl _ | apply State.dmaLine_frame | apply State.xopLine_frame
    | apply State.meterLine_frame | apply State.sweepLine_frame | apply State.iommuLine_frame | apply f_ite | split)

theorem State.ioCommit_frame {s0 : State} {s : State} {agent : Nat} {stream : Nat} {z3 : Nat} (h0 : s0.Frame P s)
    (p_regs : P .regs) (p_net : P .net) (p_free : P .free) (p_core : P .core) (p_pass : P .pass) (p_meter : P .meter)
    (p_hzn : P .hzn) (p_xce : P .xce) (p_io : P .io) (p_ras : P .ras) (p_tvx : P .tvx) (p_ccol : P .ccol) :
    s0.Frame P (State.ioCommit s agent stream z3) := by
  induction z3 generalizing s agent stream with
  | zero =>
    unfold State.ioCommit
    try dsimp only
    with_reducible repeat' (first
      | intro _ | assumption | exact State.Frame.refl _ | apply State.send_frame | apply State.ioDrop_frame
      | apply State.ioOutcome_frame | apply f_ite | split)
  | succ k ih =>
    unfold State.ioCommit
    try dsimp only
    with_reducible repeat' (first
      | intro _ | assumption | exact State.Frame.refl _ | apply State.send_frame | apply State.ioDrop_frame
      | apply State.ioOutcome_frame | apply f_ite | split | apply ih)


theorem State.ioProtoErr_frame {s0 : State} {s : State} {m : Msg} (h0 : s0.Frame P s) (p_regs : P .regs) (p_free : P .free)
    (p_core : P .core) (p_pass : P .pass) (p_ras : P .ras) (p_tvx : P .tvx) :
    s0.Frame P (State.ioProtoErr s m) := by
  unfold State.ioProtoErr
  try dsimp only
  with_reducible repeat' (first | intro _ | assumption | exact State.Frame.refl _ | apply State.bump_frame | apply State.errRecord_frame | apply f_ite)

theorem State.ioLate_frame {s0 : State} {s : State} (h0 : s0.Frame P s) (p_regs : P .regs) (p_tvx : P .tvx) :
    s0.Frame P (State.ioLate s) := by
  unfold State.ioLate
  try dsimp only
  with_reducible repeat' (first | intro _ | assumption | exact State.Frame.refl _ | apply State.logEvent_frame | apply State.bump_frame)

theorem State.ioData_frame {s0 : State} {s : State} {m : Msg} (h0 : s0.Frame P s) (p_regs : P .regs) (p_net : P .net)
    (p_free : P .free) (p_core : P .core) (p_pass : P .pass) (p_meter : P .meter) (p_hzn : P .hzn) (p_xce : P .xce)
    (p_io : P .io) (p_ras : P .ras) (p_tvx : P .tvx) (p_ccol : P .ccol) :
    s0.Frame P (State.ioData s m) := by
  unfold State.ioData
  try dsimp only
  with_reducible repeat' (first
    | intro _ | assumption | exact State.Frame.refl _ | apply State.ioProtoErr_frame | apply State.ioDrop_frame
    | apply State.ioLate_frame | apply State.xceAer_frame | apply State.ioOutcome_frame | apply f_ite | split)

theorem State.ioComp_frame {s0 : State} {s : State} {m : Msg} (h0 : s0.Frame P s) (p_regs : P .regs) (p_net : P .net)
    (p_free : P .free) (p_core : P .core) (p_pass : P .pass) (p_meter : P .meter) (p_hzn : P .hzn) (p_xce : P .xce)
    (p_io : P .io) (p_ras : P .ras) (p_tvx : P .tvx) (p_ccol : P .ccol) :
    s0.Frame P (State.ioComp s m) := by
  unfold State.ioComp
  try dsimp only
  with_reducible repeat' (first
    | intro _ | assumption | exact State.Frame.refl _ | apply State.ioData_frame | apply State.ioProtoErr_frame
    | apply State.ioLate_frame | apply State.setReqs_frame | apply State.ioCommit_frame | apply State.ioDrop_frame
    | apply State.ioOutcome_frame | apply f_ite | split)

theorem State.ioErr_frame {s0 : State} {s : State} {m : Msg} (h0 : s0.Frame P s) (p_regs : P .regs) (p_net : P .net)
    (p_free : P .free) (p_core : P .core) (p_pass : P .pass) (p_meter : P .meter) (p_hzn : P .hzn) (p_xce : P .xce)
    (p_io : P .io) (p_ras : P .ras) (p_tvx : P .tvx) (p_ccol : P .ccol) :
    s0.Frame P (State.ioErr s m) := by
  unfold State.ioErr
  try dsimp only
  with_reducible repeat' (first
    | intro _ | assumption | exact State.Frame.refl _ | apply State.ioData_frame | apply State.ioProtoErr_frame
    | apply State.ioDrop_frame | apply State.ioLate_frame | apply State.ioOutcome_frame | apply State.ioCommit_frame
    | apply f_ite | split)

theorem State.ioRetry_frame {s0 : State} {s : State} {m : Msg} (h0 : s0.Frame P s) (p_regs : P .regs) (p_free : P .free)
    (p_core : P .core) (p_pass : P .pass) (p_io : P .io) (p_ras : P .ras) (p_tvx : P .tvx) :
    s0.Frame P (State.ioRetry s m) := by
  unfold State.ioRetry
  try dsimp only
  with_reducible repeat' (first
    | intro _ | assumption | exact State.Frame.refl _ | apply State.ioData_frame | apply State.ioProtoErr_frame
    | apply State.setReqs_frame | apply f_ite | split)

theorem State.ioGrant_frame {s0 : State} {s : State} {m : Msg} (h0 : s0.Frame P s) (p_regs : P .regs) (p_net : P .net)
    (p_free : P .free) (p_core : P .core) (p_pass : P .pass) (p_io : P .io) (p_ras : P .ras) (p_tvx : P .tvx) :
    s0.Frame P (State.ioGrant s m) := by
  unfold State.ioGrant
  try dsimp only
  with_reducible repeat' (first
    | intro _ | assumption | exact State.Frame.refl _ | apply State.ioCommit_frame | apply State.ioData_frame
    | apply State.ioProtoErr_frame | apply State.send_frame | apply State.setReqs_frame | apply f_ite | split)

end Sys2Proof.Machine
end

