-- ==== Sys2Proof/Laws/FrameOsesteth.lean ====
section
/-!
SUPPORT. What each function of Machine/Osesteth.lean leaves alone (`State.Frame`, Safety.lean): one lemma for each.
-/

namespace Sys2Proof.Machine

variable {P : Part → Prop}

theorem State.arrive_frame {s0 : State} {s : State} {m : Msg} {row : Bool} {f : State → State} (h0 : s0.Frame P s)
    (hp_f : ∀ (u : State) (y0 : State), u.Frame P y0 → u.Frame P (f y0)) (p_net : P .net) (p_pass : P .pass)
    (p_hzn : P .hzn) :
    FrameOut P s0 (State.arrive s m row f) := by
  unfold State.arrive
  try dsimp only
  with_reducible repeat' (first
    | intro _ | assumption | exact State.Frame.refl _ | apply State.send_frame | apply State.take_frame | apply hp_f
    | apply fo_ite | apply f_ite | apply fo_next | apply fo_fault)

theorem State.strayIn_frame {s0 : State} {s : State} {m : Msg} (h0 : s0.Frame P s) (p_regs : P .regs) (p_net : P .net) :
    s0.Frame P (State.strayIn s m) := by
  unfold State.strayIn
  try dsimp only
  with_reducible repeat' (first | intro _ | assumption | exact State.Frame.refl _ | apply State.homeIllegal_frame)

theorem State.illegalIn_frame {s0 : State} {s : State} {m : Msg} {kind : Nat} (h0 : s0.Frame P s) (p_regs : P .regs)
    (p_net : P .net) (p_free : P .free) (p_core : P .core) (p_pass : P .pass) (p_ras : P .ras) (p_tvx : P .tvx) :
    s0.Frame P (State.illegalIn s m kind) := by
  unfold State.illegalIn
  try dsimp only
  with_reducible repeat' (first
    | intro _ | assumption | exact State.Frame.refl _ | apply State.homeIllegal_frame | apply State.pxProtoErr_frame
    | apply State.dieProtoErr_frame | apply State.ioProtoErr_frame | apply State.strayIn_frame | apply f_ite)

theorem State.deliver_frame {s0 : State} {s : State} {m : Msg} {home : State → Nat → State} {die : State → State}
    {io : State → State} (h0 : s0.Frame P s)
    (hp_home : ∀ (u : State) (y0 : State) (y1 : Nat), u.Frame P y0 → u.Frame P (home y0 y1))
    (hp_die : ∀ (u : State) (y0 : State), u.Frame P y0 → u.Frame P (die y0))
    (hp_io : ∀ (u : State) (y0 : State), u.Frame P y0 → u.Frame P (io y0)) (p_regs : P .regs) (p_net : P .net)
    (p_free : P .free) (p_core : P .core) (p_pass : P .pass) (p_ras : P .ras) (p_tvx : P .tvx) :
    s0.Frame P (State.deliver s m home die io) := by
  unfold State.deliver
  try dsimp only
  with_reducible repeat' (first
    | intro _ | assumption | exact State.Frame.refl _ | apply State.protoErr_frame | apply State.illegalIn_frame
    | apply State.strayIn_frame | apply hp_home | apply hp_die | apply hp_io | apply f_ite | split)

theorem State.homeTake_frame {s0 : State} {s : State} {n : Nat} {m : Msg} {px : Bool} (h0 : s0.Frame P s) (p_regs : P .regs)
    (p_mem : P .mem) (p_marked : P .marked) (p_net : P .net) (p_free : P .free) (p_core : P .core) (p_home : P .home)
    (p_pass : P .pass) (p_mesa : P .mesa) (p_meter : P .meter) (p_qos : P .qos) (p_ras : P .ras) (p_tvx : P .tvx) :
    s0.Frame P (State.homeTake s n m px) := by
  unfold State.homeTake
  try dsimp only
  with_reducible repeat' (first
    | intro _ | assumption | exact State.Frame.refl _ | apply State.arbitrate_frame | apply State.count_frame
    | apply State.pxBegin_frame | apply State.txnBegin_frame | apply f_ite | apply f_ite_fst | apply f_ite_snd
    | refine f_of_snd (by assumption) ?_ | refine f_of_fst (by assumption) ?_ | refine f_of_some (by assumption) ?_ | split)

theorem State.homeRequest_frame {s0 : State} {s : State} {n : Nat} {m : Msg} (h0 : s0.Frame P s) (p_regs : P .regs)
    (p_mem : P .mem) (p_marked : P .marked) (p_net : P .net) (p_free : P .free) (p_core : P .core) (p_home : P .home)
    (p_pass : P .pass) (p_mesa : P .mesa) (p_meter : P .meter) (p_qos : P .qos) (p_ras : P .ras) (p_tvx : P .tvx) :
    s0.Frame P (State.homeRequest s n m) := by
  unfold State.homeRequest
  try dsimp only
  with_reducible repeat' (first
    | intro _ | assumption | exact State.Frame.refl _ | apply State.arbTaken_frame | apply State.decodeErr_frame
    | apply State.protoErr_frame | apply State.sendErr_frame | apply State.deliver_frame | apply State.homeIllegal_frame
    | apply State.homeTake_frame | apply State.errRecord_frame | apply f_ite | split)

theorem State.reqIn_frame {s0 : State} {s : State} {m : Msg} (h0 : s0.Frame P s) (p_regs : P .regs) (p_mem : P .mem)
    (p_marked : P .marked) (p_net : P .net) (p_free : P .free) (p_core : P .core) (p_home : P .home) (p_pass : P .pass)
    (p_mesa : P .mesa) (p_meter : P .meter) (p_qos : P .qos) (p_ras : P .ras) (p_tvx : P .tvx) :
    s0.Frame P (State.reqIn s m) := by
  unfold State.reqIn
  try dsimp only
  with_reducible repeat' (first
    | intro _ | assumption | exact State.Frame.refl _ | apply State.homeRequest_frame | apply State.illegalIn_frame
    | apply f_ite)

theorem State.snpIn_frame {s0 : State} {s : State} {m : Msg} (h0 : s0.Frame P s) (p_regs : P .regs) (p_net : P .net)
    (p_free : P .free) (p_core : P .core) (p_die : P .die) (p_home : P .home) (p_pass : P .pass) (p_ras : P .ras)
    (p_tvx : P .tvx) :
    s0.Frame P (State.snpIn s m) := by
  unfold State.snpIn
  try dsimp only
  with_reducible repeat' (first
    | intro _ | assumption | exact State.Frame.refl _ | apply State.deliver_frame | apply State.pxProtoErr_frame
    | apply State.pxSnoop_frame | apply State.dieSnoop_frame | apply State.ioProtoErr_frame | apply f_ite)

theorem State.ansIn_frame {s0 : State} {s : State} {m : Msg} (h0 : s0.Frame P s) (p_regs : P .regs) (p_mem : P .mem)
    (p_marked : P .marked) (p_net : P .net) (p_free : P .free) (p_core : P .core) (p_home : P .home) (p_pass : P .pass)
    (p_mesa : P .mesa) (p_meter : P .meter) (p_qos : P .qos) (p_ras : P .ras) (p_tvx : P .tvx) :
    s0.Frame P (State.ansIn s m) := by
  unfold State.ansIn
  try dsimp only
  with_reducible repeat' (first
    | intro _ | assumption | exact State.Frame.refl _ | apply State.deliver_frame | apply State.protoErr_frame
    | apply State.pxAgain_frame | apply State.pxDieAnswer_frame | apply State.wbAgain_frame | apply State.txnAnswer_frame
    | apply State.pxProtoErr_frame | apply State.dieProtoErr_frame | apply State.ioProtoErr_frame | apply f_ite | split)

theorem State.noMatch_frame {s0 : State} {s : State} {n : Nat} {m : Msg} (h0 : s0.Frame P s) (p_regs : P .regs)
    (p_free : P .free) (p_core : P .core) (p_pass : P .pass) (p_ras : P .ras) (p_tvx : P .tvx) :
    s0.Frame P (State.noMatch s n m) := by
  unfold State.noMatch
  try dsimp only
  with_reducible repeat' (first
    | intro _ | assumption | exact State.Frame.refl _ | apply State.protoErr_frame | apply State.pxProtoErr_frame
    | apply f_ite)

theorem State.closeIn_frame {s0 : State} {s : State} {m : Msg} (h0 : s0.Frame P s) (p_regs : P .regs) (p_mem : P .mem)
    (p_marked : P .marked) (p_net : P .net) (p_free : P .free) (p_core : P .core) (p_home : P .home) (p_pass : P .pass)
    (p_mesa : P .mesa) (p_meter : P .meter) (p_qos : P .qos) (p_ras : P .ras) (p_tvx : P .tvx) :
    s0.Frame P (State.closeIn s m) := by
  unfold State.closeIn
  try dsimp only
  with_reducible repeat' (first
    | intro _ | assumption | exact State.Frame.refl _ | apply State.deliver_frame | apply State.setLock_frame
    | apply State.pxAgain_frame | apply State.pxTryClose_frame | apply State.tryClose_frame | apply State.noMatch_frame
    | apply State.dieProtoErr_frame | apply State.ioProtoErr_frame | apply f_ite | split)

theorem State.commitIn_frame {s0 : State} {s : State} {m : Msg} (h0 : s0.Frame P s) (p_regs : P .regs) (p_mem : P .mem)
    (p_marked : P .marked) (p_net : P .net) (p_free : P .free) (p_core : P .core) (p_home : P .home) (p_pass : P .pass)
    (p_mesa : P .mesa) (p_meter : P .meter) (p_qos : P .qos) (p_ras : P .ras) (p_tvx : P .tvx) :
    s0.Frame P (State.commitIn s m) := by
  unfold State.commitIn
  try dsimp only
  with_reducible repeat' (first
    | intro _ | assumption | exact State.Frame.refl _ | apply State.deliver_frame | apply State.closeIn_frame
    | apply State.pxAgain_frame | apply State.pxCommit_frame | apply State.tryClose_frame | apply State.setLock_frame
    | apply State.ncWrite_frame | apply State.noMatch_frame | apply State.dieProtoErr_frame | apply State.ioProtoErr_frame
    | apply f_ite | split)

theorem State.replyIn_frame {s0 : State} {s : State} {m : Msg} {die : State → State} {io : State → State}
    (h0 : s0.Frame P s) (hp_die : ∀ (u : State) (y0 : State), u.Frame P y0 → u.Frame P (die y0))
    (hp_io : ∀ (u : State) (y0 : State), u.Frame P y0 → u.Frame P (io y0)) (p_regs : P .regs) (p_net : P .net)
    (p_free : P .free) (p_core : P .core) (p_home : P .home) (p_pass : P .pass) (p_ras : P .ras) (p_tvx : P .tvx) :
    s0.Frame P (State.replyIn s m die io) := by
  unfold State.replyIn
  try dsimp only
  with_reducible repeat' (first
    | intro _ | assumption | exact State.Frame.refl _ | apply State.deliver_frame | apply State.closeIn_frame
    | apply State.pxAgain_frame | apply State.pxRemoteReply_frame | apply State.pxProtoErr_frame | apply hp_die
    | apply hp_io | split)

theorem State.retryIn_frame {s0 : State} {s : State} {m : Msg} (h0 : s0.Frame P s) (p_regs : P .regs) (p_net : P .net)
    (p_free : P .free) (p_core : P .core) (p_die : P .die) (p_home : P .home) (p_pass : P .pass) (p_io : P .io)
    (p_ras : P .ras) (p_tvx : P .tvx) :
    s0.Frame P (State.retryIn s m) := by
  unfold State.retryIn
  try dsimp only
  with_reducible repeat' (first
    | intro _ | assumption | exact State.Frame.refl _ | apply State.deliver_frame | apply State.closeIn_frame
    | apply State.pxRetry_frame | apply State.pxProtoErr_frame | apply State.dieRetry_frame | apply State.ioRetry_frame
    | split)

theorem State.grantIn_frame {s0 : State} {s : State} {m : Msg} (h0 : s0.Frame P s) (p_regs : P .regs) (p_net : P .net)
    (p_free : P .free) (p_core : P .core) (p_die : P .die) (p_home : P .home) (p_pass : P .pass) (p_io : P .io)
    (p_ras : P .ras) (p_tvx : P .tvx) :
    s0.Frame P (State.grantIn s m) := by
  unfold State.grantIn
  try dsimp only
  with_reducible repeat' (first
    | intro _ | assumption | exact State.Frame.refl _ | apply State.deliver_frame | apply State.pxGrant_frame
    | apply State.dieGrant_frame | apply State.ioGrant_frame)

theorem State.wbIn_frame {s0 : State} {s : State} {m : Msg} (h0 : s0.Frame P s) (p_regs : P .regs) (p_mem : P .mem)
    (p_marked : P .marked) (p_net : P .net) (p_free : P .free) (p_core : P .core) (p_home : P .home) (p_pass : P .pass)
    (p_mesa : P .mesa) (p_meter : P .meter) (p_qos : P .qos) (p_ras : P .ras) (p_tvx : P .tvx) :
    s0.Frame P (State.wbIn s m) := by
  unfold State.wbIn
  try dsimp only
  with_reducible repeat' (first
    | intro _ | assumption | exact State.Frame.refl _ | apply State.protoErr_frame | apply State.count_frame
    | apply State.homeIllegal_frame | apply State.pxWbIn_frame | apply State.homeWb_frame | apply State.illegalIn_frame
    | apply f_ite)

theorem State.wbArrive_frame {s0 : State} {s : State} {m : Msg} {row : Bool} (h0 : s0.Frame P s) (p_regs : P .regs)
    (p_mem : P .mem) (p_marked : P .marked) (p_net : P .net) (p_free : P .free) (p_core : P .core) (p_home : P .home)
    (p_pass : P .pass) (p_mesa : P .mesa) (p_meter : P .meter) (p_qos : P .qos) (p_hzn : P .hzn) (p_ras : P .ras)
    (p_tvx : P .tvx) :
    FrameOut P s0 (State.wbArrive s m row) := by
  unfold State.wbArrive
  try dsimp only
  with_reducible repeat' (first
    | intro _ | assumption | exact State.Frame.refl _ | apply State.arrive_frame | apply State.wbIn_frame | apply fo_ite
    | apply f_ite | apply fo_next | apply fo_fault | refine f_of_next (by assumption) ?_ | split)

theorem State.wbAckIn_frame {s0 : State} {s : State} {m : Msg} (h0 : s0.Frame P s) (p_regs : P .regs) (p_net : P .net)
    (p_free : P .free) (p_core : P .core) (p_die : P .die) (p_home : P .home) (p_pass : P .pass) (p_hzn : P .hzn)
    (p_ras : P .ras) (p_tvx : P .tvx) :
    s0.Frame P (State.wbAckIn s m) := by
  unfold State.wbAckIn
  try dsimp only
  with_reducible repeat' (first
    | intro _ | assumption | exact State.Frame.refl _ | apply State.deliver_frame | apply State.pxAgain_frame
    | apply State.pxWbDone_frame | apply State.dieWbAck_frame | apply State.ioProtoErr_frame)

theorem State.homeData_frame {s0 : State} {s : State} {n : Nat} {m : Msg} (h0 : s0.Frame P s) (p_regs : P .regs)
    (p_mem : P .mem) (p_marked : P .marked) (p_net : P .net) (p_free : P .free) (p_core : P .core) (p_home : P .home)
    (p_pass : P .pass) (p_mesa : P .mesa) (p_meter : P .meter) (p_qos : P .qos) (p_ras : P .ras) (p_tvx : P .tvx) :
    s0.Frame P (State.homeData s n m) := by
  unfold State.homeData
  try dsimp only
  with_reducible repeat' (first
    | intro _ | assumption | exact State.Frame.refl _ | apply State.closeIn_frame | apply State.pxProtoErr_frame
    | apply State.pxAgain_frame | apply State.pxRemoteReply_frame | apply State.illegalIn_frame
    | apply State.pxDieData_frame | apply State.wbAgain_frame | apply State.txnData_frame | apply State.noMatch_frame
    | apply f_ite | split)

theorem State.dataIn_frame {s0 : State} {s : State} {m : Msg} (h0 : s0.Frame P s) (p_regs : P .regs) (p_mem : P .mem)
    (p_marked : P .marked) (p_net : P .net) (p_free : P .free) (p_core : P .core) (p_die : P .die) (p_home : P .home)
    (p_pass : P .pass) (p_mesa : P .mesa) (p_meter : P .meter) (p_qos : P .qos) (p_hzn : P .hzn) (p_xce : P .xce)
    (p_io : P .io) (p_ras : P .ras) (p_tvx : P .tvx) (p_ccol : P .ccol) :
    s0.Frame P (State.dataIn s m) := by
  unfold State.dataIn
  try dsimp only
  with_reducible repeat' (first
    | intro _ | assumption | exact State.Frame.refl _ | apply State.deliver_frame | apply State.homeData_frame
    | apply State.dieDataIn_frame | apply State.ioData_frame)

theorem State.dataArrive_frame {s0 : State} {s : State} {m : Msg} {row : Bool} (h0 : s0.Frame P s) (p_regs : P .regs)
    (p_mem : P .mem) (p_marked : P .marked) (p_net : P .net) (p_free : P .free) (p_core : P .core) (p_die : P .die)
    (p_home : P .home) (p_pass : P .pass) (p_mesa : P .mesa) (p_meter : P .meter) (p_qos : P .qos) (p_hzn : P .hzn)
    (p_xce : P .xce) (p_io : P .io) (p_ras : P .ras) (p_tvx : P .tvx) (p_ccol : P .ccol) :
    FrameOut P s0 (State.dataArrive s m row) := by
  unfold State.dataArrive
  try dsimp only
  with_reducible repeat' (first
    | intro _ | assumption | exact State.Frame.refl _ | apply State.arrive_frame | apply State.dataIn_frame | apply fo_ite
    | apply f_ite | apply fo_next | apply fo_fault)

end Sys2Proof.Machine
end

