-- ==== Sys2Proof/Laws/FrameMemRows.lean ====
section
/-!
SUPPORT. What each function of Machine/MemRows.lean leaves alone (`State.Frame`, Safety.lean): one lemma for each.
-/

namespace Sys2Proof.Machine

variable {P : Part → Prop}

theorem State.startStopped_frame {s0 : State} {s : State} {detail : Nat} (h0 : s0.Frame P s) (p_regs : P .regs)
    (p_tvx : P .tvx) (p_pwr : P .pwr) :
    s0.Frame P (State.startStopped s detail) := by
  unfold State.startStopped
  try dsimp only
  with_reducible repeat' (first
    | (intro (p : Part) hp; cases p <;> first | rfl | contradiction) | intro _ | assumption | exact State.Frame.refl _
    | apply State.logEvent_frame | apply f_mk)

theorem State.restoreMarks_frame {s0 : State} {s : State} {c : Nat} (h0 : s0.Frame P s) (p_regs : P .regs) :
    s0.Frame P (State.restoreMarks s c) := by
  unfold State.restoreMarks
  try dsimp only
  with_reducible repeat' (first | intro _ | assumption | exact State.Frame.refl _ | apply State.setReg_frame | apply f_ite)

theorem State.adoptMode_frame {s0 : State} {s : State} {m : Nat × Nat × Nat} (h0 : s0.Frame P s) (p_regs : P .regs)
    (p_tvx : P .tvx) (p_pwr : P .pwr) :
    s0.Frame P (State.adoptMode s m) := by
  unfold State.adoptMode
  try dsimp only
  with_reducible repeat' (first
    | (intro (p : Part) hp; cases p <;> first | rfl | contradiction) | intro _ | assumption | exact State.Frame.refl _
    | apply State.setChState_frame | apply State.logEvent_frame | apply State.put_frame | apply f_ite | apply f_foldN
    | apply f_mk)

theorem execMemTrainComplete_frame {s0 : State} {x : TrainRes} {s : State} (h0 : s0.Frame P s) (p_regs : P .regs)
    (p_free : P .free) (p_core : P .core) (p_pass : P .pass) (p_ras : P .ras) (p_tvx : P .tvx) (p_pwr : P .pwr) :
    FrameOut P s0 (execMemTrainComplete x s) := by
  unfold execMemTrainComplete
  try dsimp only
  with_reducible repeat' (first
    | (intro (p : Part) hp; cases p <;> first | rfl | contradiction) | intro _ | assumption | exact State.Frame.refl _
    | apply State.errRecord_frame | apply State.put_frame | apply State.putB_frame | apply State.restoreMarks_frame
    | apply State.startStopped_frame | apply State.adoptMode_frame | apply fo_ite | apply f_ite | apply f_foldN
    | apply f_foldl | apply fo_next | apply fo_fault
    | (apply f_mk; first | assumption | exact State.Frame.refl _ | apply State.errRecord_frame | apply State.put_frame | apply State.putB_frame | apply State.restoreMarks_frame | apply State.startStopped_frame | apply State.adoptMode_frame | apply fo_ite | apply f_ite | apply f_foldN | apply f_foldl | apply fo_next | apply fo_fault)
    | split)

theorem State.zeroDram_frame {s0 : State} {s : State} (h0 : s0.Frame P s) (p_mem : P .mem) (p_marked : P .marked) :
    s0.Frame P (State.zeroDram s) := by
  unfold State.zeroDram
  try dsimp only
  with_reducible repeat' (first
    | (intro (p : Part) hp; cases p <;> first | rfl | contradiction) | intro _ | assumption | exact State.Frame.refl _
    | apply f_regs | apply f_mem | apply f_mk)

theorem State.journal_frame {s0 : State} {s : State} {e : JEnt} (h0 : s0.Frame P s) (p_chan : P .chan) :
    s0.Frame P (State.journal s e) := by
  unfold State.journal
  try dsimp only
  with_reducible repeat' (first
    | (intro (p : Part) hp; cases p <;> first | rfl | contradiction) | intro _ | assumption | exact State.Frame.refl _
    | apply f_regs | apply f_mem | apply f_mk)

theorem State.jByFill_frame {s0 : State} {s : State} {p : JEnt → Bool} (h0 : s0.Frame P s) (p_regs : P .regs)
    (p_chan : P .chan) (p_tvx : P .tvx) :
    s0.Frame P (State.jByFill s p) := by
  unfold State.jByFill
  try dsimp only
  with_reducible repeat' (first
    | intro _ | assumption | exact State.Frame.refl _ | apply State.logEvent_frame | apply State.journal_frame
    | apply f_foldl)

theorem State.publishMap_frame {s0 : State} {s : State} (h0 : s0.Frame P s) (p_regs : P .regs) :
    s0.Frame P (State.publishMap s) := by
  unfold State.publishMap
  try dsimp only
  with_reducible repeat' (first | intro _ | assumption | exact State.Frame.refl _ | apply State.put_frame | apply State.putB_frame | apply f_ite)

theorem State.fillEnd_frame {s0 : State} {s : State} {c : Nat} {eng : Nat} {mcid : Nat} {failed : Bool} (h0 : s0.Frame P s)
    (p_regs : P .regs) (p_free : P .free) (p_pass : P .pass) (p_meter : P .meter) (p_qos : P .qos) :
    s0.Frame P (State.fillEnd s c eng mcid failed) := by
  unfold State.fillEnd
  try dsimp only
  with_reducible repeat' (first
    | intro _ | assumption | exact State.Frame.refl _ | apply State.freeWord_frame | apply State.put_frame
    | apply State.chBytes_frame | apply f_ite | apply f_ite_fst | apply f_ite_snd | refine f_of_snd (by assumption) ?_
    | refine f_of_fst (by assumption) ?_ | refine f_of_some (by assumption) ?_ | split)

theorem State.fillDone_frame {s0 : State} {s : State} {failed : Nat} (h0 : s0.Frame P s) (p_regs : P .regs) (p_mem : P .mem)
    (p_marked : P .marked) (p_free : P .free) (p_core : P .core) (p_pass : P .pass) (p_chan : P .chan) (p_meter : P .meter)
    (p_qos : P .qos) (p_ras : P .ras) (p_tvx : P .tvx) (p_pwr : P .pwr) :
    s0.Frame P (State.fillDone s failed) := by
  unfold State.fillDone
  try dsimp only
  with_reducible repeat' (first
    | (intro (p : Part) hp; cases p <;> first | rfl | contradiction) | intro _ | assumption | exact State.Frame.refl _
    | apply State.fillEnd_frame | apply State.chLinkEvent_frame | apply execMemTrainComplete_frame
    | apply State.startStopped_frame | apply State.adoptMode_frame | apply State.setChState_frame | apply State.put_frame
    | apply State.publishMap_frame | apply State.zeroDram_frame | apply State.jByFill_frame | apply State.chAtRisk_frame
    | apply f_ite | apply f_foldN | refine f_of_next (by assumption) ?_
    | (apply f_mk; first | assumption | exact State.Frame.refl _ | apply State.fillEnd_frame | apply State.chLinkEvent_frame | apply execMemTrainComplete_frame | apply State.startStopped_frame | apply State.adoptMode_frame | apply State.setChState_frame | apply State.put_frame | apply State.publishMap_frame | apply State.zeroDram_frame | apply State.jByFill_frame | apply State.chAtRisk_frame | apply f_ite | apply f_foldN)
    | split)

theorem State.sanRegs_frame {s0 : State} {s : State} (h0 : s0.Frame P s) (p_regs : P .regs) :
    s0.Frame P (State.sanRegs s) := by
  unfold State.sanRegs
  try dsimp only
  with_reducible repeat' (first
    | intro _ | assumption | exact State.Frame.refl _ | apply State.put_frame | apply State.putB_frame | apply f_ite
    | apply f_foldN | split)

theorem State.setSan_frame {s0 : State} {s : State} {x : SanSt} (h0 : s0.Frame P s) (p_regs : P .regs) (p_chan : P .chan) :
    s0.Frame P (State.setSan s x) := by
  unfold State.setSan
  try dsimp only
  with_reducible repeat' (first
    | (intro (p : Part) hp; cases p <;> first | rfl | contradiction) | intro _ | assumption | exact State.Frame.refl _
    | apply State.sanRegs_frame | apply f_mk)

theorem State.sanFail_frame {s0 : State} {s : State} {n : Nat} {k : Nat} (h0 : s0.Frame P s) (p_regs : P .regs)
    (p_chan : P .chan) :
    s0.Frame P (State.sanFail s n k) := by
  unfold State.sanFail
  try dsimp only
  with_reducible repeat' (first
    | (intro (p : Part) hp; cases p <;> first | rfl | contradiction) | intro _ | assumption | exact State.Frame.refl _
    | apply State.bump_frame | apply f_mk)

theorem State.sanChFailed_frame {s0 : State} {s : State} {c : Nat} (h0 : s0.Frame P s) (p_regs : P .regs) (p_chan : P .chan)
    :
    s0.Frame P (State.sanChFailed s c) := by
  unfold State.sanChFailed
  try dsimp only
  with_reducible repeat' (first | intro _ | assumption | exact State.Frame.refl _ | apply State.sanFail_frame | apply f_ite | apply f_foldl)

theorem State.chFail_frame {s0 : State} {s : State} {c : Nat} (h0 : s0.Frame P s) (p_regs : P .regs) (p_home : P .home)
    (p_chan : P .chan) (p_mesa : P .mesa) (p_tvx : P .tvx) :
    s0.Frame P (State.chFail s c) := by
  unfold State.chFail
  try dsimp only
  with_reducible repeat' (first
    | intro _ | assumption | exact State.Frame.refl _ | apply State.sanChFailed_frame | apply State.put_frame
    | apply State.setChState_frame | apply State.mesaInvAll_frame | apply State.recChan_frame | apply State.logEvent_frame)

theorem State.copyClose_frame {s0 : State} {s : State} {src : Nat} {tgt : Nat} {ev : Nat → FRef} (h0 : s0.Frame P s)
    (p_regs : P .regs) :
    s0.Frame P (State.copyClose s src tgt ev) := by
  unfold State.copyClose
  try dsimp only
  with_reducible repeat' (first | intro _ | assumption | exact State.Frame.refl _ | apply State.put_frame)

theorem State.chTry_frame {s0 : State} {s : State} {later : List (Nat × Option Line × Option Nat)}
    {w : Nat × Option Line × Option Nat} (h0 : s0.Frame P s) (p_regs : P .regs) (p_mem : P .mem) (p_marked : P .marked)
    (p_free : P .free) (p_core : P .core) (p_home : P .home) (p_pass : P .pass) (p_qos : P .qos) (p_ras : P .ras)
    (p_tvx : P .tvx) :
    s0.Frame P (State.chTry s later w).1 := by
  unfold State.chTry
  try dsimp only
  with_reducible repeat' (first
    | (intro (p : Part) hp; cases p <;> first | rfl | contradiction) | intro _ | assumption | exact State.Frame.refl _
    | apply State.mcCharge_frame | apply State.storePut_frame | apply f_ite | apply f_ite_fst | apply f_ite_snd
    | apply f_ite_fst
    | (apply f_mk; first | assumption | exact State.Frame.refl _ | apply State.mcCharge_frame | apply State.storePut_frame | apply f_ite | apply f_ite_fst | apply f_ite_snd | apply f_ite_fst)
    | split)

theorem State.chFlush_frame {s0 : State} {s : State} (h0 : s0.Frame P s) (p_regs : P .regs) (p_mem : P .mem)
    (p_marked : P .marked) (p_net : P .net) (p_free : P .free) (p_core : P .core) (p_home : P .home) (p_pass : P .pass)
    (p_mesa : P .mesa) (p_meter : P .meter) (p_qos : P .qos) (p_ras : P .ras) (p_tvx : P .tvx) :
    s0.Frame P (State.chFlush s) := by
  unfold State.chFlush
  try dsimp only
  with_reducible repeat' (first
    | (intro (p : Part) hp; cases p <;> first | rfl | contradiction) | intro _ | assumption | exact State.Frame.refl _
    | apply State.chTry_frame | apply State.send_frame | apply State.releaseNow_frame | apply f_ite | apply f_ite_fst
    | apply f_ite_snd | apply f_foldl | apply f_foldl_fst | apply f_regs | apply f_mem | refine f_of_snd (by assumption) ?_
    | refine f_of_fst (by assumption) ?_ | refine f_of_some (by assumption) ?_
    | (apply f_mk; first | assumption | exact State.Frame.refl _ | apply State.chTry_frame | apply State.send_frame | apply State.releaseNow_frame | apply f_ite | apply f_ite_fst | apply f_ite_snd | apply f_foldl | apply f_foldl_fst | apply f_regs | apply f_mem)
    | split)

theorem State.sanZeroDone_frame {s0 : State} {s : State} (h0 : s0.Frame P s) (p_regs : P .regs) :
    s0.Frame P (State.sanZeroDone s) := by
  unfold State.sanZeroDone
  try dsimp only
  with_reducible repeat' (first | intro _ | assumption | exact State.Frame.refl _ | apply State.put_frame | apply f_foldN)

theorem State.copyDrop_frame {s0 : State} {s : State} {c : Nat} (h0 : s0.Frame P s) (p_regs : P .regs) :
    s0.Frame P (State.copyDrop s c) := by
  unfold State.copyDrop
  try dsimp only
  with_reducible repeat' (first
    | intro _ | assumption | exact State.Frame.refl _ | apply State.setChState_frame | apply State.copyClose_frame
    | apply f_ite)

theorem State.sanFillDone_frame {s0 : State} {s : State} {failed : Nat} (h0 : s0.Frame P s) (p_regs : P .regs)
    (p_mem : P .mem) (p_marked : P .marked) (p_net : P .net) (p_free : P .free) (p_core : P .core) (p_home : P .home)
    (p_pass : P .pass) (p_chan : P .chan) (p_mesa : P .mesa) (p_meter : P .meter) (p_qos : P .qos) (p_ras : P .ras)
    (p_tvx : P .tvx) :
    s0.Frame P (State.sanFillDone s failed) := by
  unfold State.sanFillDone
  try dsimp only
  with_reducible repeat' (first
    | (intro (p : Part) hp; cases p <;> first | rfl | contradiction) | intro _ | assumption | exact State.Frame.refl _
    | apply State.zeroDram_frame | apply State.fillEnd_frame | apply State.chRetrainOver_frame
    | apply State.chLinkEvent_frame | apply State.sanFail_frame | apply State.chFail_frame | apply State.copyDrop_frame
    | apply State.chFlush_frame | apply State.sanZeroDone_frame | apply State.setSan_frame | apply f_ite | apply f_foldN
    | apply f_mk)

theorem execMemFillComplete_frame {s0 : State} {failed : Nat} {s : State} (h0 : s0.Frame P s) (p_regs : P .regs)
    (p_mem : P .mem) (p_marked : P .marked) (p_net : P .net) (p_free : P .free) (p_core : P .core) (p_home : P .home)
    (p_pass : P .pass) (p_chan : P .chan) (p_mesa : P .mesa) (p_meter : P .meter) (p_qos : P .qos) (p_ras : P .ras)
    (p_tvx : P .tvx) (p_pwr : P .pwr) :
    FrameOut P s0 (execMemFillComplete failed s) := by
  unfold execMemFillComplete
  try dsimp only
  with_reducible repeat' (first
    | intro _ | assumption | exact State.Frame.refl _ | apply State.fillDone_frame | apply State.sanFillDone_frame
    | apply fo_ite | apply f_ite | apply fo_next | apply fo_fault)

theorem State.memAnswer_frame {s0 : State} {s : State} {n : Nat} {htag : Nat} {t : HTxn} {r : MemRes} (h0 : s0.Frame P s)
    (p_regs : P .regs) (p_mem : P .mem) (p_marked : P .marked) (p_net : P .net) (p_free : P .free) (p_core : P .core)
    (p_home : P .home) (p_pass : P .pass) (p_mesa : P .mesa) (p_meter : P .meter) (p_qos : P .qos) (p_ras : P .ras)
    (p_tvx : P .tvx) :
    s0.Frame P (State.memAnswer s n htag t r) := by
  unfold State.memAnswer
  try dsimp only
  with_reducible repeat' (first
    | intro _ | assumption | exact State.Frame.refl _ | apply State.mesaInstall_frame | apply State.txnFinish_frame
    | apply f_ite | split)

theorem execMemoryReadData_frame {s0 : State} {n : Ix16} {htag : Fin 512} {errs : Errs} {s : State} (h0 : s0.Frame P s)
    (p_regs : P .regs) (p_mem : P .mem) (p_marked : P .marked) (p_net : P .net) (p_free : P .free) (p_core : P .core)
    (p_home : P .home) (p_pass : P .pass) (p_chan : P .chan) (p_mesa : P .mesa) (p_meter : P .meter) (p_qos : P .qos)
    (p_ras : P .ras) (p_tvx : P .tvx) :
    FrameOut P s0 (execMemoryReadData n htag errs s) := by
  unfold execMemoryReadData
  try dsimp only
  with_reducible repeat' (first
    | intro _ | assumption | exact State.Frame.refl _ | apply State.storeRead_frame | apply State.mcCharge_frame
    | apply State.memAnswer_frame | apply State.memBytes_frame | apply fo_ite | apply f_ite | apply f_ite_fst
    | apply f_ite_snd | apply fo_next | apply fo_fault | refine f_of_snd (by assumption) ?_
    | refine f_of_fst (by assumption) ?_ | refine f_of_some (by assumption) ?_ | split)

theorem execExtraBlockReturn_frame {s0 : State} {n : Ix16} {line : Nat} {errs : Errs} {s : State} (h0 : s0.Frame P s)
    (p_regs : P .regs) (p_mem : P .mem) (p_marked : P .marked) (p_net : P .net) (p_free : P .free) (p_core : P .core)
    (p_home : P .home) (p_pass : P .pass) (p_chan : P .chan) (p_mesa : P .mesa) (p_meter : P .meter) (p_qos : P .qos)
    (p_ras : P .ras) (p_tvx : P .tvx) :
    FrameOut P s0 (execExtraBlockReturn n line errs s) := by
  unfold execExtraBlockReturn
  try dsimp only
  with_reducible repeat' (first
    | intro _ | assumption | exact State.Frame.refl _ | apply State.storeRead_frame | apply State.setExtra_frame
    | apply State.memBytes_frame | apply State.memAnswer_frame | apply State.mesaInstallExtra_frame
    | apply State.chFlush_frame | apply fo_ite | apply f_ite | apply f_ite_fst | apply f_ite_snd | apply f_foldl
    | apply fo_next | apply fo_fault | refine f_of_snd (by assumption) ?_ | refine f_of_fst (by assumption) ?_
    | refine f_of_some (by assumption) ?_ | split)

theorem execChannelLinkError_frame {s0 : State} {ch : Ix16} {s : State} (h0 : s0.Frame P s) (p_regs : P .regs)
    (p_free : P .free) (p_core : P .core) (p_pass : P .pass) (p_chan : P .chan) (p_ras : P .ras) (p_tvx : P .tvx) :
    FrameOut P s0 (execChannelLinkError ch s) := by
  unfold execChannelLinkError
  try dsimp only
  with_reducible repeat' (first | intro _ | assumption | exact State.Frame.refl _ | apply State.chLinkEvent_frame | apply fo_next | apply fo_fault)

theorem execChannelRetrainComplete_frame {s0 : State} {ch : Ix16} {s : State} (h0 : s0.Frame P s) (p_regs : P .regs)
    (p_mem : P .mem) (p_marked : P .marked) (p_net : P .net) (p_free : P .free) (p_core : P .core) (p_home : P .home)
    (p_pass : P .pass) (p_chan : P .chan) (p_mesa : P .mesa) (p_meter : P .meter) (p_qos : P .qos) (p_ras : P .ras)
    (p_tvx : P .tvx) :
    FrameOut P s0 (execChannelRetrainComplete ch s) := by
  unfold execChannelRetrainComplete
  try dsimp only
  with_reducible repeat' (first
    | (intro (p : Part) hp; cases p <;> first | rfl | contradiction) | intro _ | assumption | exact State.Frame.refl _
    | apply State.chRetrainOver_frame | apply State.setChState_frame | apply State.chAtRisk_frame | apply State.put_frame
    | apply State.copyStart_frame | apply State.chFlush_frame | apply fo_ite | apply f_ite | apply fo_next | apply fo_fault
    | apply f_mk)

theorem State.markRest_frame {s0 : State} {s : State} {src : Nat} {tgt : Nat} {from' : Nat} (h0 : s0.Frame P s)
    (p_marked : P .marked) :
    s0.Frame P (State.markRest s src tgt from') := by
  unfold State.markRest
  try dsimp only
  with_reducible repeat' (first | intro _ | assumption | exact State.Frame.refl _ | apply State.markAt_frame | apply f_foldN)

theorem State.copySwap_frame {s0 : State} {s : State} {src : Nat} {tgt : Nat} (h0 : s0.Frame P s) (p_regs : P .regs)
    (p_chan : P .chan) (p_tvx : P .tvx) :
    s0.Frame P (State.copySwap s src tgt) := by
  unfold State.copySwap
  try dsimp only
  with_reducible repeat' (first
    | intro _ | assumption | exact State.Frame.refl _ | apply State.put_frame | apply State.setChState_frame
    | apply State.chAtRisk_frame | apply State.recChan_frame)

theorem execChannelRetrainTimeout_frame {s0 : State} {ch : Ix16} {s : State} (h0 : s0.Frame P s) (p_regs : P .regs)
    (p_mem : P .mem) (p_marked : P .marked) (p_net : P .net) (p_free : P .free) (p_core : P .core) (p_home : P .home)
    (p_pass : P .pass) (p_chan : P .chan) (p_mesa : P .mesa) (p_meter : P .meter) (p_qos : P .qos) (p_ras : P .ras)
    (p_tvx : P .tvx) :
    FrameOut P s0 (execChannelRetrainTimeout ch s) := by
  unfold execChannelRetrainTimeout
  try dsimp only
  with_reducible repeat' (first
    | (intro (p : Part) hp; cases p <;> first | rfl | contradiction) | intro _ | assumption | exact State.Frame.refl _
    | apply State.setChFails_frame | apply State.chRetrainOver_frame | apply State.copyClose_frame
    | apply State.setChState_frame | apply State.logEvent_frame | apply State.put_frame | apply State.chFlush_frame
    | apply State.chAtRisk_frame | apply State.markRest_frame | apply State.copySwap_frame | apply State.chFail_frame
    | apply fo_ite | apply f_ite | apply fo_next | apply fo_fault | apply f_mk)

theorem execCopyStart_frame {s0 : State} {ch : Ix16} {auto : Bool} {s : State} (h0 : s0.Frame P s) (p_regs : P .regs)
    (p_chan : P .chan) :
    FrameOut P s0 (execCopyStart ch auto s) := by
  unfold execCopyStart
  try dsimp only
  with_reducible repeat' (first
    | intro _ | assumption | exact State.Frame.refl _ | apply State.copyStart_frame | apply fo_ite | apply f_ite
    | apply fo_next | apply fo_fault)

theorem execCopyLine_frame {s0 : State} {ch : Ix16} {errs : Errs} {s : State} (h0 : s0.Frame P s) (p_regs : P .regs)
    (p_mem : P .mem) (p_marked : P .marked) (p_net : P .net) (p_free : P .free) (p_core : P .core) (p_home : P .home)
    (p_pass : P .pass) (p_chan : P .chan) (p_mesa : P .mesa) (p_meter : P .meter) (p_qos : P .qos) (p_ras : P .ras)
    (p_tvx : P .tvx) :
    FrameOut P s0 (execCopyLine ch errs s) := by
  unfold execCopyLine
  try dsimp only
  with_reducible repeat' (first
    | intro _ | assumption | exact State.Frame.refl _ | apply State.chRead_frame | apply State.memAnswer_frame
    | apply State.setLineAt_frame | apply State.markAt_frame | apply State.chBytes_frame | apply State.chFlush_frame
    | apply State.put_frame | apply fo_ite | apply f_ite | apply f_ite_fst | apply f_ite_snd | apply fo_next
    | apply fo_fault | refine f_of_snd (by assumption) ?_ | refine f_of_fst (by assumption) ?_
    | refine f_of_some (by assumption) ?_ | split)

theorem execCopyComplete_frame {s0 : State} {ch : Ix16} {s : State} (h0 : s0.Frame P s) (p_regs : P .regs) (p_mem : P .mem)
    (p_marked : P .marked) (p_net : P .net) (p_free : P .free) (p_core : P .core) (p_home : P .home) (p_pass : P .pass)
    (p_chan : P .chan) (p_mesa : P .mesa) (p_meter : P .meter) (p_qos : P .qos) (p_ras : P .ras) (p_tvx : P .tvx) :
    FrameOut P s0 (execCopyComplete ch s) := by
  unfold execCopyComplete
  try dsimp only
  with_reducible repeat' (first
    | intro _ | assumption | exact State.Frame.refl _ | apply State.copyClose_frame | apply State.chFlush_frame
    | apply State.logEvent_frame | apply State.copySwap_frame | apply fo_ite | apply f_ite | apply fo_next | apply fo_fault)

theorem State.patrolStep_frame {s0 : State} {s : State} {c : Nat} (h0 : s0.Frame P s) (p_regs : P .regs) (p_ras : P .ras) :
    s0.Frame P (State.patrolStep s c) := by
  unfold State.patrolStep
  try dsimp only
  with_reducible repeat' (first
    | (intro (p : Part) hp; cases p <;> first | rfl | contradiction) | intro _ | assumption | exact State.Frame.refl _
    | apply State.bump_frame | apply f_ite | apply f_mk)

theorem execDramPatrolLine_frame {s0 : State} {ch : Ix16} {errs : Errs} {s : State} (h0 : s0.Frame P s) (p_regs : P .regs)
    (p_mem : P .mem) (p_marked : P .marked) (p_free : P .free) (p_core : P .core) (p_pass : P .pass) (p_chan : P .chan)
    (p_meter : P .meter) (p_qos : P .qos) (p_ras : P .ras) (p_tvx : P .tvx) :
    FrameOut P s0 (execDramPatrolLine ch errs s) := by
  unfold execDramPatrolLine
  try dsimp only
  with_reducible repeat' (first
    | intro _ | assumption | exact State.Frame.refl _ | apply State.patrolStep_frame | apply State.chRead_frame
    | apply State.chBytes_frame | apply State.memAnswer_frame | apply State.setLineAt_frame | apply State.markAt_frame
    | apply fo_ite | apply f_ite | apply f_ite_fst | apply f_ite_snd | apply fo_next | apply fo_fault
    | refine f_of_snd (by assumption) ?_ | refine f_of_fst (by assumption) ?_ | refine f_of_some (by assumption) ?_ | split)

theorem State.sanJournal_frame {s0 : State} {s : State} {f : JEnt → JEnt} (h0 : s0.Frame P s) (p_chan : P .chan) :
    s0.Frame P (State.sanJournal s f) := by
  unfold State.sanJournal
  try dsimp only
  with_reducible repeat' (first
    | (intro (p : Part) hp; cases p <;> first | rfl | contradiction) | intro _ | assumption | exact State.Frame.refl _
    | apply State.sanRegs_frame | apply State.journal_frame
    | (apply f_mk; first | assumption | exact State.Frame.refl _ | apply State.sanRegs_frame | apply State.journal_frame)
    | split)

theorem State.sanVerdict_frame {s0 : State} {s : State} {n : Nat} {ok : Bool} {rewrite : State → State} (h0 : s0.Frame P s)
    (hp_rewrite : ∀ (u : State) (y0 : State), u.Frame P y0 → u.Frame P (rewrite y0)) (p_regs : P .regs) (p_chan : P .chan) :
    s0.Frame P (State.sanVerdict s n ok rewrite) := by
  unfold State.sanVerdict
  try dsimp only
  with_reducible repeat' (first
    | (intro (p : Part) hp; cases p <;> first | rfl | contradiction) | intro _ | assumption | exact State.Frame.refl _
    | apply State.put_frame | apply State.sanFail_frame | apply hp_rewrite | apply f_ite | apply f_mk)

theorem execSanitiseLine_frame {s0 : State} {errs : Errs} {s : State} (h0 : s0.Frame P s) (p_regs : P .regs)
    (p_mem : P .mem) (p_marked : P .marked) (p_net : P .net) (p_free : P .free) (p_core : P .core) (p_home : P .home)
    (p_pass : P .pass) (p_chan : P .chan) (p_mesa : P .mesa) (p_meter : P .meter) (p_qos : P .qos) (p_ras : P .ras)
    (p_tvx : P .tvx) :
    FrameOut P s0 (execSanitiseLine errs s) := by
  unfold execSanitiseLine
  try dsimp only
  with_reducible repeat' (first
    | (intro (p : Part) hp; cases p <;> first | rfl | contradiction) | intro _ | assumption | exact State.Frame.refl _
    | apply State.chRead_frame | apply State.memAnswer_frame | apply State.sanVerdict_frame | apply State.chBytes_frame
    | apply State.setLineAt_frame | apply State.lostLook_frame | apply State.snoopAll_frame | apply State.setLock_frame
    | apply State.txnProceed_frame | apply State.storeRead_frame | apply State.sanCount_frame | apply State.memBytes_frame
    | apply State.mesaWrite_frame | apply State.storeWrite_frame | apply fo_ite | apply f_ite | apply f_ite_fst
    | apply f_ite_snd | apply fo_next | apply fo_fault | refine f_of_snd (by assumption) ?_
    | refine f_of_fst (by assumption) ?_ | refine f_of_some (by assumption) ?_
    | (apply f_mk; first | assumption | exact State.Frame.refl _ | apply State.chRead_frame | apply State.memAnswer_frame | apply State.sanVerdict_frame | apply State.chBytes_frame | apply State.setLineAt_frame | apply State.lostLook_frame | apply State.snoopAll_frame | apply State.setLock_frame | apply State.txnProceed_frame | apply State.storeRead_frame | apply State.sanCount_frame | apply State.memBytes_frame | apply State.mesaWrite_frame | apply State.storeWrite_frame | apply fo_ite | apply f_ite | apply f_ite_fst | apply f_ite_snd | apply fo_next | apply fo_fault)
    | split)

theorem State.sanStatus_frame {s0 : State} {s : State} (h0 : s0.Frame P s) (p_free : P .free) :
    s0.Frame P (State.sanStatus s).2 := by
  unfold State.sanStatus
  try dsimp only
  with_reducible repeat' (first
    | intro _ | assumption | exact State.Frame.refl _ | apply State.freeBit_frame | apply f_ite | apply f_ite_fst
    | apply f_ite_snd | refine f_of_snd (by assumption) ?_ | refine f_of_fst (by assumption) ?_
    | refine f_of_some (by assumption) ?_ | split)

theorem execSanitisePhaseComplete_frame {s0 : State} {s : State} (h0 : s0.Frame P s) (p_regs : P .regs) (p_free : P .free)
    (p_chan : P .chan) (p_tvx : P .tvx) (p_pwr : P .pwr) :
    FrameOut P s0 (execSanitisePhaseComplete s) := by
  unfold execSanitisePhaseComplete
  try dsimp only
  with_reducible repeat' (first
    | (intro (p : Part) hp; cases p <;> first | rfl | contradiction) | intro _ | assumption | exact State.Frame.refl _
    | apply State.sanJournal_frame | apply State.sanZeroDone_frame | apply State.setSan_frame | apply State.sanStatus_frame
    | apply State.longEnd_frame | apply fo_ite | apply f_ite | apply f_ite_fst | apply f_ite_snd | apply fo_next
    | apply fo_fault | apply f_mk)

theorem execSanitiseCheckpoint_frame {s0 : State} {s : State} (h0 : s0.Frame P s) (p_chan : P .chan) :
    FrameOut P s0 (execSanitiseCheckpoint s) := by
  unfold execSanitiseCheckpoint
  try dsimp only
  with_reducible repeat' (first
    | intro _ | assumption | exact State.Frame.refl _ | apply State.sanJournal_frame | apply fo_ite | apply f_ite
    | apply fo_next | apply fo_fault)

theorem execMesaInvalidateAll_frame {s0 : State} {n : Ix16} {s : State} (h0 : s0.Frame P s) (p_regs : P .regs)
    (p_home : P .home) (p_mesa : P .mesa) :
    FrameOut P s0 (execMesaInvalidateAll n s) := by
  unfold execMesaInvalidateAll
  try dsimp only
  with_reducible repeat' (first | intro _ | assumption | exact State.Frame.refl _ | apply State.mesaInvStart_frame | apply fo_next | apply fo_fault)

theorem execMesaInvComplete_frame {s0 : State} {n : Ix16} {s : State} (h0 : s0.Frame P s) (p_regs : P .regs)
    (p_mesa : P .mesa) :
    FrameOut P s0 (execMesaInvComplete n s) := by
  unfold execMesaInvComplete
  try dsimp only
  with_reducible repeat' (first
    | intro _ | assumption | exact State.Frame.refl _ | apply State.mesaInvEnd_frame | apply fo_ite | apply f_ite
    | apply fo_next | apply fo_fault)

theorem execMesaWayDisable_frame {s0 : State} {n : Ix16} {w : Ix16} {s : State} (h0 : s0.Frame P s) (p_regs : P .regs)
    (p_home : P .home) (p_mesa : P .mesa) (p_tvx : P .tvx) :
    FrameOut P s0 (execMesaWayDisable n w s) := by
  unfold execMesaWayDisable
  try dsimp only
  with_reducible repeat' (first
    | intro _ | assumption | exact State.Frame.refl _ | apply State.mesaWayOff_frame | apply State.putBit_frame
    | apply fo_next | apply fo_fault)

theorem execMesaWayEnable_frame {s0 : State} {n : Ix16} {w : Ix16} {s : State} (h0 : s0.Frame P s) (p_regs : P .regs)
    (p_mesa : P .mesa) :
    FrameOut P s0 (execMesaWayEnable n w s) := by
  unfold execMesaWayEnable
  try dsimp only
  with_reducible repeat' (first
    | intro _ | assumption | exact State.Frame.refl _ | apply State.mesaWayOn_frame | apply State.putBit_frame
    | apply fo_ite | apply f_ite | apply fo_next | apply fo_fault)

theorem execVcDisableWrite_frame {s0 : State} {n : Ix16} {on : Bool} {s : State} (h0 : s0.Frame P s) (p_regs : P .regs)
    (p_mesa : P .mesa) :
    FrameOut P s0 (execVcDisableWrite n on s) := by
  unfold execVcDisableWrite
  try dsimp only
  with_reducible repeat' (first
    | intro _ | assumption | exact State.Frame.refl _ | apply State.putB_frame | apply State.victDrop_frame | apply fo_next
    | apply fo_fault)

theorem execMesaBypassExitReady_frame {s0 : State} {n : Ix16} {s : State} (h0 : s0.Frame P s) (p_mesa : P .mesa) :
    FrameOut P s0 (execMesaBypassExitReady n s) := by
  unfold execMesaBypassExitReady
  try dsimp only
  with_reducible repeat' (first | intro _ | assumption | exact State.Frame.refl _ | apply State.setMesaPowering_frame | apply fo_next | apply fo_fault)

end Sys2Proof.Machine
end

