-- ==== Sys2Proof/Laws/FrameCoreRows.lean ====
section
/-!
SUPPORT. What each function of Machine/CoreRows.lean leaves alone (`State.Frame`, Safety.lean): one lemma for each.
-/

namespace Sys2Proof.Machine

variable {P : Part → Prop}

theorem State.wayFlags_frame {s0 : State} {s : State} {u : FlushUnit} (h0 : s0.Frame P s) (p_regs : P .regs) :
    s0.Frame P (State.wayFlags s u) := by
  unfold State.wayFlags
  try dsimp only
  with_reducible repeat' (first | intro _ | assumption | exact State.Frame.refl _ | apply State.putB_frame | split)

theorem State.flushStart_frame {s0 : State} {s : State} {u : FlushUnit} (h0 : s0.Frame P s) (p_regs : P .regs)
    (p_die : P .die) :
    s0.Frame P (State.flushStart s u) := by
  unfold State.flushStart
  try dsimp only
  with_reducible repeat' (first
    | (intro (p : Part) hp; cases p <;> first | rfl | contradiction) | intro _ | assumption | exact State.Frame.refl _
    | apply State.put_frame | apply State.wayFlags_frame | apply f_ite
    | (apply f_mk; first | assumption | exact State.Frame.refl _ | apply State.put_frame | apply State.wayFlags_frame | apply f_ite)
    | split)

theorem State.flushL2_frame {s0 : State} {s : State} {h : Nat} {set : Nat} {w : Nat} {u : FlushUnit} (h0 : s0.Frame P s)
    (p_regs : P .regs) (p_net : P .net) (p_core : P .core) (p_die : P .die) (p_pass : P .pass) :
    s0.Frame P (State.flushL2 s h set w u) := by
  unfold State.flushL2
  try dsimp only
  with_reducible repeat' (first
    | intro _ | assumption | exact State.Frame.refl _ | apply State.l2Evict_frame | apply State.setSfLine_frame
    | apply State.l2Drop_frame | apply State.setVcLine_frame | apply f_ite | split)

theorem State.flushOne_frame {s0 : State} {s : State} {u : FlushUnit} {ix : Nat} (h0 : s0.Frame P s) (p_regs : P .regs)
    (p_net : P .net) (p_core : P .core) (p_die : P .die) (p_pass : P .pass) :
    s0.Frame P (State.flushOne s u ix) := by
  unfold State.flushOne
  try dsimp only
  with_reducible repeat' (first
    | intro _ | assumption | exact State.Frame.refl _ | apply State.wayFlags_frame | apply State.flushL2_frame
    | apply State.vcEvict_frame | apply State.setSf_frame | apply State.sfBackInv_frame | split)

theorem State.flushWalkLine_frame {s0 : State} {s : State} {u : FlushUnit} (h0 : s0.Frame P s) (p_regs : P .regs)
    (p_net : P .net) (p_free : P .free) (p_core : P .core) (p_die : P .die) (p_pass : P .pass) (p_ras : P .ras)
    (p_tvx : P .tvx) :
    FrameOut P s0 (State.flushWalkLine s u) := by
  unfold State.flushWalkLine
  try dsimp only
  with_reducible repeat' (first
    | (intro (p : Part) hp; cases p <;> first | rfl | contradiction) | intro _ | assumption | exact State.Frame.refl _
    | apply State.markRecord_frame | apply State.flushOne_frame | apply fo_ite | apply f_ite | apply fo_next
    | apply fo_fault
    | (apply f_mk; first | assumption | exact State.Frame.refl _ | apply State.markRecord_frame | apply State.flushOne_frame | apply fo_ite | apply f_ite | apply fo_next | apply fo_fault)
    | split)

theorem State.waysLow_frame {s0 : State} {s : State} {d : Nat} {ix : Nat} (h0 : s0.Frame P s) (p_regs : P .regs)
    (p_tvx : P .tvx) :
    s0.Frame P (State.waysLow s d ix) := by
  unfold State.waysLow
  try dsimp only
  with_reducible repeat' (first | intro _ | assumption | exact State.Frame.refl _ | apply State.logEvent_frame)

theorem State.retirePending_frame {s0 : State} {s : State} {h : Nat} (h0 : s0.Frame P s) (p_regs : P .regs) (p_tvx : P .tvx)
    :
    s0.Frame P (State.retirePending s h) := by
  unfold State.retirePending
  try dsimp only
  with_reducible repeat' (first | intro _ | assumption | exact State.Frame.refl _ | apply State.logEvent_frame | apply State.put_frame | apply f_ite)

theorem State.l2WayGone_frame {s0 : State} {s : State} {h : Nat} {w : Nat} (h0 : s0.Frame P s) (p_regs : P .regs)
    (p_tvx : P .tvx) :
    s0.Frame P (State.l2WayGone s h w) := by
  unfold State.l2WayGone
  try dsimp only
  with_reducible repeat' (first
    | intro _ | assumption | exact State.Frame.refl _ | apply State.putBit_frame | apply State.waysLow_frame
    | apply State.retirePending_frame | apply f_ite)

theorem State.vcWayGone_frame {s0 : State} {s : State} {d : Nat} {sl : Nat} {w : Nat} (h0 : s0.Frame P s) (p_regs : P .regs)
    (p_tvx : P .tvx) :
    s0.Frame P (State.vcWayGone s d sl w) := by
  unfold State.vcWayGone
  try dsimp only
  with_reducible repeat' (first | intro _ | assumption | exact State.Frame.refl _ | apply State.putBit_frame | apply State.waysLow_frame | apply f_ite)

theorem State.l2WayBack_frame {s0 : State} {s : State} {h : Nat} {w : Nat} (h0 : s0.Frame P s) (p_regs : P .regs) :
    s0.Frame P (State.l2WayBack s h w) := by
  unfold State.l2WayBack
  try dsimp only
  with_reducible repeat' (first | intro _ | assumption | exact State.Frame.refl _ | apply State.putBit_frame | apply f_ite)

theorem State.vcWayBack_frame {s0 : State} {s : State} {d : Die} {sl : Fin 16} {w : Fin 16} (h0 : s0.Frame P s)
    (p_regs : P .regs) :
    s0.Frame P (State.vcWayBack s d sl w) := by
  unfold State.vcWayBack
  try dsimp only
  with_reducible repeat' (first | intro _ | assumption | exact State.Frame.refl _ | apply State.putBit_frame | apply f_ite)

theorem State.setDieCtl_frame {s0 : State} {s : State} {d : Nat} {x : DieCtl} (h0 : s0.Frame P s) (p_die : P .die) :
    s0.Frame P (State.setDieCtl s d x) := by
  unfold State.setDieCtl
  try dsimp only
  with_reducible repeat' (first
    | (intro (p : Part) hp; cases p <;> first | rfl | contradiction) | intro _ | assumption | exact State.Frame.refl _
    | apply f_mk)

theorem State.vcSliceBack_frame {s0 : State} {s : State} {d : Die} {sl : Fin 16} (h0 : s0.Frame P s) (p_regs : P .regs) :
    s0.Frame P (State.vcSliceBack s d sl) := by
  unfold State.vcSliceBack
  try dsimp only
  with_reducible repeat' (first | intro _ | assumption | exact State.Frame.refl _ | apply State.put_frame | apply f_ite)

theorem execFlushDisableComplete_frame {s0 : State} {u : FlushUnit} {s : State} (h0 : s0.Frame P s) (p_regs : P .regs)
    (p_die : P .die) (p_tvx : P .tvx) :
    FrameOut P s0 (execFlushDisableComplete u s) := by
  unfold execFlushDisableComplete
  try dsimp only
  with_reducible repeat' (first
    | (intro (p : Part) hp; cases p <;> first | rfl | contradiction) | intro _ | assumption | exact State.Frame.refl _
    | apply State.wayFlags_frame | apply State.put_frame | apply State.l2WayBack_frame | apply State.l2WayGone_frame
    | apply State.vcSliceBack_frame | apply State.vcWayBack_frame | apply State.vcWayGone_frame | apply fo_ite | apply f_ite
    | apply fo_next | apply fo_fault | apply f_regs | apply f_mem
    | (apply f_mk; first | assumption | exact State.Frame.refl _ | apply State.wayFlags_frame | apply State.put_frame | apply State.l2WayBack_frame | apply State.l2WayGone_frame | apply State.vcSliceBack_frame | apply State.vcWayBack_frame | apply State.vcWayGone_frame | apply fo_ite | apply f_ite | apply fo_next | apply fo_fault | apply f_regs | apply f_mem)
    | split)

theorem execL2WayDisable_frame {s0 : State} {h : Hart} {w : Fin 16} {s : State} (h0 : s0.Frame P s) (p_regs : P .regs)
    (p_die : P .die) :
    FrameOut P s0 (execL2WayDisable h w s) := by
  unfold execL2WayDisable
  try dsimp only
  with_reducible repeat' (first
    | intro _ | assumption | exact State.Frame.refl _ | apply State.putBit_frame | apply State.flushStart_frame
    | apply fo_ite | apply f_ite | apply fo_next | apply fo_fault)

theorem execL2WayEnable_frame {s0 : State} {h : Hart} {w : Fin 16} {s : State} (h0 : s0.Frame P s) (p_regs : P .regs) :
    FrameOut P s0 (execL2WayEnable h w s) := by
  unfold execL2WayEnable
  try dsimp only
  with_reducible repeat' (first
    | intro _ | assumption | exact State.Frame.refl _ | apply State.l2WayBack_frame | apply State.putBit_frame
    | apply fo_ite | apply f_ite | apply fo_next | apply fo_fault)

theorem execVcWayDisable_frame {s0 : State} {d : Die} {sl : Fin 16} {w : Fin 16} {s : State} (h0 : s0.Frame P s)
    (p_regs : P .regs) (p_die : P .die) :
    FrameOut P s0 (execVcWayDisable d sl w s) := by
  unfold execVcWayDisable
  try dsimp only
  with_reducible repeat' (first
    | intro _ | assumption | exact State.Frame.refl _ | apply State.putBit_frame | apply State.flushStart_frame
    | apply fo_ite | apply f_ite | apply fo_next | apply fo_fault)

theorem execVcWayEnable_frame {s0 : State} {d : Die} {sl : Fin 16} {w : Fin 16} {s : State} (h0 : s0.Frame P s)
    (p_regs : P .regs) :
    FrameOut P s0 (execVcWayEnable d sl w s) := by
  unfold execVcWayEnable
  try dsimp only
  with_reducible repeat' (first
    | intro _ | assumption | exact State.Frame.refl _ | apply State.vcWayBack_frame | apply State.putBit_frame
    | apply fo_ite | apply f_ite | apply fo_next | apply fo_fault)

theorem execVcSliceDisable_frame {s0 : State} {d : Die} {sl : Fin 16} {s : State} (h0 : s0.Frame P s) (p_regs : P .regs)
    (p_die : P .die) :
    FrameOut P s0 (execVcSliceDisable d sl s) := by
  unfold execVcSliceDisable
  try dsimp only
  with_reducible repeat' (first
    | intro _ | assumption | exact State.Frame.refl _ | apply State.put_frame | apply State.flushStart_frame | apply fo_ite
    | apply f_ite | apply fo_next | apply fo_fault)

theorem execVcSliceEnable_frame {s0 : State} {d : Die} {sl : Fin 16} {s : State} (h0 : s0.Frame P s) (p_regs : P .regs) :
    FrameOut P s0 (execVcSliceEnable d sl s) := by
  unfold execVcSliceEnable
  try dsimp only
  with_reducible repeat' (first
    | intro _ | assumption | exact State.Frame.refl _ | apply State.vcSliceBack_frame | apply State.put_frame | apply fo_ite
    | apply f_ite | apply fo_next | apply fo_fault)

theorem State.l2WayRetire_frame {s0 : State} {s : State} {h : Hart} {w : Fin 16} (h0 : s0.Frame P s) (p_regs : P .regs)
    (p_die : P .die) (p_tvx : P .tvx) :
    s0.Frame P (State.l2WayRetire s h w) := by
  unfold State.l2WayRetire
  try dsimp only
  with_reducible repeat' (first
    | intro _ | assumption | exact State.Frame.refl _ | apply State.recWay_frame | apply State.putBit_frame
    | apply State.flushStart_frame | apply f_ite)

theorem State.vcWayRetire_frame {s0 : State} {s : State} {d : Die} {sl : Fin 16} {w : Fin 16} (h0 : s0.Frame P s)
    (p_regs : P .regs) (p_die : P .die) (p_tvx : P .tvx) :
    s0.Frame P (State.vcWayRetire s d sl w) := by
  unfold State.vcWayRetire
  try dsimp only
  with_reducible repeat' (first
    | intro _ | assumption | exact State.Frame.refl _ | apply State.recWay_frame | apply State.putBit_frame
    | apply State.flushStart_frame | apply f_ite)

theorem State.sfWayRetire_frame {s0 : State} {s : State} {d : Die} {b : Fin 16} {w : Fin 24} (h0 : s0.Frame P s)
    (p_regs : P .regs) (p_die : P .die) (p_tvx : P .tvx) :
    s0.Frame P (State.sfWayRetire s d b w) := by
  unfold State.sfWayRetire
  try dsimp only
  with_reducible repeat' (first
    | intro _ | assumption | exact State.Frame.refl _ | apply State.flushStart_frame | apply State.recWay_frame
    | apply State.putBit_frame | apply State.waysLow_frame | apply f_ite)

theorem State.csrTrap_frame {s0 : State} {s : State} {h : Nat} {p : Priv} {cause : Nat} (h0 : s0.Frame P s)
    (p_regs : P .regs) (p_free : P .free) (p_core : P .core) :
    s0.Frame P (State.csrTrap s h p cause) := by
  unfold State.csrTrap
  try dsimp only
  with_reducible repeat' (first
    | intro _ | assumption | exact State.Frame.refl _ | apply State.freeWord_frame | apply State.setHart_frame
    | apply State.takeTrap_frame | refine f_of_snd (by assumption) ?_ | refine f_of_fst (by assumption) ?_
    | refine f_of_some (by assumption) ?_ | split)

theorem execSrmcfgWrite_frame {s0 : State} {h : Hart} {pv : Priv} {v : Word} {s : State} (h0 : s0.Frame P s)
    (p_regs : P .regs) (p_free : P .free) (p_core : P .core) :
    FrameOut P s0 (execSrmcfgWrite h pv v s) := by
  unfold execSrmcfgWrite
  try dsimp only
  with_reducible repeat' (first
    | intro _ | assumption | exact State.Frame.refl _ | apply State.flushL2_frame | apply State.csrTrap_frame
    | apply State.retired_frame | apply State.setReg_frame | apply fo_ite | apply f_ite | apply fo_next | apply fo_fault
    | split)

theorem State.freqFall_frame {s0 : State} {s : State} {h : Nat} (h0 : s0.Frame P s) (p_regs : P .regs) (p_core : P .core) :
    s0.Frame P (State.freqFall s h) := by
  unfold State.freqFall
  try dsimp only
  with_reducible repeat' (first
    | intro _ | assumption | exact State.Frame.refl _ | apply State.putB_frame | apply State.flushL2_frame
    | apply State.put_frame | apply State.setHart_frame | apply f_ite | split)

theorem execCoreFreqReqWrite_frame {s0 : State} {h : Hart} {pv : Priv} {v : Word} {s : State} (h0 : s0.Frame P s)
    (p_regs : P .regs) (p_free : P .free) (p_core : P .core) :
    FrameOut P s0 (execCoreFreqReqWrite h pv v s) := by
  unfold execCoreFreqReqWrite
  try dsimp only
  with_reducible repeat' (first
    | intro _ | assumption | exact State.Frame.refl _ | apply State.flushL2_frame | apply State.csrTrap_frame
    | apply State.freqFall_frame | apply State.retired_frame | apply State.setReg_frame | apply fo_ite | apply f_ite
    | apply fo_next | apply fo_fault | split)

theorem execFreqChangeComplete_frame {s0 : State} {h : Hart} {s : State} (h0 : s0.Frame P s) (p_regs : P .regs)
    (p_core : P .core) :
    FrameOut P s0 (execFreqChangeComplete h s) := by
  unfold execFreqChangeComplete
  try dsimp only
  with_reducible repeat' (first
    | intro _ | assumption | exact State.Frame.refl _ | apply State.flushL2_frame | apply State.put_frame
    | apply State.setHart_frame | apply fo_next | apply fo_fault | split)

theorem execReservationTimeout_frame {s0 : State} {h : Hart} {s : State} (h0 : s0.Frame P s) (p_core : P .core) :
    FrameOut P s0 (execReservationTimeout h s) := by
  unfold execReservationTimeout
  try dsimp only
  with_reducible repeat' (first | intro _ | assumption | exact State.Frame.refl _ | apply State.setHart_frame | apply fo_next | apply fo_fault)

theorem State.dropFetches_frame {s0 : State} {s : State} {h : Nat} (h0 : s0.Frame P s) (p_core : P .core) :
    s0.Frame P (State.dropFetches s h) := by
  unfold State.dropFetches
  try dsimp only
  with_reducible repeat' (first | intro _ | assumption | exact State.Frame.refl _ | apply State.setHart_frame)

theorem execFenceI_frame {s0 : State} {h : Hart} {s : State} (h0 : s0.Frame P s) (p_regs : P .regs) (p_core : P .core) :
    FrameOut P s0 (execFenceI h s) := by
  unfold execFenceI
  try dsimp only
  with_reducible repeat' (first
    | intro _ | assumption | exact State.Frame.refl _ | apply State.retired_frame | apply State.dropFetches_frame
    | apply State.l1iClear_frame | apply fo_ite | apply f_ite | apply fo_next | apply fo_fault)

theorem State.setCoreState_frame {s0 : State} {s : State} {h : Nat} {st : Nat} (h0 : s0.Frame P s) (p_regs : P .regs) :
    s0.Frame P (State.setCoreState s h st) := by
  unfold State.setCoreState
  try dsimp only
  with_reducible repeat' (first | intro _ | assumption | exact State.Frame.refl _ | apply State.put_frame)

theorem State.dropLoads_frame {s0 : State} {s : State} {h : Nat} (h0 : s0.Frame P s) (p_core : P .core) :
    s0.Frame P (State.dropLoads s h) := by
  unfold State.dropLoads
  try dsimp only
  with_reducible repeat' (first | intro _ | assumption | exact State.Frame.refl _ | apply State.setHart_frame)

theorem State.coreStop_frame {s0 : State} {s : State} {h : Nat} {retire : Bool} {err : Bool} (h0 : s0.Frame P s)
    (p_regs : P .regs) (p_core : P .core) (p_die : P .die) :
    s0.Frame P (State.coreStop s h retire err) := by
  unfold State.coreStop
  try dsimp only
  with_reducible repeat' (first
    | intro _ | assumption | exact State.Frame.refl _ | apply State.setCoreState_frame | apply State.putB_frame
    | apply State.setHart_frame | apply State.put_frame | apply State.flushStart_frame)

theorem State.coreReject_frame {s0 : State} {s : State} {h : Nat} (h0 : s0.Frame P s) (p_regs : P .regs) :
    s0.Frame P (State.coreReject s h) := by
  unfold State.coreReject
  try dsimp only
  with_reducible repeat' (first | intro _ | assumption | exact State.Frame.refl _ | apply State.put_frame)

theorem State.coreRetire_frame {s0 : State} {s : State} {h : Nat} (h0 : s0.Frame P s) (p_regs : P .regs) (p_tvx : P .tvx) :
    s0.Frame P (State.coreRetire s h) := by
  unfold State.coreRetire
  try dsimp only
  with_reducible repeat' (first
    | intro _ | assumption | exact State.Frame.refl _ | apply State.recCore_frame | apply State.put_frame
    | apply State.setCoreState_frame)

theorem execCoreOffline_frame {s0 : State} {d : Die} {c : Fin 32} {s : State} (h0 : s0.Frame P s) (p_regs : P .regs)
    (p_core : P .core) (p_die : P .die) :
    FrameOut P s0 (execCoreOffline d c s) := by
  unfold execCoreOffline
  try dsimp only
  with_reducible repeat' (first
    | intro _ | assumption | exact State.Frame.refl _ | apply State.coreStop_frame | apply State.coreReject_frame
    | apply fo_ite | apply f_ite | apply fo_next | apply fo_fault)

theorem execCoreRetire_frame {s0 : State} {d : Die} {c : Fin 32} {s : State} (h0 : s0.Frame P s) (p_regs : P .regs)
    (p_core : P .core) (p_die : P .die) (p_tvx : P .tvx) :
    FrameOut P s0 (execCoreRetire d c s) := by
  unfold execCoreRetire
  try dsimp only
  with_reducible repeat' (first
    | intro _ | assumption | exact State.Frame.refl _ | apply State.coreStop_frame | apply State.coreRetire_frame
    | apply State.coreReject_frame | apply fo_ite | apply f_ite | apply fo_next | apply fo_fault)

theorem State.coreStart_frame {s0 : State} {s : State} {h : Nat} (h0 : s0.Frame P s) (p_regs : P .regs) (p_core : P .core) :
    s0.Frame P (State.coreStart s h) := by
  unfold State.coreStart
  try dsimp only
  with_reducible repeat' (first
    | intro _ | assumption | exact State.Frame.refl _ | apply State.put_frame | apply State.setCoreState_frame
    | apply State.l1dClear_frame | apply State.l1iClear_frame)

theorem execCoreOnline_frame {s0 : State} {d : Die} {c : Fin 32} {s : State} (h0 : s0.Frame P s) (p_regs : P .regs)
    (p_core : P .core) :
    FrameOut P s0 (execCoreOnline d c s) := by
  unfold execCoreOnline
  try dsimp only
  with_reducible repeat' (first
    | intro _ | assumption | exact State.Frame.refl _ | apply State.coreStart_frame | apply State.coreReject_frame
    | apply fo_ite | apply f_ite | apply fo_next | apply fo_fault)

theorem execCoreReset_frame {s0 : State} {d : Die} {c : Fin 32} {s : State} (h0 : s0.Frame P s) (p_regs : P .regs)
    (p_core : P .core) :
    FrameOut P s0 (execCoreReset d c s) := by
  unfold execCoreReset
  try dsimp only
  with_reducible repeat' (first
    | intro _ | assumption | exact State.Frame.refl _ | apply State.l1iClear_frame | apply State.dropLoads_frame
    | apply State.setCoreState_frame | apply State.coreReject_frame | apply fo_ite | apply f_ite | apply fo_next
    | apply fo_fault)

theorem execCoreLogicError_frame {s0 : State} {h : Hart} {s : State} (h0 : s0.Frame P s) (p_regs : P .regs)
    (p_free : P .free) (p_core : P .core) (p_die : P .die) (p_pass : P .pass) (p_ras : P .ras) (p_tvx : P .tvx) :
    FrameOut P s0 (execCoreLogicError h s) := by
  unfold execCoreLogicError
  try dsimp only
  with_reducible repeat' (first
    | intro _ | assumption | exact State.Frame.refl _ | apply State.errRecord_frame | apply State.retirePending_frame
    | apply State.coreStop_frame | apply State.dropLoads_frame | apply State.setCoreState_frame | apply State.put_frame
    | apply State.setHart_frame | apply fo_ite | apply f_ite | apply fo_next | apply fo_fault)

theorem State.setCoreBit_frame {s0 : State} {s : State} {h : Nat} {b : Bool} (h0 : s0.Frame P s) (p_regs : P .regs) :
    s0.Frame P (State.setCoreBit s h b) := by
  unfold State.setCoreBit
  try dsimp only
  with_reducible repeat' (first | intro _ | assumption | exact State.Frame.refl _ | apply State.putBit_frame)

theorem State.dropFiles_frame {s0 : State} {s : State} {h : Nat} (h0 : s0.Frame P s) (p_io : P .io) :
    s0.Frame P (State.dropFiles s h) := by
  unfold State.dropFiles
  try dsimp only
  with_reducible repeat' (first
    | (intro (p : Part) hp; cases p <;> first | rfl | contradiction) | intro _ | assumption | exact State.Frame.refl _
    | apply f_regs | apply f_mem | apply f_mk)

theorem State.dieFlush_frame {s0 : State} {s : State} {d : Die} (h0 : s0.Frame P s) (p_regs : P .regs) (p_die : P .die) :
    s0.Frame P (State.dieFlush s d) := by
  unfold State.dieFlush
  try dsimp only
  with_reducible repeat' (first
    | intro _ | assumption | exact State.Frame.refl _ | apply State.put_frame | apply State.setDieCtl_frame
    | apply State.flushStart_frame | apply State.l2WayBack_frame | apply f_ite | apply f_foldN)

theorem execCoreStopComplete_frame {s0 : State} {h : Hart} {s : State} (h0 : s0.Frame P s) (p_regs : P .regs)
    (p_core : P .core) (p_die : P .die) (p_io : P .io) (p_tvx : P .tvx) :
    FrameOut P s0 (execCoreStopComplete h s) := by
  unfold execCoreStopComplete
  try dsimp only
  with_reducible repeat' (first
    | intro _ | assumption | exact State.Frame.refl _ | apply State.setHart_frame | apply State.dropFiles_frame
    | apply State.setCoreBit_frame | apply State.coreRetire_frame | apply State.setCoreState_frame
    | apply State.retirePending_frame | apply State.dieFlush_frame | apply fo_ite | apply f_ite | apply fo_next
    | apply fo_fault)

theorem State.archReset_frame {s0 : State} {s : State} {h : Nat} {running : Bool} (h0 : s0.Frame P s) (p_regs : P .regs)
    (p_core : P .core) :
    s0.Frame P (State.archReset s h running) := by
  unfold State.archReset
  try dsimp only
  with_reducible repeat' (first
    | (intro (p : Part) hp; cases p <;> first | rfl | contradiction) | intro _ | assumption | exact State.Frame.refl _
    | apply State.setReg_frame | apply State.put_frame | apply State.setHart_frame | apply State.freqFall_frame
    | apply State.l1iClear_frame | apply f_ite | apply f_regs | apply f_mem | apply f_mk)

theorem State.coreArrive_frame {s0 : State} {s : State} {h : Nat} (h0 : s0.Frame P s) (p_regs : P .regs) (p_core : P .core)
    (p_die : P .die) :
    s0.Frame P (State.coreArrive s h) := by
  unfold State.coreArrive
  try dsimp only
  with_reducible repeat' (first
    | intro _ | assumption | exact State.Frame.refl _ | apply State.setCoreBit_frame | apply State.setCoreState_frame
    | apply State.coreStop_frame | apply f_ite)

theorem execCoreStartComplete_frame {s0 : State} {h : Hart} {s : State} (h0 : s0.Frame P s) (p_regs : P .regs)
    (p_core : P .core) (p_die : P .die) :
    FrameOut P s0 (execCoreStartComplete h s) := by
  unfold execCoreStartComplete
  try dsimp only
  with_reducible repeat' (first
    | intro _ | assumption | exact State.Frame.refl _ | apply State.coreArrive_frame | apply State.archReset_frame
    | apply fo_ite | apply f_ite | apply fo_next | apply fo_fault)

theorem execCoreResetComplete_frame {s0 : State} {h : Hart} {s : State} (h0 : s0.Frame P s) (p_regs : P .regs)
    (p_core : P .core) (p_die : P .die) :
    FrameOut P s0 (execCoreResetComplete h s) := by
  unfold execCoreResetComplete
  try dsimp only
  with_reducible repeat' (first
    | intro _ | assumption | exact State.Frame.refl _ | apply State.coreArrive_frame | apply State.archReset_frame
    | apply fo_ite | apply f_ite | apply fo_next | apply fo_fault)

end Sys2Proof.Machine
end

