-- ==== Sys2Proof/Laws/FrameHealth.lean ====
section
/-!
SUPPORT. What each function of Machine/Health.lean leaves alone (`State.Frame`, Safety.lean): one lemma for each.
-/

namespace Sys2Proof.Machine

variable {P : Part → Prop}

theorem State.setPPort_frame {s0 : State} {s : State} {p : Nat} {x : PPort} (h0 : s0.Frame P s) (p_pass : P .pass) :
    s0.Frame P (State.setPPort s p x) := by
  unfold State.setPPort
  try dsimp only
  with_reducible repeat' (first
    | (intro (p : Part) hp; cases p <;> first | rfl | contradiction) | intro _ | assumption | exact State.Frame.refl _
    | apply f_mk)

theorem State.healthRevise_frame {s0 : State} {s : State} {d : Nat} (h0 : s0.Frame P s) (p_regs : P .regs) (p_tvx : P .tvx)
    :
    s0.Frame P (State.healthRevise s d) := by
  unfold State.healthRevise
  try dsimp only
  with_reducible repeat' (first
    | (intro (p : Part) hp; cases p <;> first | rfl | contradiction) | intro _ | assumption | exact State.Frame.refl _
    | apply State.logEvent_frame | apply f_ite
    | (apply f_mk; first | assumption | exact State.Frame.refl _ | apply State.logEvent_frame | apply f_ite) | split)

theorem State.laneEvent_frame {s0 : State} {s : State} {d : Nat} (h0 : s0.Frame P s) (p_regs : P .regs) (p_tvx : P .tvx) :
    s0.Frame P (State.laneEvent s d) := by
  unfold State.laneEvent
  try dsimp only
  with_reducible repeat' (first
    | (intro (p : Part) hp; cases p <;> first | rfl | contradiction) | intro _ | assumption | exact State.Frame.refl _
    | apply State.healthRevise_frame | apply f_mk)

end Sys2Proof.Machine
end

