-- ==== Sys2Proof/Laws/FrameDieLost.lean ====
section
/-!
SUPPORT. What each function of Machine/DieLost.lean leaves alone (`State.Frame`, Safety.lean): one lemma for each.
-/

namespace Sys2Proof.Machine

variable {P : Part → Prop}

theorem State.dropTokens_frame {s0 : State} {s : State} {n : Nat} {pkg : Nat} {agent : Nat} {r : Nat × Nat}
    (h0 : s0.Frame P s) (p_regs : P .regs) (p_net : P .net) (p_home : P .home) (p_pass : P .pass) :
    s0.Frame P (State.dropTokens s n pkg agent r) := by
  unfold State.dropTokens
  try dsimp only
  with_reducible repeat' (first
    | intro _ | assumption | exact State.Frame.refl _ | apply State.setOwed_frame | apply State.setTok_frame
    | apply State.slotFreed_frame | apply f_ite | apply f_foldN | split)

theorem State.txnDieLost_frame {s0 : State} {s : State} {n : Nat} {htag : Nat} {d : Nat} {t : HTxn} (h0 : s0.Frame P s)
    (p_regs : P .regs) (p_mem : P .mem) (p_marked : P .marked) (p_net : P .net) (p_free : P .free) (p_core : P .core)
    (p_home : P .home) (p_pass : P .pass) (p_mesa : P .mesa) (p_meter : P .meter) (p_qos : P .qos) (p_ras : P .ras)
    (p_tvx : P .tvx) :
    s0.Frame P (State.txnDieLost s n htag d t) := by
  unfold State.txnDieLost
  try dsimp only
  with_reducible repeat' (first
    | intro _ | assumption | exact State.Frame.refl _ | apply State.lostCopy_frame | apply State.writeView_frame
    | apply State.txnProceed_frame | apply State.setLock_frame | apply State.freeDir_frame | apply State.homeWrite_frame
    | apply State.tryClose_frame | apply f_ite | split)

theorem State.pxDieLost_frame {s0 : State} {s : State} {n : Nat} {htag : Nat} {d : Nat} {t : HTxn} (h0 : s0.Frame P s)
    (p_regs : P .regs) (p_net : P .net) (p_free : P .free) (p_core : P .core) (p_home : P .home) (p_pass : P .pass)
    (p_ras : P .ras) (p_tvx : P .tvx) :
    s0.Frame P (State.pxDieLost s n htag d t) := by
  unfold State.pxDieLost
  try dsimp only
  with_reducible repeat' (first
    | intro _ | assumption | exact State.Frame.refl _ | apply State.txnDieLost_frame | apply State.setLock_frame
    | apply State.pxDieAnswer_frame | apply State.pxLostCopy_frame | apply State.pxProceed_frame
    | apply State.pxTryClose_frame | apply f_ite | split)

theorem State.homesDieLost_frame {s0 : State} {s : State} {d : Nat} (h0 : s0.Frame P s) (p_regs : P .regs) (p_mem : P .mem)
    (p_marked : P .marked) (p_net : P .net) (p_free : P .free) (p_core : P .core) (p_home : P .home) (p_pass : P .pass)
    (p_mesa : P .mesa) (p_meter : P .meter) (p_qos : P .qos) (p_ras : P .ras) (p_tvx : P .tvx) :
    s0.Frame P (State.homesDieLost s d) := by
  unfold State.homesDieLost
  try dsimp only
  with_reducible repeat' (first
    | intro _ | assumption | exact State.Frame.refl _ | apply State.pxDieLost_frame | apply State.txnDieLost_frame
    | apply State.pxAgain_frame | apply State.dropTokens_frame | apply f_ite | apply f_foldN | apply f_foldl | split)

theorem State.resetRange_frame {s0 : State} {s : State} {lo : Nat} {hi : Nat} (h0 : s0.Frame P s) (p_regs : P .regs) :
    s0.Frame P (State.resetRange s lo hi) := by
  unfold State.resetRange
  try dsimp only
  with_reducible repeat' (first
    | (intro (p : Part) hp; cases p <;> first | rfl | contradiction) | intro _ | assumption | exact State.Frame.refl _
    | apply f_regs | apply f_mem | apply f_mk)

theorem State.dieCounters_frame {s0 : State} {s : State} {d : Nat} (h0 : s0.Frame P s) (p_regs : P .regs) :
    s0.Frame P (State.dieCounters s d) := by
  unfold State.dieCounters
  try dsimp only
  with_reducible repeat' (first | intro _ | assumption | exact State.Frame.refl _ | apply State.setReg_frame | apply f_foldN)

theorem State.dieErase_frame {s0 : State} {s : State} {d : Nat} (h0 : s0.Frame P s) (p_regs : P .regs) (p_core : P .core)
    (p_die : P .die) (p_meter : P .meter) (p_io : P .io) :
    s0.Frame P (State.dieErase s d) := by
  unfold State.dieErase
  try dsimp only
  with_reducible repeat' (first
    | (intro (p : Part) hp; cases p <;> first | rfl | contradiction) | intro _ | assumption | exact State.Frame.refl _
    | apply State.resetRange_frame | apply State.dropFiles_frame | apply State.setCoreBit_frame
    | apply State.dieCounters_frame | apply f_ite | apply f_foldN | apply f_regs | apply f_mem | apply f_mk)

theorem State.dieNet_frame {s0 : State} {s : State} {d : Nat} (h0 : s0.Frame P s) (p_net : P .net) :
    s0.Frame P (State.dieNet s d) := by
  unfold State.dieNet
  try dsimp only
  with_reducible repeat' (first
    | (intro (p : Part) hp; cases p <;> first | rfl | contradiction) | intro _ | assumption | exact State.Frame.refl _
    | apply f_regs | apply f_mem | apply f_mk)

theorem State.dieLost_frame {s0 : State} {s : State} {d : Nat} (h0 : s0.Frame P s) (p_regs : P .regs) (p_mem : P .mem)
    (p_marked : P .marked) (p_net : P .net) (p_free : P .free) (p_core : P .core) (p_die : P .die) (p_home : P .home)
    (p_pass : P .pass) (p_mesa : P .mesa) (p_meter : P .meter) (p_qos : P .qos) (p_io : P .io) (p_ras : P .ras)
    (p_tvx : P .tvx) :
    s0.Frame P (State.dieLost s d) := by
  unfold State.dieLost
  try dsimp only
  with_reducible repeat' (first
    | (intro (p : Part) hp; cases p <;> first | rfl | contradiction) | intro _ | assumption | exact State.Frame.refl _
    | apply State.put_frame | apply State.dieErase_frame | apply State.dieNet_frame | apply State.setDieCtl_frame
    | apply State.homesDieLost_frame | apply State.logEvent_frame | apply State.longEnd_frame | apply f_ite
    | (apply f_mk; first | assumption | exact State.Frame.refl _ | apply State.put_frame | apply State.dieErase_frame | apply State.dieNet_frame | apply State.setDieCtl_frame | apply State.homesDieLost_frame | apply State.logEvent_frame | apply State.longEnd_frame | apply f_ite)
    | split)

end Sys2Proof.Machine
end

