-- ==== Sys2Proof/Laws/FramePass.lean ====
section
/-!
SUPPORT. What each function of Machine/Pass.lean leaves alone (`State.Frame`, Safety.lean): one lemma for each.
-/

namespace Sys2Proof.Machine

variable {P : Part → Prop}

theorem State.setPassState_frame {s0 : State} {s : State} {p : Nat} {st : Nat} (h0 : s0.Frame P s) (p_regs : P .regs) :
    s0.Frame P (State.setPassState s p st) := by
  unfold State.setPassState
  try dsimp only
  with_reducible repeat' (first | intro _ | assumption | exact State.Frame.refl _ | apply State.put_frame | apply State.putB_frame | apply f_ite)

theorem State.passEvent_frame {s0 : State} {s : State} {p : Nat} {f : Nat → Nat → FRef} (h0 : s0.Frame P s)
    (p_regs : P .regs) :
    s0.Frame P (State.passEvent s p f) := by
  unfold State.passEvent
  try dsimp only
  with_reducible repeat' (first | intro _ | assumption | exact State.Frame.refl _ | apply State.put_frame)

theorem State.installMap_frame {s0 : State} {s : State} {p : Nat} {c : Nat} {up : List Nat} {down : List Nat} {gUp : Nat}
    {gDown : Nat} (h0 : s0.Frame P s) (p_regs : P .regs) (p_pass : P .pass) :
    s0.Frame P (State.installMap s p c up down gUp gDown) := by
  unfold State.installMap
  try dsimp only
  with_reducible repeat' (first | intro _ | assumption | exact State.Frame.refl _ | apply State.setPEnd_frame | apply State.put_frame)

theorem State.passStatus_frame {s0 : State} {s : State} {p : Nat} (h0 : s0.Frame P s) (p_regs : P .regs) :
    s0.Frame P (State.passStatus s p) := by
  unfold State.passStatus
  try dsimp only
  with_reducible repeat' (first | intro _ | assumption | exact State.Frame.refl _ | apply State.put_frame | apply State.putB_frame | split)

theorem State.ctlSend_frame {s0 : State} {s : State} {e : Nat} {p : Nat} {ctype : Nat} {a : Nat} {b : Nat}
    (h0 : s0.Frame P s) (p_pass : P .pass) :
    s0.Frame P (State.ctlSend s e p ctype a b) := by
  unfold State.ctlSend
  try dsimp only
  with_reducible repeat' (first | intro _ | assumption | exact State.Frame.refl _ | apply State.setPEnd_frame)

theorem State.ctlDone_frame {s0 : State} {s : State} {e : Nat} {p : Nat} {ctype : Nat} {a : Nat} (h0 : s0.Frame P s)
    (p_pass : P .pass) :
    s0.Frame P (State.ctlDone s e p ctype a) := by
  unfold State.ctlDone
  try dsimp only
  with_reducible repeat' (first | intro _ | assumption | exact State.Frame.refl _ | apply State.setPEnd_frame)

theorem State.wantRetrain_frame {s0 : State} {s : State} {e : Nat} {p : Nat} {reason : Nat} (h0 : s0.Frame P s)
    (p_pass : P .pass) :
    s0.Frame P (State.wantRetrain s e p reason) := by
  unfold State.wantRetrain
  try dsimp only
  with_reducible repeat' (first | intro _ | assumption | exact State.Frame.refl _ | apply State.ctlSend_frame | apply State.setPEnd_frame | apply f_ite)

theorem State.dieWarn_frame {s0 : State} {s : State} {d : Nat} (h0 : s0.Frame P s) (p_regs : P .regs) (p_pass : P .pass)
    (p_tvx : P .tvx) :
    s0.Frame P (State.dieWarn s d) := by
  unfold State.dieWarn
  try dsimp only
  with_reducible repeat' (first
    | (intro (p : Part) hp; cases p <;> first | rfl | contradiction) | intro _ | assumption | exact State.Frame.refl _
    | apply State.logEvent_frame | apply f_ite | apply f_regs | apply f_mem | apply f_mk)

theorem State.passClear_frame {s0 : State} {s : State} {p : Nat} {st : Nat} (h0 : s0.Frame P s) (p_regs : P .regs)
    (p_pass : P .pass) :
    s0.Frame P (State.passClear s p st) := by
  unfold State.passClear
  try dsimp only
  with_reducible repeat' (first
    | intro _ | assumption | exact State.Frame.refl _ | apply State.setPEnd_frame | apply State.setPPort_frame
    | apply State.put_frame | apply State.passStatus_frame | apply State.setPassState_frame)

theorem State.passStart_frame {s0 : State} {s : State} {p : Nat} {keep : Bool} (h0 : s0.Frame P s) (p_regs : P .regs)
    (p_pass : P .pass) :
    s0.Frame P (State.passStart s p keep) := by
  unfold State.passStart
  try dsimp only
  with_reducible repeat' (first
    | intro _ | assumption | exact State.Frame.refl _ | apply State.passClear_frame | apply State.setPPort_frame
    | apply State.setPEnd_frame | apply State.put_frame | apply State.bump_frame | apply f_ite)

theorem State.handStart_frame {s0 : State} {s : State} {p : Nat} (h0 : s0.Frame P s) (p_pass : P .pass) :
    s0.Frame P (State.handStart s p) := by
  unfold State.handStart
  try dsimp only
  with_reducible repeat' (first
    | intro _ | assumption | exact State.Frame.refl _ | apply State.setPPort_frame | apply State.setPEnd_frame
    | apply State.ctlSend_frame)

theorem State.regDone_frame {s0 : State} {s : State} {a : RegAsk} {v : Nat} {refused : Bool} (h0 : s0.Frame P s)
    (p_regs : P .regs) (p_free : P .free) (p_core : P .core) :
    s0.Frame P (State.regDone s a v refused) := by
  unfold State.regDone
  try dsimp only
  with_reducible repeat' (first
    | intro _ | assumption | exact State.Frame.refl _ | apply State.setHart_frame | apply State.trapHart_frame
    | apply State.setOut_frame | apply State.retire_frame | apply f_ite | split)

theorem State.passDieClear_frame {s0 : State} {s : State} {d : Nat} (h0 : s0.Frame P s) (p_regs : P .regs)
    (p_free : P .free) (p_core : P .core) (p_pass : P .pass) :
    s0.Frame P (State.passDieClear s d) := by
  unfold State.passDieClear
  try dsimp only
  with_reducible repeat' (first
    | (intro (p : Part) hp; cases p <;> first | rfl | contradiction) | intro _ | assumption | exact State.Frame.refl _
    | apply State.setPEnd_frame | apply State.setStrm_frame | apply State.regDone_frame | apply f_foldN | apply f_foldl
    | apply f_regs | apply f_mem | apply f_mk)

theorem State.renegNext_frame {s0 : State} {s : State} (h0 : s0.Frame P s) (p_pass : P .pass) :
    s0.Frame P (State.renegNext s) := by
  unfold State.renegNext
  try dsimp only
  with_reducible repeat' (first
    | (intro (p : Part) hp; cases p <;> first | rfl | contradiction) | intro _ | assumption | exact State.Frame.refl _
    | apply State.wantRetrain_frame
    | (apply f_mk; first | assumption | exact State.Frame.refl _ | apply State.wantRetrain_frame) | split)

theorem State.renegDone_frame {s0 : State} {s : State} {p : Nat} (h0 : s0.Frame P s) (p_pass : P .pass) :
    s0.Frame P (State.renegDone s p) := by
  unfold State.renegDone
  try dsimp only
  with_reducible repeat' (first
    | (intro (p : Part) hp; cases p <;> first | rfl | contradiction) | intro _ | assumption | exact State.Frame.refl _
    | apply State.renegNext_frame | apply f_ite | apply f_mk)

theorem State.passReneg_frame {s0 : State} {s : State} (h0 : s0.Frame P s) (p_pass : P .pass) :
    s0.Frame P (State.passReneg s) := by
  unfold State.passReneg
  try dsimp only
  with_reducible repeat' (first
    | (intro (p : Part) hp; cases p <;> first | rfl | contradiction) | intro _ | assumption | exact State.Frame.refl _
    | apply State.renegNext_frame | apply f_mk)

theorem State.keepTrain_frame {s0 : State} {s : State} {p : Nat} (h0 : s0.Frame P s) (p_regs : P .regs) (p_pass : P .pass)
    (p_tvx : P .tvx) :
    s0.Frame P (State.keepTrain s p) := by
  unfold State.keepTrain
  try dsimp only
  with_reducible repeat' (first
    | intro _ | assumption | exact State.Frame.refl _ | apply State.setPPort_frame | apply State.passStart_frame
    | apply State.logEvent_frame)

theorem State.passRetire_frame {s0 : State} {s : State} {p : Nat} (h0 : s0.Frame P s) (p_regs : P .regs) (p_mem : P .mem)
    (p_marked : P .marked) (p_net : P .net) (p_free : P .free) (p_core : P .core) (p_die : P .die) (p_home : P .home)
    (p_pass : P .pass) (p_mesa : P .mesa) (p_meter : P .meter) (p_qos : P .qos) (p_io : P .io) (p_ras : P .ras)
    (p_tvx : P .tvx) :
    s0.Frame P (State.passRetire s p) := by
  unfold State.passRetire
  try dsimp only
  with_reducible repeat' (first
    | intro _ | assumption | exact State.Frame.refl _ | apply State.renegDone_frame | apply State.passClear_frame
    | apply State.passEvent_frame | apply State.dieWarn_frame | apply State.logEvent_frame | apply State.setPPort_frame
    | apply State.passDieClear_frame | apply State.dieLost_frame | apply State.put_frame | apply State.handStart_frame
    | apply State.keepTrain_frame | apply f_ite)

theorem State.trainFail_frame {s0 : State} {s : State} {p : Nat} {cause : Nat} (h0 : s0.Frame P s) (p_regs : P .regs)
    (p_mem : P .mem) (p_marked : P .marked) (p_net : P .net) (p_free : P .free) (p_core : P .core) (p_die : P .die)
    (p_home : P .home) (p_pass : P .pass) (p_mesa : P .mesa) (p_meter : P .meter) (p_qos : P .qos) (p_io : P .io)
    (p_ras : P .ras) (p_tvx : P .tvx) :
    s0.Frame P (State.trainFail s p cause) := by
  unfold State.trainFail
  try dsimp only
  with_reducible repeat' (first
    | intro _ | assumption | exact State.Frame.refl _ | apply State.put_frame | apply State.setPPort_frame
    | apply State.passRetire_frame | apply State.passStart_frame | apply f_ite)

theorem State.escalate_frame {s0 : State} {s : State} {p : Nat} {trig : Nat} (h0 : s0.Frame P s) (p_regs : P .regs)
    (p_pass : P .pass) (p_tvx : P .tvx) :
    s0.Frame P (State.escalate s p trig) := by
  unfold State.escalate
  try dsimp only
  with_reducible repeat' (first
    | intro _ | assumption | exact State.Frame.refl _ | apply State.passEvent_frame | apply State.renegDone_frame
    | apply State.passClear_frame | apply State.setPPort_frame | apply State.keepTrain_frame | apply State.handStart_frame
    | apply State.passStart_frame | apply f_ite)

theorem State.swapStart_frame {s0 : State} {s : State} {p : Nat} {down : Bool} {log : Nat} (h0 : s0.Frame P s)
    (p_pass : P .pass) :
    s0.Frame P (State.swapStart s p down log) := by
  unfold State.swapStart
  try dsimp only
  with_reducible repeat' (first
    | intro _ | assumption | exact State.Frame.refl _ | apply State.setPPort_frame | apply State.setPEnd_frame
    | apply State.ctlSend_frame | apply State.wantRetrain_frame | apply f_ite | split)

theorem State.laneHandle_frame {s0 : State} {s : State} {p : Nat} {down : Bool} {lane : Nat} (h0 : s0.Frame P s)
    (p_regs : P .regs) (p_mem : P .mem) (p_marked : P .marked) (p_net : P .net) (p_free : P .free) (p_core : P .core)
    (p_die : P .die) (p_home : P .home) (p_pass : P .pass) (p_mesa : P .mesa) (p_meter : P .meter) (p_qos : P .qos)
    (p_io : P .io) (p_ras : P .ras) (p_tvx : P .tvx) :
    s0.Frame P (State.laneHandle s p down lane) := by
  unfold State.laneHandle
  try dsimp only
  with_reducible repeat' (first
    | intro _ | assumption | exact State.Frame.refl _ | apply State.passRetire_frame | apply State.setPPort_frame
    | apply State.ctlDone_frame | apply State.swapStart_frame | apply f_ite | split)

theorem State.attemptFail_frame {s0 : State} {s : State} {p : Nat} (h0 : s0.Frame P s) (p_regs : P .regs) (p_pass : P .pass)
    :
    s0.Frame P (State.attemptFail s p) := by
  unfold State.attemptFail
  try dsimp only
  with_reducible repeat' (first
    | intro _ | assumption | exact State.Frame.refl _ | apply State.passEvent_frame | apply State.setPPort_frame
    | apply State.put_frame | apply State.setPassState_frame | apply f_ite)

theorem State.basinMark_frame {s0 : State} {s : State} {p : Nat} {down : Bool} {lane : Nat} (h0 : s0.Frame P s)
    (p_regs : P .regs) (p_mem : P .mem) (p_marked : P .marked) (p_net : P .net) (p_free : P .free) (p_core : P .core)
    (p_die : P .die) (p_home : P .home) (p_pass : P .pass) (p_mesa : P .mesa) (p_meter : P .meter) (p_qos : P .qos)
    (p_io : P .io) (p_ras : P .ras) (p_tvx : P .tvx) :
    s0.Frame P (State.basinMark s p down lane) := by
  unfold State.basinMark
  try dsimp only
  with_reducible repeat' (first
    | intro _ | assumption | exact State.Frame.refl _ | apply State.setPEnd_frame | apply State.setPPort_frame
    | apply State.laneHandle_frame | apply State.passRetire_frame | apply State.attemptFail_frame
    | apply State.trainFail_frame | apply f_ite)

theorem State.laneFail_frame {s0 : State} {s : State} {e : Nat} {p : Nat} {lane : Nat} (h0 : s0.Frame P s)
    (p_regs : P .regs) (p_mem : P .mem) (p_marked : P .marked) (p_net : P .net) (p_free : P .free) (p_core : P .core)
    (p_die : P .die) (p_home : P .home) (p_pass : P .pass) (p_mesa : P .mesa) (p_meter : P .meter) (p_qos : P .qos)
    (p_io : P .io) (p_ras : P .ras) (p_tvx : P .tvx) :
    s0.Frame P (State.laneFail s e p lane) := by
  unfold State.laneFail
  try dsimp only
  with_reducible repeat' (first
    | intro _ | assumption | exact State.Frame.refl _ | apply State.setPEnd_frame | apply State.laneEvent_frame
    | apply State.basinMark_frame | apply State.ctlSend_frame | apply f_ite)

theorem State.flitFault_frame {s0 : State} {s : State} {e : Nat} {p : Nat} (h0 : s0.Frame P s) (p_regs : P .regs)
    (p_mem : P .mem) (p_marked : P .marked) (p_net : P .net) (p_free : P .free) (p_core : P .core) (p_die : P .die)
    (p_home : P .home) (p_pass : P .pass) (p_mesa : P .mesa) (p_meter : P .meter) (p_qos : P .qos) (p_io : P .io)
    (p_ras : P .ras) (p_tvx : P .tvx) :
    s0.Frame P (State.flitFault s e p) := by
  unfold State.flitFault
  try dsimp only
  with_reducible repeat' (first
    | intro _ | assumption | exact State.Frame.refl _ | apply State.laneFail_frame | apply State.setPPort_frame
    | apply State.wantRetrain_frame | apply f_ite | apply f_foldl | split)

theorem State.onWire_frame {s0 : State} {s : State} {e : Nat} {p : Nat} {f : Flit} (h0 : s0.Frame P s) (p_pass : P .pass) :
    s0.Frame P (State.onWire s e p f) := by
  unfold State.onWire
  try dsimp only
  with_reducible repeat' (first | intro _ | assumption | exact State.Frame.refl _ | apply State.setPEnd_frame)

theorem State.flitHeader_frame {s0 : State} {s : State} {e : Nat} {p : Nat} {f : Flit} (h0 : s0.Frame P s)
    (p_regs : P .regs) (p_pass : P .pass) :
    s0.Frame P (State.flitHeader s e p f) := by
  unfold State.flitHeader
  try dsimp only
  with_reducible repeat' (first
    | intro _ | assumption | exact State.Frame.refl _ | apply State.setPEnd_frame | apply State.count_frame
    | apply State.bump_frame | apply f_ite)

theorem State.flitNak_frame {s0 : State} {s : State} {e : Nat} {p : Nat} (h0 : s0.Frame P s) (p_pass : P .pass) :
    s0.Frame P (State.flitNak s e p) := by
  unfold State.flitNak
  try dsimp only
  with_reducible repeat' (first
    | intro _ | assumption | exact State.Frame.refl _ | apply State.setPEnd_frame | apply State.wantRetrain_frame
    | apply f_ite)

theorem State.linkLeaves_frame {s0 : State} {s : State} {m : LinkMsg} (h0 : s0.Frame P s) (p_pass : P .pass)
    (p_hzn : P .hzn) :
    s0.Frame P (State.linkLeaves s m) := by
  unfold State.linkLeaves
  try dsimp only
  with_reducible repeat' (first
    | intro _ | assumption | exact State.Frame.refl _ | apply State.hznConsume_frame | apply State.rxConsume_frame
    | apply f_ite | split)

theorem State.flitSent_frame {s0 : State} {s : State} {e : Nat} {p : Nat} {f : Flit} (h0 : s0.Frame P s) (p_regs : P .regs)
    (p_pass : P .pass) (p_hzn : P .hzn) :
    FrameOpt P s0 (State.flitSent s e p f) := by
  unfold State.flitSent
  try dsimp only
  with_reducible repeat' (first
    | intro _ | assumption | exact State.Frame.refl _ | apply State.linkLeaves_frame | apply State.setPEnd_frame
    | apply State.setStrm_frame | apply State.count_frame | apply fp_ite | apply f_ite | apply f_foldN | apply f_foldl
    | apply fp_some | apply fp_none | split)

theorem State.deliverMsgs_frame {s0 : State} {s : State} {d : Nat} {z2 : List LinkMsg} (h0 : s0.Frame P s) (p_net : P .net)
    (p_pass : P .pass) :
    s0.Frame P (State.deliverMsgs s d z2) := by
  induction z2 generalizing s d with
  | nil =>
    unfold State.deliverMsgs
    try dsimp only
    with_reducible repeat' (first
      | (intro (p : Part) hp; cases p <;> first | rfl | contradiction) | intro _ | assumption | exact State.Frame.refl _
      | apply State.send_frame | apply f_ite
      | (apply f_mk; first | assumption | exact State.Frame.refl _ | apply State.send_frame | apply f_ite) | split)
  | cons e l ih =>
    cases e <;> (
      unfold State.deliverMsgs
      try dsimp only
      with_reducible repeat' (first
        | (intro (p : Part) hp; cases p <;> first | rfl | contradiction) | intro _ | assumption | exact State.Frame.refl _
        | apply State.send_frame | apply f_ite
        | (apply f_mk; first | assumption | exact State.Frame.refl _ | apply State.send_frame | apply f_ite) | split | apply ih))


theorem State.mergeFlits_frame {s0 : State} {s : State} {d : Nat} {dir : Nat} {z3 : Nat} (h0 : s0.Frame P s)
    (p_net : P .net) (p_pass : P .pass) :
    s0.Frame P (State.mergeFlits s d dir z3) := by
  induction z3 generalizing s d dir with
  | zero =>
    unfold State.mergeFlits
    try dsimp only
    with_reducible repeat' (first | intro _ | assumption | exact State.Frame.refl _ | apply State.setStrm_frame | apply State.deliverMsgs_frame | split)
  | succ k ih =>
    unfold State.mergeFlits
    try dsimp only
    with_reducible repeat' (first | intro _ | assumption | exact State.Frame.refl _ | apply State.setStrm_frame | apply State.deliverMsgs_frame | split | apply ih)


theorem State.flitAccept_frame {s0 : State} {s : State} {e : Nat} {p : Nat} {f : Flit} (h0 : s0.Frame P s)
    (p_regs : P .regs) (p_net : P .net) (p_pass : P .pass) :
    s0.Frame P (State.flitAccept s e p f) := by
  unfold State.flitAccept
  try dsimp only
  with_reducible repeat' (first
    | intro _ | assumption | exact State.Frame.refl _ | apply State.setPEnd_frame | apply State.put_frame
    | apply State.setStrm_frame | apply State.mergeFlits_frame | apply f_ite | apply f_foldl | split)

theorem State.flitDiscard_frame {s0 : State} {s : State} {e : Nat} {p : Nat} {f : Flit} (h0 : s0.Frame P s)
    (p_regs : P .regs) (p_net : P .net) (p_free : P .free) (p_core : P .core) (p_pass : P .pass) (p_ras : P .ras)
    (p_tvx : P .tvx) :
    s0.Frame P (State.flitDiscard s e p f) := by
  unfold State.flitDiscard
  try dsimp only
  with_reducible repeat' (first
    | intro _ | assumption | exact State.Frame.refl _ | apply State.flitAccept_frame | apply State.errRecord_frame
    | apply State.put_frame | apply f_ite)

theorem State.flitTake_frame {s0 : State} {s : State} {e : Nat} {p : Nat} {f : Flit} (h0 : s0.Frame P s) (p_regs : P .regs)
    (p_net : P .net) (p_free : P .free) (p_core : P .core) (p_pass : P .pass) (p_ras : P .ras) (p_tvx : P .tvx) :
    s0.Frame P (State.flitTake s e p f) := by
  unfold State.flitTake
  try dsimp only
  with_reducible repeat' (first
    | intro _ | assumption | exact State.Frame.refl _ | apply State.flitDiscard_frame | apply State.flitHeader_frame
    | apply State.flitAccept_frame | apply f_ite)

theorem State.flitBad_frame {s0 : State} {s : State} {e : Nat} {p : Nat} (h0 : s0.Frame P s) (p_regs : P .regs)
    (p_mem : P .mem) (p_marked : P .marked) (p_net : P .net) (p_free : P .free) (p_core : P .core) (p_die : P .die)
    (p_home : P .home) (p_pass : P .pass) (p_mesa : P .mesa) (p_meter : P .meter) (p_qos : P .qos) (p_io : P .io)
    (p_ras : P .ras) (p_tvx : P .tvx) :
    s0.Frame P (State.flitBad s e p) := by
  unfold State.flitBad
  try dsimp only
  with_reducible repeat' (first
    | intro _ | assumption | exact State.Frame.refl _ | apply State.count_frame | apply State.bump_frame
    | apply State.charge_frame | apply State.flitFault_frame | apply State.passStatus_frame | apply State.flitNak_frame
    | apply f_ite | apply f_ite_fst | apply f_ite_snd)

theorem execPassPayloadFlit_frame {s0 : State} {e : End} {p : Port} {f : Flit} {s : State} (h0 : s0.Frame P s)
    (p_regs : P .regs) (p_mem : P .mem) (p_marked : P .marked) (p_net : P .net) (p_free : P .free) (p_core : P .core)
    (p_die : P .die) (p_home : P .home) (p_pass : P .pass) (p_mesa : P .mesa) (p_meter : P .meter) (p_qos : P .qos)
    (p_hzn : P .hzn) (p_io : P .io) (p_ras : P .ras) (p_tvx : P .tvx) :
    FrameOut P s0 (execPassPayloadFlit e p f s) := by
  unfold execPassPayloadFlit
  try dsimp only
  with_reducible repeat' (first
    | intro _ | assumption | exact State.Frame.refl _ | apply State.flitSent_frame | apply State.count_frame
    | apply State.onWire_frame | apply State.flitBad_frame | apply State.flitTake_frame | apply fo_ite | apply f_ite
    | apply fo_next | apply fo_fault | apply fp_some | apply fp_ite | refine f_of_snd (by assumption) ?_
    | refine f_of_fst (by assumption) ?_ | refine f_of_some (by assumption) ?_ | split)

theorem execPassIdleFlit_frame {s0 : State} {e : End} {p : Port} {f : Flit} {s : State} (h0 : s0.Frame P s)
    (p_regs : P .regs) (p_net : P .net) (p_free : P .free) (p_core : P .core) (p_pass : P .pass) (p_ras : P .ras)
    (p_tvx : P .tvx) :
    FrameOut P s0 (execPassIdleFlit e p f s) := by
  unfold execPassIdleFlit
  try dsimp only
  with_reducible repeat' (first
    | intro _ | assumption | exact State.Frame.refl _ | apply State.onWire_frame | apply execPassPayloadFlit_frame
    | apply State.passStatus_frame | apply State.flitNak_frame | apply State.flitTake_frame | apply fo_ite | apply f_ite
    | apply fo_next | apply fo_fault | refine f_of_next (by assumption) ?_ | split)

theorem execPassReplayTimeout_frame {s0 : State} {e : End} {p : Port} {s : State} (h0 : s0.Frame P s) (p_regs : P .regs)
    (p_pass : P .pass) :
    FrameOut P s0 (execPassReplayTimeout e p s) := by
  unfold execPassReplayTimeout
  try dsimp only
  with_reducible repeat' (first
    | intro _ | assumption | exact State.Frame.refl _ | apply State.count_frame | apply State.bump_frame | apply fo_ite
    | apply f_ite | apply fo_next | apply fo_fault)

theorem execPassControlResend_frame {s0 : State} {e : End} {p : Port} {s : State} (h0 : s0.Frame P s) (p_pass : P .pass) :
    FrameOut P s0 (execPassControlResend e p s) := by
  unfold execPassControlResend
  try dsimp only
  with_reducible repeat' (first | intro _ | assumption | exact State.Frame.refl _ | apply State.setPEnd_frame | apply fo_next | apply fo_fault)

theorem State.control_frame {s0 : State} {s : State} {e : Nat} {p : Nat} {hd : Flit} {ctype : Nat} {args : List Nat}
    {act : State → List Nat → State} {lost : State → State} (h0 : s0.Frame P s)
    (hp_act : ∀ (u : State) (y0 : State) (y1 : List Nat), u.Frame P y0 → u.Frame P (act y0 y1))
    (hp_lost : ∀ (u : State) (y0 : State), u.Frame P y0 → u.Frame P (lost y0)) (p_regs : P .regs) (p_pass : P .pass) :
    FrameOut P s0 (State.control s e p hd ctype args act lost) := by
  unfold State.control
  try dsimp only
  with_reducible repeat' (first
    | intro _ | assumption | exact State.Frame.refl _ | apply State.onWire_frame | apply State.passStatus_frame
    | apply State.flitNak_frame | apply State.flitHeader_frame | apply hp_act | apply hp_lost | apply fo_ite | apply f_ite
    | apply fo_next | apply fo_fault | split)

theorem State.laneScore_frame {s0 : State} {s : State} {e : Nat} {p : Nat} {bad : Nat → Bool} (h0 : s0.Frame P s)
    (p_regs : P .regs) (p_mem : P .mem) (p_marked : P .marked) (p_net : P .net) (p_free : P .free) (p_core : P .core)
    (p_die : P .die) (p_home : P .home) (p_pass : P .pass) (p_mesa : P .mesa) (p_meter : P .meter) (p_qos : P .qos)
    (p_io : P .io) (p_ras : P .ras) (p_tvx : P .tvx) :
    s0.Frame P (State.laneScore s e p bad) := by
  unfold State.laneScore
  try dsimp only
  with_reducible repeat' (first
    | intro _ | assumption | exact State.Frame.refl _ | apply State.setPEnd_frame | apply State.charge_frame
    | apply State.laneFail_frame | apply f_ite | apply f_ite_fst | apply f_ite_snd | apply f_foldN)

theorem execLaneCheck_frame {s0 : State} {e : End} {p : Port} {hd : Flit} {crcs : List Nat} {s : State} (h0 : s0.Frame P s)
    (p_regs : P .regs) (p_mem : P .mem) (p_marked : P .marked) (p_net : P .net) (p_free : P .free) (p_core : P .core)
    (p_die : P .die) (p_home : P .home) (p_pass : P .pass) (p_mesa : P .mesa) (p_meter : P .meter) (p_qos : P .qos)
    (p_io : P .io) (p_ras : P .ras) (p_tvx : P .tvx) :
    FrameOut P s0 (execLaneCheck e p hd crcs s) := by
  unfold execLaneCheck
  try dsimp only
  with_reducible repeat' (first
    | intro _ | assumption | exact State.Frame.refl _ | apply State.control_frame | apply State.setPEnd_frame
    | apply State.laneScore_frame | apply fo_ite | apply f_ite | apply fo_next | apply fo_fault)

theorem execSwapReq_frame {s0 : State} {p : Port} {hd : Flit} {lane : Fin 68} {s : State} (h0 : s0.Frame P s)
    (p_regs : P .regs) (p_mem : P .mem) (p_marked : P .marked) (p_net : P .net) (p_free : P .free) (p_core : P .core)
    (p_die : P .die) (p_home : P .home) (p_pass : P .pass) (p_mesa : P .mesa) (p_meter : P .meter) (p_qos : P .qos)
    (p_io : P .io) (p_ras : P .ras) (p_tvx : P .tvx) :
    FrameOut P s0 (execSwapReq p hd lane s) := by
  unfold execSwapReq
  try dsimp only
  with_reducible repeat' (first
    | intro _ | assumption | exact State.Frame.refl _ | apply State.control_frame | apply State.basinMark_frame
    | apply State.ctlDone_frame | apply fo_next | apply fo_fault | apply f_id)

theorem execSwapCmd_frame {s0 : State} {p : Port} {hd : Flit} {lane : Fin 68} {spare : Fin 68} {s : State}
    (h0 : s0.Frame P s) (p_regs : P .regs) (p_pass : P .pass) :
    FrameOut P s0 (execSwapCmd p hd lane spare s) := by
  unfold execSwapCmd
  try dsimp only
  with_reducible repeat' (first
    | intro _ | assumption | exact State.Frame.refl _ | apply State.control_frame | apply State.setPEnd_frame
    | apply State.ctlSend_frame | apply State.ctlDone_frame | apply State.setPPort_frame | apply fo_ite | apply f_ite
    | apply fo_next | apply fo_fault | apply f_id | refine f_of_next (by assumption) ?_ | split)

theorem State.spared_frame {s0 : State} {s : State} {e : Nat} {p : Nat} (h0 : s0.Frame P s) (p_regs : P .regs)
    (p_tvx : P .tvx) :
    s0.Frame P (State.spared s e p) := by
  unfold State.spared
  try dsimp only
  with_reducible repeat' (first | intro _ | assumption | exact State.Frame.refl _ | apply State.put_frame | apply State.logEvent_frame | apply f_ite)

theorem execSwapMark_frame {s0 : State} {e : End} {p : Port} {hd : Flit} {lane : Fin 68} {spare : Fin 68} {s : State}
    (h0 : s0.Frame P s) (p_regs : P .regs) (p_pass : P .pass) (p_tvx : P .tvx) :
    FrameOut P s0 (execSwapMark e p hd lane spare s) := by
  unfold execSwapMark
  try dsimp only
  with_reducible repeat' (first
    | intro _ | assumption | exact State.Frame.refl _ | apply State.control_frame | apply State.setPEnd_frame
    | apply State.spared_frame | apply State.setPPort_frame | apply fo_ite | apply f_ite | apply fo_next | apply fo_fault
    | apply f_id | refine f_of_next (by assumption) ?_ | split)

theorem execSwapDone_frame {s0 : State} {e : End} {p : Port} {hd : Flit} {lane : Fin 68} {spare : Fin 68} {s : State}
    (h0 : s0.Frame P s) (p_regs : P .regs) (p_mem : P .mem) (p_marked : P .marked) (p_net : P .net) (p_free : P .free)
    (p_core : P .core) (p_die : P .die) (p_home : P .home) (p_pass : P .pass) (p_mesa : P .mesa) (p_meter : P .meter)
    (p_qos : P .qos) (p_io : P .io) (p_ras : P .ras) (p_tvx : P .tvx) :
    FrameOut P s0 (execSwapDone e p hd lane spare s) := by
  unfold execSwapDone
  try dsimp only
  with_reducible repeat' (first
    | intro _ | assumption | exact State.Frame.refl _ | apply State.control_frame | apply State.setPPort_frame
    | apply State.spared_frame | apply State.ctlDone_frame | apply State.laneHandle_frame | apply fo_ite | apply f_ite
    | apply f_foldl | apply fo_next | apply fo_fault | apply f_id | refine f_of_next (by assumption) ?_ | split)

theorem execPassRetrainReq_frame {s0 : State} {e : End} {p : Port} {hd : Flit} {reason : Nat} {s : State}
    (h0 : s0.Frame P s) (p_regs : P .regs) (p_pass : P .pass) :
    FrameOut P s0 (execPassRetrainReq e p hd reason s) := by
  unfold execPassRetrainReq
  try dsimp only
  with_reducible repeat' (first
    | intro _ | assumption | exact State.Frame.refl _ | apply State.control_frame | apply State.setPEnd_frame
    | apply State.setPPort_frame | apply State.put_frame | apply State.bump_frame | apply State.setPassState_frame
    | apply fo_ite | apply f_ite | apply fo_next | apply fo_fault | apply f_id)

theorem execPassHandover_frame {s0 : State} {e : End} {p : Port} {hd : Flit} {named : Port} {seq : Nat} {s : State}
    (h0 : s0.Frame P s) (p_regs : P .regs) (p_pass : P .pass) :
    FrameOut P s0 (execPassHandover e p hd named seq s) := by
  unfold execPassHandover
  try dsimp only
  with_reducible repeat' (first
    | intro _ | assumption | exact State.Frame.refl _ | apply State.control_frame | apply State.setPEnd_frame
    | apply State.count_frame | apply State.bump_frame | apply fo_ite | apply f_ite | apply fo_next | apply fo_fault
    | apply f_id)

theorem execPassHandoverDone_frame {s0 : State} {e : End} {p : Port} {hd : Flit} {named : Port} {s : State}
    (h0 : s0.Frame P s) (p_regs : P .regs) (p_pass : P .pass) :
    FrameOut P s0 (execPassHandoverDone e p hd named s) := by
  unfold execPassHandoverDone
  try dsimp only
  with_reducible repeat' (first
    | intro _ | assumption | exact State.Frame.refl _ | apply State.control_frame | apply State.ctlDone_frame
    | apply State.setPEnd_frame | apply State.setPPort_frame | apply State.passStart_frame | apply fo_ite | apply f_ite
    | apply fo_next | apply fo_fault | apply f_id)

theorem execTsAlign_frame {s0 : State} {_e : End} {_p : Port} {_err : List (Nat × Nat)} {s : State} (h0 : s0.Frame P s) :
    FrameOut P s0 (execTsAlign _e _p _err s) := by
  unfold execTsAlign
  try dsimp only
  with_reducible repeat' (first | intro _ | assumption | exact State.Frame.refl _ | apply fo_next | apply fo_fault)

theorem State.mapWord_frame {s0 : State} {s : State} {p : Nat} {kind : Nat} {lanes : Nat} {body : Nat}
    {err : List (Nat × Nat)} {act : State → Nat → State} (h0 : s0.Frame P s)
    (hp_act : ∀ (u : State) (y0 : State) (y1 : Nat), u.Frame P y0 → u.Frame P (act y0 y1)) (p_regs : P .regs)
    (p_pass : P .pass) :
    FrameOut P s0 (State.mapWord s p kind lanes body err act) := by
  unfold State.mapWord
  try dsimp only
  with_reducible repeat' (first
    | intro _ | assumption | exact State.Frame.refl _ | apply State.attemptFail_frame | apply hp_act | apply fo_ite
    | apply f_ite | apply fo_next | apply fo_fault | split)

theorem execTsRxgood_frame {s0 : State} {p : Port} {err : List (Nat × Nat)} {s : State} (h0 : s0.Frame P s)
    (p_regs : P .regs) (p_mem : P .mem) (p_marked : P .marked) (p_net : P .net) (p_free : P .free) (p_core : P .core)
    (p_die : P .die) (p_home : P .home) (p_pass : P .pass) (p_mesa : P .mesa) (p_meter : P .meter) (p_qos : P .qos)
    (p_io : P .io) (p_ras : P .ras) (p_tvx : P .tvx) :
    FrameOut P s0 (execTsRxgood p err s) := by
  unfold execTsRxgood
  try dsimp only
  with_reducible repeat' (first
    | intro _ | assumption | exact State.Frame.refl _ | apply State.mapWord_frame | apply State.setPPort_frame
    | apply State.trainFail_frame | apply State.passStatus_frame | apply State.basinMark_frame | apply fo_ite | apply f_ite
    | apply f_foldN | apply fo_next | apply fo_fault)

theorem execTsMap_frame {s0 : State} {p : Port} {err : List (Nat × Nat)} {s : State} (h0 : s0.Frame P s) (p_regs : P .regs)
    (p_mem : P .mem) (p_marked : P .marked) (p_net : P .net) (p_free : P .free) (p_core : P .core) (p_die : P .die)
    (p_home : P .home) (p_pass : P .pass) (p_mesa : P .mesa) (p_meter : P .meter) (p_qos : P .qos) (p_io : P .io)
    (p_ras : P .ras) (p_tvx : P .tvx) :
    FrameOut P s0 (execTsMap p err s) := by
  unfold execTsMap
  try dsimp only
  with_reducible repeat' (first
    | intro _ | assumption | exact State.Frame.refl _ | apply State.trainFail_frame | apply State.passRetire_frame
    | apply State.mapWord_frame | apply State.passEvent_frame | apply State.setPEnd_frame | apply State.passStatus_frame
    | apply State.setPPort_frame | apply fo_ite | apply f_ite | apply fo_next | apply fo_fault
    | refine f_of_next (by assumption) ?_ | split)

theorem State.mapAgreed_frame {s0 : State} {s : State} {p : Nat} {fb : Bool} (h0 : s0.Frame P s) (p_regs : P .regs)
    (p_pass : P .pass) :
    s0.Frame P (State.mapAgreed s p fb) := by
  unfold State.mapAgreed
  try dsimp only
  with_reducible repeat' (first
    | intro _ | assumption | exact State.Frame.refl _ | apply State.putB_frame | apply State.put_frame
    | apply State.setPPort_frame | apply State.setPassState_frame | apply State.passStatus_frame | apply f_ite)

theorem execTsMapsum_frame {s0 : State} {p : Port} {err : List (Nat × Nat)} {s : State} (h0 : s0.Frame P s)
    (p_regs : P .regs) (p_mem : P .mem) (p_marked : P .marked) (p_net : P .net) (p_free : P .free) (p_core : P .core)
    (p_die : P .die) (p_home : P .home) (p_pass : P .pass) (p_mesa : P .mesa) (p_meter : P .meter) (p_qos : P .qos)
    (p_io : P .io) (p_ras : P .ras) (p_tvx : P .tvx) :
    FrameOut P s0 (execTsMapsum p err s) := by
  unfold execTsMapsum
  try dsimp only
  with_reducible repeat' (first
    | intro _ | assumption | exact State.Frame.refl _ | apply execTsMap_frame | apply State.mapWord_frame
    | apply State.trainFail_frame | apply State.passRetire_frame | apply State.mapAgreed_frame
    | apply State.installMap_frame | apply State.attemptFail_frame | apply fo_ite | apply f_ite | apply fo_next
    | apply fo_fault | refine f_of_next (by assumption) ?_ | split)

theorem execTsOffer_frame {s0 : State} {p : Port} {up : List (Nat × Nat)} {down : List (Nat × Nat)} {s : State}
    (h0 : s0.Frame P s) (p_regs : P .regs) (p_mem : P .mem) (p_marked : P .marked) (p_net : P .net) (p_free : P .free)
    (p_core : P .core) (p_die : P .die) (p_home : P .home) (p_pass : P .pass) (p_mesa : P .mesa) (p_meter : P .meter)
    (p_qos : P .qos) (p_io : P .io) (p_ras : P .ras) (p_tvx : P .tvx) :
    FrameOut P s0 (execTsOffer p up down s) := by
  unfold execTsOffer
  try dsimp only
  with_reducible repeat' (first
    | intro _ | assumption | exact State.Frame.refl _ | apply State.mapAgreed_frame | apply State.installMap_frame
    | apply State.trainFail_frame | apply fo_ite | apply f_ite | apply fo_next | apply fo_fault | split)

theorem State.passActive_frame {s0 : State} {s : State} {p : Nat} (h0 : s0.Frame P s) (p_regs : P .regs) (p_mem : P .mem)
    (p_marked : P .marked) (p_net : P .net) (p_free : P .free) (p_core : P .core) (p_die : P .die) (p_home : P .home)
    (p_pass : P .pass) (p_mesa : P .mesa) (p_meter : P .meter) (p_qos : P .qos) (p_io : P .io) (p_ras : P .ras)
    (p_tvx : P .tvx) :
    s0.Frame P (State.passActive s p) := by
  unfold State.passActive
  try dsimp only
  with_reducible repeat' (first
    | intro _ | assumption | exact State.Frame.refl _ | apply State.setPassState_frame | apply State.setPEnd_frame
    | apply State.count_frame | apply State.bump_frame | apply State.setPPort_frame | apply State.passEvent_frame
    | apply State.logEvent_frame | apply State.dieWarn_frame | apply State.ctlSend_frame | apply State.laneHandle_frame
    | apply State.renegDone_frame | apply State.handStart_frame | apply f_ite | apply f_foldN | apply f_foldl)

theorem execTsConfig_frame {s0 : State} {e : End} {p : Port} {err : List (Nat × Nat)} {s : State} (h0 : s0.Frame P s)
    (p_regs : P .regs) (p_mem : P .mem) (p_marked : P .marked) (p_net : P .net) (p_free : P .free) (p_core : P .core)
    (p_die : P .die) (p_home : P .home) (p_pass : P .pass) (p_mesa : P .mesa) (p_meter : P .meter) (p_qos : P .qos)
    (p_io : P .io) (p_ras : P .ras) (p_tvx : P .tvx) :
    FrameOut P s0 (execTsConfig e p err s) := by
  unfold execTsConfig
  try dsimp only
  with_reducible repeat' (first
    | intro _ | assumption | exact State.Frame.refl _ | apply State.mapWord_frame | apply State.setPEnd_frame
    | apply State.passStatus_frame | apply State.passActive_frame | apply fo_ite | apply f_ite | apply f_foldl
    | apply fo_next | apply fo_fault | refine f_of_next (by assumption) ?_ | split)

theorem State.trainStep_frame {s0 : State} {s : State} {p : Nat} {st : Nat} {next : Nat} {up : Nat} {down : Nat}
    (h0 : s0.Frame P s) (p_regs : P .regs) (p_mem : P .mem) (p_marked : P .marked) (p_net : P .net) (p_free : P .free)
    (p_core : P .core) (p_die : P .die) (p_home : P .home) (p_pass : P .pass) (p_mesa : P .mesa) (p_meter : P .meter)
    (p_qos : P .qos) (p_io : P .io) (p_ras : P .ras) (p_tvx : P .tvx) :
    s0.Frame P (State.trainStep s p st next up down) := by
  unfold State.trainStep
  try dsimp only
  with_reducible repeat' (first
    | intro _ | assumption | exact State.Frame.refl _ | apply State.setPPort_frame | apply State.trainFail_frame
    | apply State.setPassState_frame | apply f_ite)

theorem execPassDetectDone_frame {s0 : State} {p : Port} {up : Nat} {down : Nat} {s : State} (h0 : s0.Frame P s)
    (p_regs : P .regs) (p_mem : P .mem) (p_marked : P .marked) (p_net : P .net) (p_free : P .free) (p_core : P .core)
    (p_die : P .die) (p_home : P .home) (p_pass : P .pass) (p_mesa : P .mesa) (p_meter : P .meter) (p_qos : P .qos)
    (p_io : P .io) (p_ras : P .ras) (p_tvx : P .tvx) :
    FrameOut P s0 (execPassDetectDone p up down s) := by
  unfold execPassDetectDone
  try dsimp only
  with_reducible repeat' (first | intro _ | assumption | exact State.Frame.refl _ | apply State.trainStep_frame | apply fo_next | apply fo_fault)

theorem execPassBitLockDone_frame {s0 : State} {p : Port} {up : Nat} {down : Nat} {s : State} (h0 : s0.Frame P s)
    (p_regs : P .regs) (p_mem : P .mem) (p_marked : P .marked) (p_net : P .net) (p_free : P .free) (p_core : P .core)
    (p_die : P .die) (p_home : P .home) (p_pass : P .pass) (p_mesa : P .mesa) (p_meter : P .meter) (p_qos : P .qos)
    (p_io : P .io) (p_ras : P .ras) (p_tvx : P .tvx) :
    FrameOut P s0 (execPassBitLockDone p up down s) := by
  unfold execPassBitLockDone
  try dsimp only
  with_reducible repeat' (first | intro _ | assumption | exact State.Frame.refl _ | apply State.trainStep_frame | apply fo_next | apply fo_fault)

theorem execPassEqualiseDone_frame {s0 : State} {p : Port} {s : State} (h0 : s0.Frame P s) (p_regs : P .regs)
    (p_mem : P .mem) (p_marked : P .marked) (p_net : P .net) (p_free : P .free) (p_core : P .core) (p_die : P .die)
    (p_home : P .home) (p_pass : P .pass) (p_mesa : P .mesa) (p_meter : P .meter) (p_qos : P .qos) (p_io : P .io)
    (p_ras : P .ras) (p_tvx : P .tvx) :
    FrameOut P s0 (execPassEqualiseDone p s) := by
  unfold execPassEqualiseDone
  try dsimp only
  with_reducible repeat' (first | intro _ | assumption | exact State.Frame.refl _ | apply State.trainStep_frame | apply fo_next | apply fo_fault)

theorem execPassLaneTestDone_frame {s0 : State} {p : Port} {upBad : Nat} {downBad : Nat} {s : State} (h0 : s0.Frame P s)
    (p_regs : P .regs) (p_mem : P .mem) (p_marked : P .marked) (p_net : P .net) (p_free : P .free) (p_core : P .core)
    (p_die : P .die) (p_home : P .home) (p_pass : P .pass) (p_mesa : P .mesa) (p_meter : P .meter) (p_qos : P .qos)
    (p_io : P .io) (p_ras : P .ras) (p_tvx : P .tvx) :
    FrameOut P s0 (execPassLaneTestDone p upBad downBad s) := by
  unfold execPassLaneTestDone
  try dsimp only
  with_reducible repeat' (first
    | intro _ | assumption | exact State.Frame.refl _ | apply State.trainStep_frame | apply State.setPPort_frame
    | apply State.put_frame | apply fo_ite | apply f_ite | apply fo_next | apply fo_fault)

theorem execPassTrainTimeout_frame {s0 : State} {p : Port} {s : State} (h0 : s0.Frame P s) (p_regs : P .regs)
    (p_mem : P .mem) (p_marked : P .marked) (p_net : P .net) (p_free : P .free) (p_core : P .core) (p_die : P .die)
    (p_home : P .home) (p_pass : P .pass) (p_mesa : P .mesa) (p_meter : P .meter) (p_qos : P .qos) (p_io : P .io)
    (p_ras : P .ras) (p_tvx : P .tvx) :
    FrameOut P s0 (execPassTrainTimeout p s) := by
  unfold execPassTrainTimeout
  try dsimp only
  with_reducible repeat' (first
    | intro _ | assumption | exact State.Frame.refl _ | apply State.trainFail_frame | apply State.freeWord_frame
    | apply fo_ite | apply f_ite | apply f_ite_fst | apply f_ite_snd | apply fo_next | apply fo_fault)

theorem execPassRetrainTimeout_frame {s0 : State} {p : Port} {s : State} (h0 : s0.Frame P s) (p_regs : P .regs)
    (p_pass : P .pass) (p_tvx : P .tvx) :
    FrameOut P s0 (execPassRetrainTimeout p s) := by
  unfold execPassRetrainTimeout
  try dsimp only
  with_reducible repeat' (first
    | intro _ | assumption | exact State.Frame.refl _ | apply State.escalate_frame | apply fo_ite | apply f_ite
    | apply fo_next | apply fo_fault)

theorem execPassCtlRetrain_frame {s0 : State} {p : Port} {s : State} (h0 : s0.Frame P s) (p_pass : P .pass) :
    FrameOut P s0 (execPassCtlRetrain p s) := by
  unfold execPassCtlRetrain
  try dsimp only
  with_reducible repeat' (first | intro _ | assumption | exact State.Frame.refl _ | apply State.wantRetrain_frame | apply fo_next | apply fo_fault)

theorem execPassCtlFullTrain_frame {s0 : State} {p : Port} {s : State} (h0 : s0.Frame P s) (p_regs : P .regs)
    (p_pass : P .pass) (p_tvx : P .tvx) :
    FrameOut P s0 (execPassCtlFullTrain p s) := by
  unfold execPassCtlFullTrain
  try dsimp only
  with_reducible repeat' (first
    | intro _ | assumption | exact State.Frame.refl _ | apply State.escalate_frame | apply fo_ite | apply f_ite
    | apply fo_next | apply fo_fault)

theorem execPassFailGo_frame {s0 : State} {p : Port} {lane : Nat} {down : Bool} {s : State} (h0 : s0.Frame P s)
    (p_regs : P .regs) (p_mem : P .mem) (p_marked : P .marked) (p_net : P .net) (p_free : P .free) (p_core : P .core)
    (p_die : P .die) (p_home : P .home) (p_pass : P .pass) (p_mesa : P .mesa) (p_meter : P .meter) (p_qos : P .qos)
    (p_io : P .io) (p_ras : P .ras) (p_tvx : P .tvx) :
    FrameOut P s0 (execPassFailGo p lane down s) := by
  unfold execPassFailGo
  try dsimp only
  with_reducible repeat' (first
    | intro _ | assumption | exact State.Frame.refl _ | apply State.passStatus_frame | apply State.laneFail_frame
    | apply fo_ite | apply f_ite | apply fo_next | apply fo_fault)

theorem execPassLaneLossOfLock_frame {s0 : State} {p : Port} {lane : Fin 68} {down : Bool} {s : State} (h0 : s0.Frame P s)
    (p_regs : P .regs) (p_mem : P .mem) (p_marked : P .marked) (p_net : P .net) (p_free : P .free) (p_core : P .core)
    (p_die : P .die) (p_home : P .home) (p_pass : P .pass) (p_mesa : P .mesa) (p_meter : P .meter) (p_qos : P .qos)
    (p_io : P .io) (p_ras : P .ras) (p_tvx : P .tvx) :
    FrameOut P s0 (execPassLaneLossOfLock p lane down s) := by
  unfold execPassLaneLossOfLock
  try dsimp only
  with_reducible repeat' (first
    | intro _ | assumption | exact State.Frame.refl _ | apply State.setPEnd_frame | apply State.passStatus_frame
    | apply State.laneFail_frame | apply fo_ite | apply f_ite | apply fo_next | apply fo_fault)

theorem State.passDown_frame {s0 : State} {s : State} {d : Nat} (h0 : s0.Frame P s) (p_regs : P .regs) (p_pass : P .pass) :
    s0.Frame P (State.passDown s d) := by
  unfold State.passDown
  try dsimp only
  with_reducible repeat' (first
    | intro _ | assumption | exact State.Frame.refl _ | apply State.passClear_frame | apply State.setPPort_frame
    | apply State.setPEnd_frame | apply State.setStrm_frame | apply f_ite | apply f_foldN)

theorem State.passUp_frame {s0 : State} {s : State} {d : Nat} (h0 : s0.Frame P s) (p_regs : P .regs) (p_pass : P .pass) :
    s0.Frame P (State.passUp s d) := by
  unfold State.passUp
  try dsimp only
  with_reducible repeat' (first | intro _ | assumption | exact State.Frame.refl _ | apply State.passStart_frame | apply f_ite | apply f_foldN)

end Sys2Proof.Machine
end

