-- ==== Sys2Proof/Laws/FrameDieRows.lean ====
section
/-!
SUPPORT. What each function of Machine/DieRows.lean leaves alone (`State.Frame`, Safety.lean): one lemma for each.
-/

namespace Sys2Proof.Machine

variable {P : Part → Prop}

theorem State.dieDown_frame {s0 : State} {s : State} {d : Die} (h0 : s0.Frame P s) (p_regs : P .regs) (p_core : P .core)
    (p_die : P .die) :
    s0.Frame P (State.dieDown s d) := by
  unfold State.dieDown
  try dsimp only
  with_reducible repeat' (first
    | intro _ | assumption | exact State.Frame.refl _ | apply State.setDieCtl_frame | apply State.setHart_frame
    | apply State.coreStop_frame | apply State.dieFlush_frame | apply f_ite | apply f_foldN)

theorem execDieOffline_frame {s0 : State} {s : State} (h0 : s0.Frame P s) (p_regs : P .regs) (p_free : P .free)
    (p_core : P .core) (p_die : P .die) (p_tvx : P .tvx) :
    FrameOut P s0 (execDieOffline s) := by
  unfold execDieOffline
  try dsimp only
  with_reducible repeat' (first
    | intro _ | assumption | exact State.Frame.refl _ | apply State.execLong_frame | apply State.dieDown_frame
    | apply fo_ite | apply f_ite | apply f_ite_fst | apply f_ite_snd | apply fo_next | apply fo_fault)

theorem State.setDieOnline_frame {s0 : State} {s : State} {d : Nat} {b : Bool} (h0 : s0.Frame P s) (p_regs : P .regs) :
    s0.Frame P (State.setDieOnline s d b) := by
  unfold State.setDieOnline
  try dsimp only
  with_reducible repeat' (first | intro _ | assumption | exact State.Frame.refl _ | apply State.putB_frame | apply State.putBit_frame)

theorem execDieOfflineComplete_frame {s0 : State} {d : Die} {s : State} (h0 : s0.Frame P s) (p_regs : P .regs)
    (p_die : P .die) (p_pass : P .pass) (p_tvx : P .tvx) :
    FrameOut P s0 (execDieOfflineComplete d s) := by
  unfold execDieOfflineComplete
  try dsimp only
  with_reducible repeat' (first
    | intro _ | assumption | exact State.Frame.refl _ | apply State.setDieCtl_frame | apply State.setDieOnline_frame
    | apply State.put_frame | apply State.passDown_frame | apply State.longEnd_frame | apply fo_ite | apply f_ite
    | apply fo_next | apply fo_fault)

theorem State.dieArrays_frame {s0 : State} {s : State} {d : Nat} (h0 : s0.Frame P s) (p_regs : P .regs) (p_core : P .core)
    (p_die : P .die) (p_tvx : P .tvx) :
    s0.Frame P (State.dieArrays s d) := by
  unfold State.dieArrays
  try dsimp only
  with_reducible repeat' (first
    | (intro (p : Part) hp; cases p <;> first | rfl | contradiction) | intro _ | assumption | exact State.Frame.refl _
    | apply State.put_frame | apply State.retirePending_frame | apply f_ite | apply f_foldN | apply f_regs | apply f_mem
    | apply f_mk)

theorem State.valeEndsReset_frame {s0 : State} {s : State} {d : Nat} (h0 : s0.Frame P s) (p_regs : P .regs)
    (p_pass : P .pass) :
    s0.Frame P (State.valeEndsReset s d) := by
  unfold State.valeEndsReset
  try dsimp only
  with_reducible repeat' (first
    | intro _ | assumption | exact State.Frame.refl _ | apply State.resetRange_frame | apply State.setPEnd_frame
    | apply State.setPassState_frame | apply f_foldN)

theorem execDieOnline_frame {s0 : State} {s : State} (h0 : s0.Frame P s) (p_regs : P .regs) (p_free : P .free)
    (p_core : P .core) (p_die : P .die) (p_pass : P .pass) (p_tvx : P .tvx) :
    FrameOut P s0 (execDieOnline s) := by
  unfold execDieOnline
  try dsimp only
  with_reducible repeat' (first
    | intro _ | assumption | exact State.Frame.refl _ | apply State.execLong_frame | apply State.dieCounters_frame
    | apply State.dieArrays_frame | apply State.setDieCtl_frame | apply State.passUp_frame | apply State.valeEndsReset_frame
    | apply State.passDown_frame | apply fo_ite | apply f_ite | apply f_ite_fst | apply f_ite_snd | apply fo_next
    | apply fo_fault)

theorem State.dieCoresUp_frame {s0 : State} {s : State} {d : Nat} {all : Bool} (h0 : s0.Frame P s) (p_regs : P .regs)
    (p_core : P .core) :
    s0.Frame P (State.dieCoresUp s d all) := by
  unfold State.dieCoresUp
  try dsimp only
  with_reducible repeat' (first | intro _ | assumption | exact State.Frame.refl _ | apply State.coreStart_frame | apply f_ite | apply f_foldN)

theorem execDieOnlineComplete_frame {s0 : State} {d : Die} {s : State} (h0 : s0.Frame P s) (p_regs : P .regs)
    (p_core : P .core) (p_die : P .die) (p_tvx : P .tvx) :
    FrameOut P s0 (execDieOnlineComplete d s) := by
  unfold execDieOnlineComplete
  try dsimp only
  with_reducible repeat' (first
    | intro _ | assumption | exact State.Frame.refl _ | apply State.setDieOnline_frame | apply State.setDieCtl_frame
    | apply State.longEnd_frame | apply State.dieCoresUp_frame | apply fo_ite | apply f_ite | apply fo_next | apply fo_fault)

theorem State.clearHolder_frame {s0 : State} {s : State} {n : Nat} {line : Nat} {h : Nat} (h0 : s0.Frame P s)
    (p_regs : P .regs) (p_mem : P .mem) (p_marked : P .marked) (p_free : P .free) (p_core : P .core) (p_home : P .home)
    (p_pass : P .pass) (p_mesa : P .mesa) (p_meter : P .meter) (p_qos : P .qos) (p_ras : P .ras) (p_tvx : P .tvx) :
    s0.Frame P (State.clearHolder s n line h) := by
  unfold State.clearHolder
  try dsimp only
  with_reducible repeat' (first
    | intro _ | assumption | exact State.Frame.refl _ | apply State.lostCopy_frame | apply State.writeView_frame
    | apply f_ite)

theorem State.clearDie_frame {s0 : State} {s : State} {n : Nat} {line : Nat} {d : Nat} (h0 : s0.Frame P s)
    (p_regs : P .regs) (p_mem : P .mem) (p_marked : P .marked) (p_net : P .net) (p_free : P .free) (p_core : P .core)
    (p_home : P .home) (p_pass : P .pass) (p_mesa : P .mesa) (p_meter : P .meter) (p_qos : P .qos) (p_ras : P .ras)
    (p_tvx : P .tvx) :
    s0.Frame P (State.clearDie s n line d) := by
  unfold State.clearDie
  try dsimp only
  with_reducible repeat' (first
    | intro _ | assumption | exact State.Frame.refl _ | apply State.clearHolder_frame | apply State.pxLostCopy_frame
    | apply State.writeRld_frame | apply f_ite)

theorem State.walkStep_frame {s0 : State} {s : State} {u : WalkUnit} {who : Nat} {line : Nat} (h0 : s0.Frame P s)
    (p_regs : P .regs) (p_mem : P .mem) (p_marked : P .marked) (p_net : P .net) (p_free : P .free) (p_core : P .core)
    (p_home : P .home) (p_pass : P .pass) (p_mesa : P .mesa) (p_meter : P .meter) (p_qos : P .qos) (p_ras : P .ras)
    (p_tvx : P .tvx) :
    s0.Frame P (State.walkStep s u who line) := by
  unfold State.walkStep
  try dsimp only
  with_reducible repeat' (first
    | intro _ | assumption | exact State.Frame.refl _ | apply State.lostLook_frame | apply State.txnProceed_frame
    | apply State.recallLock_frame | apply State.pxProceed_frame | apply State.pxRecall_frame | apply State.pxLostLook_frame
    | apply State.clearHolder_frame | apply State.writeView_frame | apply State.clearDie_frame | apply f_ite | split)

theorem State.walkEnd_frame {s0 : State} {s : State} {u : WalkUnit} {who : Nat} (h0 : s0.Frame P s) (p_regs : P .regs)
    (p_die : P .die) (p_home : P .home) (p_hzn : P .hzn) :
    s0.Frame P (State.walkEnd s u who) := by
  unfold State.walkEnd
  try dsimp only
  with_reducible repeat' (first
    | (intro (p : Part) hp; cases p <;> first | rfl | contradiction) | intro _ | assumption | exact State.Frame.refl _
    | apply State.putB_frame | apply State.leaveFinish_frame | apply f_ite | apply f_regs | apply f_mem
    | (apply f_mk; first | assumption | exact State.Frame.refl _ | apply State.putB_frame | apply State.leaveFinish_frame | apply f_ite | apply f_regs | apply f_mem)
    | split)

theorem execRecallWalkEntry_frame {s0 : State} {u : WalkUnit} {s : State} (h0 : s0.Frame P s) (p_regs : P .regs)
    (p_mem : P .mem) (p_marked : P .marked) (p_net : P .net) (p_free : P .free) (p_core : P .core) (p_die : P .die)
    (p_home : P .home) (p_pass : P .pass) (p_mesa : P .mesa) (p_meter : P .meter) (p_qos : P .qos) (p_hzn : P .hzn)
    (p_ras : P .ras) (p_tvx : P .tvx) :
    FrameOut P s0 (execRecallWalkEntry u s) := by
  unfold execRecallWalkEntry
  try dsimp only
  with_reducible repeat' (first
    | intro _ | assumption | exact State.Frame.refl _ | apply State.walkStep_frame | apply State.walkEnd_frame
    | apply fo_ite | apply f_ite | apply fo_next | apply fo_fault | split)

theorem State.walkStart_frame {s0 : State} {s : State} {u : WalkUnit} {who : Nat} (h0 : s0.Frame P s) (p_home : P .home) :
    s0.Frame P (State.walkStart s u who) := by
  unfold State.walkStart
  try dsimp only
  with_reducible repeat' (first
    | (intro (p : Part) hp; cases p <;> first | rfl | contradiction) | intro _ | assumption | exact State.Frame.refl _
    | apply f_ite | apply f_mk)

theorem State.homeWaysLow_frame {s0 : State} {s : State} {n : Nat} {retired : Nat} (h0 : s0.Frame P s) (p_regs : P .regs)
    (p_tvx : P .tvx) :
    s0.Frame P (State.homeWaysLow s n retired) := by
  unfold State.homeWaysLow
  try dsimp only
  with_reducible repeat' (first | intro _ | assumption | exact State.Frame.refl _ | apply State.logEvent_frame | apply f_ite)

theorem State.dirWayRetire_frame {s0 : State} {s : State} {n : Ix16} {w : Ix16} (h0 : s0.Frame P s) (p_regs : P .regs)
    (p_home : P .home) (p_tvx : P .tvx) :
    s0.Frame P (State.dirWayRetire s n w) := by
  unfold State.dirWayRetire
  try dsimp only
  with_reducible repeat' (first
    | intro _ | assumption | exact State.Frame.refl _ | apply State.put_frame | apply State.recWay_frame
    | apply State.putBit_frame | apply State.homeWaysLow_frame | apply State.walkStart_frame | apply f_ite)

theorem State.rptWayRetire_frame {s0 : State} {s : State} {n : Ix16} {w : Ix16} (h0 : s0.Frame P s) (p_regs : P .regs)
    (p_home : P .home) (p_tvx : P .tvx) :
    s0.Frame P (State.rptWayRetire s n w) := by
  unfold State.rptWayRetire
  try dsimp only
  with_reducible repeat' (first
    | intro _ | assumption | exact State.Frame.refl _ | apply State.put_frame | apply State.recWay_frame
    | apply State.putBit_frame | apply State.homeWaysLow_frame | apply State.walkStart_frame | apply f_ite)

theorem State.rldWayRetire_frame {s0 : State} {s : State} {n : Ix16} {w : Ix16} (h0 : s0.Frame P s) (p_regs : P .regs)
    (p_home : P .home) (p_tvx : P .tvx) :
    s0.Frame P (State.rldWayRetire s n w) := by
  unfold State.rldWayRetire
  try dsimp only
  with_reducible repeat' (first
    | intro _ | assumption | exact State.Frame.refl _ | apply State.put_frame | apply State.recWay_frame
    | apply State.putBit_frame | apply State.homeWaysLow_frame | apply State.walkStart_frame | apply f_ite)

end Sys2Proof.Machine
end

