-- ==== Sys2Proof/Laws/FrameHzn.lean ====
section
/-!
SUPPORT. What each function of Machine/Hzn.lean leaves alone (`State.Frame`, Safety.lean): one lemma for each.
-/

namespace Sys2Proof.Machine

variable {P : Part → Prop}

theorem State.setHStrm_frame {s0 : State} {s : State} {serial : Nat} {x : HStream} (h0 : s0.Frame P s) (p_hzn : P .hzn) :
    s0.Frame P (State.setHStrm s serial x) := by
  unfold State.setHStrm
  try dsimp only
  with_reducible repeat' (first
    | (intro (p : Part) hp; cases p <;> first | rfl | contradiction) | intro _ | assumption | exact State.Frame.refl _
    | apply f_mk)

theorem State.hznFrames_frame {s0 : State} {s : State} {p : Nat} {n : Nat} (h0 : s0.Frame P s) (p_regs : P .regs)
    (p_pass : P .pass) (p_hzn : P .hzn) :
    s0.Frame P (State.hznFrames s p n) := by
  unfold State.hznFrames
  try dsimp only
  with_reducible repeat' (first | intro _ | assumption | exact State.Frame.refl _ | apply State.count_frame | apply State.setHPort_frame)

theorem State.hznOverhead_frame {s0 : State} {s : State} {p : Nat} {n : Nat} (h0 : s0.Frame P s) (p_regs : P .regs)
    (p_pass : P .pass) (p_meter : P .meter) (p_qos : P .qos) (p_hzn : P .hzn) :
    s0.Frame P (State.hznOverhead s p n) := by
  unfold State.hznOverhead
  try dsimp only
  with_reducible repeat' (first | intro _ | assumption | exact State.Frame.refl _ | apply State.hznTxBytes_frame | apply State.hznFrames_frame)

theorem State.hznCtl_frame {s0 : State} {s : State} {p : Nat} {ctype : Nat} {args : List Nat} (h0 : s0.Frame P s)
    (p_regs : P .regs) (p_pass : P .pass) (p_meter : P .meter) (p_qos : P .qos) (p_hzn : P .hzn) :
    s0.Frame P (State.hznCtl s p ctype args) := by
  unfold State.hznCtl
  try dsimp only
  with_reducible repeat' (first
    | (intro (p : Part) hp; cases p <;> first | rfl | contradiction) | intro _ | assumption | exact State.Frame.refl _
    | apply State.hznOverhead_frame | apply f_mk)

theorem State.hznReplayed_frame {s0 : State} {s : State} {p : Nat} {n : Nat} (h0 : s0.Frame P s) (p_regs : P .regs)
    (p_pass : P .pass) (p_meter : P .meter) (p_qos : P .qos) (p_hzn : P .hzn) :
    s0.Frame P (State.hznReplayed s p n) := by
  unfold State.hznReplayed
  try dsimp only
  with_reducible repeat' (first
    | intro _ | assumption | exact State.Frame.refl _ | apply State.hznOverhead_frame | apply State.count_frame
    | apply State.bump_frame)

theorem State.hznBundles_frame {s0 : State} {s : State} (h0 : s0.Frame P s) (p_regs : P .regs) :
    s0.Frame P (State.hznBundles s) := by
  unfold State.hznBundles
  try dsimp only
  with_reducible repeat' (first | intro _ | assumption | exact State.Frame.refl _ | apply State.put_frame | apply f_ite | apply f_foldN | apply f_foldl)

theorem State.hznPump_frame {s0 : State} {s : State} {p : Nat} {z2 : Nat} (h0 : s0.Frame P s) (p_regs : P .regs)
    (p_pass : P .pass) (p_meter : P .meter) (p_qos : P .qos) (p_hzn : P .hzn) :
    s0.Frame P (State.hznPump s p z2) := by
  induction z2 generalizing s p with
  | zero =>
    unfold State.hznPump
    try dsimp only
    with_reducible repeat' (first
      | intro _ | assumption | exact State.Frame.refl _ | apply State.hznReplayed_frame | apply State.setHPort_frame
      | apply State.hznCtl_frame | apply f_ite | apply f_foldl | split)
  | succ k ih =>
    unfold State.hznPump
    try dsimp only
    with_reducible repeat' (first
      | intro _ | assumption | exact State.Frame.refl _ | apply State.hznReplayed_frame | apply State.setHPort_frame
      | apply State.hznCtl_frame | apply f_ite | apply f_foldl | split | apply ih)


theorem State.hznMove_frame {s0 : State} {s : State} {p : Nat} {named : Nat} {fl : List HSent} (h0 : s0.Frame P s)
    (p_regs : P .regs) (p_pass : P .pass) (p_meter : P .meter) (p_qos : P .qos) (p_hzn : P .hzn) :
    s0.Frame P (State.hznMove s p named fl) := by
  unfold State.hznMove
  try dsimp only
  with_reducible repeat' (first | intro _ | assumption | exact State.Frame.refl _ | apply State.hznPump_frame | apply State.setHPort_frame)

theorem State.hznDeliver_frame {s0 : State} {s : State} {p : Nat} {z2 : List HMsg} (h0 : s0.Frame P s) (p_regs : P .regs)
    (p_net : P .net) (p_hzn : P .hzn) :
    s0.Frame P (State.hznDeliver s p z2) := by
  induction z2 generalizing s p with
  | nil =>
    unfold State.hznDeliver
    try dsimp only
    with_reducible repeat' (first
      | (intro (p : Part) hp; cases p <;> first | rfl | contradiction) | intro _ | assumption | exact State.Frame.refl _
      | apply State.send_frame | apply State.put_frame | apply State.bump_frame | apply State.hznConsume_frame | apply f_ite
      | (apply f_mk; first | assumption | exact State.Frame.refl _ | apply State.send_frame | apply State.put_frame | apply State.bump_frame | apply State.hznConsume_frame | apply f_ite)
      | split)
  | cons e l ih =>
    cases e <;> (
      unfold State.hznDeliver
      try dsimp only
      with_reducible repeat' (first
        | (intro (p : Part) hp; cases p <;> first | rfl | contradiction) | intro _ | assumption | exact State.Frame.refl _
        | apply State.send_frame | apply State.put_frame | apply State.bump_frame | apply State.hznConsume_frame | apply f_ite
        | (apply f_mk; first | assumption | exact State.Frame.refl _ | apply State.send_frame | apply State.put_frame | apply State.bump_frame | apply State.hznConsume_frame | apply f_ite)
        | split | apply ih))


theorem State.hznStart_frame {s0 : State} {s : State} {p : Nat} (h0 : s0.Frame P s) (p_regs : P .regs) (p_hzn : P .hzn) :
    s0.Frame P (State.hznStart s p) := by
  unfold State.hznStart
  try dsimp only
  with_reducible repeat' (first
    | intro _ | assumption | exact State.Frame.refl _ | apply State.setHPort_frame | apply State.bump_frame
    | apply State.put_frame)

theorem State.hznDisable_frame {s0 : State} {s : State} {p : Nat} (h0 : s0.Frame P s) (p_regs : P .regs) :
    s0.Frame P (State.hznDisable s p) := by
  unfold State.hznDisable
  try dsimp only
  with_reducible repeat' (first | intro _ | assumption | exact State.Frame.refl _ | apply State.put_frame | apply State.hznBundles_frame)

theorem State.hznDown_frame {s0 : State} {s : State} {p : Nat} {after : Bool} (h0 : s0.Frame P s) (p_regs : P .regs)
    (p_net : P .net) (p_pass : P .pass) (p_meter : P .meter) (p_qos : P .qos) (p_hzn : P .hzn) (p_tvx : P .tvx) :
    s0.Frame P (State.hznDown s p after) := by
  unfold State.hznDown
  try dsimp only
  with_reducible repeat' (first
    | intro _ | assumption | exact State.Frame.refl _ | apply State.put_frame | apply State.hznDisable_frame
    | apply State.setHPort_frame | apply State.hznCtl_frame | apply State.bump_frame | apply State.hznDeliver_frame
    | apply State.setHStrm_frame | apply State.logEvent_frame | apply State.hznStart_frame | apply f_ite | apply f_foldl
    | split)

theorem State.hznFail_frame {s0 : State} {s : State} {p : Nat} {cause : Nat} {wait : HWaitFor} (h0 : s0.Frame P s)
    (p_regs : P .regs) (p_net : P .net) (p_pass : P .pass) (p_meter : P .meter) (p_qos : P .qos) (p_hzn : P .hzn)
    (p_tvx : P .tvx) :
    s0.Frame P (State.hznFail s p cause wait) := by
  unfold State.hznFail
  try dsimp only
  with_reducible repeat' (first
    | intro _ | assumption | exact State.Frame.refl _ | apply State.put_frame | apply State.hznDown_frame
    | apply State.hznDisable_frame | apply State.setHPort_frame | apply f_ite)

theorem State.hznHello_frame {s0 : State} {s : State} {p : Nat} {width : Nat} {rev : Nat} {noRev : Bool} (h0 : s0.Frame P s)
    (p_regs : P .regs) (p_pass : P .pass) (p_meter : P .meter) (p_qos : P .qos) (p_hzn : P .hzn) :
    s0.Frame P (State.hznHello s p width rev noRev) := by
  unfold State.hznHello
  try dsimp only
  with_reducible repeat' (first | intro _ | assumption | exact State.Frame.refl _ | apply State.hznCtl_frame)

theorem State.hznRetrain_frame {s0 : State} {s : State} {p : Nat} (h0 : s0.Frame P s) (p_regs : P .regs) (p_pass : P .pass)
    (p_meter : P .meter) (p_qos : P .qos) (p_hzn : P .hzn) (p_tvx : P .tvx) :
    s0.Frame P (State.hznRetrain s p) := by
  unfold State.hznRetrain
  try dsimp only
  with_reducible repeat' (first
    | intro _ | assumption | exact State.Frame.refl _ | apply State.setHPort_frame | apply State.hznHello_frame
    | apply State.bump_frame | apply State.put_frame | apply State.logEvent_frame | apply f_ite)

theorem State.hznAsk_frame {s0 : State} {s : State} {p : Nat} {reason : Nat} (h0 : s0.Frame P s) (p_regs : P .regs)
    (p_pass : P .pass) (p_meter : P .meter) (p_qos : P .qos) (p_hzn : P .hzn) (p_tvx : P .tvx) :
    s0.Frame P (State.hznAsk s p reason) := by
  unfold State.hznAsk
  try dsimp only
  with_reducible repeat' (first
    | intro _ | assumption | exact State.Frame.refl _ | apply State.hznRetrain_frame | apply State.hznCtl_frame
    | apply f_ite)

theorem State.hznReneg_frame {s0 : State} {s : State} (h0 : s0.Frame P s) (p_regs : P .regs) (p_pass : P .pass)
    (p_meter : P .meter) (p_qos : P .qos) (p_hzn : P .hzn) (p_tvx : P .tvx) :
    s0.Frame P (State.hznReneg s) := by
  unfold State.hznReneg
  try dsimp only
  with_reducible repeat' (first
    | (intro (p : Part) hp; cases p <;> first | rfl | contradiction) | intro _ | assumption | exact State.Frame.refl _
    | apply State.hznAsk_frame | apply f_ite | apply f_foldl | apply f_regs | apply f_mem | apply f_mk)

theorem State.hznLaneFail_frame {s0 : State} {s : State} {p : Nat} {lane : Nat} (h0 : s0.Frame P s) (p_regs : P .regs)
    (p_pass : P .pass) (p_meter : P .meter) (p_qos : P .qos) (p_hzn : P .hzn) (p_tvx : P .tvx) :
    s0.Frame P (State.hznLaneFail s p lane) := by
  unfold State.hznLaneFail
  try dsimp only
  with_reducible repeat' (first
    | intro _ | assumption | exact State.Frame.refl _ | apply State.setHPort_frame | apply State.put_frame
    | apply State.putBit_frame | apply State.hznAsk_frame | apply f_ite)

theorem State.hznFrameFault_frame {s0 : State} {s : State} {p : Nat} (h0 : s0.Frame P s) (p_regs : P .regs)
    (p_pass : P .pass) (p_meter : P .meter) (p_qos : P .qos) (p_hzn : P .hzn) (p_tvx : P .tvx) :
    s0.Frame P (State.hznFrameFault s p) := by
  unfold State.hznFrameFault
  try dsimp only
  with_reducible repeat' (first
    | intro _ | assumption | exact State.Frame.refl _ | apply State.hznLaneFail_frame | apply State.setHPort_frame
    | apply State.hznAsk_frame | apply f_ite | apply f_foldl | split)

theorem State.hznCorrected_frame {s0 : State} {s : State} {p : Nat} {corr : List Nat} (h0 : s0.Frame P s) (p_regs : P .regs)
    (p_pass : P .pass) (p_meter : P .meter) (p_qos : P .qos) (p_hzn : P .hzn) (p_ras : P .ras) (p_tvx : P .tvx) :
    s0.Frame P (State.hznCorrected s p corr) := by
  unfold State.hznCorrected
  try dsimp only
  with_reducible repeat' (first
    | intro _ | assumption | exact State.Frame.refl _ | apply State.count_frame | apply State.bump_frame
    | apply State.setHPort_frame | apply State.charge_frame | apply State.put_frame | apply State.hznLaneFail_frame
    | apply f_ite | apply f_ite_fst | apply f_ite_snd | apply f_foldN)

theorem State.hznRxMeter_frame {s0 : State} {s : State} {ms : List HMsg} (h0 : s0.Frame P s) (p_meter : P .meter) :
    s0.Frame P (State.hznRxMeter s ms) := by
  unfold State.hznRxMeter
  try dsimp only
  with_reducible repeat' (first | intro _ | assumption | exact State.Frame.refl _ | apply State.meterAdd_frame | apply f_ite | apply f_foldl)

theorem State.hznTxMeter_frame {s0 : State} {s : State} {p : Nat} {ms : List HMsg} (h0 : s0.Frame P s) (p_meter : P .meter)
    (p_qos : P .qos) :
    s0.Frame P (State.hznTxMeter s p ms) := by
  unfold State.hznTxMeter
  try dsimp only
  with_reducible repeat' (first | intro _ | assumption | exact State.Frame.refl _ | apply State.hznTxBytes_frame | apply f_foldl)

theorem State.hznHeader_frame {s0 : State} {s : State} {p : Nat} {f : HFrame} (h0 : s0.Frame P s) (p_regs : P .regs)
    (p_pass : P .pass) (p_meter : P .meter) (p_qos : P .qos) (p_hzn : P .hzn) :
    s0.Frame P (State.hznHeader s p f) := by
  unfold State.hznHeader
  try dsimp only
  with_reducible repeat' (first
    | intro _ | assumption | exact State.Frame.refl _ | apply State.setHPort_frame | apply State.hznReplayed_frame
    | apply State.hznPump_frame | apply f_ite | apply f_foldl)

theorem State.hznNak_frame {s0 : State} {s : State} {p : Nat} (h0 : s0.Frame P s) (p_regs : P .regs) (p_pass : P .pass)
    (p_meter : P .meter) (p_qos : P .qos) (p_hzn : P .hzn) (p_tvx : P .tvx) :
    s0.Frame P (State.hznNak s p) := by
  unfold State.hznNak
  try dsimp only
  with_reducible repeat' (first | intro _ | assumption | exact State.Frame.refl _ | apply State.setHPort_frame | apply State.hznAsk_frame | apply f_ite)

theorem State.hznMerge_frame {s0 : State} {s : State} {serial : Nat} {z2 : Nat} (h0 : s0.Frame P s) (p_regs : P .regs)
    (p_net : P .net) (p_hzn : P .hzn) :
    s0.Frame P (State.hznMerge s serial z2) := by
  induction z2 generalizing s serial with
  | zero =>
    unfold State.hznMerge
    try dsimp only
    with_reducible repeat' (first
      | intro _ | assumption | exact State.Frame.refl _ | apply State.hznPump_frame | apply State.setHStrm_frame
      | apply State.hznDeliver_frame | split)
  | succ k ih =>
    unfold State.hznMerge
    try dsimp only
    with_reducible repeat' (first
      | intro _ | assumption | exact State.Frame.refl _ | apply State.hznPump_frame | apply State.setHStrm_frame
      | apply State.hznDeliver_frame | split | apply ih)


theorem State.hznAccept_frame {s0 : State} {s : State} {p : Nat} {f : HFrame} (h0 : s0.Frame P s) (p_regs : P .regs)
    (p_net : P .net) (p_hzn : P .hzn) :
    s0.Frame P (State.hznAccept s p f) := by
  unfold State.hznAccept
  try dsimp only
  with_reducible repeat' (first
    | intro _ | assumption | exact State.Frame.refl _ | apply State.setHPort_frame | apply State.setHStrm_frame
    | apply State.hznMerge_frame | apply State.hznDeliver_frame | apply f_ite | apply f_foldl)

theorem State.hznDiscard_frame {s0 : State} {s : State} {p : Nat} {f : HFrame} (h0 : s0.Frame P s) (p_regs : P .regs)
    (p_net : P .net) (p_free : P .free) (p_core : P .core) (p_pass : P .pass) (p_hzn : P .hzn) (p_ras : P .ras)
    (p_tvx : P .tvx) :
    s0.Frame P (State.hznDiscard s p f) := by
  unfold State.hznDiscard
  try dsimp only
  with_reducible repeat' (first
    | intro _ | assumption | exact State.Frame.refl _ | apply State.hznAccept_frame | apply State.errRecord_frame
    | apply State.put_frame | apply f_ite)

theorem State.hznBad_frame {s0 : State} {s : State} {p : Nat} (h0 : s0.Frame P s) (p_regs : P .regs) (p_pass : P .pass)
    (p_meter : P .meter) (p_qos : P .qos) (p_hzn : P .hzn) (p_ras : P .ras) (p_tvx : P .tvx) :
    s0.Frame P (State.hznBad s p) := by
  unfold State.hznBad
  try dsimp only
  with_reducible repeat' (first
    | intro _ | assumption | exact State.Frame.refl _ | apply State.meterAdd_frame | apply State.bump_frame
    | apply State.charge_frame | apply State.hznNak_frame | apply State.hznFrameFault_frame | apply f_ite | apply f_ite_fst
    | apply f_ite_snd)

theorem State.hznHear_frame {s0 : State} {s : State} {p : Nat} {f : HFrame} {act : State → State} (h0 : s0.Frame P s)
    (hp_act : ∀ (u : State) (y0 : State), u.Frame P y0 → u.Frame P (act y0)) (p_regs : P .regs) (p_pass : P .pass)
    (p_meter : P .meter) (p_qos : P .qos) (p_hzn : P .hzn) (p_ras : P .ras) (p_tvx : P .tvx) :
    s0.Frame P (State.hznHear s p f act) := by
  unfold State.hznHear
  try dsimp only
  with_reducible repeat' (first
    | intro _ | assumption | exact State.Frame.refl _ | apply State.count_frame | apply State.hznBad_frame
    | apply State.hznCorrected_frame | apply hp_act | split)

theorem execHznPayloadFrame_frame {s0 : State} {p : HPort} {f : HFrame} {s : State} (h0 : s0.Frame P s) (p_regs : P .regs)
    (p_net : P .net) (p_free : P .free) (p_core : P .core) (p_pass : P .pass) (p_meter : P .meter) (p_qos : P .qos)
    (p_hzn : P .hzn) (p_ras : P .ras) (p_tvx : P .tvx) :
    FrameOut P s0 (execHznPayloadFrame p f s) := by
  unfold execHznPayloadFrame
  try dsimp only
  with_reducible repeat' (first
    | intro _ | assumption | exact State.Frame.refl _ | apply State.hznHear_frame | apply State.hznDiscard_frame
    | apply State.meterAdd_frame | apply State.hznHeader_frame | apply State.hznAccept_frame | apply State.hznRxMeter_frame
    | apply fo_ite | apply f_ite | apply fo_next | apply fo_fault)

theorem execHznIdleFrame_frame {s0 : State} {p : HPort} {f : HFrame} {s : State} (h0 : s0.Frame P s) (p_regs : P .regs)
    (p_pass : P .pass) (p_meter : P .meter) (p_qos : P .qos) (p_hzn : P .hzn) (p_ras : P .ras) (p_tvx : P .tvx) :
    FrameOut P s0 (execHznIdleFrame p f s) := by
  unfold execHznIdleFrame
  try dsimp only
  with_reducible repeat' (first
    | intro _ | assumption | exact State.Frame.refl _ | apply State.hznHear_frame | apply State.hznHeader_frame
    | apply State.meterAdd_frame | apply fo_ite | apply f_ite | apply fo_next | apply fo_fault)

theorem State.hznControl_frame {s0 : State} {s : State} {p : Nat} {hd : HFrame} {act : State → State} (h0 : s0.Frame P s)
    (hp_act : ∀ (u : State) (y0 : State), u.Frame P y0 → u.Frame P (act y0)) (p_regs : P .regs) (p_pass : P .pass)
    (p_meter : P .meter) (p_qos : P .qos) (p_hzn : P .hzn) (p_ras : P .ras) (p_tvx : P .tvx) :
    FrameOut P s0 (State.hznControl s p hd act) := by
  unfold State.hznControl
  try dsimp only
  with_reducible repeat' (first
    | intro _ | assumption | exact State.Frame.refl _ | apply State.hznHear_frame | apply State.hznHeader_frame
    | apply State.meterAdd_frame | apply hp_act | apply fo_ite | apply f_ite | apply fo_next | apply fo_fault)

theorem execHznReplayTimeout_frame {s0 : State} {p : HPort} {s : State} (h0 : s0.Frame P s) (p_regs : P .regs)
    (p_pass : P .pass) (p_meter : P .meter) (p_qos : P .qos) (p_hzn : P .hzn) :
    FrameOut P s0 (execHznReplayTimeout p s) := by
  unfold execHznReplayTimeout
  try dsimp only
  with_reducible repeat' (first
    | intro _ | assumption | exact State.Frame.refl _ | apply State.hznReplayed_frame | apply fo_ite | apply f_ite
    | apply fo_next | apply fo_fault)

theorem execHznRetrainReq_frame {s0 : State} {p : HPort} {hd : HFrame} {_reason : Nat} {s : State} (h0 : s0.Frame P s)
    (p_regs : P .regs) (p_pass : P .pass) (p_meter : P .meter) (p_qos : P .qos) (p_hzn : P .hzn) (p_ras : P .ras)
    (p_tvx : P .tvx) :
    FrameOut P s0 (execHznRetrainReq p hd _reason s) := by
  unfold execHznRetrainReq
  try dsimp only
  with_reducible repeat' (first
    | intro _ | assumption | exact State.Frame.refl _ | apply State.hznControl_frame | apply State.hznRetrain_frame
    | apply fo_next | apply fo_fault)

theorem State.hznPartner_frame {s0 : State} {s : State} {p : Nat} {h : Hello} (h0 : s0.Frame P s) (p_regs : P .regs) :
    s0.Frame P (State.hznPartner s p h) := by
  unfold State.hznPartner
  try dsimp only
  with_reducible repeat' (first | intro _ | assumption | exact State.Frame.refl _ | apply State.put_frame)

theorem State.hznChoose_frame {s0 : State} {s : State} {p : Nat} {h : Hello} (h0 : s0.Frame P s) (p_regs : P .regs)
    (p_net : P .net) (p_pass : P .pass) (p_meter : P .meter) (p_qos : P .qos) (p_hzn : P .hzn) (p_tvx : P .tvx) :
    s0.Frame P (State.hznChoose s p h) := by
  unfold State.hznChoose
  try dsimp only
  with_reducible repeat' (first
    | intro _ | assumption | exact State.Frame.refl _ | apply State.putB_frame | apply State.hznHello_frame
    | apply State.hznFail_frame | apply State.put_frame | apply State.setHPort_frame | apply f_ite | split)

theorem execHello_frame {s0 : State} {p : HPort} {hd : HFrame} {h : Hello} {s : State} (h0 : s0.Frame P s)
    (p_regs : P .regs) (p_net : P .net) (p_pass : P .pass) (p_meter : P .meter) (p_qos : P .qos) (p_hzn : P .hzn)
    (p_ras : P .ras) (p_tvx : P .tvx) :
    FrameOut P s0 (execHello p hd h s) := by
  unfold execHello
  try dsimp only
  with_reducible repeat' (first
    | intro _ | assumption | exact State.Frame.refl _ | apply State.hznControl_frame | apply State.hznPartner_frame
    | apply State.setHPort_frame | apply State.put_frame | apply State.setBucket_frame | apply State.hznFail_frame
    | apply State.hznChoose_frame | apply fo_ite | apply f_ite | apply f_foldN | apply fo_next | apply fo_fault)

theorem execHelloTimer_frame {s0 : State} {p : HPort} {s : State} (h0 : s0.Frame P s) (p_regs : P .regs) (p_pass : P .pass)
    (p_meter : P .meter) (p_qos : P .qos) (p_hzn : P .hzn) :
    FrameOut P s0 (execHelloTimer p s) := by
  unfold execHelloTimer
  try dsimp only
  with_reducible repeat' (first
    | intro _ | assumption | exact State.Frame.refl _ | apply State.hznHello_frame | apply fo_ite | apply f_ite
    | apply fo_next | apply fo_fault)

theorem execHznConfig_frame {s0 : State} {p : HPort} {hd : HFrame} {seq : Nat} {bseq : Nat} {free : List Nat} {s : State}
    (h0 : s0.Frame P s) (p_regs : P .regs) (p_pass : P .pass) (p_meter : P .meter) (p_qos : P .qos) (p_hzn : P .hzn)
    (p_ras : P .ras) (p_tvx : P .tvx) :
    FrameOut P s0 (execHznConfig p hd seq bseq free s) := by
  unfold execHznConfig
  try dsimp only
  with_reducible repeat' (first
    | intro _ | assumption | exact State.Frame.refl _ | apply State.hznControl_frame | apply State.hznCtl_frame
    | apply State.setHPort_frame | apply State.setHStrm_frame | apply State.hznBundles_frame | apply State.put_frame
    | apply State.hznPump_frame | apply State.hznReplayed_frame | apply State.hznReneg_frame | apply State.logEvent_frame
    | apply fo_ite | apply f_ite | apply f_foldl | apply fo_next | apply fo_fault)

theorem execHznHandover_frame {s0 : State} {p : HPort} {hd : HFrame} {named : HPort} {seq : Nat} {s : State}
    (h0 : s0.Frame P s) (p_regs : P .regs) (p_pass : P .pass) (p_meter : P .meter) (p_qos : P .qos) (p_hzn : P .hzn)
    (p_ras : P .ras) (p_tvx : P .tvx) :
    FrameOut P s0 (execHznHandover p hd named seq s) := by
  unfold execHznHandover
  try dsimp only
  with_reducible repeat' (first
    | intro _ | assumption | exact State.Frame.refl _ | apply State.hznControl_frame | apply State.setHPort_frame
    | apply State.hznMove_frame | apply State.put_frame | apply fo_ite | apply f_ite | apply fo_next | apply fo_fault)

theorem execHznHandoverDone_frame {s0 : State} {p : HPort} {hd : HFrame} {named : HPort} {s : State} (h0 : s0.Frame P s)
    (p_regs : P .regs) (p_pass : P .pass) (p_meter : P .meter) (p_qos : P .qos) (p_hzn : P .hzn) (p_ras : P .ras)
    (p_tvx : P .tvx) :
    FrameOut P s0 (execHznHandoverDone p hd named s) := by
  unfold execHznHandoverDone
  try dsimp only
  with_reducible repeat' (first
    | intro _ | assumption | exact State.Frame.refl _ | apply State.hznControl_frame | apply State.setHPort_frame
    | apply State.hznStart_frame | apply fo_ite | apply f_ite | apply fo_next | apply fo_fault)

theorem execHznPmdTrainDone_frame {s0 : State} {p : HPort} {rxGood : Nat} {txGood : Nat} {s : State} (h0 : s0.Frame P s)
    (p_regs : P .regs) (p_net : P .net) (p_pass : P .pass) (p_meter : P .meter) (p_qos : P .qos) (p_hzn : P .hzn)
    (p_tvx : P .tvx) :
    FrameOut P s0 (execHznPmdTrainDone p rxGood txGood s) := by
  unfold execHznPmdTrainDone
  try dsimp only
  with_reducible repeat' (first
    | intro _ | assumption | exact State.Frame.refl _ | apply State.setHPort_frame | apply State.hznFail_frame
    | apply State.put_frame | apply fo_ite | apply f_ite | apply fo_next | apply fo_fault)

theorem execHznCodewordLock_frame {s0 : State} {p : HPort} {s : State} (h0 : s0.Frame P s) (p_regs : P .regs)
    (p_pass : P .pass) (p_meter : P .meter) (p_qos : P .qos) (p_hzn : P .hzn) :
    FrameOut P s0 (execHznCodewordLock p s) := by
  unfold execHznCodewordLock
  try dsimp only
  with_reducible repeat' (first
    | intro _ | assumption | exact State.Frame.refl _ | apply State.hznHello_frame | apply State.put_frame | apply fo_ite
    | apply f_ite | apply fo_next | apply fo_fault)

theorem execHznTrainTimeout_frame {s0 : State} {p : HPort} {s : State} (h0 : s0.Frame P s) (p_regs : P .regs)
    (p_net : P .net) (p_free : P .free) (p_pass : P .pass) (p_meter : P .meter) (p_qos : P .qos) (p_hzn : P .hzn)
    (p_tvx : P .tvx) :
    FrameOut P s0 (execHznTrainTimeout p s) := by
  unfold execHznTrainTimeout
  try dsimp only
  with_reducible repeat' (first
    | intro _ | assumption | exact State.Frame.refl _ | apply State.hznFail_frame | apply State.freeWord_frame
    | apply fo_ite | apply f_ite | apply f_ite_fst | apply f_ite_snd | apply fo_next | apply fo_fault)

theorem execHznRetrainTimeout_frame {s0 : State} {p : HPort} {s : State} (h0 : s0.Frame P s) (p_regs : P .regs)
    (p_net : P .net) (p_pass : P .pass) (p_meter : P .meter) (p_qos : P .qos) (p_hzn : P .hzn) (p_tvx : P .tvx) :
    FrameOut P s0 (execHznRetrainTimeout p s) := by
  unfold execHznRetrainTimeout
  try dsimp only
  with_reducible repeat' (first
    | intro _ | assumption | exact State.Frame.refl _ | apply State.hznReneg_frame | apply State.hznDown_frame
    | apply fo_ite | apply f_ite | apply fo_next | apply fo_fault)

theorem execHznTrainRestart_frame {s0 : State} {p : HPort} {s : State} (h0 : s0.Frame P s) (p_regs : P .regs)
    (p_hzn : P .hzn) :
    FrameOut P s0 (execHznTrainRestart p s) := by
  unfold execHznTrainRestart
  try dsimp only
  with_reducible repeat' (first
    | intro _ | assumption | exact State.Frame.refl _ | apply State.hznStart_frame | apply fo_ite | apply f_ite
    | apply fo_next | apply fo_fault)

theorem execHznLaneLossOfLock_frame {s0 : State} {p : HPort} {lane : Fin 8} {s : State} (h0 : s0.Frame P s)
    (p_regs : P .regs) (p_pass : P .pass) (p_meter : P .meter) (p_qos : P .qos) (p_hzn : P .hzn) (p_tvx : P .tvx) :
    FrameOut P s0 (execHznLaneLossOfLock p lane s) := by
  unfold execHznLaneLossOfLock
  try dsimp only
  with_reducible repeat' (first
    | intro _ | assumption | exact State.Frame.refl _ | apply State.setHPort_frame | apply State.hznLaneFail_frame
    | apply State.put_frame | apply fo_ite | apply f_ite | apply fo_next | apply fo_fault)

theorem execHznEnableWrite_frame {s0 : State} {p : HPort} {on : Bool} {detected : Bool} {s : State} (h0 : s0.Frame P s)
    (p_regs : P .regs) (p_net : P .net) (p_pass : P .pass) (p_meter : P .meter) (p_qos : P .qos) (p_hzn : P .hzn)
    (p_tvx : P .tvx) :
    FrameOut P s0 (execHznEnableWrite p on detected s) := by
  unfold execHznEnableWrite
  try dsimp only
  with_reducible repeat' (first
    | intro _ | assumption | exact State.Frame.refl _ | apply State.putB_frame | apply State.hznStart_frame
    | apply State.put_frame | apply State.hznReneg_frame | apply State.hznDown_frame | apply State.setHPort_frame
    | apply State.hznDisable_frame | apply fo_ite | apply f_ite | apply fo_next | apply fo_fault)

theorem execHznCtlRetrain_frame {s0 : State} {p : HPort} {s : State} (h0 : s0.Frame P s) (p_regs : P .regs)
    (p_pass : P .pass) (p_meter : P .meter) (p_qos : P .qos) (p_hzn : P .hzn) (p_tvx : P .tvx) :
    FrameOut P s0 (execHznCtlRetrain p s) := by
  unfold execHznCtlRetrain
  try dsimp only
  with_reducible repeat' (first | intro _ | assumption | exact State.Frame.refl _ | apply State.hznAsk_frame | apply fo_next | apply fo_fault)

theorem execHznCtlFullTrain_frame {s0 : State} {p : HPort} {s : State} (h0 : s0.Frame P s) (p_regs : P .regs)
    (p_net : P .net) (p_pass : P .pass) (p_meter : P .meter) (p_qos : P .qos) (p_hzn : P .hzn) (p_tvx : P .tvx) :
    FrameOut P s0 (execHznCtlFullTrain p s) := by
  unfold execHznCtlFullTrain
  try dsimp only
  with_reducible repeat' (first
    | intro _ | assumption | exact State.Frame.refl _ | apply State.hznDown_frame | apply fo_ite | apply f_ite
    | apply fo_next | apply fo_fault)

theorem execClearMarks_frame {s0 : State} {p : HPort} {s : State} (h0 : s0.Frame P s) (p_regs : P .regs) (p_hzn : P .hzn)
    (p_ras : P .ras) :
    FrameOut P s0 (execClearMarks p s) := by
  unfold execClearMarks
  try dsimp only
  with_reducible repeat' (first
    | intro _ | assumption | exact State.Frame.refl _ | apply State.setHPort_frame | apply State.put_frame
    | apply State.setBucket_frame | apply State.hznStart_frame | apply fo_ite | apply f_ite | apply f_foldN | apply fo_next
    | apply fo_fault)

theorem execTimeReq_frame {s0 : State} {p : HPort} {hd : HFrame} {t1 : Nat} {t1f : Nat} {s : State} (h0 : s0.Frame P s)
    (p_regs : P .regs) (p_pass : P .pass) (p_meter : P .meter) (p_qos : P .qos) (p_hzn : P .hzn) (p_ras : P .ras)
    (p_tvx : P .tvx) :
    FrameOut P s0 (execTimeReq p hd t1 t1f s) := by
  unfold execTimeReq
  try dsimp only
  with_reducible repeat' (first
    | intro _ | assumption | exact State.Frame.refl _ | apply State.hznControl_frame | apply State.hznCtl_frame
    | apply fo_ite | apply f_ite | apply fo_next | apply fo_fault)

theorem execTimeReqTimer_frame {s0 : State} {p : HPort} {s : State} (h0 : s0.Frame P s) (p_regs : P .regs)
    (p_pass : P .pass) (p_meter : P .meter) (p_qos : P .qos) (p_hzn : P .hzn) :
    FrameOut P s0 (execTimeReqTimer p s) := by
  unfold execTimeReqTimer
  try dsimp only
  with_reducible repeat' (first
    | intro _ | assumption | exact State.Frame.refl _ | apply State.hznCtl_frame | apply fo_ite | apply f_ite
    | apply fo_next | apply fo_fault)

end Sys2Proof.Machine
end

