-- ==== Sys2Proof/Laws/FrameIsland.lean ====
section
/-!
SUPPORT. What each function of Machine/Island.lean leaves alone (`State.Frame`, Safety.lean): one lemma for each.
-/

namespace Sys2Proof.Machine

variable {P : Part → Prop}

theorem State.wTake_frame {s0 : State} {s : State} {m : WMsg} (h0 : s0.Frame P s) (p_hzn : P .hzn) :
    s0.Frame P (State.wTake s m) := by
  unfold State.wTake
  try dsimp only
  with_reducible repeat' (first
    | (intro (p : Part) hp; cases p <;> first | rfl | contradiction) | intro _ | assumption | exact State.Frame.refl _
    | apply State.hznConsume_frame | apply f_mk)

theorem State.islSend_frame {s0 : State} {s : State} {icode : Nat} {pkg : Nat} {member : Nat} {nak : Nat}
    (h0 : s0.Frame P s) (p_hzn : P .hzn) :
    s0.Frame P (State.islSend s icode pkg member nak) := by
  unfold State.islSend
  try dsimp only
  with_reducible repeat' (first | intro _ | assumption | exact State.Frame.refl _ | apply State.wSend_frame)

theorem State.islIn_frame {s0 : State} {s : State} {m : WMsg} {code : Nat} {f : State → State} (h0 : s0.Frame P s)
    (hp_f : ∀ (u : State) (y0 : State), u.Frame P y0 → u.Frame P (f y0)) (p_regs : P .regs) (p_free : P .free)
    (p_core : P .core) (p_pass : P .pass) (p_hzn : P .hzn) (p_ras : P .ras) (p_tvx : P .tvx) :
    FrameOut P s0 (State.islIn s m code f) := by
  unfold State.islIn
  try dsimp only
  with_reducible repeat' (first
    | intro _ | assumption | exact State.Frame.refl _ | apply State.errRecord_frame | apply State.wTake_frame | apply hp_f
    | apply fo_ite | apply f_ite | apply fo_next | apply fo_fault)

theorem State.setMem_frame {s0 : State} {s : State} {i : Nat} {st : Nat} (h0 : s0.Frame P s) (p_regs : P .regs) :
    s0.Frame P (State.setMem s i st) := by
  unfold State.setMem
  try dsimp only
  with_reducible repeat' (first | intro _ | assumption | exact State.Frame.refl _ | apply State.put_frame)

theorem State.memSweep_frame {s0 : State} {s : State} {u : Ix16 → WalkUnit} {who : Nat} (h0 : s0.Frame P s)
    (p_home : P .home) :
    s0.Frame P (State.memSweep s u who) := by
  unfold State.memSweep
  try dsimp only
  with_reducible repeat' (first | intro _ | assumption | exact State.Frame.refl _ | apply State.walkStart_frame | apply f_foldN)

theorem State.joined_frame {s0 : State} {s : State} (h0 : s0.Frame P s) (p_regs : P .regs) :
    s0.Frame P (State.joined s) := by
  unfold State.joined
  try dsimp only
  with_reducible repeat' (first | intro _ | assumption | exact State.Frame.refl _ | apply State.put_frame | apply State.setMem_frame)

theorem State.joinAborted_frame {s0 : State} {s : State} {result : Nat} (h0 : s0.Frame P s) (p_regs : P .regs)
    (p_hzn : P .hzn) :
    s0.Frame P (State.joinAborted s result) := by
  unfold State.joinAborted
  try dsimp only
  with_reducible repeat' (first
    | intro _ | assumption | exact State.Frame.refl _ | apply State.setMem_frame | apply State.islSend_frame
    | apply State.put_frame | apply State.alone_frame | apply f_ite | apply f_foldN)

theorem State.joinRefused_frame {s0 : State} {s : State} {i : Nat} {cause : Nat} (h0 : s0.Frame P s) (p_regs : P .regs)
    (p_hzn : P .hzn) :
    s0.Frame P (State.joinRefused s i cause) := by
  unfold State.joinRefused
  try dsimp only
  with_reducible repeat' (first | intro _ | assumption | exact State.Frame.refl _ | apply State.put_frame | apply State.joinAborted_frame)

theorem execIslandJoin_frame {s0 : State} {s : State} (h0 : s0.Frame P s) (p_regs : P .regs) (p_hzn : P .hzn) :
    FrameOut P s0 (execIslandJoin s) := by
  unfold execIslandJoin
  try dsimp only
  with_reducible repeat' (first
    | (intro (p : Part) hp; cases p <;> first | rfl | contradiction) | intro _ | assumption | exact State.Frame.refl _
    | apply State.put_frame | apply State.joined_frame | apply State.islSend_frame | apply fo_ite | apply f_ite
    | apply f_foldl | apply fo_next | apply fo_fault | apply f_mk)

theorem execJoinReq_frame {s0 : State} {m : WMsg} {s : State} (h0 : s0.Frame P s) (p_regs : P .regs) (p_free : P .free)
    (p_core : P .core) (p_pass : P .pass) (p_hzn : P .hzn) (p_ras : P .ras) (p_tvx : P .tvx) :
    FrameOut P s0 (execJoinReq m s) := by
  unfold execJoinReq
  try dsimp only
  with_reducible repeat' (first
    | intro _ | assumption | exact State.Frame.refl _ | apply State.islIn_frame | apply State.islSend_frame
    | apply State.setMem_frame | apply fo_ite | apply f_ite | apply fo_next | apply fo_fault
    | refine f_of_next (by assumption) ?_ | split)

theorem execJoinAck_frame {s0 : State} {m : WMsg} {s : State} (h0 : s0.Frame P s) (p_regs : P .regs) (p_free : P .free)
    (p_core : P .core) (p_pass : P .pass) (p_hzn : P .hzn) (p_ras : P .ras) (p_tvx : P .tvx) :
    FrameOut P s0 (execJoinAck m s) := by
  unfold execJoinAck
  try dsimp only
  with_reducible repeat' (first
    | (intro (p : Part) hp; cases p <;> first | rfl | contradiction) | intro _ | assumption | exact State.Frame.refl _
    | apply State.islIn_frame | apply State.setMem_frame | apply State.joined_frame | apply State.islSend_frame
    | apply fo_ite | apply f_ite | apply fo_next | apply fo_fault | refine f_of_next (by assumption) ?_
    | (apply f_mk; first | assumption | exact State.Frame.refl _ | apply State.islIn_frame | apply State.setMem_frame | apply State.joined_frame | apply State.islSend_frame | apply fo_ite | apply f_ite | apply fo_next | apply fo_fault)
    | split)

theorem execJoinNak_frame {s0 : State} {m : WMsg} {s : State} (h0 : s0.Frame P s) (p_regs : P .regs) (p_free : P .free)
    (p_core : P .core) (p_pass : P .pass) (p_hzn : P .hzn) (p_ras : P .ras) (p_tvx : P .tvx) :
    FrameOut P s0 (execJoinNak m s) := by
  unfold execJoinNak
  try dsimp only
  with_reducible repeat' (first
    | intro _ | assumption | exact State.Frame.refl _ | apply State.islIn_frame | apply execJoinReq_frame
    | apply State.joinRefused_frame | apply fo_ite | apply f_ite | apply fo_next | apply fo_fault
    | refine f_of_next (by assumption) ?_ | split)

theorem execJoinTimeout_frame {s0 : State} {s : State} (h0 : s0.Frame P s) (p_regs : P .regs) (p_hzn : P .hzn) :
    FrameOut P s0 (execJoinTimeout s) := by
  unfold execJoinTimeout
  try dsimp only
  with_reducible repeat' (first
    | intro _ | assumption | exact State.Frame.refl _ | apply State.joinAborted_frame | apply fo_ite | apply f_ite
    | apply fo_next | apply fo_fault)

theorem execJoinAbort_frame {s0 : State} {m : WMsg} {s : State} (h0 : s0.Frame P s) (p_regs : P .regs) (p_free : P .free)
    (p_core : P .core) (p_pass : P .pass) (p_hzn : P .hzn) (p_ras : P .ras) (p_tvx : P .tvx) :
    FrameOut P s0 (execJoinAbort m s) := by
  unfold execJoinAbort
  try dsimp only
  with_reducible repeat' (first
    | intro _ | assumption | exact State.Frame.refl _ | apply State.islIn_frame | apply execJoinReq_frame
    | apply State.setMem_frame | apply fo_next | apply fo_fault | refine f_of_next (by assumption) ?_ | split)

theorem execMemberAdmit_frame {s0 : State} {i : Fin 32} {pkg : Fin 4096} {s : State} (h0 : s0.Frame P s) (p_regs : P .regs)
    :
    FrameOut P s0 (execMemberAdmit i pkg s) := by
  unfold execMemberAdmit
  try dsimp only
  with_reducible repeat' (first
    | intro _ | assumption | exact State.Frame.refl _ | apply State.setMem_frame | apply State.put_frame | apply fo_ite
    | apply f_ite | apply fo_next | apply fo_fault)

theorem execMemberFree_frame {s0 : State} {i : Fin 32} {s : State} (h0 : s0.Frame P s) (p_regs : P .regs) :
    FrameOut P s0 (execMemberFree i s) := by
  unfold execMemberFree
  try dsimp only
  with_reducible repeat' (first
    | intro _ | assumption | exact State.Frame.refl _ | apply State.setMem_frame | apply State.put_frame | apply fo_ite
    | apply f_ite | apply fo_next | apply fo_fault)

theorem State.txnMemberLost_frame {s0 : State} {s : State} {n : Nat} {htag : Nat} {i : Nat} {pkg : Nat} {t : HTxn}
    (h0 : s0.Frame P s) (p_regs : P .regs) (p_mem : P .mem) (p_marked : P .marked) (p_net : P .net) (p_free : P .free)
    (p_core : P .core) (p_home : P .home) (p_pass : P .pass) (p_mesa : P .mesa) (p_meter : P .meter) (p_qos : P .qos)
    (p_ras : P .ras) (p_tvx : P .tvx) :
    s0.Frame P (State.txnMemberLost s n htag i pkg t) := by
  unfold State.txnMemberLost
  try dsimp only
  with_reducible repeat' (first
    | intro _ | assumption | exact State.Frame.refl _ | apply State.setLock_frame | apply State.release_frame
    | apply State.txnAnswer_frame | apply State.writeView_frame | apply State.snoop_frame | apply State.txnProceed_frame
    | apply State.tryClose_frame | apply f_ite | apply f_foldl | split)

theorem State.pxMemberLost_frame {s0 : State} {s : State} {n : Nat} {htag : Nat} {pkg : Nat} {t : HTxn} (h0 : s0.Frame P s)
    (p_regs : P .regs) (p_net : P .net) (p_home : P .home) (p_pass : P .pass) :
    s0.Frame P (State.pxMemberLost s n htag pkg t) := by
  unfold State.pxMemberLost
  try dsimp only
  with_reducible repeat' (first
    | intro _ | assumption | exact State.Frame.refl _ | apply State.sendErr_frame | apply State.pxFree_frame | apply f_ite
    | split)

theorem State.pxWbLost_frame {s0 : State} {s : State} {w : PxWb} (h0 : s0.Frame P s) (p_regs : P .regs) (p_net : P .net)
    (p_free : P .free) (p_core : P .core) (p_home : P .home) (p_pass : P .pass) (p_hzn : P .hzn) (p_ras : P .ras)
    (p_tvx : P .tvx) :
    s0.Frame P (State.pxWbLost s w) := by
  unfold State.pxWbLost
  try dsimp only
  with_reducible repeat' (first | intro _ | assumption | exact State.Frame.refl _ | apply State.pxWbDone_frame | apply State.errRecord_frame)

theorem State.memberTokens_frame {s0 : State} {s : State} {n : Nat} {i : Nat} {pkg : Nat} (h0 : s0.Frame P s)
    (p_regs : P .regs) (p_net : P .net) (p_home : P .home) (p_pass : P .pass) :
    s0.Frame P (State.memberTokens s n i pkg) := by
  unfold State.memberTokens
  try dsimp only
  with_reducible repeat' (first
    | intro _ | assumption | exact State.Frame.refl _ | apply State.setOwed_frame | apply State.tokenErr_frame
    | apply State.setTok_frame | apply execJoinReq_frame | apply State.slotFreed_frame | apply f_ite | apply f_foldN
    | refine f_of_next (by assumption) ?_ | split)

theorem State.memberLost_frame {s0 : State} {s : State} {i : Nat} (h0 : s0.Frame P s) (p_regs : P .regs) (p_mem : P .mem)
    (p_marked : P .marked) (p_net : P .net) (p_free : P .free) (p_core : P .core) (p_home : P .home) (p_pass : P .pass)
    (p_mesa : P .mesa) (p_meter : P .meter) (p_qos : P .qos) (p_hzn : P .hzn) (p_ras : P .ras) (p_tvx : P .tvx) :
    s0.Frame P (State.memberLost s i) := by
  unfold State.memberLost
  try dsimp only
  with_reducible repeat' (first
    | (intro (p : Part) hp; cases p <;> first | rfl | contradiction) | intro _ | assumption | exact State.Frame.refl _
    | apply State.setMem_frame | apply State.pxMemberLost_frame | apply State.txnMemberLost_frame
    | apply State.pxWbLost_frame | apply State.pxAgain_frame | apply State.memberTokens_frame | apply State.memSweep_frame
    | apply State.islSend_frame | apply State.logEvent_frame | apply State.bump_frame | apply State.leaveFinish_frame
    | apply f_ite | apply f_foldN | apply f_foldl | apply f_regs | apply f_mem
    | (apply f_mk; first | assumption | exact State.Frame.refl _ | apply State.setMem_frame | apply State.pxMemberLost_frame | apply State.txnMemberLost_frame | apply State.pxWbLost_frame | apply State.pxAgain_frame | apply State.memberTokens_frame | apply State.memSweep_frame | apply State.islSend_frame | apply State.logEvent_frame | apply State.bump_frame | apply State.leaveFinish_frame | apply f_ite | apply f_foldN | apply f_foldl | apply f_regs | apply f_mem)
    | split)

theorem State.selfLost_frame {s0 : State} {s : State} (h0 : s0.Frame P s) (p_regs : P .regs) (p_mem : P .mem)
    (p_marked : P .marked) (p_net : P .net) (p_free : P .free) (p_core : P .core) (p_home : P .home) (p_pass : P .pass)
    (p_mesa : P .mesa) (p_meter : P .meter) (p_qos : P .qos) (p_hzn : P .hzn) (p_ras : P .ras) (p_tvx : P .tvx) :
    s0.Frame P (State.selfLost s) := by
  unfold State.selfLost
  try dsimp only
  with_reducible repeat' (first
    | intro _ | assumption | exact State.Frame.refl _ | apply State.setMem_frame | apply State.alone_frame
    | apply State.memberLost_frame | apply f_ite | apply f_foldl)

theorem execLostNotice_frame {s0 : State} {m : WMsg} {s : State} (h0 : s0.Frame P s) (p_regs : P .regs) (p_mem : P .mem)
    (p_marked : P .marked) (p_net : P .net) (p_free : P .free) (p_core : P .core) (p_home : P .home) (p_pass : P .pass)
    (p_mesa : P .mesa) (p_meter : P .meter) (p_qos : P .qos) (p_hzn : P .hzn) (p_ras : P .ras) (p_tvx : P .tvx) :
    FrameOut P s0 (execLostNotice m s) := by
  unfold execLostNotice
  try dsimp only
  with_reducible repeat' (first
    | intro _ | assumption | exact State.Frame.refl _ | apply State.islIn_frame | apply State.joinAborted_frame
    | apply State.selfLost_frame | apply State.memberLost_frame | apply fo_ite | apply f_ite | apply fo_next
    | apply fo_fault)

theorem execLossHoldExpiry_frame {s0 : State} {i : Fin 32} {s : State} (h0 : s0.Frame P s) (p_regs : P .regs)
    (p_mem : P .mem) (p_marked : P .marked) (p_net : P .net) (p_free : P .free) (p_core : P .core) (p_home : P .home)
    (p_pass : P .pass) (p_mesa : P .mesa) (p_meter : P .meter) (p_qos : P .qos) (p_hzn : P .hzn) (p_ras : P .ras)
    (p_tvx : P .tvx) :
    FrameOut P s0 (execLossHoldExpiry i s) := by
  unfold execLossHoldExpiry
  try dsimp only
  with_reducible repeat' (first
    | intro _ | assumption | exact State.Frame.refl _ | apply State.memberLost_frame | apply fo_ite | apply f_ite
    | apply fo_next | apply fo_fault)

theorem execIslandLeave_frame {s0 : State} {s : State} (h0 : s0.Frame P s) (p_regs : P .regs) (p_home : P .home)
    (p_hzn : P .hzn) :
    FrameOut P s0 (execIslandLeave s) := by
  unfold execIslandLeave
  try dsimp only
  with_reducible repeat' (first
    | (intro (p : Part) hp; cases p <;> first | rfl | contradiction) | intro _ | assumption | exact State.Frame.refl _
    | apply State.put_frame | apply State.islSend_frame | apply State.memSweep_frame | apply fo_ite | apply f_ite
    | apply f_foldl | apply fo_next | apply fo_fault | apply f_mk)

theorem execLeaveNotice_frame {s0 : State} {m : WMsg} {s : State} (h0 : s0.Frame P s) (p_regs : P .regs) (p_free : P .free)
    (p_core : P .core) (p_home : P .home) (p_pass : P .pass) (p_hzn : P .hzn) (p_ras : P .ras) (p_tvx : P .tvx) :
    FrameOut P s0 (execLeaveNotice m s) := by
  unfold execLeaveNotice
  try dsimp only
  with_reducible repeat' (first
    | intro _ | assumption | exact State.Frame.refl _ | apply State.islIn_frame | apply execJoinReq_frame
    | apply State.joinRefused_frame | apply State.memSweep_frame | apply State.setMem_frame | apply fo_ite | apply f_ite
    | apply fo_next | apply fo_fault | refine f_of_next (by assumption) ?_ | split)

theorem execLeaveRecallComplete_frame {s0 : State} {i : Fin 32} {s : State} (h0 : s0.Frame P s) (p_regs : P .regs)
    (p_home : P .home) (p_hzn : P .hzn) :
    FrameOut P s0 (execLeaveRecallComplete i s) := by
  unfold execLeaveRecallComplete
  try dsimp only
  with_reducible repeat' (first
    | intro _ | assumption | exact State.Frame.refl _ | apply State.memSweep_frame | apply State.setMem_frame
    | apply State.islSend_frame | apply fo_ite | apply f_ite | apply fo_next | apply fo_fault)

theorem execLeaveAck_frame {s0 : State} {m : WMsg} {s : State} (h0 : s0.Frame P s) (p_regs : P .regs) (p_free : P .free)
    (p_core : P .core) (p_home : P .home) (p_pass : P .pass) (p_hzn : P .hzn) (p_ras : P .ras) (p_tvx : P .tvx) :
    FrameOut P s0 (execLeaveAck m s) := by
  unfold execLeaveAck
  try dsimp only
  with_reducible repeat' (first
    | (intro (p : Part) hp; cases p <;> first | rfl | contradiction) | intro _ | assumption | exact State.Frame.refl _
    | apply State.islIn_frame | apply execJoinReq_frame | apply State.leaveFinish_frame | apply fo_next | apply fo_fault
    | refine f_of_next (by assumption) ?_
    | (apply f_mk; first | assumption | exact State.Frame.refl _ | apply State.islIn_frame | apply execJoinReq_frame | apply State.leaveFinish_frame | apply fo_next | apply fo_fault)
    | split)

theorem execLeaveAckTimeout_frame {s0 : State} {s : State} (h0 : s0.Frame P s) (p_regs : P .regs) (p_mem : P .mem)
    (p_marked : P .marked) (p_net : P .net) (p_free : P .free) (p_core : P .core) (p_home : P .home) (p_pass : P .pass)
    (p_mesa : P .mesa) (p_meter : P .meter) (p_qos : P .qos) (p_hzn : P .hzn) (p_ras : P .ras) (p_tvx : P .tvx) :
    FrameOut P s0 (execLeaveAckTimeout s) := by
  unfold execLeaveAckTimeout
  try dsimp only
  with_reducible repeat' (first
    | intro _ | assumption | exact State.Frame.refl _ | apply State.memberLost_frame | apply fo_ite | apply f_ite
    | apply f_foldl | apply fo_next | apply fo_fault)

theorem execAltHoldExpiry_frame {s0 : State} {pkg : Fin 4096} {s : State} (h0 : s0.Frame P s) (p_regs : P .regs)
    (p_hzn : P .hzn) :
    FrameOut P s0 (execAltHoldExpiry pkg s) := by
  unfold execAltHoldExpiry
  try dsimp only
  with_reducible repeat' (first
    | (intro (p : Part) hp; cases p <;> first | rfl | contradiction) | intro _ | assumption | exact State.Frame.refl _
    | apply State.putB_frame | apply fo_ite | apply f_ite | apply fo_next | apply fo_fault | apply f_mk)

theorem State.fabricErr_frame {s0 : State} {s : State} {m : Msg} (h0 : s0.Frame P s) (p_net : P .net) :
    s0.Frame P (State.fabricErr s m) := by
  unfold State.fabricErr
  try dsimp only
  with_reducible repeat' (first | intro _ | assumption | exact State.Frame.refl _ | apply State.send_frame)

theorem State.unroutable_frame {s0 : State} {s : State} {x : HMsg} (h0 : s0.Frame P s) (p_regs : P .regs) (p_net : P .net)
    (p_hzn : P .hzn) :
    s0.Frame P (State.unroutable s x) := by
  unfold State.unroutable
  try dsimp only
  with_reducible repeat' (first
    | intro _ | assumption | exact State.Frame.refl _ | apply State.bump_frame | apply State.fabricErr_frame
    | apply State.wGo_frame | apply f_ite | split)

theorem State.hznEmit_frame {s0 : State} {s : State} {p : Nat} {x : HMsg} {issued : Bool} (h0 : s0.Frame P s)
    (p_regs : P .regs) (p_pass : P .pass) (p_meter : P .meter) (p_qos : P .qos) (p_hzn : P .hzn) :
    s0.Frame P (State.hznEmit s p x issued) := by
  unfold State.hznEmit
  try dsimp only
  with_reducible repeat' (first
    | intro _ | assumption | exact State.Frame.refl _ | apply State.setHPort_frame | apply State.setHStrm_frame
    | apply State.count_frame | apply State.hznFrames_frame | apply State.hznTxMeter_frame | apply State.chargeTokens_frame
    | apply f_ite)

theorem State.rev2Drop_frame {s0 : State} {s : State} {p : Nat} {m : Msg} (h0 : s0.Frame P s) (p_regs : P .regs)
    (p_net : P .net) (p_free : P .free) (p_core : P .core) (p_pass : P .pass) (p_ras : P .ras) (p_tvx : P .tvx) :
    s0.Frame P (State.rev2Drop s p m) := by
  unfold State.rev2Drop
  try dsimp only
  with_reducible repeat' (first
    | intro _ | assumption | exact State.Frame.refl _ | apply State.fabricErr_frame | apply State.errRecord_frame
    | apply f_ite)

theorem State.hznLeave_frame {s0 : State} {s : State} {x : HMsg} {z2 : Option Nat} (h0 : s0.Frame P s) (p_net : P .net)
    (p_pass : P .pass) (p_hzn : P .hzn) :
    s0.Frame P (State.hznLeave s x z2) := by
  unfold State.hznLeave
  try dsimp only
  with_reducible repeat' (first
    | (intro (p : Part) hp; cases p <;> first | rfl | contradiction) | intro _ | assumption | exact State.Frame.refl _
    | apply execJoinReq_frame | apply State.hznConsume_frame | apply State.unroutable_frame | apply State.take_frame
    | refine f_of_next (by assumption) ?_
    | (apply f_mk; first | assumption | exact State.Frame.refl _ | apply execJoinReq_frame | apply State.hznConsume_frame | apply State.unroutable_frame | apply State.take_frame)
    | split)

theorem execMessageForward_frame {s0 : State} {x : HMsg} {src : Option HPort} {s : State} (h0 : s0.Frame P s)
    (p_regs : P .regs) (p_net : P .net) (p_free : P .free) (p_core : P .core) (p_pass : P .pass) (p_meter : P .meter)
    (p_qos : P .qos) (p_hzn : P .hzn) (p_ras : P .ras) (p_tvx : P .tvx) :
    FrameOut P s0 (execMessageForward x src s) := by
  unfold execMessageForward
  try dsimp only
  with_reducible repeat' (first
    | intro _ | assumption | exact State.Frame.refl _ | apply State.unroutable_frame | apply State.hznLeave_frame
    | apply execJoinAck_frame | apply State.hznEmit_frame | apply State.rev2Drop_frame | apply fo_ite | apply f_ite
    | apply fo_next | apply fo_fault | refine f_of_next (by assumption) ?_ | split)

theorem execForwardResidenceTimeout_frame {s0 : State} {s : State} (h0 : s0.Frame P s) (p_regs : P .regs) (p_net : P .net)
    (p_pass : P .pass) (p_hzn : P .hzn) :
    FrameOut P s0 (execForwardResidenceTimeout s) := by
  unfold execForwardResidenceTimeout
  try dsimp only
  with_reducible repeat' (first
    | intro _ | assumption | exact State.Frame.refl _ | apply State.bump_frame | apply State.hznLeave_frame
    | apply State.put_frame | apply fo_next | apply fo_fault | split)

theorem execProxyCohTimeout_frame {s0 : State} {n : Ix16} {htag : Fin 512} {s : State} (h0 : s0.Frame P s)
    (p_regs : P .regs) (p_net : P .net) (p_home : P .home) :
    FrameOut P s0 (execProxyCohTimeout n htag s) := by
  unfold execProxyCohTimeout
  try dsimp only
  with_reducible repeat' (first
    | intro _ | assumption | exact State.Frame.refl _ | apply State.memberLost_frame | apply State.setLock_frame
    | apply State.sendErr_frame | apply fo_ite | apply f_ite | apply fo_next | apply fo_fault | split)

theorem execProxyCohFinalTimeout_frame {s0 : State} {n : Ix16} {txn : Fin 4096} {s : State} (h0 : s0.Frame P s)
    (p_regs : P .regs) (p_mem : P .mem) (p_marked : P .marked) (p_net : P .net) (p_free : P .free) (p_core : P .core)
    (p_home : P .home) (p_pass : P .pass) (p_mesa : P .mesa) (p_meter : P .meter) (p_qos : P .qos) (p_hzn : P .hzn)
    (p_ras : P .ras) (p_tvx : P .tvx) :
    FrameOut P s0 (execProxyCohFinalTimeout n txn s) := by
  unfold execProxyCohFinalTimeout
  try dsimp only
  with_reducible repeat' (first
    | intro _ | assumption | exact State.Frame.refl _ | apply execJoinReq_frame | apply State.memberLost_frame
    | apply State.pxWbLost_frame | apply State.pxMemberLost_frame | apply fo_ite | apply f_ite | apply fo_next
    | apply fo_fault | refine f_of_next (by assumption) ?_ | split)

theorem execProxyWbTimeout_frame {s0 : State} {n : Ix16} {line : Nat} {s : State} (h0 : s0.Frame P s) (p_net : P .net) :
    FrameOut P s0 (execProxyWbTimeout n line s) := by
  unfold execProxyWbTimeout
  try dsimp only
  with_reducible repeat' (first
    | intro _ | assumption | exact State.Frame.refl _ | apply execProxyCohFinalTimeout_frame | apply State.send_frame
    | apply fo_next | apply fo_fault | refine f_of_next (by assumption) ?_ | split)

theorem execHomeWaitTimeout_frame {s0 : State} {n : Ix16} {htag : Fin 512} {s : State} (h0 : s0.Frame P s)
    (p_regs : P .regs) (p_mem : P .mem) (p_marked : P .marked) (p_net : P .net) (p_free : P .free) (p_core : P .core)
    (p_home : P .home) (p_pass : P .pass) (p_mesa : P .mesa) (p_meter : P .meter) (p_qos : P .qos) (p_hzn : P .hzn)
    (p_ras : P .ras) (p_tvx : P .tvx) :
    FrameOut P s0 (execHomeWaitTimeout n htag s) := by
  unfold execHomeWaitTimeout
  try dsimp only
  with_reducible repeat' (first
    | intro _ | assumption | exact State.Frame.refl _ | apply State.memberLost_frame | apply execJoinReq_frame
    | apply fo_next | apply fo_fault | refine f_of_next (by assumption) ?_ | split)

theorem execIoCohTimeout_frame {s0 : State} {agent : Fin 256} {txn : Fin 4096} {s : State} (h0 : s0.Frame P s)
    (p_regs : P .regs) (p_net : P .net) (p_free : P .free) (p_core : P .core) (p_pass : P .pass) (p_meter : P .meter)
    (p_hzn : P .hzn) (p_xce : P .xce) (p_io : P .io) (p_ras : P .ras) (p_tvx : P .tvx) (p_ccol : P .ccol) :
    FrameOut P s0 (execIoCohTimeout agent txn s) := by
  unfold execIoCohTimeout
  try dsimp only
  with_reducible repeat' (first
    | intro _ | assumption | exact State.Frame.refl _ | apply State.setReqs_frame | apply State.xceAer_frame
    | apply State.ioOutcome_frame | apply fo_ite | apply f_ite | apply fo_next | apply fo_fault | split)

theorem execIoCohFinalTimeout_frame {s0 : State} {agent : Fin 256} {txn : Fin 4096} {s : State} (h0 : s0.Frame P s)
    (p_regs : P .regs) (p_net : P .net) (p_free : P .free) (p_core : P .core) (p_pass : P .pass) (p_meter : P .meter)
    (p_hzn : P .hzn) (p_xce : P .xce) (p_io : P .io) (p_ras : P .ras) (p_tvx : P .tvx) (p_ccol : P .ccol) :
    FrameOut P s0 (execIoCohFinalTimeout agent txn s) := by
  unfold execIoCohFinalTimeout
  try dsimp only
  with_reducible repeat' (first
    | intro _ | assumption | exact State.Frame.refl _ | apply execIoCohTimeout_frame | apply State.ioCommit_frame
    | apply State.ioDrop_frame | apply fo_ite | apply f_ite | apply fo_next | apply fo_fault
    | refine f_of_next (by assumption) ?_ | split)

end Sys2Proof.Machine
end

