-- ==== Sys2Proof/Laws/FrameTick.lean ====
section
/-!
SUPPORT. What each function of Machine/Tick.lean leaves alone (`State.Frame`, Safety.lean): one lemma for each.
-/

namespace Sys2Proof.Machine

variable {P : Part → Prop}

theorem State.ctrTick_frame {s0 : State} {s : State} {t0 : Nat} {t1 : Nat} {a : Nat} (h0 : s0.Frame P s) (p_regs : P .regs)
    (p_pass : P .pass) :
    s0.Frame P (State.ctrTick s t0 t1 a) := by
  unfold State.ctrTick
  try dsimp only
  with_reducible repeat' (first | intro _ | assumption | exact State.Frame.refl _ | apply State.ctrAdd_frame | apply f_ite | split)

theorem State.ctrTicks_frame {s0 : State} {s : State} {t0 : Nat} {t1 : Nat} (h0 : s0.Frame P s) (p_regs : P .regs)
    (p_pass : P .pass) :
    s0.Frame P (State.ctrTicks s t0 t1) := by
  unfold State.ctrTicks
  try dsimp only
  with_reducible repeat' (first | intro _ | assumption | exact State.Frame.refl _ | apply State.ctrTick_frame | apply f_ite | apply f_foldl)

theorem State.elapse_frame {s0 : State} {s : State} {n : Nat} (h0 : s0.Frame P s) (p_regs : P .regs) (p_core : P .core)
    (p_pass : P .pass) (p_meter : P .meter) (p_qos : P .qos) (p_hzn : P .hzn) (p_ras : P .ras) (p_pwr : P .pwr) :
    s0.Frame P (State.elapse s n) := by
  unfold State.elapse
  try dsimp only
  with_reducible repeat' (first
    | (intro (p : Part) hp; cases p <;> first | rfl | contradiction) | intro _ | assumption | exact State.Frame.refl _
    | apply State.ctrTicks_frame | apply State.onchipTime_frame | apply State.coreTime_frame | apply State.hznTime_frame
    | apply f_ite | apply f_foldN | apply f_mk)

theorem State.elapseTo_frame {s0 : State} {s : State} {t : Nat} (h0 : s0.Frame P s) (p_regs : P .regs) (p_core : P .core)
    (p_pass : P .pass) (p_meter : P .meter) (p_qos : P .qos) (p_hzn : P .hzn) (p_ras : P .ras) (p_pwr : P .pwr) :
    s0.Frame P (State.elapseTo s t) := by
  unfold State.elapseTo
  try dsimp only
  with_reducible repeat' (first
    | (intro (p : Part) hp; cases p <;> first | rfl | contradiction) | intro _ | assumption | exact State.Frame.refl _
    | apply State.elapse_frame | apply f_ite | apply f_mk)

end Sys2Proof.Machine
end

