-- ==== Sys2Proof/Laws/FrameMeter.lean ====
section
/-!
SUPPORT. What each function of Machine/Meter.lean leaves alone (`State.Frame`, Safety.lean): one lemma for each.
-/

namespace Sys2Proof.Machine

variable {P : Part → Prop}

theorem State.qosReply_frame {s0 : State} {s : State} {c : Nat} {kind : Nat} {status : Nat} {result : Nat}
    (h0 : s0.Frame P s) (p_qos : P .qos) :
    s0.Frame P (State.qosReply s c kind status result) := by
  unfold State.qosReply
  try dsimp only
  with_reducible repeat' (first
    | (intro (p : Part) hp; cases p <;> first | rfl | contradiction) | intro _ | assumption | exact State.Frame.refl _
    | apply f_mk)

theorem execCbqriAllocConfig_frame {s0 : State} {k : QosCtl} {rcid : Fin 1024} {v : Word} {s : State} (h0 : s0.Frame P s)
    (p_qos : P .qos) :
    FrameOut P s0 (execCbqriAllocConfig k rcid v s) := by
  unfold execCbqriAllocConfig
  try dsimp only
  with_reducible repeat' (first
    | (intro (p : Part) hp; cases p <;> first | rfl | contradiction) | intro _ | assumption | exact State.Frame.refl _
    | apply State.qosReply_frame | apply State.setCapMask_frame | apply fo_ite | apply f_ite | apply fo_next
    | apply fo_fault | apply f_mk)

theorem execCbqriAllocRead_frame {s0 : State} {k : QosCtl} {rcid : Fin 1024} {s : State} (h0 : s0.Frame P s)
    (p_qos : P .qos) :
    FrameOut P s0 (execCbqriAllocRead k rcid s) := by
  unfold execCbqriAllocRead
  try dsimp only
  with_reducible repeat' (first
    | intro _ | assumption | exact State.Frame.refl _ | apply State.qosReply_frame | apply fo_ite | apply f_ite
    | apply fo_next | apply fo_fault)

theorem execCbqriMonitorConfig_frame {s0 : State} {k : QosCtl} {mcid : Fin 1024} {ev : Nat} {s : State} (h0 : s0.Frame P s)
    (p_qos : P .qos) :
    FrameOut P s0 (execCbqriMonitorConfig k mcid ev s) := by
  unfold execCbqriMonitorConfig
  try dsimp only
  with_reducible repeat' (first
    | (intro (p : Part) hp; cases p <;> first | rfl | contradiction) | intro _ | assumption | exact State.Frame.refl _
    | apply State.qosReply_frame | apply fo_ite | apply f_ite | apply fo_next | apply fo_fault | apply f_mk)

theorem execCbqriMonitorRead_frame {s0 : State} {k : QosCtl} {mcid : Fin 1024} {s : State} (h0 : s0.Frame P s)
    (p_qos : P .qos) :
    FrameOut P s0 (execCbqriMonitorRead k mcid s) := by
  unfold execCbqriMonitorRead
  try dsimp only
  with_reducible repeat' (first
    | intro _ | assumption | exact State.Frame.refl _ | apply State.qosReply_frame | apply fo_ite | apply f_ite
    | apply fo_next | apply fo_fault | split)

theorem execBwEpoch_frame {s0 : State} {k : QosCtl} {s : State} (h0 : s0.Frame P s) (p_regs : P .regs) (p_mem : P .mem)
    (p_marked : P .marked) (p_net : P .net) (p_free : P .free) (p_core : P .core) (p_home : P .home) (p_pass : P .pass)
    (p_mesa : P .mesa) (p_meter : P .meter) (p_qos : P .qos) (p_ras : P .ras) (p_tvx : P .tvx) :
    FrameOut P s0 (execBwEpoch k s) := by
  unfold execBwEpoch
  try dsimp only
  with_reducible repeat' (first
    | (intro (p : Part) hp; cases p <;> first | rfl | contradiction) | intro _ | assumption | exact State.Frame.refl _
    | apply State.setBal_frame | apply State.setWaited_frame | apply State.chFlush_frame | apply State.setPool_frame
    | apply fo_ite | apply f_ite | apply f_foldl | apply fo_next | apply fo_fault | apply f_regs | apply f_mem | apply f_mk)

theorem State.setMeter_frame {s0 : State} {s : State} {m : MeterSt} (h0 : s0.Frame P s) (p_meter : P .meter) :
    s0.Frame P (State.setMeter s m) := by
  unfold State.setMeter
  try dsimp only
  with_reducible repeat' (first
    | (intro (p : Part) hp; cases p <;> first | rfl | contradiction) | intro _ | assumption | exact State.Frame.refl _
    | apply f_mk)

theorem State.freshToOpen_frame {s0 : State} {s : State} (h0 : s0.Frame P s) (p_meter : P .meter) :
    s0.Frame P (State.freshToOpen s) := by
  unfold State.freshToOpen
  try dsimp only
  with_reducible repeat' (first | intro _ | assumption | exact State.Frame.refl _ | apply State.setMeter_frame | split)

theorem State.sealOpen_frame {s0 : State} {s : State} (h0 : s0.Frame P s) (p_meter : P .meter) :
    s0.Frame P (State.sealOpen s) := by
  unfold State.sealOpen
  try dsimp only
  with_reducible repeat' (first
    | intro _ | assumption | exact State.Frame.refl _ | apply State.freshToOpen_frame | apply State.setMeter_frame
    | apply f_ite | split)

theorem State.banksRead_frame {s0 : State} {s : State} (h0 : s0.Frame P s) (p_meter : P .meter) :
    s0.Frame P (State.banksRead s) := by
  unfold State.banksRead
  try dsimp only
  with_reducible repeat' (first
    | intro _ | assumption | exact State.Frame.refl _ | apply State.sealOpen_frame | apply State.setMeter_frame
    | apply f_ite | apply f_foldN | apply f_foldl | split)

theorem execMinuteBoundary_frame {s0 : State} {s : State} (h0 : s0.Frame P s) (p_regs : P .regs) (p_core : P .core)
    (p_pass : P .pass) (p_meter : P .meter) (p_qos : P .qos) (p_hzn : P .hzn) (p_ras : P .ras) (p_pwr : P .pwr) :
    FrameOut P s0 (execMinuteBoundary s) := by
  unfold execMinuteBoundary
  try dsimp only
  with_reducible repeat' (first
    | intro _ | assumption | exact State.Frame.refl _ | apply State.freshToOpen_frame | apply State.banksRead_frame
    | apply State.elapseTo_frame | apply State.setMeter_frame | apply State.sealOpen_frame | apply fo_ite | apply f_ite
    | apply fo_next | apply fo_fault | split)

theorem execOccupancySample_frame {s0 : State} {s : State} (h0 : s0.Frame P s) (p_regs : P .regs) (p_core : P .core)
    (p_pass : P .pass) (p_meter : P .meter) (p_qos : P .qos) (p_hzn : P .hzn) (p_ras : P .ras) (p_pwr : P .pwr) :
    FrameOut P s0 (execOccupancySample s) := by
  unfold execOccupancySample
  try dsimp only
  with_reducible repeat' (first
    | intro _ | assumption | exact State.Frame.refl _ | apply State.elapseTo_frame | apply State.setMeter_frame
    | apply State.meterIn_frame | apply fo_ite | apply f_ite | apply f_foldl | apply fo_next | apply fo_fault)

theorem execMeterBanksRead_frame {s0 : State} {s : State} (h0 : s0.Frame P s) (p_meter : P .meter) :
    FrameOut P s0 (execMeterBanksRead s) := by
  unfold execMeterBanksRead
  try dsimp only
  with_reducible repeat' (first | intro _ | assumption | exact State.Frame.refl _ | apply State.banksRead_frame | apply fo_next | apply fo_fault)

theorem execEnergyDelivery_frame {s0 : State} {total : Nat} {cores : List (Nat × Nat)} {uncore : Nat} {idle : Nat}
    {s : State} (h0 : s0.Frame P s) (p_meter : P .meter) :
    FrameOut P s0 (execEnergyDelivery total cores uncore idle s) := by
  unfold execEnergyDelivery
  try dsimp only
  with_reducible repeat' (first
    | intro _ | assumption | exact State.Frame.refl _ | apply State.freshToOpen_frame | apply State.setMeter_frame
    | apply fo_ite | apply f_ite | apply f_foldl | apply fo_next | apply fo_fault | split)

theorem execMeterSeal_frame {s0 : State} {s : State} (h0 : s0.Frame P s) (p_meter : P .meter) :
    FrameOut P s0 (execMeterSeal s) := by
  unfold execMeterSeal
  try dsimp only
  with_reducible repeat' (first
    | intro _ | assumption | exact State.Frame.refl _ | apply State.freshToOpen_frame | apply State.sealOpen_frame
    | apply fo_ite | apply f_ite | apply fo_next | apply fo_fault | split)

theorem State.ringLine_frame {s0 : State} {s : State} {stream : Nat} {ga : Nat} {why : IoWhy} {data : List Nat} {rid : Nat}
    (h0 : s0.Frame P s) (p_regs : P .regs) (p_net : P .net) (p_io : P .io) :
    s0.Frame P (State.ringLine s stream ga why data rid).1 := by
  unfold State.ringLine
  try dsimp only
  with_reducible repeat' (first | intro _ | assumption | exact State.Frame.refl _ | apply State.ioSend_frame | apply State.decodeErr_frame | split)

theorem State.ringLines_frame {s0 : State} {s : State} {stream : Nat} {rid : Nat} {mk : Nat → IoWhy}
    {z4 : List (Nat × Nat × List Nat)} (h0 : s0.Frame P s) (p_regs : P .regs) (p_net : P .net) (p_io : P .io) :
    s0.Frame P (State.ringLines s stream rid mk z4).1 := by
  induction z4 generalizing s stream rid with
  | nil =>
    unfold State.ringLines
    try dsimp only
    with_reducible repeat' (first
      | intro _ | assumption | exact State.Frame.refl _ | apply State.ringLine_frame | refine f_of_snd (by assumption) ?_
      | refine f_of_fst (by assumption) ?_ | refine f_of_some (by assumption) ?_ | split)
  | cons e l ih =>
    unfold State.ringLines
    try dsimp only
    with_reducible repeat' (first
      | intro _ | assumption | exact State.Frame.refl _ | apply State.ringLine_frame | refine f_of_snd (by assumption) ?_
      | refine f_of_fst (by assumption) ?_ | refine f_of_some (by assumption) ?_ | split | apply ih)


theorem execMeterRingDeliver_frame {s0 : State} {s : State} (h0 : s0.Frame P s) (p_regs : P .regs) (p_net : P .net)
    (p_free : P .free) (p_core : P .core) (p_pass : P .pass) (p_meter : P .meter) (p_io : P .io) (p_ras : P .ras)
    (p_tvx : P .tvx) :
    FrameOut P s0 (execMeterRingDeliver s) := by
  unfold execMeterRingDeliver
  try dsimp only
  with_reducible repeat' (first
    | intro _ | assumption | exact State.Frame.refl _ | apply State.freshToOpen_frame | apply State.setMeter_frame
    | apply State.ringLines_frame | apply State.meterLine_frame | apply fo_ite | apply f_ite | apply f_ite_fst
    | apply f_ite_snd | apply fo_next | apply fo_fault | refine f_of_snd (by assumption) ?_
    | refine f_of_fst (by assumption) ?_ | refine f_of_some (by assumption) ?_ | split)

theorem execMeterSetDelivered_frame {s0 : State} {s : State} (h0 : s0.Frame P s) (p_regs : P .regs) (p_pass : P .pass)
    (p_meter : P .meter) :
    FrameOut P s0 (execMeterSetDelivered s) := by
  unfold execMeterSetDelivered
  try dsimp only
  with_reducible repeat' (first
    | intro _ | assumption | exact State.Frame.refl _ | apply State.freshToOpen_frame | apply State.setMeter_frame
    | apply State.wrapAdd_frame | apply State.setReg_frame | apply State.bump_frame | apply State.sendMsi_frame
    | apply fo_ite | apply f_ite | apply fo_next | apply fo_fault | split)

theorem State.flashGate_frame {s0 : State} {s : State} {body : State → State × Reply} (h0 : s0.Frame P s)
    (hp_body : ∀ (u : State) (y0 : State), u.Frame P y0 → u.Frame P (body y0).1) :
    s0.Frame P (State.flashGate s body).1 := by
  unfold State.flashGate
  try dsimp only
  with_reducible repeat' (first | intro _ | assumption | exact State.Frame.refl _ | apply hp_body | apply f_ite | apply f_ite_fst | apply f_ite_snd)

theorem State.setKey_frame {s0 : State} {s : State} {k : Nat} {v : List Nat} (h0 : s0.Frame P s) (p_meter : P .meter) :
    s0.Frame P (State.setKey s k v) := by
  unfold State.setKey
  try dsimp only
  with_reducible repeat' (first | intro _ | assumption | exact State.Frame.refl _ | apply State.setMeter_frame)

theorem execMeterKeySet_frame {s0 : State} {s : State} (h0 : s0.Frame P s) (p_free : P .free) (p_meter : P .meter)
    (p_tvx : P .tvx) :
    FrameOut P s0 (execMeterKeySet s) := by
  unfold execMeterKeySet
  try dsimp only
  with_reducible repeat' (first
    | intro _ | assumption | exact State.Frame.refl _ | apply State.execHead_frame | apply State.flashGate_frame
    | apply State.setKey_frame | apply fo_ite | apply f_ite | apply f_ite_fst | apply f_ite_snd | apply fo_next
    | apply fo_fault)

theorem execMeterKeyActivate_frame {s0 : State} {s : State} (h0 : s0.Frame P s) (p_free : P .free) (p_meter : P .meter)
    (p_tvx : P .tvx) :
    FrameOut P s0 (execMeterKeyActivate s) := by
  unfold execMeterKeyActivate
  try dsimp only
  with_reducible repeat' (first
    | intro _ | assumption | exact State.Frame.refl _ | apply State.execHead_frame | apply State.flashGate_frame
    | apply State.setMeter_frame | apply fo_ite | apply f_ite | apply f_ite_fst | apply f_ite_snd | apply fo_next
    | apply fo_fault)

theorem execMeterKeyClear_frame {s0 : State} {s : State} (h0 : s0.Frame P s) (p_free : P .free) (p_meter : P .meter)
    (p_tvx : P .tvx) :
    FrameOut P s0 (execMeterKeyClear s) := by
  unfold execMeterKeyClear
  try dsimp only
  with_reducible repeat' (first
    | intro _ | assumption | exact State.Frame.refl _ | apply State.execHead_frame | apply State.flashGate_frame
    | apply State.setKey_frame | apply State.setMeter_frame | apply fo_ite | apply f_ite | apply f_ite_fst | apply f_ite_snd
    | apply fo_next | apply fo_fault)

theorem execMeterKeyQuery_frame {s0 : State} {s : State} (h0 : s0.Frame P s) (p_free : P .free) (p_tvx : P .tvx) :
    FrameOut P s0 (execMeterKeyQuery s) := by
  unfold execMeterKeyQuery
  try dsimp only
  with_reducible repeat' (first
    | intro _ | assumption | exact State.Frame.refl _ | apply State.execHead_frame | apply State.flashGate_frame
    | apply fo_ite | apply f_ite | apply f_ite_fst | apply f_ite_snd | apply fo_next | apply fo_fault)

theorem State.meterStatus_frame {s0 : State} {s : State} (h0 : s0.Frame P s) (p_regs : P .regs) :
    s0.Frame P (State.meterStatus s) := by
  unfold State.meterStatus
  try dsimp only
  with_reducible repeat' (first
    | intro _ | assumption | exact State.Frame.refl _ | apply State.freshToOpen_frame | apply State.putB_frame
    | apply State.put_frame | apply f_ite | split)

end Sys2Proof.Machine
end

