-- ==== Sys2Proof/Laws/FrameXceOps.lean ====
section
/-!
SUPPORT. What each function of Machine/XceOps.lean leaves alone (`State.Frame`, Safety.lean): one lemma for each.
-/

namespace Sys2Proof.Machine

variable {P : Part → Prop}

theorem State.winIn_frame {s0 : State} {s : State} {m : WMsg} {go : State → Nat → Nat → State} (h0 : s0.Frame P s)
    (hp_go : ∀ (u : State) (y0 : State) (y1 : Nat) (y2 : Nat), u.Frame P y0 → u.Frame P (go y0 y1 y2)) (p_regs : P .regs)
    (p_net : P .net) (p_free : P .free) (p_core : P .core) (p_pass : P .pass) (p_hzn : P .hzn) (p_xce : P .xce)
    (p_io : P .io) (p_ras : P .ras) (p_tvx : P .tvx) :
    s0.Frame P (State.winIn s m go) := by
  unfold State.winIn
  try dsimp only
  with_reducible repeat' (first
    | intro _ | assumption | exact State.Frame.refl _ | apply State.wTake_frame | apply State.wGo_frame
    | apply State.count_frame | apply State.xceAer_frame | apply hp_go | apply f_ite)

theorem State.xceLate_frame {s0 : State} {s : State} {f : Nat} (h0 : s0.Frame P s) (p_regs : P .regs) (p_net : P .net)
    (p_free : P .free) (p_core : P .core) (p_pass : P .pass) (p_xce : P .xce) (p_io : P .io) (p_ras : P .ras)
    (p_tvx : P .tvx) :
    s0.Frame P (State.xceLate s f) := by
  unfold State.xceLate
  try dsimp only
  with_reducible repeat' (first
    | intro _ | assumption | exact State.Frame.refl _ | apply State.xceAer_frame | apply State.logEvent_frame
    | apply State.bump_frame | apply State.xceEvent_frame | apply State.count_frame)

theorem State.bar2Fault_frame {s0 : State} {s : State} {h : Nat} (h0 : s0.Frame P s) (p_regs : P .regs) (p_free : P .free)
    (p_core : P .core) (p_pass : P .pass) (p_ras : P .ras) (p_tvx : P .tvx) :
    s0.Frame P (State.bar2Fault s h) := by
  unfold State.bar2Fault
  try dsimp only
  with_reducible repeat' (first
    | intro _ | assumption | exact State.Frame.refl _ | apply State.hartRecord_frame | apply State.trapHart_frame
    | apply State.setHart_frame | apply f_ite | split)

theorem State.bar2Value_frame {s0 : State} {s : State} {h : Nat} {v : Nat} (h0 : s0.Frame P s) (p_regs : P .regs)
    (p_core : P .core) :
    s0.Frame P (State.bar2Value s h v) := by
  unfold State.bar2Value
  try dsimp only
  with_reducible repeat' (first
    | intro _ | assumption | exact State.Frame.refl _ | apply State.bar2Fault_frame | apply State.setOut_frame
    | apply State.retire_frame | apply State.setHart_frame | apply f_ite | split)

theorem State.bar2Drop_frame {s0 : State} {s : State} {f : Nat} {slot : Nat} {detail : Nat} (h0 : s0.Frame P s)
    (p_regs : P .regs) :
    s0.Frame P (State.bar2Drop s f slot detail) := by
  unfold State.bar2Drop
  try dsimp only
  with_reducible repeat' (first | intro _ | assumption | exact State.Frame.refl _ | apply State.bump_frame | apply State.put_frame)

theorem State.setTags_frame {s0 : State} {s : State} {l : List XTag} (h0 : s0.Frame P s) (p_xce : P .xce) :
    s0.Frame P (State.setTags s l) := by
  unfold State.setTags
  try dsimp only
  with_reducible repeat' (first
    | (intro (p : Part) hp; cases p <;> first | rfl | contradiction) | intro _ | assumption | exact State.Frame.refl _
    | apply f_mk)

theorem State.dropTag_frame {s0 : State} {s : State} {t : XTag} (h0 : s0.Frame P s) (p_xce : P .xce) :
    s0.Frame P (State.dropTag s t) := by
  unfold State.dropTag
  try dsimp only
  with_reducible repeat' (first | intro _ | assumption | exact State.Frame.refl _ | apply State.setTags_frame)

theorem State.tagFail_frame {s0 : State} {s : State} {t : XTag} {e : Nat × Nat} (h0 : s0.Frame P s) (p_regs : P .regs)
    (p_free : P .free) (p_core : P .core) (p_pass : P .pass) (p_meter : P .meter) (p_xce : P .xce) (p_ras : P .ras)
    (p_tvx : P .tvx) :
    s0.Frame P (State.tagFail s t e) := by
  unfold State.tagFail
  try dsimp only
  with_reducible repeat' (first
    | intro _ | assumption | exact State.Frame.refl _ | apply State.descPiece_frame | apply State.bar2Fault_frame
    | apply State.bar2Drop_frame | split)

theorem State.winCpl_frame {s0 : State} {s : State} {m : WMsg} {good : State → XTag → State} (h0 : s0.Frame P s)
    (hp_good : ∀ (u : State) (y0 : State) (y1 : XTag), u.Frame P y0 → u.Frame P (good y0 y1)) (p_regs : P .regs)
    (p_net : P .net) (p_free : P .free) (p_core : P .core) (p_pass : P .pass) (p_meter : P .meter) (p_hzn : P .hzn)
    (p_xce : P .xce) (p_io : P .io) (p_ras : P .ras) (p_tvx : P .tvx) :
    s0.Frame P (State.winCpl s m good) := by
  unfold State.winCpl
  try dsimp only
  with_reducible repeat' (first
    | intro _ | assumption | exact State.Frame.refl _ | apply State.wTake_frame | apply State.bump_frame
    | apply State.count_frame | apply State.dropTag_frame | apply State.xceLate_frame | apply State.tagFail_frame
    | apply State.xceAer_frame | apply hp_good | apply f_ite | split)

theorem State.winData_frame {s0 : State} {s : State} {t : XTag} {len : Nat} {data : List Nat} {tr : List Xlate}
    (h0 : s0.Frame P s) (p_regs : P .regs) (p_net : P .net) (p_free : P .free) (p_core : P .core) (p_pass : P .pass)
    (p_meter : P .meter) (p_hzn : P .hzn) (p_xce : P .xce) (p_io : P .io) :
    s0.Frame P (State.winData s t len data tr) := by
  unfold State.winData
  try dsimp only
  with_reducible repeat' (first
    | intro _ | assumption | exact State.Frame.refl _ | apply State.tagFail_frame | apply State.xopRun_frame
    | apply State.xopBegin_frame | apply State.bar2Value_frame | refine f_of_snd (by assumption) ?_
    | refine f_of_fst (by assumption) ?_ | refine f_of_some (by assumption) ?_ | split)

theorem State.tagTimeout_frame {s0 : State} {s : State} {t : XTag} (h0 : s0.Frame P s) (p_regs : P .regs) (p_net : P .net)
    (p_free : P .free) (p_core : P .core) (p_pass : P .pass) (p_meter : P .meter) (p_xce : P .xce) (p_io : P .io)
    (p_ras : P .ras) (p_tvx : P .tvx) :
    s0.Frame P (State.tagTimeout s t) := by
  unfold State.tagTimeout
  try dsimp only
  with_reducible repeat' (first
    | intro _ | assumption | exact State.Frame.refl _ | apply State.setTags_frame | apply State.count_frame
    | apply State.tagFail_frame | apply State.xceAer_frame | apply f_ite)

theorem State.resetRegs_frame {s0 : State} {s : State} {lo : Nat} {hi : Nat} {keep : Nat → Bool} (h0 : s0.Frame P s)
    (p_regs : P .regs) :
    s0.Frame P (State.resetRegs s lo hi keep) := by
  unfold State.resetRegs
  try dsimp only
  with_reducible repeat' (first
    | (intro (p : Part) hp; cases p <;> first | rfl | contradiction) | intro _ | assumption | exact State.Frame.refl _
    | apply f_regs | apply f_mem | apply f_mk)

theorem State.qpSquash_frame {s0 : State} {s : State} {f : Nat} {q : Nat} (h0 : s0.Frame P s) (p_xce : P .xce) :
    s0.Frame P (State.qpSquash s f q) := by
  unfold State.qpSquash
  try dsimp only
  with_reducible repeat' (first | intro _ | assumption | exact State.Frame.refl _ | apply State.setQp_frame)

theorem State.fnReset_frame {s0 : State} {s : State} {f : Nat} (h0 : s0.Frame P s) (p_regs : P .regs) (p_xce : P .xce)
    (p_io : P .io) :
    s0.Frame P (State.fnReset s f) := by
  unfold State.fnReset
  try dsimp only
  with_reducible repeat' (first
    | (intro (p : Part) hp; cases p <;> first | rfl | contradiction) | intro _ | assumption | exact State.Frame.refl _
    | apply State.qpSquash_frame | apply State.resetCfg_frame | apply State.resetRegs_frame | apply State.put_frame
    | apply f_ite | apply f_foldN | apply f_regs | apply f_mem | apply f_mk)

theorem State.drainStart_frame {s0 : State} {s : State} {f : Nat} (h0 : s0.Frame P s) (p_regs : P .regs) (p_pass : P .pass)
    (p_xce : P .xce) (p_io : P .io) :
    s0.Frame P (State.drainStart s f) := by
  unfold State.drainStart
  try dsimp only
  with_reducible repeat' (first
    | (intro (p : Part) hp; cases p <;> first | rfl | contradiction) | intro _ | assumption | exact State.Frame.refl _
    | apply State.fnReset_frame | apply State.put_frame | apply State.count_frame | apply State.putCfg_frame | apply f_ite
    | apply f_mk)

theorem State.vfCreate_frame {s0 : State} {s : State} (h0 : s0.Frame P s) (p_regs : P .regs) (p_xce : P .xce) (p_io : P .io)
    :
    s0.Frame P (State.vfCreate s) := by
  unfold State.vfCreate
  try dsimp only
  with_reducible repeat' (first
    | (intro (p : Part) hp; cases p <;> first | rfl | contradiction) | intro _ | assumption | exact State.Frame.refl _
    | apply State.put_frame | apply State.putCfg_frame | apply f_mk)

theorem State.vfDrainEnd_frame {s0 : State} {s : State} (h0 : s0.Frame P s) (p_regs : P .regs) (p_net : P .net)
    (p_free : P .free) (p_pass : P .pass) (p_xce : P .xce) (p_io : P .io) :
    s0.Frame P (State.vfDrainEnd s) := by
  unfold State.vfDrainEnd
  try dsimp only
  with_reducible repeat' (first
    | (intro (p : Part) hp; cases p <;> first | rfl | contradiction) | intro _ | assumption | exact State.Frame.refl _
    | apply State.put_frame | apply State.xceEvent_frame | apply State.vfCreate_frame | apply f_ite | apply f_mk)

theorem State.vfDisable_frame {s0 : State} {s : State} (h0 : s0.Frame P s) (p_regs : P .regs) (p_net : P .net)
    (p_free : P .free) (p_pass : P .pass) (p_xce : P .xce) (p_io : P .io) :
    s0.Frame P (State.vfDisable s) := by
  unfold State.vfDisable
  try dsimp only
  with_reducible repeat' (first
    | (intro (p : Part) hp; cases p <;> first | rfl | contradiction) | intro _ | assumption | exact State.Frame.refl _
    | apply State.drainStart_frame | apply State.put_frame | apply State.putCfg_frame | apply State.vfDrainEnd_frame
    | apply f_ite | apply f_foldN | apply f_regs | apply f_mem | apply f_mk)

theorem State.vfEnable_frame {s0 : State} {s : State} (h0 : s0.Frame P s) (p_regs : P .regs) (p_xce : P .xce) (p_io : P .io)
    :
    s0.Frame P (State.vfEnable s) := by
  unfold State.vfEnable
  try dsimp only
  with_reducible repeat' (first | intro _ | assumption | exact State.Frame.refl _ | apply State.put_frame | apply State.vfCreate_frame | apply f_ite)

theorem State.vfClear_frame {s0 : State} {s : State} (h0 : s0.Frame P s) (p_regs : P .regs) (p_net : P .net)
    (p_free : P .free) (p_pass : P .pass) (p_xce : P .xce) (p_io : P .io) :
    s0.Frame P (State.vfClear s) := by
  unfold State.vfClear
  try dsimp only
  with_reducible repeat' (first | intro _ | assumption | exact State.Frame.refl _ | apply State.put_frame | apply State.vfDisable_frame | apply f_ite)

theorem State.pfGlobalReset_frame {s0 : State} {s : State} (h0 : s0.Frame P s) (p_regs : P .regs) (p_xce : P .xce) :
    s0.Frame P (State.pfGlobalReset s) := by
  unfold State.pfGlobalReset
  try dsimp only
  with_reducible repeat' (first
    | (intro (p : Part) hp; cases p <;> first | rfl | contradiction) | intro _ | assumption | exact State.Frame.refl _
    | apply State.resetRegs_frame | apply f_mk)

theorem State.flrStart_frame {s0 : State} {s : State} {f : Nat} (h0 : s0.Frame P s) (p_regs : P .regs) (p_net : P .net)
    (p_free : P .free) (p_pass : P .pass) (p_xce : P .xce) (p_io : P .io) :
    s0.Frame P (State.flrStart s f) := by
  unfold State.flrStart
  try dsimp only
  with_reducible repeat' (first
    | intro _ | assumption | exact State.Frame.refl _ | apply State.vfDisable_frame | apply State.put_frame
    | apply State.drainStart_frame | apply State.pfGlobalReset_frame | apply f_ite)

theorem State.drainForce_frame {s0 : State} {s : State} {f : Nat} {q : Option Nat} (h0 : s0.Frame P s) (p_regs : P .regs)
    (p_net : P .net) (p_free : P .free) (p_core : P .core) (p_pass : P .pass) (p_meter : P .meter) (p_hzn : P .hzn)
    (p_xce : P .xce) (p_io : P .io) (p_ras : P .ras) (p_tvx : P .tvx) :
    s0.Frame P (State.drainForce s f q) := by
  unfold State.drainForce
  try dsimp only
  with_reducible repeat' (first
    | (intro (p : Part) hp; cases p <;> first | rfl | contradiction) | intro _ | assumption | exact State.Frame.refl _
    | apply State.setReqs_frame | apply State.wGo_frame | apply State.tagTimeout_frame | apply State.xceEvent_frame
    | apply f_ite | apply f_foldl | apply f_regs | apply f_mem
    | (apply f_mk; first | assumption | exact State.Frame.refl _ | apply State.setReqs_frame | apply State.wGo_frame | apply State.tagTimeout_frame | apply State.xceEvent_frame | apply f_ite | apply f_foldl | apply f_regs | apply f_mem)
    | split)

theorem State.invFlush_frame {s0 : State} {s : State} {f : Nat} (h0 : s0.Frame P s) (p_regs : P .regs) (p_xce : P .xce) :
    s0.Frame P (State.invFlush s f) := by
  unfold State.invFlush
  try dsimp only
  with_reducible repeat' (first
    | (intro (p : Part) hp; cases p <;> first | rfl | contradiction) | intro _ | assumption | exact State.Frame.refl _
    | apply State.bump_frame | apply f_regs | apply f_mem | apply f_mk)

theorem State.drainEnd_frame {s0 : State} {s : State} {f : Nat} (h0 : s0.Frame P s) (p_regs : P .regs) (p_net : P .net)
    (p_free : P .free) (p_pass : P .pass) (p_xce : P .xce) (p_io : P .io) :
    s0.Frame P (State.drainEnd s f) := by
  unfold State.drainEnd
  try dsimp only
  with_reducible repeat' (first
    | (intro (p : Part) hp; cases p <;> first | rfl | contradiction) | intro _ | assumption | exact State.Frame.refl _
    | apply State.invFlush_frame | apply State.setAtc_frame | apply State.put_frame | apply State.putCfg_frame
    | apply State.vfDrainEnd_frame | apply State.xceEvent_frame | apply f_ite | apply f_regs | apply f_mem | apply f_mk)

theorem State.atsClear_frame {s0 : State} {s : State} {f : Nat} (h0 : s0.Frame P s) (p_regs : P .regs) (p_xce : P .xce)
    (p_io : P .io) :
    s0.Frame P (State.atsClear s f) := by
  unfold State.atsClear
  try dsimp only
  with_reducible repeat' (first | intro _ | assumption | exact State.Frame.refl _ | apply State.putCfg_frame | apply State.setAtc_frame | apply f_ite)

theorem State.numVfsWrite_frame {s0 : State} {s : State} {v : Nat} (h0 : s0.Frame P s) (p_io : P .io) :
    FrameOpt P s0 (State.numVfsWrite s v) := by
  unfold State.numVfsWrite
  try dsimp only
  with_reducible repeat' (first
    | intro _ | assumption | exact State.Frame.refl _ | apply State.putCfg_frame | apply fp_ite | apply f_ite
    | apply fp_some | apply fp_none)

theorem State.msiDrain_frame {s0 : State} {s : State} (h0 : s0.Frame P s) (p_regs : P .regs) (p_net : P .net)
    (p_free : P .free) (p_pass : P .pass) (p_xce : P .xce) (p_io : P .io) :
    s0.Frame P (State.msiDrain s) := by
  unfold State.msiDrain
  try dsimp only
  with_reducible repeat' (first
    | intro _ | assumption | exact State.Frame.refl _ | apply State.setCfg_frame | apply State.xceSignal_frame | apply f_ite
    | apply f_foldN)

theorem State.cfgEffects_frame {s0 : State} {s : State} {fn : CfgFn} {o : Nat} {old : Nat} {new : Nat} {v : Nat} {m : Nat}
    (h0 : s0.Frame P s) (p_regs : P .regs) (p_net : P .net) (p_free : P .free) (p_pass : P .pass) (p_xce : P .xce)
    (p_io : P .io) :
    s0.Frame P (State.cfgEffects s fn o old new v m) := by
  unfold State.cfgEffects
  try dsimp only
  with_reducible repeat' (first
    | intro _ | assumption | exact State.Frame.refl _ | apply State.heldDrain_frame | apply State.intaUpdate_frame
    | apply State.flrStart_frame | apply State.pbaDrain_frame | apply State.msiDrain_frame | apply State.atsClear_frame
    | apply State.vfEnable_frame | apply State.vfClear_frame | apply f_ite | apply f_foldN | split)

theorem State.cfgWrite_frame {s0 : State} {s : State} {off : Nat} {size : Nat} {v : Nat} (h0 : s0.Frame P s)
    (p_regs : P .regs) (p_net : P .net) (p_free : P .free) (p_pass : P .pass) (p_xce : P .xce) (p_io : P .io) :
    FrameOpt P s0 (State.cfgWrite s off size v) := by
  unfold State.cfgWrite
  try dsimp only
  with_reducible repeat' (first
    | intro _ | assumption | exact State.Frame.refl _ | apply State.numVfsWrite_frame | apply State.cfgEffects_frame
    | apply State.setCfg_frame | apply fp_ite | apply f_ite | apply fp_some | apply fp_none
    | refine f_of_snd (by assumption) ?_ | refine f_of_fst (by assumption) ?_ | refine f_of_some (by assumption) ?_ | split)

end Sys2Proof.Machine
end

