-- ==== Sys2Proof/Laws/FrameXceRows.lean ====
section
/-!
SUPPORT. What each function of Machine/XceRows.lean leaves alone (`State.Frame`, Safety.lean): one lemma for each.
-/

namespace Sys2Proof.Machine

variable {P : Part → Prop}

theorem State.targetOp_frame {s0 : State} {s : State} {m : WMsg} {e : Nat} {f : Nat} {tr : Xlate} (h0 : s0.Frame P s)
    (p_regs : P .regs) (p_net : P .net) (p_free : P .free) (p_pass : P .pass) (p_meter : P .meter) (p_hzn : P .hzn)
    (p_xce : P .xce) (p_io : P .io) :
    s0.Frame P (State.targetOp s m e f tr) := by
  unfold State.targetOp
  try dsimp only
  with_reducible repeat' (first
    | intro _ | assumption | exact State.Frame.refl _ | apply State.xopRun_frame | apply State.xopAtomic_frame
    | apply State.xopBegin_frame | apply f_ite | apply f_ite_fst | apply f_ite_snd)

theorem State.winRow_frame {s0 : State} {s : State} {m : WMsg} {vc : Nat} {wopc : Nat} {f : State → State}
    (h0 : s0.Frame P s) (hp_f : ∀ (u : State) (y0 : State), u.Frame P y0 → u.Frame P (f y0)) :
    FrameOut P s0 (State.winRow s m vc wopc f) := by
  unfold State.winRow
  try dsimp only
  with_reducible repeat' (first
    | intro _ | assumption | exact State.Frame.refl _ | apply hp_f | apply fo_ite | apply f_ite | apply fo_next
    | apply fo_fault)

theorem execWWrite_frame {s0 : State} {m : WMsg} {tr : Xlate} {s : State} (h0 : s0.Frame P s) (p_regs : P .regs)
    (p_net : P .net) (p_free : P .free) (p_core : P .core) (p_pass : P .pass) (p_meter : P .meter) (p_hzn : P .hzn)
    (p_xce : P .xce) (p_io : P .io) (p_ras : P .ras) (p_tvx : P .tvx) :
    FrameOut P s0 (execWWrite m tr s) := by
  unfold execWWrite
  try dsimp only
  with_reducible repeat' (first
    | intro _ | assumption | exact State.Frame.refl _ | apply State.winRow_frame | apply State.winIn_frame
    | apply State.targetOp_frame | apply fo_next | apply fo_fault)

theorem execWRead_frame {s0 : State} {m : WMsg} {tr : Xlate} {s : State} (h0 : s0.Frame P s) (p_regs : P .regs)
    (p_net : P .net) (p_free : P .free) (p_core : P .core) (p_pass : P .pass) (p_meter : P .meter) (p_hzn : P .hzn)
    (p_xce : P .xce) (p_io : P .io) (p_ras : P .ras) (p_tvx : P .tvx) :
    FrameOut P s0 (execWRead m tr s) := by
  unfold execWRead
  try dsimp only
  with_reducible repeat' (first
    | intro _ | assumption | exact State.Frame.refl _ | apply State.winRow_frame | apply State.winIn_frame
    | apply State.targetOp_frame | apply fo_next | apply fo_fault)

theorem execWAtomic_frame {s0 : State} {m : WMsg} {tr : Xlate} {s : State} (h0 : s0.Frame P s) (p_regs : P .regs)
    (p_net : P .net) (p_free : P .free) (p_core : P .core) (p_pass : P .pass) (p_meter : P .meter) (p_hzn : P .hzn)
    (p_xce : P .xce) (p_io : P .io) (p_ras : P .ras) (p_tvx : P .tvx) :
    FrameOut P s0 (execWAtomic m tr s) := by
  unfold execWAtomic
  try dsimp only
  with_reducible repeat' (first
    | intro _ | assumption | exact State.Frame.refl _ | apply State.winRow_frame | apply State.winIn_frame
    | apply State.targetOp_frame | apply fo_next | apply fo_fault)

theorem State.deposit_frame {s0 : State} {s : State} {m : WMsg} {f : Nat} {q : Nat} {tr : Xlate} (h0 : s0.Frame P s)
    (p_regs : P .regs) (p_net : P .net) (p_free : P .free) (p_pass : P .pass) (p_meter : P .meter) (p_hzn : P .hzn)
    (p_xce : P .xce) (p_io : P .io) :
    s0.Frame P (State.deposit s m f q tr) := by
  unfold State.deposit
  try dsimp only
  with_reducible repeat' (first
    | intro _ | assumption | exact State.Frame.refl _ | apply State.wGo_frame | apply State.bump_frame
    | apply State.setQp_frame | apply State.xopRun_frame | apply State.xopBegin_frame | apply f_ite | apply f_ite_fst
    | apply f_ite_snd)

theorem execWSend_frame {s0 : State} {m : WMsg} {tr : Xlate} {s : State} (h0 : s0.Frame P s) (p_regs : P .regs)
    (p_net : P .net) (p_free : P .free) (p_core : P .core) (p_pass : P .pass) (p_meter : P .meter) (p_hzn : P .hzn)
    (p_xce : P .xce) (p_io : P .io) (p_ras : P .ras) (p_tvx : P .tvx) :
    FrameOut P s0 (execWSend m tr s) := by
  unfold execWSend
  try dsimp only
  with_reducible repeat' (first
    | intro _ | assumption | exact State.Frame.refl _ | apply State.winRow_frame | apply State.winIn_frame
    | apply State.deposit_frame | apply fo_ite | apply f_ite | apply fo_next | apply fo_fault)

theorem execWReadCpl_frame {s0 : State} {m : WMsg} {tr : List Xlate} {s : State} (h0 : s0.Frame P s) (p_regs : P .regs)
    (p_net : P .net) (p_free : P .free) (p_core : P .core) (p_pass : P .pass) (p_meter : P .meter) (p_hzn : P .hzn)
    (p_xce : P .xce) (p_io : P .io) (p_ras : P .ras) (p_tvx : P .tvx) :
    FrameOut P s0 (execWReadCpl m tr s) := by
  unfold execWReadCpl
  try dsimp only
  with_reducible repeat' (first
    | intro _ | assumption | exact State.Frame.refl _ | apply State.winRow_frame | apply State.winCpl_frame
    | apply State.winData_frame | apply fo_next | apply fo_fault)

theorem execWAtomicCpl_frame {s0 : State} {m : WMsg} {tr : Xlate} {s : State} (h0 : s0.Frame P s) (p_regs : P .regs)
    (p_net : P .net) (p_free : P .free) (p_core : P .core) (p_pass : P .pass) (p_meter : P .meter) (p_hzn : P .hzn)
    (p_xce : P .xce) (p_io : P .io) (p_ras : P .ras) (p_tvx : P .tvx) :
    FrameOut P s0 (execWAtomicCpl m tr s) := by
  unfold execWAtomicCpl
  try dsimp only
  with_reducible repeat' (first
    | intro _ | assumption | exact State.Frame.refl _ | apply State.winRow_frame | apply State.winCpl_frame
    | apply State.winData_frame | apply fo_next | apply fo_fault | refine f_of_next (by assumption) ?_ | split)

theorem execWAck_frame {s0 : State} {m : WMsg} {s : State} (h0 : s0.Frame P s) (p_regs : P .regs) (p_net : P .net)
    (p_free : P .free) (p_core : P .core) (p_pass : P .pass) (p_meter : P .meter) (p_hzn : P .hzn) (p_xce : P .xce)
    (p_io : P .io) (p_ras : P .ras) (p_tvx : P .tvx) :
    FrameOut P s0 (execWAck m s) := by
  unfold execWAck
  try dsimp only
  with_reducible repeat' (first
    | intro _ | assumption | exact State.Frame.refl _ | apply State.winRow_frame | apply State.winCpl_frame
    | apply execWAtomicCpl_frame | apply State.descPiece_frame | apply fo_next | apply fo_fault
    | refine f_of_next (by assumption) ?_ | split)

theorem execWinTimeout_frame {s0 : State} {f : Func} {wtag : Fin 4096} {s : State} (h0 : s0.Frame P s) (p_regs : P .regs)
    (p_net : P .net) (p_free : P .free) (p_core : P .core) (p_pass : P .pass) (p_meter : P .meter) (p_xce : P .xce)
    (p_io : P .io) (p_ras : P .ras) (p_tvx : P .tvx) :
    FrameOut P s0 (execWinTimeout f wtag s) := by
  unfold execWinTimeout
  try dsimp only
  with_reducible repeat' (first
    | intro _ | assumption | exact State.Frame.refl _ | apply State.tagTimeout_frame | apply fo_ite | apply f_ite
    | apply fo_next | apply fo_fault | split)

theorem execWinFinalTimeout_frame {s0 : State} {f : Func} {wtag : Fin 4096} {s : State} (h0 : s0.Frame P s) (p_xce : P .xce)
    :
    FrameOut P s0 (execWinFinalTimeout f wtag s) := by
  unfold execWinFinalTimeout
  try dsimp only
  with_reducible repeat' (first
    | intro _ | assumption | exact State.Frame.refl _ | apply execWinTimeout_frame | apply State.dropTag_frame
    | apply fo_ite | apply f_ite | apply fo_next | apply fo_fault | refine f_of_next (by assumption) ?_ | split)

theorem execFlr_frame {s0 : State} {f : Func} {s : State} (h0 : s0.Frame P s) (p_regs : P .regs) (p_net : P .net)
    (p_free : P .free) (p_pass : P .pass) (p_xce : P .xce) (p_io : P .io) :
    FrameOut P s0 (execFlr f s) := by
  unfold execFlr
  try dsimp only
  with_reducible repeat' (first | intro _ | assumption | exact State.Frame.refl _ | apply State.flrStart_frame | apply fo_next | apply fo_fault)

theorem execVfEnableSet_frame {s0 : State} {s : State} (h0 : s0.Frame P s) (p_regs : P .regs) (p_xce : P .xce)
    (p_io : P .io) :
    FrameOut P s0 (execVfEnableSet s) := by
  unfold execVfEnableSet
  try dsimp only
  with_reducible repeat' (first | intro _ | assumption | exact State.Frame.refl _ | apply State.vfEnable_frame | apply fo_next | apply fo_fault)

theorem execVfEnableClear_frame {s0 : State} {s : State} (h0 : s0.Frame P s) (p_regs : P .regs) (p_net : P .net)
    (p_free : P .free) (p_pass : P .pass) (p_xce : P .xce) (p_io : P .io) :
    FrameOut P s0 (execVfEnableClear s) := by
  unfold execVfEnableClear
  try dsimp only
  with_reducible repeat' (first
    | intro _ | assumption | exact State.Frame.refl _ | apply State.vfClear_frame | apply fo_ite | apply f_ite
    | apply fo_next | apply fo_fault)

theorem execNumvfsWrite_frame {s0 : State} {v : Nat} {s : State} (h0 : s0.Frame P s) (p_io : P .io) :
    FrameOut P s0 (execNumvfsWrite v s) := by
  unfold execNumvfsWrite
  try dsimp only
  with_reducible repeat' (first
    | intro _ | assumption | exact State.Frame.refl _ | apply State.numVfsWrite_frame | apply fo_next | apply fo_fault
    | refine f_of_snd (by assumption) ?_ | refine f_of_fst (by assumption) ?_ | refine f_of_some (by assumption) ?_ | split)

theorem State.ecamXce_frame {s0 : State} {s : State} {h : Nat} {off : Nat} {size : Nat} {write : Option Nat}
    (h0 : s0.Frame P s) (p_regs : P .regs) (p_net : P .net) (p_free : P .free) (p_core : P .core) (p_pass : P .pass)
    (p_xce : P .xce) (p_io : P .io) :
    FrameOut P s0 (State.ecamXce s h off size write) := by
  unfold State.ecamXce
  try dsimp only
  with_reducible repeat' (first
    | (intro (p : Part) hp; cases p <;> first | rfl | contradiction) | intro _ | assumption | exact State.Frame.refl _
    | apply State.setOut_frame | apply execNumvfsWrite_frame | apply State.cfgWrite_frame | apply fo_ite | apply f_ite
    | apply fo_next | apply fo_fault | refine f_of_snd (by assumption) ?_ | refine f_of_fst (by assumption) ?_
    | refine f_of_some (by assumption) ?_ | refine f_of_next (by assumption) ?_
    | (apply f_mk; first | assumption | exact State.Frame.refl _ | apply State.setOut_frame | apply execNumvfsWrite_frame | apply State.cfgWrite_frame | apply fo_ite | apply f_ite | apply fo_next | apply fo_fault)
    | split)

theorem execEcamConfigAccess_frame {s0 : State} {h : Hart} {off : Nat} {size : Nat} {write : Option Nat} {s : State}
    (h0 : s0.Frame P s) (p_regs : P .regs) (p_net : P .net) (p_free : P .free) (p_core : P .core) (p_pass : P .pass)
    (p_xce : P .xce) (p_io : P .io) :
    FrameOut P s0 (execEcamConfigAccess h off size write s) := by
  unfold execEcamConfigAccess
  try dsimp only
  with_reducible repeat' (first
    | intro _ | assumption | exact State.Frame.refl _ | apply State.ecamXce_frame | apply fo_ite | apply f_ite
    | apply fo_next | apply fo_fault)

theorem State.cfgRelease_frame {s0 : State} {f : Nat} {z1 : List (Nat × Nat × Nat × Option Nat)} {z2 : State}
    (h0 : s0.Frame P z2) (p_regs : P .regs) (p_net : P .net) (p_free : P .free) (p_core : P .core) (p_pass : P .pass)
    (p_xce : P .xce) (p_io : P .io) :
    FrameOut P s0 (State.cfgRelease f z1 z2) := by
  induction z1 generalizing f z2 with
  | nil =>
    unfold State.cfgRelease
    try dsimp only
    with_reducible repeat' (first
      | (intro (p : Part) hp; cases p <;> first | rfl | contradiction) | intro _ | assumption | exact State.Frame.refl _
      | apply State.ecamXce_frame | apply fo_ite | apply f_ite | apply fo_next | apply fo_fault
      | refine f_of_next (by assumption) ?_
      | (apply f_mk; first | assumption | exact State.Frame.refl _ | apply State.ecamXce_frame | apply fo_ite | apply f_ite | apply fo_next | apply fo_fault)
      | split)
  | cons e l ih =>
    unfold State.cfgRelease
    try dsimp only
    with_reducible repeat' (first
      | (intro (p : Part) hp; cases p <;> first | rfl | contradiction) | intro _ | assumption | exact State.Frame.refl _
      | apply State.ecamXce_frame | apply fo_ite | apply f_ite | apply fo_next | apply fo_fault
      | refine f_of_next (by assumption) ?_
      | (apply f_mk; first | assumption | exact State.Frame.refl _ | apply State.ecamXce_frame | apply fo_ite | apply f_ite | apply fo_next | apply fo_fault)
      | split | apply ih)


theorem execVfReady_frame {s0 : State} {f : Func} {s : State} (h0 : s0.Frame P s) (p_regs : P .regs) (p_net : P .net)
    (p_free : P .free) (p_core : P .core) (p_pass : P .pass) (p_xce : P .xce) (p_io : P .io) :
    FrameOut P s0 (execVfReady f s) := by
  unfold execVfReady
  try dsimp only
  with_reducible repeat' (first
    | (intro (p : Part) hp; cases p <;> first | rfl | contradiction) | intro _ | assumption | exact State.Frame.refl _
    | apply State.cfgRelease_frame | apply fo_ite | apply f_ite | apply fo_next | apply fo_fault | apply f_mk)

theorem execFnDrainComplete_frame {s0 : State} {f : Func} {s : State} (h0 : s0.Frame P s) (p_regs : P .regs)
    (p_net : P .net) (p_free : P .free) (p_pass : P .pass) (p_xce : P .xce) (p_io : P .io) :
    FrameOut P s0 (execFnDrainComplete f s) := by
  unfold execFnDrainComplete
  try dsimp only
  with_reducible repeat' (first
    | intro _ | assumption | exact State.Frame.refl _ | apply State.drainEnd_frame | apply fo_ite | apply f_ite
    | apply fo_next | apply fo_fault)

theorem execDrainLimitExpiry_frame {s0 : State} {f : Func} {s : State} (h0 : s0.Frame P s) (p_regs : P .regs)
    (p_net : P .net) (p_free : P .free) (p_core : P .core) (p_pass : P .pass) (p_meter : P .meter) (p_hzn : P .hzn)
    (p_xce : P .xce) (p_io : P .io) (p_ras : P .ras) (p_tvx : P .tvx) :
    FrameOut P s0 (execDrainLimitExpiry f s) := by
  unfold execDrainLimitExpiry
  try dsimp only
  with_reducible repeat' (first
    | intro _ | assumption | exact State.Frame.refl _ | apply State.drainForce_frame | apply fo_ite | apply f_ite
    | apply f_foldN | apply fo_next | apply fo_fault)

theorem execAtsEnableClear_frame {s0 : State} {f : Func} {s : State} (h0 : s0.Frame P s) (p_regs : P .regs) (p_xce : P .xce)
    (p_io : P .io) :
    FrameOut P s0 (execAtsEnableClear f s) := by
  unfold execAtsEnableClear
  try dsimp only
  with_reducible repeat' (first
    | intro _ | assumption | exact State.Frame.refl _ | apply State.atsClear_frame | apply fo_ite | apply f_ite
    | apply fo_next | apply fo_fault)

theorem execBusMasterEnableWrite_frame {s0 : State} {f : Func} {on : Bool} {s : State} (h0 : s0.Frame P s)
    (p_regs : P .regs) (p_net : P .net) (p_free : P .free) (p_pass : P .pass) (p_xce : P .xce) (p_io : P .io) :
    FrameOut P s0 (execBusMasterEnableWrite f on s) := by
  unfold execBusMasterEnableWrite
  try dsimp only
  with_reducible repeat' (first
    | intro _ | assumption | exact State.Frame.refl _ | apply State.putCfg_frame | apply State.heldDrain_frame
    | apply fo_ite | apply f_ite | apply fo_next | apply fo_fault)

theorem execMsixVectorUnmask_frame {s0 : State} {f : Func} {v : Fin 2048} {s : State} (h0 : s0.Frame P s) (p_regs : P .regs)
    (p_net : P .net) (p_free : P .free) (p_pass : P .pass) (p_xce : P .xce) (p_io : P .io) :
    FrameOut P s0 (execMsixVectorUnmask f v s) := by
  unfold execMsixVectorUnmask
  try dsimp only
  with_reducible repeat' (first
    | intro _ | assumption | exact State.Frame.refl _ | apply State.pbaDrain_frame | apply State.setMsixE_frame
    | apply fo_ite | apply f_ite | apply fo_next | apply fo_fault)

theorem State.pieceOut_frame {s0 : State} {s : State} {f : Nat} {q : Nat} {d : XDesc} {n : Nat} (h0 : s0.Frame P s)
    (p_xce : P .xce) :
    s0.Frame P (State.pieceOut s f q d n) := by
  unfold State.pieceOut
  try dsimp only
  with_reducible repeat' (first | intro _ | assumption | exact State.Frame.refl _ | apply State.setQp_frame | apply f_ite)

theorem execTranslationCompletion_frame {s0 : State} {f : Func} {page : Nat} {tr : Xlate} {s : State} (h0 : s0.Frame P s)
    (p_regs : P .regs) (p_net : P .net) (p_free : P .free) (p_pass : P .pass) (p_meter : P .meter) (p_xce : P .xce)
    (p_io : P .io) :
    FrameOut P s0 (execTranslationCompletion f page tr s) := by
  unfold execTranslationCompletion
  try dsimp only
  with_reducible repeat' (first
    | intro _ | assumption | exact State.Frame.refl _ | apply State.atcFill_frame | apply State.count_frame
    | apply State.iommuFault_frame | apply State.descPiece_frame | apply State.pieceOut_frame | apply fo_ite | apply f_ite
    | apply fo_next | apply fo_fault | split)

theorem execInvalidateRequest_frame {s0 : State} {f : Func} {itag : Nat} {base : Nat} {size : Nat} {s : State}
    (h0 : s0.Frame P s) (p_regs : P .regs) (p_xce : P .xce) :
    FrameOut P s0 (execInvalidateRequest f itag base size s) := by
  unfold execInvalidateRequest
  try dsimp only
  with_reducible repeat' (first
    | (intro (p : Part) hp; cases p <;> first | rfl | contradiction) | intro _ | assumption | exact State.Frame.refl _
    | apply State.bump_frame | apply State.setAtc_frame | apply fo_ite | apply f_ite | apply fo_next | apply fo_fault
    | apply f_regs | apply f_mem | apply f_mk)

theorem execInvalidationComplete_frame {s0 : State} {f : Func} {itag : Nat} {s : State} (h0 : s0.Frame P s)
    (p_regs : P .regs) (p_xce : P .xce) :
    FrameOut P s0 (execInvalidationComplete f itag s) := by
  unfold execInvalidationComplete
  try dsimp only
  with_reducible repeat' (first
    | (intro (p : Part) hp; cases p <;> first | rfl | contradiction) | intro _ | assumption | exact State.Frame.refl _
    | apply State.bump_frame | apply fo_ite | apply f_ite | apply fo_next | apply fo_fault
    | (apply f_mk; first | assumption | exact State.Frame.refl _ | apply State.bump_frame | apply fo_ite | apply f_ite | apply fo_next | apply fo_fault)
    | split)

theorem execQpSqDb_frame {s0 : State} {f : Func} {q : Fin 8} {v : Nat} {s : State} (h0 : s0.Frame P s) (p_regs : P .regs) :
    FrameOut P s0 (execQpSqDb f q v s) := by
  unfold execQpSqDb
  try dsimp only
  with_reducible repeat' (first
    | intro _ | assumption | exact State.Frame.refl _ | apply State.qpError_frame | apply State.put_frame | apply fo_ite
    | apply f_ite | apply fo_next | apply fo_fault)

theorem execQpCqDb_frame {s0 : State} {f : Func} {q : Fin 8} {v : Nat} {s : State} (h0 : s0.Frame P s) (p_regs : P .regs) :
    FrameOut P s0 (execQpCqDb f q v s) := by
  unfold execQpCqDb
  try dsimp only
  with_reducible repeat' (first
    | intro _ | assumption | exact State.Frame.refl _ | apply State.qpError_frame | apply State.put_frame | apply fo_ite
    | apply f_ite | apply fo_next | apply fo_fault)

theorem execQpRqDb_frame {s0 : State} {f : Func} {q : Fin 8} {v : Nat} {s : State} (h0 : s0.Frame P s) (p_regs : P .regs) :
    FrameOut P s0 (execQpRqDb f q v s) := by
  unfold execQpRqDb
  try dsimp only
  with_reducible repeat' (first
    | intro _ | assumption | exact State.Frame.refl _ | apply State.qpError_frame | apply State.put_frame | apply fo_ite
    | apply f_ite | apply fo_next | apply fo_fault)

theorem execQpEnable_frame {s0 : State} {f : Func} {q : Fin 8} {s : State} (h0 : s0.Frame P s) (p_regs : P .regs)
    (p_xce : P .xce) :
    FrameOut P s0 (execQpEnable f q s) := by
  unfold execQpEnable
  try dsimp only
  with_reducible repeat' (first
    | intro _ | assumption | exact State.Frame.refl _ | apply State.put_frame | apply State.setQp_frame | apply fo_ite
    | apply f_ite | apply fo_next | apply fo_fault)

theorem execQpDisable_frame {s0 : State} {f : Func} {q : Fin 8} {s : State} (h0 : s0.Frame P s) (p_regs : P .regs)
    (p_xce : P .xce) :
    FrameOut P s0 (execQpDisable f q s) := by
  unfold execQpDisable
  try dsimp only
  with_reducible repeat' (first
    | intro _ | assumption | exact State.Frame.refl _ | apply State.qpSquash_frame | apply State.put_frame | apply fo_ite
    | apply f_ite | apply fo_next | apply fo_fault)

theorem execQpDrainComplete_frame {s0 : State} {f : Func} {q : Fin 8} {s : State} (h0 : s0.Frame P s) (p_regs : P .regs)
    (p_xce : P .xce) :
    FrameOut P s0 (execQpDrainComplete f q s) := by
  unfold execQpDrainComplete
  try dsimp only
  with_reducible repeat' (first
    | intro _ | assumption | exact State.Frame.refl _ | apply State.put_frame | apply State.setQp_frame | apply fo_ite
    | apply f_ite | apply fo_next | apply fo_fault)

theorem execDescriptorFetch_frame {s0 : State} {f : Func} {q : Fin 8} {tr : Xlate} {s : State} (h0 : s0.Frame P s)
    (p_regs : P .regs) (p_net : P .net) (p_free : P .free) (p_pass : P .pass) (p_meter : P .meter) (p_hzn : P .hzn)
    (p_xce : P .xce) (p_io : P .io) :
    FrameOut P s0 (execDescriptorFetch f q tr s) := by
  unfold execDescriptorFetch
  try dsimp only
  with_reducible repeat' (first
    | (intro (p : Part) hp; cases p <;> first | rfl | contradiction) | intro _ | assumption | exact State.Frame.refl _
    | apply State.setQp_frame | apply State.xopRun_frame | apply State.xopBegin_frame | apply fo_ite | apply f_ite
    | apply f_ite_fst | apply f_ite_snd | apply fo_next | apply fo_fault | apply f_mk)

theorem State.descRow_frame {s0 : State} {s : State} {f : Nat} {q : Nat} {op : Nat} {go : State → XDesc → State}
    (h0 : s0.Frame P s) (hp_go : ∀ (u : State) (y0 : State) (y1 : XDesc), u.Frame P y0 → u.Frame P (go y0 y1))
    (p_regs : P .regs) (p_pass : P .pass) (p_xce : P .xce) :
    FrameOut P s0 (State.descRow s f q op go) := by
  unfold State.descRow
  try dsimp only
  with_reducible repeat' (first
    | intro _ | assumption | exact State.Frame.refl _ | apply State.descEnd_frame | apply hp_go | apply fo_ite | apply f_ite
    | apply fo_next | apply fo_fault | split)

theorem execNop_frame {s0 : State} {f : Func} {q : Fin 8} {s : State} (h0 : s0.Frame P s) (p_regs : P .regs)
    (p_pass : P .pass) (p_xce : P .xce) :
    FrameOut P s0 (execNop f q s) := by
  unfold execNop
  try dsimp only
  with_reducible repeat' (first
    | intro _ | assumption | exact State.Frame.refl _ | apply State.descRow_frame | apply State.descEnd_frame
    | apply fo_next | apply fo_fault)

theorem execFence_frame {s0 : State} {f : Func} {q : Fin 8} {s : State} (h0 : s0.Frame P s) (p_regs : P .regs)
    (p_pass : P .pass) (p_xce : P .xce) :
    FrameOut P s0 (execFence f q s) := by
  unfold execFence
  try dsimp only
  with_reducible repeat' (first
    | intro _ | assumption | exact State.Frame.refl _ | apply State.descRow_frame | apply State.descEnd_frame
    | apply fo_next | apply fo_fault)

theorem execCopyLocal_frame {s0 : State} {f : Func} {q : Fin 8} {src : List Xlate} {dst : List Xlate} {s : State}
    (h0 : s0.Frame P s) (p_regs : P .regs) (p_net : P .net) (p_free : P .free) (p_pass : P .pass) (p_meter : P .meter)
    (p_hzn : P .hzn) (p_xce : P .xce) (p_io : P .io) :
    FrameOut P s0 (execCopyLocal f q src dst s) := by
  unfold execCopyLocal
  try dsimp only
  with_reducible repeat' (first
    | intro _ | assumption | exact State.Frame.refl _ | apply State.descRow_frame | apply State.pieceOut_frame
    | apply State.xopRun_frame | apply State.xopBegin_frame | apply fo_next | apply fo_fault)

theorem execPut_frame {s0 : State} {f : Func} {q : Fin 8} {src : List Xlate} {s : State} (h0 : s0.Frame P s)
    (p_regs : P .regs) (p_net : P .net) (p_free : P .free) (p_pass : P .pass) (p_meter : P .meter) (p_hzn : P .hzn)
    (p_xce : P .xce) (p_io : P .io) :
    FrameOut P s0 (execPut f q src s) := by
  unfold execPut
  try dsimp only
  with_reducible repeat' (first
    | intro _ | assumption | exact State.Frame.refl _ | apply State.descRow_frame | apply State.pieceOut_frame
    | apply State.ecamXce_frame | apply State.descPiece_frame | apply State.xopRun_frame | apply State.xopBegin_frame
    | apply fo_ite | apply f_ite | apply f_ite_fst | apply f_ite_snd | apply fo_next | apply fo_fault
    | refine f_of_snd (by assumption) ?_ | refine f_of_fst (by assumption) ?_ | refine f_of_some (by assumption) ?_
    | refine f_of_next (by assumption) ?_ | split)

theorem execGet_frame {s0 : State} {f : Func} {q : Fin 8} {s : State} (h0 : s0.Frame P s) (p_regs : P .regs)
    (p_pass : P .pass) (p_meter : P .meter) (p_hzn : P .hzn) (p_xce : P .xce) :
    FrameOut P s0 (execGet f q s) := by
  unfold execGet
  try dsimp only
  with_reducible repeat' (first
    | intro _ | assumption | exact State.Frame.refl _ | apply State.descRow_frame | apply execPut_frame
    | apply State.pieceOut_frame | apply State.ecamXce_frame | apply State.descPiece_frame | apply State.wIssue_frame
    | apply fo_ite | apply f_ite | apply fo_next | apply fo_fault | refine f_of_next (by assumption) ?_ | split)

theorem execSend_frame {s0 : State} {f : Func} {q : Fin 8} {src : List Xlate} {s : State} (h0 : s0.Frame P s)
    (p_regs : P .regs) (p_net : P .net) (p_free : P .free) (p_pass : P .pass) (p_meter : P .meter) (p_hzn : P .hzn)
    (p_xce : P .xce) (p_io : P .io) :
    FrameOut P s0 (execSend f q src s) := by
  unfold execSend
  try dsimp only
  with_reducible repeat' (first
    | intro _ | assumption | exact State.Frame.refl _ | apply State.descRow_frame | apply State.pieceOut_frame
    | apply State.ecamXce_frame | apply State.descPiece_frame | apply State.xopRun_frame | apply State.xopBegin_frame
    | apply fo_ite | apply f_ite | apply f_ite_fst | apply f_ite_snd | apply fo_next | apply fo_fault
    | refine f_of_snd (by assumption) ?_ | refine f_of_fst (by assumption) ?_ | refine f_of_some (by assumption) ?_
    | refine f_of_next (by assumption) ?_ | split)

theorem execAtomic_frame {s0 : State} {f : Func} {q : Fin 8} {s : State} (h0 : s0.Frame P s) (p_regs : P .regs)
    (p_pass : P .pass) (p_meter : P .meter) (p_hzn : P .hzn) (p_xce : P .xce) :
    FrameOut P s0 (execAtomic f q s) := by
  unfold execAtomic
  try dsimp only
  with_reducible repeat' (first
    | intro _ | assumption | exact State.Frame.refl _ | apply State.descRow_frame | apply State.pieceOut_frame
    | apply State.ecamXce_frame | apply State.descPiece_frame | apply State.wIssue_frame | apply fo_ite | apply f_ite
    | apply fo_next | apply fo_fault | refine f_of_next (by assumption) ?_ | split)

theorem execDescriptorComplete_frame {s0 : State} {f : Func} {q : Fin 8} {tr : Xlate} {s : State} (h0 : s0.Frame P s)
    (p_regs : P .regs) (p_net : P .net) (p_free : P .free) (p_pass : P .pass) (p_meter : P .meter) (p_hzn : P .hzn)
    (p_xce : P .xce) (p_io : P .io) :
    FrameOut P s0 (execDescriptorComplete f q tr s) := by
  unfold execDescriptorComplete
  try dsimp only
  with_reducible repeat' (first
    | intro _ | assumption | exact State.Frame.refl _ | apply State.setQp_frame | apply State.xopRun_frame
    | apply State.xopBegin_frame | apply fo_ite | apply f_ite | apply f_ite_fst | apply f_ite_snd | apply fo_next
    | apply fo_fault | refine f_of_snd (by assumption) ?_ | refine f_of_fst (by assumption) ?_
    | refine f_of_some (by assumption) ?_ | split)

theorem execCqIrqTimer_frame {s0 : State} {f : Func} {q : Fin 8} {s : State} (h0 : s0.Frame P s) (p_regs : P .regs)
    (p_net : P .net) (p_free : P .free) (p_pass : P .pass) (p_xce : P .xce) (p_io : P .io) :
    FrameOut P s0 (execCqIrqTimer f q s) := by
  unfold execCqIrqTimer
  try dsimp only
  with_reducible repeat' (first
    | intro _ | assumption | exact State.Frame.refl _ | apply State.xceSignal_frame | apply State.setQp_frame | apply fo_ite
    | apply f_ite | apply fo_next | apply fo_fault)

theorem execXceArbEpoch_frame {s0 : State} {s : State} (h0 : s0.Frame P s) (p_regs : P .regs) (p_xce : P .xce) :
    FrameOut P s0 (execXceArbEpoch s) := by
  unfold execXceArbEpoch
  try dsimp only
  with_reducible repeat' (first
    | (intro (p : Part) hp; cases p <;> first | rfl | contradiction) | intro _ | assumption | exact State.Frame.refl _
    | apply State.put_frame | apply f_foldl | apply fo_next | apply fo_fault | apply f_regs | apply f_mem | apply f_mk)

theorem State.winApply_frame {s0 : State} {s : State} {table : Nat} {index : Nat} {e : Nat} (h0 : s0.Frame P s)
    (p_regs : P .regs) (p_xce : P .xce) :
    s0.Frame P (State.winApply s table index e) := by
  unfold State.winApply
  try dsimp only
  with_reducible repeat' (first
    | (intro (p : Part) hp; cases p <;> first | rfl | contradiction) | intro _ | assumption | exact State.Frame.refl _
    | apply State.put_frame | apply f_ite
    | (apply f_mk; first | assumption | exact State.Frame.refl _ | apply State.put_frame | apply f_ite) | split)

theorem execXceWinCommit_frame {s0 : State} {index : Nat} {table : Nat} {s : State} (h0 : s0.Frame P s) (p_regs : P .regs)
    (p_xce : P .xce) :
    FrameOut P s0 (execXceWinCommit index table s) := by
  unfold execXceWinCommit
  try dsimp only
  with_reducible repeat' (first
    | (intro (p : Part) hp; cases p <;> first | rfl | contradiction) | intro _ | assumption | exact State.Frame.refl _
    | apply State.winApply_frame | apply State.put_frame | apply fo_ite | apply f_ite | apply fo_next | apply fo_fault
    | apply f_mk)

theorem execWinCommitDrained_frame {s0 : State} {s : State} (h0 : s0.Frame P s) (p_regs : P .regs) :
    FrameOut P s0 (execWinCommitDrained s) := by
  unfold execWinCommitDrained
  try dsimp only
  with_reducible repeat' (first
    | intro _ | assumption | exact State.Frame.refl _ | apply State.put_frame | apply fo_ite | apply f_ite | apply fo_next
    | apply fo_fault)

theorem State.xceUcUp_frame {s0 : State} {s : State} (h0 : s0.Frame P s) (p_regs : P .regs) (p_xce : P .xce) :
    s0.Frame P (State.xceUcUp s) := by
  unfold State.xceUcUp
  try dsimp only
  with_reducible repeat' (first
    | (intro (p : Part) hp; cases p <;> first | rfl | contradiction) | intro _ | assumption | exact State.Frame.refl _
    | apply State.put_frame | apply State.winApply_frame | apply f_foldl | apply f_mk)

theorem execBar2Load_frame {s0 : State} {h : Hart} {f : Func} {off : Nat} {x : Access} {s : State} (h0 : s0.Frame P s)
    (p_regs : P .regs) (p_free : P .free) (p_core : P .core) (p_pass : P .pass) (p_hzn : P .hzn) (p_xce : P .xce)
    (p_ras : P .ras) (p_tvx : P .tvx) :
    FrameOut P s0 (execBar2Load h f off x s) := by
  unfold execBar2Load
  try dsimp only
  with_reducible repeat' (first
    | intro _ | assumption | exact State.Frame.refl _ | apply execPut_frame | apply State.ecamXce_frame
    | apply State.bar2Fault_frame | apply State.setHart_frame | apply State.wIssue_frame | apply fo_ite | apply f_ite
    | apply fo_next | apply fo_fault | refine f_of_next (by assumption) ?_ | split)

theorem execBar2Store_frame {s0 : State} {h : Hart} {f : Func} {off : Nat} {v : Nat} {x : Access} {s : State}
    (h0 : s0.Frame P s) (p_regs : P .regs) (p_core : P .core) (p_pass : P .pass) (p_hzn : P .hzn) (p_xce : P .xce) :
    FrameOut P s0 (execBar2Store h f off v x s) := by
  unfold execBar2Store
  try dsimp only
  with_reducible repeat' (first
    | intro _ | assumption | exact State.Frame.refl _ | apply execPut_frame | apply State.setOut_frame
    | apply State.retire_frame | apply State.ecamXce_frame | apply State.bar2Drop_frame | apply State.wIssue_frame
    | apply fo_ite | apply f_ite | apply fo_next | apply fo_fault | refine f_of_next (by assumption) ?_ | split)

end Sys2Proof.Machine
end

