-- ==== Sys2Proof/Laws/FramePorts.lean ====
section
/-!
SUPPORT. What each function of Machine/Ports.lean leaves alone (`State.Frame`, Safety.lean): one lemma for each.
-/

namespace Sys2Proof.Machine

variable {P : Part → Prop}

theorem State.setPortSlot_frame {s0 : State} {s : State} {i : Nat} {x : Slot} (h0 : s0.Frame P s) (p_io : P .io) :
    s0.Frame P (State.setPortSlot s i x) := by
  unfold State.setPortSlot
  try dsimp only
  with_reducible repeat' (first
    | (intro (p : Part) hp; cases p <;> first | rfl | contradiction) | intro _ | assumption | exact State.Frame.refl _
    | apply f_mk)

theorem State.capPut_frame {s0 : State} {s : State} {i : Nat} {c : Option Nat} {off : Nat} {lo : Nat} {w : Nat} {v : Nat}
    (h0 : s0.Frame P s) (p_io : P .io) :
    s0.Frame P (State.capPut s i c off lo w v) := by
  unfold State.capPut
  try dsimp only
  with_reducible repeat' (first | intro _ | assumption | exact State.Frame.refl _ | apply State.putCfg_frame | split)

theorem State.portMsi_frame {s0 : State} {s : State} {i : Nat} (h0 : s0.Frame P s) (p_regs : P .regs) (p_pass : P .pass) :
    s0.Frame P (State.portMsi s i) := by
  unfold State.portMsi
  try dsimp only
  with_reducible repeat' (first | intro _ | assumption | exact State.Frame.refl _ | apply State.sendMsi_frame | apply f_ite | split)

theorem State.slotEvent_frame {s0 : State} {s : State} {i : Nat} {m : Nat} (h0 : s0.Frame P s) (p_regs : P .regs)
    (p_pass : P .pass) (p_io : P .io) :
    s0.Frame P (State.slotEvent s i m) := by
  unfold State.slotEvent
  try dsimp only
  with_reducible repeat' (first
    | intro _ | assumption | exact State.Frame.refl _ | apply State.setPortSlot_frame | apply State.portMsi_frame
    | apply f_ite)

theorem State.setRegion_frame {s0 : State} {s : State} {i : Nat} {st : Nat} (h0 : s0.Frame P s) (p_regs : P .regs) :
    s0.Frame P (State.setRegion s i st) := by
  unfold State.setRegion
  try dsimp only
  with_reducible repeat' (first | intro _ | assumption | exact State.Frame.refl _ | apply State.put_frame)

theorem execCxlRegionOnline_frame {s0 : State} {i : RPort} {s : State} (h0 : s0.Frame P s) (p_regs : P .regs) :
    FrameOut P s0 (execCxlRegionOnline i s) := by
  unfold execCxlRegionOnline
  try dsimp only
  with_reducible repeat' (first
    | intro _ | assumption | exact State.Frame.refl _ | apply State.setRegion_frame | apply State.put_frame | apply fo_ite
    | apply f_ite | apply fo_next | apply fo_fault)

theorem State.regionDrain_frame {s0 : State} {s : State} {i : RPort} (h0 : s0.Frame P s) (p_regs : P .regs)
    (p_home : P .home) :
    s0.Frame P (State.regionDrain s i) := by
  unfold State.regionDrain
  try dsimp only
  with_reducible repeat' (first
    | intro _ | assumption | exact State.Frame.refl _ | apply State.setRegion_frame | apply State.walkStart_frame
    | apply f_foldN)

theorem execCxlRegionOffline_frame {s0 : State} {i : RPort} {s : State} (h0 : s0.Frame P s) (p_regs : P .regs)
    (p_home : P .home) :
    FrameOut P s0 (execCxlRegionOffline i s) := by
  unfold execCxlRegionOffline
  try dsimp only
  with_reducible repeat' (first
    | intro _ | assumption | exact State.Frame.refl _ | apply State.regionDrain_frame | apply State.put_frame | apply fo_ite
    | apply f_ite | apply fo_next | apply fo_fault)

theorem execCxlFillComplete_frame {s0 : State} {i : RPort} {ok : Bool} {s : State} (h0 : s0.Frame P s) (p_regs : P .regs)
    (p_mem : P .mem) (p_marked : P .marked) (p_chan : P .chan) (p_meter : P .meter) (p_tvx : P .tvx) :
    FrameOut P s0 (execCxlFillComplete i ok s) := by
  unfold execCxlFillComplete
  try dsimp only
  with_reducible repeat' (first
    | (intro (p : Part) hp; cases p <;> first | rfl | contradiction) | intro _ | assumption | exact State.Frame.refl _
    | apply State.put_frame | apply State.setRegion_frame | apply State.meterAdd_frame | apply State.jByFill_frame
    | apply fo_ite | apply f_ite | apply fo_next | apply fo_fault | apply f_regs | apply f_mem
    | (apply f_mk; first | assumption | exact State.Frame.refl _ | apply State.put_frame | apply State.setRegion_frame | apply State.meterAdd_frame | apply State.jByFill_frame | apply fo_ite | apply f_ite | apply fo_next | apply fo_fault | apply f_regs | apply f_mem)
    | split)

theorem execCxlDrainComplete_frame {s0 : State} {i : RPort} {s : State} (h0 : s0.Frame P s) (p_regs : P .regs)
    (p_home : P .home) (p_mesa : P .mesa) :
    FrameOut P s0 (execCxlDrainComplete i s) := by
  unfold execCxlDrainComplete
  try dsimp only
  with_reducible repeat' (first
    | (intro (p : Part) hp; cases p <;> first | rfl | contradiction) | intro _ | assumption | exact State.Frame.refl _
    | apply State.regionsOff_frame | apply State.mesaInvAll_frame | apply fo_ite | apply f_ite | apply fo_next
    | apply fo_fault
    | (apply f_mk; first | assumption | exact State.Frame.refl _ | apply State.regionsOff_frame | apply State.mesaInvAll_frame | apply fo_ite | apply f_ite | apply fo_next | apply fo_fault)
    | split)

theorem State.regionLinkDown_frame {s0 : State} {s : State} {i : RPort} (h0 : s0.Frame P s) (p_regs : P .regs)
    (p_home : P .home) (p_io : P .io) :
    s0.Frame P (State.regionLinkDown s i) := by
  unfold State.regionLinkDown
  try dsimp only
  with_reducible repeat' (first
    | intro _ | assumption | exact State.Frame.refl _ | apply State.setPortSlot_frame | apply State.put_frame
    | apply State.setRegion_frame | apply State.regionDrain_frame | apply f_ite)

theorem execCxlLinkDown_frame {s0 : State} {i : RPort} {s : State} (h0 : s0.Frame P s) (p_regs : P .regs) (p_home : P .home)
    (p_io : P .io) :
    FrameOut P s0 (execCxlLinkDown i s) := by
  unfold execCxlLinkDown
  try dsimp only
  with_reducible repeat' (first
    | intro _ | assumption | exact State.Frame.refl _ | apply State.regionLinkDown_frame | apply fo_ite | apply f_ite
    | apply fo_next | apply fo_fault)

theorem execRootPortLinkUp_frame {s0 : State} {i : RPort} {cxl : Bool} {s : State} (h0 : s0.Frame P s) (p_regs : P .regs)
    (p_io : P .io) :
    FrameOut P s0 (execRootPortLinkUp i cxl s) := by
  unfold execRootPortLinkUp
  try dsimp only
  with_reducible repeat' (first
    | intro _ | assumption | exact State.Frame.refl _ | apply State.putB_frame | apply State.setPortSlot_frame
    | apply fo_ite | apply f_ite | apply fo_next | apply fo_fault)

theorem State.pcieRateDown_frame {s0 : State} {s : State} {i : Nat} (h0 : s0.Frame P s) (p_regs : P .regs) (p_io : P .io)
    (p_tvx : P .tvx) :
    s0.Frame P (State.pcieRateDown s i) := by
  unfold State.pcieRateDown
  try dsimp only
  with_reducible repeat' (first | intro _ | assumption | exact State.Frame.refl _ | apply State.logEvent_frame | apply State.setPortSlot_frame)

theorem execRootPortLinkError_frame {s0 : State} {i : RPort} {s : State} (h0 : s0.Frame P s) (p_regs : P .regs)
    (p_free : P .free) (p_core : P .core) (p_pass : P .pass) (p_io : P .io) (p_ras : P .ras) (p_tvx : P .tvx) :
    FrameOut P s0 (execRootPortLinkError i s) := by
  unfold execRootPortLinkError
  try dsimp only
  with_reducible repeat' (first
    | intro _ | assumption | exact State.Frame.refl _ | apply State.count_frame | apply State.capPut_frame
    | apply State.errRecord_frame | apply State.charge_frame | apply State.pcieRateDown_frame | apply fo_ite | apply f_ite
    | apply f_ite_fst | apply f_ite_snd | apply fo_next | apply fo_fault)

theorem State.slotApply_frame {s0 : State} {s : State} {i : Nat} (h0 : s0.Frame P s) (p_io : P .io) :
    s0.Frame P (State.slotApply s i) := by
  unfold State.slotApply
  try dsimp only
  with_reducible repeat' (first | intro _ | assumption | exact State.Frame.refl _ | apply State.setPortSlot_frame | apply f_ite)

theorem State.slotOff_frame {s0 : State} {s : State} {i : Nat} (h0 : s0.Frame P s) (p_io : P .io) :
    s0.Frame P (State.slotOff s i) := by
  unfold State.slotOff
  try dsimp only
  with_reducible repeat' (first | intro _ | assumption | exact State.Frame.refl _ | apply State.slotApply_frame | apply State.setPortSlot_frame)

theorem State.slotFault_frame {s0 : State} {s : State} {i : Nat} (h0 : s0.Frame P s) (p_regs : P .regs) (p_pass : P .pass)
    (p_io : P .io) :
    s0.Frame P (State.slotFault s i) := by
  unfold State.slotFault
  try dsimp only
  with_reducible repeat' (first | intro _ | assumption | exact State.Frame.refl _ | apply State.slotOff_frame | apply State.slotEvent_frame)

theorem State.scan_frame {s0 : State} {s : State} {i : Nat} {data : Option Nat} (h0 : s0.Frame P s) (p_regs : P .regs)
    (p_pass : P .pass) (p_io : P .io) :
    s0.Frame P (State.scan s i data) := by
  unfold State.scan
  try dsimp only
  with_reducible repeat' (first
    | intro _ | assumption | exact State.Frame.refl _ | apply State.portMsi_frame | apply State.setPortSlot_frame
    | apply State.put_frame | apply State.slotApply_frame | apply State.slotFault_frame | apply State.slotOff_frame
    | apply f_ite | split)

theorem execExpanderScan_frame {s0 : State} {i : RPort} {data : Option Nat} {s : State} (h0 : s0.Frame P s)
    (p_regs : P .regs) (p_pass : P .pass) (p_io : P .io) :
    FrameOut P s0 (execExpanderScan i data s) := by
  unfold execExpanderScan
  try dsimp only
  with_reducible repeat' (first | intro _ | assumption | exact State.Frame.refl _ | apply State.scan_frame | apply fo_next | apply fo_fault)

theorem execHpIntFall_frame {s0 : State} {b : Fin 4} {data : List (Option Nat)} {s : State} (h0 : s0.Frame P s)
    (p_regs : P .regs) (p_pass : P .pass) (p_io : P .io) :
    FrameOut P s0 (execHpIntFall b data s) := by
  unfold execHpIntFall
  try dsimp only
  with_reducible repeat' (first
    | intro _ | assumption | exact State.Frame.refl _ | apply State.scan_frame | apply f_foldN | apply fo_next
    | apply fo_fault | split)

theorem execSlotDebounceDone_frame {s0 : State} {i : RPort} {s : State} (h0 : s0.Frame P s) (p_regs : P .regs)
    (p_pass : P .pass) (p_io : P .io) :
    FrameOut P s0 (execSlotDebounceDone i s) := by
  unfold execSlotDebounceDone
  try dsimp only
  with_reducible repeat' (first
    | intro _ | assumption | exact State.Frame.refl _ | apply State.setPortSlot_frame | apply State.slotEvent_frame
    | apply fo_ite | apply f_ite | apply fo_next | apply fo_fault)

theorem State.slotControl_frame {s0 : State} {s : State} {i : Nat} {v : Nat} (h0 : s0.Frame P s) (p_io : P .io) :
    s0.Frame P (State.slotControl s i v) := by
  unfold State.slotControl
  try dsimp only
  with_reducible repeat' (first
    | intro _ | assumption | exact State.Frame.refl _ | apply State.slotApply_frame | apply State.setPortSlot_frame
    | apply f_ite)

theorem execSlotPowerControlWrite_frame {s0 : State} {i : RPort} {v : Nat} {s : State} (h0 : s0.Frame P s) (p_io : P .io) :
    FrameOut P s0 (execSlotPowerControlWrite i v s) := by
  unfold execSlotPowerControlWrite
  try dsimp only
  with_reducible repeat' (first
    | intro _ | assumption | exact State.Frame.refl _ | apply State.slotControl_frame | apply fo_ite | apply f_ite
    | apply fo_next | apply fo_fault)

theorem execSlotPerstRelease_frame {s0 : State} {i : RPort} {s : State} (h0 : s0.Frame P s) (p_io : P .io) :
    FrameOut P s0 (execSlotPerstRelease i s) := by
  unfold execSlotPerstRelease
  try dsimp only
  with_reducible repeat' (first
    | intro _ | assumption | exact State.Frame.refl _ | apply State.slotApply_frame | apply State.setPortSlot_frame
    | apply fo_ite | apply f_ite | apply fo_next | apply fo_fault)

theorem execSlotPowerFault_frame {s0 : State} {i : RPort} {s : State} (h0 : s0.Frame P s) (p_regs : P .regs)
    (p_pass : P .pass) (p_io : P .io) :
    FrameOut P s0 (execSlotPowerFault i s) := by
  unfold execSlotPowerFault
  try dsimp only
  with_reducible repeat' (first
    | intro _ | assumption | exact State.Frame.refl _ | apply State.slotFault_frame | apply State.setPortSlot_frame
    | apply fo_ite | apply f_ite | apply fo_next | apply fo_fault)

theorem execSlotIndicatorBlink_frame {s0 : State} {i : RPort} {s : State} (h0 : s0.Frame P s) (p_io : P .io) :
    FrameOut P s0 (execSlotIndicatorBlink i s) := by
  unfold execSlotIndicatorBlink
  try dsimp only
  with_reducible repeat' (first
    | intro _ | assumption | exact State.Frame.refl _ | apply State.slotApply_frame | apply State.setPortSlot_frame
    | apply fo_ite | apply f_ite | apply fo_next | apply fo_fault)

theorem execPePerstRelease_frame {s0 : State} {g : Fin 8} {s : State} (h0 : s0.Frame P s) (p_pwr : P .pwr) :
    FrameOut P s0 (execPePerstRelease g s) := by
  unfold execPePerstRelease
  try dsimp only
  with_reducible repeat' (first
    | (intro (p : Part) hp; cases p <;> first | rfl | contradiction) | intro _ | assumption | exact State.Frame.refl _
    | apply fo_ite | apply f_ite | apply fo_next | apply fo_fault | apply f_mk)

theorem State.portErr_frame {s0 : State} {s : State} {i : Nat} {ga : Nat} {write : Bool} (h0 : s0.Frame P s)
    (p_regs : P .regs) (p_free : P .free) (p_core : P .core) (p_pass : P .pass) (p_ras : P .ras) (p_tvx : P .tvx) :
    s0.Frame P (State.portErr s i ga write) := by
  unfold State.portErr
  try dsimp only
  with_reducible repeat' (first
    | intro _ | assumption | exact State.Frame.refl _ | apply State.errRecord_frame | apply State.put_frame
    | apply State.putB_frame | apply f_ite)

theorem State.containedRead_frame {s0 : State} {s : State} {h : Nat} {i : Nat} {x : Access} (h0 : s0.Frame P s)
    (p_regs : P .regs) (p_free : P .free) (p_core : P .core) (p_pass : P .pass) (p_ras : P .ras) (p_tvx : P .tvx) :
    s0.Frame P (State.containedRead s h i x) := by
  unfold State.containedRead
  try dsimp only
  with_reducible repeat' (first
    | intro _ | assumption | exact State.Frame.refl _ | apply State.setHart_frame | apply State.setOut_frame
    | apply State.retire_frame | apply State.trapHart_frame | apply State.hartRecord_frame | apply State.portErr_frame
    | apply f_ite | split)

theorem State.containHarts_frame {s0 : State} {s : State} {i : Nat} (h0 : s0.Frame P s) (p_regs : P .regs)
    (p_free : P .free) (p_core : P .core) (p_pass : P .pass) (p_ras : P .ras) (p_tvx : P .tvx) :
    s0.Frame P (State.containHarts s i) := by
  unfold State.containHarts
  try dsimp only
  with_reducible repeat' (first
    | intro _ | assumption | exact State.Frame.refl _ | apply State.containedRead_frame | apply f_ite | apply f_foldN
    | split)

theorem execPortContainment_frame {s0 : State} {i : RPort} {reason : Nat} {s : State} (h0 : s0.Frame P s) (p_regs : P .regs)
    (p_free : P .free) (p_core : P .core) (p_home : P .home) (p_pass : P .pass) (p_io : P .io) (p_ras : P .ras)
    (p_tvx : P .tvx) :
    FrameOut P s0 (execPortContainment i reason s) := by
  unfold execPortContainment
  try dsimp only
  with_reducible repeat' (first
    | (intro (p : Part) hp; cases p <;> first | rfl | contradiction) | intro _ | assumption | exact State.Frame.refl _
    | apply State.put_frame | apply State.capPut_frame | apply State.containHarts_frame | apply State.regionLinkDown_frame
    | apply fo_ite | apply f_ite | apply fo_next | apply fo_fault | apply f_mk)

theorem State.dpcClear_frame {s0 : State} {s : State} {i : Nat} (h0 : s0.Frame P s) (p_regs : P .regs) (p_io : P .io) :
    s0.Frame P (State.dpcClear s i) := by
  unfold State.dpcClear
  try dsimp only
  with_reducible repeat' (first
    | intro _ | assumption | exact State.Frame.refl _ | apply State.setPortSlot_frame | apply State.capPut_frame
    | apply State.put_frame | apply f_ite)

theorem execDpcStatusClear_frame {s0 : State} {i : RPort} {s : State} (h0 : s0.Frame P s) (p_regs : P .regs) (p_io : P .io)
    :
    FrameOut P s0 (execDpcStatusClear i s) := by
  unfold execDpcStatusClear
  try dsimp only
  with_reducible repeat' (first | intro _ | assumption | exact State.Frame.refl _ | apply State.dpcClear_frame | apply fo_next | apply fo_fault)

theorem execContainmentHoldExpiry_frame {s0 : State} {i : RPort} {s : State} (h0 : s0.Frame P s) (p_io : P .io) :
    FrameOut P s0 (execContainmentHoldExpiry i s) := by
  unfold execContainmentHoldExpiry
  try dsimp only
  with_reducible repeat' (first
    | intro _ | assumption | exact State.Frame.refl _ | apply State.setPortSlot_frame | apply fo_ite | apply f_ite
    | apply fo_next | apply fo_fault)

theorem execMmioCplTimeout_frame {s0 : State} {h : Hart} {s : State} (h0 : s0.Frame P s) (p_regs : P .regs)
    (p_free : P .free) (p_core : P .core) (p_pass : P .pass) (p_ras : P .ras) (p_tvx : P .tvx) :
    FrameOut P s0 (execMmioCplTimeout h s) := by
  unfold execMmioCplTimeout
  try dsimp only
  with_reducible repeat' (first
    | intro _ | assumption | exact State.Frame.refl _ | apply State.containHarts_frame | apply State.containedRead_frame
    | apply fo_next | apply fo_fault | split)

theorem execMmioCompletion_frame {s0 : State} {h : Hart} {ok : Bool} {v : Nat} {s : State} (h0 : s0.Frame P s)
    (p_regs : P .regs) (p_core : P .core) (p_pass : P .pass) :
    FrameOut P s0 (execMmioCompletion h ok v s) := by
  unfold execMmioCompletion
  try dsimp only
  with_reducible repeat' (first
    | intro _ | assumption | exact State.Frame.refl _ | apply State.containHarts_frame | apply State.count_frame
    | apply State.setHart_frame | apply State.setOut_frame | apply State.retire_frame | apply fo_ite | apply f_ite
    | apply fo_next | apply fo_fault | split)

theorem State.completerAbort_frame {s0 : State} {s : State} {i : Nat} {rid : Nat} {answered : Bool} (h0 : s0.Frame P s)
    (p_io : P .io) :
    s0.Frame P (State.completerAbort s i rid answered) := by
  unfold State.completerAbort
  try dsimp only
  with_reducible repeat' (first
    | (intro (p : Part) hp; cases p <;> first | rfl | contradiction) | intro _ | assumption | exact State.Frame.refl _
    | apply f_ite | apply f_mk)

theorem execDeviceDmaRequest_frame {s0 : State} {i : RPort} {rid : Nat} {x : Dma} {tr : Xlate} {s : State}
    (h0 : s0.Frame P s) (p_regs : P .regs) (p_net : P .net) (p_free : P .free) (p_pass : P .pass) (p_io : P .io) :
    FrameOut P s0 (execDeviceDmaRequest i rid x tr s) := by
  unfold execDeviceDmaRequest
  try dsimp only
  with_reducible repeat' (first
    | (intro (p : Part) hp; cases p <;> first | rfl | contradiction) | intro _ | assumption | exact State.Frame.refl _
    | apply State.count_frame | apply State.capPut_frame | apply State.freeWord_frame | apply State.completerAbort_frame
    | apply State.iommuFault_frame | apply State.decodeErr_frame | apply State.ioRead_frame | apply State.ioWrite_frame
    | apply State.ioSend_frame | apply fo_ite | apply f_ite | apply f_ite_fst | apply f_ite_snd | apply fo_next
    | apply fo_fault | refine f_of_snd (by assumption) ?_ | refine f_of_fst (by assumption) ?_
    | refine f_of_some (by assumption) ?_
    | (apply f_mk; first | assumption | exact State.Frame.refl _ | apply State.count_frame | apply State.capPut_frame | apply State.freeWord_frame | apply State.completerAbort_frame | apply State.iommuFault_frame | apply State.decodeErr_frame | apply State.ioRead_frame | apply State.ioWrite_frame | apply State.ioSend_frame | apply fo_ite | apply f_ite | apply f_ite_fst | apply f_ite_snd | apply fo_next | apply fo_fault)
    | split)

theorem execDeviceMsiWrite_frame {s0 : State} {i : RPort} {rid : Nat} {ga : Option Nat} {data : Nat} {s : State}
    (h0 : s0.Frame P s) (p_regs : P .regs) (p_net : P .net) (p_free : P .free) (p_pass : P .pass) (p_io : P .io) :
    FrameOut P s0 (execDeviceMsiWrite i rid ga data s) := by
  unfold execDeviceMsiWrite
  try dsimp only
  with_reducible repeat' (first
    | intro _ | assumption | exact State.Frame.refl _ | apply State.portMsi_frame | apply State.freeWord_frame
    | apply State.iommuDrop_frame | apply State.msiWrite_frame | apply fo_ite | apply f_ite | apply f_ite_fst
    | apply f_ite_snd | apply fo_next | apply fo_fault | refine f_of_snd (by assumption) ?_
    | refine f_of_fst (by assumption) ?_ | refine f_of_some (by assumption) ?_ | split)

theorem execIntxLevelChange_frame {s0 : State} {src : Fin 1024} {level : Bool} {s : State} (h0 : s0.Frame P s)
    (p_regs : P .regs) (p_pass : P .pass) (p_io : P .io) :
    FrameOut P s0 (execIntxLevelChange src level s) := by
  unfold execIntxLevelChange
  try dsimp only
  with_reducible repeat' (first
    | intro _ | assumption | exact State.Frame.refl _ | apply State.aplicLevel_frame | apply fo_ite | apply f_ite
    | apply fo_next | apply fo_fault)

theorem execSeteipnumStore_frame {s0 : State} {ga : Nat} {v : BitVec 32} {s : State} (h0 : s0.Frame P s) (p_regs : P .regs)
    (p_pass : P .pass) :
    FrameOut P s0 (execSeteipnumStore ga v s) := by
  unfold execSeteipnumStore
  try dsimp only
  with_reducible repeat' (first
    | intro _ | assumption | exact State.Frame.refl _ | apply State.setPending_frame | apply fo_ite | apply f_ite
    | apply fo_next | apply fo_fault)

theorem State.rootCfgStore_frame {s0 : State} {s : State} {i : Nat} {off : Nat} {size : Nat} {v : Nat} (h0 : s0.Frame P s)
    (p_regs : P .regs) (p_io : P .io) :
    s0.Frame P (State.rootCfgStore s i off size v) := by
  unfold State.rootCfgStore
  try dsimp only
  with_reducible repeat' (first
    | intro _ | assumption | exact State.Frame.refl _ | apply State.setPortSlot_frame | apply State.slotControl_frame
    | apply State.dpcClear_frame | apply State.setCfg_frame | apply f_ite)

theorem State.rootCfgWrite_frame {s0 : State} {s : State} {i : Nat} {off : Nat} {size : Nat} {v : Nat} (h0 : s0.Frame P s)
    (p_regs : P .regs) (p_io : P .io) :
    FrameOpt P s0 (State.rootCfgWrite s i off size v) := by
  unfold State.rootCfgWrite
  try dsimp only
  with_reducible repeat' (first
    | intro _ | assumption | exact State.Frame.refl _ | apply State.rootCfgStore_frame | apply fp_ite | apply f_ite
    | apply fp_some | apply fp_none)

end Sys2Proof.Machine
end

