-- ==== Sys2Proof/Laws/FrameMgmt.lean ====
section
/-!
SUPPORT. What each function of Machine/Mgmt.lean leaves alone (`State.Frame`, Safety.lean): one lemma for each.
-/

namespace Sys2Proof.Machine

variable {P : Part → Prop}

theorem State.setTvx_frame {s0 : State} {s : State} {x : TvxSt} (h0 : s0.Frame P s) (p_tvx : P .tvx) :
    s0.Frame P (State.setTvx s x) := by
  unfold State.setTvx
  try dsimp only
  with_reducible repeat' (first
    | (intro (p : Part) hp; cases p <;> first | rfl | contradiction) | intro _ | assumption | exact State.Frame.refl _
    | apply f_mk)

theorem State.mgmtReset_frame {s0 : State} {s : State} {c : Cause} (h0 : s0.Frame P s) (p_regs : P .regs) (p_free : P .free)
    (p_core : P .core) (p_pass : P .pass) (p_ras : P .ras) (p_tvx : P .tvx) :
    s0.Frame P (State.mgmtReset s c) := by
  unfold State.mgmtReset
  try dsimp only
  with_reducible repeat' (first
    | intro _ | assumption | exact State.Frame.refl _ | apply State.setTvx_frame | apply State.errRecord_frame | apply f_ite
    | split)

theorem execMgmtReset_frame {s0 : State} {s : State} (h0 : s0.Frame P s) (p_regs : P .regs) (p_free : P .free)
    (p_core : P .core) (p_pass : P .pass) (p_ras : P .ras) (p_tvx : P .tvx) :
    FrameOut P s0 (execMgmtReset s) := by
  unfold execMgmtReset
  try dsimp only
  with_reducible repeat' (first | intro _ | assumption | exact State.Frame.refl _ | apply State.mgmtReset_frame | apply fo_next | apply fo_fault)

theorem execLockstepMismatch_frame {s0 : State} {s : State} (h0 : s0.Frame P s) (p_regs : P .regs) (p_free : P .free)
    (p_core : P .core) (p_pass : P .pass) (p_ras : P .ras) (p_tvx : P .tvx) :
    FrameOut P s0 (execLockstepMismatch s) := by
  unfold execLockstepMismatch
  try dsimp only
  with_reducible repeat' (first | intro _ | assumption | exact State.Frame.refl _ | apply State.mgmtReset_frame | apply fo_next | apply fo_fault)

theorem execTvxWatchdogExpiry_frame {s0 : State} {s : State} (h0 : s0.Frame P s) (p_regs : P .regs) (p_free : P .free)
    (p_core : P .core) (p_pass : P .pass) (p_ras : P .ras) (p_tvx : P .tvx) :
    FrameOut P s0 (execTvxWatchdogExpiry s) := by
  unfold execTvxWatchdogExpiry
  try dsimp only
  with_reducible repeat' (first
    | intro _ | assumption | exact State.Frame.refl _ | apply State.mgmtReset_frame | apply fo_ite | apply f_ite
    | apply fo_next | apply fo_fault)

theorem execThermalSensorRead_frame {s0 : State} {vals : List Int} {s : State} (h0 : s0.Frame P s) (p_regs : P .regs)
    (p_tvx : P .tvx) :
    FrameOut P s0 (execThermalSensorRead vals s) := by
  unfold execThermalSensorRead
  try dsimp only
  with_reducible repeat' (first
    | intro _ | assumption | exact State.Frame.refl _ | apply State.setTvx_frame | apply State.put_frame | apply fo_ite
    | apply f_ite | apply f_foldN | apply fo_next | apply fo_fault | split)

theorem execAgeingRead_frame {s0 : State} {m : Fin 60} {r : Int} {s : State} (h0 : s0.Frame P s) (p_regs : P .regs)
    (p_tvx : P .tvx) :
    FrameOut P s0 (execAgeingRead m r s) := by
  unfold execAgeingRead
  try dsimp only
  with_reducible repeat' (first
    | intro _ | assumption | exact State.Frame.refl _ | apply State.healthRevise_frame | apply State.setTvx_frame
    | apply fo_ite | apply f_ite | apply fo_next | apply fo_fault)

theorem State.recvCommand_frame {s0 : State} {s : State} {g : Ingress} {k : Pkt} (h0 : s0.Frame P s) (p_free : P .free)
    (p_tvx : P .tvx) :
    s0.Frame P (State.recvCommand s g k) := by
  unfold State.recvCommand
  try dsimp only
  with_reducible repeat' (first
    | intro _ | assumption | exact State.Frame.refl _ | apply State.answer_frame | apply State.busyPay_frame
    | apply State.setIng_frame | apply State.settle_frame | apply State.setQueue_frame | apply f_ite | apply f_ite_fst
    | apply f_ite_snd | refine f_of_snd (by assumption) ?_ | refine f_of_fst (by assumption) ?_
    | refine f_of_some (by assumption) ?_ | split)

theorem State.recvData_frame {s0 : State} {s : State} {g : Ingress} {k : Pkt} (h0 : s0.Frame P s) (p_regs : P .regs)
    (p_tvx : P .tvx) :
    s0.Frame P (State.recvData s g k) := by
  unfold State.recvData
  try dsimp only
  with_reducible repeat' (first
    | intro _ | assumption | exact State.Frame.refl _ | apply State.bump_frame | apply State.setQueue_frame
    | apply State.xferReady_frame | apply State.settle_frame | apply State.finish_frame | apply f_ite | split)

theorem State.recvPkt_frame {s0 : State} {s : State} {g : Ingress} {k : Pkt} (h0 : s0.Frame P s) (p_regs : P .regs)
    (p_free : P .free) (p_tvx : P .tvx) :
    s0.Frame P (State.recvPkt s g k) := by
  unfold State.recvPkt
  try dsimp only
  with_reducible repeat' (first
    | intro _ | assumption | exact State.Frame.refl _ | apply State.recvCommand_frame | apply State.recvData_frame
    | apply f_ite)

theorem execMslFrame_frame {s0 : State} {bytes : List Nat} {s : State} (h0 : s0.Frame P s) (p_regs : P .regs)
    (p_free : P .free) (p_tvx : P .tvx) :
    FrameOut P s0 (execMslFrame bytes s) := by
  unfold execMslFrame
  try dsimp only
  with_reducible repeat' (first
    | intro _ | assumption | exact State.Frame.refl _ | apply State.bump_frame | apply State.recvPkt_frame | apply fo_ite
    | apply f_ite | apply fo_next | apply fo_fault | split)

theorem execCommandReceive_frame {s0 : State} {g : Ingress} {k : Pkt} {s : State} (h0 : s0.Frame P s) (p_free : P .free)
    (p_tvx : P .tvx) :
    FrameOut P s0 (execCommandReceive g k s) := by
  unfold execCommandReceive
  try dsimp only
  with_reducible repeat' (first
    | intro _ | assumption | exact State.Frame.refl _ | apply State.recvCommand_frame | apply fo_ite | apply f_ite
    | apply fo_next | apply fo_fault)

theorem execDataPacket_frame {s0 : State} {g : Ingress} {k : Pkt} {s : State} (h0 : s0.Frame P s) (p_regs : P .regs)
    (p_tvx : P .tvx) :
    FrameOut P s0 (execDataPacket g k s) := by
  unfold execDataPacket
  try dsimp only
  with_reducible repeat' (first
    | intro _ | assumption | exact State.Frame.refl _ | apply State.recvData_frame | apply fo_ite | apply f_ite
    | apply fo_next | apply fo_fault)

theorem execXferDataTimeout_frame {s0 : State} {s : State} (h0 : s0.Frame P s) (p_tvx : P .tvx) :
    FrameOut P s0 (execXferDataTimeout s) := by
  unfold execXferDataTimeout
  try dsimp only
  with_reducible repeat' (first
    | intro _ | assumption | exact State.Frame.refl _ | apply State.recvData_frame | apply State.settle_frame
    | apply State.finish_frame | apply State.setQueue_frame | apply fo_ite | apply f_ite | apply fo_next | apply fo_fault
    | split)

theorem execMboxTxGo_frame {s0 : State} {len : Nat} {s : State} (h0 : s0.Frame P s) (p_regs : P .regs) :
    FrameOut P s0 (execMboxTxGo len s) := by
  unfold execMboxTxGo
  try dsimp only
  with_reducible repeat' (first
    | intro _ | assumption | exact State.Frame.refl _ | apply State.put_frame | apply fo_ite | apply f_ite | apply fo_next
    | apply fo_fault)

theorem execMboxTxTake_frame {s0 : State} {s : State} (h0 : s0.Frame P s) (p_regs : P .regs) (p_free : P .free)
    (p_tvx : P .tvx) :
    FrameOut P s0 (execMboxTxTake s) := by
  unfold execMboxTxTake
  try dsimp only
  with_reducible repeat' (first
    | intro _ | assumption | exact State.Frame.refl _ | apply State.put_frame | apply State.recvPkt_frame | apply fo_ite
    | apply f_ite | apply fo_next | apply fo_fault)

theorem execMboxRxAck_frame {s0 : State} {s : State} (h0 : s0.Frame P s) (p_regs : P .regs) :
    FrameOut P s0 (execMboxRxAck s) := by
  unfold execMboxRxAck
  try dsimp only
  with_reducible repeat' (first | intro _ | assumption | exact State.Frame.refl _ | apply State.put_frame | apply fo_next | apply fo_fault)

theorem State.rxFill_frame {s0 : State} {s : State} {z1 : Nat} {z2 : List Nat} (h0 : s0.Frame P s) (p_regs : P .regs) :
    s0.Frame P (State.rxFill s z1 z2) := by
  induction z2 generalizing s z1 with
  | nil =>
    unfold State.rxFill
    try dsimp only
    with_reducible repeat' (first | intro _ | assumption | exact State.Frame.refl _ | apply State.put_frame | split)
  | cons e l ih =>
    unfold State.rxFill
    try dsimp only
    with_reducible repeat' (first | intro _ | assumption | exact State.Frame.refl _ | apply State.put_frame | split | apply ih)


theorem execMboxRxDeliver_frame {s0 : State} {s : State} (h0 : s0.Frame P s) (p_regs : P .regs) (p_pass : P .pass)
    (p_tvx : P .tvx) :
    FrameOut P s0 (execMboxRxDeliver s) := by
  unfold execMboxRxDeliver
  try dsimp only
  with_reducible repeat' (first
    | intro _ | assumption | exact State.Frame.refl _ | apply State.rxFill_frame | apply State.setTvx_frame
    | apply State.put_frame | apply State.sendMsi_frame | apply fo_ite | apply f_ite | apply fo_next | apply fo_fault
    | split)

theorem State.execImm_frame {s0 : State} {s : State} {g : Ingress} {op : Nat} {need : Nat}
    {body : Pkt → State → State × Reply} (h0 : s0.Frame P s)
    (hp_body : ∀ (u : State) (y0 : Pkt) (y1 : State), u.Frame P y1 → u.Frame P (body y0 y1).1) (p_free : P .free)
    (p_tvx : P .tvx) :
    s0.Frame P (State.execImm s g op need body) := by
  unfold State.execImm
  try dsimp only
  with_reducible repeat' (first
    | intro _ | assumption | exact State.Frame.refl _ | apply execMboxRxDeliver_frame | apply State.setIng_frame
    | apply State.badHeader_frame | apply State.answer_frame | apply hp_body | apply f_ite | apply f_ite_fst
    | apply f_ite_snd | refine f_of_snd (by assumption) ?_ | refine f_of_fst (by assumption) ?_
    | refine f_of_some (by assumption) ?_ | refine f_of_next (by assumption) ?_ | split)

theorem execQueryTag_frame {s0 : State} {g : Ingress} {s : State} (h0 : s0.Frame P s) (p_free : P .free) (p_tvx : P .tvx) :
    FrameOut P s0 (execQueryTag g s) := by
  unfold execQueryTag
  try dsimp only
  with_reducible repeat' (first
    | intro _ | assumption | exact State.Frame.refl _ | apply execMboxRxDeliver_frame | apply State.sendPkt_frame
    | apply State.setIng_frame | apply State.execImm_frame | apply fo_ite | apply f_ite | apply f_ite_fst | apply f_ite_snd
    | apply fo_next | apply fo_fault | refine f_of_next (by assumption) ?_ | split)

theorem execAbort_frame {s0 : State} {g : Ingress} {s : State} (h0 : s0.Frame P s) (p_free : P .free) (p_tvx : P .tvx) :
    FrameOut P s0 (execAbort g s) := by
  unfold execAbort
  try dsimp only
  with_reducible repeat' (first
    | intro _ | assumption | exact State.Frame.refl _ | apply State.execImm_frame | apply State.settle_frame
    | apply State.complete_frame | apply State.setQueue_frame | apply fo_ite | apply f_ite | apply f_ite_fst
    | apply f_ite_snd | apply fo_next | apply fo_fault | split)

theorem State.ingStart_frame {s0 : State} {s : State} {g : Ingress} (h0 : s0.Frame P s) (p_tvx : P .tvx) :
    s0.Frame P (State.ingStart s g) := by
  unfold State.ingStart
  try dsimp only
  with_reducible repeat' (first | intro _ | assumption | exact State.Frame.refl _ | apply State.setIng_frame)

theorem execResetChannel_frame {s0 : State} {g : Ingress} {s : State} (h0 : s0.Frame P s) (p_free : P .free)
    (p_tvx : P .tvx) :
    FrameOut P s0 (execResetChannel g s) := by
  unfold execResetChannel
  try dsimp only
  with_reducible repeat' (first
    | intro _ | assumption | exact State.Frame.refl _ | apply State.execImm_frame | apply State.setQueue_frame
    | apply State.complete_frame | apply State.settle_frame | apply State.ingStart_frame | apply fo_ite | apply f_ite
    | apply f_ite_fst | apply f_ite_snd | apply f_foldl | apply fo_next | apply fo_fault)

theorem execGetErrorLog_frame {s0 : State} {g : Ingress} {s : State} (h0 : s0.Frame P s) (p_free : P .free) (p_tvx : P .tvx)
    :
    FrameOut P s0 (execGetErrorLog g s) := by
  unfold execGetErrorLog
  try dsimp only
  with_reducible repeat' (first
    | intro _ | assumption | exact State.Frame.refl _ | apply State.execImm_frame | apply State.setIng_frame | apply fo_next
    | apply fo_fault | split)

theorem execResumeQueue_frame {s0 : State} {g : Ingress} {s : State} (h0 : s0.Frame P s) (p_free : P .free) (p_tvx : P .tvx)
    :
    FrameOut P s0 (execResumeQueue g s) := by
  unfold execResumeQueue
  try dsimp only
  with_reducible repeat' (first
    | intro _ | assumption | exact State.Frame.refl _ | apply State.execImm_frame | apply State.setIng_frame | apply fo_ite
    | apply f_ite | apply f_ite_fst | apply f_ite_snd | apply fo_next | apply fo_fault)

theorem execGetInfo_frame {s0 : State} {s : State} (h0 : s0.Frame P s) (p_free : P .free) (p_tvx : P .tvx) :
    FrameOut P s0 (execGetInfo s) := by
  unfold execGetInfo
  try dsimp only
  with_reducible repeat' (first | intro _ | assumption | exact State.Frame.refl _ | apply State.execHead_frame | apply fo_next | apply fo_fault)

theorem execQueueFlush_frame {s0 : State} {s : State} (h0 : s0.Frame P s) (p_free : P .free) (p_tvx : P .tvx) :
    FrameOut P s0 (execQueueFlush s) := by
  unfold execQueueFlush
  try dsimp only
  with_reducible repeat' (first | intro _ | assumption | exact State.Frame.refl _ | apply State.execHead_frame | apply fo_next | apply fo_fault)

theorem execEventEnable_frame {s0 : State} {s : State} (h0 : s0.Frame P s) (p_free : P .free) (p_tvx : P .tvx) :
    FrameOut P s0 (execEventEnable s) := by
  unfold execEventEnable
  try dsimp only
  with_reducible repeat' (first
    | intro _ | assumption | exact State.Frame.refl _ | apply State.execHead_frame | apply State.setIng_frame | apply fo_ite
    | apply f_ite | apply f_ite_fst | apply f_ite_snd | apply fo_next | apply fo_fault)

theorem execGetSensors_frame {s0 : State} {s : State} (h0 : s0.Frame P s) (p_free : P .free) (p_tvx : P .tvx) :
    FrameOut P s0 (execGetSensors s) := by
  unfold execGetSensors
  try dsimp only
  with_reducible repeat' (first
    | intro _ | assumption | exact State.Frame.refl _ | apply State.execHead_frame | apply fo_ite | apply f_ite
    | apply f_ite_fst | apply f_ite_snd | apply fo_next | apply fo_fault)

theorem execGetHealth_frame {s0 : State} {s : State} (h0 : s0.Frame P s) (p_free : P .free) (p_tvx : P .tvx) :
    FrameOut P s0 (execGetHealth s) := by
  unfold execGetHealth
  try dsimp only
  with_reducible repeat' (first
    | intro _ | assumption | exact State.Frame.refl _ | apply State.execHead_frame | apply fo_ite | apply f_ite
    | apply f_ite_fst | apply f_ite_snd | apply fo_next | apply fo_fault)

theorem execReadEventLog_frame {s0 : State} {s : State} (h0 : s0.Frame P s) (p_free : P .free) (p_tvx : P .tvx) :
    FrameOut P s0 (execReadEventLog s) := by
  unfold execReadEventLog
  try dsimp only
  with_reducible repeat' (first
    | intro _ | assumption | exact State.Frame.refl _ | apply State.execHead_frame | apply State.flashGate_frame
    | apply fo_ite | apply f_ite | apply f_ite_fst | apply f_ite_snd | apply fo_next | apply fo_fault)

theorem execReadSanitiseJournal_frame {s0 : State} {s : State} (h0 : s0.Frame P s) (p_free : P .free) (p_tvx : P .tvx) :
    FrameOut P s0 (execReadSanitiseJournal s) := by
  unfold execReadSanitiseJournal
  try dsimp only
  with_reducible repeat' (first
    | intro _ | assumption | exact State.Frame.refl _ | apply State.execHead_frame | apply State.flashGate_frame
    | apply fo_ite | apply f_ite | apply f_ite_fst | apply f_ite_snd | apply fo_next | apply fo_fault)

theorem execSettingsGet_frame {s0 : State} {s : State} (h0 : s0.Frame P s) (p_free : P .free) (p_tvx : P .tvx) :
    FrameOut P s0 (execSettingsGet s) := by
  unfold execSettingsGet
  try dsimp only
  with_reducible repeat' (first
    | intro _ | assumption | exact State.Frame.refl _ | apply State.execHead_frame | apply State.flashGate_frame
    | apply fo_next | apply fo_fault | refine f_of_snd (by assumption) ?_ | refine f_of_fst (by assumption) ?_
    | refine f_of_some (by assumption) ?_ | split)

theorem execSettingsSet_frame {s0 : State} {s : State} (h0 : s0.Frame P s) (p_free : P .free) (p_tvx : P .tvx) :
    FrameOut P s0 (execSettingsSet s) := by
  unfold execSettingsSet
  try dsimp only
  with_reducible repeat' (first
    | intro _ | assumption | exact State.Frame.refl _ | apply State.execHead_frame | apply State.flashGate_frame
    | apply State.putSetSlot_frame | apply fo_ite | apply f_ite | apply f_ite_fst | apply f_ite_snd | apply fo_next
    | apply fo_fault | refine f_of_snd (by assumption) ?_ | refine f_of_fst (by assumption) ?_
    | refine f_of_some (by assumption) ?_ | split)

theorem execClearRetirement_frame {s0 : State} {s : State} (h0 : s0.Frame P s) (p_free : P .free) (p_tvx : P .tvx) :
    FrameOut P s0 (execClearRetirement s) := by
  unfold execClearRetirement
  try dsimp only
  with_reducible repeat' (first
    | intro _ | assumption | exact State.Frame.refl _ | apply State.execHead_frame | apply State.flashGate_frame
    | apply execSettingsSet_frame | apply State.setRecs_frame | apply fo_ite | apply f_ite | apply f_ite_fst
    | apply f_ite_snd | apply fo_next | apply fo_fault | refine f_of_snd (by assumption) ?_
    | refine f_of_fst (by assumption) ?_ | refine f_of_some (by assumption) ?_ | refine f_of_next (by assumption) ?_ | split)

theorem State.settingsCheck_frame {s0 : State} {s : State} (h0 : s0.Frame P s) (p_regs : P .regs) (p_free : P .free)
    (p_core : P .core) (p_pass : P .pass) (p_ras : P .ras) (p_tvx : P .tvx) :
    s0.Frame P (State.settingsCheck s) := by
  unfold State.settingsCheck
  try dsimp only
  with_reducible repeat' (first
    | intro _ | assumption | exact State.Frame.refl _ | apply State.putSetSlot_frame | apply State.setTvx_frame
    | apply State.errRecord_frame | apply f_ite | apply f_foldl)

theorem State.freeBytes_frame {s0 : State} {s : State} {n : Nat} (h0 : s0.Frame P s) (p_free : P .free) :
    s0.Frame P (State.freeBytes s n).2 := by
  unfold State.freeBytes
  try dsimp only
  with_reducible repeat' (first
    | (intro (p : Part) hp; cases p <;> first | rfl | contradiction) | intro _ | assumption | exact State.Frame.refl _
    | apply f_mk)

theorem execHostAreaWrite_frame {s0 : State} {s : State} (h0 : s0.Frame P s) (p_free : P .free) (p_tvx : P .tvx) :
    FrameOut P s0 (execHostAreaWrite s) := by
  unfold execHostAreaWrite
  try dsimp only
  with_reducible repeat' (first
    | intro _ | assumption | exact State.Frame.refl _ | apply State.execHead_frame | apply State.flashGate_frame
    | apply State.badHeader_frame | apply State.freeBit_frame | apply State.recvCommand_frame | apply State.freeBytes_frame
    | apply State.setTvx_frame | apply fo_ite | apply f_ite | apply f_ite_fst | apply f_ite_snd | apply fo_next
    | apply fo_fault | refine f_of_snd (by assumption) ?_ | refine f_of_fst (by assumption) ?_
    | refine f_of_some (by assumption) ?_ | split)

theorem execHostAreaRead_frame {s0 : State} {s : State} (h0 : s0.Frame P s) (p_free : P .free) (p_tvx : P .tvx) :
    FrameOut P s0 (execHostAreaRead s) := by
  unfold execHostAreaRead
  try dsimp only
  with_reducible repeat' (first
    | intro _ | assumption | exact State.Frame.refl _ | apply State.execHead_frame | apply State.flashGate_frame
    | apply fo_ite | apply f_ite | apply f_ite_fst | apply f_ite_snd | apply fo_next | apply fo_fault)

theorem execLongOpComplete_frame {s0 : State} {s : State} (h0 : s0.Frame P s) (p_regs : P .regs) (p_tvx : P .tvx) :
    FrameOut P s0 (execLongOpComplete s) := by
  unfold execLongOpComplete
  try dsimp only
  with_reducible repeat' (first
    | intro _ | assumption | exact State.Frame.refl _ | apply State.longFinish_frame | apply fo_ite | apply f_ite
    | apply fo_next | apply fo_fault | split)

theorem execFlashReqAssert_frame {s0 : State} {s : State} (h0 : s0.Frame P s) (p_tvx : P .tvx) :
    FrameOut P s0 (execFlashReqAssert s) := by
  unfold execFlashReqAssert
  try dsimp only
  with_reducible repeat' (first
    | intro _ | assumption | exact State.Frame.refl _ | apply State.flashTry_frame | apply State.setTvx_frame
    | apply fo_next | apply fo_fault)

theorem execFlashReqDeassert_frame {s0 : State} {s : State} (h0 : s0.Frame P s) (p_regs : P .regs) (p_tvx : P .tvx)
    (p_pwr : P .pwr) :
    FrameOut P s0 (execFlashReqDeassert s) := by
  unfold execFlashReqDeassert
  try dsimp only
  with_reducible repeat' (first
    | (intro (p : Part) hp; cases p <;> first | rfl | contradiction) | intro _ | assumption | exact State.Frame.refl _
    | apply State.flushLog_frame | apply State.setTvx_frame | apply fo_ite | apply f_ite | apply fo_next | apply fo_fault
    | apply f_mk)

end Sys2Proof.Machine
end

