-- ==== Sys2Proof/Laws/FrameBundle.lean ====
section
/-!
SUPPORT. What each function of Machine/Bundle.lean leaves alone (`State.Frame`, Safety.lean): one lemma for each.
-/

namespace Sys2Proof.Machine

variable {P : Part → Prop}

theorem State.dirWrite_frame {s0 : State} {s : State} {r : DirRec} (h0 : s0.Frame P s) (p_tvx : P .tvx) :
    s0.Frame P (State.dirWrite s r) := by
  unfold State.dirWrite
  try dsimp only
  with_reducible repeat' (first | intro _ | assumption | exact State.Frame.refl _ | apply State.setTvx_frame | apply f_ite | split)

theorem State.setSlotBytes_frame {s0 : State} {s : State} {i : Nat} {b : List Nat} (h0 : s0.Frame P s) (p_tvx : P .tvx) :
    s0.Frame P (State.setSlotBytes s i b) := by
  unfold State.setSlotBytes
  try dsimp only
  with_reducible repeat' (first | intro _ | assumption | exact State.Frame.refl _ | apply State.setTvx_frame | apply f_ite)

theorem State.stageComplete_frame {s0 : State} {s : State} (h0 : s0.Frame P s) (p_tvx : P .tvx) :
    s0.Frame P (State.stageComplete s) := by
  unfold State.stageComplete
  try dsimp only
  with_reducible repeat' (first
    | intro _ | assumption | exact State.Frame.refl _ | apply State.setSlotBytes_frame | apply State.dirWrite_frame
    | apply State.setTvx_frame)

theorem execStageBlock_frame {s0 : State} {s : State} (h0 : s0.Frame P s) (p_free : P .free) (p_tvx : P .tvx) :
    FrameOut P s0 (execStageBlock s) := by
  unfold execStageBlock
  try dsimp only
  with_reducible repeat' (first
    | intro _ | assumption | exact State.Frame.refl _ | apply State.execHead_frame | apply State.flashGate_frame
    | apply State.badHeader_frame | apply State.setTvx_frame | apply State.freeBit_frame | apply State.stageComplete_frame
    | apply fo_ite | apply f_ite | apply f_ite_fst | apply f_ite_snd | apply fo_next | apply fo_fault
    | refine f_of_snd (by assumption) ?_ | refine f_of_fst (by assumption) ?_ | refine f_of_some (by assumption) ?_ | split)

theorem execStageStatus_frame {s0 : State} {s : State} (h0 : s0.Frame P s) (p_free : P .free) (p_tvx : P .tvx) :
    FrameOut P s0 (execStageStatus s) := by
  unfold execStageStatus
  try dsimp only
  with_reducible repeat' (first
    | intro _ | assumption | exact State.Frame.refl _ | apply State.execHead_frame | apply State.flashGate_frame
    | apply fo_ite | apply f_ite | apply f_ite_fst | apply f_ite_snd | apply fo_next | apply fo_fault
    | refine f_of_snd (by assumption) ?_ | refine f_of_fst (by assumption) ?_ | refine f_of_some (by assumption) ?_ | split)

theorem execSlotEraseComplete_frame {s0 : State} {s : State} (h0 : s0.Frame P s) (p_tvx : P .tvx) :
    FrameOut P s0 (execSlotEraseComplete s) := by
  unfold execSlotEraseComplete
  try dsimp only
  with_reducible repeat' (first
    | intro _ | assumption | exact State.Frame.refl _ | apply State.setTvx_frame | apply fo_ite | apply f_ite
    | apply fo_next | apply fo_fault)

theorem State.por_frame {s0 : State} {s : State} {tvx : Bool} (h0 : s0.Frame P s) (p_regs : P .regs) (p_mem : P .mem)
    (p_marked : P .marked) (p_net : P .net) (p_core : P .core) (p_die : P .die) (p_home : P .home) (p_pass : P .pass)
    (p_chan : P .chan) (p_mesa : P .mesa) (p_meter : P .meter) (p_qos : P .qos) (p_hzn : P .hzn) (p_xce : P .xce)
    (p_io : P .io) (p_ras : P .ras) (p_tvx : P .tvx) (p_pwr : P .pwr) (p_ccol : P .ccol) :
    s0.Frame P (State.por s tvx) := by
  exact h0.trans ⟨rfl, fun _ => ⟨rfl, rfl⟩, fun p hp => by cases p <;> first | rfl | contradiction⟩


theorem State.setAct_frame {s0 : State} {s : State} {a : Option Act} (h0 : s0.Frame P s) (p_tvx : P .tvx) :
    s0.Frame P (State.setAct s a) := by
  unfold State.setAct
  try dsimp only
  with_reducible repeat' (first | intro _ | assumption | exact State.Frame.refl _ | apply State.setTvx_frame)

theorem State.actOdd_frame {s0 : State} {s : State} {st : Nat} (h0 : s0.Frame P s) (p_free : P .free) :
    s0.Frame P (State.actOdd s st).1 := by
  unfold State.actOdd
  try dsimp only
  with_reducible repeat' (first
    | intro _ | assumption | exact State.Frame.refl _ | apply State.freeWord_frame | refine f_of_snd (by assumption) ?_
    | refine f_of_fst (by assumption) ?_ | refine f_of_some (by assumption) ?_ | split)

theorem State.dirReject_frame {s0 : State} {s : State} {a : Act} (h0 : s0.Frame P s) (p_tvx : P .tvx) :
    s0.Frame P (State.dirReject s a) := by
  unfold State.dirReject
  try dsimp only
  with_reducible repeat' (first | intro _ | assumption | exact State.Frame.refl _ | apply State.dirWrite_frame)

theorem execActivateBundle_frame {s0 : State} {s : State} (h0 : s0.Frame P s) (p_regs : P .regs) (p_free : P .free)
    (p_tvx : P .tvx) :
    FrameOut P s0 (execActivateBundle s) := by
  unfold execActivateBundle
  try dsimp only
  with_reducible repeat' (first
    | intro _ | assumption | exact State.Frame.refl _ | apply State.execLong_frame | apply State.actOdd_frame
    | apply State.dirReject_frame | apply State.setSlotBytes_frame | apply State.dirWrite_frame | apply State.setAct_frame
    | apply State.setTvx_frame | apply fo_ite | apply f_ite | apply f_ite_fst | apply f_ite_snd | apply fo_next
    | apply fo_fault | refine f_of_snd (by assumption) ?_ | refine f_of_fst (by assumption) ?_
    | refine f_of_some (by assumption) ?_ | split)

theorem State.compDown_frame {s0 : State} {s : State} {c : Nat} (h0 : s0.Frame P s) (p_regs : P .regs) :
    s0.Frame P (State.compDown s c) := by
  unfold State.compDown
  try dsimp only
  with_reducible repeat' (first | intro _ | assumption | exact State.Frame.refl _ | apply State.put_frame | apply f_ite)

theorem State.showRange_frame {s0 : State} {s : State} {c : Nat} {v : Nat} (h0 : s0.Frame P s) (p_regs : P .regs) :
    s0.Frame P (State.showRange s c v) := by
  unfold State.showRange
  try dsimp only
  with_reducible repeat' (first | intro _ | assumption | exact State.Frame.refl _ | apply State.put_frame | apply f_ite | apply f_foldN)

theorem State.renegotiate_frame {s0 : State} {s : State} {old : Nat} {new : Nat} (h0 : s0.Frame P s) (p_regs : P .regs)
    (p_pass : P .pass) (p_meter : P .meter) (p_qos : P .qos) (p_hzn : P .hzn) (p_tvx : P .tvx) :
    s0.Frame P (State.renegotiate s old new) := by
  unfold State.renegotiate
  try dsimp only
  with_reducible repeat' (first
    | (intro (p : Part) hp; cases p <;> first | rfl | contradiction) | intro _ | assumption | exact State.Frame.refl _
    | apply State.passReneg_frame | apply State.hznReneg_frame | apply f_ite | apply f_mk)

theorem State.compUp_frame {s0 : State} {s : State} {c : Nat} {slot : Nat} (h0 : s0.Frame P s) (p_regs : P .regs)
    (p_net : P .net) (p_free : P .free) (p_pass : P .pass) (p_xce : P .xce) (p_io : P .io) (p_tvx : P .tvx) :
    s0.Frame P (State.compUp s c slot) := by
  unfold State.compUp
  try dsimp only
  with_reducible repeat' (first
    | intro _ | assumption | exact State.Frame.refl _ | apply State.showRange_frame | apply State.setTvx_frame
    | apply State.put_frame | apply State.xceEvent_frame | apply State.xceUcUp_frame | apply f_ite)

theorem State.actAnswer_frame {s0 : State} {s : State} {a : Act} (h0 : s0.Frame P s) (p_tvx : P .tvx) :
    s0.Frame P (State.actAnswer s a) := by
  unfold State.actAnswer
  try dsimp only
  with_reducible repeat' (first | intro _ | assumption | exact State.Frame.refl _ | apply State.longEnd_frame | apply State.setAct_frame | split)

theorem State.rollback_frame {s0 : State} {s : State} {a : Act} (h0 : s0.Frame P s) (p_regs : P .regs) (p_free : P .free)
    (p_core : P .core) (p_pass : P .pass) (p_ras : P .ras) (p_tvx : P .tvx) :
    s0.Frame P (State.rollback s a) := by
  unfold State.rollback
  try dsimp only
  with_reducible repeat' (first
    | intro _ | assumption | exact State.Frame.refl _ | apply State.compDown_frame | apply State.setAct_frame
    | apply State.dirReject_frame | apply State.mgmtReset_frame | apply State.actAnswer_frame | apply f_ite | split)

theorem State.actFail_frame {s0 : State} {s : State} {a : Act} {stage : Nat} {comp : Nat} {reason : Nat} (h0 : s0.Frame P s)
    (p_regs : P .regs) (p_free : P .free) (p_core : P .core) (p_pass : P .pass) (p_ras : P .ras) (p_tvx : P .tvx) :
    s0.Frame P (State.actFail s a stage comp reason) := by
  unfold State.actFail
  try dsimp only
  with_reducible repeat' (first | intro _ | assumption | exact State.Frame.refl _ | apply State.rollback_frame)

theorem State.compStart_frame {s0 : State} {s : State} {a : Act} {c : Nat} (h0 : s0.Frame P s) (p_regs : P .regs)
    (p_tvx : P .tvx) :
    s0.Frame P (State.compStart s a c) := by
  unfold State.compStart
  try dsimp only
  with_reducible repeat' (first | intro _ | assumption | exact State.Frame.refl _ | apply State.compDown_frame | apply State.setAct_frame)

theorem State.pwrStart_frame {s0 : State} {s : State} {a : Act} (h0 : s0.Frame P s) (p_regs : P .regs) (p_tvx : P .tvx) :
    s0.Frame P (State.pwrStart s a) := by
  unfold State.pwrStart
  try dsimp only
  with_reducible repeat' (first | intro _ | assumption | exact State.Frame.refl _ | apply State.compStart_frame | apply State.setAct_frame | apply f_ite)

theorem State.migrate_frame {s0 : State} {s : State} {a : Act} (h0 : s0.Frame P s) (p_regs : P .regs) (p_free : P .free)
    (p_core : P .core) (p_pass : P .pass) (p_ras : P .ras) (p_tvx : P .tvx) :
    s0.Frame P (State.migrate s a) := by
  unfold State.migrate
  try dsimp only
  with_reducible repeat' (first
    | intro _ | assumption | exact State.Frame.refl _ | apply execStageBlock_frame | apply State.freeBit_frame
    | apply State.actFail_frame | apply State.pwrStart_frame | apply State.putSetSlot_frame | apply f_ite | apply f_ite_fst
    | apply f_ite_snd | refine f_of_snd (by assumption) ?_ | refine f_of_fst (by assumption) ?_
    | refine f_of_some (by assumption) ?_ | refine f_of_next (by assumption) ?_ | split)

theorem State.commit_frame {s0 : State} {s : State} {a : Act} (h0 : s0.Frame P s) (p_regs : P .regs) (p_pass : P .pass)
    (p_meter : P .meter) (p_qos : P .qos) (p_hzn : P .hzn) (p_tvx : P .tvx) :
    s0.Frame P (State.commit s a) := by
  unfold State.commit
  try dsimp only
  with_reducible repeat' (first
    | intro _ | assumption | exact State.Frame.refl _ | apply State.renegotiate_frame | apply State.setAct_frame
    | apply State.dirWrite_frame | apply State.longEnd_frame | apply State.logEvent_frame)

theorem execComponentReady_frame {s0 : State} {s : State} (h0 : s0.Frame P s) (p_regs : P .regs) (p_net : P .net)
    (p_free : P .free) (p_core : P .core) (p_pass : P .pass) (p_meter : P .meter) (p_qos : P .qos) (p_hzn : P .hzn)
    (p_xce : P .xce) (p_io : P .io) (p_ras : P .ras) (p_tvx : P .tvx) :
    FrameOut P s0 (execComponentReady s) := by
  unfold execComponentReady
  try dsimp only
  with_reducible repeat' (first
    | intro _ | assumption | exact State.Frame.refl _ | apply State.compUp_frame | apply State.compStart_frame
    | apply State.commit_frame | apply State.rollback_frame | apply fo_ite | apply f_ite | apply fo_next | apply fo_fault
    | split)

theorem execComponentReadyTimeout_frame {s0 : State} {selfTest : Bool} {s : State} (h0 : s0.Frame P s) (p_regs : P .regs)
    (p_free : P .free) (p_core : P .core) (p_pass : P .pass) (p_ras : P .ras) (p_tvx : P .tvx) :
    FrameOut P s0 (execComponentReadyTimeout selfTest s) := by
  unfold execComponentReadyTimeout
  try dsimp only
  with_reducible repeat' (first
    | intro _ | assumption | exact State.Frame.refl _ | apply execComponentReady_frame | apply State.actFail_frame
    | apply State.rollback_frame | apply State.errRecord_frame | apply fo_ite | apply f_ite | apply fo_next | apply fo_fault
    | refine f_of_next (by assumption) ?_ | split)

theorem execPwrUcRestartDeferred_frame {s0 : State} {s : State} (h0 : s0.Frame P s) (p_regs : P .regs) (p_core : P .core)
    (p_pass : P .pass) (p_meter : P .meter) (p_qos : P .qos) (p_hzn : P .hzn) (p_ras : P .ras) (p_tvx : P .tvx)
    (p_pwr : P .pwr) :
    FrameOut P s0 (execPwrUcRestartDeferred s) := by
  unfold execPwrUcRestartDeferred
  try dsimp only
  with_reducible repeat' (first
    | intro _ | assumption | exact State.Frame.refl _ | apply execComponentReady_frame | apply State.elapseTo_frame
    | apply State.compStart_frame | apply fo_ite | apply f_ite | apply fo_next | apply fo_fault
    | refine f_of_next (by assumption) ?_ | split)

theorem execTvxMainReadyTimeout_frame {s0 : State} {s : State} (h0 : s0.Frame P s) (p_regs : P .regs) (p_free : P .free)
    (p_core : P .core) (p_pass : P .pass) (p_ras : P .ras) (p_tvx : P .tvx) :
    FrameOut P s0 (execTvxMainReadyTimeout s) := by
  unfold execTvxMainReadyTimeout
  try dsimp only
  with_reducible repeat' (first
    | intro _ | assumption | exact State.Frame.refl _ | apply execComponentReady_frame | apply State.mgmtReset_frame
    | apply fo_ite | apply f_ite | apply fo_next | apply fo_fault | refine f_of_next (by assumption) ?_ | split)

theorem execBundleCopyComplete_frame {s0 : State} {s : State} (h0 : s0.Frame P s) (p_regs : P .regs) (p_mem : P .mem)
    (p_marked : P .marked) (p_net : P .net) (p_free : P .free) (p_core : P .core) (p_die : P .die) (p_home : P .home)
    (p_pass : P .pass) (p_chan : P .chan) (p_mesa : P .mesa) (p_meter : P .meter) (p_qos : P .qos) (p_hzn : P .hzn)
    (p_xce : P .xce) (p_io : P .io) (p_ras : P .ras) (p_tvx : P .tvx) (p_pwr : P .pwr) (p_ccol : P .ccol) :
    FrameOut P s0 (execBundleCopyComplete s) := by
  unfold execBundleCopyComplete
  try dsimp only
  with_reducible repeat' (first
    | intro _ | assumption | exact State.Frame.refl _ | apply execComponentReady_frame | apply execStageBlock_frame
    | apply State.freeBit_frame | apply State.actAnswer_frame | apply State.dirReject_frame | apply State.setSlotBytes_frame
    | apply State.setAct_frame | apply State.dirWrite_frame | apply State.por_frame | apply State.longFinish_frame
    | apply State.setTvx_frame | apply State.mgmtReset_frame | apply fo_ite | apply f_ite | apply f_ite_fst
    | apply f_ite_snd | apply fo_next | apply fo_fault | refine f_of_snd (by assumption) ?_
    | refine f_of_fst (by assumption) ?_ | refine f_of_some (by assumption) ?_ | refine f_of_next (by assumption) ?_ | split)

theorem State.logReverted_frame {s0 : State} {s : State} {slot : Nat} (h0 : s0.Frame P s) (p_regs : P .regs)
    (p_tvx : P .tvx) :
    s0.Frame P (State.logReverted s slot) := by
  unfold State.logReverted
  try dsimp only
  with_reducible repeat' (first | intro _ | assumption | exact State.Frame.refl _ | apply State.logEvent_frame | apply f_ite | apply f_foldl)

theorem State.logInterrupted_frame {s0 : State} {s : State} (h0 : s0.Frame P s) (p_regs : P .regs) (p_tvx : P .tvx) :
    s0.Frame P (State.logInterrupted s) := by
  unfold State.logInterrupted
  try dsimp only
  with_reducible repeat' (first | intro _ | assumption | exact State.Frame.refl _ | apply State.logEvent_frame | apply State.setTvx_frame | split)

theorem State.mainUp_frame {s0 : State} {s : State} {slot : Nat} (h0 : s0.Frame P s) (p_tvx : P .tvx) :
    s0.Frame P (State.mainUp s slot) := by
  unfold State.mainUp
  try dsimp only
  with_reducible repeat' (first | intro _ | assumption | exact State.Frame.refl _ | apply State.setTvx_frame)

theorem State.selectSet_frame {s0 : State} {s : State} {por : Bool} (h0 : s0.Frame P s) (p_regs : P .regs) (p_tvx : P .tvx)
    :
    s0.Frame P (State.selectSet s por) := by
  unfold State.selectSet
  try dsimp only
  with_reducible repeat' (first
    | intro _ | assumption | exact State.Frame.refl _ | apply State.setTvx_frame | apply State.rollback_frame
    | apply State.logEvent_frame | apply State.mainUp_frame | apply State.dirWrite_frame | apply State.logInterrupted_frame
    | apply State.logReverted_frame | apply f_ite | apply f_foldl | split)

theorem State.loadAll_frame {s0 : State} {s : State} {cs : List Nat} (h0 : s0.Frame P s) (p_regs : P .regs) (p_tvx : P .tvx)
    :
    s0.Frame P (State.loadAll s cs) := by
  unfold State.loadAll
  try dsimp only
  with_reducible repeat' (first
    | intro _ | assumption | exact State.Frame.refl _ | apply State.showRange_frame | apply State.setTvx_frame
    | apply f_foldl)

theorem execTvxMainRunning_frame {s0 : State} {s : State} (h0 : s0.Frame P s) (p_regs : P .regs) (p_free : P .free)
    (p_core : P .core) (p_pass : P .pass) (p_ras : P .ras) (p_tvx : P .tvx) :
    FrameOut P s0 (execTvxMainRunning s) := by
  unfold execTvxMainRunning
  try dsimp only
  with_reducible repeat' (first
    | intro _ | assumption | exact State.Frame.refl _ | apply State.logEvent_frame | apply State.flushLog_frame
    | apply execComponentReady_frame | apply State.migrate_frame | apply State.mainUp_frame | apply State.selectSet_frame
    | apply State.actAnswer_frame | apply State.rollback_frame | apply State.loadAll_frame | apply State.settingsCheck_frame
    | apply fo_ite | apply f_ite | apply fo_next | apply fo_fault | refine f_of_next (by assumption) ?_ | split)

end Sys2Proof.Machine
end

