-- ==== Sys2Proof/Laws/FramePower.lean ====
section
/-!
SUPPORT. What each function of Machine/Power.lean leaves alone (`State.Frame`, Safety.lean): one lemma for each.
-/

namespace Sys2Proof.Machine

variable {P : Part → Prop}

theorem State.setPwr_frame {s0 : State} {s : State} {x : PwrSt} (h0 : s0.Frame P s) (p_pwr : P .pwr) :
    s0.Frame P (State.setPwr s x) := by
  unfold State.setPwr
  try dsimp only
  with_reducible repeat' (first
    | (intro (p : Part) hp; cases p <;> first | rfl | contradiction) | intro _ | assumption | exact State.Frame.refl _
    | apply f_mk)

theorem State.setDieCeil_frame {s0 : State} {s : State} {d : Nat} {n : Nat} (h0 : s0.Frame P s) (p_regs : P .regs)
    (p_pass : P .pass) (p_pwr : P .pwr) :
    s0.Frame P (State.setDieCeil s d n) := by
  unfold State.setDieCeil
  try dsimp only
  with_reducible repeat' (first
    | intro _ | assumption | exact State.Frame.refl _ | apply State.count_frame | apply State.setPwr_frame
    | apply State.putB_frame | apply f_ite)

theorem State.setPkgCeil_frame {s0 : State} {s : State} {n : Nat} (h0 : s0.Frame P s) (p_regs : P .regs) :
    s0.Frame P (State.setPkgCeil s n) := by
  unfold State.setPkgCeil
  try dsimp only
  with_reducible repeat' (first | intro _ | assumption | exact State.Frame.refl _ | apply State.putB_frame | apply State.put_frame)

theorem State.freqRise_frame {s0 : State} {s : State} {h : Nat} (h0 : s0.Frame P s) (p_regs : P .regs) (p_core : P .core) :
    s0.Frame P (State.freqRise s h) := by
  unfold State.freqRise
  try dsimp only
  with_reducible repeat' (first | intro _ | assumption | exact State.Frame.refl _ | apply State.put_frame | apply State.setHart_frame | apply f_ite)

theorem State.ceilings_frame {s0 : State} {s : State} {rise : Bool} (h0 : s0.Frame P s) (p_regs : P .regs)
    (p_core : P .core) :
    s0.Frame P (State.ceilings s rise) := by
  unfold State.ceilings
  try dsimp only
  with_reducible repeat' (first
    | intro _ | assumption | exact State.Frame.refl _ | apply State.freqFall_frame | apply State.put_frame
    | apply State.freqRise_frame | apply f_ite | apply f_foldN)

theorem State.mesaTake_frame {s0 : State} {s : State} {n : Nat} {level : Nat} (h0 : s0.Frame P s) (p_regs : P .regs)
    (p_home : P .home) (p_mesa : P .mesa) :
    s0.Frame P (State.mesaTake s n level) := by
  unfold State.mesaTake
  try dsimp only
  with_reducible repeat' (first | intro _ | assumption | exact State.Frame.refl _ | apply State.mesaLevel_frame | apply f_ite)

theorem State.mesaLocal_frame {s0 : State} {s : State} {n : Nat} {t : Int} (h0 : s0.Frame P s) (p_regs : P .regs)
    (p_home : P .home) (p_mesa : P .mesa) (p_pwr : P .pwr) :
    s0.Frame P (State.mesaLocal s n t) := by
  unfold State.mesaLocal
  try dsimp only
  with_reducible repeat' (first | intro _ | assumption | exact State.Frame.refl _ | apply State.setPwr_frame | apply State.mesaTake_frame | apply f_ite)

theorem State.mesaCentral_frame {s0 : State} {s : State} {t : Int} {n : Nat} (h0 : s0.Frame P s) (p_regs : P .regs)
    (p_home : P .home) (p_mesa : P .mesa) (p_pwr : P .pwr) :
    s0.Frame P (State.mesaCentral s t n) := by
  unfold State.mesaCentral
  try dsimp only
  with_reducible repeat' (first | intro _ | assumption | exact State.Frame.refl _ | apply State.setPwr_frame | apply State.mesaTake_frame | apply f_ite)

theorem execMesaThrottleChange_frame {s0 : State} {n : Ix16} {t : Int} {s : State} (h0 : s0.Frame P s) (p_regs : P .regs)
    (p_home : P .home) (p_mesa : P .mesa) (p_pwr : P .pwr) :
    FrameOut P s0 (execMesaThrottleChange n t s) := by
  unfold execMesaThrottleChange
  try dsimp only
  with_reducible repeat' (first | intro _ | assumption | exact State.Frame.refl _ | apply State.mesaLocal_frame | apply fo_next | apply fo_fault)

theorem execPowerEvaluation_frame {s0 : State} {mW : Nat} {dieTemp : List Int} {dieMw : List Nat} {s : State}
    (h0 : s0.Frame P s) (p_regs : P .regs) (p_core : P .core) (p_home : P .home) (p_pass : P .pass) (p_mesa : P .mesa)
    (p_pwr : P .pwr) :
    FrameOut P s0 (execPowerEvaluation mW dieTemp dieMw s) := by
  unfold execPowerEvaluation
  try dsimp only
  with_reducible repeat' (first
    | intro _ | assumption | exact State.Frame.refl _ | apply State.put_frame | apply State.setPwr_frame
    | apply State.wrapAdd_frame | apply State.count_frame | apply State.setPkgCeil_frame | apply State.setDieCeil_frame
    | apply State.ceilings_frame | apply State.mesaCentral_frame | apply fo_ite | apply f_ite | apply f_foldN
    | apply fo_next | apply fo_fault)

theorem execCurrentLimitTrip_frame {s0 : State} {s : State} (h0 : s0.Frame P s) (p_regs : P .regs) :
    FrameOut P s0 (execCurrentLimitTrip s) := by
  unfold execCurrentLimitTrip
  try dsimp only
  with_reducible repeat' (first | intro _ | assumption | exact State.Frame.refl _ | apply State.put_frame | apply fo_next | apply fo_fault)

theorem execCurrentLimitRelease_frame {s0 : State} {s : State} (h0 : s0.Frame P s) (p_regs : P .regs) :
    FrameOut P s0 (execCurrentLimitRelease s) := by
  unfold execCurrentLimitRelease
  try dsimp only
  with_reducible repeat' (first | intro _ | assumption | exact State.Frame.refl _ | apply State.put_frame | apply fo_next | apply fo_fault)

theorem execThermalEmergency_frame {s0 : State} {die : Fin 17} {s : State} (h0 : s0.Frame P s) (p_regs : P .regs)
    (p_free : P .free) (p_core : P .core) (p_home : P .home) (p_pass : P .pass) (p_mesa : P .mesa) (p_ras : P .ras)
    (p_tvx : P .tvx) (p_pwr : P .pwr) :
    FrameOut P s0 (execThermalEmergency die s) := by
  unfold execThermalEmergency
  try dsimp only
  with_reducible repeat' (first
    | intro _ | assumption | exact State.Frame.refl _ | apply State.setPwr_frame | apply State.setDieCeil_frame
    | apply State.setPkgCeil_frame | apply State.ceilings_frame | apply State.raiseNmi_frame | apply State.mesaLevel_frame
    | apply State.errRecord_frame | apply State.put_frame | apply fo_ite | apply f_ite | apply f_foldN | apply fo_next
    | apply fo_fault)

theorem State.hostStop_frame {s0 : State} {s : State} (h0 : s0.Frame P s) (p_pwr : P .pwr) :
    s0.Frame P (State.hostStop s) := by
  unfold State.hostStop
  try dsimp only
  with_reducible repeat' (first | intro _ | assumption | exact State.Frame.refl _ | apply State.setPwr_frame | apply f_ite)

theorem execThermalTrip_frame {s0 : State} {s : State} (h0 : s0.Frame P s) (p_pwr : P .pwr) :
    FrameOut P s0 (execThermalTrip s) := by
  unfold execThermalTrip
  try dsimp only
  with_reducible repeat' (first
    | intro _ | assumption | exact State.Frame.refl _ | apply State.hostStop_frame | apply State.setPwr_frame | apply fo_ite
    | apply f_ite | apply fo_next | apply fo_fault)

theorem execRefclkLoss_frame {s0 : State} {s : State} (h0 : s0.Frame P s) (p_regs : P .regs) (p_free : P .free)
    (p_core : P .core) (p_pass : P .pass) (p_ras : P .ras) (p_tvx : P .tvx) (p_pwr : P .pwr) :
    FrameOut P s0 (execRefclkLoss s) := by
  unfold execRefclkLoss
  try dsimp only
  with_reducible repeat' (first
    | intro _ | assumption | exact State.Frame.refl _ | apply State.setPwr_frame | apply State.hostStop_frame
    | apply State.errRecord_frame | apply fo_ite | apply f_ite | apply fo_next | apply fo_fault)

theorem State.timeStep_frame {s0 : State} {s : State} {n : Nat} (h0 : s0.Frame P s) (p_regs : P .regs) (p_meter : P .meter)
    (p_pwr : P .pwr) :
    s0.Frame P (State.timeStep s n) := by
  unfold State.timeStep
  try dsimp only
  with_reducible repeat' (first
    | intro _ | assumption | exact State.Frame.refl _ | apply State.setPwr_frame | apply State.setMeter_frame
    | apply State.put_frame)

theorem State.timeSample_frame {s0 : State} {s : State} {off : Int} {hzn : Bool} (h0 : s0.Frame P s) (p_regs : P .regs)
    (p_free : P .free) (p_meter : P .meter) (p_pwr : P .pwr) :
    s0.Frame P (State.timeSample s off hzn) := by
  unfold State.timeSample
  try dsimp only
  with_reducible repeat' (first
    | intro _ | assumption | exact State.Frame.refl _ | apply State.put_frame | apply State.putB_frame
    | apply State.setPwr_frame | apply State.timeStep_frame | apply State.freeWord_frame | apply f_ite | apply f_ite_fst
    | apply f_ite_snd | refine f_of_snd (by assumption) ?_ | refine f_of_fst (by assumption) ?_
    | refine f_of_some (by assumption) ?_ | split)

theorem execPpsEdge_frame {s0 : State} {t : Nat} {s : State} (h0 : s0.Frame P s) (p_regs : P .regs) (p_free : P .free)
    (p_core : P .core) (p_pass : P .pass) (p_meter : P .meter) (p_qos : P .qos) (p_hzn : P .hzn) (p_ras : P .ras)
    (p_pwr : P .pwr) :
    FrameOut P s0 (execPpsEdge t s) := by
  unfold execPpsEdge
  try dsimp only
  with_reducible repeat' (first
    | intro _ | assumption | exact State.Frame.refl _ | apply State.elapseTo_frame | apply State.bump_frame
    | apply State.put_frame | apply State.setPwr_frame | apply State.timeSample_frame | apply fo_ite | apply f_ite
    | apply fo_next | apply fo_fault | split)

theorem execTimeRsp_frame {s0 : State} {p : HPort} {hd : HFrame} {t1 : Nat × Nat} {t2 : Nat × Nat} {t3 : Nat × Nat}
    {s : State} (h0 : s0.Frame P s) (p_regs : P .regs) (p_free : P .free) (p_pass : P .pass) (p_meter : P .meter)
    (p_qos : P .qos) (p_hzn : P .hzn) (p_ras : P .ras) (p_tvx : P .tvx) (p_pwr : P .pwr) :
    FrameOut P s0 (execTimeRsp p hd t1 t2 t3 s) := by
  unfold execTimeRsp
  try dsimp only
  with_reducible repeat' (first
    | intro _ | assumption | exact State.Frame.refl _ | apply State.hznControl_frame | apply State.put_frame
    | apply State.timeSample_frame | apply fo_ite | apply f_ite | apply fo_next | apply fo_fault)

theorem execTimeSourceTimeout_frame {s0 : State} {s : State} (h0 : s0.Frame P s) (p_regs : P .regs) (p_meter : P .meter)
    (p_pwr : P .pwr) :
    FrameOut P s0 (execTimeSourceTimeout s) := by
  unfold execTimeSourceTimeout
  try dsimp only
  with_reducible repeat' (first
    | intro _ | assumption | exact State.Frame.refl _ | apply State.setPwr_frame | apply State.put_frame
    | apply State.setMeter_frame | apply fo_ite | apply f_ite | apply fo_next | apply fo_fault)

theorem execTimeSourceWrite_frame {s0 : State} {src : Nat} {s : State} (h0 : s0.Frame P s) (p_regs : P .regs)
    (p_pwr : P .pwr) :
    FrameOut P s0 (execTimeSourceWrite src s) := by
  unfold execTimeSourceWrite
  try dsimp only
  with_reducible repeat' (first
    | intro _ | assumption | exact State.Frame.refl _ | apply State.put_frame | apply State.setPwr_frame | apply fo_ite
    | apply f_ite | apply fo_next | apply fo_fault)

theorem execTimeStepFwd_frame {s0 : State} {delta : Nat} {s : State} (h0 : s0.Frame P s) (p_regs : P .regs)
    (p_meter : P .meter) (p_pwr : P .pwr) :
    FrameOut P s0 (execTimeStepFwd delta s) := by
  unfold execTimeStepFwd
  try dsimp only
  with_reducible repeat' (first | intro _ | assumption | exact State.Frame.refl _ | apply State.timeStep_frame | apply fo_next | apply fo_fault)

end Sys2Proof.Machine
end

