-- ==== Sys2Proof/Laws/FrameStart.lean ====
section
/-!
SUPPORT. What each function of Machine/Start.lean leaves alone (`State.Frame`, Safety.lean): one lemma for each.
-/

namespace Sys2Proof.Machine

variable {P : Part → Prop}

theorem State.setStage_frame {s0 : State} {s : State} {x : Stage} (h0 : s0.Frame P s) (p_pwr : P .pwr) :
    s0.Frame P (State.setStage s x) := by
  unfold State.setStage
  try dsimp only
  with_reducible repeat' (first | intro _ | assumption | exact State.Frame.refl _ | apply State.setPwr_frame)

theorem execVauxUp_frame {s0 : State} {s : State} (h0 : s0.Frame P s) (p_regs : P .regs) (p_mem : P .mem)
    (p_marked : P .marked) (p_net : P .net) (p_core : P .core) (p_die : P .die) (p_home : P .home) (p_pass : P .pass)
    (p_chan : P .chan) (p_mesa : P .mesa) (p_meter : P .meter) (p_qos : P .qos) (p_hzn : P .hzn) (p_xce : P .xce)
    (p_io : P .io) (p_ras : P .ras) (p_tvx : P .tvx) (p_pwr : P .pwr) (p_ccol : P .ccol) :
    FrameOut P s0 (execVauxUp s) := by
  unfold execVauxUp
  try dsimp only
  with_reducible repeat' (first
    | intro _ | assumption | exact State.Frame.refl _ | apply State.por_frame | apply State.setStage_frame
    | apply State.setTvx_frame | apply fo_ite | apply f_ite | apply fo_next | apply fo_fault)

theorem execVauxDown_frame {s0 : State} {s : State} (h0 : s0.Frame P s) (p_regs : P .regs) (p_mem : P .mem)
    (p_marked : P .marked) (p_net : P .net) (p_core : P .core) (p_die : P .die) (p_home : P .home) (p_pass : P .pass)
    (p_chan : P .chan) (p_mesa : P .mesa) (p_meter : P .meter) (p_qos : P .qos) (p_hzn : P .hzn) (p_xce : P .xce)
    (p_io : P .io) (p_ras : P .ras) (p_tvx : P .tvx) (p_pwr : P .pwr) (p_ccol : P .ccol) :
    FrameOut P s0 (execVauxDown s) := by
  unfold execVauxDown
  try dsimp only
  with_reducible repeat' (first
    | intro _ | assumption | exact State.Frame.refl _ | apply State.por_frame | apply fo_ite | apply f_ite | apply fo_next
    | apply fo_fault)

theorem State.hostAsk_frame {s0 : State} {s : State} (h0 : s0.Frame P s) (p_pwr : P .pwr) :
    s0.Frame P (State.hostAsk s) := by
  unfold State.hostAsk
  try dsimp only
  with_reducible repeat' (first | intro _ | assumption | exact State.Frame.refl _ | apply State.setPwr_frame | apply f_ite)

theorem execHostPwrRequest_frame {s0 : State} {s : State} (h0 : s0.Frame P s) (p_pwr : P .pwr) :
    FrameOut P s0 (execHostPwrRequest s) := by
  unfold execHostPwrRequest
  try dsimp only
  with_reducible repeat' (first
    | intro _ | assumption | exact State.Frame.refl _ | apply State.hostAsk_frame | apply fo_ite | apply f_ite
    | apply fo_next | apply fo_fault)

theorem execHostPwrRetry_frame {s0 : State} {s : State} (h0 : s0.Frame P s) (p_pwr : P .pwr) :
    FrameOut P s0 (execHostPwrRetry s) := by
  unfold execHostPwrRetry
  try dsimp only
  with_reducible repeat' (first
    | intro _ | assumption | exact State.Frame.refl _ | apply State.hostAsk_frame | apply fo_ite | apply f_ite
    | apply fo_next | apply fo_fault)

theorem execPwrgoodTimeout_frame {s0 : State} {s : State} (h0 : s0.Frame P s) (p_regs : P .regs) (p_tvx : P .tvx)
    (p_pwr : P .pwr) :
    FrameOut P s0 (execPwrgoodTimeout s) := by
  unfold execPwrgoodTimeout
  try dsimp only
  with_reducible repeat' (first
    | intro _ | assumption | exact State.Frame.refl _ | apply State.logEvent_frame | apply State.setPwr_frame | apply fo_ite
    | apply f_ite | apply fo_next | apply fo_fault)

theorem State.hostPor_frame {s0 : State} {s : State} (h0 : s0.Frame P s) (p_regs : P .regs) (p_mem : P .mem)
    (p_marked : P .marked) (p_net : P .net) (p_free : P .free) (p_core : P .core) (p_die : P .die) (p_home : P .home)
    (p_pass : P .pass) (p_chan : P .chan) (p_mesa : P .mesa) (p_meter : P .meter) (p_qos : P .qos) (p_hzn : P .hzn)
    (p_xce : P .xce) (p_io : P .io) (p_ras : P .ras) (p_tvx : P .tvx) (p_pwr : P .pwr) (p_ccol : P .ccol) :
    s0.Frame P (State.hostPor s) := by
  unfold State.hostPor
  try dsimp only
  with_reducible repeat' (first
    | intro _ | assumption | exact State.Frame.refl _ | apply State.loadAll_frame | apply State.settingsCheck_frame
    | apply State.por_frame | apply State.setPwr_frame)

theorem State.hostBegin_frame {s0 : State} {s : State} (h0 : s0.Frame P s) (p_pwr : P .pwr) :
    s0.Frame P (State.hostBegin s) := by
  unfold State.hostBegin
  try dsimp only
  with_reducible repeat' (first | intro _ | assumption | exact State.Frame.refl _ | apply State.setStage_frame | apply f_ite)

theorem execPwrgoodRise_frame {s0 : State} {s : State} (h0 : s0.Frame P s) (p_regs : P .regs) (p_mem : P .mem)
    (p_marked : P .marked) (p_net : P .net) (p_free : P .free) (p_core : P .core) (p_die : P .die) (p_home : P .home)
    (p_pass : P .pass) (p_chan : P .chan) (p_mesa : P .mesa) (p_meter : P .meter) (p_qos : P .qos) (p_hzn : P .hzn)
    (p_xce : P .xce) (p_io : P .io) (p_ras : P .ras) (p_tvx : P .tvx) (p_pwr : P .pwr) (p_ccol : P .ccol) :
    FrameOut P s0 (execPwrgoodRise s) := by
  unfold execPwrgoodRise
  try dsimp only
  with_reducible repeat' (first
    | intro _ | assumption | exact State.Frame.refl _ | apply State.hostPor_frame | apply State.setPwr_frame
    | apply State.hostBegin_frame | apply fo_ite | apply f_ite | apply fo_next | apply fo_fault)

theorem State.longBreak_frame {s0 : State} {s : State} {ops : List Nat} (h0 : s0.Frame P s) (p_regs : P .regs)
    (p_tvx : P .tvx) :
    s0.Frame P (State.longBreak s ops) := by
  unfold State.longBreak
  try dsimp only
  with_reducible repeat' (first | intro _ | assumption | exact State.Frame.refl _ | apply State.longFinish_frame | apply f_ite | split)

theorem execPwrgoodFall_frame {s0 : State} {s : State} (h0 : s0.Frame P s) (p_regs : P .regs) (p_chan : P .chan)
    (p_tvx : P .tvx) (p_pwr : P .pwr) :
    FrameOut P s0 (execPwrgoodFall s) := by
  unfold execPwrgoodFall
  try dsimp only
  with_reducible repeat' (first
    | (intro (p : Part) hp; cases p <;> first | rfl | contradiction) | intro _ | assumption | exact State.Frame.refl _
    | apply State.setPwr_frame | apply State.flashTry_frame | apply State.longBreak_frame | apply fo_ite | apply f_ite
    | apply fo_next | apply fo_fault | apply f_mk)

theorem execHostRailFault_frame {s0 : State} {s : State} (h0 : s0.Frame P s) (p_regs : P .regs) (p_free : P .free)
    (p_core : P .core) (p_pass : P .pass) (p_ras : P .ras) (p_tvx : P .tvx) (p_pwr : P .pwr) :
    FrameOut P s0 (execHostRailFault s) := by
  unfold execHostRailFault
  try dsimp only
  with_reducible repeat' (first
    | intro _ | assumption | exact State.Frame.refl _ | apply State.hostStop_frame | apply State.setPwr_frame
    | apply State.errRecord_frame | apply fo_ite | apply f_ite | apply fo_next | apply fo_fault)

theorem execJtagExtestClamp_frame {s0 : State} {s : State} (h0 : s0.Frame P s) (p_pwr : P .pwr) :
    FrameOut P s0 (execJtagExtestClamp s) := by
  unfold execJtagExtestClamp
  try dsimp only
  with_reducible repeat' (first
    | intro _ | assumption | exact State.Frame.refl _ | apply State.setPwr_frame | apply fo_ite | apply f_ite
    | apply fo_next | apply fo_fault)

theorem execJtagTestLogicReset_frame {s0 : State} {s : State} (h0 : s0.Frame P s) (p_regs : P .regs) (p_mem : P .mem)
    (p_marked : P .marked) (p_net : P .net) (p_free : P .free) (p_core : P .core) (p_die : P .die) (p_home : P .home)
    (p_pass : P .pass) (p_chan : P .chan) (p_mesa : P .mesa) (p_meter : P .meter) (p_qos : P .qos) (p_hzn : P .hzn)
    (p_xce : P .xce) (p_io : P .io) (p_ras : P .ras) (p_tvx : P .tvx) (p_pwr : P .pwr) (p_ccol : P .ccol) :
    FrameOut P s0 (execJtagTestLogicReset s) := by
  unfold execJtagTestLogicReset
  try dsimp only
  with_reducible repeat' (first
    | intro _ | assumption | exact State.Frame.refl _ | apply State.hostBegin_frame | apply State.hostPor_frame
    | apply fo_ite | apply f_ite | apply fo_next | apply fo_fault)

theorem State.wayRecords_frame {s0 : State} {s : State} (h0 : s0.Frame P s) (p_regs : P .regs) :
    s0.Frame P (State.wayRecords s) := by
  unfold State.wayRecords
  try dsimp only
  with_reducible repeat' (first | intro _ | assumption | exact State.Frame.refl _ | apply State.put_frame | apply f_foldN)

theorem State.arraysFilled_frame {s0 : State} {s : State} (h0 : s0.Frame P s) (p_regs : P .regs) (p_core : P .core)
    (p_die : P .die) (p_home : P .home) (p_mesa : P .mesa) (p_tvx : P .tvx) :
    s0.Frame P (State.arraysFilled s) := by
  unfold State.arraysFilled
  try dsimp only
  with_reducible repeat' (first
    | intro _ | assumption | exact State.Frame.refl _ | apply State.dieArrays_frame | apply State.put_frame
    | apply State.putB_frame | apply State.mesaCountWays_frame | apply State.mesaInvAll_frame | apply f_foldN)

theorem State.loadNode_frame {s0 : State} {s : State} (h0 : s0.Frame P s) (p_regs : P .regs) :
    s0.Frame P (State.loadNode s) := by
  unfold State.loadNode
  try dsimp only
  with_reducible repeat' (first | intro _ | assumption | exact State.Frame.refl _ | apply State.put_frame)

theorem State.porSettings_frame {s0 : State} {s : State} (h0 : s0.Frame P s) (p_regs : P .regs) (p_hzn : P .hzn)
    (p_ras : P .ras) :
    s0.Frame P (State.porSettings s) := by
  unfold State.porSettings
  try dsimp only
  with_reducible repeat' (first
    | (intro (p : Part) hp; cases p <;> first | rfl | contradiction) | intro _ | assumption | exact State.Frame.refl _
    | apply State.wayRecords_frame | apply State.loadNode_frame | apply State.setCoreState_frame | apply State.put_frame
    | apply State.setReg_frame | apply State.hznStart_frame | apply f_ite | apply f_foldN
    | (apply f_mk; first | assumption | exact State.Frame.refl _ | apply State.wayRecords_frame | apply State.loadNode_frame | apply State.setCoreState_frame | apply State.put_frame | apply State.setReg_frame | apply State.hznStart_frame | apply f_ite | apply f_foldN)
    | split)

theorem execStartupArraysReady_frame {s0 : State} {s : State} (h0 : s0.Frame P s) (p_regs : P .regs) (p_core : P .core)
    (p_die : P .die) (p_home : P .home) (p_pass : P .pass) (p_mesa : P .mesa) (p_hzn : P .hzn) (p_ras : P .ras)
    (p_tvx : P .tvx) (p_pwr : P .pwr) :
    FrameOut P s0 (execStartupArraysReady s) := by
  unfold execStartupArraysReady
  try dsimp only
  with_reducible repeat' (first
    | intro _ | assumption | exact State.Frame.refl _ | apply State.porSettings_frame | apply State.setStage_frame
    | apply State.put_frame | apply State.arraysFilled_frame | apply State.passUp_frame | apply fo_ite | apply f_ite
    | apply f_foldN | apply fo_next | apply fo_fault)

theorem State.imgLine_frame {s0 : State} {s : State} {k : Nat} (h0 : s0.Frame P s) (p_regs : P .regs) (p_mem : P .mem)
    (p_marked : P .marked) (p_free : P .free) (p_core : P .core) (p_home : P .home) (p_pass : P .pass) (p_mesa : P .mesa)
    (p_meter : P .meter) (p_qos : P .qos) (p_ras : P .ras) (p_tvx : P .tvx) :
    s0.Frame P (State.imgLine s k) := by
  unfold State.imgLine
  try dsimp only
  with_reducible repeat' (first
    | intro _ | assumption | exact State.Frame.refl _ | apply State.freeLine_frame | apply State.homeWrite_frame
    | refine f_of_snd (by assumption) ?_ | refine f_of_fst (by assumption) ?_ | refine f_of_some (by assumption) ?_ | split)

theorem State.releaseHarts_frame {s0 : State} {s : State} (h0 : s0.Frame P s) (p_regs : P .regs) (p_core : P .core)
    (p_die : P .die) (p_mesa : P .mesa) (p_pwr : P .pwr) :
    s0.Frame P (State.releaseHarts s) := by
  unfold State.releaseHarts
  try dsimp only
  with_reducible repeat' (first
    | intro _ | assumption | exact State.Frame.refl _ | apply State.setDieOnline_frame | apply State.setDieCtl_frame
    | apply State.loadNode_frame | apply State.mesaInvEnd_frame | apply State.coreStart_frame | apply State.setStage_frame
    | apply f_ite | apply f_foldN)

theorem execHostImageCopyComplete_frame {s0 : State} {s : State} (h0 : s0.Frame P s) (p_regs : P .regs) (p_mem : P .mem)
    (p_marked : P .marked) (p_free : P .free) (p_core : P .core) (p_die : P .die) (p_home : P .home) (p_pass : P .pass)
    (p_mesa : P .mesa) (p_meter : P .meter) (p_qos : P .qos) (p_ras : P .ras) (p_tvx : P .tvx) (p_pwr : P .pwr) :
    FrameOut P s0 (execHostImageCopyComplete s) := by
  unfold execHostImageCopyComplete
  try dsimp only
  with_reducible repeat' (first
    | intro _ | assumption | exact State.Frame.refl _ | apply State.startStopped_frame | apply State.imgLine_frame
    | apply State.setReg_frame | apply State.releaseHarts_frame | apply fo_ite | apply f_ite | apply f_foldN | apply fo_next
    | apply fo_fault)

theorem State.warmLine_frame {s0 : State} {s : State} {line : Nat} {mcid : Nat} {l : Option Line} (h0 : s0.Frame P s)
    (p_regs : P .regs) (p_mem : P .mem) (p_marked : P .marked) (p_free : P .free) (p_core : P .core) (p_home : P .home)
    (p_pass : P .pass) (p_mesa : P .mesa) (p_meter : P .meter) (p_qos : P .qos) (p_ras : P .ras) (p_tvx : P .tvx) :
    s0.Frame P (State.warmLine s line mcid l) := by
  unfold State.warmLine
  try dsimp only
  with_reducible repeat' (first | intro _ | assumption | exact State.Frame.refl _ | apply State.homeWrite_frame | apply f_ite)

theorem State.warmFlush_frame {s0 : State} {s : State} (h0 : s0.Frame P s) (p_regs : P .regs) (p_mem : P .mem)
    (p_marked : P .marked) (p_free : P .free) (p_core : P .core) (p_home : P .home) (p_pass : P .pass) (p_mesa : P .mesa)
    (p_meter : P .meter) (p_qos : P .qos) (p_ras : P .ras) (p_tvx : P .tvx) :
    s0.Frame P (State.warmFlush s) := by
  unfold State.warmFlush
  try dsimp only
  with_reducible repeat' (first | intro _ | assumption | exact State.Frame.refl _ | apply State.warmLine_frame | apply f_ite | apply f_foldl | split)

theorem State.warmLeave_frame {s0 : State} {s : State} (h0 : s0.Frame P s) (p_regs : P .regs) (p_hzn : P .hzn) :
    s0.Frame P (State.warmLeave s) := by
  unfold State.warmLeave
  try dsimp only
  with_reducible repeat' (first
    | intro _ | assumption | exact State.Frame.refl _ | apply State.islSend_frame | apply State.alone_frame | apply f_ite
    | apply f_foldN)

theorem State.warmClear_frame {s0 : State} {s : State} (h0 : s0.Frame P s) (p_regs : P .regs) (p_net : P .net)
    (p_core : P .core) (p_die : P .die) (p_home : P .home) (p_mesa : P .mesa) (p_meter : P .meter) (p_qos : P .qos)
    (p_hzn : P .hzn) (p_xce : P .xce) (p_io : P .io) (p_ccol : P .ccol) :
    s0.Frame P (State.warmClear s) := by
  refine h0.trans ⟨rfl, fun o => ⟨o.1, Tbl.wf_filterMap _ _ ?_ o.2⟩, fun p hp => by cases p <;> first | rfl | contradiction⟩
  intro e f h
  unfold warmReg at h
  split at h
  · cases h
  · dsimp only at h
    split at h
    · cases h
    · next hn => cases h; exact ⟨rfl, hn⟩


theorem State.warmMbox_frame {s0 : State} {s : State} (h0 : s0.Frame P s) (p_tvx : P .tvx) :
    s0.Frame P (State.warmMbox s) := by
  unfold State.warmMbox
  try dsimp only
  with_reducible repeat' (first | intro _ | assumption | exact State.Frame.refl _ | apply State.setTvx_frame | apply f_ite)

theorem State.warmSan_frame {s0 : State} {s : State} (h0 : s0.Frame P s) (p_regs : P .regs) (p_chan : P .chan)
    (p_tvx : P .tvx) :
    s0.Frame P (State.warmSan s) := by
  unfold State.warmSan
  try dsimp only
  with_reducible repeat' (first
    | intro _ | assumption | exact State.Frame.refl _ | apply State.longEnd_frame | apply State.setSan_frame | apply f_ite
    | split)

theorem State.warmHold_frame {s0 : State} {s : State} (h0 : s0.Frame P s) (p_regs : P .regs) (p_mem : P .mem)
    (p_marked : P .marked) (p_net : P .net) (p_free : P .free) (p_core : P .core) (p_die : P .die) (p_home : P .home)
    (p_pass : P .pass) (p_mesa : P .mesa) (p_meter : P .meter) (p_qos : P .qos) (p_hzn : P .hzn) (p_xce : P .xce)
    (p_io : P .io) (p_ras : P .ras) (p_tvx : P .tvx) (p_pwr : P .pwr) (p_ccol : P .ccol) :
    s0.Frame P (State.warmHold s) := by
  unfold State.warmHold
  try dsimp only
  with_reducible repeat' (first
    | intro _ | assumption | exact State.Frame.refl _ | apply State.warmMbox_frame | apply State.warmClear_frame
    | apply State.warmFlush_frame | apply State.warmLeave_frame | apply State.ceilings_frame | apply State.setPwr_frame
    | apply State.longBreak_frame | apply State.put_frame | apply State.arraysFilled_frame | apply State.setMesaBypass_frame
    | apply State.passUp_frame | apply State.passDown_frame | apply State.loadNode_frame | apply f_ite | apply f_foldN)

theorem State.pkgWarm_frame {s0 : State} {s : State} (h0 : s0.Frame P s) (p_regs : P .regs) (p_mem : P .mem)
    (p_marked : P .marked) (p_net : P .net) (p_free : P .free) (p_core : P .core) (p_die : P .die) (p_home : P .home)
    (p_pass : P .pass) (p_chan : P .chan) (p_mesa : P .mesa) (p_meter : P .meter) (p_qos : P .qos) (p_hzn : P .hzn)
    (p_xce : P .xce) (p_io : P .io) (p_ras : P .ras) (p_tvx : P .tvx) (p_pwr : P .pwr) (p_ccol : P .ccol) :
    s0.Frame P (State.pkgWarm s) := by
  unfold State.pkgWarm
  try dsimp only
  with_reducible repeat' (first
    | intro _ | assumption | exact State.Frame.refl _ | apply State.setStage_frame | apply State.warmSan_frame
    | apply State.warmHold_frame | apply f_ite)

theorem execPkgWarm_frame {s0 : State} {s : State} (h0 : s0.Frame P s) (p_regs : P .regs) (p_mem : P .mem)
    (p_marked : P .marked) (p_net : P .net) (p_free : P .free) (p_core : P .core) (p_die : P .die) (p_home : P .home)
    (p_pass : P .pass) (p_chan : P .chan) (p_mesa : P .mesa) (p_meter : P .meter) (p_qos : P .qos) (p_hzn : P .hzn)
    (p_xce : P .xce) (p_io : P .io) (p_ras : P .ras) (p_tvx : P .tvx) (p_pwr : P .pwr) (p_ccol : P .ccol) :
    FrameOut P s0 (execPkgWarm s) := by
  unfold execPkgWarm
  try dsimp only
  with_reducible repeat' (first | intro _ | assumption | exact State.Frame.refl _ | apply State.pkgWarm_frame | apply fo_next | apply fo_fault)

theorem execPackageReset_frame {s0 : State} {s : State} (h0 : s0.Frame P s) (p_regs : P .regs) (p_mem : P .mem)
    (p_marked : P .marked) (p_net : P .net) (p_free : P .free) (p_core : P .core) (p_die : P .die) (p_home : P .home)
    (p_pass : P .pass) (p_chan : P .chan) (p_mesa : P .mesa) (p_meter : P .meter) (p_qos : P .qos) (p_hzn : P .hzn)
    (p_xce : P .xce) (p_io : P .io) (p_ras : P .ras) (p_tvx : P .tvx) (p_pwr : P .pwr) (p_ccol : P .ccol) :
    FrameOut P s0 (execPackageReset s) := by
  unfold execPackageReset
  try dsimp only
  with_reducible repeat' (first
    | intro _ | assumption | exact State.Frame.refl _ | apply State.execHead_frame | apply State.pkgWarm_frame
    | apply State.mgmtReset_frame | apply fo_ite | apply f_ite | apply f_ite_fst | apply f_ite_snd | apply fo_next
    | apply fo_fault)

theorem State.sanStart_frame {s0 : State} {s : State} {c : QCmd} {op : Nat} {base : Nat} {len : Nat} {mcid : Nat}
    (h0 : s0.Frame P s) (p_regs : P .regs) (p_chan : P .chan) :
    s0.Frame P (State.sanStart s c op base len mcid) := by
  unfold State.sanStart
  try dsimp only
  with_reducible repeat' (first
    | (intro (p : Part) hp; cases p <;> first | rfl | contradiction) | intro _ | assumption | exact State.Frame.refl _
    | apply State.journal_frame | apply State.setSan_frame | apply State.sanZeroDone_frame | apply State.put_frame
    | apply f_ite | apply f_foldN | apply f_mk)

theorem State.sanRow_frame {s0 : State} {s : State} {opcode : Nat} {op : Nat} (h0 : s0.Frame P s) (p_regs : P .regs)
    (p_free : P .free) (p_chan : P .chan) (p_tvx : P .tvx) :
    s0.Frame P (State.sanRow s opcode op) := by
  unfold State.sanRow
  try dsimp only
  with_reducible repeat' (first
    | intro _ | assumption | exact State.Frame.refl _ | apply State.execLong_frame | apply State.sanStart_frame
    | apply f_ite | apply f_ite_fst | apply f_ite_snd)

theorem execSanitiseRange_frame {s0 : State} {s : State} (h0 : s0.Frame P s) (p_regs : P .regs) (p_free : P .free)
    (p_chan : P .chan) (p_tvx : P .tvx) :
    FrameOut P s0 (execSanitiseRange s) := by
  unfold execSanitiseRange
  try dsimp only
  with_reducible repeat' (first | intro _ | assumption | exact State.Frame.refl _ | apply State.sanRow_frame | apply fo_next | apply fo_fault)

theorem execFormatRange_frame {s0 : State} {s : State} (h0 : s0.Frame P s) (p_regs : P .regs) (p_free : P .free)
    (p_chan : P .chan) (p_tvx : P .tvx) :
    FrameOut P s0 (execFormatRange s) := by
  unfold execFormatRange
  try dsimp only
  with_reducible repeat' (first | intro _ | assumption | exact State.Frame.refl _ | apply State.sanRow_frame | apply fo_next | apply fo_fault)

theorem execSanitiseDevice_frame {s0 : State} {s : State} (h0 : s0.Frame P s) (p_regs : P .regs) (p_mem : P .mem)
    (p_marked : P .marked) (p_net : P .net) (p_free : P .free) (p_core : P .core) (p_die : P .die) (p_home : P .home)
    (p_pass : P .pass) (p_chan : P .chan) (p_mesa : P .mesa) (p_meter : P .meter) (p_qos : P .qos) (p_hzn : P .hzn)
    (p_xce : P .xce) (p_io : P .io) (p_ras : P .ras) (p_tvx : P .tvx) (p_pwr : P .pwr) (p_ccol : P .ccol) :
    FrameOut P s0 (execSanitiseDevice s) := by
  unfold execSanitiseDevice
  try dsimp only
  with_reducible repeat' (first
    | intro _ | assumption | exact State.Frame.refl _ | apply State.execLong_frame | apply State.sanStart_frame
    | apply State.warmHold_frame | apply State.setPwr_frame | apply State.put_frame | apply fo_ite | apply f_ite
    | apply f_ite_fst | apply f_ite_snd | apply f_foldN | apply fo_next | apply fo_fault)

end Sys2Proof.Machine
end

