-- ==== Sys2Proof/Laws/FrameCcol.lean ====
section
/-!
SUPPORT. What each function of Machine/Ccol.lean leaves alone (`State.Frame`, Safety.lean): one lemma for each.
-/

namespace Sys2Proof.Machine

variable {P : Part → Prop}

theorem execCcolSelectWrite_frame {s0 : State} {b : Fin 354} {j : Fin 32} {v : Word} {s : State} (h0 : s0.Frame P s)
    (p_regs : P .regs) :
    FrameOut P s0 (execCcolSelectWrite b j v s) := by
  unfold execCcolSelectWrite
  try dsimp only
  with_reducible repeat' (first
    | intro _ | assumption | exact State.Frame.refl _ | apply State.setReg_frame | apply fo_ite | apply f_ite
    | apply fo_next | apply fo_fault)

theorem execCounterClear_frame {s0 : State} {b : Fin 354} {j : Fin 32} {s : State} (h0 : s0.Frame P s) (p_regs : P .regs) :
    FrameOut P s0 (execCounterClear b j s) := by
  unfold execCounterClear
  try dsimp only
  with_reducible repeat' (first
    | intro _ | assumption | exact State.Frame.refl _ | apply State.setReg_frame | apply fo_ite | apply f_ite
    | apply fo_next | apply fo_fault)

theorem execCcolCountWrite_frame {s0 : State} {b : Fin 354} {j : Fin 32} {v : Word} {s : State} (h0 : s0.Frame P s)
    (p_regs : P .regs) :
    FrameOut P s0 (execCcolCountWrite b j v s) := by
  unfold execCcolCountWrite
  try dsimp only
  with_reducible repeat' (first
    | intro _ | assumption | exact State.Frame.refl _ | apply State.put_frame | apply fo_ite | apply f_ite | apply fo_next
    | apply fo_fault)

theorem execCounterFreeze_frame {s0 : State} {s : State} (h0 : s0.Frame P s) (p_regs : P .regs) :
    FrameOut P s0 (execCounterFreeze s) := by
  unfold execCounterFreeze
  try dsimp only
  with_reducible repeat' (first | intro _ | assumption | exact State.Frame.refl _ | apply State.put_frame | apply fo_next | apply fo_fault)

theorem execCounterUnfreeze_frame {s0 : State} {s : State} (h0 : s0.Frame P s) (p_regs : P .regs) :
    FrameOut P s0 (execCounterUnfreeze s) := by
  unfold execCounterUnfreeze
  try dsimp only
  with_reducible repeat' (first | intro _ | assumption | exact State.Frame.refl _ | apply State.put_frame | apply fo_next | apply fo_fault)

theorem State.sweepBytes_frame {s0 : State} {s : State} {t : Nat} (h0 : s0.Frame P s) (p_free : P .free) :
    s0.Frame P (State.sweepBytes s t).2 := by
  unfold State.sweepBytes
  try dsimp only
  with_reducible repeat' (first
    | (intro (p : Part) hp; cases p <;> first | rfl | contradiction) | intro _ | assumption | exact State.Frame.refl _
    | apply f_foldl | apply f_foldl_snd | apply f_mk)

theorem execCcolSweep_frame {s0 : State} {s : State} (h0 : s0.Frame P s) (p_regs : P .regs) (p_net : P .net)
    (p_free : P .free) (p_core : P .core) (p_pass : P .pass) (p_meter : P .meter) (p_qos : P .qos) (p_hzn : P .hzn)
    (p_io : P .io) (p_ras : P .ras) (p_tvx : P .tvx) (p_pwr : P .pwr) (p_ccol : P .ccol) :
    FrameOut P s0 (execCcolSweep s) := by
  unfold execCcolSweep
  try dsimp only
  with_reducible repeat' (first
    | (intro (p : Part) hp; cases p <;> first | rfl | contradiction) | intro _ | assumption | exact State.Frame.refl _
    | apply State.elapseTo_frame | apply State.sweepBytes_frame | apply State.bump_frame | apply State.ringLines_frame
    | apply State.sweepLine_frame | apply fo_ite | apply f_ite | apply f_ite_fst | apply f_ite_snd | apply fo_next
    | apply fo_fault | refine f_of_snd (by assumption) ?_ | refine f_of_fst (by assumption) ?_
    | refine f_of_some (by assumption) ?_
    | (apply f_mk; first | assumption | exact State.Frame.refl _ | apply State.elapseTo_frame | apply State.sweepBytes_frame | apply State.bump_frame | apply State.ringLines_frame | apply State.sweepLine_frame | apply fo_ite | apply f_ite | apply f_ite_fst | apply f_ite_snd | apply fo_next | apply fo_fault)
    | split)

end Sys2Proof.Machine
end

