-- ==== Sys2Proof/Laws/FrameRas.lean ====
section
/-!
SUPPORT. What each function of Machine/Ras.lean leaves alone (`State.Frame`, Safety.lean): one lemma for each.
-/

namespace Sys2Proof.Machine

variable {P : Part → Prop}

theorem State.mesaWayRetire_frame {s0 : State} {s : State} {n : Nat} {w : Nat} (h0 : s0.Frame P s) (p_regs : P .regs)
    (p_home : P .home) (p_mesa : P .mesa) (p_tvx : P .tvx) :
    s0.Frame P (State.mesaWayRetire s n w) := by
  unfold State.mesaWayRetire
  try dsimp only
  with_reducible repeat' (first
    | intro _ | assumption | exact State.Frame.refl _ | apply State.recWay_frame | apply State.putBit_frame
    | apply State.mesaWayOff_frame | apply State.put_frame)

theorem State.mesaVictRetire_frame {s0 : State} {s : State} {n : Nat} (h0 : s0.Frame P s) (p_regs : P .regs)
    (p_mesa : P .mesa) (p_tvx : P .tvx) :
    s0.Frame P (State.mesaVictRetire s n) := by
  unfold State.mesaVictRetire
  try dsimp only
  with_reducible repeat' (first
    | intro _ | assumption | exact State.Frame.refl _ | apply State.recWay_frame | apply State.put_frame
    | apply State.victDrop_frame)

theorem State.permanent_frame {s0 : State} {s : State} {z1 : ArrLoc} (h0 : s0.Frame P s) (p_regs : P .regs) (p_die : P .die)
    (p_home : P .home) (p_mesa : P .mesa) (p_tvx : P .tvx) :
    s0.Frame P (State.permanent s z1) := by
  unfold State.permanent
  try dsimp only
  with_reducible repeat' (first
    | intro _ | assumption | exact State.Frame.refl _ | apply State.retirePending_frame | apply State.l2WayRetire_frame
    | apply State.vcWayRetire_frame | apply State.sfWayRetire_frame | apply State.dirWayRetire_frame
    | apply State.rptWayRetire_frame | apply State.rldWayRetire_frame | apply State.mesaWayRetire_frame
    | apply State.mesaVictRetire_frame | apply State.logEvent_frame | split)

theorem State.arrFlip_frame {s0 : State} {s : State} {x : ArrLoc} {k : Nat} (h0 : s0.Frame P s) (p_core : P .core)
    (p_die : P .die) (p_home : P .home) (p_mesa : P .mesa) :
    s0.Frame P (State.arrFlip s x k) := by
  unfold State.arrFlip
  try dsimp only
  with_reducible repeat' (first
    | intro _ | assumption | exact State.Frame.refl _ | apply State.setL1i_frame | apply State.setL2_frame
    | apply State.setVc_frame | apply State.setMesaLine_frame | apply State.setDirE_frame | apply State.setRptE_frame
    | apply State.setRldE_frame | apply State.setSec_frame | apply State.setPlru_frame | apply f_ite | split)

theorem State.l2Lose_frame {s0 : State} {s : State} {h : Nat} {set : Nat} {w : Nat} (h0 : s0.Frame P s) (p_core : P .core)
    (p_die : P .die) :
    s0.Frame P (State.l2Lose s h set w) := by
  unfold State.l2Lose
  try dsimp only
  with_reducible repeat' (first
    | intro _ | assumption | exact State.Frame.refl _ | apply State.setL2_frame | apply State.resvDrop_frame
    | apply State.l1dDrop_frame | apply State.setSfLine_frame | apply State.setVcLine_frame | apply f_ite | split)

theorem State.l2SetLost_frame {s0 : State} {s : State} {h : Nat} {set : Nat} (h0 : s0.Frame P s) (p_regs : P .regs)
    (p_net : P .net) (p_core : P .core) (p_die : P .die) (p_pass : P .pass) :
    s0.Frame P (State.l2SetLost s h set) := by
  unfold State.l2SetLost
  try dsimp only
  with_reducible repeat' (first
    | intro _ | assumption | exact State.Frame.refl _ | apply State.leaveDie_frame | apply State.l2Lose_frame | apply f_ite
    | apply f_foldN)

theorem State.sfSetLost_frame {s0 : State} {s : State} {d : Nat} {b : Nat} {set : Nat} {w : Nat} (h0 : s0.Frame P s)
    (p_regs : P .regs) (p_net : P .net) (p_core : P .core) (p_die : P .die) (p_pass : P .pass) :
    s0.Frame P (State.sfSetLost s d b set w) := by
  unfold State.sfSetLost
  try dsimp only
  with_reducible repeat' (first | intro _ | assumption | exact State.Frame.refl _ | apply State.l2Evict_frame | apply State.setSf_frame | apply f_foldl)

theorem State.vcSetLost_frame {s0 : State} {s : State} {d : Die} {sl : Fin 16} {set : Fin 4096} {w : Nat}
    (h0 : s0.Frame P s) (p_die : P .die) (p_home : P .home) :
    s0.Frame P (State.vcSetLost s d sl set w) := by
  unfold State.vcSetLost
  try dsimp only
  with_reducible repeat' (first
    | (intro (p : Part) hp; cases p <;> first | rfl | contradiction) | intro _ | assumption | exact State.Frame.refl _
    | apply State.setVc_frame | apply State.walkStart_frame | apply f_foldN | apply f_regs | apply f_mem | apply f_mk)

theorem State.l2DataLost_frame {s0 : State} {s : State} {h : Nat} {set : Nat} {w : Nat} (h0 : s0.Frame P s)
    (p_core : P .core) (p_die : P .die) :
    s0.Frame P (State.l2DataLost s h set w) := by
  unfold State.l2DataLost
  try dsimp only
  with_reducible repeat' (first | intro _ | assumption | exact State.Frame.refl _ | apply State.setL2_frame | apply State.l2Lose_frame | apply f_ite)

theorem State.vcDataLost_frame {s0 : State} {s : State} {d : Nat} {sl : Nat} {set : Nat} {w : Nat} (h0 : s0.Frame P s)
    (p_die : P .die) :
    s0.Frame P (State.vcDataLost s d sl set w) := by
  unfold State.vcDataLost
  try dsimp only
  with_reducible repeat' (first | intro _ | assumption | exact State.Frame.refl _ | apply State.setVc_frame | apply f_ite)

theorem State.bcastSet_frame {s0 : State} {s : State} {n : Nat} {key : Nat} (h0 : s0.Frame P s) (p_regs : P .regs)
    (p_home : P .home) :
    s0.Frame P (State.bcastSet s n key) := by
  unfold State.bcastSet
  try dsimp only
  with_reducible repeat' (first
    | (intro (p : Part) hp; cases p <;> first | rfl | contradiction) | intro _ | assumption | exact State.Frame.refl _
    | apply State.put_frame | apply f_ite | apply f_mk)

theorem State.entryRecall_frame {s0 : State} {s : State} {n : Nat} {line : Nat} (h0 : s0.Frame P s) (p_regs : P .regs)
    (p_mem : P .mem) (p_marked : P .marked) (p_net : P .net) (p_free : P .free) (p_core : P .core) (p_home : P .home)
    (p_pass : P .pass) (p_mesa : P .mesa) (p_meter : P .meter) (p_qos : P .qos) (p_ras : P .ras) (p_tvx : P .tvx) :
    s0.Frame P (State.entryRecall s n line) := by
  unfold State.entryRecall
  try dsimp only
  with_reducible repeat' (first
    | intro _ | assumption | exact State.Frame.refl _ | apply State.freeDir_frame | apply State.txnProceed_frame
    | apply State.snoopAll_frame | apply State.setLock_frame | split)

theorem State.rldRecall_frame {s0 : State} {s : State} {n : Nat} {line : Nat} (h0 : s0.Frame P s) (p_regs : P .regs)
    (p_net : P .net) (p_free : P .free) (p_core : P .core) (p_home : P .home) (p_pass : P .pass) (p_ras : P .ras)
    (p_tvx : P .tvx) :
    s0.Frame P (State.rldRecall s n line) := by
  unfold State.rldRecall
  try dsimp only
  with_reducible repeat' (first
    | intro _ | assumption | exact State.Frame.refl _ | apply State.entryRecall_frame | apply State.writeRld_frame
    | apply State.pxProceed_frame | apply State.pxAskAll_frame | split)

theorem State.xferLost_frame {s0 : State} {s : State} {f : Nat} (h0 : s0.Frame P s) (p_regs : P .regs) (p_pass : P .pass)
    (p_xce : P .xce) :
    s0.Frame P (State.xferLost s f) := by
  unfold State.xferLost
  try dsimp only
  with_reducible repeat' (first
    | intro _ | assumption | exact State.Frame.refl _ | apply State.descEnd_frame | apply State.setQp_frame | apply f_ite
    | split)

theorem State.arrLost_frame {s0 : State} {s : State} {x : ArrLoc} (h0 : s0.Frame P s) (p_regs : P .regs) (p_mem : P .mem)
    (p_marked : P .marked) (p_net : P .net) (p_free : P .free) (p_core : P .core) (p_die : P .die) (p_home : P .home)
    (p_pass : P .pass) (p_mesa : P .mesa) (p_meter : P .meter) (p_qos : P .qos) (p_xce : P .xce) (p_io : P .io)
    (p_ras : P .ras) (p_tvx : P .tvx) :
    s0.Frame P (State.arrLost s x) := by
  unfold State.arrLost
  try dsimp only
  with_reducible repeat' (first
    | (intro (p : Part) hp; cases p <;> first | rfl | contradiction) | intro _ | assumption | exact State.Frame.refl _
    | apply State.setL1i_frame | apply State.setL1d_frame | apply State.l2DataLost_frame | apply State.l2SetLost_frame
    | apply State.vcDataLost_frame | apply State.vcSetLost_frame | apply State.sfSetLost_frame | apply State.bcastSet_frame
    | apply State.setDirE_frame | apply State.entryRecall_frame | apply State.setRptE_frame | apply State.setRldE_frame
    | apply State.rldRecall_frame | apply State.setSec_frame | apply State.cancelSector_frame | apply State.put_frame
    | apply State.bump_frame | apply State.mesaDropWay_frame | apply State.setPlru_frame | apply State.victDrop_frame
    | apply execCoreLogicError_frame | apply State.setMeter_frame | apply State.xceAer_frame | apply State.xferLost_frame
    | apply State.mgmtReset_frame | apply f_ite | apply f_foldN | refine f_of_next (by assumption) ?_
    | (apply f_mk; first | assumption | exact State.Frame.refl _ | apply State.setL1i_frame | apply State.setL1d_frame | apply State.l2DataLost_frame | apply State.l2SetLost_frame | apply State.vcDataLost_frame | apply State.vcSetLost_frame | apply State.sfSetLost_frame | apply State.bcastSet_frame | apply State.setDirE_frame | apply State.entryRecall_frame | apply State.setRptE_frame | apply State.setRldE_frame | apply State.rldRecall_frame | apply State.setSec_frame | apply State.cancelSector_frame | apply State.put_frame | apply State.bump_frame | apply State.mesaDropWay_frame | apply State.setPlru_frame | apply State.victDrop_frame | apply execCoreLogicError_frame | apply State.setMeter_frame | apply State.xceAer_frame | apply State.xferLost_frame | apply State.mgmtReset_frame | apply f_ite | apply f_foldN)
    | split)

theorem State.arrError_frame {s0 : State} {s : State} {x : ArrLoc} {sev : Nat} {syn : Nat × Nat} {marker : Bool}
    (h0 : s0.Frame P s) (p_regs : P .regs) (p_free : P .free) (p_core : P .core) (p_die : P .die) (p_home : P .home)
    (p_pass : P .pass) (p_mesa : P .mesa) (p_ras : P .ras) (p_tvx : P .tvx) :
    s0.Frame P (State.arrError s x sev syn marker) := by
  unfold State.arrError
  try dsimp only
  with_reducible repeat' (first
    | intro _ | assumption | exact State.Frame.refl _ | apply State.charge_frame | apply State.errRecord_frame
    | apply State.permanent_frame | apply f_ite | apply f_ite_fst | apply f_ite_snd | refine f_of_snd (by assumption) ?_
    | refine f_of_fst (by assumption) ?_ | refine f_of_some (by assumption) ?_ | split)

theorem State.unflaw_frame {s0 : State} {s : State} {x : ArrLoc} (h0 : s0.Frame P s) (p_ras : P .ras) :
    s0.Frame P (State.unflaw s x) := by
  unfold State.unflaw
  try dsimp only
  with_reducible repeat' (first
    | (intro (p : Part) hp; cases p <;> first | rfl | contradiction) | intro _ | assumption | exact State.Frame.refl _
    | apply f_regs | apply f_mem | apply f_mk)

theorem State.arrRead_frame {s0 : State} {s : State} {x : ArrLoc} {bad : List (Nat × Nat)} (h0 : s0.Frame P s)
    (p_regs : P .regs) (p_mem : P .mem) (p_marked : P .marked) (p_net : P .net) (p_free : P .free) (p_core : P .core)
    (p_die : P .die) (p_home : P .home) (p_pass : P .pass) (p_mesa : P .mesa) (p_meter : P .meter) (p_qos : P .qos)
    (p_xce : P .xce) (p_io : P .io) (p_ras : P .ras) (p_tvx : P .tvx) :
    s0.Frame P (State.arrRead s x bad) := by
  unfold State.arrRead
  try dsimp only
  with_reducible repeat' (first
    | intro _ | assumption | exact State.Frame.refl _ | apply State.arrFlip_frame | apply State.unflaw_frame
    | apply State.arrError_frame | apply State.xceMended_frame | apply State.bump_frame | apply State.arrLost_frame
    | apply f_ite | split)

theorem execOnchipPatrolBlock_frame {s0 : State} {x : ArrLoc} {bad : List (Nat × Nat)} {s : State} (h0 : s0.Frame P s)
    (p_regs : P .regs) (p_mem : P .mem) (p_marked : P .marked) (p_net : P .net) (p_free : P .free) (p_core : P .core)
    (p_die : P .die) (p_home : P .home) (p_pass : P .pass) (p_mesa : P .mesa) (p_meter : P .meter) (p_qos : P .qos)
    (p_xce : P .xce) (p_io : P .io) (p_ras : P .ras) (p_tvx : P .tvx) :
    FrameOut P s0 (execOnchipPatrolBlock x bad s) := by
  unfold execOnchipPatrolBlock
  try dsimp only
  with_reducible repeat' (first
    | intro _ | assumption | exact State.Frame.refl _ | apply State.arrRead_frame | apply fo_ite | apply f_ite
    | apply fo_next | apply fo_fault)

theorem execBucketWindowBoundary_frame {s0 : State} {k : Fin 15} {s : State} (h0 : s0.Frame P s) (p_regs : P .regs)
    (p_core : P .core) (p_pass : P .pass) (p_meter : P .meter) (p_qos : P .qos) (p_hzn : P .hzn) (p_ras : P .ras)
    (p_pwr : P .pwr) :
    FrameOut P s0 (execBucketWindowBoundary k s) := by
  unfold execBucketWindowBoundary
  try dsimp only
  with_reducible repeat' (first
    | (intro (p : Part) hp; cases p <;> first | rfl | contradiction) | intro _ | assumption | exact State.Frame.refl _
    | apply State.elapseTo_frame | apply State.setBucket_frame | apply fo_ite | apply f_ite | apply f_foldl | apply fo_next
    | apply fo_fault | apply f_mk)

end Sys2Proof.Machine
end

