-- ==== Sys2Proof/Laws/FrameDemand.lean ====
section
/-!
SUPPORT. What each function of Machine/Demand.lean leaves alone (`State.Frame`, Safety.lean): one lemma for each.
-/

namespace Sys2Proof.Machine

variable {P : Part → Prop}

theorem State.demand_frame {s0 : State} {s : State} {p : State → ArrLoc → Bool} {refetch : Bool} (h0 : s0.Frame P s)
    (p_regs : P .regs) (p_mem : P .mem) (p_marked : P .marked) (p_net : P .net) (p_free : P .free) (p_core : P .core)
    (p_die : P .die) (p_home : P .home) (p_pass : P .pass) (p_mesa : P .mesa) (p_meter : P .meter) (p_qos : P .qos)
    (p_xce : P .xce) (p_io : P .io) (p_ras : P .ras) (p_tvx : P .tvx) :
    s0.Frame P (State.demand s p refetch) := by
  unfold State.demand
  try dsimp only
  with_reducible repeat' (first
    | intro _ | assumption | exact State.Frame.refl _ | apply State.arrRead_frame | apply State.bump_frame | apply f_ite
    | apply f_foldl | split)

theorem State.demandHart_frame {s0 : State} {s : State} {h : Hart} {x : Access} (h0 : s0.Frame P s) (p_regs : P .regs)
    (p_mem : P .mem) (p_marked : P .marked) (p_net : P .net) (p_free : P .free) (p_core : P .core) (p_die : P .die)
    (p_home : P .home) (p_pass : P .pass) (p_mesa : P .mesa) (p_meter : P .meter) (p_qos : P .qos) (p_xce : P .xce)
    (p_io : P .io) (p_ras : P .ras) (p_tvx : P .tvx) :
    s0.Frame P (State.demandHart s h x) := by
  unfold State.demandHart
  try dsimp only
  with_reducible repeat' (first | intro _ | assumption | exact State.Frame.refl _ | apply State.demand_frame)

theorem State.demandMsg_frame {s0 : State} {s : State} {m : Msg} (h0 : s0.Frame P s) (p_regs : P .regs) (p_mem : P .mem)
    (p_marked : P .marked) (p_net : P .net) (p_free : P .free) (p_core : P .core) (p_die : P .die) (p_home : P .home)
    (p_pass : P .pass) (p_mesa : P .mesa) (p_meter : P .meter) (p_qos : P .qos) (p_xce : P .xce) (p_io : P .io)
    (p_ras : P .ras) (p_tvx : P .tvx) :
    s0.Frame P (State.demandMsg s m) := by
  unfold State.demandMsg
  try dsimp only
  with_reducible repeat' (first | intro _ | assumption | exact State.Frame.refl _ | apply State.demand_frame | apply f_ite)

theorem State.demandFlush_frame {s0 : State} {s : State} {u : FlushUnit} (h0 : s0.Frame P s) (p_regs : P .regs)
    (p_mem : P .mem) (p_marked : P .marked) (p_net : P .net) (p_free : P .free) (p_core : P .core) (p_die : P .die)
    (p_home : P .home) (p_pass : P .pass) (p_mesa : P .mesa) (p_meter : P .meter) (p_qos : P .qos) (p_xce : P .xce)
    (p_io : P .io) (p_ras : P .ras) (p_tvx : P .tvx) :
    s0.Frame P (State.demandFlush s u) := by
  unfold State.demandFlush
  try dsimp only
  with_reducible repeat' (first | intro _ | assumption | exact State.Frame.refl _ | apply State.demand_frame | split)

theorem State.rotItem_frame {s0 : State} {s : State} {place : Nat} {k : Nat} (h0 : s0.Frame P s) (p_tvx : P .tvx) :
    s0.Frame P (State.rotItem s place k) := by
  unfold State.rotItem
  try dsimp only
  with_reducible repeat' (first
    | intro _ | assumption | exact State.Frame.refl _ | apply State.putSetSlot_frame | apply State.setTvx_frame
    | apply f_ite)

theorem State.flashDecay_frame {s0 : State} {s : State} {e : Option (Nat × Nat)} (h0 : s0.Frame P s) (p_tvx : P .tvx) :
    s0.Frame P (State.flashDecay s e) := by
  unfold State.flashDecay
  try dsimp only
  with_reducible repeat' (first | intro _ | assumption | exact State.Frame.refl _ | apply State.rotItem_frame | split)

theorem State.cellUpset_frame {s0 : State} {s : State} {e : Option (ArrLoc × List (Nat × Nat))} (h0 : s0.Frame P s)
    (p_ras : P .ras) :
    s0.Frame P (State.cellUpset s e) := by
  unfold State.cellUpset
  try dsimp only
  with_reducible repeat' (first
    | (intro (p : Part) hp; cases p <;> first | rfl | contradiction) | intro _ | assumption | exact State.Frame.refl _
    | (apply f_mk; first | assumption | exact State.Frame.refl _) | split)

theorem State.idle_frame {s0 : State} {s : State} (h0 : s0.Frame P s) (p_regs : P .regs) (p_free : P .free)
    (p_core : P .core) (p_pass : P .pass) (p_meter : P .meter) (p_qos : P .qos) (p_hzn : P .hzn) (p_ras : P .ras)
    (p_tvx : P .tvx) (p_pwr : P .pwr) :
    s0.Frame P (State.idle s) := by
  unfold State.idle
  try dsimp only
  with_reducible repeat' (first
    | (intro (p : Part) hp; cases p <;> first | rfl | contradiction) | intro _ | assumption | exact State.Frame.refl _
    | apply State.elapse_frame | apply State.cellUpset_frame | apply State.flashDecay_frame | apply f_mk)

end Sys2Proof.Machine
end

