-- ==== Sys2Proof/Laws/FrameMsgRows.lean ====
section
/-!
SUPPORT. What each function of Machine/MsgRows.lean leaves alone (`State.Frame`, Safety.lean): one lemma for each.
-/

namespace Sys2Proof.Machine

variable {P : Part → Prop}

theorem execRdShared_frame {s0 : State} {m : Msg} {s : State} (h0 : s0.Frame P s) (p_regs : P .regs) (p_mem : P .mem)
    (p_marked : P .marked) (p_net : P .net) (p_free : P .free) (p_core : P .core) (p_die : P .die) (p_home : P .home)
    (p_pass : P .pass) (p_mesa : P .mesa) (p_meter : P .meter) (p_qos : P .qos) (p_hzn : P .hzn) (p_xce : P .xce)
    (p_io : P .io) (p_ras : P .ras) (p_tvx : P .tvx) :
    FrameOut P s0 (execRdShared m s) := by
  unfold execRdShared
  try dsimp only
  with_reducible repeat' (first
    | intro _ | assumption | exact State.Frame.refl _ | apply State.arrive_frame | apply State.demandMsg_frame
    | apply State.reqIn_frame | apply fo_next | apply fo_fault)

theorem execRdOwn_frame {s0 : State} {m : Msg} {s : State} (h0 : s0.Frame P s) (p_regs : P .regs) (p_mem : P .mem)
    (p_marked : P .marked) (p_net : P .net) (p_free : P .free) (p_core : P .core) (p_die : P .die) (p_home : P .home)
    (p_pass : P .pass) (p_mesa : P .mesa) (p_meter : P .meter) (p_qos : P .qos) (p_hzn : P .hzn) (p_xce : P .xce)
    (p_io : P .io) (p_ras : P .ras) (p_tvx : P .tvx) :
    FrameOut P s0 (execRdOwn m s) := by
  unfold execRdOwn
  try dsimp only
  with_reducible repeat' (first
    | intro _ | assumption | exact State.Frame.refl _ | apply State.arrive_frame | apply State.demandMsg_frame
    | apply State.reqIn_frame | apply fo_next | apply fo_fault)

theorem execUpgrade_frame {s0 : State} {m : Msg} {s : State} (h0 : s0.Frame P s) (p_regs : P .regs) (p_mem : P .mem)
    (p_marked : P .marked) (p_net : P .net) (p_free : P .free) (p_core : P .core) (p_die : P .die) (p_home : P .home)
    (p_pass : P .pass) (p_mesa : P .mesa) (p_meter : P .meter) (p_qos : P .qos) (p_hzn : P .hzn) (p_xce : P .xce)
    (p_io : P .io) (p_ras : P .ras) (p_tvx : P .tvx) :
    FrameOut P s0 (execUpgrade m s) := by
  unfold execUpgrade
  try dsimp only
  with_reducible repeat' (first
    | intro _ | assumption | exact State.Frame.refl _ | apply State.arrive_frame | apply State.demandMsg_frame
    | apply State.reqIn_frame | apply fo_next | apply fo_fault)

theorem execRdCur_frame {s0 : State} {m : Msg} {s : State} (h0 : s0.Frame P s) (p_regs : P .regs) (p_mem : P .mem)
    (p_marked : P .marked) (p_net : P .net) (p_free : P .free) (p_core : P .core) (p_die : P .die) (p_home : P .home)
    (p_pass : P .pass) (p_mesa : P .mesa) (p_meter : P .meter) (p_qos : P .qos) (p_hzn : P .hzn) (p_xce : P .xce)
    (p_io : P .io) (p_ras : P .ras) (p_tvx : P .tvx) :
    FrameOut P s0 (execRdCur m s) := by
  unfold execRdCur
  try dsimp only
  with_reducible repeat' (first
    | intro _ | assumption | exact State.Frame.refl _ | apply State.arrive_frame | apply State.demandMsg_frame
    | apply State.reqIn_frame | apply fo_next | apply fo_fault)

theorem execRdCurClean_frame {s0 : State} {m : Msg} {s : State} (h0 : s0.Frame P s) (p_regs : P .regs) (p_mem : P .mem)
    (p_marked : P .marked) (p_net : P .net) (p_free : P .free) (p_core : P .core) (p_die : P .die) (p_home : P .home)
    (p_pass : P .pass) (p_mesa : P .mesa) (p_meter : P .meter) (p_qos : P .qos) (p_hzn : P .hzn) (p_xce : P .xce)
    (p_io : P .io) (p_ras : P .ras) (p_tvx : P .tvx) :
    FrameOut P s0 (execRdCurClean m s) := by
  unfold execRdCurClean
  try dsimp only
  with_reducible repeat' (first
    | intro _ | assumption | exact State.Frame.refl _ | apply State.arrive_frame | apply State.demandMsg_frame
    | apply State.reqIn_frame | apply fo_next | apply fo_fault)

theorem execRdCurFlush_frame {s0 : State} {m : Msg} {s : State} (h0 : s0.Frame P s) (p_regs : P .regs) (p_mem : P .mem)
    (p_marked : P .marked) (p_net : P .net) (p_free : P .free) (p_core : P .core) (p_die : P .die) (p_home : P .home)
    (p_pass : P .pass) (p_mesa : P .mesa) (p_meter : P .meter) (p_qos : P .qos) (p_hzn : P .hzn) (p_xce : P .xce)
    (p_io : P .io) (p_ras : P .ras) (p_tvx : P .tvx) :
    FrameOut P s0 (execRdCurFlush m s) := by
  unfold execRdCurFlush
  try dsimp only
  with_reducible repeat' (first
    | intro _ | assumption | exact State.Frame.refl _ | apply State.arrive_frame | apply State.demandMsg_frame
    | apply State.reqIn_frame | apply fo_next | apply fo_fault)

theorem execRdCurInval_frame {s0 : State} {m : Msg} {s : State} (h0 : s0.Frame P s) (p_regs : P .regs) (p_mem : P .mem)
    (p_marked : P .marked) (p_net : P .net) (p_free : P .free) (p_core : P .core) (p_die : P .die) (p_home : P .home)
    (p_pass : P .pass) (p_mesa : P .mesa) (p_meter : P .meter) (p_qos : P .qos) (p_hzn : P .hzn) (p_xce : P .xce)
    (p_io : P .io) (p_ras : P .ras) (p_tvx : P .tvx) :
    FrameOut P s0 (execRdCurInval m s) := by
  unfold execRdCurInval
  try dsimp only
  with_reducible repeat' (first
    | intro _ | assumption | exact State.Frame.refl _ | apply State.arrive_frame | apply State.demandMsg_frame
    | apply State.reqIn_frame | apply fo_next | apply fo_fault)

theorem execWrFullNc_frame {s0 : State} {m : Msg} {s : State} (h0 : s0.Frame P s) (p_regs : P .regs) (p_mem : P .mem)
    (p_marked : P .marked) (p_net : P .net) (p_free : P .free) (p_core : P .core) (p_die : P .die) (p_home : P .home)
    (p_pass : P .pass) (p_mesa : P .mesa) (p_meter : P .meter) (p_qos : P .qos) (p_hzn : P .hzn) (p_xce : P .xce)
    (p_io : P .io) (p_ras : P .ras) (p_tvx : P .tvx) :
    FrameOut P s0 (execWrFullNc m s) := by
  unfold execWrFullNc
  try dsimp only
  with_reducible repeat' (first
    | intro _ | assumption | exact State.Frame.refl _ | apply State.arrive_frame | apply State.demandMsg_frame
    | apply State.reqIn_frame | apply fo_next | apply fo_fault)

theorem execWrPartNc_frame {s0 : State} {m : Msg} {s : State} (h0 : s0.Frame P s) (p_regs : P .regs) (p_mem : P .mem)
    (p_marked : P .marked) (p_net : P .net) (p_free : P .free) (p_core : P .core) (p_die : P .die) (p_home : P .home)
    (p_pass : P .pass) (p_mesa : P .mesa) (p_meter : P .meter) (p_qos : P .qos) (p_hzn : P .hzn) (p_xce : P .xce)
    (p_io : P .io) (p_ras : P .ras) (p_tvx : P .tvx) :
    FrameOut P s0 (execWrPartNc m s) := by
  unfold execWrPartNc
  try dsimp only
  with_reducible repeat' (first
    | intro _ | assumption | exact State.Frame.refl _ | apply State.arrive_frame | apply State.demandMsg_frame
    | apply State.reqIn_frame | apply fo_next | apply fo_fault)

theorem execAtomicNc_frame {s0 : State} {m : Msg} {s : State} (h0 : s0.Frame P s) (p_regs : P .regs) (p_mem : P .mem)
    (p_marked : P .marked) (p_net : P .net) (p_free : P .free) (p_core : P .core) (p_die : P .die) (p_home : P .home)
    (p_pass : P .pass) (p_mesa : P .mesa) (p_meter : P .meter) (p_qos : P .qos) (p_hzn : P .hzn) (p_xce : P .xce)
    (p_io : P .io) (p_ras : P .ras) (p_tvx : P .tvx) :
    FrameOut P s0 (execAtomicNc m s) := by
  unfold execAtomicNc
  try dsimp only
  with_reducible repeat' (first
    | intro _ | assumption | exact State.Frame.refl _ | apply State.arrive_frame | apply State.demandMsg_frame
    | apply State.reqIn_frame | apply fo_next | apply fo_fault)

theorem execProxyDieRequest_frame {s0 : State} {m : Msg} {s : State} (h0 : s0.Frame P s) (p_regs : P .regs) (p_mem : P .mem)
    (p_marked : P .marked) (p_net : P .net) (p_free : P .free) (p_core : P .core) (p_die : P .die) (p_home : P .home)
    (p_pass : P .pass) (p_mesa : P .mesa) (p_meter : P .meter) (p_qos : P .qos) (p_hzn : P .hzn) (p_xce : P .xce)
    (p_io : P .io) (p_ras : P .ras) (p_tvx : P .tvx) :
    FrameOut P s0 (execProxyDieRequest m s) := by
  unfold execProxyDieRequest
  try dsimp only
  with_reducible repeat' (first
    | intro _ | assumption | exact State.Frame.refl _ | apply State.arrive_frame | apply State.demandMsg_frame
    | apply State.reqIn_frame | apply fo_next | apply fo_fault)

theorem execDirWayWaitResume_frame {s0 : State} {n : Ix16} {htag : Fin 512} {s : State} (h0 : s0.Frame P s)
    (p_regs : P .regs) (p_mem : P .mem) (p_marked : P .marked) (p_net : P .net) (p_free : P .free) (p_core : P .core)
    (p_home : P .home) (p_pass : P .pass) (p_mesa : P .mesa) (p_meter : P .meter) (p_qos : P .qos) (p_ras : P .ras)
    (p_tvx : P .tvx) :
    FrameOut P s0 (execDirWayWaitResume n htag s) := by
  unfold execDirWayWaitResume
  try dsimp only
  with_reducible repeat' (first
    | intro _ | assumption | exact State.Frame.refl _ | apply State.pxReply_frame | apply State.pxNcGo_frame
    | apply State.forwarded_frame | apply State.tryClose_frame | apply State.fillFinish_frame | apply fo_ite | apply f_ite
    | apply fo_next | apply fo_fault | split)

theorem execSnpFwdShared_frame {s0 : State} {m : Msg} {s : State} (h0 : s0.Frame P s) (p_regs : P .regs) (p_mem : P .mem)
    (p_marked : P .marked) (p_net : P .net) (p_free : P .free) (p_core : P .core) (p_die : P .die) (p_home : P .home)
    (p_pass : P .pass) (p_mesa : P .mesa) (p_meter : P .meter) (p_qos : P .qos) (p_hzn : P .hzn) (p_xce : P .xce)
    (p_io : P .io) (p_ras : P .ras) (p_tvx : P .tvx) :
    FrameOut P s0 (execSnpFwdShared m s) := by
  unfold execSnpFwdShared
  try dsimp only
  with_reducible repeat' (first
    | intro _ | assumption | exact State.Frame.refl _ | apply State.arrive_frame | apply State.demandMsg_frame
    | apply State.snpIn_frame | apply fo_next | apply fo_fault)

theorem execSnpFwdOwn_frame {s0 : State} {m : Msg} {s : State} (h0 : s0.Frame P s) (p_regs : P .regs) (p_mem : P .mem)
    (p_marked : P .marked) (p_net : P .net) (p_free : P .free) (p_core : P .core) (p_die : P .die) (p_home : P .home)
    (p_pass : P .pass) (p_mesa : P .mesa) (p_meter : P .meter) (p_qos : P .qos) (p_hzn : P .hzn) (p_xce : P .xce)
    (p_io : P .io) (p_ras : P .ras) (p_tvx : P .tvx) :
    FrameOut P s0 (execSnpFwdOwn m s) := by
  unfold execSnpFwdOwn
  try dsimp only
  with_reducible repeat' (first
    | intro _ | assumption | exact State.Frame.refl _ | apply State.arrive_frame | apply State.demandMsg_frame
    | apply State.snpIn_frame | apply fo_next | apply fo_fault)

theorem execSnpFwdCur_frame {s0 : State} {m : Msg} {s : State} (h0 : s0.Frame P s) (p_regs : P .regs) (p_mem : P .mem)
    (p_marked : P .marked) (p_net : P .net) (p_free : P .free) (p_core : P .core) (p_die : P .die) (p_home : P .home)
    (p_pass : P .pass) (p_mesa : P .mesa) (p_meter : P .meter) (p_qos : P .qos) (p_hzn : P .hzn) (p_xce : P .xce)
    (p_io : P .io) (p_ras : P .ras) (p_tvx : P .tvx) :
    FrameOut P s0 (execSnpFwdCur m s) := by
  unfold execSnpFwdCur
  try dsimp only
  with_reducible repeat' (first
    | intro _ | assumption | exact State.Frame.refl _ | apply State.arrive_frame | apply State.demandMsg_frame
    | apply State.snpIn_frame | apply fo_next | apply fo_fault)

theorem execSnpInv_frame {s0 : State} {m : Msg} {s : State} (h0 : s0.Frame P s) (p_regs : P .regs) (p_mem : P .mem)
    (p_marked : P .marked) (p_net : P .net) (p_free : P .free) (p_core : P .core) (p_die : P .die) (p_home : P .home)
    (p_pass : P .pass) (p_mesa : P .mesa) (p_meter : P .meter) (p_qos : P .qos) (p_hzn : P .hzn) (p_xce : P .xce)
    (p_io : P .io) (p_ras : P .ras) (p_tvx : P .tvx) :
    FrameOut P s0 (execSnpInv m s) := by
  unfold execSnpInv
  try dsimp only
  with_reducible repeat' (first
    | intro _ | assumption | exact State.Frame.refl _ | apply State.arrive_frame | apply State.demandMsg_frame
    | apply State.snpIn_frame | apply fo_next | apply fo_fault)

theorem execProxyRemoteSnoop_frame {s0 : State} {m : Msg} {s : State} (h0 : s0.Frame P s) (p_regs : P .regs)
    (p_mem : P .mem) (p_marked : P .marked) (p_net : P .net) (p_free : P .free) (p_core : P .core) (p_die : P .die)
    (p_home : P .home) (p_pass : P .pass) (p_mesa : P .mesa) (p_meter : P .meter) (p_qos : P .qos) (p_hzn : P .hzn)
    (p_xce : P .xce) (p_io : P .io) (p_ras : P .ras) (p_tvx : P .tvx) :
    FrameOut P s0 (execProxyRemoteSnoop m s) := by
  unfold execProxyRemoteSnoop
  try dsimp only
  with_reducible repeat' (first
    | intro _ | assumption | exact State.Frame.refl _ | apply State.arrive_frame | apply State.demandMsg_frame
    | apply State.snpIn_frame | apply fo_next | apply fo_fault)

theorem execSnoopHoldRelease_frame {s0 : State} {d : Die} {line : Nat} {s : State} (h0 : s0.Frame P s) (p_regs : P .regs)
    (p_net : P .net) (p_free : P .free) (p_core : P .core) (p_die : P .die) (p_pass : P .pass) (p_ras : P .ras)
    (p_tvx : P .tvx) :
    FrameOut P s0 (execSnoopHoldRelease d line s) := by
  unfold execSnoopHoldRelease
  try dsimp only
  with_reducible repeat' (first
    | intro _ | assumption | exact State.Frame.refl _ | apply State.holdRelease_frame | apply fo_ite | apply f_ite
    | apply fo_next | apply fo_fault)

theorem execSnpAckMiss_frame {s0 : State} {m : Msg} {s : State} (h0 : s0.Frame P s) (p_regs : P .regs) (p_mem : P .mem)
    (p_marked : P .marked) (p_net : P .net) (p_free : P .free) (p_core : P .core) (p_die : P .die) (p_home : P .home)
    (p_pass : P .pass) (p_mesa : P .mesa) (p_meter : P .meter) (p_qos : P .qos) (p_hzn : P .hzn) (p_xce : P .xce)
    (p_io : P .io) (p_ras : P .ras) (p_tvx : P .tvx) :
    FrameOut P s0 (execSnpAckMiss m s) := by
  unfold execSnpAckMiss
  try dsimp only
  with_reducible repeat' (first
    | intro _ | assumption | exact State.Frame.refl _ | apply State.arrive_frame | apply State.demandMsg_frame
    | apply State.ansIn_frame | apply fo_next | apply fo_fault)

theorem execSnpAckInv_frame {s0 : State} {m : Msg} {s : State} (h0 : s0.Frame P s) (p_regs : P .regs) (p_mem : P .mem)
    (p_marked : P .marked) (p_net : P .net) (p_free : P .free) (p_core : P .core) (p_die : P .die) (p_home : P .home)
    (p_pass : P .pass) (p_mesa : P .mesa) (p_meter : P .meter) (p_qos : P .qos) (p_hzn : P .hzn) (p_xce : P .xce)
    (p_io : P .io) (p_ras : P .ras) (p_tvx : P .tvx) :
    FrameOut P s0 (execSnpAckInv m s) := by
  unfold execSnpAckInv
  try dsimp only
  with_reducible repeat' (first
    | intro _ | assumption | exact State.Frame.refl _ | apply State.arrive_frame | apply State.demandMsg_frame
    | apply State.ansIn_frame | apply fo_next | apply fo_fault)

theorem execFwdDone_frame {s0 : State} {m : Msg} {s : State} (h0 : s0.Frame P s) (p_regs : P .regs) (p_mem : P .mem)
    (p_marked : P .marked) (p_net : P .net) (p_free : P .free) (p_core : P .core) (p_die : P .die) (p_home : P .home)
    (p_pass : P .pass) (p_mesa : P .mesa) (p_meter : P .meter) (p_qos : P .qos) (p_hzn : P .hzn) (p_xce : P .xce)
    (p_io : P .io) (p_ras : P .ras) (p_tvx : P .tvx) :
    FrameOut P s0 (execFwdDone m s) := by
  unfold execFwdDone
  try dsimp only
  with_reducible repeat' (first
    | intro _ | assumption | exact State.Frame.refl _ | apply State.arrive_frame | apply State.demandMsg_frame
    | apply State.ansIn_frame | apply fo_next | apply fo_fault)

theorem execFwdDoneWb_frame {s0 : State} {m : Msg} {s : State} (h0 : s0.Frame P s) (p_regs : P .regs) (p_mem : P .mem)
    (p_marked : P .marked) (p_net : P .net) (p_free : P .free) (p_core : P .core) (p_die : P .die) (p_home : P .home)
    (p_pass : P .pass) (p_mesa : P .mesa) (p_meter : P .meter) (p_qos : P .qos) (p_hzn : P .hzn) (p_xce : P .xce)
    (p_io : P .io) (p_ras : P .ras) (p_tvx : P .tvx) :
    FrameOut P s0 (execFwdDoneWb m s) := by
  unfold execFwdDoneWb
  try dsimp only
  with_reducible repeat' (first
    | intro _ | assumption | exact State.Frame.refl _ | apply State.arrive_frame | apply State.demandMsg_frame
    | apply State.ansIn_frame | apply fo_next | apply fo_fault)

theorem execCompAckClose_frame {s0 : State} {m : Msg} {s : State} (h0 : s0.Frame P s) (p_regs : P .regs) (p_mem : P .mem)
    (p_marked : P .marked) (p_net : P .net) (p_free : P .free) (p_core : P .core) (p_die : P .die) (p_home : P .home)
    (p_pass : P .pass) (p_mesa : P .mesa) (p_meter : P .meter) (p_qos : P .qos) (p_hzn : P .hzn) (p_xce : P .xce)
    (p_io : P .io) (p_ras : P .ras) (p_tvx : P .tvx) :
    FrameOut P s0 (execCompAckClose m s) := by
  unfold execCompAckClose
  try dsimp only
  with_reducible repeat' (first
    | intro _ | assumption | exact State.Frame.refl _ | apply State.arrive_frame | apply State.demandMsg_frame
    | apply State.closeIn_frame | apply fo_next | apply fo_fault)

theorem execCompAckCommit_frame {s0 : State} {m : Msg} {s : State} (h0 : s0.Frame P s) (p_regs : P .regs) (p_mem : P .mem)
    (p_marked : P .marked) (p_net : P .net) (p_free : P .free) (p_core : P .core) (p_die : P .die) (p_home : P .home)
    (p_pass : P .pass) (p_mesa : P .mesa) (p_meter : P .meter) (p_qos : P .qos) (p_hzn : P .hzn) (p_xce : P .xce)
    (p_io : P .io) (p_ras : P .ras) (p_tvx : P .tvx) :
    FrameOut P s0 (execCompAckCommit m s) := by
  unfold execCompAckCommit
  try dsimp only
  with_reducible repeat' (first
    | intro _ | assumption | exact State.Frame.refl _ | apply State.arrive_frame | apply State.demandMsg_frame
    | apply State.commitIn_frame | apply fo_next | apply fo_fault)

theorem execCompAckDone_frame {s0 : State} {m : Msg} {s : State} (h0 : s0.Frame P s) (p_regs : P .regs) (p_mem : P .mem)
    (p_marked : P .marked) (p_net : P .net) (p_free : P .free) (p_core : P .core) (p_die : P .die) (p_home : P .home)
    (p_pass : P .pass) (p_mesa : P .mesa) (p_meter : P .meter) (p_qos : P .qos) (p_hzn : P .hzn) (p_xce : P .xce)
    (p_io : P .io) (p_ras : P .ras) (p_tvx : P .tvx) (p_ccol : P .ccol) :
    FrameOut P s0 (execCompAckDone m s) := by
  unfold execCompAckDone
  try dsimp only
  with_reducible repeat' (first
    | intro _ | assumption | exact State.Frame.refl _ | apply State.arrive_frame | apply State.demandMsg_frame
    | apply State.replyIn_frame | apply State.dieComp_frame | apply State.ioComp_frame | apply fo_next | apply fo_fault)

theorem execCompAckReady_frame {s0 : State} {m : Msg} {s : State} (h0 : s0.Frame P s) (p_regs : P .regs) (p_mem : P .mem)
    (p_marked : P .marked) (p_net : P .net) (p_free : P .free) (p_core : P .core) (p_die : P .die) (p_home : P .home)
    (p_pass : P .pass) (p_mesa : P .mesa) (p_meter : P .meter) (p_qos : P .qos) (p_hzn : P .hzn) (p_xce : P .xce)
    (p_io : P .io) (p_ras : P .ras) (p_tvx : P .tvx) (p_ccol : P .ccol) :
    FrameOut P s0 (execCompAckReady m s) := by
  unfold execCompAckReady
  try dsimp only
  with_reducible repeat' (first
    | intro _ | assumption | exact State.Frame.refl _ | apply State.arrive_frame | apply State.demandMsg_frame
    | apply State.replyIn_frame | apply State.dieComp_frame | apply State.ioComp_frame | apply fo_next | apply fo_fault)

theorem execErr_frame {s0 : State} {m : Msg} {s : State} (h0 : s0.Frame P s) (p_regs : P .regs) (p_mem : P .mem)
    (p_marked : P .marked) (p_net : P .net) (p_free : P .free) (p_core : P .core) (p_die : P .die) (p_home : P .home)
    (p_pass : P .pass) (p_mesa : P .mesa) (p_meter : P .meter) (p_qos : P .qos) (p_hzn : P .hzn) (p_xce : P .xce)
    (p_io : P .io) (p_ras : P .ras) (p_tvx : P .tvx) (p_ccol : P .ccol) :
    FrameOut P s0 (execErr m s) := by
  unfold execErr
  try dsimp only
  with_reducible repeat' (first
    | intro _ | assumption | exact State.Frame.refl _ | apply State.arrive_frame | apply State.demandMsg_frame
    | apply State.replyIn_frame | apply State.dieErr_frame | apply State.ioErr_frame | apply fo_next | apply fo_fault)

theorem execRetry_frame {s0 : State} {m : Msg} {s : State} (h0 : s0.Frame P s) (p_regs : P .regs) (p_mem : P .mem)
    (p_marked : P .marked) (p_net : P .net) (p_free : P .free) (p_core : P .core) (p_die : P .die) (p_home : P .home)
    (p_pass : P .pass) (p_mesa : P .mesa) (p_meter : P .meter) (p_qos : P .qos) (p_hzn : P .hzn) (p_xce : P .xce)
    (p_io : P .io) (p_ras : P .ras) (p_tvx : P .tvx) :
    FrameOut P s0 (execRetry m s) := by
  unfold execRetry
  try dsimp only
  with_reducible repeat' (first
    | intro _ | assumption | exact State.Frame.refl _ | apply State.arrive_frame | apply State.demandMsg_frame
    | apply State.retryIn_frame | apply fo_next | apply fo_fault)

theorem execCreditGrant_frame {s0 : State} {m : Msg} {s : State} (h0 : s0.Frame P s) (p_regs : P .regs) (p_mem : P .mem)
    (p_marked : P .marked) (p_net : P .net) (p_free : P .free) (p_core : P .core) (p_die : P .die) (p_home : P .home)
    (p_pass : P .pass) (p_mesa : P .mesa) (p_meter : P .meter) (p_qos : P .qos) (p_hzn : P .hzn) (p_xce : P .xce)
    (p_io : P .io) (p_ras : P .ras) (p_tvx : P .tvx) :
    FrameOut P s0 (execCreditGrant m s) := by
  unfold execCreditGrant
  try dsimp only
  with_reducible repeat' (first
    | intro _ | assumption | exact State.Frame.refl _ | apply State.arrive_frame | apply State.demandMsg_frame
    | apply State.grantIn_frame | apply fo_next | apply fo_fault)

theorem execTokenWatchdogExpiry_frame {s0 : State} {n : Ix16} {t : Fin 256} {s : State} (h0 : s0.Frame P s)
    (p_regs : P .regs) (p_net : P .net) (p_free : P .free) (p_core : P .core) (p_home : P .home) (p_pass : P .pass)
    (p_ras : P .ras) (p_tvx : P .tvx) :
    FrameOut P s0 (execTokenWatchdogExpiry n t s) := by
  unfold execTokenWatchdogExpiry
  try dsimp only
  with_reducible repeat' (first
    | intro _ | assumption | exact State.Frame.refl _ | apply State.freeTok_frame | apply State.slotFreed_frame
    | apply State.tokenErr_frame | apply State.errRecord_frame | apply fo_ite | apply f_ite | apply fo_next | apply fo_fault
    | split)

theorem execWbDirty_frame {s0 : State} {m : Msg} {s : State} (h0 : s0.Frame P s) (p_regs : P .regs) (p_mem : P .mem)
    (p_marked : P .marked) (p_net : P .net) (p_free : P .free) (p_core : P .core) (p_die : P .die) (p_home : P .home)
    (p_pass : P .pass) (p_mesa : P .mesa) (p_meter : P .meter) (p_qos : P .qos) (p_hzn : P .hzn) (p_xce : P .xce)
    (p_io : P .io) (p_ras : P .ras) (p_tvx : P .tvx) :
    FrameOut P s0 (execWbDirty m s) := by
  unfold execWbDirty
  try dsimp only
  with_reducible repeat' (first
    | intro _ | assumption | exact State.Frame.refl _ | apply State.wbArrive_frame | apply State.demandMsg_frame
    | apply fo_next | apply fo_fault)

theorem execProxyDieWbDirty_frame {s0 : State} {m : Msg} {s : State} (h0 : s0.Frame P s) (p_regs : P .regs) (p_mem : P .mem)
    (p_marked : P .marked) (p_net : P .net) (p_free : P .free) (p_core : P .core) (p_die : P .die) (p_home : P .home)
    (p_pass : P .pass) (p_mesa : P .mesa) (p_meter : P .meter) (p_qos : P .qos) (p_hzn : P .hzn) (p_xce : P .xce)
    (p_io : P .io) (p_ras : P .ras) (p_tvx : P .tvx) :
    FrameOut P s0 (execProxyDieWbDirty m s) := by
  unfold execProxyDieWbDirty
  try dsimp only
  with_reducible repeat' (first
    | intro _ | assumption | exact State.Frame.refl _ | apply State.wbArrive_frame | apply State.demandMsg_frame
    | apply fo_next | apply fo_fault)

theorem execWbAck_frame {s0 : State} {m : Msg} {s : State} (h0 : s0.Frame P s) (p_regs : P .regs) (p_mem : P .mem)
    (p_marked : P .marked) (p_net : P .net) (p_free : P .free) (p_core : P .core) (p_die : P .die) (p_home : P .home)
    (p_pass : P .pass) (p_mesa : P .mesa) (p_meter : P .meter) (p_qos : P .qos) (p_hzn : P .hzn) (p_xce : P .xce)
    (p_io : P .io) (p_ras : P .ras) (p_tvx : P .tvx) :
    FrameOut P s0 (execWbAck m s) := by
  unfold execWbAck
  try dsimp only
  with_reducible repeat' (first
    | intro _ | assumption | exact State.Frame.refl _ | apply State.arrive_frame | apply State.demandMsg_frame
    | apply State.wbAckIn_frame | apply fo_next | apply fo_fault)

theorem execWbAckStale_frame {s0 : State} {m : Msg} {s : State} (h0 : s0.Frame P s) (p_regs : P .regs) (p_mem : P .mem)
    (p_marked : P .marked) (p_net : P .net) (p_free : P .free) (p_core : P .core) (p_die : P .die) (p_home : P .home)
    (p_pass : P .pass) (p_mesa : P .mesa) (p_meter : P .meter) (p_qos : P .qos) (p_hzn : P .hzn) (p_xce : P .xce)
    (p_io : P .io) (p_ras : P .ras) (p_tvx : P .tvx) :
    FrameOut P s0 (execWbAckStale m s) := by
  unfold execWbAckStale
  try dsimp only
  with_reducible repeat' (first
    | intro _ | assumption | exact State.Frame.refl _ | apply State.arrive_frame | apply State.demandMsg_frame
    | apply State.wbAckIn_frame | apply fo_next | apply fo_fault)

theorem execDataS_frame {s0 : State} {m : Msg} {s : State} (h0 : s0.Frame P s) (p_regs : P .regs) (p_mem : P .mem)
    (p_marked : P .marked) (p_net : P .net) (p_free : P .free) (p_core : P .core) (p_die : P .die) (p_home : P .home)
    (p_pass : P .pass) (p_mesa : P .mesa) (p_meter : P .meter) (p_qos : P .qos) (p_hzn : P .hzn) (p_xce : P .xce)
    (p_io : P .io) (p_ras : P .ras) (p_tvx : P .tvx) (p_ccol : P .ccol) :
    FrameOut P s0 (execDataS m s) := by
  unfold execDataS
  try dsimp only
  with_reducible repeat' (first
    | intro _ | assumption | exact State.Frame.refl _ | apply State.dataArrive_frame | apply State.demandMsg_frame
    | apply fo_next | apply fo_fault)

theorem execDataE_frame {s0 : State} {m : Msg} {s : State} (h0 : s0.Frame P s) (p_regs : P .regs) (p_mem : P .mem)
    (p_marked : P .marked) (p_net : P .net) (p_free : P .free) (p_core : P .core) (p_die : P .die) (p_home : P .home)
    (p_pass : P .pass) (p_mesa : P .mesa) (p_meter : P .meter) (p_qos : P .qos) (p_hzn : P .hzn) (p_xce : P .xce)
    (p_io : P .io) (p_ras : P .ras) (p_tvx : P .tvx) (p_ccol : P .ccol) :
    FrameOut P s0 (execDataE m s) := by
  unfold execDataE
  try dsimp only
  with_reducible repeat' (first
    | intro _ | assumption | exact State.Frame.refl _ | apply State.dataArrive_frame | apply State.demandMsg_frame
    | apply fo_next | apply fo_fault)

theorem execDataM_frame {s0 : State} {m : Msg} {s : State} (h0 : s0.Frame P s) (p_regs : P .regs) (p_mem : P .mem)
    (p_marked : P .marked) (p_net : P .net) (p_free : P .free) (p_core : P .core) (p_die : P .die) (p_home : P .home)
    (p_pass : P .pass) (p_mesa : P .mesa) (p_meter : P .meter) (p_qos : P .qos) (p_hzn : P .hzn) (p_xce : P .xce)
    (p_io : P .io) (p_ras : P .ras) (p_tvx : P .tvx) (p_ccol : P .ccol) :
    FrameOut P s0 (execDataM m s) := by
  unfold execDataM
  try dsimp only
  with_reducible repeat' (first
    | intro _ | assumption | exact State.Frame.refl _ | apply State.dataArrive_frame | apply State.demandMsg_frame
    | apply fo_next | apply fo_fault)

theorem execDataO_frame {s0 : State} {m : Msg} {s : State} (h0 : s0.Frame P s) (p_regs : P .regs) (p_mem : P .mem)
    (p_marked : P .marked) (p_net : P .net) (p_free : P .free) (p_core : P .core) (p_die : P .die) (p_home : P .home)
    (p_pass : P .pass) (p_mesa : P .mesa) (p_meter : P .meter) (p_qos : P .qos) (p_hzn : P .hzn) (p_xce : P .xce)
    (p_io : P .io) (p_ras : P .ras) (p_tvx : P .tvx) (p_ccol : P .ccol) :
    FrameOut P s0 (execDataO m s) := by
  unfold execDataO
  try dsimp only
  with_reducible repeat' (first
    | intro _ | assumption | exact State.Frame.refl _ | apply State.dataArrive_frame | apply State.demandMsg_frame
    | apply fo_next | apply fo_fault)

theorem execDieL2Miss_frame {s0 : State} {h : Hart} {s : State} (h0 : s0.Frame P s) (p_regs : P .regs) (p_mem : P .mem)
    (p_marked : P .marked) (p_net : P .net) (p_free : P .free) (p_core : P .core) (p_die : P .die) (p_home : P .home)
    (p_pass : P .pass) (p_mesa : P .mesa) (p_meter : P .meter) (p_qos : P .qos) (p_xce : P .xce) (p_io : P .io)
    (p_ras : P .ras) (p_tvx : P .tvx) :
    FrameOut P s0 (execDieL2Miss h s) := by
  unfold execDieL2Miss
  try dsimp only
  with_reducible repeat' (first
    | intro _ | assumption | exact State.Frame.refl _ | apply State.dieServe_frame | apply State.demand_frame
    | apply State.tryHart_frame | apply fo_next | apply fo_fault | split)

theorem execFlushWalkLine_frame {s0 : State} {u : FlushUnit} {s : State} (h0 : s0.Frame P s) (p_regs : P .regs)
    (p_mem : P .mem) (p_marked : P .marked) (p_net : P .net) (p_free : P .free) (p_core : P .core) (p_die : P .die)
    (p_home : P .home) (p_pass : P .pass) (p_mesa : P .mesa) (p_meter : P .meter) (p_qos : P .qos) (p_xce : P .xce)
    (p_io : P .io) (p_ras : P .ras) (p_tvx : P .tvx) :
    FrameOut P s0 (execFlushWalkLine u s) := by
  unfold execFlushWalkLine
  try dsimp only
  with_reducible repeat' (first
    | intro _ | assumption | exact State.Frame.refl _ | apply State.flushWalkLine_frame | apply State.demandFlush_frame
    | apply fo_next | apply fo_fault)

theorem execL2Eviction_frame {s0 : State} {h : Hart} {line : Nat} {s : State} (h0 : s0.Frame P s) (p_regs : P .regs)
    (p_mem : P .mem) (p_marked : P .marked) (p_net : P .net) (p_free : P .free) (p_core : P .core) (p_die : P .die)
    (p_home : P .home) (p_pass : P .pass) (p_mesa : P .mesa) (p_meter : P .meter) (p_qos : P .qos) (p_xce : P .xce)
    (p_io : P .io) (p_ras : P .ras) (p_tvx : P .tvx) :
    FrameOut P s0 (execL2Eviction h line s) := by
  unfold execL2Eviction
  try dsimp only
  with_reducible repeat' (first
    | intro _ | assumption | exact State.Frame.refl _ | apply execTokenWatchdogExpiry_frame | apply State.l2Evict_frame
    | apply State.demand_frame | apply fo_ite | apply f_ite | apply fo_next | apply fo_fault
    | refine f_of_next (by assumption) ?_ | split)

theorem execValeCacheEviction_frame {s0 : State} {d : Die} {line : Nat} {s : State} (h0 : s0.Frame P s) (p_regs : P .regs)
    (p_mem : P .mem) (p_marked : P .marked) (p_net : P .net) (p_free : P .free) (p_core : P .core) (p_die : P .die)
    (p_home : P .home) (p_pass : P .pass) (p_mesa : P .mesa) (p_meter : P .meter) (p_qos : P .qos) (p_xce : P .xce)
    (p_io : P .io) (p_ras : P .ras) (p_tvx : P .tvx) :
    FrameOut P s0 (execValeCacheEviction d line s) := by
  unfold execValeCacheEviction
  try dsimp only
  with_reducible repeat' (first
    | intro _ | assumption | exact State.Frame.refl _ | apply execTokenWatchdogExpiry_frame | apply State.vcEvict_frame
    | apply State.demand_frame | apply fo_ite | apply f_ite | apply fo_next | apply fo_fault
    | refine f_of_next (by assumption) ?_ | split)

end Sys2Proof.Machine
end

