-- ==== Sys2Proof/Laws/FrameRegWrite.lean ====
section
/-!
SUPPORT. What each function of Machine/RegWrite.lean leaves alone (`State.Frame`, Safety.lean): one lemma for each.
-/

namespace Sys2Proof.Machine

variable {P : Part → Prop}

theorem Out.andThen_frame {s0 : State} {o : Out} {f : State → Out} (h0 : FrameOut P s0 o)
    (hp_f : ∀ (u : State) (y0 : State), u.Frame P y0 → FrameOut P u (f y0)) :
    FrameOut P s0 (Out.andThen o f) := by
  unfold Out.andThen
  cases o with
  | next t => exact hp_f s0 t (h0 t rfl)
  | fault r => intro u he; cases he
  | refused r => intro u he; cases he


theorem Out.each_frame {s0 : State} {o : Out} {n : Nat} {f : Nat → State → Out} (h0 : FrameOut P s0 o)
    (hp_f : ∀ (u : State) (y0 : Nat) (y1 : State), u.Frame P y1 → FrameOut P u (f y0 y1)) :
    FrameOut P s0 (Out.each o n f) := by
  unfold Out.each
  try dsimp only
  with_reducible repeat' (first
    | intro _ | assumption | exact State.Frame.refl _ | apply Out.andThen_frame | apply hp_f | apply f_foldl | apply fo_next
    | apply fo_fault | apply fo_foldl)

theorem wayBitsWrite_frame {s0 : State} {o : Out} {n : Nat} {x : RWrite} {set : Nat → State → Out}
    {clear : Nat → State → Out} (h0 : FrameOut P s0 o)
    (hp_set : ∀ (u : State) (y0 : Nat) (y1 : State), u.Frame P y1 → FrameOut P u (set y0 y1))
    (hp_clear : ∀ (u : State) (y0 : Nat) (y1 : State), u.Frame P y1 → FrameOut P u (clear y0 y1)) :
    FrameOut P s0 (wayBitsWrite o n x set clear) := by
  unfold wayBitsWrite
  try dsimp only
  with_reducible repeat' (first
    | intro _ | assumption | exact State.Frame.refl _ | apply Out.each_frame | apply hp_set | apply hp_clear | apply fo_next
    | apply fo_fault | refine f_of_next (by assumption) ?_ | split)

theorem coreCtlWrite_frame {s0 : State} {n : Nat} {i : Nat} {x : RWrite} {s : State} (h0 : s0.Frame P s) (p_regs : P .regs)
    (p_core : P .core) (p_die : P .die) (p_tvx : P .tvx) :
    FrameOut P s0 (coreCtlWrite n i x s) := by
  unfold coreCtlWrite
  try dsimp only
  with_reducible repeat' (first
    | intro _ | assumption | exact State.Frame.refl _ | apply execCoreRetire_frame | apply execCoreOffline_frame
    | apply execCoreOnline_frame | apply execCoreReset_frame | apply fo_ite | apply f_ite | apply fo_next | apply fo_fault
    | refine f_of_next (by assumption) ?_ | split)

theorem vcCtlWrite_frame {s0 : State} {n : Nat} {i : Nat} {x : RWrite} {s : State} (h0 : s0.Frame P s) (p_regs : P .regs)
    (p_die : P .die) :
    FrameOut P s0 (vcCtlWrite n i x s) := by
  unfold vcCtlWrite
  try dsimp only
  with_reducible repeat' (first
    | intro _ | assumption | exact State.Frame.refl _ | apply coreCtlWrite_frame | apply Out.andThen_frame
    | apply wayBitsWrite_frame | apply execVcWayDisable_frame | apply execVcWayEnable_frame | apply execVcSliceDisable_frame
    | apply execVcSliceEnable_frame | apply fo_next | apply fo_fault | refine f_of_next (by assumption) ?_ | split)

theorem passCtlWrite_frame {s0 : State} {p : Nat} {x : RWrite} {s : State} (h0 : s0.Frame P s) (p_regs : P .regs)
    (p_mem : P .mem) (p_marked : P .marked) (p_net : P .net) (p_free : P .free) (p_core : P .core) (p_die : P .die)
    (p_home : P .home) (p_pass : P .pass) (p_mesa : P .mesa) (p_meter : P .meter) (p_qos : P .qos) (p_io : P .io)
    (p_ras : P .ras) (p_tvx : P .tvx) :
    FrameOut P s0 (passCtlWrite p x s) := by
  unfold passCtlWrite
  try dsimp only
  with_reducible repeat' (first
    | intro _ | assumption | exact State.Frame.refl _ | apply State.put_frame | apply execPassFailGo_frame
    | apply Out.andThen_frame | apply execPassCtlFullTrain_frame | apply execPassCtlRetrain_frame | apply fo_ite
    | apply f_ite | apply fo_next | apply fo_fault)

theorem hznCtlWrite_frame {s0 : State} {a : Nat} {p : Nat} {x : RWrite} {s : State} (h0 : s0.Frame P s) (p_regs : P .regs)
    (p_net : P .net) (p_free : P .free) (p_pass : P .pass) (p_meter : P .meter) (p_qos : P .qos) (p_hzn : P .hzn)
    (p_ras : P .ras) (p_tvx : P .tvx) :
    FrameOut P s0 (hznCtlWrite a p x s) := by
  unfold hznCtlWrite
  try dsimp only
  with_reducible repeat' (first
    | intro _ | assumption | exact State.Frame.refl _ | apply State.setReg_frame | apply execClearMarks_frame
    | apply Out.andThen_frame | apply State.freeBit_frame | apply execHznEnableWrite_frame | apply execHznCtlRetrain_frame
    | apply execHznCtlFullTrain_frame | apply fo_ite | apply f_ite | apply f_ite_fst | apply f_ite_snd | apply fo_next
    | apply fo_fault | refine f_of_snd (by assumption) ?_ | refine f_of_fst (by assumption) ?_
    | refine f_of_some (by assumption) ?_ | refine f_of_next (by assumption) ?_ | split)

theorem qpCtlWrite_frame {s0 : State} {f : Nat} {q : Nat} {x : RWrite} {s : State} (h0 : s0.Frame P s) (p_regs : P .regs)
    (p_xce : P .xce) :
    FrameOut P s0 (qpCtlWrite f q x s) := by
  unfold qpCtlWrite
  try dsimp only
  with_reducible repeat' (first
    | intro _ | assumption | exact State.Frame.refl _ | apply hznCtlWrite_frame | apply State.put_frame
    | apply execQpEnable_frame | apply execQpDisable_frame | apply fo_ite | apply f_ite | apply fo_next | apply fo_fault)

theorem qpCfgWrite_frame {s0 : State} {a : Nat} {f : Nat} {q : Nat} {x : RWrite} {s : State} (h0 : s0.Frame P s)
    (p_regs : P .regs) :
    FrameOut P s0 (qpCfgWrite a f q x s) := by
  unfold qpCfgWrite
  try dsimp only
  with_reducible repeat' (first
    | intro _ | assumption | exact State.Frame.refl _ | apply State.setReg_frame | apply fo_ite | apply f_ite
    | apply fo_next | apply fo_fault)

theorem qpDbWrite_frame {s0 : State} {id : RegId} {f : Nat} {q : Nat} {x : RWrite} {s : State} (h0 : s0.Frame P s)
    (p_regs : P .regs) :
    FrameOut P s0 (qpDbWrite id f q x s) := by
  unfold qpDbWrite
  try dsimp only
  with_reducible repeat' (first
    | intro _ | assumption | exact State.Frame.refl _ | apply qpCtlWrite_frame | apply hznCtlWrite_frame
    | apply execQpSqDb_frame | apply execQpCqDb_frame | apply execQpRqDb_frame | apply fo_ite | apply f_ite | apply fo_next
    | apply fo_fault | refine f_of_next (by assumption) ?_ | split)

theorem memberWrite_frame {s0 : State} {a : Nat} {i : Nat} {x : RWrite} {s : State} (h0 : s0.Frame P s) (p_regs : P .regs) :
    FrameOut P s0 (memberWrite a i x s) := by
  unfold memberWrite
  try dsimp only
  with_reducible repeat' (first
    | intro _ | assumption | exact State.Frame.refl _ | apply State.setReg_frame | apply execMemberAdmit_frame
    | apply coreCtlWrite_frame | apply execMemberFree_frame | apply fo_ite | apply f_ite | apply fo_next | apply fo_fault
    | refine f_of_next (by assumption) ?_ | split)

theorem islandWrite_frame {s0 : State} {a : Nat} {x : RWrite} {s : State} (h0 : s0.Frame P s) (p_regs : P .regs)
    (p_home : P .home) (p_hzn : P .hzn) :
    FrameOut P s0 (islandWrite a x s) := by
  unfold islandWrite
  try dsimp only
  with_reducible repeat' (first
    | intro _ | assumption | exact State.Frame.refl _ | apply State.setReg_frame | apply memberWrite_frame
    | apply execIslandJoin_frame | apply execIslandLeave_frame | apply fo_ite | apply f_ite | apply fo_next | apply fo_fault
    | refine f_of_next (by assumption) ?_ | split)

theorem regionWrite_frame {s0 : State} {a : Nat} {i : Nat} {x : RWrite} {s : State} (h0 : s0.Frame P s) (p_regs : P .regs)
    (p_home : P .home) :
    FrameOut P s0 (regionWrite a i x s) := by
  unfold regionWrite
  try dsimp only
  with_reducible repeat' (first
    | intro _ | assumption | exact State.Frame.refl _ | apply State.setReg_frame | apply memberWrite_frame
    | apply execCxlRegionOnline_frame | apply coreCtlWrite_frame | apply execCxlRegionOffline_frame | apply fo_ite
    | apply f_ite | apply fo_next | apply fo_fault | refine f_of_next (by assumption) ?_ | split)

theorem mesaCtlWrite_frame {s0 : State} {n : Nat} {x : RWrite} {s : State} (h0 : s0.Frame P s) (p_regs : P .regs)
    (p_mesa : P .mesa) :
    FrameOut P s0 (mesaCtlWrite n x s) := by
  unfold mesaCtlWrite
  try dsimp only
  with_reducible repeat' (first
    | intro _ | assumption | exact State.Frame.refl _ | apply State.put_frame | apply execVcDisableWrite_frame
    | apply vcCtlWrite_frame | apply fo_ite | apply f_ite | apply fo_next | apply fo_fault)

theorem nmiWrite_frame {s0 : State} {h : Nat} {x : RWrite} {s : State} (h0 : s0.Frame P s) (p_regs : P .regs)
    (p_free : P .free) (p_core : P .core) :
    FrameOut P s0 (nmiWrite h x s) := by
  unfold nmiWrite
  try dsimp only
  with_reducible repeat' (first
    | intro _ | assumption | exact State.Frame.refl _ | apply State.put_frame | apply State.raiseNmi_frame
    | apply State.setHart_frame | apply fo_ite | apply f_ite | apply fo_next | apply fo_fault | split)

theorem regAct_frame {s0 : State} {d : RegDesc} {ix : List Nat} {a : Nat} {x : RWrite} {s : State} (h0 : s0.Frame P s)
    (p_regs : P .regs) (p_mem : P .mem) (p_marked : P .marked) (p_net : P .net) (p_free : P .free) (p_core : P .core)
    (p_die : P .die) (p_home : P .home) (p_pass : P .pass) (p_chan : P .chan) (p_mesa : P .mesa) (p_meter : P .meter)
    (p_qos : P .qos) (p_hzn : P .hzn) (p_xce : P .xce) (p_io : P .io) (p_ras : P .ras) (p_tvx : P .tvx) (p_pwr : P .pwr) :
    FrameOut P s0 (regAct d ix a x s) := by
  unfold regAct
  try dsimp only
  with_reducible repeat' (first
    | (intro (p : Part) hp; cases p <;> first | rfl | contradiction) | intro _ | assumption | exact State.Frame.refl _
    | apply coreCtlWrite_frame | apply wayBitsWrite_frame | apply execL2WayDisable_frame | apply vcCtlWrite_frame
    | apply execL2WayEnable_frame | apply State.put_frame | apply passCtlWrite_frame | apply State.setReg_frame
    | apply execCopyStart_frame | apply mesaCtlWrite_frame | apply execMesaInvalidateAll_frame
    | apply execMesaWayDisable_frame | apply execMesaWayEnable_frame | apply hznCtlWrite_frame | apply islandWrite_frame
    | apply memberWrite_frame | apply State.intaUpdate_frame | apply qpDbWrite_frame | apply qpCtlWrite_frame
    | apply qpCfgWrite_frame | apply execXceWinCommit_frame | apply regionWrite_frame | apply execMboxTxGo_frame
    | apply execMboxRxAck_frame | apply execTimeSourceWrite_frame | apply execTimeStepFwd_frame
    | apply execCcolCountWrite_frame | apply execCcolSelectWrite_frame | apply fo_ite | apply f_ite | apply fo_next
    | apply fo_fault | refine f_of_next (by assumption) ?_
    | (apply f_mk; first | assumption | exact State.Frame.refl _ | apply coreCtlWrite_frame | apply wayBitsWrite_frame | apply execL2WayDisable_frame | apply vcCtlWrite_frame | apply execL2WayEnable_frame | apply State.put_frame | apply passCtlWrite_frame | apply State.setReg_frame | apply execCopyStart_frame | apply mesaCtlWrite_frame | apply execMesaInvalidateAll_frame | apply execMesaWayDisable_frame | apply execMesaWayEnable_frame | apply hznCtlWrite_frame | apply islandWrite_frame | apply memberWrite_frame | apply State.intaUpdate_frame | apply qpDbWrite_frame | apply qpCtlWrite_frame | apply qpCfgWrite_frame | apply execXceWinCommit_frame | apply regionWrite_frame | apply execMboxTxGo_frame | apply execMboxRxAck_frame | apply execTimeSourceWrite_frame | apply execTimeStepFwd_frame | apply execCcolCountWrite_frame | apply execCcolSelectWrite_frame | apply fo_ite | apply f_ite | apply fo_next | apply fo_fault)
    | split)

theorem qosWrite_frame {s0 : State} {k : QosCtl} {o : Nat} {a : Nat} {x : RWrite} {s : State} (h0 : s0.Frame P s)
    (p_regs : P .regs) (p_qos : P .qos) :
    FrameOut P s0 (qosWrite k o a x s) := by
  unfold qosWrite
  try dsimp only
  with_reducible repeat' (first
    | intro _ | assumption | exact State.Frame.refl _ | apply State.setReg_frame | apply State.qosReply_frame
    | apply execCbqriAllocConfig_frame | apply Out.andThen_frame | apply execCbqriAllocRead_frame
    | apply execCbqriMonitorConfig_frame | apply execCbqriMonitorRead_frame | apply fo_ite | apply f_ite | apply fo_next
    | apply fo_fault)

theorem bankWrite_frame {s0 : State} {b : Nat} {o : Nat} {x : RWrite} {s : State} (h0 : s0.Frame P s) (p_ras : P .ras) :
    FrameOut P s0 (bankWrite b o x s) := by
  unfold bankWrite
  try dsimp only
  with_reducible repeat' (first
    | (intro (p : Part) hp; cases p <;> first | rfl | contradiction) | intro _ | assumption | exact State.Frame.refl _
    | apply State.setRec_frame | apply fo_ite | apply f_ite | apply fo_next | apply fo_fault | apply f_mk)

theorem State.regWrite_frame {s0 : State} {s : State} {a : Nat} {size : Nat} {v : Word} (h0 : s0.Frame P s)
    (p_regs : P .regs) (p_mem : P .mem) (p_marked : P .marked) (p_net : P .net) (p_free : P .free) (p_core : P .core)
    (p_die : P .die) (p_home : P .home) (p_pass : P .pass) (p_chan : P .chan) (p_mesa : P .mesa) (p_meter : P .meter)
    (p_qos : P .qos) (p_hzn : P .hzn) (p_xce : P .xce) (p_io : P .io) (p_ras : P .ras) (p_tvx : P .tvx) (p_pwr : P .pwr) :
    FrameOut P s0 (State.regWrite s a size v) := by
  unfold State.regWrite
  try dsimp only
  with_reducible repeat' (first
    | intro _ | assumption | exact State.Frame.refl _ | apply regAct_frame | apply qosWrite_frame | apply bankWrite_frame
    | apply State.iommuWrite_frame | apply State.aplicWrite_frame | apply fo_ite | apply f_ite | apply fo_next
    | apply fo_fault | refine f_of_next (by assumption) ?_ | split)

theorem State.prsWrite_frame {s0 : State} {s : State} {o : Nat} {size : Nat} {v : Word} (h0 : s0.Frame P s)
    (p_regs : P .regs) (p_mem : P .mem) (p_marked : P .marked) (p_net : P .net) (p_free : P .free) (p_core : P .core)
    (p_die : P .die) (p_home : P .home) (p_pass : P .pass) (p_chan : P .chan) (p_mesa : P .mesa) (p_meter : P .meter)
    (p_qos : P .qos) (p_hzn : P .hzn) (p_xce : P .xce) (p_io : P .io) (p_ras : P .ras) (p_tvx : P .tvx) (p_pwr : P .pwr) :
    FrameOut P s0 (State.prsWrite s o size v) := by
  unfold State.prsWrite
  try dsimp only
  with_reducible repeat' (first
    | intro _ | assumption | exact State.Frame.refl _ | apply State.regWrite_frame | apply fo_ite | apply f_ite
    | apply fo_next | apply fo_fault)

theorem State.msixWrite_frame {s0 : State} {s : State} {f : Nat} {o : Nat} {size : Nat} {v : Word} (h0 : s0.Frame P s)
    (p_regs : P .regs) (p_net : P .net) (p_free : P .free) (p_pass : P .pass) (p_xce : P .xce) (p_io : P .io) :
    FrameOut P s0 (State.msixWrite s f o size v) := by
  unfold State.msixWrite
  try dsimp only
  with_reducible repeat' (first
    | intro _ | assumption | exact State.Frame.refl _ | apply State.setMsixE_frame | apply execMsixVectorUnmask_frame
    | apply qpCtlWrite_frame | apply fo_ite | apply f_ite | apply fo_next | apply fo_fault)

theorem State.barWrite_frame {s0 : State} {s : State} {bar : Nat} {off : Nat} {size : Nat} {v : Word} (h0 : s0.Frame P s)
    (p_regs : P .regs) (p_mem : P .mem) (p_marked : P .marked) (p_net : P .net) (p_free : P .free) (p_core : P .core)
    (p_die : P .die) (p_home : P .home) (p_pass : P .pass) (p_chan : P .chan) (p_mesa : P .mesa) (p_meter : P .meter)
    (p_qos : P .qos) (p_hzn : P .hzn) (p_xce : P .xce) (p_io : P .io) (p_ras : P .ras) (p_tvx : P .tvx) (p_pwr : P .pwr) :
    FrameOut P s0 (State.barWrite s bar off size v) := by
  unfold State.barWrite
  try dsimp only
  with_reducible repeat' (first
    | intro _ | assumption | exact State.Frame.refl _ | apply State.regWrite_frame | apply Out.andThen_frame
    | apply State.msixWrite_frame | apply fo_ite | apply f_ite | apply fo_next | apply fo_fault)

end Sys2Proof.Machine
end

