-- ==== Sys2Proof/Laws/FrameCsr.lean ====
section
/-!
SUPPORT. What each function of Machine/Csr.lean leaves alone (`State.Frame`, Safety.lean): one lemma for each.
-/

namespace Sys2Proof.Machine

variable {P : Part → Prop}

theorem State.statusWrite_frame {s0 : State} {s : State} {a : Nat} {w : RWrite} (h0 : s0.Frame P s) (p_regs : P .regs) :
    s0.Frame P (State.statusWrite s a w) := by
  unfold State.statusWrite
  try dsimp only
  with_reducible repeat' (first | intro _ | assumption | exact State.Frame.refl _ | apply State.setReg_frame | apply f_ite)

theorem State.csrWrite_frame {s0 : State} {s : State} {h : Hart} {p : Priv} {n : Nat} {v : Word} (h0 : s0.Frame P s)
    (p_regs : P .regs) (p_free : P .free) (p_core : P .core) :
    FrameOut P s0 (State.csrWrite s h p n v) := by
  unfold State.csrWrite
  try dsimp only
  with_reducible repeat' (first
    | intro _ | assumption | exact State.Frame.refl _ | apply execSrmcfgWrite_frame | apply execCoreFreqReqWrite_frame
    | apply Out.andThen_frame | apply nmiWrite_frame | apply State.retired_frame | apply State.setReg_frame
    | apply State.setHart_frame | apply State.statusWrite_frame | apply fo_ite | apply f_ite | apply fo_next
    | apply fo_fault | refine f_of_next (by assumption) ?_ | split)

theorem State.csrInstr_frame {s0 : State} {s : State} {h : Hart} {p : Priv} {op : CsrOp} {n : Nat} {v : Word}
    (h0 : s0.Frame P s) (p_regs : P .regs) (p_free : P .free) (p_core : P .core) :
    FrameOut P s0 (State.csrInstr s h p op n v) := by
  unfold State.csrInstr
  try dsimp only
  with_reducible repeat' (first
    | intro _ | assumption | exact State.Frame.refl _ | apply State.csrTrap_frame | apply State.setHart_frame
    | apply State.retired_frame | apply State.csrWrite_frame | apply fo_next | apply fo_fault
    | refine f_of_next (by assumption) ?_ | split)

end Sys2Proof.Machine
end

