-- ==== Sys2Proof/Laws/FrameAccess.lean ====
section
/-!
SUPPORT. What each function of Machine/Access.lean leaves alone (`State.Frame`, Safety.lean): one lemma for each.
-/

namespace Sys2Proof.Machine

variable {P : Part → Prop}

theorem State.issue_frame {s0 : State} {s : State} {h : Hart} {x : Access} {ok : Bool} {go : State → Out}
    (h0 : s0.Frame P s) (hp_go : ∀ (u : State) (y0 : State), u.Frame P y0 → FrameOut P u (go y0)) (p_regs : P .regs)
    (p_mem : P .mem) (p_marked : P .marked) (p_net : P .net) (p_free : P .free) (p_core : P .core) (p_die : P .die)
    (p_home : P .home) (p_pass : P .pass) (p_mesa : P .mesa) (p_meter : P .meter) (p_qos : P .qos) (p_xce : P .xce)
    (p_io : P .io) (p_ras : P .ras) (p_tvx : P .tvx) :
    FrameOut P s0 (State.issue s h x ok go) := by
  unfold State.issue
  try dsimp only
  with_reducible repeat' (first
    | intro _ | assumption | exact State.Frame.refl _ | apply State.demandHart_frame | apply hp_go | apply fo_ite
    | apply f_ite | apply fo_next | apply fo_fault)

theorem State.hartFault_frame {s0 : State} {s : State} {h : Nat} {cause : Nat} {tcause : Nat} {x : Access} {write : Bool}
    (h0 : s0.Frame P s) (p_regs : P .regs) (p_free : P .free) (p_core : P .core) (p_pass : P .pass) (p_ras : P .ras)
    (p_tvx : P .tvx) :
    s0.Frame P (State.hartFault s h cause tcause x write) := by
  unfold State.hartFault
  try dsimp only
  with_reducible repeat' (first
    | intro _ | assumption | exact State.Frame.refl _ | apply State.trapHart_frame | apply State.hartRecord_frame
    | apply State.decodeErr_frame)

theorem State.sizeFault_frame {s0 : State} {s : State} {h : Nat} {tcause : Nat} {x : Access} {write : Bool}
    (h0 : s0.Frame P s) (p_regs : P .regs) (p_free : P .free) (p_core : P .core) :
    s0.Frame P (State.sizeFault s h tcause x write) := by
  unfold State.sizeFault
  try dsimp only
  with_reducible repeat' (first | intro _ | assumption | exact State.Frame.refl _ | apply State.trapHart_frame | apply State.decodeErr_frame)

theorem State.translated_frame {s0 : State} {s : State} {h : Nat} {c : Nat} {x : Access} {go : Out} (h0 : s0.Frame P s)
    (hp_go : FrameOut P s0 go) (p_regs : P .regs) (p_free : P .free) (p_core : P .core) :
    FrameOut P s0 (State.translated s h c x go) := by
  unfold State.translated
  try dsimp only
  with_reducible repeat' (first
    | intro _ | assumption | exact State.Frame.refl _ | apply State.trapHart_frame | apply hp_go | apply fo_next
    | apply fo_fault | split)

theorem State.memAccess_frame {s0 : State} {s : State} {h : Nat} {k : AKind} {x : Access} {op : Nat} {v : Nat} {cmp : Nat}
    (h0 : s0.Frame P s) (p_regs : P .regs) (p_free : P .free) (p_core : P .core) (p_pass : P .pass) (p_ras : P .ras)
    (p_tvx : P .tvx) :
    s0.Frame P (State.memAccess s h k x op v cmp) := by
  unfold State.memAccess
  try dsimp only
  with_reducible repeat' (first
    | intro _ | assumption | exact State.Frame.refl _ | apply State.trapHart_frame | apply State.hartFault_frame
    | apply State.memBegin_frame | apply f_ite | split)

theorem State.mmioLoad_frame {s0 : State} {s : State} {h : Hart} {x : Access} (h0 : s0.Frame P s) (p_regs : P .regs)
    (p_free : P .free) (p_core : P .core) (p_pass : P .pass) (p_hzn : P .hzn) (p_xce : P .xce) (p_ras : P .ras)
    (p_tvx : P .tvx) :
    FrameOut P s0 (State.mmioLoad s h x) := by
  unfold State.mmioLoad
  try dsimp only
  with_reducible repeat' (first
    | intro _ | assumption | exact State.Frame.refl _ | apply State.trapHart_frame | apply execBar2Load_frame
    | apply State.setOut_frame | apply State.retire_frame | apply State.containedRead_frame | apply State.setHart_frame
    | apply State.count_frame | apply fo_ite | apply f_ite | apply fo_next | apply fo_fault
    | refine f_of_next (by assumption) ?_ | split)

theorem State.ecamLoad_frame {s0 : State} {s : State} {h : Hart} {off : Nat} {x : Access} (h0 : s0.Frame P s)
    (p_regs : P .regs) (p_net : P .net) (p_free : P .free) (p_core : P .core) (p_pass : P .pass) (p_xce : P .xce)
    (p_io : P .io) :
    FrameOut P s0 (State.ecamLoad s h off x) := by
  unfold State.ecamLoad
  try dsimp only
  with_reducible repeat' (first
    | intro _ | assumption | exact State.Frame.refl _ | apply State.setOut_frame | apply State.retire_frame
    | apply State.trapHart_frame | apply execEcamConfigAccess_frame | apply State.setHart_frame | apply State.count_frame
    | apply State.mmioLoad_frame | apply fo_ite | apply f_ite | apply fo_next | apply fo_fault
    | refine f_of_next (by assumption) ?_ | split)

theorem State.irqLoad_frame {s0 : State} {s : State} {h : Nat} {x : Access} (h0 : s0.Frame P s) (p_regs : P .regs)
    (p_free : P .free) (p_core : P .core) (p_pass : P .pass) (p_ras : P .ras) (p_tvx : P .tvx) :
    s0.Frame P (State.irqLoad s h x) := by
  unfold State.irqLoad
  try dsimp only
  with_reducible repeat' (first
    | intro _ | assumption | exact State.Frame.refl _ | apply State.trapHart_frame | apply State.hartFault_frame
    | apply f_ite)

theorem State.regAsk_frame {s0 : State} {s : State} {h : Hart} {d : Nat} {o : Nat} {x : Access} {write : Option Word}
    (h0 : s0.Frame P s) (p_core : P .core) (p_pass : P .pass) :
    s0.Frame P (State.regAsk s h d o x write) := by
  unfold State.regAsk
  try dsimp only
  with_reducible repeat' (first
    | (intro (p : Part) hp; cases p <;> first | rfl | contradiction) | intro _ | assumption | exact State.Frame.refl _
    | apply State.setHart_frame | apply f_ite
    | (apply f_mk; first | assumption | exact State.Frame.refl _ | apply State.setHart_frame | apply f_ite) | split)

theorem State.prsLoad_frame {s0 : State} {s : State} {h : Hart} {o : Nat} {x : Access} (h0 : s0.Frame P s)
    (p_regs : P .regs) (p_free : P .free) (p_core : P .core) (p_pass : P .pass) (p_ras : P .ras) (p_tvx : P .tvx) :
    FrameOut P s0 (State.prsLoad s h o x) := by
  unfold State.prsLoad
  try dsimp only
  with_reducible repeat' (first
    | intro _ | assumption | exact State.Frame.refl _ | apply State.sizeFault_frame | apply State.hartFault_frame
    | apply State.regAsk_frame | apply State.setOut_frame | apply State.retire_frame | apply fo_ite | apply f_ite
    | apply fo_next | apply fo_fault | split)

theorem execHartLoad_frame {s0 : State} {h : Hart} {x : Access} {s : State} (h0 : s0.Frame P s) (p_regs : P .regs)
    (p_mem : P .mem) (p_marked : P .marked) (p_net : P .net) (p_free : P .free) (p_core : P .core) (p_die : P .die)
    (p_home : P .home) (p_pass : P .pass) (p_mesa : P .mesa) (p_meter : P .meter) (p_qos : P .qos) (p_hzn : P .hzn)
    (p_xce : P .xce) (p_io : P .io) (p_ras : P .ras) (p_tvx : P .tvx) :
    FrameOut P s0 (execHartLoad h x s) := by
  unfold execHartLoad
  try dsimp only
  with_reducible repeat' (first
    | intro _ | assumption | exact State.Frame.refl _ | apply State.issue_frame | apply State.translated_frame
    | apply State.memAccess_frame | apply State.mmioLoad_frame | apply State.ecamLoad_frame | apply State.prsLoad_frame
    | apply State.irqLoad_frame | apply State.hartFault_frame | apply fo_next | apply fo_fault
    | refine f_of_next (by assumption) ?_ | split)

theorem State.storeDone_frame {s0 : State} {s : State} {h : Nat} {x : Access} (h0 : s0.Frame P s) (p_regs : P .regs)
    (p_core : P .core) :
    s0.Frame P (State.storeDone s h x) := by
  unfold State.storeDone
  try dsimp only
  with_reducible repeat' (first | intro _ | assumption | exact State.Frame.refl _ | apply State.setOut_frame | apply State.retire_frame)

theorem State.mmioStore_frame {s0 : State} {s : State} {h : Hart} {x : Access} {v : Nat} (h0 : s0.Frame P s)
    (p_regs : P .regs) (p_mem : P .mem) (p_marked : P .marked) (p_net : P .net) (p_free : P .free) (p_core : P .core)
    (p_die : P .die) (p_home : P .home) (p_pass : P .pass) (p_chan : P .chan) (p_mesa : P .mesa) (p_meter : P .meter)
    (p_qos : P .qos) (p_hzn : P .hzn) (p_xce : P .xce) (p_io : P .io) (p_ras : P .ras) (p_tvx : P .tvx) (p_pwr : P .pwr) :
    FrameOut P s0 (State.mmioStore s h x v) := by
  unfold State.mmioStore
  try dsimp only
  with_reducible repeat' (first
    | (intro (p : Part) hp; cases p <;> first | rfl | contradiction) | intro _ | assumption | exact State.Frame.refl _
    | apply State.trapHart_frame | apply State.mmioLoad_frame | apply execBar2Store_frame | apply Out.andThen_frame
    | apply State.barWrite_frame | apply State.storeDone_frame | apply State.portErr_frame | apply State.count_frame
    | apply fo_ite | apply f_ite | apply fo_next | apply fo_fault | refine f_of_next (by assumption) ?_
    | (apply f_mk; first | assumption | exact State.Frame.refl _ | apply State.trapHart_frame | apply State.mmioLoad_frame | apply execBar2Store_frame | apply Out.andThen_frame | apply State.barWrite_frame | apply State.storeDone_frame | apply State.portErr_frame | apply State.count_frame | apply fo_ite | apply f_ite | apply fo_next | apply fo_fault)
    | split)

theorem State.ecamStore_frame {s0 : State} {s : State} {h : Hart} {off : Nat} {x : Access} {v : Nat} (h0 : s0.Frame P s)
    (p_regs : P .regs) (p_net : P .net) (p_free : P .free) (p_core : P .core) (p_pass : P .pass) (p_xce : P .xce)
    (p_io : P .io) (p_ras : P .ras) (p_tvx : P .tvx) :
    FrameOut P s0 (State.ecamStore s h off x v) := by
  unfold State.ecamStore
  try dsimp only
  with_reducible repeat' (first
    | (intro (p : Part) hp; cases p <;> first | rfl | contradiction) | intro _ | assumption | exact State.Frame.refl _
    | apply State.trapHart_frame | apply execEcamConfigAccess_frame | apply State.retire_frame
    | apply State.rootCfgWrite_frame | apply State.storeDone_frame | apply State.ecamLoad_frame | apply State.portErr_frame
    | apply State.count_frame | apply fo_ite | apply f_ite | apply fo_next | apply fo_fault
    | refine f_of_snd (by assumption) ?_ | refine f_of_fst (by assumption) ?_ | refine f_of_some (by assumption) ?_
    | refine f_of_next (by assumption) ?_
    | (apply f_mk; first | assumption | exact State.Frame.refl _ | apply State.trapHart_frame | apply execEcamConfigAccess_frame | apply State.retire_frame | apply State.rootCfgWrite_frame | apply State.storeDone_frame | apply State.ecamLoad_frame | apply State.portErr_frame | apply State.count_frame | apply fo_ite | apply f_ite | apply fo_next | apply fo_fault)
    | split)

theorem State.prsStore_frame {s0 : State} {s : State} {h : Hart} {o : Nat} {x : Access} {v : Word} (h0 : s0.Frame P s)
    (p_regs : P .regs) (p_mem : P .mem) (p_marked : P .marked) (p_net : P .net) (p_free : P .free) (p_core : P .core)
    (p_die : P .die) (p_home : P .home) (p_pass : P .pass) (p_chan : P .chan) (p_mesa : P .mesa) (p_meter : P .meter)
    (p_qos : P .qos) (p_hzn : P .hzn) (p_xce : P .xce) (p_io : P .io) (p_ras : P .ras) (p_tvx : P .tvx) (p_pwr : P .pwr) :
    FrameOut P s0 (State.prsStore s h o x v) := by
  unfold State.prsStore
  try dsimp only
  with_reducible repeat' (first
    | intro _ | assumption | exact State.Frame.refl _ | apply State.sizeFault_frame | apply State.hartFault_frame
    | apply State.regAsk_frame | apply Out.andThen_frame | apply State.prsWrite_frame | apply State.storeDone_frame
    | apply fo_ite | apply f_ite | apply fo_next | apply fo_fault | refine f_of_next (by assumption) ?_ | split)

theorem execHartStore_frame {s0 : State} {h : Hart} {x : Access} {v : Nat} {s : State} (h0 : s0.Frame P s)
    (p_regs : P .regs) (p_mem : P .mem) (p_marked : P .marked) (p_net : P .net) (p_free : P .free) (p_core : P .core)
    (p_die : P .die) (p_home : P .home) (p_pass : P .pass) (p_chan : P .chan) (p_mesa : P .mesa) (p_meter : P .meter)
    (p_qos : P .qos) (p_hzn : P .hzn) (p_xce : P .xce) (p_io : P .io) (p_ras : P .ras) (p_tvx : P .tvx) (p_pwr : P .pwr) :
    FrameOut P s0 (execHartStore h x v s) := by
  unfold execHartStore
  try dsimp only
  with_reducible repeat' (first
    | intro _ | assumption | exact State.Frame.refl _ | apply State.issue_frame | apply State.translated_frame
    | apply execHartLoad_frame | apply State.memAccess_frame | apply State.mmioStore_frame | apply State.ecamStore_frame
    | apply State.prsStore_frame | apply State.trapHart_frame | apply State.storeDone_frame | apply State.setPending_frame
    | apply State.hartFault_frame | apply fo_ite | apply f_ite | apply fo_next | apply fo_fault
    | refine f_of_next (by assumption) ?_ | split)

theorem execHartFetch_frame {s0 : State} {h : Hart} {x : Access} {s : State} (h0 : s0.Frame P s) (p_regs : P .regs)
    (p_mem : P .mem) (p_marked : P .marked) (p_net : P .net) (p_free : P .free) (p_core : P .core) (p_die : P .die)
    (p_home : P .home) (p_pass : P .pass) (p_mesa : P .mesa) (p_meter : P .meter) (p_qos : P .qos) (p_xce : P .xce)
    (p_io : P .io) (p_ras : P .ras) (p_tvx : P .tvx) :
    FrameOut P s0 (execHartFetch h x s) := by
  unfold execHartFetch
  try dsimp only
  with_reducible repeat' (first
    | intro _ | assumption | exact State.Frame.refl _ | apply State.issue_frame | apply State.translated_frame
    | apply State.memAccess_frame | apply State.hartFault_frame | apply fo_next | apply fo_fault
    | refine f_of_next (by assumption) ?_ | split)

theorem State.atomicOutside_frame {s0 : State} {s : State} {h : Nat} {c : Nat} {x : Access} {write : Bool} {z5 : Reach}
    (h0 : s0.Frame P s) (p_regs : P .regs) (p_free : P .free) (p_core : P .core) (p_pass : P .pass) (p_ras : P .ras)
    (p_tvx : P .tvx) :
    s0.Frame P (State.atomicOutside s h c x write z5) := by
  unfold State.atomicOutside
  try dsimp only
  with_reducible repeat' (first
    | intro _ | assumption | exact State.Frame.refl _ | apply State.hartFault_frame | apply State.sizeFault_frame
    | apply State.trapHart_frame | apply f_ite | split)

theorem execHartAmo_frame {s0 : State} {h : Hart} {x : Access} {op : Nat} {v : Nat} {cmp : Nat} {s : State}
    (h0 : s0.Frame P s) (p_regs : P .regs) (p_mem : P .mem) (p_marked : P .marked) (p_net : P .net) (p_free : P .free)
    (p_core : P .core) (p_die : P .die) (p_home : P .home) (p_pass : P .pass) (p_mesa : P .mesa) (p_meter : P .meter)
    (p_qos : P .qos) (p_xce : P .xce) (p_io : P .io) (p_ras : P .ras) (p_tvx : P .tvx) :
    FrameOut P s0 (execHartAmo h x op v cmp s) := by
  unfold execHartAmo
  try dsimp only
  with_reducible repeat' (first
    | intro _ | assumption | exact State.Frame.refl _ | apply State.issue_frame | apply State.translated_frame
    | apply State.memAccess_frame | apply State.atomicOutside_frame | apply fo_next | apply fo_fault
    | refine f_of_next (by assumption) ?_ | split)

theorem execLoadReserved_frame {s0 : State} {h : Hart} {x : Access} {s : State} (h0 : s0.Frame P s) (p_regs : P .regs)
    (p_mem : P .mem) (p_marked : P .marked) (p_net : P .net) (p_free : P .free) (p_core : P .core) (p_die : P .die)
    (p_home : P .home) (p_pass : P .pass) (p_mesa : P .mesa) (p_meter : P .meter) (p_qos : P .qos) (p_xce : P .xce)
    (p_io : P .io) (p_ras : P .ras) (p_tvx : P .tvx) :
    FrameOut P s0 (execLoadReserved h x s) := by
  unfold execLoadReserved
  try dsimp only
  with_reducible repeat' (first
    | intro _ | assumption | exact State.Frame.refl _ | apply State.issue_frame | apply State.translated_frame
    | apply execHartAmo_frame | apply State.memAccess_frame | apply State.atomicOutside_frame | apply fo_next
    | apply fo_fault | refine f_of_next (by assumption) ?_ | split)

theorem execStoreConditional_frame {s0 : State} {h : Hart} {x : Access} {v : Nat} {s : State} (h0 : s0.Frame P s)
    (p_regs : P .regs) (p_mem : P .mem) (p_marked : P .marked) (p_net : P .net) (p_free : P .free) (p_core : P .core)
    (p_die : P .die) (p_home : P .home) (p_pass : P .pass) (p_mesa : P .mesa) (p_meter : P .meter) (p_qos : P .qos)
    (p_xce : P .xce) (p_io : P .io) (p_ras : P .ras) (p_tvx : P .tvx) :
    FrameOut P s0 (execStoreConditional h x v s) := by
  unfold execStoreConditional
  try dsimp only
  with_reducible repeat' (first
    | intro _ | assumption | exact State.Frame.refl _ | apply State.issue_frame | apply State.translated_frame
    | apply State.memAccess_frame | apply State.setOut_frame | apply State.retire_frame | apply State.setHart_frame
    | apply execHartAmo_frame | apply State.atomicOutside_frame | apply fo_ite | apply f_ite | apply fo_next
    | apply fo_fault | refine f_of_next (by assumption) ?_ | split)

theorem execPrefetch_frame {s0 : State} {h : Hart} {x : Access} {op : PfOp} {src : PfBy} {s : State} (h0 : s0.Frame P s)
    (p_regs : P .regs) (p_mem : P .mem) (p_marked : P .marked) (p_net : P .net) (p_free : P .free) (p_core : P .core)
    (p_die : P .die) (p_home : P .home) (p_pass : P .pass) (p_mesa : P .mesa) (p_meter : P .meter) (p_qos : P .qos)
    (p_xce : P .xce) (p_io : P .io) (p_ras : P .ras) (p_tvx : P .tvx) :
    FrameOut P s0 (execPrefetch h x op src s) := by
  unfold execPrefetch
  try dsimp only
  with_reducible repeat' (first
    | intro _ | assumption | exact State.Frame.refl _ | apply State.issue_frame | apply State.retired_frame
    | apply execHartAmo_frame | apply State.memBegin_frame | apply fo_ite | apply f_ite | apply fo_next | apply fo_fault
    | refine f_of_next (by assumption) ?_ | split)

theorem State.cboRow_frame {s0 : State} {s : State} {h : Hart} {k : AKind} {f : Nat × Nat × Nat} {x : Access}
    (h0 : s0.Frame P s) (p_regs : P .regs) (p_mem : P .mem) (p_marked : P .marked) (p_net : P .net) (p_free : P .free)
    (p_core : P .core) (p_die : P .die) (p_home : P .home) (p_pass : P .pass) (p_mesa : P .mesa) (p_meter : P .meter)
    (p_qos : P .qos) (p_xce : P .xce) (p_io : P .io) (p_ras : P .ras) (p_tvx : P .tvx) :
    FrameOut P s0 (State.cboRow s h k f x) := by
  unfold State.cboRow
  try dsimp only
  with_reducible repeat' (first
    | intro _ | assumption | exact State.Frame.refl _ | apply State.issue_frame | apply State.regAsk_frame
    | apply State.csrTrap_frame | apply State.translated_frame | apply State.memBegin_frame | apply State.hartFault_frame
    | apply State.trapHart_frame | apply State.setOut_frame | apply State.retire_frame | apply fo_ite | apply f_ite
    | apply fo_next | apply fo_fault | refine f_of_next (by assumption) ?_ | split)

theorem execCboClean_frame {s0 : State} {h : Hart} {x : Access} {s : State} (h0 : s0.Frame P s) (p_regs : P .regs)
    (p_mem : P .mem) (p_marked : P .marked) (p_net : P .net) (p_free : P .free) (p_core : P .core) (p_die : P .die)
    (p_home : P .home) (p_pass : P .pass) (p_mesa : P .mesa) (p_meter : P .meter) (p_qos : P .qos) (p_xce : P .xce)
    (p_io : P .io) (p_ras : P .ras) (p_tvx : P .tvx) :
    FrameOut P s0 (execCboClean h x s) := by
  unfold execCboClean
  try dsimp only
  with_reducible repeat' (first | intro _ | assumption | exact State.Frame.refl _ | apply State.cboRow_frame | apply fo_next | apply fo_fault)

theorem execCboFlush_frame {s0 : State} {h : Hart} {x : Access} {s : State} (h0 : s0.Frame P s) (p_regs : P .regs)
    (p_mem : P .mem) (p_marked : P .marked) (p_net : P .net) (p_free : P .free) (p_core : P .core) (p_die : P .die)
    (p_home : P .home) (p_pass : P .pass) (p_mesa : P .mesa) (p_meter : P .meter) (p_qos : P .qos) (p_xce : P .xce)
    (p_io : P .io) (p_ras : P .ras) (p_tvx : P .tvx) :
    FrameOut P s0 (execCboFlush h x s) := by
  unfold execCboFlush
  try dsimp only
  with_reducible repeat' (first | intro _ | assumption | exact State.Frame.refl _ | apply State.cboRow_frame | apply fo_next | apply fo_fault)

theorem execCboInval_frame {s0 : State} {h : Hart} {x : Access} {s : State} (h0 : s0.Frame P s) (p_regs : P .regs)
    (p_mem : P .mem) (p_marked : P .marked) (p_net : P .net) (p_free : P .free) (p_core : P .core) (p_die : P .die)
    (p_home : P .home) (p_pass : P .pass) (p_mesa : P .mesa) (p_meter : P .meter) (p_qos : P .qos) (p_xce : P .xce)
    (p_io : P .io) (p_ras : P .ras) (p_tvx : P .tvx) :
    FrameOut P s0 (execCboInval h x s) := by
  unfold execCboInval
  try dsimp only
  with_reducible repeat' (first
    | intro _ | assumption | exact State.Frame.refl _ | apply State.cboRow_frame | apply fo_ite | apply f_ite
    | apply fo_next | apply fo_fault)

theorem execCboZero_frame {s0 : State} {h : Hart} {x : Access} {s : State} (h0 : s0.Frame P s) (p_regs : P .regs)
    (p_mem : P .mem) (p_marked : P .marked) (p_net : P .net) (p_free : P .free) (p_core : P .core) (p_die : P .die)
    (p_home : P .home) (p_pass : P .pass) (p_mesa : P .mesa) (p_meter : P .meter) (p_qos : P .qos) (p_xce : P .xce)
    (p_io : P .io) (p_ras : P .ras) (p_tvx : P .tvx) :
    FrameOut P s0 (execCboZero h x s) := by
  unfold execCboZero
  try dsimp only
  with_reducible repeat' (first
    | intro _ | assumption | exact State.Frame.refl _ | apply State.cboRow_frame | apply fo_ite | apply f_ite
    | apply fo_next | apply fo_fault)

theorem execRegisterWrite_frame {s0 : State} {h : Hart} {r : RegAcc} {s : State} (h0 : s0.Frame P s) (p_regs : P .regs)
    (p_mem : P .mem) (p_marked : P .marked) (p_net : P .net) (p_free : P .free) (p_core : P .core) (p_die : P .die)
    (p_home : P .home) (p_pass : P .pass) (p_chan : P .chan) (p_mesa : P .mesa) (p_meter : P .meter) (p_qos : P .qos)
    (p_hzn : P .hzn) (p_xce : P .xce) (p_io : P .io) (p_ras : P .ras) (p_tvx : P .tvx) (p_pwr : P .pwr) :
    FrameOut P s0 (execRegisterWrite h r s) := by
  unfold execRegisterWrite
  try dsimp only
  with_reducible repeat' (first
    | intro _ | assumption | exact State.Frame.refl _ | apply State.csrInstr_frame | apply State.prsStore_frame
    | apply Out.andThen_frame | apply State.barWrite_frame | apply State.retired_frame | apply fo_ite | apply f_ite
    | apply fo_next | apply fo_fault | refine f_of_next (by assumption) ?_ | split)

theorem State.takeMgt_frame {s0 : State} {s : State} {p : Nat} {m : Mgt} (h0 : s0.Frame P s) (p_pass : P .pass) :
    s0.Frame P (State.takeMgt s p m) := by
  unfold State.takeMgt
  try dsimp only
  with_reducible repeat' (first
    | (intro (p : Part) hp; cases p <;> first | rfl | contradiction) | intro _ | assumption | exact State.Frame.refl _
    | apply State.rxConsume_frame | apply f_mk)

theorem State.arriveMgt_frame {s0 : State} {s : State} {p : Nat} {m : Mgt} {row : Bool} {f : State → Out}
    (h0 : s0.Frame P s) (hp_f : ∀ (u : State) (y0 : State), u.Frame P y0 → FrameOut P u (f y0)) (p_regs : P .regs)
    (p_pass : P .pass) :
    FrameOut P s0 (State.arriveMgt s p m row f) := by
  unfold State.arriveMgt
  try dsimp only
  with_reducible repeat' (first
    | (intro (p : Part) hp; cases p <;> first | rfl | contradiction) | intro _ | assumption | exact State.Frame.refl _
    | apply State.takeMgt_frame | apply State.put_frame | apply hp_f | apply fo_ite | apply f_ite | apply fo_next
    | apply fo_fault | apply f_mk)

theorem State.regAnswer_frame {s0 : State} {s : State} {d : Nat} {m : Mgt} {v : Nat} {refused : Bool} (h0 : s0.Frame P s)
    (p_pass : P .pass) :
    s0.Frame P (State.regAnswer s d m v refused) := by
  unfold State.regAnswer
  try dsimp only
  with_reducible repeat' (first
    | (intro (p : Part) hp; cases p <;> first | rfl | contradiction) | intro _ | assumption | exact State.Frame.refl _
    | apply f_ite | apply f_mk)

theorem execRegRead_frame {s0 : State} {p : Port} {m : Mgt} {s : State} (h0 : s0.Frame P s) (p_regs : P .regs)
    (p_pass : P .pass) :
    FrameOut P s0 (execRegRead p m s) := by
  unfold execRegRead
  try dsimp only
  with_reducible repeat' (first
    | intro _ | assumption | exact State.Frame.refl _ | apply State.arriveMgt_frame | apply State.regAnswer_frame
    | apply fo_ite | apply f_ite | apply fo_next | apply fo_fault)

theorem execRegWrite_frame {s0 : State} {p : Port} {m : Mgt} {s : State} (h0 : s0.Frame P s) (p_regs : P .regs)
    (p_mem : P .mem) (p_marked : P .marked) (p_net : P .net) (p_free : P .free) (p_core : P .core) (p_die : P .die)
    (p_home : P .home) (p_pass : P .pass) (p_chan : P .chan) (p_mesa : P .mesa) (p_meter : P .meter) (p_qos : P .qos)
    (p_hzn : P .hzn) (p_xce : P .xce) (p_io : P .io) (p_ras : P .ras) (p_tvx : P .tvx) (p_pwr : P .pwr) :
    FrameOut P s0 (execRegWrite p m s) := by
  unfold execRegWrite
  try dsimp only
  with_reducible repeat' (first
    | intro _ | assumption | exact State.Frame.refl _ | apply State.arriveMgt_frame | apply State.regAnswer_frame
    | apply Out.andThen_frame | apply State.prsWrite_frame | apply fo_ite | apply f_ite | apply fo_next | apply fo_fault)

theorem execRegRsp_frame {s0 : State} {p : Port} {m : Mgt} {s : State} (h0 : s0.Frame P s) (p_regs : P .regs)
    (p_free : P .free) (p_core : P .core) (p_pass : P .pass) :
    FrameOut P s0 (execRegRsp p m s) := by
  unfold execRegRsp
  try dsimp only
  with_reducible repeat' (first
    | (intro (p : Part) hp; cases p <;> first | rfl | contradiction) | intro _ | assumption | exact State.Frame.refl _
    | apply State.arriveMgt_frame | apply State.regDone_frame | apply fo_next | apply fo_fault
    | refine f_of_next (by assumption) ?_
    | (apply f_mk; first | assumption | exact State.Frame.refl _ | apply State.arriveMgt_frame | apply State.regDone_frame | apply fo_next | apply fo_fault)
    | split)

theorem execMsiWrite_frame {s0 : State} {p : Port} {m : Mgt} {s : State} (h0 : s0.Frame P s) (p_regs : P .regs)
    (p_pass : P .pass) (p_io : P .io) :
    FrameOut P s0 (execMsiWrite p m s) := by
  unfold execMsiWrite
  try dsimp only
  with_reducible repeat' (first
    | (intro (p : Part) hp; cases p <;> first | rfl | contradiction) | intro _ | assumption | exact State.Frame.refl _
    | apply State.arriveMgt_frame | apply execRegRsp_frame | apply State.fileSet_frame | apply State.fileDrop_frame
    | apply fo_ite | apply f_ite | apply fo_next | apply fo_fault | refine f_of_next (by assumption) ?_
    | (apply f_mk; first | assumption | exact State.Frame.refl _ | apply State.arriveMgt_frame | apply execRegRsp_frame | apply State.fileSet_frame | apply State.fileDrop_frame | apply fo_ite | apply f_ite | apply fo_next | apply fo_fault)
    | split)

end Sys2Proof.Machine
end

