-- ==== Sys2Proof/Laws/State.lean ====
section
/-!
SUPPORT. What each update of the state leaves as it was: one lemma for each field that it does not write.
-/

namespace Sys2Proof.Machine

@[simp] theorem State.setReg_pending (s : State) (a : Nat) (v : Word) :
    (State.setReg s a v).pending = s.pending := Eq.trans rfl rfl
@[simp] theorem State.setReg_mem (s : State) (a : Nat) (v : Word) :
    (State.setReg s a v).mem = s.mem := Eq.trans rfl rfl
@[simp] theorem State.setReg_marked (s : State) (a : Nat) (v : Word) :
    (State.setReg s a v).marked = s.marked := Eq.trans rfl rfl
@[simp] theorem State.setReg_net (s : State) (a : Nat) (v : Word) :
    (State.setReg s a v).net = s.net := Eq.trans rfl rfl
@[simp] theorem State.setReg_free (s : State) (a : Nat) (v : Word) :
    (State.setReg s a v).free = s.free := Eq.trans rfl rfl
@[simp] theorem State.setReg_core (s : State) (a : Nat) (v : Word) :
    (State.setReg s a v).core = s.core := Eq.trans rfl rfl
@[simp] theorem State.setReg_die (s : State) (a : Nat) (v : Word) :
    (State.setReg s a v).die = s.die := Eq.trans rfl rfl
@[simp] theorem State.setReg_home (s : State) (a : Nat) (v : Word) :
    (State.setReg s a v).home = s.home := Eq.trans rfl rfl
@[simp] theorem State.setReg_pass (s : State) (a : Nat) (v : Word) :
    (State.setReg s a v).pass = s.pass := Eq.trans rfl rfl
@[simp] theorem State.setReg_chan (s : State) (a : Nat) (v : Word) :
    (State.setReg s a v).chan = s.chan := Eq.trans rfl rfl
@[simp] theorem State.setReg_mesa (s : State) (a : Nat) (v : Word) :
    (State.setReg s a v).mesa = s.mesa := Eq.trans rfl rfl
@[simp] theorem State.setReg_meter (s : State) (a : Nat) (v : Word) :
    (State.setReg s a v).meter = s.meter := Eq.trans rfl rfl
@[simp] theorem State.setReg_qos (s : State) (a : Nat) (v : Word) :
    (State.setReg s a v).qos = s.qos := Eq.trans rfl rfl
@[simp] theorem State.setReg_hzn (s : State) (a : Nat) (v : Word) :
    (State.setReg s a v).hzn = s.hzn := Eq.trans rfl rfl
@[simp] theorem State.setReg_xce (s : State) (a : Nat) (v : Word) :
    (State.setReg s a v).xce = s.xce := Eq.trans rfl rfl
@[simp] theorem State.setReg_io (s : State) (a : Nat) (v : Word) :
    (State.setReg s a v).io = s.io := Eq.trans rfl rfl
@[simp] theorem State.setReg_ras (s : State) (a : Nat) (v : Word) :
    (State.setReg s a v).ras = s.ras := Eq.trans rfl rfl
@[simp] theorem State.setReg_tvx (s : State) (a : Nat) (v : Word) :
    (State.setReg s a v).tvx = s.tvx := Eq.trans rfl rfl
@[simp] theorem State.setReg_pwr (s : State) (a : Nat) (v : Word) :
    (State.setReg s a v).pwr = s.pwr := Eq.trans rfl rfl
@[simp] theorem State.setReg_ccol (s : State) (a : Nat) (v : Word) :
    (State.setReg s a v).ccol = s.ccol := Eq.trans rfl rfl
@[simp] theorem State.setLineAt_pending (s : State) (a : Nat) (l : Line) :
    (State.setLineAt s a l).pending = s.pending := rfl
@[simp] theorem State.setLineAt_regs (s : State) (a : Nat) (l : Line) :
    (State.setLineAt s a l).regs = s.regs := rfl
@[simp] theorem State.setLineAt_net (s : State) (a : Nat) (l : Line) :
    (State.setLineAt s a l).net = s.net := rfl
@[simp] theorem State.setLineAt_free (s : State) (a : Nat) (l : Line) :
    (State.setLineAt s a l).free = s.free := rfl
@[simp] theorem State.setLineAt_core (s : State) (a : Nat) (l : Line) :
    (State.setLineAt s a l).core = s.core := rfl
@[simp] theorem State.setLineAt_die (s : State) (a : Nat) (l : Line) :
    (State.setLineAt s a l).die = s.die := rfl
@[simp] theorem State.setLineAt_home (s : State) (a : Nat) (l : Line) :
    (State.setLineAt s a l).home = s.home := rfl
@[simp] theorem State.setLineAt_pass (s : State) (a : Nat) (l : Line) :
    (State.setLineAt s a l).pass = s.pass := rfl
@[simp] theorem State.setLineAt_chan (s : State) (a : Nat) (l : Line) :
    (State.setLineAt s a l).chan = s.chan := rfl
@[simp] theorem State.setLineAt_mesa (s : State) (a : Nat) (l : Line) :
    (State.setLineAt s a l).mesa = s.mesa := rfl
@[simp] theorem State.setLineAt_meter (s : State) (a : Nat) (l : Line) :
    (State.setLineAt s a l).meter = s.meter := rfl
@[simp] theorem State.setLineAt_qos (s : State) (a : Nat) (l : Line) :
    (State.setLineAt s a l).qos = s.qos := rfl
@[simp] theorem State.setLineAt_hzn (s : State) (a : Nat) (l : Line) :
    (State.setLineAt s a l).hzn = s.hzn := rfl
@[simp] theorem State.setLineAt_xce (s : State) (a : Nat) (l : Line) :
    (State.setLineAt s a l).xce = s.xce := rfl
@[simp] theorem State.setLineAt_io (s : State) (a : Nat) (l : Line) :
    (State.setLineAt s a l).io = s.io := rfl
@[simp] theorem State.setLineAt_ras (s : State) (a : Nat) (l : Line) :
    (State.setLineAt s a l).ras = s.ras := rfl
@[simp] theorem State.setLineAt_tvx (s : State) (a : Nat) (l : Line) :
    (State.setLineAt s a l).tvx = s.tvx := rfl
@[simp] theorem State.setLineAt_pwr (s : State) (a : Nat) (l : Line) :
    (State.setLineAt s a l).pwr = s.pwr := rfl
@[simp] theorem State.setLineAt_ccol (s : State) (a : Nat) (l : Line) :
    (State.setLineAt s a l).ccol = s.ccol := rfl
@[simp] theorem State.setHart_pending (s : State) (h : Nat) (x : HartSt) :
    (State.setHart s h x).pending = s.pending := rfl
@[simp] theorem State.setHart_regs (s : State) (h : Nat) (x : HartSt) :
    (State.setHart s h x).regs = s.regs := rfl
@[simp] theorem State.setHart_mem (s : State) (h : Nat) (x : HartSt) :
    (State.setHart s h x).mem = s.mem := rfl
@[simp] theorem State.setHart_marked (s : State) (h : Nat) (x : HartSt) :
    (State.setHart s h x).marked = s.marked := rfl
@[simp] theorem State.setHart_net (s : State) (h : Nat) (x : HartSt) :
    (State.setHart s h x).net = s.net := rfl
@[simp] theorem State.setHart_free (s : State) (h : Nat) (x : HartSt) :
    (State.setHart s h x).free = s.free := rfl
@[simp] theorem State.setHart_die (s : State) (h : Nat) (x : HartSt) :
    (State.setHart s h x).die = s.die := rfl
@[simp] theorem State.setHart_home (s : State) (h : Nat) (x : HartSt) :
    (State.setHart s h x).home = s.home := rfl
@[simp] theorem State.setHart_pass (s : State) (h : Nat) (x : HartSt) :
    (State.setHart s h x).pass = s.pass := rfl
@[simp] theorem State.setHart_chan (s : State) (h : Nat) (x : HartSt) :
    (State.setHart s h x).chan = s.chan := rfl
@[simp] theorem State.setHart_mesa (s : State) (h : Nat) (x : HartSt) :
    (State.setHart s h x).mesa = s.mesa := rfl
@[simp] theorem State.setHart_meter (s : State) (h : Nat) (x : HartSt) :
    (State.setHart s h x).meter = s.meter := rfl
@[simp] theorem State.setHart_qos (s : State) (h : Nat) (x : HartSt) :
    (State.setHart s h x).qos = s.qos := rfl
@[simp] theorem State.setHart_hzn (s : State) (h : Nat) (x : HartSt) :
    (State.setHart s h x).hzn = s.hzn := rfl
@[simp] theorem State.setHart_xce (s : State) (h : Nat) (x : HartSt) :
    (State.setHart s h x).xce = s.xce := rfl
@[simp] theorem State.setHart_io (s : State) (h : Nat) (x : HartSt) :
    (State.setHart s h x).io = s.io := rfl
@[simp] theorem State.setHart_ras (s : State) (h : Nat) (x : HartSt) :
    (State.setHart s h x).ras = s.ras := rfl
@[simp] theorem State.setHart_tvx (s : State) (h : Nat) (x : HartSt) :
    (State.setHart s h x).tvx = s.tvx := rfl
@[simp] theorem State.setHart_pwr (s : State) (h : Nat) (x : HartSt) :
    (State.setHart s h x).pwr = s.pwr := rfl
@[simp] theorem State.setHart_ccol (s : State) (h : Nat) (x : HartSt) :
    (State.setHart s h x).ccol = s.ccol := rfl
@[simp] theorem State.setIng_pending (s : State) (g : Ingress) (x : IngSt) :
    (State.setIng s g x).pending = s.pending := by cases g <;> rfl
@[simp] theorem State.setIng_regs (s : State) (g : Ingress) (x : IngSt) :
    (State.setIng s g x).regs = s.regs := by cases g <;> rfl
@[simp] theorem State.setIng_mem (s : State) (g : Ingress) (x : IngSt) :
    (State.setIng s g x).mem = s.mem := by cases g <;> rfl
@[simp] theorem State.setIng_marked (s : State) (g : Ingress) (x : IngSt) :
    (State.setIng s g x).marked = s.marked := by cases g <;> rfl
@[simp] theorem State.setIng_net (s : State) (g : Ingress) (x : IngSt) :
    (State.setIng s g x).net = s.net := by cases g <;> rfl
@[simp] theorem State.setIng_free (s : State) (g : Ingress) (x : IngSt) :
    (State.setIng s g x).free = s.free := by cases g <;> rfl
@[simp] theorem State.setIng_core (s : State) (g : Ingress) (x : IngSt) :
    (State.setIng s g x).core = s.core := by cases g <;> rfl
@[simp] theorem State.setIng_die (s : State) (g : Ingress) (x : IngSt) :
    (State.setIng s g x).die = s.die := by cases g <;> rfl
@[simp] theorem State.setIng_home (s : State) (g : Ingress) (x : IngSt) :
    (State.setIng s g x).home = s.home := by cases g <;> rfl
@[simp] theorem State.setIng_pass (s : State) (g : Ingress) (x : IngSt) :
    (State.setIng s g x).pass = s.pass := by cases g <;> rfl
@[simp] theorem State.setIng_chan (s : State) (g : Ingress) (x : IngSt) :
    (State.setIng s g x).chan = s.chan := by cases g <;> rfl
@[simp] theorem State.setIng_mesa (s : State) (g : Ingress) (x : IngSt) :
    (State.setIng s g x).mesa = s.mesa := by cases g <;> rfl
@[simp] theorem State.setIng_meter (s : State) (g : Ingress) (x : IngSt) :
    (State.setIng s g x).meter = s.meter := by cases g <;> rfl
@[simp] theorem State.setIng_qos (s : State) (g : Ingress) (x : IngSt) :
    (State.setIng s g x).qos = s.qos := by cases g <;> rfl
@[simp] theorem State.setIng_hzn (s : State) (g : Ingress) (x : IngSt) :
    (State.setIng s g x).hzn = s.hzn := by cases g <;> rfl
@[simp] theorem State.setIng_xce (s : State) (g : Ingress) (x : IngSt) :
    (State.setIng s g x).xce = s.xce := by cases g <;> rfl
@[simp] theorem State.setIng_io (s : State) (g : Ingress) (x : IngSt) :
    (State.setIng s g x).io = s.io := by cases g <;> rfl
@[simp] theorem State.setIng_ras (s : State) (g : Ingress) (x : IngSt) :
    (State.setIng s g x).ras = s.ras := by cases g <;> rfl
@[simp] theorem State.setIng_pwr (s : State) (g : Ingress) (x : IngSt) :
    (State.setIng s g x).pwr = s.pwr := by cases g <;> rfl
@[simp] theorem State.setIng_ccol (s : State) (g : Ingress) (x : IngSt) :
    (State.setIng s g x).ccol = s.ccol := by cases g <;> rfl
@[simp] theorem State.setRec_pending (s : State) (b : Nat) (i : Nat) (r : ErrRec) :
    (State.setRec s b i r).pending = s.pending := rfl
@[simp] theorem State.setRec_regs (s : State) (b : Nat) (i : Nat) (r : ErrRec) :
    (State.setRec s b i r).regs = s.regs := rfl
@[simp] theorem State.setRec_mem (s : State) (b : Nat) (i : Nat) (r : ErrRec) :
    (State.setRec s b i r).mem = s.mem := rfl
@[simp] theorem State.setRec_marked (s : State) (b : Nat) (i : Nat) (r : ErrRec) :
    (State.setRec s b i r).marked = s.marked := rfl
@[simp] theorem State.setRec_net (s : State) (b : Nat) (i : Nat) (r : ErrRec) :
    (State.setRec s b i r).net = s.net := rfl
@[simp] theorem State.setRec_free (s : State) (b : Nat) (i : Nat) (r : ErrRec) :
    (State.setRec s b i r).free = s.free := rfl
@[simp] theorem State.setRec_core (s : State) (b : Nat) (i : Nat) (r : ErrRec) :
    (State.setRec s b i r).core = s.core := rfl
@[simp] theorem State.setRec_die (s : State) (b : Nat) (i : Nat) (r : ErrRec) :
    (State.setRec s b i r).die = s.die := rfl
@[simp] theorem State.setRec_home (s : State) (b : Nat) (i : Nat) (r : ErrRec) :
    (State.setRec s b i r).home = s.home := rfl
@[simp] theorem State.setRec_pass (s : State) (b : Nat) (i : Nat) (r : ErrRec) :
    (State.setRec s b i r).pass = s.pass := rfl
@[simp] theorem State.setRec_chan (s : State) (b : Nat) (i : Nat) (r : ErrRec) :
    (State.setRec s b i r).chan = s.chan := rfl
@[simp] theorem State.setRec_mesa (s : State) (b : Nat) (i : Nat) (r : ErrRec) :
    (State.setRec s b i r).mesa = s.mesa := rfl
@[simp] theorem State.setRec_meter (s : State) (b : Nat) (i : Nat) (r : ErrRec) :
    (State.setRec s b i r).meter = s.meter := rfl
@[simp] theorem State.setRec_qos (s : State) (b : Nat) (i : Nat) (r : ErrRec) :
    (State.setRec s b i r).qos = s.qos := rfl
@[simp] theorem State.setRec_hzn (s : State) (b : Nat) (i : Nat) (r : ErrRec) :
    (State.setRec s b i r).hzn = s.hzn := rfl
@[simp] theorem State.setRec_xce (s : State) (b : Nat) (i : Nat) (r : ErrRec) :
    (State.setRec s b i r).xce = s.xce := rfl
@[simp] theorem State.setRec_io (s : State) (b : Nat) (i : Nat) (r : ErrRec) :
    (State.setRec s b i r).io = s.io := rfl
@[simp] theorem State.setRec_tvx (s : State) (b : Nat) (i : Nat) (r : ErrRec) :
    (State.setRec s b i r).tvx = s.tvx := rfl
@[simp] theorem State.setRec_pwr (s : State) (b : Nat) (i : Nat) (r : ErrRec) :
    (State.setRec s b i r).pwr = s.pwr := rfl
@[simp] theorem State.setRec_ccol (s : State) (b : Nat) (i : Nat) (r : ErrRec) :
    (State.setRec s b i r).ccol = s.ccol := rfl
@[simp] theorem State.setBucket_pending (s : State) (k : Nat) (i : Nat) (b : Bucket) :
    (State.setBucket s k i b).pending = s.pending := rfl
@[simp] theorem State.setBucket_regs (s : State) (k : Nat) (i : Nat) (b : Bucket) :
    (State.setBucket s k i b).regs = s.regs := rfl
@[simp] theorem State.setBucket_mem (s : State) (k : Nat) (i : Nat) (b : Bucket) :
    (State.setBucket s k i b).mem = s.mem := rfl
@[simp] theorem State.setBucket_marked (s : State) (k : Nat) (i : Nat) (b : Bucket) :
    (State.setBucket s k i b).marked = s.marked := rfl
@[simp] theorem State.setBucket_net (s : State) (k : Nat) (i : Nat) (b : Bucket) :
    (State.setBucket s k i b).net = s.net := rfl
@[simp] theorem State.setBucket_free (s : State) (k : Nat) (i : Nat) (b : Bucket) :
    (State.setBucket s k i b).free = s.free := rfl
@[simp] theorem State.setBucket_core (s : State) (k : Nat) (i : Nat) (b : Bucket) :
    (State.setBucket s k i b).core = s.core := rfl
@[simp] theorem State.setBucket_die (s : State) (k : Nat) (i : Nat) (b : Bucket) :
    (State.setBucket s k i b).die = s.die := rfl
@[simp] theorem State.setBucket_home (s : State) (k : Nat) (i : Nat) (b : Bucket) :
    (State.setBucket s k i b).home = s.home := rfl
@[simp] theorem State.setBucket_pass (s : State) (k : Nat) (i : Nat) (b : Bucket) :
    (State.setBucket s k i b).pass = s.pass := rfl
@[simp] theorem State.setBucket_chan (s : State) (k : Nat) (i : Nat) (b : Bucket) :
    (State.setBucket s k i b).chan = s.chan := rfl
@[simp] theorem State.setBucket_mesa (s : State) (k : Nat) (i : Nat) (b : Bucket) :
    (State.setBucket s k i b).mesa = s.mesa := rfl
@[simp] theorem State.setBucket_meter (s : State) (k : Nat) (i : Nat) (b : Bucket) :
    (State.setBucket s k i b).meter = s.meter := rfl
@[simp] theorem State.setBucket_qos (s : State) (k : Nat) (i : Nat) (b : Bucket) :
    (State.setBucket s k i b).qos = s.qos := rfl
@[simp] theorem State.setBucket_hzn (s : State) (k : Nat) (i : Nat) (b : Bucket) :
    (State.setBucket s k i b).hzn = s.hzn := rfl
@[simp] theorem State.setBucket_xce (s : State) (k : Nat) (i : Nat) (b : Bucket) :
    (State.setBucket s k i b).xce = s.xce := rfl
@[simp] theorem State.setBucket_io (s : State) (k : Nat) (i : Nat) (b : Bucket) :
    (State.setBucket s k i b).io = s.io := rfl
@[simp] theorem State.setBucket_tvx (s : State) (k : Nat) (i : Nat) (b : Bucket) :
    (State.setBucket s k i b).tvx = s.tvx := rfl
@[simp] theorem State.setBucket_pwr (s : State) (k : Nat) (i : Nat) (b : Bucket) :
    (State.setBucket s k i b).pwr = s.pwr := rfl
@[simp] theorem State.setBucket_ccol (s : State) (k : Nat) (i : Nat) (b : Bucket) :
    (State.setBucket s k i b).ccol = s.ccol := rfl
@[simp] theorem State.setHPort_pending (s : State) (p : Nat) (x : HPortSt) :
    (State.setHPort s p x).pending = s.pending := rfl
@[simp] theorem State.setHPort_regs (s : State) (p : Nat) (x : HPortSt) :
    (State.setHPort s p x).regs = s.regs := rfl
@[simp] theorem State.setHPort_mem (s : State) (p : Nat) (x : HPortSt) :
    (State.setHPort s p x).mem = s.mem := rfl
@[simp] theorem State.setHPort_marked (s : State) (p : Nat) (x : HPortSt) :
    (State.setHPort s p x).marked = s.marked := rfl
@[simp] theorem State.setHPort_net (s : State) (p : Nat) (x : HPortSt) :
    (State.setHPort s p x).net = s.net := rfl
@[simp] theorem State.setHPort_free (s : State) (p : Nat) (x : HPortSt) :
    (State.setHPort s p x).free = s.free := rfl
@[simp] theorem State.setHPort_core (s : State) (p : Nat) (x : HPortSt) :
    (State.setHPort s p x).core = s.core := rfl
@[simp] theorem State.setHPort_die (s : State) (p : Nat) (x : HPortSt) :
    (State.setHPort s p x).die = s.die := rfl
@[simp] theorem State.setHPort_home (s : State) (p : Nat) (x : HPortSt) :
    (State.setHPort s p x).home = s.home := rfl
@[simp] theorem State.setHPort_pass (s : State) (p : Nat) (x : HPortSt) :
    (State.setHPort s p x).pass = s.pass := rfl
@[simp] theorem State.setHPort_chan (s : State) (p : Nat) (x : HPortSt) :
    (State.setHPort s p x).chan = s.chan := rfl
@[simp] theorem State.setHPort_mesa (s : State) (p : Nat) (x : HPortSt) :
    (State.setHPort s p x).mesa = s.mesa := rfl
@[simp] theorem State.setHPort_meter (s : State) (p : Nat) (x : HPortSt) :
    (State.setHPort s p x).meter = s.meter := rfl
@[simp] theorem State.setHPort_qos (s : State) (p : Nat) (x : HPortSt) :
    (State.setHPort s p x).qos = s.qos := rfl
@[simp] theorem State.setHPort_xce (s : State) (p : Nat) (x : HPortSt) :
    (State.setHPort s p x).xce = s.xce := rfl
@[simp] theorem State.setHPort_io (s : State) (p : Nat) (x : HPortSt) :
    (State.setHPort s p x).io = s.io := rfl
@[simp] theorem State.setHPort_ras (s : State) (p : Nat) (x : HPortSt) :
    (State.setHPort s p x).ras = s.ras := rfl
@[simp] theorem State.setHPort_tvx (s : State) (p : Nat) (x : HPortSt) :
    (State.setHPort s p x).tvx = s.tvx := rfl
@[simp] theorem State.setHPort_pwr (s : State) (p : Nat) (x : HPortSt) :
    (State.setHPort s p x).pwr = s.pwr := rfl
@[simp] theorem State.setHPort_ccol (s : State) (p : Nat) (x : HPortSt) :
    (State.setHPort s p x).ccol = s.ccol := rfl
@[simp] theorem State.setCfg_pending (s : State) (rid : Nat) (o : Nat) (v : Nat) :
    (State.setCfg s rid o v).pending = s.pending := rfl
@[simp] theorem State.setCfg_regs (s : State) (rid : Nat) (o : Nat) (v : Nat) :
    (State.setCfg s rid o v).regs = s.regs := rfl
@[simp] theorem State.setCfg_mem (s : State) (rid : Nat) (o : Nat) (v : Nat) :
    (State.setCfg s rid o v).mem = s.mem := rfl
@[simp] theorem State.setCfg_marked (s : State) (rid : Nat) (o : Nat) (v : Nat) :
    (State.setCfg s rid o v).marked = s.marked := rfl
@[simp] theorem State.setCfg_net (s : State) (rid : Nat) (o : Nat) (v : Nat) :
    (State.setCfg s rid o v).net = s.net := rfl
@[simp] theorem State.setCfg_free (s : State) (rid : Nat) (o : Nat) (v : Nat) :
    (State.setCfg s rid o v).free = s.free := rfl
@[simp] theorem State.setCfg_core (s : State) (rid : Nat) (o : Nat) (v : Nat) :
    (State.setCfg s rid o v).core = s.core := rfl
@[simp] theorem State.setCfg_die (s : State) (rid : Nat) (o : Nat) (v : Nat) :
    (State.setCfg s rid o v).die = s.die := rfl
@[simp] theorem State.setCfg_home (s : State) (rid : Nat) (o : Nat) (v : Nat) :
    (State.setCfg s rid o v).home = s.home := rfl
@[simp] theorem State.setCfg_pass (s : State) (rid : Nat) (o : Nat) (v : Nat) :
    (State.setCfg s rid o v).pass = s.pass := rfl
@[simp] theorem State.setCfg_chan (s : State) (rid : Nat) (o : Nat) (v : Nat) :
    (State.setCfg s rid o v).chan = s.chan := rfl
@[simp] theorem State.setCfg_mesa (s : State) (rid : Nat) (o : Nat) (v : Nat) :
    (State.setCfg s rid o v).mesa = s.mesa := rfl
@[simp] theorem State.setCfg_meter (s : State) (rid : Nat) (o : Nat) (v : Nat) :
    (State.setCfg s rid o v).meter = s.meter := rfl
@[simp] theorem State.setCfg_qos (s : State) (rid : Nat) (o : Nat) (v : Nat) :
    (State.setCfg s rid o v).qos = s.qos := rfl
@[simp] theorem State.setCfg_hzn (s : State) (rid : Nat) (o : Nat) (v : Nat) :
    (State.setCfg s rid o v).hzn = s.hzn := rfl
@[simp] theorem State.setCfg_xce (s : State) (rid : Nat) (o : Nat) (v : Nat) :
    (State.setCfg s rid o v).xce = s.xce := rfl
@[simp] theorem State.setCfg_ras (s : State) (rid : Nat) (o : Nat) (v : Nat) :
    (State.setCfg s rid o v).ras = s.ras := rfl
@[simp] theorem State.setCfg_tvx (s : State) (rid : Nat) (o : Nat) (v : Nat) :
    (State.setCfg s rid o v).tvx = s.tvx := rfl
@[simp] theorem State.setCfg_pwr (s : State) (rid : Nat) (o : Nat) (v : Nat) :
    (State.setCfg s rid o v).pwr = s.pwr := rfl
@[simp] theorem State.setCfg_ccol (s : State) (rid : Nat) (o : Nat) (v : Nat) :
    (State.setCfg s rid o v).ccol = s.ccol := rfl
@[simp] theorem State.setCapMask_pending (s : State) (c : Nat) (rcid : Nat) (m : Nat) :
    (State.setCapMask s c rcid m).pending = s.pending := rfl
@[simp] theorem State.setCapMask_regs (s : State) (c : Nat) (rcid : Nat) (m : Nat) :
    (State.setCapMask s c rcid m).regs = s.regs := rfl
@[simp] theorem State.setCapMask_mem (s : State) (c : Nat) (rcid : Nat) (m : Nat) :
    (State.setCapMask s c rcid m).mem = s.mem := rfl
@[simp] theorem State.setCapMask_marked (s : State) (c : Nat) (rcid : Nat) (m : Nat) :
    (State.setCapMask s c rcid m).marked = s.marked := rfl
@[simp] theorem State.setCapMask_net (s : State) (c : Nat) (rcid : Nat) (m : Nat) :
    (State.setCapMask s c rcid m).net = s.net := rfl
@[simp] theorem State.setCapMask_free (s : State) (c : Nat) (rcid : Nat) (m : Nat) :
    (State.setCapMask s c rcid m).free = s.free := rfl
@[simp] theorem State.setCapMask_core (s : State) (c : Nat) (rcid : Nat) (m : Nat) :
    (State.setCapMask s c rcid m).core = s.core := rfl
@[simp] theorem State.setCapMask_die (s : State) (c : Nat) (rcid : Nat) (m : Nat) :
    (State.setCapMask s c rcid m).die = s.die := rfl
@[simp] theorem State.setCapMask_home (s : State) (c : Nat) (rcid : Nat) (m : Nat) :
    (State.setCapMask s c rcid m).home = s.home := rfl
@[simp] theorem State.setCapMask_pass (s : State) (c : Nat) (rcid : Nat) (m : Nat) :
    (State.setCapMask s c rcid m).pass = s.pass := rfl
@[simp] theorem State.setCapMask_chan (s : State) (c : Nat) (rcid : Nat) (m : Nat) :
    (State.setCapMask s c rcid m).chan = s.chan := rfl
@[simp] theorem State.setCapMask_mesa (s : State) (c : Nat) (rcid : Nat) (m : Nat) :
    (State.setCapMask s c rcid m).mesa = s.mesa := rfl
@[simp] theorem State.setCapMask_meter (s : State) (c : Nat) (rcid : Nat) (m : Nat) :
    (State.setCapMask s c rcid m).meter = s.meter := rfl
@[simp] theorem State.setCapMask_hzn (s : State) (c : Nat) (rcid : Nat) (m : Nat) :
    (State.setCapMask s c rcid m).hzn = s.hzn := rfl
@[simp] theorem State.setCapMask_xce (s : State) (c : Nat) (rcid : Nat) (m : Nat) :
    (State.setCapMask s c rcid m).xce = s.xce := rfl
@[simp] theorem State.setCapMask_io (s : State) (c : Nat) (rcid : Nat) (m : Nat) :
    (State.setCapMask s c rcid m).io = s.io := rfl
@[simp] theorem State.setCapMask_ras (s : State) (c : Nat) (rcid : Nat) (m : Nat) :
    (State.setCapMask s c rcid m).ras = s.ras := rfl
@[simp] theorem State.setCapMask_tvx (s : State) (c : Nat) (rcid : Nat) (m : Nat) :
    (State.setCapMask s c rcid m).tvx = s.tvx := rfl
@[simp] theorem State.setCapMask_pwr (s : State) (c : Nat) (rcid : Nat) (m : Nat) :
    (State.setCapMask s c rcid m).pwr = s.pwr := rfl
@[simp] theorem State.setCapMask_ccol (s : State) (c : Nat) (rcid : Nat) (m : Nat) :
    (State.setCapMask s c rcid m).ccol = s.ccol := rfl
@[simp] theorem State.setBal_pending (s : State) (c : Nat) (rcid : Nat) (v : Int) :
    (State.setBal s c rcid v).pending = s.pending := rfl
@[simp] theorem State.setBal_regs (s : State) (c : Nat) (rcid : Nat) (v : Int) :
    (State.setBal s c rcid v).regs = s.regs := rfl
@[simp] theorem State.setBal_mem (s : State) (c : Nat) (rcid : Nat) (v : Int) :
    (State.setBal s c rcid v).mem = s.mem := rfl
@[simp] theorem State.setBal_marked (s : State) (c : Nat) (rcid : Nat) (v : Int) :
    (State.setBal s c rcid v).marked = s.marked := rfl
@[simp] theorem State.setBal_net (s : State) (c : Nat) (rcid : Nat) (v : Int) :
    (State.setBal s c rcid v).net = s.net := rfl
@[simp] theorem State.setBal_free (s : State) (c : Nat) (rcid : Nat) (v : Int) :
    (State.setBal s c rcid v).free = s.free := rfl
@[simp] theorem State.setBal_core (s : State) (c : Nat) (rcid : Nat) (v : Int) :
    (State.setBal s c rcid v).core = s.core := rfl
@[simp] theorem State.setBal_die (s : State) (c : Nat) (rcid : Nat) (v : Int) :
    (State.setBal s c rcid v).die = s.die := rfl
@[simp] theorem State.setBal_home (s : State) (c : Nat) (rcid : Nat) (v : Int) :
    (State.setBal s c rcid v).home = s.home := rfl
@[simp] theorem State.setBal_pass (s : State) (c : Nat) (rcid : Nat) (v : Int) :
    (State.setBal s c rcid v).pass = s.pass := rfl
@[simp] theorem State.setBal_chan (s : State) (c : Nat) (rcid : Nat) (v : Int) :
    (State.setBal s c rcid v).chan = s.chan := rfl
@[simp] theorem State.setBal_mesa (s : State) (c : Nat) (rcid : Nat) (v : Int) :
    (State.setBal s c rcid v).mesa = s.mesa := rfl
@[simp] theorem State.setBal_meter (s : State) (c : Nat) (rcid : Nat) (v : Int) :
    (State.setBal s c rcid v).meter = s.meter := rfl
@[simp] theorem State.setBal_hzn (s : State) (c : Nat) (rcid : Nat) (v : Int) :
    (State.setBal s c rcid v).hzn = s.hzn := rfl
@[simp] theorem State.setBal_xce (s : State) (c : Nat) (rcid : Nat) (v : Int) :
    (State.setBal s c rcid v).xce = s.xce := rfl
@[simp] theorem State.setBal_io (s : State) (c : Nat) (rcid : Nat) (v : Int) :
    (State.setBal s c rcid v).io = s.io := rfl
@[simp] theorem State.setBal_ras (s : State) (c : Nat) (rcid : Nat) (v : Int) :
    (State.setBal s c rcid v).ras = s.ras := rfl
@[simp] theorem State.setBal_tvx (s : State) (c : Nat) (rcid : Nat) (v : Int) :
    (State.setBal s c rcid v).tvx = s.tvx := rfl
@[simp] theorem State.setBal_pwr (s : State) (c : Nat) (rcid : Nat) (v : Int) :
    (State.setBal s c rcid v).pwr = s.pwr := rfl
@[simp] theorem State.setBal_ccol (s : State) (c : Nat) (rcid : Nat) (v : Int) :
    (State.setBal s c rcid v).ccol = s.ccol := rfl
@[simp] theorem State.setPool_pending (s : State) (c : Nat) (v : Nat) :
    (State.setPool s c v).pending = s.pending := rfl
@[simp] theorem State.setPool_regs (s : State) (c : Nat) (v : Nat) :
    (State.setPool s c v).regs = s.regs := rfl
@[simp] theorem State.setPool_mem (s : State) (c : Nat) (v : Nat) :
    (State.setPool s c v).mem = s.mem := rfl
@[simp] theorem State.setPool_marked (s : State) (c : Nat) (v : Nat) :
    (State.setPool s c v).marked = s.marked := rfl
@[simp] theorem State.setPool_net (s : State) (c : Nat) (v : Nat) :
    (State.setPool s c v).net = s.net := rfl
@[simp] theorem State.setPool_free (s : State) (c : Nat) (v : Nat) :
    (State.setPool s c v).free = s.free := rfl
@[simp] theorem State.setPool_core (s : State) (c : Nat) (v : Nat) :
    (State.setPool s c v).core = s.core := rfl
@[simp] theorem State.setPool_die (s : State) (c : Nat) (v : Nat) :
    (State.setPool s c v).die = s.die := rfl
@[simp] theorem State.setPool_home (s : State) (c : Nat) (v : Nat) :
    (State.setPool s c v).home = s.home := rfl
@[simp] theorem State.setPool_pass (s : State) (c : Nat) (v : Nat) :
    (State.setPool s c v).pass = s.pass := rfl
@[simp] theorem State.setPool_chan (s : State) (c : Nat) (v : Nat) :
    (State.setPool s c v).chan = s.chan := rfl
@[simp] theorem State.setPool_mesa (s : State) (c : Nat) (v : Nat) :
    (State.setPool s c v).mesa = s.mesa := rfl
@[simp] theorem State.setPool_meter (s : State) (c : Nat) (v : Nat) :
    (State.setPool s c v).meter = s.meter := rfl
@[simp] theorem State.setPool_hzn (s : State) (c : Nat) (v : Nat) :
    (State.setPool s c v).hzn = s.hzn := rfl
@[simp] theorem State.setPool_xce (s : State) (c : Nat) (v : Nat) :
    (State.setPool s c v).xce = s.xce := rfl
@[simp] theorem State.setPool_io (s : State) (c : Nat) (v : Nat) :
    (State.setPool s c v).io = s.io := rfl
@[simp] theorem State.setPool_ras (s : State) (c : Nat) (v : Nat) :
    (State.setPool s c v).ras = s.ras := rfl
@[simp] theorem State.setPool_tvx (s : State) (c : Nat) (v : Nat) :
    (State.setPool s c v).tvx = s.tvx := rfl
@[simp] theorem State.setPool_pwr (s : State) (c : Nat) (v : Nat) :
    (State.setPool s c v).pwr = s.pwr := rfl
@[simp] theorem State.setPool_ccol (s : State) (c : Nat) (v : Nat) :
    (State.setPool s c v).ccol = s.ccol := rfl
@[simp] theorem State.setDrawn_pending (s : State) (c : Nat) (rcid : Nat) (v : Nat) :
    (State.setDrawn s c rcid v).pending = s.pending := rfl
@[simp] theorem State.setDrawn_regs (s : State) (c : Nat) (rcid : Nat) (v : Nat) :
    (State.setDrawn s c rcid v).regs = s.regs := rfl
@[simp] theorem State.setDrawn_mem (s : State) (c : Nat) (rcid : Nat) (v : Nat) :
    (State.setDrawn s c rcid v).mem = s.mem := rfl
@[simp] theorem State.setDrawn_marked (s : State) (c : Nat) (rcid : Nat) (v : Nat) :
    (State.setDrawn s c rcid v).marked = s.marked := rfl
@[simp] theorem State.setDrawn_net (s : State) (c : Nat) (rcid : Nat) (v : Nat) :
    (State.setDrawn s c rcid v).net = s.net := rfl
@[simp] theorem State.setDrawn_free (s : State) (c : Nat) (rcid : Nat) (v : Nat) :
    (State.setDrawn s c rcid v).free = s.free := rfl
@[simp] theorem State.setDrawn_core (s : State) (c : Nat) (rcid : Nat) (v : Nat) :
    (State.setDrawn s c rcid v).core = s.core := rfl
@[simp] theorem State.setDrawn_die (s : State) (c : Nat) (rcid : Nat) (v : Nat) :
    (State.setDrawn s c rcid v).die = s.die := rfl
@[simp] theorem State.setDrawn_home (s : State) (c : Nat) (rcid : Nat) (v : Nat) :
    (State.setDrawn s c rcid v).home = s.home := rfl
@[simp] theorem State.setDrawn_pass (s : State) (c : Nat) (rcid : Nat) (v : Nat) :
    (State.setDrawn s c rcid v).pass = s.pass := rfl
@[simp] theorem State.setDrawn_chan (s : State) (c : Nat) (rcid : Nat) (v : Nat) :
    (State.setDrawn s c rcid v).chan = s.chan := rfl
@[simp] theorem State.setDrawn_mesa (s : State) (c : Nat) (rcid : Nat) (v : Nat) :
    (State.setDrawn s c rcid v).mesa = s.mesa := rfl
@[simp] theorem State.setDrawn_meter (s : State) (c : Nat) (rcid : Nat) (v : Nat) :
    (State.setDrawn s c rcid v).meter = s.meter := rfl
@[simp] theorem State.setDrawn_hzn (s : State) (c : Nat) (rcid : Nat) (v : Nat) :
    (State.setDrawn s c rcid v).hzn = s.hzn := rfl
@[simp] theorem State.setDrawn_xce (s : State) (c : Nat) (rcid : Nat) (v : Nat) :
    (State.setDrawn s c rcid v).xce = s.xce := rfl
@[simp] theorem State.setDrawn_io (s : State) (c : Nat) (rcid : Nat) (v : Nat) :
    (State.setDrawn s c rcid v).io = s.io := rfl
@[simp] theorem State.setDrawn_ras (s : State) (c : Nat) (rcid : Nat) (v : Nat) :
    (State.setDrawn s c rcid v).ras = s.ras := rfl
@[simp] theorem State.setDrawn_tvx (s : State) (c : Nat) (rcid : Nat) (v : Nat) :
    (State.setDrawn s c rcid v).tvx = s.tvx := rfl
@[simp] theorem State.setDrawn_pwr (s : State) (c : Nat) (rcid : Nat) (v : Nat) :
    (State.setDrawn s c rcid v).pwr = s.pwr := rfl
@[simp] theorem State.setDrawn_ccol (s : State) (c : Nat) (rcid : Nat) (v : Nat) :
    (State.setDrawn s c rcid v).ccol = s.ccol := rfl
@[simp] theorem State.setWaited_pending (s : State) (c : Nat) (rcid : Nat) (v : Nat) :
    (State.setWaited s c rcid v).pending = s.pending := rfl
@[simp] theorem State.setWaited_regs (s : State) (c : Nat) (rcid : Nat) (v : Nat) :
    (State.setWaited s c rcid v).regs = s.regs := rfl
@[simp] theorem State.setWaited_mem (s : State) (c : Nat) (rcid : Nat) (v : Nat) :
    (State.setWaited s c rcid v).mem = s.mem := rfl
@[simp] theorem State.setWaited_marked (s : State) (c : Nat) (rcid : Nat) (v : Nat) :
    (State.setWaited s c rcid v).marked = s.marked := rfl
@[simp] theorem State.setWaited_net (s : State) (c : Nat) (rcid : Nat) (v : Nat) :
    (State.setWaited s c rcid v).net = s.net := rfl
@[simp] theorem State.setWaited_free (s : State) (c : Nat) (rcid : Nat) (v : Nat) :
    (State.setWaited s c rcid v).free = s.free := rfl
@[simp] theorem State.setWaited_core (s : State) (c : Nat) (rcid : Nat) (v : Nat) :
    (State.setWaited s c rcid v).core = s.core := rfl
@[simp] theorem State.setWaited_die (s : State) (c : Nat) (rcid : Nat) (v : Nat) :
    (State.setWaited s c rcid v).die = s.die := rfl
@[simp] theorem State.setWaited_home (s : State) (c : Nat) (rcid : Nat) (v : Nat) :
    (State.setWaited s c rcid v).home = s.home := rfl
@[simp] theorem State.setWaited_pass (s : State) (c : Nat) (rcid : Nat) (v : Nat) :
    (State.setWaited s c rcid v).pass = s.pass := rfl
@[simp] theorem State.setWaited_chan (s : State) (c : Nat) (rcid : Nat) (v : Nat) :
    (State.setWaited s c rcid v).chan = s.chan := rfl
@[simp] theorem State.setWaited_mesa (s : State) (c : Nat) (rcid : Nat) (v : Nat) :
    (State.setWaited s c rcid v).mesa = s.mesa := rfl
@[simp] theorem State.setWaited_meter (s : State) (c : Nat) (rcid : Nat) (v : Nat) :
    (State.setWaited s c rcid v).meter = s.meter := rfl
@[simp] theorem State.setWaited_hzn (s : State) (c : Nat) (rcid : Nat) (v : Nat) :
    (State.setWaited s c rcid v).hzn = s.hzn := rfl
@[simp] theorem State.setWaited_xce (s : State) (c : Nat) (rcid : Nat) (v : Nat) :
    (State.setWaited s c rcid v).xce = s.xce := rfl
@[simp] theorem State.setWaited_io (s : State) (c : Nat) (rcid : Nat) (v : Nat) :
    (State.setWaited s c rcid v).io = s.io := rfl
@[simp] theorem State.setWaited_ras (s : State) (c : Nat) (rcid : Nat) (v : Nat) :
    (State.setWaited s c rcid v).ras = s.ras := rfl
@[simp] theorem State.setWaited_tvx (s : State) (c : Nat) (rcid : Nat) (v : Nat) :
    (State.setWaited s c rcid v).tvx = s.tvx := rfl
@[simp] theorem State.setWaited_pwr (s : State) (c : Nat) (rcid : Nat) (v : Nat) :
    (State.setWaited s c rcid v).pwr = s.pwr := rfl
@[simp] theorem State.setWaited_ccol (s : State) (c : Nat) (rcid : Nat) (v : Nat) :
    (State.setWaited s c rcid v).ccol = s.ccol := rfl
@[simp] theorem State.setQueue_pending (s : State) (q : List QCmd) :
    (State.setQueue s q).pending = s.pending := rfl
@[simp] theorem State.setQueue_regs (s : State) (q : List QCmd) :
    (State.setQueue s q).regs = s.regs := rfl
@[simp] theorem State.setQueue_mem (s : State) (q : List QCmd) :
    (State.setQueue s q).mem = s.mem := rfl
@[simp] theorem State.setQueue_marked (s : State) (q : List QCmd) :
    (State.setQueue s q).marked = s.marked := rfl
@[simp] theorem State.setQueue_net (s : State) (q : List QCmd) :
    (State.setQueue s q).net = s.net := rfl
@[simp] theorem State.setQueue_free (s : State) (q : List QCmd) :
    (State.setQueue s q).free = s.free := rfl
@[simp] theorem State.setQueue_core (s : State) (q : List QCmd) :
    (State.setQueue s q).core = s.core := rfl
@[simp] theorem State.setQueue_die (s : State) (q : List QCmd) :
    (State.setQueue s q).die = s.die := rfl
@[simp] theorem State.setQueue_home (s : State) (q : List QCmd) :
    (State.setQueue s q).home = s.home := rfl
@[simp] theorem State.setQueue_pass (s : State) (q : List QCmd) :
    (State.setQueue s q).pass = s.pass := rfl
@[simp] theorem State.setQueue_chan (s : State) (q : List QCmd) :
    (State.setQueue s q).chan = s.chan := rfl
@[simp] theorem State.setQueue_mesa (s : State) (q : List QCmd) :
    (State.setQueue s q).mesa = s.mesa := rfl
@[simp] theorem State.setQueue_meter (s : State) (q : List QCmd) :
    (State.setQueue s q).meter = s.meter := rfl
@[simp] theorem State.setQueue_qos (s : State) (q : List QCmd) :
    (State.setQueue s q).qos = s.qos := rfl
@[simp] theorem State.setQueue_hzn (s : State) (q : List QCmd) :
    (State.setQueue s q).hzn = s.hzn := rfl
@[simp] theorem State.setQueue_xce (s : State) (q : List QCmd) :
    (State.setQueue s q).xce = s.xce := rfl
@[simp] theorem State.setQueue_io (s : State) (q : List QCmd) :
    (State.setQueue s q).io = s.io := rfl
@[simp] theorem State.setQueue_ras (s : State) (q : List QCmd) :
    (State.setQueue s q).ras = s.ras := rfl
@[simp] theorem State.setQueue_pwr (s : State) (q : List QCmd) :
    (State.setQueue s q).pwr = s.pwr := rfl
@[simp] theorem State.setQueue_ccol (s : State) (q : List QCmd) :
    (State.setQueue s q).ccol = s.ccol := rfl
@[simp] theorem State.setRecs_pending (s : State) (k : Nat) (r : DevRecs) :
    (State.setRecs s k r).pending = s.pending := rfl
@[simp] theorem State.setRecs_regs (s : State) (k : Nat) (r : DevRecs) :
    (State.setRecs s k r).regs = s.regs := rfl
@[simp] theorem State.setRecs_mem (s : State) (k : Nat) (r : DevRecs) :
    (State.setRecs s k r).mem = s.mem := rfl
@[simp] theorem State.setRecs_marked (s : State) (k : Nat) (r : DevRecs) :
    (State.setRecs s k r).marked = s.marked := rfl
@[simp] theorem State.setRecs_net (s : State) (k : Nat) (r : DevRecs) :
    (State.setRecs s k r).net = s.net := rfl
@[simp] theorem State.setRecs_free (s : State) (k : Nat) (r : DevRecs) :
    (State.setRecs s k r).free = s.free := rfl
@[simp] theorem State.setRecs_core (s : State) (k : Nat) (r : DevRecs) :
    (State.setRecs s k r).core = s.core := rfl
@[simp] theorem State.setRecs_die (s : State) (k : Nat) (r : DevRecs) :
    (State.setRecs s k r).die = s.die := rfl
@[simp] theorem State.setRecs_home (s : State) (k : Nat) (r : DevRecs) :
    (State.setRecs s k r).home = s.home := rfl
@[simp] theorem State.setRecs_pass (s : State) (k : Nat) (r : DevRecs) :
    (State.setRecs s k r).pass = s.pass := rfl
@[simp] theorem State.setRecs_chan (s : State) (k : Nat) (r : DevRecs) :
    (State.setRecs s k r).chan = s.chan := rfl
@[simp] theorem State.setRecs_mesa (s : State) (k : Nat) (r : DevRecs) :
    (State.setRecs s k r).mesa = s.mesa := rfl
@[simp] theorem State.setRecs_meter (s : State) (k : Nat) (r : DevRecs) :
    (State.setRecs s k r).meter = s.meter := rfl
@[simp] theorem State.setRecs_qos (s : State) (k : Nat) (r : DevRecs) :
    (State.setRecs s k r).qos = s.qos := rfl
@[simp] theorem State.setRecs_hzn (s : State) (k : Nat) (r : DevRecs) :
    (State.setRecs s k r).hzn = s.hzn := rfl
@[simp] theorem State.setRecs_xce (s : State) (k : Nat) (r : DevRecs) :
    (State.setRecs s k r).xce = s.xce := rfl
@[simp] theorem State.setRecs_io (s : State) (k : Nat) (r : DevRecs) :
    (State.setRecs s k r).io = s.io := rfl
@[simp] theorem State.setRecs_ras (s : State) (k : Nat) (r : DevRecs) :
    (State.setRecs s k r).ras = s.ras := rfl
@[simp] theorem State.setRecs_pwr (s : State) (k : Nat) (r : DevRecs) :
    (State.setRecs s k r).pwr = s.pwr := rfl
@[simp] theorem State.setRecs_ccol (s : State) (k : Nat) (r : DevRecs) :
    (State.setRecs s k r).ccol = s.ccol := rfl
@[simp] theorem State.setChPrev_pending (s : State) (ch : Nat) (v : Nat) :
    (State.setChPrev s ch v).pending = s.pending := rfl
@[simp] theorem State.setChPrev_regs (s : State) (ch : Nat) (v : Nat) :
    (State.setChPrev s ch v).regs = s.regs := rfl
@[simp] theorem State.setChPrev_mem (s : State) (ch : Nat) (v : Nat) :
    (State.setChPrev s ch v).mem = s.mem := rfl
@[simp] theorem State.setChPrev_marked (s : State) (ch : Nat) (v : Nat) :
    (State.setChPrev s ch v).marked = s.marked := rfl
@[simp] theorem State.setChPrev_net (s : State) (ch : Nat) (v : Nat) :
    (State.setChPrev s ch v).net = s.net := rfl
@[simp] theorem State.setChPrev_free (s : State) (ch : Nat) (v : Nat) :
    (State.setChPrev s ch v).free = s.free := rfl
@[simp] theorem State.setChPrev_core (s : State) (ch : Nat) (v : Nat) :
    (State.setChPrev s ch v).core = s.core := rfl
@[simp] theorem State.setChPrev_die (s : State) (ch : Nat) (v : Nat) :
    (State.setChPrev s ch v).die = s.die := rfl
@[simp] theorem State.setChPrev_home (s : State) (ch : Nat) (v : Nat) :
    (State.setChPrev s ch v).home = s.home := rfl
@[simp] theorem State.setChPrev_pass (s : State) (ch : Nat) (v : Nat) :
    (State.setChPrev s ch v).pass = s.pass := rfl
@[simp] theorem State.setChPrev_mesa (s : State) (ch : Nat) (v : Nat) :
    (State.setChPrev s ch v).mesa = s.mesa := rfl
@[simp] theorem State.setChPrev_meter (s : State) (ch : Nat) (v : Nat) :
    (State.setChPrev s ch v).meter = s.meter := rfl
@[simp] theorem State.setChPrev_qos (s : State) (ch : Nat) (v : Nat) :
    (State.setChPrev s ch v).qos = s.qos := rfl
@[simp] theorem State.setChPrev_hzn (s : State) (ch : Nat) (v : Nat) :
    (State.setChPrev s ch v).hzn = s.hzn := rfl
@[simp] theorem State.setChPrev_xce (s : State) (ch : Nat) (v : Nat) :
    (State.setChPrev s ch v).xce = s.xce := rfl
@[simp] theorem State.setChPrev_io (s : State) (ch : Nat) (v : Nat) :
    (State.setChPrev s ch v).io = s.io := rfl
@[simp] theorem State.setChPrev_ras (s : State) (ch : Nat) (v : Nat) :
    (State.setChPrev s ch v).ras = s.ras := rfl
@[simp] theorem State.setChPrev_tvx (s : State) (ch : Nat) (v : Nat) :
    (State.setChPrev s ch v).tvx = s.tvx := rfl
@[simp] theorem State.setChPrev_pwr (s : State) (ch : Nat) (v : Nat) :
    (State.setChPrev s ch v).pwr = s.pwr := rfl
@[simp] theorem State.setChPrev_ccol (s : State) (ch : Nat) (v : Nat) :
    (State.setChPrev s ch v).ccol = s.ccol := rfl
@[simp] theorem State.setChRetrain_pending (s : State) (ch : Nat) (b : Bool) :
    (State.setChRetrain s ch b).pending = s.pending := rfl
@[simp] theorem State.setChRetrain_regs (s : State) (ch : Nat) (b : Bool) :
    (State.setChRetrain s ch b).regs = s.regs := rfl
@[simp] theorem State.setChRetrain_mem (s : State) (ch : Nat) (b : Bool) :
    (State.setChRetrain s ch b).mem = s.mem := rfl
@[simp] theorem State.setChRetrain_marked (s : State) (ch : Nat) (b : Bool) :
    (State.setChRetrain s ch b).marked = s.marked := rfl
@[simp] theorem State.setChRetrain_net (s : State) (ch : Nat) (b : Bool) :
    (State.setChRetrain s ch b).net = s.net := rfl
@[simp] theorem State.setChRetrain_free (s : State) (ch : Nat) (b : Bool) :
    (State.setChRetrain s ch b).free = s.free := rfl
@[simp] theorem State.setChRetrain_core (s : State) (ch : Nat) (b : Bool) :
    (State.setChRetrain s ch b).core = s.core := rfl
@[simp] theorem State.setChRetrain_die (s : State) (ch : Nat) (b : Bool) :
    (State.setChRetrain s ch b).die = s.die := rfl
@[simp] theorem State.setChRetrain_home (s : State) (ch : Nat) (b : Bool) :
    (State.setChRetrain s ch b).home = s.home := rfl
@[simp] theorem State.setChRetrain_pass (s : State) (ch : Nat) (b : Bool) :
    (State.setChRetrain s ch b).pass = s.pass := rfl
@[simp] theorem State.setChRetrain_mesa (s : State) (ch : Nat) (b : Bool) :
    (State.setChRetrain s ch b).mesa = s.mesa := rfl
@[simp] theorem State.setChRetrain_meter (s : State) (ch : Nat) (b : Bool) :
    (State.setChRetrain s ch b).meter = s.meter := rfl
@[simp] theorem State.setChRetrain_qos (s : State) (ch : Nat) (b : Bool) :
    (State.setChRetrain s ch b).qos = s.qos := rfl
@[simp] theorem State.setChRetrain_hzn (s : State) (ch : Nat) (b : Bool) :
    (State.setChRetrain s ch b).hzn = s.hzn := rfl
@[simp] theorem State.setChRetrain_xce (s : State) (ch : Nat) (b : Bool) :
    (State.setChRetrain s ch b).xce = s.xce := rfl
@[simp] theorem State.setChRetrain_io (s : State) (ch : Nat) (b : Bool) :
    (State.setChRetrain s ch b).io = s.io := rfl
@[simp] theorem State.setChRetrain_ras (s : State) (ch : Nat) (b : Bool) :
    (State.setChRetrain s ch b).ras = s.ras := rfl
@[simp] theorem State.setChRetrain_tvx (s : State) (ch : Nat) (b : Bool) :
    (State.setChRetrain s ch b).tvx = s.tvx := rfl
@[simp] theorem State.setChRetrain_pwr (s : State) (ch : Nat) (b : Bool) :
    (State.setChRetrain s ch b).pwr = s.pwr := rfl
@[simp] theorem State.setChRetrain_ccol (s : State) (ch : Nat) (b : Bool) :
    (State.setChRetrain s ch b).ccol = s.ccol := rfl
@[simp] theorem State.setChFails_pending (s : State) (ch : Nat) (v : Nat) :
    (State.setChFails s ch v).pending = s.pending := rfl
@[simp] theorem State.setChFails_regs (s : State) (ch : Nat) (v : Nat) :
    (State.setChFails s ch v).regs = s.regs := rfl
@[simp] theorem State.setChFails_mem (s : State) (ch : Nat) (v : Nat) :
    (State.setChFails s ch v).mem = s.mem := rfl
@[simp] theorem State.setChFails_marked (s : State) (ch : Nat) (v : Nat) :
    (State.setChFails s ch v).marked = s.marked := rfl
@[simp] theorem State.setChFails_net (s : State) (ch : Nat) (v : Nat) :
    (State.setChFails s ch v).net = s.net := rfl
@[simp] theorem State.setChFails_free (s : State) (ch : Nat) (v : Nat) :
    (State.setChFails s ch v).free = s.free := rfl
@[simp] theorem State.setChFails_core (s : State) (ch : Nat) (v : Nat) :
    (State.setChFails s ch v).core = s.core := rfl
@[simp] theorem State.setChFails_die (s : State) (ch : Nat) (v : Nat) :
    (State.setChFails s ch v).die = s.die := rfl
@[simp] theorem State.setChFails_home (s : State) (ch : Nat) (v : Nat) :
    (State.setChFails s ch v).home = s.home := rfl
@[simp] theorem State.setChFails_pass (s : State) (ch : Nat) (v : Nat) :
    (State.setChFails s ch v).pass = s.pass := rfl
@[simp] theorem State.setChFails_mesa (s : State) (ch : Nat) (v : Nat) :
    (State.setChFails s ch v).mesa = s.mesa := rfl
@[simp] theorem State.setChFails_meter (s : State) (ch : Nat) (v : Nat) :
    (State.setChFails s ch v).meter = s.meter := rfl
@[simp] theorem State.setChFails_qos (s : State) (ch : Nat) (v : Nat) :
    (State.setChFails s ch v).qos = s.qos := rfl
@[simp] theorem State.setChFails_hzn (s : State) (ch : Nat) (v : Nat) :
    (State.setChFails s ch v).hzn = s.hzn := rfl
@[simp] theorem State.setChFails_xce (s : State) (ch : Nat) (v : Nat) :
    (State.setChFails s ch v).xce = s.xce := rfl
@[simp] theorem State.setChFails_io (s : State) (ch : Nat) (v : Nat) :
    (State.setChFails s ch v).io = s.io := rfl
@[simp] theorem State.setChFails_ras (s : State) (ch : Nat) (v : Nat) :
    (State.setChFails s ch v).ras = s.ras := rfl
@[simp] theorem State.setChFails_tvx (s : State) (ch : Nat) (v : Nat) :
    (State.setChFails s ch v).tvx = s.tvx := rfl
@[simp] theorem State.setChFails_pwr (s : State) (ch : Nat) (v : Nat) :
    (State.setChFails s ch v).pwr = s.pwr := rfl
@[simp] theorem State.setChFails_ccol (s : State) (ch : Nat) (v : Nat) :
    (State.setChFails s ch v).ccol = s.ccol := rfl
@[simp] theorem State.setSec_pending (s : State) (n : Nat) (set : Nat) (w : Nat) (e : SecTag) :
    (State.setSec s n set w e).pending = s.pending := rfl
@[simp] theorem State.setSec_regs (s : State) (n : Nat) (set : Nat) (w : Nat) (e : SecTag) :
    (State.setSec s n set w e).regs = s.regs := rfl
@[simp] theorem State.setSec_mem (s : State) (n : Nat) (set : Nat) (w : Nat) (e : SecTag) :
    (State.setSec s n set w e).mem = s.mem := rfl
@[simp] theorem State.setSec_marked (s : State) (n : Nat) (set : Nat) (w : Nat) (e : SecTag) :
    (State.setSec s n set w e).marked = s.marked := rfl
@[simp] theorem State.setSec_net (s : State) (n : Nat) (set : Nat) (w : Nat) (e : SecTag) :
    (State.setSec s n set w e).net = s.net := rfl
@[simp] theorem State.setSec_free (s : State) (n : Nat) (set : Nat) (w : Nat) (e : SecTag) :
    (State.setSec s n set w e).free = s.free := rfl
@[simp] theorem State.setSec_core (s : State) (n : Nat) (set : Nat) (w : Nat) (e : SecTag) :
    (State.setSec s n set w e).core = s.core := rfl
@[simp] theorem State.setSec_die (s : State) (n : Nat) (set : Nat) (w : Nat) (e : SecTag) :
    (State.setSec s n set w e).die = s.die := rfl
@[simp] theorem State.setSec_home (s : State) (n : Nat) (set : Nat) (w : Nat) (e : SecTag) :
    (State.setSec s n set w e).home = s.home := rfl
@[simp] theorem State.setSec_pass (s : State) (n : Nat) (set : Nat) (w : Nat) (e : SecTag) :
    (State.setSec s n set w e).pass = s.pass := rfl
@[simp] theorem State.setSec_chan (s : State) (n : Nat) (set : Nat) (w : Nat) (e : SecTag) :
    (State.setSec s n set w e).chan = s.chan := rfl
@[simp] theorem State.setSec_meter (s : State) (n : Nat) (set : Nat) (w : Nat) (e : SecTag) :
    (State.setSec s n set w e).meter = s.meter := rfl
@[simp] theorem State.setSec_qos (s : State) (n : Nat) (set : Nat) (w : Nat) (e : SecTag) :
    (State.setSec s n set w e).qos = s.qos := rfl
@[simp] theorem State.setSec_hzn (s : State) (n : Nat) (set : Nat) (w : Nat) (e : SecTag) :
    (State.setSec s n set w e).hzn = s.hzn := rfl
@[simp] theorem State.setSec_xce (s : State) (n : Nat) (set : Nat) (w : Nat) (e : SecTag) :
    (State.setSec s n set w e).xce = s.xce := rfl
@[simp] theorem State.setSec_io (s : State) (n : Nat) (set : Nat) (w : Nat) (e : SecTag) :
    (State.setSec s n set w e).io = s.io := rfl
@[simp] theorem State.setSec_ras (s : State) (n : Nat) (set : Nat) (w : Nat) (e : SecTag) :
    (State.setSec s n set w e).ras = s.ras := rfl
@[simp] theorem State.setSec_tvx (s : State) (n : Nat) (set : Nat) (w : Nat) (e : SecTag) :
    (State.setSec s n set w e).tvx = s.tvx := rfl
@[simp] theorem State.setSec_pwr (s : State) (n : Nat) (set : Nat) (w : Nat) (e : SecTag) :
    (State.setSec s n set w e).pwr = s.pwr := rfl
@[simp] theorem State.setSec_ccol (s : State) (n : Nat) (set : Nat) (w : Nat) (e : SecTag) :
    (State.setSec s n set w e).ccol = s.ccol := rfl
@[simp] theorem State.setPlru_pending (s : State) (n : Nat) (set : Nat) (v : Nat) :
    (State.setPlru s n set v).pending = s.pending := rfl
@[simp] theorem State.setPlru_regs (s : State) (n : Nat) (set : Nat) (v : Nat) :
    (State.setPlru s n set v).regs = s.regs := rfl
@[simp] theorem State.setPlru_mem (s : State) (n : Nat) (set : Nat) (v : Nat) :
    (State.setPlru s n set v).mem = s.mem := rfl
@[simp] theorem State.setPlru_marked (s : State) (n : Nat) (set : Nat) (v : Nat) :
    (State.setPlru s n set v).marked = s.marked := rfl
@[simp] theorem State.setPlru_net (s : State) (n : Nat) (set : Nat) (v : Nat) :
    (State.setPlru s n set v).net = s.net := rfl
@[simp] theorem State.setPlru_free (s : State) (n : Nat) (set : Nat) (v : Nat) :
    (State.setPlru s n set v).free = s.free := rfl
@[simp] theorem State.setPlru_core (s : State) (n : Nat) (set : Nat) (v : Nat) :
    (State.setPlru s n set v).core = s.core := rfl
@[simp] theorem State.setPlru_die (s : State) (n : Nat) (set : Nat) (v : Nat) :
    (State.setPlru s n set v).die = s.die := rfl
@[simp] theorem State.setPlru_home (s : State) (n : Nat) (set : Nat) (v : Nat) :
    (State.setPlru s n set v).home = s.home := rfl
@[simp] theorem State.setPlru_pass (s : State) (n : Nat) (set : Nat) (v : Nat) :
    (State.setPlru s n set v).pass = s.pass := rfl
@[simp] theorem State.setPlru_chan (s : State) (n : Nat) (set : Nat) (v : Nat) :
    (State.setPlru s n set v).chan = s.chan := rfl
@[simp] theorem State.setPlru_meter (s : State) (n : Nat) (set : Nat) (v : Nat) :
    (State.setPlru s n set v).meter = s.meter := rfl
@[simp] theorem State.setPlru_qos (s : State) (n : Nat) (set : Nat) (v : Nat) :
    (State.setPlru s n set v).qos = s.qos := rfl
@[simp] theorem State.setPlru_hzn (s : State) (n : Nat) (set : Nat) (v : Nat) :
    (State.setPlru s n set v).hzn = s.hzn := rfl
@[simp] theorem State.setPlru_xce (s : State) (n : Nat) (set : Nat) (v : Nat) :
    (State.setPlru s n set v).xce = s.xce := rfl
@[simp] theorem State.setPlru_io (s : State) (n : Nat) (set : Nat) (v : Nat) :
    (State.setPlru s n set v).io = s.io := rfl
@[simp] theorem State.setPlru_ras (s : State) (n : Nat) (set : Nat) (v : Nat) :
    (State.setPlru s n set v).ras = s.ras := rfl
@[simp] theorem State.setPlru_tvx (s : State) (n : Nat) (set : Nat) (v : Nat) :
    (State.setPlru s n set v).tvx = s.tvx := rfl
@[simp] theorem State.setPlru_pwr (s : State) (n : Nat) (set : Nat) (v : Nat) :
    (State.setPlru s n set v).pwr = s.pwr := rfl
@[simp] theorem State.setPlru_ccol (s : State) (n : Nat) (set : Nat) (v : Nat) :
    (State.setPlru s n set v).ccol = s.ccol := rfl
@[simp] theorem State.setVict_pending (s : State) (n : Nat) (v : List VictE) :
    (State.setVict s n v).pending = s.pending := rfl
@[simp] theorem State.setVict_regs (s : State) (n : Nat) (v : List VictE) :
    (State.setVict s n v).regs = s.regs := rfl
@[simp] theorem State.setVict_mem (s : State) (n : Nat) (v : List VictE) :
    (State.setVict s n v).mem = s.mem := rfl
@[simp] theorem State.setVict_marked (s : State) (n : Nat) (v : List VictE) :
    (State.setVict s n v).marked = s.marked := rfl
@[simp] theorem State.setVict_net (s : State) (n : Nat) (v : List VictE) :
    (State.setVict s n v).net = s.net := rfl
@[simp] theorem State.setVict_free (s : State) (n : Nat) (v : List VictE) :
    (State.setVict s n v).free = s.free := rfl
@[simp] theorem State.setVict_core (s : State) (n : Nat) (v : List VictE) :
    (State.setVict s n v).core = s.core := rfl
@[simp] theorem State.setVict_die (s : State) (n : Nat) (v : List VictE) :
    (State.setVict s n v).die = s.die := rfl
@[simp] theorem State.setVict_home (s : State) (n : Nat) (v : List VictE) :
    (State.setVict s n v).home = s.home := rfl
@[simp] theorem State.setVict_pass (s : State) (n : Nat) (v : List VictE) :
    (State.setVict s n v).pass = s.pass := rfl
@[simp] theorem State.setVict_chan (s : State) (n : Nat) (v : List VictE) :
    (State.setVict s n v).chan = s.chan := rfl
@[simp] theorem State.setVict_meter (s : State) (n : Nat) (v : List VictE) :
    (State.setVict s n v).meter = s.meter := rfl
@[simp] theorem State.setVict_qos (s : State) (n : Nat) (v : List VictE) :
    (State.setVict s n v).qos = s.qos := rfl
@[simp] theorem State.setVict_hzn (s : State) (n : Nat) (v : List VictE) :
    (State.setVict s n v).hzn = s.hzn := rfl
@[simp] theorem State.setVict_xce (s : State) (n : Nat) (v : List VictE) :
    (State.setVict s n v).xce = s.xce := rfl
@[simp] theorem State.setVict_io (s : State) (n : Nat) (v : List VictE) :
    (State.setVict s n v).io = s.io := rfl
@[simp] theorem State.setVict_ras (s : State) (n : Nat) (v : List VictE) :
    (State.setVict s n v).ras = s.ras := rfl
@[simp] theorem State.setVict_tvx (s : State) (n : Nat) (v : List VictE) :
    (State.setVict s n v).tvx = s.tvx := rfl
@[simp] theorem State.setVict_pwr (s : State) (n : Nat) (v : List VictE) :
    (State.setVict s n v).pwr = s.pwr := rfl
@[simp] theorem State.setVict_ccol (s : State) (n : Nat) (v : List VictE) :
    (State.setVict s n v).ccol = s.ccol := rfl
@[simp] theorem State.setExtra_pending (s : State) (n : Nat) (v : List ExtraE) :
    (State.setExtra s n v).pending = s.pending := rfl
@[simp] theorem State.setExtra_regs (s : State) (n : Nat) (v : List ExtraE) :
    (State.setExtra s n v).regs = s.regs := rfl
@[simp] theorem State.setExtra_mem (s : State) (n : Nat) (v : List ExtraE) :
    (State.setExtra s n v).mem = s.mem := rfl
@[simp] theorem State.setExtra_marked (s : State) (n : Nat) (v : List ExtraE) :
    (State.setExtra s n v).marked = s.marked := rfl
@[simp] theorem State.setExtra_net (s : State) (n : Nat) (v : List ExtraE) :
    (State.setExtra s n v).net = s.net := rfl
@[simp] theorem State.setExtra_free (s : State) (n : Nat) (v : List ExtraE) :
    (State.setExtra s n v).free = s.free := rfl
@[simp] theorem State.setExtra_core (s : State) (n : Nat) (v : List ExtraE) :
    (State.setExtra s n v).core = s.core := rfl
@[simp] theorem State.setExtra_die (s : State) (n : Nat) (v : List ExtraE) :
    (State.setExtra s n v).die = s.die := rfl
@[simp] theorem State.setExtra_home (s : State) (n : Nat) (v : List ExtraE) :
    (State.setExtra s n v).home = s.home := rfl
@[simp] theorem State.setExtra_pass (s : State) (n : Nat) (v : List ExtraE) :
    (State.setExtra s n v).pass = s.pass := rfl
@[simp] theorem State.setExtra_chan (s : State) (n : Nat) (v : List ExtraE) :
    (State.setExtra s n v).chan = s.chan := rfl
@[simp] theorem State.setExtra_meter (s : State) (n : Nat) (v : List ExtraE) :
    (State.setExtra s n v).meter = s.meter := rfl
@[simp] theorem State.setExtra_qos (s : State) (n : Nat) (v : List ExtraE) :
    (State.setExtra s n v).qos = s.qos := rfl
@[simp] theorem State.setExtra_hzn (s : State) (n : Nat) (v : List ExtraE) :
    (State.setExtra s n v).hzn = s.hzn := rfl
@[simp] theorem State.setExtra_xce (s : State) (n : Nat) (v : List ExtraE) :
    (State.setExtra s n v).xce = s.xce := rfl
@[simp] theorem State.setExtra_io (s : State) (n : Nat) (v : List ExtraE) :
    (State.setExtra s n v).io = s.io := rfl
@[simp] theorem State.setExtra_ras (s : State) (n : Nat) (v : List ExtraE) :
    (State.setExtra s n v).ras = s.ras := rfl
@[simp] theorem State.setExtra_tvx (s : State) (n : Nat) (v : List ExtraE) :
    (State.setExtra s n v).tvx = s.tvx := rfl
@[simp] theorem State.setExtra_pwr (s : State) (n : Nat) (v : List ExtraE) :
    (State.setExtra s n v).pwr = s.pwr := rfl
@[simp] theorem State.setExtra_ccol (s : State) (n : Nat) (v : List ExtraE) :
    (State.setExtra s n v).ccol = s.ccol := rfl
@[simp] theorem State.setMesaLine_pending (s : State) (ld : Nat) (l : Line) :
    (State.setMesaLine s ld l).pending = s.pending := rfl
@[simp] theorem State.setMesaLine_regs (s : State) (ld : Nat) (l : Line) :
    (State.setMesaLine s ld l).regs = s.regs := rfl
@[simp] theorem State.setMesaLine_mem (s : State) (ld : Nat) (l : Line) :
    (State.setMesaLine s ld l).mem = s.mem := rfl
@[simp] theorem State.setMesaLine_marked (s : State) (ld : Nat) (l : Line) :
    (State.setMesaLine s ld l).marked = s.marked := rfl
@[simp] theorem State.setMesaLine_net (s : State) (ld : Nat) (l : Line) :
    (State.setMesaLine s ld l).net = s.net := rfl
@[simp] theorem State.setMesaLine_free (s : State) (ld : Nat) (l : Line) :
    (State.setMesaLine s ld l).free = s.free := rfl
@[simp] theorem State.setMesaLine_core (s : State) (ld : Nat) (l : Line) :
    (State.setMesaLine s ld l).core = s.core := rfl
@[simp] theorem State.setMesaLine_die (s : State) (ld : Nat) (l : Line) :
    (State.setMesaLine s ld l).die = s.die := rfl
@[simp] theorem State.setMesaLine_home (s : State) (ld : Nat) (l : Line) :
    (State.setMesaLine s ld l).home = s.home := rfl
@[simp] theorem State.setMesaLine_pass (s : State) (ld : Nat) (l : Line) :
    (State.setMesaLine s ld l).pass = s.pass := rfl
@[simp] theorem State.setMesaLine_chan (s : State) (ld : Nat) (l : Line) :
    (State.setMesaLine s ld l).chan = s.chan := rfl
@[simp] theorem State.setMesaLine_meter (s : State) (ld : Nat) (l : Line) :
    (State.setMesaLine s ld l).meter = s.meter := rfl
@[simp] theorem State.setMesaLine_qos (s : State) (ld : Nat) (l : Line) :
    (State.setMesaLine s ld l).qos = s.qos := rfl
@[simp] theorem State.setMesaLine_hzn (s : State) (ld : Nat) (l : Line) :
    (State.setMesaLine s ld l).hzn = s.hzn := rfl
@[simp] theorem State.setMesaLine_xce (s : State) (ld : Nat) (l : Line) :
    (State.setMesaLine s ld l).xce = s.xce := rfl
@[simp] theorem State.setMesaLine_io (s : State) (ld : Nat) (l : Line) :
    (State.setMesaLine s ld l).io = s.io := rfl
@[simp] theorem State.setMesaLine_ras (s : State) (ld : Nat) (l : Line) :
    (State.setMesaLine s ld l).ras = s.ras := rfl
@[simp] theorem State.setMesaLine_tvx (s : State) (ld : Nat) (l : Line) :
    (State.setMesaLine s ld l).tvx = s.tvx := rfl
@[simp] theorem State.setMesaLine_pwr (s : State) (ld : Nat) (l : Line) :
    (State.setMesaLine s ld l).pwr = s.pwr := rfl
@[simp] theorem State.setMesaLine_ccol (s : State) (ld : Nat) (l : Line) :
    (State.setMesaLine s ld l).ccol = s.ccol := rfl
@[simp] theorem State.setMesaBypass_pending (s : State) (n : Nat) (b : Bool) :
    (State.setMesaBypass s n b).pending = s.pending := rfl
@[simp] theorem State.setMesaBypass_regs (s : State) (n : Nat) (b : Bool) :
    (State.setMesaBypass s n b).regs = s.regs := rfl
@[simp] theorem State.setMesaBypass_mem (s : State) (n : Nat) (b : Bool) :
    (State.setMesaBypass s n b).mem = s.mem := rfl
@[simp] theorem State.setMesaBypass_marked (s : State) (n : Nat) (b : Bool) :
    (State.setMesaBypass s n b).marked = s.marked := rfl
@[simp] theorem State.setMesaBypass_net (s : State) (n : Nat) (b : Bool) :
    (State.setMesaBypass s n b).net = s.net := rfl
@[simp] theorem State.setMesaBypass_free (s : State) (n : Nat) (b : Bool) :
    (State.setMesaBypass s n b).free = s.free := rfl
@[simp] theorem State.setMesaBypass_core (s : State) (n : Nat) (b : Bool) :
    (State.setMesaBypass s n b).core = s.core := rfl
@[simp] theorem State.setMesaBypass_die (s : State) (n : Nat) (b : Bool) :
    (State.setMesaBypass s n b).die = s.die := rfl
@[simp] theorem State.setMesaBypass_home (s : State) (n : Nat) (b : Bool) :
    (State.setMesaBypass s n b).home = s.home := rfl
@[simp] theorem State.setMesaBypass_pass (s : State) (n : Nat) (b : Bool) :
    (State.setMesaBypass s n b).pass = s.pass := rfl
@[simp] theorem State.setMesaBypass_chan (s : State) (n : Nat) (b : Bool) :
    (State.setMesaBypass s n b).chan = s.chan := rfl
@[simp] theorem State.setMesaBypass_meter (s : State) (n : Nat) (b : Bool) :
    (State.setMesaBypass s n b).meter = s.meter := rfl
@[simp] theorem State.setMesaBypass_qos (s : State) (n : Nat) (b : Bool) :
    (State.setMesaBypass s n b).qos = s.qos := rfl
@[simp] theorem State.setMesaBypass_hzn (s : State) (n : Nat) (b : Bool) :
    (State.setMesaBypass s n b).hzn = s.hzn := rfl
@[simp] theorem State.setMesaBypass_xce (s : State) (n : Nat) (b : Bool) :
    (State.setMesaBypass s n b).xce = s.xce := rfl
@[simp] theorem State.setMesaBypass_io (s : State) (n : Nat) (b : Bool) :
    (State.setMesaBypass s n b).io = s.io := rfl
@[simp] theorem State.setMesaBypass_ras (s : State) (n : Nat) (b : Bool) :
    (State.setMesaBypass s n b).ras = s.ras := rfl
@[simp] theorem State.setMesaBypass_tvx (s : State) (n : Nat) (b : Bool) :
    (State.setMesaBypass s n b).tvx = s.tvx := rfl
@[simp] theorem State.setMesaBypass_pwr (s : State) (n : Nat) (b : Bool) :
    (State.setMesaBypass s n b).pwr = s.pwr := rfl
@[simp] theorem State.setMesaBypass_ccol (s : State) (n : Nat) (b : Bool) :
    (State.setMesaBypass s n b).ccol = s.ccol := rfl
@[simp] theorem State.setMesaPowering_pending (s : State) (n : Nat) (b : Bool) :
    (State.setMesaPowering s n b).pending = s.pending := rfl
@[simp] theorem State.setMesaPowering_regs (s : State) (n : Nat) (b : Bool) :
    (State.setMesaPowering s n b).regs = s.regs := rfl
@[simp] theorem State.setMesaPowering_mem (s : State) (n : Nat) (b : Bool) :
    (State.setMesaPowering s n b).mem = s.mem := rfl
@[simp] theorem State.setMesaPowering_marked (s : State) (n : Nat) (b : Bool) :
    (State.setMesaPowering s n b).marked = s.marked := rfl
@[simp] theorem State.setMesaPowering_net (s : State) (n : Nat) (b : Bool) :
    (State.setMesaPowering s n b).net = s.net := rfl
@[simp] theorem State.setMesaPowering_free (s : State) (n : Nat) (b : Bool) :
    (State.setMesaPowering s n b).free = s.free := rfl
@[simp] theorem State.setMesaPowering_core (s : State) (n : Nat) (b : Bool) :
    (State.setMesaPowering s n b).core = s.core := rfl
@[simp] theorem State.setMesaPowering_die (s : State) (n : Nat) (b : Bool) :
    (State.setMesaPowering s n b).die = s.die := rfl
@[simp] theorem State.setMesaPowering_home (s : State) (n : Nat) (b : Bool) :
    (State.setMesaPowering s n b).home = s.home := rfl
@[simp] theorem State.setMesaPowering_pass (s : State) (n : Nat) (b : Bool) :
    (State.setMesaPowering s n b).pass = s.pass := rfl
@[simp] theorem State.setMesaPowering_chan (s : State) (n : Nat) (b : Bool) :
    (State.setMesaPowering s n b).chan = s.chan := rfl
@[simp] theorem State.setMesaPowering_meter (s : State) (n : Nat) (b : Bool) :
    (State.setMesaPowering s n b).meter = s.meter := rfl
@[simp] theorem State.setMesaPowering_qos (s : State) (n : Nat) (b : Bool) :
    (State.setMesaPowering s n b).qos = s.qos := rfl
@[simp] theorem State.setMesaPowering_hzn (s : State) (n : Nat) (b : Bool) :
    (State.setMesaPowering s n b).hzn = s.hzn := rfl
@[simp] theorem State.setMesaPowering_xce (s : State) (n : Nat) (b : Bool) :
    (State.setMesaPowering s n b).xce = s.xce := rfl
@[simp] theorem State.setMesaPowering_io (s : State) (n : Nat) (b : Bool) :
    (State.setMesaPowering s n b).io = s.io := rfl
@[simp] theorem State.setMesaPowering_ras (s : State) (n : Nat) (b : Bool) :
    (State.setMesaPowering s n b).ras = s.ras := rfl
@[simp] theorem State.setMesaPowering_tvx (s : State) (n : Nat) (b : Bool) :
    (State.setMesaPowering s n b).tvx = s.tvx := rfl
@[simp] theorem State.setMesaPowering_pwr (s : State) (n : Nat) (b : Bool) :
    (State.setMesaPowering s n b).pwr = s.pwr := rfl
@[simp] theorem State.setMesaPowering_ccol (s : State) (n : Nat) (b : Bool) :
    (State.setMesaPowering s n b).ccol = s.ccol := rfl
@[simp] theorem State.setDirE_pending (s : State) (n : Nat) (set : Nat) (w : Nat) (e : DirE) :
    (State.setDirE s n set w e).pending = s.pending := rfl
@[simp] theorem State.setDirE_regs (s : State) (n : Nat) (set : Nat) (w : Nat) (e : DirE) :
    (State.setDirE s n set w e).regs = s.regs := rfl
@[simp] theorem State.setDirE_mem (s : State) (n : Nat) (set : Nat) (w : Nat) (e : DirE) :
    (State.setDirE s n set w e).mem = s.mem := rfl
@[simp] theorem State.setDirE_marked (s : State) (n : Nat) (set : Nat) (w : Nat) (e : DirE) :
    (State.setDirE s n set w e).marked = s.marked := rfl
@[simp] theorem State.setDirE_net (s : State) (n : Nat) (set : Nat) (w : Nat) (e : DirE) :
    (State.setDirE s n set w e).net = s.net := rfl
@[simp] theorem State.setDirE_free (s : State) (n : Nat) (set : Nat) (w : Nat) (e : DirE) :
    (State.setDirE s n set w e).free = s.free := rfl
@[simp] theorem State.setDirE_core (s : State) (n : Nat) (set : Nat) (w : Nat) (e : DirE) :
    (State.setDirE s n set w e).core = s.core := rfl
@[simp] theorem State.setDirE_die (s : State) (n : Nat) (set : Nat) (w : Nat) (e : DirE) :
    (State.setDirE s n set w e).die = s.die := rfl
@[simp] theorem State.setDirE_pass (s : State) (n : Nat) (set : Nat) (w : Nat) (e : DirE) :
    (State.setDirE s n set w e).pass = s.pass := rfl
@[simp] theorem State.setDirE_chan (s : State) (n : Nat) (set : Nat) (w : Nat) (e : DirE) :
    (State.setDirE s n set w e).chan = s.chan := rfl
@[simp] theorem State.setDirE_mesa (s : State) (n : Nat) (set : Nat) (w : Nat) (e : DirE) :
    (State.setDirE s n set w e).mesa = s.mesa := rfl
@[simp] theorem State.setDirE_meter (s : State) (n : Nat) (set : Nat) (w : Nat) (e : DirE) :
    (State.setDirE s n set w e).meter = s.meter := rfl
@[simp] theorem State.setDirE_qos (s : State) (n : Nat) (set : Nat) (w : Nat) (e : DirE) :
    (State.setDirE s n set w e).qos = s.qos := rfl
@[simp] theorem State.setDirE_hzn (s : State) (n : Nat) (set : Nat) (w : Nat) (e : DirE) :
    (State.setDirE s n set w e).hzn = s.hzn := rfl
@[simp] theorem State.setDirE_xce (s : State) (n : Nat) (set : Nat) (w : Nat) (e : DirE) :
    (State.setDirE s n set w e).xce = s.xce := rfl
@[simp] theorem State.setDirE_io (s : State) (n : Nat) (set : Nat) (w : Nat) (e : DirE) :
    (State.setDirE s n set w e).io = s.io := rfl
@[simp] theorem State.setDirE_ras (s : State) (n : Nat) (set : Nat) (w : Nat) (e : DirE) :
    (State.setDirE s n set w e).ras = s.ras := rfl
@[simp] theorem State.setDirE_tvx (s : State) (n : Nat) (set : Nat) (w : Nat) (e : DirE) :
    (State.setDirE s n set w e).tvx = s.tvx := rfl
@[simp] theorem State.setDirE_pwr (s : State) (n : Nat) (set : Nat) (w : Nat) (e : DirE) :
    (State.setDirE s n set w e).pwr = s.pwr := rfl
@[simp] theorem State.setDirE_ccol (s : State) (n : Nat) (set : Nat) (w : Nat) (e : DirE) :
    (State.setDirE s n set w e).ccol = s.ccol := rfl
@[simp] theorem State.setRptE_pending (s : State) (n : Nat) (set : Nat) (w : Nat) (e : RptE) :
    (State.setRptE s n set w e).pending = s.pending := rfl
@[simp] theorem State.setRptE_regs (s : State) (n : Nat) (set : Nat) (w : Nat) (e : RptE) :
    (State.setRptE s n set w e).regs = s.regs := rfl
@[simp] theorem State.setRptE_mem (s : State) (n : Nat) (set : Nat) (w : Nat) (e : RptE) :
    (State.setRptE s n set w e).mem = s.mem := rfl
@[simp] theorem State.setRptE_marked (s : State) (n : Nat) (set : Nat) (w : Nat) (e : RptE) :
    (State.setRptE s n set w e).marked = s.marked := rfl
@[simp] theorem State.setRptE_net (s : State) (n : Nat) (set : Nat) (w : Nat) (e : RptE) :
    (State.setRptE s n set w e).net = s.net := rfl
@[simp] theorem State.setRptE_free (s : State) (n : Nat) (set : Nat) (w : Nat) (e : RptE) :
    (State.setRptE s n set w e).free = s.free := rfl
@[simp] theorem State.setRptE_core (s : State) (n : Nat) (set : Nat) (w : Nat) (e : RptE) :
    (State.setRptE s n set w e).core = s.core := rfl
@[simp] theorem State.setRptE_die (s : State) (n : Nat) (set : Nat) (w : Nat) (e : RptE) :
    (State.setRptE s n set w e).die = s.die := rfl
@[simp] theorem State.setRptE_pass (s : State) (n : Nat) (set : Nat) (w : Nat) (e : RptE) :
    (State.setRptE s n set w e).pass = s.pass := rfl
@[simp] theorem State.setRptE_chan (s : State) (n : Nat) (set : Nat) (w : Nat) (e : RptE) :
    (State.setRptE s n set w e).chan = s.chan := rfl
@[simp] theorem State.setRptE_mesa (s : State) (n : Nat) (set : Nat) (w : Nat) (e : RptE) :
    (State.setRptE s n set w e).mesa = s.mesa := rfl
@[simp] theorem State.setRptE_meter (s : State) (n : Nat) (set : Nat) (w : Nat) (e : RptE) :
    (State.setRptE s n set w e).meter = s.meter := rfl
@[simp] theorem State.setRptE_qos (s : State) (n : Nat) (set : Nat) (w : Nat) (e : RptE) :
    (State.setRptE s n set w e).qos = s.qos := rfl
@[simp] theorem State.setRptE_hzn (s : State) (n : Nat) (set : Nat) (w : Nat) (e : RptE) :
    (State.setRptE s n set w e).hzn = s.hzn := rfl
@[simp] theorem State.setRptE_xce (s : State) (n : Nat) (set : Nat) (w : Nat) (e : RptE) :
    (State.setRptE s n set w e).xce = s.xce := rfl
@[simp] theorem State.setRptE_io (s : State) (n : Nat) (set : Nat) (w : Nat) (e : RptE) :
    (State.setRptE s n set w e).io = s.io := rfl
@[simp] theorem State.setRptE_ras (s : State) (n : Nat) (set : Nat) (w : Nat) (e : RptE) :
    (State.setRptE s n set w e).ras = s.ras := rfl
@[simp] theorem State.setRptE_tvx (s : State) (n : Nat) (set : Nat) (w : Nat) (e : RptE) :
    (State.setRptE s n set w e).tvx = s.tvx := rfl
@[simp] theorem State.setRptE_pwr (s : State) (n : Nat) (set : Nat) (w : Nat) (e : RptE) :
    (State.setRptE s n set w e).pwr = s.pwr := rfl
@[simp] theorem State.setRptE_ccol (s : State) (n : Nat) (set : Nat) (w : Nat) (e : RptE) :
    (State.setRptE s n set w e).ccol = s.ccol := rfl
@[simp] theorem State.setRldE_pending (s : State) (n : Nat) (set : Nat) (w : Nat) (e : RldE) :
    (State.setRldE s n set w e).pending = s.pending := rfl
@[simp] theorem State.setRldE_regs (s : State) (n : Nat) (set : Nat) (w : Nat) (e : RldE) :
    (State.setRldE s n set w e).regs = s.regs := rfl
@[simp] theorem State.setRldE_mem (s : State) (n : Nat) (set : Nat) (w : Nat) (e : RldE) :
    (State.setRldE s n set w e).mem = s.mem := rfl
@[simp] theorem State.setRldE_marked (s : State) (n : Nat) (set : Nat) (w : Nat) (e : RldE) :
    (State.setRldE s n set w e).marked = s.marked := rfl
@[simp] theorem State.setRldE_net (s : State) (n : Nat) (set : Nat) (w : Nat) (e : RldE) :
    (State.setRldE s n set w e).net = s.net := rfl
@[simp] theorem State.setRldE_free (s : State) (n : Nat) (set : Nat) (w : Nat) (e : RldE) :
    (State.setRldE s n set w e).free = s.free := rfl
@[simp] theorem State.setRldE_core (s : State) (n : Nat) (set : Nat) (w : Nat) (e : RldE) :
    (State.setRldE s n set w e).core = s.core := rfl
@[simp] theorem State.setRldE_die (s : State) (n : Nat) (set : Nat) (w : Nat) (e : RldE) :
    (State.setRldE s n set w e).die = s.die := rfl
@[simp] theorem State.setRldE_pass (s : State) (n : Nat) (set : Nat) (w : Nat) (e : RldE) :
    (State.setRldE s n set w e).pass = s.pass := rfl
@[simp] theorem State.setRldE_chan (s : State) (n : Nat) (set : Nat) (w : Nat) (e : RldE) :
    (State.setRldE s n set w e).chan = s.chan := rfl
@[simp] theorem State.setRldE_mesa (s : State) (n : Nat) (set : Nat) (w : Nat) (e : RldE) :
    (State.setRldE s n set w e).mesa = s.mesa := rfl
@[simp] theorem State.setRldE_meter (s : State) (n : Nat) (set : Nat) (w : Nat) (e : RldE) :
    (State.setRldE s n set w e).meter = s.meter := rfl
@[simp] theorem State.setRldE_qos (s : State) (n : Nat) (set : Nat) (w : Nat) (e : RldE) :
    (State.setRldE s n set w e).qos = s.qos := rfl
@[simp] theorem State.setRldE_hzn (s : State) (n : Nat) (set : Nat) (w : Nat) (e : RldE) :
    (State.setRldE s n set w e).hzn = s.hzn := rfl
@[simp] theorem State.setRldE_xce (s : State) (n : Nat) (set : Nat) (w : Nat) (e : RldE) :
    (State.setRldE s n set w e).xce = s.xce := rfl
@[simp] theorem State.setRldE_io (s : State) (n : Nat) (set : Nat) (w : Nat) (e : RldE) :
    (State.setRldE s n set w e).io = s.io := rfl
@[simp] theorem State.setRldE_ras (s : State) (n : Nat) (set : Nat) (w : Nat) (e : RldE) :
    (State.setRldE s n set w e).ras = s.ras := rfl
@[simp] theorem State.setRldE_tvx (s : State) (n : Nat) (set : Nat) (w : Nat) (e : RldE) :
    (State.setRldE s n set w e).tvx = s.tvx := rfl
@[simp] theorem State.setRldE_pwr (s : State) (n : Nat) (set : Nat) (w : Nat) (e : RldE) :
    (State.setRldE s n set w e).pwr = s.pwr := rfl
@[simp] theorem State.setRldE_ccol (s : State) (n : Nat) (set : Nat) (w : Nat) (e : RldE) :
    (State.setRldE s n set w e).ccol = s.ccol := rfl
@[simp] theorem State.setTok_pending (s : State) (n : Nat) (t : Nat) (k : Tok) :
    (State.setTok s n t k).pending = s.pending := rfl
@[simp] theorem State.setTok_regs (s : State) (n : Nat) (t : Nat) (k : Tok) :
    (State.setTok s n t k).regs = s.regs := rfl
@[simp] theorem State.setTok_mem (s : State) (n : Nat) (t : Nat) (k : Tok) :
    (State.setTok s n t k).mem = s.mem := rfl
@[simp] theorem State.setTok_marked (s : State) (n : Nat) (t : Nat) (k : Tok) :
    (State.setTok s n t k).marked = s.marked := rfl
@[simp] theorem State.setTok_net (s : State) (n : Nat) (t : Nat) (k : Tok) :
    (State.setTok s n t k).net = s.net := rfl
@[simp] theorem State.setTok_free (s : State) (n : Nat) (t : Nat) (k : Tok) :
    (State.setTok s n t k).free = s.free := rfl
@[simp] theorem State.setTok_core (s : State) (n : Nat) (t : Nat) (k : Tok) :
    (State.setTok s n t k).core = s.core := rfl
@[simp] theorem State.setTok_die (s : State) (n : Nat) (t : Nat) (k : Tok) :
    (State.setTok s n t k).die = s.die := rfl
@[simp] theorem State.setTok_pass (s : State) (n : Nat) (t : Nat) (k : Tok) :
    (State.setTok s n t k).pass = s.pass := rfl
@[simp] theorem State.setTok_chan (s : State) (n : Nat) (t : Nat) (k : Tok) :
    (State.setTok s n t k).chan = s.chan := rfl
@[simp] theorem State.setTok_mesa (s : State) (n : Nat) (t : Nat) (k : Tok) :
    (State.setTok s n t k).mesa = s.mesa := rfl
@[simp] theorem State.setTok_meter (s : State) (n : Nat) (t : Nat) (k : Tok) :
    (State.setTok s n t k).meter = s.meter := rfl
@[simp] theorem State.setTok_qos (s : State) (n : Nat) (t : Nat) (k : Tok) :
    (State.setTok s n t k).qos = s.qos := rfl
@[simp] theorem State.setTok_hzn (s : State) (n : Nat) (t : Nat) (k : Tok) :
    (State.setTok s n t k).hzn = s.hzn := rfl
@[simp] theorem State.setTok_xce (s : State) (n : Nat) (t : Nat) (k : Tok) :
    (State.setTok s n t k).xce = s.xce := rfl
@[simp] theorem State.setTok_io (s : State) (n : Nat) (t : Nat) (k : Tok) :
    (State.setTok s n t k).io = s.io := rfl
@[simp] theorem State.setTok_ras (s : State) (n : Nat) (t : Nat) (k : Tok) :
    (State.setTok s n t k).ras = s.ras := rfl
@[simp] theorem State.setTok_tvx (s : State) (n : Nat) (t : Nat) (k : Tok) :
    (State.setTok s n t k).tvx = s.tvx := rfl
@[simp] theorem State.setTok_pwr (s : State) (n : Nat) (t : Nat) (k : Tok) :
    (State.setTok s n t k).pwr = s.pwr := rfl
@[simp] theorem State.setTok_ccol (s : State) (n : Nat) (t : Nat) (k : Tok) :
    (State.setTok s n t k).ccol = s.ccol := rfl
@[simp] theorem State.setOwed_pending (s : State) (n : Nat) (first : Nat) (v : List (Nat × Nat)) :
    (State.setOwed s n first v).pending = s.pending := rfl
@[simp] theorem State.setOwed_regs (s : State) (n : Nat) (first : Nat) (v : List (Nat × Nat)) :
    (State.setOwed s n first v).regs = s.regs := rfl
@[simp] theorem State.setOwed_mem (s : State) (n : Nat) (first : Nat) (v : List (Nat × Nat)) :
    (State.setOwed s n first v).mem = s.mem := rfl
@[simp] theorem State.setOwed_marked (s : State) (n : Nat) (first : Nat) (v : List (Nat × Nat)) :
    (State.setOwed s n first v).marked = s.marked := rfl
@[simp] theorem State.setOwed_net (s : State) (n : Nat) (first : Nat) (v : List (Nat × Nat)) :
    (State.setOwed s n first v).net = s.net := rfl
@[simp] theorem State.setOwed_free (s : State) (n : Nat) (first : Nat) (v : List (Nat × Nat)) :
    (State.setOwed s n first v).free = s.free := rfl
@[simp] theorem State.setOwed_core (s : State) (n : Nat) (first : Nat) (v : List (Nat × Nat)) :
    (State.setOwed s n first v).core = s.core := rfl
@[simp] theorem State.setOwed_die (s : State) (n : Nat) (first : Nat) (v : List (Nat × Nat)) :
    (State.setOwed s n first v).die = s.die := rfl
@[simp] theorem State.setOwed_pass (s : State) (n : Nat) (first : Nat) (v : List (Nat × Nat)) :
    (State.setOwed s n first v).pass = s.pass := rfl
@[simp] theorem State.setOwed_chan (s : State) (n : Nat) (first : Nat) (v : List (Nat × Nat)) :
    (State.setOwed s n first v).chan = s.chan := rfl
@[simp] theorem State.setOwed_mesa (s : State) (n : Nat) (first : Nat) (v : List (Nat × Nat)) :
    (State.setOwed s n first v).mesa = s.mesa := rfl
@[simp] theorem State.setOwed_meter (s : State) (n : Nat) (first : Nat) (v : List (Nat × Nat)) :
    (State.setOwed s n first v).meter = s.meter := rfl
@[simp] theorem State.setOwed_qos (s : State) (n : Nat) (first : Nat) (v : List (Nat × Nat)) :
    (State.setOwed s n first v).qos = s.qos := rfl
@[simp] theorem State.setOwed_hzn (s : State) (n : Nat) (first : Nat) (v : List (Nat × Nat)) :
    (State.setOwed s n first v).hzn = s.hzn := rfl
@[simp] theorem State.setOwed_xce (s : State) (n : Nat) (first : Nat) (v : List (Nat × Nat)) :
    (State.setOwed s n first v).xce = s.xce := rfl
@[simp] theorem State.setOwed_io (s : State) (n : Nat) (first : Nat) (v : List (Nat × Nat)) :
    (State.setOwed s n first v).io = s.io := rfl
@[simp] theorem State.setOwed_ras (s : State) (n : Nat) (first : Nat) (v : List (Nat × Nat)) :
    (State.setOwed s n first v).ras = s.ras := rfl
@[simp] theorem State.setOwed_tvx (s : State) (n : Nat) (first : Nat) (v : List (Nat × Nat)) :
    (State.setOwed s n first v).tvx = s.tvx := rfl
@[simp] theorem State.setOwed_pwr (s : State) (n : Nat) (first : Nat) (v : List (Nat × Nat)) :
    (State.setOwed s n first v).pwr = s.pwr := rfl
@[simp] theorem State.setOwed_ccol (s : State) (n : Nat) (first : Nat) (v : List (Nat × Nat)) :
    (State.setOwed s n first v).ccol = s.ccol := rfl
@[simp] theorem State.setStrm_pending (s : State) (d : Nat) (dir : Nat) (x : PStream) :
    (State.setStrm s d dir x).pending = s.pending := rfl
@[simp] theorem State.setStrm_regs (s : State) (d : Nat) (dir : Nat) (x : PStream) :
    (State.setStrm s d dir x).regs = s.regs := rfl
@[simp] theorem State.setStrm_mem (s : State) (d : Nat) (dir : Nat) (x : PStream) :
    (State.setStrm s d dir x).mem = s.mem := rfl
@[simp] theorem State.setStrm_marked (s : State) (d : Nat) (dir : Nat) (x : PStream) :
    (State.setStrm s d dir x).marked = s.marked := rfl
@[simp] theorem State.setStrm_net (s : State) (d : Nat) (dir : Nat) (x : PStream) :
    (State.setStrm s d dir x).net = s.net := rfl
@[simp] theorem State.setStrm_free (s : State) (d : Nat) (dir : Nat) (x : PStream) :
    (State.setStrm s d dir x).free = s.free := rfl
@[simp] theorem State.setStrm_core (s : State) (d : Nat) (dir : Nat) (x : PStream) :
    (State.setStrm s d dir x).core = s.core := rfl
@[simp] theorem State.setStrm_die (s : State) (d : Nat) (dir : Nat) (x : PStream) :
    (State.setStrm s d dir x).die = s.die := rfl
@[simp] theorem State.setStrm_home (s : State) (d : Nat) (dir : Nat) (x : PStream) :
    (State.setStrm s d dir x).home = s.home := rfl
@[simp] theorem State.setStrm_chan (s : State) (d : Nat) (dir : Nat) (x : PStream) :
    (State.setStrm s d dir x).chan = s.chan := rfl
@[simp] theorem State.setStrm_mesa (s : State) (d : Nat) (dir : Nat) (x : PStream) :
    (State.setStrm s d dir x).mesa = s.mesa := rfl
@[simp] theorem State.setStrm_meter (s : State) (d : Nat) (dir : Nat) (x : PStream) :
    (State.setStrm s d dir x).meter = s.meter := rfl
@[simp] theorem State.setStrm_qos (s : State) (d : Nat) (dir : Nat) (x : PStream) :
    (State.setStrm s d dir x).qos = s.qos := rfl
@[simp] theorem State.setStrm_hzn (s : State) (d : Nat) (dir : Nat) (x : PStream) :
    (State.setStrm s d dir x).hzn = s.hzn := rfl
@[simp] theorem State.setStrm_xce (s : State) (d : Nat) (dir : Nat) (x : PStream) :
    (State.setStrm s d dir x).xce = s.xce := rfl
@[simp] theorem State.setStrm_io (s : State) (d : Nat) (dir : Nat) (x : PStream) :
    (State.setStrm s d dir x).io = s.io := rfl
@[simp] theorem State.setStrm_ras (s : State) (d : Nat) (dir : Nat) (x : PStream) :
    (State.setStrm s d dir x).ras = s.ras := rfl
@[simp] theorem State.setStrm_tvx (s : State) (d : Nat) (dir : Nat) (x : PStream) :
    (State.setStrm s d dir x).tvx = s.tvx := rfl
@[simp] theorem State.setStrm_pwr (s : State) (d : Nat) (dir : Nat) (x : PStream) :
    (State.setStrm s d dir x).pwr = s.pwr := rfl
@[simp] theorem State.setStrm_ccol (s : State) (d : Nat) (dir : Nat) (x : PStream) :
    (State.setStrm s d dir x).ccol = s.ccol := rfl
@[simp] theorem State.setPEnd_pending (s : State) (e : Nat) (p : Nat) (x : PEnd) :
    (State.setPEnd s e p x).pending = s.pending := rfl
@[simp] theorem State.setPEnd_regs (s : State) (e : Nat) (p : Nat) (x : PEnd) :
    (State.setPEnd s e p x).regs = s.regs := rfl
@[simp] theorem State.setPEnd_mem (s : State) (e : Nat) (p : Nat) (x : PEnd) :
    (State.setPEnd s e p x).mem = s.mem := rfl
@[simp] theorem State.setPEnd_marked (s : State) (e : Nat) (p : Nat) (x : PEnd) :
    (State.setPEnd s e p x).marked = s.marked := rfl
@[simp] theorem State.setPEnd_net (s : State) (e : Nat) (p : Nat) (x : PEnd) :
    (State.setPEnd s e p x).net = s.net := rfl
@[simp] theorem State.setPEnd_free (s : State) (e : Nat) (p : Nat) (x : PEnd) :
    (State.setPEnd s e p x).free = s.free := rfl
@[simp] theorem State.setPEnd_core (s : State) (e : Nat) (p : Nat) (x : PEnd) :
    (State.setPEnd s e p x).core = s.core := rfl
@[simp] theorem State.setPEnd_die (s : State) (e : Nat) (p : Nat) (x : PEnd) :
    (State.setPEnd s e p x).die = s.die := rfl
@[simp] theorem State.setPEnd_home (s : State) (e : Nat) (p : Nat) (x : PEnd) :
    (State.setPEnd s e p x).home = s.home := rfl
@[simp] theorem State.setPEnd_chan (s : State) (e : Nat) (p : Nat) (x : PEnd) :
    (State.setPEnd s e p x).chan = s.chan := rfl
@[simp] theorem State.setPEnd_mesa (s : State) (e : Nat) (p : Nat) (x : PEnd) :
    (State.setPEnd s e p x).mesa = s.mesa := rfl
@[simp] theorem State.setPEnd_meter (s : State) (e : Nat) (p : Nat) (x : PEnd) :
    (State.setPEnd s e p x).meter = s.meter := rfl
@[simp] theorem State.setPEnd_qos (s : State) (e : Nat) (p : Nat) (x : PEnd) :
    (State.setPEnd s e p x).qos = s.qos := rfl
@[simp] theorem State.setPEnd_hzn (s : State) (e : Nat) (p : Nat) (x : PEnd) :
    (State.setPEnd s e p x).hzn = s.hzn := rfl
@[simp] theorem State.setPEnd_xce (s : State) (e : Nat) (p : Nat) (x : PEnd) :
    (State.setPEnd s e p x).xce = s.xce := rfl
@[simp] theorem State.setPEnd_io (s : State) (e : Nat) (p : Nat) (x : PEnd) :
    (State.setPEnd s e p x).io = s.io := rfl
@[simp] theorem State.setPEnd_ras (s : State) (e : Nat) (p : Nat) (x : PEnd) :
    (State.setPEnd s e p x).ras = s.ras := rfl
@[simp] theorem State.setPEnd_tvx (s : State) (e : Nat) (p : Nat) (x : PEnd) :
    (State.setPEnd s e p x).tvx = s.tvx := rfl
@[simp] theorem State.setPEnd_pwr (s : State) (e : Nat) (p : Nat) (x : PEnd) :
    (State.setPEnd s e p x).pwr = s.pwr := rfl
@[simp] theorem State.setPEnd_ccol (s : State) (e : Nat) (p : Nat) (x : PEnd) :
    (State.setPEnd s e p x).ccol = s.ccol := rfl
@[simp] theorem State.setL2_pending (s : State) (h : Nat) (set : Nat) (w : Nat) (e : L2Way) :
    (State.setL2 s h set w e).pending = s.pending := rfl
@[simp] theorem State.setL2_regs (s : State) (h : Nat) (set : Nat) (w : Nat) (e : L2Way) :
    (State.setL2 s h set w e).regs = s.regs := rfl
@[simp] theorem State.setL2_mem (s : State) (h : Nat) (set : Nat) (w : Nat) (e : L2Way) :
    (State.setL2 s h set w e).mem = s.mem := rfl
@[simp] theorem State.setL2_marked (s : State) (h : Nat) (set : Nat) (w : Nat) (e : L2Way) :
    (State.setL2 s h set w e).marked = s.marked := rfl
@[simp] theorem State.setL2_net (s : State) (h : Nat) (set : Nat) (w : Nat) (e : L2Way) :
    (State.setL2 s h set w e).net = s.net := rfl
@[simp] theorem State.setL2_free (s : State) (h : Nat) (set : Nat) (w : Nat) (e : L2Way) :
    (State.setL2 s h set w e).free = s.free := rfl
@[simp] theorem State.setL2_die (s : State) (h : Nat) (set : Nat) (w : Nat) (e : L2Way) :
    (State.setL2 s h set w e).die = s.die := rfl
@[simp] theorem State.setL2_home (s : State) (h : Nat) (set : Nat) (w : Nat) (e : L2Way) :
    (State.setL2 s h set w e).home = s.home := rfl
@[simp] theorem State.setL2_pass (s : State) (h : Nat) (set : Nat) (w : Nat) (e : L2Way) :
    (State.setL2 s h set w e).pass = s.pass := rfl
@[simp] theorem State.setL2_chan (s : State) (h : Nat) (set : Nat) (w : Nat) (e : L2Way) :
    (State.setL2 s h set w e).chan = s.chan := rfl
@[simp] theorem State.setL2_mesa (s : State) (h : Nat) (set : Nat) (w : Nat) (e : L2Way) :
    (State.setL2 s h set w e).mesa = s.mesa := rfl
@[simp] theorem State.setL2_meter (s : State) (h : Nat) (set : Nat) (w : Nat) (e : L2Way) :
    (State.setL2 s h set w e).meter = s.meter := rfl
@[simp] theorem State.setL2_qos (s : State) (h : Nat) (set : Nat) (w : Nat) (e : L2Way) :
    (State.setL2 s h set w e).qos = s.qos := rfl
@[simp] theorem State.setL2_hzn (s : State) (h : Nat) (set : Nat) (w : Nat) (e : L2Way) :
    (State.setL2 s h set w e).hzn = s.hzn := rfl
@[simp] theorem State.setL2_xce (s : State) (h : Nat) (set : Nat) (w : Nat) (e : L2Way) :
    (State.setL2 s h set w e).xce = s.xce := rfl
@[simp] theorem State.setL2_io (s : State) (h : Nat) (set : Nat) (w : Nat) (e : L2Way) :
    (State.setL2 s h set w e).io = s.io := rfl
@[simp] theorem State.setL2_ras (s : State) (h : Nat) (set : Nat) (w : Nat) (e : L2Way) :
    (State.setL2 s h set w e).ras = s.ras := rfl
@[simp] theorem State.setL2_tvx (s : State) (h : Nat) (set : Nat) (w : Nat) (e : L2Way) :
    (State.setL2 s h set w e).tvx = s.tvx := rfl
@[simp] theorem State.setL2_pwr (s : State) (h : Nat) (set : Nat) (w : Nat) (e : L2Way) :
    (State.setL2 s h set w e).pwr = s.pwr := rfl
@[simp] theorem State.setL2_ccol (s : State) (h : Nat) (set : Nat) (w : Nat) (e : L2Way) :
    (State.setL2 s h set w e).ccol = s.ccol := rfl
@[simp] theorem State.setVc_pending (s : State) (d : Nat) (sl : Nat) (set : Nat) (w : Nat) (e : VcWay) :
    (State.setVc s d sl set w e).pending = s.pending := rfl
@[simp] theorem State.setVc_regs (s : State) (d : Nat) (sl : Nat) (set : Nat) (w : Nat) (e : VcWay) :
    (State.setVc s d sl set w e).regs = s.regs := rfl
@[simp] theorem State.setVc_mem (s : State) (d : Nat) (sl : Nat) (set : Nat) (w : Nat) (e : VcWay) :
    (State.setVc s d sl set w e).mem = s.mem := rfl
@[simp] theorem State.setVc_marked (s : State) (d : Nat) (sl : Nat) (set : Nat) (w : Nat) (e : VcWay) :
    (State.setVc s d sl set w e).marked = s.marked := rfl
@[simp] theorem State.setVc_net (s : State) (d : Nat) (sl : Nat) (set : Nat) (w : Nat) (e : VcWay) :
    (State.setVc s d sl set w e).net = s.net := rfl
@[simp] theorem State.setVc_free (s : State) (d : Nat) (sl : Nat) (set : Nat) (w : Nat) (e : VcWay) :
    (State.setVc s d sl set w e).free = s.free := rfl
@[simp] theorem State.setVc_core (s : State) (d : Nat) (sl : Nat) (set : Nat) (w : Nat) (e : VcWay) :
    (State.setVc s d sl set w e).core = s.core := rfl
@[simp] theorem State.setVc_home (s : State) (d : Nat) (sl : Nat) (set : Nat) (w : Nat) (e : VcWay) :
    (State.setVc s d sl set w e).home = s.home := rfl
@[simp] theorem State.setVc_pass (s : State) (d : Nat) (sl : Nat) (set : Nat) (w : Nat) (e : VcWay) :
    (State.setVc s d sl set w e).pass = s.pass := rfl
@[simp] theorem State.setVc_chan (s : State) (d : Nat) (sl : Nat) (set : Nat) (w : Nat) (e : VcWay) :
    (State.setVc s d sl set w e).chan = s.chan := rfl
@[simp] theorem State.setVc_mesa (s : State) (d : Nat) (sl : Nat) (set : Nat) (w : Nat) (e : VcWay) :
    (State.setVc s d sl set w e).mesa = s.mesa := rfl
@[simp] theorem State.setVc_meter (s : State) (d : Nat) (sl : Nat) (set : Nat) (w : Nat) (e : VcWay) :
    (State.setVc s d sl set w e).meter = s.meter := rfl
@[simp] theorem State.setVc_qos (s : State) (d : Nat) (sl : Nat) (set : Nat) (w : Nat) (e : VcWay) :
    (State.setVc s d sl set w e).qos = s.qos := rfl
@[simp] theorem State.setVc_hzn (s : State) (d : Nat) (sl : Nat) (set : Nat) (w : Nat) (e : VcWay) :
    (State.setVc s d sl set w e).hzn = s.hzn := rfl
@[simp] theorem State.setVc_xce (s : State) (d : Nat) (sl : Nat) (set : Nat) (w : Nat) (e : VcWay) :
    (State.setVc s d sl set w e).xce = s.xce := rfl
@[simp] theorem State.setVc_io (s : State) (d : Nat) (sl : Nat) (set : Nat) (w : Nat) (e : VcWay) :
    (State.setVc s d sl set w e).io = s.io := rfl
@[simp] theorem State.setVc_ras (s : State) (d : Nat) (sl : Nat) (set : Nat) (w : Nat) (e : VcWay) :
    (State.setVc s d sl set w e).ras = s.ras := rfl
@[simp] theorem State.setVc_tvx (s : State) (d : Nat) (sl : Nat) (set : Nat) (w : Nat) (e : VcWay) :
    (State.setVc s d sl set w e).tvx = s.tvx := rfl
@[simp] theorem State.setVc_pwr (s : State) (d : Nat) (sl : Nat) (set : Nat) (w : Nat) (e : VcWay) :
    (State.setVc s d sl set w e).pwr = s.pwr := rfl
@[simp] theorem State.setVc_ccol (s : State) (d : Nat) (sl : Nat) (set : Nat) (w : Nat) (e : VcWay) :
    (State.setVc s d sl set w e).ccol = s.ccol := rfl
@[simp] theorem State.setSf_pending (s : State) (d : Nat) (b : Nat) (set : Nat) (w : Nat) (e : SfWay) :
    (State.setSf s d b set w e).pending = s.pending := rfl
@[simp] theorem State.setSf_regs (s : State) (d : Nat) (b : Nat) (set : Nat) (w : Nat) (e : SfWay) :
    (State.setSf s d b set w e).regs = s.regs := rfl
@[simp] theorem State.setSf_mem (s : State) (d : Nat) (b : Nat) (set : Nat) (w : Nat) (e : SfWay) :
    (State.setSf s d b set w e).mem = s.mem := rfl
@[simp] theorem State.setSf_marked (s : State) (d : Nat) (b : Nat) (set : Nat) (w : Nat) (e : SfWay) :
    (State.setSf s d b set w e).marked = s.marked := rfl
@[simp] theorem State.setSf_net (s : State) (d : Nat) (b : Nat) (set : Nat) (w : Nat) (e : SfWay) :
    (State.setSf s d b set w e).net = s.net := rfl
@[simp] theorem State.setSf_free (s : State) (d : Nat) (b : Nat) (set : Nat) (w : Nat) (e : SfWay) :
    (State.setSf s d b set w e).free = s.free := rfl
@[simp] theorem State.setSf_core (s : State) (d : Nat) (b : Nat) (set : Nat) (w : Nat) (e : SfWay) :
    (State.setSf s d b set w e).core = s.core := rfl
@[simp] theorem State.setSf_home (s : State) (d : Nat) (b : Nat) (set : Nat) (w : Nat) (e : SfWay) :
    (State.setSf s d b set w e).home = s.home := rfl
@[simp] theorem State.setSf_pass (s : State) (d : Nat) (b : Nat) (set : Nat) (w : Nat) (e : SfWay) :
    (State.setSf s d b set w e).pass = s.pass := rfl
@[simp] theorem State.setSf_chan (s : State) (d : Nat) (b : Nat) (set : Nat) (w : Nat) (e : SfWay) :
    (State.setSf s d b set w e).chan = s.chan := rfl
@[simp] theorem State.setSf_mesa (s : State) (d : Nat) (b : Nat) (set : Nat) (w : Nat) (e : SfWay) :
    (State.setSf s d b set w e).mesa = s.mesa := rfl
@[simp] theorem State.setSf_meter (s : State) (d : Nat) (b : Nat) (set : Nat) (w : Nat) (e : SfWay) :
    (State.setSf s d b set w e).meter = s.meter := rfl
@[simp] theorem State.setSf_qos (s : State) (d : Nat) (b : Nat) (set : Nat) (w : Nat) (e : SfWay) :
    (State.setSf s d b set w e).qos = s.qos := rfl
@[simp] theorem State.setSf_hzn (s : State) (d : Nat) (b : Nat) (set : Nat) (w : Nat) (e : SfWay) :
    (State.setSf s d b set w e).hzn = s.hzn := rfl
@[simp] theorem State.setSf_xce (s : State) (d : Nat) (b : Nat) (set : Nat) (w : Nat) (e : SfWay) :
    (State.setSf s d b set w e).xce = s.xce := rfl
@[simp] theorem State.setSf_io (s : State) (d : Nat) (b : Nat) (set : Nat) (w : Nat) (e : SfWay) :
    (State.setSf s d b set w e).io = s.io := rfl
@[simp] theorem State.setSf_ras (s : State) (d : Nat) (b : Nat) (set : Nat) (w : Nat) (e : SfWay) :
    (State.setSf s d b set w e).ras = s.ras := rfl
@[simp] theorem State.setSf_tvx (s : State) (d : Nat) (b : Nat) (set : Nat) (w : Nat) (e : SfWay) :
    (State.setSf s d b set w e).tvx = s.tvx := rfl
@[simp] theorem State.setSf_pwr (s : State) (d : Nat) (b : Nat) (set : Nat) (w : Nat) (e : SfWay) :
    (State.setSf s d b set w e).pwr = s.pwr := rfl
@[simp] theorem State.setSf_ccol (s : State) (d : Nat) (b : Nat) (set : Nat) (w : Nat) (e : SfWay) :
    (State.setSf s d b set w e).ccol = s.ccol := rfl
@[simp] theorem State.setL1d_pending (s : State) (h : Nat) (set : Nat) (w : Nat) (e : L1Way) :
    (State.setL1d s h set w e).pending = s.pending := rfl
@[simp] theorem State.setL1d_regs (s : State) (h : Nat) (set : Nat) (w : Nat) (e : L1Way) :
    (State.setL1d s h set w e).regs = s.regs := rfl
@[simp] theorem State.setL1d_mem (s : State) (h : Nat) (set : Nat) (w : Nat) (e : L1Way) :
    (State.setL1d s h set w e).mem = s.mem := rfl
@[simp] theorem State.setL1d_marked (s : State) (h : Nat) (set : Nat) (w : Nat) (e : L1Way) :
    (State.setL1d s h set w e).marked = s.marked := rfl
@[simp] theorem State.setL1d_net (s : State) (h : Nat) (set : Nat) (w : Nat) (e : L1Way) :
    (State.setL1d s h set w e).net = s.net := rfl
@[simp] theorem State.setL1d_free (s : State) (h : Nat) (set : Nat) (w : Nat) (e : L1Way) :
    (State.setL1d s h set w e).free = s.free := rfl
@[simp] theorem State.setL1d_die (s : State) (h : Nat) (set : Nat) (w : Nat) (e : L1Way) :
    (State.setL1d s h set w e).die = s.die := rfl
@[simp] theorem State.setL1d_home (s : State) (h : Nat) (set : Nat) (w : Nat) (e : L1Way) :
    (State.setL1d s h set w e).home = s.home := rfl
@[simp] theorem State.setL1d_pass (s : State) (h : Nat) (set : Nat) (w : Nat) (e : L1Way) :
    (State.setL1d s h set w e).pass = s.pass := rfl
@[simp] theorem State.setL1d_chan (s : State) (h : Nat) (set : Nat) (w : Nat) (e : L1Way) :
    (State.setL1d s h set w e).chan = s.chan := rfl
@[simp] theorem State.setL1d_mesa (s : State) (h : Nat) (set : Nat) (w : Nat) (e : L1Way) :
    (State.setL1d s h set w e).mesa = s.mesa := rfl
@[simp] theorem State.setL1d_meter (s : State) (h : Nat) (set : Nat) (w : Nat) (e : L1Way) :
    (State.setL1d s h set w e).meter = s.meter := rfl
@[simp] theorem State.setL1d_qos (s : State) (h : Nat) (set : Nat) (w : Nat) (e : L1Way) :
    (State.setL1d s h set w e).qos = s.qos := rfl
@[simp] theorem State.setL1d_hzn (s : State) (h : Nat) (set : Nat) (w : Nat) (e : L1Way) :
    (State.setL1d s h set w e).hzn = s.hzn := rfl
@[simp] theorem State.setL1d_xce (s : State) (h : Nat) (set : Nat) (w : Nat) (e : L1Way) :
    (State.setL1d s h set w e).xce = s.xce := rfl
@[simp] theorem State.setL1d_io (s : State) (h : Nat) (set : Nat) (w : Nat) (e : L1Way) :
    (State.setL1d s h set w e).io = s.io := rfl
@[simp] theorem State.setL1d_ras (s : State) (h : Nat) (set : Nat) (w : Nat) (e : L1Way) :
    (State.setL1d s h set w e).ras = s.ras := rfl
@[simp] theorem State.setL1d_tvx (s : State) (h : Nat) (set : Nat) (w : Nat) (e : L1Way) :
    (State.setL1d s h set w e).tvx = s.tvx := rfl
@[simp] theorem State.setL1d_pwr (s : State) (h : Nat) (set : Nat) (w : Nat) (e : L1Way) :
    (State.setL1d s h set w e).pwr = s.pwr := rfl
@[simp] theorem State.setL1d_ccol (s : State) (h : Nat) (set : Nat) (w : Nat) (e : L1Way) :
    (State.setL1d s h set w e).ccol = s.ccol := rfl
@[simp] theorem State.setL1i_pending (s : State) (h : Nat) (set : Nat) (w : Nat) (e : L1Way) :
    (State.setL1i s h set w e).pending = s.pending := rfl
@[simp] theorem State.setL1i_regs (s : State) (h : Nat) (set : Nat) (w : Nat) (e : L1Way) :
    (State.setL1i s h set w e).regs = s.regs := rfl
@[simp] theorem State.setL1i_mem (s : State) (h : Nat) (set : Nat) (w : Nat) (e : L1Way) :
    (State.setL1i s h set w e).mem = s.mem := rfl
@[simp] theorem State.setL1i_marked (s : State) (h : Nat) (set : Nat) (w : Nat) (e : L1Way) :
    (State.setL1i s h set w e).marked = s.marked := rfl
@[simp] theorem State.setL1i_net (s : State) (h : Nat) (set : Nat) (w : Nat) (e : L1Way) :
    (State.setL1i s h set w e).net = s.net := rfl
@[simp] theorem State.setL1i_free (s : State) (h : Nat) (set : Nat) (w : Nat) (e : L1Way) :
    (State.setL1i s h set w e).free = s.free := rfl
@[simp] theorem State.setL1i_die (s : State) (h : Nat) (set : Nat) (w : Nat) (e : L1Way) :
    (State.setL1i s h set w e).die = s.die := rfl
@[simp] theorem State.setL1i_home (s : State) (h : Nat) (set : Nat) (w : Nat) (e : L1Way) :
    (State.setL1i s h set w e).home = s.home := rfl
@[simp] theorem State.setL1i_pass (s : State) (h : Nat) (set : Nat) (w : Nat) (e : L1Way) :
    (State.setL1i s h set w e).pass = s.pass := rfl
@[simp] theorem State.setL1i_chan (s : State) (h : Nat) (set : Nat) (w : Nat) (e : L1Way) :
    (State.setL1i s h set w e).chan = s.chan := rfl
@[simp] theorem State.setL1i_mesa (s : State) (h : Nat) (set : Nat) (w : Nat) (e : L1Way) :
    (State.setL1i s h set w e).mesa = s.mesa := rfl
@[simp] theorem State.setL1i_meter (s : State) (h : Nat) (set : Nat) (w : Nat) (e : L1Way) :
    (State.setL1i s h set w e).meter = s.meter := rfl
@[simp] theorem State.setL1i_qos (s : State) (h : Nat) (set : Nat) (w : Nat) (e : L1Way) :
    (State.setL1i s h set w e).qos = s.qos := rfl
@[simp] theorem State.setL1i_hzn (s : State) (h : Nat) (set : Nat) (w : Nat) (e : L1Way) :
    (State.setL1i s h set w e).hzn = s.hzn := rfl
@[simp] theorem State.setL1i_xce (s : State) (h : Nat) (set : Nat) (w : Nat) (e : L1Way) :
    (State.setL1i s h set w e).xce = s.xce := rfl
@[simp] theorem State.setL1i_io (s : State) (h : Nat) (set : Nat) (w : Nat) (e : L1Way) :
    (State.setL1i s h set w e).io = s.io := rfl
@[simp] theorem State.setL1i_ras (s : State) (h : Nat) (set : Nat) (w : Nat) (e : L1Way) :
    (State.setL1i s h set w e).ras = s.ras := rfl
@[simp] theorem State.setL1i_tvx (s : State) (h : Nat) (set : Nat) (w : Nat) (e : L1Way) :
    (State.setL1i s h set w e).tvx = s.tvx := rfl
@[simp] theorem State.setL1i_pwr (s : State) (h : Nat) (set : Nat) (w : Nat) (e : L1Way) :
    (State.setL1i s h set w e).pwr = s.pwr := rfl
@[simp] theorem State.setL1i_ccol (s : State) (h : Nat) (set : Nat) (w : Nat) (e : L1Way) :
    (State.setL1i s h set w e).ccol = s.ccol := rfl
@[simp] theorem State.setL1dPlru_pending (s : State) (h : Nat) (set : Nat) (v : Nat) :
    (State.setL1dPlru s h set v).pending = s.pending := rfl
@[simp] theorem State.setL1dPlru_regs (s : State) (h : Nat) (set : Nat) (v : Nat) :
    (State.setL1dPlru s h set v).regs = s.regs := rfl
@[simp] theorem State.setL1dPlru_mem (s : State) (h : Nat) (set : Nat) (v : Nat) :
    (State.setL1dPlru s h set v).mem = s.mem := rfl
@[simp] theorem State.setL1dPlru_marked (s : State) (h : Nat) (set : Nat) (v : Nat) :
    (State.setL1dPlru s h set v).marked = s.marked := rfl
@[simp] theorem State.setL1dPlru_net (s : State) (h : Nat) (set : Nat) (v : Nat) :
    (State.setL1dPlru s h set v).net = s.net := rfl
@[simp] theorem State.setL1dPlru_free (s : State) (h : Nat) (set : Nat) (v : Nat) :
    (State.setL1dPlru s h set v).free = s.free := rfl
@[simp] theorem State.setL1dPlru_die (s : State) (h : Nat) (set : Nat) (v : Nat) :
    (State.setL1dPlru s h set v).die = s.die := rfl
@[simp] theorem State.setL1dPlru_home (s : State) (h : Nat) (set : Nat) (v : Nat) :
    (State.setL1dPlru s h set v).home = s.home := rfl
@[simp] theorem State.setL1dPlru_pass (s : State) (h : Nat) (set : Nat) (v : Nat) :
    (State.setL1dPlru s h set v).pass = s.pass := rfl
@[simp] theorem State.setL1dPlru_chan (s : State) (h : Nat) (set : Nat) (v : Nat) :
    (State.setL1dPlru s h set v).chan = s.chan := rfl
@[simp] theorem State.setL1dPlru_mesa (s : State) (h : Nat) (set : Nat) (v : Nat) :
    (State.setL1dPlru s h set v).mesa = s.mesa := rfl
@[simp] theorem State.setL1dPlru_meter (s : State) (h : Nat) (set : Nat) (v : Nat) :
    (State.setL1dPlru s h set v).meter = s.meter := rfl
@[simp] theorem State.setL1dPlru_qos (s : State) (h : Nat) (set : Nat) (v : Nat) :
    (State.setL1dPlru s h set v).qos = s.qos := rfl
@[simp] theorem State.setL1dPlru_hzn (s : State) (h : Nat) (set : Nat) (v : Nat) :
    (State.setL1dPlru s h set v).hzn = s.hzn := rfl
@[simp] theorem State.setL1dPlru_xce (s : State) (h : Nat) (set : Nat) (v : Nat) :
    (State.setL1dPlru s h set v).xce = s.xce := rfl
@[simp] theorem State.setL1dPlru_io (s : State) (h : Nat) (set : Nat) (v : Nat) :
    (State.setL1dPlru s h set v).io = s.io := rfl
@[simp] theorem State.setL1dPlru_ras (s : State) (h : Nat) (set : Nat) (v : Nat) :
    (State.setL1dPlru s h set v).ras = s.ras := rfl
@[simp] theorem State.setL1dPlru_tvx (s : State) (h : Nat) (set : Nat) (v : Nat) :
    (State.setL1dPlru s h set v).tvx = s.tvx := rfl
@[simp] theorem State.setL1dPlru_pwr (s : State) (h : Nat) (set : Nat) (v : Nat) :
    (State.setL1dPlru s h set v).pwr = s.pwr := rfl
@[simp] theorem State.setL1dPlru_ccol (s : State) (h : Nat) (set : Nat) (v : Nat) :
    (State.setL1dPlru s h set v).ccol = s.ccol := rfl
@[simp] theorem State.setL1iPlru_pending (s : State) (h : Nat) (set : Nat) (v : Nat) :
    (State.setL1iPlru s h set v).pending = s.pending := rfl
@[simp] theorem State.setL1iPlru_regs (s : State) (h : Nat) (set : Nat) (v : Nat) :
    (State.setL1iPlru s h set v).regs = s.regs := rfl
@[simp] theorem State.setL1iPlru_mem (s : State) (h : Nat) (set : Nat) (v : Nat) :
    (State.setL1iPlru s h set v).mem = s.mem := rfl
@[simp] theorem State.setL1iPlru_marked (s : State) (h : Nat) (set : Nat) (v : Nat) :
    (State.setL1iPlru s h set v).marked = s.marked := rfl
@[simp] theorem State.setL1iPlru_net (s : State) (h : Nat) (set : Nat) (v : Nat) :
    (State.setL1iPlru s h set v).net = s.net := rfl
@[simp] theorem State.setL1iPlru_free (s : State) (h : Nat) (set : Nat) (v : Nat) :
    (State.setL1iPlru s h set v).free = s.free := rfl
@[simp] theorem State.setL1iPlru_die (s : State) (h : Nat) (set : Nat) (v : Nat) :
    (State.setL1iPlru s h set v).die = s.die := rfl
@[simp] theorem State.setL1iPlru_home (s : State) (h : Nat) (set : Nat) (v : Nat) :
    (State.setL1iPlru s h set v).home = s.home := rfl
@[simp] theorem State.setL1iPlru_pass (s : State) (h : Nat) (set : Nat) (v : Nat) :
    (State.setL1iPlru s h set v).pass = s.pass := rfl
@[simp] theorem State.setL1iPlru_chan (s : State) (h : Nat) (set : Nat) (v : Nat) :
    (State.setL1iPlru s h set v).chan = s.chan := rfl
@[simp] theorem State.setL1iPlru_mesa (s : State) (h : Nat) (set : Nat) (v : Nat) :
    (State.setL1iPlru s h set v).mesa = s.mesa := rfl
@[simp] theorem State.setL1iPlru_meter (s : State) (h : Nat) (set : Nat) (v : Nat) :
    (State.setL1iPlru s h set v).meter = s.meter := rfl
@[simp] theorem State.setL1iPlru_qos (s : State) (h : Nat) (set : Nat) (v : Nat) :
    (State.setL1iPlru s h set v).qos = s.qos := rfl
@[simp] theorem State.setL1iPlru_hzn (s : State) (h : Nat) (set : Nat) (v : Nat) :
    (State.setL1iPlru s h set v).hzn = s.hzn := rfl
@[simp] theorem State.setL1iPlru_xce (s : State) (h : Nat) (set : Nat) (v : Nat) :
    (State.setL1iPlru s h set v).xce = s.xce := rfl
@[simp] theorem State.setL1iPlru_io (s : State) (h : Nat) (set : Nat) (v : Nat) :
    (State.setL1iPlru s h set v).io = s.io := rfl
@[simp] theorem State.setL1iPlru_ras (s : State) (h : Nat) (set : Nat) (v : Nat) :
    (State.setL1iPlru s h set v).ras = s.ras := rfl
@[simp] theorem State.setL1iPlru_tvx (s : State) (h : Nat) (set : Nat) (v : Nat) :
    (State.setL1iPlru s h set v).tvx = s.tvx := rfl
@[simp] theorem State.setL1iPlru_pwr (s : State) (h : Nat) (set : Nat) (v : Nat) :
    (State.setL1iPlru s h set v).pwr = s.pwr := rfl
@[simp] theorem State.setL1iPlru_ccol (s : State) (h : Nat) (set : Nat) (v : Nat) :
    (State.setL1iPlru s h set v).ccol = s.ccol := rfl
@[simp] theorem State.setAplicPend_pending (s : State) (dom : Nat) (i : Nat) (b : Bool) :
    (State.setAplicPend s dom i b).pending = s.pending := rfl
@[simp] theorem State.setAplicPend_regs (s : State) (dom : Nat) (i : Nat) (b : Bool) :
    (State.setAplicPend s dom i b).regs = s.regs := rfl
@[simp] theorem State.setAplicPend_mem (s : State) (dom : Nat) (i : Nat) (b : Bool) :
    (State.setAplicPend s dom i b).mem = s.mem := rfl
@[simp] theorem State.setAplicPend_marked (s : State) (dom : Nat) (i : Nat) (b : Bool) :
    (State.setAplicPend s dom i b).marked = s.marked := rfl
@[simp] theorem State.setAplicPend_net (s : State) (dom : Nat) (i : Nat) (b : Bool) :
    (State.setAplicPend s dom i b).net = s.net := rfl
@[simp] theorem State.setAplicPend_free (s : State) (dom : Nat) (i : Nat) (b : Bool) :
    (State.setAplicPend s dom i b).free = s.free := rfl
@[simp] theorem State.setAplicPend_core (s : State) (dom : Nat) (i : Nat) (b : Bool) :
    (State.setAplicPend s dom i b).core = s.core := rfl
@[simp] theorem State.setAplicPend_die (s : State) (dom : Nat) (i : Nat) (b : Bool) :
    (State.setAplicPend s dom i b).die = s.die := rfl
@[simp] theorem State.setAplicPend_home (s : State) (dom : Nat) (i : Nat) (b : Bool) :
    (State.setAplicPend s dom i b).home = s.home := rfl
@[simp] theorem State.setAplicPend_pass (s : State) (dom : Nat) (i : Nat) (b : Bool) :
    (State.setAplicPend s dom i b).pass = s.pass := rfl
@[simp] theorem State.setAplicPend_chan (s : State) (dom : Nat) (i : Nat) (b : Bool) :
    (State.setAplicPend s dom i b).chan = s.chan := rfl
@[simp] theorem State.setAplicPend_mesa (s : State) (dom : Nat) (i : Nat) (b : Bool) :
    (State.setAplicPend s dom i b).mesa = s.mesa := rfl
@[simp] theorem State.setAplicPend_meter (s : State) (dom : Nat) (i : Nat) (b : Bool) :
    (State.setAplicPend s dom i b).meter = s.meter := rfl
@[simp] theorem State.setAplicPend_qos (s : State) (dom : Nat) (i : Nat) (b : Bool) :
    (State.setAplicPend s dom i b).qos = s.qos := rfl
@[simp] theorem State.setAplicPend_hzn (s : State) (dom : Nat) (i : Nat) (b : Bool) :
    (State.setAplicPend s dom i b).hzn = s.hzn := rfl
@[simp] theorem State.setAplicPend_xce (s : State) (dom : Nat) (i : Nat) (b : Bool) :
    (State.setAplicPend s dom i b).xce = s.xce := rfl
@[simp] theorem State.setAplicPend_ras (s : State) (dom : Nat) (i : Nat) (b : Bool) :
    (State.setAplicPend s dom i b).ras = s.ras := rfl
@[simp] theorem State.setAplicPend_tvx (s : State) (dom : Nat) (i : Nat) (b : Bool) :
    (State.setAplicPend s dom i b).tvx = s.tvx := rfl
@[simp] theorem State.setAplicPend_pwr (s : State) (dom : Nat) (i : Nat) (b : Bool) :
    (State.setAplicPend s dom i b).pwr = s.pwr := rfl
@[simp] theorem State.setAplicPend_ccol (s : State) (dom : Nat) (i : Nat) (b : Bool) :
    (State.setAplicPend s dom i b).ccol = s.ccol := rfl
@[simp] theorem State.setReqs_pending (s : State) (r : List IoReq) :
    (State.setReqs s r).pending = s.pending := rfl
@[simp] theorem State.setReqs_regs (s : State) (r : List IoReq) :
    (State.setReqs s r).regs = s.regs := rfl
@[simp] theorem State.setReqs_mem (s : State) (r : List IoReq) :
    (State.setReqs s r).mem = s.mem := rfl
@[simp] theorem State.setReqs_marked (s : State) (r : List IoReq) :
    (State.setReqs s r).marked = s.marked := rfl
@[simp] theorem State.setReqs_net (s : State) (r : List IoReq) :
    (State.setReqs s r).net = s.net := rfl
@[simp] theorem State.setReqs_free (s : State) (r : List IoReq) :
    (State.setReqs s r).free = s.free := rfl
@[simp] theorem State.setReqs_core (s : State) (r : List IoReq) :
    (State.setReqs s r).core = s.core := rfl
@[simp] theorem State.setReqs_die (s : State) (r : List IoReq) :
    (State.setReqs s r).die = s.die := rfl
@[simp] theorem State.setReqs_home (s : State) (r : List IoReq) :
    (State.setReqs s r).home = s.home := rfl
@[simp] theorem State.setReqs_pass (s : State) (r : List IoReq) :
    (State.setReqs s r).pass = s.pass := rfl
@[simp] theorem State.setReqs_chan (s : State) (r : List IoReq) :
    (State.setReqs s r).chan = s.chan := rfl
@[simp] theorem State.setReqs_mesa (s : State) (r : List IoReq) :
    (State.setReqs s r).mesa = s.mesa := rfl
@[simp] theorem State.setReqs_meter (s : State) (r : List IoReq) :
    (State.setReqs s r).meter = s.meter := rfl
@[simp] theorem State.setReqs_qos (s : State) (r : List IoReq) :
    (State.setReqs s r).qos = s.qos := rfl
@[simp] theorem State.setReqs_hzn (s : State) (r : List IoReq) :
    (State.setReqs s r).hzn = s.hzn := rfl
@[simp] theorem State.setReqs_xce (s : State) (r : List IoReq) :
    (State.setReqs s r).xce = s.xce := rfl
@[simp] theorem State.setReqs_ras (s : State) (r : List IoReq) :
    (State.setReqs s r).ras = s.ras := rfl
@[simp] theorem State.setReqs_tvx (s : State) (r : List IoReq) :
    (State.setReqs s r).tvx = s.tvx := rfl
@[simp] theorem State.setReqs_pwr (s : State) (r : List IoReq) :
    (State.setReqs s r).pwr = s.pwr := rfl
@[simp] theorem State.setReqs_ccol (s : State) (r : List IoReq) :
    (State.setReqs s r).ccol = s.ccol := rfl
@[simp] theorem State.setMsixE_pending (s : State) (f : Nat) (v : Nat) (e : MsixE) :
    (State.setMsixE s f v e).pending = s.pending := rfl
@[simp] theorem State.setMsixE_regs (s : State) (f : Nat) (v : Nat) (e : MsixE) :
    (State.setMsixE s f v e).regs = s.regs := rfl
@[simp] theorem State.setMsixE_mem (s : State) (f : Nat) (v : Nat) (e : MsixE) :
    (State.setMsixE s f v e).mem = s.mem := rfl
@[simp] theorem State.setMsixE_marked (s : State) (f : Nat) (v : Nat) (e : MsixE) :
    (State.setMsixE s f v e).marked = s.marked := rfl
@[simp] theorem State.setMsixE_net (s : State) (f : Nat) (v : Nat) (e : MsixE) :
    (State.setMsixE s f v e).net = s.net := rfl
@[simp] theorem State.setMsixE_free (s : State) (f : Nat) (v : Nat) (e : MsixE) :
    (State.setMsixE s f v e).free = s.free := rfl
@[simp] theorem State.setMsixE_core (s : State) (f : Nat) (v : Nat) (e : MsixE) :
    (State.setMsixE s f v e).core = s.core := rfl
@[simp] theorem State.setMsixE_die (s : State) (f : Nat) (v : Nat) (e : MsixE) :
    (State.setMsixE s f v e).die = s.die := rfl
@[simp] theorem State.setMsixE_home (s : State) (f : Nat) (v : Nat) (e : MsixE) :
    (State.setMsixE s f v e).home = s.home := rfl
@[simp] theorem State.setMsixE_pass (s : State) (f : Nat) (v : Nat) (e : MsixE) :
    (State.setMsixE s f v e).pass = s.pass := rfl
@[simp] theorem State.setMsixE_chan (s : State) (f : Nat) (v : Nat) (e : MsixE) :
    (State.setMsixE s f v e).chan = s.chan := rfl
@[simp] theorem State.setMsixE_mesa (s : State) (f : Nat) (v : Nat) (e : MsixE) :
    (State.setMsixE s f v e).mesa = s.mesa := rfl
@[simp] theorem State.setMsixE_meter (s : State) (f : Nat) (v : Nat) (e : MsixE) :
    (State.setMsixE s f v e).meter = s.meter := rfl
@[simp] theorem State.setMsixE_qos (s : State) (f : Nat) (v : Nat) (e : MsixE) :
    (State.setMsixE s f v e).qos = s.qos := rfl
@[simp] theorem State.setMsixE_hzn (s : State) (f : Nat) (v : Nat) (e : MsixE) :
    (State.setMsixE s f v e).hzn = s.hzn := rfl
@[simp] theorem State.setMsixE_io (s : State) (f : Nat) (v : Nat) (e : MsixE) :
    (State.setMsixE s f v e).io = s.io := rfl
@[simp] theorem State.setMsixE_ras (s : State) (f : Nat) (v : Nat) (e : MsixE) :
    (State.setMsixE s f v e).ras = s.ras := rfl
@[simp] theorem State.setMsixE_tvx (s : State) (f : Nat) (v : Nat) (e : MsixE) :
    (State.setMsixE s f v e).tvx = s.tvx := rfl
@[simp] theorem State.setMsixE_pwr (s : State) (f : Nat) (v : Nat) (e : MsixE) :
    (State.setMsixE s f v e).pwr = s.pwr := rfl
@[simp] theorem State.setMsixE_ccol (s : State) (f : Nat) (v : Nat) (e : MsixE) :
    (State.setMsixE s f v e).ccol = s.ccol := rfl
@[simp] theorem State.setPba_pending (s : State) (f : Nat) (v : Nat) (b : Bool) :
    (State.setPba s f v b).pending = s.pending := rfl
@[simp] theorem State.setPba_regs (s : State) (f : Nat) (v : Nat) (b : Bool) :
    (State.setPba s f v b).regs = s.regs := rfl
@[simp] theorem State.setPba_mem (s : State) (f : Nat) (v : Nat) (b : Bool) :
    (State.setPba s f v b).mem = s.mem := rfl
@[simp] theorem State.setPba_marked (s : State) (f : Nat) (v : Nat) (b : Bool) :
    (State.setPba s f v b).marked = s.marked := rfl
@[simp] theorem State.setPba_net (s : State) (f : Nat) (v : Nat) (b : Bool) :
    (State.setPba s f v b).net = s.net := rfl
@[simp] theorem State.setPba_free (s : State) (f : Nat) (v : Nat) (b : Bool) :
    (State.setPba s f v b).free = s.free := rfl
@[simp] theorem State.setPba_core (s : State) (f : Nat) (v : Nat) (b : Bool) :
    (State.setPba s f v b).core = s.core := rfl
@[simp] theorem State.setPba_die (s : State) (f : Nat) (v : Nat) (b : Bool) :
    (State.setPba s f v b).die = s.die := rfl
@[simp] theorem State.setPba_home (s : State) (f : Nat) (v : Nat) (b : Bool) :
    (State.setPba s f v b).home = s.home := rfl
@[simp] theorem State.setPba_pass (s : State) (f : Nat) (v : Nat) (b : Bool) :
    (State.setPba s f v b).pass = s.pass := rfl
@[simp] theorem State.setPba_chan (s : State) (f : Nat) (v : Nat) (b : Bool) :
    (State.setPba s f v b).chan = s.chan := rfl
@[simp] theorem State.setPba_mesa (s : State) (f : Nat) (v : Nat) (b : Bool) :
    (State.setPba s f v b).mesa = s.mesa := rfl
@[simp] theorem State.setPba_meter (s : State) (f : Nat) (v : Nat) (b : Bool) :
    (State.setPba s f v b).meter = s.meter := rfl
@[simp] theorem State.setPba_qos (s : State) (f : Nat) (v : Nat) (b : Bool) :
    (State.setPba s f v b).qos = s.qos := rfl
@[simp] theorem State.setPba_hzn (s : State) (f : Nat) (v : Nat) (b : Bool) :
    (State.setPba s f v b).hzn = s.hzn := rfl
@[simp] theorem State.setPba_io (s : State) (f : Nat) (v : Nat) (b : Bool) :
    (State.setPba s f v b).io = s.io := rfl
@[simp] theorem State.setPba_ras (s : State) (f : Nat) (v : Nat) (b : Bool) :
    (State.setPba s f v b).ras = s.ras := rfl
@[simp] theorem State.setPba_tvx (s : State) (f : Nat) (v : Nat) (b : Bool) :
    (State.setPba s f v b).tvx = s.tvx := rfl
@[simp] theorem State.setPba_pwr (s : State) (f : Nat) (v : Nat) (b : Bool) :
    (State.setPba s f v b).pwr = s.pwr := rfl
@[simp] theorem State.setPba_ccol (s : State) (f : Nat) (v : Nat) (b : Bool) :
    (State.setPba s f v b).ccol = s.ccol := rfl
@[simp] theorem State.setXop_pending (s : State) (o : XOp) :
    (State.setXop s o).pending = s.pending := rfl
@[simp] theorem State.setXop_regs (s : State) (o : XOp) :
    (State.setXop s o).regs = s.regs := rfl
@[simp] theorem State.setXop_mem (s : State) (o : XOp) :
    (State.setXop s o).mem = s.mem := rfl
@[simp] theorem State.setXop_marked (s : State) (o : XOp) :
    (State.setXop s o).marked = s.marked := rfl
@[simp] theorem State.setXop_net (s : State) (o : XOp) :
    (State.setXop s o).net = s.net := rfl
@[simp] theorem State.setXop_free (s : State) (o : XOp) :
    (State.setXop s o).free = s.free := rfl
@[simp] theorem State.setXop_core (s : State) (o : XOp) :
    (State.setXop s o).core = s.core := rfl
@[simp] theorem State.setXop_die (s : State) (o : XOp) :
    (State.setXop s o).die = s.die := rfl
@[simp] theorem State.setXop_home (s : State) (o : XOp) :
    (State.setXop s o).home = s.home := rfl
@[simp] theorem State.setXop_pass (s : State) (o : XOp) :
    (State.setXop s o).pass = s.pass := rfl
@[simp] theorem State.setXop_chan (s : State) (o : XOp) :
    (State.setXop s o).chan = s.chan := rfl
@[simp] theorem State.setXop_mesa (s : State) (o : XOp) :
    (State.setXop s o).mesa = s.mesa := rfl
@[simp] theorem State.setXop_meter (s : State) (o : XOp) :
    (State.setXop s o).meter = s.meter := rfl
@[simp] theorem State.setXop_qos (s : State) (o : XOp) :
    (State.setXop s o).qos = s.qos := rfl
@[simp] theorem State.setXop_hzn (s : State) (o : XOp) :
    (State.setXop s o).hzn = s.hzn := rfl
@[simp] theorem State.setXop_io (s : State) (o : XOp) :
    (State.setXop s o).io = s.io := rfl
@[simp] theorem State.setXop_ras (s : State) (o : XOp) :
    (State.setXop s o).ras = s.ras := rfl
@[simp] theorem State.setXop_tvx (s : State) (o : XOp) :
    (State.setXop s o).tvx = s.tvx := rfl
@[simp] theorem State.setXop_pwr (s : State) (o : XOp) :
    (State.setXop s o).pwr = s.pwr := rfl
@[simp] theorem State.setXop_ccol (s : State) (o : XOp) :
    (State.setXop s o).ccol = s.ccol := rfl
@[simp] theorem State.setQp_pending (s : State) (f : Nat) (q : Nat) (x : XQp) :
    (State.setQp s f q x).pending = s.pending := rfl
@[simp] theorem State.setQp_regs (s : State) (f : Nat) (q : Nat) (x : XQp) :
    (State.setQp s f q x).regs = s.regs := rfl
@[simp] theorem State.setQp_mem (s : State) (f : Nat) (q : Nat) (x : XQp) :
    (State.setQp s f q x).mem = s.mem := rfl
@[simp] theorem State.setQp_marked (s : State) (f : Nat) (q : Nat) (x : XQp) :
    (State.setQp s f q x).marked = s.marked := rfl
@[simp] theorem State.setQp_net (s : State) (f : Nat) (q : Nat) (x : XQp) :
    (State.setQp s f q x).net = s.net := rfl
@[simp] theorem State.setQp_free (s : State) (f : Nat) (q : Nat) (x : XQp) :
    (State.setQp s f q x).free = s.free := rfl
@[simp] theorem State.setQp_core (s : State) (f : Nat) (q : Nat) (x : XQp) :
    (State.setQp s f q x).core = s.core := rfl
@[simp] theorem State.setQp_die (s : State) (f : Nat) (q : Nat) (x : XQp) :
    (State.setQp s f q x).die = s.die := rfl
@[simp] theorem State.setQp_home (s : State) (f : Nat) (q : Nat) (x : XQp) :
    (State.setQp s f q x).home = s.home := rfl
@[simp] theorem State.setQp_pass (s : State) (f : Nat) (q : Nat) (x : XQp) :
    (State.setQp s f q x).pass = s.pass := rfl
@[simp] theorem State.setQp_chan (s : State) (f : Nat) (q : Nat) (x : XQp) :
    (State.setQp s f q x).chan = s.chan := rfl
@[simp] theorem State.setQp_mesa (s : State) (f : Nat) (q : Nat) (x : XQp) :
    (State.setQp s f q x).mesa = s.mesa := rfl
@[simp] theorem State.setQp_meter (s : State) (f : Nat) (q : Nat) (x : XQp) :
    (State.setQp s f q x).meter = s.meter := rfl
@[simp] theorem State.setQp_qos (s : State) (f : Nat) (q : Nat) (x : XQp) :
    (State.setQp s f q x).qos = s.qos := rfl
@[simp] theorem State.setQp_hzn (s : State) (f : Nat) (q : Nat) (x : XQp) :
    (State.setQp s f q x).hzn = s.hzn := rfl
@[simp] theorem State.setQp_io (s : State) (f : Nat) (q : Nat) (x : XQp) :
    (State.setQp s f q x).io = s.io := rfl
@[simp] theorem State.setQp_ras (s : State) (f : Nat) (q : Nat) (x : XQp) :
    (State.setQp s f q x).ras = s.ras := rfl
@[simp] theorem State.setQp_tvx (s : State) (f : Nat) (q : Nat) (x : XQp) :
    (State.setQp s f q x).tvx = s.tvx := rfl
@[simp] theorem State.setQp_pwr (s : State) (f : Nat) (q : Nat) (x : XQp) :
    (State.setQp s f q x).pwr = s.pwr := rfl
@[simp] theorem State.setQp_ccol (s : State) (f : Nat) (q : Nat) (x : XQp) :
    (State.setQp s f q x).ccol = s.ccol := rfl
@[simp] theorem State.setDieCtl_pending (s : State) (d : Nat) (x : DieCtl) :
    (State.setDieCtl s d x).pending = s.pending := rfl
@[simp] theorem State.setDieCtl_regs (s : State) (d : Nat) (x : DieCtl) :
    (State.setDieCtl s d x).regs = s.regs := rfl
@[simp] theorem State.setDieCtl_mem (s : State) (d : Nat) (x : DieCtl) :
    (State.setDieCtl s d x).mem = s.mem := rfl
@[simp] theorem State.setDieCtl_marked (s : State) (d : Nat) (x : DieCtl) :
    (State.setDieCtl s d x).marked = s.marked := rfl
@[simp] theorem State.setDieCtl_net (s : State) (d : Nat) (x : DieCtl) :
    (State.setDieCtl s d x).net = s.net := rfl
@[simp] theorem State.setDieCtl_free (s : State) (d : Nat) (x : DieCtl) :
    (State.setDieCtl s d x).free = s.free := rfl
@[simp] theorem State.setDieCtl_core (s : State) (d : Nat) (x : DieCtl) :
    (State.setDieCtl s d x).core = s.core := rfl
@[simp] theorem State.setDieCtl_home (s : State) (d : Nat) (x : DieCtl) :
    (State.setDieCtl s d x).home = s.home := rfl
@[simp] theorem State.setDieCtl_pass (s : State) (d : Nat) (x : DieCtl) :
    (State.setDieCtl s d x).pass = s.pass := rfl
@[simp] theorem State.setDieCtl_chan (s : State) (d : Nat) (x : DieCtl) :
    (State.setDieCtl s d x).chan = s.chan := rfl
@[simp] theorem State.setDieCtl_mesa (s : State) (d : Nat) (x : DieCtl) :
    (State.setDieCtl s d x).mesa = s.mesa := rfl
@[simp] theorem State.setDieCtl_meter (s : State) (d : Nat) (x : DieCtl) :
    (State.setDieCtl s d x).meter = s.meter := rfl
@[simp] theorem State.setDieCtl_qos (s : State) (d : Nat) (x : DieCtl) :
    (State.setDieCtl s d x).qos = s.qos := rfl
@[simp] theorem State.setDieCtl_hzn (s : State) (d : Nat) (x : DieCtl) :
    (State.setDieCtl s d x).hzn = s.hzn := rfl
@[simp] theorem State.setDieCtl_xce (s : State) (d : Nat) (x : DieCtl) :
    (State.setDieCtl s d x).xce = s.xce := rfl
@[simp] theorem State.setDieCtl_io (s : State) (d : Nat) (x : DieCtl) :
    (State.setDieCtl s d x).io = s.io := rfl
@[simp] theorem State.setDieCtl_ras (s : State) (d : Nat) (x : DieCtl) :
    (State.setDieCtl s d x).ras = s.ras := rfl
@[simp] theorem State.setDieCtl_tvx (s : State) (d : Nat) (x : DieCtl) :
    (State.setDieCtl s d x).tvx = s.tvx := rfl
@[simp] theorem State.setDieCtl_pwr (s : State) (d : Nat) (x : DieCtl) :
    (State.setDieCtl s d x).pwr = s.pwr := rfl
@[simp] theorem State.setDieCtl_ccol (s : State) (d : Nat) (x : DieCtl) :
    (State.setDieCtl s d x).ccol = s.ccol := rfl
@[simp] theorem State.setPPort_pending (s : State) (p : Nat) (x : PPort) :
    (State.setPPort s p x).pending = s.pending := rfl
@[simp] theorem State.setPPort_regs (s : State) (p : Nat) (x : PPort) :
    (State.setPPort s p x).regs = s.regs := rfl
@[simp] theorem State.setPPort_mem (s : State) (p : Nat) (x : PPort) :
    (State.setPPort s p x).mem = s.mem := rfl
@[simp] theorem State.setPPort_marked (s : State) (p : Nat) (x : PPort) :
    (State.setPPort s p x).marked = s.marked := rfl
@[simp] theorem State.setPPort_net (s : State) (p : Nat) (x : PPort) :
    (State.setPPort s p x).net = s.net := rfl
@[simp] theorem State.setPPort_free (s : State) (p : Nat) (x : PPort) :
    (State.setPPort s p x).free = s.free := rfl
@[simp] theorem State.setPPort_core (s : State) (p : Nat) (x : PPort) :
    (State.setPPort s p x).core = s.core := rfl
@[simp] theorem State.setPPort_die (s : State) (p : Nat) (x : PPort) :
    (State.setPPort s p x).die = s.die := rfl
@[simp] theorem State.setPPort_home (s : State) (p : Nat) (x : PPort) :
    (State.setPPort s p x).home = s.home := rfl
@[simp] theorem State.setPPort_chan (s : State) (p : Nat) (x : PPort) :
    (State.setPPort s p x).chan = s.chan := rfl
@[simp] theorem State.setPPort_mesa (s : State) (p : Nat) (x : PPort) :
    (State.setPPort s p x).mesa = s.mesa := rfl
@[simp] theorem State.setPPort_meter (s : State) (p : Nat) (x : PPort) :
    (State.setPPort s p x).meter = s.meter := rfl
@[simp] theorem State.setPPort_qos (s : State) (p : Nat) (x : PPort) :
    (State.setPPort s p x).qos = s.qos := rfl
@[simp] theorem State.setPPort_hzn (s : State) (p : Nat) (x : PPort) :
    (State.setPPort s p x).hzn = s.hzn := rfl
@[simp] theorem State.setPPort_xce (s : State) (p : Nat) (x : PPort) :
    (State.setPPort s p x).xce = s.xce := rfl
@[simp] theorem State.setPPort_io (s : State) (p : Nat) (x : PPort) :
    (State.setPPort s p x).io = s.io := rfl
@[simp] theorem State.setPPort_ras (s : State) (p : Nat) (x : PPort) :
    (State.setPPort s p x).ras = s.ras := rfl
@[simp] theorem State.setPPort_tvx (s : State) (p : Nat) (x : PPort) :
    (State.setPPort s p x).tvx = s.tvx := rfl
@[simp] theorem State.setPPort_pwr (s : State) (p : Nat) (x : PPort) :
    (State.setPPort s p x).pwr = s.pwr := rfl
@[simp] theorem State.setPPort_ccol (s : State) (p : Nat) (x : PPort) :
    (State.setPPort s p x).ccol = s.ccol := rfl
@[simp] theorem State.setHStrm_pending (s : State) (serial : Nat) (x : HStream) :
    (State.setHStrm s serial x).pending = s.pending := rfl
@[simp] theorem State.setHStrm_regs (s : State) (serial : Nat) (x : HStream) :
    (State.setHStrm s serial x).regs = s.regs := rfl
@[simp] theorem State.setHStrm_mem (s : State) (serial : Nat) (x : HStream) :
    (State.setHStrm s serial x).mem = s.mem := rfl
@[simp] theorem State.setHStrm_marked (s : State) (serial : Nat) (x : HStream) :
    (State.setHStrm s serial x).marked = s.marked := rfl
@[simp] theorem State.setHStrm_net (s : State) (serial : Nat) (x : HStream) :
    (State.setHStrm s serial x).net = s.net := rfl
@[simp] theorem State.setHStrm_free (s : State) (serial : Nat) (x : HStream) :
    (State.setHStrm s serial x).free = s.free := rfl
@[simp] theorem State.setHStrm_core (s : State) (serial : Nat) (x : HStream) :
    (State.setHStrm s serial x).core = s.core := rfl
@[simp] theorem State.setHStrm_die (s : State) (serial : Nat) (x : HStream) :
    (State.setHStrm s serial x).die = s.die := rfl
@[simp] theorem State.setHStrm_home (s : State) (serial : Nat) (x : HStream) :
    (State.setHStrm s serial x).home = s.home := rfl
@[simp] theorem State.setHStrm_pass (s : State) (serial : Nat) (x : HStream) :
    (State.setHStrm s serial x).pass = s.pass := rfl
@[simp] theorem State.setHStrm_chan (s : State) (serial : Nat) (x : HStream) :
    (State.setHStrm s serial x).chan = s.chan := rfl
@[simp] theorem State.setHStrm_mesa (s : State) (serial : Nat) (x : HStream) :
    (State.setHStrm s serial x).mesa = s.mesa := rfl
@[simp] theorem State.setHStrm_meter (s : State) (serial : Nat) (x : HStream) :
    (State.setHStrm s serial x).meter = s.meter := rfl
@[simp] theorem State.setHStrm_qos (s : State) (serial : Nat) (x : HStream) :
    (State.setHStrm s serial x).qos = s.qos := rfl
@[simp] theorem State.setHStrm_xce (s : State) (serial : Nat) (x : HStream) :
    (State.setHStrm s serial x).xce = s.xce := rfl
@[simp] theorem State.setHStrm_io (s : State) (serial : Nat) (x : HStream) :
    (State.setHStrm s serial x).io = s.io := rfl
@[simp] theorem State.setHStrm_ras (s : State) (serial : Nat) (x : HStream) :
    (State.setHStrm s serial x).ras = s.ras := rfl
@[simp] theorem State.setHStrm_tvx (s : State) (serial : Nat) (x : HStream) :
    (State.setHStrm s serial x).tvx = s.tvx := rfl
@[simp] theorem State.setHStrm_pwr (s : State) (serial : Nat) (x : HStream) :
    (State.setHStrm s serial x).pwr = s.pwr := rfl
@[simp] theorem State.setHStrm_ccol (s : State) (serial : Nat) (x : HStream) :
    (State.setHStrm s serial x).ccol = s.ccol := rfl
@[simp] theorem State.setMeter_pending (s : State) (m : MeterSt) :
    (State.setMeter s m).pending = s.pending := rfl
@[simp] theorem State.setMeter_regs (s : State) (m : MeterSt) :
    (State.setMeter s m).regs = s.regs := rfl
@[simp] theorem State.setMeter_mem (s : State) (m : MeterSt) :
    (State.setMeter s m).mem = s.mem := rfl
@[simp] theorem State.setMeter_marked (s : State) (m : MeterSt) :
    (State.setMeter s m).marked = s.marked := rfl
@[simp] theorem State.setMeter_net (s : State) (m : MeterSt) :
    (State.setMeter s m).net = s.net := rfl
@[simp] theorem State.setMeter_free (s : State) (m : MeterSt) :
    (State.setMeter s m).free = s.free := rfl
@[simp] theorem State.setMeter_core (s : State) (m : MeterSt) :
    (State.setMeter s m).core = s.core := rfl
@[simp] theorem State.setMeter_die (s : State) (m : MeterSt) :
    (State.setMeter s m).die = s.die := rfl
@[simp] theorem State.setMeter_home (s : State) (m : MeterSt) :
    (State.setMeter s m).home = s.home := rfl
@[simp] theorem State.setMeter_pass (s : State) (m : MeterSt) :
    (State.setMeter s m).pass = s.pass := rfl
@[simp] theorem State.setMeter_chan (s : State) (m : MeterSt) :
    (State.setMeter s m).chan = s.chan := rfl
@[simp] theorem State.setMeter_mesa (s : State) (m : MeterSt) :
    (State.setMeter s m).mesa = s.mesa := rfl
@[simp] theorem State.setMeter_qos (s : State) (m : MeterSt) :
    (State.setMeter s m).qos = s.qos := rfl
@[simp] theorem State.setMeter_hzn (s : State) (m : MeterSt) :
    (State.setMeter s m).hzn = s.hzn := rfl
@[simp] theorem State.setMeter_xce (s : State) (m : MeterSt) :
    (State.setMeter s m).xce = s.xce := rfl
@[simp] theorem State.setMeter_io (s : State) (m : MeterSt) :
    (State.setMeter s m).io = s.io := rfl
@[simp] theorem State.setMeter_ras (s : State) (m : MeterSt) :
    (State.setMeter s m).ras = s.ras := rfl
@[simp] theorem State.setMeter_tvx (s : State) (m : MeterSt) :
    (State.setMeter s m).tvx = s.tvx := rfl
@[simp] theorem State.setMeter_pwr (s : State) (m : MeterSt) :
    (State.setMeter s m).pwr = s.pwr := rfl
@[simp] theorem State.setMeter_ccol (s : State) (m : MeterSt) :
    (State.setMeter s m).ccol = s.ccol := rfl
@[simp] theorem State.setTags_pending (s : State) (l : List XTag) :
    (State.setTags s l).pending = s.pending := rfl
@[simp] theorem State.setTags_regs (s : State) (l : List XTag) :
    (State.setTags s l).regs = s.regs := rfl
@[simp] theorem State.setTags_mem (s : State) (l : List XTag) :
    (State.setTags s l).mem = s.mem := rfl
@[simp] theorem State.setTags_marked (s : State) (l : List XTag) :
    (State.setTags s l).marked = s.marked := rfl
@[simp] theorem State.setTags_net (s : State) (l : List XTag) :
    (State.setTags s l).net = s.net := rfl
@[simp] theorem State.setTags_free (s : State) (l : List XTag) :
    (State.setTags s l).free = s.free := rfl
@[simp] theorem State.setTags_core (s : State) (l : List XTag) :
    (State.setTags s l).core = s.core := rfl
@[simp] theorem State.setTags_die (s : State) (l : List XTag) :
    (State.setTags s l).die = s.die := rfl
@[simp] theorem State.setTags_home (s : State) (l : List XTag) :
    (State.setTags s l).home = s.home := rfl
@[simp] theorem State.setTags_pass (s : State) (l : List XTag) :
    (State.setTags s l).pass = s.pass := rfl
@[simp] theorem State.setTags_chan (s : State) (l : List XTag) :
    (State.setTags s l).chan = s.chan := rfl
@[simp] theorem State.setTags_mesa (s : State) (l : List XTag) :
    (State.setTags s l).mesa = s.mesa := rfl
@[simp] theorem State.setTags_meter (s : State) (l : List XTag) :
    (State.setTags s l).meter = s.meter := rfl
@[simp] theorem State.setTags_qos (s : State) (l : List XTag) :
    (State.setTags s l).qos = s.qos := rfl
@[simp] theorem State.setTags_hzn (s : State) (l : List XTag) :
    (State.setTags s l).hzn = s.hzn := rfl
@[simp] theorem State.setTags_io (s : State) (l : List XTag) :
    (State.setTags s l).io = s.io := rfl
@[simp] theorem State.setTags_ras (s : State) (l : List XTag) :
    (State.setTags s l).ras = s.ras := rfl
@[simp] theorem State.setTags_tvx (s : State) (l : List XTag) :
    (State.setTags s l).tvx = s.tvx := rfl
@[simp] theorem State.setTags_pwr (s : State) (l : List XTag) :
    (State.setTags s l).pwr = s.pwr := rfl
@[simp] theorem State.setTags_ccol (s : State) (l : List XTag) :
    (State.setTags s l).ccol = s.ccol := rfl
@[simp] theorem State.setTvx_pending (s : State) (x : TvxSt) :
    (State.setTvx s x).pending = s.pending := rfl
@[simp] theorem State.setTvx_regs (s : State) (x : TvxSt) :
    (State.setTvx s x).regs = s.regs := rfl
@[simp] theorem State.setTvx_mem (s : State) (x : TvxSt) :
    (State.setTvx s x).mem = s.mem := rfl
@[simp] theorem State.setTvx_marked (s : State) (x : TvxSt) :
    (State.setTvx s x).marked = s.marked := rfl
@[simp] theorem State.setTvx_net (s : State) (x : TvxSt) :
    (State.setTvx s x).net = s.net := rfl
@[simp] theorem State.setTvx_free (s : State) (x : TvxSt) :
    (State.setTvx s x).free = s.free := rfl
@[simp] theorem State.setTvx_core (s : State) (x : TvxSt) :
    (State.setTvx s x).core = s.core := rfl
@[simp] theorem State.setTvx_die (s : State) (x : TvxSt) :
    (State.setTvx s x).die = s.die := rfl
@[simp] theorem State.setTvx_home (s : State) (x : TvxSt) :
    (State.setTvx s x).home = s.home := rfl
@[simp] theorem State.setTvx_pass (s : State) (x : TvxSt) :
    (State.setTvx s x).pass = s.pass := rfl
@[simp] theorem State.setTvx_chan (s : State) (x : TvxSt) :
    (State.setTvx s x).chan = s.chan := rfl
@[simp] theorem State.setTvx_mesa (s : State) (x : TvxSt) :
    (State.setTvx s x).mesa = s.mesa := rfl
@[simp] theorem State.setTvx_meter (s : State) (x : TvxSt) :
    (State.setTvx s x).meter = s.meter := rfl
@[simp] theorem State.setTvx_qos (s : State) (x : TvxSt) :
    (State.setTvx s x).qos = s.qos := rfl
@[simp] theorem State.setTvx_hzn (s : State) (x : TvxSt) :
    (State.setTvx s x).hzn = s.hzn := rfl
@[simp] theorem State.setTvx_xce (s : State) (x : TvxSt) :
    (State.setTvx s x).xce = s.xce := rfl
@[simp] theorem State.setTvx_io (s : State) (x : TvxSt) :
    (State.setTvx s x).io = s.io := rfl
@[simp] theorem State.setTvx_ras (s : State) (x : TvxSt) :
    (State.setTvx s x).ras = s.ras := rfl
@[simp] theorem State.setTvx_pwr (s : State) (x : TvxSt) :
    (State.setTvx s x).pwr = s.pwr := rfl
@[simp] theorem State.setTvx_ccol (s : State) (x : TvxSt) :
    (State.setTvx s x).ccol = s.ccol := rfl
@[simp] theorem State.setPortSlot_pending (s : State) (i : Nat) (x : Slot) :
    (State.setPortSlot s i x).pending = s.pending := rfl
@[simp] theorem State.setPortSlot_regs (s : State) (i : Nat) (x : Slot) :
    (State.setPortSlot s i x).regs = s.regs := rfl
@[simp] theorem State.setPortSlot_mem (s : State) (i : Nat) (x : Slot) :
    (State.setPortSlot s i x).mem = s.mem := rfl
@[simp] theorem State.setPortSlot_marked (s : State) (i : Nat) (x : Slot) :
    (State.setPortSlot s i x).marked = s.marked := rfl
@[simp] theorem State.setPortSlot_net (s : State) (i : Nat) (x : Slot) :
    (State.setPortSlot s i x).net = s.net := rfl
@[simp] theorem State.setPortSlot_free (s : State) (i : Nat) (x : Slot) :
    (State.setPortSlot s i x).free = s.free := rfl
@[simp] theorem State.setPortSlot_core (s : State) (i : Nat) (x : Slot) :
    (State.setPortSlot s i x).core = s.core := rfl
@[simp] theorem State.setPortSlot_die (s : State) (i : Nat) (x : Slot) :
    (State.setPortSlot s i x).die = s.die := rfl
@[simp] theorem State.setPortSlot_home (s : State) (i : Nat) (x : Slot) :
    (State.setPortSlot s i x).home = s.home := rfl
@[simp] theorem State.setPortSlot_pass (s : State) (i : Nat) (x : Slot) :
    (State.setPortSlot s i x).pass = s.pass := rfl
@[simp] theorem State.setPortSlot_chan (s : State) (i : Nat) (x : Slot) :
    (State.setPortSlot s i x).chan = s.chan := rfl
@[simp] theorem State.setPortSlot_mesa (s : State) (i : Nat) (x : Slot) :
    (State.setPortSlot s i x).mesa = s.mesa := rfl
@[simp] theorem State.setPortSlot_meter (s : State) (i : Nat) (x : Slot) :
    (State.setPortSlot s i x).meter = s.meter := rfl
@[simp] theorem State.setPortSlot_qos (s : State) (i : Nat) (x : Slot) :
    (State.setPortSlot s i x).qos = s.qos := rfl
@[simp] theorem State.setPortSlot_hzn (s : State) (i : Nat) (x : Slot) :
    (State.setPortSlot s i x).hzn = s.hzn := rfl
@[simp] theorem State.setPortSlot_xce (s : State) (i : Nat) (x : Slot) :
    (State.setPortSlot s i x).xce = s.xce := rfl
@[simp] theorem State.setPortSlot_ras (s : State) (i : Nat) (x : Slot) :
    (State.setPortSlot s i x).ras = s.ras := rfl
@[simp] theorem State.setPortSlot_tvx (s : State) (i : Nat) (x : Slot) :
    (State.setPortSlot s i x).tvx = s.tvx := rfl
@[simp] theorem State.setPortSlot_pwr (s : State) (i : Nat) (x : Slot) :
    (State.setPortSlot s i x).pwr = s.pwr := rfl
@[simp] theorem State.setPortSlot_ccol (s : State) (i : Nat) (x : Slot) :
    (State.setPortSlot s i x).ccol = s.ccol := rfl
@[simp] theorem State.setPwr_pending (s : State) (x : PwrSt) :
    (State.setPwr s x).pending = s.pending := rfl
@[simp] theorem State.setPwr_regs (s : State) (x : PwrSt) :
    (State.setPwr s x).regs = s.regs := rfl
@[simp] theorem State.setPwr_mem (s : State) (x : PwrSt) :
    (State.setPwr s x).mem = s.mem := rfl
@[simp] theorem State.setPwr_marked (s : State) (x : PwrSt) :
    (State.setPwr s x).marked = s.marked := rfl
@[simp] theorem State.setPwr_net (s : State) (x : PwrSt) :
    (State.setPwr s x).net = s.net := rfl
@[simp] theorem State.setPwr_free (s : State) (x : PwrSt) :
    (State.setPwr s x).free = s.free := rfl
@[simp] theorem State.setPwr_core (s : State) (x : PwrSt) :
    (State.setPwr s x).core = s.core := rfl
@[simp] theorem State.setPwr_die (s : State) (x : PwrSt) :
    (State.setPwr s x).die = s.die := rfl
@[simp] theorem State.setPwr_home (s : State) (x : PwrSt) :
    (State.setPwr s x).home = s.home := rfl
@[simp] theorem State.setPwr_pass (s : State) (x : PwrSt) :
    (State.setPwr s x).pass = s.pass := rfl
@[simp] theorem State.setPwr_chan (s : State) (x : PwrSt) :
    (State.setPwr s x).chan = s.chan := rfl
@[simp] theorem State.setPwr_mesa (s : State) (x : PwrSt) :
    (State.setPwr s x).mesa = s.mesa := rfl
@[simp] theorem State.setPwr_meter (s : State) (x : PwrSt) :
    (State.setPwr s x).meter = s.meter := rfl
@[simp] theorem State.setPwr_qos (s : State) (x : PwrSt) :
    (State.setPwr s x).qos = s.qos := rfl
@[simp] theorem State.setPwr_hzn (s : State) (x : PwrSt) :
    (State.setPwr s x).hzn = s.hzn := rfl
@[simp] theorem State.setPwr_xce (s : State) (x : PwrSt) :
    (State.setPwr s x).xce = s.xce := rfl
@[simp] theorem State.setPwr_io (s : State) (x : PwrSt) :
    (State.setPwr s x).io = s.io := rfl
@[simp] theorem State.setPwr_ras (s : State) (x : PwrSt) :
    (State.setPwr s x).ras = s.ras := rfl
@[simp] theorem State.setPwr_tvx (s : State) (x : PwrSt) :
    (State.setPwr s x).tvx = s.tvx := rfl
@[simp] theorem State.setPwr_ccol (s : State) (x : PwrSt) :
    (State.setPwr s x).ccol = s.ccol := rfl

end Sys2Proof.Machine
end

