-- ==== Sys2Proof/Laws/Reg.lean ====
section
/-!
SUPPORT. Registers and their fields: what a write is read back as, and what it leaves alone. Memory bytes likewise.
-/

namespace Sys2Proof.Machine

@[simp] theorem State.reg_setReg_self (s : State) (a : Nat) (v : Word) : (s.setReg a v).reg a = v := Tbl.get_set_self _ _ _ _

theorem State.reg_setReg_of_ne (s : State) {a b : Nat} (v : Word) (h : b ≠ a) : (s.setReg a v).reg b = s.reg b :=
  Tbl.get_set_of_ne _ _ _ h

theorem State.get_congr {s t : State} {f : FRef} (h : t.reg f.addr = s.reg f.addr) : t.get f = s.get f := by
  simp only [State.get, h]

/-- Two fields of one register that share no bit. -/
def FRef.apart (f g : FRef) : Prop := f.addr ≠ g.addr ∨ f.lo + f.w ≤ g.lo ∨ g.lo + g.w ≤ f.lo

theorem testBit_maskAt (lo w i : Nat) (h : lo + w ≤ 64) : (maskAt lo w).getLsbD i = (decide (lo ≤ i) && decide (i < lo + w)) := by
  unfold maskAt
  rw [BitVec.getLsbD_ofNat, Nat.testBit_shiftLeft, Nat.testBit_two_pow_sub_one]
  by_cases h1 : lo ≤ i
  · by_cases h2 : i < lo + w
    · have : i < 64 := by omega
      simp [h1, h2, this]; omega
    · simp [h1, h2]; omega
  · simp [h1]

theorem wordPut_bit (v : Word) (lo w n i : Nat) (h : lo + w ≤ 64) :
    (wordPut v lo w n).getLsbD i =
      if lo ≤ i ∧ i < lo + w then n.testBit (i - lo) else v.getLsbD i := by
  unfold wordPut
  rw [BitVec.getLsbD_or, BitVec.getLsbD_and, BitVec.getLsbD_not, testBit_maskAt lo w i h, BitVec.getLsbD_ofNat,
    Nat.testBit_shiftLeft, Nat.testBit_mod_two_pow]
  by_cases h1 : lo ≤ i
  · by_cases h2 : i < lo + w
    · have a : i < 64 := by omega
      have b : i - lo < w := by omega
      simp [h1, h2, a, b]
    · have b : ¬ i - lo < w := by omega
      by_cases a : i < 64
      · simp [h1, h2, a, b]
      · have c : v.getLsbD i = false := BitVec.getLsbD_of_ge v i (by omega)
        simp [h1, h2, b, c]
  · have a : i < 64 ∨ ¬ i < 64 := by omega
    rcases a with a | a
    · simp [h1, a]
    · have c : v.getLsbD i = false := BitVec.getLsbD_of_ge v i (by omega)
      simp [h1, c]

theorem State.get_testBit (s : State) (f : FRef) (i : Nat) :
    (s.get f).testBit i = (decide (i < f.w) && (s.reg f.addr).getLsbD (f.lo + i)) := by
  unfold State.get
  rw [Nat.testBit_mod_two_pow, Nat.testBit_shiftRight]
  rfl

/-- A field reads as what was put into it. -/
theorem State.get_put_self (s : State) (f : FRef) (n : Nat) (h : f.lo + f.w ≤ 64) : (s.put f n).get f = n % 2 ^ f.w := by
  apply Nat.eq_of_testBit_eq
  intro i
  rw [State.get_testBit, State.put, State.reg_setReg_self, wordPut_bit _ _ _ _ _ h, Nat.testBit_mod_two_pow]
  by_cases hi : i < f.w
  · have a : f.lo ≤ f.lo + i ∧ f.lo + i < f.lo + f.w := by omega
    simp [hi]
  · simp [hi]

/-- A field apart from the one written reads as before. -/
theorem State.get_put_apart (s : State) (f g : FRef) (n : Nat) (h : f.lo + f.w ≤ 64) (hd : g.apart f) :
    (s.put f n).get g = s.get g := by
  by_cases ha : g.addr = f.addr
  · apply Nat.eq_of_testBit_eq
    intro i
    rw [State.get_testBit, State.get_testBit, ha, State.put, State.reg_setReg_self, wordPut_bit _ _ _ _ _ h]
    by_cases hi : i < g.w
    · have : ¬ (f.lo ≤ g.lo + i ∧ g.lo + i < f.lo + f.w) := by
        rcases hd with hd | hd | hd
        · exact absurd ha hd
        · omega
        · omega
      simp [this]
    · simp [hi]
  · exact State.get_congr (State.reg_setReg_of_ne s _ ha)

theorem State.reg_put_of_ne (s : State) {f : FRef} {a : Nat} (n : Nat) (h : a ≠ f.addr) : (s.put f n).reg a = s.reg a :=
  State.reg_setReg_of_ne s _ h

@[simp] theorem State.put_pending (s : State) (f : FRef) (n : Nat) : (s.put f n).pending = s.pending := Eq.trans rfl rfl
@[simp] theorem State.put_mem (s : State) (f : FRef) (n : Nat) : (s.put f n).mem = s.mem := Eq.trans rfl rfl
@[simp] theorem State.put_marked (s : State) (f : FRef) (n : Nat) : (s.put f n).marked = s.marked := Eq.trans rfl rfl
@[simp] theorem State.put_net (s : State) (f : FRef) (n : Nat) : (s.put f n).net = s.net := Eq.trans rfl rfl
@[simp] theorem State.put_free (s : State) (f : FRef) (n : Nat) : (s.put f n).free = s.free := Eq.trans rfl rfl
@[simp] theorem State.put_core (s : State) (f : FRef) (n : Nat) : (s.put f n).core = s.core := Eq.trans rfl rfl
@[simp] theorem State.put_die (s : State) (f : FRef) (n : Nat) : (s.put f n).die = s.die := Eq.trans rfl rfl
@[simp] theorem State.put_home (s : State) (f : FRef) (n : Nat) : (s.put f n).home = s.home := Eq.trans rfl rfl
@[simp] theorem State.put_pass (s : State) (f : FRef) (n : Nat) : (s.put f n).pass = s.pass := Eq.trans rfl rfl
@[simp] theorem State.put_chan (s : State) (f : FRef) (n : Nat) : (s.put f n).chan = s.chan := Eq.trans rfl rfl
@[simp] theorem State.put_mesa (s : State) (f : FRef) (n : Nat) : (s.put f n).mesa = s.mesa := Eq.trans rfl rfl
@[simp] theorem State.put_meter (s : State) (f : FRef) (n : Nat) : (s.put f n).meter = s.meter := Eq.trans rfl rfl
@[simp] theorem State.put_qos (s : State) (f : FRef) (n : Nat) : (s.put f n).qos = s.qos := Eq.trans rfl rfl
@[simp] theorem State.put_hzn (s : State) (f : FRef) (n : Nat) : (s.put f n).hzn = s.hzn := Eq.trans rfl rfl
@[simp] theorem State.put_xce (s : State) (f : FRef) (n : Nat) : (s.put f n).xce = s.xce := Eq.trans rfl rfl
@[simp] theorem State.put_io (s : State) (f : FRef) (n : Nat) : (s.put f n).io = s.io := Eq.trans rfl rfl
@[simp] theorem State.put_ras (s : State) (f : FRef) (n : Nat) : (s.put f n).ras = s.ras := Eq.trans rfl rfl
@[simp] theorem State.put_tvx (s : State) (f : FRef) (n : Nat) : (s.put f n).tvx = s.tvx := Eq.trans rfl rfl
@[simp] theorem State.put_pwr (s : State) (f : FRef) (n : Nat) : (s.put f n).pwr = s.pwr := Eq.trans rfl rfl
@[simp] theorem State.put_ccol (s : State) (f : FRef) (n : Nat) : (s.put f n).ccol = s.ccol := Eq.trans rfl rfl

/-! ## Memory -/

theorem memWrite_get_of_lt (m : List Host.Cell) (a n v b : Nat) (h : b < a ∨ a + n ≤ b) :
    Tbl.get memDefault (memWrite m a n v) b = Tbl.get memDefault m b := by
  induction n generalizing m a v with
  | zero => rfl
  | succ n ih =>
    rw [memWrite, ih _ _ _ (by omega), Tbl.get_set_of_ne _ _ _ (by omega)]

/-- Every byte outside the line written reads as before. -/
theorem State.byte_setLineAt_of_ne (s : State) (a b : Nat) (l : Line) (h : b < a ∨ a + 64 ≤ b) :
    (s.setLineAt a l).byte b = s.byte b := memWrite_get_of_lt _ _ _ _ _ h

/-- The line written reads back, byte by byte. -/
theorem memWrite_get_in (m : List Host.Cell) (a n v i : Nat) (h : i < n) :
    Tbl.get memDefault (memWrite m a n v) (a + i) = BitVec.ofNat 8 (v / 256 ^ i) := by
  induction n generalizing m a v i with
  | zero => omega
  | succ n ih =>
    rw [memWrite]
    cases i with
    | zero => rw [memWrite_get_of_lt _ _ _ _ _ (by omega)]; simp
    | succ i =>
      have := ih (Tbl.set memDefault m a (BitVec.ofNat 8 v)) (a + 1) (v / 256) i (by omega)
      rw [show a + (i + 1) = a + 1 + i by omega, this, Nat.div_div_eq_div_mul, Nat.pow_succ, Nat.mul_comm]

theorem State.byte_setLineAt (s : State) (a i : Nat) (l : Line) (h : i < 64) :
    (s.setLineAt a l).byte (a + i) = BitVec.ofNat 8 (l.toNat / 256 ^ i) := memWrite_get_in _ _ _ _ _ h

end Sys2Proof.Machine
end

