-- ==== Sys2Proof/Laws/Kept.lean ====
section
/-!
SUPPORT. What the operations that every family shares leave of registers and harts: a hart's own state, the event log, the
counters, the walks.
-/

namespace Sys2Proof.Machine

/-! ## Harts -/

@[simp] theorem State.hart_setHart_self (s : State) (h : Nat) (x : HartSt) : (s.setHart h x).hart h = x := Tbl.get_set_self _ _ _ _
theorem State.hart_setHart_of_ne (s : State) {h k : Nat} (x : HartSt) (n : k ≠ h) : (s.setHart h x).hart k = s.hart k :=
  Tbl.get_set_of_ne _ _ _ n
@[simp] theorem State.reg_setHart (s : State) (h : Nat) (x : HartSt) (a : Nat) : (s.setHart h x).reg a = s.reg a := Eq.trans rfl rfl
@[simp] theorem State.get_setHart (s : State) (h : Nat) (x : HartSt) (f : FRef) : (s.setHart h x).get f = s.get f := Eq.trans rfl rfl
@[simp] theorem State.hart_setReg (s : State) (h a : Nat) (v : Word) : (s.setReg a v).hart h = s.hart h := Eq.trans rfl rfl
@[simp] theorem State.hart_put (s : State) (h : Nat) (f : FRef) (v : Nat) : (s.put f v).hart h = s.hart h := Eq.trans rfl rfl
@[simp] theorem State.hart_putB (s : State) (h : Nat) (f : FRef) (v : Bool) : (s.putB f v).hart h = s.hart h := Eq.trans rfl rfl
theorem State.hart_of_core {s t : State} (e : t.core = s.core) (h : Nat) : t.hart h = s.hart h := by simp only [State.hart, e]
theorem hartOf_div (d : Die) (c : Fin 32) : (hartOf d c).val / 32 = d.val := by
  have := d.2; have := c.2
  simp only [hartOf, Fin.val_ofNat]; omega
theorem hartOf_mod (d : Die) (c : Fin 32) : (hartOf d c).val % 32 = c.val := by
  have := d.2; have := c.2
  simp only [hartOf, Fin.val_ofNat]; omega
@[simp] theorem Fin.ofNat_hart (h : Hart) : Fin.ofNat 384 h.val = h := by ext; simp

/-! ## Registers that an update of another part keeps -/

theorem State.reg_of_regs {s t : State} (h : t.regs = s.regs) (a : Nat) : t.reg a = s.reg a := by simp only [State.reg, h]
theorem State.get_of_regs {s t : State} (h : t.regs = s.regs) (f : FRef) : t.get f = s.get f := State.get_congr (State.reg_of_regs h _)

theorem State.get_put_of_addr (s : State) {f g : FRef} (n : Nat) (h : g.addr ≠ f.addr) : (s.put f n).get g = s.get g :=
  State.get_congr (State.reg_put_of_ne s n h)

theorem State.get_putB_self (s : State) (f : FRef) (b : Bool) (h : f.lo + f.w ≤ 64) (hw : f.w = 1) : (s.putB f b).get f = b2n b := by
  rw [State.putB, State.get_put_self _ _ _ h, hw]; cases b <;> rfl

/-! ## The event log: of the registers it may write MBOX_STATUS alone -/

theorem State.sendPkt_regs (s : State) (g : Ingress) (p : Pkt) : (s.sendPkt g p).regs = s.regs := by cases g <;> rfl

theorem State.sendEvent_reg (s : State) (g : Ingress) (e : LogEnt) {a : Nat} (h : a ≠ R.rMBOX_STATUS) :
    (s.sendEvent g e).reg a = s.reg a := by
  unfold State.sendEvent
  split
  · cases g
    · exact State.reg_of_regs (State.sendPkt_regs _ _ _) a
    · dsimp only
      split
      · exact State.reg_of_regs (State.sendPkt_regs _ _ _) a
      · exact State.reg_put_of_ne s _ h
  · rfl

theorem State.writeLog_reg (s : State) (e : LogEnt) {a : Nat} (h : a ≠ R.rMBOX_STATUS) : (s.writeLog e).reg a = s.reg a := by
  unfold State.writeLog
  dsimp only
  rw [State.sendEvent_reg _ _ _ h, State.sendEvent_reg _ _ _ h]
  rfl

theorem State.logEvent_reg (s : State) (c v d i x : Nat) {a : Nat} (h : a ≠ R.rMBOX_STATUS) :
    (s.logEvent c v d i x).reg a = s.reg a := by
  unfold State.logEvent
  dsimp only
  split
  · exact State.writeLog_reg s _ h
  · rfl

theorem State.logEvent_get (s : State) (c v d i x : Nat) {f : FRef} (h : f.addr ≠ R.rMBOX_STATUS) :
    (s.logEvent c v d i x).get f = s.get f := State.get_congr (State.logEvent_reg s c v d i x h)

/-! ## Core counters: of the registers they write the hart's own counters alone -/

theorem State.retired_reg (s : State) (h : Nat) {a : Nat} (n : a < 2 ^ 40) : (s.retired h).reg a = s.reg a :=
  State.reg_setReg_of_ne s _ (by unfold R.rminstret; omega)

theorem foldN_keeps {α : Type} (g : State → α) {f : Nat → State → State} (hf : ∀ i s, g (f i s) = g s) (n : Nat) (s : State) :
    g (foldN n s f) = g s := by
  unfold foldN
  induction List.range n generalizing s with
  | nil => rfl
  | cons i l ih => exact (ih (f i s)).trans (hf i s)

theorem ne_rmhpmcounter (h i : Nat) {a : Nat} (n : a < 2 ^ 40) : a ≠ R.rmhpmcounter h i := by unfold R.rmhpmcounter; omega
theorem ne_rmhpmevent (h i : Nat) {a : Nat} (n : a < 2 ^ 40) : a ≠ R.rmhpmevent h i := by unfold R.rmhpmevent; omega

theorem State.hpm_reg_of_ne (s : State) (h : Nat) (p : Priv) (ev : Nat) {a : Nat} (n1 : ∀ i, a ≠ R.rmhpmcounter h i)
    (n2 : ∀ i, a ≠ R.rmhpmevent h i) : (s.hpm h p ev).reg a = s.reg a := by
  unfold State.hpm
  refine foldN_keeps (fun s => s.reg a) (fun i s => ?_) 16 s
  have e1 := n1 i
  have e2 := n2 i
  extract_lets e c s1 s2
  have k : s1.reg a = s.reg a := State.reg_setReg_of_ne _ _ e1
  split
  · split
    · have k2 : s2.reg a = s1.reg a := State.reg_setReg_of_ne _ _ e2
      exact (State.reg_setHart s2 h _ a).trans (k2.trans k)
    · exact k
  · rfl

theorem State.hpm_reg (s : State) (h : Nat) (p : Priv) (ev : Nat) {a : Nat} (n : a < 2 ^ 40) : (s.hpm h p ev).reg a = s.reg a :=
  State.hpm_reg_of_ne s h p ev (fun i => ne_rmhpmcounter h i n) (fun i => ne_rmhpmevent h i n)

/-! ## Registers that no count, signal, error record or log entry writes -/

/-- Not a counter, nor MBOX_STATUS, IOMMU_MSI_DROPS or a CSR. -/
def Quiet (a : Nat) : Prop := a ≠ R.rMBOX_STATUS ∧ a ≠ R.rIOMMU_MSI_DROPS ∧ a < 2 ^ 40 ∧ (a < 0x400080 ∨ 0x500000 ≤ a)

theorem foldl_keeps_mem {α : Type} (g : State → α) {f : State → Nat → State} (l : List Nat)
    (hf : ∀ i ∈ l, ∀ s, g (f s i) = g s) (s : State) : g (l.foldl f s) = g s := by
  induction l generalizing s with
  | nil => rfl
  | cons i l ih =>
    have h := ih (fun j hj s => hf j (by simp [hj]) s) (f s i)
    exact h.trans (hf i (by simp) s)

theorem foldN_keeps_lt {α : Type} (g : State → α) {f : Nat → State → State} (n : Nat)
    (hf : ∀ i, i < n → ∀ s, g (f i s) = g s) (s : State) : g (foldN n s f) = g s :=
  foldl_keeps_mem g _ (fun i hi s => hf i (List.mem_range.mp hi) s) s

theorem State.fileTake_reg (s : State) (h f id rid : Nat) {a : Nat} (n : a ≠ R.rIOMMU_MSI_DROPS) :
    (s.fileTake h f id rid).reg a = s.reg a := by
  unfold State.fileTake
  split
  · unfold State.fileDrop State.bump
    dsimp only
    rw [State.reg_put_of_ne _ _ n, State.reg_put_of_ne _ _ n, State.reg_put_of_ne _ _ n]
  · split <;> exact Eq.trans rfl rfl

theorem State.sendMsi_reg (s : State) (ga d rid : Nat) {a : Nat} (n : a ≠ R.rIOMMU_MSI_DROPS) :
    (s.sendMsi ga d rid).reg a = s.reg a := by
  unfold State.sendMsi State.setPending
  split
  · exact State.fileTake_reg _ _ _ _ _ n
  · rfl

theorem ne_csr (h k : Nat) {a : Nat} (n : a < 2 ^ 40) : a ≠ 0x10000000000 + h * 0x1000 + k := by omega

theorem State.raiseNmi_reg (s : State) (h c : Nat) {a : Nat} (n : a < 2 ^ 40) : (s.raiseNmi h c).reg a = s.reg a := by
  have e1 : a ≠ R.rmnepc h := ne_csr h _ n
  have e2 : a ≠ R.rmncause h := ne_csr h _ n
  have e3 : a ≠ R.rmnstatus h := ne_csr h _ n
  have e4 : a ≠ R.rpc h := ne_csr h _ n
  unfold State.raiseNmi
  split
  · dsimp only
    rw [State.reg_setReg_of_ne _ _ e4, State.reg_setHart, State.reg_put_of_ne _ _ e3, State.putB, State.reg_put_of_ne _ _ e3,
      State.reg_put_of_ne _ _ e3, State.reg_setReg_of_ne _ _ e2, State.reg_setReg_of_ne _ _ e1]
    exact Eq.trans rfl rfl
  · exact Eq.trans rfl rfl

theorem State.rasSignal_reg (s : State) (g : Nat) {a : Nat} (n : a ≠ R.rIOMMU_MSI_DROPS) (k : a < 2 ^ 40) :
    (s.rasSignal g).reg a = s.reg a := by
  unfold State.rasSignal
  split
  · split
    · exact State.sendMsi_reg _ _ _ _ n
    · rfl
  · split
    · split
      · exact State.raiseNmi_reg _ _ _ k
      · rfl
    · rfl

theorem State.recWrite_regs (s : State) (b : Nat) (r : ErrRec) : (s.recWrite b r).regs = s.regs := by
  unfold State.recWrite
  dsimp only
  split
  · split <;> rfl
  · rfl

theorem State.errRecord_reg (s : State) (b v x i u : Nat) {a : Nat} (n : Quiet a) : (s.errRecord b v x i u).reg a = s.reg a := by
  unfold State.errRecord
  dsimp only
  rw [State.logEvent_reg _ _ _ _ _ _ n.1]
  split
  · rw [State.rasSignal_reg _ _ n.2.1 n.2.2.1]
    exact State.reg_of_regs (State.recWrite_regs _ _ _) a
  · exact State.reg_of_regs (State.recWrite_regs _ _ _) a

theorem State.errRecord_get (s : State) (b v x i u : Nat) {f : FRef} (n : Quiet f.addr) : (s.errRecord b v x i u).get f = s.get f :=
  State.get_congr (State.errRecord_reg s b v x i u n)

theorem State.ctrAdd_reg (s : State) (b j k : Nat) {a : Nat} (n : Quiet a) (hb : b < 354) (hj : j < 32) :
    (s.ctrAdd b j k).reg a = s.reg a := by
  have e1 : a ≠ R.rCCOL_COUNT b j := by have := n.2.2.2; simp only [R.rCCOL_COUNT]; omega
  have e2 : a ≠ R.rCCOL_OVF_PEND (b / 64) := by have := n.2.2.2; simp only [R.rCCOL_OVF_PEND]; omega
  unfold State.ctrAdd
  extract_lets c s1 s2
  have k1 : s1.reg a = s.reg a := State.reg_put_of_ne s _ e1
  have k2 : s2.reg a = s1.reg a := State.reg_put_of_ne s1 _ e1
  split
  · exact k1
  · split
    · rename_i pend s3 _ _
      have k3 : s3.reg a = s2.reg a := State.reg_put_of_ne s2 _ e2
      split
      · exact k2.trans k1
      · split
        · exact (State.sendMsi_reg s3 _ _ _ n.2.1).trans (k3.trans (k2.trans k1))
        · exact k3.trans (k2.trans k1)
    · exact k2.trans k1

theorem bankCounters_lt {b j : Nat} (h : j < bankCounters b) : b < 354 ∧ j < 32 := by
  unfold bankCounters at h
  repeat' split at h
  all_goals omega

theorem State.count_reg (s : State) (b ev : Nat) (it : Option Nat) (ids : Option (Nat × Nat)) (k : Nat) {a : Nat} (n : Quiet a) :
    (s.count b ev it ids k).reg a = s.reg a := by
  unfold State.count
  extract_lets off
  split
  · rfl
  · refine foldN_keeps_lt (fun s => s.reg a) _ (fun j hj s => ?_) s
    obtain ⟨hb, hj⟩ := bankCounters_lt hj
    split
    · exact State.ctrAdd_reg _ _ _ _ n hb hj
    · rfl

theorem State.count_get (s : State) (b ev : Nat) (it : Option Nat) (ids : Option (Nat × Nat)) (k : Nat) {f : FRef}
    (n : Quiet f.addr) : (s.count b ev it ids k).get f = s.get f := State.get_congr (State.count_reg s b ev it ids k n)

/-! ## Walks -/

theorem State.wayFlags_other (s : State) (u : FlushUnit) : ∃ r, s.wayFlags u = { s with regs := r } := by
  cases u <;> exact ⟨_, rfl⟩

/-- A flush-then-disable that is started runs. -/
theorem State.flushStart_flushing (s : State) (u : FlushUnit) : (s.flushStart u).flushing u = true := by
  unfold State.flushStart
  split
  · assumption
  · cases u <;> simp [State.flushing, State.wayFlags, State.putB, State.put, State.setReg]

theorem State.flushStart_core (s : State) (u : FlushUnit) : (s.flushStart u).core = s.core := by
  unfold State.flushStart
  split
  · rfl
  · cases u <;> simp [State.wayFlags, State.putB]

theorem State.flushStart_hart (s : State) (u : FlushUnit) (h : Nat) : (s.flushStart u).hart h = s.hart h :=
  State.hart_of_core (State.flushStart_core s u) h

/-- The status registers that starting a walk may write. -/
def flushStatus : FlushUnit → Nat
  | .l2 h => R.rVALE_L2_STATUS (h / 32) (h % 32)
  | .l2Way h _ => R.rVALE_L2_STATUS (h / 32) (h % 32)
  | .vcSlice d sl => R.rVALE_VC_STATUS d sl
  | .vcWay d sl _ => R.rVALE_VC_STATUS d sl
  | .sfWay d b _ => R.rVALE_SF_STATUS d b

theorem State.flushStart_reg (s : State) (u : FlushUnit) {a : Nat} (n : a ≠ flushStatus u) : (s.flushStart u).reg a = s.reg a := by
  unfold State.flushStart
  split
  · rfl
  · cases u <;> first | exact State.reg_put_of_ne _ _ n | exact Eq.trans rfl rfl

theorem State.flushStart_get (s : State) (u : FlushUnit) {f : FRef} (n : f.addr ≠ flushStatus u) : (s.flushStart u).get f = s.get f :=
  State.get_congr (State.flushStart_reg s u n)

end Sys2Proof.Machine
end

