-- ==== Sys2Proof/Laws/Touch.lean ====
section
/-!
SUPPORT. How the relations that frames are stated in compose: each holds of no change, follows from a narrower one, and holds of
two changes one after the other; and what one write of a register or of a hart's state touches.
-/

namespace Sys2Proof.Machine

/-! ## Parts -/

theorem State.Only.refl (s : State) (ps : List Part) : s.Only ps s := State.Frame.refl s
theorem State.Only.trans {s t u : State} {ps : List Part} (h : s.Only ps t) (g : t.Only ps u) : s.Only ps u := State.Frame.trans h g
theorem State.Only.mono {s t : State} {ps qs : List Part} (h : s.Only ps t) (hs : ∀ p ∈ ps, p ∈ qs) : s.Only qs t :=
  ⟨h.1, h.2.1, fun p n => h.2.2 p (fun m => n (hs p m))⟩
theorem State.Only.pending {s t : State} {ps : List Part} (h : s.Only ps t) : t.pending = s.pending := h.1
theorem State.Only.ok {s t : State} {ps : List Part} (h : s.Only ps t) (k : s.Ok) : t.Ok := h.2.1 k

/-! ## Fields of registers -/

theorem State.OnlyFields.refl (s : State) (fs : List FRef) : s.OnlyFields fs s := fun _ _ _ => rfl
theorem State.OnlyFields.trans {s t u : State} {fs : List FRef} (h : s.OnlyFields fs t) (g : t.OnlyFields fs u) : s.OnlyFields fs u :=
  fun a i n => (g a i n).trans (h a i n)
theorem State.OnlyFields.mono {s t : State} {fs gs : List FRef} (h : s.OnlyFields fs t) (hs : ∀ f ∈ fs, f ∈ gs) : s.OnlyFields gs t :=
  fun a i n => h a i (fun f m => n f (hs f m))
theorem State.OnlyFields.of_regs {s t : State} (fs : List FRef) (h : t.regs = s.regs) : s.OnlyFields fs t :=
  fun a i _ => by rw [State.reg_of_regs h a]

/-- A field apart from all of a list reads as before. -/
theorem State.OnlyFields.get {s t : State} {fs : List FRef} (h : s.OnlyFields fs t) {g : FRef}
    (n : ∀ f ∈ fs, f.addr ≠ g.addr ∨ f.lo + f.w ≤ g.lo ∨ g.lo + g.w ≤ f.lo) : t.get g = s.get g := by
  apply Nat.eq_of_testBit_eq
  intro i
  rw [State.get_testBit, State.get_testBit]
  by_cases k : i < g.w
  · rw [h g.addr (g.lo + i) (fun f m q => by have := n f m; unfold FRef.holds at q; omega)]
  · simp [k]

/-- Writing a field touches that field. -/
theorem State.OnlyFields.put (s : State) {fs : List FRef} {f : FRef} (n : Nat) (m : f ∈ fs) (h : f.lo + f.w ≤ 64) :
    s.OnlyFields fs (s.put f n) := by
  intro a i q
  by_cases e : a = f.addr
  · subst e
    have k := q f m
    rw [State.put, State.reg_setReg_self, wordPut_bit _ _ _ _ _ h]
    have : ¬ (f.lo ≤ i ∧ i < f.lo + f.w) := fun r => k ⟨rfl, r.1, r.2⟩
    simp [this]
  · rw [State.reg_put_of_ne s n e]

/-- Writing a register touches all of it. -/
theorem State.OnlyFields.setReg (s : State) {fs : List FRef} (a : Nat) (v : Word) (m : FRef.all a ∈ fs) : s.OnlyFields fs (s.setReg a v) := by
  intro b i q
  by_cases e : b = a
  · subst e
    have k := q _ m
    have : ¬ i < 64 := fun r => k ⟨rfl, Nat.zero_le _, by simpa [FRef.all] using r⟩
    simp [BitVec.getLsbD_of_ge, Nat.le_of_not_lt this]
  · rw [State.reg_setReg_of_ne s v e]

/-! ## Whole registers -/

theorem State.OnlyRegs.refl (s : State) (l : List Nat) : s.OnlyRegs l s := fun _ _ => rfl
theorem State.OnlyRegs.trans {s t u : State} {l : List Nat} (h : s.OnlyRegs l t) (g : t.OnlyRegs l u) : s.OnlyRegs l u :=
  fun a n => (g a n).trans (h a n)
theorem State.OnlyRegs.mono {s t : State} {l k : List Nat} (h : s.OnlyRegs l t) (hs : ∀ a ∈ l, a ∈ k) : s.OnlyRegs k t :=
  fun a n => h a (fun m => n (hs a m))
theorem State.OnlyRegs.setReg (s : State) {l : List Nat} {a : Nat} (v : Word) (m : a ∈ l) : s.OnlyRegs l (s.setReg a v) :=
  fun _ n => State.reg_setReg_of_ne s v (fun e => n (e ▸ m))
theorem State.OnlyRegs.put (s : State) {l : List Nat} {f : FRef} (n : Nat) (m : f.addr ∈ l) : s.OnlyRegs l (s.put f n) :=
  State.OnlyRegs.setReg s _ m

/-! ## Harts -/

theorem State.OnlyHart.refl (s : State) (h : Nat) : s.OnlyHart h s := fun _ _ => ⟨rfl, fun _ _ _ _ => rfl, fun _ _ _ _ => ⟨rfl, rfl⟩⟩
theorem State.OnlyHart.trans {s t u : State} {h : Nat} (a : s.OnlyHart h t) (b : t.OnlyHart h u) : s.OnlyHart h u := fun k n =>
  ⟨(b k n).1.trans (a k n).1, fun x hx y hy => ((b k n).2.1 x hx y hy).trans ((a k n).2.1 x hx y hy), fun x hx y hy =>
    ⟨((b k n).2.2 x hx y hy).1.trans ((a k n).2.2 x hx y hy).1, ((b k n).2.2 x hx y hy).2.trans ((a k n).2.2 x hx y hy).2⟩⟩
theorem State.OnlyHart.of_core {s t : State} (h : Nat) (e : t.core = s.core) : s.OnlyHart h t := fun k _ =>
  ⟨State.hart_of_core e k, fun _ _ _ _ => by simp only [State.l2, e], fun _ _ _ _ => by simp only [State.l1i, State.l1d, e, and_self]⟩
theorem State.OnlyHart.setHart (s : State) (h : Nat) (x : HartSt) : s.OnlyHart h (s.setHart h x) := fun _ n =>
  ⟨State.hart_setHart_of_ne s x n, fun _ _ _ _ => rfl, fun _ _ _ _ => ⟨rfl, rfl⟩⟩

/-! ## Completing -/

theorem Completes.mono {c : Instr} {s : State} {Q Q' : State → Prop} (h : Completes c s Q) (k : ∀ t, Q t → Q' t) : Completes c s Q' :=
  h.imp (fun t p => ⟨p.1, k t p.2⟩)
theorem Completes.of_exec {c : Instr} {s t : State} {Q : State → Prop} (e : exec c s = .next t) (q : Q t) : Completes c s Q := ⟨t, e, q⟩

end Sys2Proof.Machine
end

