-- ==== Sys2Proof/Tests/Slice0.lean ====
section
/-!
SUPPORT. Tests: ill-formed terms that `Instr.wf` refuses, worked examples of the spec, and for every hypothesis of an
obligation a state and operands that meet it (`test_met_<Obligation>_<clause>`).
-/

section
set_option maxRecDepth 100000

namespace Sys2Proof.Machine

/-- A small state: before power but for the fields given, every die online, host clocks running, 64 GiB mapped. -/
def wS (l : List (FRef × Nat)) : State :=
  let s : State := ([(R.PKG_DIES_VALE_ONLINE, 0xFFF), (R.PKG_MEMMAP_DRAM_TOP_GIB, 64)] ++ l).foldl
    (fun (s : State) (e : FRef × Nat) => s.put e.1 e.2) State.reset
  { s with pwr := { stage := .run } }

end Sys2Proof.Machine

open Sys2Proof Sys2Proof.Machine

/-! ## Well-formedness: an ill-formed term for each check -/

theorem test_wf_register_address : Instr.wf (.registerWrite 3 (.mem 0x20000000000 8 0)) = false := by decide
theorem test_wf_register_size : Instr.wf (.registerWrite 3 (.mem 0x1000 2 0)) = false := by decide
theorem test_wf_register_value : Instr.wf (.registerWrite 3 (.mem 0x1000 4 0x100000000)) = false := by decide
theorem test_wf_register_csr : Instr.wf (.registerWrite 3 (.csr .m .read 0x1000 0)) = false := by decide
theorem test_wf_access_address : Instr.wf (.hartLoad 3 (plainAccess 0x100000000000000 8)) = false := by decide
theorem test_wf_access_empty : Instr.wf (.hartLoad 3 (plainAccess 0x1000 0)) = false := by decide
theorem test_wf_access_long : Instr.wf (.hartFetch 3 (plainAccess 0x1000 65)) = false := by decide
theorem test_wf_access_walk : Instr.wf (.hartLoad 3 { plainAccess 0x1000 4 with walk := true }) = false := by decide
theorem test_wf_access_fof : Instr.wf (.hartLoad 3 { plainAccess 0x1000 4 with fof := true }) = false := by decide
theorem test_wf_store_value : Instr.wf (.hartStore 3 (plainAccess 0x1000 1) 0x100) = false := by decide
theorem test_wf_amo_operation : Instr.wf (.hartAmo 3 (plainAccess 0x1000 4) 10 0 0) = false := by decide
theorem test_wf_amo_size : Instr.wf (.hartAmo 3 (plainAccess 0x1000 2) 0 0 0) = false := by decide
theorem test_wf_amo_cas16_only : Instr.wf (.hartAmo 3 (plainAccess 0x1000 16) 0 0 0) = false := by decide
theorem test_wf_amo_value : Instr.wf (.hartAmo 3 (plainAccess 0x1000 4) 0 0x100000000 0) = false := by decide
theorem test_wf_amo_compare : Instr.wf (.hartAmo 3 (plainAccess 0x1000 4) 9 0 0x100000000) = false := by decide
theorem test_wf_lr_size : Instr.wf (.loadReserved 3 (plainAccess 0x1000 2)) = false := by decide
theorem test_wf_sc_size : Instr.wf (.storeConditional 3 (plainAccess 0x1000 1) 0) = false := by decide
theorem test_wf_cbo_inval : Instr.wf (.cboInval 3 (plainAccess 0x1000 65)) = false := by decide
theorem test_wf_access_walk_for :
    Instr.wf (.hartLoad 3 { plainAccess 0x1000 8 with walk := true, walkFor := 2 }) = false := by decide
theorem test_wf_access_guest_address :
    Instr.wf (.hartLoad 3 { plainAccess 0x1000 8 with fault := some (.guest 0x10000000000000000) }) = false := by decide
theorem test_wf_access_second_page :
    Instr.wf (.hartLoad 3 { plainAccess 0x1000 8 with page2 := some ⟨.pma, 0x2000, none⟩ }) = false := by decide
theorem test_wf_access_second_page_offset :
    Instr.wf (.hartLoad 3 { plainAccess 0x1FFC 8 with va := 0x1FFC, page2 := some ⟨.pma, 0x2004, none⟩ }) = false := by decide
theorem test_wf_eviction_line : Instr.wf (.l2Eviction 3 0x4000000000000) = false := by decide
theorem test_wf_monitor_event : Instr.wf (.cbqriMonitorConfig (.vc 0) 0 0x100) = false := by decide
theorem test_wf_msg_vc :
    Instr.wf (.rdShared { vc := 0x8, opc := 0, srcPkg := 0, srcAgent := 3, dstPkg := 0, dstAgent := 16, txn := 9, addr := 0x1000 }) = false := by decide
theorem test_wf_msg_opc :
    Instr.wf (.rdShared { vc := 0, opc := 0x20, srcPkg := 0, srcAgent := 3, dstPkg := 0, dstAgent := 16, txn := 9, addr := 0x1000 }) = false := by decide
theorem test_wf_msg_srcPkg :
    Instr.wf (.rdShared { vc := 0, opc := 0, srcPkg := 0x1000, srcAgent := 3, dstPkg := 0, dstAgent := 16, txn := 9, addr := 0x1000 }) = false := by decide
theorem test_wf_msg_srcAgent :
    Instr.wf (.rdShared { vc := 0, opc := 0, srcPkg := 0, srcAgent := 0x100, dstPkg := 0, dstAgent := 16, txn := 9, addr := 0x1000 }) = false := by decide
theorem test_wf_msg_dstPkg :
    Instr.wf (.rdShared { vc := 0, opc := 0, srcPkg := 0, srcAgent := 3, dstPkg := 0x1000, dstAgent := 16, txn := 9, addr := 0x1000 }) = false := by decide
theorem test_wf_msg_dstAgent :
    Instr.wf (.rdShared { vc := 0, opc := 0, srcPkg := 0, srcAgent := 3, dstPkg := 0, dstAgent := 0x100, txn := 9, addr := 0x1000 }) = false := by decide
theorem test_wf_msg_txn :
    Instr.wf (.rdShared { vc := 0, opc := 0, srcPkg := 0, srcAgent := 3, dstPkg := 0, dstAgent := 16, txn := 0x1000, addr := 0x1000 }) = false := by decide
theorem test_wf_msg_addr :
    Instr.wf (.rdShared { vc := 0, opc := 0, srcPkg := 0, srcAgent := 3, dstPkg := 0, dstAgent := 16, txn := 9, addr := 0x4000000000000 }) = false := by decide
theorem test_wf_msg_rcid :
    Instr.wf (.rdShared { vc := 0, opc := 0, srcPkg := 0, srcAgent := 3, dstPkg := 0, dstAgent := 16, txn := 9, addr := 0x1000, rcid := 0x400 }) = false := by decide
theorem test_wf_msg_mcid :
    Instr.wf (.rdShared { vc := 0, opc := 0, srcPkg := 0, srcAgent := 3, dstPkg := 0, dstAgent := 16, txn := 9, addr := 0x1000, mcid := 0x400 }) = false := by decide
theorem test_wf_msg_cmo :
    Instr.wf (.rdShared { vc := 0, opc := 0, srcPkg := 0, srcAgent := 3, dstPkg := 0, dstAgent := 16, txn := 9, addr := 0x1000, cmo := 0x4 }) = false := by decide
theorem test_wf_msg_ord :
    Instr.wf (.rdShared { vc := 0, opc := 0, srcPkg := 0, srcAgent := 3, dstPkg := 0, dstAgent := 16, txn := 9, addr := 0x1000, ord := 0x2 }) = false := by decide
theorem test_wf_msg_token :
    Instr.wf (.rdShared { vc := 0, opc := 0, srcPkg := 0, srcAgent := 3, dstPkg := 0, dstAgent := 16, txn := 9, addr := 0x1000, token := 0x100 }) = false := by decide
theorem test_wf_msg_byteMask :
    Instr.wf (.rdShared { vc := 0, opc := 0, srcPkg := 0, srcAgent := 3, dstPkg := 0, dstAgent := 16, txn := 9, addr := 0x1000, byteMask := 0x10000000000000000 }) = false := by decide
theorem test_wf_msg_aop :
    Instr.wf (.rdShared { vc := 0, opc := 0, srcPkg := 0, srcAgent := 3, dstPkg := 0, dstAgent := 16, txn := 9, addr := 0x1000, aop := 0x10 }) = false := by decide
theorem test_wf_msg_asize :
    Instr.wf (.rdShared { vc := 0, opc := 0, srcPkg := 0, srcAgent := 3, dstPkg := 0, dstAgent := 16, txn := 9, addr := 0x1000, asize := 0x4 }) = false := by decide
theorem test_wf_msg_aoff :
    Instr.wf (.rdShared { vc := 0, opc := 0, srcPkg := 0, srcAgent := 3, dstPkg := 0, dstAgent := 16, txn := 9, addr := 0x1000, aoff := 0x40 }) = false := by decide
theorem test_wf_msg_htag :
    Instr.wf (.rdShared { vc := 0, opc := 0, srcPkg := 0, srcAgent := 3, dstPkg := 0, dstAgent := 16, txn := 9, addr := 0x1000, htag := 0x200 }) = false := by decide
theorem test_wf_msg_reqPkg :
    Instr.wf (.rdShared { vc := 0, opc := 0, srcPkg := 0, srcAgent := 3, dstPkg := 0, dstAgent := 16, txn := 9, addr := 0x1000, reqPkg := 0x1000 }) = false := by decide
theorem test_wf_msg_reqAgent :
    Instr.wf (.rdShared { vc := 0, opc := 0, srcPkg := 0, srcAgent := 3, dstPkg := 0, dstAgent := 16, txn := 9, addr := 0x1000, reqAgent := 0x100 }) = false := by decide
theorem test_wf_msg_reqTxn :
    Instr.wf (.rdShared { vc := 0, opc := 0, srcPkg := 0, srcAgent := 3, dstPkg := 0, dstAgent := 16, txn := 9, addr := 0x1000, reqTxn := 0x1000 }) = false := by decide
theorem test_wf_msg_newState :
    Instr.wf (.rdShared { vc := 0, opc := 0, srcPkg := 0, srcAgent := 3, dstPkg := 0, dstAgent := 16, txn := 9, addr := 0x1000, newState := 0x4 }) = false := by decide
theorem test_wf_msg_status :
    Instr.wf (.rdShared { vc := 0, opc := 0, srcPkg := 0, srcAgent := 3, dstPkg := 0, dstAgent := 16, txn := 9, addr := 0x1000, status := 0x4 }) = false := by decide
theorem test_wf_msg_cause :
    Instr.wf (.rdShared { vc := 0, opc := 0, srcPkg := 0, srcAgent := 3, dstPkg := 0, dstAgent := 16, txn := 9, addr := 0x1000, cause := 0x8 }) = false := by decide
theorem test_wf_msg_dsrc :
    Instr.wf (.rdShared { vc := 0, opc := 0, srcPkg := 0, srcAgent := 3, dstPkg := 0, dstAgent := 16, txn := 9, addr := 0x1000, dsrc := 0x4 }) = false := by decide
theorem test_wf_mgt_mopc : Instr.wf (.regRead 3 ⟨0x20, 0, 0, false, 0, 0⟩) = false := by decide
theorem test_wf_mgt_tag : Instr.wf (.regRead 3 ⟨1, 0x100, 0, false, 0, 0⟩) = false := by decide
theorem test_wf_mgt_offset : Instr.wf (.regRead 3 ⟨1, 0, 0x100000, false, 0, 0⟩) = false := by decide
theorem test_wf_mgt_status : Instr.wf (.regRead 3 ⟨1, 0, 0, false, 0, 0x4⟩) = false := by decide
theorem test_wf_flit_typ : Instr.wf (.passIdleFlit .basin 3 { typ := 0x4 }) = false := by decide
theorem test_wf_flit_seq : Instr.wf (.passIdleFlit .basin 3 { typ := 0, seq := 0x400 }) = false := by decide
theorem test_wf_flit_ackSeq : Instr.wf (.passIdleFlit .basin 3 { typ := 0, ackSeq := 0x400 }) = false := by decide
theorem test_wf_flit_slotStart : Instr.wf (.passIdleFlit .basin 3 { typ := 0, slotStart := 0x8000 }) = false := by decide
theorem test_wf_flit_cr0Vc : Instr.wf (.passIdleFlit .basin 3 { typ := 0, cr0Vc := 0x8 }) = false := by decide
theorem test_wf_flit_cr0Total : Instr.wf (.passIdleFlit .basin 3 { typ := 0, cr0Total := 0x10000 }) = false := by decide
theorem test_wf_flit_cr1Vc : Instr.wf (.passIdleFlit .basin 3 { typ := 0, cr1Vc := 0x8 }) = false := by decide
theorem test_wf_flit_cr1Total : Instr.wf (.passIdleFlit .basin 3 { typ := 0, cr1Total := 0x10000 }) = false := by decide
theorem test_wf_flit_dseq : Instr.wf (.passIdleFlit .basin 3 { typ := 0, dseq := 0x1000 }) = false := by decide
theorem test_wf_flit_messages :
    Instr.wf (.passPayloadFlit .basin 3 { typ := 0, msgs := List.replicate 16 (.mgt ⟨1, 0, 0, false, 0, 0⟩) }) = false := by decide
theorem test_wf_flit_channel :
    Instr.wf (.passPayloadFlit .basin 3 { typ := 0, msgs := [.ose { vc := 5, opc := 0, srcPkg := 0, srcAgent := 3, dstPkg := 0, dstAgent := 16, txn := 9, addr := 0x1000 }] }) = false := by decide
theorem test_wf_lane_crcs : Instr.wf (.laneCheck .basin 3 { typ := 0 } [0]) = false := by decide
theorem test_wf_lane_crc_width : Instr.wf (.laneCheck .basin 3 { typ := 0 } (List.replicate 68 0x10000)) = false := by decide
theorem test_wf_ts_align_lane : Instr.wf (.tsAlign .basin 3 [(68, 1)]) = false := by decide
theorem test_wf_ts_sum_bits : Instr.wf (.tsMapsum 3 [(0, 2 ^ 256)]) = false := by decide
theorem test_wf_ts_offer_up : Instr.wf (.tsOffer 3 [(68, 1)] []) = false := by decide
theorem test_wf_ts_offer_down : Instr.wf (.tsOffer 3 [] [(68, 1)]) = false := by decide
theorem test_wf_ts_config_lane : Instr.wf (.tsConfig .basin 3 [(68, 1)]) = false := by decide
theorem test_wf_ts_rxgood_lane : Instr.wf (.tsRxgood 3 [(68, 1)]) = false := by decide
theorem test_wf_ts_map_lane : Instr.wf (.tsMap 3 [(68, 1)]) = false := by decide
theorem test_wf_lane_test : Instr.wf (.passLaneTestDone 3 (2 ^ 68) 0) = false := by decide
theorem test_wf_memory_rank : Instr.wf (.memoryReadData 0 0 ⟨16, [], none⟩) = false := by decide
theorem test_wf_memory_symbol : Instr.wf (.memoryReadData 0 0 ⟨0, [(0, 8, 1)], none⟩) = false := by decide
theorem test_wf_memory_symbol_unchanged : Instr.wf (.memoryReadData 0 0 ⟨0, [(0, 1, 0)], none⟩) = false := by decide
theorem test_wf_memory_symbol_byte : Instr.wf (.memoryReadData 0 0 ⟨0, [(0, 1, 256)], none⟩) = false := by decide
theorem test_wf_memory_address : Instr.wf (.memoryReadData 0 0 ⟨0, [], some 32⟩) = false := by decide
theorem test_wf_memory_device : Instr.wf (.copyLine 0 ⟨0, [(10, 0, 1)], none⟩) = false := by decide
theorem test_wf_training_mask : Instr.wf (.memTrainComplete ⟨List.replicate 32 none, 0x10000⟩) = false := by decide
theorem test_wf_training_ranks :
    Instr.wf (.memTrainComplete ⟨List.replicate 32 (some ⟨.rdimm, false, 64, 88, 16, 7⟩), 0⟩) = false := by decide
theorem test_wf_training_modules : Instr.wf (.memTrainComplete ⟨[], 0⟩) = false := by decide
theorem test_wf_fill_mask : Instr.wf (.memFillComplete 0x10000) = false := by decide
theorem test_wf_energy_mcid : Instr.wf (.energyDelivery 1 [(1024, 1)] 0 0) = false := by decide
theorem test_wf_frame_seq : Instr.wf (.hznIdleFrame 2 { typ := 0, seq := 0x1000 }) = false := by decide
theorem test_wf_frame_ackSeq : Instr.wf (.hznIdleFrame 2 { typ := 0, ackSeq := 0x1000 }) = false := by decide
theorem test_wf_frame_slotStart : Instr.wf (.hznIdleFrame 2 { typ := 0, slotStart := 0x4000000000 }) = false := by decide
theorem test_wf_frame_bseq : Instr.wf (.hznIdleFrame 2 { typ := 0, bseq := 0x1000 }) = false := by decide
theorem test_wf_frame_credits : Instr.wf (.hznIdleFrame 2 { typ := 0, crs := [(16, 0)] }) = false := by decide
theorem test_wf_hello_serial_fields :
    Instr.wf (.hello 2 { typ := 0 } ⟨0, 0x10000, 0, 0, 0, 0, 0, 0, 0, false⟩) = false := by decide
theorem test_wf_time_stamp : Instr.wf (.timeReq 2 { typ := 0 } 0x10000000000000000 0) = false := by decide
theorem test_wf_time_fraction : Instr.wf (.timeReq 2 { typ := 0 } 0 0x100) = false := by decide
theorem test_wf_window_vc : Instr.wf (.wAck { vc := 0x8, wopc := 0, srcPkg := 0, dstPkg := 0 }) = false := by decide
theorem test_wf_window_wopc : Instr.wf (.wAck { vc := 0, wopc := 0x20, srcPkg := 0, dstPkg := 0 }) = false := by decide
theorem test_wf_window_srcPkg : Instr.wf (.wAck { vc := 0, wopc := 0, srcPkg := 0x1000, dstPkg := 0 }) = false := by decide
theorem test_wf_window_srcFn :
    Instr.wf (.wAck { vc := 0, wopc := 0, srcPkg := 0, dstPkg := 0, srcFn := 0x1000 }) = false := by decide
theorem test_wf_window_iwin :
    Instr.wf (.wAck { vc := 0, wopc := 0, srcPkg := 0, dstPkg := 0, iwin := 0x4000 }) = false := by decide
theorem test_wf_window_offset :
    Instr.wf (.wAck { vc := 0, wopc := 0, srcPkg := 0, dstPkg := 0, offset := 0x10000000000 }) = false := by decide
theorem test_wf_window_length :
    Instr.wf (.wAck { vc := 0, wopc := 0, srcPkg := 0, dstPkg := 0, length := 0x200 }) = false := by decide
theorem test_wf_window_wtag :
    Instr.wf (.wAck { vc := 0, wopc := 0, srcPkg := 0, dstPkg := 0, wtag := 0x1000 }) = false := by decide
theorem test_wf_window_key :
    Instr.wf (.wAck { vc := 0, wopc := 0, srcPkg := 0, dstPkg := 0, key := 0x100000000 }) = false := by decide
theorem test_wf_window_cstatus :
    Instr.wf (.wAck { vc := 0, wopc := 0, srcPkg := 0, dstPkg := 0, cstatus := 0x8 }) = false := by decide
theorem test_wf_window_member :
    Instr.wf (.wAck { vc := 0, wopc := 0, srcPkg := 0, dstPkg := 0, member := 0x20 }) = false := by decide
theorem test_wf_window_islandId :
    Instr.wf (.wAck { vc := 0, wopc := 0, srcPkg := 0, dstPkg := 0, islandId := 0x10000 }) = false := by decide
theorem test_wf_window_nakCause :
    Instr.wf (.wAck { vc := 0, wopc := 0, srcPkg := 0, dstPkg := 0, nakCause := 0x8 }) = false := by decide
theorem test_wf_window_hops :
    Instr.wf (.wAck { vc := 0, wopc := 0, srcPkg := 0, dstPkg := 0, hops := 0x10 }) = false := by decide
theorem test_wf_translation :
    Instr.wf (.wRead { vc := 0, wopc := 0, srcPkg := 0, dstPkg := 0 } (.to 0x100000000000000)) = false := by decide
theorem test_wf_translation_range :
    Instr.wf (.wRead { vc := 0, wopc := 0, srcPkg := 0, dstPkg := 0 } (.to 0 19)) = false := by decide
theorem test_wf_ecam_offset : Instr.wf (.ecamConfigAccess 3 0x10000000 4 none) = false := by decide
theorem test_wf_ecam_size : Instr.wf (.ecamConfigAccess 3 0 8 none) = false := by decide
theorem test_wf_ecam_value : Instr.wf (.ecamConfigAccess 3 0 1 (some 0x100)) = false := by decide
theorem test_wf_numvfs : Instr.wf (.numvfsWrite 0x10000) = false := by decide
theorem test_wf_page : Instr.wf (.translationCompletion 3 0x10000000000000 .fault) = false := by decide
theorem test_wf_itag : Instr.wf (.invalidateRequest 3 32 0 4096) = false := by decide
theorem test_wf_invalidate_size : Instr.wf (.invalidateRequest 3 0 0 64) = false := by decide
theorem test_wf_window_table : Instr.wf (.xceWinCommit 0 2) = false := by decide
theorem test_wf_bar2_offset : Instr.wf (.bar2Load 3 0 0x40000000 (plainAccess 0x1000 8)) = false := by decide
theorem test_wf_expander_word : Instr.wf (.expanderScan 0 (some 0x10000)) = false := by decide
theorem test_wf_interrupt_words : Instr.wf (.hpIntFall 0 []) = false := by decide
theorem test_wf_containment_reason : Instr.wf (.portContainment 0 4) = false := by decide
theorem test_wf_dma_empty : Instr.wf (.deviceDmaRequest 0 0 (.read 0) .fault) = false := by decide
theorem test_wf_dma_long : Instr.wf (.deviceDmaRequest 0 0 (.read 4097) .fault) = false := by decide
theorem test_wf_dma_requester : Instr.wf (.deviceDmaRequest 0 0x10000 (.read 1) .fault) = false := by decide
theorem test_wf_dma_byte : Instr.wf (.deviceDmaRequest 0 0 (.write [256] false false) .fault) = false := by decide
theorem test_wf_dma_atomic : Instr.wf (.deviceDmaRequest 0 0 (.atomic 16 0 0 0) .fault) = false := by decide
theorem test_wf_msi_data : Instr.wf (.deviceMsiWrite 0 0 none 0x100000000) = false := by decide
theorem test_wf_readings : Instr.wf (.thermalSensorRead []) = false := by decide
theorem test_wf_msl_delimiter : Instr.wf (.mslFrame [0x7E]) = false := by decide
theorem test_wf_msl_byte : Instr.wf (.mslFrame [256]) = false := by decide
theorem test_wf_mbox_length : Instr.wf (.mboxTxGo 8192) = false := by decide
theorem test_wf_packet_version :
    Instr.wf (.commandReceive .msl { version := 0x100, typ := 0, tag := 1, opcode := 1 }) = false := by decide
theorem test_wf_packet_typ :
    Instr.wf (.commandReceive .msl { version := 3, typ := 0x100, tag := 1, opcode := 1 }) = false := by decide
theorem test_wf_packet_tag :
    Instr.wf (.commandReceive .msl { version := 3, typ := 0, tag := 0x100, opcode := 1 }) = false := by decide
theorem test_wf_packet_opcode :
    Instr.wf (.commandReceive .msl { version := 3, typ := 0, tag := 1, opcode := 0x10000 }) = false := by decide
theorem test_wf_packet_status :
    Instr.wf (.commandReceive .msl { version := 3, typ := 0, tag := 1, opcode := 1, status := 0x10000 }) = false := by decide
theorem test_wf_packet_length :
    Instr.wf (.commandReceive .msl { version := 3, typ := 0, tag := 1, opcode := 1, length := 0x10000 }) = false := by decide
theorem test_wf_packet_aux :
    Instr.wf (.commandReceive .msl { version := 3, typ := 0, tag := 1, opcode := 1, aux := 0x10000 }) = false := by decide
theorem test_wf_packet_param :
    Instr.wf (.commandReceive .msl { version := 3, typ := 0, tag := 1, opcode := 1, param := 0x100000000 }) = false := by decide
theorem test_wf_packet_data :
    Instr.wf (.dataPacket .msl { version := 3, typ := 0, tag := 1, opcode := 1, data := [256] }) = false := by decide
theorem test_wf_temperatures : Instr.wf (.powerEvaluation 0 [] (List.replicate 12 0)) = false := by decide
theorem test_wf_powers : Instr.wf (.powerEvaluation 0 (List.replicate 17 0) []) = false := by decide
theorem test_wf_time_source : Instr.wf (.timeSourceWrite 16) = false := by decide
theorem test_wf_time_step : Instr.wf (.timeStepFwd 0x10000000000000000) = false := by decide
theorem test_wf_mmio_value : Instr.wf (.mmioCompletion 3 true 0x10000000000000000) = false := by decide
theorem test_wf_flit_ctype : Instr.wf (.passIdleFlit .basin 3 { typ := 2, ctype := 0x100 }) = false := by decide
theorem test_wf_flit_attempt : Instr.wf (.passIdleFlit .basin 3 { typ := 2, att := 0x100 }) = false := by decide
theorem test_wf_flit_error : Instr.wf (.passIdleFlit .basin 3 { typ := 2, err := [(68, 1)] }) = false := by decide
theorem test_wf_frame_ctype : Instr.wf (.hznIdleFrame 2 { typ := 2, ctype := 0x100 }) = false := by decide
theorem test_wf_frame_attempt : Instr.wf (.hznIdleFrame 2 { typ := 2, att := 0x100 }) = false := by decide
theorem test_wf_frame_reports : Instr.wf (.hznIdleFrame 2 { typ := 2, crs := List.replicate 5 (0, 0) }) = false := by decide
theorem test_wf_frame_error : Instr.wf (.hznIdleFrame 2 { typ := 2, err := [(544, 1)] }) = false := by decide
theorem test_wf_drain_address : Instr.wf (.seteipnumStore 0x100000000000000 0) = false := by decide
theorem test_wf_patrol_cell : Instr.wf (.onchipPatrolBlock .other [(1024, 0)]) = false := by decide

/-! ## Worked examples of the spec -/

/-- spec/01, the address of the worked example: slice, set, tag and channel places. -/
theorem test_example_home_slice : sliceOf 0x123456789C0 = 8 := by decide
theorem test_example_mesa_set : mesaSet 0x123456789C0 = 0x6DA := by decide
theorem test_example_mesa_tag : mesaTag 0x123456789C0 = 0x48D1 := by decide
theorem test_example_channel_16way : chanPlace 0 0x123456789C0 = (8, 0x1234567) := by decide
theorem test_example_channel_12way : chanPlace 1 0x123456789C0 = (0, 25451658) := by decide
theorem test_example_channel_8way : chanPlace 2 0x123456789C0 = (8, 0x2468ACE) := by decide
theorem test_example_channel_15and1 : chanPlace 3 0x123456789C0 = (6, 20361326) := by decide
/-- spec/03, the same address on the die side. -/
theorem test_example_vale_slice : valeSlice 0x2A123456789C0 = 7 := by decide
theorem test_example_vale_set : valeSet 0x2A123456789C0 = 1271 := by decide
/-- spec/04, the directory set of the same line. -/
theorem test_example_directory_set : dirSet 0x123456789C0 = 0x6DA7 := by decide
/-- spec/14: bit 300 flipped is found; bits 300 and 301 are uncorrectable; 300, 302 and 460 are read as bit 462. -/
theorem test_example_one_bit : (⟨16, 32, 512⟩ : Grid).decode ((⟨16, 32, 512⟩ : Grid).syndromes false [(9, 12)]) = .one (9, 12) := by
  decide
theorem test_example_two_bits :
    (⟨16, 32, 512⟩ : Grid).decode ((⟨16, 32, 512⟩ : Grid).syndromes false [(9, 12), (9, 13)]) = .bad := by decide
theorem test_example_three_bits :
    (⟨16, 32, 512⟩ : Grid).decode ((⟨16, 32, 512⟩ : Grid).syndromes false [(9, 12), (9, 14), (14, 12)]) = .one (14, 14) := by
  decide
/-- spec/09: the first 32 bytes of the record of MCID 112. -/
def exampleSet : MeterSet :=
  { start := 0xD529AE9E860000, span := 1, sealBy := some 1, counts := [(0, 1), (17, 1), (112, 1), (305, 1)] }
theorem test_example_record_head : (exampleSet.record 0x02A 0x4947000200193A7C 3).take 32 =
    [0x01, 0x00, 0x70, 0x00, 0x2A, 0x00, 0x00, 0x01, 0x00, 0x00, 0x86, 0x9E, 0xAE, 0x29, 0xD5, 0x00,
     0x7C, 0x3A, 0x19, 0x00, 0x02, 0x00, 0x47, 0x49, 0x03, 0x00, 0x05, 0x00, 0x01, 0x00, 0x00, 0x00] := by
  decide
/-- spec/15: port 8 at width 64 needs 37 more lane events to reach width 16, port 9 at width 32 needs 32. -/
def examplePorts : State :=
  (wS [(R.PASS_STATUS_WIDTH 0 8, 0), (R.PASS_STATUS_WIDTH 0 9, 1)]).setPPort 9 { up := 0x1F }
theorem test_example_lane_projection : examplePorts.laneF 4 = 69 := by decide
/-- spec/18: two RD_OWN take the counter from 0xFFFF_FFFF_FFFE to 0 with OVF. -/
def exampleCounter : State := (wS [(R.CCOL_COUNT_COUNT 248 3, 0xFFFFFFFFFFFE)]).ctrAdd 248 3 1
theorem test_example_counter_last : exampleCounter.get (R.CCOL_COUNT_COUNT 248 3) = 0xFFFFFFFFFFFF ∧
    exampleCounter.get (R.CCOL_COUNT_OVF 248 3) = 0 := by decide
theorem test_example_counter_wrap : (exampleCounter.ctrAdd 248 3 1).get (R.CCOL_COUNT_COUNT 248 3) = 0 ∧
    (exampleCounter.ctrAdd 248 3 1).get (R.CCOL_COUNT_OVF 248 3) = 1 := by decide
/-- spec/19: the four contacts that the integrator checks. -/
theorem test_example_contact_memory : contactAt 87 12 = .dq 15 0 20 := by decide
theorem test_example_contact_power : contactAt 40 20 = .rail 7 := by decide
theorem test_example_contact_root : contactAt 24 32 = .peTx 37 false := by decide
theorem test_example_contact_horizon : contactAt 81 50 = .hzRx 5 6 true := by decide
/-- spec/19: the IDCODE. -/
theorem test_example_idcode : jtagIdcode = 0x19384C97 := by decide
/-- spec/06: the UP map of port 9 at width 32 after lanes 5, 12, 17 and 51 are lost; 67 was a spare, 40 has failed. -/
theorem test_example_pass_map : mapOf 0xFFFF7FEFFFFFDEFDF 1 = [0, 1, 2, 3, 4] ++ (List.range 6).map (· + 6) ++ [13, 14, 15, 16] ++
    (List.range 17).map (· + 18) := by decide
/-- spec/17 R389: LOCAL enters level 2 at 94 °C, and leaves it 3 °C below. -/
theorem test_throttle_enter : throttleAt localEntry 0 (94 * 16) = 2 := by decide
theorem test_throttle_leave : throttleAt localEntry 2 (91 * 16) = 1 ∧ throttleAt localEntry 2 (91 * 16 + 1) = 2 := by decide
/-- The block has no words: no row of the table has bits. -/
theorem test_no_word_spells_a_command : decodeTableWord 0 0 = none ∧ State.reset.withFetchWord 0 0 = State.reset := by
  exact ⟨rfl, rfl⟩

/-! ## The hypotheses of the obligations are met -/

theorem test_met_CoreCommands_1 :
    ∃ (d : Die) (c : Fin 32) (s : State), s.dieOnline d = true ∧ s.coreState (hartOf d c) = coreONLINE ∧ s.isPending (hartOf d
      c) = false :=
  ⟨0, 1, wS [(R.VALE_CORE_STATUS_STATE 0 1, 0)], by decide⟩

theorem test_met_CoreCommands_2 :
    ∃ (d : Die) (c : Fin 32) (s : State), s.dieOnline d = true ∧ s.coreState (hartOf d c) = coreONLINE :=
  ⟨0, 1, wS [(R.VALE_CORE_STATUS_STATE 0 1, 0)], by decide⟩

theorem test_met_CoreCommands_3 :
    ∃ (d : Die) (c : Fin 32) (s : State), s.dieOnline d = true ∧ s.coreState (hartOf d c) = coreOFFLINE :=
  ⟨0, 1, wS [(R.VALE_CORE_STATUS_STATE 0 1, 2)], by decide⟩

theorem test_met_CoreCommands_4 :
    ∃ (d : Die) (c : Fin 32) (s : State), s.dieOnline d = true ∧ s.coreState (hartOf d c) = coreOFFLINE ∧ s.isPending (hartOf d
      c) = false :=
  ⟨0, 1, wS [(R.VALE_CORE_STATUS_STATE 0 1, 2)], by decide⟩

theorem test_met_CoreCommands_5 :
    ∃ (d : Die) (c : Fin 32) (s : State), s.dieOnline d = true ∧ s.coreState (hartOf d c) = coreONLINE ∧ s.isPending (hartOf d
      c) = false :=
  ⟨0, 1, wS [(R.VALE_CORE_STATUS_STATE 0 1, 0)], by decide⟩

theorem test_met_CoreCommands_6 :
    ∃ (d : Die) (c : Fin 32) (s : State), s.dieOnline d = true ∧ (s.coreState (hartOf d c) ≠ coreONLINE ∨ s.isPending (hartOf d
      c) = true) :=
  ⟨0, 1, wS [(R.VALE_CORE_STATUS_STATE 0 1, 5)], by decide⟩

theorem test_met_CoreCommands_7 :
    ∃ (d : Die) (c : Fin 32) (s : State), s.dieOnline d = true ∧ (s.coreState (hartOf d c) ≠ coreONLINE ∨ s.isPending (hartOf d
      c) = true) :=
  ⟨0, 1, wS [(R.VALE_CORE_STATUS_STATE 0 1, 5)], by decide⟩

theorem test_met_CoreCommands_8 :
    ∃ (d : Die) (c : Fin 32) (s : State), s.dieOnline d = true ∧ (s.coreState (hartOf d c) ≠ coreOFFLINE ∨ s.isPending (hartOf d
      c) = true) :=
  ⟨0, 1, wS [(R.VALE_CORE_STATUS_STATE 0 1, 5)], by decide⟩

theorem test_met_CoreCommands_9 :
    ∃ (d : Die) (c : Fin 32) (s : State), s.dieOnline d = true ∧ s.coreState (hartOf d c) ≠ coreONLINE ∧ s.coreState (hartOf d
      c) ≠ coreOFFLINE :=
  ⟨0, 1, wS [(R.VALE_CORE_STATUS_STATE 0 1, 5)], by decide⟩

theorem test_met_CoreCommands_10 :
    ∃ (d : Die) (c : Fin 32) (s : State), s.dieOnline d = false :=
  ⟨0, 1, State.reset, by decide⟩

theorem test_met_CoreCommands_11 :
    ∃ (d : Die) (c : Fin 32) (s : State), s.dieOnline d = false :=
  ⟨0, 1, State.reset, by decide⟩

theorem test_met_CoreCommands_12 :
    ∃ (d : Die) (c : Fin 32) (s : State), s.dieOnline d = false :=
  ⟨0, 1, State.reset, by decide⟩

theorem test_met_CoreCommands_13 :
    ∃ (d : Die) (c : Fin 32) (s : State), s.dieOnline d = false :=
  ⟨0, 1, State.reset, by decide⟩

theorem test_met_CoreTransitions_1 :
    ∃ (h : Hart) (s : State), s.coreState h = coreSTOPPING ∧ s.get (R.VALE_L2_STATUS_STATE (h / 32) (h % 32)) = 2 ∧ (s.hart
      h).waits = [] ∧ (s.dieCtl (h / 32)).phase ≠ 1 :=
  ⟨40, wS [(R.VALE_CORE_STATUS_STATE (40 / 32) (40 % 32), 1), (R.VALE_L2_STATUS_STATE (40 / 32) (40 % 32), 2)], by decide⟩

theorem test_met_CoreTransitions_2 :
    ∃ (h : Hart) (s : State), s.coreState h = coreSTOPPING ∧ s.get (R.VALE_L2_STATUS_STATE (h / 32) (h % 32)) = 2 ∧ (s.hart
      h).waits = [] ∧ (s.dieCtl (h / 32)).phase = 1 :=
  ⟨40,
   (wS [(R.VALE_CORE_STATUS_STATE (40 / 32) (40 % 32), 1), (R.VALE_L2_STATUS_STATE (40 / 32) (40 % 32), 2)]).setDieCtl 1
     { phase := 1 }, by decide⟩

theorem test_met_CoreTransitions_3 :
    ∃ (h : Hart) (s : State), s.coreState h = coreSTARTING ∧ (s.dieCtl (h / 32)).phase ≠ 1 ∧ (s.dieCtl (h / 32)).phase ≠ 2 :=
  ⟨40, wS [(R.VALE_CORE_STATUS_STATE (40 / 32) (40 % 32), 3), (R.VALE_CORE_RESET_PC_PC (40 / 32) (40 % 32), 0x1234)],
   by decide⟩

theorem test_met_CoreTransitions_4 :
    ∃ (h : Hart) (s : State), s.coreState h = coreSTARTING ∧ ((s.dieCtl (h / 32)).phase = 1 ∨ (s.dieCtl (h / 32)).phase = 2) :=
  ⟨40,
   (wS [(R.VALE_CORE_STATUS_STATE (40 / 32) (40 % 32), 3), (R.VALE_CORE_RESET_PC_PC (40 / 32) (40 % 32), 0x1234)]).setDieCtl
     1 { phase := 1 }, by decide⟩

theorem test_met_CoreTransitions_5 :
    ∃ (h : Hart) (s : State), s.coreState h = coreRESETTING ∧ (s.hart h).waits = [] ∧ (s.dieCtl (h / 32)).phase ≠ 1 ∧ (s.dieCtl
      (h / 32)).phase ≠ 2 :=
  ⟨40, wS [(R.VALE_CORE_STATUS_STATE (40 / 32) (40 % 32), 4), (R.VALE_CORE_RESET_PC_PC (40 / 32) (40 % 32), 0x1234)],
   by decide⟩

theorem test_met_CoreTransitions_6 :
    ∃ (h : Hart) (s : State), s.coreState h = coreRESETTING ∧ (s.hart h).waits = [] ∧ ((s.dieCtl (h / 32)).phase = 1 ∨ (s.dieCtl
      (h / 32)).phase = 2) :=
  ⟨40,
   (wS [(R.VALE_CORE_STATUS_STATE (40 / 32) (40 % 32), 4), (R.VALE_CORE_RESET_PC_PC (40 / 32) (40 % 32), 0x1234)]).setDieCtl
     1 { phase := 2 }, by decide⟩

theorem test_met_CoreTransitions_7 :
    ∃ (h : Hart) (s : State), (s.coreState h = coreONLINE ∨ s.coreState h = coreRESETTING) :=
  ⟨40, wS [(R.VALE_CORE_STATUS_STATE (40 / 32) (40 % 32), 0)], by decide⟩

theorem test_met_CoreTransitions_8 :
    ∃ (h : Hart) (s : State), s.coreState h = coreSTARTING :=
  ⟨40, wS [(R.VALE_CORE_STATUS_STATE (40 / 32) (40 % 32), 3)], by decide⟩

theorem test_met_CoreTransitions_9 :
    ∃ (h : Hart) (s : State), s.coreState h = coreSTOPPING :=
  ⟨40, wS [(R.VALE_CORE_STATUS_STATE (40 / 32) (40 % 32), 1)], by decide⟩

theorem test_met_CsrWrites_1 :
    ∃ (h : Hart) (v : Word) (s : State), s.coreUp h = true :=
  ⟨7, 0xFFFFFFFFFFFFFFFF, wS [(R.VALE_CORE_STATUS_STATE (7 / 32) (7 % 32), 0)], by decide⟩

theorem test_met_CsrWrites_2 :
    ∃ (h : Hart) (v : Word) (s : State), s.coreUp h = true ∧ (s.reg (R.rmstateen0 h)).toNat.testBit 55 = true :=
  ⟨7, 0xFFFFFFFFFFFFFFFF, wS [(R.VALE_CORE_STATUS_STATE (7 / 32) (7 % 32), 0), (⟨R.rmstateen0 7, 55, 1⟩, 1)], by decide⟩

theorem test_met_CsrWrites_3 :
    ∃ (h : Hart) (p : Priv) (v : Word) (n : Nat) (s : State), s.coreUp h = true ∧ s.csrCause h p 55 = some n :=
  ⟨7, .vs, 5, 22, wS [(R.VALE_CORE_STATUS_STATE (7 / 32) (7 % 32), 0)], by decide⟩

theorem test_met_CsrWrites_4 :
    ∃ (h : Hart) (p : Priv) (v : Word) (s : State), s.coreUp h = true ∧ s.csrCause h p 0 = none :=
  ⟨7, .m, 0x7F, wS [(R.VALE_CORE_STATUS_STATE (7 / 32) (7 % 32), 0)], by decide⟩

theorem test_met_CsrWrites_5 :
    ∃ (h : Hart) (n : Nat) (s : State), (s.hart h).target = some n ∧ n < 128 :=
  ⟨7, 20, (wS [(R.VALE_CORE_STATUS_STATE (7 / 32) (7 % 32), 0)]).setHart 7 { target := some 20 }, by decide⟩

theorem test_met_CsrWrites_6 :
    ∃ (h : Hart) (s : State), s.coreUp h = true :=
  ⟨7, ((wS [(R.VALE_CORE_STATUS_STATE (7 / 32) (7 % 32), 0)]).setL1i 7 5 3 ⟨true, 5, 9⟩), by decide⟩

theorem test_met_CsrWrites_7 :
    ∃ (h : Hart) (s : State), True :=
  ⟨7, (wS [(R.VALE_CORE_STATUS_STATE (7 / 32) (7 % 32), 0)]).setHart 7 { resv := some 5 }, by decide⟩

theorem test_met_FlushThenDisable_1 :
    ∃ (h : Hart) (w : Fin 16) (s : State), s.dieOnline (h / 32) = true ∧ (s.get (R.VALE_L2_STATUS_WAYS_DISABLED (h / 32) (h %
      32))).testBit w = false :=
  ⟨33, 4, wS [], by decide⟩

theorem test_met_FlushThenDisable_2 :
    ∃ (h : Hart) (w : Fin 16) (s : State), s.dieOnline (h / 32) = true ∧ (s.get (R.VALE_L2_STATUS_WAYS_DISABLED (h / 32) (h %
      32))).testBit w = true :=
  ⟨33, 4, wS [(R.VALE_L2_STATUS_WAYS_DISABLED (33 / 32) (33 % 32), 0xFF)], by decide⟩

theorem test_met_FlushThenDisable_3 :
    ∃ (h : Hart) (w : Fin 16) (s : State), s.dieOnline (h / 32) = true ∧ (s.get (R.VALE_L2_STATUS_WAYS_RETIRED (h / 32) (h %
      32))).testBit w = false ∧ s.flushing (.l2Way h w) = false :=
  ⟨33, 4,
   wS [(R.VALE_L2_CTL_WAY_DISABLE (33 / 32) (33 % 32), 0xFF), (R.VALE_L2_STATUS_WAYS_DISABLED (33 / 32) (33 % 32), 0xFF)],
   by decide⟩

theorem test_met_FlushThenDisable_4 :
    ∃ (d : Die) (sl w : Fin 16) (s : State), s.dieOnline d = true ∧ (s.get (R.VALE_VC_STATUS_WAYS_DISABLED d sl)).testBit w =
      false :=
  ⟨3, 15, 0, wS [], by decide⟩

theorem test_met_FlushThenDisable_5 :
    ∃ (d : Die) (sl w : Fin 16) (s : State), s.dieOnline d = true ∧ (s.get (R.VALE_VC_STATUS_WAYS_DISABLED d sl)).testBit w =
      true :=
  ⟨3, 15, 0, wS [(R.VALE_VC_STATUS_WAYS_DISABLED 3 15, 0xFF)], by decide⟩

theorem test_met_FlushThenDisable_6 :
    ∃ (d : Die) (sl w : Fin 16) (s : State), s.dieOnline d = true ∧ (s.get (R.VALE_VC_STATUS_WAYS_RETIRED d sl)).testBit w =
      false ∧ s.flushing (.vcWay d sl w) = false :=
  ⟨3, 15, 0, wS [(R.VALE_VC_CTL_WAY_DISABLE 3 15, 0xFF), (R.VALE_VC_STATUS_WAYS_DISABLED 3 15, 0xFF)], by decide⟩

theorem test_met_FlushThenDisable_7 :
    ∃ (d : Die) (sl : Fin 16) (s : State), s.dieOnline d = true ∧ s.get (R.VALE_VC_STATUS_STATE d sl) = 0 :=
  ⟨11, 2, wS [], by decide⟩

theorem test_met_FlushThenDisable_8 :
    ∃ (d : Die) (sl : Fin 16) (s : State), s.dieOnline d = true ∧ s.get (R.VALE_VC_STATUS_STATE d sl) = 2 ∧ (s.dieCtl d).phase ≠
      2 :=
  ⟨11, 2, wS [(R.VALE_VC_CTL_SLICE_DISABLE 11 2, 1), (R.VALE_VC_STATUS_STATE 11 2, 2)], by decide⟩

theorem test_met_FlushThenDisable_9 :
    ∃ (h : Hart) (s : State), s.flushOver (.l2 h) = true :=
  ⟨70, { wS [] with die := { walks := [⟨.l2 70, 0⟩] } }, by decide⟩

theorem test_met_FlushThenDisable_10 :
    ∃ (h : Hart) (w : Fin 16) (s : State), s.flushOver (.l2Way h w) = true ∧ (s.get (R.VALE_L2_CTL_WAY_DISABLE (h / 32) (h %
      32))).testBit w = true :=
  ⟨70, 3, { wS [(R.VALE_L2_CTL_WAY_DISABLE (70 / 32) (70 % 32), 8)] with die := { walks := [⟨.l2Way 70 3, 0⟩] } },
   by decide⟩

theorem test_met_FlushThenDisable_11 :
    ∃ (d : Die) (sl : Fin 16) (s : State), s.flushOver (.vcSlice d sl) = true ∧ s.get (R.VALE_VC_CTL_SLICE_DISABLE d sl) = 1 :=
  ⟨1, 3, { wS [(R.VALE_VC_CTL_SLICE_DISABLE 1 3, 1)] with die := { walks := [⟨.vcSlice 1 3, 0⟩] } }, by decide⟩

theorem test_met_FlushThenDisable_12 :
    ∃ (d : Die) (sl w : Fin 16) (s : State), s.flushOver (.vcWay d sl w) = true ∧ (s.get (R.VALE_VC_CTL_WAY_DISABLE d
      sl)).testBit w = true :=
  ⟨1, 3, 5, { wS [(R.VALE_VC_CTL_WAY_DISABLE 1 3, 0x20)] with die := { walks := [⟨.vcWay 1 3 5, 0⟩] } }, by decide⟩

theorem test_met_FlushThenDisable_13 :
    ∃ (d : Die) (b : Fin 16) (w : Fin 24) (s : State), s.flushOver (.sfWay d b w) = true :=
  ⟨1, 3, 5, { wS [] with die := { walks := [⟨.sfWay 1 3 5, 0⟩] } }, by decide⟩

theorem test_met_FlushThenDisable_14 :
    ∃ (d : Die) (sl : Fin 16) (ix : Nat) (s : State), s.ras.flaws = [] ∧ s.flushing (.vcSlice d sl) = true ∧ (s.flushLines
      (.vcSlice d sl)).head? = some ix ∧ s.wbCount d < 256 ∧ s.upgrading d (s.flushAt (.vcSlice d sl) ix) = false :=
  ⟨1, 3, 83,
   { (wS []).setVc 1 3 5 3 ⟨true, 77, .m, 0, 0, 0, 9, false⟩ with
       die := { walks := [⟨.vcSlice 1 3, 0⟩], vc := ((wS []).setVc 1 3 5 3 ⟨true, 77, .m, 0, 0, 0, 9, false⟩).die.vc } },
   by decide⟩

theorem test_met_MemoryAccesses_1 :
    ∃ (h : Hart) (x : Access) (w : Nat) (s : State), s.Calm h ∧ s.Hits h x w :=
  ⟨9, plainAccess 0x1008 8, 3,
   (wS [(R.VALE_CORE_STATUS_STATE (9 / 32) (9 % 32), 0)]).setL2 9 (l2Set 64) 3
     ⟨.s, 64, 1, 0, 0, 0x112233445566778899AABBCCDDEEFF00, false⟩, by decide⟩

theorem test_met_MemoryAccesses_2 :
    ∃ (h : Hart) (x : Access) (w : Nat) (s : State), s.Calm h ∧ s.Hits h x w ∧ s.l1iWay h (x.ga / 64) = none ∧ (s.reachFetch
      x.priv x.ga).isMem = true ∧ (s.reachFetch x.priv (x.ga + x.size - 1)).isMem = true :=
  ⟨9, plainAccess 0x1008 8, 3,
   (wS [(R.VALE_CORE_STATUS_STATE (9 / 32) (9 % 32), 0)]).setL2 9 (l2Set 64) 3
     ⟨.s, 64, 1, 0, 0, 0x112233445566778899AABBCCDDEEFF00, false⟩, by decide⟩

theorem test_met_MemoryAccesses_3 :
    ∃ (h : Hart) (x : Access) (w : Nat) (v : Nat) (s : State), s.Calm h ∧ s.Hits h x w ∧ (s.cached h x w).st = .m ∧ x.walk =
      false :=
  ⟨9, plainAccess 0x1008 8, 3, 0x5555,
   (wS [(R.VALE_CORE_STATUS_STATE (9 / 32) (9 % 32), 0)]).setL2 9 (l2Set 64) 3
     ⟨.m, 64, 1, 0, 0, 0x112233445566778899AABBCCDDEEFF00, false⟩, by decide⟩

theorem test_met_MemoryAccesses_4 :
    ∃ (h : Hart) (x : Access) (w : Nat) (op v cmp : Nat) (s : State), s.Calm h ∧ s.Hits h x w ∧ (s.cached h x w).st = .m ∧
      x.walk = false :=
  ⟨9, plainAccess 0x1008 8, 3, 1, 0x5555, 0,
   (wS [(R.VALE_CORE_STATUS_STATE (9 / 32) (9 % 32), 0)]).setL2 9 (l2Set 64) 3
     ⟨.m, 64, 1, 0, 0, 0x112233445566778899AABBCCDDEEFF00, false⟩, by decide⟩

theorem test_met_MemoryAccesses_5 :
    ∃ (h : Hart) (x : Access) (w : Nat) (s : State), s.Calm h ∧ s.Hits h x w ∧ x.walk = false :=
  ⟨9, plainAccess 0x1008 8, 3,
   (wS [(R.VALE_CORE_STATUS_STATE (9 / 32) (9 % 32), 0)]).setL2 9 (l2Set 64) 3
     ⟨.s, 64, 1, 0, 0, 0x112233445566778899AABBCCDDEEFF00, false⟩, by decide⟩

theorem test_met_MemoryAccesses_6 :
    ∃ (h : Hart) (x : Access) (w : Nat) (v : Nat) (s : State), s.Calm h ∧ s.Hits h x w ∧ (s.cached h x w).st = .m ∧ x.walk =
      false ∧ (s.hart h).resv = some (x.ga / 64) :=
  ⟨9, plainAccess 0x1008 8, 3, 0x5555,
   ((wS [(R.VALE_CORE_STATUS_STATE (9 / 32) (9 % 32), 0)]).setL2 9 (l2Set 64) 3
      ⟨.m, 64, 1, 0, 0, 0x112233445566778899AABBCCDDEEFF00, false⟩).setHart 9 { resv := some 64 }, by decide⟩

theorem test_met_MemoryAccesses_7 :
    ∃ (h : Hart) (x : Access) (w : Nat) (v : Nat) (s : State), s.Calm h ∧ s.Hits h x w ∧ x.walk = false ∧ (s.hart h).resv ≠ some
      (x.ga / 64) :=
  ⟨9, plainAccess 0x1008 8, 3, 0x5555,
   (wS [(R.VALE_CORE_STATUS_STATE (9 / 32) (9 % 32), 0)]).setL2 9 (l2Set 64) 3
     ⟨.m, 64, 1, 0, 0, 0x112233445566778899AABBCCDDEEFF00, false⟩, by decide⟩

theorem test_met_CacheBlockOperations_1 :
    ∃ (h : Hart) (x : Access) (w : Nat) (by' : PfBy) (s : State), s.Calm h ∧ s.ras.flaws = [] ∧ x.pbmt = .pma ∧ Access.refusal x
      = none ∧ (s.reachHart x.priv x.ga).isMem = true ∧ s.l2Way h (x.ga / 64) = some w ∧ s.pfOff h by' = false :=
  ⟨9, plainAccess 0x1008 8, 3, .zicbop,
   (wS [(R.VALE_CORE_STATUS_STATE (9 / 32) (9 % 32), 0)]).setL2 9 (l2Set 64) 3
     ⟨.s, 64, 1, 0, 0, 0x112233445566778899AABBCCDDEEFF00, false⟩, by decide⟩

theorem test_met_CacheBlockOperations_2 :
    ∃ (h : Hart) (x : Access) (w : Nat) (by' : PfBy) (s : State), s.Calm h ∧ s.ras.flaws = [] ∧ x.pbmt = .pma ∧ Access.refusal x
      = none ∧ (s.reachHart x.priv x.ga).isMem = true ∧ s.l2Way h (x.ga / 64) = some w ∧ s.pfOff h by' = false ∧ (s.cached h
      x w).st = .m :=
  ⟨9, plainAccess 0x1008 8, 3, .l1d,
   (wS [(R.VALE_CORE_STATUS_STATE (9 / 32) (9 % 32), 0)]).setL2 9 (l2Set 64) 3
     ⟨.m, 64, 1, 0, 0, 0x112233445566778899AABBCCDDEEFF00, false⟩, by decide⟩

theorem test_met_CacheBlockOperations_3 :
    ∃ (h : Hart) (x : Access) (w : Nat) (by' : PfBy) (s : State), s.Calm h ∧ s.ras.flaws = [] ∧ x.pbmt = .pma ∧ Access.refusal x
      = none ∧ (s.reachHart x.priv x.ga).isMem = true ∧ s.l2Way h (x.ga / 64) = some w ∧ s.pfOff h by' = false ∧ s.l1iWay h
      (x.ga / 64) = none :=
  ⟨9, plainAccess 0x1008 8, 3, .l1i,
   (wS [(R.VALE_CORE_STATUS_STATE (9 / 32) (9 % 32), 0)]).setL2 9 (l2Set 64) 3
     ⟨.s, 64, 1, 0, 0, 0x112233445566778899AABBCCDDEEFF00, false⟩, by decide⟩

theorem test_met_CacheBlockOperations_4 :
    ∃ (h : Hart) (x : Access) (op : PfOp) (by' : PfBy) (s : State), s.hartReady h = true ∧ s.ras.flaws = [] ∧ s.pfOff h by' =
      true :=
  ⟨9, plainAccess 0x1008 8, .w, .l2,
   wS [(R.VALE_CORE_STATUS_STATE (9 / 32) (9 % 32), 0), (R.CORE_PFCTL_L2_PF_OFF 9, 1)], by decide⟩

theorem test_met_CacheBlockOperations_5 :
    ∃ (h : Hart) (x : Access) (s : State), s.Calm h ∧ s.ras.flaws = [] ∧ Access.refusal x = none ∧ (s.reachHart x.priv
      x.ga).isMem = true ∧ cboCause x.priv (s.envField h 6 1) = none :=
  ⟨9, plainAccess 0x1008 8,
   (wS [(R.VALE_CORE_STATUS_STATE (9 / 32) (9 % 32), 0)]).setL2 9 (l2Set 64) 3
     ⟨.s, 64, 1, 0, 0, 0x112233445566778899AABBCCDDEEFF00, false⟩, by decide⟩

theorem test_met_CacheBlockOperations_6 :
    ∃ (h : Hart) (x : Access) (s : State), s.Calm h ∧ s.ras.flaws = [] ∧ Access.refusal x = none ∧ (s.reachHart x.priv
      x.ga).isMem = true ∧ cboCause x.priv (s.envField h 6 1) = none :=
  ⟨9, plainAccess 0x1008 8,
   (wS [(R.VALE_CORE_STATUS_STATE (9 / 32) (9 % 32), 0)]).setL2 9 (l2Set 64) 3
     ⟨.s, 64, 1, 0, 0, 0x112233445566778899AABBCCDDEEFF00, false⟩, by decide⟩

theorem test_met_CacheBlockOperations_7 :
    ∃ (h : Hart) (x : Access) (s : State), s.Calm h ∧ s.ras.flaws = [] ∧ Access.refusal x = none ∧ (s.reachHart x.priv
      x.ga).isMem = true ∧ s.cbie h x.priv = 1 :=
  ⟨9, { plainAccess 0x1008 8 with priv := .hs },
   ((wS [(R.VALE_CORE_STATUS_STATE (9 / 32) (9 % 32), 0)]).setL2 9 (l2Set 64) 3
      ⟨.s, 64, 1, 0, 0, 0x112233445566778899AABBCCDDEEFF00, false⟩).setReg (R.rmenvcfg 9) 0x10, by decide⟩

theorem test_met_CacheBlockOperations_8 :
    ∃ (h : Hart) (x : Access) (s : State), s.Calm h ∧ s.ras.flaws = [] ∧ Access.refusal x = none ∧ (s.reachHart x.priv
      x.ga).isMem = true ∧ s.cbie h x.priv = 3 :=
  ⟨9, plainAccess 0x1008 8,
   (wS [(R.VALE_CORE_STATUS_STATE (9 / 32) (9 % 32), 0)]).setL2 9 (l2Set 64) 3
     ⟨.s, 64, 1, 0, 0, 0x112233445566778899AABBCCDDEEFF00, false⟩, by decide⟩

theorem test_met_CacheBlockOperations_9 :
    ∃ (h : Hart) (x : Access) (w : Nat) (s : State), s.Calm h ∧ s.ras.flaws = [] ∧ x.pbmt = .pma ∧ Access.refusal x = none ∧
      (s.reachHart x.priv x.ga).isMem = true ∧ s.l2Way h (x.ga / 64) = some w ∧ (s.cached h x w).st = .m ∧ s.storesWaiting h
      < 64 ∧ cboCause x.priv (s.envField h 7 1) = none :=
  ⟨9, plainAccess 0x1008 8, 3,
   (wS [(R.VALE_CORE_STATUS_STATE (9 / 32) (9 % 32), 0)]).setL2 9 (l2Set 64) 3
     ⟨.m, 64, 1, 0, 0, 0x112233445566778899AABBCCDDEEFF00, false⟩, by decide⟩

theorem test_met_CacheBlockOperations_10 :
    ∃ (h : Hart) (x : Access) (c : Nat) (s : State), s.hartReady h = true ∧ s.ras.flaws = [] ∧ cboCause x.priv (s.envField h 6
      1) = some c :=
  ⟨9, { plainAccess 0x1008 8 with priv := .vs }, 2, wS [(R.VALE_CORE_STATUS_STATE (9 / 32) (9 % 32), 0)], by decide⟩

theorem test_met_CacheBlockOperations_11 :
    ∃ (h : Hart) (x : Access) (c : Nat) (s : State), s.hartReady h = true ∧ s.ras.flaws = [] ∧ cboCause x.priv (s.envField h 6
      1) = some c :=
  ⟨9, { plainAccess 0x1008 8 with priv := .vs }, 2, wS [(R.VALE_CORE_STATUS_STATE (9 / 32) (9 % 32), 0)], by decide⟩

theorem test_met_CacheBlockOperations_12 :
    ∃ (h : Hart) (x : Access) (c : Nat) (s : State), s.hartReady h = true ∧ s.ras.flaws = [] ∧ cboCause x.priv (s.envField h 4
      2) = some c :=
  ⟨9, { plainAccess 0x1008 8 with priv := .vs }, 2, wS [(R.VALE_CORE_STATUS_STATE (9 / 32) (9 % 32), 0)], by decide⟩

theorem test_met_CacheBlockOperations_13 :
    ∃ (h : Hart) (x : Access) (c : Nat) (s : State), s.hartReady h = true ∧ s.ras.flaws = [] ∧ cboCause x.priv (s.envField h 7
      1) = some c ∧ s.storesWaiting h < 64 :=
  ⟨9, { plainAccess 0x1008 8 with priv := .vs }, 2, wS [(R.VALE_CORE_STATUS_STATE (9 / 32) (9 % 32), 0)], by decide⟩

theorem test_met_RegisterAccesses_1 :
    ∃ (h : Hart) (a : Nat) (rw v : Word) (s : State), s.hartReady h = true ∧ s.Plain a rw ∧ s.valeAt a = none :=
  ⟨9, R.rRAS_MSI_ADDR, 0xFFFFFFFFFFFFFC, 0x123456789ABCDEF1, wS [(R.VALE_CORE_STATUS_STATE (9 / 32) (9 % 32), 0)],
   by decide⟩

theorem test_met_RegisterAccesses_2 :
    ∃ (h : Hart) (a d tag : Nat) (rw v : Word) (s : State), s.hartReady h = true ∧ s.Plain a rw ∧ s.valeAt a = some d ∧ (s.hart
      h).mmio = none ∧ s.tagFree d tag :=
  ⟨9, R.rVALE_CORE_RESET_PC 1 2, 1, 0, 0xFFFFFFFFFFFFFE, 0x123456789ABCDEF1,
   wS [(R.VALE_CORE_STATUS_STATE (9 / 32) (9 % 32), 0)], by decide⟩

theorem test_met_RegisterAccesses_3 :
    ∃ (h : Hart) (p : Priv) (n : Nat) (v : Word) (s : State), s.hartReady h = true ∧ s.csrFault h p n false = none :=
  ⟨9, .m, 0x340, 0, wS [(R.VALE_CORE_STATUS_STATE (9 / 32) (9 % 32), 0)], by decide⟩

theorem test_met_RegisterAccesses_4 :
    ∃ (h : Hart) (p : Priv) (op : CsrOp) (n c : Nat) (v : Word) (s : State), s.hartReady h = true ∧ s.csrFault h p n (op !=
      .read) = some c :=
  ⟨9, .u, .write, 0x340, 2, 0, wS [(R.VALE_CORE_STATUS_STATE (9 / 32) (9 % 32), 0)], by decide⟩

theorem test_met_RegisterAccesses_5 :
    ∃ (h : Hart) (n : Nat) (v : Word) (s : State), s.hartReady h = true ∧ n ∈ plainCsrs :=
  ⟨9, 0x340, 77, wS [(R.VALE_CORE_STATUS_STATE (9 / 32) (9 % 32), 0)], by decide⟩

theorem test_met_RegisterAccesses_6 :
    ∃ (h : Hart) (v : Word) (s : State), s.hartReady h = true :=
  ⟨9, 0x123456789ABCDEF1, wS [(R.VALE_CORE_STATUS_STATE (9 / 32) (9 % 32), 0)], by decide⟩

theorem test_met_RegisterAccesses_7 :
    ∃ (h : Hart) (x : Access) (a : Nat) (rw : Word) (s : State), s.hartReady h = true ∧ s.ras.flaws = [] ∧ s.Plain a rw ∧
      s.valeAt a = none ∧ s.reachHart x.priv x.ga = .prs a ∧ x.size = 8 ∧ Access.refusal x = none :=
  ⟨9, plainAccess (0xFFF00000000 + R.rRAS_MSI_ADDR) 8, R.rRAS_MSI_ADDR, 0xFFFFFFFFFFFFFC,
   wS [(R.VALE_CORE_STATUS_STATE (9 / 32) (9 % 32), 0), (R.RAS_MSI_ADDR_ADDR, 0x4321)], by decide⟩

theorem test_met_RegisterAccesses_8 :
    ∃ (h : Hart) (x : Access) (a : Nat) (rw v : Word) (s : State), s.hartReady h = true ∧ s.ras.flaws = [] ∧ s.Plain a rw ∧
      s.valeAt a = none ∧ s.reachHart x.priv x.ga = .prs a ∧ x.size = 8 ∧ Access.refusal x = none :=
  ⟨9, plainAccess (0xFFF00000000 + R.rRAS_MSI_ADDR) 8, R.rRAS_MSI_ADDR, 0xFFFFFFFFFFFFFC, 0x123456789ABCDEF1,
   wS [(R.VALE_CORE_STATUS_STATE (9 / 32) (9 % 32), 0)], by decide⟩

theorem test_met_RegisterAccesses_9 :
    ∃ (h : Hart) (x : Access) (a d tag : Nat) (s : State), s.hartReady h = true ∧ s.ras.flaws = [] ∧ prsBlock a = true ∧ a % 8 =
      0 ∧ s.valeAt a = some d ∧ (s.hart h).mmio = none ∧ s.tagFree d tag ∧ s.reachHart x.priv x.ga = .prs a ∧ x.size = 8 ∧
      Access.refusal x = none :=
  ⟨9, plainAccess (0xFFF00000000 + R.rVALE_CORE_RESET_PC 1 2) 8, R.rVALE_CORE_RESET_PC 1 2, 1, 0,
   wS [(R.VALE_CORE_STATUS_STATE (9 / 32) (9 % 32), 0)], by decide⟩

theorem test_met_RegisterAccesses_10 :
    ∃ (h : Hart) (x : Access) (a d tag : Nat) (v : Word) (s : State), s.hartReady h = true ∧ s.ras.flaws = [] ∧ prsBlock a =
      true ∧ a % 8 = 0 ∧ s.valeAt a = some d ∧ (s.hart h).mmio = none ∧ s.tagFree d tag ∧ s.reachHart x.priv x.ga = .prs a ∧
      x.size = 8 ∧ Access.refusal x = none :=
  ⟨9, plainAccess (0xFFF00000000 + R.rVALE_CORE_RESET_PC 1 2) 8, R.rVALE_CORE_RESET_PC 1 2, 1, 0, 5,
   wS [(R.VALE_CORE_STATUS_STATE (9 / 32) (9 % 32), 0)], by decide⟩

theorem test_met_MgtMessages_1 :
    ∃ (p : Port) (m : Mgt) (rw : Word) (s : State), m.mopc = 0 ∧ s.dieOnline (p / 2) = true ∧ s.mgtTurn (p / 2) m = true ∧
      m.size8 = true ∧ s.Plain (mgtPlace (p / 2) m) rw :=
  ⟨7, ⟨0, 5, 0x80010, true, 0x1235, 0⟩, 0xFFFFFFFFFFFFFE, wS [(R.VALE_CORE_RESET_PC_PC 3 0, 0x4321)], by decide⟩

theorem test_met_MgtMessages_2 :
    ∃ (p : Port) (m : Mgt) (s : State), m.mopc = 0 ∧ s.dieOnline (p / 2) = true ∧ s.mgtTurn (p / 2) m = true ∧ prsAligned
      (mgtPlace (p / 2) m) (mgtSize m) = false :=
  ⟨7, ⟨0, 5, 4, true, 0, 0⟩, wS [], by decide⟩

theorem test_met_MgtMessages_3 :
    ∃ (p : Port) (m : Mgt) (rw : Word) (s : State), m.mopc = 1 ∧ s.dieOnline (p / 2) = true ∧ s.mgtTurn (p / 2) m = true ∧
      m.size8 = true ∧ s.Plain (mgtPlace (p / 2) m) rw :=
  ⟨7, ⟨1, 5, 0x80010, true, 0x1235, 0⟩, 0xFFFFFFFFFFFFFE, wS [], by decide⟩

theorem test_met_MgtMessages_4 :
    ∃ (p : Port) (m : Mgt) (s : State), m.mopc = 1 ∧ s.dieOnline (p / 2) = true ∧ s.mgtTurn (p / 2) m = true ∧ prsAligned
      (mgtPlace (p / 2) m) (mgtSize m) = false :=
  ⟨7, ⟨1, 5, 4, true, 0, 0⟩, wS [], by decide⟩

theorem test_met_MgtMessages_5 :
    ∃ (p : Port) (m : Mgt) (a : RegAsk) (s : State), m.mopc = 2 ∧ m.status < 2 ∧ s.dieOnline (p / 2) = true ∧ s.mgtTurn (p / 2)
      m = true ∧ s.askOf (p / 2) m.tag = some a ∧ a.who = none :=
  ⟨7, ⟨2, 5, 0, true, 0x77, 0⟩, { die := 3, tag := 5 }, { wS [] with pass := { asked := [{ die := 3, tag := 5 }] } },
   by decide⟩

theorem test_met_MgtMessages_6 :
    ∃ (p : Port) (m : Mgt) (a : RegAsk) (h : Hart) (x : Access) (s : State), m.mopc = 2 ∧ m.status = 0 ∧ s.dieOnline (p / 2) =
      true ∧ s.mgtTurn (p / 2) m = true ∧ s.askOf (p / 2) m.tag = some a ∧ a.who = some (h, x) ∧ a.write = false ∧ (s.hart
      h).mmio = some (x, none) :=
  ⟨7, ⟨2, 5, 0, true, 0x77, 0⟩, { die := 3, tag := 5, who := some (9, plainAccess 0x1008 8) }, 9, plainAccess 0x1008 8,
   (({ wS [] with pass := { asked := [{ die := 3, tag := 5, who := some (9, plainAccess 0x1008 8) }] } } : State).setHart 9
      { mmio := some (plainAccess 0x1008 8, none) }), by decide⟩

theorem test_met_MgtMessages_7 :
    ∃ (p : Port) (m : Mgt) (s : State), m.mopc = 3 ∧ s.dieOnline (p / 2) = true ∧ s.mgtTurn (p / 2) m = true ∧ bits m.offset 5 5
      ≤ 16 ∧ s.fileOpen (p / 2 * 32 + bits m.offset 0 5) = true ∧ 1 ≤ bits m.offset 10 10 + (b2n m.size8) <<< 10 :=
  ⟨7, ⟨3, 0, 0x1402, false, 0, 0⟩, wS [(R.VALE_CORE_STATUS_STATE 3 2, 0)], by decide⟩

theorem test_met_HomeRequests_1 :
    ∃ (n : Ix16) (m : Msg) (q o : Die) (s : State), s.HomesIdle ∧ s.ToHome n m vcREQ opRD_SHARED ∧ s.OwnedElsewhere n m q o :=
  ⟨(Fin.ofNat 16 (sliceOf 0x40000)),
   { vc := 0, opc := 0, srcPkg := 0, srcAgent := 1, dstPkg := 0, dstAgent := 0x10 + sliceOf 0x40000, txn := 9,
     addr := 0x1000 }, 1, 2,
   (wS []).setDirE (sliceOf 0x40000) (dirSet 0x40000) 2 ⟨mesaTag 0x40000, 2, 4, 2, false, false⟩, by decide⟩

theorem test_met_HomeRequests_2 :
    ∃ (n : Ix16) (m : Msg) (q o : Die) (s : State), s.HomesIdle ∧ s.ToHome n m vcREQ opRD_OWN ∧ s.OwnedElsewhere n m q o :=
  ⟨(Fin.ofNat 16 (sliceOf 0x40000)),
   { vc := 0, opc := 1, srcPkg := 0, srcAgent := 1, dstPkg := 0, dstAgent := 0x10 + sliceOf 0x40000, txn := 9,
     addr := 0x1000 }, 1, 2,
   (wS []).setDirE (sliceOf 0x40000) (dirSet 0x40000) 2 ⟨mesaTag 0x40000, 2, 4, 2, false, false⟩, by decide⟩

theorem test_met_HomeRequests_3 :
    ∃ (n : Ix16) (m : Msg) (q o : Die) (s : State), s.HomesIdle ∧ s.ToHome n m vcREQ opUPGRADE ∧ s.OwnedElsewhere n m q o :=
  ⟨(Fin.ofNat 16 (sliceOf 0x40000)),
   { vc := 0, opc := 3, srcPkg := 0, srcAgent := 1, dstPkg := 0, dstAgent := 0x10 + sliceOf 0x40000, txn := 9,
     addr := 0x1000 }, 1, 2,
   (wS []).setDirE (sliceOf 0x40000) (dirSet 0x40000) 2 ⟨mesaTag 0x40000, 2, 4, 2, false, false⟩, by decide⟩

theorem test_met_HomeRequests_4 :
    ∃ (n : Ix16) (m : Msg) (q o : Die) (s : State), s.HomesIdle ∧ s.ToHome n m vcREQ opRD_CUR ∧ s.OwnedElsewhere n m q o ∧ m.cmo
      = 0 :=
  ⟨(Fin.ofNat 16 (sliceOf 0x40000)),
   { vc := 0, opc := 2, srcPkg := 0, srcAgent := 1, dstPkg := 0, dstAgent := 0x10 + sliceOf 0x40000, txn := 9,
     addr := 0x1000 }, 1, 2,
   (wS []).setDirE (sliceOf 0x40000) (dirSet 0x40000) 2 ⟨mesaTag 0x40000, 2, 4, 2, false, false⟩, by decide⟩

theorem test_met_HomeRequests_5 :
    ∃ (n : Ix16) (m : Msg) (q o : Die) (s : State), s.HomesIdle ∧ s.ToHome n m vcREQ opRD_CUR ∧ s.OwnedElsewhere n m q o ∧ m.cmo
      = 1 :=
  ⟨(Fin.ofNat 16 (sliceOf 0x40000)),
   { vc := 0, opc := 2, srcPkg := 0, srcAgent := 1, dstPkg := 0, dstAgent := 0x10 + sliceOf 0x40000, txn := 9,
     addr := 0x1000, cmo := 1 }, 1, 2,
   (wS []).setDirE (sliceOf 0x40000) (dirSet 0x40000) 2 ⟨mesaTag 0x40000, 2, 4, 2, false, false⟩, by decide⟩

theorem test_met_HomeRequests_6 :
    ∃ (n : Ix16) (m : Msg) (q o : Die) (s : State), s.HomesIdle ∧ s.ToHome n m vcREQ opRD_CUR ∧ s.OwnedElsewhere n m q o ∧ m.cmo
      = 2 :=
  ⟨(Fin.ofNat 16 (sliceOf 0x40000)),
   { vc := 0, opc := 2, srcPkg := 0, srcAgent := 1, dstPkg := 0, dstAgent := 0x10 + sliceOf 0x40000, txn := 9,
     addr := 0x1000, cmo := 2 }, 1, 2,
   (wS []).setDirE (sliceOf 0x40000) (dirSet 0x40000) 2 ⟨mesaTag 0x40000, 2, 4, 2, false, false⟩, by decide⟩

theorem test_met_HomeRequests_7 :
    ∃ (n : Ix16) (m : Msg) (q o : Die) (s : State), s.HomesIdle ∧ s.ToHome n m vcREQ opRD_CUR ∧ s.OwnedElsewhere n m q o ∧ m.cmo
      = 3 :=
  ⟨(Fin.ofNat 16 (sliceOf 0x40000)),
   { vc := 0, opc := 2, srcPkg := 0, srcAgent := 1, dstPkg := 0, dstAgent := 0x10 + sliceOf 0x40000, txn := 9,
     addr := 0x1000, cmo := 3 }, 1, 2,
   (wS []).setDirE (sliceOf 0x40000) (dirSet 0x40000) 2 ⟨mesaTag 0x40000, 2, 4, 2, false, false⟩, by decide⟩

theorem test_met_HomeRequests_8 :
    ∃ (n : Ix16) (m : Msg) (q o : Die) (s : State), s.HomesIdle ∧ s.ToHome n m vcREQ opWR_FULL ∧ s.OwnedElsewhere n m q o :=
  ⟨(Fin.ofNat 16 (sliceOf 0x40000)),
   { vc := 0, opc := 4, srcPkg := 0, srcAgent := 1, dstPkg := 0, dstAgent := 0x10 + sliceOf 0x40000, txn := 9,
     addr := 0x1000, payload := true }, 1, 2,
   (wS []).setDirE (sliceOf 0x40000) (dirSet 0x40000) 2 ⟨mesaTag 0x40000, 2, 4, 2, false, false⟩, by decide⟩

theorem test_met_HomeRequests_9 :
    ∃ (n : Ix16) (m : Msg) (q o : Die) (s : State), s.HomesIdle ∧ s.ToHome n m vcREQ opWR_PART ∧ s.OwnedElsewhere n m q o :=
  ⟨(Fin.ofNat 16 (sliceOf 0x40000)),
   { vc := 0, opc := 5, srcPkg := 0, srcAgent := 1, dstPkg := 0, dstAgent := 0x10 + sliceOf 0x40000, txn := 9,
     addr := 0x1000, payload := true, byteMask := 3 }, 1, 2,
   (wS []).setDirE (sliceOf 0x40000) (dirSet 0x40000) 2 ⟨mesaTag 0x40000, 2, 4, 2, false, false⟩, by decide⟩

theorem test_met_HomeRequests_10 :
    ∃ (n : Ix16) (m : Msg) (q o : Die) (s : State), s.HomesIdle ∧ s.ToHome n m vcREQ opATOMIC ∧ s.OwnedElsewhere n m q o :=
  ⟨(Fin.ofNat 16 (sliceOf 0x40000)),
   { vc := 0, opc := 6, srcPkg := 0, srcAgent := 1, dstPkg := 0, dstAgent := 0x10 + sliceOf 0x40000, txn := 9,
     addr := 0x1000, payload := true }, 1, 2,
   (wS []).setDirE (sliceOf 0x40000) (dirSet 0x40000) 2 ⟨mesaTag 0x40000, 2, 4, 2, false, false⟩, by decide⟩

theorem test_met_HomeRequests_11 :
    ∃ (n : Ix16) (m : Msg) (q : Die) (s : State), s.HomesIdle ∧ s.ToHome n m vcREQ opUPGRADE ∧ m.srcAgent = q ∧ m.tokenV = false
      ∧ s.lineLocal m.addr = true ∧ s.homeRefuses m.addr = none ∧ s.fenced (m.addr * 64 % 2 ^ 44) = false ∧ s.isBcast n
      (s.dOfLine m.addr) = false ∧ s.homeView n (s.dOfLine m.addr) = ⟨1, maskOf q, none⟩ :=
  ⟨(Fin.ofNat 16 (sliceOf 0x40000)),
   { vc := 0, opc := 3, srcPkg := 0, srcAgent := 1, dstPkg := 0, dstAgent := 0x10 + sliceOf 0x40000, txn := 9,
     addr := 0x1000 }, 1, (wS []).setDirE (sliceOf 0x40000) (dirSet 0x40000) 2 ⟨mesaTag 0x40000, 1, 2, 15, false, false⟩,
   by decide⟩

theorem test_met_Snoops_1 :
    ∃ (d : Die) (m : Msg) (l : Line) (s : State), s.ToDie d m vcSNP opFWD_SHARED ∧ s.inWb d m.addr = none ∧ s.guarded d m.addr
      none = false ∧ s.die.filled = [] ∧ s.dieSt d m.addr = .e ∧ s.dieData d m.addr = some (l, false) :=
  ⟨3,
   { vc := 1, opc := 0, srcPkg := 0, srcAgent := 0x15, dstPkg := 0, dstAgent := 3, txn := 9, addr := 0x1000,
     reqAgent := 1, reqTxn := 7, htag := 4 }, 0xABCD,
   (wS []).setVc 3 (valeSlice 0x40000) (valeSet 0x40000) 1 ⟨true, 0x1000, .e, 0, 0, 0, 0xABCD, false⟩, by decide⟩

theorem test_met_Snoops_2 :
    ∃ (d : Die) (m : Msg) (l : Line) (s : State), s.ToDie d m vcSNP opFWD_SHARED ∧ s.inWb d m.addr = none ∧ s.guarded d m.addr
      none = false ∧ s.die.filled = [] ∧ s.dieSt d m.addr = .e ∧ s.dieData d m.addr = some (l, true) :=
  ⟨3,
   { vc := 1, opc := 0, srcPkg := 0, srcAgent := 0x15, dstPkg := 0, dstAgent := 3, txn := 9, addr := 0x1000,
     reqAgent := 1, reqTxn := 7, htag := 4 }, 0xABCD,
   (wS []).setVc 3 (valeSlice 0x40000) (valeSet 0x40000) 1 ⟨true, 0x1000, .e, 0, 0, 0, 0xABCD, true⟩, by decide⟩

theorem test_met_Snoops_3 :
    ∃ (d : Die) (m : Msg) (l : Line) (s : State), s.ToDie d m vcSNP opFWD_OWN ∧ s.inWb d m.addr = none ∧ s.guarded d m.addr none
      = false ∧ s.die.filled = [] ∧ s.dieSt d m.addr = .e ∧ s.dieData d m.addr = some (l, false) :=
  ⟨3,
   { vc := 1, opc := 1, srcPkg := 0, srcAgent := 0x15, dstPkg := 0, dstAgent := 3, txn := 9, addr := 0x1000,
     reqAgent := 1, reqTxn := 7, htag := 4 }, 0xABCD,
   (wS []).setVc 3 (valeSlice 0x40000) (valeSet 0x40000) 1 ⟨true, 0x1000, .e, 0, 0, 0, 0xABCD, false⟩, by decide⟩

theorem test_met_Snoops_4 :
    ∃ (d : Die) (m : Msg) (l : Line) (s : State), s.ToDie d m vcSNP opFWD_OWN ∧ s.inWb d m.addr = none ∧ s.guarded d m.addr none
      = false ∧ s.die.filled = [] ∧ s.dieSt d m.addr = .e ∧ s.dieData d m.addr = some (l, true) :=
  ⟨3,
   { vc := 1, opc := 1, srcPkg := 0, srcAgent := 0x15, dstPkg := 0, dstAgent := 3, txn := 9, addr := 0x1000,
     reqAgent := 1, reqTxn := 7, htag := 4 }, 0xABCD,
   (wS []).setVc 3 (valeSlice 0x40000) (valeSet 0x40000) 1 ⟨true, 0x1000, .e, 0, 0, 0, 0xABCD, true⟩, by decide⟩

theorem test_met_Snoops_5 :
    ∃ (d : Die) (m : Msg) (l : Line) (s : State), s.ToDie d m vcSNP opFWD_CUR ∧ s.inWb d m.addr = none ∧ s.guarded d m.addr none
      = false ∧ s.die.filled = [] ∧ s.dieSt d m.addr = .e ∧ s.dieData d m.addr = some (l, false) :=
  ⟨3,
   { vc := 1, opc := 2, srcPkg := 0, srcAgent := 0x15, dstPkg := 0, dstAgent := 3, txn := 9, addr := 0x1000,
     reqAgent := 1, reqTxn := 7, htag := 4 }, 0xABCD,
   (wS []).setVc 3 (valeSlice 0x40000) (valeSet 0x40000) 1 ⟨true, 0x1000, .e, 0, 0, 0, 0xABCD, false⟩, by decide⟩

theorem test_met_Snoops_6 :
    ∃ (d : Die) (m : Msg) (l : Line) (s : State), s.ToDie d m vcSNP opFWD_CUR ∧ s.inWb d m.addr = none ∧ s.guarded d m.addr none
      = false ∧ s.die.filled = [] ∧ s.dieSt d m.addr = .e ∧ s.dieData d m.addr = some (l, true) :=
  ⟨3,
   { vc := 1, opc := 2, srcPkg := 0, srcAgent := 0x15, dstPkg := 0, dstAgent := 3, txn := 9, addr := 0x1000,
     reqAgent := 1, reqTxn := 7, htag := 4 }, 0xABCD,
   (wS []).setVc 3 (valeSlice 0x40000) (valeSet 0x40000) 1 ⟨true, 0x1000, .e, 0, 0, 0, 0xABCD, true⟩, by decide⟩

theorem test_met_Snoops_7 :
    ∃ (d : Die) (m : Msg) (l : Line) (bad : Bool) (s : State), s.ToDie d m vcSNP opINV ∧ s.inWb d m.addr = none ∧ s.guarded d
      m.addr none = false ∧ s.die.filled = [] ∧ s.dieSt d m.addr = .e ∧ s.dieData d m.addr = some (l, bad) :=
  ⟨3,
   { vc := 1, opc := 3, srcPkg := 0, srcAgent := 0x15, dstPkg := 0, dstAgent := 3, txn := 9, addr := 0x1000,
     reqAgent := 1, reqTxn := 7, htag := 4 }, 0xABCD, false,
   (wS []).setVc 3 (valeSlice 0x40000) (valeSet 0x40000) 1 ⟨true, 0x1000, .e, 0, 0, 0, 0xABCD, false⟩, by decide⟩

theorem test_met_Snoops_8 :
    ∃ (d : Die) (m : Msg) (s : State), s.die.held = [m] ∧ m.dstAgent = d ∧ s.guarded d m.addr none = false ∧ s.inWb d m.addr =
      none ∧ s.dieSt d m.addr = .i ∧ s.die.sweep = [] :=
  ⟨3,
   { vc := 1, opc := 0, srcPkg := 0, srcAgent := 0x15, dstPkg := 0, dstAgent := 3, txn := 9, addr := 0x1000, htag := 4 },
   { wS [] with
       die :=
         { held :=
             [{ vc := 1, opc := 0, srcPkg := 0, srcAgent := 0x15, dstPkg := 0, dstAgent := 3, txn := 9,
                addr := 0x1000, htag := 4 }] } }, by decide⟩

theorem test_met_Snoops_9 :
    ∃ (n : Ix16) (m : Msg) (o : Die) (s : State), s.HomesIdle ∧ s.home.bcast = [] ∧ s.home.pxHeld = [] ∧ m.vc = vcSNP ∧ m.dstPkg
      = s.pkgId ∧ m.dstAgent = agHOME + n ∧ msgIllegal m = none ∧ s.turnOf m = true ∧ s.lineLocal m.addr = false ∧
      s.pkgServed m.srcPkg = true ∧ s.proxyView n (m.addr * 64) = ⟨2, maskOf o, some (o : Nat)⟩ ∧ s.dieQuiet o = false ∧
      (s.dieCtl o).lost = false :=
  ⟨(Fin.ofNat 16 (proxyOf (0x4000001000 * 64))),
   { vc := 1, opc := 0, srcPkg := 1, srcAgent := 0x12, dstPkg := 0, dstAgent := 0x10 + proxyOf (0x4000001000 * 64),
     txn := 9, addr := 0x4000001000, reqPkg := 1, reqAgent := 3, reqTxn := 8 }, 2,
   (wS
      [(R.ROUTE_ISLAND_STATUS_STATE, 2), (R.ROUTE_MEMBER_PACKAGE_ID 1, 1), (R.ROUTE_MEMBER_STATE 1, 2),
       (R.ROUTE_MEMBER_PACKAGE_ID 0, 5)]).setRldE (proxyOf (0x4000001000 * 64)) (rldSet (0x4000001000 * 64)) 3
     ⟨rldTag (0x4000001000 * 64), 2, 4, 2, false⟩, by decide⟩

theorem test_met_SnoopAnswers_1 :
    ∃ (n : Ix16) (m : Msg) (h : Die) (x : HTxn) (k : Nat) (s : State), s.ToHome n m vcRSP opACK_INV ∧ m.srcAgent = h ∧
      s.home.wbHeld = [] ∧ s.lock n k = some x ∧ x.line = m.addr ∧ x.proxy = false ∧ s.isBcast n (s.dOfLine x.line) = false
      ∧ s.ansSlot n m.htag m.addr h = some (k, x) ∧ x.phase = .acks ∧ x.invs.testBit h = true ∧ without x.invs h ≠ 0 ∧
      (s.homeView n (s.dOfLine x.line)).kind = 1 :=
  ⟨5,
   { vc := 2, opc := 1, srcPkg := 0, srcAgent := 2, dstPkg := 0, dstAgent := 0x15, txn := 9, addr := 0x1000, htag := 4 },
   2,
   { line := 0x1000, proxy := false, work := .request,
     req := { vc := 0, opc := 1, srcPkg := 0, srcAgent := 1, dstPkg := 0, dstAgent := 0x15, txn := 9, addr := 0x1000 },
     phase := .acks, invs := 12 }, 4,
   ((wS []).setLock 5 4
      (some
         { line := 0x1000, proxy := false, work := .request,
           req := { vc := 0, opc := 1, srcPkg := 0, srcAgent := 1, dstPkg := 0, dstAgent := 0x15, txn := 9, addr := 0x1000 },
           phase := .acks, invs := 12 })).setDirE 5 (dirSet 0x40000) 2 ⟨mesaTag 0x40000, 1, 12, 15, false, false⟩,
   by decide⟩

theorem test_met_SnoopAnswers_2 :
    ∃ (n : Ix16) (m : Msg) (h : Die) (x : HTxn) (k : Nat) (s : State), s.ToHome n m vcRSP opACK_MISS ∧ m.srcAgent = h ∧
      s.home.wbHeld = [] ∧ s.lock n k = some x ∧ x.line = m.addr ∧ x.proxy = false ∧ s.isBcast n (s.dOfLine x.line) = false
      ∧ s.ansSlot n m.htag m.addr h = some (k, x) ∧ x.phase = .acks ∧ x.invs.testBit h = true ∧ without x.invs h ≠ 0 ∧
      (s.homeView n (s.dOfLine x.line)).kind = 1 :=
  ⟨5,
   { vc := 2, opc := 0, srcPkg := 0, srcAgent := 2, dstPkg := 0, dstAgent := 0x15, txn := 9, addr := 0x1000, htag := 4 },
   2,
   { line := 0x1000, proxy := false, work := .request,
     req := { vc := 0, opc := 1, srcPkg := 0, srcAgent := 1, dstPkg := 0, dstAgent := 0x15, txn := 9, addr := 0x1000 },
     phase := .acks, invs := 12 }, 4,
   ((wS []).setLock 5 4
      (some
         { line := 0x1000, proxy := false, work := .request,
           req := { vc := 0, opc := 1, srcPkg := 0, srcAgent := 1, dstPkg := 0, dstAgent := 0x15, txn := 9, addr := 0x1000 },
           phase := .acks, invs := 12 })).setDirE 5 (dirSet 0x40000) 2 ⟨mesaTag 0x40000, 1, 12, 15, false, false⟩,
   by decide⟩

theorem test_met_SnoopAnswers_3 :
    ∃ (n : Ix16) (m : Msg) (h : Die) (x : HTxn) (k : Nat) (s : State), s.ToHome n m vcRSP opFWD_DONE ∧ m.srcAgent = h ∧
      s.home.wbHeld = [] ∧ s.lock n k = some x ∧ x.line = m.addr ∧ x.proxy = false ∧ s.isBcast n (s.dOfLine x.line) = false
      ∧ s.ansSlot n m.htag m.addr h = some (k, x) ∧ x.phase = .owner ∧ x.sent = true ∧ x.toHome = true ∧ x.fwd.map (·.1) =
      some (h : Nat) ∧ x.dataEarly = x.dataDue :=
  ⟨5,
   { vc := 2, opc := 2, srcPkg := 0, srcAgent := 2, dstPkg := 0, dstAgent := 0x15, txn := 9, addr := 0x1000, htag := 4 },
   2,
   { line := 0x1000, proxy := false, work := .request,
     req := { vc := 0, opc := 1, srcPkg := 0, srcAgent := 1, dstPkg := 0, dstAgent := 0x15, txn := 9, addr := 0x1000 },
     phase := .owner, fwd := some (2, 1), sent := true, toHome := true }, 4,
   (wS []).setLock 5 4
     (some
        { line := 0x1000, proxy := false, work := .request,
          req := { vc := 0, opc := 1, srcPkg := 0, srcAgent := 1, dstPkg := 0, dstAgent := 0x15, txn := 9, addr := 0x1000 },
          phase := .owner, fwd := some (2, 1), sent := true, toHome := true }), by decide⟩

theorem test_met_SnoopAnswers_4 :
    ∃ (n : Ix16) (m : Msg) (h : Die) (x : HTxn) (k : Nat) (s : State), s.ToHome n m vcRSP opFWD_DONE_WB ∧ m.srcAgent = h ∧
      s.home.wbHeld = [] ∧ s.lock n k = some x ∧ x.line = m.addr ∧ x.proxy = false ∧ s.isBcast n (s.dOfLine x.line) = false
      ∧ s.ansSlot n m.htag m.addr h = some (k, x) ∧ x.phase = .owner ∧ x.sent = true ∧ x.toHome = true ∧ x.fwd.map (·.1) =
      some (h : Nat) ∧ x.dataEarly = x.dataDue :=
  ⟨5,
   { vc := 2, opc := 3, srcPkg := 0, srcAgent := 2, dstPkg := 0, dstAgent := 0x15, txn := 9, addr := 0x1000, htag := 4 },
   2,
   { line := 0x1000, proxy := false, work := .request,
     req := { vc := 0, opc := 1, srcPkg := 0, srcAgent := 1, dstPkg := 0, dstAgent := 0x15, txn := 9, addr := 0x1000 },
     phase := .owner, fwd := some (2, 1), sent := true, toHome := true }, 4,
   (wS []).setLock 5 4
     (some
        { line := 0x1000, proxy := false, work := .request,
          req := { vc := 0, opc := 1, srcPkg := 0, srcAgent := 1, dstPkg := 0, dstAgent := 0x15, txn := 9, addr := 0x1000 },
          phase := .owner, fwd := some (2, 1), sent := true, toHome := true }), by decide⟩

theorem test_met_SnoopAnswers_5 :
    ∃ (n : Ix16) (m : Msg) (h : Die) (x : HTxn) (k : Nat) (s : State), s.ToHome n m vcDATA opDATA_E ∧ m.srcAgent = h ∧
      s.home.wbHeld = [] ∧ (s.slotsOf n m.txn m.addr).find? (fun e => e.2.toHome) = some (k, x) ∧ s.lock n k = some x ∧
      x.line = m.addr ∧ x.proxy = false ∧ x.toHome = true ∧ x.phase = .acks ∧ x.invs ≠ 0 ∧ m.poison = false ∧ m.payload =
      true ∧ x.got = none :=
  ⟨5,
   { vc := 3, opc := 1, srcPkg := 0, srcAgent := 2, dstPkg := 0, dstAgent := 0x15, txn := 4, addr := 0x1000,
     payload := true, data := 0x77 }, 2,
   { line := 0x1000, proxy := false, work := .request,
     req := { vc := 0, opc := 1, srcPkg := 0, srcAgent := 1, dstPkg := 0, dstAgent := 0x15, txn := 9, addr := 0x1000 },
     phase := .acks, invs := 12, toHome := true }, 4,
   (wS []).setLock 5 4
     (some
        { line := 0x1000, proxy := false, work := .request,
          req := { vc := 0, opc := 1, srcPkg := 0, srcAgent := 1, dstPkg := 0, dstAgent := 0x15, txn := 9, addr := 0x1000 },
          phase := .acks, invs := 12, toHome := true }), by decide⟩

theorem test_met_SnoopAnswers_6 :
    ∃ (n : Ix16) (m : Msg) (h : Die) (x : HTxn) (k : Nat) (s : State), s.ToHome n m vcDATA opDATA_M ∧ m.srcAgent = h ∧
      s.home.wbHeld = [] ∧ (s.slotsOf n m.txn m.addr).find? (fun e => e.2.toHome) = some (k, x) ∧ s.lock n k = some x ∧
      x.line = m.addr ∧ x.proxy = false ∧ x.toHome = true ∧ x.phase = .acks ∧ x.invs ≠ 0 ∧ m.poison = false ∧ m.payload =
      true :=
  ⟨5,
   { vc := 3, opc := 2, srcPkg := 0, srcAgent := 2, dstPkg := 0, dstAgent := 0x15, txn := 4, addr := 0x1000,
     payload := true, data := 0x77 }, 2,
   { line := 0x1000, proxy := false, work := .request,
     req := { vc := 0, opc := 1, srcPkg := 0, srcAgent := 1, dstPkg := 0, dstAgent := 0x15, txn := 9, addr := 0x1000 },
     phase := .acks, invs := 12, toHome := true }, 4,
   (wS []).setLock 5 4
     (some
        { line := 0x1000, proxy := false, work := .request,
          req := { vc := 0, opc := 1, srcPkg := 0, srcAgent := 1, dstPkg := 0, dstAgent := 0x15, txn := 9, addr := 0x1000 },
          phase := .acks, invs := 12, toHome := true }), by decide⟩

theorem test_met_SnoopAnswers_7 :
    ∃ (n : Ix16) (m : Msg) (s : State), m.vc = vcDATA ∧ m.opc = opDATA_O ∧ m.dstPkg = s.pkgId ∧ m.dstAgent = agHOME + n ∧
      s.turnOf m = true ∧ s.pkgServed m.srcPkg = true ∧ s.lineLocal m.addr = true ∧ s.get (R.HOME_PROTO_ERR_VALID n) = 0 :=
  ⟨5, { vc := 3, opc := 3, srcPkg := 0, srcAgent := 2, dstPkg := 0, dstAgent := 0x15, txn := 9, addr := 0x1000 }, wS [],
   by decide⟩

theorem test_met_Completions_1 :
    ∃ (n : Ix16) (m : Msg) (x : HTxn) (s : State), s.ToHome n m vcRSP opCOMP_ACK ∧ m.status = stCLOSE ∧ s.home.toks = [] ∧
      s.home.wbHeld = [] ∧ s.home.chHeld = [] ∧ s.lock n m.htag = some x ∧ x.isReq m = true ∧ x.proxy = false ∧ x.phase =
      .close ∧ x.done = true ∧ x.wbWait = none :=
  ⟨5,
   { vc := 2, opc := 6, srcPkg := 0, srcAgent := 1, dstPkg := 0, dstAgent := 0x15, txn := 9, addr := 0x1000,
     htag := 4, status := 3 },
   { line := 0x1000, proxy := false, work := .request,
     req := { vc := 0, opc := 0, srcPkg := 0, srcAgent := 1, dstPkg := 0, dstAgent := 0x15, txn := 9, addr := 0x1000 },
     phase := .close, done := true },
   (wS []).setLock 5 4
     (some
        { line := 0x1000, proxy := false, work := .request,
          req := { vc := 0, opc := 0, srcPkg := 0, srcAgent := 1, dstPkg := 0, dstAgent := 0x15, txn := 9, addr := 0x1000 },
          phase := .close, done := true }), by decide⟩

theorem test_met_Completions_2 :
    ∃ (n : Ix16) (m : Msg) (x : HTxn) (s : State), s.ToHome n m vcRSP opCOMP_ACK ∧ m.status = stCOMMIT ∧ s.home.toks = [] ∧
      s.home.wbHeld = [] ∧ s.home.chHeld = [] ∧ s.lock n m.htag = some x ∧ x.isReq m = true ∧ x.proxy = false ∧ x.phase =
      .ready ∧ x.wbWait = none ∧ x.req.opc = opWR_FULL ∧ s.storeStops (s.dOfLine x.line) = false ∧ s.mcAdmits (s.dOfLine
      x.line) x.req.rcid = true :=
  ⟨5,
   { vc := 2, opc := 6, srcPkg := 0, srcAgent := 1, dstPkg := 0, dstAgent := 0x15, txn := 9, addr := 0x1000,
     htag := 4, status := 2 },
   { line := 0x1000, proxy := false, work := .request,
     req := { vc := 0, opc := 4, srcPkg := 0, srcAgent := 1, dstPkg := 0, dstAgent := 0x15, txn := 9, addr := 0x1000 },
     phase := .ready },
   (((wS []).setLock 5 4
       (some
          { line := 0x1000, proxy := false, work := .request,
            req :=
              { vc := 0, opc := 4, srcPkg := 0, srcAgent := 1, dstPkg := 0, dstAgent := 0x15, txn := 9, addr := 0x1000 },
            phase := .ready })).setDirE 5 (dirSet 0x40000) 2 ⟨mesaTag 0x40000, 1, 2, 15, false, false⟩).setBal
     (qosMc ((wS []).dramPlace ((wS []).dOfLine 0x1000)).1) 0 10000, by decide⟩

theorem test_met_Completions_3 :
    ∃ (d : Die) (m : Msg) (k : Trk) (s : State), s.ToDie d m vcRSP opCOMP_ACK ∧ m.status = stDONE ∧ s.trkOf d m = some k ∧
      k.msg.opc ≠ opRD_SHARED ∧ k.msg.opc ≠ opRD_OWN ∧ k.msg.opc ≠ opUPGRADE ∧ s.askedPiece k.hart m.addr = none :=
  ⟨3, { vc := 2, opc := 6, srcPkg := 0, srcAgent := 0x15, dstPkg := 0, dstAgent := 3, txn := 9, addr := 0x1000 },
   { die := 3, hart := 100, st := .sent,
     msg := { vc := 0, opc := 4, srcPkg := 0, srcAgent := 3, dstPkg := 0, dstAgent := 0x15, txn := 9, addr := 0x1000 } },
   { wS [] with
       die :=
         { trk :=
             [{ die := 3, hart := 100, st := .sent,
                msg :=
                  { vc := 0, opc := 4, srcPkg := 0, srcAgent := 3, dstPkg := 0, dstAgent := 0x15, txn := 9, addr := 0x1000 } }] } },
   by decide⟩

theorem test_met_Completions_4 :
    ∃ (d : Die) (m : Msg) (k : Trk) (h : Hart) (w : Wait) (s : State), s.ToDie d m vcRSP opCOMP_ACK ∧ m.status = stDONE ∧
      s.trkOf d m = some k ∧ k.msg.opc ≠ opRD_SHARED ∧ k.msg.opc ≠ opRD_OWN ∧ k.msg.opc ≠ opUPGRADE ∧ k.hart = h ∧ (s.hart
      h).waits = [w] ∧ (s.hart h).held = none ∧ w.kind.isCmo = true ∧ w.asked = true ∧ w.line = m.addr ∧ w.acc.walk = false
      ∧ w.acc.elem = none :=
  ⟨3, { vc := 2, opc := 6, srcPkg := 0, srcAgent := 0x15, dstPkg := 0, dstAgent := 3, txn := 9, addr := 0x1000 },
   { die := 3, hart := 100, st := .sent,
     msg :=
       { vc := 0, opc := 2, srcPkg := 0, srcAgent := 3, dstPkg := 0, dstAgent := 0x15, txn := 9, addr := 0x1000, cmo := 1 } },
   100,
   { id := 0, kind := .cboClean, acc := plainAccess 0x40000 8, line := 0x1000, off := 0, len := 64, shift := 0,
     op := 0, val := 0, cmp := 0, rcid := 7, mcid := 8, asked := true },
   ({ wS [] with
        die :=
          { trk :=
              [{ die := 3, hart := 100, st := .sent,
                 msg :=
                   { vc := 0, opc := 2, srcPkg := 0, srcAgent := 3, dstPkg := 0, dstAgent := 0x15, txn := 9,
                     addr := 0x1000, cmo := 1 } }] } }).setHart 100
     { waits :=
         [{ id := 0, kind := .cboClean, acc := plainAccess 0x40000 8, line := 0x1000, off := 0, len := 64,
            shift := 0, op := 0, val := 0, cmp := 0, rcid := 7, mcid := 8, asked := true }] }, by decide⟩

theorem test_met_Completions_5 :
    ∃ (m : Msg) (r : IoReq) (s : State), m.vc = vcRSP ∧ m.opc = opCOMP_ACK ∧ m.status = stREADY ∧ msgIllegal m = none ∧ s.turnOf
      m = true ∧ m.dstAgent = agXCE ∧ r.agent = agXCE ∧ s.io.reqs = [r] ∧ r.msg.txn = m.txn ∧ r.msg.addr = m.addr ∧
      r.msg.dstPkg = m.srcPkg ∧ r.msg.dstAgent = m.srcAgent ∧ r.msg.ord = 1 ∧ r.st = .sent ∧ r.quar = false ∧ r.why =
      .device 0 0 0 0 :=
  ⟨{ vc := 2, opc := 6, srcPkg := 0, srcAgent := 0x15, dstPkg := 0, dstAgent := 0x20, txn := 9, addr := 0x1000,
     status := 1, htag := 6 },
   { agent := 0x20,
     msg :=
       { vc := 0, opc := 4, srcPkg := 0, srcAgent := 0x20, dstPkg := 0, dstAgent := 0x15, txn := 9, addr := 0x1000,
         ord := 1 }, stream := 3, why := .device 0 0 0 0, st := .sent },
   { wS [] with
       io :=
         { reqs :=
             [{ agent := 0x20,
                msg :=
                  { vc := 0, opc := 4, srcPkg := 0, srcAgent := 0x20, dstPkg := 0, dstAgent := 0x15, txn := 9,
                    addr := 0x1000, ord := 1 }, stream := 3, why := .device 0 0 0 0, st := .sent }] } }, by decide⟩

theorem test_met_Completions_6 :
    ∃ (d : Die) (m : Msg) (k : Trk) (s : State), s.ToDie d m vcRSP opERR ∧ s.trkOf d m = some k ∧ s.askedPiece k.hart m.addr =
      none :=
  ⟨3,
   { vc := 2, opc := 9, srcPkg := 0, srcAgent := 0x15, dstPkg := 0, dstAgent := 3, txn := 9, addr := 0x1000, cause := 1 },
   { die := 3, hart := 100, st := .sent,
     msg := { vc := 0, opc := 0, srcPkg := 0, srcAgent := 3, dstPkg := 0, dstAgent := 0x15, txn := 9, addr := 0x1000 } },
   { wS [] with
       die :=
         { trk :=
             [{ die := 3, hart := 100, st := .sent,
                msg :=
                  { vc := 0, opc := 0, srcPkg := 0, srcAgent := 3, dstPkg := 0, dstAgent := 0x15, txn := 9, addr := 0x1000 } }] } },
   by decide⟩

theorem test_met_Completions_7 :
    ∃ (d : Die) (m : Msg) (k : Trk) (h : Hart) (w : Wait) (s : State), s.ToDie d m vcRSP opERR ∧ s.trkOf d m = some k ∧ k.hart =
      h ∧ (s.hart h).waits = [w] ∧ w.kind = .load ∧ w.asked = true ∧ w.line = m.addr ∧ w.acc.elem = none :=
  ⟨3,
   { vc := 2, opc := 9, srcPkg := 0, srcAgent := 0x15, dstPkg := 0, dstAgent := 3, txn := 9, addr := 0x1000, cause := 1 },
   { die := 3, hart := 100, st := .sent,
     msg := { vc := 0, opc := 0, srcPkg := 0, srcAgent := 3, dstPkg := 0, dstAgent := 0x15, txn := 9, addr := 0x1000 } },
   100,
   { id := 0, kind := .load, acc := plainAccess 0x40000 8, line := 0x1000, off := 0, len := 8, shift := 0, op := 0,
     val := 0, cmp := 0, rcid := 7, mcid := 8, asked := true },
   ({ wS [] with
        die :=
          { trk :=
              [{ die := 3, hart := 100, st := .sent,
                 msg :=
                   { vc := 0, opc := 0, srcPkg := 0, srcAgent := 3, dstPkg := 0, dstAgent := 0x15, txn := 9,
                     addr := 0x1000 } }] } }).setHart 100
     { waits :=
         [{ id := 0, kind := .load, acc := plainAccess 0x40000 8, line := 0x1000, off := 0, len := 8, shift := 0,
            op := 0, val := 0, cmp := 0, rcid := 7, mcid := 8, asked := true }] }, by decide⟩

theorem test_met_Completions_8 :
    ∃ (d : Die) (m : Msg) (k : Trk) (s : State), s.ToDie d m vcRSP opRETRY ∧ s.trkOf d m = some k :=
  ⟨3,
   { vc := 2, opc := 4, srcPkg := 0, srcAgent := 0x15, dstPkg := 0, dstAgent := 3, txn := 9, addr := 0x1000,
     tokenV := true, token := 12 },
   { die := 3, hart := 100, st := .sent,
     msg := { vc := 0, opc := 0, srcPkg := 0, srcAgent := 3, dstPkg := 0, dstAgent := 0x15, txn := 9, addr := 0x1000 } },
   { wS [] with
       die :=
         { trk :=
             [{ die := 3, hart := 100, st := .sent,
                msg :=
                  { vc := 0, opc := 0, srcPkg := 0, srcAgent := 3, dstPkg := 0, dstAgent := 0x15, txn := 9, addr := 0x1000 } }] } },
   by decide⟩

theorem test_met_Completions_9 :
    ∃ (d : Die) (m : Msg) (k : Trk) (s : State), s.ToDie d m vcRSP opGRANT ∧ m.addr ≠ noLine ∧ s.die.trk = [k] ∧ k.die = d ∧
      k.msg.txn = m.txn ∧ k.msg.addr = m.addr :=
  ⟨3,
   { vc := 2, opc := 5, srcPkg := 0, srcAgent := 0x15, dstPkg := 0, dstAgent := 3, txn := 9, addr := 0x1000,
     tokenV := true, token := 12 },
   { die := 3, hart := 100, st := .sent,
     msg := { vc := 0, opc := 0, srcPkg := 0, srcAgent := 3, dstPkg := 0, dstAgent := 0x15, txn := 9, addr := 0x1000 } },
   { wS [] with
       die :=
         { trk :=
             [{ die := 3, hart := 100, st := .sent,
                msg :=
                  { vc := 0, opc := 0, srcPkg := 0, srcAgent := 3, dstPkg := 0, dstAgent := 0x15, txn := 9, addr := 0x1000 } }] } },
   by decide⟩

theorem test_met_Completions_10 :
    ∃ (d : Die) (m : Msg) (k : Trk) (s : State), s.ToDie d m vcRSP opGRANT ∧ m.addr = noLine ∧ s.die.trk = [k] ∧ (k.die = d ∧
      k.msg.dstAgent = m.srcAgent ∧ (k.st = .parked ∨ (k.st = .tokened ∧ k.msg.token = m.token))) :=
  ⟨3,
   { vc := 2, opc := 5, srcPkg := 0, srcAgent := 0x15, dstPkg := 0, dstAgent := 3, txn := 9, addr := noLine,
     tokenV := true, token := 12 },
   { die := 3, hart := 100, st := .parked,
     msg := { vc := 0, opc := 0, srcPkg := 0, srcAgent := 3, dstPkg := 0, dstAgent := 0x15, txn := 9, addr := 0x1000 } },
   { wS [] with
       die :=
         { trk :=
             [{ die := 3, hart := 100, st := .parked,
                msg :=
                  { vc := 0, opc := 0, srcPkg := 0, srcAgent := 3, dstPkg := 0, dstAgent := 0x15, txn := 9, addr := 0x1000 } }] } },
   by decide⟩

theorem test_met_Completions_11 :
    ∃ (n : Ix16) (k : Fin 256) (s : State), ((s.tok n k).st = .grantLine ∨ (s.tok n k).st = .grantUnbound) ∧ (s.tok n k).slot =
      none ∧ s.home.owed = [] :=
  ⟨5, 4, (wS []).setTok 5 4 { st := .grantLine, line := 0x1000, txn := 9, seq := 0, pkg := 0, agent := 1, slot := none },
   by decide⟩

theorem test_met_Completions_12 :
    ∃ (n : Ix16) (m : Msg) (q : Die) (s : State), s.HomesIdle ∧ s.ToHome n m vcWB 0 ∧ m.srcAgent = q ∧ s.lineLocal m.addr = true
      ∧ s.homeRefuses m.addr = none ∧ s.isBcast n (s.dOfLine m.addr) = false ∧ s.homeView n (s.dOfLine m.addr) = ⟨2, maskOf
      q, some (q : Nat)⟩ ∧ s.storeStops (s.dOfLine m.addr) = false :=
  ⟨(Fin.ofNat 16 (sliceOf 0x40000)),
   { vc := 4, opc := 0, srcPkg := 0, srcAgent := 2, dstPkg := 0, dstAgent := 0x10 + sliceOf 0x40000, txn := 9,
     addr := 0x1000, payload := true, data := 0x66 }, 2,
   (wS []).setDirE (sliceOf 0x40000) (dirSet 0x40000) 2 ⟨mesaTag 0x40000, 2, 4, 2, false, false⟩, by decide⟩

theorem test_met_Completions_13 :
    ∃ (n : Ix16) (m : Msg) (q : Die) (s : State), s.HomesIdle ∧ s.home.pxHeld = [] ∧ s.home.bcast = [] ∧ s.ToHome n m vcREQ
      opRD_SHARED ∧ m.srcAgent = q ∧ m.tokenV = false ∧ s.lineLocal m.addr = false ∧ s.pkgServed (m.addr * 64 / 2 ^ 44) =
      true ∧ (s.proxyView n (m.addr * 64)).kind = 0 :=
  ⟨(Fin.ofNat 16 (proxyOf (0x4000001000 * 64))),
   { vc := 0, opc := 0, srcPkg := 0, srcAgent := 2, dstPkg := 0, dstAgent := 0x10 + proxyOf (0x4000001000 * 64),
     txn := 9, addr := 0x4000001000 }, 2,
   wS
     [(R.ROUTE_ISLAND_STATUS_STATE, 2), (R.ROUTE_MEMBER_PACKAGE_ID 1, 1), (R.ROUTE_MEMBER_STATE 1, 2),
      (R.ROUTE_MEMBER_PACKAGE_ID 0, 5)], by decide⟩

theorem test_met_Completions_14 :
    ∃ (n : Ix16) (m : Msg) (q : Die) (s : State), s.HomesIdle ∧ s.home.pxHeld = [] ∧ s.home.bcast = [] ∧ s.ToHome n m vcWB 0 ∧
      m.srcAgent = q ∧ m.tokenV = false ∧ s.lineLocal m.addr = false ∧ s.pkgServed (m.addr * 64 / 2 ^ 44) = true ∧
      s.proxyView n (m.addr * 64) = ⟨2, maskOf q, some (q : Nat)⟩ :=
  ⟨(Fin.ofNat 16 (proxyOf (0x4000001000 * 64))),
   { vc := 4, opc := 0, srcPkg := 0, srcAgent := 2, dstPkg := 0, dstAgent := 0x10 + proxyOf (0x4000001000 * 64),
     txn := 9, addr := 0x4000001000, payload := true, data := 0x66 }, 2,
   (wS
      [(R.ROUTE_ISLAND_STATUS_STATE, 2), (R.ROUTE_MEMBER_PACKAGE_ID 1, 1), (R.ROUTE_MEMBER_STATE 1, 2),
       (R.ROUTE_MEMBER_PACKAGE_ID 0, 5)]).setRldE (proxyOf (0x4000001000 * 64)) (rldSet (0x4000001000 * 64)) 3
     ⟨rldTag (0x4000001000 * 64), 2, 4, 2, false⟩, by decide⟩

theorem test_met_Completions_15 :
    ∃ (d : Die) (m : Msg) (s : State), s.ToDie d m vcRSP opWB_ACK ∧ s.die.wb.any (fun e => e.die == (d : Nat) && e.msg.txn ==
      m.txn && e.msg.addr == m.addr) = true :=
  ⟨3, { vc := 2, opc := 7, srcPkg := 0, srcAgent := 0x15, dstPkg := 0, dstAgent := 3, txn := 9, addr := 0x1000 },
   { wS [] with
       die :=
         { wb :=
             [⟨3,
               { vc := 4, opc := 0, srcPkg := 0, srcAgent := 3, dstPkg := 0, dstAgent := 0x15, txn := 9, addr := 0x1000 },
               none⟩] } }, by decide⟩

theorem test_met_Completions_16 :
    ∃ (d : Die) (m : Msg) (s : State), s.ToDie d m vcRSP opWB_STALE ∧ s.die.wb.any (fun e => e.die == (d : Nat) && e.msg.txn ==
      m.txn && e.msg.addr == m.addr) = true :=
  ⟨3, { vc := 2, opc := 8, srcPkg := 0, srcAgent := 0x15, dstPkg := 0, dstAgent := 3, txn := 9, addr := 0x1000 },
   { wS [] with
       die :=
         { wb :=
             [⟨3,
               { vc := 4, opc := 0, srcPkg := 0, srcAgent := 3, dstPkg := 0, dstAgent := 0x15, txn := 9, addr := 0x1000 },
               none⟩] } }, by decide⟩

theorem test_met_DieSteps_1 :
    ∃ (d : Die) (m : Msg) (k : Trk) (h : Hart) (w : Wait) (s : State), s.ToDie d m vcDATA opDATA_S ∧ s.wbRoom d = true ∧
      m.poison = false ∧ m.payload = true ∧ s.trkTxn d m.txn = some k ∧ k.msg.opc = opRD_CUR ∧ k.msg.addr = m.addr ∧ k.hart
      = h ∧ (s.hart h).waits = [w] ∧ (s.hart h).held = none ∧ w.kind = .load ∧ w.asked = true ∧ w.line = m.addr :=
  ⟨3,
   { vc := 3, opc := 0, srcPkg := 0, srcAgent := 0x15, dstPkg := 0, dstAgent := 3, txn := 9, addr := 0x1000,
     payload := true, data := 0x1122334455667788 },
   { die := 3, hart := 100, st := .sent,
     msg := { vc := 0, opc := 2, srcPkg := 0, srcAgent := 3, dstPkg := 0, dstAgent := 0x15, txn := 9, addr := 0x1000 } },
   100,
   { id := 0, kind := .load, acc := plainAccess 0x40000 8, line := 0x1000, off := 0, len := 8, shift := 0, op := 0,
     val := 0, cmp := 0, rcid := 7, mcid := 8, asked := true },
   ({ wS [] with
        die :=
          { trk :=
              [{ die := 3, hart := 100, st := .sent,
                 msg :=
                   { vc := 0, opc := 2, srcPkg := 0, srcAgent := 3, dstPkg := 0, dstAgent := 0x15, txn := 9,
                     addr := 0x1000 } }] } }).setHart 100
     { waits :=
         [{ id := 0, kind := .load, acc := plainAccess 0x40000 8, line := 0x1000, off := 0, len := 8, shift := 0,
            op := 0, val := 0, cmp := 0, rcid := 7, mcid := 8, asked := true }] }, by decide⟩

theorem test_met_DieSteps_2 :
    ∃ (h : Hart) (w : Wait) (s : State), s.ras.flaws = [] ∧ (s.hart h).waits = [w] ∧ (s.hart h).scFails = 0 ∧ w.kind = .load ∧
      w.asked = false ∧ w.acc.pbmt = .pma ∧ s.die.trk = [] ∧ s.die.wb = [] ∧ s.guarded (h / 32) w.line (some h) = false ∧
      s.l2Way h w.line = none ∧ s.dieSt (h / 32) w.line = .i :=
  ⟨100,
   { id := 0, kind := .load, acc := plainAccess 0x40000 8, line := 0x1000, off := 0, len := 8, shift := 0, op := 0,
     val := 0, cmp := 0, rcid := 7, mcid := 8, asked := false },
   (wS []).setHart 100
     { waits :=
         [{ id := 0, kind := .load, acc := plainAccess 0x40000 8, line := 0x1000, off := 0, len := 8, shift := 0,
            op := 0, val := 0, cmp := 0, rcid := 7, mcid := 8, asked := false }] }, by decide⟩

theorem test_met_DieSteps_3 :
    ∃ (h : Hart) (line w v : Nat) (s : State), s.ras.flaws = [] ∧ s.l2Way h line = some w ∧ s.vcWay (h / 32) line = some v ∧
      s.upgrading (h / 32) line = false ∧ s.wbCount (h / 32) < 256 ∧ (s.l2 h (l2Set line) w).st = .m :=
  ⟨100, 0x1000, 3, 1,
   ((wS []).setL2 100 (l2Set 0x1000) 3 ⟨.m, 0x1000, 0, 1, 2, 0xABC, false⟩).setVc 3 (valeSlice 0x40000) (valeSet 0x40000) 1
     ⟨true, 0x1000, .m, 0, 0, 0, 0, false⟩, by decide⟩

theorem test_met_DieSteps_4 :
    ∃ (d : Die) (line w : Nat) (s : State), s.ras.flaws = [] ∧ s.vcWay d line = some w ∧ s.upgrading d line = false ∧ s.wbCount
      d < 256 :=
  ⟨3, 0x1000, 1, (wS []).setVc 3 (valeSlice 0x40000) (valeSet 0x40000) 1 ⟨true, 0x1000, .e, 0, 0, 0, 0xABCD, false⟩,
   by decide⟩

theorem test_met_DieSteps_5 :
    ∃ (n : Ix16) (k : Fin 512) (x : HTxn) (l : Line) (q : Die) (s : State), s.lock n k = some x ∧ x.phase = .way ∧ x.proxy =
      false ∧ x.wasForwarded = false ∧ x.bcast = false ∧ x.closed = false ∧ x.work = .request ∧ x.req.opc = opRD_SHARED ∧
      x.req.srcPkg = s.pkgId ∧ x.req.srcAgent = q ∧ x.got = some (l, false) ∧ x.eGrant = true ∧ s.home.chHeld = [] ∧
      s.homeView n (s.dOfLine x.line) = {} ∧ (s.dirFree n (s.dOfLine x.line)).isSome = true :=
  ⟨5, 4,
   { line := 0x1000, proxy := false, work := .request,
     req := { vc := 0, opc := 0, srcPkg := 0, srcAgent := 1, dstPkg := 0, dstAgent := 0x15, txn := 9, addr := 0x1000 },
     phase := .way, got := some (0x99, false) }, 0x99, 1,
   (wS []).setLock 5 4
     (some
        { line := 0x1000, proxy := false, work := .request,
          req := { vc := 0, opc := 0, srcPkg := 0, srcAgent := 1, dstPkg := 0, dstAgent := 0x15, txn := 9, addr := 0x1000 },
          phase := .way, got := some (0x99, false) }), by decide⟩

theorem test_met_DieSteps_6 :
    ∃ (d : Die) (s : State), (s.dieCtl d).phase = 2 ∧ s.dieStill d = true :=
  ⟨3,
   ((List.range 16).foldl (fun (s : State) i => s.put (R.VALE_VC_STATUS_STATE 3 i) 2) (wS [])).setDieCtl 3 { phase := 2 },
   by decide⟩

theorem test_met_DieSteps_7 :
    ∃ (d : Die) (s : State), (s.dieCtl d).phase = 3 ∧ (s.passState (2 * d) = passACTIVE ∨ s.passState (2 * d) = passRETIRED) ∧
      (s.passState (2 * d + 1) = passACTIVE ∨ s.passState (2 * d + 1) = passRETIRED) ∧ (s.passState (2 * d) = passACTIVE ∨
      s.passState (2 * d + 1) = passACTIVE) :=
  ⟨3,
   ((wS [(R.PKG_DIES_VALE_ONLINE, 0), (R.PASS_STATUS_STATE 0 6, 8), (R.PASS_STATUS_STATE 0 7, 10)])).setDieCtl 3
     { phase := 3 }, by decide⟩

theorem test_met_DieSteps_8 :
    ∃ (n w : Ix16) (k : Nat) (s : State), s.home.sweeps = [⟨.dirWay n w, k⟩] ∧ s.home.locks = [] ∧ s.home.dir = [] :=
  ⟨5, 2, 0, { wS [(R.HOME_DIR_STATUS_WAY_RECALLING 5, 1)] with home := { sweeps := [⟨.dirWay 5 2, 0⟩] } }, by decide⟩

theorem test_met_DieSteps_9 :
    ∃ (n w : Ix16) (k l : Nat) (s : State), s.home.sweeps = [⟨.dirWay n w, k⟩] ∧ s.home.locks = [] ∧ s.home.pxWb = [] ∧
      (s.walkLines k (.dirWay n w)).head? = some l :=
  ⟨5, 2, 0,
   ((({ wS [] with home := { sweeps := [⟨.dirWay 5 2, 0⟩] } } : State)).setDirE 5 77 2 ⟨3, 2, 4, 2, false, false⟩).walkLines
     0 (.dirWay 5 2) |>.headD 0,
   (({ wS [] with home := { sweeps := [⟨.dirWay 5 2, 0⟩] } } : State)).setDirE 5 77 2 ⟨3, 2, 4, 2, false, false⟩, by decide⟩

theorem test_met_PartitioningOperations_1 :
    ∃ (k : QosCtl) (i : Fin 1024) (v : Word) (s : State), s.qosHere k = true ∧ qosIsCap k = true :=
  ⟨.vc 3, 5, 0xABCDE,
   { wS [] with
       qos :=
         { bw := [(18 * 1024 + 5, (700, 3)), (18 * 1024, (100, 1))], cap := [(3 * 1024 + 5, 0x1F)],
           mon := [(18 * 1024 + 5, 640)], monEv := [(18 * 1024 + 5, 1), (3 * 1024 + 5, 1), (12 * 1024 + 5, 1)] } },
   by decide⟩

theorem test_met_PartitioningOperations_2 :
    ∃ (k : QosCtl) (i : Fin 1024) (v : Word) (s : State), s.qosHere k = true ∧ qosIsCap k = false ∧ s.rbwbSum (qosCode k) -
      (s.bwOf (qosCode k) i).1 + v.toNat % 2 ^ 16 ≤ 900 :=
  ⟨.mc 2, 5, 0x7F00100,
   { wS [] with
       qos :=
         { bw := [(18 * 1024 + 5, (700, 3)), (18 * 1024, (100, 1))], cap := [(3 * 1024 + 5, 0x1F)],
           mon := [(18 * 1024 + 5, 640)], monEv := [(18 * 1024 + 5, 1), (3 * 1024 + 5, 1), (12 * 1024 + 5, 1)] } },
   by decide⟩

theorem test_met_PartitioningOperations_3 :
    ∃ (k : QosCtl) (i : Fin 1024) (v : Word) (s : State), s.qosHere k = true ∧ qosIsCap k = false ∧ 900 < s.rbwbSum (qosCode k)
      - (s.bwOf (qosCode k) i).1 + v.toNat % 2 ^ 16 :=
  ⟨.mc 2, 6, 0x7F00100,
   { wS [] with
       qos :=
         { bw := [(18 * 1024 + 5, (700, 3)), (18 * 1024, (100, 1))], cap := [(3 * 1024 + 5, 0x1F)],
           mon := [(18 * 1024 + 5, 640)], monEv := [(18 * 1024 + 5, 1), (3 * 1024 + 5, 1), (12 * 1024 + 5, 1)] } },
   by decide⟩

theorem test_met_PartitioningOperations_4 :
    ∃ (k : QosCtl) (i : Fin 1024) (s : State), s.qosHere k = true ∧ qosIsCap k = true :=
  ⟨.vc 3, 5,
   { wS [] with
       qos :=
         { bw := [(18 * 1024 + 5, (700, 3)), (18 * 1024, (100, 1))], cap := [(3 * 1024 + 5, 0x1F)],
           mon := [(18 * 1024 + 5, 640)], monEv := [(18 * 1024 + 5, 1), (3 * 1024 + 5, 1), (12 * 1024 + 5, 1)] } },
   by decide⟩

theorem test_met_PartitioningOperations_5 :
    ∃ (k : QosCtl) (i : Fin 1024) (s : State), s.qosHere k = true ∧ qosIsCap k = false :=
  ⟨.mc 2, 5,
   { wS [] with
       qos :=
         { bw := [(18 * 1024 + 5, (700, 3)), (18 * 1024, (100, 1))], cap := [(3 * 1024 + 5, 0x1F)],
           mon := [(18 * 1024 + 5, 640)], monEv := [(18 * 1024 + 5, 1), (3 * 1024 + 5, 1), (12 * 1024 + 5, 1)] } },
   by decide⟩

theorem test_met_PartitioningOperations_6 :
    ∃ (k : QosCtl) (i : Fin 1024) (ev : Nat) (s : State), s.qosHere k = true ∧ 1 ≤ ev ∧ ev ≤ (if qosIsCap k then 1 else 3) :=
  ⟨.mc 2, 5, 2,
   { wS [] with
       qos :=
         { bw := [(18 * 1024 + 5, (700, 3)), (18 * 1024, (100, 1))], cap := [(3 * 1024 + 5, 0x1F)],
           mon := [(18 * 1024 + 5, 640)], monEv := [(18 * 1024 + 5, 1), (3 * 1024 + 5, 1), (12 * 1024 + 5, 1)] } },
   by decide⟩

theorem test_met_PartitioningOperations_7 :
    ∃ (k : QosCtl) (i : Fin 1024) (s : State), s.qosHere k = true :=
  ⟨.mc 2, 5,
   { wS [] with
       qos :=
         { bw := [(18 * 1024 + 5, (700, 3)), (18 * 1024, (100, 1))], cap := [(3 * 1024 + 5, 0x1F)],
           mon := [(18 * 1024 + 5, 640)], monEv := [(18 * 1024 + 5, 1), (3 * 1024 + 5, 1), (12 * 1024 + 5, 1)] } },
   by decide⟩

theorem test_met_PartitioningOperations_8 :
    ∃ (k : QosCtl) (i : Fin 1024) (ev : Nat) (s : State), s.qosHere k = true ∧ (if qosIsCap k then 1 else 3) < ev :=
  ⟨.mc 2, 5, 4,
   { wS [] with
       qos :=
         { bw := [(18 * 1024 + 5, (700, 3)), (18 * 1024, (100, 1))], cap := [(3 * 1024 + 5, 0x1F)],
           mon := [(18 * 1024 + 5, 640)], monEv := [(18 * 1024 + 5, 1), (3 * 1024 + 5, 1), (12 * 1024 + 5, 1)] } },
   by decide⟩

theorem test_met_PartitioningOperations_9 :
    ∃ (c : Ix16) (i : Fin 1024) (s : State), True :=
  ⟨2, 5,
   { wS [] with
       qos :=
         { bw := [(18 * 1024 + 5, (700, 3)), (18 * 1024, (100, 1))], cap := [(3 * 1024 + 5, 0x1F)],
           mon := [(18 * 1024 + 5, 640)], monEv := [(18 * 1024 + 5, 1), (3 * 1024 + 5, 1), (12 * 1024 + 5, 1)] } },
   by decide⟩

theorem test_met_PartitioningOperations_10 :
    ∃ (p : HPort) (i : Fin 1024) (s : State), True :=
  ⟨2, 5,
   { wS [] with
       qos :=
         { bw := [(18 * 1024 + 5, (700, 3)), (18 * 1024, (100, 1))], cap := [(3 * 1024 + 5, 0x1F)],
           mon := [(18 * 1024 + 5, 640)], monEv := [(18 * 1024 + 5, 1), (3 * 1024 + 5, 1), (12 * 1024 + 5, 1)] } },
   by decide⟩

theorem test_met_PartitioningOperations_11 :
    ∃ (d : Die) (i : Fin 1024) (s : State), s.dieOnline d = true ∧ Tbl.get (fun _ => 0) s.qos.monEv (d * 1024 + i) = 1 :=
  ⟨3, 5,
   ({ wS [] with
        qos :=
          { bw := [(18 * 1024 + 5, (700, 3)), (18 * 1024, (100, 1))], cap := [(3 * 1024 + 5, 0x1F)],
            mon := [(18 * 1024 + 5, 640)], monEv := [(18 * 1024 + 5, 1), (3 * 1024 + 5, 1), (12 * 1024 + 5, 1)] } }).setVc
     3 1 5 3 ⟨true, 77, .m, 0, 0, 5, 9, false⟩, by decide⟩

theorem test_met_PartitioningOperations_12 :
    ∃ (i : Fin 1024) (s : State), Tbl.get (fun _ => 0) s.qos.monEv (12 * 1024 + i) = 1 :=
  ⟨5,
   ({ wS [] with
        qos :=
          { bw := [(18 * 1024 + 5, (700, 3)), (18 * 1024, (100, 1))], cap := [(3 * 1024 + 5, 0x1F)],
            mon := [(18 * 1024 + 5, 640)], monEv := [(18 * 1024 + 5, 1), (3 * 1024 + 5, 1), (12 * 1024 + 5, 1)] } }).setSec
     5 7 2 ⟨9, 3, 5⟩, by decide⟩

theorem test_met_PartitioningOperations_13 :
    ∃ (k : QosCtl) (i : Fin 1024) (v : Word) (s : State), s.qosHere k = false :=
  ⟨.vc 3, 5, 1,
   ({ wS [] with
        qos :=
          { bw := [(18 * 1024 + 5, (700, 3)), (18 * 1024, (100, 1))], cap := [(3 * 1024 + 5, 0x1F)],
            mon := [(18 * 1024 + 5, 640)], monEv := [(18 * 1024 + 5, 1), (3 * 1024 + 5, 1), (12 * 1024 + 5, 1)] } }).put
     R.PKG_DIES_VALE_ONLINE 0, by decide⟩

theorem test_met_PartitioningOperations_14 :
    ∃ (k : QosCtl) (i : Fin 1024) (s : State), s.qosHere k = false :=
  ⟨.vc 3, 5,
   ({ wS [] with
        qos :=
          { bw := [(18 * 1024 + 5, (700, 3)), (18 * 1024, (100, 1))], cap := [(3 * 1024 + 5, 0x1F)],
            mon := [(18 * 1024 + 5, 640)], monEv := [(18 * 1024 + 5, 1), (3 * 1024 + 5, 1), (12 * 1024 + 5, 1)] } }).put
     R.PKG_DIES_VALE_ONLINE 0, by decide⟩

theorem test_met_PartitioningOperations_15 :
    ∃ (k : QosCtl) (i : Fin 1024) (ev : Nat) (s : State), s.qosHere k = false :=
  ⟨.vc 3, 5, 1,
   ({ wS [] with
        qos :=
          { bw := [(18 * 1024 + 5, (700, 3)), (18 * 1024, (100, 1))], cap := [(3 * 1024 + 5, 0x1F)],
            mon := [(18 * 1024 + 5, 640)], monEv := [(18 * 1024 + 5, 1), (3 * 1024 + 5, 1), (12 * 1024 + 5, 1)] } }).put
     R.PKG_DIES_VALE_ONLINE 0, by decide⟩

theorem test_met_PartitioningOperations_16 :
    ∃ (k : QosCtl) (i : Fin 1024) (s : State), s.qosHere k = false :=
  ⟨.vc 3, 5,
   ({ wS [] with
        qos :=
          { bw := [(18 * 1024 + 5, (700, 3)), (18 * 1024, (100, 1))], cap := [(3 * 1024 + 5, 0x1F)],
            mon := [(18 * 1024 + 5, 640)], monEv := [(18 * 1024 + 5, 1), (3 * 1024 + 5, 1), (12 * 1024 + 5, 1)] } }).put
     R.PKG_DIES_VALE_ONLINE 0, by decide⟩

theorem test_met_PartitioningOperations_17 :
    ∃ (k : QosCtl) (s : State), qosIsCap k = false ∧ s.home.chHeld = [] :=
  ⟨.mc 2,
   { wS [(R.MC_CH_CONFIG_RATE 2, 64)] with
       qos :=
         { bw := [(18 * 1024 + 5, (700, 3)), (18 * 1024, (100, 1))], cap := [(3 * 1024 + 5, 0x1F)],
           mon := [(18 * 1024 + 5, 640)], drawn := [(18 * 1024 + 5, 7)], waited := [(18 * 1024 + 5, 7)],
           monEv := [(18 * 1024 + 5, 1), (3 * 1024 + 5, 1), (12 * 1024 + 5, 1)] } }, by decide⟩

theorem test_met_PartitioningOperations_18 :
    ∃ (k : QosCtl) (s : State), qosIsCap k = true :=
  ⟨.vc 3,
   { wS [] with
       qos :=
         { bw := [(18 * 1024 + 5, (700, 3)), (18 * 1024, (100, 1))], cap := [(3 * 1024 + 5, 0x1F)],
           mon := [(18 * 1024 + 5, 640)], monEv := [(18 * 1024 + 5, 1), (3 * 1024 + 5, 1), (12 * 1024 + 5, 1)] } },
   by decide⟩

theorem test_met_PartitioningOperations_19 :
    ∃ (p : HPort) (i : Fin 1024) (r w : Nat) (s : State), s.qos.bw = [((32 + (p : Nat)) * 1024 + i, (r, w))] ∧ s.qos.bal = [] ∧
      s.qos.bwNow = [] ∧ i ≠ 0 ∧ 0 < r ∧ r ≤ 900 ∧ s.home.chHeld = [] ∧ s.hznWaiters p = [] ∧ s.qos.waited = [] :=
  ⟨2, 5, 50, 3, { wS [] with qos := { bw := [(34 * 1024 + 5, (50, 3))] } }, by decide⟩

theorem test_met_MesaCommands_1 :
    ∃ (n : Ix16) (s : State), s.get (R.MESA_STATUS_STATE n) = mesaENABLED :=
  ⟨5, ((wS [(R.MESA_STATUS_STATE 5, mesaENABLED)]).setVict 5 [⟨7, ⟨9, 3, 1⟩⟩]), by decide⟩

theorem test_met_MesaCommands_2 :
    ∃ (n : Ix16) (s : State), s.get (R.MESA_STATUS_STATE n) = mesaBYPASS :=
  ⟨5, wS [(R.MESA_STATUS_STATE 5, mesaBYPASS)], by decide⟩

theorem test_met_MesaCommands_3 :
    ∃ (n : Ix16) (s : State), s.get (R.MESA_STATUS_STATE n) = mesaINVALIDATING :=
  ⟨5, wS [(R.MESA_STATUS_STATE 5, mesaINVALIDATING)], by decide⟩

theorem test_met_MesaCommands_4 :
    ∃ (n : Ix16) (s : State), s.get (R.MESA_STATUS_STATE n) = mesaINVALIDATING ∧ s.mesaDrained n = true ∧ s.mesaBypass n = false
      ∧ s.mesa.offPorts = [] :=
  ⟨5, wS [(R.MESA_STATUS_STATE 5, mesaINVALIDATING)], by decide⟩

theorem test_met_MesaCommands_5 :
    ∃ (n : Ix16) (s : State), s.get (R.MESA_STATUS_STATE n) = mesaINVALIDATING ∧ s.mesaDrained n = true ∧ s.mesaBypass n = true
      ∧ s.mesa.offPorts = [] :=
  ⟨5, (wS [(R.MESA_STATUS_STATE 5, mesaINVALIDATING)]).setMesaBypass 5 true, by decide⟩

theorem test_met_MesaCommands_6 :
    ∃ (n i : Ix16) (s : State), s.get (R.MESA_STATUS_STATE n) = mesaINVALIDATING ∧ s.mesaDrained n = true ∧ s.mesaBypass n =
      false ∧ s.mesa.offPorts = [i.val] ∧ (∀ m : Ix16, m ≠ n → s.get (R.MESA_STATUS_STATE m) ≠ mesaINVALIDATING) :=
  ⟨5, 4, { wS [(R.MESA_STATUS_STATE 5, mesaINVALIDATING)] with mesa := { offPorts := [4] } }, by decide⟩

theorem test_met_MesaCommands_7 :
    ∃ (n : Ix16) (s : State), (s.mesaDrained n = false ∨ s.get (R.MESA_STATUS_STATE n) ≠ mesaINVALIDATING) :=
  ⟨5, wS [], by decide⟩

theorem test_met_MesaCommands_8 :
    ∃ (n w : Ix16) (s : State), (s.get (R.MESA_WAY_STATUS_WAYS_DISABLED n)).testBit w = false :=
  ⟨5, 2, (wS []).setSec 5 7 2 ⟨9, 3, 1⟩, by decide⟩

theorem test_met_MesaCommands_9 :
    ∃ (n w : Ix16) (s : State), (s.get (R.MESA_WAY_STATUS_WAYS_DISABLED n)).testBit w = true :=
  ⟨5, 2, wS [(R.MESA_WAY_STATUS_WAYS_DISABLED 5, 4)], by decide⟩

theorem test_met_MesaCommands_10 :
    ∃ (n w : Ix16) (s : State), (s.get (R.MESA_WAY_STATUS_WAYS_RETIRED n)).testBit w = false :=
  ⟨5, 2, (wS [(R.MESA_WAY_STATUS_WAYS_DISABLED 5, 0xF), (R.MESA_WAY_CTL_WAY_DISABLE 5, 0xF)]).setSec 5 7 2 ⟨9, 3, 1⟩,
   by decide⟩

theorem test_met_MesaCommands_11 :
    ∃ (n w : Ix16) (s : State), (s.get (R.MESA_WAY_STATUS_WAYS_RETIRED n)).testBit w = true :=
  ⟨5, 2, wS [(R.MESA_WAY_STATUS_WAYS_RETIRED 5, 0xF)], by decide⟩

theorem test_met_MesaCommands_12 :
    ∃ (n : Ix16) (on : Bool) (s : State), True :=
  ⟨5, true, (wS []).setVict 5 [⟨7, ⟨9, 3, 1⟩⟩], by decide⟩

theorem test_met_MesaCommands_13 :
    ∃ (n : Ix16) (u : Int) (s : State), s.localLevel n u = s.get (R.MESA_STATUS_THROTTLE n) :=
  ⟨5, 87 * 16, wS [], by decide⟩

theorem test_met_MesaCommands_14 :
    ∃ (n : Ix16) (u : Int) (s : State), s.localLevel n u < 3 ∧ s.get (R.MESA_STATUS_THROTTLE n) < 3 ∧ s.localLevel n u ≠ s.get
      (R.MESA_STATUS_THROTTLE n) :=
  ⟨5, 94 * 16, wS [], by decide⟩

theorem test_met_MesaCommands_15 :
    ∃ (n : Ix16) (u : Int) (s : State), s.get (R.MESA_STATUS_STATE n) = mesaENABLED ∧ s.get (R.MESA_STATUS_THROTTLE n) < 3 ∧
      s.localLevel n u = 3 :=
  ⟨5, 100 * 16, wS [(R.MESA_STATUS_STATE 5, mesaENABLED)], by decide⟩

theorem test_met_MesaCommands_16 :
    ∃ (n : Ix16) (u : Int) (s : State), s.get (R.MESA_STATUS_STATE n) = mesaINVALIDATING ∧ s.get (R.MESA_STATUS_THROTTLE n) < 3
      ∧ s.localLevel n u = 3 :=
  ⟨5, 100 * 16, wS [(R.MESA_STATUS_STATE 5, mesaINVALIDATING)], by decide⟩

theorem test_met_MesaCommands_17 :
    ∃ (n : Ix16) (u : Int) (s : State), s.get (R.MESA_STATUS_THROTTLE n) = 3 ∧ s.localLevel n u < 3 ∧ s.get (R.MESA_STATUS_STATE
      n) = mesaBYPASS :=
  ⟨5, 90 * 16, wS [(R.MESA_STATUS_STATE 5, mesaBYPASS), (R.MESA_STATUS_THROTTLE 5, 3)], by decide⟩

theorem test_met_MesaCommands_18 :
    ∃ (n : Ix16) (u : Int) (s : State), s.get (R.MESA_STATUS_THROTTLE n) = 3 ∧ s.localLevel n u < 3 ∧ s.get (R.MESA_STATUS_STATE
      n) ≠ mesaBYPASS :=
  ⟨5, 90 * 16, (wS [(R.MESA_STATUS_STATE 5, mesaINVALIDATING), (R.MESA_STATUS_THROTTLE 5, 3)]).setMesaBypass 5 true,
   by decide⟩

theorem test_met_MesaCommands_19 :
    ∃ (n : Ix16) (s : State), True :=
  ⟨5, (wS []).setMesaPowering 5 true, by decide⟩

theorem test_met_ChannelTraining_1 :
    ∃ (x : TrainRes) (m p q : Nat) (s : State), s.pwr.stage = .training ∧ s.modeFor (TrainRes.pop x) (s.failingChans x) = some
      (m, p, q) :=
  ⟨⟨List.replicate 32 (some ⟨.rdimm, false, 64, 64, 2, 7⟩), 0⟩, 0, 15, 0xFFFF,
   { wS [] with pwr := { stage := .training } }, by decide⟩

theorem test_met_ChannelTraining_2 :
    ∃ (x : TrainRes) (s : State), s.pwr.stage = .training ∧ s.modeFor (TrainRes.pop x) (s.failingChans x) = none :=
  ⟨⟨List.replicate 32 (some ⟨.rdimm, false, 64, 64, 2, 7⟩), 3⟩, { wS [] with pwr := { stage := .training } }, by decide⟩

theorem test_met_ChannelTraining_3 :
    ∃ (x : TrainRes) (s : State), s.pwr.stage ≠ .training :=
  ⟨⟨List.replicate 32 (some ⟨.rdimm, false, 64, 64, 2, 7⟩), 0⟩, wS [], by decide⟩

theorem test_met_ChannelTraining_4 :
    ∃ (f m p q : Nat) (s : State), s.pwr.stage = .filling ∧ s.modeFor s.pwr.pop (s.pwr.failing ||| (f &&& s.inTraining)) = some
      (m, p, q) :=
  ⟨0x20, 3, 5, 0xFFDF,
   ((List.range 16).foldl (fun (s : State) i => s.put (R.MC_CH_STATUS_STATE i) 1)
      { wS [] with pwr := { stage := .filling, pop := 0xFFFF } }), by decide⟩

theorem test_met_ChannelTraining_5 :
    ∃ (f : Nat) (s : State), s.pwr.stage = .filling ∧ s.modeFor s.pwr.pop (s.pwr.failing ||| (f &&& s.inTraining)) = none :=
  ⟨3,
   ((List.range 16).foldl (fun (s : State) i => s.put (R.MC_CH_STATUS_STATE i) 1)
      { wS [] with pwr := { stage := .filling, pop := 0xFFFF } }), by decide⟩

theorem test_met_ChannelTraining_6 :
    ∃ (s : State), s.pwr.stage ≠ .filling ∧ s.chan.san.op = 3 ∧ s.chan.san.phase = sanPHASE_OVERWRITE :=
  ⟨(wS [(R.MC_FILL_STATUS_STATE 5, 1), (R.MC_CH_CONFIG_CAP_GIB 5, 64), (R.MC_CH_STATUS_STATE 5, 2)]) |> fun s =>
     { s with chan := { san := ⟨3, 1, 0, 0, 7, 0, false, false, 0, none⟩ } }, by decide⟩

theorem test_met_ChannelTraining_7 :
    ∃ (f : Nat) (s : State), s.pwr.stage ≠ .filling ∧ (s.chan.san.op ≠ 3 ∨ s.chan.san.phase ≠ sanPHASE_OVERWRITE) :=
  ⟨0, wS [], by decide⟩

theorem test_met_ChannelTraining_8 :
    ∃ (ch : Ix16) (s : State), (s.chRetrain ch = true ∨ s.chWorks ch = false) :=
  ⟨5, (wS []).setChRetrain 5 true, by decide⟩

theorem test_met_ChannelTraining_9 :
    ∃ (ch : Ix16) (s : State), s.chRetrain ch = false ∧ s.chWorks ch = true ∧ (s.charge 10 ch false).2 = false :=
  ⟨5, wS [(R.MC_CH_STATUS_STATE 5, 2)], by decide⟩

theorem test_met_ChannelTraining_10 :
    ∃ (ch : Ix16) (s : State), s.chRetrain ch = false ∧ s.chWorks ch = true ∧ (s.charge 10 ch false).2 = true ∧ (s.chState ch =
      chACTIVE ∨ s.chState ch = chAT_RISK) :=
  ⟨5, (wS [(R.MC_CH_STATUS_STATE 5, 2)]).setBucket 10 5 { level := 254, run := 2 }, by decide⟩

theorem test_met_ChannelTraining_11 :
    ∃ (ch : Ix16) (s : State), s.chRetrain ch = false ∧ s.chWorks ch = true ∧ (s.charge 10 ch false).2 = true ∧ (s.chState ch =
      chCOPY_SOURCE ∨ s.chState ch = chCOPY_TARGET) :=
  ⟨5, (wS [(R.MC_CH_STATUS_STATE 5, chCOPY_SOURCE)]).setBucket 10 5 { level := 254, run := 2 }, by decide⟩

theorem test_met_ChannelTraining_12 :
    ∃ (ch : Ix16) (s : State), s.chRetrain ch = false ∧ s.chWorks ch = true ∧ (s.charge 10 ch false).2 = true ∧ s.chState ch =
      chSPARE :=
  ⟨5, (wS [(R.MC_CH_STATUS_STATE 5, chSPARE)]).setBucket 10 5 { level := 254, run := 2 }, by decide⟩

theorem test_met_ChannelTraining_13 :
    ∃ (ch : Ix16) (s : State), s.chRetrain ch = true ∧ s.NoHeld ∧ s.chState ch = chRETRAINING ∧ (s.marksOut ch = false ∨
      s.chPrev ch % 16 ≠ chACTIVE) :=
  ⟨5, ((wS [(R.MC_CH_STATUS_STATE 5, 4)]).setChRetrain 5 true).setChPrev 5 2, by decide⟩

theorem test_met_ChannelTraining_14 :
    ∃ (ch : Ix16) (s : State), s.chRetrain ch = true ∧ s.NoHeld ∧ s.chState ch ≠ chRETRAINING ∧ s.chState ch ≠ chACTIVE :=
  ⟨5, ((wS [(R.MC_CH_STATUS_STATE 5, chCOPY_SOURCE)]).setChRetrain 5 true).setChPrev 5 2, by decide⟩

theorem test_met_ChannelTraining_15 :
    ∃ (ch : Ix16) (s : State), s.chRetrain ch = true ∧ s.home.chHeld = [] ∧ s.chan.heldStart = [ch.val] ∧ s.chState ch =
      chRETRAINING ∧ s.chPrev ch = chACTIVE ∧ s.marksOut ch = false ∧ s.get R.PKG_MEMMAP_CHANNEL_MODE = 3 ∧ s.copyRuns =
      false ∧ s.chState (s.get R.PKG_MEMMAP_SPARE_CH) = chSPARE :=
  ⟨5,
   (((wS [(R.MC_CH_STATUS_STATE 5, 4)]).setChRetrain 5 true).setChPrev 5 2).put R.PKG_MEMMAP_CHANNEL_MODE 3 |> fun s =>
     ((s.put R.PKG_MEMMAP_SPARE_CH 9).put (R.MC_CH_STATUS_STATE 9) chSPARE) |> fun s =>
     { s with chan := { s.chan with heldStart := [5] } }, by decide⟩

theorem test_met_ChannelTraining_16 :
    ∃ (ch : Ix16) (d : Nat) (l : Line) (s : State), s.chRetrain ch = true ∧ s.home.chHeld = [(d, some l, none)] ∧
      s.chan.heldStart = [] ∧ s.home.parked = [] ∧ s.home.locks = [] ∧ s.chState ch = chRETRAINING ∧ s.chPrev ch = chACTIVE
      ∧ s.marksOut ch = false ∧ d < 2 ^ 43 ∧ (s.dramPlace d).1 = ch :=
  ⟨5, 5 * 4096 + 64, 0x77,
   ((((wS [(R.MC_CH_STATUS_STATE 5, 4)]).setChRetrain 5 true).setChPrev 5 2).put (R.MC_CH_STATUS_ORDINAL 5) 5) |> fun s =>
     { s with home := { chHeld := [(5 * 4096 + 64, some 0x77, none)] } }, by decide⟩

theorem test_met_ChannelTraining_17 :
    ∃ (ch : Ix16) (s : State), s.chRetrain ch = false :=
  ⟨5, wS [], by decide⟩

theorem test_met_ChannelTraining_18 :
    ∃ (ch : Ix16) (s : State), s.chRetrain ch = false :=
  ⟨5, wS [], by decide⟩

theorem test_met_ChannelTraining_19 :
    ∃ (ch : Ix16) (s : State), s.chRetrain ch = true ∧ Tbl.get (fun _ => 0) s.chan.fails ch < 2 :=
  ⟨5, (wS []).setChRetrain 5 true, by decide⟩

theorem test_met_ChannelTraining_20 :
    ∃ (ch : Ix16) (s : State), s.chRetrain ch = true ∧ Tbl.get (fun _ => 0) s.chan.fails ch = 2 ∧ s.NoHeld ∧ s.chState ch =
      chRETRAINING ∧ s.chan.san.op = 0 :=
  ⟨5, (((wS [(R.MC_CH_STATUS_STATE 5, 4)]).setChRetrain 5 true).setChPrev 5 2).setChFails 5 2, by decide⟩

theorem test_met_ChannelTraining_21 :
    ∃ (ch p : Ix16) (s : State), s.chRetrain ch = true ∧ Tbl.get (fun _ => 0) s.chan.fails ch = 2 ∧ s.NoHeld ∧ s.chState ch =
      chCOPY_TARGET ∧ s.get (R.MC_COPY_STATUS_PARTNER ch) = p ∧ ch ≠ p ∧ (s.marksOut p = false ∨ s.chPrev p % 16 ≠ chACTIVE) :=
  ⟨5, 9,
   ((wS
       [(R.MC_CH_STATUS_STATE 9, chCOPY_SOURCE), (R.MC_CH_STATUS_STATE 5, chCOPY_TARGET),
        (R.MC_COPY_STATUS_PARTNER 9, 5), (R.MC_COPY_STATUS_PARTNER 5, 9)]).setChRetrain 5 true).setChFails 5 2 |> fun s
     => s.setChPrev 9 2, by decide⟩

theorem test_met_ChannelTraining_22 :
    ∃ (ch p : Ix16) (s : State), s.chRetrain ch = true ∧ Tbl.get (fun _ => 0) s.chan.fails ch = 2 ∧ s.NoHeld ∧ s.chState ch =
      chCOPY_SOURCE ∧ s.get (R.MC_COPY_STATUS_PARTNER ch) = p ∧ ch ≠ p ∧ s.marksOut p = false :=
  ⟨5, 9,
   ((wS
       [(R.MC_CH_STATUS_STATE 5, chCOPY_SOURCE), (R.MC_CH_STATUS_STATE 9, chCOPY_TARGET),
        (R.MC_COPY_STATUS_PARTNER 9, 5), (R.MC_COPY_STATUS_PARTNER 5, 9), (R.MC_CH_STATUS_ORDINAL 5, 5),
        (R.MC_CH_CONFIG_CAP_GIB 5, 1), (R.MC_COPY_STATUS_POINTER 5, 0x40000000 - 128)]).setChRetrain 5 true).setChFails 5
     2, by decide⟩

theorem test_met_ChannelCopies_1 :
    ∃ (ch p : Ix16) (s : State), s.get R.PKG_MEMMAP_CHANNEL_MODE = 3 ∧ s.copyRuns = false ∧ s.spareReady = some (p : Nat) ∧
      (s.chState ch = chACTIVE ∨ s.chState ch = chAT_RISK) :=
  ⟨5, 9,
   wS
     [(R.PKG_MEMMAP_CHANNEL_MODE, 3), (R.PKG_MEMMAP_SPARE_CH, 9), (R.MC_CH_STATUS_STATE 9, chSPARE),
      (R.MC_CH_STATUS_STATE 5, chACTIVE)], by decide⟩

theorem test_met_ChannelCopies_2 :
    ∃ (ch p : Ix16) (s : State), s.get R.PKG_MEMMAP_CHANNEL_MODE = 3 ∧ s.copyRuns = false ∧ s.spareReady = some (p : Nat) ∧
      s.chState ch = chAT_RISK ∧ s.get (R.MC_COPY_CTL_AUTO ch) = 1 :=
  ⟨5, 9,
   wS
     [(R.MC_COPY_CTL_AUTO 5, 1), (R.PKG_MEMMAP_CHANNEL_MODE, 3), (R.PKG_MEMMAP_SPARE_CH, 9),
      (R.MC_CH_STATUS_STATE 9, chSPARE), (R.MC_CH_STATUS_STATE 5, chAT_RISK)], by decide⟩

theorem test_met_ChannelCopies_3 :
    ∃ (ch : Ix16) (s : State), (s.chState ch ≠ chAT_RISK ∨ s.get (R.MC_COPY_CTL_AUTO ch) ≠ 1 ∨ s.copyReject ch ≠ none) :=
  ⟨5, wS [], by decide⟩

theorem test_met_ChannelCopies_4 :
    ∃ (ch : Ix16) (s : State), s.copyReject ch = none ∧ s.chState ch = chRETRAINING :=
  ⟨5,
   wS
     [(R.PKG_MEMMAP_CHANNEL_MODE, 3), (R.PKG_MEMMAP_SPARE_CH, 9), (R.MC_CH_STATUS_STATE 9, chSPARE),
      (R.MC_CH_STATUS_STATE 5, chRETRAINING)], by decide⟩

theorem test_met_ChannelCopies_5 :
    ∃ (ch : Ix16) (c : Nat) (s : State), s.copyReject ch = some c :=
  ⟨5, 0, wS [], by decide⟩

theorem test_met_ChannelCopies_6 :
    ∃ (ch p : Ix16) (e : Errs) (l : Line) (s : State), s.chState ch = chCOPY_SOURCE ∧ s.chRetrain ch = false ∧ s.get
      (R.MC_COPY_STATUS_PARTNER ch) = p ∧ s.chRetrain p = false ∧ ch ≠ p ∧ s.get (R.MC_COPY_STATUS_POINTER ch) < s.chCap ch
      ∧ s.get (R.MC_COPY_STATUS_POINTER ch) % 64 = 0 ∧ s.home.chHeld = [] ∧ (s.chRead ch (s.get (R.MC_COPY_STATUS_POINTER
      ch)) e 0 0).1 = .good l :=
  ⟨5, 9, ⟨0, [], none⟩, 0x1234,
   (wS
      [(R.MC_CH_STATUS_STATE 5, chCOPY_SOURCE), (R.MC_CH_STATUS_STATE 9, chCOPY_TARGET), (R.MC_COPY_STATUS_PARTNER 5, 9),
       (R.MC_COPY_STATUS_PARTNER 9, 5), (R.MC_CH_CONFIG_CAP_GIB 5, 1), (R.MC_COPY_STATUS_POINTER 5, 128),
       (R.MC_CH_STATUS_ORDINAL 5, 4)]).setLineAt (chanCell 5 128) 0x1234, by decide⟩

theorem test_met_ChannelCopies_7 :
    ∃ (ch p : Ix16) (e : Errs) (m : Bool) (s : State), s.chState ch = chCOPY_SOURCE ∧ s.chRetrain ch = false ∧ s.get
      (R.MC_COPY_STATUS_PARTNER ch) = p ∧ s.chRetrain p = false ∧ ch ≠ p ∧ s.get (R.MC_COPY_STATUS_POINTER ch) < s.chCap ch
      ∧ s.get (R.MC_COPY_STATUS_POINTER ch) % 64 = 0 ∧ s.home.chHeld = [] ∧ (s.chRead ch (s.get (R.MC_COPY_STATUS_POINTER
      ch)) e 0 0).1 = .bad m :=
  ⟨5, 9, ⟨0, [], none⟩, true,
   (wS
      [(R.MC_CH_STATUS_STATE 5, chCOPY_SOURCE), (R.MC_CH_STATUS_STATE 9, chCOPY_TARGET), (R.MC_COPY_STATUS_PARTNER 5, 9),
       (R.MC_COPY_STATUS_PARTNER 9, 5), (R.MC_CH_CONFIG_CAP_GIB 5, 1), (R.MC_COPY_STATUS_POINTER 5, 128),
       (R.MC_CH_STATUS_ORDINAL 5, 4)]).markAt (chanCell 5 128), by decide⟩

theorem test_met_ChannelCopies_8 :
    ∃ (ch : Ix16) (e : Errs) (s : State), (s.chState ch ≠ chCOPY_SOURCE ∨ s.chRetrain ch = true ∨ s.chRetrain (s.get
      (R.MC_COPY_STATUS_PARTNER ch)) = true ∨ s.chCap ch ≤ s.get (R.MC_COPY_STATUS_POINTER ch)) :=
  ⟨5, ⟨0, [], none⟩, wS [], by decide⟩

theorem test_met_ChannelCopies_9 :
    ∃ (ch p : Ix16) (s : State), s.chState ch = chCOPY_SOURCE ∧ s.chRetrain ch = false ∧ s.get (R.MC_COPY_STATUS_PARTNER ch) = p
      ∧ s.chRetrain p = false ∧ ch ≠ p ∧ s.get (R.MC_COPY_STATUS_POINTER ch) = s.chCap ch ∧ s.marksOut p = false ∧
      s.home.chHeld = [] :=
  ⟨5, 9,
   wS
     [(R.MC_CH_STATUS_STATE 5, chCOPY_SOURCE), (R.MC_CH_STATUS_STATE 9, chCOPY_TARGET), (R.MC_COPY_STATUS_PARTNER 5, 9),
      (R.MC_COPY_STATUS_PARTNER 9, 5), (R.MC_CH_CONFIG_CAP_GIB 5, 1), (R.MC_COPY_STATUS_POINTER 5, 0x40000000),
      (R.MC_CH_STATUS_ORDINAL 5, 4)], by decide⟩

theorem test_met_ChannelCopies_10 :
    ∃ (ch : Ix16) (s : State), (s.chState ch ≠ chCOPY_SOURCE ∨ s.chRetrain ch = true ∨ s.chRetrain (s.get
      (R.MC_COPY_STATUS_PARTNER ch)) = true ∨ s.get (R.MC_COPY_STATUS_POINTER ch) ≠ s.chCap ch) :=
  ⟨5, wS [], by decide⟩

theorem test_met_ChannelCopies_11 :
    ∃ (ch : Ix16) (e : Errs) (s : State), ¬ s.patrolDue ch :=
  ⟨5, ⟨0, [], none⟩, wS [], by decide⟩

theorem test_met_ChannelCopies_12 :
    ∃ (ch : Ix16) (e : Errs) (s : State), s.patrolDue ch ∧ s.patrolFenced ch ∧ s.patrolAt ch + 64 < s.chCap ch :=
  ⟨5, ⟨0, [], none⟩,
   (wS
      [(R.MC_CH_STATUS_STATE 5, 2), (R.MC_CH_STATUS_ORDINAL 5, 31), (R.MC_CH_CONFIG_CAP_GIB 5, 1),
       (R.RAS_PATROL_CTL_DRAM_PERIOD, 12)]).put (R.MC_CH_STATUS_ORDINAL 5) 5 |> fun s =>
     { s with chan := { san := ⟨1, 1, 5 * 4096, 4096, 0, 0, false, true, 0, none⟩ } }, by decide⟩

theorem test_met_ChannelCopies_13 :
    ∃ (ch : Ix16) (e : Errs) (s : State), s.patrolDue ch ∧ ¬ s.patrolFenced ch ∧ s.patrolKept ch :=
  ⟨5, ⟨0, [], none⟩,
   ((wS
       [(R.MC_CH_STATUS_STATE 5, 2), (R.MC_CH_STATUS_ORDINAL 5, 31), (R.MC_CH_CONFIG_CAP_GIB 5, 1),
        (R.RAS_PATROL_CTL_DRAM_PERIOD, 12)]).put (R.MC_CH_STATUS_ORDINAL 5) 5).setChRetrain 5 true, by decide⟩

theorem test_met_ChannelCopies_14 :
    ∃ (ch : Ix16) (e : Errs) (l : Line) (s : State), s.patrolDue ch ∧ ¬ s.patrolFenced ch ∧ ¬ s.patrolKept ch ∧ s.patrolAt ch +
      64 < s.chCap ch ∧ s.judge ch (s.patrolAt ch) e = .clean l ∧ s.chState ch ≠ chFAILED :=
  ⟨5, ⟨0, [], none⟩, 0,
   wS
     [(R.MC_CH_STATUS_STATE 5, 2), (R.MC_CH_STATUS_ORDINAL 5, 31), (R.MC_CH_CONFIG_CAP_GIB 5, 1),
      (R.RAS_PATROL_CTL_DRAM_PERIOD, 12)], by decide⟩

theorem test_met_ChannelCopies_15 :
    ∃ (ch : Ix16) (e : Errs) (l : Line) (d : Nat) (s : State), s.patrolDue ch ∧ ¬ s.patrolFenced ch ∧ ¬ s.patrolKept ch ∧
      s.patrolAt ch + 64 < s.chCap ch ∧ (s.chRead ch (s.patrolAt ch) e (s.patrolGa ch) 0).1 = .good l ∧ s.judge ch
      (s.patrolAt ch) e = .corrected d false true ∧ s.patrolAt ch % 64 = 0 :=
  ⟨5, ⟨0, [(3, 1, 7)], none⟩, 0, 3,
   wS
     [(R.MC_CH_STATUS_STATE 5, 2), (R.MC_CH_STATUS_ORDINAL 5, 31), (R.MC_CH_CONFIG_CAP_GIB 5, 1),
      (R.RAS_PATROL_CTL_DRAM_PERIOD, 12)], by decide⟩

theorem test_met_ChannelCopies_16 :
    ∃ (ch : Ix16) (e : Errs) (m : Bool) (s : State), s.patrolDue ch ∧ ¬ s.patrolFenced ch ∧ ¬ s.patrolKept ch ∧ s.patrolAt ch +
      64 < s.chCap ch ∧ (s.chRead ch (s.patrolAt ch) e (s.patrolGa ch) 0).1 = .bad m ∧ s.judge ch (s.patrolAt ch) e ≠
      .marker :=
  ⟨5, ⟨0, [(3, 1, 7), (4, 2, 9)], none⟩, false,
   wS
     [(R.MC_CH_STATUS_STATE 5, 2), (R.MC_CH_STATUS_ORDINAL 5, 31), (R.MC_CH_CONFIG_CAP_GIB 5, 1),
      (R.RAS_PATROL_CTL_DRAM_PERIOD, 12)], by decide⟩

theorem test_met_SanitiseAndReads_1 :
    ∃ (e : JEnt) (s : State), s.chan.san.op = 2 ∧ s.chan.san.phase = sanPHASE_OVERWRITE ∧ s.chan.san.len ≤ s.chan.san.next ∧
      s.sanLocks = false ∧ s.chan.san.fails = 0 ∧ s.chan.san.ent = some e :=
  ⟨⟨1, 1, 1, 0, 0, 4096, 0, 0, 0, 0, 7⟩,
   { wS [] with chan := { san := ⟨2, 1, 0, 4096, 0, 4096, false, true, 0, some ⟨1, 1, 1, 0, 0, 4096, 0, 0, 0, 0, 7⟩⟩ } },
   by decide⟩

theorem test_met_SanitiseAndReads_2 :
    ∃ (e : JEnt) (s : State), s.chan.san.op = 1 ∧ s.chan.san.phase = sanPHASE_OVERWRITE ∧ s.chan.san.len ≤ s.chan.san.next ∧
      s.sanLocks = false ∧ s.chan.san.ent = some e :=
  ⟨⟨1, 1, 1, 0, 0, 4096, 0, 0, 0, 0, 7⟩,
   { wS [] with chan := { san := ⟨1, 1, 0, 4096, 0, 4096, false, true, 0, some ⟨1, 1, 1, 0, 0, 4096, 0, 0, 0, 0, 7⟩⟩ } },
   by decide⟩

theorem test_met_SanitiseAndReads_3 :
    ∃ (e : JEnt) (s : State), s.chan.san.op = 1 ∧ s.chan.san.phase = sanPHASE_VERIFY ∧ s.chan.san.len ≤ s.chan.san.next ∧
      s.sanLocks = false ∧ s.chan.san.ent = some e :=
  ⟨⟨1, 1, 1, 0, 0, 4096, 0, 0, 0, 0, 7⟩,
   { wS [] with chan := { san := ⟨1, 2, 0, 4096, 0, 4096, false, true, 2, some ⟨1, 1, 1, 0, 0, 4096, 0, 0, 0, 0, 7⟩⟩ } },
   by decide⟩

theorem test_met_SanitiseAndReads_4 :
    ∃ (s : State), (s.chan.san.op = 0 ∨ s.chan.san.next < s.sanSize ∨ s.sanLocks = true ∨ (s.chan.san.op = 3 ∧ s.chan.san.phase
      ≠ sanPHASE_VERIFY)) :=
  ⟨wS [], by decide⟩

theorem test_met_SanitiseAndReads_5 :
    ∃ (e : JEnt) (s : State), s.chan.san.phase = sanPHASE_OVERWRITE ∧ s.chan.san.ent = some e :=
  ⟨⟨1, 1, 1, 0, 0, 4096, 0, 0, 0, 0, 7⟩,
   { wS [] with chan := { san := ⟨1, 1, 0, 4096, 0, 64, false, true, 0, some ⟨1, 1, 1, 0, 0, 4096, 0, 0, 0, 0, 7⟩⟩ } },
   by decide⟩

theorem test_met_SanitiseAndReads_6 :
    ∃ (s : State), s.chan.san.phase ≠ sanPHASE_OVERWRITE :=
  ⟨wS [], by decide⟩

theorem test_met_SanitiseAndReads_7 :
    ∃ (e : Errs) (n h : Nat) (s : State), s.sanPass sanPHASE_OVERWRITE ∧ n = sliceOf s.sanD ∧ s.lockOf n s.sanLine = none ∧
      s.freeSlot n = some h ∧ (s.homeView n s.sanD).kind = 0 ∧ s.isBcast n s.sanD = false ∧ s.storeStops s.sanD = false ∧
      s.home.chHeld = [] ∧ s.home.toks = [] ∧ s.home.wbHeld = [] ∧ s.sanD < 2 ^ 43 ∧ s.chState (s.dramPlace s.sanD).1 =
      chACTIVE :=
  ⟨⟨0, [], none⟩, sliceOf 4096, 0,
   (wS [(R.MC_CH_STATUS_STATE 1, 2), (R.MC_CH_STATUS_ORDINAL 1, 1)]) |> fun s =>
     { s.setLineAt (chanCell 1 0) 0x55 with chan := { san := ⟨1, 1, 4096, 4096, 0, 0, false, true, 0, none⟩ } }, by decide⟩

theorem test_met_SanitiseAndReads_8 :
    ∃ (e : Errs) (n h d : Nat) (s : State), s.sanPass sanPHASE_OVERWRITE ∧ n = sliceOf s.sanD ∧ s.lockOf n s.sanLine = none ∧
      s.freeSlot n = some h ∧ s.home.chHeld = [] ∧ s.home.toks = [] ∧ s.home.wbHeld = [] ∧ s.homeView n s.sanD = ⟨2, maskOf
      d, some d⟩ ∧ s.isBcast n s.sanD = false ∧ d < 12 ∧ s.reachMask (maskOf d) = maskOf d ∧ (s.dieCtl d).lost = false :=
  ⟨⟨0, [], none⟩, sliceOf 4096, 0, 2,
   (({ wS [] with chan := { san := ⟨1, 1, 4096, 4096, 0, 0, false, true, 0, none⟩ } } : State)).setDirE (sliceOf 4096)
     (dirSet 4096) 2 ⟨mesaTag 4096, 2, 4, 2, false, false⟩, by decide⟩

theorem test_met_SanitiseAndReads_9 :
    ∃ (e : Errs) (n : Nat) (s : State), s.sanPass sanPHASE_OVERWRITE ∧ n = sliceOf s.sanD ∧ ((s.lockOf n s.sanLine).isSome =
      true ∨ s.freeSlot n = none) :=
  ⟨⟨0, [], none⟩, sliceOf 4096,
   (({ wS [] with chan := { san := ⟨1, 1, 4096, 4096, 0, 0, false, true, 0, none⟩ } } : State)).setLock (sliceOf 4096) 4
     (some
        ({ line := 64, proxy := false, work := .request,
           req := { vc := 0, opc := 0, srcPkg := 0, srcAgent := 1, dstPkg := 0, dstAgent := 0x15, txn := 9, addr := 0x1000 },
           phase := .memory })), by decide⟩

theorem test_met_SanitiseAndReads_10 :
    ∃ (e : Errs) (n : Nat) (s : State), s.sanPass sanPHASE_VERIFY ∧ n = sliceOf s.sanD ∧ s.storeHolds s.sanD = false ∧
      (s.storeRead s.sanD e (s.sanLine * 64) s.chan.san.mcid).1 = .good 0 :=
  ⟨⟨0, [], none⟩, sliceOf 4096,
   (wS [(R.MC_CH_STATUS_STATE 1, 2), (R.MC_CH_STATUS_ORDINAL 1, 1)]) |> fun s =>
     { s with chan := { san := ⟨1, 2, 4096, 4096, 0, 0, true, true, 0, none⟩ } }, by decide⟩

theorem test_met_SanitiseAndReads_11 :
    ∃ (e : Errs) (n : Nat) (s : State), s.sanPass sanPHASE_VERIFY ∧ n = sliceOf s.sanD ∧ s.storeHolds s.sanD = false ∧
      (s.storeRead s.sanD e (s.sanLine * 64) s.chan.san.mcid).1 ≠ .good 0 ∧ s.chan.san.again = true :=
  ⟨⟨0, [], none⟩, sliceOf 4096,
   (wS [(R.MC_CH_STATUS_STATE 1, 2), (R.MC_CH_STATUS_ORDINAL 1, 1)]) |> fun s =>
     { s.setLineAt (chanCell 1 0) 0x55 with chan := { san := ⟨1, 2, 4096, 4096, 0, 0, true, true, 0, none⟩ } }, by decide⟩

theorem test_met_SanitiseAndReads_12 :
    ∃ (e : Errs) (n : Nat) (s : State), s.sanPass sanPHASE_VERIFY ∧ n = sliceOf s.sanD ∧ s.storeHolds s.sanD = false ∧
      (s.storeRead s.sanD e (s.sanLine * 64) s.chan.san.mcid).1 ≠ .good 0 ∧ s.chan.san.again = false ∧ s.sanD < 2 ^ 43 ∧
      s.chState (s.dramPlace s.sanD).1 = chACTIVE :=
  ⟨⟨0, [], none⟩, sliceOf 4096,
   (wS [(R.MC_CH_STATUS_STATE 1, 2), (R.MC_CH_STATUS_ORDINAL 1, 1)]) |> fun s =>
     { s.setLineAt (chanCell 1 0) 0x55 with chan := { san := ⟨1, 2, 4096, 4096, 0, 0, false, true, 0, none⟩ } }, by decide⟩

theorem test_met_SanitiseAndReads_13 :
    ∃ (e : Errs) (s : State), (s.chan.san.op = 0 ∨ (s.chan.san.op ≠ 3 ∧ s.chan.san.len ≤ s.chan.san.next)) :=
  ⟨⟨0, [], none⟩, wS [], by decide⟩

theorem test_met_SanitiseAndReads_14 :
    ∃ (l : Nat) (e : ExtraE) (n : Ix16) (r : Errs) (s : State), (s.extra n).find? (fun x => x.line == l) = some e ∧ e.wait = []
      ∧ s.storeHolds (l * 64) = false :=
  ⟨64, ⟨64, 0, 0, []⟩, (Fin.ofNat 16 (sliceOf 4096)), ⟨0, [], none⟩,
   (wS [(R.MC_CH_STATUS_STATE 1, 2), (R.MC_CH_STATUS_ORDINAL 1, 1)]).setExtra (sliceOf 4096) [⟨64, 0, 0, []⟩], by decide⟩

theorem test_met_SanitiseAndReads_15 :
    ∃ (l : Nat) (n : Ix16) (r : Errs) (s : State), ((s.extra n).any (fun x => x.line == l) = false ∨ s.storeHolds (l * 64) =
      true) :=
  ⟨64, 5, ⟨0, [], none⟩, wS [], by decide⟩

theorem test_met_SanitiseAndReads_16 :
    ∃ (n : Ix16) (h : Fin 512) (x : HTxn) (l : Line) (e : Errs) (s : State), s.lock n h = some x ∧ x.phase = .memory ∧ x.proxy =
      false ∧ x.alloc = false ∧ s.extra n = [] ∧ s.storeHolds (s.dOfLine x.line) = false ∧ s.mcAdmits (s.dOfLine x.line)
      x.req.rcid = true ∧ (s.storeRead (s.dOfLine x.line) e (x.line * 64) x.req.mcid).1 = .good l ∧ x.work = .request ∧
      x.req.opc = opRD_CUR ∧ x.req.cmo = 0 ∧ x.req.srcPkg = s.pkgId ∧ x.memOk = true ∧ x.closed = false ∧ x.wasForwarded =
      false ∧ s.home.toks = [] ∧ s.home.wbHeld = [] ∧ s.home.chHeld = [] :=
  ⟨5, 4,
   { line := 0x1000, proxy := false, work := .request,
     req := { vc := 0, opc := 2, srcPkg := 0, srcAgent := 1, dstPkg := 0, dstAgent := 0x15, txn := 9, addr := 0x1000 },
     phase := .memory, memOk := true }, 0, ⟨0, [], none⟩,
   ((wS []).setLock 5 4
      (some
         { line := 0x1000, proxy := false, work := .request,
           req := { vc := 0, opc := 2, srcPkg := 0, srcAgent := 1, dstPkg := 0, dstAgent := 0x15, txn := 9, addr := 0x1000 },
           phase := .memory, memOk := true })).setBal (qosMc ((wS []).dramPlace ((wS []).dOfLine 0x1000)).1) 0 10000,
   by decide⟩

theorem test_met_SanitiseAndReads_17 :
    ∃ (n : Ix16) (h : Fin 512) (e : Errs) (s : State), s.lock n h = none :=
  ⟨5, 4, ⟨0, [], none⟩, wS [], by decide⟩

theorem test_met_SanitiseAndReads_18 :
    ∃ (n : Ix16) (h : Fin 512) (x : HTxn) (e : Errs) (s : State), s.lock n h = some x ∧ (x.phase ≠ .memory ∨ x.proxy = true ∨
      s.storeHolds (s.dOfLine x.line) = true ∨ (s.extra n).any (fun y => y.wait.contains h.val) = true ∨ s.mcAdmits
      (s.dOfLine x.line) x.req.rcid = false) :=
  ⟨5, 4,
   { line := 0x1000, proxy := false, work := .request,
     req := { vc := 0, opc := 2, srcPkg := 0, srcAgent := 1, dstPkg := 0, dstAgent := 0x15, txn := 9, addr := 0x1000 },
     phase := .acks }, ⟨0, [], none⟩,
   (wS []).setLock 5 4
     (some
        { line := 0x1000, proxy := false, work := .request,
          req := { vc := 0, opc := 2, srcPkg := 0, srcAgent := 1, dstPkg := 0, dstAgent := 0x15, txn := 9, addr := 0x1000 },
          phase := .acks }), by decide⟩

theorem test_met_PassFlits_1 :
    ∃ (e : End) (p : Port) (f : Flit) (m : Msg) (s : State), s.passState p = passACTIVE ∧ silentFlit f ∧ f.typ = 0 ∧ f.msgs =
      [.ose m] ∧ slotStarts 0 f.msgs = some f.slotStart ∧ (s.pEnd (1 - endNum e) p).replay.contains ⟨f.seq, f.dseq, f.msgs⟩
      = true ∧ (s.pEnd (endNum e) p).rxNext = f.seq ∧ (s.strm (p / 2) (endNum e)).wait = [] ∧ (s.strm (p / 2) (endNum e)).rx
      = f.dseq ∧ s.net.contains m = false :=
  ⟨.basin, 6,
   { typ := 0, seq := 3, dseq := 9, slotStart := 1,
     msgs :=
       [.ose { vc := 0, opc := 0, srcPkg := 0, srcAgent := 2, dstPkg := 0, dstAgent := 0x15, txn := 9, addr := 0x1000 }] },
   { vc := 0, opc := 0, srcPkg := 0, srcAgent := 2, dstPkg := 0, dstAgent := 0x15, txn := 9, addr := 0x1000 },
   ((((((wS [(R.PASS_STATUS_STATE 0 6, 8)]).setPEnd 1 6
          { replay :=
              [⟨3, 9,
                [.ose
                   { vc := 0, opc := 0, srcPkg := 0, srcAgent := 2, dstPkg := 0, dstAgent := 0x15, txn := 9,
                     addr := 0x1000 }]⟩], txMap := List.range 64 })).setPEnd 0 6 { rxNext := 3 })).setStrm 3 0
      { rx := 9 }), by decide⟩

theorem test_met_PassFlits_2 :
    ∃ (e : End) (p : Port) (f : Flit) (m : Msg) (s : State), s.passState p = passACTIVE ∧ silentFlit f ∧ f.typ = 0 ∧ f.msgs =
      [.ose m] ∧ slotStarts 0 f.msgs = some f.slotStart ∧ (s.pEnd (1 - endNum e) p).replay.contains ⟨f.seq, f.dseq, f.msgs⟩
      = true ∧ (s.pEnd (endNum e) p).rxNext = f.seq ∧ (s.strm (p / 2) (endNum e)).wait = [] ∧ (s.strm (p / 2) (endNum e)).rx
      = f.dseq ∧ s.net.contains m = true :=
  ⟨.basin, 6,
   { typ := 0, seq := 3, dseq := 9, slotStart := 1,
     msgs :=
       [.ose { vc := 0, opc := 0, srcPkg := 0, srcAgent := 2, dstPkg := 0, dstAgent := 0x15, txn := 9, addr := 0x1000 }] },
   { vc := 0, opc := 0, srcPkg := 0, srcAgent := 2, dstPkg := 0, dstAgent := 0x15, txn := 9, addr := 0x1000 },
   { ((((((wS [(R.PASS_STATUS_STATE 0 6, 8)]).setPEnd 1 6
            { replay :=
                [⟨3, 9,
                  [.ose
                     { vc := 0, opc := 0, srcPkg := 0, srcAgent := 2, dstPkg := 0, dstAgent := 0x15, txn := 9,
                       addr := 0x1000 }]⟩], txMap := List.range 64 })).setPEnd 0 6 { rxNext := 3 })).setStrm 3 0
        { rx := 9 }) with
       net := [{ vc := 0, opc := 0, srcPkg := 0, srcAgent := 2, dstPkg := 0, dstAgent := 0x15, txn := 9, addr := 0x1000 }] },
   by decide⟩

theorem test_met_PassFlits_3 :
    ∃ (e : End) (p : Port) (f : Flit) (m : Msg) (s : State), s.passState p = passACTIVE ∧ silentFlit f ∧ f.typ = 0 ∧ f.msgs =
      [.ose m] ∧ slotStarts 0 f.msgs = some f.slotStart ∧ f.seq = (s.pEnd (1 - endNum e) p).txNext ∧ (s.pEnd (1 - endNum e)
      p).replay = [] ∧ (s.pEnd (1 - endNum e) p).moved = [] ∧ f.dseq = ((s.strm (p / 2) (endNum e))).tx ∧ s.mayCarry (1 -
      endNum e) p f.msgs (.ose m) = true ∧ chanSlots f.msgs m.vc ≤ (s.pEnd (1 - endNum e) p).credits m.vc ∧ m.vc < 6 ∧
      (s.pEnd (endNum e) p).rxNext = f.seq ∧ (s.strm (p / 2) (endNum e)).wait = [] ∧ (s.strm (p / 2) (endNum e)).rx = f.dseq
      ∧ (s.net.contains m = true ∧ (endNum e = 0 ∨ (12 ≤ m.srcAgent ∧ m.srcPkg = s.pkgId))) :=
  ⟨.basin, 6,
   { typ := 0, seq := 3, dseq := 9, slotStart := 1,
     msgs :=
       [.ose { vc := 0, opc := 0, srcPkg := 0, srcAgent := 3, dstPkg := 0, dstAgent := 0x15, txn := 9, addr := 0x1000 }] },
   { vc := 0, opc := 0, srcPkg := 0, srcAgent := 3, dstPkg := 0, dstAgent := 0x15, txn := 9, addr := 0x1000 },
   { ((((((wS [(R.PASS_STATUS_STATE 0 6, 8)]).setPEnd 1 6 { txNext := 3, base := [(0, 9)], txMap := List.range 64 })).setPEnd
          0 6 { rxNext := 3 })).setStrm 3 0 { rx := 9, tx := 9 }) with
       net := [{ vc := 0, opc := 0, srcPkg := 0, srcAgent := 3, dstPkg := 0, dstAgent := 0x15, txn := 9, addr := 0x1000 }] },
   by decide⟩

theorem test_met_PassFlits_4 :
    ∃ (e : End) (p : Port) (f : Flit) (s : State), s.passState p = passACTIVE ∧ silentFlit f ∧ f.typ = 0 ∧ slotStarts 0 f.msgs =
      some f.slotStart ∧ (s.pEnd (1 - endNum e) p).replay.contains ⟨f.seq, f.dseq, f.msgs⟩ = true ∧ (s.pEnd (endNum e)
      p).rxNext ≠ f.seq :=
  ⟨.basin, 6,
   { typ := 0, seq := 3, dseq := 9, slotStart := 1,
     msgs :=
       [.ose { vc := 0, opc := 0, srcPkg := 0, srcAgent := 2, dstPkg := 0, dstAgent := 0x15, txn := 9, addr := 0x1000 }] },
   ((wS [(R.PASS_STATUS_STATE 0 6, 8)]).setPEnd 1 6
      { replay :=
          [⟨3, 9,
            [.ose { vc := 0, opc := 0, srcPkg := 0, srcAgent := 2, dstPkg := 0, dstAgent := 0x15, txn := 9, addr := 0x1000 }]⟩],
        txMap := List.range 64 }), by decide⟩

theorem test_met_PassFlits_5 :
    ∃ (e : End) (p : Port) (f : Flit) (s : State), s.passState p = passACTIVE ∧ silentFlit f ∧ (f.typ = 3 ∨ (f.typ = 0 ∧
      slotStarts 0 f.msgs ≠ some f.slotStart)) ∧ (s.pEnd (1 - endNum e) p).replay.contains ⟨f.seq, f.dseq, f.msgs⟩ = true ∧
      (s.pEnd (endNum e) p).rxNext = f.seq ∧ f.msgs.length = 1 ∧ (s.strm (p / 2) (endNum e)).wait = [] ∧ (s.strm (p / 2)
      (endNum e)).rx = f.dseq :=
  ⟨.basin, 6,
   { typ := 0, seq := 3, dseq := 9, slotStart := 3,
     msgs :=
       [.ose { vc := 0, opc := 0, srcPkg := 0, srcAgent := 2, dstPkg := 0, dstAgent := 0x15, txn := 9, addr := 0x1000 }],
     err := [] },
   ((((((wS [(R.PASS_STATUS_STATE 0 6, 8)]).setPEnd 1 6
          { replay :=
              [⟨3, 9,
                [.ose
                   { vc := 0, opc := 0, srcPkg := 0, srcAgent := 2, dstPkg := 0, dstAgent := 0x15, txn := 9,
                     addr := 0x1000 }]⟩], txMap := List.range 64 })).setPEnd 0 6 { rxNext := 3 })).setStrm 3 0
      { rx := 9 }), by decide⟩

theorem test_met_PassFlits_6 :
    ∃ (e : End) (p : Port) (f : Flit) (s : State), s.passState p = passACTIVE ∧ f.ackV = false ∧ f.nak = false ∧ f.cr0Vc = 7 ∧
      f.cr1Vc = 7 ∧ f.cr1Total = 0 ∧ f.typ = 0 ∧ flitHeard (s.pEnd (1 - endNum e) p).txMap f [] = none ∧ (s.pEnd (1 - endNum
      e) p).replay.contains ⟨f.seq, f.dseq, f.msgs⟩ = true ∧ (s.pEnd (endNum e) p).naks < 3 ∧ (s.charge 8 (flitBucket
      (endNum e) p) false).2 = false :=
  ⟨.vale, 6,
   { typ := 0, seq := 3, dseq := 9, slotStart := 1,
     msgs :=
       [.ose { vc := 0, opc := 0, srcPkg := 0, srcAgent := 2, dstPkg := 0, dstAgent := 0x15, txn := 9, addr := 0x1000 }],
     err := [(5, 1)] },
   ((wS [(R.PASS_STATUS_STATE 0 6, 8)]).setPEnd 0 6
      { replay :=
          [⟨3, 9,
            [.ose { vc := 0, opc := 0, srcPkg := 0, srcAgent := 2, dstPkg := 0, dstAgent := 0x15, txn := 9, addr := 0x1000 }]⟩],
        txMap := List.range 64 }), by decide⟩

theorem test_met_PassFlits_7 :
    ∃ (e : End) (p : Port) (f : Flit) (s : State), (s.passState p ≠ passACTIVE ∨ s.headerOf (1 - endNum e) p f = false ∨ (f.typ
      ≠ 0 ∧ flitBroken f = false)) :=
  ⟨.basin, 6,
   { typ := 0, seq := 3, dseq := 9, slotStart := 1,
     msgs :=
       [.ose { vc := 0, opc := 0, srcPkg := 0, srcAgent := 2, dstPkg := 0, dstAgent := 0x15, txn := 9, addr := 0x1000 }] },
   wS [], by decide⟩

theorem test_met_PassFlits_8 :
    ∃ (e : End) (p : Port) (f : Flit) (s : State), s.passState p = passACTIVE ∧ s.headerOf (1 - endNum e) p f = true ∧ f.err =
      [] ∧ f.nak = false ∧ f.cr0Vc = 7 ∧ f.cr1Vc = 7 ∧ f.ackV = true ∧ (s.pEnd (endNum e) p).replay.any (fun x => x.seq ==
      f.ackSeq) = true :=
  ⟨.basin, 6, { typ := 2, ackV := true, ackSeq := 3 },
   ((((wS [(R.PASS_STATUS_STATE 0 6, 8)]).setPEnd 0 6
        { replay :=
            [⟨3, 9,
              [.ose
                 { vc := 0, opc := 0, srcPkg := 0, srcAgent := 2, dstPkg := 0, dstAgent := 0x15, txn := 9, addr := 0x1000 }]⟩,
             ⟨4, 10, []⟩], txMap := List.range 64 })).setPEnd 1 6 { rxNext := 4, txMap := List.range 64 }), by decide⟩

theorem test_met_PassFlits_9 :
    ∃ (e : End) (p : Port) (f : Flit) (s : State), s.passState p = passACTIVE ∧ s.headerOf (1 - endNum e) p f = true ∧ f.err =
      [] ∧ f.nak = false ∧ f.ackV = false ∧ f.cr0Vc < 6 ∧ f.cr1Vc = 7 :=
  ⟨.basin, 6, { typ := 2, cr0Vc := 2, cr0Total := 11 },
   ((wS [(R.PASS_STATUS_STATE 0 6, 8)]).setPEnd 1 6 { freed := [(2, 11)], txMap := List.range 64 }), by decide⟩

theorem test_met_PassFlits_10 :
    ∃ (e : End) (p : Port) (f : Flit) (s : State), s.passState p = passACTIVE ∧ s.headerOf (1 - endNum e) p f = true ∧ f.err =
      [] ∧ f.cr0Vc = 7 ∧ f.cr1Vc = 7 ∧ f.ackV = true ∧ f.nak = true ∧ (s.pEnd (endNum e) p).replay.any (fun x => x.seq ==
      f.ackSeq) = true :=
  ⟨.basin, 6, { typ := 2, ackV := true, ackSeq := 3, nak := true },
   ((((wS [(R.PASS_STATUS_STATE 0 6, 8)]).setPEnd 0 6
        { replay :=
            [⟨3, 9,
              [.ose
                 { vc := 0, opc := 0, srcPkg := 0, srcAgent := 2, dstPkg := 0, dstAgent := 0x15, txn := 9, addr := 0x1000 }]⟩,
             ⟨4, 10, []⟩], txMap := List.range 64 })).setPEnd 1 6 { rxNext := 4, nak := true, txMap := List.range 64 }),
   by decide⟩

theorem test_met_PassFlits_11 :
    ∃ (e : End) (p : Port) (f : Flit) (s : State), (s.passState p ≠ passACTIVE ∨ s.headerOf (1 - endNum e) p f = false) :=
  ⟨.basin, 6, { typ := 2 }, wS [], by decide⟩

theorem test_met_PassFlits_12 :
    ∃ (e : End) (p : Port) (s : State), s.passState p = passACTIVE ∧ 0 < (s.pEnd (endNum e) p).replay.length :=
  ⟨.basin, 6,
   ((wS [(R.PASS_STATUS_STATE 0 6, 8)]).setPEnd 0 6
      { replay :=
          [⟨3, 9,
            [.ose { vc := 0, opc := 0, srcPkg := 0, srcAgent := 2, dstPkg := 0, dstAgent := 0x15, txn := 9, addr := 0x1000 }]⟩] }),
   by decide⟩

theorem test_met_PassFlits_13 :
    ∃ (e : End) (p : Port) (s : State), (s.passState p ≠ passACTIVE ∨ (s.pEnd (endNum e) p).replay = []) :=
  ⟨.basin, 6, wS [(R.PASS_STATUS_STATE 0 6, 8)], by decide⟩

theorem test_met_PassFlits_14 :
    ∃ (e : End) (p : Port) (s : State), True :=
  ⟨.vale, 6, ((wS [(R.PASS_STATUS_STATE 0 6, 8)]).setPEnd 1 6 { ctl := [{ ctype := 6 }] }), by decide⟩

theorem test_met_PassFlits_15 :
    ∃ (e : End) (p : Port) (f : Flit) (crcs : List Nat) (l : Fin 68) (s : State), s.ControlAt p f ∧ crcs.length = 68 ∧ crcs.all
      (fun c => decide (c < 65536)) = true ∧ ((∀ k : Fin 68, k ≠ l → Tbl.get (fun _ => 0) (s.pEnd (endNum e) p).diff k = 0))
      ∧ Tbl.get (fun _ => 0) (s.pEnd (endNum e) p).diff l ≠ 0 ∧ Tbl.get (fun _ => 0) (s.pEnd (endNum e) p).diff l < 65536 ∧
      (s.pEnd (endNum e) p).rxGood.testBit l = true ∧ (s.pEnd (endNum e) p).skip = false ∧ (s.charge 7 (laneBucket (endNum
      e) p l) false).2 = false :=
  ⟨.vale, 6, { typ := 2 }, (List.replicate 68 0x1234), 33,
   ((((wS [(R.PASS_STATUS_STATE 0 6, 8)]).setPEnd 1 6
        { rxGood := lanes68, txMap := List.range 64, rxMap := List.range 64, diff := [(33, 7)] })).setPEnd 0 6
      { txMap := List.range 64, rxMap := List.range 64, txGood := lanes68 }), by decide⟩

theorem test_met_PassFlits_16 :
    ∃ (p : Port) (f : Flit) (crcs : List Nat) (l : Fin 68) (s : State), s.ControlAt p f ∧ crcs.length = 68 ∧ crcs.all (fun c =>
      decide (c < 65536)) = true ∧ ((∀ k : Fin 68, k ≠ l → Tbl.get (fun _ => 0) (s.pEnd 1 p).diff k = 0)) ∧ Tbl.get (fun _
      => 0) (s.pEnd 1 p).diff l ≠ 0 ∧ Tbl.get (fun _ => 0) (s.pEnd 1 p).diff l < 65536 ∧ (s.pEnd 1 p).rxGood.testBit l =
      true ∧ (s.pEnd 1 p).skip = false ∧ (s.charge 7 (laneBucket 1 p l) false).2 = true ∧ (s.pEnd 1 p).failed.testBit l =
      false :=
  ⟨6, { typ := 2 }, (List.replicate 68 0x1234), 33,
   (((((wS [(R.PASS_STATUS_STATE 0 6, 8)]).setPEnd 1 6
         { rxGood := lanes68, txMap := List.range 64, rxMap := List.range 64, diff := [(33, 7)] })).setPEnd 0 6
       { txMap := List.range 64, rxMap := List.range 64, txGood := lanes68 })).setBucket 7 (laneBucket 1 6 33)
     { level := 254, run := 2 }, by decide⟩

theorem test_met_PassFlits_17 :
    ∃ (p : Port) (f : Flit) (crcs : List Nat) (l : Fin 68) (s : State), s.ControlAt p f ∧ crcs.length = 68 ∧ crcs.all (fun c =>
      decide (c < 65536)) = true ∧ ((∀ k : Fin 68, k ≠ l → Tbl.get (fun _ => 0) (s.pEnd 0 p).diff k = 0)) ∧ Tbl.get (fun _
      => 0) (s.pEnd 0 p).diff l ≠ 0 ∧ Tbl.get (fun _ => 0) (s.pEnd 0 p).diff l < 65536 ∧ (s.pEnd 0 p).rxGood.testBit l =
      true ∧ (s.pEnd 0 p).skip = false ∧ (s.charge 7 (laneBucket 0 p l) false).2 = true ∧ (s.pEnd 0 p).failed.testBit l =
      false ∧ (s.pPort p).up.testBit l = false ∧ 16 ≤ popCount 68 (PPort.goodUp
      { s.pPort p with up := setBits (s.pPort p).up l 1 1 }) :=
  ⟨6, { typ := 2 }, (List.replicate 68 0x1234), 33,
   (((((((wS [(R.PASS_STATUS_STATE 0 6, 8)]).setPEnd 0 6
           { rxGood := lanes68, txMap := List.range 64, rxMap := List.range 64, diff := [(33, 7)] })).setPEnd 1 6
         { txMap := List.range 64, rxMap := List.range 64, txGood := lanes68 })).setBucket 7 (laneBucket 0 6 33)
       { level := 254, run := 2 }).setPPort 6 { tUp := lanes68, tDown := lanes68 }), by decide⟩

theorem test_met_PassFlits_18 :
    ∃ (e : End) (p : Port) (f : Flit) (crcs : List Nat) (s : State), s.ControlAt p f ∧ crcs.length = 68 ∧ crcs.all (fun c =>
      decide (c < 65536)) = true ∧ (s.pEnd (endNum e) p).skip = true :=
  ⟨.vale, 6, { typ := 2 }, (List.replicate 68 0x1234),
   ((((wS [(R.PASS_STATUS_STATE 0 6, 8)]).setPEnd 1 6
        { rxGood := lanes68, txMap := List.range 64, rxMap := List.range 64, skip := true, diff := [(33, 7)] })).setPEnd
      0 6 { txMap := List.range 64, rxMap := List.range 64, txGood := lanes68 }), by decide⟩

theorem test_met_PassFlits_19 :
    ∃ (e : End) (p : Port) (f : Flit) (crcs : List Nat) (s : State), s.passState p = passACTIVE ∧ f.ackV = false ∧ f.nak = false
      ∧ f.cr0Vc = 7 ∧ f.cr1Vc = 7 ∧ f.cr1Total = 0 ∧ flitHeard (s.pEnd (1 - endNum e) p).txMap
      { f with typ := 1, seq := 0, dseq := 0, slotStart := 0, msgs := [], ctype := 1 } (crcs.flatMap (leBytes 2)) = none ∧
      (s.pEnd (endNum e) p).naks < 3 :=
  ⟨.vale, 6, { typ := 2, err := [(5, 1)] }, (List.replicate 68 0x1234),
   ((((wS [(R.PASS_STATUS_STATE 0 6, 8)]).setPEnd 1 6
        { rxGood := lanes68, txMap := List.range 64, rxMap := List.range 64, diff := [(33, 7)] })).setPEnd 0 6
      { txMap := List.range 64, rxMap := List.range 64, txGood := lanes68 }), by decide⟩

theorem test_met_PassFlits_20 :
    ∃ (e : End) (p : Port) (f : Flit) (crcs : List Nat) (s : State), s.passState p ≠ passACTIVE :=
  ⟨.vale, 6, { typ := 2 }, (List.replicate 68 0x1234), wS [], by decide⟩

theorem test_met_PassFlits_21 :
    ∃ (p : Port) (l : Fin 68) (s : State), s.passState p = passACTIVE ∧ (s.pEnd 1 p).failed.testBit l = false :=
  ⟨6, 33, wS [(R.PASS_STATUS_STATE 0 6, 8)], by decide⟩

theorem test_met_PassFlits_22 :
    ∃ (p : Port) (l : Fin 68) (s : State), s.passState p ≠ passACTIVE ∧ (s.pEnd 1 p).failed.testBit l = false :=
  ⟨6, 33, wS [], by decide⟩

theorem test_met_PassFlits_23 :
    ∃ (p : Port) (l : Fin 68) (s : State), s.passState p = passACTIVE ∧ (s.pEnd 0 p).failed.testBit l = false ∧ (s.pPort
      p).up.testBit l = false ∧ 16 ≤ popCount 68 (PPort.goodUp { s.pPort p with up := setBits (s.pPort p).up l 1 1 }) ∧
      (s.pEnd 0 p).rxMap.contains l.val = false ∧ (s.pPort p).swU = none :=
  ⟨6, 33, ((wS [(R.PASS_STATUS_STATE 0 6, 8)]).setPPort 6 { tUp := lanes68, tDown := lanes68 }), by decide⟩

theorem test_met_PassFlits_24 :
    ∃ (p : Port) (l : Fin 68) (s : State), s.passState p = passACTIVE ∧ (s.pEnd 1 p).failed.testBit l = false :=
  ⟨6, 33, wS [(R.PASS_STATUS_STATE 0 6, 8)], by decide⟩

theorem test_met_PassFlits_25 :
    ∃ (p : Port) (l : Fin 68) (s : State), s.passState p ≠ passACTIVE ∧ (s.pEnd 1 p).failed.testBit l = false :=
  ⟨6, 33, wS [], by decide⟩

theorem test_met_PassFlits_26 :
    ∃ (p : Port) (l : Fin 68) (s : State), s.passState p = passACTIVE ∧ (s.pEnd 0 p).failed.testBit l = false ∧ (s.pPort
      p).up.testBit l = false ∧ 16 ≤ popCount 68 (PPort.goodUp { s.pPort p with up := setBits (s.pPort p).up l 1 1 }) ∧
      (s.pEnd 0 p).rxMap.contains l.val = false ∧ (s.pPort p).swU = none :=
  ⟨6, 33, ((wS [(R.PASS_STATUS_STATE 0 6, 8)]).setPPort 6 { tUp := lanes68, tDown := lanes68 }), by decide⟩

theorem test_met_PassFlits_27 :
    ∃ (p : Port) (l : Fin 68) (down : Bool) (s : State), (s.pEnd (if down then 1 else 0) p).failed.testBit l = true :=
  ⟨6, 33, true, ((wS [(R.PASS_STATUS_STATE 0 6, 8)]).setPEnd 1 6 { failed := 1 <<< 33 }), by decide⟩

theorem test_met_PassControl_1 :
    ∃ (p : Port) (f : Flit) (l : Fin 68) (sp : Nat) (s : State), s.ControlAt p f ∧ (s.pPort p).down.testBit l = false ∧ 16 ≤
      popCount 68 (PPort.goodDown { s.pPort p with down := setBits (s.pPort p).down l 1 1 }) ∧ (s.pPort p).swD = none ∧
      (s.pEnd 0 p).txMap.contains l.val = true ∧ (s.spares p (setBits (s.pEnd 0 p).txGood l 1 0) (s.pEnd 0 p).txMap
      none).head? = some sp :=
  ⟨6, { typ := 2 }, 5, 64,
   ((((((wS [(R.PASS_STATUS_STATE 0 6, 8)]).setPEnd 0 6
          { txMap := List.range 64, txGood := lanes68, rxMap := List.range 64, rxGood := lanes68 })).setPEnd 1 6
        { ctl := [{ ctype := 2, a := 5 }] })).setPPort 6 { tUp := lanes68, tDown := lanes68 }), by decide⟩

theorem test_met_PassControl_2 :
    ∃ (p : Port) (f : Flit) (l : Fin 68) (s : State), s.ControlAt p f ∧ (s.pPort p).down.testBit l = false ∧ 16 ≤ popCount 68
      (PPort.goodDown { s.pPort p with down := setBits (s.pPort p).down l 1 1 }) ∧ (s.pPort p).swD = none ∧ (s.pEnd 0
      p).txMap.contains l.val = true ∧ (s.spares p (setBits (s.pEnd 0 p).txGood l 1 0) (s.pEnd 0 p).txMap none) = [] ∧
      (s.pEnd 0 p).want = none :=
  ⟨6, { typ := 2 }, 5,
   ((((wS [(R.PASS_STATUS_STATE 0 6, 8)]).setPEnd 0 6
        { txMap := List.range 64, txGood := (2 ^ 64 - 1), rxMap := List.range 64, rxGood := (2 ^ 64 - 1) })).setPPort 6
      { tUp := lanes68, tDown := lanes68 }), by decide⟩

theorem test_met_PassControl_3 :
    ∃ (p : Port) (f : Flit) (l : Fin 68) (s : State), s.ControlAt p f ∧ (s.pPort p).down.testBit l = false ∧ 16 ≤ popCount 68
      (PPort.goodDown { s.pPort p with down := setBits (s.pPort p).down l 1 1 }) ∧ (s.pPort p).swD = none ∧ (s.pEnd 0
      p).txMap.contains l.val = false :=
  ⟨6, { typ := 2 }, 65,
   ((((wS [(R.PASS_STATUS_STATE 0 6, 8)]).setPEnd 0 6
        { txMap := List.range 64, txGood := lanes68, rxMap := List.range 64, rxGood := lanes68 })).setPPort 6
      { tUp := lanes68, tDown := lanes68 }), by decide⟩

theorem test_met_PassControl_4 :
    ∃ (p : Port) (f : Flit) (l : Fin 68) (s : State), s.ControlAt p f ∧ (s.pPort p).down.testBit l = true :=
  ⟨6, { typ := 2 }, 5,
   ((((wS [(R.PASS_STATUS_STATE 0 6, 8)]).setPEnd 1 6 { ctl := [{ ctype := 2, a := 5 }] })).setPPort 6 { down := 1 <<< 5 }),
   by decide⟩

theorem test_met_PassControl_5 :
    ∃ (p : Port) (f : Flit) (l : Fin 68) (s : State), s.ControlAt p f ∧ (s.pPort p).down.testBit l = false ∧ popCount 68
      (PPort.goodDown { s.pPort p with down := setBits (s.pPort p).down l 1 1 }) < 16 :=
  ⟨6, { typ := 2 }, 5,
   ((wS [(R.PASS_STATUS_STATE 0 7, 8), (R.PASS_STATUS_STATE 0 6, 8)]).setPPort 6 { tUp := lanes68, tDown := 0xFFFF }),
   by decide⟩

theorem test_met_PassControl_6 :
    ∃ (p : Port) (f : Flit) (l sp : Fin 68) (w : PSwap) (s : State), s.ControlAt p f ∧ (s.pPort p).swU = some w ∧ w.lane = l ∧
      w.spare = sp ∧ w.marked = false :=
  ⟨6, { typ := 2 }, 5, 64, ⟨5, 5, 64, false, false⟩,
   ((((wS [(R.PASS_STATUS_STATE 0 6, 8)]).setPEnd 0 6 { ctl := [{ ctype := 3, a := 5, b := 64 }] })).setPPort 6
      { swU := some ⟨5, 5, 64, false, false⟩ }), by decide⟩

theorem test_met_PassControl_7 :
    ∃ (p : Port) (f : Flit) (l sp : Fin 68) (s : State), s.ControlAt p f ∧ (∀ w, (s.pPort p).swU = some w → ¬ (w.lane = l ∧
      w.spare = sp ∧ w.marked = false)) :=
  ⟨6, { typ := 2 }, 5, 64, ((wS [(R.PASS_STATUS_STATE 0 6, 8)]).setPPort 6 { swU := some ⟨5, 5, 64, true, false⟩ }),
   by decide⟩

theorem test_met_PassControl_8 :
    ∃ (e : End) (p : Port) (f : Flit) (l sp : Fin 68) (w : PSwap) (s : State), s.ControlAt p f ∧ s.swapOf (endNum e) p = some w
      ∧ w.lane = l ∧ w.spare = sp ∧ w.marked = true ∧ w.moved = false :=
  ⟨.vale, 6, { typ := 2 }, 5, 64, ⟨5, 5, 64, true, false⟩,
   ((wS [(R.PASS_STATUS_STATE 0 6, 8)]).setPPort 6 { swD := some ⟨5, 5, 64, true, false⟩ }), by decide⟩

theorem test_met_PassControl_9 :
    ∃ (e : End) (p : Port) (f : Flit) (l sp : Fin 68) (s : State), s.ControlAt p f ∧ (∀ w, s.swapOf (endNum e) p = some w → ¬
      (w.lane = l ∧ w.spare = sp ∧ w.marked = true ∧ w.moved = false)) :=
  ⟨.vale, 6, { typ := 2 }, 5, 64,
   ((wS [(R.PASS_STATUS_STATE 0 6, 8)]).setPPort 6 { swD := some ⟨5, 5, 64, true, true⟩ }), by decide⟩

theorem test_met_PassControl_10 :
    ∃ (e : End) (p : Port) (f : Flit) (l sp : Fin 68) (w : PSwap) (s : State), s.ControlAt p f ∧ s.swapOf (1 - endNum e) p =
      some w ∧ w.lane = l ∧ w.spare = sp ∧ w.moved = true ∧ (s.pPort p).pend.all (fun q => q.1 != (endNum e == 0)) = true :=
  ⟨.vale, 6, { typ := 2 }, 5, 64, ⟨5, 5, 64, true, true⟩,
   ((wS [(R.PASS_STATUS_STATE 0 6, 8)]).setPPort 6 { swU := some ⟨5, 5, 64, true, true⟩ }), by decide⟩

theorem test_met_PassControl_11 :
    ∃ (e : End) (p : Port) (f : Flit) (l sp : Fin 68) (s : State), s.ControlAt p f ∧ (∀ w, s.swapOf (1 - endNum e) p = some w →
      ¬ (w.lane = l ∧ w.spare = sp ∧ w.moved = true)) :=
  ⟨.vale, 6, { typ := 2 }, 5, 64,
   ((wS [(R.PASS_STATUS_STATE 0 6, 8)]).setPPort 6 { swU := some ⟨5, 5, 64, true, false⟩ }), by decide⟩

theorem test_met_PassControl_12 :
    ∃ (e : End) (p : Port) (f : Flit) (r : Fin 256) (s : State), s.ControlAt p f ∧ (s.pEnd (1 - endNum e) p).want = some r.val :=
  ⟨.basin, 6, { typ := 2 }, 2,
   ((((wS [(R.PASS_STATUS_STATE 0 6, 8)]).setPEnd 1 6 { want := some 2, naks := 1 })).setPPort 6
      { swU := some ⟨5, 5, 64, false, false⟩ }), by decide⟩

theorem test_met_PassControl_13 :
    ∃ (e : End) (p : Port) (f : Flit) (r : Fin 256) (s : State), s.ControlAt p f ∧ (s.pEnd (1 - endNum e) p).want ≠ some r.val :=
  ⟨.basin, 6, { typ := 2 }, 2, wS [(R.PASS_STATUS_STATE 0 6, 8)], by decide⟩

theorem test_met_PassControl_14 :
    ∃ (e : End) (p : Port) (f : Flit) (q : Port) (n : Nat) (s : State), s.ControlAt p f ∧ q.val = sibling p ∧ (s.pPort q).hand =
      .runs ∧ n = (s.pEnd (1 - endNum e) q).rxNext ∧ n < 1024 :=
  ⟨.basin, 6, { typ := 2 }, 7, 3,
   ((((((wS [(R.PASS_STATUS_STATE 0 6, 8)]).setPEnd 0 7
          { replay :=
              [⟨3, 9,
                [.ose
                   { vc := 0, opc := 0, srcPkg := 0, srcAgent := 2, dstPkg := 0, dstAgent := 0x15, txn := 9,
                     addr := 0x1000 }]⟩] })).setPEnd 1 7 { rxNext := 3 })).setPPort 7 { hand := .runs }), by decide⟩

theorem test_met_PassControl_15 :
    ∃ (e : End) (p : Port) (f : Flit) (q : Port) (n : Nat) (s : State), s.ControlAt p f ∧ (q.val ≠ sibling p ∨ (s.pPort q).hand
      ≠ .runs ∨ n % 65536 ≠ (s.pEnd (1 - endNum e) q).rxNext) :=
  ⟨.basin, 6, { typ := 2 }, 7, 3, wS [(R.PASS_STATUS_STATE 0 6, 8)], by decide⟩

theorem test_met_PassControl_16 :
    ∃ (e : End) (p : Port) (f : Flit) (q : Port) (s : State), s.ControlAt p f ∧ q.val = sibling p ∧ (s.pPort q).hand = .runs ∧
      (s.pPort q).full = false ∧ (s.pEnd (1 - endNum e) q).hand = true ∧ (s.pEnd (1 - endNum e) q).handDone = true ∧ (s.pEnd
      (1 - endNum e) p).moved = [] :=
  ⟨.basin, 6, { typ := 2 }, 7,
   ((((wS [(R.PASS_STATUS_STATE 0 6, 8)]).setPEnd 1 7 { hand := true, handDone := true })).setPPort 7 { hand := .runs }),
   by decide⟩

theorem test_met_PassControl_17 :
    ∃ (e : End) (p : Port) (f : Flit) (q : Port) (s : State), s.ControlAt p f ∧ q.val = sibling p ∧ (s.pPort q).hand = .runs ∧
      (s.pEnd (1 - endNum e) q).hand = true ∧ (s.pEnd (1 - endNum e) q).handDone = false ∧ (s.pEnd (1 - endNum e) p).moved =
      [] :=
  ⟨.basin, 6, { typ := 2 }, 7,
   ((((wS [(R.PASS_STATUS_STATE 0 6, 8)]).setPEnd 1 7 { hand := true })).setPPort 7 { hand := .runs }), by decide⟩

theorem test_met_PassControl_18 :
    ∃ (e : End) (p : Port) (f : Flit) (q : Port) (s : State), s.ControlAt p f ∧ q.val = sibling p ∧ (s.pPort q).hand = .runs ∧
      (s.pPort q).full = true ∧ (s.pEnd (1 - endNum e) q).hand = true ∧ (s.pEnd (1 - endNum e) q).handDone = true ∧ (s.pEnd
      (1 - endNum e) p).moved = [] :=
  ⟨.basin, 6, { typ := 2 }, 7,
   ((((wS [(R.PASS_STATUS_STATE 0 6, 8)]).setPEnd 1 7 { hand := true, handDone := true, rxNext := 3 })).setPPort 7
      { hand := .runs, full := true }), by decide⟩

theorem test_met_PassControl_19 :
    ∃ (e : End) (p : Port) (f : Flit) (q : Port) (s : State), s.ControlAt p f ∧ (q.val ≠ sibling p ∨ (s.pPort q).hand ≠ .runs ∨
      (s.pEnd (1 - endNum e) q).hand = false ∨ (s.pEnd (1 - endNum e) p).moved ≠ []) :=
  ⟨.basin, 6, { typ := 2 }, 7, wS [(R.PASS_STATUS_STATE 0 6, 8)], by decide⟩

theorem test_met_PassControl_20 :
    ∃ (p : Port) (s : State), s.passState p = passACTIVE ∧ (s.pEnd 0 p).want = none :=
  ⟨6, wS [(R.PASS_STATUS_STATE 0 6, 8)], by decide⟩

theorem test_met_PassControl_21 :
    ∃ (p : Port) (s : State), (s.passState p ≠ passACTIVE ∨ (s.pEnd 0 p).want.isSome = true) :=
  ⟨6, wS [], by decide⟩

theorem test_met_PassControl_22 :
    ∃ (p : Port) (f : Flit) (l : Fin 68) (s : State), s.passState p ≠ passACTIVE :=
  ⟨6, { typ := 2 }, 5, wS [], by decide⟩

theorem test_met_PassControl_23 :
    ∃ (p : Port) (f : Flit) (l sp : Fin 68) (s : State), s.passState p ≠ passACTIVE :=
  ⟨6, { typ := 2 }, 5, 64, wS [], by decide⟩

theorem test_met_PassControl_24 :
    ∃ (e : End) (p : Port) (f : Flit) (l sp : Fin 68) (s : State), s.passState p ≠ passACTIVE :=
  ⟨.vale, 6, { typ := 2 }, 5, 64, wS [], by decide⟩

theorem test_met_PassControl_25 :
    ∃ (e : End) (p : Port) (f : Flit) (l sp : Fin 68) (s : State), s.passState p ≠ passACTIVE :=
  ⟨.vale, 6, { typ := 2 }, 5, 64, wS [], by decide⟩

theorem test_met_PassControl_26 :
    ∃ (e : End) (p : Port) (f : Flit) (r : Nat) (s : State), s.passState p ≠ passACTIVE :=
  ⟨.vale, 6, { typ := 2 }, 2, wS [], by decide⟩

theorem test_met_PassControl_27 :
    ∃ (e : End) (p : Port) (f : Flit) (q : Port) (n : Nat) (s : State), s.passState p ≠ passACTIVE :=
  ⟨.vale, 6, { typ := 2 }, 7, 3, wS [], by decide⟩

theorem test_met_PassControl_28 :
    ∃ (e : End) (p : Port) (f : Flit) (q : Port) (s : State), s.passState p ≠ passACTIVE :=
  ⟨.vale, 6, { typ := 2 }, 7, wS [], by decide⟩

theorem test_met_PassControl_29 :
    ∃ (p : Port) (s : State), s.passState p = passRETRAIN ∧ s.pass.reneg.head? = some p.val :=
  ⟨6, { wS [(R.PASS_STATUS_STATE 0 6, 9), (R.PASS_STATUS_STATE 0 7, 8)] with pass := { reneg := [6] } }, by decide⟩

theorem test_met_PassControl_30 :
    ∃ (p : Port) (s : State), s.passState p = passRETRAIN ∧ s.pass.reneg.head? ≠ some p.val ∧ s.passState (sibling p) =
      passACTIVE :=
  ⟨6, wS [(R.PASS_STATUS_STATE 0 6, 9), (R.PASS_STATUS_STATE 0 7, 8)], by decide⟩

theorem test_met_PassControl_31 :
    ∃ (p : Port) (s : State), s.passState p = passRETRAIN ∧ s.pass.reneg.head? ≠ some p.val ∧ s.passState (sibling p) =
      passRETIRED :=
  ⟨6, wS [(R.PASS_STATUS_STATE 0 6, 9), (R.PASS_STATUS_STATE 0 7, 10)], by decide⟩

theorem test_met_PassControl_32 :
    ∃ (p : Port) (s : State), s.passState p ≠ passRETRAIN :=
  ⟨6, wS [], by decide⟩

theorem test_met_PassControl_33 :
    ∃ (p : Port) (s : State), s.passState p = passACTIVE ∧ s.pass.reneg.head? = some p.val :=
  ⟨6, { wS [(R.PASS_STATUS_STATE 0 6, 8), (R.PASS_STATUS_STATE 0 7, 8)] with pass := { reneg := [6] } }, by decide⟩

theorem test_met_PassControl_34 :
    ∃ (p : Port) (s : State), s.passState p = passACTIVE ∧ s.pass.reneg.head? ≠ some p.val ∧ s.passState (sibling p) =
      passACTIVE :=
  ⟨6, wS [(R.PASS_STATUS_STATE 0 6, 8), (R.PASS_STATUS_STATE 0 7, 8)], by decide⟩

theorem test_met_PassControl_35 :
    ∃ (p : Port) (s : State), s.passState p = passACTIVE ∧ s.pass.reneg.head? ≠ some p.val ∧ s.passState (sibling p) =
      passRETIRED :=
  ⟨6, wS [(R.PASS_STATUS_STATE 0 6, 8), (R.PASS_STATUS_STATE 0 7, 10)], by decide⟩

theorem test_met_PassControl_36 :
    ∃ (p : Port) (s : State), s.passState p ≠ passACTIVE :=
  ⟨6, wS [], by decide⟩

theorem test_met_PassTraining_1 :
    ∃ (e : End) (p : Port) (er : List (Nat × Nat)) (s : State), True :=
  ⟨.basin, 6, [], wS [(R.PASS_STATUS_STATE 0 6, 8)], by decide⟩

theorem test_met_PassTraining_2 :
    ∃ (p : Port) (s : State), s.Mapping p ∧ s.passState p = passMAP ∧ 16 ≤ popCount 68 (PPort.goodDown
      { s.pPort p with tDown := s.valeDown p, rev := s.revHi p, noRev := decide (s.revHi p < s.revLo p) }) :=
  ⟨6,
   ((((wS
         [(R.PASS_STATUS_STATE 0 6, 5), (R.PASS_TRAIN_INFO_REV_MIN 0 6, 2), (R.PASS_TRAIN_INFO_REV_MAX 0 6, 3),
          (R.PASS_TRAIN_INFO_REV_MIN 1 6, 1), (R.PASS_TRAIN_INFO_REV_MAX 1 6, 3)]).setPEnd 1 6 { failed := 1 <<< 33 })).setPPort
      6 { tUp := lanes68, tDown := lanes68, att := 1 }), by decide⟩

theorem test_met_PassTraining_3 :
    ∃ (p : Port) (s : State), s.Mapping p ∧ s.passState p = passMAP ∧ popCount 68 (PPort.goodDown
      { s.pPort p with tDown := s.valeDown p, rev := s.revHi p, noRev := decide (s.revHi p < s.revLo p) }) < 16 ∧ (s.pPort
      p).fails < 2 :=
  ⟨6,
   ((((wS
         [(R.PASS_STATUS_STATE 0 6, 5), (R.PASS_TRAIN_INFO_REV_MIN 0 6, 2), (R.PASS_TRAIN_INFO_REV_MAX 0 6, 3),
          (R.PASS_TRAIN_INFO_REV_MIN 1 6, 1), (R.PASS_TRAIN_INFO_REV_MAX 1 6, 3)]).setPEnd 1 6
        { failed := lanes68 - 0xFF })).setPPort 6 { tUp := lanes68, tDown := lanes68, att := 1 }), by decide⟩

theorem test_met_PassTraining_4 :
    ∃ (p : Port) (s : State), s.Mapping p ∧ s.passState p = passRETRAIN ∧ (s.pPort p).goodDown &&& (lanes68 - s.valeDown p) = 0 :=
  ⟨6,
   ((wS
       [(R.PASS_STATUS_STATE 0 6, 9), (R.PASS_TRAIN_INFO_REV_MIN 0 6, 2), (R.PASS_TRAIN_INFO_REV_MAX 0 6, 3),
        (R.PASS_TRAIN_INFO_REV_MIN 1 6, 1), (R.PASS_TRAIN_INFO_REV_MAX 1 6, 3)]).setPPort 6
      { tUp := lanes68, tDown := lanes68, att := 1 }), by decide⟩

theorem test_met_PassTraining_5 :
    ∃ (p : Port) (c : Nat) (s : State), s.Mapping p ∧ (s.pPort p).rev ≠ 0 ∧ (s.pPort p).noRev = false ∧ s.widthCode p = some c :=
  ⟨6, 0,
   ((wS
       [(R.PASS_STATUS_STATE 0 6, 5), (R.PASS_TRAIN_INFO_REV_MIN 0 6, 2), (R.PASS_TRAIN_INFO_REV_MAX 0 6, 3),
        (R.PASS_TRAIN_INFO_REV_MIN 1 6, 1), (R.PASS_TRAIN_INFO_REV_MAX 1 6, 3)]).setPPort 6
      { tUp := lanes68, tDown := lanes68, rev := 3, att := 1 }), by decide⟩

theorem test_met_PassTraining_6 :
    ∃ (p : Port) (c : Nat) (s : State), s.Mapping p ∧ s.passState p = passMAP ∧ (s.pPort p).noRev = true ∧ s.widthCode p = some
      c ∧ (s.pPort p).fails < 2 :=
  ⟨6, 0,
   ((wS
       [(R.PASS_STATUS_STATE 0 6, 5), (R.PASS_TRAIN_INFO_REV_MIN 0 6, 2), (R.PASS_TRAIN_INFO_REV_MAX 0 6, 3),
        (R.PASS_TRAIN_INFO_REV_MIN 1 6, 1), (R.PASS_TRAIN_INFO_REV_MAX 1 6, 3)]).setPPort 6
      { tUp := lanes68, tDown := lanes68, noRev := true, att := 1 }), by decide⟩

theorem test_met_PassTraining_7 :
    ∃ (p : Port) (s : State), (s.mapping p = false ∨ ((s.pPort p).rev = 0 ∧ (s.pPort p).noRev = false)) :=
  ⟨6, wS [], by decide⟩

theorem test_met_PassTraining_8 :
    ∃ (p : Port) (c : Nat) (s : State), s.Mapping p ∧ (s.pPort p).noRev = false ∧ s.widthCode p = some c ∧ (s.pPort p).sum =
      some (mapSum (mapOf (s.pPort p).goodUp c) (mapOf (s.pPort p).goodDown c)) :=
  ⟨6, 0,
   ((wS
       [(R.PASS_STATUS_STATE 0 6, 5), (R.PASS_TRAIN_INFO_REV_MIN 0 6, 2), (R.PASS_TRAIN_INFO_REV_MAX 0 6, 3),
        (R.PASS_TRAIN_INFO_REV_MIN 1 6, 1), (R.PASS_TRAIN_INFO_REV_MAX 1 6, 3)]).setPPort 6
      { tUp := lanes68, tDown := lanes68, rev := 3, sum := some (mapSum (mapOf lanes68 0) (mapOf lanes68 0)), att := 1 }),
   by decide⟩

theorem test_met_PassTraining_9 :
    ∃ (p : Port) (c v : Nat) (s : State), s.Mapping p ∧ s.widthCode p = some c ∧ (s.pPort p).sum = some v ∧ v < 2 ^ 32 ∧ v ≠
      mapSum (mapOf (s.pPort p).goodUp c) (mapOf (s.pPort p).goodDown c) ∧ (s.pPort p).att < 3 :=
  ⟨6, 0, 1,
   ((wS [(R.PASS_STATUS_STATE 0 6, 5)]).setPPort 6 { tUp := lanes68, tDown := lanes68, sum := some 1, att := 1 }),
   by decide⟩

theorem test_met_PassTraining_10 :
    ∃ (p : Port) (c v : Nat) (s : State), s.Mapping p ∧ s.passState p = passMAP ∧ s.widthCode p = some c ∧ (s.pPort p).sum =
      some v ∧ v < 2 ^ 32 ∧ v ≠ mapSum (mapOf (s.pPort p).goodUp c) (mapOf (s.pPort p).goodDown c) ∧ (s.pPort p).att = 3 :=
  ⟨6, 0, 1,
   ((wS [(R.PASS_STATUS_STATE 0 6, 5)]).setPPort 6 { tUp := lanes68, tDown := lanes68, sum := some 1, att := 3 }),
   by decide⟩

theorem test_met_PassTraining_11 :
    ∃ (p : Port) (er : List (Nat × Nat)) (s : State), (s.mapping p = false ∨ (s.pPort p).sum = none) :=
  ⟨6, [], wS [], by decide⟩

theorem test_met_PassTraining_12 :
    ∃ (p : Port) (er : List (Nat × Nat)) (s : State), s.mapping p = false :=
  ⟨6, [], wS [], by decide⟩

theorem test_met_PassTraining_13 :
    ∃ (p : Port) (b : Nat × Nat × Nat) (s : State), ((s.passState p = passFALLBACK ∧ s.ucRestarting ucPASS = false) ∨
      (s.passState p = passRETRAIN ∧ (s.pPort p).fb = true ∧ (s.pPort p).mapped = false)) ∧ (s.pPort p).att < 16 ∧ (s.pPort
      p).tUp % 2 ^ 68 ≠ 0 ∧ (s.pPort p).tDown % 2 ^ 68 ≠ 0 ∧ blockPick (min 2 (s.get (R.PASS_CTL_MAX_WIDTH p))) (blockMask
      (s.pPort p).goodUp (s.pPort p).goodDown) (blockMask (s.pPort p).tUp (s.valeDown p)) = some b :=
  ⟨6, (1, 0, 1),
   ((wS [(R.PASS_STATUS_STATE 0 6, 6), (R.PASS_CTL_MAX_WIDTH 6, 1)]).setPPort 6
      { tUp := lanes68, tDown := lanes68, att := 1 }), by decide⟩

theorem test_met_PassTraining_14 :
    ∃ (p : Port) (s : State), (s.pPort p).att < 16 ∧ (s.pPort p).tUp % 2 ^ 68 ≠ 0 ∧ (s.pPort p).tDown % 2 ^ 68 ≠ 0 ∧ s.passState
      p = passFALLBACK ∧ s.ucRestarting ucPASS = false ∧ blockPick (min 2 (s.get (R.PASS_CTL_MAX_WIDTH p))) (blockMask
      (s.pPort p).goodUp (s.pPort p).goodDown) (blockMask (s.pPort p).tUp (s.valeDown p)) = none ∧ (s.pPort p).fails < 2 :=
  ⟨6, ((wS [(R.PASS_STATUS_STATE 0 6, 6)]).setPPort 6 { tUp := lanes68 - 0x1000100010001, tDown := lanes68, att := 1 }),
   by decide⟩

theorem test_met_PassTraining_15 :
    ∃ (p : Port) (u v : List (Nat × Nat)) (s : State), (s.passState p ≠ passFALLBACK ∧ (s.passState p ≠ passRETRAIN ∨ (s.pPort
      p).fb = false)) :=
  ⟨6, [], [], wS [], by decide⟩

theorem test_met_PassTraining_16 :
    ∃ (e : End) (p : Port) (s : State), ((s.passState p = passCONFIG ∧ s.ucRestarting ucPASS = false) ∨ (s.passState p =
      passRETRAIN ∧ (s.pPort p).mapped = true)) ∧ (s.pPort p).att < 16 ∧ (if endNum e = 0 then (s.pPort p).tUp else (s.pPort
      p).tDown) % 2 ^ 68 ≠ 0 ∧ (s.pEnd (1 - endNum e) p).rxNext < 1024 ∧ (s.pEnd (1 - endNum e) p).cfg = false :=
  ⟨.basin, 6,
   ((((wS [(R.PASS_STATUS_STATE 0 6, 7)]).setPPort 6 { tUp := lanes68, tDown := lanes68, att := 1 })).setPEnd 1 6
      { rxNext := 3 }), by decide⟩

theorem test_met_PassTraining_17 :
    ∃ (e : End) (p : Port) (s : State), ((s.passState p = passCONFIG ∧ s.ucRestarting ucPASS = false) ∨ (s.passState p =
      passRETRAIN ∧ (s.pPort p).mapped = true)) ∧ (s.pPort p).att < 16 ∧ (if endNum e = 0 then (s.pPort p).tUp else (s.pPort
      p).tDown) % 2 ^ 68 ≠ 0 ∧ (s.pEnd (1 - endNum e) p).rxNext < 1024 ∧ (s.pEnd (1 - endNum e) p).cfg = true ∧ (s.pPort
      p).pend = [] ∧ (s.pPort (sibling p)).hand = .no ∧ (s.pEnd 1 p).failed = 0 ∧ s.pass.reneg.head? ≠ some p.val :=
  ⟨.basin, 6,
   ((((wS [(R.PASS_STATUS_STATE 0 6, 7)]).setPPort 6 { tUp := lanes68, tDown := lanes68, att := 1 })).setPEnd 1 6
      { rxNext := 3, cfg := true }), by decide⟩

theorem test_met_PassTraining_18 :
    ∃ (e : End) (p : Port) (er : List (Nat × Nat)) (s : State), (s.passState p ≠ passCONFIG ∧ (s.passState p ≠ passRETRAIN ∨
      (s.pPort p).mapped = false)) :=
  ⟨.basin, 6, [], wS [], by decide⟩

theorem test_met_PassTraining_19 :
    ∃ (u v : Nat) (p : Port) (s : State), s.passState p = passDETECT ∧ s.ucRestarting ucPASS = false ∧ 16 ≤ popCount 68
      (PPort.goodUp ((s.pPort p).masked u v)) ∧ 16 ≤ popCount 68 (PPort.goodDown ((s.pPort p).masked u v)) :=
  ⟨0xFFFFFF, 0xFFFFFF, 6,
   ((wS [(R.PASS_STATUS_STATE 0 6, 1)]).setPPort 6 { tUp := lanes68, tDown := lanes68, att := 1 }), by decide⟩

theorem test_met_PassTraining_20 :
    ∃ (u v : Nat) (p : Port) (s : State), s.passState p = passDETECT ∧ s.ucRestarting ucPASS = false ∧ (popCount 68
      (PPort.goodUp ((s.pPort p).masked u v)) < 16 ∨ popCount 68 (PPort.goodDown ((s.pPort p).masked u v)) < 16) ∧ (s.pPort
      p).fails < 2 :=
  ⟨0xFF, 0xFF, 6, ((wS [(R.PASS_STATUS_STATE 0 6, 1)]).setPPort 6 { tUp := lanes68, tDown := lanes68, att := 1 }),
   by decide⟩

theorem test_met_PassTraining_21 :
    ∃ (u v : Nat) (p : Port) (s : State), (s.passState p ≠ passDETECT ∨ s.ucRestarting ucPASS = true) :=
  ⟨1, 1, 6, wS [], by decide⟩

theorem test_met_PassTraining_22 :
    ∃ (u v : Nat) (p : Port) (s : State), s.passState p = passBIT_LOCK ∧ s.ucRestarting ucPASS = false ∧ 16 ≤ popCount 68
      (PPort.goodUp ((s.pPort p).masked u v)) ∧ 16 ≤ popCount 68 (PPort.goodDown ((s.pPort p).masked u v)) :=
  ⟨0xFFFFFF, 0xFFFFFF, 6,
   ((wS [(R.PASS_STATUS_STATE 0 6, 2)]).setPPort 6 { tUp := lanes68, tDown := lanes68, att := 1 }), by decide⟩

theorem test_met_PassTraining_23 :
    ∃ (u v : Nat) (p : Port) (s : State), s.passState p = passBIT_LOCK ∧ s.ucRestarting ucPASS = false ∧ (popCount 68
      (PPort.goodUp ((s.pPort p).masked u v)) < 16 ∨ popCount 68 (PPort.goodDown ((s.pPort p).masked u v)) < 16) ∧ (s.pPort
      p).fails < 2 :=
  ⟨0xFF, 0xFF, 6, ((wS [(R.PASS_STATUS_STATE 0 6, 2)]).setPPort 6 { tUp := lanes68, tDown := lanes68, att := 1 }),
   by decide⟩

theorem test_met_PassTraining_24 :
    ∃ (u v : Nat) (p : Port) (s : State), (s.passState p ≠ passBIT_LOCK ∨ s.ucRestarting ucPASS = true) :=
  ⟨1, 1, 6, wS [], by decide⟩

theorem test_met_PassTraining_25 :
    ∃ (p : Port) (s : State), s.passState p = passEQUALISE ∧ s.ucRestarting ucPASS = false ∧ 16 ≤ popCount 68 (PPort.goodUp
      ((s.pPort p).masked lanes68 lanes68)) ∧ 16 ≤ popCount 68 (PPort.goodDown ((s.pPort p).masked lanes68 lanes68)) :=
  ⟨6, ((wS [(R.PASS_STATUS_STATE 0 6, 3)]).setPPort 6 { tUp := lanes68, tDown := lanes68, att := 1 }), by decide⟩

theorem test_met_PassTraining_26 :
    ∃ (p : Port) (s : State), s.passState p = passEQUALISE ∧ s.ucRestarting ucPASS = false ∧ (popCount 68 (PPort.goodUp
      ((s.pPort p).masked lanes68 lanes68)) < 16 ∨ popCount 68 (PPort.goodDown ((s.pPort p).masked lanes68 lanes68)) < 16) ∧
      (s.pPort p).fails < 2 :=
  ⟨6, ((wS [(R.PASS_STATUS_STATE 0 6, 3)]).setPPort 6 { tUp := 0xFF, tDown := lanes68 }), by decide⟩

theorem test_met_PassTraining_27 :
    ∃ (p : Port) (s : State), (s.passState p ≠ passEQUALISE ∨ s.ucRestarting ucPASS = true) :=
  ⟨6, wS [], by decide⟩

theorem test_met_PassTraining_28 :
    ∃ (u v : Nat) (p : Port) (s : State), s.passState p = passLANE_TEST ∧ s.ucRestarting ucPASS = false ∧ 16 ≤ popCount 68
      (PPort.goodUp ((s.pPort p).masked (lanes68 - u % 2 ^ 68) (lanes68 - v % 2 ^ 68))) ∧ 16 ≤ popCount 68 (PPort.goodDown
      ((s.pPort p).masked (lanes68 - u % 2 ^ 68) (lanes68 - v % 2 ^ 68))) :=
  ⟨0xFF, 0xFF, 6, ((wS [(R.PASS_STATUS_STATE 0 6, 4)]).setPPort 6 { tUp := lanes68, tDown := lanes68, att := 1 }),
   by decide⟩

theorem test_met_PassTraining_29 :
    ∃ (u v : Nat) (p : Port) (s : State), s.passState p = passLANE_TEST ∧ s.ucRestarting ucPASS = false ∧ (popCount 68
      (PPort.goodUp ((s.pPort p).masked (lanes68 - u % 2 ^ 68) (lanes68 - v % 2 ^ 68))) < 16 ∨ popCount 68 (PPort.goodDown
      ((s.pPort p).masked (lanes68 - u % 2 ^ 68) (lanes68 - v % 2 ^ 68))) < 16) ∧ (s.pPort p).fails < 2 :=
  ⟨(lanes68 - 3), (lanes68 - 3), 6,
   ((wS [(R.PASS_STATUS_STATE 0 6, 4)]).setPPort 6 { tUp := lanes68, tDown := lanes68, att := 1 }), by decide⟩

theorem test_met_PassTraining_30 :
    ∃ (u v : Nat) (p : Port) (s : State), (s.passState p ≠ passLANE_TEST ∨ s.ucRestarting ucPASS = true) :=
  ⟨1, 1, 6, wS [], by decide⟩

theorem test_met_PassTraining_31 :
    ∃ (p : Port) (s : State), s.passState p = passDETECT ∧ s.ucRestarting ucPASS = false ∧ (s.pPort p).fails < 2 :=
  ⟨6, wS [(R.PASS_STATUS_STATE 0 6, 1)], by decide⟩

theorem test_met_PassTraining_32 :
    ∃ (p : Port) (s : State), s.passState p = passBIT_LOCK ∧ s.ucRestarting ucPASS = false ∧ (s.pPort p).fails < 2 :=
  ⟨6, wS [(R.PASS_STATUS_STATE 0 6, 2)], by decide⟩

theorem test_met_PassTraining_33 :
    ∃ (p : Port) (s : State), s.passState p = passEQUALISE ∧ s.ucRestarting ucPASS = false ∧ (s.pPort p).fails < 2 :=
  ⟨6, wS [(R.PASS_STATUS_STATE 0 6, 3)], by decide⟩

theorem test_met_PassTraining_34 :
    ∃ (p : Port) (s : State), s.passState p = passCONFIG ∧ s.ucRestarting ucPASS = false ∧ (s.pPort p).fails < 2 :=
  ⟨6, wS [(R.PASS_STATUS_STATE 0 6, 7)], by decide⟩

theorem test_met_PassTraining_35 :
    ∃ (p : Port) (s : State), ((s.passState p = passLANE_TEST ∨ s.passState p = passMAP ∨ s.passState p = passFALLBACK) ∧
      s.ucRestarting ucPASS = false) ∧ (s.pPort p).fails < 2 :=
  ⟨6, wS [(R.PASS_STATUS_STATE 0 6, 5)], by decide⟩

theorem test_met_PassTraining_36 :
    ∃ (p : Port) (s : State), s.passState p = passDETECT ∧ s.ucRestarting ucPASS = false ∧ (s.pPort p).fails = 2 ∧ s.passState
      (sibling p) = passACTIVE ∧ (s.pPort (sibling p)).full = false ∧ s.pass.reneg.head? ≠ some p.val :=
  ⟨6, ((wS [(R.PASS_STATUS_STATE 0 6, 1), (R.PASS_STATUS_STATE 0 7, 8)]).setPPort 6 { fails := 2 }), by decide⟩

theorem test_met_PassTraining_37 :
    ∃ (p : Port) (s : State), (s.ucRestarting ucPASS = true ∨ s.passState p = passDISABLED ∨ passACTIVE ≤ s.passState p) :=
  ⟨6, wS [], by decide⟩

theorem test_met_MeteringSets_1 :
    ∃ (s : State), s.pwr.stage ≠ .off ∧ (s.banksRead.freshToOpen.meter.opened.map (fun o => o.span) ≠ some 65535 ∨
      s.meter.sealed ≠ none) :=
  ⟨{ wS [] with meter := { bank := 1, next := some (some 2), opened := some { start := 0, span := 1 } } }, by decide⟩

theorem test_met_MeteringSets_2 :
    ∃ (o : MeterSet) (s : State), s.pwr.stage ≠ .off ∧ s.banksRead.freshToOpen.meter.opened = some o ∧ o.span = 65535 ∧
      s.meter.sealed = none ∧ s.meter.next = none ∧ s.meter.active = none :=
  ⟨{ start := 0, span := 65535 }, { wS [] with meter := { opened := some { start := 0, span := 65535 } } }, by decide⟩

theorem test_met_MeteringSets_3 :
    ∃ (s : State), s.pwr.stage = .off :=
  ⟨State.reset, by decide⟩

theorem test_met_MeteringSets_4 :
    ∃ (k : Nat) (w : VcWay) (s : State), s.pwr.stage ≠ .off ∧ s.nextAt 1000000 = s.pwr.now ∧ s.meter.sampled ≠ some s.pwr.now ∧
      s.pwr.now % minuteNs ≠ 0 ∧ s.die.vc = [(k, w)] ∧ w.valid = true ∧ w.mcid < 1024 ∧ s.mesa.tags = [] ∧ s.mesa.vict = [] :=
  ⟨3 * 2 ^ 20, ⟨true, 77, .m, 0, 0, 5, 9, false⟩,
   { wS [] with
       pwr := { stage := .run, now := 3000000 }, die := { vc := [(3 * 2 ^ 20, ⟨true, 77, .m, 0, 0, 5, 9, false⟩)] } },
   by decide⟩

theorem test_met_MeteringSets_5 :
    ∃ (k : Nat) (w : SecTag) (s : State), s.pwr.stage ≠ .off ∧ s.nextAt 1000000 = s.pwr.now ∧ s.meter.sampled ≠ some s.pwr.now ∧
      s.pwr.now % minuteNs ≠ 0 ∧ s.mesa.tags = [(k, w)] ∧ w.valid ≠ 0 ∧ w.mcid < 1024 ∧ s.die.vc = [] ∧ s.mesa.vict = [] :=
  ⟨7, { valid := 0x13, mcid := 9 },
   { wS [] with pwr := { stage := .run, now := 3000000 }, mesa := { tags := [(7, { valid := 0x13, mcid := 9 })] } },
   by decide⟩

theorem test_met_MeteringSets_6 :
    ∃ (s : State), s.pwr.stage ≠ .off ∧ s.pwr.now < s.nextAt 1000000 ∧ s.meter.sampled ≠ some (s.nextAt 1000000) :=
  ⟨{ wS [] with pwr := { stage := .run, now := 3000001 } }, by decide⟩

theorem test_met_MeteringSets_7 :
    ∃ (s : State), s.pwr.stage = .off :=
  ⟨State.reset, by decide⟩

theorem test_met_MeteringSets_8 :
    ∃ (s : State), s.meter.closed = true ∧ s.meter.bank < 2 :=
  ⟨{ wS [] with meter := { closed := true, acc := [(65536, 7)] } }, by decide⟩

theorem test_met_MeteringSets_9 :
    ∃ (s : State), s.meter.closed = false :=
  ⟨wS [], by decide⟩

theorem test_met_MeteringSets_10 :
    ∃ (f : MeterSet) (total : Nat) (s : State), s.meter.fresh = some f ∧ s.meter.opened = none ∧ s.meter.closed = false ∧
      f.counts.filter (fun e => e.1 / 1024 == qENERGY) = [] :=
  ⟨{ start := 0, span := 1 }, 500, { wS [] with meter := { fresh := some { start := 0, span := 1 } } }, by decide⟩

theorem test_met_MeteringSets_11 :
    ∃ (f : MeterSet) (total a b u i : Nat) (s : State), s.meter.fresh = some f ∧ s.meter.opened = none ∧ s.meter.closed = false
      ∧ f.counts.filter (fun e => e.1 / 1024 == qENERGY) = [] ∧ f.counts = [] ∧ a + b + u + i = total ∧ 0 < total :=
  ⟨{ start := 0, span := 1 }, 500, 100, 200, 50, 150,
   { wS [] with meter := { fresh := some { start := 0, span := 1 } } }, by decide⟩

theorem test_met_MeteringSets_12 :
    ∃ (total u i : Nat) (l : List (Nat × Nat)) (s : State), (s.meter.fresh = none ∨ s.meter.closed = true) :=
  ⟨5, 1, 1, [], wS [], by decide⟩

theorem test_met_MeteringSets_13 :
    ∃ (o : MeterSet) (s : State), s.meter.opened = some o ∧ s.meter.sealed = none ∧ s.meter.fresh = none ∧ s.tvx.running = true
      ∧ s.canDeliver o = true ∧ s.meter.active = none :=
  ⟨{ start := 0, span := 1 },
   { wS [(R.METER_CTL_RING_ENABLE, 1), (R.METER_RING_SIZE_LOG2_ENTRIES, 8), (R.METER_RING_BASE_BASE, 16)] with
       meter := { opened := some { start := 0, span := 1 } }, tvx := { running := true } }, by decide⟩

theorem test_met_MeteringSets_14 :
    ∃ (o : MeterSet) (k : Nat) (s : State), s.meter.opened = some o ∧ s.meter.sealed = none ∧ s.meter.fresh = none ∧
      s.tvx.running = true ∧ s.canDeliver o = true ∧ s.meter.active = some k ∧ s.key k ≠ [] :=
  ⟨{ start := 0, span := 1 }, 2,
   { wS [(R.METER_CTL_RING_ENABLE, 1), (R.METER_RING_SIZE_LOG2_ENTRIES, 8), (R.METER_RING_BASE_BASE, 16)] with
       meter := { opened := some { start := 0, span := 1 }, active := some 2, keys := [(2, [1, 2, 3])] },
       tvx := { running := true } }, by decide⟩

theorem test_met_MeteringSets_15 :
    ∃ (s : State), (s.meter.opened = none ∨ s.meter.sealed ≠ none ∨ s.meter.fresh ≠ none ∨ s.tvx.running = false ∨
      s.meter.opened.map (fun o => s.canDeliver o) = some false) :=
  ⟨wS [], by decide⟩

theorem test_met_MeteringSets_16 :
    ∃ (x : MeterSet) (s : State), s.meter.sealed = some x ∧ s.meter.writing = 0 ∧ s.canDeliver x = true ∧ (∀ j < 2 * x.records,
      (s.reachDevice (s.get R.METER_RING_BASE_BASE * 4096 + (s.get R.METER_RING_PROD_PROD + j / 2) % s.meterEntries * 128 +
      j % 2 * 64)).isMem = true) :=
  ⟨{ start := 0, span := 1 },
   { wS [(R.METER_CTL_RING_ENABLE, 1), (R.METER_RING_SIZE_LOG2_ENTRIES, 8), (R.METER_RING_BASE_BASE, 16)] with
       meter := { sealed := some { start := 0, span := 1 } } }, by decide⟩

theorem test_met_MeteringSets_17 :
    ∃ (s : State), (s.meter.sealed = none ∨ s.meter.writing ≠ 0 ∨ s.meter.sealed.map (fun x => s.canDeliver x) = some false) :=
  ⟨wS [], by decide⟩

theorem test_met_MeteringSets_18 :
    ∃ (x : MeterSet) (s : State), s.meter.sealed = some x ∧ s.meter.writing ≠ 0 ∧ s.meter.writing ≤ s.meter.committed ∧ s.get
      R.METER_CTL_MSI_ENABLE = 0 :=
  ⟨{ start := 0, span := 1 },
   { wS [] with meter := { sealed := some { start := 0, span := 1 }, writing := 4, committed := 4 } }, by decide⟩

theorem test_met_MeteringSets_19 :
    ∃ (s : State), (s.meter.sealed = none ∨ s.meter.writing = 0 ∨ s.meter.committed < s.meter.writing) :=
  ⟨wS [], by decide⟩

theorem test_met_HorizonFrames_1 :
    ∃ (p : HPort) (f : HFrame) (m k : Msg) (fm hp rc : Nat) (s : State), s.FrameAt p f ∧ f.typ = 0 ∧ f.msgs = [.ose m fm hp rc]
      ∧ hznStarts 0 f.msgs = some f.slotStart ∧ hmsgIn (.ose m fm hp rc) = .ose k fm hp rc ∧ (s.hPort p).rxNext = f.seq ∧
      k.dstPkg = s.pkgId ∧ s.net.contains k = false ∧ s.get (R.HZN_STATUS_REVISION p) ≠ 3 :=
  ⟨2,
   { typ := 0, seq := 3, bseq := 9, slotStart := 1,
     msgs :=
       [.ose { vc := 0, opc := 0, srcPkg := 0, srcAgent := 2, dstPkg := 0, dstAgent := 0x15, txn := 9, addr := 0x1000 } 0 0
          0] },
   { vc := 0, opc := 0, srcPkg := 0, srcAgent := 2, dstPkg := 0, dstAgent := 0x15, txn := 9, addr := 0x1000 },
   { vc := 0, opc := 0, srcPkg := 0, srcAgent := 2, dstPkg := 0, dstAgent := 0x15, txn := 9, addr := 0x1000 }, 0, 0, 0,
   ((wS [(R.HZN_STATUS_STATE 2, 5)]).setHPort 2 { rxNext := 3 }), by decide⟩

theorem test_met_HorizonFrames_2 :
    ∃ (p : HPort) (f : HFrame) (m k : Msg) (fm hp rc : Nat) (s : State), s.FrameAt p f ∧ f.typ = 0 ∧ f.msgs = [.ose m fm hp rc]
      ∧ hznStarts 0 f.msgs = some f.slotStart ∧ hmsgIn (.ose m fm hp rc) = .ose k fm hp rc ∧ (s.hPort p).rxNext = f.seq ∧
      k.dstPkg = s.pkgId ∧ s.net.contains k = true ∧ s.get (R.HZN_STATUS_REVISION p) ≠ 3 :=
  ⟨2,
   { typ := 0, seq := 3, bseq := 9, slotStart := 1,
     msgs :=
       [.ose { vc := 0, opc := 0, srcPkg := 0, srcAgent := 2, dstPkg := 0, dstAgent := 0x15, txn := 9, addr := 0x1000 } 0 0
          0] },
   { vc := 0, opc := 0, srcPkg := 0, srcAgent := 2, dstPkg := 0, dstAgent := 0x15, txn := 9, addr := 0x1000 },
   { vc := 0, opc := 0, srcPkg := 0, srcAgent := 2, dstPkg := 0, dstAgent := 0x15, txn := 9, addr := 0x1000 }, 0, 0, 0,
   { ((wS [(R.HZN_STATUS_STATE 2, 5)]).setHPort 2 { rxNext := 3 }) with
       net := [{ vc := 0, opc := 0, srcPkg := 0, srcAgent := 2, dstPkg := 0, dstAgent := 0x15, txn := 9, addr := 0x1000 }] },
   by decide⟩

theorem test_met_HorizonFrames_3 :
    ∃ (p : HPort) (f : HFrame) (m k : Msg) (fm hp rc : Nat) (s : State), s.FrameAt p f ∧ f.typ = 0 ∧ f.msgs = [.ose m fm hp rc]
      ∧ hznStarts 0 f.msgs = some f.slotStart ∧ hmsgIn (.ose m fm hp rc) = .ose k fm hp rc ∧ (s.hPort p).rxNext = f.seq ∧
      k.dstPkg = s.pkgId ∧ s.net.contains k = false ∧ s.get (R.HZN_STATUS_REVISION p) = 3 ∧ (s.hStrm (s.get
      (R.HZN_PARTNER_SERIAL_SERIAL p))).wait = [] ∧ (s.hStrm (s.get (R.HZN_PARTNER_SERIAL_SERIAL p))).rx = f.bseq :=
  ⟨2,
   { typ := 0, seq := 3, bseq := 9, slotStart := 1,
     msgs :=
       [.ose { vc := 0, opc := 0, srcPkg := 0, srcAgent := 2, dstPkg := 0, dstAgent := 0x15, txn := 9, addr := 0x1000 } 0 0
          0] },
   { vc := 0, opc := 0, srcPkg := 0, srcAgent := 2, dstPkg := 0, dstAgent := 0x15, txn := 9, addr := 0x1000 },
   { vc := 0, opc := 0, srcPkg := 0, srcAgent := 2, dstPkg := 0, dstAgent := 0x15, txn := 9, addr := 0x1000 }, 0, 0, 0,
   (((wS [(R.HZN_STATUS_STATE 2, 5), (R.HZN_STATUS_REVISION 2, 3)]).setHPort 2 { rxNext := 3 })).setHStrm 0 { rx := 9 },
   by decide⟩

theorem test_met_HorizonFrames_4 :
    ∃ (p : HPort) (f : HFrame) (m k : Msg) (fm hp rc : Nat) (s : State), s.FrameAt p f ∧ f.typ = 0 ∧ f.msgs = [.ose m fm hp rc]
      ∧ hznStarts 0 f.msgs = some f.slotStart ∧ hmsgIn (.ose m fm hp rc) = .ose k fm hp rc ∧ (s.hPort p).rxNext = f.seq ∧
      s.get (R.HZN_STATUS_REVISION p) = 3 ∧ (s.hStrm (s.get (R.HZN_PARTNER_SERIAL_SERIAL p))).wait = [] ∧ (s.hStrm (s.get
      (R.HZN_PARTNER_SERIAL_SERIAL p))).rx ≠ f.bseq :=
  ⟨2,
   { typ := 0, seq := 3, bseq := 9, slotStart := 1,
     msgs :=
       [.ose { vc := 0, opc := 0, srcPkg := 0, srcAgent := 2, dstPkg := 0, dstAgent := 0x15, txn := 9, addr := 0x1000 } 0 0
          0] },
   { vc := 0, opc := 0, srcPkg := 0, srcAgent := 2, dstPkg := 0, dstAgent := 0x15, txn := 9, addr := 0x1000 },
   { vc := 0, opc := 0, srcPkg := 0, srcAgent := 2, dstPkg := 0, dstAgent := 0x15, txn := 9, addr := 0x1000 }, 0, 0, 0,
   ((wS [(R.HZN_STATUS_STATE 2, 5), (R.HZN_STATUS_REVISION 2, 3)]).setHPort 2 { rxNext := 3 }), by decide⟩

theorem test_met_HorizonFrames_5 :
    ∃ (p : HPort) (f : HFrame) (m k : Msg) (fm hp rc : Nat) (s : State), s.FrameAt p f ∧ f.typ = 0 ∧ f.msgs = [.ose m fm hp rc]
      ∧ hznStarts 0 f.msgs = some f.slotStart ∧ hmsgIn (.ose m fm hp rc) = .ose k fm hp rc ∧ (s.hPort p).rxNext = f.seq ∧
      k.dstPkg ≠ s.pkgId ∧ hp ≠ 0 ∧ s.get (R.HZN_STATUS_REVISION p) ≠ 3 :=
  ⟨2,
   { typ := 0, seq := 3, bseq := 9, slotStart := 1,
     msgs :=
       [.ose { vc := 0, opc := 0, srcPkg := 0, srcAgent := 2, dstPkg := 5, dstAgent := 0x15, txn := 9, addr := 0x1000 } 0 4
          0] },
   { vc := 0, opc := 0, srcPkg := 0, srcAgent := 2, dstPkg := 5, dstAgent := 0x15, txn := 9, addr := 0x1000 },
   { vc := 0, opc := 0, srcPkg := 0, srcAgent := 2, dstPkg := 5, dstAgent := 0x15, txn := 9, addr := 0x1000 }, 0, 4, 0,
   ((wS [(R.HZN_STATUS_STATE 2, 5)]).setHPort 2 { rxNext := 3 }), by decide⟩

theorem test_met_HorizonFrames_6 :
    ∃ (p : HPort) (f : HFrame) (m k : Msg) (fm hp rc : Nat) (s : State), s.FrameAt p f ∧ f.typ = 0 ∧ f.msgs = [.ose m fm hp rc]
      ∧ hznStarts 0 f.msgs = some f.slotStart ∧ hmsgIn (.ose m fm hp rc) = .ose k fm hp rc ∧ (s.hPort p).rxNext = f.seq ∧
      k.dstPkg ≠ s.pkgId ∧ hp = 0 ∧ (List.range 8).all (fun q => (s.hPort q).rxq.isEmpty) = true ∧ s.get
      (R.HZN_STATUS_REVISION p) ≠ 3 :=
  ⟨2,
   { typ := 0, seq := 3, bseq := 9, slotStart := 1,
     msgs :=
       [.ose { vc := 0, opc := 0, srcPkg := 0, srcAgent := 2, dstPkg := 5, dstAgent := 0x15, txn := 9, addr := 0x1000 } 0 0
          0] },
   { vc := 0, opc := 0, srcPkg := 0, srcAgent := 2, dstPkg := 5, dstAgent := 0x15, txn := 9, addr := 0x1000 },
   { vc := 0, opc := 0, srcPkg := 0, srcAgent := 2, dstPkg := 5, dstAgent := 0x15, txn := 9, addr := 0x1000 }, 0, 0, 0,
   ((wS [(R.HZN_STATUS_STATE 2, 5)]).setHPort 2 { rxNext := 3 }), by decide⟩

theorem test_met_HorizonFrames_7 :
    ∃ (p : HPort) (f : HFrame) (w : WMsg) (s : State), s.FrameAt p f ∧ f.typ = 0 ∧ f.msgs = [.win w] ∧ hznStarts 0 f.msgs = some
      f.slotStart ∧ (s.hPort p).rxNext = f.seq ∧ w.dstPkg = s.pkgId ∧ s.get (R.HZN_STATUS_REVISION p) ≠ 3 :=
  ⟨2, { typ := 0, seq := 3, bseq := 9, slotStart := 1, msgs := [.win { vc := 0, wopc := 0, srcPkg := 5, dstPkg := 0 }] },
   { vc := 0, wopc := 0, srcPkg := 5, dstPkg := 0 }, ((wS [(R.HZN_STATUS_STATE 2, 5)]).setHPort 2 { rxNext := 3 }),
   by decide⟩

theorem test_met_HorizonFrames_8 :
    ∃ (p : HPort) (f : HFrame) (s : State), s.FrameAt p f ∧ f.typ = 0 ∧ hznStarts 0 f.msgs = some f.slotStart ∧ (s.hPort
      p).rxNext ≠ f.seq :=
  ⟨2,
   { typ := 0, seq := 3, bseq := 9, slotStart := 1,
     msgs :=
       [.ose { vc := 0, opc := 0, srcPkg := 0, srcAgent := 2, dstPkg := 0, dstAgent := 0x15, txn := 9, addr := 0x1000 } 0 0
          0] }, wS [(R.HZN_STATUS_STATE 2, 5)], by decide⟩

theorem test_met_HorizonFrames_9 :
    ∃ (p : HPort) (f : HFrame) (s : State), s.FrameAt p f ∧ f.typ = 0 ∧ f.msgs.length = 1 ∧ hznStarts 0 f.msgs ≠ some
      f.slotStart ∧ (s.hPort p).rxNext = f.seq ∧ s.get (R.HZN_STATUS_REVISION p) ≠ 3 :=
  ⟨2,
   { typ := 0, seq := 3, bseq := 9, slotStart := 3,
     msgs :=
       [.ose { vc := 0, opc := 0, srcPkg := 0, srcAgent := 2, dstPkg := 0, dstAgent := 0x15, txn := 9, addr := 0x1000 } 0 0
          0] }, ((wS [(R.HZN_STATUS_STATE 2, 5)]).setHPort 2 { rxNext := 3 }), by decide⟩

theorem test_met_HorizonFrames_10 :
    ∃ (p : HPort) (f : HFrame) (s : State), s.FrameAt p f ∧ (f.typ = 3 ∨ (f.typ = 1 ∧ 7 < f.ctype)) ∧ ((s.hPort p).rxNext ≠
      f.seq ∨ f.typ = 1) :=
  ⟨2, { typ := 1, ctype := 9 }, wS [(R.HZN_STATUS_STATE 2, 5)], by decide⟩

theorem test_met_HorizonFrames_11 :
    ∃ (p : HPort) (f : HFrame) (s : State), s.hznState p = hznACTIVE ∧ f.typ = 0 ∧ fecHeard (s.get (R.HZN_LANES_RX_ACTIVE p))
      f.err = none ∧ (s.hPort p).naks < 3 ∧ (s.charge 12 p false).2 = false :=
  ⟨2,
   { typ := 0, seq := 3, bseq := 9, slotStart := 1,
     msgs :=
       [.ose { vc := 0, opc := 0, srcPkg := 0, srcAgent := 2, dstPkg := 0, dstAgent := 0x15, txn := 9, addr := 0x1000 } 0 0
          0],
     err :=
       [(0, 2), (1, 2), (2, 2), (3, 2), (4, 2), (5, 2), (6, 2), (7, 2), (8, 2), (9, 2), (10, 2), (11, 2),
        (12, 2), (13, 2), (14, 2), (15, 2)] }, wS [(R.HZN_STATUS_STATE 2, 5)], by decide⟩

theorem test_met_HorizonFrames_12 :
    ∃ (p : HPort) (f : HFrame) (s : State), s.hznState p = hznACTIVE ∧ f.typ = 0 ∧ fecHeard (s.get (R.HZN_LANES_RX_ACTIVE p))
      f.err = none ∧ (s.hPort p).naks = 3 ∧ s.hznSibling p ≠ none ∧ (s.charge 12 p false).2 = false :=
  ⟨2,
   { typ := 0, seq := 3, bseq := 9, slotStart := 1,
     msgs :=
       [.ose { vc := 0, opc := 0, srcPkg := 0, srcAgent := 2, dstPkg := 0, dstAgent := 0x15, txn := 9, addr := 0x1000 } 0 0
          0],
     err :=
       [(0, 2), (1, 2), (2, 2), (3, 2), (4, 2), (5, 2), (6, 2), (7, 2), (8, 2), (9, 2), (10, 2), (11, 2),
        (12, 2), (13, 2), (14, 2), (15, 2)] },
   ((wS [(R.HZN_STATUS_STATE 2, 5), (R.HZN_STATUS_STATE 3, 5), (R.HZN_STATUS_REVISION 2, 3), (R.HZN_STATUS_REVISION 3, 3)]).setHPort
      2 { naks := 3 }), by decide⟩

theorem test_met_HorizonFrames_13 :
    ∃ (p : HPort) (f : HFrame) (s : State), (s.hznState p ≠ hznACTIVE ∨ (f.typ ≠ 0 ∧ frameBroken f = false)) :=
  ⟨2,
   { typ := 0, seq := 3, bseq := 9, slotStart := 1,
     msgs :=
       [.ose { vc := 0, opc := 0, srcPkg := 0, srcAgent := 2, dstPkg := 0, dstAgent := 0x15, txn := 9, addr := 0x1000 } 0 0
          0] }, wS [], by decide⟩

theorem test_met_HorizonFrames_14 :
    ∃ (p : HPort) (f : HFrame) (s : State), s.hznState p = hznACTIVE ∧ s.NoneMoved p ∧ f.nak = false ∧ f.crs = [] ∧ f.err = [] ∧
      f.ackV = true ∧ (s.hPort p).replay.any (fun x => x.seq == f.ackSeq) = true :=
  ⟨2, { typ := 2, ackV := true, ackSeq := 3 },
   ((wS [(R.HZN_STATUS_STATE 2, 5)]).setHPort 2 { replay := [⟨2, 8, []⟩, ⟨3, 9, []⟩, ⟨4, 10, []⟩] }), by decide⟩

theorem test_met_HorizonFrames_15 :
    ∃ (p : HPort) (f : HFrame) (c v : Nat) (s : State), s.hznState p = hznACTIVE ∧ s.NoneMoved p ∧ f.nak = false ∧ f.ackV =
      false ∧ f.err = [] ∧ f.crs = [(c, v)] ∧ c < 16 :=
  ⟨2, { typ := 2, crs := [(3, 40)] }, 3, 40, wS [(R.HZN_STATUS_STATE 2, 5)], by decide⟩

theorem test_met_HorizonFrames_16 :
    ∃ (p : HPort) (f : HFrame) (s : State), s.hznState p = hznACTIVE ∧ s.NoneMoved p ∧ f.nak = true ∧ f.ackV = false ∧ f.crs =
      [] ∧ f.err = [] :=
  ⟨2, { typ := 2, nak := true }, ((wS [(R.HZN_STATUS_STATE 2, 5)]).setHPort 2 { replay := [⟨2, 8, []⟩, ⟨3, 9, []⟩] }),
   by decide⟩

theorem test_met_HorizonFrames_17 :
    ∃ (p : HPort) (f : HFrame) (s : State), s.hznState p ≠ hznACTIVE :=
  ⟨2, { typ := 2 }, wS [], by decide⟩

theorem test_met_HorizonFrames_18 :
    ∃ (p : HPort) (s : State), s.hznState p = hznACTIVE ∧ 0 < (s.hPort p).replay.length :=
  ⟨2, ((wS [(R.HZN_STATUS_STATE 2, 5)]).setHPort 2 { replay := [⟨3, 9, []⟩] }), by decide⟩

theorem test_met_HorizonFrames_19 :
    ∃ (p : HPort) (s : State), (s.hznState p ≠ hznACTIVE ∨ (s.hPort p).replay = []) :=
  ⟨2, wS [], by decide⟩

theorem test_met_HorizonFrames_20 :
    ∃ (p : HPort) (f : HFrame) (r : Nat) (s : State), s.FrameAt p f ∧ s.hznSibling p ≠ none :=
  ⟨2, { typ := 1, ctype := 3 }, 2,
   wS [(R.HZN_STATUS_STATE 2, 5), (R.HZN_STATUS_STATE 3, 5), (R.HZN_STATUS_REVISION 2, 3), (R.HZN_STATUS_REVISION 3, 3)],
   by decide⟩

theorem test_met_HorizonFrames_21 :
    ∃ (p : HPort) (s : State), s.hznState p = hznACTIVE ∧ s.hznSibling p ≠ none :=
  ⟨2,
   wS [(R.HZN_STATUS_STATE 2, 5), (R.HZN_STATUS_STATE 3, 5), (R.HZN_STATUS_REVISION 2, 3), (R.HZN_STATUS_REVISION 3, 3)],
   by decide⟩

theorem test_met_HorizonFrames_22 :
    ∃ (p : HPort) (l : Fin 8) (s : State), (s.hPort p).marks.testBit l = false ∧ (s.get (R.HZN_LANES_RX_ACTIVE p)).testBit l =
      true ∧ s.hznState p = hznACTIVE ∧ s.hznSibling p ≠ none :=
  ⟨2, 5,
   wS
     [(R.HZN_STATUS_STATE 2, 5), (R.HZN_LANES_RX_ACTIVE 2, 0xFF), (R.HZN_STATUS_STATE 3, 5),
      (R.HZN_STATUS_REVISION 2, 3), (R.HZN_STATUS_REVISION 3, 3)], by decide⟩

theorem test_met_HorizonFrames_23 :
    ∃ (p : HPort) (f : HFrame) (r : Nat) (s : State), s.FrameAt p f ∧ s.hznSibling p = none :=
  ⟨2, { typ := 1, ctype := 3 }, 2, wS [(R.HZN_STATUS_STATE 2, 5)], by decide⟩

theorem test_met_HorizonFrames_24 :
    ∃ (p : HPort) (s : State), s.hznState p = hznACTIVE ∧ s.hznSibling p = none :=
  ⟨2, wS [(R.HZN_STATUS_STATE 2, 5)], by decide⟩

theorem test_met_HorizonFrames_25 :
    ∃ (p : HPort) (l : Fin 8) (s : State), (s.hPort p).marks.testBit l = false ∧ (s.get (R.HZN_LANES_RX_ACTIVE p)).testBit l =
      true ∧ s.hznState p = hznACTIVE ∧ s.hznSibling p = none :=
  ⟨2, 5, wS [(R.HZN_STATUS_STATE 2, 5), (R.HZN_LANES_RX_ACTIVE 2, 0xFF)], by decide⟩

theorem test_met_HorizonFrames_26 :
    ∃ (p : HPort) (f : HFrame) (r : Nat) (s : State), s.hznState p ≠ hznACTIVE :=
  ⟨2, { typ := 1 }, 2, wS [], by decide⟩

theorem test_met_HorizonFrames_27 :
    ∃ (p : HPort) (s : State), s.hznState p ≠ hznACTIVE :=
  ⟨2, wS [], by decide⟩

theorem test_met_HorizonFrames_28 :
    ∃ (p : HPort) (l : Fin 8) (s : State), (s.hPort p).marks.testBit l = false ∧ ((s.get (R.HZN_LANES_RX_ACTIVE p)).testBit l =
      false ∨ s.hznState p ≠ hznACTIVE) :=
  ⟨2, 5, wS [(R.HZN_STATUS_STATE 2, 5)], by decide⟩

theorem test_met_HorizonFrames_29 :
    ∃ (p : HPort) (l : Fin 8) (s : State), (s.hPort p).marks.testBit l = true :=
  ⟨2, 5, ((wS [(R.HZN_STATUS_STATE 2, 5)]).setHPort 2 { marks := 0x20 }), by decide⟩

theorem test_met_HorizonFrames_30 :
    ∃ (p q : HPort) (f : HFrame) (n : Nat) (s : State), s.FrameAt p f ∧ (s.hPort q).hand = true ∧ q ≠ p ∧ s.get
      (R.HZN_PARTNER_SERIAL_SERIAL p) = s.get (R.HZN_PARTNER_SERIAL_SERIAL q) ∧ (s.hPort q).replay.any (fun x => x.seq == n)
      = false ∧ (s.hPort q).txNext = n :=
  ⟨2, 3, { typ := 1, ctype := 4 }, 3, ((wS [(R.HZN_STATUS_STATE 2, 5)]).setHPort 3 { hand := true, txNext := 3 }),
   by decide⟩

theorem test_met_HorizonFrames_31 :
    ∃ (p q : HPort) (f : HFrame) (n : Nat) (s : State), s.FrameAt p f ∧ (s.hPort q).hand = true ∧ q ≠ p ∧ s.get
      (R.HZN_PARTNER_SERIAL_SERIAL p) = s.get (R.HZN_PARTNER_SERIAL_SERIAL q) ∧ (s.hPort q).replay.any (fun x => x.seq == n)
      = true :=
  ⟨2, 3, { typ := 1, ctype := 4 }, 3,
   ((wS [(R.HZN_STATUS_STATE 2, 5)]).setHPort 3 { hand := true, replay := [⟨2, 8, []⟩, ⟨3, 9, []⟩] }), by decide⟩

theorem test_met_HorizonFrames_32 :
    ∃ (p q : HPort) (f : HFrame) (n : Nat) (s : State), s.FrameAt p f ∧ ((s.hPort q).hand = false ∨ q = p ∨ s.get
      (R.HZN_PARTNER_SERIAL_SERIAL p) ≠ s.get (R.HZN_PARTNER_SERIAL_SERIAL q)) :=
  ⟨2, 3, { typ := 1, ctype := 4 }, 3, wS [(R.HZN_STATUS_STATE 2, 5)], by decide⟩

theorem test_met_HorizonFrames_33 :
    ∃ (p q : HPort) (f : HFrame) (n : Nat) (s : State), s.hznState p ≠ hznACTIVE :=
  ⟨2, 3, { typ := 1, ctype := 4 }, 3, wS [], by decide⟩

theorem test_met_HorizonFrames_34 :
    ∃ (p q : HPort) (f : HFrame) (s : State), s.FrameAt p f ∧ (s.hPort q).hand = true ∧ (s.hPort q).after = false ∧ (s.hPort
      q).replay = [] ∧ q ≠ p :=
  ⟨2, 3, { typ := 1, ctype := 5 }, ((wS [(R.HZN_STATUS_STATE 2, 5)]).setHPort 3 { hand := true }), by decide⟩

theorem test_met_HorizonFrames_35 :
    ∃ (p q : HPort) (f : HFrame) (s : State), s.FrameAt p f ∧ (s.hPort q).hand = true ∧ (s.hPort q).after = true ∧ (s.hPort
      q).replay = [] ∧ q ≠ p :=
  ⟨2, 3, { typ := 1, ctype := 5 }, ((wS [(R.HZN_STATUS_STATE 2, 5)]).setHPort 3 { hand := true, after := true }), by decide⟩

theorem test_met_HorizonFrames_36 :
    ∃ (p q : HPort) (f : HFrame) (s : State), s.FrameAt p f ∧ ((s.hPort q).hand = false ∨ (s.hPort q).replay ≠ []) :=
  ⟨2, 3, { typ := 1, ctype := 5 }, wS [(R.HZN_STATUS_STATE 2, 5)], by decide⟩

theorem test_met_HorizonFrames_37 :
    ∃ (p q : HPort) (f : HFrame) (s : State), s.hznState p < hznEXCHANGE :=
  ⟨2, 3, { typ := 1, ctype := 5 }, wS [], by decide⟩

theorem test_met_HorizonFrames_38 :
    ∃ (p q : HPort) (s : State), s.hznState p = hznACTIVE ∧ s.hznSibling p = some (q : Nat) ∧ q ≠ p ∧ (s.hPort p).moved = [] :=
  ⟨2, 3,
   wS [(R.HZN_STATUS_STATE 2, 5), (R.HZN_STATUS_STATE 3, 5), (R.HZN_STATUS_REVISION 2, 3), (R.HZN_STATUS_REVISION 3, 3)],
   by decide⟩

theorem test_met_HorizonFrames_39 :
    ∃ (p : HPort) (s : State), s.hznState p = hznACTIVE ∧ s.hznSibling p = none ∧ (s.hPort p).replay = [] ∧ (s.hPort p).moved =
      [] ∧ (s.hStrm (s.get (R.HZN_PARTNER_SERIAL_SERIAL p))).wait = [] :=
  ⟨2, wS [(R.HZN_STATUS_STATE 2, 5)], by decide⟩

theorem test_met_HorizonFrames_40 :
    ∃ (p : HPort) (s : State), s.hznState p = hznACTIVE ∧ s.hznSibling p = none ∧ (s.hPort p).replay ≠ [] ∧ (s.hPort p).moved =
      [] ∧ (s.hStrm (s.get (R.HZN_PARTNER_SERIAL_SERIAL p))).wait = [] :=
  ⟨2, ((wS [(R.HZN_STATUS_STATE 2, 5)]).setHPort 2 { replay := [⟨3, 9, []⟩] }), by decide⟩

theorem test_met_HorizonFrames_41 :
    ∃ (p : HPort) (s : State), s.hznState p ≠ hznACTIVE :=
  ⟨2, wS [], by decide⟩

theorem test_met_HorizonFrames_42 :
    ∃ (p q : HPort) (s : State), s.hznState p = hznRETRAIN ∧ s.hznSibling p = some (q : Nat) ∧ q ≠ p ∧ (s.hPort p).moved = [] ∧
      s.hzn.reneg = [] :=
  ⟨2, 3,
   wS [(R.HZN_STATUS_STATE 2, 6), (R.HZN_STATUS_STATE 3, 5), (R.HZN_STATUS_REVISION 2, 3), (R.HZN_STATUS_REVISION 3, 3)],
   by decide⟩

theorem test_met_HorizonFrames_43 :
    ∃ (p : HPort) (s : State), s.hznState p = hznRETRAIN ∧ s.hznSibling p = none ∧ (s.hPort p).replay = [] ∧ (s.hPort p).moved =
      [] ∧ (s.hStrm (s.get (R.HZN_PARTNER_SERIAL_SERIAL p))).wait = [] ∧ s.hzn.reneg = [] :=
  ⟨2, wS [(R.HZN_STATUS_STATE 2, 6)], by decide⟩

theorem test_met_HorizonFrames_44 :
    ∃ (p : HPort) (s : State), s.hznState p = hznRETRAIN ∧ s.hznSibling p = none ∧ (s.hPort p).replay ≠ [] ∧ (s.hPort p).moved =
      [] ∧ (s.hStrm (s.get (R.HZN_PARTNER_SERIAL_SERIAL p))).wait = [] ∧ s.hzn.reneg = [] :=
  ⟨2, ((wS [(R.HZN_STATUS_STATE 2, 6)]).setHPort 2 { replay := [⟨3, 9, []⟩] }), by decide⟩

theorem test_met_HorizonFrames_45 :
    ∃ (p : HPort) (s : State), s.hznState p ≠ hznRETRAIN :=
  ⟨2, wS [], by decide⟩

theorem test_met_HorizonTraining_1 :
    ∃ (p : HPort) (f : HFrame) (x : Hello) (s : State), s.FrameAt p f :=
  ⟨2, { typ := 1, ctype := 1 }, ⟨5, 7, 0, 2, 3, 0xFF, 0xFF, 0, 3, false⟩, wS [(R.HZN_STATUS_STATE 2, 5)], by decide⟩

theorem test_met_HorizonTraining_2 :
    ∃ (p : HPort) (f : HFrame) (x : Hello) (s : State), s.hznState p = hznEXCHANGE ∧ (fecHeard 0xFF f.err).isSome = true ∧ x.pkg
      = s.pkgId ∧ (s.hPort p).serial = none :=
  ⟨2, { typ := 1, ctype := 1 }, ⟨5, 0, 0, 2, 3, 0xFF, 0xFF, 0, 3, false⟩, wS [(R.HZN_STATUS_STATE 2, 3)], by decide⟩

theorem test_met_HorizonTraining_3 :
    ∃ (p : HPort) (f : HFrame) (x : Hello) (s : State), s.hznState p = hznEXCHANGE ∧ (fecHeard 0xFF f.err).isSome = true ∧ x.pkg
      = s.pkgId ∧ (s.hPort p).serial ≠ none ∧ (s.hPort p).serial ≠ some x.serial.toNat :=
  ⟨2, { typ := 1, ctype := 1 }, ⟨5, 0, 0, 2, 3, 0xFF, 0xFF, 0, 3, false⟩,
   ((wS [(R.HZN_STATUS_STATE 2, 3)]).setHPort 2 { serial := some 99, marks := 4 }), by decide⟩

theorem test_met_HorizonTraining_4 :
    ∃ (p : HPort) (f : HFrame) (x : Hello) (a b : Nat) (s : State), s.hznState p = hznEXCHANGE ∧ (fecHeard 0xFF f.err).isSome =
      true ∧ x.pkg ≠ s.pkgId ∧ x.noRev = false ∧ x.serial.toNat ≤ Config.serial.toNat ∧ (s.hPort p).serial = none ∧ x.width
      < 3 ∧ 0 < x.rev ∧ x.rev < 256 ∧ max x.lo (s.get (R.HZN_TRAIN_INFO_REV_MIN p)) ≤ x.rev ∧ x.rev ≤ min x.hi (s.get
      (R.HZN_TRAIN_INFO_REV_MAX p)) ∧ hznBlock ((s.hPort p).good.1 &&& (0xFF - (s.hPort p).marks % 256) &&& x.txGood)
      x.width = some a ∧ hznBlock ((s.hPort p).good.2 &&& x.rxGood) x.width = some b :=
  ⟨2, { typ := 1, ctype := 1 }, ⟨0, 7, 0, 2, 3, 0xFF, 0xFF, 1, 3, false⟩, 0xF, 0xF, ((wS [(R.HZN_STATUS_STATE 2, 3),
    (R.HZN_TRAIN_INFO_REV_MIN 2, 2), (R.HZN_TRAIN_INFO_REV_MAX 2, 3)]).setHPort 2 { good := (0xFF, 0xFF) }),
    by decide,
    by decide, by decide, by decide, Nat.zero_le _, by decide, by decide, by decide⟩

theorem test_met_HorizonTraining_5 :
    ∃ (p : HPort) (f : HFrame) (x : Hello) (a b : Nat) (s : State), s.hznState p = hznEXCHANGE ∧ (fecHeard 0xFF f.err).isSome =
      true ∧ x.pkg ≠ s.pkgId ∧ x.noRev = false ∧ (s.hPort p).serial = none ∧ x.width < 3 ∧ 0 < x.rev ∧ x.rev < 256 ∧ x.rev =
      min x.hi (s.get (R.HZN_TRAIN_INFO_REV_MAX p)) ∧ max x.lo (s.get (R.HZN_TRAIN_INFO_REV_MIN p)) ≤ x.rev ∧ hznWidth
      ((s.hPort p).good.1 &&& (0xFF - (s.hPort p).marks % 256) &&& x.txGood) ((s.hPort p).good.2 &&& x.rxGood) (max (min 2
      (s.get (R.HZN_CTL_MAX_WIDTH p))) ((s.hPort p).lower.getD 0)) = some (x.width, a, b) :=
  ⟨2, { typ := 1, ctype := 1 }, ⟨0, 7, 0, 2, 3, 0xFF, 0xFF, 0, 3, false⟩, 0xFF, 0xFF,
   ((wS [(R.HZN_STATUS_STATE 2, 3), (R.HZN_TRAIN_INFO_REV_MIN 2, 2), (R.HZN_TRAIN_INFO_REV_MAX 2, 3)]).setHPort 2
      { good := (0xFF, 0xFF) }), by decide⟩

theorem test_met_HorizonTraining_6 :
    ∃ (p : HPort) (f : HFrame) (x : Hello) (s : State), s.hznState p = hznEXCHANGE ∧ (fecHeard 0xFF f.err).isSome = true ∧ x.pkg
      ≠ s.pkgId ∧ x.noRev = false ∧ x.rev = 0 ∧ x.serial.toNat ≤ Config.serial.toNat ∧ (s.hPort p).serial = none :=
  ⟨2, { typ := 1, ctype := 1 }, ⟨0, 7, 0, 2, 3, 0xFF, 0xFF, 0, 0, false⟩, wS [(R.HZN_STATUS_STATE 2, 3)],
    by decide, by
    decide, by decide, by decide, by decide, Nat.zero_le _, by decide⟩

theorem test_met_HorizonTraining_7 :
    ∃ (p : HPort) (f : HFrame) (x : Hello) (s : State), s.hznState p = hznEXCHANGE ∧ (fecHeard 0xFF f.err).isSome = true ∧ x.pkg
      ≠ s.pkgId ∧ x.noRev = true ∧ x.serial.toNat ≤ Config.serial.toNat ∧ (s.hPort p).serial = none :=
  ⟨2, { typ := 1, ctype := 1 }, ⟨0, 7, 0, 2, 3, 0xFF, 0xFF, 0, 0, true⟩, wS [(R.HZN_STATUS_STATE 2, 3)],
    by decide, by
    decide, by decide, by decide, Nat.zero_le _, by decide⟩

theorem test_met_HorizonTraining_8 :
    ∃ (p : HPort) (f : HFrame) (x : Hello) (s : State), s.hznState p = hznEXCHANGE ∧ (fecHeard 0xFF f.err).isSome = true ∧ x.pkg
      ≠ s.pkgId ∧ x.noRev = false ∧ x.serial.toNat ≤ Config.serial.toNat ∧ (s.hPort p).serial = none ∧ 0 < x.rev ∧ max x.lo
      (s.get (R.HZN_TRAIN_INFO_REV_MIN p)) ≤ x.rev ∧ x.rev ≤ min x.hi (s.get (R.HZN_TRAIN_INFO_REV_MAX p)) ∧ (2 < x.width ∨
      hznBlock ((s.hPort p).good.1 &&& (0xFF - (s.hPort p).marks % 256) &&& x.txGood) x.width = none ∨ hznBlock ((s.hPort
      p).good.2 &&& x.rxGood) x.width = none) :=
  ⟨2, { typ := 1, ctype := 1 }, ⟨0, 7, 0, 2, 3, 0xFF, 0xFF, 3, 3, false⟩, ((wS [(R.HZN_STATUS_STATE 2, 3),
    (R.HZN_TRAIN_INFO_REV_MIN 2, 2), (R.HZN_TRAIN_INFO_REV_MAX 2, 3)]).setHPort 2 { good := (0xFF, 0xFF) }),
    by decide,
    by decide, by decide, by decide, Nat.zero_le _, by decide, by decide⟩

theorem test_met_HorizonTraining_9 :
    ∃ (p : HPort) (f : HFrame) (x : Hello) (s : State), (s.hznState p < hznEXCHANGE ∨ s.hznState p = hznCONFIG ∨ (s.hznState p =
      hznRETRAIN ∧ (s.hPort p).agreed = true)) :=
  ⟨2, { typ := 1, ctype := 1 }, ⟨5, 7, 0, 2, 3, 0xFF, 0xFF, 0, 3, false⟩, wS [], by decide⟩

theorem test_met_HorizonTraining_10 :
    ∃ (p : HPort) (s : State), s.hznState p = hznACTIVE :=
  ⟨2, wS [(R.HZN_STATUS_STATE 2, 5)], by decide⟩

theorem test_met_HorizonTraining_11 :
    ∃ (p : HPort) (s : State), s.hznState p ≠ hznACTIVE :=
  ⟨2, wS [], by decide⟩

theorem test_met_HorizonTraining_12 :
    ∃ (p : HPort) (f : HFrame) (n b : Nat) (fr : List Nat) (s : State), s.hznState p = hznCONFIG ∧ (fecHeard 0xFF f.err).isSome
      = true ∧ s.hzn.reneg = [] ∧ s.NoneMoved p ∧ s.get (R.HZN_STATUS_WIDTH p) ≠ 2 ∧ s.hznSibling p = none :=
  ⟨2, { typ := 1, ctype := 2 }, 3, 9, [4, 4],
   ((wS [(R.HZN_STATUS_STATE 2, 4)]).setHPort 2 { replay := [⟨2, 8, []⟩, ⟨3, 9, []⟩] }), by decide⟩

theorem test_met_HorizonTraining_13 :
    ∃ (p : HPort) (f : HFrame) (n b : Nat) (fr : List Nat) (s : State), s.hznState p = hznCONFIG ∧ (fecHeard 0xFF f.err).isSome
      = true ∧ s.hzn.reneg = [] ∧ s.NoneMoved p ∧ s.get (R.HZN_STATUS_WIDTH p) ≠ 2 ∧ s.hznSibling p ≠ none :=
  ⟨2, { typ := 1, ctype := 2 }, 3, 9, [4, 4],
   wS [(R.HZN_STATUS_STATE 2, 4), (R.HZN_STATUS_STATE 3, 5), (R.HZN_STATUS_REVISION 2, 3), (R.HZN_STATUS_REVISION 3, 3)],
   by decide⟩

theorem test_met_HorizonTraining_14 :
    ∃ (p : HPort) (f : HFrame) (n b : Nat) (fr : List Nat) (s : State), s.hznState p = hznRETRAIN ∧ (s.hPort p).agreed = true ∧
      (fecHeard 0xFF f.err).isSome = true ∧ s.hzn.reneg = [] ∧ s.NoneMoved p ∧ s.get (R.HZN_STATUS_WIDTH p) ≠ 2 :=
  ⟨2, { typ := 1, ctype := 2 }, 3, 9, [4, 4],
   ((wS [(R.HZN_STATUS_STATE 2, 6), (R.HZN_STATUS_WIDTH 2, 1)]).setHPort 2 { agreed := true, oldW := 0 }), by decide⟩

theorem test_met_HorizonTraining_15 :
    ∃ (p : HPort) (f : HFrame) (n b : Nat) (fr : List Nat) (s : State), s.hznState p = hznCONFIG ∧ (fecHeard 0xFF f.err).isSome
      = true ∧ s.hzn.reneg = [] ∧ s.NoneMoved p ∧ s.get (R.HZN_STATUS_WIDTH p) = 2 ∧ (s.hPort p).warn = false ∧ s.hznSibling
      p = none :=
  ⟨2, { typ := 1, ctype := 2 }, 3, 9, [4, 4], wS [(R.HZN_STATUS_STATE 2, 4), (R.HZN_STATUS_WIDTH 2, 2)], by decide⟩

theorem test_met_HorizonTraining_16 :
    ∃ (p : HPort) (f : HFrame) (n b : Nat) (fr : List Nat) (s : State), (s.hznState p < hznCONFIG ∨ (s.hznState p = hznRETRAIN ∧
      (s.hPort p).agreed = false)) :=
  ⟨2, { typ := 1, ctype := 2 }, 3, 9, [4, 4], wS [], by decide⟩

theorem test_met_HorizonTraining_17 :
    ∃ (p : HPort) (r g : Nat) (s : State), s.hznState p = hznPMD ∧ s.ucRestarting ucHZN = false ∧ 2 ≤ popCount 8 (r % 256 &&&
      (0xFF - (s.hPort p).marks % 256)) ∧ 2 ≤ popCount 8 (g % 256) :=
  ⟨2, 0xF, 0xFF, wS [(R.HZN_STATUS_STATE 2, 1)], by decide⟩

theorem test_met_HorizonTraining_18 :
    ∃ (p : HPort) (r g : Nat) (s : State), s.hznState p = hznPMD ∧ s.ucRestarting ucHZN = false ∧ (popCount 8 (r % 256 &&& (0xFF
      - (s.hPort p).marks % 256)) < 2 ∨ popCount 8 (g % 256) < 2) :=
  ⟨2, 1, 0xFF, wS [(R.HZN_STATUS_STATE 2, 1)], by decide⟩

theorem test_met_HorizonTraining_19 :
    ∃ (p : HPort) (r g : Nat) (s : State), (s.hznState p ≠ hznPMD ∨ s.ucRestarting ucHZN = true) :=
  ⟨2, 1, 0xFF, wS [], by decide⟩

theorem test_met_HorizonTraining_20 :
    ∃ (p : HPort) (s : State), s.hznState p = hznALIGN ∧ s.ucRestarting ucHZN = false :=
  ⟨2, wS [(R.HZN_STATUS_STATE 2, 2)], by decide⟩

theorem test_met_HorizonTraining_21 :
    ∃ (p : HPort) (s : State), (s.hznState p ≠ hznALIGN ∨ s.ucRestarting ucHZN = true) :=
  ⟨2, wS [], by decide⟩

theorem test_met_HorizonTraining_22 :
    ∃ (p : HPort) (s : State), s.hznState p = hznPMD :=
  ⟨2, wS [(R.HZN_STATUS_STATE 2, 1)], by decide⟩

theorem test_met_HorizonTraining_23 :
    ∃ (p : HPort) (s : State), s.hznState p = hznALIGN :=
  ⟨2, wS [(R.HZN_STATUS_STATE 2, 2)], by decide⟩

theorem test_met_HorizonTraining_24 :
    ∃ (p : HPort) (s : State), s.hznState p = hznCONFIG :=
  ⟨2, wS [(R.HZN_STATUS_STATE 2, 4)], by decide⟩

theorem test_met_HorizonTraining_25 :
    ∃ (p : HPort) (s : State), s.hznState p = hznEXCHANGE :=
  ⟨2, wS [(R.HZN_STATUS_STATE 2, 3)], by decide⟩

theorem test_met_HorizonTraining_26 :
    ∃ (p : HPort) (s : State), (s.hznState p = hznDISABLED ∨ s.hznState p = hznACTIVE ∨ s.hznState p = hznRETRAIN) :=
  ⟨2, wS [], by decide⟩

theorem test_met_HorizonTraining_27 :
    ∃ (p : HPort) (s : State), (s.hPort p).wait = .second ∧ s.hznState p = hznDISABLED ∧ (s.hPort p).hand = false ∧ s.flag
      (R.HZN_CTL_ENABLE p) = true :=
  ⟨2, ((wS [(R.HZN_STATUS_STATE 2, 0), (R.HZN_CTL_ENABLE 2, 1)]).setHPort 2 { wait := .second }), by decide⟩

theorem test_met_HorizonTraining_28 :
    ∃ (p : HPort) (s : State), ((s.hPort p).wait ≠ .second ∨ s.hznState p ≠ hznDISABLED ∨ (s.hPort p).hand = true ∨ s.flag
      (R.HZN_CTL_ENABLE p) = false) :=
  ⟨2, wS [], by decide⟩

theorem test_met_HorizonTraining_29 :
    ∃ (p : HPort) (s : State), s.hznState p = hznDISABLED ∧ (s.hPort p).hand = false :=
  ⟨2, wS [(R.HZN_STATUS_STATE 2, 0)], by decide⟩

theorem test_met_HorizonTraining_30 :
    ∃ (p : HPort) (s : State), s.hznState p = hznDISABLED ∧ (s.hPort p).hand = false :=
  ⟨2, wS [(R.HZN_STATUS_STATE 2, 0)], by decide⟩

theorem test_met_HorizonTraining_31 :
    ∃ (p : HPort) (b : Bool) (s : State), (s.hznState p ≠ hznDISABLED ∨ (s.hPort p).hand = true) :=
  ⟨2, true, wS [(R.HZN_STATUS_STATE 2, 5)], by decide⟩

theorem test_met_HorizonTraining_32 :
    ∃ (p : HPort) (b : Bool) (s : State), hznDISABLED < s.hznState p ∧ s.hznState p < hznACTIVE :=
  ⟨2, false, wS [(R.HZN_STATUS_STATE 2, 2), (R.HZN_CTL_ENABLE 2, 1)], by decide⟩

theorem test_met_HorizonTraining_33 :
    ∃ (p : HPort) (b : Bool) (s : State), s.hznState p = hznDISABLED :=
  ⟨2, false, wS [(R.HZN_STATUS_STATE 2, 0), (R.HZN_CTL_ENABLE 2, 1)], by decide⟩

theorem test_met_HorizonTraining_34 :
    ∃ (p q : HPort) (b : Bool) (s : State), s.hznState p = hznACTIVE ∧ s.hznSibling p = some (q : Nat) ∧ q ≠ p ∧ (s.hPort
      p).moved = [] ∧ s.hzn.reneg = [] :=
  ⟨2, 3, false,
   wS [(R.HZN_STATUS_STATE 2, 5), (R.HZN_STATUS_STATE 3, 5), (R.HZN_STATUS_REVISION 2, 3), (R.HZN_STATUS_REVISION 3, 3)],
   by decide⟩

theorem test_met_HorizonTraining_35 :
    ∃ (p : HPort) (b : Bool) (s : State), s.hznState p = hznACTIVE ∧ s.hznSibling p = none ∧ (s.hPort p).replay = [] ∧ (s.hPort
      p).moved = [] ∧ s.hzn.reneg = [] ∧ (s.hStrm (s.get (R.HZN_PARTNER_SERIAL_SERIAL p))).wait = [] :=
  ⟨2, false, wS [(R.HZN_STATUS_STATE 2, 5)], by decide⟩

theorem test_met_HorizonTraining_36 :
    ∃ (p : HPort) (s : State), s.hznState p = hznDISABLED ∧ (s.hPort p).wait = .marks ∧ (s.hPort p).hand = false ∧ s.flag
      (R.HZN_CTL_ENABLE p) = true :=
  ⟨2,
   ((wS [(R.HZN_STATUS_STATE 2, 0), (R.HZN_CTL_ENABLE 2, 1), (R.HZN_LANES_RX_MARKED 2, 3)]).setHPort 2
      { wait := .marks, marks := 3 }), by decide⟩

theorem test_met_HorizonTraining_37 :
    ∃ (p : HPort) (s : State), (s.hznState p ≠ hznDISABLED ∨ (s.hPort p).wait ≠ .marks ∨ (s.hPort p).hand = true ∨ s.flag
      (R.HZN_CTL_ENABLE p) = false) :=
  ⟨2, ((wS [(R.HZN_STATUS_STATE 2, 5), (R.HZN_LANES_RX_MARKED 2, 3)]).setHPort 2 { marks := 3 }), by decide⟩

theorem test_met_HorizonTraining_38 :
    ∃ (p : HPort) (f : HFrame) (a b : Nat) (s : State), s.FrameAt p f ∧ s.get (R.HZN_CTL_TIME_ROLE p) = 1 ∧ s.get
      (R.HZN_STATUS_REVISION p) = 3 :=
  ⟨2, { typ := 1, ctype := 6 }, 100, 7,
   wS [(R.HZN_STATUS_STATE 2, 5), (R.HZN_CTL_TIME_ROLE 2, 1), (R.HZN_STATUS_REVISION 2, 3)], by decide⟩

theorem test_met_HorizonTraining_39 :
    ∃ (p : HPort) (f : HFrame) (a b : Nat) (s : State), s.FrameAt p f ∧ (s.get (R.HZN_CTL_TIME_ROLE p) ≠ 1 ∨ s.get
      (R.HZN_STATUS_REVISION p) ≠ 3) :=
  ⟨2, { typ := 1, ctype := 6 }, 100, 7, wS [(R.HZN_STATUS_STATE 2, 5)], by decide⟩

theorem test_met_HorizonTraining_40 :
    ∃ (p : HPort) (f : HFrame) (a b : Nat) (s : State), s.hznState p ≠ hznACTIVE :=
  ⟨2, { typ := 1, ctype := 6 }, 100, 7, wS [], by decide⟩

theorem test_met_HorizonTraining_41 :
    ∃ (p : HPort) (s : State), s.hznState p = hznACTIVE ∧ s.get (R.HZN_CTL_TIME_ROLE p) = 2 ∧ s.get (R.HZN_STATUS_REVISION p) =
      3 :=
  ⟨2, wS [(R.HZN_STATUS_STATE 2, 5), (R.HZN_CTL_TIME_ROLE 2, 2), (R.HZN_STATUS_REVISION 2, 3)], by decide⟩

theorem test_met_HorizonTraining_42 :
    ∃ (p : HPort) (s : State), (s.hznState p ≠ hznACTIVE ∨ s.get (R.HZN_CTL_TIME_ROLE p) ≠ 2 ∨ s.get (R.HZN_STATUS_REVISION p) ≠
      3) :=
  ⟨2, wS [], by decide⟩

theorem test_met_HorizonTraining_43 :
    ∃ (p : HPort) (f : HFrame) (a b c : Nat × Nat) (s : State), s.FrameAt p f ∧ s.get (R.HZN_CTL_TIME_ROLE p) = 2 ∧ s.get
      (R.HZN_STATUS_REVISION p) = 3 ∧ (s.get R.TIME_CTL_SOURCE ≠ 2 ∧ (s.get R.TIME_CTL_SOURCE ≠ 3 ∨ s.pwr.lastPps ≠ none)) :=
  ⟨2, { typ := 1, ctype := 7 }, (1000, 3), (1100, 0), (1200, 9),
   wS [(R.HZN_STATUS_STATE 2, 5), (R.HZN_CTL_TIME_ROLE 2, 2), (R.HZN_STATUS_REVISION 2, 3)], by decide⟩

theorem test_met_HorizonTraining_44 :
    ∃ (p : HPort) (f : HFrame) (a b c : Nat × Nat) (s : State), s.FrameAt p f ∧ s.get (R.HZN_CTL_TIME_ROLE p) = 2 ∧ s.get
      (R.HZN_STATUS_REVISION p) = 3 ∧ s.get R.TIME_CTL_SOURCE = 2 :=
  ⟨2, { typ := 1, ctype := 7 }, (1000, 3), (1100, 0), (1200, 9),
   wS [(R.HZN_STATUS_STATE 2, 5), (R.HZN_CTL_TIME_ROLE 2, 2), (R.HZN_STATUS_REVISION 2, 3), (R.TIME_CTL_SOURCE, 2)],
   by decide⟩

theorem test_met_HorizonTraining_45 :
    ∃ (p : HPort) (f : HFrame) (a b c : Nat × Nat) (s : State), s.FrameAt p f ∧ (s.get (R.HZN_CTL_TIME_ROLE p) ≠ 2 ∨ s.get
      (R.HZN_STATUS_REVISION p) ≠ 3) :=
  ⟨2, { typ := 1, ctype := 7 }, (1000, 3), (1100, 0), (1200, 9), wS [(R.HZN_STATUS_STATE 2, 5)], by decide⟩

theorem test_met_HorizonTraining_46 :
    ∃ (p : HPort) (f : HFrame) (a b c : Nat × Nat) (s : State), s.hznState p ≠ hznACTIVE :=
  ⟨2, { typ := 1, ctype := 7 }, (1000, 3), (1100, 0), (1200, 9), wS [], by decide⟩

theorem test_met_IslandJoins_1 :
    ∃ (s : State), s.isl = islALONE ∧ (List.range 32).all (fun i => i == s.selfIx || s.memState i != memADMITTED) = true :=
  ⟨wS [(R.ROUTE_ISLAND_STATUS_STATE, islALONE), (R.ROUTE_ISLAND_CTL_SELF_INDEX, 4), (R.ROUTE_ISLAND_CTL_ISLAND_ID, 77)],
   by decide⟩

theorem test_met_IslandJoins_2 :
    ∃ (i : Fin 32) (s : State), s.isl = islALONE ∧ s.membersWhere (fun j => j != s.selfIx && s.memState j == memADMITTED) =
      [i.val] :=
  ⟨1,
   wS
     [(R.ROUTE_ISLAND_STATUS_STATE, islALONE), (R.ROUTE_ISLAND_CTL_SELF_INDEX, 4), (R.ROUTE_ISLAND_CTL_ISLAND_ID, 77),
      (R.ROUTE_MEMBER_PACKAGE_ID 1, 6), (R.ROUTE_MEMBER_STATE 1, memADMITTED)], by decide⟩

theorem test_met_IslandJoins_3 :
    ∃ (i j : Fin 32) (s : State), s.isl = islALONE ∧ s.membersWhere (fun j => j != s.selfIx && s.memState j == memADMITTED) =
      [i.val, j.val] :=
  ⟨1, 2,
   wS
     [(R.ROUTE_ISLAND_STATUS_STATE, islALONE), (R.ROUTE_ISLAND_CTL_SELF_INDEX, 4), (R.ROUTE_ISLAND_CTL_ISLAND_ID, 77),
      (R.ROUTE_MEMBER_PACKAGE_ID 1, 6), (R.ROUTE_MEMBER_STATE 1, memADMITTED), (R.ROUTE_MEMBER_PACKAGE_ID 2, 9),
      (R.ROUTE_MEMBER_STATE 2, memADMITTED)], by decide⟩

theorem test_met_IslandJoins_4 :
    ∃ (s : State), s.isl ≠ islALONE :=
  ⟨wS [(R.ROUTE_ISLAND_STATUS_STATE, islJOINED), (R.ROUTE_ISLAND_CTL_SELF_INDEX, 4), (R.ROUTE_ISLAND_CTL_ISLAND_ID, 77)],
   by decide⟩

theorem test_met_IslandJoins_5 :
    ∃ (m : WMsg) (s : State), m.dstPkg = s.pkgId ∧ m.vc = vcPOST ∧ m.wopc = 2 ∧ (m.icode = 0 ∨ 7 < m.icode) :=
  ⟨{ vc := vcPOST, wopc := 2, srcPkg := 6, dstPkg := 0, icode := 9 },
   wS [(R.ROUTE_ISLAND_STATUS_STATE, islJOINED), (R.ROUTE_ISLAND_CTL_SELF_INDEX, 4), (R.ROUTE_ISLAND_CTL_ISLAND_ID, 77)],
   by decide⟩

theorem test_met_IslandJoins_6 :
    ∃ (m : WMsg) (s : State), (m.dstPkg ≠ s.pkgId ∨ m.vc ≠ vcPOST ∨ m.wopc ≠ 2 ∨ (1 ≤ m.icode ∧ m.icode ≤ 7 ∧ m.icode ≠ 1)) :=
  ⟨{ vc := vcPOST, wopc := 2, srcPkg := 6, dstPkg := 0, icode := 2 },
   wS [(R.ROUTE_ISLAND_STATUS_STATE, islJOINED), (R.ROUTE_ISLAND_CTL_SELF_INDEX, 4), (R.ROUTE_ISLAND_CTL_ISLAND_ID, 77)],
   by decide⟩

theorem test_met_IslandJoins_7 :
    ∃ (m : WMsg) (s : State), m.dstPkg = s.pkgId ∧ m.vc = vcPOST ∧ m.wopc = 2 ∧ (m.icode = 0 ∨ 7 < m.icode) :=
  ⟨{ vc := vcPOST, wopc := 2, srcPkg := 6, dstPkg := 0, icode := 9 },
   wS [(R.ROUTE_ISLAND_STATUS_STATE, islJOINED), (R.ROUTE_ISLAND_CTL_SELF_INDEX, 4), (R.ROUTE_ISLAND_CTL_ISLAND_ID, 77)],
   by decide⟩

theorem test_met_IslandJoins_8 :
    ∃ (m : WMsg) (s : State), (m.dstPkg ≠ s.pkgId ∨ m.vc ≠ vcPOST ∨ m.wopc ≠ 2 ∨ (1 ≤ m.icode ∧ m.icode ≤ 7 ∧ m.icode ≠ 2)) :=
  ⟨{ vc := vcPOST, wopc := 2, srcPkg := 6, dstPkg := 0, icode := 1 },
   wS [(R.ROUTE_ISLAND_STATUS_STATE, islJOINED), (R.ROUTE_ISLAND_CTL_SELF_INDEX, 4), (R.ROUTE_ISLAND_CTL_ISLAND_ID, 77)],
   by decide⟩

theorem test_met_IslandJoins_9 :
    ∃ (m : WMsg) (s : State), m.dstPkg = s.pkgId ∧ m.vc = vcPOST ∧ m.wopc = 2 ∧ (m.icode = 0 ∨ 7 < m.icode) :=
  ⟨{ vc := vcPOST, wopc := 2, srcPkg := 6, dstPkg := 0, icode := 9 },
   wS [(R.ROUTE_ISLAND_STATUS_STATE, islJOINED), (R.ROUTE_ISLAND_CTL_SELF_INDEX, 4), (R.ROUTE_ISLAND_CTL_ISLAND_ID, 77)],
   by decide⟩

theorem test_met_IslandJoins_10 :
    ∃ (m : WMsg) (s : State), (m.dstPkg ≠ s.pkgId ∨ m.vc ≠ vcPOST ∨ m.wopc ≠ 2 ∨ (1 ≤ m.icode ∧ m.icode ≤ 7 ∧ m.icode ≠ 3)) :=
  ⟨{ vc := vcPOST, wopc := 2, srcPkg := 6, dstPkg := 0, icode := 1 },
   wS [(R.ROUTE_ISLAND_STATUS_STATE, islJOINED), (R.ROUTE_ISLAND_CTL_SELF_INDEX, 4), (R.ROUTE_ISLAND_CTL_ISLAND_ID, 77)],
   by decide⟩

theorem test_met_IslandJoins_11 :
    ∃ (m : WMsg) (s : State), m.dstPkg = s.pkgId ∧ m.vc = vcPOST ∧ m.wopc = 2 ∧ (m.icode = 0 ∨ 7 < m.icode) :=
  ⟨{ vc := vcPOST, wopc := 2, srcPkg := 6, dstPkg := 0, icode := 9 },
   wS [(R.ROUTE_ISLAND_STATUS_STATE, islJOINED), (R.ROUTE_ISLAND_CTL_SELF_INDEX, 4), (R.ROUTE_ISLAND_CTL_ISLAND_ID, 77)],
   by decide⟩

theorem test_met_IslandJoins_12 :
    ∃ (m : WMsg) (s : State), (m.dstPkg ≠ s.pkgId ∨ m.vc ≠ vcPOST ∨ m.wopc ≠ 2 ∨ (1 ≤ m.icode ∧ m.icode ≤ 7 ∧ m.icode ≠ 7)) :=
  ⟨{ vc := vcPOST, wopc := 2, srcPkg := 6, dstPkg := 0, icode := 1 },
   wS [(R.ROUTE_ISLAND_STATUS_STATE, islJOINED), (R.ROUTE_ISLAND_CTL_SELF_INDEX, 4), (R.ROUTE_ISLAND_CTL_ISLAND_ID, 77)],
   by decide⟩

theorem test_met_IslandJoins_13 :
    ∃ (m : WMsg) (i : Fin 32) (s : State), s.IslandMsg m icJOIN_REQ ∧ s.isl = islJOINED ∧ s.wRev m = 3 ∧ m.islandId = s.get
      R.ROUTE_ISLAND_CTL_ISLAND_ID ∧ m.member = i ∧ s.memState i = memADMITTED ∧ s.memPkg i = m.srcPkg ∧ s.memOf m.srcPkg
      [memACTIVE, memLEAVING] = none :=
  ⟨{ vc := vcPOST, wopc := 2, srcPkg := 6, dstPkg := 0, icode := 1, member := 1, islandId := 77 }, 1,
   wS
     [(R.ROUTE_ISLAND_STATUS_STATE, islJOINED), (R.ROUTE_ISLAND_CTL_SELF_INDEX, 4), (R.ROUTE_ISLAND_CTL_ISLAND_ID, 77),
      (R.ROUTE_MEMBER_PACKAGE_ID 1, 6), (R.ROUTE_MEMBER_STATE 1, memADMITTED)], by decide⟩

theorem test_met_IslandJoins_14 :
    ∃ (m : WMsg) (s : State), s.IslandMsg m icJOIN_REQ ∧ s.wRev m ≠ 3 :=
  ⟨{ vc := vcPOST, wopc := 2, srcPkg := 6, dstPkg := 0, icode := 1 },
   { wS [(R.ROUTE_ISLAND_STATUS_STATE, islJOINED), (R.ROUTE_ISLAND_CTL_SELF_INDEX, 4), (R.ROUTE_ISLAND_CTL_ISLAND_ID, 77)] with
       hzn := { ports := [(2, { rxq := [(9, .win { vc := vcPOST, wopc := 2, srcPkg := 6, dstPkg := 0, icode := 1 })] })] } },
   by decide⟩

theorem test_met_IslandJoins_15 :
    ∃ (m : WMsg) (s : State), s.IslandMsg m icJOIN_REQ ∧ s.wRev m = 3 ∧ m.islandId ≠ s.get R.ROUTE_ISLAND_CTL_ISLAND_ID :=
  ⟨{ vc := vcPOST, wopc := 2, srcPkg := 6, dstPkg := 0, icode := 1, member := 1, islandId := 78 },
   wS
     [(R.ROUTE_ISLAND_STATUS_STATE, islJOINED), (R.ROUTE_ISLAND_CTL_SELF_INDEX, 4), (R.ROUTE_ISLAND_CTL_ISLAND_ID, 77),
      (R.ROUTE_MEMBER_PACKAGE_ID 1, 6), (R.ROUTE_MEMBER_STATE 1, memADMITTED)], by decide⟩

theorem test_met_IslandJoins_16 :
    ∃ (m : WMsg) (s : State), s.IslandMsg m icJOIN_REQ ∧ s.wRev m = 3 ∧ m.islandId = s.get R.ROUTE_ISLAND_CTL_ISLAND_ID ∧
      s.memOf m.srcPkg [memACTIVE, memLEAVING] ≠ none :=
  ⟨{ vc := vcPOST, wopc := 2, srcPkg := 6, dstPkg := 0, icode := 1, member := 1, islandId := 77 },
   wS
     [(R.ROUTE_ISLAND_STATUS_STATE, islJOINED), (R.ROUTE_ISLAND_CTL_SELF_INDEX, 4), (R.ROUTE_ISLAND_CTL_ISLAND_ID, 77),
      (R.ROUTE_MEMBER_PACKAGE_ID 1, 6), (R.ROUTE_MEMBER_STATE 1, memACTIVE)], by decide⟩

theorem test_met_IslandJoins_17 :
    ∃ (m : WMsg) (s : State), s.IslandMsg m icJOIN_REQ ∧ s.wRev m = 3 ∧ m.islandId = s.get R.ROUTE_ISLAND_CTL_ISLAND_ID ∧
      s.memOf m.srcPkg [memACTIVE, memLEAVING] = none ∧ ((s.memState (m.member % 32) = memACTIVE ∨ s.memState (m.member %
      32) = memLEAVING ∨ s.memState (m.member % 32) = memSELF)) :=
  ⟨{ vc := vcPOST, wopc := 2, srcPkg := 6, dstPkg := 0, icode := 1, member := 1, islandId := 77 },
   wS
     [(R.ROUTE_ISLAND_STATUS_STATE, islJOINED), (R.ROUTE_ISLAND_CTL_SELF_INDEX, 4), (R.ROUTE_ISLAND_CTL_ISLAND_ID, 77),
      (R.ROUTE_MEMBER_PACKAGE_ID 1, 7), (R.ROUTE_MEMBER_STATE 1, memACTIVE)], by decide⟩

theorem test_met_IslandJoins_18 :
    ∃ (m : WMsg) (s : State), s.IslandMsg m icJOIN_REQ ∧ s.wRev m = 3 ∧ m.islandId = s.get R.ROUTE_ISLAND_CTL_ISLAND_ID ∧
      s.memOf m.srcPkg [memACTIVE, memLEAVING] = none ∧ (s.memState (m.member % 32) = memFREE ∨ s.memState (m.member % 32) =
      memLOST ∨ (s.memState (m.member % 32) = memADMITTED ∧ (s.isl ≠ islJOINED ∨ s.memPkg (m.member % 32) ≠ m.srcPkg))) :=
  ⟨{ vc := vcPOST, wopc := 2, srcPkg := 6, dstPkg := 0, icode := 1, member := 1, islandId := 77 },
   wS [(R.ROUTE_ISLAND_STATUS_STATE, islJOINED), (R.ROUTE_ISLAND_CTL_SELF_INDEX, 4), (R.ROUTE_ISLAND_CTL_ISLAND_ID, 77)],
   by decide⟩

theorem test_met_IslandJoins_19 :
    ∃ (m : WMsg) (i : Fin 32) (s : State), s.IslandMsg m icJOIN_ACK ∧ s.isl = islJOINING ∧ s.memOf m.srcPkg [memADMITTED] = some
      i.val ∧ s.hzn.joinWait = 1 <<< i.val ∧ s.selfIx ≠ i :=
  ⟨{ vc := vcPOST, wopc := 2, srcPkg := 6, dstPkg := 0, icode := 2 }, 1,
   { wS
       [(R.ROUTE_ISLAND_STATUS_STATE, islJOINING), (R.ROUTE_ISLAND_CTL_SELF_INDEX, 4),
        (R.ROUTE_ISLAND_CTL_ISLAND_ID, 77), (R.ROUTE_MEMBER_PACKAGE_ID 1, 6), (R.ROUTE_MEMBER_STATE 1, memADMITTED)] with
       hzn := { joinWait := 2 } }, by decide⟩

theorem test_met_IslandJoins_20 :
    ∃ (m : WMsg) (i : Fin 32) (s : State), s.IslandMsg m icJOIN_ACK ∧ s.isl = islJOINING ∧ s.memOf m.srcPkg [memADMITTED] = some
      i.val ∧ s.hzn.joinWait.testBit i = true ∧ without s.hzn.joinWait i ≠ 0 :=
  ⟨{ vc := vcPOST, wopc := 2, srcPkg := 6, dstPkg := 0, icode := 2 }, 1,
   { wS
       [(R.ROUTE_ISLAND_STATUS_STATE, islJOINING), (R.ROUTE_ISLAND_CTL_SELF_INDEX, 4),
        (R.ROUTE_ISLAND_CTL_ISLAND_ID, 77), (R.ROUTE_MEMBER_PACKAGE_ID 1, 6), (R.ROUTE_MEMBER_STATE 1, memADMITTED)] with
       hzn := { joinWait := 10 } }, by decide⟩

theorem test_met_IslandJoins_21 :
    ∃ (m : WMsg) (i : Fin 32) (s : State), s.IslandMsg m icJOIN_ACK ∧ s.isl = islALONE ∧ s.memOf m.srcPkg [memADMITTED] = some
      i.val :=
  ⟨{ vc := vcPOST, wopc := 2, srcPkg := 6, dstPkg := 0, icode := 2 }, 1,
   wS
     [(R.ROUTE_ISLAND_STATUS_STATE, islALONE), (R.ROUTE_ISLAND_CTL_SELF_INDEX, 4), (R.ROUTE_ISLAND_CTL_ISLAND_ID, 77),
      (R.ROUTE_MEMBER_PACKAGE_ID 1, 6), (R.ROUTE_MEMBER_STATE 1, memADMITTED)], by decide⟩

theorem test_met_IslandJoins_22 :
    ∃ (m : WMsg) (s : State), s.IslandMsg m icJOIN_ACK ∧ s.memOf m.srcPkg [memADMITTED] = none :=
  ⟨{ vc := vcPOST, wopc := 2, srcPkg := 6, dstPkg := 0, icode := 2 },
   wS [(R.ROUTE_ISLAND_STATUS_STATE, islALONE), (R.ROUTE_ISLAND_CTL_SELF_INDEX, 4), (R.ROUTE_ISLAND_CTL_ISLAND_ID, 77)],
   by decide⟩

theorem test_met_IslandJoins_23 :
    ∃ (m : WMsg) (i : Fin 32) (s : State), s.IslandMsg m icJOIN_NAK ∧ s.isl = islJOINING ∧ s.memOf m.srcPkg [memADMITTED] = some
      i.val ∧ s.hzn.joinWait.testBit i = true ∧ s.hzn.joinAck = 0 ∧ m.nakCause < 8 :=
  ⟨{ vc := vcPOST, wopc := 2, srcPkg := 6, dstPkg := 0, icode := 3, nakCause := 4 }, 1,
   { wS
       [(R.ROUTE_ISLAND_STATUS_STATE, islJOINING), (R.ROUTE_ISLAND_CTL_SELF_INDEX, 4),
        (R.ROUTE_ISLAND_CTL_ISLAND_ID, 77), (R.ROUTE_MEMBER_PACKAGE_ID 1, 6), (R.ROUTE_MEMBER_STATE 1, memADMITTED)] with
       hzn := { joinWait := 2 } }, by decide⟩

theorem test_met_IslandJoins_24 :
    ∃ (m : WMsg) (i : Fin 32) (j : Fin 32) (s : State), s.IslandMsg m icJOIN_NAK ∧ s.isl = islJOINING ∧ s.memOf m.srcPkg
      [memADMITTED] = some i.val ∧ s.hzn.joinWait.testBit i = true ∧ s.hzn.joinAck = 1 <<< j.val ∧ m.nakCause < 8 :=
  ⟨{ vc := vcPOST, wopc := 2, srcPkg := 6, dstPkg := 0, icode := 3, nakCause := 4 }, 1, 2,
   { wS
       [(R.ROUTE_ISLAND_STATUS_STATE, islJOINING), (R.ROUTE_ISLAND_CTL_SELF_INDEX, 4),
        (R.ROUTE_ISLAND_CTL_ISLAND_ID, 77), (R.ROUTE_MEMBER_PACKAGE_ID 1, 6), (R.ROUTE_MEMBER_STATE 1, memADMITTED),
        (R.ROUTE_MEMBER_PACKAGE_ID 2, 9), (R.ROUTE_MEMBER_STATE 2, memACTIVE)] with
       hzn := { joinWait := 2, joinAck := 4 } }, by decide⟩

theorem test_met_IslandJoins_25 :
    ∃ (m : WMsg) (s : State), s.IslandMsg m icJOIN_NAK ∧ (s.isl ≠ islJOINING ∨ s.memOf m.srcPkg [memADMITTED] = none) :=
  ⟨{ vc := vcPOST, wopc := 2, srcPkg := 6, dstPkg := 0, icode := 3 },
   wS [(R.ROUTE_ISLAND_STATUS_STATE, islALONE), (R.ROUTE_ISLAND_CTL_SELF_INDEX, 4), (R.ROUTE_ISLAND_CTL_ISLAND_ID, 77)],
   by decide⟩

theorem test_met_IslandJoins_26 :
    ∃ (s : State), s.isl = islJOINING ∧ s.hzn.joinAck = 0 :=
  ⟨{ wS
       [(R.ROUTE_ISLAND_STATUS_STATE, islJOINING), (R.ROUTE_ISLAND_CTL_SELF_INDEX, 4),
        (R.ROUTE_ISLAND_CTL_ISLAND_ID, 77), (R.ROUTE_MEMBER_PACKAGE_ID 1, 6), (R.ROUTE_MEMBER_STATE 1, memADMITTED)] with
       hzn := { joinWait := 2 } }, by decide⟩

theorem test_met_IslandJoins_27 :
    ∃ (j : Fin 32) (s : State), s.isl = islJOINING ∧ s.hzn.joinAck = 1 <<< j.val :=
  ⟨1,
   { wS
       [(R.ROUTE_ISLAND_STATUS_STATE, islJOINING), (R.ROUTE_ISLAND_CTL_SELF_INDEX, 4),
        (R.ROUTE_ISLAND_CTL_ISLAND_ID, 77), (R.ROUTE_MEMBER_PACKAGE_ID 1, 6), (R.ROUTE_MEMBER_STATE 1, memACTIVE),
        (R.ROUTE_MEMBER_PACKAGE_ID 2, 9), (R.ROUTE_MEMBER_STATE 2, memADMITTED)] with
       hzn := { joinWait := 4, joinAck := 2 } }, by decide⟩

theorem test_met_IslandJoins_28 :
    ∃ (s : State), s.isl ≠ islJOINING :=
  ⟨wS [(R.ROUTE_ISLAND_STATUS_STATE, islJOINED), (R.ROUTE_ISLAND_CTL_SELF_INDEX, 4), (R.ROUTE_ISLAND_CTL_ISLAND_ID, 77)],
   by decide⟩

theorem test_met_IslandJoins_29 :
    ∃ (m : WMsg) (i : Fin 32) (s : State), s.IslandMsg m icJOIN_ABORT ∧ s.memOf m.srcPkg [memACTIVE] = some i.val :=
  ⟨{ vc := vcPOST, wopc := 2, srcPkg := 6, dstPkg := 0, icode := 7 }, 1,
   wS
     [(R.ROUTE_ISLAND_STATUS_STATE, islJOINED), (R.ROUTE_ISLAND_CTL_SELF_INDEX, 4), (R.ROUTE_ISLAND_CTL_ISLAND_ID, 77),
      (R.ROUTE_MEMBER_PACKAGE_ID 1, 6), (R.ROUTE_MEMBER_STATE 1, memACTIVE)], by decide⟩

theorem test_met_IslandJoins_30 :
    ∃ (m : WMsg) (s : State), s.IslandMsg m icJOIN_ABORT ∧ s.memOf m.srcPkg [memACTIVE] = none :=
  ⟨{ vc := vcPOST, wopc := 2, srcPkg := 6, dstPkg := 0, icode := 7 },
   wS [(R.ROUTE_ISLAND_STATUS_STATE, islALONE), (R.ROUTE_ISLAND_CTL_SELF_INDEX, 4), (R.ROUTE_ISLAND_CTL_ISLAND_ID, 77)],
   by decide⟩

theorem test_met_IslandJoins_31 :
    ∃ (i : Fin 32) (k : Fin 4096) (s : State), (s.memState i = memFREE ∨ s.memState i = memLOST) :=
  ⟨1, 6,
   wS [(R.ROUTE_ISLAND_STATUS_STATE, islALONE), (R.ROUTE_ISLAND_CTL_SELF_INDEX, 4), (R.ROUTE_ISLAND_CTL_ISLAND_ID, 77)],
   by decide⟩

theorem test_met_IslandJoins_32 :
    ∃ (i : Fin 32) (k : Fin 4096) (s : State), s.memState i ≠ memFREE ∧ s.memState i ≠ memLOST :=
  ⟨1, 6,
   wS
     [(R.ROUTE_ISLAND_STATUS_STATE, islALONE), (R.ROUTE_ISLAND_CTL_SELF_INDEX, 4), (R.ROUTE_ISLAND_CTL_ISLAND_ID, 77),
      (R.ROUTE_MEMBER_PACKAGE_ID 1, 6), (R.ROUTE_MEMBER_STATE 1, memADMITTED)], by decide⟩

theorem test_met_IslandJoins_33 :
    ∃ (i : Fin 32) (s : State), (s.memState i = memADMITTED ∨ s.memState i = memLOST) :=
  ⟨1,
   wS
     [(R.ROUTE_ISLAND_STATUS_STATE, islALONE), (R.ROUTE_ISLAND_CTL_SELF_INDEX, 4), (R.ROUTE_ISLAND_CTL_ISLAND_ID, 77),
      (R.ROUTE_MEMBER_PACKAGE_ID 1, 6), (R.ROUTE_MEMBER_STATE 1, memADMITTED)], by decide⟩

theorem test_met_IslandJoins_34 :
    ∃ (i : Fin 32) (s : State), s.memState i ≠ memADMITTED ∧ s.memState i ≠ memLOST :=
  ⟨1,
   wS
     [(R.ROUTE_ISLAND_STATUS_STATE, islJOINED), (R.ROUTE_ISLAND_CTL_SELF_INDEX, 4), (R.ROUTE_ISLAND_CTL_ISLAND_ID, 77),
      (R.ROUTE_MEMBER_PACKAGE_ID 1, 6), (R.ROUTE_MEMBER_STATE 1, memACTIVE)], by decide⟩

theorem test_met_IslandLeavesAndRoutes_1 :
    ∃ (s : State), s.isl = islJOINED ∧ s.membersWhere (fun i => s.memState i == memACTIVE) = [] ∧ s.home.sweeps = [] :=
  ⟨wS [(R.ROUTE_ISLAND_STATUS_STATE, islJOINED), (R.ROUTE_ISLAND_CTL_SELF_INDEX, 4), (R.ROUTE_ISLAND_CTL_ISLAND_ID, 77)],
   by decide⟩

theorem test_met_IslandLeavesAndRoutes_2 :
    ∃ (i : Fin 32) (s : State), s.isl = islJOINED ∧ s.membersWhere (fun i => s.memState i == memACTIVE) = [i.val] ∧
      s.home.sweeps = [] :=
  ⟨1,
   wS
     [(R.ROUTE_ISLAND_STATUS_STATE, islJOINED), (R.ROUTE_ISLAND_CTL_SELF_INDEX, 4), (R.ROUTE_ISLAND_CTL_ISLAND_ID, 77),
      (R.ROUTE_MEMBER_PACKAGE_ID 1, 6), (R.ROUTE_MEMBER_STATE 1, memACTIVE)], by decide⟩

theorem test_met_IslandLeavesAndRoutes_3 :
    ∃ (s : State), s.isl ≠ islJOINED :=
  ⟨wS [(R.ROUTE_ISLAND_STATUS_STATE, islALONE), (R.ROUTE_ISLAND_CTL_SELF_INDEX, 4), (R.ROUTE_ISLAND_CTL_ISLAND_ID, 77)],
   by decide⟩

theorem test_met_IslandLeavesAndRoutes_4 :
    ∃ (m : WMsg) (s : State), m.dstPkg = s.pkgId ∧ m.vc = vcPOST ∧ m.wopc = 2 ∧ (m.icode = 0 ∨ 7 < m.icode) :=
  ⟨{ vc := vcPOST, wopc := 2, srcPkg := 6, dstPkg := 0, icode := 9 },
   wS [(R.ROUTE_ISLAND_STATUS_STATE, islJOINED), (R.ROUTE_ISLAND_CTL_SELF_INDEX, 4), (R.ROUTE_ISLAND_CTL_ISLAND_ID, 77)],
   by decide⟩

theorem test_met_IslandLeavesAndRoutes_5 :
    ∃ (m : WMsg) (s : State), (m.dstPkg ≠ s.pkgId ∨ m.vc ≠ vcPOST ∨ m.wopc ≠ 2 ∨ (1 ≤ m.icode ∧ m.icode ≤ 7 ∧ m.icode ≠ 4)) :=
  ⟨{ vc := vcPOST, wopc := 2, srcPkg := 6, dstPkg := 0, icode := 1 },
   wS [(R.ROUTE_ISLAND_STATUS_STATE, islJOINED), (R.ROUTE_ISLAND_CTL_SELF_INDEX, 4), (R.ROUTE_ISLAND_CTL_ISLAND_ID, 77)],
   by decide⟩

theorem test_met_IslandLeavesAndRoutes_6 :
    ∃ (m : WMsg) (s : State), m.dstPkg = s.pkgId ∧ m.vc = vcPOST ∧ m.wopc = 2 ∧ (m.icode = 0 ∨ 7 < m.icode) :=
  ⟨{ vc := vcPOST, wopc := 2, srcPkg := 6, dstPkg := 0, icode := 9 },
   wS [(R.ROUTE_ISLAND_STATUS_STATE, islJOINED), (R.ROUTE_ISLAND_CTL_SELF_INDEX, 4), (R.ROUTE_ISLAND_CTL_ISLAND_ID, 77)],
   by decide⟩

theorem test_met_IslandLeavesAndRoutes_7 :
    ∃ (m : WMsg) (s : State), (m.dstPkg ≠ s.pkgId ∨ m.vc ≠ vcPOST ∨ m.wopc ≠ 2 ∨ (1 ≤ m.icode ∧ m.icode ≤ 7 ∧ m.icode ≠ 5)) :=
  ⟨{ vc := vcPOST, wopc := 2, srcPkg := 6, dstPkg := 0, icode := 1 },
   wS [(R.ROUTE_ISLAND_STATUS_STATE, islJOINED), (R.ROUTE_ISLAND_CTL_SELF_INDEX, 4), (R.ROUTE_ISLAND_CTL_ISLAND_ID, 77)],
   by decide⟩

theorem test_met_IslandLeavesAndRoutes_8 :
    ∃ (m : WMsg) (s : State), m.dstPkg = s.pkgId ∧ m.vc = vcPOST ∧ m.wopc = 2 ∧ (m.icode = 0 ∨ 7 < m.icode) :=
  ⟨{ vc := vcPOST, wopc := 2, srcPkg := 6, dstPkg := 0, icode := 9 },
   wS [(R.ROUTE_ISLAND_STATUS_STATE, islJOINED), (R.ROUTE_ISLAND_CTL_SELF_INDEX, 4), (R.ROUTE_ISLAND_CTL_ISLAND_ID, 77)],
   by decide⟩

theorem test_met_IslandLeavesAndRoutes_9 :
    ∃ (m : WMsg) (s : State), (m.dstPkg ≠ s.pkgId ∨ m.vc ≠ vcPOST ∨ m.wopc ≠ 2 ∨ (1 ≤ m.icode ∧ m.icode ≤ 7 ∧ m.icode ≠ 6)) :=
  ⟨{ vc := vcPOST, wopc := 2, srcPkg := 6, dstPkg := 0, icode := 1 },
   wS [(R.ROUTE_ISLAND_STATUS_STATE, islJOINED), (R.ROUTE_ISLAND_CTL_SELF_INDEX, 4), (R.ROUTE_ISLAND_CTL_ISLAND_ID, 77)],
   by decide⟩

theorem test_met_IslandLeavesAndRoutes_10 :
    ∃ (m : WMsg) (i : Fin 32) (s : State), s.IslandMsg m icLEAVE_NOTICE ∧ s.isl ≠ islJOINING ∧ s.memOf m.srcPkg [memACTIVE] =
      some i.val :=
  ⟨{ vc := vcPOST, wopc := 2, srcPkg := 6, dstPkg := 0, icode := 4 }, 1,
   wS
     [(R.ROUTE_ISLAND_STATUS_STATE, islJOINED), (R.ROUTE_ISLAND_CTL_SELF_INDEX, 4), (R.ROUTE_ISLAND_CTL_ISLAND_ID, 77),
      (R.ROUTE_MEMBER_PACKAGE_ID 1, 6), (R.ROUTE_MEMBER_STATE 1, memACTIVE)], by decide⟩

theorem test_met_IslandLeavesAndRoutes_11 :
    ∃ (m : WMsg) (i : Fin 32) (s : State), s.IslandMsg m icLEAVE_NOTICE ∧ s.isl = islJOINING ∧ s.memOf m.srcPkg [memADMITTED,
      memACTIVE] = some i.val ∧ s.hzn.joinAck = 0 :=
  ⟨{ vc := vcPOST, wopc := 2, srcPkg := 6, dstPkg := 0, icode := 4 }, 1,
   { wS
       [(R.ROUTE_ISLAND_STATUS_STATE, islJOINING), (R.ROUTE_ISLAND_CTL_SELF_INDEX, 4),
        (R.ROUTE_ISLAND_CTL_ISLAND_ID, 77), (R.ROUTE_MEMBER_PACKAGE_ID 1, 6), (R.ROUTE_MEMBER_STATE 1, memADMITTED)] with
       hzn := { joinWait := 2 } }, by decide⟩

theorem test_met_IslandLeavesAndRoutes_12 :
    ∃ (m : WMsg) (s : State), s.IslandMsg m icLEAVE_NOTICE ∧ s.isl ≠ islJOINING ∧ s.memOf m.srcPkg [memACTIVE] = none :=
  ⟨{ vc := vcPOST, wopc := 2, srcPkg := 6, dstPkg := 0, icode := 4 },
   wS [(R.ROUTE_ISLAND_STATUS_STATE, islJOINED), (R.ROUTE_ISLAND_CTL_SELF_INDEX, 4), (R.ROUTE_ISLAND_CTL_ISLAND_ID, 77)],
   by decide⟩

theorem test_met_IslandLeavesAndRoutes_13 :
    ∃ (i : Fin 32) (s : State), s.memState i = memLEAVING ∧ s.holdsOf i = false :=
  ⟨1,
   wS
     [(R.ROUTE_ISLAND_STATUS_STATE, islJOINED), (R.ROUTE_ISLAND_CTL_SELF_INDEX, 4), (R.ROUTE_ISLAND_CTL_ISLAND_ID, 77),
      (R.ROUTE_MEMBER_PACKAGE_ID 1, 6), (R.ROUTE_MEMBER_STATE 1, memLEAVING)], by decide⟩

theorem test_met_IslandLeavesAndRoutes_14 :
    ∃ (i : Fin 32) (s : State), (s.memState i ≠ memLEAVING ∨ s.holdsOf i = true) :=
  ⟨1,
   wS
     [(R.ROUTE_ISLAND_STATUS_STATE, islJOINED), (R.ROUTE_ISLAND_CTL_SELF_INDEX, 4), (R.ROUTE_ISLAND_CTL_ISLAND_ID, 77),
      (R.ROUTE_MEMBER_PACKAGE_ID 1, 6), (R.ROUTE_MEMBER_STATE 1, memACTIVE)], by decide⟩

theorem test_met_IslandLeavesAndRoutes_15 :
    ∃ (m : WMsg) (i : Fin 32) (s : State), s.IslandMsg m icLEAVE_ACK ∧ s.memOf m.srcPkg [memACTIVE, memLEAVING] = some i.val ∧
      (without s.hzn.leaveWait i ≠ 0 ∨ s.isl ≠ islLEAVING) :=
  ⟨{ vc := vcPOST, wopc := 2, srcPkg := 6, dstPkg := 0, icode := 5 }, 1,
   { wS
       [(R.ROUTE_ISLAND_STATUS_STATE, islLEAVING), (R.ROUTE_ISLAND_CTL_SELF_INDEX, 4),
        (R.ROUTE_ISLAND_CTL_ISLAND_ID, 77), (R.ROUTE_MEMBER_PACKAGE_ID 1, 6), (R.ROUTE_MEMBER_STATE 1, memACTIVE)] with
       hzn := { leaveWait := 10 } }, by decide⟩

theorem test_met_IslandLeavesAndRoutes_16 :
    ∃ (m : WMsg) (i : Fin 32) (s : State), s.IslandMsg m icLEAVE_ACK ∧ s.isl = islLEAVING ∧ s.memOf m.srcPkg [memACTIVE,
      memLEAVING] = some i.val ∧ s.hzn.leaveWait = 1 <<< i.val ∧ s.home.sweeps = [] ∧ s.home.pxWb = [] ∧ s.home.rpt = [] :=
  ⟨{ vc := vcPOST, wopc := 2, srcPkg := 6, dstPkg := 0, icode := 5 }, 1,
   { wS
       [(R.ROUTE_ISLAND_STATUS_STATE, islLEAVING), (R.ROUTE_ISLAND_CTL_SELF_INDEX, 4),
        (R.ROUTE_ISLAND_CTL_ISLAND_ID, 77), (R.ROUTE_MEMBER_PACKAGE_ID 1, 6), (R.ROUTE_MEMBER_STATE 1, memACTIVE)] with
       hzn := { leaveWait := 2 } }, by decide⟩

theorem test_met_IslandLeavesAndRoutes_17 :
    ∃ (m : WMsg) (s : State), s.IslandMsg m icLEAVE_ACK ∧ s.memOf m.srcPkg [memACTIVE, memLEAVING] = none :=
  ⟨{ vc := vcPOST, wopc := 2, srcPkg := 6, dstPkg := 0, icode := 5 },
   wS [(R.ROUTE_ISLAND_STATUS_STATE, islJOINED), (R.ROUTE_ISLAND_CTL_SELF_INDEX, 4), (R.ROUTE_ISLAND_CTL_ISLAND_ID, 77)],
   by decide⟩

theorem test_met_IslandLeavesAndRoutes_18 :
    ∃ (i : Fin 32) (s : State), s.isl = islLEAVING ∧ s.hzn.leaveWait = 1 <<< i.val ∧ s.memState i = memACTIVE ∧ s.HomesEmpty ∧
      s.home.rpt = [] ∧ s.home.sweeps = [] :=
  ⟨1,
   { wS
       [(R.ROUTE_ISLAND_STATUS_STATE, islLEAVING), (R.ROUTE_ISLAND_CTL_SELF_INDEX, 4),
        (R.ROUTE_ISLAND_CTL_ISLAND_ID, 77), (R.ROUTE_MEMBER_PACKAGE_ID 1, 6), (R.ROUTE_MEMBER_STATE 1, memACTIVE)] with
       hzn := { leaveWait := 2 } }, by decide⟩

theorem test_met_IslandLeavesAndRoutes_19 :
    ∃ (s : State), s.isl = islLEAVING ∧ s.hzn.leaveWait = 0 :=
  ⟨wS [(R.ROUTE_ISLAND_STATUS_STATE, islLEAVING), (R.ROUTE_ISLAND_CTL_SELF_INDEX, 4), (R.ROUTE_ISLAND_CTL_ISLAND_ID, 77)],
   by decide⟩

theorem test_met_IslandLeavesAndRoutes_20 :
    ∃ (s : State), s.isl ≠ islLEAVING :=
  ⟨wS [(R.ROUTE_ISLAND_STATUS_STATE, islJOINED), (R.ROUTE_ISLAND_CTL_SELF_INDEX, 4), (R.ROUTE_ISLAND_CTL_ISLAND_ID, 77)],
   by decide⟩

theorem test_met_IslandLeavesAndRoutes_21 :
    ∃ (m : WMsg) (i : Fin 32) (s : State), s.IslandMsg m icLOST_NOTICE ∧ s.isl = islJOINED ∧ (s.memOf m.srcPkg [memACTIVE,
      memLEAVING]).isSome = true ∧ m.member = i ∧ i.val ≠ s.selfIx ∧ (s.memState i = memACTIVE ∨ s.memState i = memLEAVING)
      ∧ s.HomesEmpty :=
  ⟨{ vc := vcPOST, wopc := 2, srcPkg := 6, dstPkg := 0, icode := 6, member := 2 }, 2,
   wS
     [(R.ROUTE_ISLAND_STATUS_STATE, islJOINED), (R.ROUTE_ISLAND_CTL_SELF_INDEX, 4), (R.ROUTE_ISLAND_CTL_ISLAND_ID, 77),
      (R.ROUTE_MEMBER_PACKAGE_ID 1, 6), (R.ROUTE_MEMBER_STATE 1, memACTIVE), (R.ROUTE_MEMBER_PACKAGE_ID 2, 7),
      (R.ROUTE_MEMBER_STATE 2, memACTIVE)], by decide⟩

theorem test_met_IslandLeavesAndRoutes_22 :
    ∃ (m : WMsg) (s : State), s.IslandMsg m icLOST_NOTICE ∧ s.isl ≠ islJOINING ∧ (s.memOf m.srcPkg [memACTIVE, memLEAVING] =
      none ∨ (m.member < 32 ∧ m.member ≠ s.selfIx ∧ s.memState m.member ≠ memACTIVE ∧ s.memState m.member ≠ memLEAVING)) :=
  ⟨{ vc := vcPOST, wopc := 2, srcPkg := 6, dstPkg := 0, icode := 6, member := 2 },
   wS
     [(R.ROUTE_ISLAND_STATUS_STATE, islJOINED), (R.ROUTE_ISLAND_CTL_SELF_INDEX, 4), (R.ROUTE_ISLAND_CTL_ISLAND_ID, 77),
      (R.ROUTE_MEMBER_PACKAGE_ID 1, 6), (R.ROUTE_MEMBER_STATE 1, memACTIVE)], by decide⟩

theorem test_met_IslandLeavesAndRoutes_23 :
    ∃ (m : WMsg) (i : Fin 32) (s : State), s.IslandMsg m icLOST_NOTICE ∧ s.isl = islJOINED ∧ s.memOf m.srcPkg [memACTIVE,
      memLEAVING] = some i.val ∧ s.membersWhere (fun j => s.memState j == memACTIVE || s.memState j == memLEAVING) = [i.val]
      ∧ m.member = s.selfIx ∧ s.HomesEmpty :=
  ⟨{ vc := vcPOST, wopc := 2, srcPkg := 6, dstPkg := 0, icode := 6, member := 4 }, 1,
   wS
     [(R.ROUTE_ISLAND_STATUS_STATE, islJOINED), (R.ROUTE_ISLAND_CTL_SELF_INDEX, 4), (R.ROUTE_ISLAND_CTL_ISLAND_ID, 77),
      (R.ROUTE_MEMBER_PACKAGE_ID 1, 6), (R.ROUTE_MEMBER_STATE 1, memACTIVE)], by decide⟩

theorem test_met_IslandLeavesAndRoutes_24 :
    ∃ (m : WMsg) (s : State), s.IslandMsg m icLOST_NOTICE ∧ s.isl = islJOINING ∧ (s.memOf m.srcPkg [memADMITTED,
      memACTIVE]).isSome = true ∧ s.hzn.joinAck = 0 :=
  ⟨{ vc := vcPOST, wopc := 2, srcPkg := 6, dstPkg := 0, icode := 6, member := 2 },
   { wS
       [(R.ROUTE_ISLAND_STATUS_STATE, islJOINING), (R.ROUTE_ISLAND_CTL_SELF_INDEX, 4),
        (R.ROUTE_ISLAND_CTL_ISLAND_ID, 77), (R.ROUTE_MEMBER_PACKAGE_ID 1, 6), (R.ROUTE_MEMBER_STATE 1, memADMITTED)] with
       hzn := { joinWait := 2 } }, by decide⟩

theorem test_met_IslandLeavesAndRoutes_25 :
    ∃ (i : Fin 32) (s : State), s.isl = islJOINED ∧ (s.memState i = memACTIVE ∨ s.memState i = memLEAVING) ∧ (List.range 8).all
      (fun p => !(s.get (R.ROUTE_ENTRY_PORT_MASK (s.memPkg i)) ||| s.get (R.ROUTE_ENTRY_ALT_MASK (s.memPkg i))).testBit p ||
      s.hznState p != hznACTIVE) = true ∧ s.HomesEmpty :=
  ⟨1,
   wS
     [(R.ROUTE_ISLAND_STATUS_STATE, islJOINED), (R.ROUTE_ISLAND_CTL_SELF_INDEX, 4), (R.ROUTE_ISLAND_CTL_ISLAND_ID, 77),
      (R.ROUTE_MEMBER_PACKAGE_ID 1, 6), (R.ROUTE_MEMBER_STATE 1, memACTIVE)], by decide⟩

theorem test_met_IslandLeavesAndRoutes_26 :
    ∃ (i : Fin 32) (s : State), ((s.memState i ≠ memACTIVE ∧ s.memState i ≠ memLEAVING) ∨ (List.range 8).any (fun p => (s.get
      (R.ROUTE_ENTRY_PORT_MASK (s.memPkg i)) ||| s.get (R.ROUTE_ENTRY_ALT_MASK (s.memPkg i))).testBit p && s.hznState p ==
      hznACTIVE) = true) :=
  ⟨1,
   wS [(R.ROUTE_ISLAND_STATUS_STATE, islJOINED), (R.ROUTE_ISLAND_CTL_SELF_INDEX, 4), (R.ROUTE_ISLAND_CTL_ISLAND_ID, 77)],
   by decide⟩

theorem test_met_IslandLeavesAndRoutes_27 :
    ∃ (n : Ix16) (h : Fin 512) (x : HTxn) (i : Fin 32) (s : State), s.lock n h = some x ∧ s.home.locks = [((n : Nat) * 512 + h,
      some x)] ∧ x.proxy = false ∧ x.work = .request ∧ x.phase = .ready ∧ x.req.srcPkg = s.memPkg i ∧ s.waitsOn x = some
      i.val ∧ s.isl = islJOINED ∧ s.memState i = memACTIVE ∧ s.home.toks = [] ∧ s.home.wbHeld = [] ∧ s.home.pxHeld = [] :=
  ⟨5, 4,
   { line := 0x1000, proxy := false, work := .request,
     req := { vc := 0, opc := 4, srcPkg := 6, srcAgent := 1, dstPkg := 0, dstAgent := 0x15, txn := 9, addr := 0x1000 },
     phase := .ready }, 1,
   { wS
       [(R.ROUTE_ISLAND_STATUS_STATE, islJOINED), (R.ROUTE_ISLAND_CTL_SELF_INDEX, 4), (R.ROUTE_ISLAND_CTL_ISLAND_ID, 77),
        (R.ROUTE_MEMBER_PACKAGE_ID 1, 6), (R.ROUTE_MEMBER_STATE 1, memACTIVE)] with
       home :=
         { locks :=
             [(5 * 512 + 4,
               some
                 { line := 0x1000, proxy := false, work := .request,
                   req :=
                     { vc := 0, opc := 4, srcPkg := 6, srcAgent := 1, dstPkg := 0, dstAgent := 0x15, txn := 9,
                       addr := 0x1000 }, phase := .ready })] } }, by decide⟩

theorem test_met_IslandLeavesAndRoutes_28 :
    ∃ (n : Ix16) (h : Fin 512) (s : State), (s.lock n h = none ∨ (s.lock n h).map s.waitsOn = some none) :=
  ⟨5, 4, wS [], by decide⟩

theorem test_met_IslandLeavesAndRoutes_29 :
    ∃ (k : Fin 4096) (s : State), s.onAlt k = false ∧ s.activePorts (s.get (R.ROUTE_ENTRY_PORT_MASK k)) = [] ∧ s.get
      (R.ROUTE_ENTRY_VALID k) = 1 :=
  ⟨6, wS [(R.ROUTE_ENTRY_VALID 6, 1), (R.ROUTE_ENTRY_PORT_MASK 6, 4)], by decide⟩

theorem test_met_IslandLeavesAndRoutes_30 :
    ∃ (k : Fin 4096) (s : State), s.onAlt k = true ∧ s.activePorts (s.get (R.ROUTE_ENTRY_PORT_MASK k)) ≠ [] :=
  ⟨6,
   { wS [(R.ROUTE_ENTRY_VALID 6, 1), (R.ROUTE_ENTRY_PORT_MASK 6, 4), (R.HZN_STATUS_STATE 2, 5)] with
       hzn := { hold := [(6, true)] } }, by decide⟩

theorem test_met_IslandLeavesAndRoutes_31 :
    ∃ (k : Fin 4096) (s : State), ((s.onAlt k = true ∧ s.activePorts (s.get (R.ROUTE_ENTRY_PORT_MASK k)) = []) ∨ (s.onAlt k =
      false ∧ (s.activePorts (s.get (R.ROUTE_ENTRY_PORT_MASK k)) ≠ [] ∨ s.get (R.ROUTE_ENTRY_VALID k) ≠ 1))) :=
  ⟨6, wS [], by decide⟩

theorem test_met_FabricTimeouts_1 :
    ∃ (m : Msg) (s : State), hmsgDst (.ose m 0 0 0) ≠ s.pkgId ∧ s.hznWaiting (.ose m 0 0 0) none = true ∧ s.route m.dstPkg =
      .unroutable ∧ m.vc = vcREQ :=
  ⟨{ vc := 0, opc := 0, srcPkg := 0, srcAgent := 0x20, dstPkg := 6, dstAgent := 21, txn := 9, addr := 0x4000001000 },
   { wS [] with
       net :=
         [{ vc := 0, opc := 0, srcPkg := 0, srcAgent := 0x20, dstPkg := 6, dstAgent := 21, txn := 9, addr := 0x4000001000 }] },
   by decide⟩

theorem test_met_FabricTimeouts_2 :
    ∃ (m : Msg) (s : State), hmsgDst (.ose m 0 0 0) ≠ s.pkgId ∧ s.hznWaiting (.ose m 0 0 0) none = true ∧ s.route m.dstPkg =
      .unroutable ∧ m.vc ≠ vcREQ :=
  ⟨{ vc := 2, opc := 0, srcPkg := 0, srcAgent := 0x20, dstPkg := 6, dstAgent := 21, txn := 9, addr := 0x4000001000 },
   { wS [] with
       net :=
         [{ vc := 2, opc := 0, srcPkg := 0, srcAgent := 0x20, dstPkg := 6, dstAgent := 21, txn := 9, addr := 0x4000001000 }] },
   by decide⟩

theorem test_met_FabricTimeouts_3 :
    ∃ (m : WMsg) (s : State), m.dstPkg ≠ s.pkgId ∧ s.hznWaiting (.win m) none = true ∧ s.route m.dstPkg = .unroutable ∧ ((m.vc =
      vcPOST ∧ m.wopc ≠ 2) ∨ m.vc = vcNP) ∧ m.srcPkg = s.pkgId :=
  ⟨{ vc := vcPOST, wopc := 0, srcPkg := 0, dstPkg := 6, wtag := 3 },
   { wS [] with hzn := { out := [{ vc := vcPOST, wopc := 0, srcPkg := 0, dstPkg := 6, wtag := 3 }] } }, by decide⟩

theorem test_met_FabricTimeouts_4 :
    ∃ (m : WMsg) (s : State), m.dstPkg ≠ s.pkgId ∧ s.hznWaiting (.win m) none = true ∧ s.route m.dstPkg = .unroutable ∧ (m.vc ≠
      vcNP ∧ (m.vc ≠ vcPOST ∨ m.wopc = 2)) :=
  ⟨{ vc := vcPOST, wopc := 2, srcPkg := 0, dstPkg := 6, icode := 1 },
   { wS [] with hzn := { out := [{ vc := vcPOST, wopc := 2, srcPkg := 0, dstPkg := 6, icode := 1 }] } }, by decide⟩

theorem test_met_FabricTimeouts_5 :
    ∃ (x : HMsg) (q : Option HPort) (s : State), (hmsgDst x = s.pkgId ∨ s.hznWaiting x (q.map (·.val)) = false ∨ s.route
      (hmsgDst x) = .waits) :=
  ⟨.win { vc := vcPOST, wopc := 0, srcPkg := 0, dstPkg := 6, wtag := 3 }, none, wS [], by decide⟩

theorem test_met_FabricTimeouts_6 :
    ∃ (m : Msg) (l : List Nat) (p : Nat) (s : State), hmsgDst (.ose m 0 0 0) ≠ s.pkgId ∧ s.hznWaiting (.ose m 0 0 0) none = true
      ∧ s.route (hmsgDst (.ose m 0 0 0)) = .ports l ∧ s.hznPick l = some p ∧ p < 8 ∧ s.get (R.HZN_STATUS_REVISION p) ≠ 2 ∧
      (s.hPort p).fits [(s.hznStamp p true (.ose m 0 0 0))] = true ∧ s.hznAdmits p (s.hznStamp p true (.ose m 0 0 0)) true =
      true :=
  ⟨{ vc := 0, opc := 0, srcPkg := 0, srcAgent := 0x20, dstPkg := 6, dstAgent := 21, txn := 9, addr := 0x4000001000 }, [2],
   2,
   { (((wS
          [(R.ROUTE_ENTRY_VALID 6, 1), (R.ROUTE_ENTRY_PORT_MASK 6, 4), (R.HZN_STATUS_STATE 2, 5),
           (R.HZN_STATUS_REVISION 2, 3)]).setHPort 2 { base := (List.range 16).map (fun slot => (slot, 20)) }).setBal
        (qosHzn 2) 0 1000) with
       net :=
         [{ vc := 0, opc := 0, srcPkg := 0, srcAgent := 0x20, dstPkg := 6, dstAgent := 21, txn := 9, addr := 0x4000001000 }] },
   by decide⟩

theorem test_met_FabricTimeouts_7 :
    ∃ (m : WMsg) (l : List Nat) (p : Nat) (s : State), hmsgDst (.win m) ≠ s.pkgId ∧ s.hznWaiting (.win m) none = true ∧ s.route
      (hmsgDst (.win m)) = .ports l ∧ s.hznPick l = some p ∧ p < 8 ∧ (s.hPort p).fits [(s.hznStamp p true (.win m))] = true
      ∧ s.hznAdmits p (s.hznStamp p true (.win m)) true = true :=
  ⟨{ vc := vcPOST, wopc := 2, srcPkg := 0, dstPkg := 6, icode := 1 }, [2], 2,
   { (wS
        [(R.ROUTE_ENTRY_VALID 6, 1), (R.ROUTE_ENTRY_PORT_MASK 6, 4), (R.HZN_STATUS_STATE 2, 5),
         (R.HZN_STATUS_REVISION 2, 3)]) with
       hzn :=
         { out := [{ vc := vcPOST, wopc := 2, srcPkg := 0, dstPkg := 6, icode := 1 }],
           ports := [(2, { base := (List.range 16).map (fun slot => (slot, 20)) })] } }, by decide⟩

theorem test_met_FabricTimeouts_8 :
    ∃ (m : Msg) (l : List Nat) (p : Nat) (q : HPort) (fm h c : Nat) (s : State), hmsgDst (.ose m fm h c) ≠ s.pkgId ∧
      s.hznWaiting (.ose m fm h c) (some (q : Nat)) = true ∧ s.route (hmsgDst (.ose m fm h c)) = .ports l ∧ s.hznPick l =
      some p ∧ p < 8 ∧ s.get (R.HZN_STATUS_REVISION p) ≠ 2 ∧ (List.range 8).all (fun p => (s.hPort p).rxq.isEmpty) = true ∧
      (List.range 24).all (fun p => (s.pEnd 0 p).rxq.isEmpty && (s.pEnd 1 p).rxq.isEmpty) = true ∧ (s.hPort p).fits
      [(s.hznStamp p false (.ose m fm h c))] = true ∧ s.hznAdmits p (s.hznStamp p false (.ose m fm h c)) false = true :=
  ⟨{ vc := 2, opc := 0, srcPkg := 5, srcAgent := 0x10, dstPkg := 6, dstAgent := 21, txn := 9, addr := 0x4000001000 }, [2],
   2, 3, 4, 7, 0,
   { (wS
        [(R.ROUTE_ENTRY_VALID 6, 1), (R.ROUTE_ENTRY_PORT_MASK 6, 4), (R.HZN_STATUS_STATE 2, 5),
         (R.HZN_STATUS_REVISION 2, 3)]) with
       hzn :=
         { fwd :=
             [(3,
               .ose
                 { vc := 2, opc := 0, srcPkg := 5, srcAgent := 0x10, dstPkg := 6, dstAgent := 21, txn := 9,
                   addr := 0x4000001000 } 4 7 0)], ports := [(2, { base := (List.range 16).map (fun slot => (slot, 20)) })] } },
   by decide⟩

theorem test_met_FabricTimeouts_9 :
    ∃ (m : Msg) (l : List Nat) (p : Nat) (s : State), hmsgDst (.ose m 0 0 0) ≠ s.pkgId ∧ s.hznWaiting (.ose m 0 0 0) none = true
      ∧ s.route m.dstPkg = .ports l ∧ s.hznPick l = some p ∧ s.get (R.HZN_STATUS_REVISION p) = 2 ∧ m.vc = vcREQ :=
  ⟨{ vc := 0, opc := 0, srcPkg := 0, srcAgent := 0x20, dstPkg := 6, dstAgent := 21, txn := 9, addr := 0x4000001000 }, [2],
   2,
   { (wS
        [(R.ROUTE_ENTRY_VALID 6, 1), (R.ROUTE_ENTRY_PORT_MASK 6, 4), (R.HZN_STATUS_STATE 2, 5),
         (R.HZN_STATUS_REVISION 2, 2)]).setHPort 2 { base := (List.range 16).map (fun slot => (slot, 20)) } with
       net :=
         [{ vc := 0, opc := 0, srcPkg := 0, srcAgent := 0x20, dstPkg := 6, dstAgent := 21, txn := 9, addr := 0x4000001000 }] },
   by decide⟩

theorem test_met_FabricTimeouts_10 :
    ∃ (m : Msg) (l : List Nat) (p : Nat) (s : State), hmsgDst (.ose m 0 0 0) ≠ s.pkgId ∧ s.hznWaiting (.ose m 0 0 0) none = true
      ∧ s.route m.dstPkg = .ports l ∧ s.hznPick l = some p ∧ s.get (R.HZN_STATUS_REVISION p) = 2 ∧ m.vc ≠ vcREQ :=
  ⟨{ vc := 2, opc := 0, srcPkg := 0, srcAgent := 0x20, dstPkg := 6, dstAgent := 21, txn := 9, addr := 0x4000001000 }, [2],
   2,
   { (wS
        [(R.ROUTE_ENTRY_VALID 6, 1), (R.ROUTE_ENTRY_PORT_MASK 6, 4), (R.HZN_STATUS_STATE 2, 5),
         (R.HZN_STATUS_REVISION 2, 2)]).setHPort 2 { base := (List.range 16).map (fun slot => (slot, 20)) } with
       net :=
         [{ vc := 2, opc := 0, srcPkg := 0, srcAgent := 0x20, dstPkg := 6, dstAgent := 21, txn := 9, addr := 0x4000001000 }] },
   by decide⟩

theorem test_met_FabricTimeouts_11 :
    ∃ (m : Msg) (l : List Nat) (p : Nat) (s : State), s.route m.dstPkg = .ports l ∧ s.hznPick l = some p ∧ s.get
      (R.HZN_STATUS_REVISION p) ≠ 2 ∧ ((s.hPort p).fits [(s.hznStamp p true (.ose m 0 0 0))] = false ∨ s.hznAdmits p
      (s.hznStamp p true (.ose m 0 0 0)) true = false) :=
  ⟨{ vc := 0, opc := 0, srcPkg := 0, srcAgent := 0x20, dstPkg := 6, dstAgent := 21, txn := 9, addr := 0x4000001000 }, [2],
   2,
   { (wS
        [(R.ROUTE_ENTRY_VALID 6, 1), (R.ROUTE_ENTRY_PORT_MASK 6, 4), (R.HZN_STATUS_STATE 2, 5),
         (R.HZN_STATUS_REVISION 2, 3)]).setHPort 2 { } with
       net :=
         [{ vc := 0, opc := 0, srcPkg := 0, srcAgent := 0x20, dstPkg := 6, dstAgent := 21, txn := 9, addr := 0x4000001000 }] },
   by decide⟩

theorem test_met_FabricTimeouts_12 :
    ∃ (p : HPort) (x : HMsg) (l : List (Nat × HMsg)) (s : State), s.hzn.fwd = ((p : Nat), x) :: l :=
  ⟨2,
   .ose { vc := 0, opc := 0, srcPkg := 0, srcAgent := 2, dstPkg := 6, dstAgent := 21, txn := 9, addr := 0x4000001000 } 0 0 0,
   [],
   { wS [] with
       hzn :=
         { fwd :=
             [(2,
               .ose
                 { vc := 0, opc := 0, srcPkg := 0, srcAgent := 2, dstPkg := 6, dstAgent := 21, txn := 9,
                   addr := 0x4000001000 } 0 0 0)] } }, by decide⟩

theorem test_met_FabricTimeouts_13 :
    ∃ (s : State), s.hzn.fwd = [] :=
  ⟨wS [], by decide⟩

theorem test_met_FabricTimeouts_14 :
    ∃ (n : Ix16) (h : Fin 512) (x : HTxn) (s : State), s.lock n h = some x ∧ x.proxy = true ∧ x.work = .request ∧ x.phase =
      .remote ∧ x.quar = false :=
  ⟨5, 4,
   { line := 0x18000000000, proxy := true, work := .request,
     req :=
       { vc := 0, opc := 0, srcPkg := 0, srcAgent := 2, dstPkg := 0, dstAgent := 0x1F, txn := 9, addr := 0x18000000000 },
     phase := .remote },
   { wS
       [(R.ROUTE_ISLAND_STATUS_STATE, islJOINED), (R.ROUTE_ISLAND_CTL_SELF_INDEX, 4), (R.ROUTE_ISLAND_CTL_ISLAND_ID, 77),
        (R.ROUTE_MEMBER_PACKAGE_ID 1, 6), (R.ROUTE_MEMBER_STATE 1, memACTIVE)] with
       home :=
         { locks :=
             [(5 * 512 + 4,
               some
                 { line := 0x18000000000, proxy := true, work := .request,
                   req :=
                     { vc := 0, opc := 0, srcPkg := 0, srcAgent := 2, dstPkg := 0, dstAgent := 0x1F, txn := 9,
                       addr := 0x18000000000 }, phase := .remote })] } }, by decide⟩

theorem test_met_FabricTimeouts_15 :
    ∃ (n : Ix16) (h : Fin 512) (s : State), (s.lock n h = none ∨ (s.lock n h).map (fun x => x.proxy && x.work == .request &&
      x.phase == .remote && !x.quar) = some false) :=
  ⟨5, 4, wS [], by decide⟩

theorem test_met_FabricTimeouts_16 :
    ∃ (n : Ix16) (h : Fin 512) (x : HTxn) (i : Fin 32) (s : State), s.home.pxWb = [] ∧ s.lock n h = some x ∧ s.home.locks = [((n
      : Nat) * 512 + h, some x)] ∧ x.proxy = true ∧ x.quar = true ∧ x.work = .request ∧ x.phase = .remote ∧ s.servedAs
      (x.line * 64 / 2 ^ 44) = some i.val ∧ s.isl = islJOINED ∧ s.memState i = memACTIVE :=
  ⟨5, 4,
   { line := 0x18000000000, proxy := true, work := .request,
     req :=
       { vc := 0, opc := 0, srcPkg := 0, srcAgent := 2, dstPkg := 0, dstAgent := 0x1F, txn := 9, addr := 0x18000000000 },
     phase := .remote, quar := true }, 1,
   { wS
       [(R.ROUTE_ISLAND_STATUS_STATE, islJOINED), (R.ROUTE_ISLAND_CTL_SELF_INDEX, 4), (R.ROUTE_ISLAND_CTL_ISLAND_ID, 77),
        (R.ROUTE_MEMBER_PACKAGE_ID 1, 6), (R.ROUTE_MEMBER_STATE 1, memACTIVE)] with
       home :=
         { locks :=
             [(5 * 512 + 4,
               some
                 { line := 0x18000000000, proxy := true, work := .request,
                   req :=
                     { vc := 0, opc := 0, srcPkg := 0, srcAgent := 2, dstPkg := 0, dstAgent := 0x1F, txn := 9,
                       addr := 0x18000000000 }, phase := .remote, quar := true })] } }, by decide⟩

theorem test_met_FabricTimeouts_17 :
    ∃ (n : Ix16) (h : Fin 512) (x : HTxn) (s : State), s.home.pxWb = [] ∧ s.lock n h = some x ∧ s.home.toks = [] ∧ x.proxy =
      true ∧ x.quar = true ∧ x.work = .request ∧ x.phase = .remote ∧ s.servedAs (x.line * 64 / 2 ^ 44) = none :=
  ⟨5, 4,
   { line := 0x18000000000, proxy := true, work := .request,
     req :=
       { vc := 0, opc := 0, srcPkg := 0, srcAgent := 2, dstPkg := 0, dstAgent := 0x1F, txn := 9, addr := 0x18000000000 },
     phase := .remote, quar := true },
   { wS [] with
       home :=
         { locks :=
             [(5 * 512 + 4,
               some
                 { line := 0x18000000000, proxy := true, work := .request,
                   req :=
                     { vc := 0, opc := 0, srcPkg := 0, srcAgent := 2, dstPkg := 0, dstAgent := 0x1F, txn := 9,
                       addr := 0x18000000000 }, phase := .remote, quar := true })] } }, by decide⟩

theorem test_met_FabricTimeouts_18 :
    ∃ (n : Ix16) (k : Fin 4096) (w : PxWb) (i : Fin 32) (s : State), s.home.pxWb = [w] ∧ w.n = n ∧ w.out.txn = k ∧ s.servedAs
      w.out.dstPkg = some i.val ∧ s.isl = islJOINED ∧ s.memState i = memACTIVE :=
  ⟨5, 520,
   ⟨5, none,
    { vc := 4, opc := 0, srcPkg := 0, srcAgent := 0x15, dstPkg := 6, dstAgent := 0x15, txn := 520, addr := 0x1000 }⟩, 1,
   { wS
       [(R.ROUTE_ISLAND_STATUS_STATE, islJOINED), (R.ROUTE_ISLAND_CTL_SELF_INDEX, 4), (R.ROUTE_ISLAND_CTL_ISLAND_ID, 77),
        (R.ROUTE_MEMBER_PACKAGE_ID 1, 6), (R.ROUTE_MEMBER_STATE 1, memACTIVE)] with
       home :=
         { pxWb :=
             [⟨5, none,
               { vc := 4, opc := 0, srcPkg := 0, srcAgent := 0x15, dstPkg := 6, dstAgent := 0x15, txn := 520,
                 addr := 0x1000 }⟩] } }, by decide⟩

theorem test_met_FabricTimeouts_19 :
    ∃ (n : Ix16) (k : Fin 4096) (s : State), s.home.pxWb = [] ∧ (512 ≤ k.val ∨ s.lock n k = none ∨ (s.lock n k).map (fun x =>
      x.proxy && x.quar) = some false) :=
  ⟨5, 4, wS [], by decide⟩

theorem test_met_FabricTimeouts_20 :
    ∃ (n : Ix16) (l : Nat) (w : PxWb) (s : State), s.home.pxWb = [w] ∧ w.n = n ∧ w.out.addr = l :=
  ⟨5, 0x1000,
   ⟨5, none, { vc := 4, opc := 0, srcPkg := 0, srcAgent := 0x15, dstPkg := 0, dstAgent := 0x15, txn := 9, addr := 0x1000 }⟩,
   { wS [] with
       home :=
         { pxWb :=
             [⟨5, none,
               { vc := 4, opc := 0, srcPkg := 0, srcAgent := 0x15, dstPkg := 0, dstAgent := 0x15, txn := 9, addr := 0x1000 }⟩] } },
   by decide⟩

theorem test_met_FabricTimeouts_21 :
    ∃ (n : Ix16) (l : Nat) (s : State), s.home.pxWb.any (fun w => w.n == n.val && w.out.addr == l) = false :=
  ⟨5, 0x1000, wS [], by decide⟩

theorem test_met_FabricTimeouts_22 :
    ∃ (a : Fin 256) (x : Fin 4096) (r : IoReq) (s : State), s.io.reqs = [r] ∧ r.agent = a ∧ r.msg.txn = x ∧ r.st = .sent ∧
      r.quar = false ∧ r.msg.dstPkg ≠ s.pkgId ∧ r.why = .device 0 0 0 8 ∧ s.io.dma = [] :=
  ⟨0x20, 9,
   { agent := 0x20,
     msg := { vc := 0, opc := 2, srcPkg := 0, srcAgent := 0x20, dstPkg := 6, dstAgent := 0x15, txn := 9, addr := 0x1000 },
     stream := 3, why := .device 0 0 0 8, st := .sent },
   { wS [] with
       io :=
         { reqs :=
             [{ agent := 0x20,
                msg :=
                  { vc := 0, opc := 2, srcPkg := 0, srcAgent := 0x20, dstPkg := 6, dstAgent := 0x15, txn := 9,
                    addr := 0x1000 }, stream := 3, why := .device 0 0 0 8, st := .sent }] } }, by decide⟩

theorem test_met_FabricTimeouts_23 :
    ∃ (a : Fin 256) (x : Fin 4096) (r : IoReq) (d : DmaOp) (s : State), s.io.reqs = [r] ∧ r.agent = a ∧ r.msg.txn = x ∧ r.st =
      .sent ∧ r.quar = false ∧ r.msg.dstPkg ≠ s.pkgId ∧ r.why = .device d.id 0 0 8 ∧ s.io.dma = [d] ∧ d.left = 1 ∧ d.ans =
      true :=
  ⟨0x20, 9,
   { agent := 0x20,
     msg := { vc := 0, opc := 2, srcPkg := 0, srcAgent := 0x20, dstPkg := 6, dstAgent := 0x15, txn := 9, addr := 0x1000 },
     stream := 3, why := .device 7 0 0 8, st := .sent },
   { id := 7, port := 1, rid := 5, size := 8, ans := true, left := 1 },
   { wS [] with
       io :=
         { reqs :=
             [{ agent := 0x20,
                msg :=
                  { vc := 0, opc := 2, srcPkg := 0, srcAgent := 0x20, dstPkg := 6, dstAgent := 0x15, txn := 9,
                    addr := 0x1000 }, stream := 3, why := .device 7 0 0 8, st := .sent }],
           dma := [{ id := 7, port := 1, rid := 5, size := 8, ans := true, left := 1 }] } }, by decide⟩

theorem test_met_FabricTimeouts_24 :
    ∃ (a : Fin 256) (x : Fin 4096) (s : State), (s.ioReq a x = none ∨ (s.ioReq a x).map (fun r => r.quar || r.msg.dstPkg ==
      s.pkgId) = some true) :=
  ⟨0x20, 9, wS [], by decide⟩

theorem test_met_FabricTimeouts_25 :
    ∃ (a : Fin 256) (x : Fin 4096) (r : IoReq) (s : State), s.io.reqs = [r] ∧ r.agent = a ∧ r.msg.txn = x ∧ r.st = .sent ∧
      r.quar = true :=
  ⟨0x20, 9,
   { agent := 0x20,
     msg := { vc := 0, opc := 2, srcPkg := 0, srcAgent := 0x20, dstPkg := 6, dstAgent := 0x15, txn := 9, addr := 0x1000 },
     stream := 3, why := .device 0 0 0 8, st := .sent, quar := true },
   { wS [] with
       io :=
         { reqs :=
             [{ agent := 0x20,
                msg :=
                  { vc := 0, opc := 2, srcPkg := 0, srcAgent := 0x20, dstPkg := 6, dstAgent := 0x15, txn := 9,
                    addr := 0x1000 }, stream := 3, why := .device 0 0 0 8, st := .sent, quar := true }] } }, by decide⟩

theorem test_met_FabricTimeouts_26 :
    ∃ (a : Fin 256) (x : Fin 4096) (r : IoReq) (w : IoReq) (s : State), s.io.reqs = [r, w] ∧ r.agent = a ∧ r.msg.txn = x ∧ r.st
      = .sent ∧ r.quar = true ∧ w.agent = a ∧ w.st = .held ∧ w.msg.addr = r.msg.addr ∧ w.msg.txn ≠ x ∧ w.msg.ord ≠ 1 :=
  ⟨0x20, 9,
   { agent := 0x20,
     msg := { vc := 0, opc := 2, srcPkg := 0, srcAgent := 0x20, dstPkg := 6, dstAgent := 0x15, txn := 9, addr := 0x1000 },
     stream := 3, why := .device 0 0 0 8, st := .sent, quar := true },
   { agent := 0x20,
     msg := { vc := 0, opc := 2, srcPkg := 0, srcAgent := 0x20, dstPkg := 6, dstAgent := 0x15, txn := 10, addr := 0x1000 },
     stream := 3, why := .device 0 0 0 8, st := .held },
   { wS [] with
       io :=
         { reqs :=
             [{ agent := 0x20,
                msg :=
                  { vc := 0, opc := 2, srcPkg := 0, srcAgent := 0x20, dstPkg := 6, dstAgent := 0x15, txn := 9,
                    addr := 0x1000 }, stream := 3, why := .device 0 0 0 8, st := .sent, quar := true },
              { agent := 0x20,
                msg :=
                  { vc := 0, opc := 2, srcPkg := 0, srcAgent := 0x20, dstPkg := 6, dstAgent := 0x15, txn := 10,
                    addr := 0x1000 }, stream := 3, why := .device 0 0 0 8, st := .held }] } }, by decide⟩

theorem test_met_FabricTimeouts_27 :
    ∃ (a : Fin 256) (x : Fin 4096) (s : State), (s.ioReq a x = none ∨ (s.ioReq a x).map (fun r => r.quar) = some false) :=
  ⟨0x20, 9, wS [], by decide⟩

theorem test_met_WindowMessages_1 :
    ∃ (m : WMsg) (x : Xlate) (s : State), s.WinHere m vcPOST 0 ∧ wIllegal m = true :=
  ⟨{ vc := vcPOST, wopc := 0, srcPkg := 6, dstPkg := 0, srcFn := 3, iwin := 2, length := 300, wtag := 5,
     data := [1, 2, 3, 4, 5, 6, 7, 8] }, .to 0x40000,
   ((({ wS [] with
          hzn :=
            { win :=
                [{ vc := vcPOST, wopc := 0, srcPkg := 6, dstPkg := 0, srcFn := 3, iwin := 2, length := 300,
                   wtag := 5, data := [1, 2, 3, 4, 5, 6, 7, 8] }] },
          xce :=
            { iwin := [(2, (15 + (0) <<< 16 + (0) <<< 32 + (0) <<< 64 + (0x1000 / 4096 <<< 12) <<< 128 + 20 <<< 192))] } }).putCfg
       ridPF 0x04 2 1 1).putCfg ridBRIDGE 0x04 2 1 1), by decide⟩

theorem test_met_WindowMessages_2 :
    ∃ (m : WMsg) (x : Xlate) (s : State), s.WinHere m vcPOST 0 ∧ wIllegal m = false ∧ s.inOpen (s.iwinE m.iwin) m = false :=
  ⟨{ vc := vcPOST, wopc := 0, srcPkg := 6, dstPkg := 0, srcFn := 3, iwin := 2, length := 8, wtag := 5,
     data := [1, 2, 3, 4, 5, 6, 7, 8] }, .to 0x40000,
   ((({ wS [] with
          hzn :=
            { win :=
                [{ vc := vcPOST, wopc := 0, srcPkg := 6, dstPkg := 0, srcFn := 3, iwin := 2, length := 8, wtag := 5,
                   data := [1, 2, 3, 4, 5, 6, 7, 8] }] }, xce := { iwin := [(2, 0)] } }).putCfg ridPF 0x04 2 1 1).putCfg
      ridBRIDGE 0x04 2 1 1), by decide⟩

theorem test_met_WindowMessages_3 :
    ∃ (m : WMsg) (x : Xlate) (s : State), s.WinHere m vcPOST 0 ∧ wIllegal m = false ∧ s.inOpen (s.iwinE m.iwin) m = true ∧
      s.fnAccepts (wordBits (s.iwinE m.iwin) 0 32 12) = false :=
  ⟨{ vc := vcPOST, wopc := 0, srcPkg := 6, dstPkg := 0, srcFn := 3, iwin := 2, length := 8, wtag := 5,
     data := [1, 2, 3, 4, 5, 6, 7, 8] }, .to 0x40000,
   { wS [] with
       hzn :=
         { win :=
             [{ vc := vcPOST, wopc := 0, srcPkg := 6, dstPkg := 0, srcFn := 3, iwin := 2, length := 8, wtag := 5,
                data := [1, 2, 3, 4, 5, 6, 7, 8] }] },
       xce := { iwin := [(2, (15 + (0) <<< 16 + (0) <<< 32 + (0) <<< 64 + (0x1000 / 4096 <<< 12) <<< 128 + 20 <<< 192))] } },
   by decide⟩

theorem test_met_WindowMessages_4 :
    ∃ (m : WMsg) (x : Xlate) (f : Nat) (s : State), s.WinHere m vcPOST 0 ∧ wIllegal m = false ∧ s.inOpen (s.iwinE m.iwin) m =
      true ∧ f = wordBits (s.iwinE m.iwin) 0 32 12 ∧ s.fnAccepts f = true ∧ m.poison = true :=
  ⟨{ vc := vcPOST, wopc := 0, srcPkg := 6, dstPkg := 0, srcFn := 3, iwin := 2, length := 8, wtag := 5,
     data := [1, 2, 3, 4, 5, 6, 7, 8], poison := true }, .to 0x40000, 0,
   ((({ wS [] with
          hzn :=
            { win :=
                [{ vc := vcPOST, wopc := 0, srcPkg := 6, dstPkg := 0, srcFn := 3, iwin := 2, length := 8, wtag := 5,
                   data := [1, 2, 3, 4, 5, 6, 7, 8], poison := true }] },
          xce :=
            { iwin := [(2, (15 + (0) <<< 16 + (0) <<< 32 + (0) <<< 64 + (0x1000 / 4096 <<< 12) <<< 128 + 20 <<< 192))] } }).putCfg
       ridPF 0x04 2 1 1).putCfg ridBRIDGE 0x04 2 1 1), by decide⟩

theorem test_met_WindowMessages_5 :
    ∃ (m : WMsg) (x : Xlate) (s : State), (s.hzn.win.contains m = false ∨ m.vc ≠ vcPOST ∨ m.wopc ≠ 0 ∨ m.dstPkg ≠ s.pkgId) :=
  ⟨{ vc := vcPOST, wopc := 0, srcPkg := 6, dstPkg := 0, srcFn := 3, iwin := 2, length := 8, wtag := 5,
     data := [1, 2, 3, 4, 5, 6, 7, 8] }, .to 0x40000, wS [], by decide⟩

theorem test_met_WindowMessages_6 :
    ∃ (m : WMsg) (e f ga pa : Nat) (s : State), s.WinOpen m vcPOST 0 e f ∧ s.XceIdle ∧ s.OneLine f (wordBits e 2 12 52 * 4096 +
      m.offset) m.length ga pa :=
  ⟨{ vc := vcPOST, wopc := 0, srcPkg := 6, dstPkg := 0, srcFn := 3, iwin := 2, length := 8, wtag := 5,
     data := [1, 2, 3, 4, 5, 6, 7, 8] },
   (15 + (0) <<< 16 + (0) <<< 32 + (0) <<< 64 + (0x1000 / 4096 <<< 12) <<< 128 + 20 <<< 192), 0, 0x40000, 0x40000,
   ((({ wS [] with
          hzn :=
            { win :=
                [{ vc := vcPOST, wopc := 0, srcPkg := 6, dstPkg := 0, srcFn := 3, iwin := 2, length := 8, wtag := 5,
                   data := [1, 2, 3, 4, 5, 6, 7, 8] }] },
          xce :=
            { iwin := [(2, (15 + (0) <<< 16 + (0) <<< 32 + (0) <<< 64 + (0x1000 / 4096 <<< 12) <<< 128 + 20 <<< 192))] } }).putCfg
       ridPF 0x04 2 1 1).putCfg ridBRIDGE 0x04 2 1 1), by decide⟩

theorem test_met_WindowMessages_7 :
    ∃ (m : WMsg) (x : Xlate) (s : State), s.WinHere m vcNP 0 ∧ wIllegal m = true :=
  ⟨{ vc := vcNP, wopc := 0, srcPkg := 6, dstPkg := 0, srcFn := 3, iwin := 2, length := 300, wtag := 5,
     data := [1, 2, 3, 4, 5, 6, 7, 8] }, .to 0x40000,
   ((({ wS [] with
          hzn :=
            { win :=
                [{ vc := vcNP, wopc := 0, srcPkg := 6, dstPkg := 0, srcFn := 3, iwin := 2, length := 300, wtag := 5,
                   data := [1, 2, 3, 4, 5, 6, 7, 8] }] },
          xce :=
            { iwin := [(2, (15 + (0) <<< 16 + (0) <<< 32 + (0) <<< 64 + (0x1000 / 4096 <<< 12) <<< 128 + 20 <<< 192))] } }).putCfg
       ridPF 0x04 2 1 1).putCfg ridBRIDGE 0x04 2 1 1), by decide⟩

theorem test_met_WindowMessages_8 :
    ∃ (m : WMsg) (x : Xlate) (s : State), s.WinHere m vcNP 0 ∧ wIllegal m = false ∧ s.inOpen (s.iwinE m.iwin) m = false :=
  ⟨{ vc := vcNP, wopc := 0, srcPkg := 6, dstPkg := 0, srcFn := 3, iwin := 2, length := 8, wtag := 5,
     data := [1, 2, 3, 4, 5, 6, 7, 8] }, .to 0x40000,
   ((({ wS [] with
          hzn :=
            { win :=
                [{ vc := vcNP, wopc := 0, srcPkg := 6, dstPkg := 0, srcFn := 3, iwin := 2, length := 8, wtag := 5,
                   data := [1, 2, 3, 4, 5, 6, 7, 8] }] }, xce := { iwin := [(2, 0)] } }).putCfg ridPF 0x04 2 1 1).putCfg
      ridBRIDGE 0x04 2 1 1), by decide⟩

theorem test_met_WindowMessages_9 :
    ∃ (m : WMsg) (x : Xlate) (s : State), s.WinHere m vcNP 0 ∧ wIllegal m = false ∧ s.inOpen (s.iwinE m.iwin) m = true ∧
      s.fnAccepts (wordBits (s.iwinE m.iwin) 0 32 12) = false :=
  ⟨{ vc := vcNP, wopc := 0, srcPkg := 6, dstPkg := 0, srcFn := 3, iwin := 2, length := 8, wtag := 5,
     data := [1, 2, 3, 4, 5, 6, 7, 8] }, .to 0x40000,
   { wS [] with
       hzn :=
         { win :=
             [{ vc := vcNP, wopc := 0, srcPkg := 6, dstPkg := 0, srcFn := 3, iwin := 2, length := 8, wtag := 5,
                data := [1, 2, 3, 4, 5, 6, 7, 8] }] },
       xce := { iwin := [(2, (15 + (0) <<< 16 + (0) <<< 32 + (0) <<< 64 + (0x1000 / 4096 <<< 12) <<< 128 + 20 <<< 192))] } },
   by decide⟩

theorem test_met_WindowMessages_10 :
    ∃ (m : WMsg) (x : Xlate) (f : Nat) (s : State), s.WinHere m vcNP 0 ∧ wIllegal m = false ∧ s.inOpen (s.iwinE m.iwin) m = true
      ∧ f = wordBits (s.iwinE m.iwin) 0 32 12 ∧ s.fnAccepts f = true ∧ m.poison = true :=
  ⟨{ vc := vcNP, wopc := 0, srcPkg := 6, dstPkg := 0, srcFn := 3, iwin := 2, length := 8, wtag := 5,
     data := [1, 2, 3, 4, 5, 6, 7, 8], poison := true }, .to 0x40000, 0,
   ((({ wS [] with
          hzn :=
            { win :=
                [{ vc := vcNP, wopc := 0, srcPkg := 6, dstPkg := 0, srcFn := 3, iwin := 2, length := 8, wtag := 5,
                   data := [1, 2, 3, 4, 5, 6, 7, 8], poison := true }] },
          xce :=
            { iwin := [(2, (15 + (0) <<< 16 + (0) <<< 32 + (0) <<< 64 + (0x1000 / 4096 <<< 12) <<< 128 + 20 <<< 192))] } }).putCfg
       ridPF 0x04 2 1 1).putCfg ridBRIDGE 0x04 2 1 1), by decide⟩

theorem test_met_WindowMessages_11 :
    ∃ (m : WMsg) (x : Xlate) (s : State), (s.hzn.win.contains m = false ∨ m.vc ≠ vcNP ∨ m.wopc ≠ 0 ∨ m.dstPkg ≠ s.pkgId) :=
  ⟨{ vc := vcNP, wopc := 0, srcPkg := 6, dstPkg := 0, srcFn := 3, iwin := 2, length := 8, wtag := 5,
     data := [1, 2, 3, 4, 5, 6, 7, 8] }, .to 0x40000, wS [], by decide⟩

theorem test_met_WindowMessages_12 :
    ∃ (m : WMsg) (e f ga pa : Nat) (s : State), s.WinOpen m vcNP 0 e f ∧ s.XceIdle ∧ s.OneLine f (wordBits e 2 12 52 * 4096 +
      m.offset) m.length ga pa :=
  ⟨{ vc := vcNP, wopc := 0, srcPkg := 6, dstPkg := 0, srcFn := 3, iwin := 2, length := 8, wtag := 5,
     data := [1, 2, 3, 4, 5, 6, 7, 8] },
   (15 + (0) <<< 16 + (0) <<< 32 + (0) <<< 64 + (0x1000 / 4096 <<< 12) <<< 128 + 20 <<< 192), 0, 0x40000, 0x40000,
   ((({ wS [] with
          hzn :=
            { win :=
                [{ vc := vcNP, wopc := 0, srcPkg := 6, dstPkg := 0, srcFn := 3, iwin := 2, length := 8, wtag := 5,
                   data := [1, 2, 3, 4, 5, 6, 7, 8] }] },
          xce :=
            { iwin := [(2, (15 + (0) <<< 16 + (0) <<< 32 + (0) <<< 64 + (0x1000 / 4096 <<< 12) <<< 128 + 20 <<< 192))] } }).putCfg
       ridPF 0x04 2 1 1).putCfg ridBRIDGE 0x04 2 1 1), by decide⟩

theorem test_met_WindowMessages_13 :
    ∃ (m : WMsg) (x : Xlate) (s : State), s.WinHere m vcNP 1 ∧ wIllegal m = true :=
  ⟨{ vc := vcNP, wopc := 1, srcPkg := 6, dstPkg := 0, srcFn := 3, iwin := 2, length := 8, wtag := 5,
     data := [1, 2, 3, 4, 5, 6, 7, 8], aop := 15, asize := 1 }, .to 0x40000,
   ((({ wS [] with
          hzn :=
            { win :=
                [{ vc := vcNP, wopc := 1, srcPkg := 6, dstPkg := 0, srcFn := 3, iwin := 2, length := 8, wtag := 5,
                   data := [1, 2, 3, 4, 5, 6, 7, 8], aop := 15, asize := 1 }] },
          xce :=
            { iwin := [(2, (15 + (0) <<< 16 + (0) <<< 32 + (0) <<< 64 + (0x1000 / 4096 <<< 12) <<< 128 + 20 <<< 192))] } }).putCfg
       ridPF 0x04 2 1 1).putCfg ridBRIDGE 0x04 2 1 1), by decide⟩

theorem test_met_WindowMessages_14 :
    ∃ (m : WMsg) (x : Xlate) (s : State), s.WinHere m vcNP 1 ∧ wIllegal m = false ∧ s.inOpen (s.iwinE m.iwin) m = false :=
  ⟨{ vc := vcNP, wopc := 1, srcPkg := 6, dstPkg := 0, srcFn := 3, iwin := 2, length := 8, wtag := 5,
     data := [1, 2, 3, 4, 5, 6, 7, 8], aop := 0, asize := 1 }, .to 0x40000,
   ((({ wS [] with
          hzn :=
            { win :=
                [{ vc := vcNP, wopc := 1, srcPkg := 6, dstPkg := 0, srcFn := 3, iwin := 2, length := 8, wtag := 5,
                   data := [1, 2, 3, 4, 5, 6, 7, 8], aop := 0, asize := 1 }] }, xce := { iwin := [(2, 0)] } }).putCfg
       ridPF 0x04 2 1 1).putCfg ridBRIDGE 0x04 2 1 1), by decide⟩

theorem test_met_WindowMessages_15 :
    ∃ (m : WMsg) (x : Xlate) (s : State), s.WinHere m vcNP 1 ∧ wIllegal m = false ∧ s.inOpen (s.iwinE m.iwin) m = true ∧
      s.fnAccepts (wordBits (s.iwinE m.iwin) 0 32 12) = false :=
  ⟨{ vc := vcNP, wopc := 1, srcPkg := 6, dstPkg := 0, srcFn := 3, iwin := 2, length := 8, wtag := 5,
     data := [1, 2, 3, 4, 5, 6, 7, 8], aop := 0, asize := 1 }, .to 0x40000,
   { wS [] with
       hzn :=
         { win :=
             [{ vc := vcNP, wopc := 1, srcPkg := 6, dstPkg := 0, srcFn := 3, iwin := 2, length := 8, wtag := 5,
                data := [1, 2, 3, 4, 5, 6, 7, 8], aop := 0, asize := 1 }] },
       xce := { iwin := [(2, (15 + (0) <<< 16 + (0) <<< 32 + (0) <<< 64 + (0x1000 / 4096 <<< 12) <<< 128 + 20 <<< 192))] } },
   by decide⟩

theorem test_met_WindowMessages_16 :
    ∃ (m : WMsg) (x : Xlate) (f : Nat) (s : State), s.WinHere m vcNP 1 ∧ wIllegal m = false ∧ s.inOpen (s.iwinE m.iwin) m = true
      ∧ f = wordBits (s.iwinE m.iwin) 0 32 12 ∧ s.fnAccepts f = true ∧ m.poison = true :=
  ⟨{ vc := vcNP, wopc := 1, srcPkg := 6, dstPkg := 0, srcFn := 3, iwin := 2, length := 8, wtag := 5,
     data := [1, 2, 3, 4, 5, 6, 7, 8], aop := 0, asize := 1, poison := true }, .to 0x40000, 0,
   ((({ wS [] with
          hzn :=
            { win :=
                [{ vc := vcNP, wopc := 1, srcPkg := 6, dstPkg := 0, srcFn := 3, iwin := 2, length := 8, wtag := 5,
                   data := [1, 2, 3, 4, 5, 6, 7, 8], aop := 0, asize := 1, poison := true }] },
          xce :=
            { iwin := [(2, (15 + (0) <<< 16 + (0) <<< 32 + (0) <<< 64 + (0x1000 / 4096 <<< 12) <<< 128 + 20 <<< 192))] } }).putCfg
       ridPF 0x04 2 1 1).putCfg ridBRIDGE 0x04 2 1 1), by decide⟩

theorem test_met_WindowMessages_17 :
    ∃ (m : WMsg) (x : Xlate) (s : State), (s.hzn.win.contains m = false ∨ m.vc ≠ vcNP ∨ m.wopc ≠ 1 ∨ m.dstPkg ≠ s.pkgId) :=
  ⟨{ vc := vcNP, wopc := 1, srcPkg := 6, dstPkg := 0, srcFn := 3, iwin := 2, length := 8, wtag := 5,
     data := [1, 2, 3, 4, 5, 6, 7, 8], aop := 0, asize := 1 }, .to 0x40000, wS [], by decide⟩

theorem test_met_WindowMessages_18 :
    ∃ (m : WMsg) (e f ga pa : Nat) (s : State), s.WinOpen m vcNP 1 e f ∧ s.XceIdle ∧ s.OneLine f (wordBits e 2 12 52 * 4096 +
      m.offset) (4 * 2 ^ m.asize) ga pa :=
  ⟨{ vc := vcNP, wopc := 1, srcPkg := 6, dstPkg := 0, srcFn := 3, iwin := 2, length := 8, wtag := 5,
     data := [1, 2, 3, 4, 5, 6, 7, 8], aop := 0, asize := 1 },
   (15 + (0) <<< 16 + (0) <<< 32 + (0) <<< 64 + (0x1000 / 4096 <<< 12) <<< 128 + 20 <<< 192), 0, 0x40000, 0x40000,
   ((({ wS [] with
          hzn :=
            { win :=
                [{ vc := vcNP, wopc := 1, srcPkg := 6, dstPkg := 0, srcFn := 3, iwin := 2, length := 8, wtag := 5,
                   data := [1, 2, 3, 4, 5, 6, 7, 8], aop := 0, asize := 1 }] },
          xce :=
            { iwin := [(2, (15 + (0) <<< 16 + (0) <<< 32 + (0) <<< 64 + (0x1000 / 4096 <<< 12) <<< 128 + 20 <<< 192))] } }).putCfg
       ridPF 0x04 2 1 1).putCfg ridBRIDGE 0x04 2 1 1), by decide⟩

theorem test_met_WindowMessages_19 :
    ∃ (m : WMsg) (x : Xlate) (s : State), s.WinHere m vcPOST 1 ∧ s.depositing (wordBits (s.iwinE m.iwin) 0 32 12) (wordBits
      (s.iwinE m.iwin) 0 48 3) = false ∧ wIllegal m = true :=
  ⟨{ vc := vcPOST, wopc := 1, srcPkg := 6, dstPkg := 0, srcFn := 3, iwin := 2, length := 300, wtag := 5,
     data := [1, 2, 3, 4, 5, 6, 7, 8] }, .to 0x40000,
   ((({ wS [] with
          hzn :=
            { win :=
                [{ vc := vcPOST, wopc := 1, srcPkg := 6, dstPkg := 0, srcFn := 3, iwin := 2, length := 300,
                   wtag := 5, data := [1, 2, 3, 4, 5, 6, 7, 8] }] },
          xce := { iwin := [(2, (17 + (0) <<< 16 + (0) <<< 32 + (0) <<< 64 + (0) <<< 128 + 20 <<< 192))] } }).putCfg
       ridPF 0x04 2 1 1).putCfg ridBRIDGE 0x04 2 1 1), by decide⟩

theorem test_met_WindowMessages_20 :
    ∃ (m : WMsg) (x : Xlate) (s : State), s.WinHere m vcPOST 1 ∧ s.depositing (wordBits (s.iwinE m.iwin) 0 32 12) (wordBits
      (s.iwinE m.iwin) 0 48 3) = false ∧ wIllegal m = false ∧ s.inOpen (s.iwinE m.iwin) m = false :=
  ⟨{ vc := vcPOST, wopc := 1, srcPkg := 6, dstPkg := 0, srcFn := 3, iwin := 2, length := 8, wtag := 5,
     data := [1, 2, 3, 4, 5, 6, 7, 8] }, .to 0x40000,
   ((({ wS [] with
          hzn :=
            { win :=
                [{ vc := vcPOST, wopc := 1, srcPkg := 6, dstPkg := 0, srcFn := 3, iwin := 2, length := 8, wtag := 5,
                   data := [1, 2, 3, 4, 5, 6, 7, 8] }] }, xce := { iwin := [(2, 0)] } }).putCfg ridPF 0x04 2 1 1).putCfg
      ridBRIDGE 0x04 2 1 1), by decide⟩

theorem test_met_WindowMessages_21 :
    ∃ (m : WMsg) (x : Xlate) (s : State), s.WinHere m vcPOST 1 ∧ s.depositing (wordBits (s.iwinE m.iwin) 0 32 12) (wordBits
      (s.iwinE m.iwin) 0 48 3) = false ∧ wIllegal m = false ∧ s.inOpen (s.iwinE m.iwin) m = true ∧ s.fnAccepts (wordBits
      (s.iwinE m.iwin) 0 32 12) = false :=
  ⟨{ vc := vcPOST, wopc := 1, srcPkg := 6, dstPkg := 0, srcFn := 3, iwin := 2, length := 8, wtag := 5,
     data := [1, 2, 3, 4, 5, 6, 7, 8] }, .to 0x40000,
   { wS [] with
       hzn :=
         { win :=
             [{ vc := vcPOST, wopc := 1, srcPkg := 6, dstPkg := 0, srcFn := 3, iwin := 2, length := 8, wtag := 5,
                data := [1, 2, 3, 4, 5, 6, 7, 8] }] },
       xce := { iwin := [(2, (17 + (0) <<< 16 + (0) <<< 32 + (0) <<< 64 + (0) <<< 128 + 20 <<< 192))] } }, by decide⟩

theorem test_met_WindowMessages_22 :
    ∃ (m : WMsg) (x : Xlate) (f : Nat) (s : State), s.WinHere m vcPOST 1 ∧ s.depositing (wordBits (s.iwinE m.iwin) 0 32 12)
      (wordBits (s.iwinE m.iwin) 0 48 3) = false ∧ wIllegal m = false ∧ s.inOpen (s.iwinE m.iwin) m = true ∧ f = wordBits
      (s.iwinE m.iwin) 0 32 12 ∧ s.fnAccepts f = true ∧ m.poison = true :=
  ⟨{ vc := vcPOST, wopc := 1, srcPkg := 6, dstPkg := 0, srcFn := 3, iwin := 2, length := 8, wtag := 5,
     data := [1, 2, 3, 4, 5, 6, 7, 8], poison := true }, .to 0x40000, 0,
   ((({ wS [] with
          hzn :=
            { win :=
                [{ vc := vcPOST, wopc := 1, srcPkg := 6, dstPkg := 0, srcFn := 3, iwin := 2, length := 8, wtag := 5,
                   data := [1, 2, 3, 4, 5, 6, 7, 8], poison := true }] },
          xce := { iwin := [(2, (17 + (0) <<< 16 + (0) <<< 32 + (0) <<< 64 + (0) <<< 128 + 20 <<< 192))] } }).putCfg
       ridPF 0x04 2 1 1).putCfg ridBRIDGE 0x04 2 1 1), by decide⟩

theorem test_met_WindowMessages_23 :
    ∃ (m : WMsg) (x : Xlate) (s : State), (s.hzn.win.contains m = false ∨ m.vc ≠ vcPOST ∨ m.wopc ≠ 1 ∨ m.dstPkg ≠ s.pkgId ∨
      s.depositing (wordBits (s.iwinE m.iwin) 0 32 12) (wordBits (s.iwinE m.iwin) 0 48 3) = true) :=
  ⟨{ vc := vcPOST, wopc := 1, srcPkg := 6, dstPkg := 0, srcFn := 3, iwin := 2, length := 8, wtag := 5,
     data := [1, 2, 3, 4, 5, 6, 7, 8] }, .to 0x40000, wS [], by decide⟩

theorem test_met_WindowMessages_24 :
    ∃ (m : WMsg) (e f ga pa : Nat) (q : Nat) (s : State), s.WinOpen m vcPOST 1 e f ∧ q = wordBits e 0 48 3 ∧ s.XceIdle ∧
      s.qpState f q = qpACTIVE ∧ s.get (R.QP_CTL_RQ_ENABLE f q) = 1 ∧ (s.qp f q).rsv < s.rqPosted f q ∧ s.cqRoom f q = true
      ∧ s.OneLine f (s.get (R.QP_RQ_BASE_BASE f q) * 4096 + (s.get (R.QP_RQ_HEAD_INDEX f q) + (s.qp f q).rsv) % 2 ^ s.get
      (R.QP_SIZES_RQ_LOG2 f q) * 256) m.length ga pa :=
  ⟨{ vc := vcPOST, wopc := 1, srcPkg := 6, dstPkg := 0, srcFn := 3, iwin := 2, length := 8, wtag := 5,
     data := [1, 2, 3, 4, 5, 6, 7, 8] }, (17 + (0) <<< 16 + (0) <<< 32 + (0) <<< 64 + (0) <<< 128 + 20 <<< 192), 0,
   0x40000, 0x40000, 0,
   ((({ wS
          [(R.QP_STATUS_STATE 0 0, 1), (R.QP_CTL_RQ_ENABLE 0 0, 1), (R.QP_SIZES_RQ_LOG2 0 0, 4),
           (R.QP_SIZES_CQ_LOG2 0 0, 4), (R.QP_SIZES_SQ_LOG2 0 0, 4), (R.QP_RQ_DB_INDEX 0 0, 3)] with
          hzn :=
            { win :=
                [{ vc := vcPOST, wopc := 1, srcPkg := 6, dstPkg := 0, srcFn := 3, iwin := 2, length := 8, wtag := 5,
                   data := [1, 2, 3, 4, 5, 6, 7, 8] }] },
          xce := { iwin := [(2, (17 + (0) <<< 16 + (0) <<< 32 + (0) <<< 64 + (0) <<< 128 + 20 <<< 192))] } }).putCfg
       ridPF 0x04 2 1 1).putCfg ridBRIDGE 0x04 2 1 1), by decide⟩

theorem test_met_WindowMessages_25 :
    ∃ (m : WMsg) (e f q : Nat) (x : Xlate) (s : State), s.WinOpen m vcPOST 1 e f ∧ q = wordBits e 0 48 3 ∧ s.depositing f q =
      false ∧ (s.qpState f q ≠ qpACTIVE ∨ s.get (R.QP_CTL_RQ_ENABLE f q) = 0 ∨ s.rqPosted f q ≤ (s.qp f q).rsv ∨ s.cqRoom f
      q = false) :=
  ⟨{ vc := vcPOST, wopc := 1, srcPkg := 6, dstPkg := 0, srcFn := 3, iwin := 2, length := 8, wtag := 5,
     data := [1, 2, 3, 4, 5, 6, 7, 8] }, (17 + (0) <<< 16 + (0) <<< 32 + (0) <<< 64 + (0) <<< 128 + 20 <<< 192), 0, 0,
   .to 0x40000,
   ((({ wS [] with
          hzn :=
            { win :=
                [{ vc := vcPOST, wopc := 1, srcPkg := 6, dstPkg := 0, srcFn := 3, iwin := 2, length := 8, wtag := 5,
                   data := [1, 2, 3, 4, 5, 6, 7, 8] }] },
          xce := { iwin := [(2, (17 + (0) <<< 16 + (0) <<< 32 + (0) <<< 64 + (0) <<< 128 + 20 <<< 192))] } }).putCfg
       ridPF 0x04 2 1 1).putCfg ridBRIDGE 0x04 2 1 1), by decide⟩

theorem test_met_WindowMessages_26 :
    ∃ (m : WMsg) (y : List Xlate) (s : State), s.WinHere m vcCPL 0 ∧ s.tag m.srcFn m.wtag = none :=
  ⟨{ vc := vcCPL, wopc := 0, srcPkg := 6, dstPkg := 0, srcFn := 3, iwin := 2, length := 8, wtag := 5,
     data := [1, 2, 3, 4, 5, 6, 7, 8] }, [],
   { wS [] with
       hzn :=
         { win :=
             [{ vc := vcCPL, wopc := 0, srcPkg := 6, dstPkg := 0, srcFn := 3, iwin := 2, length := 8, wtag := 5,
                data := [1, 2, 3, 4, 5, 6, 7, 8] }] } }, by decide⟩

theorem test_met_WindowMessages_27 :
    ∃ (m : WMsg) (x : XTag) (y : List Xlate) (s : State), s.WinHere m vcCPL 0 ∧ s.tag m.srcFn m.wtag = some x ∧ (m.cstatus = 7 ∨
      x.np = false ∨ (m.cstatus = 0 ∧ m.length ≠ x.len)) :=
  ⟨{ vc := vcCPL, wopc := 0, srcPkg := 6, dstPkg := 0, srcFn := 3, iwin := 2, length := 8, wtag := 5,
     data := [1, 2, 3, 4, 5, 6, 7, 8], cstatus := 7 }, ⟨3, 5, true, 8, false, false, 0, .piece 0 4 0⟩, [],
   { wS [] with
       hzn :=
         { win :=
             [{ vc := vcCPL, wopc := 0, srcPkg := 6, dstPkg := 0, srcFn := 3, iwin := 2, length := 8, wtag := 5,
                data := [1, 2, 3, 4, 5, 6, 7, 8], cstatus := 7 }] },
       xce := { tags := [⟨3, 5, true, 8, false, false, 0, .piece 0 4 0⟩] } }, by decide⟩

theorem test_met_WindowMessages_28 :
    ∃ (m : WMsg) (x : XTag) (q off : Nat) (d : XDesc) (y : List Xlate) (s : State), s.CplFor m 0 x ∧ m.cstatus ≠ 0 ∧ x.why =
      .piece q d.pos off ∧ (s.qp x.fn q).descs = [d] ∧ d.live = 1 ∧ d.total ≤ d.next ∧ d.fail = none ∧ s.get (R.QP_CTL_MODE
      x.fn q) = 0 :=
  ⟨{ vc := vcCPL, wopc := 0, srcPkg := 6, dstPkg := 0, srcFn := 3, iwin := 2, length := 8, wtag := 5,
     data := [1, 2, 3, 4, 5, 6, 7, 8], cstatus := 3 }, ⟨3, 5, true, 8, false, false, 0, .piece 0 4 0⟩, 0, 0,
   { pos := 4, ix := 4, raw := 0x100000000002000000080000000700000003, rcid := 1, mcid := 9, started := true,
     next := 8, live := 1 }, [],
   { wS [] with
       hzn :=
         { win :=
             [{ vc := vcCPL, wopc := 0, srcPkg := 6, dstPkg := 0, srcFn := 3, iwin := 2, length := 8, wtag := 5,
                data := [1, 2, 3, 4, 5, 6, 7, 8], cstatus := 3 }] },
       xce :=
         { tags := [⟨3, 5, true, 8, false, false, 0, .piece 0 4 0⟩],
           qps :=
             [(24,
               { descs :=
                   [{ pos := 4, ix := 4, raw := 0x100000000002000000080000000700000003, rcid := 1, mcid := 9,
                      started := true, next := 8, live := 1 }] })] } }, by decide⟩

theorem test_met_WindowMessages_29 :
    ∃ (m : WMsg) (x : XTag) (q off : Nat) (d : XDesc) (y : List Xlate) (s : State), s.CplFor m 0 x ∧ m.cstatus = 0 ∧ m.poison =
      true ∧ x.why = .piece q d.pos off ∧ (s.qp x.fn q).descs = [d] ∧ d.live = 1 ∧ d.total ≤ d.next ∧ d.fail = none ∧ s.get
      (R.QP_CTL_MODE x.fn q) = 0 :=
  ⟨{ vc := vcCPL, wopc := 0, srcPkg := 6, dstPkg := 0, srcFn := 3, iwin := 2, length := 8, wtag := 5,
     data := [1, 2, 3, 4, 5, 6, 7, 8], poison := true }, ⟨3, 5, true, 8, false, false, 0, .piece 0 4 0⟩, 0, 0,
   { pos := 4, ix := 4, raw := 0x100000000002000000080000000700000003, rcid := 1, mcid := 9, started := true,
     next := 8, live := 1 }, [],
   { wS [] with
       hzn :=
         { win :=
             [{ vc := vcCPL, wopc := 0, srcPkg := 6, dstPkg := 0, srcFn := 3, iwin := 2, length := 8, wtag := 5,
                data := [1, 2, 3, 4, 5, 6, 7, 8], poison := true }] },
       xce :=
         { tags := [⟨3, 5, true, 8, false, false, 0, .piece 0 4 0⟩],
           qps :=
             [(24,
               { descs :=
                   [{ pos := 4, ix := 4, raw := 0x100000000002000000080000000700000003, rcid := 1, mcid := 9,
                      started := true, next := 8, live := 1 }] })] } }, by decide⟩

theorem test_met_WindowMessages_30 :
    ∃ (m : WMsg) (x : XTag) (y : List Xlate) (s : State), s.WinHere m vcCPL 0 ∧ s.tag m.srcFn m.wtag = some x ∧ (m.cstatus ≠ 7 ∧
      x.quar = true ∧ x.np = true ∧ (m.cstatus ≠ 0 ∨ m.length = x.len)) ∧ (s.get R.XCE_EVENT_EN_ENABLE).testBit 3 = false ∧
      (s.get R.XCE_EVENT_EN_ENABLE).testBit 5 = false :=
  ⟨{ vc := vcCPL, wopc := 0, srcPkg := 6, dstPkg := 0, srcFn := 3, iwin := 2, length := 8, wtag := 5,
     data := [1, 2, 3, 4, 5, 6, 7, 8] }, ⟨3, 5, true, 8, true, false, 0, .piece 0 4 0⟩, [],
   { wS [] with
       hzn :=
         { win :=
             [{ vc := vcCPL, wopc := 0, srcPkg := 6, dstPkg := 0, srcFn := 3, iwin := 2, length := 8, wtag := 5,
                data := [1, 2, 3, 4, 5, 6, 7, 8] }] }, xce := { tags := [⟨3, 5, true, 8, true, false, 0, .piece 0 4 0⟩] } },
   by decide⟩

theorem test_met_WindowMessages_31 :
    ∃ (m : WMsg) (y : List Xlate) (s : State), (s.hzn.win.contains m = false ∨ m.vc ≠ vcCPL ∨ m.wopc ≠ 0 ∨ m.dstPkg ≠ s.pkgId) :=
  ⟨{ vc := vcCPL, wopc := 0, srcPkg := 6, dstPkg := 0, srcFn := 3, iwin := 2, length := 8, wtag := 5,
     data := [1, 2, 3, 4, 5, 6, 7, 8] }, [], wS [], by decide⟩

theorem test_met_WindowMessages_32 :
    ∃ (m : WMsg) (y : Xlate) (s : State), s.WinHere m vcCPL 1 ∧ s.tag m.srcFn m.wtag = none :=
  ⟨{ vc := vcCPL, wopc := 1, srcPkg := 6, dstPkg := 0, srcFn := 3, iwin := 2, length := 8, wtag := 5,
     data := [1, 2, 3, 4, 5, 6, 7, 8] }, .to 0x40000,
   { wS [] with
       hzn :=
         { win :=
             [{ vc := vcCPL, wopc := 1, srcPkg := 6, dstPkg := 0, srcFn := 3, iwin := 2, length := 8, wtag := 5,
                data := [1, 2, 3, 4, 5, 6, 7, 8] }] } }, by decide⟩

theorem test_met_WindowMessages_33 :
    ∃ (m : WMsg) (x : XTag) (y : Xlate) (s : State), s.WinHere m vcCPL 1 ∧ s.tag m.srcFn m.wtag = some x ∧ (m.cstatus = 7 ∨ x.np
      = false) :=
  ⟨{ vc := vcCPL, wopc := 1, srcPkg := 6, dstPkg := 0, srcFn := 3, iwin := 2, length := 8, wtag := 5,
     data := [1, 2, 3, 4, 5, 6, 7, 8], cstatus := 7 }, ⟨3, 5, true, 8, false, false, 0, .piece 0 4 0⟩, .to 0x40000,
   { wS [] with
       hzn :=
         { win :=
             [{ vc := vcCPL, wopc := 1, srcPkg := 6, dstPkg := 0, srcFn := 3, iwin := 2, length := 8, wtag := 5,
                data := [1, 2, 3, 4, 5, 6, 7, 8], cstatus := 7 }] },
       xce := { tags := [⟨3, 5, true, 8, false, false, 0, .piece 0 4 0⟩] } }, by decide⟩

theorem test_met_WindowMessages_34 :
    ∃ (m : WMsg) (x : XTag) (q off : Nat) (d : XDesc) (y : Xlate) (s : State), s.CplFor m 1 x ∧ m.cstatus ≠ 0 ∧ x.why = .piece q
      d.pos off ∧ (s.qp x.fn q).descs = [d] ∧ d.live = 1 ∧ d.total ≤ d.next ∧ d.fail = none ∧ s.get (R.QP_CTL_MODE x.fn q) =
      0 :=
  ⟨{ vc := vcCPL, wopc := 1, srcPkg := 6, dstPkg := 0, srcFn := 3, iwin := 2, length := 8, wtag := 5,
     data := [1, 2, 3, 4, 5, 6, 7, 8], cstatus := 3 }, ⟨3, 5, true, 8, false, false, 0, .piece 0 4 0⟩, 0, 0,
   { pos := 4, ix := 4, raw := 0x100000000002000000000000000700100005, rcid := 1, mcid := 9, started := true,
     next := 1, live := 1 }, .to 0x40000,
   { wS [] with
       hzn :=
         { win :=
             [{ vc := vcCPL, wopc := 1, srcPkg := 6, dstPkg := 0, srcFn := 3, iwin := 2, length := 8, wtag := 5,
                data := [1, 2, 3, 4, 5, 6, 7, 8], cstatus := 3 }] },
       xce :=
         { tags := [⟨3, 5, true, 8, false, false, 0, .piece 0 4 0⟩],
           qps :=
             [(24,
               { descs :=
                   [{ pos := 4, ix := 4, raw := 0x100000000002000000000000000700100005, rcid := 1, mcid := 9,
                      started := true, next := 1, live := 1 }] })] } }, by decide⟩

theorem test_met_WindowMessages_35 :
    ∃ (m : WMsg) (x : XTag) (q off : Nat) (d : XDesc) (y : Xlate) (s : State), s.CplFor m 1 x ∧ m.cstatus = 0 ∧ m.poison = true
      ∧ x.why = .piece q d.pos off ∧ (s.qp x.fn q).descs = [d] ∧ d.live = 1 ∧ d.total ≤ d.next ∧ d.fail = none ∧ s.get
      (R.QP_CTL_MODE x.fn q) = 0 :=
  ⟨{ vc := vcCPL, wopc := 1, srcPkg := 6, dstPkg := 0, srcFn := 3, iwin := 2, length := 8, wtag := 5,
     data := [1, 2, 3, 4, 5, 6, 7, 8], poison := true }, ⟨3, 5, true, 8, false, false, 0, .piece 0 4 0⟩, 0, 0,
   { pos := 4, ix := 4, raw := 0x100000000002000000000000000700100005, rcid := 1, mcid := 9, started := true,
     next := 1, live := 1 }, .to 0x40000,
   { wS [] with
       hzn :=
         { win :=
             [{ vc := vcCPL, wopc := 1, srcPkg := 6, dstPkg := 0, srcFn := 3, iwin := 2, length := 8, wtag := 5,
                data := [1, 2, 3, 4, 5, 6, 7, 8], poison := true }] },
       xce :=
         { tags := [⟨3, 5, true, 8, false, false, 0, .piece 0 4 0⟩],
           qps :=
             [(24,
               { descs :=
                   [{ pos := 4, ix := 4, raw := 0x100000000002000000000000000700100005, rcid := 1, mcid := 9,
                      started := true, next := 1, live := 1 }] })] } }, by decide⟩

theorem test_met_WindowMessages_36 :
    ∃ (m : WMsg) (x : XTag) (y : Xlate) (s : State), s.WinHere m vcCPL 1 ∧ s.tag m.srcFn m.wtag = some x ∧ m.cstatus ≠ 7 ∧
      x.quar = true ∧ x.np = true ∧ (s.get R.XCE_EVENT_EN_ENABLE).testBit 3 = false ∧ (s.get R.XCE_EVENT_EN_ENABLE).testBit
      5 = false :=
  ⟨{ vc := vcCPL, wopc := 1, srcPkg := 6, dstPkg := 0, srcFn := 3, iwin := 2, length := 8, wtag := 5,
     data := [1, 2, 3, 4, 5, 6, 7, 8] }, ⟨3, 5, true, 8, true, false, 0, .piece 0 4 0⟩, .to 0x40000,
   { wS [] with
       hzn :=
         { win :=
             [{ vc := vcCPL, wopc := 1, srcPkg := 6, dstPkg := 0, srcFn := 3, iwin := 2, length := 8, wtag := 5,
                data := [1, 2, 3, 4, 5, 6, 7, 8] }] }, xce := { tags := [⟨3, 5, true, 8, true, false, 0, .piece 0 4 0⟩] } },
   by decide⟩

theorem test_met_WindowMessages_37 :
    ∃ (m : WMsg) (y : Xlate) (s : State), (s.hzn.win.contains m = false ∨ m.vc ≠ vcCPL ∨ m.wopc ≠ 1 ∨ m.dstPkg ≠ s.pkgId) :=
  ⟨{ vc := vcCPL, wopc := 1, srcPkg := 6, dstPkg := 0, srcFn := 3, iwin := 2, length := 8, wtag := 5,
     data := [1, 2, 3, 4, 5, 6, 7, 8] }, .to 0x40000, wS [], by decide⟩

theorem test_met_WindowMessages_38 :
    ∃ (m : WMsg) (s : State), s.WinHere m vcCPL 2 ∧ s.tag m.srcFn m.wtag = none :=
  ⟨{ vc := vcCPL, wopc := 2, srcPkg := 6, dstPkg := 0, srcFn := 3, iwin := 2, length := 8, wtag := 5,
     data := [1, 2, 3, 4, 5, 6, 7, 8] },
   { wS [] with
       hzn :=
         { win :=
             [{ vc := vcCPL, wopc := 2, srcPkg := 6, dstPkg := 0, srcFn := 3, iwin := 2, length := 8, wtag := 5,
                data := [1, 2, 3, 4, 5, 6, 7, 8] }] } }, by decide⟩

theorem test_met_WindowMessages_39 :
    ∃ (m : WMsg) (x : XTag) (s : State), s.WinHere m vcCPL 2 ∧ s.tag m.srcFn m.wtag = some x ∧ (m.cstatus = 7 ∨ x.np = true) :=
  ⟨{ vc := vcCPL, wopc := 2, srcPkg := 6, dstPkg := 0, srcFn := 3, iwin := 2, length := 8, wtag := 5,
     data := [1, 2, 3, 4, 5, 6, 7, 8], cstatus := 7 }, ⟨3, 5, false, 8, false, false, 0, .piece 0 4 0⟩,
   { wS [] with
       hzn :=
         { win :=
             [{ vc := vcCPL, wopc := 2, srcPkg := 6, dstPkg := 0, srcFn := 3, iwin := 2, length := 8, wtag := 5,
                data := [1, 2, 3, 4, 5, 6, 7, 8], cstatus := 7 }] },
       xce := { tags := [⟨3, 5, false, 8, false, false, 0, .piece 0 4 0⟩] } }, by decide⟩

theorem test_met_WindowMessages_40 :
    ∃ (m : WMsg) (x : XTag) (q off : Nat) (d : XDesc) (s : State), s.CplFor m 2 x ∧ m.cstatus ≠ 0 ∧ x.why = .piece q d.pos off ∧
      (s.qp x.fn q).descs = [d] ∧ d.live = 1 ∧ d.total ≤ d.next ∧ d.fail = none ∧ s.get (R.QP_CTL_MODE x.fn q) = 0 :=
  ⟨{ vc := vcCPL, wopc := 2, srcPkg := 6, dstPkg := 0, srcFn := 3, iwin := 2, length := 8, wtag := 5,
     data := [1, 2, 3, 4, 5, 6, 7, 8], cstatus := 3 }, ⟨3, 5, false, 8, false, false, 0, .piece 0 4 0⟩, 0, 0,
   { pos := 4, ix := 4, raw := 0x100000000002000000080000000700000002, rcid := 1, mcid := 9, started := true,
     next := 8, live := 1 },
   { wS [] with
       hzn :=
         { win :=
             [{ vc := vcCPL, wopc := 2, srcPkg := 6, dstPkg := 0, srcFn := 3, iwin := 2, length := 8, wtag := 5,
                data := [1, 2, 3, 4, 5, 6, 7, 8], cstatus := 3 }] },
       xce :=
         { tags := [⟨3, 5, false, 8, false, false, 0, .piece 0 4 0⟩],
           qps :=
             [(24,
               { descs :=
                   [{ pos := 4, ix := 4, raw := 0x100000000002000000080000000700000002, rcid := 1, mcid := 9,
                      started := true, next := 8, live := 1 }] })] } }, by decide⟩

theorem test_met_WindowMessages_41 :
    ∃ (m : WMsg) (x : XTag) (q off : Nat) (d : XDesc) (s : State), s.CplFor m 2 x ∧ m.cstatus = 0 ∧ m.poison = true ∧ x.why =
      .piece q d.pos off ∧ (s.qp x.fn q).descs = [d] ∧ d.live = 1 ∧ d.total ≤ d.next ∧ d.fail = none ∧ s.get (R.QP_CTL_MODE
      x.fn q) = 0 :=
  ⟨{ vc := vcCPL, wopc := 2, srcPkg := 6, dstPkg := 0, srcFn := 3, iwin := 2, length := 8, wtag := 5,
     data := [1, 2, 3, 4, 5, 6, 7, 8], poison := true }, ⟨3, 5, false, 8, false, false, 0, .piece 0 4 0⟩, 0, 0,
   { pos := 4, ix := 4, raw := 0x100000000002000000080000000700000002, rcid := 1, mcid := 9, started := true,
     next := 8, live := 1 },
   { wS [] with
       hzn :=
         { win :=
             [{ vc := vcCPL, wopc := 2, srcPkg := 6, dstPkg := 0, srcFn := 3, iwin := 2, length := 8, wtag := 5,
                data := [1, 2, 3, 4, 5, 6, 7, 8], poison := true }] },
       xce :=
         { tags := [⟨3, 5, false, 8, false, false, 0, .piece 0 4 0⟩],
           qps :=
             [(24,
               { descs :=
                   [{ pos := 4, ix := 4, raw := 0x100000000002000000080000000700000002, rcid := 1, mcid := 9,
                      started := true, next := 8, live := 1 }] })] } }, by decide⟩

theorem test_met_WindowMessages_42 :
    ∃ (m : WMsg) (x : XTag) (s : State), s.WinHere m vcCPL 2 ∧ s.tag m.srcFn m.wtag = some x ∧ m.cstatus ≠ 7 ∧ x.quar = true ∧
      x.np = false ∧ (s.get R.XCE_EVENT_EN_ENABLE).testBit 3 = false ∧ (s.get R.XCE_EVENT_EN_ENABLE).testBit 5 = false :=
  ⟨{ vc := vcCPL, wopc := 2, srcPkg := 6, dstPkg := 0, srcFn := 3, iwin := 2, length := 8, wtag := 5,
     data := [1, 2, 3, 4, 5, 6, 7, 8] }, ⟨3, 5, false, 8, true, false, 0, .piece 0 4 0⟩,
   { wS [] with
       hzn :=
         { win :=
             [{ vc := vcCPL, wopc := 2, srcPkg := 6, dstPkg := 0, srcFn := 3, iwin := 2, length := 8, wtag := 5,
                data := [1, 2, 3, 4, 5, 6, 7, 8] }] }, xce := { tags := [⟨3, 5, false, 8, true, false, 0, .piece 0 4 0⟩] } },
   by decide⟩

theorem test_met_WindowMessages_43 :
    ∃ (m : WMsg) (s : State), (s.hzn.win.contains m = false ∨ m.vc ≠ vcCPL ∨ m.wopc ≠ 2 ∨ m.dstPkg ≠ s.pkgId) :=
  ⟨{ vc := vcCPL, wopc := 2, srcPkg := 6, dstPkg := 0, srcFn := 3, iwin := 2, length := 8, wtag := 5,
     data := [1, 2, 3, 4, 5, 6, 7, 8] }, wS [], by decide⟩

theorem test_met_WindowMessages_44 :
    ∃ (m : WMsg) (x : XTag) (h : Hart) (k : Nat) (a : Access) (l : List Xlate) (s : State), s.CplGood m 0 x ∧ x.why = .load h k
      ∧ (s.hart h).mmio = some (a, none) ∧ a.ga % 2 ^ 44 < irqBase :=
  ⟨{ vc := vcCPL, wopc := 0, srcPkg := 6, dstPkg := 0, srcFn := 3, iwin := 2, length := 8, wtag := 5,
     data := [1, 2, 3, 4, 5, 6, 7, 8] }, ⟨3, 5, true, 8, false, false, 0, .load 100 2⟩, 100, 2,
   plainAccess 0x80000000 8, [],
   (({ wS [] with
         hzn :=
           { win :=
               [{ vc := vcCPL, wopc := 0, srcPkg := 6, dstPkg := 0, srcFn := 3, iwin := 2, length := 8, wtag := 5,
                  data := [1, 2, 3, 4, 5, 6, 7, 8] }] }, xce := { tags := [⟨3, 5, true, 8, false, false, 0, .load 100 2⟩] } }).setHart
      100 { mmio := some (plainAccess 0x80000000 8, none) }), by decide⟩

theorem test_met_WindowMessages_45 :
    ∃ (m : WMsg) (x : XTag) (q off : Nat) (d : XDesc) (ga pa : Nat) (s : State), s.CplGood m 0 x ∧ x.why = .piece q d.pos off ∧
      (s.qp x.fn q).descs = [d] ∧ s.XceIdle ∧ s.OneLine x.fn (d.b 16 8 + off) m.length ga pa :=
  ⟨{ vc := vcCPL, wopc := 0, srcPkg := 6, dstPkg := 0, srcFn := 3, iwin := 2, length := 8, wtag := 5,
     data := [1, 2, 3, 4, 5, 6, 7, 8] }, ⟨3, 5, true, 8, false, false, 0, .piece 0 4 0⟩, 0, 0,
   { pos := 4, ix := 4, raw := 0x100000000002000000080000000700000003, rcid := 1, mcid := 9, started := true,
     next := 8, live := 1 }, 0x40000, 0x40000,
   { wS [] with
       hzn :=
         { win :=
             [{ vc := vcCPL, wopc := 0, srcPkg := 6, dstPkg := 0, srcFn := 3, iwin := 2, length := 8, wtag := 5,
                data := [1, 2, 3, 4, 5, 6, 7, 8] }] },
       xce :=
         { tags := [⟨3, 5, true, 8, false, false, 0, .piece 0 4 0⟩],
           qps :=
             [(24,
               { descs :=
                   [{ pos := 4, ix := 4, raw := 0x100000000002000000080000000700000003, rcid := 1, mcid := 9,
                      started := true, next := 8, live := 1 }] })] } }, by decide⟩

theorem test_met_WindowMessages_46 :
    ∃ (m : WMsg) (x : XTag) (q : Nat) (d : XDesc) (ga pa : Nat) (s : State), s.CplGood m 1 x ∧ x.why = .piece q d.pos 0 ∧ (s.qp
      x.fn q).descs = [d] ∧ s.XceIdle ∧ s.OneLine x.fn (d.b 16 8) (4 * 2 ^ bits (d.b 2 1) 4 2) ga pa :=
  ⟨{ vc := vcCPL, wopc := 1, srcPkg := 6, dstPkg := 0, srcFn := 3, iwin := 2, length := 8, wtag := 5,
     data := [1, 2, 3, 4, 5, 6, 7, 8] }, ⟨3, 5, true, 8, false, false, 0, .piece 0 4 0⟩, 0,
   { pos := 4, ix := 4, raw := 0x100000000002000000000000000700100005, rcid := 1, mcid := 9, started := true,
     next := 1, live := 1 }, 0x40000, 0x40000,
   { wS [] with
       hzn :=
         { win :=
             [{ vc := vcCPL, wopc := 1, srcPkg := 6, dstPkg := 0, srcFn := 3, iwin := 2, length := 8, wtag := 5,
                data := [1, 2, 3, 4, 5, 6, 7, 8] }] },
       xce :=
         { tags := [⟨3, 5, true, 8, false, false, 0, .piece 0 4 0⟩],
           qps :=
             [(24,
               { descs :=
                   [{ pos := 4, ix := 4, raw := 0x100000000002000000000000000700100005, rcid := 1, mcid := 9,
                      started := true, next := 1, live := 1 }] })] } }, by decide⟩

theorem test_met_WindowMessages_47 :
    ∃ (m : WMsg) (x : XTag) (q off : Nat) (d : XDesc) (s : State), s.CplGood m 2 x ∧ x.why = .piece q d.pos off ∧ (s.qp x.fn
      q).descs = [d] ∧ d.live = 1 ∧ d.total ≤ d.next ∧ d.fail = none ∧ d.op ≠ 0 ∧ d.op ≠ 6 :=
  ⟨{ vc := vcCPL, wopc := 2, srcPkg := 6, dstPkg := 0, srcFn := 3, iwin := 2, length := 8, wtag := 5,
     data := [1, 2, 3, 4, 5, 6, 7, 8] }, ⟨3, 5, false, 8, false, false, 0, .piece 0 4 0⟩, 0, 0,
   { pos := 4, ix := 4, raw := 0x100000000002000000080000000700000002, rcid := 1, mcid := 9, started := true,
     next := 8, live := 1 },
   { wS [] with
       hzn :=
         { win :=
             [{ vc := vcCPL, wopc := 2, srcPkg := 6, dstPkg := 0, srcFn := 3, iwin := 2, length := 8, wtag := 5,
                data := [1, 2, 3, 4, 5, 6, 7, 8] }] },
       xce :=
         { tags := [⟨3, 5, false, 8, false, false, 0, .piece 0 4 0⟩],
           qps :=
             [(24,
               { descs :=
                   [{ pos := 4, ix := 4, raw := 0x100000000002000000080000000700000002, rcid := 1, mcid := 9,
                      started := true, next := 8, live := 1 }] })] } }, by decide⟩

theorem test_met_WindowMessages_48 :
    ∃ (m : WMsg) (x : XTag) (k : Nat) (s : State), s.CplGood m 2 x ∧ x.why = .store k :=
  ⟨{ vc := vcCPL, wopc := 2, srcPkg := 6, dstPkg := 0, srcFn := 3, iwin := 2, length := 8, wtag := 5,
     data := [1, 2, 3, 4, 5, 6, 7, 8] }, ⟨3, 5, false, 8, false, false, 0, .store 2⟩, 2,
   { wS [] with
       hzn :=
         { win :=
             [{ vc := vcCPL, wopc := 2, srcPkg := 6, dstPkg := 0, srcFn := 3, iwin := 2, length := 8, wtag := 5,
                data := [1, 2, 3, 4, 5, 6, 7, 8] }] }, xce := { tags := [⟨3, 5, false, 8, false, false, 0, .store 2⟩] } },
   by decide⟩

theorem test_met_WindowRequests_1 :
    ∃ (f : Func) (w : Fin 4096) (x : XTag) (k : Nat) (s : State), s.xce.tags = [x] ∧ x.fn = f ∧ x.wtag = w ∧ x.quar = false ∧
      x.np = false ∧ x.why = .store k ∧ k < 8 :=
  ⟨3, 5, ⟨3, 5, false, 8, false, false, 0, .store 2⟩, 2,
   { wS [] with xce := { tags := [⟨3, 5, false, 8, false, false, 0, .store 2⟩] } }, by decide⟩

theorem test_met_WindowRequests_2 :
    ∃ (f : Func) (w : Fin 4096) (x : XTag) (q off : Nat) (d : XDesc) (s : State), s.xce.tags = [x] ∧ x.fn = f ∧ x.wtag = w ∧
      x.quar = false ∧ x.np = false ∧ x.why = .piece q d.pos off ∧ (s.qp x.fn q).descs = [d] ∧ d.live = 1 ∧ d.total ≤ d.next
      ∧ d.fail = none ∧ s.get (R.QP_CTL_MODE x.fn q) = 0 :=
  ⟨3, 5, ⟨3, 5, false, 8, false, false, 0, .piece 0 4 0⟩, 0, 0,
   { pos := 4, ix := 4, raw := 0x100000000002000000080000000700000002, rcid := 1, mcid := 9, started := true,
     next := 8, live := 1 },
   { wS [] with
       xce :=
         { tags := [⟨3, 5, false, 8, false, false, 0, .piece 0 4 0⟩],
           qps :=
             [(24,
               { descs :=
                   [{ pos := 4, ix := 4, raw := 0x100000000002000000080000000700000002, rcid := 1, mcid := 9,
                      started := true, next := 8, live := 1 }] })] } }, by decide⟩

theorem test_met_WindowRequests_3 :
    ∃ (f : Func) (w : Fin 4096) (x : XTag) (q off : Nat) (d : XDesc) (s : State), s.xce.tags = [x] ∧ x.fn = f ∧ x.wtag = w ∧
      x.quar = false ∧ x.np = true ∧ x.why = .piece q d.pos off ∧ (s.qp x.fn q).descs = [d] ∧ d.live = 1 ∧ d.total ≤ d.next
      ∧ d.fail = none ∧ s.get (R.QP_CTL_MODE x.fn q) = 0 :=
  ⟨3, 5, ⟨3, 5, true, 8, false, false, 0, .piece 0 4 0⟩, 0, 0,
   { pos := 4, ix := 4, raw := 0x100000000002000000080000000700000003, rcid := 1, mcid := 9, started := true,
     next := 8, live := 1 },
   { wS [] with
       xce :=
         { tags := [⟨3, 5, true, 8, false, false, 0, .piece 0 4 0⟩],
           qps :=
             [(24,
               { descs :=
                   [{ pos := 4, ix := 4, raw := 0x100000000002000000080000000700000003, rcid := 1, mcid := 9,
                      started := true, next := 8, live := 1 }] })] } }, by decide⟩

theorem test_met_WindowRequests_4 :
    ∃ (f : Func) (w : Fin 4096) (x : XTag) (h : Hart) (k : Nat) (a : Access) (s : State), s.xce.tags = [x] ∧ x.fn = f ∧ x.wtag =
      w ∧ x.quar = false ∧ x.np = true ∧ x.why = .load h k ∧ (s.hart h).mmio = some (a, none) ∧ a.ga % 2 ^ 44 < irqBase ∧
      s.demands h = false ∧ a.elem = none :=
  ⟨3, 5, ⟨3, 5, true, 8, false, false, 0, .load 100 2⟩, 100, 2, plainAccess 0x80000000 8,
   (({ wS [] with xce := { tags := [⟨3, 5, true, 8, false, false, 0, .load 100 2⟩] } }).setHart 100
      { mmio := some (plainAccess 0x80000000 8, none) }), by decide⟩

theorem test_met_WindowRequests_5 :
    ∃ (f : Func) (w : Fin 4096) (s : State), (s.tag f w = none ∨ (s.tag f w).map (fun x => x.quar) = some true) :=
  ⟨3, 5, wS [], by decide⟩

theorem test_met_WindowRequests_6 :
    ∃ (f : Func) (w : Fin 4096) (x : XTag) (s : State), s.xce.tags = [x] ∧ x.fn = f ∧ x.wtag = w ∧ x.quar = true :=
  ⟨3, 5, ⟨3, 5, false, 8, true, false, 0, .store 2⟩,
   { wS [] with xce := { tags := [⟨3, 5, false, 8, true, false, 0, .store 2⟩] } }, by decide⟩

theorem test_met_WindowRequests_7 :
    ∃ (f : Func) (w : Fin 4096) (s : State), (s.tag f w = none ∨ (s.tag f w).map (fun x => x.quar) = some false) :=
  ⟨3, 5, wS [], by decide⟩

theorem test_met_WindowRequests_8 :
    ∃ (h : Hart) (f : Func) (off i w : Nat) (x : Access) (s : State), f.val ≠ 0 ∧ s.fnExists f = true ∧ s.fnDrains f = false ∧
      s.outCheck f (bar2Slot off).1 permREAD (bar2Slot off).2 x.size = some i ∧ s.winRoom f = true ∧ s.freeTag f = some w ∧
      s.npRoom f = true ∧ (s.hart h).mmio = none :=
  ⟨100, 2, 1 <<< 27 + 0x40, 1, 0, plainAccess 0x80000000 8,
   (fun (s : State) =>
      { s with xce := { s.xce with owin := [(1, (15 + (6) <<< 16 + (2) <<< 32 + (0) <<< 64 + (0) <<< 128 + 20 <<< 192))] } })
     ((((wS [(R.XCE_VF_STATE_VFS_ENABLED, 3), (R.XCE_FN_OWIN_OWIN_COUNT 2, 8)]).putCfg ridPF 0x158 0 1 1))), by decide⟩

theorem test_met_WindowRequests_9 :
    ∃ (h : Hart) (f : Func) (off : Nat) (x : Access) (s : State), f.val ≠ 0 ∧ s.fnExists f = true ∧ s.fnDrains f = false ∧
      s.outCheck f (bar2Slot off).1 permREAD (bar2Slot off).2 x.size = none ∧ (s.hart h).mmio = none ∧ x.ga % 2 ^ 44 <
      irqBase ∧ s.demands h = false ∧ x.elem = none :=
  ⟨100, 2, 1 <<< 27 + 0x40, plainAccess 0x80000000 8,
   (((wS [(R.XCE_VF_STATE_VFS_ENABLED, 3), (R.XCE_FN_OWIN_OWIN_COUNT 2, 8)]).putCfg ridPF 0x158 0 1 1)), by decide⟩

theorem test_met_WindowRequests_10 :
    ∃ (h : Hart) (f : Func) (off : Nat) (x : Access) (s : State), (f.val = 0 ∨ s.fnExists f = false ∨ s.fnDrains f = true ∨
      (s.hart h).mmio ≠ none ∨ ((s.outCheck f (bar2Slot off).1 permREAD (bar2Slot off).2 x.size).isSome = true ∧ (s.winRoom
      f = false ∨ s.npRoom f = false))) :=
  ⟨100, 2, 0x40, plainAccess 0x80000000 8, wS [], by decide⟩

theorem test_met_WindowRequests_11 :
    ∃ (h : Hart) (f : Func) (off i w : Nat) (v : Nat) (x : Access) (s : State), f.val ≠ 0 ∧ s.fnExists f = true ∧ s.fnDrains f =
      false ∧ s.outCheck f (bar2Slot off).1 permWRITE (bar2Slot off).2 x.size = some i ∧ s.winRoom f = true ∧ s.freeTag f =
      some w :=
  ⟨100, 2, 1 <<< 27 + 0x40, 1, 0, 77, plainAccess 0x80000000 8,
   (fun (s : State) =>
      { s with xce := { s.xce with owin := [(1, (15 + (6) <<< 16 + (2) <<< 32 + (0) <<< 64 + (0) <<< 128 + 20 <<< 192))] } })
     ((((wS [(R.XCE_VF_STATE_VFS_ENABLED, 3), (R.XCE_FN_OWIN_OWIN_COUNT 2, 8)]).putCfg ridPF 0x158 0 1 1))), by decide⟩

theorem test_met_WindowRequests_12 :
    ∃ (h : Hart) (f : Func) (off v : Nat) (x : Access) (s : State), f.val ≠ 0 ∧ s.fnExists f = true ∧ s.fnDrains f = false ∧
      s.outCheck f (bar2Slot off).1 permWRITE (bar2Slot off).2 x.size = none :=
  ⟨100, 2, 1 <<< 27 + 0x40, 77, plainAccess 0x80000000 8,
   (((wS [(R.XCE_VF_STATE_VFS_ENABLED, 3), (R.XCE_FN_OWIN_OWIN_COUNT 2, 8)]).putCfg ridPF 0x158 0 1 1)), by decide⟩

theorem test_met_WindowRequests_13 :
    ∃ (h : Hart) (f : Func) (off v : Nat) (x : Access) (s : State), (f.val = 0 ∨ s.fnExists f = false ∨ s.fnDrains f = true ∨
      ((s.outCheck f (bar2Slot off).1 permWRITE (bar2Slot off).2 x.size).isSome = true ∧ s.winRoom f = false)) :=
  ⟨100, 2, 0x40, 7, plainAccess 0x80000000 8, wS [], by decide⟩

theorem test_met_WindowRequests_14 :
    ∃ (i k : Nat) (s : State), k % 2 = 0 ∧ winReserved 0 s.shadow = false ∧ s.get R.XCE_STATUS_UC_RUNNING = 1 :=
  ⟨5, 0, wS [(R.XCE_STATUS_UC_RUNNING, 1)], by decide⟩

theorem test_met_WindowRequests_15 :
    ∃ (i k : Nat) (s : State), k % 2 = 1 ∧ winReserved 1 s.shadow = false ∧ s.get R.XCE_STATUS_UC_RUNNING = 1 :=
  ⟨5, 1, wS [(R.XCE_STATUS_UC_RUNNING, 1)], by decide⟩

theorem test_met_WindowRequests_16 :
    ∃ (i k : Nat) (s : State), winReserved (k % 2) s.shadow = false ∧ s.get R.XCE_STATUS_UC_RUNNING ≠ 1 :=
  ⟨5, 1, wS [(R.XCE_STATUS_UC_RUNNING, 0)], by decide⟩

theorem test_met_WindowRequests_17 :
    ∃ (s : State), s.xce.tags.all (fun y => !y.old || y.quar) = true ∧ s.xce.ops.all (fun o => !o.old) = true ∧ s.xce.commit =
      [] :=
  ⟨wS [], by decide⟩

theorem test_met_WindowRequests_18 :
    ∃ (s : State), (s.xce.tags.any (fun y => y.old && !y.quar) = true ∨ s.xce.ops.any (fun o => o.old) = true ∨ s.xce.commit ≠
      []) :=
  ⟨{ wS [] with xce := { commit := [(0, 1, 2)] } }, by decide⟩

theorem test_met_FunctionCommands_1 :
    ∃ (h : Hart) (off n : Nat) (s : State), (n = 1 ∨ n = 2 ∨ n = 4) ∧ off % n = 0 ∧ off / 4096 = ridBRIDGE :=
  ⟨100, 0xF8004, 4, wS [], by decide⟩

theorem test_met_FunctionCommands_2 :
    ∃ (h : Hart) (off n : Nat) (f : Nat) (s : State), (n = 1 ∨ n = 2 ∨ n = 4) ∧ off % n = 0 ∧ 0x100 ≤ off / 4096 ∧ off / 4096 ≤
      0x900 ∧ f = off / 4096 - 0x100 ∧ s.fnExists f = true ∧ s.xce.notReady.contains f = false :=
  ⟨100, 0x100004, 4, 0, wS [], by decide⟩

theorem test_met_FunctionCommands_3 :
    ∃ (h : Hart) (off n : Nat) (f : Nat) (w : Option Nat) (s : State), (n = 1 ∨ n = 2 ∨ n = 4) ∧ off % n = 0 ∧ 0x100 ≤ off /
      4096 ∧ off / 4096 ≤ 0x900 ∧ f = off / 4096 - 0x100 ∧ s.fnExists f = false ∧ s.xce.notReady.contains f = false :=
  ⟨100, 0x105000, 4, 5, none, wS [], by decide⟩

theorem test_met_FunctionCommands_4 :
    ∃ (h : Hart) (off n : Nat) (f : Nat) (w : Option Nat) (s : State), (n = 1 ∨ n = 2 ∨ n = 4) ∧ off % n = 0 ∧ 0x100 ≤ off /
      4096 ∧ off / 4096 ≤ 0x900 ∧ f = off / 4096 - 0x100 ∧ s.xce.notReady.contains f = true :=
  ⟨100, 0x105000, 4, 5, none, { wS [] with xce := { notReady := [5] } }, by decide⟩

theorem test_met_FunctionCommands_5 :
    ∃ (h : Hart) (v : Nat) (s : State), v < 2 ^ 32 :=
  ⟨100, 0xFFFFFFFF, (wS []).setCfg ridBRIDGE 0x1C 0x11000000, by decide⟩

theorem test_met_FunctionCommands_6 :
    ∃ (h : Hart) (off n : Nat) (w : Option Nat) (s : State), ((n ≠ 1 ∧ n ≠ 2 ∧ n ≠ 4) ∨ off % n ≠ 0 ∨ (off / 4096 ≠ ridBRIDGE ∧
      (off / 4096 < 0x100 ∨ 0xA00 ≤ off / 4096))) :=
  ⟨100, 0x105000, 3, none, wS [], by decide⟩

theorem test_met_FunctionCommands_7 :
    ∃ (f : Func) (s : State), s.fnExists f = true ∧ s.fnDrains f = false ∧ f.val ≠ 0 :=
  ⟨2, (((wS [(R.XCE_VF_STATE_VFS_ENABLED, 3), (R.XCE_FN_OWIN_OWIN_COUNT 2, 8)]).putCfg ridPF 0x158 0 1 1)), by decide⟩

theorem test_met_FunctionCommands_8 :
    ∃ (s : State), s.fnDrains 0 = false ∧ s.vfEnabled = false :=
  ⟨wS [], by decide⟩

theorem test_met_FunctionCommands_9 :
    ∃ (f : Func) (s : State), (s.fnExists f = false ∨ s.fnDrains f = true) :=
  ⟨5, wS [], by decide⟩

theorem test_met_FunctionCommands_10 :
    ∃ (s : State), s.fnDrains 0 = false ∧ s.vfEnabled = false ∧ s.get R.XCE_VF_STATE_DRAINING = 0 :=
  ⟨(wS []).putCfg ridPF 0x160 0 16 3, by decide⟩

theorem test_met_FunctionCommands_11 :
    ∃ (s : State), s.fnDrains 0 = false ∧ s.vfEnabled = false ∧ s.get R.XCE_VF_STATE_DRAINING = 1 :=
  ⟨wS [(R.XCE_VF_STATE_DRAINING, 1)], by decide⟩

theorem test_met_FunctionCommands_12 :
    ∃ (s : State), (s.fnDrains 0 = true ∨ s.vfEnabled = true) :=
  ⟨(((wS [(R.XCE_VF_STATE_VFS_ENABLED, 3), (R.XCE_FN_OWIN_OWIN_COUNT 2, 8)]).putCfg ridPF 0x158 0 1 1)), by decide⟩

theorem test_met_FunctionCommands_13 :
    ∃ (s : State), s.fnDrains 0 = false ∧ s.vfEnabled = true ∧ s.get R.XCE_VF_STATE_DRAINING = 0 ∧ 0 < s.get
      R.XCE_VF_STATE_VFS_ENABLED ∧ s.get R.XCE_VF_STATE_VFS_ENABLED ≤ 2048 :=
  ⟨(((wS [(R.XCE_VF_STATE_VFS_ENABLED, 3), (R.XCE_FN_OWIN_OWIN_COUNT 2, 8)]).putCfg ridPF 0x158 0 1 1)), by decide⟩

theorem test_met_FunctionCommands_14 :
    ∃ (s : State), s.fnDrains 0 = false ∧ s.get R.XCE_VF_STATE_DRAINING = 1 :=
  ⟨wS [(R.XCE_VF_STATE_DRAINING, 1), (R.XCE_VF_STATE_ENABLE_PENDING, 1)], by decide⟩

theorem test_met_FunctionCommands_15 :
    ∃ (s : State), (s.fnDrains 0 = true ∨ (s.vfEnabled = false ∧ s.get R.XCE_VF_STATE_DRAINING ≠ 1)) :=
  ⟨wS [], by decide⟩

theorem test_met_FunctionCommands_16 :
    ∃ (v : Nat) (s : State), v ≤ 2048 ∧ s.vfEnabled = false ∧ s.get R.XCE_VF_STATE_DRAINING = 0 ∧ s.fnDrains 0 = false :=
  ⟨7, wS [], by decide⟩

theorem test_met_FunctionCommands_17 :
    ∃ (v : Nat) (s : State), v ≤ 2048 ∧ (s.vfEnabled = true ∨ s.get R.XCE_VF_STATE_DRAINING = 1 ∨ s.fnDrains 0 = true) :=
  ⟨7, (((wS [(R.XCE_VF_STATE_VFS_ENABLED, 3), (R.XCE_FN_OWIN_OWIN_COUNT 2, 8)]).putCfg ridPF 0x158 0 1 1)), by decide⟩

theorem test_met_FunctionCommands_18 :
    ∃ (f : Func) (s : State), s.xce.notReady.contains f.val = true ∧ s.xce.cfgWait = [] :=
  ⟨2, { wS [] with xce := { notReady := [1, 2] } }, by decide⟩

theorem test_met_FunctionCommands_19 :
    ∃ (f : Func) (h n : Nat) (s : State), s.xce.notReady = [f.val] ∧ s.fnExists f = true ∧ h < 384 ∧ s.xce.cfgWait = [(h, (0x100
      + f.val) * 4096, n, none)] :=
  ⟨2, 100, 4,
   (fun (s : State) => { s with xce := { s.xce with notReady := [2], cfgWait := [(100, 0x102000, 4, none)] } })
     ((((wS [(R.XCE_VF_STATE_VFS_ENABLED, 3), (R.XCE_FN_OWIN_OWIN_COUNT 2, 8)]).putCfg ridPF 0x158 0 1 1))), by decide⟩

theorem test_met_FunctionCommands_20 :
    ∃ (f : Func) (s : State), s.xce.notReady.contains f.val = false :=
  ⟨2, wS [], by decide⟩

theorem test_met_FunctionCommands_21 :
    ∃ (f : Func) (s : State), s.fnExists f = true ∧ s.fnDrains f = false :=
  ⟨0, { ((wS []).putCfg ridPF 0x194 31 1 1) with xce := { atc := [⟨0, 0x5000, 4096, 0x40000, true, true⟩] } }, by decide⟩

theorem test_met_FunctionCommands_22 :
    ∃ (f : Func) (s : State), (s.fnExists f = false ∨ s.fnDrains f = true) :=
  ⟨5, wS [], by decide⟩

theorem test_met_FunctionCommands_23 :
    ∃ (f : Func) (s : State), s.fnExists f = true ∧ s.fnDrains f = false :=
  ⟨0, (((wS []).putCfg ridPF 0x04 2 1 1).putCfg ridBRIDGE 0x04 2 1 1), by decide⟩

theorem test_met_FunctionCommands_24 :
    ∃ (f : Func) (s : State), s.fnExists f = true ∧ s.fnDrains f = false ∧ Tbl.get (fun _ => 0) s.xce.held f = 0 ∧ s.pba f = 0 :=
  ⟨0, wS [], by decide⟩

theorem test_met_FunctionCommands_25 :
    ∃ (f : Func) (s : State), s.fnExists f = true ∧ s.fnDrains f = false ∧ s.cfgBits ridBRIDGE 0x04 2 1 = 0 :=
  ⟨0, wS [], by decide⟩

theorem test_met_FunctionCommands_26 :
    ∃ (f : Func) (b : Bool) (s : State), (s.fnExists f = false ∨ s.fnDrains f = true) :=
  ⟨5, true, wS [], by decide⟩

theorem test_met_FunctionCommands_27 :
    ∃ (f : Func) (v : Fin 2048) (s : State), s.fnExists f = true ∧ s.fnDrains f = false ∧ v.val < (if f.val = 0 then 64 else 16)
      ∧ s.pba f = 0 :=
  ⟨0, 5, wS [], by decide⟩

theorem test_met_FunctionCommands_28 :
    ∃ (f : Func) (v : Fin 2048) (s : State), s.fnExists f = true ∧ s.fnDrains f = false ∧ v.val < (if f.val = 0 then 64 else 16)
      ∧ s.pba f = 1 <<< v.val ∧ s.bmeOn f = true ∧ s.msixOn f = true ∧ s.msixMask f = false :=
  ⟨0, 5,
   (fun (s : State) => { s with xce := { s.xce with pba := [(0, 32)] } })
     (((((wS []).putCfg ridPF 0x04 2 1 1).putCfg ridBRIDGE 0x04 2 1 1)).putCfg ridPF 0xB0 31 1 1), by decide⟩

theorem test_met_FunctionCommands_29 :
    ∃ (f : Func) (v : Fin 2048) (s : State), (s.fnExists f = false ∨ s.fnDrains f = true ∨ (if f.val = 0 then 64 else 16) ≤
      v.val) :=
  ⟨5, 5, wS [], by decide⟩

theorem test_met_FunctionCommands_30 :
    ∃ (f : Func) (p ga k : Nat) (a b : Bool) (s : State), s.fnExists f = true ∧ s.fnDrains f = false ∧ s.atsOn f = true :=
  ⟨0, 5, 0x40123, 0, true, true, (wS []).putCfg ridPF 0x194 31 1 1, by decide⟩

theorem test_met_FunctionCommands_31 :
    ∃ (f : Func) (p : Nat) (x : Xlate) (s : State), (s.fnExists f = false ∨ s.fnDrains f = true ∨ s.atsOn f = false) :=
  ⟨0, 5, .fault, wS [], by decide⟩

theorem test_met_FunctionCommands_32 :
    ∃ (f : Func) (p q n : Nat) (d : XDesc) (s : State), s.fnExists f = true ∧ s.fnDrains f = false ∧ s.atsOn f = true ∧
      s.waitsFor f p = some (q, d, n) ∧ d.total ≤ d.next + n ∧ d.live = 0 ∧ d.fail = none ∧ s.get (R.QP_CTL_MODE f q) = 0 ∧
      (s.qp f q).descs = [d] :=
  ⟨0, 1, 1, 8,
   { pos := 4, ix := 4, raw := 0x2000000000000000100000000000000000080000000700000001, rcid := 1, mcid := 9 },
   { ((wS [(R.QP_STATUS_STATE 0 1, 1)]).putCfg ridPF 0x194 31 1 1) with
       xce :=
         { qps :=
             [(1,
               { descs :=
                   [{ pos := 4, ix := 4, raw := 0x2000000000000000100000000000000000080000000700000001, rcid := 1,
                      mcid := 9 }] })] } }, by decide⟩

theorem test_met_FunctionCommands_33 :
    ∃ (f : Func) (i b n : Nat) (s : State), s.fnExists f = true ∧ s.atsOn f = true :=
  ⟨0, 3, 0x5000, 4096,
   { (wS []).putCfg ridPF 0x194 31 1 1 with
       xce := { atc := [⟨0, 0x5000, 4096, 0x40000, true, true⟩, ⟨0, 0x6000, 4096, 0x40000, true, true⟩] } }, by decide⟩

theorem test_met_FunctionCommands_34 :
    ∃ (f : Func) (i b n : Nat) (s : State), (s.fnExists f = false ∨ s.atsOn f = false) :=
  ⟨0, 3, 0x5000, 4096, wS [], by decide⟩

theorem test_met_FunctionCommands_35 :
    ∃ (f : Func) (i : Nat) (l : List Nat) (s : State), s.xce.inv = [(f.val, i, l)] ∧ (∀ x ∈ l, s.xop x = none) :=
  ⟨0, 3, [7, 8], { wS [] with xce := { inv := [(0, 3, [7, 8])] } }, by decide⟩

theorem test_met_FunctionCommands_36 :
    ∃ (f : Func) (i : Nat) (l : List Nat) (s : State), s.xce.inv = [(f.val, i, l)] ∧ l.any (fun x => (s.xop x).isSome) = true :=
  ⟨0, 3, [7], { wS [] with xce := { inv := [(0, 3, [7])], ops := [⟨7, 0, 1, 0, none, false, (0, 0), .fetch 0 1⟩] } },
   by decide⟩

theorem test_met_FunctionCommands_37 :
    ∃ (f : Func) (i : Nat) (s : State), s.xce.inv.any (fun e => e.1 == f.val && e.2.1 == i) = false :=
  ⟨0, 3, wS [], by decide⟩

theorem test_met_FunctionCommands_38 :
    ∃ (f : Func) (s : State), s.fnDrains f = true ∧ s.drained f none = true ∧ f.val ≠ 0 ∧ s.xce.drainVf = false ∧ (s.get
      R.XCE_EVENT_EN_ENABLE).testBit 0 = false :=
  ⟨2, { wS [] with xce := { drain := [2] } }, by decide⟩

theorem test_met_FunctionCommands_39 :
    ∃ (s : State), s.fnDrains 0 = true ∧ s.drained 0 none = true ∧ (s.get R.XCE_EVENT_EN_ENABLE).testBit 0 = false :=
  ⟨{ wS [] with xce := { drain := [0] } }, by decide⟩

theorem test_met_FunctionCommands_40 :
    ∃ (f : Func) (s : State), s.fnDrains f = true ∧ s.drained f none = true ∧ f.val ≠ 0 ∧ s.xce.drainVf = true ∧
      (s.xce.drain.filter (fun g => g != f.val)).all (fun g => g == 0) = true ∧ s.xce.merged = [] ∧ s.get
      R.XCE_VF_STATE_ENABLE_PENDING = 0 ∧ (s.get R.XCE_EVENT_EN_ENABLE).testBit 1 = false :=
  ⟨2, { wS [(R.XCE_VF_STATE_DRAINING, 1)] with xce := { drain := [2], drainVf := true } }, by decide⟩

theorem test_met_FunctionCommands_41 :
    ∃ (f : Func) (s : State), (s.fnDrains f = false ∨ s.drained f none = false) :=
  ⟨2, wS [], by decide⟩

theorem test_met_FunctionCommands_42 :
    ∃ (f : Func) (x : XTag) (k : Nat) (s : State), s.fnDrains f = true ∧ s.xce.ops = [] ∧ s.xce.tags = [x] ∧ x.fn = f ∧ x.quar =
      false ∧ x.np = false ∧ x.why = .store k ∧ (s.get R.XCE_EVENT_EN_ENABLE).testBit 2 = false :=
  ⟨3, ⟨3, 5, false, 8, false, false, 0, .store 2⟩, 2,
   { wS [] with xce := { drain := [3], tags := [⟨3, 5, false, 8, false, false, 0, .store 2⟩] } }, by decide⟩

theorem test_met_FunctionCommands_43 :
    ∃ (f : Func) (s : State), s.fnDrains f = true ∧ s.drained f none = true :=
  ⟨3, { wS [] with xce := { drain := [3] } }, by decide⟩

theorem test_met_FunctionCommands_44 :
    ∃ (f : Func) (s : State), s.fnDrains f = false ∧ (List.range 8).all (fun q => s.qpState f q != qpSTOPPING) = true :=
  ⟨3, wS [], by decide⟩

theorem test_met_QueueCommands_1 :
    ∃ (f : Func) (q : Fin 8) (v : Nat) (s : State), s.qpTakes f q = true ∧ ringUse (v % 2 ^ 32) (s.get (R.QP_SQ_HEAD_INDEX f q))
      ≤ 2 ^ s.get (R.QP_SIZES_SQ_LOG2 f q) :=
  ⟨0, 1, 5,
   wS [(R.QP_STATUS_STATE 0 1, 1), (R.QP_SIZES_SQ_LOG2 0 1, 4), (R.QP_SIZES_CQ_LOG2 0 1, 4), (R.QP_SIZES_RQ_LOG2 0 1, 4)],
   by decide⟩

theorem test_met_QueueCommands_2 :
    ∃ (f : Func) (q : Fin 8) (v : Nat) (s : State), s.qpTakes f q = true ∧ 2 ^ s.get (R.QP_SIZES_SQ_LOG2 f q) < ringUse (v % 2 ^
      32) (s.get (R.QP_SQ_HEAD_INDEX f q)) :=
  ⟨0, 1, 100,
   wS [(R.QP_STATUS_STATE 0 1, 1), (R.QP_SIZES_SQ_LOG2 0 1, 4), (R.QP_SIZES_CQ_LOG2 0 1, 4), (R.QP_SIZES_RQ_LOG2 0 1, 4)],
   by decide⟩

theorem test_met_QueueCommands_3 :
    ∃ (f : Func) (q : Fin 8) (v : Nat) (s : State), s.qpTakes f q = false :=
  ⟨0, 1, 5, wS [], by decide⟩

theorem test_met_QueueCommands_4 :
    ∃ (f : Func) (q : Fin 8) (v : Nat) (s : State), s.qpTakes f q = true ∧ ringUse (s.get (R.QP_CQ_TAIL_INDEX f q)) (v % 2 ^ 32)
      ≤ s.cqSize f q :=
  ⟨0, 1, 2,
   wS
     [(R.QP_STATUS_STATE 0 1, 1), (R.QP_SIZES_SQ_LOG2 0 1, 4), (R.QP_SIZES_CQ_LOG2 0 1, 4), (R.QP_SIZES_RQ_LOG2 0 1, 4),
      (R.QP_CQ_TAIL_INDEX 0 1, 5)], by decide⟩

theorem test_met_QueueCommands_5 :
    ∃ (f : Func) (q : Fin 8) (v : Nat) (s : State), s.qpTakes f q = true ∧ s.cqSize f q < ringUse (s.get (R.QP_CQ_TAIL_INDEX f
      q)) (v % 2 ^ 32) :=
  ⟨0, 1, 100,
   wS
     [(R.QP_STATUS_STATE 0 1, 1), (R.QP_SIZES_SQ_LOG2 0 1, 4), (R.QP_SIZES_CQ_LOG2 0 1, 4), (R.QP_SIZES_RQ_LOG2 0 1, 4),
      (R.QP_CQ_TAIL_INDEX 0 1, 5)], by decide⟩

theorem test_met_QueueCommands_6 :
    ∃ (f : Func) (q : Fin 8) (v : Nat) (s : State), s.qpTakes f q = false :=
  ⟨0, 1, 5, wS [], by decide⟩

theorem test_met_QueueCommands_7 :
    ∃ (f : Func) (q : Fin 8) (v : Nat) (s : State), s.qpTakes f q = true ∧ ringUse (v % 2 ^ 32) (s.get (R.QP_RQ_HEAD_INDEX f q))
      ≤ 2 ^ s.get (R.QP_SIZES_RQ_LOG2 f q) :=
  ⟨0, 1, 5,
   wS [(R.QP_STATUS_STATE 0 1, 1), (R.QP_SIZES_SQ_LOG2 0 1, 4), (R.QP_SIZES_CQ_LOG2 0 1, 4), (R.QP_SIZES_RQ_LOG2 0 1, 4)],
   by decide⟩

theorem test_met_QueueCommands_8 :
    ∃ (f : Func) (q : Fin 8) (v : Nat) (s : State), s.qpTakes f q = true ∧ 2 ^ s.get (R.QP_SIZES_RQ_LOG2 f q) < ringUse (v % 2 ^
      32) (s.get (R.QP_RQ_HEAD_INDEX f q)) :=
  ⟨0, 1, 100,
   wS [(R.QP_STATUS_STATE 0 1, 1), (R.QP_SIZES_SQ_LOG2 0 1, 4), (R.QP_SIZES_CQ_LOG2 0 1, 4), (R.QP_SIZES_RQ_LOG2 0 1, 4)],
   by decide⟩

theorem test_met_QueueCommands_9 :
    ∃ (f : Func) (q : Fin 8) (v : Nat) (s : State), s.qpTakes f q = false :=
  ⟨0, 1, 5, wS [], by decide⟩

theorem test_met_QueueCommands_10 :
    ∃ (f : Func) (q : Fin 8) (s : State), s.fnExists f = true ∧ s.fnDrains f = false ∧ s.qpState f q = qpDISABLED ∧ s.qpGood f q :=
  ⟨0, 1,
   wS [(R.QP_SIZES_SQ_LOG2 0 1, 4), (R.QP_SIZES_CQ_LOG2 0 1, 4), (R.QP_SIZES_RQ_LOG2 0 1, 4), (R.QP_IRQ_VECTOR 0 1, 9)],
   by decide⟩

theorem test_met_QueueCommands_11 :
    ∃ (f : Func) (q : Fin 8) (s : State), s.fnExists f = true ∧ s.fnDrains f = false ∧ s.qpState f q = qpDISABLED ∧ ¬ s.qpGood f
      q :=
  ⟨0, 1, wS [(R.QP_SIZES_SQ_LOG2 0 1, 3), (R.QP_IRQ_VECTOR 0 1, 9)], by decide⟩

theorem test_met_QueueCommands_12 :
    ∃ (f : Func) (q : Fin 8) (s : State), (s.fnExists f = false ∨ s.fnDrains f = true ∨ s.qpState f q ≠ qpDISABLED) :=
  ⟨0, 1,
   wS [(R.QP_STATUS_STATE 0 1, 1), (R.QP_SIZES_SQ_LOG2 0 1, 4), (R.QP_SIZES_CQ_LOG2 0 1, 4), (R.QP_SIZES_RQ_LOG2 0 1, 4)],
   by decide⟩

theorem test_met_QueueCommands_13 :
    ∃ (f : Func) (q : Fin 8) (s : State), s.fnExists f = true ∧ s.fnDrains f = false ∧ (s.qpState f q = qpACTIVE ∨ s.qpState f q
      = qpERROR) :=
  ⟨0, 1,
   { wS [(R.QP_STATUS_STATE 0 1, 1), (R.QP_SIZES_SQ_LOG2 0 1, 4), (R.QP_SIZES_CQ_LOG2 0 1, 4), (R.QP_SIZES_RQ_LOG2 0 1, 4)] with
       xce := { qps := [(1, { fin := [⟨4, 0x1234, false, false, (0, 0)⟩], rsv := 1 })] } }, by decide⟩

theorem test_met_QueueCommands_14 :
    ∃ (f : Func) (q : Fin 8) (s : State), (s.fnExists f = false ∨ s.fnDrains f = true ∨ (s.qpState f q ≠ qpACTIVE ∧ s.qpState f
      q ≠ qpERROR)) :=
  ⟨0, 1, wS [], by decide⟩

theorem test_met_QueueCommands_15 :
    ∃ (f : Func) (q : Fin 8) (s : State), s.qpState f q = qpSTOPPING ∧ s.drained f (some q) = true :=
  ⟨0, 1, wS [(R.QP_STATUS_STATE 0 1, 2)], by decide⟩

theorem test_met_QueueCommands_16 :
    ∃ (f : Func) (q : Fin 8) (s : State), (s.qpState f q ≠ qpSTOPPING ∨ s.drained f (some q) = false) :=
  ⟨0, 1, wS [], by decide⟩

theorem test_met_QueueCommands_17 :
    ∃ (f : Func) (q : Fin 8) (ga pa : Nat) (s : State), s.get R.XCE_STATUS_ENGINE_READY = 1 ∧ s.fetchTurn f q = true ∧ 0 <
      s.fnBalance f ∧ s.xce.stopped.contains f.val = false ∧ s.fetchMany f q = 1 ∧ s.XceIdle ∧ s.OneLine f (s.get
      (R.QP_SQ_BASE_BASE f q) * 4096 + s.fetchSlot f q * 64) 64 ga pa :=
  ⟨0, 1, 0x40000, 0x40000,
   (((wS
        [(R.QP_STATUS_STATE 0 1, 1), (R.QP_SIZES_SQ_LOG2 0 1, 4), (R.QP_SIZES_CQ_LOG2 0 1, 4),
         (R.QP_SIZES_RQ_LOG2 0 1, 4), (R.XCE_STATUS_ENGINE_READY, 1), (R.XCE_FN_ARB_BALANCE 0, 100),
         (R.QP_SQ_DB_INDEX 0 1, 1)]).putCfg ridPF 0x04 2 1 1).putCfg ridBRIDGE 0x04 2 1 1), by decide⟩

theorem test_met_QueueCommands_18 :
    ∃ (f : Func) (q : Fin 8) (x : Xlate) (s : State), (s.get R.XCE_STATUS_ENGINE_READY ≠ 1 ∨ s.fetchTurn f q = false ∨
      s.fnBalance f ≤ 0 ∨ s.xce.stopped.contains f.val = true) :=
  ⟨0, 1, .fault, wS [], by decide⟩

theorem test_met_QueueCommands_19 :
    ∃ (f : Func) (q : Fin 8) (e : XFin) (ga pa : Nat) (s : State), (s.qpState f q = qpACTIVE ∨ (s.qpState f q = qpERROR ∧ s.get
      (R.QP_STATUS_CAUSE f q) ≠ 4)) ∧ (s.qp f q).fin.head? = some e ∧ (s.qp f q).writing = false ∧ s.bmeOn f = true ∧
      s.fnDrains f = false ∧ s.cqUsed f q < s.cqSize f q ∧ s.XceIdle ∧ s.OneLine f (s.get (R.QP_CQ_BASE_BASE f q) * 4096 +
      s.get (R.QP_CQ_TAIL_INDEX f q) % s.cqSize f q * 16) 16 ga pa :=
  ⟨0, 1, ⟨4, 0x1234, false, false, (3, 9)⟩, 0x40020, 0x40020,
   { (((wS
          [(R.QP_STATUS_STATE 0 1, 1), (R.QP_SIZES_SQ_LOG2 0 1, 4), (R.QP_SIZES_CQ_LOG2 0 1, 4),
           (R.QP_SIZES_RQ_LOG2 0 1, 4), (R.QP_CQ_TAIL_INDEX 0 1, 2), (R.QP_CQ_DB_INDEX 0 1, 1)]).putCfg ridPF 0x04 2
         1 1).putCfg ridBRIDGE 0x04 2 1 1) with
       xce := { qps := [(1, { fin := [⟨4, 0x1234, false, false, (3, 9)⟩] })] } }, by decide⟩

theorem test_met_QueueCommands_20 :
    ∃ (f : Func) (q : Fin 8) (x : Xlate) (s : State), s.qpState f q = qpERROR ∧ s.get (R.QP_STATUS_CAUSE f q) = 4 :=
  ⟨0, 1, .to 0x40000,
   { wS [(R.QP_STATUS_STATE 0 1, 3), (R.QP_STATUS_CAUSE 0 1, 4)] with
       xce := { qps := [(1, { fin := [⟨4, 0x1234, false, false, (3, 9)⟩] })] } }, by decide⟩

theorem test_met_QueueCommands_21 :
    ∃ (f : Func) (q : Fin 8) (x : Xlate) (s : State), ¬ (s.qpState f q = qpERROR ∧ s.get (R.QP_STATUS_CAUSE f q) = 4) ∧
      ((s.qpState f q ≠ qpACTIVE ∧ s.qpState f q ≠ qpERROR) ∨ (s.qp f q).fin = [] ∨ (s.qp f q).writing = true ∨ s.bmeOn f =
      false ∨ s.cqSize f q ≤ s.cqUsed f q ∨ s.fnDrains f = true) :=
  ⟨0, 1, .to 0x40000, wS [], by decide⟩

theorem test_met_QueueCommands_22 :
    ∃ (f : Func) (q : Fin 8) (s : State), 0 < (s.qp f q).unsig ∧ s.get (R.QP_IRQ_TIME f q) ≠ 0 ∧ s.get (R.QP_IRQ_ENABLE f q) = 1
      ∧ s.bmeOn f = false :=
  ⟨0, 1,
   { wS [(R.QP_IRQ_TIME 0 1, 5), (R.QP_IRQ_ENABLE 0 1, 1), (R.QP_IRQ_VECTOR 0 1, 9)] with
       xce := { qps := [(1, { unsig := 2 })] } }, by decide⟩

theorem test_met_QueueCommands_23 :
    ∃ (f : Func) (q : Fin 8) (s : State), 0 < (s.qp f q).unsig ∧ s.get (R.QP_IRQ_TIME f q) ≠ 0 ∧ s.get (R.QP_IRQ_ENABLE f q) = 1
      ∧ s.bmeOn f = true ∧ s.msixOn f = true ∧ s.msixClear f (s.get (R.QP_IRQ_VECTOR f q)) = false :=
  ⟨0, 1,
   (fun (s : State) => { s with xce := { qps := [(1, { unsig := 2 })], msix := [(9, { mask := true })] } })
     (((((wS [(R.QP_IRQ_TIME 0 1, 5), (R.QP_IRQ_ENABLE 0 1, 1), (R.QP_IRQ_VECTOR 0 1, 9)]).putCfg ridPF 0x04 2 1 1).putCfg
          ridBRIDGE 0x04 2 1 1)).putCfg ridPF 0xB0 31 1 1), by decide⟩

theorem test_met_QueueCommands_24 :
    ∃ (f : Func) (q : Fin 8) (v : Nat) (s : State), 0 < (s.qp f q).unsig ∧ s.get (R.QP_IRQ_TIME f q) ≠ 0 ∧ s.get
      (R.QP_IRQ_ENABLE f q) = 1 ∧ v = s.get (R.QP_IRQ_VECTOR f q) ∧ s.bmeOn f = true ∧ s.msixOn f = true ∧ s.msixClear f v =
      true :=
  ⟨0, 1, 9,
   (fun (s : State) =>
      { s with xce := { qps := [(1, { unsig := 2 })], msix := [(9, { addr := 0xF0000000000, data := 7, mask := false })] } })
     (((((wS [(R.QP_IRQ_TIME 0 1, 5), (R.QP_IRQ_ENABLE 0 1, 1), (R.QP_IRQ_VECTOR 0 1, 9)]).putCfg ridPF 0x04 2 1 1).putCfg
          ridBRIDGE 0x04 2 1 1)).putCfg ridPF 0xB0 31 1 1), by decide⟩

theorem test_met_QueueCommands_25 :
    ∃ (f : Func) (q : Fin 8) (s : State), ((s.qp f q).unsig = 0 ∨ s.get (R.QP_IRQ_TIME f q) = 0 ∨ s.get (R.QP_IRQ_ENABLE f q) ≠
      1) :=
  ⟨0, 1, wS [], by decide⟩

theorem test_met_QueueCommands_26 :
    ∃ (n : Nat) (s : State), s.wanting = [0] ∧ (n = (if s.get (R.XCE_FN_SHARE_CAP 0) = 0 ∨ 1600000 < s.get (R.XCE_FN_SHARE_CAP
      0) * 1000 then 1600000 else s.get (R.XCE_FN_SHARE_CAP 0) * 1000)) :=
  ⟨5000,
   (((wS
        [(R.QP_STATUS_STATE 0 1, 1), (R.QP_SIZES_SQ_LOG2 0 1, 4), (R.QP_SIZES_CQ_LOG2 0 1, 4),
         (R.QP_SIZES_RQ_LOG2 0 1, 4), (R.QP_SQ_DB_INDEX 0 1, 1), (R.XCE_FN_SHARE_WEIGHT 0, 3), (R.XCE_FN_SHARE_CAP 0, 5)]).putCfg
       ridPF 0x04 2 1 1).putCfg ridBRIDGE 0x04 2 1 1), by decide⟩

theorem test_met_QueueCommands_27 :
    ∃ (f : Func) (n : Nat) (s : State), s.wanting.contains f.val = true ∧ (∀ g ∈ s.wanting, s.get (R.XCE_FN_SHARE_CAP g) = 0) ∧
      n = 1600000 * s.get (R.XCE_FN_SHARE_WEIGHT f) / (s.wanting.map (fun g => s.get (R.XCE_FN_SHARE_WEIGHT g))).sum :=
  ⟨0, 1600000,
   (((wS
        [(R.QP_STATUS_STATE 0 1, 1), (R.QP_SIZES_SQ_LOG2 0 1, 4), (R.QP_SIZES_CQ_LOG2 0 1, 4),
         (R.QP_SIZES_RQ_LOG2 0 1, 4), (R.QP_SQ_DB_INDEX 0 1, 1), (R.XCE_FN_SHARE_WEIGHT 0, 3)]).putCfg ridPF 0x04 2 1 1).putCfg
      ridBRIDGE 0x04 2 1 1), by decide⟩

theorem test_met_QueueCommands_28 :
    ∃ (s : State), s.wanting = [] :=
  ⟨wS [(R.XCE_FN_SHARE_WEIGHT 0, 0)], by decide⟩

theorem test_met_Descriptors_1 :
    ∃ (f : Func) (q : Fin 8) (d : XDesc) (s : State), s.NextDesc f q d 0 :=
  ⟨0, 1, { pos := 4, ix := 4, raw := 0x700000000, rcid := 1, mcid := 9 },
   { wS [(R.QP_STATUS_STATE 0 1, 1), (R.QP_SIZES_SQ_LOG2 0 1, 4), (R.QP_SIZES_CQ_LOG2 0 1, 4), (R.QP_SIZES_RQ_LOG2 0 1, 4)] with
       xce := { qps := [(1, { descs := [{ pos := 4, ix := 4, raw := 0x700000000, rcid := 1, mcid := 9 }] })] } }, by decide⟩

theorem test_met_Descriptors_2 :
    ∃ (f : Func) (q : Fin 8) (d : XDesc) (s : State), s.NextDesc f q d 6 :=
  ⟨0, 1, { pos := 4, ix := 4, raw := 0x700000006, rcid := 1, mcid := 9 },
   { wS [(R.QP_STATUS_STATE 0 1, 1), (R.QP_SIZES_SQ_LOG2 0 1, 4), (R.QP_SIZES_CQ_LOG2 0 1, 4), (R.QP_SIZES_RQ_LOG2 0 1, 4)] with
       xce := { qps := [(1, { descs := [{ pos := 4, ix := 4, raw := 0x700000006, rcid := 1, mcid := 9 }] })] } }, by decide⟩

theorem test_met_Descriptors_3 :
    ∃ (f : Func) (q : Fin 8) (d : XDesc) (ga pa : Nat) (l : List Xlate) (s : State), s.NextDesc f q d 1 ∧ s.XceIdle ∧ s.OneLine
      f (d.b 16 8) d.length ga pa :=
  ⟨0, 1, { pos := 4, ix := 4, raw := 0x2000000000000000100000000000000000080000000700000001, rcid := 1, mcid := 9 },
   0x40000, 0x40000, [.to 0x41000],
   { wS [(R.QP_STATUS_STATE 0 1, 1), (R.QP_SIZES_SQ_LOG2 0 1, 4), (R.QP_SIZES_CQ_LOG2 0 1, 4), (R.QP_SIZES_RQ_LOG2 0 1, 4)] with
       xce :=
         { qps :=
             [(1,
               { descs :=
                   [{ pos := 4, ix := 4, raw := 0x2000000000000000100000000000000000080000000700000001, rcid := 1,
                      mcid := 9 }] })] } }, by decide⟩

theorem test_met_Descriptors_4 :
    ∃ (f : Func) (q : Fin 8) (d : XDesc) (ga pa i : Nat) (s : State), s.NextDesc f q d 2 ∧ s.winRoom f = true ∧ s.XceIdle ∧
      s.outCheck f (d.b 12 2) permWRITE d.piece.1 d.piece.2 = some i ∧ s.OneLine f (d.b 16 8 + d.next) d.piece.2 ga pa :=
  ⟨0, 1,
   { pos := 4, ix := 4, raw := 0x1000000000020000012C0000000700000002, rcid := 1, mcid := 9, started := true,
     next := 256, live := 1 }, 0x40100, 0x40100, 2,
   { wS [(R.QP_STATUS_STATE 0 1, 1), (R.QP_SIZES_SQ_LOG2 0 1, 4), (R.QP_SIZES_CQ_LOG2 0 1, 4), (R.QP_SIZES_RQ_LOG2 0 1, 4)] with
       xce :=
         { qps :=
             [(1,
               { descs :=
                   [{ pos := 4, ix := 4, raw := 0x1000000000020000012C0000000700000002, rcid := 1, mcid := 9,
                      started := true, next := 256, live := 1 }] })],
           owin := [(2, (31 + (6) <<< 16 + (0) <<< 32 + (0) <<< 64 + (0) <<< 128 + 20 <<< 192))] } }, by decide⟩

theorem test_met_Descriptors_5 :
    ∃ (f : Func) (q : Fin 8) (d : XDesc) (ga pa i : Nat) (s : State), s.NextDesc f q d 4 ∧ s.winRoom f = true ∧ s.XceIdle ∧
      s.outCheck f (d.b 12 2) permSEND 0 d.length = some i ∧ s.OneLine f (d.b 16 8) d.length ga pa :=
  ⟨0, 1, { pos := 4, ix := 4, raw := 0x100000000002000000080000000700000004, rcid := 1, mcid := 9 }, 0x40000, 0x40000,
   2,
   { wS [(R.QP_STATUS_STATE 0 1, 1), (R.QP_SIZES_SQ_LOG2 0 1, 4), (R.QP_SIZES_CQ_LOG2 0 1, 4), (R.QP_SIZES_RQ_LOG2 0 1, 4)] with
       xce :=
         { qps :=
             [(1, { descs := [{ pos := 4, ix := 4, raw := 0x100000000002000000080000000700000004, rcid := 1, mcid := 9 }] })],
           owin := [(2, (31 + (6) <<< 16 + (0) <<< 32 + (0) <<< 64 + (0) <<< 128 + 20 <<< 192))] } }, by decide⟩

theorem test_met_Descriptors_6 :
    ∃ (f : Func) (q : Fin 8) (d : XDesc) (i w : Nat) (s : State), s.NextDesc f q d 3 ∧ s.winRoom f = true ∧ s.npRoom f = true ∧
      s.freeTag f = some w ∧ s.outCheck f (d.b 12 2) permREAD d.piece.1 d.piece.2 = some i :=
  ⟨0, 1,
   { pos := 4, ix := 4, raw := 0x1000000000020000012C0000000700000003, rcid := 1, mcid := 9, started := true,
     next := 256, live := 1 }, 2, 0,
   { wS [(R.QP_STATUS_STATE 0 1, 1), (R.QP_SIZES_SQ_LOG2 0 1, 4), (R.QP_SIZES_CQ_LOG2 0 1, 4), (R.QP_SIZES_RQ_LOG2 0 1, 4)] with
       xce :=
         { qps :=
             [(1,
               { descs :=
                   [{ pos := 4, ix := 4, raw := 0x1000000000020000012C0000000700000003, rcid := 1, mcid := 9,
                      started := true, next := 256, live := 1 }] })],
           owin := [(2, (31 + (6) <<< 16 + (0) <<< 32 + (0) <<< 64 + (0) <<< 128 + 20 <<< 192))] } }, by decide⟩

theorem test_met_Descriptors_7 :
    ∃ (f : Func) (q : Fin 8) (d : XDesc) (i w : Nat) (s : State), s.NextDesc f q d 5 ∧ s.winRoom f = true ∧ s.npRoom f = true ∧
      s.freeTag f = some w ∧ s.outCheck f (d.b 12 2) permATOMIC (d.b 24 8) (4 * 2 ^ bits (d.b 2 1) 4 2) = some i :=
  ⟨0, 1, { pos := 4, ix := 4, raw := 0x100000000002000000000000000700100005, rcid := 1, mcid := 9 }, 2, 0,
   { wS [(R.QP_STATUS_STATE 0 1, 1), (R.QP_SIZES_SQ_LOG2 0 1, 4), (R.QP_SIZES_CQ_LOG2 0 1, 4), (R.QP_SIZES_RQ_LOG2 0 1, 4)] with
       xce :=
         { qps :=
             [(1, { descs := [{ pos := 4, ix := 4, raw := 0x100000000002000000000000000700100005, rcid := 1, mcid := 9 }] })],
           owin := [(2, (31 + (6) <<< 16 + (0) <<< 32 + (0) <<< 64 + (0) <<< 128 + 20 <<< 192))] } }, by decide⟩

theorem test_met_Descriptors_8 :
    ∃ (f : Func) (q : Fin 8) (d : XDesc) (l : List Xlate) (s : State), s.NextDesc f q d 2 ∧ s.winRoom f = true ∧ s.sourcing f q
      = false ∧ s.outCheck f (d.b 12 2) permWRITE d.piece.1 d.piece.2 = none ∧ (s.qp f q).descs = [d] ∧ d.live = 0 ∧ d.fail
      = none ∧ d.total ≤ d.next + d.piece.2 ∧ s.get (R.QP_CTL_MODE f q) = 0 :=
  ⟨0, 1, { pos := 4, ix := 4, raw := 0x100000000002000000080000000700000002, rcid := 1, mcid := 9 }, [.to 0x40000],
   { wS [(R.QP_STATUS_STATE 0 1, 1), (R.QP_SIZES_SQ_LOG2 0 1, 4), (R.QP_SIZES_CQ_LOG2 0 1, 4), (R.QP_SIZES_RQ_LOG2 0 1, 4)] with
       xce :=
         { qps :=
             [(1, { descs := [{ pos := 4, ix := 4, raw := 0x100000000002000000080000000700000002, rcid := 1, mcid := 9 }] })] } },
   by decide⟩

theorem test_met_Descriptors_9 :
    ∃ (f : Func) (q : Fin 8) (d : XDesc) (s : State), s.NextDesc f q d 3 ∧ s.winRoom f = true ∧ s.npRoom f = true ∧ s.outCheck f
      (d.b 12 2) permREAD d.piece.1 d.piece.2 = none ∧ (s.qp f q).descs = [d] ∧ d.live = 0 ∧ d.fail = none ∧ d.total ≤
      d.next + d.piece.2 ∧ s.get (R.QP_CTL_MODE f q) = 0 :=
  ⟨0, 1, { pos := 4, ix := 4, raw := 0x100000000002000000080000000700000003, rcid := 1, mcid := 9 },
   { wS [(R.QP_STATUS_STATE 0 1, 1), (R.QP_SIZES_SQ_LOG2 0 1, 4), (R.QP_SIZES_CQ_LOG2 0 1, 4), (R.QP_SIZES_RQ_LOG2 0 1, 4)] with
       xce :=
         { qps :=
             [(1, { descs := [{ pos := 4, ix := 4, raw := 0x100000000002000000080000000700000003, rcid := 1, mcid := 9 }] })] } },
   by decide⟩

theorem test_met_Descriptors_10 :
    ∃ (f : Func) (q : Fin 8) (d : XDesc) (l : List Xlate) (s : State), s.NextDesc f q d 4 ∧ s.winRoom f = true ∧ s.sourcing f q
      = false ∧ s.outCheck f (d.b 12 2) permSEND 0 d.length = none ∧ (s.qp f q).descs = [d] ∧ d.live = 0 ∧ d.fail = none ∧
      d.total ≤ d.next + d.total ∧ s.get (R.QP_CTL_MODE f q) = 0 :=
  ⟨0, 1, { pos := 4, ix := 4, raw := 0x100000000002000000080000000700000004, rcid := 1, mcid := 9 }, [.to 0x40000],
   { wS [(R.QP_STATUS_STATE 0 1, 1), (R.QP_SIZES_SQ_LOG2 0 1, 4), (R.QP_SIZES_CQ_LOG2 0 1, 4), (R.QP_SIZES_RQ_LOG2 0 1, 4)] with
       xce :=
         { qps :=
             [(1, { descs := [{ pos := 4, ix := 4, raw := 0x100000000002000000080000000700000004, rcid := 1, mcid := 9 }] })] } },
   by decide⟩

theorem test_met_Descriptors_11 :
    ∃ (f : Func) (q : Fin 8) (d : XDesc) (s : State), s.NextDesc f q d 5 ∧ s.winRoom f = true ∧ s.npRoom f = true ∧ s.outCheck f
      (d.b 12 2) permATOMIC (d.b 24 8) (4 * 2 ^ bits (d.b 2 1) 4 2) = none ∧ (s.qp f q).descs = [d] ∧ d.live = 0 ∧ d.fail =
      none ∧ d.total ≤ d.next + d.total ∧ s.get (R.QP_CTL_MODE f q) = 0 :=
  ⟨0, 1, { pos := 4, ix := 4, raw := 0x100000000002000000000000000700100005, rcid := 1, mcid := 9 },
   { wS [(R.QP_STATUS_STATE 0 1, 1), (R.QP_SIZES_SQ_LOG2 0 1, 4), (R.QP_SIZES_CQ_LOG2 0 1, 4), (R.QP_SIZES_RQ_LOG2 0 1, 4)] with
       xce :=
         { qps :=
             [(1, { descs := [{ pos := 4, ix := 4, raw := 0x100000000002000000000000000700100005, rcid := 1, mcid := 9 }] })] } },
   by decide⟩

theorem test_met_Descriptors_12 :
    ∃ (f : Func) (q : Fin 8) (d : XDesc) (l : List Xlate) (s : State), s.NextDesc f q d 1 ∧ s.XceIdle ∧ s.atsOn f = false ∧
      (s.qp f q).descs = [d] ∧ d.live = 0 ∧ d.fail = none ∧ d.total ≤ d.next + d.total ∧ s.get (R.QP_CTL_MODE f q) = 0 ∧ 0 <
      d.length :=
  ⟨0, 1, { pos := 4, ix := 4, raw := 0x2000000000000000100000000000000000080000000700000001, rcid := 1, mcid := 9 }, [],
   { wS [(R.QP_STATUS_STATE 0 1, 1), (R.QP_SIZES_SQ_LOG2 0 1, 4), (R.QP_SIZES_CQ_LOG2 0 1, 4), (R.QP_SIZES_RQ_LOG2 0 1, 4)] with
       xce :=
         { qps :=
             [(1,
               { descs :=
                   [{ pos := 4, ix := 4, raw := 0x2000000000000000100000000000000000080000000700000001, rcid := 1,
                      mcid := 9 }] })],
           owin := [(2, (31 + (6) <<< 16 + (0) <<< 32 + (0) <<< 64 + (0) <<< 128 + 20 <<< 192))] } }, by decide⟩

theorem test_met_Descriptors_13 :
    ∃ (f : Func) (q : Fin 8) (d : XDesc) (i : Nat) (l : List Xlate) (s : State), s.NextDesc f q d 2 ∧ s.winRoom f = true ∧
      s.outCheck f (d.b 12 2) permWRITE d.piece.1 d.piece.2 = some i ∧ s.XceIdle ∧ s.atsOn f = false ∧ (s.qp f q).descs =
      [d] ∧ d.live = 0 ∧ d.fail = none ∧ d.total ≤ d.next + d.piece.2 ∧ s.get (R.QP_CTL_MODE f q) = 0 ∧ 0 < d.length :=
  ⟨0, 1, { pos := 4, ix := 4, raw := 0x100000000002000000080000000700000002, rcid := 1, mcid := 9 }, 2, [],
   { wS [(R.QP_STATUS_STATE 0 1, 1), (R.QP_SIZES_SQ_LOG2 0 1, 4), (R.QP_SIZES_CQ_LOG2 0 1, 4), (R.QP_SIZES_RQ_LOG2 0 1, 4)] with
       xce :=
         { qps :=
             [(1, { descs := [{ pos := 4, ix := 4, raw := 0x100000000002000000080000000700000002, rcid := 1, mcid := 9 }] })],
           owin := [(2, (31 + (6) <<< 16 + (0) <<< 32 + (0) <<< 64 + (0) <<< 128 + 20 <<< 192))] } }, by decide⟩

theorem test_met_Descriptors_14 :
    ∃ (f : Func) (q : Fin 8) (d : XDesc) (i : Nat) (l : List Xlate) (s : State), s.NextDesc f q d 4 ∧ s.winRoom f = true ∧
      s.outCheck f (d.b 12 2) permSEND 0 d.length = some i ∧ s.XceIdle ∧ s.atsOn f = false ∧ (s.qp f q).descs = [d] ∧ d.live
      = 0 ∧ d.fail = none ∧ d.total ≤ d.next + d.total ∧ s.get (R.QP_CTL_MODE f q) = 0 ∧ 0 < d.length :=
  ⟨0, 1, { pos := 4, ix := 4, raw := 0x100000000002000000080000000700000004, rcid := 1, mcid := 9 }, 2, [],
   { wS [(R.QP_STATUS_STATE 0 1, 1), (R.QP_SIZES_SQ_LOG2 0 1, 4), (R.QP_SIZES_CQ_LOG2 0 1, 4), (R.QP_SIZES_RQ_LOG2 0 1, 4)] with
       xce :=
         { qps :=
             [(1, { descs := [{ pos := 4, ix := 4, raw := 0x100000000002000000080000000700000004, rcid := 1, mcid := 9 }] })],
           owin := [(2, (31 + (6) <<< 16 + (0) <<< 32 + (0) <<< 64 + (0) <<< 128 + 20 <<< 192))] } }, by decide⟩

theorem test_met_Descriptors_15 :
    ∃ (f : Func) (q : Fin 8) (d : XDesc) (s : State), s.BadDesc f q d ∧ s.get (R.QP_CTL_MODE f q) = 0 :=
  ⟨0, 1, { pos := 4, ix := 4, raw := 0x50000000700000000, rcid := 1, mcid := 9 },
   { wS [(R.QP_STATUS_STATE 0 1, 1), (R.QP_SIZES_SQ_LOG2 0 1, 4), (R.QP_SIZES_CQ_LOG2 0 1, 4), (R.QP_SIZES_RQ_LOG2 0 1, 4)] with
       xce := { qps := [(1, { descs := [{ pos := 4, ix := 4, raw := 0x50000000700000000, rcid := 1, mcid := 9 }] })] } },
   by decide⟩

theorem test_met_Descriptors_16 :
    ∃ (f : Func) (q : Fin 8) (d : XDesc) (s : State), s.BadDesc f q d ∧ s.get (R.QP_CTL_MODE f q) = 1 ∧ s.qpState f q = qpACTIVE :=
  ⟨0, 1, { pos := 4, ix := 4, raw := 0x50000000700000000, rcid := 1, mcid := 9 },
   { wS
       [(R.QP_STATUS_STATE 0 1, 1), (R.QP_SIZES_SQ_LOG2 0 1, 4), (R.QP_SIZES_CQ_LOG2 0 1, 4),
        (R.QP_SIZES_RQ_LOG2 0 1, 4), (R.QP_CTL_MODE 0 1, 1)] with
       xce :=
         { qps :=
             [(1,
               { descs :=
                   [{ pos := 4, ix := 4, raw := 0x50000000700000000, rcid := 1, mcid := 9 },
                    { pos := 5, ix := 5, raw := 0x700000000, rcid := 1, mcid := 9 }] })] } }, by decide⟩

theorem test_met_Descriptors_17 :
    ∃ (f : Func) (q : Fin 8) (s : State), s.NoDesc f q 0 :=
  ⟨0, 1,
   { wS [(R.QP_STATUS_STATE 0 1, 1), (R.QP_SIZES_SQ_LOG2 0 1, 4), (R.QP_SIZES_CQ_LOG2 0 1, 4), (R.QP_SIZES_RQ_LOG2 0 1, 4)] with
       xce :=
         { qps :=
             [(1,
               { descs :=
                   [{ pos := 4, ix := 4, raw := 0x2000000000000000100000000000000000080000000700000001, rcid := 1,
                      mcid := 9 }] })] } }, by decide⟩

theorem test_met_Descriptors_18 :
    ∃ (f : Func) (q : Fin 8) (d : XDesc) (l l2 : List Xlate) (s : State), s.BadDesc f q d ∧ s.get (R.QP_CTL_MODE f q) = 0 :=
  ⟨0, 1, { pos := 4, ix := 4, raw := 0x100000000000000000000000000700000001, rcid := 1, mcid := 9 }, [.to 0x40000],
   [.to 0x41000],
   { wS [(R.QP_STATUS_STATE 0 1, 1), (R.QP_SIZES_SQ_LOG2 0 1, 4), (R.QP_SIZES_CQ_LOG2 0 1, 4), (R.QP_SIZES_RQ_LOG2 0 1, 4)] with
       xce :=
         { qps :=
             [(1, { descs := [{ pos := 4, ix := 4, raw := 0x100000000000000000000000000700000001, rcid := 1, mcid := 9 }] })] } },
   by decide⟩

theorem test_met_Descriptors_19 :
    ∃ (f : Func) (q : Fin 8) (d : XDesc) (l l2 : List Xlate) (s : State), s.BadDesc f q d ∧ s.get (R.QP_CTL_MODE f q) = 1 ∧
      s.qpState f q = qpACTIVE :=
  ⟨0, 1, { pos := 4, ix := 4, raw := 0x100000000000000000000000000700000001, rcid := 1, mcid := 9 }, [.to 0x40000],
   [.to 0x41000],
   { wS
       [(R.QP_STATUS_STATE 0 1, 1), (R.QP_SIZES_SQ_LOG2 0 1, 4), (R.QP_SIZES_CQ_LOG2 0 1, 4),
        (R.QP_SIZES_RQ_LOG2 0 1, 4), (R.QP_CTL_MODE 0 1, 1)] with
       xce :=
         { qps :=
             [(1,
               { descs :=
                   [{ pos := 4, ix := 4, raw := 0x100000000000000000000000000700000001, rcid := 1, mcid := 9 },
                    { pos := 5, ix := 5, raw := 0x700000000, rcid := 1, mcid := 9 }] })] } }, by decide⟩

theorem test_met_Descriptors_20 :
    ∃ (f : Func) (q : Fin 8) (l l2 : List Xlate) (s : State), s.NoDesc f q 1 :=
  ⟨0, 1, [.to 0x40000], [.to 0x41000],
   { wS [(R.QP_STATUS_STATE 0 1, 1), (R.QP_SIZES_SQ_LOG2 0 1, 4), (R.QP_SIZES_CQ_LOG2 0 1, 4), (R.QP_SIZES_RQ_LOG2 0 1, 4)] with
       xce :=
         { qps :=
             [(1, { descs := [{ pos := 4, ix := 4, raw := 0x100000000002000000080000000700000002, rcid := 1, mcid := 9 }] })] } },
   by decide⟩

theorem test_met_Descriptors_21 :
    ∃ (f : Func) (q : Fin 8) (d : XDesc) (l : List Xlate) (s : State), s.BadDesc f q d ∧ s.get (R.QP_CTL_MODE f q) = 0 :=
  ⟨0, 1, { pos := 4, ix := 4, raw := 0x100000000000000000000000000700000002, rcid := 1, mcid := 9 }, [.to 0x40000],
   { wS [(R.QP_STATUS_STATE 0 1, 1), (R.QP_SIZES_SQ_LOG2 0 1, 4), (R.QP_SIZES_CQ_LOG2 0 1, 4), (R.QP_SIZES_RQ_LOG2 0 1, 4)] with
       xce :=
         { qps :=
             [(1, { descs := [{ pos := 4, ix := 4, raw := 0x100000000000000000000000000700000002, rcid := 1, mcid := 9 }] })] } },
   by decide⟩

theorem test_met_Descriptors_22 :
    ∃ (f : Func) (q : Fin 8) (d : XDesc) (l : List Xlate) (s : State), s.BadDesc f q d ∧ s.get (R.QP_CTL_MODE f q) = 1 ∧
      s.qpState f q = qpACTIVE :=
  ⟨0, 1, { pos := 4, ix := 4, raw := 0x100000000000000000000000000700000002, rcid := 1, mcid := 9 }, [.to 0x40000],
   { wS
       [(R.QP_STATUS_STATE 0 1, 1), (R.QP_SIZES_SQ_LOG2 0 1, 4), (R.QP_SIZES_CQ_LOG2 0 1, 4),
        (R.QP_SIZES_RQ_LOG2 0 1, 4), (R.QP_CTL_MODE 0 1, 1)] with
       xce :=
         { qps :=
             [(1,
               { descs :=
                   [{ pos := 4, ix := 4, raw := 0x100000000000000000000000000700000002, rcid := 1, mcid := 9 },
                    { pos := 5, ix := 5, raw := 0x700000000, rcid := 1, mcid := 9 }] })] } }, by decide⟩

theorem test_met_Descriptors_23 :
    ∃ (f : Func) (q : Fin 8) (l : List Xlate) (s : State), s.NoDesc f q 2 :=
  ⟨0, 1, [.to 0x40000],
   { wS [(R.QP_STATUS_STATE 0 1, 1), (R.QP_SIZES_SQ_LOG2 0 1, 4), (R.QP_SIZES_CQ_LOG2 0 1, 4), (R.QP_SIZES_RQ_LOG2 0 1, 4)] with
       xce :=
         { qps :=
             [(1, { descs := [{ pos := 4, ix := 4, raw := 0x100000000002000000080000000700000003, rcid := 1, mcid := 9 }] })] } },
   by decide⟩

theorem test_met_Descriptors_24 :
    ∃ (f : Func) (q : Fin 8) (d : XDesc) (l : List Xlate) (s : State), s.NextDesc f q d 2 ∧ (s.winRoom f = false ∨ s.sourcing f
      q = true) :=
  ⟨0, 1, { pos := 4, ix := 4, raw := 0x100000000002000000080000000700000002, rcid := 1, mcid := 9 }, [.to 0x40000],
   { wS [(R.QP_STATUS_STATE 0 1, 1), (R.QP_SIZES_SQ_LOG2 0 1, 4), (R.QP_SIZES_CQ_LOG2 0 1, 4), (R.QP_SIZES_RQ_LOG2 0 1, 4)] with
       xce :=
         { qps :=
             [(1, { descs := [{ pos := 4, ix := 4, raw := 0x100000000002000000080000000700000002, rcid := 1, mcid := 9 }] })],
           owin := [(2, (31 + (6) <<< 16 + (0) <<< 32 + (0) <<< 64 + (0) <<< 128 + 20 <<< 192))],
           ops :=
             [⟨7, 0, 1, 0, none, false, (0, 0),
               .source 1 3 0 2
                 { vc := vcPOST, wopc := 0, srcPkg := 6, dstPkg := 0, srcFn := 3, iwin := 2, length := 8, wtag := 5,
                   data := [1, 2, 3, 4, 5, 6, 7, 8] }⟩] } }, by decide⟩

theorem test_met_Descriptors_25 :
    ∃ (f : Func) (q : Fin 8) (d : XDesc) (s : State), s.BadDesc f q d ∧ s.get (R.QP_CTL_MODE f q) = 0 :=
  ⟨0, 1, { pos := 4, ix := 4, raw := 0x100000000000000000000000000700000003, rcid := 1, mcid := 9 },
   { wS [(R.QP_STATUS_STATE 0 1, 1), (R.QP_SIZES_SQ_LOG2 0 1, 4), (R.QP_SIZES_CQ_LOG2 0 1, 4), (R.QP_SIZES_RQ_LOG2 0 1, 4)] with
       xce :=
         { qps :=
             [(1, { descs := [{ pos := 4, ix := 4, raw := 0x100000000000000000000000000700000003, rcid := 1, mcid := 9 }] })] } },
   by decide⟩

theorem test_met_Descriptors_26 :
    ∃ (f : Func) (q : Fin 8) (d : XDesc) (s : State), s.BadDesc f q d ∧ s.get (R.QP_CTL_MODE f q) = 1 ∧ s.qpState f q = qpACTIVE :=
  ⟨0, 1, { pos := 4, ix := 4, raw := 0x100000000000000000000000000700000003, rcid := 1, mcid := 9 },
   { wS
       [(R.QP_STATUS_STATE 0 1, 1), (R.QP_SIZES_SQ_LOG2 0 1, 4), (R.QP_SIZES_CQ_LOG2 0 1, 4),
        (R.QP_SIZES_RQ_LOG2 0 1, 4), (R.QP_CTL_MODE 0 1, 1)] with
       xce :=
         { qps :=
             [(1,
               { descs :=
                   [{ pos := 4, ix := 4, raw := 0x100000000000000000000000000700000003, rcid := 1, mcid := 9 },
                    { pos := 5, ix := 5, raw := 0x700000000, rcid := 1, mcid := 9 }] })] } }, by decide⟩

theorem test_met_Descriptors_27 :
    ∃ (f : Func) (q : Fin 8) (s : State), s.NoDesc f q 3 :=
  ⟨0, 1,
   { wS [(R.QP_STATUS_STATE 0 1, 1), (R.QP_SIZES_SQ_LOG2 0 1, 4), (R.QP_SIZES_CQ_LOG2 0 1, 4), (R.QP_SIZES_RQ_LOG2 0 1, 4)] with
       xce :=
         { qps :=
             [(1, { descs := [{ pos := 4, ix := 4, raw := 0x100000000002000000080000000700000004, rcid := 1, mcid := 9 }] })] } },
   by decide⟩

theorem test_met_Descriptors_28 :
    ∃ (f : Func) (q : Fin 8) (d : XDesc) (s : State), s.NextDesc f q d 3 ∧ (s.winRoom f = false ∨ s.npRoom f = false) :=
  ⟨0, 1, { pos := 4, ix := 4, raw := 0x100000000002000000080000000700000003, rcid := 1, mcid := 9 },
   (fun (s : State) =>
      { s with xce := { s.xce with tags := List.replicate 256 ⟨0, 5, true, 8, false, false, 0, .store 2⟩ } })
     ({ wS
          [(R.QP_STATUS_STATE 0 1, 1), (R.QP_SIZES_SQ_LOG2 0 1, 4), (R.QP_SIZES_CQ_LOG2 0 1, 4),
           (R.QP_SIZES_RQ_LOG2 0 1, 4)] with
          xce :=
            { qps :=
                [(1,
                  { descs := [{ pos := 4, ix := 4, raw := 0x100000000002000000080000000700000003, rcid := 1, mcid := 9 }] })],
              owin := [(2, (31 + (6) <<< 16 + (0) <<< 32 + (0) <<< 64 + (0) <<< 128 + 20 <<< 192))] } }), by decide⟩

theorem test_met_Descriptors_29 :
    ∃ (f : Func) (q : Fin 8) (d : XDesc) (l : List Xlate) (s : State), s.BadDesc f q d ∧ s.get (R.QP_CTL_MODE f q) = 0 :=
  ⟨0, 1, { pos := 4, ix := 4, raw := 0x100000000000000000000000000700000004, rcid := 1, mcid := 9 }, [.to 0x40000],
   { wS [(R.QP_STATUS_STATE 0 1, 1), (R.QP_SIZES_SQ_LOG2 0 1, 4), (R.QP_SIZES_CQ_LOG2 0 1, 4), (R.QP_SIZES_RQ_LOG2 0 1, 4)] with
       xce :=
         { qps :=
             [(1, { descs := [{ pos := 4, ix := 4, raw := 0x100000000000000000000000000700000004, rcid := 1, mcid := 9 }] })] } },
   by decide⟩

theorem test_met_Descriptors_30 :
    ∃ (f : Func) (q : Fin 8) (d : XDesc) (l : List Xlate) (s : State), s.BadDesc f q d ∧ s.get (R.QP_CTL_MODE f q) = 1 ∧
      s.qpState f q = qpACTIVE :=
  ⟨0, 1, { pos := 4, ix := 4, raw := 0x100000000000000000000000000700000004, rcid := 1, mcid := 9 }, [.to 0x40000],
   { wS
       [(R.QP_STATUS_STATE 0 1, 1), (R.QP_SIZES_SQ_LOG2 0 1, 4), (R.QP_SIZES_CQ_LOG2 0 1, 4),
        (R.QP_SIZES_RQ_LOG2 0 1, 4), (R.QP_CTL_MODE 0 1, 1)] with
       xce :=
         { qps :=
             [(1,
               { descs :=
                   [{ pos := 4, ix := 4, raw := 0x100000000000000000000000000700000004, rcid := 1, mcid := 9 },
                    { pos := 5, ix := 5, raw := 0x700000000, rcid := 1, mcid := 9 }] })] } }, by decide⟩

theorem test_met_Descriptors_31 :
    ∃ (f : Func) (q : Fin 8) (l : List Xlate) (s : State), s.NoDesc f q 4 :=
  ⟨0, 1, [.to 0x40000],
   { wS [(R.QP_STATUS_STATE 0 1, 1), (R.QP_SIZES_SQ_LOG2 0 1, 4), (R.QP_SIZES_CQ_LOG2 0 1, 4), (R.QP_SIZES_RQ_LOG2 0 1, 4)] with
       xce :=
         { qps :=
             [(1, { descs := [{ pos := 4, ix := 4, raw := 0x100000000002000000000000000700100005, rcid := 1, mcid := 9 }] })] } },
   by decide⟩

theorem test_met_Descriptors_32 :
    ∃ (f : Func) (q : Fin 8) (d : XDesc) (l : List Xlate) (s : State), s.NextDesc f q d 4 ∧ (s.winRoom f = false ∨ s.sourcing f
      q = true) :=
  ⟨0, 1, { pos := 4, ix := 4, raw := 0x100000000002000000080000000700000004, rcid := 1, mcid := 9 }, [.to 0x40000],
   { wS [(R.QP_STATUS_STATE 0 1, 1), (R.QP_SIZES_SQ_LOG2 0 1, 4), (R.QP_SIZES_CQ_LOG2 0 1, 4), (R.QP_SIZES_RQ_LOG2 0 1, 4)] with
       xce :=
         { qps :=
             [(1, { descs := [{ pos := 4, ix := 4, raw := 0x100000000002000000080000000700000004, rcid := 1, mcid := 9 }] })],
           owin := [(2, (31 + (6) <<< 16 + (0) <<< 32 + (0) <<< 64 + (0) <<< 128 + 20 <<< 192))],
           ops :=
             [⟨7, 0, 1, 0, none, false, (0, 0),
               .source 1 3 0 2
                 { vc := vcPOST, wopc := 0, srcPkg := 6, dstPkg := 0, srcFn := 3, iwin := 2, length := 8, wtag := 5,
                   data := [1, 2, 3, 4, 5, 6, 7, 8] }⟩] } }, by decide⟩

theorem test_met_Descriptors_33 :
    ∃ (f : Func) (q : Fin 8) (d : XDesc) (s : State), s.BadDesc f q d ∧ s.get (R.QP_CTL_MODE f q) = 0 :=
  ⟨0, 1, { pos := 4, ix := 4, raw := 0x100100000002000000000000000700000005, rcid := 1, mcid := 9 },
   { wS [(R.QP_STATUS_STATE 0 1, 1), (R.QP_SIZES_SQ_LOG2 0 1, 4), (R.QP_SIZES_CQ_LOG2 0 1, 4), (R.QP_SIZES_RQ_LOG2 0 1, 4)] with
       xce :=
         { qps :=
             [(1, { descs := [{ pos := 4, ix := 4, raw := 0x100100000002000000000000000700000005, rcid := 1, mcid := 9 }] })] } },
   by decide⟩

theorem test_met_Descriptors_34 :
    ∃ (f : Func) (q : Fin 8) (d : XDesc) (s : State), s.BadDesc f q d ∧ s.get (R.QP_CTL_MODE f q) = 1 ∧ s.qpState f q = qpACTIVE :=
  ⟨0, 1, { pos := 4, ix := 4, raw := 0x100100000002000000000000000700000005, rcid := 1, mcid := 9 },
   { wS
       [(R.QP_STATUS_STATE 0 1, 1), (R.QP_SIZES_SQ_LOG2 0 1, 4), (R.QP_SIZES_CQ_LOG2 0 1, 4),
        (R.QP_SIZES_RQ_LOG2 0 1, 4), (R.QP_CTL_MODE 0 1, 1)] with
       xce :=
         { qps :=
             [(1,
               { descs :=
                   [{ pos := 4, ix := 4, raw := 0x100100000002000000000000000700000005, rcid := 1, mcid := 9 },
                    { pos := 5, ix := 5, raw := 0x700000000, rcid := 1, mcid := 9 }] })] } }, by decide⟩

theorem test_met_Descriptors_35 :
    ∃ (f : Func) (q : Fin 8) (s : State), s.NoDesc f q 5 :=
  ⟨0, 1,
   { wS [(R.QP_STATUS_STATE 0 1, 1), (R.QP_SIZES_SQ_LOG2 0 1, 4), (R.QP_SIZES_CQ_LOG2 0 1, 4), (R.QP_SIZES_RQ_LOG2 0 1, 4)] with
       xce := { qps := [(1, { descs := [{ pos := 4, ix := 4, raw := 0x700000006, rcid := 1, mcid := 9 }] })] } }, by decide⟩

theorem test_met_Descriptors_36 :
    ∃ (f : Func) (q : Fin 8) (d : XDesc) (s : State), s.NextDesc f q d 5 ∧ (s.winRoom f = false ∨ s.npRoom f = false) :=
  ⟨0, 1, { pos := 4, ix := 4, raw := 0x100000000002000000000000000700100005, rcid := 1, mcid := 9 },
   (fun (s : State) =>
      { s with xce := { s.xce with tags := List.replicate 256 ⟨0, 5, true, 8, false, false, 0, .store 2⟩ } })
     ({ wS
          [(R.QP_STATUS_STATE 0 1, 1), (R.QP_SIZES_SQ_LOG2 0 1, 4), (R.QP_SIZES_CQ_LOG2 0 1, 4),
           (R.QP_SIZES_RQ_LOG2 0 1, 4)] with
          xce :=
            { qps :=
                [(1,
                  { descs := [{ pos := 4, ix := 4, raw := 0x100000000002000000000000000700100005, rcid := 1, mcid := 9 }] })],
              owin := [(2, (31 + (6) <<< 16 + (0) <<< 32 + (0) <<< 64 + (0) <<< 128 + 20 <<< 192))] } }), by decide⟩

theorem test_met_Descriptors_37 :
    ∃ (f : Func) (q : Fin 8) (d : XDesc) (s : State), s.BadDesc f q d ∧ s.get (R.QP_CTL_MODE f q) = 0 :=
  ⟨0, 1, { pos := 4, ix := 4, raw := 0x50000000700000006, rcid := 1, mcid := 9 },
   { wS [(R.QP_STATUS_STATE 0 1, 1), (R.QP_SIZES_SQ_LOG2 0 1, 4), (R.QP_SIZES_CQ_LOG2 0 1, 4), (R.QP_SIZES_RQ_LOG2 0 1, 4)] with
       xce := { qps := [(1, { descs := [{ pos := 4, ix := 4, raw := 0x50000000700000006, rcid := 1, mcid := 9 }] })] } },
   by decide⟩

theorem test_met_Descriptors_38 :
    ∃ (f : Func) (q : Fin 8) (d : XDesc) (s : State), s.BadDesc f q d ∧ s.get (R.QP_CTL_MODE f q) = 1 ∧ s.qpState f q = qpACTIVE :=
  ⟨0, 1, { pos := 4, ix := 4, raw := 0x50000000700000006, rcid := 1, mcid := 9 },
   { wS
       [(R.QP_STATUS_STATE 0 1, 1), (R.QP_SIZES_SQ_LOG2 0 1, 4), (R.QP_SIZES_CQ_LOG2 0 1, 4),
        (R.QP_SIZES_RQ_LOG2 0 1, 4), (R.QP_CTL_MODE 0 1, 1)] with
       xce :=
         { qps :=
             [(1,
               { descs :=
                   [{ pos := 4, ix := 4, raw := 0x50000000700000006, rcid := 1, mcid := 9 },
                    { pos := 5, ix := 5, raw := 0x700000000, rcid := 1, mcid := 9 }] })] } }, by decide⟩

theorem test_met_Descriptors_39 :
    ∃ (f : Func) (q : Fin 8) (s : State), s.NoDesc f q 6 :=
  ⟨0, 1,
   { wS [(R.QP_STATUS_STATE 0 1, 1), (R.QP_SIZES_SQ_LOG2 0 1, 4), (R.QP_SIZES_CQ_LOG2 0 1, 4), (R.QP_SIZES_RQ_LOG2 0 1, 4)] with
       xce := { qps := [(1, { descs := [{ pos := 4, ix := 4, raw := 0x700000000, rcid := 1, mcid := 9 }] })] } }, by decide⟩

theorem test_met_CxlRegionsAndLinks_1 :
    ∃ (i : RPort) (s : State), s.region i = regionOFFLINE ∧ s.get (R.RPRT_STATUS_CXL i) = 1 ∧ s.regionBad i = false :=
  ⟨4,
   wS
     [(R.RPRT_STATUS_CXL 4, 1), (R.RPRT_STATUS_REGION_STATE 4, regionOFFLINE), (R.RPRT_CXL_REGION_BASE_GIB 4, 8),
      (R.RPRT_CXL_REGION_SIZE_GIB 4, 2)], by decide⟩

theorem test_met_CxlRegionsAndLinks_2 :
    ∃ (i : RPort) (s : State), (s.region i ≠ regionOFFLINE ∨ s.get (R.RPRT_STATUS_CXL i) ≠ 1) :=
  ⟨4,
   wS
     [(R.RPRT_STATUS_CXL 4, 1), (R.RPRT_STATUS_REGION_STATE 4, regionONLINE), (R.RPRT_CXL_REGION_BASE_GIB 4, 8),
      (R.RPRT_CXL_REGION_SIZE_GIB 4, 2)], by decide⟩

theorem test_met_CxlRegionsAndLinks_3 :
    ∃ (i : RPort) (s : State), s.region i = regionONLINE ∧ s.home.sweeps.all (fun w =>
      (match w.u with | .cxlRegion j _ => j != i | _ => true)) = true :=
  ⟨4,
   wS
     [(R.RPRT_STATUS_CXL 4, 1), (R.RPRT_STATUS_REGION_STATE 4, regionONLINE), (R.RPRT_CXL_REGION_BASE_GIB 4, 8),
      (R.RPRT_CXL_REGION_SIZE_GIB 4, 2)], by decide⟩

theorem test_met_CxlRegionsAndLinks_4 :
    ∃ (i : RPort) (s : State), s.region i ≠ regionONLINE :=
  ⟨4,
   wS
     [(R.RPRT_STATUS_CXL 4, 1), (R.RPRT_STATUS_REGION_STATE 4, regionFILLING), (R.RPRT_CXL_REGION_BASE_GIB 4, 8),
      (R.RPRT_CXL_REGION_SIZE_GIB 4, 2)], by decide⟩

theorem test_met_CxlRegionsAndLinks_5 :
    ∃ (i : RPort) (s : State), s.region i = regionFILLING :=
  ⟨4,
   wS
     [(R.RPRT_STATUS_CXL 4, 1), (R.RPRT_STATUS_REGION_STATE 4, regionFILLING), (R.RPRT_CXL_REGION_BASE_GIB 4, 8),
      (R.RPRT_CXL_REGION_SIZE_GIB 4, 2)], by decide⟩

theorem test_met_CxlRegionsAndLinks_6 :
    ∃ (i : RPort) (s : State), s.region i = regionFILLING :=
  ⟨4,
   wS
     [(R.RPRT_STATUS_CXL 4, 1), (R.RPRT_STATUS_REGION_STATE 4, regionFILLING), (R.RPRT_CXL_REGION_BASE_GIB 4, 8),
      (R.RPRT_CXL_REGION_SIZE_GIB 4, 2)], by decide⟩

theorem test_met_CxlRegionsAndLinks_7 :
    ∃ (i : RPort) (b : Bool) (s : State), s.region i ≠ regionFILLING :=
  ⟨4, true,
   wS
     [(R.RPRT_STATUS_CXL 4, 1), (R.RPRT_STATUS_REGION_STATE 4, regionONLINE), (R.RPRT_CXL_REGION_BASE_GIB 4, 8),
      (R.RPRT_CXL_REGION_SIZE_GIB 4, 2)], by decide⟩

theorem test_met_CxlRegionsAndLinks_8 :
    ∃ (i : RPort) (s : State), s.region i = regionDRAINING ∧ s.draining i = false ∧ (∀ n : Ix16, s.get (R.MESA_STATUS_STATE n) =
      mesaBYPASS) :=
  ⟨4,
   wS
     [(R.RPRT_STATUS_CXL 4, 1), (R.RPRT_STATUS_REGION_STATE 4, regionDRAINING), (R.RPRT_CXL_REGION_BASE_GIB 4, 8),
      (R.RPRT_CXL_REGION_SIZE_GIB 4, 2), (R.MESA_STATUS_STATE 0, 2), (R.MESA_STATUS_STATE 1, 2),
      (R.MESA_STATUS_STATE 2, 2), (R.MESA_STATUS_STATE 3, 2), (R.MESA_STATUS_STATE 4, 2), (R.MESA_STATUS_STATE 5, 2),
      (R.MESA_STATUS_STATE 6, 2), (R.MESA_STATUS_STATE 7, 2), (R.MESA_STATUS_STATE 8, 2), (R.MESA_STATUS_STATE 9, 2),
      (R.MESA_STATUS_STATE 10, 2), (R.MESA_STATUS_STATE 11, 2), (R.MESA_STATUS_STATE 12, 2),
      (R.MESA_STATUS_STATE 13, 2), (R.MESA_STATUS_STATE 14, 2), (R.MESA_STATUS_STATE 15, 2)], by decide⟩

theorem test_met_CxlRegionsAndLinks_9 :
    ∃ (i : RPort) (s : State), s.region i = regionDRAINING ∧ s.draining i = false ∧ (∃ n : Ix16, s.get (R.MESA_STATUS_STATE n) =
      mesaENABLED ∨ s.get (R.MESA_STATUS_STATE n) = mesaINVALIDATING) :=
  ⟨4,
   wS
     [(R.RPRT_STATUS_CXL 4, 1), (R.RPRT_STATUS_REGION_STATE 4, regionDRAINING), (R.RPRT_CXL_REGION_BASE_GIB 4, 8),
      (R.RPRT_CXL_REGION_SIZE_GIB 4, 2)], by decide⟩

theorem test_met_CxlRegionsAndLinks_10 :
    ∃ (i : RPort) (s : State), (s.region i ≠ regionDRAINING ∨ s.draining i = true) :=
  ⟨4,
   wS
     [(R.RPRT_STATUS_CXL 4, 1), (R.RPRT_STATUS_REGION_STATE 4, regionFILLING), (R.RPRT_CXL_REGION_BASE_GIB 4, 8),
      (R.RPRT_CXL_REGION_SIZE_GIB 4, 2)], by decide⟩

theorem test_met_CxlRegionsAndLinks_11 :
    ∃ (i : RPort) (s : State), s.get (R.RPRT_STATUS_CXL i) = 1 ∧ s.region i = regionFILLING :=
  ⟨4,
   ((wS
       [(R.RPRT_STATUS_CXL 4, 1), (R.RPRT_STATUS_REGION_STATE 4, regionFILLING), (R.RPRT_CXL_REGION_BASE_GIB 4, 8),
        (R.RPRT_CXL_REGION_SIZE_GIB 4, 2)]).setPortSlot 4 { up := true }), by decide⟩

theorem test_met_CxlRegionsAndLinks_12 :
    ∃ (i : RPort) (s : State), s.get (R.RPRT_STATUS_CXL i) = 1 ∧ s.region i = regionONLINE ∧ s.home.sweeps.all (fun w =>
      (match w.u with | .cxlRegion j _ => j != i | _ => true)) = true :=
  ⟨4,
   ((wS
       [(R.RPRT_STATUS_CXL 4, 1), (R.RPRT_STATUS_REGION_STATE 4, regionONLINE), (R.RPRT_CXL_REGION_BASE_GIB 4, 8),
        (R.RPRT_CXL_REGION_SIZE_GIB 4, 2)]).setPortSlot 4 { up := true }), by decide⟩

theorem test_met_CxlRegionsAndLinks_13 :
    ∃ (i : RPort) (s : State), s.get (R.RPRT_STATUS_CXL i) = 1 ∧ s.region i ≠ regionONLINE ∧ s.region i ≠ regionFILLING :=
  ⟨4,
   ((wS
       [(R.RPRT_STATUS_CXL 4, 1), (R.RPRT_STATUS_REGION_STATE 4, regionDRAINING), (R.RPRT_CXL_REGION_BASE_GIB 4, 8),
        (R.RPRT_CXL_REGION_SIZE_GIB 4, 2)]).setPortSlot 4 { up := true }), by decide⟩

theorem test_met_CxlRegionsAndLinks_14 :
    ∃ (i : RPort) (s : State), s.get (R.RPRT_STATUS_CXL i) ≠ 1 :=
  ⟨4, wS [], by decide⟩

theorem test_met_CxlRegionsAndLinks_15 :
    ∃ (i : RPort) (c : Bool) (s : State), s.portUp i = true ∧ s.contained i = false ∧ (s.portSlot i).holding = false ∧ (s.get
      (R.RPRT_CTL_SLOT i) = 0 ∨ ((s.portSlot i).out.testBit 8 = true ∧ (s.portSlot i).out.testBit 9 = true)) :=
  ⟨4, true, wS [(R.RPRT_STATUS_WIDTH 4, 3)], by decide⟩

theorem test_met_CxlRegionsAndLinks_16 :
    ∃ (i : RPort) (c : Bool) (s : State), (s.portUp i = false ∨ s.contained i = true ∨ (s.portSlot i).holding = true ∨ (s.get
      (R.RPRT_CTL_SLOT i) ≠ 0 ∧ ((s.portSlot i).out.testBit 8 = false ∨ (s.portSlot i).out.testBit 9 = false))) :=
  ⟨4, true, wS [(R.RPRT_STATUS_WIDTH 4, 0)], by decide⟩

theorem test_met_CxlRegionsAndLinks_17 :
    ∃ (i : RPort) (s : State), s.portUp i = true ∧ (s.charge 13 i false).2 = false :=
  ⟨4, wS [(R.RPRT_STATUS_WIDTH 4, 3)], by decide⟩

theorem test_met_CxlRegionsAndLinks_18 :
    ∃ (i : RPort) (s : State), s.portUp i = true ∧ (s.charge 13 i false).2 = true :=
  ⟨4, (wS [(R.RPRT_STATUS_WIDTH 4, 3)]).setBucket 13 4 { level := 254, run := 2 }, by decide⟩

theorem test_met_CxlRegionsAndLinks_19 :
    ∃ (i : RPort) (s : State), s.portUp i = false :=
  ⟨4, wS [(R.RPRT_STATUS_WIDTH 4, 0)], by decide⟩

theorem test_met_SlotCommands_1 :
    ∃ (i : RPort) (v : Fin 16) (flt gone : Bool) (w : Nat) (s : State), s.get (R.RPRT_CTL_SLOT i) = 1 ∧ s.portUp i = true ∧ flt
      = ((s.portSlot i).last.testBit 2 && !v.val.testBit 2) ∧ gone = ((s.portSlot i).rising && v.val.testBit 0) ∧ (w = (if
      flt = true ∨ gone = true then setBits (s.portSlot i).want 8 2 0 else (s.portSlot i).want)) :=
  ⟨4, 2, true, false, 0x400,
   ((wS [(R.RPRT_STATUS_WIDTH 4, 3), (R.RPRT_CTL_SLOT 4, 1)]).setPortSlot 4
      { want := 0x700, out := 0x300, last := 4, up := true }), by decide⟩

theorem test_met_SlotCommands_2 :
    ∃ (i : RPort) (s : State), s.get (R.RPRT_CTL_SLOT i) = 1 ∧ s.portUp i = true :=
  ⟨4, ((wS [(R.RPRT_STATUS_WIDTH 4, 3), (R.RPRT_CTL_SLOT 4, 1)]).setPortSlot 4 { nacks := 2 }), by decide⟩

theorem test_met_SlotCommands_3 :
    ∃ (i : RPort) (d : Option Nat) (s : State), (s.get (R.RPRT_CTL_SLOT i) = 0 ∨ s.portUp i = false) :=
  ⟨4, some 3, wS [], by decide⟩

theorem test_met_SlotCommands_4 :
    ∃ (b : Fin 4) (l : List (Option Nat)) (s : State), True :=
  ⟨1, [some 2], wS [(R.RPRT_STATUS_WIDTH 8, 3), (R.RPRT_CTL_SLOT 8, 1)], by decide⟩

theorem test_met_SlotCommands_5 :
    ∃ (i : RPort) (m st : Nat) (s : State), (s.portSlot i).wait = true ∧ s.get (R.RPRT_STATUS_EXPANDER_FAIL i) = 0 ∧ (m = (if
      (s.portSlot i).last.testBit 0 = (s.portSlot i).seen.testBit 0 then 0 else 8) + (if (s.portSlot i).last.testBit 1 =
      true ∨ (s.portSlot i).seen.testBit 1 = false then 0 else 1) + (if (s.portSlot i).last.testBit 3 = (s.portSlot
      i).seen.testBit 3 then 0 else 4)) ∧ st = setBits (setBits (s.portSlot i).status 6 1 (b2n (!(s.portSlot i).last.testBit
      0))) 5 1 (b2n ((s.portSlot i).last.testBit 3)) :=
  ⟨4, 8, 0x40, ((wS [(R.RPRT_STATUS_WIDTH 4, 3), (R.RPRT_CTL_SLOT 4, 1)]).setPortSlot 4 { wait := true, last := 0 }),
   by decide⟩

theorem test_met_SlotCommands_6 :
    ∃ (i : RPort) (s : State), ((s.portSlot i).wait = false ∨ s.get (R.RPRT_STATUS_EXPANDER_FAIL i) ≠ 0) :=
  ⟨4, wS [(R.RPRT_STATUS_WIDTH 4, 3), (R.RPRT_CTL_SLOT 4, 1)], by decide⟩

theorem test_met_SlotCommands_7 :
    ∃ (i : RPort) (v w : Nat) (s : State), s.get (R.RPRT_CTL_SLOT i) = 1 ∧ s.portUp i = true ∧ w = setBits (setBits (if
      v.testBit 10 then setBits (s.portSlot i).want 8 2 0 else setBits (s.portSlot i).want 8 1 1) 10 1 (indicator (bits v 8
      2) (bits (s.portSlot i).want 10 1))) 11 1 (indicator (bits v 6 2) (bits (s.portSlot i).want 11 1)) :=
  ⟨4, 0x140, 0xD00, wS [(R.RPRT_STATUS_WIDTH 4, 3), (R.RPRT_CTL_SLOT 4, 1)], by decide⟩

theorem test_met_SlotCommands_8 :
    ∃ (i : RPort) (v : Nat) (s : State), (s.get (R.RPRT_CTL_SLOT i) = 0 ∨ s.portUp i = false) :=
  ⟨4, 0x140, wS [], by decide⟩

theorem test_met_SlotCommands_9 :
    ∃ (i : RPort) (s : State), (s.portSlot i).rising = true ∧ (s.portSlot i).out.testBit 8 = true :=
  ⟨4,
   ((wS [(R.RPRT_STATUS_WIDTH 4, 3), (R.RPRT_CTL_SLOT 4, 1)]).setPortSlot 4 { rising := true, out := 0x100, want := 0x100 }),
   by decide⟩

theorem test_met_SlotCommands_10 :
    ∃ (i : RPort) (s : State), ((s.portSlot i).rising = false ∨ (s.portSlot i).out.testBit 8 = false) :=
  ⟨4, wS [(R.RPRT_STATUS_WIDTH 4, 3), (R.RPRT_CTL_SLOT 4, 1)], by decide⟩

theorem test_met_SlotCommands_11 :
    ∃ (i : RPort) (s : State), s.get (R.RPRT_CTL_SLOT i) = 1 ∧ s.portUp i = true :=
  ⟨4,
   ((wS [(R.RPRT_STATUS_WIDTH 4, 3), (R.RPRT_CTL_SLOT 4, 1)]).setPortSlot 4 { want := 0x300, out := 0x300, up := true }),
   by decide⟩

theorem test_met_SlotCommands_12 :
    ∃ (i : RPort) (s : State), (s.get (R.RPRT_CTL_SLOT i) = 0 ∨ s.portUp i = false) :=
  ⟨4, wS [], by decide⟩

theorem test_met_SlotCommands_13 :
    ∃ (i : RPort) (w w2 : Nat) (s : State), s.get (R.RPRT_CTL_SLOT i) = 1 ∧ w = (if bits (s.portSlot i).ctl 8 2 = 2 then setBits
      (s.portSlot i).want 10 1 (1 - bits (s.portSlot i).want 10 1) else (s.portSlot i).want) ∧ w2 = (if bits (s.portSlot
      i).ctl 6 2 = 2 then setBits w 11 1 (1 - bits w 11 1) else w) :=
  ⟨4, 0x400, 0x400, ((wS [(R.RPRT_STATUS_WIDTH 4, 3), (R.RPRT_CTL_SLOT 4, 1)]).setPortSlot 4 { ctl := 0x200 }), by decide⟩

theorem test_met_SlotCommands_14 :
    ∃ (i : RPort) (s : State), s.get (R.RPRT_CTL_SLOT i) ≠ 1 :=
  ⟨4, wS [], by decide⟩

theorem test_met_SlotCommands_15 :
    ∃ (g : Fin 8) (s : State), s.pwr.good = true :=
  ⟨3, { wS [] with pwr := { good := true } }, by decide⟩

theorem test_met_SlotCommands_16 :
    ∃ (g : Fin 8) (s : State), s.pwr.good = false :=
  ⟨3, wS [], by decide⟩

theorem test_met_PortTraffic_1 :
    ∃ (i : RPort) (k : Nat) (s : State), s.portUp i = true ∧ s.contained i = false ∧ s.region i ≠ regionONLINE ∧ s.region i ≠
      regionFILLING ∧ (∀ h : Hart, (s.hart h).mmio.map (fun e => e.2) ≠ some (some i)) :=
  ⟨4, 2, ((wS [(R.RPRT_STATUS_WIDTH 4, 3)]).setPortSlot 4 { up := true }), by decide⟩

theorem test_met_PortTraffic_2 :
    ∃ (i : RPort) (k : Nat) (s : State), s.portUp i = true ∧ s.contained i = false ∧ s.region i = regionFILLING ∧ (∀ h : Hart,
      (s.hart h).mmio.map (fun e => e.2) ≠ some (some i)) :=
  ⟨4, 2,
   ((wS
       [(R.RPRT_STATUS_CXL 4, 1), (R.RPRT_STATUS_REGION_STATE 4, regionFILLING), (R.RPRT_CXL_REGION_BASE_GIB 4, 8),
        (R.RPRT_CXL_REGION_SIZE_GIB 4, 2), (R.RPRT_STATUS_WIDTH 4, 3)]).setPortSlot 4 { up := true }), by decide⟩

theorem test_met_PortTraffic_3 :
    ∃ (i : RPort) (k : Nat) (s : State), s.portUp i = true ∧ s.contained i = false ∧ s.region i = regionONLINE ∧
      s.home.sweeps.all (fun w => (match w.u with | .cxlRegion j _ => j != i | _ => true)) = true ∧ (∀ h : Hart, (s.hart
      h).mmio.map (fun e => e.2) ≠ some (some i)) :=
  ⟨4, 2,
   ((wS
       [(R.RPRT_STATUS_CXL 4, 1), (R.RPRT_STATUS_REGION_STATE 4, regionONLINE), (R.RPRT_CXL_REGION_BASE_GIB 4, 8),
        (R.RPRT_CXL_REGION_SIZE_GIB 4, 2), (R.RPRT_STATUS_WIDTH 4, 3)]).setPortSlot 4 { up := true }), by decide⟩

theorem test_met_PortTraffic_4 :
    ∃ (i : RPort) (k : Nat) (s : State), s.portUp i = true ∧ s.contained i = false ∧ s.region i ≠ regionONLINE ∧ s.region i ≠
      regionFILLING ∧ s.get (R.RPRT_CTL_FAULT_ON_CONTAINED i) = 0 :=
  ⟨4, 2,
   ((((wS [(R.RPRT_STATUS_WIDTH 4, 3)]).setPortSlot 4 { up := true })).setHart 100
      { mmio := some ({ plainAccess 0x7000000000 4 with priv := .hs }, some 4) }), by decide⟩

theorem test_met_PortTraffic_5 :
    ∃ (h : Hart) (x : Access) (i : RPort) (k : Nat) (s : State), s.portUp i = true ∧ s.contained i = false ∧ s.get
      (R.RPRT_CTL_FAULT_ON_CONTAINED i) = 1 ∧ (s.hart h).mmio = some (x, some i) ∧ (s.reachHart .m x.ga).isEcam = false ∧
      s.demands h = false ∧ x.elem = none :=
  ⟨100, { plainAccess 0x7000000000 4 with priv := .hs }, 4, 2,
   ((((wS [(R.RPRT_STATUS_WIDTH 4, 3), (R.RPRT_CTL_FAULT_ON_CONTAINED 4, 1)]).setPortSlot 4 { up := true })).setHart 100
      { mmio := some ({ plainAccess 0x7000000000 4 with priv := .hs }, some 4) }), by decide⟩

theorem test_met_PortTraffic_6 :
    ∃ (i : RPort) (k : Nat) (s : State), (s.portUp i = false ∨ s.contained i = true) :=
  ⟨4, 2, wS [(R.RPRT_STATUS_CONTAINED 4, 1)], by decide⟩

theorem test_met_PortTraffic_7 :
    ∃ (i : RPort) (s : State), s.contained i = true :=
  ⟨4, wS [(R.RPRT_STATUS_WIDTH 4, 3), (R.RPRT_STATUS_CONTAINED 4, 1)], by decide⟩

theorem test_met_PortTraffic_8 :
    ∃ (i : RPort) (s : State), s.contained i = false :=
  ⟨4, wS [], by decide⟩

theorem test_met_PortTraffic_9 :
    ∃ (i : RPort) (s : State), (s.portSlot i).holding = true :=
  ⟨4, ((wS [(R.RPRT_STATUS_WIDTH 4, 3)]).setPortSlot 4 { holding := true }), by decide⟩

theorem test_met_PortTraffic_10 :
    ∃ (i : RPort) (s : State), (s.portSlot i).holding = false :=
  ⟨4, wS [], by decide⟩

theorem test_met_PortTraffic_11 :
    ∃ (h : Hart) (x : Access) (i : RPort) (s : State), (s.hart h).mmio = some (x, some i) ∧ ((s.reachHart .m x.ga).isEcam = true
      ∨ s.get (R.RPRT_CTL_FAULT_ON_CONTAINED i) = 0) :=
  ⟨100, { plainAccess 0x7000000000 4 with priv := .hs }, 4,
   ((wS [(R.RPRT_STATUS_WIDTH 4, 3)]).setHart 100 { mmio := some ({ plainAccess 0x7000000000 4 with priv := .hs }, some 4) }),
   by decide⟩

theorem test_met_PortTraffic_12 :
    ∃ (h : Hart) (x : Access) (i : RPort) (s : State), (s.hart h).mmio = some (x, some i) ∧ (s.reachHart .m x.ga).isEcam = false
      ∧ s.get (R.RPRT_CTL_FAULT_ON_CONTAINED i) = 1 ∧ s.demands h = false ∧ x.elem = none :=
  ⟨100, { plainAccess 0x7000000000 4 with priv := .hs }, 4,
   ((wS [(R.RPRT_STATUS_WIDTH 4, 3), (R.RPRT_CTL_FAULT_ON_CONTAINED 4, 1)]).setHart 100
      { mmio := some ({ plainAccess 0x7000000000 4 with priv := .hs }, some 4) }), by decide⟩

theorem test_met_PortTraffic_13 :
    ∃ (h : Hart) (s : State), (s.hart h).mmio.bind (fun e => e.2) = none :=
  ⟨100, wS [], by decide⟩

theorem test_met_PortTraffic_14 :
    ∃ (h : Hart) (x : Access) (i : RPort) (ok : Bool) (v : Nat) (s : State), (s.hart h).mmio = some (x, some i) :=
  ⟨100, { plainAccess 0x7000000000 4 with priv := .hs }, 4, true, 0x1122334455,
   ((wS [(R.RPRT_STATUS_WIDTH 4, 3)]).setHart 100 { mmio := some ({ plainAccess 0x7000000000 4 with priv := .hs }, some 4) }),
   by decide⟩

theorem test_met_PortTraffic_15 :
    ∃ (h : Hart) (ok : Bool) (v : Nat) (s : State), (s.hart h).mmio.bind (fun e => e.2) = none :=
  ⟨100, true, 7, wS [], by decide⟩

theorem test_met_PortTraffic_16 :
    ∃ (i : RPort) (rid : Nat) (n ga : Nat) (k : Nat) (r w : Bool) (s : State), s.portUp i = true ∧ s.contained i = false ∧ 0 < n
      ∧ (s.reachDevice ga).isMem = true ∧ (s.reachDevice (ga + (n - 1))).isMem = true ∧ s.io.reqs = [] :=
  ⟨4, 0x200, 100, 0x40010, 0, true, true, wS [(R.RPRT_STATUS_WIDTH 4, 3)], by decide⟩

theorem test_met_PortTraffic_17 :
    ∃ (i : RPort) (rid : Nat) (ga : Nat) (b : List Nat) (rlx psn : Bool) (k : Nat) (r w : Bool) (s : State), s.portUp i = true ∧
      s.contained i = false ∧ 0 < b.length ∧ (s.reachDevice ga).isMem = true ∧ (s.reachDevice (ga + (b.length - 1))).isMem =
      true ∧ s.io.reqs = [] :=
  ⟨4, 0x200, 0x40020, List.replicate 100 7, false, true, 0, true, true, wS [(R.RPRT_STATUS_WIDTH 4, 3)], by decide⟩

theorem test_met_PortTraffic_18 :
    ∃ (i : RPort) (rid : Nat) (ga aop asize v cmp : Nat) (k : Nat) (r w : Bool) (s : State), s.portUp i = true ∧ s.contained i =
      false ∧ atomicLegal aop asize (ga % 64) = true ∧ (s.reachDevice ga).isMem = true ∧ (s.reachDevice (ga + (4 * 2 ^ asize
      - 1))).isMem = true ∧ s.io.reqs = [] :=
  ⟨4, 0x200, 0x40020, 0, 1, 77, 0, 0, true, true, wS [(R.RPRT_STATUS_WIDTH 4, 3)], by decide⟩

theorem test_met_PortTraffic_19 :
    ∃ (i : RPort) (rid : Nat) (ga aop asize v cmp : Nat) (k : Nat) (r w : Bool) (s : State), s.portUp i = true ∧ s.contained i =
      false ∧ atomicLegal aop asize (ga % 64) = false ∧ (s.reachDevice ga).isMem = true ∧ (s.reachDevice (ga + (4 * 2 ^
      asize - 1))).isMem = true :=
  ⟨4, 0x200, 0x40020, 15, 1, 77, 0, 0, true, true, wS [(R.RPRT_STATUS_WIDTH 4, 3)], by decide⟩

theorem test_met_PortTraffic_20 :
    ∃ (i : RPort) (rid : Nat) (x : Dma) (s : State), s.portUp i = true ∧ s.contained i = false ∧ s.iommuBits 0x48 48 1 = 0 ∧
      dmaPoisoned x = false :=
  ⟨4, 0x200, .read 8, wS [(R.RPRT_STATUS_WIDTH 4, 3)], by decide⟩

theorem test_met_PortTraffic_21 :
    ∃ (i : RPort) (rid : Nat) (n ga : Nat) (k : Nat) (r w : Bool) (s : State), s.portUp i = true ∧ s.contained i = false ∧
      (s.reachDevice ga).isMem = false :=
  ⟨4, 0x200, 8, 0xE0000000000, 0, true, true, wS [(R.RPRT_STATUS_WIDTH 4, 3)], by decide⟩

theorem test_met_PortTraffic_22 :
    ∃ (i : RPort) (rid : Nat) (b : List Nat) (rlx : Bool) (ga : Nat) (k : Nat) (r w : Bool) (s : State), s.portUp i = true ∧
      s.contained i = false ∧ (s.reachDevice ga).isMem = false :=
  ⟨4, 0x200, [1, 2], false, 0xE0000000000, 0, true, true, wS [(R.RPRT_STATUS_WIDTH 4, 3)], by decide⟩

theorem test_met_PortTraffic_23 :
    ∃ (i : RPort) (rid : Nat) (ga aop asize v cmp : Nat) (k : Nat) (r w : Bool) (s : State), s.portUp i = true ∧ s.contained i =
      false ∧ (s.reachDevice ga).isMem = false :=
  ⟨4, 0x200, 0xE0000000000, 0, 1, 77, 0, 0, true, true, wS [(R.RPRT_STATUS_WIDTH 4, 3)], by decide⟩

theorem test_met_PortTraffic_24 :
    ∃ (i : RPort) (rid : Nat) (x : Dma) (l : Xlate) (s : State), (s.portUp i = false ∨ s.contained i = true) :=
  ⟨4, 0x200, .read 8, .fault, wS [(R.RPRT_STATUS_CONTAINED 4, 1)], by decide⟩

theorem test_met_PortTraffic_25 :
    ∃ (i : RPort) (rid a v : Nat) (h f id : Nat) (s : State), s.portUp i = true ∧ s.reachDevice a = .irq ∧ h = (a % 2 ^ 44 -
      irqBase) / 0x20000 ∧ f = (a % 2 ^ 44 - irqBase) / 0x1000 % 32 ∧ id = (if a % 0x1000 = 0 then v % 2 ^ 32 else
      byteSwap32 v) ∧ isSetPending (a % 2 ^ 44) = true ∧ s.fileOpen h = true ∧ 1 ≤ id ∧ id ≤ 2047 :=
  ⟨4, 0x200, irqBase + 3 * 0x20000 + 0x2000, 77, 3, 2, 77,
   wS [(R.RPRT_STATUS_WIDTH 4, 3), (R.VALE_CORE_STATUS_STATE 0 3, 0)], by decide⟩

theorem test_met_PortTraffic_26 :
    ∃ (i : RPort) (rid a v : Nat) (h : Nat) (s : State), s.portUp i = true ∧ s.reachDevice a = .irq ∧ h = (a % 2 ^ 44 - irqBase)
      / 0x20000 ∧ isSetPending (a % 2 ^ 44) = true ∧ s.fileOpen h = false ∧ s.get R.IOMMU_MSI_DROPS_DROPS < 2 ^ 32 - 2 ∧ h <
      2 ^ 9 ∧ rid < 2 ^ 16 :=
  ⟨4, 0x200, irqBase + 3 * 0x20000 + 0x2000, 77, 3,
   wS [(R.RPRT_STATUS_WIDTH 4, 3), (R.VALE_CORE_STATUS_STATE 0 3, 2)], by decide⟩

theorem test_met_PortTraffic_27 :
    ∃ (i : RPort) (rid a v : Nat) (s : State), s.portUp i = true ∧ (s.reachDevice a).isMem = true ∧ s.io.reqs = [] ∧ a % 64 ≤ 60 :=
  ⟨4, 0x200, 0x40010, 77, wS [(R.RPRT_STATUS_WIDTH 4, 3)], by decide⟩

theorem test_met_PortTraffic_28 :
    ∃ (i : RPort) (rid a v : Nat) (s : State), s.portUp i = true ∧ (s.reachDevice a).isMem = false ∧ (isSetPending (a % 2 ^ 44)
      = false ∨ ∃ c : Fin 16, s.reachDevice a = .fault c) :=
  ⟨4, 0x200, 0xE0000000000, 77, wS [(R.RPRT_STATUS_WIDTH 4, 3)], by decide⟩

theorem test_met_PortTraffic_29 :
    ∃ (i : RPort) (rid v : Nat) (s : State), s.portUp i = true ∧ rid < 2 ^ 16 ∧ s.iommuBits 0x48 48 1 = 0 ∧ s.get
      R.IOMMU_MSI_DROPS_DROPS < 2 ^ 32 - 2 :=
  ⟨4, 0x200, 77, wS [(R.RPRT_STATUS_WIDTH 4, 3)], by decide⟩

theorem test_met_PortTraffic_30 :
    ∃ (i : RPort) (rid v : Nat) (a : Option Nat) (s : State), s.portUp i = false :=
  ⟨4, 0x200, 77, none, wS [(R.RPRT_STATUS_WIDTH 4, 0)], by decide⟩

theorem test_met_PortTraffic_31 :
    ∃ (k : Fin 1024) (b : Bool) (s : State), 1 ≤ k.val ∧ k.val ≤ 128 ∧ (s.io.aplic.testBit k = b ∨ (s.aplicSource k).2 < 4 ∨
      ((s.aplicSource k).2 = 4 ∧ b = false) ∨ ((s.aplicSource k).2 = 5 ∧ b = true)) :=
  ⟨17, false, wS [], by decide⟩

theorem test_met_PortTraffic_32 :
    ∃ (k : Fin 1024) (b : Bool) (d m : Nat) (s : State), 1 ≤ k.val ∧ k.val ≤ 128 ∧ s.io.aplic.testBit k = !b ∧ s.aplicSource k =
      (d, m) ∧ (((m = 4 ∨ m = 6) ∧ b = true) ∨ ((m = 5 ∨ m = 7) ∧ b = false)) ∧ ((s.aplic d (0x1E00 + 4 * (k.val /
      32))).testBit (k.val % 32) = false ∨ (s.aplic d 0).testBit 8 = false) :=
  ⟨17, true, 0, 4, (wS []).setAplic 0 68 4, by decide⟩

theorem test_met_PortTraffic_33 :
    ∃ (k : Fin 1024) (b : Bool) (d m e h : Nat) (s : State), 1 ≤ k.val ∧ k.val ≤ 128 ∧ s.io.aplic.testBit k = !b ∧ s.aplicSource
      k = (d, m) ∧ (((m = 4 ∨ m = 6) ∧ b = true) ∨ ((m = 5 ∨ m = 7) ∧ b = false)) ∧ (s.aplic d (0x1E00 + 4 * (k.val /
      32))).testBit (k.val % 32) = true ∧ (s.aplic d 0).testBit 8 = true ∧ e = s.aplic d (0x3000 + 4 * k.val) ∧ h = bits e
      18 14 ∧ h < 384 ∧ s.fileOpen h = true ∧ 1 ≤ e % 2 ^ 11 :=
  ⟨17, true, 0, 4, 0xC0005, 3,
   ((((wS [(R.VALE_CORE_STATUS_STATE 0 3, 0)]).setAplic 0 68 4).setAplic 0 0 0x100).setAplic 0 0x1E00 0x20000).setAplic 0
     0x3044 0xC0005, by decide⟩

theorem test_met_PortTraffic_34 :
    ∃ (k : Fin 1024) (b : Bool) (d m : Nat) (s : State), 1 ≤ k.val ∧ k.val ≤ 128 ∧ s.io.aplic.testBit k = !b ∧ s.aplicSource k =
      (d, m) ∧ ((m = 6 ∧ b = false) ∨ (m = 7 ∧ b = true)) :=
  ⟨17, true, 0, 7, ((wS []).setAplic 0 68 7).setAplicPend 0 17 true, by decide⟩

theorem test_met_PortTraffic_35 :
    ∃ (k : Fin 1024) (b : Bool) (s : State), (k.val = 0 ∨ 128 < k.val) :=
  ⟨200, true, wS [], by decide⟩

theorem test_met_PortTraffic_36 :
    ∃ (a : Nat) (w : BitVec 32) (v h f id : Nat) (s : State), v = w.toNat ∧ a / 2 ^ 44 = s.pkgId ∧ isSetPending (a % 2 ^ 44) =
      true ∧ h = (a % 2 ^ 44 - irqBase) / 0x20000 ∧ f = (a % 2 ^ 44 - irqBase) / 0x1000 % 32 ∧ id = (if a % 0x1000 = 0 then
      v % 2 ^ 32 else byteSwap32 v) ∧ s.fileOpen h = true ∧ 1 ≤ id ∧ id ≤ 2047 :=
  ⟨irqBase + 3 * 0x20000 + 0x2004, 0x4D000000, 0x4D000000, 3, 2, 77, wS [(R.VALE_CORE_STATUS_STATE 0 3, 0)], by decide⟩

theorem test_met_PortTraffic_37 :
    ∃ (a : Nat) (w : BitVec 32) (v h f id : Nat) (s : State), v = w.toNat ∧ a / 2 ^ 44 = s.pkgId ∧ isSetPending (a % 2 ^ 44) =
      true ∧ h = (a % 2 ^ 44 - irqBase) / 0x20000 ∧ f = (a % 2 ^ 44 - irqBase) / 0x1000 % 32 ∧ id = (if a % 0x1000 = 0 then
      v % 2 ^ 32 else byteSwap32 v) ∧ (s.fileOpen h = true ∧ (id = 0 ∨ 2047 < id)) :=
  ⟨irqBase + 3 * 0x20000 + 0x2000, 0, 0, 3, 2, 0, wS [(R.VALE_CORE_STATUS_STATE 0 3, 0)], by decide⟩

theorem test_met_PortTraffic_38 :
    ∃ (a : Nat) (w : BitVec 32) (v h f id : Nat) (s : State), v = w.toNat ∧ a / 2 ^ 44 = s.pkgId ∧ isSetPending (a % 2 ^ 44) =
      true ∧ h = (a % 2 ^ 44 - irqBase) / 0x20000 ∧ f = (a % 2 ^ 44 - irqBase) / 0x1000 % 32 ∧ id = (if a % 0x1000 = 0 then
      v % 2 ^ 32 else byteSwap32 v) ∧ s.fileOpen h = false :=
  ⟨irqBase + 3 * 0x20000 + 0x2000, 77, 77, 3, 2, 77, wS [(R.VALE_CORE_STATUS_STATE 0 3, 2)], by decide⟩

theorem test_met_PortTraffic_39 :
    ∃ (a : Nat) (w : BitVec 32) (s : State), (a / 2 ^ 44 ≠ s.pkgId ∨ isSetPending (a % 2 ^ 44) = false) :=
  ⟨0x40000, 7, wS [], by decide⟩

theorem test_met_Counters_1 :
    ∃ (b : Fin 354) (j : Fin 32) (v : Word) (s : State), s.ctrOpen b j = true :=
  ⟨241, 3, 0x10000000005, wS [(R.CCOL_COUNT_COUNT 241 3, 77)], by decide⟩

theorem test_met_Counters_2 :
    ∃ (b : Fin 354) (j : Fin 32) (v : Word) (s : State), s.ctrOpen b j = false :=
  ⟨241, 9, 5, wS [], by decide⟩

theorem test_met_Counters_3 :
    ∃ (b : Fin 354) (j : Fin 32) (s : State), s.ctrOpen b j = true :=
  ⟨241, 3, wS [(R.CCOL_COUNT_COUNT 241 3, 77)], by decide⟩

theorem test_met_Counters_4 :
    ∃ (b : Fin 354) (j : Fin 32) (s : State), s.ctrOpen b j = false :=
  ⟨241, 9, wS [], by decide⟩

theorem test_met_Counters_5 :
    ∃ (b : Fin 354) (j : Fin 32) (v : Word) (s : State), s.ctrOpen b j = true :=
  ⟨241, 3, 0x1000000000005, wS [(R.CCOL_COUNT_OVF 241 3, 1)], by decide⟩

theorem test_met_Counters_6 :
    ∃ (b : Fin 354) (j : Fin 32) (v : Word) (s : State), s.ctrOpen b j = false :=
  ⟨241, 9, 5, wS [], by decide⟩

theorem test_met_Counters_7 :
    ∃ (s : State), True :=
  ⟨wS [], by decide⟩

theorem test_met_Counters_8 :
    ∃ (s : State), True :=
  ⟨wS [(R.CCOL_CTL_FREEZE, 1)], by decide⟩

theorem test_met_Counters_9 :
    ∃ (b : Nat) (u : State) (bs : List Nat) (n : Nat) (s : State), s.Sweeps b u bs n ∧ u.ccol.writing = 0 ∧ u.sweepUsed +
      bs.length ≤ 2 ^ u.get R.CCOL_RING_SIZE_LOG2_BYTES ∧ u.io.reqs = [] ∧ (∀ i ∈ List.range n, (u.reachDevice (u.sweepAt
      i)).isMem = true) :=
  ⟨0, (wS [(R.CCOL_CTL_SWEEP_ENABLE, 1), (R.CCOL_RING_SIZE_LOG2_BYTES, 16), (R.CCOL_RING_BASE_BASE, 16)]).elapseTo 0,
   (((wS [(R.CCOL_CTL_SWEEP_ENABLE, 1), (R.CCOL_RING_SIZE_LOG2_BYTES, 16), (R.CCOL_RING_BASE_BASE, 16)]).elapseTo 0).sweepBytes
      0).1, 1, wS [(R.CCOL_CTL_SWEEP_ENABLE, 1), (R.CCOL_RING_SIZE_LOG2_BYTES, 16), (R.CCOL_RING_BASE_BASE, 16)],
   by decide⟩

theorem test_met_Counters_10 :
    ∃ (b : Nat) (u : State) (bs : List Nat) (n : Nat) (s : State), s.Sweeps b u bs n ∧ u.ccol.writing = 0 ∧ u.sweepUsed +
      bs.length ≤ 2 ^ u.get R.CCOL_RING_SIZE_LOG2_BYTES ∧ 0 < n ∧ (u.reachDevice (u.sweepAt 0)).isMem = false :=
  ⟨0,
   (wS [(R.CCOL_CTL_SWEEP_ENABLE, 1), (R.CCOL_RING_SIZE_LOG2_BYTES, 16), (R.CCOL_RING_BASE_BASE, 0xE0000000)]).elapseTo 0,
   (((wS [(R.CCOL_CTL_SWEEP_ENABLE, 1), (R.CCOL_RING_SIZE_LOG2_BYTES, 16), (R.CCOL_RING_BASE_BASE, 0xE0000000)]).elapseTo 0).sweepBytes
      0).1, 1, wS [(R.CCOL_CTL_SWEEP_ENABLE, 1), (R.CCOL_RING_SIZE_LOG2_BYTES, 16), (R.CCOL_RING_BASE_BASE, 0xE0000000)],
   by decide⟩

theorem test_met_Counters_11 :
    ∃ (b : Nat) (u : State) (bs : List Nat) (n : Nat) (s : State), s.Sweeps b u bs n ∧ (u.ccol.writing ≠ 0 ∨ 2 ^ u.get
      R.CCOL_RING_SIZE_LOG2_BYTES < u.sweepUsed + bs.length) :=
  ⟨0,
   (({ wS [(R.CCOL_CTL_SWEEP_ENABLE, 1), (R.CCOL_RING_SIZE_LOG2_BYTES, 16), (R.CCOL_RING_BASE_BASE, 16)] with
         ccol := { writing := 3, done := 1, len := 192 } } : State)).elapseTo 0,
   (((({ wS [(R.CCOL_CTL_SWEEP_ENABLE, 1), (R.CCOL_RING_SIZE_LOG2_BYTES, 16), (R.CCOL_RING_BASE_BASE, 16)] with
           ccol := { writing := 3, done := 1, len := 192 } } : State)).elapseTo 0).sweepBytes 0).1, 1,
   { wS [(R.CCOL_CTL_SWEEP_ENABLE, 1), (R.CCOL_RING_SIZE_LOG2_BYTES, 16), (R.CCOL_RING_BASE_BASE, 16)] with
       ccol := { writing := 3, done := 1, len := 192 } }, by decide⟩

theorem test_met_Counters_12 :
    ∃ (s : State), s.get R.CCOL_CTL_SWEEP_ENABLE = 0 :=
  ⟨wS [], by decide⟩

theorem test_met_PacketsAndIngresses_1 :
    ∃ (g : Ingress) (k : Pkt) (s : State), s.ingUp g = true ∧ k.typ = 0 ∧ pktOk k = true ∧ s.Queues g k :=
  ⟨.mbox, { version := 3, typ := 0, tag := 5, opcode := opGET_INFO },
   { wS [] with
       tvx :=
         { alive := true, running := true,
           queue := [{ ing := .msl, pkt := { version := 3, typ := 0, tag := 5, opcode := opGET_INFO } }] } }, by decide⟩

theorem test_met_PacketsAndIngresses_2 :
    ∃ (g : Ingress) (k : Pkt) (s : State), s.ingUp g = true ∧ k.typ = 0 ∧ pktOk k = true ∧ s.Meets k ∧ (s.ing g).frozen = false
      ∧ s.tvx.queue = [] ∧ opRuns s.tvx.recovery k.version k.opcode = false :=
  ⟨.mbox, { version := 3, typ := 0, tag := 5, opcode := 0x99 }, { wS [] with tvx := { alive := true, running := true } },
   by decide⟩

theorem test_met_PacketsAndIngresses_3 :
    ∃ (g : Ingress) (k : Pkt) (s : State), s.ingUp g = true ∧ k.typ = 0 ∧ pktOk k = true ∧ 1 ≤ k.version ∧ k.version ≤ 3 ∧
      s.tvx.longOp = none ∧ s.tvx.recovery = false ∧ opImmediate k.version k.opcode = true :=
  ⟨.msl, { version := 3, typ := 0, tag := 5, opcode := opQUERY_TAG },
   { wS [] with tvx := { alive := true, running := true } }, by decide⟩

theorem test_met_PacketsAndIngresses_4 :
    ∃ (g : Ingress) (k : Pkt) (s : State), s.ingUp g = true ∧ k.typ = 0 ∧ pktOk k = true ∧ s.Meets k ∧ (s.ing g).frozen = true :=
  ⟨.msl, { version := 3, typ := 0, tag := 5, opcode := opGET_INFO },
   { wS [] with tvx := { alive := true, running := true, msl := { frozen := true } } }, by decide⟩

theorem test_met_PacketsAndIngresses_5 :
    ∃ (g : Ingress) (k : Pkt) (s : State), s.ingUp g = true ∧ k.typ = 0 ∧ pktOk k = true ∧ s.Meets k ∧ (s.ing g).frozen = false
      ∧ 32 ≤ (s.queuedOf g).length :=
  ⟨.msl, { version := 3, typ := 0, tag := 5, opcode := opGET_INFO },
   { wS [] with
       tvx :=
         { alive := true, running := true,
           queue := List.replicate 32 ({ ing := .msl, pkt := { version := 3, typ := 0, tag := 5, opcode := opGET_INFO } }) } },
   by decide⟩

theorem test_met_PacketsAndIngresses_6 :
    ∃ (g : Ingress) (k : Pkt) (s : State), s.ingUp g = true ∧ k.typ = 0 ∧ pktOk k = true ∧ s.Meets k ∧ (s.ing g).frozen = false
      ∧ (s.queuedOf g).length < 32 ∧ s.tagBusy g k.tag = true :=
  ⟨.msl, { version := 3, typ := 0, tag := 5, opcode := opGET_INFO },
   { wS [] with
       tvx :=
         { alive := true, running := true,
           queue := [{ ing := .msl, pkt := { version := 3, typ := 0, tag := 5, opcode := opGET_INFO } }] } }, by decide⟩

theorem test_met_PacketsAndIngresses_7 :
    ∃ (g : Ingress) (k : Pkt) (s : State), s.ingUp g = true ∧ k.typ = 0 ∧ pktOk k = true ∧ (k.version = 0 ∨ 3 < k.version) :=
  ⟨.msl, { version := 4, typ := 0, tag := 5, opcode := opGET_INFO },
   { wS [] with tvx := { alive := true, running := true } }, by decide⟩

theorem test_met_PacketsAndIngresses_8 :
    ∃ (g : Ingress) (k : Pkt) (s : State), s.ingUp g = true ∧ k.typ = 0 ∧ pktOk k = true ∧ ((k.version = 1 ∨ k.version = 2) ∧
      s.tvx.longOp ≠ none) :=
  ⟨.msl, { version := 2, typ := 0, tag := 5, opcode := opGET_INFO },
   { wS [] with
       tvx :=
         { alive := true, running := true,
           longOp :=
             some { cmd := { ing := .msl, pkt := { version := 3, typ := 0, tag := 5, opcode := opACTIVATE } }, start := 0 } } },
   by decide⟩

theorem test_met_PacketsAndIngresses_9 :
    ∃ (g : Ingress) (k : Pkt) (l : LongOp) (s : State), s.ingUp g = true ∧ k.typ = 0 ∧ pktOk k = true ∧ k.version = 3 ∧
      s.tvx.longOp = some l :=
  ⟨.msl, { version := 3, typ := 0, tag := 5, opcode := opGET_INFO },
   { cmd := { ing := .msl, pkt := { version := 3, typ := 0, tag := 5, opcode := opACTIVATE } }, start := 0 },
   { wS [] with
       tvx :=
         { alive := true, running := true,
           longOp :=
             some { cmd := { ing := .msl, pkt := { version := 3, typ := 0, tag := 5, opcode := opACTIVATE } }, start := 0 } } },
   by decide⟩

theorem test_met_PacketsAndIngresses_10 :
    ∃ (g : Ingress) (k : Pkt) (s : State), (s.ingUp g = false ∨ k.typ ≠ 0 ∨ pktOk k = false) :=
  ⟨.mbox, { version := 3, typ := 0, tag := 5, opcode := opGET_INFO }, wS [], by decide⟩

theorem test_met_PacketsAndIngresses_11 :
    ∃ (bytes : List Nat) (k : Pkt) (s : State), bytes ≠ [] ∧ s.ingUp .msl = true ∧ k.typ = 0 ∧ pktOk k = true ∧ k.wf = true ∧
      unstuff bytes = some (pktBytes k ++ leBytes 4 (crc32c (pktBytes k))) ∧ s.Queues .msl k :=
  ⟨pktBytes ({ version := 3, typ := 0, tag := 5, opcode := opGET_INFO }) ++ leBytes 4
     (crc32c (pktBytes ({ version := 3, typ := 0, tag := 5, opcode := opGET_INFO }))),
   { version := 3, typ := 0, tag := 5, opcode := opGET_INFO }, { wS [] with tvx := { alive := true, running := true } },
   by decide⟩

theorem test_met_PacketsAndIngresses_12 :
    ∃ (bytes p : List Nat) (k : Pkt) (s : State), bytes ≠ [] ∧ s.ingUp .msl = true ∧ unstuff bytes = some (p ++ leBytes 4
      (crc32c p)) ∧ 16 ≤ p.length ∧ p.length ≤ 4112 ∧ k = pktOf p ∧ k.typ = 0 ∧ k.length + 16 = p.length :=
  ⟨pktBytes ({ version := 3, typ := 0, tag := 5, opcode := opGET_INFO }) ++ leBytes 4
     (crc32c (pktBytes ({ version := 3, typ := 0, tag := 5, opcode := opGET_INFO }))),
   pktBytes ({ version := 3, typ := 0, tag := 5, opcode := opGET_INFO }),
   { version := 3, typ := 0, tag := 5, opcode := opGET_INFO }, { wS [] with tvx := { alive := true, running := true } },
   by decide⟩

theorem test_met_PacketsAndIngresses_13 :
    ∃ (bytes p : List Nat) (k : Pkt) (s : State), bytes ≠ [] ∧ s.ingUp .msl = true ∧ unstuff bytes = some (p ++ leBytes 4
      (crc32c p)) ∧ 16 ≤ p.length ∧ p.length ≤ 4112 ∧ k = pktOf p ∧ k.typ = 3 ∧ k.length + 16 = p.length :=
  ⟨pktBytes ({ version := 3, typ := 3, tag := 5, opcode := opHOST_WRITE, length := 2, data := [9, 8] }) ++ leBytes 4
     (crc32c (pktBytes ({ version := 3, typ := 3, tag := 5, opcode := opHOST_WRITE, length := 2, data := [9, 8] }))),
   pktBytes ({ version := 3, typ := 3, tag := 5, opcode := opHOST_WRITE, length := 2, data := [9, 8] }),
   { version := 3, typ := 3, tag := 5, opcode := opHOST_WRITE, length := 2, data := [9, 8] },
   { wS [] with tvx := { alive := true, running := true } }, by decide⟩

theorem test_met_PacketsAndIngresses_14 :
    ∃ (bytes p : List Nat) (s : State), bytes ≠ [] ∧ s.ingUp .msl = true ∧ unstuff bytes = some (p ++ leBytes 4 (crc32c p)) ∧ 16
      ≤ p.length ∧ p.length ≤ 4112 ∧ (pktOf p).typ ≠ 0 ∧ (pktOf p).typ ≠ 3 ∧ (pktOf p).length + 16 = p.length :=
  ⟨pktBytes ({ version := 3, typ := 1, tag := 5, opcode := 1 }) ++ leBytes 4
     (crc32c (pktBytes ({ version := 3, typ := 1, tag := 5, opcode := 1 }))),
   pktBytes ({ version := 3, typ := 1, tag := 5, opcode := 1 }), { wS [] with tvx := { alive := true, running := true } },
   by decide⟩

theorem test_met_PacketsAndIngresses_15 :
    ∃ (bytes p : List Nat) (s : State), bytes ≠ [] ∧ s.ingUp .msl = true ∧ unstuff bytes = some (p ++ leBytes 4 (crc32c p)) ∧ 16
      ≤ p.length ∧ p.length ≤ 4112 ∧ (pktOf p).length + 16 ≠ p.length :=
  ⟨pktBytes ({ version := 3, typ := 0, tag := 5, opcode := 1, length := 3 }) ++ leBytes 4
     (crc32c (pktBytes ({ version := 3, typ := 0, tag := 5, opcode := 1, length := 3 }))),
   pktBytes ({ version := 3, typ := 0, tag := 5, opcode := 1, length := 3 }),
   { wS [] with tvx := { alive := true, running := true } }, by decide⟩

theorem test_met_PacketsAndIngresses_16 :
    ∃ (bytes p : List Nat) (n : Nat) (s : State), bytes ≠ [] ∧ s.ingUp .msl = true ∧ unstuff bytes = some (p ++ leBytes 4 n) ∧
      16 ≤ p.length ∧ p.length ≤ 4112 ∧ n < 2 ^ 32 ∧ n ≠ crc32c p :=
  ⟨List.replicate 20 1, List.replicate 16 1, 0x01010101, { wS [] with tvx := { alive := true, running := true } },
   by decide⟩

theorem test_met_PacketsAndIngresses_17 :
    ∃ (bytes bs : List Nat) (s : State), bytes ≠ [] ∧ s.ingUp .msl = true ∧ (unstuff bytes = some bs ∧ (bs.length < 20 ∨ 4116 <
      bs.length)) :=
  ⟨[1, 0x7D, 0x5E], [1, 0x7E], { wS [] with tvx := { alive := true, running := true } }, by decide⟩

theorem test_met_PacketsAndIngresses_18 :
    ∃ (bytes : List Nat) (s : State), bytes ≠ [] ∧ s.ingUp .msl = true ∧ unstuff bytes = none :=
  ⟨[1, 0x7D, 3], { wS [] with tvx := { alive := true, running := true } }, by decide⟩

theorem test_met_PacketsAndIngresses_19 :
    ∃ (bytes : List Nat) (s : State), (bytes = [] ∨ s.ingUp .msl = false) :=
  ⟨[], { wS [] with tvx := { alive := true, running := true } }, by decide⟩

theorem test_met_PacketsAndIngresses_20 :
    ∃ (n : Nat) (s : State), s.tvx.running = true ∧ s.get R.MBOX_STATUS_TX_BUSY = 0 ∧ 16 ≤ n ∧ n ≤ 4112 :=
  ⟨16, { wS [] with tvx := { alive := true, running := true } }, by decide⟩

theorem test_met_PacketsAndIngresses_21 :
    ∃ (n : Nat) (s : State), (s.tvx.running = false ∨ s.get R.MBOX_STATUS_TX_BUSY = 1 ∨ n < 16 ∨ 4112 < n) :=
  ⟨4113, { wS [] with tvx := { alive := true, running := true } }, by decide⟩

theorem test_met_PacketsAndIngresses_22 :
    ∃ (k : Pkt) (s : State), s.get R.MBOX_STATUS_TX_BUSY = 1 ∧ s.tvx.running = true ∧ k = pktOf (s.txBytes (s.get
      R.MBOX_TX_CTL_LENGTH)) ∧ k.typ = 0 ∧ k.length + 16 = s.get R.MBOX_TX_CTL_LENGTH ∧ s.Queues .mbox k :=
  ⟨{ version := 3, typ := 0, tag := 5, opcode := opGET_INFO },
   { wS [(R.MBOX_STATUS_TX_BUSY, 1), (R.MBOX_TX_CTL_LENGTH, 16), (⟨R.rMBOX_TX_BUF 0, 0, 64⟩, 0x0000000100050003)] with
       tvx := { running := true } }, by decide⟩

theorem test_met_PacketsAndIngresses_23 :
    ∃ (k : Pkt) (s : State), s.get R.MBOX_STATUS_TX_BUSY = 1 ∧ s.tvx.running = true ∧ k = pktOf (s.txBytes (s.get
      R.MBOX_TX_CTL_LENGTH)) ∧ k.typ = 0 ∧ k.length + 16 = s.get R.MBOX_TX_CTL_LENGTH ∧ k.length ≤ 4096 :=
  ⟨{ version := 3, typ := 0, tag := 5, opcode := 1 },
   { wS [(R.MBOX_STATUS_TX_BUSY, 1), (R.MBOX_TX_CTL_LENGTH, 16), (⟨R.rMBOX_TX_BUF 0, 0, 64⟩, 0x0000000100050003)] with
       tvx := { running := true } }, by decide⟩

theorem test_met_PacketsAndIngresses_24 :
    ∃ (k : Pkt) (s : State), s.get R.MBOX_STATUS_TX_BUSY = 1 ∧ s.tvx.running = true ∧ k = pktOf (s.txBytes (s.get
      R.MBOX_TX_CTL_LENGTH)) ∧ k.typ = 3 ∧ k.length + 16 = s.get R.MBOX_TX_CTL_LENGTH ∧ k.length ≤ 4096 :=
  ⟨{ version := 3, typ := 3, tag := 5, opcode := 1 },
   { wS [(R.MBOX_STATUS_TX_BUSY, 1), (R.MBOX_TX_CTL_LENGTH, 16), (⟨R.rMBOX_TX_BUF 0, 0, 64⟩, 0x0000000100050303)] with
       tvx := { running := true } }, by decide⟩

theorem test_met_PacketsAndIngresses_25 :
    ∃ (k : Pkt) (s : State), s.get R.MBOX_STATUS_TX_BUSY = 1 ∧ s.tvx.running = true ∧ k = pktOf (s.txBytes (s.get
      R.MBOX_TX_CTL_LENGTH)) ∧ ((k.typ ≠ 0 ∧ k.typ ≠ 3) ∨ k.length + 16 ≠ s.get R.MBOX_TX_CTL_LENGTH) :=
  ⟨{ version := 3, typ := 1, tag := 5, opcode := 1 },
   { wS [(R.MBOX_STATUS_TX_BUSY, 1), (R.MBOX_TX_CTL_LENGTH, 16), (⟨R.rMBOX_TX_BUF 0, 0, 64⟩, 0x0000000100050103)] with
       tvx := { running := true } }, by decide⟩

theorem test_met_PacketsAndIngresses_26 :
    ∃ (s : State), (s.get R.MBOX_STATUS_TX_BUSY ≠ 1 ∨ s.tvx.running = false) :=
  ⟨wS [], by decide⟩

theorem test_met_PacketsAndIngresses_27 :
    ∃ (s : State), True :=
  ⟨wS [(R.MBOX_STATUS_RX_VALID, 1)], by decide⟩

theorem test_met_PacketsAndIngresses_28 :
    ∃ (p : Pkt) (q : List Pkt) (s : State), s.tvx.mboxQ = p :: q ∧ s.tvx.running = true ∧ s.get R.MBOX_STATUS_RX_VALID = 0 ∧
      p.data.length ≤ 4096 ∧ p.wf = true :=
  ⟨{ version := 3, typ := 0, tag := 5, opcode := 1, data := [7, 8] }, [],
   { wS [] with
       tvx :=
         { alive := true, running := true, mboxQ := [{ version := 3, typ := 0, tag := 5, opcode := 1, data := [7, 8] }] } },
   by decide⟩

theorem test_met_PacketsAndIngresses_29 :
    ∃ (s : State), (s.tvx.mboxQ = [] ∨ s.tvx.running = false ∨ s.get R.MBOX_STATUS_RX_VALID ≠ 0) :=
  ⟨{ wS [] with tvx := { alive := true, running := true } }, by decide⟩

theorem test_met_PacketsAndIngresses_30 :
    ∃ (g : Ingress) (k : Pkt) (c : QCmd) (q : List QCmd) (s : State), s.ingUp g = true ∧ k.typ = 3 ∧ pktOk k = true ∧
      s.tvx.queue = c :: q ∧ c.ing = g ∧ c.xfer = true ∧ c.pkt.tag = k.tag ∧ k.opcode = c.pkt.opcode ∧ k.param =
      c.data.length ∧ k.length = c.due ∧ c.pkt.param = c.data.length + k.length :=
  ⟨.mbox, { version := 3, typ := 3, tag := 5, opcode := opHOST_WRITE, length := 2, data := [9, 8] },
   { ing := .mbox,
     pkt := { version := 3, typ := 0, tag := 5, opcode := opHOST_WRITE, length := 4, param := 2, data := [0, 0, 0, 0] },
     xfer := true }, [],
   { wS [] with
       tvx :=
         { alive := true, running := true,
           queue :=
             [{ ing := .mbox,
                pkt :=
                  { version := 3, typ := 0, tag := 5, opcode := opHOST_WRITE, length := 4, param := 2,
                    data := [0, 0, 0, 0] }, xfer := true }] } }, by decide⟩

theorem test_met_PacketsAndIngresses_31 :
    ∃ (g : Ingress) (k : Pkt) (c : QCmd) (q : List QCmd) (s : State), s.ingUp g = true ∧ k.typ = 3 ∧ pktOk k = true ∧
      s.tvx.queue = c :: q ∧ c.ing = g ∧ c.xfer = true ∧ c.pkt.tag = k.tag ∧ k.opcode = c.pkt.opcode ∧ k.param =
      c.data.length ∧ k.length = c.due ∧ c.data.length + k.length < c.pkt.param :=
  ⟨.mbox, { version := 3, typ := 3, tag := 5, opcode := opHOST_WRITE, length := 4096, data := List.replicate 4096 7 },
   { ing := .mbox,
     pkt := { version := 3, typ := 0, tag := 5, opcode := opHOST_WRITE, length := 4, param := 5000, data := [0, 0, 0, 0] },
     xfer := true }, [],
   { wS [] with
       tvx :=
         { alive := true, running := true,
           queue :=
             [{ ing := .mbox,
                pkt :=
                  { version := 3, typ := 0, tag := 5, opcode := opHOST_WRITE, length := 4, param := 5000,
                    data := [0, 0, 0, 0] }, xfer := true }] } }, by decide⟩

theorem test_met_PacketsAndIngresses_32 :
    ∃ (g : Ingress) (k : Pkt) (c : QCmd) (q : List QCmd) (s : State), s.ingUp g = true ∧ k.typ = 3 ∧ pktOk k = true ∧
      s.tvx.queue = c :: q ∧ c.ing = g ∧ c.xfer = true ∧ c.pkt.tag = k.tag ∧ s.headRuns (q.filter (fun x => x.ing != c.ing))
      = true ∧ (k.opcode ≠ c.pkt.opcode ∨ k.param ≠ c.data.length ∨ k.length ≠ c.due) :=
  ⟨.mbox, { version := 3, typ := 3, tag := 5, opcode := opHOST_WRITE, length := 2, data := [9, 8] },
   { ing := .mbox,
     pkt := { version := 3, typ := 0, tag := 5, opcode := opHOST_WRITE, length := 4, param := 3, data := [0, 0, 0, 0] },
     xfer := true },
   [{ ing := .mbox, pkt := { version := 3, typ := 0, tag := 7, opcode := opGET_INFO } },
    { ing := .msl, pkt := { version := 3, typ := 0, tag := 5, opcode := opGET_INFO } }],
   { wS [] with
       tvx :=
         { alive := true, running := true,
           queue :=
             [{ ing := .mbox,
                pkt :=
                  { version := 3, typ := 0, tag := 5, opcode := opHOST_WRITE, length := 4, param := 3,
                    data := [0, 0, 0, 0] }, xfer := true },
              { ing := .mbox, pkt := { version := 3, typ := 0, tag := 7, opcode := opGET_INFO } },
              { ing := .msl, pkt := { version := 3, typ := 0, tag := 5, opcode := opGET_INFO } }] } }, by decide⟩

theorem test_met_PacketsAndIngresses_33 :
    ∃ (g : Ingress) (k : Pkt) (s : State), s.ingUp g = true ∧ k.typ = 3 ∧ pktOk k = true ∧ s.tvx.queue.head?.all (fun c => c.ing
      != g || !c.xfer || c.pkt.tag != k.tag) = true ∧ g = .msl :=
  ⟨.msl, { version := 3, typ := 3, tag := 5, opcode := opHOST_WRITE, length := 2, data := [9, 8] },
   { wS [] with tvx := { alive := true, running := true } }, by decide⟩

theorem test_met_PacketsAndIngresses_34 :
    ∃ (g : Ingress) (k : Pkt) (s : State), s.ingUp g = true ∧ k.typ = 3 ∧ pktOk k = true ∧ s.tvx.queue.head?.all (fun c => c.ing
      != g || !c.xfer || c.pkt.tag != k.tag) = true ∧ g = .mbox :=
  ⟨.mbox, { version := 3, typ := 3, tag := 5, opcode := opHOST_WRITE, length := 2, data := [9, 8] },
   { wS [] with tvx := { alive := true, running := true } }, by decide⟩

theorem test_met_PacketsAndIngresses_35 :
    ∃ (g : Ingress) (k : Pkt) (s : State), (s.ingUp g = false ∨ k.typ ≠ 3 ∨ pktOk k = false) :=
  ⟨.mbox, { version := 3, typ := 3, tag := 5, opcode := opHOST_WRITE, length := 2, data := [9, 8] }, wS [], by decide⟩

theorem test_met_PacketsAndIngresses_36 :
    ∃ (c : QCmd) (q : List QCmd) (s : State), s.tvx.queue = c :: q ∧ c.xfer = true ∧ s.headRuns (q.filter (fun x => x.ing !=
      c.ing)) = true :=
  ⟨{ ing := .mbox,
     pkt := { version := 3, typ := 0, tag := 5, opcode := opHOST_WRITE, length := 4, param := 3, data := [0, 0, 0, 0] },
     xfer := true },
   [{ ing := .mbox, pkt := { version := 3, typ := 0, tag := 7, opcode := opGET_INFO } },
    { ing := .msl, pkt := { version := 3, typ := 0, tag := 5, opcode := opGET_INFO } }],
   { wS [] with
       tvx :=
         { alive := true, running := true,
           queue :=
             [{ ing := .mbox,
                pkt :=
                  { version := 3, typ := 0, tag := 5, opcode := opHOST_WRITE, length := 4, param := 3,
                    data := [0, 0, 0, 0] }, xfer := true },
              { ing := .mbox, pkt := { version := 3, typ := 0, tag := 7, opcode := opGET_INFO } },
              { ing := .msl, pkt := { version := 3, typ := 0, tag := 5, opcode := opGET_INFO } }] } }, by decide⟩

theorem test_met_PacketsAndIngresses_37 :
    ∃ (s : State), s.tvx.queue.head?.all (fun c => !c.xfer) = true :=
  ⟨{ wS [] with tvx := { alive := true, running := true } }, by decide⟩

theorem test_met_ImmediateCommands_1 :
    ∃ (g : Ingress) (k : Pkt) (q : List Pkt) (r : Pkt) (s : State), s.Serves g opQUERY_TAG k q ∧ k.data ≠ [] ∧ Tbl.get (fun _ =>
      none) (s.ing g).stored (k.data.headD 0) = some r :=
  ⟨.mbox, { version := 3, typ := 0, tag := 9, opcode := opQUERY_TAG, length := 1, data := [5] }, [],
   rspPkt ({ version := 3, typ := 0, tag := 5, opcode := opGET_INFO }) stOK 0 [1, 2],
   { wS [] with
       tvx :=
         { alive := true, running := true,
           mbox :=
             { imm := [{ version := 3, typ := 0, tag := 9, opcode := opQUERY_TAG, length := 1, data := [5] }],
               stored := [(5, some (rspPkt ({ version := 3, typ := 0, tag := 5, opcode := opGET_INFO }) stOK 0 [1, 2]))] } } },
   by decide⟩

theorem test_met_ImmediateCommands_2 :
    ∃ (g : Ingress) (k : Pkt) (q : List Pkt) (s : State), s.Serves g opQUERY_TAG k q ∧ k.data ≠ [] ∧ Tbl.get (fun _ => none)
      (s.ing g).stored (k.data.headD 0) = none :=
  ⟨.mbox, { version := 3, typ := 0, tag := 9, opcode := opQUERY_TAG, length := 1, data := [5] }, [],
   { wS [] with
       tvx :=
         { alive := true, running := true,
           mbox := { imm := [{ version := 3, typ := 0, tag := 9, opcode := opQUERY_TAG, length := 1, data := [5] }] },
           queue := [{ ing := .mbox, pkt := { version := 3, typ := 0, tag := 5, opcode := opGET_INFO } }] } }, by decide⟩

theorem test_met_ImmediateCommands_3 :
    ∃ (g : Ingress) (k : Pkt) (q : List Pkt) (c : QCmd) (s : State), s.Serves g opABORT k q ∧ k.data ≠ [] ∧ s.tvx.queue.find?
      (fun x => x.ing == g && x.pkt.tag == (k.data.headD 0)) = some c ∧ c.past = false ∧ s.headRuns (s.tvx.queue.erase c) =
      true :=
  ⟨.mbox, { version := 3, typ := 0, tag := 9, opcode := opABORT, length := 1, data := [5] }, [],
   { ing := .mbox, pkt := { version := 3, typ := 0, tag := 5, opcode := opGET_INFO } },
   { wS [] with
       tvx :=
         { alive := true, running := true,
           mbox := { imm := [{ version := 3, typ := 0, tag := 9, opcode := opABORT, length := 1, data := [5] }] },
           queue :=
             [{ ing := .msl, pkt := { version := 3, typ := 0, tag := 5, opcode := opGET_INFO } },
              { ing := .mbox, pkt := { version := 3, typ := 0, tag := 5, opcode := opGET_INFO } }] } }, by decide⟩

theorem test_met_ImmediateCommands_4 :
    ∃ (g : Ingress) (k : Pkt) (q : List Pkt) (c : QCmd) (s : State), s.Serves g opABORT k q ∧ k.data ≠ [] ∧ s.tvx.queue.find?
      (fun x => x.ing == g && x.pkt.tag == (k.data.headD 0)) = some c ∧ c.past = true :=
  ⟨.mbox, { version := 3, typ := 0, tag := 9, opcode := opABORT, length := 1, data := [5] }, [],
   { ing := .mbox,
     pkt := { version := 3, typ := 0, tag := 5, opcode := opHOST_WRITE, length := 4, param := 1, data := [0, 0, 0, 0] },
     data := [1] },
   { wS [] with
       tvx :=
         { alive := true, running := true,
           mbox := { imm := [{ version := 3, typ := 0, tag := 9, opcode := opABORT, length := 1, data := [5] }] },
           queue :=
             [{ ing := .mbox,
                pkt :=
                  { version := 3, typ := 0, tag := 5, opcode := opHOST_WRITE, length := 4, param := 1,
                    data := [0, 0, 0, 0] }, data := [1] }] } }, by decide⟩

theorem test_met_ImmediateCommands_5 :
    ∃ (g : Ingress) (k : Pkt) (q : List Pkt) (s : State), s.Serves g opABORT k q ∧ k.data ≠ [] ∧ s.tagBusy g (k.data.headD 0) =
      false :=
  ⟨.mbox, { version := 3, typ := 0, tag := 9, opcode := opABORT, length := 1, data := [5] }, [],
   { wS [] with
       tvx :=
         { alive := true, running := true,
           mbox := { imm := [{ version := 3, typ := 0, tag := 9, opcode := opABORT, length := 1, data := [5] }] },
           queue := [{ ing := .msl, pkt := { version := 3, typ := 0, tag := 5, opcode := opGET_INFO } }] } }, by decide⟩

theorem test_met_ImmediateCommands_6 :
    ∃ (g : Ingress) (k : Pkt) (q : List Pkt) (s : State), s.Serves g opRESET_CHANNEL k q ∧ (s.queuedOf g).any QCmd.past = false
      ∧ s.headRuns (s.tvx.queue.filter (fun x => x.ing != g)) = true :=
  ⟨.mbox, { version := 3, typ := 0, tag := 9, opcode := opRESET_CHANNEL }, [],
   { wS [] with
       tvx :=
         { alive := true, running := true,
           mbox :=
             { imm := [{ version := 3, typ := 0, tag := 9, opcode := opRESET_CHANNEL }], frozen := true,
               stored := [(3, some (rspPkt ({ version := 3, typ := 0, tag := 5, opcode := opGET_INFO }) stOK 0 [1, 2]))] },
           queue :=
             [{ ing := .mbox, pkt := { version := 3, typ := 0, tag := 5, opcode := opGET_INFO } },
              { ing := .msl, pkt := { version := 3, typ := 0, tag := 5, opcode := opGET_INFO } },
              { ing := .mbox, pkt := { version := 3, typ := 0, tag := 5, opcode := opGET_INFO } }] } }, by decide⟩

theorem test_met_ImmediateCommands_7 :
    ∃ (g : Ingress) (s : State), (s.queuedOf g).any QCmd.past = true :=
  ⟨.mbox,
   { wS [] with
       tvx :=
         { alive := true, running := true,
           mbox := { imm := [{ version := 3, typ := 0, tag := 9, opcode := opRESET_CHANNEL }] },
           queue :=
             [{ ing := .mbox,
                pkt :=
                  { version := 3, typ := 0, tag := 5, opcode := opHOST_WRITE, length := 4, param := 1,
                    data := [0, 0, 0, 0] }, data := [1] }] } }, by decide⟩

theorem test_met_ImmediateCommands_8 :
    ∃ (g : Ingress) (k : Pkt) (q : List Pkt) (tag op st aux : Nat) (s : State), s.Serves g opGET_ERROR_LOG k q ∧ (s.ing
      g).errLog = some (tag, op, st, aux) :=
  ⟨.mbox, { version := 3, typ := 0, tag := 9, opcode := opGET_ERROR_LOG }, [], 5, 1, 0x11, 3,
   { wS [] with
       tvx :=
         { alive := true, running := true,
           mbox :=
             { imm := [{ version := 3, typ := 0, tag := 9, opcode := opGET_ERROR_LOG }], frozen := true,
               errLog := some (5, 1, 0x11, 3), errTags := [6, 7] } } }, by decide⟩

theorem test_met_ImmediateCommands_9 :
    ∃ (g : Ingress) (k : Pkt) (q : List Pkt) (s : State), s.Serves g opGET_ERROR_LOG k q ∧ (s.ing g).errLog = none :=
  ⟨.mbox, { version := 3, typ := 0, tag := 9, opcode := opGET_ERROR_LOG }, [],
   { wS [] with
       tvx :=
         { alive := true, running := true,
           mbox := { imm := [{ version := 3, typ := 0, tag := 9, opcode := opGET_ERROR_LOG }] } } }, by decide⟩

theorem test_met_ImmediateCommands_10 :
    ∃ (g : Ingress) (k : Pkt) (q : List Pkt) (s : State), s.Serves g opRESUME_QUEUE k q ∧ ((s.ing g).frozen = false ∨ (s.ing
      g).errRead = true) :=
  ⟨.mbox, { version := 3, typ := 0, tag := 9, opcode := opRESUME_QUEUE }, [],
   { wS [] with
       tvx :=
         { alive := true, running := true,
           mbox :=
             { imm := [{ version := 3, typ := 0, tag := 9, opcode := opRESUME_QUEUE }], frozen := true, errRead := true } } },
   by decide⟩

theorem test_met_ImmediateCommands_11 :
    ∃ (g : Ingress) (k : Pkt) (q : List Pkt) (s : State), s.Serves g opRESUME_QUEUE k q ∧ (s.ing g).frozen = true ∧ (s.ing
      g).errRead = false :=
  ⟨.mbox, { version := 3, typ := 0, tag := 9, opcode := opRESUME_QUEUE }, [],
   { wS [] with
       tvx :=
         { alive := true, running := true,
           mbox := { imm := [{ version := 3, typ := 0, tag := 9, opcode := opRESUME_QUEUE }], frozen := true } } },
   by decide⟩

theorem test_met_ImmediateCommands_12 :
    ∃ (g : Ingress) (k : Pkt) (q : List Pkt) (s : State), (s.ing g).imm = k :: q ∧ k.opcode = opQUERY_TAG ∧ s.tvx.running = true
      ∧ k.version = 1 ∧ k.param ≠ 0 :=
  ⟨.mbox, { version := 1, typ := 0, tag := 9, opcode := opQUERY_TAG, length := 1, param := 3, data := [5] }, [],
   { wS [] with
       tvx :=
         { alive := true, running := true,
           mbox :=
             { imm := [{ version := 1, typ := 0, tag := 9, opcode := opQUERY_TAG, length := 1, param := 3, data := [5] }] } } },
   by decide⟩

theorem test_met_ImmediateCommands_13 :
    ∃ (g : Ingress) (k : Pkt) (q : List Pkt) (s : State), s.Serves g opQUERY_TAG k q ∧ k.data = [] :=
  ⟨.mbox, { version := 3, typ := 0, tag := 9, opcode := opQUERY_TAG }, [],
   { wS [] with
       tvx :=
         { alive := true, running := true,
           mbox := { imm := [{ version := 3, typ := 0, tag := 9, opcode := opQUERY_TAG }] } } }, by decide⟩

theorem test_met_ImmediateCommands_14 :
    ∃ (g : Ingress) (s : State), ((s.ing g).imm.head?.all (fun k => k.opcode != opQUERY_TAG) = true ∨ s.tvx.running = false) :=
  ⟨.mbox, wS [], by decide⟩

theorem test_met_ImmediateCommands_15 :
    ∃ (g : Ingress) (k : Pkt) (q : List Pkt) (s : State), (s.ing g).imm = k :: q ∧ k.opcode = opABORT ∧ s.tvx.running = true ∧
      k.version = 1 ∧ k.param ≠ 0 :=
  ⟨.mbox, { version := 1, typ := 0, tag := 9, opcode := opABORT, length := 1, param := 3, data := [5] }, [],
   { wS [] with
       tvx :=
         { alive := true, running := true,
           mbox :=
             { imm := [{ version := 1, typ := 0, tag := 9, opcode := opABORT, length := 1, param := 3, data := [5] }] } } },
   by decide⟩

theorem test_met_ImmediateCommands_16 :
    ∃ (g : Ingress) (k : Pkt) (q : List Pkt) (s : State), s.Serves g opABORT k q ∧ k.data = [] :=
  ⟨.mbox, { version := 3, typ := 0, tag := 9, opcode := opABORT }, [],
   { wS [] with
       tvx :=
         { alive := true, running := true, mbox := { imm := [{ version := 3, typ := 0, tag := 9, opcode := opABORT }] } } },
   by decide⟩

theorem test_met_ImmediateCommands_17 :
    ∃ (g : Ingress) (s : State), ((s.ing g).imm.head?.all (fun k => k.opcode != opABORT) = true ∨ s.tvx.running = false) :=
  ⟨.mbox, wS [], by decide⟩

theorem test_met_ImmediateCommands_18 :
    ∃ (g : Ingress) (k : Pkt) (q : List Pkt) (s : State), (s.ing g).imm = k :: q ∧ k.opcode = opRESET_CHANNEL ∧ s.tvx.running =
      true ∧ k.version = 1 ∧ k.param ≠ 0 ∧ (s.queuedOf g).any QCmd.past = false :=
  ⟨.mbox, { version := 1, typ := 0, tag := 9, opcode := opRESET_CHANNEL, length := 1, param := 3, data := [5] }, [],
   { wS [] with
       tvx :=
         { alive := true, running := true,
           mbox :=
             { imm :=
                 [{ version := 1, typ := 0, tag := 9, opcode := opRESET_CHANNEL, length := 1, param := 3, data := [5] }] } } },
   by decide⟩

theorem test_met_ImmediateCommands_19 :
    ∃ (g : Ingress) (s : State), ((s.ing g).imm.head?.all (fun k => k.opcode != opRESET_CHANNEL) = true ∨ s.tvx.running = false) :=
  ⟨.mbox, wS [], by decide⟩

theorem test_met_ImmediateCommands_20 :
    ∃ (g : Ingress) (k : Pkt) (q : List Pkt) (s : State), (s.ing g).imm = k :: q ∧ k.opcode = opGET_ERROR_LOG ∧ s.tvx.running =
      true ∧ k.version = 1 ∧ k.param ≠ 0 :=
  ⟨.mbox, { version := 1, typ := 0, tag := 9, opcode := opGET_ERROR_LOG, length := 1, param := 3, data := [5] }, [],
   { wS [] with
       tvx :=
         { alive := true, running := true,
           mbox :=
             { imm :=
                 [{ version := 1, typ := 0, tag := 9, opcode := opGET_ERROR_LOG, length := 1, param := 3, data := [5] }] } } },
   by decide⟩

theorem test_met_ImmediateCommands_21 :
    ∃ (g : Ingress) (s : State), ((s.ing g).imm.head?.all (fun k => k.opcode != opGET_ERROR_LOG) = true ∨ s.tvx.running = false) :=
  ⟨.mbox, wS [], by decide⟩

theorem test_met_ImmediateCommands_22 :
    ∃ (g : Ingress) (k : Pkt) (q : List Pkt) (s : State), (s.ing g).imm = k :: q ∧ k.opcode = opRESUME_QUEUE ∧ s.tvx.running =
      true ∧ k.version = 1 ∧ k.param ≠ 0 :=
  ⟨.mbox, { version := 1, typ := 0, tag := 9, opcode := opRESUME_QUEUE, length := 1, param := 3, data := [5] }, [],
   { wS [] with
       tvx :=
         { alive := true, running := true,
           mbox :=
             { imm := [{ version := 1, typ := 0, tag := 9, opcode := opRESUME_QUEUE, length := 1, param := 3, data := [5] }] } } },
   by decide⟩

theorem test_met_ImmediateCommands_23 :
    ∃ (g : Ingress) (s : State), ((s.ing g).imm.head?.all (fun k => k.opcode != opRESUME_QUEUE) = true ∨ s.tvx.running = false) :=
  ⟨.mbox, wS [], by decide⟩

theorem test_met_QueuedCommands_1 :
    ∃ (i : Instr) (op n : Nat) (m l : Bool) (s : State), (i, op, n, m, l) ∈ queuedRows ∧ s.headCmd op = none :=
  ⟨.getInfo, opGET_INFO, 0, false, false, wS [], by decide⟩

theorem test_met_QueuedCommands_2 :
    ∃ (i : Instr) (op n : Nat) (m l : Bool) (c : QCmd) (q : List QCmd) (s : State), (i, op, n, m, l) ∈ queuedRows ∧ s.headCmd op
      = some c ∧ s.tvx.queue = c :: q ∧ s.headRuns (q.filter (fun x => x.ing != c.ing)) = true ∧ c.pkt.version = 1 ∧
      c.pkt.param ≠ 0 :=
  ⟨.getInfo, opGET_INFO, 0, false, false,
   { ing := .msl, pkt := { version := 1, typ := 0, tag := 5, opcode := opGET_INFO, param := 3 } },
   [{ ing := .msl, pkt := { version := 3, typ := 0, tag := 7, opcode := opGET_INFO } }],
   { wS [] with
       tvx :=
         { alive := true, running := true,
           queue :=
             [{ ing := .msl, pkt := { version := 1, typ := 0, tag := 5, opcode := opGET_INFO, param := 3 } },
              { ing := .msl, pkt := { version := 3, typ := 0, tag := 7, opcode := opGET_INFO } }] } }, by decide⟩

theorem test_met_QueuedCommands_3 :
    ∃ (i : Instr) (op n : Nat) (m l : Bool) (c : QCmd) (q : List QCmd) (s : State), (i, op, n, m, l) ∈ queuedRows ∧ s.headCmd op
      = some c ∧ s.tvx.queue = c :: q ∧ s.headRuns (q.filter (fun x => x.ing != c.ing)) = true ∧ ¬ (c.pkt.version = 1 ∧
      c.pkt.param ≠ 0) ∧ m = true ∧ c.ing = .mbox :=
  ⟨.meterKeySet, opKEY_SET, 33, true, true,
   { ing := .mbox, pkt := { version := 3, typ := 0, tag := 5, opcode := opKEY_SET, length := 1, data := [2] } },
   [{ ing := .msl, pkt := { version := 3, typ := 0, tag := 7, opcode := opGET_INFO } }],
   { wS [] with
       tvx :=
         { alive := true, running := true,
           queue :=
             [{ ing := .mbox, pkt := { version := 3, typ := 0, tag := 5, opcode := opKEY_SET, length := 1, data := [2] } },
              { ing := .msl, pkt := { version := 3, typ := 0, tag := 7, opcode := opGET_INFO } }] } }, by decide⟩

theorem test_met_QueuedCommands_4 :
    ∃ (i : Instr) (op n : Nat) (m l : Bool) (c : QCmd) (q : List QCmd) (s : State), (i, op, n, m, l) ∈ queuedRows ∧ s.headCmd op
      = some c ∧ s.tvx.queue = c :: q ∧ (¬ (c.pkt.version = 1 ∧ c.pkt.param ≠ 0) ∧ (m = false ∨ c.ing = .msl)) ∧
      c.data.length < c.pkt.param ∧ c.xfer = false :=
  ⟨.getInfo, opGET_INFO, 0, false, false,
   { ing := .msl, pkt := { version := 3, typ := 0, tag := 5, opcode := opGET_INFO, param := 5000 } },
   [{ ing := .msl, pkt := { version := 3, typ := 0, tag := 7, opcode := opGET_INFO } }],
   { wS [] with
       tvx :=
         { alive := true, running := true,
           queue :=
             [{ ing := .msl, pkt := { version := 3, typ := 0, tag := 5, opcode := opGET_INFO, param := 5000 } },
              { ing := .msl, pkt := { version := 3, typ := 0, tag := 7, opcode := opGET_INFO } }] } }, by decide⟩

theorem test_met_QueuedCommands_5 :
    ∃ (i : Instr) (op n : Nat) (m l : Bool) (c : QCmd) (q : List QCmd) (s : State), (i, op, n, m, l) ∈ queuedRows ∧ s.headCmd op
      = some c ∧ s.tvx.queue = c :: q ∧ (¬ (c.pkt.version = 1 ∧ c.pkt.param ≠ 0) ∧ (m = false ∨ c.ing = .msl)) ∧
      c.data.length < c.pkt.param ∧ c.xfer = true :=
  ⟨.getInfo, opGET_INFO, 0, false, false,
   { ing := .msl, pkt := { version := 3, typ := 0, tag := 5, opcode := opGET_INFO, param := 5000 }, xfer := true },
   [{ ing := .msl, pkt := { version := 3, typ := 0, tag := 7, opcode := opGET_INFO } }],
   { wS [] with
       tvx :=
         { alive := true, running := true,
           queue :=
             [{ ing := .msl, pkt := { version := 3, typ := 0, tag := 5, opcode := opGET_INFO, param := 5000 },
                xfer := true }, { ing := .msl, pkt := { version := 3, typ := 0, tag := 7, opcode := opGET_INFO } }] } },
   by decide⟩

theorem test_met_QueuedCommands_6 :
    ∃ (i : Instr) (op n : Nat) (m l : Bool) (c : QCmd) (q : List QCmd) (s : State), (i, op, n, m, l) ∈ queuedRows ∧ s.headCmd op
      = some c ∧ s.tvx.queue = c :: q ∧ (s.headRuns (q.filter (fun x => x.ing != c.ing)) = true ∧ ¬ (c.pkt.version = 1 ∧
      c.pkt.param ≠ 0) ∧ (m = false ∨ c.ing = .msl)) ∧ c.pkt.param ≤ c.data.length ∧ c.pkt.data.length < n :=
  ⟨.eventEnable, opEVENT_ENABLE, 1, false, false,
   { ing := .msl, pkt := { version := 3, typ := 0, tag := 5, opcode := opEVENT_ENABLE } },
   [{ ing := .msl, pkt := { version := 3, typ := 0, tag := 7, opcode := opGET_INFO } }],
   { wS [] with
       tvx :=
         { alive := true, running := true,
           queue :=
             [{ ing := .msl, pkt := { version := 3, typ := 0, tag := 5, opcode := opEVENT_ENABLE } },
              { ing := .msl, pkt := { version := 3, typ := 0, tag := 7, opcode := opGET_INFO } }] } }, by decide⟩

theorem test_met_QueuedCommands_7 :
    ∃ (i : Instr) (op n : Nat) (m l : Bool) (c : QCmd) (q : List QCmd) (s : State), (i, op, n, m, l) ∈ queuedRows ∧ s.Executes c
      q op n ∧ s.headRuns (q.filter (fun x => x.ing != c.ing)) = true ∧ (m = false ∨ c.ing = .msl) ∧ l = true ∧
      s.tvx.flashGranted = true :=
  ⟨.readEventLog, opREAD_EVENT_LOG, 10, false, true,
   { ing := .msl,
     pkt :=
       { version := 3, typ := 0, tag := 5, opcode := opREAD_EVENT_LOG, length := 10,
         data := [0, 0, 0, 0, 0, 0, 0, 0, 0, 0] } },
   [{ ing := .msl, pkt := { version := 3, typ := 0, tag := 7, opcode := opGET_INFO } }],
   { wS [] with
       tvx :=
         { alive := true, running := true,
           queue :=
             [{ ing := .msl,
                pkt :=
                  { version := 3, typ := 0, tag := 5, opcode := opREAD_EVENT_LOG, length := 10,
                    data := [0, 0, 0, 0, 0, 0, 0, 0, 0, 0] } },
              { ing := .msl, pkt := { version := 3, typ := 0, tag := 7, opcode := opGET_INFO } }], flashGranted := true } },
   by decide⟩

theorem test_met_QueuedCommands_8 :
    ∃ (c : QCmd) (q : List QCmd) (s : State), s.Executes c q opGET_INFO 0 :=
  ⟨{ ing := .mbox, pkt := { version := 3, typ := 0, tag := 5, opcode := opGET_INFO } },
   [{ ing := .msl, pkt := { version := 3, typ := 0, tag := 8, opcode := opGET_INFO } }],
   { wS [] with
       tvx :=
         { alive := true, running := true,
           queue :=
             [{ ing := .mbox, pkt := { version := 3, typ := 0, tag := 5, opcode := opGET_INFO } },
              { ing := .msl, pkt := { version := 3, typ := 0, tag := 8, opcode := opGET_INFO } }] } }, by decide⟩

theorem test_met_QueuedCommands_9 :
    ∃ (c : QCmd) (q : List QCmd) (s : State), s.Executes c q opQUEUE_FLUSH 0 :=
  ⟨{ ing := .mbox, pkt := { version := 3, typ := 0, tag := 5, opcode := opQUEUE_FLUSH } },
   [{ ing := .msl, pkt := { version := 3, typ := 0, tag := 8, opcode := opGET_INFO } }],
   { wS [] with
       tvx :=
         { alive := true, running := true,
           queue :=
             [{ ing := .mbox, pkt := { version := 3, typ := 0, tag := 5, opcode := opQUEUE_FLUSH } },
              { ing := .msl, pkt := { version := 3, typ := 0, tag := 8, opcode := opGET_INFO } }] } }, by decide⟩

theorem test_met_QueuedCommands_10 :
    ∃ (c : QCmd) (q : List QCmd) (s : State), s.Executes c q opEVENT_ENABLE 1 ∧ c.pkt.data.headD 0 < 8 :=
  ⟨{ ing := .mbox, pkt := { version := 3, typ := 0, tag := 5, opcode := opEVENT_ENABLE, length := 1, data := [7] } },
   [{ ing := .msl, pkt := { version := 3, typ := 0, tag := 8, opcode := opGET_INFO } }],
   { wS [] with
       tvx :=
         { alive := true, running := true,
           queue :=
             [{ ing := .mbox,
                pkt := { version := 3, typ := 0, tag := 5, opcode := opEVENT_ENABLE, length := 1, data := [7] } },
              { ing := .msl, pkt := { version := 3, typ := 0, tag := 8, opcode := opGET_INFO } }] } }, by decide⟩

theorem test_met_QueuedCommands_11 :
    ∃ (c : QCmd) (q : List QCmd) (s : State), s.Executes c q opEVENT_ENABLE 1 ∧ s.headRuns (q.filter (fun x => x.ing != c.ing))
      = true ∧ 8 ≤ c.pkt.data.headD 0 :=
  ⟨{ ing := .mbox, pkt := { version := 3, typ := 0, tag := 5, opcode := opEVENT_ENABLE, length := 1, data := [8] } },
   [{ ing := .mbox, pkt := { version := 3, typ := 0, tag := 7, opcode := opGET_INFO } },
    { ing := .msl, pkt := { version := 3, typ := 0, tag := 8, opcode := opGET_INFO } }],
   { wS [] with
       tvx :=
         { alive := true, running := true,
           queue :=
             [{ ing := .mbox,
                pkt := { version := 3, typ := 0, tag := 5, opcode := opEVENT_ENABLE, length := 1, data := [8] } },
              { ing := .mbox, pkt := { version := 3, typ := 0, tag := 7, opcode := opGET_INFO } },
              { ing := .msl, pkt := { version := 3, typ := 0, tag := 8, opcode := opGET_INFO } }] } }, by decide⟩

theorem test_met_QueuedCommands_12 :
    ∃ (c : QCmd) (q : List QCmd) (s : State), s.Executes c q opGET_SENSORS 5 ∧ c.arg 0 1 ≤ 3 ∧ 0 < c.arg 3 2 ∧ c.arg 3 2 ≤ 1024
      ∧ c.arg 1 2 + c.arg 3 2 ≤ classCount (c.arg 0 1) :=
  ⟨{ ing := .msl,
     pkt := { version := 3, typ := 0, tag := 5, opcode := opGET_SENSORS, length := 5, data := [0, 2, 0, 3, 0] } },
   [{ ing := .mbox, pkt := { version := 3, typ := 0, tag := 8, opcode := opGET_INFO } }],
   { wS [] with
       tvx :=
         { alive := true, running := true,
           queue :=
             [{ ing := .msl,
                pkt := { version := 3, typ := 0, tag := 5, opcode := opGET_SENSORS, length := 5, data := [0, 2, 0, 3, 0] } },
              { ing := .mbox, pkt := { version := 3, typ := 0, tag := 8, opcode := opGET_INFO } }],
           temps := [(3, 1600), (4, -5)] } }, by decide⟩

theorem test_met_QueuedCommands_13 :
    ∃ (c : QCmd) (q : List QCmd) (s : State), s.Executes c q opGET_SENSORS 5 ∧ s.headRuns (q.filter (fun x => x.ing != c.ing)) =
      true ∧ (3 < c.arg 0 1 ∨ c.arg 3 2 = 0 ∨ 1024 < c.arg 3 2 ∨ classCount (c.arg 0 1) < c.arg 1 2 + c.arg 3 2) :=
  ⟨{ ing := .msl,
     pkt := { version := 3, typ := 0, tag := 5, opcode := opGET_SENSORS, length := 5, data := [0, 2, 0, 163, 1] } },
   [{ ing := .msl, pkt := { version := 3, typ := 0, tag := 7, opcode := opGET_INFO } },
    { ing := .mbox, pkt := { version := 3, typ := 0, tag := 8, opcode := opGET_INFO } }],
   { wS [] with
       tvx :=
         { alive := true, running := true,
           queue :=
             [{ ing := .msl,
                pkt := { version := 3, typ := 0, tag := 5, opcode := opGET_SENSORS, length := 5, data := [0, 2, 0, 163, 1] } },
              { ing := .msl, pkt := { version := 3, typ := 0, tag := 7, opcode := opGET_INFO } },
              { ing := .mbox, pkt := { version := 3, typ := 0, tag := 8, opcode := opGET_INFO } }] } }, by decide⟩

theorem test_met_QueuedCommands_14 :
    ∃ (c : QCmd) (q : List QCmd) (d : Nat) (s : State), s.Executes c q opGET_HEALTH 1 ∧ d ≤ 16 ∧ d = c.pkt.data.headD 0 :=
  ⟨{ ing := .msl, pkt := { version := 3, typ := 0, tag := 5, opcode := opGET_HEALTH, length := 1, data := [3] } },
   [{ ing := .mbox, pkt := { version := 3, typ := 0, tag := 8, opcode := opGET_INFO } }], 3,
   { wS [] with
       tvx :=
         { alive := true, running := true,
           queue :=
             [{ ing := .msl, pkt := { version := 3, typ := 0, tag := 5, opcode := opGET_HEALTH, length := 1, data := [3] } },
              { ing := .mbox, pkt := { version := 3, typ := 0, tag := 8, opcode := opGET_INFO } }],
           ages := [(12, [(86400000000000, 200), (0, 100)])] } }, by decide⟩

theorem test_met_QueuedCommands_15 :
    ∃ (c : QCmd) (q : List QCmd) (s : State), s.Executes c q opGET_HEALTH 1 ∧ s.headRuns (q.filter (fun x => x.ing != c.ing)) =
      true ∧ 16 < c.pkt.data.headD 0 :=
  ⟨{ ing := .msl, pkt := { version := 3, typ := 0, tag := 5, opcode := opGET_HEALTH, length := 1, data := [17] } },
   [{ ing := .msl, pkt := { version := 3, typ := 0, tag := 7, opcode := opGET_INFO } },
    { ing := .mbox, pkt := { version := 3, typ := 0, tag := 8, opcode := opGET_INFO } }],
   { wS [] with
       tvx :=
         { alive := true, running := true,
           queue :=
             [{ ing := .msl, pkt := { version := 3, typ := 0, tag := 5, opcode := opGET_HEALTH, length := 1, data := [17] } },
              { ing := .msl, pkt := { version := 3, typ := 0, tag := 7, opcode := opGET_INFO } },
              { ing := .mbox, pkt := { version := 3, typ := 0, tag := 8, opcode := opGET_INFO } }] } }, by decide⟩

theorem test_met_QueuedCommands_16 :
    ∃ (c : QCmd) (q : List QCmd) (s : State), s.Executes c q opREAD_EVENT_LOG 10 ∧ s.tvx.flashGranted = false ∧ 0 < c.arg 8 2 ∧
      c.arg 8 2 ≤ 64 :=
  ⟨{ ing := .msl,
     pkt :=
       { version := 3, typ := 0, tag := 5, opcode := opREAD_EVENT_LOG, length := 10,
         data := [2, 0, 0, 0, 0, 0, 0, 0, 1, 0] } },
   [{ ing := .mbox, pkt := { version := 3, typ := 0, tag := 8, opcode := opGET_INFO } }],
   { wS [] with
       tvx :=
         { alive := true, running := true,
           queue :=
             [{ ing := .msl,
                pkt :=
                  { version := 3, typ := 0, tag := 5, opcode := opREAD_EVENT_LOG, length := 10,
                    data := [2, 0, 0, 0, 0, 0, 0, 0, 1, 0] } },
              { ing := .mbox, pkt := { version := 3, typ := 0, tag := 8, opcode := opGET_INFO } }],
           log := [⟨3, 9, 0x70, 0, 255, 0, 0⟩, ⟨2, 8, 0x70, 0, 255, 0, 0⟩, ⟨1, 7, 0x70, 0, 255, 0, 0⟩] } }, by decide⟩

theorem test_met_QueuedCommands_17 :
    ∃ (c : QCmd) (q : List QCmd) (s : State), s.Executes c q opREAD_EVENT_LOG 10 ∧ s.headRuns (q.filter (fun x => x.ing !=
      c.ing)) = true ∧ s.tvx.flashGranted = false ∧ (c.arg 8 2 = 0 ∨ 64 < c.arg 8 2) :=
  ⟨{ ing := .msl,
     pkt :=
       { version := 3, typ := 0, tag := 5, opcode := opREAD_EVENT_LOG, length := 10,
         data := [2, 0, 0, 0, 0, 0, 0, 0, 65, 0] } },
   [{ ing := .msl, pkt := { version := 3, typ := 0, tag := 7, opcode := opGET_INFO } },
    { ing := .mbox, pkt := { version := 3, typ := 0, tag := 8, opcode := opGET_INFO } }],
   { wS [] with
       tvx :=
         { alive := true, running := true,
           queue :=
             [{ ing := .msl,
                pkt :=
                  { version := 3, typ := 0, tag := 5, opcode := opREAD_EVENT_LOG, length := 10,
                    data := [2, 0, 0, 0, 0, 0, 0, 0, 65, 0] } },
              { ing := .msl, pkt := { version := 3, typ := 0, tag := 7, opcode := opGET_INFO } },
              { ing := .mbox, pkt := { version := 3, typ := 0, tag := 8, opcode := opGET_INFO } }] } }, by decide⟩

theorem test_met_QueuedCommands_18 :
    ∃ (c : QCmd) (q : List QCmd) (s : State), s.Executes c q opREAD_JOURNAL 6 ∧ s.tvx.flashGranted = false ∧ 0 < c.arg 4 2 ∧
      c.arg 4 2 ≤ 64 :=
  ⟨{ ing := .msl,
     pkt := { version := 3, typ := 0, tag := 5, opcode := opREAD_JOURNAL, length := 6, data := [1, 0, 0, 0, 2, 0] } },
   [{ ing := .mbox, pkt := { version := 3, typ := 0, tag := 8, opcode := opGET_INFO } }],
   { wS [] with
       tvx :=
         { alive := true, running := true,
           queue :=
             [{ ing := .msl,
                pkt :=
                  { version := 3, typ := 0, tag := 5, opcode := opREAD_JOURNAL, length := 6, data := [1, 0, 0, 0, 2, 0] } },
              { ing := .mbox, pkt := { version := 3, typ := 0, tag := 8, opcode := opGET_INFO } }] } }, by decide⟩

theorem test_met_QueuedCommands_19 :
    ∃ (c : QCmd) (q : List QCmd) (s : State), s.Executes c q opREAD_JOURNAL 6 ∧ s.headRuns (q.filter (fun x => x.ing != c.ing))
      = true ∧ s.tvx.flashGranted = false ∧ (c.arg 4 2 = 0 ∨ 64 < c.arg 4 2) :=
  ⟨{ ing := .msl,
     pkt := { version := 3, typ := 0, tag := 5, opcode := opREAD_JOURNAL, length := 6, data := [1, 0, 0, 0, 0, 0] } },
   [{ ing := .msl, pkt := { version := 3, typ := 0, tag := 7, opcode := opGET_INFO } },
    { ing := .mbox, pkt := { version := 3, typ := 0, tag := 8, opcode := opGET_INFO } }],
   { wS [] with
       tvx :=
         { alive := true, running := true,
           queue :=
             [{ ing := .msl,
                pkt :=
                  { version := 3, typ := 0, tag := 5, opcode := opREAD_JOURNAL, length := 6, data := [1, 0, 0, 0, 0, 0] } },
              { ing := .msl, pkt := { version := 3, typ := 0, tag := 7, opcode := opGET_INFO } },
              { ing := .mbox, pkt := { version := 3, typ := 0, tag := 8, opcode := opGET_INFO } }] } }, by decide⟩

theorem test_met_QueuedCommands_20 :
    ∃ (c : QCmd) (q : List QCmd) (v : List Nat) (s : State), s.Executes c q opSETTINGS_GET 2 ∧ s.tvx.flashGranted = false ∧
      s.itemValue (c.arg 0 2) = some v :=
  ⟨{ ing := .msl, pkt := { version := 3, typ := 0, tag := 5, opcode := opSETTINGS_GET, length := 2, data := [3, 0] } },
   [{ ing := .mbox, pkt := { version := 3, typ := 0, tag := 8, opcode := opGET_INFO } }], [88],
   { wS [] with
       tvx :=
         { alive := true, running := true,
           queue :=
             [{ ing := .msl,
                pkt := { version := 3, typ := 0, tag := 5, opcode := opSETTINGS_GET, length := 2, data := [3, 0] } },
              { ing := .mbox, pkt := { version := 3, typ := 0, tag := 8, opcode := opGET_INFO } }] } }, by decide⟩

theorem test_met_QueuedCommands_21 :
    ∃ (c : QCmd) (q : List QCmd) (s : State), s.Executes c q opSETTINGS_GET 2 ∧ s.headRuns (q.filter (fun x => x.ing != c.ing))
      = true ∧ s.tvx.flashGranted = false ∧ s.itemValue (c.arg 0 2) = none :=
  ⟨{ ing := .msl, pkt := { version := 3, typ := 0, tag := 5, opcode := opSETTINGS_GET, length := 2, data := [9, 0] } },
   [{ ing := .msl, pkt := { version := 3, typ := 0, tag := 7, opcode := opGET_INFO } },
    { ing := .mbox, pkt := { version := 3, typ := 0, tag := 8, opcode := opGET_INFO } }],
   { wS [] with
       tvx :=
         { alive := true, running := true,
           queue :=
             [{ ing := .msl,
                pkt := { version := 3, typ := 0, tag := 5, opcode := opSETTINGS_GET, length := 2, data := [9, 0] } },
              { ing := .msl, pkt := { version := 3, typ := 0, tag := 7, opcode := opGET_INFO } },
              { ing := .mbox, pkt := { version := 3, typ := 0, tag := 8, opcode := opGET_INFO } }] } }, by decide⟩

theorem test_met_QueuedCommands_22 :
    ∃ (c : QCmd) (q : List QCmd) (v : List Nat) (s : State), s.Executes c q opSETTINGS_SET 2 ∧ s.tvx.flashGranted = false ∧ v =
      c.pkt.data.drop 2 ∧ itemLength (c.arg 0 2) = some v.length ∧ itemBad (c.arg 0 2) v = none :=
  ⟨{ ing := .msl, pkt := { version := 3, typ := 0, tag := 5, opcode := opSETTINGS_SET, length := 3, data := [3, 0, 64] } },
   [{ ing := .mbox, pkt := { version := 3, typ := 0, tag := 8, opcode := opGET_INFO } }], [64],
   { wS [] with
       tvx :=
         { alive := true, running := true,
           queue :=
             [{ ing := .msl,
                pkt := { version := 3, typ := 0, tag := 5, opcode := opSETTINGS_SET, length := 3, data := [3, 0, 64] } },
              { ing := .mbox, pkt := { version := 3, typ := 0, tag := 8, opcode := opGET_INFO } }] } }, by decide⟩

theorem test_met_QueuedCommands_23 :
    ∃ (c : QCmd) (q : List QCmd) (s : State), s.Executes c q opSETTINGS_SET 2 ∧ s.headRuns (q.filter (fun x => x.ing != c.ing))
      = true ∧ s.tvx.flashGranted = false ∧ itemLength (c.arg 0 2) = none :=
  ⟨{ ing := .msl, pkt := { version := 3, typ := 0, tag := 5, opcode := opSETTINGS_SET, length := 4, data := [0, 1, 5, 16] } },
   [{ ing := .msl, pkt := { version := 3, typ := 0, tag := 7, opcode := opGET_INFO } },
    { ing := .mbox, pkt := { version := 3, typ := 0, tag := 8, opcode := opGET_INFO } }],
   { wS [] with
       tvx :=
         { alive := true, running := true,
           queue :=
             [{ ing := .msl,
                pkt := { version := 3, typ := 0, tag := 5, opcode := opSETTINGS_SET, length := 4, data := [0, 1, 5, 16] } },
              { ing := .msl, pkt := { version := 3, typ := 0, tag := 7, opcode := opGET_INFO } },
              { ing := .mbox, pkt := { version := 3, typ := 0, tag := 8, opcode := opGET_INFO } }] } }, by decide⟩

theorem test_met_QueuedCommands_24 :
    ∃ (c : QCmd) (q : List QCmd) (i : Nat) (s : State), s.Executes c q opSETTINGS_SET 2 ∧ s.headRuns (q.filter (fun x => x.ing
      != c.ing)) = true ∧ s.tvx.flashGranted = false ∧ itemLength (c.arg 0 2) ≠ none ∧ itemBad (c.arg 0 2) (c.pkt.data.drop
      2) = some i :=
  ⟨{ ing := .msl, pkt := { version := 3, typ := 0, tag := 5, opcode := opSETTINGS_SET, length := 4, data := [1, 0, 5, 16] } },
   [{ ing := .msl, pkt := { version := 3, typ := 0, tag := 7, opcode := opGET_INFO } },
    { ing := .mbox, pkt := { version := 3, typ := 0, tag := 8, opcode := opGET_INFO } }], 1,
   { wS [] with
       tvx :=
         { alive := true, running := true,
           queue :=
             [{ ing := .msl,
                pkt := { version := 3, typ := 0, tag := 5, opcode := opSETTINGS_SET, length := 4, data := [1, 0, 5, 16] } },
              { ing := .msl, pkt := { version := 3, typ := 0, tag := 7, opcode := opGET_INFO } },
              { ing := .mbox, pkt := { version := 3, typ := 0, tag := 8, opcode := opGET_INFO } }] } }, by decide⟩

theorem test_met_QueuedCommands_25 :
    ∃ (c : QCmd) (q : List QCmd) (n : Nat) (s : State), s.Executes c q opSETTINGS_SET 2 ∧ s.headRuns (q.filter (fun x => x.ing
      != c.ing)) = true ∧ s.tvx.flashGranted = false ∧ itemBad (c.arg 0 2) (c.pkt.data.drop 2) = none ∧ itemLength (c.arg 0
      2) = some n ∧ c.pkt.data.length ≠ 2 + n :=
  ⟨{ ing := .msl, pkt := { version := 3, typ := 0, tag := 5, opcode := opSETTINGS_SET, length := 3, data := [1, 0, 5] } },
   [{ ing := .msl, pkt := { version := 3, typ := 0, tag := 7, opcode := opGET_INFO } },
    { ing := .mbox, pkt := { version := 3, typ := 0, tag := 8, opcode := opGET_INFO } }], 2,
   { wS [] with
       tvx :=
         { alive := true, running := true,
           queue :=
             [{ ing := .msl,
                pkt := { version := 3, typ := 0, tag := 5, opcode := opSETTINGS_SET, length := 3, data := [1, 0, 5] } },
              { ing := .msl, pkt := { version := 3, typ := 0, tag := 7, opcode := opGET_INFO } },
              { ing := .mbox, pkt := { version := 3, typ := 0, tag := 8, opcode := opGET_INFO } }] } }, by decide⟩

theorem test_met_QueuedCommands_26 :
    ∃ (c : QCmd) (q : List QCmd) (n : Nat) (s : State), s.Executes c q opCLEAR_RETIREMENT 4 ∧ s.tvx.flashGranted = false ∧
      recordSize (c.arg 0 2) = some n ∧ c.arg 2 2 < n :=
  ⟨{ ing := .msl,
     pkt := { version := 3, typ := 0, tag := 5, opcode := opCLEAR_RETIREMENT, length := 4, data := [0, 1, 9, 0] } },
   [{ ing := .mbox, pkt := { version := 3, typ := 0, tag := 8, opcode := opGET_INFO } }], 384,
   { wS [] with
       tvx :=
         { alive := true, running := true,
           queue :=
             [{ ing := .msl,
                pkt := { version := 3, typ := 0, tag := 5, opcode := opCLEAR_RETIREMENT, length := 4, data := [0, 1, 9, 0] } },
              { ing := .mbox, pkt := { version := 3, typ := 0, tag := 8, opcode := opGET_INFO } }],
           recs := { core := 1 <<< 9 } } }, by decide⟩

theorem test_met_QueuedCommands_27 :
    ∃ (c : QCmd) (q : List QCmd) (s : State), s.Executes c q opCLEAR_RETIREMENT 4 ∧ s.headRuns (q.filter (fun x => x.ing !=
      c.ing)) = true ∧ s.tvx.flashGranted = false ∧ (recordSize (c.arg 0 2)).all (fun n => decide (n ≤ c.arg 2 2)) = true :=
  ⟨{ ing := .msl,
     pkt := { version := 3, typ := 0, tag := 5, opcode := opCLEAR_RETIREMENT, length := 4, data := [0, 1, 128, 1] } },
   [{ ing := .msl, pkt := { version := 3, typ := 0, tag := 7, opcode := opGET_INFO } },
    { ing := .mbox, pkt := { version := 3, typ := 0, tag := 8, opcode := opGET_INFO } }],
   { wS [] with
       tvx :=
         { alive := true, running := true,
           queue :=
             [{ ing := .msl,
                pkt :=
                  { version := 3, typ := 0, tag := 5, opcode := opCLEAR_RETIREMENT, length := 4, data := [0, 1, 128, 1] } },
              { ing := .msl, pkt := { version := 3, typ := 0, tag := 7, opcode := opGET_INFO } },
              { ing := .mbox, pkt := { version := 3, typ := 0, tag := 8, opcode := opGET_INFO } }] } }, by decide⟩

theorem test_met_QueuedCommands_28 :
    ∃ (c : QCmd) (q : List QCmd) (s : State), s.Executes c q opKEY_SET 33 ∧ s.tvx.flashGranted = false ∧ c.ing = .msl ∧
      (c.pkt.data.getD 0 0) ≤ 3 ∧ s.meter.active ≠ some (c.pkt.data.getD 0 0) :=
  ⟨{ ing := .msl,
     pkt :=
       { version := 3, typ := 0, tag := 5, opcode := opKEY_SET, length := 33,
         data :=
           [2, 0, 1, 2, 3, 4, 5, 6, 7, 8, 9, 10, 11, 12, 13, 14, 15, 16, 17, 18, 19, 20, 21, 22,
            23, 24, 25, 26, 27, 28, 29, 30, 31] } },
   [{ ing := .mbox, pkt := { version := 3, typ := 0, tag := 8, opcode := opGET_INFO } }],
   { wS [] with
       tvx :=
         { alive := true, running := true,
           queue :=
             [{ ing := .msl,
                pkt :=
                  { version := 3, typ := 0, tag := 5, opcode := opKEY_SET, length := 33,
                    data :=
                      [2, 0, 1, 2, 3, 4, 5, 6, 7, 8, 9, 10, 11, 12, 13, 14, 15, 16, 17, 18, 19, 20,
                       21, 22, 23, 24, 25, 26, 27, 28, 29, 30, 31] } },
              { ing := .mbox, pkt := { version := 3, typ := 0, tag := 8, opcode := opGET_INFO } }] } }, by decide⟩

theorem test_met_QueuedCommands_29 :
    ∃ (c : QCmd) (q : List QCmd) (s : State), s.Executes c q opKEY_SET 33 ∧ s.headRuns (q.filter (fun x => x.ing != c.ing)) =
      true ∧ s.tvx.flashGranted = false ∧ c.ing = .msl ∧ (3 < (c.pkt.data.getD 0 0) ∨ s.meter.active = some (c.pkt.data.getD
      0 0)) :=
  ⟨{ ing := .msl,
     pkt :=
       { version := 3, typ := 0, tag := 5, opcode := opKEY_SET, length := 33,
         data :=
           [2, 0, 1, 2, 3, 4, 5, 6, 7, 8, 9, 10, 11, 12, 13, 14, 15, 16, 17, 18, 19, 20, 21, 22,
            23, 24, 25, 26, 27, 28, 29, 30, 31] } },
   [{ ing := .msl, pkt := { version := 3, typ := 0, tag := 7, opcode := opGET_INFO } },
    { ing := .mbox, pkt := { version := 3, typ := 0, tag := 8, opcode := opGET_INFO } }],
   { wS [] with
       tvx :=
         { alive := true, running := true,
           queue :=
             [{ ing := .msl,
                pkt :=
                  { version := 3, typ := 0, tag := 5, opcode := opKEY_SET, length := 33,
                    data :=
                      [2, 0, 1, 2, 3, 4, 5, 6, 7, 8, 9, 10, 11, 12, 13, 14, 15, 16, 17, 18, 19, 20,
                       21, 22, 23, 24, 25, 26, 27, 28, 29, 30, 31] } },
              { ing := .msl, pkt := { version := 3, typ := 0, tag := 7, opcode := opGET_INFO } },
              { ing := .mbox, pkt := { version := 3, typ := 0, tag := 8, opcode := opGET_INFO } }] },
       meter := { keys := [(2, [1, 2, 3])], active := some 2 } }, by decide⟩

theorem test_met_QueuedCommands_30 :
    ∃ (c : QCmd) (q : List QCmd) (s : State), s.Executes c q opKEY_ACTIVATE 1 ∧ s.tvx.flashGranted = false ∧ c.ing = .msl ∧
      (c.pkt.data.getD 0 0) ≤ 3 ∧ s.key (c.pkt.data.getD 0 0) ≠ [] :=
  ⟨{ ing := .msl, pkt := { version := 3, typ := 0, tag := 5, opcode := opKEY_ACTIVATE, length := 1, data := [2] } },
   [{ ing := .mbox, pkt := { version := 3, typ := 0, tag := 8, opcode := opGET_INFO } }],
   { wS [] with
       tvx :=
         { alive := true, running := true,
           queue :=
             [{ ing := .msl,
                pkt := { version := 3, typ := 0, tag := 5, opcode := opKEY_ACTIVATE, length := 1, data := [2] } },
              { ing := .mbox, pkt := { version := 3, typ := 0, tag := 8, opcode := opGET_INFO } }] },
       meter := { keys := [(2, [1, 2, 3])], active := some 2 } }, by decide⟩

theorem test_met_QueuedCommands_31 :
    ∃ (c : QCmd) (q : List QCmd) (s : State), s.Executes c q opKEY_ACTIVATE 1 ∧ s.headRuns (q.filter (fun x => x.ing != c.ing))
      = true ∧ s.tvx.flashGranted = false ∧ c.ing = .msl ∧ (3 < (c.pkt.data.getD 0 0) ∨ s.key (c.pkt.data.getD 0 0) = []) :=
  ⟨{ ing := .msl, pkt := { version := 3, typ := 0, tag := 5, opcode := opKEY_ACTIVATE, length := 1, data := [3] } },
   [{ ing := .msl, pkt := { version := 3, typ := 0, tag := 7, opcode := opGET_INFO } },
    { ing := .mbox, pkt := { version := 3, typ := 0, tag := 8, opcode := opGET_INFO } }],
   { wS [] with
       tvx :=
         { alive := true, running := true,
           queue :=
             [{ ing := .msl,
                pkt := { version := 3, typ := 0, tag := 5, opcode := opKEY_ACTIVATE, length := 1, data := [3] } },
              { ing := .msl, pkt := { version := 3, typ := 0, tag := 7, opcode := opGET_INFO } },
              { ing := .mbox, pkt := { version := 3, typ := 0, tag := 8, opcode := opGET_INFO } }] },
       meter := { keys := [(2, [1, 2, 3])], active := some 2 } }, by decide⟩

theorem test_met_QueuedCommands_32 :
    ∃ (c : QCmd) (q : List QCmd) (s : State), s.Executes c q opKEY_CLEAR 1 ∧ s.tvx.flashGranted = false ∧ c.ing = .msl ∧
      (c.pkt.data.getD 0 0) ≤ 3 :=
  ⟨{ ing := .msl, pkt := { version := 3, typ := 0, tag := 5, opcode := opKEY_CLEAR, length := 1, data := [2] } },
   [{ ing := .mbox, pkt := { version := 3, typ := 0, tag := 8, opcode := opGET_INFO } }],
   { wS [] with
       tvx :=
         { alive := true, running := true,
           queue :=
             [{ ing := .msl, pkt := { version := 3, typ := 0, tag := 5, opcode := opKEY_CLEAR, length := 1, data := [2] } },
              { ing := .mbox, pkt := { version := 3, typ := 0, tag := 8, opcode := opGET_INFO } }] },
       meter := { keys := [(2, [1, 2, 3])], active := some 2 } }, by decide⟩

theorem test_met_QueuedCommands_33 :
    ∃ (c : QCmd) (q : List QCmd) (s : State), s.Executes c q opKEY_CLEAR 1 ∧ s.headRuns (q.filter (fun x => x.ing != c.ing)) =
      true ∧ s.tvx.flashGranted = false ∧ c.ing = .msl ∧ 3 < (c.pkt.data.getD 0 0) :=
  ⟨{ ing := .msl, pkt := { version := 3, typ := 0, tag := 5, opcode := opKEY_CLEAR, length := 1, data := [4] } },
   [{ ing := .msl, pkt := { version := 3, typ := 0, tag := 7, opcode := opGET_INFO } },
    { ing := .mbox, pkt := { version := 3, typ := 0, tag := 8, opcode := opGET_INFO } }],
   { wS [] with
       tvx :=
         { alive := true, running := true,
           queue :=
             [{ ing := .msl, pkt := { version := 3, typ := 0, tag := 5, opcode := opKEY_CLEAR, length := 1, data := [4] } },
              { ing := .msl, pkt := { version := 3, typ := 0, tag := 7, opcode := opGET_INFO } },
              { ing := .mbox, pkt := { version := 3, typ := 0, tag := 8, opcode := opGET_INFO } }] } }, by decide⟩

theorem test_met_QueuedCommands_34 :
    ∃ (c : QCmd) (q : List QCmd) (s : State), s.Executes c q opKEY_QUERY 0 ∧ s.tvx.flashGranted = false ∧ c.ing = .msl :=
  ⟨{ ing := .msl, pkt := { version := 3, typ := 0, tag := 5, opcode := opKEY_QUERY } },
   [{ ing := .mbox, pkt := { version := 3, typ := 0, tag := 8, opcode := opGET_INFO } }],
   { wS [] with
       tvx :=
         { alive := true, running := true,
           queue :=
             [{ ing := .msl, pkt := { version := 3, typ := 0, tag := 5, opcode := opKEY_QUERY } },
              { ing := .mbox, pkt := { version := 3, typ := 0, tag := 8, opcode := opGET_INFO } }] },
       meter := { active := some 2 } }, by decide⟩

theorem test_met_QueuedCommands_35 :
    ∃ (c : QCmd) (q : List QCmd) (s : State), s.Executes c q opHOST_READ 6 ∧ s.tvx.flashGranted = false ∧ 0 < c.arg 4 2 ∧ c.arg
      4 2 ≤ 4096 ∧ c.arg 0 4 + c.arg 4 2 ≤ hostAreaSize :=
  ⟨{ ing := .msl,
     pkt := { version := 3, typ := 0, tag := 5, opcode := opHOST_READ, length := 6, data := [4, 0, 0, 0, 3, 0] } },
   [{ ing := .mbox, pkt := { version := 3, typ := 0, tag := 8, opcode := opGET_INFO } }],
   { wS [] with
       tvx :=
         { alive := true, running := true,
           queue :=
             [{ ing := .msl,
                pkt := { version := 3, typ := 0, tag := 5, opcode := opHOST_READ, length := 6, data := [4, 0, 0, 0, 3, 0] } },
              { ing := .mbox, pkt := { version := 3, typ := 0, tag := 8, opcode := opGET_INFO } }], host := [(5, 0x12)] } },
   by decide⟩

theorem test_met_QueuedCommands_36 :
    ∃ (c : QCmd) (q : List QCmd) (s : State), s.Executes c q opHOST_READ 6 ∧ s.headRuns (q.filter (fun x => x.ing != c.ing)) =
      true ∧ s.tvx.flashGranted = false ∧ (c.arg 4 2 = 0 ∨ 4096 < c.arg 4 2 ∨ hostAreaSize < c.arg 0 4 + c.arg 4 2) :=
  ⟨{ ing := .msl,
     pkt := { version := 3, typ := 0, tag := 5, opcode := opHOST_READ, length := 6, data := [4, 0, 0, 0, 0, 17] } },
   [{ ing := .msl, pkt := { version := 3, typ := 0, tag := 7, opcode := opGET_INFO } },
    { ing := .mbox, pkt := { version := 3, typ := 0, tag := 8, opcode := opGET_INFO } }],
   { wS [] with
       tvx :=
         { alive := true, running := true,
           queue :=
             [{ ing := .msl,
                pkt := { version := 3, typ := 0, tag := 5, opcode := opHOST_READ, length := 6, data := [4, 0, 0, 0, 0, 17] } },
              { ing := .msl, pkt := { version := 3, typ := 0, tag := 7, opcode := opGET_INFO } },
              { ing := .mbox, pkt := { version := 3, typ := 0, tag := 8, opcode := opGET_INFO } }] } }, by decide⟩

theorem test_met_QueuedCommands_37 :
    ∃ (c : QCmd) (q : List QCmd) (s : State), s.Executes c q opHOST_WRITE 4 ∧ s.headRuns (q.filter (fun x => x.ing != c.ing)) =
      true ∧ s.tvx.flashGranted = false ∧ c.arg 0 4 % sectorSize = 0 ∧ c.arg 0 4 + c.pkt.param ≤ hostAreaSize ∧ 0 <
      c.pkt.param ∧ c.pkt.param ≤ sectorSize ∧ s.headRuns (q.filter (fun x => x.ing != c.ing)) = true :=
  ⟨{ ing := .msl,
     pkt := { version := 3, typ := 0, tag := 5, opcode := opHOST_WRITE, length := 4, data := [0, 0, 1, 0], param := 3 },
     data := [9, 8, 7] },
   [{ ing := .msl, pkt := { version := 3, typ := 0, tag := 7, opcode := opGET_INFO } },
    { ing := .mbox, pkt := { version := 3, typ := 0, tag := 8, opcode := opGET_INFO } }],
   { wS [] with
       tvx :=
         { alive := true, running := true,
           queue :=
             [{ ing := .msl,
                pkt :=
                  { version := 3, typ := 0, tag := 5, opcode := opHOST_WRITE, length := 4, data := [0, 0, 1, 0],
                    param := 3 }, data := [9, 8, 7] },
              { ing := .msl, pkt := { version := 3, typ := 0, tag := 7, opcode := opGET_INFO } },
              { ing := .mbox, pkt := { version := 3, typ := 0, tag := 8, opcode := opGET_INFO } }] } }, by decide⟩

theorem test_met_QueuedCommands_38 :
    ∃ (c : QCmd) (q : List QCmd) (s : State), s.Executes c q opHOST_WRITE 4 ∧ s.headRuns (q.filter (fun x => x.ing != c.ing)) =
      true ∧ s.tvx.flashGranted = false ∧ (c.arg 0 4 % sectorSize ≠ 0 ∨ (0 < c.pkt.param ∧ c.pkt.param ≤ sectorSize ∧
      hostAreaSize < c.arg 0 4 + c.pkt.param)) :=
  ⟨{ ing := .msl,
     pkt := { version := 3, typ := 0, tag := 5, opcode := opHOST_WRITE, length := 4, data := [1, 0, 1, 0], param := 3 },
     data := [9, 8, 7] },
   [{ ing := .msl, pkt := { version := 3, typ := 0, tag := 7, opcode := opGET_INFO } },
    { ing := .mbox, pkt := { version := 3, typ := 0, tag := 8, opcode := opGET_INFO } }],
   { wS [] with
       tvx :=
         { alive := true, running := true,
           queue :=
             [{ ing := .msl,
                pkt :=
                  { version := 3, typ := 0, tag := 5, opcode := opHOST_WRITE, length := 4, data := [1, 0, 1, 0],
                    param := 3 }, data := [9, 8, 7] },
              { ing := .msl, pkt := { version := 3, typ := 0, tag := 7, opcode := opGET_INFO } },
              { ing := .mbox, pkt := { version := 3, typ := 0, tag := 8, opcode := opGET_INFO } }] } }, by decide⟩

theorem test_met_QueuedCommands_39 :
    ∃ (c : QCmd) (q : List QCmd) (s : State), s.Executes c q opHOST_WRITE 4 ∧ s.headRuns (q.filter (fun x => x.ing != c.ing)) =
      true ∧ s.tvx.flashGranted = false ∧ (c.arg 0 4 % sectorSize = 0 ∧ (c.pkt.param = 0 ∨ sectorSize < c.pkt.param)) :=
  ⟨{ ing := .msl, pkt := { version := 3, typ := 0, tag := 5, opcode := opHOST_WRITE, length := 4, data := [0, 0, 1, 0] } },
   [{ ing := .msl, pkt := { version := 3, typ := 0, tag := 7, opcode := opGET_INFO } },
    { ing := .mbox, pkt := { version := 3, typ := 0, tag := 8, opcode := opGET_INFO } }],
   { wS [] with
       tvx :=
         { alive := true, running := true,
           queue :=
             [{ ing := .msl,
                pkt := { version := 3, typ := 0, tag := 5, opcode := opHOST_WRITE, length := 4, data := [0, 0, 1, 0] } },
              { ing := .msl, pkt := { version := 3, typ := 0, tag := 7, opcode := opGET_INFO } },
              { ing := .mbox, pkt := { version := 3, typ := 0, tag := 8, opcode := opGET_INFO } }] } }, by decide⟩

theorem test_met_BundlesAndActivation_1 :
    ∃ (c : QCmd) (q : List QCmd) (s : State), s.Executes c q opSTAGE_BLOCK 8 ∧ s.headRuns (q.filter (fun x => x.ing != c.ing)) =
      true ∧ s.tvx.flashGranted = false ∧ s.tvx.smallFlash = false ∧ c.arg 0 4 % sectorSize = 0 ∧ c.arg 0 4 < c.arg 4 4 ∧
      576 ≤ c.arg 4 4 ∧ c.arg 4 4 ≤ bundleMax ∧ c.pkt.param = min sectorSize (c.arg 4 4 - c.arg 0 4) ∧ s.headRuns (q.filter
      (fun x => x.ing != c.ing)) = true :=
  ⟨{ ing := .msl,
     pkt :=
       { version := 3, typ := 0, tag := 5, opcode := opSTAGE_BLOCK, length := 8, data := [0, 0, 0, 0, 64, 2, 0, 0],
         param := 576 }, data := (List.replicate 576 1) },
   [{ ing := .msl, pkt := { version := 3, typ := 0, tag := 7, opcode := opGET_INFO } },
    { ing := .mbox, pkt := { version := 3, typ := 0, tag := 8, opcode := opGET_INFO } }],
   { wS [] with
       tvx :=
         { alive := true, running := true,
           queue :=
             [{ ing := .msl,
                pkt :=
                  { version := 3, typ := 0, tag := 5, opcode := opSTAGE_BLOCK, length := 8,
                    data := [0, 0, 0, 0, 64, 2, 0, 0], param := 576 }, data := (List.replicate 576 1) },
              { ing := .msl, pkt := { version := 3, typ := 0, tag := 7, opcode := opGET_INFO } },
              { ing := .mbox, pkt := { version := 3, typ := 0, tag := 8, opcode := opGET_INFO } }] } }, by decide⟩

theorem test_met_BundlesAndActivation_2 :
    ∃ (c : QCmd) (q : List QCmd) (s : State), s.Executes c q opSTAGE_BLOCK 8 ∧ s.headRuns (q.filter (fun x => x.ing != c.ing)) =
      true ∧ s.tvx.flashGranted = false ∧ s.tvx.smallFlash = true :=
  ⟨{ ing := .msl,
     pkt := { version := 3, typ := 0, tag := 5, opcode := opSTAGE_BLOCK, length := 8, data := [0, 0, 0, 0, 64, 2, 0, 0] } },
   [{ ing := .msl, pkt := { version := 3, typ := 0, tag := 7, opcode := opGET_INFO } },
    { ing := .mbox, pkt := { version := 3, typ := 0, tag := 8, opcode := opGET_INFO } }],
   { wS [] with
       tvx :=
         { alive := true, running := true,
           queue :=
             [{ ing := .msl,
                pkt :=
                  { version := 3, typ := 0, tag := 5, opcode := opSTAGE_BLOCK, length := 8,
                    data := [0, 0, 0, 0, 64, 2, 0, 0] } },
              { ing := .msl, pkt := { version := 3, typ := 0, tag := 7, opcode := opGET_INFO } },
              { ing := .mbox, pkt := { version := 3, typ := 0, tag := 8, opcode := opGET_INFO } }], smallFlash := true } },
   by decide⟩

theorem test_met_BundlesAndActivation_3 :
    ∃ (c : QCmd) (q : List QCmd) (s : State), s.Executes c q opSTAGE_BLOCK 8 ∧ s.headRuns (q.filter (fun x => x.ing != c.ing)) =
      true ∧ s.tvx.flashGranted = false ∧ s.tvx.smallFlash = false ∧ (c.arg 0 4 % sectorSize ≠ 0 ∨ c.arg 4 4 < 576 ∨
      bundleMax < c.arg 4 4 ∨ c.arg 4 4 ≤ c.arg 0 4) :=
  ⟨{ ing := .msl,
     pkt := { version := 3, typ := 0, tag := 5, opcode := opSTAGE_BLOCK, length := 8, data := [0, 0, 0, 0, 64, 1, 0, 0] } },
   [{ ing := .msl, pkt := { version := 3, typ := 0, tag := 7, opcode := opGET_INFO } },
    { ing := .mbox, pkt := { version := 3, typ := 0, tag := 8, opcode := opGET_INFO } }],
   { wS [] with
       tvx :=
         { alive := true, running := true,
           queue :=
             [{ ing := .msl,
                pkt :=
                  { version := 3, typ := 0, tag := 5, opcode := opSTAGE_BLOCK, length := 8,
                    data := [0, 0, 0, 0, 64, 1, 0, 0] } },
              { ing := .msl, pkt := { version := 3, typ := 0, tag := 7, opcode := opGET_INFO } },
              { ing := .mbox, pkt := { version := 3, typ := 0, tag := 8, opcode := opGET_INFO } }] } }, by decide⟩

theorem test_met_BundlesAndActivation_4 :
    ∃ (c : QCmd) (q : List QCmd) (s : State), s.Executes c q opSTAGE_BLOCK 8 ∧ s.headRuns (q.filter (fun x => x.ing != c.ing)) =
      true ∧ s.tvx.flashGranted = false ∧ s.tvx.smallFlash = false ∧ c.arg 0 4 % sectorSize = 0 ∧ c.arg 0 4 < c.arg 4 4 ∧
      576 ≤ c.arg 4 4 ∧ c.arg 4 4 ≤ bundleMax ∧ c.pkt.param ≠ min sectorSize (c.arg 4 4 - c.arg 0 4) :=
  ⟨{ ing := .msl,
     pkt :=
       { version := 3, typ := 0, tag := 5, opcode := opSTAGE_BLOCK, length := 8, data := [0, 0, 0, 0, 64, 2, 0, 0],
         param := 1 }, data := [1] },
   [{ ing := .msl, pkt := { version := 3, typ := 0, tag := 7, opcode := opGET_INFO } },
    { ing := .mbox, pkt := { version := 3, typ := 0, tag := 8, opcode := opGET_INFO } }],
   { wS [] with
       tvx :=
         { alive := true, running := true,
           queue :=
             [{ ing := .msl,
                pkt :=
                  { version := 3, typ := 0, tag := 5, opcode := opSTAGE_BLOCK, length := 8,
                    data := [0, 0, 0, 0, 64, 2, 0, 0], param := 1 }, data := [1] },
              { ing := .msl, pkt := { version := 3, typ := 0, tag := 7, opcode := opGET_INFO } },
              { ing := .mbox, pkt := { version := 3, typ := 0, tag := 8, opcode := opGET_INFO } }] } }, by decide⟩

theorem test_met_BundlesAndActivation_5 :
    ∃ (c : QCmd) (q : List QCmd) (s : State), s.Executes c q opSTAGE_STATUS 0 ∧ s.tvx.flashGranted = false :=
  ⟨{ ing := .msl, pkt := { version := 3, typ := 0, tag := 5, opcode := opSTAGE_STATUS } },
   [{ ing := .mbox, pkt := { version := 3, typ := 0, tag := 8, opcode := opGET_INFO } }],
   { wS [] with
       tvx :=
         { alive := true, running := true,
           queue :=
             [{ ing := .msl, pkt := { version := 3, typ := 0, tag := 5, opcode := opSTAGE_STATUS } },
              { ing := .mbox, pkt := { version := 3, typ := 0, tag := 8, opcode := opGET_INFO } }], stageLen := 576,
           stage := [(0, List.replicate 576 1)] } }, by decide⟩

theorem test_met_BundlesAndActivation_6 :
    ∃ (s : State), s.tvx.erasing = true :=
  ⟨{ wS [] with tvx := { erasing := true } }, by decide⟩

theorem test_met_BundlesAndActivation_7 :
    ∃ (s : State), s.tvx.erasing = false :=
  ⟨wS [], by decide⟩

theorem test_met_BundlesAndActivation_8 :
    ∃ (i : Instr) (op n : Nat) (s : State), (i, op, n) ∈ longRows ∧ s.headCmd op = none :=
  ⟨.activateBundle, opACTIVATE, 0, wS [], by decide⟩

theorem test_met_BundlesAndActivation_9 :
    ∃ (i : Instr) (op n : Nat) (c : QCmd) (q : List QCmd) (s : State), (i, op, n) ∈ longRows ∧ s.headCmd op = some c ∧
      s.tvx.queue = c :: q ∧ c.data.length < c.pkt.param ∧ c.pkt.version ≠ 1 ∧ c.xfer = false :=
  ⟨.activateBundle, opACTIVATE, 0,
   { ing := .msl, pkt := { version := 3, typ := 0, tag := 5, opcode := opACTIVATE, param := 5000 } },
   [{ ing := .msl, pkt := { version := 3, typ := 0, tag := 7, opcode := opGET_INFO } }],
   { wS [] with
       tvx :=
         { alive := true, running := true,
           queue :=
             [{ ing := .msl, pkt := { version := 3, typ := 0, tag := 5, opcode := opACTIVATE, param := 5000 } },
              { ing := .msl, pkt := { version := 3, typ := 0, tag := 7, opcode := opGET_INFO } }] } }, by decide⟩

theorem test_met_BundlesAndActivation_10 :
    ∃ (i : Instr) (op n : Nat) (c : QCmd) (q : List QCmd) (s : State), (i, op, n) ∈ longRows ∧ s.headCmd op = some c ∧
      s.tvx.queue = c :: q ∧ c.data.length < c.pkt.param ∧ c.pkt.version ≠ 1 ∧ c.xfer = true :=
  ⟨.activateBundle, opACTIVATE, 0,
   { ing := .msl, pkt := { version := 3, typ := 0, tag := 5, opcode := opACTIVATE, param := 5000 }, xfer := true },
   [{ ing := .msl, pkt := { version := 3, typ := 0, tag := 7, opcode := opGET_INFO } }],
   { wS [] with
       tvx :=
         { alive := true, running := true,
           queue :=
             [{ ing := .msl, pkt := { version := 3, typ := 0, tag := 5, opcode := opACTIVATE, param := 5000 },
                xfer := true }, { ing := .msl, pkt := { version := 3, typ := 0, tag := 7, opcode := opGET_INFO } }] } },
   by decide⟩

theorem test_met_BundlesAndActivation_11 :
    ∃ (i : Instr) (op n : Nat) (c : QCmd) (q : List QCmd) (s : State), (i, op, n) ∈ longRows ∧ s.headCmd op = some c ∧
      s.tvx.queue = c :: q ∧ c.pkt.version = 1 ∧ c.pkt.param ≠ 0 :=
  ⟨.activateBundle, opACTIVATE, 0,
   { ing := .msl, pkt := { version := 1, typ := 0, tag := 5, opcode := opACTIVATE, param := 3 } },
   [{ ing := .msl, pkt := { version := 3, typ := 0, tag := 7, opcode := opGET_INFO } }],
   { wS [] with
       tvx :=
         { alive := true, running := true,
           queue :=
             [{ ing := .msl, pkt := { version := 1, typ := 0, tag := 5, opcode := opACTIVATE, param := 3 } },
              { ing := .msl, pkt := { version := 3, typ := 0, tag := 7, opcode := opGET_INFO } }] } }, by decide⟩

theorem test_met_BundlesAndActivation_12 :
    ∃ (i : Instr) (op n : Nat) (c : QCmd) (q : List QCmd) (s : State), (i, op, n) ∈ longRows ∧ s.headCmd op = some c ∧
      s.tvx.queue = c :: q ∧ ((c.pkt.version = 1 → c.pkt.param = 0) ∧ c.pkt.param ≤ c.data.length) ∧ c.pkt.data.length < n :=
  ⟨.sanitiseRange, opSANITISE_RANGE, 16,
   { ing := .msl, pkt := { version := 3, typ := 0, tag := 5, opcode := opSANITISE_RANGE } },
   [{ ing := .msl, pkt := { version := 3, typ := 0, tag := 7, opcode := opGET_INFO } }],
   { wS [] with
       tvx :=
         { alive := true, running := true,
           queue :=
             [{ ing := .msl, pkt := { version := 3, typ := 0, tag := 5, opcode := opSANITISE_RANGE } },
              { ing := .msl, pkt := { version := 3, typ := 0, tag := 7, opcode := opGET_INFO } }] } }, by decide⟩

theorem test_met_BundlesAndActivation_13 :
    ∃ (c : QCmd) (q : List QCmd) (s : State), s.Executes c q opACTIVATE 0 ∧ s.tvx.flashGranted = false ∧ c.pkt.data = [] ∧
      s.stageDone = true :=
  ⟨{ ing := .msl, pkt := { version := 3, typ := 0, tag := 5, opcode := opACTIVATE } },
   [{ ing := .msl, pkt := { version := 3, typ := 0, tag := 7, opcode := opGET_INFO } }],
   { wS [] with
       tvx :=
         { alive := true, running := true,
           queue :=
             [{ ing := .msl, pkt := { version := 3, typ := 0, tag := 5, opcode := opACTIVATE } },
              { ing := .msl, pkt := { version := 3, typ := 0, tag := 7, opcode := opGET_INFO } }], stageLen := 576,
           stage := [(0, List.replicate 576 1)] } }, by decide⟩

theorem test_met_BundlesAndActivation_14 :
    ∃ (c : QCmd) (q : List QCmd) (s : State), s.Executes c q opACTIVATE 0 ∧ s.tvx.flashGranted = false ∧ c.pkt.data = [] ∧
      s.stageDone = false :=
  ⟨{ ing := .msl, pkt := { version := 3, typ := 0, tag := 5, opcode := opACTIVATE } },
   [{ ing := .msl, pkt := { version := 3, typ := 0, tag := 7, opcode := opGET_INFO } }],
   { wS [] with
       tvx :=
         { alive := true, running := true,
           queue :=
             [{ ing := .msl, pkt := { version := 3, typ := 0, tag := 5, opcode := opACTIVATE } },
              { ing := .msl, pkt := { version := 3, typ := 0, tag := 7, opcode := opGET_INFO } }] } }, by decide⟩

theorem test_met_BundlesAndActivation_15 :
    ∃ (c : QCmd) (q : List QCmd) (s : State), s.Executes c q opACTIVATE 0 ∧ (s.tvx.flashGranted = true ∨ c.pkt.data ≠ []) :=
  ⟨{ ing := .msl, pkt := { version := 3, typ := 0, tag := 5, opcode := opACTIVATE, length := 1, data := [1] } },
   [{ ing := .msl, pkt := { version := 3, typ := 0, tag := 7, opcode := opGET_INFO } }],
   { wS [] with
       tvx :=
         { alive := true, running := true,
           queue :=
             [{ ing := .msl, pkt := { version := 3, typ := 0, tag := 5, opcode := opACTIVATE, length := 1, data := [1] } },
              { ing := .msl, pkt := { version := 3, typ := 0, tag := 7, opcode := opGET_INFO } }] } }, by decide⟩

theorem test_met_BundlesAndActivation_16 :
    ∃ (a : Act) (s : State), s.Activates a .copy ∧ s.tvx.alive = true ∧ s.tvx.running = true ∧ s.tvx.recovery = false :=
  ⟨{ ph := .copy, target := 1, setId := 7 },
   { wS [] with
       tvx :=
         { alive := true, running := true,
           longOp :=
             some { cmd := { ing := .msl, pkt := { version := 3, typ := 0, tag := 5, opcode := opACTIVATE } }, start := 0 },
           act := some { ph := .copy, target := 1, setId := 7 }, stageLen := 576, stage := [(0, List.replicate 576 1)] } },
   by decide⟩

theorem test_met_BundlesAndActivation_17 :
    ∃ (a : Act) (s : State), s.Activates a .copy ∧ s.tvx.running = false ∧ s.tvx.recovery = true :=
  ⟨{ ph := .copy, target := 1, setId := 7 },
   { wS [] with
       tvx :=
         { alive := true, running := false, recovery := true,
           longOp :=
             some { cmd := { ing := .msl, pkt := { version := 3, typ := 0, tag := 5, opcode := opACTIVATE } }, start := 0 },
           act := some { ph := .copy, target := 1, setId := 7 }, stageLen := 576, stage := [(0, List.replicate 576 1)] } },
   by decide⟩

theorem test_met_BundlesAndActivation_18 :
    ∃ (s : State), (s.tvx.act.all (fun a => a.ph != .copy || a.fail.isSome) = true ∨ (s.tvx.running = false ∧ s.tvx.recovery =
      false)) :=
  ⟨{ wS [] with
       tvx :=
         { alive := true, running := true,
           longOp :=
             some { cmd := { ing := .msl, pkt := { version := 3, typ := 0, tag := 5, opcode := opACTIVATE } }, start := 0 },
           act := some { ph := .deferPwr, target := 1, setId := 7 } } }, by decide⟩

theorem test_met_BundlesAndActivation_19 :
    ∃ (s : State), s.tvx.alive = true ∧ s.tvx.running = false ∧ s.tvx.recovery = false ∧ s.tvx.act = none ∧ (s.tvx.smallFlash =
      true ∨ (s.dirRec = none ∧ s.slotOk 0 true = false ∧ s.slotOk 1 true = false) ∨ (s.dirRec ≠ none ∧ s.slotOk
      s.dir.active false = false ∧ s.slotOk (1 - s.dir.active) false = false)) :=
  ⟨{ wS [] with tvx := { alive := true, dir0 := some {} } }, by decide⟩

theorem test_met_BundlesAndActivation_20 :
    ∃ (s : State), s.tvx.alive = true ∧ s.tvx.running = false ∧ s.tvx.recovery = false ∧ (s.tvx.act ≠ none ∧ (s.tvx.cause ≠
      .activate ∨ s.tvx.act.all (fun a => s.dir.pending != a.target || a.fail.isSome) = true)) ∧ (s.tvx.smallFlash = true ∨
      (s.dirRec ≠ none ∧ s.slotOk s.dir.active false = false ∧ s.slotOk (1 - s.dir.active) false = false)) :=
  ⟨{ wS [] with
       tvx :=
         { alive := true, running := false,
           longOp :=
             some { cmd := { ing := .msl, pkt := { version := 3, typ := 0, tag := 5, opcode := opACTIVATE } }, start := 0 },
           act := some { ph := .copy, target := 1, setId := 7 }, cause := .lockstep, dir0 := some {} } }, by decide⟩

theorem test_met_BundlesAndActivation_21 :
    ∃ (s : State), (s.tvx.alive = false ∨ s.tvx.running = true ∨ s.tvx.recovery = true) :=
  ⟨wS [], by decide⟩

theorem test_met_BundlesAndActivation_22 :
    ∃ (s : State), s.tvx.alive = true ∧ s.tvx.running = false ∧ s.tvx.recovery = false ∧ s.tvx.act = none ∧ s.tvx.cause ≠ .none
      ∧ s.tvx.smallFlash = false :=
  ⟨{ wS [] with tvx := { alive := true, dir0 := some {}, cause := .lockstep } }, by decide⟩

theorem test_met_BundlesAndActivation_23 :
    ∃ (s : State), s.tvx.alive = true ∧ s.tvx.running = false ∧ s.tvx.recovery = false ∧ s.tvx.act = none ∧ s.tvx.cause = .none
      ∧ s.tvx.smallFlash = false :=
  ⟨{ wS [] with tvx := { alive := true, dir0 := some {} } }, by decide⟩

theorem test_met_BundlesAndActivation_24 :
    ∃ (a : Act) (s : State), s.tvx.alive = true ∧ s.tvx.running = false ∧ s.tvx.recovery = false ∧ s.tvx.act = some a ∧
      s.tvx.cause = .activate ∧ s.dir.pending = a.target ∧ a.fail = none ∧ a.done = [] ∧ bundleSchema (s.slotBytes a.target)
      < (if s.dir.active = 0 then s.tvx.set0 else s.tvx.set1).schema :=
  ⟨{ ph := .mainNew, target := 1, setId := 7 },
   { wS [] with
       tvx :=
         { alive := true, running := false,
           longOp :=
             some { cmd := { ing := .msl, pkt := { version := 3, typ := 0, tag := 5, opcode := opACTIVATE } }, start := 0 },
           act := some { ph := .mainNew, target := 1, setId := 7 }, cause := .activate, dir0 := some { pending := 1 },
           set0 := { schema := 5 } } }, by decide⟩

theorem test_met_BundlesAndActivation_25 :
    ∃ (a : Act) (s : State), s.tvx.alive = true ∧ s.tvx.running = false ∧ s.tvx.recovery = false ∧ s.tvx.act = some a ∧
      s.tvx.cause = .activate ∧ s.dir.pending = a.target ∧ a.fail = none ∧ a.done = [] ∧ (if s.dir.active = 0 then
      s.tvx.set0 else s.tvx.set1).schema ≤ bundleSchema (s.slotBytes a.target) :=
  ⟨{ ph := .mainNew, target := 1, setId := 7 },
   { wS [] with
       tvx :=
         { alive := true, running := false,
           longOp :=
             some { cmd := { ing := .msl, pkt := { version := 3, typ := 0, tag := 5, opcode := opACTIVATE } }, start := 0 },
           act := some { ph := .mainNew, target := 1, setId := 7 }, cause := .activate, dir0 := some { pending := 1 },
           set0 := { items := [(3, [44])] } } }, by decide⟩

theorem test_met_BundlesAndActivation_26 :
    ∃ (a : Act) (e : Nat × Nat × Nat) (s : State), s.tvx.alive = true ∧ s.tvx.running = false ∧ s.tvx.recovery = false ∧
      (s.tvx.act = some a ∧ (s.tvx.cause ≠ .activate ∨ s.dir.pending ≠ a.target ∨ a.fail ≠ none)) ∧ s.tvx.smallFlash = false
      ∧ s.dirRec ≠ none ∧ a.ph = .mainOld ∧ a.fail = some e :=
  ⟨{ ph := .mainOld, target := 1, setId := 7, fail := some (5, 3, 8) }, (5, 3, 8),
   { wS [] with
       tvx :=
         { alive := true, running := false,
           longOp :=
             some { cmd := { ing := .msl, pkt := { version := 3, typ := 0, tag := 5, opcode := opACTIVATE } }, start := 0 },
           act := some { ph := .mainOld, target := 1, setId := 7, fail := some (5, 3, 8) }, cause := .rollback,
           dir0 := some {} } }, by decide⟩

theorem test_met_BundlesAndActivation_27 :
    ∃ (a : Act) (k : Nat) (q : List Nat) (s : State), s.tvx.alive = true ∧ s.tvx.running = false ∧ s.tvx.recovery = false ∧
      (s.tvx.act = some a ∧ (s.tvx.cause ≠ .activate ∨ s.dir.pending ≠ a.target ∨ a.fail ≠ none)) ∧ s.tvx.smallFlash = false
      ∧ s.dirRec ≠ none ∧ a.ph ≠ .mainOld ∧ a.done = k :: q :=
  ⟨{ ph := .comp 3, target := 1, setId := 7, done := [3, 2], fail := some (5, 3, 12) }, 3, [2],
   { wS [] with
       tvx :=
         { alive := true, running := false,
           longOp :=
             some { cmd := { ing := .msl, pkt := { version := 3, typ := 0, tag := 5, opcode := opACTIVATE } }, start := 0 },
           act := some { ph := .comp 3, target := 1, setId := 7, done := [3, 2], fail := some (5, 3, 12) },
           cause := .lockstep, dir0 := some {} } }, by decide⟩

theorem test_met_BundlesAndActivation_28 :
    ∃ (a : Act) (e : Nat × Nat × Nat) (s : State), s.tvx.alive = true ∧ s.tvx.running = false ∧ s.tvx.recovery = false ∧
      (s.tvx.act = some a ∧ (s.tvx.cause ≠ .activate ∨ s.dir.pending ≠ a.target ∨ a.fail ≠ none)) ∧ s.tvx.smallFlash = false
      ∧ s.dirRec ≠ none ∧ a.ph ≠ .mainOld ∧ a.done = [] ∧ a.fail = some e ∧ a.target ≠ s.dir.active :=
  ⟨{ ph := .mainNew, target := 1, setId := 7, fail := some (3, 1, 8) }, (3, 1, 8),
   { wS [] with
       tvx :=
         { alive := true, running := false,
           longOp :=
             some { cmd := { ing := .msl, pkt := { version := 3, typ := 0, tag := 5, opcode := opACTIVATE } }, start := 0 },
           act := some { ph := .mainNew, target := 1, setId := 7, fail := some (3, 1, 8) }, cause := .notReady,
           dir0 := some {} } }, by decide⟩

theorem test_met_BundlesAndActivation_29 :
    ∃ (a : Act) (s : State), s.Activates a (.comp 2) ∧ s.tvx.running = true :=
  ⟨{ ph := .comp 2, target := 1, setId := 7 },
   { wS [(R.XCE_STATUS_UC_RUNNING, 1)] with
       tvx :=
         { alive := true, running := true,
           longOp :=
             some { cmd := { ing := .msl, pkt := { version := 3, typ := 0, tag := 5, opcode := opACTIVATE } }, start := 0 },
           act := some { ph := .comp 2, target := 1, setId := 7 } } }, by decide⟩

theorem test_met_BundlesAndActivation_30 :
    ∃ (a : Act) (s : State), s.Activates a (.comp 3) ∧ s.tvx.running = true :=
  ⟨{ ph := .comp 3, target := 1, setId := 7 },
   { wS [(R.XCE_STATUS_UC_RUNNING, 1)] with
       tvx :=
         { alive := true, running := true,
           longOp :=
             some { cmd := { ing := .msl, pkt := { version := 3, typ := 0, tag := 5, opcode := opACTIVATE } }, start := 0 },
           act := some { ph := .comp 3, target := 1, setId := 7 } } }, by decide⟩

theorem test_met_BundlesAndActivation_31 :
    ∃ (a : Act) (s : State), s.Activates a (.comp 5) ∧ s.tvx.running = true :=
  ⟨{ ph := .comp 5, target := 1, setId := 7 },
   { wS [(R.XCE_STATUS_UC_RUNNING, 1)] with
       tvx :=
         { alive := true, running := true,
           longOp :=
             some { cmd := { ing := .msl, pkt := { version := 3, typ := 0, tag := 5, opcode := opACTIVATE } }, start := 0 },
           act := some { ph := .comp 5, target := 1, setId := 7 } } }, by decide⟩

theorem test_met_BundlesAndActivation_32 :
    ∃ (a : Act) (s : State), s.Activates a (.comp 6) ∧ s.tvx.running = true :=
  ⟨{ ph := .comp 6, target := 1, setId := 7 },
   { wS [] with
       tvx :=
         { alive := true, running := true,
           longOp :=
             some { cmd := { ing := .msl, pkt := { version := 3, typ := 0, tag := 5, opcode := opACTIVATE } }, start := 0 },
           act := some { ph := .comp 6, target := 1, setId := 7 } } }, by decide⟩

theorem test_met_BundlesAndActivation_33 :
    ∃ (a : Act) (s : State), s.Activates a (.comp 6) ∧ s.tvx.running = true ∧ imageRange 3 (entryVersion (s.slotBytes
      s.dir.active) 3) = imageRange 3 (entryVersion (s.slotBytes a.target) 3) ∧ imageRange 5 (entryVersion (s.slotBytes
      s.dir.active) 5) = imageRange 5 (entryVersion (s.slotBytes a.target) 5) ∧ (s.get R.XCE_EVENT_EN_ENABLE).testBit 4 =
      false ∧ s.xce.commit = [] ∧ s.xce.share = [] :=
  ⟨{ ph := .comp 6, target := 1, setId := 7 },
   { wS [] with
       tvx :=
         { alive := true, running := true,
           longOp :=
             some { cmd := { ing := .msl, pkt := { version := 3, typ := 0, tag := 5, opcode := opACTIVATE } }, start := 0 },
           act := some { ph := .comp 6, target := 1, setId := 7 }, dir0 := some { active := 1 } } }, ⟨rfl, rfl, rfl⟩,
   rfl, rfl, rfl, by decide⟩

theorem test_met_BundlesAndActivation_34 :
    ∃ (a : Act) (k : Nat) (n : Nat) (q : List Nat) (s : State), s.tvx.act = some a ∧ a.ph = .back k ∧ k ≠ ucXCE ∧ s.tvx.running
      = true ∧ a.done = n :: q :=
  ⟨{ ph := .back 3, target := 1, setId := 7, fail := some (5, 3, 8), done := [2] }, 3, 2, [],
   { wS [] with
       tvx :=
         { alive := true, running := true,
           longOp :=
             some { cmd := { ing := .msl, pkt := { version := 3, typ := 0, tag := 5, opcode := opACTIVATE } }, start := 0 },
           act := some { ph := .back 3, target := 1, setId := 7, fail := some (5, 3, 8), done := [2] } } }, by decide⟩

theorem test_met_BundlesAndActivation_35 :
    ∃ (a : Act) (k : Nat) (s : State), s.tvx.act = some a ∧ a.ph = .back k ∧ k ≠ ucXCE ∧ s.tvx.running = true ∧ a.done = [] ∧
      s.tvx.runs = a.target ∧ s.tvx.alive = true :=
  ⟨{ ph := .back 2, target := 1, setId := 7, fail := some (5, 3, 8) }, 2,
   { wS [] with
       tvx :=
         { alive := true, running := true,
           longOp :=
             some { cmd := { ing := .msl, pkt := { version := 3, typ := 0, tag := 5, opcode := opACTIVATE } }, start := 0 },
           act := some { ph := .back 2, target := 1, setId := 7, fail := some (5, 3, 8) }, runs := 1 } }, by decide⟩

theorem test_met_BundlesAndActivation_36 :
    ∃ (a : Act) (k : Nat) (e : Nat × Nat × Nat) (s : State), s.tvx.act = some a ∧ a.ph = .back k ∧ k ≠ ucXCE ∧ s.tvx.running =
      true ∧ a.done = [] ∧ s.tvx.runs ≠ a.target ∧ a.fail = some e :=
  ⟨{ ph := .back 2, target := 1, setId := 7, fail := some (5, 3, 8) }, 2, (5, 3, 8),
   { wS [] with
       tvx :=
         { alive := true, running := true,
           longOp :=
             some { cmd := { ing := .msl, pkt := { version := 3, typ := 0, tag := 5, opcode := opACTIVATE } }, start := 0 },
           act := some { ph := .back 2, target := 1, setId := 7, fail := some (5, 3, 8) } } }, by decide⟩

theorem test_met_BundlesAndActivation_37 :
    ∃ (a : Act) (n : Nat) (q : List Nat) (s : State), s.tvx.act = some a ∧ a.ph = .back 6 ∧ s.tvx.running = true ∧ a.done = n ::
      q :=
  ⟨{ ph := .back 6, target := 1, setId := 7, fail := some (5, 3, 8), done := [5] }, 5, [],
   { wS [] with
       tvx :=
         { alive := true, running := true,
           longOp :=
             some { cmd := { ing := .msl, pkt := { version := 3, typ := 0, tag := 5, opcode := opACTIVATE } }, start := 0 },
           act := some { ph := .back 6, target := 1, setId := 7, fail := some (5, 3, 8), done := [5] } } }, by decide⟩

theorem test_met_BundlesAndActivation_38 :
    ∃ (s : State), (s.tvx.running = false ∨ s.tvx.act.all (fun a => !a.ph.waits) = true) :=
  ⟨{ wS [] with
       tvx :=
         { alive := true, running := true,
           longOp :=
             some { cmd := { ing := .msl, pkt := { version := 3, typ := 0, tag := 5, opcode := opACTIVATE } }, start := 0 },
           act := some { ph := .copy, target := 1, setId := 7 } } }, by decide⟩

theorem test_met_BundlesAndActivation_39 :
    ∃ (b : Bool) (a : Act) (k n : Nat) (q : List Nat) (s : State), s.Activates a (.comp k) ∧ s.tvx.running = true ∧ a.done = n
      :: q :=
  ⟨false, { ph := .comp 5, target := 1, setId := 7, done := [5, 3, 2] }, 5, 5, [3, 2],
   { wS [] with
       tvx :=
         { alive := true, running := true,
           longOp :=
             some { cmd := { ing := .msl, pkt := { version := 3, typ := 0, tag := 5, opcode := opACTIVATE } }, start := 0 },
           act := some { ph := .comp 5, target := 1, setId := 7, done := [5, 3, 2] } } }, by decide⟩

theorem test_met_BundlesAndActivation_40 :
    ∃ (b : Bool) (a : Act) (k : Nat) (n : Nat) (q : List Nat) (s : State), s.tvx.act = some a ∧ a.ph = .back k ∧ k ≠ ucXCE ∧
      s.tvx.running = true ∧ a.done = n :: q :=
  ⟨true, { ph := .back 3, target := 1, setId := 7, fail := some (5, 3, 8), done := [2] }, 3, 2, [],
   { wS [] with
       tvx :=
         { alive := true, running := true,
           longOp :=
             some { cmd := { ing := .msl, pkt := { version := 3, typ := 0, tag := 5, opcode := opACTIVATE } }, start := 0 },
           act := some { ph := .back 3, target := 1, setId := 7, fail := some (5, 3, 8), done := [2] } } }, by decide⟩

theorem test_met_BundlesAndActivation_41 :
    ∃ (b : Bool) (a : Act) (k : Nat) (s : State), s.tvx.act = some a ∧ a.ph = .back k ∧ k ≠ ucXCE ∧ s.tvx.running = true ∧
      a.done = [] ∧ s.tvx.runs = a.target ∧ s.tvx.alive = true :=
  ⟨true, { ph := .back 2, target := 1, setId := 7, fail := some (5, 3, 8) }, 2,
   { wS [] with
       tvx :=
         { alive := true, running := true,
           longOp :=
             some { cmd := { ing := .msl, pkt := { version := 3, typ := 0, tag := 5, opcode := opACTIVATE } }, start := 0 },
           act := some { ph := .back 2, target := 1, setId := 7, fail := some (5, 3, 8) }, runs := 1 } }, by decide⟩

theorem test_met_BundlesAndActivation_42 :
    ∃ (b : Bool) (a : Act) (k : Nat) (e : Nat × Nat × Nat) (s : State), s.tvx.act = some a ∧ a.ph = .back k ∧ k ≠ ucXCE ∧
      s.tvx.running = true ∧ a.done = [] ∧ s.tvx.runs ≠ a.target ∧ a.fail = some e :=
  ⟨true, { ph := .back 2, target := 1, setId := 7, fail := some (5, 3, 8) }, 2, (5, 3, 8),
   { wS [] with
       tvx :=
         { alive := true, running := true,
           longOp :=
             some { cmd := { ing := .msl, pkt := { version := 3, typ := 0, tag := 5, opcode := opACTIVATE } }, start := 0 },
           act := some { ph := .back 2, target := 1, setId := 7, fail := some (5, 3, 8) } } }, by decide⟩

theorem test_met_BundlesAndActivation_43 :
    ∃ (b : Bool) (s : State), (s.tvx.running = false ∨ s.tvx.act.all (fun a => !a.ph.waits) = true) :=
  ⟨false,
   { wS [] with
       tvx :=
         { alive := true, running := true,
           longOp :=
             some { cmd := { ing := .msl, pkt := { version := 3, typ := 0, tag := 5, opcode := opACTIVATE } }, start := 0 },
           act := some { ph := .copy, target := 1, setId := 7 } } }, by decide⟩

theorem test_met_BundlesAndActivation_44 :
    ∃ (a : Act) (s : State), s.Activates a .deferPwr ∧ s.tvx.running = true :=
  ⟨{ ph := .deferPwr, target := 1, setId := 7 },
   { wS [(R.PWR_STATUS_UC_RUNNING, 1)] with
       tvx :=
         { alive := true, running := true,
           longOp :=
             some { cmd := { ing := .msl, pkt := { version := 3, typ := 0, tag := 5, opcode := opACTIVATE } }, start := 0 },
           act := some { ph := .deferPwr, target := 1, setId := 7 } } }, by decide⟩

theorem test_met_BundlesAndActivation_45 :
    ∃ (s : State), (s.tvx.act.all (fun a => a.ph != .deferPwr) = true ∨ s.tvx.running = false) :=
  ⟨{ wS [] with
       tvx :=
         { alive := true, running := true,
           longOp :=
             some { cmd := { ing := .msl, pkt := { version := 3, typ := 0, tag := 5, opcode := opACTIVATE } }, start := 0 },
           act := some { ph := .copy, target := 1, setId := 7 } } }, by decide⟩

theorem test_met_BundlesAndActivation_46 :
    ∃ (a : Act) (s : State), s.Activates a .mainNew ∧ s.tvx.running = false ∧ s.tvx.alive = true :=
  ⟨{ ph := .mainNew, target := 1, setId := 7 },
   { wS [] with
       tvx :=
         { alive := true, running := false,
           longOp :=
             some { cmd := { ing := .msl, pkt := { version := 3, typ := 0, tag := 5, opcode := opACTIVATE } }, start := 0 },
           act := some { ph := .mainNew, target := 1, setId := 7 } } }, by decide⟩

theorem test_met_BundlesAndActivation_47 :
    ∃ (s : State), (s.tvx.running = true ∨ s.tvx.act.all (fun a => a.ph != .mainNew || a.fail.isSome) = true) :=
  ⟨{ wS [] with
       tvx :=
         { alive := true, running := true,
           longOp :=
             some { cmd := { ing := .msl, pkt := { version := 3, typ := 0, tag := 5, opcode := opACTIVATE } }, start := 0 },
           act := some { ph := .copy, target := 1, setId := 7 } } }, by decide⟩

theorem test_met_LongOperationsAndResets_1 :
    ∃ (s : State), s.tvx.alive = true ∧ s.tvx.act.all (fun a => a.fail.isNone) = true :=
  ⟨{ wS [] with
       tvx :=
         { alive := true, running := true,
           queue := [{ ing := .msl, pkt := { version := 3, typ := 0, tag := 5, opcode := opGET_INFO } }],
           msl := { frozen := true }, act := some { ph := .comp 3, target := 1, setId := 7 } } }, by decide⟩

theorem test_met_LongOperationsAndResets_2 :
    ∃ (s : State), s.tvx.alive = true ∧ s.tvx.act.any (fun a => a.fail.isSome) = true :=
  ⟨{ wS [] with
       tvx :=
         { alive := true, running := true,
           queue := [{ ing := .msl, pkt := { version := 3, typ := 0, tag := 5, opcode := opGET_INFO } }],
           msl := { frozen := true }, act := some { ph := .back 3, target := 1, setId := 7, fail := some (5, 3, 8) } } },
   by decide⟩

theorem test_met_LongOperationsAndResets_3 :
    ∃ (s : State), s.tvx.alive = false :=
  ⟨wS [], by decide⟩

theorem test_met_LongOperationsAndResets_4 :
    ∃ (s : State), s.tvx.alive = true ∧ s.tvx.act.all (fun a => a.fail.isNone) = true :=
  ⟨{ wS [] with
       tvx :=
         { alive := true, running := true,
           queue := [{ ing := .msl, pkt := { version := 3, typ := 0, tag := 5, opcode := opGET_INFO } }],
           msl := { frozen := true }, act := some { ph := .comp 3, target := 1, setId := 7 } } }, by decide⟩

theorem test_met_LongOperationsAndResets_5 :
    ∃ (s : State), s.tvx.alive = true ∧ s.tvx.act.any (fun a => a.fail.isSome) = true :=
  ⟨{ wS [] with
       tvx :=
         { alive := true, running := true,
           queue := [{ ing := .msl, pkt := { version := 3, typ := 0, tag := 5, opcode := opGET_INFO } }],
           msl := { frozen := true }, act := some { ph := .back 3, target := 1, setId := 7, fail := some (5, 3, 8) } } },
   by decide⟩

theorem test_met_LongOperationsAndResets_6 :
    ∃ (s : State), s.tvx.alive = false :=
  ⟨wS [], by decide⟩

theorem test_met_LongOperationsAndResets_7 :
    ∃ (s : State), s.tvx.alive = true ∧ s.tvx.running = true ∧ s.tvx.act.all (fun a => a.fail.isNone) = true :=
  ⟨{ wS [] with
       tvx :=
         { alive := true, running := true,
           queue := [{ ing := .msl, pkt := { version := 3, typ := 0, tag := 5, opcode := opGET_INFO } }],
           msl := { frozen := true }, act := some { ph := .comp 3, target := 1, setId := 7 } } }, by decide⟩

theorem test_met_LongOperationsAndResets_8 :
    ∃ (s : State), s.tvx.alive = true ∧ s.tvx.running = true ∧ s.tvx.act.any (fun a => a.fail.isSome) = true :=
  ⟨{ wS [] with
       tvx :=
         { alive := true, running := true,
           queue := [{ ing := .msl, pkt := { version := 3, typ := 0, tag := 5, opcode := opGET_INFO } }],
           msl := { frozen := true }, act := some { ph := .back 3, target := 1, setId := 7, fail := some (5, 3, 8) } } },
   by decide⟩

theorem test_met_LongOperationsAndResets_9 :
    ∃ (s : State), (s.tvx.alive = false ∨ s.tvx.running = false) :=
  ⟨wS [], by decide⟩

theorem test_met_LongOperationsAndResets_10 :
    ∃ (c : QCmd) (q : List QCmd) (s : State), s.Executes c q opPACKAGE_RESET 1 ∧ c.pkt.data.headD 0 = 2 ∧ s.tvx.alive = true ∧
      s.tvx.act.all (fun a => a.fail.isNone) = true :=
  ⟨{ ing := .msl, pkt := { version := 3, typ := 0, tag := 5, opcode := opPACKAGE_RESET, length := 1, data := [2] } },
   [{ ing := .mbox, pkt := { version := 3, typ := 0, tag := 8, opcode := opGET_INFO } }],
   { wS [] with
       tvx :=
         { alive := true, running := true,
           queue :=
             [{ ing := .msl,
                pkt := { version := 3, typ := 0, tag := 5, opcode := opPACKAGE_RESET, length := 1, data := [2] } },
              { ing := .mbox, pkt := { version := 3, typ := 0, tag := 8, opcode := opGET_INFO } }] } }, by decide⟩

theorem test_met_LongOperationsAndResets_11 :
    ∃ (c : QCmd) (q : List QCmd) (s : State), s.Executes c q opPACKAGE_RESET 1 ∧ c.pkt.data.headD 0 = 1 ∧ s.warmReady = true :=
  ⟨{ ing := .msl, pkt := { version := 3, typ := 0, tag := 5, opcode := opPACKAGE_RESET, length := 1, data := [1] } },
   [{ ing := .mbox, pkt := { version := 3, typ := 0, tag := 8, opcode := opGET_INFO } }],
   { wS [] with
       tvx :=
         { alive := true, running := true,
           queue :=
             [{ ing := .msl,
                pkt := { version := 3, typ := 0, tag := 5, opcode := opPACKAGE_RESET, length := 1, data := [1] } },
              { ing := .mbox, pkt := { version := 3, typ := 0, tag := 8, opcode := opGET_INFO } }] },
       pwr := { stage := .run } }, by decide⟩

theorem test_met_LongOperationsAndResets_12 :
    ∃ (c : QCmd) (q : List QCmd) (s : State), s.Executes c q opPACKAGE_RESET 1 ∧ s.headRuns (q.filter (fun x => x.ing != c.ing))
      = true ∧ c.pkt.data.headD 0 ≠ 1 ∧ c.pkt.data.headD 0 ≠ 2 :=
  ⟨{ ing := .msl, pkt := { version := 3, typ := 0, tag := 5, opcode := opPACKAGE_RESET, length := 1, data := [3] } },
   [{ ing := .msl, pkt := { version := 3, typ := 0, tag := 7, opcode := opGET_INFO } },
    { ing := .mbox, pkt := { version := 3, typ := 0, tag := 8, opcode := opGET_INFO } }],
   { wS [] with
       tvx :=
         { alive := true, running := true,
           queue :=
             [{ ing := .msl,
                pkt := { version := 3, typ := 0, tag := 5, opcode := opPACKAGE_RESET, length := 1, data := [3] } },
              { ing := .msl, pkt := { version := 3, typ := 0, tag := 7, opcode := opGET_INFO } },
              { ing := .mbox, pkt := { version := 3, typ := 0, tag := 8, opcode := opGET_INFO } }] } }, by decide⟩

theorem test_met_LongOperationsAndResets_13 :
    ∃ (c : QCmd) (q : List QCmd) (s : State), s.Executes c q opPACKAGE_RESET 1 ∧ s.headRuns (q.filter (fun x => x.ing != c.ing))
      = true ∧ c.pkt.data.headD 0 = 1 ∧ s.warmReady = false :=
  ⟨{ ing := .msl, pkt := { version := 3, typ := 0, tag := 5, opcode := opPACKAGE_RESET, length := 1, data := [1] } },
   [{ ing := .msl, pkt := { version := 3, typ := 0, tag := 7, opcode := opGET_INFO } },
    { ing := .mbox, pkt := { version := 3, typ := 0, tag := 8, opcode := opGET_INFO } }],
   { wS [] with
       tvx :=
         { alive := true, running := true,
           queue :=
             [{ ing := .msl,
                pkt := { version := 3, typ := 0, tag := 5, opcode := opPACKAGE_RESET, length := 1, data := [1] } },
              { ing := .msl, pkt := { version := 3, typ := 0, tag := 7, opcode := opGET_INFO } },
              { ing := .mbox, pkt := { version := 3, typ := 0, tag := 8, opcode := opGET_INFO } }] },
       pwr := { stage := .good } }, by decide⟩

theorem test_met_LongOperationsAndResets_14 :
    ∃ (c : QCmd) (q : List QCmd) (s : State), s.Executes c q opSANITISE_RANGE 16 ∧ s.tvx.flashGranted = false ∧ s.hostUp = true
      ∧ s.sanRange (c.arg 0 8) 1 = true ∧ s.sanRange (c.arg 0 8) (c.arg 8 8) = true ∧ c.arg 0 8 % 4096 = 0 ∧ c.arg 8 8 %
      4096 = 0 ∧ c.arg 8 8 ≠ 0 ∧ c.arg 16 2 ≤ 1023 :=
  ⟨{ ing := .msl,
     pkt :=
       { version := 3, typ := 0, tag := 5, opcode := opSANITISE_RANGE, length := 18,
         data := [0, 0, 1, 0, 0, 0, 0, 0, 0, 32, 0, 0, 0, 0, 0, 0, 5, 0] } },
   [{ ing := .msl, pkt := { version := 3, typ := 0, tag := 7, opcode := opGET_INFO } }],
   { wS [] with
       tvx :=
         { alive := true, running := true,
           queue :=
             [{ ing := .msl,
                pkt :=
                  { version := 3, typ := 0, tag := 5, opcode := opSANITISE_RANGE, length := 18,
                    data := [0, 0, 1, 0, 0, 0, 0, 0, 0, 32, 0, 0, 0, 0, 0, 0, 5, 0] } },
              { ing := .msl, pkt := { version := 3, typ := 0, tag := 7, opcode := opGET_INFO } }] },
       pwr := { stage := .run } }, by decide⟩

theorem test_met_LongOperationsAndResets_15 :
    ∃ (c : QCmd) (q : List QCmd) (s : State), s.Executes c q opSANITISE_RANGE 16 ∧ (s.tvx.flashGranted = true ∨ s.hostUp =
      false) :=
  ⟨{ ing := .msl,
     pkt :=
       { version := 3, typ := 0, tag := 5, opcode := opSANITISE_RANGE, length := 18,
         data := [0, 0, 1, 0, 0, 0, 0, 0, 0, 32, 0, 0, 0, 0, 0, 0, 5, 0] } },
   [{ ing := .msl, pkt := { version := 3, typ := 0, tag := 7, opcode := opGET_INFO } }],
   { wS [] with
       tvx :=
         { alive := true, running := true,
           queue :=
             [{ ing := .msl,
                pkt :=
                  { version := 3, typ := 0, tag := 5, opcode := opSANITISE_RANGE, length := 18,
                    data := [0, 0, 1, 0, 0, 0, 0, 0, 0, 32, 0, 0, 0, 0, 0, 0, 5, 0] } },
              { ing := .msl, pkt := { version := 3, typ := 0, tag := 7, opcode := opGET_INFO } }] },
       pwr := { stage := .good } }, by decide⟩

theorem test_met_LongOperationsAndResets_16 :
    ∃ (c : QCmd) (q : List QCmd) (s : State), s.Executes c q opSANITISE_RANGE 16 ∧ s.tvx.flashGranted = false ∧ s.hostUp = true
      ∧ (c.arg 0 8 % 4096 ≠ 0 ∨ s.sanRange (c.arg 0 8) 1 = false) :=
  ⟨{ ing := .msl,
     pkt :=
       { version := 3, typ := 0, tag := 5, opcode := opSANITISE_RANGE, length := 18,
         data := [1, 0, 1, 0, 0, 0, 0, 0, 0, 32, 0, 0, 0, 0, 0, 0, 5, 0] } },
   [{ ing := .msl, pkt := { version := 3, typ := 0, tag := 7, opcode := opGET_INFO } }],
   { wS [] with
       tvx :=
         { alive := true, running := true,
           queue :=
             [{ ing := .msl,
                pkt :=
                  { version := 3, typ := 0, tag := 5, opcode := opSANITISE_RANGE, length := 18,
                    data := [1, 0, 1, 0, 0, 0, 0, 0, 0, 32, 0, 0, 0, 0, 0, 0, 5, 0] } },
              { ing := .msl, pkt := { version := 3, typ := 0, tag := 7, opcode := opGET_INFO } }] },
       pwr := { stage := .run } }, by decide⟩

theorem test_met_LongOperationsAndResets_17 :
    ∃ (c : QCmd) (q : List QCmd) (s : State), s.Executes c q opSANITISE_RANGE 16 ∧ s.tvx.flashGranted = false ∧ s.hostUp = true
      ∧ c.arg 0 8 % 4096 = 0 ∧ s.sanRange (c.arg 0 8) 1 = true ∧ (c.arg 8 8 = 0 ∨ c.arg 8 8 % 4096 ≠ 0 ∨ s.sanRange (c.arg 0
      8) (c.arg 8 8) = false) :=
  ⟨{ ing := .msl,
     pkt :=
       { version := 3, typ := 0, tag := 5, opcode := opSANITISE_RANGE, length := 18,
         data := [0, 0, 1, 0, 0, 0, 0, 0, 5, 0, 0, 0, 0, 0, 0, 0, 0, 0] } },
   [{ ing := .msl, pkt := { version := 3, typ := 0, tag := 7, opcode := opGET_INFO } }],
   { wS [] with
       tvx :=
         { alive := true, running := true,
           queue :=
             [{ ing := .msl,
                pkt :=
                  { version := 3, typ := 0, tag := 5, opcode := opSANITISE_RANGE, length := 18,
                    data := [0, 0, 1, 0, 0, 0, 0, 0, 5, 0, 0, 0, 0, 0, 0, 0, 0, 0] } },
              { ing := .msl, pkt := { version := 3, typ := 0, tag := 7, opcode := opGET_INFO } }] },
       pwr := { stage := .run } }, by decide⟩

theorem test_met_LongOperationsAndResets_18 :
    ∃ (c : QCmd) (q : List QCmd) (s : State), s.Executes c q opSANITISE_RANGE 16 ∧ s.tvx.flashGranted = false ∧ s.hostUp = true
      ∧ s.sanRange (c.arg 0 8) 1 = true ∧ s.sanRange (c.arg 0 8) (c.arg 8 8) = true ∧ c.arg 0 8 % 4096 = 0 ∧ c.arg 8 8 %
      4096 = 0 ∧ c.arg 8 8 ≠ 0 ∧ 1023 < c.arg 16 2 :=
  ⟨{ ing := .msl,
     pkt :=
       { version := 3, typ := 0, tag := 5, opcode := opSANITISE_RANGE, length := 18,
         data := [0, 0, 1, 0, 0, 0, 0, 0, 0, 32, 0, 0, 0, 0, 0, 0, 0, 4] } },
   [{ ing := .msl, pkt := { version := 3, typ := 0, tag := 7, opcode := opGET_INFO } }],
   { wS [] with
       tvx :=
         { alive := true, running := true,
           queue :=
             [{ ing := .msl,
                pkt :=
                  { version := 3, typ := 0, tag := 5, opcode := opSANITISE_RANGE, length := 18,
                    data := [0, 0, 1, 0, 0, 0, 0, 0, 0, 32, 0, 0, 0, 0, 0, 0, 0, 4] } },
              { ing := .msl, pkt := { version := 3, typ := 0, tag := 7, opcode := opGET_INFO } }] },
       pwr := { stage := .run } }, by decide⟩

theorem test_met_LongOperationsAndResets_19 :
    ∃ (c : QCmd) (q : List QCmd) (s : State), s.Executes c q opFORMAT_RANGE 16 ∧ s.tvx.flashGranted = false ∧ s.hostUp = true ∧
      s.sanRange (c.arg 0 8) 1 = true ∧ s.sanRange (c.arg 0 8) (c.arg 8 8) = true ∧ c.arg 0 8 % 4096 = 0 ∧ c.arg 8 8 % 4096
      = 0 ∧ c.arg 8 8 ≠ 0 ∧ c.arg 16 2 ≤ 1023 :=
  ⟨{ ing := .msl,
     pkt :=
       { version := 3, typ := 0, tag := 5, opcode := opFORMAT_RANGE, length := 18,
         data := [0, 0, 1, 0, 0, 0, 0, 0, 0, 32, 0, 0, 0, 0, 0, 0, 5, 0] } },
   [{ ing := .msl, pkt := { version := 3, typ := 0, tag := 7, opcode := opGET_INFO } }],
   { wS [] with
       tvx :=
         { alive := true, running := true,
           queue :=
             [{ ing := .msl,
                pkt :=
                  { version := 3, typ := 0, tag := 5, opcode := opFORMAT_RANGE, length := 18,
                    data := [0, 0, 1, 0, 0, 0, 0, 0, 0, 32, 0, 0, 0, 0, 0, 0, 5, 0] } },
              { ing := .msl, pkt := { version := 3, typ := 0, tag := 7, opcode := opGET_INFO } }] },
       pwr := { stage := .run } }, by decide⟩

theorem test_met_LongOperationsAndResets_20 :
    ∃ (c : QCmd) (q : List QCmd) (s : State), s.Executes c q opFORMAT_RANGE 16 ∧ (s.tvx.flashGranted = true ∨ s.hostUp = false) :=
  ⟨{ ing := .msl,
     pkt :=
       { version := 3, typ := 0, tag := 5, opcode := opFORMAT_RANGE, length := 18,
         data := [0, 0, 1, 0, 0, 0, 0, 0, 0, 32, 0, 0, 0, 0, 0, 0, 5, 0] } },
   [{ ing := .msl, pkt := { version := 3, typ := 0, tag := 7, opcode := opGET_INFO } }],
   { wS [] with
       tvx :=
         { alive := true, running := true,
           queue :=
             [{ ing := .msl,
                pkt :=
                  { version := 3, typ := 0, tag := 5, opcode := opFORMAT_RANGE, length := 18,
                    data := [0, 0, 1, 0, 0, 0, 0, 0, 0, 32, 0, 0, 0, 0, 0, 0, 5, 0] } },
              { ing := .msl, pkt := { version := 3, typ := 0, tag := 7, opcode := opGET_INFO } }] },
       pwr := { stage := .good } }, by decide⟩

theorem test_met_LongOperationsAndResets_21 :
    ∃ (c : QCmd) (q : List QCmd) (s : State), s.Executes c q opFORMAT_RANGE 16 ∧ s.tvx.flashGranted = false ∧ s.hostUp = true ∧
      (c.arg 0 8 % 4096 ≠ 0 ∨ s.sanRange (c.arg 0 8) 1 = false) :=
  ⟨{ ing := .msl,
     pkt :=
       { version := 3, typ := 0, tag := 5, opcode := opFORMAT_RANGE, length := 18,
         data := [1, 0, 1, 0, 0, 0, 0, 0, 0, 32, 0, 0, 0, 0, 0, 0, 5, 0] } },
   [{ ing := .msl, pkt := { version := 3, typ := 0, tag := 7, opcode := opGET_INFO } }],
   { wS [] with
       tvx :=
         { alive := true, running := true,
           queue :=
             [{ ing := .msl,
                pkt :=
                  { version := 3, typ := 0, tag := 5, opcode := opFORMAT_RANGE, length := 18,
                    data := [1, 0, 1, 0, 0, 0, 0, 0, 0, 32, 0, 0, 0, 0, 0, 0, 5, 0] } },
              { ing := .msl, pkt := { version := 3, typ := 0, tag := 7, opcode := opGET_INFO } }] },
       pwr := { stage := .run } }, by decide⟩

theorem test_met_LongOperationsAndResets_22 :
    ∃ (c : QCmd) (q : List QCmd) (s : State), s.Executes c q opFORMAT_RANGE 16 ∧ s.tvx.flashGranted = false ∧ s.hostUp = true ∧
      c.arg 0 8 % 4096 = 0 ∧ s.sanRange (c.arg 0 8) 1 = true ∧ (c.arg 8 8 = 0 ∨ c.arg 8 8 % 4096 ≠ 0 ∨ s.sanRange (c.arg 0
      8) (c.arg 8 8) = false) :=
  ⟨{ ing := .msl,
     pkt :=
       { version := 3, typ := 0, tag := 5, opcode := opFORMAT_RANGE, length := 18,
         data := [0, 0, 1, 0, 0, 0, 0, 0, 5, 0, 0, 0, 0, 0, 0, 0, 0, 0] } },
   [{ ing := .msl, pkt := { version := 3, typ := 0, tag := 7, opcode := opGET_INFO } }],
   { wS [] with
       tvx :=
         { alive := true, running := true,
           queue :=
             [{ ing := .msl,
                pkt :=
                  { version := 3, typ := 0, tag := 5, opcode := opFORMAT_RANGE, length := 18,
                    data := [0, 0, 1, 0, 0, 0, 0, 0, 5, 0, 0, 0, 0, 0, 0, 0, 0, 0] } },
              { ing := .msl, pkt := { version := 3, typ := 0, tag := 7, opcode := opGET_INFO } }] },
       pwr := { stage := .run } }, by decide⟩

theorem test_met_LongOperationsAndResets_23 :
    ∃ (c : QCmd) (q : List QCmd) (s : State), s.Executes c q opFORMAT_RANGE 16 ∧ s.tvx.flashGranted = false ∧ s.hostUp = true ∧
      s.sanRange (c.arg 0 8) 1 = true ∧ s.sanRange (c.arg 0 8) (c.arg 8 8) = true ∧ c.arg 0 8 % 4096 = 0 ∧ c.arg 8 8 % 4096
      = 0 ∧ c.arg 8 8 ≠ 0 ∧ 1023 < c.arg 16 2 :=
  ⟨{ ing := .msl,
     pkt :=
       { version := 3, typ := 0, tag := 5, opcode := opFORMAT_RANGE, length := 18,
         data := [0, 0, 1, 0, 0, 0, 0, 0, 0, 32, 0, 0, 0, 0, 0, 0, 0, 4] } },
   [{ ing := .msl, pkt := { version := 3, typ := 0, tag := 7, opcode := opGET_INFO } }],
   { wS [] with
       tvx :=
         { alive := true, running := true,
           queue :=
             [{ ing := .msl,
                pkt :=
                  { version := 3, typ := 0, tag := 5, opcode := opFORMAT_RANGE, length := 18,
                    data := [0, 0, 1, 0, 0, 0, 0, 0, 0, 32, 0, 0, 0, 0, 0, 0, 0, 4] } },
              { ing := .msl, pkt := { version := 3, typ := 0, tag := 7, opcode := opGET_INFO } }] },
       pwr := { stage := .run } }, by decide⟩

theorem test_met_LongOperationsAndResets_24 :
    ∃ (c : QCmd) (q : List QCmd) (s : State), s.Executes c q opSANITISE_DEVICE 0 ∧ s.tvx.flashGranted = false ∧ s.pwr.stage =
      .run ∧ c.arg 0 2 ≤ 1023 ∧ Memory.wf s.mem = true ∧ Tbl.wf regReset s.regs = true :=
  ⟨{ ing := .msl, pkt := { version := 3, typ := 0, tag := 5, opcode := opSANITISE_DEVICE, length := 2, data := [5, 0] } },
   [{ ing := .msl, pkt := { version := 3, typ := 0, tag := 7, opcode := opGET_INFO } }],
   { wS [(R.MC_CH_STATUS_STATE 3, chACTIVE)] with
       tvx :=
         { alive := true, running := true,
           queue :=
             [{ ing := .msl,
                pkt := { version := 3, typ := 0, tag := 5, opcode := opSANITISE_DEVICE, length := 2, data := [5, 0] } },
              { ing := .msl, pkt := { version := 3, typ := 0, tag := 7, opcode := opGET_INFO } }] },
       pwr := { stage := .run } }, by decide⟩

theorem test_met_LongOperationsAndResets_25 :
    ∃ (c : QCmd) (q : List QCmd) (s : State), s.Executes c q opSANITISE_DEVICE 0 ∧ (s.tvx.flashGranted = true ∨ s.pwr.stage ≠
      .run) :=
  ⟨{ ing := .msl, pkt := { version := 3, typ := 0, tag := 5, opcode := opSANITISE_DEVICE, length := 2, data := [5, 0] } },
   [{ ing := .msl, pkt := { version := 3, typ := 0, tag := 7, opcode := opGET_INFO } }],
   { wS [] with
       tvx :=
         { alive := true, running := true,
           queue :=
             [{ ing := .msl,
                pkt := { version := 3, typ := 0, tag := 5, opcode := opSANITISE_DEVICE, length := 2, data := [5, 0] } },
              { ing := .msl, pkt := { version := 3, typ := 0, tag := 7, opcode := opGET_INFO } }] },
       pwr := { stage := .good } }, by decide⟩

theorem test_met_LongOperationsAndResets_26 :
    ∃ (c : QCmd) (q : List QCmd) (s : State), s.Executes c q opSANITISE_DEVICE 0 ∧ s.tvx.flashGranted = false ∧ s.pwr.stage =
      .run ∧ 1023 < c.arg 0 2 :=
  ⟨{ ing := .msl, pkt := { version := 3, typ := 0, tag := 5, opcode := opSANITISE_DEVICE, length := 2, data := [0, 4] } },
   [{ ing := .msl, pkt := { version := 3, typ := 0, tag := 7, opcode := opGET_INFO } }],
   { wS [] with
       tvx :=
         { alive := true, running := true,
           queue :=
             [{ ing := .msl,
                pkt := { version := 3, typ := 0, tag := 5, opcode := opSANITISE_DEVICE, length := 2, data := [0, 4] } },
              { ing := .msl, pkt := { version := 3, typ := 0, tag := 7, opcode := opGET_INFO } }] },
       pwr := { stage := .run } }, by decide⟩

theorem test_met_LongOperationsAndResets_27 :
    ∃ (c : QCmd) (q : List QCmd) (s : State), s.Executes c q opDIE_OFFLINE 1 ∧ c.die < 12 ∧ s.dieOnline c.die = true ∧ 2 ≤
      popCount 12 (s.get R.PKG_DIES_VALE_ONLINE) :=
  ⟨{ ing := .msl, pkt := { version := 3, typ := 0, tag := 5, opcode := opDIE_OFFLINE, length := 1, data := [3] } },
   [{ ing := .msl, pkt := { version := 3, typ := 0, tag := 7, opcode := opGET_INFO } }],
   { wS [(R.VALE_CORE_STATUS_STATE 3 7, coreONLINE)] with
       tvx :=
         { alive := true, running := true,
           queue :=
             [{ ing := .msl, pkt := { version := 3, typ := 0, tag := 5, opcode := opDIE_OFFLINE, length := 1, data := [3] } },
              { ing := .msl, pkt := { version := 3, typ := 0, tag := 7, opcode := opGET_INFO } }] } }, by decide⟩

theorem test_met_LongOperationsAndResets_28 :
    ∃ (c : QCmd) (q : List QCmd) (s : State), s.Executes c q opDIE_OFFLINE 1 ∧ 12 ≤ c.die :=
  ⟨{ ing := .msl, pkt := { version := 3, typ := 0, tag := 5, opcode := opDIE_OFFLINE, length := 1, data := [12] } },
   [{ ing := .msl, pkt := { version := 3, typ := 0, tag := 7, opcode := opGET_INFO } }],
   { wS [] with
       tvx :=
         { alive := true, running := true,
           queue :=
             [{ ing := .msl,
                pkt := { version := 3, typ := 0, tag := 5, opcode := opDIE_OFFLINE, length := 1, data := [12] } },
              { ing := .msl, pkt := { version := 3, typ := 0, tag := 7, opcode := opGET_INFO } }] } }, by decide⟩

theorem test_met_LongOperationsAndResets_29 :
    ∃ (c : QCmd) (q : List QCmd) (s : State), s.Executes c q opDIE_OFFLINE 1 ∧ c.die < 12 ∧ (s.dieOnline c.die = false ∨
      popCount 12 (s.get R.PKG_DIES_VALE_ONLINE) ≤ 1) :=
  ⟨{ ing := .msl, pkt := { version := 3, typ := 0, tag := 5, opcode := opDIE_OFFLINE, length := 1, data := [3] } },
   [{ ing := .msl, pkt := { version := 3, typ := 0, tag := 7, opcode := opGET_INFO } }],
   { wS [(R.PKG_DIES_VALE_ONLINE, 8)] with
       tvx :=
         { alive := true, running := true,
           queue :=
             [{ ing := .msl, pkt := { version := 3, typ := 0, tag := 5, opcode := opDIE_OFFLINE, length := 1, data := [3] } },
              { ing := .msl, pkt := { version := 3, typ := 0, tag := 7, opcode := opGET_INFO } }] } }, by decide⟩

theorem test_met_LongOperationsAndResets_30 :
    ∃ (c : QCmd) (q : List QCmd) (s : State), s.Executes c q opDIE_ONLINE 1 ∧ c.die < 12 ∧ s.dieOnline c.die = false ∧ (s.get
      R.PKG_DIES_VALE_RETIRED).testBit c.die = false :=
  ⟨{ ing := .msl, pkt := { version := 3, typ := 0, tag := 5, opcode := opDIE_ONLINE, length := 1, data := [3] } },
   [{ ing := .msl, pkt := { version := 3, typ := 0, tag := 7, opcode := opGET_INFO } }],
   { wS [(R.PKG_DIES_VALE_ONLINE, 0xFF7)] with
       tvx :=
         { alive := true, running := true,
           queue :=
             [{ ing := .msl, pkt := { version := 3, typ := 0, tag := 5, opcode := opDIE_ONLINE, length := 1, data := [3] } },
              { ing := .msl, pkt := { version := 3, typ := 0, tag := 7, opcode := opGET_INFO } }] } }, by decide⟩

theorem test_met_LongOperationsAndResets_31 :
    ∃ (c : QCmd) (q : List QCmd) (s : State), s.Executes c q opDIE_ONLINE 1 ∧ 12 ≤ c.die :=
  ⟨{ ing := .msl, pkt := { version := 3, typ := 0, tag := 5, opcode := opDIE_ONLINE, length := 1, data := [12] } },
   [{ ing := .msl, pkt := { version := 3, typ := 0, tag := 7, opcode := opGET_INFO } }],
   { wS [] with
       tvx :=
         { alive := true, running := true,
           queue :=
             [{ ing := .msl, pkt := { version := 3, typ := 0, tag := 5, opcode := opDIE_ONLINE, length := 1, data := [12] } },
              { ing := .msl, pkt := { version := 3, typ := 0, tag := 7, opcode := opGET_INFO } }] } }, by decide⟩

theorem test_met_LongOperationsAndResets_32 :
    ∃ (c : QCmd) (q : List QCmd) (s : State), s.Executes c q opDIE_ONLINE 1 ∧ c.die < 12 ∧ (s.dieOnline c.die = true ∨ (s.get
      R.PKG_DIES_VALE_RETIRED).testBit c.die = true) :=
  ⟨{ ing := .msl, pkt := { version := 3, typ := 0, tag := 5, opcode := opDIE_ONLINE, length := 1, data := [3] } },
   [{ ing := .msl, pkt := { version := 3, typ := 0, tag := 7, opcode := opGET_INFO } }],
   { wS [] with
       tvx :=
         { alive := true, running := true,
           queue :=
             [{ ing := .msl, pkt := { version := 3, typ := 0, tag := 5, opcode := opDIE_ONLINE, length := 1, data := [3] } },
              { ing := .msl, pkt := { version := 3, typ := 0, tag := 7, opcode := opGET_INFO } }] } }, by decide⟩

theorem test_met_LongOperationsAndResets_33 :
    ∃ (l : LongOp) (st aux : Nat) (pay : List Nat) (s : State), s.tvx.longOp = some l ∧ l.final = some (st, aux, pay) ∧ l.mute =
      false ∧ statusFreezes st = false ∧ s.tvx.running = true ∧ s.tvx.queue = [] ∧ s.tvx.flashGranted = false :=
  ⟨{ cmd := { ing := .msl, pkt := { version := 3, typ := 0, tag := 5, opcode := opACTIVATE } }, start := 0,
     final := some (stOK, 0, [7]) }, stOK, 0, [7],
   { wS [] with
       tvx :=
         { alive := true, running := true,
           longOp :=
             some
               { cmd := { ing := .msl, pkt := { version := 3, typ := 0, tag := 5, opcode := opACTIVATE } }, start := 0,
                 final := some (stOK, 0, [7]) } } }, by decide⟩

theorem test_met_LongOperationsAndResets_34 :
    ∃ (l : LongOp) (st aux : Nat) (pay : List Nat) (s : State), s.tvx.longOp = some l ∧ l.final = some (st, aux, pay) ∧ l.mute =
      false ∧ statusFreezes st = true ∧ s.tvx.running = true ∧ s.tvx.queue = [] ∧ s.tvx.flashGranted = false :=
  ⟨{ cmd := { ing := .msl, pkt := { version := 3, typ := 0, tag := 5, opcode := opACTIVATE } }, start := 0,
     final := some (stDEVICE_ERROR, 0, [7]) }, stDEVICE_ERROR, 0, [7],
   { wS [] with
       tvx :=
         { alive := true, running := true,
           longOp :=
             some
               { cmd := { ing := .msl, pkt := { version := 3, typ := 0, tag := 5, opcode := opACTIVATE } }, start := 0,
                 final := some (stDEVICE_ERROR, 0, [7]) } } }, by decide⟩

theorem test_met_LongOperationsAndResets_35 :
    ∃ (l : LongOp) (st aux : Nat) (pay : List Nat) (s : State), s.tvx.longOp = some l ∧ l.final = some (st, aux, pay) ∧ l.mute =
      true ∧ s.tvx.running = true ∧ s.tvx.queue = [] ∧ s.tvx.flashGranted = false :=
  ⟨{ cmd := { ing := .msl, pkt := { version := 3, typ := 0, tag := 5, opcode := opACTIVATE } }, start := 0,
     final := some (stOK, 0, [7]), mute := true }, stOK, 0, [7],
   { wS [] with
       tvx :=
         { alive := true, running := true,
           longOp :=
             some
               { cmd := { ing := .msl, pkt := { version := 3, typ := 0, tag := 5, opcode := opACTIVATE } }, start := 0,
                 final := some (stOK, 0, [7]), mute := true } } }, by decide⟩

theorem test_met_LongOperationsAndResets_36 :
    ∃ (s : State), (s.tvx.longOp.all (fun l => l.final.isNone) = true ∨ (s.tvx.running = false ∧ s.tvx.recovery = false)) :=
  ⟨{ wS [] with
       tvx :=
         { alive := true, running := true,
           longOp :=
             some
               { cmd := { ing := .msl, pkt := { version := 3, typ := 0, tag := 5, opcode := opACTIVATE } }, start := 0,
                 final := none } } }, by decide⟩

theorem test_met_LongOperationsAndResets_37 :
    ∃ (s : State), True :=
  ⟨{ wS [] with tvx := { alive := true } }, by decide⟩

theorem test_met_LongOperationsAndResets_38 :
    ∃ (s : State), (s.tvx.stalled = [] ∨ s.tvx.running = false) :=
  ⟨{ wS [] with
       tvx := { alive := true, flashReq := true, flashGranted := true },
       pwr := { good := true, stage := .vaux, refclk := true } }, by decide⟩

theorem test_met_LongOperationsAndResets_39 :
    ∃ (s : State), s.tvx.running = true ∧ s.tvx.stalled.length ≤ logCapacity :=
  ⟨{ wS [] with
       tvx :=
         { alive := true, running := true, flashReq := true, flashGranted := true, stalled := [⟨0, 5, 0x71, 0, 255, 0, 0⟩] },
       pwr := { good := true, stage := .vaux, refclk := true } }, by decide⟩

theorem test_met_PowerAndTemperature_1 :
    ∃ (mW : Nat) (temp : List Int) (dm : List Nat) (s : State), s.get R.PWR_STATUS_UC_RUNNING = 1 :=
  ⟨600000, [1500, 1400, 1392, 1391], [20, 30],
   wS [(R.PWR_STATUS_UC_RUNNING, 1), (R.PWR_STATUS_PKG_CEILING, 50), (R.PWR_LIMIT_PPT_W, 500), (R.PWR_CTL_TEMP_TARGET, 90)],
   by decide⟩

theorem test_met_PowerAndTemperature_2 :
    ∃ (mW : Nat) (temp : List Int) (dm : List Nat) (s : State), s.get R.PWR_STATUS_UC_RUNNING = 0 :=
  ⟨600000, [1500, 1400], [20, 30], wS [], by decide⟩

theorem test_met_PowerAndTemperature_3 :
    ∃ (s : State), True :=
  ⟨wS [], by decide⟩

theorem test_met_PowerAndTemperature_4 :
    ∃ (s : State), True :=
  ⟨wS [(R.PWR_STATUS_CURRENT_LIMIT, 1)], by decide⟩

theorem test_met_PowerAndTemperature_5 :
    ∃ (d : Fin 17) (s : State), True :=
  ⟨3, wS [(R.VALE_CORE_STATUS_STATE 3 3, coreONLINE), (R.mnstatus_NMIE 99, 1)], by decide⟩

theorem test_met_PowerAndTemperature_6 :
    ∃ (s : State), s.pwr.good = true :=
  ⟨{ wS [] with pwr := { good := true, stage := .run } }, by decide⟩

theorem test_met_PowerAndTemperature_7 :
    ∃ (s : State), s.pwr.good = false :=
  ⟨wS [], by decide⟩

theorem test_met_PowerAndTemperature_8 :
    ∃ (s : State), s.pwr.stage ≠ .off :=
  ⟨{ wS [] with pwr := { good := true, stage := .run } }, by decide⟩

theorem test_met_PowerAndTemperature_9 :
    ∃ (s : State), s.pwr.stage = .off :=
  ⟨{ wS [] with pwr := {} }, by decide⟩

theorem test_met_GtimeServo_1 :
    ∃ (n : Nat) (x : Int) (s : State), (s.get R.TIME_CTL_SOURCE = 1 ∨ s.get R.TIME_CTL_SOURCE = 3) ∧ x = ((((if s.get
      R.TIME_NEXT_PPS_VALID = 1 then s.get R.TIME_NEXT_PPS_VALUE else (n + 500000000) / 1000000000 * 1000000000) : Nat) :
      Int) - (n : Int)) * 256 ∧ (s.pwr.lastPps.all (fun p => decide (p + 999000000 ≤ n) && decide (n ≤ p + 1001000000))) =
      true ∧ (s.get R.TIME_CTL_STEP_ENABLE = 0 ∨ x ≤ (s.get R.TIME_CTL_STEP_LIMIT_US * 256000 : Nat)) ∧ -((s.get
      R.TIME_CTL_STEP_LIMIT_US * 256000 : Nat) : Int) ≤ x :=
  ⟨3, -768, wS [(R.TIME_CTL_SOURCE, 1)], by decide⟩

theorem test_met_GtimeServo_2 :
    ∃ (n : Nat) (x : Int) (s : State), (s.get R.TIME_CTL_SOURCE = 1 ∨ s.get R.TIME_CTL_SOURCE = 3) ∧ x = ((((if s.get
      R.TIME_NEXT_PPS_VALID = 1 then s.get R.TIME_NEXT_PPS_VALUE else (n + 500000000) / 1000000000 * 1000000000) : Nat) :
      Int) - (n : Int)) * 256 ∧ (s.pwr.lastPps.all (fun p => decide (p + 999000000 ≤ n) && decide (n ≤ p + 1001000000))) =
      true ∧ (s.get R.TIME_CTL_STEP_ENABLE = 0 ∨ x ≤ (s.get R.TIME_CTL_STEP_LIMIT_US * 256000 : Nat)) ∧ -((s.get
      R.TIME_CTL_STEP_LIMIT_US * 256000 : Nat) : Int) ≤ x ∧ n = s.pwr.now :=
  ⟨1000000003, -768, { wS [(R.TIME_CTL_SOURCE, 1)] with pwr := { stage := .run, now := 1000000003 } }, by decide⟩

theorem test_met_GtimeServo_3 :
    ∃ (n : Nat) (x : Int) (s : State), (s.get R.TIME_CTL_SOURCE = 1 ∨ s.get R.TIME_CTL_SOURCE = 3) ∧ x = ((((if s.get
      R.TIME_NEXT_PPS_VALID = 1 then s.get R.TIME_NEXT_PPS_VALUE else (n + 500000000) / 1000000000 * 1000000000) : Nat) :
      Int) - (n : Int)) * 256 ∧ (s.pwr.lastPps.all (fun p => decide (p + 999000000 ≤ n) && decide (n ≤ p + 1001000000))) =
      true ∧ (x < -((s.get R.TIME_CTL_STEP_LIMIT_US * 256000 : Nat) : Int)) ∧ n = s.pwr.now :=
  ⟨1400000000, -102400000000,
   { wS [(R.TIME_CTL_SOURCE, 1), (R.TIME_CTL_STEP_LIMIT_US, 1000)] with pwr := { stage := .run, now := 1400000000 } },
   by decide⟩

theorem test_met_GtimeServo_4 :
    ∃ (n : Nat) (x : Int) (s : State), (s.get R.TIME_CTL_SOURCE = 1 ∨ s.get R.TIME_CTL_SOURCE = 3) ∧ x = ((((if s.get
      R.TIME_NEXT_PPS_VALID = 1 then s.get R.TIME_NEXT_PPS_VALUE else (n + 500000000) / 1000000000 * 1000000000) : Nat) :
      Int) - (n : Int)) * 256 ∧ (s.pwr.lastPps.all (fun p => decide (p + 999000000 ≤ n) && decide (n ≤ p + 1001000000))) =
      true ∧ s.get R.TIME_CTL_STEP_ENABLE = 1 ∧ (s.get R.TIME_CTL_STEP_LIMIT_US * 256000 : Nat) < x :=
  ⟨3, 255999999232,
   { wS
       [(R.TIME_CTL_SOURCE, 1), (R.TIME_CTL_STEP_ENABLE, 1), (R.TIME_NEXT_PPS_VALID, 1),
        (R.TIME_NEXT_PPS_VALUE, 1000000000)] with
       pwr := { stage := .vaux } }, by decide⟩

theorem test_met_GtimeServo_5 :
    ∃ (n : Nat) (x : Int) (s : State), (s.get R.TIME_CTL_SOURCE = 1 ∨ s.get R.TIME_CTL_SOURCE = 3) ∧ x = ((((if s.get
      R.TIME_NEXT_PPS_VALID = 1 then s.get R.TIME_NEXT_PPS_VALUE else (n + 500000000) / 1000000000 * 1000000000) : Nat) :
      Int) - (n : Int)) * 256 ∧ (s.pwr.lastPps.all (fun p => decide (p + 999000000 ≤ n) && decide (n ≤ p + 1001000000))) =
      true ∧ s.get R.TIME_CTL_STEP_ENABLE = 1 ∧ (s.get R.TIME_CTL_STEP_LIMIT_US * 256000 : Nat) < x ∧ n = s.pwr.now :=
  ⟨0, 256000000000,
   { wS
       [(R.TIME_CTL_SOURCE, 1), (R.TIME_CTL_STEP_ENABLE, 1), (R.TIME_NEXT_PPS_VALID, 1),
        (R.TIME_NEXT_PPS_VALUE, 1000000000)] with
       pwr := { stage := .vaux } }, by decide⟩

theorem test_met_GtimeServo_6 :
    ∃ (n p : Nat) (s : State), (s.get R.TIME_CTL_SOURCE = 1 ∨ s.get R.TIME_CTL_SOURCE = 3) ∧ (s.pwr.lastPps = some p ∧ (n < p +
      999000000 ∨ p + 1001000000 < n)) :=
  ⟨3, 9, { wS [(R.TIME_CTL_SOURCE, 1)] with pwr := { stage := .vaux, lastPps := some 9 } }, by decide⟩

theorem test_met_GtimeServo_7 :
    ∃ (n p : Nat) (s : State), (s.get R.TIME_CTL_SOURCE = 1 ∨ s.get R.TIME_CTL_SOURCE = 3) ∧ (s.pwr.lastPps = some p ∧ (n < p +
      999000000 ∨ p + 1001000000 < n)) ∧ n ≤ s.pwr.now :=
  ⟨3, 9, { wS [(R.TIME_CTL_SOURCE, 1)] with pwr := { stage := .vaux, now := 8, lastPps := some 9 } }, by decide⟩

theorem test_met_GtimeServo_8 :
    ∃ (n : Nat) (s : State), (s.get R.TIME_CTL_SOURCE = 0 ∨ s.get R.TIME_CTL_SOURCE = 2) :=
  ⟨3, wS [], by decide⟩

theorem test_met_GtimeServo_9 :
    ∃ (s : State), (s.timeState = tACQUIRE ∨ s.timeState = tLOCKED) ∧ s.pwr.locked = true :=
  ⟨{ wS [(R.TIME_STATUS_STATE, 2)] with pwr := { stage := .vaux, locked := true } }, by decide⟩

theorem test_met_GtimeServo_10 :
    ∃ (s : State), (s.timeState = tACQUIRE ∨ s.timeState = tLOCKED) ∧ s.pwr.locked = false :=
  ⟨wS [(R.TIME_STATUS_STATE, 1)], by decide⟩

theorem test_met_GtimeServo_11 :
    ∃ (s : State), s.timeState ≠ tACQUIRE ∧ s.timeState ≠ tLOCKED :=
  ⟨wS [], by decide⟩

theorem test_met_GtimeServo_12 :
    ∃ (n : Nat) (s : State), n % 4 = 0 :=
  ⟨4, wS [(R.TIME_STATUS_STATE, 2), (R.TIME_CTL_SOURCE, 1)], by decide⟩

theorem test_met_GtimeServo_13 :
    ∃ (n : Nat) (s : State), n % 4 ≠ 0 :=
  ⟨5, wS [(R.TIME_STATUS_STATE, 2)], by decide⟩

theorem test_met_GtimeServo_14 :
    ∃ (n : Nat) (s : State), True :=
  ⟨5, wS [], by decide⟩

theorem test_met_SupplyAndStart_1 :
    ∃ (s : State), s.tvx.alive = false :=
  ⟨wS [(R.CCOL_CTL_FREEZE, 1)], by decide⟩

theorem test_met_SupplyAndStart_2 :
    ∃ (s : State), s.tvx.alive = true :=
  ⟨{ wS [(R.CCOL_CTL_FREEZE, 1)] with tvx := { alive := true, running := true }, pwr := { stage := .run } }, by decide⟩

theorem test_met_SupplyAndStart_3 :
    ∃ (s : State), s.tvx.alive = true :=
  ⟨{ wS [(R.CCOL_CTL_FREEZE, 1)] with tvx := { alive := true, running := true }, pwr := { stage := .run } }, by decide⟩

theorem test_met_SupplyAndStart_4 :
    ∃ (s : State), s.tvx.alive = false :=
  ⟨wS [], by decide⟩

theorem test_met_SupplyAndStart_5 :
    ∃ (s : State), s.tvx.running = true ∧ s.tvx.recovery = false ∧ s.pwr.good = false ∧ s.pwr.hostReq = false ∧ s.cool = true ∧
      s.pwr.tries = 0 :=
  ⟨{ wS [(R.CCOL_CTL_FREEZE, 1)] with tvx := { alive := true, running := true }, pwr := { stage := .vaux } }, by decide⟩

theorem test_met_SupplyAndStart_6 :
    ∃ (s : State), (s.pwr.tries ≠ 0 ∨ s.tvx.running = false ∨ s.tvx.recovery = true ∨ s.pwr.good = true ∨ s.pwr.hostReq = true ∨
      s.cool = false) :=
  ⟨{ wS [(R.CCOL_CTL_FREEZE, 1)] with tvx := { alive := true, running := true }, pwr := { stage := .vaux, tries := 1 } },
   by decide⟩

theorem test_met_SupplyAndStart_7 :
    ∃ (s : State), s.tvx.running = true ∧ s.tvx.recovery = false ∧ s.pwr.good = false ∧ s.pwr.hostReq = false ∧ s.cool = true ∧
      1 ≤ s.pwr.tries ∧ s.pwr.tries < 3 :=
  ⟨{ wS [(R.CCOL_CTL_FREEZE, 1)] with tvx := { alive := true, running := true }, pwr := { stage := .vaux, tries := 2 } },
   by decide⟩

theorem test_met_SupplyAndStart_8 :
    ∃ (s : State), (s.pwr.tries = 0 ∨ 3 ≤ s.pwr.tries ∨ s.tvx.running = false ∨ s.tvx.recovery = true ∨ s.pwr.good = true ∨
      s.pwr.hostReq = true ∨ s.cool = false) :=
  ⟨{ wS [(R.CCOL_CTL_FREEZE, 1)] with tvx := { alive := true, running := true }, pwr := { stage := .vaux, tries := 3 } },
   by decide⟩

theorem test_met_SupplyAndStart_9 :
    ∃ (s : State), s.pwr.hostReq = true ∧ s.pwr.good = false ∧ s.tvx.running = true ∧ s.tvx.flashGranted = false :=
  ⟨{ wS [(R.CCOL_CTL_FREEZE, 1)] with
       tvx := { alive := true, running := true }, pwr := { stage := .vaux, hostReq := true } }, by decide⟩

theorem test_met_SupplyAndStart_10 :
    ∃ (s : State), s.pwr.hostReq = true ∧ s.pwr.good = false ∧ s.tvx.running = false :=
  ⟨{ wS [(R.CCOL_CTL_FREEZE, 1)] with
       tvx := { alive := true, running := false }, pwr := { stage := .vaux, hostReq := true } }, by decide⟩

theorem test_met_SupplyAndStart_11 :
    ∃ (s : State), (s.pwr.hostReq = false ∨ s.pwr.good = true) :=
  ⟨wS [], by decide⟩

theorem test_met_SupplyAndStart_12 :
    ∃ (s : State), s.tvx.alive = true ∧ s.pwr.good = false ∧ s.pwr.fell = false :=
  ⟨{ wS [(R.CCOL_CTL_FREEZE, 1)] with tvx := { alive := true, running := true }, pwr := { stage := .vaux, tries := 1 } },
   by decide⟩

theorem test_met_SupplyAndStart_13 :
    ∃ (s : State), s.tvx.alive = true ∧ s.pwr.good = false ∧ s.pwr.fell = true ∧ s.setSlot.rot = [] ∧ s.tvx.recs.rot = [] :=
  ⟨{ wS [(R.CCOL_CTL_FREEZE, 1)] with tvx := { alive := true, running := true }, pwr := { stage := .vaux, fell := true } },
   by decide⟩

theorem test_met_SupplyAndStart_14 :
    ∃ (s : State), (s.tvx.alive = false ∨ s.pwr.good = true) :=
  ⟨wS [], by decide⟩

theorem test_met_SupplyAndStart_15 :
    ∃ (s : State), s.pwr.good = true ∧ s.tvx.longOp.all (fun l => !hostOps.contains l.cmd.pkt.opcode || l.final.isSome) = true :=
  ⟨{ wS [(R.CCOL_CTL_FREEZE, 1)] with tvx := { alive := true, running := true }, pwr := { good := true, stage := .run } },
   by decide⟩

theorem test_met_SupplyAndStart_16 :
    ∃ (l : LongOp) (s : State), s.pwr.good = true ∧ s.tvx.longOp = some l ∧ l.final = none ∧ l.mute = false ∧ hostOps.contains
      l.cmd.pkt.opcode = true ∧ s.tvx.queue = [] :=
  ⟨{ cmd := { ing := .msl, pkt := { version := 3, typ := 0, tag := 5, opcode := opFORMAT_RANGE } }, start := 0 },
   { wS [] with
       tvx :=
         { alive := true, running := true,
           longOp :=
             some
               { cmd := { ing := .msl, pkt := { version := 3, typ := 0, tag := 5, opcode := opFORMAT_RANGE } }, start := 0 } },
       pwr := { good := true, stage := .run } }, by decide⟩

theorem test_met_SupplyAndStart_17 :
    ∃ (s : State), s.pwr.good = false :=
  ⟨wS [], by decide⟩

theorem test_met_SupplyAndStart_18 :
    ∃ (s : State), s.pwr.good = true ∧ s.pwr.stage ≠ .off :=
  ⟨{ wS [(R.CCOL_CTL_FREEZE, 1)] with tvx := { alive := true, running := true }, pwr := { good := true, stage := .run } },
   by decide⟩

theorem test_met_SupplyAndStart_19 :
    ∃ (s : State), s.pwr.good = false :=
  ⟨wS [], by decide⟩

theorem test_met_SupplyAndStart_20 :
    ∃ (s : State), s.pwr.stage = .good :=
  ⟨{ wS [(R.CCOL_CTL_FREEZE, 1)] with tvx := { alive := true, running := true }, pwr := { good := true, stage := .good } },
   by decide⟩

theorem test_met_SupplyAndStart_21 :
    ∃ (s : State), s.pwr.stage ≠ .good :=
  ⟨wS [], by decide⟩

theorem test_met_SupplyAndStart_22 :
    ∃ (s : State), s.pwr.jtag = true ∧ s.setSlot.rot = [] ∧ s.tvx.recs.rot = [] :=
  ⟨{ wS [(R.CCOL_CTL_FREEZE, 1)] with
       tvx := { alive := true, running := true }, pwr := { good := true, stage := .good, jtag := true } }, by decide⟩

theorem test_met_SupplyAndStart_23 :
    ∃ (s : State), s.pwr.jtag = false :=
  ⟨wS [], by decide⟩

theorem test_met_SupplyAndStart_24 :
    ∃ (s : State), s.pwr.stage = .good ∧ s.pwr.jtag = false ∧ s.tvx.running = true :=
  ⟨{ wS [] with tvx := { alive := true, running := true, recs := { core := 8 } }, pwr := { good := true, stage := .good } },
   by decide⟩

theorem test_met_SupplyAndStart_25 :
    ∃ (s : State), (s.pwr.stage ≠ .good ∨ s.pwr.jtag = true ∨ s.tvx.running = false) :=
  ⟨wS [], by decide⟩

theorem test_met_SupplyAndStart_26 :
    ∃ (s : State), s.pwr.stage = .image ∧ s.chan.san.op = 0 ∧ s.imgOk = true ∧ [2, 3, 5, 6].any s.ucRestarting = false ∧
      (List.range 24).all s.portRests = true :=
  ⟨{ wS [(R.PASS_STATUS_STATE 0 6, passACTIVE), (R.VALE_CORE_STATUS_STATE 3 5, coreOFFLINE)] with
       tvx :=
         { alive := true, running := true,
           host :=
             [(0, 72), (1, 81), (2, 72), (3, 79), (4, 83), (5, 84), (6, 73), (7, 77), (8, 64), (9, 0), (10, 0),
              (11, 0), (12, 0), (13, 0), (14, 0), (15, 0), (16, 0), (17, 0), (18, 0), (19, 0), (20, 0), (21, 0),
              (22, 0), (23, 0), (24, 0), (25, 0), (26, 0), (27, 0), (28, 0), (29, 0), (30, 0), (31, 0), (32, 0),
              (33, 0), (34, 0), (35, 0), (36, 0), (37, 0), (38, 0), (39, 0), (40, 0), (41, 0), (42, 0), (43, 0),
              (44, 0), (45, 0), (46, 0), (47, 0), (48, 0), (49, 0), (50, 0), (51, 0), (52, 0), (53, 0), (54, 0),
              (55, 0), (56, 0), (57, 0), (58, 0), (59, 0), (60, 0), (61, 0), (62, 0), (63, 0), (4096, 1),
              (4097, 2), (4098, 3), (4099, 4), (4100, 5), (4101, 6), (4102, 7), (4103, 8), (4104, 9), (4105, 10),
              (4106, 11), (4107, 12), (4108, 13), (4109, 14), (4110, 15), (4111, 16), (4112, 17), (4113, 18),
              (4114, 19), (4115, 20), (4116, 21), (4117, 22), (4118, 23), (4119, 24), (4120, 25), (4121, 26),
              (4122, 27), (4123, 28), (4124, 29), (4125, 30), (4126, 31), (4127, 32), (4128, 33), (4129, 34),
              (4130, 35), (4131, 36), (4132, 37), (4133, 38), (4134, 39), (4135, 40), (4136, 41), (4137, 42),
              (4138, 43), (4139, 44), (4140, 45), (4141, 46), (4142, 47), (4143, 48), (4144, 49), (4145, 50),
              (4146, 51), (4147, 52), (4148, 53), (4149, 54), (4150, 55), (4151, 56), (4152, 57), (4153, 58),
              (4154, 59), (4155, 60), (4156, 61), (4157, 62), (4158, 63), (4159, 64)] },
       pwr := { good := true, stage := .image } }, by decide⟩

theorem test_met_SupplyAndStart_27 :
    ∃ (s : State), s.pwr.stage = .image ∧ s.chan.san.op = 0 ∧ s.imgOk = false ∧ [2, 3, 5, 6].any s.ucRestarting = false ∧
      (List.range 24).all s.portRests = true ∧ s.tvx.running = true ∧ s.tvx.flashGranted = false :=
  ⟨{ wS [] with tvx := { alive := true, running := true, host := [] }, pwr := { good := true, stage := .image } },
   by decide⟩

theorem test_met_SupplyAndStart_28 :
    ∃ (s : State), s.pwr.stage = .image ∧ s.chan.san.op = 0 ∧ s.imgOk = true ∧ [2, 3, 5, 6].any s.ucRestarting = false ∧
      (List.range 24).all s.portRests = true ∧ s.imgLength ≤ 64 ∧ s.storeHolds s.imgLoad = false ∧ s.chState (s.dramPlace
      s.imgLoad).1 = chACTIVE :=
  ⟨{ wS [(R.MC_CH_STATUS_STATE 0, chACTIVE)] with
       tvx :=
         { alive := true, running := true,
           host :=
             [(0, 72), (1, 81), (2, 72), (3, 79), (4, 83), (5, 84), (6, 73), (7, 77), (8, 64), (9, 0), (10, 0),
              (11, 0), (12, 0), (13, 0), (14, 0), (15, 0), (16, 0), (17, 0), (18, 0), (19, 0), (20, 0), (21, 0),
              (22, 0), (23, 0), (24, 0), (25, 0), (26, 0), (27, 0), (28, 0), (29, 0), (30, 0), (31, 0), (32, 0),
              (33, 0), (34, 0), (35, 0), (36, 0), (37, 0), (38, 0), (39, 0), (40, 0), (41, 0), (42, 0), (43, 0),
              (44, 0), (45, 0), (46, 0), (47, 0), (48, 0), (49, 0), (50, 0), (51, 0), (52, 0), (53, 0), (54, 0),
              (55, 0), (56, 0), (57, 0), (58, 0), (59, 0), (60, 0), (61, 0), (62, 0), (63, 0), (4096, 1),
              (4097, 2), (4098, 3), (4099, 4), (4100, 5), (4101, 6), (4102, 7), (4103, 8), (4104, 9), (4105, 10),
              (4106, 11), (4107, 12), (4108, 13), (4109, 14), (4110, 15), (4111, 16), (4112, 17), (4113, 18),
              (4114, 19), (4115, 20), (4116, 21), (4117, 22), (4118, 23), (4119, 24), (4120, 25), (4121, 26),
              (4122, 27), (4123, 28), (4124, 29), (4125, 30), (4126, 31), (4127, 32), (4128, 33), (4129, 34),
              (4130, 35), (4131, 36), (4132, 37), (4133, 38), (4134, 39), (4135, 40), (4136, 41), (4137, 42),
              (4138, 43), (4139, 44), (4140, 45), (4141, 46), (4142, 47), (4143, 48), (4144, 49), (4145, 50),
              (4146, 51), (4147, 52), (4148, 53), (4149, 54), (4150, 55), (4151, 56), (4152, 57), (4153, 58),
              (4154, 59), (4155, 60), (4156, 61), (4157, 62), (4158, 63), (4159, 64)] },
       pwr := { good := true, stage := .image } }, by decide⟩

theorem test_met_SupplyAndStart_29 :
    ∃ (s : State), (s.pwr.stage ≠ .image ∨ s.chan.san.op ≠ 0 ∨ [2, 3, 5, 6].any s.ucRestarting = true ∨ (List.range 24).all
      s.portRests = false) :=
  ⟨wS [], by decide⟩

theorem test_met_SupplyAndStart_30 :
    ∃ (s : State), s.warmReady = true ∧ Memory.wf s.mem = true ∧ Tbl.wf regReset s.regs = true :=
  ⟨wS [], by decide⟩

theorem test_met_SupplyAndStart_31 :
    ∃ (s : State), s.warmReady = false :=
  ⟨{ wS [] with pwr := {} }, by decide⟩

theorem test_met_PatrolBucketsAndReadings_1 :
    ∃ (k : Fin 15) (i : Nat) (s : State), s.pwr.stage ≠ .off ∧ i < 2 ^ 40 ∧ (s.ras.buckets.map (fun e => e.1)).Nodup :=
  ⟨5, 35,
   { wS [] with
       pwr := { stage := .vaux }, ras := { buckets := [(bucketKey 5 35, { level := 40, hot := true, run := 1 })] } },
   by decide⟩

theorem test_met_PatrolBucketsAndReadings_2 :
    ∃ (k : Fin 15) (s : State), s.pwr.stage = .off :=
  ⟨5, { wS [] with pwr := {} }, by decide⟩

theorem test_met_PatrolBucketsAndReadings_3 :
    ∃ (x : ArrLoc) (bad : List (Nat × Nat)) (s : State), s.arrUp x = false :=
  ⟨.mesaData 2 5 3 4, [(9, 12), (9, 13)], { wS [] with pwr := {} }, by decide⟩

theorem test_met_PatrolBucketsAndReadings_4 :
    ∃ (x : ArrLoc) (bad : List (Nat × Nat)) (s : State), s.arrUp x = true ∧ (s.finds x bad = .bad ∨ s.finds x bad = .marker) ∧
      s.arrBusy x = true :=
  ⟨.dir (Fin.ofNat 16 (sliceOf 0x40000)) (Fin.ofNat 65536 (dirSet 0x40000)) 2 false, [(1, 2), (1, 3)],
   ((wS []).setLock (sliceOf 0x40000) 4
      (some
         { line := 0x1000, proxy := false, work := .request,
           req := { vc := 0, opc := 1, srcPkg := 0, srcAgent := 1, dstPkg := 0, dstAgent := 0x15, txn := 9, addr := 0x1000 },
           phase := .acks, invs := 12 })).setDirE (sliceOf 0x40000) (dirSet 0x40000) 2
     ⟨mesaTag 0x40000, 1, 12, 15, false, false⟩, by decide⟩

theorem test_met_PatrolBucketsAndReadings_5 :
    ∃ (x : ArrLoc) (bad : List (Nat × Nat)) (s : State), s.arrUp x = true ∧ s.finds x bad = .clean ∧ (gridOf x).residue
      (s.badCells x bad) .clean = 0 :=
  ⟨.mesaData 2 5 3 4, [], { wS [] with mesa := { tags := [(secKey 2 5 3, { tag := 1, valid := 0xFFFF, mcid := 4 })] } },
   by decide⟩

theorem test_met_PatrolBucketsAndReadings_6 :
    ∃ (x : ArrLoc) (bad : List (Nat × Nat)) (p : Nat × Nat) (s : State), s.arrUp x = true ∧ s.badCells x bad = [p] ∧ s.finds x
      bad = .one p ∧ s.bears x false = true ∧ arrIsXce x = false :=
  ⟨.mesaData 2 5 3 4, [(9, 12)], (9, 12),
   { wS [] with mesa := { tags := [(secKey 2 5 3, { tag := 1, valid := 0xFFFF, mcid := 4 })] } }, by decide⟩

theorem test_met_PatrolBucketsAndReadings_7 :
    ∃ (f : Func) (bad : List (Nat × Nat)) (p : Nat × Nat) (s : State), s.arrUp (.xce f) = true ∧ s.badCells (.xce f) bad = [p] ∧
      s.finds (.xce f) bad = .one p ∧ s.bears (.xce f) false = true :=
  ⟨2, [(1, 2)], (1, 2), wS [], by decide⟩

theorem test_met_PatrolBucketsAndReadings_8 :
    ∃ (n : Ix16) (set : Fin 4096) (w b : Fin 16) (bad : List (Nat × Nat)) (s : State), s.arrUp (.mesaData n set w b) = true ∧
      s.arrBusy (.mesaData n set w b) = false ∧ s.bears (.mesaData n set w b) true = true ∧ (s.finds (.mesaData n set w b)
      bad = .bad ∨ s.finds (.mesaData n set w b) bad = .marker) :=
  ⟨2, 5, 3, 4, [(9, 12), (9, 13)],
   { wS [] with mesa := { tags := [(secKey 2 5 3, { tag := 1, valid := 0xFFFF, mcid := 4 })] } }, by decide⟩

theorem test_met_PatrolBucketsAndReadings_9 :
    ∃ (n : Ix16) (set : Fin 4096) (w : Fin 16) (g : Bool) (bad : List (Nat × Nat)) (s : State), s.arrUp (.mesaTag n set w g) =
      true ∧ s.arrBusy (.mesaTag n set w g) = false ∧ s.bears (.mesaTag n set w g) true = true ∧ (s.finds (.mesaTag n set w
      g) bad = .bad ∨ s.finds (.mesaTag n set w g) bad = .marker) :=
  ⟨2, 5, 3, true, [(1, 2), (1, 3)],
   { wS [] with mesa := { tags := [(secKey 2 5 3, { tag := 1, valid := 0xFFFF, mcid := 4 })] } }, by decide⟩

theorem test_met_PatrolBucketsAndReadings_10 :
    ∃ (n : Ix16) (set : Fin 4096) (bad : List (Nat × Nat)) (s : State), s.arrUp (.mesaPlru n set) = true ∧ s.arrBusy (.mesaPlru
      n set) = false ∧ s.bears (.mesaPlru n set) true = true ∧ (s.finds (.mesaPlru n set) bad = .bad ∨ s.finds (.mesaPlru n
      set) bad = .marker) :=
  ⟨2, 5, [(1, 2), (1, 3)], { wS [] with mesa := { plru := [(2 * 4096 + 5, 7)] } }, by decide⟩

theorem test_met_PatrolBucketsAndReadings_11 :
    ∃ (n : Ix16) (e : Fin 256) (q : Fin 18) (bad : List (Nat × Nat)) (s : State), s.arrUp (.mesaVictim n e q) = true ∧ s.arrBusy
      (.mesaVictim n e q) = false ∧ s.bears (.mesaVictim n e q) true = true ∧ (s.finds (.mesaVictim n e q) bad = .bad ∨
      s.finds (.mesaVictim n e q) bad = .marker) :=
  ⟨2, 1, 3, [(1, 2), (1, 3)], wS [], by decide⟩

theorem test_met_PatrolBucketsAndReadings_12 :
    ∃ (h : Hart) (set : Fin 128) (w : Fin 8) (g : Option Bool) (bad : List (Nat × Nat)) (s : State), s.arrUp (.l1i h set w g) =
      true ∧ s.arrBusy (.l1i h set w g) = false ∧ s.bears (.l1i h set w g) true = true ∧ (s.finds (.l1i h set w g) bad =
      .bad ∨ s.finds (.l1i h set w g) bad = .marker) :=
  ⟨5, 3, 2, none, [(9, 12), (9, 13)], wS [(R.VALE_CORE_STATUS_STATE 0 5, coreONLINE)], by decide⟩

theorem test_met_PatrolBucketsAndReadings_13 :
    ∃ (h : Hart) (set : Fin 128) (w : Fin 8) (g : Option Bool) (bad : List (Nat × Nat)) (s : State), s.arrUp (.l1d h set w g) =
      true ∧ s.arrBusy (.l1d h set w g) = false ∧ s.bears (.l1d h set w g) true = true ∧ (s.finds (.l1d h set w g) bad =
      .bad ∨ s.finds (.l1d h set w g) bad = .marker) :=
  ⟨5, 3, 2, none, [(9, 12), (9, 13)], wS [(R.VALE_CORE_STATUS_STATE 0 5, coreONLINE)], by decide⟩

theorem test_met_PatrolBucketsAndReadings_14 :
    ∃ (h : Hart) (set : Fin 2048) (w : Fin 16) (bad : List (Nat × Nat)) (s : State), s.arrUp (.l2Data h set w) = true ∧
      s.arrBusy (.l2Data h set w) = false ∧ s.bears (.l2Data h set w) true = true ∧ (s.finds (.l2Data h set w) bad = .bad ∨
      s.finds (.l2Data h set w) bad = .marker) ∧ (s.l2 h set w).st ≠ .i ∧ dirtyMoesi (s.dieSt (h / 32) (s.l2 h set w).line)
      = true :=
  ⟨5, (Fin.ofNat 2048 (l2Set 64)), 2, [(9, 12), (9, 13)],
   ((wS []).setL2 5 (l2Set 64) 2 ⟨.m, 64, 1, 0, 0, 0x1122, false⟩).setSf 0 (valeSlice (64 * 64)) (valeSet (64 * 64)) 1
     ⟨true, 64, .m, 32, 5, true⟩, by decide⟩

theorem test_met_PatrolBucketsAndReadings_15 :
    ∃ (d : Die) (sl : Fin 16) (set : Fin 4096) (w : Fin 16) (bad : List (Nat × Nat)) (s : State), s.arrUp (.vcData d sl set w) =
      true ∧ s.arrBusy (.vcData d sl set w) = false ∧ s.bears (.vcData d sl set w) true = true ∧ (s.finds (.vcData d sl set
      w) bad = .bad ∨ s.finds (.vcData d sl set w) bad = .marker) ∧ (s.vc d sl set w).valid = true :=
  ⟨3, (Fin.ofNat 16 (valeSlice 0x40000)), (Fin.ofNat 4096 (valeSet 0x40000)), 1, [(9, 12), (9, 13)],
   (wS []).setVc 3 (valeSlice 0x40000) (valeSet 0x40000) 1 ⟨true, 0x1000, .m, 0, 0, 0, 0xABCD, false⟩, by decide⟩

theorem test_met_PatrolBucketsAndReadings_16 :
    ∃ (n : Ix16) (set : Fin 65536) (w : Fin 16) (bad : List (Nat × Nat)) (s : State), s.arrUp (.dir n set w true) = true ∧
      s.arrBusy (.dir n set w true) = false ∧ s.bears (.dir n set w true) true = true ∧ (s.finds (.dir n set w true) bad =
      .bad ∨ s.finds (.dir n set w true) bad = .marker) ∧ s.home.bcast.contains (n * 65536 + set) = false :=
  ⟨2, 5, 3, [(1, 2), (1, 3)], wS [], by decide⟩

theorem test_met_PatrolBucketsAndReadings_17 :
    ∃ (n : Ix16) (set : Fin 65536) (w : Fin 16) (bad : List (Nat × Nat)) (s : State), s.arrUp (.dir n set w false) = true ∧
      s.arrBusy (.dir n set w false) = false ∧ s.bears (.dir n set w false) true = true ∧ (s.finds (.dir n set w false) bad
      = .bad ∨ s.finds (.dir n set w false) bad = .marker) ∧ (s.dirE n set w).state = 0 :=
  ⟨2, 5, 3, [(1, 2), (1, 3)], wS [], by decide⟩

theorem test_met_PatrolBucketsAndReadings_18 :
    ∃ (n : Ix16) (set : Fin 8192) (w : Fin 16) (bad : List (Nat × Nat)) (s : State), s.arrUp (.rpt n set w false) = true ∧
      s.arrBusy (.rpt n set w false) = false ∧ s.bears (.rpt n set w false) true = true ∧ (s.finds (.rpt n set w false) bad
      = .bad ∨ s.finds (.rpt n set w false) bad = .marker) ∧ (s.rptE n set w).rstate = 0 :=
  ⟨2, 5, 3, [(1, 2), (1, 3)], wS [], by decide⟩

theorem test_met_PatrolBucketsAndReadings_19 :
    ∃ (n : Ix16) (set : Fin 8192) (w : Fin 16) (bad : List (Nat × Nat)) (s : State), s.arrUp (.rpt n set w true) = true ∧
      s.arrBusy (.rpt n set w true) = false ∧ s.bears (.rpt n set w true) true = true ∧ (s.finds (.rpt n set w true) bad =
      .bad ∨ s.finds (.rpt n set w true) bad = .marker) :=
  ⟨2, 5, 3, [(1, 2), (1, 3)], wS [], by decide⟩

theorem test_met_PatrolBucketsAndReadings_20 :
    ∃ (n : Ix16) (set : Fin 16384) (w : Fin 16) (bad : List (Nat × Nat)) (s : State), s.arrUp (.rld n set w false) = true ∧
      s.arrBusy (.rld n set w false) = false ∧ s.bears (.rld n set w false) true = true ∧ (s.finds (.rld n set w false) bad
      = .bad ∨ s.finds (.rld n set w false) bad = .marker) ∧ (s.rldE n set w).pstate = 0 :=
  ⟨2, 5, 3, [(1, 2), (1, 3)], wS [], by decide⟩

theorem test_met_PatrolBucketsAndReadings_21 :
    ∃ (n : Ix16) (set : Fin 16384) (w : Fin 16) (bad : List (Nat × Nat)) (s : State), s.arrUp (.rld n set w true) = true ∧
      s.arrBusy (.rld n set w true) = false ∧ s.bears (.rld n set w true) true = true ∧ (s.finds (.rld n set w true) bad =
      .bad ∨ s.finds (.rld n set w true) bad = .marker) :=
  ⟨2, 5, 3, [(1, 2), (1, 3)], wS [], by decide⟩

theorem test_met_PatrolBucketsAndReadings_22 :
    ∃ (b : Fin 2) (q : Fin 10) (m : Fin 1024) (bad : List (Nat × Nat)) (s : State), s.arrUp (.meterAcc b q m) = true ∧ s.arrBusy
      (.meterAcc b q m) = false ∧ s.bears (.meterAcc b q m) true = true ∧ (s.finds (.meterAcc b q m) bad = .bad ∨ s.finds
      (.meterAcc b q m) bad = .marker) :=
  ⟨1, 2, 9, [(1, 2), (1, 3)], wS [], by decide⟩

theorem test_met_PatrolBucketsAndReadings_23 :
    ∃ (b : Fin 2) (q : Fin 10) (bad : List (Nat × Nat)) (s : State), s.arrUp (.meterTotal b q) = true ∧ s.arrBusy (.meterTotal b
      q) = false ∧ s.bears (.meterTotal b q) true = true ∧ (s.finds (.meterTotal b q) bad = .bad ∨ s.finds (.meterTotal b q)
      bad = .marker) :=
  ⟨1, 2, [(1, 2), (1, 3)], wS [], by decide⟩

theorem test_met_PatrolBucketsAndReadings_24 :
    ∃ (n : Ix16) (k : Nat) (e : Msg) (l r : List (Nat × Msg)) (bad : List (Nat × Nat)) (s : State), s.arrUp (.homeBuf n k) =
      true ∧ s.arrBusy (.homeBuf n k) = false ∧ s.bears (.homeBuf n k) true = true ∧ (s.finds (.homeBuf n k) bad = .bad ∨
      s.finds (.homeBuf n k) bad = .marker) ∧ s.home.wbHeld = l ++ (n.val, e) :: r ∧ (l.filter (fun y => y.1 ==
      n.val)).length = k :=
  ⟨2, 0,
   { vc := 4, opc := 2, srcPkg := 0, srcAgent := 2, dstPkg := 0, dstAgent := 0x12, txn := 9, addr := 0x1000,
     payload := true }, [], [], [(9, 12), (9, 13)],
   { wS [] with
       home :=
         { wbHeld :=
             [(2,
               { vc := 4, opc := 2, srcPkg := 0, srcAgent := 2, dstPkg := 0, dstAgent := 0x12, txn := 9,
                 addr := 0x1000, payload := true })] } }, by decide⟩

theorem test_met_PatrolBucketsAndReadings_25 :
    ∃  (bad : List (Nat × Nat)) (s : State), s.arrUp (.tvxSram) = true ∧ s.arrBusy (.tvxSram) = false ∧ s.bears (.tvxSram) true
      = true ∧ (s.finds (.tvxSram) bad = .bad ∨ s.finds (.tvxSram) bad = .marker) ∧ s.tvx.act = none :=
  ⟨[(1, 2), (1, 3)], { wS [] with tvx := { alive := true, running := true } }, by decide⟩

theorem test_met_PatrolBucketsAndReadings_26 :
    ∃  (bad : List (Nat × Nat)) (s : State), s.arrUp (.other) = true ∧ s.arrBusy (.other) = false ∧ s.bears (.other) true = true
      ∧ (s.finds (.other) bad = .bad ∨ s.finds (.other) bad = .marker) :=
  ⟨[(1, 2), (1, 3)], wS [], by decide⟩

theorem test_met_PatrolBucketsAndReadings_27 :
    ∃  (bad : List (Nat × Nat)) (s : State), s.arrUp (.iommu) = true ∧ s.arrBusy (.iommu) = false ∧ s.bears (.iommu) true = true
      ∧ (s.finds (.iommu) bad = .bad ∨ s.finds (.iommu) bad = .marker) ∧ (s.get R.XCE_EVENT_EN_ENABLE).testBit 5 = false :=
  ⟨[(1, 2), (1, 3)], wS [], by decide⟩

theorem test_met_PatrolBucketsAndReadings_28 :
    ∃  (bad : List (Nat × Nat)) (s : State), s.arrUp (.iommu) = true ∧ s.arrBusy (.iommu) = false ∧ s.bears (.iommu) true = true
      ∧ (s.finds (.iommu) bad = .bad ∨ s.finds (.iommu) bad = .marker) ∧ (s.get R.XCE_EVENT_EN_ENABLE).testBit 5 = true :=
  ⟨[(1, 2), (1, 3)], wS [(R.XCE_EVENT_EN_ENABLE, 63)], by decide⟩

theorem test_met_PatrolBucketsAndReadings_29 :
    ∃ (h : Hart) (v : Bool) (bad : List (Nat × Nat)) (s : State), s.arrUp (.regs h v) = true ∧ s.arrBusy (.regs h v) = false ∧
      s.bears (.regs h v) true = true ∧ (s.finds (.regs h v) bad = .bad ∨ s.finds (.regs h v) bad = .marker) ∧ s.coreState h
      = coreONLINE :=
  ⟨5, true, [(1, 2), (1, 3)], wS [(R.VALE_CORE_STATUS_STATE 0 5, coreONLINE)], by decide⟩

theorem test_met_PatrolBucketsAndReadings_30 :
    ∃ (n : Ix16) (set : Fin 4096) (w b : Fin 16) (bad : List (Nat × Nat)) (s : State), s.arrUp (.mesaData n set w b) = true ∧
      s.retiredArr (.mesaData n set w b) = false ∧ (s.charge 5 (n * 16 + w) (decide (s.finds (.mesaData n set w b) bad =
      .bad))).2 = true ∧ s.finds (.mesaData n set w b) bad = .bad :=
  ⟨2, 5, 3, 4, [(9, 12), (9, 13)],
   { { wS [] with mesa := { tags := [(secKey 2 5 3, { tag := 1, valid := 0xFFFF, mcid := 4 })] } } with
       ras := { buckets := [(bucketKey 5 35, { level := 31, hot := false, run := 2 })] } }, by decide⟩

theorem test_met_PatrolBucketsAndReadings_31 :
    ∃ (v : List Int) (s : State), s.tvx.alive = true :=
  ⟨[800, 900, -16], { wS [] with tvx := { alive := true, running := true } }, by decide⟩

theorem test_met_PatrolBucketsAndReadings_32 :
    ∃ (v : List Int) (s : State), s.tvx.alive = false :=
  ⟨[800], wS [], by decide⟩

theorem test_met_PatrolBucketsAndReadings_33 :
    ∃ (m : Fin 60) (r : Int) (s : State), s.tvx.alive = true :=
  ⟨7, 120, { wS [] with tvx := { alive := true, running := true, ages := [(7, [(0, 100)])] } }, by decide⟩

theorem test_met_PatrolBucketsAndReadings_34 :
    ∃ (m : Fin 60) (r : Int) (s : State), s.tvx.alive = false :=
  ⟨7, 120, wS [], by decide⟩

theorem test_met_StepTakesTheFront :
    ∃ s : State, s.pending = [] ∧ s.pwr.stage ≠ .off ∧ s.pwr.refclk = true ∧ s.get R.TIME_OFFSET_RATE_PPB = 0 := ⟨wS [], by decide⟩

theorem test_met_EveryStepKeepsTheForm :
    ∃ s t : State, s.Ok ∧ step s = .next t := ⟨State.reset, _, ⟨by decide, by decide⟩, rfl⟩

theorem test_met_OnlyHostMadeErrorsStop :
    ∃ (a size : Nat) (v : Word) (s : State) (d : RegDesc) (ix : List Nat), regFind (a / 8 * 8) = some (d, ix) ∧ regBad d.id ix (rWrite (s.reg (a / 8 * 8)) (BitVec.ofNat 64 d.rw) (BitVec.ofNat 64 d.w1c) (a % 8) size v) s = true := ⟨R.rTIME_CTL, 8, 0, wS [], ((regFind (R.rTIME_CTL / 8 * 8)).get (by decide)).1, ((regFind (R.rTIME_CTL / 8 * 8)).get (by decide)).2, by decide, by decide⟩

theorem test_met_OnlyTheseChangeMemory :
    ∃ (c : Instr) (s t : State), mayChangeMemory c = false ∧ exec c s = .next t := ⟨.counterFreeze, wS [], _, rfl, rfl⟩

theorem test_met_GtimeNeverDecreases_1 :
    ∃ (c : Instr) (s t : State), mayBePor c = false ∧ exec c s = .next t := ⟨.counterFreeze, wS [], _, rfl, rfl⟩

theorem test_met_GtimeNeverDecreases_2 :
    ∃ s t : State, s.pending = [] ∧ step s = .next t := ⟨State.reset, _, rfl, rfl⟩

theorem test_met_MessagesOnTheWire :
    ∃ (m : Msg) (n : Mgt), m.wf = true ∧ m.vc ≤ 4 ∧ n.wf = true := ⟨⟨3, 2, 5, 1, 9, 0x10, 77, 0x123456789, 0, 0, 0, 0, false, 0, 0, 0, 0, 0, 5, 0, 0, 0, 0, 0, 0, true, false, 1, 0xABCDEF⟩,
    ⟨2, 7, 0x12340, true, 0xFFFFFFFFFFFFFFFF, 3⟩, by decide⟩

theorem test_met_HeadersOnTheWire :
    ∃ (f : Flit) (g : HFrame) (m : WMsg), f.wf = true ∧ g.wf = true ∧ m.wf = true := ⟨{ typ := 0, seq := 5 }, { typ := 0, seq := 9, crs := [(3, 7)] }, { vc := 6, wopc := 1, srcPkg := 3, dstPkg := 4 }, by decide⟩

theorem test_met_ValePlacement :
    ∃ x y : Nat, x < 2 ^ 56 ∧ y < 2 ^ 56 ∧ valeSlice x = valeSlice y ∧ valeSet x = valeSet y ∧ bits x 22 34 = bits y 22 34 ∧ x % 64 = y % 64 := ⟨0x123456789ABC, 0x123456789ABC, by decide⟩

theorem test_met_ValePlacement_4 :
    ∃ ga i j : Nat, ga % 1024 = 0 ∧ i < 16 ∧ j < 16 ∧ valeSlice (ga + 64 * i) = valeSlice (ga + 64 * j) := ⟨0x400, 3, 3, by decide⟩

theorem test_met_HomePlacement_2 :
    ∃ m x y : Nat, m ≤ 3 ∧ x < 2 ^ 43 ∧ y < 2 ^ 43 ∧ chanPlace m x = chanPlace m y ∧ x % 4096 = y % 4096 := ⟨2, 0x12345678, 0x12345678, by decide⟩

theorem test_met_HomePlacement :
    ∃ x y : Nat, x < 2 ^ 44 ∧ y < 2 ^ 44 ∧ sliceOf x = sliceOf y ∧ mesaSet x = mesaSet y ∧ mesaTag x = mesaTag y ∧ mesaBlk x = mesaBlk y ∧ x % 64 = y % 64 := ⟨0x123456789AB, 0x123456789AB, by decide⟩

theorem test_met_ProductCode :
    ∃ (x : ArrLoc) (p q : Nat × Nat), (gridOf x).stored p = true ∧ (gridOf x).stored q = true ∧ p ≠ q ∧ (gridOf x).n = 512 := ⟨.mesaData 0 0 0 0, (9, 12), (16, 32), by decide⟩

theorem test_met_StoredResponses_2 :
    ∃ (g : Ingress) (k r : Pkt) (q : List Pkt) (s : State), s.Serves g opQUERY_TAG k q ∧ k.data ≠ [] ∧ Tbl.get (fun _ => none) (s.ing g).stored (k.data.headD 0) = some r := ⟨.mbox, { version := 3, typ := 0, tag := 9, opcode := opQUERY_TAG, length := 1, data := [5] }, rspPkt ({ version := 3, typ := 0, tag := 5, opcode := opGET_INFO }) stOK 0 [1, 2], [], { wS [] with tvx := { alive := true, running := true, mbox := { imm := [{ version := 3, typ := 0, tag := 9, opcode := opQUERY_TAG, length := 1, data := [5] }], stored := [(5, some (rspPkt ({ version := 3, typ := 0, tag := 5, opcode := opGET_INFO }) stOK 0 [1, 2]))] } } }, by decide⟩

theorem test_met_StoredResponses_3 :
    ∃ (g : Ingress) (k : Pkt) (q : List Pkt) (s : State), s.Serves g opQUERY_TAG k q ∧ k.data ≠ [] ∧ Tbl.get (fun _ => none) (s.ing g).stored (k.data.headD 0) = none := ⟨.mbox, { version := 3, typ := 0, tag := 9, opcode := opQUERY_TAG, length := 1, data := [5] }, [], { wS [] with tvx := { alive := true, running := true, mbox := { imm := [{ version := 3, typ := 0, tag := 9, opcode := opQUERY_TAG, length := 1, data := [5] }] } } }, by decide⟩

theorem test_met_CountersWhileFrozen :
    ∃ s : State, s.get R.CCOL_CTL_FREEZE = 1 := ⟨wS [(R.CCOL_CTL_FREEZE, 1)], by decide⟩

theorem test_met_CounterAddition :
    ∃ (s : State) (b j n : Nat), b < 354 ∧ j < bankCounters b ∧ s.get R.CCOL_CTL_MSI_ENABLE = 0 := ⟨wS [], 353, 7, 64, by decide⟩

theorem test_met_CounterAddition_5 :
    ∃ (s : State) (b j n : Nat), b < 354 ∧ j < bankCounters b ∧ s.get R.CCOL_CTL_MSI_ENABLE = 1 ∧ 2 ^ 48 ≤ s.get (R.CCOL_COUNT_COUNT b j) + n ∧ s.get (R.CCOL_SELECT_OVF_IRQ b j) = 1 ∧ (s.get (R.CCOL_OVF_PEND_PEND (b / 64))).testBit (b % 64) = false := ⟨wS [(R.CCOL_COUNT_COUNT 353 7, 2 ^ 48 - 5), (R.CCOL_SELECT_OVF_IRQ 353 7, 1), (R.CCOL_CTL_MSI_ENABLE, 1)], 353, 7, 9, by decide⟩

theorem test_met_FlitsOnTheLanes_2 :
    ∃ (f : Flit), f.wf = true ∧ f.typ = 0 ∧ slotStarts 0 f.msgs = some f.slotStart := ⟨{ typ := 0, seq := 5, slotStart := 5, msgs := [.mgt ⟨2, 7, 0x12340, true, 99, 3⟩, .ose { vc := 3, opc := 1, srcPkg := 0, srcAgent := 1, dstPkg := 0, dstAgent := 2, txn := 3, addr := 64, payload := true, data := 77 }] }, by decide⟩

theorem test_met_FlitsOnTheLanes_3 :
    ∃ (f : Flit) (args : List Nat), f.wf = true ∧ f.typ = 1 ∧ bytesWf args = true ∧ args.length ≤ 238 := ⟨{ typ := 1, ctype := 3, att := 9 }, [1, 2, 3], by decide⟩

theorem test_met_FlitsOnTheLanes_4 :
    ∃ f : Flit, f.wf = true ∧ f.typ = 2 := ⟨{ typ := 2, ackSeq := 9 }, by decide⟩

theorem test_met_FlitsOnTheLanes_5 :
    ∃ w i j : Nat, w ∣ 256 ∧ i < w ∧ j < 256 / w := ⟨64, 63, 3, by decide⟩

theorem test_met_FlitsOnTheLanes_7 :
    ∃ f : Flit, f.err = [] := ⟨{ typ := 2 }, by decide⟩

theorem test_met_FlitsOnTheLanes_8 :
    ∃ kind att body : Nat, kind < 2 ^ 8 ∧ att < 2 ^ 8 ∧ body < 2 ^ 208 := ⟨4, 1, 2 ^ 208 - 1, by decide⟩

theorem test_met_FlitsOnTheLanes_9 :
    ∃ lanes l : Nat, l < 68 ∧ lanes.testBit l = true := ⟨2 ^ 67, 67, by decide⟩


end
end

section
/-!
Where a line lies in a Vale die (spec/03 R64): which bits of an address its bit fields, its slice and its set depend on.
-/

namespace Sys2Proof.Machine

/-! ## Bit fields of an address -/

/-- A field that starts at or above bit `a` depends on the address from bit `a` on alone. -/
theorem bits_congr_of_shiftRight_eq {x y a lo : Nat} (w : Nat) (ha : a ≤ lo) (h : x >>> a = y >>> a) :
    bits x lo w = bits y lo w := by
  obtain ⟨d, rfl⟩ := Nat.exists_eq_add_of_le ha
  simp only [bits, Nat.shiftRight_add, h]

/-- A shorter field at the same place is the low part of the longer one. -/
theorem bits_mod_two_pow {w v : Nat} (n lo : Nat) (h : v ≤ w) : bits n lo w % 2 ^ v = bits n lo v :=
  Nat.mod_mod_of_dvd _ (Nat.pow_dvd_pow 2 h)

/-- The address from bit `lo` on is its field there with what lies above the field. -/
theorem shiftRight_eq_bits_add (n lo w : Nat) : n >>> lo = bits n lo w + 2 ^ w * n >>> (lo + w) := by
  rw [bits, Nat.shiftRight_add, Nat.shiftRight_eq_div_pow (n >>> lo) w, Nat.mod_add_div]

/-- Two addresses that agree above a field and in it agree from its first bit on. -/
theorem shiftRight_eq_of_bits_eq {x y lo w : Nat} (hi : x >>> (lo + w) = y >>> (lo + w))
    (h : bits x lo w = bits y lo w) : x >>> lo = y >>> lo := by
  rw [shiftRight_eq_bits_add x lo w, shiftRight_eq_bits_add y lo w, hi, h]

/-- The groups from bit `lo` up depend on the address from any lower bit on alone. -/
theorem xorGroups_congr_of_shiftRight_eq {x y a : Nat} (h : x >>> a = y >>> a) (k : Nat) {lo : Nat} (ha : a ≤ lo) :
    xorGroups x lo k = xorGroups y lo k := by
  induction k generalizing lo with
  | zero => rfl
  | succ k ih => rw [xorGroups, xorGroups, bits_congr_of_shiftRight_eq 4 ha h, ih (by omega)]

/-- An exclusive or with the same value on both sides can be undone. The model's own files import no library file that
holds this fact. -/
theorem xor_eq_xor_iff_left_eq {a b c : Nat} : a ^^^ c = b ^^^ c ↔ a = b := by
  have hundo (n : Nat) : n ^^^ c ^^^ c = n := by rw [Nat.xor_assoc, Nat.xor_self, Nat.xor_zero]
  constructor
  · intro h
    rw [← hundo a, h, hundo b]
  · intro h
    rw [h]

/-! ## The slice and the set -/

/-- Of two addresses that agree from bit 10 on, GA[9:6] alone tells the slices apart. -/
theorem valeSlice_eq_iff_of_shiftRight_eq {x y : Nat} (h : x >>> 10 = y >>> 10) :
    valeSlice x = valeSlice y ↔ bits x 6 4 = bits y 6 4 := by
  rw [valeSlice, valeSlice, xorGroups_congr_of_shiftRight_eq h 11 (by omega), xor_eq_xor_iff_left_eq]

/-- Of two addresses with one tag, GA[21:10] alone tells the sets apart. -/
theorem valeSet_eq_iff_of_tag_eq {x y : Nat} (h : bits x 22 34 = bits y 22 34) :
    valeSet x = valeSet y ↔ bits x 10 12 = bits y 10 12 := by
  have hlow : bits x 22 12 = bits y 22 12 := by
    rw [← bits_mod_two_pow x 22 (by omega : 12 ≤ 34), h, bits_mod_two_pow y 22 (by omega)]
  rw [valeSet, valeSet, hlow, xor_eq_xor_iff_left_eq]

/-- The tag of a 56-bit address is all of it from bit 22 on. -/
theorem tag_eq_shiftRight {x : Nat} (hx : x < 2 ^ 56) : bits x 22 34 = x >>> 22 :=
  Nat.mod_eq_of_lt (by rw [Nat.shiftRight_eq_div_pow]; omega)

/-- Slice, set, tag and byte determine the address: the tag gives GA[55:22], the set then GA[21:10], the slice then
GA[9:6] (R64: GA[9:6] is not stored). -/
theorem eq_of_valePlace_eq {x y : Nat} (hx : x < 2 ^ 56) (hy : y < 2 ^ 56) (hslice : valeSlice x = valeSlice y)
    (hset : valeSet x = valeSet y) (htag : bits x 22 34 = bits y 22 34) (hbyte : x % 64 = y % 64) : x = y := by
  have h22 : x >>> (10 + 12) = y >>> (10 + 12) := by rw [← tag_eq_shiftRight hx, htag, tag_eq_shiftRight hy]
  have h10 : x >>> (6 + 4) = y >>> (6 + 4) := shiftRight_eq_of_bits_eq h22 ((valeSet_eq_iff_of_tag_eq htag).mp hset)
  have h6 : x >>> (0 + 6) = y >>> (0 + 6) :=
    shiftRight_eq_of_bits_eq h10 ((valeSlice_eq_iff_of_shiftRight_eq h10).mp hslice)
  exact shiftRight_eq_of_bits_eq h6 hbyte

/-- A line of an aligned KiB agrees with the KiB's first byte from bit 10 on. -/
theorem shiftRight_ten_add_line {ga i : Nat} (hga : ga % 1024 = 0) (hi : i < 16) : (ga + 64 * i) >>> 10 = ga >>> 10 := by
  simp only [Nat.shiftRight_eq_div_pow]
  omega

/-- GA[9:6] numbers the lines of an aligned KiB. -/
theorem bits_six_four_add_line {ga i : Nat} (hga : ga % 1024 = 0) (hi : i < 16) : bits (ga + 64 * i) 6 4 = i := by
  simp only [bits, Nat.shiftRight_eq_div_pow]
  omega

/-- Two lines of an aligned KiB that lie in one slice are one line. -/
theorem line_eq_of_valeSlice_eq {ga i j : Nat} (hga : ga % 1024 = 0) (hi : i < 16) (hj : j < 16)
    (h : valeSlice (ga + 64 * i) = valeSlice (ga + 64 * j)) : i = j := by
  have hkib : (ga + 64 * i) >>> 10 = (ga + 64 * j) >>> 10 := by
    rw [shiftRight_ten_add_line hga hi, shiftRight_ten_add_line hga hj]
  rw [← bits_six_four_add_line hga hi, (valeSlice_eq_iff_of_shiftRight_eq hkib).mp h, bits_six_four_add_line hga hj]

/-- Settles O54: slice and set are the bits of R64 by their definitions; an address follows from its place from the tag
down, and the lines of an aligned KiB differ in GA[9:6] alone. -/
theorem valePlacement : Obligations.ValePlacement := by
  unfold Obligations.ValePlacement
  refine ⟨fun ga => ?slice, fun _ => rfl, fun _ _ => eq_of_valePlace_eq, fun _ _ _ => line_eq_of_valeSlice_eq⟩
  case slice => simp only [valeSlice, xorGroups, Nat.xor_zero, Nat.reduceAdd]

end Sys2Proof.Machine
end

section
/-!
The stored responses of an ingress and QUERY_TAG (spec/15 R352, R353): what answering a queued command stores and where,
and what the immediate command sends for a tag that has a stored response and for one that has none.
-/

namespace Sys2Proof.Machine

/-! ## One ingress is written, one packet is sent -/

@[simp] theorem State.ing_setIng_self (s : State) (g : Ingress) (x : IngSt) : (s.setIng g x).ing g = x := by
  cases g <;> rfl

theorem State.ing_setIng_of_ne (s : State) {g f : Ingress} (x : IngSt) (h : f ≠ g) : (s.setIng g x).ing f = s.ing f := by
  match g, f with
  | .msl, .mbox | .mbox, .msl => rfl
  | .msl, .msl | .mbox, .mbox => exact absurd rfl h

@[simp] theorem State.ing_sendPkt (s : State) (g f : Ingress) (p : Pkt) : (s.sendPkt g p).ing f = s.ing f := by
  cases g <;> cases f <;> rfl

@[simp] theorem State.sentOn_setIng (s : State) (g f : Ingress) (x : IngSt) : (s.setIng g x).sentOn f = s.sentOn f := by
  cases g <;> cases f <;> rfl

@[simp] theorem State.sentOn_sendPkt_self (s : State) (g : Ingress) (p : Pkt) :
    (s.sendPkt g p).sentOn g = s.sentOn g ++ [p] := by
  cases g <;> rfl

@[simp] theorem State.tagBusy_setIng (s : State) (g f : Ingress) (x : IngSt) (t : Nat) :
    (s.setIng g x).tagBusy f t = s.tagBusy f t := by
  cases g <;> rfl

/-! ## Answering a queued command -/

@[simp] theorem State.stored_complete (s : State) (c : QCmd) (st aux : Nat) (data : List Nat) :
    ((s.complete c st aux data).ing c.ing).stored =
      Tbl.set (fun _ => none) (s.ing c.ing).stored c.pkt.tag (some (rspPkt c.pkt st aux data)) := by
  rw [State.complete, State.ing_sendPkt, State.ing_setIng_self]

theorem State.ing_complete_of_ne (s : State) (c : QCmd) (st aux : Nat) (data : List Nat) {g : Ingress} (h : g ≠ c.ing) :
    (s.complete c st aux data).ing g = s.ing g := by
  rw [State.complete, State.ing_sendPkt, State.ing_setIng_of_ne _ _ h]

/-! ## Serving an immediate command -/

/-- The ingress no longer holds the immediate command that is served; `q` wait behind it. -/
abbrev State.takeImm (s : State) (g : Ingress) (q : List Pkt) : State := s.setIng g { s.ing g with imm := q }

/-- The oldest immediate command of an ingress, with its argument bytes there, is answered as its body says. -/
theorem State.execImm_of_serves {s : State} {g : Ingress} {op need : Nat} {k : Pkt} {q : List Pkt}
    (body : Pkt → State → State × Reply) (h : s.Serves g op k q) (hneed : need ≤ k.data.length) :
    s.execImm g op need body =
      let r := body k (s.takeImm g q)
      r.1.answer g k r.2.1 r.2.2.1 r.2.2.2 := by
  obtain ⟨himm, hop, hrun, hversion⟩ := h
  simp only [State.execImm, himm, hop, hrun, hversion, Nat.not_lt.mpr hneed, and_self, if_true, if_false]

section
variable {s : State} {g : Ingress} {k : Pkt} {q : List Pkt}

theorem execQueryTag_of_stored {r : Pkt} (h : s.Serves g opQUERY_TAG k q) (hdata : k.data ≠ [])
    (hr : Tbl.get (fun _ => none) (s.ing g).stored (k.data.headD 0) = some r) :
    execQueryTag g s = .next ((s.takeImm g q).sendPkt g r) := by
  obtain ⟨himm, hop, hrun, hversion⟩ := h
  simp only [execQueryTag, himm, hr]
  exact if_pos ⟨hop, hrun, hdata, hversion⟩

theorem execQueryTag_of_not_stored (h : s.Serves g opQUERY_TAG k q) (hdata : k.data ≠ [])
    (hnone : Tbl.get (fun _ => none) (s.ing g).stored (k.data.headD 0) = none) :
    execQueryTag g s = .next ((s.takeImm g q).answer g k
      (if s.tagBusy g (k.data.headD 0) then stIN_PROGRESS else stNOT_FOUND)) := by
  have himm : (s.ing g).imm = k :: q := h.1
  simp only [execQueryTag, himm, hnone]
  rw [State.execImm_of_serves _ h (List.length_pos_iff.mpr hdata)]
  simp only [State.tagBusy_setIng]

end

/-- Settles O57: `complete` writes the one key of the one ingress, and QUERY_TAG sends what that key reads, or answers
with whether the tag is busy. -/
theorem storedResponses : Obligations.StoredResponses := by
  unfold Obligations.StoredResponses
  refine ⟨fun s c st aux data => ⟨?ownTag, ?otherTag, ?otherIngress⟩, ?stored, ?notStored⟩
  case ownTag => rw [State.stored_complete, Tbl.get_set_self]
  case otherTag =>
    intro u hu
    rw [State.stored_complete, Tbl.get_set_of_ne _ _ _ hu]
  case otherIngress => exact fun g hg => State.ing_complete_of_ne s c st aux data hg
  case stored =>
    intro g k r q s hserves hdata hr
    refine Completes.of_exec (execQueryTag_of_stored hserves hdata hr) ⟨?_, ?_⟩
    · rw [State.sentOn_sendPkt_self, State.sentOn_setIng]
    · rw [State.ing_sendPkt, State.ing_setIng_self]
  case notStored =>
    intro g k q s hserves hdata hnone
    refine Completes.of_exec (execQueryTag_of_not_stored hserves hdata hnone) ?_
    rw [State.answer, State.sentOn_sendPkt_self, List.getLast?_concat]
    rfl

end Sys2Proof.Machine
end

section
/-!
FREEZE and the counters (spec/18 R404, R409): while frozen no uncore counter counts, and the counters of a core count from
what FREEZE is no part of. What `elapse` makes of mcycle is stated in terms of the hart's clock alone (`State.mcycle_elapse`).
-/

namespace Sys2Proof.Machine

/-! ## Uncore counters -/

theorem State.count_of_frozen {s : State} (h : s.get R.CCOL_CTL_FREEZE = 1) (b ev : Nat) (item : Option Nat)
    (ids : Option (Nat × Nat)) (n : Nat) : s.count b ev item ids n = s := by
  unfold State.count
  exact if_pos (by rw [h, beq_self_eq_true, Bool.or_true])

theorem State.put_freeze (s : State) {v : Nat} (hv : v < 2) :
    (s.put R.CCOL_CTL_FREEZE v).get R.CCOL_CTL_FREEZE = v ∧ (s.put R.CCOL_CTL_FREEZE v).pwr = s.pwr ∧
      s.OnlyRegs [R.rCCOL_CTL] (s.put R.CCOL_CTL_FREEZE v) :=
  ⟨(State.get_put_self s _ v (by decide)).trans (Nat.mod_eq_of_lt hv), State.put_pwr s _ v,
    State.OnlyRegs.put s v (List.mem_singleton_self _)⟩

/-- A register that no uncore counter writes: outside CCOL's counts and pending bits, and not the count of dropped MSIs. Unlike
a `Quiet` one it may be a CSR. -/
def Uncounted (a : Nat) : Prop := a ≠ R.rIOMMU_MSI_DROPS ∧ (a < 0x400080 ∨ 0x500000 ≤ a)

theorem State.OnlyRegs.sendMsi (s : State) (ga d rid : Nat) : s.OnlyRegs [R.rIOMMU_MSI_DROPS] (s.sendMsi ga d rid) :=
  fun _ n => State.sendMsi_reg s ga d rid (fun e => n (e ▸ List.mem_singleton_self _))

/-- An addition writes the counter, its bank's pending bit and, where the MSI is dropped, the count of that. -/
theorem State.OnlyRegs.ctrAdd (s : State) (b j n : Nat) :
    s.OnlyRegs [R.rCCOL_COUNT b j, R.rCCOL_OVF_PEND (b / 64), R.rIOMMU_MSI_DROPS] (s.ctrAdd b j n) := by
  unfold State.ctrAdd
  extract_lets c s1 s2 pend s3
  have h1 := State.OnlyRegs.put s c (f := R.CCOL_COUNT_COUNT b j) (.head [R.rCCOL_OVF_PEND (b / 64), R.rIOMMU_MSI_DROPS])
  have h2 := h1.trans (State.OnlyRegs.put s1 1 (f := R.CCOL_COUNT_OVF b j) (.head _))
  have h3 := h2.trans (State.OnlyRegs.put s2 (pend + 1 <<< (b % 64)) (f := R.CCOL_OVF_PEND_PEND (b / 64)) (.tail _ (.head _)))
  split
  · exact h1
  split
  · split
    · exact h2
    split
    · exact h3.trans ((State.OnlyRegs.sendMsi s3 _ _ _).mono (by simp))
    · exact h3
  · exact h2

theorem State.reg_ctrAdd (s : State) {b j a : Nat} (n : Nat) (hb : b < 354) (hj : j < 32) (ha : Uncounted a) :
    (s.ctrAdd b j n).reg a = s.reg a := by
  refine State.OnlyRegs.ctrAdd s b j n a ?_
  obtain ⟨hdrops, hrange⟩ := ha
  simp only [List.mem_cons, List.not_mem_nil, or_false, not_or, R.rCCOL_COUNT, R.rCCOL_OVF_PEND]
  omega

theorem State.reg_count (s : State) (b ev : Nat) (item : Option Nat) (ids : Option (Nat × Nat)) (n : Nat) {a : Nat}
    (ha : Uncounted a) : (s.count b ev item ids n).reg a = s.reg a := by
  unfold State.count
  extract_lets off
  split
  · rfl
  · refine foldN_keeps_lt (fun s => s.reg a) _ (fun j hj s => ?_) s
    obtain ⟨hb, hj⟩ := bankCounters_lt hj
    split
    · exact State.reg_ctrAdd s n hb hj ha
    · rfl

theorem Tbl.mem_keysIn_range {α : Type} {t : Tbl α} {lo hi a : Nat} {p : α → Bool} (h : a ∈ Tbl.keysIn t lo hi p) :
    lo ≤ a ∧ a < hi := by
  obtain ⟨e, he, rfl⟩ := List.mem_map.mp h
  have hp := (List.mem_filter.mp he).2
  simp only [Bool.and_eq_true, decide_eq_true_eq] at hp
  exact hp.1

theorem State.reg_ctrTick (s : State) (t0 t1 : Nat) {c a : Nat} (hc : 0x410000 ≤ c ∧ c < 0x410000 + 354 * 0x200)
    (ha : Uncounted a) : (s.ctrTick t0 t1 c).reg a = s.reg a := by
  unfold State.ctrTick
  extract_lets b j off mf rf f n k
  split
  · rfl
  · exact State.reg_ctrAdd s k (by omega) (by omega) ha

theorem State.reg_ctrTicks (s : State) (t0 t1 : Nat) {a : Nat} (ha : Uncounted a) : (s.ctrTicks t0 t1).reg a = s.reg a := by
  unfold State.ctrTicks
  split
  · rfl
  · exact foldl_keeps_mem (fun s => s.reg a) _
      (fun c hc s => State.reg_ctrTick s t0 t1 (Tbl.mem_keysIn_range (List.mem_filter.mp hc).1) ha) s

/-! ## Parts that the frame of an update does not name are as before -/

theorem State.Only.core {s t : State} {ps : List Part} (h : s.Only ps t) (hp : Part.core ∉ ps) : t.core = s.core :=
  h.2.2 .core hp

theorem State.Only.regs {s t : State} {ps : List Part} (h : s.Only ps t) (hp : Part.regs ∉ ps) : t.regs = s.regs :=
  h.2.2 .regs hp

theorem State.Only.pwr {s t : State} {ps : List Part} (h : s.Only ps t) (hp : Part.pwr ∉ ps) : t.pwr = s.pwr :=
  h.2.2 .pwr hp

theorem State.only_count (s : State) (b ev : Nat) (item : Option Nat) (ids : Option (Nat × Nat)) (n : Nat) :
    s.Only [.regs, .pass] (s.count b ev item ids n) :=
  State.count_frame (State.Frame.refl s) (by simp) (by simp)

theorem State.only_ctrTicks (s : State) (t0 t1 : Nat) : s.Only [.regs, .pass] (s.ctrTicks t0 t1) :=
  State.ctrTicks_frame (State.Frame.refl s) (by simp) (by simp)

theorem State.only_meterAdd (s : State) (src mcid n : Nat) : s.Only [.meter] (s.meterAdd src mcid n) :=
  State.meterAdd_frame (State.Frame.refl s) (by simp)

/-! ## The hpm counters of a core -/

theorem State.OnlyRegs.setReg_congr {s t : State} {l : List Nat} (h : s.OnlyRegs l t) (a : Nat) (v : Word) :
    (s.setReg a v).OnlyRegs l (t.setReg a v) := by
  intro b hb
  by_cases hba : b = a
  · rw [hba, State.reg_setReg_self, State.reg_setReg_self]
  · rw [State.reg_setReg_of_ne s v hba, State.reg_setReg_of_ne t v hba, h b hb]

theorem State.OnlyRegs.setHart_congr {s t : State} {l : List Nat} (h : s.OnlyRegs l t) (k : Nat) (x y : HartSt) :
    (s.setHart k x).OnlyRegs l (t.setHart k y) := h

theorem foldN_rel {Rel : State → State → Prop} {f : Nat → State → State}
    (hf : ∀ i s t, Rel s t → Rel (f i s) (f i t)) (n : Nat) {s t : State} (h : Rel s t) : Rel (foldN n s f) (foldN n t f) := by
  unfold foldN
  induction List.range n generalizing s t with
  | nil => exact h
  | cons i l ih => exact ih (hf i s t h)

/-- What an event adds depends on the hart's own counters alone. -/
theorem State.OnlyRegs.hpmAdd {s t : State} {l : List Nat} {h : Nat} (hst : s.OnlyRegs l t)
    (hcounter : ∀ i, R.rmhpmcounter h i ∉ l) (hevent : ∀ i, R.rmhpmevent h i ∉ l) (p : Priv) (ev n : Nat) :
    (s.hpmAdd h p ev n).OnlyRegs l (t.hpmAdd h p ev n) := by
  refine foldN_rel (Rel := fun s t => s.OnlyRegs l t) (fun i s t hst => ?_) 16 hst
  dsimp only
  rw [hst _ (hcounter i), hst _ (hevent i)]
  split
  · split
    · exact ((hst.setReg_congr _ _).setReg_congr _ _).setHart_congr h _ _
    · exact hst.setReg_congr _ _
  · exact hst

/-! ## A core's share of an interval -/

/-- Registers that the passing of time writes for core `h`, beside mcycle. -/
def TickReg (h a : Nat) : Prop := a = R.rCORE_FREQ_CUR h ∨ ∃ i < 16, a = R.rmhpmcounter h i ∨ a = R.rmhpmevent h i

theorem ite_keeps {α : Type} (g : State → α) {c : Prop} [Decidable c] {s t : State} (hg : g t = g s) :
    g (if c then t else s) = g s := by
  split
  · exact hg
  · rfl

/-- What the passing of time for core `h` keeps, but for mcycle: it depends on no register, hart state, meter or uncore counter
that is written then. -/
structure KeptByTime {α : Type} (h : Nat) (g : State → α) : Prop where
  setReg : ∀ (s : State) (a : Nat) (v : Word), TickReg h a → g (s.setReg a v) = g s
  setHart : ∀ (s : State) (x : HartSt), g (s.setHart h x) = g s
  meterAdd : ∀ (s : State) (src mcid n : Nat), g (s.meterAdd src mcid n) = g s
  count : ∀ (s : State) (b ev n : Nat), g (s.count b ev none none n) = g s

/-- The part of a hart that mcycle advances by. -/
structure HartClock where
  mcycle : Word
  up : Bool
  step : Nat
  limit : Nat
  cyc : Nat

def State.clockOf (s : State) (h : Nat) : HartClock :=
  { mcycle := s.reg (R.rmcycle h), up := s.coreUp h, step := s.get (R.CORE_FREQ_CUR_STEP h),
    limit := s.get R.PWR_STATUS_CURRENT_LIMIT, cyc := (s.hart h).cyc }

/-- mcycle of that hart after `n` ns (spec/17 R386, R392). -/
def HartClock.after (c : HartClock) (n : Nat) : Word :=
  if c.up then c.mcycle + BitVec.ofNat 64 ((c.cyc + n * (32 + c.step) * (if c.limit = 1 then 1 else 2)) / 80) else c.mcycle

/-- The registers of a hart's clock. -/
def clockRegs (h : Nat) : List Nat :=
  [R.rmcycle h, R.rVALE_CORE_STATUS (h / 32) (h % 32), R.rCORE_FREQ_CUR h, R.rPWR_STATUS]

theorem State.clockOf_congr {s t : State} {h : Nat} (hreg : ∀ a ∈ clockRegs h, t.reg a = s.reg a)
    (hcyc : (t.hart h).cyc = (s.hart h).cyc) : t.clockOf h = s.clockOf h := by
  simp only [clockRegs, List.forall_mem_cons] at hreg
  obtain ⟨hmcycle, hstatus, hfreq, hpwr, -⟩ := hreg
  have hstate : t.get (R.VALE_CORE_STATUS_STATE (h / 32) (h % 32)) = s.get (R.VALE_CORE_STATUS_STATE (h / 32) (h % 32)) :=
    State.get_congr hstatus
  have hstep : t.get (R.CORE_FREQ_CUR_STEP h) = s.get (R.CORE_FREQ_CUR_STEP h) := State.get_congr hfreq
  have hlimit : t.get R.PWR_STATUS_CURRENT_LIMIT = s.get R.PWR_STATUS_CURRENT_LIMIT := State.get_congr hpwr
  simp only [State.clockOf, State.coreUp, State.coreState, hmcycle, hstate, hstep, hlimit, hcyc]

theorem State.clockOf_of_core {s t : State} {h : Nat} (hreg : ∀ a ∈ clockRegs h, t.reg a = s.reg a) (hcore : t.core = s.core) :
    t.clockOf h = s.clockOf h :=
  State.clockOf_congr hreg (by rw [State.hart_of_core hcore])

theorem mem_clockRegs {h a : Nat} : a ∈ clockRegs h ↔
    a = 0x10000000000 + h * 0x1000 + 0xb00 ∨ a = 0x1000000 + h / 32 * 0x100000 + 0x80008 + h % 32 * 0x40 ∨
      a = 0x10000000000 + h * 0x1000 + 0xdc0 ∨ a = 0x0300010 := by
  simp only [clockRegs, List.mem_cons, List.not_mem_nil, or_false, R.rmcycle, R.rVALE_CORE_STATUS, R.rCORE_FREQ_CUR,
    R.rPWR_STATUS]

theorem TickReg.csr {h a : Nat} (ha : TickReg h a) : ∃ k, a = 0x10000000000 + h * 0x1000 + k ∧
    (k = 0xdc0 ∨ (0xb03 ≤ k ∧ k < 0xb13) ∨ (0x323 ≤ k ∧ k < 0x333)) := by
  obtain rfl | ⟨i, hi, rfl | rfl⟩ := ha
  · exact ⟨0xdc0, rfl, .inl rfl⟩
  · exact ⟨0xb03 + i, by rw [R.rmhpmcounter]; omega, by omega⟩
  · exact ⟨0x323 + i, by rw [R.rmhpmevent]; omega, by omega⟩

theorem uncounted_of_mem_clockRegs {h a : Nat} (hh : h < 384) (ha : a ∈ clockRegs h) : Uncounted a := by
  rw [mem_clockRegs] at ha
  unfold Uncounted R.rIOMMU_MSI_DROPS
  omega

theorem uncounted_mcycle (h : Nat) : Uncounted (R.rmcycle h) := by
  unfold Uncounted R.rIOMMU_MSI_DROPS R.rmcycle
  omega

/-- The turn of one core writes no register of another's clock. -/
theorem not_tickReg_of_mem_clockRegs {h k a : Nat} (hk : k < 384) (hne : k ≠ h) (ha : a ∈ clockRegs k) : ¬ TickReg h a := by
  intro ht
  obtain ⟨off, rfl, hoff⟩ := ht.csr
  rw [mem_clockRegs] at ha
  omega

theorem not_tickReg_mcycle (h k : Nat) : ¬ TickReg h (R.rmcycle k) := by
  intro ht
  obtain ⟨off, ha, hoff⟩ := ht.csr
  rw [R.rmcycle] at ha
  omega

section
variable {α : Type} {h : Nat} {g : State → α}

theorem KeptByTime.hpmAdd (hg : KeptByTime h g) (s : State) (p : Priv) (ev n : Nat) : g (s.hpmAdd h p ev n) = g s := by
  refine foldN_keeps_lt g 16 (fun i hi s => ?_) s
  have hcounter : TickReg h (R.rmhpmcounter h i) := .inr ⟨i, hi, .inl rfl⟩
  have hevent : TickReg h (R.rmhpmevent h i) := .inr ⟨i, hi, .inr rfl⟩
  dsimp only
  refine ite_keeps g ?_
  split
  · rw [hg.setHart, hg.setReg _ _ _ hevent, hg.setReg _ _ _ hcounter]
  · exact hg.setReg _ _ _ hcounter

theorem KeptByTime.hpmCycles (hg : KeptByTime h g) (s : State) (k : Nat) : g (s.hpmCycles h k) = g s := by
  unfold State.hpmCycles
  extract_lets x add s1 s2 s3
  have hadd (b : Bool) (ev : Nat) (s : State) : g (add b ev s) = g s := ite_keeps g (hg.hpmAdd s _ ev k)
  exact (hadd _ _ _).trans ((hadd _ _ _).trans ((hadd _ _ _).trans (hadd _ _ _)))

theorem KeptByTime.coreSlew (hg : KeptByTime h g) (s : State) (n : Nat) : g (s.coreSlew n h) = g s := by
  unfold State.coreSlew
  extract_lets x
  split
  · rfl
  · exact (hg.setReg _ _ _ (.inl rfl)).trans (hg.setHart _ _)

/-- Of what it keeps, `coreTime` changes what advancing mcycle changes. -/
theorem KeptByTime.coreTime (hg : KeptByTime h g) (s : State) (n : Nat) :
    g (s.coreTime n h) = g (if s.coreUp h then s.setReg (R.rmcycle h) ((s.clockOf h).after n) else s) := by
  unfold State.coreTime
  by_cases hup : s.coreUp h = true
  · rw [if_pos hup, if_pos hup]
    extract_lets mcid x k s1 s2 s3 s4
    have h4 : g s4 = g s3 := ite_keeps g (hg.count _ _ _ _)
    have hafter : (s.clockOf h).after n = s.reg (R.rmcycle h) + BitVec.ofNat 64 (k / 80) := if_pos hup
    rw [hg.coreSlew, hg.hpmCycles, h4, hg.meterAdd, hg.meterAdd, hafter]
    exact hg.setHart (s.setReg (R.rmcycle h) _) _
  · rw [if_neg hup, if_neg hup]

end

theorem keptByTime_mcycle (h k : Nat) : KeptByTime h (fun s => s.reg (R.rmcycle k)) where
  setReg s _ v ha := State.reg_setReg_of_ne s v (fun e => not_tickReg_mcycle h k (e ▸ ha))
  setHart s x := State.reg_setHart s h x _
  meterAdd s _ _ _ := State.reg_of_regs ((State.only_meterAdd s _ _ _).regs (by decide)) _
  count s _ _ _ := State.reg_count s _ _ _ _ _ (uncounted_mcycle k)

theorem keptByTime_clockOf {h k : Nat} (hk : k < 384) (hne : k ≠ h) : KeptByTime h (fun s => s.clockOf k) where
  setReg s a v ha := State.clockOf_of_core
    (fun b hb => State.reg_setReg_of_ne s v (fun e => not_tickReg_of_mem_clockRegs hk hne hb (e ▸ ha))) rfl
  setHart s x := State.clockOf_congr (fun a _ => State.reg_setHart s h x a) (by rw [State.hart_setHart_of_ne s x hne])
  meterAdd s src mcid n :=
    have only := State.only_meterAdd s src mcid n
    State.clockOf_of_core (fun a _ => State.reg_of_regs (only.regs (by decide)) a) (only.core (by decide))
  count s _ _ _ := State.clockOf_of_core (fun _ ha => State.reg_count s _ _ _ _ _ (uncounted_of_mem_clockRegs hk ha))
    ((State.only_count s _ _ _ _ _).core (by decide))

theorem State.mcycle_coreTime_self (s : State) (n h : Nat) :
    (s.coreTime n h).reg (R.rmcycle h) = (s.clockOf h).after n := by
  rw [(keptByTime_mcycle h h).coreTime s n]
  split
  case isTrue => exact State.reg_setReg_self s _ _
  case isFalse hup => exact (if_neg hup).symm

theorem rmcycle_ne {h k : Nat} (hne : k ≠ h) : R.rmcycle k ≠ R.rmcycle h := by
  unfold R.rmcycle
  omega

theorem State.mcycle_coreTime_of_ne (s : State) (n : Nat) {h k : Nat} (hne : k ≠ h) :
    (s.coreTime n h).reg (R.rmcycle k) = s.reg (R.rmcycle k) := by
  rw [(keptByTime_mcycle h k).coreTime s n]
  exact ite_keeps (fun s => s.reg (R.rmcycle k)) (State.reg_setReg_of_ne s _ (rmcycle_ne hne))

theorem State.clockOf_coreTime_of_ne (s : State) (n : Nat) {h k : Nat} (hk : k < 384) (hne : k ≠ h) :
    (s.coreTime n h).clockOf k = s.clockOf k := by
  rw [(keptByTime_clockOf hk hne).coreTime s n]
  refine ite_keeps (fun s => s.clockOf k) (State.clockOf_of_core (fun a ha => State.reg_setReg_of_ne s _ ?_) rfl)
  rw [mem_clockRegs] at ha
  unfold R.rmcycle
  omega

theorem foldN_succ {σ : Type} (n : Nat) (s : σ) (f : Nat → σ → σ) : foldN (n + 1) s f = f n (foldN n s f) := by
  unfold foldN
  rw [List.range_succ, List.foldl_append]
  rfl

/-- Each core's turn advances its own mcycle, from the clock that it had before every turn. -/
theorem State.mcycle_coreTimes (s : State) (n k : Nat) {m : Nat} (hm : m ≤ 384) :
    (foldN m s (fun h s => s.coreTime n h)).reg (R.rmcycle k) =
      if k < m then (s.clockOf k).after n else s.reg (R.rmcycle k) := by
  induction m with
  | zero => rfl
  | succ m ih =>
    rw [foldN_succ]
    by_cases hk : k = m
    · subst hk
      have hclock : (foldN k s (fun h s => s.coreTime n h)).clockOf k = s.clockOf k :=
        foldN_keeps_lt (fun s => s.clockOf k) k (fun h hh s => State.clockOf_coreTime_of_ne s n hm (Nat.ne_of_gt hh)) s
      rw [State.mcycle_coreTime_self, hclock, if_pos (Nat.lt_succ_self k)]
    · have hlt : k < m + 1 ↔ k < m := by omega
      rw [State.mcycle_coreTime_of_ne _ n hk, ih (by omega)]
      simp only [hlt]

/-! ## mcycle over an interval -/

theorem State.reg_bump_of_ne (s : State) {f : FRef} {a : Nat} (n : Nat) (h : a ≠ f.addr) : (s.bump f n).reg a = s.reg a :=
  State.reg_put_of_ne s _ h

/-- Stated for any `x`: a check of one update of the patrol's time by `rfl` would compute with the numbers in it. -/
theorem State.reg_with_ras (s : State) (x : RasSt) (a : Nat) : ({ s with ras := x } : State).reg a = s.reg a := rfl

theorem State.mcycle_onchipTime (s : State) (n h : Nat) : (s.onchipTime n).reg (R.rmcycle h) = s.reg (R.rmcycle h) := by
  have hne : R.rmcycle h ≠ R.rRAS_PATROL_STATUS := by
    unfold R.rmcycle R.rRAS_PATROL_STATUS
    omega
  unfold State.onchipTime
  extract_lets per left ras full passes s1
  have hbump : s1.reg (R.rmcycle h) = s.reg (R.rmcycle h) := State.reg_bump_of_ne s passes hne
  split
  · rfl
  split
  · exact State.reg_with_ras s _ _
  · exact (State.reg_with_ras s1 _ _).trans hbump

theorem State.mcycle_hznTime (s : State) (n p h : Nat) : (s.hznTime n p).reg (R.rmcycle h) = s.reg (R.rmcycle h) := by
  have htx (s : State) (w : Option Bool) (m k : Nat) : s.Only [.meter, .qos] (s.hznTxBytes p m w k) :=
    State.hznTxBytes_frame (State.Frame.refl s) (by simp) (by simp)
  unfold State.hznTime
  extract_lets x word t idle s1
  refine ite_keeps (fun s => s.reg (R.rmcycle h)) ?_
  exact (State.reg_of_regs ((htx _ _ _ _).regs (by decide)) _).trans (State.reg_count s1 _ _ _ _ _ (uncounted_mcycle h))

theorem State.clockOf_ctrTicks (s : State) (t0 t1 : Nat) {h : Nat} (hh : h < 384) :
    (s.ctrTicks t0 t1).clockOf h = s.clockOf h :=
  State.clockOf_of_core (fun _ ha => State.reg_ctrTicks s t0 t1 (uncounted_of_mem_clockRegs hh ha))
    ((State.only_ctrTicks s t0 t1).core (by decide))

theorem State.hostUp_congr {s t : State} (h : t.pwr.stage = s.pwr.stage) : t.hostUp = s.hostUp := by
  simp only [State.hostUp, h]

/-- GTIME advances, and the uncore counters with it, before the cores' turns. -/
def State.gtimeTo (s : State) (now frac : Nat) : State :=
  let u := if s.hostUp then s.ctrTicks s.pwr.now now else s
  { u with pwr := { u.pwr with now := now, frac := frac } }

theorem State.elapse_of_gtime {s : State} (hgtime : ¬ (s.pwr.stage = .off ∨ ¬ s.pwr.refclk)) (n : Nat) :
    ∃ now frac, s.elapse n =
      if (s.gtimeTo now frac).hostUp then
        foldN 8 ((foldN 384 (s.gtimeTo now frac) (fun h s => s.coreTime n h)).onchipTime n) (fun p s => s.hznTime n p)
      else s.gtimeTo now frac :=
  ⟨_, _, if_neg hgtime⟩

theorem State.hostUp_gtimeTo (s : State) (now frac : Nat) : (s.gtimeTo now frac).hostUp = s.hostUp := by
  have hpwr : (if s.hostUp then s.ctrTicks s.pwr.now now else s).pwr = s.pwr :=
    ite_keeps State.pwr ((State.only_ctrTicks s _ _).pwr (by decide))
  have hstage : (s.gtimeTo now frac).pwr.stage = (if s.hostUp then s.ctrTicks s.pwr.now now else s).pwr.stage := rfl
  exact State.hostUp_congr (by rw [hstage, hpwr])

theorem State.mcycle_gtimeTo (s : State) (now frac h : Nat) : (s.gtimeTo now frac).reg (R.rmcycle h) = s.reg (R.rmcycle h) :=
  ite_keeps (fun s => s.reg (R.rmcycle h)) (State.reg_ctrTicks s _ _ (uncounted_mcycle h))

theorem State.clockOf_gtimeTo (s : State) (now frac : Nat) {h : Nat} (hh : h < 384) :
    (s.gtimeTo now frac).clockOf h = s.clockOf h :=
  ite_keeps (fun s => s.clockOf h) (State.clockOf_ctrTicks s _ _ hh)

/-- Where GTIME counts and the host domain is up, an interval advances mcycle of each core by its own clock; else it changes
none (spec/17 R391, R392). -/
theorem State.mcycle_elapse (s : State) (n h : Nat) :
    (s.elapse n).reg (R.rmcycle h) =
      if ¬ (s.pwr.stage = .off ∨ ¬ s.pwr.refclk) ∧ s.hostUp ∧ h < 384 then (s.clockOf h).after n else s.reg (R.rmcycle h) := by
  by_cases hgtime : s.pwr.stage = .off ∨ ¬ s.pwr.refclk
  · have helapse : s.elapse n = s := if_pos hgtime
    rw [helapse, if_neg (fun ⟨h, _⟩ => h hgtime)]
  obtain ⟨now, frac, helapse⟩ := State.elapse_of_gtime hgtime n
  rw [helapse, State.hostUp_gtimeTo]
  by_cases hup : s.hostUp = true
  · rw [if_pos hup, foldN_keeps (fun s => s.reg (R.rmcycle h)) (fun p s => State.mcycle_hznTime s n p h),
      State.mcycle_onchipTime, State.mcycle_coreTimes _ n h (Nat.le_refl 384)]
    by_cases hh : h < 384
    · rw [if_pos hh, if_pos ⟨hgtime, hup, hh⟩, State.clockOf_gtimeTo s now frac hh]
    · rw [if_neg hh, if_neg (fun ⟨_, _, hlt⟩ => hh hlt), State.mcycle_gtimeTo]
  · rw [if_neg hup, if_neg (fun ⟨_, h, _⟩ => hup h), State.mcycle_gtimeTo]

/-! ## FREEZE is no part of a core's clock or counters -/

theorem State.clockOf_put_freeze (s : State) (v h : Nat) :
    (s.put R.CCOL_CTL_FREEZE v).clockOf h = s.clockOf h := by
  refine State.clockOf_of_core (fun a ha => State.reg_put_of_ne s v ?_) rfl
  rw [mem_clockRegs] at ha
  simp only [R.CCOL_CTL_FREEZE, R.rCCOL_CTL]
  omega

theorem State.mcycle_put_freeze (s : State) (v h : Nat) :
    (s.put R.CCOL_CTL_FREEZE v).reg (R.rmcycle h) = s.reg (R.rmcycle h) :=
  congrArg HartClock.mcycle (State.clockOf_put_freeze s v h)

theorem State.mcycle_elapse_put_freeze (s : State) (v n h : Nat) :
    ((s.put R.CCOL_CTL_FREEZE v).elapse n).reg (R.rmcycle h) = (s.elapse n).reg (R.rmcycle h) := by
  have hpwr : (s.put R.CCOL_CTL_FREEZE v).pwr = s.pwr := State.put_pwr s _ v
  have hup : (s.put R.CCOL_CTL_FREEZE v).hostUp = s.hostUp := State.hostUp_congr (by rw [hpwr])
  rw [State.mcycle_elapse, State.mcycle_elapse, hpwr, hup, State.clockOf_put_freeze, State.mcycle_put_freeze]

theorem State.hpm_put_freeze (s : State) (v : Nat) (h i : Nat) (p : Priv) (ev : Nat) :
    ((s.put R.CCOL_CTL_FREEZE v).hpm h p ev).reg (R.rmhpmcounter h i) = (s.hpm h p ev).reg (R.rmhpmcounter h i) := by
  have hcounter (j : Nat) : R.rmhpmcounter h j ∉ [R.rCCOL_CTL] := by
    unfold R.rmhpmcounter R.rCCOL_CTL
    simp only [List.mem_singleton]
    omega
  have hevent (j : Nat) : R.rmhpmevent h j ∉ [R.rCCOL_CTL] := by
    unfold R.rmhpmevent R.rCCOL_CTL
    simp only [List.mem_singleton]
    omega
  have hput : s.OnlyRegs [R.rCCOL_CTL] (s.put R.CCOL_CTL_FREEZE v) := State.OnlyRegs.put s v (List.mem_singleton_self _)
  exact hput.hpmAdd hcounter hevent p ev 1 _ (hcounter i)

/-- Settles O58: a frozen bank is left by the first test of `count`; the two commands write the one field; and what an
interval adds to mcycle, and an event to an hpm counter, is a function of registers other than CCOL_CTL. -/
theorem countersWhileFrozen : Obligations.CountersWhileFrozen := by
  unfold Obligations.CountersWhileFrozen
  refine ⟨fun s b ev item ids n h => State.count_of_frozen h b ev item ids n, fun s => ?freeze, fun s => ?unfreeze,
    State.mcycle_elapse_put_freeze, State.hpm_put_freeze⟩
  case freeze => exact Completes.of_exec rfl (State.put_freeze s (v := 1) (by decide))
  case unfreeze => exact Completes.of_exec rfl (State.put_freeze s (v := 0) (by decide))

end Sys2Proof.Machine
end
